-- ==== Sys2Proof/Word.lean ====
section
/-! DEFINITION. The words of the model: bytes, codes, binary32 patterns and instants, with their plainest arithmetic. -/

namespace Sys2Proof

/-- One byte of a frame, an image or a record. -/
abbrev Byte := BitVec 8

/-- A 16-bit two's-complement code: a converter code (R22) or a Q15 value (R75). -/
abbrev Code := BitVec 16

/-- A binary32 pattern (R78, Table 17-1). -/
abbrev F32 := BitVec 32

/-- An instant or a duration in fine steps of 78.125 ps (R179): 32 fine steps are one 2.5 ns count, 64 are 5 ns. -/
abbrev Time := Nat

/-- `n` counts of 2.5 ns (R179). -/
def Time.counts (n : Nat) : Time := 32 * n

/-- `n` microseconds: 12,800 fine steps each. -/
def Time.us (n : Nat) : Time := 12800 * n

/-- `n` milliseconds. -/
def Time.ms (n : Nat) : Time := 12800000 * n

/-- `n` seconds. -/
def Time.sec (n : Nat) : Time := 12800000000 * n

/-- `n` nanoseconds, rounded down to a fine step (1 ns is 12.8 fine steps). -/
def Time.ns (n : Nat) : Time := 64 * n / 5

/-- The TIME64 reading of an instant: whole nanoseconds, rounded down (R265). -/
def Time.toNs (t : Time) : Nat := 5 * t / 64

/-- Whole milliseconds of a duration. -/
def Time.toMs (t : Time) : Nat := t / 12800000

/-- A table of values by instance number, sorted by number; an unlisted instance holds the table's default. -/
abbrev Tbl (α : Type) := List (Nat × α)

/-- What the table holds for instance `k`; `d` where it is not listed. -/
def Tbl.get {α : Type} (d : α) (k : Nat) : Tbl α → α
  | [] => d
  | (j, v) :: r => if j = k then v else Tbl.get d k r

/-- The listed value of instance `k`, if any. -/
def Tbl.find? {α : Type} (k : Nat) : Tbl α → Option α
  | [] => none
  | (j, v) :: r => if j = k then some v else Tbl.find? k r

/-- The table with instance `k` set to `v`. -/
def Tbl.set {α : Type} (k : Nat) (v : α) : Tbl α → Tbl α
  | [] => [(k, v)]
  | (j, w) :: r =>
    if k < j then (k, v) :: (j, w) :: r
    else if j = k then (k, v) :: r
    else (j, w) :: Tbl.set k v r

/-- The table without instance `k`. -/
def Tbl.erase {α : Type} (k : Nat) : Tbl α → Tbl α
  | [] => []
  | (j, w) :: r => if j = k then r else (j, w) :: Tbl.erase k r

/-- The bits of a Bool as a number. -/
def b2n (b : Bool) : Nat := if b then 1 else 0

/-- The little-endian number of a byte string. -/
def leNat : List Byte → Nat
  | [] => 0
  | b :: r => b.toNat + 256 * leNat r

/-- `n` little-endian bytes of a number, the higher ones dropped. -/
def leBytes : Nat → Nat → List Byte
  | 0, _ => []
  | n + 1, v => BitVec.ofNat 8 v :: leBytes n (v / 256)

/-- `len` bytes from offset `off`. -/
def slice (off len : Nat) (l : List Byte) : List Byte := (l.drop off).take len

/-- The U`8·len` at offset `off`, little-endian. -/
def leAt (off len : Nat) (l : List Byte) : Nat := leNat (slice off len l)

/-- Reads the low `w` bits of `n` as two's complement. -/
def signed (w : Nat) (n : Nat) : Int :=
  let m := n % 2 ^ w
  if 2 ^ (w - 1) ≤ m then (m : Int) - 2 ^ w else m

/-- The two's-complement bits of `z` in `w` bits. -/
def unsigned (w : Nat) (z : Int) : Nat := (z % (2 ^ w : Int)).toNat

end Sys2Proof
end

