-- ==== Sys2Proof/Syntax.lean ====
section
/-! DEFINITION. The commands of the block: one constructor for each row of spec/opcode_table.json, with the operands
the row's rule gives it. What reaches the module from outside (converter codes, frames, readbacks, telegrams, host
requests) stands in the operands. -/

namespace Sys2Proof

abbrev Batch := Fin 32
abbrev Channel := Fin 256
abbrev Lane := Fin 24
/-- A loop slot: fixed 0 to 1,023, float 1,024 + s (Table 05-4). -/
abbrev SlotNo := Fin 1088
abbrev FloatSlotNo := Fin 64
abbrev GenNo := Fin 64
abbrev PairNo := Fin 8
abbrev CoreNo := Fin 18
abbrev ChainNo := Fin 80
abbrev DriverNo := Fin 6
abbrev SliceNo := Fin 272
abbrev LinkNo := Fin 24
abbrev NodeNo := Fin 768
abbrev StageNo := Fin 10
abbrev CircuitNo := Fin 4
abbrev TpoNo := Fin 8
abbrev BufferNo := Fin 32
abbrev DomainNo := Fin 8
abbrev CanNo := Fin 2
/-- Slots 0 to 7 of the rack, and 8 for an external arbiter (R296). -/
abbrev RackSlot := Fin 9

/-- The roles of R368, by rank. -/
inductive Role where
  | observer | operator | engineer | safety
  deriving DecidableEq, Repr

/-- The rank of a role (R368). -/
def Role.rank : Role → Nat
  | .observer => 1
  | .operator => 2
  | .engineer => 3
  | .safety => 4

/-- Who sends a host request: the role it holds and whether it comes through the service port (R359, R368). -/
structure Req where
  role : Role
  servicePort : Bool
  /-- The session of the request; 0 where it comes by another path. -/
  sid : Nat := 0
  deriving DecidableEq, Repr

/-- The outcome of a lane's background test (Table 03-9). -/
inductive LaneTest where
  | pass | patternFailure | replicaFailure
  deriving DecidableEq, Repr

/-- One slice's calibration reading (R191): elements per count and whether the map is monotonic. -/
structure CalCount where
  elements : Nat
  monotonic : Bool
  deriving DecidableEq, Repr

/-- Node telemetry as it stands in an up slot (Table 10-6). -/
structure UpSlot where
  volt : Code
  cur : Code
  temp : Code
  status : BitVec 16
  legs : BitVec 32
  deriving DecidableEq, Repr

/-- One edge command (Table 10-5). -/
structure EdgeCmd where
  pos : Nat
  slot : Nat
  level : Bool
  offset : Nat
  deriving DecidableEq, Repr

/-- The header of a frame (Table 10-3): type and role byte, link, node count, departure in TAI ns, epoch, sequence, request and response. -/
structure FrameHead where
  kind : Byte
  link : Byte
  count : Nat
  tf : Nat
  epoch : Nat
  seq : Nat
  reqCode : Nat
  reqPos : Nat
  reqAddr : Nat
  reqData : Nat
  respCode : Nat
  respPos : Nat
  respData : Nat
  deriving DecidableEq, Repr

/-- A frame as the module receives it (R204, R205): how it arrived, its header and its up section; `crc` is the CRC-32 it carries where that is
not the one of its content. -/
structure UpFrame where
  crcGood : Bool
  stomped : Bool
  violations : Nat
  head : FrameHead
  slots : List UpSlot
  crc : BitVec 32 := 0
  deriving DecidableEq, Repr

/-- A frame as a node receives it (R204 to R209): the direction it travels (`inward` is toward the module), how it arrived, its header, control
table, up section and edge list. -/
structure NodeFrame where
  inward : Bool
  crcGood : Bool
  violation : Bool
  stomped : Bool
  head : FrameHead
  controls : List Byte
  slots : List UpSlot
  edges : List EdgeCmd
  deriving DecidableEq, Repr

/-- One repeat of the delay measurement (R216): R_M in ps, and b − a of each position in fine steps. -/
structure DelayRun where
  trip : Nat
  spans : List Nat
  deriving DecidableEq, Repr

/-- What registers 0x0000 to 0x001C and 0x002C of a node read (Table 10-8). -/
structure NodeId where
  protocol : Nat
  kind : Nat
  slots : Nat
  bootMask : Nat
  voltFs : F32
  curFs : F32
  tempFs : F32
  epoch : Nat
  minDead : Nat
  deriving DecidableEq, Repr

/-- What the enumeration of a link finds (R213, R216): what its nodes read, in their order, and the repeats of its delay measurement. -/
structure LinkScan where
  nodes : List NodeId
  runs : List DelayRun
  deriving DecidableEq, Repr

/-- What a node reads of itself beside a cell's voltage and current (R209): the temperature, the slots whose bootstrap supply is below the
undervoltage threshold and below the refresh threshold, and whether its temperature limit is passed. -/
structure NodeSelf where
  temp : Code
  under : BitVec 32
  below : BitVec 32
  hot : Bool
  deriving DecidableEq, Repr

/-- What the drain-source monitor of a side of a driver sees (R233): AUX_SENSE and VBRIDGE in mV, and for how long V_DS has been above the
threshold, in ns. -/
structure DrainSense where
  high : Bool
  sense : Nat
  bridge : Nat
  held : Nat
  deriving DecidableEq, Repr

/-- A driver for a diagnostic run, with VBRIDGE in mV then (R235). -/
structure DiagRun where
  driver : DriverNo
  bridge : Nat
  deriving DecidableEq, Repr

/-- What a step of a diagnostic run measures (R235): the driver's switch node, and VBRIDGE then, in mV. -/
structure DiagNode where
  node : Nat
  bridge : Nat
  deriving DecidableEq, Repr

/-- How a node of a disconnect circuit reads (R246). -/
inductive NodeLevel where
  | low | mid | high
  deriving DecidableEq, Repr

/-- The readback pattern of a circuit: node H and node L (Table 12-4). -/
structure Pattern where
  h : NodeLevel
  l : NodeLevel
  deriving DecidableEq, Repr

/-- What the island reads of a circuit's nodes SAFE_HSn and SAFE_LSn, in mV (R246). -/
structure NodeVolts where
  h : Nat
  l : Nat
  deriving DecidableEq, Repr

/-- What the island reads of one circuit in a cycle: its nodes, coil current in mA, contact feedback closed. -/
structure Readback where
  nodes : NodeVolts
  coil : Nat
  feedback : Bool
  deriving DecidableEq, Repr

/-- What a Sync message gives on a port: the master's time and the offset of module time from it, both in fine steps. -/
structure SyncMsg where
  domain : Nat
  masterTime : Time
  offset : Int
  /-- Who sent it: its sourcePortIdentity. -/
  sender : Nat := 0
  deriving DecidableEq, Repr

/-- The fields of an Announce message that the module uses (R265, R267, R268). -/
structure AnnounceMsg where
  domain : Nat
  grandmaster : Nat
  priority1 : Nat
  clockClass : Nat
  accuracy : Nat
  variance : Nat
  priority2 : Nat
  stepsRemoved : Nat
  ptpTimescale : Bool
  utcOffset : Int
  utcValid : Bool
  leap61 : Bool
  leap59 : Bool
  inaccuracy : Nat
  /-- Who sent it: its sourcePortIdentity. -/
  sender : Nat := 0
  deriving DecidableEq, Repr

/-- A peer-delay message (R267): a request to answer, or a response that gives the measured delay in ns. -/
inductive PdelayMsg where
  | request (domain : Nat) (rx : Time)
  | response (domain : Nat) (ns : Nat)
  | delayReq (domain : Nat) (rx : Time)
  deriving DecidableEq, Repr

/-- A Delay_Resp (R267): the port that receives it, its domain and the path delay it gives in ns. -/
structure DelayRespMsg where
  portB : Bool
  domain : Nat
  ns : Nat
  deriving DecidableEq, Repr

/-- What a PTP log interval makes the module send (R267). -/
inductive PtpKind where
  | sync | announce | pdelayReq | delayReq
  deriving DecidableEq, Repr

/-- The payload of a heartbeat (Table 15-2). -/
structure HeartbeatMsg where
  pair : Nat
  authority : Nat
  health : Nat
  epoch : Nat
  nodeEpoch : Nat
  circuits : Nat
  crcGood : Bool
  role : Nat := 0
  arbiter : Nat := 0
  arbiterSlot : Nat := 255
  reach : List (Nat × Nat) := []
  deriving DecidableEq, Repr

/-- What a measurement of the hop delays gives (R298), in ps: of RACK_UP, and of RACK_DN where the module there has measured it. -/
structure HopDelays where
  up : Nat
  down : Option Nat := none
  deriving DecidableEq, Repr

/-- The payload of a PREPARE (Table 15-2). -/
structure PrepareMsg where
  txn : Nat
  op : Nat
  at_ : Time
  mask : Nat
  params : List F32
  deriving DecidableEq, Repr

/-- A gateway frame as the target module takes it (R358): the role of the master's session, the service of Table 17-6 and the fields
that the payload holds. -/
structure GatewayReq where
  role : Role
  service : Nat
  index : Nat
  sub : Nat
  elem : Nat
  last : Bool
  param : Nat
  data : List Byte
  deriving DecidableEq, Repr

/-- A target module's gateway reply (R358): its abort code, the progress of a busy answer, the total length and the last-segment flag of a
segment read. -/
structure GatewayRep where
  abort : Nat
  progress : Nat
  param : Nat
  last : Bool
  data : List Byte
  deriving DecidableEq, Repr

/-- The committed state of a fixed slot (Table 04-2); s1 and s2 are acc40 codes, y and x1 Q15 codes. -/
structure FixedState where
  s1 : Int := 0
  s2 : Int := 0
  y : Int := 0
  x1 : Int := 0
  feCount : Nat := 0
  satHigh : Bool := false
  satLow : Bool := false
  feAlarm : Bool := false
  bankB : Bool := false
  deriving DecidableEq, Repr

/-- The committed state of a float slot (Table 04-3): s0 to s11, y and x1 as binary32. -/
structure FloatState where
  s : List F32 := []
  y : F32 := 0
  x1 : F32 := 0
  feCount : Nat := 0
  sat : Bool := false
  feAlarm : Bool := false
  bankB : Bool := false
  deriving DecidableEq, Repr

/-- A generator record of a state copy (R305): x, v, a and the target in use. -/
structure GenRec where
  x : F32
  v : F32
  a : F32
  target : F32
  deriving DecidableEq, Repr

/-- A cycle's state copy (R305, Table 15-6). -/
structure StateCopy where
  batch : Batch
  state : Nat
  abandoned : Bool
  openLoop : Bool
  damping : Bool
  t0 : Time
  fixed : List FixedState
  floats : List FloatState
  gens : List GenRec
  deriving DecidableEq, Repr

/-- A row or a column of a memory (Table 16-16). -/
structure MemUnit where
  column : Bool
  number : Nat
  deriving DecidableEq, Repr

/-- A dictionary datagram as it arrives (Table 17-5), with its source address (0 for the service port) and the
PRP pair it came over. -/
structure Datagram where
  src : Nat
  pair : Nat
  service : Bool
  magic : Bool
  sid : Nat
  seq : Nat
  index : Nat
  sub : Nat
  elem : Nat
  last : Bool
  target : Nat
  param : Nat
  data : List Byte
  tag : List Byte
  srcPort : Nat := 0
  dstPort : Nat := 39250
  deriving DecidableEq, Repr

/-- A USDO request (R361) of a client's node-ID; `segment` is the byte offset of a segment of a write, and whether it is the final one. -/
structure UsdoReq where
  unicast : Bool
  write : Bool
  index : Nat
  sub : Nat
  data : List Byte
  client : Nat := 1
  segment : Option (Nat × Bool) := none
  deriving DecidableEq, Repr

/-- One member value of a GOOSE message (R366, R367). -/
inductive GooseVal where
  | bool (b : Bool)
  | int (i : Int)
  | uint (n : Nat)
  | float (f : F32)
  | dbpos (code : Fin 4)
  | other
  deriving DecidableEq, Repr

/-- A GOOSE message as a port receives it (R367). -/
structure GooseMsg where
  appid : Nat
  gocbRef : List Byte
  datSet : List Byte
  confRev : Nat
  test : Bool
  simulation : Bool
  ndsCom : Bool
  ttlMs : Nat
  pair : Nat
  members : List GooseVal
  deriving DecidableEq, Repr

/-- The commands: one constructor for every row of the table of operations and events. `t` is the instant of the
command in module time; `q` is the host request that writes or reads an entry. -/
inductive Instr where
  /-- SAMPLE_INSTANT (R13): An update point of a batch timebase arrives: the chains latch, the cycle's items and tagged events are enqueued under one chain tag, and the due state work of that t0 runs. -/
  | sampleInstant (t : Time) (b : Batch)
  /-- INPUTS_READY (R60): The input latency has elapsed, so the first work item of the cycle becomes eligible and is dispatched to a lane if one is free. -/
  | inputsReady (t : Time) (b : Batch)
  /-- ITEM_COMPLETE (R61): A work item completes on its lane; the next item of its tag becomes eligible and the idle lane chooses its next item. -/
  | itemComplete (t : Time) (l : Lane)
  /-- SLOT_FAULT (R79): An F32 operation yields NaN; the cycle stops at once without commit and the batch takes the slot-fault reaction. -/
  | slotFault (t : Time) (b : Batch) (fs : FloatSlotNo)
  /-- DEADLINE (R66): The deadline of a batch cycle arrives; items not yet completed are abandoned and the cycle is handled as a miss. -/
  | deadline (t : Time) (b : Batch)
  /-- BATCH_LOAD (R183): At the update point at which results take effect, all member channels' staging duties enter their shadows, and outputs enable if due. -/
  | batchLoad (t : Time) (b : Batch)
  /-- LOAD_POINT (R182): At a channel load point the slice forms its active compare pair from the shadow duty and carry, with minimum pulse and refresh limits. -/
  | loadPoint (t : Time) (c : Channel)
  /-- DICTIONARY_JOB (R64): A host write queued as a dictionary job runs once no work item of its batch is enqueued, eligible or running. -/
  | dictionaryJob (t : Time) (b : Batch)
  /-- PACE_MEASUREMENT (R54): Every 10 µs the module times one replica run per lane, updates pace and margin and may request retirement. -/
  | paceMeasurement (t : Time) (paces : List Nat)
  /-- LANE_TEST_START (R67): The rotation step expires and the next lane enters draining or, for a reserve lane, its test. -/
  | laneTestStart (t : Time)
  /-- LANE_DRAINED (R67): No batch is homed on the draining lane and no item runs on it, so the lane goes under test or leaves service. -/
  | laneDrained (t : Time) (l : Lane)
  /-- LANE_TEST_END (R67): The 2 ms lane test ends and the lane becomes the free lane or is retired. -/
  | laneTestEnd (t : Time) (l : Lane) (res : LaneTest)
  /-- LANE_STALL (R69): A lane has not acknowledged an operation within 250 ns; its item restarts on the free lane and the lane is retired. -/
  | laneStall (t : Time) (l : Lane)
  /-- FOLLOWING_ERROR_TICK (R84): A supervisor tick of 2^P committed cycles completes and the following-error count rises or falls, possibly setting the alarm. -/
  | followingErrorTick (t : Time) (sl : SlotNo)
  /-- OPEN_LOOP_TIMEOUT (R86): The open-loop time of a voltage-feedback ride runs out and the batch blocks. -/
  | openLoopTimeout (t : Time) (b : Batch)
  /-- LOOP_RECLOSE (R86): The failed voltage chain has been clean for the programmed number of samples and the loop closes again at the next t0. -/
  | loopReclose (t : Time) (b : Batch)
  /-- SAR_SLOT (R23): A 200 ns slot boundary of a pair's sequence: both cores sample, the previous results are stored and the sequence advances or ends. -/
  | sarSlot (t : Time) (p : PairNo) (x0 : Code) (x1 : Code)
  /-- PAIR_TRIGGER (R24): A trigger reaches a pair; it starts a sequence, is held pending or is dropped and counted. -/
  | pairTrigger (t : Time) (p : PairNo)
  /-- CORE_SPARE_TAKEOVER (R30): A spare core takes over from a retired core at the next sequence boundary. -/
  | coreSpareTakeover (t : Time) (k : CoreNo)
  /-- CORE_BACKGROUND_TEST (R30): After 1 s of shadowing, the shadowed core is tested on its test DAC and retired if it fails. -/
  | coreBackgroundTest (t : Time) (k : CoreNo) (pass : Bool)
  /-- SLOT_RESULT_READ (R25): A read of a core's slot result register returns the result and clears its fresh bit. -/
  | slotResultRead (t : Time) (q : Req) (k : CoreNo) (i : Fin 8)
  /-- TEST_DAC_INJECT (R29): A write of the test DAC code injects the DAC into the target input, if permitted. -/
  | testDacInject (t : Time) (q : Req) (p : PairNo) (code : Nat)
  /-- PATH_TEST (R29): A path test command converts DAC codes 1,024 and 3,072 on the target input and reports the result code. -/
  | pathTest (t : Time) (q : Req) (p : PairNo) (r0 : Code) (r1 : Code)
  /-- CLEAR_FAULT (R27): A write to the pair's clear-fault entry clears the plausibility fault and resumes plausibility. -/
  | clearFault (t : Time) (q : Req) (p : PairNo)
  /-- DECIMATION_INSTANT (R35): At a decimation instant a sigma-delta chain forms and normalises its sinc sum. -/
  | decimationInstant (t : Time) (c : ChainNo) (bits : List Bool)
  /-- SIGMA_DELTA_LOSS (R31): A modulator clock is absent or 256 consecutive bits are equal, and the chain reports loss. -/
  | sigmaDeltaLoss (t : Time) (c : ChainNo) (clockAbsent : Bool)
  /-- FAST_TAP_OUTPUT (R37): A chain's fast-tap value is released at its fixed latency, and the detectors, tracker and grid-locked tap update from it. -/
  | fastTapOutput (t : Time) (c : ChainNo)
  /-- TRACKING_LOST_TIMEOUT (R40): No period has been accepted for 44.4 ms and the tracker sets tracking lost. -/
  | trackingLostTimeout (t : Time) (c : ChainNo)
  /-- CHAIN_ENABLE (R42): A chain is enabled; filters are seeded or zeroed and detectors restart. -/
  | chainEnable (t : Time) (q : Req) (c : ChainNo)
  /-- CHAIN_BANK_WRITE (R41): A coefficient table is written to the chain's inactive bank, checked, and any pending swap cancelled. -/
  | chainBankWrite (t : Time) (q : Req) (c : ChainNo) (img : List Byte)
  /-- CHAIN_SWAP_REQUEST (R41): A swap request for a chain's coefficient bank is accepted or refused. -/
  | chainSwapRequest (t : Time) (q : Req) (c : ChainNo) (v : Nat)
  /-- CHAIN_BANK_SWAPPED (R41): A pending chain bank swap takes effect between input samples or at the named batch's t0. -/
  | chainBankSwapped (t : Time) (c : ChainNo)
  /-- DETECTOR_WINDOW_WRITE (R43): A write of a detector's window setting restarts that detector. -/
  | detectorWindowWrite (t : Time) (q : Req) (c : ChainNo) (w : Nat)
  /-- BANK_SWAP_REQUEST (R83): A swap request through the batch's bank-control object is checked and made pending. -/
  | bankSwapRequest (t : Time) (q : Req) (b : Batch)
  /-- COPY_ACTIVE_TO_INACTIVE (R93): A command copies every active bank of the batch to its inactive bank as a dictionary job and cancels a pending swap. -/
  | copyActiveToInactive (t : Time) (q : Req) (b : Batch)
  /-- SLOT_BANK_WRITE (R82): A host write to a slot bank is refused on the active bank, range-checked, and cancels a pending swap of the batch. -/
  | slotBankWrite (t : Time) (q : Req) (sl : SlotNo) (bankB : Bool) (word : Fin 16) (v : Nat)
  /-- SLOT_STATE_WRITE (R89): A write to a slot's state is applied as a dictionary job, clamped to the slot limits. -/
  | slotStateWrite (t : Time) (q : Req) (sl : SlotNo) (i : Fin 12) (v : Nat)
  /-- TARGET_WRITE (R88): A target written to a profile generator is clamped and used from the next step, or stored while holding. -/
  | targetWrite (t : Time) (q : Req) (g : GenNo) (v : F32)
  /-- HOLD (R88): The hold command replaces a generator's target with its present position. -/
  | genHold (t : Time) (q : Req) (g : GenNo)
  /-- RELEASE (R88): The release command restores a generator's last stored target. -/
  | genRelease (t : Time) (q : Req) (g : GenNo)
  /-- PRESET (R88): The preset command sets a generator's position to the preset value with zero rate, only while outputs are not enabled. -/
  | genPreset (t : Time) (q : Req) (g : GenNo)
  /-- RECIPE_LOAD_AND_VERIFY (R94): The final segment of a recipe image starts the long operation recipe load and verify. -/
  | recipeLoadAndVerify (t : Time) (q : Req) (b : Batch) (img : List Byte)
  /-- RECIPE_LOAD_COMPLETE (R103): Recipe verification ends and a passing image is committed in one step, or a failing one changes nothing. -/
  | recipeLoadComplete (t : Time) (b : Batch)
  /-- RECIPE_UNLOAD (R94): A zero-length write to the recipe object unloads the recipe and releases its slots and generators. -/
  | recipeUnload (t : Time) (q : Req) (b : Batch)
  /-- BATCH_ENABLE (R55): A write of the batch enable runs admission and the cross-batch and node checks before the batch is enabled. -/
  | batchEnable (t : Time) (q : Req) (b : Batch) (v : Bool)
  /-- BASE_VALUES_WRITE (R120): A write of voltage or current full scale recomputes every derived coefficient into the inactive banks. -/
  | baseValuesWrite (t : Time) (q : Req) (b : Batch) (current : Bool) (v : F32)
  /-- BANK_VIEW_WRITE (R140): A write to a bank view object is range-checked and written as a dictionary job into the inactive bank. -/
  | bankViewWrite (t : Time) (q : Req) (b : Batch) (off : Fin 32) (sub : Nat) (v : Nat)
  /-- SETPOINT_WRITE (R127): A write of P*, Q*, f* or V* writes the named generator's target, or is staged or stored. -/
  | setpointWrite (t : Time) (q : Req) (b : Batch) (i : Fin 4) (v : F32)
  /-- STAGED_APPLICATION (R127): At the first t0 at or after the staged apply time the staged set reaches the generators. -/
  | stagedApplication (t : Time) (b : Batch)
  /-- SETPOINT_WATCHDOG (R127): The set-point watchdog period passes without a write and hold is issued to all four generators. -/
  | setpointWatchdog (t : Time) (b : Batch)
  /-- PCC_BREAKER_STATUS_WRITE (R135): A write of the PCC breaker status, by host or GOOSE, drives islanding detection or a breaker closing in Resync. -/
  | pccBreakerStatusWrite (t : Time) (q : Req) (b : Batch) (v : Nat)
  /-- BATCH_START (R139): Command 0x01 takes the batch from Off to Precharge at the next t0. -/
  | batchStart (t : Time) (q : Req) (b : Batch)
  /-- BATCH_STOP (R139): Command 0x02 ramps P and Q to zero and enters Off when both are at target. -/
  | batchStop (t : Time) (q : Req) (b : Batch)
  /-- BATCH_BLOCK (R139): Command 0x03 blocks the batch. -/
  | batchBlock (t : Time) (q : Req) (b : Batch)
  /-- BATCH_RELEASE (R139): Command 0x04 takes the batch from Blocked to Starter. -/
  | batchRelease (t : Time) (q : Req) (b : Batch)
  /-- FAULT_RESET (R139): Command 0x05 takes the batch from Fault to Off. -/
  | faultReset (t : Time) (q : Req) (b : Batch)
  /-- ISLAND (R139): Command 0x06 takes the batch from Connected to Islanded. -/
  | batchIsland (t : Time) (q : Req) (b : Batch)
  /-- RESYNC (R170): Command 0x07 starts Resync from Islanded or Coast when the reference side is live. -/
  | batchResync (t : Time) (q : Req) (b : Batch)
  /-- BLACK_START (R166): Command 0x08 takes a leader in Starter on a dead bus into BlackStart. -/
  | batchBlackStart (t : Time) (q : Req) (b : Batch)
  /-- COAST_TIME_LIMIT (R138): The coast time limit expires and the batch stops through the stop ramp to Off. -/
  | coastTimeLimit (t : Time) (b : Batch)
  /-- CLEAR_STATISTICS (R140): A write to the clear-statistics entry clears the batch's deadline statistics. -/
  | clearStatistics (t : Time) (q : Req) (b : Batch)
  /-- MAXIMUM_LIMITED_TIME (R145): The time in CurrentLimited reaches the maximum limited time and the limited-too-long reaction is taken. -/
  | maximumLimitedTime (t : Time) (b : Batch)
  /-- GUARD_DELAY (R146): The guard delay in CurrentLimited expires and the angle guard becomes active. -/
  | guardDelay (t : Time) (b : Batch)
  /-- EXCURSION_END (R151): An excursion ends after the quantity has stayed in its band for the return hold. -/
  | excursionEnd (t : Time) (b : Batch) (freq : Bool)
  /-- ENVELOPE_WRITE (R150): An envelope image is written, checked, and marked valid or invalid. -/
  | envelopeWrite (t : Time) (q : Req) (b : Batch) (e : Fin 4) (img : List Byte)
  /-- DC_LINK_READY (R157): The DC-link source has been above its threshold for 10 ms and the batch leaves Precharge for Starter. -/
  | dcLinkReady (t : Time) (b : Batch)
  /-- PRECHARGE_TIME_LIMIT (R157): The precharge time limit runs out and the batch enters Fault. -/
  | prechargeTimeLimit (t : Time) (b : Batch)
  /-- STARTER_WINDOW_TIMEOUT (R159): No period of chain a is accepted within 2·N_obs/f_n and the window ends as indeterminate. -/
  | starterWindowTimeout (t : Time) (b : Batch)
  /-- BUS_DECLARED_DEAD (R161): The bus voltage has stayed below the dead threshold for the dead time and the bus is declared dead. -/
  | busDeclaredDead (t : Time) (b : Batch)
  /-- STARTER_WAIT_LIMIT (R165): The Starter wait limit expires and the batch enters Off. -/
  | starterWaitLimit (t : Time) (b : Batch)
  /-- BLACK_START_TIME_LIMIT (R169): The black-start time limit passes before completion and the batch enters Fault. -/
  | blackStartTimeLimit (t : Time) (b : Batch)
  /-- AUTOMATIC_RESYNC (R170): The reference side has been live for the reference stable time and Resync starts automatically. -/
  | automaticResync (t : Time) (b : Batch)
  /-- WINDOW_HELD (R173): The closing window has stood for the hold time and closing is requested or permitted. -/
  | windowHeld (t : Time) (b : Batch)
  /-- CLOSING_TIME_LIMIT (R173): The island has not reported closing within the closing time limit and Resync aborts. -/
  | closingTimeLimit (t : Time) (b : Batch)
  /-- RESYNC_TIME_LIMIT (R174): The resync time limit expires and Resync returns to its state of entry. -/
  | resyncTimeLimit (t : Time) (b : Batch)
  /-- REFERENCE_NOT_LIVE (R174): The reference side has not been live for 1 s and Resync aborts. -/
  | referenceNotLive (t : Time) (b : Batch)
  /-- PWM_BLOCK_N (R189): A PWM_BLOCK_N input low for at least 20 ns blocks every batch in its mask. -/
  | pwmBlockN (t : Time) (k : Fin 2) (low : Bool)
  /-- BOOTSTRAP_UNDERVOLTAGE (R186): A bootstrap undervoltage turns the upper gate off at once and holds the lower gate on. -/
  | bootstrapUndervoltage (t : Time) (d : DriverNo)
  /-- RECHARGE_HOLD (R186): The bootstrap has been above its refresh threshold for the recharge hold and operation resumes at the next load point. -/
  | rechargeHold (t : Time) (d : DriverNo)
  /-- SLICE_CALIBRATION (R191): Every 1 ms each slice's replica measures elements per count, rebuilds its map or counts a failure. -/
  | sliceCalibration (t : Time) (counts : List CalCount)
  /-- EXTENDED_RECALIBRATION (R192): Every 100 ms the replica recalibrates the extended map against the reference. -/
  | extendedRecalibration (t : Time)
  /-- RETURN_TO_NORMAL_MODE (R193): After relock the slices of a batch return to normal mode at its next carrier boundary. -/
  | returnToNormalMode (t : Time) (b : Batch)
  /-- SLICE_BACKGROUND_TEST (R194): After a rotation step the shadowed slice is taken out of service for a 1 ms test. -/
  | sliceBackgroundTest (t : Time) (sl : SliceNo)
  /-- SLICE_TEST_END (R194): A slice test ends and the slice returns to the spare pool or is retired. -/
  | sliceTestEnd (t : Time) (sl : SliceNo) (pass : Bool)
  /-- SPARE_SLICE_TAKEOVER (R195): A shadowing spare replaces a retired slice at the channel's next load point. -/
  | spareSliceTakeover (t : Time) (c : Channel)
  /-- TEST_DUTY (R197): A test duty write enters the channel's shadow directly, if permitted. -/
  | testDuty (t : Time) (q : Req) (c : Channel) (v : Nat)
  /-- FRAME_DEPARTURE (R203): At a 5 µs frame-grid instant the module originates a frame on each enabled link with its latched control table and edge list. -/
  | frameDeparture (t : Time)
  /-- UP_FRAME_RECEIVED (R220): The module receives a frame whole, discards it if bad, and takes telemetry, responses and epochs from it. -/
  | upFrameReceived (t : Time) (k : LinkNo) (f : UpFrame)
  /-- NODE_CONTROL_BYTE (R207): A node receives its control byte and acts at once on a set block bit. -/
  | nodeControlByte (t : Time) (n : NodeNo) (ctl : Byte) (epoch : Nat)
  /-- NODE_FRAME_RECEIVED (R212): A node receives a frame, adopts a higher epoch, writes its slot and response, and forwards or stomps it. -/
  | nodeFrameReceived (t : Time) (n : NodeNo) (f : NodeFrame)
  /-- NODE_FRAME_USABLE (R203): A frame becomes usable at a node, which obeys its control byte and schedules its edges. -/
  | nodeFrameUsable (t : Time) (n : NodeNo)
  /-- NODE_EDGE (R217): A commanded edge time arrives and the node changes S and applies dead time. -/
  | nodeEdge (t : Time) (n : NodeNo)
  /-- NODE_SAMPLE (R209): A node samples cell voltage, current and temperature at t_f − 1,000 ns. -/
  | nodeSample (t : Time) (n : NodeNo) (v : Code) (i : Code) (own : NodeSelf)
  /-- TURN_NODE_FRAME (R203): A time-locked turn node originates a frame inward at a grid instant. -/
  | turnNodeFrame (t : Time) (n : NodeNo)
  /-- MISSED_FRAME_PERIOD (R218): No authoritative frame is usable by t_f + 6,000 ns + d_p and the node repeats edges. -/
  | missedFramePeriod (t : Time) (n : NodeNo)
  /-- NODE_WATCHDOG (R218): After W consecutive missed periods the node blocks every slot. -/
  | nodeWatchdog (t : Time) (n : NodeNo)
  /-- NODE_SHORT_CIRCUIT (R221): A short circuit or driver undervoltage in a slot turns it off and latches the fault. -/
  | nodeShortCircuit (t : Time) (n : NodeNo) (i : Fin 32) (undervoltage : Bool)
  /-- TURN_NODE_CHANGE (R202): A node's outer port loses or regains character sync for 1 ms and it becomes or stops being the turn node. -/
  | turnNodeChange (t : Time) (n : NodeNo) (turn : Bool)
  /-- READ_REGISTER (R210): A node answers a read request for a register. -/
  | readRegister (t : Time) (n : NodeNo) (addr : Nat)
  /-- WRITE_REGISTER (R214): A node applies a write request to a register from an authoritative frame. -/
  | writeRegister (t : Time) (n : NodeNo) (addr : Nat) (data : Nat) (epoch : Nat)
  /-- CLEAR_LATCHED_FAULTS (R215): A node clears latched fault bits whose cause is gone. -/
  | clearLatchedFaults (t : Time) (n : NodeNo) (epoch : Nat) (standing : Nat)
  /-- ENUMERATE_REQUEST (R213): A node takes the request data as its position and forwards it plus 1; the turn point returns N. -/
  | enumerateRequest (t : Time) (n : NodeNo) (data : Nat)
  /-- DELAY_MEASUREMENT (R216): A node latches the outward and looped passage of a frame and stores b − a. -/
  | delayMeasurement (t : Time) (n : NodeNo) (a : Nat) (b : Nat)
  /-- REQUEST_TIMEOUT (R210): No response within three frame periods; the module repeats the request or reports a timeout. -/
  | requestTimeout (t : Time) (k : LinkNo)
  /-- ENUMERATE (R213): The enumerate command enumerates a link through position, delay, register and epoch steps. -/
  | linkEnumerate (t : Time) (q : Req) (k : LinkNo) (found : LinkScan)
  /-- SYNC_RETURN (R213): Character sync returns on a link, which is enumerated or its nodes rejoined. -/
  | syncReturn (t : Time) (k : LinkNo) (found : LinkScan)
  /-- LINK_BREAK (R222): The module's receive side loses character sync for 4 µs or the turn node changes while running. -/
  | linkBreak (t : Time) (k : LinkNo) (unreached : Nat)
  /-- NODE_REGISTER_READ (R224): A host read of the node register data entry sends a read request to the node. -/
  | nodeRegisterRead (t : Time) (q : Req) (n : NodeNo)
  /-- NODE_REGISTER_WRITE (R214): A host write of the node register data entry sends a write request, if permitted. -/
  | nodeRegisterWrite (t : Time) (q : Req) (n : NodeNo) (v : Nat)
  /-- CLEAR_FAULTS (R215): The node clear-faults command sends a clear request when the batch state allows. -/
  | clearFaults (t : Time) (q : Req) (n : NodeNo)
  /-- VGATE_LOW (R229): VGATE falls below 10.0 V and every batch owning a driver is blocked. -/
  | vgateLow (t : Time) (mv : Nat)
  /-- VGATE_RECOVERED (R229): VGATE rises above 10.4 V and the supply-status bit clears. -/
  | vgateRecovered (t : Time) (mv : Nat)
  /-- VBRIDGE_OVERVOLTAGE (R229): VBRIDGE rises above 62 V and the driver-owning batches are blocked. -/
  | vbridgeOvervoltage (t : Time) (mv : Nat)
  /-- VBRIDGE_OVERVOLTAGE_CLEAR (R229): VBRIDGE falls below 61 V and the overvoltage bit clears. -/
  | vbridgeOvervoltageClear (t : Time) (mv : Nat)
  /-- VBRIDGE_LOW (R229): VBRIDGE falls below 12 V and a status bit is set. -/
  | vbridgeLow (t : Time) (mv : Nat)
  /-- VBRIDGE_LOW_CLEAR (R229): VBRIDGE rises above 12.5 V and the below-12 V bit clears. -/
  | vbridgeLowClear (t : Time) (mv : Nat)
  /-- BLANKING_END (R233): The blanking interval after a turn-on edge ends and the drain-source monitor starts comparing. -/
  | blankingEnd (t : Time) (d : DriverNo) (high : Bool)
  /-- SHORT (R234): A drain-source voltage above threshold persists for the filter time; both gates go off, the short latches and the batch blocks. -/
  | driverShort (t : Time) (d : DriverNo) (x : DrainSense)
  /-- DRIVER_CLEAR_FAULTS (R234): The driver clear-faults command clears the latched short bits when the batch state allows. -/
  | driverClearFaults (t : Time) (q : Req) (d : DriverNo)
  /-- RUN_DIAGNOSTIC (R235): A diagnostic run on a driver starts with test currents, if accepted. -/
  | runDiagnostic (t : Time) (q : Req) (d : DiagRun)
  /-- DIAGNOSTIC_STEP (R235): The settle time of a diagnostic step ends; the switch node is measured and the run continues or ends with a result. -/
  | diagnosticStep (t : Time) (d : DriverNo) (v : DiagNode) (vp : Nat)
  /-- ISLAND_SELF_TEST_END (R239): The island's start self-test ends and it enters Unlocked or Fault. -/
  | islandSelfTestEnd (t : Time) (pass : Bool)
  /-- ISLAND_CYCLE (R244): A 250 µs island cycle reads back every circuit, decides demands and commands the switches. -/
  | islandCycle (t : Time) (rb : List Readback)
  /-- ISLAND_SAMPLE (R240): The island converts AIN44 to AIN47 and tracks crossings. -/
  | islandSample (t : Time) (x0 : Code) (x1 : Code) (x2 : Code) (x3 : Code)
  /-- RMS_UPDATE (R240): Every half period the island updates its RMS values, frequency, RoCoF and the cross-check. -/
  | rmsUpdate (t : Time)
  /-- CROSS_CHECK_GRACE (R241): Invalid or missing pair results outlast the cross-check grace and a measurement fault is raised. -/
  | crossCheckGrace (t : Time) (second : Bool)
  /-- STAGE_TRIP (R242): A stage timer reaches the trip time and the stage demands opening of its circuits. -/
  | stageTrip (t : Time) (i : StageNo)
  /-- MEAN_UPDATE (R242): Every 3 s the 10-minute mean of an overvoltage stage in mode 1 is updated. -/
  | meanUpdate (t : Time) (i : StageNo)
  /-- DEAD_TO_THE_ISLAND (R240): The highest phase voltage has stayed below the dead-bus level for the dead-bus time. -/
  | deadToTheIsland (t : Time)
  /-- ISLAND_OSCILLATOR_CHECK (R238): Every 10 ms the supervisor compares the island oscillator with the housekeeping clock. -/
  | islandOscillatorCheck (t : Time) (dev : Int)
  /-- ISLAND_SELF_CHECK (R238): Every 1 s the island runs its memory and converter reference checks. -/
  | islandSelfCheck (t : Time) (pass : Bool)
  /-- PD7_SUPPLY_LOW (R238): The PD7 supply falls below its supervisor threshold and every safety switch turns off in hardware. -/
  | pd7SupplyLow (t : Time)
  /-- SAFE_STOP_N (R243): A SAFE_STOP_N input has been low for 1 ms and demands opening of its mask. -/
  | safeStopN (t : Time) (k : Fin 2) (low : Bool)
  /-- HOST_OPEN (R243): The circuit open command demands opening of the circuit. -/
  | hostOpen (t : Time) (q : Req) (n : CircuitNo)
  /-- HOST_CLOSE (R247): The circuit close command starts a proof test if the closing conditions hold, or is refused. -/
  | hostClose (t : Time) (q : Req) (n : CircuitNo)
  /-- ACKNOWLEDGE (R253): An acknowledgement runs steps 1 to 3 of the proof test and returns a faulted circuit to Open or refuses. -/
  | acknowledge (t : Time) (q : Req) (n : CircuitNo)
  /-- CONTACT_FEEDBACK_CLOSED (R250): SAFE_FBn reads closed and the circuit becomes Closed. -/
  | contactFeedbackClosed (t : Time) (n : CircuitNo)
  /-- CLOSING_TIME (R250): The circuit's closing time passes: without feedback it becomes Closed, with feedback not closed it opens with code 0x07. -/
  | closingTime (t : Time) (n : CircuitNo)
  /-- COIL_OVERCURRENT (R245): Coil current above 0.65 A for 1 ms is a circuit fault. -/
  | coilOvercurrent (t : Time) (n : CircuitNo) (ma : Nat)
  /-- READBACK_MISMATCH (R246): A readback pattern differs from the expected one for 1 ms and the circuit faults. -/
  | readbackMismatch (t : Time) (n : CircuitNo) (r : NodeVolts)
  /-- DARK_PULSE (R251): A scheduled in-service test turns one switch of an energised circuit off until its pattern shows. -/
  | darkPulse (t : Time) (n : CircuitNo) (low : Bool)
  /-- BRIGHT_PULSE (R251): A scheduled in-service test turns one switch of a de-energised circuit on until its pattern shows. -/
  | brightPulse (t : Time) (n : CircuitNo) (low : Bool)
  /-- PULSE_RETRY (R252): An aborted dark or bright pulse runs again 1 s after the abort. -/
  | pulseRetry (t : Time) (n : CircuitNo) (low : Bool)
  /-- SAFETY_TELEGRAM (R255): A safety telegram copy arrives and a matching pair is accepted as a command or discarded. -/
  | safetyTelegram (t : Time) (portB : Bool) (bytes : List Byte)
  /-- NO_PARTNER (R255): A telegram copy finds no partner within 10 ms and is discarded. -/
  | noPartner (t : Time)
  /-- TELEGRAM_WATCHDOG (R256): 60 ms pass without an accepted command and the watchdog expires. -/
  | telegramWatchdog (t : Time)
  /-- STATUS_TELEGRAM (R256): Every 20 ms the island sends a status telegram on both ports. -/
  | statusTelegram (t : Time)
  /-- OBSERVATION_COMPLETE (R247): The connection conditions have held for the observation time. -/
  | observationComplete (t : Time)
  /-- LOCK_ISLAND_SETTINGS (R257): A lock command for the island settings area is checked and sets the lock bit. -/
  | lockIslandSettings (t : Time) (q : Req)
  /-- LOCK_INTERFACE_PROTECTION_SETTINGS (R257): A lock command for the interface-protection settings area is checked and sets the lock bit. -/
  | lockInterfaceProtectionSettings (t : Time) (q : Req)
  /-- REFCLK_QUALIFIED (R259): REFCLK has stayed within ±50 ppm of the TCXO for 100 ms. -/
  | refclkQualified (t : Time)
  /-- REFCLK_DISQUALIFIED (R259): REFCLK misses an edge or deviates beyond ±100 ppm and loses qualification. -/
  | refclkDisqualified (t : Time)
  /-- REFCLK_RESELECTION (R259): REFCLK has been qualified again for 10 s and automatic selection moves back to it. -/
  | refclkReselection (t : Time)
  /-- REFERENCE_SELECT (R259): A write of the reference selection is applied or refused if REFCLK is forced unqualified. -/
  | referenceSelect (t : Time) (q : Req) (v : Nat)
  /-- PLL_UPDATE (R260): Every 100 µs the PLL fraction is updated toward the requested rate, at most 1 ppm per update. -/
  | pllUpdate (t : Time)
  /-- PLL_LOCK (R261): The PLL locks after a fast hop or full search. -/
  | pllLock (t : Time) (band : Fin 64)
  /-- FAST_HOP_TIMEOUT (R261): A fast hop has not locked within 20 µs; the stored band is invalidated and a full search follows. -/
  | fastHopTimeout (t : Time)
  /-- BAND_STORE (R261): Lock has held for 1 s and the VCO band is stored in MRAM. -/
  | bandStore (t : Time)
  /-- CLEAR_STORED_BANDS (R261): The clear-stored-bands command clears the stored VCO bands in Configuration. -/
  | clearStoredBands (t : Time) (q : Req)
  /-- PLL_UNLOCKED (R262): The phase error exceeds ±1 ns in two consecutive cycles and the timebase moves to the bypass clock. -/
  | pllUnlocked (t : Time)
  /-- REFERENCE_LOST (R262): A reference misses an edge and the timebase moves to the other reference as bypass clock. -/
  | referenceLost (t : Time) (refclk : Bool)
  /-- RETURN_TO_PLL (R262): At the first frame-grid instant at least 10 µs after relock the timebase returns to the PLL. -/
  | returnToPll (t : Time)
  /-- BOTH_REFERENCES_LOST (R263): Both references are lost; the PLL enters holdover and the ride window starts. -/
  | bothReferencesLost (t : Time)
  /-- RIDE_WINDOW_END (R263): The 100 ms ride window ends with no reference back and every batch blocks. -/
  | rideWindowEnd (t : Time)
  /-- REFERENCE_RETURN (R263): A reference returns during holdover; the timebase moves to it as bypass and the PLL relocks. -/
  | referenceReturn (t : Time) (refclk : Bool)
  /-- HOUSEKEEPING_CLOCK_MEASUREMENT (R264): Every 10 ms the housekeeping clock is measured against the selected reference. -/
  | housekeepingClockMeasurement (t : Time) (err : Int)
  /-- PTP_SYNC (R270): A Sync message gives an offset measurement; the servo steps once or sets its rate. -/
  | ptpSync (t : Time) (portB : Bool) (m : SyncMsg)
  /-- PTP_ANNOUNCE (R268): An Announce message is received and the best master and active port are re-evaluated. -/
  | ptpAnnounce (t : Time) (portB : Bool) (m : AnnounceMsg)
  /-- PTP_PDELAY (R267): A peer-delay message is received or answered and the port's path delay updates. -/
  | ptpPdelay (t : Time) (portB : Bool) (m : PdelayMsg)
  /-- PTP_TRANSMIT (R267): A PTP log interval expires and the module sends its Sync, Announce or Pdelay request. -/
  | ptpTransmit (t : Time) (portB : Bool) (kind : PtpKind)
  /-- ANNOUNCE_RECEIPT_TIMEOUT (R271): A port loses its master; the active port changes or quality becomes Holdover. -/
  | announceReceiptTimeout (t : Time) (portB : Bool)
  /-- QUALITY_LOCKED (R270): The offset has stayed below the convergence threshold for 10 s and quality becomes Locked. -/
  | qualityLocked (t : Time)
  /-- AUTHORISE_STEP (R271): The authorise-step command takes one step to the latest offset, if permitted. -/
  | authoriseStep (t : Time) (q : Req)
  /-- TPO_FIRING (R273): A time pulse output fires and drives its active level. -/
  | tpoFiring (t : Time) (k : TpoNo)
  /-- TPO_WIDTH_END (R273): The width of a firing ends and the output returns to its inactive level. -/
  | tpoWidthEnd (t : Time) (k : TpoNo)
  /-- ARM_TPO (R274): Arming a time pulse output is checked and the output armed. -/
  | armTpo (t : Time) (q : Req) (k : TpoNo)
  /-- DISARM_TPO (R274): Disarming a time pulse output stops further firings. -/
  | disarmTpo (t : Time) (q : Req) (k : TpoNo)
  /-- TRIG_IN (R276): A digital trigger input changes level after its filter and the trigger units watching it are evaluated. -/
  | trigIn (t : Time) (i : Fin 4) (high : Bool)
  /-- ARM_ACQUISITION (R279): The arming module's arm command arms every module of the rack at the arm time. -/
  | armAcquisition (t : Time) (q : Req)
  /-- DISARM_ACQUISITION (R279): The arming module's disarm command disarms every module of the rack. -/
  | disarmAcquisition (t : Time) (q : Req)
  /-- ARM_TIME (R279): The arm time arrives and the module arms, or refuses and reports it. -/
  | armTime (t : Time)
  /-- RECORD_INSTANT (R280): A record instant arrives and the armed module writes a record into its active buffer. -/
  | recordInstant (t : Time)
  /-- RELEASE_CAPTURE (R282): Releasing a complete capture frees its buffer, unless it is being exported. -/
  | releaseCapture (t : Time) (q : Req) (k : BufferNo)
  /-- COMTRADE_EXPORT_ASSEMBLY (R286): The export command starts the long operation COMTRADE export assembly. -/
  | comtradeExportAssembly (t : Time) (q : Req) (k : BufferNo)
  /-- EXPORT_COMPLETE (R286): COMTRADE export assembly ends and the configuration and data files are available. -/
  | exportComplete (t : Time) (k : BufferNo)
  /-- RECORD_COMMIT (R287): A queued record is written to MRAM with the next sequence number and its valid mark. -/
  | recordCommit (t : Time)
  /-- SNAPSHOT (R290): A read of the snapshot DOMAIN returns the committed records from the start sequence. -/
  | logSnapshot (t : Time) (q : Req)
  /-- FREEZE (R291): A freeze from the service port stops writes to MRAM and stages events. -/
  | logFreeze (t : Time) (q : Req)
  /-- FREEZE_END (R291): The freeze ends on command, after 60 s or on hold-up, and the staging queue is written. -/
  | logFreezeEnd (t : Time)
  /-- ARCHIVE_AND_CLEAR (R292): Writing the archived sequence starts the long operation crumb-log archive and clear. -/
  | archiveAndClear (t : Time) (q : Req) (seq : Nat)
  /-- ARCHIVE_AND_CLEAR_COMPLETE (R292): Archive and clear ends with the log cleared and event 0x0001 written. -/
  | archiveAndClearComplete (t : Time)
  /-- HEARTBEAT (R309): A heartbeat message is received and its authority, health and epochs are recorded. -/
  | heartbeat (t : Time) (slot : RackSlot) (m : HeartbeatMsg)
  /-- HEARTBEAT_SEND (R309): At every TAI multiple of 50 µs the module sends its heartbeat. -/
  | heartbeatSend (t : Time)
  /-- HEARTBEAT_MISSED (R310): A heartbeat deadline passes; at the third consecutive miss the arbiter declares the active failed. -/
  | heartbeatMissed (t : Time) (slot : RackSlot)
  /-- GRANT (R311): A Grant is received and the module begins commanding with the granted epoch. -/
  | epochGrant (t : Time) (epoch : Nat) (first : Nat)
  /-- REVOKE (R311): A Revoke is received and the superseded module stops commanding. -/
  | epochRevoke (t : Time) (epoch : Nat) (last : Nat)
  /-- HANDOVER_REQUEST (R313): The arbiter answers a Handover request with a Grant and a Revoke naming departure D. -/
  | handoverRequest (t : Time) (slot : RackSlot) (pair : Fin 4) (cause : Nat)
  /-- TIME_SYNC (R298): A time-sync message is received and a member with time source 2 follows the master's time. -/
  | timeSync (t : Time) (departed : Nat) (others : Nat)
  /-- TIME_SYNC_SEND (R298): Every 1 ms the rack master sends a time-sync message. -/
  | timeSyncSend (t : Time)
  /-- HOP_DELAY_MEASUREMENT (R298): Every 10 s a member measures the delay of its RACK_UP hop. -/
  | hopDelayMeasurement (t : Time) (d : HopDelays)
  /-- MASTER_LOST (R299): A member has heard no message from the master for 1 ms. -/
  | masterLost (t : Time)
  /-- ARBITER_LOST (R317): A module has heard no arbiter heartbeat for 1 ms. -/
  | arbiterLost (t : Time)
  /-- EXECUTE (R300): The execute command on the rack master starts a rack-wide change and sends PREPARE. -/
  | rackExecute (t : Time) (q : Req)
  /-- PREPARE (R300): A PREPARE is received and the module answers READY or REFUSE. -/
  | rackPrepare (t : Time) (m : PrepareMsg)
  /-- READY (R300): The master receives a READY answer. -/
  | rackReady (t : Time) (slot : RackSlot) (txn : Nat)
  /-- REFUSE (R300): The master receives a REFUSE answer. -/
  | rackRefuse (t : Time) (slot : RackSlot) (txn : Nat) (cause : Nat)
  /-- COMMIT_DECISION (R300): At T − 400 µs the master sends COMMIT if every named slot is ready, otherwise ABORT. -/
  | commitDecision (t : Time)
  /-- COMMIT (R300): A COMMIT is received and held, or discarded if it arrives after T − 200 µs. -/
  | rackCommit (t : Time) (txn : Nat)
  /-- ABORT (R300): An ABORT is received and the transaction is dropped. -/
  | rackAbort (t : Time) (txn : Nat)
  /-- REPORT (R301): The master receives a Report of batches applied. -/
  | rackReport (t : Time) (slot : RackSlot) (txn : Nat) (applied : Nat)
  /-- STRAGGLER_DEADLINE (R301): At T + 1 ms or T′ + 1 ms the master re-prepares stragglers or prepares the revert. -/
  | stragglerDeadline (t : Time)
  /-- RACK_FIRING (R281): A broadcast trigger firing is received and treated as a firing at the carried time. -/
  | rackFiring (t : Time) (slot : RackSlot) (unit : Nat) (inst : Time)
  /-- RACK_ARM_MESSAGE (R279): An arm or disarm message from the arming module is received and scheduled. -/
  | rackArmMessage (t : Time) (arm : Bool) (inst : Time)
  /-- DICTIONARY_GATEWAY_FRAME (R358): A target module receives a gateway frame and serves it with the master's session role. -/
  | dictionaryGatewayFrame (t : Time) (m : GatewayReq)
  /-- GATEWAY_TIMEOUT (R358): No gateway reply within 5 ms and the master answers 0x0504_0000. -/
  | gatewayTimeout (t : Time)
  /-- PLANNED_HANDOVER (R313): The planned-handover command on the active module sends a Handover request. -/
  | plannedHandover (t : Time) (q : Req)
  /-- REMOVAL_TIMEOUT (R314): The twin removal sequence has not completed within 20 ms and the module enters the safe state. -/
  | removalTimeout (t : Time)
  /-- CLOSE_BRIDGES (R316): The close-bridges command requests bridge closing while the partner is declared failed. -/
  | closeBridges (t : Time) (q : Req)
  /-- BRIDGE_OPEN (R316): The partner's connection circuit has been shown Closed for 1 s and the bridge opens. -/
  | bridgeOpen (t : Time) (k : Fin 2)
  /-- SUPPLY_LOSS (R335): VIN has stayed below 16.5 V for 1 ms and the hold-up service starts. -/
  | supplyLoss (t : Time) (mv : Nat)
  /-- VIN_DIP (R320): A VIN dip shorter than 1 ms is carried by the store and counted. -/
  | vinDip (t : Time)
  /-- SUPPLY_PRESENT (R320): VIN has stayed at or above 17.0 V for 100 ms; a parked module restarts. -/
  | supplyPresent (t : Time) (mv : Nat)
  /-- HOLD_UP_PHASE_2 (R335): At 20 ms of the hold-up service PD1 to PD4 and the capture memory go off. -/
  | holdUpPhase2 (t : Time)
  /-- PARK (R335): Every record is committed and the module parks with only PD0 and PD7 on. -/
  | powerPark (t : Time)
  /-- STORE_EXHAUSTED (R336): The store reaches V_end and the module loses power. -/
  | storeExhausted (t : Time)
  /-- STORE_CHARGED (R323): The store reaches V_chg; a pending proof check may start. -/
  | storeCharged (t : Time)
  /-- CHARGE_TIMEOUT (R323): The store has not reached V_chg within 30 s of entering Proof and the start fails. -/
  | chargeTimeout (t : Time)
  /-- STORE_TEMPERATURE_THRESHOLD (R323): The store temperature crosses 60 °C or 55 °C and V_chg changes. -/
  | storeTemperatureThreshold (t : Time) (temp : Int)
  /-- PROOF_CHECK_END (R324): The 50 ms proof discharge ends and C, ESR and usable energy are judged. -/
  | proofCheckEnd (t : Time) (v0 : Nat) (va : Nat) (vb : Nat)
  /-- PROOF_INTERVAL (R325): The proof interval expires and a periodic proof check starts. -/
  | proofInterval (t : Time)
  /-- PROOF_REPEAT (R326): 10 s after an out-of-range check the check is repeated once. -/
  | proofRepeat (t : Time)
  /-- CONFIGURE (R329): Module command 0x01 takes the module to Configuration. -/
  | moduleConfigure (t : Time) (q : Req)
  /-- ARM (R330): Module command 0x02 runs the arm checks and enters Armed, bringing pending values into force. -/
  | moduleArm (t : Time) (q : Req)
  /-- RUN (R328): Module command 0x03 takes the module from Armed to Running or Standby. -/
  | moduleRun (t : Time) (q : Req)
  /-- SAFE_HOLD (R328): Module command 0x04 enters SafeHold and blocks every batch. -/
  | moduleSafeHold (t : Time) (q : Req)
  /-- RESTART_FROM_SAFEHOLD (R332): Module command 0x05 returns to Proof with supply present. -/
  | restartFromSafehold (t : Time) (q : Req)
  /-- CONFIGURATION_STORE (R384): Module command 0x06 starts the long operation configuration store. -/
  | configurationStore (t : Time) (q : Req)
  /-- CONFIGURATION_STORE_COMPLETE (R384): The configuration store operation ends and its result is answered. -/
  | configurationStoreComplete (t : Time)
  /-- ON_DEMAND_SELF_TEST (R343): Module command 0x07 starts the on-demand self-test. -/
  | onDemandSelfTest (t : Time) (q : Req)
  /-- SELF_TEST_COMPLETE (R343): The self-test ends, failing resources are retired and the result reported. -/
  | selfTestComplete (t : Time) (failed : List (Nat × Nat))
  /-- RETRY_NOW (R331): Module command 0x08 re-enters the failed start stage from FaultWait. -/
  | retryNow (t : Time) (q : Req)
  /-- PROOF_CHECK_NOW (R325): Module command 0x09 starts a proof check in Configuration. -/
  | proofCheckNow (t : Time) (q : Req)
  /-- BACK_OFF_EXPIRED (R331): The FaultWait back-off expires and the failed stage is entered again. -/
  | backOffExpired (t : Time)
  /-- SERVICE_START (R332): The latch button is held for the first 5 s after insertion or reset, and the start stops in Configuration without locks. -/
  | serviceStart (t : Time)
  /-- POWER_ON (R333): VIN is present after the module had no power and it starts at Init with the recorded reset kind. -/
  | powerOn (t : Time) (mv : Nat)
  /-- RESET_N (R334): RESET_N low for at least 10 µs resets the module. -/
  | resetN (t : Time)
  /-- DOMAIN_SWITCH_OFF (R17): A domain switch-off request is checked against dependencies and applied or refused. -/
  | domainSwitchOff (t : Time) (q : Req) (d : DomainNo)
  /-- DOMAIN_SWITCH_ON (R321): A domain switch-on request powers the domain in order, unless it is in fault. -/
  | domainSwitchOn (t : Time) (q : Req) (d : DomainNo)
  /-- DOMAIN_READY (R321): A domain reaches ready and its function restarts from its configuration. -/
  | domainReady (t : Time) (d : DomainNo)
  /-- DOMAIN_FAULT (R321): A domain is not ready within twice its ready time or its supervisor reports a fault. -/
  | domainFault (t : Time) (d : DomainNo)
  /-- INRUSH_TIMEOUT (R337): The inrush limiter has not reached 90 % of VIN within 20 ms and retries after a back-off. -/
  | inrushTimeout (t : Time)
  /-- INSERTION_COMPLETE (R337): PRESENT_N both low for 50 ms, limiter complete and lever closed; the module enters Init. -/
  | insertionComplete (t : Time) (slot : Fin 8) (msel : Fin 8)
  /-- LATCH_LEVER_OPENED (R339): Opening the lever requests removal and runs the removal sequence. -/
  | latchLeverOpened (t : Time)
  /-- LATCH_BUTTON (R339): Pressing the latch button records physical presence. -/
  | latchButton (t : Time)
  /-- WITHDRAWN_WITHOUT_WARNING (R340): PRESENT_N high for 10 µs outside Removal enters Removal and runs the hold-up service from step 4. -/
  | withdrawnWithoutWarning (t : Time)
  /-- SCRUB_PASS (R342): A memory scrub pass corrects single-bit errors and replaces rows or columns by spares. -/
  | scrubPass (t : Time) (mem : Fin 4) (errs : List MemUnit)
  /-- UNCORRECTABLE_ERROR (R342): An uncorrectable memory error stops the reading cycle or is a domain fault. -/
  | uncorrectableError (t : Time) (mem : Fin 5) (addr : Nat) (u : MemUnit) (cycle : Option Batch)
  /-- JUNCTION_WARNING (R399): A junction reading crosses 118 °C or 113 °C and the warning bit sets or clears. -/
  | junctionWarning (t : Time) (d : DomainNo) (temp : Int)
  /-- JUNCTION_FAULT (R399): A junction reading of 123 °C for 10 ms is a domain fault and the module enters SafeHold. -/
  | junctionFault (t : Time) (d : DomainNo) (temp : Int)
  /-- STORE_HOT (R399): The store reading crosses 88 °C or 83 °C and the charger stops or resumes. -/
  | storeHot (t : Time) (temp : Int)
  /-- OPEN (R355): An Open datagram allocates a session and returns the module nonce, or is refused. -/
  | sessionOpen (t : Time) (d : Datagram)
  /-- PROVE (R355): A Prove datagram checks the proof and gives the session its role and key. -/
  | sessionProve (t : Time) (d : Datagram)
  /-- CLOSE (R355): A Close datagram ends the session. -/
  | sessionClose (t : Time) (d : Datagram)
  /-- KEEP_ALIVE (R355): A Keep-alive datagram restarts the session's idle timer. -/
  | keepAlive (t : Time) (d : Datagram)
  /-- READ_ENTRY (R348): A read datagram is checked for existence, role and access and returns the entry. -/
  | readEntry (t : Time) (d : Datagram)
  /-- WRITE_ENTRY (R348): A write to an entry with no row of its own is checked in order and applied or refused. -/
  | writeEntry (t : Time) (d : Datagram)
  /-- SEGMENT_READ (R357): A segment read returns the next part of a snapshot of a DOMAIN entry. -/
  | segmentRead (t : Time) (d : Datagram)
  /-- SEGMENT_WRITE (R357): A segment write appends to an open DOMAIN transfer and the last segment completes it. -/
  | segmentWrite (t : Time) (d : Datagram)
  /-- SESSION_IDLE_TIMEOUT (R355): A session closes after its idle timeout. -/
  | sessionIdleTimeout (t : Time) (sid : Nat)
  /-- OPEN_NOT_PROVED (R355): An Open not proved within 5 s is discarded. -/
  | openNotProved (t : Time) (sid : Nat)
  /-- BLOCK_TIME_END (R355): The block time of a source address after failed proofs ends. -/
  | blockTimeEnd (t : Time) (src : Nat)
  /-- TRANSFER_TIMEOUT (R352): A DOMAIN transfer receives no segment for 10 s and is discarded. -/
  | transferTimeout (t : Time) (index : Nat) (sub : Nat)
  /-- SNAPSHOT_RELEASE (R357): A segment-read snapshot is released 10 s after the last request. -/
  | snapshotRelease (t : Time) (sid : Nat) (index : Nat) (sub : Nat)
  /-- USDO_REQUEST (R361): A unicast USDO request is served with the CAN port's role. -/
  | usdoRequest (t : Time) (k : CanNo) (m : UsdoReq)
  /-- RPDO (R362): A received RPDO is applied within 1 ms, or discarded if short. -/
  | rpdo (t : Time) (k : CanNo) (r : Fin 8) (data : List Byte)
  /-- SYNC (R362): A SYNC message makes TPDOs of types 0x01 to 0xF0 send on their nth SYNC. -/
  | canSync (t : Time) (k : CanNo)
  /-- TPDO_EVENT (R362): A mapped value change or event timer sends a TPDO of type 0xFE, subject to the inhibit time. -/
  | tpdoEvent (t : Time) (k : CanNo) (p : Fin 8) (timer : Bool)
  /-- START_REMOTE_NODE (R363): NMT Start remote node issues module command Run from Armed, if NMT is obeyed. -/
  | startRemoteNode (t : Time) (k : CanNo)
  /-- ENTER_PRE_OPERATIONAL (R363): NMT Enter pre-operational issues module command Configure with every batch Off. -/
  | enterPreOperational (t : Time) (k : CanNo)
  /-- STOP_REMOTE_NODE (R363): NMT Stop remote node issues module command Safe hold. -/
  | stopRemoteNode (t : Time) (k : CanNo)
  /-- RESET_NODE (R363): NMT Reset node is never obeyed. -/
  | resetNode (t : Time) (k : CanNo)
  /-- RESET_COMMUNICATION (R363): NMT Reset communication restarts the port's CAN services only. -/
  | resetCommunication (t : Time) (k : CanNo)
  /-- PRODUCER_HEARTBEAT (R364): The heartbeat interval expires and a CANopen heartbeat is sent. -/
  | producerHeartbeat (t : Time) (k : CanNo)
  /-- CONSUMER_HEARTBEAT_TIMEOUT (R364): A consumed heartbeat times out; event 0x0B06 and error register bit 4. -/
  | consumerHeartbeatTimeout (t : Time) (k : CanNo) (node : Fin 128)
  /-- BUS_OFF (R360): A CAN port goes bus-off, is counted and recovers under ISO 11898-1. -/
  | busOff (t : Time) (k : CanNo)
  /-- GOOSE_MESSAGE (R367): A GOOSE message is matched to a subscription and its entries written together. -/
  | gooseMessage (t : Time) (m : GooseMsg)
  /-- TIME_ALLOWED_TO_LIVE (R367): No GOOSE message arrives within timeAllowedtoLive and fallback values are written. -/
  | timeAllowedToLive (t : Time) (i : Fin 16)
  /-- GOOSE_MEMBER_COMPARE (R366): Every 1 ms publication members are compared and a change starts a new state number. -/
  | gooseMemberCompare (t : Time)
  /-- GOOSE_RETRANSMISSION (R366): A publication's retransmission interval expires and the message is sent again. -/
  | gooseRetransmission (t : Time) (g : Fin 8)
  /-- PRP_SUPERVISION (R365): Every 2 s a PRP supervision frame is sent. -/
  | prpSupervision (t : Time) (p : Fin 2)
  /-- ARP_REQUEST (R365): An ARP request is answered. -/
  | arpRequest (t : Time) (p : Fin 2) (target : Nat) (sender : Nat)
  /-- ICMP_ECHO (R365): An ICMP echo request is answered. -/
  | icmpEcho (t : Time) (p : Fin 2) (dst : Nat) (payload : List Byte)
  /-- LOCK_HARDWARE_LIMITS (R350): Writing 1 sets the hardware-limits lock bit. -/
  | lockHardwareLimits (t : Time) (q : Req)
  /-- LOCK_SECURITY_CONFIGURATION (R350): Writing 1 sets the security configuration lock bit. -/
  | lockSecurityConfiguration (t : Time) (q : Req)
  /-- ROLE_KEY (R373): A role key written over the service port is stored in MRAM. -/
  | roleKey (t : Time) (q : Req) (r : Role) (key : List Byte)
  /-- FIRMWARE_UPDATE (R370): The final segment of a firmware image starts the long operation firmware update. -/
  | firmwareUpdate (t : Time) (q : Req) (img : List Byte)
  /-- FIRMWARE_UPDATE_COMPLETE (R370): The firmware update ends with the image pending or the inactive slot invalid. -/
  | firmwareUpdateComplete (t : Time) (writeOk : Bool)
  /-- CONFIRM (R371): Confirming the trial image sets the minimum security version and applies any repair-map instruction. -/
  | firmwareConfirm (t : Time) (q : Req)
  /-- STANDALONE (R296): A module that has heard no other module on either rack link for 10 ms after PD5 power-up becomes standalone. -/
  | standalone (t : Time)
  /-- TWIN_LINK_TRAINED (R303): The twin link completes training, and the pair moves from Pairing to the comparison of configuration digests. -/
  | twinLinkTrained (t : Time) (digest : Nat)
  /-- TWIN_LINK_DOWN (R318): The twin link goes down, event 0x0905 is written and the pair leaves In sync. -/
  | twinLinkDown (t : Time)
  /-- STATE_COPY_RECEIVED (R306): The standby receives a cycle's state copy over the twin link and holds it for installation at the next t0. -/
  | stateCopyReceived (t : Time) (m : StateCopy)
  /-- TWIN_FORWARDED_WRITE (R304): The standby receives a digest-object write forwarded by the active module, applies it as a dictionary job and acknowledges it. -/
  | twinForwardedWrite (t : Time) (index : Nat) (sub : Nat) (elem : Nat) (data : List Byte)
  /-- LOCKSTEP_MISMATCH (R238): The island's lockstep comparison detects a disagreement between its two cores, an island fault that takes the island to Fault. -/
  | lockstepMismatch (t : Time)
  /-- NODE_POWER_ON (R206): A power-stage node powers on, clears its highest epoch and waits for the first authoritative frame to set its time. -/
  | nodePowerOn (t : Time) (n : NodeNo) (id : NodeId)
  /-- CAN_FD_FRAME (R276): A CAN FD frame with an identifier and format selected by a trigger unit is received and the unit is evaluated on its field. -/
  | canFdFrame (t : Time) (k : CanNo) (ext : Bool) (ident : Nat) (data : List Byte)
  /-- DELAY_RESP (R267): With the end-to-end delay mechanism, a Delay_Resp is received and the active port's path delay updates. -/
  | delayResp (t : Time) (m : DelayRespMsg)
  /-- GATEWAY_REPLY (R358): The rack master receives a target module's gateway reply and answers the host's request with it. -/
  | gatewayReply (t : Time) (m : GatewayRep)
  /-- INRUSH_RETRY (R337): The back-off after a failed inrush attempt expires and the limiter tries again to charge the input capacitance. -/
  | inrushRetry (t : Time)
  deriving DecidableEq, Repr

end Sys2Proof
end

