-- ==== Sys2Proof/Decode.lean ====
section
/-! DEFINITION. Decoding: no row of the table of operations and events gives its command bits, so no word spells a command
(notes/assumptions/1). -/

namespace Sys2Proof

/-- The command that a word spells by the table's bits: none, since the table gives no row any. -/
def decodeTableWord (_nbits _w : Nat) : Option Instr := none

end Sys2Proof
end

