-- ==== Sys2Proof/Config.lean ====
section
/-! DEFINITION. The free values: what the spec leaves open. None has a body, so no statement can rest on a value of one. -/

namespace Sys2Proof.Config

/-- A bank view whose coefficient is 0 reads no stated value (R140): by entry and coefficient pattern (notes/assumptions/13). -/
opaque viewOpen : Nat → BitVec 32 → BitVec 32

/-- The calibration of an ADC core that a background test refreshes (R34): offset and gain, by the number of the draw
(notes/assumptions/16). -/
opaque coreOffset : Nat → BitVec 16
opaque coreGain : Nat → BitVec 16

/-- Whether the part of an aborted lane test that has run had already failed, by the number of the draw: no command brings it (R67;
notes/assumptions/108). -/
opaque partialFailed : Nat → BitVec 1

/-- The phase code of a single-frequency detector whose sum is zero, by detector (R44; notes/assumptions/17). -/
opaque zeroPhase : Nat → BitVec 15

/-- The servo's estimate of the reference's rate relative to the grandmaster in ppb, by the number of the draw: R270 gives no
estimator (notes/assumptions/35). -/
opaque rateEstimate : Nat → BitVec 32

/-- The bytes over which a twin module takes its configuration digest: R303 names what it covers and no order of it. Of the configured
entries and of each recipe's identifier and CRC (notes/assumptions/37). -/
opaque digestImage : List (Nat × Int) → List (Nat × Nat) → List (BitVec 8)

/-- Whether a firmware image's signature verifies over header bytes 0x00 to 0x37: the Brixoz public key in boot ROM is not given
(R369; notes/assumptions/50). -/
opaque signatureOk : List (BitVec 8) → List (BitVec 8) → Bool

/-- Whether the repair-map instruction of an image lists an entry (kind, instance): R371 gives no format for it
(notes/assumptions/51). -/
opaque repairListed : List (BitVec 8) → Nat → Nat → Bool

/-- The module nonce of an Open by the number of the draw (Table 17-6; notes/assumptions/52). -/
opaque nonce : Nat → BitVec 128

/-- The store voltage in mV that event 0x0008 reports, and a capacitance or ESR that the samples give no number for, by the number
of the draw (R324, R335; notes/assumptions/53). -/
opaque storeVoltage : Nat → BitVec 16
opaque storeFigure : Nat → BitVec 32

/-- Spare rows or columns of a memory, by 2 · memory + column (Table 16-8 gives 2 % and no sizes; notes/assumptions/57). -/
opaque memorySpares : Nat → BitVec 16

/-- A converter code that a path test reads where the command brings none, by the number of the draw (R29;
notes/assumptions/59). -/
opaque converterCode : Nat → BitVec 16

/-- What a Prove whose proof is wrong is answered, by the number of the draw: R355 counts it and states no answer
(notes/assumptions/62). -/
opaque failedProofAbort : Nat → BitVec 32

/-- Whether a spare and the slice that it shadows place an edge of a load point more than one fine step apart, by the number of the draw: no
command brings the comparison (R194; notes/assumptions/114). -/
opaque sliceMismatch : Nat → BitVec 1

/-- The deviation of REFCLK from the TCXO in ppb that 0x2200.11 shows while REFCLK is present, by instant: no command brings it (R259;
notes/assumptions/119). -/
opaque refclkDeviation : Nat → BitVec 32

/-- timemult of a COMTRADE file whose record period has no exponent, by that period: no rule states it (R286; notes/assumptions/49). -/
opaque timeMultiplier : Nat → BitVec 32

/-- The grandmaster ID and the total time inaccuracy in ns of the C37.238 TLV that the module sends as master, by the number of the draw:
no rule states their values (R267; notes/assumptions/119). -/
opaque ptpTlvId : Nat → BitVec 16
opaque ptpTlvInaccuracy : Nat → BitVec 32

/-- The bootstrap voltage of a driver in mV, by driver and instant, but for what its monitor's events say: no command brings the measurement
(R231, R237; notes/assumptions/117). -/
opaque bootVoltage : Nat → Nat → BitVec 16

/-- The gate supply (1) and the bridge supply (2) in mV at an instant at which no command brings the measurement (R229, R235, R237;
notes/assumptions/117). -/
opaque supplyVoltage : Nat → Nat → BitVec 16

/-- The one-way delay in ps that a delay measurement gives a position, where the command that asks for it brings no times and none was
measured before, by the number of the draw and the position (R216; notes/assumptions/115). -/
opaque linkDelay : Nat → Nat → BitVec 32

/-- How long a recipe load takes to pass its milestone `i` after the one before, in fine steps, and the percentage of another long
operation after some time; both by the number of the draw (R94, R351; notes/assumptions/110). -/
opaque loadTime : Nat → Nat → BitVec 32
opaque opProgress : Nat → Nat → BitVec 7

/-- The input power in 0.1 W and the inlet air temperature in 0.1 °C at an instant: no command brings these measurements (Tables
16-10 and 19-9; notes/assumptions/122). -/
opaque inputPower : Nat → BitVec 16
opaque inletTemp : Nat → BitVec 16

/-- Link, status and counts of the Ethernet ports by dictionary key and instant, and whether an active CAN port is error passive: no command
brings the frames and errors at a port (Tables 17-13, 17-14; notes/assumptions/96, 98). -/
opaque portFigure : Nat → Nat → BitVec 32
opaque canPassive : Nat → Nat → Bool

end Sys2Proof.Config
end

