-- ==== Sys2Proof/Machine/Crypto.lean ====
section
/-! DEFINITION. The checks over bytes that the spec names by standard: CRC-32 (R95), CRC-32C, SHA-256 and HMAC-SHA-256
(R354, R355). -/

namespace Sys2Proof.Machine

/-- One bit of a reflected CRC with polynomial `p`. -/
def crcBit (p : Nat) (c : Nat) : Nat := if c % 2 = 1 then (c / 2) ^^^ p else c / 2

/-- One byte of a reflected CRC. -/
def crcByte (p : Nat) (c : Nat) (b : Byte) : Nat :=
  let f := crcBit p
  f (f (f (f (f (f (f (f (c ^^^ b.toNat))))))))

/-- A reflected 32-bit CRC, started and ended with all ones. -/
def crcWith (p seed : Nat) (l : List Byte) : Nat := (l.foldl (crcByte p) seed) ^^^ 0xFFFFFFFF

/-- CRC-32 with the IEEE 802.3 polynomial (R95). -/
def crc32 (l : List Byte) : Nat := crcWith 0xEDB88320 0xFFFFFFFF l

/-- CRC-32C (Castagnoli). -/
def crc32c (seed : Nat) (l : List Byte) : Nat := crcWith 0x82F63B78 seed l

/-! ### SHA-256 (FIPS 180-4) and HMAC (RFC 2104)

A hash value is two quadruples of words: `abcd` and `efgh`. A round pushes one new word into each; the message schedule is a window of
sixteen words that moves on by one word with each round. -/

abbrev W32 := BitVec 32

/-- Four words, the newest first. -/
structure Quad where
  p : W32
  q : W32
  r : W32
  s : W32
  deriving DecidableEq, Repr

/-- A new word comes in, the oldest goes. -/
def Quad.push (x : Quad) (v : W32) : Quad := { p := v, q := x.p, r := x.q, s := x.r }

/-- Word by word addition. -/
def Quad.plus (x y : Quad) : Quad := { p := x.p + y.p, q := x.q + y.q, r := x.r + y.r, s := x.s + y.s }

/-- The bytes of the words. -/
def Quad.bytes (x : Quad) : List Byte := [x.p, x.q, x.r, x.s].flatMap (fun v => (leBytes 4 v.toNat).reverse)

/-- Four words of a 128-bit number, the first the most significant. -/
def Quad.ofNat (n : Nat) : Quad :=
  { p := BitVec.ofNat 32 (n / 2 ^ 96), q := BitVec.ofNat 32 (n / 2 ^ 64), r := BitVec.ofNat 32 (n / 2 ^ 32), s := BitVec.ofNat 32 n }

/-- Eight round constants in each number, the first the most significant. -/
def roundOctets : List Nat :=
  [0x428A2F9871374491B5C0FBCFE9B5DBA53956C25B59F111F1923F82A4AB1C5ED5,
   0xD807AA9812835B01243185BE550C7DC372BE5D7480DEB1FE9BDC06A7C19BF174,
   0xE49B69C1EFBE47860FC19DC6240CA1CC2DE92C6F4A7484AA5CB0A9DC76F988DA,
   0x983E5152A831C66DB00327C8BF597FC7C6E00BF3D5A7914706CA635114292967,
   0x27B70A852E1B21384D2C6DFC53380D13650A7354766A0ABB81C2C92E92722C85,
   0xA2BFE8A1A81A664BC24B8B70C76C51A3D192E819D6990624F40E3585106AA070,
   0x19A4C1161E376C082748774C34B0BCB5391C0CB34ED8AA4A5B9CCA4F682E6FF3,
   0x748F82EE78A5636F84C878148CC7020890BEFFFAA4506CEBBEF9A3F7C67178F2]

/-- The constant of round `t`. -/
def roundConstant (t : Nat) : W32 := BitVec.ofNat 32 (roundOctets.getD (t / 8) 0 / 2 ^ (32 * (7 - t % 8)))

/-- The exclusive or of three rotations. -/
def spin (v : W32) (turns : Nat × Nat × Nat) : W32 :=
  (v.rotateRight turns.1 ^^^ v.rotateRight turns.2.1) ^^^ v.rotateRight turns.2.2

/-- The exclusive or of two rotations and a shift. -/
def smear (v : W32) (turns : Nat × Nat) (shift : Nat) : W32 := (v.rotateRight turns.1 ^^^ v.rotateRight turns.2) ^^^ (v >>> shift)

/-- Where a bit of `p` is set the bit of `q`, else that of `r`. -/
def Quad.choice (x : Quad) : W32 := x.r ^^^ (x.p &&& (x.q ^^^ x.r))

/-- Each bit that two of `p`, `q` and `r` agree on. -/
def Quad.vote (x : Quad) : W32 := (x.p &&& x.q) ||| (x.r &&& (x.p ||| x.q))

/-- Round `t` with message word `m`. -/
def hashRound (t : Nat) (m : W32) (h : Quad × Quad) : Quad × Quad :=
  let fed := roundConstant t + m + h.2.s + h.2.choice + spin h.2.p (6, 11, 25)
  (h.1.push (fed + h.1.vote + spin h.1.p (2, 13, 22)), h.2.push (fed + h.1.s))

/-- The word that comes after a window of the schedule. -/
def windowNext (w : List W32) : W32 :=
  w.headD 0 + smear (w.getD 1 0) (7, 18) 3 + w.getD 9 0 + smear (w.getD 14 0) (17, 19) 10

/-- The last `n` rounds of a block, from a window whose head is the word of the next one. -/
def hashRounds : Nat → List W32 → Quad × Quad → Quad × Quad
  | 0, _, h => h
  | n + 1, w, h => hashRounds n (w.tail ++ [windowNext w]) (hashRound (63 - n) (w.headD 0) h)

/-- Word `i` of a byte string, most significant byte first. -/
def wordAt (l : List Byte) (i : Nat) : W32 := (slice (4 * i) 4 l).foldl (fun v b => v <<< 8 ||| b.setWidth 32) 0

/-- A block of 64 bytes. -/
def hashBlock (h : Quad × Quad) (l : List Byte) : Quad × Quad :=
  let r := hashRounds 64 ((List.range 16).map (wordAt l)) h
  (h.1.plus r.1, h.2.plus r.2)

/-- The bytes that end a message of `n` bytes: a one bit, zeros, the length in bits. -/
def hashPadding (n : Nat) : List Byte := 0x80 :: (List.replicate ((55 + 63 * n) % 64) 0 ++ (leBytes 8 (8 * n)).reverse)

/-- The hash value before the first block. -/
def hashStart : Quad × Quad := (Quad.ofNat 0x6A09E667BB67AE853C6EF372A54FF53A, Quad.ofNat 0x510E527F9B05688C1F83D9AB5BE0CD19)

/-- SHA-256 of a byte string. -/
def sha256 (m : List Byte) : List Byte :=
  let whole := m ++ hashPadding m.length
  let r := (List.range (whole.length / 64)).foldl (fun h i => hashBlock h (slice (64 * i) 64 whole)) hashStart
  r.1.bytes ++ r.2.bytes

/-- HMAC-SHA-256: the key, hashed where it is longer than a block, under the outer and the inner pad. -/
def hmac (key m : List Byte) : List Byte :=
  let short := if 64 < key.length then sha256 key else key
  let under (pad : Byte) : List Byte := (List.range 64).map (fun i => short.getD i 0 ^^^ pad)
  sha256 (under 0x5C ++ sha256 (under 0x36 ++ m))

end Sys2Proof.Machine
end

