-- ==== Sys2Proof/Machine/Dict.lean ====
section
/-! DEFINITION. The object dictionary's description: one row for every entry of the spec's object tables (index
formula, subindices, type, access, default, range), and the lookups over it (R346, R347, R377, R378, R383). -/

namespace Sys2Proof.Machine

/-- The data types of Table 17-1. `u`, `i` carry their bytes, `vstr` and `domain` their longest length. -/
inductive Ty where
  | bool | u (bytes : Nat) | i (bytes : Nat) | q15 | f32 | time64 | vstr (max : Nat) | domain (max : Nat)
  deriving DecidableEq, Repr

/-- The access codes of Table 17-2. -/
inductive Acc where
  | ro | rw | rwc | rwl | wo
  deriving DecidableEq, Repr

/-- The default of an entry (R383): a value, a formula in the instance number, a list by element or by instance, or
another entry's value (`fn`: the nominal frequency of the batch). -/
inductive Dflt where
  | c (v : Int)
  | lin (a b : Int)
  | md (m : Nat)
  | dv (m : Nat)
  | elems (l : List Int)
  | perInst (l : List Int)
  | inst0 (v w : Int)
  | fn
  | spare
  deriving DecidableEq, Repr

/-- The range of an entry: `own` where the range depends on other entries (checked with the object's own conditions). -/
inductive Rng where
  | any
  | bw (lo hi : Int)
  | bwOr (lo hi x : Int)
  | oneOf (l : List Int)
  | f32 (lo hi : Nat)
  | f32Pos
  | f32Norm
  | mask (m : Nat)
  | step (lo hi st : Int)
  | own
  deriving DecidableEq, Repr

/-- One row of an object table: `count` instances `stride` indices apart from `base`, subindices `lo` to `hi`, an array
of `n` values where `n` is not 1. -/
structure Desc where
  base : Nat
  stride : Nat
  count : Nat
  lo : Nat
  hi : Nat
  ty : Ty
  n : Nat
  acc : Acc
  dflt : Dflt
  rng : Rng
  deriving DecidableEq, Repr

/-- Bytes of one value of a type (Table 17-1); 0 where the length varies. -/
def Ty.bytes : Ty → Nat
  | .bool => 1
  | .u n => n
  | .i n => n
  | .q15 => 2
  | .f32 => 4
  | .time64 => 8
  | .vstr _ => 0
  | .domain _ => 0

/-- Whether values of the type are two's complement. -/
def Ty.isSigned : Ty → Bool
  | .i _ => true
  | .q15 => true
  | _ => false

/-- Whether the type is a byte string. -/
def Ty.isBlob : Ty → Bool
  | .vstr _ => true
  | .domain _ => true
  | _ => false

/-- The value that bytes give under a type (R346: little-endian). -/
def Ty.ofBytes (t : Ty) (l : List Byte) : Int :=
  if t.isSigned then signed (8 * t.bytes) (leNat l) else leNat l

/-- The bytes of a value under a type. -/
def Ty.toBytes (t : Ty) (v : Int) : List Byte := leBytes t.bytes (unsigned (8 * t.bytes) v)

/-- Entry `index.sub`, element `elem` (0 for a value that is no array), as the key of the store. -/
def key (index sub : Nat) (elem : Nat := 0) : Nat := index * 65536 + sub * 256 + elem

/-- The key of subindex `sub` of batch `b`'s object at offset `off` (R379). -/
def bk (off sub : Nat) (b : Nat) : Nat := key (0x4000 + 0x20 * b + off) sub

/-- Entries 0x4000 + 0x20·b. -/
def dict4000 : List Desc := [
  ⟨0x4000, 0x20, 32, 0x01, 0x01, .u 1, 1, .rwc, .c 0, .bw 0 6⟩, -- Batch kind (Table 06-6 Batch control)
  ⟨0x4000, 0x20, 32, 0x02, 0x02, .bool, 1, .rw, .c 0, .oneOf [0, 1]⟩ -- Enable (Table 06-6 Batch control)
  ]

/-- Entries 0x4001 + 0x20·b. -/
def dict4001 : List Desc := [
  ⟨0x4001, 0x20, 32, 0x01, 0x01, .u 1, 1, .ro, .c 0, .any⟩, -- State (Table 06-6 Batch control)
  ⟨0x4001, 0x20, 32, 0x02, 0x02, .u 1, 1, .ro, .c 0, .any⟩, -- Previous state (Table 06-6 Batch control)
  ⟨0x4001, 0x20, 32, 0x03, 0x03, .u 4, 1, .ro, .c 0, .any⟩, -- Time in state (Table 06-6 Batch control)
  ⟨0x4001, 0x20, 32, 0x04, 0x04, .u 4, 1, .ro, .c 0, .any⟩, -- State changes (Table 06-6 Batch control)
  ⟨0x4001, 0x20, 32, 0x05, 0x05, .u 4, 1, .rw, .c 600, .bw 0 86400⟩ -- Coast time limit (Table 06-6 Batch control)
  ]

/-- Entries 0x4002 + 0x20·b. -/
def dict4002 : List Desc := [
  ⟨0x4002, 0x20, 32, 0x01, 0x01, .u 1, 1, .wo, .c 0, .bw 1 8⟩, -- Command (Table 06-6 Batch control)
  ⟨0x4002, 0x20, 32, 0x02, 0x02, .u 4, 1, .ro, .c 0, .any⟩ -- Last command result (Table 06-6 Batch control)
  ]

/-- Entries 0x4003 + 0x20·b. -/
def dict4003 : List Desc := [
  ⟨0x4003, 0x20, 32, 0x01, 0x08, .u 4, 1, .rwc, .c 0, .any⟩, -- Member word w (Table 18-3 Channel membership)
  ⟨0x4003, 0x20, 32, 0x09, 0x09, .u 2, 1, .ro, .c 0, .any⟩, -- Member count (Table 18-3 Channel membership)
  ⟨0x4003, 0x20, 32, 0x0A, 0x0A, .u 1, 1, .ro, .c 2, .any⟩ -- Output class (Table 18-3 Channel membership)
  ]

/-- Entries 0x4004 + 0x20·b. -/
def dict4004 : List Desc := [
  ⟨0x4004, 0x20, 32, 0x01, 0x01, .u 4, 1, .rwc, .c 25000, .bw 400 1048575⟩, -- Carrier period P (Table 09-6 Batch timebase)
  ⟨0x4004, 0x20, 32, 0x02, 0x02, .u 1, 1, .rwc, .c 1, .oneOf [0, 1]⟩, -- Update mode (Table 09-6 Batch timebase)
  ⟨0x4004, 0x20, 32, 0x03, 0x03, .u 4, 1, .rwc, .c 0, .any⟩, -- Control cycle U (Table 09-6 Batch timebase)
  ⟨0x4004, 0x20, 32, 0x04, 0x04, .u 1, 1, .rwc, .c 0, .oneOf [0, 1]⟩, -- Sync mode (Table 09-6 Batch timebase)
  ⟨0x4004, 0x20, 32, 0x05, 0x05, .u 4, 1, .ro, .c 800000, .any⟩, -- Fine steps per period F (Table 09-6 Batch timebase)
  ⟨0x4004, 0x20, 32, 0x06, 0x06, .time64, 1, .ro, .c 0, .any⟩, -- Last carrier boundary (Table 09-6 Batch timebase)
  ⟨0x4004, 0x20, 32, 0x10, 0x10, .u 4, 1, .ro, .c 0, .any⟩, -- Input latency (Table 01-4 Cycle timeline)
  ⟨0x4004, 0x20, 32, 0x11, 0x11, .u 4, 1, .ro, .c 500, .any⟩, -- Output lead (Table 01-4 Cycle timeline)
  ⟨0x4004, 0x20, 32, 0x12, 0x12, .u 4, 1, .ro, .c 0, .any⟩, -- Link transport bound (Table 01-4 Cycle timeline)
  ⟨0x4004, 0x20, 32, 0x13, 0x13, .u 4, 1, .ro, .c 0, .any⟩, -- Effect delay (Table 01-4 Cycle timeline)
  ⟨0x4004, 0x20, 32, 0x14, 0x14, .u 4, 1, .ro, .c 0, .any⟩, -- Telemetry age (Table 01-4 Cycle timeline)
  ⟨0x4004, 0x20, 32, 0x15, 0x15, .bool, 1, .ro, .c 0, .any⟩ -- Frame-grid aligned (Table 01-4 Cycle timeline)
  ]

/-- Entries 0x4005 + 0x20·b. -/
def dict4005 : List Desc := [
  ⟨0x4005, 0x20, 32, 0x01, 0x01, .f32, 1, .rwc, .c 0x49742400, .f32 0x447A0000 0x4CBEBC20⟩, -- Rated power S_b (Table 06-7 Base values)
  ⟨0x4005, 0x20, 32, 0x02, 0x02, .f32, 1, .rwc, .c 0x43C80000, .f32 0x42C80000 0x471C4000⟩, -- Rated voltage V_LL (Table 06-7 Base values)
  ⟨0x4005, 0x20, 32, 0x03, 0x03, .u 1, 1, .rwc, .c 50, .oneOf [50, 60]⟩, -- Nominal frequency f_n (Table 06-7 Base values)
  ⟨0x4005, 0x20, 32, 0x04, 0x04, .f32, 1, .rwc, .c 0x3FC00000, .f32 0x3F000000 0x40800000⟩, -- Voltage full scale V_F (Table 06-7 Base values)
  ⟨0x4005, 0x20, 32, 0x05, 0x05, .f32, 1, .rwc, .c 0x40000000, .f32 0x3F000000 0x41000000⟩, -- Current full scale I_F (Table 06-7 Base values)
  ⟨0x4005, 0x20, 32, 0x06, 0x06, .u 1, 1, .rwc, .c 255, .bwOr 0 79 255⟩, -- Grid-tracking chain (Table 06-7 Base values)
  ⟨0x4005, 0x20, 32, 0x07, 0x07, .f32, 1, .ro, .c 0, .any⟩, -- Voltage base V̂_b (Table 06-7 Base values)
  ⟨0x4005, 0x20, 32, 0x08, 0x08, .f32, 1, .ro, .c 0, .any⟩, -- Current base Î_b (Table 06-7 Base values)
  ⟨0x4005, 0x20, 32, 0x09, 0x09, .f32, 1, .ro, .c 0, .any⟩, -- Impedance base Z_b (Table 06-7 Base values)
  ⟨0x4005, 0x20, 32, 0x0A, 0x0A, .f32, 1, .ro, .c 0, .any⟩ -- Power-calculation current base Î_p (Table 06-7 Base values)
  ]

/-- Entries 0x4006 + 0x20·b. -/
def dict4006 : List Desc := [
  ⟨0x4006, 0x20, 32, 0x01, 0x01, .f32, 1, .rw, .c 0x40800000, .f32 0x3DCCCCCD 0x41A00000⟩, -- Inertia H (Table 06-8 Virtual machine, droop and virtual impedance)
  ⟨0x4006, 0x20, 32, 0x02, 0x02, .f32, 1, .rw, .c 0x00000000, .f32 0x00000000 0x447A0000⟩, -- Damping K_d (Table 06-8 Virtual machine, droop and virtual impedance)
  ⟨0x4006, 0x20, 32, 0x03, 0x03, .f32, 1, .rw, .c 0x3DCCCCCD, .f32 0x3C23D70A 0x3E99999A⟩, -- Frequency-deviation limit (Table 06-8 Virtual machine, droop and virtual impedance)
  ⟨0x4006, 0x20, 32, 0x04, 0x04, .u 2, 1, .ro, .c 65535, .any⟩, -- Float slot (Table 06-8 Virtual machine, droop and virtual impedance)
  ⟨0x4006, 0x20, 32, 0x05, 0x05, .u 2, 1, .ro, .c 65535, .any⟩, -- Fixed slot (Table 06-8 Virtual machine, droop and virtual impedance)
  ⟨0x4006, 0x20, 32, 0x06, 0x06, .q15, 1, .ro, .c 0, .any⟩, -- Angle θ (Table 06-8 Virtual machine, droop and virtual impedance)
  ⟨0x4006, 0x20, 32, 0x07, 0x07, .f32, 1, .ro, .fn, .any⟩, -- Machine frequency (Table 06-8 Virtual machine, droop and virtual impedance)
  ⟨0x4006, 0x20, 32, 0x08, 0x08, .f32, 1, .ro, .c 0x00000000, .any⟩, -- Internal voltage E (Table 06-8 Virtual machine, droop and virtual impedance)
  ⟨0x4006, 0x20, 32, 0x09, 0x09, .u 4, 1, .ro, .c 0, .any⟩ -- Limit clamps (Table 06-8 Virtual machine, droop and virtual impedance)
  ]

/-- Entries 0x4007 + 0x20·b. -/
def dict4007 : List Desc := [
  ⟨0x4007, 0x20, 32, 0x01, 0x01, .f32, 1, .rw, .c 0x40800000, .f32 0x3F000000 0x41200000⟩, -- P–f droop (Table 06-8 Virtual machine, droop and virtual impedance)
  ⟨0x4007, 0x20, 32, 0x02, 0x02, .f32, 1, .rw, .c 0x00000000, .f32 0x00000000 0x41A00000⟩, -- Q–V droop (Table 06-8 Virtual machine, droop and virtual impedance)
  ⟨0x4007, 0x20, 32, 0x03, 0x03, .f32, 1, .rw, .c 0x3F4CCCCD, .f32 0x3F000000 0x3F99999A⟩, -- E minimum (Table 06-8 Virtual machine, droop and virtual impedance)
  ⟨0x4007, 0x20, 32, 0x04, 0x04, .f32, 1, .rw, .c 0x3F99999A, .f32 0x3F4CCCCD 0x3FC00000⟩ -- E maximum (Table 06-8 Virtual machine, droop and virtual impedance)
  ]

/-- Entries 0x4008 + 0x20·b. -/
def dict4008 : List Desc := [
  ⟨0x4008, 0x20, 32, 0x01, 0x01, .f32, 1, .rw, .c 0x00000000, .f32 0x00000000 0x3F000000⟩, -- Virtual resistance R_v (Table 06-8 Virtual machine, droop and virtual impedance)
  ⟨0x4008, 0x20, 32, 0x02, 0x02, .f32, 1, .rw, .c 0x3DCCCCCD, .f32 0x00000000 0x3F000000⟩, -- Virtual reactance X_v (Table 06-8 Virtual machine, droop and virtual impedance)
  ⟨0x4008, 0x20, 32, 0x03, 0x03, .u 2, 1, .ro, .c 65535, .any⟩, -- Slot (Table 06-8 Virtual machine, droop and virtual impedance)
  ⟨0x4008, 0x20, 32, 0x04, 0x04, .f32, 1, .ro, .c 0x00000000, .any⟩, -- Effective resistance (Table 06-8 Virtual machine, droop and virtual impedance)
  ⟨0x4008, 0x20, 32, 0x05, 0x05, .f32, 1, .ro, .c 0x00000000, .any⟩, -- Effective reactance (Table 06-8 Virtual machine, droop and virtual impedance)
  ⟨0x4008, 0x20, 32, 0x06, 0x06, .f32, 1, .ro, .c 0x00000000, .any⟩ -- Adaptive addition (Table 06-8 Virtual machine, droop and virtual impedance)
  ]

/-- Entries 0x4009 + 0x20·b. -/
def dict4009 : List Desc := [
  ⟨0x4009, 0x20, 32, 0x01, 0x01, .f32, 1, .rwl, .c 0x3F99999A, .f32 0x3F800000 0x40000000⟩, -- Current limit I_lim (Table 07-4 Current limits)
  ⟨0x4009, 0x20, 32, 0x02, 0x02, .f32, 1, .rw, .c 0x40A00000, .f32 0x3F000000 0x42480000⟩, -- X/R ratio of addition (Table 07-4 Current limits)
  ⟨0x4009, 0x20, 32, 0x03, 0x03, .f32, 1, .rw, .c 0x41200000, .f32 0x3DCCCCCD 0x447A0000⟩, -- Release rate (Table 07-4 Current limits)
  ⟨0x4009, 0x20, 32, 0x04, 0x04, .bool, 1, .rw, .c 1, .oneOf [0, 1]⟩, -- Reactive priority (Table 07-4 Current limits)
  ⟨0x4009, 0x20, 32, 0x05, 0x05, .f32, 1, .rw, .c 0x3F000000, .f32 0x00000000 0x3F800000⟩, -- Negative-sequence share (Table 07-4 Current limits)
  ⟨0x4009, 0x20, 32, 0x06, 0x06, .u 2, 1, .rw, .c 640, .bw 1 65535⟩, -- Exit count N_out (Table 07-4 Current limits)
  ⟨0x4009, 0x20, 32, 0x07, 0x07, .u 4, 1, .rw, .c 3000, .bw 0 60000⟩, -- Maximum limited time (Table 07-4 Current limits)
  ⟨0x4009, 0x20, 32, 0x08, 0x08, .u 2, 1, .ro, .c 65535, .any⟩, -- Limiter slot (Table 07-4 Current limits)
  ⟨0x4009, 0x20, 32, 0x09, 0x09, .u 2, 1, .ro, .c 65535, .any⟩, -- Reference limiter slot (Table 07-4 Current limits)
  ⟨0x4009, 0x20, 32, 0x0A, 0x0A, .f32, 1, .ro, .c 0x00000000, .any⟩, -- Added impedance (Table 07-4 Current limits)
  ⟨0x4009, 0x20, 32, 0x0B, 0x0B, .f32, 1, .ro, .c 0x00000000, .any⟩, -- Requested current (Table 07-4 Current limits)
  ⟨0x4009, 0x20, 32, 0x0C, 0x0C, .u 1, 1, .ro, .c 0, .any⟩, -- Status (Table 07-4 Current limits)
  ⟨0x4009, 0x20, 32, 0x0D, 0x0D, .u 4, 1, .ro, .c 0, .any⟩, -- Limited entries (Table 07-4 Current limits)
  ⟨0x4009, 0x20, 32, 0x0E, 0x0E, .u 4, 1, .ro, .c 0, .any⟩, -- Longest limited time (Table 07-4 Current limits)
  ⟨0x4009, 0x20, 32, 0x0F, 0x0F, .u 4, 1, .ro, .c 0, .any⟩ -- Limited cycles (Table 07-4 Current limits)
  ]

/-- Entries 0x400A + 0x20·b. -/
def dict400A : List Desc := [
  ⟨0x400A, 0x20, 32, 0x01, 0x01, .bool, 1, .rw, .c 0, .oneOf [0, 1]⟩, -- Injection enable (Table 07-5 Ride-through)
  ⟨0x400A, 0x20, 32, 0x02, 0x02, .f32, 1, .rw, .c 0x40000000, .f32 0x00000000 0x41200000⟩, -- k+ (Table 07-5 Ride-through)
  ⟨0x400A, 0x20, 32, 0x03, 0x03, .f32, 1, .rw, .c 0x40000000, .f32 0x00000000 0x41200000⟩, -- k− (Table 07-5 Ride-through)
  ⟨0x400A, 0x20, 32, 0x04, 0x04, .f32, 1, .rw, .c 0x3F666666, .f32 0x3F000000 0x3F733333⟩, -- Dip threshold (Table 07-5 Ride-through)
  ⟨0x400A, 0x20, 32, 0x05, 0x05, .f32, 1, .rw, .c 0x3F8CCCCD, .f32 0x3F866666 0x3FA66666⟩, -- Swell threshold (Table 07-5 Ride-through)
  ⟨0x400A, 0x20, 32, 0x06, 0x06, .f32, 1, .rw, .c 0x3CA3D70A, .f32 0x3BA3D70A 0x3DCCCCCD⟩, -- Hysteresis (Table 07-5 Ride-through)
  ⟨0x400A, 0x20, 32, 0x07, 0x07, .f32, 1, .rw, .c 0x42480000, .f32 0x41200000 0x447A0000⟩, -- Pre-fault filter time (Table 07-5 Ride-through)
  ⟨0x400A, 0x20, 32, 0x08, 0x08, .u 2, 1, .rw, .c 20, .bw 0 10000⟩, -- Guard delay (Table 07-5 Ride-through)
  ⟨0x400A, 0x20, 32, 0x09, 0x09, .f32, 1, .rw, .c 0x3CA3D70A, .f32 0x3BA3D70A 0x3E99999A⟩, -- Guard limit (Table 07-5 Ride-through)
  ⟨0x400A, 0x20, 32, 0x0A, 0x0C, .u 1, 1, .rwc, .c 255, .bwOr 0 79 255⟩, -- Envelope voltage chains (Table 07-5 Ride-through)
  ⟨0x400A, 0x20, 32, 0x0D, 0x0D, .f32, 1, .rw, .c 0x3F666666, .f32 0x3F000000 0x3F800000⟩, -- Continuous band low (Table 07-5 Ride-through)
  ⟨0x400A, 0x20, 32, 0x0E, 0x0E, .f32, 1, .rw, .c 0x3F8CCCCD, .f32 0x3F800000 0x3FC00000⟩, -- Continuous band high (Table 07-5 Ride-through)
  ⟨0x400A, 0x20, 32, 0x0F, 0x0F, .f32, 1, .rw, .c 0x3F800000, .f32 0x3DCCCCCD 0x40A00000⟩, -- Frequency band (Table 07-5 Ride-through)
  ⟨0x400A, 0x20, 32, 0x10, 0x10, .u 2, 1, .rw, .c 100, .bw 0 10000⟩, -- Return hold (Table 07-5 Ride-through)
  ⟨0x400A, 0x20, 32, 0x11, 0x11, .u 1, 1, .rw, .c 15, .mask 15⟩, -- Envelope enable (Table 07-5 Ride-through)
  ⟨0x400A, 0x20, 32, 0x12, 0x12, .u 2, 1, .ro, .c 0, .any⟩, -- Status (Table 07-5 Ride-through)
  ⟨0x400A, 0x20, 32, 0x13, 0x13, .u 4, 1, .ro, .c 0, .any⟩, -- Excursion time (Table 07-5 Ride-through)
  ⟨0x400A, 0x20, 32, 0x14, 0x14, .f32, 1, .ro, .c 0x00000000, .any⟩, -- Deepest voltage (Table 07-5 Ride-through)
  ⟨0x400A, 0x20, 32, 0x15, 0x15, .u 4, 1, .ro, .c 0, .any⟩, -- Violations (Table 07-5 Ride-through)
  ⟨0x400A, 0x20, 32, 0x16, 0x16, .u 4, 1, .ro, .c 0, .any⟩ -- Excursions (Table 07-5 Ride-through)
  ]

/-- Entries 0x400B + 0x20·b. -/
def dict400B : List Desc := [
  ⟨0x400B, 0x20, 32, 0x01, 0x01, .u 1, 1, .rwc, .c 255, .bwOr 0 79 255⟩, -- Bus chain a (Table 08-6 Starter and black-start)
  ⟨0x400B, 0x20, 32, 0x02, 0x02, .u 1, 1, .rwc, .c 255, .bwOr 0 79 255⟩, -- Bus chain b (Table 08-6 Starter and black-start)
  ⟨0x400B, 0x20, 32, 0x03, 0x03, .u 1, 1, .rwc, .c 255, .bwOr 0 79 255⟩, -- Bus chain c (Table 08-6 Starter and black-start)
  ⟨0x400B, 0x20, 32, 0x04, 0x04, .u 1, 1, .rwc, .c 3, .bw 3 50⟩, -- Observation cycles N_obs (Table 08-6 Starter and black-start)
  ⟨0x400B, 0x20, 32, 0x05, 0x05, .f32, 1, .rw, .c 0x3F59999A, .f32 0x3F000000 0x3F800000⟩, -- Live threshold (Table 08-6 Starter and black-start)
  ⟨0x400B, 0x20, 32, 0x06, 0x06, .f32, 1, .rw, .c 0x3F933333, .f32 0x3F800000 0x3FA66666⟩, -- Live upper limit (Table 08-6 Starter and black-start)
  ⟨0x400B, 0x20, 32, 0x07, 0x07, .f32, 1, .rw, .c 0x3D4CCCCD, .f32 0x3C23D70A 0x3E4CCCCD⟩, -- Dead threshold (Table 08-6 Starter and black-start)
  ⟨0x400B, 0x20, 32, 0x08, 0x08, .u 2, 1, .rw, .c 500, .bw 100 10000⟩, -- Dead time (Table 08-6 Starter and black-start)
  ⟨0x400B, 0x20, 32, 0x09, 0x09, .u 4, 1, .rw, .c 0, .bw 0 86400⟩, -- Starter wait limit (Table 08-6 Starter and black-start)
  ⟨0x400B, 0x20, 32, 0x0A, 0x0A, .u 2, 1, .rwc, .c 65535, .own⟩, -- DC-link source (Table 08-6 Starter and black-start)
  ⟨0x400B, 0x20, 32, 0x0B, 0x0B, .q15, 1, .rw, .c 0, .bw 0 32767⟩, -- DC-link threshold (Table 08-6 Starter and black-start)
  ⟨0x400B, 0x20, 32, 0x0C, 0x0C, .u 2, 1, .rw, .c 10000, .bw 100 60000⟩, -- Precharge time limit (Table 08-6 Starter and black-start)
  ⟨0x400B, 0x20, 32, 0x0D, 0x0D, .u 1, 1, .rwc, .c 0, .bw 0 3⟩, -- Black-start role (Table 08-6 Starter and black-start)
  ⟨0x400B, 0x20, 32, 0x0E, 0x0E, .f32, 1, .rw, .c 0x40000000, .f32 0x3DCCCCCD 0x41200000⟩, -- Ramp time (Table 08-6 Starter and black-start)
  ⟨0x400B, 0x20, 32, 0x0F, 0x0F, .bool, 1, .rw, .c 1, .oneOf [0, 1]⟩, -- Hold ramp while limited (Table 08-6 Starter and black-start)
  ⟨0x400B, 0x20, 32, 0x10, 0x10, .u 4, 1, .rw, .c 30000, .bw 1000 600000⟩, -- Black-start time limit (Table 08-6 Starter and black-start)
  ⟨0x400B, 0x20, 32, 0x11, 0x11, .u 2, 1, .ro, .c 0, .any⟩, -- Status (Table 08-6 Starter and black-start)
  ⟨0x400B, 0x20, 32, 0x12, 0x12, .f32, 1, .ro, .c 0x00000000, .any⟩, -- Bus voltage (Table 08-6 Starter and black-start)
  ⟨0x400B, 0x20, 32, 0x13, 0x13, .q15, 1, .ro, .c 0, .any⟩, -- Seeded angle θ_s (Table 08-6 Starter and black-start)
  ⟨0x400B, 0x20, 32, 0x14, 0x14, .f32, 1, .ro, .c 0x00000000, .any⟩, -- Seeded frequency (Table 08-6 Starter and black-start)
  ⟨0x400B, 0x20, 32, 0x15, 0x15, .time64, 1, .ro, .c 0, .any⟩, -- Dead since (Table 08-6 Starter and black-start)
  ⟨0x400B, 0x20, 32, 0x16, 0x16, .u 4, 1, .ro, .c 0, .any⟩, -- Starter runs (Table 08-6 Starter and black-start)
  ⟨0x400B, 0x20, 32, 0x17, 0x17, .u 4, 1, .ro, .c 0, .any⟩, -- Black starts (Table 08-6 Starter and black-start)
  ⟨0x400B, 0x20, 32, 0x18, 0x18, .u 4, 1, .ro, .c 0, .any⟩, -- Black starts failed (Table 08-6 Starter and black-start)
  ⟨0x400B, 0x20, 32, 0x19, 0x19, .u 1, 1, .ro, .c 0, .any⟩ -- Last outcome (Table 08-6 Starter and black-start)
  ]

/-- Entries 0x400C + 0x20·b. -/
def dict400C : List Desc := [
  ⟨0x400C, 0x20, 32, 0x01, 0x01, .u 1, 1, .rw, .c 0, .mask 3⟩, -- Automatic resync (Table 08-7 Resync)
  ⟨0x400C, 0x20, 32, 0x02, 0x02, .u 1, 1, .rwc, .c 255, .bwOr 0 79 255⟩, -- Capacitor chain (Table 08-7 Resync)
  ⟨0x400C, 0x20, 32, 0x03, 0x03, .u 1, 1, .rwc, .c 255, .bwOr 0 79 255⟩, -- Grid-side chain (Table 08-7 Resync)
  ⟨0x400C, 0x20, 32, 0x04, 0x04, .u 1, 1, .ro, .c 0, .any⟩, -- Reserved (Table 08-7 Resync)
  ⟨0x400C, 0x20, 32, 0x05, 0x05, .f32, 1, .rw, .c 0x3DCCCCCD, .f32 0x3C23D70A 0x3F800000⟩, -- Slip bound s (Table 08-7 Resync)
  ⟨0x400C, 0x20, 32, 0x06, 0x06, .f32, 1, .rw, .c 0x3CA3D70A, .f32 0x3A83126F 0x3DCCCCCD⟩, -- Phase gain K_φ (Table 08-7 Resync)
  ⟨0x400C, 0x20, 32, 0x07, 0x07, .f32, 1, .rw, .c 0x41200000, .f32 0x3F800000 0x41F00000⟩, -- Phase window (Table 08-7 Resync)
  ⟨0x400C, 0x20, 32, 0x08, 0x08, .f32, 1, .rw, .c 0x3DCCCCCD, .f32 0x3C23D70A 0x3F000000⟩, -- Frequency window (Table 08-7 Resync)
  ⟨0x400C, 0x20, 32, 0x09, 0x09, .f32, 1, .rw, .c 0x3D4CCCCD, .f32 0x3C23D70A 0x3E4CCCCD⟩, -- Voltage window (Table 08-7 Resync)
  ⟨0x400C, 0x20, 32, 0x0A, 0x0A, .u 2, 1, .rw, .c 200, .bw 20 5000⟩, -- Hold time (Table 08-7 Resync)
  ⟨0x400C, 0x20, 32, 0x0B, 0x0B, .u 4, 1, .rw, .c 60000, .bw 0 600000⟩, -- Reference stable time (Table 08-7 Resync)
  ⟨0x400C, 0x20, 32, 0x0C, 0x0C, .u 4, 1, .rw, .c 60000, .bw 1000 600000⟩, -- Resync time limit (Table 08-7 Resync)
  ⟨0x400C, 0x20, 32, 0x0D, 0x0D, .u 2, 1, .rw, .c 500, .bw 50 5000⟩, -- Closing time limit (Table 08-7 Resync)
  ⟨0x400C, 0x20, 32, 0x0E, 0x0E, .f32, 1, .rw, .c 0x3DCCCCCD, .f32 0x3A83126F 0x41200000⟩, -- Reconnection rate (Table 08-7 Resync)
  ⟨0x400C, 0x20, 32, 0x0F, 0x0F, .u 2, 1, .ro, .c 0, .any⟩, -- Status (Table 08-7 Resync)
  ⟨0x400C, 0x20, 32, 0x10, 0x10, .f32, 1, .ro, .c 0x00000000, .any⟩, -- Phase difference Δφ (Table 08-7 Resync)
  ⟨0x400C, 0x20, 32, 0x11, 0x11, .f32, 1, .ro, .c 0x00000000, .any⟩, -- Frequency difference Δf (Table 08-7 Resync)
  ⟨0x400C, 0x20, 32, 0x12, 0x12, .f32, 1, .ro, .c 0x00000000, .any⟩, -- Voltage difference ΔV (Table 08-7 Resync)
  ⟨0x400C, 0x20, 32, 0x13, 0x13, .f32, 1, .ro, .c 0x00000000, .any⟩, -- Reference frequency (Table 08-7 Resync)
  ⟨0x400C, 0x20, 32, 0x14, 0x14, .u 1, 1, .ro, .c 0, .any⟩, -- State of entry (Table 08-7 Resync)
  ⟨0x400C, 0x20, 32, 0x15, 0x15, .u 4, 1, .ro, .c 0, .any⟩, -- Closings (Table 08-7 Resync)
  ⟨0x400C, 0x20, 32, 0x16, 0x16, .u 4, 1, .ro, .c 0, .any⟩, -- Aborts (Table 08-7 Resync)
  ⟨0x400C, 0x20, 32, 0x17, 0x17, .time64, 1, .ro, .c 0, .any⟩, -- Last closing time (Table 08-7 Resync)
  ⟨0x400C, 0x20, 32, 0x18, 0x18, .f32, 1, .ro, .c 0x00000000, .any⟩, -- Phase at last closing (Table 08-7 Resync)
  ⟨0x400C, 0x20, 32, 0x19, 0x19, .u 1, 1, .ro, .c 0, .any⟩ -- Last outcome (Table 08-7 Resync)
  ]

/-- Entries 0x400D + 0x20·b. -/
def dict400D : List Desc := [
  ⟨0x400D, 0x20, 32, 0x01, 0x01, .u 4, 1, .ro, .c 0, .any⟩, -- Sources in force (Table 18-4 Batch protection)
  ⟨0x400D, 0x20, 32, 0x02, 0x02, .u 4, 1, .ro, .c 0, .any⟩, -- Sources of last block (Table 18-4 Batch protection)
  ⟨0x400D, 0x20, 32, 0x03, 0x03, .time64, 1, .ro, .c 0, .any⟩, -- Last block time (Table 18-4 Batch protection)
  ⟨0x400D, 0x20, 32, 0x04, 0x04, .u 4, 1, .ro, .c 0, .any⟩ -- Blocks (Table 18-4 Batch protection)
  ]

/-- Entries 0x400E + 0x20·b. -/
def dict400E : List Desc := [
  ⟨0x400E, 0x20, 32, 0x01, 0x01, .f32, 1, .rw, .c 0x00000000, .f32 0xBF99999A 0x3F99999A⟩, -- P* (Table 06-9 Set-point and measurement)
  ⟨0x400E, 0x20, 32, 0x02, 0x02, .f32, 1, .rw, .c 0x00000000, .f32 0xBF99999A 0x3F99999A⟩, -- Q* (Table 06-9 Set-point and measurement)
  ⟨0x400E, 0x20, 32, 0x03, 0x03, .f32, 1, .rw, .fn, .f32 0x42340000 0x42820000⟩, -- f* (Table 06-9 Set-point and measurement)
  ⟨0x400E, 0x20, 32, 0x04, 0x04, .f32, 1, .rw, .c 0x3F800000, .f32 0x3F4CCCCD 0x3F99999A⟩, -- V* (Table 06-9 Set-point and measurement)
  ⟨0x400E, 0x20, 32, 0x05, 0x08, .u 1, 1, .rwc, .c 255, .bwOr 0 63 255⟩, -- Generators for P, Q, f, V (Table 06-9 Set-point and measurement)
  ⟨0x400E, 0x20, 32, 0x09, 0x09, .time64, 1, .rw, .c 0, .any⟩, -- Staged apply time (Table 06-9 Set-point and measurement)
  ⟨0x400E, 0x20, 32, 0x0A, 0x0A, .u 2, 1, .rw, .c 0, .bw 0 60000⟩, -- Set-point watchdog (Table 06-9 Set-point and measurement)
  ⟨0x400E, 0x20, 32, 0x0B, 0x0B, .u 1, 1, .ro, .c 0, .any⟩ -- Set-point status (Table 06-9 Set-point and measurement)
  ]

/-- Entries 0x400F + 0x20·b. -/
def dict400F : List Desc := [
  ⟨0x400F, 0x20, 32, 0x01, 0x01, .f32, 1, .ro, .c 0x00000000, .any⟩, -- P (Table 06-9 Set-point and measurement)
  ⟨0x400F, 0x20, 32, 0x02, 0x02, .f32, 1, .ro, .c 0x00000000, .any⟩, -- Q (Table 06-9 Set-point and measurement)
  ⟨0x400F, 0x20, 32, 0x03, 0x03, .f32, 1, .ro, .c 0x00000000, .any⟩, -- PCC voltage (Table 06-9 Set-point and measurement)
  ⟨0x400F, 0x20, 32, 0x04, 0x04, .f32, 1, .ro, .c 0x00000000, .any⟩, -- Negative-sequence voltage (Table 06-9 Set-point and measurement)
  ⟨0x400F, 0x20, 32, 0x05, 0x05, .f32, 1, .ro, .c 0x00000000, .any⟩, -- Grid frequency (Table 06-9 Set-point and measurement)
  ⟨0x400F, 0x20, 32, 0x06, 0x06, .f32, 1, .ro, .c 0x00000000, .any⟩, -- RoCoF (Table 06-9 Set-point and measurement)
  ⟨0x400F, 0x20, 32, 0x07, 0x07, .f32, 1, .ro, .c 0x00000000, .any⟩, -- Effective inertia (Table 06-9 Set-point and measurement)
  ⟨0x400F, 0x20, 32, 0x08, 0x08, .u 1, 1, .ro, .c 0, .any⟩ -- Validity (Table 06-9 Set-point and measurement)
  ]

/-- Entries 0x4010 + 0x20·b. -/
def dict4010 : List Desc := [
  ⟨0x4010, 0x20, 32, 0x01, 0x01, .bool, 1, .rw, .c 0, .oneOf [0, 1]⟩, -- Enable (Table 06-10 Impedance estimation)
  ⟨0x4010, 0x20, 32, 0x02, 0x02, .f32, 1, .rw, .c 0x3BA3D70A, .f32 0x3A03126F 0x3BA3D70A⟩, -- Tone amplitude (Table 06-10 Impedance estimation)
  ⟨0x4010, 0x20, 32, 0x03, 0x03, .u 2, 1, .rwc, .c 100, .bw 20 1000⟩, -- Segment length T_s (Table 06-10 Impedance estimation)
  ⟨0x4010, 0x20, 32, 0x04, 0x04, .u 1, 1, .rwc, .c 2, .bw 2 64⟩, -- Period N_p (Table 06-10 Impedance estimation)
  ⟨0x4010, 0x20, 32, 0x05, 0x05, .u 1, 1, .rwc, .c 0, .own⟩, -- On segment k_on (Table 06-10 Impedance estimation)
  ⟨0x4010, 0x20, 32, 0x06, 0x06, .f32, 1, .rw, .c 0x00000000, .f32 0x00000000 0x3F000000⟩, -- Filter susceptance B_f (Table 06-10 Impedance estimation)
  ⟨0x4010, 0x20, 32, 0x07, 0x07, .f32, 1, .rw, .c 0x3B03126F, .f32 0x3A03126F 0x3DCCCCCD⟩, -- Minimum tone current (Table 06-10 Impedance estimation)
  ⟨0x4010, 0x20, 32, 0x08, 0x08, .bool, 1, .rw, .c 0, .oneOf [0, 1]⟩, -- Adaptation enable (Table 06-10 Impedance estimation)
  ⟨0x4010, 0x20, 32, 0x09, 0x09, .f32, 1, .rw, .c 0x3E800000, .f32 0x00000000 0x3F800000⟩, -- Total reactance target X_tot (Table 06-10 Impedance estimation)
  ⟨0x4010, 0x20, 32, 0x0A, 0x0A, .f32, 1, .rw, .c 0xBD4CCCCD, .own⟩, -- Addition minimum X_min (Table 06-10 Impedance estimation)
  ⟨0x4010, 0x20, 32, 0x0B, 0x0B, .f32, 1, .rw, .c 0x3E19999A, .f32 0x00000000 0x3F000000⟩, -- Addition maximum X_max (Table 06-10 Impedance estimation)
  ⟨0x4010, 0x20, 32, 0x0C, 0x0C, .f32, 1, .rw, .c 0x40000000, .f32 0x3F800000 0x42480000⟩, -- SCR low point (Table 06-10 Impedance estimation)
  ⟨0x4010, 0x20, 32, 0x0D, 0x0D, .f32, 1, .rw, .c 0x3FC00000, .f32 0x3F000000 0x40800000⟩, -- H scale at low point (Table 06-10 Impedance estimation)
  ⟨0x4010, 0x20, 32, 0x0E, 0x0E, .f32, 1, .rw, .c 0x41200000, .own⟩, -- SCR high point (Table 06-10 Impedance estimation)
  ⟨0x4010, 0x20, 32, 0x0F, 0x0F, .f32, 1, .rw, .c 0x3F800000, .f32 0x3F000000 0x40800000⟩, -- H scale at high point (Table 06-10 Impedance estimation)
  ⟨0x4010, 0x20, 32, 0x10, 0x10, .f32, 1, .rw, .c 0x3C23D70A, .f32 0x3A83126F 0x3DCCCCCD⟩, -- X step (Table 06-10 Impedance estimation)
  ⟨0x4010, 0x20, 32, 0x11, 0x11, .f32, 1, .rw, .c 0x3D4CCCCD, .f32 0x3C23D70A 0x3F800000⟩, -- H-scale step (Table 06-10 Impedance estimation)
  ⟨0x4010, 0x20, 32, 0x12, 0x12, .f32, 1, .ro, .c 0x00000000, .any⟩, -- R_g (Table 06-10 Impedance estimation)
  ⟨0x4010, 0x20, 32, 0x13, 0x13, .f32, 1, .ro, .c 0x00000000, .any⟩, -- X_g (Table 06-10 Impedance estimation)
  ⟨0x4010, 0x20, 32, 0x14, 0x14, .f32, 1, .ro, .c 0x00000000, .any⟩, -- SCR (Table 06-10 Impedance estimation)
  ⟨0x4010, 0x20, 32, 0x15, 0x15, .u 1, 1, .ro, .c 0, .any⟩, -- Status (Table 06-10 Impedance estimation)
  ⟨0x4010, 0x20, 32, 0x16, 0x16, .u 4, 1, .ro, .c 0, .any⟩, -- Accepted estimates (Table 06-10 Impedance estimation)
  ⟨0x4010, 0x20, 32, 0x17, 0x17, .u 4, 1, .ro, .c 0, .any⟩, -- Rejected estimates (Table 06-10 Impedance estimation)
  ⟨0x4010, 0x20, 32, 0x18, 0x18, .time64, 1, .ro, .c 0, .any⟩ -- Last accepted (Table 06-10 Impedance estimation)
  ]

/-- Entries 0x4011 + 0x20·b. -/
def dict4011 : List Desc := [
  ⟨0x4011, 0x20, 32, 0x01, 0x01, .u 1, 1, .rw, .c 3, .bw 0 4⟩, -- Slot fault (Table 07-6 Fault reactions)
  ⟨0x4011, 0x20, 32, 0x02, 0x02, .u 1, 1, .rw, .c 3, .bw 0 4⟩, -- Following error (Table 07-6 Fault reactions)
  ⟨0x4011, 0x20, 32, 0x03, 0x03, .u 1, 1, .rw, .c 0, .bw 0 4⟩, -- Feedback other (Table 07-6 Fault reactions)
  ⟨0x4011, 0x20, 32, 0x04, 0x04, .u 1, 1, .rw, .c 0, .oneOf [0, 3, 4]⟩, -- Disconnect opened (Table 07-6 Fault reactions)
  ⟨0x4011, 0x20, 32, 0x05, 0x05, .u 1, 1, .rw, .c 4, .bw 0 4⟩, -- Ride-through exceeded (Table 07-6 Fault reactions)
  ⟨0x4011, 0x20, 32, 0x06, 0x06, .u 1, 1, .rw, .c 3, .bw 0 4⟩, -- Limited too long (Table 07-6 Fault reactions)
  ⟨0x4011, 0x20, 32, 0x07, 0x07, .u 1, 1, .rw, .c 0, .bw 0 4⟩, -- Impedance ceiling (Table 07-6 Fault reactions)
  ⟨0x4011, 0x20, 32, 0x08, 0x08, .u 1, 1, .ro, .c 0, .any⟩, -- Last source (Table 07-6 Fault reactions)
  ⟨0x4011, 0x20, 32, 0x09, 0x09, .time64, 1, .ro, .c 0, .any⟩, -- Last reaction time (Table 07-6 Fault reactions)
  ⟨0x4011, 0x20, 32, 0x0A, 0x0A, .u 4, 1, .ro, .c 0, .any⟩ -- Reactions taken (Table 07-6 Fault reactions)
  ]

/-- Entries 0x4012 + 0x20·b. -/
def dict4012 : List Desc := [
  ⟨0x4012, 0x20, 32, 0x01, 0x01, .u 2, 1, .rwc, .c 64, .bw 16 4096⟩, -- Freeze window N (Table 04-7 Feedback supervision)
  ⟨0x4012, 0x20, 32, 0x02, 0x02, .q15, 1, .rwc, .c 655, .bw 0 32767⟩, -- AC threshold (Table 04-7 Feedback supervision)
  ⟨0x4012, 0x20, 32, 0x03, 0x03, .u 2, 1, .rwc, .c 200, .bw 0 200⟩, -- Open-loop time (Table 04-7 Feedback supervision)
  ⟨0x4012, 0x20, 32, 0x04, 0x04, .u 2, 1, .rwc, .c 64, .bw 16 4096⟩, -- Clean samples to re-close (Table 04-7 Feedback supervision)
  ⟨0x4012, 0x20, 32, 0x05, 0x05, .u 2, 1, .ro, .c 0, .any⟩, -- Status (Table 04-7 Feedback supervision)
  ⟨0x4012, 0x20, 32, 0x06, 0x06, .u 2, 1, .ro, .c 65535, .any⟩, -- First source (Table 04-7 Feedback supervision)
  ⟨0x4012, 0x20, 32, 0x07, 0x07, .u 4, 1, .ro, .c 0, .any⟩, -- Current-feedback events (Table 04-7 Feedback supervision)
  ⟨0x4012, 0x20, 32, 0x08, 0x08, .u 4, 1, .ro, .c 0, .any⟩, -- Voltage-feedback events (Table 04-7 Feedback supervision)
  ⟨0x4012, 0x20, 32, 0x09, 0x09, .u 4, 1, .ro, .c 0, .any⟩, -- Open-loop rides (Table 04-7 Feedback supervision)
  ⟨0x4012, 0x20, 32, 0x0A, 0x0A, .u 4, 1, .ro, .c 0, .any⟩ -- Open-loop rides ending in block (Table 04-7 Feedback supervision)
  ]

/-- Entries 0x4013 + 0x20·b. -/
def dict4013 : List Desc := [
  ⟨0x4013, 0x20, 32, 0x01, 0x01, .u 4, 1, .ro, .c 0, .any⟩, -- Cycles run (Table 06-11 Deadline statistics)
  ⟨0x4013, 0x20, 32, 0x02, 0x02, .u 4, 1, .ro, .c 0, .any⟩, -- Deadline misses (Table 06-11 Deadline statistics)
  ⟨0x4013, 0x20, 32, 0x03, 0x03, .u 1, 1, .ro, .c 0, .any⟩, -- Consecutive misses (Table 06-11 Deadline statistics)
  ⟨0x4013, 0x20, 32, 0x04, 0x04, .u 4, 1, .ro, .c 0, .any⟩, -- Slot-fault stops (Table 06-11 Deadline statistics)
  ⟨0x4013, 0x20, 32, 0x05, 0x05, .time64, 1, .ro, .c 0, .any⟩, -- Last miss (Table 06-11 Deadline statistics)
  ⟨0x4013, 0x20, 32, 0x06, 0x06, .u 4, 1, .ro, .c 0, .any⟩, -- Largest elapsed (Table 06-11 Deadline statistics)
  ⟨0x4013, 0x20, 32, 0x07, 0x07, .i 4, 1, .ro, .c 0, .any⟩, -- Smallest slack (Table 06-11 Deadline statistics)
  ⟨0x4013, 0x20, 32, 0x08, 0x08, .u 4, 1, .ro, .c 0, .any⟩, -- Blocks for misses (Table 06-11 Deadline statistics)
  ⟨0x4013, 0x20, 32, 0x09, 0x09, .bool, 1, .wo, .c 0, .oneOf [1]⟩ -- Clear statistics (Table 06-11 Deadline statistics)
  ]

/-- Entries 0x4014 + 0x20·b. -/
def dict4014 : List Desc := [
  ⟨0x4014, 0x20, 32, 0x01, 0x01, .u 1, 1, .ro, .c 0, .any⟩, -- Active bank (Table 04-8 Bank control)
  ⟨0x4014, 0x20, 32, 0x02, 0x02, .bool, 1, .wo, .c 0, .oneOf [1]⟩, -- Swap request (Table 04-8 Bank control)
  ⟨0x4014, 0x20, 32, 0x03, 0x03, .bool, 1, .ro, .c 0, .any⟩, -- Swap pending (Table 04-8 Bank control)
  ⟨0x4014, 0x20, 32, 0x04, 0x04, .bool, 1, .wo, .c 0, .oneOf [1]⟩, -- Copy active to inactive (Table 04-8 Bank control)
  ⟨0x4014, 0x20, 32, 0x05, 0x05, .bool, 1, .ro, .c 0, .any⟩, -- Inactive banks valid (Table 04-8 Bank control)
  ⟨0x4014, 0x20, 32, 0x06, 0x06, .u 2, 1, .ro, .c 65535, .any⟩, -- First invalid slot (Table 04-8 Bank control)
  ⟨0x4014, 0x20, 32, 0x07, 0x07, .u 4, 1, .ro, .c 0, .any⟩, -- Swap count (Table 04-8 Bank control)
  ⟨0x4014, 0x20, 32, 0x08, 0x08, .time64, 1, .ro, .c 0, .any⟩ -- Last swap time (Table 04-8 Bank control)
  ]

/-- Entries 0x4015 + 0x20·b. -/
def dict4015 : List Desc := [
  ⟨0x4015, 0x20, 32, 0x01, 0x01, .u 1, 1, .rw, .c 1, .mask 3⟩, -- Criteria enable (Table 06-12 Islanding, negative-sequence and adaptive inerti)
  ⟨0x4015, 0x20, 32, 0x02, 0x02, .u 1, 1, .rw, .c 0, .oneOf [0, 1, 2]⟩, -- PCC breaker status (Table 06-12 Islanding, negative-sequence and adaptive inerti)
  ⟨0x4015, 0x20, 32, 0x03, 0x03, .f32, 1, .rw, .c 0x3F800000, .f32 0x3DCCCCCD 0x41200000⟩, -- Impedance threshold (Table 06-12 Islanding, negative-sequence and adaptive inerti)
  ⟨0x4015, 0x20, 32, 0x04, 0x04, .f32, 1, .rw, .c 0x3F000000, .f32 0x3DCCCCCD 0x3F666666⟩, -- Clear ratio (Table 06-12 Islanding, negative-sequence and adaptive inerti)
  ⟨0x4015, 0x20, 32, 0x05, 0x05, .u 1, 1, .ro, .c 0, .any⟩, -- Islanding status (Table 06-12 Islanding, negative-sequence and adaptive inerti)
  ⟨0x4015, 0x20, 32, 0x06, 0x06, .u 4, 1, .ro, .c 0, .any⟩, -- Detections (Table 06-12 Islanding, negative-sequence and adaptive inerti)
  ⟨0x4015, 0x20, 32, 0x07, 0x07, .u 4, 1, .ro, .c 0, .any⟩, -- Withdrawals (Table 06-12 Islanding, negative-sequence and adaptive inerti)
  ⟨0x4015, 0x20, 32, 0x10, 0x10, .u 1, 1, .rwc, .c 255, .bwOr 0 63 255⟩, -- Ripple detector (Table 06-12 Islanding, negative-sequence and adaptive inerti)
  ⟨0x4015, 0x20, 32, 0x11, 0x11, .q15, 1, .rw, .c 328, .any⟩, -- Ripple on threshold (Table 06-12 Islanding, negative-sequence and adaptive inerti)
  ⟨0x4015, 0x20, 32, 0x12, 0x12, .q15, 1, .rw, .c 164, .own⟩, -- Ripple off threshold (Table 06-12 Islanding, negative-sequence and adaptive inerti)
  ⟨0x4015, 0x20, 32, 0x13, 0x13, .bool, 1, .ro, .c 0, .any⟩, -- Ripple present (Table 06-12 Islanding, negative-sequence and adaptive inerti)
  ⟨0x4015, 0x20, 32, 0x14, 0x14, .time64, 1, .ro, .c 0, .any⟩, -- Last pulse start (Table 06-12 Islanding, negative-sequence and adaptive inerti)
  ⟨0x4015, 0x20, 32, 0x15, 0x15, .u 4, 1, .ro, .c 0, .any⟩, -- Last pulse length (Table 06-12 Islanding, negative-sequence and adaptive inerti)
  ⟨0x4015, 0x20, 32, 0x16, 0x16, .u 4, 1, .ro, .c 0, .any⟩ -- Pulses (Table 06-12 Islanding, negative-sequence and adaptive inerti)
  ]

/-- Entries 0x4016 + 0x20·b. -/
def dict4016 : List Desc := [
  ⟨0x4016, 0x20, 32, 0x01, 0x01, .u 1, 1, .rw, .c 0, .oneOf [0, 1, 2]⟩, -- Mode (Table 06-12 Islanding, negative-sequence and adaptive inerti)
  ⟨0x4016, 0x20, 32, 0x02, 0x02, .f32, 1, .rw, .c 0x3DCCCCCD, .f32 0x00000000 0x3E99999A⟩, -- Output limit (Table 06-12 Islanding, negative-sequence and adaptive inerti)
  ⟨0x4016, 0x20, 32, 0x03, 0x03, .f32, 1, .ro, .c 0x00000000, .any⟩, -- Unbalance (Table 06-12 Islanding, negative-sequence and adaptive inerti)
  ⟨0x4016, 0x20, 32, 0x04, 0x04, .f32, 1, .ro, .c 0x00000000, .any⟩, -- Output magnitude (Table 06-12 Islanding, negative-sequence and adaptive inerti)
  ⟨0x4016, 0x20, 32, 0x05, 0x05, .u 4, 1, .ro, .c 0, .any⟩ -- Limit events (Table 06-12 Islanding, negative-sequence and adaptive inerti)
  ]

/-- Entries 0x4017 + 0x20·b. -/
def dict4017 : List Desc := [
  ⟨0x4017, 0x20, 32, 0x01, 0x01, .bool, 1, .rw, .c 0, .oneOf [0, 1]⟩, -- Adaptive inertia enable (Table 06-12 Islanding, negative-sequence and adaptive inerti)
  ⟨0x4017, 0x20, 32, 0x02, 0x02, .f32, 1, .rw, .c 0x3F800000, .f32 0x3DCCCCCD 0x41A00000⟩, -- H minimum (Table 06-12 Islanding, negative-sequence and adaptive inerti)
  ⟨0x4017, 0x20, 32, 0x03, 0x03, .f32, 1, .rw, .c 0x41000000, .f32 0x3DCCCCCD 0x41A00000⟩, -- H maximum (Table 06-12 Islanding, negative-sequence and adaptive inerti)
  ⟨0x4017, 0x20, 32, 0x04, 0x04, .f32, 1, .rw, .c 0x40800000, .f32 0x00000000 0x42C80000⟩, -- Inertia gain (Table 06-12 Islanding, negative-sequence and adaptive inerti)
  ⟨0x4017, 0x20, 32, 0x05, 0x05, .f32, 1, .rw, .c 0x3F000000, .f32 0x3D4CCCCD 0x40A00000⟩, -- RoCoF threshold (Table 06-12 Islanding, negative-sequence and adaptive inerti)
  ⟨0x4017, 0x20, 32, 0x06, 0x06, .f32, 1, .rw, .c 0x3D4CCCCD, .f32 0x00000000 0x3F800000⟩, -- Deviation deadband (Table 06-12 Islanding, negative-sequence and adaptive inerti)
  ⟨0x4017, 0x20, 32, 0x07, 0x07, .f32, 1, .rw, .c 0x40000000, .f32 0x3C23D70A 0x42C80000⟩, -- H rate (Table 06-12 Islanding, negative-sequence and adaptive inerti)
  ⟨0x4017, 0x20, 32, 0x08, 0x08, .f32, 1, .rw, .c 0x41A00000, .f32 0x3F800000 0x447A0000⟩ -- RoCoF filter time (Table 06-12 Islanding, negative-sequence and adaptive inerti)
  ]

/-- Entries 0x1000. -/
def dict1000 : List Desc := [
  ⟨0x1000, 0x1, 1, 0x00, 0x00, .u 4, 1, .ro, .c 0, .any⟩ -- Device type (Table 17-11 Identity and communication)
  ]

/-- Entries 0x1001. -/
def dict1001 : List Desc := [
  ⟨0x1001, 0x1, 1, 0x00, 0x00, .u 1, 1, .ro, .c 0, .any⟩ -- Error register (Table 17-11 Identity and communication)
  ]

/-- Entries 0x1008. -/
def dict1008 : List Desc := [
  ⟨0x1008, 0x1, 1, 0x00, 0x00, .vstr 64, 1, .ro, .c 0, .any⟩ -- Device name (Table 17-11 Identity and communication)
  ]

/-- Entries 0x1009. -/
def dict1009 : List Desc := [
  ⟨0x1009, 0x1, 1, 0x00, 0x00, .vstr 64, 1, .ro, .c 0, .any⟩ -- Hardware version (Table 17-11 Identity and communication)
  ]

/-- Entries 0x100A. -/
def dict100A : List Desc := [
  ⟨0x100A, 0x1, 1, 0x00, 0x00, .vstr 64, 1, .ro, .c 0, .any⟩ -- Software version (Table 17-11 Identity and communication)
  ]

/-- Entries 0x1016. -/
def dict1016 : List Desc := [
  ⟨0x1016, 0x1, 1, 0x01, 0x7F, .u 4, 1, .rw, .c 0, .mask 0x7FFFFF⟩ -- Consumer heartbeat (Table 17-11 Identity and communication)
  ]

/-- Entries 0x1017. -/
def dict1017 : List Desc := [
  ⟨0x1017, 0x1, 1, 0x00, 0x00, .u 2, 1, .rw, .c 1000, .bw 0 65535⟩ -- Producer heartbeat (Table 17-11 Identity and communication)
  ]

/-- Entries 0x1018. -/
def dict1018 : List Desc := [
  ⟨0x1018, 0x1, 1, 0x01, 0x04, .u 4, 1, .ro, .c 0, .any⟩ -- Vendor-ID, product code, revision, serial (Table 17-11 Identity and communication)
  ]

/-- Entries 0x1400 to 0x140F. -/
def dict1400 : List Desc := [
  ⟨0x1400, 0x1, 16, 0x01, 0x01, .u 4, 1, .rw, .c 0x80000000, .any⟩, -- RPDO communication: COB-ID (CiA 1301 layout (R362))
  ⟨0x1400, 0x1, 16, 0x02, 0x02, .u 1, 1, .rw, .c 0xFE, .any⟩, -- RPDO communication: transmission type (CiA 1301 layout (R362))
  ⟨0x1400, 0x1, 16, 0x05, 0x05, .u 2, 1, .rw, .c 0, .any⟩ -- RPDO communication: event timer (CiA 1301 layout (R362))
  ]

/-- Entries 0x1600 to 0x160F. -/
def dict1600 : List Desc := [
  ⟨0x1600, 0x1, 16, 0x00, 0x00, .u 1, 1, .rw, .c 0, .bw 0 64⟩, -- RPDO mapping: count (CiA 1301 layout (R362))
  ⟨0x1600, 0x1, 16, 0x01, 0x40, .u 4, 1, .rw, .c 0, .own⟩ -- RPDO mapping: entry (CiA 1301 layout (R362))
  ]

/-- Entries 0x1800 to 0x180F. -/
def dict1800 : List Desc := [
  ⟨0x1800, 0x1, 16, 0x01, 0x01, .u 4, 1, .rw, .c 0x80000000, .any⟩, -- TPDO communication: COB-ID (CiA 1301 layout (R362))
  ⟨0x1800, 0x1, 16, 0x02, 0x02, .u 1, 1, .rw, .c 0xFE, .any⟩, -- TPDO communication: transmission type (CiA 1301 layout (R362))
  ⟨0x1800, 0x1, 16, 0x03, 0x03, .u 2, 1, .rw, .c 0, .any⟩, -- TPDO communication: inhibit time (CiA 1301 layout (R362))
  ⟨0x1800, 0x1, 16, 0x05, 0x05, .u 2, 1, .rw, .c 0, .any⟩, -- TPDO communication: event timer (CiA 1301 layout (R362))
  ⟨0x1800, 0x1, 16, 0x06, 0x06, .u 1, 1, .rw, .c 0, .any⟩ -- TPDO communication: SYNC start value (CiA 1301 layout (R362))
  ]

/-- Entries 0x1A00 to 0x1A0F. -/
def dict1A00 : List Desc := [
  ⟨0x1A00, 0x1, 16, 0x00, 0x00, .u 1, 1, .rw, .c 0, .bw 0 64⟩, -- TPDO mapping: count (CiA 1301 layout (R362))
  ⟨0x1A00, 0x1, 16, 0x01, 0x40, .u 4, 1, .rw, .c 0, .own⟩ -- TPDO mapping: entry (CiA 1301 layout (R362))
  ]

/-- Entries 0x1FF0. -/
def dict1FF0 : List Desc := [
  ⟨0x1FF0, 0x1, 1, 0x01, 0x01, .vstr 64, 1, .ro, .c 0, .any⟩, -- Vendor name (Table 17-11 Identity and communication)
  ⟨0x1FF0, 0x1, 1, 0x02, 0x02, .vstr 64, 1, .ro, .c 0, .any⟩, -- Order code (Table 17-11 Identity and communication)
  ⟨0x1FF0, 0x1, 1, 0x03, 0x03, .u 2, 1, .ro, .c 3935, .any⟩, -- Indices (Table 17-11 Identity and communication)
  ⟨0x1FF0, 0x1, 1, 0x04, 0x04, .u 4, 1, .ro, .c 87385, .any⟩, -- Entries (Table 17-11 Identity and communication)
  ⟨0x1FF0, 0x1, 1, 0x05, 0x05, .u 4, 1, .ro, .c 0, .any⟩ -- Dictionary version (Table 17-11 Identity and communication)
  ]

/-- Entries 0x1FF1. -/
def dict1FF1 : List Desc := [
  ⟨0x1FF1, 0x1, 1, 0x01, 0x01, .u 2, 1, .ro, .c 32, .any⟩, -- Batches (Table 18-6 Instance count)
  ⟨0x1FF1, 0x1, 1, 0x02, 0x02, .u 2, 1, .ro, .c 256, .any⟩, -- Channels (Table 18-6 Instance count)
  ⟨0x1FF1, 0x1, 1, 0x03, 0x03, .u 2, 1, .ro, .c 272, .any⟩, -- PWM slices (Table 18-6 Instance count)
  ⟨0x1FF1, 0x1, 1, 0x04, 0x04, .u 2, 2, .ro, .elems [24, 6], .any⟩, -- Direct pin pairs, aux drivers (Table 18-6 Instance count)
  ⟨0x1FF1, 0x1, 1, 0x05, 0x05, .u 2, 2, .ro, .elems [768, 24], .any⟩, -- Nodes, links (Table 18-6 Instance count)
  ⟨0x1FF1, 0x1, 1, 0x06, 0x06, .u 2, 3, .ro, .elems [80, 18, 8], .any⟩, -- Chains, ADC cores, pairs (Table 18-6 Instance count)
  ⟨0x1FF1, 0x1, 1, 0x07, 0x07, .u 2, 1, .ro, .c 64, .any⟩, -- Single-frequency detectors (Table 18-6 Instance count)
  ⟨0x1FF1, 0x1, 1, 0x08, 0x08, .u 2, 2, .ro, .elems [1024, 64], .any⟩, -- Fixed slots, float slots (Table 18-6 Instance count)
  ⟨0x1FF1, 0x1, 1, 0x09, 0x09, .u 2, 3, .ro, .elems [32, 8, 24], .any⟩, -- Queues, groups, lanes (Table 18-6 Instance count)
  ⟨0x1FF1, 0x1, 1, 0x0A, 0x0A, .u 2, 1, .ro, .c 64, .any⟩, -- Profile generators (Table 18-6 Instance count)
  ⟨0x1FF1, 0x1, 1, 0x0B, 0x0B, .u 2, 3, .ro, .elems [16, 16, 128], .any⟩, -- Trigger units, mask tests, capture channels (Table 18-6 Instance count)
  ⟨0x1FF1, 0x1, 1, 0x0C, 0x0C, .u 2, 2, .ro, .elems [4, 10], .any⟩, -- Disconnect circuits, protection stages (Table 18-6 Instance count)
  ⟨0x1FF1, 0x1, 1, 0x0D, 0x0D, .u 2, 1, .ro, .c 8, .any⟩ -- Time pulse outputs (Table 18-6 Instance count)
  ]

/-- Entries 0x2000. -/
def dict2000 : List Desc := [
  ⟨0x2000, 0x1, 1, 0x01, 0x01, .u 1, 1, .ro, .c 0, .any⟩, -- Module state (Table 16-9 Device state and long-operation)
  ⟨0x2000, 0x1, 1, 0x02, 0x02, .u 1, 1, .ro, .c 0, .any⟩, -- Previous state (Table 16-9 Device state and long-operation)
  ⟨0x2000, 0x1, 1, 0x03, 0x03, .u 1, 1, .wo, .c 0, .bw 1 9⟩, -- Command (Table 16-9 Device state and long-operation)
  ⟨0x2000, 0x1, 1, 0x04, 0x04, .u 4, 1, .ro, .c 0, .any⟩, -- Last command result (Table 16-9 Device state and long-operation)
  ⟨0x2000, 0x1, 1, 0x05, 0x05, .u 1, 1, .rw, .c 0, .oneOf [0, 1, 2]⟩, -- Autostart (Table 16-9 Device state and long-operation)
  ⟨0x2000, 0x1, 1, 0x06, 0x06, .u 1, 1, .ro, .c 0, .any⟩, -- Reset kind (Table 16-9 Device state and long-operation)
  ⟨0x2000, 0x1, 1, 0x07, 0x07, .u 4, 1, .ro, .c 0, .any⟩, -- Reset count (Table 16-9 Device state and long-operation)
  ⟨0x2000, 0x1, 1, 0x08, 0x08, .u 1, 1, .ro, .c 0, .any⟩, -- Start attempts (Table 16-9 Device state and long-operation)
  ⟨0x2000, 0x1, 1, 0x09, 0x09, .time64, 1, .ro, .c 0, .any⟩, -- Next retry (Table 16-9 Device state and long-operation)
  ⟨0x2000, 0x1, 1, 0x0A, 0x0A, .u 1, 1, .ro, .c 0, .any⟩, -- Last start failure (Table 16-9 Device state and long-operation)
  ⟨0x2000, 0x1, 1, 0x0B, 0x0B, .u 1, 1, .ro, .c 0, .any⟩, -- Failing arm check (Table 16-9 Device state and long-operation)
  ⟨0x2000, 0x1, 1, 0x0C, 0x0C, .bool, 1, .ro, .c 0, .any⟩ -- Service start (Table 16-9 Device state and long-operation)
  ]

/-- Entries 0x2001. -/
def dict2001 : List Desc := [
  ⟨0x2001, 0x1, 1, 0x01, 0x01, .u 1, 1, .ro, .c 0, .any⟩, -- Long operation (Table 16-9 Device state and long-operation)
  ⟨0x2001, 0x1, 1, 0x02, 0x02, .u 1, 1, .ro, .c 0, .any⟩, -- Progress (Table 16-9 Device state and long-operation)
  ⟨0x2001, 0x1, 1, 0x03, 0x03, .u 4, 1, .ro, .c 0, .any⟩, -- Last result (Table 16-9 Device state and long-operation)
  ⟨0x2001, 0x1, 1, 0x04, 0x04, .time64, 1, .ro, .c 0, .any⟩ -- Started (Table 16-9 Device state and long-operation)
  ]

/-- Entries 0x2100. -/
def dict2100 : List Desc := [
  ⟨0x2100, 0x1, 1, 0x01, 0x08, .u 1, 1, .ro, .c 0, .any⟩ -- Domain n state (Table 16-10 Domain, supply and repair)
  ]

/-- Entries 0x2101. -/
def dict2101 : List Desc := [
  ⟨0x2101, 0x1, 1, 0x01, 0x08, .u 1, 1, .rw, .c 1, .oneOf [0, 1]⟩ -- Domain n switch (Table 16-10 Domain, supply and repair)
  ]

/-- Entries 0x2103. -/
def dict2103 : List Desc := [
  ⟨0x2103, 0x1, 1, 0x01, 0x01, .u 2, 1, .ro, .c 0, .any⟩, -- VIN (Table 16-10 Domain, supply and repair)
  ⟨0x2103, 0x1, 1, 0x02, 0x02, .u 2, 1, .ro, .c 0, .any⟩, -- Input power (Table 16-10 Domain, supply and repair)
  ⟨0x2103, 0x1, 1, 0x03, 0x03, .u 4, 1, .ro, .c 0, .any⟩, -- Dips (Table 16-10 Domain, supply and repair)
  ⟨0x2103, 0x1, 1, 0x04, 0x04, .u 4, 1, .ro, .c 0, .any⟩, -- Supply losses (Table 16-10 Domain, supply and repair)
  ⟨0x2103, 0x1, 1, 0x05, 0x05, .u 4, 1, .ro, .c 0, .any⟩, -- Inrush retries (Table 16-10 Domain, supply and repair)
  ⟨0x2103, 0x1, 1, 0x06, 0x06, .i 2, 1, .ro, .c 0, .any⟩, -- Inlet air temperature (Table 19-9 Thermal subindices of)
  ⟨0x2103, 0x1, 1, 0x07, 0x07, .i 2, 1, .ro, .c 0, .any⟩, -- Hottest junction temperature (Table 19-9 Thermal subindices of)
  ⟨0x2103, 0x1, 1, 0x08, 0x08, .u 1, 1, .ro, .c 0, .any⟩, -- Hottest junction domain (Table 19-9 Thermal subindices of)
  ⟨0x2103, 0x1, 1, 0x09, 0x09, .u 1, 1, .ro, .c 0, .any⟩, -- Thermal status (Table 19-9 Thermal subindices of)
  ⟨0x2103, 0x1, 1, 0x0A, 0x0A, .u 4, 1, .ro, .c 0, .any⟩ -- Overtemperature events (Table 19-9 Thermal subindices of)
  ]

/-- Entries 0x2110. -/
def dict2110 : List Desc := [
  ⟨0x2110, 0x1, 1, 0x01, 0x01, .u 2, 1, .ro, .c 0, .any⟩, -- Store voltage (Table 16-11 Hold-up and proof-check)
  ⟨0x2110, 0x1, 1, 0x02, 0x02, .u 2, 1, .ro, .c 5400, .any⟩, -- Charge voltage V_chg (Table 16-11 Hold-up and proof-check)
  ⟨0x2110, 0x1, 1, 0x03, 0x03, .i 2, 1, .ro, .c 0, .any⟩, -- Store temperature (Table 16-11 Hold-up and proof-check)
  ⟨0x2110, 0x1, 1, 0x04, 0x04, .u 4, 1, .ro, .c 0, .any⟩, -- Capacitance C (Table 16-11 Hold-up and proof-check)
  ⟨0x2110, 0x1, 1, 0x05, 0x05, .u 4, 1, .ro, .c 0, .any⟩, -- ESR (Table 16-11 Hold-up and proof-check)
  ⟨0x2110, 0x1, 1, 0x06, 0x06, .u 4, 1, .ro, .c 0, .any⟩, -- Usable energy E_u (Table 16-11 Hold-up and proof-check)
  ⟨0x2110, 0x1, 1, 0x07, 0x07, .u 1, 1, .ro, .c 0, .any⟩, -- Result (Table 16-11 Hold-up and proof-check)
  ⟨0x2110, 0x1, 1, 0x08, 0x08, .time64, 1, .ro, .c 0, .any⟩, -- Last check (Table 16-11 Hold-up and proof-check)
  ⟨0x2110, 0x1, 1, 0x09, 0x09, .u 4, 1, .ro, .c 0, .any⟩, -- Hold-up services (Table 16-11 Hold-up and proof-check)
  ⟨0x2110, 0x1, 1, 0x0A, 0x0A, .f32, 1, .rw, .c 0x40C00000, .f32 0x40C00000 0x41A00000⟩, -- Proof threshold (Table 16-11 Hold-up and proof-check)
  ⟨0x2110, 0x1, 1, 0x0B, 0x0B, .f32, 1, .rw, .c 0x41200000, .f32 0x40C00000 0x41E00000⟩, -- Service warning (Table 16-11 Hold-up and proof-check)
  ⟨0x2110, 0x1, 1, 0x0C, 0x0C, .u 2, 1, .rw, .c 24, .bw 1 168⟩, -- Proof interval (Table 16-11 Hold-up and proof-check)
  ⟨0x2110, 0x1, 1, 0x0D, 0x0D, .u 4, 1, .ro, .c 0, .any⟩, -- Checks run (Table 16-11 Hold-up and proof-check)
  ⟨0x2110, 0x1, 1, 0x0F, 0x0F, .u 1, 1, .ro, .c 0, .any⟩ -- Status (Table 16-11 Hold-up and proof-check)
  ]

/-- Entries 0x2200. -/
def dict2200 : List Desc := [
  ⟨0x2200, 0x1, 1, 0x01, 0x01, .u 1, 1, .rwc, .c 2, .oneOf [0, 1, 2]⟩, -- Reference select (Table 13-3 Clock)
  ⟨0x2200, 0x1, 1, 0x02, 0x02, .u 1, 1, .ro, .c 0, .any⟩, -- Reference in use (Table 13-3 Clock)
  ⟨0x2200, 0x1, 1, 0x03, 0x03, .u 1, 1, .ro, .c 0, .any⟩, -- Reference status (Table 13-3 Clock)
  ⟨0x2200, 0x1, 1, 0x04, 0x04, .u 1, 1, .ro, .c 0, .any⟩, -- Timebase clock (Table 13-3 Clock)
  ⟨0x2200, 0x1, 1, 0x05, 0x05, .u 1, 1, .ro, .c 0, .any⟩, -- PLL status (Table 13-3 Clock)
  ⟨0x2200, 0x1, 1, 0x06, 0x06, .u 1, 1, .ro, .c 128, .any⟩, -- Integer N (Table 13-3 Clock)
  ⟨0x2200, 0x1, 1, 0x07, 0x07, .u 4, 1, .ro, .c 0, .any⟩, -- Fraction φ (Table 13-3 Clock)
  ⟨0x2200, 0x1, 1, 0x08, 0x08, .i 4, 1, .ro, .c 0, .any⟩, -- Applied rate r (Table 13-3 Clock)
  ⟨0x2200, 0x1, 1, 0x09, 0x09, .i 4, 1, .ro, .c 0, .any⟩, -- Requested rate (Table 13-3 Clock)
  ⟨0x2200, 0x1, 1, 0x0A, 0x0A, .u 1, 1, .ro, .c 0, .any⟩, -- VCO band (Table 13-3 Clock)
  ⟨0x2200, 0x1, 1, 0x0B, 0x0B, .u 4, 1, .ro, .c 0, .any⟩, -- Lock losses (Table 13-3 Clock)
  ⟨0x2200, 0x1, 1, 0x0C, 0x0C, .u 4, 1, .ro, .c 0, .any⟩, -- Reference losses (Table 13-3 Clock)
  ⟨0x2200, 0x1, 1, 0x0D, 0x0D, .u 4, 2, .ro, .c 0, .any⟩, -- Fast hops, full searches (Table 13-3 Clock)
  ⟨0x2200, 0x1, 1, 0x0E, 0x0E, .u 4, 1, .ro, .c 0, .any⟩, -- Last relock time (Table 13-3 Clock)
  ⟨0x2200, 0x1, 1, 0x0F, 0x0F, .u 4, 1, .ro, .c 0, .any⟩, -- Both-lost events (Table 13-3 Clock)
  ⟨0x2200, 0x1, 1, 0x10, 0x10, .u 4, 1, .ro, .c 0, .any⟩, -- Ride window remaining (Table 13-3 Clock)
  ⟨0x2200, 0x1, 1, 0x11, 0x11, .i 4, 1, .ro, .c 0, .any⟩, -- REFCLK deviation (Table 13-3 Clock)
  ⟨0x2200, 0x1, 1, 0x12, 0x12, .i 2, 1, .ro, .c 0, .any⟩, -- Housekeeping clock error (Table 13-3 Clock)
  ⟨0x2200, 0x1, 1, 0x13, 0x13, .u 1, 2, .ro, .c 255, .any⟩, -- Stored band, TCXO and REFCLK (Table 13-3 Clock)
  ⟨0x2200, 0x1, 1, 0x14, 0x14, .bool, 1, .wo, .c 0, .oneOf [1]⟩ -- Clear stored bands (Table 13-3 Clock)
  ]

/-- Entries 0x2300. -/
def dict2300 : List Desc := [
  ⟨0x2300, 0x1, 1, 0x01, 0x01, .time64, 1, .ro, .c 0, .any⟩, -- Time (Table 13-4 Time)
  ⟨0x2300, 0x1, 1, 0x02, 0x02, .u 1, 1, .rwc, .c 1, .oneOf [0, 1, 2]⟩, -- Time source (Table 13-4 Time)
  ⟨0x2300, 0x1, 1, 0x03, 0x03, .u 1, 1, .ro, .c 0, .any⟩, -- Quality (Table 13-4 Time)
  ⟨0x2300, 0x1, 1, 0x04, 0x04, .i 4, 1, .ro, .c 0, .any⟩, -- Offset (Table 13-4 Time)
  ⟨0x2300, 0x1, 1, 0x05, 0x05, .u 2, 1, .rw, .c 50, .bw 1 200⟩, -- Slew limit S (Table 13-4 Time)
  ⟨0x2300, 0x1, 1, 0x06, 0x06, .u 1, 1, .ro, .c 0, .any⟩, -- Steps (Table 13-4 Time)
  ⟨0x2300, 0x1, 1, 0x07, 0x07, .bool, 1, .wo, .c 0, .oneOf [1]⟩, -- Authorise step (Table 13-4 Time)
  ⟨0x2300, 0x1, 1, 0x09, 0x09, .u 1, 1, .ro, .c 0, .any⟩, -- Status (Table 13-4 Time)
  ⟨0x2300, 0x1, 1, 0x0A, 0x0A, .i 2, 1, .ro, .c 0, .any⟩, -- UTC offset (Table 13-4 Time)
  ⟨0x2300, 0x1, 1, 0x0B, 0x0B, .u 4, 1, .rw, .c 100, .bw 20 100000⟩, -- Convergence threshold (Table 13-4 Time)
  ⟨0x2300, 0x1, 1, 0x0C, 0x0C, .u 4, 1, .ro, .c 0, .any⟩, -- Path delay (Table 13-4 Time)
  ⟨0x2300, 0x1, 1, 0x0D, 0x0D, .time64, 1, .ro, .c 0, .any⟩, -- Last step time (Table 13-4 Time)
  ⟨0x2300, 0x1, 1, 0x0E, 0x0E, .i 8, 1, .ro, .c 0, .any⟩, -- Last step size (Table 13-4 Time)
  ⟨0x2300, 0x1, 1, 0x10, 0x10, .u 2, 1, .rw, .c 10, .bw 1 1000⟩, -- Time constant τ (Table 13-4 Time)
  ⟨0x2300, 0x1, 1, 0x11, 0x11, .i 4, 1, .ro, .c 0, .any⟩ -- Rate estimate r_est (Table 13-4 Time)
  ]

/-- Entries 0x2310. -/
def dict2310 : List Desc := [
  ⟨0x2310, 0x1, 1, 0x01, 0x01, .bool, 1, .rwc, .c 1, .oneOf [0, 1]⟩, -- Enable (Table 13-5 PTP)
  ⟨0x2310, 0x1, 1, 0x02, 0x02, .u 1, 1, .rwc, .c 0, .oneOf [0, 1]⟩, -- Profile (Table 13-5 PTP)
  ⟨0x2310, 0x1, 1, 0x03, 0x03, .u 1, 1, .rwc, .c 0, .oneOf [0, 1]⟩, -- Delay mechanism (Table 13-5 PTP)
  ⟨0x2310, 0x1, 1, 0x04, 0x04, .u 1, 1, .rwc, .c 0, .oneOf [0, 1]⟩, -- Transport (Table 13-5 PTP)
  ⟨0x2310, 0x1, 1, 0x05, 0x05, .u 1, 1, .rwc, .c 1, .oneOf [0, 1]⟩, -- PRP pair (Table 13-5 PTP)
  ⟨0x2310, 0x1, 1, 0x06, 0x06, .u 1, 1, .rwc, .c 0, .bw 0 255⟩, -- Domain (Table 13-5 PTP)
  ⟨0x2310, 0x1, 1, 0x07, 0x07, .u 1, 1, .rwc, .c 0, .oneOf [0, 1]⟩, -- Role (Table 13-5 PTP)
  ⟨0x2310, 0x1, 1, 0x08, 0x09, .u 1, 1, .rwc, .c 128, .bw 0 255⟩, -- priority1, priority2 (Table 13-5 PTP)
  ⟨0x2310, 0x1, 1, 0x0A, 0x0A, .u 1, 1, .rwc, .c 248, .bw 0 255⟩, -- clockClass as master (Table 13-5 PTP)
  ⟨0x2310, 0x1, 1, 0x0B, 0x0B, .u 1, 1, .rwc, .c 3, .bw 2 10⟩, -- Announce receipt timeout (Table 13-5 PTP)
  ⟨0x2310, 0x1, 1, 0x0C, 0x0C, .i 1, 3, .rwc, .c 0, .bw (-4) 4⟩, -- Log intervals: Sync, Announce, Pdelay (Table 13-5 PTP)
  ⟨0x2310, 0x1, 1, 0x0D, 0x0E, .u 1, 1, .ro, .c 1, .any⟩, -- Port state A, B (Table 13-5 PTP)
  ⟨0x2310, 0x1, 1, 0x0F, 0x0F, .u 1, 1, .ro, .c 255, .any⟩, -- Active port (Table 13-5 PTP)
  ⟨0x2310, 0x1, 1, 0x10, 0x10, .u 8, 1, .ro, .c 0, .any⟩, -- Grandmaster identity (Table 13-5 PTP)
  ⟨0x2310, 0x1, 1, 0x11, 0x12, .u 4, 1, .ro, .c 0, .any⟩, -- Peer delay A, B (Table 13-5 PTP)
  ⟨0x2310, 0x1, 1, 0x13, 0x13, .u 4, 1, .ro, .c 0, .any⟩, -- Sync messages used (Table 13-5 PTP)
  ⟨0x2310, 0x1, 1, 0x14, 0x14, .u 4, 1, .ro, .c 0, .any⟩, -- Announce timeouts (Table 13-5 PTP)
  ⟨0x2310, 0x1, 1, 0x15, 0x15, .u 4, 1, .ro, .c 0, .any⟩, -- Active port changes (Table 13-5 PTP)
  ⟨0x2310, 0x1, 1, 0x16, 0x16, .u 4, 1, .ro, .c 0, .any⟩ -- Grandmaster time inaccuracy (Table 13-5 PTP)
  ]

/-- Entries 0x2320 to 0x2327. -/
def dict2320 : List Desc := [
  ⟨0x2320, 0x1, 8, 0x01, 0x01, .u 1, 1, .rw, .c 0, .oneOf [0, 1, 2]⟩, -- Mode (Table 13-6 Time pulse output)
  ⟨0x2320, 0x1, 8, 0x02, 0x02, .u 8, 1, .rw, .c 0, .any⟩, -- Start, counts (Table 13-6 Time pulse output)
  ⟨0x2320, 0x1, 8, 0x03, 0x03, .u 1, 1, .rw, .c 0, .bw 0 31⟩, -- Start, fine offset (Table 13-6 Time pulse output)
  ⟨0x2320, 0x1, 8, 0x04, 0x04, .u 8, 1, .rw, .c 12800000000, .own⟩, -- Period p (Table 13-6 Time pulse output)
  ⟨0x2320, 0x1, 8, 0x05, 0x05, .u 4, 1, .rw, .c 128000, .own⟩, -- Width w (Table 13-6 Time pulse output)
  ⟨0x2320, 0x1, 8, 0x06, 0x06, .bool, 1, .rw, .c 0, .oneOf [0, 1]⟩, -- Polarity (Table 13-6 Time pulse output)
  ⟨0x2320, 0x1, 8, 0x07, 0x07, .u 4, 1, .rw, .c 0, .any⟩, -- Firing limit (Table 13-6 Time pulse output)
  ⟨0x2320, 0x1, 8, 0x08, 0x08, .bool, 1, .wo, .c 0, .oneOf [1, 0]⟩, -- Arm (Table 13-6 Time pulse output)
  ⟨0x2320, 0x1, 8, 0x09, 0x09, .u 1, 1, .ro, .c 0, .any⟩, -- Status (Table 13-6 Time pulse output)
  ⟨0x2320, 0x1, 8, 0x0A, 0x0A, .u 4, 1, .ro, .c 0, .any⟩, -- Firings (Table 13-6 Time pulse output)
  ⟨0x2320, 0x1, 8, 0x0B, 0x0B, .time64, 1, .ro, .c 0, .any⟩ -- Next firing (Table 13-6 Time pulse output)
  ]

/-- Entries 0x2400. -/
def dict2400 : List Desc := [
  ⟨0x2400, 0x1, 1, 0x01, 0x01, .u 1, 1, .ro, .c 0, .any⟩, -- Repair status (Table 16-10 Domain, supply and repair)
  ⟨0x2400, 0x1, 1, 0x02, 0x02, .u 1, 1, .ro, .c 4, .any⟩, -- Reserve left: lanes, slices, ADC cores, memory spares (Table 16-10 Domain, supply and repair)
  ⟨0x2400, 0x1, 1, 0x03, 0x03, .u 1, 1, .ro, .c 16, .any⟩, -- Reserve left: lanes, slices, ADC cores, memory spares (Table 16-10 Domain, supply and repair)
  ⟨0x2400, 0x1, 1, 0x04, 0x04, .u 1, 1, .ro, .c 2, .any⟩, -- Reserve left: lanes, slices, ADC cores, memory spares (Table 16-10 Domain, supply and repair)
  ⟨0x2400, 0x1, 1, 0x05, 0x05, .u 1, 1, .ro, .c 100, .any⟩, -- Reserve left: lanes, slices, ADC cores, memory spares (Table 16-10 Domain, supply and repair)
  ⟨0x2400, 0x1, 1, 0x06, 0x06, .u 2, 1, .ro, .c 0, .any⟩, -- Repair-map entries (Table 16-10 Domain, supply and repair)
  ⟨0x2400, 0x1, 1, 0x07, 0x07, .u 4, 1, .ro, .c 0, .any⟩, -- Corrected errors (Table 16-10 Domain, supply and repair)
  ⟨0x2400, 0x1, 1, 0x08, 0x08, .u 4, 1, .ro, .c 0, .any⟩, -- Uncorrectable errors (Table 16-10 Domain, supply and repair)
  ⟨0x2400, 0x1, 1, 0x09, 0x09, .u 2, 1, .rw, .c 0, .bw 0 1023⟩, -- Entry selector (Table 16-10 Domain, supply and repair)
  ⟨0x2400, 0x1, 1, 0x0A, 0x0A, .u 8, 1, .ro, .c 0, .any⟩ -- Selected entry (Table 16-10 Domain, supply and repair)
  ]

/-- Entries 0x2500. -/
def dict2500 : List Desc := [
  ⟨0x2500, 0x1, 1, 0x01, 0x01, .u 1, 1, .ro, .c 0, .any⟩, -- Slot (Table 15-7 Rack)
  ⟨0x2500, 0x1, 1, 0x02, 0x02, .u 1, 1, .ro, .c 0, .any⟩, -- Master slot (Table 15-7 Rack)
  ⟨0x2500, 0x1, 1, 0x03, 0x03, .u 1, 1, .ro, .c 0, .any⟩, -- Rack role (Table 15-7 Rack)
  ⟨0x2500, 0x1, 1, 0x04, 0x04, .bool, 1, .rwc, .c 0, .oneOf [0, 1]⟩, -- Arbiter-only (Table 15-7 Rack)
  ⟨0x2500, 0x1, 1, 0x05, 0x05, .u 2, 1, .ro, .c 0, .any⟩, -- Modules present (Table 15-7 Rack)
  ⟨0x2500, 0x1, 1, 0x06, 0x06, .u 1, 1, .ro, .c 0, .any⟩, -- Status (Table 15-7 Rack)
  ⟨0x2500, 0x1, 1, 0x07, 0x08, .u 4, 1, .ro, .c 0, .any⟩, -- Hop delay up, down (Table 15-7 Rack)
  ⟨0x2500, 0x1, 1, 0x09, 0x09, .i 4, 1, .ro, .c 0, .any⟩, -- Offset to master (Table 15-7 Rack)
  ⟨0x2500, 0x1, 1, 0x0A, 0x0A, .u 4, 1, .ro, .c 0, .any⟩, -- CRC discards (Table 15-7 Rack)
  ⟨0x2500, 0x1, 1, 0x0B, 0x0B, .u 4, 1, .ro, .c 0, .any⟩ -- Master losses (Table 15-7 Rack)
  ]

/-- Entries 0x2501. -/
def dict2501 : List Desc := [
  ⟨0x2501, 0x1, 1, 0x01, 0x01, .u 1, 1, .rw, .c 1, .bw 1 3⟩, -- Operation (Table 15-8 Commit)
  ⟨0x2501, 0x1, 1, 0x02, 0x02, .time64, 1, .rw, .c 0, .any⟩, -- Activation time T (Table 15-8 Commit)
  ⟨0x2501, 0x1, 1, 0x03, 0x03, .u 4, 8, .rw, .c 0, .any⟩, -- Batch mask, slot s (Table 15-8 Commit)
  ⟨0x2501, 0x1, 1, 0x04, 0x04, .f32, 4, .rw, .c 0x00000000, .any⟩, -- Parameters (Table 15-8 Commit)
  ⟨0x2501, 0x1, 1, 0x05, 0x05, .bool, 1, .wo, .c 0, .oneOf [1]⟩, -- Execute (Table 15-8 Commit)
  ⟨0x2501, 0x1, 1, 0x06, 0x06, .u 4, 1, .ro, .c 0, .any⟩, -- Transaction (Table 15-8 Commit)
  ⟨0x2501, 0x1, 1, 0x07, 0x07, .u 1, 1, .ro, .c 0, .any⟩, -- Result (Table 15-8 Commit)
  ⟨0x2501, 0x1, 1, 0x08, 0x08, .u 2, 2, .ro, .c 0, .any⟩, -- Ready, refused slots (Table 15-8 Commit)
  ⟨0x2501, 0x1, 1, 0x09, 0x09, .u 2, 2, .ro, .c 0, .any⟩, -- Applied, straggler slots (Table 15-8 Commit)
  ⟨0x2501, 0x1, 1, 0x0A, 0x0A, .u 4, 4, .ro, .c 0, .any⟩ -- Commits, aborts, re-commits, reverts (Table 15-8 Commit)
  ]

/-- Entries 0x2510. -/
def dict2510 : List Desc := [
  ⟨0x2510, 0x1, 1, 0x01, 0x01, .u 1, 1, .rwc, .c 0, .oneOf [0, 1, 2]⟩, -- Twin role (Table 15-9 Twin)
  ⟨0x2510, 0x1, 1, 0x02, 0x02, .u 1, 1, .rwc, .c 255, .bw 0 7⟩, -- Partner slot (Table 15-9 Twin)
  ⟨0x2510, 0x1, 1, 0x03, 0x03, .u 1, 1, .rwc, .c 0, .oneOf [0, 1, 2]⟩, -- Arbiter (Table 15-9 Twin)
  ⟨0x2510, 0x1, 1, 0x04, 0x04, .u 1, 1, .rwc, .c 255, .bw 0 8⟩, -- Arbiter slot (Table 15-9 Twin)
  ⟨0x2510, 0x1, 1, 0x05, 0x05, .u 1, 1, .rwc, .c 0, .bw 0 3⟩, -- Pair number (Table 15-9 Twin)
  ⟨0x2510, 0x1, 1, 0x06, 0x06, .u 1, 1, .ro, .c 0, .any⟩, -- Pair state (Table 15-9 Twin)
  ⟨0x2510, 0x1, 1, 0x07, 0x07, .u 1, 1, .ro, .c 0, .any⟩, -- Authority (Table 15-9 Twin)
  ⟨0x2510, 0x1, 1, 0x08, 0x08, .u 4, 1, .ro, .c 0, .any⟩, -- Epoch in use (Table 15-9 Twin)
  ⟨0x2510, 0x1, 1, 0x09, 0x09, .u 1, 1, .ro, .c 0, .any⟩, -- Health flags (Table 15-9 Twin)
  ⟨0x2510, 0x1, 1, 0x0A, 0x0A, .u 1, 1, .ro, .c 0, .any⟩, -- Partner health flags (Table 15-9 Twin)
  ⟨0x2510, 0x1, 1, 0x0B, 0x0B, .u 1, 1, .ro, .c 0, .any⟩, -- Twin link state (Table 15-9 Twin)
  ⟨0x2510, 0x1, 1, 0x0C, 0x0C, .u 4, 1, .ro, .c 0, .any⟩, -- Copy load (Table 15-9 Twin)
  ⟨0x2510, 0x1, 1, 0x0D, 0x0D, .u 4, 1, .ro, .c 0, .any⟩, -- Late copies (Table 15-9 Twin)
  ⟨0x2510, 0x1, 1, 0x0E, 0x0E, .u 4, 1, .ro, .c 0, .any⟩, -- Configuration digest (Table 15-9 Twin)
  ⟨0x2510, 0x1, 1, 0x0F, 0x0F, .bool, 1, .wo, .c 0, .oneOf [1]⟩, -- Planned handover (Table 15-9 Twin)
  ⟨0x2510, 0x1, 1, 0x10, 0x11, .u 4, 2, .ro, .c 0, .any⟩, -- Fail-overs, planned handovers (Table 15-9 Twin)
  ⟨0x2510, 0x1, 1, 0x12, 0x12, .time64, 1, .ro, .c 0, .any⟩, -- Last authority change (Table 15-9 Twin)
  ⟨0x2510, 0x1, 1, 0x13, 0x13, .u 4, 1, .ro, .c 0, .any⟩, -- Last overlap (Table 15-9 Twin)
  ⟨0x2510, 0x1, 1, 0x14, 0x14, .bool, 1, .rwc, .c 0, .oneOf [0, 1]⟩, -- Bridge wiring (Table 15-9 Twin)
  ⟨0x2510, 0x1, 1, 0x15, 0x15, .u 1, 1, .ro, .c 0, .any⟩, -- Bridges Closed (Table 15-9 Twin)
  ⟨0x2510, 0x1, 1, 0x16, 0x16, .bool, 1, .wo, .c 0, .oneOf [1]⟩ -- Close bridges (Table 15-9 Twin)
  ]

/-- Entries 0x2520 to 0x2523. -/
def dict2520 : List Desc := [
  ⟨0x2520, 0x1, 4, 0x01, 0x01, .u 1, 2, .ro, .c 255, .any⟩, -- Slots A, B (Table 15-10 Arbiter)
  ⟨0x2520, 0x1, 4, 0x02, 0x02, .u 4, 1, .ro, .c 0, .any⟩, -- Last granted epoch (Table 15-10 Arbiter)
  ⟨0x2520, 0x1, 4, 0x03, 0x03, .u 1, 1, .ro, .c 255, .any⟩, -- Active slot (Table 15-10 Arbiter)
  ⟨0x2520, 0x1, 4, 0x04, 0x04, .u 4, 2, .ro, .c 0, .any⟩, -- Heartbeats missed, A and B (Table 15-10 Arbiter)
  ⟨0x2520, 0x1, 4, 0x05, 0x05, .u 4, 1, .ro, .c 0, .any⟩, -- Failure declarations (Table 15-10 Arbiter)
  ⟨0x2520, 0x1, 4, 0x06, 0x06, .u 4, 1, .ro, .c 0, .any⟩, -- Grants refused (Table 15-10 Arbiter)
  ⟨0x2520, 0x1, 4, 0x07, 0x07, .time64, 1, .ro, .c 0, .any⟩ -- Last declaration (Table 15-10 Arbiter)
  ]

/-- Entries 0x2600. -/
def dict2600 : List Desc := [
  ⟨0x2600, 0x1, 1, 0x01, 0x01, .u 1, 1, .ro, .c 0, .any⟩, -- Lock status (Table 17-12 Security)
  ⟨0x2600, 0x1, 1, 0x02, 0x02, .bool, 1, .wo, .c 0, .oneOf [1]⟩, -- Lock hardware limits (Table 17-12 Security)
  ⟨0x2600, 0x1, 1, 0x03, 0x03, .bool, 1, .wo, .c 0, .oneOf [1]⟩ -- Lock security configuration (Table 17-12 Security)
  ]

/-- Entries 0x2601. -/
def dict2601 : List Desc := [
  ⟨0x2601, 0x1, 1, 0x01, 0x04, .u 1, 32, .wo, .c 0, .any⟩, -- Role key, Observer to Safety (Table 17-12 Security)
  ⟨0x2601, 0x1, 1, 0x05, 0x05, .u 1, 1, .ro, .c 0, .any⟩ -- Keys set (Table 17-12 Security)
  ]

/-- Entries 0x2610. -/
def dict2610 : List Desc := [
  ⟨0x2610, 0x1, 1, 0x01, 0x01, .u 2, 1, .rwl, .c 60, .bw 10 3600⟩, -- Session idle timeout (Table 17-12 Security)
  ⟨0x2610, 0x1, 1, 0x02, 0x02, .u 1, 1, .rwl, .c 8, .bw 1 8⟩, -- Maximum sessions (Table 17-12 Security)
  ⟨0x2610, 0x1, 1, 0x03, 0x03, .u 1, 1, .rwl, .c 3, .bw 1 10⟩, -- Failed proofs to block (Table 17-12 Security)
  ⟨0x2610, 0x1, 1, 0x04, 0x04, .u 2, 1, .rwl, .c 60, .bw 10 3600⟩, -- Block time (Table 17-12 Security)
  ⟨0x2610, 0x1, 1, 0x05, 0x05, .u 1, 1, .ro, .c 0, .any⟩, -- Sessions open (Table 17-12 Security)
  ⟨0x2610, 0x1, 1, 0x06, 0x06, .u 4, 1, .ro, .c 0, .any⟩, -- Failed proofs (Table 17-12 Security)
  ⟨0x2610, 0x1, 1, 0x07, 0x07, .u 4, 1, .ro, .c 0, .any⟩, -- Datagrams discarded (Table 17-12 Security)
  ⟨0x2610, 0x1, 1, 0x08, 0x08, .u 4, 1, .ro, .c 0, .any⟩, -- Sequence discards (Table 17-12 Security)
  ⟨0x2610, 0x1, 1, 0x09, 0x09, .u 1, 1, .rwl, .c 10, .bw 5 60⟩ -- Presence window (Table 17-12 Security)
  ]

/-- Entries 0x2620. -/
def dict2620 : List Desc := [
  ⟨0x2620, 0x1, 1, 0x01, 0x01, .u 1, 1, .ro, .c 0, .any⟩, -- Running image (Table 17-12 Security)
  ⟨0x2620, 0x1, 1, 0x02, 0x02, .u 1, 1, .ro, .c 0, .any⟩, -- Image state (Table 17-12 Security)
  ⟨0x2620, 0x1, 1, 0x03, 0x03, .bool, 1, .wo, .c 0, .oneOf [1]⟩, -- Confirm (Table 17-12 Security)
  ⟨0x2620, 0x1, 1, 0x04, 0x04, .u 4, 2, .ro, .c 0, .any⟩, -- Firmware versions A, B (Table 17-12 Security)
  ⟨0x2620, 0x1, 1, 0x05, 0x05, .u 4, 1, .ro, .c 0, .any⟩, -- Minimum security version (Table 17-12 Security)
  ⟨0x2620, 0x1, 1, 0x06, 0x06, .u 4, 1, .ro, .c 0, .any⟩ -- Last update result (Table 17-12 Security)
  ]

/-- Entries 0x2700 to 0x2701. -/
def dict2700 : List Desc := [
  ⟨0x2700, 0x1, 2, 0x01, 0x01, .u 4, 1, .rwc, .c 0, .any⟩, -- IPv4 address (Table 17-13 Ethernet and dictionary protocol)
  ⟨0x2700, 0x1, 2, 0x02, 0x02, .u 4, 1, .rwc, .c 4294967040, .any⟩, -- Subnet mask (Table 17-13 Ethernet and dictionary protocol)
  ⟨0x2700, 0x1, 2, 0x03, 0x03, .u 4, 1, .rwc, .c 0, .any⟩, -- Default gateway (Table 17-13 Ethernet and dictionary protocol)
  ⟨0x2700, 0x1, 2, 0x04, 0x04, .u 8, 1, .ro, .c 0, .any⟩, -- MAC address (Table 17-13 Ethernet and dictionary protocol)
  ⟨0x2700, 0x1, 2, 0x05, 0x05, .u 1, 1, .ro, .c 0, .any⟩, -- Status (Table 17-13 Ethernet and dictionary protocol)
  ⟨0x2700, 0x1, 2, 0x06, 0x06, .u 4, 1, .ro, .c 0, .any⟩ -- Duplicates discarded (Table 17-13 Ethernet and dictionary protocol)
  ]

/-- Entries 0x2708 to 0x270B. -/
def dict2708 : List Desc := [
  ⟨0x2708, 0x1, 4, 0x01, 0x01, .u 1, 1, .ro, .c 0, .any⟩, -- Link (Table 17-13 Ethernet and dictionary protocol)
  ⟨0x2708, 0x1, 4, 0x02, 0x04, .u 4, 1, .ro, .c 0, .any⟩ -- Frames received, sent, CRC errors (Table 17-13 Ethernet and dictionary protocol)
  ]

/-- Entries 0x2710 to 0x2711. -/
def dict2710 : List Desc := [
  ⟨0x2710, 0x1, 2, 0x01, 0x01, .bool, 1, .rwc, .c 0, .oneOf [0, 1]⟩, -- Enable (Table 17-14 CAN port)
  ⟨0x2710, 0x1, 2, 0x02, 0x02, .u 1, 1, .rwc, .lin 1 1, .bw 1 127⟩, -- Node-ID (Table 17-14 CAN port)
  ⟨0x2710, 0x1, 2, 0x03, 0x03, .u 2, 1, .rwc, .c 500, .oneOf [125, 250, 500, 1000]⟩, -- Nominal bit rate (Table 17-14 CAN port)
  ⟨0x2710, 0x1, 2, 0x04, 0x04, .u 2, 1, .rwc, .c 2000, .oneOf [1000, 2000, 4000, 5000]⟩, -- Data bit rate (Table 17-14 CAN port)
  ⟨0x2710, 0x1, 2, 0x05, 0x05, .bool, 1, .rwc, .c 0, .oneOf [0, 1]⟩, -- Termination (Table 17-14 CAN port)
  ⟨0x2710, 0x1, 2, 0x06, 0x06, .u 1, 1, .rwl, .c 1, .oneOf [1, 2]⟩, -- Access role (Table 17-14 CAN port)
  ⟨0x2710, 0x1, 2, 0x07, 0x07, .bool, 1, .rwl, .c 0, .oneOf [0, 1]⟩, -- NMT obeyed (Table 17-14 CAN port)
  ⟨0x2710, 0x1, 2, 0x08, 0x08, .u 1, 1, .ro, .c 0, .any⟩, -- Status (Table 17-14 CAN port)
  ⟨0x2710, 0x1, 2, 0x09, 0x09, .u 4, 1, .ro, .c 0, .any⟩, -- Bus-off events (Table 17-14 CAN port)
  ⟨0x2710, 0x1, 2, 0x0A, 0x0A, .u 2, 1, .rw, .c 8191, .any⟩, -- EMCY class mask (Table 17-14 CAN port)
  ⟨0x2710, 0x1, 2, 0x0B, 0x0B, .u 4, 1, .ro, .c 0, .any⟩ -- NMT commands ignored (Table 17-14 CAN port)
  ]

/-- Entries 0x2720. -/
def dict2720 : List Desc := [
  ⟨0x2720, 0x1, 1, 0x01, 0x01, .u 2, 1, .rwc, .c 39250, .own⟩, -- Dictionary UDP port (Table 17-13 Ethernet and dictionary protocol)
  ⟨0x2720, 0x1, 1, 0x02, 0x02, .u 1, 1, .rwc, .c 1, .mask 3⟩, -- Dictionary pairs (Table 17-13 Ethernet and dictionary protocol)
  ⟨0x2720, 0x1, 1, 0x03, 0x03, .u 2, 1, .rwc, .c 2000, .bw 100 10000⟩, -- Rate limit (Table 17-13 Ethernet and dictionary protocol)
  ⟨0x2720, 0x1, 1, 0x04, 0x04, .u 4, 1, .ro, .c 0, .any⟩ -- Dropped for rate (Table 17-13 Ethernet and dictionary protocol)
  ]

/-- Entries 0x2740 to 0x2747. -/
def dict2740 : List Desc := [
  ⟨0x2740, 0x1, 8, 0x01, 0x01, .bool, 1, .rwc, .c 0, .oneOf [0, 1]⟩, -- Enable (Table 17-15 GOOSE publication)
  ⟨0x2740, 0x1, 8, 0x02, 0x02, .u 1, 1, .rwc, .c 1, .oneOf [0, 1]⟩, -- PRP pair (Table 17-15 GOOSE publication)
  ⟨0x2740, 0x1, 8, 0x03, 0x03, .u 8, 1, .rwc, .lin 1 0x010CCD010000, .mask 0xFFFFFFFFFFFF⟩, -- Destination MAC (Table 17-15 GOOSE publication)
  ⟨0x2740, 0x1, 8, 0x04, 0x04, .u 2, 1, .rwc, .c 0, .bw 0 16383⟩, -- APPID (Table 17-15 GOOSE publication)
  ⟨0x2740, 0x1, 8, 0x05, 0x05, .u 2, 1, .rwc, .c 32768, .mask 0xEFFF⟩, -- VLAN tag (Table 17-15 GOOSE publication)
  ⟨0x2740, 0x1, 8, 0x06, 0x08, .vstr 65, 1, .rwc, .c 0, .any⟩, -- gocbRef, datSet, goID (Table 17-15 GOOSE publication)
  ⟨0x2740, 0x1, 8, 0x09, 0x09, .u 4, 1, .ro, .c 1, .any⟩, -- confRev (Table 17-15 GOOSE publication)
  ⟨0x2740, 0x1, 8, 0x0A, 0x0A, .u 2, 1, .rwc, .c 1000, .bw 100 60000⟩, -- Maximum interval (Table 17-15 GOOSE publication)
  ⟨0x2740, 0x1, 8, 0x0B, 0x0B, .u 2, 1, .rwc, .c 2, .bw 1 100⟩, -- Minimum interval (Table 17-15 GOOSE publication)
  ⟨0x2740, 0x1, 8, 0x0C, 0x0C, .u 4, 32, .rwc, .c 0, .any⟩, -- Members (Table 17-15 GOOSE publication)
  ⟨0x2740, 0x1, 8, 0x0D, 0x0D, .u 1, 1, .rwc, .c 0, .bw 0 32⟩, -- Member count (Table 17-15 GOOSE publication)
  ⟨0x2740, 0x1, 8, 0x0E, 0x0E, .u 4, 1, .ro, .c 0, .any⟩, -- stNum (Table 17-15 GOOSE publication)
  ⟨0x2740, 0x1, 8, 0x0F, 0x0F, .u 4, 1, .ro, .c 0, .any⟩ -- Messages sent (Table 17-15 GOOSE publication)
  ]

/-- Entries 0x2750 to 0x275F. -/
def dict2750 : List Desc := [
  ⟨0x2750, 0x1, 16, 0x01, 0x01, .bool, 1, .rwc, .c 0, .oneOf [0, 1]⟩, -- Enable (Table 17-16 GOOSE subscription)
  ⟨0x2750, 0x1, 16, 0x02, 0x02, .u 1, 1, .rwc, .c 1, .oneOf [0, 1]⟩, -- PRP pair (Table 17-16 GOOSE subscription)
  ⟨0x2750, 0x1, 16, 0x03, 0x03, .u 2, 1, .rwc, .c 0, .bw 0 16383⟩, -- APPID (Table 17-16 GOOSE subscription)
  ⟨0x2750, 0x1, 16, 0x04, 0x05, .vstr 65, 1, .rwc, .c 0, .any⟩, -- gocbRef, datSet (Table 17-16 GOOSE subscription)
  ⟨0x2750, 0x1, 16, 0x06, 0x06, .u 4, 1, .rwc, .c 1, .any⟩, -- confRev expected (Table 17-16 GOOSE subscription)
  ⟨0x2750, 0x1, 16, 0x07, 0x07, .u 8, 64, .rwc, .c 0, .any⟩, -- Entries (Table 17-16 GOOSE subscription)
  ⟨0x2750, 0x1, 16, 0x08, 0x08, .u 1, 1, .rwc, .c 0, .bw 0 64⟩, -- Entry count (Table 17-16 GOOSE subscription)
  ⟨0x2750, 0x1, 16, 0x09, 0x09, .u 1, 1, .ro, .c 0, .any⟩, -- Status (Table 17-16 GOOSE subscription)
  ⟨0x2750, 0x1, 16, 0x0A, 0x0A, .u 4, 1, .ro, .c 0, .any⟩, -- Messages applied (Table 17-16 GOOSE subscription)
  ⟨0x2750, 0x1, 16, 0x0B, 0x0B, .u 4, 1, .ro, .c 0, .any⟩, -- Messages not applied (Table 17-16 GOOSE subscription)
  ⟨0x2750, 0x1, 16, 0x0C, 0x0C, .u 4, 1, .ro, .c 0, .any⟩ -- Expiries (Table 17-16 GOOSE subscription)
  ]

/-- Entries 0x3000 to 0x30FF. -/
def dict3000 : List Desc := [
  ⟨0x3000, 0x1, 256, 0x01, 0x01, .u 1, 1, .ro, .c 255, .any⟩, -- Batch (Table 09-5 Channel)
  ⟨0x3000, 0x1, 256, 0x02, 0x02, .u 1, 1, .rwc, .c 0, .bw 0 3⟩, -- Route class (Table 09-5 Channel)
  ⟨0x3000, 0x1, 256, 0x03, 0x03, .u 2, 1, .rwc, .c 65535, .any⟩, -- Route target (Table 09-5 Channel)
  ⟨0x3000, 0x1, 256, 0x04, 0x04, .u 1, 1, .rwc, .c 0, .bw 0 31⟩, -- Node slot (Table 09-5 Channel)
  ⟨0x3000, 0x1, 256, 0x05, 0x05, .u 4, 1, .rwc, .c 0, .own⟩, -- Phase offset (Table 09-5 Channel)
  ⟨0x3000, 0x1, 256, 0x06, 0x06, .u 2, 1, .rwc, .c 1280, .bw 0 65535⟩, -- Dead time t_d (Table 09-5 Channel)
  ⟨0x3000, 0x1, 256, 0x07, 0x07, .u 4, 1, .rwc, .c 1920, .any⟩, -- Minimum pulse T_m (Table 09-5 Channel)
  ⟨0x3000, 0x1, 256, 0x08, 0x08, .u 1, 1, .rwc, .c 1, .oneOf [0, 1, 2]⟩, -- Bootstrap policy (Table 09-5 Channel)
  ⟨0x3000, 0x1, 256, 0x09, 0x09, .u 4, 1, .rwc, .c 12800, .any⟩, -- Refresh width t_r (Table 09-5 Channel)
  ⟨0x3000, 0x1, 256, 0x0A, 0x0A, .u 1, 1, .rwc, .c 0, .mask 3⟩, -- Polarity (Table 09-5 Channel)
  ⟨0x3000, 0x1, 256, 0x0B, 0x0B, .q15, 1, .ro, .c 0, .any⟩, -- Shadow duty (Table 09-5 Channel)
  ⟨0x3000, 0x1, 256, 0x0C, 0x0C, .u 4, 1, .ro, .c 0, .any⟩, -- Active A (Table 09-5 Channel)
  ⟨0x3000, 0x1, 256, 0x0D, 0x0D, .u 4, 1, .ro, .c 0, .any⟩, -- Active B (Table 09-5 Channel)
  ⟨0x3000, 0x1, 256, 0x0E, 0x0E, .i 4, 1, .ro, .c 0, .any⟩, -- Carry (Table 09-5 Channel)
  ⟨0x3000, 0x1, 256, 0x0F, 0x0F, .u 2, 1, .ro, .c 0, .any⟩, -- Status (Table 09-5 Channel)
  ⟨0x3000, 0x1, 256, 0x10, 0x10, .u 4, 1, .ro, .c 0, .any⟩, -- Suppressions (Table 09-5 Channel)
  ⟨0x3000, 0x1, 256, 0x11, 0x11, .u 4, 1, .ro, .c 0, .any⟩, -- Refresh limits (Table 09-5 Channel)
  ⟨0x3000, 0x1, 256, 0x12, 0x12, .u 4, 1, .ro, .c 0, .any⟩, -- Bootstrap undervoltages (Table 09-5 Channel)
  ⟨0x3000, 0x1, 256, 0x13, 0x13, .u 2, 1, .ro, .lin 1 0, .any⟩, -- Serving slice (Table 09-5 Channel)
  ⟨0x3000, 0x1, 256, 0x14, 0x14, .q15, 1, .rw, .c 0, .bw 0 32767⟩, -- Test duty (Table 09-5 Channel)
  ⟨0x3000, 0x1, 256, 0x15, 0x15, .bool, 1, .rwc, .c 0, .oneOf [0, 1]⟩, -- Test enable (Table 09-5 Channel)
  ⟨0x3000, 0x1, 256, 0x16, 0x16, .u 2, 1, .rw, .c 10, .bw 1 1000⟩ -- Recharge hold (Table 09-5 Channel)
  ]

/-- Entries 0x3100 to 0x3105. -/
def dict3100 : List Desc := [
  ⟨0x3100, 0x1, 6, 0x01, 0x01, .u 1, 1, .ro, .c 255, .any⟩, -- Channel served (Table 11-4 Driver)
  ⟨0x3100, 0x1, 6, 0x02, 0x02, .u 1, 1, .rwc, .c 0, .bw 0 3⟩, -- Load reference (Table 11-4 Driver)
  ⟨0x3100, 0x1, 6, 0x03, 0x03, .u 1, 1, .rwc, .c 255, .bwOr 0 5 255⟩, -- Partner driver (Table 11-4 Driver)
  ⟨0x3100, 0x1, 6, 0x04, 0x04, .u 2, 1, .rwc, .c 2000, .step 500 10000 100⟩, -- Short threshold V_th (Table 11-4 Driver)
  ⟨0x3100, 0x1, 6, 0x05, 0x05, .u 2, 1, .rwc, .c 1000, .step 500 4000 50⟩, -- Blanking t_bl (Table 11-4 Driver)
  ⟨0x3100, 0x1, 6, 0x06, 0x06, .u 2, 1, .rwc, .c 200, .step 0 1000 50⟩, -- Filter t_f (Table 11-4 Driver)
  ⟨0x3100, 0x1, 6, 0x07, 0x07, .u 2, 1, .ro, .c 0, .any⟩, -- Bootstrap voltage (Table 11-4 Driver)
  ⟨0x3100, 0x1, 6, 0x08, 0x08, .u 2, 1, .ro, .c 0, .any⟩, -- Status (Table 11-4 Driver)
  ⟨0x3100, 0x1, 6, 0x09, 0x09, .u 4, 1, .ro, .c 0, .any⟩, -- Shorts (Table 11-4 Driver)
  ⟨0x3100, 0x1, 6, 0x0A, 0x0A, .bool, 1, .wo, .c 0, .oneOf [1]⟩, -- Clear faults (Table 11-4 Driver)
  ⟨0x3100, 0x1, 6, 0x0B, 0x0B, .u 1, 1, .ro, .c 0, .any⟩, -- Diagnostic result (Table 11-4 Driver)
  ⟨0x3100, 0x1, 6, 0x0C, 0x0C, .u 2, 1, .ro, .c 0, .any⟩, -- Pull-down reading (Table 11-4 Driver)
  ⟨0x3100, 0x1, 6, 0x0D, 0x0D, .u 2, 1, .ro, .c 0, .any⟩, -- Pull-up reading (Table 11-4 Driver)
  ⟨0x3100, 0x1, 6, 0x0E, 0x0E, .bool, 1, .wo, .c 0, .oneOf [1]⟩, -- Run diagnostic (Table 11-4 Driver)
  ⟨0x3100, 0x1, 6, 0x0F, 0x0F, .time64, 1, .ro, .c 0, .any⟩ -- Last short time (Table 11-4 Driver)
  ]

/-- Entries 0x3106. -/
def dict3106 : List Desc := [
  ⟨0x3106, 0x1, 1, 0x01, 0x01, .u 2, 1, .ro, .c 0, .any⟩, -- VGATE (Table 11-5 Module-wide auxiliary and direct-output)
  ⟨0x3106, 0x1, 1, 0x02, 0x02, .u 2, 1, .ro, .c 0, .any⟩, -- VBRIDGE (Table 11-5 Module-wide auxiliary and direct-output)
  ⟨0x3106, 0x1, 1, 0x03, 0x03, .u 1, 1, .ro, .c 0, .any⟩, -- Supply status (Table 11-5 Module-wide auxiliary and direct-output)
  ⟨0x3106, 0x1, 1, 0x04, 0x04, .u 2, 1, .rw, .c 5, .bw 1 50⟩, -- Settle time (Table 11-5 Module-wide auxiliary and direct-output)
  ⟨0x3106, 0x1, 1, 0x05, 0x05, .bool, 1, .rw, .c 1, .oneOf [0, 1]⟩, -- Pre-start diagnostics (Table 11-5 Module-wide auxiliary and direct-output)
  ⟨0x3106, 0x1, 1, 0x06, 0x06, .u 4, 1, .ro, .c 0, .any⟩, -- VGATE faults (Table 11-5 Module-wide auxiliary and direct-output)
  ⟨0x3106, 0x1, 1, 0x07, 0x07, .u 4, 1, .ro, .c 0, .any⟩ -- VBRIDGE overvoltages (Table 11-5 Module-wide auxiliary and direct-output)
  ]

/-- Entries 0x3107. -/
def dict3107 : List Desc := [
  ⟨0x3107, 0x1, 1, 0x00, 0x00, .u 4, 1, .ro, .c 0, .any⟩ -- Reads 0 (R237)
  ]

/-- Entries 0x3108. -/
def dict3108 : List Desc := [
  ⟨0x3108, 0x1, 1, 0x01, 0x01, .u 8, 1, .ro, .c 0, .any⟩, -- Direct pin levels (Table 11-5 Module-wide auxiliary and direct-output)
  ⟨0x3108, 0x1, 1, 0x02, 0x02, .bool, 1, .ro, .c 1, .any⟩ -- Direct pins high-impedance (Table 11-5 Module-wide auxiliary and direct-output)
  ]

/-- Entries 0x3109 to 0x310F. -/
def dict3109 : List Desc := [
  ⟨0x3109, 0x1, 7, 0x00, 0x00, .u 4, 1, .ro, .c 0, .any⟩ -- Reads 0 (R237)
  ]

/-- Entries 0x3200. -/
def dict3200 : List Desc := [
  ⟨0x3200, 0x1, 1, 0x01, 0x01, .u 2, 1, .rwl, .c 1280, .bw 0 65535⟩, -- Minimum dead time floor (Table 09-7 PWM global and slice)
  ⟨0x3200, 0x1, 1, 0x02, 0x02, .u 4, 1, .rwl, .c 1920, .any⟩, -- Minimum pulse floor (Table 09-7 PWM global and slice)
  ⟨0x3200, 0x1, 1, 0x03, 0x03, .u 1, 1, .ro, .c 0, .any⟩, -- Clock mode (Table 09-7 PWM global and slice)
  ⟨0x3200, 0x1, 1, 0x04, 0x04, .u 4, 1, .ro, .c 0, .any⟩, -- Calibrations (Table 09-7 PWM global and slice)
  ⟨0x3200, 0x1, 1, 0x05, 0x05, .u 4, 1, .ro, .c 0, .any⟩, -- Calibration failures (Table 09-7 PWM global and slice)
  ⟨0x3200, 0x1, 1, 0x06, 0x06, .u 1, 1, .ro, .c 0, .any⟩, -- Lowest element count (Table 09-7 PWM global and slice)
  ⟨0x3200, 0x1, 1, 0x07, 0x07, .u 4, 1, .ro, .c 0, .any⟩, -- Clock-mode switches (Table 09-7 PWM global and slice)
  ⟨0x3200, 0x1, 1, 0x08, 0x08, .bool, 1, .rw, .c 1, .oneOf [0, 1]⟩, -- Background slice test (Table 09-7 PWM global and slice)
  ⟨0x3200, 0x1, 1, 0x09, 0x09, .u 4, 1, .rw, .c 100, .bw 10 10000⟩, -- Slice rotation step (Table 09-7 PWM global and slice)
  ⟨0x3200, 0x1, 1, 0x0A, 0x0A, .u 1, 1, .ro, .c 16, .any⟩, -- Spare slices left (Table 09-7 PWM global and slice)
  ⟨0x3200, 0x1, 1, 0x0B, 0x0B, .u 4, 1, .rwc, .c 0, .any⟩, -- PWM_BLOCK_N[0] mask (Table 09-7 PWM global and slice)
  ⟨0x3200, 0x1, 1, 0x0C, 0x0C, .u 4, 1, .rwc, .c 0, .any⟩, -- PWM_BLOCK_N[1] mask (Table 09-7 PWM global and slice)
  ⟨0x3200, 0x1, 1, 0x0D, 0x0D, .u 1, 1, .ro, .c 0, .any⟩, -- Block input status (Table 09-7 PWM global and slice)
  ⟨0x3200, 0x1, 1, 0x0E, 0x0E, .u 4, 1, .ro, .c 0, .any⟩ -- Block input events (Table 09-7 PWM global and slice)
  ]

/-- Entries 0x3210 to 0x3220. -/
def dict3210 : List Desc := [
  ⟨0x3210, 0x1, 17, 0x01, 0x10, .u 1, 1, .ro, .spare, .any⟩ -- Slice state (Table 09-7 PWM global and slice)
  ]

/-- Entries 0x3230 to 0x3240. -/
def dict3230 : List Desc := [
  ⟨0x3230, 0x1, 17, 0x01, 0x10, .u 1, 1, .ro, .c 64, .any⟩ -- Elements per count (Table 09-7 PWM global and slice)
  ]

/-- Entries 0x3400 to 0x36FF. -/
def dict3400 : List Desc := [
  ⟨0x3400, 0x1, 768, 0x01, 0x01, .u 1, 1, .rwc, .md 24, .bw 0 23⟩, -- Link (Table 10-11 Node)
  ⟨0x3400, 0x1, 768, 0x02, 0x02, .u 1, 1, .rwc, .dv 24, .bw 0 31⟩, -- Position (Table 10-11 Node)
  ⟨0x3400, 0x1, 768, 0x03, 0x03, .u 2, 1, .rwc, .c 0, .any⟩, -- Expected node type (Table 10-11 Node)
  ⟨0x3400, 0x1, 768, 0x04, 0x04, .u 1, 1, .ro, .c 255, .any⟩, -- Batch (Table 10-11 Node)
  ⟨0x3400, 0x1, 768, 0x05, 0x05, .u 1, 1, .ro, .c 0, .any⟩, -- State (Table 10-11 Node)
  ⟨0x3400, 0x1, 768, 0x06, 0x06, .u 2, 1, .ro, .c 0, .any⟩, -- Node type (Table 10-11 Node)
  ⟨0x3400, 0x1, 768, 0x07, 0x07, .u 1, 1, .ro, .c 0, .any⟩, -- Slots (Table 10-11 Node)
  ⟨0x3400, 0x1, 768, 0x08, 0x08, .u 4, 1, .ro, .c 0, .any⟩, -- Bootstrap mask (Table 10-11 Node)
  ⟨0x3400, 0x1, 768, 0x09, 0x09, .f32, 1, .ro, .c 0x00000000, .any⟩, -- Cell voltage full scale (Table 10-11 Node)
  ⟨0x3400, 0x1, 768, 0x0A, 0x0A, .f32, 1, .ro, .c 0x00000000, .any⟩, -- Current full scale (Table 10-11 Node)
  ⟨0x3400, 0x1, 768, 0x0B, 0x0B, .f32, 1, .ro, .c 0x00000000, .any⟩, -- Temperature full scale (Table 10-11 Node)
  ⟨0x3400, 0x1, 768, 0x0C, 0x0C, .u 4, 1, .ro, .c 0, .any⟩, -- One-way delay d_p (Table 10-11 Node)
  ⟨0x3400, 0x1, 768, 0x0D, 0x0D, .u 4, 1, .ro, .c 0, .any⟩, -- Hop delay (Table 10-11 Node)
  ⟨0x3400, 0x1, 768, 0x0E, 0x0E, .q15, 1, .ro, .c 0, .any⟩, -- Cell voltage (Table 10-11 Node)
  ⟨0x3400, 0x1, 768, 0x0F, 0x0F, .q15, 1, .ro, .c 0, .any⟩, -- Current (Table 10-11 Node)
  ⟨0x3400, 0x1, 768, 0x10, 0x10, .q15, 1, .ro, .c 0, .any⟩, -- Temperature (Table 10-11 Node)
  ⟨0x3400, 0x1, 768, 0x11, 0x11, .u 2, 1, .ro, .c 0, .any⟩, -- Status (Table 10-11 Node)
  ⟨0x3400, 0x1, 768, 0x12, 0x12, .u 4, 1, .ro, .c 0, .any⟩, -- Faulted legs (Table 10-11 Node)
  ⟨0x3400, 0x1, 768, 0x13, 0x13, .u 4, 1, .ro, .c 0, .any⟩, -- Highest epoch seen (Table 10-11 Node)
  ⟨0x3400, 0x1, 768, 0x14, 0x14, .u 4, 1, .ro, .c 0, .any⟩, -- Missed periods (Table 10-11 Node)
  ⟨0x3400, 0x1, 768, 0x15, 0x15, .bool, 1, .wo, .c 0, .oneOf [1]⟩, -- Clear faults (Table 10-11 Node)
  ⟨0x3400, 0x1, 768, 0x16, 0x16, .u 1, 1, .rw, .c 11, .mask 0x0B⟩, -- Block-on-fault mask (Table 10-11 Node)
  ⟨0x3400, 0x1, 768, 0x17, 0x17, .u 4, 1, .ro, .c 0, .any⟩, -- Fault events (Table 10-11 Node)
  ⟨0x3400, 0x1, 768, 0x18, 0x18, .u 4, 1, .ro, .c 0, .any⟩, -- Late edges (Table 10-11 Node)
  ⟨0x3400, 0x1, 768, 0x19, 0x19, .u 1, 1, .rwc, .c 3, .bw 2 64⟩, -- Watchdog periods W (Table 10-11 Node)
  ⟨0x3400, 0x1, 768, 0x1A, 0x1A, .u 4, 1, .ro, .c 0, .any⟩, -- Telemetry losses (Table 10-11 Node)
  ⟨0x3400, 0x1, 768, 0x1C, 0x1C, .u 2, 1, .rw, .c 0, .bw 0 65532⟩, -- Register address (Table 10-11 Node)
  ⟨0x3400, 0x1, 768, 0x1D, 0x1D, .u 4, 1, .rw, .c 0, .any⟩ -- Register data (Table 10-11 Node)
  ]

/-- Entries 0x3700 to 0x3717. -/
def dict3700 : List Desc := [
  ⟨0x3700, 0x1, 24, 0x01, 0x01, .bool, 1, .rwc, .c 1, .oneOf [0, 1]⟩, -- Enable (Table 10-12 Link)
  ⟨0x3700, 0x1, 24, 0x02, 0x02, .u 1, 1, .rwc, .c 0, .oneOf [0, 1]⟩, -- Topology (Table 10-12 Link)
  ⟨0x3700, 0x1, 24, 0x03, 0x03, .u 1, 1, .ro, .c 0, .any⟩, -- State (Table 10-12 Link)
  ⟨0x3700, 0x1, 24, 0x04, 0x04, .u 1, 1, .ro, .c 0, .any⟩, -- Nodes found N (Table 10-12 Link)
  ⟨0x3700, 0x1, 24, 0x05, 0x05, .u 1, 1, .ro, .c 0, .any⟩, -- Nodes placed (Table 10-12 Link)
  ⟨0x3700, 0x1, 24, 0x06, 0x06, .bool, 1, .wo, .c 0, .oneOf [1]⟩, -- Enumerate (Table 10-12 Link)
  ⟨0x3700, 0x1, 24, 0x07, 0x07, .u 4, 1, .ro, .c 0, .any⟩, -- Up-frame delay (Table 10-12 Link)
  ⟨0x3700, 0x1, 24, 0x08, 0x08, .u 1, 1, .ro, .c 96, .any⟩, -- Edge capacity E_cap (Table 10-12 Link)
  ⟨0x3700, 0x1, 24, 0x09, 0x09, .u 1, 1, .ro, .c 0, .any⟩, -- Edge demand D (Table 10-12 Link)
  ⟨0x3700, 0x1, 24, 0x0A, 0x0A, .u 2, 1, .rw, .c 15, .bw 10 1000⟩, -- Node timeout (Table 10-12 Link)
  ⟨0x3700, 0x1, 24, 0x0B, 0x0B, .u 4, 1, .ro, .c 0, .any⟩, -- Frames sent (Table 10-12 Link)
  ⟨0x3700, 0x1, 24, 0x0C, 0x0C, .u 4, 1, .ro, .c 0, .any⟩, -- Frames used (Table 10-12 Link)
  ⟨0x3700, 0x1, 24, 0x0D, 0x0D, .u 4, 1, .ro, .c 0, .any⟩, -- Frames discarded (Table 10-12 Link)
  ⟨0x3700, 0x1, 24, 0x0E, 0x0E, .u 4, 1, .ro, .c 0, .any⟩, -- Code violations (Table 10-12 Link)
  ⟨0x3700, 0x1, 24, 0x0F, 0x0F, .u 4, 1, .ro, .c 0, .any⟩, -- Breaks (Table 10-12 Link)
  ⟨0x3700, 0x1, 24, 0x10, 0x10, .u 4, 1, .ro, .c 0, .any⟩, -- Epoch in use (Table 10-12 Link)
  ⟨0x3700, 0x1, 24, 0x11, 0x11, .u 4, 1, .ro, .c 0, .any⟩, -- Request timeouts (Table 10-12 Link)
  ⟨0x3700, 0x1, 24, 0x12, 0x12, .u 1, 1, .ro, .c 255, .any⟩, -- First unreached position (Table 10-12 Link)
  ⟨0x3700, 0x1, 24, 0x13, 0x13, .u 2, 1, .ro, .c 0, .any⟩ -- Status (Table 10-12 Link)
  ]

/-- Entries 0x5000 to 0x504F. -/
def dict5000 : List Desc := [
  ⟨0x5000, 0x1, 80, 0x01, 0x01, .bool, 1, .rw, .c 0, .oneOf [0, 1]⟩, -- Enable (Table 02-7 Chain)
  ⟨0x5000, 0x1, 80, 0x02, 0x02, .u 1, 1, .rwc, .c 3, .bw 0 3⟩, -- Input range (Table 02-7 Chain)
  ⟨0x5000, 0x1, 80, 0x03, 0x03, .u 1, 1, .rwc, .c 1, .oneOf [1, 2, 3, 4, 8]⟩, -- Averaging A or order K (Table 02-7 Chain)
  ⟨0x5000, 0x1, 80, 0x04, 0x04, .u 2, 1, .rwc, .c 16, .bwOr 4 256 0⟩, -- Decimation D (Table 02-7 Chain)
  ⟨0x5000, 0x1, 80, 0x05, 0x05, .u 1, 1, .rwc, .c 0, .bw 0 3⟩, -- Modulator clock (Table 02-7 Chain)
  ⟨0x5000, 0x1, 80, 0x06, 0x06, .u 1, 1, .rwc, .c 0, .bw 0 15⟩, -- SDI sample delay (Table 02-7 Chain)
  ⟨0x5000, 0x1, 80, 0x07, 0x07, .u 2, 1, .rw, .c 0, .own⟩, -- Phase delay (Table 02-7 Chain)
  ⟨0x5000, 0x1, 80, 0x08, 0x08, .u 1, 1, .rwc, .c 1, .oneOf [0, 1, 2]⟩, -- Grid-locked mode (Table 02-7 Chain)
  ⟨0x5000, 0x1, 80, 0x09, 0x09, .u 2, 1, .rwc, .c 256, .oneOf [64, 128, 256, 512]⟩, -- Samples per cycle (Table 02-7 Chain)
  ⟨0x5000, 0x1, 80, 0x0A, 0x0A, .u 8, 1, .rwc, .c 12800000, .bw 1000000 5000000000⟩, -- Fixed output rate (Table 02-7 Chain)
  ⟨0x5000, 0x1, 80, 0x0B, 0x0B, .bool, 1, .rwc, .c 0, .oneOf [0, 1]⟩, -- Half-band enable (Table 02-7 Chain)
  ⟨0x5000, 0x1, 80, 0x0C, 0x0C, .u 1, 1, .rwc, .c 255, .bwOr 0 79 255⟩, -- Tracking source (Table 02-7 Chain)
  ⟨0x5000, 0x1, 80, 0x0D, 0x0D, .u 1, 1, .rwc, .c 50, .oneOf [50, 60]⟩, -- Nominal frequency (Table 02-7 Chain)
  ⟨0x5000, 0x1, 80, 0x0E, 0x0E, .u 4, 1, .ro, .c 0, .any⟩, -- Tracked frequency (Table 02-7 Chain)
  ⟨0x5000, 0x1, 80, 0x0F, 0x0F, .u 1, 1, .ro, .c 0, .any⟩, -- Active bank (Table 02-7 Chain)
  ⟨0x5000, 0x1, 80, 0x10, 0x10, .u 1, 1, .wo, .c 0, .bw 0 32⟩, -- Swap request (Table 02-7 Chain)
  ⟨0x5000, 0x1, 80, 0x11, 0x11, .bool, 1, .rwc, .c 1, .oneOf [0, 1]⟩, -- Seed from first sample (Table 02-7 Chain)
  ⟨0x5000, 0x1, 80, 0x12, 0x12, .u 4, 1, .ro, .c 0, .any⟩, -- Fast-tap latency (Table 02-7 Chain)
  ⟨0x5000, 0x1, 80, 0x13, 0x13, .i 4, 1, .ro, .c 0, .any⟩, -- Sample skew (Table 02-7 Chain)
  ⟨0x5000, 0x1, 80, 0x14, 0x14, .u 2, 1, .ro, .c 32768, .any⟩, -- Normalisation nmul (Table 02-7 Chain)
  ⟨0x5000, 0x1, 80, 0x15, 0x15, .u 1, 1, .ro, .c 0, .any⟩, -- Normalisation e (Table 02-7 Chain)
  ⟨0x5000, 0x1, 80, 0x16, 0x16, .q15, 1, .ro, .c 0, .any⟩, -- Fast-tap value (Table 02-7 Chain)
  ⟨0x5000, 0x1, 80, 0x17, 0x17, .q15, 1, .ro, .c 0, .any⟩, -- Grid-locked value (Table 02-7 Chain)
  ⟨0x5000, 0x1, 80, 0x18, 0x18, .u 2, 1, .ro, .c 0, .any⟩, -- Status (Table 02-7 Chain)
  ⟨0x5000, 0x1, 80, 0x19, 0x19, .q15, 1, .rw, .c 32752, .bw 0 32767⟩, -- Peak decay α (Table 02-7 Chain)
  ⟨0x5000, 0x1, 80, 0x1A, 0x1A, .u 2, 1, .rw, .c 0, .bw 0 512⟩, -- RMS window (Table 02-7 Chain)
  ⟨0x5000, 0x1, 80, 0x1B, 0x1B, .q15, 1, .rw, .c 16384, .bw 0 32767⟩, -- Envelope attack (Table 02-7 Chain)
  ⟨0x5000, 0x1, 80, 0x1C, 0x1C, .q15, 1, .rw, .c 256, .bw 0 32767⟩, -- Envelope release (Table 02-7 Chain)
  ⟨0x5000, 0x1, 80, 0x1D, 0x1D, .q15, 1, .ro, .c 0, .any⟩, -- Peak (Table 02-7 Chain)
  ⟨0x5000, 0x1, 80, 0x1E, 0x1E, .q15, 1, .ro, .c 0, .any⟩, -- RMS (Table 02-7 Chain)
  ⟨0x5000, 0x1, 80, 0x1F, 0x1F, .q15, 1, .ro, .c 0, .any⟩, -- Envelope (Table 02-7 Chain)
  ⟨0x5000, 0x1, 80, 0x20, 0x20, .u 1, 1, .ro, .c 0, .any⟩, -- Detector validity (Table 02-7 Chain)
  ⟨0x5000, 0x1, 80, 0x21, 0x21, .u 4, 1, .ro, .c 0, .any⟩ -- Loss and saturation counts (Table 02-7 Chain)
  ]

/-- Entries 0x5080 to 0x5091. -/
def dict5080 : List Desc := [
  ⟨0x5080, 0x1, 18, 0x01, 0x01, .u 1, 1, .ro, .perInst [0, 0, 0, 0, 0, 0, 0, 0, 0, 0, 0, 0, 0, 0, 0, 0, 1, 1], .any⟩, -- Core state (Table 02-8 Core and front-end)
  ⟨0x5080, 0x1, 18, 0x02, 0x02, .u 1, 1, .ro, .perInst [0, 1, 2, 3, 4, 5, 6, 7, 8, 9, 10, 11, 12, 13, 14, 15, 255, 255], .any⟩, -- Serving (Table 02-8 Core and front-end)
  ⟨0x5080, 0x1, 18, 0x03, 0x03, .i 2, 1, .ro, .c 0, .any⟩, -- Offset off (Table 02-8 Core and front-end)
  ⟨0x5080, 0x1, 18, 0x04, 0x04, .u 2, 1, .ro, .c 0x4000, .any⟩, -- Gain g (Table 02-8 Core and front-end)
  ⟨0x5080, 0x1, 18, 0x05, 0x05, .u 4, 1, .ro, .c 0, .any⟩, -- Overrun count (Table 02-8 Core and front-end)
  ⟨0x5080, 0x1, 18, 0x10, 0x17, .i 2, 1, .ro, .c 0, .any⟩, -- Slot result s (Table 02-8 Core and front-end)
  ⟨0x5080, 0x1, 18, 0x18, 0x18, .u 2, 1, .ro, .c 0, .any⟩ -- Fresh and overrun flags (Table 02-8 Core and front-end)
  ]

/-- Entries 0x5092. -/
def dict5092 : List Desc := [
  ⟨0x5092, 0x1, 1, 0x01, 0x04, .u 1, 1, .rwc, .c 20, .bw 16 80⟩, -- Clock m divider N (Table 02-8 Core and front-end)
  ⟨0x5092, 0x1, 1, 0x05, 0x08, .u 1, 1, .rwc, .c 0, .bw 0 32⟩ -- Clock m lock (Table 02-8 Core and front-end)
  ]

/-- Entries 0x5098 to 0x509F. -/
def dict5098 : List Desc := [
  ⟨0x5098, 0x1, 8, 0x01, 0x01, .u 1, 1, .rwc, .c 0, .bw 0 255⟩, -- Trigger source (Table 02-9 Pair)
  ⟨0x5098, 0x1, 8, 0x02, 0x02, .u 4, 1, .rwc, .c 10000, .bw 400 2620000⟩, -- Periodic interval (Table 02-9 Pair)
  ⟨0x5098, 0x1, 8, 0x03, 0x03, .u 1, 1, .rwc, .c 4, .bw 2 8⟩, -- Sequence length S (Table 02-9 Pair)
  ⟨0x5098, 0x1, 8, 0x04, 0x04, .u 1, 1, .rwc, .lin 2 32, .own⟩, -- Shared channel (Table 02-9 Pair)
  ⟨0x5098, 0x1, 8, 0x05, 0x05, .u 2, 1, .rw, .c 96, .bw 8 2048⟩, -- Tolerance (Table 02-9 Pair)
  ⟨0x5098, 0x1, 8, 0x06, 0x06, .u 1, 1, .rw, .c 3, .bw 1 16⟩, -- Misses to fault M (Table 02-9 Pair)
  ⟨0x5098, 0x1, 8, 0x07, 0x07, .i 2, 1, .ro, .c 0, .any⟩, -- Last difference (Table 02-9 Pair)
  ⟨0x5098, 0x1, 8, 0x08, 0x08, .u 1, 1, .ro, .c 0, .any⟩, -- Status (Table 02-9 Pair)
  ⟨0x5098, 0x1, 8, 0x09, 0x09, .bool, 1, .wo, .c 0, .oneOf [1]⟩, -- Clear fault (Table 02-9 Pair)
  ⟨0x5098, 0x1, 8, 0x0A, 0x0A, .u 4, 1, .ro, .c 0, .any⟩, -- Trigger-overrun count (Table 02-9 Pair)
  ⟨0x5098, 0x1, 8, 0x0B, 0x0B, .u 4, 1, .ro, .c 0, .any⟩, -- Plausibility fault count (Table 02-9 Pair)
  ⟨0x5098, 0x1, 8, 0x10, 0x16, .u 1, 1, .rwc, .c 255, .bwOr 0 2 255⟩, -- Core 2p slot s input (Table 02-9 Pair)
  ⟨0x5098, 0x1, 8, 0x18, 0x1E, .u 1, 1, .rwc, .c 255, .bwOr 0 2 255⟩ -- Core 2p+1 slot s input (Table 02-9 Pair)
  ]

/-- Entries 0x50A0 to 0x50A7. -/
def dict50A0 : List Desc := [
  ⟨0x50A0, 0x1, 8, 0x01, 0x01, .u 1, 1, .rw, .lin 2 0, .own⟩, -- Target input (Table 02-10 Test DAC)
  ⟨0x50A0, 0x1, 8, 0x02, 0x02, .u 2, 1, .rw, .c 2048, .bw 0 4095⟩, -- DAC code (Table 02-10 Test DAC)
  ⟨0x50A0, 0x1, 8, 0x03, 0x03, .bool, 1, .wo, .c 0, .oneOf [1]⟩, -- Path test (Table 02-10 Test DAC)
  ⟨0x50A0, 0x1, 8, 0x04, 0x04, .u 1, 1, .ro, .c 0, .any⟩, -- Result (Table 02-10 Test DAC)
  ⟨0x50A0, 0x1, 8, 0x05, 0x05, .i 2, 2, .ro, .c 0, .any⟩ -- Readings (Table 02-10 Test DAC)
  ]

/-- Entries 0x5100 to 0x513F. -/
def dict5100 : List Desc := [
  ⟨0x5100, 0x1, 64, 0x01, 0x01, .bool, 1, .rw, .c 0, .oneOf [0, 1]⟩, -- Enable (Table 02-11 Single-frequency detector)
  ⟨0x5100, 0x1, 64, 0x02, 0x02, .u 1, 1, .rwc, .c 0, .bw 0 79⟩, -- Chain (Table 02-11 Single-frequency detector)
  ⟨0x5100, 0x1, 64, 0x03, 0x03, .u 1, 1, .rwc, .c 1, .oneOf [1, 2]⟩, -- Mode (Table 02-11 Single-frequency detector)
  ⟨0x5100, 0x1, 64, 0x04, 0x04, .u 1, 1, .rwc, .c 1, .bw 1 50⟩, -- Harmonic order h (Table 02-11 Single-frequency detector)
  ⟨0x5100, 0x1, 64, 0x05, 0x05, .u 4, 1, .rwc, .c 50000, .step 10000 2000000 10⟩, -- Frequency (Table 02-11 Single-frequency detector)
  ⟨0x5100, 0x1, 64, 0x06, 0x06, .u 2, 1, .rwc, .c 256, .bw 64 4096⟩, -- Window W (Table 02-11 Single-frequency detector)
  ⟨0x5100, 0x1, 64, 0x07, 0x07, .u 1, 1, .rwc, .c 255, .bwOr 0 63 255⟩, -- Partner (Table 02-11 Single-frequency detector)
  ⟨0x5100, 0x1, 64, 0x08, 0x08, .q15, 1, .ro, .c 0, .any⟩, -- Amplitude (Table 02-11 Single-frequency detector)
  ⟨0x5100, 0x1, 64, 0x09, 0x09, .q15, 1, .ro, .c 0, .any⟩, -- Phase (Table 02-11 Single-frequency detector)
  ⟨0x5100, 0x1, 64, 0x0A, 0x0A, .u 4, 1, .ro, .c 0, .any⟩, -- Ratio to partner (Table 02-11 Single-frequency detector)
  ⟨0x5100, 0x1, 64, 0x0B, 0x0B, .q15, 1, .ro, .c 0, .any⟩, -- Phase to partner (Table 02-11 Single-frequency detector)
  ⟨0x5100, 0x1, 64, 0x0C, 0x0C, .bool, 1, .ro, .c 0, .any⟩ -- Valid (Table 02-11 Single-frequency detector)
  ]

/-- Entries 0x6000 to 0x63FF. -/
def dict6000 : List Desc := [
  ⟨0x6000, 0x1, 1024, 0x01, 0x01, .u 1, 1, .ro, .c 255, .any⟩, -- Owner batch (Table 04-4 Fixed slot)
  ⟨0x6000, 0x1, 1024, 0x02, 0x02, .u 1, 1, .ro, .c 0, .any⟩, -- Loop role (Table 04-4 Fixed slot)
  ⟨0x6000, 0x1, 1024, 0x03, 0x03, .u 1, 1, .ro, .c 0, .any⟩, -- Active bank (Table 04-4 Fixed slot)
  ⟨0x6000, 0x1, 1024, 0x05, 0x05, .q15, 1, .ro, .c 0, .any⟩, -- Output y (Table 04-4 Fixed slot)
  ⟨0x6000, 0x1, 1024, 0x06, 0x06, .u 8, 1, .rw, .c 0, .own⟩, -- s1 (Table 04-4 Fixed slot)
  ⟨0x6000, 0x1, 1024, 0x07, 0x07, .u 8, 1, .rw, .c 0, .own⟩, -- s2 (Table 04-4 Fixed slot)
  ⟨0x6000, 0x1, 1024, 0x08, 0x08, .u 1, 1, .ro, .c 0, .any⟩, -- Status (Table 04-4 Fixed slot)
  ⟨0x6000, 0x1, 1024, 0x09, 0x09, .u 4, 1, .ro, .c 0, .any⟩, -- Saturation count (Table 04-4 Fixed slot)
  ⟨0x6000, 0x1, 1024, 0x0A, 0x0A, .u 4, 1, .ro, .c 0, .any⟩, -- Overflow count (Table 04-4 Fixed slot)
  ⟨0x6000, 0x1, 1024, 0x0B, 0x0B, .q15, 1, .rw, .c 32767, .bw 0 32767⟩, -- Following-error limit L (Table 04-4 Fixed slot)
  ⟨0x6000, 0x1, 1024, 0x0C, 0x0C, .u 2, 1, .rw, .c 100, .bw 1 4095⟩, -- Following-error timer T (Table 04-4 Fixed slot)
  ⟨0x6000, 0x1, 1024, 0x0D, 0x0D, .u 1, 1, .rw, .c 0, .bw 0 7⟩, -- Prescaler P (Table 04-4 Fixed slot)
  ⟨0x6000, 0x1, 1024, 0x0E, 0x0E, .bool, 1, .rw, .c 1, .oneOf [0, 1]⟩, -- Hold while saturated (Table 04-4 Fixed slot)
  ⟨0x6000, 0x1, 1024, 0x0F, 0x0F, .u 2, 1, .ro, .c 0, .any⟩, -- Following-error count (Table 04-4 Fixed slot)
  ⟨0x6000, 0x1, 1024, 0x10, 0x15, .u 2, 1, .rw, .c 0, .any⟩, -- Bank A words 0–7 (Table 04-4 Fixed slot)
  ⟨0x6000, 0x1, 1024, 0x16, 0x16, .u 2, 1, .rw, .c 32768, .any⟩, -- Bank A words 0–7 (Table 04-4 Fixed slot)
  ⟨0x6000, 0x1, 1024, 0x17, 0x17, .u 2, 1, .rw, .c 32767, .any⟩, -- Bank A words 0–7 (Table 04-4 Fixed slot)
  ⟨0x6000, 0x1, 1024, 0x18, 0x1D, .u 2, 1, .rw, .c 0, .any⟩, -- Bank B words 0–7 (Table 04-4 Fixed slot)
  ⟨0x6000, 0x1, 1024, 0x1E, 0x1E, .u 2, 1, .rw, .c 32768, .any⟩, -- Bank B words 0–7 (Table 04-4 Fixed slot)
  ⟨0x6000, 0x1, 1024, 0x1F, 0x1F, .u 2, 1, .rw, .c 32767, .any⟩, -- Bank B words 0–7 (Table 04-4 Fixed slot)
  ⟨0x6000, 0x1, 1024, 0x20, 0x20, .u 4, 1, .ro, .c 0, .any⟩ -- Following-error alarms (Table 04-4 Fixed slot)
  ]

/-- Entries 0x6400 to 0x643F. -/
def dict6400 : List Desc := [
  ⟨0x6400, 0x1, 64, 0x01, 0x01, .u 1, 1, .ro, .c 255, .any⟩, -- Owner batch (Table 04-5 Float slot)
  ⟨0x6400, 0x1, 64, 0x02, 0x02, .u 1, 1, .ro, .c 0, .any⟩, -- Loop role (Table 04-5 Float slot)
  ⟨0x6400, 0x1, 64, 0x03, 0x03, .u 1, 1, .ro, .c 0, .any⟩, -- Active bank (Table 04-5 Float slot)
  ⟨0x6400, 0x1, 64, 0x05, 0x05, .f32, 1, .ro, .c 0x00000000, .any⟩, -- Output y (Table 04-5 Float slot)
  ⟨0x6400, 0x1, 64, 0x08, 0x08, .u 1, 1, .ro, .c 0, .any⟩, -- Status (Table 04-5 Float slot)
  ⟨0x6400, 0x1, 64, 0x09, 0x09, .u 4, 1, .ro, .c 0, .any⟩, -- Float saturation count (Table 04-5 Float slot)
  ⟨0x6400, 0x1, 64, 0x0A, 0x0A, .u 4, 1, .ro, .c 0, .any⟩, -- NaN-fault count (Table 04-5 Float slot)
  ⟨0x6400, 0x1, 64, 0x0B, 0x0B, .f32, 1, .rw, .c 2139095039, .f32Pos⟩, -- Following-error limit L (Table 04-5 Float slot)
  ⟨0x6400, 0x1, 64, 0x0C, 0x0C, .u 2, 1, .rw, .c 100, .bw 1 4095⟩, -- Following-error timer T (Table 04-5 Float slot)
  ⟨0x6400, 0x1, 64, 0x0D, 0x0D, .u 1, 1, .rw, .c 0, .bw 0 7⟩, -- Prescaler P (Table 04-5 Float slot)
  ⟨0x6400, 0x1, 64, 0x0E, 0x0E, .bool, 1, .rw, .c 1, .oneOf [0, 1]⟩, -- Hold while saturated (Table 04-5 Float slot)
  ⟨0x6400, 0x1, 64, 0x0F, 0x0F, .u 2, 1, .ro, .c 0, .any⟩, -- Following-error count (Table 04-5 Float slot)
  ⟨0x6400, 0x1, 64, 0x10, 0x1F, .f32, 1, .rw, .c 0x00000000, .f32Norm⟩, -- Bank A c0–c15 (Table 04-5 Float slot)
  ⟨0x6400, 0x1, 64, 0x20, 0x2F, .f32, 1, .rw, .c 0x00000000, .f32Norm⟩, -- Bank B c0–c15 (Table 04-5 Float slot)
  ⟨0x6400, 0x1, 64, 0x30, 0x3B, .f32, 1, .rw, .c 0x00000000, .any⟩, -- State s0–s11 (Table 04-5 Float slot)
  ⟨0x6400, 0x1, 64, 0x3C, 0x3C, .u 4, 1, .ro, .c 0, .any⟩ -- Following-error alarms (Table 04-5 Float slot)
  ]

/-- Entries 0x6500 to 0x651F. -/
def dict6500 : List Desc := [
  ⟨0x6500, 0x1, 32, 0x01, 0x01, .u 1, 1, .rwc, .lin 1 0, .bwOr 0 31 255⟩, -- Batch served (Table 03-4 Queue)
  ⟨0x6500, 0x1, 32, 0x02, 0x02, .u 1, 1, .rwc, .c 4, .bw 0 7⟩, -- Priority (Table 03-4 Queue)
  ⟨0x6500, 0x1, 32, 0x03, 0x03, .u 1, 1, .rwc, .c 0, .bw 0 7⟩, -- Group (Table 03-4 Queue)
  ⟨0x6500, 0x1, 32, 0x04, 0x04, .u 1, 1, .rwc, .c 1, .bw 1 255⟩, -- Weight (Table 03-4 Queue)
  ⟨0x6500, 0x1, 32, 0x05, 0x05, .u 1, 1, .ro, .c 0, .any⟩, -- Occupancy (Table 03-4 Queue)
  ⟨0x6500, 0x1, 32, 0x06, 0x06, .u 1, 1, .ro, .c 0, .any⟩, -- Peak occupancy (Table 03-4 Queue)
  ⟨0x6500, 0x1, 32, 0x07, 0x07, .u 1, 1, .ro, .c 0, .any⟩, -- Items per cycle (Table 03-4 Queue)
  ⟨0x6500, 0x1, 32, 0x08, 0x08, .u 4, 1, .ro, .c 0, .any⟩, -- Worst-corner work W_b (Table 03-4 Queue)
  ⟨0x6500, 0x1, 32, 0x09, 0x09, .u 4, 1, .ro, .c 0, .any⟩, -- Longest item (Table 03-4 Queue)
  ⟨0x6500, 0x1, 32, 0x0A, 0x0A, .u 4, 1, .ro, .c 0, .any⟩, -- Available window A_b (Table 03-4 Queue)
  ⟨0x6500, 0x1, 32, 0x0B, 0x0B, .i 4, 1, .ro, .c 0, .any⟩, -- Admitted slack (Table 03-4 Queue)
  ⟨0x6500, 0x1, 32, 0x0C, 0x0C, .u 1, 1, .ro, .c 255, .any⟩, -- Home lane (Table 03-4 Queue)
  ⟨0x6500, 0x1, 32, 0x0D, 0x0D, .u 4, 1, .ro, .c 0, .any⟩, -- Maximum dispatch wait (Table 03-4 Queue)
  ⟨0x6500, 0x1, 32, 0x0E, 0x0E, .u 4, 1, .ro, .c 0, .any⟩, -- Last cycle elapsed (Table 03-4 Queue)
  ⟨0x6500, 0x1, 32, 0x0F, 0x0F, .u 4, 1, .ro, .c 0, .any⟩, -- Dispatches off home lane (Table 03-4 Queue)
  ⟨0x6500, 0x1, 32, 0x10, 0x10, .u 4, 1, .ro, .c 0, .any⟩, -- Fault reactions merged (Table 03-4 Queue)
  ⟨0x6500, 0x1, 32, 0x11, 0x11, .u 4, 1, .ro, .c 0, .any⟩, -- Stall restarts (Table 03-4 Queue)
  ⟨0x6500, 0x1, 32, 0x12, 0x12, .u 1, 1, .ro, .c 0, .any⟩ -- Dictionary jobs waiting (Table 03-4 Queue)
  ]

/-- Entries 0x6520 to 0x6527. -/
def dict6520 : List Desc := [
  ⟨0x6520, 0x1, 8, 0x01, 0x01, .u 1, 1, .rwc, .c 1, .bw 1 255⟩, -- Weight (Table 03-5 Group)
  ⟨0x6520, 0x1, 8, 0x02, 0x02, .u 4, 1, .ro, .inst0 0xFFFFFFFF 0, .any⟩, -- Member queues (Table 03-5 Group)
  ⟨0x6520, 0x1, 8, 0x03, 0x03, .u 4, 1, .ro, .c 0, .any⟩ -- Dispatch count (Table 03-5 Group)
  ]

/-- Entries 0x6530. -/
def dict6530 : List Desc := [
  ⟨0x6530, 0x1, 1, 0x01, 0x01, .u 1, 1, .ro, .c 20, .any⟩, -- Lanes in service N (Table 03-6 Fabric)
  ⟨0x6530, 0x1, 1, 0x02, 0x02, .u 1, 1, .ro, .c 19, .any⟩, -- Free lane (Table 03-6 Fabric)
  ⟨0x6530, 0x1, 1, 0x03, 0x03, .u 1, 1, .ro, .c 255, .any⟩, -- Lane under test (Table 03-6 Fabric)
  ⟨0x6530, 0x1, 1, 0x04, 0x04, .u 4, 1, .ro, .c 0, .any⟩, -- Admitted load (Table 03-6 Fabric)
  ⟨0x6530, 0x1, 1, 0x05, 0x05, .u 4, 1, .ro, .c 15200, .any⟩, -- Admission budget (Table 03-6 Fabric)
  ⟨0x6530, 0x1, 1, 0x06, 0x06, .u 1, 1, .ro, .c 0, .any⟩, -- Admission result (Table 03-6 Fabric)
  ⟨0x6530, 0x1, 1, 0x07, 0x07, .u 1, 1, .ro, .c 255, .any⟩, -- Batch failing window (Table 03-6 Fabric)
  ⟨0x6530, 0x1, 1, 0x08, 0x08, .bool, 1, .rw, .c 1, .oneOf [0, 1]⟩, -- Background test enable (Table 03-6 Fabric)
  ⟨0x6530, 0x1, 1, 0x09, 0x09, .u 4, 1, .rw, .c 100, .bw 10 10000⟩, -- Rotation step (Table 03-6 Fabric)
  ⟨0x6530, 0x1, 1, 0x0A, 0x0A, .u 4, 1, .ro, .c 0, .any⟩, -- Rotations completed (Table 03-6 Fabric)
  ⟨0x6530, 0x1, 1, 0x0B, 0x0B, .bool, 1, .ro, .c 0, .any⟩, -- Capacity alarm (Table 03-6 Fabric)
  ⟨0x6530, 0x1, 1, 0x0C, 0x0C, .u 1, 1, .ro, .c 4, .any⟩ -- Reserve lanes left (Table 03-6 Fabric)
  ]

/-- Entries 0x6540 to 0x6557. -/
def dict6540 : List Desc := [
  ⟨0x6540, 0x1, 24, 0x01, 0x01, .u 1, 1, .ro, .c 0, .any⟩, -- State (Table 03-8 Lane)
  ⟨0x6540, 0x1, 24, 0x02, 0x02, .u 4, 1, .ro, .c 0, .any⟩, -- Pace (Table 03-8 Lane)
  ⟨0x6540, 0x1, 24, 0x03, 0x03, .i 2, 1, .ro, .c 0, .any⟩, -- Margin (Table 03-8 Lane)
  ⟨0x6540, 0x1, 24, 0x04, 0x04, .i 2, 1, .ro, .c 10000, .any⟩, -- Minimum margin (Table 03-8 Lane)
  ⟨0x6540, 0x1, 24, 0x05, 0x05, .u 4, 1, .ro, .c 0, .any⟩, -- Batches homed (Table 03-8 Lane)
  ⟨0x6540, 0x1, 24, 0x06, 0x06, .u 4, 1, .ro, .c 0, .any⟩, -- Load (Table 03-8 Lane)
  ⟨0x6540, 0x1, 24, 0x07, 0x07, .u 4, 1, .ro, .c 0, .any⟩, -- Items run (Table 03-8 Lane)
  ⟨0x6540, 0x1, 24, 0x08, 0x08, .u 4, 1, .ro, .c 0, .any⟩, -- Stalls (Table 03-8 Lane)
  ⟨0x6540, 0x1, 24, 0x09, 0x09, .u 1, 1, .ro, .c 0, .any⟩, -- Last test result (Table 03-8 Lane)
  ⟨0x6540, 0x1, 24, 0x0A, 0x0A, .u 1, 1, .ro, .c 0, .any⟩ -- Status (Table 03-8 Lane)
  ]

/-- Entries 0x6600 to 0x663F. -/
def dict6600 : List Desc := [
  ⟨0x6600, 0x1, 64, 0x01, 0x01, .u 1, 1, .ro, .c 255, .any⟩, -- Owner batch (Table 04-6 Profile generator)
  ⟨0x6600, 0x1, 64, 0x02, 0x02, .f32, 1, .rw, .c 0x00000000, .any⟩, -- Target T (Table 04-6 Profile generator)
  ⟨0x6600, 0x1, 64, 0x03, 0x03, .f32, 1, .rw, .c 0x3F800000, .f32 0x358637BD 0x447A0000⟩, -- Rate limit V (Table 04-6 Profile generator)
  ⟨0x6600, 0x1, 64, 0x04, 0x04, .f32, 1, .rw, .c 0x41200000, .f32 0x358637BD 0x49742400⟩, -- Rate-of-rate limit A (Table 04-6 Profile generator)
  ⟨0x6600, 0x1, 64, 0x05, 0x05, .f32, 1, .rw, .c 0x447A0000, .f32 0x358637BD 0x4E6E6B28⟩, -- Jerk limit J (Table 04-6 Profile generator)
  ⟨0x6600, 0x1, 64, 0x06, 0x06, .f32, 1, .rw, .c 0x38D1B717, .f32 0x33D6BF95 0x3DCCCCCD⟩, -- Arrival window w (Table 04-6 Profile generator)
  ⟨0x6600, 0x1, 64, 0x07, 0x07, .f32, 1, .ro, .c 0x00000000, .any⟩, -- Position x (Table 04-6 Profile generator)
  ⟨0x6600, 0x1, 64, 0x08, 0x08, .f32, 1, .ro, .c 0x00000000, .any⟩, -- Rate v (Table 04-6 Profile generator)
  ⟨0x6600, 0x1, 64, 0x09, 0x09, .f32, 1, .ro, .c 0x00000000, .any⟩, -- Rate of rate a (Table 04-6 Profile generator)
  ⟨0x6600, 0x1, 64, 0x0A, 0x0A, .u 1, 1, .wo, .c 0, .oneOf [1, 2, 3]⟩, -- Command (Table 04-6 Profile generator)
  ⟨0x6600, 0x1, 64, 0x0B, 0x0B, .f32, 1, .rw, .c 0x00000000, .any⟩, -- Preset value (Table 04-6 Profile generator)
  ⟨0x6600, 0x1, 64, 0x0C, 0x0C, .u 1, 1, .ro, .c 0, .any⟩, -- Status (Table 04-6 Profile generator)
  ⟨0x6600, 0x1, 64, 0x0D, 0x0D, .u 4, 1, .ro, .c 0, .any⟩, -- Rate clamp count (Table 04-6 Profile generator)
  ⟨0x6600, 0x1, 64, 0x0E, 0x0E, .u 4, 1, .ro, .c 0, .any⟩, -- Target changes (Table 04-6 Profile generator)
  ⟨0x6600, 0x1, 64, 0x0F, 0x0F, .f32, 1, .rw, .c 0xC0000000, .any⟩, -- Minimum target (Table 04-6 Profile generator)
  ⟨0x6600, 0x1, 64, 0x10, 0x10, .f32, 1, .rw, .c 0x40000000, .any⟩, -- Maximum target (Table 04-6 Profile generator)
  ⟨0x6600, 0x1, 64, 0x11, 0x11, .f32, 1, .ro, .c 0x00000000, .any⟩ -- Largest overshoot (Table 04-6 Profile generator)
  ]

/-- Entries 0x7000. -/
def dict7000 : List Desc := [
  ⟨0x7000, 0x1, 1, 0x01, 0x01, .u 1, 1, .wo, .c 0, .oneOf [1, 0]⟩, -- Arm (Table 14-6 Acquisition global and buffer)
  ⟨0x7000, 0x1, 1, 0x02, 0x02, .time64, 1, .rw, .c 0, .any⟩, -- Arm time (Table 14-6 Acquisition global and buffer)
  ⟨0x7000, 0x1, 1, 0x03, 0x03, .u 1, 1, .ro, .c 0, .any⟩, -- State (Table 14-6 Acquisition global and buffer)
  ⟨0x7000, 0x1, 1, 0x04, 0x04, .u 1, 1, .rwc, .c 64, .own⟩, -- Record timebase (Table 14-6 Acquisition global and buffer)
  ⟨0x7000, 0x1, 1, 0x05, 0x05, .u 4, 1, .rwc, .c 4000, .bw 400 4000000⟩, -- Record period (Table 14-6 Acquisition global and buffer)
  ⟨0x7000, 0x1, 1, 0x06, 0x06, .u 1, 1, .rwc, .c 8, .oneOf [1, 2, 4, 8, 16, 32]⟩, -- Buffers N_buf (Table 14-6 Acquisition global and buffer)
  ⟨0x7000, 0x1, 1, 0x07, 0x07, .u 4, 1, .rwc, .c 10000, .own⟩, -- Pre-trigger, post-trigger length (Table 14-6 Acquisition global and buffer)
  ⟨0x7000, 0x1, 1, 0x08, 0x08, .u 4, 1, .rwc, .c 90000, .own⟩, -- Pre-trigger, post-trigger length (Table 14-6 Acquisition global and buffer)
  ⟨0x7000, 0x1, 1, 0x09, 0x09, .u 1, 1, .rw, .c 1, .oneOf [0, 1]⟩, -- Re-arm (Table 14-6 Acquisition global and buffer)
  ⟨0x7000, 0x1, 1, 0x0A, 0x0A, .bool, 1, .rw, .c 0, .oneOf [0, 1]⟩, -- Retrigger extend (Table 14-6 Acquisition global and buffer)
  ⟨0x7000, 0x1, 1, 0x0B, 0x0B, .u 4, 1, .ro, .c 0, .any⟩, -- Buffer capacity (Table 14-6 Acquisition global and buffer)
  ⟨0x7000, 0x1, 1, 0x0C, 0x0C, .u 2, 1, .ro, .c 0, .any⟩, -- Record bytes R_b (Table 14-6 Acquisition global and buffer)
  ⟨0x7000, 0x1, 1, 0x0D, 0x0D, .u 1, 1, .ro, .c 0, .any⟩, -- Free buffers (Table 14-6 Acquisition global and buffer)
  ⟨0x7000, 0x1, 1, 0x0E, 0x0E, .u 4, 1, .ro, .c 0, .any⟩, -- Capture overruns (Table 14-6 Acquisition global and buffer)
  ⟨0x7000, 0x1, 1, 0x0F, 0x0F, .u 4, 1, .ro, .c 0, .any⟩, -- Markers not listed (Table 14-6 Acquisition global and buffer)
  ⟨0x7000, 0x1, 1, 0x10, 0x11, .u 4, 1, .ro, .c 0, .any⟩, -- Memory errors corrected, uncorrected (Table 14-6 Acquisition global and buffer)
  ⟨0x7000, 0x1, 1, 0x12, 0x12, .vstr 64, 1, .rw, .c 0, .any⟩, -- Station name (Table 14-6 Acquisition global and buffer)
  ⟨0x7000, 0x1, 1, 0x13, 0x13, .u 1, 1, .ro, .c 0, .any⟩, -- Arming role (Table 14-6 Acquisition global and buffer)
  ⟨0x7000, 0x1, 1, 0x15, 0x15, .u 1, 1, .rw, .c 50, .oneOf [50, 60]⟩ -- Line frequency (Table 14-6 Acquisition global and buffer)
  ]

/-- Entries 0x7010 to 0x701F. -/
def dict7010 : List Desc := [
  ⟨0x7010, 0x1, 16, 0x01, 0x01, .bool, 1, .rw, .c 0, .oneOf [0, 1]⟩, -- Enable (Table 14-7 Trigger unit and mask)
  ⟨0x7010, 0x1, 16, 0x02, 0x02, .u 1, 1, .rwc, .c 0, .bw 0 12⟩, -- Source type (Table 14-7 Trigger unit and mask)
  ⟨0x7010, 0x1, 16, 0x03, 0x03, .u 4, 1, .rwc, .c 0, .any⟩, -- Select (Table 14-7 Trigger unit and mask)
  ⟨0x7010, 0x1, 16, 0x04, 0x04, .u 1, 1, .rw, .c 0, .bw 0 6⟩, -- Condition (Table 14-7 Trigger unit and mask)
  ⟨0x7010, 0x1, 16, 0x05, 0x06, .i 4, 1, .rw, .c 0, .any⟩, -- Level 1, level 2 (Table 14-7 Trigger unit and mask)
  ⟨0x7010, 0x1, 16, 0x07, 0x07, .u 2, 1, .rw, .c 0, .any⟩, -- Hysteresis (Table 14-7 Trigger unit and mask)
  ⟨0x7010, 0x1, 16, 0x08, 0x08, .u 2, 1, .rw, .c 1, .bw 1 65535⟩, -- Qualifier (Table 14-7 Trigger unit and mask)
  ⟨0x7010, 0x1, 16, 0x09, 0x09, .u 2, 1, .rw, .c 256, .own⟩, -- Field (Table 14-7 Trigger unit and mask)
  ⟨0x7010, 0x1, 16, 0x0A, 0x0A, .u 4, 1, .rw, .c 4294967295, .any⟩, -- Field mask (Table 14-7 Trigger unit and mask)
  ⟨0x7010, 0x1, 16, 0x0B, 0x0B, .u 2, 1, .rw, .c 0, .bw 0 60000⟩, -- Holdoff (Table 14-7 Trigger unit and mask)
  ⟨0x7010, 0x1, 16, 0x0C, 0x0C, .u 1, 1, .rw, .c 3, .mask 3⟩, -- Actions (Table 14-7 Trigger unit and mask)
  ⟨0x7010, 0x1, 16, 0x0D, 0x0D, .u 4, 1, .ro, .c 0, .any⟩, -- Firings (Table 14-7 Trigger unit and mask)
  ⟨0x7010, 0x1, 16, 0x0E, 0x0E, .time64, 1, .ro, .c 0, .any⟩, -- Last firing (Table 14-7 Trigger unit and mask)
  ⟨0x7010, 0x1, 16, 0x0F, 0x0F, .bool, 1, .ro, .c 0, .any⟩ -- Condition now (Table 14-7 Trigger unit and mask)
  ]

/-- Entries 0x7030 to 0x703F. -/
def dict7030 : List Desc := [
  ⟨0x7030, 0x1, 16, 0x01, 0x01, .bool, 1, .rw, .c 0, .oneOf [0, 1]⟩, -- Mask enable (Table 14-7 Trigger unit and mask)
  ⟨0x7030, 0x1, 16, 0x02, 0x02, .u 1, 1, .rwc, .c 255, .bwOr 0 79 255⟩, -- Chain (Table 14-7 Trigger unit and mask)
  ⟨0x7030, 0x1, 16, 0x03, 0x03, .f32, 1, .rw, .c 0x3FC00000, .f32 0x3F000000 0x41000000⟩, -- Scale (Table 14-7 Trigger unit and mask)
  ⟨0x7030, 0x1, 16, 0x04, 0x04, .f32, 1, .rw, .c 0x3F666666, .any⟩, -- Continuous band low, high (Table 14-7 Trigger unit and mask)
  ⟨0x7030, 0x1, 16, 0x05, 0x05, .f32, 1, .rw, .c 0x3F8CCCCD, .any⟩, -- Continuous band low, high (Table 14-7 Trigger unit and mask)
  ⟨0x7030, 0x1, 16, 0x06, 0x06, .u 2, 1, .rw, .c 100, .bw 0 10000⟩, -- Return hold (Table 14-7 Trigger unit and mask)
  ⟨0x7030, 0x1, 16, 0x07, 0x07, .u 1, 1, .ro, .c 0, .any⟩, -- Status (Table 14-7 Trigger unit and mask)
  ⟨0x7030, 0x1, 16, 0x08, 0x08, .u 4, 1, .ro, .c 0, .any⟩ -- Violations (Table 14-7 Trigger unit and mask)
  ]

/-- Entries 0x7040 to 0x70BF. -/
def dict7040 : List Desc := [
  ⟨0x7040, 0x1, 128, 0x01, 0x01, .u 1, 1, .rwc, .c 0, .oneOf [0, 1, 2, 3, 4, 5]⟩, -- Source (Table 14-8 Channel)
  ⟨0x7040, 0x1, 128, 0x02, 0x02, .u 2, 1, .rwc, .c 0, .any⟩, -- Select (Table 14-8 Channel)
  ⟨0x7040, 0x1, 128, 0x03, 0x03, .f32, 1, .rwc, .c 0x3F800000, .own⟩, -- Full scale FS (Table 14-8 Channel)
  ⟨0x7040, 0x1, 128, 0x04, 0x04, .vstr 8, 1, .rwc, .c 0, .any⟩, -- Unit uu (Table 14-8 Channel)
  ⟨0x7040, 0x1, 128, 0x05, 0x05, .vstr 64, 1, .rwc, .c 0, .any⟩, -- ch_id, ph, ccbm (Table 14-8 Channel)
  ⟨0x7040, 0x1, 128, 0x06, 0x06, .vstr 2, 1, .rwc, .c 0, .any⟩, -- ch_id, ph, ccbm (Table 14-8 Channel)
  ⟨0x7040, 0x1, 128, 0x07, 0x07, .vstr 64, 1, .rwc, .c 0, .any⟩ -- ch_id, ph, ccbm (Table 14-8 Channel)
  ]

/-- Entries 0x70C0 to 0x70DD. -/
def dict70C0 : List Desc := [
  ⟨0x70C0, 0x1, 30, 0x01, 0x01, .u 1, 1, .rwc, .c 0, .oneOf [0, 1, 2, 3, 4, 5]⟩, -- Digital source (Table 14-8 Channel)
  ⟨0x70C0, 0x1, 30, 0x02, 0x02, .u 2, 1, .rwc, .c 0, .any⟩, -- Select (Table 14-8 Channel)
  ⟨0x70C0, 0x1, 30, 0x03, 0x03, .vstr 64, 1, .rwc, .c 0, .any⟩ -- ch_id (Table 14-8 Channel)
  ]

/-- Entries 0x70E0 to 0x70FF. -/
def dict70E0 : List Desc := [
  ⟨0x70E0, 0x1, 32, 0x01, 0x01, .u 1, 1, .ro, .c 0, .any⟩, -- Buffer state (Table 14-6 Acquisition global and buffer)
  ⟨0x70E0, 0x1, 32, 0x02, 0x02, .time64, 1, .ro, .c 0, .any⟩, -- Trigger instant (Table 14-6 Acquisition global and buffer)
  ⟨0x70E0, 0x1, 32, 0x03, 0x03, .time64, 1, .ro, .c 0, .any⟩, -- First record instant (Table 14-6 Acquisition global and buffer)
  ⟨0x70E0, 0x1, 32, 0x04, 0x04, .u 4, 1, .ro, .c 0, .any⟩, -- Records (Table 14-6 Acquisition global and buffer)
  ⟨0x70E0, 0x1, 32, 0x05, 0x05, .u 4, 1, .ro, .c 0, .any⟩, -- Actual pre-trigger (Table 14-6 Acquisition global and buffer)
  ⟨0x70E0, 0x1, 32, 0x06, 0x06, .u 2, 1, .ro, .c 0, .any⟩, -- Trigger origin (Table 14-6 Acquisition global and buffer)
  ⟨0x70E0, 0x1, 32, 0x07, 0x07, .u 1, 1, .ro, .c 0, .any⟩, -- Markers (Table 14-6 Acquisition global and buffer)
  ⟨0x70E0, 0x1, 32, 0x08, 0x08, .bool, 1, .ro, .c 0, .any⟩, -- Mask stop (Table 14-6 Acquisition global and buffer)
  ⟨0x70E0, 0x1, 32, 0x09, 0x09, .bool, 1, .wo, .c 0, .oneOf [1]⟩, -- Export (Table 14-6 Acquisition global and buffer)
  ⟨0x70E0, 0x1, 32, 0x0A, 0x0A, .bool, 1, .wo, .c 0, .oneOf [1]⟩ -- Release (Table 14-6 Acquisition global and buffer)
  ]

/-- Entries 0x7100. -/
def dict7100 : List Desc := [
  ⟨0x7100, 0x1, 1, 0x01, 0x01, .u 4, 1, .ro, .c 0, .any⟩, -- Records held (Table 14-10 Crumb-log)
  ⟨0x7100, 0x1, 1, 0x02, 0x02, .u 4, 1, .ro, .c 262144, .any⟩, -- Capacity (Table 14-10 Crumb-log)
  ⟨0x7100, 0x1, 1, 0x03, 0x04, .u 4, 1, .ro, .c 0, .any⟩, -- First sequence held, last committed (Table 14-10 Crumb-log)
  ⟨0x7100, 0x1, 1, 0x05, 0x05, .u 1, 1, .ro, .c 0, .any⟩, -- Status (Table 14-10 Crumb-log)
  ⟨0x7100, 0x1, 1, 0x06, 0x07, .u 4, 1, .ro, .c 0, .any⟩, -- Lost total, suppressed total (Table 14-10 Crumb-log)
  ⟨0x7100, 0x1, 1, 0x08, 0x08, .u 4, 1, .wo, .c 0, .any⟩, -- Archive and clear (Table 14-10 Crumb-log)
  ⟨0x7100, 0x1, 1, 0x0A, 0x0A, .bool, 1, .wo, .c 0, .oneOf [1, 0]⟩, -- Freeze (Table 14-10 Crumb-log)
  ⟨0x7100, 0x1, 1, 0x0B, 0x0B, .u 4, 1, .ro, .c 0, .any⟩, -- Freeze time left (Table 14-10 Crumb-log)
  ⟨0x7100, 0x1, 1, 0x0C, 0x0C, .u 2, 1, .ro, .c 0, .any⟩ -- Staged records (Table 14-10 Crumb-log)
  ]

/-- Entries 0x7101. -/
def dict7101 : List Desc := [
  ⟨0x7101, 0x1, 1, 0x01, 0x01, .u 2, 1, .rw, .c 1, .own⟩, -- Code selector (Table 14-10 Crumb-log)
  ⟨0x7101, 0x1, 1, 0x02, 0x02, .u 2, 1, .rw, .c 10, .bw 0 1000⟩, -- Rate (Table 14-10 Crumb-log)
  ⟨0x7101, 0x1, 1, 0x03, 0x03, .u 2, 1, .rw, .c 32, .bw 1 1024⟩, -- Burst (Table 14-10 Crumb-log)
  ⟨0x7101, 0x1, 1, 0x04, 0x04, .u 4, 1, .ro, .c 0, .any⟩, -- Lost (Table 14-10 Crumb-log)
  ⟨0x7101, 0x1, 1, 0x05, 0x05, .u 2, 1, .ro, .c 0, .any⟩, -- Suppressed, pending (Table 14-10 Crumb-log)
  ⟨0x7101, 0x1, 1, 0x06, 0x06, .u 4, 1, .ro, .c 0, .any⟩ -- Written (Table 14-10 Crumb-log)
  ]

/-- Entries 0x7102. -/
def dict7102 : List Desc := [
  ⟨0x7102, 0x1, 1, 0x01, 0x01, .u 4, 1, .rw, .c 0, .any⟩, -- Snapshot start (Table 14-10 Crumb-log)
  ⟨0x7102, 0x1, 1, 0x02, 0x02, .u 2, 1, .rw, .c 256, .bw 1 1024⟩ -- Snapshot maximum (Table 14-10 Crumb-log)
  ]

/-- Entries 0x7800. -/
def dict7800 : List Desc := [
  ⟨0x7800, 0x1, 1, 0x01, 0x01, .u 1, 1, .ro, .c 0, .any⟩, -- Island state (Table 12-9 Island global and measurement)
  ⟨0x7800, 0x1, 1, 0x02, 0x02, .bool, 1, .wo, .c 0, .oneOf [1]⟩, -- Lock island settings (Table 12-9 Island global and measurement)
  ⟨0x7800, 0x1, 1, 0x03, 0x03, .bool, 1, .wo, .c 0, .oneOf [1]⟩, -- Lock interface-protection settings (Table 12-9 Island global and measurement)
  ⟨0x7800, 0x1, 1, 0x04, 0x04, .u 1, 1, .ro, .c 0, .any⟩, -- Lock status (Table 12-9 Island global and measurement)
  ⟨0x7800, 0x1, 1, 0x05, 0x05, .u 4, 1, .ro, .c 0, .any⟩, -- Settings CRC (Table 12-9 Island global and measurement)
  ⟨0x7800, 0x1, 1, 0x06, 0x06, .u 2, 1, .ro, .c 0, .any⟩, -- Status (Table 12-9 Island global and measurement)
  ⟨0x7800, 0x1, 1, 0x07, 0x07, .u 4, 1, .ro, .c 0, .any⟩, -- Island faults (Table 12-9 Island global and measurement)
  ⟨0x7800, 0x1, 1, 0x08, 0x08, .u 4, 1, .ro, .c 0, .any⟩, -- Demands (Table 12-9 Island global and measurement)
  ⟨0x7800, 0x1, 1, 0x09, 0x09, .u 4, 1, .ro, .c 0, .any⟩ -- Permissive (Table 12-9 Island global and measurement)
  ]

/-- Entries 0x7801. -/
def dict7801 : List Desc := [
  ⟨0x7801, 0x1, 1, 0x01, 0x01, .f32, 1, .rwl, .c 0x40A00000, .f32 0x3F000000 0x41000000⟩, -- Nominal input amplitude (Table 12-9 Island global and measurement)
  ⟨0x7801, 0x1, 1, 0x02, 0x02, .u 1, 1, .rwl, .c 50, .oneOf [50, 60]⟩, -- Nominal frequency (Table 12-9 Island global and measurement)
  ⟨0x7801, 0x1, 1, 0x03, 0x03, .u 1, 1, .rwl, .c 6, .bwOr 0 7 255⟩, -- Cross-check pair, AIN44, AIN46 (Table 12-9 Island global and measurement)
  ⟨0x7801, 0x1, 1, 0x04, 0x04, .u 1, 1, .rwl, .c 7, .bwOr 0 7 255⟩, -- Cross-check pair, AIN44, AIN46 (Table 12-9 Island global and measurement)
  ⟨0x7801, 0x1, 1, 0x05, 0x05, .f32, 1, .rwl, .c 0x3CA3D70A, .f32 0x3BA3D70A 0x3DCCCCCD⟩, -- Cross-check tolerance (Table 12-9 Island global and measurement)
  ⟨0x7801, 0x1, 1, 0x06, 0x06, .u 2, 1, .rwl, .c 100, .bw 10 1000⟩, -- Cross-check grace (Table 12-9 Island global and measurement)
  ⟨0x7801, 0x1, 1, 0x07, 0x07, .u 1, 1, .rwl, .c 5, .bw 2 10⟩, -- Frequency window N_f (Table 12-9 Island global and measurement)
  ⟨0x7801, 0x1, 1, 0x08, 0x08, .u 2, 1, .rwl, .c 500, .bw 100 1000⟩, -- RoCoF window t_R (Table 12-9 Island global and measurement)
  ⟨0x7801, 0x1, 1, 0x09, 0x09, .f32, 1, .rwl, .c 0x3E4CCCCD, .f32 0x3D4CCCCD 0x3F4CCCCD⟩, -- Frequency blocking level (Table 12-9 Island global and measurement)
  ⟨0x7801, 0x1, 1, 0x0A, 0x0A, .f32, 1, .rwl, .c 0x3D4CCCCD, .f32 0x3C23D70A 0x3E4CCCCD⟩, -- Dead-bus level, time (Table 12-9 Island global and measurement)
  ⟨0x7801, 0x1, 1, 0x0B, 0x0B, .u 2, 1, .rwl, .c 500, .bw 100 10000⟩, -- Dead-bus level, time (Table 12-9 Island global and measurement)
  ⟨0x7801, 0x1, 1, 0x0C, 0x0C, .u 1, 1, .rwl, .c 255, .bwOr 0 3 255⟩, -- Check-synchronism circuit (Table 12-9 Island global and measurement)
  ⟨0x7801, 0x1, 1, 0x0D, 0x0D, .f32, 1, .rwl, .c 0x41A00000, .f32 0x3F800000 0x42340000⟩, -- Windows Δφ, Δf, ΔV (Table 12-9 Island global and measurement)
  ⟨0x7801, 0x1, 1, 0x0E, 0x0E, .f32, 1, .rwl, .c 0x3E4CCCCD, .f32 0x3CA3D70A 0x3F800000⟩, -- Windows Δφ, Δf, ΔV (Table 12-9 Island global and measurement)
  ⟨0x7801, 0x1, 1, 0x0F, 0x0F, .f32, 1, .rwl, .c 0x3DCCCCCD, .f32 0x3C23D70A 0x3E99999A⟩ -- Windows Δφ, Δf, ΔV (Table 12-9 Island global and measurement)
  ]

/-- Entries 0x7802. -/
def dict7802 : List Desc := [
  ⟨0x7802, 0x1, 1, 0x01, 0x03, .f32, 1, .ro, .c 0x00000000, .any⟩, -- Phase voltages (Table 12-9 Island global and measurement)
  ⟨0x7802, 0x1, 1, 0x04, 0x05, .f32, 1, .ro, .c 0x00000000, .any⟩, -- Frequency, RoCoF (Table 12-9 Island global and measurement)
  ⟨0x7802, 0x1, 1, 0x06, 0x06, .f32, 1, .ro, .c 0x00000000, .any⟩, -- Converter-side voltage (Table 12-9 Island global and measurement)
  ⟨0x7802, 0x1, 1, 0x07, 0x07, .f32, 1, .ro, .c 0x00000000, .any⟩, -- Phase difference Δφ (Table 12-9 Island global and measurement)
  ⟨0x7802, 0x1, 1, 0x08, 0x08, .f32, 1, .ro, .c 0x00000000, .any⟩ -- Largest cross-check difference (Table 12-9 Island global and measurement)
  ]

/-- Entries 0x7810 to 0x7819. -/
def dict7810 : List Desc := [
  ⟨0x7810, 0x1, 10, 0x01, 0x01, .bool, 1, .rwl, .perInst [1, 1, 0, 1, 1, 1, 0, 1, 0, 0], .oneOf [0, 1]⟩, -- Enable (Table 12-10 Stage)
  ⟨0x7810, 0x1, 10, 0x02, 0x02, .u 1, 1, .ro, .perInst [0, 0, 0, 1, 1, 2, 2, 3, 3, 4], .any⟩, -- Type (Table 12-10 Stage)
  ⟨0x7810, 0x1, 10, 0x03, 0x03, .f32, 1, .rwl, .perInst [0x3F59999A, 0x3E99999A, 0x3DCCCCCD, 0x3F8CCCCD, 0x3F99999A, 0x423E0000, 0x423C0000, 0x424E0000, 0x42500000, 0x40000000], .own⟩, -- Pickup (Table 12-10 Stage)
  ⟨0x7810, 0x1, 10, 0x04, 0x04, .u 4, 1, .rwl, .perInst [3000, 300, 50, 3000, 100, 100, 50, 100, 50, 500], .bw 50 60000⟩, -- Trip time (Table 12-10 Stage)
  ⟨0x7810, 0x1, 10, 0x05, 0x05, .f32, 1, .rwl, .perInst [0x3CA3D70A, 0x3CA3D70A, 0x3CA3D70A, 0x3CA3D70A, 0x3CA3D70A, 0x3D4CCCCD, 0x3D4CCCCD, 0x3D4CCCCD, 0x3D4CCCCD, 0x3DCCCCCD], .own⟩, -- Hysteresis (Table 12-10 Stage)
  ⟨0x7810, 0x1, 10, 0x06, 0x06, .u 1, 1, .rwl, .c 15, .mask 15⟩, -- Circuit mask (Table 12-10 Stage)
  ⟨0x7810, 0x1, 10, 0x07, 0x07, .u 1, 1, .rwl, .perInst [0, 0, 0, 1, 0, 0, 0, 0, 0, 0], .oneOf [0, 1]⟩, -- Mode (Table 12-10 Stage)
  ⟨0x7810, 0x1, 10, 0x08, 0x08, .u 1, 1, .ro, .c 0, .any⟩, -- Status (Table 12-10 Stage)
  ⟨0x7810, 0x1, 10, 0x09, 0x09, .u 4, 1, .ro, .c 0, .any⟩, -- Trips (Table 12-10 Stage)
  ⟨0x7810, 0x1, 10, 0x0A, 0x0A, .u 4, 1, .ro, .c 0, .any⟩ -- Timer (Table 12-10 Stage)
  ]

/-- Entries 0x7820 to 0x7823. -/
def dict7820 : List Desc := [
  ⟨0x7820, 0x1, 4, 0x01, 0x01, .u 4, 1, .rwl, .c 0, .any⟩, -- Batches (Table 12-11 Circuit)
  ⟨0x7820, 0x1, 4, 0x02, 0x02, .bool, 1, .rwl, .c 1, .oneOf [0, 1]⟩, -- Telegram required (Table 12-11 Circuit)
  ⟨0x7820, 0x1, 4, 0x03, 0x03, .bool, 1, .rwl, .c 0, .oneOf [0, 1]⟩, -- Contact feedback (Table 12-11 Circuit)
  ⟨0x7820, 0x1, 4, 0x04, 0x04, .u 2, 1, .rwl, .c 100, .bw 10 1000⟩, -- Closing time (Table 12-11 Circuit)
  ⟨0x7820, 0x1, 4, 0x05, 0x05, .bool, 1, .rwl, .c 0, .oneOf [0, 1]⟩, -- Dead-bus closing allowed (Table 12-11 Circuit)
  ⟨0x7820, 0x1, 4, 0x07, 0x07, .u 1, 1, .ro, .c 0, .any⟩, -- State (Table 12-11 Circuit)
  ⟨0x7820, 0x1, 4, 0x08, 0x08, .u 1, 1, .ro, .c 0, .any⟩, -- Readback (Table 12-11 Circuit)
  ⟨0x7820, 0x1, 4, 0x09, 0x09, .u 2, 1, .ro, .c 0, .any⟩, -- Coil current (Table 12-11 Circuit)
  ⟨0x7820, 0x1, 4, 0x0A, 0x0A, .u 1, 1, .ro, .c 0, .any⟩, -- Fault code (Table 12-11 Circuit)
  ⟨0x7820, 0x1, 4, 0x0B, 0x0B, .u 1, 1, .wo, .c 0, .oneOf [1, 2]⟩, -- Command (Table 12-11 Circuit)
  ⟨0x7820, 0x1, 4, 0x0C, 0x0C, .bool, 1, .wo, .c 0, .oneOf [1]⟩, -- Acknowledge (Table 12-11 Circuit)
  ⟨0x7820, 0x1, 4, 0x0D, 0x0D, .u 4, 1, .ro, .c 0, .any⟩, -- Closings (Table 12-11 Circuit)
  ⟨0x7820, 0x1, 4, 0x0E, 0x0E, .u 4, 1, .ro, .c 0, .any⟩, -- Demand openings (Table 12-11 Circuit)
  ⟨0x7820, 0x1, 4, 0x0F, 0x0F, .u 4, 1, .ro, .c 0, .any⟩, -- Test aborts (Table 12-11 Circuit)
  ⟨0x7820, 0x1, 4, 0x10, 0x10, .u 4, 1, .ro, .c 0, .any⟩ -- Tests passed (Table 12-11 Circuit)
  ]

/-- Entries 0x7830. -/
def dict7830 : List Desc := [
  ⟨0x7830, 0x1, 1, 0x01, 0x02, .u 1, 1, .rwl, .c 15, .mask 15⟩, -- SAFE_STOP_N[0], [1] mask (Table 12-12 Stop input, telegram and connection)
  ⟨0x7830, 0x1, 1, 0x03, 0x03, .u 1, 1, .ro, .c 0, .any⟩ -- Stop input status (Table 12-12 Stop input, telegram and connection)
  ]

/-- Entries 0x7840. -/
def dict7840 : List Desc := [
  ⟨0x7840, 0x1, 1, 0x01, 0x01, .bool, 1, .rwl, .c 1, .oneOf [0, 1]⟩, -- Telegram enable (Table 12-12 Stop input, telegram and connection)
  ⟨0x7840, 0x1, 1, 0x02, 0x02, .u 1, 1, .rwl, .c 0, .oneOf [0, 1]⟩, -- PRP pair (Table 12-12 Stop input, telegram and connection)
  ⟨0x7840, 0x1, 1, 0x03, 0x03, .u 4, 1, .rwl, .c 0, .any⟩, -- Safety address (Table 12-12 Stop input, telegram and connection)
  ⟨0x7840, 0x1, 1, 0x04, 0x04, .u 4, 1, .rwl, .c 0, .any⟩, -- Controller address (Table 12-12 Stop input, telegram and connection)
  ⟨0x7840, 0x1, 1, 0x05, 0x05, .u 4, 1, .rwl, .c 4294967295, .any⟩, -- CRC seed (Table 12-12 Stop input, telegram and connection)
  ⟨0x7840, 0x1, 1, 0x06, 0x06, .u 1, 1, .ro, .c 0, .any⟩, -- Status (Table 12-12 Stop input, telegram and connection)
  ⟨0x7840, 0x1, 1, 0x07, 0x07, .u 4, 1, .ro, .c 0, .any⟩, -- Accepted (Table 12-12 Stop input, telegram and connection)
  ⟨0x7840, 0x1, 1, 0x08, 0x08, .u 4, 5, .ro, .c 0, .any⟩, -- Discards: no partner, mismatch, CRC, sequence, settings CRC (Table 12-12 Stop input, telegram and connection)
  ⟨0x7840, 0x1, 1, 0x09, 0x09, .u 4, 1, .ro, .c 0, .any⟩, -- Watchdog expiries (Table 12-12 Stop input, telegram and connection)
  ⟨0x7840, 0x1, 1, 0x0A, 0x0A, .u 2, 1, .ro, .c 0, .any⟩ -- Last command word (Table 12-12 Stop input, telegram and connection)
  ]

/-- Entries 0x7850. -/
def dict7850 : List Desc := [
  ⟨0x7850, 0x1, 1, 0x01, 0x01, .f32, 1, .rwl, .c 0x3F59999A, .f32 0x3F000000 0x3F99999A⟩, -- Connection voltage low, high (Table 12-12 Stop input, telegram and connection)
  ⟨0x7850, 0x1, 1, 0x02, 0x02, .f32, 1, .rwl, .c 0x3F8CCCCD, .f32 0x3F000000 0x3F99999A⟩, -- Connection voltage low, high (Table 12-12 Stop input, telegram and connection)
  ⟨0x7850, 0x1, 1, 0x03, 0x03, .f32, 1, .rwl, .c 0x423E0000, .f32 0x42340000 0x42820000⟩, -- Connection frequency low, high (Table 12-12 Stop input, telegram and connection)
  ⟨0x7850, 0x1, 1, 0x04, 0x04, .f32, 1, .rwl, .c 0x42486666, .f32 0x42340000 0x42820000⟩, -- Connection frequency low, high (Table 12-12 Stop input, telegram and connection)
  ⟨0x7850, 0x1, 1, 0x05, 0x05, .u 2, 1, .rwl, .c 60, .bw 0 600⟩ -- Observation time (Table 12-12 Stop input, telegram and connection)
  ]

/-- Entries 0x8000 to 0x801F. -/
def dict8000 : List Desc := [
  ⟨0x8000, 0x1, 32, 0x01, 0x01, .domain 262144, 1, .rw, .c 0, .own⟩, -- Image (Table 05-9 Recipe)
  ⟨0x8000, 0x1, 32, 0x02, 0x02, .u 4, 1, .ro, .c 0, .any⟩, -- Load result (Table 05-9 Recipe)
  ⟨0x8000, 0x1, 32, 0x03, 0x03, .u 4, 1, .ro, .c 0, .any⟩, -- Recipe identifier (Table 05-9 Recipe)
  ⟨0x8000, 0x1, 32, 0x04, 0x04, .u 4, 1, .ro, .c 0, .any⟩, -- Worst-corner work (Table 05-9 Recipe)
  ⟨0x8000, 0x1, 32, 0x05, 0x05, .u 4, 1, .ro, .c 0, .any⟩, -- Image CRC (Table 05-9 Recipe)
  ⟨0x8000, 0x1, 32, 0x06, 0x06, .u 2, 1, .ro, .c 0, .any⟩, -- Blocks (Table 05-9 Recipe)
  ⟨0x8000, 0x1, 32, 0x07, 0x07, .u 1, 1, .ro, .c 0, .any⟩, -- Items (Table 05-9 Recipe)
  ⟨0x8000, 0x1, 32, 0x08, 0x08, .u 2, 1, .ro, .c 0, .any⟩, -- Fixed slots (Table 05-9 Recipe)
  ⟨0x8000, 0x1, 32, 0x09, 0x09, .u 1, 1, .ro, .c 0, .any⟩, -- Float slots (Table 05-9 Recipe)
  ⟨0x8000, 0x1, 32, 0x0A, 0x0A, .u 4, 1, .ro, .c 4294967295, .any⟩, -- First failing offset (Table 05-9 Recipe)
  ⟨0x8000, 0x1, 32, 0x0B, 0x0B, .bool, 1, .ro, .c 0, .any⟩, -- Stored (Table 05-9 Recipe)
  ⟨0x8000, 0x1, 32, 0x0C, 0x0C, .u 4, 1, .ro, .c 0, .any⟩, -- Loads (Table 05-9 Recipe)
  ⟨0x8000, 0x1, 32, 0x0D, 0x0D, .u 4, 1, .ro, .c 0, .any⟩ -- Full-range saturations (Table 05-9 Recipe)
  ]

/-- Entries 0x8200 to 0x824F. -/
def dict8200 : List Desc := [
  ⟨0x8200, 0x1, 80, 0x01, 0x01, .domain 1060, 1, .rw, .c 0, .bw 1060 1060⟩, -- Inactive-bank coefficient table (Chain coefficients (R41))
  ⟨0x8200, 0x1, 80, 0x02, 0x02, .domain 1060, 1, .ro, .c 0, .any⟩ -- Active-bank coefficient table (Chain coefficients (R41))
  ]

/-- Entries 0x8400 to 0x847F. -/
def dict8400 : List Desc := [
  ⟨0x8400, 0x1, 128, 0x01, 0x01, .domain 140, 1, .rw, .c 0, .bw 140 140⟩ -- Envelope e (Table 07-5 Ride-through)
  ]

/-- Entries 0x8480 to 0x848F. -/
def dict8480 : List Desc := [
  ⟨0x8480, 0x1, 16, 0x01, 0x01, .domain 140, 1, .rw, .c 0, .bw 140 140⟩ -- Mask envelope (Table 14-7 Trigger unit and mask)
  ]

/-- Entries 0x8600 to 0x861F. -/
def dict8600 : List Desc := [
  ⟨0x8600, 0x1, 32, 0x01, 0x02, .domain 16777216, 1, .ro, .c 0, .any⟩ -- Configuration file, data file (Table 14-6 Acquisition global and buffer)
  ]

/-- Entries 0x8700. -/
def dict8700 : List Desc := [
  ⟨0x8700, 0x1, 1, 0x01, 0x01, .domain 16777236, 1, .ro, .c 0, .any⟩ -- Snapshot (Table 14-10 Crumb-log)
  ]

/-- Entries 0x8F00. -/
def dict8F00 : List Desc := [
  ⟨0x8F00, 0x1, 1, 0x01, 0x01, .domain 16777216, 1, .wo, .c 0, .bw 120 16777216⟩ -- Firmware image (Table 17-12 Security)
  ]

/-- The rows that can cover an index outside the batch objects. -/
def rowsBy (index : Nat) : List Desc :=
  if index < 0x3108 then
    if index < 0x2300 then
      if index < 0x1800 then
        if index < 0x1016 then
          if index < 0x1008 then
            if index < 0x1001 then
              dict1000
            else
              dict1001
          else
            if index < 0x1009 then
              dict1008
            else
              if index < 0x100A then
                dict1009
              else
                dict100A
        else
          if index < 0x1018 then
            if index < 0x1017 then
              dict1016
            else
              dict1017
          else
            if index < 0x1400 then
              dict1018
            else
              if index < 0x1600 then
                dict1400
              else
                dict1600
      else
        if index < 0x2001 then
          if index < 0x1FF0 then
            if index < 0x1A00 then
              dict1800
            else
              dict1A00
          else
            if index < 0x1FF1 then
              dict1FF0
            else
              if index < 0x2000 then
                dict1FF1
              else
                dict2000
        else
          if index < 0x2103 then
            if index < 0x2100 then
              dict2001
            else
              if index < 0x2101 then
                dict2100
              else
                dict2101
          else
            if index < 0x2110 then
              dict2103
            else
              if index < 0x2200 then
                dict2110
              else
                dict2200
    else
      if index < 0x2620 then
        if index < 0x2501 then
          if index < 0x2320 then
            if index < 0x2310 then
              dict2300
            else
              dict2310
          else
            if index < 0x2400 then
              dict2320
            else
              if index < 0x2500 then
                dict2400
              else
                dict2500
        else
          if index < 0x2600 then
            if index < 0x2510 then
              dict2501
            else
              if index < 0x2520 then
                dict2510
              else
                dict2520
          else
            if index < 0x2601 then
              dict2600
            else
              if index < 0x2610 then
                dict2601
              else
                dict2610
      else
        if index < 0x2740 then
          if index < 0x2708 then
            if index < 0x2700 then
              dict2620
            else
              dict2700
          else
            if index < 0x2710 then
              dict2708
            else
              if index < 0x2720 then
                dict2710
              else
                dict2720
        else
          if index < 0x3100 then
            if index < 0x2750 then
              dict2740
            else
              if index < 0x3000 then
                dict2750
              else
                dict3000
          else
            if index < 0x3106 then
              dict3100
            else
              if index < 0x3107 then
                dict3106
              else
                dict3107
  else
    if index < 0x7030 then
      if index < 0x50A0 then
        if index < 0x3400 then
          if index < 0x3200 then
            if index < 0x3109 then
              dict3108
            else
              dict3109
          else
            if index < 0x3210 then
              dict3200
            else
              if index < 0x3230 then
                dict3210
              else
                dict3230
        else
          if index < 0x5080 then
            if index < 0x3700 then
              dict3400
            else
              if index < 0x5000 then
                dict3700
              else
                dict5000
          else
            if index < 0x5092 then
              dict5080
            else
              if index < 0x5098 then
                dict5092
              else
                dict5098
      else
        if index < 0x6520 then
          if index < 0x6000 then
            if index < 0x5100 then
              dict50A0
            else
              dict5100
          else
            if index < 0x6400 then
              dict6000
            else
              if index < 0x6500 then
                dict6400
              else
                dict6500
        else
          if index < 0x6600 then
            if index < 0x6530 then
              dict6520
            else
              if index < 0x6540 then
                dict6530
              else
                dict6540
          else
            if index < 0x7000 then
              dict6600
            else
              if index < 0x7010 then
                dict7000
              else
                dict7010
    else
      if index < 0x7820 then
        if index < 0x7101 then
          if index < 0x70C0 then
            if index < 0x7040 then
              dict7030
            else
              dict7040
          else
            if index < 0x70E0 then
              dict70C0
            else
              if index < 0x7100 then
                dict70E0
              else
                dict7100
        else
          if index < 0x7801 then
            if index < 0x7102 then
              dict7101
            else
              if index < 0x7800 then
                dict7102
              else
                dict7800
          else
            if index < 0x7802 then
              dict7801
            else
              if index < 0x7810 then
                dict7802
              else
                dict7810
      else
        if index < 0x8200 then
          if index < 0x7840 then
            if index < 0x7830 then
              dict7820
            else
              dict7830
          else
            if index < 0x7850 then
              dict7840
            else
              if index < 0x8000 then
                dict7850
              else
                dict8000
        else
          if index < 0x8600 then
            if index < 0x8400 then
              dict8200
            else
              if index < 0x8480 then
                dict8400
              else
                dict8480
          else
            if index < 0x8700 then
              dict8600
            else
              if index < 0x8F00 then
                dict8700
              else
                dict8F00

/-- The rows that can cover an index (Tables 01-4 to 18-6). -/
def rowsOf (index : Nat) : List Desc :=
  if 0x4000 ≤ index && index < 0x4400 then
    match index % 0x20 with
    | 0x00 => dict4000
    | 0x01 => dict4001
    | 0x02 => dict4002
    | 0x03 => dict4003
    | 0x04 => dict4004
    | 0x05 => dict4005
    | 0x06 => dict4006
    | 0x07 => dict4007
    | 0x08 => dict4008
    | 0x09 => dict4009
    | 0x0A => dict400A
    | 0x0B => dict400B
    | 0x0C => dict400C
    | 0x0D => dict400D
    | 0x0E => dict400E
    | 0x0F => dict400F
    | 0x10 => dict4010
    | 0x11 => dict4011
    | 0x12 => dict4012
    | 0x13 => dict4013
    | 0x14 => dict4014
    | 0x15 => dict4015
    | 0x16 => dict4016
    | 0x17 => dict4017
    | _ => []
  else rowsBy index

/-- The instance number that `index` names in a row, if the row covers it (R377). -/
def Desc.inst? (d : Desc) (index : Nat) : Option Nat :=
  if d.base ≤ index && (index - d.base) % d.stride == 0 && (index - d.base) / d.stride < d.count
  then some ((index - d.base) / d.stride) else none

/-- Whether a row covers entry `index.sub`. -/
def Desc.covers (d : Desc) (index sub : Nat) : Bool :=
  d.base ≤ index && d.lo ≤ sub && sub ≤ d.hi && (d.inst? index).isSome

/-- The row of an entry. -/
def descAt (index sub : Nat) : Option Desc := (rowsOf index).find? (fun d => d.covers index sub)

/-- Whether the dictionary has the index (R378). -/
def indexExists (index : Nat) : Bool := (rowsOf index).any (fun d => (d.inst? index).isSome)

/-- The highest subindex of an index (R346). -/
def subMax (index : Nat) : Nat :=
  (rowsOf index).foldl (fun m d => if (d.inst? index).isSome then max m d.hi else m) 0

/-- Whether an index is a record: it has values at subindex 0x01 and upward (R346). -/
def isRecord (index : Nat) : Bool := 0 < subMax index

/-- The default of element `elem` of `index.sub` (R383); `fnBits` is the batch's f_n as binary32. -/
def Desc.default (d : Desc) (index sub elem : Nat) (fnBits : Int) : Int :=
  let i := (d.inst? index).getD 0
  match d.dflt with
  | .c v => v
  | .lin a b => a * i + b
  | .md m => (i % m : Nat)
  | .dv m => (i / m : Nat)
  | .elems l => l.getD (elem - 1) 0
  | .perInst l => l.getD i 0
  | .inst0 v w => if i = 0 then v else w
  | .fn => fnBits
  | .spare => if 256 ≤ i * 16 + (sub - 1) then 1 else 0

/-- Finite binary32 patterns: no NaN, no infinity. -/
def f32Finite (v : Nat) : Bool := v / 2 ^ 23 % 256 != 255

/-- A total order key of finite binary32 patterns: the sign and magnitude as an integer (−0 and +0 alike). -/
def f32Key (v : Nat) : Int := if v / 2 ^ 31 % 2 = 1 then -((v % 2 ^ 31 : Nat) : Int) else (v % 2 ^ 31 : Nat)

/-- The range check that needs nothing but the value (R348, item 7). NaN and infinities are refused (Table 17-1). -/
def Rng.ok (r : Rng) (ty : Ty) (v : Int) : Bool :=
  let n := v.toNat
  (match ty with
   | .f32 => f32Finite n
   | .bool => v == 0 || v == 1
   | _ => true) &&
  (match r with
   | .any => true
   | .own => true
   | .bw lo hi => lo ≤ v && v ≤ hi
   | .bwOr lo hi x => (lo ≤ v && v ≤ hi) || v == x
   | .oneOf l => l.contains v
   | .f32 lo hi => f32Key lo ≤ f32Key n && f32Key n ≤ f32Key hi
   | .f32Pos => 0 ≤ f32Key n
   | .f32Norm => n % 2 ^ 31 == 0 || n / 2 ^ 23 % 256 != 0
   | .mask m => n &&& m == n
   | .step lo hi st => lo ≤ v && v ≤ hi && v % st == 0)

end Sys2Proof.Machine
end

