-- ==== Sys2Proof/Machine/Numerics.lean ====
section
/-! DEFINITION. The arithmetic of R33, R75 to R78, R107 and R140: Q15, acc40 and binary32, bit exact. -/

namespace Sys2Proof.Machine

/-! ### Fixed point (R33, R75, R76) -/

/-- Rounding shift right by `n`, half to even (R33). -/
def rne (a : Int) (n : Nat) : Int :=
  let p : Int := 2 ^ n
  let q := a / p
  let r := 2 * (a % p)
  if r > p || (r == p && q % 2 == 1) then q + 1 else q

/-- Saturation to Q15 (R33). -/
def sat16 (a : Int) : Int := max (-32768) (min 32767 a)

/-- The largest and smallest acc40 (R75). -/
def accMax : Int := 2 ^ 39 - 1
def accMin : Int := -2 ^ 39

/-- Whether `sata` saturates (R76). -/
def accOver (a : Int) : Bool := a > accMax || a < accMin

/-- Saturation to acc40, without its mark (R76). -/
def satAcc (a : Int) : Int := max accMin (min accMax a)

/-- `x` held between `lo` and `hi`, the upper bound first (R76). -/
def clampI (a lo hi : Int) : Int := if a > hi then hi else if a < lo then lo else a

/-- Q15 widened to acc40 (R76). -/
def widen (x : Int) : Int := x * 2 ^ 15

/-- Angle codes of R7 (R107). -/
def wrapa (x : Int) : Int := (x + 16384) % 32768 - 16384

/-- A Q15 or acc40 read from `w` unsigned bits. -/
def ofBits (w : Nat) (n : Nat) : Int := signed w n

/-! ### The sine table (R107) -/

/-- Entries 0 to 63 of the first quarter of the sine table. -/
def sinQ0 : List Nat := [
    0, 201, 402, 603, 804, 1005, 1206, 1407, 1608, 1809, 2009, 2210, 2411, 2611, 2811, 3012,
    3212, 3412, 3612, 3812, 4011, 4211, 4410, 4609, 4808, 5007, 5205, 5404, 5602, 5800, 5998, 6195,
    6393, 6590, 6787, 6983, 7180, 7376, 7571, 7767, 7962, 8157, 8351, 8546, 8740, 8933, 9127, 9319,
    9512, 9704, 9896, 10088, 10279, 10469, 10660, 10850, 11039, 11228, 11417, 11605, 11793, 11980, 12167, 12354]

/-- Entries 64 to 127 of the first quarter of the sine table. -/
def sinQ1 : List Nat := [
    12540, 12725, 12910, 13095, 13279, 13463, 13646, 13828, 14010, 14192, 14373, 14553, 14733, 14912, 15091, 15269,
    15447, 15624, 15800, 15976, 16151, 16326, 16500, 16673, 16846, 17018, 17190, 17361, 17531, 17700, 17869, 18037,
    18205, 18372, 18538, 18703, 18868, 19032, 19195, 19358, 19520, 19681, 19841, 20001, 20160, 20318, 20475, 20632,
    20788, 20943, 21097, 21251, 21403, 21555, 21706, 21856, 22006, 22154, 22302, 22449, 22595, 22740, 22884, 23028]

/-- Entries 128 to 191 of the first quarter of the sine table. -/
def sinQ2 : List Nat := [
    23170, 23312, 23453, 23593, 23732, 23870, 24008, 24144, 24279, 24414, 24548, 24680, 24812, 24943, 25073, 25202,
    25330, 25457, 25583, 25708, 25833, 25956, 26078, 26199, 26320, 26439, 26557, 26674, 26791, 26906, 27020, 27133,
    27246, 27357, 27467, 27576, 27684, 27791, 27897, 28002, 28106, 28209, 28311, 28411, 28511, 28610, 28707, 28803,
    28899, 28993, 29086, 29178, 29269, 29359, 29448, 29535, 29622, 29707, 29792, 29875, 29957, 30038, 30118, 30196]

/-- Entries 192 to 255 of the first quarter of the sine table. -/
def sinQ3 : List Nat := [
    30274, 30350, 30425, 30499, 30572, 30644, 30715, 30784, 30853, 30920, 30986, 31050, 31114, 31177, 31238, 31298,
    31357, 31415, 31471, 31527, 31581, 31634, 31686, 31737, 31786, 31834, 31881, 31927, 31972, 32015, 32058, 32099,
    32138, 32177, 32214, 32251, 32286, 32319, 32352, 32383, 32413, 32442, 32470, 32496, 32522, 32546, 32568, 32590,
    32610, 32629, 32647, 32664, 32679, 32693, 32706, 32718, 32729, 32738, 32746, 32753, 32758, 32762, 32766, 32767]

/-- The first quarter, i = 0 to 256. -/
def sinQuarter : List Nat := sinQ0 ++ sinQ1 ++ sinQ2 ++ sinQ3 ++ [32767]

/-- `tab[i]` of R107 for i = 0 to 1,023; only the positive peak meets the 32,767 limit. -/
def sinTab (i : Nat) : Int :=
  let i := i % 1024
  if i ≤ 256 then sinQuarter.getD i 0
  else if i ≤ 512 then sinQuarter.getD (512 - i) 0
  else if i = 768 then -32768
  else if i ≤ 768 then -(sinQuarter.getD (i - 512) 0 : Int)
  else -(sinQuarter.getD (1024 - i) 0 : Int)

/-- `sinq` (R107). -/
def sinq (th : Int) : Int :=
  let u := (th % 32768).toNat
  let i := u / 32
  let f : Int := (u % 32 : Nat)
  sinTab i + rne ((sinTab (i + 1) - sinTab i) * f) 5

/-- `cosq` (R107). -/
def cosq (th : Int) : Int := sinq (wrapa (th + 8192))

/-! ### binary32 (R78) -/

/-- A binary32 result with the marks of R78 and R79: replaced infinity, NaN. -/
structure FRes where
  v : F32
  sat : Bool := false
  nan : Bool := false
  deriving DecidableEq, Repr

/-- The sign bit. -/
def fneg? (x : F32) : Bool := x.getLsbD 31

/-- Significand of an operand, a subnormal counting as zero (R78). -/
def fman (x : F32) : Nat := if x.toNat / 2 ^ 23 % 256 = 0 then 0 else x.toNat % 2 ^ 23 + 2 ^ 23

/-- Exponent of the significand's last bit. -/
def fexp (x : F32) : Int := (x.toNat / 2 ^ 23 % 256 : Nat) - 150

/-- The exact value m·2^e as signed significand. -/
def fint (x : F32) : Int := if fneg? x then -(fman x : Int) else fman x

/-- A zero with the given sign. -/
def fzero (neg : Bool) : F32 := if neg then 0x80000000 else 0

/-- Packs sign and magnitude (exponent field `b`, 24-bit significand `m`). -/
def fpack (neg : Bool) (b m : Nat) : F32 := BitVec.ofNat 32 (b2n neg * 2 ^ 31 + b * 2 ^ 23 + (m - 2 ^ 23))

/-- The value ±(m + sticky)·2^e rounded once to nearest even, tininess after rounding, infinity replaced (R78). -/
def froundDy (neg : Bool) (m : Nat) (e : Int) (sticky : Bool) : FRes :=
  if m = 0 then ⟨fzero neg, false, false⟩ else
  let w : Int := (Nat.log2 m + 1 : Nat)
  let sh := w - 24
  let n := sh.toNat
  let p := 2 ^ n
  let q := if sh ≤ 0 then m * 2 ^ (-sh).toNat else m / p
  let r := if sh ≤ 0 then 0 else m % p
  let up := 0 < sh && (2 * r > p || (2 * r == p && (sticky || q % 2 == 1)))
  let q1 := if up then q + 1 else q
  let carry := q1 == 2 ^ 24
  let q2 := if carry then 2 ^ 23 else q1
  let b := e + sh + 150 + (if carry then 1 else 0)
  if b ≤ 0 then ⟨fzero neg, false, false⟩
  else if 255 ≤ b then ⟨if neg then 0xFF7FFFFF else 0x7F7FFFFF, true, false⟩
  else ⟨fpack neg b.toNat q2, false, false⟩

/-- The exact sum a·2^ea + b·2^eb rounded once; `zneg` is the sign of an exact zero. -/
def faddDy (a : Int) (ea : Int) (b : Int) (eb : Int) (zneg : Bool) : FRes :=
  let e := min ea eb
  let s := a * 2 ^ (ea - e).toNat + b * 2 ^ (eb - e).toNat
  if s = 0 then ⟨fzero zneg, false, false⟩ else froundDy (s < 0) s.natAbs e false

/-- Addition. -/
def faddR (x y : F32) : FRes := faddDy (fint x) (fexp x) (fint y) (fexp y) (fneg? x && fneg? y)

/-- Negation, exact. -/
def fneg (x : F32) : F32 := x ^^^ 0x80000000

/-- Magnitude, exact. -/
def fabs (x : F32) : F32 := x &&& 0x7FFFFFFF

/-- Subtraction. -/
def fsubR (x y : F32) : FRes := faddR x (fneg y)

/-- Multiplication. -/
def fmulR (x y : F32) : FRes := froundDy (fneg? x != fneg? y) (fman x * fman y) (fexp x + fexp y) false

/-- Fused multiply-add, one rounding. -/
def ffmaR (x y z : F32) : FRes :=
  let pneg := fneg? x != fneg? y
  let p : Int := fint x * fint y
  faddDy p (fexp x + fexp y) (fint z) (fexp z) (pneg && fneg? z)

/-- Division; 0 / 0 is the NaN of R79, and x / 0 is the infinity that R78 replaces. -/
def fdivR (x y : F32) : FRes :=
  let neg := fneg? x != fneg? y
  if fman y = 0 then
    if fman x = 0 then ⟨0x7FC00000, false, true⟩
    else ⟨if neg then 0xFF7FFFFF else 0x7F7FFFFF, true, false⟩
  else
    let n := fman x * 2 ^ 30
    froundDy neg (n / fman y) (fexp x - fexp y - 30) (n % fman y != 0)

/-- One bit of the integer square root, from bit `k` down. -/
def isqrtGo (n : Nat) : Nat → Nat → Nat
  | 0, r => r
  | k + 1, r =>
    let c := r + 2 ^ k
    isqrtGo n k (if c * c ≤ n then c else r)

/-- The integer square root, rounded down. -/
def isqrt (n : Nat) : Nat := isqrtGo n (Nat.log2 n / 2 + 1) 0

/-- Square root, correctly rounded; of a negative number the NaN of R79. -/
def fsqrtR (x : F32) : FRes :=
  if fman x = 0 then ⟨fzero (fneg? x), false, false⟩
  else if fneg? x then ⟨0x7FC00000, false, true⟩
  else
    let e := fexp x
    let odd := e % 2
    let m := fman x * 2 ^ (36 + odd.toNat)
    let r := isqrt m
    froundDy false r ((e - odd - 36) / 2) (r * r != m)

/-- Order of two values, −0 and +0 equal. -/
def fkey (x : F32) : Int := if fman x = 0 then 0 else if fneg? x then -((fabs x).toNat : Int) else (fabs x).toNat
def flt (x y : F32) : Bool := fkey x < fkey y
def fle (x y : F32) : Bool := fkey x ≤ fkey y
def feq (x y : F32) : Bool := fkey x == fkey y

/-- The functions of R87 that are exact. -/
def fmin (x y : F32) : F32 := if flt y x then y else x
def fcopySign (x s : F32) : F32 := if fneg? s then fabs x ||| 0x80000000 else fabs x
def fclamp (x lo hi : F32) : F32 := if flt hi x then hi else if flt x lo then lo else x

/-- An exact value m·2^e as a rational. -/
def fval (x : F32) : Rat :=
  if 0 ≤ fexp x then ((fint x * 2 ^ (fexp x).toNat : Int) : Rat) else mkRat (fint x) (2 ^ (-fexp x).toNat)

/-- A rational rounded once to binary32 (R140). -/
def fofRat (q : Rat) : F32 :=
  if q.num = 0 then 0 else
  let n := q.num.natAbs
  let k : Int := 30 + (Nat.log2 q.den : Int) - (Nat.log2 n : Int)
  let a := n * 2 ^ k.toNat
  let d := q.den * 2 ^ (-k).toNat
  (froundDy (q.num < 0) (a / d) (-k) (a % d != 0)).v

/-- The square root of a non-negative rational, rounded once to binary32 (R140). -/
def fsqrtRat (q : Rat) : F32 :=
  if q.num ≤ 0 then 0 else
  let n := q.num.natAbs
  let k : Int := 40 + ((Nat.log2 q.den : Int) - (Nat.log2 n : Int)) / 2
  let a := n * 4 ^ k.toNat
  let d := q.den * 4 ^ (-k).toNat
  let m := a / d
  let r := isqrt m
  (froundDy false r (-k) (r * r != m || a % d != 0)).v

/-- Nearest integer to a rational, ties to even. -/
def roundRat (q : Rat) : Int :=
  let f := q.num / (q.den : Int)
  let r := 2 * (q.num % (q.den : Int))
  if r > q.den || (r == q.den && f % 2 == 1) then f + 1 else f

/-- The square root of a non-negative rational, rounded half to even to an integer (R140). -/
def roundSqrtRat (q : Rat) : Int :=
  let n := q.num.toNat
  let r := isqrt (4 * n / q.den)
  -- r = ⌊2√q⌋: odd means a remainder of at least a half
  let exact := r * r * q.den == 4 * n
  if r % 2 = 0 then (r / 2 : Nat)
  else if exact && (r / 2) % 2 == 0 then (r / 2 : Nat) else (r / 2 + 1 : Nat)

/-- An integer as binary32, rounded once. -/
def fofInt (n : Int) : F32 := (froundDy (n < 0) n.natAbs 0 false).v

/-- m·2^−k as binary32, rounded once (Table 04-1: Q15 with k = 15, acc40 with k = 30). -/
def fofFix (n : Int) (k : Nat) : F32 := (froundDy (n < 0) n.natAbs (-(k : Int)) false).v

/-- f·2^k to the nearest integer, ties to even (Table 04-1). -/
def ftoFix (x : F32) (k : Nat) : Int := roundRat (fval x * (2 ^ k : Nat))

/-- F32 to Q15 (Table 04-1); the mark says that it saturated. -/
def f32ToQ15 (x : F32) : Int × Bool :=
  let n := ftoFix x 15
  (sat16 n, n != sat16 n)

/-- F32 to acc40 (Table 04-1). -/
def f32ToAcc (x : F32) : Int × Bool :=
  let n := ftoFix x 30
  (satAcc n, accOver n)

/-- acc40 to Q31 and Q31 to acc40 (Table 04-1). -/
def accToQ31 (a : Int) : Int := max (-2 ^ 31) (min (2 ^ 31 - 1) (2 * a))
def q31ToAcc (x : Int) : Int := rne x 1

/-- 1.0 as binary32. -/
def f1 : F32 := 0x3F800000

end Sys2Proof.Machine
end

