-- ==== Sys2Proof/Machine/RecipeImage.lean ====
section
/-! DEFINITION. The recipe image (R95 to R101): header, items, block records, resources, constants and initial banks, the
block library's shapes and operation counts (Tables 05-8, 06-1, 07-1), and the checks of Table 05-7 that need the image
alone. -/

namespace Sys2Proof.Machine

/-- One entry of the item table (Table 05-3). -/
structure Item where
  off : Nat
  kind : Nat
  first : Nat
  count : Nat
  /-- The reserved bytes, 0 in a good image. -/
  rsv : Nat
  deriving DecidableEq, Repr

/-- One block record (Table 05-4); `off` is its byte offset in the image. -/
structure Block where
  off : Nat
  code : Nat
  outs : Nat
  slot : Nat
  slotCount : Nat
  role : Nat
  mode : Nat
  param : Nat
  outSig : Nat
  recLen : Nat
  opnds : List Nat
  /-- The two bytes after an odd number of operands, 0 in a good image. -/
  pad : Nat
  deriving DecidableEq, Repr

/-- One resource entry (Table 05-6). -/
structure Res where
  off : Nat
  ty : Nat
  flags : Nat
  num : Nat
  deriving DecidableEq, Repr

/-- A recipe, read from its image. -/
structure Recipe where
  kind : Nat
  target : Nat
  cycle : Nat
  cls : Nat
  sigCount : Nat
  fixedUsed : Nat
  floatUsed : Nat
  gensUsed : Nat
  ident : Nat
  items : List Item
  blocks : List Block
  res : List Res
  /-- Whether an entry of type 0 ends the resource table (R100). -/
  resEnd : Bool
  q15 : List Int
  f32 : List Nat
  banks : List Byte
  bankOff : Nat
  constOff : Nat
  deriving DecidableEq, Repr

/-- `x` rounded up to a multiple of 4. -/
def up4 (x : Nat) : Nat := (x + 3) / 4 * 4

/-- The record at byte `off` (Table 05-4). -/
def readBlock (img : List Byte) (off : Nat) : Block :=
  let r := slice off 276 img
  { off := off
    code := leAt 0 2 r
    outs := leAt 3 1 r
    slot := leAt 4 2 r
    slotCount := leAt 6 1 r
    role := leAt 7 1 r
    mode := leAt 8 2 r
    param := leAt 0xA 2 r
    outSig := leAt 0xC 2 r
    recLen := leAt 0xE 2 r
    opnds := (List.range (leAt 2 1 r)).map (fun i => leAt (0x10 + 2 * i) 2 r)
    pad := if leAt 2 1 r % 2 = 1 then leAt (0x10 + 2 * leAt 2 1 r) 2 r else 0 }

/-- `n` records from byte `off`, as long as each record's length lies at its place. -/
def readBlocks (img : List Byte) : Nat → Nat → List Block
  | 0, _ => []
  | n + 1, off =>
    let b := readBlock img off
    b :: readBlocks img n (off + up4 (16 + 2 * b.opnds.length))

/-- The resource entries before the terminator (R100). -/
def readRes (img : List Byte) : Nat → Nat → List Res
  | 0, _ => []
  | n + 1, off =>
    let ty := leAt off 1 img
    if ty = 0 then [] else ⟨off, ty, leAt (off + 1) 1 img, leAt (off + 2) 2 img⟩ :: readRes img n (off + 4)

/-- Reads a recipe from an image whose header passed step 2. -/
def readRecipe (img : List Byte) : Recipe :=
  let h := slice 0 0x40 img
  let itemOff := leAt 0x20 4 h
  let blockOff := leAt 0x24 4 h
  let resOff := leAt 0x28 4 h
  let constOff := leAt 0x2C 4 h
  let bankOff := leAt 0x30 4 h
  let nq := leAt 0x1A 2 h
  let nf := leAt 0x1C 2 h
  { kind := leAt 6 1 h
    target := leAt 7 1 h
    cycle := leAt 0xC 4 h
    cls := leAt 0x10 1 h
    sigCount := leAt 0x14 2 h
    fixedUsed := leAt 0x16 2 h
    floatUsed := leAt 0x18 1 h
    gensUsed := leAt 0x19 1 h
    ident := leAt 0x38 4 h
    items := (List.range (leAt 0x11 1 h)).map (fun i =>
      let o := itemOff + 8 * i
      ⟨o, leAt o 1 img, leAt (o + 2) 2 img, leAt (o + 4) 2 img, leAt (o + 1) 1 img + leAt (o + 6) 2 img⟩)
    blocks := readBlocks img (leAt 0x12 2 h) blockOff
    res := readRes img ((constOff - resOff) / 4) resOff
    resEnd := (List.range ((constOff - resOff) / 4)).any (fun i => leAt (resOff + 4 * i) 1 img == 0)
    q15 := (List.range nq).map (fun i => ofBits 16 (leAt (constOff + 2 * i) 2 img))
    f32 := (List.range nf).map (fun i => leAt (constOff + 2 * nq + 4 * i) 4 img)
    banks := img.drop bankOff
    bankOff := bankOff
    constOff := constOff }

/-- Step 2 of Table 05-7: header bytes, version, lengths, offsets, counts and CRC. -/
def headerOk (img : List Byte) : Bool :=
  let n := img.length
  let h := slice 0 0x40 img
  let itemOff := leAt 0x20 4 h
  let blockOff := leAt 0x24 4 h
  let resOff := leAt 0x28 4 h
  let constOff := leAt 0x2C 4 h
  let bankOff := leAt 0x30 4 h
  let items := leAt 0x11 1 h
  96 ≤ n && n ≤ 262144 && slice 0 4 h == [0x43, 0x51, 0x52, 0x43] && leAt 4 2 h == 1 && leAt 8 4 h == n
  && [itemOff, blockOff, resOff, constOff, bankOff].all (fun o => o % 4 == 0)
  && 0x40 ≤ itemOff && itemOff + 8 * items ≤ blockOff && blockOff ≤ resOff && resOff + 4 ≤ constOff
  && constOff + up4 (2 * leAt 0x1A 2 h + 4 * leAt 0x1C 2 h) ≤ bankOff
  && bankOff + 16 * leAt 0x16 2 h + 64 * leAt 0x18 1 h + 4 ≤ n
  && leAt 0x10 1 h ≤ 2 && 1 ≤ items && items ≤ 30 && 1 ≤ leAt 0x12 2 h && leAt 0x12 2 h ≤ 1024 && leAt 0x14 2 h ≤ 4096
  && leAt 0x1A 2 h ≤ 2048 && leAt 0x1C 2 h ≤ 2048 && leAt 0x1E 2 h == 0 && leAt 0x3C 4 h == 0
  && leAt (n - 4) 4 img == crc32 (img.take (n - 4))

/-! ### The block library's shapes -/

/-- What type an operand or an output has; `any` is an operand that takes its source's type (Publish). -/
inductive STy where
  | q | f | any
  deriving DecidableEq, Repr

/-- Operation counts by class (Table 03-1). -/
structure Ops where
  mac : Nat := 0
  s : Nat := 0
  lu : Nat := 0
  f : Nat := 0
  dv : Nat := 0
  cv : Nat := 0
  deriving DecidableEq, Repr

/-- Worst-corner time in ns (Table 03-1). -/
def Ops.ns (o : Ops) : Nat := 8 * o.mac + 4 * o.s + 8 * o.lu + 14 * o.f + 56 * o.dv + 8 * o.cv

/-- The shape of a block: operand and output types, slots of its run, operation counts. -/
structure Shape where
  ins : List STy
  outs : List STy
  fixed : Nat := 0
  float : Nat := 0
  ops : Ops := {}
  deriving DecidableEq, Repr

/-- Compare-exchanges of the merge network over `n` entries (R116). -/
def comparators (n : Nat) : Nat :=
  if n ≤ 1 then 0 else if n ≤ 2 then 1 else if n ≤ 4 then 5 else if n ≤ 8 then 19 else if n ≤ 16 then 63 else 191

/-- `n` Q15 operands. -/
def qs (n : Nat) : List STy := List.replicate n .q
/-- `n` F32 operands. -/
def fs (n : Nat) : List STy := List.replicate n .f

/-- The shape that Table 05-8, 06-1 or 07-1 gives a record by its code, mode, parameter and counts; `none` where a count,
mode or parameter is outside the table. `ch` is the number of channels of the recipe (Link pack). -/
def Block.shape (b : Block) (ch : Nat) : Option Shape :=
  let i := b.opnds.length
  let o := b.outs
  let plain (ok : Bool) (x : Shape) : Option Shape := if ok && b.mode == 0 && b.param == 0 then some x else none
  let moded (ok : Bool) (x : Shape) : Option Shape := if ok && b.param == 0 then some x else none
  match b.code with
  | 0x0001 =>
    if i == 0 && o == 1 && b.mode == 0 && b.param / 256 ≤ 17 && b.param % 256 < 8 then
      some { ins := [], outs := qs 1, ops := { s := 1 } } else none
  | 0x0002 =>
    let x : Shape := if b.mode = 0 then { ins := qs i, outs := fs i, ops := { cv := i } }
      else { ins := fs i, outs := qs i, ops := { cv := i } }
    moded (1 ≤ i && i ≤ 8 && o == i && b.mode ≤ 1) x
  | 0x0003 => plain (1 ≤ i && i ≤ 4 && o == 1) { ins := qs i, outs := qs 1, fixed := 1, ops := { mac := i, s := 2 } }
  | 0x0010 =>
    if b.mode = 0 then moded (i == 3 && o == 2) { ins := qs 3, outs := qs 2, ops := { mac := 5, s := 2 } }
    else moded (i == 3 && o == 3 && b.mode == 1) { ins := qs 3, outs := qs 3, ops := { mac := 8, s := 3 } }
  | 0x0011 => plain (i == 2 && o == 3) { ins := qs 2, outs := qs 3, ops := { mac := 4, s := 3 } }
  | 0x0012 => plain (i == 3 && o == 2) { ins := qs 3, outs := qs 2, ops := { lu := 2, mac := 6, s := 3 } }
  | 0x0013 =>
    plain ((i == 3 || i == 4) && o == 2) { ins := qs i, outs := qs 2, ops := { lu := 2, mac := 6, s := i } }
  | 0x0014 => plain (i == 3 && o == 4) { ins := qs 3, outs := qs 4, fixed := 2, ops := { mac := 16, s := 16 } }
  | 0x0020 => plain (i == 2 && o == 1) { ins := qs 2, outs := qs 1, fixed := 1, ops := { mac := 2, s := 5 } }
  | 0x0021 => plain (i == 3 && o == 1) { ins := qs 3, outs := qs 1, fixed := 1, ops := { mac := 5, s := 9 } }
  | 0x0030 => plain (i == 1 && o == 1) { ins := qs 1, outs := qs 1, fixed := 1, ops := { mac := 2, s := 2 } }
  | 0x0031 => plain (i == 1 && o == 1) { ins := qs 1, outs := qs 1, fixed := 1, ops := { mac := 5, s := 4 } }
  | 0x0040 => plain (1 ≤ i && i ≤ 8 && o == i) { ins := qs i, outs := qs i, fixed := 1, ops := { s := i } }
  | 0x0041 => plain (i == 1 && o == 1) { ins := qs 1, outs := qs 1, fixed := 1, ops := { s := 4 } }
  | 0x0042 =>
    moded (1 ≤ o && o ≤ 8 && b.mode ≤ 1 && i == 2 * o + b.mode) { ins := qs i, outs := qs o, ops := { s := o + 1 } }
  | 0x0050 => plain (i == 4 && o == 2) { ins := qs 4, outs := fs 2, float := 1, ops := { cv := 4, f := 14 } }
  | 0x0051 =>
    plain (i == 2 && o == 2) { ins := qs 2, outs := qs 2, fixed := 2, ops := { lu := 2, mac := 7, s := 10 } }
  | 0x0052 => plain (i ≤ 1 && o == 1) { ins := qs i, outs := qs 1, fixed := 1, ops := { mac := 1, s := 3 } }
  | 0x0060 =>
    if i == 8 && o == 3 && b.mode == 0 && b.param < 1024 then
      some { ins := fs 8, outs := [.q, .q, .f], float := 1, ops := { f := 30, dv := 1, cv := 3, s := 6 } } else none
  | 0x0061 =>
    plain ((i == 3 || i == 5 || i == 6) && o == 2)
      { ins := qs i, outs := qs 2, fixed := 1, ops := { mac := 4, s := 8 } }
  | 0x0062 =>
    moded ((i == 3 || i == 5) && o == 2 && b.mode ≤ 1)
      { ins := qs i, outs := qs 2, fixed := 2, ops := { lu := 4, mac := 16, s := 18 } }
  | 0x0063 =>
    if i == 5 && o == 4 && b.mode == 0 && 2 ≤ b.param && b.param ≤ 50 then
      some { ins := qs 5, outs := [.q, .q, .q, .f], float := 1,
             ops := { lu := 6, mac := 2, s := 10, cv := 12, f := 52, dv := 2 } } else none
  | 0x0064 =>
    plain (i == 3 && o == 2) { ins := qs 3, outs := qs 2, float := 1, ops := { cv := 3, f := 12, dv := 2, s := 3 } }
  | 0x0065 =>
    plain ((i == 2 || i == 3 || i == 5) && (o == 2 || (o == 4 && i == 5)))
      { ins := qs i, outs := qs o, float := 1, ops := { cv := 7, f := 20, dv := 5, s := 8 } }
  | 0x0066 =>
    plain (i == 4 && o == 5) { ins := qs 4, outs := qs 5, float := 1, ops := { cv := 6, f := 18, dv := 1, s := 6 } }
  | 0x0070 =>
    let ops : Ops := match b.mode with
      | 0 => { s := 3 }
      | 1 => { lu := 1, mac := 3, s := 5 }
      | 2 => { s := 8 }
      | _ => { s := 10 }
    moded ((i == 5 || (i == 3 && b.mode != 1)) && o == 3 && b.mode ≤ 3) { ins := qs i, outs := qs 3, ops := ops }
  | 0x0071 =>
    moded (1 ≤ i && i ≤ 3 && 1 ≤ b.mode && b.mode ≤ 8 && o == i * b.mode)
      { ins := qs i, outs := qs o, ops := { mac := i, s := 2 * i * b.mode } }
  | 0x0072 => plain (1 ≤ i && i ≤ 32 && o == 2 * i) { ins := qs i, outs := qs o, ops := { s := 4 * i } }
  | 0x0073 =>
    if b.mode = 0 then moded (1 ≤ i && i ≤ 32 && o == i) { ins := qs i, outs := qs o, ops := { s := comparators i } }
    else moded (b.mode == 1 && 1 ≤ o && o ≤ 32 && i == o + 2) { ins := qs i, outs := qs o, ops := { s := 2 * o + 1 } }
  | 0x0074 =>
    plain (1 ≤ i && i ≤ 32 && o == i)
      { ins := qs i, outs := qs o, fixed := 1, ops := { mac := 2 * i, s := 2 * i + 1 } }
  | 0x0080 =>
    if 1 ≤ i && i ≤ 64 && o == 0 && b.mode == 0 && b.param + i ≤ 256 then
      some { ins := qs i, outs := [], ops := { s := i } } else none
  | 0x0081 =>
    if i == 0 && o == 0 && 1 ≤ b.mode && b.mode ≤ 768 && b.param < 768 then
      some { ins := [], outs := [], ops := { s := 4 * b.mode + 2 * ch } } else none
  | 0x0090 =>
    if 1 ≤ i && i ≤ 128 && o == 0 && b.mode == 0 && b.param + i ≤ 128 then
      some { ins := List.replicate i .any, outs := [], ops := { s := i } } else none
  | _ => none

/-- Whether a block code is permitted in a batch kind (R106). -/
def codePermitted (code kind : Nat) : Bool := code < 0x60 || 0x6F < code || (1 ≤ kind && kind ≤ 3)

/-- The blocks of a code. -/
def Recipe.byCode (r : Recipe) (c : Nat) : List Block := r.blocks.filter (fun b => b.code == c)

/-- Channels, nodes, chains and generators of the resource table. -/
def Recipe.channels (r : Recipe) : List Nat := (r.res.filter (fun e => e.ty == 3)).map (·.num)
def Recipe.nodes (r : Recipe) : List Nat := (r.res.filter (fun e => e.ty == 2)).map (·.num)
def Recipe.chains (r : Recipe) : List Nat := (r.res.filter (fun e => e.ty == 1)).map (·.num)
def Recipe.gens (r : Recipe) : List Nat := (r.res.filter (fun e => e.ty == 4)).map (·.num)
/-- The chains marked with a feedback role: 0 other, 1 current, 2 voltage (R85). -/
def Recipe.marked (r : Recipe) (role : Nat) : List Nat :=
  (r.res.filter (fun e => e.ty == 1 && e.flags == role)).map (·.num)
/-- The black-start ramp generators (R88). -/
def Recipe.ramps (r : Recipe) : List Nat := (r.res.filter (fun e => e.ty == 4 && e.flags % 2 == 1)).map (·.num)

def Recipe.shapeOf (r : Recipe) (b : Block) : Shape := (b.shape r.channels.length).getD { ins := [], outs := [] }

/-- The slots of a block's run, the virtual machine's fixed slot included. -/
def Recipe.slotsOf (r : Recipe) (b : Block) : List Nat :=
  let sh := r.shapeOf b
  (if sh.fixed + sh.float = 0 then [] else (List.range (sh.fixed + sh.float)).map (· + b.slot))
  ++ (if b.code = 0x60 then [b.param] else [])

/-- Every slot of the recipe. -/
def Recipe.slots (r : Recipe) : List Nat := r.blocks.flatMap r.slotsOf

/-- The resource entries that publish a signal: type 0x05 (R100). -/
def Recipe.publications (r : Recipe) : List Res := r.res.filter (fun e => e.ty == 5)

/-- The loop role the recipe gives a slot: the role of its block. -/
def Recipe.roleOf (r : Recipe) (sl : Nat) : Nat :=
  ((r.blocks.find? (fun b => (r.slotsOf b).contains sl)).map (·.role)).getD 0

/-- The type and producer position of each signal, in record order. -/
def Recipe.signals (r : Recipe) : List (Nat × STy) :=
  r.blocks.flatMap (fun b =>
    (List.range b.outs).map (fun k => (b.outSig + k, (r.shapeOf b).outs.getD k .q)))

/-- Step 4 of Table 05-7 on one record; `lim` is the end of the block section. -/
def blockOk (kind ch lim sigCount : Nat) (b : Block) : Bool :=
  match b.shape ch with
  | none => false
  | some sh =>
    codePermitted b.code kind && b.recLen == up4 (16 + 2 * b.opnds.length) && b.off + b.recLen ≤ lim
    && b.slotCount == sh.fixed + sh.float && b.role ≤ 3
    && (if b.outs = 0 then b.outSig == 0xFFFF else b.outSig + b.outs ≤ sigCount)

/-- Whether a record's run of slots is of the kind its block needs (Table 05-4, step 6): 0xFFFF where it takes none. -/
def Recipe.slotKindOk (r : Recipe) (b : Block) : Bool :=
  let sh := r.shapeOf b
  if sh.fixed + sh.float = 0 then b.slot == 0xFFFF
  else if sh.float = 0 then b.slot + sh.fixed ≤ 1024 else 1024 ≤ b.slot && b.slot + sh.float ≤ 1088

/-- Whether a resource entry stands within Table 05-6 by itself; a publication (type 0x05) must name the signal that a Publish block gives
its index, where one does (R100, R117; DESIGN CHOICE, notes/assumptions/110). -/
def Recipe.resOk (r : Recipe) (e : Res) : Bool := match e.ty with
  | 1 => e.flags ≤ 2 && e.num < 80
  | 2 => e.flags == 0 && e.num < 768
  | 3 => e.flags == 0 && e.num < 256
  | 4 => e.flags ≤ 1 && e.num < 64
  | 5 => e.flags < 128 && (r.signals.any (fun p => p.1 == e.num)) && (r.byCode 0x90).all (fun k =>
      !(decide (k.param ≤ e.flags) && decide (e.flags < k.param + k.opnds.length)) || k.opnds.getD (e.flags - k.param) 0 == e.num)
  | _ => false

/-- The first entry that repeats the object of an earlier one: a chain, node, channel or generator, or a publish index. -/
def repeated : List Res → List Res → Option Res
  | [], _ => none
  | e :: rest, seen =>
    if seen.any (fun x => x.ty == e.ty && (if e.ty = 5 then x.flags == e.flags else x.num == e.num)) then some e
    else repeated rest (e :: seen)

/-- The first record whose slots repeat those of an earlier one. -/
def Recipe.slotClash (r : Recipe) : List Block → List Nat → Option Block
  | [], _ => none
  | b :: rest, seen =>
    let mine := r.slotsOf b
    if mine.all (fun x => !(seen.contains x)) && decide mine.Nodup then r.slotClash rest (mine ++ seen) else some b

/-- The type of an operand's source, `none` where the source is not present (R98, step 5). `sigs` are the signals of the
records before it, `b` the batch. A setpoint read by a record that expects no type is Q15 (DESIGN CHOICE, notes/assumptions/110). -/
def Recipe.sourceTy (r : Recipe) (b : Nat) (sigs : List (Nat × STy)) (want : STy) (op : Nat) : Option STy :=
  let x := op % 4096
  let chain (t : STy) : Option STy := if r.chains.contains x then some t else none
  match op / 4096 with
  | 0x0 => (sigs.find? (fun p => p.1 == x)).map (·.2)
  | 0x1 => chain .q
  | 0x2 => chain .q
  | 0x3 => if x / 4 < r.nodes.length then some .q else none
  | 0x4 => if x / 128 ≠ b then some (if want = .any then .q else want) else none
  | 0x5 => if x < 64 && r.gens.contains x then some .f else none
  | 0x6 =>
    if x / 2048 = 0 then (if x % 2048 < r.q15.length then some .q else none)
    else if x % 2048 < r.f32.length then some .f else none
  | 0x7 => if 1 ≤ x && x ≤ 4 then some .f else none
  | 0x8 => if x / 4 % 16 = 0 then some .q else none
  | 0x9 => if r.chains.contains (x / 16) && x % 16 ≤ 2 then some .q else none
  | 0xA => chain .f
  | 0xB => if r.slots.contains x then some (if x < 1024 then .q else .f) else none
  | _ => none

/-- Step 5 on the operands of the records, in order: the offset of the first record that fails. -/
def Recipe.operandsFail (r : Recipe) (b : Nat) : List Block → List (Nat × STy) → Option Nat
  | [], _ => none
  | k :: rest, sigs =>
    let sh := r.shapeOf k
    let ok := (List.zip k.opnds sh.ins).all (fun p =>
      match r.sourceTy b sigs p.2 p.1 with
      | none => false
      | some t => p.2 == .any || t == p.2)
    let mine := (List.range k.outs).map (fun j => (k.outSig + j, sh.outs.getD j .q))
    if ok && mine.all (fun m => !(sigs.any (fun p => p.1 == m.1))) then r.operandsFail b rest (sigs ++ mine)
    else some k.off

/-- The records of an item (R96). -/
def Recipe.itemBlocks (r : Recipe) (i : Nat) : List Block :=
  match r.items[i]? with
  | none => []
  | some it => (r.blocks.drop it.first).take it.count

/-- Worst-corner work of item `i` in ns (R53): 60 ns entry and exit and its operations. -/
def Recipe.itemWork (r : Recipe) (i : Nat) : Nat :=
  60 + ((r.itemBlocks i).map (fun b => (r.shapeOf b).ops.ns)).sum

/-- Worst-corner work W_b (R53). -/
def Recipe.work (r : Recipe) : Nat := ((List.range r.items.length).map r.itemWork).sum

/-- The longest item (R56). -/
def Recipe.longest (r : Recipe) : Nat := ((List.range r.items.length).map r.itemWork).foldl max 0

/-- The signals that depend on signal set `base` through the records (R102, step 7). -/
def dependents : List Block → List Nat → List Nat
  | [], acc => acc
  | b :: rest, acc =>
    let hit := b.opnds.any (fun o => o / 4096 == 0 && acc.contains (o % 4096))
    dependents rest (if hit then acc ++ (List.range b.outs).map (· + b.outSig) else acc)

/-- The output signals of a block. -/
def Block.signals (b : Block) : List Nat := (List.range b.outs).map (· + b.outSig)

/-- The block that produces a class 0x0 operand. -/
def Recipe.producer (r : Recipe) (op : Nat) : Option Block :=
  if op / 4096 = 0 then r.blocks.find? (fun b => b.signals.contains (op % 4096)) else none

/-- The first item that fails R96 or R97: reserved bytes, a gap in the records, a falling kind, or a packet item out of its
place. `n` is the next record and `k` the kind before. -/
def Recipe.badItem (r : Recipe) : List Item → Nat → Nat → Option Item
  | [], _, _ => none
  | it :: rest, n, k =>
    if it.rsv == 0 && it.first == n && 1 ≤ it.count && n + it.count ≤ r.blocks.length && k ≤ it.kind && it.kind ≤ 3
      && (it.kind != 3 || (r.cls == 1 && rest.isEmpty)) && !(rest.isEmpty && r.cls == 1 && it.kind != 3)
      && !(rest.isEmpty && n + it.count != r.blocks.length)
    then r.badItem rest (n + it.count) it.kind
    else some it

/-- The grid-forming structure of R121 and R141; a block's reference operand is its first (Table 05-8). -/
def Recipe.formingOk (r : Recipe) : Bool :=
  let opAt (b : Block) (k : Nat) : Nat := b.opnds.getD k 0xFFFF
  let sigOp (b : Block) (k : Nat) : Nat := b.outSig + k
  if r.kind = 1 || r.kind = 2 then
    match r.byCode 0x60, r.byCode 0x64, r.byCode 0x65 with
    | [vm], [vil], [rl] =>
      ((r.producer (opAt vm 0)).map (fun b => b.code == 0x50 && opAt vm 0 == b.outSig && opAt vm 1 == b.outSig + 1)).getD false
      && r.blocks.any (fun b => b.role == 1 && b.slotCount != 0) && r.blocks.any (fun b => b.role == 2 && b.slotCount != 0)
      && opAt vil 0 == sigOp vm 1
      && (r.byCode 0x61).any (fun z => opAt z 3 == vil.outSig && opAt z 4 == vil.outSig + 1)
      && (r.blocks.filter (fun b => b.role == 1 && b.slotCount != 0)).all (fun b => opAt b 0 == rl.outSig || opAt b 0 == rl.outSig + 1)
      && [0, 1].all (fun k => r.blocks.any (fun b => b.role == 1 && b.slotCount != 0 && opAt b 0 == rl.outSig + k))
      && [0, 1].all (fun k => ((r.producer (opAt rl k)).map (fun b => b.code == 0x20 && b.role == 2)).getD false)
      && (r.byCode 0x66).length ≤ (if r.kind = 1 then 1 else 0)
      && (r.byCode 0x66).all (fun j => r.blocks.all (fun b =>
            b.code == 0x65 || b.code == 0x62 || b.opnds.all (fun o => !(o / 4096 == 0 && j.signals.contains (o % 4096)))))
      && (r.kind == 1 || (r.byCode 0x62).isEmpty)
    | _, _, _ => false
  else if r.kind = 3 then
    (r.byCode 0x65).length == 1 && (r.byCode 0x64).isEmpty && (r.byCode 0x66).isEmpty
  else true

/-- The first channel-output block that writes a channel outside the membership or one that an operand before it writes. -/
def Recipe.badOutput (r : Recipe) : List Block → List Nat → Option Block
  | [], _ => none
  | b :: rest, seen =>
    let mine := (List.range b.opnds.length).map (· + b.param)
    if b.code != 0x80 then r.badOutput rest seen
    else if mine.all (fun c => r.channels.contains c && !(seen.contains c)) then r.badOutput rest (mine ++ seen)
    else some b

/-- The rest of step 7 of Table 05-7: every member channel is written, the link-pack block stands where it must, a path-select
block in mode 0 stands before every channel output of a grid-forming recipe, and R121 and R141 hold. -/
def Recipe.structureOk (r : Recipe) : Bool :=
  let chOut := r.byCode 0x80
  let written := chOut.flatMap (fun b => (List.range b.opnds.length).map (· + b.param))
  let outOps := chOut.flatMap (·.opnds)
  let sel := r.blocks.filter (fun b => b.code == 0x42 && b.mode == 0)
  r.channels.all (fun c => written.contains c)
  && (r.byCode 0x81).length == (if r.cls = 1 then 1 else 0)
  && (if r.kind = 1 || r.kind = 2 then
        sel.any (fun p => outOps.all (fun o => o / 4096 == 0 && (dependents r.blocks p.signals).contains (o % 4096)))
      else true)
  && r.formingOk

/-- Step 7 of Table 05-7: the offset of the first item or record that fails, that of the block section where the structure as a
whole fails. `sec` is the block section's offset. -/
def Recipe.structureFail (r : Recipe) (sec : Nat) : Option Nat :=
  match r.badItem r.items 0 0 with
  | some it => some it.off
  | none => match r.blocks.find? (fun b => b.pad != 0) with
    | some b => some b.off
    | none => match r.badOutput r.blocks [] with
      | some b => some b.off
      | none => if r.structureOk then none else some sec

/-- Finite, normal or zero (R82, R101). -/
def coeffOk (v : Nat) : Bool := v % 2 ^ 31 == 0 || (v / 2 ^ 23 % 256 != 0 && v / 2 ^ 23 % 256 != 255)

/-- The exponents of bank word 5 are 0 to 9 (R82). -/
def expsOk (w : Nat) : Bool := (List.range 4).all (fun i => w / 16 ^ i % 16 ≤ 9)

/-- Words of the `i`-th fixed bank image and coefficients of the `j`-th float bank image (R101). -/
def Recipe.fixedBank (r : Recipe) (i : Nat) : List Nat := (List.range 8).map (fun k => leAt (16 * i + 2 * k) 2 r.banks)
def Recipe.floatBank (r : Recipe) (j : Nat) : List Nat :=
  (List.range 16).map (fun k => leAt (16 * r.fixedUsed + 64 * j + 4 * k) 4 r.banks)

/-- Step 8 of Table 05-7: the offset of the first constant or bank entry that fails. -/
def Recipe.banksFail (r : Recipe) : Option Nat :=
  let c := (List.range r.f32.length).find? (fun i => !coeffOk (r.f32.getD i 0))
  match c with
  | some i => some (r.constOff + 2 * r.q15.length + 4 * i)
  | none =>
    match (List.range r.fixedUsed).find? (fun i =>
        let w := r.fixedBank i
        !(expsOk (w.getD 5 0) && ofBits 16 (w.getD 6 0) ≤ ofBits 16 (w.getD 7 0))) with
    | some i => some (r.bankOff + 16 * i)
    | none =>
      ((List.range r.floatUsed).find? (fun j => !((r.floatBank j).all coeffOk))).map
        (fun j => r.bankOff + 16 * r.fixedUsed + 64 * j)

/-- The fixed and float slots of a recipe in ascending order (the order of the bank images, R101). -/
def Recipe.fixedSlots (r : Recipe) : List Nat := (List.range 1024).filter (fun s => r.slots.contains s)
def Recipe.floatSlots (r : Recipe) : List Nat := (List.range 64).filter (fun s => r.slots.contains (1024 + s))

end Sys2Proof.Machine
end

