-- ==== Sys2Proof/Machine/State.lean ====
section
/-! DEFINITION. The machine's state as plain data. Every register of the dictionary lives in `od` (numbers) or `blobs` (byte
strings) under its index, subindex and element; the structures below hold the machinery that the rules name and the
dictionary does not show. -/

namespace Sys2Proof.Machine

/-- No command of this block ends in a fault; the constructor stands for an access that the spec says does not exist.
Nobody raises it; raising it would be safe, since the machine stops. -/
inductive Fault where
  | absent
  deriving DecidableEq, Repr

/-- `notModelled`: raised by exec's arm of a row that has no meaning yet; safe, since the machine stops. -/
inductive Refusal where
  | notModelled (mnemonic : String)
  deriving DecidableEq, Repr

/-! ### Codes of the dictionary -/

/-- Batch states (Table 06-3). -/
inductive BatchState where
  | off | precharge | starter | blackStart | connected | islanded | currentLimited | coast | resync | following
  | blocked | fault
  deriving DecidableEq, Repr

/-- The code of a batch state (Table 06-3). -/
def BatchState.code : BatchState → Nat
  | .off => 0
  | .precharge => 1
  | .starter => 2
  | .blackStart => 3
  | .connected => 4
  | .islanded => 5
  | .currentLimited => 6
  | .coast => 7
  | .resync => 8
  | .following => 9
  | .blocked => 10
  | .fault => 11

/-- The batch state of a code. -/
def BatchState.ofCode : Nat → BatchState
  | 1 => .precharge
  | 2 => .starter
  | 3 => .blackStart
  | 4 => .connected
  | 5 => .islanded
  | 6 => .currentLimited
  | 7 => .coast
  | 8 => .resync
  | 9 => .following
  | 10 => .blocked
  | 11 => .fault
  | _ => .off

/-- Module states (Table 16-2), in the order of Table 17-7; the spec gives their codes only as 0x00 to 0x08
(DESIGN CHOICE, notes/assumptions/4). -/
inductive ModState where
  | init | proof | faultWait | configuration | armed | running | standby | safeHold | removal
  deriving DecidableEq, Repr

/-- The code of a module state. -/
def ModState.code : ModState → Nat
  | .init => 0
  | .proof => 1
  | .faultWait => 2
  | .configuration => 3
  | .armed => 4
  | .running => 5
  | .standby => 6
  | .safeHold => 7
  | .removal => 8

/-- The module state of a code. -/
def ModState.ofCode : Nat → ModState
  | 1 => .proof
  | 2 => .faultWait
  | 3 => .configuration
  | 4 => .armed
  | 5 => .running
  | 6 => .standby
  | 7 => .safeHold
  | 8 => .removal
  | _ => .init

/-- Lane states (Table 03-9). -/
inductive LaneState where
  | home | free | draining | underTest | reserve | retired
  deriving DecidableEq, Repr

/-- Slice and ADC-core states (0x3210, 0x5080 .01). -/
inductive SpareState where
  | serving | idle | shadowing | underTest | retired
  deriving DecidableEq, Repr

/-! ### Batches -/

/-- A host write that waits as a dictionary job (R64): applied between two cycles and answered then (R352). -/
inductive Job where
  | bankWord (slot : Nat) (bankB : Bool) (word v : Nat)
  | slotState (slot i v : Nat)
  | copyBanks
  | view (off sub v : Nat)
  | scale (sub v : Nat)
  | target (gen : Nat) (v : F32)
  /-- Hold 1, release 2, preset 3 to x (R88). -/
  | command (gen cmd : Nat) (x : F32)
  | entry (index sub elem : Nat) (data : List Byte)
  /-- The entries of an accepted GOOSE message for a subscription, together (R367). -/
  | goose (sub : Nat) (m : GooseMsg)
  deriving DecidableEq, Repr

/-- The working values of a running cycle: the batch's cycle scratch (R99) and what commits with it (R13). -/
structure Work where
  sig : Tbl Int := []
  fx : Tbl FixedState := []
  fl : Tbl FloatState := []
  duty : Tbl Int := []
  pub : Tbl Int := []
  nan : Option Nat := none
  fullSat : Nat := 0
  held : List Nat := []
  /-- Fixed slots whose block evaluated no error in this cycle (R84, R130). -/
  noErr : List Nat := []
  ovf : List Nat := []
  /-- The impedance estimator took its on-phasors in this cycle (R132). -/
  onSnap : Bool := false
  fsat : List Nat := []
  cvSat : List Nat := []
  engaged : Bool := false
  added : Bool := false
  lim : Bool := false
  ceiling : Bool := false
  dip : Bool := false
  clamps : Nat := 0
  negLimit : Bool := false
  negMag : F32 := 0
  negV : Option F32 := none
  effR : Option F32 := none
  effX : Option F32 := none
  vm : Option Nat := none
  est : Option Nat := none
  estRaw : Option F32 := none
  estAccept : Bool := false
  estReject : Bool := false
  estRX : Option (F32 × F32 × F32) := none
  rawReads : List (Nat × Nat) := []
  deriving DecidableEq, Repr

/-- One batch cycle in progress (Table 01-3). `next` is the item that is eligible or running. -/
structure Cycle where
  t0 : Time
  ready : Bool := false
  next : Nat := 0
  /-- Work items of the cycle. -/
  items : Nat := 0
  /-- The item lost its lane to a stall and restarts on the next idle lane (R69). -/
  restart : Bool := false
  lane : Option Nat := none
  eligibleAt : Time := 0
  started : Option Time := none
  events : Nat := 0
  /-- Fast-tap values of the chains that the recipe reads, as latched at t0 (R13), by chain. -/
  latch : Tbl Int := []
  inp : Tbl Int := []
  work : Work := {}
  deriving DecidableEq, Repr

/-- A ride-through excursion (R151). -/
structure Excursion where
  active : Bool := false
  start : Time := 0
  inSince : Option Time := none
  deriving DecidableEq, Repr

/-- The ripple-control receiver (R136). -/
structure Ripple where
  highs : Nat := 0
  lows : Nat := 0
  firstHigh : Time := 0
  firstLow : Time := 0
  start : Time := 0
  deriving DecidableEq, Repr

/-- The observation window of the Starter (R159) and the dead-bus clock (R161): `belowSince` is the Starter's entry or the last t0 at which the
bus was at or above the threshold. -/
structure Window where
  start : Time := 0
  accepted : Nat := 0
  live : Bool := true
  sinceEntry : Time := 0
  belowSince : Option Time := none
  deriving DecidableEq, Repr

/-- Resync (R170 to R175). -/
structure Resync where
  entry : BatchState := .off
  since : Time := 0
  heldSince : Option Time := none
  reqSince : Option Time := none
  permittedAtWrite : Bool := false
  liveSince : Option Time := none
  lostSince : Option Time := none
  ending : Option Nat := none
  winStart : Time := 0
  winAccepted : Nat := 0
  winLive : Bool := true
  winResult : Bool := false
  /-- The chain that the window observes. -/
  winChain : Option Nat := none
  /-- P has left its target since the closing (R175). -/
  moved : Bool := false
  deriving DecidableEq, Repr

/-- An edge of S: channel, module time in fine steps, new level (R188). -/
structure Edge where
  chan : Nat
  pos : Time
  level : Bool
  deriving DecidableEq, Repr

/-- The edges of one cycle of a batch, sealed at its commit or abandon at `sealedAt` (R13, R14). -/
structure Sealed where
  sealedAt : Time
  edges : List Edge
  deriving DecidableEq, Repr

/-- What the rules keep for one batch beside its dictionary entries. -/
structure BatchRec where
  since : Time := 0
  cmd : Option Nat := none
  cause : Nat := 0
  stopping : Bool := false
  /-- The ramp of the stop has started: one written in CurrentLimited waits for the release (R139). -/
  ramping : Bool := false
  entry : BatchState := .off
  released : Nat := 0
  engaged : Bool := false
  ceilSeen : Bool := false
  tooLong : Bool := false
  demands : List Nat := []
  /-- The highest reaction carried out in the present cycle, once it has its event, and that event's TAI time (R153). -/
  reacted : Option (Nat × Nat) := none
  /-- A block fell in the present cycle: further sources merge into its event (R19). -/
  blockFresh : Bool := false
  /-- The time of the event of the aux driver shorts of the present cycle (R234). -/
  shortAt : Option Nat := none
  cyc : Option Cycle := none
  /-- Outputs are enabled (R164, R190). -/
  outOn : Bool := false
  /-- The update instant at which the outputs are enabled: that of the seeded cycle that has committed (R164). -/
  outDue : Option Time := none
  /-- Committed duties with the update instants at which they take effect (R15, R183), by channel. -/
  loads : List (Time × Tbl Int) := []
  /-- Where the counter of a free-running batch stood at position 0 (R180, sync mode 1). -/
  freeStart : Time := 0
  /-- Where the counter of a free-running batch stopped (R180). -/
  freePos : Nat := 0
  /-- The Starter has seeded the batch and no cycle has committed since. -/
  seeded : Bool := false
  /-- The batch runs in BlackStart from its t_s on (R168). -/
  bsRunning : Bool := false
  staged : Tbl F32 := []
  /-- The other feedback that supervision found lost or frozen last (R86, item 4). -/
  others : List Nat := []
  stored : Tbl F32 := []
  lastWrite : Time := 0
  impTime : Time := 0
  /-- The islanding in force was detected by the impedance criterion alone (R135). -/
  impOnly : Bool := false
  impOver : Nat := 0
  impUnder : Nat := 0
  connSince : Time := 0
  swapsAtOn : Nat := 0
  /-- The batch was Connected at the on-phasors (R132). -/
  onConnected : Bool := false
  /-- When the pending bank swap was requested (R83). -/
  swapAt : Time := 0
  ripple : Ripple := {}
  vEx : Excursion := {}
  fEx : Excursion := {}
  win : Window := {}
  dcSince : Option Time := none
  /-- The latest t0 of the batch. -/
  lastT0 : Option Time := none
  preSince : Time := 0
  rs : Resync := {}
  openSince : Time := 0
  home : Option Nat := none
  nextHome : Option Nat := none
  /-- The lane plan leaves the batch out: it loses its home at its next cycle boundary (R57, R58). -/
  homeless : Bool := false
  pub : Tbl Int := []
  jobs : List (Job × Req) := []
  /-- A commit has given a smallest slack (0x13 .07). -/
  slackSeen : Bool := false
  /-- Sealed edge lists of the batch's link channels, the oldest first (R13, R188, R208). -/
  edges : List Sealed := []
  deriving DecidableEq, Repr

/-! ### Slots and generators -/

/-- A fixed slot: its committed record (Table 04-2), the marks of its status, and the following-error tick in progress
(R84). -/
structure FixedSlot where
  st : FixedState := {}
  held : Bool := false
  ovf : Bool := false
  ticks : Nat := 0
  exceeded : Bool := false
  sat : Bool := false
  deriving DecidableEq, Repr

/-- A float slot: its committed record (Table 04-3), NaN mark and following-error tick in progress. -/
structure FloatSlot where
  st : FloatState := {}
  nan : Bool := false
  held : Bool := false
  ticks : Nat := 0
  exceeded : Bool := false
  sat : Bool := false
  deriving DecidableEq, Repr

/-- A profile generator: the target in use, hold, and the direction of the move in progress (R87, R88). -/
structure GenSlot where
  target : F32 := 0
  holding : Bool := false
  /-- A target of the module's own, while host writes are stored and not used (R124, R139, R168, R172). -/
  drive : Option F32 := none
  /-- The target in force when the module's own took its place (R175), or at which a hold has stopped since. -/
  before : F32 := 0
  /-- The direction in which the target in use lies, or in which the position was moving where it was there already, for the overshoot
  (.11). -/
  dir : Int := 0
  /-- A rate limit in place of the generator's own (R168), and a cap on it (R175). -/
  vOver : Option F32 := none
  vCap : Option F32 := none
  deriving DecidableEq, Repr

/-! ### Fabric -/

/-- The values of a queue in force (R59) and its dispatch credit (R62). -/
structure QueueRec where
  batch : Nat
  prio : Nat := 4
  group : Nat := 0
  weight : Nat := 1
  cred : Nat := 0
  deriving DecidableEq, Repr

/-- A lane: its role, the batch whose item it runs, and its running tests (R54, R67). -/
structure LaneRec where
  state : LaneState
  item : Option Nat := none
  negRun : Nat := 0
  testFrom : LaneState := .home
  testSince : Time := 0
  /-- Cause code (Table 16-17) of a retirement that waits for the lane to drain (R68). -/
  retireCause : Option Nat := none
  /-- The lane has stalled and runs nothing any more (R69). -/
  stalled : Bool := false
  deriving DecidableEq, Repr

/-- The fabric: lanes, queues, group weights in force, credits and rotation points (R62), rotation (R67). -/
structure Fabric where
  lanes : Tbl LaneRec := []
  queues : Tbl QueueRec := []
  weights : Tbl Nat := []
  gcred : Tbl Nat := []
  lastG : Tbl Nat := []
  lastQ : Tbl Nat := []
  rot : Nat := 0
  /-- The rotation waits at `rot` for a free lane (R67). -/
  waiting : Bool := false
  lastTest : Time := 0
  /-- The lane that becomes the free lane once its batches have moved (R68). -/
  nextFree : Option Nat := none
  /-- The batches of a standby that its lanes cannot carry, which only its health flags show (R306). -/
  uncarried : List Nat := []
  deriving DecidableEq, Repr

/-! ### Measurement -/

/-- A pair's sequencer (R23 to R29): `slot` is the slot being converted; `codes`, `miss` and `codesAt` are what the island
gets of the latest plausibility slot (R28). -/
structure PairRec where
  running : Bool := false
  pending : Bool := false
  slot : Nat := 0
  missRun : Nat := 0
  arbPhase : Nat := 0
  readings : List Int := []
  inject : Option Nat := none
  codes : Int × Int := (0, 0)
  miss : Bool := false
  codesAt : Time := 0
  /-- Sums of the squares of both cores' codes and their number since the island's last comparison (R241). -/
  sq : Nat × Nat := (0, 0)
  sqN : Nat := 0
  deriving DecidableEq, Repr

/-- An ADC core (R30): `serves` is the core that a spare shadows or replaces, `due` the retired core that it takes over from at
the next sequence boundary, `since` when it began to shadow; `passed` that it has passed its background test and returns to service at
the next boundary. -/
structure CoreRec where
  state : SpareState := .serving
  serves : Option Nat := none
  due : Option Nat := none
  since : Time := 0
  passed : Bool := false
  deriving DecidableEq, Repr

/-- A tracker (R40): sample values with their instants in fine steps, crossings and periods in 2.5 ns counts. -/
structure Tracker where
  armed : Bool := false
  lastNeg : Option (Int × Time) := none
  firstPos : Option (Int × Time) := none
  crossing : Option Nat := none
  /-- The crossing that ended the latest accepted period (R162, R171). -/
  accepted : Option Nat := none
  run : Nat := 0
  /-- The accepted periods of the run, the latest first, at most three. -/
  periods : List Nat := []
  lost : Bool := true
  lastAcc : Time := 0
  /-- Periods accepted so far (R159 counts them in its window). -/
  acc : Nat := 0
  deriving DecidableEq, Repr

/-- A measurement chain (R31 to R43). Delay lines hold the latest sample first. -/
structure ChainRec where
  raw : List Int := []
  rawSlot : Nat := 0
  /-- A calibration of the average in progress has saturated (R33, R34). -/
  rawSat : Bool := false
  bits : List Bool := []
  eqRun : Nat := 0
  lastBit : Bool := false
  started : Bool := false
  /-- First-sample seeding was set at the first input sample (R42). -/
  seeded : Bool := false
  fir : List Int := []
  line : List Int := []
  /-- Values computed and not yet released at the fixed latency (R37). -/
  held : List Int := []
  half : List Int := []
  halfOdd : Bool := false
  gridLine : List Int := []
  /-- Position of the latest grid-locked output (of the first one while there is none) less the index of the latest input sample, in
  Q.24. -/
  gridP : Int := 0
  tapNo : Nat := 0
  gridNo : Nat := 0
  lossSet : Bool := false
  tr : Tracker := {}
  inactiveValid : Bool := false
  swapFor : Option Nat := none
  rmsWin : List Int := []
  detNo : Nat := 0
  /-- The tracker's latest accepted crossing, not yet used to set the detectors' angle (R44). -/
  cross : Option Nat := none
  deriving DecidableEq, Repr

/-- A single-frequency detector (R44): the last W products, the angle of the next output. -/
structure SfdRec where
  win : List (Int × Int) := []
  theta : Nat := 0
  ok : Bool := false
  deriving DecidableEq, Repr

/-- The front end. -/
structure Meas where
  pairs : Tbl PairRec := []
  cores : Tbl CoreRec := []
  /-- The core whose background test is in turn (R30). -/
  coreRot : Nat := 0
  chains : Tbl ChainRec := []
  sfds : Tbl SfdRec := []
  /-- Freeze windows by batch·128 + chain: fast-tap samples, latest first, and whether the RMS stood at the threshold (R85). -/
  freeze : Tbl (List (Int × Bool)) := []
  /-- Clean fast-tap samples in a row by batch·128 + chain (R86). -/
  clean : Tbl Nat := []
  deriving DecidableEq, Repr

/-! ### PWM -/

/-- A cut of a channel's gates: when, and which were on, upper and lower. -/
structure GateCut where
  at_ : Time
  up : Bool
  lo : Bool
  deriving DecidableEq, Repr

/-- A channel's stages beside its entries: the staging duty (R183), whether it awaits its first load point (R190), the level
of S, its two gate commands with their changes to come (time, upper or lower, on or off; R184), the recharge of its bootstrap
(R186), the instant and the former shadow of a test duty (R183, item 4), and, for a link channel, the pair, carry and
level of the window evaluation (R188). -/
structure ChanRec where
  staging : Int := 0
  waiting : Bool := true
  level : Option Bool := none
  up : Bool := false
  lo : Bool := false
  upAt : Time := 0
  loAt : Time := 0
  gates : List (Time × Bool × Bool) := []
  /-- When its gates went off last while one was on, and which were (R189). -/
  cut : Option GateCut := none
  recharging : Bool := false
  /-- The latest bootstrap undervoltage of the channel's driver (R186). -/
  lowAt : Time := 0
  testOn : Bool := false
  testAt : Option Time := none
  testPrev : Int := 0
  vA : Nat := 0
  vB : Nat := 0
  vDuty : Int := 0
  vLevel : Option Bool := none
  deriving DecidableEq, Repr

/-- A slice (R178, R191, R194, R195): the channel it serves, the slice that it shadows and since when, calibration
failures in a row, the cause of a retirement that waits for the boundary. -/
structure SliceRec where
  state : SpareState
  channel : Option Nat := none
  shadows : Option Nat := none
  since : Time := 0
  fails : Nat := 0
  retireCause : Option Nat := none
  /-- The elements per count of the position map in force, and of one that the slice's next load point applies (R191). -/
  map : Nat := 0
  newMap : Option Nat := none
  /-- The background test of the slice is due; its channel's next load point takes it out of service (R194). -/
  testDue : Bool := false
  /-- The slice has passed its part of a mismatch arbitration (R195). -/
  passed : Bool := false
  deriving DecidableEq, Repr

/-- The PWM engine. `low` holds the PWM_BLOCK_N inputs, `rot` the slice whose background test is in turn, `waitNormal` the
batches still in extended mode after a relock (R193), `minElems` the lowest element counts of the last second (0x3200.06),
`extCal` the latest calibration of the extended map (R192). -/
structure Pwm where
  chans : Tbl ChanRec := []
  slices : Tbl SliceRec := []
  low : List Bool := [false, false]
  rot : Nat := 0
  bypass : Bool := true
  /-- The timebase has not been off the bypass clock since the start (0x3200.03 reads 2 until then). -/
  startup : Bool := true
  waitNormal : List Nat := []
  minElems : List (Time × Nat) := []
  extCal : Time := 0
  deriving DecidableEq, Repr

/-! ### Crumb log -/

/-- An event on its way to the log (R288): TAI ns, code, source, data. -/
structure Event where
  tai : Nat
  code : Nat
  src : Nat
  data : List Byte
  deriving DecidableEq, Repr

/-- A committed record (Table 14-3). -/
structure LogRecord where
  seq : Nat
  ev : Event
  suppressed : Nat
  resets : Nat
  deriving DecidableEq, Repr

/-- The token bucket and counts of one event code (R288). `level` counts tokens times the fine steps of a second. -/
structure CodeRec where
  rate : Nat := 10
  burst : Nat := 32
  level : Nat := 32 * 12800000000
  upTo : Time := 0
  lost : Nat := 0
  pendingSupp : Nat := 0
  written : Nat := 0
  deriving DecidableEq, Repr

/-- An entry of the repair map (R341). -/
structure Retired where
  kind : Nat
  inst : Nat
  cause : Nat
  tai : Nat
  deriving DecidableEq, Repr

/-- What MRAM holds but for the log's records, as it stands while the log is frozen (R291): kept entries, keys, repair map, configuration
store, counts by code. -/
structure Mram where
  od : Tbl Int
  blobs : Tbl (List Byte)
  repair : List Retired
  stored : Option (Tbl Int × Tbl (List Byte))
  storedLocks : Nat
  codes : Tbl CodeRec
  deriving DecidableEq, Repr

/-- The crumb log: the committed records in MRAM, the write queue, the staging queue, what else MRAM holds during a freeze. -/
structure Log where
  records : List LogRecord := []
  nextSeq : Nat := 0
  queue : List Event := []
  staging : List Event := []
  frozenSince : Option Time := none
  clearing : Bool := false
  lostAtFreeze : Nat := 0
  mram : Option Mram := none
  codes : Tbl CodeRec := []
  deriving DecidableEq, Repr

/-- What the module sends. `reply`: abort code, progress and data of an answer; `msg`: a message of kind `kind` (named by
the operation that sends it) with its fields and bytes. -/
inductive Output where
  | reply (abort : Nat) (progress : Nat) (data : List Byte)
  | msg (kind : String) (fields : List Int) (data : List Byte)
  deriving DecidableEq, Repr

/-- A frame that a node holds until its use time (R203): departure, control byte of the node, edges, whether it is authoritative. -/
structure HeldFrame where
  tf : Time
  auth : Bool
  ctl : Nat
  edges : List EdgeCmd
  deriving DecidableEq, Repr

/-- A scheduled change of S of a slot (R217), in module time; for a repeated edge (R218) the start of its window. -/
structure NodeEdge where
  at_ : Time
  slot : Nat
  level : Bool
  repeats : Option Time := none
  deriving DecidableEq, Repr

/-- A node as seen from the link (R202, R206 to R218, R221): position, turn node, link and node count as the latest module frame named them,
highest epoch, control byte in force, an early block, time set (with the arrival it was set by) and locked, held frames, leg states with
their gate commands, scheduled and past edges, missed periods, latched faults, responses that wait for a frame, the sequence of its own
frames, last sample with the slots that are below a bootstrap threshold or recharge, registers. -/
structure NodeRec where
  pos : Nat := 0
  turn : Bool := false
  link : Byte := 0
  count : Nat := 0
  epoch : Nat := 0
  ctl : Nat := 0
  early : Bool := false
  timeSet : Bool := false
  arrival : Int := 0
  lockRun : Nat := 0
  held : List HeldFrame := []
  legs : Nat := 0
  gates : Tbl ChanRec := []
  edges : List NodeEdge := []
  past : List NodeEdge := []
  lastTf : Time := 0
  missRun : Nat := 0
  watchdog : Bool := false
  shorts : Nat := 0
  undervolts : Nat := 0
  resp : List (Nat × Nat) := []
  fseq : Nat := 0
  under : Nat := 0
  below : Nat := 0
  recharge : Nat := 0
  hot : Bool := false
  volt : Int := 0
  cur : Int := 0
  temp : Int := 0
  seq : Nat := 0
  missed : Nat := 0
  late : Nat := 0
  latch : Nat := 0
  id : Option NodeId := none
  regs : Tbl Nat := []
  deriving DecidableEq, Repr

/-- A request of the module on a link (R210): code, position, address, data, when it departed, repeats. `write` is the data that 0x3400 .1D
takes when a write is done. -/
structure LinkReq where
  code : Nat
  pos : Nat
  addr : Nat
  data : Nat
  node : Nat
  sent : Option Time := none
  tries : Nat := 0
  /-- The session that awaits the answer, and the limit of the segment read that it answers (R357). -/
  sid : Nat := 0
  segment : Option Nat := none
  deriving DecidableEq, Repr

/-- A link at the module: frame sequence, the TAI time from which a grid instant is free of its enumeration's frames, outstanding request,
whether its nodes are being rejoined, the nodes that failed to, whether an enumeration waits for its result, and the positions (bit p) whose
slot reported time locked since the last enumeration or rejoining (R203, R205, R210, R213). -/
structure LinkRec where
  seq : Nat := 0
  next : Nat := 0
  req : Option LinkReq := none
  rejoin : Bool := false
  failed : List Nat := []
  scanning : Bool := false
  locked : Nat := 0
  /-- The link has entered running service: a frame departs at every grid instant (R203). -/
  service : Bool := false
  deriving DecidableEq, Repr

/-- The Uluiz links. `heard` and `sampled` say when node telemetry was received last and when the node had sampled it (R16, R220);
`lastSeq` is its sequence; `epoch` is the module's own epoch and `superseded` that a higher one was seen (R219); `untimed` are the nodes that
have not reported time locked since the time step (R269). -/
structure Links where
  heard : Tbl Time := []
  sampled : Tbl Time := []
  lastSeq : Tbl Nat := []
  links : Tbl LinkRec := []
  nodes : Tbl NodeRec := []
  epoch : Nat := 0
  superseded : Bool := false
  untimed : List Nat := []
  deriving DecidableEq, Repr

/-- The auxiliary drivers: the diagnostic in progress (driver and step, R235), when its step began, and the drivers that wait
for theirs, in ascending order. -/
structure Aux where
  run : Option (Nat × Nat) := none
  since : Time := 0
  waiting : List Nat := []
  /-- The drivers whose latest run is a pre-start run (R236). -/
  pre : List Nat := []
  /-- The latest measurement of VGATE (1) and VBRIDGE (2) that a command brought, with its instant, in mV. -/
  supplies : Tbl (Time × Nat) := []
  /-- When the blanking of the latest turn-on ended, by 2 · driver + side (0 high, 1 low; R233). -/
  blanked : Tbl Time := []
  /-- The latest event of a driver's bootstrap monitor: an undervoltage (`true`) or a recharge hold that has passed (R231). -/
  boot : Tbl (Time × Bool) := []
  deriving DecidableEq, Repr
/-- One simultaneous conversion of AIN44 to AIN47 by the island (R240). -/
structure IslandSample where
  at_ : Time
  x : List Int
  deriving DecidableEq, Repr

/-- The crossings of an island input (R240): as a chain's tracker, with the latest crossing and the latest periods, the last
first. -/
structure IslandCross where
  armed : Bool := false
  lastNeg : Option (Int × Time) := none
  firstPos : Option (Int × Time) := none
  last : Option Time := none
  periods : List Nat := []
  deriving DecidableEq, Repr

/-- Three seconds of per-period RMS values: sums of the three phases and their number (R242, mean mode). -/
structure MeanBucket where
  s0 : Rat := 0
  s1 : Rat := 0
  s2 : Rat := 0
  n : Nat := 0
  deriving DecidableEq, Repr

/-- A protection stage beside its entries (R242): pickup instant, the last mean update, the values of the last 10 minutes
in 3 s buckets, the latest first. -/
structure Stage where
  since : Time := 0
  meanAt : Time := 0
  buckets : List MeanBucket := [{}]
  deriving DecidableEq, Repr

/-- The cross-check of AIN44 or AIN46 (R241). -/
structure CrossCheck where
  missRun : Nat := 0
  okRun : Nat := 0
  invSince : Option Time := none
  fault : Bool := false
  deriving DecidableEq, Repr

/-- A disconnect circuit beside its entries: switch commands and the instant of their last change (R246); the step of a
proof test or acknowledgement with its start and whether its pattern has shown (R250, R253); the kind of the closing request
under way (1 host, 2 dead bus, 3 resync, 4 bridge, 5 twin) and a host close that waits for a pulse; the pulse in progress
(low side, start) and the one to run again (R251, R252); a twin closing request that was discarded and still shows (R252). -/
structure IslandCirc where
  hs : Bool := false
  ls : Bool := false
  cmdAt : Time := 0
  step : Nat := 0
  stepAt : Time := 0
  seen : Bool := false
  ack : Bool := false
  ackHost : Bool := false
  ackSid : Nat := 0
  req : Nat := 0
  hostReq : Bool := false
  pulse : Option (Bool × Time) := none
  retry : Option (Bool × Time) := none
  spent : Bool := false
  deriving DecidableEq, Repr

/-- A telegram copy that waits for its partner (R255). -/
structure TeleCopy where
  portB : Bool
  at_ : Time
  bytes : List Byte
  deriving DecidableEq, Repr

/-- A demand in force: row of Table 12-3 from 0, instance, circuits. -/
structure Demand where
  row : Nat
  inst : Nat
  mask : Nat
  deriving DecidableEq, Repr

/-- The safety island (R238 to R257). `freq`, `rocof` and `freq47` are none while invalid; `below` and `dead` are the dead-bus
condition, `connSince` and `observed` the connection conditions; `cmdIn` says that a command was accepted since Run was
entered, at `runAt`; `accepted` are the sequences accepted before the last (R255). -/
structure Island where
  samples : List IslandSample := []
  c44 : IslandCross := {}
  c47 : IslandCross := {}
  lastRms : Time := 0
  odd : Bool := false
  freqHist : List (Time × F32) := []
  freq : Option F32 := none
  rocof : Option F32 := none
  freq47 : Option F32 := none
  below : Option Time := none
  dead : Bool := false
  connSince : Option Time := none
  observed : Bool := false
  checks : Tbl CrossCheck := []
  stages : Tbl Stage := []
  circs : Tbl IslandCirc := []
  demands : List Demand := []
  cmdIn : Bool := false
  lastCmd : Time := 0
  lastSeq : Option Nat := none
  accepted : List Nat := []
  runAt : Time := 0
  copies : List TeleCopy := []
  txSeq : Nat := 0
  lastTx : Time := 0
  deriving DecidableEq, Repr

/-- A PTP port (R267, R268): the masters heard by sender with their latest Announce and its instant, the best of them, and its path delay. -/
structure PtpPort where
  foreign : Tbl (AnnounceMsg × Time) := []
  master : Option AnnounceMsg := none
  heard : Time := 0
  pathOk : Bool := false
  /-- Its path delay in ns (R268). -/
  delay : Nat := 0
  deriving DecidableEq, Repr

/-- A time pulse output beside its entries (R273): the next firing's number and the end of the one in progress. -/
structure TpoRec where
  next : Nat := 0
  /-- The instant of its latest firing. -/
  lastAt : Option Time := none
  endsAt : Option Time := none
  deriving DecidableEq, Repr

/-- Clocks and time (R259 to R274): module time less the instant in fine steps; REFCLK qualified since
and whether automatic selection left it; the PLL's loss, hop and lock instants; both references lost since; the last
measurement of the housekeeping clock; the servo: step due, offset below the threshold since, latest offset. -/
structure Clock where
  offset : Int := 0
  /-- Whether a time pulse output has fired since it was armed (R45). -/
  tpoFired : Tbl Bool := []
  tpos : Tbl TpoRec := []
  qualSince : Option Time := none
  left : Bool := false
  lossAt : Time := 0
  hopAt : Option Time := none
  lockAt : Option Time := none
  bothLost : Option Time := none
  hkAt : Option Time := none
  hk : Int := 0
  stepDone : Bool := false
  belowSince : Option Time := none
  lastOffset : Option Int := none
  ports : Tbl PtpPort := []
  deriving DecidableEq, Repr

/-- A record of the capture engine (R283): its instant in module time, analog codes by channel, levels of the digital channels,
data error, and the time quality, |offset| and leap flag at the record (R286). -/
structure AcqRec where
  at_ : Time
  an : Tbl Int := []
  /-- The instants that the analog values represent. -/
  ages : Tbl Time := []
  dig : Nat := 0
  err : Bool := false
  /-- A memory error has cleared the record's trigger bit (R284). -/
  noTrig : Bool := false
  quality : Nat := 0
  offset : Nat := 0
  leap : Bool := false
  deriving DecidableEq, Repr

/-- A capture buffer beside its entries (R280 to R282): its records, the oldest first, trigger instant and origin, the instant
after which no record belongs to the capture, the markers (instant, slot, unit). -/
structure AcqBuf where
  recs : List AcqRec := []
  trig : Time := 0
  slot : Nat := 0
  unit : Nat := 0
  last : Time := 0
  markers : List (Time × Nat × Nat) := []
  /-- The instants of the markers that it counts at 0x7000.0F and does not list. -/
  unlisted : List Time := []
  maskStop : Bool := false
  deriving DecidableEq, Repr

/-- A trigger unit (R276 to R278): updates in a row with its condition and the first one's instant, the condition, an episode that
has fired, its last firing, the value of the previous update. -/
structure TrigRec where
  run : Nat := 0
  start : Time := 0
  held : Bool := false
  latched : Bool := false
  lastFire : Option Time := none
  prev : Option Int := none
  deriving DecidableEq, Repr

/-- Acquisition (R276 to R286): buffers, trigger units, the excursions of the mask tests, the latest source value of each
analog channel with the instant it represents, the levels of the eight digital inputs (Table 14-1) with their last edges, and
whether a mask stop waits for its capture. -/
structure Acq where
  bufs : Tbl AcqBuf := []
  units : Tbl TrigRec := []
  masks : Tbl Excursion := []
  cur : Tbl (Option (Time × Int)) := []
  /-- The latest value of each analog channel whose source is F32. -/
  raw : Tbl F32 := []
  levels : Tbl Bool := []
  edges : Tbl Time := []
  stopping : Bool := false
  deriving DecidableEq, Repr
/-- The latest heartbeat of a slot (R309, R310): its payload, its instant, missed ones in a row and the instant of the next
one awaited. -/
structure Beat where
  msg : HeartbeatMsg
  at_ : Time
  missRun : Nat := 0
  deriving DecidableEq, Repr

/-- A transaction at the master (R300, R301). `stage`: 0 prepared, 1 committed, 2 the stragglers re-prepared, 3 the revert
prepared; `masks` by slot; `applied` are the batches reported by slot, all rounds together. -/
structure Txn where
  id : Nat
  op : Nat
  due : Time
  params : List F32
  masks : Tbl Nat
  named : List Nat
  stage : Nat := 0
  decided : Bool := false
  ready : List Nat := []
  refused : List Nat := []
  reported : List Nat := []
  applied : Tbl Nat := []
  deriving DecidableEq, Repr

/-- A transaction at a member (R300): what was prepared, COMMIT held, batches applied and failed, Report sent. -/
structure Prep where
  msg : PrepareMsg
  commit : Bool := false
  applied : Nat := 0
  failed : Nat := 0
  reported : Bool := false
  deriving DecidableEq, Repr

/-- A write that the active module of a twin pair forwards (R304): the entry with its bytes, the session that asked, whether it has been sent
over the twin link, its result on this module, and whether the partner has acknowledged it. -/
structure Forward where
  index : Nat
  sub : Nat
  elem : Nat
  data : List Byte
  sid : Nat
  sent : Bool := false
  result : Option Nat := none
  acked : Bool := false
  deriving DecidableEq, Repr

/-- The rack and twin functions (R296 to R317). `copies` are the complete state copies not yet installed, `onTime` the copies
in a row that came on time, by batch; `lastTxn`, `lastOp` and
`lastMask` the last transaction with the batches applied under it, `before` their set-points before it (R301);
`bridgeWanted` for which bridges a closing request stands, bit k (R316). -/
structure Rack where
  heard : Option Time := none
  masterAt : Option Time := none
  arbiterAt : Option Time := none
  beats : Tbl Beat := []
  txn : Option Txn := none
  prep : Option Prep := none
  lastTxn : Nat := 0
  lastOp : Nat := 0
  lastMask : Nat := 0
  before : Tbl (List F32) := []
  copies : Tbl StateCopy := []
  onTime : Tbl Nat := []
  digest : Option Nat := none
  /-- The two configurations differ at most by forwarded writes under way (R303, R304); the module's own digest before the first of them. -/
  inStep : Bool := false
  base : Option Nat := none
  /-- Writes that the active module has forwarded and not answered, the oldest first (R304). -/
  forwards : List Forward := []
  grant : Option (Nat × Nat) := none
  revoke : Option (Nat × Nat) := none
  planned : Nat := 0
  askedAt : Time := 0
  leaving : Bool := false
  bridgeWanted : Nat := 0
  bridgeShown : Tbl Time := []
  /-- Twin batches whose latest cycle ran here (R306); the module time at which a planned handover turned the copies (R313). -/
  ran : List Nat := []
  turnAt : Option Time := none
  /-- The first departure, in TAI ns, after an unplanned fail-over: with command, of the new module; without it, of the old one (Table 15-9 .13). -/
  started : Option Nat := none
  stopped : Option Nat := none
  armAt : Option (Bool × Time) := none
  seq : Nat := 0
  deriving DecidableEq, Repr

/-- A running proof check (R324, R325): its occasion (0 in Proof, 1 periodic, 2 commanded, 3 repeat) and start. -/
structure ProofRun where
  kind : Nat
  start : Time
  deriving DecidableEq, Repr

/-- What the rules of power, start-up and repair keep beside the entries: the repair map and the configuration store in
MRAM with the lock bits set when it was stored; insertion complete, the proof check passed, supply present; the hold-up
service (start, phase 1 to 3 with 3 parked) and its mark in MRAM; the module has no power or is held in reset; checks; the
stage that failed (R331); memory errors (R342); withdrawal; junction times (R399). -/
structure Power where
  repair : List Retired := []
  /-- The configuration store in MRAM (R384): numbers and byte strings; none where nothing was stored. -/
  stored : Option (Tbl Int × Tbl (List Byte)) := none
  storedLocks : Nat := 0
  inserted : Bool := false
  proofPassed : Bool := false
  /-- A check has passed in Proof since the last reset or supply loss: the proof check passed condition (R325). -/
  proofHeld : Bool := false
  applied : Bool := false
  supply : Bool := true
  holdUp : Option Time := none
  phase : Nat := 0
  mark : Bool := false
  dark : Bool := false
  /-- Whether SafeHold followed a supply loss (Table 16-2). -/
  lossHold : Bool := false
  check : Option ProofRun := none
  lastCheck : Time := 0
  /-- SafeHold follows once a handover has taken effect (R326). -/
  holdAfter : Bool := false
  /-- The number of the next log record when the hold-up service began. -/
  logFrom : Nat := 0
  repeatAt : Option Time := none
  chargedAt : Option Time := none
  /-- The kind of a check that waits for the store to reach V_chg (R324, R327). -/
  wanted : Option Nat := none
  charged : Bool := false
  proofAt : Time := 0
  failStage : ModState := .init
  retryAt : Time := 0
  inrush : Nat := 0
  inrushAt : Option Time := none
  slotPins : Nat := 0
  mselPins : Nat := 0
  startedAt : Time := 0
  service : Bool := false
  /-- When the first start after the reset ended (R332). -/
  doneAt : Option Time := none
  presence : Option Time := none
  /-- Scrub passes with corrected errors and units that wait for replacement, by memory, column and number (R342). -/
  scrubs : Tbl (List Time) := []
  failing : List Nat := []
  removal : Option Time := none
  hotSince : Tbl Time := []
  /-- The latest junction reading of each domain (R399). -/
  junctions : Tbl Int := []
  storeHot : Bool := false
  deriving DecidableEq, Repr

/-- A session of the dictionary datagram protocol (R355, R356): source address (0 the service port), role rank, its key (none
where the role key is unset), both nonces, whether it has proved itself, the sequence of its last accepted request with the response stored for it (none
while a dictionary job or a long operation owes one), the request's header, its opening and its last valid datagram. -/
structure Session where
  src : Nat
  service : Bool
  rank : Nat
  key : Option (List Byte)
  proof : List Byte := []
  proved : Bool := false
  lastSeq : Option Nat := none
  resp : Option (List Byte) := none
  /-- The response stored before the last accepted request, while that one is not yet answered. -/
  was : Option (List Byte) := none
  /-- The last accepted request is not yet answered: a dictionary job, a long operation, a node or another module answers it. -/
  owes : Bool := false
  hdr : Option (Nat × Datagram) := none
  opened : Time
  heard : Time
  deriving DecidableEq, Repr

/-- An open write transfer of a byte string (R352, R357): its session, the bytes received, the instant of the last segment. -/
structure Transfer where
  sid : Nat
  data : List Byte
  at_ : Time
  deriving DecidableEq, Repr

/-- A snapshot of a segment read (R357). -/
structure Snap where
  sid : Nat
  entry : Nat
  data : List Byte
  at_ : Time
  deriving DecidableEq, Repr

/-- An image slot of the firmware flash (R369 to R371): the image, its version and security version, whether it is valid. -/
structure FwSlot where
  img : List Byte := []
  version : Nat := 0
  security : Nat := 0
  valid : Bool := true
  deriving DecidableEq, Repr

/-- The dictionary server and the firmware flash. `longInst` and `longImg` are the arguments of the running long operation,
`longSid` the session that started it (0 another path) and `longQuiet` that its start was answered at once (R361); `storing` is
what a configuration store took at its start; `failed` are the instants of failed proofs and `blocked` the ends of block times
by source; `rateStart` and `rateCount` count a pair's datagrams (R353); `trialFails` counts start failures of a trial in a row. -/
structure Server where
  longInst : Nat := 0
  longImg : List Byte := []
  longSid : Nat := 0
  /-- The session of the request being handled. -/
  cur : Nat := 0
  longQuiet : Bool := false
  /-- When the running long operation began. -/
  longAt : Time := 0
  /-- The number of the free values of its progress, and the last milestone that its checks pass (R94). -/
  longDraw : Nat := 0
  longCap : Nat := 0
  /-- Requests carried to another module that wait for its reply, oldest first: the session and when it was sent (R358). -/
  gate : List (Nat × Time) := []
  storing : Option (Tbl Int × Tbl (List Byte)) := none
  storingLocks : Nat := 0
  sessions : Tbl Session := []
  nextSid : Nat := 1
  failed : Tbl (List Time) := []
  blocked : Tbl Time := []
  transfers : Tbl Transfer := []
  snaps : List Snap := []
  rateStart : Tbl Time := []
  rateCount : Tbl Nat := []
  slots : Tbl FwSlot := []
  trialFails : Nat := 0
  deriving DecidableEq, Repr

/-- A TPDO beside its entries (R362): SYNCs counted, the mapped values last sent, the instant of the last sending. -/
structure TpdoRec where
  syncs : Nat := 0
  last : Option (List Byte) := none
  sentAt : Option Time := none
  deriving DecidableEq, Repr

/-- A GOOSE publication beside its entries (R366): the member list in force, the values of the present state number, messages sent
in it, the present interval in ms and the instant of the last message. -/
structure PubRec where
  members : List Nat := []
  last : Option (List Int) := none
  sqNum : Nat := 0
  interval : Nat := 0
  sentAt : Time := 0
  deriving DecidableEq, Repr

/-- A GOOSE subscription beside its entries (R367): the last message applied and its timeAllowedtoLive in ms. -/
structure SubRec where
  heard : Option Time := none
  ttl : Nat := 0
  deriving DecidableEq, Repr

/-- The networks. `boot` says that a CAN port has sent its boot-up message; `hb` is the instant of the last heartbeat heard, by
128 · port + node-ID; `late` the consumers whose heartbeat is overdue, `producer` and `prp` when a port's heartbeat and a pair's supervision
frame were sent last; `shortPdos` counts the RPDOs shorter than their mapping, by 8 · port + r (R362). -/
structure Net where
  tpdos : Tbl TpdoRec := []
  pubs : Tbl PubRec := []
  subs : Tbl SubRec := []
  boot : Tbl Bool := []
  hb : Tbl Time := []
  late : List Nat := []
  producer : Tbl Time := []
  prp : Tbl Time := []
  shortPdos : Tbl Nat := []
  /-- When a CAN port went bus-off (R360). -/
  busOff : Tbl Time := []
  deriving DecidableEq, Repr


/-- The machine. -/
structure State where
  /-- Module time of the latest command, in fine steps. -/
  now : Time
  /-- The model's own: counts the free values drawn so far. -/
  fresh : Nat
  /-- What the module sent or answered within the latest command. -/
  out : List Output
  /-- The commands waiting, first in, first out. -/
  pending : List Instr
  /-- The dictionary's numbers, by `key index sub elem`; an unlisted entry holds its default (R383). -/
  od : Tbl Int
  /-- The dictionary's byte strings; an unlisted one is empty. -/
  blobs : Tbl (List Byte)
  batches : Tbl BatchRec
  fixed : Tbl FixedSlot
  floats : Tbl FloatSlot
  gens : Tbl GenSlot
  fabric : Fabric
  meas : Meas
  pwm : Pwm
  links : Links
  aux : Aux
  island : Island
  clock : Clock
  acq : Acq
  log : Log
  rack : Rack
  power : Power
  srv : Server
  net : Net
  deriving DecidableEq, Repr

/-- The machine right after a first power-on (R328, R333): Init, reset kind 0x01, one reset counted, PD0 on, event 0x0002 waiting for
its commit, nothing stored, every other entry at its default. -/
def State.reset : State where
  now := 0
  fresh := 0
  out := []
  pending := []
  od := [(key 0x2000 6, 1), (key 0x2000 7, 1), (key 0x2100 1, 2)]
  blobs := []
  batches := []
  fixed := []
  floats := []
  gens := []
  fabric := {}
  meas := {}
  pwm := {}
  links := {}
  aux := {}
  island := {}
  clock := {}
  acq := {}
  log := { queue := [⟨0, 2, 0, [1, 0]⟩], codes := [(2, { level := 31 * 12800000000 })] }
  rack := {}
  power := {}
  srv := {}
  net := {}

end Sys2Proof.Machine
end

