-- ==== Sys2Proof/Machine/Ops.lean ====
section
/-! DEFINITION. The named operations that every family shares: reading and writing entries, time, answers, the batch state,
and the crumb-log event of R288. -/

namespace Sys2Proof.Machine

/-- Each command: it acts at its instant, or at the latest instant already reached, and starts with nothing sent
(DESIGN CHOICE, notes/assumptions/2). -/
def State.begin (t : Time) (s : State) : State := { s with now := max t s.now, out := [] }

/-- The outcome of every meaning of this block: a next state. -/
def done (s : State) : Host.Outcome State Fault Refusal := .next s

/-- An event whose stated condition does not hold is no event: only the instant passes (DEDUCED, notes/assumptions/3). -/
def State.when (c : Bool) (f : State → State) (s : State) : State := if c then f s else s

/-! ### Entries -/

/-- The value an unlisted entry holds (R383). -/
def dfltAt (od : Tbl Int) (k : Nat) : Int :=
  let index := k / 65536
  let sub := k / 256 % 256
  match descAt index sub with
  | none => 0
  | some d =>
    match d.dflt with
    | .fn => (fofInt ((Tbl.find? (key (0x4005 + (index - 0x4000) / 0x20 * 0x20) 3) od).getD 50)).toNat
    | _ => d.default index sub (k % 256) 0

/-- The number an entry holds. -/
def State.rd (k : Nat) (s : State) : Int :=
  match Tbl.find? k s.od with
  | some v => v
  | none => dfltAt s.od k

/-- An entry as a natural number. -/
def State.rdN (k : Nat) (s : State) : Nat := (s.rd k).toNat

/-- An F32 entry. -/
def State.rdF (k : Nat) (s : State) : F32 := BitVec.ofNat 32 (s.rdN k)

/-- A BOOL entry. -/
def State.rdB (k : Nat) (s : State) : Bool := s.rd k != 0

/-- Sets an entry. -/
def State.wr (k : Nat) (v : Int) (s : State) : State := { s with od := Tbl.set k v s.od }

/-- Sets an F32 entry. -/
def State.wrF (k : Nat) (v : F32) (s : State) : State := s.wr k v.toNat

/-- Returns an entry to its default. -/
def State.clr (k : Nat) (s : State) : State := { s with od := Tbl.erase k s.od }

/-- Counts `n` more at a 32-bit counter, which wraps. -/
def State.inc (k : Nat) (s : State) (n : Nat := 1) : State := s.wr k ((s.rdN k + n) % 2 ^ 32 : Nat)

/-- Bit `i` of an entry. -/
def State.bit (k i : Nat) (s : State) : Bool := (s.rdN k).testBit i

/-- `n` with bit `i` set to `v`. -/
def withBit (n i : Nat) (v : Bool) : Nat := if n.testBit i = v then n else if v then n + 2 ^ i else n - 2 ^ i

/-- Sets bit `i` of an entry to `v`. -/
def State.setBit (k i : Nat) (v : Bool) (s : State) : State := s.wr k (withBit (s.rdN k) i v : Nat)

/-- A byte string of the dictionary. -/
def State.blob (k : Nat) (s : State) : List Byte := Tbl.get [] k s.blobs
def State.wrBlob (k : Nat) (l : List Byte) (s : State) : State := { s with blobs := Tbl.set k l s.blobs }

/-- Module time in fine steps and in TAI ns (R265). -/
def State.modTime (s : State) : Nat := ((s.now : Int) + s.clock.offset).toNat
def State.tai (s : State) : Nat := Time.toNs s.modTime

/-- Sends a message or an answer. -/
def State.emit (o : Output) (s : State) : State := { s with out := s.out ++ [o] }
def State.msg (kind : String) (fields : List Int) (data : List Byte) (s : State) : State := s.emit (.msg kind fields data)
def State.answer (abort : Nat) (s : State) : State := s.emit (.reply abort 0 [])

/-- The next free value's number: advances the counter (the value is Config's). -/
def State.draw (s : State) : Nat × State := (s.fresh, { s with fresh := s.fresh + 1 })

/-! ### Records by instance -/

def State.batch (b : Nat) (s : State) : BatchRec := Tbl.get {} b s.batches
def State.setBatch (b : Nat) (r : BatchRec) (s : State) : State := { s with batches := Tbl.set b r s.batches }
def State.modBatch (b : Nat) (f : BatchRec → BatchRec) (s : State) : State := s.setBatch b (f (s.batch b))
def State.fx (i : Nat) (s : State) : FixedSlot := Tbl.get {} i s.fixed
def State.setFx (i : Nat) (r : FixedSlot) (s : State) : State := { s with fixed := Tbl.set i r s.fixed }
def State.fl (i : Nat) (s : State) : FloatSlot := Tbl.get {} i s.floats
def State.setFl (i : Nat) (r : FloatSlot) (s : State) : State := { s with floats := Tbl.set i r s.floats }
def State.gen (i : Nat) (s : State) : GenSlot := Tbl.get {} i s.gens
def State.setGen (i : Nat) (r : GenSlot) (s : State) : State := { s with gens := Tbl.set i r s.gens }

/-- Folds an operation over a list of instances. -/
def State.each {α : Type} (l : List α) (f : α → State → State) (s : State) : State := l.foldl (fun s a => f a s) s

/-- All batches. -/
def allBatches : List Nat := List.range 32

/-! ### Module and batch state -/

/-- The module state (R328). -/
def State.mod (s : State) : ModState := ModState.ofCode (s.rdN (key 0x2000 1))

/-- The state of batch b (R137). -/
def State.bstate (b : Nat) (s : State) : BatchState := BatchState.ofCode (s.rdN (bk 1 1 b))

/-- The batch kind (R95) and enable. -/
def State.kind (b : Nat) (s : State) : Nat := s.rdN (bk 0 1 b)
def State.benabled (b : Nat) (s : State) : Bool := s.rdB (bk 0 2 b)

/-- The loaded recipe of batch b (R103): its image is entry 0x8000 + b .01. -/
def State.recipe (b : Nat) (s : State) : Option Recipe :=
  let img := s.blob (key (0x8000 + b) 1)
  if img.isEmpty then none else some (readRecipe img)

/-- Control cycle U of batch b in counts (R180). -/
def State.cycleOf (b : Nat) (s : State) : Nat :=
  let u := s.rdN (bk 4 3 b)
  let p := s.rdN (bk 4 1 b)
  if u ≠ 0 then u else if s.rdN (bk 4 2 b) = 0 then p else p / 2

/-- Fine steps since the latest update point of batch b: in sync mode 0 a TAI multiple of its control cycle, in mode 1 a multiple of it
since the counter stood at position 0 (R180). -/
def State.updatePhase (b : Nat) (s : State) : Nat :=
  let u := 32 * s.cycleOf b
  if s.rdN (bk 4 4 b) = 0 then s.modTime % u else (s.now - (s.batch b).freeStart) % u

/-- Where the counter of a free-running batch stands, in fine steps: it runs from its start on while the batch is enabled, and stays where
it stopped while it is not (R180, sync mode 1). -/
def State.freeRun (b : Nat) (s : State) : Nat :=
  if s.benabled b then (((s.now : Int) - (s.batch b).freeStart) % (32 * s.rdN (bk 4 1 b) : Nat)).toNat else (s.batch b).freePos

/-- Whether batch b has an update point in this 2.5 ns count (R180). -/
def State.atUpdate (b : Nat) (s : State) : Bool := s.cycleOf b != 0 && decide (s.updatePhase b < 32)

/-- The channels of batch b (R380). -/
def State.members (b : Nat) (s : State) : List Nat :=
  (List.range 256).filter (fun c => (s.rdN (bk 3 (1 + c / 32) b)).testBit (c % 32))

/-- The output class of batch b (Table 18-3). -/
def State.outClass (b : Nat) (s : State) : Nat := s.rdN (bk 3 0xA b)

/-- The output class of a batch as its members' routes give it (Table 18-3). -/
def State.classOf (b : Nat) (s : State) : Nat :=
  let rs := (s.members b).map (fun c => s.rdN (key (0x3000 + c) 2))
  if rs.contains 3 then 1 else if rs.contains 1 || rs.contains 2 then 0 else 2

/-! ### Queue occupancy (R65, Table 03-4) -/

def State.queue (q : Nat) (s : State) : QueueRec := Tbl.get { batch := q } q s.fabric.queues
/-- The queue in force of batch b; queue b where none is mapped. -/
def State.queueOf (b : Nat) (s : State) : Nat := ((List.range 32).find? (fun q => (s.queue q).batch == b)).getD b

/-- The entries of batch b's queue: items that wait, tagged events, dictionary jobs, pending fault reactions. -/
def State.occupancy (b : Nat) (s : State) : Nat :=
  let r := s.batch b
  (match r.cyc with
    | some c => c.items - c.next - b2n c.lane.isSome + c.events
    | none => 0) + min 28 r.jobs.length + min 4 r.demands.length

/-- The queue in force that serves batch b, if there is one. -/
def State.servingQueue (b : Nat) (s : State) : Option Nat := (List.range 32).find? (fun q => (s.queue q).batch == b)

/-- Counts at an entry of the queue that serves batch b. -/
def State.incQueue (b sub : Nat) (s : State) : State :=
  match s.servingQueue b with
  | none => s
  | some q => s.inc (key (0x6500 + q) sub)

/-- Keeps the peak occupancy of the batch's queue. -/
def State.notePeak (b : Nat) (s : State) : State :=
  match s.servingQueue b with
  | none => s
  | some q => if s.rdN (key (0x6500 + q) 6) < s.occupancy b then s.wr (key (0x6500 + q) 6) (s.occupancy b) else s

/-! ### The crumb-log event (R288) -/

/-- One token of a bucket: tokens are counted in token·fine steps of a second. -/
def tokenUnit : Nat := 12800000000

def State.codeRec (c : Nat) (s : State) : CodeRec := Tbl.get {} c s.log.codes
def State.setCode (c : Nat) (r : CodeRec) (s : State) : State := { s with log := { s.log with codes := Tbl.set c r s.log.codes } }

/-- The bucket of a code filled up to now. -/
def CodeRec.filled (r : CodeRec) (now : Time) : CodeRec :=
  { r with level := min (r.burst * tokenUnit) (r.level + r.rate * (now - r.upTo)), upTo := max now r.upTo }

/-- An event that passed its bucket enters the write queue, the staging queue while frozen or clearing, or is lost
(R288, R291, R292). -/
def State.enqueueEvent (e : Event) (s : State) : State :=
  let lost (s : State) : State :=
    let r := s.codeRec e.code
    (s.setCode e.code { r with lost := r.lost + 1 }).inc (key 0x7100 6)
  if s.log.frozenSince.isSome || s.log.clearing then
    if s.log.staging.length < 4096 then
      ({ s with log := { s.log with staging := s.log.staging ++ [e] } }).wr (key 0x7100 0xC) (s.log.staging.length + 1 : Nat)
    else lost s
  else if s.log.records.length = 262144 then lost s
  else if s.log.queue.length < 1024 then { s with log := { s.log with queue := s.log.queue ++ [e] } }
  else lost s

/-- The EMCY messages of an event on the CAN ports whose class mask holds its class (R364). -/
def State.emcy (e : Event) (s : State) : State :=
  s.each [0, 1] (fun k s =>
    if s.rdB (key (0x2710 + k) 1) && s.bit (key (0x2710 + k) 0xA) (e.code / 256) then
      s.msg "EMCY" [k, 0xFF00 + e.code / 256, s.rd (key 0x1001 0), e.code, e.src] []
    else s)

/-- The event itself (R288): it takes a token or is suppressed. `inst` is bits 11:0 of the source. -/
def State.putEvent (code inst : Nat) (data : List Byte) (s : State) : State :=
  let src := code / 256 * 4096 + inst % 4096
  let r := (s.codeRec code).filled s.now
  if r.rate ≠ 0 && r.level < tokenUnit then
    (s.setCode code { r with pendingSupp := min 65535 (r.pendingSupp + 1) }).inc (key 0x7100 7)
  else
    let e : Event := ⟨s.tai, code, src, data⟩
    let s := s.setCode code (if r.rate = 0 then r else { r with level := r.level - tokenUnit })
    (s.enqueueEvent e).emcy e

/-- Bytes of a record's data field. -/
def d8 (n : Nat) : List Byte := leBytes 1 n
def d16 (n : Nat) : List Byte := leBytes 2 n
def d32 (n : Nat) : List Byte := leBytes 4 n
def d64 (n : Nat) : List Byte := leBytes 8 n
def df (x : F32) : List Byte := leBytes 4 x.toNat

/-! ### Power domains -/

/-- State and switch of domain d (Table 16-10). -/
def dk (d : Nat) : Nat := key 0x2100 (d + 1)
def swk (d : Nat) : Nat := key 0x2101 (d + 1)
def State.dom (d : Nat) (s : State) : Nat := s.rdN (dk d)
def State.domOn (d : Nat) (s : State) : Bool := s.dom d == 2

/-! ### The rack link -/

def State.modRack (f : Rack → Rack) (s : State) : State := { s with rack := f s.rack }
def State.modSrv (f : Server → Server) (s : State) : State := { s with srv := f s.srv }

/-- Type code of a rack message, whether its first field is the twin pair, and the widths of its payload (Table 15-2); the spec gives no
payload for 0x20 to 0x22 (notes/assumptions/121). What a gateway frame has beyond its widths is data bytes. -/
def rackForm (kind : String) : Nat × Bool × List Nat :=
  if kind = "HEARTBEAT" then (1, true, [1, 1, 4, 4, 1])
  else if kind = "GRANT" then (2, true, [4, 8])
  else if kind = "REVOKE" then (3, true, [4, 8])
  else if kind = "HANDOVER" then (4, true, [1])
  else if kind = "TIME_SYNC" then (5, false, [8])
  else if kind = "PREPARE" then (0x10, false, [4, 1, 8, 4, 4, 4, 4, 4])
  else if kind = "READY" then (0x11, false, [4, 1])
  else if kind = "REFUSE" then (0x12, false, [4, 1])
  else if kind = "COMMIT" then (0x13, false, [4])
  else if kind = "ABORT" then (0x14, false, [4])
  else if kind = "REPORT" then (0x15, false, [4, 4])
  else if kind = "ARM" then (0x20, false, [1, 8])
  else if kind = "FIRING" then (0x21, false, [1, 1, 8])
  else if kind = "ARM_REFUSED" then (0x22, false, [1])
  else (0x30, false, [1, 2, 1, 1, 1, 2, 4])

/-- The bytes of a rack message (Table 15-1). -/
def State.rackBytes (kind : String) (dst : Nat) (l : List Int) (s : State) : List Byte :=
  let (ty, paired, ws) := rackForm kind
  let pair : Int := if paired then l.headD 255 else 255
  let l := if paired then l.drop 1 else l
  let body := leBytes 1 ty ++ leBytes 1 (s.rdN (key 0x2500 1)) ++ leBytes 1 dst ++ leBytes 1 pair.toNat ++ leBytes 4 s.rack.seq ++ leBytes 8 s.tai
    ++ (ws.zip l).flatMap (fun p => leBytes p.1 p.2.toNat) ++ (l.drop ws.length).flatMap (fun x => leBytes 1 x.toNat)
  body ++ leBytes 4 (crc32 body)

/-- A rack message (Table 15-1) of the module: its kind, destination (255 all), sequence and payload, and its bytes. -/
def State.rackMsg (kind : String) (dst : Nat) (l : List Int) (s : State) : State :=
  let q := s.rack.seq
  (s.modRack (fun r => { r with seq := (q + 1) % 2 ^ 32 })).msg kind (((dst : Int) :: (q : Int) :: l)) (s.rackBytes kind dst l)

/-- The rack role: 0 standalone, 1 master, 2 member (R296). -/
def State.rackRole (s : State) : Nat := s.rdN (key 0x2500 3)

/-- Entries of the rack and twin objects. -/
def rkk (sub : Nat) : Nat := key 0x2500 sub
def twk (sub : Nat) : Nat := key 0x2510 sub

/-- The slot of the pair's arbiter (R308). -/
def State.arbiterSlot (s : State) : Nat := if s.rdN (twk 3) = 0 then s.rdN (rkk 2) else s.rdN (twk 4)

def State.twinRole (s : State) : Nat := s.rdN (twk 1)
def State.authority (s : State) : Nat := s.rdN (twk 7)

/-- Whether this module sends the state copy of a cycle with t0 `t`, in module time, or else receives it (R305, R313). -/
def State.copiesOut (t : Time) (s : State) : Bool :=
  s.twinRole != 0 && (match s.rack.turnAt with
    | some d => if s.authority = 1 then decide (d ≤ t) else s.authority == 2 && decide (t < d)
    | none => s.authority == 1)
def State.copiesIn (t : Time) (s : State) : Bool := s.twinRole != 0 && s.authority != 0 && !s.copiesOut t

/-- A message of slot `i` is heard (R296, R299): a module on the links ends standalone; the master is present again; the link on that side
is in sync (DEDUCED, notes/assumptions/121). -/
def State.hear (i : Nat) (s : State) : State :=
  let own := s.rdN (rkk 1)
  let s := ((s.modRack (fun r => { r with heard := some s.now })).setBit (rkk 5) i true).setBit (rkk 5) own true
  let s := if i < own then s.setBit (rkk 6) 0 true else if own < i then s.setBit (rkk 6) 1 true else s
  let s := if s.rackRole = 0 then s.wr (rkk 3) (if own = s.rdN (rkk 2) then 1 else 2 : Nat) else s
  if i = s.rdN (rkk 2) then (s.modRack (fun r => { r with masterAt := some s.now })).setBit (rkk 6) 2 false else s

/-! ### Captures and trigger units (R276 to R282) -/

/-- An entry of trigger unit u, of capture buffer k, of acquisition. -/
def tuk (u sub : Nat) : Nat := key (0x7010 + u) sub
def bfk (k sub : Nat) : Nat := key (0x70E0 + k) sub
def aqk (sub : Nat) : Nat := key 0x7000 sub

/-- A number that only a write lists: 0 where none is listed (these entries' default). -/
def State.set0 (k : Nat) (s : State) : Nat := ((Tbl.find? k s.od).getD 0).toNat

def State.acqBuf (k : Nat) (s : State) : AcqBuf := Tbl.get {} k s.acq.bufs
def State.setAcqBuf (k : Nat) (x : AcqBuf) (s : State) : State := { s with acq := { s.acq with bufs := Tbl.set k x s.acq.bufs } }
def State.trig (u : Nat) (s : State) : TrigRec := Tbl.get {} u s.acq.units
def State.setTrig (u : Nat) (x : TrigRec) (s : State) : State := { s with acq := { s.acq with units := Tbl.set u x s.acq.units } }
def State.acqState (s : State) : Nat := s.rdN (aqk 3)

/-- The capture buffers there are, at most 32 (R284), and the first one in a state of 0x70E0 .01. -/
def State.buffers (s : State) : List Nat := List.range (min 32 (s.rdN (aqk 6)))
def State.bufferIn (st : Nat) (s : State) : Option Nat := s.buffers.find? (fun k => s.rdN (bfk k 1) == st)

/-- The record period in counts (R280). -/
def State.recordCounts (s : State) : Nat :=
  let v := s.rdN (aqk 4)
  if 1 ≤ v && v ≤ 32 then s.cycleOf (v - 1) else s.rdN (aqk 5)

/-- Module time of a TAI time, and back (R265). -/
def nsToFine (n : Nat) : Time := 64 * n / 5

/-- Whether instant a of slot and unit comes before instant b of slot and unit (R281). -/
def firesBefore (a b : Time × Nat × Nat) : Bool :=
  if a.1 ≠ b.1 then a.1 < b.1 else if a.2.1 ≠ b.2.1 then a.2.1 < b.2.1 else a.2.2 < b.2.2

/-- Trigger instant, origin, markers and the last record's instant of a running capture, as its entries show them. -/
def State.showCapture (k : Nat) (s : State) : State :=
  let x := s.acqBuf k
  let s := ((s.wr (bfk k 2) (Time.toNs x.trig : Nat)).wr (bfk k 6) (if x.unit = 0xFF then 0xFF else x.slot * 256 + x.unit : Nat))
  (s.wr (bfk k 7) x.markers.length).wr (bfk k 8) (b2n x.maskStop)

/-- A firing with action bit 0, local or remote (R280, R281): the earliest starts the capture, each later one inside it is a marker.
Also says whether it is a capture overrun. Unit 0xFF is a mask test. -/
def State.captureFire (slot unit : Nat) (tm : Time) (s : State) : State × Bool :=
  let post := 32 * s.recordCounts * s.rdN (aqk 8)
  match s.bufferIn 2 with
  | some k =>
    let x := s.acqBuf k
    if x.last < tm then (s, false) else
    let mine := (tm, slot, unit)
    let old := (x.trig, x.slot, x.unit)
    let first := firesBefore mine old
    let mark := if first then old else mine
    let x := if first then
        { x with trig := tm, slot := slot, unit := unit, last := if s.rdB (aqk 0xA) then max x.last (tm + post) else tm + post }
      else x
    let room := decide (x.markers.length < 16)
    let x := if room then { x with markers := x.markers ++ [mark] } else { x with unlisted := x.unlisted ++ [mark.1] }
    let x := if s.rdB (aqk 0xA) then { x with last := max (max x.last (old.1 + post)) (mark.1 + post) } else x
    let x := if unit = 0xFF then { x with maskStop := true } else x
    let s := if room then s else s.inc (aqk 0xF)
    ((s.setAcqBuf k x).showCapture k, false)
  | none =>
    if s.acqState ≠ 2 then (s, false)
    else match s.bufferIn 1 with
      | some k =>
        let x := { (s.acqBuf k) with trig := tm, slot := slot, unit := unit, last := tm + post, markers := [], unlisted := [], maskStop := unit == 0xFF }
        (((s.setAcqBuf k x).wr (bfk k 1) 2).showCapture k, false)
      | none => (s.inc (aqk 0xE), true)

/-- TRIGGER_FIRED (R276, R281): counts, starts a capture and tells the rack, writes its event. `log` writes an event. -/
def State.fireUnit (log : Nat → Nat → List Byte → State → State) (u : Nat) (tm : Time) (s : State) : State :=
  let slot := s.rdN (key 0x2500 1)
  let acts := s.rdN (tuk u 0xC)
  let s := (s.inc (tuk u 0xD)).wr (tuk u 0xE) (Time.toNs tm : Nat)
  let s := if acts.testBit 0 then
      let p := s.captureFire slot u tm
      let s := if p.2 then log 0x0A03 0 (d8 u ++ d8 slot) p.1 else p.1
      if s.rackRole = 0 then s else s.rackMsg "FIRING" 255 [slot, u, Time.toNs tm]
    else s
  if acts.testBit 1 then log 0x0A00 0 (d8 u ++ d8 slot ++ d64 (Time.toNs tm)) s else s

/-- The trigger units that are enabled on a source type and selection. -/
def State.unitsOn (type sel : Nat) (s : State) : List Nat :=
  (List.range 16).filter (fun u => s.set0 (tuk u 1) != 0 && s.set0 (tuk u 2) == type && s.set0 (tuk u 3) == sel)

/-- What came about at an instant `d` that has passed, as it stands there. -/
def State.asOf (d : Time) (f : State → State) (s : State) : State := { (f { s with now := d }) with now := s.now }

/-- Whether the holdoff of unit u has passed (R276). -/
def State.holdoffOver (u : Nat) (s : State) : Bool :=
  match (s.trig u).lastFire with
  | some l => l + Time.ms (s.rdN (tuk u 0xB)) ≤ s.now
  | none => true

/-- An update of a source that every update satisfies (types 0x06 and 0x0B; R277, R278). -/
def State.everyUpdate (log : Nat → Nat → List Byte → State → State) (u : Nat) (tm : Time) (s : State) : State :=
  let r := s.trig u
  let q := s.rdN (tuk u 8)
  let start := if r.run = 0 || q ≤ r.run then tm else r.start
  let s := (s.setTrig u { r with run := min q (r.run + 1), start := start, held := true }).wr (tuk u 0xF) 1
  if q ≤ r.run + 1 && s.holdoffOver u then
    (s.setTrig u { (s.trig u) with lastFire := some s.now }).fireUnit log u start
  else s

/-- CRUMB_LOG_EVENT (R288) with the trigger units that watch its code (R276, type 0x0B): a unit fires at most once in the chain
of events that one event brings about (DESIGN CHOICE, notes/assumptions/43). -/
def State.logChain : Nat → List Nat → Nat → Nat → List Byte → State → State
  | 0, _, code, inst, data, s => s.putEvent code inst data
  | fuel + 1, used, code, inst, data, s =>
    let s := s.putEvent code inst data
    s.each ((s.unitsOn 0xB code).filter (fun u => !(used.contains u))) (fun u s =>
      s.everyUpdate (State.logChain fuel (u :: used)) u s.modTime)

/-- The trigger units on an event code, where the event itself has its own way into the log (R276, R292). -/
def State.logUnits (fuel : Nat) (used : List Nat) (code : Nat) (s : State) : State :=
  s.each ((s.unitsOn 0xB code).filter (fun u => !(used.contains u))) (fun u s => s.everyUpdate (State.logChain fuel (u :: used)) u s.modTime)

def State.logEvent (code inst : Nat) (data : List Byte) (s : State) : State := s.logChain 16 [] code inst data

end Sys2Proof.Machine
end

