-- ==== Sys2Proof/Machine/Access.lean ====
section
/-! DEFINITION. Host writes: the one order of checks of R348, with roles (R368), locks (R350), ownership (R348, R362, R367)
and BUSY (R351). Every row that is a host's write to an entry goes through `State.hostWrite`. -/

namespace Sys2Proof.Machine

/-! ### Abort codes (Table 17-17) -/

def abBusy : Nat := 0x0B000001
def abInUse : Nat := 0x0B000002
def abOwned : Nat := 0x0B000003
def abLocked : Nat := 0x0B000004
def abRole : Nat := 0x0B000005
def abPresence : Nat := 0x0B000006
def abRange : Nat := 0x06090030
def abNoIndex : Nat := 0x06020000
def abNoSub : Nat := 0x06090011
def abReadOnly : Nat := 0x06010002
def abWriteOnly : Nat := 0x06010001
def abLength : Nat := 0x06070010
def abTooLong : Nat := 0x06070012
def abState : Nat := 0x08000022

/-- The offset of a batch object (R379). -/
def batchOff (index : Nat) : Option Nat := if 0x4000 ≤ index && index < 0x4400 then some (index % 0x20) else none

/-- The lowest rank for a write of value `v` (Table 17-9). -/
def writeRank (index sub : Nat) (v : Int) : Nat :=
  if 0x2600 ≤ index && index ≤ 0x26FF then
    if (index == 0x2600 && sub == 2) || (index == 0x2620 && sub == 3) then 3 else 4
  else if 0x7800 ≤ index && index ≤ 0x78FF then
    if 0x7820 ≤ index && index < 0x7824 && (sub == 0xB || sub == 0xC) then 2 else 4
  else if batchOff index == some 2 || batchOff index == some 0xE then 2
  else if index == 0x2000 && sub == 3 then (if v == 6 || v == 7 then 3 else 2)
  else if 0x6600 ≤ index && index < 0x6640 && (sub == 2 || sub == 0xA) then 2
  else if index == 0x7000 && sub == 1 then 2
  else if 0x70E0 ≤ index && index < 0x7100 && (sub == 9 || sub == 0xA) then 2
  else if index == 0x7100 && sub == 0xA then 2
  else if index == 0x7102 then 2
  else 3

/-- The lock area of an entry (Table 17-3): 0 island, 1 interface protection, 2 hardware limits, 3 security. -/
def lockArea (index sub : Nat) : Option Nat :=
  if index == 0x7801 || (0x7820 ≤ index && index ≤ 0x7840) then some 0
  else if (0x7810 ≤ index && index ≤ 0x7819) || index == 0x7850 then some 1
  else if (batchOff index == some 9 && sub == 1) || (index == 0x3200 && (sub == 1 || sub == 2)) then some 2
  else if index == 0x2601 || index == 0x2610 || ((index == 0x2710 || index == 0x2711) && (sub == 6 || sub == 7)) then some 3
  else none

/-- Whether the lock bit of an area is set (R350). -/
def State.locked (area : Nat) (s : State) : Bool := s.bit (key 0x2600 1) area

/-- Whether a GOOSE subscription that is enabled names the entry as a target (R367). -/
def State.gooseOwned (index sub : Nat) (s : State) : Bool :=
  (List.range 16).any (fun i =>
    let o := 0x2750 + i
    s.rdB (key o 1) && (List.range (s.rdN (key o 8))).any (fun e =>
      let t := s.rdN (key o 7 (e + 1)) / 2 ^ 32
      t / 65536 == index && t / 256 % 256 == sub))

/-- Whether an RPDO in use maps the entry (R362): its COB-ID is valid and its mapping names it. -/
def State.rpdoOwned (index sub : Nat) (s : State) : Bool :=
  (List.range 16).any (fun i =>
    s.rdB (key (0x2710 + i / 8) 1) && s.rdN (key (0x1400 + i) 1) < 0x80000000
    && (List.range (s.rdN (key (0x1600 + i) 0))).any (fun e =>
      let m := s.rdN (key (0x1600 + i) (e + 1))
      m / 65536 == index && m / 256 % 256 == sub))

/-- The running long operation (R351); 0 is none. -/
def State.longOp (s : State) : Nat := s.rdN (key 0x2001 1)

/-- The last of the milestones `l` passed after `age`, `cap` being the last one that the operation does pass. The durations of the steps are
free. -/
def passed (l : List Nat) (cap draw : Nat) (age : Time) : Nat :=
  let due (i : Nat) : Nat := ((List.range (i + 1)).map (fun j => (Config.loadTime draw j).toNat)).sum
  min cap ((0 :: l).getD ((List.range l.length).takeWhile (fun i => due i ≤ age)).length 0)

/-- The figure of a recipe load (R94) and of a firmware update (R370): the milestones that its checks have passed. -/
def loadProgress : Nat → Nat → Time → Nat := passed [10, 40, 60, 80]
def updateProgress : Nat → Nat → Time → Nat := passed [10, 40, 50, 90]

/-- The progress figure in percent (0x2001 .02): 100 after the end; R351 states none for the operations but these two, and theirs is
free. -/
def State.progress (s : State) : Nat :=
  let age := s.now - s.srv.longAt
  if s.longOp = 0 then s.rdN (key 0x2001 2)
  else if s.longOp = 2 then loadProgress s.srv.longCap s.srv.longDraw age
  else if s.longOp = 6 then updateProgress s.srv.longCap s.srv.longDraw age
  else min 100 (Config.opProgress s.srv.longDraw age).toNat

/-- The code of a value out of range: 0x06090030, but 0x0B000041 for generator limits that are not finite and greater than 0 (R91) and
0x0B000085 for a carrier period (R180); 0 for bank coefficients, whose range is judged with their own conditions (R82). -/
def rangeAbort (index sub : Nat) (v : Int) : Nat :=
  if 0x6400 ≤ index && index < 0x6440 && 0x10 ≤ sub && sub ≤ 0x2F then 0
  else if 0x6600 ≤ index && index < 0x6640 && 3 ≤ sub && sub ≤ 6 && (!f32Finite v.toNat || f32Key v.toNat ≤ 0) then 0x0B000041
  else if 0x4000 ≤ index && index < 0x4400 && index % 0x20 = 4 && sub = 1 then 0x0B000085
  else abRange

/-- Checks 1 to 5 of R348 on a write of one value (`elem` 0, or an element of an array); 0 is a pass. `host` is false for the
writes of a subscription or an RPDO, which own their targets. -/
def State.accessCheck (rank : Nat) (host : Bool) (index sub elem : Nat) (v : Int) (s : State) : Nat :=
  match descAt index sub with
  | none => if indexExists index && !(sub == 0 && isRecord index) then abNoSub
            else if indexExists index then (if rank < writeRank index sub v then abRole else abReadOnly) else abNoIndex
  | some d =>
    if (d.n == 1 && elem != 0) || d.n < elem then abNoSub
    else if rank < writeRank index sub v then abRole
    else if d.acc == .ro then abReadOnly
    else if d.acc == .rwc && s.mod != .configuration then abState
    else if (d.acc == .rwl || index == 0x2601) && ((lockArea index sub).map (fun a => s.locked a)).getD false then abLocked
    else if host && (s.gooseOwned index sub || s.rpdoOwned index sub) then abOwned
    else 0

/-- Checks 1 to 7 of R348: the length and the range after the others. -/
def State.writeCheck (rank : Nat) (host : Bool) (index sub elem len : Nat) (v : Int) (s : State) : Nat :=
  let c := s.accessCheck rank host index sub elem v
  if c ≠ 0 then c
  else match descAt index sub with
    | none => 0
    | some d =>
      if len != d.ty.bytes then abLength
      else if !d.rng.ok d.ty v then rangeAbort index sub v
      else 0

/-- A refused request: the answer, and event 0x0B01 where the role was too low (R368). -/
def State.refuse (q : Req) (index sub e : Nat) (s : State) : State :=
  let s := s.answer e
  if e = abRole then s.logEvent 0x0B01 0 (d16 index ++ d8 sub ++ d8 q.role.rank) else s

/-- What an accepted write of an entry does: the object's own conditions (an abort code, 0 for none), the effect, and
whether the answer is given with it (a dictionary job or a long operation answers when it ends, R352). -/
structure Eff where
  own : State → Nat := fun _ => 0
  eff : State → State
  replies : Bool := true

/-! ### Answers of a session (R354, R356) -/

def State.session (sid : Nat) (s : State) : Option Session := Tbl.find? sid s.srv.sessions
def State.setSession (sid : Nat) (x : Session) (s : State) : State := { s with srv := { s.srv with sessions := Tbl.set sid x s.srv.sessions } }

/-- A datagram of Table 17-5: service, session, sequence, entry, flags, progress, parameter, data; the tag follows it. -/
def datagramBytes (svc sid seq index sub elem flags progress param : Nat) (data : List Byte) : List Byte :=
  d8 0x42 ++ d8 0x44 ++ d8 1 ++ d8 svc ++ d32 sid ++ d32 seq ++ d16 index ++ d8 sub ++ d8 elem ++ d8 flags ++ d8 progress
    ++ d16 data.length ++ d32 param ++ data

/-- The tag under a session key; zeros where the session has none (R354, R359). -/
def tagOf (key : Option (List Byte)) (l : List Byte) : List Byte :=
  match key with
  | some k => (hmac k l).take 16
  | none => List.replicate 16 0

/-- Sends a response to the source of its request: address (0 the service port), pair, port (R353). -/
def State.datagram (d : Datagram) (l : List Byte) (s : State) : State :=
  s.msg "DATAGRAM" [if d.service then 0 else d.src, d.pair, d.srcPort] l

/-- Sends a response of session `sid` to the request it handles; an accepted one is stored (R356). -/
def State.respond (sid flags progress param : Nat) (data : List Byte) (accept : Bool) (s : State) : State :=
  match s.session sid with
  | none => s
  | some x =>
    match x.hdr with
    | none => s
    | some (svc, d) =>
      let l := datagramBytes svc sid d.seq d.index d.sub d.elem flags progress param data
      let l := l ++ tagOf x.key l
      let s := if accept then s.setSession sid { x with lastSeq := some d.seq, resp := some l, owes := false } else s
      s.datagram d l

/-- BUSY to a request that is not accepted (R351, R356). -/
def State.busy (svc : Nat) (d : Datagram) (x : Session) (s : State) : State :=
  let l := datagramBytes svc d.sid d.seq d.index d.sub d.elem 5 (if s.longOp = 0 then 0 else s.progress) abBusy []
  s.datagram d (l ++ tagOf x.key l)

/-- Who waits for an answer beside the sessions: nobody (a subscription or an RPDO), the rack master's gateway (R358), the twin partner
(R304), a client of a CAN port (R361). These stand where a session ID stands. -/
def nobody : Nat := 2 ^ 32
def viaGateway : Nat := 2 ^ 32 + 1
def viaTwin : Nat := 2 ^ 32 + 2
def viaCan (k client : Nat) : Nat := 2 ^ 32 + 3 + 128 * k + client

/-- An answer to requester `sid`. -/
def State.deliver (sid e p : Nat) (l : List Byte) (s : State) : State :=
  if sid < nobody then (if e = abBusy then s.respond sid 5 p e l false else s.respond sid 1 0 e l true)
  else if sid = nobody then s
  else if sid = viaGateway then s.rackMsg "GATEWAY_REPLY" (s.rdN (key 0x2500 2))
    (([0, 0, 0, (p : Int), ((1 + 4 * b2n (e == abBusy) : Nat) : Int), (l.length : Int), (e : Int)] : List Int) ++ l.map (fun b => (b.toNat : Int)))
  else if sid = viaTwin then s.msg "TWIN_ACK" [e] l
  else s.msg "USDO" [((sid - viaCan 0 0) / 128 : Nat), ((sid - viaCan 0 0) % 128 : Nat), e] l

/-- What the server answered within this command goes to its requester as the response. -/
def State.sessionReply (sid : Nat) (s : State) : State :=
  if sid = 0 then s
  else
    let isReply (o : Output) : Bool := match o with
      | .reply _ _ _ => true
      | _ => false
    let rs := s.out.filter isReply
    let s := { s with out := s.out.filter (fun o => !isReply o) }
    s.each rs (fun o s => match o with
      | .reply e p l => s.deliver sid e p l
      | _ => s)

/-- Whether the server runs: PD5 on (Table 01-5). -/
def State.serverUp (s : State) : Bool := s.rdN (key 0x2100 6) == 2

/-- The answer to a session's request that was not answered at once. -/
def State.answerTo (sid e : Nat) (s : State) : State := (s.answer e).sessionReply sid

/-- The answer to a segment read: total length, and whether it reaches the end. -/
def State.segmentReply (sid total : Nat) (last : Bool) (l : List Byte) (s : State) : State :=
  if sid = 0 then s.emit (.reply 0 0 l)
  else if sid < nobody then s.respond sid (1 + 2 * b2n last) 0 total l true
  else s.rackMsg "GATEWAY_REPLY" (s.rdN (key 0x2500 2))
    (([0, 0, 0, 0, ((1 + 2 * b2n last : Nat) : Int), (l.length : Int), (total : Int)] : List Int) ++ l.map (fun b => (b.toNat : Int)))

/-- The segment at `offset` of an entry's `data`: the segment that does not reach the end leaves the snapshot `data` behind (R357). -/
def State.segmentOf (sid e offset limit : Nat) (data : List Byte) (s : State) : State :=
  let last := decide (data.length ≤ offset + limit)
  let s := if last then s else { s with srv := { s.srv with snaps := s.srv.snaps ++ [⟨sid, e, data, s.now⟩] } }
  s.segmentReply sid data.length last (Sys2Proof.slice offset limit data)

/-- The server handles a request of session `sid`. -/
def State.handling (sid : Nat) (s : State) : State := { s with srv := { s.srv with cur := sid } }

/-- A host's read that has an effect: it needs the server, which answers BUSY during a long operation (R351). -/
def State.hostGet (q : Req) (f : State → State) (s : State) : State :=
  if !s.serverUp then s
  else if s.longOp ≠ 0 then s.emit (.reply abBusy (s.progress) [])
  else f (s.handling q.sid)

/-- The session that waits for the result of a long operation just started (R351). -/
def State.longBy (q : Req) (was : Nat) (s : State) : State :=
  if was = 0 && s.longOp ≠ 0 then { s with srv := { s.srv with longSid := q.sid, longQuiet := false } } else s

/-! ### Digest objects of a twin pair (R304) -/

/-- The objects that enter the digest (R303): batch, chain, slot-bank, generator, channel and node objects, and the recipe images. -/
def digestIndex (i : Nat) : Bool :=
  (0x3000 ≤ i && i < 0x3100) || (0x3400 ≤ i && i < 0x3700) || (0x4000 ≤ i && i < 0x4400) || (0x5000 ≤ i && i < 0x5050)
    || (0x6000 ≤ i && i < 0x6440) || (0x6600 ≤ i && i < 0x6640) || (0x8000 ≤ i && i < 0x8020)

/-- A configured entry of these objects: one that a host may write and read back, but for the window to a node's registers. -/
def digestEntry (index sub : Nat) : Bool :=
  digestIndex index && !(0x3400 ≤ index && index < 0x3700 && 0x1C ≤ sub) && (match descAt index sub with
    | some d => d.acc == .rw || d.acc == .rwc || d.acc == .rwl
    | none => false)

/-- The writes that R304 governs: of the configured entries, and the copy of a batch's banks (0x4014 .04), which changes them. -/
def digestWrite (index sub : Nat) : Bool :=
  digestEntry index sub || (0x4000 ≤ index && index < 0x4400 && index % 0x20 == 0x14 && sub == 4)

/-- The batch that an object belongs to, whose queue carries the dictionary job of a plain entry: for a chain the first enabled one whose
recipe lists it (notes/assumptions/116); 255 for an object of none. -/
def State.entryBatch (index : Nat) (s : State) : Nat :=
  if 0x5000 ≤ index && index < 0x5050 then
    (allBatches.find? (fun b => s.benabled b && ((s.recipe b).map (fun r => r.chains.contains (index - 0x5000))).getD false)).getD 255
  else if 0x8000 ≤ index && index < 0x8020 then index - 0x8000
  else
  if 0x4000 ≤ index && index < 0x4400 then (index - 0x4000) / 0x20
  else if 0x3000 ≤ index && index < 0x3100 then s.rdN (key index 1)
  else if 0x3400 ≤ index && index < 0x3700 then s.rdN (key index 4)
  else if 0x6000 ≤ index && index < 0x6440 then s.rdN (key index 1)
  else if 0x6600 ≤ index && index < 0x6640 then s.rdN (key index 1)
  else 255

/-- The batches of a twin module (R302). -/
def State.twinBatches (s : State) : List Nat := allBatches.filter (fun b => s.benabled b)

/-- The module's own digest (R303): the CRC-32C of the configured entries of the twin batches' objects and of each recipe's identifier and
CRC; how they lie in the bytes no rule states (notes/assumptions/37). -/
def State.ownDigest (s : State) : Nat :=
  let l := s.twinBatches
  crc32c 0xFFFFFFFF (Config.digestImage
    (s.od.filter (fun e => digestEntry (e.1 / 65536) (e.1 / 256 % 256) && e.2 != dfltAt s.od e.1 && l.contains (s.entryBatch (e.1 / 65536))))
    (l.map (fun b => (s.rdN (key (0x8000 + b) 3), s.rdN (key (0x8000 + b) 5)))))

/-- Sends the forwarded writes that have not been sent, while the twin link is up. -/
def State.sendForwards (s : State) : State :=
  if s.rdN (key 0x2510 0xB) ≠ 2 then s else
  let s := s.each (s.rack.forwards.filter (fun f => !f.sent)) (fun f s => s.msg "TWIN_WRITE" [f.index, f.sub, f.elem] f.data)
  s.modRack (fun r => { r with forwards := r.forwards.map (fun f => { f with sent := true }) })

/-- The active module forwards a write: at once, or once the twin link is up (R304; notes/assumptions/116). -/
def State.forward (index sub elem : Nat) (data : List Byte) (s : State) : State :=
  (s.modRack (fun r => { r with base := if r.forwards.isEmpty then some s.ownDigest else r.base
                                forwards := r.forwards ++ [⟨index, sub, elem, data, s.srv.cur, false, none, false⟩] })).sendForwards

/-- The partner's digest, once no forwarded write is under way on either side: equal configurations stay equal (R303, R304; DEDUCED,
notes/assumptions/116). -/
def State.followDigest (s : State) : State :=
  if s.rack.inStep && s.rack.forwards.isEmpty && allBatches.all (fun b => (s.batch b).jobs.all (fun j => j.2.sid != viaTwin)) then
    s.modRack (fun r => { r with digest := some s.ownDigest })
  else s

/-- Changes the first of the forwarded writes that `hit` holds of; one that both modules have then applied is taken out, with its answer. -/
def settleFirst (hit : Forward → Bool) (f : Forward → Forward) : List Forward → List Forward × Option (Nat × Nat)
  | [] => ([], none)
  | x :: r =>
    if hit x then
      let y := f x
      match y.result, y.acked with
      | some e, true => (r, some (y.sid, e))
      | _, _ => (y :: r, none)
    else
      let (l, a) := settleFirst hit f r
      (x :: l, a)

/-- A forwarded write is applied here, or by the partner; the host is answered when both have (R304). -/
def State.settleForward (hit : Forward → Bool) (f : Forward → Forward) (s : State) : State :=
  let (l, a) := settleFirst hit f s.rack.forwards
  let s := s.modRack (fun r => { r with forwards := l })
  match a with
  | some (sid, e) => s.answerTo sid e
  | none => s

/-- The result of a request of session `sid` that was not answered at once: a forwarded write waits for the partner (R304). -/
def State.finish (sid e : Nat) (s : State) : State :=
  if s.rack.forwards.any (fun f => f.sid == sid && f.result.isNone) then
    s.settleForward (fun f => f.sid == sid && f.result.isNone) (fun f => { f with result := some e })
  else s.answerTo sid e

/-- An answer that the effect of a forwarded write has given waits for the partner (R304). -/
def State.holdReply (s : State) : State :=
  let code? (o : Output) : Option Nat := match o with
    | .reply e _ _ => some e
    | _ => none
  match s.out.findSome? code? with
  | some e => { s with out := s.out.filter (fun o => (code? o).isNone) }.finish s.srv.cur e
  | none => s

/-- Whether an entry is one of a twin batch that R304 governs: its write enters the digest (R303). -/
def State.twinEntry (index sub : Nat) (s : State) : Bool :=
  s.twinRole != 0 && digestWrite index sub && decide (s.entryBatch index < 32) && s.benabled (s.entryBatch index)

/-- A plain entry of a twin module takes its value by a dictionary job of its batch (R304), which answers; one of no batch at once. -/
def State.entryJob (index sub elem : Nat) (data : List Byte) (e : Eff) (s : State) : State :=
  let b := s.entryBatch index
  if b < 32 then
    (s.modBatch b (fun r => { r with jobs := r.jobs ++ [(.entry index sub elem data, { role := .safety, servicePort := false, sid := s.srv.cur })] })).notePeak b
  else (e.eff s).finish s.srv.cur 0

/-- The own conditions, then the effect and the answer; `data` are the bytes of the value. A write of a twin batch's entry is accepted on
the active module, which forwards it, and refused on another (R304). -/
def State.carryOut (index sub elem : Nat) (data : List Byte) (e : Eff) (s : State) : State :=
  let twin := s.twinEntry index sub
  let active := s.authority == 1
  if twin && !active && s.srv.cur ≠ viaTwin then s.answer 0x0B0000F5
  else if e.own s ≠ 0 then s.answer (e.own s)
  else
    let s := if twin && active then s.forward index sub elem data else s
    if !e.replies then (if twin && active then (e.eff s).holdReply else e.eff s)
    else if twin then s.entryJob index sub elem data e
    else (e.eff s).answer 0

/-- A host's write of one value (R348, R351): BUSY during a long operation, then the checks in order, then the effect. -/
def State.hostWrite (q : Req) (index sub elem : Nat) (v : Int) (e : Eff) (s : State) : State :=
  if !s.serverUp then s
  else if s.longOp ≠ 0 then s.emit (.reply abBusy (s.progress) [])
  else
    let len := ((descAt index sub).map (·.ty.bytes)).getD 0
    let s := s.handling q.sid
    let c := s.writeCheck q.role.rank true index sub elem len v
    if c ≠ 0 then s.refuse q index sub c
    else (s.carryOut index sub elem (((descAt index sub).map (fun d => d.ty.toBytes v)).getD []) e).longBy q s.longOp

/-- The effect of a plain entry: it takes the value. -/
def plainEff (index sub elem : Nat) (v : Int) : Eff := { eff := State.wr (key index sub elem) v }

/-- An own condition: the code where it fails. -/
def needs (c : Bool) (code : Nat) : Nat := if c then 0 else code

/-- The first code of a list of conditions that is not 0. -/
def firstFail : List Nat → Nat
  | [] => 0
  | e :: r => if e ≠ 0 then e else firstFail r

/-- The length of a byte string against its entry (R348). -/
def blobLength (index sub len : Nat) : Nat :=
  match (descAt index sub).map Desc.ty with
  | some (.vstr m) => if m < len then abTooLong else 0
  | some (.domain m) => if m < len then abTooLong else 0
  | _ => abLength

/-- The checks of R348 for a write whose value is a byte string (VSTR, DOMAIN): existence, role, access, lock, ownership, then the length. -/
def State.blobCheck (rank : Nat) (host : Bool) (index sub len : Nat) (s : State) : Nat :=
  let c := s.accessCheck rank host index sub 0 0
  if c ≠ 0 then c else blobLength index sub len

/-- A host's write of a byte string. -/
def State.hostBlob (q : Req) (index sub : Nat) (img : List Byte) (e : Eff) (s : State) : State :=
  if !s.serverUp then s
  else if s.longOp ≠ 0 then s.emit (.reply abBusy (s.progress) [])
  else
    let s := s.handling q.sid
    let c := s.blobCheck q.role.rank true index sub img.length
    if c ≠ 0 then s.refuse q index sub c else (s.carryOut index sub 0 img e).longBy q s.longOp

/-- Starts a long operation (R351, Table 17-4): number, start time, progress 0; its request is answered when it ends. -/
def State.startLong (n : Nat) (s : State) : State :=
  let (d, s) := s.draw
  let s := { s with srv := { s.srv with longAt := s.now, longDraw := d, longCap := 0 } }
  ((s.wr (key 0x2001 1) n).wr (key 0x2001 2) 0).wr (key 0x2001 4) s.tai

/-- Ends the running long operation with its result, which answers the request that started it, unless that was answered at once
(R361). Idle timers did not run meanwhile. -/
def State.endLong (e : Nat) (s : State) : State :=
  let s := ((s.wr (key 0x2001 1) 0).wr (key 0x2001 2) 100).wr (key 0x2001 3) e
  let s := { s with srv := { s.srv with sessions := s.srv.sessions.map (fun x => (x.1, { x.2 with heard := x.2.heard + (s.now - max x.2.heard s.srv.longAt) })) } }
  if s.srv.longQuiet then s else s.finish s.srv.longSid e

end Sys2Proof.Machine
end

