-- ==== Sys2Proof/Machine/Blocks.lean ====
section
/-! DEFINITION. The block library (R106 to R117), the grid-forming blocks (R123, R128, R130 to R133) and the ride-through
blocks (R142 to R148), evaluated record by record over the cycle scratch. -/

namespace Sys2Proof.Machine

/-- Where a block is evaluated: the state its cycle reads (R99), the batch, its recipe, the inputs latched at the
inputs-ready instant and the working values. -/
structure Ctx where
  s : State
  b : Nat
  r : Recipe
  t0 : Time
  inp : Tbl Int
  w : Work

abbrev Ev := StateM Ctx

/-! ### Slots, coefficients, marks -/

/-- Word k of the active bank of fixed slot i (R82). -/
def State.word (i k : Nat) (s : State) : Nat :=
  s.rdN (key (0x6000 + i) (0x10 + (if (s.fx i).st.bankB then 8 else 0) + k))

/-- Coefficient c_k of the active bank of float slot i. -/
def State.coef (i k : Nat) (s : State) : F32 :=
  s.rdF (key (0x6400 + i) (0x10 + (if (s.fl i).st.bankB then 16 else 0) + k))

namespace Ev

def setW (f : Work → Work) : Ev Unit := modify fun c => { c with w := f c.w }

/-- The working record of a fixed slot. -/
def fx (i : Nat) : Ev FixedState := do
  let c ← get
  return (Tbl.find? i c.w.fx).getD (c.s.fx i).st
def putFx (i : Nat) (f : FixedState) : Ev Unit := setW fun w => { w with fx := Tbl.set i f w.fx }
/-- The working record of a float slot. -/
def fl (i : Nat) : Ev FloatState := do
  let c ← get
  return (Tbl.find? i c.w.fl).getD (c.s.fl i).st
def putFl (i : Nat) (f : FloatState) : Ev Unit := setW fun w => { w with fl := Tbl.set i f w.fl }

/-- Mantissa k_j, exponent n_j and limits of a fixed slot's active bank. -/
def k (i j : Nat) : Ev Int := do return ofBits 16 ((← get).s.word i j)
def n (i j : Nat) : Ev Nat := do return (← get).s.word i 5 / 16 ^ j % 16
def hi (i : Nat) : Ev Int := do return ofBits 16 ((← get).s.word i 7)
/-- The lower limit; the virtual machine's is 0 while the batch runs in BlackStart (R168). -/
def lo (i : Nat) : Ev Int := do
  let c ← get
  if c.w.vm == some i && (c.s.batch c.b).bsRunning then return 0 else return ofBits 16 (c.s.word i 6)
/-- The nominal step D of words 3 and 4 (R113). -/
def stepD (i : Nat) : Ev Int := do
  let s := (← get).s
  return (s.word i 3 * 65536 + s.word i 4 : Nat)
/-- Coefficient c_j of a float slot's active bank. -/
def c (i j : Nat) : Ev F32 := do return (← get).s.coef i j
/-- State s_j of a float slot. -/
def st (i j : Nat) : Ev F32 := do return ((← fl i).s.getD j 0)
def putSt (i j : Nat) (v : F32) : Ev Unit := do
  let f ← fl i
  putFl i { f with s := (f.s ++ List.replicate (12 - f.s.length) 0).set j v }
def putY (i : Nat) (v : F32) : Ev Unit := do putFl i { (← fl i) with y := v }
/-- The last input or error of float slot i (Table 04-3): the error of the virtual machine, else the block's first operand (DESIGN CHOICE,
notes/assumptions/109). -/
def putX (i : Nat) (v : F32) : Ev Unit := do putFl i { (← fl i) with x1 := v }

/-- Saturation to acc40 with the overflow mark of slot i, where the block has one (R76). -/
def sata (i : Option Nat) (a : Int) : Ev Int := do
  if accOver a then
    match i with
    | some j => setW fun w => { w with ovf := j :: w.ovf }
    | none => pure ()
  return satAcc a
def mulk (i : Option Nat) (x kk : Int) (nn : Nat) : Ev Int := sata i (x * kk * 2 ^ nn)
def mac (i : Option Nat) (a x kk : Int) (nn : Nat) : Ev Int := sata i (a + x * kk * 2 ^ nn)
def countFull : Ev Unit := setW fun w => { w with fullSat := w.fullSat + 1 }
/-- A narrowing to the full range, counted where it saturates (R76, R107). -/
def narrowFull (a : Int) : Ev Int := do
  let y := rne a 15
  if y ≠ sat16 y then countFull
  return sat16 y
/-- `sat16` in a recipe block, counted where it saturates (R107). -/
def s16 (a : Int) : Ev Int := do
  if a ≠ sat16 a then countFull
  return sat16 a
/-- A narrowing with the slot's own limits; the mark says whether it saturated (R76). -/
def narrow (i : Nat) (a : Int) : Ev (Int × Bool) := do
  let y := rne a 15
  let l ← lo i
  let h ← hi i
  if y > h then
    putFx i { (← fx i) with satHigh := true }
    return (h, true)
  if y < l then
    putFx i { (← fx i) with satLow := true }
    return (l, true)
  return (y, false)
/-- `err` (R107). -/
def err (i : Option Nat) (r f : Int) : Ev Int := do narrowFull (← sata i (widen r - widen f))

/-- The result of a float operation in slot i, with the marks of R78 and R79. -/
def f (i : Nat) (x : FRes) : Ev F32 := do
  if x.sat then setW fun w => { w with fsat := i :: w.fsat }
  if x.nan then setW fun w => { w with nan := some (w.nan.getD i) }
  return x.v
def fadd (i : Nat) (x y : F32) : Ev F32 := f i (faddR x y)
def fsub (i : Nat) (x y : F32) : Ev F32 := f i (fsubR x y)
def fmul (i : Nat) (x y : F32) : Ev F32 := f i (fmulR x y)
def ffma (i : Nat) (x y z : F32) : Ev F32 := f i (ffmaR x y z)
def fdiv (i : Nat) (x y : F32) : Ev F32 := f i (fdivR x y)
def fsqrt (i : Nat) (x : F32) : Ev F32 := f i (fsqrtR x)
/-- F32 to Q15 (Table 04-1); a saturation sets the slot's status, or counts at .0D of the recipe object where the block has no slot: R107 names
narrowings and sat16 only (DESIGN CHOICE, notes/assumptions/109). -/
def toQ15 (i : Option Nat) (x : F32) : Ev Int := do
  let (v, sat) := f32ToQ15 x
  if sat then
    match i with
    | some j => setW fun w => { w with cvSat := j :: w.cvSat }
    | none => countFull
  return v
/-- A value already in code units to the nearest code, saturated (R131, R133, R142, R144, R147). -/
def toCode (i : Nat) (x : F32) : Ev Int := do
  let v := ftoFix x 0
  if v ≠ sat16 v then setW fun w => { w with cvSat := i :: w.cvSat }
  return sat16 v

/-! ### Operands and outputs -/

/-- The value of an operand (Table 05-5): a Q15 code, or the pattern of an F32. -/
def opv (op : Nat) : Ev Int := do
  let c ← get
  let x := op % 4096
  match op / 4096 with
  | 0x0 => return Tbl.get 0 x c.w.sig
  | 0x5 => return c.s.rd (key (0x6600 + x % 64) 7)
  | 0x6 => return if x / 2048 = 0 then c.r.q15.getD (x % 2048) 0 else (c.r.f32.getD (x % 2048) 0 : Nat)
  | 0x7 => return c.s.rd (bk 0xE x c.b)
  | 0xB => return if x < 1024 then (c.s.fx x).st.y else (c.s.fl (x - 1024)).st.y.toNat
  | _ => return Tbl.get 0 op c.inp
def q (b : Block) (j : Nat) : Ev Int := if j < b.opnds.length then opv (b.opnds.getD j 0) else pure 0
def ff (b : Block) (j : Nat) : Ev F32 := do return BitVec.ofNat 32 (← q b j).toNat
def out (b : Block) (j : Nat) (v : Int) : Ev Unit := setW fun w => { w with sig := Tbl.set (b.outSig + j) v w.sig }
def outF (b : Block) (j : Nat) (v : F32) : Ev Unit := out b j (v.toNat : Int)
def outs (b : Block) (l : List Int) : Ev Unit := do
  for p in List.zip (List.range l.length) l do out b p.1 p.2

/-! ### Shared arithmetic -/

/-- `integrate` (R80). -/
def integrate (i : Nat) (e : Int) : Ev Int := do
  let s0 ← fx i
  let p ← mulk i e (← k i 0) (← n i 0)
  let di ← mulk i e (← k i 1) (← n i 1)
  let t ← sata i ((← sata i (p + s0.s1)) + di)
  let (y, sat) ← narrow i t
  let s1 ← if sat then pure s0.s1 else sata i (s0.s1 + di)
  let s1 := clampI s1 (widen (← lo i)) (widen (← hi i))
  putFx i { (← fx i) with s1 := s1, y := y, x1 := e }
  return y

/-- One step of an angle slot (R113): outputs θ, then advances with x. -/
def angleOut (i : Nat) : Ev Int := do return wrapa (rne (← fx i).s1 15)
def angleStep (i : Nat) (th x : Int) : Ev Unit := do
  let d ← stepD i
  let a ← fx i
  putFx i { a with s1 := (a.s1 + d + rne (d * x) 15) % 2 ^ 30, y := th, x1 := x }

/-- The q component of Park alone (R113), Park and inverse Park (R108). -/
def parkQ (al be th : Int) : Ev Int := do
  narrowFull (← sata none ((← mulk none be (cosq th) 0) - (← mulk none al (sinq th) 0)))
def park (al be th : Int) : Ev (Int × Int) := do
  let sn := sinq th
  let cs := cosq th
  let d ← narrowFull (← mac none (← mulk none al cs 0) be sn 0)
  return (d, ← parkQ al be th)
def invPark (d q th : Int) : Ev (Int × Int) := do
  let sn := sinq th
  let cs := cosq th
  let al ← narrowFull (← sata none ((← mulk none d cs 0) - (← mulk none q sn 0)))
  let be ← narrowFull (← mac none (← mulk none d sn 0) q cs 0)
  return (al, be)

/-- `sogi` (R109). -/
def sogi (i : Nat) (x u : Int) : Ev (Int × Int) := do
  let s0 ← fx i
  let (v, _) ← narrow i s0.s1
  let (qv, _) ← narrow i s0.s2
  let k1 ← k i 1
  let n1 ← n i 1
  let n0 ← n i 0
  let g ← sata i ((← sata i ((← mulk i x k1 n1) - (← mulk i v k1 n1))) - widen qv)
  let g15 ← narrowFull g
  let s1 ← sata i (s0.s1 + rne (g15 * u) n0)
  let (v, _) ← narrow i s1
  let s2 ← sata i (s0.s2 + rne (v * u) n0)
  putFx i { (← fx i) with s1 := s1, s2 := s2, y := v, x1 := x }
  let (w, _) ← narrow i s2
  return (v, w)

/-- `pr` (R110). -/
def pr (i : Nat) (r fb u : Int) : Ev Int := do
  let s0 ← fx i
  let e ← err i r fb
  let p ← mulk i e (← k i 0) (← n i 0)
  let di ← mulk i e (← k i 1) (← n i 1)
  let x1 ← narrowFull s0.s1
  let x2 ← narrowFull s0.s2
  let (y, sat) ← narrow i (← sata i ((← sata i (p + s0.s1)) + di))
  let n3 ← n i 3
  let d1 ← sata i (-(rne (x2 * u) n3) - (← mulk i x1 (← k i 2) (← n i 2)))
  let d1 ← if sat then pure d1 else sata i (d1 + di)
  let s1 := clampI (← sata i (s0.s1 + d1)) (widen (← lo i)) (widen (← hi i))
  let s2 ← sata i (s0.s2 + rne ((← narrowFull s1) * u) n3)
  putFx i { (← fx i) with s1 := s1, s2 := s2, y := y, x1 := e }
  return y

/-- The ranks of R116: indices by value, highest first, the lower index first among equals. -/
def rankOf (l : List Int) : List Nat :=
  let idx := List.range l.length
  idx.foldl (fun acc i =>
    let v := l.getD i 0
    acc.takeWhile (fun j => l.getD j 0 ≥ v) ++ i :: acc.dropWhile (fun j => l.getD j 0 ≥ v)) []

end Ev

/-! ### What the module supplies to the blocks -/

def State.chainRec (c : Nat) (s : State) : ChainRec := Tbl.get {} c s.meas.chains
def State.sfd (d : Nat) (s : State) : SfdRec := Tbl.get {} d s.meas.sfds

/-- Whether the tracker on chain k reports tracking lost; one on a chain that is not enabled always does (R40). -/
def State.trackerLost (k : Nat) (s : State) : Bool := (s.chainRec k).tr.lost || !(s.rdB (key (0x5000 + k) 1))

/-- Whether chain c reports tracking lost (R46): the tracker it follows does; a chain that follows none never does. -/
def State.trackLost (c : Nat) (s : State) : Bool :=
  let f := s.rdN (key (0x5000 + c) 0xC)
  decide (f < 80) && s.trackerLost f

/-- The damping flag (R124). -/
def State.damping (b : Nat) (s : State) : Bool :=
  let st := s.bstate b
  let c := s.rdN (bk 5 6 b)
  (st == .connected || (st == .currentLimited && (s.batch b).entry == .connected)) && c < 80 && !(s.trackLost c)

/-- The segment number ⌊t0/T_s⌋ of an instant in TAI ns (R131). -/
def State.segment (b : Nat) (tai : Nat) (s : State) : Nat := tai / (s.rdN (bk 0x10 3 b) * 1000000)

/-- Whether the estimator may inject in the segment that began at TAI `t` (R131, R134, R135). -/
def State.mayInject (b : Nat) (segStart : Nat) (s : State) : Bool :=
  let r := s.batch b
  let island := s.rdN (bk 0x15 5 b)
  let window := s.bstate b == .islanded && r.impOnly && island.testBit 2 && s.now ≤ r.impTime + Time.sec 2
  s.rdB (bk 0x10 1 b) &&
  (window ||
   (s.bstate b == .connected && !island.testBit 2 &&
    Time.toNs r.connSince + s.rdN (bk 0x10 4 b) * s.rdN (bk 0x10 3 b) * 1000000 ≤ segStart))

namespace Ev

/-! ### The grid-forming blocks -/

/-- The virtual machine (R123). -/
def vm (b : Block) : Ev Unit := do
  let cx ← get
  let i := b.slot - 1024
  let a := b.param
  setW fun w => { w with vm := some a }
  let pe ← ff b 0
  let qe ← ff b 1
  let ps ← ff b 2
  let qs ← ff b 3
  let ws ← ff b 4
  let vs ← ff b 5
  let wg ← ff b 6
  let hs ← ff b 7
  let th ← angleOut a
  let dw ← st i 0
  let u ← fsub i ps pe
  putX i u
  let u ← if cx.s.damping cx.b then do ffma i (fneg (← c i 1)) (← fsub i dw wg) u else pure u
  let u ← ffma i (fneg (← c i 2)) (← fsub i dw ws) u
  let h ← st i 1
  let r ← fdiv i u (← fadd i h h)
  let dw1 ← ffma i (← c i 3) r dw
  let c13 ← c i 13
  let guard := cx.s.bit (bk 9 0xC cx.b) 2
  let lim := if guard then fmin c13 (cx.s.rdF (bk 0xA 9 cx.b)) else c13
  let beyond := flt lim (fabs dw1)
  let dw1 := if beyond then fcopySign lim dw1 else dw1
  if beyond then setW fun w => { w with clamps := w.clamps + 1 }
  let s2 ← st i 2
  let s2 ← ffma i (← c i 10) (← fsub i r s2) s2
  putSt i 2 s2
  let ht0 ← fmul i (← c i 0) hs
  let adapt := !(feq (← c i 15) 0)
  let prod ← if adapt then fmul i dw1 s2 else pure 0
  let ht ←
    if adapt && flt (← c i 8) (fabs s2) && flt 0 prod then do
      ffma i (← c i 7) (← fsub i (fabs s2) (← c i 8)) ht0
    else if adapt && flt (← c i 11) (fabs dw1) && flt prod 0 then c i 5
    else pure ht0
  let ht := fclamp ht (← c i 5) (← c i 6)
  let c9 ← c i 9
  let h1 ← fadd i h (fclamp (← fsub i ht h) (fneg c9) c9)
  putSt i 1 h1
  putSt i 0 dw1
  let ep ← ffma i (fneg (← c i 14)) (← fsub i qe qs) vs
  putSt i 3 ep
  let ar ← fx a
  let d ← stepD a
  let stp := roundRat (fval (← c i 12) * fval dw1)
  let eq ← toQ15 i (← fmul i ep (← c i 4))
  let (e, _) ← narrow a (widen eq)
  putFx a { (← fx a) with s1 := (ar.s1 + d + stp) % 2 ^ 30, y := e, x1 := th }
  putY i dw1
  out b 0 th
  out b 1 e
  outF b 2 dw1

/-- The virtual impedance (R128, R143). -/
def virtualImpedance (b : Block) : Ev Unit := do
  let cx ← get
  let i := b.slot
  let e ← q b 0
  let id ← q b 1
  let iq ← q b 2
  let rsum := (← k i 0) + (← q b 3)
  let xsum := (← k i 1) + (← q b 4) + (← q b 5)
  let rv ← s16 rsum
  let xv ← s16 xsum
  if rsum ≠ rv || xsum ≠ xv then setW fun w => { w with ceiling := true }
  let n0 ← n i 0
  let n1 ← n i 1
  let (vd, _) ← narrow i (← sata i ((← sata i (widen e - (← mulk i id rv n0))) + (← mulk i iq xv n1)))
  let (vq, _) ← narrow i (← sata i (-(← mulk i iq rv n0) - (← mulk i id xv n1)))
  let scale : Rat := fval (cx.s.rdF (bk 5 4 cx.b)) / fval (cx.s.rdF (bk 5 5 cx.b)) / 32768
  setW fun w => { w with
    effR := some (fofRat (((rv * 2 ^ n0 : Int) : Rat) * scale))
    effX := some (fofRat (((xv * 2 ^ n1 : Int) : Rat) * scale)) }
  putFx i { (← fx i) with y := vd, x1 := e }
  out b 0 vd
  out b 1 vq

/-- The negative-sequence controller (R130, R148). -/
def negSeq (b : Block) : Ev Unit := do
  let cx ← get
  let i := b.slot
  let th ← q b 2
  let mth := wrapa (-th)
  let (d, qq) ← park (← q b 0) (← q b 1) mth
  let vf := fval (cx.s.rdF (bk 5 4 cx.b))
  let mag (x y : Int) : F32 := fsqrtRat (((x * x + y * y : Int) : Rat) / 2 ^ 30 * vf * vf)
  setW fun w => { w with negV := some (mag d qq) }
  let mode := cx.s.rdN (bk 0x16 1 cx.b)
  if mode = 0 then
    putFx i { (← fx i) with s1 := 0 }
    putFx (i + 1) { (← fx (i + 1)) with s1 := 0 }
    setW fun w => { w with negMag := 0, noErr := i :: (i + 1) :: w.noErr }
    outs b [0, 0]
  else
    let useRef := b.mode == 1 && mode == 2
    let rd ← if useRef then q b 3 else pure 0
    let rq ← if useRef then q b 4 else pure 0
    let yd ← integrate i (← err i rd d)
    let yq ← integrate (i + 1) (← err (some (i + 1)) rq qq)
    let (al, be) ← invPark yd yq mth
    let f0 ← fx i
    let f1 ← fx (i + 1)
    setW fun w => { w with negMag := mag al be, negLimit := f0.satHigh || f0.satLow || f1.satHigh || f1.satLow }
    outs b [al, be]

/-- One step toward a goal by at most `stp`. -/
def toward (i : Nat) (x goal stp : F32) : Ev F32 := do fadd i x (fclamp (← fsub i goal x) (fneg stp) stp)

/-- A phasor of the estimator: amplitude × (cosq, sinq)(phase)/32,768 (R132). -/
def phasor (i : Nat) (amp ph : Int) : Ev (F32 × F32) := do
  return (← fmul i (fofInt amp) (fofFix (cosq ph) 15), ← fmul i (fofInt amp) (fofFix (sinq ph) 15))

/-- IMPEDANCE_ESTIMATE (R132, R133): the estimate of the reference segment. States: s0 xa, s1 hs (0 is the neutral 1.0),
s2 to s5 the on-phasors, s6 whether they are held (1) or spoilt (2), s7 and s8 the two raw |Z| before, s9 their number
(DESIGN CHOICE, notes/assumptions/10). -/
def estimate (b : Block) (i : Nat) (valid : Bool) (onStart : Nat) (v2 i2 : F32 × F32) : Ev Unit := do
  let cx ← get
  let s := cx.s
  let flag ← st i 6
  putSt i 6 0
  let same := (s.batch cx.b).swapsAtOn == s.rdN (bk 0x14 7 cx.b)
    && !((s.batch cx.b).onConnected && !(s.bstate cx.b == .connected && decide (Time.toNs (s.batch cx.b).connSince ≤ onStart)))
  if !(feq flag 0) then
    let vr ← fsub i (← st i 2) v2.1
    let vi ← fsub i (← st i 3) v2.2
    let ir ← fsub i (← st i 4) i2.1
    let ii ← fsub i (← st i 5) i2.2
    let c3 ← c i 3
    let gr ← ffma i c3 vi ir
    let gi ← ffma i (fneg c3) vr ii
    let g2 ← ffma i gr gr (← fmul i gi gi)
    let gm ← fsqrt i g2
    if !(feq flag f1) || !valid || !same || flt gm (← c i 4) || feq g2 0 then
      setW fun w => { w with estReject := true }
    else
      let ri ← fdiv i f1 g2
      let kz := fofRat (fval (s.rdF (bk 5 4 cx.b)) / fval (s.rdF (bk 5 5 cx.b)))
      let zr ← fmul i (← fmul i (← ffma i vr gr (← fmul i vi gi)) ri) kz
      let zi ← fmul i (← fmul i (← ffma i vi gr (fneg (← fmul i vr gi))) ri) kz
      let xg ← fdiv i zi (fofInt b.param)
      let az ← fsqrt i (← ffma i zr zr (← fmul i zi zi))
      let am ← fsqrt i (← ffma i zr zr (← fmul i xg xg))
      let scr ← fdiv i f1 am
      let p1 ← st i 7
      let p2 ← st i 8
      let cnt ← st i 9
      putSt i 8 p1
      putSt i 7 az
      putSt i 9 (if flt cnt 0x40000000 then (faddR cnt f1).v else cnt)
      setW fun w => { w with estRaw := some az }
      let mean ← fdiv i (← fadd i (← fadd i az p1) p2) 0x40400000
      let tol ← fmul i (← c i 2) mean
      let near (z : F32) : Bool := fle (fabs (fsubR z mean).v) tol
      if feq cnt 0x40000000 && near az && near p1 && near p2 then
        setW fun w => { w with estAccept := true, estRX := some (zr, xg, scr) }
        if s.rdB (bk 0x10 8 cx.b) && s.bstate cx.b == .connected then
          let xa ← st i 0
          let goal := fclamp (← fsub i (← fsub i (← c i 5) (← c i 15)) xg) (← c i 6) (← c i 7)
          putSt i 0 (← toward i xa goal (← c i 12))
          let hs ← st i 1
          let hs := if feq hs 0 then f1 else hs
          let lo ← c i 8
          let hi ← c i 10
          let m ←
            if fle scr lo then c i 9
            else if fle hi scr then c i 11
            else do
              let sl ← fdiv i (← fsub i (← c i 11) (← c i 9)) (← fsub i hi lo)
              ffma i (← fsub i scr lo) sl (← c i 9)
          putSt i 1 (← toward i hs m (← c i 13))
  if !(s.rdB (bk 0x10 8 cx.b)) then
    putSt i 0 (← toward i (← st i 0) 0 (← c i 12))
    let hs ← st i 1
    if !(feq hs 0) then putSt i 1 (← toward i hs f1 (← c i 13))

/-- The impedance estimator block (R131 to R134). Where injection has stopped, pending on-phasors are discarded and their estimate is rejected. -/
def estimator (b : Block) : Ev Unit := do
  let cx ← get
  let i := b.slot - 1024
  setW fun w => { w with est := some i }
  let s := cx.s
  let ts := s.rdN (bk 0x10 3 cx.b) * 1000000
  let np : Nat := s.rdN (bk 0x10 4 cx.b)
  let kon := s.rdN (bk 0x10 5 cx.b)
  let t := Time.toNs (((cx.t0 : Int) + s.clock.offset).toNat)
  let seg := s.segment cx.b t
  let last := s.segment cx.b (Time.toNs ((((cx.t0 + Time.counts (s.cycleOf cx.b) : Nat) : Int) + s.clock.offset).toNat)) != seg
  let may := s.mayInject cx.b (seg * ts)
  let onSeg := seg % np == kon
  let refSeg := seg % np == kon + 1
  let d0 := (b.opnds.getD 1 0) % 4096 / 64
  let d1 := (b.opnds.getD 3 0) % 4096 / 64
  let valid := (s.sfd d0).ok && (s.sfd d1).ok
  let tone := onSeg && may
  let phi := wrapa ((b.param : Int) * (← q b 0))
  putX i (fofFix (← q b 0) 15)
  let c0 ← c i 0
  let ta ← if tone then do toCode i (← fmul i c0 (fofFix (cosq phi) 15)) else pure 0
  let tb ← if tone then do toCode i (← fmul i c0 (fofFix (sinq phi) 15)) else pure 0
  let v ← phasor i (← q b 1) (← q b 2)
  let cu ← phasor i (← q b 3) (← q b 4)
  if tone && last then
    putSt i 2 v.1
    putSt i 3 v.2
    putSt i 4 cu.1
    putSt i 5 cu.2
    putSt i 6 (if valid then f1 else 0x40000000)
    setW fun w => { w with onSnap := true }
  if !may && feq (← st i 6) f1 then
    for j in [2, 3, 4, 5] do putSt i j 0
    putSt i 6 0x40000000
  if refSeg && last then estimate b i valid ((seg - 1) * ts) v cu
  let xa ← st i 0
  let hs ← st i 1
  outs b [ta, tb, ← toCode i (← fmul i xa (← c i 14))]
  outF b 3 (if feq hs 0 then f1 else hs)

/-! ### The ride-through blocks -/

/-- The virtual-impedance limiter (R142). -/
def vil (b : Block) : Ev Unit := do
  let i := b.slot - 1024
  let e ← q b 0
  let vd ← q b 1
  let vq ← q b 2
  let c0 ← c i 0
  putX i (fofFix e 15)
  let x ← fmul i (fofInt (e - vd)) c0
  let y ← fmul i (fofInt vq) c0
  let zr ← fmul i (← fsqrt i (← ffma i x x (← fmul i y y))) (← c i 1)
  let g ← ffma i zr zr (fneg (← c i 3))
  let c2 ← c i 2
  let dz ← if flt 0 g then do fsub i (← fsqrt i (← ffma i c2 c2 g)) c2 else pure 0
  let lo ← fsub i (← st i 0) (← c i 6)
  let dz := if flt dz lo then lo else dz
  let dz := if flt dz 0 then 0 else dz
  putSt i 0 dz
  putY i dz
  if flt 0 dz then setW fun w => { w with engaged := true, added := true }
  outs b [← toCode i (← fmul i (← fmul i dz (← c i 4)) (← c i 7)), ← toCode i (← fmul i (← fmul i dz (← c i 5)) (← c i 8))]

/-- withdraw() (R144): the slots of loop role 2 (role 3 in kind 0x03) that produce idr or iqr. -/
def withdraw (b : Block) : Ev Unit := do
  let cx ← get
  for k in [0, 1] do
    match cx.r.producer (b.opnds.getD k 0xFFFF) with
    | none => pure ()
    | some p =>
      if p.role == 2 || (p.role == 3 && cx.r.kind == 3) then
        for sl in cx.r.slotsOf p do
          if sl < 1024 then
            putFx sl { (← fx sl) with s1 := (cx.s.fx sl).st.s1 }
            setW fun w => { w with held := sl :: w.held }

/-- The reference limiter (R144). -/
def refLimiter (b : Block) : Ev Unit := do
  let i := b.slot - 1024
  let c0 ← c i 0
  let c1 ← c i 1
  let c4 ← c i 4
  putX i (fofFix (← q b 0) 15)
  let nd ← fmul i (fofInt (← q b 3)) c0
  let nq ← fmul i (fofInt (← q b 4)) c0
  let nm ← fsqrt i (← ffma i nd nd (← fmul i nq nq))
  let neg := flt c4 nm
  let k ← if neg then fdiv i c4 nm else pure f1
  let nd ← if neg then fmul i nd k else pure nd
  let nq ← if neg then fmul i nq k else pure nq
  let nm := if neg then c4 else nm
  let bud ← fsub i c1 nm
  let d ← fmul i (fofInt (← q b 0)) c0
  let qv ← fmul i (fofInt ((← q b 1) - (← q b 2))) c0
  let m ← fsqrt i (← ffma i d d (← fmul i qv qv))
  putSt i 0 m
  let pos := flt bud m
  let (d, qv) ←
    if pos then
      if feq (← c i 2) f1 then do
        let q1 := fclamp qv (fneg bud) bud
        let r ← fsqrt i (← ffma i (fneg q1) q1 (← fmul i bud bud))
        pure (fcopySign (fmin (fabs d) r) d, q1)
      else do
        let k ← fdiv i bud m
        pure (← fmul i d k, ← fmul i qv k)
    else pure (d, qv)
  let lim := neg || pos
  let bound ← fadd i (← fsqrt i (← ffma i d d (← fmul i qv qv))) nm
  putSt i 1 bound
  putY i bound
  let dip := (← get).w.dip
  if lim then setW fun w => { w with engaged := true, lim := true }
  if lim || dip then withdraw b
  let c3 ← c i 3
  let o := [← toCode i (← fmul i d c3), ← toCode i (← fmul i qv c3)]
  let o2 := [← toCode i (← fmul i nd c3), ← toCode i (← fmul i nq c3)]
  outs b (if b.outs = 4 then o ++ o2 else o)

/-- The injection block (R147). -/
def injection (b : Block) : Ev Unit := do
  let cx ← get
  let i := b.slot - 1024
  let c0 ← c i 0
  putX i (fofFix (← q b 0) 15)
  let a ← fmul i (fofInt (← q b 0)) c0
  let bb ← fmul i (fofInt (← q b 1)) c0
  let nd ← q b 2
  let nq ← q b 3
  let v ← fsqrt i (← ffma i a a (← fmul i bb bb))
  let was := !(feq (← st i 2) 0)
  let on := (cx.s.batch cx.b).outOn
  let c2 ← c i 2
  let c3 ← c i 3
  let c4 ← c i 4
  let inBand := fle (← fadd i c2 c4) v && fle v (← fsub i c3 c4)
  let dip := if !on then false else if was then !inBand else flt v c2 || flt c3 v
  let pre0 ← st i 0
  let pre0 := if on then pre0 else v
  let pre ← if dip then pure pre0 else do ffma i (← c i 1) (← fsub i v pre0) pre0
  putSt i 0 pre
  putSt i 1 v
  putSt i 2 (if dip then f1 else 0)
  putY i v
  setW fun w => { w with dip := dip }
  if !dip || feq (← c i 8) 0 then outs b [0, 0, 0, 0, 0]
  else
    let c6 ← c i 6
    let c7 ← c i 7
    let i1 ← fmul i (← c i 5) (← fsub i pre v)
    let nvd ← fmul i (fofInt nd) c0
    let nvq ← fmul i (fofInt nq) c0
    outs b [← toCode i (← fmul i i1 c7), ← toCode i (← fmul i (fneg (← fmul i c6 nvq)) c7),
            ← toCode i (← fmul i (← fmul i c6 nvd) c7), nd, nq]

/-! ### The general blocks -/

/-- Linear combination (R111). -/
def linComb (b : Block) : Ev Unit := do
  let i := b.slot
  let mut t ← mulk i (← q b 0) (← k i 0) (← n i 0)
  for j in List.range (b.opnds.length - 1) do
    t ← sata i (t + (← mulk i (← q b (j + 1)) (← k i (j + 1)) (← n i (j + 1))))
  t ← sata i (t + (← k i 4) * 2 ^ 15)
  let (y, _) ← narrow i t
  putFx i { (← fx i) with y := y, x1 := (← q b 0) }
  out b 0 y

/-- Zero-sequence injection (R114). -/
def zeroSeq (b : Block) : Ev Unit := do
  let a ← q b 0
  let b1 ← q b 1
  let c1 ← q b 2
  let mx := max a (max b1 c1)
  let mn := min a (min b1 c1)
  let v0 : Int ← match b.mode with
    | 0 => pure 0
    | 1 => do
      let m ← narrowFull (← mulk none (← q b 3) 5461 0)
      pure (-(← narrowFull (← mulk none m (sinq (wrapa (3 * (← q b 4)))) 0)))
    | 2 => pure (rne (-(mx + mn)) 1)
    | _ => pure (if mx + mn ≥ 0 then 32767 - mx else -32768 - mn)
  outs b [← s16 (a + v0), ← s16 (b1 + v0), ← s16 (c1 + v0)]

/-- Cell balance offsets (R116). -/
def balance (b : Block) : Ev Unit := do
  let i := b.slot
  let nn := b.opnds.length
  let k1 := roundRat (32768 / (nn : Rat))
  let mut t : Int := 0
  for j in List.range nn do
    t := t + (← mulk i (← q b j) k1 0)
  let m ← narrowFull (← sata i t)
  for j in List.range nn do
    let e ← err i (← q b j) m
    let (y, _) ← narrow i (← mulk i e (← k i 0) (← n i 0))
    out b j y
    if j = 0 then putFx i { (← fx i) with y := y, x1 := (← q b 0) }

/-- One block record, in record order (R96, R99); none runs once a result was NaN (R79). -/
def block (b : Block) : Ev Unit := do
  let cx ← get
  if cx.w.nan.isSome then return
  let i := b.slot
  let n := b.opnds.length
  for sl in cx.r.slotsOf b do
    if sl < 1024 then putFx sl { (← fx sl) with satHigh := false, satLow := false }
    else putFl (sl - 1024) { (← fl (sl - 1024)) with sat := false }
  match b.code with
  | 0x0001 =>
    let core := b.param / 256
    let sl := b.param % 8
    setW fun w => { w with rawReads := w.rawReads ++ [(core, sl)] }
    out b 0 (cx.s.rd (key (0x5080 + core) (0x10 + sl)))
  | 0x0002 =>
    for j in List.range n do
      if b.mode = 0 then outF b j (fofFix (← q b j) 15) else out b j (← toQ15 none (← ff b j))
  | 0x0003 => linComb b
  | 0x0010 =>
    let a ← q b 0
    let b1 ← q b 1
    let c1 ← q b 2
    let al ← narrowFull (← mac none (← mac none (← mulk none a 21845 0) b1 (-10923) 0) c1 (-10923) 0)
    let be ← narrowFull (← mac none (← mulk none b1 18919 0) c1 (-18919) 0)
    outs b [al, be]
    if b.mode = 1 then
      out b 2 (← narrowFull (← mac none (← mac none (← mulk none a 10923 0) b1 10923 0) c1 10923 0))
  | 0x0011 =>
    let al ← q b 0
    let be ← q b 1
    let m ← mulk none al (-16384) 0
    outs b [al, ← narrowFull (← mac none m be 28378 0), ← narrowFull (← mac none m be (-28378) 0)]
  | 0x0012 =>
    let (d, qq) ← park (← q b 0) (← q b 1) (← q b 2)
    outs b [d, qq]
  | 0x0013 =>
    let th2 ← q b 2
    let adv ← q b 3
    let th := if n = 4 then wrapa (th2 + adv) else th2
    let (al, be) ← invPark (← q b 0) (← q b 1) th
    outs b [al, be]
  | 0x0014 =>
    let u ← q b 2
    let (va, qa) ← sogi i (← q b 0) u
    let (vb, qb) ← sogi (i + 1) (← q b 1) u
    outs b [← narrowFull (← mac none (← mulk none va 16384 0) qb (-16384) 0),
            ← narrowFull (← mac none (← mulk none qa 16384 0) vb 16384 0),
            ← narrowFull (← mac none (← mulk none va 16384 0) qb 16384 0),
            ← narrowFull (← mac none (← mulk none vb 16384 0) qa (-16384) 0)]
  | 0x0020 => out b 0 (← integrate i (← err i (← q b 0) (← q b 1)))
  | 0x0021 => out b 0 (← pr i (← q b 0) (← q b 1) (← q b 2))
  | 0x0030 =>
    let x ← q b 0
    let s0 ← fx i
    let k0 ← k i 0
    let n0 ← Ev.n i 0
    let s1 ← sata i (s0.s1 + (← sata i ((← mulk i x k0 n0) - (← mulk i s0.y k0 n0))))
    let (y, _) ← narrow i s1
    putFx i { (← fx i) with s1 := s1, y := y, x1 := x }
    out b 0 y
  | 0x0031 =>
    let x ← q b 0
    let s0 ← fx i
    let (y, _) ← narrow i (← sata i ((← mulk i x (← k i 0) (← Ev.n i 0)) + s0.s1))
    let s1 ← sata i ((← sata i ((← mulk i x (← k i 1) (← Ev.n i 1)) + (← mulk i y (← k i 3) (← Ev.n i 3)))) + s0.s2)
    let s2 ← sata i ((← mulk i x (← k i 2) (← Ev.n i 2)) + (← mulk i y (← k i 4) 0))
    putFx i { (← fx i) with s1 := s1, s2 := s2, y := y, x1 := x }
    out b 0 y
  | 0x0040 =>
    for j in List.range n do
      let (y, _) ← narrow i (widen (← q b j))
      out b j y
      if j = 0 then putFx i { (← fx i) with y := y, x1 := (← q b 0) }
  | 0x0041 =>
    let x ← q b 0
    let s0 ← fx i
    let k0 ← k i 0
    let y := clampI (s0.y + clampI (x - s0.y) (-k0) k0) (← lo i) (← hi i)
    putFx i { (← fx i) with y := y, x1 := x }
    out b 0 y
  | 0x0042 =>
    let lastOp ← q b (n - 1)
    let sel := if b.mode = 0 then cx.s.bit (bk 0x12 5 cx.b) 4 else lastOp < 0
    for j in List.range b.outs do
      out b j (← q b (if sel then 2 * j + 1 else 2 * j))
  | 0x0050 =>
    let i := b.slot - 1024
    let c0 ← c i 0
    let c1 ← c i 1
    putX i (fofFix (← q b 0) 15)
    let va ← fmul i (fofFix (← q b 0) 15) c0
    let vb ← fmul i (fofFix (← q b 1) 15) c0
    let ia ← fmul i (fofFix (← q b 2) 15) c1
    let ib ← fmul i (fofFix (← q b 3) 15) c1
    let p ← fmul i 0x3FC00000 (← ffma i va ia (← fmul i vb ib))
    let qq ← fmul i 0x3FC00000 (← ffma i vb ia (fneg (← fmul i va ib)))
    let c2 ← c i 2
    let s0 ← st i 0
    let s1 ← st i 1
    let s0 ← ffma i c2 (← fsub i p s0) s0
    let s1 ← ffma i c2 (← fsub i qq s1) s1
    putSt i 0 s0
    putSt i 1 s1
    putY i s0
    outF b 0 s0
    outF b 1 s1
  | 0x0051 =>
    let th ← angleOut (i + 1)
    let vq ← parkQ (← q b 0) (← q b 1) th
    let dl ← integrate i vq
    angleStep (i + 1) th dl
    outs b [th, dl]
  | 0x0052 =>
    let th ← angleOut i
    angleStep i th (← q b 0)
    out b 0 th
  | 0x0060 => vm b
  | 0x0061 => virtualImpedance b
  | 0x0062 => negSeq b
  | 0x0063 => estimator b
  | 0x0064 => vil b
  | 0x0065 => refLimiter b
  | 0x0066 => injection b
  | 0x0070 => zeroSeq b
  | 0x0071 =>
    for p in List.range n do
      let v ← q b p
      for j in List.range b.mode do
        out b (p * b.mode + j) (clampI (rne ((v + 32768) * b.mode) 1 - 32768 * j) 0 32767)
  | 0x0072 =>
    for j in List.range n do
      let v ← q b j
      out b (2 * j) (min 32767 (rne (v + 32768) 1))
      out b (2 * j + 1) (min 32767 (rne (32768 - v) 1))
  | 0x0073 =>
    if b.mode = 0 then
      let vals ← (List.range n).mapM (fun j => q b j)
      outs b ((rankOf vals).map (fun (j : Nat) => (j : Int)))
    else
      let v ← q b 0
      let ia ← q b 1
      for j in List.range b.outs do
        let o ← q b (j + 2)
        out b j (← s16 (if ia ≥ 0 then v + o else v - o))
  | 0x0074 => balance b
  | 0x0080 =>
    for j in List.range n do
      let v ← q b j
      setW fun w => { w with duty := Tbl.set (b.param + j) v w.duty }
  | 0x0081 => pure ()
  | 0x0090 =>
    for j in List.range n do
      let v ← q b j
      setW fun w => { w with pub := Tbl.set (b.param + j) v w.pub }
  | _ => pure ()

end Ev

/-- Evaluates the records of item `n` of batch b's running cycle (R96): the working values after it. -/
def State.runItem (b n : Nat) (r : Recipe) (cy : Cycle) (s : State) : Work :=
  let c : Ctx := { s := s, b := b, r := r, t0 := cy.t0, inp := cy.inp, w := cy.work }
  (((r.itemBlocks n).forM Ev.block).run c).2.w

end Sys2Proof.Machine
end

