-- ==== Sys2Proof/Machine/BatchOps.lean ====
section
/-! DEFINITION. What every family does to a batch: state changes (R137, R138), pulse blocks (R19, R189, R381), fault
reactions (R153), and the profile generators (R87, R88). -/

namespace Sys2Proof.Machine

/-! ### Profile generators -/

def genX (g : Nat) : Nat := key (0x6600 + g) 7
def genV (g : Nat) : Nat := key (0x6600 + g) 8
def genA (g : Nat) : Nat := key (0x6600 + g) 9

/-- A target clamped to the generator's minimum and maximum (R88). -/
def State.clampTarget (g : Nat) (v : F32) (s : State) : F32 := fclamp v (s.rdF (key (0x6600 + g) 0xF)) (s.rdF (key (0x6600 + g) 0x10))

/-- The direction of a move from the present x to target `v`: where x is there already, that of the present rate. -/
def State.genDir (g : Nat) (v : F32) (s : State) : Int :=
  let x := s.rdF (genX g)
  let t := s.clampTarget g v
  let r := s.rdF (genV g)
  if flt x t then 1 else if flt t x then -1 else if flt 0 r then 1 else if flt r 0 then -1 else 0

/-- A new target in use: the generator re-plans from its present x, v and a (R88). -/
def State.useTarget (g : Nat) (v : F32) (s : State) : State :=
  (s.setGen g { (s.gen g) with target := v, dir := s.genDir g v }).inc (key (0x6600 + g) 0xE)

/-- A host's target write (R88): stored, and used unless the generator holds or the module drives it. The overshoot counts from it on. -/
def State.hostTarget (g : Nat) (v : F32) (s : State) : State :=
  let s := (s.wrF (key (0x6600 + g) 2) v).wr (key (0x6600 + g) 0x11) 0
  let r := s.gen g
  if r.holding || r.drive.isSome then s else s.useTarget g v

/-- Hold (R88). A target of the module's own stays in use (R124), and a hold is no re-plan at .0E (R91; DESIGN CHOICE,
notes/assumptions/109). -/
def State.genHold (g : Nat) (s : State) : State :=
  let r := s.gen g
  let x := s.rdF (genX g)
  let r : GenSlot := if r.drive.isSome then { r with before := x } else { r with target := x, dir := s.genDir g x }
  (s.setGen g { r with holding := true }).setBit (key (0x6600 + g) 0xC) 2 true

/-- Release: the last stored target is in use again (R88), or the module's own. -/
def State.genRelease (g : Nat) (s : State) : State :=
  let r := s.gen g
  let s := (s.setGen g { r with holding := false }).setBit (key (0x6600 + g) 0xC) 2 false
  if r.drive.isSome then s else s.useTarget g (s.rdF (key (0x6600 + g) 2))

/-- Sets x with v and a zero (R88). -/
def State.presetTo (g : Nat) (x : F32) (s : State) : State :=
  let s := ((s.wrF (genX g) x).wrF (genV g) 0).wrF (genA g) 0
  s.setGen g { (s.gen g) with dir := s.genDir g (s.gen g).target }

/-- Drives a target of the module's own while host writes are stored (R124, R168, R172); the overshoot counts from it on. -/
def State.driveTarget (g : Nat) (v : F32) (s : State) : State :=
  let r := s.gen g
  if r.drive = some v then s
  else ((s.setGen g { r with drive := some v, before := if r.drive.isSome then r.before else r.target }).useTarget g v).wr (key (0x6600 + g) 0x11) 0

/-- The target in use stays, as the module's own: host writes are stored and not used (R172). -/
def State.keepTarget (g : Nat) (s : State) : State :=
  let r := s.gen g
  if r.drive.isSome then s else s.setGen g { r with drive := some r.target, before := r.target }

/-- Host writes are used again, from the last one stored; a generator that holds has the target at which it was held (R175). -/
def State.freeTarget (g : Nat) (s : State) : State :=
  let r := s.gen g
  if r.drive.isNone then s
  else (s.setGen g { r with drive := none }).useTarget g (if r.holding then r.before else s.rdF (key (0x6600 + g) 2))

/-- The hold that the current limiter issues to the ramp generator (R169), and its release to target `v`. -/
def State.rampHold (g : Nat) (s : State) : State :=
  let x := s.rdF (genX g)
  (s.setGen g { (s.gen g) with holding := true, drive := some x, target := x, dir := s.genDir g x }).setBit (key (0x6600 + g) 0xC) 2 true
def State.rampRelease (g : Nat) (v : F32) (s : State) : State :=
  ((s.setGen g { (s.gen g) with holding := false, drive := some v }).setBit (key (0x6600 + g) 0xC) 2 false).useTarget g v

/-- PROFILE_STEP (R87): one jerk-limited step with dt = the batch cycle in seconds. -/
def State.genStep (g : Nat) (dt : F32) (s : State) : State :=
  let o := 0x6600 + g
  let r := s.gen g
  let x := s.rdF (genX g)
  let v := s.rdF (genV g)
  let a := s.rdF (genA g)
  let own := s.rdF (key o 3)
  let vl := r.vOver.getD own
  let vl := match r.vCap with
    | some c => fmin vl c
    | none => vl
  let al := s.rdF (key o 4)
  let jl := s.rdF (key o 5)
  let w := s.rdF (key o 6)
  let t := s.clampTarget g r.target
  let e := (fsubR t x).v
  let jd := (fmulR jl dt).v
  let hold := if r.holding then 4 else 0
  if fle (fabs e) w && fle (fabs v) (fmulR al dt).v && fle (fabs a) jd then
    (((s.wrF (genX g) t).wrF (genV g) 0).wrF (genA g) 0).wr (key o 0xC) (1 + hold : Nat)
  else
    let vd := fcopySign (fmin vl (fsqrtR (fmulR al (fabs e)).v).v) e
    let dv := (fsubR vd v).v
    let ad := fcopySign (fmin al (fsqrtR (fmulR (fmulR 0x40000000 jl).v (fabs dv)).v).v) dv
    let a1 := fclamp (faddR a (fclamp (fsubR ad a).v (fneg jd) jd)).v (fneg al) al
    let v1 := (faddR v (fmulR a1 dt).v).v
    let beyondV := flt vl (fabs v1)
    let v2 := if beyondV then fcopySign vl v1 else v1
    let a2 := if beyondV then 0 else a1
    let x1 := (faddR x (fmulR v2 dt).v).v
    let s := ((s.wrF (genX g) x1).wrF (genV g) v2).wrF (genA g) a2
    let s := s.wr (key o 0xC) (2 + hold + (if beyondV then 8 else 0) : Nat)
    let s := if beyondV then s.inc (key o 0xD) else s
    let past := (fsubR x1 t).v
    let beyond := (r.dir = 1 && flt t x1) || (r.dir = -1 && flt x1 t)
    if beyond && flt (s.rdF (key o 0x11)) (fabs past) then s.wrF (key o 0x11) (fabs past) else s

/-- Whether a generator reports at-target. -/
def State.atTarget (g : Nat) (s : State) : Bool := s.bit (key (0x6600 + g) 0xC) 0

/-- Whether a generator has arrived at target v: its latest step may still report the target before (R139, R169). -/
def State.restsAt (g : Nat) (v : F32) (s : State) : Bool := s.atTarget g && s.rdF (genX g) == s.clampTarget g v

/-- The generator named for set-point i = 0 to 3 (P, Q, f, V) of batch b (R127). -/
def State.spGen (b i : Nat) (s : State) : Option Nat :=
  let g := s.rdN (bk 0xE (5 + i) b)
  if g < 64 then some g else none

/-- Applies an operation to the generator of set-point i, if one is named. -/
def State.withGen (b i : Nat) (f : Nat → State → State) (s : State) : State :=
  match s.spGen b i with
  | some g => f g s
  | none => s

/-! ### State changes -/

/-- The states in which a batch's outputs are enabled once it is seeded. -/
def BatchState.running : BatchState → Bool
  | .blackStart | .connected | .islanded | .currentLimited | .coast | .resync | .following => true
  | _ => false

/-- The states to which a detected island goes on without its end (R135, R138): its status stands in them. -/
def BatchState.keepsIsland : BatchState → Bool
  | .islanded | .currentLimited | .coast | .resync => true
  | _ => false

/-! ### Channels -/

def State.chan (c : Nat) (s : State) : ChanRec := Tbl.get {} c s.pwm.chans
def State.setChan (c : Nat) (r : ChanRec) (s : State) : State := { s with pwm := { s.pwm with chans := Tbl.set c r s.pwm.chans } }

def State.modChan (c : Nat) (f : ChanRec → ChanRec) (s : State) : State := s.setChan c (f (s.chan c))

/-! Gate commands (R184), of a channel or of a slot of a node. -/

/-- The gate commands as they stand at the present instant. -/
def ChanRec.settle (now : Time) (r : ChanRec) : ChanRec :=
  let due := r.gates.filter (fun g => g.1 ≤ now)
  let r := { r with gates := r.gates.filter (fun g => now < g.1) }
  due.foldl (fun r g =>
    if g.2.1 then { r with up := g.2.2, upAt := if g.2.2 then g.1 else r.upAt }
    else { r with lo := g.2.2, loAt := if g.2.2 then g.1 else r.loAt }) r

/-- An edge of S to level v at instant `te`: the other gate turns off with it, the own gate on t_d later, unless the level changes
before. -/
def ChanRec.edge (te : Time) (v : Bool) (td : Nat) (r : ChanRec) : ChanRec :=
  { r with gates := r.gates.filter (fun g => g.1 < te) ++ [(te, !v, false), (te + td, v, true)], level := some v }

/-- Both gate commands of channel c off, carry cleared, no level until its next first load (R189, R190). Gates that were on may stay so for up
to 100 ns more (Table 09-2). -/
def State.chanOff (c : Nat) (s : State) : State :=
  let r := (s.chan c).settle s.now
  let cut := if r.up || r.lo then some ⟨s.now, r.up, r.lo⟩ else r.cut
  ((s.setChan c { r with waiting := true, level := none, up := false, lo := false, gates := [], recharging := false, vLevel := none, cut := cut }).wr
    (key (0x3000 + c) 0xE) 0).setBit (key (0x3000 + c) 0xF) 0 true

/-- A test duty ends: its channel's outputs go off (R197). -/
def State.endTest (c : Nat) (s : State) : State :=
  if (s.chan c).testOn then
    let s := s.chanOff c
    s.setChan c { (s.chan c) with testOn := false, testAt := none }
  else s

/-! ### Batch states -/

/-- On leaving Starter nothing is observed any longer (Table 08-6 .11, .15). -/
def State.leaveStarter (b : Nat) (s : State) : State :=
  (s.wr (bk 0xB 0x11 b) (s.rdN (bk 0xB 0x11 b) / 32 * 32 : Nat)).wr (bk 0xB 0x15 b) 0

/-- On leaving a state: Off ends the test duties (R197), Starter observes nothing any longer (R176), Coast applies the stored P and Q writes (R124), BlackStart restores the ramp generator (R168),
Resync gives f and V back to the host (R175) and shows no window (R177), CurrentLimited ends the guard (R146). -/
def State.leaveState (b : Nat) (old new : BatchState) (s : State) : State :=
  let s := if old == .off then s.each (s.members b) State.endTest else s
  let s := if old == .starter then s.leaveStarter b else s
  let s :=
    if (old == .coast && new != .resync) || (old == .resync && (s.batch b).rs.entry == .coast && new != .coast) then
      (s.withGen b 0 State.freeTarget).withGen b 1 State.freeTarget
    else s
  let s :=
    if old == .blackStart then
      let held := s.bit (bk 0xB 0x11 b) 6
      let s := s.modBatch b (fun r => { r with bsRunning := false })
      let s := (s.setBit (bk 0xB 0x11 b) 6 false).setBit (bk 0xB 0x11 b) 7 false
      s.withGen b 3 (fun g s =>
        let s := if held then (s.setGen g { (s.gen g) with holding := false }).setBit (key (0x6600 + g) 0xC) 2 false else s
        (s.setGen g { (s.gen g) with vOver := none }).freeTarget g)
    else s
  let s :=
    if old == .resync then
      let s := s.each [1, 2, 3, 5, 6, 7] (fun i => State.setBit (bk 0xC 0xF b) i false)
      (s.withGen b 2 State.freeTarget).withGen b 3 State.freeTarget
    else s
  let s := if new.keepsIsland then s else (s.wr (bk 0x15 5 b) 0).modBatch b (fun r => { r with impOnly := false })
  if old == .currentLimited then s.setBit (bk 9 0xC b) 2 false else s

/-- A batch state change: previous state, time, count and event 0x0100 with its command or cause. -/
def State.setState (b : Nat) (new : BatchState) (cause : Nat) (s : State) : State :=
  let old := s.bstate b
  if old = new then s else
  let s := s.leaveState b old new
  let s := ((s.wr (bk 1 2 b) old.code).wr (bk 1 1 b) new.code).inc (bk 1 4 b)
  let s := s.modBatch b (fun r => { r with since := s.now, connSince := if new == .connected then s.modTime else r.connSince })
  s.logEvent 0x0100 b (d8 old.code ++ d8 new.code ++ d8 cause)

/-- Time in the present state. -/
def State.inState (b : Nat) (s : State) : Time := s.now - (s.batch b).since

/-- Whether the module commands its batches: no twin role, or the active twin (R306: a standby's own faults do not change the
batch state). -/
def State.commands (s : State) : Bool := s.rdN (key 0x2510 1) == 0 || s.rdN (key 0x2510 7) == 1

/-! ### Pulse blocks -/

/-- PULSE_BLOCK (R189, R190, R183): both gate commands of every member off, carry cleared; staging and shadows stay. The
link outputs take the block from the batch's output flag at the next down-frame. -/
def State.pulseBlock (b : Nat) (s : State) : State :=
  let s := s.modBatch b (fun r => { r with outOn := false, outDue := none, seeded := false })
  s.each (s.members b) State.chanOff

/-- Whether an event is a block of batch b. -/
def Event.blocks (e : Event) (b : Nat) : Bool := e.code == 0x0101 && e.src % 4096 == b

/-- The event with its data amended, where it is the one meant. -/
def Event.amended (hit : Event → Bool) (f : List Byte → List Byte) (e : Event) : Event := if hit e then { e with data := f e.data } else e

/-- Amends the event that `hit` holds of, wherever it stands: it waits, or its record is written, which a freeze keeps as it is (R291; DESIGN
CHOICE, notes/assumptions/112). An event that its bucket suppressed stands nowhere. -/
def State.amendEvent (hit : Event → Bool) (f : List Byte → List Byte) (s : State) : State :=
  { s with log := { s.log with
    staging := s.log.staging.map (Event.amended hit f), queue := s.log.queue.map (Event.amended hit f)
    records := if s.log.frozenSince.isSome then s.log.records else s.log.records.map (fun r => { r with ev := r.ev.amended hit f }) } }

/-- What a block concerns, as its event names it: the channels of the batch where its source names nothing of its own (R293). -/
def State.concerned (b : Nat) (detail : List Byte) (s : State) : List Byte :=
  if detail.isEmpty then (s.members b).flatMap d8 else detail

/-- Appends to an event's data what it does not name yet. -/
def nameToo (d l : List Byte) : List Byte := if (List.range (l.length + 1)).any (fun i => d.isPrefixOf (l.drop i)) then l else l ++ d

/-- A further source of the block of the present cycle joins its event with what it concerns (R19, item 3; R221, R293). The event is that of the
time at 0x0D .03. -/
def State.joinBlock (b src : Nat) (detail : List Byte) (s : State) : State :=
  (s.wr (bk 0xD 2 b) (s.rdN (bk 0xD 2 b) ||| src : Nat)).amendEvent (fun e => e.blocks b && e.tai == s.rdN (bk 0xD 3 b))
    (fun l => d32 (leNat (l.take 4) ||| src) ++ nameToo (s.concerned b detail) (l.drop 4))

/-- A block of batch b from source bits `src` (Table 18-5): the outputs at once, state Blocked, one event for the cycle. A
batch in Off has its members' gates turned off, which ends their test duties, and its state does not change (DEDUCED, notes/assumptions/5). A
standby's own faults change no batch state (R306); its module leaving Running or Standby, source bit 12, does (R328). -/
def State.blockBatch (b src : Nat) (detail : List Byte) (s : State) : State :=
  let st := s.bstate b
  let fresh := (s.batch b).blockFresh
  if st == .off then (s.each (s.members b) State.endTest).pulseBlock b else
  if (st == .fault && !fresh) || !(s.commands || src == 4096) then s else
  let s := s.wr (bk 0xD 1 b) (s.rdN (bk 0xD 1 b) ||| src : Nat)
  if st == .blocked || st == .fault then (if fresh then s.joinBlock b src detail else s)
  else
    let detail := s.concerned b detail
    let s := s.pulseBlock b
    let s := ((s.wr (bk 0xD 2 b) src).wr (bk 0xD 3 b) s.tai).inc (bk 0xD 4 b)
    let s := s.modBatch b (fun r => { r with blockFresh := true, cmd := none, stopping := false })
    (s.logEvent 0x0101 b (d32 src ++ detail)).setState b .blocked 3

/-- Block and enter Fault (Table 07-3, code 0x04), with the block's source bits; out of Off too, where the items of a cycle run and a source may
demand it (R138: a block or fault always applies). -/
def State.faultBatch (b src cause : Nat) (s : State) : State :=
  if s.bstate b == .fault || !s.commands then s else
  let s := if src = 0 then s else s.blockBatch b src []
  let s := s.pulseBlock b
  (s.modBatch b (fun r => { r with cmd := none, stopping := false })).setState b .fault cause

/-- Stop (R139): the P and Q generators ramp to target 0; in CurrentLimited the ramp waits until the batch leaves it. -/
def State.startStop (b : Nat) (s : State) : State :=
  let s := s.modBatch b (fun r => { r with stopping := true, ramping := s.bstate b != .currentLimited })
  if s.bstate b == .currentLimited then s
  else if s.bstate b == .blackStart then s.withGen b 3 (fun g s => (s.setGen g { (s.gen g) with vOver := none }).driveTarget g 0)
  else (s.withGen b 0 (fun g => State.driveTarget g 0)).withGen b 1 (fun g => State.driveTarget g 0)

/-- Carries out reaction code `k` of Table 07-3 for the sources of a cycle; on a standby none (R306). A stop is command 0x02: it takes effect at the next t0, in the
states that permit it, and a waiting block prevails (DESIGN CHOICE, notes/assumptions/112). -/
def State.react (b k : Nat) (s : State) : State :=
  if !s.commands then s else
  match k with
  | 1 => s.each [0, 1, 2, 3] (fun i s => s.withGen b i State.genHold)
  | 2 => if s.bstate b == .off || s.bstate b == .fault || (s.batch b).cmd == some 3 then s
         else s.modBatch b (fun r => { r with cmd := some 2 })
  | 3 => s.blockBatch b 2 []
  | 4 => s.faultBatch b 2 0x80
  | _ => s

/-- FAULT_REACTION (R153): the highest reaction that the sources of a cycle ask for, one event that names every source. Sources
are the subindices 1 to 7 of offset 0x11. Sources of the same cycle that come later join the event, and their reaction is carried out where
it is higher than the one before; .08 to .0A then show that one (DESIGN CHOICE, notes/assumptions/112). -/
def State.faultReaction (b : Nat) (s : State) : State :=
  let ds := (s.batch b).demands
  match ds with
  | [] => s
  | src :: _ =>
    let k := ds.foldl (fun m d => max m (s.rdN (bk 0x11 d b))) 0
    let named := ds.flatMap (fun d => d8 d ++ d8 (s.rdN (bk 0x11 d b)))
    let taken (src : Nat) (s : State) : State := ((s.wr (bk 0x11 8 b) src).wr (bk 0x11 9 b) s.tai).inc (bk 0x11 0xA b)
    match (s.batch b).reacted with
    | some (k0, at_) =>
      let s := s.modBatch b (fun r => { r with demands := [], reacted := some (max k0 k, at_) })
      let s := s.amendEvent (fun e => e.code == 0x0102 && e.src % 4096 == b && e.tai == at_) (fun l => l ++ named)
      if k0 < k then (taken ((ds.find? (fun d => s.rdN (bk 0x11 d b) == k)).getD src) s).react b k else s
    | none =>
      let s := s.modBatch b (fun r => { r with demands := [], reacted := some (k, s.tai) })
      ((taken src s).logEvent 0x0102 b named).react b k

/-- A source demands its reaction in the present cycle; a source already pending merges (R65). -/
def State.demand (b src : Nat) (s : State) : State :=
  let r := s.batch b
  if r.demands.contains src then s.incQueue b 0x10
  else (s.setBatch b { r with demands := r.demands ++ [src] }).notePeak b

/-! ### Own circuits and limits used by several families -/

/-- Whether circuit n is a bridge circuit (R315): 2 or 3, with bridge wiring enabled. It owns no batch. -/
def State.isBridge (n : Nat) (s : State) : Bool := decide (2 ≤ n) && s.rdB (key 0x2510 0x14)

/-- The disconnect circuits whose .01 names batch b (R138, R315). -/
def State.ownCircuits (b : Nat) (s : State) : List Nat :=
  (List.range 4).filter (fun n => !(s.isBridge n) && (s.rdN (key (0x7820 + n) 1)).testBit b)

/-- Whether every own circuit is Closed (circuit state code 0x7820 + n .07 = 3); true where no circuit names the batch. -/
def State.circuitsClosed (b : Nat) (s : State) : Bool :=
  (s.ownCircuits b).all (fun n => s.rdN (key (0x7820 + n) 7) == 3)

/-- RMS of a chain in pu of batch b: r × √2 × V_F/32,768 (R151, R159), rounded once to binary32. -/
def State.chainPu (b c : Nat) (s : State) : F32 :=
  let r := s.rd (key (0x5000 + c) 0x1E)
  fsqrtRat ((2 * r * r : Int) * fval (s.rdF (bk 5 4 b)) * fval (s.rdF (bk 5 4 b)) / 2 ^ 30)

/-- f_n of batch b in Hz. -/
def State.fn (b : Nat) (s : State) : Nat := s.rdN (bk 5 3 b)

/-- The control cycle of batch b in seconds, exact and as binary32. -/
def State.cycSec (b : Nat) (s : State) : Rat := ((s.cycleOf b : Nat) : Rat) / 400000000
def State.cycF (b : Nat) (s : State) : F32 := fofRat (s.cycSec b)

end Sys2Proof.Machine
end

