-- ==== Sys2Proof/Machine/Log.lean ====
section
/-! DEFINITION. The crumb log: commit, freeze, archive and clear, reading (R287 to R292, R295). -/

namespace Sys2Proof.Machine

def lgk (sub : Nat) : Nat := key 0x7100 sub
def lwk (sub : Nat) : Nat := key 0x7101 sub

/-- Positions of the log (R287). -/
def logCapacity : Nat := 262144

def State.modLog (f : Log → Log) (s : State) : State := { s with log := f s.log }

/-- Reports records held, first and last sequence, full bit, staged records (Table 14-10). -/
def State.syncLog (s : State) : State :=
  let l := s.log.records
  let s := (s.wr (lgk 1) l.length).wr (lgk 0xC) s.log.staging.length
  let s := match l.head?, l.getLast? with
    | some a, some b => (s.wr (lgk 3) a.seq).wr (lgk 4) b.seq
    | _, _ => s
  ((s.setBit (lgk 5) 0 (l.length == logCapacity)).setBit (lgk 5) 1 s.log.frozenSince.isSome).setBit (lgk 5) 2 s.log.clearing

/-- Writes an event as the next record (R287): its number, the suppressed count of its code, the reset count. -/
def State.writeRecord (e : Event) (s : State) : State :=
  let r := s.codeRec e.code
  if s.log.records.length = logCapacity then
    (s.setCode e.code { r with lost := r.lost + 1 }).inc (lgk 6)
  else
    let rec_ : LogRecord := ⟨s.log.nextSeq, e, r.pendingSupp, s.rdN (key 0x2000 7)⟩
    let s := s.setCode e.code { r with pendingSupp := 0, written := r.written + 1 }
    s.modLog (fun l => { l with records := l.records ++ [rec_], nextSeq := (l.nextSeq + 1) % 2 ^ 32 })

/-- The front event, of the staging queue before the write queue, is committed (R287, R291). -/
def State.commitRecord (s : State) : State :=
  match s.log.staging, s.log.queue with
  | e :: r, _ => ((s.modLog (fun l => { l with staging := r })).writeRecord e).syncLog
  | [], e :: r => ((s.modLog (fun l => { l with queue := r })).writeRecord e).syncLog
  | [], [] => s

/-- RECORD_COMMIT (R287): not while frozen or clearing. -/
def State.recordCommit (s : State) : State :=
  if s.log.frozenSince.isSome || s.log.clearing then s else s.commitRecord

def execRecordCommit (t : Time) (s : State) : Host.Outcome State Fault Refusal := .next (s.begin t).recordCommit

/-- Every queued and staged record is committed (R289, R335), but for a freeze, in which nothing is written (R291). -/
def State.commitAll (s : State) : State :=
  if s.log.frozenSince.isSome then s else State.each (List.range (s.log.staging.length + s.log.queue.length)) (fun _ s => s.commitRecord) s

/-! ### Freeze (R291) -/

/-- The write queue feeds the staging queue, which holds 4,096 records; what does not fit is lost. -/
def State.stageQueue (s : State) : State :=
  let all := s.log.staging ++ s.log.queue
  let s := s.modLog (fun l => { l with staging := all.take 4096, queue := [] })
  s.each (all.drop 4096) (fun e s =>
    let r := s.codeRec e.code
    (s.setCode e.code { r with lost := r.lost + 1 }).inc (lgk 6))

/-- Entries that MRAM holds: the repair figures, stored VCO bands, arbiter epochs, keys set, firmware, the lost and suppressed counts of
the log, identity (Table 18-5 and the rules that name MRAM). -/
def mramKey (k : Nat) : Bool :=
  let index := k / 65536
  let sub := k / 256 % 256
  (index == 0x2400 && sub ≤ 6) || (index == 0x2200 && sub == 0x13) || (0x2520 ≤ index && index < 0x2524 && sub == 2)
    || (index == 0x2601 && sub == 5) || (index == 0x2620 && sub != 3 && sub != 6) || (index == 0x7100 && (sub == 6 || sub == 7))
    || index == 0x1018 || (index == 0x2700 || index == 0x2701) && sub == 4

/-- What MRAM holds now, where the log is not frozen. -/
def State.mramNow (s : State) : Mram :=
  ⟨s.od.filter (fun e => mramKey e.1), s.blobs.filter (fun e => e.1 / 65536 == 0x2601 || e.1 / 65536 == 0x1FF0), s.power.repair, s.power.stored,
    s.power.storedLocks, s.log.codes.filter (fun c => c.2.lost != 0 || c.2.written != 0)⟩

/-- A freeze from the service port (R291): MRAM stays as it is; what is written meanwhile reaches it when the freeze ends. -/
def freezeEff (service : Bool) : Eff where
  own s := firstFail [needs service 0x0B0000E0, needs (!(s.log.frozenSince.isSome || s.log.clearing)) 0x0B0000E1]
  eff s :=
    let s := s.modLog (fun l => { l with frozenSince := some s.now, lostAtFreeze := 0, mram := some s.mramNow })
    let s := s.modLog (fun l => { l with lostAtFreeze := s.rdN (lgk 6) })
    (s.stageQueue).syncLog

def execFreeze (t : Time) (q : Req) (s : State) : Host.Outcome State Fault Refusal :=
  .next ((s.begin t).hostWrite q 0x7100 0xA 0 1 (freezeEff q.servicePort))

/-- A freeze ends (R291): the staging queue is written in order, and event 0x0004 with it. -/
def State.freezeEnd (s : State) : State :=
  if s.log.frozenSince.isNone then s else
  let n := s.log.staging.length
  let lost := s.rdN (lgk 6) - s.log.lostAtFreeze
  let s := s.modLog (fun l => { l with frozenSince := none, mram := none })
  (s.logEvent 0x0004 0 (d16 n ++ d32 lost)).syncLog

/-- FREEZE_END (R291): after 60 s. -/
def State.freezeTimeout (s : State) : State :=
  match s.log.frozenSince with
  | some f => if f + Time.sec 60 ≤ s.now then s.freezeEnd else s
  | none => s

def execFreezeEnd (t : Time) (s : State) : Host.Outcome State Fault Refusal := .next (s.begin t).freezeTimeout

/-- Milliseconds left of a freeze, as 0x7100.0B reads. -/
def State.freezeLeft (s : State) : Nat :=
  match s.log.frozenSince with
  | some f => (f + Time.sec 60 - s.now) / 12800000
  | none => 0

/-! ### Archive and clear (R292) -/

/-- 0x7100.08: every record must have been archived, or the clear is forced. -/
def archiveEff (seq : Nat) : Eff where
  own s := firstFail [needs s.log.frozenSince.isNone 0x0B0000E1,
    needs (seq == 0xFFFFFFFF || s.log.records.isEmpty || s.rdN (lgk 4) ≤ seq) 0x0B0000E2]
  eff s := (((s.startLong 4).modLog (fun l => { l with clearing := true })).stageQueue).syncLog
  replies := false

def execArchiveAndClear (t : Time) (q : Req) (seq : Nat) (s : State) : Host.Outcome State Fault Refusal :=
  .next ((s.begin t).hostWrite q 0x7100 8 0 seq (archiveEff seq))

/-- ARCHIVE_AND_CLEAR_COMPLETE (R292): event 0x0001 at position 0, counts zeroed, buckets full. -/
def State.archiveComplete (s : State) : State :=
  if s.longOp ≠ 4 then s else
  let last := s.rdN (lgk 4)
  let e : Event := ⟨s.tai, 1, 0, d32 last ++ d32 (s.rdN (lgk 6)) ++ d32 (s.rdN (lgk 7))⟩
  let s := (s.modLog (fun l => { l with records := [] })).writeRecord e
  let codes := s.log.codes.map (fun c =>
    (c.1, { c.2 with lost := 0, level := c.2.burst * tokenUnit, upTo := s.now, written := if c.1 = 1 then 1 else 0 }))
  let s := s.modLog (fun l => { l with codes := codes, clearing := false })
  let s := ((s.wr (lgk 6) 0).wr (lgk 7) 0).syncLog
  (s.logUnits 15 [] 1).endLong 0

def execArchiveAndClearComplete (t : Time) (s : State) : Host.Outcome State Fault Refusal := .next (s.begin t).archiveComplete

/-! ### Reading the log (R290, Table 14-3, Table 14-4) -/

/-- The 64 bytes of a committed record. -/
def LogRecord.bytes (r : LogRecord) : List Byte :=
  let data := r.ev.data.take 32
  let body := d32 r.seq ++ d64 r.ev.tai ++ d16 r.ev.code ++ d16 r.ev.src ++ d16 r.suppressed ++ d8 data.length ++ d8 0
    ++ data ++ List.replicate (32 - data.length) 0 ++ d32 r.resets
  body ++ d32 (crc32 body) ++ d32 0x424D5243

/-- The snapshot from the start sequence. -/
def State.snapshotBytes (s : State) : List Byte :=
  let l := s.log.records
  let start := s.rdN (key 0x7102 1)
  let first := match l.head? with
    | some r => r.seq
    | none => start
  let d := (start + 2 ^ 32 - first) % 2 ^ 32
  let before := decide (2 ^ 31 ≤ d)
  let out := (l.drop (if before then 0 else d)).take (s.rdN (key 0x7102 2))
  let flags := b2n before + 2 * b2n (l.length == logCapacity) + 4 * b2n s.log.frozenSince.isSome
  let at0 := match out.head? with
    | some r => r.seq
    | none => start
  d32 at0 ++ d32 out.length ++ d32 (s.rdN (lgk 4)) ++ d32 (s.rdN (lgk 6)) ++ d16 flags ++ d16 0 ++ out.flatMap LogRecord.bytes

/-- SNAPSHOT (R290): every role may read it. -/
def State.snapshot (s : State) : State := s.emit (.reply 0 0 s.snapshotBytes)

def execSnapshot (t : Time) (q : Req) (s : State) : Host.Outcome State Fault Refusal := .next ((s.begin t).hostGet q State.snapshot)

/-! ### The window of 0x7101 (R295) -/

/-- The code that the window shows. -/
def State.windowCode (s : State) : Nat := s.rdN (lwk 1)

/-- Writes of the window: selector (a code of Table 14-5's classes), rate, burst. -/
def logWindowEff (sub : Nat) (v : Int) : Eff where
  own _ := if sub = 1 then needs (0 < v && v < 0xD00) abRange else 0
  eff s :=
    let c := s.windowCode
    let r := (s.codeRec c).filled s.now
    match sub with
    | 1 => s.wr (lwk 1) v
    | 2 => s.setCode c { r with rate := v.toNat }
    | _ => s.setCode c { r with burst := v.toNat, level := min r.level (v.toNat * tokenUnit) }

/-- What the window reads: rate, burst, lost, suppressed pending, written. -/
def State.logWindow (sub : Nat) (s : State) : Nat :=
  let r := s.codeRec s.windowCode
  match sub with
  | 2 => r.rate
  | 3 => r.burst
  | 4 => r.lost
  | 5 => r.pendingSupp
  | _ => r.written

end Sys2Proof.Machine
end

