-- ==== Sys2Proof/Machine/Envelope.lean ====
section
/-! DEFINITION. The envelope image of Table 07-2, for ride-through envelopes (R150) and mask tests (R285). -/

namespace Sys2Proof.Machine

/-- Breakpoint i of an envelope image: time in µs and level. -/
def bpTime (img : List Byte) (i : Nat) : Nat := leAt (8 + 8 * i) 4 img
def bpLevel (img : List Byte) (i : Nat) : F32 := BitVec.ofNat 32 (leAt (12 + 8 * i) 4 img)

/-- The checks of Table 07-2 but for quantity and side. -/
def envelopeOk (img : List Byte) : Bool :=
  let n := leAt 4 1 img
  img.length == 140 && leAt 0 2 img == 1 && 2 ≤ n && n ≤ 16 && leAt 5 1 img ≤ 1 && leAt 6 2 img == 0
  && leAt 2 1 img ≤ 1 && leAt 3 1 img ≤ 1
  && bpTime img 0 == 0 && (List.range (n - 1)).all (fun i => bpTime img i < bpTime img (i + 1))
  && (List.range n).all (fun i => f32Finite (bpLevel img i).toNat)
  && (List.range 16).all (fun i => i < n || leAt (8 + 8 * i) 8 img == 0)
  && leAt 0x88 4 img == crc32 (img.take 0x88)

/-- The level at time `us` from the excursion's start (R151). -/
def levelAtTime (img : List Byte) (us : Rat) : Rat :=
  let n := leAt 4 1 img
  let k := ((List.range n).filter (fun i => ((bpTime img i : Nat) : Rat) ≤ us)).length - 1
  let l0 := fval (bpLevel img k)
  if leAt 5 1 img = 0 || n ≤ k + 1 then l0
  else
    let t0 : Rat := (bpTime img k : Nat)
    let t1 : Rat := (bpTime img (k + 1) : Nat)
    l0 + (fval (bpLevel img (k + 1)) - l0) * (us - t0) / (t1 - t0)

end Sys2Proof.Machine
end

