-- ==== Sys2Proof/Machine/Triggers.lean ====
section
/-! DEFINITION. The trigger units on their sources (R276 to R278), the mask tests (R285), and the source values that capture
records take (R283). Instants are module time. -/

namespace Sys2Proof.Machine

/-! ### Trigger units -/

/-- Whether condition c of Table 14-2 holds for value v; conditions 0 and 1 hold on until released by the hysteresis
(DEDUCED, notes/assumptions/44). -/
def condHolds (c : Nat) (l1 l2 hyst v : Int) (r : TrigRec) : Bool :=
  match c with
  | 0 => l1 < v || (r.held && !(v < l1 - hyst))
  | 1 => v < l1 || (r.held && !(l1 + hyst < v))
  | 2 => l1 ≤ v && v ≤ l2
  | 3 => v < l1 || l2 < v
  | 4 => v == l1
  | 5 => v != l1
  | _ => match r.prev with
    | some p => v != p
    | none => false

/-- Whether an update ends the episode of condition c (R278): 0 and 1 by the release of Table 14-2, the others by being false. Condition 6
has no episode. -/
def condReleased (c : Nat) (l1 hyst : Int) (ok : Bool) (v : Option Int) : Bool :=
  match c with
  | 0 => match v with
    | some x => decide (x < l1 - hyst)
    | none => false
  | 1 => match v with
    | some x => decide (l1 + hyst < x)
    | none => false
  | 6 => true
  | _ => !ok

/-- An update of unit u's source with value v, none where it is not valid, for the instant tm (R276 to R278). `raw` reads the levels
unsigned (types 0x07 to 0x0A). -/
def State.unitUpdate (u : Nat) (raw : Bool) (v : Option Int) (tm : Time) (s : State) : State :=
  let r := s.trig u
  let c := s.rdN (tuk u 4)
  let level (k : Nat) : Int := let x := s.rd (tuk u k); if raw then x % 2 ^ 32 else x
  let ok := match v with
    | some x => condHolds c (level 5) (level 6) (s.rd (tuk u 7)) x r
    | none => false
  let released := condReleased c (level 5) (s.rd (tuk u 7)) ok v
  let q := s.rdN (tuk u 8)
  let run := if ok then min q (r.run + 1) else 0
  let start := if r.run = 0 || (c = 6 && q ≤ r.run) then tm else r.start
  let latched := r.latched && !released
  let r := { r with run := run, start := start, held := ok, latched := latched, prev := v }
  let s := (s.setTrig u r).wr (tuk u 0xF) (b2n ok)
  if ok && q ≤ run && !latched && s.holdoffOver u then
    (s.setTrig u { r with latched := c != 6, lastFire := some s.now }).fireUnit State.logEvent u start
  else s

/-- An update of a source for every unit on it. -/
def State.source (type sel : Nat) (v : Option Int) (tm : Time) (s : State) : State :=
  s.each (s.unitsOn type sel) (fun u s => s.unitUpdate u false v tm)

/-- The field of a unit (.09, .0A) in the bytes of a frame: the bytes little-endian, masked; none where the frame is too short
(DESIGN CHOICE, notes/assumptions/45). -/
def State.field (u : Nat) (bytes : List Byte) (s : State) : Option Int :=
  let f := s.rdN (tuk u 9)
  let off := f % 256
  let n := f / 256 % 16
  if bytes.length < off + n then none else some ((leAt off n bytes &&& s.rdN (tuk u 0xA) : Nat) : Int)

/-- A frame, member, telegram or up slot for every unit on it (types 0x07, 0x09, 0x0A). -/
def State.frameSource (type sel : Nat) (bytes : List Byte) (tm : Time) (s : State) : State :=
  s.each (s.unitsOn type sel) (fun u s => s.unitUpdate u true (s.field u bytes) tm)

/-- A firing of time pulse output k (type 0x06). -/
def State.pulseSource (k : Nat) (tm : Time) (s : State) : State :=
  s.each (s.unitsOn 6 k) (fun u s => s.everyUpdate State.logEvent u tm)

/-- Each t0 of batch b (type 0x0C): the value is its state code. -/
def State.batchSource (b : Nat) (s : State) : State := s.source 0xC b (some (s.rd (bk 1 1 b))) s.modTime

/-! ### Digital inputs (type 0x05) -/

/-- The level of digital input i; the active-low inputs 4 to 7 rest high. -/
def State.inputLevel (i : Nat) (s : State) : Bool := Tbl.get (4 ≤ i : Bool) i s.acq.levels

/-- When a unit on a digital input whose level stands since module time `e` fires: once the level has passed the 20 ns filter and stood there for
the qualifier's counts, after the holdoff (R276). -/
def State.inputFires (u : Nat) (e : Time) (s : State) : Time :=
  let q := ((e : Int) + Time.ns 20 + 32 * (s.rdN (tuk u 8) - 1 : Nat) - s.clock.offset).toNat
  match (s.trig u).lastFire with
  | some l => max q (l + Time.ms (s.rdN (tuk u 0xB)))
  | none => q

/-- A unit on a digital input fires at its count, be that before this command (DESIGN CHOICE, notes/assumptions/120). -/
def State.inputDue (i u : Nat) (s : State) : State :=
  let r := s.trig u
  let e := Tbl.get 0 i s.acq.edges
  let held := s.rd (tuk u 5) == b2n (s.inputLevel i)
  let s := (s.setTrig u { r with held := held, latched := r.latched && held }).wr (tuk u 0xF) (b2n held)
  let d := s.inputFires u e
  if held && !r.latched && d ≤ s.now then
    s.asOf d (fun s => (s.setTrig u { (s.trig u) with latched := true, lastFire := some d }).fireUnit State.logEvent u e)
  else s

/-- The units on every digital input, as they stand now. -/
def State.inputsDue (s : State) : State := s.each (List.range 8) (fun i s => s.each (s.unitsOn 5 i) (fun u s => s.inputDue i u))

/-- Digital input i has its level since the instant tm (R276). -/
def State.inputEdge (i : Nat) (high : Bool) (tm : Time) (s : State) : State :=
  let s := s.inputsDue
  if s.inputLevel i = high then s else
  let a := s.acq
  let a := { a with levels := Tbl.set i high a.levels, edges := Tbl.set i tm a.edges }
  ({ s with acq := a }).inputsDue

/-- TRIG_IN (R276): the level has passed the 20 ns filter. -/
def execTrigIn (t : Time) (i : Fin 4) (high : Bool) (s : State) : Host.Outcome State Fault Refusal :=
  let s := s.begin t
  .next (s.inputEdge i high (s.modTime - Time.ns 20))

/-! ### Source values of capture records (R283) -/

/-- The analog channels with a source of a kind and a selection. -/
def State.acqChans (src sel : Nat) (s : State) : List Nat :=
  (List.range 128).filter (fun j => s.set0 (key (0x7040 + j) 1) == src && s.set0 (key (0x7040 + j) 2) == sel)

/-- A source value and the instant it represents: every record from that instant on takes it, until the next value's. -/
def State.acqValue (src sel : Nat) (v : Int) (tm : Time) (s : State) : State :=
  s.each (s.acqChans src sel) (fun j s =>
    let put (r : AcqRec) : AcqRec := if tm ≤ r.at_ then { r with an := Tbl.set j v r.an, ages := Tbl.set j tm r.ages } else r
    let bufs := s.acq.bufs.map (fun e => (e.1, { e.2 with recs := e.2.recs.map put }))
    { s with acq := { s.acq with bufs := bufs, cur := Tbl.set j (some (tm, v)) s.acq.cur } })

/-- An F32 value as Q15 of the full scale of channel j (Table 04-1). -/
def State.acqCode (j : Nat) (v : F32) (s : State) : Int :=
  let fs := fval (s.rdF (key (0x7040 + j) 3))
  if fs = 0 then 0 else sat16 (roundRat (fval v * 32768 / fs))

/-- An F32 source value, converted; the value itself is kept for a full scale to come. -/
def State.acqFloat (src sel : Nat) (v : F32) (tm : Time) (s : State) : State :=
  s.each (s.acqChans src sel) (fun j s =>
    let x := s.acqCode j v
    let put (r : AcqRec) : AcqRec := if tm ≤ r.at_ then { r with an := Tbl.set j x r.an, ages := Tbl.set j tm r.ages } else r
    let bufs := s.acq.bufs.map (fun e => (e.1, { e.2 with recs := e.2.recs.map put }))
    { s with acq := { s.acq with bufs := bufs, cur := Tbl.set j (some (tm, x)) s.acq.cur, raw := Tbl.set j v s.acq.raw } })

/-- Channel j has another full scale: its latest F32 value is converted anew (R283). -/
def State.acqRescale (j : Nat) (s : State) : State :=
  match Tbl.find? j s.acq.raw, Tbl.get none j s.acq.cur with
  | some v, some (tm, _) => { s with acq := { s.acq with cur := Tbl.set j (some (tm, s.acqCode j v)) s.acq.cur } }
  | _, _ => s

/-! ### Mask tests (R285) -/

def mkk (m sub : Nat) : Nat := key (0x7030 + m) sub
def maskKey (m : Nat) : Nat := key (0x8480 + m) 1
def State.maskEx (m : Nat) (s : State) : Excursion := Tbl.get {} m s.acq.masks
def State.setMaskEx (m : Nat) (x : Excursion) (s : State) : State := { s with acq := { s.acq with masks := Tbl.set m x s.acq.masks } }

/-- A mask test stops acquisition (R285): with the capture that contains the violation, at once where there is none. -/
def State.maskStop (slot : Nat) (tm : Time) (s : State) : State :=
  let p := s.captureFire slot 0xFF tm
  let s := if p.2 then p.1.logEvent 0x0A03 0 (d8 0xFF ++ d8 slot) else p.1
  if (s.bufferIn 2).isSome then { s with acq := { s.acq with stopping := true } }
  else if s.acqState = 2 then s.wr (aqk 3) 3 else s

/-- The excursion of a mask test after an output (R151, R285): it starts outside the band and ends once the quantity has stayed inside
for the return hold. -/
def State.maskExcursion (m : Nat) (outside : Bool) (tm : Time) (s : State) : Excursion :=
  let x := s.maskEx m
  if outside then (if x.active then { x with inSince := none } else { active := true, start := tm, inSince := none })
  else if !x.active then x
  else
    let since := x.inSince.getD s.now
    if since + Time.ms (s.rdN (mkk m 6)) ≤ s.now then {} else { x with inSince := some since }

/-- Mask test m on quantity v (none while it is not valid), outside its band or not, at an output that represents the instant tm: the
level holds while the excursion runs, its return hold too. A violation acts once in an excursion (DEDUCED, notes/assumptions/46). -/
def State.maskStep (m : Nat) (v : Option Rat) (outside : Bool) (tm : Time) (s : State) : State :=
  let s := s.setBit (mkk m 7) 2 v.isNone
  match v with
  | none => s
  | some v =>
    let x := s.maskExcursion m outside tm
    let s := (s.setMaskEx m x).setBit (mkk m 7) 0 x.active
    if !x.active then s.setBit (mkk m 7) 1 false
    else
      let img := s.blob (maskKey m)
      let l := levelAtTime img (((tm - x.start : Nat) : Rat) / 12800)
      if !(s.bit (mkk m 7) 1) && (if leAt 3 1 img = 0 then v < l else l < v) then
        let s := (s.setBit (mkk m 7) 1 true).inc (mkk m 8)
        let slot := s.rdN (key 0x2500 1)
        let s := s.maskStop slot tm
        let s := if s.rackRole = 0 then s else s.rackMsg "FIRING" 255 [slot, 0xFF, Time.toNs tm]
        s.logEvent 0x0A02 0 (d8 m ++ df (fofRat v) ++ df (fofRat l))
      else s

/-- The mask tests in force on chain c for a quantity (0 voltage, 1 frequency): only while armed, with a valid envelope. -/
def State.masksOn (c quantity : Nat) (s : State) : List Nat :=
  if s.set0 (aqk 3) ≠ 2 then [] else
  (List.range 16).filter (fun m => s.set0 (mkk m 1) != 0 && (Tbl.find? (mkk m 2) s.od).getD 0xFF == (c : Int) && s.bit (mkk m 7) 3
    && leAt 2 1 (s.blob (maskKey m)) == quantity)

/-- An output of chain c's RMS detector: r in codes, whether valid. -/
def State.maskVoltage (c : Nat) (r : Int) (valid : Bool) (tm : Time) (s : State) : State :=
  s.each (s.masksOn c 0) (fun m s =>
    let sc := fval (s.rdF (mkk m 3))
    -- r · √2 · scale / 32,768, as binary32 of the exact value
    let v := fval (fsqrtRat (2 * ((r : Rat) * sc / 32768) * ((r : Rat) * sc / 32768)))
    s.maskStep m (if valid then some v else none) (v < fval (s.rdF (mkk m 4)) || fval (s.rdF (mkk m 5)) < v) tm)

/-- A frequency update of chain c's tracker: f in Hz, its nominal, whether tracked; the band counts from the nominal. -/
def State.maskFrequency (c : Nat) (f nom : Rat) (tracked : Bool) (tm : Time) (s : State) : State :=
  s.each (s.masksOn c 1) (fun m s =>
    s.maskStep m (if tracked then some f else none) (f - nom < fval (s.rdF (mkk m 4)) || fval (s.rdF (mkk m 5)) < f - nom) tm)

end Sys2Proof.Machine
end

