-- ==== Sys2Proof/Machine/Acq.lean ====
section
/-! DEFINITION. Acquisition: arming, records, captures and their release, COMTRADE export, the settings of captures, triggers and
mask tests (R277, R279 to R286). -/

namespace Sys2Proof.Machine

def State.modAcq (f : Acq → Acq) (s : State) : State := { s with acq := f s.acq }

/-! ### Layout (R283, R284) -/

/-- The analog and the digital channels in use. -/
def State.analogs (s : State) : List Nat := (List.range 128).filter (fun j => s.set0 (key (0x7040 + j) 1) != 0)
def State.digitals (s : State) : List Nat := (List.range 30).filter (fun j => s.set0 (key (0x70C0 + j) 1) != 0)

/-- R_b = 2A + 2⌈D/16⌉ with D = 2 + user digital channels, and the buffer capacity in records. -/
def State.recordBytes (s : State) : Nat := 2 * s.analogs.length + 2 * ((2 + s.digitals.length + 15) / 16)
def State.bufferRecords (s : State) : Nat := 2 ^ 30 / (s.rdN (aqk 6) * s.recordBytes)

/-- Free buffers (0x7000.0D). -/
def State.freeBuffers (s : State) : Nat := (s.buffers.filter (fun k => s.rdN (bfk k 1) == 0)).length

/-- A buffer is empty again. -/
def State.clearBuffer (k : Nat) (s : State) : State :=
  let s := s.each [1, 2, 3, 4, 5, 6, 7, 8] (fun i s => s.wr (bfk k i) 0)
  let s := (s.wrBlob (key (0x8600 + k) 1) []).wrBlob (key (0x8600 + k) 2) []
  s.modAcq (fun a => { a with bufs := Tbl.erase k a.bufs })

/-- The active buffer (R280): the lowest-numbered free one becomes it while armed. -/
def State.activate (s : State) : State :=
  if s.acqState ≠ 2 || (s.bufferIn 1).isSome || (s.bufferIn 2).isSome then s
  else match s.bufferIn 0 with
    | some k => (s.clearBuffer k).wr (bfk k 1) 1
    | none => s

/-- The ring that is not part of a capture is given up. -/
def State.dropRing (s : State) : State := s.each (s.buffers.filter (fun k => s.rdN (bfk k 1) == 1)) State.clearBuffer

/-- Every capture held is discarded (R284); a running acquisition starts a new ring. -/
def State.discardCaptures (s : State) : State :=
  ((s.each (List.range 32) State.clearBuffer).modAcq (fun a => { a with stopping := false })).activate

/-! ### Arming (R279) -/

/-- Schedules an arm or a disarm. -/
def State.scheduleArm (arm : Bool) (at_ : Time) (s : State) : State :=
  let s := s.modRack (fun r => { r with armAt := some (arm, at_) })
  if arm && s.acqState ≠ 2 then s.wr (aqk 3) 1 else s

/-- 0x7000.01: only on the arming module; the rack is told. -/
def armEff (arm : Bool) : Eff where
  own s := needs (s.rackRole != 2) 0x0B0000D0
  eff s :=
    let ns := s.rdN (aqk 2)
    let at_ := if ns = 0 then s.modTime + Time.ms 1 else nsToFine ns
    let s := s.scheduleArm arm at_
    if s.rackRole = 1 then s.rackMsg "ARM" 255 [b2n arm, Time.toNs at_] else s

def execArmAcquisition (t : Time) (q : Req) (s : State) : Host.Outcome State Fault Refusal :=
  .next ((s.begin t).hostWrite q 0x7000 1 0 1 (armEff true))

def execDisarmAcquisition (t : Time) (q : Req) (s : State) : Host.Outcome State Fault Refusal :=
  .next ((s.begin t).hostWrite q 0x7000 1 0 0 (armEff false))

/-- RACK_ARM_MESSAGE (R279). -/
def execRackArmMessage (t : Time) (arm : Bool) (inst : Time) (s : State) : Host.Outcome State Fault Refusal :=
  let s := s.begin t
  .next ((s.hear (s.rdN (rkk 2))).scheduleArm arm inst)

/-- Why the module cannot arm: 1 no free buffer, 2 the record rate; 0 it can (DESIGN CHOICE for the codes, notes/assumptions/47). -/
def State.armRefusal (s : State) : Nat :=
  if (s.bufferIn 0).isNone && (s.bufferIn 1).isNone then 1 else if s.recordCounts < 400 then 2 else 0

/-- ARM_TIME (R279): arms, or refuses and reports it; disarms. -/
def State.armTime (s : State) : State :=
  match s.rack.armAt with
  | none => s
  | some (arm, at_) =>
    if s.modTime < at_ then s else
    let s := s.modRack (fun r => { r with armAt := none })
    if !arm then ((s.dropRing).wr (aqk 3) 0)
    else if s.acqState = 2 then s
    else
      let c := s.armRefusal
      if c ≠ 0 then
        let s := (s.wr (aqk 3) 0).logEvent 0x0A04 0 (d8 c)
        if s.rackRole = 2 then s.rackMsg "ARM_REFUSED" (s.rdN (key 0x2500 2)) [c] else s
      else
        let s := s.modAcq (fun a => { a with masks := [], stopping := false })
        let s := s.each (List.range 16) (fun m s => if s.set0 (mkk m 7) % 8 = 0 then s else s.wr (mkk m 7) (8 * b2n (s.bit (mkk m 7) 3)))
        (s.wr (aqk 3) 2).activate

def execArmTime (t : Time) (s : State) : Host.Outcome State Fault Refusal := .next (s.begin t).armTime

/-! ### Records (R280 to R283) -/

/-- The level of digital channel j. -/
def State.digitalLevel (j : Nat) (s : State) : Bool :=
  let sel := s.rdN (key (0x70C0 + j) 2)
  match s.rdN (key (0x70C0 + j) 1) with
  | 1 => s.rdB (tuk (sel % 16) 0xF)
  | 2 => s.rdN (bk 1 1 (sel % 256 % 32)) == sel / 256
  | 3 => s.inputLevel (sel % 4)
  | 4 => s.rdN (key (0x7820 + sel % 4) 7) == 3
  | 5 => (s.batch (sel % 32)).outOn
  | _ => false

/-- The record of this instant: the latest source values that represent no later instant, levels, time quality. -/
def State.newRecord (s : State) : AcqRec :=
  let tm := s.modTime
  let vals := s.analogs.filterMap (fun j => match Tbl.get none j s.acq.cur with
    | some (p, v) => if p ≤ tm then some (j, p, v) else none
    | none => none)
  let an := vals.foldl (fun t v => Tbl.set v.1 v.2.2 t) ([] : Tbl Int)
  let ages := vals.foldl (fun t v => Tbl.set v.1 v.2.1 t) ([] : Tbl Time)
  let dig := s.digitals.foldl (fun n j => n + b2n (s.digitalLevel j) * 2 ^ j) 0
  { at_ := tm, an := an, ages := ages, dig := dig, quality := s.rdN (key 0x2300 3), offset := (s.rd (key 0x2300 4)).natAbs,
    leap := s.bit (key 0x2300 9) 3 || s.bit (key 0x2300 9) 4 }

/-- CAPTURE_COMPLETE (R282): the records of the capture, its entries, event 0x0A01; then a mask stop, re-arm, or disarm. -/
def State.captureComplete (k : Nat) (s : State) : State :=
  let x := s.acqBuf k
  let pre := 32 * s.recordCounts * s.rdN (aqk 7)
  let recs := x.recs.filter (fun r => decide (x.trig ≤ r.at_ + pre) && decide (r.at_ ≤ x.last))
  let s := (s.setAcqBuf k { x with recs := recs }).showCapture k
  let first := match recs.head? with
    | some r => Time.toNs r.at_
    | none => 0
  let s := ((s.wr (bfk k 3) (first : Nat)).wr (bfk k 4) recs.length).wr (bfk k 5) (recs.filter (fun r => decide (r.at_ < x.trig))).length
  let s := (s.wr (bfk k 1) 3).logEvent 0x0A01 0 (d8 k ++ d32 recs.length ++ d8 x.markers.length)
  if s.acq.stopping then
    let s := (s.modAcq (fun a => { a with stopping := false })).dropRing
    s.wr (aqk 3) 3
  else if s.acqState = 2 && s.rdN (aqk 9) = 0 then (s.dropRing).wr (aqk 3) 0
  else s.activate

/-- A record goes into buffer k, a ring: it holds what lies before the capture too, until an earlier trigger can come no more; the last
record, or a capture that fills the buffer, completes it. -/
def State.putRecord (k : Nat) (r : AcqRec) (s : State) : State :=
  let x := s.acqBuf k
  let cap := s.bufferRecords
  let period := 32 * s.recordCounts
  let recs := (x.recs ++ [r]).drop (x.recs.length + 1 - cap)
  if s.rdN (bfk k 1) = 2 then
    let pre := period * s.rdN (aqk 7)
    let s := s.setAcqBuf k { x with recs := recs }
    let inside := recs.filter (fun q => decide (x.trig ≤ q.at_ + pre))
    if x.last < r.at_ + period || cap ≤ inside.length then s.captureComplete k else s
  else s.setAcqBuf k { x with recs := recs }

/-- Whether this 2.5 ns count is a record instant (R280): an update point of the batch of the timebase, or a TAI multiple of the fixed
period. -/
def State.atRecord (s : State) : Bool :=
  let v := s.rdN (aqk 4)
  if 1 ≤ v && v ≤ 32 then s.atUpdate (v - 1) else s.recordCounts != 0 && decide (s.modTime % (32 * s.recordCounts) < 32)

/-- RECORD_INSTANT (R280): the active buffer of an armed module, and a capture in post-trigger. -/
def State.recordInstant (s : State) : State :=
  if !s.atRecord then s else
  let s := s.inputsDue
  let r := s.newRecord
  let ks := s.buffers.filter (fun k => s.rdN (bfk k 1) == 2 || (s.rdN (bfk k 1) == 1 && s.acqState == 2))
  s.each ks (fun k s => s.putRecord k r)

def execRecordInstant (t : Time) (s : State) : Host.Outcome State Fault Refusal := .next (s.begin t).recordInstant

/-- RACK_FIRING (R281, R285): a remote firing acts as a firing at the carried time; unit 0xFF is a mask test, which stops
acquisition. -/
def State.rackFiring (slot unit : Nat) (inst : Time) (s : State) : State :=
  if unit = 0xFF then s.maskStop slot inst
  else
    let p := s.captureFire slot unit inst
    if p.2 then p.1.logEvent 0x0A03 0 (d8 unit ++ d8 slot) else p.1

def execRackFiring (t : Time) (slot : RackSlot) (unit : Nat) (inst : Time) (s : State) : Host.Outcome State Fault Refusal :=
  .next (((s.begin t).hear slot).rackFiring slot unit inst)

/-- 0x70E0 + k .0A (R282). -/
def releaseEff (k : Nat) : Eff where
  own s := needs (s.rdN (bfk k 1) != 4) 0x0B0000D1
  eff s := if s.rdN (bfk k 1) = 3 || s.rdN (bfk k 1) = 5 then (s.clearBuffer k).activate else s

def execReleaseCapture (t : Time) (q : Req) (k : BufferNo) (s : State) : Host.Outcome State Fault Refusal :=
  .next ((s.begin t).hostWrite q (0x70E0 + k) 0xA 0 1 (releaseEff k))

/-- A double-bit error of the capture memory (R284): at byte address `addr` of the memory, where the buffers lie in order and the
records of a buffer in order (DESIGN CHOICE, notes/assumptions/48), the affected values read 0, of a digital word its bits and in the first the trigger's, and data error is set. -/
def State.captureError (addr : Nat) (s : State) : State :=
  let size := 2 ^ 30 / s.rdN (aqk 6)
  let k := addr / size
  let i := addr % size / s.recordBytes
  let j := addr % size % s.recordBytes / 2
  let x := s.acqBuf k
  let w := j - s.analogs.length
  let lost := (s.digitals.zipIdx.filter (fun p => (p.2 + 2) / 16 == w)).map (·.1)
  let hit (r : AcqRec) : AcqRec := match s.analogs[j]? with
    | some c => { r with an := Tbl.erase c r.an, err := true }
    | none => { r with dig := lost.foldl (fun n c => withBit n c false) r.dig, noTrig := r.noTrig || w == 0, err := true }
  let recs := x.recs.zipIdx.map (fun p => if p.2 = i then hit p.1 else p.1)
  (s.setAcqBuf k { x with recs := recs }).inc (aqk 0x11)

/-- Capture stops at a supply loss (R335): a capture that has not been exported is lost. -/
def State.captureStops (s : State) : State :=
  let s := s.each (s.buffers.filter (fun k => s.rdN (bfk k 1) != 5)) State.clearBuffer
  ((s.wr (aqk 3) 0).modAcq (fun a => { a with stopping := false })).modRack (fun r => { r with armAt := none })

/-! ### COMTRADE export (R286); the layout of the two files is that of IEEE C37.111-2013 (PRESUMED, notes/assumptions/49) -/

def ascii (x : String) : List Byte := x.toList.map (fun c => BitVec.ofNat 8 c.toNat)

/-- A natural number in decimal, with at least `w` digits. -/
def digits : Nat → Nat → List Byte
  | 0, _ => []
  | fuel + 1, n => if n < 10 then [BitVec.ofNat 8 (48 + n)] else digits fuel (n / 10) ++ [BitVec.ofNat 8 (48 + n % 10)]
def dec (n : Nat) (w : Nat := 1) : List Byte :=
  let d := digits 40 n
  List.replicate (w - d.length) 48 ++ d

/-- The digits of a fraction below 1, exactly where it ends within `n` places. -/
def fracDigits : Nat → Rat → List Byte
  | 0, _ => []
  | n + 1, q => if q = 0 then [] else let x := q * 10; BitVec.ofNat 8 (48 + x.floor.toNat) :: fracDigits n (x - x.floor)

/-- A rational in decimal. -/
def decQ (q : Rat) : List Byte :=
  let a := if q < 0 then -q else q
  let f := fracDigits 160 (a - a.floor)
  (if q < 0 then [45] else []) ++ dec a.floor.toNat ++ (if f.isEmpty then [] else (46 : Byte) :: f)

/-- Fields joined by commas, ended by CR LF. -/
def csv (l : List (List Byte)) : List Byte := (l.intersperse [44]).flatten ++ [13, 10]

/-- Day, month and year of a day number from 1 January 1970. -/
def civil (z0 : Nat) : Nat × Nat × Nat :=
  let z := z0 + 719468
  let era := z / 146097
  let doe := z % 146097
  let yoe := (doe - doe / 1460 + doe / 36524 - doe / 146096) / 365
  let doy := doe - (365 * yoe + yoe / 4 - yoe / 100)
  let mp := (5 * doy + 2) / 153
  let d := doy - (153 * mp + 2) / 5 + 1
  let m := if mp < 10 then mp + 3 else mp - 9
  (d, m, yoe + era * 400 + (if m ≤ 2 then 1 else 0))

/-- A date line: UTC where the offset is valid, else TAI, rounded half to even to 1 µs. -/
def State.dateLine (at_ : Time) (s : State) : List Byte :=
  let off : Int := if s.bit (key 0x2300 9) 5 then s.rd (key 0x2300 0xA) else 0
  let us := (roundRat (((at_ : Nat) : Rat) / 12800) - off * 1000000).toNat
  let sec := us / 1000000
  let (d, m, y) := civil (sec / 86400)
  let h := sec % 86400
  csv [dec d 2 ++ [47] ++ dec m 2 ++ [47] ++ dec y 4,
    dec (h / 3600) 2 ++ [58] ++ dec (h % 3600 / 60) 2 ++ [58] ++ dec (h % 60) 2 ++ [46] ++ dec (us % 1000000) 6]

/-- The time multiplier's exponent: the smallest k that makes the record period times 2^k a whole number of µs. -/
def timeExp (counts : Nat) : Option Nat := (List.range 9).find? (fun k => counts * 2 ^ k % 400 == 0)

/-- Whether timestamps are given: the exponent, where none of n timestamps passes 2^32 − 2. -/
def timeScale (counts n : Nat) : Option Nat :=
  match timeExp counts with
  | some k => if (n - 1) * (counts * 2 ^ k / 400) ≤ 2 ^ 32 - 2 then some k else none
  | none => none

/-- timemult: 2^-k; where there is no such k, no rule states it (notes/assumptions/49). -/
def timeMult (counts : Nat) : Rat :=
  match timeExp counts with
  | some k => 1 / ((2 ^ k : Nat) : Rat)
  | none => ((Config.timeMultiplier counts).toNat : Rat)

/-- tmq_code. -/
def timeCode (recs : List AcqRec) : List Byte :=
  if recs.all (fun r => r.quality == 2) then [48]
  else if recs.any (fun r => r.quality == 0) then [70]
  else
    let m := recs.foldl (fun m r => max m r.offset) 0
    match (List.range 11).find? (fun i => decide (m ≤ 10 ^ i)) with
    | some i => if i < 9 then [BitVec.ofNat 8 (49 + i)] else [BitVec.ofNat 8 (56 + i)]
    | none => [66]

/-- The full scale of analog channel j. -/
def State.analogScale (j : Nat) (s : State) : Rat := fval (s.rdF (key (0x7040 + j) 3))

/-- The order code is the factory's (R372); a module with none written reads as CQJ-256-M (notes/assumptions/60). -/
def State.orderCode (s : State) : List Byte :=
  let l := s.blob (key 0x1FF0 2)
  if l.isEmpty then ascii "CQJ-256-M" else l

/-- The configuration file. -/
def State.comtradeCfg (k : Nat) (s : State) : List Byte :=
  let x := s.acqBuf k
  let as := s.analogs
  let ds := s.digitals
  let n := x.recs.length
  let t0 := match x.recs.head? with
    | some r => r.at_
    | none => 0
  let str (j sub : Nat) : List Byte := s.blob (key (0x7040 + j) sub)
  let alines := as.zipIdx.flatMap (fun p =>
    let fs := s.analogScale p.1
    let age : Rat := match x.recs.head?.bind (fun r => Tbl.find? p.1 r.ages) with
      | some at_ => ((t0 - at_ : Nat) : Rat) / 12800
      | none => 0
    csv [dec (p.2 + 1), str p.1 5, str p.1 6, str p.1 7, str p.1 4, [49], [48], decQ (-age), decQ (-fs), decQ (fs * 32767 / 32768), [49], [49], [80]])
  let dline (i : Nat) (name : List Byte) : List Byte := csv [dec (i + 1), name, [], [], [48]]
  let dlines := dline 0 (ascii "trigger") ++ dline 1 (ascii "data error")
    ++ ds.zipIdx.flatMap (fun p => dline (p.2 + 2) (s.blob (key (0x70C0 + p.1) 3)))
  csv [s.blob (aqk 0x12), s.orderCode ++ [32] ++ dec (s.rdN (key 0x1018 4)), ascii "2013"]
    ++ csv [dec (as.length + ds.length + 2), dec as.length ++ [65], dec (ds.length + 2) ++ [68]] ++ alines ++ dlines
    ++ csv [dec (s.rdN (aqk 0x15))] ++ csv [[49]] ++ csv [decQ (400000000 / ((s.recordCounts : Nat) : Rat)), dec n]
    ++ s.dateLine t0 ++ s.dateLine x.trig ++ csv [ascii "FLOAT32"] ++ csv [decQ (timeMult s.recordCounts)]
    ++ csv [[48], [48]] ++ csv [timeCode x.recs, if x.recs.any (fun r => r.leap) then [49] else [48]]

/-- Whether a record is the nearest to an instant: no record lies nearer, none as near lies earlier. -/
def nearest (recs : List AcqRec) (at_ : Time) : Nat :=
  let dist (r : AcqRec) : Nat := max r.at_ at_ - min r.at_ at_
  (recs.zipIdx.foldl (fun (b : Option (Nat × Nat)) p => match b with
    | some (d, _) => if dist p.1 < d then some (dist p.1, p.2) else b
    | none => some (dist p.1, p.2)) none).elim 0 (·.2)

/-- The data file: sample number, timestamp, analog values as binary32, digital words with trigger and data error first
(DESIGN CHOICE for their places, notes/assumptions/49). -/
def State.comtradeDat (k : Nat) (s : State) : List Byte :=
  let x := s.acqBuf k
  let as := s.analogs
  let ds := s.digitals
  let words := (2 + ds.length + 15) / 16
  let tm := timeScale s.recordCounts x.recs.length
  let marks := (x.trig :: (x.markers.map (·.1) ++ x.unlisted)).map (nearest x.recs)
  x.recs.zipIdx.flatMap (fun p =>
    let bits := (marks.contains p.2 && !p.1.noTrig) :: p.1.err :: ds.map (fun j => p.1.dig.testBit j)
    let w := (bits.zipIdx.map (fun b => b2n b.1 * 2 ^ b.2)).sum
    let stamp := match tm with
      | some e => p.2 * (s.recordCounts * 2 ^ e / 400)
      | none => 0xFFFFFFFF
    d32 (p.2 + 1) ++ d32 stamp ++ as.flatMap (fun j => df (fofRat (((Tbl.get 0 j p.1.an : Int) : Rat) / 32768 * s.analogScale j)))
      ++ leBytes (2 * words) w)

/-- 0x70E0 + k .09 (R286): for a complete capture. -/
def exportEff (k : Nat) : Eff where
  own s := needs (s.rdN (bfk k 1) == 3 || s.rdN (bfk k 1) == 5) abState
  eff s := { ((s.startLong 5).wr (bfk k 1) 4) with srv := { s.srv with longAt := s.now, longInst := k } }
  replies := false

def execComtradeExportAssembly (t : Time) (q : Req) (k : BufferNo) (s : State) : Host.Outcome State Fault Refusal :=
  .next ((s.begin t).hostWrite q (0x70E0 + k) 9 0 1 (exportEff k))

/-- EXPORT_COMPLETE (R286): the files are there until the capture is released; there are none where a change of layout has discarded the
capture meanwhile (R284). -/
def State.exportComplete (k : Nat) (s : State) : State :=
  if s.longOp ≠ 5 || s.srv.longInst ≠ k then s
  else if s.rdN (bfk k 1) ≠ 4 then s.endLong 0x0B0000D2
  else
  let s := (s.wrBlob (key (0x8600 + k) 1) (s.comtradeCfg k)).wrBlob (key (0x8600 + k) 2) (s.comtradeDat k)
  (s.wr (bfk k 1) 5).endLong 0

def execExportComplete (t : Time) (k : BufferNo) (s : State) : Host.Outcome State Fault Refusal := .next ((s.begin t).exportComplete k)

/-! ### Settings (R277, R280, R284, R285) -/

/-- Whether the record timebase, lengths and layout keep R280 and R284, with an entry of acquisition taken as written. -/
def State.layoutOk (s : State) : Bool :=
  let v := s.rdN (aqk 4)
  ((1 ≤ v && v ≤ 32) || v = 0x40) && s.rdN (aqk 7) + s.rdN (aqk 8) ≤ s.bufferRecords

/-- Whether a channel's select names a source of its kind (Table 14-8), analog or digital; a channel that is off takes any. -/
def selectOk (src : Nat) (digital : Bool) (v : Nat) : Bool :=
  if digital then
    match src with
    | 1 => v < 16
    | 2 => v % 256 < 32 && v / 256 ≤ 0xB
    | 3 | 4 => v < 4
    | 5 => v < 32
    | _ => true
  else
    match src with
    | 1 | 2 => v < 80
    | 3 => v % 256 < 80 && v / 256 ≤ 2
    | 4 => v / 1024 % 16 == 0 && v % 1024 < 768
    | 5 => v < 0x1000
    | _ => true

/-- A write of the record timebase, buffer layout or channel list: it discards every capture held (R284). A channel of another source has
no value until that source's next; one of another full scale has its latest value in it (R283). -/
def layoutEff (index sub elem : Nat) (v : Int) : Eff where
  own s := needs ((s.wr (key index sub elem) v).layoutOk && (sub != 2 || selectOk (s.rdN (key index 1)) (0x70C0 ≤ index) v.toNat) && !(0x7040 ≤ index && index < 0x70C0 && sub == 3 && (v % 2 ^ 31 == 0 || !f32Finite v.toNat))) abRange
  eff s :=
    let s := (s.wr (key index sub elem) v).discardCaptures
    if !(0x7040 ≤ index && index < 0x70C0) then s
    else if sub == 1 || sub == 2 then s.modAcq (fun a => { a with cur := Tbl.erase (index - 0x7040) a.cur, raw := Tbl.erase (index - 0x7040) a.raw })
    else if sub == 3 then s.acqRescale (index - 0x7040) else s

/-- A write of a channel's string (R284: part of the channel list). -/
def channelTextEff (k : Nat) (l : List Byte) : Eff := { eff := fun s => (s.wrBlob k l).discardCaptures }

/-- Whether a unit's source and condition go together (R277). -/
def sourceOk (type cond field : Nat) : Bool :=
  (type != 5 && type != 6 && type != 0xB && type != 0xC || cond == 4)
  && (!(7 ≤ type && type ≤ 0xA) || (1 ≤ field / 256 % 16 && field / 256 % 16 ≤ 4 && field < 0x1000))

/-- Whether a select names a source of its type (Table 14-1); a unit that is off takes any (DESIGN CHOICE, notes/assumptions/120). -/
def triggerSelectOk (type v : Nat) : Bool :=
  match type with
  | 1 | 2 => v < 80
  | 3 => v % 256 < 80 && v / 256 ≤ 2
  | 4 => v < 64
  | 5 | 6 => v < 8
  | 7 => !v.testBit 30
  | 8 => v / 64 % 4 == 0 && v / 256 < 16
  | 9 => v < 2
  | 0xA => v / 32 % 8 == 0 && v / 256 < 24
  | 0xB => 0 < v && v < 0xD00
  | 0xC => v < 32
  | _ => true

/-- A write of trigger unit u: source, condition and field must agree; a change restarts the unit. -/
def triggerEff (u sub : Nat) (v : Int) : Eff where
  own s :=
    let s' := s.wr (tuk u sub) v
    firstFail [needs (sub != 3 || triggerSelectOk (s.rdN (tuk u 2)) v.toNat) abRange, needs (sub != 9 || (1 ≤ v.toNat / 256 && v.toNat / 256 ≤ 4)) abRange,
      needs (!(sub == 2 || sub == 4 || sub == 9) || sourceOk (s'.rdN (tuk u 2)) (s'.rdN (tuk u 4)) (s'.rdN (tuk u 9))) 0x0B0000D3]
  eff s :=
    let s := s.wr (tuk u sub) v
    if sub = 1 || sub = 2 || sub = 3 || sub = 4 then
      (s.setTrig u { lastFire := (s.trig u).lastFire }).wr (tuk u 0xF) 0
    else s

/-- A write of a mask test's setting: enabling, disabling or another chain begins it anew. -/
def maskEff (m sub : Nat) (v : Int) : Eff where
  eff s :=
    let s := s.wr (mkk m sub) v
    if sub = 1 || sub = 2 then (s.setMaskEx m {}).wr (mkk m 7) (8 * b2n (s.bit (mkk m 7) 3) : Nat) else s

/-- A write of a mask's envelope (R150, R285): only while acquisition is disarmed. -/
def maskEnvelopeEff (m : Nat) (img : List Byte) : Eff where
  own s := needs (s.acqState == 0 || s.acqState == 3) 0x0B000070
  eff s :=
    if img.isEmpty then ((s.wrBlob (maskKey m) []).setBit (mkk m 7) 3 false).answer 0
    else if envelopeOk img then ((s.wrBlob (maskKey m) img).setBit (mkk m 7) 3 true).answer 0
    else (s.setBit (mkk m 7) 3 false).answer 0x0B000070
  replies := false

end Sys2Proof.Machine
end

