-- ==== Sys2Proof/Machine/Fabric.lean ====
section
/-! DEFINITION. The fabric and its scheduler (R51 to R69): admission and the lane plan, queue dispatch, lane tests,
retirement and stalls. -/

namespace Sys2Proof.Machine

/-! ### The repair map (R341, R344) -/

/-- Retirements of a kind that the map lists. -/
def State.retiredOf (kind : Nat) (s : State) : Nat := (s.power.repair.filter (fun r => r.kind == kind)).length

/-- Sets a repair status bit of 0x2400.01 live and writes its event when it sets (R344). -/
def State.repairBit (i : Nat) (v : Bool) (code : Nat) (data : List Byte) (s : State) : State :=
  let was := s.bit (key 0x2400 1) i
  let s := s.setBit (key 0x2400 1) i v
  if v && !was then s.logEvent code 0 data else s

/-- Spares of a kind fitted (R344, Table 16-10): lanes, slices, ADC cores, memory in per cent. -/
def sparesOf (kind : Nat) : Nat := if kind = 1 then 4 else if kind = 2 then 16 else if kind = 3 then 2 else 100

/-- Reports what is left of a kind's reserve and the two repair bits (R344). -/
def State.reserveLeft (kind left : Nat) (s : State) : State :=
  let s := s.wr (key 0x2400 (1 + min kind 4)) left
  let l (k : Nat) : Nat := s.rdN (key 0x2400 (1 + k))
  let low := [1, 2, 3, 4].any (fun k => 2 * l k ≤ sparesOf k)
  let none_ := [1, 2, 3, 4].any (fun k => l k == 0)
  (s.repairBit 0 low 0x0C04 (d8 kind ++ d8 left)).repairBit 1 none_ 0x0C05 (d8 kind)

/-- Spares of one kind of a memory: 2 % of rows and of columns, whose numbers the spec does not give (notes/assumptions/57). -/
def sparesIn (mc : Nat) : Nat := (Config.memorySpares mc).toNat

/-- Spares of the rows or columns `mc` = 2 · memory + column in use. -/
def State.sparesUsed (mc : Nat) (s : State) : Nat :=
  (s.power.repair.filter (fun r => r.kind == 4 + mc % 2 && r.inst / 4096 == mc / 2)).length

/-- Reserve left in per cent, the smallest over the memories (Table 16-10). -/
def State.memoryLeft (s : State) : Nat :=
  (List.range 6).foldl (fun m mc => min m (100 * (sparesIn mc - s.sparesUsed mc) / sparesIn mc)) 100

/-- Records a retirement in the repair map, which holds up to 1,024 entries (R341). -/
def State.retireRecord (kind inst cause : Nat) (s : State) : State :=
  if s.power.repair.length < 1024 then
    let e : Retired := ⟨kind, inst, cause, s.tai⟩
    ({ s with power := { s.power with repair := s.power.repair ++ [e] } }).wr (key 0x2400 6) (s.power.repair.length + 1 : Nat)
  else s

/-! ### Lanes -/

/-- The roles of R51 with no lane retired. -/
def laneDflt (l : Nat) : LaneRec := { state := if l < 19 then .home else if l = 19 then .free else .reserve }
def State.lane (l : Nat) (s : State) : LaneRec := Tbl.get (laneDflt l) l s.fabric.lanes
def State.setLane (l : Nat) (r : LaneRec) (s : State) : State := { s with fabric := { s.fabric with lanes := Tbl.set l r s.fabric.lanes } }
def State.modLane (l : Nat) (f : LaneRec → LaneRec) (s : State) : State := s.setLane l (f (s.lane l))
def allLanes : List Nat := List.range 24

/-- Whether a lane is in service: home, free, draining, or an in-service lane under test. -/
def LaneRec.inService (r : LaneRec) : Bool :=
  match r.state with
  | .home | .free | .draining => true
  | .underTest => r.testFrom != .reserve
  | _ => false
def State.lanesIn (s : State) : List Nat := allLanes.filter (fun l => (s.lane l).inService)
def State.inState? (st : LaneState) (s : State) : Option Nat := allLanes.find? (fun l => (s.lane l).state == st)
def State.freeLane (s : State) : Option Nat := s.inState? .free

/-- The batches homed on a lane, and whether one will be. -/
def State.homedOn (l : Nat) (s : State) : List Nat := allBatches.filter (fun b => (s.batch b).home == some l)
def State.laneEmpty (l : Nat) (s : State) : Bool :=
  (s.homedOn l).isEmpty && (s.lane l).item.isNone && allBatches.all (fun b => (s.batch b).nextHome != some l)

/-- The code of a lane state (Table 03-9). -/
def LaneState.code : LaneState → Nat
  | .home => 0
  | .free => 1
  | .draining => 2
  | .underTest => 3
  | .reserve => 4
  | .retired => 5

/-- A rational figure of lanes in thousandths, rounded up. -/
def milliUp (q : Rat) : Nat := (q * 1000).ceil.toNat

/-- W_b / C_b of a batch from its queue figures (R57): ns over counts of 2.5 ns. -/
def loadOf (work cyc : Nat) : Rat := if cyc = 0 then 0 else (2 * work : Nat) / (5 * cyc : Nat)

/-- The batches homed on a lane as bits, and its load in thousandths (Table 03-8 .05, .06). -/
def State.laneHomed (l : Nat) (s : State) : Nat := ((s.homedOn l).map (fun b => 2 ^ b)).sum
def State.laneLoad (l : Nat) (s : State) : Nat :=
  milliUp ((s.homedOn l).map (fun b => loadOf (((s.recipe b).map (·.work)).getD 0) (s.cycleOf b))).sum

/-- The lanes in reserve, one under test for the time being among them. -/
def State.reserveLanes (s : State) : Nat :=
  (allLanes.filter (fun l => (s.lane l).state == .reserve || ((s.lane l).state == .underTest && (s.lane l).testFrom == .reserve))).length

/-- Writes the fabric object's account of the lanes (Table 03-6). -/
def State.syncLanes (s : State) : State :=
  let s := (s.wr (key 0x6530 1) s.lanesIn.length).wr (key 0x6530 2) (s.freeLane.getD 0xFF)
  (s.wr (key 0x6530 3) ((s.inState? .underTest).getD 0xFF)).wr (key 0x6530 0xC) s.reserveLanes

/-! ### Admission (R55 to R59) -/

/-- What admission knows of a batch: cycle in counts, lead, input latency, work and longest item in ns, items and tagged
events, priority. -/
structure Fig where
  b : Nat
  cyc : Nat
  lead : Nat
  lin : Nat
  work : Nat
  longest : Nat
  items : Nat
  prio : Nat
  deriving DecidableEq, Repr

/-- Whether the acquisition records values of batch b, so that its cycles carry a capture commit (R64; DEDUCED,
notes/assumptions/11). -/
def State.captures (b : Nat) (s : State) : Bool :=
  s.rdN (key 0x7000 4) == b + 1 ||
  (List.range 128).any (fun j => s.rdN (key (0x7040 + j) 1) == 5 && s.rdN (key (0x7040 + j) 2) / 128 % 32 == b)

/-- The output lead in ns (R13, R56). -/
def State.lead (b : Nat) (s : State) : Nat := if s.outClass b = 1 then 1500 else 500

/-- L_in: the largest fast-tap latency of the chains that the recipe reads (R13). -/
def State.inputLatency (r : Recipe) (s : State) : Nat :=
  r.chains.foldl (fun m c => max m (s.rdN (key (0x5000 + c) 0x12))) 0

/-- Tagged events of a cycle (R64). -/
def State.taggedEvents (b : Nat) (r : Recipe) (s : State) : Nat := b2n (r.cls == 1) + b2n (s.captures b)

/-- The queues that a written mapping gives to batch b. -/
def State.queuesOf (b : Nat) (s : State) : List Nat := (List.range 32).filter (fun q => s.rdN (key (0x6500 + q) 1) == b)

def State.fig (b : Nat) (r : Recipe) (s : State) : Fig :=
  { b := b, cyc := s.cycleOf b, lead := s.lead b, lin := s.inputLatency r, work := r.work, longest := r.longest,
    items := r.items.length + s.taggedEvents b r
    prio := ((s.queuesOf b).head?.map (fun q => s.rdN (key (0x6500 + q) 2))).getD 7 }

/-- The available window A_b in half ns (R56). -/
def Fig.window (f : Fig) : Int := 5 * f.cyc - 2 * (f.lead + f.lin + 100)

/-- W_b + X_b + I_b in half ns, with the other batches of the lane (R56). -/
def Fig.demand (f : Fig) (others : List Fig) : Int :=
  let x := (others.filter (fun o => f.prio < o.prio)).foldl (fun m o => max m o.longest) 0
  let i := ((others.filter (fun o => o.prio ≤ f.prio)).map (fun o =>
    ((5 * f.cyc - 2 * f.lead + 5 * o.cyc - 1) / (5 * o.cyc)) * (2 * o.work))).sum
  2 * f.work + 2 * x + i

/-- Whether every batch of a lane passes its window test. -/
def windowsOk (l : List Fig) : Bool := l.all (fun f => f.demand (l.filter (fun o => o.b != f.b)) ≤ f.window)

def Fig.load (f : Fig) : Rat := loadOf f.work f.cyc

/-- The order of R57: decreasing load, then lower batch number. -/
def insertFig (f : Fig) : List Fig → List Fig
  | [] => [f]
  | g :: r => if g.load < f.load || (g.load == f.load && decide (f.b < g.b)) then f :: g :: r else g :: insertFig f r
def sortFigs (l : List Fig) : List Fig := l.foldl (fun acc f => insertFig f acc) []

/-- Homes one batch: the least-loaded lane on which all pass and the load stays within the limit (R57). -/
def homeFig (limit : Rat) (lanes : List Nat) (plan : List (Nat × Fig)) (f : Fig) : Option Nat :=
  let on (l : Nat) : List Fig := (plan.filter (fun p => p.1 == l)).map (·.2)
  let load (l : Nat) : Rat := ((on l).map Fig.load).sum
  let ok := lanes.filter (fun l => load l + f.load ≤ limit && windowsOk (f :: on l))
  ok.foldl (fun best l => match best with
    | none => some l
    | some k => if load l < load k then some l else some k) none

/-- The lane plan over `lanes`, or the batch that finds no lane. -/
def lanePlan (limit : Rat) (lanes : List Nat) : List Fig → List (Nat × Fig) → List (Nat × Fig) ⊕ Nat
  | [], plan => .inl plan
  | f :: r, plan =>
    match homeFig limit lanes plan f with
    | none => .inr f.b
    | some l => lanePlan limit lanes r (plan ++ [(l, f)])

/-- The result of an admission run: code of Table 03-7, failing batch, plan. -/
structure Adm where
  result : Nat
  failing : Nat
  plan : List (Nat × Fig)
  deriving DecidableEq, Repr

/-- The queue test (R55) on the batches of `figs` and on every enabled batch, with a recipe or without. -/
def State.queueTest (figs : List Fig) (s : State) : Bool :=
  allBatches.all (fun b => !(s.benabled b || figs.any (fun f => f.b == b)) || (s.queuesOf b).length == 1)

/-- The four tests (R55) with factor `k` over `figs`; `n` lanes in service, `lanes` those that may carry batches. -/
def State.admission (k : Rat) (n : Nat) (lanes : List Nat) (figs : List Fig) (s : State) : Adm :=
  if !(s.queueTest figs) then ⟨1, 0xFF, []⟩
  else if figs.any (fun f => 32 < f.items) then ⟨2, 0xFF, []⟩
  else if k * ((n : Int) - 1 : Int) < (figs.map Fig.load).sum then ⟨3, 0xFF, []⟩
  else match lanePlan k lanes (sortFigs figs) [] with
    | .inl p => ⟨0, 0xFF, p⟩
    | .inr b => ⟨4, b, []⟩

/-- Every enabled batch with its recipe. -/
def State.enabledFigs (s : State) : List Fig :=
  allBatches.filterMap (fun b => if s.benabled b then (s.recipe b).map (fun r => s.fig b r) else none)

/-- The lanes that may carry batches: in service, without the free lane, the lane that becomes it, and a lane under test
or leaving. While a lane drains, the free lane takes its batches and stands for it (R67). -/
def State.carriers (s : State) : List Nat :=
  allLanes.filter (fun l => ((s.lane l).state == .home && s.fabric.nextFree != some l)
    || ((s.lane l).state == .free && (s.inState? .draining).isSome))

/-- Factor 0.8 of R55. -/
def factor08 : Rat := 4 / 5

/-- What the recipe of batch b puts on queue q: items and tagged events, work, longest item; zeros with no recipe (R103). -/
def State.recounted (b q : Nat) (s : State) : State :=
  let o := 0x6500 + q
  match s.recipe b with
  | some r => ((s.wr (key o 7) (r.items.length + s.taggedEvents b r : Nat)).wr (key o 8) r.work).wr (key o 9) r.longest
  | none => ((s.wr (key o 7) 0).wr (key o 8) 0).wr (key o 9) 0

/-- What the recipe of batch b puts on the queue in force that serves it; where none does, nothing. -/
def State.recount (b : Nat) (s : State) : State :=
  match s.servingQueue b with
  | some q => s.recounted b q
  | none => s

/-- Puts a plan into effect: the queue figures of Table 03-4 over the queues in force, the fabric figures, and each batch's next home,
which a running cycle keeps until its boundary (R57). A window or slack with half a ns is rounded down: R71 gives whole ns and no rounding
(DESIGN CHOICE, notes/assumptions/108). -/
def State.applyPlan (a : Adm) (s : State) : State :=
  let s := s.each (List.range 32) (fun q s =>
    let o := 0x6500 + q
    match a.plan.find? (fun p => s.queueOf p.2.b == q) with
    | none => ((s.recounted (s.queue q).batch q).wr (key o 0xA) 0).wr (key o 0xB) 0
    | some (l, f) =>
      let others := (a.plan.filter (fun p => p.1 == l && p.2.b != f.b)).map (·.2)
      let s := ((s.wr (key o 7) f.items).wr (key o 8) f.work).wr (key o 9) f.longest
      (s.wr (key o 0xA) ((f.window.toNat / 2 : Nat))).wr (key o 0xB) ((f.window - f.demand others) / 2))
  let s := s.each allBatches (fun b s =>
    let r := s.batch b
    match a.plan.find? (fun p => p.2.b == b) with
    | none =>
      if r.home.isNone && r.nextHome.isNone then s
      else if r.cyc.isSome then s.setBatch b { r with nextHome := none, homeless := true }
      else s.setBatch b { r with home := none, nextHome := none }
    | some (l, _) =>
      if r.home == some l then s.setBatch b { r with nextHome := none, homeless := false }
      else if r.home.isNone then s.setBatch b { r with home := some l, nextHome := none, homeless := false }
      else s.setBatch b { r with nextHome := some l, homeless := false })
  let load : Rat := (a.plan.map (fun p => p.2.load)).sum
  s.wr (key 0x6530 4) (milliUp load)

/-- Reports an admission result (0x6530 .05 to .07). A pass at 0.8 ends the capacity alarm (R58). -/
def State.reportAdm (result failing : Nat) (s : State) : State :=
  let s := ((s.wr (key 0x6530 5) ((800 * (s.lanesIn.length - 1) : Nat))).wr (key 0x6530 6) result).wr (key 0x6530 7)
    (if result = 4 then failing else 0xFF)
  if result = 0 then s.wr (key 0x6530 0xB) 0 else s

/-- The abort code of a failed admission (Table 03-2). -/
def admAbort (result : Nat) : Nat := 0x0B000030 + (result - 1)

/-- Arm check 1 (R330) is an admission run over the pending values (R59): the tests, and what they report. -/
def State.armAdmission (s : State) : State :=
  let a := s.admission factor08 s.lanesIn.length s.carriers s.enabledFigs
  s.reportAdm a.result a.failing

/-- The values of the queues in force in place of the pending ones (R59). -/
def State.inForce (s : State) : State :=
  s.each (List.range 32) (fun q s => (s.wr (key (0x6500 + q) 1) (s.queue q).batch).wr (key (0x6500 + q) 2) (s.queue q).prio)

/-- The figures of batches with the priorities in force (R59). -/
def State.figsInForce (figs : List Fig) (s : State) : List Fig := figs.map (fun x => { x with prio := (s.queue (s.queueOf x.b)).prio })

/-- The plan that an admission passed with factor `k` puts into effect: in Configuration the tests were on the pending values of the queues, and
the plan is that of the values in force (R59). -/
def State.planInForce (k : Rat) (a : Adm) (figs : List Fig) (s : State) : Adm :=
  if s.mod == .configuration then s.inForce.admission k s.lanesIn.length s.carriers (s.figsInForce figs) else a

/-- Runs admission over `figs` (R55) at 0.8: 0 and the plan in effect, or the abort code with nothing but the result
changed. While the capacity alarm is set a failure is always 0x32 (R58). -/
def State.runAdmission (figs : List Fig) (s : State) : Nat × State :=
  let a := s.admission factor08 s.lanesIn.length s.carriers figs
  let f := s.planInForce factor08 a figs
  if a.result = 0 then (0, ((if f.result = 0 then s.applyPlan f else s).reportAdm 0 0xFF).syncLanes)
  else (if s.rdB (key 0x6530 0xB) then 0x0B000032 else admAbort a.result, s.reportAdm a.result a.failing)

/-- The batch that R58 blocks first: largest priority value, then highest number. -/
def worstFig (l : List Fig) : Option Fig :=
  l.foldl (fun m f => match m with
    | none => some f
    | some g => if g.prio < f.prio || (g.prio == f.prio && g.b < f.b) then some f else some g) none

/-- Puts the plan of an admission after a lane has left service into effect: that of the values in force; where no plan holds for these, the
batches keep the homes they have (R58, R59; DESIGN CHOICE, notes/assumptions/108). -/
def State.replan (k : Rat) (a : Adm) (figs : List Fig) (s : State) : State :=
  let f := s.planInForce k a figs
  if f.result = 0 then s.applyPlan f else s

/-- R58: blocks batches one at a time until the tests pass with the factor 1.0, by the priorities in force. The capacity alarm is set here
too: R58 names it where nothing is blocked. A batch blocked so has no home lane: the items of its cycles are still enqueued (R141), no lane runs
them, and each cycle is a miss (DESIGN CHOICE, notes/assumptions/108). -/
def State.shed : Nat → List Fig → State → State
  | 0, _, s => s
  | k + 1, figs, s =>
    let a := s.admission 1 s.lanesIn.length s.carriers figs
    if a.result = 0 then ((s.replan 1 a figs).reportAdm 6 0xFF).wr (key 0x6530 0xB) 1
    else match worstFig (s.figsInForce figs) with
      | none => (s.reportAdm 6 0xFF).wr (key 0x6530 0xB) 1
      | some f =>
        let s := if s.commands then s else { s with fabric := { s.fabric with uncarried := f.b :: s.fabric.uncarried } }
        (s.blockBatch f.b 8 []).shed k (figs.filter (fun g => g.b != f.b))

/-- Admission after the number of lanes in service has changed (R55, R58). -/
def State.readmit (s : State) : State :=
  let s := { s with fabric := { s.fabric with uncarried := [] } }
  let figs := s.enabledFigs
  let a := s.admission factor08 s.lanesIn.length s.carriers figs
  if a.result = 0 then (s.replan factor08 a figs).reportAdm 0 0xFF
  else
    let a := s.admission 1 s.lanesIn.length s.carriers figs
    if a.result = 0 then ((s.replan 1 a figs).reportAdm 5 0xFF).wr (key 0x6530 0xB) 1
    else s.shed 33 figs

/-! ### Queues in force and dispatch (R59 to R63) -/

def State.setQueue (q : Nat) (r : QueueRec) (s : State) : State := { s with fabric := { s.fabric with queues := Tbl.set q r s.fabric.queues } }

/-- The pending values of queues and groups come into force together, and the lane plan is built for them (R59). -/
def State.queuesInForce (s : State) : State :=
  let s := s.each (List.range 32) (fun q s =>
    let o := 0x6500 + q
    s.setQueue q { batch := s.rdN (key o 1), prio := s.rdN (key o 2), group := s.rdN (key o 3), weight := s.rdN (key o 4), cred := (s.queue q).cred })
  let s := s.each (List.range 8) (fun g s =>
    let s := { s with fabric := { s.fabric with weights := Tbl.set g (s.rdN (key (0x6520 + g) 1)) s.fabric.weights } }
    s.wr (key (0x6520 + g) 2) (((List.range 32).map (fun q => if (s.queue q).group = g then 2 ^ q else 0)).sum : Nat))
  (s.runAdmission s.enabledFigs).2

/-- Whether batch b has an eligible work item. -/
def State.eligible (b : Nat) (s : State) : Bool :=
  match (s.batch b).cyc with
  | some c => c.ready && c.lane.isNone && c.next < c.items
  | none => false

/-- The first of `l` after `last` in rotation over `n`. -/
def rotFirst (n last : Nat) (l : List Nat) : Option Nat :=
  ((List.range n).map (fun i => (last + 1 + i) % n)).find? (fun x => l.contains x)

/-- `choose` (R62) among the queues `cand`: the queue, with the credits as the choice leaves them. Rotation points start so
that group 0 and queue 0 come first (DESIGN CHOICE, notes/assumptions/12). -/
def State.chooseQueue (cand : List Nat) (s : State) : Option (Nat × State) :=
  match (cand.map (fun q => (s.queue q).prio)).min? with
  | none => none
  | some p =>
    let cp := cand.filter (fun q => (s.queue q).prio == p)
    let groups := (List.range 8).filter (fun g => cp.any (fun q => (s.queue q).group == g))
    let gk (g : Nat) : Nat := p * 8 + g
    let gc (s : State) (g : Nat) : Nat := Tbl.get 0 (gk g) s.fabric.gcred
    let s := if groups.all (fun g => gc s g == 0) then
        s.each (List.range 8) (fun g s =>
          { s with fabric := { s.fabric with gcred := Tbl.set (gk g) (Tbl.get 1 g s.fabric.weights) s.fabric.gcred } })
      else s
    match rotFirst 8 (Tbl.get 7 p s.fabric.lastG) (groups.filter (fun g => 0 < gc s g)) with
    | none => none
    | some g =>
      let s := { s with fabric := { s.fabric with
        gcred := Tbl.set (gk g) (gc s g - 1) s.fabric.gcred, lastG := Tbl.set p g s.fabric.lastG } }
      let qs := cp.filter (fun q => (s.queue q).group == g)
      let s := if qs.all (fun q => (s.queue q).cred == 0) then
          s.each (List.range 32) (fun q s =>
            let r := s.queue q
            if r.group = g && r.prio = p then s.setQueue q { r with cred := r.weight } else s)
        else s
      match rotFirst 32 (Tbl.get 31 (gk g) s.fabric.lastQ) (qs.filter (fun q => 0 < (s.queue q).cred)) with
      | none => none
      | some q =>
        let r := s.queue q
        let s := s.setQueue q { r with cred := r.cred - 1 }
        some (q, { s with fabric := { s.fabric with lastQ := Tbl.set (gk g) q s.fabric.lastQ } })

/-- The item of batch b starts on lane l. A restart after a stall counts as any start does: off its home lane, in its group, on the lane (R69 does
not say; DESIGN CHOICE, notes/assumptions/108). -/
def State.assign (l b : Nat) (s : State) : State :=
  let r := s.batch b
  match r.cyc with
  | none => s
  | some c =>
    let q := s.queueOf b
    let wait := Time.toNs (s.now - c.eligibleAt)
    let s := s.setBatch b { r with cyc := some { c with lane := some l, restart := false, started := some (c.started.getD s.now) } }
    let s := s.modLane l (fun x => { x with item := some b })
    let s := if s.rdN (key (0x6500 + q) 0xD) < wait then s.wr (key (0x6500 + q) 0xD) wait else s
    let s := (s.inc (key (0x6520 + (s.queue q).group) 3)).inc (key (0x6540 + l) 7)
    if r.home == some l then s else s.incQueue b 0xF

/-- Whether lane l chooses items: in service and not the free lane, which runs only batches already rehomed on it (R67). -/
def State.chooses (l : Nat) (s : State) : Bool :=
  match (s.lane l).state with
  | .home | .draining => !(s.lane l).stalled
  | .free => !(s.homedOn l).isEmpty
  | _ => false

/-- One idle lane's choice: an item that restarts after a stall (R69), then R62 over its own batches, then over batches
whose home lane is busy (R63). Of several items that restart the lowest batch is first (DESIGN CHOICE, notes/assumptions/108). -/
def State.chooseOn (l : Nat) (s : State) : State :=
  if (s.lane l).item.isSome || !(s.chooses l) then s else
  let el := allBatches.filter (fun b => s.eligible b)
  match el.find? (fun b => (((s.batch b).cyc).map (·.restart)).getD false) with
  | some b => s.assign l b
  | none =>
    let own := el.filter (fun b => (s.batch b).home == some l)
    let foreign := if (s.lane l).state == .free then [] else el.filter (fun b =>
      match (s.batch b).home with
      | some h => (s.lane h).item.isSome || (s.lane h).stalled
      | none => false)
    let cand := if own.isEmpty then foreign else own
    match s.chooseQueue (cand.map (fun b => s.queueOf b)) with
    | none => s
    | some (q, s) => s.assign l (s.queue q).batch

/-- Idle lanes choose in ascending number until no lane finds an item. -/
def State.dispatchGo : Nat → State → State
  | 0, s => s
  | k + 1, s =>
    let n (s : State) : Nat := (allLanes.filter (fun l => (s.lane l).item.isSome)).length
    let s' := s.each allLanes State.chooseOn
    if n s' = n s then s' else s'.dispatchGo k
def State.dispatch (s : State) : State := if allBatches.any (fun b => s.eligible b) then s.dispatchGo 32 else s

/-! ### Lane tests, retirement, stalls (R67 to R69) -/

/-- Rehomes the batches of lane l on lane f at their next cycle boundaries. -/
def State.rehome (l f : Nat) (s : State) : State :=
  s.each allBatches (fun b s =>
    let r := s.batch b
    if r.home == some l || r.nextHome == some l then s.setBatch b { r with nextHome := some f } else s)

/-- Lane t goes under test; the former free lane carries batches from now on (R67). -/
def State.underTest (t : Nat) (from_ : LaneState) (s : State) : State :=
  let s := if from_ == .reserve then s else match s.freeLane with
    | some f => if f = t then s else s.modLane f (fun x => { x with state := .home })
    | none => s
  (s.modLane t (fun x => { x with state := .underTest, testFrom := from_, testSince := s.now })).syncLanes

/-- Whether the batches of a retired lane are still moving (R67, R68): no lane is free for a test in the meantime. -/
def State.moving (s : State) : Bool := allLanes.any (fun l => (s.lane l).state == .draining && (s.lane l).retireCause.isSome)

/-- Starts the test of lane t, or waits at t where it needs a free lane and none exists (R67). -/
def State.testLane (t : Nat) (s : State) : State :=
  let step (s : State) : State := { s with fabric := { s.fabric with rot := (t + 1) % 24, waiting := false, lastTest := s.now } }
  match (s.lane t).state with
  | .reserve => (step s).underTest t .reserve
  | .free => if (s.laneEmpty t) then (step s).underTest t .free else { s with fabric := { s.fabric with rot := t, waiting := true } }
  | .home =>
    match (if s.moving then none else s.freeLane) with
    | none => { s with fabric := { s.fabric with rot := t, waiting := true } }
    | some f =>
      let s := (step s).rehome t f
      if s.laneEmpty t then s.underTest t .home
      else (s.modLane t (fun x => { x with state := .draining })).syncLanes
  | _ => s

/-- Lane f becomes the free lane, the only one (R51); a rotation that waits for one goes on (R67). -/
def State.becomeFree (f : Nat) (s : State) : State :=
  let s := match s.freeLane with
    | some g => s.modLane g (fun x => { x with state := .home })
    | none => s
  let s := (s.modLane f (fun x => { x with state := .free, retireCause := none })).syncLanes
  let s := { s with fabric := { s.fabric with nextFree := none } }
  if s.fabric.waiting && s.rdB (key 0x6530 8) && s.fabric.rot ≠ f then s.testLane s.fabric.rot else s

/-- The lane that is to become free does so once it has emptied; one that is to be retired in the meantime leaves service instead (R68). -/
def State.checkNextFree (s : State) : State :=
  match s.fabric.nextFree with
  | some f => if (s.lane f).state == .home && s.laneEmpty f then s.becomeFree f else s
  | none => s

/-- Records the retirement of lane l, with event 0x0601 and the lane that is free after it (R68). -/
def State.laneRecord (l cause : Nat) (free : Option Nat) (s : State) : State :=
  let s := s.modLane l (fun x => { state := .retired, negRun := x.negRun, testFrom := x.testFrom, testSince := x.testSince })
  let s := (s.setBit (key (0x6540 + l) 0xA) 1 false).retireRecord 1 l cause
  s.logEvent 0x0601 l (d8 cause ++ d8 (free.getD 0xFF))

/-- Reports the reserve lanes left (R344). -/
def State.lanesLeft (s : State) : State := s.reserveLeft 1 s.reserveLanes

/-- Aborts the test in progress: an in-service lane becomes the free lane and is tested in the next step, unless its partial test has
already failed, which no command brings (a free value): then it is retired under R68, a reserve lane at once (R67). -/
def State.abortTest (s : State) : State :=
  match s.inState? .underTest with
  | none => s
  | some t =>
    let (n, s) := s.draw
    let failed := Config.partialFailed n == 1
    let reserve := (s.lane t).testFrom == .reserve
    let s := s.wr (key (0x6540 + t) 9) 4
    let s := { s with fabric := { s.fabric with rot := t } }
    if failed && reserve then ((s.laneRecord t 1 s.freeLane).lanesLeft).syncLanes
    else if failed then
      ((s.modLane t (fun x => { x with state := .draining, retireCause := some 1 })).setBit (key (0x6540 + t) 0xA) 1 true).syncLanes
    else (s.modLane t (fun x => { x with state := if reserve then .reserve else .free })).syncLanes

/-- An empty lane leaves service (R68): the lowest reserve lane becomes the free lane; with no reserve the number in service
falls, admission runs again, and the highest-numbered lane becomes the free lane once it is empty. -/
def State.leaveService (l cause : Nat) (s : State) : State :=
  let r := s.lane l
  let wasReserve := r.state == .reserve || (r.state == .underTest && r.testFrom == .reserve)
  let s := match r.item with
    | none => s
    | some b => s.modBatch b (fun x => { x with cyc := x.cyc.map (fun (c : Cycle) => { c with lane := none, restart := true }) })
  let f := s.freeLane
  let s := s.modLane l (fun x => { x with state := .retired, item := none })
  if wasReserve then ((s.laneRecord l cause f).lanesLeft).syncLanes
  else
    let s := match f with
      | some g => if g = l then s else s.modLane g (fun x => { x with state := .home })
      | none => s
    let s := if (s.inState? .reserve).isNone && ((s.inState? .underTest).map (fun t => (s.lane t).testFrom == LaneState.reserve)).getD false
      then s.abortTest else s
    match s.inState? .reserve with
    | some k => ((s.laneRecord l cause (some k)).becomeFree k).lanesLeft
    | none =>
      let k := s.lanesIn.getLast?
      let s := s.laneRecord l cause k
      let s := { s with fabric := { s.fabric with nextFree := k } }
      s.readmit.checkNextFree.syncLanes

/-- The free lane is to be retired while it takes batches from lane t that drains for its test: these stay on t, or go back to it at their
next cycle boundaries, and t is a home lane again. -/
def State.drainBack (l t : Nat) (s : State) : State :=
  let s := s.modLane t (fun x => { x with state := .home })
  s.each allBatches (fun b s =>
    let r := s.batch b
    if r.home == some t && r.nextHome == some l then s.setBatch b { r with nextHome := none }
    else if r.home == some l || r.nextHome == some l then s.setBatch b { r with nextHome := some t }
    else s)

/-- Lane l leaves service once it is empty (R68). -/
def State.drainLane (l cause : Nat) (s : State) : State :=
  (s.modLane l (fun x => { x with state := .draining, retireCause := some cause })).setBit (key (0x6540 + l) 0xA) 1 true

/-- A lane is to be retired (R68): at once where it is empty, else it drains first, at the cycle boundaries of its batches (R19, item 6).
Where another lane drains already, the batches of both go to the one free lane, with no new window test (DESIGN CHOICE, notes/assumptions/108). -/
def State.retireLane (l cause : Nat) (s : State) : State :=
  let r := s.lane l
  match r.state with
  | .retired => s
  | .reserve | .underTest => s.leaveService l cause
  | .free =>
    if s.laneEmpty l then s.leaveService l cause
    else
      let s := s.drainLane l cause
      match allLanes.find? (fun t => t != l && (s.lane t).state == .draining && (s.lane t).retireCause.isNone) with
      | some t => (s.drainBack l t).syncLanes
      | none => s.readmit.syncLanes
  | .draining => s.drainLane l cause
  | .home =>
    if s.laneEmpty l then s.leaveService l cause else
    let s := if s.freeLane.isNone then s.abortTest else s
    let s := s.drainLane l cause
    match s.freeLane with
    | some f => (s.rehome l f).syncLanes
    | none => s.readmit.syncLanes

/-- LANE_TEST_START (R67): the rotation step has come, tests are enabled and no lane is under test or draining for one. -/
def State.laneTestStart (s : State) : State :=
  let busy := allLanes.any (fun l => (s.lane l).state == .underTest || ((s.lane l).state == .draining && (s.lane l).retireCause.isNone))
  let due := s.fabric.lastTest + Time.ms (s.rdN (key 0x6530 9)) ≤ s.now
  if !(s.rdB (key 0x6530 8)) || busy || !due then s else
  match ((List.range 24).map (fun i => (s.fabric.rot + i) % 24)).find? (fun l => (s.lane l).state != .retired) with
  | some t => s.testLane t
  | none => s

def execLaneTestStart (t : Time) (s : State) : Host.Outcome State Fault Refusal := .next (s.begin t).laneTestStart

/-- LANE_DRAINED (R67, R68): the lane leaves service or goes under test. -/
def State.laneDrained (l : Nat) (s : State) : State :=
  let r := s.lane l
  if r.state == .draining && s.laneEmpty l then
    match r.retireCause with
    | some c => s.leaveService l c
    | none => s.underTest l .home
  else s

def execLaneDrained (t : Time) (l : Lane) (s : State) : Host.Outcome State Fault Refusal := .next ((s.begin t).laneDrained l)

/-- Counts a rotation (0x6530 .0A) where lane l is the last one that is tested. -/
def State.rotationDone (l : Nat) (s : State) : State :=
  if allLanes.all (fun k => k ≤ l || (s.lane k).state == .retired) then s.inc (key 0x6530 0xA) else s

/-- LANE_TEST_END (R67): 2 ms after its start the test passes, or the lane is retired. -/
def State.laneTestEnd (l : Nat) (res : LaneTest) (s : State) : State :=
  let r := s.lane l
  if r.state == .underTest && r.testSince + Time.ms 2 ≤ s.now then
    let s := s.rotationDone l
    match res with
    | .pass =>
      let s := s.wr (key (0x6540 + l) 9) 1
      if r.testFrom == .reserve then (s.modLane l (fun x => { x with state := .reserve })).syncLanes else s.becomeFree l
    | .patternFailure => (s.wr (key (0x6540 + l) 9) 2).leaveService l 1
    | .replicaFailure => (s.wr (key (0x6540 + l) 9) 3).leaveService l 1
  else s

def execLaneTestEnd (t : Time) (l : Lane) (res : LaneTest) (s : State) : Host.Outcome State Fault Refusal :=
  .next ((s.begin t).laneTestEnd l res).dispatch

/-- LANE_STALL (R69): the interrupted item restarts on the free lane, or on the next idle lane; the lane is retired. -/
def State.laneStall (l : Nat) (s : State) : State :=
  match (s.lane l).item with
  | none => s
  | some b =>
    let s := (s.inc (key (0x6540 + l) 8)).incQueue b 0x11
    let s := if s.freeLane.isNone then s.abortTest else s
    let s := s.modLane l (fun x => { x with item := none, stalled := true })
    let s := s.modBatch b (fun x => { x with cyc := x.cyc.map (fun (c : Cycle) => { c with lane := none, restart := true }) })
    let s := match s.freeLane with
      | some f => if f ≠ l && (s.lane f).item.isNone then s.assign f b else s
      | none => s
    s.retireLane l 4

def execLaneStall (t : Time) (l : Lane) (s : State) : Host.Outcome State Fault Refusal := .next ((s.begin t).laneStall l).dispatch

/-- PACE_MEASUREMENT (R54) on one lane. -/
def State.paceOf (l pace : Nat) (s : State) : State :=
  let o := 0x6540 + l
  if (s.lane l).state == .retired then s else
  let m : Int := max (-32768) (roundRat ((8000 - (pace : Int) : Int) * 5 / 4))
  let s := (s.wr (key o 2) pace).wr (key o 3) m
  let s := if m < s.rd (key o 4) then s.wr (key o 4) m else s
  let low := 7600 < pace
  let was := s.bit (key o 0xA) 0
  let s := s.setBit (key o 0xA) 0 low
  let s := if low && !was then s.logEvent 0x0600 l (d16 (unsigned 16 m)) else s
  let run := if 8000 < pace then (s.lane l).negRun + 1 else 0
  let s := s.modLane l (fun x => { x with negRun := run })
  if run = 3 then s.retireLane l 3 else s

def execPaceMeasurement (t : Time) (paces : List Nat) (s : State) : Host.Outcome State Fault Refusal :=
  .next (State.each (List.zip allLanes paces) (fun p s => s.paceOf p.1 p.2) (s.begin t)).dispatch

end Sys2Proof.Machine
end

