-- ==== Sys2Proof/Machine/BankViews.lean ====
section
/-! DEFINITION. Coefficient banks of slots (R82, R83), the dictionary jobs that reach them (R64), and the bank views of R140
with every coefficient derived from objects (R120, R125, R128, R130, R131, R133, R142, R144, R147). -/

namespace Sys2Proof.Machine

/-! ### Bank words -/

/-- The entry of word k of bank A or B of a fixed slot, and of coefficient k of a float slot (Tables 04-4, 04-5). -/
def fxWord (i : Nat) (bankB : Bool) (k : Nat) : Nat := key (0x6000 + i) (0x10 + (if bankB then 8 else 0) + k)
def flWord (i : Nat) (bankB : Bool) (k : Nat) : Nat := key (0x6400 + i) (0x10 + (if bankB then 16 else 0) + k)

/-- Whether a bank of a fixed slot is valid: lo ≤ hi (R82). -/
def State.fxValid (i : Nat) (bankB : Bool) (s : State) : Bool :=
  ofBits 16 (s.rdN (fxWord i bankB 6)) ≤ ofBits 16 (s.rdN (fxWord i bankB 7))

/-- The slots of batch b: fixed i, and 1,024 + s for float slots. -/
def State.slotsOf (b : Nat) (s : State) : List Nat := ((s.recipe b).map (fun r => r.slots)).getD []

/-- The first slot of batch b whose inactive bank is not valid; float banks hold only finite normal values or zero. -/
def State.firstInvalid (b : Nat) (s : State) : Option Nat :=
  ((s.slotsOf b).filter (fun i => i < 1024 && !(s.fxValid i (!(s.fx i).st.bankB)))).min?

/-- Reports bank validity at 0x4014 .05 and .06 (Table 04-8). -/
def State.syncBanks (b : Nat) (s : State) : State :=
  match s.firstInvalid b with
  | none => (s.wr (bk 0x14 5 b) (b2n (s.recipe b).isSome)).wr (bk 0x14 6 b) 0xFFFF
  | some i => (s.wr (bk 0x14 5 b) 0).wr (bk 0x14 6 b) i

/-- A write to an inactive bank cancels a pending swap of the batch (R83). -/
def State.cancelSwap (b : Nat) (s : State) : State := s.wr (bk 0x14 3 b) 0

/-- Writes word k of the inactive bank of a fixed slot, coefficient k of the inactive bank of a float slot. -/
def State.putWord (i k v : Nat) (s : State) : State := s.wr (fxWord i (!(s.fx i).st.bankB) k) (v % 65536 : Nat)
def State.putCoef (i k : Nat) (v : F32) (s : State) : State := s.wrF (flWord i (!(s.fl i).st.bankB) k) v
def State.inWord (i k : Nat) (s : State) : Nat := s.rdN (fxWord i (!(s.fx i).st.bankB) k)

/-- The owner of a slot (0xFF none). -/
def State.slotOwner (sl : Nat) (s : State) : Nat := s.rdN (if sl < 1024 then key (0x6000 + sl) 1 else key (0x6400 + (sl - 1024)) 1)

/-! ### The bank views -/

/-- Where a bank view keeps its coefficient: a coefficient of a float slot, or a word of a fixed slot. -/
inductive Coef where
  | fl (slot k : Nat)
  | word (slot k : Nat)
  deriving DecidableEq, Repr

/-- The slot of the first block of a code: float slots as 0 to 63. -/
def Recipe.flSlot (r : Recipe) (code : Nat) : Option Nat := (r.byCode code).head?.map (fun b => b.slot - 1024)
def Recipe.fxSlot (r : Recipe) (code : Nat) : Option Nat := (r.byCode code).head?.map (·.slot)

/-- The coefficient that a bank view of offset `off` subindex `sub` shows (Tables 06-2, 06-8, 06-10, 06-12, 07-4, 07-5). -/
def Recipe.viewCoef (r : Recipe) (off sub : Nat) : Option Coef :=
  let vm (k : Nat) : Option Coef := (r.flSlot 0x60).map (fun i => .fl i k)
  let ang (k : Nat) : Option Coef := (r.byCode 0x60).head?.map (fun b => .word b.param k)
  let est (k : Nat) : Option Coef := (r.flSlot 0x63).map (fun i => .fl i k)
  let vil (k : Nat) : Option Coef := (r.flSlot 0x64).map (fun i => .fl i k)
  let rl (k : Nat) : Option Coef := (r.flSlot 0x65).map (fun i => .fl i k)
  let inj (k : Nat) : Option Coef := (r.flSlot 0x66).map (fun i => .fl i k)
  let vi (k : Nat) : Option Coef := (r.fxSlot 0x61).map (fun i => .word i k)
  match off, sub with
  | 0x06, 1 => vm 0
  | 0x06, 2 => vm 1
  | 0x06, 3 => vm 13
  | 0x07, 1 => vm 2
  | 0x07, 2 => vm 14
  | 0x07, 3 => ang 6
  | 0x07, 4 => ang 7
  | 0x08, 1 => vi 0
  | 0x08, 2 => vi 1
  | 0x09, 1 => rl 1
  | 0x09, 2 => vil 5
  | 0x09, 3 => vil 6
  | 0x09, 4 => rl 2
  | 0x09, 5 => rl 4
  | 0x0A, 1 => inj 8
  | 0x0A, 2 => inj 5
  | 0x0A, 3 => inj 6
  | 0x0A, 4 => inj 2
  | 0x0A, 5 => inj 3
  | 0x0A, 6 => inj 4
  | 0x0A, 7 => inj 1
  | 0x10, 2 => est 0
  | 0x10, 6 => est 3
  | 0x10, 7 => est 4
  | 0x10, 9 => est 5
  | 0x10, 0xA => est 6
  | 0x10, 0xB => est 7
  | 0x10, 0xC => est 8
  | 0x10, 0xD => est 9
  | 0x10, 0xE => est 10
  | 0x10, 0xF => est 11
  | 0x10, 0x10 => est 12
  | 0x10, 0x11 => est 13
  | 0x16, 2 => (r.fxSlot 0x62).map (fun i => .word i 7)
  | 0x17, 1 => vm 15
  | 0x17, 2 => vm 5
  | 0x17, 3 => vm 6
  | 0x17, 4 => vm 7
  | 0x17, 5 => vm 8
  | 0x17, 6 => vm 11
  | 0x17, 7 => vm 9
  | 0x17, 8 => vm 10
  | _, _ => none

/-- Whether an entry is a bank view (its notes say "bank"). -/
def isView (off sub : Nat) : Bool :=
  match off with
  | 0x06 => 1 ≤ sub && sub ≤ 3
  | 0x07 => 1 ≤ sub && sub ≤ 4
  | 0x08 => 1 ≤ sub && sub ≤ 2
  | 0x09 => 1 ≤ sub && sub ≤ 5
  | 0x0A => 1 ≤ sub && sub ≤ 7
  | 0x10 => sub == 2 || sub == 6 || sub == 7 || (9 ≤ sub && sub ≤ 0x11)
  | 0x16 => sub == 2
  | 0x17 => 1 ≤ sub && sub ≤ 8
  | _ => false

/-- The bank views, as offset and subindex. -/
def bankViews : List (Nat × Nat) :=
  ([0x06, 0x07, 0x08, 0x09, 0x0A, 0x10, 0x16, 0x17].flatMap (fun o => (List.range 18).map (fun k => (o, k)))).filter (fun p => isView p.1 p.2)

/-- Full scales of a batch as exact numbers. -/
def State.vF (b : Nat) (s : State) : Rat := fval (s.rdF (bk 5 4 b))
def State.iF (b : Nat) (s : State) : Rat := fval (s.rdF (bk 5 5 b))

/-- The value of a bank view as the active bank gives it (R140), rounded once. A BOOL reads 0 or 1. -/
def State.viewRead (b off sub : Nat) (r : Recipe) (co : Coef) (s : State) : Int :=
  let vf := s.vF b
  let fn : Rat := (s.fn b : Nat)
  let cyc := s.cycSec b
  match co with
  | .word i k =>
    let w := ofBits 16 (s.word i k)
    let v : Rat :=
      if off = 8 then (w * 2 ^ (s.word i 5 / 16 ^ k % 16) : Int) / 32768 * vf / s.iF b
      else (w : Rat) / 32768 * vf
    (fofRat v).toNat
  | .fl i k =>
    let cb := s.coef i k
    let c := fval cb
    let inv (x : Rat) : F32 := if c = 0 then Config.viewOpen (bk off sub b) cb else fofRat (x / c)
    let f : F32 := match off, sub with
      | 0x07, 1 => inv 100
      | 0x07, 2 => fofRat (c * 100)
      | 0x09, 2 => let c4 := fval (s.coef i 4); if c4 = 0 then Config.viewOpen (bk off sub b) cb else fofRat (c / c4)
      | 0x09, 3 => fofRat (c / cyc)
      | 0x09, 5 => let c1 := fval (s.coef i 1); if c1 = 0 then Config.viewOpen (bk off sub b) cb else fofRat (c / c1)
      | 0x0A, 7 => inv (cyc * 1000)
      | 0x10, 2 => fofRat (c * vf / 32768)
      | 0x10, 6 => fofRat (c * s.iF b / (vf * (((r.byCode 0x63).head?.map (·.param)).getD 1 : Nat)))
      | 0x10, 7 => fofRat (c * s.iF b / 32768)
      | 0x17, 4 => fofRat (c / fn)
      | 0x17, 5 => fofRat (c * fn)
      | 0x17, 6 => fofRat (c * fn)
      | 0x17, 7 => fofRat (c / cyc)
      | 0x17, 8 => inv (cyc * 1000)
      | _, _ => cb
    if (off = 9 && sub = 4) || (off = 0xA && sub = 1) || (off = 0x17 && sub = 1) then (if c = 0 then 0 else 1) else (f.toNat : Int)

/-- The value of a bank view that derivations use: the last written, or, where none was written since the recipe was loaded or the
coefficient itself was, the value that the active bank gives (DEDUCED, notes/assumptions/14). -/
def State.viewBits (b off sub : Nat) (s : State) : Int :=
  match Tbl.find? (bk off sub b) s.od with
  | some v => v
  | none =>
    match s.recipe b with
    | none => s.rd (bk off sub b)
    | some r => match r.viewCoef off sub with
      | some co => s.viewRead b off sub r co
      | none => s.rd (bk off sub b)
def State.viewVal (b off sub : Nat) (s : State) : Rat := fval (BitVec.ofNat 32 (s.viewBits b off sub).toNat)

/-- Every view of batch b keeps the value it has now, before a full scale changes (R120). -/
def State.holdViews (b : Nat) (r : Recipe) (s : State) : State :=
  s.each (bankViews.filter (fun p => (r.viewCoef p.1 p.2).isSome && (Tbl.find? (bk p.1 p.2 b) s.od).isNone))
    (fun p s => s.wr (bk p.1 p.2 b) (s.viewBits b p.1 p.2))

/-- A bank word that the host writes itself: the views of that coefficient hold no written value any longer. -/
def State.forgetWord (b slot word : Nat) (s : State) : State :=
  match s.recipe b with
  | none => s
  | some r =>
    let hit (c : Coef) : Bool := match c with
      | .fl i k => slot == 1024 + i && word == k
      | .word i k => slot == i && (word == k || word == 5)
    s.each (bankViews.filter (fun p => ((r.viewCoef p.1 p.2).map hit).getD false)) (fun p s => s.clr (bk p.1 p.2 b))

/-- The mantissa and the exponent of an impedance (R128). -/
def mantissa (z scale : Rat) : Nat × Nat :=
  let m (n : Nat) : Nat := (roundRat (z * scale * 32768 / (2 ^ n : Nat))).toNat
  let n := ((List.range 10).find? (fun n => m n ≤ 32767)).getD 9
  (m n, n)

/-- A signed code as a bank word. -/
def codeBits (z : Int) : Nat := unsigned 16 (sat16 z)

/-- Writes the impedance mantissas and exponents of the virtual impedance block, and what depends on them: c7 and c8 of
the limiter, c14 of the estimator (R128, R133, R142). -/
def State.putImpedance (b : Nat) (r : Recipe) (s : State) : State :=
  let scale := s.iF b / s.vF b
  let (m0, n0) := mantissa (s.viewVal b 8 1) scale
  let (m1, n1) := mantissa (s.viewVal b 8 2) scale
  let s := s.each (r.byCode 0x61) (fun z s =>
    let e := s.inWord z.slot 5
    ((s.putWord z.slot 0 m0).putWord z.slot 1 m1).putWord z.slot 5 (e / 256 * 256 + n1 * 16 + n0))
  let per (n : Nat) : F32 := fofRat (scale * 32768 / (2 ^ n : Nat))
  let s := s.each (r.byCode 0x64) (fun z s => (s.putCoef (z.slot - 1024) 7 (per n0)).putCoef (z.slot - 1024) 8 (per n1))
  s.each (r.byCode 0x63) (fun z s => s.putCoef (z.slot - 1024) 14 (per n1))

/-- Writes c2 to c5 of the virtual-impedance limiter (R142): φ = atan of the X/R ratio. -/
def State.putAngle (b : Nat) (r : Recipe) (s : State) : State :=
  let rv := s.viewVal b 8 1
  let xv := s.viewVal b 8 2
  let k := s.viewVal b 9 2
  let h := 1 + k * k
  s.each (r.byCode 0x64) (fun z s =>
    let i := z.slot - 1024
    (((s.putCoef i 2 (fsqrtRat ((rv + xv * k) * (rv + xv * k) / h))).putCoef i 3 (fofRat (rv * rv + xv * xv))).putCoef i 4
      (fsqrtRat (1 / h))).putCoef i 5 (fsqrtRat (k * k / h)))

/-- Writes the limits of the virtual machine's fixed slot (Table 06-2, R120). -/
def State.putE (b : Nat) (r : Recipe) (s : State) : State :=
  s.each (r.byCode 0x60) (fun z s =>
    (s.putWord z.param 6 (codeBits (roundRat (s.viewVal b 7 3 * 32768 / s.vF b)))).putWord z.param 7
      (codeBits (roundRat (s.viewVal b 7 4 * 32768 / s.vF b))))

/-- Writes the limits of the negative-sequence controller's slots (R130). -/
def State.putNegLimit (b : Nat) (r : Recipe) (s : State) : State :=
  let l := roundRat (s.viewVal b 0x16 2 * 32768 / s.vF b)
  s.each (r.byCode 0x62) (fun z s => s.each [z.slot, z.slot + 1] (fun i s =>
    (s.putWord i 6 (codeBits (-l))).putWord i 7 (codeBits l)))

/-- Writes one coefficient of every block of a code. -/
def State.putAll (r : Recipe) (code k : Nat) (v : Block → Rat) (s : State) : State :=
  s.each (r.byCode code) (fun z s => s.putCoef (z.slot - 1024) k (fofRat (v z)))

/-- Writes c3 of the virtual machine, the control cycle (R125): with every write of its coefficients, since a timebase write is refused while
a recipe is loaded (DESIGN CHOICE, notes/assumptions/111). -/
def State.putCycle (b : Nat) (r : Recipe) (s : State) : State := s.putAll r 0x60 3 (fun _ => s.cycSec b)

/-- Writes every coefficient that derives from V_F or I_F (R120). -/
def State.putScales (b : Nat) (r : Recipe) (s : State) : State :=
  let vf := s.vF b
  let cf := s.iF b
  let s := if r.kind = 1 || r.kind = 2 then (s.putAll r 0x50 0 (fun _ => vf)).putAll r 0x50 1 (fun _ => cf * 2 / 3) else s
  let s := ((((s.putAll r 0x60 4 (fun _ => 1 / vf)).putCycle b r).putE b r).putImpedance b r).putNegLimit b r
  let s := s.putAll r 0x63 0 (fun _ => s.viewVal b 0x10 2 * 32768 / vf)
  let s := s.putAll r 0x63 3 (fun z => (z.param : Nat) * s.viewVal b 0x10 6 * vf / cf)
  let s := s.putAll r 0x63 4 (fun _ => s.viewVal b 0x10 7 * 32768 / cf)
  let s := s.putAll r 0x64 0 (fun _ => vf / 32768)
  let s := (s.putAll r 0x65 0 (fun _ => cf / 32768)).putAll r 0x65 3 (fun _ => 32768 / cf)
  (s.putAll r 0x66 0 (fun _ => vf / 32768)).putAll r 0x66 7 (fun _ => 32768 / cf)

/-- Writes the coefficients that a bank view gives (R140). -/
def State.putView (b off sub : Nat) (r : Recipe) (s : State) : State :=
  let x := s.viewVal b off sub
  let cyc := s.cycSec b
  let fn : Rat := (s.fn b : Nat)
  let raw := s.viewBits b off sub
  let vm (k : Nat) (v : Rat) : State := s.putAll r 0x60 k (fun _ => v)
  let est (k : Nat) (v : Rat) : State := s.putAll r 0x63 k (fun _ => v)
  let inj (k : Nat) (v : Rat) : State := s.putAll r 0x66 k (fun _ => v)
  let flag : Rat := if raw = 0 then 0 else 1
  match off, sub with
  | 0x06, 1 => vm 0 x
  | 0x06, 2 => vm 1 x
  | 0x06, 3 => vm 13 x
  | 0x07, 1 => vm 2 (100 / x)
  | 0x07, 2 => vm 14 (x / 100)
  | 0x07, 3 => s.putE b r
  | 0x07, 4 => s.putE b r
  | 0x08, 1 => (s.putImpedance b r).putAngle b r
  | 0x08, 2 => ((s.putImpedance b r).putAngle b r).putAll r 0x63 15 (fun _ => x)
  | 0x09, 1 =>
    ((s.putAll r 0x64 1 (fun _ => 1 / x)).putAll r 0x65 1 (fun _ => x)).putAll r 0x65 4 (fun _ => s.viewVal b 9 5 * x)
  | 0x09, 2 => s.putAngle b r
  | 0x09, 3 => s.putAll r 0x64 6 (fun _ => x * cyc)
  | 0x09, 4 => s.putAll r 0x65 2 (fun _ => flag)
  | 0x09, 5 => s.putAll r 0x65 4 (fun _ => x * s.viewVal b 9 1)
  | 0x0A, 1 => inj 8 flag
  | 0x0A, 2 => inj 5 x
  | 0x0A, 3 => inj 6 x
  | 0x0A, 4 => inj 2 x
  | 0x0A, 5 => inj 3 x
  | 0x0A, 6 => inj 4 x
  | 0x0A, 7 => inj 1 (cyc * 1000 / x)
  | 0x10, 2 => est 0 (x * 32768 / s.vF b)
  | 0x10, 6 => s.putAll r 0x63 3 (fun z => (z.param : Nat) * x * s.vF b / s.iF b)
  | 0x10, 7 => est 4 (x * 32768 / s.iF b)
  | 0x10, 9 => est 5 x
  | 0x10, 0xA => est 6 x
  | 0x10, 0xB => est 7 x
  | 0x10, 0xC => est 8 x
  | 0x10, 0xD => est 9 x
  | 0x10, 0xE => est 10 x
  | 0x10, 0xF => est 11 x
  | 0x10, 0x10 => est 12 x
  | 0x10, 0x11 => est 13 x
  | 0x16, 2 => s.putNegLimit b r
  | 0x17, 1 => vm 15 flag
  | 0x17, 2 => vm 5 x
  | 0x17, 3 => vm 6 x
  | 0x17, 4 => vm 7 (x * fn)
  | 0x17, 5 => vm 8 (x / fn)
  | 0x17, 6 => vm 11 (x / fn)
  | 0x17, 7 => vm 9 (x * cyc)
  | 0x17, 8 => vm 10 (cyc * 1000 / x)
  | _, _ => s

/-- The tolerance c2 = 0.1 of the estimator, written with any of its views (Table 06-10). -/
def State.putTolerance (off : Nat) (r : Recipe) (s : State) : State :=
  if off = 0x10 then s.putAll r 0x63 2 (fun _ => 1 / 10) else s

/-- Coefficient k of the inactive bank of a float slot, the bank that a write enters. -/
def State.inCoef (i k : Nat) (s : State) : Rat := fval (s.rdF (flWord i (!(s.fl i).st.bankB) k))

/-- Whether the virtual machine's bank that a write of value `x` enters would keep c5 ≤ c0 ≤ c6 and c3·(c1 + c2)/(2·c5) ≤ 0.5 (R125), c3
being the batch's control cycle. -/
def State.machineOk (b off sub : Nat) (x : Rat) (s : State) : Bool :=
  match (s.recipe b).bind (fun r => r.flSlot 0x60) with
  | none => true
  | some i =>
    let c (k : Nat) : Rat := s.inCoef i k
    let stable (c1 c2 c5 : Rat) : Bool := s.cycSec b * (c1 + c2) ≤ c5
    match off, sub with
    | 0x06, 1 => c 5 ≤ x && x ≤ c 6
    | 0x06, 2 => stable x (c 2) (c 5)
    | 0x07, 1 => stable (c 1) (fval (fofRat (100 / x))) (c 5)
    | 0x17, 2 => x ≤ c 0 && stable (c 1) (c 2) x
    | 0x17, 3 => c 0 ≤ x
    | _, _ => true

/-- Whether a bank view may take the value `x` as the other entries stand: the ranges that name them, and the conditions of R125 on the bank
entered. -/
def State.viewFits (b off sub : Nat) (x : Rat) (s : State) : Bool :=
  match off, sub with
  | 0x07, 4 => x ≤ s.vF b
  | 0x10, 0xA => -(s.viewVal b 8 2) ≤ x
  | 0x10, 0xE => s.viewVal b 0x10 0xC < x
  | 0x17, 8 => s.cycSec b * 1000 ≤ x
  | _, _ => s.machineOk b off sub x

/-- Whether a full scale may take the value `x`: V_F is at least E max (Table 06-2). -/
def State.scaleFits (b sub : Nat) (x : Rat) (s : State) : Bool := sub != 4 || s.viewVal b 7 4 ≤ x

/-- The own conditions of a bank view: the block present (0x61), and its range. Where jobs of the batch wait, the range is judged when this one
runs. -/
def State.viewOwn (b off sub : Nat) (v : Int) (s : State) : Nat :=
  match (s.recipe b).bind (fun r => r.viewCoef off sub) with
  | none => 0x0B000061
  | some _ => if (s.batch b).jobs.isEmpty && !(s.viewFits b off sub (fval (BitVec.ofNat 32 v.toNat))) then abRange else 0

/-- A bank view's job: the object takes the value, the coefficients go to the inactive banks (R140). -/
def State.applyView (b off sub : Nat) (v : Int) (s : State) : State :=
  let s := s.wr (bk off sub b) v
  match s.recipe b with
  | none => s
  | some r =>
    let s := if off = 6 || off = 7 || off = 0x17 then s.putCycle b r else s
    (((s.putView b off sub r).putTolerance off r).cancelSwap b).syncBanks b

/-- The job of a full scale: every coefficient derived from it goes to the inactive banks, from the values that the objects had under the
former full scale (R120). -/
def State.applyScale (b sub : Nat) (v : Int) (s : State) : State :=
  match s.recipe b with
  | none => s.wr (bk 5 sub b) v
  | some r => ((((s.holdViews b r).wr (bk 5 sub b) v).putScales b r).cancelSwap b).syncBanks b

/-- Whether the active bank holds what a view's last written value gives. -/
def State.viewHeld (b off sub : Nat) (r : Recipe) (s : State) : Bool :=
  let u := s.putView b off sub r
  match r.viewCoef off sub with
  | some (.fl i k) => u.inCoef i k == fval (u.coef i k)
  | some (.word i k) => u.inWord i k == u.word i k && (off != 8 || u.inWord i 5 == u.word i 5)
  | none => true

/-- The views whose last written value the active bank does not hold, and the copy of the active bank discards: they hold no written value any
longer (R140). -/
def State.forgetDiscarded (b : Nat) (s : State) : State :=
  match s.recipe b with
  | none => s
  | some r => s.each (bankViews.filter (fun p => (Tbl.find? (bk p.1 p.2 b) s.od).isSome && !(s.viewHeld b p.1 p.2 r)))
      (fun p s => s.clr (bk p.1 p.2 b))

/-! ### Dictionary jobs (R64) -/

/-- Word 3 or 4 of the virtual machine's fixed slot: its D goes to c12 as binary32 (Table 06-2). -/
def State.putD (b slot : Nat) (s : State) : State :=
  match s.recipe b with
  | none => s
  | some r => s.each ((r.byCode 0x60).filter (fun z => z.param == slot)) (fun z s =>
      s.putCoef (z.slot - 1024) 12 (fofInt ((s.inWord slot 3 * 65536 + s.inWord slot 4 : Nat))))

/-- An acc40 clamped to the widened limits of a fixed slot's active bank (Table 04-4). -/
def State.clampSlot (i : Nat) (a : Int) (s : State) : Int :=
  clampI a (widen (ofBits 16 (s.word i 6))) (widen (ofBits 16 (s.word i 7)))

/-- Sets element i of a float state list of 12. -/
def floatSet (l : List F32) (i : Nat) (v : F32) : List F32 := (l ++ List.replicate (12 - l.length) 0).set i v

/-- Whether the batch of generator g has its outputs enabled: a preset is BUSY then (R88). -/
def State.genOutOn (g : Nat) (s : State) : Bool :=
  s.rdN (key (0x6600 + g) 1) < 32 && (s.batch (s.rdN (key (0x6600 + g) 1))).outOn

/-- Carries out a job of batch b (0xFF: of no batch); the abort code of its answer. A bank write cancels the swap that is pending when its job
runs, one requested after the write was accepted too (R83 does not say; DESIGN CHOICE, notes/assumptions/109). -/
def State.runJob (b : Nat) (j : Job) (s : State) : State × Nat :=
  match j with
  | .entry _ _ _ _ | .goose _ _ => (s, 0)
  | .bankWord slot bankB word v =>
    if slot < 1024 then
      if (s.fx slot).st.bankB = bankB then (s, 0x0B000040)
      else
        let s := s.wr (fxWord slot bankB word) v
        let s := (if word = 3 || word = 4 then s.putD b slot else s).forgetWord b slot word
        ((s.cancelSwap b).syncBanks b, 0)
    else
      let i := slot - 1024
      if (s.fl i).st.bankB = bankB then (s, 0x0B000040)
      else ((((s.wr (flWord i bankB word) v).forgetWord b slot word).cancelSwap b).syncBanks b, 0)
  | .slotState slot i v =>
    if slot < 1024 then
      let r := s.fx slot
      let a := s.clampSlot slot (signed 40 v)
      (s.setFx slot { r with st := if i = 0 then { r.st with s1 := a } else { r.st with s2 := a } }, 0)
    else
      let k := slot - 1024
      let r := s.fl k
      (s.setFl k { r with st := { r.st with s := floatSet r.st.s i (BitVec.ofNat 32 v) } }, 0)
  | .copyBanks =>
    let s := s.forgetDiscarded b
    let s := s.each (s.slotsOf b) (fun sl s =>
      if sl < 1024 then s.each (List.range 8) (fun k s => s.putWord sl k (s.word sl k))
      else s.each (List.range 16) (fun k s => s.putCoef (sl - 1024) k (s.coef (sl - 1024) k)))
    ((s.cancelSwap b).syncBanks b, 0)
  | .view off sub v =>
    if s.viewFits b off sub (fval (BitVec.ofNat 32 v)) then (s.applyView b off sub v, 0) else (s, abRange)
  | .scale sub v => if s.scaleFits b sub (fval (BitVec.ofNat 32 v)) then (s.applyScale b sub v, 0) else (s, abRange)
  | .target g v => (s.hostTarget g v, 0)
  | .command g c x =>
    if c = 1 then (s.genHold g, 0) else if c = 2 then (s.genRelease g, 0)
    else if s.genOutOn g then (s, abBusy) else (s.presetTo g x, 0)

/-- Queues a job of the module's own on batch b's queue, which nobody asked for. -/
def State.ownJob (b : Nat) (j : Job) (s : State) : State :=
  (s.modBatch b (fun r => { r with jobs := r.jobs ++ [(j, { role := .safety, servicePort := false, sid := nobody })] })).notePeak b

/-- Queues a job on batch b's queue; it is answered when it has been applied (R352). A job of no batch is applied at once. -/
def State.job (b : Nat) (q : Req) (j : Job) (s : State) : State :=
  if b < 32 then (s.modBatch b (fun r => { r with jobs := r.jobs ++ [(j, q)] })).notePeak b
  else
    let (s, e) := s.runJob b j
    s.answer e

/-! ### The host's writes to slots, banks and generators -/

/-- The subindex of a bank word; word 8 and above of a fixed slot names no entry. -/
def bankSub (sl : Nat) (bankB : Bool) (w : Nat) : Nat :=
  if sl < 1024 then (if w < 8 then 0x10 + (if bankB then 8 else 0) + w else 0x21) else 0x10 + (if bankB then 16 else 0) + w

/-- The index of a slot's object. -/
def slotIndex (sl : Nat) : Nat := if sl < 1024 then 0x6000 + sl else 0x6400 + (sl - 1024)

/-- The active bank of a slot. -/
def State.activeB (sl : Nat) (s : State) : Bool := if sl < 1024 then (s.fx sl).st.bankB else (s.fl (sl - 1024)).st.bankB

/-- A write of a bank word (R82): exponents up to 9, and the inactive bank only. -/
def bankEff (q : Req) (sl : Nat) (bankB : Bool) (w v : Nat) : Eff where
  own s := firstFail [needs (s.activeB sl != bankB) 0x0B000040,
    needs (if sl < 1024 then w != 5 || expsOk v else coeffOk v) 0x0B000041]
  eff s := let s := if s.slotOwner sl < 32 then s.cancelSwap (s.slotOwner sl) else s
           s.job (s.slotOwner sl) q (.bankWord sl bankB w v)
  replies := false

def execSlotBankWrite (t : Time) (q : Req) (sl : SlotNo) (bankB : Bool) (word : Fin 16) (v : Nat) (s : State) :
    Host.Outcome State Fault Refusal :=
  .next ((s.begin t).hostWrite q (slotIndex sl) (bankSub sl bankB word) 0 v (bankEff q sl bankB word v))

/-- The subindex of a slot's state value: s1 and s2 of a fixed slot, s0 to s11 of a float slot. -/
def stateSub (sl i : Nat) : Nat := if sl < 1024 then (if i < 2 then 6 + i else 4) else 0x30 + i

/-- A write of slot state (R89, R90): a U64 must be the sign extension of an acc40. -/
def stateEff (q : Req) (sl i v : Nat) : Eff where
  own _ := needs (1024 ≤ sl || unsigned 64 (signed 40 v) == v) abRange
  eff s := s.job (s.slotOwner sl) q (.slotState sl i v)
  replies := false

def execSlotStateWrite (t : Time) (q : Req) (sl : SlotNo) (i : Fin 12) (v : Nat) (s : State) : Host.Outcome State Fault Refusal :=
  .next ((s.begin t).hostWrite q (slotIndex sl) (stateSub sl i) 0 v (stateEff q sl i v))

/-- 0x4014 .04: copies the active banks to the inactive ones (Table 04-8). -/
def copyEff (q : Req) (b : Nat) : Eff where
  eff s := (s.cancelSwap b).job b q .copyBanks
  replies := false

def execCopyActiveToInactive (t : Time) (q : Req) (b : Batch) (s : State) : Host.Outcome State Fault Refusal :=
  .next ((s.begin t).hostWrite q (0x4014 + 0x20 * b) 4 0 1 (copyEff q b))

/-- 0x4014 .02: a swap at the next t0, while every inactive bank is valid (R83). A repeat sets the instant anew (DESIGN CHOICE,
notes/assumptions/109). -/
def swapEff (b : Nat) : Eff where
  own s := needs (s.firstInvalid b).isNone 0x0B000022
  eff s := (s.modBatch b (fun r => { r with swapAt := s.now })).wr (bk 0x14 3 b) 1

def execBankSwapRequest (t : Time) (q : Req) (b : Batch) (s : State) : Host.Outcome State Fault Refusal :=
  .next ((s.begin t).hostWrite q (0x4014 + 0x20 * b) 2 0 1 (swapEff b))

/-- BANK_SWAP (R83): at a t0 that is not in the 2.5 ns count of the request, all slots swap together. -/
def State.bankSwap (b : Nat) (s : State) : State :=
  if s.rd (bk 0x14 3 b) = 1 && (s.batch b).swapAt / 32 < s.now / 32 then
    let s := s.each (s.slotsOf b) (fun sl s =>
      if sl < 1024 then
        let r := s.fx sl
        s.setFx sl { r with st := { r.st with bankB := !r.st.bankB } }
      else
        let r := s.fl (sl - 1024)
        s.setFl (sl - 1024) { r with st := { r.st with bankB := !r.st.bankB } })
    let s := s.wr (bk 0x14 1 b) (1 - s.rd (bk 0x14 1 b))
    (((s.wr (bk 0x14 3 b) 0).inc (bk 0x14 7 b)).wr (bk 0x14 8 b) s.tai).syncBanks b
  else s

/-- 0x6600 .02: a target write; the black-start ramp refuses it in BlackStart (R88). -/
def targetEff (q : Req) (g : Nat) (v : Int) : Eff where
  own s :=
    let b := s.rdN (key (0x6600 + g) 1)
    needs (!(b < 32 && s.bstate b == .blackStart && ((s.recipe b).map (fun r => r.ramps.contains g)).getD false)) 0x0B000042
  eff s := s.job (s.rdN (key (0x6600 + g) 1)) q (.target g (BitVec.ofNat 32 v.toNat))
  replies := false

def execTargetWrite (t : Time) (q : Req) (g : GenNo) (v : F32) (s : State) : Host.Outcome State Fault Refusal :=
  .next ((s.begin t).hostWrite q (0x6600 + g) 2 0 v.toNat (targetEff q g v.toNat))

/-- 0x6600 .0A: hold, release and preset are dictionary jobs (R64, R70, R88); a preset takes the value that .0B has at the write. -/
def genCmdEff (q : Req) (g : Nat) (v : Int) : Eff where
  own s := needs (!(v == 3 && s.genOutOn g)) abBusy
  eff s := s.job (s.rdN (key (0x6600 + g) 1)) q (.command g v.toNat (s.rdF (key (0x6600 + g) 0xB)))
  replies := false

def execHold (t : Time) (q : Req) (g : GenNo) (s : State) : Host.Outcome State Fault Refusal :=
  .next ((s.begin t).hostWrite q (0x6600 + g) 0xA 0 1 (genCmdEff q g 1))
def execRelease (t : Time) (q : Req) (g : GenNo) (s : State) : Host.Outcome State Fault Refusal :=
  .next ((s.begin t).hostWrite q (0x6600 + g) 0xA 0 2 (genCmdEff q g 2))
def execPreset (t : Time) (q : Req) (g : GenNo) (s : State) : Host.Outcome State Fault Refusal :=
  .next ((s.begin t).hostWrite q (0x6600 + g) 0xA 0 3 (genCmdEff q g 3))

/-- A write of a bank view: a dictionary job (R140). -/
def viewEff (q : Req) (b off sub : Nat) (v : Int) : Eff where
  own s := s.viewOwn b off sub v
  eff s := (s.cancelSwap b).job b q (.view off sub v.toNat)
  replies := false

/-- The own conditions of the entries beside the views in the same objects: T_s at least three grid cycles, k_on at most
N_p − 2 (Table 06-10). -/
def offsetOwn (b off sub : Nat) (v : Int) (s : State) : Nat :=
  match off, sub with
  | 0x10, 3 => needs (3000 ≤ v * (s.fn b : Nat)) abRange
  | 0x10, 5 => needs (v + 2 ≤ s.rd (bk 0x10 4 b)) abRange
  | _, _ => 0

/-- What a write to an entry of offsets 0x06 to 0x0A, 0x10, 0x16 and 0x17 does. -/
def offsetEff (q : Req) (b off sub : Nat) (v : Int) : Eff :=
  if isView off sub then viewEff q b off sub v
  else { own := offsetOwn b off sub v, eff := State.wr (bk off sub b) v }

def execBankViewWrite (t : Time) (q : Req) (b : Batch) (off : Fin 32) (sub v : Nat) (s : State) : Host.Outcome State Fault Refusal :=
  if isView off sub then .next ((s.begin t).hostWrite q (0x4000 + 0x20 * b + off) sub 0 v (viewEff q b off sub v))
  else .next (s.begin t)

/-- 0x4005 .04 and .05: a full scale is a dictionary job, since it reaches the banks (R64, R70, R120). -/
def scaleEff (q : Req) (b sub : Nat) (v : Int) : Eff where
  own s := needs (!(s.batch b).jobs.isEmpty || s.scaleFits b sub (fval (BitVec.ofNat 32 v.toNat))) abRange
  eff s := (s.cancelSwap b).job b q (.scale sub v.toNat)
  replies := false

def execBaseValuesWrite (t : Time) (q : Req) (b : Batch) (current : Bool) (v : F32) (s : State) : Host.Outcome State Fault Refusal :=
  .next ((s.begin t).hostWrite q (0x4005 + 0x20 * b) (if current then 5 else 4) 0 v.toNat (scaleEff q b (if current then 5 else 4) v.toNat))

end Sys2Proof.Machine
end

