-- ==== Sys2Proof/Machine/Chains.lean ====
section
/-! DEFINITION. Measurement chains (R31 to R46): configuration figures, filters, fast tap, resampler, tracker, detectors. -/

namespace Sys2Proof.Machine

/-! ### Entries of a chain -/

def ck (c sub : Nat) : Nat := key (0x5000 + c) sub
def State.setChain (c : Nat) (r : ChainRec) (s : State) : State := { s with meas := { s.meas with chains := Tbl.set c r s.meas.chains } }
def State.modChain (c : Nat) (f : ChainRec → ChainRec) (s : State) : State := s.setChain c (f (s.chainRec c))
def State.chainOn (c : Nat) (s : State) : Bool := s.rdB (ck c 1)

/-- Whether a chain is a sigma-delta chain (R31). -/
def isSd (c : Nat) : Bool := 48 ≤ c

/-- The core and pair that an input is wired to (R21). -/
def coreOfInput (c : Nat) : Nat := c % 16
def pairOfInput (c : Nat) : Nat := c % 16 / 2

/-- The input that slot `sl` of logical core k names, none where it names none (Table 02-9). -/
def State.slotInput (k sl : Nat) (s : State) : Option Nat :=
  let v := s.rdN (key (0x5098 + k / 2) (0x10 + 8 * (k % 2) + sl))
  if v < 3 then some (k + 16 * v) else none

/-- The regular slots in which chain c's core names its input (R23). -/
def State.slotsOfInput (c : Nat) (s : State) : List Nat :=
  (List.range (s.rdN (key (0x5098 + pairOfInput c) 3) - 1)).filter (fun sl => s.slotInput (coreOfInput c) sl == some c)

/-- The trigger rate of a pair in Hz; none where it is off or its time pulse output is not periodic (R39). -/
def State.trigRate (p : Nat) (s : State) : Option Rat :=
  let v := s.rdN (key (0x5098 + p) 1)
  if 1 ≤ v && v ≤ 0x20 then
    let u := s.cycleOf (v - 1)
    if u = 0 then none else some (400000000 / (u : Rat))
  else if v = 0x40 then
    let i := s.rdN (key (0x5098 + p) 2)
    if i = 0 then none else some (1000000000 / (i : Rat))
  else if 0x50 ≤ v && v ≤ 0x57 then
    if s.rdN (key (0x2320 + (v - 0x50)) 1) = 2 then some (12800000000 / ((s.rdN (key (0x2320 + (v - 0x50)) 4) : Nat) : Rat)) else none
  else none

/-- The modulator clock of a chain and its divider N (R31). -/
def State.clkN (c : Nat) (s : State) : Nat := s.rdN (key 0x5092 (1 + s.rdN (ck c 5)))

/-- The fast-tap rate of a chain (R39). -/
def State.tapRate (c : Nat) (s : State) : Option Rat :=
  if isSd c then some (400000000 / ((s.clkN c * s.rdN (ck c 4) : Nat) : Rat)) else s.trigRate (pairOfInput c)

/-- The resampler's input rate (R39). -/
def State.gridRate (c : Nat) (s : State) : Option Rat :=
  (s.tapRate c).map (fun f => if s.rdB (ck c 0xB) then f / 2 else f)

/-! ### Coefficient tables (R41) -/

/-- The table of the active bank; an empty bank is all zeros (DESIGN CHOICE, notes/assumptions/15). -/
def State.chainTab (c : Nat) (s : State) : List Byte := s.blob (key (0x8200 + c) 2)

/-- The FIR tap count; 1 for a bank never loaded. -/
def tapsOf (tab : List Byte) : Nat := let t := leAt 2 2 tab; if t = 3 || t = 5 then t else 1
def tabQ (tab : List Byte) (off : Nat) : Int := signed 16 (leAt off 2 tab)

/-- The checks of a written table: version, tap count, CRC (R41). -/
def tableOk (img : List Byte) : Bool :=
  leAt 0 2 img == 1 && [1, 3, 5].contains (leAt 2 2 img) && leAt 0x420 4 img == crc32 (img.take 0x420)

/-! ### Figures derived from the configuration -/

/-- Fast-tap latency before rounding with T compensation taps, in ns (Table 02-5). The interval term of a pair that is not triggered is 0
(DESIGN CHOICE, notes/assumptions/107). -/
def State.latencyWith (c t : Nat) (s : State) : Rat :=
  if isSd c then
    let k := s.rdN (ck c 3)
    let d := s.rdN (ck c 4)
    200 + (((k * (d - 1) : Nat) : Rat) / 2 + ((d * (t - 1) : Nat) : Rat) / 2) * ((s.clkN c * 5 : Nat) : Rat) / 2
  else
    let a := s.rdN (ck c 3)
    let iv : Rat := match s.trigRate (pairOfInput c) with
      | some f => if f = 0 then 0 else 1000000000 / f
      | none => 0
    100 * ((a + 1 : Nat) : Rat) + 100 + (((t - 1) / 2 : Nat) : Rat) * iv

/-- Fast-tap latency before rounding, in ns (Table 02-5). -/
def State.latencyNs (c : Nat) (s : State) : Rat := s.latencyWith c (tapsOf (s.chainTab c))

/-- The tap count of the inactive bank, which a pending swap brings. -/
def State.swapTaps (c : Nat) (s : State) : Nat := tapsOf (s.blob (key (0x8200 + c) 1))

/-- Whether the latency of chain c is at most 3,000 ns, as it stands and with a pending swap done (R37). -/
def State.latencyOk (c : Nat) (s : State) : Bool :=
  decide (s.latencyNs c ≤ 3000) && ((s.chainRec c).swapFor.isNone || decide (s.latencyWith c (s.swapTaps c) ≤ 3000))

/-- The latency rounded up to a whole multiple of 100 ns (R37). -/
def State.latency (c : Nat) (s : State) : Nat := 100 * (s.latencyNs c / 100).ceil.toNat

/-- Writes the figures of a chain that follow from its configuration: latency, skew, normalisation (R35, R37). The slot of an input that
several slots name, or none, is the model's choice (DESIGN CHOICE, notes/assumptions/107). -/
def State.syncChain (c : Nat) (s : State) : State :=
  let s := s.wr (ck c 0x12) (s.latency c)
  if isSd c then
    let n := (s.rdN (ck c 4)) ^ (s.rdN (ck c 3))
    let e := if n ≤ 1 then 0 else Nat.log2 (n - 1) + 1
    (s.wr (ck c 0x14) (roundRat (((2 ^ e * 32768 : Nat) : Rat) / (n : Rat)))).wr (ck c 0x15) e
  else
    let sl := ((s.slotsOfInput c).head?).getD 0
    s.wr (ck c 0x13) ((200 * sl + 100 * (s.rdN (ck c 3) - 1) : Nat))

/-- The module's instant, in fine steps, that a tap value of chain c represents, released or put out at instant t (R37, R38): the latency and
the phase delay before it. -/
def State.instantOf (c : Nat) (t : Rat) (s : State) : Rat :=
  let d : Rat := ((s.rdN (ck c 7) % 32768 : Nat) : Rat) / 256
  let per : Rat := match s.tapRate c with
    | some f => if f = 0 then 0 else 12800000000 / f
    | none => 0
  t - ((s.latency c : Nat) : Rat) * 64 / 5 - d * per

/-- The same in module time. -/
def State.represents (c : Nat) (t : Rat) (s : State) : Time := (roundRat (s.instantOf c t + ((s.clock.offset : Int) : Rat))).toNat

/-- The step σ of the resampler for a tracked frequency in Hz (R39). -/
def State.sigmaAt (c : Nat) (f : Rat) (s : State) : Option Rat :=
  (s.gridRate c).map (fun r =>
    if s.rdN (ck c 8) = 2 then r * 1000 / ((s.rdN (ck c 0xA) : Nat) : Rat) else r / ((s.rdN (ck c 9) : Nat) * f))

/-- The check of σ over every chain whose grid-locked mode is 1 or 2 (R39). -/
def State.sigmaOk (s : State) : Bool :=
  (List.range 80).all (fun c =>
    s.rdN (ck c 8) == 0 ||
    [45, 65].all (fun f => match s.sigmaAt c f with
      | none => true
      | some x => 1 ≤ x && x ≤ 25599 / 100))

/-! ### The tracker (R40) -/

/-- The chain whose tracker chain c follows. -/
def State.follows (c : Nat) (s : State) : Option Nat :=
  let f := s.rdN (ck c 0xC)
  if f < 80 then some f else none

/-- The chains that follow the tracker of chain k. -/
def State.followers (k : Nat) (s : State) : List Nat := (List.range 80).filter (fun c => s.rdN (ck c 0xC) == k)

/-- Whether chain k runs a tracker: a chain, itself or another, names it at .0C (R40). -/
def State.isTracker (k : Nat) (s : State) : Bool := (List.range 80).any (fun c => s.rdN (ck c 0xC) == k)

/-- The median of three counts. -/
def median3 (a b c : Nat) : Nat := max (min a b) (min (max a b) c)

/-- f_est of a tracker in Hz: nominal while lost, else the reciprocal of the median of the last three periods (R40). -/
def State.fEst (k : Nat) (s : State) : Rat :=
  let t := (s.chainRec k).tr
  match t.lost, t.periods with
  | false, [a, b, c] => 400000000 / ((median3 a b c : Nat) : Rat)
  | _, _ => ((s.rdN (ck k 0xD) : Nat) : Rat)

/-- f_est that chain c uses: of the tracker it follows, else its nominal frequency (R39). -/
def State.fOf (c : Nat) (s : State) : Rat :=
  match s.follows c with
  | some k => s.fEst k
  | none => ((s.rdN (ck c 0xD) : Nat) : Rat)

def State.setSfd (d : Nat) (r : SfdRec) (s : State) : State := { s with meas := { s.meas with sfds := Tbl.set d r s.meas.sfds } }

/-- The single-frequency detectors on chain c. -/
def State.sfdsOn (c : Nat) (s : State) : List Nat := (List.range 64).filter (fun d => s.rdN (key (0x5100 + d) 2) == c)

/-- The harmonic detectors on chain c are not valid while tracking is lost (R44). -/
def State.loseHarmonics (c : Nat) (s : State) : State :=
  s.each ((s.sfdsOn c).filter (fun d => s.rdN (key (0x5100 + d) 3) == 1 && s.rdB (key (0x5100 + d) 0xC))) (fun d s =>
    (s.setSfd d { (s.sfd d) with ok := false }).wr (key (0x5100 + d) 0xC) 0)

/-- Reports the tracked frequency and tracking lost on chain c: of the tracker it follows; nominal and not lost where it follows
none (R46). -/
def State.syncFollow (c : Nat) (s : State) : State :=
  let s := (s.wr (ck c 0xE) (roundRat (s.fOf c * 1000))).setBit (ck c 0x18) 3 (s.trackLost c)
  if s.trackLost c then s.loseHarmonics c else s

/-- Reports tracked frequency and tracking lost on the chains that follow tracker k (R46). -/
def State.syncTracker (k : Nat) (s : State) : State := s.each (s.followers k) State.syncFollow

/-- The frequency mask tests on the chains that follow tracker k, at an output for the instant tm (R285). -/
def State.maskTracker (k : Nat) (tm : Time) (s : State) : State :=
  s.each (s.followers k) (fun c s => s.maskFrequency c (s.fEst k) ((s.rdN (ck c 0xD) : Nat) : Rat) (!(s.trackerLost k)) tm)

/-- Tracking lost sets. -/
def State.loseTrack (k : Nat) (s : State) : State :=
  let s := (s.modChain k (fun r => { r with tr := { r.tr with lost := true, run := 0, periods := [] } })).syncTracker k
  s.maskTracker k 0

/-- The crossing instant in 2.5 ns counts: linear between the last sample below zero and the first at or above it. -/
def crossingAt (n p : Int × Time) : Nat :=
  let dt : Int := (p.2 : Int) - n.2
  let dv : Int := p.1 - n.1
  (roundRat (((n.2 : Int) + 0 : Rat) / 32 + (-(n.1) * dt : Int) / (32 * dv : Int))).toNat

/-- POSITIVE_GOING_CROSSING (R40): a new crossing at count `tc`. -/
def State.crossing (k tc : Nat) (s : State) : State :=
  let r := s.chainRec k
  let t := r.tr
  let s := s.setChain k { r with tr := { t with crossing := some tc } }
  match t.crossing with
  | none => s
  | some t0 =>
    let p := tc - t0
    let inRange := 400000000 ≤ 65 * p && 45 * p ≤ 400000000
    let near := match t.periods with
      | q :: _ => t.run = 0 || (95 * q ≤ 100 * p && 100 * p ≤ 105 * q)
      | [] => true
    if inRange && near then
      let run := t.run + 1
      let ps := (p :: (if t.lost && t.run = 0 then [] else t.periods)).take 3
      let lost := t.lost && run < 3
      let s := s.modChain k (fun r => { r with tr := { r.tr with run := min run 3, periods := ps, lost := lost, lastAcc := s.now, acc := r.tr.acc + 1, accepted := some tc } })
      let s := s.each (s.followers k) (fun c s => s.modChain c (fun r => { r with cross := some tc }))
      (s.syncTracker k).maskTracker k (s.represents k (s.now : Nat))
    else s.modChain k (fun r => { r with tr := { r.tr with run := 0 } })

/-- The tracker takes a delayed fast-tap value `x`. -/
def State.track (k : Nat) (x : Int) (s : State) : State :=
  let r := s.chainRec k
  let t := r.tr
  let t := if x < 0 then { t with lastNeg := some (x, s.now), firstPos := none }
    else if t.firstPos.isNone then { t with firstPos := some (x, s.now) } else t
  let t := if x ≤ -655 then { t with armed := true } else t
  if t.armed && 655 ≤ x then
    let s := s.setChain k { r with tr := { t with armed := false } }
    match t.lastNeg, t.firstPos with
    | some n, some p => s.crossing k (crossingAt n p)
    | _, _ => s
  else s.setChain k { r with tr := t }

/-! ### Detectors (R43) -/

/-- Every detector of chain c restarts and is not valid. -/
def State.restartDetectors (c : Nat) (s : State) : State :=
  let s := s.modChain c (fun r => { r with rmsWin := [], detNo := 0 })
  let s := ((s.wr (ck c 0x1D) 0).wr (ck c 0x1E) 0).wr (ck c 0x1F) 0
  (s.wr (ck c 0x20) 0)

/-- The RMS window W (R43). -/
def State.rmsW (c : Nat) (s : State) : Nat := let w := s.rdN (ck c 0x1A); if w = 0 then s.rdN (ck c 9) else w

/-- Exact division rounded half to even. -/
def rneDiv (a b : Nat) : Nat := (roundRat ((a : Rat) / (b : Rat))).toNat

/-- The RMS detector on a grid-locked output. A window of −32,768 alone has the RMS 32,768, which Q15 cannot hold: it reads 32,767 (DESIGN
CHOICE, notes/assumptions/107). -/
def State.rmsStep (c : Nat) (x : Int) (s : State) : State :=
  let w := s.rmsW c
  let l := (x :: (s.chainRec c).rmsWin).take w
  let s := s.modChain c (fun r => { r with rmsWin := l })
  let sum := (l.map (fun v => (v * v).toNat)).sum
  let rms := if w = 0 then 0 else min 32767 (roundSqrtRat ((rneDiv sum w : Nat) : Rat))
  (s.wr (ck c 0x1E) rms).setBit (ck c 0x20) 1 (w ≤ l.length)

/-- A detector of chain c (0 peak, 1 RMS, 2 envelope) for the triggers and the records (R277, R283). -/
def State.detectorOut (c i : Nat) (tm : Time) (s : State) : State :=
  let v := s.rd (ck c (0x1D + i))
  let sel := c + 256 * i
  (s.acqValue 3 sel v tm).source 3 sel (if s.bit (ck c 0x20) i then some v else none) tm

/-- The peak and envelope detectors on a fast-tap value. The magnitude of −32,768 is taken as 32,767, the largest Q15 value: R43 does
not say (DESIGN CHOICE, notes/assumptions/107). -/
def State.tapDetectors (c : Nat) (x : Int) (s : State) : State :=
  let n := (s.chainRec c).detNo + 1
  let s := s.modChain c (fun r => { r with detNo := min n 64 })
  let ax : Int := min 32767 x.natAbs
  let p := max ax (rne (s.rd (ck c 0x1D) * s.rd (ck c 0x19)) 15)
  let e := s.rd (ck c 0x1F)
  let k := if ax > e then s.rd (ck c 0x1B) else s.rd (ck c 0x1C)
  let s := (s.wr (ck c 0x1D) p).wr (ck c 0x1F) (e + rne ((ax - e) * k) 15)
  (s.setBit (ck c 0x20) 0 (64 ≤ n)).setBit (ck c 0x20) 2 (64 ≤ n)

/-! ### Loss (R45) -/

/-- Whether the chain's core is retired with no spare in its place. -/
def coreDflt (k : Nat) : CoreRec := { state := if k < 16 then .serving else .idle }
def State.core (k : Nat) (s : State) : CoreRec := Tbl.get (coreDflt k) k s.meas.cores
def State.setCore (k : Nat) (r : CoreRec) (s : State) : State := { s with meas := { s.meas with cores := Tbl.set k r s.meas.cores } }

/-- The physical core that is in service for logical core k. -/
def State.servingCore (k : Nat) (s : State) : Option Nat :=
  if (s.core k).state == .serving then some k
  else [16, 17].find? (fun j => (s.core j).state == .serving && (s.core j).serves == some k)

/-- The physical core that converts for logical core k: the one in service, or the retired one until the spare that is due takes over
at the next sequence boundary (R30). -/
def State.convertingCore (k : Nat) (s : State) : Option Nat :=
  match s.servingCore k with
  | some j => some j
  | none =>
    if [16, 17].any (fun j => (s.core j).due == some k) then
      ([16, 17].find? (fun j => (s.core j).state == .retired && (s.core j).serves == some k)).or (some k)
    else none

/-- The batches whose loaded recipe reads chain c. -/
def State.readers (c : Nat) (s : State) : List Nat :=
  allBatches.filter (fun b => ((s.recipe b).map (fun r => r.chains.contains c)).getD false)

/-- Whether time pulse output k is armed and has fired since (R45). -/
def State.tpoLive (k : Nat) (s : State) : Bool := s.bit (key (0x2320 + k) 9) 0 && Tbl.get false k s.clock.tpoFired

/-- Whether chain c reports loss now (R45). -/
def State.lossNow (c : Nat) (s : State) : Bool :=
  if isSd c then (s.chainRec c).lossSet
  else
    let v := s.rdN (key (0x5098 + pairOfInput c) 1)
    let read := !(s.readers c).isEmpty
    ((s.servingCore (coreOfInput c)).isNone && !([16, 17].any (fun j => (s.core j).due == some (coreOfInput c))))
    || (read && v == 0) || (read && 0x50 ≤ v && v ≤ 0x57 && !(s.tpoLive (v - 0x50)))

/-- Reports loss: a live bit; when it sets it is counted, tracking is lost and the detectors restart (R40, R43, R45). -/
def State.syncLoss (c : Nat) (s : State) : State :=
  let was := s.bit (ck c 0x18) 0
  let now_ := s.lossNow c
  let s := s.setBit (ck c 0x18) 0 now_
  if now_ && !was then
    -- the run of clean samples of R86 ends, with no sample to end it
    let s := { s with meas := { s.meas with clean := s.meas.clean.filter (fun e => e.1 % 128 ≠ c) } }
    let n := s.rdN (ck c 0x21)
    (((s.wr (ck c 0x21) (((n / 65536 + 1) % 65536) * 65536 + n % 65536 : Nat)).restartDetectors c).loseTrack c)
  else s

/-! ### Filters (R34 to R38) -/

/-- Marks a saturation of the chain in the sample just processed, and counts it; the status bit clears with the next sample that does not
saturate, as the overrange bit does with the next code off the rails: R33 and R46 only set them (DESIGN CHOICE, notes/assumptions/107). -/
def State.markSat (c : Nat) (v : Bool) (s : State) : State :=
  let n := s.rdN (ck c 0x21)
  let s := s.setBit (ck c 0x18) 1 v
  if v then s.wr (ck c 0x21) (n / 65536 * 65536 + (n + 1) % 65536 : Nat) else s

/-- Σ of products of coefficients and delay-line samples. -/
def dot (cs xs : List Int) : Int := (List.zipWith (· * ·) cs xs).sum

/-- Whether first-sample seeding fills the states of chain c (R42): the setting when it was enabled. -/
def State.seeds (c : Nat) (s : State) : Bool := (s.chainRec c).seeded

/-- Whether the n-th fast-tap value of chain c after its enable is valid (R42). The input samples are counted at the FIR's input rate, and
the term D × K is 0 for a SAR chain (DEDUCED, notes/assumptions/107). -/
def State.tapValid (c n : Nat) (s : State) : Bool :=
  s.seeds c ||
    decide ((if isSd c then s.rdN (ck c 4) * s.rdN (ck c 3) else 0) + tapsOf (s.chainTab c) + s.rdN (ck c 7) / 256 % 128 + 1 ≤ n)

/-- A chain takes one input sample `a` (after averaging or normalisation): FIR and phase delay, held until its latency has
passed (R36, R37, R38). `sat0` says whether the stage before saturated. -/
def State.chainInput (c : Nat) (a : Int) (sat0 : Bool) (s : State) : State :=
  let r := s.chainRec c
  let tab := s.chainTab c
  let t := tapsOf tab
  let cs := (List.range t).map (fun j => tabQ tab (4 + 2 * j))
  let seeded := s.seeds c
  let firstSeed := !r.started && seeded
  let fir := if firstSeed then List.replicate 5 a else (a :: r.fir).take 5
  let y0 := rne (dot cs fir) 15
  let y := sat16 y0
  let line := if firstSeed then List.replicate 66 y else (y :: r.line).take 66
  let d := s.rdN (ck c 7)
  let w := d / 256 % 128
  let f : Int := (d % 256 : Nat)
  let xw := line.getD w 0
  let v0 := xw + rne ((line.getD (w + 1) 0 - xw) * f) 8
  let v := sat16 v0
  let s := s.setChain c { r with started := true, fir := fir, line := line, held := r.held ++ [v] }
  s.markSat c (sat0 || y0 ≠ y || v0 ≠ v)

/-- The calibration of an ADC core before its narrowing, and the calibrated code (R34). -/
def State.calibration (k : Nat) (x : Int) (s : State) : Int := rne ((x + s.rd (key (0x5080 + k) 3)) * s.rd (key (0x5080 + k) 4)) 14
def State.calibrated (k : Nat) (x : Int) (s : State) : Int := sat16 (s.calibration k x)

/-- The average of chain c is given up (R34): the saturation of its calibrations stays marked (R33). -/
def State.dropAverage (c : Nat) (s : State) : State :=
  let r := s.chainRec c
  let s := if r.rawSat && !r.raw.isEmpty then s.markSat c true else s
  s.setChain c { r with raw := [], rawSat := false }

/-- A result of chain c's input in slot `sl`, converted by core k: averaging over A adjacent slots (R34). An average that is given up leaves
the saturation of its calibrations marked (R33). -/
def State.sarResult (c k sl : Nat) (x : Int) (s : State) : State :=
  if !(s.chainOn c) then s else
  let r := s.chainRec c
  let s := s.setBit (ck c 0x18) 2 (x = -32768 || x = 32767)
  let xc := s.calibrated k x
  let adjacent := !r.raw.isEmpty && r.rawSlot + 1 = sl
  let s := if !adjacent && r.rawSat then s.markSat c true else s
  let raw := if adjacent then r.raw ++ [xc] else [xc]
  let sat := xc ≠ s.calibration k x || (adjacent && r.rawSat)
  let a := s.rdN (ck c 3)
  if raw.length < a then s.setChain c { r with raw := raw, rawSlot := sl, rawSat := sat }
  else
    let s := s.setChain c { r with raw := [], rawSlot := sl, rawSat := false }
    let m := rne raw.sum (Nat.log2 a)
    s.chainInput c (sat16 m) (sat || m ≠ sat16 m)

/-- A moving sum of `d` elements over a list, oldest first. -/
def movSum (d : Nat) (l : List Int) : List Int := (List.range (l.length + 1 - d)).map (fun i => ((l.drop i).take d).sum)

/-- The sinc^K sum of the last K(D−1)+1 bits (R35). -/
def sincSum : Nat → Nat → List Int → Int
  | 0, _, l => l.getLast?.getD 0
  | k + 1, d, l => sincSum k d (movSum d l)

/-- The run of equal bits at the end of a bit string that follows a run of `n` bits `b`, its bit, and how many runs reached 256 bits in it. -/
def eqRun (n : Nat) (b : Bool) (l : List Bool) : Nat × Bool × Nat :=
  l.foldl (fun a x => if a.2.1 = x then (a.1 + 1, x, a.2.2 + b2n (a.1 == 255)) else (1, x, a.2.2)) (n, b, 0)

/-- Whether an instant may be a decimation instant of chain c (R32): while its clock is locked to batch b, it lies at a t0 of b plus
K(D−1)/2 + m·D clock periods, to a 2.5 ns count. Where N × D does not divide the control cycle of b, no such phase holds at every t0 and
any instant may be one (DESIGN CHOICE, notes/assumptions/107). -/
def State.decimationDue (c : Nat) (s : State) : Bool :=
  let l := s.rdN (key 0x5092 (5 + s.rdN (ck c 5)))
  let n := s.clkN c
  let d := s.rdN (ck c 4)
  let u := s.cycleOf (l - 1)
  if l = 0 || u = 0 || u % (n * d) ≠ 0 then true
  else ((2 * s.updatePhase (l - 1) + 64 * n * d * 3 - 32 * n * (s.rdN (ck c 3) * (d - 1))) % (64 * n * d)) < 64

/-- Whether the stream of chain c is stuck (R31): its loss and status bit 6. -/
def State.stuck (c : Nat) (v : Bool) (s : State) : State :=
  ((s.modChain c (fun r => { r with lossSet := v })).setBit (ck c 0x18) 6 v).syncLoss c

/-- The bits of a sigma-delta stream (R31): every 256 equal ones in a row are a loss; it ends when its cause has gone, whether the chain is
enabled or not. -/
def State.streamBits (c : Nat) (bits : List Bool) (s : State) : State :=
  let r := s.chainRec c
  let (n, b, hits) := eqRun r.eqRun r.lastBit bits
  let s := (s.setChain c { r with eqRun := n, lastBit := b }).setBit (ck c 0x18) 5 false
  (s.each (List.range hits) (fun _ s => (s.stuck c false).stuck c true)).stuck c (256 ≤ n)

/-- The chain's sinc sum at a decimation instant, normalised (R35). Before K(D−1)+1 bits have come the history is zeros, or the first bit
where the chain is seeded (R42). -/
def State.sinc (c : Nat) (bits : List Bool) (s : State) : State :=
  let r := s.chainRec c
  let k := s.rdN (ck c 3)
  let d := s.rdN (ck c 4)
  let len := k * (d - 1) + 1
  let all := r.bits ++ bits
  let keep := all.drop (all.length - len)
  let val (x : Bool) : Int := if x then 1 else -1
  let first : Int := if s.seeds c then (keep.head?.map val).getD 0 else 0
  let s := s.setChain c { r with bits := keep }
  let m := rne (sincSum k d (List.replicate (len - keep.length) first ++ keep.map val) * s.rd (ck c 0x14)) (s.rdN (ck c 0x15))
  s.chainInput c (sat16 m) (m ≠ sat16 m)

/-- DECIMATION_INSTANT (R31, R32, R35): the bits since the previous one. -/
def State.decimation (c : Nat) (bits : List Bool) (s : State) : State :=
  if !(isSd c && s.decimationDue c) then s
  else
    let s := s.streamBits c bits
    if s.chainOn c then s.sinc c bits else s

def execDecimationInstant (t : Time) (c : ChainNo) (bits : List Bool) (s : State) : Host.Outcome State Fault Refusal :=
  .next ((s.begin t).decimation c bits)

/-- SIGMA_DELTA_LOSS (R31, R45): the clock is absent, or 256 consecutive bits were equal, of which at most D have come since the latest
decimation instant. -/
def State.sdLoss (c : Nat) (clockAbsent : Bool) (s : State) : State :=
  let r := s.chainRec c
  if !(isSd c) then s
  else if clockAbsent then ((s.setChain c { r with lossSet := true }).setBit (ck c 0x18) 5 true).syncLoss c
  else if 256 ≤ r.eqRun + s.rdN (ck c 4) then (s.setChain c { r with eqRun := max 256 r.eqRun }).stuck c true
  else s

def execSigmaDeltaLoss (t : Time) (c : ChainNo) (clockAbsent : Bool) (s : State) : Host.Outcome State Fault Refusal :=
  .next ((s.begin t).sdLoss c clockAbsent)

/-! ### Single-frequency detectors (R44) -/

/-- atan(num/den) in units of 2⁻⁹⁶ rad, for 0 ≤ num ≤ den, by three halvings and a series. -/
def atanS (num den : Nat) : Nat :=
  let u : Nat := 2 ^ 96
  let t0 := num * u / den
  let half (t : Nat) : Nat := t * u / (u + isqrt (u * u + t * t))
  let t := half (half (half t0))
  let t2 := t * t / u
  let step (acc : Int × Nat) (i : Nat) : Int × Nat :=
    (acc.1 + (if i % 2 = 0 then 1 else -1) * ((acc.2 / (2 * i + 1) : Nat) : Int), acc.2 * t2 / u)
  (((List.range 24).foldl step (0, t)).1 * 8).toNat

/-- π in units of 2⁻⁹⁶. -/
def piS : Nat := 248902613312231085230521944622

/-- atan2 as an angle code (R7): the nearest 2⁻¹⁵ turn, wrapped. -/
def atan2Code (im re : Int) : Int :=
  let a := re.natAbs
  let b := im.natAbs
  let u : Nat := 2 ^ 96
  let frac (n d : Nat) : Nat := atanS n d * 16384 * u / piS
  let q := if b ≤ a then frac b a else 8192 * u - frac a b
  let q := if re < 0 then 16384 * u - q else q
  let k : Int := ((2 * q + u) / (2 * u) : Nat)
  wrapa (if im < 0 then -k else k)

/-- The step of θ per output (R44). -/
def State.sfdStep (d c : Nat) (s : State) : Nat :=
  let o := 0x5100 + d
  if s.rdN (key o 3) = 1 then 2 ^ 32 * s.rdN (key o 4) / max 1 (s.rdN (ck c 9))
  else (roundRat ((2 ^ 32 : Rat) * (s.rdN (key o 5) : Nat) / ((max 1 (s.rdN (ck c 0xA)) : Nat) : Rat))).toNat

/-- The window W: N_spc in harmonic mode. -/
def State.sfdW (d c : Nat) (s : State) : Nat := if s.rdN (key (0x5100 + d) 3) = 1 then s.rdN (ck c 9) else s.rdN (key (0x5100 + d) 6)

/-- Whether two detectors have identical mode, frequency and W (R44): in harmonic mode the order stands for the frequency. -/
def State.sfdSame (d p : Nat) (s : State) : Bool :=
  let o := 0x5100 + d
  let q := 0x5100 + p
  let f := if s.rdN (key o 3) = 1 then 4 else 5
  s.rdN (key o 3) == s.rdN (key q 3) && s.rdN (key o f) == s.rdN (key q f)
    && s.sfdW d (s.rdN (key o 2)) == s.sfdW p (s.rdN (key q 2))

/-- Ratio and phase to the partner, where it has identical mode, frequency and window (R44). While the partner differs or its amplitude
is 0, both keep their last values: R44 does not say (DESIGN CHOICE, notes/assumptions/107). -/
def State.sfdPartner (d : Nat) (s : State) : State :=
  let o := 0x5100 + d
  let p := s.rdN (key o 7)
  if p < 64 then
    let same := s.sfdSame d p
    let a := s.rd (key o 8)
    let pa := s.rd (key (0x5100 + p) 8)
    if same && 0 < pa then
      (s.wr (key o 0xA) (min (2 ^ 32 - 1) (roundRat ((a * 65536 : Int) / (pa : Int))))).wr (key o 0xB)
        (wrapa (s.rd (key o 9) - s.rd (key (0x5100 + p) 9)))
    else s
  else s

/-- A completed ripple pulse, or a step towards one (R136). -/
def State.rippleStep (b : Nat) (a : Int) (s : State) : State :=
  let r := s.batch b
  let p := r.ripple
  let present := s.rdB (bk 0x15 0x13 b)
  if !present then
    if s.rd (bk 0x15 0x11 b) ≤ a then
      let first := if p.highs = 0 then s.now else p.firstHigh
      if p.highs = 0 then s.setBatch b { r with ripple := { p with highs := 1, firstHigh := first, lows := 0 } }
      else (s.setBatch b { r with ripple := { p with highs := 0, start := first, lows := 0 } }).wr (bk 0x15 0x13 b) 1
    else s.setBatch b { r with ripple := { p with highs := 0 } }
  else
    if a < s.rd (bk 0x15 0x12 b) then
      if p.lows = 0 then s.setBatch b { r with ripple := { p with lows := 1, firstLow := s.now } }
      else
        let start := Time.toNs ((p.start : Int) + s.clock.offset).toNat
        let us := (p.firstLow - p.start) / 12800
        let s := (s.setBatch b { r with ripple := {} }).wr (bk 0x15 0x13 b) 0
        let s := ((s.wr (bk 0x15 0x14 b) start).wr (bk 0x15 0x15 b) us).inc (bk 0x15 0x16 b)
        s.logEvent 0x010A b (d64 start ++ d32 us)
    else s.setBatch b { r with ripple := { p with lows := 0 } }

/-- Whether detector d may run on its chain: in frequency mode the chain must be in fixed mode (R44); the detector of any other takes no
output and is not valid (DESIGN CHOICE, notes/assumptions/107). -/
def State.sfdRuns (d : Nat) (s : State) : Bool :=
  let o := 0x5100 + d
  s.rdB (key o 1) && (s.rdN (key o 3) == 1 || s.rdN (ck (s.rdN (key o 2)) 8) == 2)

/-- One grid-locked output `x` of chain c, put out at instant `tOut` (fine steps), on detector d: θ counts between the instants that the output
and the crossing represent. The ripple receiver takes the amplitude of a detector in frequency mode (R136). -/
def State.sfdOutput (d c : Nat) (x : Int) (tOut : Rat) (s : State) : State :=
  let o := 0x5100 + d
  if !(s.sfdRuns d && s.rdN (key o 2) == c) then s else
  let r := s.sfd d
  let harmonic := s.rdN (key o 3) == 1
  let th := match harmonic, (s.chainRec c).cross with
    | true, some tc =>
      let dt := s.instantOf c tOut - s.instantOf ((s.follows c).getD c) (32 * tc : Nat)
      (roundRat ((2 ^ 32 : Rat) * (s.rdN (key o 4) : Nat) * s.fOf c * dt / 12800000000) % 2 ^ 32).toNat
    | _, _ => r.theta
  let i := th / 2 ^ 22
  let pr := (rne (x * sinTab ((i + 256) % 1024)) 15, -(rne (x * sinTab i) 15))
  let w := s.sfdW d c
  let win := (pr :: r.win).take w
  let full := w ≤ win.length
  let re := (win.map (·.1)).sum
  let im := (win.map (·.2)).sum
  let mag := roundSqrtRat (((4 * (re * re + im * im) : Int) : Rat) / ((w * w : Nat) : Rat))
  let amp := sat16 mag
  let s := if amp ≠ mag then s.markSat c true else s
  let ph : Int := if re = 0 && im = 0 then wrapa (Config.zeroPhase d).toNat else atan2Code im re
  let ok := full && !(harmonic && s.trackLost c)
  let s := s.setSfd d { win := win, theta := (th + s.sfdStep d c) % 2 ^ 32, ok := ok }
  let s := ((s.wr (key o 8) amp).wr (key o 9) ph).wr (key o 0xC) (b2n ok)
  let s := s.sfdPartner d
  let s := s.source 4 d (if ok then some amp else none) (s.represents c tOut)
  if harmonic then s else s.each (allBatches.filter (fun b => s.rdN (bk 0x15 0x10 b) == d)) (fun b s => s.rippleStep b amp)

/-! ### The grid-locked tap (R39) -/

/-- GRID_LOCKED_OUTPUT: an output of the resampler updates the RMS and single-frequency detectors. -/
def State.gridOutput (c : Nat) (x : Int) (tOut : Rat) (s : State) : State :=
  let s := (s.wr (ck c 0x17) x).modChain c (fun r => { r with gridNo := r.gridNo + 1 })
  let tm := s.represents c tOut
  let s := (s.acqValue 2 c x tm).source 2 c (some x) tm
  let s := (s.rmsStep c x).detectorOut c 1 tm
  let s := s.maskVoltage c (s.rd (ck c 0x1E)) (s.bit (ck c 0x20) 1) tm
  let s := s.each (List.range 64) (fun d s => s.sfdOutput d c x tOut)
  s.modChain c (fun r => { r with cross := none })

/-- σ as it stands, Q8.24. -/
def State.sigma (c : Nat) (s : State) : Option Nat := (s.sigmaAt c (s.fOf c)).map (fun x => (roundRat (x * 2 ^ 24)).toNat)

/-- The outputs of the resampler that are due on the latest input sample: each lies σ, as it stands, after the one before it (R39, R40);
the first one at the first sample after the enable (DESIGN CHOICE, notes/assumptions/18). -/
def State.resample : Nat → Nat → State → State
  | 0, _, s => s
  | fuel + 1, c, s =>
    let r := s.chainRec c
    match s.sigma c, s.gridRate c with
    | some sg, some rate =>
      let p := if r.gridNo = 0 then r.gridP else r.gridP + sg
      let fl := p / 2 ^ 24
      let fr := (p % 2 ^ 24).toNat
      let k0 := (rne fr 19).toNat
      let n := if k0 = 32 then fl + 1 else fl
      let k := k0 % 32
      if 0 < n then s
      else
        let tab := s.chainTab c
        let y0 := rne (dot ((List.range 16).map (fun j => tabQ tab (0x20 + 2 * (16 * k + j)))) (r.gridLine.drop (-n).toNat)) 15
        let tOut : Rat := (s.now : Nat) + ((p : Int) : Rat) / 2 ^ 24 * 12800000000 / rate
        let s := s.setChain c { r with gridP := p }
        let s := if y0 ≠ sat16 y0 then s.markSat c true else s
        (s.gridOutput c (sat16 y0) tOut).resample fuel c
    | _, _ => s

/-- One input of the resampler. An output may lie up to a σ before the latest input, where σ has just fallen. -/
def State.gridInput (c : Nat) (x : Int) (s : State) : State :=
  let r := s.chainRec c
  let first := r.gridLine.isEmpty && s.seeds c
  let line := if first then List.replicate 272 x else (x :: r.gridLine).take 272
  let p := if r.gridLine.isEmpty then 0 else r.gridP - 2 ^ 24
  (s.setChain c { r with gridLine := line, gridP := p }).resample 256 c

/-- The half-band decimator, every second sample (R39). -/
def State.halfBand (c : Nat) (x : Int) (s : State) : State :=
  let r := s.chainRec c
  let first := r.half.isEmpty && s.seeds c
  let h := if first then List.replicate 31 x else (x :: r.half).take 31
  let s := s.setChain c { r with half := h, halfOdd := !r.halfOdd }
  if r.halfOdd then
    let tab := s.chainTab c
    let y0 := rne (16384 * h.getD 15 0
      + ((List.range 8).map (fun i => tabQ tab (0x10 + 2 * i) * (h.getD (14 - 2 * i) 0 + h.getD (16 + 2 * i) 0))).sum) 15
    let s := if y0 ≠ sat16 y0 then s.markSat c true else s
    s.gridInput c (sat16 y0)
  else s

/-- The grid-locked tap takes a delayed fast-tap value. -/
def State.gridTap (c : Nat) (x : Int) (s : State) : State :=
  if s.rdN (ck c 8) = 0 || (s.sigma c).isNone then s
  else if s.rdB (ck c 0xB) then s.halfBand c x else s.gridInput c x

/-! ### The fast tap (R37) and feedback supervision's windows (R85, R86) -/

/-- The batches whose recipe marks chain c as feedback: other, current or voltage (R85). -/
def State.marking (c : Nat) (s : State) : List Nat :=
  allBatches.filter (fun b => ((s.recipe b).map (fun r => [0, 1, 2].any (fun m => (r.marked m).contains c))).getD false)

/-- Whether the freeze window of batch b and chain c shows a freeze (R85). -/
def State.frozen (b c : Nat) (s : State) : Bool :=
  let n := s.rdN (bk 0x12 1 b)
  let w := Tbl.get [] (b * 128 + c) s.meas.freeze
  match w.getLast? with
  | none => false
  | some (v, armed) =>
    n ≤ w.length && armed && (w.foldl (fun m x => max m x.1) v) - (w.foldl (fun m x => min m x.1) v) ≤ 1

/-- Batch b's window on chain c takes a fast-tap sample; the run of clean samples follows. -/
def State.freezeStep (b c : Nat) (x : Int) (s : State) : State :=
  let n := s.rdN (bk 0x12 1 b)
  let above := s.bit (ck c 0x20) 1 && s.rd (bk 0x12 2 b) ≤ s.rd (ck c 0x1E)
  let w := ((x, above) :: Tbl.get [] (b * 128 + c) s.meas.freeze).take n
  let s := { s with meas := { s.meas with freeze := Tbl.set (b * 128 + c) w s.meas.freeze } }
  let ok := !(s.frozen b c) && !(s.bit (ck c 0x18) 0)
  let k := if ok then Tbl.get 0 (b * 128 + c) s.meas.clean + 1 else 0
  { s with meas := { s.meas with clean := Tbl.set (b * 128 + c) k s.meas.clean } }

/-- The values that the cycles of the batches reading chain c have latched (R13): the sample triggered at t0 is released at t0 + the skew
of a SAR chain + L (R37), and those before it are for earlier instants. -/
def State.latchTap (c : Nat) (x : Int) (s : State) : State :=
  let span := Time.ns (s.latency c + (if isSd c then 0 else s.rdN (ck c 0x13)))
  s.each (s.readers c) (fun b s =>
    match (s.batch b).cyc with
    | some y => if s.now ≤ y.t0 + span then s.modBatch b (fun r => { r with cyc := some { y with latch := Tbl.set c x y.latch } }) else s
    | none => s)

/-- Whether the crossings of chain c are observed: it runs a tracker, or is a bus chain whose phase sequence a Starter checks (R40, R160). -/
def State.watched (c : Nat) (s : State) : Bool := s.isTracker c || allBatches.any (fun b => s.rdN (bk 0xB 2 b) == c || s.rdN (bk 0xB 3 b) == c)

/-- A valid fast-tap value on everything that takes it: triggers, detectors, tracker, grid-locked tap, freeze windows. -/
def State.takeTap (c : Nat) (x : Int) (tm : Time) (s : State) : State :=
  let s := s.source 1 c (some x) tm
  let s := ((s.tapDetectors c x).detectorOut c 0 tm).detectorOut c 2 tm
  let s := if s.watched c then s.track c x else s
  let s := s.gridTap c x
  s.each (s.marking c) (fun b s => s.freezeStep b c x)

/-- FAST_TAP_OUTPUT (R37): the oldest held value is released; the records show it, and what takes fast-tap values takes it once they are
valid (R42). Also says whether a value was released. -/
def State.fastTap (c : Nat) (s : State) : State × Bool :=
  let r := s.chainRec c
  match s.chainOn c, r.held with
  | true, x :: rest =>
    let s := (s.setChain c { r with held := rest, tapNo := r.tapNo + 1 }).wr (ck c 0x16) x
    let tm := s.represents c (s.now : Nat)
    let s := (s.acqValue 1 c x tm).latchTap c x
    (if s.tapValid c (r.tapNo + 1) then s.takeTap c x tm else s, true)
  | _, _ => (s, false)

/-- TRACKING_LOST_TIMEOUT (R40): 44.4 ms without an accepted period. -/
def State.trackTimeout (c : Nat) (s : State) : State :=
  let t := (s.chainRec c).tr
  if s.isTracker c && !t.lost && t.lastAcc + Time.us 44400 ≤ s.now then s.loseTrack c else s

def execTrackingLostTimeout (t : Time) (c : ChainNo) (s : State) : Host.Outcome State Fault Refusal :=
  .next ((s.begin t).trackTimeout c)

/-! ### Host commands of a chain -/

/-- What a chain keeps when it is torn down: its coefficient banks with a pending swap, what the bitstream shows of loss (R31), and the count of
its accepted periods with the latest one's instant (R159). -/
def ChainRec.kept (r : ChainRec) : ChainRec :=
  { inactiveValid := r.inactiveValid, swapFor := r.swapFor, lossSet := r.lossSet, eqRun := r.eqRun, lastBit := r.lastBit
    tr := { acc := r.tr.acc, lastAcc := r.tr.lastAcc } }

/-- A chain is enabled or disabled (R42, R43, R40): filters and detectors start anew, the single-frequency ones on its tap included (Table
02-7 .01; DEDUCED, notes/assumptions/107). -/
def State.chainEnable (c : Nat) (v : Int) (s : State) : State :=
  let r := s.chainRec c
  let s := (s.wr (ck c 1) v).setChain c { r.kept with seeded := s.rdB (ck c 0x11) }
  let s := (s.restartDetectors c).syncChain c
  let s := s.each (s.sfdsOn c) (fun d s => (s.setSfd d {}).wr (key (0x5100 + d) 0xC) 0)
  let s := { s with meas := { s.meas with
    freeze := s.meas.freeze.filter (fun e => e.1 % 128 ≠ c), clean := s.meas.clean.filter (fun e => e.1 % 128 ≠ c) } }
  ((s.loseTrack c).syncFollow c).syncLoss c

def enableEff (c : Nat) (v : Int) : Eff := { eff := State.chainEnable c v }

def execChainEnable (t : Time) (q : Req) (c : ChainNo) (s : State) : Host.Outcome State Fault Refusal :=
  .next ((s.begin t).hostWrite q (0x5000 + c) 1 0 1 (enableEff c 1))

/-- 0x8200 + c .01 (R41): a good table loads the inactive bank and cancels a pending swap; a bad one marks it invalid. -/
def State.bankWrite (c : Nat) (img : List Byte) (s : State) : State :=
  let r := s.chainRec c
  let s := s.setBit (ck c 0x18) 8 false
  if tableOk img then
    (((s.setChain c { r with inactiveValid := true, swapFor := none }).wrBlob (key (0x8200 + c) 1) img).setBit (ck c 0x18) 7 true).answer 0
  else
    (((s.setChain c { r with inactiveValid := false, swapFor := none }).wrBlob (key (0x8200 + c) 1) []).setBit (ck c 0x18) 7 false).answer
      0x0B000021

def bankWriteEff (c : Nat) (img : List Byte) : Eff :=
  { own := fun _ => needs (img.length == 1060) abLength, eff := State.bankWrite c img, replies := false }

def execChainBankWrite (t : Time) (q : Req) (c : ChainNo) (img : List Byte) (s : State) : Host.Outcome State Fault Refusal :=
  .next ((s.begin t).hostBlob q (0x8200 + c) 1 img (bankWriteEff c img))

/-- 0x5000 + c .10 (R41): a swap at the next sample (0) or at the next t0 of batch v − 1; refused where it would take the latency above
3,000 ns (R37; the code is notes/assumptions/91). -/
def chainSwapEff (c v : Nat) : Eff where
  own s := firstFail [needs (s.chainRec c).inactiveValid 0x0B000022, needs (decide (s.latencyWith c (s.swapTaps c) ≤ 3000)) abRange]
  eff s := (s.modChain c (fun r => { r with swapFor := some v })).setBit (ck c 0x18) 8 true

def execChainSwapRequest (t : Time) (q : Req) (c : ChainNo) (v : Nat) (s : State) : Host.Outcome State Fault Refusal :=
  .next ((s.begin t).hostWrite q (0x5000 + c) 0x10 0 v (chainSwapEff c v))

/-- 0x5000 + c .1A (R43): the RMS detector restarts with its new window. -/
def State.windowWrite (c w : Nat) (s : State) : State :=
  let s := (s.wr (ck c 0x1A) w).modChain c (fun r => { r with rmsWin := [] })
  (s.wr (ck c 0x1E) 0).setBit (ck c 0x20) 1 false

def windowEff (c w : Nat) : Eff := { eff := State.windowWrite c w }

def execDetectorWindowWrite (t : Time) (q : Req) (c : ChainNo) (w : Nat) (s : State) : Host.Outcome State Fault Refusal :=
  .next ((s.begin t).hostWrite q (0x5000 + c) 0x1A 0 w (windowEff c w))

end Sys2Proof.Machine
end

