-- ==== Sys2Proof/Machine/Pairs.lean ====
section
/-! DEFINITION. SAR cores, pairs, plausibility and test DACs (R21 to R30, R47 to R49). -/

namespace Sys2Proof.Machine

def pk (p sub : Nat) : Nat := key (0x5098 + p) sub
def State.pair (p : Nat) (s : State) : PairRec := Tbl.get {} p s.meas.pairs
def State.setPair (p : Nat) (r : PairRec) (s : State) : State := { s with meas := { s.meas with pairs := Tbl.set p r s.meas.pairs } }

def State.modPair (p : Nat) (f : PairRec → PairRec) (s : State) : State := s.setPair p (f (s.pair p))

/-- The chains that a pair's six inputs feed. -/
def pairChains (p : Nat) : List Nat := [2 * p, 2 * p + 1, 2 * p + 16, 2 * p + 17, 2 * p + 32, 2 * p + 33]

/-- The code of a core state (Table 02-8). -/
def SpareState.coreCode : SpareState → Nat
  | .serving => 0
  | .idle => 1
  | .shadowing => 2
  | .underTest => 3
  | .retired => 4

/-- Reports a core's state and what it serves (Table 02-8). -/
def State.syncCore (k : Nat) (s : State) : State :=
  let r := s.core k
  let sv := if k < 16 then (if r.state == .serving then k else 0xFF) else if r.state == .retired then 0xFF else r.serves.getD 0xFF
  (s.wr (key (0x5080 + k) 1) r.state.coreCode).wr (key (0x5080 + k) 2) sv

/-- Whether a core of the pair is retired with no spare in its place. -/
def State.unserved (p : Nat) (s : State) : Bool := (s.servingCore (2 * p)).isNone || (s.servingCore (2 * p + 1)).isNone

/-- Whether a pair's plausibility results are invalid (R28). -/
def State.resultsInvalid (p : Nat) (s : State) : Bool := s.rdN (pk p 1) == 0 || s.bit (pk p 8) 1 || s.bit (pk p 8) 2 || s.unserved p

/-- The results-invalid bit of a pair (R28). -/
def State.syncPair (p : Nat) (s : State) : State := s.setBit (pk p 8) 3 (s.resultsInvalid p)

/-- Sets or clears the suspect bit of chains. -/
def State.suspect (l : List Nat) (v : Bool) (s : State) : State := s.each l (fun c s => s.setBit (ck c 0x18) 4 v)

/-- A new result in slot `sl` of physical core k (R25): fresh, and an overrun where the last one was not read. -/
def State.storeResult (k sl : Nat) (x : Int) (s : State) : State :=
  let f := key (0x5080 + k) 0x18
  let s := if s.bit f sl then (s.setBit f (8 + sl) true).inc (key (0x5080 + k) 5) else s
  (s.wr (key (0x5080 + k) (0x10 + sl)) x).setBit f sl true

/-- A read of a slot result clears its fresh bit (R25). Its overrun flag stays set: R25 gives it no end (DESIGN CHOICE,
notes/assumptions/107). -/
def State.readResult (k sl : Nat) (s : State) : State := s.setBit (key (0x5080 + k) 0x18) sl false

/-- A read of entry `index.sub` through the dictionary: that of a slot result counts as read (R25). -/
def State.noteRead (index sub : Nat) (s : State) : State :=
  if 0x5080 ≤ index && index < 0x5092 && 0x10 ≤ sub && sub ≤ 0x17 then s.readResult (index - 0x5080) (sub - 0x10) else s

/-- Logical core k's code x in slot `sl`: the converting core's register and a shadowing spare's. -/
def State.coreResult (k sl : Nat) (x : Int) (s : State) : State :=
  match s.convertingCore k with
  | none => s
  | some j =>
    let s := s.storeResult j sl x
    match [16, 17].find? (fun i => (s.core i).state == .shadowing && (s.core i).serves == some k) with
    | some i => s.storeResult i sl x
    | none => s

/-- A regular slot of logical core k (R23): where it names an input, its result is stored and goes to the chain of that input. -/
def State.regularSlot (k sl : Nat) (x : Int) (s : State) : State :=
  match s.slotInput k sl, s.convertingCore k with
  | some c, some j => (s.coreResult k sl x).sarResult c j sl x
  | _, _ => s

/-! ### Retirement of cores (R30) -/

/-- The chains that logical core k feeds. -/
def coreChains (k : Nat) : List Nat := [k, k + 16, k + 32]

/-- A spare takes over from core k at a sequence boundary (R30). -/
def State.takeOver (k : Nat) (s : State) : State :=
  match [16, 17].find? (fun j => (s.core j).due == some k) with
  | none => s
  | some j =>
    let s := s.each ([16, 17].filter (fun i => (s.core i).state == .retired && (s.core i).serves == some k)) (fun i s =>
      (s.setCore i { (s.core i) with serves := none }).syncCore i)
    let s := (s.setCore j { state := .serving, serves := some k }).syncCore j
    let s := (s.logEvent 0x0501 k (d8 k ++ d8 j)).suspect (coreChains k) false
    let s := s.each (coreChains k) State.syncLoss
    s.syncPair (k / 2)

/-- Spare cores that have not replaced one and are not to: one that serves while another core is under test has not. -/
def State.sparesLeft (s : State) : Nat :=
  let lent (j : Nat) : Bool := (s.core j).state == .serving && (match (s.core j).serves with
    | some k => (s.core k).state == .underTest
    | none => false)
  ([16, 17].filter (fun j => ((s.core j).state == .idle || (s.core j).state == .shadowing || (s.core j).state == .underTest || lent j)
    && (s.core j).due.isNone)).length

/-- Core k is retired (R27, R30): a spare that shadows it, else an idle one, is to take over at the next sequence boundary, and until then
the samples of the retired core carry the suspect bit unless a spare shadowed it; with no spare its chains report loss. Of two idle
spares core 16 takes over: R30 does not say (DESIGN CHOICE, notes/assumptions/107). -/
def State.retireCore (k cause : Nat) (s : State) : State :=
  match s.servingCore k with
  | none => s
  | some phys =>
    let s := (s.setCore phys { state := .retired, serves := if 16 ≤ phys then some k else none }).syncCore phys
    let s := s.retireRecord 3 phys cause
    let shadow := [16, 17].find? (fun j => (s.core j).state == .shadowing && (s.core j).serves == some k)
    let idle := [16, 17].find? (fun j => ((s.core j).state == .idle || (s.core j).state == .shadowing) && (s.core j).due.isNone)
    match shadow.or idle with
    | some j =>
      let s := (s.setCore j { (s.core j) with serves := some k, due := some k }).syncCore j
      let s := if shadow.isSome then s else s.suspect (coreChains k) true
      let s := s.reserveLeft 3 s.sparesLeft
      if !(s.pair (k / 2)).running && shadow.isSome then s.takeOver k else s
    | none =>
      let s := s.logEvent 0x0501 k (d8 k ++ d8 0xFF)
      let s := s.reserveLeft 3 s.sparesLeft
      (s.each (coreChains k) State.syncLoss).syncPair (k / 2)

/-! ### Background tests of cores (R30) -/

/-- The spare that shadows core k, or serves in its place while it is under test. -/
def State.coreShadow (k : Nat) (s : State) : Option Nat :=
  [16, 17].find? (fun j => (s.core j).serves == some k && ((s.core j).state == .shadowing ||
    ((s.core j).state == .serving && (s.core k).state == .underTest)))

/-- The core to be shadowed next: the first from the one in turn on that is in service and whose pair converts. -/
def State.coreInTurn (s : State) : Option Nat :=
  ((List.range 16).map (fun i => (s.meas.coreRot + i) % 16)).find? (fun k => (s.core k).state == .serving && s.rdN (pk (k / 2) 1) != 0)

/-- A spare begins to shadow core k, where it is in turn, no spare is in use and one is idle. One core is shadowed at a time; of two idle
spares core 16 shadows (DESIGN CHOICE, notes/assumptions/107). -/
def State.startCoreShadow (k : Nat) (s : State) : State :=
  let busy := (List.range 18).any (fun i => (s.core i).state == .shadowing || (s.core i).state == .underTest)
  match [16, 17].find? (fun j => (s.core j).state == .idle && (s.core j).due.isNone) with
  | some j => if !busy && s.coreInTurn == some k then (s.setCore j { state := .shadowing, serves := some k, since := s.now }).syncCore j else s
  | none => s

/-- After 1 s of shadowing core k is taken out of service for its test; the spare serves in its place. -/
def State.startCoreTest (k : Nat) (s : State) : State :=
  match s.coreShadow k with
  | some j =>
    if (s.core j).state == .shadowing && (s.core k).state == .serving && decide ((s.core j).since + Time.sec 1 ≤ s.now) then
      ((s.setCore j { (s.core j) with state := .serving }).setCore k { state := .underTest }).syncCore j |>.syncCore k
    else s
  | none => s

/-- A core that has passed its test returns to service, and its spare is idle again. -/
def State.endCoreTest (k : Nat) (s : State) : State :=
  if (s.core k).state == .underTest && (s.core k).passed then
    let s := match s.coreShadow k with
      | some j => (s.setCore j { state := .idle }).syncCore j
      | none => s
    let s := (s.setCore k { state := .serving }).syncCore k
    (s.each (coreChains k) State.syncLoss).syncPair (k / 2)
  else s

/-- A sequence boundary of pair p (R30): spares that are due take over, tested cores return, background testing goes on. -/
def State.sequenceBoundary (p : Nat) (s : State) : State :=
  s.each [2 * p, 2 * p + 1] (fun k s => ((((s.takeOver k).endCoreTest k).startCoreTest k).startCoreShadow k))

/-- CORE_SPARE_TAKEOVER (R30): at a sequence boundary of the pair. -/
def State.spareTakeover (k : Nat) (s : State) : State := if (s.pair (k / 2)).running then s else s.takeOver k

def execCoreSpareTakeover (t : Time) (k : CoreNo) (s : State) : Host.Outcome State Fault Refusal := .next ((s.begin t).spareTakeover k)

/-- CORE_BACKGROUND_TEST (R30): the core under test has converted its test DAC at 16 codes. A pass refreshes its calibration, whose
values the spec leaves open, and it returns to service at the next sequence boundary; a failure retires it, and the spare that
shadowed it remains in its place. -/
def State.coreTest (k : Nat) (pass : Bool) (s : State) : State :=
  if 16 ≤ k then s else
  let s := if (s.pair (k / 2)).running then s else s.startCoreTest k
  match (s.core k).state, (s.core k).passed, s.coreShadow k with
  | .underTest, false, some j =>
    let s := { s with meas := { s.meas with coreRot := (k + 1) % 16 } }
    if pass then
      let (n, s) := s.draw
      let s := (s.wr (key (0x5080 + k) 3) (signed 16 (Config.coreOffset n).toNat)).wr (key (0x5080 + k) 4) (Config.coreGain n).toNat
      let s := s.setCore k { state := .underTest, passed := true }
      if (s.pair (k / 2)).running then s else s.endCoreTest k
    else
      let s := ((s.setCore k { state := .retired }).syncCore k).retireRecord 3 k 1
      let s := s.logEvent 0x0501 k (d8 k ++ d8 j)
      (s.reserveLeft 3 s.sparesLeft).syncPair (k / 2)
  | _, _, _ => s

def execCoreBackgroundTest (t : Time) (k : CoreNo) (pass : Bool) (s : State) : Host.Outcome State Fault Refusal :=
  .next ((s.begin t).coreTest k pass)

/-! ### Test DACs and the codes that the cores convert (R29) -/

/-- Whether a test DAC may be used: in Configuration, or while no enabled batch reads a chain of the pair. -/
def State.dacFree (p : Nat) (s : State) : Bool :=
  s.mod == .configuration || (pairChains p).all (fun c => (s.readers c).all (fun b => !(s.benabled b)))

/-- The code of test DAC p while it is injected: from its write until code 2,048 is written, and while its use is permitted. R29 gives
injection no end (DESIGN CHOICE, notes/assumptions/107). -/
def State.injected (p : Nat) (s : State) : Option Nat := if s.dacFree p then (s.pair p).inject else none

/-- The code that a core of pair p converts from input c, where the converter brings `x`: during injection the target input reads
16 × (c − 2,048) and its external input is disconnected. -/
def State.inputCode (p : Nat) (c : Option Nat) (x : Int) (s : State) : Int :=
  match s.injected p, c with
  | some v, some c => if s.rdN (key (0x50A0 + p) 1) = c then 16 * ((v : Int) - 2048) else x
  | _, _ => x

/-! ### Plausibility (R26 to R28) -/

/-- The outcome of an arbitration (R27); its codes 1 to 3 follow the rows of Table 02-3 (DESIGN CHOICE, notes/assumptions/19). Where both
cores fail and one spare is free, core 2p gets it, and the pair's fault bit clears with an arbitration that retires a core: R27 does not say
(DESIGN CHOICE, notes/assumptions/107). -/
def State.arbitrate (p : Nat) (rd : List Int) (s : State) : State :=
  let dev (i : Nat) (want : Int) : Bool := 164 < (rd.getD i 0 - want).natAbs
  let f0 := dev 0 (-16384) || dev 2 16384
  let f1 := dev 1 (-16384) || dev 3 16384
  let out := if f0 && f1 then 3 else if f0 || f1 then 1 else 2
  let s := s.setPair p { (s.pair p) with arbPhase := 0, readings := [], missRun := 0 }
  let s := s.setBit (pk p 8) 1 false
  let s := s.logEvent 0x0500 p (d8 out ++ rd.flatMap (fun x => d16 (unsigned 16 x)))
  let s := s.suspect (pairChains p) false
  let s :=
    if out = 2 then s.setBit (pk p 8) 2 true
    else
      let s := if f0 then s.retireCore (2 * p) 7 else s
      let s := if f1 then s.retireCore (2 * p + 1) 7 else s
      s.setBit (pk p 8) 0 false
  s.syncPair p

/-- The plausibility slot of a pair (R26, R27), with the two cores' codes. The saturated difference and a pair with a core that does not
convert are the model's choices (DESIGN CHOICE, notes/assumptions/107). -/
def State.plausibility (p : Nat) (x0 x1 : Int) (s : State) : State :=
  match s.convertingCore (2 * p), s.convertingCore (2 * p + 1) with
  | some j0, some j1 =>
    let y0 := s.calibrated j0 x0
    let y1 := s.calibrated j1 x1
    let r := s.pair p
    if 0 < r.arbPhase then
      let rd := r.readings ++ [y0, y1]
      if r.arbPhase = 1 then s.setPair p { r with arbPhase := 2, readings := rd } else s.arbitrate p rd
    else if s.bit (pk p 8) 2 then s
    else
      let d := y0 - y1
      let miss := s.rdN (pk p 5) < d.natAbs
      let run := if miss then r.missRun + 1 else 0
      let r := { r with sq := (r.sq.1 + (y0 * y0).toNat, r.sq.2 + (y1 * y1).toNat), sqN := r.sqN + 1 }
      let s := (s.setPair p { r with missRun := run, codes := (y0, y1), miss := miss, codesAt := s.now }).wr (pk p 7) (sat16 d)
      if s.rdN (pk p 6) ≤ run then
        let s := s.setPair p { (s.pair p) with missRun := 0, arbPhase := 1, readings := [] }
        let s := ((s.setBit (pk p 8) 0 true).setBit (pk p 8) 1 true).inc (pk p 0xB)
        (s.suspect (pairChains p) true).syncPair p
      else s
  | _, _ => s

/-- SAR_SLOT (R23): the results of the slot that ends are stored, and the sequence advances or ends. -/
def State.sarSlot (p : Nat) (x0 x1 : Int) (s : State) : State :=
  let r := s.pair p
  if !r.running then s else
  let last := s.rdN (pk p 3) - 1
  let sl := r.slot
  if sl < last then
    let s := s.regularSlot (2 * p) sl (s.inputCode p (s.slotInput (2 * p) sl) x0)
    let s := s.regularSlot (2 * p + 1) sl (s.inputCode p (s.slotInput (2 * p + 1) sl) x1)
    s.setPair p { (s.pair p) with slot := sl + 1 }
  else
    let shared := if 0 < r.arbPhase then none else some (s.rdN (pk p 4))
    let y0 := s.inputCode p shared x0
    let y1 := s.inputCode p shared x1
    let s := ((s.coreResult (2 * p) sl y0).coreResult (2 * p + 1) sl y1).plausibility p y0 y1
    let r := s.pair p
    (s.setPair p { r with slot := 0, running := r.pending, pending := false }).sequenceBoundary p

def execSarSlot (t : Time) (p : PairNo) (x0 x1 : Code) (s : State) : Host.Outcome State Fault Refusal :=
  .next ((s.begin t).sarSlot p x0.toInt x1.toInt)

/-- Whether the pair's trigger source triggers it in this 2.5 ns count (R23): an update point of the batch, a TAI multiple of the periodic
interval, a firing of the time pulse output. -/
def State.triggerNow (p : Nat) (s : State) : Bool :=
  let v := s.rdN (pk p 1)
  if 1 ≤ v && v ≤ 0x20 then s.atUpdate (v - 1)
  else if v = 0x40 then
    let i := 64 * s.rdN (pk p 2)
    let n := 160 * (s.modTime / 32)
    i != 0 && decide ((n + i - 1) / i * i < n + 160)
  else if 0x50 ≤ v && v ≤ 0x57 then
    let o := 0x2320 + (v - 0x50)
    let r : TpoRec := Tbl.get {} (v - 0x50) s.clock.tpos
    r.lastAt == some s.now ||
      (s.bit (key o 9) 0 && (32 * s.rdN (key o 2) + s.rdN (key o 3) + r.next * s.rdN (key o 4)) / 32 == s.modTime / 32)
  else false

/-- PAIR_TRIGGER (R23, R24): a trigger of the pair's source starts the sequence, is held pending while one runs, or is dropped and
counted. -/
def State.pairTrigger (p : Nat) (s : State) : State :=
  let r := s.pair p
  if !(s.triggerNow p) then s
  else
    let s := if !r.running then (s.sequenceBoundary p).modPair p (fun r => { r with running := true, slot := 0 })
      else if !r.pending then s.setPair p { r with pending := true }
      else s.inc (pk p 0xA)
    s.each (pairChains p) State.syncLoss

def execPairTrigger (t : Time) (p : PairNo) (s : State) : Host.Outcome State Fault Refusal := .next ((s.begin t).pairTrigger p)

/-- SLOT_RESULT_READ (R25): the answer carries the result; the read clears the slot's fresh bit. -/
def State.slotResultRead (k i : Nat) (s : State) : State :=
  (s.readResult k i).emit (.reply 0 0 (d16 (unsigned 16 (s.rd (key (0x5080 + k) (0x10 + i))))))

def execSlotResultRead (t : Time) (q : Req) (k : CoreNo) (i : Fin 8) (s : State) : Host.Outcome State Fault Refusal :=
  .next ((s.begin t).hostGet q (State.slotResultRead k i))

/-! ### Test DACs (R29) -/

/-- 0x50A0 + p .02. -/
def dacEff (p : Nat) (v : Int) : Eff where
  own s := needs (s.dacFree p) abBusy
  eff s := (s.wr (key (0x50A0 + p) 2) v).setPair p { (s.pair p) with inject := if v = 2048 then none else some v.toNat }

def execTestDacInject (t : Time) (q : Req) (p : PairNo) (code : Nat) (s : State) : Host.Outcome State Fault Refusal :=
  .next ((s.begin t).hostWrite q (0x50A0 + p) 2 0 code (dacEff p code))

/-- The result code of a path test (Table 02-4): open, stuck, offset, gain, in this order (DESIGN CHOICE,
notes/assumptions/20). -/
def pathResult (r0 r1 : Int) : Nat :=
  let rail (x : Int) : Bool := x == -32768 || x == 32767
  if rail r0 || rail r1 then 5
  else if r0 = r1 then 4
  else if 2 * 164 < (r0 + r1).natAbs then 2
  else if 328 < (r1 - r0 - 32768).natAbs then 3
  else 1

/-- 0x50A0 + p .03: the readings at codes 1,024 and 3,072. -/
def pathEff (p : Nat) (r0 r1 : Int) : Eff where
  eff s :=
    if s.dacFree p then
      (((s.wr (key (0x50A0 + p) 5 1) r0).wr (key (0x50A0 + p) 5 2) r1).wr (key (0x50A0 + p) 4) (pathResult r0 r1)).answer 0
    else (s.wr (key (0x50A0 + p) 4) 6).answer abBusy
  replies := false

def execPathTest (t : Time) (q : Req) (p : PairNo) (r0 r1 : Code) (s : State) : Host.Outcome State Fault Refusal :=
  .next ((s.begin t).hostWrite q (0x50A0 + p) 3 0 1 (pathEff p r0.toInt r1.toInt))

/-- A suspension of plausibility ends: the host has selected another shared channel (R27). The fault bit stays until it is cleared: Table
02-9 gives it no other end (DESIGN CHOICE, notes/assumptions/107). -/
def State.endSuspension (p : Nat) (s : State) : State :=
  ((s.setBit (pk p 8) 2 false).modPair p (fun r => { r with missRun := 0 })).syncPair p

/-- Plausibility resumes: the host has cleared the fault (R27). -/
def State.resumePlausibility (p : Nat) (s : State) : State :=
  ((s.setBit (pk p 8) 0 false).setBit (pk p 8) 2 false).setPair p { (s.pair p) with missRun := 0 } |>.syncPair p

def clearFaultEff (p : Nat) : Eff := { eff := State.resumePlausibility p }

def execClearFault (t : Time) (q : Req) (p : PairNo) (s : State) : Host.Outcome State Fault Refusal :=
  .next ((s.begin t).hostWrite q (0x5098 + p) 9 0 1 (clearFaultEff p))

/-! ### What a recipe may read (R23, R32, R37) -/

/-- Whether the configuration of a pair's trigger is an update point of batch b at every t0 of b (R23). -/
def State.triggerOk (b p : Nat) (s : State) : Bool :=
  let v := s.rdN (pk p 1)
  let u := s.cycleOf b
  let mode0 (j : Nat) : Bool := s.rdN (bk 4 4 j) == 0
  if v = b + 1 then true
  else if 1 ≤ v && v ≤ 0x20 then
    let uj := s.cycleOf (v - 1)
    mode0 b && mode0 (v - 1) && uj != 0 && u % uj == 0
  else if v = 0x40 then
    let i := s.rdN (pk p 2)
    mode0 b && i != 0 && (5 * u) % (2 * i) == 0
  else if 0x50 ≤ v && v ≤ 0x57 then
    let o := 0x2320 + (v - 0x50)
    let per := s.rdN (key o 4)
    s.rdN (key o 1) == 2 && s.rdN (key o 7) == 0 && per != 0 && (32 * u) % per == 0
    && mode0 b && u != 0 && s.rdN (key o 3) == 0 && s.rdN (key o 2) % u == 0
  else false

/-- Whether two batches have identical update points. -/
def State.sameUpdates (a b : Nat) (s : State) : Bool :=
  a == b || (s.rdN (bk 4 4 a) == 0 && s.rdN (bk 4 4 b) == 0 && s.cycleOf a == s.cycleOf b)

/-- Whether batch b may read chain c (R23, R32, R37). -/
def State.chainOk (b c : Nat) (s : State) : Bool :=
  if isSd c then
    let m := s.rdN (ck c 5)
    let lk := s.rdN (key 0x5092 (5 + m))
    1 ≤ lk && s.sameUpdates (lk - 1) b
    && s.cycleOf b % (s.clkN c * s.rdN (ck c 4)) == 0 && s.latencyOk c
  else s.triggerOk b (pairOfInput c) && s.latencyOk c

/-- Whether every loaded recipe may still read its SAR chains (R23). -/
def State.triggersOk (s : State) : Bool :=
  allBatches.all (fun b => match s.recipe b with
    | none => true
    | some r => r.chains.all (fun c => isSd c || s.triggerOk b (pairOfInput c)))

end Sys2Proof.Machine
end

