-- ==== Sys2Proof/Machine/RecipeLoad.lean ====
section
/-! DEFINITION. Loading, verifying, committing and unloading recipes (R94 to R105), enabling batches (R55, R105, R132, R213,
R305, R308), and the timeline figures of a batch (R13, R15). -/

namespace Sys2Proof.Machine

/-! ### Timeline figures (Table 01-4) -/

def chk (c sub : Nat) : Nat := key (0x3000 + c) sub
def ndk (n sub : Nat) : Nat := key (0x3400 + n) sub

/-- The nodes that batch b's member channels are routed to (R187). -/
def State.routedNodes (b : Nat) (s : State) : List Nat :=
  ((((s.members b).filter (fun c => s.rdN (chk c 2) == 3)).map (fun c => s.rdN (chk c 3))).filter (· < 768)).eraseDups

/-- d_max in ns: the largest one-way delay of the batch's nodes, rounded up to 10 ns (R15). -/
def State.dMax (b : Nat) (s : State) : Nat :=
  let ps := (s.routedNodes b).foldl (fun m n => max m (s.rdN (ndk n 0xC))) 0
  (ps + 9999) / 10000 * 10

/-- Writes input latency, lead, link transport bound, effect delay and alignment of a batch. -/
def State.syncTimeline (b : Nat) (s : State) : State :=
  let u := s.cycleOf b
  let lin := ((s.recipe b).map (fun r => s.inputLatency r)).getD 0
  let link := s.outClass b == 1
  let aligned := u % 2000 == 0 && u != 0
  let tl := if link then (if aligned then 5000 else 10000) + s.dMax b else 0
  -- cycle in half ns
  let c2 := 5 * u
  let eff2 := if link then (if c2 = 0 then 0 else c2 * (1 + (2 * tl + c2 - 1) / c2)) else c2
  let s := ((s.wr (bk 4 0x10 b) lin).wr (bk 4 0x11 b) (s.lead b)).wr (bk 4 0x12 b) tl
  (s.wr (bk 4 0x13 b) ((eff2 + 1) / 2 : Nat)).wr (bk 4 0x15 b) (b2n (aligned && s.rdN (bk 4 4 b) == 0))

/-! ### Bank swaps of chains (R41) -/

/-- The swap itself: the tables change places, every filter and detector state is kept (R41). A new tap count
moves the latency, and with it the timeline of the batches that read the chain and their admission (R13, R37, R55). -/
def State.chainSwap (c : Nat) (s : State) : State :=
  let a := s.blob (key (0x8200 + c) 2)
  let i := s.blob (key (0x8200 + c) 1)
  let s := (s.wrBlob (key (0x8200 + c) 2) i).wrBlob (key (0x8200 + c) 1) a
  let s := s.modChain c (fun r => { r with swapFor := none, inactiveValid := !a.isEmpty })
  let s := (s.setBit (ck c 0x18) 8 false).setBit (ck c 0x18) 7 (!a.isEmpty)
  let was := s.rdN (ck c 0x12)
  let s := (s.wr (ck c 0xF) (1 - s.rd (ck c 0xF))).syncChain c
  let s := s.each (s.readers c) State.syncTimeline
  if s.rdN (ck c 0x12) ≠ was && (s.readers c).any (fun b => s.benabled b) then (s.runAdmission s.enabledFigs).2 else s

/-- CHAIN_BANK_SWAPPED (R41): a swap that names no batch takes effect between two input samples. -/
def State.chainSwapped (c : Nat) (s : State) : State := if (s.chainRec c).swapFor = some 0 then s.chainSwap c else s

def execChainBankSwapped (t : Time) (c : ChainNo) (s : State) : Host.Outcome State Fault Refusal := .next ((s.begin t).chainSwapped c)

/-- The chains whose swaps name batch b swap at its t0 (R41, R83). -/
def State.chainSwapsFor (b : Nat) (s : State) : State :=
  s.each ((List.range 80).filter (fun c => (s.chainRec c).swapFor == some (b + 1))) State.chainSwap

/-! ### Verification (R102) -/

/-- The types a recipe publishes: index and type of every operand of its publish blocks (R117) and of every publication of its resource
table (R100). -/
def Recipe.published (r : Recipe) (b : Nat) : List (Nat × STy) :=
  let sigs := r.signals
  let blocks := (r.byCode 0x90).flatMap (fun k => (List.zip (List.range k.opnds.length) k.opnds).filterMap (fun p =>
    (r.sourceTy b sigs .any p.2).map (fun t => (k.param + p.1, t))))
  blocks ++ (r.publications.filterMap (fun e =>
    if blocks.any (fun p => p.1 == e.flags) then none
    else (sigs.find? (fun p => p.1 == e.num)).map (fun p => (e.flags, p.2))))

/-- Whether the channels that one node carries belong to one batch (R11). -/
def State.nodesOk (b : Nat) (s : State) : Bool :=
  (s.routedNodes b).all (fun n => (List.range 256).all (fun c =>
    !(s.rdN (chk c 2) == 3 && s.rdN (chk c 3) == n) || s.rdN (chk c 1) == b || s.rdN (chk c 1) == 0xFF))

/-- Whether an entry of the resource table serves batch b: a generator free or owned, a channel of the membership, a chain that
the batch may read (R23, R32, R37). -/
def State.resourceServes (b : Nat) (e : Res) (s : State) : Bool :=
  if e.ty = 4 then s.rdN (key (0x6600 + e.num) 1) == b || s.rdN (key (0x6600 + e.num) 1) == 0xFF
  else if e.ty = 3 then (s.members b).contains e.num
  else if e.ty = 1 then s.chainOk b e.num
  else true

/-- Step 6 of Table 05-7 on the header counts, the membership and the output class (R10, R11). -/
def State.countsOk (b : Nat) (r : Recipe) (s : State) : Bool :=
  let mem := s.members b
  let routed := mem.any (fun c => s.rdN (chk c 2) != 0)
  let classOk := if mem.isEmpty then r.cls == 2 else if routed then r.cls == s.outClass b else r.cls ≤ 2
  r.fixedSlots.length == r.fixedUsed && r.floatSlots.length == r.floatUsed && r.gens.length == r.gensUsed
  && mem.all (fun c => r.channels.contains c) && r.channels.length == mem.length && classOk && s.nodesOk b

/-- Step 6: the offset of the first record or resource entry that fails, that of the constant pool where no terminator ends the
table, and the header (0) where a count, the membership or the class fails. -/
def State.resourcesFail (b : Nat) (r : Recipe) (s : State) : Option Nat :=
  let free (o : Nat) : Bool := o == b || o == 0xFF
  match r.blocks.find? (fun k => !(r.slotKindOk k) || (r.slotsOf k).any (fun sl => !(free (s.slotOwner sl)))) with
  | some k => some k.off
  | none => match r.slotClash r.blocks [] with
    | some k => some k.off
    | none => match r.res.find? (fun e => !(r.resOk e) || !(s.resourceServes b e)) with
      | some e => some e.off
      | none => match repeated r.res [] with
        | some e => some e.off
        | none => if !r.resEnd then some r.constOff else if s.countsOk b r then none else some 0

/-- The verification of Table 05-7 up to step 8: 0, or the code and the failing offset. -/
def State.verify (b : Nat) (img : List Byte) (s : State) : Nat × Nat :=
  let no := 0xFFFFFFFF
  if s.bstate b != .off then (0x0B000050, no)
  else if !headerOk img then (0x0B000051, no)
  else
    let r := readRecipe img
    if r.kind != s.kind b || !(r.target == b || r.target == 0xFF) || r.cycle != s.cycleOf b then (0x0B000052, no)
    else
      match r.blocks.find? (fun k => !(blockOk r.kind r.channels.length (leAt 0x28 4 img) r.sigCount k)) with
      | some k => (0x0B000053, k.off)
      | none =>
        match r.operandsFail b r.blocks [] with
        | some o => (0x0B000054, o)
        | none =>
          match s.resourcesFail b r with
          | some o => (0x0B000055, o)
          | none =>
            match r.structureFail (leAt 0x24 4 img) with
            | some o => (0x0B000056, o)
            | none => match r.banksFail with
              | some o => (0x0B000057, o)
              | none => (0, no)

/-- Copy bytes of one cycle of a recipe (R305): header, slot and generator records. -/
def Recipe.copyBytes (r : Recipe) : Nat := 16 + 16 * r.fixedUsed + 64 * r.floatUsed + 16 * r.gensUsed

/-- The copy load in bit/s over the enabled batches, with batch b taken with recipe r (R305). -/
def State.copyLoad (more : Option (Nat × Recipe)) (s : State) : Rat :=
  (allBatches.map (fun b =>
    let r := match more with
      | some (k, r) => if k = b then some r else if s.benabled b then s.recipe b else none
      | none => if s.benabled b then s.recipe b else none
    match r with
    | none => (0 : Rat)
    | some r => let c := s.cycleOf b
                if c = 0 then 0 else ((8 * r.copyBytes : Nat) : Rat) * 400000000 / ((c : Nat) : Rat))).sum

/-- Whether a twin module's copy load passes 19.4 Gbit/s (R305). -/
def State.copyOver (more : Option (Nat × Recipe)) (s : State) : Bool :=
  s.rdN (key 0x2510 1) != 0 && 19400000000 < s.copyLoad more

/-- Reports the copy load in Mbit/s. -/
def State.syncCopyLoad (s : State) : State :=
  s.wr (key 0x2510 0xC) (if s.rdN (key 0x2510 1) = 0 then 0 else (s.copyLoad none / 1000000).floor.toNat : Nat)

/-! ### Commit and release (R103) -/

/-- Clears a slot: no owner, no state, banks and counters cleared. -/
def State.clearSlot (sl : Nat) (s : State) : State :=
  if sl < 1024 then
    let s := s.each ([1, 2, 3, 9, 0xA, 0x20] ++ (List.range 16).map (· + 0x10)) (fun k s => s.clr (key (0x6000 + sl) k))
    { s with fixed := Tbl.erase sl s.fixed }
  else
    let i := sl - 1024
    let s := s.each ([1, 2, 3, 9, 0xA, 0x3C] ++ (List.range 32).map (· + 0x10)) (fun k s => s.clr (key (0x6400 + i) k))
    { s with floats := Tbl.erase i s.floats }

/-- Clears a profile generator: x, v, a and target zero. -/
def State.clearGen (g : Nat) (s : State) : State :=
  let s := s.each [2, 7, 8, 9, 0xC] (fun k s => s.wr (key (0x6600 + g) k) 0)
  { s with gens := Tbl.erase g s.gens }

/-- A slot of a new recipe: owner, role, bank A from the image, bank B a copy, A active, state and counters zero. -/
def State.takeSlot (b : Nat) (r : Recipe) (sl : Nat) (s : State) : State :=
  let s := s.clearSlot sl
  if sl < 1024 then
    let bank := r.fixedBank ((r.fixedSlots.takeWhile (· < sl)).length)
    let s := (s.wr (key (0x6000 + sl) 1) b).wr (key (0x6000 + sl) 2) (r.roleOf sl)
    s.each (List.range 8) (fun k s => (s.wr (fxWord sl false k) (bank.getD k 0 : Nat)).wr (fxWord sl true k) (bank.getD k 0 : Nat))
  else
    let i := sl - 1024
    let bank := r.floatBank ((r.floatSlots.takeWhile (· < i)).length)
    let s := (s.wr (key (0x6400 + i) 1) b).wr (key (0x6400 + i) 2) (r.roleOf sl)
    s.each (List.range 16) (fun k s => (s.wr (flWord i false k) (bank.getD k 0 : Nat)).wr (flWord i true k) (bank.getD k 0 : Nat))

/-- The bank views of a batch hold no written value any longer. -/
def State.forgetViews (b : Nat) (s : State) : State :=
  { s with od := s.od.filter (fun e =>
      let index := e.1 / 65536
      !(0x4000 ≤ index && index < 0x4400 && (index - 0x4000) / 32 == b && isView (index % 32) (e.1 / 256 % 256))) }

/-- Releases the recipe of batch b: slots and generators that `keep` does not use, pending swap, published set. -/
def State.releaseRecipe (b : Nat) (keep : Option Recipe) (s : State) : State :=
  match s.recipe b with
  | none => s
  | some o =>
    let ks := (keep.map (·.slots)).getD []
    let kg := (keep.map (·.gens)).getD []
    let s := s.each (o.slots.filter (fun sl => !(ks.contains sl))) State.clearSlot
    s.each (o.gens.filter (fun g => !(kg.contains g))) (fun g s => (s.clearGen g).wr (key (0x6600 + g) 1) 0xFF)

/-- The slots that the batch objects name (0x06 .04 and .05, 0x08 .03, 0x09 .08 and .09). -/
def State.syncSlots (b : Nat) (s : State) : State :=
  let r := s.recipe b
  let fl (code : Nat) : Nat := ((r.bind (fun r => r.flSlot code)).map (· + 1024)).getD 0xFFFF
  let s := (s.wr (bk 6 4 b) (fl 0x60)).wr (bk 6 5 b) (((r.bind (fun r => (r.byCode 0x60).head?)).map (·.param)).getD 0xFFFF)
  ((s.wr (bk 8 3 b) ((r.bind (fun r => r.fxSlot 0x61)).getD 0xFFFF)).wr (bk 9 8 b) (fl 0x64)).wr (bk 9 9 b) (fl 0x65)

/-- Clears the windows that supervise batch b's chains, and what supervision showed of the former recipe (R85, R92). -/
def State.clearWindows (b : Nat) (s : State) : State :=
  let s := s.wr (bk 0x12 5 b) 0
  { s with meas := { s.meas with
    freeze := s.meas.freeze.filter (fun e => e.1 / 128 ≠ b), clean := s.meas.clean.filter (fun e => e.1 / 128 ≠ b) } }

/-- What MRAM holds of an entry's byte string. -/
def State.storedBlob (k : Nat) (s : State) : List Byte := match s.power.stored with
  | none => []
  | some p => Tbl.get [] k p.2

/-- Commits a verified image in one step (R103). The full-range saturations .0D count from each load on, and an unload leaves them (DESIGN
CHOICE, notes/assumptions/110). -/
def State.commitRecipe (b : Nat) (img : List Byte) (s : State) : State :=
  let r := readRecipe img
  let read := (((s.recipe b).map Recipe.chains).getD []) ++ r.chains
  let s := (s.releaseRecipe b (some r)).forgetViews b
  let s := s.each r.slots (fun sl s => s.takeSlot b r sl)
  let s := s.each r.gens (fun g s => (s.clearGen g).wr (key (0x6600 + g) 1) b)
  let s := s.wrBlob (key (0x8000 + b) 1) img
  let o := 0x8000 + b
  let s := (((s.wr (key o 2) 0).wr (key o 3) r.ident).wr (key o 4) r.work).wr (key o 5) (leAt (img.length - 4) 4 img)
  let s := (((s.wr (key o 6) r.blocks.length).wr (key o 7) r.items.length).wr (key o 8) r.fixedUsed).wr (key o 9) r.floatUsed
  let s := (((s.wr (key o 0xA) 0xFFFFFFFF).wr (key o 0xB) (b2n (s.storedBlob (key o 1) == img))).inc (key o 0xC)).wr (key o 0xD) 0
  let s := (s.wr (bk 0x14 1 b) 0).wr (bk 0x14 3 b) 0
  let s := s.modBatch b (fun x => { x with pub := [], cyc := none, edges := [] })
  let s := s.recount b
  let s := s.each read State.syncLoss
  ((((s.clearWindows b).syncSlots b).syncBanks b).syncTimeline b).syncCopyLoad

/-- RECIPE_UNLOAD (R94): the slots and generators are released. -/
def State.unload (b : Nat) (s : State) : State :=
  let read := ((s.recipe b).map Recipe.chains).getD []
  let s := (s.releaseRecipe b none).forgetViews b
  let s := { s with blobs := Tbl.erase (key (0x8000 + b) 1) s.blobs }
  let s := s.each [2, 3, 4, 5, 6, 7, 8, 9] (fun k s => s.wr (key (0x8000 + b) k) 0)
  let s := (s.wr (key (0x8000 + b) 0xA) 0xFFFFFFFF).wr (key (0x8000 + b) 0xB) 0
  let s := (s.wr (bk 0x14 1 b) 0).wr (bk 0x14 3 b) 0
  let s := s.modBatch b (fun x => { x with pub := [], cyc := none, home := none, nextHome := none })
  let s := s.each read State.syncLoss
  let s := if s.benabled b then (s.runAdmission s.enabledFigs).2 else s.recount b
  ((((s.clearWindows b).syncSlots b).syncBanks b).syncTimeline b).syncCopyLoad

/-- The last milestone of R94 that a load passes whose verification gives code `e`. -/
def loadCap (e : Nat) : Nat :=
  if e = 0 then 80 else if 0x0B000056 ≤ e then 60 else if e = 0x0B000055 then 40 else if 0x0B000053 ≤ e then 10 else 0

/-- A write of a recipe image: accepted while the batch is Off; the final segment starts the long operation, a length of 0
unloads (R94, R351). A write refused at step 1 is answered with its code and leaves .02 as it was (DESIGN CHOICE, notes/assumptions/110). -/
def recipeEff (b : Nat) (img : List Byte) : Eff where
  own s := firstFail [needs (s.bstate b == .off) 0x0B000050, needs (img.isEmpty || 96 ≤ img.length) abLength]
  eff s :=
    if img.isEmpty then (s.unload b).answer 0
    else
      let s := s.startLong 2
      { s with srv := { s.srv with longInst := b, longImg := img, longCap := loadCap (s.verify b img).1 } }
  replies := false

def execRecipeLoadAndVerify (t : Time) (q : Req) (b : Batch) (img : List Byte) (s : State) : Host.Outcome State Fault Refusal :=
  .next ((s.begin t).hostBlob q (0x8000 + b) 1 img (recipeEff b img))

def execRecipeUnload (t : Time) (q : Req) (b : Batch) (s : State) : Host.Outcome State Fault Refusal :=
  .next ((s.begin t).hostBlob q (0x8000 + b) 1 [] (recipeEff b []))

/-- The load with its admission (step 9): the result code, and the state after a pass or a failure. R102 places an offset at .0A for steps 4 to
8 alone: a failure of steps 1 to 3 leaves 0xFFFFFFFF there, and one of step 9 the value before (DESIGN CHOICE, notes/assumptions/110). -/
def State.loadRecipe (b : Nat) (img : List Byte) (s : State) : Nat × State :=
  let (e, off) := s.verify b img
  if e ≠ 0 then (e, ((s.wr (key (0x8000 + b) 2) e).wr (key (0x8000 + b) 0xA) off))
  else
    let r := readRecipe img
    if s.benabled b && s.copyOver (some (b, r)) then (0x0B0000F3, s.wr (key (0x8000 + b) 2) 0x0B0000F3)
    else
      let figs := (s.enabledFigs.filter (fun f => f.b ≠ b)) ++ (if s.benabled b then [s.fig b r] else [])
      let (e, s) := s.runAdmission figs
      if e ≠ 0 then (e, s.wr (key (0x8000 + b) 2) e) else (0, s.commitRecipe b img)

/-- RECIPE_LOAD_COMPLETE (R103, R351): the result answers the request that started the load. -/
def State.loadComplete (b : Nat) (s : State) : State :=
  if s.longOp = 2 && s.srv.longInst = b then
    let img := s.srv.longImg
    let s := { s with srv := { s.srv with longImg := [] } }
    let (e, s) := s.loadRecipe b img
    s.endLong e
  else s

def execRecipeLoadComplete (t : Time) (b : Batch) (s : State) : Host.Outcome State Fault Refusal := .next ((s.begin t).loadComplete b)

/-! ### Enabling a batch -/

/-- R105: every class 4 operand names an index that the producer publishes with the type its block expects. -/
def State.signalsOk (b : Nat) (r : Recipe) (s : State) : Bool :=
  r.blocks.all (fun k => (List.zip k.opnds (r.shapeOf k).ins).all (fun p =>
    p.1 / 4096 != 4 || (
      let j := p.1 % 4096 / 128
      let i := p.1 % 128
      j != b && match s.recipe j with
        | none => false
        | some o => (o.published j).any (fun e => e.1 == i && (p.2 == .any || p.2 == e.2)))))

/-- The phases of a chain: the places at which Clarke blocks of the recipe read it (Table 05-8). -/
def Recipe.phases (r : Recipe) (c : Nat) : List Nat :=
  (r.byCode 0x10).flatMap (fun k => [0, 1, 2].filter (fun j =>
    let o := k.opnds.getD j 0
    (o / 4096 == 1 || o / 4096 == 2) && o % 4096 == c))

/-- Whether two chains are of the same phase; nothing but the Clarke blocks gives a chain a phase, and a chain that none reads may be of any
(DEDUCED, notes/assumptions/111). -/
def Recipe.samePhase (r : Recipe) (c d : Nat) : Bool :=
  (r.phases c).isEmpty || (r.phases d).isEmpty || (r.phases c).any (fun p => (r.phases d).contains p)

/-- R132: the estimator's detectors stand on the tracker of the grid-tracking chain, in harmonic mode at its order, the voltage detector on
a voltage chain and the current detector on a current chain of the same phase. -/
def State.estimatorOk (b : Nat) (r : Recipe) (s : State) : Bool :=
  let g := s.rdN (bk 5 6 b)
  let src (c : Nat) : Nat := (s.follows c).getD c
  (r.byCode 0x63).all (fun k =>
    let op (j : Nat) : Nat := k.opnds.getD j 0
    let d0 := op 1 % 4096 / 64
    let d1 := op 3 % 4096 / 64
    let det (d role : Nat) : Bool :=
      let c := s.rdN (key (0x5100 + d) 2)
      s.rdN (key (0x5100 + d) 3) == 1 && s.rdN (key (0x5100 + d) 4) == k.param && src c == src g && (r.marked role).contains c
    [1, 2, 3, 4].all (fun j => op j / 4096 == 8) && op 2 % 4096 / 64 == d0 && op 4 % 4096 / 64 == d1 && d0 != d1
    && op 1 % 4 == 0 && op 2 % 4 == 1 && op 3 % 4 == 0 && op 4 % 4 == 1 && g < 80
    && det d0 2 && det d1 1
    && r.samePhase (s.rdN (key (0x5100 + d0) 2)) (s.rdN (key (0x5100 + d1) 2)))

/-- The nodes of a batch: those its channels are routed to and those its recipe reads. -/
def State.batchNodes (b : Nat) (s : State) : List Nat :=
  (s.routedNodes b ++ ((s.recipe b).map (·.nodes)).getD []).eraseDups

/-- Whether every node of batch b has reported time locked since the last time step (R269). -/
def State.nodesTimed (b : Nat) (s : State) : Bool := (s.batchNodes b).all (fun n => !(s.links.untimed.contains n))

/-- The conditions of an enable but for admission, in order. -/
def State.enableOwn (b : Nat) (v : Int) (s : State) : Nat :=
  if s.bstate b != .off then abState
  else if v = 0 then 0
  else if s.rdB (key 0x2500 4) then abState
  else
    let ok (f : Recipe → Bool) : Bool := ((s.recipe b).map f).getD true
    firstFail [needs (ok (s.signalsOk b)) 0x0B000058, needs (ok (s.estimatorOk b)) 0x0B000060,
      needs ((s.batchNodes b).all (fun n => s.rdN (ndk n 5) == 2) && s.nodesTimed b) 0x0B000091,
      needs (ok (fun r => !(s.copyOver (some (b, r))))) 0x0B0000F3]

/-- 0x4000 .02 (R55, R105): the enable runs admission; a failure changes nothing but the admission result. -/
def enableBatchEff (b : Nat) (v : Int) : Eff where
  own := State.enableOwn b v
  eff s :=
    if v = 0 then
      let s := (s.wr (bk 0 2 b) 0).modBatch b (fun r => { r with cyc := none, freePos := s.freeRun b })
      let s := (s.runAdmission s.enabledFigs).2
      s.syncCopyLoad.answer 0
    else if s.benabled b then s.answer 0
    else
      let figs := match s.recipe b with
        | none => s.enabledFigs
        | some r => s.enabledFigs ++ [s.fig b r]
      let one := (s.queuesOf b).length == 1
      let (e, s) := if one then s.runAdmission figs
        else (if s.rdB (key 0x6530 0xB) then 0x0B000032 else 0x0B000030, s.reportAdm 1 0xFF)
      if e ≠ 0 then s.answer e
      else
        let s := (s.wr (bk 0 2 b) 1).modBatch b (fun r => { r with pub := [], freeStart := s.now / 32 * 32 + 32 })
        let s := s.modRack (fun r => { r with ran := r.ran.filter (· != b) })
        s.syncCopyLoad.answer 0
  replies := false

def execBatchEnable (t : Time) (q : Req) (b : Batch) (v : Bool) (s : State) : Host.Outcome State Fault Refusal :=
  .next ((s.begin t).hostWrite q (0x4000 + 0x20 * b) 2 0 (b2n v) (enableBatchEff b (b2n v)))

end Sys2Proof.Machine
end

