-- ==== Sys2Proof/Machine/Pwm.lean ====
section
/-! DEFINITION. The PWM engine (R178 to R200): duties to edges, batch loads, gate commands, block inputs, clock modes, spare
slices, test duties. -/

namespace Sys2Proof.Machine

/-! ### Carriers (R179, R180) -/

/-- Fine steps per carrier period of batch b, and whether it updates twice in it. -/
def State.fineF (b : Nat) (s : State) : Nat := 32 * s.rdN (bk 4 1 b)
def State.doubleUp (b : Nat) (s : State) : Bool := s.rdN (bk 4 2 b) == 1

/-- The batch a channel belongs to. -/
def State.ownerOf (c : Nat) (s : State) : Option Nat := let b := s.rdN (chk c 1); if b < 32 then some b else none

/-- Position of batch b's carrier at module time `m` (sync mode 0), or since the free counter's start (mode 1), less an offset; a free
counter that does not run stands (R180). -/
def State.carrierPos (b off : Nat) (m : Time) (s : State) : Nat :=
  let f := s.fineF b
  if f = 0 then 0
  else
    let base : Int := if s.rdN (bk 4 4 b) = 0 then m
      else if s.benabled b then (m : Int) - (((s.batch b).freeStart : Int) + s.clock.offset)
      else (s.batch b).freePos
    ((base - off) % f).toNat

/-- The effect delay of batch b in fine steps (R15). -/
def State.effSteps (b : Nat) (s : State) : Nat :=
  let u := 32 * s.cycleOf b
  if u = 0 then 0
  else if s.outClass b == 1 then
    let tl := Time.ns (s.rdN (bk 4 0x12 b))
    u * (1 + (tl + u - 1) / u)
  else u

/-- Fine steps between the load points of batch b (R180). -/
def State.loadStep (b : Nat) (s : State) : Nat := if s.doubleUp b then s.fineF b / 2 else s.fineF b

/-- Where channel c of batch b stands in its carrier now. -/
def State.chanPos (b c : Nat) (s : State) : Nat := s.carrierPos b (s.rdN (chk c 5)) s.modTime

/-- Whether this 2.5 ns count holds a load point of channel c: a carrier boundary, or a midpoint in double update (R180), while PD2 is on
(R322). A channel that belongs to no batch has none. -/
def State.atLoad (c : Nat) (s : State) : Bool :=
  match s.ownerOf c with
  | none => false
  | some b => s.rdN (key 0x2100 3) == 2 && s.fineF b != 0 && s.chanPos b c % s.loadStep b < 32

/-! ### From duty to compare pair (R182) -/

/-- What a load makes of a duty and a carry: the pair, the new carry, whether a piece was suppressed, and whether the refresh limit
reduced h. -/
structure PairOut where
  a : Nat
  b : Nat
  carry : Int
  suppressed : Bool
  limited : Bool
  deriving DecidableEq, Repr

/-- `load` (R182) with F, the update mode, T_m, t_r, and whether refresh limiting applies. -/
def loadPair (f : Nat) (double : Bool) (tmin tref : Nat) (limit : Bool) (d carry : Int) : PairOut :=
  let half : Int := (f / 2 : Nat)
  let mu : Int := if double then tmin else ((tmin + 1) / 2 : Nat)
  let hmax : Int := if limit then half - ((tref + 1) / 2 : Nat) else half
  let hr := rne (d * f) 16 + carry
  let h := clampI hr 0 hmax
  let r := if 0 < h && h < mu then ((0 : Int), clampI hr (-mu) mu, true)
    else if half - mu < h && h < half then (half, clampI (hr - half) (-mu) mu, true)
    else (h, 0, false)
  ⟨(half - r.1).toNat, (half + r.1).toNat, r.2.1, r.2.2, limit && hmax < hr⟩

/-- V_BST of driver d in mV as it stands (R231): free, but below 7.5 V at an undervoltage, above 9.0 V where a recharge hold ends, and not below
7.5 V while no undervoltage stands (notes/assumptions/117). -/
def State.bootVolt (d : Nat) (s : State) : Nat :=
  let v := (Config.bootVoltage d s.now).toNat
  let at_ := (Tbl.find? d s.aux.boot).bind (fun e => if e.1 = s.now then some e.2 else none)
  match at_ with
  | some true => min v 7499
  | some false => max v 9001
  | none => if s.bit (key (0x3100 + d) 8) 3 then v else max v 7500

/-- Whether the monitor of driver d is below the refresh threshold, 9.0 V (R231), and its status with that bit (Table 11-4 .08). -/
def State.belowRefresh (d : Nat) (s : State) : Bool := s.bootVolt d < 9000
def State.driverStatus (d : Nat) (s : State) : Nat := withBit (s.rdN (key (0x3100 + d) 8)) 2 (s.belowRefresh d)

/-- Whether refresh limiting applies to channel c now (R185): always, or while the monitor is below the refresh threshold. -/
def State.refreshApplies (c : Nat) (s : State) : Bool :=
  let p := s.rdN (chk c 8)
  let t := s.rdN (chk c 3)
  p == 2 || (p == 1 &&
    ((s.rdN (chk c 2) == 2 && s.belowRefresh t) || (s.rdN (chk c 2) == 3 && s.bit (ndk t 0x11) 4)))

/-- S at position x for a pair (R181). -/
def levelAt (a b x : Nat) : Bool := a ≤ x && x < b

/-- The edges of S from position `x0` for `len` fine steps within one carrier period that begins at `base` (R181): first the edge at
the start where the level differs from `lv`, then those inside. -/
def segEdges (a b base x0 len : Nat) (lv : Option Bool) : List (Time × Bool) :=
  let l0 := levelAt a b x0
  let first := if lv == some l0 then [] else [(base + x0, l0)]
  let inside (x : Nat) (v : Bool) : List (Time × Bool) :=
    if x0 < x && x < x0 + len && a < b then [(base + x, v)] else []
  first ++ inside a true ++ inside b false

/-- The edge position in extended mode: tap rne(x, 1) of the bypass tick of 512 fine steps (R192). -/
def extendedTap (x : Nat) : Nat := x / 512 * 512 + 2 * (rne (x % 512 : Nat) 1).toNat

/-- The instant of an edge due at `te` in extended mode: the bypass ticks begin at multiples of 40 ns of module time (DEDUCED,
notes/assumptions/114). -/
def State.extendedAt (te : Time) (s : State) : Time := ((extendedTap ((te : Int) + s.clock.offset).toNat : Int) - s.clock.offset).toNat

/-! ### Gate commands (R184) -/

/-- Whether the output stages are driven, PWM_OUT and the drivers alike: they are high-impedance before insertion and proof check and while PD2
is off (R196, R228). -/
def State.pinsDriven (s : State) : Bool := s.power.inserted && s.power.proofHeld && s.rdN (key 0x2100 3) == 2

/-- The gate commands (upper, lower) of channel c now; pull-downs hold the gates off while the stages are high-impedance (R228). -/
def State.gatesOf (c : Nat) (s : State) : Bool × Bool :=
  let r := (s.chan c).settle s.now
  if s.pinsDriven then (r.up, r.lo) else (false, false)

/-! ### Load points -/

/-- Whether the test duty of channel c is active: every condition of R197 holds. -/
def State.testActive (c : Nat) (s : State) : Bool :=
  (s.chan c).testOn && s.mod == .configuration && s.rdB (chk c 0x15)
  && (s.rdN (chk c 2) == 1 || s.rdN (chk c 2) == 2)
  && match s.ownerOf c with
    | some b => s.bstate b == .off
    | none => false

/-- Whether a PWM_BLOCK_N input that is low blocks batch b (R189). -/
def State.inputBlocks (b : Nat) (s : State) : Bool :=
  [0, 1].any (fun k => s.pwm.low.getD k false && s.bit (key 0x3200 (0xB + k)) b)

/-- Whether batch b owns a driver: the channel that the driver serves is a member (R229). -/
def State.ownsDriver (b : Nat) (s : State) : Bool := (s.members b).any (fun c => s.rdN (chk c 2) == 2)

/-- Whether a block source that needs no batch state holds channel c off: a PWM_BLOCK_N input (R189), or in a batch that owns a driver the gate
supply low or the bridge supply too high (R229). -/
def State.heldOff (c : Nat) (s : State) : Bool :=
  ((s.ownerOf c).map (fun b => s.inputBlocks b)).getD false
  || ((s.rdN (chk c 2) == 2 || ((s.ownerOf c).map (fun b => s.ownsDriver b)).getD false)
    && (s.bit (key 0x3106 3) 0 || s.bit (key 0x3106 3) 2))

/-- Whether a test duty drives channel c now (R197, R189). -/
def State.testDrives (c : Nat) (s : State) : Bool := s.testActive c && !(s.heldOff c)

/-- Whether the driver of an aux-routed channel has a latched short (R234). -/
def State.shortLatched (c : Nat) (s : State) : Bool :=
  s.rdN (chk c 2) == 2 && s.rdN (key (0x3100 + s.rdN (chk c 3)) 8) % 4 != 0

/-- The shadow duty that a load at this instant uses: a test duty written in the same count waits (R183, item 4). -/
def State.loadDuty (c : Nat) (s : State) : Int :=
  let r := s.chan c
  match r.testAt with
  | some t => if t / 32 = s.now / 32 then r.testPrev else s.rd (chk c 0xB)
  | none => s.rd (chk c 0xB)

/-- Writes what a load made: pair, carry, status bits 1 and 2, counts. -/
def State.putPair (c : Nat) (p : PairOut) (s : State) : State :=
  let s := ((s.wr (chk c 0xC) p.a).wr (chk c 0xD) p.b).wr (chk c 0xE) p.carry
  let s := (s.setBit (chk c 0xF) 1 p.suppressed).setBit (chk c 0xF) 2 p.limited
  let s := if p.suppressed then s.inc (chk c 0x10) else s
  if p.limited then s.inc (chk c 0x11) else s

/-- Bootstrap undervoltage of an aux channel (R186): upper off, lower held, S ignored. -/
def State.bootstrapReact (c : Nat) (s : State) : State :=
  let r := (s.chan c).settle s.now
  ((s.setChan c { r with up := false, lo := true, loAt := if r.lo then r.loAt else s.now, gates := [], recharging := true, level := some false }).setBit (chk c 0xF) 3 true).setBit
    (chk c 0xF) 0 false

/-- A pair of channel c of batch b is formed from its shadow and carry (R182); a channel at its first load point after its outputs were off
begins with carry 0 (R190). -/
def State.formPair (b c : Nat) (s : State) : PairOut :=
  loadPair (s.fineF b) (s.doubleUp b) (s.rdN (chk c 7)) (s.rdN (chk c 9)) (s.refreshApplies c) (s.loadDuty c)
    (if (s.chan c).waiting then 0 else s.rd (chk c 0xE))

/-- The gate edges that follow from pair `p` at the load point of channel c (R181, R184): placed from its instant, in extended mode every one on
its tap, those after a dead time too (R192). -/
def State.placeEdges (b c : Nat) (p : PairOut) (s : State) : State :=
  let r := (s.chan c).settle s.now
  let l := s.loadStep b
  let pos := s.chanPos b c
  let x0 := pos / l * l
  let te := s.now - pos % l
  let ext := s.pwm.bypass || s.pwm.waitNormal.contains b
  let es := segEdges p.a p.b 0 x0 l (if r.waiting then none else r.level)
  let r := es.foldl (fun r e => r.edge (te + e.1 - x0) e.2 (s.rdN (chk c 6))) { r with waiting := false }
  let r := if ext then { r with gates := r.gates.map (fun g => (s.extendedAt g.1, g.2)) } else r
  (s.setChan c { r with level := some ((es.getLast?.map (·.2)).getD (r.level.getD false)), testAt := none }).setBit (chk c 0xF) 0 false

/-- LOAD_POINT (R182, R183): a batch load due in the same count comes first, then the active pair is formed and its edges follow. A
channel of class 0 forms its pair and drives nothing; one that recharges, or whose driver has a latched short, ignores S (R186, R234).
A channel whose outputs are blocked and that no test duty drives forms no pair (DEDUCED, notes/assumptions/22); a node-routed
channel's edges go to its link at commit (R188). -/
def State.channelLoad (b c : Nat) (s : State) : State :=
  let cls := s.rdN (chk c 2)
  if cls = 3 || !(s.testDrives c || (s.batch b).outOn) then s
  else
    let p := s.formPair b c
    let r := s.chan c
    if cls = 0 then (s.putPair c p).setChan c { r with waiting := false }
    else if s.shortLatched c then s.putPair c p
    else if r.recharging then s.putPair c p
    else if r.waiting && cls = 2 && s.bit (key (0x3100 + s.rdN (chk c 3)) 8) 3 then
      ((s.putPair c p).setChan c { r with waiting := false }).bootstrapReact c
    else (s.placeEdges b c p).putPair c p

/-! ### Window evaluation of node-routed channels (R188) -/

/-- The edges of channel c in the window [w0, w0 + u) of module time, with duty d from its load point on. -/
def State.windowEdges (b c : Nat) (w0 u : Nat) (d : Int) (s : State) : List Edge × State :=
  let f := s.fineF b
  let double := s.doubleUp b
  let l := if double then f / 2 else f
  if f = 0 then ([], s) else
  let off := s.rdN (chk c 5)
  let r := s.chan c
  let pos := s.carrierPos b off w0
  let toLoad := (l - pos % l) % l
  let wrap (x : Nat) : Nat := x % f
  -- the part before the load point, with the pair as it stands
  let before := if r.waiting then [] else segEdges r.vA r.vB (w0 - pos) pos (min toLoad u) r.vLevel
  let before := if toLoad = 0 then [] else before
  if u ≤ toLoad then
    let lv := (before.getLast?.map (fun e => some e.2)).getD r.vLevel
    (before.map (fun e => ⟨c, e.1, e.2⟩), s.setChan c { r with vLevel := lv })
  else
    let s := if r.waiting then (s.wr (chk c 0xE) 0).setBit (chk c 0xF) 0 false else s
    let p := loadPair f double (s.rdN (chk c 7)) (s.rdN (chk c 9)) (s.refreshApplies c) d (s.rd (chk c 0xE))
    let x0 := wrap (pos + toLoad)
    let lv := (before.getLast?.map (fun e => some e.2)).getD r.vLevel
    let after := segEdges p.a p.b (w0 + toLoad - x0) x0 (u - toLoad) (if r.waiting then none else lv)
    let es := before ++ after
    let lv := (es.getLast?.map (fun e => some e.2)).getD r.vLevel
    let s := (s.putPair c p).setChan c { r with waiting := false, vA := p.a, vB := p.b, vDuty := d, vLevel := lv }
    (es.map (fun e => ⟨c, e.1, e.2⟩), s)

/-- The nodes whose edge commands the link-pack block seals (R117): its mode is their count from the local node of its parameter. -/
def Recipe.packed (r : Recipe) : List Nat := (r.byCode 0x81).flatMap (fun k => (r.nodes.drop k.param).take k.mode)

/-- Seals the edge list of a cycle of batch b that began at `t0` (R13, R14, R188): the window of every node-routed channel is evaluated, which begins
at the cycle's effect, and the link-pack block takes the edges of the nodes it packs. Outputs that will not be enabled then have no edges. -/
def State.sealEdges (b : Nat) (t0 : Time) (s : State) : State :=
  if s.outClass b != 1 then s else
  let w0 := ((t0 : Int) + s.clock.offset).toNat + s.effSteps b
  let on := (s.batch b).outOn || (match (s.batch b).outDue with
    | some d => d ≤ t0 + s.effSteps b
    | none => false)
  if !on then s.modBatch b (fun r => { r with edges := r.edges ++ [⟨s.now, []⟩] }) else
  let nodes := ((s.recipe b).map Recipe.packed).getD []
  let cs := (s.members b).filter (fun c => s.rdN (chk c 2) == 3)
  let (es, s) := cs.foldl (fun (acc : List Edge × State) c =>
    let (e, s) := acc.2.windowEdges b c w0 (32 * acc.2.cycleOf b) (acc.2.chan c).vDuty
    (acc.1 ++ e, s)) ([], s)
  let es := es.filter (fun e => nodes.contains (s.rdN (chk e.chan 3)))
  s.modBatch b (fun r => { r with edges := r.edges ++ [⟨s.now, es⟩] })

/-! ### Batch load (R183) and enabling outputs (R164, R190) -/

/-- The outputs of batch b are enabled (R164, R190), which clears the block sources in force (0x400D .01, R381). -/
def State.outputsOn (b : Nat) (s : State) : State :=
  let s := s.modBatch b (fun r => { r with outOn := true, outDue := none })
  s.wr (bk 0xD 1 b) 0

/-- BATCH_LOAD (R183): the committed duties whose update point has come enter the shadows together, but for a shadow that holds a test duty (R197);
outputs that are due are enabled. -/
def State.batchLoad (b : Nat) (s : State) : State :=
  let r := s.batch b
  let due := r.loads.filter (fun l => l.1 ≤ s.now)
  let s := s.setBatch b { r with loads := r.loads.filter (fun l => s.now < l.1) }
  let s := match due.getLast? with
    | none => s
    | some l => s.each l.2 (fun (e : Nat × Int) s => if s.testActive e.1 then s else s.wr (chk e.1 0xB) e.2)
  match (s.batch b).outDue with
  | some d =>
    if d ≤ s.now then
      if s.inputBlocks b then s.blockBatch b 64 [] else if (s.bstate b).running then s.outputsOn b else s
    else s
  | none => s

def execBatchLoad (t : Time) (b : Batch) (s : State) : Host.Outcome State Fault Refusal := .next ((s.begin t).batchLoad b)

/-! ### Slices (R178, R191, R194, R195) -/

def sliceDflt (k : Nat) : SliceRec := if k < 256 then { state := .serving, channel := some k } else { state := .idle }
def State.slice (k : Nat) (s : State) : SliceRec := Tbl.get (sliceDflt k) k s.pwm.slices
def sliceKey (base k : Nat) : Nat := key (base + k / 16) (k % 16 + 1)
/-- The code of a slice state (Table 09-7), the same order as a core's. -/
def SpareState.code : SpareState → Nat
  | .serving => 0
  | .idle => 1
  | .shadowing => 2
  | .underTest => 3
  | .retired => 4

def State.setSlice (k : Nat) (r : SliceRec) (s : State) : State :=
  ({ s with pwm := { s.pwm with slices := Tbl.set k r s.pwm.slices } }).wr (sliceKey 0x3210 k) r.state.code

def allSlices : List Nat := List.range 272

/-- The spare that shadows slice k. -/
def State.shadowOf (k : Nat) (s : State) : Option Nat :=
  allSlices.find? (fun j => (s.slice j).state == .shadowing && (s.slice j).shadows == some k)
def State.idleSlice (s : State) : Option Nat := allSlices.find? (fun j => (s.slice j).state == .idle)
def State.servingSlice (c : Nat) (s : State) : Nat := s.rdN (chk c 0x13)

/-- Spare slices left (0x3200.0A, R344). -/
def State.sliceReserve (s : State) : State :=
  let n := (allSlices.filter (fun j => (s.slice j).state == .idle || (s.slice j).state == .shadowing
    || ((s.slice j).state == .underTest && (s.slice j).retireCause.isNone))).length
  (s.wr (key 0x3200 0xA) n).reserveLeft 2 n

/-- A spare that has shadowed slice k for one whole carrier period of channel c may replace it (R194). -/
def State.shadowReady (k c : Nat) (s : State) : Option Nat :=
  (s.shadowOf k).filter (fun j => match s.ownerOf c with
    | none => true
    | some b => decide ((s.slice j).since + s.fineF b ≤ s.now))

/-- The position map that a calibration rebuilt is applied to slice k (R191). -/
def State.applyMap (k : Nat) (s : State) : State :=
  match (s.slice k).newMap with
  | some m => { s with pwm := { s.pwm with slices := Tbl.set k { (s.slice k) with map := m, newMap := none } s.pwm.slices } }
  | none => s

/-- The pair of slice i, which runs channel c, and its shadow ends, and with it the arbitration of a mismatch of the two (R195; DEDUCED,
notes/assumptions/114). -/
def State.endPair (c i : Nat) (s : State) : State :=
  (s.setSlice i { (s.slice i) with passed := false }).setBit (chk c 0xF) 4 false

/-- A spare takes channel c at a load point, with no lost and no altered edge (R194). -/
def State.serveWith (c j : Nat) (s : State) : State :=
  ((s.setSlice j { (s.slice j) with state := .serving, channel := some c, shadows := none }).endPair c j).wr (chk c 0x13) j

/-- The batch of the channel that slice k serves blocks where the slice waits for a retirement and no spare shadows it (R195). -/
def State.blockUnshadowed (k : Nat) (s : State) : State :=
  match (s.slice k).retireCause, ((s.slice k).channel).bind (fun c => s.ownerOf c) with
  | some _, some b => if (s.shadowOf k).isSome then s else s.blockBatch b 1024 []
  | _, _ => s

/-- Slice k is retired for good: event, repair map, reserve. A slice that it shadowed, and that waits for its own retirement, has lost its
spare. -/
def State.sliceGone (k cause : Nat) (s : State) : State :=
  let i := (s.slice k).shadows
  let s := s.setSlice k { (s.slice k) with state := .retired, channel := none, shadows := none, retireCause := none, testDue := false }
  let s := ((s.logEvent 0x0602 k (d16 k ++ d8 cause)).retireRecord 2 k cause).sliceReserve
  match i with
  | some i => (match (s.slice i).channel with
    | some c => s.endPair c i
    | none => s).blockUnshadowed i
  | none => s

/-- The retirement of a serving slice takes effect: the spare that shadows it, else the lowest idle spare, serves its channel
(DEDUCED, notes/assumptions/23). -/
def State.sliceHandOver (k : Nat) (s : State) : State :=
  let r := s.slice k
  match r.channel, r.retireCause with
  | some c, some cause =>
    let s := match (s.shadowOf k).or s.idleSlice with
      | some j => s.serveWith c j
      | none => s
    s.sliceGone k cause
  | _, _ => s

/-- Retires slice k (R195): a shadowing spare takes over at the channel's next load point; with none the channel's batch blocks
and the retirement waits for its cycle boundary. -/
def State.retireSlice (k cause : Nat) (s : State) : State :=
  let r := s.slice k
  if r.state == .retired || r.retireCause.isSome then s else
  match r.state, r.channel with
  | .serving, some c =>
    let s := s.setSlice k { r with retireCause := some cause }
    if (s.ownerOf c).isNone then s.sliceHandOver k else s.blockUnshadowed k
  | _, _ => s.sliceGone k cause

/-- The batch cycle boundary: retirements that wait take effect (Table 01-6). -/
def State.sliceBoundary (b : Nat) (s : State) : State :=
  s.each (allSlices.filter (fun k => match (s.slice k).retireCause, (s.slice k).channel with
    | some _, some c => s.ownerOf c == some b && (s.shadowOf k).isNone
    | _, _ => false)) State.sliceHandOver

/-- The spare `j` serves channel c while slice k, its background test begun, is out of service (R194). -/
def State.testSwap (k j c : Nat) (s : State) : State :=
  let s := s.serveWith c j
  let s := s.setSlice k { (s.slice k) with state := .underTest, channel := none, since := s.now, testDue := false, passed := false }
  { s with pwm := { s.pwm with rot := (k + 1) % 272 } }

/-- SPARE_SLICE_TAKEOVER (R194, R195): at a load point of channel c, the spare that shadows a slice leaving service for good or for its
test; the slices of the channel take the maps that wait (R191). -/
def State.takeoverSlice (c : Nat) (s : State) : State :=
  if !(s.atLoad c) then s else
  let k := s.servingSlice c
  let s := s.each ((s.shadowOf k).toList ++ [k]) State.applyMap
  match s.shadowReady k c with
  | none => s
  | some j => if (s.slice k).retireCause.isSome then s.sliceHandOver k else if (s.slice k).testDue then s.testSwap k j c else s

def execSpareSliceTakeover (t : Time) (c : Channel) (s : State) : Host.Outcome State Fault Refusal :=
  .next ((s.begin t).takeoverSlice c)

/-- The placed edges of the slice of channel c and of the spare that shadows it are compared at its load point (R194): whether they differ by more
than one fine step is free. A mismatch shows at the channel (0x3000 + c .0F bit 4), and both slices are to be tested (R195). -/
def State.compareShadow (c : Nat) (s : State) : State :=
  let k := s.servingSlice c
  if (s.shadowOf k).isNone || s.bit (chk c 0xF) 4 then s else
  let (n, s) := s.draw
  s.setBit (chk c 0xF) 4 (Config.sliceMismatch n == 1)

/-- A load point of channel c, where there is one in this count: what a batch load due by then enters comes before it (R183, item 4). -/
def State.loadPoint (c : Nat) (s : State) : State :=
  match s.ownerOf c with
  | none => s
  | some b => if s.atLoad c then ((s.batchLoad b).channelLoad b c).compareShadow c else s

/-- LOAD_POINT with the takeover that falls on it (R195). -/
def execLoadPoint (t : Time) (c : Channel) (s : State) : Host.Outcome State Fault Refusal :=
  .next (((s.begin t).takeoverSlice c).loadPoint c)

/-- The in-service slice whose test is in turn: the first at or after the rotation's position. -/
def State.sliceInTurn (s : State) : Option Nat :=
  ((List.range 272).map (fun i => (s.pwm.rot + i) % 272)).find? (fun k => (s.slice k).state == .serving)

/-- Starts shadowing the slice in turn, where tests are enabled and no slice is shadowed or under test (R194). -/
def State.startShadow (s : State) : State :=
  let busy := allSlices.any (fun j => (s.slice j).state == .shadowing || (s.slice j).state == .underTest)
  if !(s.rdB (key 0x3200 8)) || busy then s else
  match s.sliceInTurn, s.idleSlice with
  | some k, some j => s.setSlice j { (s.slice j) with state := .shadowing, shadows := some k, since := s.now }
  | _, _ => s

/-- SLICE_BACKGROUND_TEST (R194): one rotation step after its shadowing began, the slice leaves service for 1 ms and the
spare serves its channel, from its channel's load point on; a channel that belongs to no batch has none to wait for. While a mismatch of the
two is arbitrated both stay where they are (DEDUCED, notes/assumptions/114). -/
def State.sliceTest (k : Nat) (s : State) : State :=
  match s.shadowOf k, (s.slice k).channel with
  | some j, some c =>
    if s.rdB (key 0x3200 8) && !(s.bit (chk c 0xF) 4) && (s.slice j).since + Time.ms (s.rdN (key 0x3200 9)) ≤ s.now then
      if (s.ownerOf c).isNone then s.testSwap k j c
      else (s.setSlice k { (s.slice k) with testDue := true }).takeoverSlice c
    else s
  | _, _ => s

def execSliceBackgroundTest (t : Time) (sl : SliceNo) (s : State) : Host.Outcome State Fault Refusal :=
  .next ((s.begin t).sliceTest sl)

/-- The pair that slice k and its shadow, or the slice it shadows, form, with the channel they run. -/
def State.pairOfSlice (k : Nat) (s : State) : Option (Nat × Nat × Nat) :=
  let r := s.slice k
  let i := r.shadows.getD k
  match s.shadowOf i, (s.slice i).channel with
  | some j, some c => some (i, j, c)
  | _, _ => none

/-- The test of one slice of a mismatched pair ends (R195): the channel shows the mismatch (0x3000 + c .0F bit 4) until a slice has failed and
is retired, with cause 5, or both have passed (DEDUCED, notes/assumptions/114). A pair without a mismatch has nothing to arbitrate. -/
def State.arbitrateSlice (k : Nat) (pass : Bool) (s : State) : State :=
  match s.pairOfSlice k with
  | none => s
  | some (i, j, c) =>
    if !(s.bit (chk c 0xF) 4) then s
    else if pass then
      if (s.slice (if k = i then j else i)).passed then (s.endPair c i).endPair c j
      else s.setSlice k { (s.slice k) with passed := true }
    else (((s.endPair c i).endPair c j).retireSlice k 5).startShadow

/-- SLICE_TEST_END (R194, R195): after its background test the slice joins the spares, or is retired; on a slice of a shadowed pair it
ends that slice's part of a mismatch arbitration. -/
def State.sliceTestEnd (k : Nat) (pass : Bool) (s : State) : State :=
  let r := s.slice k
  if r.state != .underTest then s.arbitrateSlice k pass
  else if r.since + Time.ms 1 ≤ s.now then
    if pass then (s.setSlice k { r with state := .idle, channel := none }).startShadow
    else (s.retireSlice k 1).startShadow
  else s

def execSliceTestEnd (t : Time) (sl : SliceNo) (pass : Bool) (s : State) : Host.Outcome State Fault Refusal :=
  .next ((s.begin t).sliceTestEnd sl pass)

/-- One slice's calibration (R191): 45 to 79 elements and a monotonic map, which waits for the slice's next load point, or a failure; the
third in a row retires it. -/
def State.calibrate (k : Nat) (x : CalCount) (s : State) : State :=
  let r := s.slice k
  if r.state == .retired then s else
  let s := s.wr (sliceKey 0x3230 k) (x.elements % 256 : Nat)
  if x.elements < 45 || 79 < x.elements || !x.monotonic then
    let s := (s.setSlice k { r with fails := r.fails + 1 }).inc (key 0x3200 5)
    if r.fails + 1 = 3 then s.retireSlice k 6 else s
  else s.setSlice k { r with fails := 0, newMap := some x.elements }

/-- SLICE_CALIBRATION (R191): one round over the slices while PD2 is on, with the lowest count of the last second. -/
def State.sliceCalibration (counts : List CalCount) (s : State) : State :=
  if s.rdN (key 0x2100 3) ≠ 2 then s else
  let s := State.each (List.zip allSlices counts) (fun p s => s.calibrate p.1 p.2) s
  let s := s.inc (key 0x3200 4)
  let low := (counts.map (·.elements)).min?
  let l := (match low with
    | some m => s.pwm.minElems ++ [(s.now, m)]
    | none => s.pwm.minElems).filter (fun e => s.now < e.1 + Time.sec 1)
  let s := { s with pwm := { s.pwm with minElems := l } }
  (s.wr (key 0x3200 6) (((l.map (·.2)).min?.getD 0) % 256 : Nat)).startShadow

def execSliceCalibration (t : Time) (counts : List CalCount) (s : State) : Host.Outcome State Fault Refusal :=
  .next ((s.begin t).sliceCalibration counts)

/-- EXTENDED_RECALIBRATION (R192): in normal service the extended map is measured anew; the dictionary shows nothing of it. -/
def State.extendedCal (s : State) : State := if s.pwm.bypass then s else { s with pwm := { s.pwm with extCal := s.now } }

def execExtendedRecalibration (t : Time) (s : State) : Host.Outcome State Fault Refusal := .next (s.begin t).extendedCal

/-! ### Clock modes (R192, R193) -/

/-- Whether channel c is in extended mode (0x3000 + c .0F bit 5). -/
def State.chanExtended (c : Nat) (s : State) : Bool :=
  s.pwm.bypass || match s.ownerOf c with
    | some b => s.pwm.waitNormal.contains b
    | none => false

/-- The clock mode as 0x3200.03 reports it (Table 09-7). -/
def State.clockMode (s : State) : Nat :=
  if s.pwm.bypass then (if s.pwm.startup then 2 else 1) else if s.pwm.waitNormal.isEmpty then 0 else 1

/-- The carry of channel c is cleared at a change of its clock mode (R183). -/
def State.clearCarry (c : Nat) (s : State) : State := if s.rd (chk c 0xE) = 0 then s else s.wr (chk c 0xE) 0

/-- The scheduled gate edges of every channel complete on the extended taps (R193). -/
def State.roundEdges (s : State) : State :=
  { s with pwm := { s.pwm with chans := s.pwm.chans.map (fun e =>
      let r := e.2.settle s.now
      (e.1, { r with gates := r.gates.map (fun g => (s.extendedAt g.1, g.2)) })) } }

/-- The timebase moves to the bypass clock: every slice enters extended mode (R193). -/
def State.toExtended (s : State) : State :=
  let s := { s with pwm := { s.pwm with bypass := true, waitNormal := [] } }
  (s.roundEdges.each (List.range 256) State.clearCarry).inc (key 0x3200 7)

/-- The timebase is back on the PLL: unassigned channels return at once, batches at their next carrier boundary (R193). -/
def State.toNormal (s : State) : State :=
  let bs := allBatches.filter (fun b => !(s.members b).isEmpty)
  let s := { s with pwm := { s.pwm with bypass := false, startup := false, waitNormal := bs } }
  (s.each ((List.range 256).filter (fun c => (s.ownerOf c).isNone)) State.clearCarry).inc (key 0x3200 7)

/-- Whether this count holds a carrier boundary of batch b; a carrier that does not run has none to wait for. -/
def State.atBoundary (b : Nat) (s : State) : Bool :=
  (s.rdN (bk 4 4 b) != 0 && !(s.benabled b)) || s.carrierPos b 0 s.modTime < 32

/-- RETURN_TO_NORMAL_MODE (R193): at a carrier boundary of the batch. -/
def State.returnNormal (b : Nat) (s : State) : State :=
  if s.pwm.bypass || !(s.pwm.waitNormal.contains b) || !(s.atBoundary b) then s else
  let l := s.pwm.waitNormal.filter (· ≠ b)
  let s := { s with pwm := { s.pwm with waitNormal := l } }
  s.each (s.members b) State.clearCarry

def execReturnToNormalMode (t : Time) (b : Batch) (s : State) : Host.Outcome State Fault Refusal := .next ((s.begin t).returnNormal b)

/-! ### Block inputs (R189) -/

/-- The batches that a write of mask k to `v` adds while the input is low block at once (R189). -/
def State.maskBlock (k v : Nat) (s : State) : State :=
  let old := s.rdN (key 0x3200 (0xB + k))
  let s := s.wr (key 0x3200 (0xB + k)) v
  if s.pwm.low.getD k false then s.each (allBatches.filter (fun b => v.testBit b && !(old.testBit b))) (fun b s => s.blockBatch b 64 []) else s

/-- PWM_BLOCK_N (R189): the input has been low for 20 ns, or is high again (notes/assumptions/24). -/
def State.blockInput (k : Nat) (low : Bool) (s : State) : State :=
  let was := s.pwm.low.getD k false
  let s := { s with pwm := { s.pwm with low := s.pwm.low.set k low } }
  let s := s.setBit (key 0x3200 0xD) k low
  if low && !was then
    let s := s.inc (key 0x3200 0xE)
    s.each (allBatches.filter (fun b => s.bit (key 0x3200 (0xB + k)) b)) (fun b s => s.blockBatch b 64 [])
  else s

def execPwmBlockN (t : Time) (k : Fin 2) (low : Bool) (s : State) : Host.Outcome State Fault Refusal :=
  let s := (s.begin t).blockInput k low
  .next (s.inputEdge (4 + k) (!low) (s.modTime - Time.ns 20))

/-! ### Bootstrap (R186, R231, R232) -/

/-- The channel that driver d serves. -/
def State.driverChan (d : Nat) (s : State) : Option Nat := let c := s.rdN (key (0x3100 + d) 1); if c < 255 || (c = 255 && s.rdN (chk 255 2) == 2 && s.rdN (chk 255 3) == d) then some c else none

/-- Driver d's monitor reports an undervoltage, or that a recharge hold has passed, at this instant. -/
def State.noteBoot (d : Nat) (low : Bool) (s : State) : State := { s with aux := { s.aux with boot := Tbl.set d (s.now, low) s.aux.boot } }

/-- BOOTSTRAP_UNDERVOLTAGE (R186): the status bit sets; where the channel's outputs are on, the upper gate goes off and the lower is held
on, counted and logged, unless it waits for its first load point, which takes it as the initial charge (R232), or its driver
has a latched short (R234). -/
def State.bootstrapLow (d : Nat) (s : State) : State :=
  let s := (s.noteBoot d true).setBit (key (0x3100 + d) 8) 3 true
  match s.driverChan d with
  | none => s
  | some c =>
    let s := (s.modChan c (fun r => { r with lowAt := s.now })).setBit (chk c 0xF) 3 true
    let on := match s.ownerOf c with
      | some b => (s.batch b).outOn || s.testDrives c
      | none => false
    if !on || (s.chan c).waiting then s
    else if (s.chan c).recharging then s
    else ((s.bootstrapReact c).inc (chk c 0x12)).logEvent 0x0201 c (d16 c)

def execBootstrapUndervoltage (t : Time) (d : DriverNo) (s : State) : Host.Outcome State Fault Refusal :=
  .next ((s.begin t).bootstrapLow d)

/-- RECHARGE_HOLD (R186): the monitor has been above its threshold for the hold (.16 of the channel that the driver serves), which is no
shorter ago than the latest undervoltage; operation resumes at the next load point with carry 0. -/
def State.rechargeHold (d : Nat) (s : State) : State :=
  let above (s : State) : State := (s.noteBoot d false).setBit (key (0x3100 + d) 8) 3 false
  match s.driverChan d with
  | none => above s
  | some c =>
    let r := s.chan c
    if s.now < r.lowAt + Time.us (s.rdN (chk c 0x16)) then s else
    let s := (above s).setBit (chk c 0xF) 3 false
    if r.recharging then (s.setChan c { r with recharging := false }).wr (chk c 0xE) 0 else s

def execRechargeHold (t : Time) (d : DriverNo) (s : State) : Host.Outcome State Fault Refusal := .next ((s.begin t).rechargeHold d)

/-! ### Test duty (R197) -/

/-- 0x3000 + c .14 (R197): the duty enters the shadow at once. -/
def testDutyEff (c : Nat) (v : Int) : Eff where
  own s := needs (s.mod == .configuration && s.rdB (chk c 0x15) && (s.rdN (chk c 2) == 1 || s.rdN (chk c 2) == 2)
    && match s.ownerOf c with
      | some b => s.bstate b == .off
      | none => false) 0x0B000086
  eff s :=
    let r := s.chan c
    let s := s.setChan c { r with testOn := true, testAt := some s.now, testPrev := s.rd (chk c 0xB) }
    (s.wr (chk c 0x14) v).wr (chk c 0xB) v

def execTestDuty (t : Time) (q : Req) (c : Channel) (v : Nat) (s : State) : Host.Outcome State Fault Refusal :=
  .next ((s.begin t).hostWrite q (0x3000 + c) 0x14 0 v (testDutyEff c v))

/-- 0x3000 + c .15. -/
def testEnableEff (c : Nat) (v : Int) : Eff := { eff := fun s => let s := s.wr (chk c 0x15) v; if v = 0 then s.endTest c else s }

/-! ### Pins (R196) -/

/-- The channel of pin pair k: the one routed to it, else one of class 0 whose target still names it (R196; DEDUCED,
notes/assumptions/114). -/
def State.pinChan (k : Nat) (s : State) : Option Nat :=
  ((List.range 256).find? (fun c => s.rdN (chk c 2) == 1 && s.rdN (chk c 3) == k)).or
    ((List.range 256).find? (fun c => s.rdN (chk c 2) == 0 && s.rdN (chk c 3) == k))

/-- The levels of PWM_OUT[47:0] (0x3108.01): the gate commands under the polarity, the inactive level where there is none. -/
def State.pinLevels (s : State) : Nat :=
  ((List.range 24).map (fun k =>
    match s.pinChan k with
    | none => 0
    | some c =>
      let g := s.gatesOf c
      let p := s.rdN (chk c 0xA)
      (b2n (g.1 != p.testBit 0)) * 2 ^ (2 * k) + (b2n (g.2 != p.testBit 1)) * 2 ^ (2 * k + 1))).sum

end Sys2Proof.Machine
end

