-- ==== Sys2Proof/Machine/Drivers.lean ====
section
/-! DEFINITION. The auxiliary bridge drivers (R227 to R237): supplies, drain-source monitoring, off-state diagnostics. -/

namespace Sys2Proof.Machine

def xk (d sub : Nat) : Nat := key (0x3100 + d) sub
def allDrivers : List Nat := List.range 6

/-- The batch that owns driver d: the one of the channel it serves. -/
def State.driverBatch (d : Nat) (s : State) : Option Nat := (s.driverChan d).bind (fun c => s.ownerOf c)

/-- The drivers that batch b owns. -/
def State.driversOf (b : Nat) (s : State) : List Nat := allDrivers.filter (fun d => s.driverBatch d == some b)

/-! ### Supplies (R229) -/

/-- Blocks every batch that owns a driver, from source bit 9; the event names its channels and its drivers (R293). -/
def State.blockDrivers (s : State) : State :=
  s.each (allBatches.filter (fun b => !(s.driversOf b).isEmpty)) (fun b s =>
    s.blockBatch b 512 ((s.members b).flatMap d8 ++ (s.driversOf b).flatMap d8))

/-- VGATE (1) or VBRIDGE (2) in mV now: as a command of this very instant measured it, else a free value within what its status bits say
(R229; notes/assumptions/117). -/
def State.supplyMv (i : Nat) (s : State) : Nat :=
  let v := (Config.supplyVoltage i s.now).toNat
  let bit (k : Nat) : Bool := s.bit (key 0x3106 3) k
  let open_ := if i = 1 then (if bit 0 then min v 10400 else max v 10000)
    else if bit 2 then max v 61000 else if bit 1 then min v 12500 else min (max v 12000) 62000
  match Tbl.find? i s.aux.supplies with
  | some (t, mv) => if t = s.now then mv else open_
  | none => open_

/-- A command brings the measurement of a supply. -/
def State.senseSupply (i mv : Nat) (s : State) : State :=
  { s with aux := { s.aux with supplies := Tbl.set i (s.now, mv % 65536) s.aux.supplies } }

/-- A supply passes a threshold into its fault range: reading, status bit, block. One that passes it again while the bit still stands blocks again
and is no further fault of the count (notes/assumptions/117). -/
def State.supplyFault (sub bit cnt mv : Nat) (s : State) : State :=
  let was := s.bit (key 0x3106 3) bit
  let s := (s.senseSupply sub mv).setBit (key 0x3106 3) bit true
  (if was then s else s.inc (key 0x3106 cnt)).blockDrivers

/-- A supply reading with its status bit. -/
def State.supplyStatus (sub bit : Nat) (v : Bool) (mv : Nat) (s : State) : State :=
  (s.senseSupply sub mv).setBit (key 0x3106 3) bit v

/-! ### Drain-source monitoring (R233, R234) -/

/-- Whether a driver's gate on a side is on, and when it turned on: a gate that a block has cut may be on for 100 ns more (Table 09-2), and none
is on while the stages are high-impedance (R228). -/
def State.gateOn (d : Nat) (high : Bool) (s : State) : Option Time :=
  match s.driverChan d with
  | none => none
  | some c =>
    let r := (s.chan c).settle s.now
    let still (f : GateCut → Bool) : Bool := match r.cut with
      | some x => f x && decide (s.now ≤ x.at_ + Time.ns 100)
      | none => false
    if !s.pinsDriven then none
    else if high then (if r.up || still (·.up) then some r.upAt else none)
    else if r.lo || still (·.lo) then some r.loAt else none

/-- V_DS in mV of a side that is on (R233): the high side's is VBRIDGE less AUX_SENSE. -/
def drainVoltage (x : DrainSense) : Int := if x.high then (x.bridge : Int) - x.sense else x.sense

/-- Whether what the monitor of driver d sees is a short (R233): V_DS above V_th for t_f, compared since the blanking `bl` ended. -/
def State.isShort (d : Nat) (x : DrainSense) (bl : Time) (s : State) : Bool :=
  decide ((s.rdN (xk d 4) : Int) < drainVoltage x) && decide (s.rdN (xk d 6) ≤ x.held) && decide (bl + Time.ns (s.rdN (xk d 6)) ≤ s.now)

/-- BLANKING_END (R233): t_bl after its turn-on edge the monitor of a side compares. -/
def State.blankingEnd (d : Nat) (high : Bool) (s : State) : State :=
  match s.gateOn d high with
  | none => s
  | some t =>
    if t + Time.ns (s.rdN (xk d 5)) ≤ s.now then { s with aux := { s.aux with blanked := Tbl.set (2 * d + b2n !high) s.now s.aux.blanked } } else s

def execBlankingEnd (t : Time) (d : DriverNo) (high : Bool) (s : State) : Host.Outcome State Fault Refusal :=
  .next ((s.begin t).blankingEnd d high)

/-- The event of a short of driver d (R234): its bits in one of its own, or in that of the shorts of the batch's present cycle (R19, item 3). A
batch that is not enabled has no cycles. -/
def State.shortEvent (b d side : Nat) (s : State) : State :=
  match (s.batch b).shortAt with
  | some t =>
    let own := s.driversOf b
    s.amendEvent (fun e => e.code == 0x0200 && own.contains (e.src % 4096) && e.tai == t)
      (fun l => d8 (leAt 0 1 l ||| 2 ^ d) ++ d8 (leAt 1 1 l ||| 2 ^ side))
  | none =>
    (s.modBatch b (fun r => { r with shortAt := if s.benabled b then some s.tai else none })).logEvent 0x0200 d (d8 (2 ^ d) ++ d8 (2 ^ side))

/-- SHORT (R234): the side's bit latches, both gates go off, the channel's batch blocks; the event names the channel and the driver (R293). A side
that is off or within its blanking, or whose V_DS is not above V_th for t_f, has no short. -/
def State.driverShort (d : Nat) (x : DrainSense) (s : State) : State :=
  let side := b2n !x.high
  match s.gateOn d x.high, Tbl.find? (2 * d + side) s.aux.blanked with
  | some on, some bl =>
    if bl < on || !(s.isShort d x bl) then s else
    let s := (((s.senseSupply 2 x.bridge).setBit (xk d 8) side true).inc (xk d 9)).wr (xk d 0xF) s.tai
    let s := match s.driverChan d with
      | some c => s.chanOff c
      | none => s
    match s.driverBatch d with
    | none => s.logEvent 0x0200 d (d8 (2 ^ d) ++ d8 (2 ^ side))
    | some b => (s.blockBatch b 128 (((s.driverChan d).toList).flatMap d8 ++ d8 d)).shortEvent b d side
  | _, _ => s

def execShort (t : Time) (d : DriverNo) (x : DrainSense) (s : State) : Host.Outcome State Fault Refusal :=
  .next ((s.begin t).driverShort d x)

/-- 0x3100 + d .0A (R234): only while the batch is Off, Blocked or Fault. -/
def driverClearEff (d : Nat) : Eff where
  own s := match s.driverBatch d with
    | none => 0
    | some b => needs (s.bstate b == .off || s.bstate b == .blocked || s.bstate b == .fault) 0x0B0000A1
  eff s := (s.setBit (xk d 8) 0 false).setBit (xk d 8) 1 false

def execDriverClearFaults (t : Time) (q : Req) (d : DriverNo) (s : State) : Host.Outcome State Fault Refusal :=
  .next ((s.begin t).hostWrite q (0x3100 + d) 0xA 0 1 (driverClearEff d))

/-! ### Off-state diagnostics (R235, R236) -/

/-- Whether the supplies are in their ranges. -/
def State.suppliesOk (s : State) : Bool :=
  let v := s.supplyMv 2
  12000 ≤ v && v ≤ 60000 && !(s.bit (key 0x3106 3) 0)

/-- The partner of driver d where it is a driver of the same batch. -/
def State.partner (d : Nat) (s : State) : Option Nat :=
  let p := s.rdN (xk d 3)
  if p < 6 && p != d && (s.driverBatch d).isSome && s.driverBatch p == s.driverBatch d then some p else none

/-- The run of driver d ends with a result. A pre-start run that does not pass puts its batch into Fault, blocked meanwhile or not; a batch that
has gone back to Off has given up its start (R235, R236; DEDUCED, notes/assumptions/117). -/
def State.diagEnd (d res : Nat) (s : State) : State :=
  let s := (((s.wr (xk d 0xB) res).setBit (xk d 8) 4 false).setBit (xk d 8) 5 (res != 1 && res != 0))
  let s := { s with aux := { s.aux with run := none } }
  if res = 1 || !(s.aux.pre.contains d) then s else
  match s.driverBatch d with
  | some b => if s.bstate b == .off then s else s.faultBatch b 0 0x81
  | none => s

/-- Whether the batch that owns driver d, if one does, lets a diagnostic run: it is Off, or in Precharge, which a block of a batch whose pre-start
runs were accepted there does not change (R235, R236). -/
def State.diagAllowed (d : Nat) (s : State) : Bool :=
  match s.driverBatch d with
  | some b => s.bstate b == .off || s.bstate b == .precharge || (s.bstate b == .blocked && s.aux.pre.contains d)
  | none => true

/-- Starts the run of a driver, whose result is not run until it ends, or ends it at once where it cannot run; one whose batch no longer lets it
is not run (R235). -/
def State.diagStart (d : Nat) (s : State) : State :=
  let ref := s.rdN (xk d 2)
  let s := s.wr (xk d 0xB) 0
  if ref = 0 || !(s.diagAllowed d) then s
  else if !s.suppliesOk then s.diagEnd d 5
  else if ref = 3 && (s.partner d).isNone then s.diagEnd d 6
  else ({ s with aux := { s.aux with run := some (d, 1), since := s.now } }).setBit (xk d 8) 4 true

/-- Takes the next waiting driver, in ascending order. -/
def State.diagNext : Nat → State → State
  | 0, s => s
  | k + 1, s =>
    if s.aux.run.isSome then s else
    match s.aux.waiting.min? with
    | none => s
    | some d => (({ s with aux := { s.aux with waiting := s.aux.waiting.filter (· ≠ d) } }).diagStart d).diagNext k

/-- Puts drivers in line for their run, a pre-start run or not. -/
def State.diagQueue (l : List Nat) (pre : Bool) (s : State) : State :=
  let s := s.each l (fun d s => s.wr (xk d 0xB) 0)
  ({ s with aux := { s.aux with
    waiting := (s.aux.waiting ++ l).eraseDups
    pre := s.aux.pre.filter (fun d => !(l.contains d)) ++ (if pre then l else []) } }).diagNext 7

/-- 0x3100 + d .0E (R235). -/
def diagEff (d : Nat) : Eff where
  own s := needs (s.suppliesOk && match s.driverBatch d with
    | some b => s.bstate b == .off
    | none => true) 0x0B0000A0
  eff := State.diagQueue [d] false

def execRunDiagnostic (t : Time) (q : Req) (d : DiagRun) (s : State) : Host.Outcome State Fault Refusal :=
  .next (((s.begin t).senseSupply 2 d.bridge).hostWrite q (0x3100 + d.driver) 0xE 0 1 (diagEff d.driver))

/-- The failing code of step `st` of a reference (Table 11-2), 0 where it passes, and whether the step pulls down. -/
def diagVerdict (ref st v vp vb : Nat) : Nat :=
  let h (x : Nat) : Bool := 8 * vb ≤ 10 * x
  let l (x : Nat) : Bool := 10 * x ≤ 2 * vb
  match ref, st with
  | 1, 1 => if h v then 2 else 0
  | 1, 2 => if l v then 0 else 4
  | 2, 1 => if l v then 3 else 0
  | 2, 2 => if h v then 0 else 4
  | 3, 1 => if h v || h vp then 2 else 0
  | 3, 2 => if l v || l vp then 3 else 0
  | 3, 3 => if 6 * vb < 10 * ((v : Int) - vp) then 4 else 0
  | _, _ => 0

/-- Steps of a reference, and whether a step pulls the driver's own node down. -/
def diagSteps (ref : Nat) : Nat := if ref = 3 then 3 else 2
def pullsDown (ref st : Nat) : Bool := (ref == 1 && st == 1) || (ref == 2 && st == 2) || (ref == 3 && st == 1)

/-- DIAGNOSTIC_STEP (R235): the settle time of a step has passed; `v` and `vp` are the switch nodes of the driver and its partner in mV. -/
def State.diagStep (d v vp bridge : Nat) (s : State) : State :=
  let s := s.senseSupply 2 bridge
  match s.aux.run with
  | none => s
  | some (k, st) =>
    if k ≠ d || s.now < s.aux.since + Time.ms (s.rdN (key 0x3106 4)) then s else
    let ref := s.rdN (xk d 2)
    let s := s.wr (xk d (if pullsDown ref st then 0xC else 0xD)) (v % 65536 : Nat)
    let e := diagVerdict ref st v vp (s.supplyMv 2)
    if !s.suppliesOk then (s.diagEnd d 5).diagNext 7
    else if e ≠ 0 then (s.diagEnd d e).diagNext 7
    else if st < diagSteps ref then { s with aux := { s.aux with run := some (d, st + 1), since := s.now } }
    else (s.diagEnd d 1).diagNext 7

def execDiagnosticStep (t : Time) (d : DriverNo) (v : DiagNode) (vp : Nat) (s : State) : Host.Outcome State Fault Refusal :=
  .next ((s.begin t).diagStep d v.node vp v.bridge)

/-- PD2 goes off: a run has no test currents any longer and ends without a result, and none waits (DESIGN CHOICE, notes/assumptions/117). -/
def State.diagAbandon (s : State) : State :=
  let s := s.each allDrivers (fun d => State.setBit (xk d 8) 4 false)
  { s with aux := { s.aux with run := none, waiting := [] } }

/-- A supply that leaves its range during a diagnostic run ends it with result 0x05, and so the runs that wait (R235). -/
def State.diagWatch (s : State) : State :=
  match s.aux.run with
  | some (d, _) => if s.suppliesOk then s else (s.diagEnd d 5).diagNext 7
  | none => s

/-! ### The supplies' events (R229) -/

/-- VGATE_LOW: below 10.0 V. -/
def State.vgateLow (mv : Nat) (s : State) : State := s.when (mv < 10000) (fun s => (s.supplyFault 1 0 6 mv).diagWatch)
def execVgateLow (t : Time) (mv : Nat) (s : State) : Host.Outcome State Fault Refusal := .next ((s.begin t).vgateLow mv)

/-- VGATE_RECOVERED: above 10.4 V. -/
def State.vgateRecovered (mv : Nat) (s : State) : State := s.when (10400 < mv) (State.supplyStatus 1 0 false mv)
def execVgateRecovered (t : Time) (mv : Nat) (s : State) : Host.Outcome State Fault Refusal := .next ((s.begin t).vgateRecovered mv)

/-- VBRIDGE_OVERVOLTAGE: above 62 V. -/
def State.vbridgeOver (mv : Nat) (s : State) : State := s.when (62000 < mv) (fun s => (s.supplyFault 2 2 7 mv).diagWatch)
def execVbridgeOvervoltage (t : Time) (mv : Nat) (s : State) : Host.Outcome State Fault Refusal := .next ((s.begin t).vbridgeOver mv)

/-- VBRIDGE_OVERVOLTAGE_CLEAR: below 61 V. -/
def State.vbridgeOverClear (mv : Nat) (s : State) : State := s.when (mv < 61000) (State.supplyStatus 2 2 false mv)
def execVbridgeOvervoltageClear (t : Time) (mv : Nat) (s : State) : Host.Outcome State Fault Refusal :=
  .next ((s.begin t).vbridgeOverClear mv)

/-- VBRIDGE_LOW: below 12 V, status only. -/
def State.vbridgeLow (mv : Nat) (s : State) : State := s.when (mv < 12000) (fun s => (s.supplyStatus 2 1 true mv).diagWatch)
def execVbridgeLow (t : Time) (mv : Nat) (s : State) : Host.Outcome State Fault Refusal := .next ((s.begin t).vbridgeLow mv)

/-- VBRIDGE_LOW_CLEAR: above 12.5 V. -/
def State.vbridgeLowClear (mv : Nat) (s : State) : State := s.when (12500 < mv) (State.supplyStatus 2 1 false mv)
def execVbridgeLowClear (t : Time) (mv : Nat) (s : State) : Host.Outcome State Fault Refusal := .next ((s.begin t).vbridgeLowClear mv)

/-- The drivers of a batch whose pre-start run is asked for on entering Precharge (R236). -/
def State.prestartDrivers (b : Nat) (s : State) : List Nat :=
  if s.rdB (key 0x3106 5) then (s.driversOf b).filter (fun d => s.rdN (xk d 2) != 0) else []

/-- On entering Precharge: the runs start. -/
def State.prestart (b : Nat) (s : State) : State :=
  let l := s.prestartDrivers b
  if l.isEmpty then s else s.diagQueue l true

/-- Whether every pre-start run has passed: none waits or is in progress. -/
def State.prestartOk (b : Nat) (s : State) : Bool :=
  (s.prestartDrivers b).all (fun d => s.rdN (xk d 0xB) == 1 && !(s.aux.waiting.contains d) && (s.aux.run.map (·.1)) != some d)

end Sys2Proof.Machine
end

