-- ==== Sys2Proof/Machine/Cycle.lean ====
section
/-! DEFINITION. The batch cycle from its inputs to its commit (R12 to R16, R60 to R66, R79, R81, R84 to R86, R145, R183, R188,
R305). -/

namespace Sys2Proof.Machine

/-! ### Inputs -/

/-- Whether node n's telemetry is lost: not enumerated, or nothing received within the node timeout of its link (R16, R220). -/
def State.nodeLost (n : Nat) (s : State) : Bool :=
  let k := s.rdN (ndk n 1)
  s.rdN (ndk n 5) != 2 ||
  match Tbl.find? n s.links.heard with
  | none => true
  | some t => t + Time.us (s.rdN (key (0x3700 + k) 0xA)) < s.now

/-- The value that an operand of a class outside the cycle's own scratch gives at the inputs-ready instant (Table 05-5); `latch` holds the
fast-tap values for t0. -/
def State.inputVal (r : Recipe) (latch : Tbl Int) (op : Nat) (s : State) : Int :=
  let x := op % 4096
  match op / 4096 with
  | 0x1 => Tbl.get 0 x latch
  | 0x2 => s.rd (ck x 0x17)
  | 0x3 =>
    let n := r.nodes.getD (x / 4) 0
    if x % 4 = 3 then signed 16 (s.rdN (ndk n 0x11)) else s.rd (ndk n (0xE + x % 4))
  | 0x4 => Tbl.get 0 (x % 128) (s.batch (x / 128)).pub
  | 0x8 =>
    let o := 0x5100 + x / 64
    match x % 4 with
    | 0 => s.rd (key o 8)
    | 1 => s.rd (key o 9)
    | 2 => sat16 (rne (s.rd (key o 0xA)) 2)
    | _ => s.rd (key o 0xB)
  | 0x9 => s.rd (ck (x / 16) (0x1D + x % 16 % 3))
  | 0xA => (fofRat (s.fOf x)).toNat
  | _ => 0

/-- The operand codes of a recipe that are latched. -/
def Recipe.latched (r : Recipe) : List Nat :=
  (r.blocks.flatMap (·.opnds)).filter (fun o => [1, 2, 3, 4, 8, 9, 10].contains (o / 4096)) |>.eraseDups

def State.latchInputs (r : Recipe) (latch : Tbl Int) (s : State) : Tbl Int := r.latched.foldl (fun t o => Tbl.set o (s.inputVal r latch o) t) []

/-! ### Feedback supervision (R85, R86) -/

/-- The chains of a role that report loss, that show a freeze, and the nodes of the role whose telemetry is lost. A node of the resource
table whose flags are 0 counts as marked other: R85 does not say (DESIGN CHOICE, notes/assumptions/109). -/
def State.lostOf (r : Recipe) (role : Nat) (s : State) : List Nat :=
  (r.marked role).filter (fun c => s.bit (ck c 0x18) 0)
  ++ (((r.res.filter (fun e => e.ty == 2 && e.flags == role)).map (·.num)).filter (fun n => s.nodeLost n)).map (· + 0x8000)
def State.frozenOf (b : Nat) (r : Recipe) (role : Nat) (s : State) : List Nat := (r.marked role).filter (fun c => s.frozen b c)

/-- Whether a freeze or loss lasts that keeps the outputs from being enabled (R86, item 5). -/
def State.feedbackBad (b : Nat) (s : State) : Bool := s.rdN (bk 0x12 5 b) &&& 0x2F != 0

/-- The states of R86, item 2. -/
def BatchState.ridesOpen : BatchState → Bool
  | .connected | .islanded | .currentLimited | .coast | .resync | .blackStart => true
  | _ => false

/-- The open-loop ride ends (R86); one that a block of another source ends is not counted at .0A (DESIGN CHOICE, notes/assumptions/109). -/
def State.endRide (b : Nat) (s : State) : State := s.setBit (bk 0x12 5 b) 4 false

/-- The marks that supervision raises anew: `first` is the chain of the event (R86). The kind byte of event 0x0104 is the mask of the
status bits that were raised: no table gives its codes (DESIGN CHOICE, notes/assumptions/109). -/
def State.superviseMarks (b new raised first : Nat) (s : State) : State :=
  let k := bk 0x12 5 b
  let s := s.wr k (new + (s.rdN k &&& 0x50) : Nat)
  if raised = 0 then s else
    let s := s.wr (bk 0x12 6 b) first
    let s := if raised % 4 ≠ 0 then s.inc (bk 0x12 7 b) else s
    let s := if raised / 4 % 4 ≠ 0 then s.inc (bk 0x12 8 b) else s
    s.logEvent 0x0104 b (d16 first ++ d8 raised)

/-- What the loss of current or of voltage feedback does while the outputs are on (R86, items 1 and 2). -/
def State.superviseLoss (b : Nat) (cur volt : Bool) (s : State) : State :=
  let k := bk 0x12 5 b
  if cur then
    let s := if s.bit k 4 then (s.endRide b).inc (bk 0x12 0xA b) else s
    s.blockBatch b 16 []
  else if volt then
    if (s.kind b == 1 || s.kind b == 2) && (s.bstate b).ridesOpen then
      if s.bit k 4 then s
      else ((s.setBit k 4 true).inc (bk 0x12 9 b)).modBatch b (fun x => { x with openSince := s.now })
    else s.blockBatch b 16 []
  else s

/-- FEEDBACK_SUPERVISION (R86). Of several conditions .06 names the first in the order current lost, current frozen, voltage lost, voltage
frozen, other, and each raised event rewrites it: Table 04-7 does not say (DESIGN CHOICE, notes/assumptions/109). -/
def State.supervise (b : Nat) (r : Recipe) (s : State) : State :=
  let cl := s.lostOf r 1
  let cf := s.frozenOf b r 1
  let vl := s.lostOf r 2
  let vf := s.frozenOf b r 2
  let ot := s.lostOf r 0 ++ s.frozenOf b r 0
  let old := s.rdN (bk 0x12 5 b)
  let new := b2n (!cl.isEmpty) + 2 * b2n (!cf.isEmpty) + 4 * b2n (!vl.isEmpty) + 8 * b2n (!vf.isEmpty) + 32 * b2n (!ot.isEmpty)
  -- further feedback of the kind `other` that fails counts as raised too: it asks for the reaction again (item 4)
  let more := ot.any (fun x => !((s.batch b).others.contains x))
  let raised := (List.range 6).foldl (fun m i => if new.testBit i && (!(old.testBit i) || (i == 5 && more)) then m + 2 ^ i else m) 0
  let s := s.modBatch b (fun x => { x with others := ot })
  let s := s.superviseMarks b new raised (((cl ++ cf ++ vl ++ vf ++ ot).head?).getD 0xFFFF)
  if !(s.batch b).outOn then
    -- outputs that a commit was to enable wait for another one (R86, item 5)
    (s.endRide b).modBatch b (fun x => if new ≠ 0 && x.outDue.isSome then { x with outDue := none, seeded := true } else x)
  else
    let s := s.superviseLoss b (!(cl.isEmpty && cf.isEmpty)) (!(vl.isEmpty && vf.isEmpty))
    if raised.testBit 5 then s.demand b 3 else s

/-- Whether every voltage chain has been clean for the programmed number of samples (R86); a voltage node that is back has no count (DESIGN
CHOICE, notes/assumptions/109). -/
def State.voltageClean (b : Nat) (r : Recipe) (s : State) : Bool :=
  (r.marked 2).all (fun c => s.rdN (bk 0x12 4 b) ≤ Tbl.get 0 (b * 128 + c) s.meas.clean && !(s.bit (ck c 0x18) 0))
  && (s.lostOf r 2).isEmpty

/-- OPEN_LOOP_TIMEOUT (R86, item 2): the open-loop time has run out before the voltage chains have been clean long enough. -/
def State.openLoopTimeout (b : Nat) (s : State) : State :=
  let clean := ((s.recipe b).map (s.voltageClean b)).getD false
  if s.bit (bk 0x12 5 b) 4 && !clean && (s.batch b).openSince + Time.ms (s.rdN (bk 0x12 3 b)) ≤ s.now then
    ((s.endRide b).inc (bk 0x12 0xA b)).blockBatch b 32 []
  else s

def execOpenLoopTimeout (t : Time) (b : Batch) (s : State) : Host.Outcome State Fault Refusal := .next ((s.begin t).openLoopTimeout b)

/-- The working values that an evaluation of the recipe on the inputs of this instant gives. -/
def State.presentWork (b : Nat) (r : Recipe) (s : State) : Work :=
  let cy : Cycle := { t0 := s.now, inp := s.latchInputs r (r.chains.map (fun c => (c, s.rd (ck c 0x16)))) }
  (List.range r.items.length).foldl (fun w n => s.runItem b n r { cy with work := w }) ({} : Work)

/-- LOOP_RECLOSE (R86): the loop closes at a t0; the slots of the voltage loop restart with s1 = s2 = 0 and x1 equal to their present
input. -/
def State.reclose (b : Nat) (s : State) : State :=
  match s.recipe b with
  | none => s
  | some r =>
    if s.bit (bk 0x12 5 b) 4 && s.voltageClean b r then
      let w := s.presentWork b r
      let s := s.endRide b
      s.each r.slots (fun sl s =>
        if r.roleOf sl != 2 then s
        else if sl < 1024 then
          let f := s.fx sl
          let x := ((Tbl.find? sl w.fx).map (·.x1)).getD f.st.x1
          s.setFx sl { f with st := { f.st with s1 := 0, s2 := 0, x1 := x } }
        else
          let f := s.fl (sl - 1024)
          let x := ((Tbl.find? (sl - 1024) w.fl).map (·.x1)).getD f.st.x1
          s.setFl (sl - 1024) { f with st := { f.st with s := (f.st.s.set 1 0).set 2 0, x1 := x } })
    else s

def execLoopReclose (t : Time) (b : Batch) (s : State) : Host.Outcome State Fault Refusal := .next ((s.begin t).reclose b)

/-! ### Following errors (R84) -/

/-- Whether a slot of batch b shows a following-error alarm (0x12 .05 bit 6). -/
def State.feAlarms (b : Nat) (s : State) : Bool :=
  (s.slotsOf b).any (fun sl => if sl < 1024 then (s.fx sl).st.feAlarm else (s.fl (sl - 1024)).st.feAlarm)
def State.syncAlarm (b : Nat) (s : State) : State := s.setBit (bk 0x12 5 b) 6 (s.feAlarms b)

/-- The count after a tick (R84). -/
def feCount (n limit : Nat) (exceeded held : Bool) : Nat := if held then n else if exceeded then min limit (n + 1) else n - 1

/-- FOLLOWING_ERROR_TICK (R84) on slot `sl`, once its 2^P committed cycles have passed; an alarm that sets demands the reaction of its
batch. While L disables the supervisor, count and alarm stay as they are: R84 does not say (DESIGN CHOICE, notes/assumptions/109). -/
def State.feTick (sl : Nat) (s : State) : State :=
  let o := if sl < 1024 then 0x6000 + sl else 0x6400 + (sl - 1024)
  let b := s.slotOwner sl
  let t := s.rdN (key o 0xC)
  let hold := s.rdB (key o 0xE)
  let per := 2 ^ s.rdN (key o 0xD)
  let alarmed (n : Nat) (was : Bool) (cnt : Nat) (s : State) : State :=
    if t ≤ n && !was then (s.inc (key o cnt)).demand b 2 else s
  if sl < 1024 then
    let f := s.fx sl
    if f.ticks < per then s else
    let s := s.setFx sl { f with ticks := 0, exceeded := false, sat := false }
    if s.rd (key o 0xB) = 0x7FFF then s else
    let n := feCount f.st.feCount t f.exceeded (hold && f.sat)
    let al := t ≤ n || (f.st.feAlarm && n ≠ 0)
    let s := s.setFx sl { (s.fx sl) with st := { f.st with feCount := n, feAlarm := al } }
    (alarmed n f.st.feAlarm 0x20 s).syncAlarm b
  else
    let i := sl - 1024
    let f := s.fl i
    if f.ticks < per then s else
    let s := s.setFl i { f with ticks := 0, exceeded := false, sat := false }
    if s.rdN (key o 0xB) = 0x7F7FFFFF then s else
    let n := feCount f.st.feCount t f.exceeded (hold && f.sat)
    let al := t ≤ n || (f.st.feAlarm && n ≠ 0)
    let s := s.setFl i { (s.fl i) with st := { f.st with feCount := n, feAlarm := al } }
    (alarmed n f.st.feAlarm 0x3C s).syncAlarm b

def execFollowingErrorTick (t : Time) (sl : SlotNo) (s : State) : Host.Outcome State Fault Refusal :=
  let s := (s.begin t).feTick sl
  .next (let b := s.slotOwner sl; if b < 32 then s.faultReaction b else s)

/-! ### Commit -/

/-- One fixed slot's record commits, with its counters, marks and following-error accumulation (R81, R84); a withdrawn cycle counts as
saturated (R144). The overflow count rises by one per committed cycle with an overflow: Table 04-4 gives its unit as counts; that choice and
a tick whose P or L is written meanwhile are the model's (DESIGN CHOICE, notes/assumptions/109). -/
def State.commitFixed (r : Recipe) (w : Work) (i : Nat) (f : FixedState) (s : State) : State :=
  let o := 0x6000 + i
  let old := s.fx i
  let sat := f.satHigh || f.satLow
  let ovf := w.ovf.contains i
  let s := if sat then s.inc (key o 9) else s
  let s := if ovf then s.inc (key o 0xA) else s
  let loop_ := r.roleOf i != 0
  let s := if loop_ && 2 ^ s.rdN (key o 0xD) ≤ old.ticks then s.feTick i else s
  let old := s.fx i
  let st := { f with feCount := old.st.feCount, feAlarm := old.st.feAlarm, bankB := old.st.bankB }
  let big : Bool := s.rd (key o 0xB) < f.x1.natAbs && !(w.noErr.contains i)
  let s := s.setFx i { old with
    st := st, held := w.held.contains i, ovf := ovf
    ticks := if loop_ then old.ticks + 1 else 0
    exceeded := loop_ && (old.exceeded || big), sat := loop_ && (old.sat || sat || w.held.contains i) }
  if loop_ && 2 ^ s.rdN (key o 0xD) ≤ (s.fx i).ticks then s.feTick i else s

/-- One float slot's record commits. The float saturation count rises by one per committed cycle in which the slot saturated, conversions
included: Table 04-5 gives its unit as counts (DESIGN CHOICE, notes/assumptions/109). -/
def State.commitFloat (r : Recipe) (w : Work) (i : Nat) (f : FloatState) (s : State) : State :=
  let o := 0x6400 + i
  let sat := f.sat || w.fsat.contains i || w.cvSat.contains i
  let s := if sat then s.inc (key o 9) else s
  let loop_ := r.roleOf (1024 + i) != 0
  let old := s.fl i
  let st := { f with sat := sat, feCount := old.st.feCount, feAlarm := old.st.feAlarm, bankB := old.st.bankB }
  let s := s.setFl i { old with
    st := st, nan := false, held := w.held.contains (1024 + i)
    ticks := if loop_ then old.ticks + 1 else 0
    exceeded := loop_ && (old.exceeded || flt (s.rdF (key o 0xB)) (fabs f.x1)), sat := loop_ && (old.sat || sat) }
  if loop_ && 2 ^ s.rdN (key o 0xD) ≤ (s.fl i).ticks then s.feTick (1024 + i) else s

/-- State s_j of a float slot as committed. -/
def State.sOf (i j : Nat) (s : State) : F32 := (s.fl i).st.s.getD j 0

/-- The measurements of Table 06-9 and the machine's entries (Tables 06-8, 06-12, 07-4), from the committed slots. -/
def State.measurements (b : Nat) (r : Recipe) (w : Work) (s : State) : State :=
  let fn : Rat := (s.fn b : Nat)
  let g := s.rdN (bk 5 6 b)
  let rmsOk := g < 80 && s.bit (ck g 0x20) 1
  let fOk := g < 80 && !(s.trackLost g)
  let s := match r.flSlot 0x50 with
    | some i => (s.wrF (bk 0xF 1 b) (s.sOf i 0)).wrF (bk 0xF 2 b) (s.sOf i 1)
    | none => s
  let pcc := if g < 80 then s.chainPu b g else 0
  let s := s.wrF (bk 0xF 3 b) pcc
  let s := match w.negV with
    | some v =>
      let s := (s.wrF (bk 0xF 4 b) v).wrF (bk 0x16 4 b) w.negMag
      let s := if fval pcc = 0 then s else s.wrF (bk 0x16 3 b) (fofRat (fval v / fval pcc * 100))
      if w.negLimit then s.inc (bk 0x16 5 b) else s
    | none => s
  let s := s.wrF (bk 0xF 5 b) (if g < 80 then fofRat (s.fOf g) else 0)
  let s := match r.flSlot 0x60, (r.byCode 0x60).head? with
    | some i, some v =>
      let s := (s.wrF (bk 0xF 6 b) (fofRat (fval (s.sOf i 2) * fn))).wrF (bk 0xF 7 b) (s.sOf i 1)
      let s := (s.wr (bk 6 6 b) (s.fx v.param).st.x1).wrF (bk 6 7 b) (fofRat (fn * (1 + fval (s.sOf i 0))))
      (s.wrF (bk 6 8 b) (s.sOf i 3)).inc (bk 6 9 b) w.clamps
    | _, _ => s
  let s := s.wr (bk 0xF 8 b) (b2n (r.flSlot 0x50).isSome + 2 * b2n rmsOk + 4 * b2n w.negV.isSome + 8 * b2n fOk : Nat)
  let s := match w.effR, w.effX with
    | some x, some y => (s.wrF (bk 8 4 b) x).wrF (bk 8 5 b) y
    | _, _ => s
  let s := match r.flSlot 0x63 with
    | some i => s.wrF (bk 8 6 b) (s.sOf i 0)
    | none => s
  let s := match r.flSlot 0x64 with
    | some i => s.wrF (bk 9 0xA b) (s.sOf i 0)
    | none => s
  let s := match r.flSlot 0x65 with
    | some i => s.wrF (bk 9 0xB b) (s.sOf i 0)
    | none => s
  let s := if w.lim then s.inc (bk 9 0xF b) else s
  s.wr (bk 9 0xC b) (b2n w.added + 2 * b2n w.lim + (s.rdN (bk 9 0xC b) &&& 4) + 8 * b2n w.ceiling + 16 * b2n w.dip : Nat)

/-- Whether the present segment is the batch's on segment (R131). -/
def State.onSegment (b : Nat) (s : State) : Bool :=
  let np := max 1 (s.rdN (bk 0x10 4 b))
  s.segment b s.tai % np == s.rdN (bk 0x10 5 b)

/-- The estimator's entries and the raw estimates of the islanding criterion (R132, R133, R135). -/
def State.estimatorEntries (b : Nat) (w : Work) (s : State) : State :=
  if w.est.isNone then s else
  let s := if w.onSnap then s.modBatch b (fun x => { x with swapsAtOn := s.rdN (bk 0x14 7 b), onConnected := s.bstate b == .connected }) else s
  let s := match w.estRX with
    | some (rg, xg, scr) =>
      if w.estAccept then
        ((((s.wrF (bk 0x10 0x12 b) rg).wrF (bk 0x10 0x13 b) xg).wrF (bk 0x10 0x14 b) scr).inc (bk 0x10 0x16 b)).wr (bk 0x10 0x18 b) s.tai
      else s
    | none => s
  let s := if w.estReject then s.inc (bk 0x10 0x17 b) else s
  let s := match w.estRaw with
    | none => s
    | some z =>
      let th := s.rdF (bk 0x15 3 b)
      let lowT := (fmulR th (s.rdF (bk 0x15 4 b))).v
      s.modBatch b (fun x => { x with
        impOver := if flt th z then x.impOver + 1 else 0, impUnder := if flt z lowT then x.impUnder + 1 else 0 })
  let en := s.rdB (bk 0x10 1 b)
  let seg := s.segment b s.tai * (s.rdN (bk 0x10 3 b) * 1000000)
  let may := s.mayInject b seg
  let valid := s.bit (bk 0x10 0x15 b) 1 || w.estAccept
  s.wr (bk 0x10 0x15 b) (b2n (may && s.onSegment b) + 2 * b2n valid
    + 4 * b2n (s.rdB (bk 0x10 8 b) && s.bstate b == .connected && valid) + 8 * b2n (en && !may) : Nat)

/-- What the limiter did in a committed cycle (R145, R169). -/
def State.limiterRun (b : Nat) (w : Work) (s : State) : State :=
  let s := s.modBatch b (fun x => { x with engaged := w.engaged, released := if w.engaged then 0 else x.released + 1 })
  let s := if s.bstate b == .currentLimited && w.ceiling && !(s.batch b).ceilSeen then
      (s.modBatch b (fun x => { x with ceilSeen := true })).demand b 7
    else s
  let st := bk 0xB 0x11 b
  if (s.batch b).bsRunning then
    if w.engaged && s.rdB (bk 0xB 0xF b) then (s.withGen b 3 State.rampHold).setBit st 6 true
    else if s.bit st 6 && s.rdN (bk 9 6 b) ≤ (s.batch b).released then
      (s.withGen b 3 (fun g s => s.rampRelease g (if (s.batch b).stopping then 0 else s.rdF (bk 0xE 4 b)))).setBit st 6 false
    else s
  else s

/-- The slot state records of a batch (R81, R305). -/
def fixedBytes (f : FixedState) : List Byte :=
  leBytes 5 (unsigned 40 f.s1) ++ leBytes 5 (unsigned 40 f.s2) ++ d16 (unsigned 16 f.y) ++ d16 (unsigned 16 f.x1)
  ++ d16 (f.feCount % 4096 + 4096 * b2n f.satHigh + 8192 * b2n f.satLow + 16384 * b2n f.feAlarm + 32768 * b2n f.bankB)
def floatBytes (f : FloatState) : List Byte :=
  ((List.range 12).flatMap (fun j => df (f.s.getD j 0))) ++ df f.y ++ df f.x1
  ++ d16 (f.feCount % 4096 + 4096 * b2n f.sat + 16384 * b2n f.feAlarm + 32768 * b2n f.bankB) ++ leBytes 6 0

/-- STATE_COPY_SEND (R305): the active twin sends the cycle's state copy; of a cycle that runs across a planned handover the module that was
active (R313). -/
def State.stateCopySend (b : Nat) (r : Recipe) (t0 : Time) (stopped : Bool) (s : State) : State :=
  if !(s.copiesOut ((t0 : Int) + s.clock.offset).toNat) then s else
  let fx := r.fixedSlots
  let fl := r.floatSlots
  let flags := b2n stopped + 2 * b2n (s.bit (bk 0x12 5 b) 4) + 4 * b2n (s.damping b)
  let head := d8 b ++ d8 (s.bstate b).code ++ d16 fx.length ++ d8 fl.length ++ d8 r.gens.length ++ d16 flags
    ++ d64 (Time.toNs ((t0 : Int) + s.clock.offset).toNat)
  s.msg "STATE_COPY" [b] (head ++ fx.flatMap (fun i => fixedBytes (s.fx i).st) ++ fl.flatMap (fun i => floatBytes (s.fl i).st)
    ++ r.gens.flatMap (fun g => df (s.rdF (genX g)) ++ df (s.rdF (genV g)) ++ df (s.rdF (genA g)) ++ df (s.gen g).target))

/-- Whether the module may enable outputs: it is Running and its store is not low (R158, R328). -/
def State.mayEnable (s : State) : Bool := s.mod == .running && !(s.bit (key 0x2110 0xF) 1)

/-- Committed duties go to staging with the update instant at which they take effect; a seeded batch's first commit sets the
instant at which its outputs are enabled (R13, R164, R183). -/
def State.commitDuties (b : Nat) (t0 : Time) (w : Work) (s : State) : State :=
  let due := t0 + s.effSteps b
  let s := s.each w.duty (fun (e : Nat × Int) s => s.setChan e.1 { (s.chan e.1) with staging := e.2, vDuty := e.2 })
  let s := s.modBatch b (fun x => { x with loads := x.loads ++ [(due, w.duty)] })
  let r := s.batch b
  if r.seeded && r.outDue.isNone && !r.outOn && (s.bstate b).running && s.mayEnable && !(s.feedbackBad b) then
    s.setBatch b { r with outDue := some due, seeded := false }
  else s

/-- The NaN mark of a float slot says what its batch's latest cycle did (Table 04-5 .08): the marks of the cycle before clear as one ends. -/
def State.clearNan (b : Nat) (s : State) : State :=
  match s.recipe b with
  | none => s
  | some r => s.each (r.floatSlots.filter (fun i => (s.fl i).nan)) (fun i s => s.setFl i { (s.fl i) with nan := false })

/-- CYCLE_COMMIT (R13): slot states commit, cross-batch signals publish, results enter staging or the edge buffer. -/
def State.commit (b : Nat) (r : Recipe) (c : Cycle) (s : State) : State :=
  let w := c.work
  let el := Time.toNs (s.now - c.t0)
  let dl := c.t0 + 32 * s.cycleOf b - Time.ns (s.lead b)
  let slack : Int := ((dl : Int) - s.now) * 5 / 64
  let s := (s.inc (bk 0x13 1 b)).wr (bk 0x13 3 b) 0
  let s := match s.servingQueue b with
    | some q => s.wr (key (0x6500 + q) 0xE) (Time.toNs (s.now - c.started.getD s.now))
    | none => s
  let s := if s.rdN (bk 0x13 6 b) < el then s.wr (bk 0x13 6 b) el else s
  let s := if !(s.batch b).slackSeen || slack < s.rd (bk 0x13 7 b) then s.wr (bk 0x13 7 b) slack else s
  let s := s.modBatch b (fun x => { x with slackSeen := true, cyc := none, pub := r.publications.foldl (fun t e => Tbl.set e.flags (Tbl.get 0 e.num w.sig) t) w.pub })
  let s := s.each (r.published b) (fun (e : Nat × STy) s =>
    let v := Tbl.get 0 e.1 (s.batch b).pub
    let sel := b * 128 + e.1
    if e.2 == .f then s.acqFloat 5 sel (BitVec.ofNat 32 v.toNat) s.modTime else s.acqValue 5 sel v s.modTime)
  let s := s.clearNan b
  let s := s.each w.fx (fun (e : Nat × FixedState) s => s.commitFixed r w e.1 e.2)
  let s := s.each w.fl (fun (e : Nat × FloatState) s => s.commitFloat r w e.1 e.2)
  let s := ((s.measurements b r w).estimatorEntries b w).limiterRun b w
  let s := (s.commitDuties b c.t0 w).sealEdges b c.t0
  (s.faultReaction b).stateCopySend b r c.t0 false

/-- CYCLE_ABANDON (R14, R66): the running item stops, the cycle's items are removed, nothing commits; the window is evaluated with the
shadow unchanged (R188). -/
def State.dropCycle (b : Nat) (s : State) : State :=
  match (s.batch b).cyc with
  | none => s
  | some c =>
    let s := match c.lane with
      | some l => s.modLane l (fun x => { x with item := none })
      | none => s
    let s := s.modBatch b (fun x => { x with cyc := none })
    let s := (s.clearNan b).sealEdges b c.t0
    match s.recipe b with
    | some r => s.stateCopySend b r c.t0 true
    | none => s

/-- A deadline miss (R14): counted; the third in a row, and each one after it, blocks. -/
def State.miss (b : Nat) (s : State) : State :=
  match (s.batch b).cyc with
  | none => s
  | some c =>
    let s := s.dropCycle b
    let n := s.rdN (bk 0x13 3 b) + 1
    let s := ((s.inc (bk 0x13 2 b)).wr (bk 0x13 3 b) (min 3 n)).wr (bk 0x13 5 b) (Time.toNs ((c.t0 : Int) + s.clock.offset).toNat)
    if 3 ≤ n then (if n = 3 || (s.bstate b).running then s.inc (bk 0x13 8 b) else s).blockBatch b 4 [] else s

/-- DEADLINE (R66). -/
def State.deadline (b : Nat) (s : State) : State :=
  match (s.batch b).cyc with
  | none => s
  | some c => if c.t0 + 32 * s.cycleOf b ≤ s.now + Time.ns (s.lead b) then s.miss b else s

def execDeadline (t : Time) (b : Batch) (s : State) : Host.Outcome State Fault Refusal := .next ((s.begin t).deadline b).dispatch

/-- SLOT_FAULT (R79): the cycle stops; no miss; the slot's counter and status, event 0x0103, the reaction of the source. -/
def State.slotFault (b i : Nat) (s : State) : State :=
  match (s.batch b).cyc with
  | none => s
  | some _ =>
    let s := s.dropCycle b
    let s := (s.inc (bk 0x13 4 b)).inc (key (0x6400 + i) 0xA)
    let s := s.setFl i { (s.fl i) with nan := true }
    let s := s.logEvent 0x0103 b (d16 (1024 + i))
    (s.demand b 1).faultReaction b

def execSlotFault (t : Time) (b : Batch) (fs : FloatSlotNo) (s : State) : Host.Outcome State Fault Refusal :=
  .next ((s.begin t).slotFault b fs).dispatch

/-! ### Items -/

/-- INPUTS_READY (R60): feedback is supervised, the inputs are latched, the first item becomes eligible. -/
def State.inputsReady (b : Nat) (s : State) : State :=
  match (s.batch b).cyc, s.recipe b with
  | some c, some r =>
    if c.ready || s.now < c.t0 + Time.ns (s.rdN (bk 4 0x10 b)) then s else
    let s := (s.supervise b r).faultReaction b
    let age := r.nodes.foldl (fun m n => max m (Time.toNs (c.t0 - Tbl.get 0 n s.links.sampled))) 0
    let s := s.wr (bk 4 0x14 b) (min 1000000 age)
    s.modBatch b (fun x => { x with cyc := some { c with ready := true, eligibleAt := s.now, inp := s.latchInputs r c.latch } })
  | _, _ => s

def execInputsReady (t : Time) (b : Batch) (s : State) : Host.Outcome State Fault Refusal := .next ((s.begin t).inputsReady b).dispatch

/-- ITEM_COMPLETE (R61): the lane's item has run, the results that its raw-input blocks read count as read (R25, R111), and its full-range
saturations are counted whatever becomes of the cycle (R107); a NaN stops the cycle; the last item commits it. -/
def State.itemComplete (l : Nat) (s : State) : State :=
  match (s.lane l).item with
  | none => s
  | some b =>
    let s := s.modLane l (fun x => { x with item := none })
    match (s.batch b).cyc, s.recipe b with
    | some c, some r =>
      let w := s.runItem b c.next r c
      let s := s.each w.rawReads (fun (e : Nat × Nat) s => s.readResult e.1 e.2)
      let s := s.inc (key (0x8000 + b) 0xD) w.fullSat
      let w := { w with rawReads := [], fullSat := 0 }
      match w.nan with
      | some i => (s.modBatch b (fun x => { x with cyc := some { c with lane := none } })).slotFault b i
      | none =>
        let c := { c with work := w, next := c.next + 1, lane := none, eligibleAt := s.now }
        if c.next < c.items then s.modBatch b (fun x => { x with cyc := some c }) else s.commit b r c
    | _, _ => s

def execItemComplete (t : Time) (l : Lane) (s : State) : Host.Outcome State Fault Refusal := .next ((s.begin t).itemComplete l).dispatch

end Sys2Proof.Machine
end

