-- ==== Sys2Proof/Machine/Starter.lean ====
section
/-! DEFINITION. Starting a batch (R157 to R169): Precharge, the Starter's windows and outcomes, seeding, black start. -/

namespace Sys2Proof.Machine

/-! ### Measured quantities -/

/-- The bus chains of batch b: chain a only for kind 2 (R158, R159). -/
def State.busChains (b : Nat) (s : State) : List Nat :=
  if s.kind b == 2 then [s.rdN (bk 0xB 1 b)] else [s.rdN (bk 0xB 1 b), s.rdN (bk 0xB 2 b), s.rdN (bk 0xB 3 b)]

/-- Whether a chain's RMS is valid, and its value in pu. -/
def State.rmsValid (c : Nat) (s : State) : Bool := c < 80 && s.bit (ck c 0x20) 1
def State.rmsPu (b c : Nat) (s : State) : Rat := if c < 80 then fval (s.chainPu b c) else 0

/-- The largest bus voltage in pu. -/
def State.busMax (b : Nat) (s : State) : Rat := (s.busChains b).foldl (fun m c => max m (s.rmsPu b c)) 0

/-- The module's instant that a crossing of chain c represents, in fine steps (R37, R38): of the latest accepted one, and of the latest
positive-going one (R160). -/
def State.crossedAt (c : Nat) (s : State) : Option Rat := ((s.chainRec c).tr.accepted).map (fun t => s.instantOf c ((32 * t : Nat) : Rat))
def State.lastCrossing (c : Nat) (s : State) : Option Rat := ((s.chainRec c).tr.crossing).map (fun t => s.instantOf c ((32 * t : Nat) : Rat))

/-- Time as a rational number of seconds. -/
def secs (t : Rat) : Rat := t / 12800000000

/-- The fractional part. -/
def frac (x : Rat) : Rat := x - x.floor

/-! ### Entering states -/

/-- The observation starts anew (R159). -/
def State.newWindow (b : Nat) (s : State) : State :=
  let a := s.rdN (bk 0xB 1 b)
  s.modBatch b (fun r => { r with win := { r.win with start := s.now, accepted := (s.chainRec a).tr.acc, live := true } })

/-- A batch enters Starter (R158): its outputs stay blocked. -/
def State.enterStarter (b cause : Nat) (s : State) : State :=
  let s := (s.setState b .starter cause).inc (bk 0xB 0x16 b)
  let s := s.modBatch b (fun r => { r with outOn := false, outDue := none, seeded := false
                                           win := { sinceEntry := s.now, belowSince := some s.now } })
  (s.newWindow b).wr (bk 0xB 0x11 b) (1 + (s.rdN (bk 0xB 0x11 b) &&& 256) : Nat)

/-- Records a Starter outcome. -/
def State.outcome (b v : Nat) (s : State) : State := s.wr (bk 0xB 0x19 b) v

/-- The batch enters Coast: the P and Q generators hold target 0 (R124). -/
def State.enterCoast (b cause : Nat) (s : State) : State :=
  ((s.setState b .coast cause).withGen b 0 (fun g => State.driveTarget g 0)).withGen b 1 (fun g => State.driveTarget g 0)

/-- The batch enters Resync with a state of entry (R170). -/
def State.enterResync (b : Nat) (entry : BatchState) (cause : Nat) (s : State) : State :=
  let rs := (s.batch b).rs
  let s := s.setState b .resync cause
  let s := s.modBatch b (fun r => { r with rs := { rs with
    entry := entry, since := s.now, heldSince := none, reqSince := none, permittedAtWrite := false, ending := none,
    lostSince := if rs.winResult then none else some s.now } })
  let s := s.wr (bk 0xC 0x14 b) entry.code
  if entry == .coast then (s.withGen b 0 (fun g => State.driveTarget g 0)).withGen b 1 (fun g => State.driveTarget g 0) else s

/-! ### Precharge (R157) -/

/-- 0x4002 .01 = 1 at a t0: Off to Precharge, with the pre-start diagnostics (R236). -/
def State.enterPrecharge (b cause : Nat) (s : State) : State :=
  let s := (s.setState b .precharge cause).modBatch b (fun r => { r with preSince := s.now, dcSince := none })
  let s := s.wr (bk 0xB 0x11 b) 0
  s.prestart b

/-- The DC-link source at this t0: none where none is named (R157). -/
def State.dcLevel (b : Nat) (s : State) : Option Int :=
  let v := s.rdN (bk 0xB 0xA b)
  if v < 80 then some (s.rd (ck v 0x16))
  else if v = 0x8000 then some (((s.batchNodes b).map (fun n => s.rd (ndk n 0xE))).min?.getD 0)
  else none

/-- Since when the DC-link source has stood at its threshold, at a t0, and the live bit that follows (R157, Table 08-6 .11). -/
def State.dcStep (b : Nat) (s : State) : State :=
  match s.dcLevel b with
  | none => s
  | some v =>
    let since := if s.rd (bk 0xB 0xB b) ≤ v then some ((s.batch b).dcSince.getD s.now) else none
    let s := s.modBatch b (fun r => { r with dcSince := since })
    if since.isNone then s.setBit (bk 0xB 0x11 b) 8 false else s

/-- DC_LINK_READY (R157): the source has stood at the threshold for 10 ms and every pre-start run has passed. -/
def State.dcReady (b : Nat) (s : State) : State :=
  if s.bstate b != .precharge then s else
  match s.dcLevel b, (s.batch b).dcSince with
  | none, _ => if s.prestartOk b && (s.batch b).preSince < s.now then s.enterStarter b 1 else s
  | some _, some t =>
    if t + Time.ms 10 ≤ s.now then
      let s := s.setBit (bk 0xB 0x11 b) 8 true
      if s.prestartOk b then s.enterStarter b 1 else s
    else s
  | some _, none => s

def execDcLinkReady (t : Time) (b : Batch) (s : State) : Host.Outcome State Fault Refusal := .next ((s.begin t).dcReady b)

/-- PRECHARGE_TIME_LIMIT (R157): Fault with outcome 0x0A. -/
def State.prechargeLimit (b : Nat) (s : State) : State :=
  if s.bstate b == .precharge && (s.batch b).preSince + Time.ms (s.rdN (bk 0xB 0xC b)) ≤ s.now then
    (s.outcome b 0xA).faultBatch b 0 0x8A
  else s

def execPrechargeTimeLimit (t : Time) (b : Batch) (s : State) : Host.Outcome State Fault Refusal := .next ((s.begin t).prechargeLimit b)

/-- Precharge at a t0. -/
def State.prechargeStep (b : Nat) (s : State) : State := (s.dcReady b).prechargeLimit b

/-! ### Seeding (R162 to R164) -/

/-- What a seeding writes: deviation, angle, voltage, D. -/
structure Seed where
  dw : F32
  th : Int
  v : F32
  d : Int
  deriving DecidableEq, Repr

/-- The seed from the bus (R162). -/
def State.busSeed (b : Nat) (s : State) : Seed :=
  let a := s.rdN (bk 0xB 1 b)
  let f := s.fEst a
  let fn : Rat := (s.fn b : Nat)
  let dw := fofRat ((f - fn) / fn)
  let tc := (s.crossedAt a).getD ((s.now : Nat) : Rat)
  let cs := s.busChains b
  { dw := dw
    th := wrapa (roundRat (32768 * (f * secs (((s.now : Nat) : Rat) - tc) - 1 / 4)))
    v := fofRat ((cs.map (fun c => s.rmsPu b c)).sum / max 1 ((cs.length : Nat) : Rat))
    d := (f32ToQ15 dw).1 }

/-- The seed of a black start (R162): a rotor that has turned at f_n since TAI 0. -/
def State.blackSeed (b : Nat) (s : State) : Seed :=
  let x := frac (((s.fn b : Nat) : Rat) * ((s.tai % 1000000000 : Nat) : Rat) / 1000000000)
  { dw := 0, th := wrapa (roundRat (32768 * x)), v := 0, d := 0 }

/-- The seeded fixed and float records of one slot that no rule names. -/
def seedPlainFx (f : FixedState) : FixedState := { f with s1 := 0, s2 := 0, y := 0, x1 := 0, feCount := 0 }

/-- Whether a rate limiter's operand is an estimator's Δ output. -/
def Recipe.onDelta (r : Recipe) (k : Block) : Bool :=
  (r.byCode 0x51).any (fun e => k.opnds.getD 0 0xFFFF == e.outSig + 1)

/-- Seeds the slots of one block (Table 08-1). -/
def State.seedBlock (r : Recipe) (b : Nat) (z : Seed) (k : Block) (s : State) : State :=
  let i := k.slot
  let fi := i - 1024
  let setF (n : Nat) (f : FixedState → FixedState) (s : State) : State := s.setFx n { (s.fx n) with st := f (s.fx n).st }
  let setL (n : Nat) (l : List (Nat × F32)) (s : State) : State :=
    let f := s.fl n
    let s0 := f.st.s ++ List.replicate (12 - f.st.s.length) 0
    s.setFl n { f with st := { f.st with s := l.foldl (fun a e => a.set e.1 e.2) s0 } }
  let angle : Int := (z.th * 32768) % 2 ^ 30
  let vc := roundRat (fval z.v * 32768 / s.vF b)
  let al := sat16 (rne (vc * cosq z.th) 15)
  let be := sat16 (rne (vc * sinq z.th) 15)
  match k.code with
  | 0x60 =>
    let hs : F32 := match r.flSlot 0x63 with
      | some e => let h := s.sOf e 1; if h = 0 then f1 else h
      | none => f1
    let h0 := (fmulR (s.coef fi 0) hs).v
    setF k.param (fun f => { f with s1 := angle }) (setL fi [(0, z.dw), (1, h0), (2, 0), (3, z.v)] s)
  | 0x51 =>
    setF (i + 1) (fun f => { f with s1 := angle }) (setF i (fun f => { f with s1 := widen z.d, y := z.d }) s)
  | 0x41 =>
    if r.onDelta k then setF i (fun f => { (seedPlainFx f) with y := z.d }) s else setF i seedPlainFx s
  | 0x14 =>
    setF (i + 1) (fun f => { f with s1 := widen be, s2 := widen (-al) }) (setF i (fun f => { f with s1 := widen al, s2 := widen be }) s)
  | 0x64 => setL fi [(0, 0)] s
  | 0x65 => setL fi [(0, 0), (1, 0)] s
  | 0x66 => setL fi [(0, z.v), (1, z.v), (2, 0)] s
  | 0x50 => setL fi [(0, 0), (1, 0)] s
  | 0x63 => setL fi [(6, 0)] s
  | _ =>
    s.each (r.slotsOf k) (fun sl s =>
      if sl < 1024 then s.setFx sl { (s.fx sl) with st := seedPlainFx (s.fx sl).st }
      else
        let f := s.fl (sl - 1024)
        s.setFl (sl - 1024) { f with st := { f.st with s := [], y := 0, x1 := 0, feCount := 0 } })

/-- SEEDING (R162 to R164): committed slot state and presets; the first commit then sets when the outputs are enabled. -/
def State.seed (b : Nat) (z : Seed) (s : State) : State :=
  let s := match s.recipe b with
    | some r => s.each r.blocks (State.seedBlock r b z)
    | none => s
  let s := (s.withGen b 0 (fun g => State.presetTo g 0)).withGen b 1 (fun g => State.presetTo g 0)
  let s := (s.withGen b 2 (fun g => State.presetTo g z.dw)).withGen b 3 (fun g => State.presetTo g z.v)
  let s := (s.wr (bk 0xB 0x13 b) z.th).wrF (bk 0xB 0x14 b) (fofRat (((s.fn b : Nat) : Rat) * (1 + fval z.dw)))
  s.modBatch b (fun r => { r with seeded := true })

/-! ### Black start (R166 to R169) -/

/-- Whether the V generator is the recipe's black-start ramp (R168). -/
def State.rampOk (b : Nat) (s : State) : Bool :=
  match s.spGen b 3, s.recipe b with
  | some g, some r => r.ramps.contains g
  | _, _ => false

/-- Entry to BlackStart (R168), the Starter's outcome 0x05; refused where the V generator is not the ramp. -/
def State.enterBlackStart (b cause : Nat) (s : State) : State :=
  if !(s.rampOk b) then s.wr (bk 2 2 b) 0x0B000063 else
  let s := ((s.outcome b 5).setState b .blackStart cause).inc (bk 0xB 0x17 b)
  let s := s.each [0, 1, 2, 3] (fun i s => s.withGen b i (fun g => State.presetTo g 0))
  if s.circuitsClosed b then s else s.setBit (bk 0xB 0x11 b) 7 true

/-- t_s of black start (R168): seeding, the ramp's rate limit and target. -/
def State.startRamp (b : Nat) (s : State) : State :=
  let s := (s.setBit (bk 0xB 0x11 b) 7 false).seed b (s.blackSeed b)
  let s := s.modBatch b (fun r => { r with bsRunning := true })
  let v := s.rdF (bk 0xE 4 b)
  s.withGen b 3 (fun g s =>
    let s := s.setGen g { (s.gen g) with vOver := some (fdivR (fabs v) (s.rdF (bk 0xB 0xE b))).v }
    s.driveTarget g v)

/-- BLACK_START_TIME_LIMIT (R169). -/
def State.blackLimit (b : Nat) (s : State) : State :=
  if s.bstate b == .blackStart && (s.batch b).since + Time.ms (s.rdN (bk 0xB 0x10 b)) ≤ s.now then
    let x : F32 := match s.spGen b 3 with
      | some g => s.rdF (genX g)
      | none => 0
    let s := s.logEvent 0x0108 b (df x ++ df (fofRat (s.busMax b)))
    ((s.outcome b 7).inc (bk 0xB 0x18 b)).faultBatch b 0 0x87
  else s

def execBlackStartTimeLimit (t : Time) (b : Batch) (s : State) : Host.Outcome State Fault Refusal := .next ((s.begin t).blackLimit b)

/-- BlackStart at a t0 (R168, R169): the request to close, which stands while the circuits are open, the seeding once the circuits are closed, the completion, the opened disconnect. -/
def State.blackStep (b : Nat) (s : State) : State :=
  if !(s.batch b).bsRunning then
    if s.circuitsClosed b && (s.batch b).since < s.now then s.startRamp b
    else (if s.circuitsClosed b then s else s.setBit (bk 0xB 0x11 b) 7 true).blackLimit b
  else if !(s.circuitsClosed b) then s.blockBatch b 8192 []
  else if (s.batch b).stopping then s.blackLimit b
  else
    let atT := match s.spGen b 3 with
      | some g => s.atTarget g
      | none => true
    let band := (s.busChains b).all (fun c => s.rmsValid c && fval (s.rdF (bk 0xA 0xD b)) ≤ s.rmsPu b c && s.rmsPu b c ≤ fval (s.rdF (bk 0xA 0xE b)))
    if atT && band && (s.batch b).outOn then
      let s := (s.outcome b 6).setState b .islanded 6
      s.setBit (bk 0x15 5 b) 2 true
    else s.blackLimit b

/-! ### The Starter (R158 to R161, R165) -/

/-- Whether the condition of a live window holds at this t0 (R159). -/
def State.liveNow (b : Nat) (s : State) : Bool :=
  let a := s.rdN (bk 0xB 1 b)
  a < 80 && !(s.trackLost a) && (s.busChains b).all (fun c =>
    s.rmsValid c && fval (s.rdF (bk 0xB 5 b)) ≤ s.rmsPu b c && s.rmsPu b c ≤ fval (s.rdF (bk 0xB 6 b)))

/-- BUS_DECLARED_DEAD (R161). -/
def State.declareDead (b : Nat) (s : State) : State :=
  match (s.batch b).win.belowSince with
  | some t =>
    if s.bstate b == .starter && !(s.bit (bk 0xB 0x11 b) 2) && (s.busChains b).all (· < 80) && s.busMax b < fval (s.rdF (bk 0xB 7 b))
      && t + Time.ms (s.rdN (bk 0xB 8 b)) ≤ s.now then
      ((s.setBit (bk 0xB 0x11 b) 2 true).wr (bk 0xB 0x15 b) s.tai).logEvent 0x0106 b []
    else s
  | none => s

def execBusDeclaredDead (t : Time) (b : Batch) (s : State) : Host.Outcome State Fault Refusal := .next ((s.begin t).declareDead b)

/-- The bus voltage and the dead clock at a t0 (R161). -/
def State.deadStep (b : Nat) (s : State) : State :=
  let v := s.busMax b
  let s := s.wrF (bk 0xB 0x12 b) (fofRat v)
  if fval (s.rdF (bk 0xB 7 b)) ≤ v then
    let s := s.modBatch b (fun r => { r with win := { r.win with belowSince := some s.now } })
    (s.setBit (bk 0xB 0x11 b) 2 false).wr (bk 0xB 0x15 b) 0
  else s.declareDead b

/-- Whether the phase sequence passes (R160). -/
def State.sequenceOk (b : Nat) (s : State) : Bool :=
  if s.kind b == 2 then true else
  let f := s.fEst (s.rdN (bk 0xB 1 b))
  let lag (c : Nat) (want : Rat) : Bool :=
    match s.lastCrossing (s.rdN (bk 0xB 1 b)), s.lastCrossing c with
    | some ta, some tc =>
      let d := frac (f * secs (tc - ta)) * 360 - want
      d ≤ 15 && 0 ≤ d + 15
    | _, _ => false
  lag (s.rdN (bk 0xB 2 b)) 120 && lag (s.rdN (bk 0xB 3 b)) 240

/-- Whether the wait limit of the Starter has passed (outcome 0x09). -/
def State.waitOver (b : Nat) (s : State) : Bool :=
  let n := s.rdN (bk 0xB 9 b)
  n ≠ 0 && (s.batch b).win.sinceEntry + Time.sec n ≤ s.now

/-- Leaves Starter to a state with outputs to come, after seeding at this t0 (R162, R165). -/
def State.startOutcome (b v : Nat) (dst : BatchState) (s : State) : State :=
  let s := (s.outcome b v).seed b (s.busSeed b)
  let s := if dst == .resync then s.enterResync b .coast 0x40 else s.setState b dst 0x40
  if dst == .islanded then (s.setBit (bk 0x15 5 b) 0 true).setBit (bk 0x15 5 b) 2 true else s

/-- STARTER_WINDOW_END (R165): the first outcome of Table 08-2 whose condition holds; while the module is not Running, the batch does not
leave Starter (R158), and one that would enable its outputs stays while nodes have not reported time locked (R269). -/
def State.windowEnd (b : Nat) (live : Bool) (s : State) : State :=
  let s := (s.setBit (bk 0xB 0x11 b) 1 live).setBit (bk 0xB 0x11 b) 3 (!live)
  let may := s.mayEnable && s.nodesTimed b
  let untimed := s.mayEnable && !(s.nodesTimed b)
  let dead := s.bit (bk 0xB 0x11 b) 2
  let role := s.rdN (bk 0xB 0xD b)
  let running := s.mod == .running
  let wrong := live && !(s.sequenceOk b)
  let s := s.setBit (bk 0xB 0x11 b) 5 wrong
  if wrong && running then (s.outcome b 8).faultBatch b 0 0x88
  else if live && !wrong && may then
    if s.kind b == 3 then s.startOutcome b 0xB .following
    else if s.circuitsClosed b then
      if s.rdN (bk 0x15 2 b) = 1 then s.startOutcome b 2 .islanded else s.startOutcome b 1 .connected
    else s.startOutcome b 3 .resync
  else
    let due := !live && dead && role = 2 && s.kind b == 1
    let s := if due && may then s.enterBlackStart b 0x45 else s
    if s.bstate b != .starter then s
    -- an outcome that would enable the outputs waits for the nodes (R269)
    else if untimed && (due || (live && !wrong)) then s.newWindow b
    else if s.waitOver b && running then ((s.outcome b 9).pulseBlock b).setState b .off 0x49
    else (s.outcome b 4).newWindow b

/-- Whether no period of the chain has been accepted within 2·N_obs/f_n: of the window's start, or of the latest one accepted in it (R159; DESIGN
CHOICE, notes/assumptions/113). The window began at `start`, when `acc` periods had been accepted. -/
def State.noPeriod (b chain : Nat) (start : Time) (acc : Nat) (s : State) : Bool :=
  let lim := 2 * s.rdN (bk 0xB 4 b) * 12800000000 / max 1 (s.fn b)
  let t := (s.chainRec chain).tr
  (if t.acc == acc then start else max start t.lastAcc) + lim ≤ s.now

/-- Whether the Starter's window has timed out (R159). -/
def State.windowTimedOut (b : Nat) (s : State) : Bool :=
  s.noPeriod b (s.rdN (bk 0xB 1 b)) (s.batch b).win.start (s.batch b).win.accepted

/-- Whether N_obs periods have been accepted since the window began (R159). -/
def State.windowFull (b : Nat) (s : State) : Bool :=
  let a := s.rdN (bk 0xB 1 b)
  decide (a < 80) && decide ((s.batch b).win.accepted + s.rdN (bk 0xB 4 b) ≤ (s.chainRec a).tr.acc)

/-- STARTER_WINDOW_TIMEOUT (R159): the window ends; it was not live. -/
def State.windowTimeout (b : Nat) (s : State) : State :=
  if s.bstate b == .starter && s.windowTimedOut b then s.windowEnd b false else s

def execStarterWindowTimeout (t : Time) (b : Batch) (s : State) : Host.Outcome State Fault Refusal :=
  .next ((s.begin t).windowTimeout b)

/-- STARTER_WAIT_LIMIT (R165): the window ends with the limit, and its outcomes are tested in table order; a window that is not yet full is not
live, and a full one that is live so far ends at the next t0, where an outcome that enables outputs takes effect (DESIGN CHOICE,
notes/assumptions/113). -/
def State.waitLimit (b : Nat) (s : State) : State :=
  if s.bstate b == .starter && s.waitOver b && !(s.windowFull b && (s.batch b).win.live && s.liveNow b) then s.windowEnd b false else s

def execStarterWaitLimit (t : Time) (b : Batch) (s : State) : Host.Outcome State Fault Refusal := .next ((s.begin t).waitLimit b)

/-- Starter at a t0. Kinds that have no Starter pass once the module may enable outputs (notes/assumptions/26). -/
def State.starterStep (b : Nat) (s : State) : State :=
  let s := s.setBit (bk 0xB 0x11 b) 4 (s.mod != .running)
  if !(1 ≤ s.kind b && s.kind b ≤ 3) then
    if s.mayEnable && s.nodesTimed b then
      (s.modBatch b (fun r => { r with seeded := true })).setState b .connected 0x40
    else s
  else
    let s := s.deadStep b
    let live := (s.batch b).win.live && s.liveNow b
    let s := s.modBatch b (fun r => { r with win := { r.win with live := live } })
    if s.windowFull b then s.windowEnd b live
    else if s.windowTimedOut b then s.windowEnd b false
    else s

end Sys2Proof.Machine
end

