-- ==== Sys2Proof/Machine/Running.lean ====
section
/-! DEFINITION. A running batch (R124, R127, R135, R138, R139, R145, R146, R150 to R153, R170 to R175): set-points, commands,
envelopes, resynchronisation, and the state work of a t0. -/

namespace Sys2Proof.Machine

/-! ### Set-points (R127) -/

/-- What set-point i writes to its generator: for f, (f* − f_n)/f_n rounded once. -/
def State.spVal (b i : Nat) (v : F32) (s : State) : F32 :=
  if i = 2 then let fn : Rat := (s.fn b : Nat); fofRat ((fval v - fn) / fn) else v

/-- The watchdog's release with the next write, a job ahead of it (R127, R64). -/
def State.spAlive (b : Nat) (s : State) : State :=
  let s := s.modBatch b (fun r => { r with lastWrite := s.now })
  if s.bit (bk 0xE 0xB b) 1 then
    (s.each [0, 1, 2, 3] (fun i s => s.withGen b i (fun g s => s.ownJob b (.command g 2 0)))).setBit (bk 0xE 0xB b) 1 false
  else s

/-- 0x4000 .0E .01 to .04 (R127): held while a staged set is pending, else a job on the generator's target. -/
def setpointEff (q : Req) (b i : Nat) (v : Int) : Eff where
  eff s :=
    let x := BitVec.ofNat 32 v.toNat
    let s := (s.wr (bk 0xE (1 + i) b) v).spAlive b
    if s.rdN (bk 0xE 9 b) ≠ 0 then
      ((s.modBatch b (fun r => { r with staged := Tbl.set i x r.staged })).setBit (bk 0xE 0xB b) 0 true).answer 0
    else match s.spGen b i with
      | some g => s.job b q (.target g (s.spVal b i x))
      | none => s.answer 0
  replies := false

def execSetpointWrite (t : Time) (q : Req) (b : Batch) (i : Fin 4) (v : F32) (s : State) : Host.Outcome State Fault Refusal :=
  .next ((s.begin t).hostWrite q (0x400E + 0x20 * b) (1 + i) 0 v.toNat (setpointEff q b i v.toNat))

/-- The staged set reaches the generators; .09 is 0 again (R127). -/
def State.applySet (b : Nat) (s : State) : State :=
  let s := s.each (s.batch b).staged (fun (e : Nat × F32) s => s.withGen b e.1 (fun g s => s.hostTarget g (s.spVal b e.1 e.2)))
  ((s.modBatch b (fun r => { r with staged := [] })).wr (bk 0xE 9 b) 0).setBit (bk 0xE 0xB b) 0 false

/-- STAGED_APPLICATION (R127): the set reaches the generators at the first t0 at or after .09. -/
def State.applyStaged (b : Nat) (s : State) : State :=
  let at_ := s.rdN (bk 0xE 9 b)
  if at_ ≠ 0 && at_ ≤ s.tai then s.applySet b else s

/-- The staged set goes to the generators by dictionary jobs (R64, R70), where the host sets .09 back to 0. -/
def State.setAsJobs (b : Nat) (s : State) : State :=
  let s := s.each (s.batch b).staged (fun (e : Nat × F32) s => s.withGen b e.1 (fun g s => s.ownJob b (.target g (s.spVal b e.1 e.2))))
  ((s.modBatch b (fun r => { r with staged := [] })).wr (bk 0xE 9 b) 0).setBit (bk 0xE 0xB b) 0 false

/-- 0x400E .09 (R127, Table 06-8): 0 applies a set that is still staged as immediate writes (DESIGN CHOICE, notes/assumptions/111). -/
def stagedTimeEff (b : Nat) (v : Int) : Eff where
  eff s := if v = 0 then s.setAsJobs b else s.wr (bk 0xE 9 b) v

def execStagedApplication (t : Time) (b : Batch) (s : State) : Host.Outcome State Fault Refusal := .next ((s.begin t).applyStaged b)

/-- SETPOINT_WATCHDOG (R127): no write for the period; the four generators hold. -/
def State.spWatchdog (b : Nat) (s : State) : State :=
  let p := s.rdN (bk 0xE 0xA b)
  if p ≠ 0 && !(s.bit (bk 0xE 0xB b) 1) && (s.batch b).lastWrite + Time.ms p ≤ s.now then
    (s.each [0, 1, 2, 3] (fun i s => s.withGen b i State.genHold)).setBit (bk 0xE 0xB b) 1 true
  else s

def execSetpointWatchdog (t : Time) (b : Batch) (s : State) : Host.Outcome State Fault Refusal := .next ((s.begin t).spWatchdog b)

/-- 0x4015 .02 (R135, R173): whether closing was permitted at the write that reads closed. -/
def breakerEff (b : Nat) (v : Int) : Eff where
  eff s := (s.wr (bk 0x15 2 b) v).modBatch b (fun r => { r with
    rs := { r.rs with permittedAtWrite := v == 0 && s.bit (bk 0xC 0xF b) 7 } })

def execPccBreakerStatusWrite (t : Time) (q : Req) (b : Batch) (v : Nat) (s : State) : Host.Outcome State Fault Refusal :=
  .next ((s.begin t).hostWrite q (0x4015 + 0x20 * b) 2 0 v (breakerEff b v))

/-! ### Commands (R139) -/

/-- Whether a command is permitted in the present state (notes/assumptions/27). -/
def State.permitted (b c : Nat) (s : State) : Bool :=
  let st := s.bstate b
  match c with
  | 1 => st == .off && s.benabled b
  | 2 => st != .off && st != .fault
  | 3 => st != .off && st != .fault
  | 4 => st == .blocked
  | 5 => st == .fault
  | 6 => st == .connected
  | 7 => (st == .islanded || st == .coast) && (s.batch b).rs.winResult
  | 8 => st == .starter && s.mod == .running && s.kind b == 1 && s.bit (bk 0xB 0x11 b) 2 && (s.rdN (bk 0xB 0xD b) == 1 || s.rdN (bk 0xB 0xD b) == 2)
  | _ => false

/-- 0x4002 .01 (R139): taken at the next t0, or refused with the refusal recorded at .02. -/
def commandEff (b c : Nat) : Eff where
  eff s :=
    let e : Nat := if !(s.permitted b c) then 0x0B000062 else if c = 8 && !(s.rampOk b) then 0x0B000063 else 0
    let s := s.wr (bk 2 2 b) e
    if e ≠ 0 then s.answer e else (s.modBatch b (fun r => { r with cmd := some c })).answer 0
  replies := false

/-- A host's write of command `c`. -/
def State.command (q : Req) (b c : Nat) (s : State) : State := s.hostWrite q (0x4002 + 0x20 * b) 1 0 c (commandEff b c)

def execBatchStart (t : Time) (q : Req) (b : Batch) (s : State) : Host.Outcome State Fault Refusal := .next ((s.begin t).command q b 1)
def execBatchStop (t : Time) (q : Req) (b : Batch) (s : State) : Host.Outcome State Fault Refusal := .next ((s.begin t).command q b 2)
def execBatchBlock (t : Time) (q : Req) (b : Batch) (s : State) : Host.Outcome State Fault Refusal := .next ((s.begin t).command q b 3)
def execBatchRelease (t : Time) (q : Req) (b : Batch) (s : State) : Host.Outcome State Fault Refusal := .next ((s.begin t).command q b 4)
def execFaultReset (t : Time) (q : Req) (b : Batch) (s : State) : Host.Outcome State Fault Refusal := .next ((s.begin t).command q b 5)
def execIsland (t : Time) (q : Req) (b : Batch) (s : State) : Host.Outcome State Fault Refusal := .next ((s.begin t).command q b 6)
def execResync (t : Time) (q : Req) (b : Batch) (s : State) : Host.Outcome State Fault Refusal := .next ((s.begin t).command q b 7)
def execBlackStart (t : Time) (q : Req) (b : Batch) (s : State) : Host.Outcome State Fault Refusal := .next ((s.begin t).command q b 8)

/-- 0x4013 .09: clears misses, slot-fault stops, largest elapsed and smallest slack (Table 06-11). -/
def clearStatsEff (b : Nat) : Eff where
  eff s := (s.each [2, 4, 6, 7] (fun k s => s.wr (bk 0x13 k b) 0)).modBatch b (fun r => { r with slackSeen := false })

def execClearStatistics (t : Time) (q : Req) (b : Batch) (s : State) : Host.Outcome State Fault Refusal :=
  .next ((s.begin t).hostWrite q (0x4013 + 0x20 * b) 9 0 1 (clearStatsEff b))

/-- COAST_TIME_LIMIT (R138): the stop ramp of R139. -/
def State.coastLimit (b : Nat) (s : State) : State :=
  let n := s.rdN (bk 1 5 b)
  if s.bstate b == .coast && n ≠ 0 && (s.batch b).since + Time.sec n ≤ s.now && !(s.batch b).stopping then s.startStop b else s

def execCoastTimeLimit (t : Time) (b : Batch) (s : State) : Host.Outcome State Fault Refusal := .next ((s.begin t).coastLimit b)

/-! ### Current limiting (R145, R146) -/

/-- GUARD_DELAY (R146): the angle guard becomes active. -/
def State.guard (b : Nat) (s : State) : State :=
  if s.bstate b == .currentLimited && (s.batch b).since + Time.ms (s.rdN (bk 0xA 8 b)) ≤ s.now then s.setBit (bk 9 0xC b) 2 true else s

def execGuardDelay (t : Time) (b : Batch) (s : State) : Host.Outcome State Fault Refusal := .next ((s.begin t).guard b)

/-- MAXIMUM_LIMITED_TIME (R145, item 4): the source "limited too long", once in an episode. -/
def State.tooLong (b : Nat) (s : State) : State :=
  let n := s.rdN (bk 9 7 b)
  if s.bstate b == .currentLimited && n ≠ 0 && (s.batch b).since + Time.ms n ≤ s.now && !(s.batch b).tooLong then
    (s.modBatch b (fun r => { r with tooLong := true })).demand b 6
  else s

def execMaximumLimitedTime (t : Time) (b : Batch) (s : State) : Host.Outcome State Fault Refusal :=
  .next (((s.begin t).tooLong b).faultReaction b)

/-- The longest limited time, at every t0 in CurrentLimited (Table 07-4 .0E). -/
def State.limitedTime (b : Nat) (s : State) : State :=
  if s.bstate b == .currentLimited then
    let ms := Time.toMs (s.inState b)
    if s.rdN (bk 9 0xE b) < ms then s.wr (bk 9 0xE b) ms else s
  else s

/-! ### Ride-through envelopes (R150, R151) -/

def envKey (b e : Nat) : Nat := key (0x8400 + 4 * b + e) 1

/-- Envelope e of a batch: 0 and 1 are voltages, 2 and 3 frequencies; 0 and 2 are lower. -/
def batchEnvelopeOk (e : Nat) (img : List Byte) : Bool := envelopeOk img && leAt 2 1 img == e / 2 && leAt 3 1 img == e % 2

/-- A write of an envelope (R150): in Configuration or while the batch is Off. -/
def envelopeEff (b e : Nat) (img : List Byte) : Eff where
  own s := needs (s.mod == .configuration || s.bstate b == .off) abState
  eff s :=
    if batchEnvelopeOk e img then ((s.wrBlob (envKey b e) img).setBit (bk 0xA 0x12 b) (8 + e) true).answer 0
    else (s.setBit (bk 0xA 0x12 b) (8 + e) false).answer 0x0B000070
  replies := false

def execEnvelopeWrite (t : Time) (q : Req) (b : Batch) (e : Fin 4) (img : List Byte) (s : State) : Host.Outcome State Fault Refusal :=
  .next ((s.begin t).hostBlob q (0x8400 + 4 * b + e) 1 img (envelopeEff b e img))

/-- EXCURSION_END (R151): the quantity has stayed inside its band for the return hold. -/
def State.excursionEnd (b : Nat) (freq : Bool) (s : State) : State :=
  let r := s.batch b
  let x := if freq then r.fEx else r.vEx
  match x.active, x.inSince with
  | true, some t =>
    if t + Time.ms (s.rdN (bk 0xA 0x10 b)) ≤ s.now then
      let s := s.setBatch b (if freq then { r with fEx := {} } else { r with vEx := {} })
      s.setBit (bk 0xA 0x12 b) (b2n freq) false
    else s
  | _, _ => s

def execExcursionEnd (t : Time) (b : Batch) (freq : Bool) (s : State) : Host.Outcome State Fault Refusal :=
  .next ((s.begin t).excursionEnd b freq)

/-- One quantity's excursion at a t0: whether it is outside its band. -/
def State.excursion (b : Nat) (freq outside : Bool) (s : State) : State :=
  let r := s.batch b
  let x := if freq then r.fEx else r.vEx
  let put (x : Excursion) (s : State) : State := s.modBatch b (fun r => if freq then { r with fEx := x } else { r with vEx := x })
  if outside then
    if x.active then put { x with inSince := none } s
    else ((put { active := true, start := s.now, inSince := none } s).setBit (bk 0xA 0x12 b) (b2n freq) true).inc (bk 0xA 0x16 b)
  else if x.active then (put { x with inSince := some (x.inSince.getD s.now) } s).excursionEnd b freq
  else s

/-- Tests envelope e against a quantity: a violation is counted, logged, and demands its reaction (R151). -/
def State.envelope (b e : Nat) (v : Rat) (s : State) : State :=
  let x := if e < 2 then (s.batch b).vEx else (s.batch b).fEx
  if !x.active || !(s.bit (bk 0xA 0x12 b) (8 + e)) || !(s.bit (bk 0xA 0x11 b) e) then s else
  let us : Rat := (((s.now - x.start : Nat) : Rat)) / 12800
  let l := levelAtTime (s.blob (envKey b e)) us
  if (e % 2 = 0 && v < l) || (e % 2 = 1 && l < v) then
    let s := (s.setBit (bk 0xA 0x12 b) 2 true).inc (bk 0xA 0x15 b)
    let s := s.logEvent 0x010B b (d8 e ++ df (fofRat v) ++ df (fofRat l) ++ d32 (Time.toMs (s.now - x.start)))
    s.demand b 5
  else s

/-- ENVELOPE_EVALUATION (R151). -/
def State.envelopes (b : Nat) (s : State) : State :=
  let st := bk 0xA 0x12 b
  let s := s.setBit st 2 false
  if !(s.batch b).outOn || (s.batch b).bsRunning then
    let s := s.modBatch b (fun r => { r with vEx := {}, fEx := {} })
    (s.setBit st 0 false).setBit st 1 false
  else
    let cs := ([0xA, 0xB, 0xC].map (fun k => s.rdN (bk 0xA k b))).filter (fun c => s.rmsValid c)
    let vs := cs.map (fun c => s.rmsPu b c)
    let s := match vs.min?, vs.max? with
      | some lo, some hi =>
        let was := (s.batch b).vEx.active
        let s := s.excursion b false (lo < fval (s.rdF (bk 0xA 0xD b)) || fval (s.rdF (bk 0xA 0xE b)) < hi)
        let s := if (s.batch b).vEx.active then
            let deep := s.rdF (bk 0xA 0x14 b)
            let s := if !was || lo < fval deep then s.wrF (bk 0xA 0x14 b) (fofRat lo) else s
            s.wr (bk 0xA 0x13 b) (Time.toMs (s.now - (s.batch b).vEx.start))
          else s
        (s.envelope b 0 lo).envelope b 1 hi
      | _, _ => s
    let g := s.rdN (bk 5 6 b)
    if g < 80 && !(s.trackLost g) then
      let f := s.fOf g
      let fn : Rat := (s.fn b : Nat)
      let d := f - fn
      let s := s.setBit st 3 false
      let s := s.excursion b true (fval (s.rdF (bk 0xA 0xF b)) < (if d < 0 then -d else d))
      let s := if (s.batch b).fEx.active && !(s.batch b).vEx.active then s.wr (bk 0xA 0x13 b) (Time.toMs (s.now - (s.batch b).fEx.start)) else s
      (s.envelope b 2 f).envelope b 3 f
    else s.setBit st 3 true

/-! ### Resynchronisation (R170 to R175) -/

/-- The running and the reference chain for a state of entry (Table 08-4). -/
def State.runChain (b : Nat) (entry : BatchState) (s : State) : Nat := if entry == .coast then s.rdN (bk 0xC 2 b) else s.rdN (bk 0xB 1 b)
def State.refChain (b : Nat) (entry : BatchState) (s : State) : Nat := if entry == .coast then s.rdN (bk 0xB 1 b) else s.rdN (bk 0xC 3 b)

/-- The state of entry that applies: of Resync, or the present state. -/
def State.entryOf (b : Nat) (s : State) : BatchState := if s.bstate b == .resync then (s.batch b).rs.entry else s.bstate b

/-- The reference side's windows at a t0 (R159, R170); a new reference chain begins with a new window. -/
def State.refStep (b : Nat) (s : State) : State :=
  let st := s.bstate b
  if !(st == .islanded || st == .coast || st == .resync) then
    (s.modBatch b (fun r => { r with rs := { r.rs with winResult := false, winChain := none, liveSince := none, lostSince := none } })).setBit
      (bk 0xC 0xF b) 0 false
  else
    let c := s.refChain b (s.entryOf b)
    let acc := (s.chainRec c).tr.acc
    let s := if (s.batch b).rs.winChain == some c then s else
      (s.modBatch b (fun r => { r with rs := { r.rs with
        winChain := some c, winStart := s.now, winAccepted := acc, winResult := false, winLive := true, liveSince := none
        lostSince := some s.now } })).setBit (bk 0xC 0xF b) 0 false
    let ok := c < 80 && !(s.trackLost c) && s.rmsValid c
      && fval (s.rdF (bk 0xB 5 b)) ≤ s.rmsPu b c && s.rmsPu b c ≤ fval (s.rdF (bk 0xB 6 b))
    let rs := (s.batch b).rs
    let live := rs.winLive && ok
    let n := s.rdN (bk 0xB 4 b)
    let full := c < 80 && rs.winAccepted + n ≤ acc
    let over_ := s.noPeriod b c rs.winStart rs.winAccepted
    let put (x : Resync) (s : State) : State := s.modBatch b (fun r => { r with rs := x })
    if full || over_ then
      let res := full && live
      let x := { rs with winStart := s.now, winAccepted := acc, winLive := true, winResult := res
                         liveSince := if res then some (rs.liveSince.getD s.now) else none
                         lostSince := if res then none else some (rs.lostSince.getD s.now) }
      (put x s).setBit (bk 0xC 0xF b) 0 res
    else put { rs with winLive := live } s

/-- The three differences of R171, exact: Δφ in degrees, Δf in Hz, ΔV in pu; none while not valid. -/
def State.differences (b : Nat) (s : State) : Option (Rat × Rat × Rat) :=
  let e := s.entryOf b
  let c := s.runChain b e
  let k := s.refChain b e
  if c < 80 && k < 80 && !(s.trackLost c) && !(s.trackLost k) && s.rmsValid c && s.rmsValid k then
    match s.crossedAt k, s.crossedAt c with
    | some tk, some tc =>
      let fr := s.fOf k
      let x := frac (fr * secs (tk - tc))
      some (360 * (if 1 / 2 ≤ x then x - 1 else x), s.fOf c - fr, s.rmsPu b c - s.rmsPu b k)
    | _, _ => none
  else none

/-- An exact value held within ±l. -/
def clampRat (x l : Rat) : Rat := if l < x then l else if x < -l then -l else x

/-- The present position of the generator of set-point i, or the set-point where none is named. -/
def State.spPos (b i : Nat) (s : State) : Rat :=
  match s.spGen b i with
  | some g => fval (s.rdF (genX g))
  | none => fval (s.rdF (bk 0xE (1 + i) b))

/-- The f generator's target in Resync, with the reported differences (R171, R172). While the differences are not valid it keeps the target in
use (DESIGN CHOICE, notes/assumptions/113). -/
def State.resyncF (b : Nat) (s : State) : State :=
  match s.differences b with
  | none => s.withGen b 2 State.keepTarget
  | some (dp, df_, dv) =>
    let fr := s.fOf (s.refChain b (s.batch b).rs.entry)
    let s := ((s.wrF (bk 0xC 0x10 b) (fofRat dp)).wrF (bk 0xC 0x11 b) (fofRat df_)).wrF (bk 0xC 0x12 b) (fofRat dv)
    let s := s.wrF (bk 0xC 0x13 b) (fofRat fr)
    let fn : Rat := (s.fn b : Nat)
    let goal := fr - clampRat (fval (s.rdF (bk 0xC 6 b)) * dp) (fval (s.rdF (bk 0xC 5 b)))
    let mp := s.viewVal b 7 1 / 100
    let ft := (goal + fn * mp * (fval (s.rdF (bk 0xF 1 b)) - s.spPos b 0) - fn) / fn
    s.withGen b 2 (fun g => State.driveTarget g (fofRat ft))

/-- The V generator's target in Resync (R172), from the reference side's voltage; while that is not valid it keeps the target in use. -/
def State.resyncV (b : Nat) (s : State) : State :=
  let k := s.refChain b (s.batch b).rs.entry
  if s.rmsValid k then
    let vt := s.rmsPu b k + s.viewVal b 7 2 / 100 * (fval (s.rdF (bk 0xF 2 b)) - s.spPos b 1)
    let vt := if vt < 4 / 5 then 4 / 5 else if 6 / 5 < vt then 6 / 5 else vt
    s.withGen b 3 (fun g => State.driveTarget g (fofRat vt))
  else s.withGen b 3 State.keepTarget

/-- RESYNC_DIFFERENCES (R171, R172): differences, reports, targets of the f and V generators. -/
def State.resyncTargets (b : Nat) (s : State) : State := (s.resyncF b).resyncV b

/-- Whether the closing window stands (R173), with its status bits. -/
def State.closingWindow (b : Nat) (s : State) : Bool × State :=
  let k := bk 0xC 0xF b
  let ab (x : Rat) : Rat := if x < 0 then -x else x
  let perm := s.bit (key 0x7800 9) b
  let s := s.setBit k 4 perm
  match s.differences b with
  | none => (false, ((s.setBit k 1 false).setBit k 2 false).setBit k 3 false)
  | some (dp, df_, dv) =>
    let p := ab dp ≤ fval (s.rdF (bk 0xC 7 b))
    let f := ab df_ ≤ fval (s.rdF (bk 0xC 8 b))
    let v := ab dv ≤ fval (s.rdF (bk 0xC 9 b))
    (p && f && v && !(s.batch b).engaged && perm, ((s.setBit k 1 p).setBit k 2 f).setBit k 3 v)

/-- WINDOW_HELD (R173): the window has stood for the hold time; the own circuits are asked to close, or the breaker may close. -/
def State.windowHeld (b : Nat) (s : State) : State :=
  let rs := (s.batch b).rs
  match s.bstate b == .resync, rs.heldSince with
  | true, some t =>
    if t + Time.ms (s.rdN (bk 0xC 0xA b)) ≤ s.now then
      let s := s.setBit (bk 0xC 0xF b) 5 true
      if rs.entry == .coast then
        if s.bit (bk 0xC 0xF b) 6 then s
        else (s.setBit (bk 0xC 0xF b) 6 true).modBatch b (fun r => { r with rs := { r.rs with reqSince := some s.now } })
      else s.setBit (bk 0xC 0xF b) 7 true
    else s
  | _, _ => s

def execWindowHeld (t : Time) (b : Batch) (s : State) : Host.Outcome State Fault Refusal := .next ((s.begin t).windowHeld b)

/-- Resync is to end without closing at the next t0 (R174). -/
def State.endResync (b code : Nat) (s : State) : State :=
  if s.bstate b == .resync && (s.batch b).rs.ending.isNone then s.modBatch b (fun r => { r with rs := { r.rs with ending := some code } }) else s

/-- REFERENCE_NOT_LIVE (R174): for 1 s. -/
def State.refNotLive (b : Nat) (s : State) : State :=
  match (s.batch b).rs.lostSince with
  | some t => if t + Time.sec 1 ≤ s.now then s.endResync b 4 else s
  | none => s

def execReferenceNotLive (t : Time) (b : Batch) (s : State) : Host.Outcome State Fault Refusal := .next ((s.begin t).refNotLive b)

/-- RESYNC_TIME_LIMIT (R174). -/
def State.resyncLimit (b : Nat) (s : State) : State :=
  if (s.batch b).rs.since + Time.ms (s.rdN (bk 0xC 0xC b)) ≤ s.now then s.endResync b 5 else s

def execResyncTimeLimit (t : Time) (b : Batch) (s : State) : Host.Outcome State Fault Refusal := .next ((s.begin t).resyncLimit b)

/-- CLOSING_TIME_LIMIT (R173). -/
def State.closingLimit (b : Nat) (s : State) : State :=
  match (s.batch b).rs.reqSince with
  | some t => if t + Time.ms (s.rdN (bk 0xC 0xD b)) ≤ s.now && s.bit (bk 0xC 0xF b) 6 then s.endResync b 8 else s
  | none => s

def execClosingTimeLimit (t : Time) (b : Batch) (s : State) : Host.Outcome State Fault Refusal := .next ((s.begin t).closingLimit b)

/-- The work of Resync at a t0 after its transitions (R171 to R174). -/
def State.resyncStep (b : Nat) (s : State) : State :=
  let s := s.resyncTargets b
  let (ok, s) := s.closingWindow b
  let k := bk 0xC 0xF b
  let s :=
    if ok then s.modBatch b (fun r => { r with rs := { r.rs with heldSince := some (r.rs.heldSince.getD s.now) } })
    else
      let s := ((s.setBit k 5 false).setBit k 6 false).setBit k 7 false
      s.modBatch b (fun r => { r with rs := { r.rs with heldSince := none, reqSince := none } })
  (((s.windowHeld b).refNotLive b).resyncLimit b).closingLimit b

/-- A closing (R173, R175): records, Connected, the reconnection ramp. -/
def State.closed (b code : Nat) (s : State) : State :=
  let s := ((s.inc (bk 0xC 0x15 b)).wr (bk 0xC 0x17 b) s.tai).wr (bk 0xC 0x19 b) code
  let s := s.wr (bk 0xC 0x18 b) (s.rd (bk 0xC 0x10 b))
  let s := if code = 3 then
      s.logEvent 0x0107 b (df (s.rdF (bk 0xC 0x10 b)) ++ df (s.rdF (bk 0xC 0x11 b)) ++ df (s.rdF (bk 0xC 0x12 b)))
    else s
  let s := s.setState b .connected 0x60
  let s := (s.wr (bk 0x15 5 b) 0).modBatch b (fun r => { r with rs := { r.rs with moved := false } })
  (s.withGen b 0 (fun g s => s.setGen g { (s.gen g) with vCap := some (s.rdF (bk 0xC 0xE b)) })).setBit (bk 0xC 0xF b) 8 true

/-- The reconnection ramp ends when the P generator next reports at-target: after it has been away from it (R175, Table 08-10). -/
def State.reconnected (b : Nat) (s : State) : State :=
  if s.bit (bk 0xC 0xF b) 8 then
    match s.spGen b 0 with
    | some g =>
      if !(s.atTarget g) then s.modBatch b (fun r => { r with rs := { r.rs with moved := true } })
      else if (s.batch b).rs.moved then (s.setGen g { (s.gen g) with vCap := none }).setBit (bk 0xC 0xF b) 8 false else s
    | none => s.setBit (bk 0xC 0xF b) 8 false
  else s

/-- AUTOMATIC_RESYNC (R170): enabled for the state, and the reference side live for the stable time. -/
def State.autoResync (b : Nat) (s : State) : State :=
  let st := s.bstate b
  let en := (st == .coast && s.bit (bk 0xC 1 b) 0) || (st == .islanded && s.bit (bk 0xC 1 b) 1)
  match (s.batch b).rs.liveSince with
  | some t =>
    if en && (s.batch b).rs.winResult && t + Time.ms (s.rdN (bk 0xC 0xB b)) ≤ s.now && !(s.batch b).stopping then s.enterResync b st 0x67 else s
  | none => s

/-- AUTOMATIC_RESYNC comes at a t0 of the batch, and has no effect at any other instant. -/
def execAutomaticResync (t : Time) (b : Batch) (s : State) : Host.Outcome State Fault Refusal :=
  .next ((s.begin t).when (((s.begin t).batch b).lastT0 == some (s.begin t).now) (fun s => s.autoResync b))

/-! ### Transitions (R138) -/

/-- Whether the impedance and breaker criteria say islanded (R135). -/
def State.breakerOpen (b : Nat) (s : State) : Bool := s.bit (bk 0x15 1 b) 0 && s.rdN (bk 0x15 2 b) == 1
def State.impedanceHigh (b : Nat) (s : State) : Bool := s.bit (bk 0x15 1 b) 1 && 2 ≤ (s.batch b).impOver

/-- ISLANDING_DETECTED (R135). -/
def State.islanded (b : Nat) (s : State) : State :=
  let br := s.breakerOpen b
  let im := s.impedanceHigh b
  let s := (s.wr (bk 0x15 5 b) (b2n br + 2 * b2n im + 4 : Nat)).inc (bk 0x15 6 b)
  let s := s.modBatch b (fun r => { r with impTime := s.now, impOver := 0, impUnder := 0, impOnly := im && !br })
  s.setState b .islanded 5

/-- Enters CurrentLimited (R145). -/
def State.limit (b : Nat) (s : State) : State :=
  let st := s.bstate b
  let s := (s.inc (bk 9 0xD b)).modBatch b (fun r => { r with entry := st, released := 0, tooLong := false, ceilSeen := false })
  s.setState b .currentLimited 6

/-- The stop of a batch whose ramp has ended: it blocks its outputs and enters Off (R139). -/
def State.stopped (b : Nat) (s : State) : State :=
  let s := (s.pulseBlock b).setState b .off 2
  let s := s.modBatch b (fun r => { r with stopping := false, cmd := none })
  (s.each [0, 1, 3] (fun i s => s.withGen b i (fun g s => s.freeTarget g))).endRide b

/-- Whether the ramp of a stop has ended: the generators have arrived at 0, and no hold of the limiter stands (R139, R169). -/
def State.stopDone (b : Nat) (s : State) : Bool :=
  let l : List Nat := if s.bstate b == .blackStart then [3] else [0, 1]
  (s.batch b).ramping && !(s.bit (bk 0xB 0x11 b) 6) && l.all (fun i => match s.spGen b i with
    | some g => s.restsAt g 0
    | none => true)

/-- Carries out command `c` at a t0 (R139). A black start waits in Starter until the batch's nodes have reported time locked (R269). -/
def State.runCommand (b c : Nat) (s : State) : State :=
  let wait := c = 8 && !(s.nodesTimed b)
  let s := s.modBatch b (fun r => { r with cmd := if wait then some 8 else none })
  let st := s.bstate b
  if !(s.permitted b c) || wait then s else
  match c with
  | 1 => s.enterPrecharge b 1
  | 2 =>
    if st == .resync then
      let s := (s.wr (bk 0xC 0x19 b) 7).inc (bk 0xC 0x16 b)
      (s.setState b (s.batch b).rs.entry 2).startStop b
    else if st.running then
      if st == .blackStart && !(s.batch b).bsRunning then s.stopped b else s.startStop b
    else s.stopped b
  | 4 => s.enterStarter b 4
  | 5 => s.setState b .off 5
  | 6 => ((s.wr (bk 0x15 5 b) (b2n (s.breakerOpen b) + 4 : Nat)).modBatch b (fun r => { r with impOnly := false })).setState b .islanded 6
  | 7 => s.enterResync b st 7
  | 8 => s.enterBlackStart b 8
  | _ => s

/-- An own circuit is open in a state that has it closed (R138). -/
def State.disconnected (b : Nat) (s : State) : State :=
  let k := s.rdN (bk 0x11 4 b)
  let s := (s.demand b 4).faultReaction b
  if k = 0 then s.enterCoast b 4 else s

/-- RUNNING_STATE_TRANSITION (R138): at most one, the first that applies. -/
def State.transition (b : Nat) (s : State) : State :=
  let r := s.batch b
  let st := s.bstate b
  let cmd := r.cmd
  let isOpen := !(s.circuitsClosed b)
  if cmd = some 3 then
    let s := s.modBatch b (fun r => { r with cmd := none })
    s.blockBatch b 1 []
  else if isOpen && (st == .connected || st == .islanded || st == .currentLimited) then s.disconnected b
  else if isOpen && st == .resync && r.rs.entry == .islanded then
    ((s.wr (bk 0xC 0x19 b) 6).inc (bk 0xC 0x16 b)).setState b .islanded 0x66
  else if r.engaged && (st == .connected || st == .islanded) then s.limit b
  else if st == .currentLimited && s.rdN (bk 9 6 b) ≤ r.released then
    let s := s.setState b r.entry 7
    if r.stopping then s.startStop b else s
  else if st == .connected && (s.kind b == 1 || s.kind b == 2) && (s.breakerOpen b || s.impedanceHigh b) then s.islanded b
  else if st == .islanded && r.impOnly && s.now ≤ r.impTime + Time.sec 2 && s.rdN (bk 0x15 2 b) ≠ 1 && 2 ≤ r.impUnder then
    ((s.wr (bk 0x15 5 b) 0).inc (bk 0x15 7 b)).setState b .connected 8
  else if st == .resync && r.rs.ending.isSome then
    let c := r.rs.ending.getD 0
    ((s.wr (bk 0xC 0x19 b) c).inc (bk 0xC 0x16 b)).setState b r.rs.entry (0x60 + c)
  else if st == .resync && r.rs.entry == .coast && !isOpen then s.closed b 1
  else if st == .resync && r.rs.entry == .islanded && s.rdN (bk 0x15 2 b) = 0 then s.closed b (if r.rs.permittedAtWrite then 2 else 3)
  else match cmd with
    | some c => s.runCommand b c
    | none =>
      if r.stopping && s.stopDone b then s.stopped b
      else if st == .coast && !r.stopping then (s.coastLimit b).autoResync b
      else s.autoResync b

/-! ### A t0 (R13, R138) -/

/-- Whether the queue of batch b is frozen for a configuration change (R66): while a recipe for it is being loaded (DESIGN CHOICE,
notes/assumptions/108). -/
def State.queueFrozen (b : Nat) (s : State) : Bool := s.longOp == 2 && s.srv.longInst == b

/-- The items of the cycle are enqueued (R60), in every state of the batch (R141); a cycle whose items cannot be enqueued is abandoned at once (R66). -/
def State.enqueueCycle (b : Nat) (s : State) : State :=
  match s.recipe b with
  | none => s
  | some r =>
    if r.items.isEmpty then s else
      let c : Cycle := { t0 := s.now, items := r.items.length, events := s.taggedEvents b r, latch := r.chains.map (fun c => (c, s.rd (ck c 0x16))) }
      let s := s.modBatch b (fun x => { x with cyc := some c })
      if s.queueFrozen b then s.miss b else s.notePeak b

/-- The generators of a recipe step (R87). -/
def State.stepGens (b : Nat) (s : State) : State :=
  match s.recipe b with
  | none => s
  | some r => s.each r.gens (fun g s => s.genStep g (s.cycF b))

/-- A cycle that still runs at the next t0 has passed its deadline (R66). -/
def State.leftover (b : Nat) (s : State) : State :=
  let s := if (s.batch b).cyc.isSome then s.miss b else s
  s.modBatch b (fun r => { r with blockFresh := false, shortAt := none, reacted := none })

/-- The home lane that a lane plan or a migration gives the batch takes effect at its cycle boundary (R57, R67). -/
def State.boundary (b : Nat) (s : State) : State :=
  let r := s.batch b
  let s := if r.homeless then s.setBatch b { r with home := none, homeless := false } else s
  let s := match r.nextHome with
    | some l => s.setBatch b { r with home := some l, nextHome := none }
    | none => s
  ((s.checkNextFree).sliceBoundary b).wr (bk 4 6 b) (if s.carrierPos b 0 s.modTime < 64 then (s.tai : Int) else s.rd (bk 4 6 b))

/-- The Starter at a t0; where it enters Resync, that state's work runs at the same t0 (R171, R172). -/
def State.starterWork (b : Nat) (s : State) : State :=
  let u := s.starterStep b
  if u.bstate b == .resync then u.resyncStep b else u

/-- The state work of a t0 of a batch that the module commands. -/
def State.stateWork (b : Nat) (s : State) : State :=
  let s := (((s.envelopes b).refStep b).tooLong b).dcStep b
  let s := if (s.batch b).outOn then s else s.endRide b
  let s := ((s.reclose b).openLoopTimeout b).faultReaction b
  let s := s.transition b
  let s := match s.bstate b with
    | .precharge => s.prechargeStep b
    | .starter => s.starterWork b
    | .blackStart => s.blackStep b
    | .resync => s.resyncStep b
    | _ => s
  let s := s.setBit (bk 0x15 5 b) 0 (s.bit (bk 0x15 5 b) 2 && s.breakerOpen b)
  ((s.guard b).limitedTime b).applyStaged b

/-- SAMPLE_INSTANT (R13) from the bank swap on. -/
def State.sampleCore (b : Nat) (s : State) : State :=
  let s := (s.bankSwap b).chainSwapsFor b
  let s := if s.commands then s.stateWork b else s
  let s := (s.stepGens b).reconnected b
  (s.boundary b).enqueueCycle b

end Sys2Proof.Machine
end

