-- ==== Sys2Proof/Machine/ModuleOps.lean ====
section
/-! DEFINITION. The module state (R328) with what every change of it brings: event 0x0003, blocks, test duties, and the
coordination check of R152. -/

namespace Sys2Proof.Machine

/-- Whether envelope image `img` lies below (`lower`) or above `l` at any time at or after `tMs` (R152). -/
def envelopeBeyond (img : List Byte) (lower : Bool) (l : Rat) (tMs : Nat) : Bool :=
  let t0 : Rat := ((1000 * tMs : Nat) : Rat)
  let later := ((List.range (leAt 4 1 img)).map (fun i => ((bpTime img i : Nat) : Rat))).filter (fun t => t0 ≤ t)
  (t0 :: later).any (fun t => if lower then levelAtTime img t < l else l < levelAtTime img t)

/-- Stage i of the island against voltage envelope e (0 lower, 1 upper) of batch b (R152). -/
def State.stageConflict (b i : Nat) (s : State) : Bool :=
  let e := if i < 3 then 0 else 1
  s.bit (bk 0xA 0x12 b) (8 + e) && envelopeBeyond (s.blob (envKey b e)) (i < 3) (fval (s.rdF (key (0x7810 + i) 3))) (s.rdN (key (0x7810 + i) 4))

/-- COORDINATION_CHECK (R152): on leaving Configuration, every voltage stage against every batch's loaded envelopes. -/
def State.coordination (s : State) : State :=
  s.each allBatches (fun b s =>
    let l := (List.range 5).filter (fun i => s.stageConflict b i)
    let s := s.setBit (bk 0xA 0x12 b) 4 (!l.isEmpty)
    s.each l (fun i s => s.logEvent 0x0109 b (d8 i ++ d8 (if i < 3 then 0 else 1))))

/-- The member list of GOOSE publication g. -/
def State.pubMembers (g : Nat) (s : State) : List Nat :=
  (List.range (s.rdN (key (0x2740 + g) 0xD))).map (fun i => s.rdN (key (0x2740 + g) 0xC (i + 1)))

/-- The member lists in force at a start; nothing has left Configuration yet, so no confRev moves (R366; DESIGN CHOICE,
notes/assumptions/125). -/
def State.pubLists (s : State) : State :=
  s.each (List.range 8) (fun g s =>
    { s with net := { s.net with pubs := Tbl.set g { (Tbl.get {} g s.net.pubs) with members := s.pubMembers g, last := none } s.net.pubs } })

/-- confRev of a publication whose member list has changed, at the moment the module leaves Configuration (R366). -/
def State.confRevs (s : State) : State :=
  s.each (List.range 8) (fun g s =>
    let r : PubRec := Tbl.get {} g s.net.pubs
    let m := s.pubMembers g
    if m = r.members then s
    else ({ s with net := { s.net with pubs := Tbl.set g { r with members := m, last := none } s.net.pubs } }).inc (key (0x2740 + g) 9))

/-- The boot-up message of an enabled CAN port when Configuration or Armed is first reached after reset (R363). -/
def State.bootUp (s : State) : State :=
  s.each [0, 1] (fun k s =>
    if Tbl.get false k s.net.boot then s else
    let s := { s with net := { s.net with boot := Tbl.set k true s.net.boot } }
    if s.rdB (key (0x2710 + k) 1) then s.msg "CAN_HEARTBEAT" [k, s.rd (key (0x2710 + k) 2), 0] [] else s)

/-- Whether a planned handover runs (R313): asked for within the last 1 ms, or the Revoke's last departure is still to come. -/
def State.handingOver (s : State) : Bool :=
  s.rack.planned != 0 && (s.rack.revoke.isSome || decide (s.now ≤ s.rack.askedAt + Time.ms 1))

/-- The module asks its partner to close the bridges (R314, R316): a Handover request to the partner's slot. -/
def State.askBridges (cause : Nat) (s : State) : State :=
  if s.rdB (twk 0x14) then s.rackMsg "HANDOVER" (s.rdN (twk 2)) [s.rd (twk 5), cause] else s

/-- Whether Table 16-2 has SafeHold follow state m; Removal is left by a reset alone. -/
def holdFollows (m : ModState) : Bool := m == .configuration || m == .armed || m == .running || m == .standby

/-- The module enters state `new` (R328), as Table 16-2 allows. Leaving Running or Standby, SafeHold and Removal block every batch (R189, R339), but
for the handover of R314 in Removal; leaving Configuration brings pending queue values into force (R59), ends the test duties
(R197), compares the coordination (R152) and counts confRev (R366); Configuration and Armed end the start attempts (R331). -/
def State.setMod (new : ModState) (s : State) : State :=
  let old := s.mod
  if old = new || old == .removal || (new == .safeHold && !(holdFollows old)) then s else
  let runs (m : ModState) : Bool := m == .running || m == .standby
  let s := ((s.wr (key 0x2000 2) old.code).wr (key 0x2000 1) new.code).logEvent 0x0003 0 (d8 old.code ++ d8 new.code)
  let s := if ((runs old && !runs new) || new == .safeHold || new == .removal) && s.power.removal.isNone then
      s.each allBatches (fun b s => s.blockBatch b 4096 [])
    else s
  let s := if old == .faultWait then s.wr (key 0x2000 9) 0 else s
  let s := if new == .configuration || new == .armed then ((s.wr (key 0x2000 8) 0).modSrv (fun v => { v with trialFails := 0 })).bootUp else s
  let s := if runs old && !runs new && !s.handingOver && s.power.removal.isNone then { s with rack := { s.rack with leaving := true } }
    else if runs new then { s with rack := { s.rack with leaving := false } } else s
  if old == .configuration then ((s.queuesInForce.each (List.range 256) State.endTest).coordination).confRevs else s

/-- The module gives up its authority (R219, R311): from now on it computes in shadow; where it leaves for a removal, a supply loss or an
update it asks its partner to close the bridges (R314); SafeHold follows where a low store asked for the handover (R326). `turn` is the departure
of a planned handover; without one a fail-over is counted, and the first departure without command kept (Table 15-9 .13). -/
def State.dropAuthority (turn : Option Time) (s : State) : State :=
  if s.twinRole = 0 || s.authority ≠ 1 then s
  else
    let s := (s.wr (twk 7) 2).wr (twk 0x12) s.tai
    let s :=
      if turn.isSome then ((s.inc (twk 0x11)).wr (twk 0x13) 0).modRack (fun r => { r with turnAt := turn, stopped := none })
      else (s.inc (twk 0x10)).modRack (fun r => { r with turnAt := none, ran := [], stopped := some ((s.tai + 4999) / 5000 * 5000) })
    let s := if s.mod == .running then s.setMod .standby else s
    let s := if s.power.holdAfter then { s with power := { s.power with holdAfter := false } }.setMod .safeHold else s
    let cause := s.rack.planned
    let s := s.modRack (fun r => { r with planned := 0 })
    if 2 ≤ cause then s.askBridges cause else s

/-- A higher epoch was seen (R219): the module stops commanding and leaves Running for Standby (Table 16-2). -/
def State.supersede (s : State) : State :=
  let s := s.dropAuthority none
  if s.mod == .running then s.setMod .standby else s

end Sys2Proof.Machine
end

