-- ==== Sys2Proof/Machine/Links.lean ====
section
/-! DEFINITION. The Uluiz links at the module (R201 to R226): frames, requests, telemetry, enumeration, breaks. The fields `tf` of frames are
module time in fine steps. -/

namespace Sys2Proof.Machine

def lk (k sub : Nat) : Nat := key (0x3700 + k) sub
def allLinks : List Nat := List.range 24
def allNodes : List Nat := List.range 768
def State.link (k : Nat) (s : State) : LinkRec := Tbl.get {} k s.links.links
def State.setLink (k : Nat) (r : LinkRec) (s : State) : State := { s with links := { s.links with links := Tbl.set k r s.links.links } }
def State.node (n : Nat) (s : State) : NodeRec := Tbl.get {} n s.links.nodes
def State.setNode (n : Nat) (r : NodeRec) (s : State) : State := { s with links := { s.links with nodes := Tbl.set n r s.links.nodes } }

/-- One frame period, 5 µs. -/
def framePeriod : Time := 64000

/-- The nodes placed on link k, and the node at a position (R213). -/
def State.placed (k : Nat) (s : State) : List Nat := allNodes.filter (fun n => s.rdN (ndk n 1) == k)
def State.nodeAt (k p : Nat) (s : State) : Option Nat := (s.placed k).find? (fun n => s.rdN (ndk n 2) == p)

/-- The batch of node n, from its routed channels (Table 10-11 .04). -/
def State.nodeBatch (n : Nat) (s : State) : Option Nat := let b := s.rdN (ndk n 4); if b < 32 then some b else none

/-- The channels routed to node n. -/
def State.nodeChans (n : Nat) (s : State) : List Nat :=
  (List.range 256).filter (fun c => s.rdN (chk c 2) == 3 && s.rdN (chk c 3) == n)

/-- The batches with a node on link k: routed to it or read from it. -/
def State.linkBatches (k : Nat) (s : State) : List Nat :=
  allBatches.filter (fun b => (s.batchNodes b).any (fun n => s.rdN (ndk n 1) == k))

/-! ### Capacity (R211) -/

def edgeCap (n : Nat) : Nat := (578 - 4 * ((n + 3) / 4) - 12 * n) / 6

/-- The edge demand of link k. -/
def State.edgeDemand (k : Nat) (s : State) : Nat :=
  (allBatches.map (fun b =>
    let n := ((s.members b).filter (fun c => s.rdN (chk c 2) == 3 && s.rdN (ndk (s.rdN (chk c 3)) 1) == k)).length
    2 * (if s.cycleOf b % 2000 = 0 then 1 else 2) * n)).sum

/-- Whether no link's demand passes its capacity, and no batch of output class 1 runs below 5 µs (R211): 0 or the abort code. -/
def State.linksOwn (s : State) : Nat :=
  firstFail [
    needs (allLinks.all (fun k => s.edgeDemand k ≤ s.rdN (lk k 8))) 0x0B000090,
    needs (allBatches.all (fun b => s.outClass b != 1 || (s.members b).isEmpty || 2000 ≤ s.cycleOf b)) 0x0B000095]

/-- Reports nodes placed, demand and status bit 5 of a link. -/
def State.syncLink (k : Nat) (s : State) : State :=
  let d := s.edgeDemand k
  ((s.wr (lk k 5) (min 32 (s.placed k).length)).wr (lk k 9) (min 255 d)).setBit (lk k 0x13) 5 (s.rdN (lk k 8) < d)

/-! ### Frames of the module (R203 to R208) -/

/-- Whether the module commands on its links: it is not superseded and not a standby (R219, R307). -/
def State.commandsLinks (s : State) : Bool := s.commands && !s.links.superseded

/-- The control byte of node n (R207, Table 09-2): the block bit for as long as its batch is blocked or in Fault, the enable bit while its
outputs are enabled; neither in the other states with outputs off (notes/assumptions/28). -/
def State.controlByte (n : Nat) (s : State) : Nat :=
  if !s.commandsLinks then 0 else
  match s.nodeBatch n with
  | some b => if s.bstate b == .blocked || s.bstate b == .fault then 1 else if (s.batch b).outOn then 2 else 0
  | none => 0

/-- The edge commands of link k in the frame that departs at module time `tf`: those of every batch whose cycle sealed at least 1.5 µs before
(R208), sorted by offset, position, slot. -/
def State.linkEdges (k : Nat) (tf : Time) (s : State) : List EdgeCmd :=
  if !s.commandsLinks then [] else
  let es := allBatches.flatMap (fun b => ((s.batch b).edges.filter (fun x => x.sealedAt + Time.ns 1500 ≤ s.now)).flatMap (·.edges))
  let cmds := es.filterMap (fun e =>
    let n := s.rdN (chk e.chan 3)
    if s.rdN (chk e.chan 2) == 3 && s.rdN (ndk n 1) == k then
      some { pos := s.rdN (ndk n 2), slot := s.rdN (chk e.chan 4), level := e.level, offset := e.pos - tf : EdgeCmd }
    else none)
  let le (x y : EdgeCmd) : Bool :=
    x.offset < y.offset || (x.offset == y.offset && (x.pos < y.pos || (x.pos == y.pos && x.slot ≤ y.slot)))
  cmds.mergeSort le

def edgeBytes (e : EdgeCmd) : List Byte := d8 (e.pos % 32) ++ d8 (e.slot % 32 + 128 * b2n e.level) ++ d32 e.offset

/-- A header (Table 10-3) with E edges. -/
def headBytes (h : FrameHead) (e : Nat) : List Byte :=
  [h.kind, h.link] ++ d8 h.count ++ d8 e ++ d64 h.tf ++ d32 h.epoch ++ d16 h.seq ++ d8 h.reqCode ++ d8 h.reqPos ++ d16 h.reqAddr ++ d32 h.reqData
    ++ d8 h.respCode ++ d8 h.respPos ++ d32 h.respData

/-- What the CRC of a frame covers (Table 10-2); `slots` is the up section. -/
def frameBody (h : FrameHead) (ctl slots : List Byte) (es : List EdgeCmd) : List Byte :=
  headBytes h es.length ++ ctl ++ List.replicate (4 * ((h.count + 3) / 4) - ctl.length) 0 ++ slots ++ es.flatMap edgeBytes

/-- The 625 characters of a frame (Table 10-2) as their 8-bit values: K28.5 is 0xBC, K27.7 0xFB, K29.7 0xFD, K30.7 0xFE, D16.2 0x50. -/
def frameWith (body crc : List Byte) (stomp : Bool) : List Byte :=
  let chars := [0xBC, 0xFB] ++ body ++ crc ++ [if stomp then 0xFE else 0xFD]
  chars ++ ((List.replicate 313 [(0xBC : Byte), 0x50]).flatten).take (625 - chars.length)

/-- The characters of a frame that carries its own CRC. -/
def frameChars (h : FrameHead) (ctl slots : List Byte) (es : List EdgeCmd) (stomp : Bool) : List Byte :=
  let body := frameBody h ctl slots es
  frameWith body (d32 (crc32 body)) stomp

/-- The module's own epoch (R219, R307): the one it took, or was granted; a standby has none. -/
def State.ownEpoch (s : State) : Nat :=
  if s.rdN (key 0x2510 1) = 0 then s.links.epoch else if s.commands then s.rdN (key 0x2510 8) else 0

/-- The header of a module frame on link k (R205): the response fields are 0. -/
def State.moduleHead (k count tf epoch seq code pos addr data : Nat) (s : State) : FrameHead where
  kind := BitVec.ofNat 8 (16 * s.rdN (key 0x2510 1))
  link := BitVec.ofNat 8 k
  count := count
  tf := tf
  epoch := epoch
  seq := seq
  reqCode := code
  reqPos := pos
  reqAddr := addr
  reqData := data
  respCode := 0
  respPos := 0
  respData := 0

/-- A frame of the module on link k (Tables 10-2, 10-3): its up section stays zero. One of an enumeration (`scan`) has epoch 0 and counts no
node (R213, item 1); a standby's other frames have epoch 0 and the count of the enumerated nodes (R204, R307). -/
def State.moduleFrame (k tf : Nat) (scan : Bool) (code pos addr data : Nat) (es : List EdgeCmd) (s : State) : List Byte :=
  let n := if scan then 0 else s.rdN (lk k 4)
  let epoch := if scan then 0 else s.ownEpoch
  let ctl := (List.range n).flatMap (fun p => d8 (match s.nodeAt k p with
    | some m => s.controlByte m
    | none => 0))
  frameChars (s.moduleHead k n tf epoch (s.link k).seq code pos addr data) ctl (leBytes (12 * n) 0) es false

/-- The request that goes out with the next frame of link k (R210): the outstanding one, where it departs or is repeated. -/
def State.dueRequest (k : Nat) (s : State) : Option LinkReq := (s.link k).req.bind (fun q => if q.sent.isNone then some q else none)

/-- The frame of link k that departs at `tf`; while an enumeration waits for its result, one of epoch 0 without edges. -/
def State.frameBytes (k : Nat) (tf : Time) (es : List EdgeCmd) (s : State) : List Byte :=
  let scan := (s.link k).scanning
  let req := (s.dueRequest k).getD { code := 0, pos := 0, addr := 0, data := 0, node := 0 }
  s.moduleFrame k (Time.toNs tf) scan req.code req.pos req.addr req.data (if scan then [] else es)

/-- Node telemetry that has run out (R16, R220): counted, and the node is lost. -/
def State.checkNodes (s : State) : State :=
  s.each ((s.links.heard.map (·.1)).filter (fun n => s.rdN (ndk n 5) == 2 && s.nodeLost n)) (fun n s => (s.wr (ndk n 5) 5).inc (ndk n 0x1A))

/-- Whether the transmitter of link k is lit (R395, R338): the link is enabled, insertion is complete, the proof check has passed, and PD4 is on. -/
def State.lit (k : Nat) (s : State) : Bool := s.rdB (lk k 1) && s.power.inserted && s.power.proofHeld && s.domOn 4

/-- Whether frames depart on link k (R203): its transmitter is lit, and it is enumerating, running, or has entered running service; a break does
not end that. -/
def State.departs (k : Nat) (s : State) : Bool :=
  s.lit k && ((2 ≤ s.rdN (lk k 3) && s.rdN (lk k 3) ≤ 4) || (s.link k).service)

/-- FRAME_DEPARTURE (R203): at an instant of the frame grid, one frame on each link that departs and whose enumeration leaves the instant
free; the edges it carries leave the edge buffers. -/
def State.frameDeparture (s : State) : State :=
  if 32 ≤ s.modTime % framePeriod then s else
  let tf := s.modTime / framePeriod * framePeriod
  let ks := allLinks.filter (fun k => s.departs k && decide ((s.link k).next ≤ Time.toNs tf))
  let s := s.each ks (fun k s =>
    let es := s.linkEdges k tf
    let s := (s.msg "FRAME" [k] (s.frameBytes k tf es)).inc (lk k 0xB)
    let r := s.link k
    s.setLink k { r with seq := (r.seq + 1) % 65536, req := r.req.map (fun q => { q with sent := some (q.sent.getD s.now) }) })
  s.each allBatches (fun b s =>
    let r := s.batch b
    if r.edges.isEmpty then s else s.setBatch b { r with edges := r.edges.filter (fun x => s.now < x.sealedAt + Time.ns 1500) })
  |>.checkNodes


/-! ### Frames received (R212, R219 to R221) -/

/-- Whether the slots of a node are routed to channels of two batches (R11). -/
def State.twoBatches (n : Nat) (s : State) : Bool :=
  2 ≤ (((s.nodeChans n).map (fun c => s.rdN (chk c 1))).filter (· < 32)).eraseDups.length

/-- A higher epoch than the module's own on a link (R219): commanding stops on every link from the next departure; .10 reports it. -/
def State.higherEpoch (k e : Nat) (s : State) : State :=
  let was := s.bit (lk k 0x13) 6
  let s := (s.wr (lk k 0x10) (max (s.rdN (lk k 0x10)) e : Nat)).setBit (lk k 0x13) 6 true
  let s := ({ s with links := { s.links with superseded := true } }).supersede
  if was then s else s.logEvent 0x0401 k (d32 e)

/-- A module frame of the twin partner after an unplanned fail-over (R219, R307): its time marker gives the overlap, from the new module's first
departure to the old one's first without command (Table 15-9 .13; DEDUCED, notes/assumptions/38). -/
def State.noteOverlap (hd : FrameHead) (s : State) : State :=
  let role := hd.kind.toNat / 16 % 4
  if s.twinRole = 0 || 64 ≤ hd.kind.toNat || role = 0 || role = s.twinRole then s else
  match s.rack.started, s.rack.stopped with
  | some t, _ => if hd.epoch = 0 then (s.wr (twk 0x13) (hd.tf - t : Nat)).modRack (fun r => { r with started := none }) else s
  | none, some t => if s.rdN (twk 8) < hd.epoch then (s.wr (twk 0x13) (t - hd.tf : Nat)).modRack (fun r => { r with stopped := none }) else s
  | none, none => s

/-- One up slot of a used frame (R220): status always, values where the sequence advanced. -/
def State.useSlot (n : Nat) (tf : Time) (u : UpSlot) (s : State) : State :=
  let st := u.status.toNat
  if !(st.testBit 9) then s else
  let old := s.rdN (ndk n 0x11)
  let s := (s.wr (ndk n 0x11) st).wr (ndk n 0x12) u.legs.toNat
  let sq := st / 4096
  let s :=
    if Tbl.find? n s.links.lastSeq = some sq then s
    else
      let s := ((s.wr (ndk n 0xE) u.volt.toInt).wr (ndk n 0xF) u.cur.toInt).wr (ndk n 0x10) u.temp.toInt
      let s := { s with links := { s.links with
        lastSeq := Tbl.set n sq s.links.lastSeq, heard := Tbl.set n s.now s.links.heard
        sampled := Tbl.set n (((tf : Int) - Time.ns 1000 - s.clock.offset).toNat) s.links.sampled } }
      let tm := tf - Time.ns 1000
      let s := ((s.acqValue 4 n u.volt.toInt tm).acqValue 4 (n + 2 ^ 14) u.cur.toInt tm).acqValue 4 (n + 2 * 2 ^ 14) u.temp.toInt tm
      let s := s.acqValue 4 (n + 3 * 2 ^ 14) u.status.toInt tm
      let r := s.link (s.rdN (ndk n 1))
      if s.rdN (ndk n 5) = 5 && !r.rejoin && !(r.failed.contains n) then s.wr (ndk n 5) (if s.twoBatches n then 4 else 2) else s
  -- bootstrap undervoltage of the node's channels (R186)
  let low := st.testBit 2
  if low != old.testBit 2 then
    s.each ((s.nodeChans n).filter (fun c => (s.rdN (ndk n 8)).testBit (s.rdN (chk c 4)))) (fun c s =>
      let s := s.setBit (chk c 0xF) 3 low
      if low then (s.inc (chk c 0x12)).logEvent 0x0201 c (d16 c) else s)
  else s

/-- Whether a slot shows a masked bit that the slot used before did not (R221). -/
def State.newFault (n : Nat) (u : UpSlot) (s : State) : Bool :=
  let m := s.rdN (ndk n 0x16) % 16
  u.status.toNat.testBit 9 && u.status.toNat &&& m != 0 && s.rdN (ndk n 0x11) &&& m == 0

/-- NODE_FAULT_BLOCK (R221): the used slots with a masked bit decide one block per batch, whose event carries every node and its legs. -/
def State.nodeFaults (used : List (Nat × UpSlot)) (s : State) : State :=
  let hit := used.filter (fun p => p.2.status.toNat.testBit 9 && (p.2.status.toNat &&& s.rdN (ndk p.1 0x16)) % 16 != 0)
  s.each allBatches (fun b s =>
    let mine := hit.filter (fun p => s.nodeBatch p.1 == some b)
    if mine.isEmpty then s else s.blockBatch b 256 (mine.flatMap (fun p => d16 p.1 ++ d32 p.2.legs.toNat)))

/-- A response on link k completes the outstanding request (R210), which answers the host. -/
def State.takeResponse (k code pos data : Nat) (s : State) : State :=
  match (s.link k).req with
  | none => s
  | some q =>
    if code = 0 || q.sent.isNone || pos ≠ q.pos then s else
    let s := s.setLink k { (s.link k) with req := none }
    if code = 1 then
      if q.code ≠ 1 then s.answerTo q.sid 0
      else
        let s := s.wr (ndk q.node 0x1D) (data % 2 ^ 32 : Nat)
        match q.segment with
        | none => (s.emit (.reply 0 0 (d32 data))).sessionReply q.sid
        | some limit => s.segmentOf q.sid (ndk q.node 0x1D) 0 limit (d32 data)
    else s.answerTo q.sid 0x0B000094

/-- Whether every node of link k reports time locked in its slot (R213, item 6). -/
def State.allLocked (k : Nat) (s : State) : Bool := (List.range (s.rdN (lk k 4))).all ((s.link k).locked.testBit)

/-- What the slots of a used frame on link k say of the nodes' time: bit 8 of every slot that a node has written. -/
def State.noteLocked (k : Nat) (slots : List UpSlot) (s : State) : State :=
  let l := (List.zip (List.range 32) slots).filter (fun p => p.2.status.toNat.testBit 9)
  let r := s.link k
  let s := s.setLink k { r with locked := l.foldl (fun m p => withBit m p.1 (p.2.status.toNat.testBit 8)) r.locked }
  let timed := l.filterMap (fun p => if p.2.status.toNat.testBit 8 then s.nodeAt k p.1 else none)
  { s with links := { s.links with untimed := s.links.untimed.filter (fun n => !(timed.contains n)) } }

/-- The bytes of an up slot (Table 10-6). -/
def slotBytes (u : UpSlot) : List Byte :=
  d16 (unsigned 16 u.volt.toInt) ++ d16 (unsigned 16 u.cur.toInt) ++ d16 (unsigned 16 u.temp.toInt) ++ d16 u.status.toNat ++ d32 u.legs.toNat

/-- Whether a header is that of a frame of an enumeration: a module frame with epoch 0 and N = 0 (R213, item 1). -/
def scanHead (h : FrameHead) : Bool := decide (h.kind.toNat < 64) && h.epoch == 0 && h.count == 0

/-- Whether the module is the turn point of its ring twin, which is enumerating (R202): it retransmits the twin's frame, character by
character. -/
def State.loopsBack (k : Nat) (f : UpFrame) (s : State) : Bool := s.lit k && s.rdN (lk k 2) == 1 && scanHead f.head

/-- The characters of such a frame as they arrived, with the CRC that it carries. -/
def loopedChars (f : UpFrame) : List Byte :=
  let body := frameBody f.head [] [] []
  frameWith body (d32 (if f.crcGood then crc32 body else f.crc.toNat)) f.stomped

/-- The link enters running service (R213, item 6). -/
def State.startService (k : Nat) (s : State) : State := (s.wr (lk k 3) 3).setLink k { (s.link k) with service := true }

/-- UP_FRAME_RECEIVED (R212, R219, R220, R221): a bad or stomped frame is discarded whole. -/
def State.upFrame (k : Nat) (f : UpFrame) (s : State) : State :=
  let s := if s.loopsBack k f then s.msg "LOOPED_FRAME" [k, f.head.tf] (loopedChars f) else s
  let tf := Time.ns f.head.tf
  if !(s.rdB (lk k 1)) || s.rdN (lk k 3) < 2 then s else
  let s := s.inc (lk k 0xE) f.violations
  if !f.crcGood || f.stomped then s.inc (lk k 0xD)
  else
    let s := s.inc (lk k 0xC)
    let s := (if s.ownEpoch < f.head.epoch then s.higherEpoch k f.head.epoch else s).noteOverlap f.head
    let used := (List.zip (List.range 32) f.slots).filterMap (fun p => (s.nodeAt k p.1).map (fun n => (n, p.2)))
    let s := s.each (used.filter (fun p => s.newFault p.1 p.2)) (fun p s =>
      (s.inc (ndk p.1 0x17)).logEvent 0x0300 p.1 (d16 p.2.status.toNat ++ d32 p.2.legs.toNat))
    let s := (s.each used (fun p s => s.useSlot p.1 tf p.2)).noteLocked k f.slots
    let s := s.nodeFaults used
    let s := s.each (List.zip (List.range 32) f.slots) (fun p s =>
      if p.2.status.toNat.testBit 9 then s.frameSource 0xA (256 * k + p.1) (slotBytes p.2) (tf - Time.ns 1000) else s)
    let s := s.takeResponse k f.head.respCode f.head.respPos f.head.respData
    if s.rdN (lk k 3) = 2 && s.rdN (lk k 4) ≠ 0 && s.allLocked k then s.startService k else s

def execUpFrameReceived (t : Time) (k : LinkNo) (f : UpFrame) (s : State) : Host.Outcome State Fault Refusal :=
  .next ((s.begin t).upFrame k f)

/-- REQUEST_TIMEOUT (R210): repeated after three frame periods; after three repeats, the timeout. A request on a link from which no frame
departs is timed out too (DESIGN CHOICE, notes/assumptions/115). -/
def State.requestTimeout (k : Nat) (s : State) : State :=
  let r := s.link k
  match r.req with
  | none => s
  | some q =>
    match q.sent with
    | none => if s.departs k then s else ((s.setLink k { r with req := none }).inc (lk k 0x11)).answerTo q.sid 0x0B000093
    | some t =>
      if s.now < t + 3 * framePeriod then s
      else if q.tries < 3 then s.setLink k { r with req := some { q with sent := none, tries := q.tries + 1 } }
      else ((s.setLink k { r with req := none }).inc (lk k 0x11)).answerTo q.sid 0x0B000093

def execRequestTimeout (t : Time) (k : LinkNo) (s : State) : Host.Outcome State Fault Refusal := .next ((s.begin t).requestTimeout k)

/-! ### Enumeration (R213, R216, R219) -/

/-- The figures of a node as enumerated (Table 10-11). -/
def State.nodeFigures (n : Nat) (d prev : Nat) (x : NodeId) (s : State) : State :=
  let s := ((s.wr (ndk n 6) (x.kind % 65536 : Nat)).wr (ndk n 7) (x.slots % 256 : Nat)).wr (ndk n 8) (x.bootMask % 2 ^ 32 : Nat)
  let s := ((s.wrF (ndk n 9) x.voltFs).wrF (ndk n 0xA) x.curFs).wrF (ndk n 0xB) x.tempFs
  (s.wr (ndk n 0xC) (d % 2 ^ 32 : Nat)).wr (ndk n 0xD) ((d - prev) % 2 ^ 32 : Nat)

/-- Node p's one-way delay in ps (R216): the mean over the repeats of (R_M − (b − a)) / 2, a fine step being 625/8 ps, rounded to the nearest
ps. -/
def measuredDelay (runs : List DelayRun) (p : Nat) : Nat :=
  let num : Int := (runs.map (fun r => 8 * (r.trip : Int) - 625 * (r.spans.getD p 0))).sum
  let den : Int := 16 * runs.length
  ((2 * num + den) / (2 * den)).toNat

/-- The delays of the positions where no times are brought: as measured last, free at a node that none was measured for
(notes/assumptions/115). -/
def State.knownDelays (k n : Nat) (s : State) : List Nat × State :=
  let (i, s) := s.draw
  ((List.range n).map (fun p => (((s.nodeAt k p).bind (fun m => Tbl.find? 0x3C (s.node m).regs)).getD (Config.linkDelay i p).toNat)), s)

/-- The next grid instant that link k has free for a frame of its enumeration, in TAI ns (R203). -/
def State.nextInstant (k : Nat) (s : State) : Nat := max (s.link k).next ((s.tai + 4999) / 5000 * 5000)

/-- A request of the enumeration on link k (R213, R216): a frame of its own at the link's next free grid instant, one of item 1 where `scan`. -/
def State.linkFrame (k : Nat) (scan : Bool) (code pos addr data : Nat) (s : State) : State :=
  let tf := s.nextInstant k
  let r := s.link k
  ((s.msg "ENUMERATION_FRAME" [k] (s.moduleFrame k tf scan code pos addr data [])).inc (lk k 0xB)).setLink k
    { r with seq := (r.seq + 1) % 65536, next := tf + 5000 }

/-- The frames that measure the delays of link k (R216): 64 requests. -/
def State.measureFrames (k : Nat) (s : State) : State := s.each (List.range 64) (fun _ => State.linkFrame k true 5 0xFF 0 0)

/-- The registers that the module reads of position p, and writes to it (R213, items 4 and 5; R219). -/
def State.readNode (k p top : Nat) (s : State) : State :=
  s.each ((List.range 32).filter (fun a => a % 4 == 0 && a ≤ top)) (fun a => State.linkFrame k true 1 p a 0)
def State.sendRegs (k n : Nat) (as : List Nat) (s : State) : State :=
  s.each as (fun a s => s.linkFrame k false 2 (s.rdN (ndk n 2)) a (Tbl.get 0 a (s.node n).regs))

/-- No node is enumerated on link k: N is 0, the capacity that of no node (Table 10-12 .08), and status bit 2 clears. -/
def State.noNodes (k : Nat) (s : State) : State :=
  (((s.wr (lk k 4) 0).wr (lk k 8) 96).setBit (lk k 0x13) 2 false).syncLink k

/-- An enumeration of link k starts (R213, items 1 and 2): its state is enumerating, no node is found yet, and request 0x04 goes out. -/
def State.startScan (k : Nat) (s : State) : State :=
  let s := ((s.wr (lk k 3) 2).noNodes k).linkFrame k true 4 0xFF 0 0
  s.setLink k { (s.link k) with scanning := true }

/-- An enumeration or rejoining of link k has its result: the latest slots say nothing of the nodes' time any longer. -/
def State.endScan (k : Nat) (failed : List Nat) (s : State) : State :=
  s.setLink k { (s.link k) with rejoin := false, failed := failed, scanning := false, locked := 0 }

/-- The registers of the routed slots of a node. -/
def State.deadRegs (n : Nat) (s : State) : List Nat := (s.nodeChans n).map (fun c => 0x100 + 4 * s.rdN (chk c 4))

/-- Whether a node is what its object expects (R213, item 4). -/
def State.identityOk (n : Nat) (x : NodeId) (s : State) : Bool :=
  let e := s.rdN (ndk n 3)
  x.protocol == 1 && x.kind != 0 && (e == 0 || e == x.kind) && 1 ≤ x.slots && x.slots ≤ 32

/-- The registers that the module writes into a node (R213, item 5). -/
def State.writeNode (n d : Nat) (x : NodeId) (s : State) : State :=
  let r := s.node n
  let u := match s.nodeBatch n with
    | some b => s.cycleOf b
    | none => 0
  let regs := Tbl.set 0x3C d (Tbl.set 0x38 (s.rdN (ndk n 0x19)) (Tbl.set 0x34 u r.regs))
  let regs := (s.nodeChans n).foldl (fun t c => Tbl.set (0x100 + 4 * s.rdN (chk c 4)) (max x.minDead (s.rdN (chk c 6))) t) regs
  s.setNode n { r with regs := regs, pos := s.rdN (ndk n 2), id := some x, lockRun := 0, timeSet := false }

/-- A configured node at its position of an enumeration: not found, or its figures, its state and its registers (R213, R11). -/
def State.placeNode (found : List NodeId) (delays : List Nat) (m : Nat) (s : State) : State :=
  let p := s.rdN (ndk m 2)
  match found[p]? with
  | none => s.wr (ndk m 5) 1
  | some x =>
    let d := delays.getD p 0
    let s := s.nodeFigures m d (if p = 0 then 0 else delays.getD (p - 1) 0) x
    let st := if !(s.identityOk m x) then 3 else if s.twoBatches m then 4 else 2
    (s.wr (ndk m 5) st).writeNode m d x

/-- The epoch after an enumeration (R219): above every node's for a standalone module, the twin's own else. -/
def State.enumerationEpoch (k : Nat) (found : List NodeId) (s : State) : State :=
  if s.rdN (key 0x2510 1) = 0 then
    let e := max s.links.epoch (found.foldl (fun m x => max m (x.epoch + 1)) 1)
    let s := { s with links := { s.links with epoch := e, superseded := false } }
    s.each allLinks (fun j s => if s.rdN (lk j 3) = 0 then s else (s.wr (lk j 0x10) e).setBit (lk j 0x13) 6 false)
  else s.wr (lk k 0x10) (s.rdN (key 0x2510 8))

/-- The up-frame delay of link k (Table 10-12 .07): in line topology that of its turn node, the last of `n`. -/
def State.upDelay (k n : Nat) (delays : List Nat) (s : State) : State :=
  s.wr (lk k 7) (if s.rdN (lk k 2) = 0 then delays.getD (n - 1) 0 else 0 : Nat)

/-- A link whose nodes answer again shows no split and no unreached position (Table 10-12 .12, .13). -/
def State.wholeAgain (k : Nat) (s : State) : State :=
  ((s.setBit (lk k 0x13) 3 (s.rdN (lk k 2) = 1)).setBit (lk k 0x13) 4 false).wr (lk k 0x12) 0xFF

/-- ENUMERATE on link k with what its nodes read and their delays (R213): N, capacity, identities, delays, the epoch of a standalone module,
registers. -/
def State.enumerate (k : Nat) (found : List NodeId) (delays : List Nat) (s : State) : State :=
  let n := found.length
  let s := if (s.link k).scanning then s else s.startScan k
  let s := { s with links := { s.links with lastSeq := s.links.lastSeq.filter (fun e => s.rdN (ndk e.1 1) != k) } }
  let s := s.each [0, 1] (fun i => State.setBit (lk k 0x13) i true)
  if 32 < n || edgeCap n < s.edgeDemand k then (((s.wr (lk k 3) 5).noNodes k).wr (lk k 4) (min n 32)).endScan k []
  else
    let top := if s.rdN (key 0x2510 1) = 0 then 0x1C else 0x18
    let s := (s.measureFrames k).each (List.range n) (fun p => State.readNode k p top)
    let s := ((((s.endScan k []).wr (lk k 3) 2).wr (lk k 4) n).wr (lk k 8) (edgeCap n)).upDelay k n delays
    let s := (s.each (s.placed k) (State.placeNode found delays)).enumerationEpoch k found
    let s := s.each ((s.placed k).filter (fun m => s.rdN (ndk m 2) < n)) (fun m s => s.sendRegs k m ([0x34, 0x38, 0x3C] ++ s.deadRegs m))
    let s := (s.setBit (lk k 0x13) 2 true).wholeAgain k
    let s := s.each (s.linkBatches k) State.syncTimeline
    (if n = 0 then s.startService k else s).syncLink k

/-- 0x3700 + k .06 (R213, R211); a link whose transmitter is dark has nothing to enumerate (DESIGN CHOICE, notes/assumptions/115). -/
def enumerateEff (k : Nat) (found : List NodeId) (delays : List Nat) : Eff where
  own s := firstFail [needs (s.lit k) abState,
    needs ((s.linkBatches k).all (fun b => s.bstate b == .off)) 0x0B000092,
    needs (s.edgeDemand k ≤ edgeCap (min 32 found.length)) 0x0B000090]
  eff := State.enumerate k found delays

/-- The delays that the repeats of a measurement give the nodes found. -/
def delaysOf (found : LinkScan) : List Nat := (List.range found.nodes.length).map (measuredDelay found.runs)

def execEnumerate (t : Time) (q : Req) (k : LinkNo) (found : LinkScan) (s : State) : Host.Outcome State Fault Refusal :=
  .next ((s.begin t).hostWrite q (0x3700 + k) 6 0 1 (enumerateEff k found.nodes (delaysOf found)))

/-- Whether registers 0x0000 to 0x0018 read as at the enumeration (R213). -/
def State.sameNode (n : Nat) (x : NodeId) (s : State) : Bool :=
  s.identityOk n x && s.rdN (ndk n 6) == x.kind && s.rdN (ndk n 7) == x.slots && s.rdN (ndk n 8) == x.bootMask
    && s.rdF (ndk n 9) == x.voltFs && s.rdF (ndk n 0xA) == x.curFs && s.rdF (ndk n 0xB) == x.tempFs

/-- Whether a node rejoins (R213): its identity matches and its delay `d` has changed by less than 1 ns. -/
def State.rejoins (n d : Nat) (x : NodeId) (s : State) : Bool :=
  let was := s.rdN (ndk n 0xC)
  s.sameNode n x && decide ((d : Int) - was < 1000) && decide ((was : Int) - d < 1000)

/-- A node rejoins (R213): register 0x003C is written again with its delay `d`; `prev` is that of the position before. -/
def State.rejoin (n d prev : Nat) (s : State) : State :=
  let s := ((s.wr (ndk n 5) (if s.twoBatches n then 4 else 2)).wr (ndk n 0xC) (d % 2 ^ 32 : Nat)).wr (ndk n 0xD) ((d - prev) % 2 ^ 32 : Nat)
  let r := s.node n
  (s.setNode n { r with regs := Tbl.set 0x3C d r.regs, timeSet := false, lockRun := 0 }).sendRegs (s.rdN (ndk n 1)) n [0x3C]

/-- SYNC_RETURN (R213): the link is enumerated where every batch on it is Off, else its nodes rejoin, and what the last enumeration found
stands again. -/
def State.syncReturn (k : Nat) (found : List NodeId) (delays : List Nat) (s : State) : State :=
  if !(s.lit k) then s
  else if (s.linkBatches k).all (fun b => s.bstate b == .off) then s.enumerate k found delays
  else
    let s := (s.measureFrames k).each (List.range found.length) (fun p => State.readNode k p 0x18)
    let pos (n : Nat) : Nat := s.rdN (ndk n 2)
    let back (n : Nat) : Bool := ((found[pos n]?).map (fun x => s.rejoins n (delays.getD (pos n) 0) x)).getD false
    let bad := (s.placed k).filter (fun n => !(back n))
    let s := s.each ((s.placed k).filter back) (fun n =>
      State.rejoin n (delays.getD (pos n) 0) (if pos n = 0 then 0 else delays.getD (pos n - 1) 0))
    let s := (s.each bad (fun n => State.wr (ndk n 5) 5)).upDelay k found.length delays
    let s := (((s.wr (lk k 3) 2).setBit (lk k 0x13) 0 true).setBit (lk k 0x13) 1 true).setBit (lk k 0x13) 2 (s.rdN (lk k 4) != 0)
    (s.wholeAgain k).endScan k bad

def execSyncReturn (t : Time) (k : LinkNo) (found : LinkScan) (s : State) : Host.Outcome State Fault Refusal :=
  .next ((s.begin t).syncReturn k found.nodes (delaysOf found))

/-- A break of link k (R222): reported and counted; a ring splits, and the state of the link becomes `new`. The nodes whose telemetry stops are
lost by their timeouts (R16); an outstanding request runs on into its repeats (R210). -/
def State.breakLink (k unreached new : Nat) (s : State) : State :=
  let s := ((s.inc (lk k 0xF)).wr (lk k 3) new).logEvent 0x0400 k (d8 new ++ d8 unreached)
  if s.rdN (lk k 2) = 1 then ((s.wr (lk k 0x12) (unreached % 256 : Nat)).setBit (lk k 0x13) 4 true).setBit (lk k 0x13) 3 false else s

/-- LINK_BREAK (R222): the module's receive side has lost signal and sync (notes/assumptions/115). A ring that was enumerated is split; a line,
and a link whose enumeration failed, has no signal. -/
def State.linkBreak (k unreached : Nat) (s : State) : State :=
  let st := s.rdN (lk k 3)
  if st < 2 then s else
  let s := s.breakLink k unreached (if s.rdN (lk k 2) = 1 && st ≤ 4 && !(s.link k).scanning then 4 else 1)
  let s := (s.setBit (lk k 0x13) 1 false).setBit (lk k 0x13) 0 false
  s.setLink k { (s.link k) with rejoin := true, scanning := false }

/-- A link that is disabled, or whose domain goes off: its state and live bits clear, and an outstanding request ends as timed out (R225;
notes/assumptions/115). -/
def State.linkOff (k : Nat) (s : State) : State :=
  let s := match (s.link k).req with
    | some q => s.answerTo q.sid 0x0B000093
    | none => s
  ((s.setLink k {}).wr (lk k 3) 0).each [0, 1, 2, 3, 4] (fun i => State.setBit (lk k 0x13) i false)

def execLinkBreak (t : Time) (k : LinkNo) (unreached : Nat) (s : State) : Host.Outcome State Fault Refusal :=
  .next ((s.begin t).linkBreak k unreached)

/-! ### Host requests to a node (R210, R214, R215, R224) -/

/-- Puts a request on the node's link; BUSY while one is outstanding (R210). -/
def State.nodeRequest (n code addr data : Nat) (segment : Option Nat) (s : State) : State :=
  let k := s.rdN (ndk n 1)
  if (s.link k).req.isSome then s.answer abBusy
  else s.setLink k { (s.link k) with
    req := some { code := code, pos := s.rdN (ndk n 2), addr := addr, data := data, node := n, sid := s.srv.cur, segment := segment } }

/-- NODE_REGISTER_READ (R224): a read of .1D, at once or in segments of up to `segment` bytes (R357). -/
def State.nodeRead (n : Nat) (segment : Option Nat) (s : State) : State := s.nodeRequest n 1 (s.rdN (ndk n 0x1C)) 0 segment

def execNodeRegisterRead (t : Time) (q : Req) (n : NodeNo) (s : State) : Host.Outcome State Fault Refusal := .next ((s.begin t).hostGet q (State.nodeRead n none))

/-- 0x3400 + n .1D (R214). -/
def nodeWriteEff (n : Nat) (v : Int) : Eff where
  own s := needs (0x1000 ≤ s.rdN (ndk n 0x1C) && match s.nodeBatch n with
    | some b => s.bstate b == .off
    | none => true) 0x0B000094
  eff s := (s.wr (ndk n 0x1D) v).nodeRequest n 2 (s.rdN (ndk n 0x1C)) v.toNat none
  replies := false

def execNodeRegisterWrite (t : Time) (q : Req) (n : NodeNo) (v : Nat) (s : State) : Host.Outcome State Fault Refusal :=
  .next ((s.begin t).hostWrite q (0x3400 + n) 0x1D 0 v (nodeWriteEff n v))

/-- 0x3400 + n .15 (R215). -/
def nodeClearEff (n : Nat) : Eff where
  own s := match s.nodeBatch n with
    | some b => needs (s.bstate b == .off || s.bstate b == .blocked || s.bstate b == .fault) 0x0B000094
    | none => 0
  eff s := s.nodeRequest n 3 0 0 none
  replies := false

def execClearFaults (t : Time) (q : Req) (n : NodeNo) (s : State) : Host.Outcome State Fault Refusal :=
  .next ((s.begin t).hostWrite q (0x3400 + n) 0x15 0 1 (nodeClearEff n))

/-- 0x3400 + n .16 (R221): bits 0 and 1 stay set, bit 2 clear. -/
def nodeMaskEff (n : Nat) (v : Int) : Eff where
  own _ := needs (v.toNat % 8 == 3) abRange
  eff := State.wr (ndk n 0x16) v

end Sys2Proof.Machine
end

