-- ==== Sys2Proof/Machine/Nodes.lean ====
section
/-! DEFINITION. A node as seen from the link (R202, R206 to R218, R221): control bytes, frames, edges, missed periods, registers. -/

namespace Sys2Proof.Machine

/-- Whether a node's gates may be on (R207, R218). -/
def NodeRec.gatesOn (r : NodeRec) : Bool := r.ctl.testBit 1 && !(r.ctl.testBit 0) && !r.early && !r.watchdog

/-- Slots of a node, and its delay in fine steps (register 0x003C, ps). -/
def NodeRec.slots (r : NodeRec) : Nat := (r.id.map (·.slots)).getD 0
def NodeRec.delay (r : NodeRec) : Time := 64 * Tbl.get 0 0x3C r.regs / 5000
def NodeRec.window (r : NodeRec) : Nat := 32 * Tbl.get 0 0x34 r.regs
def NodeRec.periods (r : NodeRec) : Nat := max 2 (Tbl.get 3 0x38 r.regs)

/-- Time locked (R217): 16 frames in a row met the lock test. -/
def NodeRec.locked (r : NodeRec) : Bool := 16 ≤ r.lockRun

/-- Whether a node is blocked locally, by any cause of its own (Table 10-7, bit 5): a slot off under its own protection (R221) or the watchdog
(R218); not the module's block bit (DEDUCED from Table 10-15, notes/assumptions/115). -/
def NodeRec.blockedLocally (r : NodeRec) : Bool := r.shorts != 0 || r.undervolts != 0 || r.watchdog

/-- The status that a node writes (Table 10-7). -/
def NodeRec.status (r : NodeRec) : Nat :=
  b2n (r.shorts != 0) + 2 * b2n (r.undervolts != 0) + 4 * b2n (r.under != 0) + 8 * b2n r.hot + 16 * b2n (r.below != 0) + 32 * b2n r.blockedLocally
  + 64 * b2n r.watchdog + 128 * b2n (0 < r.missRun) + 256 * b2n r.locked + 512 + 4096 * (r.seq % 16)

/-- The up slot of a node (Table 10-6). -/
def NodeRec.upSlot (r : NodeRec) : List Byte :=
  d16 (unsigned 16 r.volt) ++ d16 (unsigned 16 r.cur) ++ d16 (unsigned 16 r.temp) ++ d16 r.status ++ d32 (r.shorts ||| r.undervolts)

/-- Every slot off: both gates, its level and what is scheduled. -/
def NodeRec.off (r : NodeRec) : NodeRec := { r with legs := 0, gates := [], edges := [] }

/-- An edge of S of a slot at `at_` (R184, R217): the gate commands follow with the slot's dead time. -/
def NodeRec.change (r : NodeRec) (e : NodeEdge) : NodeRec :=
  let g := (Tbl.get ({} : ChanRec) e.slot r.gates).settle e.at_
  { r with legs := withBit r.legs e.slot e.level, gates := Tbl.set e.slot (g.edge e.at_ e.level (Tbl.get 0 (0x100 + 4 * e.slot) r.regs)) r.gates }

/-- The gate commands (upper, lower) of a slot at module time `m`. -/
def NodeRec.slotGates (r : NodeRec) (i : Nat) (m : Time) : Bool × Bool :=
  let g := (Tbl.get ({} : ChanRec) i r.gates).settle m
  (g.up, g.lo)

/-- An epoch that a good module frame carries is adopted when it is higher; the frame is authoritative when it then equals the highest (R206). -/
def NodeRec.adopt (r : NodeRec) (good : Bool) (e : Nat) : NodeRec × Bool :=
  let r := if good then { r with epoch := max r.epoch e } else r
  (r, good && 1 ≤ e && e == r.epoch)

/-- NODE_POWER_ON: the node starts anew; only here is its highest epoch cleared (R206). -/
def execNodePowerOn (t : Time) (n : NodeNo) (id : NodeId) (s : State) : Host.Outcome State Fault Refusal :=
  .next ((s.begin t).setNode n { id := some id })

/-- NODE_CONTROL_BYTE (R207): a set block bit acts at once where the epoch is at least the node's highest. -/
def State.nodeControl (n : Nat) (ctl epoch : Nat) (s : State) : State :=
  let r := s.node n
  if ctl.testBit 0 && r.epoch ≤ epoch then s.setNode n { r.off with early := true } else s

def execNodeControlByte (t : Time) (n : NodeNo) (ctl : Byte) (epoch : Nat) (s : State) : Host.Outcome State Fault Refusal :=
  .next ((s.begin t).nodeControl n ctl.toNat epoch)

/-- The lock test (R217): the frame arrives within 1 ns of t_f + d_p by the node's own time, which the first authoritative frame sets. -/
def NodeRec.lockTest (r : NodeRec) (arrival : Int) : NodeRec :=
  if !r.timeSet then { r with timeSet := true, arrival := arrival, lockRun := 0 }
  else if arrival - r.arrival ≤ 12 && r.arrival - arrival ≤ 12 then { r with lockRun := min 16 (r.lockRun + 1) }
  else { r with lockRun := 0 }

/-- Whether a frame is one of an enumeration, which the turn point loops back (R202, R213): a module frame with epoch 0, N = 0 and E = 0, or
one that reaches a turn node whose time is not locked. -/
def NodeRec.loops (r : NodeRec) (f : NodeFrame) : Bool :=
  r.turn && !f.inward && ((scanHead f.head && f.edges.isEmpty) || !r.locked)

/-- The frame as the node forwards it (R209, R212): its slot, where the frame travels toward a module; a response that waits, where it travels
inward and the response code is free; the CRC recomputed; stomped where it arrived bad. -/
def NodeRec.forward (r : NodeRec) (f : NodeFrame) (ring bad : Bool) : List Byte :=
  let mine := f.inward || ring
  let slots := (List.zip (List.range 32) f.slots).flatMap (fun p => if mine && p.1 == r.pos then r.upSlot else slotBytes p.2)
  let h := match r.resp with
    | [] => f.head
    | (c, d) :: _ => if f.inward && f.head.respCode = 0 then { f.head with respCode := c, respPos := r.pos, respData := d } else f.head
  frameChars h f.controls slots f.edges bad

/-- NODE_FRAME_RECEIVED (R206, R209, R212, R217): epoch, lock test, the frame held until its use time, forwarded or stomped; the turn point
loops the frames of an enumeration back. Only a module frame sets epoch, time and commands. The command falls on the frame's start. -/
def State.nodeFrame (n : Nat) (f : NodeFrame) (s : State) : State :=
  let r := s.node n
  let good := f.crcGood && !f.violation && !f.stomped
  let own := f.head.kind.toNat < 64
  let tf := Time.ns f.head.tf
  let (r, auth) := r.adopt (good && own) f.head.epoch
  let r := if auth then r.lockTest ((s.modTime : Int) - (tf + r.delay)) else r
  let ctl := ((f.controls[r.pos]?).getD 0).toNat
  let r := if good && own then { r with held := r.held ++ [⟨tf, auth, ctl, f.edges⟩], link := f.head.link, count := f.head.count } else r
  let sent := r.forward f (s.rdN (lk (s.rdN (ndk n 1)) 2) == 1) (!good)
  let loop := r.loops f
  let r := if f.inward && f.head.respCode = 0 then { r with resp := r.resp.drop 1 } else r
  let s := (s.setNode n r).msg "NODE_FORWARD" [n, b2n (!good)] sent
  if loop then s.msg "LOOPED_FRAME" [n, f.head.tf] sent else s

def execNodeFrameReceived (t : Time) (n : NodeNo) (f : NodeFrame) (s : State) : Host.Outcome State Fault Refusal :=
  .next ((s.begin t).nodeFrame n f)

/-- The edges of an authoritative frame (R208, R217): each slot's scheduled edges at or after its earliest received time give way; edges of
absent slots or of a past time are late. -/
def NodeRec.takeEdges (r : NodeRec) (now tf : Time) (l : List EdgeCmd) : NodeRec :=
  let mine := l.filter (fun e => e.pos == r.pos)
  let bad := mine.filter (fun e => r.slots ≤ e.slot || tf + e.offset < now)
  let ok := mine.filter (fun e => e.slot < r.slots)
  let first (sl : Nat) : Option Nat := ((ok.filter (fun e => e.slot == sl)).map (fun e => tf + e.offset)).min?
  let keep := r.edges.filter (fun x => match first x.slot with
    | some t => x.at_ < t
    | none => true)
  let new := (ok.filter (fun e => now ≤ tf + e.offset)).map (fun e => (⟨tf + e.offset, e.slot, e.level, none⟩ : NodeEdge))
  { r with edges := keep ++ new, late := r.late + bad.length }

/-- One held frame becomes usable (R203, R207, R217): control byte, release, which starts every S at 0, and edges, which are scheduled with gates
off too; windows that begin from now on repeat nothing (R218). -/
def NodeRec.useFrame (r : NodeRec) (now : Time) (f : HeldFrame) : NodeRec :=
  if !f.auth then r else
  let was := r.gatesOn
  let r := { r with ctl := f.ctl, early := f.ctl.testBit 0, watchdog := r.watchdog && !(f.ctl.testBit 1 && !(f.ctl.testBit 0)) }
  let r := { r with missRun := 0, lastTf := f.tf, edges := r.edges.filter (fun e => (e.repeats.map (fun w => decide (w < now))).getD true) }
  let r := if was && !r.gatesOn then r.off else if r.gatesOn && !was then { r with legs := 0, gates := [] } else r
  r.takeEdges now f.tf f.edges

/-- NODE_FRAME_USABLE (R203): every held frame whose use time has come. -/
def State.frameUsable (n : Nat) (s : State) : State :=
  let r := s.node n
  let m := s.modTime
  let due := r.held.filter (fun f => f.tf + framePeriod + r.delay ≤ m)
  let r := { r with held := r.held.filter (fun f => m < f.tf + framePeriod + r.delay) }
  s.setNode n (due.foldl (fun r f => r.useFrame m f) r)

def execNodeFrameUsable (t : Time) (n : NodeNo) (s : State) : Host.Outcome State Fault Refusal := .next ((s.begin t).frameUsable n)

/-- NODE_EDGE (R217): the edges whose time has come change S and, with dead time, the gates; but for slots that a latched fault holds off
(R221) or that recharge their bootstrap (R186). -/
def State.nodeEdge (n : Nat) (s : State) : State :=
  let r := s.node n
  let m := s.modTime
  let due := (r.edges.filter (fun e => e.at_ ≤ m)).mergeSort (fun a b => a.at_ ≤ b.at_)
  let bad := r.shorts ||| r.undervolts ||| r.recharge
  let r := due.foldl (fun r e => if bad.testBit e.slot || !r.gatesOn then r else r.change e) r
  s.setNode n { r with edges := r.edges.filter (fun e => m < e.at_)
                       past := (r.past ++ due).filter (fun e => m < e.at_ + 2 * max r.window framePeriod) }

def execNodeEdge (t : Time) (n : NodeNo) (s : State) : Host.Outcome State Fault Refusal := .next ((s.begin t).nodeEdge n)

/-- The slots of `l` go into the local reaction of R186: upper gate off, lower gate held on, S 0. -/
def NodeRec.hold (r : NodeRec) (l : List Nat) (m : Time) : NodeRec :=
  l.foldl (fun r i =>
    let g := Tbl.get ({} : ChanRec) i r.gates
    { r with legs := withBit r.legs i false, gates := Tbl.set i { g.settle m with up := false, lo := true, gates := [], level := some false } r.gates }) r

/-- NODE_SAMPLE (R209): the values, and the node's own supervision as it stands: slots with a bootstrap undervoltage, slots below the refresh
threshold, overtemperature. A slot with an undervoltage recharges until it is above both (R186; notes/assumptions/115). -/
def State.nodeSample (n : Nat) (v i temp : Int) (under below : Nat) (hot : Bool) (s : State) : State :=
  let r := s.node n
  let fresh := (List.range r.slots).filter (fun j => under.testBit j && !(r.recharge.testBit j) && r.gatesOn)
  let r := r.hold fresh s.modTime
  s.setNode n { r with volt := v, cur := i, temp := temp, seq := (r.seq + 1) % 16, under := under, below := below, hot := hot
                       recharge := (r.recharge ||| under) &&& (under ||| below) }

def execNodeSample (t : Time) (n : NodeNo) (v i : Code) (own : NodeSelf) (s : State) : Host.Outcome State Fault Refusal :=
  .next ((s.begin t).nodeSample n v.toInt i.toInt own.temp.toInt own.under.toNat own.below.toNat own.hot)

/-- The header of a turn node's own frame (R205): type 1, the link and N of the module's frames, the node's epoch and sequence, and a response
that waits. -/
def NodeRec.turnHead (r : NodeRec) (tf : Nat) : FrameHead where
  kind := 0x40
  link := r.link
  count := r.count
  tf := tf
  epoch := r.epoch
  seq := r.fseq
  reqCode := 0
  reqPos := 0
  reqAddr := 0
  reqData := 0
  respCode := (r.resp.headD (0, 0)).1
  respPos := if r.resp.isEmpty then 0 else r.pos
  respData := (r.resp.headD (0, 0)).2

/-- TURN_NODE_FRAME (R203, R204): at an instant of the frame grid the turn node, once time-locked, originates a frame inward with its own slot;
its control table and edge list are empty of commands. -/
def State.turnFrame (n : Nat) (s : State) : State :=
  let r := s.node n
  if r.turn && r.locked && s.modTime % framePeriod < 32 then
    let tf := Time.toNs (s.modTime / framePeriod * framePeriod)
    let slots := (List.range r.count).flatMap (fun p => if p = r.pos then r.upSlot else leBytes 12 0)
    (s.setNode n { r with resp := r.resp.drop 1, fseq := (r.fseq + 1) % 65536 }).msg "TURN_FRAME" [n]
      (frameChars (r.turnHead tf) [] slots [] false)
  else s

def execTurnNodeFrame (t : Time) (n : NodeNo) (s : State) : Host.Outcome State Fault Refusal := .next ((s.begin t).turnFrame n)

/-- The window that begins at `w` repeats the edges of the one before it, shifted by U (R218). -/
def NodeRec.repeatWindow (r : NodeRec) (w : Time) : NodeRec :=
  let u := r.window
  let rep := ((r.past ++ r.edges).filter (fun e => w ≤ e.at_ + u && e.at_ < w)).map (fun e => { e with at_ := e.at_ + u, repeats := some w })
  { r with edges := r.edges ++ rep }

/-- MISSED_FRAME_PERIOD (R218): counted; every window that begins from this period's deadline on, up to the next one's, repeats the edges of
the one before. -/
def State.missedPeriod (n : Nat) (s : State) : State :=
  let r := s.node n
  let due := r.lastTf + framePeriod + Time.ns 6000 + r.delay
  if s.modTime < due then s else
  let u := r.window
  let starts := if u = 0 || !r.gatesOn then [] else
    ((List.range (framePeriod / u + 2)).map (fun i => ((due + u - 1) / u + i) * u)).filter (fun w => w < due + framePeriod)
  let r := starts.foldl NodeRec.repeatWindow r
  s.setNode n { r with missRun := r.missRun + 1, missed := r.missed + 1, lastTf := r.lastTf + framePeriod }

def execMissedFramePeriod (t : Time) (n : NodeNo) (s : State) : Host.Outcome State Fault Refusal := .next ((s.begin t).missedPeriod n)

/-- NODE_WATCHDOG (R218): after W consecutive missed periods every slot is blocked. -/
def State.nodeWatchdog (n : Nat) (s : State) : State :=
  let r := s.node n
  if r.periods ≤ r.missRun then s.setNode n { r.off with watchdog := true } else s

def execNodeWatchdog (t : Time) (n : NodeNo) (s : State) : Host.Outcome State Fault Refusal := .next ((s.begin t).nodeWatchdog n)

/-- NODE_SHORT_CIRCUIT (R221): the slot goes off and the fault and its leg bit latch. -/
def State.nodeShort (n i : Nat) (uv : Bool) (s : State) : State :=
  let r := s.node n
  if r.slots ≤ i then s else
  let r := if uv then { r with undervolts := withBit r.undervolts i true } else { r with shorts := withBit r.shorts i true }
  s.setNode n { r with legs := withBit r.legs i false, gates := Tbl.erase i r.gates, edges := r.edges.filter (fun e => e.slot ≠ i) }

def execNodeShortCircuit (t : Time) (n : NodeNo) (i : Fin 32) (undervoltage : Bool) (s : State) : Host.Outcome State Fault Refusal :=
  .next ((s.begin t).nodeShort n i undervoltage)

/-- TURN_NODE_CHANGE (R202, R222): a change while the link is running breaks it. The module's receive side keeps its sync, so a line runs on with
the nodes before the break (DEDUCED, notes/assumptions/115). -/
def State.turnChange (n : Nat) (turn : Bool) (s : State) : State :=
  let r := s.node n
  let s := s.setNode n { r with turn := turn }
  let k := s.rdN (ndk n 1)
  if r.turn != turn && s.rdN (lk k 3) = 3 then s.breakLink k (if turn then r.pos + 1 else s.rdN (lk k 4)) (if s.rdN (lk k 2) = 1 then 4 else 3) else s

def execTurnNodeChange (t : Time) (n : NodeNo) (turn : Bool) (s : State) : Host.Outcome State Fault Refusal :=
  .next ((s.begin t).turnChange n turn)

/-! ### Registers (Table 10-8) -/

/-- What a register reads; none where the node has no such address. -/
def NodeRec.register (r : NodeRec) (a : Nat) : Option Nat :=
  match r.id with
  | none => none
  | some x =>
    if a % 4 ≠ 0 then none
    else match a with
      | 0x00 => some x.protocol
      | 0x04 => some x.kind
      | 0x08 => some x.slots
      | 0x0C => some x.bootMask
      | 0x10 => some x.voltFs.toNat
      | 0x14 => some x.curFs.toNat
      | 0x18 => some x.tempFs.toNat
      | 0x1C => some r.epoch
      | 0x20 => some r.missed
      | 0x24 => some r.late
      | 0x28 => some r.latch
      | 0x2C => some x.minDead
      | _ =>
        if a = 0x34 || a = 0x38 || a = 0x3C || (0x100 ≤ a && a < 0x100 + 4 * x.slots) || 0x1000 ≤ a then some (Tbl.get 0 a r.regs) else none

/-- A node's response (Table 10-9): it waits for the first frame toward the module whose response code is 0x00 (R210). -/
def State.nodeRespond (n code data : Nat) (s : State) : State := s.setNode n { (s.node n) with resp := (s.node n).resp ++ [(code, data)] }

/-- READ_REGISTER (R210, R214): answered from any module frame. -/
def State.readRegister (n a : Nat) (s : State) : State :=
  match (s.node n).register a with
  | some v => s.nodeRespond n 1 v
  | none => s.nodeRespond n 2 0

def execReadRegister (t : Time) (n : NodeNo) (addr : Nat) (s : State) : Host.Outcome State Fault Refusal :=
  .next ((s.begin t).readRegister n addr)

/-- WRITE_REGISTER (R206, R214): obeyed only from an authoritative frame; a dead time is not below the node's minimum. -/
def State.writeRegister (n a v epoch : Nat) (s : State) : State :=
  let (r, auth) := (s.node n).adopt true epoch
  let s := s.setNode n r
  if !auth then s.nodeRespond n 3 0
  else if (r.register a).isNone || a < 0x34 then s.nodeRespond n 2 0
  else
    let low := 0x100 ≤ a && a < 0x1000 && v < (r.id.map (·.minDead)).getD 0
    if low then s.nodeRespond n 3 0
    else (s.setNode n { r with regs := Tbl.set a (v % 2 ^ 32) r.regs }).nodeRespond n 1 v

def execWriteRegister (t : Time) (n : NodeNo) (addr data epoch : Nat) (s : State) : Host.Outcome State Fault Refusal :=
  .next ((s.begin t).writeRegister n addr data epoch)

/-- CLEAR_LATCHED_FAULTS (R215): the bits whose cause is gone; `standing` has the legs whose cause still stands. -/
def State.nodeClear (n epoch standing : Nat) (s : State) : State :=
  let (r, auth) := (s.node n).adopt true epoch
  if !auth then (s.setNode n r).nodeRespond n 3 0
  else (s.setNode n { r with shorts := r.shorts &&& standing, undervolts := r.undervolts &&& standing }).nodeRespond n 1 0

def execClearLatchedFaults (t : Time) (n : NodeNo) (epoch standing : Nat) (s : State) : Host.Outcome State Fault Refusal :=
  .next ((s.begin t).nodeClear n epoch standing)

/-- A node that answers an enumerate or delay request while its gates are off sets its time again (R217). -/
def NodeRec.retime (r : NodeRec) : NodeRec := if r.gatesOn then r else { r with timeSet := false, lockRun := 0 }

/-- ENUMERATE_REQUEST (R213): the data is the node's position; the turn point returns N. -/
def State.enumerateRequest (n data : Nat) (s : State) : State :=
  let r := { (s.node n).retime with pos := data }
  let s := s.setNode n r
  if r.turn then s.msg "NODE_RESPONSE" [n, 4, 0xFF, (data + 1 : Nat)] [] else s.msg "NODE_ENUMERATE" [n, (data + 1 : Nat)] []

def execEnumerateRequest (t : Time) (n : NodeNo) (data : Nat) (s : State) : Host.Outcome State Fault Refusal :=
  .next ((s.begin t).enumerateRequest n data)

/-- DELAY_MEASUREMENT (R216): b − a in register 0x0028. -/
def State.delayMeasurement (n a b : Nat) (s : State) : State := s.setNode n { (s.node n).retime with latch := b - a }

def execDelayMeasurement (t : Time) (n : NodeNo) (a b : Nat) (s : State) : Host.Outcome State Fault Refusal :=
  .next ((s.begin t).delayMeasurement n a b)

end Sys2Proof.Machine
end

