-- ==== Sys2Proof/Machine/Clock.lean ====
section
/-! DEFINITION. References, PLL, bypass and holdover (R259 to R264), module time, PTP and the servo (R265 to R272), and the
time pulse outputs (R273, R274). -/

namespace Sys2Proof.Machine

/-- Entries of the clock, time and PTP objects. -/
def ckc (sub : Nat) (elem : Nat := 0) : Nat := key 0x2200 sub elem
def tmk (sub : Nat) : Nat := key 0x2300 sub
def ptk (sub : Nat) (elem : Nat := 0) : Nat := key 0x2310 sub elem
def tpk (k sub : Nat) : Nat := key (0x2320 + k) sub

def State.modClock (f : Clock → Clock) (s : State) : State := { s with clock := f s.clock }

/-! ### References and PLL -/

/-- The timebase moves to the bypass clock of reference r (R262); the causes of event 0x0801 are 1 lock lost, 2 reference lost,
3 reference returned, 4 selection (DESIGN CHOICE, notes/assumptions/34). -/
def State.toBypass (cause r : Nat) (s : State) : State :=
  let was := s.rdN (ckc 4)
  let s := if was = 1 || was = 2 then s else s.toExtended
  (s.wr (ckc 4) (1 + r : Nat)).logEvent 0x0801 0 (d8 cause ++ d8 r)

/-- Relock to reference r: a fast hop on its stored band, a full search where none is stored (R261). -/
def State.startHop (r : Nat) (s : State) : State :=
  let band := s.rdN (ckc 0x13 (1 + r))
  let s := s.modClock (fun c => { c with lockAt := none, hopAt := some s.now })
  if band ≠ 0xFF then ((s.wr (ckc 5) 4).wr (ckc 0xA) band).inc (ckc 0xD 1)
  else (s.wr (ckc 5) 2).inc (ckc 0xD 2)

/-- Changes the selected reference (R259): the timebase runs on it as the bypass clock until the PLL has locked to it (DESIGN
CHOICE, notes/assumptions/34). -/
def State.useReference (r : Nat) (s : State) : State :=
  if s.rdN (ckc 2) = r then s
  else
    let s := (s.wr (ckc 2) r).modClock (fun c => { c with lossAt := s.now, bothLost := none })
    (s.toBypass 4 r).startHop r

/-- The reference that the selection asks for (R259): automatic takes REFCLK while it is qualified and has not been left. -/
def State.wanted (s : State) : Nat :=
  match s.rdN (ckc 1) with
  | 0 => 0
  | 1 => 1
  | _ => if s.bit (ckc 3) 2 && !s.clock.left then 1 else 0

/-- Whether PD2 runs the PLL and a reference is there. -/
def State.clocked (s : State) : Bool := s.rdN (ckc 5) ≠ 0 && s.rdN (ckc 4) ≠ 3

/-- Follows the selection where its reference is present and, for REFCLK, qualified. -/
def State.reselect (s : State) : State :=
  if s.clocked && s.bit (ckc 3) s.wanted && (s.wanted == 0 || s.bit (ckc 3) 2) then s.useReference s.wanted else s

/-- REFCLK_QUALIFIED (R259). -/
def State.qualify (s : State) : State :=
  if s.bit (ckc 3) 2 then s else
  let s := (s.setBit (ckc 3) 1 true).setBit (ckc 3) 2 true
  (s.modClock (fun c => { c with qualSince := some s.now })).reselect

def execRefclkQualified (t : Time) (s : State) : Host.Outcome State Fault Refusal := .next (s.begin t).qualify

/-- REFCLK loses qualification; automatic selection leaves it (R259). -/
def State.disqualify (s : State) : State :=
  if !s.bit (ckc 3) 2 then s else
  let s := s.setBit (ckc 3) 2 false
  (s.modClock (fun c => { c with qualSince := none, left := c.left || s.rdN (ckc 2) == 1 })).reselect

def execRefclkDisqualified (t : Time) (s : State) : Host.Outcome State Fault Refusal := .next (s.begin t).disqualify

/-- REFCLK_RESELECTION (R259): qualified again for 10 s. -/
def State.reselectRefclk (s : State) : State :=
  match s.clock.qualSince with
  | some q => if q + Time.sec 10 ≤ s.now then (s.modClock (fun c => { c with left := false })).reselect else s
  | none => s

def execRefclkReselection (t : Time) (s : State) : Host.Outcome State Fault Refusal := .next (s.begin t).reselectRefclk

/-- REFERENCE_SELECT (R259): refused where REFCLK is forced and not qualified. -/
def referenceEff (v : Int) : Eff where
  own s := needs (v != 1 || s.bit (ckc 3) 2) 0x0B0000C3
  eff s := (s.wr (ckc 1) v).reselect

def execReferenceSelect (t : Time) (q : Req) (v : Nat) (s : State) : Host.Outcome State Fault Refusal :=
  .next ((s.begin t).hostWrite q 0x2200 1 0 v (referenceEff v))

/-- N and φ of an applied rate in ppb (R260): 128 × (1 + r × 10⁻⁹), rounded half to even to 2⁻³². -/
def pllWord (r : Int) : Nat := (roundRat (128 * 2 ^ 32 * (1 + (r : Rat) / 1000000000))).toNat

/-- PLL_UPDATE (R260): while locked, at most 1 ppm toward the request, within ±250 ppm; not in bypass or holdover. -/
def State.pllUpdate (s : State) : State :=
  if !s.bit (ckc 5) 0 || s.rdN (ckc 4) ≠ 0 then s
  else
    let r := s.rd (ckc 8)
    let want := clampI (s.rd (ckc 9)) (-250000) 250000
    let r := r + clampI (want - r) (-1000) 1000
    let w := pllWord r
    ((s.wr (ckc 8) r).wr (ckc 6) (w / 2 ^ 32 : Nat)).wr (ckc 7) (w % 2 ^ 32 : Nat)

def execPllUpdate (t : Time) (s : State) : Host.Outcome State Fault Refusal := .next (s.begin t).pllUpdate

/-- PLL_LOCK (R261): the hop or the search has locked; a search gives its band. -/
def State.pllLock (band : Nat) (s : State) : State :=
  let st := s.rdN (ckc 5)
  if !(st.testBit 1 || st.testBit 2) then s else
  let s := if st.testBit 1 then s.wr (ckc 0xA) band else s
  let s := (s.wr (ckc 5) 1).wr (ckc 0xE) (Time.toNs (s.now - s.clock.lossAt) : Nat)
  s.modClock (fun c => { c with lockAt := some s.now, hopAt := none })

def execPllLock (t : Time) (band : Fin 64) (s : State) : Host.Outcome State Fault Refusal := .next ((s.begin t).pllLock band)

/-- FAST_HOP_TIMEOUT (R261). -/
def State.hopTimeout (s : State) : State :=
  match s.clock.hopAt with
  | some h =>
    if s.bit (ckc 5) 2 && h + Time.us 20 ≤ s.now then
      ((s.wr (ckc 0x13 (1 + s.rdN (ckc 2) % 2)) 0xFF).wr (ckc 5) 2).inc (ckc 0xD 2)
    else s
  | none => s

def execFastHopTimeout (t : Time) (s : State) : Host.Outcome State Fault Refusal := .next (s.begin t).hopTimeout

/-- BAND_STORE (R261). -/
def State.bandStore (s : State) : State :=
  match s.clock.lockAt with
  | some l => if s.bit (ckc 5) 0 && l + Time.sec 1 ≤ s.now && s.rdN (ckc 2) < 2 then s.wr (ckc 0x13 (1 + s.rdN (ckc 2))) (s.rd (ckc 0xA)) else s
  | none => s

def execBandStore (t : Time) (s : State) : Host.Outcome State Fault Refusal := .next (s.begin t).bandStore

/-- CLEAR_STORED_BANDS (R261): only in Configuration. -/
def clearBandsEff : Eff where
  own s := needs (s.mod == .configuration) abState
  eff s := (s.wr (ckc 0x13 1) 0xFF).wr (ckc 0x13 2) 0xFF

def execClearStoredBands (t : Time) (q : Req) (s : State) : Host.Outcome State Fault Refusal :=
  .next ((s.begin t).hostWrite q 0x2200 0x14 0 1 clearBandsEff)

/-- PLL_UNLOCKED (R262): in the second cycle in error, 40 ns after the first, from which 0x2200.0E counts (Table 13-9). -/
def State.pllUnlocked (s : State) : State :=
  if !s.bit (ckc 5) 0 || s.rdN (ckc 4) = 3 then s else
  let r := s.rdN (ckc 2) % 2
  let s := (s.inc (ckc 0xB)).modClock (fun c => { c with lossAt := s.now - Time.ns 40 })
  (s.toBypass 1 r).startHop r

def execPllUnlocked (t : Time) (s : State) : Host.Outcome State Fault Refusal := .next (s.begin t).pllUnlocked

/-- REFERENCE_LOST (R262): on loss of the selected one, the other becomes the bypass clock, and the PLL relocks to it. -/
def State.referenceLost (r : Nat) (s : State) : State :=
  if !s.bit (ckc 3) r then s else
  let s := (s.setBit (ckc 3) r false).inc (ckc 0xC)
  let s := if r = 1 then (s.setBit (ckc 3) 2 false).modClock (fun c => { c with qualSince := none, left := c.left || s.rdN (ckc 2) == 1 }) else s
  if s.rdN (ckc 2) = r && s.clocked && s.bit (ckc 3) (1 - r) then
    let s := (s.wr (ckc 2) (1 - r : Nat)).modClock (fun c => { c with lossAt := s.now })
    (s.toBypass 2 (1 - r)).startHop (1 - r)
  else s

def execReferenceLost (t : Time) (refclk : Bool) (s : State) : Host.Outcome State Fault Refusal :=
  .next ((s.begin t).referenceLost (b2n refclk))

/-- Whether module time is at a frame-grid instant (R203, R262): within the 2.5 ns count of a multiple of 5 µs. -/
def State.onGrid (s : State) : Bool := s.modTime % framePeriod < 32

/-- RETURN_TO_PLL (R262): at a frame-grid instant at least 10 µs after lock. -/
def State.returnToPll (s : State) : State :=
  match s.clock.lockAt with
  | some l =>
    if s.bit (ckc 5) 0 && (s.rdN (ckc 4) = 1 || s.rdN (ckc 4) = 2) && l + Time.us 10 ≤ s.now && s.onGrid then (s.wr (ckc 4) 0).toNormal else s
  | none => s

def execReturnToPll (t : Time) (s : State) : Host.Outcome State Fault Refusal := .next (s.begin t).returnToPll

/-- BOTH_REFERENCES_LOST (R263): holdover on the VCO, and the ride window starts. -/
def State.bothLost (s : State) : State :=
  if s.rdN (ckc 4) = 3 then s else
  let byp := s.rdN (ckc 4) ≠ 0
  let used := s.rdN (ckc 2) == 1
  let s := s.inc (ckc 0xC) (b2n (s.bit (ckc 3) 0) + b2n (s.bit (ckc 3) 1))
  let s := ((s.wr (ckc 3) 0).wr (ckc 2) 0xFF).wr (ckc 5) 8
  let s := ((s.wr (ckc 4) 3).inc (ckc 0xF)).modClock (fun c =>
    { c with bothLost := some s.now, lossAt := s.now, lockAt := none, hopAt := none, qualSince := none, left := c.left || used })
  let s := if byp then s.toNormal else s
  s.logEvent 0x0802 0 []

def execBothReferencesLost (t : Time) (s : State) : Host.Outcome State Fault Refusal := .next (s.begin t).bothLost

/-- RIDE_WINDOW_END (R263, R193): every batch blocks; the timebase stays in holdover. -/
def State.rideWindowEnd (s : State) : State :=
  match s.clock.bothLost with
  | some l => if l + Time.ms 100 ≤ s.now && s.rdN (ckc 4) = 3 then s.each allBatches (fun b s => s.blockBatch b 2048 []) else s
  | none => s

def execRideWindowEnd (t : Time) (s : State) : Host.Outcome State Fault Refusal := .next (s.begin t).rideWindowEnd

/-- Microseconds left of the ride window, as 0x2200.10 reads. -/
def State.rideLeft (s : State) : Nat :=
  match s.clock.bothLost with
  | some l => (l + Time.ms 100 - s.now) / 12800
  | none => 0

/-- REFERENCE_RETURN (R263): the timebase moves to it as the bypass clock and the PLL relocks; outside holdover the selection of R259 is
followed again. -/
def State.referenceReturn (r : Nat) (s : State) : State :=
  let s := s.setBit (ckc 3) r true
  if s.rdN (ckc 4) = 3 then
    let s := (s.wr (ckc 2) r).modClock (fun c => { c with bothLost := none })
    (s.toBypass 3 r).startHop r
  else s.reselect

def execReferenceReturn (t : Time) (refclk : Bool) (s : State) : Host.Outcome State Fault Refusal :=
  .next ((s.begin t).referenceReturn (b2n refclk))

/-- HOUSEKEEPING_CLOCK_MEASUREMENT (R264): the error in 0.01 %, against the selected reference. -/
def State.hkMeasure (err : Int) (s : State) : State :=
  if s.rdN (ckc 2) = 0xFF then s
  else (s.wr (ckc 0x12) (sat16 err)).modClock (fun c => { c with hkAt := some s.now, hk := err })

def execHousekeepingClockMeasurement (t : Time) (err : Int) (s : State) : Host.Outcome State Fault Refusal :=
  .next ((s.begin t).hkMeasure err)

/-! ### Time pulse outputs (R273, R274) -/

def State.tpo (k : Nat) (s : State) : TpoRec := Tbl.get {} k s.clock.tpos
def State.setTpo (k : Nat) (r : TpoRec) (s : State) : State := s.modClock (fun c => { c with tpos := Tbl.set k r c.tpos })

/-- The firing F_j of output k in fine steps of module time. -/
def State.firing (k j : Nat) (s : State) : Time := 32 * s.rdN (tpk k 2) + s.rdN (tpk k 3) + j * s.rdN (tpk k 4)

/-- Loss on the chains of the pairs that output k triggers (R45). -/
def State.tpoLoss (k : Nat) (s : State) : State :=
  s.each ((List.range 8).filter (fun p => s.rdN (pk p 1) == 0x50 + k)) (fun p s => s.each (pairChains p) State.syncLoss)

/-- Ends further firings of output k; a pulse at its active level completes its width. -/
def State.tpoStop (k : Nat) (s : State) : State :=
  let s := (s.setBit (tpk k 9) 0 false).wr (tpk k 0xB) 0
  (s.modClock (fun c => { c with tpoFired := Tbl.set k false c.tpoFired })).tpoLoss k

/-- Whether the TPO pins are driven (R274): insertion complete, proof check passed, PD2 on. -/
def State.tpoDriven (s : State) : Bool := s.power.inserted && s.power.proofHeld && s.rdN (key 0x2100 3) == 2

/-- The level of pin TPO[k], none while it is high-impedance (R274): its active level within a pulse. -/
def State.tpoPin (k : Nat) (s : State) : Option Bool :=
  if s.tpoDriven then some ((s.tpo k).endsAt.isSome != s.rdB (tpk k 6)) else none

/-- Where an edge of a time pulse output due at module time `x` lies: on an extended tap in bypass (R192, R273). -/
def State.tpoEdge (x : Time) (s : State) : Time := if s.pwm.bypass then extendedTap x else x

/-- The pin of output k changes to level `v` with its edge at module time `x`, where the pins are driven (R274). -/
def State.tpoPut (k : Nat) (v : Bool) (x : Time) (s : State) : State := if s.tpoDriven then s.msg "TPO" [k, b2n v, x] [] else s

/-- TPO_FIRING (R273): the active level from F_j for the width w, and the next firing. -/
def State.tpoFire (k : Nat) (s : State) : State :=
  let r := s.tpo k
  let f := s.firing k r.next
  if !s.bit (tpk k 9) 0 || s.modTime < f then s else
  let lead := s.tpoEdge f
  let ends := ((f + s.rdN (tpk k 5) : Int) - s.clock.offset).toNat
  let s := (s.setTpo k { next := r.next + 1, lastAt := some s.now, endsAt := some ends }).inc (tpk k 0xA)
  let s := s.pulseSource k lead
  let s := (s.modClock (fun c => { c with tpoFired := Tbl.set k true c.tpoFired })).tpoLoss k
  let s := s.tpoPut k (!s.rdB (tpk k 6)) lead
  let limit := s.rdN (tpk k 7)
  if s.rdN (tpk k 1) ≠ 2 then s.tpoStop k
  else if limit ≠ 0 && limit ≤ r.next + 1 then (s.tpoStop k).setBit (tpk k 9) 1 true
  else s.wr (tpk k 0xB) (Time.toNs (s.firing k (r.next + 1)) : Nat)

def execTpoFiring (t : Time) (k : TpoNo) (s : State) : Host.Outcome State Fault Refusal := .next ((s.begin t).tpoFire k)

/-- TPO_WIDTH_END (R273): back to the inactive level, w after the firing. -/
def State.tpoEnd (k : Nat) (s : State) : State :=
  let r := s.tpo k
  match r.endsAt with
  | some e =>
    if e ≤ s.now then
      (s.setTpo k { r with endsAt := none }).tpoPut k (s.rdB (tpk k 6)) (s.tpoEdge ((e : Int) + s.clock.offset).toNat)
    else s
  | none => s

def execTpoWidthEnd (t : Time) (k : TpoNo) (s : State) : Host.Outcome State Fault Refusal := .next ((s.begin t).tpoEnd k)

/-- ARM_TPO (R274): the settings keep R273 and the first firing lies at least 100 µs ahead. An output in mode 0 has none. -/
def armTpoEff (k : Nat) : Eff where
  own s :=
    let p := s.rdN (tpk k 4)
    let w := s.rdN (tpk k 5)
    needs (s.rdN (tpk k 1) != 0 && decide (128000 ≤ p) && decide (640 ≤ w) && decide (w < p)
      && decide (s.modTime + Time.us 100 ≤ s.firing k 0)) 0x0B0000C1
  eff s :=
    let s := s.setTpo k { (s.tpo k) with next := 0 }
    let s := s.modClock (fun c => { c with tpoFired := Tbl.set k false c.tpoFired })
    (((((s.setBit (tpk k 9) 0 true).setBit (tpk k 9) 1 false).setBit (tpk k 9) 2 false)).wr (tpk k 0xB) (Time.toNs (s.firing k 0) : Nat)).tpoLoss k

def execArmTpo (t : Time) (q : Req) (k : TpoNo) (s : State) : Host.Outcome State Fault Refusal :=
  .next ((s.begin t).hostWrite q (0x2320 + k) 8 0 1 (armTpoEff k))

def disarmTpoEff (k : Nat) : Eff := { eff := State.tpoStop k }

def execDisarmTpo (t : Time) (q : Req) (k : TpoNo) (s : State) : Host.Outcome State Fault Refusal :=
  .next ((s.begin t).hostWrite q (0x2320 + k) 8 0 0 (disarmTpoEff k))

/-- A write of .01 to .07 of a time pulse output: refused while armed; period and width keep R273. -/
def tpoSettingEff (k sub : Nat) (v : Int) : Eff where
  own s := firstFail [
    if sub = 4 then needs (decide (128000 ≤ v)) abRange
    else if sub = 5 then needs (decide (640 ≤ v) && decide (v < s.rd (tpk k 4))) abRange
    else 0,
    needs (!s.bit (tpk k 9) 0) 0x0B0000C0]
  eff := State.wr (tpk k sub) v

/-! ### Time steps (R269) -/

/-- After a step (R269, R213): links whose batches are all Off are enumerated anew, the others rejoin; every node sets its time
again. What the nodes read is as they read last. -/
def State.retimeLinks (s : State) : State :=
  s.each (List.range 24) (fun k s =>
    let s := s.setLink k { (s.link k) with next := 0 }
    if !s.rdB (lk k 1) || s.rdN (lk k 3) < 2 then s else
    let s := { s with links := { s.links with untimed := (s.links.untimed ++ s.placed k).eraseDups } }
    let none_ : NodeId := ⟨0, 0, 0, 0, 0, 0, 0, 0, 0⟩
    let found := (List.range (s.rdN (lk k 4))).map (fun p => ((s.nodeAt k p).bind (fun n => (Tbl.get ({} : NodeRec) n s.links.nodes).id)).getD none_)
    let (d, s) := s.knownDelays k found.length
    s.syncReturn k found d)

/-- TIME_STEP (R269): module time moves by `d` fine steps. -/
def State.timeStep (d : Int) (s : State) : State :=
  let old := s.tai
  let s := s.modClock (fun c => { c with offset := c.offset + d, lastOffset := some 0 })
  let s := ((s.wr (tmk 6) ((s.rdN (tmk 6) + 1) % 256 : Nat)).wr (tmk 0xD) s.tai).wr (tmk 0xE) (s.tai - (old : Int))
  let s := s.each (List.range 8) (fun k s => if s.bit (tpk k 9) 0 then (s.tpoStop k).setBit (tpk k 9) 2 true else s)
  (s.logEvent 0x0800 0 (d64 old ++ d64 s.tai)).retimeLinks

/-! ### PTP (R267 to R271) -/

def State.ptpPort (p : Nat) (s : State) : PtpPort := Tbl.get {} p s.clock.ports
def State.setPort (p : Nat) (r : PtpPort) (s : State) : State := s.modClock (fun c => { c with ports := Tbl.set p r c.ports })

/-- Whether PTP runs and steers module time. -/
def State.ptpSteers (s : State) : Bool := s.rdB (ptk 1) && s.rdN (tmk 2) == 1

/-- Sets quality and the status bits that follow it (Table 13-1). -/
def State.setQuality (v : Nat) (s : State) : State := ((s.wr (tmk 3) v).setBit (tmk 9) 0 (v == 1)).setBit (tmk 9) 2 (v == 3)

/-- The order of the best master clock algorithm on announced data sets: the smaller list is better. -/
def announceKey (m : AnnounceMsg) : List Nat :=
  [m.priority1, m.clockClass, m.accuracy, m.variance, m.priority2, m.grandmaster, m.stepsRemoved]

def lexLt : List Nat → List Nat → Bool
  | a :: r, b :: q => a < b || (a == b && lexLt r q)
  | _, _ => false

/-- Whether the module as master-capable clock is better than `m`: its accuracy and variance are the standard's unknown values
(PRESUMED, notes/assumptions/36). -/
def State.betterThan (m : AnnounceMsg) (s : State) : Bool :=
  s.rdN (ptk 7) == 1 && lexLt [s.rdN (ptk 8), s.rdN (ptk 0xA), 0xFE, 0xFFFF, s.rdN (ptk 9)]
    [m.priority1, m.clockClass, m.accuracy, m.variance, m.priority2]

/-- The master of port p that the module would follow. -/
def State.masterOf (p : Nat) (s : State) : Option AnnounceMsg :=
  match (s.ptpPort p).master with
  | some m => if s.betterThan m then none else some m
  | none => none

/-- Port states .0D and .0E (R268): disabled, slave, passive slave, master, listening. -/
def State.portStates (s : State) : State :=
  s.each [0, 1] (fun p s =>
    let a := s.rdN (ptk 0xF)
    let v : Nat := if !s.rdB (ptk 1) then 3 else if (s.masterOf p).isSome then (if a = p then 9 else 0xA) else if s.rdN (ptk 7) = 1 then 6 else 4
    s.wr (ptk (0xD + p)) v)

/-- The active port changes (R268); from or to none is no change of port. -/
def State.setActive (p : Nat) (s : State) : State :=
  let a := s.rdN (ptk 0xF)
  if a = p then s else
  let s := if a < 2 && p < 2 then s.inc (ptk 0x15) else s
  let s := s.wr (ptk 0xF) p
  if p < 2 then s.wr (tmk 0xC) (s.ptpPort p).delay else s

/-- What the active port's master announces (R265, R267). -/
def State.takeMaster (m : AnnounceMsg) (s : State) : State :=
  let s := (s.wr (ptk 0x10) m.grandmaster).wr (tmk 0xA) m.utcOffset
  let s := ((s.setBit (tmk 9) 3 m.leap61).setBit (tmk 9) 4 m.leap59).setBit (tmk 9) 5 m.utcValid
  let s := s.setBit (tmk 9) 6 (!m.ptpTimescale)
  if s.rdN (ptk 2) = 1 then s.wr (ptk 0x16) m.inaccuracy else s

/-- Whether PTP runs and takes messages of domain `d` (Table 13-5). -/
def State.ptpHears (d : Nat) (s : State) : Bool := s.rdB (ptk 1) && s.rdN (ptk 6) == d

/-- The announce receipt timeout of R268: .0B intervals of 2^(log interval) s. -/
def State.announceTimeout (s : State) : Time :=
  let n := s.rdN (ptk 0xB)
  let l := s.rd (ptk 0xC 2)
  if 0 ≤ l then Time.sec (n * 2 ^ l.toNat) else Time.sec n / 2 ^ (-l).toNat

/-- The masters of a port that have been heard within the timeout. -/
def State.liveMasters (l : Tbl (AnnounceMsg × Time)) (s : State) : Tbl (AnnounceMsg × Time) :=
  l.filter (fun e => s.now < e.2.2 + s.announceTimeout)

/-- The best of some masters (R267): the smallest announced data set, the lowest sender among equals. -/
def bestMaster (l : Tbl (AnnounceMsg × Time)) : Option (AnnounceMsg × Time) :=
  l.foldl (fun o e => match o with
    | none => some e.2
    | some x => if lexLt (announceKey e.2.1) (announceKey x.1) then some e.2 else o) none

/-- Port p's master is the best of those it hears; `l` are the masters it has heard (R267). -/
def State.selectMaster (p : Nat) (l : Tbl (AnnounceMsg × Time)) (s : State) : State :=
  let l := s.liveMasters l
  let b := bestMaster l
  s.setPort p { (s.ptpPort p) with foreign := l, master := b.map (·.1), heard := (b.map (·.2)).getD (s.ptpPort p).heard }

/-- The active port after port p has chosen its master: one that has a master, the other with a better one; what its master announces is taken
(R265, R268). -/
def State.chooseActive (p : Nat) (s : State) : State :=
  let a := s.rdN (ptk 0xF)
  let s := match s.masterOf p, s.masterOf a with
    | some _, some y => match s.masterOf (1 - a) with
      | some x => if lexLt (announceKey x) (announceKey y) then s.setActive (1 - a) else s
      | none => s
    | some _, none => s.setActive p
    | none, _ => if a = p then s.setActive (if (s.masterOf (1 - p)).isSome then 1 - p else 0xFF) else s
  let s := s.portStates
  match s.masterOf (s.rdN (ptk 0xF)) with
  | some x => s.takeMaster x
  | none => s

/-- PTP_ANNOUNCE (R267, R268): the port follows the best master it hears, from its first Announce on (DESIGN CHOICE, notes/assumptions/119). -/
def State.ptpAnnounce (p : Nat) (m : AnnounceMsg) (s : State) : State :=
  if !s.ptpHears m.domain then s else
  (s.selectMaster p (Tbl.set m.sender (m, s.now) (s.ptpPort p).foreign)).chooseActive p

def execPtpAnnounce (t : Time) (portB : Bool) (m : AnnounceMsg) (s : State) : Host.Outcome State Fault Refusal :=
  .next ((s.begin t).ptpAnnounce (b2n portB) m)

/-- The path delay of port p, in ns, which each port keeps (R268). -/
def State.pathDelay (p ns : Nat) (s : State) : State :=
  let s := s.setPort p { (s.ptpPort p) with pathOk := true, delay := ns }
  if s.rdN (ptk 0xF) = p then s.wr (tmk 0xC) ns else s

/-- PTP_PDELAY (R267): with the peer-to-peer mechanism a request is answered with its turnaround and a response gives the delay; with the
end-to-end one a master answers a Delay_Req with its time of receipt. -/
def State.ptpPdelay (p : Nat) (m : PdelayMsg) (s : State) : State :=
  match m with
  | .request d rx => if s.ptpHears d && s.rdN (ptk 3) == 0 then s.msg "PTP_PDELAY_RESP" [p, d, (s.modTime : Int) - rx] [] else s
  | .response d ns => if s.ptpHears d && s.rdN (ptk 3) == 0 then (s.wr (ptk (0x11 + p)) ns).pathDelay p ns else s
  | .delayReq d rx =>
    if s.ptpHears d && s.rdN (ptk 3) == 1 && s.rdN (ptk (0xD + p)) == 6 then s.msg "PTP_DELAY_RESP" [p, d, rx] [] else s

def execPtpPdelay (t : Time) (portB : Bool) (m : PdelayMsg) (s : State) : Host.Outcome State Fault Refusal :=
  .next ((s.begin t).ptpPdelay (b2n portB) m)

/-- DELAY_RESP (R267, R268): with the end-to-end mechanism, the path delay of the port that receives it. -/
def State.delayResp (m : DelayRespMsg) (s : State) : State :=
  if s.ptpHears m.domain && s.rdN (ptk 3) == 1 then s.pathDelay (b2n m.portB) m.ns else s

def execDelayResp (t : Time) (m : DelayRespMsg) (s : State) : Host.Outcome State Fault Refusal := .next ((s.begin t).delayResp m)

/-- The fields of the Announce that a master sends on port p: port, domain, priority1, clockClass, accuracy, variance and priority2 (notes/assumptions/36). -/
def State.announceFields (p : Nat) (s : State) : List Int :=
  [p, s.rd (ptk 6), s.rd (ptk 8), s.rd (ptk 0xA), 0xFE, 0xFFFF, s.rd (ptk 9)]

/-- PTP_TRANSMIT (R267): Sync and Announce from a port in master state, the latter under C37.238 with its TLV of grandmaster ID and
inaccuracy, whose values no rule states (notes/assumptions/119); requests of the selected delay mechanism, Delay_Req from a slave. -/
def State.ptpTransmit (p : Nat) (k : PtpKind) (s : State) : State :=
  if !s.rdB (ptk 1) then s else
  let d := s.rd (ptk 6)
  let st := s.rdN (ptk (0xD + p))
  match k with
  | .sync => if st = 6 then s.msg "PTP_SYNC" [p, d, s.modTime] [] else s
  | .announce =>
    if st ≠ 6 then s
    else if s.rdN (ptk 2) = 1 then
      let (n, s) := s.draw
      s.msg "PTP_ANNOUNCE" (s.announceFields p ++ [((Config.ptpTlvId n).toNat : Int), ((Config.ptpTlvInaccuracy n).toNat : Int)]) []
    else s.msg "PTP_ANNOUNCE" (s.announceFields p) []
  | .pdelayReq => if s.rdN (ptk 3) = 0 then s.msg "PTP_PDELAY_REQ" [p, d] [] else s
  | .delayReq => if s.rdN (ptk 3) = 1 && (st == 9 || st == 0xA) then s.msg "PTP_DELAY_REQ" [p, d] [] else s

def execPtpTransmit (t : Time) (portB : Bool) (kind : PtpKind) (s : State) : Host.Outcome State Fault Refusal :=
  .next ((s.begin t).ptpTransmit (b2n portB) kind)

/-- ANNOUNCE_RECEIPT_TIMEOUT (R267, R268, R271): the port has lost its master, and follows the best of the others that it hears; with none left on
either port, quality is Holdover and r keeps. -/
def State.announceLost (p : Nat) (s : State) : State :=
  let r := s.ptpPort p
  if r.master.isNone || s.now < r.heard + s.announceTimeout then s else
  let s := ((s.selectMaster p r.foreign).inc (ptk 0x14)).chooseActive p
  if s.rdN (ptk 0xF) = 0xFF && s.rdN (tmk 2) = 1 then s.setQuality 3 else s

def execAnnounceReceiptTimeout (t : Time) (portB : Bool) (s : State) : Host.Outcome State Fault Refusal :=
  .next ((s.begin t).announceLost (b2n portB))

/-- The rate the servo asks for (R270): r_est + clamp(−offset / τ, ±S), within ±250 ppm; `off` in fine steps. -/
def State.servoRate (off est : Int) (s : State) : Int :=
  let tau := max 1 (s.rdN (tmk 0x10))
  let lim : Int := s.rd (tmk 5) * 1000
  let ph := clampI (roundRat ((-(5 * off : Int) : Rat) / (64 * (tau : Rat)))) (-lim) lim
  clampI (est + ph) (-250000) 250000

/-- Quality on a measured offset (R270): Converging above the threshold; below it, Locked only after 10 s. -/
def State.offsetQuality (off : Int) (s : State) : State :=
  let over_ := 64 * s.rdN (tmk 0xB) < 5 * off.natAbs
  if over_ then (s.modClock (fun c => { c with belowSince := none })).setQuality 1
  else
    let s := s.modClock (fun c => { c with belowSince := some (c.belowSince.getD s.now) })
    if s.rdN (tmk 3) = 2 then s else s.setQuality 1

/-- The servo's new rate on an offset (R270): its estimate and its request are held while the PLL does not make the timebase (R262,
R263). -/
def State.servoUpdate (off : Int) (s : State) : State :=
  if s.rdN (ckc 4) ≠ 0 then s else
  let (n, s) := s.draw
  let est := clampI (Config.rateEstimate n).toInt (-250000) 250000
  (s.wr (tmk 0x11) est).wr (ckc 9) (s.servoRate off est)

/-- A valid offset measurement (R269, R270): the first takes the one step where no outputs are enabled; else the rate follows. -/
def State.takeOffset (off : Int) (s : State) : State :=
  let s := s.wr (tmk 4) (clampI (5 * off / 64) (-2 ^ 31) (2 ^ 31 - 1))
  let s := s.modClock (fun c => { c with lastOffset := some off })
  if !s.clock.stepDone && !(allBatches.any (fun b => (s.batch b).outOn)) then
    ((s.modClock (fun c => { c with stepDone := true, belowSince := some s.now })).timeStep (-off)).setQuality 1
  else
    let s := if s.clock.stepDone then s else (s.modClock (fun c => { c with stepDone := true })).setBit (tmk 9) 1 true
    (s.servoUpdate off).offsetQuality off

/-- PTP_SYNC (R267, R268, R270): the active port's offsets to its master steer; one before its path delay is valid is no measurement, and a Sync of
another sender is none of its master's. -/
def State.ptpSync (p : Nat) (m : SyncMsg) (s : State) : State :=
  if !s.ptpSteers || !s.ptpHears m.domain || s.rdN (ptk 0xF) ≠ p || !(s.ptpPort p).pathOk
      || ((s.ptpPort p).master.map (·.sender)) != some m.sender then s
  else (s.inc (ptk 0x13)).takeOffset m.offset

def execPtpSync (t : Time) (portB : Bool) (m : SyncMsg) (s : State) : Host.Outcome State Fault Refusal :=
  .next ((s.begin t).ptpSync (b2n portB) m)

/-- The masters of both ports are forgotten: PTP stopped, or its pair, domain or transport changed (notes/assumptions/119). -/
def State.ptpForget (s : State) : State :=
  let s := (s.modClock (fun c => { c with ports := [] })).setActive 0xFF
  let s := if s.rdN (tmk 2) = 1 && s.rdN (tmk 3) ≠ 0 then s.setQuality 3 else s
  s.portStates

/-- 0x2310 (Table 13-5): UDP goes with the end-to-end mechanism only; a new setting of the port finds its masters anew. -/
def ptpEff (sub elem : Nat) (v : Int) : Eff where
  own s :=
    if sub = 4 then needs (v == 0 || s.rdN (ptk 3) == 1) abRange
    else if sub = 3 then needs (v == 1 || s.rdN (ptk 4) == 0) abRange
    else 0
  eff s :=
    let s := s.wr (ptk sub elem) v
    if 1 ≤ sub && sub ≤ 6 then s.ptpForget else s.portStates

/-- 0x2300.02 (R266): a module that was synchronised has lost that source; it holds the last rate (notes/assumptions/119). -/
def timeSourceEff (v : Int) : Eff where
  eff s :=
    let was := s.rd (tmk 2)
    let s := s.wr (tmk 2) v
    if was = v || s.rdN (tmk 3) = 0 then s
    else (s.modClock (fun c => { c with belowSince := none, lastOffset := none })).setQuality 3

/-- QUALITY_LOCKED (R270). -/
def State.qualityLocked (s : State) : State :=
  match s.clock.belowSince with
  | some b => if b + Time.sec 10 ≤ s.now && s.rdN (tmk 3) = 1 then s.setQuality 2 else s
  | none => s

def execQualityLocked (t : Time) (s : State) : Host.Outcome State Fault Refusal := .next (s.begin t).qualityLocked

/-- AUTHORISE_STEP (R271). -/
def authoriseEff : Eff where
  own s := needs (s.mod == .configuration && allBatches.all (fun b => s.bstate b == .off) && s.rdN (tmk 2) == 1 && s.clock.lastOffset.isSome)
    0x0B0000C2
  eff s := s.timeStep (-(s.clock.lastOffset.getD 0))

def execAuthoriseStep (t : Time) (q : Req) (s : State) : Host.Outcome State Fault Refusal :=
  .next ((s.begin t).hostWrite q 0x2300 7 0 1 authoriseEff)

end Sys2Proof.Machine
end

