-- ==== Sys2Proof/Machine/Firmware.lean ====
section
/-! DEFINITION. The firmware flash: images (R369), slots A and B, trial, return and confirmation (R371). -/

namespace Sys2Proof.Machine

def fwk (sub : Nat) (elem : Nat := 0) : Nat := key 0x2620 sub elem

/-- An image slot; slot A holds the image of delivery, whose version no entry of the spec states (0; notes/assumptions/54). -/
def State.fwSlot (i : Nat) (s : State) : FwSlot := Tbl.get {} i s.srv.slots
def State.setFwSlot (i : Nat) (x : FwSlot) (s : State) : State :=
  (s.modSrv (fun v => { v with slots := Tbl.set i x v.slots })).wr (fwk 4 (i + 1)) x.version

/-- The slot of the running image (0x2620 .01) and the other one. -/
def State.fwRuns (s : State) : Nat := s.rdN (fwk 1)
def State.fwOther (s : State) : Nat := 1 - s.fwRuns

/-- The header of an image (Table 17-10): magic, format, reserved, length; versions; payload. -/
def fwHeaderOk (l : List Byte) : Bool :=
  120 ≤ l.length && l.take 4 == [0x43, 0x51, 0x46, 0x57] && leAt 4 2 l == 1 && leAt 6 2 l == 0 && leAt 0x10 4 l == l.length - 120
def fwVersion (l : List Byte) : Nat := leAt 8 4 l
def fwSecurity (l : List Byte) : Nat := leAt 0xC 4 l
def fwHashOk (l : List Byte) : Bool := sha256 (l.drop 120) == slice 0x18 32 l
def fwSigned (l : List Byte) : Bool := Config.signatureOk (l.take 0x38) (slice 0x38 64 l)
def fwHasRepair (l : List Byte) : Bool := (leAt 0x14 4 l).testBit 0

/-- Image state `st` with event 0x0B05, which names the version that runs (DEDUCED, notes/assumptions/54). -/
def State.imageState (st : Nat) (s : State) : State :=
  (s.wr (fwk 2) st).logEvent 0x0B05 0 (d8 st ++ d32 (s.fwSlot s.fwRuns).version)

/-- The previous image runs again (R371). -/
def State.imageReturn (s : State) : State :=
  ((s.modSrv (fun v => { v with trialFails := 0 })).wr (fwk 1) s.fwOther).imageState 3

/-- What the boot ROM does at a reset (R371): a pending image is checked and runs as a trial; a trial that was not confirmed gives
way to the previous image. -/
def State.bootImage (s : State) : State :=
  match s.rdN (fwk 2) with
  | 1 => s.imageReturn
  | 2 =>
    let img := (s.fwSlot s.fwOther).img
    if fwHashOk img && fwSigned img then (s.wr (fwk 1) s.fwOther).imageState 1 else s.imageState 3
  | _ => s

/-- A start failure of a trial with codes 1 to 3 counts, any other breaks the run (R371). -/
def State.trialFailure (code : Nat) (s : State) : State :=
  if s.rdN (fwk 2) ≠ 1 then s else s.modSrv (fun v => { v with trialFails := if code ≤ 3 then v.trialFails + 1 else 0 })

/-- The attempt after three such failures runs the previous image, and the attempt count restarts (R371). -/
def State.trialRetry (s : State) : State :=
  if s.rdN (fwk 2) = 1 && 3 ≤ s.srv.trialFails then s.imageReturn.wr (key 0x2000 8) 0 else s

/-- CONFIRM (R371): the trial is confirmed, its security version becomes the minimum, and a repair-map instruction of the image
removes the entries that it lists (R341). -/
def confirmEff : Eff where
  own s := firstFail [needs ([3, 4, 5, 6].contains s.mod.code) abState, needs (s.rdN (fwk 2) == 1) abState]
  eff s :=
    let x := s.fwSlot s.fwRuns
    let s := (s.wr (fwk 5) x.security).imageState 0
    if fwHasRepair x.img then
      let l := s.power.repair.filter (fun r => !(Config.repairListed x.img r.kind r.inst))
      let s := { s with power := { s.power with repair := l } }.wr (key 0x2400 6) l.length
      s.reserveLeft 4 s.memoryLeft
    else s

def execConfirm (t : Time) (q : Req) (s : State) : Host.Outcome State Fault Refusal :=
  .next ((s.begin t).hostWrite q 0x2620 3 0 1 confirmEff)

/-! ### Update (R370) -/

/-- The checks of R370 that the image itself decides: the abort code, 0 for a pass. -/
def State.imageCheck (l : List Byte) (s : State) : Nat :=
  if !(fwHeaderOk l && fwHashOk l && fwSigned l) then 0x0B000008
  else if fwSecurity l < s.rdN (fwk 5) then 0x0B000009 else 0

/-- FIRMWARE_UPDATE_COMPLETE (R370): the image is pending, or the inactive slot is invalid; event 0x0B04. -/
def State.updateComplete (writeOk : Bool) (s : State) : State :=
  if s.longOp ≠ 6 then s
  else
    let l := s.srv.longImg
    let c := s.imageCheck l
    let e := if c ≠ 0 then c else if writeOk then 0 else 0x0B00000A
    let s := s.modSrv (fun v => { v with longImg := [] })
    let i := s.fwOther
    let s := if e = 0 then (s.setFwSlot i { img := l, version := fwVersion l, security := fwSecurity l }).wr (fwk 2) 2
      else (s.setFwSlot i { (s.fwSlot i) with valid := false }).wr (fwk 2) (if s.rdN (fwk 2) = 2 then 0 else s.rd (fwk 2))
    ((s.wr (fwk 6) e).logEvent 0x0B04 0 (d32 e ++ d32 (fwVersion l))).endLong e

def execFirmwareUpdateComplete (t : Time) (writeOk : Bool) (s : State) : Host.Outcome State Fault Refusal :=
  .next ((s.begin t).updateComplete writeOk)

end Sys2Proof.Machine
end

