-- ==== Sys2Proof/Machine/IslandOps.lean ====
section
/-! DEFINITION. The safety island's circuits: readback, demands, closing with its proof test, tests in service, faults and
acknowledgement (R243 to R253, R316). -/

namespace Sys2Proof.Machine

/-- An entry of disconnect circuit n. -/
def ik (n sub : Nat) : Nat := key (0x7820 + n) sub

def State.circ (n : Nat) (s : State) : IslandCirc := Tbl.get {} n s.island.circs
def State.setCirc (n : Nat) (c : IslandCirc) (s : State) : State :=
  { s with island := { s.island with circs := Tbl.set n c s.island.circs } }

/-- The island's state (Table 12-1) and a circuit's (Table 12-11). -/
def State.islandState (s : State) : Nat := s.rdN (key 0x7800 1)
/-- The island measures in Unlocked and Run (R240). -/
def State.islandMeasures (s : State) : Bool := s.islandState == 1 || s.islandState == 2
def State.circState (n : Nat) (s : State) : Nat := s.rdN (ik n 7)

/-- A write of the bridge wiring 0x2510.14: the Bridges Closed .15 are circuits 2 and 3 from then on (Table 15-9). -/
def bridgesEff (v : Int) : Eff where
  eff s := (s.wr (twk 0x14) v).wr (twk 0x15) (if v = 1 then b2n (s.circState 2 == 3) + 2 * b2n (s.circState 3 == 3) else 0 : Nat)
/-- Sets a circuit's state; with bridge wiring, 0x2510.15 follows circuits 2 and 3 (Table 15-9). -/
def State.setCircState (n st : Nat) (s : State) : State :=
  let s := s.wr (ik n 7) st
  if 2 ≤ n && s.rdB (key 0x2510 0x14) then s.setBit (key 0x2510 0x15) (n - 2) (st == 3) else s

/-! ### Readback (R246) -/

/-- The pattern of Table 12-4 for a switch command. -/
def expected (hs ls : Bool) : Pattern :=
  match hs, ls with
  | false, false => ⟨.mid, .mid⟩
  | true, false => ⟨.high, .high⟩
  | false, true => ⟨.low, .low⟩
  | true, true => ⟨.high, .low⟩

/-- What a node reads as (R246): below 6 V low, 6 V to 18 V mid, above 18 V high. -/
def levelOf (mv : Nat) : NodeLevel := if mv < 6000 then .low else if mv ≤ 18000 then .mid else .high
/-- The pattern of a circuit's nodes. -/
def patOf (v : NodeVolts) : Pattern := ⟨levelOf v.h, levelOf v.l⟩

def levelCode : NodeLevel → Nat
  | .low => 0
  | .mid => 1
  | .high => 2

/-- The fault code for a pattern that differs from the expected one (R246). -/
def patternCode (hs ls : Bool) (r : Pattern) : Nat :=
  let e := expected hs ls
  if !hs && ((r.h == .high && e.h != .high) || (r.l == .high && e.l != .high)) then 1
  else if !ls && ((r.h == .low && e.h != .low) || (r.l == .low && e.l != .low)) then 3
  else if hs && r.h != .high then 2
  else if ls && r.l != .low then 4
  else 5

/-- Commands both switches of circuit n (R245); a change restarts the 1 ms of R246. -/
def State.switches (n : Nat) (hs ls : Bool) (s : State) : State :=
  let c := s.circ n
  if c.hs = hs && c.ls = ls then s else s.setCirc n { c with hs := hs, ls := ls, cmdAt := s.now }

/-! ### Demands (R243) -/

/-- A module that is fully inserted, has passed its proof check and is not in Removal (Table 12-3, last row); the
handover of R314 comes before the safe state of Removal. In the hold-up service the circuits stay for the partner's bridges, until the island's
measurement fault opens them (Table 16-6, steps 3 and 6; DEDUCED, notes/assumptions/126). -/
def State.moduleFit (s : State) : Bool :=
  s.power.inserted && (s.power.proofHeld || s.power.lossHold) && (s.mod != .removal || s.power.removal.isSome)

/-- The circuits whose telegram is required (.02). -/
def State.teleRequired (s : State) : Nat := ((List.range 4).map (fun n => b2n (s.rdB (ik n 2)) * 2 ^ n)).sum

/-- Circuits that the telegram demands open (R255, R256): all with the trip bit; those that require the telegram and whose
permit bit is clear, every permit bit counting as clear before the first command of Run. -/
def State.teleDemand (s : State) : Nat :=
  let w := s.rdN (key 0x7840 0xA)
  let permits := if s.island.cmdIn then w % 16 else 0
  (if w.testBit 8 then 15 else 0) ||| (s.teleRequired &&& (15 - permits))

/-- The demands of Table 12-3 that stand now; rows are numbered from 0 (DESIGN CHOICE, notes/assumptions/30). -/
def State.standing (s : State) : List Demand :=
  let stages := (List.range 10).filterMap (fun i =>
    if s.bit (key (0x7810 + i) 8) 1 then some ⟨0, i, s.rdN (key (0x7810 + i) 6)⟩ else none)
  let one (c : Bool) (d : Demand) : List Demand := if c then [d] else []
  let faults := (List.range 4).filterMap (fun n => if s.circState n = 4 then some ⟨6, n, 2 ^ n⟩ else none)
  let stops := (List.range 2).filterMap (fun k =>
    if s.bit (key 0x7830 3) k then some ⟨4, k, s.rdN (key 0x7830 (1 + k))⟩ else none)
  (stages ++ one (s.bit (key 0x7800 6) 1) ⟨1, 0, 15⟩ ++ one true ⟨2, 0, s.teleDemand⟩
    ++ one (s.bit (key 0x7840 6) 0) ⟨3, 0, s.teleRequired⟩ ++ stops ++ faults
    ++ one (s.islandState ≠ 2) ⟨7, 0, 15⟩ ++ one (!s.moduleFit) ⟨8, 0, 15⟩).filter (fun d => d.mask != 0)

/-- The circuits that demands name. -/
def demandMask (l : List Demand) : Nat := l.foldl (fun m d => m ||| d.mask) 0

/-- The circuits on which demands act: a bridge circuit opens on any demand of its island (R316). -/
def State.actMask (l : List Demand) (s : State) : Nat :=
  let m := demandMask l
  if m ≠ 0 && s.rdB (key 0x2510 0x14) then m ||| 12 else m

/-- The batches that circuit n names; a bridge circuit owns none (R315). -/
def State.circBatches (n : Nat) (s : State) : List Nat := if s.isBridge n then [] else allBatches.filter (fun b => (s.rdN (ik n 1)).testBit b)

/-- Both switches off and any test of the circuit over; an aborted pulse runs again 1 s later (R252). -/
def State.circOff (n : Nat) (s : State) : State :=
  let s := s.switches n false false
  let c := s.circ n
  let retry := match c.pulse with
    | some (low, _) => some (low, s.now + Time.sec 1)
    | none => c.retry
  s.setCirc n { c with step := 0, seen := false, ack := false, req := 0, hostReq := false, pulse := none, retry := retry }

/-- The closing request of an aborted proof test is discarded (R252): the batches' requests, a bridge's, the twin's until the partner shows it
anew. -/
def State.discardRequest (n : Nat) (s : State) : State :=
  match (s.circ n).req with
  | 2 => s.each ((s.circBatches n).filter (fun b => s.bstate b == .blackStart)) (fun b => State.setBit (bk 0xB 0x11 b) 7 false)
  | 3 => s.each ((s.circBatches n).filter (fun b => s.bstate b == .resync)) (fun b => State.setBit (bk 0xC 0xF b) 6 false)
  | 4 => { s with rack := { s.rack with bridgeWanted := withBit s.rack.bridgeWanted (n - 2) false } }
  | 5 => s.setCirc n { (s.circ n) with spent := true }
  | _ => s

/-- What a demand on circuit n interrupts (R243, R252): a Closed or Closing circuit counts an opening; a test that it aborts is counted, and an
aborted proof test loses its request. A fault that a test finds (`aborts` false) is that test's result and aborts nothing. -/
def State.interrupted (n : Nat) (aborts : Bool) (s : State) : State :=
  let c := s.circ n
  let st := s.circState n
  let proof := st = 1 || (st = 2 && !c.seen)
  let s := if aborts && (proof || c.pulse.isSome) then s.inc (ik n 0xF) else s
  let s := if st = 2 || st = 3 then s.inc (ik n 0xE) else s
  if aborts && proof then s.discardRequest n else s

/-- A demand on circuit n (R243, R244, R252): a test is aborted and counted, both switches are commanded off. A standing
demand leaves the bright pulses of an Open circuit alone; a faulted circuit is off already, and an acknowledgement goes on
(R253). -/
def State.demandOpen (n : Nat) (isNew : Bool) (s : State) : State :=
  let c := s.circ n
  let st := s.circState n
  if st = 4 then s
  else if st ≠ 0 then ((s.interrupted n true).circOff n).setCircState n 0
  else if c.pulse.isSome && isNew then (s.interrupted n true).circOff n
  else s.setCirc n { c with hostReq := false }

/-- Decides the demands (R243, R244): each one that arises is counted and logged, and every circuit under a demand opens at
once. `extra` is a demand of this moment only, the host's open command. -/
def State.demandsWith (extra : List Demand) (s : State) : State :=
  let act := s.standing ++ extra
  let fresh := act.filter (fun d =>
    !(s.island.demands.any (fun o => o.row == d.row && o.inst == d.inst && (o.mask ||| d.mask) == o.mask)))
  let s := s.each fresh (fun d s => (s.inc (key 0x7800 8)).logEvent 0x0700 0 (d8 d.row ++ d8 d.mask))
  let s := s.each (List.range 4) (fun n s =>
    if (s.actMask act).testBit n then s.demandOpen n ((s.actMask fresh).testBit n) else s)
  { s with island := { s.island with demands := s.standing } }

/-- A circuit fault (R253): it latches, both switches off, event 0x0701. It is a demand on the circuit (Table 12-3), which aborts a test that has
not found it. -/
def State.circFault (n code : Nat) (aborts : Bool) (s : State) : State :=
  if s.circState n = 4 then s else
  let s := ((s.interrupted n aborts).circOff n).wr (ik n 0xA) code
  let s := s.setCirc n { (s.circ n) with retry := none }
  (s.setCircState n 4).logEvent 0x0701 n (d8 n ++ d8 code)

/-! ### Closing (R247 to R250) -/

/-- Whether circuit n may close as far as the island itself goes (R247): Run, Open, no demand; the permit of a required telegram
is among the demands. -/
def State.mayClose (n : Nat) (s : State) : Bool :=
  s.islandState == 2 && s.circState n == 0 && !(s.actMask s.standing).testBit n

/-- Check-synchronism met (R248), as status bit 5 holds it. -/
def State.checkSync (s : State) : Bool := s.bit (key 0x7800 6) 5

/-- Whether the partner shows its bridge n + 2 Closed to connection circuit n (R316). -/
def State.twinShows (n : Nat) (s : State) : Bool :=
  s.rdB (key 0x2510 0x14) && decide (n < 2) &&
    (match Tbl.find? (s.rdN (key 0x2510 2)) s.rack.beats with
     | some h => h.msg.circuits.testBit (n + 2)
     | none => false)

/-- A closing request of kind `k` is present at circuit n (Table 12-6, R316): 2 from a batch in BlackStart (R168), 3 from
a batch in Resync (R173), 4 bridge, 5 twin. -/
def State.requested (n k : Nat) (s : State) : Bool :=
  match k with
  | 2 => (s.circBatches n).any (fun b => s.bstate b == .blackStart && s.bit (bk 0xB 0x11 b) 7)
  | 3 => (s.circBatches n).any (fun b => s.bstate b == .resync && s.bit (bk 0xC 0xF b) 6)
  | 4 => s.isBridge n && s.rack.bridgeWanted.testBit (n - 2)
  | 5 => s.twinShows n && !(s.circ n).spent
  | _ => true

/-- The condition of a resync closing at circuit n (Table 12-6). -/
def State.resyncOk (n : Nat) (s : State) : Bool :=
  s.rdN (key 0x7801 0xC) == n && s.island.observed && s.checkSync

/-- The own condition of a request of kind `k` (Table 12-6, R316). -/
def State.requestOk (n k : Nat) (s : State) : Bool :=
  match k with
  | 1 => (s.circBatches n).all (fun b => !(s.batch b).outOn) && (s.island.observed || (s.island.dead && s.rdB (ik n 5)))
  | 2 => s.island.dead && s.rdB (ik n 5)
  | 3 => s.resyncOk n
  | 4 => s.circState (n - 2) == 3
  | _ => s.island.connSince.isSome

/-- Starts the proof test for a request of kind `k` (R250). -/
def State.startProof (n k : Nat) (s : State) : State :=
  let s := s.switches n false false
  let s := s.setCirc n { (s.circ n) with step := 1, stepAt := s.now, seen := false, ack := false, req := k, hostReq := false }
  s.setCircState n 1

/-- Starts a closing for the first request that is present with its condition met; a pulse on the circuit ends first (R252). -/
def State.takeRequest (n : Nat) (s : State) : State :=
  let s := if (s.circ n).spent && !(s.twinShows n) then s.setCirc n { (s.circ n) with spent := false } else s
  let c := s.circ n
  if !s.mayClose n || c.pulse.isSome || c.step ≠ 0 then s
  else if c.hostReq then (if s.requestOk n 1 then s.startProof n 1 else s.setCirc n { c with hostReq := false })
  else match [2, 3, 4, 5].find? (fun k => s.requested n k && s.requestOk n k) with
    | some k => s.startProof n k
    | none => s

/-- The circuit becomes Closed (R250). -/
def State.circClosed (n : Nat) (s : State) : State :=
  let s := s.setCirc n { (s.circ n) with step := 0, req := 0 }
  (s.inc (ik n 0xD)).setCircState n 3

/-- A failing acknowledgement or proof test (R250, R253). -/
def State.testFails (n code : Nat) (s : State) : State :=
  let c := s.circ n
  if c.ack then
    let s := s.circOff n
    if c.ackHost then s.answerTo c.ackSid 0x0B0000B2 else s
  else s.circFault n code false

/-- The acknowledgement has passed steps 1 to 3 (R253). -/
def State.ackPasses (n : Nat) (s : State) : State :=
  let c := s.circ n
  let s := ((s.circOff n).wr (ik n 0xA) 0).setCircState n 0
  let s := s.logEvent 0x0702 n (d8 n)
  if c.ackHost then s.answerTo c.ackSid 0 else s

/-- One cycle of a proof test or acknowledgement (Table 12-7): each step is judged on the readback until its time is up. -/
def State.proofCycle (n : Nat) (r : Readback) (s : State) : State :=
  let c := s.circ n
  let until_ (d : Time) : Bool := decide (c.stepAt + d ≤ s.now)
  if c.step ≠ 0 && c.step < 4 && !c.ack && !s.requested n c.req then (s.circOff n).setCircState n 0
  else
    let go (k : Nat) (hs ls : Bool) (s : State) : State :=
      let s := s.switches n hs ls
      s.setCirc n { (s.circ n) with step := k, stepAt := s.now, seen := false }
    let pat := patOf r.nodes
    let seen := c.seen || pat == expected c.hs c.ls
    match c.step with
    | 1 =>
      if !until_ (Time.ms 2) then s
      else if pat != expected false false then s.testFails n (patternCode false false pat)
      else if r.feedback && s.rdB (ik n 3) then s.testFails n 7
      else go 2 true false s
    | 2 =>
      if !until_ (Time.ms 1) then s.setCirc n { c with seen := seen }
      else if seen then go 3 false true s
      else s.testFails n (if pat.h != .high then 2 else 5)
    | 3 =>
      if !until_ (Time.ms 1) then s.setCirc n { c with seen := seen }
      else if !seen then s.testFails n (if pat.l != .low then 4 else 5)
      else if c.ack then s.ackPasses n
      else (go 4 true true s).setCircState n 2
    | 4 =>
      let seen := c.seen || (pat == expected true true && r.coil < 650)
      if seen then
        let s := s.setCirc n { c with seen := true }
        if s.rdB (ik n 3) && r.feedback then s.circClosed n else s
      else if !until_ (Time.ms 1) then s
      else if pat == expected true true then s.circFault n 6 false
      else s.circFault n (patternCode true true pat) false
    | _ => s

/-! ### Tests in service (R251, R252) -/

/-- Starts a pulse on one switch: dark on a Closed circuit, bright on an Open one. -/
def State.startPulse (n : Nat) (low : Bool) (s : State) : State :=
  let c := s.circ n
  let st := s.circState n
  if s.islandState ≠ 2 || c.pulse.isSome || c.step ≠ 0 || (st ≠ 0 && st ≠ 3) then s
  else
    let s := if st = 3 then s.switches n low (!low) else s.switches n (!low) low
    s.setCirc n { (s.circ n) with pulse := some (low, s.now) }

/-- The readback of a cycle under a pulse: its pattern ends it; at most 400 µs dark, 1 ms bright. -/
def State.pulseCycle (n : Nat) (r : Readback) (s : State) : State :=
  let c := s.circ n
  match c.pulse with
  | none => s
  | some (_, t0) =>
    let closed := s.circState n == 3
    let most := if closed then Time.us 400 else Time.ms 1
    let pat := patOf r.nodes
    if s.now ≤ t0 + most && pat == expected c.hs c.ls then
      let s := (s.switches n closed closed).inc (ik n 0x10)
      s.setCirc n { (s.circ n) with pulse := none }
    else if t0 + most ≤ s.now then s.circFault n (patternCode c.hs c.ls pat) false
    else s

/-! ### Status -/

/-- The permissive for batch b (R249). -/
def State.permissive (b : Nat) (s : State) : Bool :=
  (s.ownCircuits b).all (fun n => s.circState n == 3 || (s.mayClose n && s.resyncOk n))

/-- Status 0x7800.06 and the permissives 0x7800.09. -/
def State.islandStatus (s : State) : State :=
  let k := key 0x7800 6
  let s := s.setBit k 0 s.islandMeasures
  let s := if s.islandMeasures then s else s.setBit k 5 false
  let s := s.setBit k 1 (s.island.checks.any (fun c => c.2.fault))
  let s := s.setBit k 2 s.island.dead
  let s := s.setBit k 3 s.island.connSince.isSome
  let s := s.setBit k 4 s.island.observed
  let s := s.setBit k 6 (s.islandState == 3)
  s.wr (key 0x7800 9) ((allBatches.map (fun b => b2n (s.permissive b) * 2 ^ b)).sum : Nat)

/-- What ends every command of the island: the status, the demands, the status again. -/
def State.islandSettle (s : State) : State := ((s.islandStatus).demandsWith []).islandStatus

/-- The island takes another state; Run begins the rounds of R251 and waits for its first command (R256). -/
def State.setIsland (st : Nat) (s : State) : State :=
  let s := s.wr (key 0x7800 1) st
  if st = 2 then { s with island := { s.island with cmdIn := false, runAt := s.now } } else s

/-- Unlocked becomes Run with both island lock areas set (R239). -/
def State.islandRunIfLocked (s : State) : State :=
  if s.islandState = 1 && s.locked 0 && s.locked 1 then s.setIsland 2 else s

/-- An island fault (R238, R239): it lasts until reset. -/
def State.islandFault (s : State) : State :=
  if s.islandState = 3 then s else ((s.setIsland 3).inc (key 0x7800 7)).islandSettle

/-- Every safety switch off without a demand: reset, or PD7 without supply (R238, R334). -/
def State.islandDark (s : State) : State :=
  s.each (List.range 4) (fun n s =>
    let s := s.circOff n
    let s := s.setCirc n { (s.circ n) with retry := none }
    if s.circState n = 4 then s else s.setCircState n 0)

/-- BRIDGE_OPEN and the module's own opening of a circuit. -/
def State.openCircuit (n : Nat) (s : State) : State :=
  if s.circState n = 4 then s else (s.circOff n).setCircState n 0

end Sys2Proof.Machine
end

