-- ==== Sys2Proof/Machine/Island.lean ====
section
/-! DEFINITION. The safety island's measurement and cross-check, its protection stages, its cycle, the safety telegrams and
the locks (R238 to R242, R247, R251 to R257). -/

namespace Sys2Proof.Machine

/-! ### Start and the island's own checks (R238, R239) -/

/-- ISLAND_SELF_TEST_END (R239). -/
def State.islandSelfTestEnd (pass : Bool) (s : State) : State :=
  if s.islandState ≠ 0 then s
  else if pass then ((s.setIsland 1).islandRunIfLocked).islandSettle
  else s.islandFault

def execIslandSelfTestEnd (t : Time) (pass : Bool) (s : State) : Host.Outcome State Fault Refusal :=
  .next ((s.begin t).islandSelfTestEnd pass)

/-- ISLAND_OSCILLATOR_CHECK (R238): `dev` is the deviation of the island oscillator from the housekeeping count in ppm, to be
corrected by the housekeeping clock's error as measured in the last 10 s, which 0x2200.12 gives in 100 ppm. -/
def State.oscillatorCheck (dev : Int) (s : State) : State :=
  let recent := match s.clock.hkAt with
    | some h => decide (s.now ≤ h + Time.sec 10)
    | none => false
  let bad :=
    if recent then
      let e := s.clock.hk * 100
      let c := (1000000 + dev) * (1000000 + e) - 1000000000000
      10000000000 < c.natAbs
    else 120000 < dev.natAbs
  if bad then s.islandFault else s

def execIslandOscillatorCheck (t : Time) (dev : Int) (s : State) : Host.Outcome State Fault Refusal :=
  .next ((s.begin t).oscillatorCheck dev)

/-- ISLAND_SELF_CHECK (R238). -/
def execIslandSelfCheck (t : Time) (pass : Bool) (s : State) : Host.Outcome State Fault Refusal :=
  .next ((s.begin t).when (!pass) State.islandFault)

/-- LOCKSTEP_MISMATCH (R238). -/
def execLockstepMismatch (t : Time) (s : State) : Host.Outcome State Fault Refusal := .next (s.begin t).islandFault

/-- The island's working state at a start: it has measured nothing, and its watchdog, telegrams, periods and means count from now (R242, R256;
DEDUCED, notes/assumptions/79). -/
def State.freshIsland (s : State) : Island :=
  { lastRms := s.now, lastCmd := s.now, lastTx := s.now, stages := (List.range 10).map (fun i => (i, { meanAt := s.now })) }

/-- PD7_SUPPLY_LOW (R238): every switch off in hardware; the island starts anew with its supply and has measured nothing yet (DEDUCED,
notes/assumptions/31), unless it is in Fault, which only a reset ends (R239). -/
def State.pd7Low (s : State) : State :=
  let s := s.islandDark
  if s.islandState = 3 then s.islandSettle else
  let s := s.each (List.range 10) (fun i s => s.wr (key (0x7810 + i) 8) 0)
  let i := s.island
  (({ s with island := { s.freshIsland with circs := i.circs, demands := i.demands } }).setIsland 0).islandSettle

def execPd7SupplyLow (t : Time) (s : State) : Host.Outcome State Fault Refusal := .next (s.begin t).pd7Low

/-! ### Measurement (R240) -/

/-- The nominal input amplitude in volts, exact. -/
def State.nomAmp (s : State) : Rat := fval (s.rdF (key 0x7801 1))

/-- A crossing between the sample below zero and the one at or above it, to 31.25 ns (400 fine steps). -/
def islandCrossing (n p : Int × Time) : Time :=
  let q : Rat := ((n.2 : Nat) : Rat) + (((p.2 - n.2 : Nat) : Rat) * ((-n.1 : Int) : Rat)) / ((p.1 - n.1 : Int) : Rat)
  400 * (roundRat (q / 400)).toNat

/-- The tracker of an island input, with hysteresis ±h codes. -/
def crossStep (h : Rat) (x : Int) (now : Time) (c : IslandCross) : IslandCross :=
  let c := if x < 0 then { c with lastNeg := some (x, now), firstPos := none }
    else if c.firstPos.isNone then { c with firstPos := some (x, now) } else c
  let c := if ((x : Int) : Rat) ≤ -h then { c with armed := true } else c
  if c.armed && decide (h ≤ ((x : Int) : Rat)) then
    let c := { c with armed := false }
    match c.lastNeg, c.firstPos with
    | some n, some p =>
      let tc := islandCrossing n p
      let periods := match c.last with
        | some l => ((tc - l) :: c.periods).take 10
        | none => c.periods
      { c with last := some tc, periods := periods }
    | _, _ => c
  else c

/-- ISLAND_SAMPLE (R240): one conversion of the four inputs, ±10 V full scale, and the crossings of AIN44 and AIN47. -/
def State.islandSample (x : List Int) (s : State) : State :=
  let h := (s.nomAmp * 32768 / 10) / 50
  let i := s.island
  { s with island := { i with
    samples := (⟨s.now, x⟩ :: i.samples).take 1024
    c44 := crossStep h (x.getD 0 0) s.now i.c44
    c47 := crossStep h (x.getD 3 0) s.now i.c47 } }

def execIslandSample (t : Time) (x0 x1 x2 x3 : Code) (s : State) : Host.Outcome State Fault Refusal :=
  .next ((s.begin t).islandSample [x0.toInt, x1.toInt, x2.toInt, x3.toInt])

/-- The period of the RMS windows: of the tracked frequency, of the nominal one while it is invalid. -/
def State.islandPeriod (s : State) : Time :=
  match s.island.freq with
  | some f => if fle f 0 then Time.ms 20 else (roundRat (12800000000 / fval f)).toNat
  | none => 12800000000 / max 1 (s.rdN (key 0x7801 2))

/-- The RMS of input i over the last period in pu: × √2 by the nominal input amplitude, rounded once to binary32. -/
def State.islandRms (i : Nat) (s : State) : F32 :=
  let w := s.island.samples.filter (fun p => s.now < p.at_ + s.islandPeriod)
  let sum := (w.map (fun p => (p.x.getD i 0) * (p.x.getD i 0))).sum
  if w.isEmpty then 0
  else fsqrtRat ((200 * sum : Int) / ((w.length * 2 ^ 30 : Nat) : Rat) / (s.nomAmp * s.nomAmp))

/-- The frequency of an input from its last N_f periods; none before so many have been measured. -/
def State.crossFreq (c : IslandCross) (s : State) : Option F32 :=
  let n := s.rdN (key 0x7801 7)
  let sum := (c.periods.take n).sum
  if c.periods.length < n || sum = 0 then none else some (fofRat (((12800000000 * n : Nat) : Rat) / ((sum : Nat) : Rat)))

/-- Forgets the periods of an input whose voltage is below the blocking level (DESIGN CHOICE, notes/assumptions/32). -/
def IslandCross.clear (c : IslandCross) : IslandCross := { c with last := none, periods := [] }

/-! ### Stages (R242) -/

def State.stage (i : Nat) (s : State) : Stage := Tbl.get {} i s.island.stages
def State.setStage (i : Nat) (r : Stage) (s : State) : State :=
  { s with island := { s.island with stages := Tbl.set i r s.island.stages } }

/-- Drop-out: picked up and tripped clear, the timer returns to 0. -/
def State.dropOut (i : Nat) (s : State) : State := s.wr (key (0x7810 + i) 8) 0

/-- STAGE_EVALUATION (R242): a stage on an update of its measurand; none is invalid. -/
def State.stageEval (i : Nat) (m : Option F32) (s : State) : State :=
  let k (sub : Nat) : Nat := key (0x7810 + i) sub
  if !s.rdB (k 1) then s else
  let ty := s.rdN (k 2)
  match m with
  | none => if 2 ≤ ty then s.dropOut i else s
  | some x =>
    let x := if ty = 4 then fabs x else x
    let low := ty == 0 || ty == 2
    let pk := s.rdF (k 3)
    let hy := s.rdF (k 5)
    if s.bit (k 8) 0 then
      let back := if low then decide (fval pk + fval hy ≤ fval x) else decide (fval x ≤ fval pk - fval hy)
      if back then s.dropOut i else s
    else if (if low then flt x pk else flt pk x) then
      (s.setStage i { (s.stage i) with since := s.now }).setBit (k 8) 0 true
    else s

/-- Adds a per-period RMS of the three phases to the mean of stage i in mode 1. -/
def State.meanTake (v : List F32) (i : Nat) (s : State) : State :=
  if !s.rdB (key (0x7810 + i) 1) || s.rdN (key (0x7810 + i) 7) ≠ 1 then s else
  let r := s.stage i
  match r.buckets with
  | b :: l =>
    let b := { b with s0 := b.s0 + fval (v.getD 0 0), s1 := b.s1 + fval (v.getD 1 0), s2 := b.s2 + fval (v.getD 2 0), n := b.n + 1 }
    s.setStage i { r with buckets := b :: l }
  | [] => s

/-- MEAN_UPDATE (R242): every 3 s, the highest of the three phases' means over the last 10 minutes. -/
def State.meanUpdate (i : Nat) (s : State) : State :=
  let r := s.stage i
  if s.rdN (key (0x7810 + i) 2) ≠ 1 || s.rdN (key (0x7810 + i) 7) ≠ 1 || !s.rdB (key (0x7810 + i) 1) || s.now < r.meanAt + Time.sec 3 then s
  else
    let n : Nat := (r.buckets.map (·.n)).sum
    let mean (f : MeanBucket → Rat) : F32 := fofRat ((r.buckets.map f).sum / ((n : Nat) : Rat))
    let m0 := mean (·.s0)
    let m1 := mean (·.s1)
    let m2 := mean (·.s2)
    let hi := if flt m0 m1 then m1 else m0
    let hi := if flt hi m2 then m2 else hi
    let s := if n = 0 then s else s.stageEval i (some hi)
    (s.setStage i { (s.stage i) with meanAt := s.now, buckets := ({} :: r.buckets).take 200 }).islandSettle

def execMeanUpdate (t : Time) (i : StageNo) (s : State) : Host.Outcome State Fault Refusal := .next ((s.begin t).meanUpdate i)

/-- The connection conditions hold (R247). -/
def State.connectionOk (s : State) : Bool :=
  let v (i : Nat) : F32 := s.rdF (key 0x7802 (1 + i))
  let lo := s.rdF (key 0x7850 1)
  let hi := s.rdF (key 0x7850 2)
  [0, 1, 2].all (fun i => fle lo (v i) && fle (v i) hi) &&
    (match s.island.freq with
     | some f => fle (s.rdF (key 0x7850 3)) f && fle f (s.rdF (key 0x7850 4))
     | none => false)

/-- The observation starts anew, if the conditions hold. -/
def State.restartObservation (s : State) : State :=
  { s with island := { s.island with observed := false, connSince := if s.connectionOk then some s.now else none } }

/-- STAGE_TRIP (R242): the timer has reached the trip time. -/
def State.stageTrip (i : Nat) (s : State) : State :=
  let k (sub : Nat) : Nat := key (0x7810 + i) sub
  if !s.rdB (k 1) || !s.bit (k 8) 0 || s.bit (k 8) 1 || s.now < (s.stage i).since + Time.ms (s.rdN (k 4)) then s
  else (((s.setBit (k 8) 1 true).inc (k 9)).restartObservation).islandSettle

def execStageTrip (t : Time) (i : StageNo) (s : State) : Host.Outcome State Fault Refusal := .next ((s.begin t).stageTrip i)

/-- The timer of a stage in ms, as its entry .0A reads. -/
def State.stageTimer (i : Nat) (s : State) : Nat :=
  if s.bit (key (0x7810 + i) 8) 0 then Time.toMs (s.now - (s.stage i).since) else 0

/-- A write of a stage's enable: the stage starts, its mean anew, or drops out; one that changes nothing leaves the stage as it is (R242). -/
def stageEnableEff (i : Nat) (v : Int) : Eff :=
  { eff := fun s =>
      let was := s.rdB (key (0x7810 + i) 1)
      let s := s.wr (key (0x7810 + i) 1) v
      if was == (v != 0) then s
      else ((s.dropOut i).when (v ≠ 0) (fun s => s.setStage i { since := s.now, meanAt := s.now })).islandSettle }

/-! ### Cross-check (R241) -/

def State.check (i : Nat) (s : State) : CrossCheck := Tbl.get {} i s.island.checks
def State.setCheck (i : Nat) (c : CrossCheck) (s : State) : State :=
  { s with island := { s.island with checks := Tbl.set i c s.island.checks } }

/-- The pair that checks AIN44 (i = 0) or AIN46 (i = 1); none where the check is disabled. -/
def State.checkPair (i : Nat) (s : State) : Option Nat :=
  let p := s.rdN (key 0x7801 (3 + i))
  if p < 8 then some p else none

/-- Invalid or missing results, judged on every cycle: marked invalid (R28), none for 1 ms, or of another input. -/
def State.checkInvalid (i p : Nat) (s : State) : Bool :=
  s.resultsInvalid p || s.rdN (pk p 4) ≠ 44 + 2 * i || (s.pair p).codesAt + Time.ms 1 < s.now

def State.judgeInvalid (s : State) : State :=
  s.each [0, 1] (fun i s =>
    let c := s.check i
    match s.checkPair i with
    | none => s.setCheck i {}
    | some p =>
      if s.checkInvalid i p then s.setCheck i { c with okRun := 0, invSince := some (c.invSince.getD s.now) }
      else s.setCheck i { c with invSince := none })

/-- CROSS_CHECK_GRACE (R241): the invalidity has outlasted the grace time. -/
def State.crossGrace (i : Nat) (s : State) : State :=
  let c := s.check i
  match c.invSince with
  | some t => if t + Time.ms (s.rdN (key 0x7801 6)) ≤ s.now then (s.setCheck i { c with fault := true, okRun := 0 }).islandSettle else s
  | none => s

def execCrossCheckGrace (t : Time) (second : Bool) (s : State) : Host.Outcome State Fault Refusal :=
  .next ((s.begin t).crossGrace (b2n second))

/-- The RMS of one core's plausibility codes in pu, by the range of the input. -/
def State.coreRms (i sq n : Nat) (s : State) : F32 :=
  let r : Rat := [5 / 4, 5 / 2, 5, 10].getD (s.rdN (ck (44 + 2 * i) 2)) 10
  fsqrtRat (2 * r * r * ((sq : Nat) : Rat) / ((n * 2 ^ 30 : Nat) : Rat) / (s.nomAmp * s.nomAmp))

/-- The comparison of a period (R241): one miss or one hit for each check; 0x7802.08 holds the largest difference. A period without results has
no difference, which is a hit but no valid one (DEDUCED, notes/assumptions/32). -/
def State.crossCheck (s : State) : State :=
  let s := s.wrF (key 0x7802 8) 0
  s.each [0, 1] (fun i s =>
    match s.checkPair i with
    | none => s
    | some p =>
      let r := s.pair p
      let c := s.check i
      let s := s.setPair p { r with sq := (0, 0), sqN := 0 }
      if r.sqN = 0 then s.setCheck i { c with missRun := 0, okRun := 0 } else
      let own := s.rdF (key 0x7802 (1 + 2 * i))
      let d0 := fabs (fsubR (s.coreRms i r.sq.1 r.sqN) own).v
      let d1 := fabs (fsubR (s.coreRms i r.sq.2 r.sqN) own).v
      let d := if flt d0 d1 then d1 else d0
      let s := if flt (s.rdF (key 0x7802 8)) d then s.wrF (key 0x7802 8) d else s
      if flt (s.rdF (key 0x7801 5)) d then
        s.setCheck i { c with missRun := c.missRun + 1, okRun := 0, fault := c.fault || 3 ≤ c.missRun + 1 }
      else if c.invSince.isSome then s.setCheck i { c with missRun := 0, okRun := 0 }
      else s.setCheck i { c with missRun := 0, okRun := c.okRun + 1, fault := c.fault && c.okRun + 1 < 10 })

/-! ### RMS_UPDATE (R240, R241, R242, R248) -/

/-- Frequency and RoCoF at an update: valid while the lowest phase voltage is at or above the blocking level. -/
def State.islandFreq (lowest : F32) (s : State) : State :=
  let i := s.island
  let block := s.rdF (key 0x7801 9)
  let c47 := if flt (s.rdF (key 0x7802 6)) block then i.c47.clear else i.c47
  let s := { s with island := { i with c47 := c47, freq47 := s.crossFreq c47 } }
  let c44 := if flt lowest block then i.c44.clear else i.c44
  let f := s.crossFreq c44
  match f with
  | none => { s with island := { s.island with c44 := c44, freq := none, rocof := none, freqHist := [] } }
  | some f =>
    let tR := Time.ms (s.rdN (key 0x7801 8))
    let old := i.freqHist.find? (fun p => p.1 + tR ≤ s.now)
    let rocof := old.map (fun p => fofRat ((fval f - fval p.2) * 1000 / ((s.rdN (key 0x7801 8) : Nat) : Rat)))
    let s := { s with island := { s.island with c44 := c44, freq := some f, rocof := rocof, freqHist := ((s.now, f) :: i.freqHist).take 512 } }
    let s := s.wrF (key 0x7802 4) f
    match rocof with
    | some r => s.wrF (key 0x7802 5) r
    | none => s

/-- Δφ of R248 in degrees: AIN47's latest crossing before AIN44's is positive; wrapped to −180° to 180°. -/
def phaseDiff (f : F32) (t44 t47 : Time) : Rat :=
  let d : Rat := 360 * fval f * (((t44 : Int) - (t47 : Int) : Int) : Rat) / 12800000000
  d - 360 * (((d + 180) / 360).floor : Rat)

/-- Check-synchronism (R248): Δφ at 0x7802.07 and status bit 5. -/
def State.syncCheck (s : State) : State :=
  match s.island.freq, s.island.freq47, s.island.c44.last, s.island.c47.last with
  | some f, some f47, some t44, some t47 =>
    let dp := fofRat (phaseDiff f t44 t47)
    let df := (fsubR f47 f).v
    let dv := (fsubR (s.rdF (key 0x7802 6)) (s.rdF (key 0x7802 1))).v
    let ok := fle (fabs dp) (s.rdF (key 0x7801 0xD)) && fle (fabs df) (s.rdF (key 0x7801 0xE)) && fle (fabs dv) (s.rdF (key 0x7801 0xF))
    (s.wrF (key 0x7802 7) dp).setBit (key 0x7800 6) 5 ok
  | _, _, _, _ => s.setBit (key 0x7800 6) 5 false

/-- Dead-bus level and connection conditions on new voltages (R240, R247). -/
def State.busConditions (highest : F32) (s : State) : State :=
  let i := s.island
  let under := flt highest (s.rdF (key 0x7801 0xA))
  let s := { s with island := { i with below := if under then some (i.below.getD s.now) else none, dead := i.dead && under } }
  if s.connectionOk then { s with island := { s.island with connSince := some (s.island.connSince.getD s.now) } }
  else { s with island := { s.island with connSince := none, observed := false } }

/-- RMS_UPDATE: every half period, in Unlocked and Run. -/
def State.rmsUpdate (s : State) : State :=
  if s.now < s.island.lastRms + s.islandPeriod / 2 || !s.islandMeasures then s else
  let v := [0, 1, 2, 3].map (fun i => s.islandRms i)
  let s := (((s.wrF (key 0x7802 1) (v.getD 0 0)).wrF (key 0x7802 2) (v.getD 1 0)).wrF (key 0x7802 3) (v.getD 2 0)).wrF (key 0x7802 6) (v.getD 3 0)
  let lo := fmin (fmin (v.getD 0 0) (v.getD 1 0)) (v.getD 2 0)
  let mx (a b : F32) : F32 := if flt a b then b else a
  let hi := mx (mx (v.getD 0 0) (v.getD 1 0)) (v.getD 2 0)
  let odd := s.island.odd
  let s := { s with island := { s.island with lastRms := s.now, odd := !odd } }
  let s := s.islandFreq lo
  let s := s.busConditions hi
  let s := s.syncCheck
  let s := if odd then ((s.crossCheck).meanTake v 3).meanTake v 4 else s
  let s := s.each [0, 1, 2] (fun i => State.stageEval i (some lo))
  let s := s.each [3, 4] (fun i s => if s.rdN (key (0x7810 + i) 7) = 1 then s else s.stageEval i (some hi))
  let s := s.each [5, 6, 7, 8] (fun i s => s.stageEval i s.island.freq)
  (s.stageEval 9 s.island.rocof).islandSettle

def execRmsUpdate (t : Time) (s : State) : Host.Outcome State Fault Refusal := .next (s.begin t).rmsUpdate

/-- DEAD_TO_THE_ISLAND (R240). -/
def State.deadToIsland (s : State) : State :=
  match s.island.below with
  | some t => if t + Time.ms (s.rdN (key 0x7801 0xB)) ≤ s.now then ({ s with island := { s.island with dead := true } }).islandSettle else s
  | none => s

def execDeadToTheIsland (t : Time) (s : State) : Host.Outcome State Fault Refusal := .next (s.begin t).deadToIsland

/-- OBSERVATION_COMPLETE (R247). -/
def State.observationDone (s : State) : State :=
  match s.island.connSince with
  | some t =>
    if t + Time.sec (s.rdN (key 0x7850 5)) ≤ s.now then ({ s with island := { s.island with observed := true } }).islandSettle else s
  | none => s

def execObservationComplete (t : Time) (s : State) : Host.Outcome State Fault Refusal := .next (s.begin t).observationDone

/-! ### ISLAND_CYCLE (R244) -/

/-- Reads back circuit n: its pattern at .08, its coil current at .09. -/
def State.readback (n : Nat) (r : Readback) (s : State) : State :=
  (s.wr (ik n 8) (levelCode (levelOf r.nodes.h) + 4 * levelCode (levelOf r.nodes.l) : Nat)).wr (ik n 9) (min 65535 r.coil : Nat)

/-- A cycle of one circuit: its proof test or pulse goes on, or a closing request is taken. -/
def State.circCycle (n : Nat) (r : Readback) (s : State) : State :=
  let s := s.proofCycle n r
  let s := s.pulseCycle n r
  s.takeRequest n

/-- ISLAND_CYCLE (R244): readback, check-synchronism on the latest crossings (R248), demands, then the circuits; what they decide acts in the same cycle. -/
def State.islandCycle (rb : List Readback) (s : State) : State :=
  let l := rb.zipIdx
  let s := s.each l (fun p => if p.2 < 4 then State.readback p.2 p.1 else id)
  let s := if s.islandMeasures then s.syncCheck else s
  let s := (s.judgeInvalid).islandSettle
  (s.each l (fun p => if p.2 < 4 then State.circCycle p.2 p.1 else id)).islandSettle

def execIslandCycle (t : Time) (rb : List Readback) (s : State) : Host.Outcome State Fault Refusal :=
  .next ((s.begin t).islandCycle rb)

/-! ### Circuits by command and event -/

/-- SAFE_STOP_N (R243): low for 1 ms, or high again. -/
def State.safeStop (k : Nat) (low : Bool) (s : State) : State := (s.setBit (key 0x7830 3) k low).islandSettle

def execSafeStopN (t : Time) (k : Fin 2) (low : Bool) (s : State) : Host.Outcome State Fault Refusal :=
  let s := (s.begin t).safeStop k low
  .next (s.inputEdge (6 + k) (!low) (s.modTime - (if low then Time.ms 1 else 0)))

/-- HOST_OPEN (R243): a demand of the command's moment. -/
def hostOpenEff (n : Nat) : Eff := { eff := fun s => (s.demandsWith [⟨5, n, 2 ^ n⟩]).islandStatus }

def execHostOpen (t : Time) (q : Req) (n : CircuitNo) (s : State) : Host.Outcome State Fault Refusal :=
  .next ((s.begin t).hostWrite q (0x7820 + n) 0xB 0 2 (hostOpenEff n))

/-- HOST_CLOSE (R247, R315): refused while a batch of the circuit has outputs enabled, or the conditions are not met. -/
def hostCloseOwn (n : Nat) (s : State) : Nat :=
  if (s.circBatches n).any (fun b => (s.batch b).outOn) then 0x0B0000B1
  else if !s.mayClose n || !s.requestOk n 1 || (s.rdB (key 0x2510 0x14) && decide (2 ≤ n)) then 0x0B0000B0
  else 0

def hostCloseEff (n : Nat) : Eff :=
  { own := hostCloseOwn n
    eff := fun s => ((s.setCirc n { (s.circ n) with hostReq := true }).takeRequest n).islandStatus }

def execHostClose (t : Time) (q : Req) (n : CircuitNo) (s : State) : Host.Outcome State Fault Refusal :=
  .next ((s.begin t).hostWrite q (0x7820 + n) 0xB 0 1 (hostCloseEff n))

/-- Starts steps 1 to 3 at a faulted circuit (R253). -/
def State.startAck (n : Nat) (host : Bool) (s : State) : State :=
  if s.circState n ≠ 4 || (s.circ n).step ≠ 0 then s
  else
    let s := s.switches n false false
    s.setCirc n { (s.circ n) with step := 1, stepAt := s.now, seen := false, ack := true, ackHost := host, ackSid := s.srv.cur }

/-- ACKNOWLEDGE (R253): answered when the steps end; a circuit without a fault has nothing to acknowledge. -/
def ackEff (n : Nat) : Eff :=
  { own := fun s => needs (!(s.circState n == 4 && (s.circ n).step != 0)) 0x0B0000B2
    eff := fun s => if s.circState n ≠ 4 then s.answer 0 else s.startAck n true
    replies := false }

def execAcknowledge (t : Time) (q : Req) (n : CircuitNo) (s : State) : Host.Outcome State Fault Refusal :=
  .next ((s.begin t).hostWrite q (0x7820 + n) 0xC 0 1 (ackEff n))

/-- CONTACT_FEEDBACK_CLOSED (R250), once step 4 has shown its pattern. -/
def State.feedbackClosed (n : Nat) (s : State) : State :=
  if s.circState n = 2 && (s.circ n).seen && s.rdB (ik n 3) then (s.circClosed n).islandSettle else s

def execContactFeedbackClosed (t : Time) (n : CircuitNo) (s : State) : Host.Outcome State Fault Refusal :=
  .next ((s.begin t).feedbackClosed n)

/-- CLOSING_TIME (R250): Closed without feedback; with feedback not closed, fault 0x07. -/
def State.closingTimeUp (n : Nat) (s : State) : State :=
  let c := s.circ n
  if s.circState n ≠ 2 || !c.seen || s.now < c.stepAt + Time.ms (s.rdN (ik n 4)) then s
  else if s.rdB (ik n 3) then (s.circFault n 7 false).islandSettle
  else (s.circClosed n).islandSettle

def execClosingTime (t : Time) (n : CircuitNo) (s : State) : Host.Outcome State Fault Refusal :=
  .next ((s.begin t).closingTimeUp n)

/-- COIL_OVERCURRENT (R245): above 0.65 A for 1 ms. -/
def State.coilOver (n ma : Nat) (s : State) : State :=
  if ma ≤ 650 then s else ((s.wr (ik n 9) (min 65535 ma : Nat)).circFault n 6 true).islandSettle

def execCoilOvercurrent (t : Time) (n : CircuitNo) (ma : Nat) (s : State) : Host.Outcome State Fault Refusal :=
  .next ((s.begin t).coilOver n ma)

/-- READBACK_MISMATCH (R246): a pattern other than the expected one for 1 ms, outside the 1 ms after a switch command. -/
def State.mismatch (n : Nat) (v : NodeVolts) (s : State) : State :=
  let c := s.circ n
  let r := patOf v
  if s.circState n = 4 || c.pulse.isSome || r == expected c.hs c.ls || s.now < c.cmdAt + Time.ms 2 then s
  else (s.circFault n (patternCode c.hs c.ls r) true).islandSettle

def execReadbackMismatch (t : Time) (n : CircuitNo) (r : NodeVolts) (s : State) : Host.Outcome State Fault Refusal :=
  .next ((s.begin t).mismatch n r)

/-- Whether the test of a switch of circuit n is due in this island cycle (R251): at (1.25 s · n + 5 s · switch) mod 10 s from entry to Run. -/
def State.pulseDue (n : Nat) (low : Bool) (s : State) : Bool :=
  let at_ := (Time.ms 1250 * n + Time.sec 5 * b2n low) % Time.sec 10
  decide ((s.now - s.island.runAt + Time.sec 10 - at_) % Time.sec 10 < Time.us 250)

/-- DARK_PULSE (R251): the scheduled test of an energised circuit. -/
def State.darkPulse (n : Nat) (low : Bool) (s : State) : State :=
  if s.circState n = 3 && s.pulseDue n low then s.startPulse n low else s

def execDarkPulse (t : Time) (n : CircuitNo) (low : Bool) (s : State) : Host.Outcome State Fault Refusal :=
  .next ((s.begin t).darkPulse n low)

/-- BRIGHT_PULSE (R251): the scheduled test of a de-energised circuit. -/
def State.brightPulse (n : Nat) (low : Bool) (s : State) : State :=
  if s.circState n = 0 && s.pulseDue n low then s.startPulse n low else s

def execBrightPulse (t : Time) (n : CircuitNo) (low : Bool) (s : State) : Host.Outcome State Fault Refusal :=
  .next ((s.begin t).brightPulse n low)

/-- PULSE_RETRY (R252): 1 s after the abort, in the form that the circuit's state then calls for; a pulse in progress goes
first. -/
def State.pulseRetry (n : Nat) (low : Bool) (s : State) : State :=
  let c := s.circ n
  match c.retry with
  | some (l, at_) =>
    if l = low && at_ ≤ s.now && c.pulse.isNone && c.step = 0 && s.islandState = 2 && s.circState n ≠ 4 then
      (s.setCirc n { c with retry := none }).startPulse n low
    else s
  | none => s

def execPulseRetry (t : Time) (n : CircuitNo) (low : Bool) (s : State) : Host.Outcome State Fault Refusal :=
  .next ((s.begin t).pulseRetry n low)

/-! ### Locks and the settings CRC (R257) -/

/-- The RWL entries of both areas in ascending order. -/
def islandSettings : List (Nat × Nat) :=
  (List.range 15).map (fun j => (0x7801, 1 + j))
  ++ (List.range 10).flatMap (fun i => [1, 3, 4, 5, 6, 7].map (fun j => (0x7810 + i, j)))
  ++ (List.range 4).flatMap (fun n => [1, 2, 3, 4, 5].map (fun j => (0x7820 + n, j)))
  ++ [(0x7830, 1), (0x7830, 2)]
  ++ (List.range 5).map (fun j => (0x7840, 1 + j))
  ++ (List.range 5).map (fun j => (0x7850, 1 + j))

/-- The settings CRC, which 0x7800.05 reads. -/
def State.settingsCrc (s : State) : Nat :=
  crc32c 0xFFFFFFFF (islandSettings.flatMap (fun e =>
    match descAt e.1 e.2 with
    | some d => d.ty.toBytes (s.rd (key e.1 e.2))
    | none => []))

/-- Whether the settings are consistent, so that an area may be locked. -/
def State.settingsOk (s : State) : Bool :=
  let on (i : Nat) : Bool := s.rdB (key (0x7810 + i) 1)
  let pk (i : Nat) : F32 := s.rdF (key (0x7810 + i) 3)
  let uv := [0, 1, 2].filter on
  let ov := [3, 4].filter on
  let ordered := uv.all (fun i => ov.all (fun j => flt (pk i) (pk j)))
  let c44 := (s.checkPair 0).isSome
  let c46 := (s.checkPair 1).isSome
  let volt := (uv.isEmpty && ov.isEmpty) || (c44 && c46)
  let freq := !([5, 6, 7, 8, 9].any on) || c44
  ordered && volt && freq && (s.rdB (key 0x7840 1) || s.teleRequired == 0)

/-- Sets the lock bit of an island area (R257, R350), with event 0x0B03 (Table 17-18); with both set, Unlocked becomes Run (R239). -/
def islandLockEff (area : Nat) : Eff :=
  { own := fun s => needs s.settingsOk 0x0B0000B3
    eff := fun s =>
      let s := if s.bit (key 0x2600 1) area then s else s.logEvent 0x0B03 0 (d8 area)
      (((s.setBit (key 0x2600 1) area true).setBit (key 0x7800 4) area true).islandRunIfLocked).islandSettle }

def execLockIslandSettings (t : Time) (q : Req) (s : State) : Host.Outcome State Fault Refusal :=
  .next ((s.begin t).hostWrite q 0x7800 2 0 1 (islandLockEff 0))

def execLockInterfaceProtectionSettings (t : Time) (q : Req) (s : State) : Host.Outcome State Fault Refusal :=
  .next ((s.begin t).hostWrite q 0x7800 3 0 1 (islandLockEff 1))

/-- The mean of stage i starts anew: with its mode, as with its enable (R242). -/
def State.newMean (i : Nat) (s : State) : State := s.setStage i { (s.stage i) with meanAt := s.now, buckets := [{}] }

/-- A write of another setting of the island: with its own range by stage type (Table 12-10), then the status follows; a bridge circuit takes no
batch (R315; the code is a DESIGN CHOICE, notes/assumptions/30). -/
def islandSettingEff (index sub : Nat) (v : Int) : Eff :=
  { own := fun s =>
      let ty := s.rdN (key index 2)
      let x := fval (BitVec.ofInt 32 v)
      let within (lo hi : F32) : Bool := f32Finite v.toNat && decide (fval lo ≤ x) && decide (x ≤ fval hi)
      if 0x7810 ≤ index && index ≤ 0x7819 then
        if sub = 3 then
          needs (if ty < 2 then within 0x3DCCCCCD 0x3FC00000 else if ty < 4 then within 0x42340000 0x42820000 else within 0x3DCCCCCD 0x40A00000) abRange
        else if sub = 5 then
          needs (if ty < 2 then within 0x3BA3D70A 0x3DCCCCCD else if ty < 4 then within 0x3C23D70A 0x3F000000 else within 0x3D4CCCCD 0x3F800000) abRange
        else if sub = 7 then needs (v == 0 || ty == 1) abRange
        else 0
      else if 0x7820 ≤ index && index < 0x7824 && sub = 1 then needs (v == 0 || !(s.isBridge (index - 0x7820))) abRange
      else 0
    eff := fun s =>
      let s := if 0x7810 ≤ index && index ≤ 0x7819 && sub = 7 && s.rd (key index 7) ≠ v then s.newMean (index - 0x7810) else s
      (s.wr (key index sub) v).islandSettle }

/-! ### Safety telegrams (R254 to R256) -/

/-- Counts a discard: 1 no partner, 2 mismatch, 3 CRC, 4 sequence, 5 settings CRC. -/
def State.teleDiscard (k : Nat) (s : State) : State := s.inc (key 0x7840 8 k)

/-- Whether a telegram has a good CRC under the seed (R254). -/
def State.teleCrc (l : List Byte) (s : State) : Bool :=
  l.length == 40 && crc32c (s.rdN (key 0x7840 5)) (l.take 36) == leAt 36 4 l

/-- Whether a telegram is a command to this island (R255). -/
def State.teleHeader (l : List Byte) (s : State) : Bool :=
  l.length == 40 && leAt 0 2 l == 0x5453 && leAt 2 1 l == 1 && leAt 3 1 l == 1
    && leAt 4 4 l == s.rdN (key 0x7840 4) && leAt 8 4 l == s.rdN (key 0x7840 3)

/-- An accepted command takes effect (R255, R253). -/
def State.teleAccept (l : List Byte) (s : State) : State :=
  let w := leAt 0x18 2 l
  let seq := leAt 0xC 4 l
  let near := s.island.accepted.filter (fun x => decide ((seq + 2 ^ 32 - x) % 2 ^ 32 < 2 ^ 31))
  let s := { s with island := { s.island with
    lastSeq := some seq, accepted := near ++ s.island.lastSeq.toList, lastCmd := s.now, cmdIn := s.islandState == 2 || s.island.cmdIn } }
  let s := ((s.inc (key 0x7840 7)).wr (key 0x7840 0xA) w).setBit (key 0x7840 6) 0 false
  let s := s.frameSource 9 0 (d16 w) s.modTime
  let s := if w.testBit 9 then s.each (List.range 4) (fun n => State.startAck n false) else s
  s.islandSettle

/-- Both copies are here: the conditions of R255 in order. The first command after reset may carry any sequence (DESIGN
CHOICE, notes/assumptions/33). -/
def State.telePair (a b : List Byte) (s : State) : State :=
  let seq := leAt 0xC 4 a
  let seqOk := match s.island.lastSeq with
    | some l => let d := (seq + 2 ^ 32 - l) % 2 ^ 32; decide (1 ≤ d) && decide (d ≤ 3)
    | none => true
  if !s.teleHeader a || !s.teleHeader b then s.teleDiscard 2
  else if !s.teleCrc a || !s.teleCrc b then s.teleDiscard 3
  else if a != b then s.teleDiscard 2
  else if !seqOk then s.teleDiscard 4
  else if leAt 0x1C 4 a != s.settingsCrc then s.teleDiscard 5
  else s.teleAccept a

/-- Whether a sequence has been accepted already: a further copy with it is ignored (R255). -/
def State.seqAccepted (seq : Nat) (s : State) : Bool := s.island.lastSeq == some seq || s.island.accepted.contains seq

/-- SAFETY_TELEGRAM (R255): a copy waits for its partner of the other port, which must come within 10 ms. -/
def State.telegram (portB : Bool) (l : List Byte) (s : State) : State :=
  if !s.rdB (key 0x7840 1) || s.seqAccepted (leAt 0xC 4 l) then s else
  let i := s.island
  match i.copies.find? (fun c => c.portB != portB && decide (s.now ≤ c.at_ + Time.ms 10)) with
  | some c =>
    let s := { s with island := { i with copies := i.copies.filter (· != c) } }
    (s.wr (key 0x7840 6) (s.rdN (key 0x7840 6) ||| 6 : Nat)).telePair c.bytes l
  | none =>
    let s := { s with island := { i with copies := i.copies ++ [TeleCopy.mk portB s.now l] } }
    let k := key 0x7840 6
    (s.setBit k 1 (!portB)).setBit k 2 portB

def execSafetyTelegram (t : Time) (portB : Bool) (bytes : List Byte) (s : State) : Host.Outcome State Fault Refusal :=
  .next ((s.begin t).telegram portB bytes)

/-- NO_PARTNER (R255): copies without a partner for 10 ms. -/
def State.noPartner (s : State) : State :=
  let i := s.island
  let old := i.copies.filter (fun c => decide (c.at_ + Time.ms 10 ≤ s.now))
  let s := { s with island := { i with copies := i.copies.filter (fun c => decide (s.now < c.at_ + Time.ms 10)) } }
  s.each old (fun _ => State.teleDiscard 1)

def execNoPartner (t : Time) (s : State) : Host.Outcome State Fault Refusal := .next (s.begin t).noPartner

/-- TELEGRAM_WATCHDOG (R256): 60 ms without an accepted command. -/
def State.teleWatchdog (s : State) : State :=
  if !s.rdB (key 0x7840 1) || s.bit (key 0x7840 6) 0 || s.now < s.island.lastCmd + Time.ms 60 then s
  else ((s.wr (key 0x7840 6) 1).inc (key 0x7840 9)).islandSettle

def execTelegramWatchdog (t : Time) (s : State) : Host.Outcome State Fault Refusal := .next (s.begin t).teleWatchdog

/-- The bytes of a status telegram (Table 12-8). -/
def State.statusBytes (seq : Nat) (s : State) : List Byte :=
  let bits (f : Nat → Bool) (n : Nat) : Nat := ((List.range n).map (fun i => b2n (f i) * 2 ^ i)).sum
  let w := bits (fun n => s.circState n == 3) 4 + 16 * bits (fun n => s.circState n == 4) 4 + 256 * s.islandState
  let body := [0x53, 0x54, 1, 2] ++ d32 (s.rdN (key 0x7840 3)) ++ d32 (s.rdN (key 0x7840 4)) ++ d32 seq ++ d64 s.tai ++ d16 w
    ++ d16 (bits (fun i => s.bit (key (0x7810 + i) 8) 1) 10) ++ d32 s.settingsCrc ++ d32 (s.island.lastSeq.getD 0)
  body ++ d32 (crc32c (s.rdN (key 0x7840 5)) body)

/-- STATUS_TELEGRAM (R256): every 20 ms on both ports of the pair. -/
def State.statusTelegram (s : State) : State :=
  if !s.rdB (key 0x7840 1) || s.now < s.island.lastTx + Time.ms 20 then s
  else
    let b := s.statusBytes s.island.txSeq
    let p := s.rd (key 0x7840 2)
    let s := { s with island := { s.island with txSeq := (s.island.txSeq + 1) % 2 ^ 32, lastTx := s.now } }
    let s := (s.msg "SAFETY_STATUS" [p, 0] b).msg "SAFETY_STATUS" [p, 1] b
    s.frameSource 9 1 ((b.drop 0x18).take 2) s.modTime

def execStatusTelegram (t : Time) (s : State) : Host.Outcome State Fault Refusal := .next (s.begin t).statusTelegram

end Sys2Proof.Machine
end

