-- ==== Sys2Proof/Machine/Rack.lean ====
section
/-! DEFINITION. The rack (R296 to R301), the twin pair with its state copies (R302 to R307), and the arbiter with authority,
fail-over, handover and bridges (R308 to R317). Times in messages are TAI ns. -/

namespace Sys2Proof.Machine

/-- Entries of the commit and arbiter objects. -/
def cmk (sub : Nat) (elem : Nat := 0) : Nat := key 0x2501 sub elem
def abk (p sub : Nat) (elem : Nat := 0) : Nat := key (0x2520 + p) sub elem

/-- STANDALONE (R296): no other module heard for 10 ms since PD5 powered up. -/
def State.standalone (s : State) : State :=
  if s.rack.heard.isNone && s.power.startedAt + Time.ms 10 ≤ s.now then s.wr (rkk 3) 0 else s

def execStandalone (t : Time) (s : State) : Host.Outcome State Fault Refusal := .next (s.begin t).standalone

/-! ### Pair state and health (R303, R309) -/

/-- The partner's latest heartbeat. -/
def State.twinPartner (s : State) : Option Beat := Tbl.find? (s.rdN (twk 2)) s.rack.beats

/-- The pair state (Table 15-5). The standby judges by its copies, the active by the partner's bit 5; before there is an active
no copy is due; a partner is lost after three missed heartbeats and failed while its health is (R309; DEDUCED, notes/assumptions/39). -/
def State.pairState (s : State) : Nat :=
  if s.twinRole = 0 then 0
  else if (match s.twinPartner with | some h => decide (3 ≤ h.missRun) || !h.msg.health.testBit 0 | none => false) then 4
  else match s.rack.digest with
    | none => 1
    | some d =>
      if d ≠ s.ownDigest then 5
      else if s.rdN (twk 0xB) ≠ 2 then 3
      else
        let ok := match s.authority with
          | 1 => (match s.twinPartner with | some h => h.msg.health.testBit 5 | none => false)
          | 2 => s.twinBatches.all (fun b => 16 ≤ Tbl.get 0 b s.rack.onTime)
          | _ => true
        if ok then 2 else 3

/-- The node positions that link k reaches (Table 10-12): those found, up to the first unreached one. -/
def State.linkReach (k : Nat) (s : State) : Nat := min (s.rdN (lk k 4)) (s.rdN (lk k 0x12))

/-- A ring link with a node of a twin batch reaches fewer positions than the partner reports with its heartbeats (Table 15-3, bit 4; how they
come is no part of Table 15-2: DEDUCED, notes/assumptions/40). -/
def State.shortRing (s : State) : Bool :=
  match s.twinPartner with
  | none => false
  | some h => h.msg.reach.any (fun e => s.rdN (lk e.1 2) == 1 && decide (s.linkReach e.1 < e.2)
      && (List.range 768).any (fun n => s.rdN (ndk n 1) == e.1 && s.benabled (s.rdN (ndk n 4))))

/-- The module's health flags (Table 15-3). -/
def State.health (s : State) : Nat :=
  let b1 := [2, 3, 5].any (fun n => s.rdN (key 0x2100 n) == 3)
  let b2 := allBatches.any (fun b => s.bstate b == .blocked && s.bit (bk 0xD 1 b) 3) || !s.fabric.uncarried.isEmpty
  let b3 := s.rdN (ckc 4) == 3
  let b5 := s.authority != 1 && s.rdN (twk 6) == 2
  let b6 := s.rack.leaving
  let bad := 2 * b2n b1 + 4 * b2n b2 + 8 * b2n b3 + 16 * b2n s.shortRing + 64 * b2n b6
  (if bad = 0 then 1 else 0) + bad + 32 * b2n b5

/-- Brings pair state and health entries up to date. -/
def State.syncTwin (s : State) : State :=
  let s := s.wr (twk 6) s.pairState
  s.wr (twk 9) (if s.twinRole = 0 then 0 else s.health : Nat)

/-- Whether the standby of the last heartbeats is beatEligible (R309). -/
def beatEligible (h : Beat) : Bool := h.msg.health.testBit 0 && h.msg.health.testBit 5 && h.missRun < 3

/-! ### The module as arbiter (R308, R310, R313) -/

/-- Whether the module may arbitrate: the rack master, or a module in the arbiter-only role. -/
def State.arbitrates (s : State) : Bool := s.rackRole == 1 || s.rdB (rkk 4)

/-- Whether the module arbitrates pair p (R308), as the arbiter setting of the pair's modules says (0x2510.03, .04): the rack master, a module
in the arbiter-only role at the slot they name, or neither; never a pair of its own (how it learns the setting: DEDUCED, notes/assumptions/41). -/
def State.arbitratesPair (p : Nat) (s : State) : Bool :=
  p < 4 && !(s.twinRole != 0 && s.rdN (twk 5) == p)
    && (match List.find? (fun (e : Nat × Beat) => e.2.msg.pair == p && e.2.msg.authority != 3) s.rack.beats with
      | some (_, h) =>
        if h.msg.arbiter = 0 then s.rackRole == 1 else h.msg.arbiter == 1 && s.rdB (rkk 4) && h.msg.arbiterSlot == s.rdN (rkk 1)
      | none => false)

/-- Slots A and B of pair p. -/
def State.pairSlot (p i : Nat) (s : State) : Nat := s.rdN (abk p 1 (1 + i))

/-- Notes the slot of module A (twin role 1) or B (2) of pair p (R302; DEDUCED, notes/assumptions/41). -/
def State.noteSlot (p i role : Nat) (s : State) : State :=
  if role = 1 || role = 2 then s.wr (abk p 1 role) i else s

def State.beat (i : Nat) (s : State) : Option Beat := Tbl.find? i s.rack.beats

/-- The other slot of pair p. -/
def State.otherSlot (p i : Nat) (s : State) : Nat := if s.pairSlot p 0 = i then s.pairSlot p 1 else s.pairSlot p 0

/-- The new epoch of pair p (R310): above the last granted one and every node epoch reported. -/
def State.newEpoch (p : Nat) (s : State) : Nat :=
  let rep (i : Nat) : Nat := match s.beat (s.pairSlot p i) with
    | some h => h.msg.nodeEpoch
    | none => 0
  max (s.rdN (abk p 2)) (max (rep 0) (rep 1)) + 1

/-- FAIL_OVER (R310): grant to the standby and revoke, or a refusal. -/
def State.failOver (p act cause : Nat) (s : State) : State :=
  let sb := s.otherSlot p act
  match s.beat sb with
  | some h =>
    if beatEligible h then
      let old := s.rdN (abk p 2)
      let e := s.newEpoch p
      let s := (((s.wr (abk p 2) e).wr (abk p 3) sb).inc (abk p 5)).wr (abk p 7) s.tai
      let s := (s.rackMsg "GRANT" sb [p, e, 0]).rackMsg "REVOKE" act [p, old, 0]
      s.logEvent 0x0900 p (d8 cause ++ d8 act ++ d32 e)
    else (s.inc (abk p 6)).logEvent 0x0901 p (d8 h.msg.health)
  | none => (s.inc (abk p 6)).logEvent 0x0901 p (d8 0)

/-- Whether the other module of pair p is an eligible standby. A failure is declared again while it lasts once there is one; its refusals count
once (notes/assumptions/121). -/
def State.eligibleOther (p i : Nat) (s : State) : Bool :=
  match s.beat (s.otherSlot p i) with
  | some h => beatEligible h
  | none => false

/-- The first epoch, to module A (R310), where no heartbeat shows an active module. -/
def State.firstGrant (p : Nat) (s : State) : State :=
  if s.rdN (abk p 3) ≠ 0xFF then s else
  match s.beat (s.pairSlot p 0), s.beat (s.pairSlot p 1) with
  | some a, some b =>
    if a.msg.health.testBit 0 && beatEligible b && a.missRun < 3 then
      let e := s.newEpoch p
      ((s.wr (abk p 2) e).wr (abk p 3) (s.pairSlot p 0)).rackMsg "GRANT" (s.pairSlot p 0) [p, e, 0]
    else s
  | _, _ => s

/-- The partner's heartbeat at a twin module: its bridges, its health; beside an active partner the module is the standby (R306;
notes/assumptions/39). -/
def State.partnerBeat (m : HeartbeatMsg) (s : State) : State :=
  let upd (k : Nat) (s : State) (l : Tbl Time) : Tbl Time :=
    if m.circuits.testBit k then Tbl.set k (Tbl.get s.now k l) l else Tbl.erase k l
  let s := s.each [0, 1] (fun k s => s.modRack (fun r => { r with bridgeShown := upd k s r.bridgeShown }))
  let s := if m.authority = 1 && s.authority = 0 then (s.wr (twk 7) 2).modRack (fun r => { r with copies := [], onTime := [], ran := [], turnAt := none }) else s
  (s.wr (twk 0xA) m.health).syncTwin

/-- An arbiter hears of pair p (R310): after its own restart it takes the active module from the heartbeat that shows it; failed health of
the active module, and pair start-up. `wasOk` is the health that slot `i` showed before. -/
def State.arbiterBeat (i : Nat) (m : HeartbeatMsg) (wasOk : Bool) (s : State) : State :=
  let s := s.noteSlot m.pair i m.role
  let s := if s.rdN (abk m.pair 3) = 0xFF && m.authority = 1 then (s.wr (abk m.pair 3) i).wr (abk m.pair 2) (max (s.rdN (abk m.pair 2)) m.epoch : Nat) else s
  if s.rdN (abk m.pair 3) = i && !m.health.testBit 0 && (wasOk || s.eligibleOther m.pair i) then s.failOver m.pair i 2
  else s.firstGrant m.pair

/-- Records the heartbeat of slot i. One that comes after its deadline of 10 µs is missed all the same: the count of missed ones goes on
(R309). -/
def State.putBeat (i : Nat) (m : HeartbeatMsg) (s : State) : State :=
  let late := decide (Time.us 10 < s.modTime % Time.us 50)
  let b : Beat := match s.beat i with
    | some h => if late then { h with msg := m } else { msg := m, at_ := s.now }
    | none => { msg := m, at_ := s.now }
  s.modRack (fun r => { r with beats := Tbl.set i b r.beats })

/-- HEARTBEAT (R309, R310, R316): recorded; an arbiter acts on it. One with a bad CRC is discarded and counted (R297). -/
def State.heartbeat (i : Nat) (m : HeartbeatMsg) (s : State) : State :=
  if !m.crcGood then s.inc (rkk 0xA) else
  let s := s.hear i
  let s := if s.twinRole ≠ 0 && i = s.arbiterSlot then (s.modRack (fun r => { r with arbiterAt := some s.now })).setBit (rkk 6) 3 false else s
  let wasOk := (match s.beat i with | some h => h.msg.health.testBit 0 | none => true)
  let s := s.putBeat i m
  let s := if s.twinRole ≠ 0 && i = s.rdN (twk 2) then s.partnerBeat m else s
  if s.arbitratesPair m.pair && m.authority ≠ 3 && i ≠ s.rdN (rkk 1) then s.arbiterBeat i m wasOk else s

/-- The highest node epoch that the module knows (Table 15-2). -/
def State.topEpoch (s : State) : Nat :=
  max ((s.links.nodes.map (fun e => s.rdN (ndk e.1 0x13))).foldl max 0) ((List.range 24).foldl (fun m k => max m (s.rdN (lk k 0x10))) 0)

/-- The circuits that are Closed, a bit each (Table 15-2). -/
def State.circuitBits (s : State) : Nat := ((List.range 4).map (fun n => b2n (s.circState n == 3) * 2 ^ n)).sum

/-- HEARTBEAT_SEND (R309): authority, health, epoch in use, highest node epoch, circuits Closed; at the multiples of 50 µs. -/
def State.heartbeatSend (s : State) : State :=
  if (s.twinRole = 0 && !s.arbitrates) || 32 ≤ s.modTime % Time.us 50 then s else
  let s := s.syncTwin
  let auth : Nat := if s.twinRole ≠ 0 then s.authority else 3
  s.rackMsg "HEARTBEAT" 255 [if s.twinRole ≠ 0 then s.rd (twk 5) else 255, auth, s.rd (twk 9), s.rd (twk 8), s.topEpoch, s.circuitBits]

def execHeartbeatSend (t : Time) (s : State) : Host.Outcome State Fault Refusal := .next (s.begin t).heartbeatSend

/-- A partner that has not been heard yet misses its heartbeats from the start of the module (R309). -/
def State.expectPartner (i : Nat) (s : State) : State :=
  if s.twinRole ≠ 0 && i = s.rdN (twk 2) && (s.beat i).isNone then
    s.modRack (fun r => { r with beats := Tbl.set i { msg := { pair := s.rdN (twk 5), authority := 0, health := 1, epoch := 0, nodeEpoch := 0, circuits := 0, crcGood := true }, at_ := s.power.startedAt } r.beats })
  else s

/-- HEARTBEAT_MISSED (R309, R310): a deadline has passed; the third in a row is a failure. A partner lost so shows no circuit Closed any longer
(R316). -/
def State.heartbeatMissed (i : Nat) (s : State) : State :=
  let s := s.expectPartner i
  match s.beat i with
  | none => s
  | some h =>
    let heard : Nat := ((h.at_ : Int) + s.clock.offset).toNat / Time.us 50
    if s.modTime < (heard + h.missRun + 1) * Time.us 50 + Time.us 10 then s else
    let s := s.modRack (fun r => { r with beats := Tbl.set i { h with missRun := h.missRun + 1 } r.beats })
    let s := if h.missRun + 1 = 3 then s.setBit (rkk 5) i false else s
    let s := if s.twinRole ≠ 0 && i = s.rdN (twk 2) then
        (if h.missRun + 1 = 3 then s.modRack (fun r => { r with bridgeShown := [] }) else s).syncTwin
      else s
    let p := h.msg.pair
    if s.arbitratesPair p && (s.pairSlot p 0 = i || s.pairSlot p 1 = i) then
      let s := s.inc (abk p 4 (if s.pairSlot p 0 = i then 1 else 2))
      if s.rdN (abk p 3) = i && (h.missRun + 1 = 3 || (4 ≤ h.missRun + 1 && s.eligibleOther p i)) then s.failOver p i 1 else s
    else s

def execHeartbeatMissed (t : Time) (slot : RackSlot) (s : State) : Host.Outcome State Fault Refusal :=
  .next ((s.begin t).heartbeatMissed slot)

/-- HANDOVER_REQUEST (R313, R316): at the arbiter, Grant and Revoke that name departure D, if the standby is eligible; at the
partner, a removal or an update asks for its bridges. -/
def State.handoverRequest (i p cause : Nat) (s : State) : State :=
  let s := s.hear i
  let s := if s.twinRole ≠ 0 && i = s.rdN (twk 2) && 2 ≤ cause then s.modRack (fun r => { r with bridgeWanted := 3 }) else s
  if !s.arbitratesPair p || s.rdN (abk p 3) ≠ i then s else
  let sb := s.otherSlot p i
  match s.beat sb with
  | some h =>
    if beatEligible h then
      let old := s.rdN (abk p 2)
      let e := s.newEpoch p
      let d := (s.tai + 200000 + 4999) / 5000 * 5000
      let s := (s.wr (abk p 2) e).wr (abk p 3) sb
      let s := (s.rackMsg "GRANT" sb [p, e, d]).rackMsg "REVOKE" i [p, old, (d : Int) - 5000]
      s.logEvent 0x0902 p (d8 cause ++ d32 e ++ d64 d)
    else s
  | none => s

def execHandoverRequest (t : Time) (slot : RackSlot) (pair : Fin 4) (cause : Nat) (s : State) : Host.Outcome State Fault Refusal :=
  .next ((s.begin t).handoverRequest slot pair cause)

/-! ### The module as twin: authority (R307, R311, R313) -/

/-- The module begins commanding with epoch `e` (R311): its frames carry it, with the control bytes and edges of the batch states that it ran
in shadow; Standby becomes Running. `turn` is the departure of a planned handover, from which the copies turn (R313); an unplanned grant beside
an active partner is a fail-over, whose overlap counts from here (Table 15-9 .13). -/
def State.takeAuthority (e : Nat) (turn : Option Time) (s : State) : State :=
  let was := s.authority
  let s := ((s.wr (twk 7) 1).wr (twk 8) e).wr (twk 0x12) s.tai
  let s :=
    if turn.isSome then (s.inc (twk 0x11)).wr (twk 0x13) 0
    else if was = 2 then ((s.inc (twk 0x10)).wr (twk 0x13) 0).modRack (fun r => { r with started := some s.tai })
    else s
  let s := { s with links := { s.links with epoch := e, superseded := false } }
  let s := s.each (List.range 24) (fun k s => if s.rdB (lk k 1) then (s.wr (lk k 0x10) e).setBit (lk k 0x13) 6 false else s)
  let s := s.modRack (fun r => { r with grant := none, copies := if turn.isSome then r.copies else [], onTime := [], planned := 0, turnAt := turn })
  (if s.mod == .standby then s.setMod .running else s).syncTwin

/-- GRANT (R311): held until the first frame departure it allows. A module that has lost its arbiter takes none (R317). -/
def State.takeGrant (e first : Nat) (s : State) : State :=
  let s := if s.twinRole = 0 then s else s.hear s.arbiterSlot
  if s.twinRole = 0 || e ≤ s.rdN (twk 8) || s.bit (rkk 6) 3 then s
  else s.modRack (fun r => { r with grant := some (e, if first = 0 then s.tai + 3000 else first), planned := if first = 0 then 0 else 1 })

def execGrant (t : Time) (epoch first : Nat) (s : State) : Host.Outcome State Fault Refusal := .next ((s.begin t).takeGrant epoch first)

/-- REVOKE (R311, R313): at once, or after the last departure it names. -/
def State.takeRevoke (e last : Nat) (s : State) : State :=
  let s := if s.twinRole = 0 then s else s.hear s.arbiterSlot
  if s.twinRole = 0 || s.authority ≠ 1 || s.rdN (twk 8) ≠ e then s
  else if last = 0 then (s.dropAuthority none).syncTwin
  else s.modRack (fun r => { r with revoke := some (e, last), planned := max r.planned 1 })

def execRevoke (t : Time) (epoch last : Nat) (s : State) : Host.Outcome State Fault Refusal := .next ((s.begin t).takeRevoke epoch last)

/-- Authority at a frame departure (R311, R313): a Revoke's last departure has passed, or a Grant's first one is here. A Grant
with first departure 0 allows those whose sealing point, 1.5 µs ahead of them, lies 1.5 µs after its arrival; without its arbiter the module does
not begin (R317). -/
def State.authorityAt (s : State) : State :=
  let s := match s.rack.revoke with
    | some (_, l) =>
      if l < s.tai then ((s.modRack (fun r => { r with revoke := none })).dropAuthority (some (nsToFine (l + 5000)))).syncTwin else s
    | none => s
  match s.rack.grant with
  | some (e, d) =>
    if d ≤ s.tai && !s.bit (rkk 6) 3 then s.takeAuthority e (if s.rack.planned ≠ 0 then some (nsToFine d) else none) else s
  | none => s

/-- Whether the partner is an eligible standby as the active module sees it (R313). -/
def State.partnerEligible (s : State) : Bool :=
  match s.twinPartner with
  | some h => beatEligible h && s.rdN (twk 6) == 2
  | none => false

/-- Sends a Handover request (R313): 1 host, 2 removal latch or supply loss, 3 firmware update. -/
def State.askHandover (cause : Nat) (s : State) : State :=
  (s.modRack (fun r => { r with planned := cause, askedAt := s.now })).rackMsg "HANDOVER" s.arbiterSlot [s.rd (twk 5), cause]

/-- PLANNED_HANDOVER (R313). -/
def plannedEff : Eff where
  own s := firstFail [needs (s.twinRole != 0 && s.authority == 1) abState, needs s.partnerEligible 0x0B0000F4]
  eff := State.askHandover 1

def execPlannedHandover (t : Time) (q : Req) (s : State) : Host.Outcome State Fault Refusal :=
  .next ((s.begin t).hostWrite q 0x2510 0xF 0 1 plannedEff)

/-- ARBITER_LOST (R317). -/
def State.arbiterLost (s : State) : State :=
  if s.twinRole = 0 || s.bit (rkk 6) 3 || s.now < s.rack.arbiterAt.getD s.power.startedAt + Time.ms 1 then s
  else (s.setBit (rkk 6) 3 true).logEvent 0x0908 0 []

def execArbiterLost (t : Time) (s : State) : Host.Outcome State Fault Refusal := .next (s.begin t).arbiterLost

/-! ### Twin link and state copies (R302 to R306) -/

/-- TWIN_LINK_TRAINED (R303): the pair compares digests; one that lacks only the writes not forwarded yet is the own one before them. -/
def State.linkTrained (d : Nat) (s : State) : State :=
  if s.twinRole = 0 then s
  else
    let s := (s.wr (twk 0xB) 2).modRack (fun r => { r with
      digest := some d, inStep := d == s.ownDigest || (!r.forwards.isEmpty && r.base == some d) })
    s.syncTwin.sendForwards

def execTwinLinkTrained (t : Time) (digest : Nat) (s : State) : Host.Outcome State Fault Refusal := .next ((s.begin t).linkTrained digest)

/-- TWIN_LINK_DOWN (R318): event 0x0905; no copy comes on time over it, and it trains again. -/
def State.linkDown (s : State) : State :=
  if s.twinRole = 0 || s.rdN (twk 0xB) ≠ 2 then s
  else (((s.wr (twk 0xB) 1).modRack (fun r => { r with copies := [], onTime := [], forwards := r.forwards.map (fun f => { f with sent := f.acked }) })).logEvent 0x0905 0 []).syncTwin

def execTwinLinkDown (t : Time) (s : State) : Host.Outcome State Fault Refusal := .next (s.begin t).linkDown

/-- STATE_COPY_RECEIVED (R306): held for the next t0. -/
def State.copyReceived (m : StateCopy) (s : State) : State :=
  if !(s.copiesIn m.t0) || s.rdN (twk 0xB) ≠ 2 then s
  else s.modRack (fun r => { r with copies := Tbl.set m.batch m r.copies })

def execStateCopyReceived (t : Time) (m : StateCopy) (s : State) : Host.Outcome State Fault Refusal := .next ((s.begin t).copyReceived m)

/-- Installs a copy (R306): slot states with their active banks, generators, batch state; in a running state the outputs count as enabled, so
that the cycles in shadow seal their edges and a module that takes authority commands them (R311). -/
def State.installCopy (b : Nat) (r : Recipe) (m : StateCopy) (s : State) : State :=
  let s := s.each (r.fixedSlots.zip m.fixed) (fun p s => s.setFx p.1 { (s.fx p.1) with st := p.2 })
  let s := s.each (r.floatSlots.zip m.floats) (fun p s => s.setFl p.1 { (s.fl p.1) with st := p.2 })
  let s := s.each (r.gens.zip m.gens) (fun p s =>
    let s := ((s.wrF (genX p.1) p.2.x).wrF (genV p.1) p.2.v).wrF (genA p.1) p.2.a
    s.setGen p.1 { (s.gen p.1) with target := p.2.target })
  let s := s.setBit (bk 0x12 5 b) 4 m.openLoop
  let on := (BatchState.ofCode m.state).running
  let s := s.modBatch b (fun x => { x with outOn := on, outDue := none, seeded := false })
  if s.rdN (bk 1 1 b) = m.state then s
  else ((s.wr (bk 1 2 b) (s.rd (bk 1 1 b))).wr (bk 1 1 b) m.state).modBatch b (fun x => { x with since := s.now })

/-- A copy that did not come in time (R306). -/
def State.lateCopy (b : Nat) (s : State) : State :=
  (((s.inc (twk 0xD)).modRack (fun k => { k with onTime := Tbl.set b 0 k.onTime })).logEvent 0x0907 b (d8 b)).syncTwin

/-- The standby at a t0 of a twin batch (R306, R313): the copy of the preceding cycle is installed, or counted late where that cycle ran here. -/
def State.standbyT0 (b : Nat) (s : State) : State :=
  if s.twinRole = 0 || s.authority = 0 then s else
  let due := s.rack.ran.contains b && s.copiesIn (s.modTime - 32 * s.cycleOf b)
  match s.recipe b with
  | none => s.modRack (fun k => { k with ran := k.ran.filter (· != b) })
  | some r =>
    let held := Tbl.find? b s.rack.copies
    let s := s.modRack (fun k => { k with copies := Tbl.erase b k.copies, ran := b :: k.ran.filter (· != b) })
    match held with
    | some m =>
      if m.t0 + 32 * s.cycleOf b = s.modTime then
        (s.installCopy b r m).modRack (fun k => { k with onTime := Tbl.set b (Tbl.get 0 b k.onTime + 1) k.onTime }) |>.syncTwin
      else s.when due (State.lateCopy b)
    | none => s.when due (State.lateCopy b)

/-- A write of the twin role (R302, R305). -/
def twinRoleEff (v : Int) : Eff where
  own s := firstFail [needs (allBatches.all (fun b => s.bstate b == .off)) 0x0B0000F2,
    needs (v == 0 || decide (s.copyLoad none ≤ 19400000000)) 0x0B0000F3,
    needs (v == 0 || (List.range 256).all (fun c => let r := s.rdN (chk c 2); r != 1 && r != 2)) 0x0B000084]
  eff s :=
    let s := s.wr (twk 0xB) (if v = 0 then 0 else if s.rdN (twk 0xB) = 2 then 2 else 1 : Nat)
    let s := ((s.wr (twk 1) v).wr (twk 7) 0).modRack (fun r => { r with digest := none, inStep := false, copies := [], onTime := [], ran := [], turnAt := none, grant := none, revoke := none })
    s.syncCopyLoad.syncTwin

/-! ### Time in the rack (R298, R299) -/

/-- HOP_DELAY_MEASUREMENT (R298): the delay of the RACK_UP hop, and that of RACK_DN where the module there has measured it
(Table 15-7 .08; DEDUCED, notes/assumptions/121). -/
def State.hopDelay (d : HopDelays) (s : State) : State :=
  let s := (s.wr (rkk 7) d.up).setBit (rkk 6) 0 true
  match d.down with
  | some ps => (s.wr (rkk 8) ps).setBit (rkk 6) 1 true
  | none => s

def execHopDelayMeasurement (t : Time) (d : HopDelays) (s : State) : Host.Outcome State Fault Refusal := .next ((s.begin t).hopDelay d)

/-- TIME_SYNC (R298): `departed` in TAI ns at the master, `others` the delays in ps of the hops before the module's own. With time
source 2 the offset steps time once and corrects the rate, quality 0x04. -/
def State.timeSync (departed others : Nat) (s : State) : State :=
  let s := s.hear (s.rdN (rkk 2))
  let ps := 1000 * departed + others + s.rdN (rkk 7)
  let off := (s.modTime : Int) - (64 * ps / 5000 : Nat)
  let s := s.wr (rkk 9) (clampI (5 * off / 64) (-2 ^ 31) (2 ^ 31 - 1))
  if s.rackRole = 2 && s.rdN (tmk 2) = 2 then (s.takeOffset off).setQuality 4 else s

def execTimeSync (t : Time) (departed others : Nat) (s : State) : Host.Outcome State Fault Refusal :=
  .next ((s.begin t).timeSync departed others)

/-- TIME_SYNC_SEND (R298). -/
def execTimeSyncSend (t : Time) (s : State) : Host.Outcome State Fault Refusal :=
  .next ((s.begin t).when (s.rackRole == 1) (fun s => s.rackMsg "TIME_SYNC" 255 [s.tai]))

/-- MASTER_LOST (R299). -/
def State.masterLost (s : State) : State :=
  if s.rackRole = 2 && s.rack.masterAt.getD s.power.startedAt + Time.ms 1 ≤ s.now && !s.bit (rkk 6) 2 then
    ((((s.setBit (rkk 6) 2 true).setBit (rkk 5) (s.rdN (rkk 2)) false).inc (rkk 0xB)).logEvent 0x0906 0 []).setQuality 3
  else s

def execMasterLost (t : Time) (s : State) : Host.Outcome State Fault Refusal := .next (s.begin t).masterLost

/-! ### Rack-wide changes: the transaction at the master (R300, R301) -/

/-- Slots of a list as bits. -/
def slotBits (l : List Nat) : Nat := ((List.range 9).map (fun i => b2n (l.contains i) * 2 ^ i)).sum

def State.setTxn (t : Option Txn) (s : State) : State := s.modRack (fun r => { r with txn := t })

/-- Ends the transaction with a result (0x2501.07), event 0x0903. -/
def State.endTxn (res : Nat) (stragglers : List Nat) (s : State) : State :=
  match s.rack.txn with
  | some x => (((s.wr (cmk 7) res).wr (cmk 9 2) (slotBits stragglers)).setTxn none).logEvent 0x0903 0 (d32 x.id ++ d8 res ++ d16 (slotBits stragglers))
  | none => s

/-- Slots of a transaction that have not applied all they were asked to (R301). -/
def Txn.stragglers (x : Txn) : List Nat :=
  x.named.filter (fun i => let m := Tbl.get 0 i x.masks; (Tbl.get 0 i x.applied &&& m) != m)

/-- A Report at the master (R300, R301): the batches of a slot that applied; with none left the transaction ends. -/
def State.takeReport (i txn applied : Nat) (s : State) : State :=
  match s.rack.txn with
  | some x =>
    if x.id ≠ txn || !x.named.contains i then s
    else
      let x := { x with reported := i :: x.reported.filter (· ≠ i), applied := Tbl.set i (Tbl.get 0 i x.applied ||| applied) x.applied }
      let s := (s.setTxn (some x)).wr (cmk 9 1) (slotBits (x.named.filter (fun i => Tbl.get 0 i x.applied ≠ 0)))
      if x.stragglers.isEmpty then s.endTxn (match x.stage with | 2 => 4 | 3 => 5 | _ => 2) [] else s
  | none => s

/-! ### Rack-wide changes: the member (R300) -/

/-- The condition of operation `op` to answer READY for batch b (Table 15-4); 0x80 added names the revert (DESIGN CHOICE,
notes/assumptions/42). -/
def State.opOk (op b : Nat) (s : State) : Bool :=
  match op with
  | 1 | 0x81 => (s.firstInvalid b).isNone
  | 2 | 0x82 => [0, 1, 2, 3].all (fun i => (s.spGen b i).isSome)
  | 3 => s.kind b == 1 && s.rdN (bk 0xB 0xD b) == 3 && s.bstate b == .starter && s.bit (bk 0xB 0x11 b) 2 && s.mod == .running
  | _ => false

/-- Batches of a mask. -/
def maskList (m : Nat) : List Nat := allBatches.filter (fun b => m.testBit b)

/-- The cause of a REFUSE, 0 for READY: 1 master lost, 2 no such batch, 3 control cycle above 500 µs, 4 the operation's condition
(DESIGN CHOICE, notes/assumptions/42). A revert is answered READY by a module that applied. -/
def State.refuseCause (m : PrepareMsg) (s : State) : Nat :=
  let l := maskList m.mask
  if s.bit (rkk 6) 2 then 1
  else if 0x80 ≤ m.op && s.rack.lastOp = m.op - 0x80 && (m.mask ||| s.rack.lastMask) = s.rack.lastMask then 0
  else if 2 ^ 32 ≤ m.mask || !(l.all (fun b => s.benabled b)) then 2
  else if !(l.all (fun b => s.cycleOf b ≤ 200000)) then 3
  else if !(l.all (fun b => s.opOk m.op b)) then 4
  else 0

/-- Takes a PREPARE: what it answers and, when READY, holds. -/
def State.prepare (m : PrepareMsg) (s : State) : Nat × State :=
  let c := s.refuseCause m
  if c = 0 then (0, s.modRack (fun r => { r with prep := some { msg := m } })) else (c, s)

/-- Records a batch that applied or failed to, and reports once all have, or from T + 1 ms on (R300); the master's own module to itself. -/
def State.rackReportNow (s : State) : State :=
  match s.rack.prep with
  | some p =>
    let all := maskList p.msg.mask
    if !p.reported && (all.all (fun b => p.applied.testBit b || p.failed.testBit b) || p.msg.at_ + Time.ms 1 ≤ s.modTime) then
      let s := s.modRack (fun r => { r with
        prep := some { p with reported := true }, lastTxn := p.msg.txn, lastOp := p.msg.op
        lastMask := if r.lastTxn = p.msg.txn && r.lastOp = p.msg.op then r.lastMask ||| p.applied else p.applied })
      let s := if 0x80 ≤ p.msg.op && p.applied ≠ 0 then s.logEvent 0x0904 0 (d32 p.msg.txn) else s
      if s.rackRole = 1 then s.takeReport (s.rdN (rkk 1)) p.msg.txn p.applied
      else s.rackMsg "REPORT" (s.rdN (rkk 2)) [p.msg.txn, p.applied]
    else s
  | none => s

/-- PREPARE (R300); a Report that is due goes before. A member that has lost the master refuses, then hears it again (R299). -/
def State.prepareMsg (m : PrepareMsg) (s : State) : State :=
  let (c, s) := s.rackReportNow.prepare m
  let s := s.hear (s.rdN (rkk 2))
  if c = 0 then s.rackMsg "READY" (s.rdN (rkk 2)) [m.txn, 0] else s.rackMsg "REFUSE" (s.rdN (rkk 2)) [m.txn, c]

def execPrepare (t : Time) (m : PrepareMsg) (s : State) : Host.Outcome State Fault Refusal := .next ((s.begin t).prepareMsg m)

/-- A COMMIT (R300): held, unless it arrives after T − 200 µs; a member without master refuses (R299). -/
def State.takeCommit (txn : Nat) (s : State) : State :=
  match s.rack.prep with
  | some p =>
    if p.msg.txn = txn && s.modTime + Time.us 200 ≤ p.msg.at_ && !s.bit (rkk 6) 2 then
      s.modRack (fun r => { r with prep := some { p with commit := true } })
    else s
  | none => s

def execCommit (t : Time) (txn : Nat) (s : State) : Host.Outcome State Fault Refusal := let s := s.begin t
  .next ((s.takeCommit txn).hear (s.rdN (rkk 2)))

/-- ABORT (R300). -/
def State.takeAbort (txn : Nat) (s : State) : State :=
  match s.rack.prep with
  | some p => if p.msg.txn = txn then s.modRack (fun r => { r with prep := none }) else s
  | none => s

def execAbort (t : Time) (txn : Nat) (s : State) : Host.Outcome State Fault Refusal := let s := s.begin t
  .next ((s.hear (s.rdN (rkk 2))).takeAbort txn)

/-- Applies the operation at a t0 of batch b (Table 15-4): whether it applied. The set-points before it are kept for the revert. -/
def State.applyOp (m : PrepareMsg) (b : Nat) (s : State) : Bool × State :=
  let setAll (l : List F32) (s : State) : State :=
    s.each [0, 1, 2, 3] (fun i s => (s.wrF (bk 0xE (1 + i) b) (l.getD i 0)).withGen b i (fun g s => s.hostTarget g (s.spVal b i (l.getD i 0))))
  match m.op with
  | 1 | 0x81 =>
    if (s.firstInvalid b).isNone then (true, (s.modBatch b (fun r => { r with swapAt := 0 })).wr (bk 0x14 3 b) 1) else (false, s)
  | 2 =>
    let before := [0, 1, 2, 3].map (fun i => s.rdF (bk 0xE (1 + i) b))
    (true, (setAll m.params s).modRack (fun r => { r with before := Tbl.set b before r.before }))
  | 0x82 => (true, setAll (Tbl.get [] b s.rack.before) s)
  | 3 =>
    let s := if s.bstate b == .starter then s.deadStep b else s
    if s.opOk 3 b && s.nodesTimed b then let s := s.enterBlackStart b 8; (s.bstate b == .blackStart, s) else (false, s)
  | _ => (false, s)

/-- The rack operation at a t0 of batch b (R300, step 4); without COMMIT, or with the master lost (R299), the batch has failed to apply it. -/
def State.rackT0 (b : Nat) (s : State) : State :=
  match s.rack.prep with
  | some p =>
    let commit := p.commit && !s.bit (rkk 6) 2
    if commit && p.msg.mask.testBit b && p.msg.at_ ≤ s.modTime && !p.applied.testBit b && !p.failed.testBit b then
      let (ok, s) := s.applyOp p.msg b
      let p := if ok then { p with applied := p.applied + 2 ^ b } else { p with failed := p.failed + 2 ^ b }
      (s.modRack (fun r => { r with prep := some p })).rackReportNow
    else if !commit && p.msg.mask.testBit b && p.msg.at_ ≤ s.modTime && !p.failed.testBit b then
      (s.modRack (fun r => { r with prep := some { p with failed := p.failed + 2 ^ b } })).rackReportNow
    else s.rackReportNow
  | none => s

/-! ### Rack-wide changes: the master (R300, R301) -/

/-- Sends PREPARE to every named slot; the master's own module answers itself. -/
def State.sendPrepare (x : Txn) (s : State) : State :=
  let own := s.rdN (rkk 1)
  let ps := x.params.map (fun p => (p.toNat : Int))
  let s := s.each (x.named.filter (· ≠ own)) (fun i s =>
    s.rackMsg "PREPARE" i ([(x.id : Int), x.op, Time.toNs x.due, (Tbl.get 0 i x.masks : Nat)] ++ ps))
  let (x, s) :=
    if x.named.contains own then
      let (c, s) := s.prepare ⟨x.id, x.op, x.due, Tbl.get 0 own x.masks, x.params⟩
      (if c = 0 then { x with ready := [own] } else { x with refused := [own] }, s)
    else (x, s)
  ((s.wr (cmk 8 1) (slotBits x.ready)).wr (cmk 8 2) (slotBits x.refused)).setTxn (some x)

/-- EXECUTE (R300). -/
def executeEff : Eff where
  own s :=
    let t := s.rdN (cmk 2)
    firstFail [needs (s.rackRole == 1) 0x0B0000F0, needs s.rack.txn.isNone 0x0B0000F6,
      needs (t == 0 || decide (s.modTime + Time.ms 1 ≤ nsToFine t)) 0x0B0000F1]
  eff s :=
    let t := s.rdN (cmk 2)
    let due := if t = 0 then s.modTime + Time.ms 1 else nsToFine t
    let masks := (List.range 8).map (fun i => (i, s.rdN (cmk 3 (1 + i))))
    let id := (s.rdN (cmk 6) + 1) % 2 ^ 32
    let x : Txn := { id := id, op := s.rdN (cmk 1), due := due, params := [1, 2, 3, 4].map (fun i => s.rdF (cmk 4 i)), masks := masks,
                     named := (masks.filter (fun e => e.2 != 0)).map (·.1) }
    (((s.wr (cmk 6) id).wr (cmk 7) 1).wr (cmk 9 1) 0).wr (cmk 9 2) 0 |>.sendPrepare x

def execExecute (t : Time) (q : Req) (s : State) : Host.Outcome State Fault Refusal :=
  .next ((s.begin t).hostWrite q 0x2501 5 0 1 executeEff)

/-- A write of .01 to .04 (R300): refused while a transaction runs. -/
def commitSettingEff (sub elem : Nat) (v : Int) : Eff where
  own s := needs s.rack.txn.isNone 0x0B0000F6
  eff := State.wr (cmk sub elem) v

/-- READY and REFUSE at the master (R300): those that have arrived by T − 400 µs count. -/
def State.answered (i txn : Nat) (ok : Bool) (s : State) : State :=
  let s := s.hear i
  match s.rack.txn with
  | some x =>
    if x.id ≠ txn || x.decided || !x.named.contains i || x.due < s.modTime + Time.us 400 then s
    else
      let x := if ok then { x with ready := i :: x.ready.filter (· ≠ i) } else { x with refused := i :: x.refused.filter (· ≠ i) }
      ((s.wr (cmk 8 1) (slotBits x.ready)).wr (cmk 8 2) (slotBits x.refused)).setTxn (some x)
  | none => s

def execReady (t : Time) (slot : RackSlot) (txn : Nat) (s : State) : Host.Outcome State Fault Refusal :=
  .next ((s.begin t).answered slot txn true)

def execRefuse (t : Time) (slot : RackSlot) (txn _cause : Nat) (s : State) : Host.Outcome State Fault Refusal :=
  .next ((s.begin t).answered slot txn false)

/-- COMMIT_DECISION (R300): COMMIT where every named slot has answered READY, and before T − 200 µs; else ABORT. -/
def State.commitDecision (s : State) : State :=
  match s.rack.txn with
  | none => s
  | some x =>
    if x.decided || s.modTime + Time.us 400 < x.due then s else
    let own := s.rdN (rkk 1)
    let ok := x.named.all (fun i => x.ready.contains i) && decide (s.modTime + Time.us 200 ≤ x.due)
    let s := s.each (x.named.filter (· ≠ own)) (fun i s => s.rackMsg (if ok then "COMMIT" else "ABORT") i [x.id])
    let s := if x.named.contains own then (if ok then s.takeCommit x.id else s.takeAbort x.id) else s
    if ok then
      let s := s.inc (cmk 0xA (match x.stage with | 0 => 1 | 2 => 3 | _ => 4))
      s.setTxn (some { x with decided := true, stage := if x.stage = 0 then 1 else x.stage })
    else
      let s := (s.inc (cmk 0xA 2)).setTxn (some { x with decided := true })
      if x.stage = 0 then s.endTxn 3 [] else s

def execCommitDecision (t : Time) (s : State) : Host.Outcome State Fault Refusal := .next (s.begin t).commitDecision

/-- REPORT (R300, R301). -/
def State.reportMsg (i txn applied : Nat) (s : State) : State := (s.hear i).takeReport i txn applied

def execReport (t : Time) (slot : RackSlot) (txn applied : Nat) (s : State) : Host.Outcome State Fault Refusal :=
  .next ((s.begin t).reportMsg slot txn applied)

/-- STRAGGLER_DEADLINE (R300, R301): at T + 1 ms a module's Report is due in any case, and at the master the stragglers prepare again for T + 2 ms; at T′ + 1 ms the revert, if the operation has
one, is prepared for T + 4 ms. -/
def State.stragglerDeadline (s : State) : State :=
  let s := s.rackReportNow
  match s.rack.txn with
  | none => s
  | some x =>
    if !x.decided || s.modTime < x.due + Time.ms 1 then s else
    let l := x.stragglers
    if l.isEmpty then s.endTxn (match x.stage with | 2 => 4 | 3 => 5 | _ => 2) []
    else
      let fresh (named : List Nat) (masks : Tbl Nat) (stage op : Nat) : Txn :=
        { x with named := named, masks := masks, stage := stage, op := op, due := x.due + Time.ms 2, decided := false, ready := [],
                 refused := [], reported := [] }
      match x.stage with
      | 1 =>
        let rest (i : Nat) : Nat := (maskList (Tbl.get 0 i x.masks)).foldl (fun m b => if (Tbl.get 0 i x.applied).testBit b then m else m + 2 ^ b) 0
        (s.wr (cmk 9 2) (slotBits l)).sendPrepare (fresh l (l.map (fun i => (i, rest i))) 2 x.op)
      | 2 =>
        if x.op = 1 || x.op = 2 then
          let ap := (List.range 9).filter (fun i => Tbl.get 0 i x.applied ≠ 0)
          if ap.isEmpty then s.endTxn 6 l
          else (s.wr (cmk 9 2) (slotBits l)).sendPrepare { (fresh ap x.applied 3 (x.op + 0x80)) with applied := [] }
        else s.endTxn 6 l
      | _ => s.endTxn 6 l

def execStragglerDeadline (t : Time) (s : State) : Host.Outcome State Fault Refusal := .next (s.begin t).stragglerDeadline

/-! ### Bridges (R315, R316) -/

/-- CLOSE_BRIDGES (R316): while the partner is declared failed. -/
def closeBridgesEff : Eff where
  own s := needs (s.rdB (twk 0x14) && s.rdN (twk 6) == 4) abState
  eff := State.modRack (fun r => { r with bridgeWanted := 3 })

def execCloseBridges (t : Time) (q : Req) (s : State) : Host.Outcome State Fault Refusal :=
  .next ((s.begin t).hostWrite q 0x2510 0x16 0 1 closeBridgesEff)

/-- BRIDGE_OPEN (R316): the partner has shown its connection circuit k Closed for 1 s. -/
def State.bridgeOpen (k : Nat) (s : State) : State :=
  match Tbl.find? k s.rack.bridgeShown with
  | some t =>
    if t + Time.sec 1 ≤ s.now && s.circState (k + 2) ≠ 0 then
      ((s.openCircuit (k + 2)).modRack (fun r => { r with bridgeWanted := withBit r.bridgeWanted k false })).islandStatus
    else s
  | none => s

def execBridgeOpen (t : Time) (k : Fin 2) (s : State) : Host.Outcome State Fault Refusal := .next ((s.begin t).bridgeOpen k)

end Sys2Proof.Machine
end

