-- ==== Sys2Proof/Machine/Domains.lean ====
section
/-! DEFINITION. Power domains (R319 to R322), the configuration store (R384) and what a reset keeps and clears (R333). -/

namespace Sys2Proof.Machine

def State.modPower (f : Power → Power) (s : State) : State := { s with power := f s.power }

/-! ### Domains -/

/-- Power-up order (Table 16-1). -/
def domOrder : List Nat := [0, 5, 6, 7, 2, 3, 1, 4]

/-- The domains before d in the order. -/
def domsBefore (d : Nat) : List Nat := domOrder.takeWhile (· != d)

/-- What stops with a domain (R322): the function is torn down, its configuration and counters stay. -/
def State.domStops (d : Nat) (s : State) : State :=
  match d with
  | 1 => s.each allBatches (fun b s => s.modBatch b (fun r => { r with cyc := none }))
  | 2 =>
    let s := s.each (List.range 8) State.tpoStop
    let s := (s.each (s.pwm.chans.map (·.1)) State.chanOff).diagAbandon
    (s.wr (ckc 5) 0).modClock (fun c => { c with lockAt := none, hopAt := none })
  | 3 =>
    let s := s.each (List.range 80) (fun c s => if s.chainOn c then (s.modChain c ChainRec.kept).loseTrack c else s)
    s.each (List.range 8) (fun p s => s.setPair p { (s.pair p) with running := false, pending := false })
  | 4 => s.each allLinks State.linkOff
  | 6 => s.captureStops
  | 7 => s.pd7Low
  | _ => s

/-- How a domain's function starts again from its configuration once it is ready (R322): the PLL hops, chains and detectors restart
(R42, R43), lit links begin to enumerate where every batch on them is Off, and wait for character sync elsewhere (R213). -/
def State.domStarts (d : Nat) (s : State) : State :=
  match d with
  | 2 =>
    let s := (if s.pwm.bypass then s else s.toExtended).setBit (ckc 3) 0 true
    let r := if s.bit (ckc 3) 2 then s.wanted else 0
    (((s.wr (ckc 2) r).wr (ckc 4) (1 + r : Nat)).modClock (fun c => { c with lossAt := s.now })).startHop r
  | 3 => s.each (List.range 80) (fun c s => if s.chainOn c then s.chainEnable c 1 else (s.syncFollow c).syncLoss c)
  | 4 => s.each (allLinks.filter (fun k => s.lit k)) (fun k s =>
      if (s.linkBatches k).all (fun b => s.bstate b == .off) then s.startScan k else s.wr (lk k 3) 1)
  | 5 => s.portStates
  | _ => s

/-- Entries of 0x2110. -/
def stk (sub : Nat) : Nat := key 0x2110 sub

/-- The charger runs while the store is below V_chg, outside a check, with supply and the store not hot (R323, R324, R399). -/
def State.chargerOn (s : State) : State :=
  s.setBit (stk 0xF) 0 (decide (s.rdN (stk 1) < s.rdN (stk 2)) && !s.power.storeHot && s.power.check.isNone && s.power.supply)

/-- A domain goes off: event 0x0C00. -/
def State.domOff (d : Nat) (s : State) : State :=
  let st := s.dom d
  if st = 0 then s
  else
    let s := (s.wr (dk d) 0).logEvent 0x0C00 d (d8 d ++ d8 0)
    if st = 2 then s.domStops d else s

/-- A domain begins to power up; it is ready at DOMAIN_READY. -/
def State.domPower (d : Nat) (s : State) : State := if s.domOn d then s else s.wr (dk d) 1

/-- Whether every domain before d whose switch is on is ready (R321). -/
def State.domTurn (d : Nat) (s : State) : Bool := (domsBefore d).all (fun e => !(s.rdB (swk e)) || s.domOn e)

/-- Whether one of the circuits is energised: a switch of it is commanded on. -/
def State.energised (s : State) : Bool := (List.range 4).any (fun n => s.circState n == 2 || s.circState n == 3)

/-- The chains that batch b reads (R17): those of its recipe's resource table, and those that its objects name for the grid (R124), the
envelopes (R151), the Starter (R157, R159), Resync (R170) and ripple control (R136). -/
def State.batchChains (b : Nat) (s : State) : List Nat :=
  let named := ([bk 5 6 b] ++ [0xA, 0xB, 0xC].map (fun i => bk 0xA i b) ++ [1, 2, 3, 0xA].map (fun i => bk 0xB i b)
    ++ [bk 0xC 2 b, bk 0xC 3 b]).map (fun k => s.rdN k)
  let d := s.rdN (bk 0x15 0x10 b)
  (((s.recipe b).map (·.chains)).getD [] ++ named ++ (if d < 64 then [s.rdN (key (0x5100 + d) 2)] else [])).filter (· < 80)

/-- The functions that need domain d (Table 01-5): whether an enabled one stands. -/
def State.needed (d : Nat) (s : State) : Bool :=
  let on (f : Nat → Bool) : Bool := allBatches.any (fun b => s.benabled b && f b)
  match d with
  | 1 => on (fun _ => true)
  | 2 => on (fun _ => true) || (List.range 8).any (fun k => s.bit (tpk k 9) 0) || allDrivers.any (fun x => (s.driverChan x).isSome)
  | 3 => on (fun b => !(s.batchChains b).isEmpty) || s.energised
  | 4 => on (fun b => s.outClass b == 1) || (s.twinRole != 0 && on (fun _ => true))
  | 7 => s.energised
  | _ => true

/-! ### The configuration store (R384) -/

/-- The entries of Table 18-7. -/
def notStored (index sub : Nat) : Bool :=
  let off := if 0x4000 ≤ index && index < 0x4400 then index % 0x20 else 0x20
  (0x6000 ≤ index && index < 0x6400 && (sub == 6 || sub == 7)) || (0x6400 ≤ index && index < 0x6440 && 0x30 ≤ sub && sub ≤ 0x3B)
  || (off == 0xE && ((1 ≤ sub && sub ≤ 4) || sub == 9)) || (0x6600 ≤ index && index < 0x6640 && sub == 2)
  || (off == 0x15 && sub == 2) || (0x3000 ≤ index && index < 0x3100 && (sub == 0x14 || sub == 0x15))
  || (0x3400 ≤ index && index < 0x3700 && (sub == 0x1C || sub == 0x1D)) || index == 0x7102
  || (index == 0x7000 && sub == 2) || index == 0x2501

/-- Whether an entry is stored: RW, RWC and RWL entries, without those of Table 18-7. -/
def storable (index sub : Nat) : Bool :=
  match descAt index sub with
  | some d => (d.acc == .rw || d.acc == .rwc || d.acc == .rwl) && !(notStored index sub)
  | none => false

/-- Whether a byte string is stored: the DOMAIN entries 0x8000 to 0x848F, the active table of a chain, written strings. -/
def storableBlob (index sub : Nat) : Bool :=
  if 0x8200 ≤ index && index < 0x8250 then sub == 2
  else if 0x8000 ≤ index && index ≤ 0x848F then sub == 1
  else storable index sub

/-- Where the settings of event code c stand in the store: rate and burst (0x7101 .02 and .03 show one code at a time). -/
def rateKey (c : Nat) : Nat := 2 ^ 40 + 2 * c

/-- What a configuration store takes at its start; of 0x7101 the entries .02 and .03 show one code's settings and are stored by code. -/
def State.storeImage (s : State) : Tbl Int × Tbl (List Byte) :=
  let od := s.od.filter (fun e => storable (e.1 / 65536) (e.1 / 256 % 256) && (e.1 / 65536 != 0x7101 || e.1 / 256 % 256 == 1))
  let rates := s.log.codes.flatMap (fun c => [(rateKey c.1, (c.2.rate : Int)), (rateKey c.1 + 1, (c.2.burst : Int))])
  (od ++ rates, s.blobs.filter (fun e => storableBlob (e.1 / 65536) (e.1 / 256 % 256)))

/-- The rates of the store come back (R295, R384). -/
def State.storedRates (od : Tbl Int) (s : State) : State :=
  s.each (od.filter (fun e => 2 ^ 40 ≤ e.1 && e.1 % 2 == 0)) (fun e s =>
    let c := (e.1 - 2 ^ 40) / 2
    let b := (Tbl.get 32 (e.1 + 1) od).toNat
    s.setCode c { (s.codeRec c) with rate := e.2.toNat, burst := b, level := b * tokenUnit - (32 * tokenUnit - (s.codeRec c).level) })

/-- The numbers of a stored configuration take their places. -/
def State.mergeOd (l : Tbl Int) (s : State) : State := s.each (l.filter (fun e => e.1 < 2 ^ 40)) (fun e s => s.wr e.1 e.2)

/-- Owner entries of channels, drivers and nodes, member counts and output classes, from membership and routes (R380, R187). -/
def State.syncOwners (s : State) : State :=
  let s := s.each allBatches (fun b s =>
    let s := s.each (s.members b) (fun c s => s.wr (chk c 1) b)
    (s.wr (bk 3 9 b) (s.members b).length).wr (bk 3 0xA b) (s.classOf b))
  s.each (List.range 256) (fun c s =>
    let t := s.rdN (chk c 3)
    if s.rdN (chk c 2) = 2 && t < 6 then s.wr (key (0x3100 + t) 1) c
    else if s.rdN (chk c 2) = 3 && s.rdN (chk c 1) < 32 then s.wr (ndk t 4) (s.rdN (chk c 1)) else s)

/-- A stored recipe is loaded and verified (R104, R332); its bank words and views then take their stored values. -/
def State.reloadRecipe (od : Tbl Int) (b : Nat) (img : List Byte) (s : State) : State :=
  let (e, s) := s.loadRecipe b img
  if e ≠ 0 then ({ s with blobs := Tbl.erase (key (0x8000 + b) 1) s.blobs }).logEvent 0x0105 b (d32 e)
  else
    let slots := s.slotsOf b
    let mine (k : Nat) : Bool :=
      let index := k / 65536
      (0x6000 ≤ index && index < 0x6400 && slots.contains (index - 0x6000))
        || (0x6400 ≤ index && index < 0x6440 && slots.contains (index - 0x6400 + 1024))
        || (0x4000 ≤ index && index < 0x4400 && (index - 0x4000) / 32 == b)
    s.each (od.filter (fun e => e.1 < 2 ^ 40 && mine e.1)) (fun e s => s.wr e.1 e.2)

/-- What a chain reports of its configuration, enabled or not: tracking, loss, latency, skew, normalisation (R35, R37, R45, R46). -/
def State.syncReports (c : Nat) (s : State) : State := ((s.syncFollow c).syncChain c).syncLoss c

/-- The stored configuration takes its places (R332): settings, byte strings, and the chains that it enables. -/
def State.storedSettings (od : Tbl Int) (blobs : Tbl (List Byte)) (s : State) : State :=
  let s := (s.mergeOd od).storedRates od
  let s := s.each blobs (fun e s =>
    let s := s.wrBlob e.1 e.2
    if 0x8200 ≤ e.1 / 65536 && e.1 / 65536 < 0x8250 then s.wrBlob (key (e.1 / 65536) 1) e.2 else s)
  s.each (List.range 80) (fun c s =>
    let s := if (s.blob (key (0x8200 + c) 2)).isEmpty then s
      else (s.modChain c (fun r => { r with inactiveValid := true })).setBit (ck c 0x18) 7 true
    if s.chainOn c then s.chainEnable c 1 else s)

/-- The stored configuration, or the defaults where none is stored, is in place, once per reset (R332, R383): settings and byte strings, what
follows from them, then the recipes; the queue values come into force with it (R59). -/
def State.applyStored (s : State) : State :=
  let s := s.modPower (fun p => { p with applied := true })
  let (od, blobs) := s.power.stored.getD ([], [])
  let recipe (k : Nat) : Bool := 0x8000 ≤ k / 65536 && k / 65536 < 0x8020
  let s := s.storedSettings od (blobs.filter (fun e => !(recipe e.1)))
  let s := (s.syncOwners).each (List.range 80) State.syncReports
  let s := s.each (blobs.filter (fun e => recipe e.1 && !e.2.isEmpty)) (fun e s => s.reloadRecipe od (e.1 / 65536 - 0x8000) e.2)
  let s := s.each (List.range 128) (fun e s => if (s.blob (key (0x8400 + e) 1)).isEmpty then s else s.setBit (bk 0xA 0x12 (e / 4)) (8 + e % 4) true)
  let s := s.each (List.range 16) (fun m s => if (s.blob (maskKey m)).isEmpty then s else s.setBit (mkk m 7) 3 true)
  let s := s.each allLinks (fun k s => (if s.rdB (lk k 1) then s else s.linkOff k).syncLink k)
  let s := (s.each allBatches State.syncTimeline).syncCopyLoad
  (((s.queuesInForce).pubLists).syncTwin).reselect.portStates

/-- The lock bits that were set when the configuration was stored are set again (R332, R350). -/
def State.setLocks (s : State) : State :=
  let l := s.power.storedLocks
  let s := s.each [0, 1, 2, 3] (fun i s =>
    if l.testBit i && !(s.bit (key 0x2600 1) i) then
      (((s.setBit (key 0x2600 1) i true).when (i < 2) (State.setBit (key 0x7800 4) i true))).logEvent 0x0B03 0 (d8 i) else s)
  s.islandRunIfLocked.islandSettle

/-! ### Reset (R6, R333, R334) -/

/-- Lane roles at reset from the repair map (R51). -/
def lanesAtReset (retired : List Nat) : Tbl LaneRec :=
  let good := allLanes.filter (fun l => !(retired.contains l))
  let service := good.take 20
  allLanes.map (fun l =>
    (l, { state := if !(good.contains l) then .retired else if service.getLast? == some l then .free
                   else if service.contains l then .home else .reserve }))

/-- A core at a start (R341): a retired core stays retired, a spare that has replaced a retired core or was to replace one serves in its place, and
every test is over. -/
def State.coreAtReset (old : State) (k : Nat) : CoreRec :=
  let r := old.core k
  if old.power.repair.any (fun r => r.kind == 3 && r.inst == k) then { state := .retired }
  else if k < 16 then {}
  else match r.due.or r.serves with
    | some i => if old.power.repair.any (fun r => r.kind == 3 && r.inst == i) && (r.due.isSome || r.state == .serving) then { state := .serving, serves := some i } else { state := .idle }
    | none => { state := .idle }

/-- The spare that keeps serving a channel whose own slice is retired; one that did so with a slice of another channel gets the lowest idle
spare (R341). -/
def State.replacing (c : Nat) (old : State) : Option Nat :=
  let spares := (List.range 16).map (· + 256)
  let kept (d : Nat) : Option Nat := spares.find? (fun j => (old.slice j).state == .serving && (old.slice j).channel == some d)
  match kept c with
  | some j => some j
  | none =>
    let lost := (List.range 256).filter (fun d => (old.slice d).state == .retired)
    let free := spares.filter (fun j => (old.slice j).state != .retired && lost.all (fun d => kept d != some j))
    free[((lost.takeWhile (· != c)).filter (fun d => (kept d).isNone)).length]?

/-- Whether the repair map lists a resource (R341). -/
def State.inMap (kind inst : Nat) (s : State) : Bool := s.power.repair.any (fun r => r.kind == kind && r.inst == inst)

/-- A slice at a start (R178, R341): a retired slice stays retired, slice c serves channel c, a spare is idle, and every test is over. -/
def State.sliceAtReset (old : State) (k : Nat) : SliceRec :=
  if old.inMap 2 k then { state := .retired } else sliceDflt k

/-- Entries that outlive a reset: those of MRAM and the pins SAFE_STOP_N. -/
def keptKey (k : Nat) : Bool := mramKey k || (k / 65536 == 0x7830 && k / 256 % 256 == 3)

/-- The machine with what MRAM holds (R291): what was written during a freeze that still stands is not in it. -/
def State.fromMram (s : State) : State :=
  match s.log.mram with
  | none => s
  | some m =>
    { s with od := m.od.foldl (fun t e => Tbl.set e.1 e.2 t) (s.od.filter (fun e => !mramKey e.1))
             blobs := m.blobs.foldl (fun t e => Tbl.set e.1 e.2 t) []
             power := { s.power with repair := m.repair, stored := m.stored, storedLocks := m.storedLocks }
             log := { s.log with codes := m.codes } }

/-- The reserves and the repair bits of a start (R344), from the roles and the map that are now in force. -/
def State.reservesAtReset (s : State) : State :=
  let left (k : Nat) : Nat := match k with
    | 1 => s.reserveLanes
    | 2 => (allSlices.filter (fun j => (s.slice j).state == .idle)).length
    | 3 => s.sparesLeft
    | _ => s.memoryLeft
  if s.power.repair.isEmpty && [1, 2, 3].all (fun k => s.rdN (key 0x2400 (1 + k)) == sparesOf k) then s else
  s.each [1, 2, 3, 4] (fun k s => s.reserveLeft k (left k))

/-- Fabric, front end and PWM of a start: roles and replacements from the repair map. -/
def State.rolesAtReset (old : State) (s : State) : State :=
  let lanes := (old.power.repair.filter (fun r => r.kind == 1)).map (·.inst)
  let s := if lanes.isEmpty then s else ({ s with fabric := { s.fabric with lanes := lanesAtReset lanes } }).syncLanes
  let s := if lanes.isEmpty then s else s.wr (key 0x6530 5) ((800 * (s.lanesIn.length - 1) : Nat))
  let s := s.each old.pwm.slices (fun e s => s.setSlice e.1 (old.sliceAtReset e.1))
  let s := s.each ((List.range 256).filter (old.inMap 2)) (fun c s => match old.replacing c with
    | some j => s.serveWith c j
    | none => s)
  let s := if old.pwm.slices.isEmpty then s else s.wr (key 0x3200 0xA)
    ((allSlices.filter (fun j => (s.slice j).state == .idle)).length : Nat)
  (s.each old.meas.cores (fun e s => (s.setCore e.1 (old.coreAtReset e.1)).syncCore e.1)).reservesAtReset

/-- The store is as hot after a reset as before (R323, R399). -/
def State.storeAtReset (old s : State) : State :=
  if old.rdN (stk 2) = 5000 then
    let s := (s.wr (stk 3) (old.rd (stk 3))).wr (stk 2) 5000
    ({ s with power := { s.power with storeHot := old.power.storeHot } }).setBit (key 0x2103 9) 2 old.power.storeHot
  else s

/-- What is left when everything volatile is cleared (Table 16-5): the entries kept in MRAM, the factory's order code, the mark of a hold-up
service while there is no supply (R6), and what hangs outside the module: the
commands that wait, the nodes on the links, the levels of input pins, the seating of the connector. -/
def State.cleared (s0 : State) : State :=
  let s := s0.fromMram
  let r : State := { State.reset with
    now := s.now, fresh := s.fresh, out := s.out, pending := s.pending
    od := s.od.filter (fun e => keptKey e.1)
    blobs := s.blobs.filter (fun e => e.1 / 65536 == 0x2601 || e.1 / 65536 == 0x1FF0)
    links := { nodes := s.links.nodes }
    pwm := { low := s.pwm.low }
    acq := { levels := s.acq.levels }
    clock := { offset := -(s.now : Int) }
    island := s.freshIsland
    log := { records := s.log.records, nextSeq := s.log.nextSeq, codes := (s.log.codes.filter (fun c => c.2.lost != 0 || c.2.written != 0)).map (fun c =>
      (c.1, { lost := c.2.lost, written := c.2.written, upTo := s.now })) }
    power := { repair := s.power.repair, stored := s.power.stored, storedLocks := s.power.storedLocks, inserted := s.power.inserted
               supply := s.power.supply, mark := s.power.mark && !s.power.supply, slotPins := s.power.slotPins, mselPins := s.power.mselPins, scrubs := s.power.scrubs, failing := s.power.failing, startedAt := s.now }
    srv := { slots := s.srv.slots } }
  let r := State.storeAtReset s (r.wr (key 0x2000 7) (s.rd (key 0x2000 7)))
  (State.rolesAtReset s r).syncLog

/-- The module reads SLOT and MSEL (R296): the module in the master slot is the rack master, every other one a member until it is standalone. -/
def State.readSlot (s : State) : State :=
  let s := (s.wr (rkk 1) s.power.slotPins).wr (rkk 2) s.power.mselPins
  s.wr (rkk 3) (if s.power.slotPins = s.power.mselPins then 1 else 2 : Nat)

/-- The state right after a reset of a kind (R333): Init, one more reset counted, PD0 on, the image that the boot ROM chooses (R371),
event 0x0002. A module that is seated powers PD5 to PD7 at once (R341). -/
def State.restart (kind : Nat) (s : State) : State :=
  let before := s.mod.code
  let r := ((s.cleared.wr (key 0x2000 6) kind).inc (key 0x2000 7)).wr (dk 0) 2
  let r := r.bootImage.logEvent 0x0002 0 (d8 kind ++ d8 before)
  if s.power.inserted then
    (r.readSlot).each [5, 6, 7] State.domPower
  else r

end Sys2Proof.Machine
end

