-- ==== Sys2Proof/Machine/Instants.lean ====
section
/-! DEFINITION. The update point of a batch timebase (R13) and the release of a fast-tap value (R37), with everything that hangs on
them in the rack, the twin pair and the trigger units. -/

namespace Sys2Proof.Machine

/-- The work of an update point in order (R13): an unfinished cycle is a miss, a standby installs the copy of the preceding cycle (R306), a
rack-wide operation applies (R300), then banks, state work, generators and the items of the cycle. -/
def State.samplePoint (b : Nat) (s : State) : State :=
  let s := (((s.leftover b).modBatch b (fun r => { r with lastT0 := some s.now })).standbyT0 b).rackT0 b
  (((s.sampleCore b).batchSource b).inputsDue).dispatch

def execSampleInstant (t : Time) (b : Batch) (s : State) : Host.Outcome State Fault Refusal :=
  .next ((s.begin t).when ((s.begin t).domOn 1 && (s.begin t).benabled b) (State.samplePoint b))

def execFastTapOutput (t : Time) (c : ChainNo) (s : State) : Host.Outcome State Fault Refusal :=
  .next ((s.begin t).fastTap c).1

end Sys2Proof.Machine
end

