-- ==== Sys2Proof/Machine/Power.lean ====
section
/-! DEFINITION. Start, store and proof check (R323 to R332), module commands (R329), hold-up service (R335, R336), insertion and
removal (R337 to R340). -/

namespace Sys2Proof.Machine

/-- Entries of 0x2000 and 0x2103. -/
def mdk (sub : Nat) : Nat := key 0x2000 sub
def vnk (sub : Nat) : Nat := key 0x2103 sub

/-! ### Start (R321, R328, R331, R332) -/

/-- A start failure (R331): FaultWait with its code, the attempt and the back-off. -/
def State.startFail (code : Nat) (s : State) : State :=
  if s.mod != .init && s.mod != .proof then s
  else
    let k := min 255 (s.rdN (mdk 8) + 1)
    let w := min (2 ^ (k - 1)) 64
    let s := s.modPower (fun p => { p with failStage := if code ≤ 3 then .init else .proof, retryAt := s.now + Time.sec w, check := none, proofPassed := false })
    let s := s.trialFailure code
    let s := s.setMod .faultWait
    ((((s.wr (mdk 8) k).wr (mdk 9) (s.tai + w * 1000000000)).wr (mdk 0xA) code).logEvent 0x0005 0 (d8 code ++ d8 k ++ d16 w))

/-- Whether the proof check passed and every domain to be powered is on (R332). -/
def State.startComplete (s : State) : Bool :=
  s.mod == .proof && s.power.proofPassed && domOrder.all (fun d => !(s.rdB (swk d)) || s.domOn d)

/-- Check 1 of R330 tests the pending values (R59). -/
def State.admissionOk (s : State) : Bool := (s.admission factor08 s.lanesIn.length s.carriers s.enabledFigs).result == 0

/-- The first arm check of R330 that fails; 0 where all pass. -/
def State.armCheck (s : State) : Nat :=
  let en := allBatches.filter (fun b => s.benabled b)
  if !s.admissionOk then 1
  else if en.any (fun b => (s.recipe b).isNone) then 2
  else if en.any (fun b => s.outClass b == 1 && (s.batchNodes b).any (fun n => s.rdN (ndk n 5) != 2)) then 3
  else if s.bit (stk 0xF) 1 then 4
  else if s.twinRole ≠ 0 && s.pairState = 5 then 5 else 0

/-- Armed becomes Running, or Standby for a twin without a Grant (Table 16-2). -/
def State.runModule (s : State) : State := s.setMod (if s.twinRole = 0 || s.authority = 1 then .running else .standby)

/-- What follows the domains of a start (R332): the stored configuration after a reset, its lock bits, autostart; a service start
stops in Configuration with no lock set. -/
def State.finishStart (s : State) : State :=
  if !s.startComplete then s
  else
    let fresh := !s.power.applied
    let s := if fresh then (s.modPower (fun p => { p with doneAt := some s.now })).applyStored else s
    let s := if fresh && !s.power.service then s.setLocks else s
    let auto := if s.power.service then 0 else s.rdN (mdk 5)
    if auto = 0 then (s.setMod .configuration).islandSettle
    else
      let c := s.armCheck
      let s := s.armAdmission.wr (mdk 0xB) c
      if c ≠ 0 then (s.setMod .configuration).islandSettle
      else
        let s := s.setMod .armed
        (if auto = 2 then s.runModule else s).islandSettle

/-- 0x2101 .d + 1 (R17, R321): a domain that a start still powers or waits for follows its switch at once. -/
def domSwitchEff (d : Nat) (v : Int) : Eff where
  own s := if v = 0 then needs (!(s.needed d)) 0x0B000010 else needs (s.dom d != 3) 0x0B000014
  eff s :=
    let s := s.wr (swk d) v
    if v = 0 then (if s.dom d = 3 then s else (s.domOff d).islandSettle).finishStart
    else if [3, 4, 5, 6].contains s.mod.code || (s.mod == .proof && s.power.proofPassed) || (s.mod == .safeHold && s.power.holdUp.isNone) || d = 7 then s.domPower d else s

def execDomainSwitchOff (t : Time) (q : Req) (d : DomainNo) (s : State) : Host.Outcome State Fault Refusal :=
  .next ((s.begin t).hostWrite q 0x2101 (d + 1) 0 0 (domSwitchEff d 0))
def execDomainSwitchOn (t : Time) (q : Req) (d : DomainNo) (s : State) : Host.Outcome State Fault Refusal :=
  .next ((s.begin t).hostWrite q 0x2101 (d + 1) 0 1 (domSwitchEff d 1))

/-- The switches of the stored configuration hold before it is applied (R332). -/
def State.storedSwitches (s : State) : State :=
  match s.power.stored with
  | some (od, _) => if s.power.applied then s
                    else s.each (List.range 8) (fun d s => match Tbl.find? (swk d) od with
                      | some v => s.wr (swk d) v
                      | none => s)
  | none => s

/-- The proof check in Proof has passed: the remaining domains are powered (R332). -/
def State.powerRest (s : State) : State :=
  let s := s.storedSwitches
  let s := s.each (domOrder.filter (fun d => s.rdB (swk d))) State.domPower
  s.finishStart

/-- The module enters Proof (R323): PD1 to PD4 off, the store charging. -/
def State.enterProof (s : State) : State :=
  let s := s.setMod .proof
  let s := s.each [1, 2, 3, 4] State.domOff
  let s := s.modPower (fun p => { p with proofAt := s.now, charged := false, check := none, proofPassed := false, repeatAt := none, wanted := none })
  (s.setBit (stk 0xF) 0 (!s.power.storeHot)).islandSettle

/-- Whether the memory self-test of a start fails (Table 16-4, code 0x02): more rows or columns of a memory are to be replaced than it has
spares left (R342; DEDUCED, notes/assumptions/99). -/
def State.memoryFails (s : State) : Bool :=
  (List.range 6).any (fun mc => !decide ((s.power.failing.filter (fun p => p / 16 / 4096 == mc)).length ≤ sparesIn mc - s.sparesUsed mc))

/-- Init becomes Proof (Table 16-2), or fails with its memory self-test (R331). -/
def State.leaveInit (s : State) : State :=
  if s.mod == .init && s.power.inserted && s.domOn 5 && s.domOn 6 && s.domOn 7 then
    if s.memoryFails then s.startFail 2 else s.enterProof
  else s

/-- The stage that failed is entered again (R331). -/
def State.reenter (s : State) : State :=
  let s := s.trialRetry
  if s.power.failStage == .init then
    let s := s.setMod .init
    (s.each [5, 6, 7] State.domPower).leaveInit
  else s.enterProof

/-- BACK_OFF_EXPIRED (R331). -/
def execBackOffExpired (t : Time) (s : State) : Host.Outcome State Fault Refusal :=
  let s := s.begin t
  .next (s.when (s.mod == .faultWait && s.power.retryAt ≤ s.now) State.reenter)

/-- A start that ended within its first 5 s becomes a service start: it stops in Configuration, with no lock set and autostart ignored (R332; the
button's level shows with the command only: DEDUCED, notes/assumptions/127). -/
def State.undoStart (s : State) : State :=
  let s := (s.wr (key 0x2600 1) 0).wr (key 0x7800 4) 0
  let s := if s.islandState = 2 then s.setIsland 1 else s
  (s.setMod .configuration).islandSettle

/-- SERVICE_START (R332): the latch button held for the whole of the first 5 s after insertion or a reset. -/
def State.serviceStart (s : State) : State :=
  let early := match s.power.doneAt with
    | some t => decide (t ≤ s.power.startedAt + Time.sec 5) && holdFollows s.mod
    | none => false
  if s.power.inserted && !s.power.service && (s.mod == .init || s.mod == .proof || s.mod == .faultWait || early)
      && s.power.startedAt + Time.sec 5 ≤ s.now then
    let s := ((s.modPower (fun p => { p with service := true })).wr (mdk 0xC) 1).logEvent 0x0009 0 []
    s.when early State.undoStart
  else s

def execServiceStart (t : Time) (s : State) : Host.Outcome State Fault Refusal := .next (s.begin t).serviceStart

/-! ### Domains that answer (R321, R322) -/

/-- DOMAIN_READY. -/
def State.domReady (d : Nat) (s : State) : State :=
  if s.dom d ≠ 1 || !s.domTurn d then s
  else
    let s := (s.wr (dk d) 2).logEvent 0x0C00 d (d8 d ++ d8 2)
    (s.domStarts d).leaveInit.finishStart

def execDomainReady (t : Time) (d : DomainNo) (s : State) : Host.Outcome State Fault Refusal := .next ((s.begin t).domReady d)

/-- DOMAIN_FAULT: not ready in time or a supervisor fault; a start failure, or SafeHold (Table 16-2). -/
def State.domFault (d : Nat) (s : State) : State :=
  let st := s.dom d
  if st = 0 || st = 3 then s
  else
    let s := (s.wr (dk d) 3).logEvent 0x0C01 d (d8 d)
    let s := if st = 2 then s.domStops d else s
    if s.mod == .init || s.mod == .proof then s.startFail 1
    else if (s.mod == .armed || s.mod == .running || s.mod == .standby) && [1, 2, 3, 4, 6].contains d then s.setMod .safeHold
    else s

def execDomainFault (t : Time) (d : DomainNo) (s : State) : Host.Outcome State Fault Refusal := .next ((s.begin t).domFault d)

/-! ### The store (R323) -/

/-- Starts a proof check; the charger is off while it runs. -/
def State.startCheck (kind : Nat) (at_ : Time) (s : State) : State :=
  (s.modPower (fun p => { p with check := some ⟨kind, at_⟩, wanted := none })).setBit (stk 0xF) 0 false

/-- When a periodic or commanded check may start: 10 s after a recharge (R327). -/
def State.checkFrom (s : State) : Time :=
  match s.power.chargedAt with
  | some c => max s.now (c + Time.sec 10)
  | none => s.now

/-- A periodic (1), commanded (2) or repeated (3) check starts with the store at V_chg, or once it has reached it (R324, R326, R327). -/
def State.wantCheck (kind : Nat) (s : State) : State :=
  if s.rdN (stk 1) < s.rdN (stk 2) then s.modPower (fun p => { p with wanted := some kind })
  else s.startCheck kind (if kind = 3 then s.now else s.checkFrom)

/-- STORE_CHARGED: the store has reached V_chg; in Proof the check starts at once (R327), and a check that waits for it elsewhere. -/
def State.storeCharged (s : State) : State :=
  let low := s.rdN (stk 1) + 100 < s.rdN (stk 2)
  let s := (s.wr (stk 1) (s.rd (stk 2))).setBit (stk 0xF) 0 false
  let s := s.modPower (fun p => { p with charged := true, chargedAt := if low then some s.now else p.chargedAt })
  if s.mod == .proof && !s.power.proofPassed && s.power.check.isNone then s.startCheck 0 s.now
  else match s.power.wanted with
    | some k => if holdFollows s.mod && s.power.check.isNone then s.wantCheck k else s
    | none => s

def execStoreCharged (t : Time) (s : State) : Host.Outcome State Fault Refusal := .next (s.begin t).storeCharged

/-- CHARGE_TIMEOUT: not within 30 s of entering Proof. -/
def State.chargeTimeout (s : State) : State :=
  if s.mod == .proof && !s.power.charged && s.power.proofAt + Time.sec 30 ≤ s.now then s.startFail 6 else s

def execChargeTimeout (t : Time) (s : State) : Host.Outcome State Fault Refusal := .next (s.begin t).chargeTimeout

/-- STORE_TEMPERATURE_THRESHOLD: V_chg at 60 °C and back below 55 °C; a store below the new V_chg is charged to it. -/
def State.storeTemperature (temp : Int) (s : State) : State :=
  let s := s.wr (stk 3) temp
  if 600 ≤ temp then (s.wr (stk 2) 5000).chargerOn
  else if temp < 550 && s.rdN (stk 2) != 5400 then (s.wr (stk 2) 5400).chargerOn else s

def execStoreTemperatureThreshold (t : Time) (temp : Int) (s : State) : Host.Outcome State Fault Refusal :=
  .next ((s.begin t).storeTemperature temp)

/-- STORE_HOT (R399): the charger stops at 88 °C and resumes below 83 °C; thermal status bit 2. V_chg follows the reading (R323). -/
def State.storeHot (temp : Int) (s : State) : State :=
  let s := s.storeTemperature temp
  if 880 ≤ temp && !s.power.storeHot then
    (((s.modPower (fun p => { p with storeHot := true })).setBit (stk 0xF) 0 false).setBit (vnk 9) 2 true).inc (vnk 0xA)
  else if temp < 830 && s.power.storeHot then
    ((s.modPower (fun p => { p with storeHot := false })).setBit (vnk 9) 2 false).chargerOn
  else s

def execStoreHot (t : Time) (temp : Int) (s : State) : Host.Outcome State Fault Refusal := .next ((s.begin t).storeHot temp)

/-! ### The proof check (R324 to R327) -/

/-- C in F and ESR in Ω from the samples in 0.1 mV (R324); none where V_a does not exceed V_b. -/
def proofFigures (v0 va vb : Nat) : Option (Rat × Rat) :=
  let dv : Rat := (va : Rat) - (vb : Rat)
  if dv ≤ 0 then none
  else some (980 / dv, ((v0 : Rat) - (va : Rat) - dv / 49) / 20000)

/-- E_u in mJ of a C in mF and an ESR in µΩ at V_chg in mV (R325). -/
def usableEnergy (c esr vchg : Nat) : Nat :=
  let vend : Rat := 12 / 5 + 10 * ((esr : Rat) / 1000000)
  let v : Rat := (vchg : Rat) / 1000
  let e : Rat := (c : Rat) / 2 * (v * v - vend * vend)
  if e < 0 then 0 else (roundRat e).toNat

/-- A handover that a store below 3.0 J asked for has not taken effect: no Revoke came within the arbiter's 1 ms (R313); SafeHold follows (R326). -/
def State.handoverFailed (s : State) : State :=
  if s.power.holdAfter && s.authority = 1 && !s.handingOver then (s.modPower (fun p => { p with holdAfter := false })).setMod .safeHold else s

/-- The active twin hands over before SafeHold, where R313 allows (R326). -/
def State.lowStore (s : State) : State :=
  if s.twinRole ≠ 0 && s.authority = 1 && s.partnerEligible then
    (s.modPower (fun p => { p with holdAfter := true })).askHandover 1
  else s.setMod .safeHold

/-- While the store is low the active twin asks an eligible standby for a planned handover (R326). -/
def State.storeHandover (s : State) : State :=
  if s.bit (stk 0xF) 1 && s.twinRole ≠ 0 && s.authority = 1 && s.partnerEligible then s.askHandover 1 else s

/-- What a check's usable energy of a running module brings about (R326): `result` 1, 2 or 3, `last` that an out-of-range result
is the repeat's. -/
def State.judgeStore (result eu kind : Nat) (s : State) : State :=
  let was := s.bit (stk 0xF) 1
  let s := s.setBit (stk 0xF) 1 (result != 1)
  let s := s.modPower (fun p => { p with repeatAt := if result = 3 && kind ≠ 3 then some (s.now + Time.sec 10) else none })
  if eu < 3000 && !(result = 3 && kind ≠ 3) then s.lowStore
  else if result ≠ 1 && !was then s.storeHandover else s

/-- PROOF_CHECK_END: 50 ms of discharge are over; the charger tops the store up again. -/
def State.checkEnd (v0 va vb : Nat) (s : State) : State :=
  match s.power.check with
  | none => s
  | some r =>
    if s.now < r.start + Time.ms 50 then s
    else
      let s := s.modPower (fun p => { p with check := none, lastCheck := s.now })
      let (n, s) := s.draw
      let fig := proofFigures v0 va vb
      let open_ := (Config.storeFigure n).toNat
      let c := match fig with
        | some f => (roundRat (1000 * f.1)).toNat
        | none => open_
      let esr := match fig with
        | some f => if f.2 < 0 then open_ else (roundRat (1000000 * f.2)).toNat
        | none => open_
      let inRange := match fig with
        | some f => decide (1 / 2 ≤ f.1 && f.1 ≤ 4 && 1 / 1000 ≤ f.2 && f.2 ≤ 1 / 2)
        | none => false
      let eu : Nat := if inRange then usableEnergy c esr (s.rdN (stk 2)) else 0
      let result : Nat := if !inRange then 3 else if fval (s.rdF (stk 0xA)) * 1000 ≤ (eu : Rat) then 1 else 2
      let s := (((s.wr (stk 4) (c % 2 ^ 32 : Nat)).wr (stk 5) (esr % 2 ^ 32 : Nat)).wr (stk 6) eu).wr (stk 7) result
      let s := (s.wr (stk 8) s.tai).inc (stk 0xD)
      let s := s.setBit (stk 0xF) 2 ((inRange || r.kind = 3) && decide ((eu : Rat) < fval (s.rdF (stk 0xB)) * 1000))
      let s := (s.wr (stk 1) (vb / 10 : Nat)).setBit (stk 0xF) 0 (!s.power.storeHot)
      let s := s.logEvent 0x0006 0 (d8 result ++ d32 c ++ d32 esr ++ d32 eu)
      if r.kind = 0 then
        if result = 1 then ((s.setBit (stk 0xF) 1 false).modPower (fun p => { p with proofPassed := true, proofHeld := true })).powerRest
        else s.startFail (if result = 3 then 4 else 5)
      else s.judgeStore result eu r.kind

def execProofCheckEnd (t : Time) (v0 va vb : Nat) (s : State) : Host.Outcome State Fault Refusal := .next ((s.begin t).checkEnd v0 va vb)

/-- PROOF_INTERVAL: the periodic check, which waits for a long operation, a freeze or a supply loss to end (R327; such a check
starts at the first PROOF_INTERVAL after it; DESIGN CHOICE, notes/assumptions/55). -/
def State.proofInterval (s : State) : State :=
  let due := s.power.lastCheck + 3600 * Time.sec (s.rdN (stk 0xC)) ≤ s.now
  if due && holdFollows s.mod && s.power.check.isNone && s.longOp = 0 && s.log.frozenSince.isNone && s.power.supply then
    s.wantCheck 1
  else s

def execProofInterval (t : Time) (s : State) : Host.Outcome State Fault Refusal := .next (s.begin t).proofInterval

/-- PROOF_REPEAT (R326): 10 s after a result out of range, without the wait of R327. -/
def State.proofRepeat (s : State) : State :=
  match s.power.repeatAt with
  | some r =>
    if r ≤ s.now && s.power.check.isNone && holdFollows s.mod then (s.modPower (fun p => { p with repeatAt := none })).wantCheck 3 else s
  | none => s

def execProofRepeat (t : Time) (s : State) : Host.Outcome State Fault Refusal := .next (s.begin t).proofRepeat

/-! ### Module commands (R329) -/

/-- A module command: what it does gives its result, which is the answer and 0x2000.04. -/
def moduleEff (f : State → Nat × State) : Eff where
  eff s :=
    let (e, s) := f s
    (s.wr (mdk 4) e).answer e
  replies := false

/-- A command permitted in the states of a condition (R329). -/
def State.ifState (c : State → Bool) (f : State → State) (s : State) : Nat × State := if c s then (0, f s) else (0x0B000011, s)

/-- Whether every batch is Off. -/
def State.allOff (s : State) : Bool := allBatches.all (fun b => s.bstate b == .off)

/-- Command 0x01. -/
def State.configureOk (s : State) : Bool := s.mod == .armed || ((s.mod == .running || s.mod == .standby) && s.allOff)
def configureEff : Eff := moduleEff (State.ifState State.configureOk (State.setMod .configuration))

/-- Command 0x02 (R330). -/
def State.armModule (s : State) : Nat × State :=
  if s.mod != .configuration then (0x0B000011, s)
  else
    let c := s.armCheck
    let s := s.armAdmission.wr (mdk 0xB) c
    if c ≠ 0 then (0x0B000012, s) else (0, s.setMod .armed)
def armModuleEff : Eff := moduleEff State.armModule

/-- Command 0x03. -/
def runEff : Eff := moduleEff (State.ifState (fun s => s.mod == .armed) State.runModule)

/-- Command 0x04. -/
def State.holdOk (s : State) : Bool := s.mod == .armed || s.mod == .running || s.mod == .standby
def safeHoldEff : Eff := moduleEff (State.ifState State.holdOk (State.setMod .safeHold))

/-- Command 0x05: with supply, unless SafeHold followed a supply loss. -/
def State.restartOk (s : State) : Bool := s.mod == .safeHold && s.power.supply && !s.power.lossHold
def restartEff : Eff :=
  moduleEff (State.ifState State.restartOk State.enterProof)

/-- Command 0x08. -/
def retryEff : Eff := moduleEff (State.ifState (fun s => s.mod == .faultWait) State.reenter)

/-- Command 0x09. -/
def proofNowEff : Eff :=
  moduleEff (State.ifState (fun s => s.mod == .configuration) (fun s => if s.power.check.isSome then s else s.wantCheck 2))

/-- Command 0x06: the long operation takes its values at its start (R384). -/
def configStoreEff : Eff where
  eff s :=
    if [3, 4, 5, 6].contains s.mod.code then
      let s := s.modSrv (fun v => { v with storing := some s.storeImage, storingLocks := s.rdN (key 0x2600 1) })
      (s.wr (mdk 4) 0).startLong 1
    else (s.wr (mdk 4) 0x0B000011).answer 0x0B000011
  replies := false

/-- Command 0x07 (R343). -/
def selfTestEff : Eff where
  eff s :=
    if s.mod == .configuration && s.allOff then (s.wr (mdk 4) 0).startLong 3
    else (s.wr (mdk 4) 0x0B000013).answer 0x0B000013
  replies := false

/-- The effect of command `c`. -/
def commandOf (c : Nat) : Eff :=
  match c with
  | 1 => configureEff
  | 2 => armModuleEff
  | 3 => runEff
  | 4 => safeHoldEff
  | 5 => restartEff
  | 6 => configStoreEff
  | 7 => selfTestEff
  | 8 => retryEff
  | _ => proofNowEff

/-- A write of 0x2000.03. -/
def State.moduleCommand (q : Req) (c : Nat) (s : State) : State := s.hostWrite q 0x2000 3 0 c (commandOf c)

def execConfigure (t : Time) (q : Req) (s : State) : Host.Outcome State Fault Refusal := .next ((s.begin t).moduleCommand q 1)
def execArm (t : Time) (q : Req) (s : State) : Host.Outcome State Fault Refusal := .next ((s.begin t).moduleCommand q 2)
def execRun (t : Time) (q : Req) (s : State) : Host.Outcome State Fault Refusal := .next ((s.begin t).moduleCommand q 3)
def execSafeHold (t : Time) (q : Req) (s : State) : Host.Outcome State Fault Refusal := .next ((s.begin t).moduleCommand q 4)
def execRestartFromSafehold (t : Time) (q : Req) (s : State) : Host.Outcome State Fault Refusal :=
  .next ((s.begin t).moduleCommand q 5)
def execConfigurationStore (t : Time) (q : Req) (s : State) : Host.Outcome State Fault Refusal := .next ((s.begin t).moduleCommand q 6)
def execOnDemandSelfTest (t : Time) (q : Req) (s : State) : Host.Outcome State Fault Refusal := .next ((s.begin t).moduleCommand q 7)
def execRetryNow (t : Time) (q : Req) (s : State) : Host.Outcome State Fault Refusal := .next ((s.begin t).moduleCommand q 8)
def execProofCheckNow (t : Time) (q : Req) (s : State) : Host.Outcome State Fault Refusal := .next ((s.begin t).moduleCommand q 9)

/-- CONFIGURATION_STORE_COMPLETE (R384). -/
def State.storeComplete (s : State) : State :=
  if s.longOp ≠ 1 then s
  else
    let s := s.modPower (fun p => { p with stored := s.srv.storing, storedLocks := s.srv.storingLocks })
    let s := s.modSrv (fun v => { v with storing := none })
    let s := s.each allBatches (fun b s =>
      if (s.blob (key (0x8000 + b) 1)).isEmpty then s else s.wr (key (0x8000 + b) 0xB) (b2n (s.storedBlob (key (0x8000 + b) 1) == s.blob (key (0x8000 + b) 1))))
    s.endLong 0

def execConfigurationStoreComplete (t : Time) (s : State) : Host.Outcome State Fault Refusal := .next (s.begin t).storeComplete

/-! ### Hold-up service (R335, R336) -/

/-- The hold-up service begins: its mark in MRAM, its count. -/
def State.beginService (phase : Nat) (s : State) : State :=
  (s.modPower (fun p => { p with holdUp := some s.now, phase := phase, mark := true, logFrom := s.log.nextSeq })).inc (stk 9)

/-- SUPPLY_LOSS (R320, R335): VIN below 16.5 V for 1 ms. The proof check passed condition ends with the outputs in phase 2 (R325; DEDUCED,
notes/assumptions/126). -/
def State.supplyLoss (mv : Nat) (s : State) : State :=
  if !s.power.supply || s.power.dark || 16500 ≤ mv then s
  else
    let was := s.mod
    let s := (s.wr (vnk 1) mv).inc (vnk 4)
    let s := (s.modPower (fun p => { p with supply := false, proofPassed := false, check := none, repeatAt := none, wanted := none })).chargerOn
    let s := s.logEvent 0x0007 0 (d16 mv ++ d8 was.code)
    if s.power.holdUp.isSome || was == .removal then s.freezeEnd.islandSettle
    else if was == .init || was == .proof || was == .faultWait then
      (((s.beginService 2).modPower (fun p => { p with proofHeld := false })).captureStops.freezeEnd).islandSettle
    else
      let s := ((s.beginService 1).captureStops).freezeEnd
      let s := s.modPower (fun p => { p with lossHold := true })
      (if s.twinRole ≠ 0 && s.authority = 1 then s.askHandover 2 else s.setMod .safeHold).islandSettle

def execSupplyLoss (t : Time) (mv : Nat) (s : State) : Host.Outcome State Fault Refusal := .next ((s.begin t).supplyLoss mv)

/-- VIN_DIP (R320). -/
def execVinDip (t : Time) (s : State) : Host.Outcome State Fault Refusal := .next ((s.begin t).inc (vnk 3))

/-- Phase 2 of the service: PD1 to PD4 and the capture memory off, SafeHold if not already entered. -/
def State.phase2 (s : State) : State :=
  let s := s.modPower (fun p => { p with phase := 2, proofHeld := false })
  let s := if s.mod == .removal then s else s.setMod .safeHold
  ((s.each [1, 2, 3, 4] State.domOff).captureStops).islandSettle

/-- HOLD_UP_PHASE_2: 20 ms into the service. -/
def execHoldUpPhase2 (t : Time) (s : State) : Host.Outcome State Fault Refusal :=
  let s := s.begin t
  .next (s.when (s.power.phase == 1 && s.power.holdUp.getD 0 + Time.ms 20 ≤ s.now) State.phase2)

/-- PARK (step 5): every record is committed, event 0x0008 among them; every domain but PD0 and PD7 goes off. Supply that is back
restarts the module at once (R336). -/
def State.park (s : State) : State :=
  let (n, s) := s.draw
  let s := s.wr (stk 1) (Config.storeVoltage n).toNat
  let s := s.commitAll
  let cnt := (s.log.nextSeq + 2 ^ 32 - s.power.logFrom) % 2 ^ 32
  let s := (s.logEvent 0x0008 0 (d16 cnt ++ d16 (s.rdN (stk 1)))).commitAll
  let s := (s.each [1, 2, 3, 4, 5, 6] State.domOff).commitAll
  let s := (s.modPower (fun p => { p with phase := 3 })).islandSettle
  if s.power.supply then s.restart 3 else s

def execPark (t : Time) (s : State) : Host.Outcome State Fault Refusal :=
  let s := s.begin t
  .next (s.when (s.power.phase == 2) State.park)

/-- SUPPLY_PRESENT (R320, R336): 17.0 V for 100 ms; a parked module restarts. -/
def State.supplyPresent (mv : Nat) (s : State) : State :=
  if s.power.supply || s.power.dark || mv < 17000 then s
  else
    let s := (s.wr (vnk 1) mv).modPower (fun p => { p with supply := true })
    if s.power.phase = 3 then (s.restart 3).wr (vnk 1) mv
    else if s.power.holdUp.isNone then (s.modPower (fun p => { p with mark := false })).chargerOn
    else s

def execSupplyPresent (t : Time) (mv : Nat) (s : State) : Host.Outcome State Fault Refusal := .next ((s.begin t).supplyPresent mv)

/-- The module has no power: everything volatile is lost, the pins are released. -/
def State.darken (s : State) : State :=
  let r := (s.cleared.wr (mdk 6) (s.rd (mdk 6))).wr (dk 0) 0
  { r with power := { r.power with dark := true, mark := s.power.mark, inserted := false, supply := false } }

/-- STORE_EXHAUSTED (R336, R339): the store has reached V_end without supply. -/
def execStoreExhausted (t : Time) (s : State) : Host.Outcome State Fault Refusal :=
  let s := s.begin t
  .next (s.when (!s.power.supply && !s.power.dark) State.darken)

/-- POWER_ON (R333): VIN is present after the module had no power; the mark makes it kind 3. -/
def State.powerOn (mv : Nat) (s : State) : State :=
  if !s.power.dark then s
  else
    let kind := if s.power.mark then 3 else 1
    let s := s.modPower (fun p => { p with dark := false, mark := false, supply := true })
    (s.restart kind).wr (vnk 1) mv

def execPowerOn (t : Time) (mv : Nat) (s : State) : Host.Outcome State Fault Refusal := .next ((s.begin t).powerOn mv)

/-- RESET_N (R334). -/
def execResetN (t : Time) (s : State) : Host.Outcome State Fault Refusal :=
  let s := s.begin t
  .next (s.when (!s.power.dark) (fun s => s.restart 2))

/-! ### Insertion (R337) -/

/-- INRUSH_TIMEOUT: the limiter turns off and will try again after 1, 2, 4 … 64 s. -/
def State.inrushTimeout (s : State) : State :=
  if s.power.inserted then s
  else
    let k := s.power.inrush
    s.modPower (fun p => { p with inrush := k + 1, inrushAt := some (s.now + Time.sec (min 64 (2 ^ k))) })

def execInrushTimeout (t : Time) (s : State) : Host.Outcome State Fault Refusal := .next (s.begin t).inrushTimeout

/-- INRUSH_RETRY: the attempt is counted. -/
def State.inrushRetry (s : State) : State :=
  match s.power.inrushAt with
  | some x => if x ≤ s.now then (s.modPower (fun p => { p with inrushAt := none })).inc (vnk 5) else s
  | none => s

def execInrushRetry (t : Time) (s : State) : Host.Outcome State Fault Refusal := .next (s.begin t).inrushRetry

/-- INSERTION_COMPLETE: the slot and master-slot pins are read, the module enters its start. -/
def State.insertion (slot msel : Nat) (s : State) : State :=
  if s.power.inserted || s.power.dark || s.mod != .init then s
  else
    let s := s.modPower (fun p => { p with inserted := true, slotPins := slot, mselPins := msel, inrush := 0, inrushAt := none, startedAt := s.now })
    let s := s.readSlot.logEvent 0x0C06 0 (d8 slot)
    ((s.each [5, 6, 7] State.domPower).leaveInit).islandSettle

def execInsertionComplete (t : Time) (slot msel : Fin 8) (s : State) : Host.Outcome State Fault Refusal :=
  .next ((s.begin t).insertion slot msel)

/-! ### Removal (R314, R339, R340) -/

/-- A batch whose own circuits the module has opened in Removal goes to Coast (R314, R138). -/
def State.removalCoast (b : Nat) (s : State) : State :=
  let st := s.bstate b
  if !(s.circuitsClosed b) && (st == .connected || st == .islanded || st == .currentLimited) then s.disconnected b else s

/-- Steps 3 to 5 of R339: the safe state of Removal. The outputs go off with the Removal handover (Table 09-2); the circuits open, and the batches
that a twin still had running go to Coast (R314). -/
def State.safeToRemove (s : State) : State :=
  let s := s.modPower (fun p => { p with removal := none })
  let s := if s.twinRole ≠ 0 && s.authority = 1 then s.modRack (fun r => { r with leaving := true, planned := 0 }) else s
  let s := (s.each allBatches State.pulseBlock).islandSettle
  let s := (s.each allBatches State.removalCoast).commitAll
  let s := (s.each [1, 2, 3, 4, 6] State.domOff).islandSettle
  s.msg "LATCH_LED" [1] []

/-- The sequence of R314 ends once authority has passed and the partner reports its bridges Closed for the connection circuits
that are Closed here (DEDUCED, notes/assumptions/56). -/
def State.removalProgress (s : State) : State :=
  if s.power.removal.isNone || s.authority = 1 then s
  else
    let shown (k : Nat) : Bool := match s.twinPartner with
      | some h => h.msg.circuits.testBit (k + 2)
      | none => false
    if !(s.rdB (twk 0x14)) || [0, 1].all (fun k => s.circState k != 3 || shown k) then s.safeToRemove else s

/-- LATCH_LEVER_OPENED (R339): an active twin hands over first, and every other module blocks its batches at once; a twin asks its partner to close
the bridges (R314). -/
def State.leverOpened (s : State) : State :=
  if s.mod == .init || s.mod == .removal || s.power.holdUp.isSome || s.power.dark then s
  else
    let was := s.mod
    let active := s.twinRole ≠ 0 && s.authority = 1
    let s := s.modPower (fun p => { p with removal := if active then some s.now else none, check := none, repeatAt := none, wanted := none })
    let s := (s.setMod .removal).logEvent 0x0C07 0 (d8 was.code)
    if s.twinRole = 0 then s.safeToRemove
    else if active then s.askHandover 2
    else ((s.modPower (fun p => { p with removal := some s.now })).askBridges 2).removalProgress

def execLatchLeverOpened (t : Time) (s : State) : Host.Outcome State Fault Refusal := .next (s.begin t).leverOpened

/-- REMOVAL_TIMEOUT (R314): 20 ms. -/
def State.removalTimeout (s : State) : State :=
  match s.power.removal with
  | some r => if r + Time.ms 20 ≤ s.now then s.safeToRemove else s
  | none => s

def execRemovalTimeout (t : Time) (s : State) : Host.Outcome State Fault Refusal := .next (s.begin t).removalTimeout

/-- HEARTBEAT (R309, R314, R326): the partner's heartbeat may show its bridges Closed, or that it has become eligible. -/
def execHeartbeat (t : Time) (slot : RackSlot) (m : HeartbeatMsg) (s : State) : Host.Outcome State Fault Refusal :=
  let s := s.begin t
  let r := s.heartbeat slot m
  .next ((r.when (!s.partnerEligible) State.storeHandover).handoverFailed).removalProgress

/-- FRAME_DEPARTURE (R203, R208, R311), at which authority may have passed (R313). -/
def execFrameDeparture (t : Time) (s : State) : Host.Outcome State Fault Refusal :=
  .next ((((s.begin t).authorityAt).handoverFailed).frameDeparture).removalProgress

/-- LATCH_BUTTON (R339): physical presence. -/
def execLatchButton (t : Time) (s : State) : Host.Outcome State Fault Refusal :=
  let s := s.begin t
  .next (s.when (!s.power.dark && s.mod != .removal) (State.modPower (fun p => { p with presence := some s.now })))

/-- WITHDRAWN_WITHOUT_WARNING (R340): Removal, every batch blocked, the service from step 4. -/
def State.withdrawn (s : State) : State :=
  if s.mod == .removal || s.power.dark || !s.power.inserted then s
  else
    let was := s.mod
    let s := (s.setMod .removal).logEvent 0x0C08 0 (d8 was.code)
    let s := s.modPower (fun p => { p with inserted := false, check := none, repeatAt := none, wanted := none })
    (if s.power.holdUp.isSome then s else s.beginService 2).freezeEnd.phase2

def execWithdrawnWithoutWarning (t : Time) (s : State) : Host.Outcome State Fault Refusal := .next (s.begin t).withdrawn

end Sys2Proof.Machine
end

