-- ==== Sys2Proof/Machine/Repair.lean ====
section
/-! DEFINITION. Self-repair and temperatures: memory scrubbing and uncorrectable errors (R341, R342, R344), the on-demand self-test
(R343), junction temperatures (R399). -/

namespace Sys2Proof.Machine

/-! ### Memory (R342) -/

/-- A row or column of a memory as one number, and a pending replacement with its cause. -/
def unitCode (mem : Nat) (u : MemUnit) : Nat := (2 * mem + b2n u.column) * 4096 + u.number % 4096
def pendingCode (mem cause : Nat) (u : MemUnit) : Nat := 16 * unitCode mem u + cause

/-- The domains of a memory (Table 16-8). -/
def memoryDomains (mem : Nat) : List Nat :=
  match mem with
  | 0 => [1]
  | 1 => [1, 3]
  | 2 => [5]
  | 3 => [6]
  | _ => [7]

/-- A pending replacement takes place at a scrub pass; with no spare left it is a domain fault (R344). -/
def State.replaceUnit (p : Nat) (s : State) : State :=
  let cause := p % 16
  let mc := p / 16 / 4096
  let number := p / 16 % 4096
  let s := s.modPower (fun x => { x with failing := x.failing.filter (· != p), scrubs := Tbl.erase (p / 16) x.scrubs })
  if s.sparesUsed mc < sparesIn mc then
    let s := s.retireRecord (4 + mc % 2) (mc / 2 * 4096 + number) cause
    let s := s.logEvent 0x0C02 0 (d8 (mc / 2) ++ d16 number ++ d8 cause)
    s.reserveLeft 4 s.memoryLeft
  else s.each (memoryDomains (mc / 2)) State.domFault

/-- A row or column has given corrected errors in this pass: the third pass within 24 h asks for its replacement. -/
def State.correctedIn (mem : Nat) (u : MemUnit) (s : State) : State :=
  let c := unitCode mem u
  let l := (s.now :: (Tbl.get [] c s.power.scrubs)).filter (fun x => s.now < x + 24 * 3600 * Time.sec 1)
  let s := s.modPower (fun p => { p with scrubs := Tbl.set c l p.scrubs })
  if 3 ≤ l.length && !(s.power.failing.any (fun p => p / 16 == c)) then
    s.modPower (fun p => { p with failing := p.failing ++ [pendingCode mem 8 u] })
  else s

/-- SCRUB_PASS: pending replacements of the memory, then the errors corrected in this pass. Memory 3 is the capture memory, which has no
spares and counts at 0x7000 .10 (R284; notes/assumptions/120). -/
def State.scrubPass (mem : Nat) (errs : List MemUnit) (s : State) : State :=
  let s := s.each (s.power.failing.filter (fun p => p / 16 / 4096 / 2 == mem)) State.replaceUnit
  if mem = 3 then s.inc (aqk 0x10) errs.length else
  let s := s.inc (key 0x2400 7) errs.length
  s.each errs.eraseDups (State.correctedIn mem)

def execScrubPass (t : Time) (mem : Fin 4) (errs : List MemUnit) (s : State) : Host.Outcome State Fault Refusal :=
  .next ((s.begin t).scrubPass mem errs)

/-- UNCORRECTABLE_ERROR: counted, event 0x0C03 (memories without spares continue the numbers of R341; DEDUCED,
notes/assumptions/58). A cycle that reads the word stops with the reaction of the slot fault; capture memory follows R284, island
memory R238, anything else is a domain fault. -/
def State.uncorrectable (mem addr : Nat) (u : MemUnit) (cycle : Option Nat) (s : State) : State :=
  let s := (s.inc (key 0x2400 8)).logEvent 0x0C03 0 (d8 mem ++ d32 addr)
  let s := if mem < 3 && !(s.power.failing.any (fun p => p / 16 == unitCode mem u)) then
      s.modPower (fun p => { p with failing := p.failing ++ [pendingCode mem 9 u] })
    else s
  match cycle with
  | some b => (((s.dropCycle b).inc (bk 0x13 4 b)).demand b 1).faultReaction b
  | none =>
    if mem = 3 then s.captureError addr
    else if mem = 4 then s.islandFault
    else s.each (memoryDomains mem) State.domFault

def execUncorrectableError (t : Time) (mem : Fin 5) (addr : Nat) (u : MemUnit) (cycle : Option Batch) (s : State) :
    Host.Outcome State Fault Refusal :=
  .next ((s.begin t).uncorrectable mem addr u (cycle.map (·.val))).dispatch

/-! ### On-demand self-test (R343) -/

/-- A physical core that failed: with the core it serves, or on its own. -/
def State.retirePhysical (j cause : Nat) (s : State) : State :=
  match (List.range 16).find? (fun k => s.servingCore k == some j) with
  | some k => s.retireCore k cause
  | none =>
    if (s.core j).state == .retired then s
    else
      let s := ((s.setCore j { state := .retired }).syncCore j).retireRecord 3 j cause
      s.reserveLeft 3 s.sparesLeft

/-- Retires a failing resource under the rules of its kind (Table 16-16). -/
def State.retireKind (kind inst cause : Nat) (s : State) : State :=
  match kind with
  | 1 => if inst < 24 then s.retireLane inst cause else s
  | 2 => if inst < 272 then s.retireSlice inst cause else s
  | 3 => if inst < 18 then s.retirePhysical inst cause else s
  | 4 => s.modPower (fun p => { p with failing := p.failing ++ [pendingCode (inst / 4096) cause ⟨false, inst⟩] })
  | 5 => s.modPower (fun p => { p with failing := p.failing ++ [pendingCode (inst / 4096) cause ⟨true, inst⟩] })
  | _ => s

/-- SELF_TEST_COMPLETE. -/
def State.selfTestComplete (failed : List (Nat × Nat)) (s : State) : State :=
  if s.longOp ≠ 3 then s else (s.each failed (fun f s => s.retireKind f.1 f.2 2)).endLong 0

def execSelfTestComplete (t : Time) (failed : List (Nat × Nat)) (s : State) : Host.Outcome State Fault Refusal :=
  .next ((s.begin t).selfTestComplete failed)

/-! ### Junction temperatures (R399) -/

/-- A junction reading: the hottest of the domains' latest readings, and its domain. -/
def State.junction (d : Nat) (temp : Int) (s : State) : State :=
  let l := Tbl.set d temp s.power.junctions
  let top := l.foldl (fun m e => if m.2 < e.2 then e else m) (d, temp)
  ((s.modPower (fun p => { p with junctions := l })).wr (vnk 7) top.2).wr (vnk 8) top.1

/-- Status bit i of 0x2103.09 with its count of settings. -/
def State.thermalBit (i : Nat) (v : Bool) (s : State) : State :=
  let was := s.bit (vnk 9) i
  let s := s.setBit (vnk 9) i v
  if v && !was then s.inc (vnk 0xA) else s

/-- JUNCTION_WARNING: sets at 118 °C, clears below 113 °C, over all domains. -/
def State.junctionWarning (d : Nat) (temp : Int) (s : State) : State :=
  let s := s.junction d temp
  let hot := if 1180 ≤ temp then Tbl.set d s.now s.power.hotSince else if temp < 1130 then Tbl.erase d s.power.hotSince else s.power.hotSince
  let hot := if temp < 1230 then Tbl.erase (8 + d) hot else hot
  let s := s.modPower (fun p => { p with hotSince := hot })
  (s.thermalBit 0 (hot.any (fun e => e.1 < 8))).thermalBit 1 (hot.any (fun e => 8 ≤ e.1))

def execJunctionWarning (t : Time) (d : DomainNo) (temp : Int) (s : State) : Host.Outcome State Fault Refusal :=
  .next ((s.begin t).junctionWarning d temp)

/-- JUNCTION_FAULT: 123 °C for 10 ms in PD1 to PD4 or PD6 is a fault of that domain. -/
def State.junctionFault (d : Nat) (temp : Int) (s : State) : State :=
  let s := s.junctionWarning d temp
  if 1230 ≤ temp && [1, 2, 3, 4, 6].contains d then
    let s := s.modPower (fun p => { p with hotSince := Tbl.set (8 + d) s.now p.hotSince })
    (s.thermalBit 1 true).domFault d
  else s

def execJunctionFault (t : Time) (d : DomainNo) (temp : Int) (s : State) : Host.Outcome State Fault Refusal :=
  .next ((s.begin t).junctionFault d temp)

end Sys2Proof.Machine
end

