-- ==== Sys2Proof/Machine/Settings.lean ====
section
/-! DEFINITION. What a write does to the entries that set the machine up: chains and pairs (R23, R37, R39, R46 to R50), queues (R59), channels
and routes (R180, R184, R185, R187), timebase and membership (R10, R180, R211, R380), PDO and GOOSE settings (R362, R367), keys and locks
(R350, R359). Each is an `Eff`: the object's own conditions (check 8 of R348) and the effect. -/

namespace Sys2Proof.Machine

/-- A further condition judged on the state that the write would give. -/
def judged (e : Eff) (post : State → Nat) : Eff :=
  { own := fun s => if e.own s ≠ 0 then e.own s else post (e.eff s), eff := e.eff, replies := e.replies }

/-- Several effects as one: every condition, then every effect in order. -/
def allEff (l : List Eff) : Eff := { own := fun s => firstFail (l.map (fun e => e.own s)), eff := fun s => l.foldl (fun s e => e.eff s) s }

/-! ### Chains, pairs, clocks, detectors -/

/-- Latency of the chains concerned, every σ, every recipe's triggers (R37, R39, R23). -/
def State.tuned (cs : List Nat) (s : State) : Nat :=
  firstFail [needs (cs.all s.latencyOk) abRange, needs s.sigmaOk 0x0B000023, needs s.triggersOk 0x0B000055]

/-- The batches whose recipe reads one of the chains. -/
def State.readersOf (cs : List Nat) (s : State) : List Nat :=
  allBatches.filter (fun b => match s.recipe b with
    | some r => r.chains.any cs.contains
    | none => false)

/-- What follows from a change of chains: their figures, the timelines of the batches that read them, and of batches `bs` besides;
admission where one of these is enabled (R13, R37, R55). -/
def State.retimed (cs : List Nat) (s : State) (bs : List Nat := []) : State :=
  let s := s.each cs State.syncChain
  let bs := bs ++ (s.readersOf cs).filter (fun b => !(bs.contains b))
  let s := s.each bs State.syncTimeline
  if bs.any (fun b => s.benabled b) then (s.runAdmission s.enabledFigs).2 else s

/-- The chains of the pairs whose trigger source is `v`: their trigger rate follows from it (R37, R39). -/
def State.triggeredChains (v : Nat) (s : State) : List Nat :=
  ((List.range 8).filter (fun p => s.rdN (pk p 1) == v)).flatMap pairChains

/-- The detectors of chain c that its mode stops (R44) are not valid. -/
def State.syncDetectors (c : Nat) (s : State) : State :=
  s.each ((List.range 64).filter (fun d => s.rdN (key (0x5100 + d) 2) == c && s.rdB (key (0x5100 + d) 0xC) && !(s.sfdRuns d))) (fun d s =>
    (s.setSfd d {}).wr (key (0x5100 + d) 0xC) 0)

/-- Whether a field of Table 02-7 takes the value on this type of chain (R46). -/
def chainFieldOk (c sub : Nat) (v : Int) : Bool :=
  match sub with
  | 2 => !isSd c || v == 0
  | 3 => if isSd c then decide (v ≤ 3) else v != 3
  | 4 => if isSd c then v != 0 else v == 0
  | 5 => isSd c || v == 0
  | 6 => isSd c || v == 0
  | 7 => decide (v < 0x8000 ∧ v / 256 ≤ 64)
  | _ => true

/-- 0x5000 + c. -/
def chainEff (c sub : Nat) (v : Int) : Eff :=
  if sub = 1 then enableEff c v
  else if sub = 0x10 then chainSwapEff c v.toNat
  else if sub = 0x1A then windowEff c v.toNat
  else if [3, 4, 5, 8, 9, 0xA, 0xB, 0xC, 0xD].contains sub then
    judged { own := fun _ => needs (chainFieldOk c sub v) abRange
             eff := fun s =>
               let s := (s.wr (ck c sub) v).retimed [c]
               if sub = 3 then s.dropAverage c else if sub = 0xC then s.syncFollow c else if sub = 0xD then (s.syncTracker c).syncFollow c
               else if sub = 8 then s.syncDetectors c else s } (State.tuned [c])
  else { own := fun _ => needs (chainFieldOk c sub v) abRange, eff := State.wr (ck c sub) v }

/-- The sigma-delta chains of modulator clock m. -/
def State.clockChains (m : Nat) (s : State) : List Nat := (List.range 80).filter (fun c => isSd c && s.rdN (ck c 5) == m)

/-- 0x5092: dividers and locks (R31, R32). -/
def modClockEff (sub : Nat) (v : Int) : Eff :=
  if sub ≤ 4 then
    { own := fun s =>
        let s' := s.wr (key 0x5092 sub) v
        s'.tuned (s'.clockChains (sub - 1))
      eff := fun s => (s.wr (key 0x5092 sub) v).retimed (s.clockChains (sub - 1)) }
  else plainEff 0x5092 sub 0 v

/-- The codes of Table 02-2. -/
def triggerCode (v : Int) : Bool := v == 0 || decide (1 ≤ v ∧ v ≤ 0x20) || v == 0x40 || decide (0x50 ≤ v ∧ v ≤ 0x57)

/-- What follows from a write to pair p (R27, R28, R45): a source that is off converts nothing, another shared channel ends a suspension, and
loss and results-invalid follow. -/
def State.pairChanged (p sub : Nat) (old : Int) (s : State) : State :=
  let s := if sub = 1 && s.rd (pk p 1) = 0 then s.modPair p (fun r => { r with running := false, pending := false, slot := 0 }) else s
  let s := if sub = 4 && s.rd (pk p 4) ≠ old then s.endSuspension p else s
  (s.each (pairChains p) State.syncLoss).syncPair p

/-- 0x5098 + p. -/
def pairEff (p sub : Nat) (v : Int) : Eff :=
  if sub = 9 then clearFaultEff p
  else if sub = 5 || sub = 6 then plainEff (0x5098 + p) sub 0 v
  else
    judged { own := fun _ => firstFail [needs (sub != 1 || triggerCode v) abRange, needs (sub != 4 || (pairChains p).contains v.toNat) abRange]
             eff := fun s => ((s.wr (pk p sub) v).retimed (pairChains p)).pairChanged p sub (s.rd (pk p sub)) } (State.tuned (pairChains p))

/-- 0x50A0 + p. A path test asked for here brings no readings: they are free (notes/assumptions/59). -/
def testDacEff (p sub : Nat) (v : Int) : Eff :=
  match sub with
  | 1 => { own := fun _ => needs ((pairChains p).contains v.toNat) abRange, eff := State.wr (key (0x50A0 + p) 1) v }
  | 2 => dacEff p v
  | _ =>
    { own := (pathEff p 0 0).own
      eff := fun s =>
        let (n, s) := s.draw
        let (m, s) := s.draw
        (pathEff p (Config.converterCode n).toInt (Config.converterCode m).toInt).eff s
      replies := (pathEff p 0 0).replies }

/-- 0x5100 + d: the enable and a setting restart the detector (R44, R50). -/
def detectorEff (d sub : Nat) (v : Int) : Eff :=
  { eff := fun s =>
      let s := s.wr (key (0x5100 + d) sub) v
      if sub = 7 then s else (s.setSfd d {}).wr (key (0x5100 + d) 0xC) 0 }

/-! ### Queues and groups (R59) -/

/-- A pending value of a queue or a group: refused where admission over the pending values fails. -/
def queueEff (k : Nat) (v : Int) : Eff where
  eff s :=
    let s' := s.wr k v
    let a := s'.admission factor08 s'.lanesIn.length s'.carriers s'.enabledFigs
    if a.result = 0 then (s'.reportAdm 0 0xFF).answer 0 else (s.reportAdm a.result a.failing).answer (admAbort a.result)
  replies := false

/-! ### Channels -/

/-- Whether the members' routes mix the two classes of R10. -/
def State.mixed (b : Nat) (s : State) : Bool :=
  let rs := (s.members b).map (fun c => s.rdN (chk c 2))
  rs.contains 3 && (rs.contains 1 || rs.contains 2)

/-- Refresh widths of a batch's members against its carrier (R185). -/
def State.refreshTop (b : Nat) (s : State) : Nat := if s.doubleUp b then s.fineF b / 2 else s.fineF b
def State.refreshOk (b : Nat) (s : State) : Bool := (s.members b).all (fun c => s.rdN (chk c 9) ≤ s.refreshTop b)

/-- Whether every member routed to a driver has a carrier of at least 4,000 counts (R230). -/
def State.driverCarrierOk (b : Nat) (s : State) : Bool :=
  (s.members b).all (fun c => s.rdN (chk c 2) != 2 || 4000 ≤ s.rdN (bk 4 1 b))

/-- Whether the target of channel c exists for its class and no other channel is served there (R187, R230, R302). -/
def State.targetOk (c : Nat) (s : State) : Bool :=
  let r := s.rdN (chk c 2)
  let t := s.rdN (chk c 3)
  let twin := s.rdN (key 0x2510 1) != 0
  let there := match r with
    | 1 => !twin && decide (t < 24)
    | 2 => !twin && decide (t < 6)
    | 3 => decide (t < 768) && (s.rdN (ndk t 5) != 2 || decide (s.rdN (chk c 4) < s.rdN (ndk t 7)))
    | _ => true
  r == 0 || (there && (List.range 256).all (fun e => e == c || s.rdN (chk e 2) != r || s.rdN (chk e 3) != t
    || (r == 3 && s.rdN (chk e 4) != s.rdN (chk c 4))))

/-- The route of channel c against R10: no mix in its batch, and the class of a loaded recipe. -/
def State.routeClassOk (c : Nat) (s : State) : Bool :=
  match s.ownerOf c with
  | none => true
  | some b => !(s.mixed b) && match s.recipe b with
    | none => true
    | some r => s.rdN (chk c 2) == 0 || (r.cls == s.classOf b && r.cls != 2)

/-- Dead time, pulse, refresh and bootstrap of channel c as they stand (R184, R185, R230). -/
def State.channelOk (c : Nat) (s : State) : Nat :=
  let td := s.rdN (chk c 6)
  let tm := s.rdN (chk c 7)
  let tr := s.rdN (chk c 9)
  let r := s.rdN (chk c 2)
  let node := s.rdN (chk c 3)
  firstFail [
    needs (match s.ownerOf c with
      | some b => decide (s.rdN (chk c 5) < s.fineF b)
      | none => true) 0x0B000085,
    needs (s.rdN (key 0x3200 1) ≤ td && (r != 2 || 1280 ≤ td)) 0x0B000080,
    needs (td + 640 ≤ tm && s.rdN (key 0x3200 2) ≤ tm) 0x0B000081,
    needs (2 * tm ≤ tr && match s.ownerOf c with
      | some b => decide (tr ≤ s.refreshTop b)
      | none => true) 0x0B000082,
    needs (s.rdN (chk c 8) != 0 || !(r == 2 || (r == 3 && s.bit (ndk node 8) (s.rdN (chk c 4))))) 0x0B000083]

/-- The batch that node n follows: that of a channel routed to it (Table 01-2). -/
def State.syncNode (n : Nat) (s : State) : State :=
  let s := s.wr (ndk n 4) (((s.nodeChans n).findSome? (fun c => s.ownerOf c)).getD 255)
  if s.rdN (ndk n 5) = 2 && s.twoBatches n then s.wr (ndk n 5) 4
  else if s.rdN (ndk n 5) = 4 && !(s.twoBatches n) then s.wr (ndk n 5) 2
  else s

/-- Class and timeline of a batch and the demand of every link, after a change of routes, members or timebase. -/
def State.syncBatch (b : Nat) (s : State) : State :=
  ((s.wr (bk 3 0xA b) (s.classOf b)).syncTimeline b).each allLinks State.syncLink

/-- Whether the driver or node that channel c is routed to has a bootstrap undervoltage (Table 09-5 .0F bit 3). -/
def State.targetLow (c : Nat) (s : State) : Bool :=
  let t := s.rdN (chk c 3)
  if s.rdN (chk c 2) = 2 then s.bit (key (0x3100 + t) 8) 3
  else if s.rdN (chk c 2) = 3 then (s.rdN (ndk t 8)).testBit (s.rdN (chk c 4)) && s.bit (ndk t 0x11) 2
  else false

/-- A route entry of channel c takes the value (R187): the channel's outputs go off, a test duty ends and its carry clears (R183, R197); drivers
and nodes follow. -/
def State.route (c sub : Nat) (v : Int) (s : State) : State :=
  let r0 := s.rdN (chk c 2)
  let t0 := s.rdN (chk c 3)
  let s := s.wr (chk c sub) v
  let r := s.rdN (chk c 2)
  let t := s.rdN (chk c 3)
  if r0 = 0 && r = 0 then s
  else
    let s := (s.chanOff c).endTest c
    let s := if r0 = 2 && t0 < 6 then s.wr (key (0x3100 + t0) 1) 255 else s
    let s := if r = 2 && t < 6 then s.wr (key (0x3100 + t) 1) c else s
    let s := if r0 = 3 then s.syncNode t0 else s
    let s := if r = 3 then s.syncNode t else s
    let s := s.setBit (chk c 0xF) 3 (s.targetLow c)
    match s.ownerOf c with
    | some b => s.syncBatch b
    | none => s.each allLinks State.syncLink

/-- Routes (R10, R187, R211, R230): class, target and slot are checked together. -/
def routeEff (c sub : Nat) (v : Int) : Eff :=
  judged { eff := State.route c sub v } (fun s => firstFail [
    needs (s.targetOk c) 0x0B000084, needs (s.routeClassOk c) 0x0B000019,
    needs (s.rdN (chk c 2) != 2 || match s.ownerOf c with
      | some b => decide (4000 ≤ s.rdN (bk 4 1 b))
      | none => true) 0x0B000085,
    s.channelOk c, s.linksOwn])

/-- 0x3000 + c. -/
def channelEff (c sub : Nat) (v : Int) : Eff :=
  match sub with
  | 0x14 => testDutyEff c v
  | 0x15 => testEnableEff c v
  | 0xA => plainEff (0x3000 + c) 0xA 0 v
  | 0x16 => plainEff (0x3000 + c) 0x16 0 v
  | _ => if 2 ≤ sub && sub ≤ 4 then routeEff c sub v else judged (plainEff (0x3000 + c) sub 0 v) (State.channelOk c)

/-- 0x3200: a floor may be lowered, and raised up to the lowest value of any channel (R184); the masks of the block inputs (R189). -/
def pwmEff (sub : Nat) (v : Int) : Eff :=
  if sub = 1 || sub = 2 then
    { own := fun s => needs (decide (v ≤ s.rd (key 0x3200 sub)) || (List.range 256).all (fun c => decide (v ≤ s.rd (chk c (sub + 5))))) 0x0B000080
      eff := State.wr (key 0x3200 sub) v }
  else if sub = 0xB || sub = 0xC then { eff := State.maskBlock (sub - 0xB) v.toNat }
  else plainEff 0x3200 sub 0 v

/-! ### Nodes and links -/

/-- What the nodes of link k read, by position, as they read last (R213). -/
def State.foundOn (k : Nat) (s : State) : List NodeId :=
  ((List.range 32).map (fun p => (s.nodeAt k p).bind (fun n => (s.node n).id))).takeWhile (·.isSome) |>.filterMap id

/-- 0x3400 + n: a node placed anew waits for enumeration (R213). -/
def nodeEff (n sub : Nat) (v : Int) : Eff :=
  match sub with
  | 0x15 => nodeClearEff n
  | 0x16 => nodeMaskEff n v
  | 0x1D => nodeWriteEff n v
  | _ =>
    if sub = 1 || sub = 2 then
      { eff := fun s => if s.rd (ndk n sub) = v then s else ((s.wr (ndk n sub) v).wr (ndk n 5) 0).each allLinks State.syncLink }
    else plainEff (0x3400 + n) sub 0 v

/-- 0x3700 + k (R213, R225): a link enabled waits for character sync, a link disabled is off. -/
def linkEff (k sub : Nat) (v : Int) : Eff :=
  match sub with
  | 1 => { eff := fun s =>
      let s := s.wr (lk k 1) v
      if v = 0 then (s.linkOff k).syncLink k
      else if s.rdN (lk k 3) = 0 && s.domOn 4 then (s.wr (lk k 3) 1).syncLink k else s }
  | 6 =>
    { own := fun s => (enumerateEff k (s.foundOn k) []).own s
      eff := fun s =>
        let (d, s) := s.knownDelays k (s.foundOn k).length
        s.enumerate k (s.foundOn k) d }
  | _ => plainEff (0x3700 + k) sub 0 v

/-! ### Batches -/

/-- 0x4000 + 0x20·b .01 (R95). -/
def kindEff (b : Nat) (v : Int) : Eff where
  own s := firstFail [needs ((s.recipe b).isNone || v == s.rd (bk 0 1 b)) 0x0B000052,
    needs (!(v == 2 || v == 3) || s.rdN (bk 0xB 0xD b) == 0) abRange]
  eff := State.wr (bk 0 1 b) v

/-- The timebase of batch b as it stands (R180, R230, R185, R211, R39, R23). -/
def State.timebaseOk (b : Nat) (s : State) : Nat :=
  let p := s.rdN (bk 4 1 b)
  let u := s.rdN (bk 4 3 b)
  let base := if s.doubleUp b then p / 2 else p
  firstFail [
    needs ((!(s.doubleUp b) || p % 2 == 0) && (u == 0 || (s.outClass b == 1 && base % u == 0))
      && (if s.rdN (bk 4 4 b) = 0 then 400000000 % p == 0 else s.outClass b == 0)
      && (s.members b).all (fun c => s.rdN (chk c 5) < s.fineF b) && s.driverCarrierOk b) 0x0B000085,
    needs (s.refreshOk b) 0x0B000082, s.linksOwn, s.tuned (s.triggeredChains (b + 1))]

/-- 0x4004 + 0x20·b .01 to .04 (R180, R380, R55). -/
def timebaseEff (b sub : Nat) (v : Int) : Eff :=
  judged { own := fun s => needs ((s.recipe b).isNone || sub == 4) 0x0B00001A
           eff := fun s =>
             let s := s.wr (bk 4 sub b) v
             ((s.wr (bk 4 5 b) (s.fineF b)).syncBatch b).retimed (s.triggeredChains (b + 1)) [b] } (State.timebaseOk b)

/-- The channels of member word `w`. -/
def wordChans (w : Nat) (v : Int) : List Nat := ((List.range 32).filter (fun i => v.toNat.testBit i)).map (· + 32 * w)

/-- 0x4003 + 0x20·b .01 to .08 (R380): members that leave or join have their outputs off. -/
def State.setMembers (b w : Nat) (v : Int) (s : State) : State :=
  let old := wordChans w (s.rd (bk 3 (w + 1) b))
  let new := wordChans w v
  let out := old.filter (fun c => !(new.contains c))
  let inn := new.filter (fun c => !(old.contains c))
  let s := s.wr (bk 3 (w + 1) b) v
  let s := s.each out (fun c s => ((s.chanOff c).endTest c).wr (chk c 1) 255)
  let s := s.each inn (fun c s => ((s.chanOff c).endTest c).wr (chk c 1) b)
  let s := s.wr (bk 3 9 b) (s.members b).length
  let s := s.each ((out ++ inn).filter (fun c => s.rdN (chk c 2) == 3)) (fun c s => s.syncNode (s.rdN (chk c 3)))
  s.syncBatch b

def memberEff (b w : Nat) (v : Int) : Eff :=
  judged { own := fun s => firstFail [
             needs (s.bstate b == .off) abState,
             needs ((wordChans w v).all (fun c => match s.ownerOf c with
               | some o => o == b
               | none => true)) 0x0B000018]
           eff := State.setMembers b w v }
    (fun s => firstFail [
      needs (!(s.mixed b)) 0x0B000019, needs (s.recipe b).isNone 0x0B00001A,
      needs ((s.members b).all (fun c => s.rdN (chk c 5) < s.fineF b) && s.driverCarrierOk b) 0x0B000085,
      needs (s.refreshOk b) 0x0B000082, s.linksOwn])

/-- The objects of batch b (Table 18-2). -/
def batchEff (q : Req) (b off sub : Nat) (v : Int) : Eff :=
  match off with
  | 0x00 => if sub = 1 then kindEff b v else enableBatchEff b v
  | 0x02 => commandEff b v.toNat
  | 0x03 => memberEff b (sub - 1) v
  | 0x04 => timebaseEff b sub v
  | 0x05 => if sub = 4 || sub = 5 then scaleEff q b sub v else plainEff (0x4005 + 0x20 * b) sub 0 v
  | 0x0B =>
    if sub = 0xA then { own := fun _ => needs (decide (v ≤ 79) || v == 0x8000 || v == 0xFFFF) abRange, eff := State.wr (bk 0xB sub b) v }
    else if sub = 0xD then { own := fun s => needs (v == 0 || !(s.kind b == 2 || s.kind b == 3)) abRange, eff := State.wr (bk 0xB sub b) v }
    else plainEff (0x400B + 0x20 * b) sub 0 v
  | 0x0E =>
    if 1 ≤ sub && sub ≤ 4 then setpointEff q b (sub - 1) v
    else if 5 ≤ sub && sub ≤ 8 then { own := fun s => needs (v == 0xFF || s.rd (key (0x6600 + v.toNat) 1) == b) abRange, eff := State.wr (bk 0xE sub b) v }
    else if sub = 9 then stagedTimeEff b v
    else plainEff (0x400E + 0x20 * b) sub 0 v
  | 0x13 => clearStatsEff b
  | 0x14 => if sub = 2 then swapEff b else copyEff q b
  | 0x15 =>
    if sub = 2 then breakerEff b v
    else if sub = 0x12 then { own := fun s => needs (decide (v < s.rd (bk 0x15 0x11 b))) abRange, eff := State.wr (bk 0x15 sub b) v }
    else plainEff (0x4015 + 0x20 * b) sub 0 v
  | _ => if (6 ≤ off && off ≤ 0xA) || off = 0x10 || off = 0x16 || off = 0x17 then offsetEff q b off sub v else plainEff (0x4000 + 0x20 * b + off) sub 0 v

/-- Slots (R82, R89). -/
def slotEff (q : Req) (index sub : Nat) (v : Int) : Eff :=
  if index < 0x6400 then
    let sl := index - 0x6000
    if sub = 6 || sub = 7 then stateEff q sl (sub - 6) v.toNat
    else if 0x10 ≤ sub && sub < 0x20 then bankEff q sl (0x18 ≤ sub) (sub % 8) v.toNat
    else plainEff index sub 0 v
  else
    let sl := 1024 + (index - 0x6400)
    if 0x30 ≤ sub && sub ≤ 0x3B then stateEff q sl (sub - 0x30) v.toNat
    else if 0x10 ≤ sub && sub < 0x30 then bankEff q sl (0x20 ≤ sub) (sub % 16) v.toNat
    else plainEff index sub 0 v

/-! ### Networks -/

/-- The entries that a PDO may map (R362); `rx` for an RPDO, which needs a writable one. -/
def mappable (index sub : Nat) (rx : Bool) : Bool :=
  let off := batchOff index
  ((off == some 2 && sub == 1) || (off == some 0xE && 1 ≤ sub && sub ≤ 4))
  || (!rx && ((off == some 1 && sub == 1) || (off == some 0xF && 1 ≤ sub && sub ≤ 8) || (index == 0x2000 && sub == 1)
    || (index == 0x2001 && (sub == 1 || sub == 2)) || (0x7820 ≤ index && index < 0x7824 && sub == 7) || (off == some 0x15 && sub == 0x13)))

/-- Whether a mapping entry names a mappable entry with its length; 0 maps nothing. -/
def mapOk (v : Nat) (rx : Bool) : Bool :=
  v == 0 || (mappable (v / 65536) (v / 256 % 256) rx && match descAt (v / 65536) (v / 256 % 256) with
    | some d => v % 256 == 8 * d.ty.bytes
    | none => false)

/-- The entries that PDO mapping object `o` maps. -/
def State.mapping (o : Nat) (s : State) : List Nat := ((List.range (s.rdN (key o 0))).map (fun e => s.rdN (key o (e + 1)))).filter (· != 0)

/-- 0x1600 and 0x1A00 (R362): mappable entries, 64 bytes in all. -/
def mappingEff (o sub : Nat) (v : Int) : Eff :=
  judged { own := fun _ => needs (sub == 0 || mapOk v.toNat (o < 0x1800)) 0x06040041, eff := State.wr (key o sub) v }
    (fun s => needs (decide (((s.mapping o).map (fun m => m % 256)).sum ≤ 512)) 0x06040041)

/-- Whether an entry may be a target of a subscription (R367): RW, no array, in no lock area. -/
def targetable (index sub : Nat) : Bool :=
  match descAt index sub with
  | some d => d.acc == .rw && d.n == 1 && !d.ty.isBlob && (lockArea index sub).isNone
  | none => false

/-- 0x2750 + s .07: an entry names a possible target and a conversion of Table 17-8; 0 names nothing. -/
def subEntryEff (o elem : Nat) (v : Int) : Eff where
  own _ :=
    let n := v.toNat
    needs (n == 0 || (targetable (n / 2 ^ 48) (n / 2 ^ 40 % 256) && n / 2 ^ 32 % 256 == 0 && n / 65536 % 256 ≤ 2)) abRange
  eff := State.wr (key o 7 elem) v

/-! ### Security -/

/-- 0x2600 .02 and .03: sets the lock bit of an area (R350). -/
def lockEff (area : Nat) : Eff where
  eff s := if s.bit (key 0x2600 1) area then s else (s.setBit (key 0x2600 1) area true).logEvent 0x0B03 0 (d8 area)

def execLockHardwareLimits (t : Time) (q : Req) (s : State) : Host.Outcome State Fault Refusal :=
  .next ((s.begin t).hostWrite q 0x2600 2 0 1 (lockEff 2))

def execLockSecurityConfiguration (t : Time) (q : Req) (s : State) : Host.Outcome State Fault Refusal :=
  .next ((s.begin t).hostWrite q 0x2600 3 0 1 (lockEff 3))

/-- The role key of rank r; empty while unset (R355). -/
def roleKeyAt (r : Nat) : Nat := key 0x2601 r
def State.keySet (r : Nat) (s : State) : Bool := !(s.blob (roleKeyAt r)).isEmpty

/-- 0x2601 .01 to .04: 32 bytes, or one of them (R373); stored in MRAM at once (R384). -/
def State.putKey (r elem : Nat) (l : List Byte) (s : State) : State :=
  let old := s.blob (roleKeyAt r)
  let new := if elem = 0 then l else (if old.isEmpty then List.replicate 32 0 else old).set (elem - 1) (l.headD 0)
  (s.wrBlob (roleKeyAt r) new).setBit (key 0x2601 5) (r - 1) true

/-- A write of a role key: it needs the service port as well as the role (R359, Table 17-9). -/
def State.writeKey (q : Req) (r elem : Nat) (l : List Byte) (s : State) : State :=
  if !s.serverUp then s
  else if s.longOp ≠ 0 then s.emit (.reply abBusy (s.progress) [])
  else
    let s := s.handling q.sid
    let c := s.writeCheck (if q.servicePort then q.role.rank else 0) true 0x2601 r elem (if elem = 0 && l.length != 32 then 0 else if elem = 0 then 1 else l.length) 0
    if c ≠ 0 then s.refuse q 0x2601 r c else (s.putKey r elem l).answer 0

def execRoleKey (t : Time) (q : Req) (r : Role) (key : List Byte) (s : State) : Host.Outcome State Fault Refusal :=
  .next ((s.begin t).writeKey q r.rank 0 key)

/-! ### Firmware (R370) -/

/-- The first segment on an active twin asks for a planned handover (R370, R313). -/
def State.updateAsks (s : State) : Bool := s.twinRole != 0 && s.authority == 1

/-- The last milestone of R370 that an update passes whose image checks give code `e`. -/
def updateCap (e : Nat) (l : List Byte) : Nat :=
  if e = 0 then 90 else if e = 0x0B000009 then 50 else if !(fwHeaderOk l) then 0 else if !(fwHashOk l) then 10 else 40

/-- 0x8F00.01: the final segment starts the firmware update. `first` says that the same write began it. -/
def firmwareEff (img : List Byte) (first : Bool) : Eff where
  own s := firstFail [needs (120 ≤ img.length) abLength, needs (!(first && s.updateAsks) || s.partnerEligible) 0x0B0000F4]
  eff s :=
    let s := if first && s.updateAsks then s.askHandover 3 else s
    { (s.startLong 6) with srv := { s.srv with longAt := s.now, longImg := img, longCap := updateCap (s.imageCheck img) img } }
  replies := false

def execFirmwareUpdate (t : Time) (q : Req) (img : List Byte) (s : State) : Host.Outcome State Fault Refusal :=
  .next ((s.begin t).hostBlob q 0x8F00 1 img (firmwareEff img true))

/-- 0x2320 + k .01 to .07 (R274): latency and σ of the chains that the output triggers, and what the recipes need of it (R23, R37, R39). -/
def pulseEff (k sub : Nat) (v : Int) : Eff :=
  judged { own := (tpoSettingEff k sub v).own
           eff := fun s => ((tpoSettingEff k sub v).eff s).retimed (s.triggeredChains (0x50 + k)) }
    (fun s => s.tuned (s.triggeredChains (0x50 + k)))

/-! ### Every entry -/

/-- What an accepted write of a value to an entry does. -/
def effOf (q : Req) (index sub elem : Nat) (v : Int) : Eff :=
  if 0x4000 ≤ index && index < 0x4400 then batchEff q ((index - 0x4000) / 0x20) (index % 0x20) sub v
  else if 0x3000 ≤ index && index < 0x3100 then channelEff (index - 0x3000) sub v
  else if 0x3400 ≤ index && index < 0x3700 then nodeEff (index - 0x3400) sub v
  else if 0x6000 ≤ index && index < 0x6440 then slotEff q index sub v
  else if 0x5000 ≤ index && index < 0x5050 then chainEff (index - 0x5000) sub v
  else if 0x5100 ≤ index && index < 0x5140 then detectorEff (index - 0x5100) sub v
  else if 0x6600 ≤ index && index < 0x6640 then
    (if sub = 2 then targetEff q (index - 0x6600) v else if sub = 0xA then genCmdEff q (index - 0x6600) v else plainEff index sub elem v)
  else if 0x6500 ≤ index && index < 0x6528 then queueEff (key index sub) v
  else if 0x3100 ≤ index && index < 0x3106 then
    (if sub = 0xA then driverClearEff (index - 0x3100) else if sub = 0xE then diagEff (index - 0x3100) else plainEff index sub elem v)
  else if 0x3700 ≤ index && index < 0x3718 then linkEff (index - 0x3700) sub v
  else if 0x5098 ≤ index && index < 0x50A0 then pairEff (index - 0x5098) sub v
  else if 0x50A0 ≤ index && index < 0x50A8 then testDacEff (index - 0x50A0) sub v
  else if 0x7010 ≤ index && index < 0x7020 then triggerEff (index - 0x7010) sub v
  else if 0x7030 ≤ index && index < 0x7040 then maskEff (index - 0x7030) sub v
  else if 0x7040 ≤ index && index < 0x70E0 then layoutEff index sub elem v
  else if 0x70E0 ≤ index && index < 0x7100 then (if sub = 9 then exportEff (index - 0x70E0) else releaseEff (index - 0x70E0))
  else if 0x7810 ≤ index && index < 0x781A then (if sub = 1 then stageEnableEff (index - 0x7810) v else islandSettingEff index sub v)
  else if 0x7820 ≤ index && index < 0x7824 then
    (if sub = 0xB then (if v = 1 then hostCloseEff (index - 0x7820) else hostOpenEff (index - 0x7820))
     else if sub = 0xC then ackEff (index - 0x7820) else islandSettingEff index sub v)
  else if 0x1600 ≤ index && index < 0x1610 || 0x1A00 ≤ index && index < 0x1A10 then mappingEff index sub v
  else if 0x2750 ≤ index && index < 0x2760 && sub = 7 then subEntryEff index elem v
  else if 0x2320 ≤ index && index < 0x2328 then
    (if sub = 8 then (if v = 1 then armTpoEff (index - 0x2320) else disarmTpoEff (index - 0x2320))
     else pulseEff (index - 0x2320) sub v)
  else match index, sub with
    | 0x2000, 3 => commandOf v.toNat
    | 0x2101, _ => domSwitchEff (sub - 1) v
    | 0x2200, 1 => referenceEff v
    | 0x2200, 0x14 => clearBandsEff
    | 0x2300, 2 => timeSourceEff v
    | 0x2300, 7 => authoriseEff
    | 0x2310, _ => ptpEff sub elem v
    | 0x2501, 5 => executeEff
    | 0x2501, _ => commitSettingEff sub elem v
    | 0x2510, 1 => twinRoleEff v
    | 0x2510, 0xF => plannedEff
    | 0x2510, 0x14 => bridgesEff v
    | 0x2510, 0x16 => closeBridgesEff
    | 0x2600, _ => lockEff sub
    | 0x2620, 3 => confirmEff
    | 0x2720, 1 => { own := fun _ => needs (decide (1024 ≤ v) && v != 39251) abRange, eff := State.wr (key index sub) v }
    | 0x3200, _ => pwmEff sub v
    | 0x5092, _ => modClockEff sub v
    | 0x7000, 1 => armEff (v == 1)
    | 0x7000, _ => if 4 ≤ sub && sub ≤ 8 then layoutEff index sub elem v else plainEff index sub elem v
    | 0x7100, 8 => archiveEff v.toNat
    | 0x7100, 0xA => if v = 1 then freezeEff q.servicePort else { eff := State.freezeEnd }
    | 0x7101, _ => logWindowEff sub v
    | 0x7800, 2 => islandLockEff 0
    | 0x7800, 3 => islandLockEff 1
    | 0x7801, _ => islandSettingEff index sub v
    | 0x7830, _ => islandSettingEff index sub v
    | 0x7840, _ => islandSettingEff index sub v
    | 0x7850, _ => islandSettingEff index sub v
    | _, _ => plainEff index sub elem v

/-- What an accepted write of a byte string does. -/
def blobEff (index sub : Nat) (l : List Byte) (first : Bool) : Eff :=
  if 0x8000 ≤ index && index < 0x8020 then recipeEff (index - 0x8000) l
  else if 0x8200 ≤ index && index < 0x8250 then bankWriteEff (index - 0x8200) l
  else if 0x8400 ≤ index && index < 0x8480 then envelopeEff ((index - 0x8400) / 4) (index % 4) l
  else if 0x8480 ≤ index && index < 0x8490 then maskEnvelopeEff (index - 0x8480) l
  else if index = 0x8F00 then firmwareEff l first
  else if 0x7040 ≤ index && index < 0x70E0 then channelTextEff (key index sub) l
  else { eff := State.wrBlob (key index sub) l }

end Sys2Proof.Machine
end

