-- ==== Sys2Proof/Machine/Live.lean ====
section
/-! DEFINITION. What a read of an entry gives (R346, R349): the number the dictionary holds, and, for the live entries, what the machine's
own state says at that instant; the measurement and status entries of a domain that is off (R322). -/

namespace Sys2Proof.Machine

/-- The measurement and live status entries of each domain, which read 0 while it is off (R322, Table 01-5). -/
def domainEntry (index sub : Nat) : Option Nat :=
  if 0x5000 ≤ index && index < 0x5050 && (sub == 0xE || (0x16 ≤ sub && sub ≤ 0x18) || (0x1D ≤ sub && sub ≤ 0x20)) then some 3
  else if 0x5080 ≤ index && index < 0x5092 && (0x10 ≤ sub && sub ≤ 0x18) then some 3
  else if 0x5098 ≤ index && index < 0x50A0 && (sub == 7 || sub == 8) then some 3
  else if 0x5100 ≤ index && index < 0x5140 && 8 ≤ sub && sub ≤ 0xC then some 3
  else if batchOff index == some 0xF then some 1
  else if 0x6000 ≤ index && index < 0x6440 && (sub == 5 || sub == 8) then some 1
  else if 0x6600 ≤ index && index < 0x6640 && ((7 ≤ sub && sub ≤ 9) || sub == 0xC) then some 1
  else if 0x6500 ≤ index && index < 0x6520 && sub == 5 then some 1
  else if 0x6540 ≤ index && index < 0x6558 && 1 ≤ sub && sub ≤ 3 then some 1
  else if index == 0x3108 && sub == 1 then some 2
  else if 0x3000 ≤ index && index < 0x3100 && 0xB ≤ sub && sub ≤ 0xF then some 2
  else if 0x3100 ≤ index && index < 0x3106 && (sub == 7 || sub == 8) then some 2
  else if index == 0x3106 && 1 ≤ sub && sub ≤ 3 then some 2
  else if 0x2320 ≤ index && index < 0x2328 && (sub == 9 || sub == 0xB) then some 2
  else if 0x3400 ≤ index && index < 0x3700 && (sub == 5 || (0xE ≤ sub && sub ≤ 0x12)) then some 4
  else if 0x3700 ≤ index && index < 0x3718 && sub == 0x13 then some 4
  else if index == 0x7802 || (0x7810 ≤ index && index < 0x781A && (sub == 8 || sub == 0xA)) then some 7
  else none

/-- Whether REFCLK_OUT is driven, at VCO/128 (R259, R396): on the rack master while PD2 runs the VCO; it is high-impedance otherwise. -/
def State.refclkDriven (s : State) : Bool := s.rackRole == 1 && s.domOn 2

/-- The base values that follow from rated power and voltage (R119), as F32: V̂, Î, Z, Î_p. -/
def State.baseValue (b sub : Nat) (s : State) : F32 :=
  let p := fval (s.rdF (bk 5 1 b))
  let v := fval (s.rdF (bk 5 2 b))
  match sub with
  | 7 => fsqrtRat (2 * v * v / 3)
  | 8 => fsqrtRat (2 * p * p / (3 * v * v))
  | 9 => fofRat (v * v / p)
  | _ => fsqrtRat (3 * p * p / (2 * v * v))

/-- Status bits from a list, bit 0 first. -/
def bitsOf (l : List Bool) : Nat := l.foldr (fun b n => b2n b + 2 * n) 0

/-- The live entries of fixed slot i (Table 04-4). -/
def State.fixedLive (i sub : Nat) (s : State) : Option Int :=
  let r := s.fx i
  match sub with
  | 3 => some (b2n r.st.bankB)
  | 5 => some r.st.y
  | 6 => some (unsigned 64 r.st.s1 : Nat)
  | 7 => some (unsigned 64 r.st.s2 : Nat)
  | 8 => some (bitsOf [r.st.satHigh, r.st.satLow, r.held, r.ovf, r.st.feAlarm, s.fxValid i (!r.st.bankB)] : Nat)
  | 0xF => some r.st.feCount
  | _ => none

/-- The live entries of float slot i (Table 04-5). -/
def State.floatLive (i sub : Nat) (s : State) : Option Int :=
  let r := s.fl i
  match sub with
  | 3 => some (b2n r.st.bankB)
  | 5 => some r.st.y.toNat
  | 8 => some (bitsOf [r.st.sat, false, false, r.nan, r.st.feAlarm, true] : Nat)
  | 0xF => some r.st.feCount
  | _ => if 0x30 ≤ sub && sub ≤ 0x3B then some (r.st.s.getD (sub - 0x30) 0).toNat else none

/-- Whether a proof check runs: one that waits under R327 has not started. -/
def State.checking (s : State) : Bool :=
  match s.power.check with
  | some r => decide (r.start ≤ s.now)
  | none => false

/-- The selected entry of the repair map (Table 16-10). -/
def State.repairSelected (s : State) : Nat :=
  match s.power.repair[s.rdN (key 0x2400 9)]? with
  | some r => r.kind * 2 ^ 56 + r.inst * 2 ^ 40 + r.cause * 2 ^ 32 + r.tai / 1000000000 % 2 ^ 32
  | none => 0

/-- Sessions that are open (0x2610.05): every Open that was not refused, discarded or closed. -/
def State.openSessions (s : State) : Nat := s.srv.sessions.length

/-- The live entries of batch b's objects. -/
def State.batchLive (b off sub : Nat) (s : State) : Option Int :=
  match off, sub with
  | 1, 3 => some (min 0xFFFFFFFF (Time.toMs (s.now - (s.batch b).since)) : Nat)
  | 4, 5 => some (s.fineF b)
  | 0xB, 0x11 => some (withBit (s.rdN (bk 0xB 0x11 b)) 8
      (s.bit (bk 0xB 0x11 b) 8 && decide (s.rd (bk 0xB 0xB b) ≤ (s.dcLevel b).getD (s.rd (bk 0xB 0xB b)))) : Nat)
  | 0xA, 0x12 => some (withBit (s.rdN (bk 0xA 0x12 b)) 3 (80 ≤ s.rdN (bk 5 6 b) || s.trackLost (s.rdN (bk 5 6 b))) : Nat)
  | 0xC, 0xF => some (withBit (s.rdN (bk 0xC 0xF b)) 4 (s.bit (key 0x7800 9) b) : Nat)
  | 0x12, 5 => some (withBit (s.rdN (bk 0x12 5 b)) 6 (s.feAlarms b) : Nat)
  | 5, _ => if 7 ≤ sub && sub ≤ 0xA then some (s.baseValue b sub).toNat else none
  | _, _ => match s.recipe b with
    | none => none
    | some r => (r.viewCoef off sub).map (fun co => s.viewRead b off sub r co)

/-- The entries that show a register of an enumerated node (Table 10-11): 0x001C, 0x0020 and 0x0024 as they stand (notes/assumptions/115). -/
def State.nodeLive (n sub : Nat) (s : State) : Option Int :=
  let r := s.node n
  if s.rdN (ndk n 5) < 2 then (if sub = 0x13 || sub = 0x14 || sub = 0x18 then some 0 else none)
  else match sub with
    | 0x13 => some r.epoch
    | 0x14 => some (r.missed % 2 ^ 32 : Nat)
    | 0x18 => some (r.late % 2 ^ 32 : Nat)
    | _ => none

/-- The entries of queue q that follow its batch (Table 03-4): occupancy, home lane, dictionary jobs waiting. -/
def State.queueLive (q sub : Nat) (s : State) : Option Int :=
  let b := (s.queue q).batch
  match sub with
  | 5 => some (s.occupancy b)
  | 0xC => some ((s.batch b).home.getD 0xFF : Nat)
  | 0x12 => some (min 28 (s.batch b).jobs.length : Nat)
  | _ => none

/-- The entries of lane l that follow the homes (Table 03-8): state, batches homed, load. -/
def State.laneLive (l sub : Nat) (s : State) : Option Int :=
  match sub with
  | 1 => some (s.lane l).state.code
  | 5 => some (s.laneHomed l)
  | 6 => some (s.laneLoad l)
  | _ => none

/-- Whether CAN port k is bus-off (R360): under ISO 11898-1 it has recovered after 128 occurrences of 11 recessive bits at the nominal rate, on an
idle bus (DEDUCED, notes/assumptions/96). -/
def State.busIsOff (k : Nat) (s : State) : Bool :=
  s.bit (key (0x2710 + k) 8) 2 && (match Tbl.find? k s.net.busOff with
    | some t => decide (s.now < t + Time.ns (1408000000 / s.rdN (key (0x2710 + k) 3)))
    | none => true)

/-- What the Ethernet ports see (Table 17-13), `i` and `sub` being the offset in 0x2700 to 0x270B and the subindex: status, duplicates discarded,
link, frame counters. No command brings a frame at a port, and the value is free within its range (notes/assumptions/98). -/
def State.portLive (i sub : Nat) (s : State) : Option Int :=
  let x := (Config.portFigure (key (0x2700 + i) sub) s.now).toNat
  if i < 2 then (if sub = 5 then some (x % 16 : Nat) else if sub = 6 then some x else none)
  else if 8 ≤ i && sub = 1 then some (x % 4 : Nat)
  else if 8 ≤ i && 2 ≤ sub && sub ≤ 4 then some x
  else none

/-- The status of CAN port k (Table 17-14): 1 error active, 2 error passive, 4 bus-off. No command brings the error counters, so which of the
first two it is stays free (notes/assumptions/96). -/
def State.canStatus (k : Nat) (s : State) : Nat :=
  if !(s.rdB (key (0x2710 + k) 1)) then 0 else if s.busIsOff k then 4 else if Config.canPassive k s.now then 2 else 1

/-- What the machine's own state says of an entry; none where the dictionary's number is the value. -/
def State.own? (index sub : Nat) (s : State) : Option Int :=
  if 0x4000 ≤ index && index < 0x4400 then s.batchLive ((index - 0x4000) / 0x20) (index % 0x20) sub
  else if 0x6000 ≤ index && index < 0x6400 then s.fixedLive (index - 0x6000) sub
  else if 0x6400 ≤ index && index < 0x6440 then s.floatLive (index - 0x6400) sub
  else if 0x3400 ≤ index && index < 0x3700 then s.nodeLive (index - 0x3400) sub
  else if 0x3000 ≤ index && index < 0x3100 then
    (if sub = 0xF then some (withBit (withBit (s.rdN (key index 0xF)) 5 (s.chanExtended (index - 0x3000))) 6 (s.testActive (index - 0x3000)) : Nat) else none)
  else if 0x3100 ≤ index && index < 0x3106 then
    (if sub = 7 then some (s.bootVolt (index - 0x3100)) else if sub = 8 then some (s.driverStatus (index - 0x3100)) else none)
  else if 0x6500 ≤ index && index < 0x6520 then s.queueLive (index - 0x6500) sub
  else if 0x6540 ≤ index && index < 0x6558 then s.laneLive (index - 0x6540) sub
  else if 0x5000 ≤ index && index < 0x5050 then
    (if (if isSd (index - 0x5000) then sub == 2 else (4 ≤ sub && sub ≤ 6) || sub == 0x14) then some 0 else none)
  else if 0x5098 ≤ index && index < 0x50A0 then
    (if sub = 8 then some (withBit (s.rdN (key index 8)) 3 (s.resultsInvalid (index - 0x5098)) : Nat) else none)
  else if 0x7810 ≤ index && index < 0x781A then (if sub = 0xA then some (s.stageTimer (index - 0x7810)) else none)
  else if 0x2320 ≤ index && index < 0x2328 then (if sub = 9 then some (withBit (s.rdN (key index 9)) 3 s.pwm.bypass : Nat) else none)
  else if index = 0x3106 && (sub = 1 || sub = 2) then some (s.supplyMv sub)
  else if (index = 0x2710 || index = 0x2711) && sub = 8 then some (s.canStatus (index - 0x2710))
  else if 0x2700 ≤ index && index < 0x270C then s.portLive (index - 0x2700) sub
  else match index, sub with
    | 0x2001, 2 => some s.progress
    | 0x2110, 0xF => some (withBit (s.rdN (key 0x2110 0xF)) 3 s.checking : Nat)
    | 0x2103, 2 => some (Config.inputPower s.now).toNat
    | 0x2103, 6 => some (Config.inletTemp s.now).toInt
    | 0x2200, 0x10 => some s.rideLeft
    | 0x2200, 0x11 => some (if s.bit (ckc 3) 1 then (Config.refclkDeviation s.now).toInt else 0)
    | 0x2300, 1 => some s.tai
    | 0x2400, 0xA => some s.repairSelected
    | 0x2510, 6 => some s.pairState
    | 0x2510, 9 => some (if s.twinRole = 0 then 0 else s.health : Nat)
    | 0x2510, 0xE => some (if s.twinRole = 0 then 0 else s.ownDigest : Nat)
    | 0x2610, 5 => some s.openSessions
    | 0x3200, 3 => some s.clockMode
    | 0x3200, 0xD => some (bitsOf s.pwm.low : Nat)
    | 0x3108, 1 => some (if s.pinsDriven then s.pinLevels else 0 : Nat)
    | 0x3108, 2 => some (b2n (!s.pinsDriven))
    | 0x7000, 0xB => some s.bufferRecords
    | 0x7000, 0xC => some s.recordBytes
    | 0x7000, 0xD => some s.freeBuffers
    | 0x7000, 0x13 => some s.rackRole
    | 0x7100, 0xB => some s.freezeLeft
    | 0x7101, _ => if 2 ≤ sub then some (s.logWindow sub) else none
    | 0x7800, 4 => some (s.rdN (key 0x2600 1) % 4 : Nat)
    | 0x7800, 5 => some s.settingsCrc
    | _, _ => none

/-- The number that a read of element `elem` of entry `index.sub` gives. -/
def State.live (index sub elem : Nat) (s : State) : Int :=
  match domainEntry index sub with
  | some d => if s.domOn d then (s.own? index sub).getD (s.rd (key index sub elem)) else 0
  | none => (s.own? index sub).getD (s.rd (key index sub elem))

/-- A name as UTF-8 bytes (Table 17-1). -/
def utf8 (t : String) : List Byte := t.toList.map (fun c => BitVec.ofNat 8 c.toNat)

/-- The software version: the running image's version word in hexadecimal digits (notes/assumptions/61). -/
def State.softwareVersion (s : State) : List Byte :=
  let v := s.rdN (fwk 4 (1 + s.fwRuns))
  (List.range 8).map (fun i =>
    let d := v / 16 ^ (7 - i) % 16
    BitVec.ofNat 8 (if d < 10 then 0x30 + d else 0x37 + d))

/-- The byte string that a read of entry `index.sub` gives. -/
def State.blobOf (index sub : Nat) (s : State) : List Byte :=
  match index, sub with
  | 0x1008, 0 => utf8 "Celesque Jazal 256"
  | 0x100A, 0 => s.softwareVersion
  | 0x1FF0, 1 => utf8 "Brixoz Microsystems"
  | 0x1FF0, 2 => s.orderCode
  | 0x8700, 1 => s.snapshotBytes
  | _, _ => s.blob (key index sub)

/-- The bytes of a whole entry or of one element (R346). -/
def State.entryBytes (d : Desc) (index sub elem : Nat) (s : State) : List Byte :=
  if d.ty.isBlob then s.blobOf index sub
  else if d.n = 1 || elem ≠ 0 then d.ty.toBytes (s.live index sub elem)
  else (List.range d.n).flatMap (fun e => d.ty.toBytes (s.live index sub (e + 1)))

/-- The checks of a read (R348): existence and access; every role may read (Table 17-9). A COMTRADE file is there once exported
(R286). 0 is a pass. -/
def State.readCheck (index sub elem : Nat) (s : State) : Nat :=
  match descAt index sub with
  | none => if indexExists index then (if sub = 0 && isRecord index then (if elem = 0 then 0 else abNoSub) else abNoSub) else abNoIndex
  | some d =>
    if (d.n == 1 && elem != 0) || d.n < elem then abNoSub
    else if d.acc == .wo then abWriteOnly
    else if 0x8600 ≤ index && index < 0x8620 && s.rdN (bfk (index - 0x8600) 1) != 5 then 0x0B0000D2
    else 0

/-- What a read that passed answers. -/
def State.readBytes (index sub elem : Nat) (s : State) : List Byte :=
  match descAt index sub with
  | none => d8 (subMax index)
  | some d => s.entryBytes d index sub elem

end Sys2Proof.Machine
end

