-- ==== Sys2Proof/Machine/Server.lean ====
section
/-! DEFINITION. The dictionary server on its paths (R348 to R361): generic reads and writes, segments, sessions of the datagram protocol, the
rack master's gateway, forwarded writes of a twin, USDO. -/

namespace Sys2Proof.Machine

/-! ### Writes of any entry (R348) -/

/-- A write of a byte string. -/
def State.writeBlob (q : Req) (rank : Nat) (host : Bool) (index sub elem : Nat) (l : List Byte) (first : Bool) (s : State) : State :=
  let c := if elem ≠ 0 then abNoSub else s.blobCheck rank host index sub l.length
  if c ≠ 0 then s.refuse q index sub c
  else if s.srv.transfers.any (fun x => x.1 == key index sub && x.2.sid != q.sid) then s.refuse q index sub abInUse
  else s.carryOut index sub 0 l (blobEff index sub l first)

/-- A write of a whole array (R346): its length, then each element in order. -/
def State.writeArray (q : Req) (d : Desc) (rank : Nat) (host : Bool) (index sub : Nat) (l : List Byte) (s : State) : State :=
  let w := d.ty.bytes
  let len := if l.length = d.n * w then w else w + 1
  let vs := (List.range d.n).map (fun e => d.ty.ofBytes (Sys2Proof.slice (e * w) w l))
  let c := firstFail ((List.range d.n).map (fun e => s.writeCheck rank host index sub (e + 1) len (vs.getD e 0)))
  if c ≠ 0 then s.refuse q index sub c
  else s.carryOut index sub 0 l (allEff ((List.range d.n).map (fun e => effOf q index sub (e + 1) (vs.getD e 0))))

/-- A write of one value. A value whose length does not match counts as one that the role table does not list (R368). -/
def State.writeValue (q : Req) (rank : Nat) (host : Bool) (index sub elem : Nat) (l : List Byte) (s : State) : State :=
  let ty := ((descAt index sub).map (·.ty)).getD (.u 1)
  let v := if l.length = ty.bytes then ty.ofBytes l else 0
  let c := s.writeCheck rank host index sub elem l.length v
  if c ≠ 0 then s.refuse q index sub c else s.carryOut index sub elem l (effOf q index sub elem v)

/-- A write of entry `index.sub` by requester q with rank `rank`; `host` is false for subscriptions, RPDOs and forwarded writes, `first`
says that this request began the transfer. -/
def State.write (q : Req) (rank : Nat) (host : Bool) (index sub elem : Nat) (l : List Byte) (first : Bool) (s : State) : State :=
  let was := s.longOp
  let s := s.handling q.sid
  let s := match descAt index sub with
    | none => s.writeValue q rank host index sub elem l
    | some d =>
      if index = 0x2601 && sub ≤ 4 then s.writeKey q sub elem l
      else if d.ty.isBlob then s.writeBlob q rank host index sub elem l first
      else if 1 < d.n && elem = 0 then s.writeArray q d rank host index sub l
      else s.writeValue q rank host index sub elem l
  let s := s.longBy q was
  if digestWrite index sub && s.twinRole ≠ 0 then s.followDigest.syncTwin else s

/-! ### Dictionary jobs (R64, R304) -/

/-- What a forwarded write of an entry does when its job runs. -/
def entryEff (q : Req) (index sub elem : Nat) (l : List Byte) : Eff :=
  match descAt index sub with
  | none => { eff := id }
  | some d =>
    if d.ty.isBlob then blobEff index sub l true
    else if 1 < d.n && elem = 0 then
      allEff ((List.range d.n).map (fun e => effOf q index sub (e + 1) (d.ty.ofBytes (Sys2Proof.slice (e * d.ty.bytes) d.ty.bytes l))))
    else effOf q index sub elem (d.ty.ofBytes l)

/-- A job of batch b is carried out and answered (R64, R352). -/
def State.carryJob (b : Nat) (j : Job) (q : Req) (s : State) : State :=
  let (s, e) := match j with
    | .entry index sub elem l => ((entryEff q index sub elem l).eff s, 0)
    | j => s.runJob b j
  let s := s.finish q.sid e
  if s.twinRole ≠ 0 then s.followDigest.syncTwin else s

/-! ### Writes beside the server: subscriptions and RPDOs (R362, R367) -/

/-- Writes beside the dictionary server, of a subscription or an RPDO: nobody is answered. -/
def State.fieldWrite (index sub : Nat) (l : List Byte) (s : State) : State :=
  (s.write { role := .safety, servicePort := false, sid := nobody } 4 false index sub 0 l true).sessionReply nobody

def sbk (i sub : Nat) : Nat := key (0x2750 + i) sub

/-- The entries of subscription i that name a target. -/
def State.subEntries (i : Nat) (s : State) : List Nat :=
  ((List.range (s.rdN (sbk i 8))).map (fun e => s.rdN (key (0x2750 + i) 7 (e + 1)))).filter (· != 0)

/-- The type of an entry's target. -/
def targetTy (e : Nat) : Ty := ((descAt (e / 2 ^ 48) (e / 2 ^ 40 % 256)).map (·.ty)).getD (.vstr 0)

/-- An integer saturated to an integer type; none where the type is no integer type. -/
def saturated (ty : Ty) (v : Int) : Option Int :=
  let w := 8 * ty.bytes
  match ty with
  | .u _ => some (clampI v 0 (2 ^ w - 1))
  | .i _ => some (clampI v (-(2 ^ (w - 1))) (2 ^ (w - 1) - 1))
  | .q15 => some (clampI v (-32768) 32767)
  | _ => none

/-- The position of a Dbpos code: on (10) 0, off (01) 1, intermediate or bad 2 (Table 17-8). -/
def dbposValue (c : Nat) : Int := if c = 2 then 0 else if c = 1 then 1 else 2

/-- A member under a conversion of Table 17-8, for a target type; none where it does not suit. -/
def convert (conv : Nat) (ty : Ty) (v : GooseVal) : Option Int :=
  let flag := ty == .bool || ty == .u 1
  match conv, v with
  | 0, .bool b => if flag then some (b2n b) else none
  | 0, .int i => saturated ty i
  | 0, .uint n => saturated ty n
  | 0, .float f => if ty == .f32 then some f.toNat else none
  | 1, .dbpos c => saturated ty (dbposValue c)
  | 2, .bool b => if flag then some (b2n (!b)) else none
  | _, _ => none

/-- One entry takes its member; one whose member does not suit is skipped and counted (at .0B; notes/assumptions/66). -/
def State.applyEntry (i : Nat) (m : GooseMsg) (e : Nat) (s : State) : State :=
  let ty := targetTy e
  match (m.members[e / 2 ^ 24 % 256]?).bind (convert (e / 65536 % 256) ty) with
  | some v => s.fieldWrite (e / 2 ^ 48) (e / 2 ^ 40 % 256) (ty.toBytes v)
  | none => s.inc (sbk i 0xB)

/-- The batches whose objects an accepted message writes (R367). -/
def State.gooseBatches (i : Nat) (s : State) : List Nat :=
  (((s.subEntries i).map (fun e => s.entryBatch (e / 2 ^ 48))).filter (· < 32)).eraseDups

/-- The entries of a message are written together (R367); what of them is a dictionary job is carried out with them. -/
def State.gooseWrite (i : Nat) (m : GooseMsg) (s : State) : State :=
  let n (b : Nat) : Nat := (s.batch b).jobs.length
  let bs := s.gooseBatches i
  let s := s.each (s.subEntries i) (fun e s => s.applyEntry i m e)
  s.each bs (fun b s =>
    let js := (s.batch b).jobs.drop (n b)
    (s.modBatch b (fun r => { r with jobs := r.jobs.take (n b) })).each js (fun j s => s.carryJob b j.1 j.2))

/-- They fall between two cycles of every batch concerned (R367): while a cycle of one runs, the message waits as a job of that batch
(DEDUCED, notes/assumptions/128). -/
def State.gooseApply (i : Nat) (m : GooseMsg) (s : State) : State :=
  match (s.gooseBatches i).find? (fun b => (s.batch b).cyc.isSome) with
  | some b => (s.modBatch b (fun r => { r with jobs := r.jobs ++ [(.goose i m, { role := .safety, servicePort := false, sid := nobody })] })).notePeak b
  | none => s.gooseWrite i m

/-- DICTIONARY_JOB (R64): the front job runs while no work item of the batch is enqueued, eligible or running. -/
def State.dictionaryJob (b : Nat) (s : State) : State :=
  let r := s.batch b
  match r.cyc, r.jobs with
  | none, (j, q) :: rest =>
    let s := s.setBatch b { r with jobs := rest }
    match j with
    | .goose i m => s.gooseApply i m
    | j => s.carryJob b j q
  | _, _ => s

def execDictionaryJob (t : Time) (b : Batch) (s : State) : Host.Outcome State Fault Refusal := .next ((s.begin t).dictionaryJob b)

/-! ### Reads (R348, R25, R224) -/

/-- Whether an entry is a node's register data, whose read goes over the node's link (R224). -/
def isNodeData (index sub : Nat) : Bool := decide (0x3400 ≤ index) && decide (index < 0x3700) && sub == 0x1D

/-- Answers a read of an entry: a node register is read over its link, a slot result loses its fresh bit. -/
def State.readReply (sid index sub elem limit : Nat) (s : State) : State :=
  let s := s.handling sid
  let c := s.readCheck index sub elem
  let l := s.readBytes index sub elem
  if c ≠ 0 then s.answer c
  else if limit < l.length then s.answer abTooLong
  else if isNodeData index sub then s.nodeRead (index - 0x3400) none
  else
    (s.noteRead index sub).emit (.reply 0 0 l)

/-! ### Segments (R352, R357) -/

def State.transfer (index sub : Nat) (s : State) : Option Transfer := Tbl.find? (key index sub) s.srv.transfers
def State.dropTransfer (index sub : Nat) (s : State) : State := s.modSrv (fun r => { r with transfers := Tbl.erase (key index sub) r.transfers })
def State.putTransfer (index sub : Nat) (x : Transfer) (s : State) : State := s.modSrv (fun r => { r with transfers := Tbl.set (key index sub) x r.transfers })

/-- What a segment of a write may meet before its data is taken (R348): existence, role, access, state, lock and ownership. -/
def State.segmentAccess (q : Req) (index sub : Nat) (s : State) : Nat := s.accessCheck q.role.rank true index sub 0 0

/-- What it may meet then: the length so far; a batch that is not Off (R94). -/
def State.segmentCheck (index sub len : Nat) (s : State) : Nat :=
  match descAt index sub with
  | none => 0
  | some d =>
    if d.ty.isBlob then
      firstFail [blobLength index sub len,
        needs (!(0x8000 ≤ index && index < 0x8020) || s.bstate (index - 0x8000) == .off) 0x0B000050]
    else if d.n * d.ty.bytes < len then abLength else 0

/-- A segment of a write: offset 0 begins, discarding this session's earlier transfer, refused or not; a later one must follow on, or the transfer
is discarded; the last one completes the write (R357). -/
def State.segmentWrite (q : Req) (index sub offset : Nat) (last : Bool) (l : List Byte) (s : State) : State :=
  let mine := (s.transfer index sub).filter (fun x => x.sid == q.sid)
  let got := if offset = 0 then [] else (mine.map (·.data)).getD []
  let s := if offset = 0 && mine.isSome then s.dropTransfer index sub else s
  let c := s.segmentAccess q index sub
  let e := s.segmentCheck index sub (got.length + l.length)
  if c ≠ 0 then (s.handling q.sid).refuse q index sub c
  else if (s.transfer index sub).isSome && mine.isNone then s.answer abInUse
  else if offset ≠ got.length || (offset ≠ 0 && mine.isNone) then (s.dropTransfer index sub).answer 0x0B00000B
  else if e ≠ 0 then (s.handling q.sid).refuse q index sub e
  else
    let asks := offset = 0 && index = 0x8F00 && s.updateAsks
    if asks && !s.partnerEligible then s.answer 0x0B0000F4
    else if last then (s.dropTransfer index sub).write q q.role.rank true index sub 0 (got ++ l) (offset == 0)
    else
      let s := if asks then s.askHandover 3 else s
      (s.putTransfer index sub ⟨q.sid, got ++ l, s.now⟩).answer 0

/-- A segment read of up to `limit` bytes: a node register is read over its link; offset 0 takes a snapshot and counts as the read, later offsets read it, the segment that reaches the end releases
it. -/
def State.segmentRead (sid index sub offset limit : Nat) (s : State) : State :=
  let c := s.readCheck index sub 0
  if c ≠ 0 then s.answer c
  else if offset = 0 && isNodeData index sub then s.nodeRead (index - 0x3400) (some limit)
  else
    let e := key index sub
    let data : Option (List Byte) := if offset = 0 then some (s.readBytes index sub 0)
      else (s.srv.snaps.find? (fun x => x.sid == sid && x.entry == e)).map (·.data)
    let s := s.modSrv (fun r => { r with snaps := r.snaps.filter (fun x => !(x.sid == sid && x.entry == e)) })
    let s := if offset = 0 then s.noteRead index sub else s
    match data with
    | none => s.answer 0x0B00000B
    | some l =>
      if l.length < offset then s.answer 0x0B00000B
      else s.segmentOf sid e offset limit l

def execTransferTimeout (t : Time) (index sub : Nat) (s : State) : Host.Outcome State Fault Refusal :=
  let s := s.begin t
  .next (match s.transfer index sub with
    | some x => s.when (x.at_ + Time.sec 10 ≤ s.now) (State.dropTransfer index sub)
    | none => s)

def execSnapshotRelease (t : Time) (sid index sub : Nat) (s : State) : Host.Outcome State Fault Refusal :=
  .next ((s.begin t).modSrv (fun r => { r with snaps := r.snaps.filter (fun x =>
    !(x.sid == sid && x.entry == key index sub && decide (x.at_ + Time.sec 10 ≤ max t s.now))) }))

/-! ### Services of Table 17-6 on any path -/

/-- The services 0x10 to 0x13 for requester q; `limit` bytes go into one answer. -/
def State.serve (q : Req) (svc index sub elem offset : Nat) (last : Bool) (l : List Byte) (limit : Nat) (s : State) : State :=
  match svc with
  | 0x10 => s.readReply q.sid index sub elem limit
  | 0x11 => s.write q q.role.rank true index sub elem l true
  | 0x12 => (s.handling q.sid).segmentRead q.sid index sub offset limit
  | _ => s.segmentWrite q index sub offset last l

/-! ### Sessions (R353 to R356, R359) -/

/-- The role of a rank. -/
def roleOf (r : Nat) : Role := match r with
  | 1 => .observer
  | 2 => .operator
  | 3 => .engineer
  | _ => .safety

def Session.req (x : Session) (sid : Nat) : Req := { role := roleOf x.rank, servicePort := x.service, sid := sid }

/-- The bytes of a request before its tag (Table 17-5). -/
def requestBytes (svc : Nat) (d : Datagram) : List Byte :=
  datagramBytes svc d.sid d.seq d.index d.sub d.elem (2 * b2n d.last + 16 * d.target) 0 d.param d.data

/-- Whether a source address is ignored (R355); the service port never is (R359). -/
def State.ignores (d : Datagram) (s : State) : Bool :=
  !d.service && match Tbl.find? d.src s.srv.blocked with
    | some t => decide (s.now < t)
    | none => false

/-- Counts a datagram against its pair's rate limit, over seconds that begin with a datagram (R353; notes/assumptions/63). Says whether
it is within the limit. -/
def State.rateOk (d : Datagram) (s : State) : Bool × State :=
  if d.service then (true, s)
  else
    let fresh := match Tbl.find? d.pair s.srv.rateStart with
      | some t => decide (t + Time.sec 1 ≤ s.now)
      | none => true
    let n := if fresh then 1 else Tbl.get 0 d.pair s.srv.rateCount + 1
    let s := s.modSrv (fun r => { r with rateCount := Tbl.set d.pair n r.rateCount
                                         rateStart := if fresh then Tbl.set d.pair s.now r.rateStart else r.rateStart })
    if n ≤ s.rdN (key 0x2720 3) then (true, s) else (false, s.inc (key 0x2720 4))

/-- A datagram reaches the protocol: the server runs, the pair is enabled and the port is the protocol's (R353), the source is not ignored, the rate holds. -/
def State.arriving (d : Datagram) (f : State → State) (s : State) : State :=
  if !s.serverUp || !(d.service || (s.bit (key 0x2720 2) d.pair && s.rdN (key 0x2720 1) == d.dstPort)) || s.ignores d then s
  else
    let (ok, s) := s.rateOk d
    if ok then f s else s

/-- A datagram discarded without a response (R354). -/
def State.discard (s : State) : State := s.inc (key 0x2610 7)

/-- A session ends: its transfers and snapshots go with it (R352). -/
def State.endSession (sid : Nat) (s : State) : State :=
  s.modSrv (fun r => { r with sessions := r.sessions.filter (fun x => x.1 != sid), snaps := r.snaps.filter (fun x => x.sid != sid)
                              transfers := r.transfers.filter (fun x => x.2.sid != sid) })

/-- The answer to an Open, whose tag is zeros (R354). -/
def State.openReply (d : Datagram) (sid flags progress e : Nat) (l : List Byte) (s : State) : State :=
  s.datagram d (datagramBytes 1 sid d.seq d.index d.sub d.elem flags progress e l ++ List.replicate 16 0)

/-- Whether the latch button was pressed within the presence window (R359). -/
def State.present (s : State) : Bool :=
  match s.power.presence with
  | some p => decide (s.now ≤ p + Time.sec (s.rdN (key 0x2610 9)))
  | none => false

/-- Why an Open for role rank r is refused; 0 where it is not (R355, R359). -/
def State.openRefusal (d : Datagram) (r : Nat) (s : State) : Nat :=
  firstFail [needs (d.data.length == 20) abLength, needs (decide (1 ≤ r ∧ r ≤ 4)) abRange,
    needs (!d.service || s.present) abPresence, needs (d.service || s.keySet r) abRole,
    needs (decide (s.openSessions < s.rdN (key 0x2610 2)) && !(d.service && s.srv.sessions.any (fun x => x.2.service))) 0x0B00000D]

/-- The bytes of a text. -/
def label (t : String) : List Byte := utf8 t

/-- A session holds its role from now on: event 0x0B00. -/
def State.sessionOpened (sid : Nat) (x : Session) (s : State) : State :=
  s.logEvent 0x0B00 0 (d32 sid ++ d8 x.rank ++ d32 x.src)

/-- OPEN (R355, R359), with a tag of zeros (R354). Its sequence is the session's first (notes/assumptions/64). -/
def State.openSession (d : Datagram) (s : State) : State :=
  if !d.magic || d.tag.any (· != 0) then s.discard
  else if s.longOp ≠ 0 then s.openReply d 0 5 (s.progress) abBusy []
  else
    let r := (d.data.headD 0).toNat
    let e := s.openRefusal d r
    if e ≠ 0 then s.openReply d 0 1 0 e []
    else
      let sid := s.srv.nextSid
      let (n, s) := s.draw
      let nm := leBytes 16 (Config.nonce n).toNat
      let k := s.blob (roleKeyAt r)
      let nonces := Sys2Proof.slice 4 16 d.data ++ nm ++ d32 sid
      let free := d.service && k.isEmpty
      let x : Session :=
        { src := if d.service then 0 else d.src, service := d.service, rank := r
          key := if free then none else some (hmac k (label "BDSK" ++ nonces))
          proof := if free then [] else hmac k (label "BDPR" ++ nonces ++ d8 r)
          proved := free, lastSeq := some d.seq, opened := s.now, heard := s.now }
      let s := (s.setSession sid x).modSrv (fun v => { v with nextSid := (sid + 1) % 2 ^ 32 })
      let s := if free then s.sessionOpened sid x else s
      s.openReply d sid 1 0 0 nm

def execOpen (t : Time) (d : Datagram) (s : State) : Host.Outcome State Fault Refusal := .next ((s.begin t).arriving d (State.openSession d))

/-- A request that session `sid` takes for handling: BUSY during a long operation, which does not accept it (R351, R356). -/
def State.accepting (d : Datagram) (f : State → State) (s : State) : State :=
  if s.longOp ≠ 0 then s.respond d.sid 5 (s.progress) abBusy [] false
  else
    let s := f s
    let said := s.out.any (fun o => match o with
      | .reply _ _ _ => true
      | _ => false)
    let s := s.sessionReply d.sid
    match s.session d.sid with
    | some x => if said || x.lastSeq = some d.seq then s else s.setSession d.sid { x with lastSeq := some d.seq, resp := none, was := x.resp, owes := true }
    | none => s

/-- The sequence rules of R356. -/
def State.sequenced (d : Datagram) (x : Session) (f : State → State) (s : State) : State :=
  let last := x.lastSeq.getD 0
  if d.seq = last then
    match x.resp with
    | some l => s.datagram d l
    | none => if s.longOp ≠ 0 && s.srv.longSid = d.sid then s.respond d.sid 5 (s.progress) abBusy [] false else s
  else if d.seq = (last + 1) % 2 ^ 32 then f s
  else s.inc (key 0x2610 8)

/-- A datagram of an open session: magic, session and tag, then the sequence, then the request (R354 to R356). Before its Prove a session
takes nothing else; one that is owed an answer accepts no further request, which is answered BUSY (DEDUCED, notes/assumptions/65). -/
def State.request (svc : Nat) (d : Datagram) (f : Session → State → State) (s : State) : State :=
  s.arriving d (fun s =>
    match s.session d.sid with
    | none => s.discard
    | some x =>
      if !d.magic || d.tag ≠ tagOf x.key (requestBytes svc d) || d.service ≠ x.service || (!x.proved && svc ≠ 2) then s.discard
      else
        let x := { x with heard := s.now }
        let fresh := d.seq = (x.lastSeq.getD 0 + 1) % 2 ^ 32
        let s := s.setSession d.sid (if fresh && !x.owes then { x with hdr := some (svc, d) } else x)
        if fresh && x.owes then s.busy svc d x else s.sequenced d x (fun s => s.accepting d (f x)))

/-- PROVE (R355). -/
def State.prove (d : Datagram) (x : Session) (s : State) : State :=
  if x.proved then s.answer abState
  else if d.data = x.proof then
    let s := match s.session d.sid with
      | some y => s.setSession d.sid { y with proved := true }
      | none => s
    (s.sessionOpened d.sid x).answer 0
  else
    let s := s.inc (key 0x2610 6)
    let (n, s) := s.draw
    let s := s.answer (Config.failedProofAbort n).toNat
    if x.service then s
    else
      let recent := ((Tbl.get [] x.src s.srv.failed).filter (fun t => decide (s.now < t + Time.sec 60))) ++ [s.now]
      let s := s.modSrv (fun r => { r with failed := Tbl.set x.src recent r.failed })
      if recent.length < s.rdN (key 0x2610 3) then s
      else (s.modSrv (fun r => { r with blocked := Tbl.set x.src (s.now + Time.sec (s.rdN (key 0x2610 4))) r.blocked })).logEvent 0x0B02 0 (d32 x.src)

def execProve (t : Time) (d : Datagram) (s : State) : Host.Outcome State Fault Refusal :=
  .next ((s.begin t).request 2 d (fun x => State.prove d x))

def execClose (t : Time) (d : Datagram) (s : State) : Host.Outcome State Fault Refusal :=
  .next ((s.begin t).request 3 d (fun _ s => ((s.answer 0).sessionReply d.sid).endSession d.sid))

def execKeepAlive (t : Time) (d : Datagram) (s : State) : Host.Outcome State Fault Refusal :=
  .next ((s.begin t).request 4 d (fun _ s => s.answer 0))

/-! ### The gateway (R358) -/

/-- A request that names a target slot: the rack master carries it there, at most 32 data bytes; another module refuses it. -/
def State.toSlot (svc : Nat) (d : Datagram) (s : State) : State :=
  if s.rackRole ≠ 1 then s.answer 0x0B0000F0
  else if 32 < d.data.length then s.answer abTooLong
  else
    let s := s.modSrv (fun r => { r with gate := r.gate ++ [(d.sid, s.now)] })
    s.rackMsg "GATEWAY" (d.target - 1) ([(svc : Int), d.index, d.sub, d.elem, (2 * b2n d.last : Nat), d.data.length, d.param]
      ++ d.data.map (fun b => (b.toNat : Int)))

/-- A request of services 0x10 to 0x13: here, or at the slot it names. -/
def State.entryRequest (svc : Nat) (d : Datagram) (s : State) : State :=
  s.request svc d (fun x s =>
    if d.target ≠ 0 && (s.rackRole ≠ 1 || d.target - 1 ≠ s.rdN (key 0x2500 1)) then s.toSlot svc d
    else s.serve (x.req d.sid) svc d.index d.sub d.elem d.param d.last d.data 1024)

def execReadEntry (t : Time) (d : Datagram) (s : State) : Host.Outcome State Fault Refusal := .next ((s.begin t).entryRequest 0x10 d)
def execWriteEntry (t : Time) (d : Datagram) (s : State) : Host.Outcome State Fault Refusal := .next ((s.begin t).entryRequest 0x11 d)
def execSegmentRead (t : Time) (d : Datagram) (s : State) : Host.Outcome State Fault Refusal := .next ((s.begin t).entryRequest 0x12 d)
def execSegmentWrite (t : Time) (d : Datagram) (s : State) : Host.Outcome State Fault Refusal := .next ((s.begin t).entryRequest 0x13 d)

/-- A request that turned out BUSY elsewhere was not accepted: its sequence may come again, and the response before it stays stored (R356). -/
def State.unaccept (sid : Nat) (s : State) : State :=
  match s.session sid with
  | some x => s.setSession sid { x with owes := false, lastSeq := x.lastSeq.map (fun n => (n + 2 ^ 32 - 1) % 2 ^ 32), resp := x.was }
  | none => s

/-- GATEWAY_REPLY: the oldest request that waits is answered with it. -/
def State.gatewayReply (m : GatewayRep) (s : State) : State :=
  match s.srv.gate with
  | [] => s
  | (sid, _) :: r =>
    let s := s.modSrv (fun v => { v with gate := r })
    if m.abort = abBusy then (s.respond sid 5 m.progress abBusy [] false).unaccept sid
    else s.respond sid (1 + 2 * b2n m.last) 0 (if m.abort ≠ 0 then m.abort else m.param) m.data true

def execGatewayReply (t : Time) (m : GatewayRep) (s : State) : Host.Outcome State Fault Refusal := .next ((s.begin t).gatewayReply m)

/-- GATEWAY_TIMEOUT: no reply within 5 ms. -/
def State.gatewayTimeout (s : State) : State :=
  match s.srv.gate with
  | [] => s
  | (sid, at_) :: r =>
    s.when (decide (at_ + Time.ms 5 ≤ s.now)) (fun s => (s.modSrv (fun v => { v with gate := r })).answerTo sid 0x05040000)

def execGatewayTimeout (t : Time) (s : State) : Host.Outcome State Fault Refusal := .next (s.begin t).gatewayTimeout

/-- DICTIONARY_GATEWAY_FRAME: the target module serves the frame with the role of the master's session. -/
def State.gatewayFrame (m : GatewayReq) (s : State) : State :=
  if !s.serverUp then s
  else
    let s := if s.longOp ≠ 0 then s.emit (.reply abBusy (s.progress) [])
      else s.serve { role := m.role, servicePort := false, sid := viaGateway } m.service m.index m.sub m.elem m.param m.last m.data 32
    s.sessionReply viaGateway

def execDictionaryGatewayFrame (t : Time) (m : GatewayReq) (s : State) : Host.Outcome State Fault Refusal := .next ((s.begin t).gatewayFrame m)

/-! ### Timers of sessions (R355) -/

/-- SESSION_IDLE_TIMEOUT: idle timers do not run during a long operation (R351). -/
def State.idleTimeout (sid : Nat) (s : State) : State :=
  match s.session sid with
  | some x => s.when (s.longOp = 0 && decide (x.heard + Time.sec (s.rdN (key 0x2610 1)) ≤ s.now)) (State.endSession sid)
  | none => s

def execSessionIdleTimeout (t : Time) (sid : Nat) (s : State) : Host.Outcome State Fault Refusal := .next ((s.begin t).idleTimeout sid)

def State.notProved (sid : Nat) (s : State) : State :=
  match s.session sid with
  | some x => s.when (!x.proved && decide (x.opened + Time.sec 5 ≤ s.now)) (State.endSession sid)
  | none => s

def execOpenNotProved (t : Time) (sid : Nat) (s : State) : Host.Outcome State Fault Refusal := .next ((s.begin t).notProved sid)

def State.blockTimeEnd (src : Nat) (s : State) : State :=
  match Tbl.find? src s.srv.blocked with
  | some b => s.when (decide (b ≤ s.now)) (State.modSrv (fun r => { r with blocked := Tbl.erase src r.blocked }))
  | none => s

def execBlockTimeEnd (t : Time) (src : Nat) (s : State) : Host.Outcome State Fault Refusal := .next ((s.begin t).blockTimeEnd src)

/-! ### A twin's forwarded write (R304) -/

/-- A forwarded write that the standby cannot apply: the active module's configuration, and so its digest, has it from now on (R303). -/
def State.notApplied (q : Req) (index sub elem : Nat) (l : List Byte) (s : State) : State :=
  if s.rack.inStep then
    (s.modRack (fun r => { r with inStep := false, digest := some ((entryEff q index sub elem l).eff s).ownDigest })).syncTwin
  else s

/-- TWIN_FORWARDED_WRITE: the standby applies what the active module has accepted, and acknowledges it; on the active module the command is
that acknowledgement (DESIGN CHOICE, notes/assumptions/116). -/
def State.forwarded (index sub elem : Nat) (l : List Byte) (s : State) : State :=
  let q : Req := { role := .safety, servicePort := false, sid := viaTwin }
  if s.twinRole != 0 && s.authority == 1 then
    (s.settleForward (fun f => f.index == index && f.sub == sub && f.elem == elem && f.data == l && f.sent && !f.acked)
      (fun f => { f with acked := true })).followDigest.syncTwin
  else s.when (s.twinRole != 0 && s.authority == 2 && s.serverUp) (fun s =>
    if s.longOp ≠ 0 then (s.answerTo viaTwin abBusy).notApplied q index sub elem l
    else
      let r := s.write q 4 false index sub elem l true
      let refused := r.out.any (fun o => match o with
        | .reply e _ _ => e != 0
        | _ => false)
      (if refused then r.notApplied q index sub elem l else r).sessionReply viaTwin)

def execTwinForwardedWrite (t : Time) (index sub elem : Nat) (data : List Byte) (s : State) : Host.Outcome State Fault Refusal :=
  .next ((s.begin t).forwarded index sub elem data)

/-! ### USDO (R361) -/

/-- USDO_REQUEST: unicast only, from any client, whole (expedited) or in segments; the port's role; whole arrays; a request that starts a long operation is acknowledged at once. -/
def State.usdo (k : Nat) (m : UsdoReq) (s : State) : State :=
  if !s.serverUp || !(s.rdB (key (0x2710 + k) 1)) || !m.unicast then s
  else if s.longOp ≠ 0 then s.answerTo (viaCan k m.client) abBusy
  else
    let q : Req := { role := roleOf (s.rdN (key (0x2710 + k) 6)), servicePort := false, sid := viaCan k m.client }
    let s := if !m.write then s.readReply q.sid m.index m.sub 0 (2 ^ 32)
      else match m.segment with
        | none => s.write q q.role.rank true m.index m.sub 0 m.data true
        | some (offset, last) => s.segmentWrite q m.index m.sub offset last m.data
    let s := if s.longOp ≠ 0 then (s.modSrv (fun r => { r with longQuiet := true })).answer 0 else s
    s.sessionReply q.sid

def execUsdoRequest (t : Time) (k : CanNo) (m : UsdoReq) (s : State) : Host.Outcome State Fault Refusal := .next ((s.begin t).usdo k m)

end Sys2Proof.Machine
end

