-- ==== Sys2Proof/Machine/Net.lean ====
section
/-! DEFINITION. The networks beside the dictionary: CAN FD with PDOs, NMT and heartbeats (R360 to R364), Ethernet (R365), GOOSE (R366, R367). -/

namespace Sys2Proof.Machine

def State.modNet (f : Net → Net) (s : State) : State := { s with net := f s.net }

/-- An entry of CAN port k (Table 17-14). -/
def cpk (k sub : Nat) : Nat := key (0x2710 + k) sub

/-- Whether CAN port k runs. -/
def State.canOn (k : Nat) (s : State) : Bool := s.serverUp && s.rdB (cpk k 1)

/-- Something happens on an enabled CAN port that is not bus-off any longer: it is error active (R360). -/
def State.onCan (k : Nat) (f : State → State) (s : State) : State :=
  if !(s.canOn k) || s.busIsOff k then s else f (s.wr (cpk k 8) 1)

/-! ### PDOs (R362) -/

/-- The entries that mapping entry m names: index, subindex, bytes. -/
def mapped (m : Nat) : Nat × Nat × Nat := (m / 65536, m / 256 % 256, m % 256 / 8)

/-- RPDO r of port k with data l: shorter than its mapping it is discarded and counted (notes/assumptions/124); else its entries take their
values in order. -/
def State.rpdo (k r : Nat) (l : List Byte) (s : State) : State :=
  let ms := (s.mapping (0x1600 + 8 * k + r)).map mapped
  if 0x80000000 ≤ s.rdN (key (0x1400 + 8 * k + r) 1) then s
  else if l.length < (ms.map (fun m => m.2.2)).sum then
    s.modNet (fun n => { n with shortPdos := Tbl.set (8 * k + r) (Tbl.get 0 (8 * k + r) n.shortPdos + 1) n.shortPdos })
  else (ms.foldl (fun (a : List Byte × State) m => (a.1.drop m.2.2, a.2.fieldWrite m.1 m.2.1 (a.1.take m.2.2))) (l, s)).2

def execRpdo (t : Time) (k : CanNo) (r : Fin 8) (data : List Byte) (s : State) : Host.Outcome State Fault Refusal :=
  .next ((s.begin t).onCan k (State.rpdo k r data))

def tpk2 (k p sub : Nat) : Nat := key (0x1800 + 8 * k + p) sub
def State.tpdo (k p : Nat) (s : State) : TpdoRec := Tbl.get {} (8 * k + p) s.net.tpdos
def State.setTpdo (k p : Nat) (x : TpdoRec) (s : State) : State := s.modNet (fun n => { n with tpdos := Tbl.set (8 * k + p) x n.tpdos })

/-- The data of TPDO p of port k. -/
def State.tpdoBytes (k p : Nat) (s : State) : List Byte :=
  ((s.mapping (0x1A00 + 8 * k + p)).map mapped).flatMap (fun m => s.readBytes m.1 m.2.1 0)

def State.sendTpdo (k p : Nat) (s : State) : State :=
  let l := s.tpdoBytes k p
  (s.setTpdo k p { syncs := 0, last := some l, sentAt := some s.now }).msg "PDO" [k, s.rd (tpk2 k p 1)] l

/-- Whether TPDO p of port k is valid. -/
def State.tpdoValid (k p : Nat) (s : State) : Bool := s.rdN (tpk2 k p 1) < 0x80000000

/-- SYNC: TPDOs of types 0x01 to 0xF0 send on every nth one. -/
def State.canSync (k : Nat) (s : State) : State :=
  s.each (List.range 8) (fun p s =>
    let n := s.rdN (tpk2 k p 2)
    let x := s.tpdo k p
    if !(s.tpdoValid k p) || n = 0 || 0xF0 < n then s
    else if n ≤ x.syncs + 1 then s.sendTpdo k p
    else s.setTpdo k p { x with syncs := x.syncs + 1 })

def execSync (t : Time) (k : CanNo) (s : State) : Host.Outcome State Fault Refusal := .next ((s.begin t).onCan k (State.canSync k))

/-- TPDO_EVENT: type 0xFE sends on a change, subject to the inhibit time in 100 µs, and on the event timer in ms. -/
def State.tpdoEvent (k p : Nat) (timer : Bool) (s : State) : State :=
  let x := s.tpdo k p
  let passed (d : Time) : Bool := match x.sentAt with
    | some t => decide (t + d ≤ s.now)
    | none => true
  let due := if timer then s.rdN (tpk2 k p 5) != 0 && passed (Time.ms (s.rdN (tpk2 k p 5)))
    else x.last != some (s.tpdoBytes k p) && passed (Time.us (100 * s.rdN (tpk2 k p 3)))
  s.when (s.tpdoValid k p && s.rdN (tpk2 k p 2) == 0xFE && due) (State.sendTpdo k p)

def execTpdoEvent (t : Time) (k : CanNo) (p : Fin 8) (timer : Bool) (s : State) : Host.Outcome State Fault Refusal :=
  .next ((s.begin t).onCan k (State.tpdoEvent k p timer))

/-! ### NMT and heartbeats (R363, R364) -/

/-- An NMT command: obeyed only while the port says so, else counted. -/
def State.nmt (k : Nat) (f : State → State) (s : State) : State := if s.rdB (cpk k 7) then f s else s.inc (cpk k 0xB)

/-- A module command that NMT stands for. -/
def State.nmtCommand (c : Nat) (s : State) : State :=
  ((s.handling nobody).carryOut 0x2000 3 0 (d8 c) (commandOf c)).sessionReply nobody

def execStartRemoteNode (t : Time) (k : CanNo) (s : State) : Host.Outcome State Fault Refusal :=
  .next ((s.begin t).onCan k (State.nmt k (fun s => s.when (s.mod == .armed) (State.nmtCommand 3))))

def execEnterPreOperational (t : Time) (k : CanNo) (s : State) : Host.Outcome State Fault Refusal :=
  .next ((s.begin t).onCan k (State.nmt k (fun s => s.when (allBatches.all (fun b => s.bstate b == .off)) (State.nmtCommand 1))))

def execStopRemoteNode (t : Time) (k : CanNo) (s : State) : Host.Outcome State Fault Refusal :=
  .next ((s.begin t).onCan k (State.nmt k (State.nmtCommand 4)))

/-- RESET_NODE is never obeyed: it is counted with the ignored ones. -/
def execResetNode (t : Time) (k : CanNo) (s : State) : Host.Outcome State Fault Refusal :=
  .next ((s.begin t).onCan k (fun s => s.inc (cpk k 0xB)))

/-- The CAN services of port k begin anew: TPDOs, heartbeats produced and consumed. -/
def State.canRestart (k : Nat) (s : State) : State :=
  let s := s.modNet (fun n => { n with tpdos := n.tpdos.filter (fun x => x.1 / 8 != k), producer := Tbl.erase k n.producer
                                       hb := n.hb.filter (fun x => x.1 / 128 != k), late := n.late.filter (fun x => x / 128 != k) })
  s.setBit (key 0x1001 0) 4 (!s.net.late.isEmpty)

def execResetCommunication (t : Time) (k : CanNo) (s : State) : Host.Outcome State Fault Refusal :=
  .next ((s.begin t).onCan k (State.nmt k (State.canRestart k)))

/-- The heartbeat byte of a module state (Table 17-7). -/
def heartbeatByte : ModState → Nat
  | .init | .proof | .faultWait => 0x00
  | .configuration | .armed => 0x7F
  | .running | .standby => 0x05
  | .safeHold | .removal => 0x04

/-- PRODUCER_HEARTBEAT: at the interval of 0x1017. -/
def State.heartbeatOut (k : Nat) (s : State) : State :=
  let i := s.rdN (key 0x1017 0)
  let due := match Tbl.find? k s.net.producer with
    | some t => decide (t + Time.ms i ≤ s.now)
    | none => true
  s.when (i != 0 && due) (fun s =>
    (s.modNet (fun n => { n with producer := Tbl.set k s.now n.producer })).msg "CAN_HEARTBEAT" [k, s.rd (cpk k 2), heartbeatByte s.mod] [])

def execProducerHeartbeat (t : Time) (k : CanNo) (s : State) : Host.Outcome State Fault Refusal :=
  .next ((s.begin t).onCan k (State.heartbeatOut k))

/-- The heartbeat time of node-ID `node` in ms as 0x1016 lists it; 0 where it is not listed. -/
def State.consumed (node : Nat) (s : State) : Nat :=
  (((List.range 0x7F).map (fun i => s.rdN (key 0x1016 (i + 1)))).find? (fun v => v / 65536 % 128 == node && v % 65536 != 0)).getD 0 % 65536

/-- A heartbeat of a node is heard: it is no longer overdue. -/
def State.heartbeatIn (k node : Nat) (s : State) : State :=
  let j := 128 * k + node
  let s := s.modNet (fun n => { n with hb := Tbl.set j s.now n.hb, late := n.late.filter (· != j) })
  s.setBit (key 0x1001 0) 4 (!s.net.late.isEmpty)

/-- CONSUMER_HEARTBEAT_TIMEOUT: a node that was heard is overdue: event 0x0B06, bit 4 of the error register. -/
def State.heartbeatLate (k node : Nat) (s : State) : State :=
  let j := 128 * k + node
  let ms := s.consumed node
  match Tbl.find? j s.net.hb with
  | none => s
  | some h =>
    s.when (ms != 0 && !(s.net.late.contains j) && decide (h + Time.ms ms ≤ s.now)) (fun s =>
      ((s.modNet (fun n => { n with late := n.late ++ [j] })).setBit (key 0x1001 0) 4 true).logEvent 0x0B06 k (d8 k ++ d8 node))

def execConsumerHeartbeatTimeout (t : Time) (k : CanNo) (node : Fin 128) (s : State) : Host.Outcome State Fault Refusal :=
  let s := s.begin t
  .next (s.when (s.canOn k) (State.heartbeatLate k node))

/-- BUS_OFF (R360): counted; the port neither sends nor receives until it has recovered. -/
def execBusOff (t : Time) (k : CanNo) (s : State) : Host.Outcome State Fault Refusal :=
  let s := s.begin t
  .next (s.when (s.canOn k) (fun s => ((s.inc (cpk k 9)).wr (cpk k 8) 4).modNet (fun n => { n with busOff := Tbl.set k s.now n.busOff })))

/-- CAN_FD_FRAME (R276, type 0x07): the trigger units on its port, format and identifier; an NMT error control frame is a heartbeat
heard. -/
def State.canFrame (k : Nat) (ext : Bool) (ident : Nat) (l : List Byte) (s : State) : State :=
  let s := if !ext && 0x701 ≤ ident && ident ≤ 0x77F then s.heartbeatIn k (ident - 0x700) else s
  s.frameSource 7 (2 ^ 31 * k + 2 ^ 29 * b2n ext + ident) l s.modTime

def execCanFdFrame (t : Time) (k : CanNo) (ext : Bool) (ident : Nat) (data : List Byte) (s : State) : Host.Outcome State Fault Refusal :=
  .next ((s.begin t).onCan k (State.canFrame k ext ident data))

/-! ### Ethernet (R365) -/

/-- PRP_SUPERVISION: every 2 s on each pair. -/
def State.supervision (p : Nat) (s : State) : State :=
  let due := match Tbl.find? p s.net.prp with
    | some t => decide (t + Time.sec 2 ≤ s.now)
    | none => true
  s.when (s.serverUp && due) (fun s =>
    (s.modNet (fun n => { n with prp := Tbl.set p s.now n.prp })).msg "PRP_SUPERVISION" [p, s.rd (key (0x2700 + p) 4)] [])

def execPrpSupervision (t : Time) (p : Fin 2) (s : State) : Host.Outcome State Fault Refusal := .next ((s.begin t).supervision p)

/-- Whether pair p has this IPv4 address. -/
def State.hasAddress (p a : Nat) (s : State) : Bool := s.serverUp && a != 0 && s.rdN (key (0x2700 + p) 1) == a

def execArpRequest (t : Time) (p : Fin 2) (target sender : Nat) (s : State) : Host.Outcome State Fault Refusal :=
  let s := s.begin t
  .next (s.when (s.hasAddress p target) (fun s => s.msg "ARP_REPLY" [p.val, sender, s.rd (key (0x2700 + p) 4), target] []))

def execIcmpEcho (t : Time) (p : Fin 2) (dst : Nat) (payload : List Byte) (s : State) : Host.Outcome State Fault Refusal :=
  let s := s.begin t
  .next (s.when (s.hasAddress p dst) (fun s => s.msg "ICMP_ECHO_REPLY" [p.val, dst] payload))

/-! ### GOOSE publication (R366) -/

def pbk (g sub : Nat) : Nat := key (0x2740 + g) sub
def State.pub (g : Nat) (s : State) : PubRec := Tbl.get {} g s.net.pubs
def State.setPub (g : Nat) (x : PubRec) (s : State) : State := s.modNet (fun n => { n with pubs := Tbl.set g x n.pubs })

/-- The value of a dataset member: index, subindex, element. -/
def State.memberValue (m : Nat) (s : State) : Int := s.live (m / 65536) (m / 256 % 256) (m % 256)

/-- How a member is encoded: 0 boolean, 1 unsigned, 2 integer, 3 floating-point, 4 Timestamp (UTC, or TAI while no UTC offset is valid (R286), and its quality), 5 none of these. -/
def State.memberCode (m : Nat) (s : State) : List Int :=
  let v := s.memberValue m
  match descAt (m / 65536) (m / 256 % 256) with
  | none => [5, 0, 0]
  | some d => match d.ty with
    | .bool => [0, v, 0]
    | .u _ => [1, v, 0]
    | .i _ => [2, v, 0]
    | .q15 => [2, v, 0]
    | .f32 => [3, v, 0]
    | .time64 => [4, v - (if s.bit (key 0x2300 9) 5 then 1000000000 * s.rd (key 0x2300 0xA) else 0), s.rd (key 0x2300 3)]
    | _ => [5, 0, 0]

/-- Sends a message of publication g; `i` is the interval to the next one, in ms. -/
def State.sendGoose (g i : Nat) (s : State) : State :=
  let r := s.pub g
  let s := (s.setPub g { r with interval := i, sentAt := s.now }).inc (pbk g 0xF)
  s.msg "GOOSE" ([(g : Int), s.rd (pbk g 2), s.rd (pbk g 0xE), r.sqNum, s.rd (pbk g 9), (2 * i : Nat)] ++ r.members.flatMap (fun m => s.memberCode m)) []

/-- A change of a member's value starts a new state number at the minimum interval. -/
def State.comparePub (g : Nat) (s : State) : State :=
  let r := s.pub g
  let v := r.members.map (fun m => s.memberValue m)
  if !(s.rdB (pbk g 1)) || r.members.isEmpty || r.last = some v then s
  else ((s.setPub g { r with last := some v, sqNum := 0 }).inc (pbk g 0xE)).sendGoose g (s.rdN (pbk g 0xB))

def execGooseMemberCompare (t : Time) (s : State) : Host.Outcome State Fault Refusal :=
  let s := s.begin t
  .next (s.when s.serverUp (fun s => s.each (List.range 8) State.comparePub))

/-- A retransmission: the interval doubles up to the maximum. -/
def State.retransmit (g : Nat) (s : State) : State :=
  let r := s.pub g
  s.when (s.serverUp && s.rdB (pbk g 1) && r.last.isSome && decide (r.sentAt + Time.ms r.interval ≤ s.now)) (fun s =>
    (s.setPub g { r with sqNum := (r.sqNum + 1) % 2 ^ 32 }).sendGoose g (min (2 * r.interval) (s.rdN (pbk g 0xA))))

def execGooseRetransmission (t : Time) (g : Fin 8) (s : State) : Host.Outcome State Fault Refusal := .next ((s.begin t).retransmit g)

/-! ### GOOSE subscription (R367) -/

def State.setSub (i : Nat) (x : SubRec) (s : State) : State := s.modNet (fun n => { n with subs := Tbl.set i x n.subs })

/-- The bytes of member j as mapped to its dictionary object, for the trigger units on it (R277): those of the first entry that it
feeds. -/
def State.memberBytes (i j : Nat) (m : GooseMsg) (s : State) : List Byte :=
  match (s.subEntries i).find? (fun e => e / 2 ^ 24 % 256 == j) with
  | none => []
  | some e => match (m.members[j]?).bind (convert (e / 65536 % 256) (targetTy e)) with
    | some v => (targetTy e).toBytes v
    | none => []

/-- A message for subscription i: the status bits, the entries together, the trigger units on its members. -/
def State.takeGoose (i : Nat) (m : GooseMsg) (s : State) : State :=
  if !(s.rdB (sbk i 1)) || s.rdN (sbk i 2) ≠ m.pair || s.rdN (sbk i 3) ≠ m.appid then s
  else
    let refOk := s.blob (sbk i 4) == m.gocbRef && s.blob (sbk i 5) == m.datSet
    let revOk := s.rdN (sbk i 6) == m.confRev
    let flagged := m.test || m.simulation || m.ndsCom
    if !refOk then s.inc (sbk i 0xB)
    else if !revOk then (s.setBit (sbk i 9) 2 true).inc (sbk i 0xB)
    else
      let s := (s.setBit (sbk i 9) 2 false).setBit (sbk i 9) 3 flagged
      let s := if flagged then s.inc (sbk i 0xB)
        else
          let s := s.setSub i { heard := some s.now, ttl := m.ttlMs }
          let s := ((s.setBit (sbk i 9) 0 true).setBit (sbk i 9) 1 false).inc (sbk i 0xA)
          s.gooseApply i m
      s.each (List.range (min 64 m.members.length)) (fun j s => s.frameSource 8 (256 * i + j) (s.memberBytes i j m) s.modTime)

def execGooseMessage (t : Time) (m : GooseMsg) (s : State) : Host.Outcome State Fault Refusal :=
  let s := s.begin t
  .next (s.when s.serverUp (fun s => s.each (List.range 16) (fun i s => s.takeGoose i m)))

/-- TIME_ALLOWED_TO_LIVE: targets of up to 16 bits take their fallback, wider ones keep their last value. -/
def State.expire (i : Nat) (s : State) : State :=
  let r : SubRec := Tbl.get {} i s.net.subs
  match r.heard with
  | none => s
  | some h =>
    s.when (s.serverUp && s.rdB (sbk i 1) && !(s.bit (sbk i 9) 1) && decide (h + Time.ms r.ttl ≤ s.now)) (fun s =>
      let s := ((s.setBit (sbk i 9) 0 false).setBit (sbk i 9) 1 true).inc (sbk i 0xC)
      s.each ((s.subEntries i).filter (fun e => (targetTy e).bytes ≤ 2)) (fun e s =>
        s.fieldWrite (e / 2 ^ 48) (e / 2 ^ 40 % 256) (leBytes (targetTy e).bytes (e % 65536))))

def execTimeAllowedToLive (t : Time) (i : Fin 16) (s : State) : Host.Outcome State Fault Refusal := .next ((s.begin t).expire i)

end Sys2Proof.Machine
end

