-- ==== Sys2Proof/Machine/Dispatch.lean ====
section
/-! DEFINITION. The command dispatch: one arm for each row of the table, each one call of that row's meaning. -/

namespace Sys2Proof.Machine

def exec (i : Instr) (s : State) : Host.Outcome State Fault Refusal :=
  match i with
  | .sampleInstant t b => Sys2Proof.Machine.execSampleInstant t b s
  | .inputsReady t b => Sys2Proof.Machine.execInputsReady t b s
  | .itemComplete t l => Sys2Proof.Machine.execItemComplete t l s
  | .slotFault t b fs => Sys2Proof.Machine.execSlotFault t b fs s
  | .deadline t b => Sys2Proof.Machine.execDeadline t b s
  | .batchLoad t b => Sys2Proof.Machine.execBatchLoad t b s
  | .loadPoint t c => Sys2Proof.Machine.execLoadPoint t c s
  | .dictionaryJob t b => Sys2Proof.Machine.execDictionaryJob t b s
  | .paceMeasurement t paces => Sys2Proof.Machine.execPaceMeasurement t paces s
  | .laneTestStart t => Sys2Proof.Machine.execLaneTestStart t s
  | .laneDrained t l => Sys2Proof.Machine.execLaneDrained t l s
  | .laneTestEnd t l res => Sys2Proof.Machine.execLaneTestEnd t l res s
  | .laneStall t l => Sys2Proof.Machine.execLaneStall t l s
  | .followingErrorTick t sl => Sys2Proof.Machine.execFollowingErrorTick t sl s
  | .openLoopTimeout t b => Sys2Proof.Machine.execOpenLoopTimeout t b s
  | .loopReclose t b => Sys2Proof.Machine.execLoopReclose t b s
  | .sarSlot t p x0 x1 => Sys2Proof.Machine.execSarSlot t p x0 x1 s
  | .pairTrigger t p => Sys2Proof.Machine.execPairTrigger t p s
  | .coreSpareTakeover t k => Sys2Proof.Machine.execCoreSpareTakeover t k s
  | .coreBackgroundTest t k pass => Sys2Proof.Machine.execCoreBackgroundTest t k pass s
  | .slotResultRead t q k x_i => Sys2Proof.Machine.execSlotResultRead t q k x_i s
  | .testDacInject t q p code => Sys2Proof.Machine.execTestDacInject t q p code s
  | .pathTest t q p r0 r1 => Sys2Proof.Machine.execPathTest t q p r0 r1 s
  | .clearFault t q p => Sys2Proof.Machine.execClearFault t q p s
  | .decimationInstant t c bits => Sys2Proof.Machine.execDecimationInstant t c bits s
  | .sigmaDeltaLoss t c clockAbsent => Sys2Proof.Machine.execSigmaDeltaLoss t c clockAbsent s
  | .fastTapOutput t c => Sys2Proof.Machine.execFastTapOutput t c s
  | .trackingLostTimeout t c => Sys2Proof.Machine.execTrackingLostTimeout t c s
  | .chainEnable t q c => Sys2Proof.Machine.execChainEnable t q c s
  | .chainBankWrite t q c img => Sys2Proof.Machine.execChainBankWrite t q c img s
  | .chainSwapRequest t q c v => Sys2Proof.Machine.execChainSwapRequest t q c v s
  | .chainBankSwapped t c => Sys2Proof.Machine.execChainBankSwapped t c s
  | .detectorWindowWrite t q c w => Sys2Proof.Machine.execDetectorWindowWrite t q c w s
  | .bankSwapRequest t q b => Sys2Proof.Machine.execBankSwapRequest t q b s
  | .copyActiveToInactive t q b => Sys2Proof.Machine.execCopyActiveToInactive t q b s
  | .slotBankWrite t q sl bankB word v => Sys2Proof.Machine.execSlotBankWrite t q sl bankB word v s
  | .slotStateWrite t q sl x_i v => Sys2Proof.Machine.execSlotStateWrite t q sl x_i v s
  | .targetWrite t q g v => Sys2Proof.Machine.execTargetWrite t q g v s
  | .genHold t q g => Sys2Proof.Machine.execHold t q g s
  | .genRelease t q g => Sys2Proof.Machine.execRelease t q g s
  | .genPreset t q g => Sys2Proof.Machine.execPreset t q g s
  | .recipeLoadAndVerify t q b img => Sys2Proof.Machine.execRecipeLoadAndVerify t q b img s
  | .recipeLoadComplete t b => Sys2Proof.Machine.execRecipeLoadComplete t b s
  | .recipeUnload t q b => Sys2Proof.Machine.execRecipeUnload t q b s
  | .batchEnable t q b v => Sys2Proof.Machine.execBatchEnable t q b v s
  | .baseValuesWrite t q b current v => Sys2Proof.Machine.execBaseValuesWrite t q b current v s
  | .bankViewWrite t q b off sub v => Sys2Proof.Machine.execBankViewWrite t q b off sub v s
  | .setpointWrite t q b x_i v => Sys2Proof.Machine.execSetpointWrite t q b x_i v s
  | .stagedApplication t b => Sys2Proof.Machine.execStagedApplication t b s
  | .setpointWatchdog t b => Sys2Proof.Machine.execSetpointWatchdog t b s
  | .pccBreakerStatusWrite t q b v => Sys2Proof.Machine.execPccBreakerStatusWrite t q b v s
  | .batchStart t q b => Sys2Proof.Machine.execBatchStart t q b s
  | .batchStop t q b => Sys2Proof.Machine.execBatchStop t q b s
  | .batchBlock t q b => Sys2Proof.Machine.execBatchBlock t q b s
  | .batchRelease t q b => Sys2Proof.Machine.execBatchRelease t q b s
  | .faultReset t q b => Sys2Proof.Machine.execFaultReset t q b s
  | .batchIsland t q b => Sys2Proof.Machine.execIsland t q b s
  | .batchResync t q b => Sys2Proof.Machine.execResync t q b s
  | .batchBlackStart t q b => Sys2Proof.Machine.execBlackStart t q b s
  | .coastTimeLimit t b => Sys2Proof.Machine.execCoastTimeLimit t b s
  | .clearStatistics t q b => Sys2Proof.Machine.execClearStatistics t q b s
  | .maximumLimitedTime t b => Sys2Proof.Machine.execMaximumLimitedTime t b s
  | .guardDelay t b => Sys2Proof.Machine.execGuardDelay t b s
  | .excursionEnd t b freq => Sys2Proof.Machine.execExcursionEnd t b freq s
  | .envelopeWrite t q b e img => Sys2Proof.Machine.execEnvelopeWrite t q b e img s
  | .dcLinkReady t b => Sys2Proof.Machine.execDcLinkReady t b s
  | .prechargeTimeLimit t b => Sys2Proof.Machine.execPrechargeTimeLimit t b s
  | .starterWindowTimeout t b => Sys2Proof.Machine.execStarterWindowTimeout t b s
  | .busDeclaredDead t b => Sys2Proof.Machine.execBusDeclaredDead t b s
  | .starterWaitLimit t b => Sys2Proof.Machine.execStarterWaitLimit t b s
  | .blackStartTimeLimit t b => Sys2Proof.Machine.execBlackStartTimeLimit t b s
  | .automaticResync t b => Sys2Proof.Machine.execAutomaticResync t b s
  | .windowHeld t b => Sys2Proof.Machine.execWindowHeld t b s
  | .closingTimeLimit t b => Sys2Proof.Machine.execClosingTimeLimit t b s
  | .resyncTimeLimit t b => Sys2Proof.Machine.execResyncTimeLimit t b s
  | .referenceNotLive t b => Sys2Proof.Machine.execReferenceNotLive t b s
  | .pwmBlockN t k low => Sys2Proof.Machine.execPwmBlockN t k low s
  | .bootstrapUndervoltage t d => Sys2Proof.Machine.execBootstrapUndervoltage t d s
  | .rechargeHold t d => Sys2Proof.Machine.execRechargeHold t d s
  | .sliceCalibration t counts => Sys2Proof.Machine.execSliceCalibration t counts s
  | .extendedRecalibration t => Sys2Proof.Machine.execExtendedRecalibration t s
  | .returnToNormalMode t b => Sys2Proof.Machine.execReturnToNormalMode t b s
  | .sliceBackgroundTest t sl => Sys2Proof.Machine.execSliceBackgroundTest t sl s
  | .sliceTestEnd t sl pass => Sys2Proof.Machine.execSliceTestEnd t sl pass s
  | .spareSliceTakeover t c => Sys2Proof.Machine.execSpareSliceTakeover t c s
  | .testDuty t q c v => Sys2Proof.Machine.execTestDuty t q c v s
  | .frameDeparture t => Sys2Proof.Machine.execFrameDeparture t s
  | .upFrameReceived t k f => Sys2Proof.Machine.execUpFrameReceived t k f s
  | .nodeControlByte t n ctl epoch => Sys2Proof.Machine.execNodeControlByte t n ctl epoch s
  | .nodeFrameReceived t n f => Sys2Proof.Machine.execNodeFrameReceived t n f s
  | .nodeFrameUsable t n => Sys2Proof.Machine.execNodeFrameUsable t n s
  | .nodeEdge t n => Sys2Proof.Machine.execNodeEdge t n s
  | .nodeSample t n v x_i own => Sys2Proof.Machine.execNodeSample t n v x_i own s
  | .turnNodeFrame t n => Sys2Proof.Machine.execTurnNodeFrame t n s
  | .missedFramePeriod t n => Sys2Proof.Machine.execMissedFramePeriod t n s
  | .nodeWatchdog t n => Sys2Proof.Machine.execNodeWatchdog t n s
  | .nodeShortCircuit t n x_i undervoltage => Sys2Proof.Machine.execNodeShortCircuit t n x_i undervoltage s
  | .turnNodeChange t n turn => Sys2Proof.Machine.execTurnNodeChange t n turn s
  | .readRegister t n addr => Sys2Proof.Machine.execReadRegister t n addr s
  | .writeRegister t n addr data epoch => Sys2Proof.Machine.execWriteRegister t n addr data epoch s
  | .clearLatchedFaults t n epoch standing => Sys2Proof.Machine.execClearLatchedFaults t n epoch standing s
  | .enumerateRequest t n data => Sys2Proof.Machine.execEnumerateRequest t n data s
  | .delayMeasurement t n a b => Sys2Proof.Machine.execDelayMeasurement t n a b s
  | .requestTimeout t k => Sys2Proof.Machine.execRequestTimeout t k s
  | .linkEnumerate t q k found => Sys2Proof.Machine.execEnumerate t q k found s
  | .syncReturn t k found => Sys2Proof.Machine.execSyncReturn t k found s
  | .linkBreak t k unreached => Sys2Proof.Machine.execLinkBreak t k unreached s
  | .nodeRegisterRead t q n => Sys2Proof.Machine.execNodeRegisterRead t q n s
  | .nodeRegisterWrite t q n v => Sys2Proof.Machine.execNodeRegisterWrite t q n v s
  | .clearFaults t q n => Sys2Proof.Machine.execClearFaults t q n s
  | .vgateLow t mv => Sys2Proof.Machine.execVgateLow t mv s
  | .vgateRecovered t mv => Sys2Proof.Machine.execVgateRecovered t mv s
  | .vbridgeOvervoltage t mv => Sys2Proof.Machine.execVbridgeOvervoltage t mv s
  | .vbridgeOvervoltageClear t mv => Sys2Proof.Machine.execVbridgeOvervoltageClear t mv s
  | .vbridgeLow t mv => Sys2Proof.Machine.execVbridgeLow t mv s
  | .vbridgeLowClear t mv => Sys2Proof.Machine.execVbridgeLowClear t mv s
  | .blankingEnd t d high => Sys2Proof.Machine.execBlankingEnd t d high s
  | .driverShort t d x => Sys2Proof.Machine.execShort t d x s
  | .driverClearFaults t q d => Sys2Proof.Machine.execDriverClearFaults t q d s
  | .runDiagnostic t q d => Sys2Proof.Machine.execRunDiagnostic t q d s
  | .diagnosticStep t d v vp => Sys2Proof.Machine.execDiagnosticStep t d v vp s
  | .islandSelfTestEnd t pass => Sys2Proof.Machine.execIslandSelfTestEnd t pass s
  | .islandCycle t rb => Sys2Proof.Machine.execIslandCycle t rb s
  | .islandSample t x0 x1 x2 x3 => Sys2Proof.Machine.execIslandSample t x0 x1 x2 x3 s
  | .rmsUpdate t => Sys2Proof.Machine.execRmsUpdate t s
  | .crossCheckGrace t second => Sys2Proof.Machine.execCrossCheckGrace t second s
  | .stageTrip t x_i => Sys2Proof.Machine.execStageTrip t x_i s
  | .meanUpdate t x_i => Sys2Proof.Machine.execMeanUpdate t x_i s
  | .deadToTheIsland t => Sys2Proof.Machine.execDeadToTheIsland t s
  | .islandOscillatorCheck t dev => Sys2Proof.Machine.execIslandOscillatorCheck t dev s
  | .islandSelfCheck t pass => Sys2Proof.Machine.execIslandSelfCheck t pass s
  | .pd7SupplyLow t => Sys2Proof.Machine.execPd7SupplyLow t s
  | .safeStopN t k low => Sys2Proof.Machine.execSafeStopN t k low s
  | .hostOpen t q n => Sys2Proof.Machine.execHostOpen t q n s
  | .hostClose t q n => Sys2Proof.Machine.execHostClose t q n s
  | .acknowledge t q n => Sys2Proof.Machine.execAcknowledge t q n s
  | .contactFeedbackClosed t n => Sys2Proof.Machine.execContactFeedbackClosed t n s
  | .closingTime t n => Sys2Proof.Machine.execClosingTime t n s
  | .coilOvercurrent t n ma => Sys2Proof.Machine.execCoilOvercurrent t n ma s
  | .readbackMismatch t n r => Sys2Proof.Machine.execReadbackMismatch t n r s
  | .darkPulse t n low => Sys2Proof.Machine.execDarkPulse t n low s
  | .brightPulse t n low => Sys2Proof.Machine.execBrightPulse t n low s
  | .pulseRetry t n low => Sys2Proof.Machine.execPulseRetry t n low s
  | .safetyTelegram t portB bytes => Sys2Proof.Machine.execSafetyTelegram t portB bytes s
  | .noPartner t => Sys2Proof.Machine.execNoPartner t s
  | .telegramWatchdog t => Sys2Proof.Machine.execTelegramWatchdog t s
  | .statusTelegram t => Sys2Proof.Machine.execStatusTelegram t s
  | .observationComplete t => Sys2Proof.Machine.execObservationComplete t s
  | .lockIslandSettings t q => Sys2Proof.Machine.execLockIslandSettings t q s
  | .lockInterfaceProtectionSettings t q => Sys2Proof.Machine.execLockInterfaceProtectionSettings t q s
  | .refclkQualified t => Sys2Proof.Machine.execRefclkQualified t s
  | .refclkDisqualified t => Sys2Proof.Machine.execRefclkDisqualified t s
  | .refclkReselection t => Sys2Proof.Machine.execRefclkReselection t s
  | .referenceSelect t q v => Sys2Proof.Machine.execReferenceSelect t q v s
  | .pllUpdate t => Sys2Proof.Machine.execPllUpdate t s
  | .pllLock t band => Sys2Proof.Machine.execPllLock t band s
  | .fastHopTimeout t => Sys2Proof.Machine.execFastHopTimeout t s
  | .bandStore t => Sys2Proof.Machine.execBandStore t s
  | .clearStoredBands t q => Sys2Proof.Machine.execClearStoredBands t q s
  | .pllUnlocked t => Sys2Proof.Machine.execPllUnlocked t s
  | .referenceLost t refclk => Sys2Proof.Machine.execReferenceLost t refclk s
  | .returnToPll t => Sys2Proof.Machine.execReturnToPll t s
  | .bothReferencesLost t => Sys2Proof.Machine.execBothReferencesLost t s
  | .rideWindowEnd t => Sys2Proof.Machine.execRideWindowEnd t s
  | .referenceReturn t refclk => Sys2Proof.Machine.execReferenceReturn t refclk s
  | .housekeepingClockMeasurement t err => Sys2Proof.Machine.execHousekeepingClockMeasurement t err s
  | .ptpSync t portB m => Sys2Proof.Machine.execPtpSync t portB m s
  | .ptpAnnounce t portB m => Sys2Proof.Machine.execPtpAnnounce t portB m s
  | .ptpPdelay t portB m => Sys2Proof.Machine.execPtpPdelay t portB m s
  | .ptpTransmit t portB kind => Sys2Proof.Machine.execPtpTransmit t portB kind s
  | .announceReceiptTimeout t portB => Sys2Proof.Machine.execAnnounceReceiptTimeout t portB s
  | .qualityLocked t => Sys2Proof.Machine.execQualityLocked t s
  | .authoriseStep t q => Sys2Proof.Machine.execAuthoriseStep t q s
  | .tpoFiring t k => Sys2Proof.Machine.execTpoFiring t k s
  | .tpoWidthEnd t k => Sys2Proof.Machine.execTpoWidthEnd t k s
  | .armTpo t q k => Sys2Proof.Machine.execArmTpo t q k s
  | .disarmTpo t q k => Sys2Proof.Machine.execDisarmTpo t q k s
  | .trigIn t x_i high => Sys2Proof.Machine.execTrigIn t x_i high s
  | .armAcquisition t q => Sys2Proof.Machine.execArmAcquisition t q s
  | .disarmAcquisition t q => Sys2Proof.Machine.execDisarmAcquisition t q s
  | .armTime t => Sys2Proof.Machine.execArmTime t s
  | .recordInstant t => Sys2Proof.Machine.execRecordInstant t s
  | .releaseCapture t q k => Sys2Proof.Machine.execReleaseCapture t q k s
  | .comtradeExportAssembly t q k => Sys2Proof.Machine.execComtradeExportAssembly t q k s
  | .exportComplete t k => Sys2Proof.Machine.execExportComplete t k s
  | .recordCommit t => Sys2Proof.Machine.execRecordCommit t s
  | .logSnapshot t q => Sys2Proof.Machine.execSnapshot t q s
  | .logFreeze t q => Sys2Proof.Machine.execFreeze t q s
  | .logFreezeEnd t => Sys2Proof.Machine.execFreezeEnd t s
  | .archiveAndClear t q seq => Sys2Proof.Machine.execArchiveAndClear t q seq s
  | .archiveAndClearComplete t => Sys2Proof.Machine.execArchiveAndClearComplete t s
  | .heartbeat t slot m => Sys2Proof.Machine.execHeartbeat t slot m s
  | .heartbeatSend t => Sys2Proof.Machine.execHeartbeatSend t s
  | .heartbeatMissed t slot => Sys2Proof.Machine.execHeartbeatMissed t slot s
  | .epochGrant t epoch first => Sys2Proof.Machine.execGrant t epoch first s
  | .epochRevoke t epoch last => Sys2Proof.Machine.execRevoke t epoch last s
  | .handoverRequest t slot pair cause => Sys2Proof.Machine.execHandoverRequest t slot pair cause s
  | .timeSync t departed others => Sys2Proof.Machine.execTimeSync t departed others s
  | .timeSyncSend t => Sys2Proof.Machine.execTimeSyncSend t s
  | .hopDelayMeasurement t ps => Sys2Proof.Machine.execHopDelayMeasurement t ps s
  | .masterLost t => Sys2Proof.Machine.execMasterLost t s
  | .arbiterLost t => Sys2Proof.Machine.execArbiterLost t s
  | .rackExecute t q => Sys2Proof.Machine.execExecute t q s
  | .rackPrepare t m => Sys2Proof.Machine.execPrepare t m s
  | .rackReady t slot txn => Sys2Proof.Machine.execReady t slot txn s
  | .rackRefuse t slot txn cause => Sys2Proof.Machine.execRefuse t slot txn cause s
  | .commitDecision t => Sys2Proof.Machine.execCommitDecision t s
  | .rackCommit t txn => Sys2Proof.Machine.execCommit t txn s
  | .rackAbort t txn => Sys2Proof.Machine.execAbort t txn s
  | .rackReport t slot txn applied => Sys2Proof.Machine.execReport t slot txn applied s
  | .stragglerDeadline t => Sys2Proof.Machine.execStragglerDeadline t s
  | .rackFiring t slot unit inst => Sys2Proof.Machine.execRackFiring t slot unit inst s
  | .rackArmMessage t arm inst => Sys2Proof.Machine.execRackArmMessage t arm inst s
  | .dictionaryGatewayFrame t m => Sys2Proof.Machine.execDictionaryGatewayFrame t m s
  | .gatewayTimeout t => Sys2Proof.Machine.execGatewayTimeout t s
  | .plannedHandover t q => Sys2Proof.Machine.execPlannedHandover t q s
  | .removalTimeout t => Sys2Proof.Machine.execRemovalTimeout t s
  | .closeBridges t q => Sys2Proof.Machine.execCloseBridges t q s
  | .bridgeOpen t k => Sys2Proof.Machine.execBridgeOpen t k s
  | .supplyLoss t mv => Sys2Proof.Machine.execSupplyLoss t mv s
  | .vinDip t => Sys2Proof.Machine.execVinDip t s
  | .supplyPresent t mv => Sys2Proof.Machine.execSupplyPresent t mv s
  | .holdUpPhase2 t => Sys2Proof.Machine.execHoldUpPhase2 t s
  | .powerPark t => Sys2Proof.Machine.execPark t s
  | .storeExhausted t => Sys2Proof.Machine.execStoreExhausted t s
  | .storeCharged t => Sys2Proof.Machine.execStoreCharged t s
  | .chargeTimeout t => Sys2Proof.Machine.execChargeTimeout t s
  | .storeTemperatureThreshold t temp => Sys2Proof.Machine.execStoreTemperatureThreshold t temp s
  | .proofCheckEnd t v0 va vb => Sys2Proof.Machine.execProofCheckEnd t v0 va vb s
  | .proofInterval t => Sys2Proof.Machine.execProofInterval t s
  | .proofRepeat t => Sys2Proof.Machine.execProofRepeat t s
  | .moduleConfigure t q => Sys2Proof.Machine.execConfigure t q s
  | .moduleArm t q => Sys2Proof.Machine.execArm t q s
  | .moduleRun t q => Sys2Proof.Machine.execRun t q s
  | .moduleSafeHold t q => Sys2Proof.Machine.execSafeHold t q s
  | .restartFromSafehold t q => Sys2Proof.Machine.execRestartFromSafehold t q s
  | .configurationStore t q => Sys2Proof.Machine.execConfigurationStore t q s
  | .configurationStoreComplete t => Sys2Proof.Machine.execConfigurationStoreComplete t s
  | .onDemandSelfTest t q => Sys2Proof.Machine.execOnDemandSelfTest t q s
  | .selfTestComplete t failed => Sys2Proof.Machine.execSelfTestComplete t failed s
  | .retryNow t q => Sys2Proof.Machine.execRetryNow t q s
  | .proofCheckNow t q => Sys2Proof.Machine.execProofCheckNow t q s
  | .backOffExpired t => Sys2Proof.Machine.execBackOffExpired t s
  | .serviceStart t => Sys2Proof.Machine.execServiceStart t s
  | .powerOn t mv => Sys2Proof.Machine.execPowerOn t mv s
  | .resetN t => Sys2Proof.Machine.execResetN t s
  | .domainSwitchOff t q d => Sys2Proof.Machine.execDomainSwitchOff t q d s
  | .domainSwitchOn t q d => Sys2Proof.Machine.execDomainSwitchOn t q d s
  | .domainReady t d => Sys2Proof.Machine.execDomainReady t d s
  | .domainFault t d => Sys2Proof.Machine.execDomainFault t d s
  | .inrushTimeout t => Sys2Proof.Machine.execInrushTimeout t s
  | .insertionComplete t slot msel => Sys2Proof.Machine.execInsertionComplete t slot msel s
  | .latchLeverOpened t => Sys2Proof.Machine.execLatchLeverOpened t s
  | .latchButton t => Sys2Proof.Machine.execLatchButton t s
  | .withdrawnWithoutWarning t => Sys2Proof.Machine.execWithdrawnWithoutWarning t s
  | .scrubPass t mem errs => Sys2Proof.Machine.execScrubPass t mem errs s
  | .uncorrectableError t mem addr u cycle => Sys2Proof.Machine.execUncorrectableError t mem addr u cycle s
  | .junctionWarning t d temp => Sys2Proof.Machine.execJunctionWarning t d temp s
  | .junctionFault t d temp => Sys2Proof.Machine.execJunctionFault t d temp s
  | .storeHot t temp => Sys2Proof.Machine.execStoreHot t temp s
  | .sessionOpen t d => Sys2Proof.Machine.execOpen t d s
  | .sessionProve t d => Sys2Proof.Machine.execProve t d s
  | .sessionClose t d => Sys2Proof.Machine.execClose t d s
  | .keepAlive t d => Sys2Proof.Machine.execKeepAlive t d s
  | .readEntry t d => Sys2Proof.Machine.execReadEntry t d s
  | .writeEntry t d => Sys2Proof.Machine.execWriteEntry t d s
  | .segmentRead t d => Sys2Proof.Machine.execSegmentRead t d s
  | .segmentWrite t d => Sys2Proof.Machine.execSegmentWrite t d s
  | .sessionIdleTimeout t sid => Sys2Proof.Machine.execSessionIdleTimeout t sid s
  | .openNotProved t sid => Sys2Proof.Machine.execOpenNotProved t sid s
  | .blockTimeEnd t src => Sys2Proof.Machine.execBlockTimeEnd t src s
  | .transferTimeout t index sub => Sys2Proof.Machine.execTransferTimeout t index sub s
  | .snapshotRelease t sid index sub => Sys2Proof.Machine.execSnapshotRelease t sid index sub s
  | .usdoRequest t k m => Sys2Proof.Machine.execUsdoRequest t k m s
  | .rpdo t k r data => Sys2Proof.Machine.execRpdo t k r data s
  | .canSync t k => Sys2Proof.Machine.execSync t k s
  | .tpdoEvent t k p timer => Sys2Proof.Machine.execTpdoEvent t k p timer s
  | .startRemoteNode t k => Sys2Proof.Machine.execStartRemoteNode t k s
  | .enterPreOperational t k => Sys2Proof.Machine.execEnterPreOperational t k s
  | .stopRemoteNode t k => Sys2Proof.Machine.execStopRemoteNode t k s
  | .resetNode t k => Sys2Proof.Machine.execResetNode t k s
  | .resetCommunication t k => Sys2Proof.Machine.execResetCommunication t k s
  | .producerHeartbeat t k => Sys2Proof.Machine.execProducerHeartbeat t k s
  | .consumerHeartbeatTimeout t k node => Sys2Proof.Machine.execConsumerHeartbeatTimeout t k node s
  | .busOff t k => Sys2Proof.Machine.execBusOff t k s
  | .gooseMessage t m => Sys2Proof.Machine.execGooseMessage t m s
  | .timeAllowedToLive t x_i => Sys2Proof.Machine.execTimeAllowedToLive t x_i s
  | .gooseMemberCompare t => Sys2Proof.Machine.execGooseMemberCompare t s
  | .gooseRetransmission t g => Sys2Proof.Machine.execGooseRetransmission t g s
  | .prpSupervision t p => Sys2Proof.Machine.execPrpSupervision t p s
  | .arpRequest t p target sender => Sys2Proof.Machine.execArpRequest t p target sender s
  | .icmpEcho t p dst payload => Sys2Proof.Machine.execIcmpEcho t p dst payload s
  | .lockHardwareLimits t q => Sys2Proof.Machine.execLockHardwareLimits t q s
  | .lockSecurityConfiguration t q => Sys2Proof.Machine.execLockSecurityConfiguration t q s
  | .roleKey t q r key => Sys2Proof.Machine.execRoleKey t q r key s
  | .firmwareUpdate t q img => Sys2Proof.Machine.execFirmwareUpdate t q img s
  | .firmwareUpdateComplete t writeOk => Sys2Proof.Machine.execFirmwareUpdateComplete t writeOk s
  | .firmwareConfirm t q => Sys2Proof.Machine.execConfirm t q s
  | .standalone t => Sys2Proof.Machine.execStandalone t s
  | .twinLinkTrained t digest => Sys2Proof.Machine.execTwinLinkTrained t digest s
  | .twinLinkDown t => Sys2Proof.Machine.execTwinLinkDown t s
  | .stateCopyReceived t m => Sys2Proof.Machine.execStateCopyReceived t m s
  | .twinForwardedWrite t index sub elem data => Sys2Proof.Machine.execTwinForwardedWrite t index sub elem data s
  | .lockstepMismatch t => Sys2Proof.Machine.execLockstepMismatch t s
  | .nodePowerOn t n id => Sys2Proof.Machine.execNodePowerOn t n id s
  | .canFdFrame t k ext ident data => Sys2Proof.Machine.execCanFdFrame t k ext ident data s
  | .delayResp t m => Sys2Proof.Machine.execDelayResp t m s
  | .gatewayReply t m => Sys2Proof.Machine.execGatewayReply t m s
  | .inrushRetry t => Sys2Proof.Machine.execInrushRetry t s

end Sys2Proof.Machine
end

