-- ==== Sys2Proof/Machine/Leds.lean ====
section
/-! DEFINITION. The front LEDs (R402): what each shows is read off the state; a module without power shows nothing. -/

namespace Sys2Proof.Machine

/-- The front LEDs, the patterns and the colours of Table 19-12. -/
inductive Led where
  | latch | mod | safe | time | link
  deriving DecidableEq, Repr

inductive Colour where
  | blue | red | green | amber
  deriving DecidableEq, Repr

inductive Blink where
  | steady | oneHz | twoHz
  deriving DecidableEq, Repr

/-- Table 19-12: an LED's rows in their order, each with the condition it shows. -/
def State.ledRows (l : Led) (s : State) : List (Bool × Colour × Blink) :=
  match l with
  | .latch =>
    [(s.mod == .removal && s.power.removal.isNone, .blue, .steady), (s.mod == .removal, .blue, .twoHz)]
  | .mod =>
    [(s.mod == .safeHold || s.mod == .faultWait, .red, .steady), (s.mod == .running, .green, .steady), (s.mod == .standby, .green, .oneHz),
     (s.mod == .init || s.mod == .proof || s.mod == .configuration || s.mod == .armed, .amber, .steady)]
  | .safe =>
    [((List.range 4).any (fun n => s.circState n == 4), .red, .twoHz), (s.rdN (key 0x7800 1) == 3, .red, .steady),
     (s.rdN (key 0x7800 1) == 2, .green, .steady), (s.rdN (key 0x7800 1) ≤ 1, .amber, .steady)]
  | .time =>
    let q := s.rdN (key 0x2300 3)
    [(q == 0 || q == 3, .amber, .steady), (q == 1 || q == 4, .green, .oneHz), (q == 2, .green, .steady)]
  | .link =>
    let bad := allLinks.any (fun k => s.rdB (lk k 1) && s.rdN (lk k 3) != 3)
    [(bad, .amber, .steady), (!bad, .green, .steady)]

/-- What LED `l` shows: the highest of its rows that applies; none where it is dark. -/
def State.led (l : Led) (s : State) : Option (Colour × Blink) :=
  if s.power.dark then none else ((s.ledRows l).find? (·.1)).map (·.2)

end Sys2Proof.Machine
end

