-- ==== Sys2Proof/WellFormed.lean ====
section
/-! DEFINITION. Well-formed commands: operands that fit the fields that carry them. A meaning is given for every command; the hosts of
the block send well-formed ones. -/

namespace Sys2Proof

/-- A number that fits w bits. -/
def fits (w n : Nat) : Bool := decide (n < 2 ^ w)

/-- Index, subindex and element as their fields carry them (Table 17-5). -/
def entryOk (index sub elem : Nat) : Bool := fits 16 index && fits 8 sub && fits 8 elem

/-- The fields of a datagram (Table 17-5): at most 1,024 data bytes and a 16-byte tag. -/
def Datagram.wf (d : Datagram) : Bool :=
  fits 32 d.src && decide (d.pair ≤ 1) && fits 32 d.sid && fits 32 d.seq && entryOk d.index d.sub d.elem && fits 4 d.target && fits 32 d.param
    && decide (d.data.length ≤ 1024) && decide (d.tag.length = 16) && fits 16 d.srcPort && fits 16 d.dstPort

/-- What a node's registers hold (Table 10-8). -/
def NodeId.wf (x : NodeId) : Bool := fits 16 x.kind && decide (x.slots ≤ 32) && fits 32 x.bootMask && fits 32 x.epoch

/-- One edge command (Table 10-5): 16 fine steps of offset, a node's slot. -/
def EdgeCmd.wf (e : EdgeCmd) : Bool := decide (e.pos < 32) && decide (e.slot < 32)

/-- The fields of a frame header (Table 10-3). -/
def FrameHead.wf (h : FrameHead) : Bool :=
  decide (h.count ≤ 32) && fits 64 h.tf && fits 32 h.epoch && fits 16 h.seq && fits 8 h.reqCode && fits 8 h.reqPos && fits 16 h.reqAddr
    && fits 32 h.reqData && fits 8 h.respCode && fits 8 h.respPos && fits 32 h.respData

/-- A frame as the module receives it: 32 up slots. -/
def UpFrame.wf (f : UpFrame) : Bool := f.head.wf && decide (f.slots.length ≤ 32)

/-- A frame as a node receives it: at most 32 control bytes and up slots. -/
def NodeFrame.wf (f : NodeFrame) : Bool :=
  f.head.wf && decide (f.controls.length ≤ 32) && decide (f.slots.length ≤ 32) && f.edges.all EdgeCmd.wf

/-- The enumeration of a link: at most 256 nodes, and the 64 repeats of the delay measurement (R216). -/
def LinkScan.wf (x : LinkScan) : Bool := decide (x.nodes.length ≤ 256) && x.nodes.all NodeId.wf && decide (x.runs.length = 64)

/-- Whether a command is well-formed. -/
def Instr.wf (i : Instr) : Bool :=
  match i with
  | .paceMeasurement _ paces => decide (paces.length = 24) && paces.all (fits 32)
  | .testDacInject _ _ _ code => fits 12 code
  | .chainBankWrite _ _ _ img => decide (img.length = 0 ∨ img.length = 1060)
  | .chainSwapRequest _ _ _ v => fits 8 v
  | .detectorWindowWrite _ _ _ w => fits 16 w
  | .slotBankWrite _ _ sl _ word v => if sl.val < 1024 then decide (word.val ≤ 7) && fits 16 v else fits 32 v
  | .slotStateWrite _ _ sl i v => if sl.val < 1024 then decide (i.val ≤ 1) && fits 64 v else fits 32 v
  | .recipeLoadAndVerify _ _ _ img => decide (img.length ≤ 262144)
  | .bankViewWrite _ _ _ _ sub v => fits 8 sub && fits 32 v
  | .pccBreakerStatusWrite _ _ _ v => fits 8 v
  | .envelopeWrite _ _ _ _ img => decide (img.length ≤ 140)
  | .testDuty _ _ _ v => fits 16 v
  | .upFrameReceived _ _ f => f.wf
  | .nodeControlByte _ _ _ epoch => fits 32 epoch
  | .nodeFrameReceived _ _ f => f.wf
  | .readRegister _ _ addr => fits 16 addr
  | .writeRegister _ _ addr data epoch => fits 16 addr && fits 32 data && fits 32 epoch
  | .clearLatchedFaults _ _ epoch standing => fits 32 epoch && fits 16 standing
  | .enumerateRequest _ _ data => fits 32 data
  | .linkEnumerate _ _ _ found => found.wf
  | .syncReturn _ _ found => found.wf
  | .linkBreak _ _ unreached => fits 32 unreached
  | .nodeRegisterWrite _ _ _ v => fits 32 v
  | .vgateLow _ mv => fits 16 mv
  | .vgateRecovered _ mv => fits 16 mv
  | .vbridgeOvervoltage _ mv => fits 32 mv
  | .vbridgeOvervoltageClear _ mv => fits 32 mv
  | .vbridgeLow _ mv => fits 32 mv
  | .vbridgeLowClear _ mv => fits 32 mv
  | .diagnosticStep _ _ v vp => fits 16 v.node && fits 16 v.bridge && fits 16 vp
  | .runDiagnostic _ _ d => fits 16 d.bridge
  | .driverShort _ _ x => fits 16 x.sense && fits 16 x.bridge
  | .islandCycle _ rb => decide (rb.length = 4)
  | .safetyTelegram _ _ bytes => decide (bytes.length ≤ 1522)
  | .referenceSelect _ _ v => fits 8 v
  | .archiveAndClear _ _ seq => fits 32 seq
  | .heartbeat _ _ m => decide (m.pair ≤ 4 ∨ m.pair = 255) && fits 8 m.authority && fits 8 m.health && fits 32 m.epoch && fits 32 m.nodeEpoch
    && decide (m.role ≤ 2) && decide (m.arbiter ≤ 2) && fits 8 m.arbiterSlot
  | .hopDelayMeasurement _ d => fits 32 d.up && d.down.all (fits 32)
  | .epochGrant _ epoch first => fits 32 epoch && fits 64 first
  | .epochRevoke _ epoch last => fits 32 epoch && fits 64 last
  | .handoverRequest _ _ _ cause => fits 8 cause
  | .timeSync _ departed _ => fits 64 departed
  | .rackPrepare _ m => fits 32 m.txn && fits 8 m.op && fits 32 m.mask && decide (m.params.length ≤ 4)
  | .rackReady _ _ txn => fits 32 txn
  | .rackRefuse _ _ txn cause => fits 32 txn && fits 8 cause
  | .rackCommit _ txn => fits 32 txn
  | .rackAbort _ txn => fits 32 txn
  | .rackReport _ _ txn applied => fits 32 txn && fits 32 applied
  | .rackFiring _ _ unit _ => decide (unit < 16 ∨ unit = 255)
  | .dictionaryGatewayFrame _ m => decide (0x10 ≤ m.service ∧ m.service ≤ 0x13) && entryOk m.index m.sub m.elem && fits 32 m.param && decide (m.data.length ≤ 32)
  | .supplyLoss _ mv => fits 16 mv
  | .supplyPresent _ mv => fits 16 mv
  | .powerOn _ mv => fits 16 mv
  | .sessionOpen _ d => d.wf
  | .sessionProve _ d => d.wf
  | .sessionClose _ d => d.wf
  | .keepAlive _ d => d.wf
  | .readEntry _ d => d.wf
  | .writeEntry _ d => d.wf
  | .segmentRead _ d => d.wf
  | .segmentWrite _ d => d.wf
  | .sessionIdleTimeout _ sid => fits 32 sid
  | .openNotProved _ sid => fits 32 sid
  | .blockTimeEnd _ src => fits 32 src
  | .transferTimeout _ index sub => entryOk index sub 0
  | .snapshotRelease _ sid index sub => fits 32 sid && entryOk index sub 0
  | .usdoRequest _ _ m => entryOk m.index m.sub 0 && decide (1 ≤ m.client ∧ m.client ≤ 127)
  | .rpdo _ _ _ data => decide (data.length ≤ 64)
  | .gooseMessage _ m => fits 16 m.appid && fits 32 m.confRev && decide (m.pair ≤ 1)
  | .arpRequest _ _ target sender => fits 32 target && fits 32 sender
  | .icmpEcho _ _ dst payload => fits 32 dst && decide (payload.length ≤ 1480)
  | .roleKey _ _ _ key => decide (key.length = 32)
  | .firmwareUpdate _ _ img => decide (img.length ≤ 16777216)
  | .twinLinkTrained _ digest => fits 32 digest
  | .stateCopyReceived _ m => decide (m.state ≤ 11)
  | .twinForwardedWrite _ index sub elem _ => entryOk index sub elem
  | .nodePowerOn _ _ id => id.wf
  | .canFdFrame _ _ ext ident data => fits (if ext then 29 else 11) ident && decide (data.length ≤ 64)
  | .gatewayReply _ m => fits 32 m.abort && decide (m.progress ≤ 100) && fits 32 m.param && decide (m.data.length ≤ 32)
  | .sampleInstant _ _ | .inputsReady _ _ | .itemComplete _ _ | .slotFault _ _ _ | .deadline _ _ | .batchLoad _ _ | .loadPoint _ _
  | .dictionaryJob _ _ | .laneTestStart _ | .laneDrained _ _ | .laneTestEnd _ _ _ | .laneStall _ _ | .followingErrorTick _ _
  | .openLoopTimeout _ _ | .loopReclose _ _ | .sarSlot _ _ _ _ | .pairTrigger _ _ | .coreSpareTakeover _ _ | .coreBackgroundTest _ _ _
  | .slotResultRead _ _ _ _ | .pathTest _ _ _ _ _ | .clearFault _ _ _ | .decimationInstant _ _ _ | .sigmaDeltaLoss _ _ _
  | .fastTapOutput _ _ | .trackingLostTimeout _ _ | .chainEnable _ _ _ | .chainBankSwapped _ _ | .bankSwapRequest _ _ _
  | .copyActiveToInactive _ _ _ | .targetWrite _ _ _ _ | .genHold _ _ _ | .genRelease _ _ _ | .genPreset _ _ _ | .recipeLoadComplete _ _
  | .recipeUnload _ _ _ | .batchEnable _ _ _ _ | .baseValuesWrite _ _ _ _ _ | .setpointWrite _ _ _ _ _ | .stagedApplication _ _
  | .setpointWatchdog _ _ | .batchStart _ _ _ | .batchStop _ _ _ | .batchBlock _ _ _ | .batchRelease _ _ _ | .faultReset _ _ _
  | .batchIsland _ _ _ | .batchResync _ _ _ | .batchBlackStart _ _ _ | .coastTimeLimit _ _ | .clearStatistics _ _ _
  | .maximumLimitedTime _ _ | .guardDelay _ _ | .excursionEnd _ _ _ | .dcLinkReady _ _ | .prechargeTimeLimit _ _
  | .starterWindowTimeout _ _ | .busDeclaredDead _ _ | .starterWaitLimit _ _ | .blackStartTimeLimit _ _ | .automaticResync _ _
  | .windowHeld _ _ | .closingTimeLimit _ _ | .resyncTimeLimit _ _ | .referenceNotLive _ _ | .pwmBlockN _ _ _ | .bootstrapUndervoltage _ _
  | .rechargeHold _ _ | .sliceCalibration _ _ | .extendedRecalibration _ | .returnToNormalMode _ _ | .sliceBackgroundTest _ _
  | .sliceTestEnd _ _ _ | .spareSliceTakeover _ _ | .frameDeparture _ | .nodeFrameUsable _ _ | .nodeEdge _ _ | .nodeSample _ _ _ _ _
  | .turnNodeFrame _ _ | .missedFramePeriod _ _ | .nodeWatchdog _ _ | .nodeShortCircuit _ _ _ _ | .turnNodeChange _ _ _
  | .delayMeasurement _ _ _ _ | .requestTimeout _ _ | .nodeRegisterRead _ _ _ | .clearFaults _ _ _ | .blankingEnd _ _ _
  | .driverClearFaults _ _ _ | .islandSelfTestEnd _ _ | .islandSample _ _ _ _ _ | .rmsUpdate _
  | .crossCheckGrace _ _ | .stageTrip _ _ | .meanUpdate _ _ | .deadToTheIsland _ | .islandOscillatorCheck _ _ | .islandSelfCheck _ _
  | .pd7SupplyLow _ | .safeStopN _ _ _ | .hostOpen _ _ _ | .hostClose _ _ _ | .acknowledge _ _ _ | .contactFeedbackClosed _ _
  | .closingTime _ _ | .coilOvercurrent _ _ _ | .readbackMismatch _ _ _ | .darkPulse _ _ _ | .brightPulse _ _ _ | .pulseRetry _ _ _
  | .noPartner _ | .telegramWatchdog _ | .statusTelegram _ | .observationComplete _ | .lockIslandSettings _ _
  | .lockInterfaceProtectionSettings _ _ | .refclkQualified _ | .refclkDisqualified _ | .refclkReselection _ | .pllUpdate _ | .pllLock _ _
  | .fastHopTimeout _ | .bandStore _ | .clearStoredBands _ _ | .pllUnlocked _ | .referenceLost _ _ | .returnToPll _ | .bothReferencesLost _
  | .rideWindowEnd _ | .referenceReturn _ _ | .housekeepingClockMeasurement _ _ | .ptpSync _ _ _ | .ptpAnnounce _ _ _ | .ptpPdelay _ _ _
  | .ptpTransmit _ _ _ | .announceReceiptTimeout _ _ | .qualityLocked _ | .authoriseStep _ _ | .tpoFiring _ _ | .tpoWidthEnd _ _
  | .armTpo _ _ _ | .disarmTpo _ _ _ | .trigIn _ _ _ | .armAcquisition _ _ | .disarmAcquisition _ _ | .armTime _ | .recordInstant _
  | .releaseCapture _ _ _ | .comtradeExportAssembly _ _ _ | .exportComplete _ _ | .recordCommit _ | .logSnapshot _ _ | .logFreeze _ _
  | .logFreezeEnd _ | .archiveAndClearComplete _ | .heartbeatSend _ | .heartbeatMissed _ _ | .timeSyncSend _
  | .masterLost _ | .arbiterLost _ | .rackExecute _ _ | .commitDecision _ | .stragglerDeadline _ | .rackArmMessage _ _ _
  | .gatewayTimeout _ | .plannedHandover _ _ | .removalTimeout _ | .closeBridges _ _ | .bridgeOpen _ _ | .vinDip _ | .holdUpPhase2 _
  | .powerPark _ | .storeExhausted _ | .storeCharged _ | .chargeTimeout _ | .storeTemperatureThreshold _ _ | .proofCheckEnd _ _ _ _
  | .proofInterval _ | .proofRepeat _ | .moduleConfigure _ _ | .moduleArm _ _ | .moduleRun _ _ | .moduleSafeHold _ _
  | .restartFromSafehold _ _ | .configurationStore _ _ | .configurationStoreComplete _ | .onDemandSelfTest _ _ | .selfTestComplete _ _
  | .retryNow _ _ | .proofCheckNow _ _ | .backOffExpired _ | .serviceStart _ | .resetN _ | .domainSwitchOff _ _ _ | .domainSwitchOn _ _ _
  | .domainReady _ _ | .domainFault _ _ | .inrushTimeout _ | .insertionComplete _ _ _ | .latchLeverOpened _ | .latchButton _
  | .withdrawnWithoutWarning _ | .scrubPass _ _ _ | .uncorrectableError _ _ _ _ _ | .junctionWarning _ _ _ | .junctionFault _ _ _
  | .storeHot _ _ | .canSync _ _ | .tpdoEvent _ _ _ _ | .startRemoteNode _ _ | .enterPreOperational _ _ | .stopRemoteNode _ _
  | .resetNode _ _ | .resetCommunication _ _ | .producerHeartbeat _ _ | .consumerHeartbeatTimeout _ _ _ | .busOff _ _
  | .timeAllowedToLive _ _ | .gooseMemberCompare _ | .gooseRetransmission _ _ | .prpSupervision _ _ | .lockHardwareLimits _ _
  | .lockSecurityConfiguration _ _ | .firmwareUpdateComplete _ _ | .firmwareConfirm _ _ | .standalone _ | .twinLinkDown _
  | .lockstepMismatch _ | .delayResp _ _ | .inrushRetry _ => true

end Sys2Proof
end

