-- ==== Sys2Proof/Safety.lean ====
section
/-! DEFINITION. What counts as a safe state, and the conditions on a state and a request that the statements name. -/

namespace Sys2Proof.Machine

/-! ### The canonical form of the dictionary and the queue -/

/-- A table lists its instances in strictly rising order, each once. -/
abbrev Tbl.Sorted {α : Type} (t : Tbl α) : Prop := (t.map (fun e => e.1)).Pairwise (· < ·)

/-- The dictionary's numbers and byte strings are in the one form that equal dictionaries share. -/
abbrev State.Canonical (s : State) : Prop := Tbl.Sorted s.od ∧ Tbl.Sorted s.blobs

/-- Every waiting command is well-formed. -/
abbrev State.QueueWf (s : State) : Prop := ∀ c ∈ s.pending, c.wf = true

/-- What every step keeps: the canonical dictionary and a queue of well-formed commands. -/
abbrev State.Inv (s : State) : Prop := s.Canonical ∧ s.QueueWf

/-! ### What a command may change -/

/-- The parts of the machine's state beside the dictionary's numbers. -/
inductive Group where
  /-- The dictionary's byte strings. -/
  | strings
  /-- The batches' cycles and timers. -/
  | batches
  /-- The fixed slots. -/
  | fixed
  /-- The float slots. -/
  | floats
  /-- The profile generators. -/
  | gens
  /-- The fabric's lanes and queues. -/
  | fabric
  /-- The measurement pairs, cores and chains. -/
  | meas
  /-- The PWM engine. -/
  | pwm
  /-- The cell links and their nodes. -/
  | links
  /-- The auxiliary bridge drivers. -/
  | aux
  /-- The safety island. -/
  | island
  /-- Clocks, time and time pulse outputs. -/
  | clock
  /-- Acquisition. -/
  | acq
  /-- The crumb log. -/
  | log
  /-- The rack link and the twin pair. -/
  | rack
  /-- The supply, the store and the start. -/
  | power
  /-- The server's sessions and transfers. -/
  | srv
  /-- The CAN ports and GOOSE. -/
  | net
  /-- The count of free values. -/
  | free
  deriving DecidableEq, Repr

/-- The place of a group in a set. -/
def Group.place : Group → Nat
  | .strings => 1
  | .batches => 2
  | .fixed => 3
  | .floats => 4
  | .gens => 5
  | .fabric => 6
  | .meas => 7
  | .pwm => 8
  | .links => 9
  | .aux => 10
  | .island => 11
  | .clock => 12
  | .acq => 13
  | .log => 14
  | .rack => 15
  | .power => 16
  | .srv => 17
  | .net => 18
  | .free => 19

/-- The zones of the dictionary that a set tells apart begin at these entries (index, subindex); every object of the map lies within one
zone, but the module object, whose state (0x2000.01) is a zone of its own. -/
def zoneStarts : List (Nat × Nat) :=
  [(0x1001, 0), (0x1002, 0), (0x2000, 0), (0x2000, 1), (0x2000, 2), (0x2001, 0), (0x2002, 0), (0x2100, 0),
   (0x2101, 0), (0x2102, 0), (0x2103, 0), (0x2104, 0), (0x2110, 0), (0x2111, 0), (0x2200, 0), (0x2201, 0),
   (0x2300, 0), (0x2301, 0), (0x2310, 0), (0x2320, 0), (0x2400, 0), (0x2401, 0), (0x2500, 0), (0x2501, 0),
   (0x2502, 0), (0x2510, 0), (0x2511, 0), (0x2520, 0), (0x2600, 0), (0x2601, 0), (0x2602, 0), (0x2610, 0),
   (0x2611, 0), (0x2620, 0), (0x2621, 0), (0x2710, 0), (0x2712, 0), (0x2720, 0), (0x2721, 0), (0x2740, 0),
   (0x2750, 0), (0x3000, 0), (0x3100, 0), (0x3106, 0), (0x3107, 0), (0x3200, 0), (0x3201, 0), (0x3210, 0),
   (0x3230, 0), (0x3400, 0), (0x3700, 0), (0x4000, 0), (0x5000, 0), (0x5080, 0), (0x5092, 0), (0x5093, 0),
   (0x5098, 0), (0x50A0, 0), (0x5100, 0), (0x6000, 0), (0x6400, 0), (0x6500, 0), (0x6520, 0), (0x6530, 0),
   (0x6531, 0), (0x6540, 0), (0x6600, 0), (0x7000, 0), (0x7001, 0), (0x7010, 0), (0x7030, 0), (0x70E0, 0),
   (0x7100, 0), (0x7101, 0), (0x7102, 0), (0x7800, 0), (0x7801, 0), (0x7802, 0), (0x7803, 0), (0x7810, 0),
   (0x7820, 0), (0x7830, 0), (0x7831, 0), (0x7840, 0), (0x7841, 0), (0x8000, 0)]

/-- The zone of an entry by its key. -/
def zone (k : Nat) : Nat := zoneStarts.countP (fun z => decide (key z.1 z.2 ≤ k))

/-- The entries of one zone, given by an entry it holds. -/
def zoneSet (z : Nat × Nat) : Nat := 2 ^ (20 + zone (key z.1 z.2))

/-- Every entry from the zone of an index on. -/
def zonesFrom (index : Nat) : Nat := 2 ^ (21 + zoneStarts.length) - 2 ^ (20 + zone (key index 0))

/-- A set of groups, of zones, and of all zones from an index on, as a number with a bit for each. -/
def changes (gs : List Group) (zs : List (Nat × Nat)) (above : Option Nat) : Nat :=
  (gs.map (fun g => 2 ^ g.place)).foldl (· ||| ·) 0 ||| (zs.map zoneSet).foldl (· ||| ·) 0 ||| (above.map zonesFrom).getD 0

/-- From s to t the waiting commands and the instant stay, the count of free values does not fall, the dictionary keeps its canonical
form, and every group and every entry of the dictionary outside the set m stays as it was. -/
structure Kept (m : Nat) (s t : State) : Prop where
  pending : t.pending = s.pending
  now : t.now = s.now
  fresh : s.fresh ≤ t.fresh
  canonical : s.Canonical → t.Canonical
  numbersSame : ∀ k, m.testBit (20 + zone k) = false → Tbl.find? k t.od = Tbl.find? k s.od
  stringsSame : m.testBit 1 = false → t.blobs = s.blobs
  batchesSame : m.testBit 2 = false → t.batches = s.batches
  fixedSame : m.testBit 3 = false → t.fixed = s.fixed
  floatsSame : m.testBit 4 = false → t.floats = s.floats
  gensSame : m.testBit 5 = false → t.gens = s.gens
  fabricSame : m.testBit 6 = false → t.fabric = s.fabric
  measSame : m.testBit 7 = false → t.meas = s.meas
  pwmSame : m.testBit 8 = false → t.pwm = s.pwm
  linksSame : m.testBit 9 = false → t.links = s.links
  auxSame : m.testBit 10 = false → t.aux = s.aux
  islandSame : m.testBit 11 = false → t.island = s.island
  clockSame : m.testBit 12 = false → t.clock = s.clock
  acqSame : m.testBit 13 = false → t.acq = s.acq
  logSame : m.testBit 14 = false → t.log = s.log
  rackSame : m.testBit 15 = false → t.rack = s.rack
  powerSame : m.testBit 16 = false → t.power = s.power
  srvSame : m.testBit 17 = false → t.srv = s.srv
  netSame : m.testBit 18 = false → t.net = s.net
  freeSame : m.testBit 19 = false → t.fresh = s.fresh

/-! ### A host's write that the server carries out -/

/-- The server is up, and no long operation runs. -/
abbrev State.Up (s : State) : Prop := s.serverUp = true ∧ s.longOp = 0

/-- The server is up, no long operation runs, and the module is no twin. -/
abbrev State.Serves (s : State) : Prop := s.serverUp = true ∧ s.longOp = 0 ∧ s.twinRole = 0

/-- A write of value v to entry index.sub passes checks 1 to 7 of R348. -/
abbrev State.Passes (q : Req) (index sub elem : Nat) (v : Int) (s : State) : Prop :=
  s.writeCheck q.role.rank true index sub elem (((descAt index sub).map (·.ty.bytes)).getD 0) v = 0

/-- A byte string passes the checks of R348 that come before the object's own. -/
abbrev State.PassesBlob (q : Req) (index sub : Nat) (l : List Byte) (s : State) : Prop := s.blobCheck q.role.rank true index sub l.length = 0

/-- The command c, carried out on s, answers a next state that has property P. -/
abbrev Completes (c : Instr) (s : State) (P : State → Prop) : Prop := ∃ t, exec c s = .next t ∧ P t

/-- The request of this command was answered with abort code e, 0 for success. -/
abbrev State.Answered (e : Nat) (s : State) : Prop := Output.reply e 0 [] ∈ s.out

/-- CAN port k runs at a command with instant t: the server is up, the port is enabled and not bus-off (R360). -/
abbrev State.CanRuns (t : Time) (k : Nat) (s : State) : Prop := s.canOn k = true ∧ (s.begin t).busIsOff k = false

/-! ### A datagram that its session takes -/

/-- Datagram d comes over the service port, or over an enabled pair to the port of the protocol (R353). -/
abbrev State.PairOpen (d : Datagram) (s : State) : Prop :=
  d.service = true ∨ (s.bit (key 0x2720 2) d.pair = true ∧ s.rdN (key 0x2720 1) = d.dstPort)

/-- Where a datagram's response goes: address (0 the service port), pair, port (R353). -/
abbrev replyTo (d : Datagram) : List Int := [if d.service then 0 else d.src, d.pair, d.srcPort]

/-- Datagram d of service svc reaches session x with the right magic and tag, which has proved itself unless this is its Prove (R353 to
R355). -/
abbrev State.Valid (svc : Nat) (d : Datagram) (x : Session) (s : State) : Prop :=
  s.serverUp = true ∧ s.PairOpen d ∧ s.ignores d = false ∧ (s.rateOk d).1 = true ∧
  s.session d.sid = some x ∧ 0 < d.sid ∧ d.sid < 2 ^ 32 ∧ d.magic = true ∧ d.tag = tagOf x.key (requestBytes svc d) ∧
  d.service = x.service ∧ (svc = 2 ∨ x.proved = true)

/-- It is the session's next request, and the server is free for it (R351, R356). -/
abbrev State.Asks (svc : Nat) (d : Datagram) (x : Session) (s : State) : Prop :=
  s.Valid svc d x ∧ s.longOp = 0 ∧ x.owes = false ∧ d.seq = (x.lastSeq.getD 0 + 1) % 2 ^ 32

/-- The state in which the server looks at that request: the session was heard, and this is what it asks. -/
abbrev State.taking (svc : Nat) (d : Datagram) (x : Session) (s : State) : State :=
  ((s.rateOk d).2.setSession d.sid { x with heard := s.now, hdr := some (svc, d) }).handling d.sid

/-- The response of session x to datagram d of service svc (Table 17-5, R354). -/
abbrev response (svc : Nat) (d : Datagram) (x : Session) (flags progress param : Nat) (data : List Byte) : Output :=
  .msg "DATAGRAM" (replyTo d) (datagramBytes svc d.sid d.seq d.index d.sub d.elem flags progress param data
    ++ tagOf x.key (datagramBytes svc d.sid d.seq d.index d.sub d.elem flags progress param data))

/-- Datagram d asks for an entry of this module (R358). -/
abbrev State.Local (d : Datagram) (s : State) : Prop := d.target = 0 ∨ (s.rackRole = 1 ∧ d.target - 1 = s.rdN (key 0x2500 1))

/-- A write of bytes l to a single value of an entry, with rank `rank`, passes every check and only sets the entry. -/
abbrev State.PlainWrite (q : Req) (rank : Nat) (host : Bool) (index sub elem : Nat) (l : List Byte) (s : State) : Prop :=
  index ≠ 0x2601 ∧ (∃ e, descAt index sub = some e ∧ e.ty.isBlob = false ∧ (e.n ≤ 1 ∨ elem ≠ 0) ∧
    effOf q index sub elem (e.ty.ofBytes l) = plainEff index sub elem (e.ty.ofBytes l) ∧
    s.writeCheck rank host index sub elem l.length (e.ty.ofBytes l) = 0)

/-- The value that bytes l give entry index.sub. -/
abbrev valueOf (index sub : Nat) (l : List Byte) : Int := ((descAt index sub).map (fun e => e.ty.ofBytes l)).getD 0

end Sys2Proof.Machine

namespace Sys2Proof

open Sys2Proof.Machine

/-- The instant that a command carries. -/
def Instr.instant : Instr → Time
  | .laneTestStart t | .extendedRecalibration t | .frameDeparture t | .rmsUpdate t | .deadToTheIsland t |
    .pd7SupplyLow t | .noPartner t | .telegramWatchdog t | .statusTelegram t | .observationComplete t |
    .refclkQualified t | .refclkDisqualified t | .refclkReselection t | .pllUpdate t | .fastHopTimeout t |
    .bandStore t | .pllUnlocked t | .returnToPll t | .bothReferencesLost t | .rideWindowEnd t | .qualityLocked t |
    .armTime t | .recordInstant t | .recordCommit t | .logFreezeEnd t | .archiveAndClearComplete t |
    .heartbeatSend t | .timeSyncSend t | .masterLost t | .arbiterLost t | .commitDecision t | .stragglerDeadline t |
    .gatewayTimeout t | .removalTimeout t | .vinDip t | .holdUpPhase2 t | .powerPark t | .storeExhausted t |
    .storeCharged t | .chargeTimeout t | .proofInterval t | .proofRepeat t | .configurationStoreComplete t |
    .backOffExpired t | .serviceStart t | .resetN t | .inrushTimeout t | .latchLeverOpened t | .latchButton t |
    .withdrawnWithoutWarning t | .gooseMemberCompare t | .standalone t | .twinLinkDown t | .lockstepMismatch t |
    .inrushRetry t => t
  | .sampleInstant t _ | .inputsReady t _ | .itemComplete t _ | .deadline t _ | .batchLoad t _ | .loadPoint t _ |
    .dictionaryJob t _ | .paceMeasurement t _ | .laneDrained t _ | .laneStall t _ | .followingErrorTick t _ |
    .openLoopTimeout t _ | .loopReclose t _ | .pairTrigger t _ | .coreSpareTakeover t _ | .fastTapOutput t _ |
    .trackingLostTimeout t _ | .chainBankSwapped t _ | .recipeLoadComplete t _ | .stagedApplication t _ |
    .setpointWatchdog t _ | .coastTimeLimit t _ | .maximumLimitedTime t _ | .guardDelay t _ | .dcLinkReady t _ |
    .prechargeTimeLimit t _ | .starterWindowTimeout t _ | .busDeclaredDead t _ | .starterWaitLimit t _ |
    .blackStartTimeLimit t _ | .automaticResync t _ | .windowHeld t _ | .closingTimeLimit t _ |
    .resyncTimeLimit t _ | .referenceNotLive t _ | .bootstrapUndervoltage t _ | .rechargeHold t _ |
    .sliceCalibration t _ | .returnToNormalMode t _ | .sliceBackgroundTest t _ | .spareSliceTakeover t _ |
    .nodeFrameUsable t _ | .nodeEdge t _ | .turnNodeFrame t _ | .missedFramePeriod t _ | .nodeWatchdog t _ |
    .requestTimeout t _ | .vgateLow t _ | .vgateRecovered t _ | .vbridgeOvervoltage t _ |
    .vbridgeOvervoltageClear t _ | .vbridgeLow t _ | .vbridgeLowClear t _ | .islandSelfTestEnd t _ |
    .islandCycle t _ | .crossCheckGrace t _ | .stageTrip t _ | .meanUpdate t _ | .islandOscillatorCheck t _ |
    .islandSelfCheck t _ | .contactFeedbackClosed t _ | .closingTime t _ | .lockIslandSettings t _ |
    .lockInterfaceProtectionSettings t _ | .pllLock t _ | .clearStoredBands t _ | .referenceLost t _ |
    .referenceReturn t _ | .housekeepingClockMeasurement t _ | .announceReceiptTimeout t _ | .authoriseStep t _ |
    .tpoFiring t _ | .tpoWidthEnd t _ | .armAcquisition t _ | .disarmAcquisition t _ | .exportComplete t _ |
    .logSnapshot t _ | .logFreeze t _ | .heartbeatMissed t _ | .hopDelayMeasurement t _ | .rackExecute t _ |
    .rackPrepare t _ | .rackCommit t _ | .rackAbort t _ | .dictionaryGatewayFrame t _ | .plannedHandover t _ |
    .closeBridges t _ | .bridgeOpen t _ | .supplyLoss t _ | .supplyPresent t _ | .storeTemperatureThreshold t _ |
    .moduleConfigure t _ | .moduleArm t _ | .moduleRun t _ | .moduleSafeHold t _ | .restartFromSafehold t _ |
    .configurationStore t _ | .onDemandSelfTest t _ | .selfTestComplete t _ | .retryNow t _ | .proofCheckNow t _ |
    .powerOn t _ | .domainReady t _ | .domainFault t _ | .storeHot t _ | .sessionOpen t _ | .sessionProve t _ |
    .sessionClose t _ | .keepAlive t _ | .readEntry t _ | .writeEntry t _ | .segmentRead t _ | .segmentWrite t _ |
    .sessionIdleTimeout t _ | .openNotProved t _ | .blockTimeEnd t _ | .canSync t _ | .startRemoteNode t _ |
    .enterPreOperational t _ | .stopRemoteNode t _ | .resetNode t _ | .resetCommunication t _ |
    .producerHeartbeat t _ | .busOff t _ | .gooseMessage t _ | .timeAllowedToLive t _ | .gooseRetransmission t _ |
    .prpSupervision t _ | .lockHardwareLimits t _ | .lockSecurityConfiguration t _ | .firmwareUpdateComplete t _ |
    .firmwareConfirm t _ | .twinLinkTrained t _ | .stateCopyReceived t _ | .delayResp t _ | .gatewayReply t _ => t
  | .slotFault t _ _ | .laneTestEnd t _ _ | .coreBackgroundTest t _ _ | .clearFault t _ _ |
    .decimationInstant t _ _ | .sigmaDeltaLoss t _ _ | .chainEnable t _ _ | .bankSwapRequest t _ _ |
    .copyActiveToInactive t _ _ | .genHold t _ _ | .genRelease t _ _ | .genPreset t _ _ | .recipeUnload t _ _ |
    .batchStart t _ _ | .batchStop t _ _ | .batchBlock t _ _ | .batchRelease t _ _ | .faultReset t _ _ |
    .batchIsland t _ _ | .batchResync t _ _ | .batchBlackStart t _ _ | .clearStatistics t _ _ | .excursionEnd t _ _ |
    .pwmBlockN t _ _ | .sliceTestEnd t _ _ | .upFrameReceived t _ _ | .nodeFrameReceived t _ _ |
    .turnNodeChange t _ _ | .readRegister t _ _ | .enumerateRequest t _ _ | .linkBreak t _ _ |
    .nodeRegisterRead t _ _ | .clearFaults t _ _ | .blankingEnd t _ _ | .driverShort t _ _ |
    .driverClearFaults t _ _ | .runDiagnostic t _ _ | .safeStopN t _ _ | .hostOpen t _ _ | .hostClose t _ _ |
    .acknowledge t _ _ | .coilOvercurrent t _ _ | .readbackMismatch t _ _ | .darkPulse t _ _ | .brightPulse t _ _ |
    .pulseRetry t _ _ | .safetyTelegram t _ _ | .referenceSelect t _ _ | .ptpSync t _ _ | .ptpAnnounce t _ _ |
    .ptpPdelay t _ _ | .ptpTransmit t _ _ | .armTpo t _ _ | .disarmTpo t _ _ | .trigIn t _ _ |
    .releaseCapture t _ _ | .comtradeExportAssembly t _ _ | .archiveAndClear t _ _ | .heartbeat t _ _ |
    .epochGrant t _ _ | .epochRevoke t _ _ | .timeSync t _ _ | .rackReady t _ _ | .rackArmMessage t _ _ |
    .domainSwitchOff t _ _ | .domainSwitchOn t _ _ | .insertionComplete t _ _ | .scrubPass t _ _ |
    .junctionWarning t _ _ | .junctionFault t _ _ | .transferTimeout t _ _ | .usdoRequest t _ _ |
    .consumerHeartbeatTimeout t _ _ | .firmwareUpdate t _ _ | .nodePowerOn t _ _ => t
  | .sarSlot t _ _ _ | .slotResultRead t _ _ _ | .testDacInject t _ _ _ | .chainBankWrite t _ _ _ |
    .chainSwapRequest t _ _ _ | .detectorWindowWrite t _ _ _ | .targetWrite t _ _ _ | .recipeLoadAndVerify t _ _ _ |
    .batchEnable t _ _ _ | .pccBreakerStatusWrite t _ _ _ | .testDuty t _ _ _ | .nodeControlByte t _ _ _ |
    .nodeShortCircuit t _ _ _ | .clearLatchedFaults t _ _ _ | .delayMeasurement t _ _ _ | .syncReturn t _ _ |
    .nodeRegisterWrite t _ _ _ | .diagnosticStep t _ _ _ | .handoverRequest t _ _ _ | .rackRefuse t _ _ _ |
    .rackReport t _ _ _ | .rackFiring t _ _ _ | .proofCheckEnd t _ _ _ | .snapshotRelease t _ _ _ | .rpdo t _ _ _ |
    .tpdoEvent t _ _ _ | .arpRequest t _ _ _ | .icmpEcho t _ _ _ | .roleKey t _ _ _ => t
  | .pathTest t _ _ _ _ | .slotStateWrite t _ _ _ _ | .baseValuesWrite t _ _ _ _ | .setpointWrite t _ _ _ _ |
    .envelopeWrite t _ _ _ _ | .writeRegister t _ _ _ _ | .linkEnumerate t _ _ _ | .islandSample t _ _ _ _ |
    .uncorrectableError t _ _ _ _ | .twinForwardedWrite t _ _ _ _ | .canFdFrame t _ _ _ _ => t
  | .slotBankWrite t _ _ _ _ _ | .bankViewWrite t _ _ _ _ _ => t
  | .nodeSample t _ _ _ _ => t

/-- What each command may change at its instant. -/
def Instr.touches : Instr → Nat
  | .sampleInstant _ _ =>
    changes [.strings, .batches, .fixed, .floats, .gens, .fabric, .meas, .pwm, .aux, .acq, .log, .rack, .power] []
      (some 0x2400)
  | .inputsReady _ _ =>
    changes [.batches, .gens, .fabric, .pwm, .acq, .log, .rack] [] (some 0x3000)
  | .itemComplete _ _ =>
    changes [.batches, .fixed, .floats, .gens, .fabric, .pwm, .acq, .log, .rack] [] (some 0x3000)
  | .slotFault _ _ _ | .deadline _ _ =>
    changes [.batches, .floats, .gens, .fabric, .pwm, .acq, .log, .rack] [] (some 0x3000)
  | .batchLoad _ _ | .openLoopTimeout _ _ | .maximumLimitedTime _ _ | .dcLinkReady _ _ | .prechargeTimeLimit _ _ |
    .blackStartTimeLimit _ _ | .automaticResync _ _ | .pwmBlockN _ _ _ =>
    changes [.batches, .gens, .pwm, .acq, .log, .rack] [] (some 0x3000)
  | .loadPoint _ _ | .paceMeasurement _ _ | .laneDrained _ _ | .laneTestEnd _ _ _ | .laneStall _ _ =>
    changes [.batches, .gens, .fabric, .pwm, .acq, .log, .rack, .power, .free] [] (some 0x2400)
  | .dictionaryJob _ _ | .dictionaryGatewayFrame _ _ | .powerPark _ | .readEntry _ _ | .writeEntry _ _ |
    .segmentRead _ _ | .segmentWrite _ _ | .usdoRequest _ _ _ | .rpdo _ _ _ _ | .gooseMessage _ _ |
    .timeAllowedToLive _ _ | .twinForwardedWrite _ _ _ _ _ =>
    changes [.strings, .batches, .fixed, .floats, .gens, .fabric, .meas, .pwm, .links, .aux, .island, .clock, .acq,
      .log, .rack, .power, .srv, .net, .free] [] (some 0x1000)
  | .laneTestStart _ =>
    changes [.batches, .fabric] [(0x6530, 0)] none
  | .followingErrorTick _ _ | .starterWindowTimeout _ _ | .starterWaitLimit _ _ =>
    changes [.batches, .fixed, .floats, .gens, .pwm, .acq, .log, .rack] [] (some 0x3000)
  | .loopReclose _ _ =>
    changes [.fixed, .floats] [] (some 0x4000)
  | .sarSlot _ _ _ _ =>
    changes [.fabric, .meas, .acq, .log, .rack, .power] [] (some 0x2400)
  | .pairTrigger _ _ =>
    changes [.fabric, .meas, .acq, .log, .rack] [] (some 0x5000)
  | .coreSpareTakeover _ _ | .decimationInstant _ _ _ | .sigmaDeltaLoss _ _ _ | .trackingLostTimeout _ _ =>
    changes [.meas, .acq, .log, .rack] [] (some 0x5000)
  | .coreBackgroundTest _ _ _ =>
    changes [.fabric, .meas, .acq, .log, .rack, .power, .free] [] (some 0x2400)
  | .slotResultRead _ _ _ _ =>
    changes [.srv] [] (some 0x5080)
  | .testDacInject _ _ _ _ =>
    changes [.batches, .meas, .acq, .log, .rack, .srv] [] (some 0x50A0)
  | .pathTest _ _ _ _ _ =>
    changes [.batches, .acq, .log, .rack, .srv] [] (some 0x50A0)
  | .clearFault _ _ _ =>
    changes [.batches, .meas, .acq, .log, .rack, .srv] [] (some 0x5098)
  | .fastTapOutput _ _ =>
    changes [.batches, .meas, .acq, .log, .rack] [] (some 0x4000)
  | .chainEnable _ _ _ | .chainSwapRequest _ _ _ _ | .detectorWindowWrite _ _ _ _ =>
    changes [.batches, .meas, .acq, .log, .rack, .srv] [] (some 0x5000)
  | .chainBankWrite _ _ _ _ =>
    changes [.strings, .batches, .meas, .acq, .log, .rack, .srv] [] (some 0x5000)
  | .chainBankSwapped _ _ =>
    changes [.strings, .batches, .meas] [] (some 0x4000)
  | .bankSwapRequest _ _ _ | .pccBreakerStatusWrite _ _ _ _ | .batchStart _ _ _ | .batchStop _ _ _ |
    .batchBlock _ _ _ | .batchRelease _ _ _ | .faultReset _ _ _ | .batchIsland _ _ _ | .batchResync _ _ _ |
    .batchBlackStart _ _ _ | .clearStatistics _ _ _ =>
    changes [.batches, .acq, .log, .rack, .srv] [] (some 0x4000)
  | .copyActiveToInactive _ _ _ | .slotBankWrite _ _ _ _ _ _ | .slotStateWrite _ _ _ _ _ | .targetWrite _ _ _ _ |
    .genHold _ _ _ | .genRelease _ _ _ | .genPreset _ _ _ | .baseValuesWrite _ _ _ _ _ | .bankViewWrite _ _ _ _ _ _ |
    .setpointWrite _ _ _ _ _ =>
    changes [.batches, .fixed, .floats, .gens, .acq, .log, .rack, .srv] [] (some 0x4000)
  | .recipeLoadAndVerify _ _ _ _ | .recipeUnload _ _ _ =>
    changes [.strings, .batches, .fixed, .floats, .gens, .meas, .acq, .log, .rack, .srv, .free] [(0x2001, 0), (0x2510,
      0)] (some 0x4000)
  | .recipeLoadComplete _ _ =>
    changes [.strings, .batches, .fixed, .floats, .gens, .meas, .acq, .log, .rack, .srv] [(0x2001, 0), (0x2510, 0)]
      (some 0x4000)
  | .batchEnable _ _ _ _ =>
    changes [.batches, .acq, .log, .rack, .srv] [(0x2510, 0)] (some 0x4000)
  | .stagedApplication _ _ =>
    changes [.batches, .gens] [] (some 0x4000)
  | .setpointWatchdog _ _ =>
    changes [.gens] [] (some 0x4000)
  | .coastTimeLimit _ _ =>
    changes [.batches, .gens] [] (some 0x6600)
  | .guardDelay _ _ =>
    changes [] [] (some 0x4000)
  | .excursionEnd _ _ _ | .windowHeld _ _ =>
    changes [.batches] [] (some 0x4000)
  | .envelopeWrite _ _ _ _ _ =>
    changes [.strings, .batches, .acq, .log, .rack, .srv] [] (some 0x4000)
  | .busDeclaredDead _ _ =>
    changes [.acq, .log, .rack] [] (some 0x4000)
  | .closingTimeLimit _ _ | .resyncTimeLimit _ _ | .referenceNotLive _ _ =>
    changes [.batches] [] none
  | .bootstrapUndervoltage _ _ =>
    changes [.pwm, .aux, .acq, .log, .rack] [] (some 0x3000)
  | .rechargeHold _ _ =>
    changes [.pwm, .aux] [] (some 0x3000)
  | .sliceCalibration _ _ | .sliceBackgroundTest _ _ | .sliceTestEnd _ _ _ | .spareSliceTakeover _ _ =>
    changes [.batches, .gens, .fabric, .pwm, .acq, .log, .rack, .power] [] (some 0x2400)
  | .extendedRecalibration _ =>
    changes [.pwm] [] none
  | .returnToNormalMode _ _ =>
    changes [.pwm] [] (some 0x3000)
  | .testDuty _ _ _ _ =>
    changes [.batches, .pwm, .acq, .log, .rack, .srv] [] (some 0x3000)
  | .frameDeparture _ | .heartbeat _ _ _ | .holdUpPhase2 _ | .backOffExpired _ | .domainFault _ _ |
    .insertionComplete _ _ _ | .latchLeverOpened _ | .withdrawnWithoutWarning _ | .scrubPass _ _ _ |
    .junctionFault _ _ _ =>
    changes [.strings, .batches, .gens, .fabric, .meas, .pwm, .links, .aux, .island, .clock, .acq, .log, .rack, .power,
      .srv, .net] [(0x2000, 1), (0x2000, 2)] (some 0x2100)
  | .upFrameReceived _ _ _ =>
    changes [.batches, .gens, .fabric, .pwm, .links, .acq, .log, .rack, .power, .srv, .net] [(0x2000, 1), (0x2000, 2),
      (0x2510, 0)] (some 0x2740)
  | .nodeControlByte _ _ _ _ | .nodeFrameUsable _ _ | .nodeEdge _ _ | .nodeSample _ _ _ _ _ | .turnNodeFrame _ _ |
    .missedFramePeriod _ _ | .nodeWatchdog _ _ | .nodeShortCircuit _ _ _ _ | .readRegister _ _ _ |
    .writeRegister _ _ _ _ _ | .clearLatchedFaults _ _ _ _ | .enumerateRequest _ _ _ | .delayMeasurement _ _ _ _ |
    .nodePowerOn _ _ _ =>
    changes [.links] [] none
  | .nodeFrameReceived _ _ _ =>
    changes [.links, .rack] [] none
  | .turnNodeChange _ _ _ | .linkBreak _ _ _ =>
    changes [.links, .acq, .log, .rack] [] (some 0x3700)
  | .requestTimeout _ _ =>
    changes [.links, .rack, .srv] [] (some 0x3700)
  | .linkEnumerate _ _ _ _ | .nodeRegisterWrite _ _ _ _ =>
    changes [.batches, .links, .acq, .log, .rack, .srv] [] (some 0x3400)
  | .syncReturn _ _ _ =>
    changes [.links] [] (some 0x3400)
  | .nodeRegisterRead _ _ _ =>
    changes [.links, .srv] [] none
  | .clearFaults _ _ _ =>
    changes [.batches, .links, .acq, .log, .rack, .srv] [] (some 0x6500)
  | .vgateLow _ _ | .vbridgeOvervoltage _ _ | .vbridgeLow _ _ | .driverShort _ _ _ | .diagnosticStep _ _ _ _ =>
    changes [.batches, .gens, .pwm, .aux, .acq, .log, .rack] [] (some 0x3000)
  | .vgateRecovered _ _ | .vbridgeOvervoltageClear _ _ | .vbridgeLowClear _ _ =>
    changes [.aux] [(0x3106, 0)] none
  | .blankingEnd _ _ _ =>
    changes [.aux] [] none
  | .driverClearFaults _ _ _ =>
    changes [.batches, .acq, .log, .rack, .srv] [] (some 0x3100)
  | .runDiagnostic _ _ _ =>
    changes [.batches, .gens, .pwm, .aux, .acq, .log, .rack, .srv] [] (some 0x3000)
  | .islandSelfTestEnd _ _ | .crossCheckGrace _ _ | .stageTrip _ _ | .meanUpdate _ _ | .deadToTheIsland _ |
    .islandOscillatorCheck _ _ | .islandSelfCheck _ _ | .pd7SupplyLow _ | .safeStopN _ _ _ |
    .contactFeedbackClosed _ _ | .closingTime _ _ | .coilOvercurrent _ _ _ | .readbackMismatch _ _ _ |
    .safetyTelegram _ _ _ | .telegramWatchdog _ | .observationComplete _ | .lockstepMismatch _ =>
    changes [.island, .acq, .log, .rack] [(0x2510, 0)] (some 0x4000)
  | .islandCycle _ _ =>
    changes [.island, .acq, .log, .rack, .srv] [(0x2510, 0)] (some 0x4000)
  | .islandSample _ _ _ _ _ | .darkPulse _ _ _ | .brightPulse _ _ _ | .pulseRetry _ _ _ =>
    changes [.island] [] none
  | .rmsUpdate _ =>
    changes [.meas, .island, .acq, .log, .rack] [(0x2510, 0)] (some 0x4000)
  | .hostOpen _ _ _ =>
    changes [.batches, .island, .acq, .log, .rack, .srv] [(0x2510, 0)] (some 0x4000)
  | .hostClose _ _ _ =>
    changes [.batches, .island, .acq, .log, .rack, .srv] [(0x2510, 0)] (some 0x6500)
  | .acknowledge _ _ _ =>
    changes [.batches, .island, .acq, .log, .rack, .srv] [] (some 0x6500)
  | .noPartner _ =>
    changes [.island] [] (some 0x7840)
  | .statusTelegram _ =>
    changes [.island, .acq, .log, .rack] [(0x7000, 0)] (some 0x7010)
  | .lockIslandSettings _ _ | .lockInterfaceProtectionSettings _ _ =>
    changes [.batches, .island, .acq, .log, .rack, .srv] [(0x2510, 0), (0x2600, 0)] (some 0x4000)
  | .refclkQualified _ | .refclkDisqualified _ | .refclkReselection _ | .pllUnlocked _ | .referenceLost _ _ |
    .bothReferencesLost _ | .referenceReturn _ _ =>
    changes [.pwm, .clock, .acq, .log, .rack] [(0x2200, 0)] (some 0x3000)
  | .referenceSelect _ _ _ =>
    changes [.batches, .pwm, .clock, .acq, .log, .rack, .srv] [(0x2200, 0)] (some 0x3000)
  | .pllUpdate _ =>
    changes [] [(0x2200, 0)] none
  | .pllLock _ _ | .housekeepingClockMeasurement _ _ =>
    changes [.clock] [(0x2200, 0)] none
  | .fastHopTimeout _ | .bandStore _ =>
    changes [] [] (some 0x2200)
  | .clearStoredBands _ _ =>
    changes [.batches, .acq, .log, .rack, .srv] [(0x2200, 0)] (some 0x6500)
  | .returnToPll _ =>
    changes [.pwm] [(0x2200, 0)] (some 0x3000)
  | .rideWindowEnd _ =>
    changes [.batches, .gens, .pwm, .clock, .acq, .log, .rack] [(0x2200, 0)] (some 0x3000)
  | .ptpSync _ _ _ =>
    changes [.meas, .links, .clock, .acq, .log, .rack, .free] [(0x2200, 0), (0x2300, 0)] (some 0x2310)
  | .ptpAnnounce _ _ _ | .ptpPdelay _ _ _ | .announceReceiptTimeout _ _ =>
    changes [.clock] [(0x2300, 0)] (some 0x2310)
  | .ptpTransmit _ _ _ =>
    changes [.free] [] none
  | .qualityLocked _ =>
    changes [] [(0x2300, 0)] none
  | .authoriseStep _ _ =>
    changes [.batches, .meas, .links, .clock, .acq, .log, .rack, .srv, .free] [(0x2300, 0)] (some 0x2320)
  | .tpoFiring _ _ =>
    changes [.meas, .clock, .acq, .log, .rack] [] (some 0x2320)
  | .tpoWidthEnd _ _ =>
    changes [.clock] [] none
  | .armTpo _ _ _ | .disarmTpo _ _ _ =>
    changes [.batches, .meas, .clock, .acq, .log, .rack, .srv] [] (some 0x2320)
  | .trigIn _ _ _ | .logFreezeEnd _ =>
    changes [.acq, .log, .rack] [(0x7000, 0)] (some 0x7010)
  | .armAcquisition _ _ | .disarmAcquisition _ _ | .logFreeze _ _ | .plannedHandover _ _ | .closeBridges _ _ =>
    changes [.batches, .acq, .log, .rack, .srv] [] (some 0x6500)
  | .armTime _ | .recordInstant _ =>
    changes [.strings, .acq, .log, .rack] [(0x7000, 0)] (some 0x7010)
  | .releaseCapture _ _ _ =>
    changes [.strings, .batches, .acq, .log, .rack, .srv] [] (some 0x6500)
  | .comtradeExportAssembly _ _ _ | .archiveAndClear _ _ _ | .firmwareUpdate _ _ _ =>
    changes [.batches, .acq, .log, .rack, .srv, .free] [(0x2001, 0)] (some 0x6500)
  | .exportComplete _ _ =>
    changes [.strings, .rack, .srv] [(0x2001, 0)] (some 0x70E0)
  | .recordCommit _ =>
    changes [.log] [(0x7100, 0)] none
  | .logSnapshot _ _ | .sessionIdleTimeout _ _ | .openNotProved _ _ | .blockTimeEnd _ _ | .transferTimeout _ _ _ |
    .snapshotRelease _ _ _ _ | .gatewayReply _ _ =>
    changes [.srv] [] none
  | .archiveAndClearComplete _ =>
    changes [.acq, .log, .rack, .srv] [(0x2001, 0), (0x7000, 0)] (some 0x7010)
  | .heartbeatSend _ | .twinLinkTrained _ _ =>
    changes [.rack] [(0x2510, 0)] none
  | .heartbeatMissed _ _ =>
    changes [.acq, .log, .rack] [(0x2500, 0), (0x2510, 0)] (some 0x2520)
  | .epochGrant _ _ _ | .rackCommit _ _ | .rackAbort _ _ =>
    changes [.rack] [(0x2500, 0)] none
  | .epochRevoke _ _ _ =>
    changes [.batches, .gens, .fabric, .pwm, .acq, .log, .rack, .power, .srv, .net] [(0x2000, 1), (0x2000, 2), (0x2500,
      0), (0x2510, 0)] (some 0x2740)
  | .handoverRequest _ _ _ _ =>
    changes [.acq, .log, .rack] [(0x2500, 0)] (some 0x2520)
  | .timeSync _ _ _ =>
    changes [.meas, .links, .clock, .acq, .log, .rack, .free] [(0x2200, 0), (0x2300, 0)] (some 0x2320)
  | .timeSyncSend _ | .stateCopyReceived _ _ =>
    changes [.rack] [] none
  | .hopDelayMeasurement _ _ | .standalone _ =>
    changes [] [(0x2500, 0)] none
  | .masterLost _ =>
    changes [.acq, .log, .rack] [(0x2300, 0), (0x2500, 0), (0x7000, 0)] (some 0x7010)
  | .arbiterLost _ | .rackFiring _ _ _ _ =>
    changes [.acq, .log, .rack] [(0x2500, 0), (0x7000, 0)] (some 0x7010)
  | .rackExecute _ _ =>
    changes [.batches, .acq, .log, .rack, .srv] [(0x2501, 0)] (some 0x6500)
  | .rackPrepare _ _ | .rackReport _ _ _ _ =>
    changes [.acq, .log, .rack] [(0x2500, 0), (0x2501, 0), (0x7000, 0)] (some 0x7010)
  | .rackReady _ _ _ | .rackRefuse _ _ _ _ =>
    changes [.rack] [(0x2500, 0), (0x2501, 0)] none
  | .commitDecision _ =>
    changes [.acq, .log, .rack] [] (some 0x2501)
  | .stragglerDeadline _ =>
    changes [.acq, .log, .rack] [(0x2501, 0), (0x7000, 0)] (some 0x7010)
  | .rackArmMessage _ _ _ =>
    changes [.rack] [(0x2500, 0), (0x7000, 0)] none
  | .gatewayTimeout _ =>
    changes [.rack, .srv] [] none
  | .removalTimeout _ =>
    changes [.strings, .batches, .gens, .meas, .pwm, .links, .aux, .island, .clock, .acq, .log, .rack, .power, .srv] []
      (some 0x2100)
  | .bridgeOpen _ _ =>
    changes [.island, .rack] [(0x2510, 0), (0x7800, 0)] (some 0x7820)
  | .supplyLoss _ _ =>
    changes [.strings, .batches, .gens, .fabric, .pwm, .island, .acq, .log, .rack, .power, .srv, .net] [(0x2000, 1),
      (0x2000, 2), (0x2103, 0), (0x2110, 0), (0x2510, 0)] (some 0x2740)
  | .vinDip _ =>
    changes [] [(0x2103, 0)] none
  | .supplyPresent _ _ | .storeExhausted _ | .powerOn _ _ | .resetN _ | .domainSwitchOff _ _ _ |
    .domainSwitchOn _ _ _ | .domainReady _ _ =>
    changes [.strings, .batches, .fixed, .floats, .gens, .fabric, .meas, .pwm, .links, .aux, .island, .clock, .acq,
      .log, .rack, .power, .srv, .net] [] (some 0x1000)
  | .storeCharged _ | .proofInterval _ | .proofRepeat _ =>
    changes [.power] [(0x2110, 0)] none
  | .chargeTimeout _ =>
    changes [.batches, .gens, .fabric, .pwm, .acq, .log, .rack, .power, .srv, .net] [(0x2000, 1), (0x2000, 2)] (some
      0x2740)
  | .storeTemperatureThreshold _ _ =>
    changes [] [(0x2110, 0)] none
  | .proofCheckEnd _ _ _ _ =>
    changes [.strings, .batches, .fixed, .floats, .gens, .fabric, .meas, .pwm, .links, .island, .clock, .acq, .log,
      .rack, .power, .srv, .net, .free] [] (some 0x1000)
  | .moduleConfigure _ _ | .moduleArm _ _ | .moduleRun _ _ | .moduleSafeHold _ _ | .restartFromSafehold _ _ |
    .configurationStore _ _ | .onDemandSelfTest _ _ | .retryNow _ _ | .proofCheckNow _ _ | .startRemoteNode _ _ |
    .enterPreOperational _ _ | .stopRemoteNode _ _ =>
    changes [.strings, .batches, .gens, .fabric, .meas, .pwm, .links, .aux, .island, .clock, .acq, .log, .rack, .power,
      .srv, .net, .free] [(0x2000, 1), (0x2000, 2), (0x2001, 0)] (some 0x2100)
  | .configurationStoreComplete _ =>
    changes [.rack, .power, .srv] [(0x2001, 0), (0x8000, 0)] none
  | .selfTestComplete _ _ =>
    changes [.batches, .gens, .fabric, .meas, .pwm, .acq, .log, .rack, .power, .srv, .free] [(0x2001, 0)] (some 0x2400)
  | .serviceStart _ =>
    changes [.batches, .gens, .fabric, .pwm, .island, .acq, .log, .rack, .power, .srv, .net] [(0x2000, 1), (0x2000, 2),
      (0x2510, 0), (0x2600, 0)] (some 0x2740)
  | .inrushTimeout _ | .latchButton _ =>
    changes [.power] [] none
  | .uncorrectableError _ _ _ _ _ =>
    changes [.strings, .batches, .floats, .gens, .fabric, .meas, .pwm, .links, .aux, .island, .clock, .acq, .log,
      .rack, .power, .srv, .net] [(0x2000, 1), (0x2000, 2)] (some 0x2100)
  | .junctionWarning _ _ _ | .inrushRetry _ =>
    changes [.power] [(0x2103, 0)] none
  | .storeHot _ _ =>
    changes [.power] [(0x2103, 0), (0x2110, 0)] none
  | .sessionOpen _ _ | .sessionProve _ _ =>
    changes [.acq, .log, .rack, .srv, .free] [(0x2610, 0), (0x2720, 0), (0x7000, 0)] (some 0x7010)
  | .sessionClose _ _ | .keepAlive _ _ =>
    changes [.rack, .srv] [(0x2610, 0), (0x2720, 0)] none
  | .canSync _ _ | .tpdoEvent _ _ _ _ | .producerHeartbeat _ _ | .busOff _ _ =>
    changes [.net] [] (some 0x2710)
  | .resetNode _ _ =>
    changes [] [] (some 0x2710)
  | .resetCommunication _ _ =>
    changes [.net] [(0x1001, 0)] (some 0x2710)
  | .consumerHeartbeatTimeout _ _ _ =>
    changes [.acq, .log, .rack, .net] [(0x1001, 0), (0x7000, 0)] (some 0x7010)
  | .gooseMemberCompare _ | .gooseRetransmission _ _ =>
    changes [.net] [] (some 0x2740)
  | .prpSupervision _ _ =>
    changes [.net] [] none
  | .arpRequest _ _ _ _ | .icmpEcho _ _ _ _ =>
    changes [] [] none
  | .lockHardwareLimits _ _ | .lockSecurityConfiguration _ _ =>
    changes [.batches, .acq, .log, .rack, .srv] [(0x2600, 0)] (some 0x6500)
  | .roleKey _ _ _ _ =>
    changes [.strings, .acq, .log, .rack, .srv] [(0x2601, 0), (0x7000, 0)] (some 0x7010)
  | .firmwareUpdateComplete _ _ =>
    changes [.acq, .log, .rack, .srv] [(0x2001, 0)] (some 0x2620)
  | .firmwareConfirm _ _ =>
    changes [.batches, .acq, .log, .rack, .power, .srv] [] (some 0x2400)
  | .twinLinkDown _ =>
    changes [.acq, .log, .rack] [(0x2510, 0), (0x7000, 0)] (some 0x7010)
  | .canFdFrame _ _ _ _ _ =>
    changes [.acq, .log, .rack, .net] [(0x1001, 0)] (some 0x2710)
  | .delayResp _ _ =>
    changes [.clock] [(0x2300, 0)] none

end Sys2Proof
end

