-- ==== Sys2Proof/Certificates/Slice0/Obligations.lean ====
section
/-! DEFINITION. The statements for the provers: what each command does, the state after reset, the invariant, the frame of every
command, the order of the server's checks. -/

open Sys2Proof Sys2Proof.Machine

/-- A step carries out the front command on the machine with the queue's rest; on an empty queue the block idles, the model's choice
(notes/assumptions/6). -/
def Obligations.StepRunsFront : Prop :=
  (∀ (c : Instr) (s : State) (rest : List Instr), s.pending = c :: rest → step s = exec c { s with pending := rest }) ∧
  (∀ s : State, s.pending = [] → step s = .next s)

/-- After a first power-on the module is in Init with reset kind 1 and one reset counted, PD0 is on and every other domain off, every batch is Off and
not enabled, no recipe and no key is loaded, slice c serves channel c, every circuit is Open with its switches off, no command waits; event
0x0002 waits for its commit. That PD0 is on and that the event waits are the model's choices
(notes/assumptions/87). -/
def Obligations.ResetState : Prop :=
  State.reset.pending = [] ∧ State.reset.mod = .init ∧ State.reset.rd (key 0x2000 6) = 1 ∧ State.reset.rd (key 0x2000 7) = 1 ∧
  State.reset.dom 0 = 2 ∧ (∀ d, 1 ≤ d → d < 8 → State.reset.dom d = 0) ∧
  (∀ b, b < 32 → State.reset.bstate b = .off ∧ State.reset.benabled b = false ∧ State.reset.recipe b = none ∧ (State.reset.batch b).outOn = false) ∧
  (∀ c, c < 256 → (State.reset.slice c).channel = some c) ∧ (∀ r, 1 ≤ r → r ≤ 4 → State.reset.keySet r = false) ∧
  (∀ n, n < 4 → State.reset.circState n = 0 ∧ (State.reset.circ n).hs = false ∧ (State.reset.circ n).ls = false) ∧
  (∀ a, a < 4 → State.reset.locked a = false) ∧ State.reset.log.queue.map (fun e => e.code) = [0x0002] ∧ State.reset.log.records = []

/-- The state after reset has its dictionary in canonical form and an empty queue. -/
def Obligations.ResetMeetsInvariant : Prop := State.reset.Inv

/-- Every step keeps the dictionary's canonical form and leaves only well-formed commands waiting. -/
def Obligations.StepKeepsInvariant : Prop := ∀ s t : State, s.Inv → step s = .next t → t.Inv

/-- The frame of every command: each answers a next state on every machine, and from its instant on it changes only the parts of the state and
the zones of the dictionary that Instr.touches lists for it, and never the waiting commands. -/
def Obligations.ExecKeepsFrame : Prop := ∀ (c : Instr) (s : State), Completes c s (fun t => Kept c.touches (s.begin c.instant) t)

/-- R348: the frame of an accepted plain write over a session: every other entry, every byte string and every part of the machine beside the server
stays. -/
def Obligations.PlainWriteFrame : Prop :=
  ∀ (t : Time) (d : Datagram) (x : Session) (s : State), (s.begin t).Asks 0x11 d x → s.Local d → s.twinRole = 0 →
    s.PlainWrite (x.req d.sid) (x.req d.sid).role.rank true d.index d.sub d.elem d.data →
    Completes (.writeEntry t d) s (fun u => (∀ k, k ≠ key d.index d.sub d.elem → Tbl.find? k u.od = Tbl.find? k s.od) ∧
      ∃ v o, u = { (s.begin t) with od := Tbl.set (key d.index d.sub d.elem) (valueOf d.index d.sub d.data) s.od, srv := v, out := o })

/-- R348, R378: the order in which a host's write of one value is checked, each code while every earlier check passes: existence, role, access and
module state, lock, ownership, length, range; then the object's own conditions. Out of range, a generator limit that is not finite and greater than
0 answers 0x0B000041 (R91) and a carrier period 0x0B000085 (R180; notes/assumptions/114); a float slot's bank coefficient passes on to the
object's own conditions, which answer 0x0B000041 (R82; notes/assumptions/105). A refused write changes no entry below 0x7000. -/
def Obligations.WriteChecksInOrder : Prop :=
  (∀ (rank : Nat) (host : Bool) (index sub elem len : Nat) (v : Int) (s : State),
    (indexExists index = false → descAt index sub = none → s.writeCheck rank host index sub elem len v = 0x06020000) ∧
    (indexExists index = true → descAt index sub = none → sub ≠ 0 ∨ isRecord index = false →
      s.writeCheck rank host index sub elem len v = 0x06090011) ∧
    (∀ d, descAt index sub = some d →
      (d.n < elem ∨ (d.n = 1 ∧ elem ≠ 0) → s.writeCheck rank host index sub elem len v = 0x06090011) ∧
      (elem ≤ d.n → (d.n = 1 → elem = 0) →
        (rank < writeRank index sub v → s.writeCheck rank host index sub elem len v = 0x0B000005) ∧
        (writeRank index sub v ≤ rank →
          (d.acc = .ro → s.writeCheck rank host index sub elem len v = 0x06010002) ∧
          (d.acc = .rwc → s.mod ≠ .configuration → s.writeCheck rank host index sub elem len v = 0x08000022) ∧
          (d.acc = .rwl → ∀ a, lockArea index sub = some a → s.locked a = true → s.writeCheck rank host index sub elem len v = 0x0B000004) ∧
          (d.acc = .rw ∨ d.acc = .wo ∨ (d.acc = .rwc ∧ s.mod = .configuration) ∨
              (d.acc = .rwl ∧ ∀ a, lockArea index sub = some a → s.locked a = false) → index ≠ 0x2601 →
            (host = true → s.gooseOwned index sub = true ∨ s.rpdoOwned index sub = true → s.writeCheck rank host index sub elem len v = 0x0B000003) ∧
            (host = false ∨ (s.gooseOwned index sub = false ∧ s.rpdoOwned index sub = false) →
              (len ≠ d.ty.bytes → s.writeCheck rank host index sub elem len v = 0x06070010) ∧
              (len = d.ty.bytes → d.rng.ok d.ty v = false → s.writeCheck rank host index sub elem len v =
                if 0x6400 ≤ index ∧ index < 0x6440 ∧ 0x10 ≤ sub ∧ sub ≤ 0x2F then 0
                else if 0x6600 ≤ index ∧ index < 0x6640 ∧ 3 ≤ sub ∧ sub ≤ 6 ∧ (f32Finite v.toNat = false ∨ fval (BitVec.ofNat 32 v.toNat) ≤ 0) then 0x0B000041
                else if 0x4000 ≤ index ∧ index < 0x4400 ∧ index % 0x20 = 4 ∧ sub = 1 then 0x0B000085 else 0x06090030) ∧
              (len = d.ty.bytes → d.rng.ok d.ty v = true → s.writeCheck rank host index sub elem len v = 0))))))) ∧
  (∀ (q : Req) (index sub elem : Nat) (v : Int) (e : Eff) (s : State), s.serverUp = true → s.longOp = 0 →
    (∀ c, s.writeCheck q.role.rank true index sub elem (((descAt index sub).map (·.ty.bytes)).getD 0) v = c → c ≠ 0 →
      (s.hostWrite q index sub elem v e).Answered c ∧
      ∀ k, k < key 0x7000 0 → Tbl.find? k (s.hostWrite q index sub elem v e).od = Tbl.find? k s.od) ∧
    (s.Passes q index sub elem v → s.twinRole = 0 → e.own (s.handling q.sid) ≠ 0 →
      (s.hostWrite q index sub elem v e).Answered (e.own (s.handling q.sid)) ∧ (s.hostWrite q index sub elem v e).od = s.od)) ∧
  (∀ (q : Req) (index sub elem : Nat) (v : Int) (e : Eff) (s : State), s.serverUp = true → s.longOp ≠ 0 →
    s.hostWrite q index sub elem v e = { s with out := s.out ++ [.reply 0x0B000001 s.progress []] })

/-- R347: the access codes of Table 17-2 on writes of values and of byte strings, and on reads. -/
def Obligations.AccessCodesGovern : Prop :=
  ∀ (index sub : Nat) (d : Desc), descAt index sub = some d →
    (d.acc = .ro ∨ d.acc = .rw ∨ d.acc = .rwc ∨ d.acc = .rwl ∨ d.acc = .wo) ∧ (d.acc = .rwl → ∃ a, lockArea index sub = some a) ∧
    (∀ (rank : Nat) (host : Bool) (elem len : Nat) (v : Int) (c : Nat) (s : State), elem ≤ d.n → (d.n = 1 → elem = 0) → writeRank index sub v ≤ rank →
      c = s.writeCheck rank host index sub elem len v →
      (d.acc = .ro → c = 0x06010002) ∧
      (d.acc = .rw ∨ d.acc = .wo → c ≠ 0x06010002 ∧ c ≠ 0x08000022) ∧
      (d.acc = .rwc → (c = 0x08000022 ↔ s.mod ≠ .configuration) ∧ c ≠ 0x06010002) ∧
      (d.acc = .rwl → ∀ a, lockArea index sub = some a → (c = 0x0B000004 ↔ s.locked a = true) ∧ c ≠ 0x06010002 ∧ c ≠ 0x08000022)) ∧
    (∀ (rank : Nat) (host : Bool) (len : Nat) (s : State), d.ty.isBlob = true → writeRank index sub 0 ≤ rank → d.acc ≠ .rwl ∧
      (d.acc = .ro → s.blobCheck rank host index sub len = 0x06010002) ∧
      (d.acc = .rwc → (s.blobCheck rank host index sub len = 0x08000022 ↔ s.mod ≠ .configuration)) ∧
      (d.acc = .rw ∨ d.acc = .wo → s.blobCheck rank host index sub len ≠ 0x06010002 ∧ s.blobCheck rank host index sub len ≠ 0x08000022)) ∧
    (∀ (elem : Nat) (s : State), elem ≤ d.n → (d.n = 1 → elem = 0) →
      (d.acc = .wo → s.readCheck index sub elem = 0x06010001) ∧
      (d.acc ≠ .wo → ¬(0x8600 ≤ index ∧ index < 0x8620) ∨ s.rdN (bfk (index - 0x8600) 1) = 5 → s.readCheck index sub elem = 0))

/-- R137: the batch state entry and the codes of Table 06-3: the entry's code says the state, and a batch that enters a state shows its code. -/
def Obligations.BatchStateCodes : Prop :=
  ∀ x c, (x, c) ∈ [(BatchState.off, 0x00), (.precharge, 0x01), (.starter, 0x02), (.blackStart, 0x03), (.connected, 0x04), (.islanded, 0x05),
      (.currentLimited, 0x06), (.coast, 0x07), (.resync, 0x08), (.following, 0x09), (.blocked, 0x0A), (.fault, 0x0B)] →
    (∀ (b : Nat) (s : State), b < 32 → s.rdN (key (0x4001 + 0x20 * b) 1) = c → s.bstate b = x) ∧
    (∀ (b cause : Nat) (s : State), b < 32 → s.bstate b ≠ x → (s.setState b x cause).rdN (key (0x4001 + 0x20 * b) 1) = c ∧
      (s.setState b x cause).bstate b = x)

/-- R249: after every island cycle the permissive of batch b (0x7800.09, bit b) is present when each circuit that names b and is no bridge is Closed, or would meet R247
with a resync closing request present: Run, Open, no demand on it (a clear permit of a required telegram among the demands), 0x7801.0C names
it, connection conditions for the observation time, check-synchronism met. -/
def Obligations.PermissiveOfEveryCycle : Prop :=
  ∀ (t : Time) (rb : List Readback) (s : State), Completes (.islandCycle t rb) s (fun u => ∀ b : Batch, u.bit (key 0x7800 9) b = true ↔
    ∀ n, n < 4 → u.isBridge n = false → (u.rdN (key (0x7820 + n) 1)).testBit b = true → u.circState n = 3 ∨
      (u.islandState = 2 ∧ u.circState n = 0 ∧ (u.actMask u.standing).testBit n = false ∧ u.rdN (key 0x7801 0xC) = n ∧
        u.island.observed = true ∧ u.bit (key 0x7800 6) 5 = true))

/-- R276, R278: a unit fires at most once per episode of its condition. While it is latched and the condition is neither released (0, 1) nor false (2 to 5) it
does not fire and stays latched; a firing latches it, but under condition 6; a release or a false update unlatches it without a firing; condition
6 and types 0x06 and 0x0B fire on every qualifying update after the holdoff. How conditions 0 and 1 hold and release within the hysteresis is as
notes/assumptions/44 reads R278. That a unit fires at most once along a chain of units that one event's
log record triggers is the model's choice (notes/assumptions/43). -/
def Obligations.TriggerFiresOncePerEpisode : Prop :=
  (∀ (n : Nat) (raw : Bool) (v : Option Int) (tm : Time) (s t : State) (c : Nat) (l1 h : Int), n < 16 → s.set0 (tuk n 2) ≠ 0xB →
    t = s.unitUpdate n raw v tm → c = s.rdN (tuk n 4) → h = s.rd (tuk n 7) → 0 ≤ h →
    l1 = (if raw then s.rd (tuk n 5) % 2 ^ 32 else s.rd (tuk n 5)) →
    ((s.trig n).latched = true → (c = 0 → ∀ x, v = some x → l1 - h ≤ x) → (c = 1 → ∀ x, v = some x → x ≤ l1 + h) →
      (2 ≤ c → c < 6 ∧ ∃ x, v = some x ∧
        condHolds c l1 (if raw then s.rd (tuk n 6) % 2 ^ 32 else s.rd (tuk n 6)) h x (s.trig n) = true) →
      t.rd (tuk n 0xD) = s.rd (tuk n 0xD) ∧ (t.trig n).latched = true) ∧
    (t.rd (tuk n 0xD) ≠ s.rd (tuk n 0xD) → t.rdN (tuk n 0xD) = (s.rdN (tuk n 0xD) + 1) % 2 ^ 32 ∧ (c ≠ 6 → (t.trig n).latched = true)) ∧
    (∀ x, v = some x → (c = 0 ∧ x < l1 - h) ∨ (c = 1 ∧ l1 + h < x) ∨ (c = 2 ∧ (x < l1 ∨ (if raw then s.rd (tuk n 6) % 2 ^ 32 else s.rd (tuk n 6)) < x)) ∨
        (c = 3 ∧ l1 ≤ x ∧ x ≤ (if raw then s.rd (tuk n 6) % 2 ^ 32 else s.rd (tuk n 6))) ∨ (c = 4 ∧ x ≠ l1) ∨ (c = 5 ∧ x = l1) →
      t.rd (tuk n 0xD) = s.rd (tuk n 0xD) ∧ (t.trig n).latched = false) ∧
    (∀ x p, c = 6 → v = some x → (s.trig n).prev = some p → x ≠ p → s.rdN (tuk n 8) ≤ (s.trig n).run + 1 → s.holdoffOver n = true →
      t.rdN (tuk n 0xD) = (s.rdN (tuk n 0xD) + 1) % 2 ^ 32)) ∧
  (∀ (n : Nat) (tm : Time) (s : State), n < 16 → s.set0 (tuk n 2) ≠ 0xB → s.rdN (tuk n 8) ≤ (s.trig n).run + 1 → s.holdoffOver n = true →
    (s.everyUpdate State.logEvent n tm).rdN (tuk n 0xD) = (s.rdN (tuk n 0xD) + 1) % 2 ^ 32) ∧
  (∀ (n k : Nat) (l : List Nat) (tm : Time) (s : State), n < 16 → s.rdN (tuk n 8) ≤ (s.trig n).run + 1 → s.holdoffOver n = true →
    (s.everyUpdate (State.logChain k (n :: l)) n tm).rdN (tuk n 0xD) = (s.rdN (tuk n 0xD) + 1) % 2 ^ 32)

/-- R330: a module that is configured and is to be armed stops at the first check that fails, refuses with 0x0B000012 and names the check. -/
def Obligations.ArmStopsAtFirstFailedCheck : Prop :=
  ∀ (t : Time) (q : Req) (s s1 : State) (k : Nat), s.serverUp = true → s.longOp = 0 → s.Passes q 0x2000 3 0 2 → s.mod = .configuration →
    s1 = (s.begin t).handling q.sid →
    (k = 1 ∧ (s1.admission factor08 s1.lanesIn.length s1.carriers s1.enabledFigs).result ≠ 0) ∨
    ((s1.admission factor08 s1.lanesIn.length s1.carriers s1.enabledFigs).result = 0 ∧
      ((k = 2 ∧ ∃ b, b < 32 ∧ s.benabled b = true ∧ s.recipe b = none) ∨
      ((∀ b, b < 32 → s.benabled b = true → s.recipe b ≠ none) ∧
        ((k = 3 ∧ ∃ b n, b < 32 ∧ s.benabled b = true ∧ s.outClass b = 1 ∧ n ∈ s.batchNodes b ∧ s.rdN (ndk n 5) ≠ 2) ∨
        ((∀ b n, b < 32 → s.benabled b = true → s.outClass b = 1 → n ∈ s.batchNodes b → s.rdN (ndk n 5) = 2) ∧
          ((k = 4 ∧ s.bit (stk 0xF) 1 = true) ∨
          (s.bit (stk 0xF) 1 = false ∧
            ((k = 5 ∧ s.twinRole ≠ 0 ∧ s1.pairState = 5) ∨ (k = 0 ∧ ¬(s.twinRole ≠ 0 ∧ s1.pairState = 5)))))))))) →
    (k ≠ 0 → Completes (.moduleArm t q) s (fun u => u.mod = .configuration ∧ u.rdN (mdk 0xB) = k ∧ u.Answered 0x0B000012)) ∧
    (k = 0 → Completes (.moduleArm t q) s (fun u => u.mod = .armed ∧ u.rd (mdk 0xB) = 0 ∧ u.Answered 0))

/-- R182: the compare pair that a load forms, for an even F, a minimum pulse within half a carrier and a refresh width of two minimum pulses or more: it is
centred on the midpoint, each on-piece and each off-piece of a half is zero or at least mu, the carry is at most mu; with refresh limiting
the off-piece keeps half the refresh width; a duty in between is taken exactly. -/
def Obligations.LoadFormsTheComparePair : Prop :=
  ∀ (f tmin tref : Nat) (double limit : Bool) (d carry hr h mu : Int) (p : PairOut), f % 2 = 0 → tmin ≤ f / 2 → 2 * tmin ≤ tref → tref ≤ f →
    p = loadPair f double tmin tref limit d carry → hr = rne (d * f) 16 + carry → mu = (if double then tmin else ((tmin + 1) / 2 : Nat)) →
    h = (f / 2 : Nat) - (p.a : Int) →
    p.a + p.b = f ∧ 0 ≤ h ∧ h ≤ (f / 2 : Nat) ∧ (h = 0 ∨ mu ≤ h) ∧ (h = (f / 2 : Nat) ∨ h ≤ (f / 2 : Nat) - mu) ∧
    -mu ≤ p.carry ∧ p.carry ≤ mu ∧ (double = false → (p.b = p.a ∨ p.a + tmin ≤ p.b) ∧ (p.b - p.a = f ∨ p.b - p.a + tmin ≤ f)) ∧
    (limit = true → tref ≤ 2 * ((f / 2 : Nat) - h)) ∧
    (limit = false → mu ≤ hr → hr ≤ (f / 2 : Nat) - mu → h = hr ∧ p.carry = 0 ∧ p.suppressed = false) ∧
    (limit = false → 0 < hr → hr < mu → h = 0 ∧ p.suppressed = true ∧ p.carry = hr) ∧
    (limit = false → (f / 2 : Nat) - mu < hr → mu ≤ hr → hr < (f / 2 : Nat) → h = (f / 2 : Nat) ∧ p.suppressed = true ∧ p.carry = hr - (f / 2 : Nat))

/-- R13, R60, R61, R79, R66: the stages of a batch cycle. At an update point the work items of the cycle are enqueued; once the input latency has
elapsed the first item is eligible; a completed item makes the next one eligible, and the last one ends the cycle and publishes; a NaN ends the
cycle and marks its slot; a cycle that meets its deadline unfinished is dropped and counted, and the third miss in a row blocks the batch. -/
def Obligations.CycleStagesComplete : Prop :=
  (∀ (t : Time) (b : Batch) (s : State), s.domOn 1 = true → s.benabled b = true →
    Completes (.sampleInstant t b) s (fun u => u.now = max t s.now ∧
      ∀ r, u.recipe b = some r → r.items ≠ [] → s.queueFrozen b = false →
        ∃ c, (u.batch b).cyc = some c ∧ c.t0 = u.now ∧ c.items = r.items.length)) ∧
  (∀ (t : Time) (b : Batch) (s : State) (c : Cycle) (r : Recipe), (s.batch b).cyc = some c → s.recipe b = some r → c.ready = false →
    c.t0 + Time.ns (s.rdN (bk 4 0x10 b)) ≤ max t s.now →
    Completes (.inputsReady t b) s (fun u =>
      ∃ c', (u.batch b).cyc = some c' ∧ c'.ready = true ∧ c'.t0 = c.t0 ∧ c'.eligibleAt = u.now)) ∧
  (∀ (t : Time) (l : Lane) (s : State) (b : Batch) (c : Cycle) (r : Recipe) (w : Work), (s.lane l).item = some b.val → (s.batch b).cyc = some c →
    s.recipe b = some r → w = ((s.begin t).modLane l (fun x => { x with item := none })).runItem b c.next r c → w.nan = none →
    Completes (.itemComplete t l) s (fun u =>
      if c.next + 1 < c.items then ∃ c', (u.batch b).cyc = some c' ∧ c'.next = c.next + 1 ∧ c'.work = w ∧ c'.eligibleAt = u.now
      else (u.batch b).cyc = none ∧ (u.batch b).pub = w.pub)) ∧
  (∀ (t : Time) (b : Batch) (i : FloatSlotNo) (s : State), (s.batch b).cyc.isSome = true →
    Completes (.slotFault t b i) s (fun u => (u.batch b).cyc = none ∧ (u.fl i).nan = true)) ∧
  (∀ (t : Time) (b : Batch) (s : State) (c : Cycle), (s.batch b).cyc = some c →
    c.t0 + 32 * s.cycleOf b ≤ max t s.now + Time.ns (s.lead b) →
    Completes (.deadline t b) s (fun u => (u.batch b).cyc = none ∧
      u.rdN (bk 0x13 2 b) = (s.rdN (bk 0x13 2 b) + 1) % 2 ^ 32 ∧ u.rdN (bk 0x13 3 b) = min 3 (s.rdN (bk 0x13 3 b) + 1) ∧
      (s.rdN (bk 0x13 3 b) = 2 → s.bstate b ≠ .off → s.bstate b ≠ .fault → s.commands = true → u.bstate b = .blocked)))

/-- R84, R86 (slots of both kinds): the following-error count of a slot at its tick; the end of an open-loop ride, by its time limit with a block where the feedback is not clean by then, or with the loop
closed again and the slots of the voltage loop restarted. -/
def Obligations.LoopSupervisionCompletes : Prop :=
  (∀ (t : Time) (sl : SlotNo) (s : State), sl.val < 1024 → 2 ^ s.rdN (key (0x6000 + sl) 0xD) ≤ (s.fx sl).ticks →
    Completes (.followingErrorTick t sl) s (fun u => (u.fx sl).ticks = 0 ∧ (u.fx sl).exceeded = false ∧
      (u.fx sl).st.feCount = if s.rd (key (0x6000 + sl) 0xB) = 0x7FFF then (s.fx sl).st.feCount else
        feCount (s.fx sl).st.feCount (s.rdN (key (0x6000 + sl) 0xC)) (s.fx sl).exceeded (s.rdB (key (0x6000 + sl) 0xE) && (s.fx sl).sat))) ∧
  (∀ (t : Time) (sl : SlotNo) (s : State) (i : Nat), sl.val = 1024 + i → 2 ^ s.rdN (key (0x6400 + i) 0xD) ≤ (s.fl i).ticks →
    Completes (.followingErrorTick t sl) s (fun u => (u.fl i).ticks = 0 ∧ (u.fl i).exceeded = false ∧
      (u.fl i).st.feCount = if s.rdN (key (0x6400 + i) 0xB) = 0x7F7FFFFF then (s.fl i).st.feCount else
        feCount (s.fl i).st.feCount (s.rdN (key (0x6400 + i) 0xC)) (s.fl i).exceeded (s.rdB (key (0x6400 + i) 0xE) && (s.fl i).sat))) ∧
  (∀ (t : Time) (b : Batch) (s : State), s.bit (bk 0x12 5 b) 4 = true → (s.batch b).openSince + Time.ms (s.rdN (bk 0x12 3 b)) ≤ max t s.now →
    (∀ r, s.recipe b = some r → (s.begin t).voltageClean b r = false) →
    Completes (.openLoopTimeout t b) s (fun u => u.bit (bk 0x12 5 b) 4 = false ∧
      u.rdN (bk 0x12 0xA b) = (s.rdN (bk 0x12 0xA b) + 1) % 2 ^ 32 ∧
      (s.bstate b ≠ .off → s.bstate b ≠ .fault → s.commands = true → u.bstate b = .blocked))) ∧
  (∀ (t : Time) (b : Batch) (s : State) (r : Recipe), s.recipe b = some r → s.bit (bk 0x12 5 b) 4 = true → (s.begin t).voltageClean b r = true →
    Completes (.loopReclose t b) s (fun u => u.bit (bk 0x12 5 b) 4 = false ∧
      ∀ sl ∈ r.slots, r.roleOf sl = 2 →
        if sl < 1024 then (u.fx sl).st.s1 = 0 ∧ (u.fx sl).st.s2 = 0
        else (u.fl (sl - 1024)).st.s.getD 1 0 = 0 ∧ (u.fl (sl - 1024)).st.s.getD 2 0 = 0))

/-- R54, R67 to R69: a pace measurement reports pace and margin of every lane in service (rounded and clamped as notes/assumptions/69 reads R54); the
rotation puts the lane in turn under test, lets it drain first, or waits at it where it needs a free lane and none exists; a drained lane goes
under test or retires; a test that ends gives the lane back or retires it; a stalled lane is retired, or drains where it cannot be. The order of the lanes and what a drained,
tested or stalled lane leaves behind where the rules do not say follow notes/assumptions/70 and 108. -/
def Obligations.LaneTestsAndRetirementComplete : Prop :=
  (∀ (t : Time) (paces : List Nat) (s : State), Completes (.paceMeasurement t paces) s (fun u =>
    ∀ l p, (l, p) ∈ List.zip allLanes paces → (s.lane l).state ≠ .retired →
      u.rd (key (0x6540 + l) 2) = p ∧ u.rd (key (0x6540 + l) 3) = max (-32768) (roundRat ((8000 - (p : Int) : Int) * 5 / 4)))) ∧
  (∀ (t : Time) (s : State), s.rdB (key 0x6530 8) = true →
    (∀ l ∈ allLanes, (s.lane l).state ≠ .underTest ∧ ((s.lane l).state = .draining → (s.lane l).retireCause.isSome = true)) →
    s.fabric.lastTest + Time.ms (s.rdN (key 0x6530 9)) ≤ max t s.now → s.fabric.rot < 24 →
    ((s.lane s.fabric.rot).state = .reserve → Completes (.laneTestStart t) s (fun u =>
      (u.lane s.fabric.rot).state = .underTest ∧ (u.lane s.fabric.rot).testFrom = .reserve ∧ (u.lane s.fabric.rot).testSince = u.now)) ∧
    ((s.lane s.fabric.rot).state = .home → s.freeLane.isSome = true → Completes (.laneTestStart t) s (fun u =>
      (u.lane s.fabric.rot).state = .underTest ∨ (u.lane s.fabric.rot).state = .draining)) ∧
    ((s.lane s.fabric.rot).state = .free → s.laneEmpty s.fabric.rot = true → Completes (.laneTestStart t) s (fun u =>
      (u.lane s.fabric.rot).state = .underTest ∧ (u.lane s.fabric.rot).testFrom = .free ∧ (u.lane s.fabric.rot).testSince = u.now)) ∧
    (((s.lane s.fabric.rot).state = .home ∧ s.freeLane = none) ∨ ((s.lane s.fabric.rot).state = .free ∧ s.laneEmpty s.fabric.rot = false) →
      Completes (.laneTestStart t) s (fun u => u.fabric.rot = s.fabric.rot ∧ u.fabric.waiting = true ∧ u.fabric.lastTest = s.fabric.lastTest ∧
        ∀ l, (u.lane l).state = (s.lane l).state))) ∧
  (∀ (t : Time) (l : Lane) (s : State), (s.lane l).state = .draining → s.laneEmpty l = true →
    Completes (.laneDrained t l) s (fun u => (u.lane l).state = if (s.lane l).retireCause.isSome then .retired else .underTest)) ∧
  (∀ (t : Time) (l : Lane) (res : LaneTest) (s : State), (s.lane l).state = .underTest → (s.lane l).testSince + Time.ms 2 ≤ max t s.now →
    Completes (.laneTestEnd t l res) s (fun u => match res with
      | .pass => u.rd (key (0x6540 + l) 9) = 1 ∧
        ((s.lane l).testFrom = .reserve → (u.lane l).state = .reserve) ∧
        ((s.lane l).testFrom ≠ .reserve → s.fabric.waiting = false → (u.lane l).state = .free)
      | .patternFailure => u.rd (key (0x6540 + l) 9) = 2 ∧ (u.lane l).state = .retired
      | .replicaFailure => u.rd (key (0x6540 + l) 9) = 3 ∧ (u.lane l).state = .retired)) ∧
  (∀ (t : Time) (l : Lane) (s : State), (s.lane l).item.isSome = true →
    Completes (.laneStall t l) s (fun u => u.rdN (key (0x6540 + l) 8) = (s.rdN (key (0x6540 + l) 8) + 1) % 2 ^ 32 ∧
      ((u.lane l).state = .retired ∨ ((u.lane l).state = .draining ∧ (u.lane l).retireCause = some 4))))

/-- R127, R135, R173: set-points. A write reaches the entry and restarts the watchdog, and waits while a set is staged; the whole staged set
reaches the generators named for it at its time; a watchdog that runs out holds the generators; a write of the breaker status is taken with the closing permission of its instant. -/
def Obligations.SetpointCommandsComplete : Prop :=
  (∀ (t : Time) (q : Req) (b : Batch) (i : Fin 4) (v : F32) (s : State), s.Serves → s.Passes q (0x400E + 0x20 * b) (1 + i) 0 v.toNat →
    Completes (.setpointWrite t q b i v) s (fun u => u.rdF (bk 0xE (1 + i) b) = v ∧ (u.batch b).lastWrite = u.now ∧
      (s.rdN (bk 0xE 9 b) ≠ 0 → Tbl.find? i (u.batch b).staged = some v ∧ u.bit (bk 0xE 0xB b) 0 = true ∧ u.Answered 0))) ∧
  (∀ (t : Time) (b : Batch) (s : State), s.rdN (bk 0xE 9 b) ≠ 0 → s.rdN (bk 0xE 9 b) ≤ (s.begin t).tai →
    Completes (.stagedApplication t b) s (fun u => (u.batch b).staged = [] ∧ u.rd (bk 0xE 9 b) = 0 ∧ u.bit (bk 0xE 0xB b) 0 = false ∧
      (((s.batch b).staged.map (fun e => e.1)).Nodup → ∀ (i : Nat) (v : F32) (g : Nat), (i, v) ∈ (s.batch b).staged → i < 4 → s.spGen b i = some g →
        (∀ j, j < 4 → j ≠ i → s.spGen b j ≠ some g) → u.rdF (key (0x6600 + g) 2) = s.spVal b i v ∧
          ((s.gen g).holding = false → (s.gen g).drive = none → (u.gen g).target = s.spVal b i v)))) ∧
  (∀ (t : Time) (b : Batch) (s : State), s.rdN (bk 0xE 0xA b) ≠ 0 → s.bit (bk 0xE 0xB b) 1 = false →
    (s.batch b).lastWrite + Time.ms (s.rdN (bk 0xE 0xA b)) ≤ max t s.now →
    Completes (.setpointWatchdog t b) s (fun u => u.bit (bk 0xE 0xB b) 1 = true ∧
      ∀ i g, i < 4 → s.spGen b i = some g → (u.gen g).holding = true)) ∧
  (∀ (t : Time) (q : Req) (b : Batch) (v : Nat) (s : State), s.Serves → s.Passes q (0x4015 + 0x20 * b) 2 0 v →
    Completes (.pccBreakerStatusWrite t q b v) s (fun u => u.rd (bk 0x15 2 b) = v ∧ u.Answered 0 ∧
      (u.batch b).rs.permittedAtWrite = (v == 0 && s.bit (bk 0xC 0xF b) 7)))

/-- The eight batch commands, c the code of Table 06-5: a command that the batch's state permits is taken, with result 0; one it does not permit is
refused with 0x0B000062, a black start whose ramp does not fit with 0x0B000063, and neither is taken. A command is permitted in the states from which
Tables 06-3 to 06-5 have it lead (R138, R139, R165, R170; as notes/assumptions/27 reads them). -/
def Obligations.BatchCommandsTakenOrRefused : Prop :=
  (∀ (b c : Nat) (s : State), s.permitted b c = true ↔
    (c = 1 ∧ s.bstate b = .off ∧ s.benabled b = true) ∨ ((c = 2 ∨ c = 3) ∧ s.bstate b ≠ .off ∧ s.bstate b ≠ .fault) ∨
    (c = 4 ∧ s.bstate b = .blocked) ∨ (c = 5 ∧ s.bstate b = .fault) ∨ (c = 6 ∧ s.bstate b = .connected) ∨
    (c = 7 ∧ (s.bstate b = .islanded ∨ s.bstate b = .coast) ∧ (s.batch b).rs.winResult = true) ∨
    (c = 8 ∧ s.bstate b = .starter ∧ s.mod = .running ∧ s.kind b = 1 ∧ s.bit (bk 0xB 0x11 b) 2 = true ∧
      (s.rdN (bk 0xB 0xD b) = 1 ∨ s.rdN (bk 0xB 0xD b) = 2))) ∧
  ∀ (t : Time) (q : Req) (b : Batch) (s : State) (c : Nat) (i : Instr),
    (c, i) ∈ [(1, .batchStart t q b), (2, .batchStop t q b), (3, .batchBlock t q b), (4, .batchRelease t q b), (5, .faultReset t q b),
      (6, .batchIsland t q b), (7, .batchResync t q b), (8, Instr.batchBlackStart t q b)] →
    s.Serves → s.Passes q (0x4002 + 0x20 * b) 1 0 c →
    (s.permitted b c = true → (c = 8 → s.rampOk b = true) →
      Completes i s (fun u => (u.batch b).cmd = some c ∧ u.rd (bk 2 2 b) = 0 ∧ u.Answered 0)) ∧
    (s.permitted b c = false → Completes i s (fun u => (u.batch b).cmd = (s.batch b).cmd ∧ u.rd (bk 2 2 b) = 0x0B000062 ∧ u.Answered 0x0B000062)) ∧
    (c = 8 → s.permitted b c = true → s.rampOk b = false →
      Completes i s (fun u => (u.batch b).cmd = (s.batch b).cmd ∧ u.rd (bk 2 2 b) = 0x0B000063 ∧ u.Answered 0x0B000063))

/-- R138, R140, R145, R146, R150, R151: the coast time limit starts the stop ramp; the statistics clear; the limited-too-long source is taken once;
the angle guard becomes active; an excursion ends; an envelope image is taken when it is valid, and refused with the envelope marked invalid when
it is not. -/
def Obligations.RideThroughCommandsComplete : Prop :=
  (∀ (t : Time) (b : Batch) (s : State), s.bstate b = .coast → s.rdN (bk 1 5 b) ≠ 0 →
    (s.batch b).since + Time.sec (s.rdN (bk 1 5 b)) ≤ max t s.now → (s.batch b).stopping = false →
    Completes (.coastTimeLimit t b) s (fun u => (u.batch b).stopping = true ∧
      ∀ i g, i < 2 → s.spGen b i = some g → (u.gen g).target = 0 ∧ (u.gen g).drive = some 0)) ∧
  (∀ (t : Time) (q : Req) (b : Batch) (s : State), s.Serves → s.Passes q (0x4013 + 0x20 * b) 9 0 1 →
    Completes (.clearStatistics t q b) s (fun u => u.Answered 0 ∧ ∀ k ∈ [2, 4, 6, 7], u.rd (bk 0x13 k b) = 0)) ∧
  (∀ (t : Time) (b : Batch) (s : State), s.bstate b = .currentLimited → s.rdN (bk 9 7 b) ≠ 0 →
    (s.batch b).since + Time.ms (s.rdN (bk 9 7 b)) ≤ max t s.now → (s.batch b).tooLong = false → (s.batch b).demands = [] →
    Completes (.maximumLimitedTime t b) s (fun u => (u.batch b).tooLong = true ∧ (u.batch b).demands = [] ∧
      ((s.batch b).reacted = none → u.rd (bk 0x11 8 b) = 6))) ∧
  (∀ (t : Time) (b : Batch) (s : State), s.bstate b = .currentLimited →
    (s.batch b).since + Time.ms (s.rdN (bk 0xA 8 b)) ≤ max t s.now →
    Completes (.guardDelay t b) s (fun u => u.bit (bk 9 0xC b) 2 = true)) ∧
  (∀ (t : Time) (b : Batch) (freq : Bool) (s : State) (x : Time),
    (if freq then (s.batch b).fEx else (s.batch b).vEx).active = true → (if freq then (s.batch b).fEx else (s.batch b).vEx).inSince = some x →
    x + Time.ms (s.rdN (bk 0xA 0x10 b)) ≤ max t s.now →
    Completes (.excursionEnd t b freq) s (fun u => (if freq then (u.batch b).fEx else (u.batch b).vEx).active = false ∧
      u.bit (bk 0xA 0x12 b) (b2n freq) = false)) ∧
  (∀ (t : Time) (q : Req) (b : Batch) (e : Fin 4) (img : List Byte) (s : State), s.Serves →
    s.PassesBlob q (0x8400 + 4 * b + e) 1 img → (s.mod = .configuration ∨ s.bstate b = .off) → img ≠ [] →
    Completes (.envelopeWrite t q b e img) s (fun u =>
      if batchEnvelopeOk e img then u.blob (envKey b e) = img ∧ u.bit (bk 0xA 0x12 b) (8 + e) = true ∧ u.Answered 0
      else u.blob (envKey b e) = s.blob (envKey b e) ∧ u.bit (bk 0xA 0x12 b) (8 + e) = false ∧ u.Answered 0x0B000070))

/-- R170, R173, R174: Resync starts by itself once the reference side has been live for the stable time; a closing window that has stood for the hold
time asks the own circuits to close or permits the breaker to; the three time limits mark how Resync is to end. -/
def Obligations.ResyncCommandsComplete : Prop :=
  (∀ (t : Time) (b : Batch) (s : State) (x : Time),
    ((s.bstate b = .coast ∧ s.bit (bk 0xC 1 b) 0 = true) ∨ (s.bstate b = .islanded ∧ s.bit (bk 0xC 1 b) 1 = true)) →
    (s.batch b).rs.liveSince = some x → (s.batch b).rs.winResult = true → x + Time.ms (s.rdN (bk 0xC 0xB b)) ≤ max t s.now →
    (s.batch b).stopping = false → (s.batch b).lastT0 = some (max t s.now) →
    Completes (.automaticResync t b) s (fun u => u.bstate b = .resync ∧ (u.batch b).rs.entry = s.bstate b ∧
      u.rd (bk 0xC 0x14 b) = (s.bstate b).code)) ∧
  (∀ (t : Time) (b : Batch) (s : State) (x : Time), s.bstate b = .resync → (s.batch b).rs.heldSince = some x →
    x + Time.ms (s.rdN (bk 0xC 0xA b)) ≤ max t s.now →
    Completes (.windowHeld t b) s (fun u => u.bit (bk 0xC 0xF b) 5 = true ∧
      u.bit (bk 0xC 0xF b) (if (s.batch b).rs.entry = .coast then 6 else 7) = true)) ∧
  (∀ (t : Time) (b : Batch) (s : State), s.bstate b = .resync → (s.batch b).rs.ending = none →
    (∀ x, (s.batch b).rs.reqSince = some x → x + Time.ms (s.rdN (bk 0xC 0xD b)) ≤ max t s.now → s.bit (bk 0xC 0xF b) 6 = true →
      Completes (.closingTimeLimit t b) s (fun u => (u.batch b).rs.ending = some 8)) ∧
    ((s.batch b).rs.since + Time.ms (s.rdN (bk 0xC 0xC b)) ≤ max t s.now →
      Completes (.resyncTimeLimit t b) s (fun u => (u.batch b).rs.ending = some 5)) ∧
    (∀ x, (s.batch b).rs.lostSince = some x → x + Time.sec 1 ≤ max t s.now →
      Completes (.referenceNotLive t b) s (fun u => (u.batch b).rs.ending = some 4)))

/-- R157, R159, R161, R165, R169: a ready DC link takes the batch from Precharge to Starter; the limits of Precharge and of the black start end in
Fault; a window that times out records outcome 4 and starts anew; the wait limit ends in Off with
outcome 9, or with outcome 4 and no change of state while the module is not Running (notes/assumptions/113); a dead bus is declared. -/
def Obligations.StarterCommandsComplete : Prop :=
  (∀ (t : Time) (b : Batch) (s : State) (x : Time), s.bstate b = .precharge → s.dcLevel b ≠ none → (s.batch b).dcSince = some x →
    x + Time.ms 10 ≤ max t s.now → s.prestartOk b = true →
    Completes (.dcLinkReady t b) s (fun u => u.bstate b = .starter ∧ u.bit (bk 0xB 0x11 b) 8 = true ∧ (u.batch b).outOn = false)) ∧
  (∀ (t : Time) (b : Batch) (s : State), s.bstate b = .precharge → (s.batch b).preSince + Time.ms (s.rdN (bk 0xB 0xC b)) ≤ max t s.now →
    s.commands = true →
    Completes (.prechargeTimeLimit t b) s (fun u => u.bstate b = .fault ∧ u.rd (bk 0xB 0x19 b) = 0xA ∧ (u.batch b).outOn = false)) ∧
  (∀ (t : Time) (b : Batch) (s : State), s.bstate b = .starter → (s.begin t).windowTimedOut b = true → s.rdN (bk 0xB 0xD b) ≠ 2 →
    (s.begin t).waitOver b = false →
    Completes (.starterWindowTimeout t b) s (fun u => u.bstate b = .starter ∧ u.rd (bk 0xB 0x19 b) = 4 ∧ (u.batch b).win.start = u.now)) ∧
  (∀ (t : Time) (b : Batch) (s : State) (x : Time), s.bstate b = .starter → s.bit (bk 0xB 0x11 b) 2 = false →
    (∀ c ∈ s.busChains b, c < 80) → (s.batch b).win.belowSince = some x → s.busMax b < fval (s.rdF (bk 0xB 7 b)) →
    x + Time.ms (s.rdN (bk 0xB 8 b)) ≤ max t s.now → Completes (.busDeclaredDead t b) s (fun u => u.bit (bk 0xB 0x11 b) 2 = true ∧ u.rd (bk 0xB 0x15 b) = u.tai)) ∧
  (∀ (t : Time) (b : Batch) (s : State), s.bstate b = .starter → (s.begin t).waitOver b = true → (s.begin t).windowFull b = false →
    (s.mod = .running → s.rdN (bk 0xB 0xD b) ≠ 2 →
      Completes (.starterWaitLimit t b) s (fun u => u.bstate b = .off ∧ u.rd (bk 0xB 0x19 b) = 9)) ∧
    (s.mod ≠ .running → Completes (.starterWaitLimit t b) s (fun u => u.bstate b = .starter ∧ u.rd (bk 0xB 0x19 b) = 4))) ∧
  (∀ (t : Time) (b : Batch) (s : State), s.bstate b = .blackStart → (s.batch b).since + Time.ms (s.rdN (bk 0xB 0x10 b)) ≤ max t s.now →
    s.commands = true →
    Completes (.blackStartTimeLimit t b) s (fun u => u.bstate b = .fault ∧ u.rd (bk 0xB 0x19 b) = 7))

/-- R64, R82, R83, R88, R89, R93, R120, R140: a write of a bank word, a slot state, a bank view or a copy of the banks or of a full scale waits as a job of
its batch, a write of the active bank (judged before its range: notes/assumptions/105) or out of range is refused, a write of the inactive bank
cancels a pending swap; a job runs between cycles, where a bank word cancels a swap requested since, too (notes/assumptions/109), and a generator's
hold, release and preset take effect; a swap is accepted while every inactive bank is valid. -/
def Obligations.BankWritesWaitAndJobsRun : Prop :=
  (∀ (t : Time) (b : Batch) (s : State) (j : Job) (q : Req) (rest : List (Job × Req)), (s.batch b).cyc = none → (s.batch b).jobs = (j, q) :: rest →
    Completes (.dictionaryJob t b) s (fun u => (u.batch b).jobs = rest ∧
      match j with
      | .target g v => u.rdF (key (0x6600 + g) 2) = v ∧ (q.sid = 0 → s.rack.forwards = [] → u.Answered 0)
      | .scale sub v => (sub = 5 ∨ (sub = 4 ∧ s.viewVal b 7 4 ≤ fval (BitVec.ofNat 32 v)) →
          u.rd (bk 5 sub b) = v ∧ (q.sid = 0 → s.rack.forwards = [] → u.Answered 0)) ∧
        (sub = 4 → fval (BitVec.ofNat 32 v) < s.viewVal b 7 4 →
          u.rd (bk 5 4 b) = s.rd (bk 5 4 b) ∧ (q.sid = 0 → s.rack.forwards = [] → u.Answered 0x06090030))
      | .bankWord sl bankB w v => sl < 1024 → w < 8 → (s.fx sl).st.bankB ≠ bankB →
        u.rd (fxWord sl bankB w) = v ∧ u.rd (bk 0x14 3 b) = 0 ∧ (q.sid = 0 → s.rack.forwards = [] → u.Answered 0)
      | .command g 1 _ => (u.gen g).holding = true ∧ (q.sid = 0 → s.rack.forwards = [] → u.Answered 0) ∧
        (u.gen g).target = if (s.gen g).drive.isSome then (s.gen g).target else s.rdF (genX g)
      | .command g 2 _ => (u.gen g).holding = false ∧ (q.sid = 0 → s.rack.forwards = [] → u.Answered 0) ∧
        ((s.gen g).drive = none → (u.gen g).target = s.rdF (key (0x6600 + g) 2))
      | .command g 3 x => if s.genOutOn g then u.rdF (genX g) = s.rdF (genX g) ∧ (q.sid = 0 → s.rack.forwards = [] → u.Answered 0x0B000001)
        else u.rdF (genX g) = x ∧ u.rdF (genV g) = 0 ∧ u.rdF (genA g) = 0 ∧ (q.sid = 0 → s.rack.forwards = [] → u.Answered 0)
      | _ => True)) ∧
  (∀ (t : Time) (q : Req) (sl : SlotNo) (bankB : Bool) (w : Fin 16) (v : Nat) (s : State), s.Serves →
    s.Passes q (slotIndex sl) (bankSub sl bankB w) 0 v →
    (s.activeB sl = bankB → Completes (.slotBankWrite t q sl bankB w v) s (State.Answered 0x0B000040)) ∧
    (s.activeB sl ≠ bankB → (if sl.val < 1024 then w.val ≠ 5 ∨ expsOk v = true else coeffOk v = true) → s.slotOwner sl < 32 →
      Completes (.slotBankWrite t q sl bankB w v) s (fun u => u.rd (bk 0x14 3 (s.slotOwner sl)) = 0 ∧
        (u.batch (s.slotOwner sl)).jobs = (s.batch (s.slotOwner sl)).jobs ++ [(.bankWord sl bankB w v, q)])) ∧
    (s.activeB sl ≠ bankB → ¬ (if sl.val < 1024 then w.val ≠ 5 ∨ expsOk v = true else coeffOk v = true) →
      Completes (.slotBankWrite t q sl bankB w v) s (State.Answered 0x0B000041))) ∧
  (∀ (t : Time) (q : Req) (sl : SlotNo) (i : Fin 12) (v : Nat) (s : State), s.Serves → s.Passes q (slotIndex sl) (stateSub sl i) 0 v →
    (1024 ≤ sl.val ∨ unsigned 64 (signed 40 v) = v) → s.slotOwner sl < 32 →
    Completes (.slotStateWrite t q sl i v) s (fun u =>
      (u.batch (s.slotOwner sl)).jobs = (s.batch (s.slotOwner sl)).jobs ++ [(.slotState sl i v, q)])) ∧
  (∀ (t : Time) (q : Req) (b : Batch) (s : State), s.Serves → s.Passes q (0x4014 + 0x20 * b) 4 0 1 →
    Completes (.copyActiveToInactive t q b) s (fun u => (u.batch b).jobs = (s.batch b).jobs ++ [(.copyBanks, q)] ∧ u.rd (bk 0x14 3 b) = 0)) ∧
  (∀ (t : Time) (q : Req) (b : Batch) (s : State), s.Serves → s.Passes q (0x4014 + 0x20 * b) 2 0 1 →
    Completes (.bankSwapRequest t q b) s (fun u => if s.firstInvalid b = none then
        u.rd (bk 0x14 3 b) = 1 ∧ (u.batch b).swapAt = u.now ∧ u.Answered 0
      else u.rd (bk 0x14 3 b) = s.rd (bk 0x14 3 b) ∧ u.Answered 0x0B000022)) ∧
  (∀ (t : Time) (q : Req) (b : Batch) (current : Bool) (v : F32) (s : State), s.Serves →
    s.Passes q (0x4005 + 0x20 * b) (if current then 5 else 4) 0 v.toNat → (current = true ∨ s.viewVal b 7 4 ≤ fval v) →
    Completes (.baseValuesWrite t q b current v) s (fun u => u.rd (bk 0x14 3 b) = 0 ∧
      (u.batch b).jobs = (s.batch b).jobs ++ [(.scale (if current then 5 else 4) v.toNat, q)])) ∧
  (∀ (t : Time) (q : Req) (b : Batch) (v : F32) (s : State), s.Serves → s.Passes q (0x4005 + 0x20 * b) 4 0 v.toNat → (s.batch b).jobs = [] →
    fval v < s.viewVal b 7 4 → Completes (.baseValuesWrite t q b false v) s (fun u => u.batches = s.batches ∧ u.Answered 0x06090030)) ∧
  (∀ (t : Time) (q : Req) (b : Batch) (off : Fin 32) (sub v : Nat) (s : State), isView off sub = true → s.Serves →
    s.Passes q (0x4000 + 0x20 * b + off) sub 0 v → s.viewOwn b off sub v = 0 →
    Completes (.bankViewWrite t q b off sub v) s (fun u => (u.batch b).jobs = (s.batch b).jobs ++ [(.view off sub v, q)] ∧ u.rd (bk 0x14 3 b) = 0))

/-- R64, R88: a target, and a hold, release or preset command, written to a generator of a batch waits as its job, one of a generator of no batch takes
effect at once: hold keeps the present position as the target in use (a driven generator's stays the module's: R124, notes/assumptions/109),
release uses the stored target again, preset sets the position with rate and acceleration zero. A preset is BUSY while the outputs are enabled; the
black-start ramp's targets are refused with 0x0B000042 in BlackStart. -/
def Obligations.GeneratorCommandsComplete : Prop :=
  (∀ (t : Time) (q : Req) (g : GenNo) (v : F32) (s : State), s.Serves → s.Passes q (0x6600 + g) 2 0 v.toNat →
    (s.rdN (key (0x6600 + g) 1) < 32 →
      (s.bstate (s.rdN (key (0x6600 + g) 1)) ≠ .blackStart ∨ (∀ r, s.recipe (s.rdN (key (0x6600 + g) 1)) = some r → g.val ∉ r.ramps) →
        Completes (.targetWrite t q g v) s (fun u => (u.batch (s.rdN (key (0x6600 + g) 1))).jobs =
          (s.batch (s.rdN (key (0x6600 + g) 1))).jobs ++ [(.target g v, q)] ∧ u.rd (key (0x6600 + g) 2) = s.rd (key (0x6600 + g) 2))) ∧
      (s.bstate (s.rdN (key (0x6600 + g) 1)) = .blackStart → (∃ r, s.recipe (s.rdN (key (0x6600 + g) 1)) = some r ∧ g.val ∈ r.ramps) →
        Completes (.targetWrite t q g v) s (fun u => u.batches = s.batches ∧ u.gens = s.gens ∧
          u.rd (key (0x6600 + g) 2) = s.rd (key (0x6600 + g) 2) ∧ u.Answered 0x0B000042))) ∧
    (32 ≤ s.rdN (key (0x6600 + g) 1) →
      Completes (.targetWrite t q g v) s (fun u => u.rdF (key (0x6600 + g) 2) = v ∧ u.Answered 0))) ∧
  (∀ (t : Time) (q : Req) (g : GenNo) (s : State) (c : Nat) (i : Instr), (c, i) ∈ [(1, .genHold t q g), (2, .genRelease t q g), (3, Instr.genPreset t q g)] →
    s.Serves → s.Passes q (0x6600 + g) 0xA 0 c → (c = 3 → s.genOutOn g = false) → s.rdN (key (0x6600 + g) 1) < 32 →
    Completes i s (fun u => u.gens = s.gens ∧ (u.batch (s.rdN (key (0x6600 + g) 1))).jobs =
      (s.batch (s.rdN (key (0x6600 + g) 1))).jobs ++ [(.command g c (s.rdF (key (0x6600 + g) 0xB)), q)])) ∧
  (∀ (t : Time) (q : Req) (g : GenNo) (s : State), s.Serves → 32 ≤ s.rdN (key (0x6600 + g) 1) →
    (s.Passes q (0x6600 + g) 0xA 0 1 → Completes (.genHold t q g) s (fun u => (u.gen g).holding = true ∧ u.Answered 0 ∧
      (u.gen g).target = if (s.gen g).drive.isSome then (s.gen g).target else s.rdF (genX g))) ∧
    (s.Passes q (0x6600 + g) 0xA 0 2 → Completes (.genRelease t q g) s (fun u => (u.gen g).holding = false ∧ u.Answered 0 ∧
      ((s.gen g).drive = none → (u.gen g).target = s.rdF (key (0x6600 + g) 2)))) ∧
    (s.Passes q (0x6600 + g) 0xA 0 3 → Completes (.genPreset t q g) s (fun u => u.rdF (genX g) = s.rdF (key (0x6600 + g) 0xB) ∧
      u.rdF (genV g) = 0 ∧ u.rdF (genA g) = 0 ∧ u.Answered 0))) ∧
  (∀ (t : Time) (q : Req) (g : GenNo) (s : State), s.Serves → s.Passes q (0x6600 + g) 0xA 0 3 → s.rdN (key (0x6600 + g) 1) < 32 →
    (s.batch (s.rdN (key (0x6600 + g) 1))).outOn = true →
    Completes (.genPreset t q g) s (fun u => u.batches = s.batches ∧ u.rdF (genX g) = s.rdF (genX g) ∧ u.Answered 0x0B000001))

/-- R182, R183, R188, R189, R197: the duties of an update point enter their shadows together, but for a shadow under a test duty, and outputs that are due
are enabled; a load point forms the active pair and carry by the load of R182, for a channel of the link route in the window of its
batch's cycle that holds the load point, where the edges are sealed, and not at the module; a low block input blocks every running batch of its mask; a test duty enters its shadow, where it is
permitted. -/
def Obligations.PwmLoadsAndBlocksComplete : Prop :=
  (∀ (t : Time) (b : Batch) (s : State) (l : Time × Tbl Int), ((s.batch b).loads.filter (fun l => l.1 ≤ max t s.now)).getLast? = some l →
    Tbl.Sorted l.2 → (s.batch b).outDue = none →
    Completes (.batchLoad t b) s (fun u => (∀ c d, c < 256 → (c, d) ∈ l.2 → u.rd (chk c 0xB) = if s.testActive c then s.rd (chk c 0xB) else d) ∧
      (u.batch b).loads = (s.batch b).loads.filter (fun l => max t s.now < l.1))) ∧
  (∀ (t : Time) (b : Batch) (s : State) (d : Time), (s.batch b).outDue = some d → d ≤ max t s.now → s.inputBlocks b = false →
    (s.bstate b).running = true → (∀ l ∈ (s.batch b).loads, ∀ e ∈ l.2, e.1 < 256) →
    Completes (.batchLoad t b) s (fun u => (u.batch b).outOn = true ∧ (u.batch b).outDue = none ∧ u.rd (bk 0xD 1 b) = 0)) ∧
  (∀ (t : Time) (c : Channel) (s : State) (b : Nat) (p : PairOut), s.ownerOf c = some b → (s.begin t).atLoad c = true → s.rdN (chk c 2) ≠ 3 →
    (s.begin t).testDrives c = true ∨ (s.batch b).outOn = true → (∀ l ∈ (s.batch b).loads, max t s.now < l.1) → (s.batch b).outDue = none →
    (s.slice (s.servingSlice c)).retireCause = none → (s.slice (s.servingSlice c)).testDue = false → p = (s.begin t).formPair b c →
    Completes (.loadPoint t c) s (fun u => u.rd (chk c 0xC) = p.a ∧ u.rd (chk c 0xD) = p.b ∧ u.rd (chk c 0xE) = p.carry ∧
      u.bit (chk c 0xF) 1 = p.suppressed ∧ u.bit (chk c 0xF) 2 = p.limited ∧
      (s.shortLatched c = false → (s.chan c).recharging = false → (u.chan c).waiting = false))) ∧
  (∀ (t : Time) (c : Channel) (s : State) (b : Nat), s.ownerOf c = some b → s.rdN (chk c 2) = 3 → (∀ l ∈ (s.batch b).loads, max t s.now < l.1) →
    (s.batch b).outDue = none → Completes (.loadPoint t c) s (fun u => u.chan c = s.chan c ∧ ∀ k ∈ [0xB, 0xC, 0xD, 0xE], u.rd (chk c k) = s.rd (chk c k))) ∧
  (∀ (b c w0 n : Nat) (d : Int) (s : State) (p : PairOut) (l pos : Nat), l = (if s.doubleUp b then s.fineF b / 2 else s.fineF b) → 0 < l →
    pos = s.carrierPos b (s.rdN (chk c 5)) w0 →
    p = loadPair (s.fineF b) (s.doubleUp b) (s.rdN (chk c 7)) (s.rdN (chk c 9)) (s.refreshApplies c) d (if (s.chan c).waiting then 0 else s.rd (chk c 0xE)) →
    ((l - pos % l) % l < n → (s.windowEdges b c w0 n d).2.rd (chk c 0xC) = p.a ∧ (s.windowEdges b c w0 n d).2.rd (chk c 0xD) = p.b ∧
      (s.windowEdges b c w0 n d).2.rd (chk c 0xE) = p.carry ∧ (((s.windowEdges b c w0 n d).2).chan c).vDuty = d ∧
      (((s.windowEdges b c w0 n d).2).chan c).vA = p.a ∧ (((s.windowEdges b c w0 n d).2).chan c).vB = p.b) ∧
    (n ≤ (l - pos % l) % l → (s.windowEdges b c w0 n d).2.rd (chk c 0xC) = s.rd (chk c 0xC) ∧
      (((s.windowEdges b c w0 n d).2).chan c).vA = (s.chan c).vA)) ∧
  (∀ (t : Time) (k : Fin 2) (s : State), s.pwm.low.getD k false = false →
    Completes (.pwmBlockN t k true) s (fun u => u.bit (key 0x3200 0xD) k = true ∧
      u.rdN (key 0x3200 0xE) = (s.rdN (key 0x3200 0xE) + 1) % 2 ^ 32 ∧
      ∀ b : Batch, s.bit (key 0x3200 (0xB + k)) b = true → s.bstate b ≠ .off → s.bstate b ≠ .fault → s.commands = true →
        u.bstate b = .blocked ∧ (u.batch b).outOn = (s.bstate b == .blocked && (s.batch b).outOn))) ∧
  (∀ (t : Time) (k : Fin 2) (s : State), Completes (.pwmBlockN t k false) s (fun u => u.bit (key 0x3200 0xD) k = false)) ∧
  (∀ (t : Time) (q : Req) (c : Channel) (v : Nat) (s : State), s.Serves → s.Passes q (0x3000 + c) 0x14 0 v →
    ((∃ b, s.mod = .configuration ∧ s.rdB (chk c 0x15) = true ∧ (s.rdN (chk c 2) = 1 ∨ s.rdN (chk c 2) = 2) ∧ s.ownerOf c = some b ∧ s.bstate b = .off) →
      Completes (.testDuty t q c v) s (fun u => u.rd (chk c 0x14) = v ∧ u.rd (chk c 0xB) = v ∧ (u.chan c).testOn = true ∧
        u.testActive c = true ∧ u.Answered 0)) ∧
    (s.mod ≠ .configuration ∨ s.rdB (chk c 0x15) = false ∨ s.ownerOf c = none →
      Completes (.testDuty t q c v) s (fun u => u.rd (chk c 0xB) = s.rd (chk c 0xB) ∧ u.Answered 0x0B000086)))

/-- R186, R191 to R195: a bootstrap undervoltage turns the upper gate off and holds the lower one, until the hold has passed; a calibration round counts
the failures of each slice and reports its elements; recalibration of the extended map; the return to normal mode; a slice under test is replaced by its
spare, comes back or retires; a spare takes over from a retired slice. A background test that comes away from a load point is due at the next one
(R194; notes/assumptions/114); the undervoltage shows at the driver's readings (R231; notes/assumptions/117). -/
def Obligations.SlicesAndBootstrapComplete : Prop :=
  (∀ (t : Time) (d : DriverNo) (s : State) (c b : Nat), s.driverChan d = some c → s.ownerOf c = some b → (s.batch b).outOn = true →
    (s.chan c).waiting = false → (s.chan c).recharging = false →
    Completes (.bootstrapUndervoltage t d) s (fun u => u.bit (xk d 8) 3 = true ∧ u.bootVolt d < 7500 ∧ (u.driverStatus d).testBit 2 = true ∧ (u.chan c).up = false ∧ (u.chan c).lo = true ∧
      (u.chan c).recharging = true ∧ u.rdN (chk c 0x12) = (s.rdN (chk c 0x12) + 1) % 2 ^ 32)) ∧
  (∀ (t : Time) (d : DriverNo) (s : State) (c : Nat), s.driverChan d = some c → (s.chan c).recharging = true →
    (s.chan c).lowAt + Time.us (s.rdN (chk c 0x16)) ≤ max t s.now →
    Completes (.rechargeHold t d) s (fun u => u.bit (xk d 8) 3 = false ∧ 9000 < u.bootVolt d ∧ (u.driverStatus d).testBit 2 = false ∧ (u.chan c).recharging = false ∧ u.rd (chk c 0xE) = 0)) ∧
  (∀ (t : Time) (counts : List CalCount) (s : State),
    (s.rdN (key 0x2100 3) = 2 → Completes (.sliceCalibration t counts) s (fun u => u.rdN (key 0x3200 4) = (s.rdN (key 0x3200 4) + 1) % 2 ^ 32 ∧
      ∀ p ∈ List.zip allSlices counts, (s.slice p.1).state ≠ .retired → u.rd (sliceKey 0x3230 p.1) = (p.2.elements % 256 : Nat) ∧
        (u.slice p.1).fails = if 45 ≤ p.2.elements ∧ p.2.elements ≤ 79 ∧ p.2.monotonic = true then 0 else (s.slice p.1).fails + 1)) ∧
    (s.rdN (key 0x2100 3) ≠ 2 → Completes (.sliceCalibration t counts) s (fun u => u = s.begin t))) ∧
  (∀ (t : Time) (s : State), s.pwm.bypass = false → Completes (.extendedRecalibration t) s (fun u => u.pwm.extCal = u.now)) ∧
  (∀ (t : Time) (b : Batch) (s : State), s.pwm.bypass = false → b.val ∈ s.pwm.waitNormal →
    (s.begin t).atBoundary b = true → Completes (.returnToNormalMode t b) s (fun u => b.val ∉ u.pwm.waitNormal ∧
      ∀ c ∈ s.members b, u.chanExtended c = false ∧ u.rd (chk c 0xE) = 0)) ∧
  (∀ (t : Time) (k : SliceNo) (s : State) (j c : Nat), s.shadowOf k = some j → j ≠ k → (s.slice k).channel = some c →
    s.rdB (key 0x3200 8) = true → (s.slice j).since + Time.ms (s.rdN (key 0x3200 9)) ≤ max t s.now →
    (s.ownerOf c = none → Completes (.sliceBackgroundTest t k) s (fun u => (u.slice k).state = .underTest ∧ (u.slice j).state = .serving ∧
      (u.slice j).channel = some c ∧ u.rd (chk c 0x13) = j)) ∧
    (s.ownerOf c ≠ none → (s.begin t).atLoad c = false → Completes (.sliceBackgroundTest t k) s (fun u => (u.slice k).testDue = true ∧
      (u.slice k).state = (s.slice k).state ∧ u.rd (chk c 0x13) = s.rd (chk c 0x13)))) ∧
  (∀ (t : Time) (k : SliceNo) (s : State), (s.slice k).state = .underTest → (s.slice k).since + Time.ms 1 ≤ max t s.now →
    Completes (.sliceTestEnd t k true) s (fun u => (u.slice k).channel = none ∧ ((u.slice k).state = .idle ∨ (u.slice k).state = .shadowing)) ∧
    ((s.slice k).retireCause = none → Completes (.sliceTestEnd t k false) s (fun u => (u.slice k).state = .retired))) ∧
  (∀ (t : Time) (c : Channel) (s : State) (j k : Nat), k = s.servingSlice c → (s.begin t).atLoad c = true → (s.begin t).shadowReady k c = some j →
    j ≠ k → (s.slice k).channel = some c.val → (s.slice k).retireCause.isSome = true ∨ (s.slice k).testDue = true →
    Completes (.spareSliceTakeover t c) s (fun u => u.rd (chk c 0x13) = j ∧ (u.slice j).state = .serving ∧ (u.slice j).channel = some c.val ∧
      (u.slice k).state = if (s.slice k).retireCause.isSome then .retired else .underTest))

/-- R229, R233 to R235: a supply that leaves its range sets its status bit, and the gate supply and the bridge overvoltage block every running batch that owns a
driver; a supply that has returned clears the bit; a monitor compares after its blanking; a V_DS above V_th for t_f is a short and latches, turns both gates off and
blocks the batch; the latches clear while the batch gives no output; a diagnostic run starts, steps on and ends with its result. Which commands bring the
supply readings, and that a supply which leaves its range again while its bit stands is no further fault, are the model's choices (notes/assumptions/117). -/
def Obligations.DriverCommandsComplete : Prop :=
  (∀ (t : Time) (mv : Nat) (s : State),
    (mv < 10000 → Completes (.vgateLow t mv) s (fun u => u.supplyMv 1 = mv ∧ u.bit (key 0x3106 3) 0 = true ∧
      u.rdN (key 0x3106 6) = (if s.bit (key 0x3106 3) 0 then s.rdN (key 0x3106 6) else (s.rdN (key 0x3106 6) + 1) % 2 ^ 32) ∧
      ∀ b : Batch, s.driversOf b ≠ [] → s.bstate b ≠ .off → s.bstate b ≠ .fault → s.commands = true → u.bstate b = .blocked)) ∧
    (62000 < mv → Completes (.vbridgeOvervoltage t mv) s (fun u => u.supplyMv 2 = mv % 65536 ∧ u.bit (key 0x3106 3) 2 = true ∧
      u.rdN (key 0x3106 7) = (if s.bit (key 0x3106 3) 2 then s.rdN (key 0x3106 7) else (s.rdN (key 0x3106 7) + 1) % 2 ^ 32) ∧
      ∀ b : Batch, s.driversOf b ≠ [] → s.bstate b ≠ .off → s.bstate b ≠ .fault → s.commands = true → u.bstate b = .blocked)) ∧
    (10400 < mv → Completes (.vgateRecovered t mv) s (fun u => u.supplyMv 1 = mv % 65536 ∧ u.bit (key 0x3106 3) 0 = false)) ∧
    (mv < 61000 → Completes (.vbridgeOvervoltageClear t mv) s (fun u => u.supplyMv 2 = mv ∧ u.bit (key 0x3106 3) 2 = false)) ∧
    (mv < 12000 → Completes (.vbridgeLow t mv) s (fun u => u.supplyMv 2 = mv ∧ u.bit (key 0x3106 3) 1 = true)) ∧
    (12500 < mv → Completes (.vbridgeLowClear t mv) s (fun u => u.supplyMv 2 = mv % 65536 ∧ u.bit (key 0x3106 3) 1 = false))) ∧
  (∀ (t : Time) (d : DriverNo) (high : Bool) (s : State) (x : Time), (s.begin t).gateOn d high = some x →
    x + Time.ns (s.rdN (xk d 5)) ≤ max t s.now →
    Completes (.blankingEnd t d high) s (fun u => Tbl.find? (2 * d + b2n !high) u.aux.blanked = some u.now)) ∧
  (∀ (t : Time) (d : DriverNo) (v : DrainSense) (s : State) (x y : Time), (s.begin t).gateOn d v.high = some x →
    Tbl.find? (2 * d + b2n !v.high) s.aux.blanked = some y → x ≤ y → (s.rdN (xk d 4) : Int) < drainVoltage v → s.rdN (xk d 6) ≤ v.held →
    y + Time.ns (s.rdN (xk d 6)) ≤ max t s.now →
    Completes (.driverShort t d v) s (fun u => u.bit (xk d 8) (b2n !v.high) = true ∧ u.rdN (xk d 9) = (s.rdN (xk d 9) + 1) % 2 ^ 32 ∧
      (∀ c, s.driverChan d = some c → (u.chan c).up = false ∧ (u.chan c).lo = false) ∧
      (∀ b, s.driverBatch d = some b → s.bstate b ≠ .off → s.bstate b ≠ .fault → s.commands = true → u.bstate b = .blocked))) ∧
  (∀ (t : Time) (q : Req) (d : DriverNo) (s : State), s.Serves → s.Passes q (0x3100 + d) 0xA 0 1 →
    ((∀ b, s.driverBatch d = some b → s.bstate b = .off ∨ s.bstate b = .blocked ∨ s.bstate b = .fault) →
      Completes (.driverClearFaults t q d) s (fun u => u.bit (xk d 8) 0 = false ∧ u.bit (xk d 8) 1 = false ∧ u.Answered 0)) ∧
    (∀ b, s.driverBatch d = some b → s.bstate b = .connected →
      Completes (.driverClearFaults t q d) s (fun u => u.rd (xk d 8) = s.rd (xk d 8) ∧ u.Answered 0x0B0000A1))) ∧
  (∀ (t : Time) (q : Req) (d : DriverNo) (mv : Nat) (s : State), s.Serves → s.Passes q (0x3100 + d) 0xE 0 1 → mv < 65536 →
    (∀ b, s.driverBatch d = some b → s.bstate b = .off) →
    (12000 ≤ mv → mv ≤ 60000 → s.bit (key 0x3106 3) 0 = false → (s.rdN (xk d 2) = 1 ∨ s.rdN (xk d 2) = 2) → s.aux.run = none → s.aux.waiting = [] →
      Completes (.runDiagnostic t q ⟨d, mv⟩) s (fun u => u.aux.run = some (d.val, 1) ∧ u.bit (xk d 8) 4 = true ∧ u.Answered 0)) ∧
    (mv < 12000 ∨ 60000 < mv → Completes (.runDiagnostic t q ⟨d, mv⟩) s (fun u => u.aux.run = s.aux.run ∧ u.Answered 0x0B0000A0))) ∧
  (∀ (t : Time) (d : DriverNo) (v vp mv : Nat) (s : State) (st : Nat), s.aux.run = some (d.val, st) →
    s.aux.since + Time.ms (s.rdN (key 0x3106 4)) ≤ max t s.now → mv < 65536 → s.aux.waiting = [] →
    (mv < 12000 ∨ 60000 < mv → Completes (.diagnosticStep t d ⟨v, mv⟩ vp) s (fun u => u.aux.run = none ∧ u.rd (xk d 0xB) = 5)) ∧
    (12000 ≤ mv → mv ≤ 60000 → s.bit (key 0x3106 3) 0 = false → Completes (.diagnosticStep t d ⟨v, mv⟩ vp) s (fun u =>
      if diagVerdict (s.rdN (xk d 2)) st v vp mv ≠ 0 then u.aux.run = none ∧
        u.rd (xk d 0xB) = diagVerdict (s.rdN (xk d 2)) st v vp mv
      else if st < diagSteps (s.rdN (xk d 2)) then u.aux.run = some (d.val, st + 1)
      else u.aux.run = none ∧ u.rd (xk d 0xB) = 1)))

/-- R24: a trigger that arrives while the sequence of its pair runs is held pending, and the new sequence starts as soon as the current one ends; a
further trigger that arrives while one is pending is dropped and counted. -/
def Obligations.TriggerHeldPendingOrDropped : Prop :=
  (∀ (t : Time) (p : PairNo) (s : State), (s.begin t).triggerNow p = true → (s.pair p).running = true → (s.pair p).pending = false →
    Completes (.pairTrigger t p) s (fun u => (u.pair p).pending = true ∧ (u.pair p).running = true ∧ (u.pair p).slot = (s.pair p).slot ∧
      u.rd (pk p 0xA) = s.rd (pk p 0xA))) ∧
  (∀ (t : Time) (p : PairNo) (s : State), (s.begin t).triggerNow p = true → (s.pair p).running = true → (s.pair p).pending = true →
    Completes (.pairTrigger t p) s (fun u => (u.pair p).pending = true ∧ (u.pair p).running = true ∧ (u.pair p).slot = (s.pair p).slot ∧
      u.rdN (pk p 0xA) = (s.rdN (pk p 0xA) + 1) % 2 ^ 32)) ∧
  (∀ (t : Time) (p : PairNo) (x0 x1 : Code) (s : State), (s.pair p).running = true → s.rdN (pk p 3) ≤ (s.pair p).slot + 1 →
    Completes (.sarSlot t p x0 x1) s (fun u => (u.pair p).running = (s.pair p).pending ∧ (u.pair p).slot = 0 ∧ (u.pair p).pending = false))

/-- R23, R25, R27, R29, R30: a trigger starts the sequence of an idle pair; a regular slot stores both cores' codes as fresh results, an unread one
overrun; a read of a slot result returns it and clears the fresh bit; a test DAC is injected, or a path tested, only where no enabled batch reads the
pair; the host clears a plausibility fault; a spare core takes over at a sequence boundary; a core under test passes or retires.
The offset and gain that a passed test writes are free values (notes/assumptions/16); the order of a path test's findings, what overwrites an overrun
flag and when a core under test comes back are the model's choices (notes/assumptions/20, 107). -/
def Obligations.PairCommandsComplete : Prop :=
  (∀ (t : Time) (p : PairNo) (s : State),
    ((s.begin t).triggerNow p = true → (s.pair p).running = false →
      Completes (.pairTrigger t p) s (fun u => (u.pair p).running = true ∧ (u.pair p).slot = 0)) ∧
    ((s.begin t).triggerNow p = false → Completes (.pairTrigger t p) s (fun u => u = s.begin t))) ∧
  (∀ (t : Time) (p : PairNo) (x0 x1 : Code) (s : State) (sl j0 j1 c0 c1 : Nat), (s.pair p).running = true → sl = (s.pair p).slot →
    sl + 1 < s.rdN (pk p 3) → sl < 8 → s.convertingCore (2 * p) = some j0 → s.convertingCore (2 * p + 1) = some j1 →
    s.slotInput (2 * p) sl = some c0 → s.slotInput (2 * p + 1) sl = some c1 →
    Completes (.sarSlot t p x0 x1) s (fun u => (u.pair p).slot = sl + 1 ∧
      u.rd (key (0x5080 + j0) (0x10 + sl)) = s.inputCode p (some c0) x0.toInt ∧ u.rd (key (0x5080 + j1) (0x10 + sl)) = s.inputCode p (some c1) x1.toInt ∧
      u.bit (key (0x5080 + j0) 0x18) sl = true ∧ u.bit (key (0x5080 + j1) 0x18) sl = true ∧
      (s.bit (key (0x5080 + j0) 0x18) sl = true → u.bit (key (0x5080 + j0) 0x18) (8 + sl) = true ∧
        u.rdN (key (0x5080 + j0) 5) = (s.rdN (key (0x5080 + j0) 5) + 1) % 2 ^ 32))) ∧
  (∀ (t : Time) (p : PairNo) (x0 x1 : Code) (s : State) (sl : Nat), (s.pair p).running = true → sl = (s.pair p).slot → sl + 1 < s.rdN (pk p 3) →
    s.slotInput (2 * p) sl = none → s.slotInput (2 * p + 1) sl = none →
    Completes (.sarSlot t p x0 x1) s (fun u => u = (s.begin t).setPair p { (s.pair p) with slot := sl + 1 })) ∧
  (∀ (t : Time) (q : Req) (k : CoreNo) (i : Fin 8) (s : State), s.Serves →
    Completes (.slotResultRead t q k i) s (fun u => u.bit (key (0x5080 + k) 0x18) i = false ∧
      u.out = [.reply 0 0 (d16 (unsigned 16 (s.rd (key (0x5080 + k) (0x10 + i)))))])) ∧
  (∀ (t : Time) (q : Req) (p : PairNo) (code : Nat) (s : State), s.Serves → s.Passes q (0x50A0 + p) 2 0 code →
    (s.dacFree p = true → Completes (.testDacInject t q p code) s (fun u => u.rdN (key (0x50A0 + p) 2) = code ∧ (u.pair p).inject = some code ∧ u.Answered 0)) ∧
    (s.dacFree p = false → Completes (.testDacInject t q p code) s (fun u => (u.pair p).inject = (s.pair p).inject ∧ u.Answered 0x0B000001))) ∧
  (∀ (t : Time) (q : Req) (p : PairNo) (r0 r1 : Code) (s : State), s.Serves → s.Passes q (0x50A0 + p) 3 0 1 →
    (s.dacFree p = true → Completes (.pathTest t q p r0 r1) s (fun u => u.rd (key (0x50A0 + p) 5 1) = r0.toInt ∧ u.rd (key (0x50A0 + p) 5 2) = r1.toInt ∧
      u.rdN (key (0x50A0 + p) 4) = pathResult r0.toInt r1.toInt ∧ u.Answered 0)) ∧
    (s.dacFree p = false → Completes (.pathTest t q p r0 r1) s (fun u => u.rdN (key (0x50A0 + p) 4) = 6 ∧ u.Answered 0x0B000001))) ∧
  (∀ (t : Time) (q : Req) (p : PairNo) (s : State), s.Serves → s.Passes q (0x5098 + p) 9 0 1 →
    Completes (.clearFault t q p) s (fun u => u.bit (pk p 8) 0 = false ∧ u.bit (pk p 8) 2 = false ∧ (u.pair p).missRun = 0 ∧ u.Answered 0)) ∧
  (∀ (t : Time) (k : CoreNo) (s : State) (j : Nat), (s.pair (k / 2)).running = false → [16, 17].find? (fun j => (s.core j).due == some k.val) = some j →
    Completes (.coreSpareTakeover t k) s (fun u => (u.core j).state = .serving ∧ (u.core j).serves = some k.val ∧ u.rdN (key (0x5080 + j) 2) = k)) ∧
  (∀ (t : Time) (k : CoreNo) (s : State) (j : Nat), k.val < 16 → s.coreShadow k = some j →
    ((s.core k).state = .underTest ∧ (s.core k).passed = false) ∨ ((s.core k).state = .serving ∧ (s.core j).state = .shadowing ∧
      (s.core j).since + Time.sec 1 ≤ max t s.now ∧ (s.pair (k / 2)).running = false) →
    Completes (.coreBackgroundTest t k true) s (fun u => u.rd (key (0x5080 + k) 3) = signed 16 (Config.coreOffset s.fresh).toNat ∧
      u.rdN (key (0x5080 + k) 4) = (Config.coreGain s.fresh).toNat ∧ u.fresh = s.fresh + 1 ∧
      ((s.pair (k / 2)).running = false → (u.core k).state = .serving ∧ (u.core j).state = .idle) ∧
      ((s.pair (k / 2)).running = true → (u.core k).state = .underTest ∧ (u.core k).passed = true)) ∧
    Completes (.coreBackgroundTest t k false) s (fun u => (u.core k).state = .retired ∧ (u.core j).serves = some k.val))

/-- R31, R35, R37, R40, R41, R43, R45: a decimation instant forms the normalised sinc sum; a sigma-delta stream's loss; the release of a held fast-tap
value; 44.4 ms without an accepted period; an enabled chain starts anew; a good coefficient table loads the inactive bank and a bad one marks it
invalid; a swap is requested, or refused while that bank is invalid, and exchanges the tables; a window write restarts the RMS detector.
That a swap to a latency above 3,000 ns is refused with 0x06090030 is DEDUCED (notes/assumptions/91); what an enable and a window write restart beyond
the rules' words follows notes/assumptions/107. -/
def Obligations.ChainCommandsComplete : Prop :=
  (∀ (t : Time) (c : ChainNo) (bits : List Bool) (s : State) (len : Nat), 48 ≤ c.val → s.chainOn c = true →
    (s.begin t).decimationDue c = true → len = s.rdN (ck c 3) * (s.rdN (ck c 4) - 1) + 1 → len ≤ ((s.chainRec c).bits ++ bits).length →
    Completes (.decimationInstant t c bits) s (fun u =>
      (u.chainRec c).bits = ((s.chainRec c).bits ++ bits).drop (((s.chainRec c).bits ++ bits).length - len) ∧
      (u.chainRec c).fir.head? = some (sat16 (rne (sincSum (s.rdN (ck c 3)) (s.rdN (ck c 4))
        ((u.chainRec c).bits.map (fun x => if x then 1 else -1)) * s.rd (ck c 0x14)) (s.rdN (ck c 0x15)))))) ∧
  (∀ (t : Time) (c : ChainNo) (absent : Bool) (s : State), 48 ≤ c.val → s.chainOn c = true → absent = true ∨ 256 ≤ (s.chainRec c).eqRun →
    Completes (.sigmaDeltaLoss t c absent) s (fun u => u.bit (ck c 0x18) (if absent then 5 else 6) = true ∧ u.bit (ck c 0x18) 0 = true ∧
      (s.bit (ck c 0x18) 0 = false → (u.chainRec c).tr.lost = true ∧ u.rdN (ck c 0x21) / 65536 = (s.rdN (ck c 0x21) / 65536 + 1) % 65536))) ∧
  (∀ (t : Time) (c : ChainNo) (s : State) (x : Int) (rest : List Int), s.chainOn c = true → (s.chainRec c).held = x :: rest →
    Completes (.fastTapOutput t c) s (fun u => u.rd (ck c 0x16) = x ∧ (u.chainRec c).held = rest ∧ (u.chainRec c).tapNo = (s.chainRec c).tapNo + 1 ∧
      (s.tapValid c ((s.chainRec c).tapNo + 1) = true → u.rd (ck c 0x1D) = max (min 32767 (x.natAbs : Int)) (rne (s.rd (ck c 0x1D) * s.rd (ck c 0x19)) 15)))) ∧
  (∀ (t : Time) (c : ChainNo) (s : State), s.isTracker c = true → (s.chainRec c).tr.lost = false →
    (s.chainRec c).tr.lastAcc + Time.us 44400 ≤ max t s.now →
    Completes (.trackingLostTimeout t c) s (fun u => (u.chainRec c).tr.lost = true ∧
      (s.rdN (ck c 0xC) = c → u.bit (ck c 0x18) 3 = true ∧ u.rdN (ck c 0xE) = 1000 * s.rdN (ck c 0xD)))) ∧
  (∀ (t : Time) (q : Req) (c : ChainNo) (s : State), s.Serves → s.Passes q (0x5000 + c) 1 0 1 →
    Completes (.chainEnable t q c) s (fun u => u.rd (ck c 1) = 1 ∧ (u.chainRec c).held = [] ∧ (u.chainRec c).fir = ({} : ChainRec).fir ∧
      (u.chainRec c).tr.lost = true ∧ u.rd (ck c 0x1D) = 0 ∧ u.rd (ck c 0x1E) = 0 ∧ u.rd (ck c 0x20) = 0 ∧ u.Answered 0)) ∧
  (∀ (t : Time) (q : Req) (c : ChainNo) (img : List Byte) (s : State), s.Serves → s.PassesBlob q (0x8200 + c) 1 img → img.length = 1060 →
    Completes (.chainBankWrite t q c img) s (fun u => (u.chainRec c).swapFor = none ∧ (u.chainRec c).inactiveValid = tableOk img ∧
      u.bit (ck c 0x18) 7 = tableOk img ∧ u.bit (ck c 0x18) 8 = false ∧ u.blob (key (0x8200 + c) 1) = (if tableOk img then img else []) ∧
      u.Answered (if tableOk img then 0 else 0x0B000021))) ∧
  (∀ (t : Time) (q : Req) (c : ChainNo) (v : Nat) (s : State), s.Serves → s.Passes q (0x5000 + c) 0x10 0 v →
    ((s.chainRec c).inactiveValid = true → s.latencyWith c (s.swapTaps c) ≤ 3000 → Completes (.chainSwapRequest t q c v) s (fun u =>
      (u.chainRec c).swapFor = some v ∧ u.bit (ck c 0x18) 8 = true ∧ u.Answered 0)) ∧
    ((s.chainRec c).inactiveValid = true → 3000 < s.latencyWith c (s.swapTaps c) → Completes (.chainSwapRequest t q c v) s (fun u =>
      (u.chainRec c).swapFor = (s.chainRec c).swapFor ∧ u.Answered 0x06090030)) ∧
    ((s.chainRec c).inactiveValid = false → Completes (.chainSwapRequest t q c v) s (fun u => (u.chainRec c).swapFor = (s.chainRec c).swapFor ∧
      u.Answered 0x0B000022))) ∧
  (∀ (t : Time) (c : ChainNo) (s : State), (s.chainRec c).swapFor = some 0 →
    Completes (.chainBankSwapped t c) s (fun u => u.blob (key (0x8200 + c) 2) = s.blob (key (0x8200 + c) 1) ∧
      u.blob (key (0x8200 + c) 1) = s.blob (key (0x8200 + c) 2) ∧ u.rd (ck c 0xF) = 1 - s.rd (ck c 0xF) ∧ (u.chainRec c).swapFor = none ∧
      (u.chainRec c).line = (s.chainRec c).line ∧ (u.chainRec c).fir = (s.chainRec c).fir ∧ (u.chainRec c).gridP = (s.chainRec c).gridP)) ∧
  (∀ (t : Time) (q : Req) (c : ChainNo) (w : Nat) (s : State), s.Serves → s.Passes q (0x5000 + c) 0x1A 0 w →
    Completes (.detectorWindowWrite t q c w) s (fun u => u.rdN (ck c 0x1A) = w ∧ (u.chainRec c).rmsWin = [] ∧ u.rd (ck c 0x1E) = 0 ∧
      u.bit (ck c 0x20) 1 = false ∧ u.Answered 0))

/-- R94, R102, R103, R105: an image written to an Off batch starts the load; the load fails with its code and offset and changes no recipe, or commits the
image in one step; a write of length 0 unloads; a batch is enabled through admission, refused where a producer does not publish, and disabled. -/
def Obligations.RecipeCommandsComplete : Prop :=
  (∀ (t : Time) (q : Req) (b : Batch) (img : List Byte) (s : State), s.Serves → s.PassesBlob q (0x8000 + b) 1 img →
    (s.bstate b = .off → 96 ≤ img.length → Completes (.recipeLoadAndVerify t q b img) s (fun u => u.longOp = 2 ∧ u.srv.longInst = b ∧
      u.srv.longImg = img ∧ u.srv.longSid = q.sid ∧ u.blob (key (0x8000 + b) 1) = s.blob (key (0x8000 + b) 1) ∧ u.out = [])) ∧
    (s.bstate b ≠ .off → Completes (.recipeLoadAndVerify t q b img) s (fun u => u.longOp = 0 ∧ u.Answered 0x0B000050))) ∧
  (∀ (t : Time) (b : Batch) (s s1 : State), s.longOp = 2 → s.srv.longInst = b →
    s1 = { s.begin t with srv := { s.srv with longImg := [] } } →
    ((s1.verify b s.srv.longImg).1 ≠ 0 → Completes (.recipeLoadComplete t b) s (fun u => u.longOp = 0 ∧
      u.rdN (key (0x8000 + b) 2) = (s1.verify b s.srv.longImg).1 ∧ u.rdN (key (0x8000 + b) 0xA) = (s1.verify b s.srv.longImg).2 ∧
      u.rdN (key 0x2001 3) = (s1.verify b s.srv.longImg).1 ∧ u.blobs = s.blobs ∧ u.fixed = s.fixed ∧ u.floats = s.floats ∧ u.gens = s.gens)) ∧
    ((s1.loadRecipe b s.srv.longImg).1 = 0 → Completes (.recipeLoadComplete t b) s (fun u => u.longOp = 0 ∧ u.rd (key 0x2001 3) = 0 ∧
      u.blob (key (0x8000 + b) 1) = s.srv.longImg ∧ u.rdN (key (0x8000 + b) 3) = (readRecipe s.srv.longImg).ident ∧
      u.rd (key (0x8000 + b) 2) = 0 ∧ u.bstate b = s.bstate b ∧ u.rd (bk 0x14 1 b) = 0))) ∧
  (∀ (t : Time) (q : Req) (b : Batch) (s : State), s.Serves → s.PassesBlob q (0x8000 + b) 1 [] → s.bstate b = .off →
    Completes (.recipeUnload t q b) s (fun u => u.recipe b = none ∧ u.rd (key (0x8000 + b) 3) = 0 ∧ u.longOp = 0 ∧ u.Answered 0)) ∧
  (∀ (t : Time) (q : Req) (b : Batch) (s s1 : State) (r : Recipe), s.Serves → s.recipe b = some r → s1 = (s.begin t).handling q.sid →
    s.Passes q (0x4000 + 0x20 * b) 2 0 1 → s.benabled b = false → s1.enableOwn b 1 = 0 →
    (s1.runAdmission (s1.enabledFigs ++ [s1.fig b r])).1 = 0 →
    Completes (.batchEnable t q b true) s (fun u => u.benabled b = true ∧ (u.batch b).pub = [] ∧ u.Answered 0)) ∧
  (∀ (t : Time) (q : Req) (b : Batch) (s : State) (r : Recipe), s.Serves → s.recipe b = some r → s.Passes q (0x4000 + 0x20 * b) 2 0 1 →
    s.bstate b = .off → s.rdB (key 0x2500 4) = false → s.signalsOk b r = false →
    Completes (.batchEnable t q b true) s (fun u => u.benabled b = s.benabled b ∧ u.Answered 0x0B000058)) ∧
  (∀ (t : Time) (q : Req) (b : Batch) (s : State), s.Serves → s.Passes q (0x4000 + 0x20 * b) 2 0 0 → s.bstate b = .off →
    Completes (.batchEnable t q b false) s (fun u => u.benabled b = false ∧ (u.batch b).cyc = none ∧ u.Answered 0))

/-- R206, R207, R209, R212, R217: a node that starts anew; its control byte; a received frame is forwarded, and held when it is good, with a higher epoch
adopted; a held frame that becomes usable is obeyed where it is authoritative, its edges are scheduled or counted late; edges whose time has come; a sample; the frame of a locked turn node.
The status bits that come with a sample, the time of a locked node and the characters of a frame follow the model's choices (notes/assumptions/74, 75, 115). -/
def Obligations.NodeFramesAndEdgesComplete : Prop :=
  (∀ (t : Time) (n : NodeNo) (id : NodeId) (s : State), Completes (.nodePowerOn t n id) s (fun u => u.node n = { id := some id })) ∧
  (∀ (t : Time) (n : NodeNo) (ctl : Byte) (e : Nat) (s : State),
    (ctl.toNat.testBit 0 = true ∧ (s.node n).epoch ≤ e → Completes (.nodeControlByte t n ctl e) s (fun u =>
      u.node n = { s.node n with early := true, legs := 0, gates := [], edges := [] })) ∧
    (ctl.toNat.testBit 0 = false ∨ e < (s.node n).epoch → Completes (.nodeControlByte t n ctl e) s (fun u => u.node n = s.node n))) ∧
  (∀ (t : Time) (n : NodeNo) (f : NodeFrame) (s : State),
    (f.crcGood = true → f.violation = false → f.stomped = false → f.head.kind.toNat < 64 → Completes (.nodeFrameReceived t n f) s (fun u =>
      (u.node n).epoch = max (s.node n).epoch f.head.epoch ∧
      (u.node n).held = (s.node n).held ++ [⟨Time.ns f.head.tf, decide (1 ≤ f.head.epoch ∧ (s.node n).epoch ≤ f.head.epoch),
        ((f.controls[(s.node n).pos]?).getD 0).toNat, f.edges⟩] ∧
      (f.inward = false → s.rdN (lk (s.rdN (ndk n 1)) 2) = 0 → Output.msg "NODE_FORWARD" [n, 0]
        (frameChars f.head f.controls ((List.zip (List.range 32) f.slots).flatMap (fun p => slotBytes p.2)) f.edges false) ∈ u.out))) ∧
    (f.crcGood = false ∨ f.violation = true ∨ f.stomped = true → Completes (.nodeFrameReceived t n f) s (fun u =>
      (u.node n).epoch = (s.node n).epoch ∧ (u.node n).held = (s.node n).held ∧ (u.node n).legs = (s.node n).legs ∧
      Output.msg "NODE_FORWARD" [n, 1] ((s.node n).forward f (s.rdN (lk (s.rdN (ndk n 1)) 2) == 1) true) ∈ u.out))) ∧
  (∀ (t : Time) (n : NodeNo) (s : State) (f : HeldFrame), (s.node n).held = [f] → f.tf + framePeriod + (s.node n).delay ≤ (s.begin t).modTime →
    Completes (.nodeFrameUsable t n) s (fun u => (u.node n).held = [] ∧
      (f.auth = true → (u.node n).ctl = f.ctl ∧ (u.node n).early = f.ctl.testBit 0 ∧ (u.node n).missRun = 0 ∧ (u.node n).lastTf = f.tf ∧
        (u.node n).late = (s.node n).late + (f.edges.filter (fun e => e.pos == (s.node n).pos &&
          ((s.node n).slots ≤ e.slot || f.tf + e.offset < (s.begin t).modTime))).length ∧
        (∀ e ∈ f.edges, e.pos = (s.node n).pos → e.slot < (s.node n).slots → (s.begin t).modTime ≤ f.tf + e.offset →
          (⟨f.tf + e.offset, e.slot, e.level, none⟩ : NodeEdge) ∈ (u.node n).edges) ∧
        (u.node n).legs = if (s.node n).gatesOn = (u.node n).gatesOn then (s.node n).legs else 0) ∧
      (f.auth = false → (u.node n).ctl = (s.node n).ctl ∧ (u.node n).edges = (s.node n).edges ∧ (u.node n).missRun = (s.node n).missRun))) ∧
  (∀ (t : Time) (n : NodeNo) (s : State) (e : NodeEdge), (s.node n).edges.filter (fun x => x.at_ ≤ (s.begin t).modTime) = [e] →
    Completes (.nodeEdge t n) s (fun u => (u.node n).edges = (s.node n).edges.filter (fun x => (s.begin t).modTime < x.at_) ∧
      (u.node n).legs = if ((s.node n).shorts ||| (s.node n).undervolts ||| (s.node n).recharge).testBit e.slot || !(s.node n).gatesOn
        then (s.node n).legs else withBit (s.node n).legs e.slot e.level)) ∧
  (∀ (t : Time) (n : NodeNo) (v i temp : Code) (under below : BitVec 32) (hot : Bool) (s : State),
    Completes (.nodeSample t n v i ⟨temp, under, below, hot⟩) s (fun u =>
      (u.node n).volt = v.toInt ∧ (u.node n).cur = i.toInt ∧ (u.node n).temp = temp.toInt ∧ (u.node n).seq = ((s.node n).seq + 1) % 16 ∧
      (u.node n).status.testBit 2 = (under != 0) ∧ (u.node n).status.testBit 3 = hot ∧ (u.node n).status.testBit 4 = (below != 0))) ∧
  (∀ (t : Time) (n : NodeNo) (s : State), (s.node n).turn = true → (s.node n).locked = true → (s.begin t).modTime % framePeriod < 32 →
    Completes (.turnNodeFrame t n) s (fun u => (u.node n).fseq = ((s.node n).fseq + 1) % 65536 ∧ (u.node n).resp = (s.node n).resp.drop 1 ∧
      u.out = [.msg "TURN_FRAME" [n] (frameChars ((s.node n).turnHead (Time.toNs ((s.begin t).modTime / framePeriod * framePeriod))) []
        ((List.range (s.node n).count).flatMap (fun p => if p = (s.node n).pos then (s.node n).upSlot else leBytes 12 0)) [] false)]))

/-- R202, R206, R210, R213 to R218, R221: a missed frame period; the node watchdog; a short or an undervoltage in a slot; a node that becomes or stops
being the turn node while its link runs; registers read and written; latched faults cleared; enumeration and the delay measurement at a node.
The refused dead time, the break that a change of turn node makes, and the answers kept for inward frames are the model's choices
(notes/assumptions/73, 115). -/
def Obligations.NodeSupervisionAndRegistersComplete : Prop :=
  (∀ (t : Time) (n : NodeNo) (s : State), (s.node n).lastTf + framePeriod + Time.ns 6000 + (s.node n).delay ≤ (s.begin t).modTime →
    Completes (.missedFramePeriod t n) s (fun u => (u.node n).missRun = (s.node n).missRun + 1 ∧ (u.node n).missed = (s.node n).missed + 1 ∧
      (u.node n).lastTf = (s.node n).lastTf + framePeriod ∧ (u.node n).legs = (s.node n).legs)) ∧
  (∀ (t : Time) (n : NodeNo) (s : State), (s.node n).periods ≤ (s.node n).missRun →
    Completes (.nodeWatchdog t n) s (fun u => u.node n = { s.node n with watchdog := true, legs := 0, gates := [], edges := [] })) ∧
  (∀ (t : Time) (n : NodeNo) (i : Fin 32) (uv : Bool) (s : State), i.val < (s.node n).slots →
    Completes (.nodeShortCircuit t n i uv) s (fun u => (u.node n).legs.testBit i = false ∧ (∀ e ∈ (u.node n).edges, e.slot ≠ i.val) ∧
      (if uv then (u.node n).undervolts.testBit i = true ∧ (u.node n).shorts = (s.node n).shorts
       else (u.node n).shorts.testBit i = true ∧ (u.node n).undervolts = (s.node n).undervolts))) ∧
  (∀ (t : Time) (n : NodeNo) (turn : Bool) (s : State) (k : LinkNo), (s.node n).turn ≠ turn → s.rdN (ndk n 1) = k → s.rdN (lk k 3) = 3 →
    Completes (.turnNodeChange t n turn) s (fun u => (u.node n).turn = turn ∧ u.rdN (lk k 3) = (if s.rdN (lk k 2) = 1 then 4 else 3) ∧
      u.rdN (lk k 0xF) = (s.rdN (lk k 0xF) + 1) % 2 ^ 32)) ∧
  (∀ (t : Time) (n : NodeNo) (a : Nat) (s : State),
    (∀ v, (s.node n).register a = some v → Completes (.readRegister t n a) s (fun u => (u.node n).resp = (s.node n).resp ++ [(1, v)])) ∧
    ((s.node n).register a = none → Completes (.readRegister t n a) s (fun u => (u.node n).resp = (s.node n).resp ++ [(2, 0)]))) ∧
  (∀ (t : Time) (n : NodeNo) (a v e : Nat) (s : State), 1 ≤ e → (s.node n).epoch ≤ e → ((s.node n).register a).isSome = true → 0x34 ≤ a →
    a < 0x100 ∨ 0x1000 ≤ a ∨ ((s.node n).id.map (·.minDead)).getD 0 ≤ v →
    Completes (.writeRegister t n a v e) s (fun u => Tbl.get 0 a (u.node n).regs = v % 2 ^ 32 ∧ (u.node n).epoch = e ∧
      (u.node n).resp = (s.node n).resp ++ [(1, v)])) ∧
  (∀ (t : Time) (n : NodeNo) (a v e : Nat) (s : State), e < (s.node n).epoch →
    Completes (.writeRegister t n a v e) s (fun u => u.node n = { s.node n with resp := (s.node n).resp ++ [(3, 0)] })) ∧
  (∀ (t : Time) (n : NodeNo) (e standing : Nat) (s : State), 1 ≤ e → (s.node n).epoch ≤ e →
    Completes (.clearLatchedFaults t n e standing) s (fun u => (u.node n).shorts = (s.node n).shorts &&& standing ∧
      (u.node n).undervolts = (s.node n).undervolts &&& standing ∧ (u.node n).resp = (s.node n).resp ++ [(1, 0)])) ∧
  (∀ (t : Time) (n : NodeNo) (d : Nat) (s : State), Completes (.enumerateRequest t n d) s (fun u => (u.node n).pos = d ∧
    u.out = if (s.node n).turn then [.msg "NODE_RESPONSE" [n, 4, 0xFF, (d + 1 : Nat)] []] else [.msg "NODE_ENUMERATE" [n, (d + 1 : Nat)] []])) ∧
  (∀ (t : Time) (n : NodeNo) (a b : Nat) (s : State), a ≤ b → Completes (.delayMeasurement t n a b) s (fun u => (u.node n).latch + a = b))

/-- R203, R210, R212 to R215, R219, R220, R222, R224: a frame departs on each enabled link; a bad frame is discarded whole, a good one gives telemetry, a
higher epoch and the answer to a request; a request is repeated, then reported; a link is enumerated or its nodes rejoin; a break loses the nodes beyond
it; the host's requests to a node wait on its link.
The refusal of an enumeration on a dark link, what a break leaves, and the refused clear of a node's faults are the model's choices
(notes/assumptions/99, 115). -/
def Obligations.LinkCommandsComplete : Prop :=
  (∀ (t : Time) (k : LinkNo) (s : State), s.lit k = true → (2 ≤ s.rdN (lk k 3) ∧ s.rdN (lk k 3) ≤ 4) ∨ (s.link k).service = true →
    (s.begin t).modTime % framePeriod < 32 → (s.link k).next ≤ Time.toNs ((s.begin t).modTime / framePeriod * framePeriod) →
    s.rack.grant = none → s.rack.revoke = none → s.power.removal = none →
    Completes (.frameDeparture t) s (fun u => u.rdN (lk k 0xB) = (s.rdN (lk k 0xB) + 1) % 2 ^ 32 ∧ (u.link k).seq = ((s.link k).seq + 1) % 65536 ∧
      (u.link k).req = (s.link k).req.map (fun q => { q with sent := some (q.sent.getD u.now) }) ∧
      (∃ bytes, Output.msg "FRAME" [k] bytes ∈ u.out) ∧
      ∀ b : Batch, (u.batch b).edges = (s.batch b).edges.filter (fun x => u.now < x.sealedAt + Time.ns 1500))) ∧
  (∀ (t : Time) (k : LinkNo) (s : State), s.lit k = false → s.rack.grant = none → s.rack.revoke = none → s.power.removal = none →
    Completes (.frameDeparture t) s (fun u => u.rdN (lk k 0xB) = s.rdN (lk k 0xB) ∧ u.link k = s.link k ∧
      ∀ bytes, Output.msg "FRAME" [k] bytes ∉ u.out)) ∧
  (∀ (t : Time) (k : LinkNo) (f : UpFrame) (s : State), s.rdB (lk k 1) = true → 2 ≤ s.rdN (lk k 3) → f.crcGood = false ∨ f.stomped = true →
    Completes (.upFrameReceived t k f) s (fun u => u.rdN (lk k 0xE) = (s.rdN (lk k 0xE) + f.violations) % 2 ^ 32 ∧
      u.rdN (lk k 0xD) = (s.rdN (lk k 0xD) + 1) % 2 ^ 32 ∧ u.links = s.links)) ∧
  (∀ (t : Time) (k : LinkNo) (f : UpFrame) (s : State), s.rdB (lk k 1) = true → 2 ≤ s.rdN (lk k 3) → f.crcGood = true → f.stomped = false →
    Completes (.upFrameReceived t k f) s (fun u => u.rdN (lk k 0xC) = (s.rdN (lk k 0xC) + 1) % 2 ^ 32 ∧
      u.rdN (lk k 0xE) = (s.rdN (lk k 0xE) + f.violations) % 2 ^ 32 ∧
      (s.ownEpoch < f.head.epoch → u.rdN (lk k 0x10) = max (s.rdN (lk k 0x10)) f.head.epoch ∧ u.links.superseded = true ∧ u.bit (lk k 0x13) 6 = true) ∧
      (∀ r, (s.link k).req = some r → r.sent.isSome = true → f.head.respCode ≠ 0 → f.head.respPos = r.pos → (u.link k).req = none) ∧
      ∀ p ∈ List.zip (List.range 32) f.slots, ∀ n, s.nodeAt k p.1 = some n → p.2.status.toNat.testBit 9 = true →
        u.rdN (ndk n 0x11) = p.2.status.toNat ∧ u.rdN (ndk n 0x12) = p.2.legs.toNat ∧
        (Tbl.find? n s.links.lastSeq ≠ some (p.2.status.toNat / 4096) →
          u.rd (ndk n 0xE) = p.2.volt.toInt ∧ u.rd (ndk n 0xF) = p.2.cur.toInt ∧ u.rd (ndk n 0x10) = p.2.temp.toInt))) ∧
  (∀ (t : Time) (k : LinkNo) (s : State) (r : LinkReq) (t0 : Time), (s.link k).req = some r → r.sent = some t0 → t0 + 3 * framePeriod ≤ max t s.now →
    (r.tries < 3 → Completes (.requestTimeout t k) s (fun u => (u.link k).req = some { r with sent := none, tries := r.tries + 1 })) ∧
    (3 ≤ r.tries → Completes (.requestTimeout t k) s (fun u => (u.link k).req = none ∧ u.rdN (lk k 0x11) = (s.rdN (lk k 0x11) + 1) % 2 ^ 32 ∧
      (r.sid = 0 → u.Answered 0x0B000093)))) ∧
  (∀ (t : Time) (q : Req) (k : LinkNo) (found : List NodeId) (runs : List DelayRun) (s : State), s.Serves → s.Passes q (0x3700 + k) 6 0 1 → s.lit k = true →
    (s.linkBatches k).all (fun b => s.bstate b == .off) = true → found.length ≤ 32 → s.edgeDemand k ≤ edgeCap found.length →
    Completes (.linkEnumerate t q k ⟨found, runs⟩) s (fun u => u.rdN (lk k 3) = (if found = [] then 3 else 2) ∧ u.rdN (lk k 4) = found.length ∧
      u.rdN (lk k 8) = edgeCap found.length ∧ u.Answered 0 ∧ (found = [] → (u.link k).service = true) ∧
      ∀ (n : NodeNo), s.rdN (ndk n 1) = k → ∀ x, found[s.rdN (ndk n 2)]? = some x → s.identityOk n x = true → s.twoBatches n = false →
        u.rdN (ndk n 5) = 2 ∧ u.rdN (ndk n 0xC) = measuredDelay runs (s.rdN (ndk n 2)) % 2 ^ 32)) ∧
  (∀ (t : Time) (q : Req) (k : LinkNo) (found : List NodeId) (runs : List DelayRun) (s : State), s.Serves → s.Passes q (0x3700 + k) 6 0 1 →
    s.lit k = false → Completes (.linkEnumerate t q k ⟨found, runs⟩) s (fun u => u.links = s.links ∧ u.Answered 0x08000022)) ∧
  (∀ (t : Time) (k : LinkNo) (found : List NodeId) (runs : List DelayRun) (s : State),
    (s.lit k = false → Completes (.syncReturn t k ⟨found, runs⟩) s (fun u => u.links = s.links ∧ u.rd (lk k 3) = s.rd (lk k 3))) ∧
    (s.lit k = true → (s.linkBatches k).all (fun b => s.bstate b == .off) = true → found ≠ [] → found.length ≤ 32 → s.edgeDemand k ≤ edgeCap found.length →
      Completes (.syncReturn t k ⟨found, runs⟩) s (fun u => u.rdN (lk k 3) = 2 ∧ u.rdN (lk k 4) = found.length)) ∧
    (s.lit k = true → (s.linkBatches k).all (fun b => s.bstate b == .off) = false →
      Completes (.syncReturn t k ⟨found, runs⟩) s (fun u => u.rdN (lk k 3) = 2 ∧ u.rdN (lk k 0x12) = 0xFF ∧ (u.link k).rejoin = false))) ∧
  (∀ (t : Time) (k : LinkNo) (unreached : Nat) (s : State),
    (2 ≤ s.rdN (lk k 3) → Completes (.linkBreak t k unreached) s (fun u =>
      u.rdN (lk k 3) = (if s.rdN (lk k 2) = 1 ∧ s.rdN (lk k 3) ≤ 4 ∧ (s.link k).scanning = false then 4 else 1) ∧
      u.rdN (lk k 0xF) = (s.rdN (lk k 0xF) + 1) % 2 ^ 32 ∧ (u.link k).rejoin = true ∧ (u.link k).scanning = false ∧ (u.link k).req = (s.link k).req ∧
      u.bit (lk k 0x13) 0 = false ∧ u.bit (lk k 0x13) 1 = false ∧
      (s.rdN (lk k 2) = 1 → u.rdN (lk k 0x12) = unreached % 256 ∧ u.bit (lk k 0x13) 3 = false))) ∧
    (s.rdN (lk k 3) < 2 → Completes (.linkBreak t k unreached) s (fun u => u = s.begin t))) ∧
  (∀ (t : Time) (q : Req) (n : NodeNo) (s : State), s.Serves →
    ((s.link (s.rdN (ndk n 1))).req = none → Completes (.nodeRegisterRead t q n) s (fun u => ∃ r, (u.link (s.rdN (ndk n 1))).req = some r ∧
      r.code = 1 ∧ r.pos = s.rdN (ndk n 2) ∧ r.addr = s.rdN (ndk n 0x1C) ∧ r.sent = none ∧ r.sid = q.sid)) ∧
    ((s.link (s.rdN (ndk n 1))).req ≠ none → Completes (.nodeRegisterRead t q n) s (fun u => u.links = s.links ∧ u.Answered 0x0B000001))) ∧
  (∀ (t : Time) (q : Req) (n : NodeNo) (v : Nat) (s : State), s.Serves → s.Passes q (0x3400 + n) 0x1D 0 v → (s.link (s.rdN (ndk n 1))).req = none →
    (0x1000 ≤ s.rdN (ndk n 0x1C) → (∀ b, s.nodeBatch n = some b → s.bstate b = .off) →
      Completes (.nodeRegisterWrite t q n v) s (fun u => u.rdN (ndk n 0x1D) = v ∧ ∃ r, (u.link (s.rdN (ndk n 1))).req = some r ∧
        r.code = 2 ∧ r.addr = s.rdN (ndk n 0x1C) ∧ r.data = v ∧ r.sid = q.sid)) ∧
    (s.rdN (ndk n 0x1C) < 0x1000 → Completes (.nodeRegisterWrite t q n v) s (fun u => u.links = s.links ∧ u.Answered 0x0B000094))) ∧
  (∀ (t : Time) (q : Req) (n : NodeNo) (s : State), s.Serves → s.Passes q (0x3400 + n) 0x15 0 1 → (s.link (s.rdN (ndk n 1))).req = none →
    ((∀ b, s.nodeBatch n = some b → s.bstate b = .off ∨ s.bstate b = .blocked ∨ s.bstate b = .fault) →
      Completes (.clearFaults t q n) s (fun u => ∃ r, (u.link (s.rdN (ndk n 1))).req = some r ∧ r.code = 3 ∧ r.sid = q.sid)) ∧
    (∀ b, s.nodeBatch n = some b → (s.bstate b).running = true →
      Completes (.clearFaults t q n) s (fun u => u.links = s.links ∧ u.Answered 0x0B000094)))

/-- R243, R244, R316: whatever the island decides, a circuit under a standing demand, and a bridge circuit under any demand, is left Open or Fault, never
closing and never closed: when the island settles, at the end of every cycle, and at every RMS update that falls due. -/
def Obligations.DemandedCircuitsStandOpen : Prop :=
  (∀ (s : State) (n : CircuitNo), (s.islandSettle.actMask s.islandSettle.standing).testBit n = true →
    s.islandSettle.circState n = 0 ∨ s.islandSettle.circState n = 4) ∧
  (∀ (t : Time) (rb : List Readback) (s : State), Completes (.islandCycle t rb) s (fun u =>
    ∀ n : CircuitNo, (u.actMask u.standing).testBit n = true → u.circState n = 0 ∨ u.circState n = 4)) ∧
  (∀ (t : Time) (s : State), s.islandState = 1 ∨ s.islandState = 2 → s.island.lastRms + s.islandPeriod / 2 ≤ max t s.now →
    Completes (.rmsUpdate t) s (fun u => ∀ n : CircuitNo, (u.actMask u.standing).testBit n = true → u.circState n = 0 ∨ u.circState n = 4))

/-- R238, R239, R257: ISLAND_SELF_TEST_END goes to Unlocked, to Run where both lock areas are set, or to Fault; ISLAND_OSCILLATOR_CHECK beyond
±1 % after correction, or ±12 % uncorrected, a failed ISLAND_SELF_CHECK and LOCKSTEP_MISMATCH are an island fault, which opens every circuit;
PD7_SUPPLY_LOW turns every switch off; LOCK_ISLAND_SETTINGS and LOCK_INTERFACE_PROTECTION_SETTINGS lock their areas. That the island
starts anew after a low supply is the model's choice (notes/assumptions/31). -/
def Obligations.IslandStatesComplete : Prop :=
  (∀ (t : Time) (s : State), s.islandState = 0 →
    Completes (.islandSelfTestEnd t true) s (fun u => u.islandState = if s.locked 0 && s.locked 1 then 2 else 1) ∧
    Completes (.islandSelfTestEnd t false) s (fun u => u.islandState = 3)) ∧
  (∀ (t : Time) (dev : Int) (s : State) (h : Time), s.clock.hkAt = some h → max t s.now ≤ h + Time.sec 10 →
    (10 ^ 10 < ((10 ^ 6 + dev) * (10 ^ 6 + 100 * s.clock.hk) - 10 ^ 12).natAbs → Completes (.islandOscillatorCheck t dev) s (fun u =>
      u.islandState = 3 ∧ (s.islandState ≠ 3 → ∀ n : CircuitNo, u.circState n = 0 ∨ u.circState n = 4))) ∧
    (((10 ^ 6 + dev) * (10 ^ 6 + 100 * s.clock.hk) - 10 ^ 12).natAbs ≤ 10 ^ 10 → Completes (.islandOscillatorCheck t dev) s (fun u =>
      u.islandState = s.islandState ∧ u.island = s.island ∧ u.od = s.od))) ∧
  (∀ (t : Time) (dev : Int) (s : State), (∀ h, s.clock.hkAt = some h → h + Time.sec 10 < max t s.now) →
    (120000 < dev.natAbs → Completes (.islandOscillatorCheck t dev) s (fun u =>
      u.islandState = 3 ∧ (s.islandState ≠ 3 → ∀ n : CircuitNo, u.circState n = 0 ∨ u.circState n = 4))) ∧
    (dev.natAbs ≤ 120000 → Completes (.islandOscillatorCheck t dev) s (fun u =>
      u.islandState = s.islandState ∧ u.island = s.island ∧ u.od = s.od))) ∧
  (∀ (t : Time) (c : Instr) (s : State), c = .islandSelfCheck t false ∨ c = .lockstepMismatch t → s.islandState ≠ 3 →
    Completes c s (fun u => u.islandState = 3 ∧ u.rdN (key 0x7800 7) = (s.rdN (key 0x7800 7) + 1) % 2 ^ 32 ∧
      ∀ n : CircuitNo, u.circState n = 0 ∨ u.circState n = 4)) ∧
  (∀ (t : Time) (s : State), Completes (.islandSelfCheck t true) s (fun u => u.island = s.island ∧ u.od = s.od)) ∧
  (∀ (t : Time) (s : State), Completes (.pd7SupplyLow t) s (fun u => u.islandState = (if s.islandState = 3 then 3 else 0) ∧
    ∀ n : CircuitNo, (u.circ n).hs = false ∧ (u.circ n).ls = false ∧ (s.circState n ≠ 4 → u.circState n = 0))) ∧
  (∀ (t : Time) (q : Req) (c : Instr) (sub area : Nat) (s : State), (c, sub, area) = (.lockIslandSettings t q, 2, 0) ∨
    (c, sub, area) = (.lockInterfaceProtectionSettings t q, 3, 1) → s.Serves → s.Passes q 0x7800 sub 0 1 →
    (s.settingsOk = true → Completes c s (fun u => u.locked area = true ∧ u.bit (key 0x7800 4) area = true ∧ u.Answered 0 ∧
      (s.islandState = 1 → s.locked (1 - area) = true → u.islandState = 2))) ∧
    (s.settingsOk = false → Completes c s (fun u => u.locked area = s.locked area ∧ u.Answered 0x0B0000B3)))

/-- R240 to R242, R247: a conversion of the island's inputs; the RMS values of an update; a cross-check invalid beyond the grace time; a stage that
trips opens its circuits and restarts the observation; a mean update; the dead bus; the end of the observation time. -/
def Obligations.IslandMeasurementAndStagesComplete : Prop :=
  (∀ (t : Time) (x0 x1 x2 x3 : Code) (s : State), Completes (.islandSample t x0 x1 x2 x3) s (fun u =>
    u.island.samples = (⟨u.now, [x0.toInt, x1.toInt, x2.toInt, x3.toInt]⟩ :: s.island.samples).take 1024)) ∧
  (∀ (t : Time) (s : State), s.islandState = 1 ∨ s.islandState = 2 → s.island.lastRms + s.islandPeriod / 2 ≤ max t s.now →
    Completes (.rmsUpdate t) s (fun u => u.rdF (key 0x7802 1) = (s.begin t).islandRms 0 ∧ u.rdF (key 0x7802 2) = (s.begin t).islandRms 1 ∧
      u.rdF (key 0x7802 3) = (s.begin t).islandRms 2 ∧ u.rdF (key 0x7802 6) = (s.begin t).islandRms 3 ∧ u.island.lastRms = u.now ∧
      u.island.odd = !s.island.odd)) ∧
  (∀ (t : Time) (second : Bool) (s : State) (t0 : Time), (s.check (b2n second)).invSince = some t0 →
    t0 + Time.ms (s.rdN (key 0x7801 6)) ≤ max t s.now →
    Completes (.crossCheckGrace t second) s (fun u => (u.check (b2n second)).fault = true ∧ u.bit (key 0x7800 6) 1 = true ∧
      ∀ n : CircuitNo, u.circState n = 0 ∨ u.circState n = 4)) ∧
  (∀ (t : Time) (i : StageNo) (s : State), s.rdB (key (0x7810 + i) 1) = true → s.bit (key (0x7810 + i) 8) 0 = true →
    s.bit (key (0x7810 + i) 8) 1 = false → (s.stage i).since + Time.ms (s.rdN (key (0x7810 + i) 4)) ≤ max t s.now →
    Completes (.stageTrip t i) s (fun u => u.bit (key (0x7810 + i) 8) 1 = true ∧
      u.rdN (key (0x7810 + i) 9) = (s.rdN (key (0x7810 + i) 9) + 1) % 2 ^ 32 ∧ u.island.observed = false ∧
      ∀ n : CircuitNo, (s.rdN (key (0x7810 + i) 6)).testBit n = true → u.circState n = 0 ∨ u.circState n = 4)) ∧
  (∀ (t : Time) (i : StageNo) (s : State), s.rdB (key (0x7810 + i) 1) = true → s.rdN (key (0x7810 + i) 2) = 1 → s.rdN (key (0x7810 + i) 7) = 1 →
    (s.stage i).meanAt + Time.sec 3 ≤ max t s.now →
    Completes (.meanUpdate t i) s (fun u => (u.stage i).meanAt = u.now ∧ (u.stage i).buckets = ({} :: (s.stage i).buckets).take 200)) ∧
  (∀ (t : Time) (s : State) (t0 : Time), s.island.below = some t0 → t0 + Time.ms (s.rdN (key 0x7801 0xB)) ≤ max t s.now →
    Completes (.deadToTheIsland t) s (fun u => u.island.dead = true ∧ u.bit (key 0x7800 6) 2 = true)) ∧
  (∀ (t : Time) (s : State) (t0 : Time), s.island.connSince = some t0 → t0 + Time.sec (s.rdN (key 0x7850 5)) ≤ max t s.now →
    Completes (.observationComplete t) s (fun u => u.island.observed = true ∧ u.bit (key 0x7800 6) 4 = true))

/-- R243 to R247, R250 to R253: readback in a cycle; a safe-stop input and the host's open command open their circuits; the host's close command starts
a proof test where the conditions are met; a fault is acknowledged; closing ends by feedback or time; overcurrent and readback faults; test pulses at their instants.
The filtered levels, the answer to an acknowledgement without a fault, the start of a proof and the instants of the pulses are the model's choices
(notes/assumptions/24, 81, 82, 118). -/
def Obligations.CircuitCommandsComplete : Prop :=
  (∀ (t : Time) (rb : List Readback) (s : State), Completes (.islandCycle t rb) s (fun u => ∀ (n : CircuitNo) (r : Readback), rb[n.val]? = some r →
    u.rdN (ik n 8) = levelCode (levelOf r.nodes.h) + 4 * levelCode (levelOf r.nodes.l) ∧ u.rdN (ik n 9) = min 65535 r.coil)) ∧
  (∀ (t : Time) (k : Fin 2) (s : State),
    Completes (.safeStopN t k true) s (fun u => u.bit (key 0x7830 3) k = true ∧
      ∀ n : CircuitNo, (s.rdN (key 0x7830 (1 + k))).testBit n = true → u.circState n = 0 ∨ u.circState n = 4) ∧
    Completes (.safeStopN t k false) s (fun u => u.bit (key 0x7830 3) k = false)) ∧
  (∀ (t : Time) (q : Req) (n : CircuitNo) (s : State), s.Serves → s.Passes q (0x7820 + n) 0xB 0 2 →
    Completes (.hostOpen t q n) s (fun u => (u.circState n = 0 ∨ u.circState n = 4) ∧ u.Answered 0)) ∧
  (∀ (t : Time) (q : Req) (n : CircuitNo) (s : State), s.Serves → s.Passes q (0x7820 + n) 0xB 0 1 →
    (hostCloseOwn n s = 0 → (s.circ n).pulse = none → (s.circ n).step = 0 → Completes (.hostClose t q n) s (fun u =>
      u.circState n = 1 ∧ (u.circ n).step = 1 ∧ (u.circ n).req = 1 ∧ (u.circ n).hs = false ∧ (u.circ n).ls = false ∧ u.Answered 0)) ∧
    (hostCloseOwn n s ≠ 0 → Completes (.hostClose t q n) s (fun u => u.island = s.island ∧ u.Answered (hostCloseOwn n s)))) ∧
  (∀ (t : Time) (q : Req) (n : CircuitNo) (s : State), s.Serves → s.Passes q (0x7820 + n) 0xC 0 1 →
    (s.circState n = 4 → (s.circ n).step = 0 → Completes (.acknowledge t q n) s (fun u => (u.circ n).step = 1 ∧ (u.circ n).stepAt = u.now ∧
      (u.circ n).ack = true ∧ (u.circ n).ackHost = true ∧ (u.circ n).ackSid = q.sid ∧ (u.circ n).hs = false ∧ (u.circ n).ls = false)) ∧
    (s.circState n = 4 → (s.circ n).step ≠ 0 → Completes (.acknowledge t q n) s (fun u => u.island = s.island ∧ u.Answered 0x0B0000B2)) ∧
    (s.circState n ≠ 4 → Completes (.acknowledge t q n) s (fun u => u.island = s.island ∧ u.Answered 0))) ∧
  (∀ (t : Time) (n : CircuitNo) (c : Instr) (s : State), s.circState n = 2 → (s.circ n).seen = true →
    (c = .contactFeedbackClosed t n ∧ s.rdB (ik n 3) = true) ∨
      (c = .closingTime t n ∧ s.rdB (ik n 3) = false ∧ (s.circ n).stepAt + Time.ms (s.rdN (ik n 4)) ≤ max t s.now) →
    Completes c s (fun u => u.rdN (ik n 0xD) = (s.rdN (ik n 0xD) + 1) % 2 ^ 32 ∧
      ((s.actMask ((s.begin t).circClosed n).islandStatus.standing).testBit n = false → u.circState n = 3 ∧ (u.circ n).step = 0))) ∧
  (∀ (t : Time) (n : CircuitNo) (s : State), s.circState n = 2 → (s.circ n).seen = true → s.rdB (ik n 3) = true →
    (s.circ n).stepAt + Time.ms (s.rdN (ik n 4)) ≤ max t s.now →
    Completes (.closingTime t n) s (fun u => u.circState n = 4 ∧ u.rdN (ik n 0xA) = 7 ∧ (u.circ n).hs = false ∧ (u.circ n).ls = false)) ∧
  (∀ (t : Time) (n : CircuitNo) (ma : Nat) (s : State), s.circState n ≠ 4 → 650 < ma →
    Completes (.coilOvercurrent t n ma) s (fun u => u.circState n = 4 ∧ u.rdN (ik n 0xA) = 6 ∧ (u.circ n).hs = false ∧ (u.circ n).ls = false)) ∧
  (∀ (t : Time) (n : CircuitNo) (v : NodeVolts) (s : State), s.circState n ≠ 4 → (s.circ n).pulse = none →
    patOf v ≠ expected (s.circ n).hs (s.circ n).ls → (s.circ n).cmdAt + Time.ms 2 ≤ max t s.now →
    Completes (.readbackMismatch t n v) s (fun u => u.circState n = 4 ∧ u.rdN (ik n 0xA) = patternCode (s.circ n).hs (s.circ n).ls (patOf v) ∧
      (u.circ n).hs = false ∧ (u.circ n).ls = false)) ∧
  (∀ (t : Time) (n : CircuitNo) (low : Bool) (s : State), s.islandState = 2 → (s.circ n).pulse = none → (s.circ n).step = 0 →
    (s.circState n = 3 → (s.begin t).pulseDue n low = true → Completes (.darkPulse t n low) s (fun u => (u.circ n).pulse = some (low, u.now) ∧ (u.circ n).hs = low ∧ (u.circ n).ls = !low)) ∧
    (s.circState n = 0 → (s.begin t).pulseDue n low = true → Completes (.brightPulse t n low) s (fun u => (u.circ n).pulse = some (low, u.now) ∧ (u.circ n).hs = !low ∧ (u.circ n).ls = low)) ∧
    (∀ at_, s.circState n = 3 ∨ s.circState n = 0 → (s.circ n).retry = some (low, at_) → at_ ≤ max t s.now →
      Completes (.pulseRetry t n low) s (fun u => (u.circ n).pulse = some (low, u.now) ∧ (u.circ n).retry = none)))

/-- R254 to R256: the first copy of a safety telegram waits; with its identical partner, of good header, CRC, sequence and settings CRC, the command is
accepted, and its trip bit opens every circuit; a CRC error is counted; copies without a partner are dropped and counted; 60 ms without a command
open the circuits that require the telegram; a status telegram goes out on both ports every 20 ms.
The first sequence number, the order of the checks, the counts and the bits 1 and 2 of 0x7840 .06 are the model's choices (notes/assumptions/33, 79, 118). -/
def Obligations.SafetyTelegramsComplete : Prop :=
  (∀ (t : Time) (portB : Bool) (l : List Byte) (s : State), s.rdB (key 0x7840 1) = true → s.seqAccepted (leAt 0xC 4 l) = false →
    s.island.copies = [] →
    Completes (.safetyTelegram t portB l) s (fun u => u.island.copies = [TeleCopy.mk portB u.now l] ∧ u.bit (key 0x7840 6) 1 = !portB ∧
      u.bit (key 0x7840 6) 2 = portB ∧ u.island.lastSeq = s.island.lastSeq)) ∧
  (∀ (t : Time) (portB : Bool) (l : List Byte) (s : State) (c : TeleCopy), s.rdB (key 0x7840 1) = true → s.seqAccepted (leAt 0xC 4 l) = false →
    s.island.copies = [c] → c.portB = !portB → max t s.now ≤ c.at_ + Time.ms 10 → c.bytes = l → s.teleHeader l = true →
    (s.teleCrc l = true → (∀ k, s.island.lastSeq = some k → 1 ≤ (leAt 0xC 4 l + 2 ^ 32 - k) % 2 ^ 32 ∧ (leAt 0xC 4 l + 2 ^ 32 - k) % 2 ^ 32 ≤ 3) →
      leAt 0x1C 4 l = s.settingsCrc → Completes (.safetyTelegram t portB l) s (fun u => u.island.copies = [] ∧
        u.island.lastSeq = some (leAt 0xC 4 l) ∧ u.island.lastCmd = u.now ∧ u.rdN (key 0x7840 0xA) = leAt 0x18 2 l ∧
        u.rdN (key 0x7840 7) = (s.rdN (key 0x7840 7) + 1) % 2 ^ 32 ∧ u.bit (key 0x7840 6) 0 = false ∧
        ((leAt 0x18 2 l).testBit 8 = true → ∀ n : CircuitNo, u.circState n = 0 ∨ u.circState n = 4))) ∧
    (s.teleCrc l = false → Completes (.safetyTelegram t portB l) s (fun u => u.island.lastSeq = s.island.lastSeq ∧
      u.rdN (key 0x7840 8 3) = (s.rdN (key 0x7840 8 3) + 1) % 2 ^ 32))) ∧
  (∀ (t : Time) (s : State) (c : TeleCopy), s.island.copies = [c] → c.at_ + Time.ms 10 ≤ max t s.now →
    Completes (.noPartner t) s (fun u => u.island.copies = [] ∧ u.rdN (key 0x7840 8 1) = (s.rdN (key 0x7840 8 1) + 1) % 2 ^ 32)) ∧
  (∀ (t : Time) (s : State), s.rdB (key 0x7840 1) = true → s.bit (key 0x7840 6) 0 = false → s.island.lastCmd + Time.ms 60 ≤ max t s.now →
    Completes (.telegramWatchdog t) s (fun u => u.bit (key 0x7840 6) 0 = true ∧ u.rdN (key 0x7840 9) = (s.rdN (key 0x7840 9) + 1) % 2 ^ 32 ∧
      ∀ n : CircuitNo, s.rdB (ik n 2) = true → u.circState n = 0 ∨ u.circState n = 4)) ∧
  (∀ (t : Time) (s : State), s.rdB (key 0x7840 1) = true → s.island.lastTx + Time.ms 20 ≤ max t s.now →
    Completes (.statusTelegram t) s (fun u => u.island.txSeq = (s.island.txSeq + 1) % 2 ^ 32 ∧ u.island.lastTx = u.now ∧
      ∀ k : Fin 2, Output.msg "SAFETY_STATUS" [s.rd (key 0x7840 2), k.val] ((s.begin t).statusBytes s.island.txSeq) ∈ u.out))

/-- R259 to R264, R193: qualification and selection of the references; the PLL's update, lock, fast hop, stored bands and loss of lock; loss and return of
references, with bypass and holdover; the ride window's end blocks every batch; the housekeeping clock's measurement.
That the timebase is bypassed while the PLL relocks after a change of reference, and the count of references lost together, are the model's choices
(notes/assumptions/34, 119). -/
def Obligations.ReferencesAndPllComplete : Prop :=
  (∀ (t : Time) (s : State), s.bit (ckc 3) 2 = false → Completes (.refclkQualified t) s (fun u =>
    u.bit (ckc 3) 1 = true ∧ u.bit (ckc 3) 2 = true ∧ u.clock.qualSince = some u.now ∧
    (s.rdN (ckc 1) = 2 → s.clock.left = false → s.clocked = true → u.rdN (ckc 2) = 1))) ∧
  (∀ (t : Time) (s : State), s.bit (ckc 3) 2 = true → Completes (.refclkDisqualified t) s (fun u =>
    u.bit (ckc 3) 2 = false ∧ u.clock.qualSince = none ∧ (s.rdN (ckc 2) = 1 → u.clock.left = true) ∧
    (s.rdN (ckc 1) = 2 → s.clocked = true → s.bit (ckc 3) 0 = true → u.rdN (ckc 2) = 0))) ∧
  (∀ (t : Time) (s : State) (a : Time), s.clock.qualSince = some a → a + Time.sec 10 ≤ max t s.now → Completes (.refclkReselection t) s (fun u =>
    u.clock.left = false ∧ (s.rdN (ckc 1) = 2 → s.clocked = true → s.bit (ckc 3) 1 = true → s.bit (ckc 3) 2 = true → u.rdN (ckc 2) = 1))) ∧
  (∀ (t : Time) (q : Req) (v : Nat) (s : State), s.Serves → s.Passes q 0x2200 1 0 v →
    (v ≠ 1 ∨ s.bit (ckc 3) 2 = true → Completes (.referenceSelect t q v) s (fun u => u.rdN (ckc 1) = v ∧ u.Answered 0 ∧
      (v < 2 → s.clocked = true → s.bit (ckc 3) v = true → u.rdN (ckc 2) = v))) ∧
    (v = 1 → s.bit (ckc 3) 2 = false → Completes (.referenceSelect t q v) s (fun u => u.rd (ckc 1) = s.rd (ckc 1) ∧ u.Answered 0x0B0000C3))) ∧
  (∀ (t : Time) (s : State), s.bit (ckc 5) 0 = true → s.rdN (ckc 4) = 0 → Completes (.pllUpdate t) s (fun u =>
    u.rd (ckc 8) = s.rd (ckc 8) + clampI (clampI (s.rd (ckc 9)) (-250000) 250000 - s.rd (ckc 8)) (-1000) 1000 ∧
    u.rdN (ckc 6) = pllWord (u.rd (ckc 8)) / 2 ^ 32 ∧ u.rdN (ckc 7) = pllWord (u.rd (ckc 8)) % 2 ^ 32)) ∧
  (∀ (t : Time) (band : Fin 64) (s : State), s.bit (ckc 5) 1 = true ∨ s.bit (ckc 5) 2 = true → Completes (.pllLock t band) s (fun u =>
    u.rdN (ckc 5) = 1 ∧ u.clock.lockAt = some u.now ∧ u.clock.hopAt = none ∧
    u.rd (ckc 0xA) = if s.bit (ckc 5) 1 then (band.val : Int) else s.rd (ckc 0xA))) ∧
  (∀ (t : Time) (s : State) (h : Time), s.clock.hopAt = some h → s.bit (ckc 5) 2 = true → h + Time.us 20 ≤ max t s.now →
    Completes (.fastHopTimeout t) s (fun u => u.rdN (ckc 5) = 2 ∧ u.rdN (ckc 0x13 (1 + s.rdN (ckc 2) % 2)) = 0xFF ∧
      u.rdN (ckc 0xD 2) = (s.rdN (ckc 0xD 2) + 1) % 2 ^ 32)) ∧
  (∀ (t : Time) (s : State) (l : Time), s.clock.lockAt = some l → s.bit (ckc 5) 0 = true → l + Time.sec 1 ≤ max t s.now → s.rdN (ckc 2) < 2 →
    Completes (.bandStore t) s (fun u => u.rd (ckc 0x13 (1 + s.rdN (ckc 2))) = s.rd (ckc 0xA))) ∧
  (∀ (t : Time) (q : Req) (s : State), s.Serves → s.Passes q 0x2200 0x14 0 1 → s.mod = .configuration →
    Completes (.clearStoredBands t q) s (fun u => u.rdN (ckc 0x13 1) = 0xFF ∧ u.rdN (ckc 0x13 2) = 0xFF ∧ u.Answered 0)) ∧
  (∀ (t : Time) (s : State), s.bit (ckc 5) 0 = true → s.rdN (ckc 4) ≠ 3 → Completes (.pllUnlocked t) s (fun u =>
    u.rdN (ckc 4) = 1 + s.rdN (ckc 2) % 2 ∧ u.rdN (ckc 0xB) = (s.rdN (ckc 0xB) + 1) % 2 ^ 32 ∧ u.clock.lossAt = u.now - Time.ns 40 ∧
    u.clock.hopAt = some u.now ∧ u.rdN (ckc 5) = if s.rdN (ckc 0x13 (1 + s.rdN (ckc 2) % 2)) ≠ 0xFF then 4 else 2)) ∧
  (∀ (t : Time) (refclk : Bool) (s : State), s.bit (ckc 3) (b2n refclk) = true → Completes (.referenceLost t refclk) s (fun u =>
    u.bit (ckc 3) (b2n refclk) = false ∧ u.rdN (ckc 0xC) = (s.rdN (ckc 0xC) + 1) % 2 ^ 32 ∧ (refclk = true → u.bit (ckc 3) 2 = false) ∧
    (s.rdN (ckc 2) = b2n refclk → s.clocked = true → s.bit (ckc 3) (1 - b2n refclk) = true →
      u.rdN (ckc 2) = 1 - b2n refclk ∧ u.rdN (ckc 4) = 2 - b2n refclk))) ∧
  (∀ (t : Time) (s : State) (l : Time), s.clock.lockAt = some l → s.bit (ckc 5) 0 = true → s.rdN (ckc 4) = 1 ∨ s.rdN (ckc 4) = 2 →
    l + Time.us 10 ≤ max t s.now → (s.begin t).modTime % framePeriod < 32 → Completes (.returnToPll t) s (fun u => u.rdN (ckc 4) = 0 ∧ u.pwm.bypass = false)) ∧
  (∀ (t : Time) (s : State), s.rdN (ckc 4) ≠ 3 → Completes (.bothReferencesLost t) s (fun u => u.rdN (ckc 4) = 3 ∧ u.rdN (ckc 2) = 0xFF ∧
    u.rdN (ckc 5) = 8 ∧ u.rdN (ckc 0xF) = (s.rdN (ckc 0xF) + 1) % 2 ^ 32 ∧ u.clock.bothLost = some u.now)) ∧
  (∀ (t : Time) (s : State) (l : Time), s.clock.bothLost = some l → l + Time.ms 100 ≤ max t s.now → s.rdN (ckc 4) = 3 →
    Completes (.rideWindowEnd t) s (fun u => u.rdN (ckc 4) = 3 ∧
      ∀ b : Batch, s.bstate b ≠ .off → s.bstate b ≠ .fault → s.commands = true → u.bstate b = .blocked)) ∧
  (∀ (t : Time) (refclk : Bool) (s : State), Completes (.referenceReturn t refclk) s (fun u => u.bit (ckc 3) (b2n refclk) = true ∧
    (s.rdN (ckc 4) = 3 → u.rdN (ckc 2) = b2n refclk ∧ u.rdN (ckc 4) = 1 + b2n refclk ∧ u.clock.bothLost = none))) ∧
  (∀ (t : Time) (err : Int) (s : State), s.rdN (ckc 2) ≠ 0xFF → Completes (.housekeepingClockMeasurement t err) s (fun u =>
    u.rd (ckc 0x12) = sat16 err ∧ u.clock.hkAt = some u.now ∧ u.clock.hk = err))

/-- R265, R267 to R271: an offset of the active port steps module time once where no outputs are enabled, and steers the rate after that (the estimate
is the model's free value, notes/assumptions/35; that it is held in bypass and holdover is the model's choice, notes/assumptions/119, as are the accuracy
and variance it announces, notes/assumptions/36, and that a port follows a master from its first Announce on); Announce, peer-delay and Delay_Resp messages; what a port transmits; a lost master; Locked; a step that
the host authorises. -/
def Obligations.TimeAndPtpComplete : Prop :=
  (∀ (t : Time) (portB : Bool) (m : SyncMsg) (s : State), s.ptpSteers = true → s.rdN (ptk 6) = m.domain →
    s.rdN (ptk 0xF) = b2n portB → (s.ptpPort (b2n portB)).pathOk = true → s.rdB (ptk 1) = true →
    (∃ a, (s.ptpPort (b2n portB)).master = some a ∧ a.sender = m.sender) →
    Completes (.ptpSync t portB m) s (fun u => u.rdN (ptk 0x13) = (s.rdN (ptk 0x13) + 1) % 2 ^ 32 ∧
      u.rd (tmk 4) = clampI (5 * m.offset / 64) (-2 ^ 31) (2 ^ 31 - 1) ∧ u.clock.stepDone = true ∧
      (s.clock.stepDone = false → (∀ b ∈ allBatches, (s.batch b).outOn = false) → u.clock.offset = s.clock.offset - m.offset ∧ u.rdN (tmk 3) = 1) ∧
      (s.clock.stepDone = true → u.clock.offset = s.clock.offset ∧
        (s.rdN (ckc 4) = 0 → u.fresh = s.fresh + 1 ∧ u.rd (tmk 0x11) = clampI (Config.rateEstimate s.fresh).toInt (-250000) 250000 ∧
          u.rd (ckc 9) = s.servoRate m.offset (u.rd (tmk 0x11))) ∧
        (s.rdN (ckc 4) ≠ 0 → u.fresh = s.fresh ∧ u.rd (tmk 0x11) = s.rd (tmk 0x11) ∧ u.rd (ckc 9) = s.rd (ckc 9))))) ∧
  (∀ (t : Time) (portB : Bool) (m : AnnounceMsg) (s : State), s.ptpHears m.domain = true →
    ((∀ e ∈ (s.ptpPort (b2n portB)).foreign, e.2.2 + s.announceTimeout ≤ max t s.now) → 0 < s.announceTimeout →
      Completes (.ptpAnnounce t portB m) s (fun u => (u.ptpPort (b2n portB)).master = some m ∧ (u.ptpPort (b2n portB)).heard = u.now ∧
        (s.rdN (ptk 7) = 0 → s.rdN (ptk 0xF) = 0xFF → (s.ptpPort 0xFF).master = none →
          u.rdN (ptk 0xF) = b2n portB ∧ u.rdN (ptk 0x10) = m.grandmaster ∧ u.rdN (ptk (0xD + b2n portB)) = 9))) ∧
    (∀ (x : AnnounceMsg) (a : Time), (s.ptpPort (b2n portB)).foreign = [(x.sender, (x, a))] → max t s.now < a + s.announceTimeout → x.sender ≠ m.sender →
      announceKey x ≠ announceKey m → Completes (.ptpAnnounce t portB m) s (fun u =>
        (u.ptpPort (b2n portB)).master = some (if lexLt (announceKey m) (announceKey x) then m else x)))) ∧
  (∀ (t : Time) (portB : Bool) (d rx : Nat) (s : State), s.ptpHears d = true →
    (s.rdN (ptk 3) = 0 → Completes (.ptpPdelay t portB (.request d rx)) s (fun u =>
      u.out = [.msg "PTP_PDELAY_RESP" [b2n portB, d, ((s.begin t).modTime : Int) - rx] []])) ∧
    (s.rdN (ptk 3) = 0 → ∀ ns, Completes (.ptpPdelay t portB (.response d ns)) s (fun u =>
      u.rdN (ptk (0x11 + b2n portB)) = ns ∧ (u.ptpPort (b2n portB)).pathOk = true)) ∧
    (s.rdN (ptk 3) = 1 → s.rdN (ptk (0xD + b2n portB)) = 6 → Completes (.ptpPdelay t portB (.delayReq d rx)) s (fun u =>
      u.out = [.msg "PTP_DELAY_RESP" [b2n portB, d, rx] []]))) ∧
  (∀ (t : Time) (d x : Nat) (portB : Bool) (m : PdelayMsg) (s : State), m ∈ [.request d x, .response d x, .delayReq d x] →
    s.ptpHears d = false → Completes (.ptpPdelay t portB m) s (fun u => u = s.begin t)) ∧
  (∀ (t : Time) (m : DelayRespMsg) (s : State), s.ptpHears m.domain = true → s.rdN (ptk 3) = 1 → Completes (.delayResp t m) s (fun u =>
    (u.ptpPort (b2n m.portB)).pathOk = true ∧ (s.rdN (ptk 0xF) = b2n m.portB → u.rdN (tmk 0xC) = m.ns))) ∧
  (∀ (t : Time) (portB : Bool) (s : State), s.rdB (ptk 1) = true →
    (s.rdN (ptk (0xD + b2n portB)) = 6 →
      Completes (.ptpTransmit t portB .sync) s (fun u => u.out = [.msg "PTP_SYNC" [b2n portB, s.rd (ptk 6), (s.begin t).modTime] []]) ∧
      (s.rdN (ptk 2) ≠ 1 → Completes (.ptpTransmit t portB .announce) s (fun u =>
        u.out = [.msg "PTP_ANNOUNCE" [b2n portB, s.rd (ptk 6), s.rd (ptk 8), s.rd (ptk 0xA), 0xFE, 0xFFFF, s.rd (ptk 9)] []])) ∧
      (s.rdN (ptk 2) = 1 → Completes (.ptpTransmit t portB .announce) s (fun u => u.fresh = s.fresh + 1 ∧
        u.out = [.msg "PTP_ANNOUNCE" [b2n portB, s.rd (ptk 6), s.rd (ptk 8), s.rd (ptk 0xA), 0xFE, 0xFFFF, s.rd (ptk 9),
          ((Config.ptpTlvId s.fresh).toNat : Int), ((Config.ptpTlvInaccuracy s.fresh).toNat : Int)] []]))) ∧
    (s.rdN (ptk 3) = 0 → Completes (.ptpTransmit t portB .pdelayReq) s (fun u => u.out = [.msg "PTP_PDELAY_REQ" [b2n portB, s.rd (ptk 6)] []])) ∧
    (s.rdN (ptk 3) = 1 → s.rdN (ptk (0xD + b2n portB)) = 9 ∨ s.rdN (ptk (0xD + b2n portB)) = 0xA →
      Completes (.ptpTransmit t portB .delayReq) s (fun u => u.out = [.msg "PTP_DELAY_REQ" [b2n portB, s.rd (ptk 6)] []]))) ∧
  (∀ (t : Time) (portB : Bool) (s : State), (s.ptpPort (b2n portB)).master.isSome = true →
    (s.ptpPort (b2n portB)).heard + s.announceTimeout ≤ max t s.now →
    (∀ e ∈ (s.ptpPort (b2n portB)).foreign, e.2.2 + s.announceTimeout ≤ max t s.now) →
    Completes (.announceReceiptTimeout t portB) s (fun u => (u.ptpPort (b2n portB)).master = none ∧
      u.rdN (ptk 0x14) = (s.rdN (ptk 0x14) + 1) % 2 ^ 32 ∧
      (s.rdN (ptk 0xF) = b2n portB → s.masterOf (1 - b2n portB) = none → s.rdN (tmk 2) = 1 → u.rdN (ptk 0xF) = 0xFF ∧ u.rdN (tmk 3) = 3))) ∧
  (∀ (t : Time) (s : State) (a : Time), s.clock.belowSince = some a → a + Time.sec 10 ≤ max t s.now → s.rdN (tmk 3) = 1 →
    Completes (.qualityLocked t) s (fun u => u.rdN (tmk 3) = 2 ∧ u.bit (tmk 9) 0 = false)) ∧
  (∀ (t : Time) (q : Req) (s : State), s.Serves → s.Passes q 0x2300 7 0 1 →
    (∀ d, s.mod = .configuration → (∀ b ∈ allBatches, s.bstate b = .off) → s.rdN (tmk 2) = 1 → s.clock.lastOffset = some d →
      Completes (.authoriseStep t q) s (fun u => u.clock.offset = s.clock.offset - d ∧ u.rdN (tmk 6) = (s.rdN (tmk 6) + 1) % 256 ∧ u.Answered 0)) ∧
    (s.clock.lastOffset = none → Completes (.authoriseStep t q) s (fun u => u.clock = s.clock ∧ u.Answered 0x0B0000C2)))

/-- R273, R274: a firing of a time pulse output counts, holds its level for the width, and sets up the next one, ends a single shot or ends at its
limit; the end of the width; arming, where the settings and the first firing allow it, and disarming. -/
def Obligations.TimePulseOutputsComplete : Prop :=
  (∀ (t : Time) (k : TpoNo) (s : State), s.bit (tpk k 9) 0 = true → s.firing k (s.tpo k).next ≤ (s.begin t).modTime →
    Completes (.tpoFiring t k) s (fun u => (u.tpo k).next = (s.tpo k).next + 1 ∧ (u.tpo k).endsAt = some (((s.firing k (s.tpo k).next + s.rdN (tpk k 5) : Nat) : Int) - s.clock.offset).toNat ∧
      (s.tpoDriven = true → Output.msg "TPO" [k, b2n !(s.rdB (tpk k 6)), s.tpoEdge (s.firing k (s.tpo k).next)] [] ∈ u.out) ∧
      u.rdN (tpk k 0xA) = (s.rdN (tpk k 0xA) + 1) % 2 ^ 32 ∧
      (s.rdN (tpk k 1) ≠ 2 → u.bit (tpk k 9) 0 = false ∧ u.rd (tpk k 0xB) = 0) ∧
      (s.rdN (tpk k 1) = 2 → s.rdN (tpk k 7) = 0 ∨ (s.tpo k).next + 1 < s.rdN (tpk k 7) →
        u.bit (tpk k 9) 0 = true ∧ u.rdN (tpk k 0xB) = Time.toNs (s.firing k ((s.tpo k).next + 1))) ∧
      (s.rdN (tpk k 1) = 2 → s.rdN (tpk k 7) ≠ 0 → s.rdN (tpk k 7) ≤ (s.tpo k).next + 1 →
        u.bit (tpk k 9) 0 = false ∧ u.bit (tpk k 9) 1 = true))) ∧
  (∀ (t : Time) (k : TpoNo) (s : State) (e : Time), (s.tpo k).endsAt = some e → e ≤ max t s.now →
    Completes (.tpoWidthEnd t k) s (fun u => (u.tpo k).endsAt = none ∧
      (s.tpoDriven = true → u.out = [.msg "TPO" [k, b2n (s.rdB (tpk k 6)), s.tpoEdge ((e : Int) + s.clock.offset).toNat] []]))) ∧
  (∀ (t : Time) (q : Req) (k : TpoNo) (s : State), s.Serves → s.Passes q (0x2320 + k) 8 0 1 →
    (s.rdN (tpk k 1) ≠ 0 → 128000 ≤ s.rdN (tpk k 4) → 640 ≤ s.rdN (tpk k 5) → s.rdN (tpk k 5) < s.rdN (tpk k 4) →
      (s.begin t).modTime + Time.us 100 ≤ s.firing k 0 →
      Completes (.armTpo t q k) s (fun u => u.bit (tpk k 9) 0 = true ∧ u.bit (tpk k 9) 1 = false ∧ u.bit (tpk k 9) 2 = false ∧
        (u.tpo k).next = 0 ∧ u.rdN (tpk k 0xB) = Time.toNs (s.firing k 0) ∧ u.Answered 0)) ∧
    (s.firing k 0 < (s.begin t).modTime + Time.us 100 →
      Completes (.armTpo t q k) s (fun u => u.bit (tpk k 9) 0 = s.bit (tpk k 9) 0 ∧ u.Answered 0x0B0000C1))) ∧
  (∀ (t : Time) (q : Req) (k : TpoNo) (s : State), s.Serves → s.Passes q (0x2320 + k) 8 0 0 →
    Completes (.disarmTpo t q k) s (fun u => u.bit (tpk k 9) 0 = false ∧ u.rd (tpk k 0xB) = 0 ∧ u.Answered 0))

/-- R276, R279 to R282, R284 to R286: a digital input's level; arming and disarming from the host and the rack; the arm time; a record; a firing of another
module; a capture is released and exported. -/
def Obligations.AcquisitionCommandsComplete : Prop :=
  (∀ (t : Time) (i : Fin 4) (high : Bool) (s : State), s.inputLevel i ≠ high → Completes (.trigIn t i high) s (fun u =>
    u.inputLevel i = high ∧ Tbl.get 0 i.val u.acq.edges = (s.begin t).modTime - Time.ns 20)) ∧
  (∀ (t : Time) (q : Req) (s : State) (at_ : Time), s.Serves →
    at_ = (if s.rdN (aqk 2) = 0 then (s.begin t).modTime + Time.ms 1 else nsToFine (s.rdN (aqk 2))) →
    (s.Passes q 0x7000 1 0 1 → s.rackRole ≠ 2 → Completes (.armAcquisition t q) s (fun u => u.rack.armAt = some (true, at_) ∧
      (s.acqState ≠ 2 → u.acqState = 1) ∧ u.Answered 0)) ∧
    (s.Passes q 0x7000 1 0 0 → s.rackRole ≠ 2 → Completes (.disarmAcquisition t q) s (fun u => u.rack.armAt = some (false, at_) ∧
      u.acqState = s.acqState ∧ u.Answered 0)) ∧
    (s.Passes q 0x7000 1 0 1 → s.rackRole = 2 → Completes (.armAcquisition t q) s (fun u => u.rack = s.rack ∧ u.Answered 0x0B0000D0)) ∧
    (s.Passes q 0x7000 1 0 0 → s.rackRole = 2 → Completes (.disarmAcquisition t q) s (fun u => u.rack = s.rack ∧ u.Answered 0x0B0000D0))) ∧
  (∀ (t : Time) (arm : Bool) (inst : Time) (s : State), Completes (.rackArmMessage t arm inst) s (fun u => u.rack.armAt = some (arm, inst) ∧
    u.acqState = if arm && s.acqState != 2 then 1 else s.acqState)) ∧
  (∀ (t : Time) (s : State) (arm : Bool) (at_ : Time), s.rack.armAt = some (arm, at_) → at_ ≤ (s.begin t).modTime →
    Completes (.armTime t) s (fun u => u.rack.armAt = none ∧
      u.acqState = if !arm then 0 else if s.acqState = 2 then 2 else if s.armRefusal = 0 then 2 else 0)) ∧
  (∀ (t : Time) (s : State) (k : Nat), (∀ i ∈ List.range 8, s.unitsOn 5 i = []) → s.bufferIn 2 = none → s.acqState = 2 → s.bufferIn 1 = some k →
    (s.begin t).atRecord = true → Completes (.recordInstant t) s (fun u => (u.acqBuf k).recs = ((s.acqBuf k).recs ++ [(s.begin t).inputsDue.newRecord]).drop
      ((s.acqBuf k).recs.length + 1 - s.bufferRecords))) ∧
  (∀ (t : Time) (slot : RackSlot) (unit : Nat) (inst : Time) (s : State), s.acqState = 2 → s.bufferIn 2 = none →
    (∀ k, unit ≠ 0xFF → s.bufferIn 1 = some k → Completes (.rackFiring t slot unit inst) s (fun u => u.rdN (bfk k 1) = 2 ∧ (u.acqBuf k).trig = inst ∧
      (u.acqBuf k).slot = slot ∧ (u.acqBuf k).unit = unit ∧ (u.acqBuf k).last = inst + 32 * s.recordCounts * s.rdN (aqk 8))) ∧
    (unit = 0xFF → s.bufferIn 1 = none → Completes (.rackFiring t slot unit inst) s (fun u => u.acqState = 3))) ∧
  (∀ (t : Time) (q : Req) (k : BufferNo) (s : State), s.Serves → s.Passes q (0x70E0 + k) 0xA 0 1 →
    (s.rdN (bfk k 1) = 3 ∨ s.rdN (bfk k 1) = 5 → Completes (.releaseCapture t q k) s (fun u => (u.acqBuf k).recs = [] ∧ u.rdN (bfk k 1) ≤ 1 ∧
      u.blob (key (0x8600 + k) 1) = [] ∧ u.blob (key (0x8600 + k) 2) = [] ∧ u.Answered 0)) ∧
    (s.rdN (bfk k 1) = 4 → Completes (.releaseCapture t q k) s (fun u => u.acq = s.acq ∧ u.Answered 0x0B0000D1))) ∧
  (∀ (t : Time) (q : Req) (k : BufferNo) (s : State), s.Serves → s.Passes q (0x70E0 + k) 9 0 1 →
    (s.rdN (bfk k 1) = 3 ∨ s.rdN (bfk k 1) = 5 → Completes (.comtradeExportAssembly t q k) s (fun u => u.longOp = 5 ∧ u.srv.longInst = k ∧
      u.srv.longSid = q.sid ∧ u.rdN (bfk k 1) = 4 ∧ u.out = [])) ∧
    (s.rdN (bfk k 1) ≠ 3 → s.rdN (bfk k 1) ≠ 5 → Completes (.comtradeExportAssembly t q k) s (fun u => u.longOp = 0 ∧ u.Answered 0x08000022))) ∧
  (∀ (t : Time) (k : BufferNo) (s : State), s.longOp = 5 → s.srv.longInst = k → s.rdN (bfk k 1) = 4 → Completes (.exportComplete t k) s (fun u => u.longOp = 0 ∧
    u.rdN (bfk k 1) = 5 ∧ u.blob (key (0x8600 + k) 1) = s.comtradeCfg k ∧ u.blob (key (0x8600 + k) 2) = s.comtradeDat k ∧
    (s.srv.longSid = 0 → s.srv.longQuiet = false → s.rack.forwards = [] → u.Answered 0)))

/-- R287, R290 to R292: the front event becomes the next record; a snapshot is read; a freeze from the service port stages the queue and ends after 60 s;
an archive and clear starts where every record has been archived, and leaves one record of code 0x0001 with the counts at 0. -/
def Obligations.LogCommandsComplete : Prop :=
  (∀ (t : Time) (s : State) (e : Event) (r : List Event), s.log.frozenSince = none → s.log.clearing = false → s.log.staging = [] →
    s.log.queue = e :: r → s.log.records.length < 262144 → Completes (.recordCommit t) s (fun u => u.log.queue = r ∧
      u.log.records = s.log.records ++ [⟨s.log.nextSeq, e, (s.codeRec e.code).pendingSupp, s.rdN (key 0x2000 7)⟩] ∧
      u.log.nextSeq = (s.log.nextSeq + 1) % 2 ^ 32 ∧ u.rdN (lgk 1) = s.log.records.length + 1 ∧ u.rdN (lgk 4) = s.log.nextSeq ∧
      (u.codeRec e.code).pendingSupp = 0)) ∧
  (∀ (t : Time) (q : Req) (s : State), s.Serves → Completes (.logSnapshot t q) s (fun u => u.out = [.reply 0 0 s.snapshotBytes] ∧ u.log = s.log)) ∧
  (∀ (t : Time) (q : Req) (s : State), s.Serves → s.Passes q 0x7100 0xA 0 1 →
    (q.servicePort = true → s.log.frozenSince = none → s.log.clearing = false → Completes (.logFreeze t q) s (fun u =>
      u.log.frozenSince = some u.now ∧ u.log.queue = [] ∧ u.log.staging = (s.log.staging ++ s.log.queue).take 4096 ∧ u.bit (lgk 5) 1 = true ∧
      u.Answered 0)) ∧
    (q.servicePort = false → Completes (.logFreeze t q) s (fun u => u.log = s.log ∧ u.Answered 0x0B0000E0))) ∧
  (∀ (t : Time) (s : State) (f : Time), s.log.frozenSince = some f → f + Time.sec 60 ≤ max t s.now →
    Completes (.logFreezeEnd t) s (fun u => u.log.frozenSince = none ∧ u.bit (lgk 5) 1 = false ∧ u.log.records = s.log.records)) ∧
  (∀ (t : Time) (q : Req) (seq : Nat) (s : State), s.Serves → s.Passes q 0x7100 8 0 seq →
    (s.log.frozenSince = none → seq = 0xFFFFFFFF ∨ s.log.records = [] ∨ s.rdN (lgk 4) ≤ seq → Completes (.archiveAndClear t q seq) s (fun u =>
      u.longOp = 4 ∧ u.log.clearing = true ∧ u.log.records = s.log.records ∧ u.srv.longSid = q.sid ∧ u.out = [])) ∧
    (s.log.frozenSince ≠ none → Completes (.archiveAndClear t q seq) s (fun u => u.log = s.log ∧ u.longOp = 0 ∧ u.Answered 0x0B0000E1)) ∧
    (s.log.frozenSince = none → seq ≠ 0xFFFFFFFF → s.log.records ≠ [] → seq < s.rdN (lgk 4) →
      Completes (.archiveAndClear t q seq) s (fun u => u.log = s.log ∧ u.Answered 0x0B0000E2))) ∧
  (∀ (t : Time) (s : State), s.longOp = 4 → Completes (.archiveAndClearComplete t) s (fun u => u.longOp = 0 ∧ u.log.clearing = false ∧
    u.log.records.map (fun r => (r.seq, r.ev.code)) = [(s.log.nextSeq, 1)] ∧ u.rd (lgk 6) = 0 ∧ u.rd (lgk 7) = 0 ∧ u.rdN (lgk 1) = 1))

/-- R298, R300, R301: time in the rack (the hops' delays, Time Sync at the master and at a member); a rack-wide change at the master, from the execute
command over the answers, the decision and the reports to the stragglers, and at a member, with PREPARE, COMMIT and ABORT. -/
def Obligations.RackChangesComplete : Prop :=
  (∀ (t : Time) (departed others : Nat) (s : State), Completes (.timeSync t departed others) s (fun u =>
    u.rd (rkk 9) = clampI (5 * (((s.begin t).modTime : Int) - (64 * (1000 * departed + others + s.rdN (rkk 7)) / 5000 : Nat)) / 64) (-2 ^ 31) (2 ^ 31 - 1) ∧
    (s.rackRole = 2 → s.rdN (tmk 2) = 2 → u.rdN (tmk 3) = 4))) ∧
  (∀ (t : Time) (s : State), s.rackRole = 1 → Completes (.timeSyncSend t) s (fun u => u.out =
    [.msg "TIME_SYNC" [255, s.rack.seq, (s.begin t).tai] ((s.begin t).rackBytes "TIME_SYNC" 255 [(s.begin t).tai])])) ∧
  (∀ (t : Time) (up : Nat) (down : Option Nat) (s : State), Completes (.hopDelayMeasurement t ⟨up, down⟩) s (fun u =>
    u.rdN (rkk 7) = up ∧ u.bit (rkk 6) 0 = true ∧ (∀ x, down = some x → u.rdN (rkk 8) = x ∧ u.bit (rkk 6) 1 = true) ∧
    (down = none → u.rd (rkk 8) = s.rd (rkk 8)))) ∧
  (∀ (t : Time) (q : Req) (s : State), s.Serves → s.Passes q 0x2501 5 0 1 →
    (s.rackRole = 1 → s.rack.txn = none → s.rdN (cmk 2) = 0 ∨ (s.begin t).modTime + Time.ms 1 ≤ nsToFine (s.rdN (cmk 2)) →
      Completes (.rackExecute t q) s (fun u => u.rdN (cmk 7) = 1 ∧ u.rdN (cmk 6) = (s.rdN (cmk 6) + 1) % 2 ^ 32 ∧ u.Answered 0 ∧
        ∃ x, u.rack.txn = some x ∧ x.id = (s.rdN (cmk 6) + 1) % 2 ^ 32 ∧ x.op = s.rdN (cmk 1) ∧ x.stage = 0 ∧ x.decided = false ∧
          x.due = (if s.rdN (cmk 2) = 0 then (s.begin t).modTime + Time.ms 1 else nsToFine (s.rdN (cmk 2))) ∧
          ∀ i, i ∈ x.named ↔ i < 8 ∧ s.rdN (cmk 3 (1 + i)) ≠ 0)) ∧
    (s.rackRole ≠ 1 → Completes (.rackExecute t q) s (fun u => u.rack = s.rack ∧ u.Answered 0x0B0000F0)) ∧
    (s.rackRole = 1 → s.rack.txn ≠ none → Completes (.rackExecute t q) s (fun u => u.rack = s.rack ∧ u.Answered 0x0B0000F6))) ∧
  (∀ (t : Time) (m : PrepareMsg) (s : State),
    ((s.begin t).refuseCause m = 0 → Completes (.rackPrepare t m) s (fun u => u.rack.prep = some { msg := m } ∧
      u.out = [.msg "READY" [s.rdN (rkk 2), s.rack.seq, m.txn, 0] ((s.begin t).rackBytes "READY" (s.rdN (rkk 2)) [m.txn, 0])])) ∧
    ((s.begin t).refuseCause m ≠ 0 → Completes (.rackPrepare t m) s (fun u => u.rack.prep = s.rack.prep ∧
      u.out = [.msg "REFUSE" [s.rdN (rkk 2), s.rack.seq, m.txn, (s.begin t).refuseCause m]
        ((s.begin t).rackBytes "REFUSE" (s.rdN (rkk 2)) [m.txn, (s.begin t).refuseCause m])]))) ∧
  (∀ (t : Time) (slot : RackSlot) (x : Txn) (cause : Nat) (s : State), s.rack.txn = some x → x.decided = false → slot.val ∈ x.named →
    ((s.begin t).modTime + Time.us 400 ≤ x.due →
      Completes (.rackReady t slot x.id) s (fun u => u.rack.txn = some { x with ready := slot.val :: x.ready.filter (· ≠ slot.val) }) ∧
      Completes (.rackRefuse t slot x.id cause) s (fun u => u.rack.txn = some { x with refused := slot.val :: x.refused.filter (· ≠ slot.val) })) ∧
    (x.due < (s.begin t).modTime + Time.us 400 → Completes (.rackReady t slot x.id) s (fun u => u.rack.txn = some x) ∧
      Completes (.rackRefuse t slot x.id cause) s (fun u => u.rack.txn = some x))) ∧
  (∀ (t : Time) (x : Txn) (s : State), s.rack.txn = some x → x.decided = false → x.due ≤ (s.begin t).modTime + Time.us 400 →
    ((∀ i ∈ x.named, i ∈ x.ready) → (s.begin t).modTime + Time.us 200 ≤ x.due → Completes (.commitDecision t) s (fun u =>
      u.rack.txn = some { x with decided := true, stage := if x.stage = 0 then 1 else x.stage } ∧
      ∀ i ∈ x.named, i ≠ s.rdN (rkk 1) → ∃ n : Nat, ∃ bytes, Output.msg "COMMIT" [i, n, x.id] bytes ∈ u.out)) ∧
    ((∃ i ∈ x.named, i ∉ x.ready) → x.stage = 0 → Completes (.commitDecision t) s (fun u => u.rack.txn = none ∧ u.rdN (cmk 7) = 3 ∧
      u.rdN (cmk 0xA 2) = (s.rdN (cmk 0xA 2) + 1) % 2 ^ 32))) ∧
  (∀ (t : Time) (p : Prep) (s : State), s.rack.prep = some p →
    ((s.begin t).modTime + Time.us 200 ≤ p.msg.at_ → s.bit (rkk 6) 2 = false →
      Completes (.rackCommit t p.msg.txn) s (fun u => u.rack.prep = some { p with commit := true })) ∧
    (p.msg.at_ < (s.begin t).modTime + Time.us 200 ∨ s.bit (rkk 6) 2 = true → Completes (.rackCommit t p.msg.txn) s (fun u => u.rack.prep = some p)) ∧
    Completes (.rackAbort t p.msg.txn) s (fun u => u.rack.prep = none)) ∧
  (∀ (t : Time) (slot : RackSlot) (x y : Txn) (applied : Nat) (s : State), s.rack.txn = some x → slot.val ∈ x.named →
    y = { x with reported := slot.val :: x.reported.filter (· ≠ slot.val), applied := Tbl.set slot.val (Tbl.get 0 slot.val x.applied ||| applied) x.applied } →
    (y.stragglers ≠ [] → Completes (.rackReport t slot x.id applied) s (fun u => u.rack.txn = some y)) ∧
    (y.stragglers = [] → Completes (.rackReport t slot x.id applied) s (fun u => u.rack.txn = none ∧
      u.rdN (cmk 7) = if x.stage = 2 then 4 else if x.stage = 3 then 5 else 2))) ∧
  (∀ (t : Time) (x : Txn) (s : State), s.rack.txn = some x → x.decided = true → x.due + Time.ms 1 ≤ (s.begin t).modTime → x.stragglers ≠ [] →
    (x.stage = 1 → Completes (.stragglerDeadline t) s (fun u => ∃ y, u.rack.txn = some y ∧ y.stage = 2 ∧ y.named = x.stragglers ∧
      y.due = x.due + Time.ms 2 ∧ y.decided = false ∧ y.id = x.id)) ∧
    (x.stage = 3 → Completes (.stragglerDeadline t) s (fun u => u.rack.txn = none ∧ u.rdN (cmk 7) = 6)))

/-- R296, R299, R308 to R317: a heartbeat heard, sent and missed, with the arbiter's fail-over at the third miss; Grant, Revoke and the handover; loss of
the master and of the arbiter; a module alone on the rack; the bridges. -/
def Obligations.AuthorityCommandsComplete : Prop :=
  (∀ (t : Time) (slot : RackSlot) (m : HeartbeatMsg) (s : State), s.power.removal = none →
    (m.crcGood = true → (s.beat slot = none ∨ (s.begin t).modTime % Time.us 50 ≤ Time.us 10) → Completes (.heartbeat t slot m) s (fun u =>
      u.beat slot = some { msg := m, at_ := u.now } ∧ u.bit (rkk 5) slot = true ∧ u.rack.heard = some u.now)) ∧
    (m.crcGood = true → ∀ h, s.beat slot = some h → Time.us 10 < (s.begin t).modTime % Time.us 50 → Completes (.heartbeat t slot m) s (fun u =>
      u.beat slot = some { h with msg := m } ∧ u.bit (rkk 5) slot = true ∧ u.rack.heard = some u.now)) ∧
    (m.crcGood = false → Completes (.heartbeat t slot m) s (fun u => u.rack.beats = s.rack.beats ∧ u.rack.heard = s.rack.heard ∧
      u.rdN (rkk 0xA) = (s.rdN (rkk 0xA) + 1) % 2 ^ 32))) ∧
  (∀ (t : Time) (s : State), s.twinRole ≠ 0 ∨ s.arbitrates = true → (s.begin t).modTime % Time.us 50 < 32 → Completes (.heartbeatSend t) s (fun u =>
    u.rack.seq = (s.rack.seq + 1) % 2 ^ 32 ∧ ∃ bytes, Output.msg "HEARTBEAT" [255, s.rack.seq, if s.twinRole ≠ 0 then s.rd (twk 5) else 255,
      if s.twinRole ≠ 0 then s.authority else 3, u.rd (twk 9), s.rd (twk 8), s.topEpoch, s.circuitBits] bytes ∈ u.out)) ∧
  (∀ (t : Time) (slot : RackSlot) (s : State) (h : Beat), s.beat slot = some h →
    (((h.at_ : Int) + s.clock.offset).toNat / Time.us 50 + h.missRun + 1) * Time.us 50 + Time.us 10 ≤ (s.begin t).modTime →
    Completes (.heartbeatMissed t slot) s (fun u => u.beat slot = some { h with missRun := h.missRun + 1 } ∧
      (s.arbitratesPair h.msg.pair = true → s.pairSlot h.msg.pair 0 = slot ∨ s.pairSlot h.msg.pair 1 = slot → s.otherSlot h.msg.pair slot ≠ slot →
        s.rdN (abk h.msg.pair 3) = slot → h.missRun = 2 → ∀ g, s.beat (s.otherSlot h.msg.pair slot) = some g → beatEligible g = true →
        u.rdN (abk h.msg.pair 3) = s.otherSlot h.msg.pair slot ∧ u.rdN (abk h.msg.pair 2) = s.newEpoch h.msg.pair))) ∧
  (∀ (t : Time) (e first : Nat) (s : State), s.twinRole ≠ 0 → s.rdN (twk 8) < e →
    (s.bit (rkk 6) 3 = false → Completes (.epochGrant t e first) s (fun u =>
      u.rack.grant = some (e, if first = 0 then (s.begin t).tai + 3000 else first))) ∧
    (s.bit (rkk 6) 3 = true → Completes (.epochGrant t e first) s (fun u => u.rack.grant = s.rack.grant ∧ u.authority = s.authority))) ∧
  (∀ (t : Time) (e last : Nat) (s : State), s.twinRole ≠ 0 → s.authority = 1 → s.rdN (twk 8) = e →
    (last = 0 → Completes (.epochRevoke t e last) s (fun u => u.authority = 2)) ∧
    (last ≠ 0 → Completes (.epochRevoke t e last) s (fun u => u.authority = 1 ∧ u.rack.revoke = some (e, last)))) ∧
  (∀ (t : Time) (slot : RackSlot) (p : Fin 4) (cause : Nat) (s : State) (g : Beat), s.arbitratesPair p = true → s.rdN (abk p 3) = slot →
    s.beat (s.otherSlot p slot) = some g → beatEligible g = true → Completes (.handoverRequest t slot p cause) s (fun u =>
      u.rdN (abk p 3) = s.otherSlot p slot ∧ u.rdN (abk p 2) = s.newEpoch p)) ∧
  (∀ (t : Time) (s : State), s.rackRole = 2 → s.rack.masterAt.getD s.power.startedAt + Time.ms 1 ≤ max t s.now → s.bit (rkk 6) 2 = false →
    Completes (.masterLost t) s (fun u => u.bit (rkk 6) 2 = true ∧ u.rdN (rkk 0xB) = (s.rdN (rkk 0xB) + 1) % 2 ^ 32 ∧ u.rdN (tmk 3) = 3)) ∧
  (∀ (t : Time) (s : State), s.twinRole ≠ 0 → s.bit (rkk 6) 3 = false → s.rack.arbiterAt.getD s.power.startedAt + Time.ms 1 ≤ max t s.now →
    Completes (.arbiterLost t) s (fun u => u.bit (rkk 6) 3 = true)) ∧
  (∀ (t : Time) (s : State),
    (s.rack.heard = none → s.power.startedAt + Time.ms 10 ≤ max t s.now → Completes (.standalone t) s (fun u => u.rackRole = 0)) ∧
    (max t s.now < s.power.startedAt + Time.ms 10 → Completes (.standalone t) s (fun u => u.rackRole = s.rackRole))) ∧
  (∀ (t : Time) (q : Req) (s : State), s.serverUp = true → s.longOp = 0 → s.Passes q 0x2510 0xF 0 1 → s.twinRole ≠ 0 → s.authority = 1 →
    (s.partnerEligible = true → Completes (.plannedHandover t q) s (fun u => u.rack.planned = 1 ∧ u.Answered 0 ∧
      ∃ bytes, Output.msg "HANDOVER" [s.arbiterSlot, s.rack.seq, s.rd (twk 5), 1] bytes ∈ u.out)) ∧
    (s.partnerEligible = false → Completes (.plannedHandover t q) s (fun u => u.rack = s.rack ∧ u.Answered 0x0B0000F4))) ∧
  (∀ (t : Time) (q : Req) (s : State), s.serverUp = true → s.longOp = 0 → s.Passes q 0x2510 0x16 0 1 →
    (s.rdB (twk 0x14) = true → s.rdN (twk 6) = 4 → Completes (.closeBridges t q) s (fun u => u.rack.bridgeWanted = 3 ∧ u.Answered 0)) ∧
    (s.rdN (twk 6) ≠ 4 → Completes (.closeBridges t q) s (fun u => u.rack = s.rack ∧ u.Answered 0x08000022))) ∧
  (∀ (t : Time) (k : Fin 2) (s : State) (t0 : Time), Tbl.find? k.val s.rack.bridgeShown = some t0 → t0 + Time.sec 1 ≤ max t s.now →
    s.circState (k + 2) ≠ 0 → s.circState (k + 2) ≠ 4 → Completes (.bridgeOpen t k) s (fun u => u.circState (k + 2) = 0 ∧
      (u.circ (k + 2)).hs = false ∧ (u.circ (k + 2)).ls = false ∧
      u.rack.bridgeWanted.testBit k = false ∧ u.rack.bridgeWanted.testBit (1 - k) = s.rack.bridgeWanted.testBit (1 - k)))

/-- R303, R304, R306, R318: the twin link trains and the pair compares digests; it goes down; a state copy is held for the next t0. -/
def Obligations.TwinLinkCommandsComplete : Prop :=
  (∀ (t : Time) (d : Nat) (s : State), s.twinRole ≠ 0 → Completes (.twinLinkTrained t d) s (fun u => u.rdN (twk 0xB) = 2 ∧ u.rack.digest = some d ∧
    ((∀ h, s.twinPartner = some h → h.missRun < 3 ∧ h.msg.health.testBit 0 = true) → d ≠ s.ownDigest → u.rdN (twk 6) = 5))) ∧
  (∀ (t : Time) (s : State), s.twinRole ≠ 0 → s.rdN (twk 0xB) = 2 → Completes (.twinLinkDown t) s (fun u => u.rdN (twk 0xB) = 1 ∧
    u.rack.copies = [] ∧ u.rack.onTime = [])) ∧
  (∀ (t : Time) (m : StateCopy) (s : State), s.twinRole ≠ 0 → s.rdN (twk 0xB) = 2 →
    (s.authority = 2 ∧ ∀ d, s.rack.turnAt = some d → d ≤ m.t0) ∨ (s.authority = 1 ∧ ∃ d, s.rack.turnAt = some d ∧ m.t0 < d) →
    Completes (.stateCopyReceived t m) s (fun u => Tbl.find? m.batch u.rack.copies = some m))

/-- R320, R333 to R336: a supply loss starts the hold-up service and ends in SafeHold (in an active twin once the handover it asks for has had its time; in
Init, Proof and FaultWait the service goes to its last step), phase 2 turns PD1 to PD4 off, parking the rest; supply that is
back; an empty store; power on and RESET_N restart in Init with their reset kind, one more reset counted. -/
def Obligations.SupplyAndResetComplete : Prop :=
  (∀ (t : Time) (mv : Nat) (s : State), s.power.supply = true → s.power.dark = false → mv < 16500 → Completes (.supplyLoss t mv) s (fun u =>
    u.power.supply = false ∧ u.power.proofPassed = false ∧ u.rdN (vnk 1) = mv ∧ u.rdN (vnk 4) = (s.rdN (vnk 4) + 1) % 2 ^ 32 ∧
    (s.twinRole = 0 → s.power.holdUp = none → s.mod = .configuration ∨ s.mod = .armed ∨ s.mod = .running →
      u.mod = .safeHold ∧ u.power.phase = 1 ∧ u.power.holdUp = some u.now ∧ u.power.mark = true ∧ u.power.lossHold = true) ∧
    (s.twinRole ≠ 0 → s.authority ≠ 1 → s.power.holdUp = none → s.mod = .armed ∨ s.mod = .standby →
      u.mod = .safeHold ∧ u.power.phase = 1 ∧ u.power.holdUp = some u.now) ∧
    (s.twinRole ≠ 0 → s.authority = 1 → s.power.holdUp = none → s.mod = .running →
      u.mod = .running ∧ u.power.phase = 1 ∧ u.power.holdUp = some u.now ∧ u.power.mark = true ∧ u.rack.planned = 2 ∧
      ∃ bytes, Output.msg "HANDOVER" [s.arbiterSlot, s.rack.seq, s.rd (twk 5), 2] bytes ∈ u.out) ∧
    (s.power.holdUp = none → s.mod = .init ∨ s.mod = .proof ∨ s.mod = .faultWait →
      u.mod = s.mod ∧ u.power.phase = 2 ∧ u.power.holdUp = some u.now ∧ u.power.mark = true))) ∧
  (∀ (t : Time) (s : State), Completes (.vinDip t) s (fun u => u.rdN (vnk 3) = (s.rdN (vnk 3) + 1) % 2 ^ 32)) ∧
  (∀ (t : Time) (s : State), s.power.phase = 1 → s.power.holdUp.getD 0 + Time.ms 20 ≤ max t s.now → Completes (.holdUpPhase2 t) s (fun u =>
    u.power.phase = 2 ∧ u.mod = (if s.mod.code ∈ [3, 4, 5, 6] then .safeHold else s.mod) ∧ ∀ d ∈ [1, 2, 3, 4], u.dom d = 0)) ∧
  (∀ (t : Time) (s : State), s.power.phase = 2 → s.power.supply = false → Completes (.powerPark t) s (fun u =>
    u.power.phase = 3 ∧ ∀ d ∈ [1, 2, 3, 4, 5, 6], u.dom d = 0)) ∧
  (∀ (t : Time) (mv : Nat) (s : State), s.power.supply = false → s.power.dark = false → 17000 ≤ mv → Completes (.supplyPresent t mv) s (fun u =>
    u.power.supply = true ∧ u.rdN (vnk 1) = mv ∧
    (s.power.phase = 3 → u.mod = .init ∧ u.rdN (mdk 6) = 3 ∧ u.rdN (mdk 7) = (s.rdN (mdk 7) + 1) % 2 ^ 32))) ∧
  (∀ (t : Time) (s : State), s.power.supply = false → s.power.dark = false → Completes (.storeExhausted t) s (fun u =>
    u.power.dark = true ∧ u.power.mark = s.power.mark ∧ u.log.records = s.log.records ∧ u.rd (mdk 7) = s.rd (mdk 7))) ∧
  (∀ (t : Time) (mv : Nat) (s : State), s.power.dark = true → Completes (.powerOn t mv) s (fun u =>
    u.power.dark = false ∧ u.power.supply = true ∧ u.power.mark = false ∧ u.rdN (vnk 1) = mv ∧ u.mod = .init ∧
    u.rdN (mdk 6) = (if s.power.mark then 3 else 1) ∧ u.rdN (mdk 7) = (s.rdN (mdk 7) + 1) % 2 ^ 32)) ∧
  (∀ (t : Time) (s : State), s.power.dark = false → Completes (.resetN t) s (fun u =>
    u.mod = .init ∧ u.rdN (mdk 6) = 2 ∧ u.rdN (mdk 7) = (s.rdN (mdk 7) + 1) % 2 ^ 32 ∧ u.log.records = s.log.records ∧
    u.power.stored = s.power.stored ∧ u.power.repair = s.power.repair ∧ u.batches = [] ∧ u.srv.sessions = []))

/-- R323 to R327, R399: the store reaches its charging voltage, or does not within 30 s; its temperature; a proof check ends with the figures of R324 and
R325, out of range where V_a does not exceed V_b; the periodic check and the repeat.
The rounding of the figures is DEDUCED (notes/assumptions/88); a check that waits and the readings of the store between events are the model's choices
(notes/assumptions/55, 122). -/
def Obligations.StoreAndProofCheckComplete : Prop :=
  (∀ (t : Time) (s : State), Completes (.storeCharged t) s (fun u => u.rd (stk 1) = s.rd (stk 2) ∧ u.bit (stk 0xF) 0 = false ∧ u.power.charged = true ∧
    (s.mod = .proof → s.power.proofPassed = false → s.power.check = none → u.power.check = some ⟨0, u.now⟩))) ∧
  (∀ (t : Time) (s : State), s.mod = .proof → s.power.charged = false → s.power.proofAt + Time.sec 30 ≤ max t s.now →
    Completes (.chargeTimeout t) s (fun u => u.mod = .faultWait ∧ u.rdN (mdk 0xA) = 6 ∧ u.rdN (mdk 8) = min 255 (s.rdN (mdk 8) + 1))) ∧
  (∀ (t : Time) (temp : Int) (s : State), Completes (.storeTemperatureThreshold t temp) s (fun u => u.rd (stk 3) = temp ∧
    u.rd (stk 2) = if 600 ≤ temp then 5000 else if temp < 550 then 5400 else s.rd (stk 2))) ∧
  (∀ (t : Time) (temp : Int) (s : State),
    (880 ≤ temp → s.power.storeHot = false → Completes (.storeHot t temp) s (fun u => u.power.storeHot = true ∧ u.bit (stk 0xF) 0 = false ∧
      u.rd (stk 3) = temp ∧ u.rd (stk 2) = 5000 ∧ u.bit (vnk 9) 2 = true ∧ u.rdN (vnk 0xA) = (s.rdN (vnk 0xA) + 1) % 2 ^ 32)) ∧
    (temp < 830 → s.power.storeHot = true → Completes (.storeHot t temp) s (fun u => u.power.storeHot = false ∧ u.bit (vnk 9) 2 = false))) ∧
  (∀ (t : Time) (v0 va vb : Nat) (s : State) (r : ProofRun), s.power.check = some r → r.start + Time.ms 50 ≤ max t s.now →
    (r.kind ≠ 0 → Completes (.proofCheckEnd t v0 va vb) s (fun u => u.power.check = none ∧ u.power.lastCheck = u.now ∧
      u.rdN (stk 0xD) = (s.rdN (stk 0xD) + 1) % 2 ^ 32 ∧ (va ≤ vb → u.rdN (stk 7) = 3 ∧ u.rdN (stk 6) = 0) ∧
      ∀ c esr : Rat, proofFigures v0 va vb = some (c, esr) → 1 / 2 ≤ c → c ≤ 4 → 1 / 1000 ≤ esr → esr ≤ 1 / 2 →
        u.rdN (stk 4) = (roundRat (1000 * c)).toNat % 2 ^ 32 ∧ u.rdN (stk 5) = (roundRat (1000000 * esr)).toNat % 2 ^ 32 ∧
        u.rdN (stk 6) = usableEnergy (roundRat (1000 * c)).toNat (roundRat (1000000 * esr)).toNat (s.rdN (stk 2)))) ∧
    (r.kind = 0 → s.mod = .proof → va ≤ vb → Completes (.proofCheckEnd t v0 va vb) s (fun u => u.mod = .faultWait ∧ u.rdN (mdk 0xA) = 4)) ∧
    (r.kind = 0 → ∀ c esr : Rat, proofFigures v0 va vb = some (c, esr) → 1 / 2 ≤ c → c ≤ 4 → 1 / 1000 ≤ esr → esr ≤ 1 / 2 →
      fval (s.rdF (stk 0xA)) * 1000 ≤ (usableEnergy (roundRat (1000 * c)).toNat (roundRat (1000000 * esr)).toNat (s.rdN (stk 2)) : Nat) →
      Completes (.proofCheckEnd t v0 va vb) s (fun u => u.power.proofPassed = true))) ∧
  (∀ (t : Time) (s : State), s.power.lastCheck + 3600 * Time.sec (s.rdN (stk 0xC)) ≤ max t s.now → s.mod.code ∈ [3, 4, 5, 6] →
    s.power.check = none → s.longOp = 0 → s.log.frozenSince = none → s.power.supply = true →
    (s.rdN (stk 2) ≤ s.rdN (stk 1) →
      Completes (.proofInterval t) s (fun u => u.power.check = some ⟨1, (s.begin t).checkFrom⟩ ∧ u.bit (stk 0xF) 0 = false)) ∧
    (s.rdN (stk 1) < s.rdN (stk 2) → Completes (.proofInterval t) s (fun u => u.power.check = none ∧ u.power.wanted = some 1))) ∧
  (∀ (t : Time) (s : State) (a : Time), s.power.repeatAt = some a → a ≤ max t s.now → s.power.check = none → s.mod.code ∈ [3, 4, 5, 6] → s.rdN (stk 2) ≤ s.rdN (stk 1) →
    Completes (.proofRepeat t) s (fun u => u.power.check = some ⟨3, u.now⟩ ∧ u.power.repeatAt = none))

/-- R324, R328 to R331, R343, R384: the nine commands of the module object, twin or not: each acts in its states and answers 0, or answers 0x0B000011, 0x0B000012 (an arm
check failed) or 0x0B000013; the end of the configuration store and of the self-test. -/
def Obligations.ModuleCommandsComplete : Prop :=
  (∀ (t : Time) (q : Req) (s : State), s.Up →
    (s.Passes q 0x2000 3 0 1 → s.mod = .armed ∨ ((s.mod = .running ∨ s.mod = .standby) ∧ s.allOff = true) →
      Completes (.moduleConfigure t q) s (fun u => u.mod = .configuration ∧ u.rd (mdk 4) = 0 ∧ u.Answered 0)) ∧
    (s.Passes q 0x2000 3 0 1 → s.configureOk = false → Completes (.moduleConfigure t q) s (fun u => u.mod = s.mod ∧ u.rdN (mdk 4) = 0x0B000011 ∧
      u.Answered 0x0B000011)) ∧
    (s.Passes q 0x2000 3 0 3 → s.mod = .armed → Completes (.moduleRun t q) s (fun u => u.Answered 0 ∧
      u.mod = if s.twinRole = 0 ∨ s.authority = 1 then .running else .standby)) ∧
    (s.Passes q 0x2000 3 0 3 → s.mod ≠ .armed → Completes (.moduleRun t q) s (fun u => u.mod = s.mod ∧ u.Answered 0x0B000011)) ∧
    (s.Passes q 0x2000 3 0 4 → s.mod = .armed ∨ s.mod = .running ∨ s.mod = .standby →
      Completes (.moduleSafeHold t q) s (fun u => u.mod = .safeHold ∧ u.Answered 0)) ∧
    (s.Passes q 0x2000 3 0 4 → s.mod ≠ .armed → s.mod ≠ .running → s.mod ≠ .standby →
      Completes (.moduleSafeHold t q) s (fun u => u.mod = s.mod ∧ u.rdN (mdk 4) = 0x0B000011 ∧ u.Answered 0x0B000011)) ∧
    (s.Passes q 0x2000 3 0 5 → s.mod = .safeHold → s.power.supply = true → s.power.lossHold = false →
      Completes (.restartFromSafehold t q) s (fun u => u.mod = .proof ∧ u.power.proofPassed = false ∧ u.power.proofAt = u.now ∧ u.Answered 0)) ∧
    (s.Passes q 0x2000 3 0 5 → s.mod ≠ .safeHold ∨ s.power.supply = false ∨ s.power.lossHold = true → Completes (.restartFromSafehold t q) s (fun u => u.mod = s.mod ∧ u.Answered 0x0B000011)) ∧
    (s.Passes q 0x2000 3 0 6 → s.mod.code ∈ [3, 4, 5, 6] → Completes (.configurationStore t q) s (fun u => u.longOp = 1 ∧
      u.srv.storing = some s.storeImage ∧ u.srv.longSid = q.sid ∧ u.out = [])) ∧
    (s.Passes q 0x2000 3 0 7 → s.mod = .configuration → s.allOff = true → Completes (.onDemandSelfTest t q) s (fun u => u.longOp = 3 ∧ u.out = [])) ∧
    (s.Passes q 0x2000 3 0 6 → s.mod.code ∉ [3, 4, 5, 6] → Completes (.configurationStore t q) s (fun u => u.longOp = 0 ∧ u.srv.storing = s.srv.storing ∧
      u.Answered 0x0B000011)) ∧
    (s.Passes q 0x2000 3 0 7 → s.mod ≠ .configuration ∨ s.allOff = false → Completes (.onDemandSelfTest t q) s (fun u => u.longOp = 0 ∧ u.Answered 0x0B000013)) ∧
    (s.Passes q 0x2000 3 0 8 → s.mod = .faultWait → s.power.failStage ≠ .init →
      Completes (.retryNow t q) s (fun u => u.mod = .proof ∧ u.power.charged = false ∧ u.Answered 0)) ∧
    (s.Passes q 0x2000 3 0 8 → s.mod ≠ .faultWait → Completes (.retryNow t q) s (fun u => u.mod = s.mod ∧ u.Answered 0x0B000011)) ∧
    (s.Passes q 0x2000 3 0 9 → s.mod = .configuration → s.power.check = none → s.rdN (stk 2) ≤ s.rdN (stk 1) →
      Completes (.proofCheckNow t q) s (fun u => u.power.check = some ⟨2, (s.begin t).checkFrom⟩ ∧ u.Answered 0)) ∧
    (s.Passes q 0x2000 3 0 9 → s.mod = .configuration → s.power.check = none → s.rdN (stk 1) < s.rdN (stk 2) →
      Completes (.proofCheckNow t q) s (fun u => u.power.check = none ∧ u.power.wanted = some 2 ∧ u.Answered 0)) ∧
    (s.Passes q 0x2000 3 0 9 → s.mod = .configuration → s.power.check ≠ none →
      Completes (.proofCheckNow t q) s (fun u => u.power.check = s.power.check ∧ u.Answered 0)) ∧
    (s.Passes q 0x2000 3 0 9 → s.mod ≠ .configuration →
      Completes (.proofCheckNow t q) s (fun u => u.power.check = s.power.check ∧ u.rdN (mdk 4) = 0x0B000011 ∧ u.Answered 0x0B000011))) ∧
  (∀ (t : Time) (q : Req) (s s1 : State), s.Up → s.Passes q 0x2000 3 0 2 → s1 = (s.begin t).handling q.sid →
    (s.mod = .configuration → s1.armCheck = 0 → Completes (.moduleArm t q) s (fun u => u.mod = .armed ∧ u.rd (mdk 0xB) = 0 ∧ u.Answered 0)) ∧
    (s.mod = .configuration → s1.armCheck ≠ 0 → Completes (.moduleArm t q) s (fun u => u.mod = .configuration ∧ u.rdN (mdk 0xB) = s1.armCheck ∧
      u.Answered 0x0B000012)) ∧
    (s.mod ≠ .configuration → Completes (.moduleArm t q) s (fun u => u.mod = s.mod ∧ u.Answered 0x0B000011))) ∧
  (∀ (t : Time) (s : State), s.longOp = 1 → Completes (.configurationStoreComplete t) s (fun u => u.longOp = 0 ∧ u.rd (key 0x2001 3) = 0 ∧
    u.power.stored = s.srv.storing ∧ u.power.storedLocks = s.srv.storingLocks)) ∧
  (∀ (t : Time) (failed : List (Nat × Nat)) (s : State), s.longOp = 3 → Completes (.selfTestComplete t failed) s (fun u => u.longOp = 0 ∧
    u.rd (key 0x2001 3) = 0))

/-- R17, R321, R322, R331, R332, R337 to R340: power domains are switched, become ready or fail; the back-off ends in the stage that failed; the service
start; inrush, insertion, the latch, its button, and a withdrawal without warning.
What the memory self-test finds as Init ends (code 0x02) is the model's choice (notes/assumptions/99). -/
def Obligations.DomainAndHotPlugCommandsComplete : Prop :=
  (∀ (t : Time) (q : Req) (d : DomainNo) (s : State), s.Serves → s.Passes q 0x2101 (d + 1) 0 0 →
    (s.needed d = false → s.dom d ≠ 3 → Completes (.domainSwitchOff t q d) s (fun u => u.rdB (swk d) = false ∧ u.dom d = 0 ∧ u.Answered 0)) ∧
    (s.needed d = true → Completes (.domainSwitchOff t q d) s (fun u => u.rd (swk d) = s.rd (swk d) ∧ u.dom d = s.dom d ∧ u.Answered 0x0B000010))) ∧
  (∀ (t : Time) (q : Req) (d : DomainNo) (s : State), s.Serves → s.Passes q 0x2101 (d + 1) 0 1 →
    (s.dom d ≠ 3 → Completes (.domainSwitchOn t q d) s (fun u => u.rdB (swk d) = true ∧ u.Answered 0 ∧
      (s.mod.code ∈ [3, 4, 5, 6] ∨ (s.mod = .safeHold ∧ s.power.holdUp = none) ∨ d.val = 7 → u.dom d = if s.dom d = 2 then 2 else 1))) ∧
    (s.dom d = 3 → Completes (.domainSwitchOn t q d) s (fun u => u.dom d = 3 ∧ u.Answered 0x0B000014))) ∧
  (∀ (t : Time) (d : DomainNo) (s : State), s.dom d = 1 → s.domTurn d = true →
    (s.mod ≠ .init → s.mod ≠ .proof → Completes (.domainReady t d) s (fun u => u.dom d = 2 ∧ u.mod = s.mod)) ∧
    (s.mod = .init → s.power.inserted = true → s.power.proofPassed = false → d.val ∈ [5, 6, 7] → (∀ e ∈ [5, 6, 7], e ≠ d.val → s.dom e = 2) →
      Completes (.domainReady t d) s (fun u => u.dom d = 2 ∧
        if s.memoryFails then u.mod = .faultWait ∧ u.rdN (mdk 0xA) = 2 else u.mod = .proof ∧ u.power.proofAt = u.now))) ∧
  (∀ (t : Time) (d : DomainNo) (s : State), s.dom d = 1 ∨ s.dom d = 2 → Completes (.domainFault t d) s (fun u => u.dom d = 3 ∧
    (s.mod = .init ∨ s.mod = .proof → u.mod = .faultWait ∧ u.rdN (mdk 0xA) = 1) ∧
    (s.mod = .armed ∨ s.mod = .running ∨ s.mod = .standby → d.val ∈ [1, 2, 3, 4, 6] → u.mod = .safeHold))) ∧
  (∀ (t : Time) (s : State), s.mod = .faultWait → s.power.retryAt ≤ max t s.now → Completes (.backOffExpired t) s (fun u =>
    if s.power.failStage = .init then u.mod = .init ∨ u.mod = (if s.memoryFails then .faultWait else .proof) else u.mod = .proof ∧ u.power.charged = false ∧ u.power.proofAt = u.now)) ∧
  (∀ (t : Time) (s : State), s.power.inserted = true → s.power.service = false → s.mod = .init ∨ s.mod = .proof ∨ s.mod = .faultWait →
    s.power.startedAt + Time.sec 5 ≤ max t s.now → Completes (.serviceStart t) s (fun u => u.power.service = true ∧ u.rdB (mdk 0xC) = true)) ∧
  (∀ (t : Time) (s : State), s.power.inserted = false → Completes (.inrushTimeout t) s (fun u => u.power.inrush = s.power.inrush + 1 ∧
    u.power.inrushAt = some (u.now + Time.sec (min 64 (2 ^ s.power.inrush))))) ∧
  (∀ (t : Time) (s : State) (x : Time), s.power.inrushAt = some x → x ≤ max t s.now → Completes (.inrushRetry t) s (fun u => u.power.inrushAt = none ∧
    u.rdN (vnk 5) = (s.rdN (vnk 5) + 1) % 2 ^ 32)) ∧
  (∀ (t : Time) (slot msel : Fin 8) (s : State), s.power.inserted = false → s.power.dark = false → s.mod = .init →
    Completes (.insertionComplete t slot msel) s (fun u => u.power.inserted = true ∧ u.rdN (rkk 1) = slot ∧ u.rdN (rkk 2) = msel ∧
      u.rackRole = if slot = msel then 1 else 2)) ∧
  (∀ (t : Time) (s : State), s.mod ≠ .init → s.mod ≠ .removal → s.power.holdUp = none → s.power.dark = false →
    Completes (.latchLeverOpened t) s (fun u => u.mod = .removal ∧
      (s.twinRole = 0 → u.power.removal = none ∧ (∀ d ∈ [1, 2, 3, 4, 6], u.dom d = 0) ∧ Output.msg "LATCH_LED" [1] [] ∈ u.out) ∧
      (s.twinRole ≠ 0 → s.authority = 1 → u.power.removal = some u.now ∧ u.rack.planned = 2) ∧
      (s.twinRole ≠ 0 → s.authority ≠ 1 → s.rdB (twk 0x14) = true →
        ∃ bytes, Output.msg "HANDOVER" [s.rdN (twk 2), s.rack.seq, s.rd (twk 5), 2] bytes ∈ u.out))) ∧
  (∀ (t : Time) (s : State) (a : Time), s.power.removal = some a → a + Time.ms 20 ≤ max t s.now → Completes (.removalTimeout t) s (fun u =>
    u.power.removal = none ∧ (∀ d ∈ [1, 2, 3, 4, 6], u.dom d = 0) ∧ Output.msg "LATCH_LED" [1] [] ∈ u.out)) ∧
  (∀ (t : Time) (s : State), s.power.dark = false → s.mod ≠ .removal → Completes (.latchButton t) s (fun u => u.power.presence = some u.now)) ∧
  (∀ (t : Time) (s : State), s.mod ≠ .removal → s.power.dark = false → s.power.inserted = true → Completes (.withdrawnWithoutWarning t) s (fun u =>
    u.mod = .removal ∧ u.power.inserted = false ∧ u.power.phase = 2 ∧ ∀ d ∈ [1, 2, 3, 4], u.dom d = 0))

/-- R342, R343, R399: a scrub pass counts its corrected errors; an uncorrectable error is counted and drops the cycle that reads the word, or is an
island fault; junction temperatures warn at 118 °C and fault PD1 to PD4 and PD6 at 123 °C.
Where the capture memory's corrected errors count, and that the hottest junction is the highest latest reading of a domain, are the model's choices
(notes/assumptions/120, 122). -/
def Obligations.RepairAndThermalCommandsComplete : Prop :=
  (∀ (t : Time) (mem : Fin 4) (errs : List MemUnit) (s : State), s.power.failing.filter (fun p => p / 16 / 4096 / 2 == mem.val) = [] →
    Completes (.scrubPass t mem errs) s (fun u =>
      u.rdN (key 0x2400 7) = (if mem = 3 then s.rdN (key 0x2400 7) else (s.rdN (key 0x2400 7) + errs.length) % 2 ^ 32) ∧
      u.rdN (key 0x7000 0x10) = if mem = 3 then (s.rdN (key 0x7000 0x10) + errs.length) % 2 ^ 32 else s.rdN (key 0x7000 0x10))) ∧
  (∀ (t : Time) (addr : Nat) (x : MemUnit) (s : State),
    (∀ (mem : Fin 5) (b : Batch), Completes (.uncorrectableError t mem addr x (some b)) s (fun u =>
      u.rdN (key 0x2400 8) = (s.rdN (key 0x2400 8) + 1) % 2 ^ 32 ∧ (u.batch b).cyc = none)) ∧
    (s.islandState ≠ 3 → Completes (.uncorrectableError t 4 addr x none) s (fun u => u.rdN (key 0x2400 8) = (s.rdN (key 0x2400 8) + 1) % 2 ^ 32 ∧
      u.islandState = 3))) ∧
  (∀ (t : Time) (d : DomainNo) (temp : Int) (s : State), 1180 ≤ temp → Completes (.junctionWarning t d temp) s (fun u =>
    Tbl.find? d.val u.power.hotSince = some u.now ∧ u.bit (vnk 9) 0 = true)) ∧
  (∀ (t : Time) (d : DomainNo) (temp : Int) (s : State), Completes (.junctionWarning t d temp) s (fun u => temp ≤ u.rd (vnk 7)) ∧
    (s.power.junctions = [] → Completes (.junctionWarning t d temp) s (fun u => u.rd (vnk 7) = temp ∧ u.rdN (vnk 8) = d)) ∧
    (∀ (e : Nat) (x : Int), e ≠ d.val → s.power.junctions = [(e, x)] → Completes (.junctionWarning t d temp) s (fun u =>
      u.rd (vnk 7) = max temp x ∧ u.rdN (vnk 8) = if temp < x then e else d.val))) ∧
  (∀ (t : Time) (d : DomainNo) (temp : Int) (s : State), 1230 ≤ temp → d.val ∈ [1, 2, 3, 4, 6] → s.dom d = 1 ∨ s.dom d = 2 →
    Completes (.junctionFault t d temp) s (fun u => u.bit (vnk 9) 1 = true ∧ u.dom d = 3))

/-- R354, R356: a datagram with a bad tag or magic is discarded and counted; a repeated request gets the stored response again and has no second
effect; a request out of sequence is discarded and counted; during a long operation a request is answered BUSY with its progress and is not taken. -/
def Obligations.RequestsKeepTheirSequence : Prop :=
  ∀ (t : Time) (d : Datagram) (x : Session) (s s0 : State) (svc : Nat) (i : Instr),
    (svc, i) ∈ [(2, .sessionProve t d), (3, .sessionClose t d), (4, .keepAlive t d), (0x10, .readEntry t d), (0x11, .writeEntry t d),
      (0x12, .segmentRead t d), (0x13, Instr.segmentWrite t d)] →
    s0 = s.begin t →
    (s.serverUp = true → s.PairOpen d → s0.ignores d = false → (s0.rateOk d).1 = true →
      s.session d.sid = some x → d.magic = false ∨ d.tag ≠ tagOf x.key (requestBytes svc d) → Completes i s (fun u => u.out = [] ∧
        u.srv.sessions = s.srv.sessions ∧ u.rdN (key 0x2610 7) = (s.rdN (key 0x2610 7) + 1) % 2 ^ 32)) ∧
    (s0.Valid svc d x → x.lastSeq = some d.seq → ∀ l, x.resp = some l → Completes i s (fun u => u.od = s.od ∧ u.blobs = s.blobs ∧
      u.out = [.msg "DATAGRAM" (replyTo d) l])) ∧
    (s0.Valid svc d x → d.seq ≠ x.lastSeq.getD 0 → d.seq ≠ (x.lastSeq.getD 0 + 1) % 2 ^ 32 → Completes i s (fun u => u.out = [] ∧
      u.rdN (key 0x2610 8) = (s.rdN (key 0x2610 8) + 1) % 2 ^ 32)) ∧
    (s0.Valid svc d x → d.seq = (x.lastSeq.getD 0 + 1) % 2 ^ 32 → x.owes = false → s.longOp ≠ 0 → Completes i s (fun u =>
      u.od = s.od ∧ u.out = [response svc d x 5 s0.progress abBusy []] ∧
      u.session d.sid = some { x with heard := u.now, hdr := some (svc, d) }))

/-- R352, R355, R356, R359: a session opens with its key, its proof and a module nonce, proves itself or fails to, keeps alive and closes; it ends
when idle or not proved in time; the block of an address ends.
The nonce is a free value (notes/assumptions/52); the sequence of an Open, the order of its refusals and the window of failed proofs are the model's
choices (notes/assumptions/62, 64, 94). -/
def Obligations.SessionCommandsComplete : Prop :=
  (∀ (t : Time) (d : Datagram) (s s0 : State) (r : Nat) (nm : List Byte), s0 = s.begin t → s.serverUp = true → s.longOp = 0 →
    s.PairOpen d → s0.ignores d = false → (s0.rateOk d).1 = true → d.magic = true → (∀ x ∈ d.tag, x = 0) →
    r = (d.data.headD 0).toNat → nm = leBytes 16 (Config.nonce s.fresh).toNat →
    (s0.openRefusal d r = 0 → Completes (.sessionOpen t d) s (fun u => u.srv.nextSid = (s.srv.nextSid + 1) % 2 ^ 32 ∧
      Output.msg "DATAGRAM" (replyTo d)
        (datagramBytes 1 s.srv.nextSid d.seq d.index d.sub d.elem 1 0 0 nm ++ List.replicate 16 0) ∈ u.out ∧
      ∃ y, u.session s.srv.nextSid = some y ∧ y.rank = r ∧ y.service = d.service ∧ y.opened = u.now ∧ y.lastSeq = some d.seq ∧
        (d.service = true → s.keySet r = false → y.proved = true ∧ y.key = none) ∧
        (s.keySet r = true → y.proved = false ∧
          y.key = some (hmac (s.blob (roleKeyAt r)) (label "BDSK" ++ slice 4 16 d.data ++ nm ++ d32 s.srv.nextSid)) ∧
          y.proof = hmac (s.blob (roleKeyAt r)) (label "BDPR" ++ slice 4 16 d.data ++ nm ++ d32 s.srv.nextSid ++ d8 r)))) ∧
    (∀ e, e = s0.openRefusal d r → e ≠ 0 → Completes (.sessionOpen t d) s (fun u => u.srv.sessions = s.srv.sessions ∧
      u.out = [.msg "DATAGRAM" (replyTo d) (datagramBytes 1 0 d.seq d.index d.sub d.elem 1 0 e [] ++ List.replicate 16 0)]))) ∧
  (∀ (t : Time) (d : Datagram) (x : Session) (s : State), (s.begin t).Asks 2 d x → x.proved = false →
    (d.data = x.proof → Completes (.sessionProve t d) s (fun u => response 2 d x 1 0 0 [] ∈ u.out ∧
      ∃ y, u.session d.sid = some y ∧ y.proved = true ∧ y.rank = x.rank ∧ y.key = x.key ∧ y.lastSeq = some d.seq)) ∧
    (d.data ≠ x.proof → Completes (.sessionProve t d) s (fun u => u.rdN (key 0x2610 6) = (s.rdN (key 0x2610 6) + 1) % 2 ^ 32 ∧
      (∃ y, u.session d.sid = some y ∧ y.proved = false) ∧
      (x.service = false → s.rdN (key 0x2610 3) ≤ 1 → Tbl.find? x.src u.srv.blocked = some (u.now + Time.sec (s.rdN (key 0x2610 4))))))) ∧
  (∀ (t : Time) (d : Datagram) (x : Session) (s : State), (s.begin t).Asks 3 d x → Completes (.sessionClose t d) s (fun u =>
    u.session d.sid = none ∧ (∀ e ∈ u.srv.transfers, e.2.sid ≠ d.sid) ∧ (∀ e ∈ u.srv.snaps, e.sid ≠ d.sid) ∧ u.out = [response 3 d x 1 0 0 []])) ∧
  (∀ (t : Time) (d : Datagram) (x : Session) (s : State), (s.begin t).Asks 4 d x → Completes (.keepAlive t d) s (fun u =>
    (∃ y, u.session d.sid = some y ∧ y.heard = u.now ∧ y.lastSeq = some d.seq) ∧ u.out = [response 4 d x 1 0 0 []])) ∧
  (∀ (t : Time) (sid : Nat) (x : Session) (s : State), s.session sid = some x →
    (s.longOp = 0 → x.heard + Time.sec (s.rdN (key 0x2610 1)) ≤ max t s.now → Completes (.sessionIdleTimeout t sid) s (fun u =>
      u.session sid = none ∧ ∀ k, k ≠ sid → u.session k = s.session k)) ∧
    (s.longOp ≠ 0 → Completes (.sessionIdleTimeout t sid) s (fun u => u.srv = s.srv)) ∧
    (x.proved = false → x.opened + Time.sec 5 ≤ max t s.now → Completes (.openNotProved t sid) s (fun u =>
      u.session sid = none ∧ ∀ k, k ≠ sid → u.session k = s.session k)) ∧
    (x.proved = true → Completes (.openNotProved t sid) s (fun u => u.srv = s.srv))) ∧
  (∀ (t : Time) (src : Nat) (b : Time) (s : State), Tbl.find? src s.srv.blocked = some b →
    (b ≤ max t s.now → Completes (.blockTimeEnd t src) s (fun u => u.srv.blocked = Tbl.erase src s.srv.blocked)) ∧
    (max t s.now < b → Completes (.blockTimeEnd t src) s (fun u => u.srv = s.srv)))

/-- R348, R352, R357: a session reads and writes entries, whole or in segments: a read is answered with the bytes or the code of its check; a write
with the code of the first check that fails, or the entry holds the value; a segment read takes a snapshot and releases it at the end, or after
10 s; a segment write gathers its bytes in order, the last one sets the entry; a transfer without a segment for 10 s is discarded. -/
def Obligations.EntryAccessCompletes : Prop :=
  (∀ (t : Time) (d : Datagram) (x : Session) (s s1 : State), (s.begin t).Asks 0x10 d x → s.Local d → s1 = (s.begin t).taking 0x10 d x →
    ¬(0x3400 ≤ d.index ∧ d.index < 0x3700 ∧ d.sub = 0x1D) →
    (s1.readCheck d.index d.sub d.elem = 0 → (s1.readBytes d.index d.sub d.elem).length ≤ 1024 → Completes (.readEntry t d) s (fun u =>
      response 0x10 d x 1 0 0 (s1.readBytes d.index d.sub d.elem) ∈ u.out)) ∧
    (s1.readCheck d.index d.sub d.elem ≠ 0 → Completes (.readEntry t d) s (fun u => u.od = s.od ∧
      u.out = [response 0x10 d x 1 0 (s1.readCheck d.index d.sub d.elem) []]))) ∧
  (∀ (t : Time) (d : Datagram) (x : Session) (s : State), (s.begin t).Asks 0x11 d x → s.Local d → s.twinRole = 0 →
    (s.PlainWrite (x.req d.sid) (x.req d.sid).role.rank true d.index d.sub d.elem d.data → Completes (.writeEntry t d) s (fun u =>
      u.rd (key d.index d.sub d.elem) = valueOf d.index d.sub d.data ∧ response 0x11 d x 1 0 0 [] ∈ u.out)) ∧
    (d.index ≠ 0x2601 → ∀ e, descAt d.index d.sub = some e → e.ty.isBlob = false → e.n ≤ 1 ∨ d.elem ≠ 0 → d.data.length = e.ty.bytes →
      s.writeCheck (x.req d.sid).role.rank true d.index d.sub d.elem d.data.length (e.ty.ofBytes d.data) ≠ 0 →
      Completes (.writeEntry t d) s (fun u =>
        response 0x11 d x 1 0 (s.writeCheck (x.req d.sid).role.rank true d.index d.sub d.elem d.data.length (e.ty.ofBytes d.data)) [] ∈ u.out ∧
        (d.index < 0x7000 → u.rd (key d.index d.sub d.elem) = s.rd (key d.index d.sub d.elem))))) ∧
  (∀ (t : Time) (d : Datagram) (x : Session) (s s1 : State) (l : List Byte), (s.begin t).Asks 0x12 d x → s.Local d → s1 = (s.begin t).taking 0x12 d x →
    s1.readCheck d.index d.sub 0 = 0 →
    l = s1.readBytes d.index d.sub 0 →
    (d.param = 0 → l.length ≤ 1024 → Completes (.segmentRead t d) s (fun u => u.out = [response 0x12 d x 3 0 l.length l] ∧
      ∀ y ∈ u.srv.snaps, ¬(y.sid = d.sid ∧ y.entry = key d.index d.sub))) ∧
    (d.param = 0 → 1024 < l.length → Completes (.segmentRead t d) s (fun u => u.out = [response 0x12 d x 1 0 l.length (l.take 1024)] ∧
      ⟨d.sid, key d.index d.sub, l, u.now⟩ ∈ u.srv.snaps)) ∧
    (d.param ≠ 0 → ∀ y, s.srv.snaps.find? (fun z => z.sid == d.sid && z.entry == key d.index d.sub) = some y → d.param ≤ y.data.length →
      y.data.length ≤ d.param + 1024 → Completes (.segmentRead t d) s (fun u =>
        u.out = [response 0x12 d x 3 0 y.data.length (y.data.drop d.param)])) ∧
    (d.param ≠ 0 → (∀ z ∈ s.srv.snaps, ¬(z.sid = d.sid ∧ z.entry = key d.index d.sub)) → Completes (.segmentRead t d) s (fun u =>
      u.out = [response 0x12 d x 1 0 0x0B00000B []]))) ∧
  (∀ (t : Time) (d : Datagram) (x : Session) (s : State) (got : List Byte), (s.begin t).Asks 0x13 d x → s.Local d → s.twinRole = 0 →
    (d.param = 0 ∧ got = [] ∧ (∀ z, s.transfer d.index d.sub = some z → z.sid = d.sid)) ∨
      (d.param ≠ 0 ∧ d.param = got.length ∧ ∃ a, s.transfer d.index d.sub = some ⟨d.sid, got, a⟩) →
    s.segmentAccess (x.req d.sid) d.index d.sub = 0 → s.segmentCheck d.index d.sub (got.length + d.data.length) = 0 →
    (d.last = false → Completes (.segmentWrite t d) s (fun u => u.transfer d.index d.sub = some ⟨d.sid, got ++ d.data, u.now⟩ ∧
      u.out = [response 0x13 d x 1 0 0 []])) ∧
    (d.last = true → (∃ e, descAt d.index d.sub = some e ∧ e.ty.isBlob = true) →
      blobEff d.index d.sub (got ++ d.data) (d.param == 0) = { eff := State.wrBlob (key d.index d.sub) (got ++ d.data) } →
      s.gooseOwned d.index d.sub = false → s.rpdoOwned d.index d.sub = false →
      (∀ e ∈ s.srv.transfers, e.1 = key d.index d.sub → e.2.sid = d.sid) →
      Completes (.segmentWrite t d) s (fun u => u.blob (key d.index d.sub) = got ++ d.data ∧
        u.srv.transfers = Tbl.erase (key d.index d.sub) s.srv.transfers ∧ response 0x13 d x 1 0 0 [] ∈ u.out))) ∧
  (∀ (t : Time) (index sub : Nat) (z : Transfer) (s : State), s.transfer index sub = some z →
    (z.at_ + Time.sec 10 ≤ max t s.now → Completes (.transferTimeout t index sub) s (fun u =>
      u.srv.transfers = Tbl.erase (key index sub) s.srv.transfers)) ∧
    (max t s.now < z.at_ + Time.sec 10 → Completes (.transferTimeout t index sub) s (fun u => u.srv = s.srv))) ∧
  (∀ (t : Time) (sid index sub : Nat) (s : State), Completes (.snapshotRelease t sid index sub) s (fun u => ∀ y, y ∈ u.srv.snaps ↔
    y ∈ s.srv.snaps ∧ ¬(y.sid = sid ∧ y.entry = key index sub ∧ y.at_ + Time.sec 10 ≤ max t s.now)))

/-- R304, R351, R358, R361: a frame of the rack master's gateway is served with the role it carries, or answered BUSY; the master answers its session
with the reply, or with 0x05040000 after 5 ms; a USDO request is served with the port's role; the standby applies and acknowledges a forwarded
write, and answers BUSY during a long operation (the model's choice, notes/assumptions/116).
The layout of a gateway reply and the order of replies are the model's choices too (notes/assumptions/95, 121). -/
def Obligations.OtherPathsComplete : Prop :=
  (∀ (t : Time) (m : GatewayReq) (s s1 : State), s1 = (s.begin t).handling viaGateway → s.serverUp = true →
    (s.longOp = 0 → m.service = 0x10 → s1.readCheck m.index m.sub m.elem = 0 → (s1.readBytes m.index m.sub m.elem).length ≤ 32 →
      ¬(0x3400 ≤ m.index ∧ m.index < 0x3700 ∧ m.sub = 0x1D) →
      ∀ l, l = ([0, 0, 0, 0, 1, ((s1.readBytes m.index m.sub m.elem).length : Int), 0] ++
        (s1.readBytes m.index m.sub m.elem).map (fun b => (b.toNat : Int))) → Completes (.dictionaryGatewayFrame t m) s (fun u =>
        u.rack.seq = (s.rack.seq + 1) % 2 ^ 32 ∧ u.out = [.msg "GATEWAY_REPLY" ((s.rdN (key 0x2500 2) : Int) :: (s.rack.seq : Int) :: l)
          (s1.rackBytes "GATEWAY_REPLY" (s.rdN (key 0x2500 2)) l)])) ∧
    (s.longOp = 0 → m.service = 0x11 → s.twinRole = 0 →
      s.PlainWrite { role := m.role, servicePort := false, sid := viaGateway } m.role.rank true m.index m.sub m.elem m.data →
      Completes (.dictionaryGatewayFrame t m) s (fun u => u.rd (key m.index m.sub m.elem) = valueOf m.index m.sub m.data)) ∧
    (s.longOp ≠ 0 → ∀ l, l = [0, 0, 0, (s1.progress : Int), 5, 0, abBusy] → Completes (.dictionaryGatewayFrame t m) s (fun u => u.od = s.od ∧
      u.out = [.msg "GATEWAY_REPLY" ((s.rdN (key 0x2500 2) : Int) :: (s.rack.seq : Int) :: l)
        (s1.rackBytes "GATEWAY_REPLY" (s.rdN (key 0x2500 2)) l)]))) ∧
  (∀ (t : Time) (m : GatewayRep) (sid : Nat) (at_ : Time) (r : List (Nat × Time)) (x : Session) (svc : Nat) (d : Datagram) (s : State),
    s.srv.gate = (sid, at_) :: r → s.session sid = some x → x.hdr = some (svc, d) → d.sid = sid → 0 < sid → sid < 2 ^ 32 →
    (m.abort ≠ abBusy → Completes (.gatewayReply t m) s (fun u => u.srv.gate = r ∧
      u.out = [response svc d x (1 + 2 * b2n m.last) 0 (if m.abort ≠ 0 then m.abort else m.param) m.data])) ∧
    (at_ + Time.ms 5 ≤ max t s.now → Completes (.gatewayTimeout t) s (fun u => u.srv.gate = r ∧ u.out = [response svc d x 1 0 0x05040000 []]))) ∧
  (∀ (t : Time) (k : CanNo) (m : UsdoReq) (s s1 : State), s1 = (s.begin t).handling (viaCan k m.client) → s.serverUp = true →
    s.rdB (key (0x2710 + k) 1) = true → m.unicast = true →
    (s.longOp = 0 → m.write = false → s1.readCheck m.index m.sub 0 = 0 → (s1.readBytes m.index m.sub 0).length ≤ 2 ^ 32 →
      ¬(0x3400 ≤ m.index ∧ m.index < 0x3700 ∧ m.sub = 0x1D) → Completes (.usdoRequest t k m) s (fun u =>
        u.out = [.msg "USDO" [k.val, m.client, 0] (s1.readBytes m.index m.sub 0)])) ∧
    (s.longOp = 0 → m.write = true → m.segment = none → s.twinRole = 0 →
      s.PlainWrite { role := roleOf (s.rdN (key (0x2710 + k) 6)), servicePort := false, sid := viaCan k m.client }
        (roleOf (s.rdN (key (0x2710 + k) 6))).rank true m.index m.sub 0 m.data →
      Completes (.usdoRequest t k m) s (fun u => u.rd (key m.index m.sub) = valueOf m.index m.sub m.data ∧ Output.msg "USDO" [k.val, m.client, 0] [] ∈ u.out)) ∧
    (s.longOp ≠ 0 → Completes (.usdoRequest t k m) s (fun u => u.od = s.od ∧ u.out = [.msg "USDO" [k.val, m.client, abBusy] []]))) ∧
  (∀ (t : Time) (index sub elem : Nat) (l : List Byte) (s : State), s.serverUp = true → s.twinRole ≠ 0 → s.authority = 2 →
    (s.longOp = 0 → s.PlainWrite { role := .safety, servicePort := false, sid := viaTwin } 4 false index sub elem l →
      Completes (.twinForwardedWrite t index sub elem l) s (fun u => u.rd (key index sub elem) = valueOf index sub l ∧
        Output.msg "TWIN_ACK" [0] [] ∈ u.out)) ∧
    (s.longOp ≠ 0 → Completes (.twinForwardedWrite t index sub elem l) s (fun u => u.od = s.od ∧ Output.msg "TWIN_ACK" [abBusy] [] ∈ u.out)))

/-- R362: RPDO, SYNC and TPDO_EVENT complete on every port that runs. An RPDO that maps set-points sets each from its bytes, but on a twin that is not the active module (R304), one that maps a batch
command gives it, or has it refused by the batch's state; one that is not valid changes nothing, one that is too short is counted (where the
count stands is the model's choice, notes/assumptions/124). A SYNC sends every TPDO whose count is reached, counts for the others of types 0x01 to
0xF0 and leaves the rest. A TPDO_EVENT sends a TPDO of type 0xFE on a change after its inhibit time and on its event timer, and sends nothing otherwise.
On a port that does not run, or is bus-off and not recovered (R360; notes/assumptions/96), they have no effect. -/
def Obligations.PdoCommandsComplete : Prop :=
  (∀ (t : Time) (k : CanNo) (r p : Fin 8) (l : List Byte) (timer : Bool) (s : State) (i : Instr), s.canOn k = false ∨ (s.begin t).busIsOff k = true →
    i ∈ [.rpdo t k r l, .canSync t k, Instr.tpdoEvent t k p timer] → Completes i s (fun u => u = s.begin t)) ∧
  (∀ (t : Time) (k : CanNo) (r : Fin 8) (l : List Byte) (sp : List (Batch × Fin 4)) (s : State), s.CanRuns t k →
    s.rdN (key (0x1400 + 8 * k + r) 1) < 0x80000000 → sp.Nodup →
    s.mapping (0x1600 + 8 * k + r) = sp.map (fun e => (0x400E + 0x20 * e.1.val) * 65536 + (1 + e.2.val) * 256 + 32) → 4 * sp.length ≤ l.length →
    (∀ j e, sp[j]? = some e → s.writeCheck 4 false (0x400E + 0x20 * e.1) (1 + e.2) 0 4 (leNat ((l.drop (4 * j)).take 4)) = 0) →
    (s.twinRole = 0 → Completes (.rpdo t k r l) s (fun u => u.rd (cpk k 8) = 1 ∧ ∀ j e, sp[j]? = some e →
      u.rdN (bk 0xE (1 + e.2) e.1) = leNat ((l.drop (4 * j)).take 4) ∧ (u.batch e.1).lastWrite = u.now)) ∧
    (s.twinRole ≠ 0 → s.authority ≠ 1 → (∀ e ∈ sp, s.twinEntry (0x400E + 0x20 * e.1) (1 + e.2) = true) →
      Completes (.rpdo t k r l) s (fun u => u.rd (cpk k 8) = 1 ∧ ∀ e ∈ sp, u.rd (bk 0xE (1 + e.2) e.1) = s.rd (bk 0xE (1 + e.2) e.1)))) ∧
  (∀ (t : Time) (k : CanNo) (r : Fin 8) (c : Byte) (l : List Byte) (b : Batch) (s : State), s.CanRuns t k →
    s.rdN (key (0x1400 + 8 * k + r) 1) < 0x80000000 → s.mapping (0x1600 + 8 * k + r) = [(0x4002 + 0x20 * b.val) * 65536 + 0x108] →
    1 ≤ c.toNat → c.toNat ≤ 8 →
    (s.permitted b c.toNat = true → (c.toNat = 8 → s.rampOk b = true) →
      Completes (.rpdo t k r (c :: l)) s (fun u => (u.batch b).cmd = some c.toNat ∧ u.rd (bk 2 2 b) = 0)) ∧
    (s.permitted b c.toNat = false →
      Completes (.rpdo t k r (c :: l)) s (fun u => (u.batch b).cmd = (s.batch b).cmd ∧ u.rd (bk 2 2 b) = 0x0B000062)) ∧
    (c.toNat = 8 → s.permitted b 8 = true → s.rampOk b = false →
      Completes (.rpdo t k r (c :: l)) s (fun u => (u.batch b).cmd = (s.batch b).cmd ∧ u.rd (bk 2 2 b) = 0x0B000063))) ∧
  (∀ (t : Time) (k : CanNo) (r : Fin 8) (l : List Byte) (s : State), s.CanRuns t k →
    (0x80000000 ≤ s.rdN (key (0x1400 + 8 * k + r) 1) → Completes (.rpdo t k r l) s (fun u => u = (s.begin t).wr (cpk k 8) 1)) ∧
    (s.rdN (key (0x1400 + 8 * k + r) 1) < 0x80000000 →
      l.length < ((s.mapping (0x1600 + 8 * k + r)).map (fun m => m % 256 / 8)).sum → Completes (.rpdo t k r l) s (fun u =>
        u.od = ((s.begin t).wr (cpk k 8) 1).od ∧ u.batches = s.batches ∧ u.gens = s.gens ∧
        Tbl.get 0 (8 * k + r) u.net.shortPdos = Tbl.get 0 (8 * k + r) s.net.shortPdos + 1))) ∧
  (∀ (t : Time) (k : CanNo) (s s1 : State), s1 = (s.begin t).wr (cpk k 8) 1 → s.CanRuns t k →
    Completes (.canSync t k) s (fun u => u.rd (cpk k 8) = 1 ∧ ∀ p : Fin 8,
      if s.tpdoValid k p = true ∧ 1 ≤ s.rdN (tpk2 k p 2) ∧ s.rdN (tpk2 k p 2) ≤ 0xF0 then
        (if s.rdN (tpk2 k p 2) ≤ (s.tpdo k p).syncs + 1 then
          u.tpdo k p = { syncs := 0, last := some (s1.tpdoBytes k p), sentAt := some u.now } ∧
          Output.msg "PDO" [k.val, s.rd (tpk2 k p 1)] (s1.tpdoBytes k p) ∈ u.out
        else u.tpdo k p = { (s.tpdo k p) with syncs := (s.tpdo k p).syncs + 1 })
      else u.tpdo k p = s.tpdo k p)) ∧
  (∀ (t : Time) (k : CanNo) (p : Fin 8) (timer : Bool) (s s1 : State), s1 = (s.begin t).wr (cpk k 8) 1 → s.CanRuns t k →
    (s.tpdoValid k p = true → s.rdN (tpk2 k p 2) = 0xFE →
      (if timer then s.rdN (tpk2 k p 5) ≠ 0 ∧ (s.tpdo k p).sentAt.all (fun a => decide (a + Time.ms (s.rdN (tpk2 k p 5)) ≤ max t s.now)) = true
        else (s.tpdo k p).last ≠ some (s1.tpdoBytes k p) ∧
          (s.tpdo k p).sentAt.all (fun a => decide (a + Time.us (100 * s.rdN (tpk2 k p 3)) ≤ max t s.now)) = true) →
      Completes (.tpdoEvent t k p timer) s (fun u =>
        u.tpdo k p = { syncs := 0, last := some (s1.tpdoBytes k p), sentAt := some u.now } ∧
        u.out = [.msg "PDO" [k.val, s.rd (tpk2 k p 1)] (s1.tpdoBytes k p)])) ∧
    (s.tpdoValid k p = false ∨ s.rdN (tpk2 k p 2) ≠ 0xFE ∨
      (if timer then s.rdN (tpk2 k p 5) = 0 ∨ (s.tpdo k p).sentAt.all (fun a => decide (a + Time.ms (s.rdN (tpk2 k p 5)) ≤ max t s.now)) = false
        else (s.tpdo k p).last = some (s1.tpdoBytes k p) ∨
          (s.tpdo k p).sentAt.all (fun a => decide (a + Time.us (100 * s.rdN (tpk2 k p 3)) ≤ max t s.now)) = false) →
      Completes (.tpdoEvent t k p timer) s (fun u => u = s1)))

/-- R276, R360, R363, R364: START_REMOTE_NODE, ENTER_PRE_OPERATIONAL and STOP_REMOTE_NODE run, configure and hold the module while the port obeys
them and are counted while it does not; RESET_NODE is never obeyed; RESET_COMMUNICATION restarts the port's services; a heartbeat is produced
(PRODUCER_HEARTBEAT), heard, and found overdue (CONSUMER_HEARTBEAT_TIMEOUT); BUS_OFF is counted; CAN_FD_FRAME fires the trigger unit that
waits for it. The model's choices (notes/assumptions/96): RESET_NODE is counted with the ignored commands, a consumer times out after
a first heartbeat, restarted services forget what they heard. -/
def Obligations.CanCommandsComplete : Prop :=
  (∀ (t : Time) (k : CanNo) (s : State), s.CanRuns t k → s.rdB (cpk k 7) = true →
    (s.mod = .armed → Completes (.startRemoteNode t k) s (fun u => u.rd (mdk 4) = 0 ∧
      u.mod = if s.twinRole = 0 ∨ s.authority = 1 then .running else .standby)) ∧
    (s.mod ≠ .armed → Completes (.startRemoteNode t k) s (fun u => u.mod = s.mod)) ∧
    (s.mod = .armed → (∀ b ∈ allBatches, s.bstate b = .off) → Completes (.enterPreOperational t k) s (fun u => u.mod = .configuration)) ∧
    ((∃ b ∈ allBatches, s.bstate b ≠ .off) → Completes (.enterPreOperational t k) s (fun u => u.mod = s.mod)) ∧
    (s.mod = .armed ∨ s.mod = .running ∨ s.mod = .standby → Completes (.stopRemoteNode t k) s (fun u => u.mod = .safeHold)) ∧
    Completes (.resetCommunication t k) s (fun u => (∀ x ∈ u.net.tpdos, x.1 / 8 ≠ k.val) ∧ u.net.producer = Tbl.erase k.val s.net.producer ∧
      (∀ x ∈ u.net.hb, x.1 / 128 ≠ k.val) ∧ (∀ x, x ∈ u.net.late ↔ x ∈ s.net.late ∧ x / 128 ≠ k.val))) ∧
  (∀ (t : Time) (k : CanNo) (s : State) (i : Instr),
    i ∈ [.startRemoteNode t k, .enterPreOperational t k, .stopRemoteNode t k, Instr.resetCommunication t k] → s.CanRuns t k →
    s.rdB (cpk k 7) = false → Completes i s (fun u => u.mod = s.mod ∧ u.net = s.net ∧ u.rdN (cpk k 0xB) = (s.rdN (cpk k 0xB) + 1) % 2 ^ 32)) ∧
  (∀ (t : Time) (k : CanNo) (s : State), s.CanRuns t k →
    Completes (.resetNode t k) s (fun u => u.mod = s.mod ∧ u.net = s.net ∧ u.rdN (cpk k 0xB) = (s.rdN (cpk k 0xB) + 1) % 2 ^ 32)) ∧
  (∀ (t : Time) (k : CanNo) (s : State), s.canOn k = true →
    Completes (.busOff t k) s (fun u => u.rd (cpk k 8) = 4 ∧ u.rdN (cpk k 9) = (s.rdN (cpk k 9) + 1) % 2 ^ 32)) ∧
  (∀ (t : Time) (k : CanNo) (s : State), s.CanRuns t k → s.rdN (key 0x1017 0) ≠ 0 →
    (∀ a, Tbl.find? k.val s.net.producer = some a → a + Time.ms (s.rdN (key 0x1017 0)) ≤ max t s.now) →
    Completes (.producerHeartbeat t k) s (fun u => Tbl.find? k.val u.net.producer = some u.now ∧
      u.out = [.msg "CAN_HEARTBEAT" [k.val, s.rd (cpk k 2), heartbeatByte s.mod] []])) ∧
  (∀ (t : Time) (k : CanNo) (node : Fin 128) (h : Time) (s : State), s.CanRuns t k → s.consumed node ≠ 0 →
    Tbl.find? (128 * k + node) s.net.hb = some h → 128 * k.val + node ∉ s.net.late → h + Time.ms (s.consumed node) ≤ max t s.now →
    Completes (.consumerHeartbeatTimeout t k node) s (fun u => 128 * k.val + node ∈ u.net.late ∧ u.bit (key 0x1001 0) 4 = true)) ∧
  (∀ (t : Time) (k : CanNo) (ext : Bool) (ident : Nat) (l : List Byte) (s : State), s.CanRuns t k →
    (ext = false → 0x701 ≤ ident → ident ≤ 0x77F → Completes (.canFdFrame t k ext ident l) s (fun u =>
      Tbl.find? (128 * k + (ident - 0x700)) u.net.hb = some u.now ∧ 128 * k + (ident - 0x700) ∉ u.net.late)) ∧
    (∀ (n : Nat) (x : Int), s.unitsOn 7 (2 ^ 31 * k + 2 ^ 29 * b2n ext + ident) = [n] → n < 16 → s.field n l = some x → s.rdN (tuk n 4) = 4 →
      x = s.rd (tuk n 5) % 2 ^ 32 → (s.trig n).latched = false → s.rdN (tuk n 8) ≤ (s.trig n).run + 1 → (s.begin t).holdoffOver n = true →
      Completes (.canFdFrame t k ext ident l) s (fun u => u.rdN (tuk n 0xD) = (s.rdN (tuk n 0xD) + 1) % 2 ^ 32 ∧
        (u.trig n).lastFire = some u.now ∧ (u.trig n).latched = true)))

/-- R365: the module answers ARP and echo requests for its own address and sends PRP supervision frames every 2 s. -/
def Obligations.EthernetCommandsComplete : Prop :=
  (∀ (t : Time) (p : Fin 2) (target sender : Nat) (s : State),
    (s.hasAddress p target = true → Completes (.arpRequest t p target sender) s (fun u => u = { (s.begin t) with
      out := [.msg "ARP_REPLY" [p.val, sender, s.rd (key (0x2700 + p) 4), target] []] })) ∧
    (s.hasAddress p target = false → Completes (.arpRequest t p target sender) s (fun u => u = s.begin t))) ∧
  (∀ (t : Time) (p : Fin 2) (dst : Nat) (l : List Byte) (s : State),
    (s.hasAddress p dst = true → Completes (.icmpEcho t p dst l) s (fun u => u = { (s.begin t) with
      out := [.msg "ICMP_ECHO_REPLY" [p.val, dst] l] })) ∧
    (s.hasAddress p dst = false → Completes (.icmpEcho t p dst l) s (fun u => u = s.begin t))) ∧
  (∀ (t : Time) (p : Fin 2) (s : State), s.serverUp = true →
    ((∀ a, Tbl.find? p.val s.net.prp = some a → a + Time.sec 2 ≤ max t s.now) → Completes (.prpSupervision t p) s (fun u =>
      Tbl.find? p.val u.net.prp = some u.now ∧ u.out = [.msg "PRP_SUPERVISION" [p.val, s.rd (key (0x2700 + p) 4)] []])) ∧
    (∀ a, Tbl.find? p.val s.net.prp = some a → max t s.now < a + Time.sec 2 → Completes (.prpSupervision t p) s (fun u => u = s.begin t)))

/-- R366, R367: a changed member starts a new state number at the minimum interval, which doubles up to the maximum; a message of a subscription sets
its target and the status bits, or waits as a job while a cycle of the target's batch runs (notes/assumptions/128); a member that does not suit is counted; a message that is a test is not applied; after the time allowed to
live the target of up to 16 bits takes its fallback.
Where a member that does not suit counts, and the encoding of members, are the model's choices (notes/assumptions/66, 97). -/
def Obligations.GooseCommandsComplete : Prop :=
  (∀ (t : Time) (g : Fin 8) (s : State), s.serverUp = true → s.rdB (pbk g 1) = true → (s.pub g).members ≠ [] →
    (∀ h, h < 8 → h ≠ g.val → s.rdB (pbk h 1) = false) → (s.pub g).last ≠ some ((s.pub g).members.map (fun m => (s.begin t).memberValue m)) →
    Completes (.gooseMemberCompare t) s (fun u => u.rdN (pbk g 0xE) = (s.rdN (pbk g 0xE) + 1) % 2 ^ 32 ∧
      (u.pub g).last = some ((s.pub g).members.map (fun m => (s.begin t).memberValue m)) ∧ (u.pub g).sqNum = 0 ∧
      (u.pub g).interval = s.rdN (pbk g 0xB) ∧ (u.pub g).sentAt = u.now ∧
      u.out = [.msg "GOOSE" ([(g.val : Int), s.rd (pbk g 2), u.rd (pbk g 0xE), 0, s.rd (pbk g 9), (2 * s.rdN (pbk g 0xB) : Nat)] ++
        (s.pub g).members.flatMap (fun m => u.memberCode m)) []])) ∧
  (∀ (t : Time) (g : Fin 8) (s : State), s.serverUp = true → s.rdB (pbk g 1) = true → (s.pub g).last ≠ none →
    (s.pub g).sentAt + Time.ms (s.pub g).interval ≤ max t s.now → Completes (.gooseRetransmission t g) s (fun u =>
      (u.pub g).sqNum = ((s.pub g).sqNum + 1) % 2 ^ 32 ∧ (u.pub g).interval = min (2 * (s.pub g).interval) (s.rdN (pbk g 0xA)) ∧
      (u.pub g).sentAt = u.now ∧ u.rdN (pbk g 0xE) = s.rdN (pbk g 0xE) ∧ u.out = [.msg "GOOSE" ([(g.val : Int), s.rd (pbk g 2),
        s.rd (pbk g 0xE), (((s.pub g).sqNum + 1) % 2 ^ 32 : Nat), s.rd (pbk g 9),
        (2 * min (2 * (s.pub g).interval) (s.rdN (pbk g 0xA)) : Nat)] ++ (s.pub g).members.flatMap (fun m => u.memberCode m)) []])) ∧
  (∀ (t : Time) (i : Fin 16) (m : GooseMsg) (e : Nat) (s : State), s.serverUp = true → s.twinRole = 0 → s.rdB (sbk i 1) = true →
    (∀ j, j < 16 → j ≠ i.val → s.rdB (sbk j 1) = false) →
    s.rdN (sbk i 2) = m.pair → s.rdN (sbk i 3) = m.appid → s.blob (sbk i 4) = m.gocbRef → s.blob (sbk i 5) = m.datSet →
    s.rdN (sbk i 6) = m.confRev → s.subEntries i = [e] → e / 2 ^ 48 < 0x7000 → ¬(0x2750 ≤ e / 2 ^ 48 ∧ e / 2 ^ 48 < 0x2760) →
    (m.test = false → m.simulation = false → m.ndsCom = false →
      (∀ b : Batch, s.entryBatch (e / 2 ^ 48) = b → (s.batch b).cyc.isSome = true → Completes (.gooseMessage t m) s (fun u =>
        (∃ x, (u.batch b).jobs = (s.batch b).jobs ++ [(.goose i m, x)]) ∧ u.bit (sbk i 9) 0 = true ∧
        u.rd (key (e / 2 ^ 48) (e / 2 ^ 40 % 256)) = s.rd (key (e / 2 ^ 48) (e / 2 ^ 40 % 256)))) ∧
      ((∀ b : Batch, s.entryBatch (e / 2 ^ 48) = b → (s.batch b).cyc = none) →
      (∀ v, (m.members[e / 2 ^ 24 % 256]?).bind (convert (e / 65536 % 256) (targetTy e)) = some v →
        s.PlainWrite { role := .safety, servicePort := false, sid := nobody } 4 false (e / 2 ^ 48) (e / 2 ^ 40 % 256) 0 ((targetTy e).toBytes v) →
        Completes (.gooseMessage t m) s (fun u => u.rd (key (e / 2 ^ 48) (e / 2 ^ 40 % 256)) =
            valueOf (e / 2 ^ 48) (e / 2 ^ 40 % 256) ((targetTy e).toBytes v) ∧
          Tbl.find? i.val u.net.subs = some { heard := some u.now, ttl := m.ttlMs } ∧ u.bit (sbk i 9) 0 = true ∧ u.bit (sbk i 9) 1 = false ∧
          u.rdN (sbk i 0xA) = (s.rdN (sbk i 0xA) + 1) % 2 ^ 32)) ∧
      ((m.members[e / 2 ^ 24 % 256]?).bind (convert (e / 65536 % 256) (targetTy e)) = none →
        Completes (.gooseMessage t m) s (fun u => u.rd (key (e / 2 ^ 48) (e / 2 ^ 40 % 256)) = s.rd (key (e / 2 ^ 48) (e / 2 ^ 40 % 256)) ∧
          u.rdN (sbk i 0xB) = (s.rdN (sbk i 0xB) + 1) % 2 ^ 32)))) ∧
    (m.test = true ∨ m.simulation = true ∨ m.ndsCom = true → Completes (.gooseMessage t m) s (fun u =>
      u.rd (key (e / 2 ^ 48) (e / 2 ^ 40 % 256)) = s.rd (key (e / 2 ^ 48) (e / 2 ^ 40 % 256)) ∧ u.net.subs = s.net.subs ∧
      u.rdN (sbk i 0xB) = (s.rdN (sbk i 0xB) + 1) % 2 ^ 32))) ∧
  (∀ (t : Time) (i : Fin 16) (e : Nat) (x : SubRec) (h : Time) (s : State), s.serverUp = true → s.twinRole = 0 → s.rdB (sbk i 1) = true →
    s.bit (sbk i 9) 1 = false → Tbl.find? i.val s.net.subs = some x → x.heard = some h → h + Time.ms x.ttl ≤ max t s.now →
    s.subEntries i = [e] → ¬(0x2750 ≤ e / 2 ^ 48 ∧ e / 2 ^ 48 < 0x2760) → (targetTy e).bytes ≤ 2 →
    s.PlainWrite { role := .safety, servicePort := false, sid := nobody } 4 false (e / 2 ^ 48) (e / 2 ^ 40 % 256) 0
      (leBytes (targetTy e).bytes (e % 65536)) →
    Completes (.timeAllowedToLive t i) s (fun u => u.bit (sbk i 9) 0 = false ∧ u.bit (sbk i 9) 1 = true ∧
      u.rdN (sbk i 0xC) = (s.rdN (sbk i 0xC) + 1) % 2 ^ 32 ∧
      u.rd (key (e / 2 ^ 48) (e / 2 ^ 40 % 256)) = valueOf (e / 2 ^ 48) (e / 2 ^ 40 % 256) (leBytes (targetTy e).bytes (e % 65536))))

/-- R350, R355, R359, R370, R371: the lock bits of hardware limits and security configuration; a role key, which only the service port sets; an image
of 120 bytes or more starts the firmware update, a long operation; when it ends the image is pending in the other slot, or that slot is
invalid, with the code of the check that failed; Confirm ends a trial and raises the security version. -/
def Obligations.SecurityAndFirmwareCommandsComplete : Prop :=
  (∀ (t : Time) (q : Req) (s : State), s.serverUp = true → s.longOp = 0 →
    (s.Passes q 0x2600 2 0 1 → Completes (.lockHardwareLimits t q) s (fun u => u.bit (key 0x2600 1) 2 = true ∧ u.locked 2 = true ∧ u.Answered 0 ∧
      ∀ a, a ≠ 2 → u.locked a = s.locked a)) ∧
    (s.Passes q 0x2600 3 0 1 → Completes (.lockSecurityConfiguration t q) s (fun u => u.bit (key 0x2600 1) 3 = true ∧ u.locked 3 = true ∧ u.Answered 0 ∧
      ∀ a, a ≠ 3 → u.locked a = s.locked a))) ∧
  (∀ (t : Time) (q : Req) (r : Role) (k : List Byte) (s : State), s.serverUp = true → s.longOp = 0 → s.Passes q 0x2601 r.rank 0 0 → k.length = 32 →
    (q.servicePort = true → Completes (.roleKey t q r k) s (fun u => u.blob (roleKeyAt r.rank) = k ∧ u.keySet r.rank = true ∧
      u.bit (key 0x2601 5) (r.rank - 1) = true ∧ u.Answered 0)) ∧
    (q.servicePort = false → Completes (.roleKey t q r k) s (fun u => u.blobs = s.blobs ∧ u.Answered 0x0B000005))) ∧
  (∀ (t : Time) (q : Req) (img : List Byte) (s : State), s.serverUp = true → s.longOp = 0 → s.PassesBlob q 0x8F00 1 img → 120 ≤ img.length →
    (s.updateAsks = true → s.partnerEligible = true) → Completes (.firmwareUpdate t q img) s (fun u => u.longOp = 6 ∧ u.rd (key 0x2001 2) = 0 ∧
      u.srv.longImg = img ∧ u.srv.longSid = q.sid ∧ u.srv.longAt = u.now ∧ ¬u.Answered 0)) ∧
  (∀ (t : Time) (q : Req) (img : List Byte) (s : State), s.serverUp = true → s.longOp = 0 → s.PassesBlob q 0x8F00 1 img → 120 ≤ img.length →
    s.updateAsks = true → s.partnerEligible = false → Completes (.firmwareUpdate t q img) s (fun u => u.od = s.od ∧ u.Answered 0x0B0000F4)) ∧
  (∀ (t : Time) (ok : Bool) (s : State) (img : List Byte) (c e : Nat), s.longOp = 6 → img = s.srv.longImg → c = s.imageCheck img →
    e = (if c ≠ 0 then c else if ok then 0 else 0x0B00000A) →
    Completes (.firmwareUpdateComplete t ok) s (fun u => u.longOp = 0 ∧ u.rdN (key 0x2001 3) = e ∧ u.rdN (fwk 6) = e ∧ u.fwRuns = s.fwRuns ∧
      (e = 0 → u.rd (fwk 2) = 2 ∧ u.fwSlot s.fwOther = { img := img, version := fwVersion img, security := fwSecurity img }) ∧
      (e ≠ 0 → (u.fwSlot s.fwOther).valid = false ∧ u.rd (fwk 2) = if s.rdN (fwk 2) = 2 then 0 else s.rd (fwk 2)))) ∧
  (∀ (t : Time) (q : Req) (s : State), s.serverUp = true → s.longOp = 0 → s.Passes q 0x2620 3 0 1 → s.mod.code ∈ [3, 4, 5, 6] →
    (s.rdN (fwk 2) = 1 → Completes (.firmwareConfirm t q) s (fun u => u.rd (fwk 2) = 0 ∧ u.rdN (fwk 5) = (s.fwSlot s.fwRuns).security ∧
      u.fwRuns = s.fwRuns ∧ u.Answered 0)) ∧
    (s.rdN (fwk 2) ≠ 1 → Completes (.firmwareConfirm t q) s (fun u => u.rd (fwk 2) = s.rd (fwk 2) ∧ u.Answered 0x08000022)))
end

