-- ==== Sys2Proof/Laws/Tbl.lean ====
section
/-! SUPPORT. What tables by instance answer after a change, and that every change keeps their order. -/

namespace Sys2Proof.Machine

@[simp] theorem Tbl.find?_set_same {α : Type} (k : Nat) (v : α) (t : Tbl α) : Tbl.find? k (Tbl.set k v t) = some v := by
  induction t with
  | nil => simp [Tbl.set, Tbl.find?]
  | cons e r ih =>
    obtain ⟨j, w⟩ := e
    simp only [Tbl.set]
    split
    · simp [Tbl.find?]
    · split <;> simp_all [Tbl.find?]

theorem Tbl.find?_set_other {α : Type} {j k : Nat} (v : α) (t : Tbl α) (h : j ≠ k) :
    Tbl.find? j (Tbl.set k v t) = Tbl.find? j t := by
  induction t with
  | nil => simp [Tbl.set, Tbl.find?, Ne.symm h]
  | cons e r ih =>
    obtain ⟨i, w⟩ := e
    simp only [Tbl.set]
    split
    · simp [Tbl.find?, Ne.symm h]
    · split
      · rename_i h2; subst h2; simp [Tbl.find?, Ne.symm h]
      · simp [Tbl.find?, ih]

@[simp] theorem Tbl.get_set_same {α : Type} (d : α) (k : Nat) (v : α) (t : Tbl α) : Tbl.get d k (Tbl.set k v t) = v := by
  induction t with
  | nil => simp [Tbl.set, Tbl.get]
  | cons e r ih =>
    obtain ⟨j, w⟩ := e
    simp only [Tbl.set]
    split
    · simp [Tbl.get]
    · split <;> simp_all [Tbl.get]

theorem Tbl.get_set_other {α : Type} (d : α) {j k : Nat} (v : α) (t : Tbl α) (h : j ≠ k) :
    Tbl.get d j (Tbl.set k v t) = Tbl.get d j t := by
  induction t with
  | nil => simp [Tbl.set, Tbl.get, Ne.symm h]
  | cons e r ih =>
    obtain ⟨i, w⟩ := e
    simp only [Tbl.set]
    split
    · simp [Tbl.get, Ne.symm h]
    · split
      · rename_i h2; subst h2; simp [Tbl.get, Ne.symm h]
      · simp [Tbl.get, ih]

theorem Tbl.mem_set_keys {α : Type} {k j : Nat} {v : α} {t : Tbl α}
    (h : j ∈ (Tbl.set k v t).map (fun e => e.1)) : j = k ∨ j ∈ t.map (fun e => e.1) := by
  induction t with
  | nil => simpa [Tbl.set] using h
  | cons e r ih =>
    obtain ⟨i, w⟩ := e
    simp only [Tbl.set] at h
    split at h
    · simpa using h
    · split at h
      · rename_i h2; subst h2; simp at h ⊢; tauto
      · simp only [List.map_cons, List.mem_cons] at h ⊢
        rcases h with h | h
        · exact .inr (.inl h)
        · rcases ih h with h | h
          · exact .inl h
          · exact .inr (.inr h)

theorem Tbl.sorted_set {α : Type} (k : Nat) (v : α) {t : Tbl α} (h : Tbl.Sorted t) : Tbl.Sorted (Tbl.set k v t) := by
  induction t with
  | nil => simp [Tbl.set, Tbl.Sorted]
  | cons e r ih =>
    obtain ⟨i, w⟩ := e
    simp only [Tbl.Sorted, List.map_cons, List.pairwise_cons] at h ih ⊢
    simp only [Tbl.set]
    split
    · rename_i hk
      simp only [List.map_cons, List.pairwise_cons]
      refine ⟨?_, h.1, h.2⟩
      intro a ha
      simp only [List.mem_cons] at ha
      rcases ha with ha | ha
      · omega
      · have := h.1 a ha; omega
    · split
      · rename_i h2; subst h2; simpa using h
      · simp only [List.map_cons, List.pairwise_cons]
        refine ⟨?_, ih h.2⟩
        intro a ha
        rcases Tbl.mem_set_keys ha with ha | ha
        · omega
        · exact h.1 a ha

theorem Tbl.sorted_erase {α : Type} (k : Nat) {t : Tbl α} (h : Tbl.Sorted t) : Tbl.Sorted (Tbl.erase k t) := by
  have sub : ∀ t : Tbl α, (Tbl.erase k t).Sublist t := by
    intro t
    induction t with
    | nil => simp [Tbl.erase]
    | cons e r ih =>
      obtain ⟨i, w⟩ := e
      simp only [Tbl.erase]
      split
      · exact List.sublist_cons_self _ _
      · exact ih.cons_cons _
  exact List.Pairwise.sublist ((sub t).map _) h

theorem Tbl.find?_erase_other {α : Type} {j k : Nat} (t : Tbl α) (h : j ≠ k) : Tbl.find? j (Tbl.erase k t) = Tbl.find? j t := by
  induction t with
  | nil => rfl
  | cons e r ih =>
    obtain ⟨i, w⟩ := e
    simp only [Tbl.erase]
    split
    · rename_i h2; subst h2; simp [Tbl.find?, Ne.symm h]
    · simp [Tbl.find?, ih]

theorem Tbl.find?_filter {α : Type} {k : Nat} (p : Nat × α → Bool) (t : Tbl α) (h : ∀ v, p (k, v) = true) :
    Tbl.find? k (t.filter p) = Tbl.find? k t := by
  induction t with
  | nil => rfl
  | cons e r ih =>
    obtain ⟨i, w⟩ := e
    rw [List.filter_cons]
    split
    · simp [Tbl.find?, ih]
    · rename_i h2
      have : i ≠ k := by rintro rfl; exact h2 (h w)
      simp [Tbl.find?, ih, this]

theorem Tbl.sorted_filter {α : Type} (p : Nat × α → Bool) {t : Tbl α} (h : Tbl.Sorted t) : Tbl.Sorted (t.filter p) :=
  List.Pairwise.sublist (List.filter_sublist.map _) h

end Sys2Proof.Machine
end

