-- ==== Sys2Proof/Laws/Kept.lean ====
section
/-! SUPPORT. The relation Kept (Safety.lean): it holds of what changes nothing, and of every change of one group. -/

namespace Sys2Proof.Machine

/-- The set a lies within the set b. -/
abbrev Sub (a b : Nat) : Prop := a &&& b = a

theorem Sub.trans {a b c : Nat} (h : Sub a b) (k : Sub b c) : Sub a c := by
  unfold Sub at *
  calc a &&& c = (a &&& b) &&& c := by rw [h]
    _ = a &&& (b &&& c) := Nat.and_assoc _ _ _
    _ = a := by rw [k, h]

theorem Sub.bit {m : Nat} {i : Nat} (h : Sub (2 ^ i) m) : m.testBit i = true := by
  have := congrArg (fun x => x.testBit i) h
  simpa [Nat.testBit_and, Nat.testBit_two_pow_self] using this

theorem zone_mono {a b : Nat} (h : a ≤ b) : zone a ≤ zone b := by
  unfold zone
  apply List.countP_mono_left
  intro x _ hx
  simp only [decide_eq_true_eq] at hx ⊢
  omega

theorem zone_le (k : Nat) : zone k ≤ 86 := by
  have : zoneStarts.length = 86 := by decide
  exact this ▸ List.countP_le_length

/-- The set holds every zone from that of key b on. -/
theorem Sub.from {m b k : Nat} (h : Sub (2 ^ 107 - 2 ^ (20 + zone b)) m) (hb : b ≤ k) : m.testBit (20 + zone k) = true := by
  have h1 := zone_mono hb
  have h2 := zone_le k
  have h3 : 2 ^ 107 - 2 ^ (20 + zone b) = (2 ^ (107 - (20 + zone b)) - 1) <<< (20 + zone b) := by
    rw [Nat.shiftLeft_eq, Nat.sub_mul, ← Nat.pow_add, Nat.one_mul]
    congr 2
    omega
  have h4 := congrArg (fun x => x.testBit (20 + zone k)) h
  simp only [Nat.testBit_and, h3, Nat.testBit_shiftLeft, Nat.testBit_two_pow_sub_one] at h4
  have h5 : 20 + zone b ≤ 20 + zone k := by omega
  have h6 : 20 + zone k - (20 + zone b) < 107 - (20 + zone b) := by omega
  simpa [h5, h6] using h4

theorem Kept.refl (m : Nat) (s : State) : Kept m s s := by
  constructor <;> intros <;> first | assumption | exact Nat.le_refl _ | rfl

theorem Kept.trans {m : Nat} {r s t : State} (h : Kept m r s) (k : Kept m s t) : Kept m r t :=
  ⟨k.pending.trans h.pending, k.now.trans h.now, h.fresh.trans k.fresh, fun c => k.canonical (h.canonical c),
    fun e b => (k.numbersSame e b).trans (h.numbersSame e b),
    fun b => (k.stringsSame b).trans (h.stringsSame b),
    fun b => (k.batchesSame b).trans (h.batchesSame b),
    fun b => (k.fixedSame b).trans (h.fixedSame b),
    fun b => (k.floatsSame b).trans (h.floatsSame b),
    fun b => (k.gensSame b).trans (h.gensSame b),
    fun b => (k.fabricSame b).trans (h.fabricSame b),
    fun b => (k.measSame b).trans (h.measSame b),
    fun b => (k.pwmSame b).trans (h.pwmSame b),
    fun b => (k.linksSame b).trans (h.linksSame b),
    fun b => (k.auxSame b).trans (h.auxSame b),
    fun b => (k.islandSame b).trans (h.islandSame b),
    fun b => (k.clockSame b).trans (h.clockSame b),
    fun b => (k.acqSame b).trans (h.acqSame b),
    fun b => (k.logSame b).trans (h.logSame b),
    fun b => (k.rackSame b).trans (h.rackSame b),
    fun b => (k.powerSame b).trans (h.powerSame b),
    fun b => (k.srvSame b).trans (h.srvSame b),
    fun b => (k.netSame b).trans (h.netSame b),
    fun b => (k.freeSame b).trans (h.freeSame b)⟩

theorem Kept.bind {m : Nat} {s0 x : State} {Q : Prop} (hx : Kept m s0 x) (k : Kept m s0 x → Q) : Q := k hx

theorem Kept.snd {m : Nat} {s0 t : State} {α : Type} {p : α × State} {e : α} (he : p = (e, t)) (h : Kept m s0 p.2) : Kept m s0 t := by
  subst he; exact h

theorem Kept.fst {m : Nat} {s0 t : State} {α : Type} {p : State × α} {e : α} (he : p = (t, e)) (h : Kept m s0 p.1) : Kept m s0 t := by
  subst he; exact h

theorem Kept.ite {m : Nat} {s0 s t : State} {c : Prop} [Decidable c] (h : Kept m s0 s) (k : Kept m s0 t) : Kept m s0 (if c then s else t) := by
  split <;> assumption

/-- Kept, of the effect of a host's write. -/
structure EffKept (m : Nat) (s0 : State) (e : Eff) : Prop where
  all : ∀ s : State, Kept m s0 s → Kept m s0 (e.eff s)

theorem EffKept.ite {m : Nat} {s0 : State} {e f : Eff} {c : Prop} [Decidable c] (h : EffKept m s0 e) (k : EffKept m s0 f) :
    EffKept m s0 (if c then e else f) := by
  split <;> assumption

/-- Kept, of every effect of a list. -/
structure EffsKept (m : Nat) (s0 : State) (l : List Eff) : Prop where
  all : ∀ e ∈ l, EffKept m s0 e

theorem EffsKept.nil {m : Nat} {s0 : State} : EffsKept m s0 [] := ⟨fun _ h => absurd h (List.not_mem_nil)⟩

theorem EffsKept.cons {m : Nat} {s0 : State} {e : Eff} {l : List Eff} (h : EffKept m s0 e) (k : EffsKept m s0 l) : EffsKept m s0 (e :: l) :=
  ⟨fun f hf => by rcases List.mem_cons.1 hf with rfl | hf; exacts [h, k.all f hf]⟩

theorem EffsKept.map {m : Nat} {s0 : State} {α : Type} {l : List α} {f : α → Eff} (h : ∀ a, EffKept m s0 (f a)) : EffsKept m s0 (l.map f) :=
  ⟨fun e he => by obtain ⟨a, _, rfl⟩ := List.mem_map.1 he; exact h a⟩

theorem Kept.foldl {m : Nat} {s0 s : State} {α : Type} {l : List α} {f : State → α → State}
    (hf : ∀ (s : State) (a : α), Kept m s0 s → Kept m s0 (f s a)) (h : Kept m s0 s) : Kept m s0 (l.foldl f s) := by
  induction l generalizing s with
  | nil => exact h
  | cons a r ih => exact ih (hf s a h)

theorem Kept.foldl_snd {m : Nat} {s0 : State} {α β : Type} {l : List α} {f : β × State → α → β × State} {p : β × State}
    (hf : ∀ (p : β × State) (a : α), Kept m s0 p.2 → Kept m s0 (f p a).2) (h : Kept m s0 p.2) : Kept m s0 (l.foldl f p).2 := by
  induction l generalizing p with
  | nil => exact h
  | cons a r ih => exact ih (hf p a h)

theorem Kept.foldl_fst {m : Nat} {s0 : State} {α β : Type} {l : List α} {f : State × β → α → State × β} {p : State × β}
    (hf : ∀ (p : State × β) (a : α), Kept m s0 p.1 → Kept m s0 (f p a).1) (h : Kept m s0 p.1) : Kept m s0 (l.foldl f p).1 := by
  induction l generalizing p with
  | nil => exact h
  | cons a r ih => exact ih (hf p a h)

theorem Kept.upd_batches {m : Nat} {s0 s : State} {x} (hm : Sub 0x4 m) (h : Kept m s0 s) : Kept m s0 { s with batches := x } :=
  ⟨h.pending, h.now, h.fresh, h.canonical, h.numbersSame, h.stringsSame, fun b => absurd (Sub.bit (i := 2) hm) (by simp [b]), h.fixedSame, h.floatsSame, h.gensSame, h.fabricSame, h.measSame, h.pwmSame, h.linksSame, h.auxSame, h.islandSame, h.clockSame, h.acqSame, h.logSame, h.rackSame, h.powerSame, h.srvSame, h.netSame, h.freeSame⟩

theorem Kept.upd_fixed {m : Nat} {s0 s : State} {x} (hm : Sub 0x8 m) (h : Kept m s0 s) : Kept m s0 { s with fixed := x } :=
  ⟨h.pending, h.now, h.fresh, h.canonical, h.numbersSame, h.stringsSame, h.batchesSame, fun b => absurd (Sub.bit (i := 3) hm) (by simp [b]), h.floatsSame, h.gensSame, h.fabricSame, h.measSame, h.pwmSame, h.linksSame, h.auxSame, h.islandSame, h.clockSame, h.acqSame, h.logSame, h.rackSame, h.powerSame, h.srvSame, h.netSame, h.freeSame⟩

theorem Kept.upd_floats {m : Nat} {s0 s : State} {x} (hm : Sub 0x10 m) (h : Kept m s0 s) : Kept m s0 { s with floats := x } :=
  ⟨h.pending, h.now, h.fresh, h.canonical, h.numbersSame, h.stringsSame, h.batchesSame, h.fixedSame, fun b => absurd (Sub.bit (i := 4) hm) (by simp [b]), h.gensSame, h.fabricSame, h.measSame, h.pwmSame, h.linksSame, h.auxSame, h.islandSame, h.clockSame, h.acqSame, h.logSame, h.rackSame, h.powerSame, h.srvSame, h.netSame, h.freeSame⟩

theorem Kept.upd_gens {m : Nat} {s0 s : State} {x} (hm : Sub 0x20 m) (h : Kept m s0 s) : Kept m s0 { s with gens := x } :=
  ⟨h.pending, h.now, h.fresh, h.canonical, h.numbersSame, h.stringsSame, h.batchesSame, h.fixedSame, h.floatsSame, fun b => absurd (Sub.bit (i := 5) hm) (by simp [b]), h.fabricSame, h.measSame, h.pwmSame, h.linksSame, h.auxSame, h.islandSame, h.clockSame, h.acqSame, h.logSame, h.rackSame, h.powerSame, h.srvSame, h.netSame, h.freeSame⟩

theorem Kept.upd_fabric {m : Nat} {s0 s : State} {x} (hm : Sub 0x40 m) (h : Kept m s0 s) : Kept m s0 { s with fabric := x } :=
  ⟨h.pending, h.now, h.fresh, h.canonical, h.numbersSame, h.stringsSame, h.batchesSame, h.fixedSame, h.floatsSame, h.gensSame, fun b => absurd (Sub.bit (i := 6) hm) (by simp [b]), h.measSame, h.pwmSame, h.linksSame, h.auxSame, h.islandSame, h.clockSame, h.acqSame, h.logSame, h.rackSame, h.powerSame, h.srvSame, h.netSame, h.freeSame⟩

theorem Kept.upd_meas {m : Nat} {s0 s : State} {x} (hm : Sub 0x80 m) (h : Kept m s0 s) : Kept m s0 { s with meas := x } :=
  ⟨h.pending, h.now, h.fresh, h.canonical, h.numbersSame, h.stringsSame, h.batchesSame, h.fixedSame, h.floatsSame, h.gensSame, h.fabricSame, fun b => absurd (Sub.bit (i := 7) hm) (by simp [b]), h.pwmSame, h.linksSame, h.auxSame, h.islandSame, h.clockSame, h.acqSame, h.logSame, h.rackSame, h.powerSame, h.srvSame, h.netSame, h.freeSame⟩

theorem Kept.upd_pwm {m : Nat} {s0 s : State} {x} (hm : Sub 0x100 m) (h : Kept m s0 s) : Kept m s0 { s with pwm := x } :=
  ⟨h.pending, h.now, h.fresh, h.canonical, h.numbersSame, h.stringsSame, h.batchesSame, h.fixedSame, h.floatsSame, h.gensSame, h.fabricSame, h.measSame, fun b => absurd (Sub.bit (i := 8) hm) (by simp [b]), h.linksSame, h.auxSame, h.islandSame, h.clockSame, h.acqSame, h.logSame, h.rackSame, h.powerSame, h.srvSame, h.netSame, h.freeSame⟩

theorem Kept.upd_links {m : Nat} {s0 s : State} {x} (hm : Sub 0x200 m) (h : Kept m s0 s) : Kept m s0 { s with links := x } :=
  ⟨h.pending, h.now, h.fresh, h.canonical, h.numbersSame, h.stringsSame, h.batchesSame, h.fixedSame, h.floatsSame, h.gensSame, h.fabricSame, h.measSame, h.pwmSame, fun b => absurd (Sub.bit (i := 9) hm) (by simp [b]), h.auxSame, h.islandSame, h.clockSame, h.acqSame, h.logSame, h.rackSame, h.powerSame, h.srvSame, h.netSame, h.freeSame⟩

theorem Kept.upd_aux {m : Nat} {s0 s : State} {x} (hm : Sub 0x400 m) (h : Kept m s0 s) : Kept m s0 { s with aux := x } :=
  ⟨h.pending, h.now, h.fresh, h.canonical, h.numbersSame, h.stringsSame, h.batchesSame, h.fixedSame, h.floatsSame, h.gensSame, h.fabricSame, h.measSame, h.pwmSame, h.linksSame, fun b => absurd (Sub.bit (i := 10) hm) (by simp [b]), h.islandSame, h.clockSame, h.acqSame, h.logSame, h.rackSame, h.powerSame, h.srvSame, h.netSame, h.freeSame⟩

theorem Kept.upd_island {m : Nat} {s0 s : State} {x} (hm : Sub 0x800 m) (h : Kept m s0 s) : Kept m s0 { s with island := x } :=
  ⟨h.pending, h.now, h.fresh, h.canonical, h.numbersSame, h.stringsSame, h.batchesSame, h.fixedSame, h.floatsSame, h.gensSame, h.fabricSame, h.measSame, h.pwmSame, h.linksSame, h.auxSame, fun b => absurd (Sub.bit (i := 11) hm) (by simp [b]), h.clockSame, h.acqSame, h.logSame, h.rackSame, h.powerSame, h.srvSame, h.netSame, h.freeSame⟩

theorem Kept.upd_clock {m : Nat} {s0 s : State} {x} (hm : Sub 0x1000 m) (h : Kept m s0 s) : Kept m s0 { s with clock := x } :=
  ⟨h.pending, h.now, h.fresh, h.canonical, h.numbersSame, h.stringsSame, h.batchesSame, h.fixedSame, h.floatsSame, h.gensSame, h.fabricSame, h.measSame, h.pwmSame, h.linksSame, h.auxSame, h.islandSame, fun b => absurd (Sub.bit (i := 12) hm) (by simp [b]), h.acqSame, h.logSame, h.rackSame, h.powerSame, h.srvSame, h.netSame, h.freeSame⟩

theorem Kept.upd_acq {m : Nat} {s0 s : State} {x} (hm : Sub 0x2000 m) (h : Kept m s0 s) : Kept m s0 { s with acq := x } :=
  ⟨h.pending, h.now, h.fresh, h.canonical, h.numbersSame, h.stringsSame, h.batchesSame, h.fixedSame, h.floatsSame, h.gensSame, h.fabricSame, h.measSame, h.pwmSame, h.linksSame, h.auxSame, h.islandSame, h.clockSame, fun b => absurd (Sub.bit (i := 13) hm) (by simp [b]), h.logSame, h.rackSame, h.powerSame, h.srvSame, h.netSame, h.freeSame⟩

theorem Kept.upd_log {m : Nat} {s0 s : State} {x} (hm : Sub 0x4000 m) (h : Kept m s0 s) : Kept m s0 { s with log := x } :=
  ⟨h.pending, h.now, h.fresh, h.canonical, h.numbersSame, h.stringsSame, h.batchesSame, h.fixedSame, h.floatsSame, h.gensSame, h.fabricSame, h.measSame, h.pwmSame, h.linksSame, h.auxSame, h.islandSame, h.clockSame, h.acqSame, fun b => absurd (Sub.bit (i := 14) hm) (by simp [b]), h.rackSame, h.powerSame, h.srvSame, h.netSame, h.freeSame⟩

theorem Kept.upd_rack {m : Nat} {s0 s : State} {x} (hm : Sub 0x8000 m) (h : Kept m s0 s) : Kept m s0 { s with rack := x } :=
  ⟨h.pending, h.now, h.fresh, h.canonical, h.numbersSame, h.stringsSame, h.batchesSame, h.fixedSame, h.floatsSame, h.gensSame, h.fabricSame, h.measSame, h.pwmSame, h.linksSame, h.auxSame, h.islandSame, h.clockSame, h.acqSame, h.logSame, fun b => absurd (Sub.bit (i := 15) hm) (by simp [b]), h.powerSame, h.srvSame, h.netSame, h.freeSame⟩

theorem Kept.upd_power {m : Nat} {s0 s : State} {x} (hm : Sub 0x10000 m) (h : Kept m s0 s) : Kept m s0 { s with power := x } :=
  ⟨h.pending, h.now, h.fresh, h.canonical, h.numbersSame, h.stringsSame, h.batchesSame, h.fixedSame, h.floatsSame, h.gensSame, h.fabricSame, h.measSame, h.pwmSame, h.linksSame, h.auxSame, h.islandSame, h.clockSame, h.acqSame, h.logSame, h.rackSame, fun b => absurd (Sub.bit (i := 16) hm) (by simp [b]), h.srvSame, h.netSame, h.freeSame⟩

theorem Kept.upd_srv {m : Nat} {s0 s : State} {x} (hm : Sub 0x20000 m) (h : Kept m s0 s) : Kept m s0 { s with srv := x } :=
  ⟨h.pending, h.now, h.fresh, h.canonical, h.numbersSame, h.stringsSame, h.batchesSame, h.fixedSame, h.floatsSame, h.gensSame, h.fabricSame, h.measSame, h.pwmSame, h.linksSame, h.auxSame, h.islandSame, h.clockSame, h.acqSame, h.logSame, h.rackSame, h.powerSame, fun b => absurd (Sub.bit (i := 17) hm) (by simp [b]), h.netSame, h.freeSame⟩

theorem Kept.upd_net {m : Nat} {s0 s : State} {x} (hm : Sub 0x40000 m) (h : Kept m s0 s) : Kept m s0 { s with net := x } :=
  ⟨h.pending, h.now, h.fresh, h.canonical, h.numbersSame, h.stringsSame, h.batchesSame, h.fixedSame, h.floatsSame, h.gensSame, h.fabricSame, h.measSame, h.pwmSame, h.linksSame, h.auxSame, h.islandSame, h.clockSame, h.acqSame, h.logSame, h.rackSame, h.powerSame, h.srvSame, fun b => absurd (Sub.bit (i := 18) hm) (by simp [b]), h.freeSame⟩

theorem Kept.upd_out {m : Nat} {s0 s : State} {x} (h : Kept m s0 s) : Kept m s0 { s with out := x } :=
  ⟨h.pending, h.now, h.fresh, h.canonical, h.numbersSame, h.stringsSame, h.batchesSame, h.fixedSame, h.floatsSame, h.gensSame, h.fabricSame, h.measSame, h.pwmSame, h.linksSame, h.auxSame, h.islandSame, h.clockSame, h.acqSame, h.logSame, h.rackSame, h.powerSame, h.srvSame, h.netSame, h.freeSame⟩

theorem Kept.upd_od {m : Nat} {s0 s : State} {x} (hx : Tbl.Sorted s.od → Tbl.Sorted x)
    (hk : ∀ k, m.testBit (20 + zone k) = false → Tbl.find? k x = Tbl.find? k s.od) (h : Kept m s0 s) : Kept m s0 { s with od := x } :=
  ⟨h.pending, h.now, h.fresh, fun c => ⟨hx (h.canonical c).1, (h.canonical c).2⟩, fun e b => (hk e b).trans (h.numbersSame e b), h.stringsSame, h.batchesSame, h.fixedSame, h.floatsSame, h.gensSame, h.fabricSame, h.measSame, h.pwmSame, h.linksSame, h.auxSame, h.islandSame, h.clockSame, h.acqSame, h.logSame, h.rackSame, h.powerSame, h.srvSame, h.netSame, h.freeSame⟩

theorem Kept.upd_blobs {m : Nat} {s0 s : State} {x} (hm : Sub 0x2 m) (hx : Tbl.Sorted s.blobs → Tbl.Sorted x) (h : Kept m s0 s) : Kept m s0 { s with blobs := x } :=
  ⟨h.pending, h.now, h.fresh, fun c => ⟨(h.canonical c).1, hx (h.canonical c).2⟩, h.numbersSame, fun b => absurd (Sub.bit (i := 1) hm) (by simp [b]), h.batchesSame, h.fixedSame, h.floatsSame, h.gensSame, h.fabricSame, h.measSame, h.pwmSame, h.linksSame, h.auxSame, h.islandSame, h.clockSame, h.acqSame, h.logSame, h.rackSame, h.powerSame, h.srvSame, h.netSame, h.freeSame⟩

end Sys2Proof.Machine
end

