-- ==== Sys2Proof/Laws/KeptOps.lean ====
section
/-! SUPPORT. What the operations of Machine/Ops.lean may change (Safety.lean, Kept): one lemma for each. -/

set_option linter.all false

namespace Sys2Proof.Machine

theorem State.when_kept {mm : Nat} {s0 s : State} {c : Bool} {f : State → State} (hm : Sub 0x0 mm) (hf : ∀ (s : State), Kept mm s0 s → Kept mm s0 (f s)) (h : Kept mm s0 s) : Kept mm s0 (State.when c f s) := by
  unfold State.when
  repeat' first
    | (intro x; refine Kept.bind (s0 := s0) (m := mm) (x := x) ?_ ?_; subst x; rotate_left; clear_value x; intro _)
    | (intro y; clear_value y)
    | intro _
    | with_reducible assumption
    | with_reducible lift_lets -underBinder
    | with_reducible apply hf
    | with_reducible apply Kept.ite
    | with_reducible split
    | split

theorem State.wr_kept {mm : Nat} {s0 s : State} {k : Nat} {v : Int} (hk : mm.testBit (20 + zone k) = true) (h : Kept mm s0 s) :
    Kept mm s0 (State.wr k v s) :=
  Kept.upd_od (Tbl.sorted_set k v) (fun j hj => Tbl.find?_set_other v s.od (by rintro rfl; simp [hk] at hj)) h

theorem State.wrF_kept {mm : Nat} {s0 s : State} {k : Nat} {v : F32} (hk : mm.testBit (20 + zone k) = true) (h : Kept mm s0 s) :
    Kept mm s0 (State.wrF k v s) := State.wr_kept hk h

theorem State.clr_kept {mm : Nat} {s0 s : State} {k : Nat} (hk : mm.testBit (20 + zone k) = true) (h : Kept mm s0 s) :
    Kept mm s0 (State.clr k s) :=
  Kept.upd_od (Tbl.sorted_erase k) (fun j hj => Tbl.find?_erase_other s.od (by rintro rfl; simp [hk] at hj)) h

theorem State.inc_kept {mm : Nat} {s0 s : State} {k n : Nat} (hk : mm.testBit (20 + zone k) = true) (h : Kept mm s0 s) :
    Kept mm s0 (State.inc k s n) := State.wr_kept hk h

theorem State.setBit_kept {mm : Nat} {s0 s : State} {k i : Nat} {v : Bool} (hk : mm.testBit (20 + zone k) = true) (h : Kept mm s0 s) :
    Kept mm s0 (State.setBit k i v s) := State.wr_kept hk h

theorem State.wrBlob_kept {mm : Nat} {s0 s : State} {k : Nat} {l : List Byte} (hm : Sub 0x2 mm) (h : Kept mm s0 s) :
    Kept mm s0 (State.wrBlob k l s) :=
  Kept.upd_blobs hm (Tbl.sorted_set k l) h

theorem State.emit_kept {mm : Nat} {s0 s : State} {o : Output} (hm : Sub 0x0 mm) (h : Kept mm s0 s) : Kept mm s0 (State.emit o s) := by
  unfold State.emit
  repeat' first
    | (intro x; refine Kept.bind (s0 := s0) (m := mm) (x := x) ?_ ?_; subst x; rotate_left; clear_value x; intro _)
    | (intro y; clear_value y)
    | intro _
    | with_reducible assumption
    | with_reducible lift_lets -underBinder
    | with_reducible apply Kept.ite
    | with_reducible split
    | split
    | with_reducible exact Kept.upd_out (by assumption)

theorem State.msg_kept {mm : Nat} {s0 s : State} {kind : String} {fields : List Int} {data : List Byte} (hm : Sub 0x0 mm) (h : Kept mm s0 s) : Kept mm s0 (State.msg kind fields data s) := by
  unfold State.msg
  repeat' first
    | (intro x; refine Kept.bind (s0 := s0) (m := mm) (x := x) ?_ ?_; subst x; rotate_left; clear_value x; intro _)
    | (intro y; clear_value y)
    | intro _
    | with_reducible assumption
    | with_reducible lift_lets -underBinder
    | with_reducible apply State.emit_kept hm
    | with_reducible apply Kept.ite
    | with_reducible split
    | split

theorem State.answer_kept {mm : Nat} {s0 s : State} {abort : Nat} (hm : Sub 0x0 mm) (h : Kept mm s0 s) : Kept mm s0 (State.answer abort s) := by
  unfold State.answer
  repeat' first
    | (intro x; refine Kept.bind (s0 := s0) (m := mm) (x := x) ?_ ?_; subst x; rotate_left; clear_value x; intro _)
    | (intro y; clear_value y)
    | intro _
    | with_reducible assumption
    | with_reducible lift_lets -underBinder
    | with_reducible apply State.emit_kept hm
    | with_reducible apply Kept.ite
    | with_reducible split
    | split

theorem State.draw_kept {mm : Nat} {s0 s : State} (hm : Sub 0x80000 mm) (h : Kept mm s0 s) : Kept mm s0 (State.draw s).2 :=
  ⟨h.pending, h.now, Nat.le_succ_of_le h.fresh, h.canonical, h.numbersSame, h.stringsSame, h.batchesSame, h.fixedSame, h.floatsSame, h.gensSame, h.fabricSame, h.measSame, h.pwmSame, h.linksSame, h.auxSame, h.islandSame, h.clockSame, h.acqSame, h.logSame, h.rackSame, h.powerSame, h.srvSame, h.netSame,
    fun b => absurd (Sub.bit (i := 19) hm) (by simp [b])⟩

theorem State.setBatch_kept {mm : Nat} {s0 s : State} {b : Nat} {r : BatchRec} (hm : Sub 0x4 mm) (h : Kept mm s0 s) : Kept mm s0 (State.setBatch b r s) := by
  unfold State.setBatch
  repeat' first
    | (intro x; refine Kept.bind (s0 := s0) (m := mm) (x := x) ?_ ?_; subst x; rotate_left; clear_value x; intro _)
    | (intro y; clear_value y)
    | intro _
    | with_reducible assumption
    | with_reducible lift_lets -underBinder
    | with_reducible apply Kept.ite
    | with_reducible split
    | split
    | with_reducible apply Kept.upd_batches hm

theorem State.modBatch_kept {mm : Nat} {s0 s : State} {b : Nat} {f : BatchRec → BatchRec} (hm : Sub 0x4 mm) (h : Kept mm s0 s) : Kept mm s0 (State.modBatch b f s) := by
  unfold State.modBatch
  repeat' first
    | (intro x; refine Kept.bind (s0 := s0) (m := mm) (x := x) ?_ ?_; subst x; rotate_left; clear_value x; intro _)
    | (intro y; clear_value y)
    | intro _
    | with_reducible assumption
    | with_reducible lift_lets -underBinder
    | with_reducible apply State.setBatch_kept hm
    | with_reducible apply Kept.ite
    | with_reducible split
    | split

theorem State.setFx_kept {mm : Nat} {s0 s : State} {i : Nat} {r : FixedSlot} (hm : Sub 0x8 mm) (h : Kept mm s0 s) : Kept mm s0 (State.setFx i r s) := by
  unfold State.setFx
  repeat' first
    | (intro x; refine Kept.bind (s0 := s0) (m := mm) (x := x) ?_ ?_; subst x; rotate_left; clear_value x; intro _)
    | (intro y; clear_value y)
    | intro _
    | with_reducible assumption
    | with_reducible lift_lets -underBinder
    | with_reducible apply Kept.ite
    | with_reducible split
    | split
    | with_reducible apply Kept.upd_fixed hm

theorem State.setFl_kept {mm : Nat} {s0 s : State} {i : Nat} {r : FloatSlot} (hm : Sub 0x10 mm) (h : Kept mm s0 s) : Kept mm s0 (State.setFl i r s) := by
  unfold State.setFl
  repeat' first
    | (intro x; refine Kept.bind (s0 := s0) (m := mm) (x := x) ?_ ?_; subst x; rotate_left; clear_value x; intro _)
    | (intro y; clear_value y)
    | intro _
    | with_reducible assumption
    | with_reducible lift_lets -underBinder
    | with_reducible apply Kept.ite
    | with_reducible split
    | split
    | with_reducible apply Kept.upd_floats hm

theorem State.setGen_kept {mm : Nat} {s0 s : State} {i : Nat} {r : GenSlot} (hm : Sub 0x20 mm) (h : Kept mm s0 s) : Kept mm s0 (State.setGen i r s) := by
  unfold State.setGen
  repeat' first
    | (intro x; refine Kept.bind (s0 := s0) (m := mm) (x := x) ?_ ?_; subst x; rotate_left; clear_value x; intro _)
    | (intro y; clear_value y)
    | intro _
    | with_reducible assumption
    | with_reducible lift_lets -underBinder
    | with_reducible apply Kept.ite
    | with_reducible split
    | split
    | with_reducible apply Kept.upd_gens hm

theorem State.each_kept {mm : Nat} {s0 s : State} {α : Type} {l : List α} {f : α → State → State} (_ : Sub 0x0 mm)
    (hf : ∀ (a : α) (s : State), Kept mm s0 s → Kept mm s0 (f a s)) (h : Kept mm s0 s) : Kept mm s0 (State.each l f s) := by
  unfold State.each
  induction l generalizing s with
  | nil => exact h
  | cons a r ih => exact ih (hf a s h)

theorem State.incQueue_kept {mm : Nat} {s0 s : State} {b sub : Nat} (hm : Sub 0x7fffffc00000000000000000000 mm) (h : Kept mm s0 s) : Kept mm s0 (State.incQueue b sub s) := by
  have kz : Sub (2 ^ 107 - 2 ^ (20 + zone 0x65000000)) mm := Sub.trans (by decide) hm
  unfold State.incQueue
  repeat' first
    | (intro x; refine Kept.bind (s0 := s0) (m := mm) (x := x) ?_ ?_; subst x; rotate_left; clear_value x; intro _)
    | (intro y; clear_value y)
    | intro _
    | with_reducible assumption
    | with_reducible lift_lets -underBinder
    | with_reducible refine State.inc_kept ?_ ?_
    | exact Sub.bit (Sub.trans (by decide) hm)
    | (refine Sub.from (b := 0x65000000) kz ?_; (try simp only [key, bk]); omega)
    | with_reducible apply Kept.ite
    | with_reducible split
    | split

theorem State.notePeak_kept {mm : Nat} {s0 s : State} {b : Nat} (hm : Sub 0x7fffffc00000000000000000000 mm) (h : Kept mm s0 s) : Kept mm s0 (State.notePeak b s) := by
  have kz : Sub (2 ^ 107 - 2 ^ (20 + zone 0x65000600)) mm := Sub.trans (by decide) hm
  unfold State.notePeak
  repeat' first
    | (intro x; refine Kept.bind (s0 := s0) (m := mm) (x := x) ?_ ?_; subst x; rotate_left; clear_value x; intro _)
    | (intro y; clear_value y)
    | intro _
    | with_reducible assumption
    | with_reducible lift_lets -underBinder
    | with_reducible refine State.wr_kept ?_ ?_
    | exact Sub.bit (Sub.trans (by decide) hm)
    | (refine Sub.from (b := 0x65000600) kz ?_; (try simp only [key, bk]); omega)
    | with_reducible apply Kept.ite
    | with_reducible split
    | split

theorem State.setCode_kept {mm : Nat} {s0 s : State} {c : Nat} {r : CodeRec} (hm : Sub 0x4000 mm) (h : Kept mm s0 s) : Kept mm s0 (State.setCode c r s) := by
  unfold State.setCode
  repeat' first
    | (intro x; refine Kept.bind (s0 := s0) (m := mm) (x := x) ?_ ?_; subst x; rotate_left; clear_value x; intro _)
    | (intro y; clear_value y)
    | intro _
    | with_reducible assumption
    | with_reducible lift_lets -underBinder
    | with_reducible apply Kept.ite
    | with_reducible split
    | split
    | with_reducible apply Kept.upd_log hm

theorem State.enqueueEvent_kept {mm : Nat} {s0 s : State} {e : Event} (hm : Sub 0x200000000000000000004000 mm) (h : Kept mm s0 s) : Kept mm s0 (State.enqueueEvent e s) := by
  have k0 : Sub 0x4000 mm := Sub.trans (by decide) hm
  unfold State.enqueueEvent
  repeat' first
    | (intro x; refine Kept.bind (s0 := s0) (m := mm) (x := x) ?_ ?_; subst x; rotate_left; clear_value x; intro _)
    | (intro y; have w_ : State → State := y; clear w_; subst y)
    | (intro y; clear_value y)
    | intro _
    | with_reducible assumption
    | with_reducible lift_lets -underBinder
    | with_reducible apply State.setCode_kept k0
    | with_reducible refine State.inc_kept ?_ ?_
    | with_reducible refine State.wr_kept ?_ ?_
    | exact Sub.bit (Sub.trans (by decide) hm)
    | with_reducible apply Kept.ite
    | with_reducible split
    | split
    | with_reducible apply Kept.upd_log k0
    | dsimp -zeta only

theorem State.emcy_kept {mm : Nat} {s0 s : State} {e : Event} (hm : Sub 0x0 mm) (h : Kept mm s0 s) : Kept mm s0 (State.emcy e s) := by
  unfold State.emcy
  repeat' first
    | (intro x; refine Kept.bind (s0 := s0) (m := mm) (x := x) ?_ ?_; subst x; rotate_left; clear_value x; intro _)
    | (intro y; clear_value y)
    | intro _
    | with_reducible assumption
    | with_reducible lift_lets -underBinder
    | with_reducible apply State.each_kept hm
    | with_reducible apply State.msg_kept hm
    | with_reducible apply Kept.ite
    | with_reducible split
    | split

theorem State.putEvent_kept {mm : Nat} {s0 s : State} {code inst : Nat} {data : List Byte} (hm : Sub 0x200000000000000000004000 mm) (h : Kept mm s0 s) : Kept mm s0 (State.putEvent code inst data s) := by
  have k0 : Sub 0x4000 mm := Sub.trans (by decide) hm
  have k1 : Sub 0x0 mm := Sub.trans (by decide) hm
  unfold State.putEvent
  repeat' first
    | (intro x; refine Kept.bind (s0 := s0) (m := mm) (x := x) ?_ ?_; subst x; rotate_left; clear_value x; intro _)
    | (intro y; clear_value y)
    | intro _
    | with_reducible assumption
    | with_reducible lift_lets -underBinder
    | with_reducible apply State.setCode_kept k0
    | with_reducible apply State.enqueueEvent_kept hm
    | with_reducible apply State.emcy_kept k1
    | with_reducible refine State.inc_kept ?_ ?_
    | exact Sub.bit (Sub.trans (by decide) hm)
    | with_reducible apply Kept.ite
    | with_reducible split
    | split

theorem State.modRack_kept {mm : Nat} {s0 s : State} {f : Rack → Rack} (hm : Sub 0x8000 mm) (h : Kept mm s0 s) : Kept mm s0 (State.modRack f s) := by
  unfold State.modRack
  repeat' first
    | (intro x; refine Kept.bind (s0 := s0) (m := mm) (x := x) ?_ ?_; subst x; rotate_left; clear_value x; intro _)
    | (intro y; clear_value y)
    | intro _
    | with_reducible assumption
    | with_reducible lift_lets -underBinder
    | with_reducible apply Kept.ite
    | with_reducible split
    | split
    | with_reducible apply Kept.upd_rack hm

theorem State.modSrv_kept {mm : Nat} {s0 s : State} {f : Server → Server} (hm : Sub 0x20000 mm) (h : Kept mm s0 s) : Kept mm s0 (State.modSrv f s) := by
  unfold State.modSrv
  repeat' first
    | (intro x; refine Kept.bind (s0 := s0) (m := mm) (x := x) ?_ ?_; subst x; rotate_left; clear_value x; intro _)
    | (intro y; clear_value y)
    | intro _
    | with_reducible assumption
    | with_reducible lift_lets -underBinder
    | with_reducible apply Kept.ite
    | with_reducible split
    | split
    | with_reducible apply Kept.upd_srv hm

theorem State.rackMsg_kept {mm : Nat} {s0 s : State} {kind : String} {dst : Nat} {l : List Int} (hm : Sub 0x8000 mm) (h : Kept mm s0 s) : Kept mm s0 (State.rackMsg kind dst l s) := by
  have k0 : Sub 0x0 mm := Sub.trans (by decide) hm
  unfold State.rackMsg
  repeat' first
    | (intro x; refine Kept.bind (s0 := s0) (m := mm) (x := x) ?_ ?_; subst x; rotate_left; clear_value x; intro _)
    | (intro y; clear_value y)
    | intro _
    | with_reducible assumption
    | with_reducible lift_lets -underBinder
    | with_reducible apply State.modRack_kept hm
    | with_reducible apply State.msg_kept k0
    | with_reducible apply Kept.ite
    | with_reducible split
    | split

theorem State.hear_kept {mm : Nat} {s0 s : State} {i : Nat} (hm : Sub 0x80000008000 mm) (h : Kept mm s0 s) : Kept mm s0 (State.hear i s) := by
  have k0 : Sub 0x8000 mm := Sub.trans (by decide) hm
  unfold State.hear
  repeat' first
    | (intro x; refine Kept.bind (s0 := s0) (m := mm) (x := x) ?_ ?_; subst x; rotate_left; clear_value x; intro _)
    | (intro y; clear_value y)
    | intro _
    | with_reducible assumption
    | with_reducible lift_lets -underBinder
    | with_reducible apply State.modRack_kept k0
    | with_reducible refine State.setBit_kept ?_ ?_
    | with_reducible refine State.wr_kept ?_ ?_
    | exact Sub.bit (Sub.trans (by decide) hm)
    | with_reducible apply Kept.ite
    | with_reducible split
    | split

theorem State.setAcqBuf_kept {mm : Nat} {s0 s : State} {k : Nat} {x : AcqBuf} (hm : Sub 0x2000 mm) (h : Kept mm s0 s) : Kept mm s0 (State.setAcqBuf k x s) := by
  unfold State.setAcqBuf
  repeat' first
    | (intro x; refine Kept.bind (s0 := s0) (m := mm) (x := x) ?_ ?_; subst x; rotate_left; clear_value x; intro _)
    | (intro y; clear_value y)
    | intro _
    | with_reducible assumption
    | with_reducible lift_lets -underBinder
    | with_reducible apply Kept.ite
    | with_reducible split
    | split
    | with_reducible apply Kept.upd_acq hm

theorem State.setTrig_kept {mm : Nat} {s0 s : State} {u : Nat} {x : TrigRec} (hm : Sub 0x2000 mm) (h : Kept mm s0 s) : Kept mm s0 (State.setTrig u x s) := by
  unfold State.setTrig
  repeat' first
    | (intro x; refine Kept.bind (s0 := s0) (m := mm) (x := x) ?_ ?_; subst x; rotate_left; clear_value x; intro _)
    | (intro y; clear_value y)
    | intro _
    | with_reducible assumption
    | with_reducible lift_lets -underBinder
    | with_reducible apply Kept.ite
    | with_reducible split
    | split
    | with_reducible apply Kept.upd_acq hm

theorem State.showCapture_kept {mm : Nat} {s0 s : State} {k : Nat} (hm : Sub 0x7fff00000000000000000000000 mm) (h : Kept mm s0 s) : Kept mm s0 (State.showCapture k s) := by
  have kz : Sub (2 ^ 107 - 2 ^ (20 + zone 0x70e00200)) mm := Sub.trans (by decide) hm
  unfold State.showCapture
  repeat' first
    | (intro x; refine Kept.bind (s0 := s0) (m := mm) (x := x) ?_ ?_; subst x; rotate_left; clear_value x; intro _)
    | (intro y; clear_value y)
    | intro _
    | with_reducible assumption
    | with_reducible lift_lets -underBinder
    | with_reducible refine State.wr_kept ?_ ?_
    | exact Sub.bit (Sub.trans (by decide) hm)
    | (refine Sub.from (b := 0x70e00200) kz ?_; (try simp only [key, bk, bfk]); omega)
    | with_reducible apply Kept.ite
    | with_reducible split
    | split

theorem State.captureFire_kept {mm : Nat} {s0 s : State} {slot unit : Nat} {tm : Time} (hm : Sub 0x7fff10000000000000000002000 mm) (h : Kept mm s0 s) : Kept mm s0 (State.captureFire slot unit tm s).1 := by
  have k0 : Sub 0x2000 mm := Sub.trans (by decide) hm
  have k1 : Sub 0x7fff00000000000000000000000 mm := Sub.trans (by decide) hm
  have kz : Sub (2 ^ 107 - 2 ^ (20 + zone 0x70e00100)) mm := Sub.trans (by decide) hm
  unfold State.captureFire
  repeat' first
    | (intro x; refine Kept.bind (s0 := s0) (m := mm) (x := x) ?_ ?_; subst x; rotate_left; clear_value x; intro _)
    | (intro y; clear_value y)
    | intro _
    | with_reducible assumption
    | with_reducible lift_lets -underBinder
    | with_reducible apply State.setAcqBuf_kept k0
    | with_reducible apply State.showCapture_kept k1
    | with_reducible refine State.inc_kept ?_ ?_
    | with_reducible refine State.wr_kept ?_ ?_
    | exact Sub.bit (Sub.trans (by decide) hm)
    | (refine Sub.from (b := 0x70e00100) kz ?_; (try simp only [key, bk, aqk, bfk]); omega)
    | with_reducible apply Kept.ite
    | with_reducible split
    | split

theorem State.fireUnit_kept {mm : Nat} {s0 s : State} {log : Nat → Nat → List Byte → State → State} {u : Nat} {tm : Time} (hm : Sub 0x7fffd000000000000000000a000 mm) (hlog : ∀ (x0 : Nat) (x1 : Nat) (x2 : List Byte) (s : State), Kept mm s0 s → Kept mm s0 (log x0 x1 x2 s)) (h : Kept mm s0 s) : Kept mm s0 (State.fireUnit log u tm s) := by
  have k0 : Sub 0x7fff10000000000000000002000 mm := Sub.trans (by decide) hm
  have k1 : Sub 0x8000 mm := Sub.trans (by decide) hm
  have kz : Sub (2 ^ 107 - 2 ^ (20 + zone 0x70100d00)) mm := Sub.trans (by decide) hm
  unfold State.fireUnit
  repeat' first
    | (intro x; refine Kept.bind (s0 := s0) (m := mm) (x := x) ?_ ?_; subst x; rotate_left; clear_value x; intro _)
    | (intro y; have w_ : State × Bool := y; clear w_)
    | (intro y; clear_value y)
    | intro _
    | with_reducible assumption
    | with_reducible lift_lets -underBinder
    | with_reducible apply hlog
    | with_reducible apply State.captureFire_kept k0
    | with_reducible apply State.rackMsg_kept k1
    | with_reducible refine State.inc_kept ?_ ?_
    | with_reducible refine State.wr_kept ?_ ?_
    | exact Sub.bit (Sub.trans (by decide) hm)
    | (refine Sub.from (b := 0x70100d00) kz ?_; (try simp only [key, bk, tuk]); omega)
    | with_reducible apply Kept.ite
    | with_reducible split
    | split
    | with_reducible refine Kept.snd (by assumption) ?_
    | with_reducible refine Kept.fst (by assumption) ?_

theorem State.asOf_kept {mm : Nat} {s0 s : State} {d : Time} {f : State → State} (_ : Sub 0x0 mm)
    (hf : ∀ (r s : State), Kept mm r s → Kept mm r (f s)) (h : Kept mm s0 s) : Kept mm s0 (State.asOf d f s) := by
  have k := hf { s0 with now := d } { s with now := d } ⟨h.pending, rfl, h.fresh, h.canonical, h.numbersSame, h.stringsSame, h.batchesSame, h.fixedSame, h.floatsSame, h.gensSame, h.fabricSame, h.measSame, h.pwmSame, h.linksSame, h.auxSame, h.islandSame, h.clockSame, h.acqSame, h.logSame, h.rackSame, h.powerSame, h.srvSame, h.netSame, h.freeSame⟩
  exact ⟨k.pending, h.now, k.fresh, k.canonical, k.numbersSame, k.stringsSame, k.batchesSame, k.fixedSame, k.floatsSame, k.gensSame, k.fabricSame, k.measSame, k.pwmSame, k.linksSame, k.auxSame, k.islandSame, k.clockSame, k.acqSame, k.logSame, k.rackSame, k.powerSame, k.srvSame, k.netSame, k.freeSame⟩

theorem State.everyUpdate_kept {mm : Nat} {s0 s : State} {log : Nat → Nat → List Byte → State → State} {u : Nat} {tm : Time} (hm : Sub 0x7fffd000000000000000000a000 mm) (hlog : ∀ (x0 : Nat) (x1 : Nat) (x2 : List Byte) (s : State), Kept mm s0 s → Kept mm s0 (log x0 x1 x2 s)) (h : Kept mm s0 s) : Kept mm s0 (State.everyUpdate log u tm s) := by
  have k0 : Sub 0x2000 mm := Sub.trans (by decide) hm
  have kz : Sub (2 ^ 107 - 2 ^ (20 + zone 0x70100f00)) mm := Sub.trans (by decide) hm
  unfold State.everyUpdate
  repeat' first
    | (intro x; refine Kept.bind (s0 := s0) (m := mm) (x := x) ?_ ?_; subst x; rotate_left; clear_value x; intro _)
    | (intro y; clear_value y)
    | intro _
    | with_reducible assumption
    | with_reducible lift_lets -underBinder
    | with_reducible apply hlog
    | with_reducible apply State.setTrig_kept k0
    | with_reducible apply State.fireUnit_kept hm
    | with_reducible refine State.wr_kept ?_ ?_
    | exact Sub.bit (Sub.trans (by decide) hm)
    | (refine Sub.from (b := 0x70100f00) kz ?_; (try simp only [key, bk, tuk]); omega)
    | with_reducible apply Kept.ite
    | with_reducible split
    | split

theorem State.logChain_kept {mm : Nat} {s0 s : State} {fuel : Nat} {used : List Nat} {code inst : Nat} {data : List Byte}
    (hm : Sub 0x7fffd000000000000000000e000 mm) (h : Kept mm s0 s) : Kept mm s0 (State.logChain fuel used code inst data s) := by
  have k0 : Sub 0x200000000000000000004000 mm := Sub.trans (by decide) hm
  have k1 : Sub 0x7fffd000000000000000000a000 mm := Sub.trans (by decide) hm
  induction fuel generalizing used code inst data s with
  | zero => exact State.putEvent_kept k0 h
  | succ n ih =>
    unfold State.logChain
    exact State.each_kept (Sub.trans (by decide) k0) (fun u s h => State.everyUpdate_kept k1 (fun _ _ _ s h => ih h) h) (State.putEvent_kept k0 h)

theorem State.logUnits_kept {mm : Nat} {s0 s : State} {fuel : Nat} {used : List Nat} {code : Nat} (hm : Sub 0x7fffd000000000000000000e000 mm) (h : Kept mm s0 s) : Kept mm s0 (State.logUnits fuel used code s) := by
  have k0 : Sub 0x0 mm := Sub.trans (by decide) hm
  have k1 : Sub 0x7fffd000000000000000000a000 mm := Sub.trans (by decide) hm
  unfold State.logUnits
  repeat' first
    | (intro x; refine Kept.bind (s0 := s0) (m := mm) (x := x) ?_ ?_; subst x; rotate_left; clear_value x; intro _)
    | (intro y; clear_value y)
    | intro _
    | with_reducible assumption
    | with_reducible lift_lets -underBinder
    | with_reducible apply State.each_kept k0
    | with_reducible apply State.everyUpdate_kept k1
    | with_reducible apply State.logChain_kept hm
    | with_reducible apply Kept.ite
    | with_reducible split
    | split

theorem State.logEvent_kept {mm : Nat} {s0 s : State} {code inst : Nat} {data : List Byte} (hm : Sub 0x7fffd000000000000000000e000 mm) (h : Kept mm s0 s) : Kept mm s0 (State.logEvent code inst data s) := by
  unfold State.logEvent
  repeat' first
    | (intro x; refine Kept.bind (s0 := s0) (m := mm) (x := x) ?_ ?_; subst x; rotate_left; clear_value x; intro _)
    | (intro y; clear_value y)
    | intro _
    | with_reducible assumption
    | with_reducible lift_lets -underBinder
    | with_reducible apply State.logChain_kept hm
    | with_reducible apply Kept.ite
    | with_reducible split
    | split

end Sys2Proof.Machine
end

