-- ==== Sys2Proof/Laws/KeptAccess.lean ====
section
/-! SUPPORT. What the operations of Machine/Access.lean may change (Safety.lean, Kept): one lemma for each. -/

set_option linter.all false

namespace Sys2Proof.Machine

theorem State.refuse_kept {mm : Nat} {s0 s : State} {q : Req} {index sub e : Nat} (hm : Sub 0x7fffd000000000000000000e000 mm) (h : Kept mm s0 s) : Kept mm s0 (State.refuse q index sub e s) := by
  have k0 : Sub 0x0 mm := Sub.trans (by decide) hm
  unfold State.refuse
  repeat' first
    | (intro x; refine Kept.bind (s0 := s0) (m := mm) (x := x) ?_ ?_; subst x; rotate_left; clear_value x; intro _)
    | (intro y; clear_value y)
    | intro _
    | with_reducible assumption
    | with_reducible lift_lets -underBinder
    | with_reducible apply State.answer_kept k0
    | with_reducible apply State.logEvent_kept hm
    | with_reducible apply Kept.ite
    | with_reducible split
    | split

theorem State.setSession_kept {mm : Nat} {s0 s : State} {sid : Nat} {x : Session} (hm : Sub 0x20000 mm) (h : Kept mm s0 s) : Kept mm s0 (State.setSession sid x s) := by
  unfold State.setSession
  repeat' first
    | (intro x; refine Kept.bind (s0 := s0) (m := mm) (x := x) ?_ ?_; subst x; rotate_left; clear_value x; intro _)
    | (intro y; clear_value y)
    | intro _
    | with_reducible assumption
    | with_reducible lift_lets -underBinder
    | with_reducible apply Kept.ite
    | with_reducible split
    | split
    | with_reducible apply Kept.upd_srv hm

theorem State.datagram_kept {mm : Nat} {s0 s : State} {d : Datagram} {l : List Byte} (hm : Sub 0x0 mm) (h : Kept mm s0 s) : Kept mm s0 (State.datagram d l s) := by
  unfold State.datagram
  repeat' first
    | (intro x; refine Kept.bind (s0 := s0) (m := mm) (x := x) ?_ ?_; subst x; rotate_left; clear_value x; intro _)
    | (intro y; clear_value y)
    | intro _
    | with_reducible assumption
    | with_reducible lift_lets -underBinder
    | with_reducible apply State.msg_kept hm
    | with_reducible apply Kept.ite
    | with_reducible split
    | split

theorem State.respond_kept {mm : Nat} {s0 s : State} {sid flags progress param : Nat} {data : List Byte} {accept : Bool} (hm : Sub 0x20000 mm) (h : Kept mm s0 s) : Kept mm s0 (State.respond sid flags progress param data accept s) := by
  have k0 : Sub 0x0 mm := Sub.trans (by decide) hm
  unfold State.respond
  repeat' first
    | (intro x; refine Kept.bind (s0 := s0) (m := mm) (x := x) ?_ ?_; subst x; rotate_left; clear_value x; intro _)
    | (intro y; clear_value y)
    | intro _
    | with_reducible assumption
    | with_reducible lift_lets -underBinder
    | with_reducible apply State.setSession_kept hm
    | with_reducible apply State.datagram_kept k0
    | with_reducible apply Kept.ite
    | with_reducible split
    | split

theorem State.busy_kept {mm : Nat} {s0 s : State} {svc : Nat} {d : Datagram} {x : Session} (hm : Sub 0x0 mm) (h : Kept mm s0 s) : Kept mm s0 (State.busy svc d x s) := by
  unfold State.busy
  repeat' first
    | (intro x; refine Kept.bind (s0 := s0) (m := mm) (x := x) ?_ ?_; subst x; rotate_left; clear_value x; intro _)
    | (intro y; clear_value y)
    | intro _
    | with_reducible assumption
    | with_reducible lift_lets -underBinder
    | with_reducible apply State.datagram_kept hm
    | with_reducible apply Kept.ite
    | with_reducible split
    | split

theorem State.deliver_kept {mm : Nat} {s0 s : State} {sid e p : Nat} {l : List Byte} (hm : Sub 0x28000 mm) (h : Kept mm s0 s) : Kept mm s0 (State.deliver sid e p l s) := by
  have k0 : Sub 0x20000 mm := Sub.trans (by decide) hm
  have k1 : Sub 0x8000 mm := Sub.trans (by decide) hm
  have k2 : Sub 0x0 mm := Sub.trans (by decide) hm
  unfold State.deliver
  repeat' first
    | (intro x; refine Kept.bind (s0 := s0) (m := mm) (x := x) ?_ ?_; subst x; rotate_left; clear_value x; intro _)
    | (intro y; clear_value y)
    | intro _
    | with_reducible assumption
    | with_reducible lift_lets -underBinder
    | with_reducible apply State.respond_kept k0
    | with_reducible apply State.rackMsg_kept k1
    | with_reducible apply State.msg_kept k2
    | with_reducible apply Kept.ite
    | with_reducible split
    | split

theorem State.sessionReply_kept {mm : Nat} {s0 s : State} {sid : Nat} (hm : Sub 0x28000 mm) (h : Kept mm s0 s) : Kept mm s0 (State.sessionReply sid s) := by
  have k0 : Sub 0x0 mm := Sub.trans (by decide) hm
  unfold State.sessionReply
  repeat' first
    | (intro x; refine Kept.bind (s0 := s0) (m := mm) (x := x) ?_ ?_; subst x; rotate_left; clear_value x; intro _)
    | (intro y; clear_value y)
    | intro _
    | with_reducible assumption
    | with_reducible lift_lets -underBinder
    | with_reducible apply State.each_kept k0
    | with_reducible apply State.deliver_kept hm
    | with_reducible apply Kept.ite
    | with_reducible split
    | split
    | with_reducible exact Kept.upd_out (by assumption)

theorem State.answerTo_kept {mm : Nat} {s0 s : State} {sid e : Nat} (hm : Sub 0x28000 mm) (h : Kept mm s0 s) : Kept mm s0 (State.answerTo sid e s) := by
  have k0 : Sub 0x0 mm := Sub.trans (by decide) hm
  unfold State.answerTo
  repeat' first
    | (intro x; refine Kept.bind (s0 := s0) (m := mm) (x := x) ?_ ?_; subst x; rotate_left; clear_value x; intro _)
    | (intro y; clear_value y)
    | intro _
    | with_reducible assumption
    | with_reducible lift_lets -underBinder
    | with_reducible apply State.answer_kept k0
    | with_reducible apply State.sessionReply_kept hm
    | with_reducible apply Kept.ite
    | with_reducible split
    | split

theorem State.segmentReply_kept {mm : Nat} {s0 s : State} {sid total : Nat} {last : Bool} {l : List Byte} (hm : Sub 0x28000 mm) (h : Kept mm s0 s) : Kept mm s0 (State.segmentReply sid total last l s) := by
  have k0 : Sub 0x0 mm := Sub.trans (by decide) hm
  have k1 : Sub 0x20000 mm := Sub.trans (by decide) hm
  have k2 : Sub 0x8000 mm := Sub.trans (by decide) hm
  unfold State.segmentReply
  repeat' first
    | (intro x; refine Kept.bind (s0 := s0) (m := mm) (x := x) ?_ ?_; subst x; rotate_left; clear_value x; intro _)
    | (intro y; clear_value y)
    | intro _
    | with_reducible assumption
    | with_reducible lift_lets -underBinder
    | with_reducible apply State.emit_kept k0
    | with_reducible apply State.respond_kept k1
    | with_reducible apply State.rackMsg_kept k2
    | with_reducible apply Kept.ite
    | with_reducible split
    | split

theorem State.segmentOf_kept {mm : Nat} {s0 s : State} {sid e offset limit : Nat} {data : List Byte} (hm : Sub 0x28000 mm) (h : Kept mm s0 s) : Kept mm s0 (State.segmentOf sid e offset limit data s) := by
  have k0 : Sub 0x20000 mm := Sub.trans (by decide) hm
  unfold State.segmentOf
  repeat' first
    | (intro x; refine Kept.bind (s0 := s0) (m := mm) (x := x) ?_ ?_; subst x; rotate_left; clear_value x; intro _)
    | (intro y; clear_value y)
    | intro _
    | with_reducible assumption
    | with_reducible lift_lets -underBinder
    | with_reducible apply State.segmentReply_kept hm
    | with_reducible apply Kept.ite
    | with_reducible split
    | split
    | with_reducible apply Kept.upd_srv k0

theorem State.handling_kept {mm : Nat} {s0 s : State} {sid : Nat} (hm : Sub 0x20000 mm) (h : Kept mm s0 s) : Kept mm s0 (State.handling sid s) := by
  unfold State.handling
  repeat' first
    | (intro x; refine Kept.bind (s0 := s0) (m := mm) (x := x) ?_ ?_; subst x; rotate_left; clear_value x; intro _)
    | (intro y; clear_value y)
    | intro _
    | with_reducible assumption
    | with_reducible lift_lets -underBinder
    | with_reducible apply Kept.ite
    | with_reducible split
    | split
    | with_reducible apply Kept.upd_srv hm

theorem State.hostGet_kept {mm : Nat} {s0 s : State} {q : Req} {f : State → State} (hm : Sub 0x20000 mm) (hf : ∀ (s : State), Kept mm s0 s → Kept mm s0 (f s)) (h : Kept mm s0 s) : Kept mm s0 (State.hostGet q f s) := by
  have k0 : Sub 0x0 mm := Sub.trans (by decide) hm
  unfold State.hostGet
  repeat' first
    | (intro x; refine Kept.bind (s0 := s0) (m := mm) (x := x) ?_ ?_; subst x; rotate_left; clear_value x; intro _)
    | (intro y; clear_value y)
    | intro _
    | with_reducible assumption
    | with_reducible lift_lets -underBinder
    | with_reducible apply hf
    | with_reducible apply State.emit_kept k0
    | with_reducible apply State.handling_kept hm
    | with_reducible apply Kept.ite
    | with_reducible split
    | split

theorem State.longBy_kept {mm : Nat} {s0 s : State} {q : Req} {was : Nat} (hm : Sub 0x20000 mm) (h : Kept mm s0 s) : Kept mm s0 (State.longBy q was s) := by
  unfold State.longBy
  repeat' first
    | (intro x; refine Kept.bind (s0 := s0) (m := mm) (x := x) ?_ ?_; subst x; rotate_left; clear_value x; intro _)
    | (intro y; clear_value y)
    | intro _
    | with_reducible assumption
    | with_reducible lift_lets -underBinder
    | with_reducible apply Kept.ite
    | with_reducible split
    | split
    | with_reducible apply Kept.upd_srv hm

theorem State.sendForwards_kept {mm : Nat} {s0 s : State} (hm : Sub 0x8000 mm) (h : Kept mm s0 s) : Kept mm s0 (State.sendForwards s) := by
  have k0 : Sub 0x0 mm := Sub.trans (by decide) hm
  unfold State.sendForwards
  repeat' first
    | (intro x; refine Kept.bind (s0 := s0) (m := mm) (x := x) ?_ ?_; subst x; rotate_left; clear_value x; intro _)
    | (intro y; clear_value y)
    | intro _
    | with_reducible assumption
    | with_reducible lift_lets -underBinder
    | with_reducible apply State.each_kept k0
    | with_reducible apply State.msg_kept k0
    | with_reducible apply State.modRack_kept hm
    | with_reducible apply Kept.ite
    | with_reducible split
    | split

theorem State.forward_kept {mm : Nat} {s0 s : State} {index sub elem : Nat} {data : List Byte} (hm : Sub 0x8000 mm) (h : Kept mm s0 s) : Kept mm s0 (State.forward index sub elem data s) := by
  unfold State.forward
  repeat' first
    | (intro x; refine Kept.bind (s0 := s0) (m := mm) (x := x) ?_ ?_; subst x; rotate_left; clear_value x; intro _)
    | (intro y; clear_value y)
    | intro _
    | with_reducible assumption
    | with_reducible lift_lets -underBinder
    | with_reducible apply State.modRack_kept hm
    | with_reducible apply State.sendForwards_kept hm
    | with_reducible apply Kept.ite
    | with_reducible split
    | split

theorem State.followDigest_kept {mm : Nat} {s0 s : State} (hm : Sub 0x8000 mm) (h : Kept mm s0 s) : Kept mm s0 (State.followDigest s) := by
  unfold State.followDigest
  repeat' first
    | (intro x; refine Kept.bind (s0 := s0) (m := mm) (x := x) ?_ ?_; subst x; rotate_left; clear_value x; intro _)
    | (intro y; clear_value y)
    | intro _
    | with_reducible assumption
    | with_reducible lift_lets -underBinder
    | with_reducible apply State.modRack_kept hm
    | with_reducible apply Kept.ite
    | with_reducible split
    | split

theorem State.settleForward_kept {mm : Nat} {s0 s : State} {hit : Forward → Bool} {f : Forward → Forward} (hm : Sub 0x28000 mm) (h : Kept mm s0 s) : Kept mm s0 (State.settleForward hit f s) := by
  have k0 : Sub 0x8000 mm := Sub.trans (by decide) hm
  unfold State.settleForward
  repeat' first
    | (intro x; refine Kept.bind (s0 := s0) (m := mm) (x := x) ?_ ?_; subst x; rotate_left; clear_value x; intro _)
    | (intro y; clear_value y)
    | intro _
    | with_reducible assumption
    | with_reducible lift_lets -underBinder
    | with_reducible apply State.modRack_kept k0
    | with_reducible apply State.answerTo_kept hm
    | with_reducible apply Kept.ite
    | with_reducible split
    | split
    | with_reducible refine Kept.snd (by assumption) ?_
    | with_reducible refine Kept.fst (by assumption) ?_

theorem State.finish_kept {mm : Nat} {s0 s : State} {sid e : Nat} (hm : Sub 0x28000 mm) (h : Kept mm s0 s) : Kept mm s0 (State.finish sid e s) := by
  unfold State.finish
  repeat' first
    | (intro x; refine Kept.bind (s0 := s0) (m := mm) (x := x) ?_ ?_; subst x; rotate_left; clear_value x; intro _)
    | (intro y; clear_value y)
    | intro _
    | with_reducible assumption
    | with_reducible lift_lets -underBinder
    | with_reducible apply State.settleForward_kept hm
    | with_reducible apply State.answerTo_kept hm
    | with_reducible apply Kept.ite
    | with_reducible split
    | split

theorem State.holdReply_kept {mm : Nat} {s0 s : State} (hm : Sub 0x28000 mm) (h : Kept mm s0 s) : Kept mm s0 (State.holdReply s) := by
  unfold State.holdReply
  repeat' first
    | (intro x; refine Kept.bind (s0 := s0) (m := mm) (x := x) ?_ ?_; subst x; rotate_left; clear_value x; intro _)
    | (intro y; clear_value y)
    | intro _
    | with_reducible assumption
    | with_reducible lift_lets -underBinder
    | with_reducible apply State.finish_kept hm
    | with_reducible apply Kept.ite
    | with_reducible split
    | split
    | with_reducible exact Kept.upd_out (by assumption)

theorem State.entryJob_kept {mm : Nat} {s0 s : State} {index sub elem : Nat} {data : List Byte} {e : Eff} (hm : Sub 0x7fffffc00000000000000028004 mm) (he : EffKept mm s0 e) (h : Kept mm s0 s) : Kept mm s0 (State.entryJob index sub elem data e s) := by
  have k0 : Sub 0x4 mm := Sub.trans (by decide) hm
  have k1 : Sub 0x7fffffc00000000000000000000 mm := Sub.trans (by decide) hm
  have k2 : Sub 0x28000 mm := Sub.trans (by decide) hm
  unfold State.entryJob
  repeat' first
    | (intro x; refine Kept.bind (s0 := s0) (m := mm) (x := x) ?_ ?_; subst x; rotate_left; clear_value x; intro _)
    | (intro y; clear_value y)
    | intro _
    | with_reducible assumption
    | with_reducible lift_lets -underBinder
    | with_reducible apply he.all
    | with_reducible exact he
    | with_reducible apply State.modBatch_kept k0
    | with_reducible apply State.notePeak_kept k1
    | with_reducible apply State.finish_kept k2
    | with_reducible apply Kept.ite
    | with_reducible split
    | split

theorem State.carryOut_kept {mm : Nat} {s0 s : State} {index sub elem : Nat} {data : List Byte} {e : Eff} (hm : Sub 0x7fffffc00000000000000028004 mm) (he : EffKept mm s0 e) (h : Kept mm s0 s) : Kept mm s0 (State.carryOut index sub elem data e s) := by
  have k0 : Sub 0x0 mm := Sub.trans (by decide) hm
  have k1 : Sub 0x8000 mm := Sub.trans (by decide) hm
  have k2 : Sub 0x28000 mm := Sub.trans (by decide) hm
  unfold State.carryOut
  repeat' first
    | (intro x; refine Kept.bind (s0 := s0) (m := mm) (x := x) ?_ ?_; subst x; rotate_left; clear_value x; intro _)
    | (intro y; clear_value y)
    | intro _
    | with_reducible assumption
    | with_reducible lift_lets -underBinder
    | with_reducible apply he.all
    | with_reducible exact he
    | with_reducible apply State.answer_kept k0
    | with_reducible apply State.forward_kept k1
    | with_reducible apply State.holdReply_kept k2
    | with_reducible apply State.entryJob_kept hm
    | with_reducible apply Kept.ite
    | with_reducible split
    | split

theorem State.hostWrite_kept {mm : Nat} {s0 s : State} {q : Req} {index sub elem : Nat} {v : Int} {e : Eff} (hm : Sub 0x7fffffc0000000000000002e004 mm) (he : EffKept mm s0 e) (h : Kept mm s0 s) : Kept mm s0 (State.hostWrite q index sub elem v e s) := by
  have k0 : Sub 0x0 mm := Sub.trans (by decide) hm
  have k1 : Sub 0x20000 mm := Sub.trans (by decide) hm
  have k2 : Sub 0x7fffd000000000000000000e000 mm := Sub.trans (by decide) hm
  have k3 : Sub 0x7fffffc00000000000000028004 mm := Sub.trans (by decide) hm
  unfold State.hostWrite
  repeat' first
    | (intro x; refine Kept.bind (s0 := s0) (m := mm) (x := x) ?_ ?_; subst x; rotate_left; clear_value x; intro _)
    | (intro y; clear_value y)
    | intro _
    | with_reducible assumption
    | with_reducible lift_lets -underBinder
    | with_reducible apply he.all
    | with_reducible exact he
    | with_reducible apply State.emit_kept k0
    | with_reducible apply State.handling_kept k1
    | with_reducible apply State.refuse_kept k2
    | with_reducible apply State.carryOut_kept k3
    | with_reducible apply State.longBy_kept k1
    | with_reducible apply Kept.ite
    | with_reducible split
    | split

theorem plainEff_kept {mm : Nat} {s0 : State} {index sub elem : Nat} {v : Int} (hm : Sub 0x7fffffffffffffffffffff00000 mm) : EffKept mm s0 (plainEff index sub elem v) := by
  have kz : Sub (2 ^ 107 - 2 ^ (20 + zone 0x0)) mm := Sub.trans (by decide) hm
  unfold plainEff
  repeat' first
    | (intro x; refine Kept.bind (s0 := s0) (m := mm) (x := x) ?_ ?_; subst x; rotate_left; clear_value x; intro _)
    | (intro y; clear_value y)
    | intro _
    | with_reducible assumption
    | with_reducible lift_lets -underBinder
    | with_reducible refine State.wr_kept ?_ ?_
    | exact Sub.bit (Sub.trans (by decide) hm)
    | exact Sub.from (b := 0) kz (Nat.zero_le _)
    | with_reducible apply Kept.ite
    | with_reducible apply EffKept.ite
    | with_reducible split
    | split
    | (refine ⟨fun s h => ?_⟩; dsimp -zeta only)
    | dsimp -zeta only

theorem State.hostBlob_kept {mm : Nat} {s0 s : State} {q : Req} {index sub : Nat} {img : List Byte} {e : Eff} (hm : Sub 0x7fffffc0000000000000002e004 mm) (he : EffKept mm s0 e) (h : Kept mm s0 s) : Kept mm s0 (State.hostBlob q index sub img e s) := by
  have k0 : Sub 0x0 mm := Sub.trans (by decide) hm
  have k1 : Sub 0x20000 mm := Sub.trans (by decide) hm
  have k2 : Sub 0x7fffd000000000000000000e000 mm := Sub.trans (by decide) hm
  have k3 : Sub 0x7fffffc00000000000000028004 mm := Sub.trans (by decide) hm
  unfold State.hostBlob
  repeat' first
    | (intro x; refine Kept.bind (s0 := s0) (m := mm) (x := x) ?_ ?_; subst x; rotate_left; clear_value x; intro _)
    | (intro y; clear_value y)
    | intro _
    | with_reducible assumption
    | with_reducible lift_lets -underBinder
    | with_reducible apply he.all
    | with_reducible exact he
    | with_reducible apply State.emit_kept k0
    | with_reducible apply State.handling_kept k1
    | with_reducible apply State.refuse_kept k2
    | with_reducible apply State.carryOut_kept k3
    | with_reducible apply State.longBy_kept k1
    | with_reducible apply Kept.ite
    | with_reducible split
    | split

theorem State.startLong_kept {mm : Nat} {s0 s : State} {n : Nat} (hm : Sub 0x40a0000 mm) (h : Kept mm s0 s) : Kept mm s0 (State.startLong n s) := by
  have k0 : Sub 0x80000 mm := Sub.trans (by decide) hm
  have k1 : Sub 0x20000 mm := Sub.trans (by decide) hm
  unfold State.startLong
  repeat' first
    | (intro x; refine Kept.bind (s0 := s0) (m := mm) (x := x) ?_ ?_; subst x; rotate_left; clear_value x; intro _)
    | (intro y; have w_ : Nat × State := y; clear w_)
    | (intro y; clear_value y)
    | intro _
    | with_reducible assumption
    | with_reducible lift_lets -underBinder
    | with_reducible apply State.draw_kept k0
    | with_reducible refine State.wr_kept ?_ ?_
    | exact Sub.bit (Sub.trans (by decide) hm)
    | with_reducible apply Kept.ite
    | with_reducible split
    | split
    | with_reducible apply Kept.upd_srv k1
    | with_reducible refine Kept.snd (by assumption) ?_
    | with_reducible refine Kept.fst (by assumption) ?_

theorem State.endLong_kept {mm : Nat} {s0 s : State} {e : Nat} (hm : Sub 0x4028000 mm) (h : Kept mm s0 s) : Kept mm s0 (State.endLong e s) := by
  have k0 : Sub 0x28000 mm := Sub.trans (by decide) hm
  have k1 : Sub 0x20000 mm := Sub.trans (by decide) hm
  unfold State.endLong
  repeat' first
    | (intro x; refine Kept.bind (s0 := s0) (m := mm) (x := x) ?_ ?_; subst x; rotate_left; clear_value x; intro _)
    | (intro y; clear_value y)
    | intro _
    | with_reducible assumption
    | with_reducible lift_lets -underBinder
    | with_reducible apply State.finish_kept k0
    | with_reducible refine State.wr_kept ?_ ?_
    | exact Sub.bit (Sub.trans (by decide) hm)
    | with_reducible apply Kept.ite
    | with_reducible split
    | split
    | with_reducible apply Kept.upd_srv k1

end Sys2Proof.Machine
end

