-- ==== Sys2Proof/Laws/KeptBatchOps.lean ====
section
/-! SUPPORT. What the operations of Machine/BatchOps.lean may change (Safety.lean, Kept): one lemma for each. -/

set_option linter.all false

namespace Sys2Proof.Machine

theorem State.useTarget_kept {mm : Nat} {s0 s : State} {g : Nat} {v : F32} (hm : Sub 0x7ffff8000000000000000000020 mm) (h : Kept mm s0 s) : Kept mm s0 (State.useTarget g v s) := by
  have k0 : Sub 0x20 mm := Sub.trans (by decide) hm
  have kz : Sub (2 ^ 107 - 2 ^ (20 + zone 0x66000e00)) mm := Sub.trans (by decide) hm
  unfold State.useTarget
  repeat' first
    | (intro x; refine Kept.bind (s0 := s0) (m := mm) (x := x) ?_ ?_; subst x; rotate_left; clear_value x; intro _)
    | (intro y; clear_value y)
    | intro _
    | with_reducible assumption
    | with_reducible lift_lets -underBinder
    | with_reducible apply State.setGen_kept k0
    | with_reducible refine State.inc_kept ?_ ?_
    | exact Sub.bit (Sub.trans (by decide) hm)
    | (refine Sub.from (b := 0x66000e00) kz ?_; (try simp only [key, bk]); omega)
    | with_reducible apply Kept.ite
    | with_reducible split
    | split

theorem State.hostTarget_kept {mm : Nat} {s0 s : State} {g : Nat} {v : F32} (hm : Sub 0x7ffff8000000000000000000020 mm) (h : Kept mm s0 s) : Kept mm s0 (State.hostTarget g v s) := by
  have kz : Sub (2 ^ 107 - 2 ^ (20 + zone 0x66000200)) mm := Sub.trans (by decide) hm
  unfold State.hostTarget
  repeat' first
    | (intro x; refine Kept.bind (s0 := s0) (m := mm) (x := x) ?_ ?_; subst x; rotate_left; clear_value x; intro _)
    | (intro y; clear_value y)
    | intro _
    | with_reducible assumption
    | with_reducible lift_lets -underBinder
    | with_reducible apply State.useTarget_kept hm
    | with_reducible refine State.wr_kept ?_ ?_
    | with_reducible refine State.wrF_kept ?_ ?_
    | exact Sub.bit (Sub.trans (by decide) hm)
    | (refine Sub.from (b := 0x66000200) kz ?_; (try simp only [key, bk]); omega)
    | with_reducible apply Kept.ite
    | with_reducible split
    | split

theorem State.genHold_kept {mm : Nat} {s0 s : State} {g : Nat} (hm : Sub 0x7ffff8000000000000000000020 mm) (h : Kept mm s0 s) : Kept mm s0 (State.genHold g s) := by
  have k0 : Sub 0x20 mm := Sub.trans (by decide) hm
  have kz : Sub (2 ^ 107 - 2 ^ (20 + zone 0x66000c00)) mm := Sub.trans (by decide) hm
  unfold State.genHold
  repeat' first
    | (intro x; refine Kept.bind (s0 := s0) (m := mm) (x := x) ?_ ?_; subst x; rotate_left; clear_value x; intro _)
    | (intro y; clear_value y)
    | intro _
    | with_reducible assumption
    | with_reducible lift_lets -underBinder
    | with_reducible apply State.setGen_kept k0
    | with_reducible refine State.setBit_kept ?_ ?_
    | exact Sub.bit (Sub.trans (by decide) hm)
    | (refine Sub.from (b := 0x66000c00) kz ?_; (try simp only [key, bk]); omega)
    | with_reducible apply Kept.ite
    | with_reducible split
    | split

theorem State.genRelease_kept {mm : Nat} {s0 s : State} {g : Nat} (hm : Sub 0x7ffff8000000000000000000020 mm) (h : Kept mm s0 s) : Kept mm s0 (State.genRelease g s) := by
  have k0 : Sub 0x20 mm := Sub.trans (by decide) hm
  have kz : Sub (2 ^ 107 - 2 ^ (20 + zone 0x66000c00)) mm := Sub.trans (by decide) hm
  unfold State.genRelease
  repeat' first
    | (intro x; refine Kept.bind (s0 := s0) (m := mm) (x := x) ?_ ?_; subst x; rotate_left; clear_value x; intro _)
    | (intro y; clear_value y)
    | intro _
    | with_reducible assumption
    | with_reducible lift_lets -underBinder
    | with_reducible apply State.setGen_kept k0
    | with_reducible apply State.useTarget_kept hm
    | with_reducible refine State.setBit_kept ?_ ?_
    | exact Sub.bit (Sub.trans (by decide) hm)
    | (refine Sub.from (b := 0x66000c00) kz ?_; (try simp only [key, bk]); omega)
    | with_reducible apply Kept.ite
    | with_reducible split
    | split

theorem State.presetTo_kept {mm : Nat} {s0 s : State} {g : Nat} {x : F32} (hm : Sub 0x7ffff8000000000000000000020 mm) (h : Kept mm s0 s) : Kept mm s0 (State.presetTo g x s) := by
  have k0 : Sub 0x20 mm := Sub.trans (by decide) hm
  have kz : Sub (2 ^ 107 - 2 ^ (20 + zone 0x66000700)) mm := Sub.trans (by decide) hm
  unfold State.presetTo
  repeat' first
    | (intro x; refine Kept.bind (s0 := s0) (m := mm) (x := x) ?_ ?_; subst x; rotate_left; clear_value x; intro _)
    | (intro y; clear_value y)
    | intro _
    | with_reducible assumption
    | with_reducible lift_lets -underBinder
    | with_reducible apply State.setGen_kept k0
    | with_reducible refine State.wrF_kept ?_ ?_
    | exact Sub.bit (Sub.trans (by decide) hm)
    | (refine Sub.from (b := 0x66000700) kz ?_; (try simp only [key, bk, genA, genV, genX]); omega)
    | with_reducible apply Kept.ite
    | with_reducible split
    | split

theorem State.driveTarget_kept {mm : Nat} {s0 s : State} {g : Nat} {v : F32} (hm : Sub 0x7ffff8000000000000000000020 mm) (h : Kept mm s0 s) : Kept mm s0 (State.driveTarget g v s) := by
  have k0 : Sub 0x20 mm := Sub.trans (by decide) hm
  have kz : Sub (2 ^ 107 - 2 ^ (20 + zone 0x66001100)) mm := Sub.trans (by decide) hm
  unfold State.driveTarget
  repeat' first
    | (intro x; refine Kept.bind (s0 := s0) (m := mm) (x := x) ?_ ?_; subst x; rotate_left; clear_value x; intro _)
    | (intro y; clear_value y)
    | intro _
    | with_reducible assumption
    | with_reducible lift_lets -underBinder
    | with_reducible apply State.setGen_kept k0
    | with_reducible apply State.useTarget_kept hm
    | with_reducible refine State.wr_kept ?_ ?_
    | exact Sub.bit (Sub.trans (by decide) hm)
    | (refine Sub.from (b := 0x66001100) kz ?_; (try simp only [key, bk]); omega)
    | with_reducible apply Kept.ite
    | with_reducible split
    | split

theorem State.keepTarget_kept {mm : Nat} {s0 s : State} {g : Nat} (hm : Sub 0x20 mm) (h : Kept mm s0 s) : Kept mm s0 (State.keepTarget g s) := by
  unfold State.keepTarget
  repeat' first
    | (intro x; refine Kept.bind (s0 := s0) (m := mm) (x := x) ?_ ?_; subst x; rotate_left; clear_value x; intro _)
    | (intro y; clear_value y)
    | intro _
    | with_reducible assumption
    | with_reducible lift_lets -underBinder
    | with_reducible apply State.setGen_kept hm
    | with_reducible apply Kept.ite
    | with_reducible split
    | split

theorem State.freeTarget_kept {mm : Nat} {s0 s : State} {g : Nat} (hm : Sub 0x7ffff8000000000000000000020 mm) (h : Kept mm s0 s) : Kept mm s0 (State.freeTarget g s) := by
  have k0 : Sub 0x20 mm := Sub.trans (by decide) hm
  unfold State.freeTarget
  repeat' first
    | (intro x; refine Kept.bind (s0 := s0) (m := mm) (x := x) ?_ ?_; subst x; rotate_left; clear_value x; intro _)
    | (intro y; clear_value y)
    | intro _
    | with_reducible assumption
    | with_reducible lift_lets -underBinder
    | with_reducible apply State.setGen_kept k0
    | with_reducible apply State.useTarget_kept hm
    | with_reducible apply Kept.ite
    | with_reducible split
    | split

theorem State.rampHold_kept {mm : Nat} {s0 s : State} {g : Nat} (hm : Sub 0x7ffff8000000000000000000020 mm) (h : Kept mm s0 s) : Kept mm s0 (State.rampHold g s) := by
  have k0 : Sub 0x20 mm := Sub.trans (by decide) hm
  have kz : Sub (2 ^ 107 - 2 ^ (20 + zone 0x66000c00)) mm := Sub.trans (by decide) hm
  unfold State.rampHold
  repeat' first
    | (intro x; refine Kept.bind (s0 := s0) (m := mm) (x := x) ?_ ?_; subst x; rotate_left; clear_value x; intro _)
    | (intro y; clear_value y)
    | intro _
    | with_reducible assumption
    | with_reducible lift_lets -underBinder
    | with_reducible apply State.setGen_kept k0
    | with_reducible refine State.setBit_kept ?_ ?_
    | exact Sub.bit (Sub.trans (by decide) hm)
    | (refine Sub.from (b := 0x66000c00) kz ?_; (try simp only [key, bk]); omega)
    | with_reducible apply Kept.ite
    | with_reducible split
    | split

theorem State.rampRelease_kept {mm : Nat} {s0 s : State} {g : Nat} {v : F32} (hm : Sub 0x7ffff8000000000000000000020 mm) (h : Kept mm s0 s) : Kept mm s0 (State.rampRelease g v s) := by
  have k0 : Sub 0x20 mm := Sub.trans (by decide) hm
  have kz : Sub (2 ^ 107 - 2 ^ (20 + zone 0x66000c00)) mm := Sub.trans (by decide) hm
  unfold State.rampRelease
  repeat' first
    | (intro x; refine Kept.bind (s0 := s0) (m := mm) (x := x) ?_ ?_; subst x; rotate_left; clear_value x; intro _)
    | (intro y; clear_value y)
    | intro _
    | with_reducible assumption
    | with_reducible lift_lets -underBinder
    | with_reducible apply State.setGen_kept k0
    | with_reducible apply State.useTarget_kept hm
    | with_reducible refine State.setBit_kept ?_ ?_
    | exact Sub.bit (Sub.trans (by decide) hm)
    | (refine Sub.from (b := 0x66000c00) kz ?_; (try simp only [key, bk]); omega)
    | with_reducible apply Kept.ite
    | with_reducible split
    | split

theorem State.genStep_kept {mm : Nat} {s0 s : State} {g : Nat} {dt : F32} (hm : Sub 0x7ffff8000000000000000000000 mm) (h : Kept mm s0 s) : Kept mm s0 (State.genStep g dt s) := by
  have kz : Sub (2 ^ 107 - 2 ^ (20 + zone 0x66000700)) mm := Sub.trans (by decide) hm
  unfold State.genStep
  repeat' first
    | (intro x; refine Kept.bind (s0 := s0) (m := mm) (x := x) ?_ ?_; subst x; rotate_left; clear_value x; intro _)
    | (intro y; have w_ : Nat := y; clear w_; subst y)
    | (intro y; clear_value y)
    | intro _
    | with_reducible assumption
    | with_reducible lift_lets -underBinder
    | with_reducible refine State.inc_kept ?_ ?_
    | with_reducible refine State.wr_kept ?_ ?_
    | with_reducible refine State.wrF_kept ?_ ?_
    | exact Sub.bit (Sub.trans (by decide) hm)
    | (refine Sub.from (b := 0x66000700) kz ?_; (try simp only [key, bk, genA, genV, genX]); omega)
    | with_reducible apply Kept.ite
    | with_reducible split
    | split

theorem State.withGen_kept {mm : Nat} {s0 s : State} {b i : Nat} {f : Nat → State → State} (hm : Sub 0x0 mm) (hf : ∀ (x0 : Nat) (s : State), Kept mm s0 s → Kept mm s0 (f x0 s)) (h : Kept mm s0 s) : Kept mm s0 (State.withGen b i f s) := by
  unfold State.withGen
  repeat' first
    | (intro x; refine Kept.bind (s0 := s0) (m := mm) (x := x) ?_ ?_; subst x; rotate_left; clear_value x; intro _)
    | (intro y; clear_value y)
    | intro _
    | with_reducible assumption
    | with_reducible lift_lets -underBinder
    | with_reducible apply hf
    | with_reducible apply Kept.ite
    | with_reducible split
    | split

theorem State.setChan_kept {mm : Nat} {s0 s : State} {c : Nat} {r : ChanRec} (hm : Sub 0x100 mm) (h : Kept mm s0 s) : Kept mm s0 (State.setChan c r s) := by
  unfold State.setChan
  repeat' first
    | (intro x; refine Kept.bind (s0 := s0) (m := mm) (x := x) ?_ ?_; subst x; rotate_left; clear_value x; intro _)
    | (intro y; clear_value y)
    | intro _
    | with_reducible assumption
    | with_reducible lift_lets -underBinder
    | with_reducible apply Kept.ite
    | with_reducible split
    | split
    | with_reducible apply Kept.upd_pwm hm

theorem State.modChan_kept {mm : Nat} {s0 s : State} {c : Nat} {f : ChanRec → ChanRec} (hm : Sub 0x100 mm) (h : Kept mm s0 s) : Kept mm s0 (State.modChan c f s) := by
  unfold State.modChan
  repeat' first
    | (intro x; refine Kept.bind (s0 := s0) (m := mm) (x := x) ?_ ?_; subst x; rotate_left; clear_value x; intro _)
    | (intro y; clear_value y)
    | intro _
    | with_reducible assumption
    | with_reducible lift_lets -underBinder
    | with_reducible apply State.setChan_kept hm
    | with_reducible apply Kept.ite
    | with_reducible split
    | split

theorem State.chanOff_kept {mm : Nat} {s0 s : State} {c : Nat} (hm : Sub 0x7ffffffffffc000000000000100 mm) (h : Kept mm s0 s) : Kept mm s0 (State.chanOff c s) := by
  have k0 : Sub 0x100 mm := Sub.trans (by decide) hm
  have kz : Sub (2 ^ 107 - 2 ^ (20 + zone 0x30000e00)) mm := Sub.trans (by decide) hm
  unfold State.chanOff
  repeat' first
    | (intro x; refine Kept.bind (s0 := s0) (m := mm) (x := x) ?_ ?_; subst x; rotate_left; clear_value x; intro _)
    | (intro y; clear_value y)
    | intro _
    | with_reducible assumption
    | with_reducible lift_lets -underBinder
    | with_reducible apply State.setChan_kept k0
    | with_reducible refine State.setBit_kept ?_ ?_
    | with_reducible refine State.wr_kept ?_ ?_
    | exact Sub.bit (Sub.trans (by decide) hm)
    | (refine Sub.from (b := 0x30000e00) kz ?_; (try simp only [key, bk]); omega)
    | with_reducible apply Kept.ite
    | with_reducible split
    | split

theorem State.endTest_kept {mm : Nat} {s0 s : State} {c : Nat} (hm : Sub 0x7ffffffffffc000000000000100 mm) (h : Kept mm s0 s) : Kept mm s0 (State.endTest c s) := by
  have k0 : Sub 0x100 mm := Sub.trans (by decide) hm
  unfold State.endTest
  repeat' first
    | (intro x; refine Kept.bind (s0 := s0) (m := mm) (x := x) ?_ ?_; subst x; rotate_left; clear_value x; intro _)
    | (intro y; clear_value y)
    | intro _
    | with_reducible assumption
    | with_reducible lift_lets -underBinder
    | with_reducible apply State.chanOff_kept hm
    | with_reducible apply State.setChan_kept k0
    | with_reducible apply Kept.ite
    | with_reducible split
    | split

theorem State.leaveStarter_kept {mm : Nat} {s0 s : State} {b : Nat} (hm : Sub 0x7ffffffff000000000000000000 mm) (h : Kept mm s0 s) : Kept mm s0 (State.leaveStarter b s) := by
  have kz : Sub (2 ^ 107 - 2 ^ (20 + zone 0x400b1100)) mm := Sub.trans (by decide) hm
  unfold State.leaveStarter
  repeat' first
    | (intro x; refine Kept.bind (s0 := s0) (m := mm) (x := x) ?_ ?_; subst x; rotate_left; clear_value x; intro _)
    | (intro y; clear_value y)
    | intro _
    | with_reducible assumption
    | with_reducible lift_lets -underBinder
    | with_reducible refine State.wr_kept ?_ ?_
    | exact Sub.bit (Sub.trans (by decide) hm)
    | (refine Sub.from (b := 0x400b1100) kz ?_; (try simp only [key, bk]); omega)
    | with_reducible apply Kept.ite
    | with_reducible split
    | split

theorem State.leaveState_kept {mm : Nat} {s0 s : State} {b : Nat} {old new : BatchState} (hm : Sub 0x7ffffffffffc000000000000124 mm) (h : Kept mm s0 s) : Kept mm s0 (State.leaveState b old new s) := by
  have k0 : Sub 0x0 mm := Sub.trans (by decide) hm
  have k1 : Sub 0x7ffffffffffc000000000000100 mm := Sub.trans (by decide) hm
  have k2 : Sub 0x7ffffffff000000000000000000 mm := Sub.trans (by decide) hm
  have k3 : Sub 0x7ffff8000000000000000000020 mm := Sub.trans (by decide) hm
  have k4 : Sub 0x4 mm := Sub.trans (by decide) hm
  have k5 : Sub 0x20 mm := Sub.trans (by decide) hm
  have kz : Sub (2 ^ 107 - 2 ^ (20 + zone 0x40090c00)) mm := Sub.trans (by decide) hm
  unfold State.leaveState
  repeat' first
    | (intro x; refine Kept.bind (s0 := s0) (m := mm) (x := x) ?_ ?_; subst x; rotate_left; clear_value x; intro _)
    | (intro y; clear_value y)
    | intro _
    | with_reducible assumption
    | with_reducible lift_lets -underBinder
    | with_reducible apply State.each_kept k0
    | with_reducible apply State.endTest_kept k1
    | with_reducible apply State.leaveStarter_kept k2
    | with_reducible apply State.withGen_kept k0
    | with_reducible apply State.freeTarget_kept k3
    | with_reducible apply State.modBatch_kept k4
    | with_reducible apply State.setGen_kept k5
    | with_reducible refine State.setBit_kept ?_ ?_
    | with_reducible refine State.wr_kept ?_ ?_
    | exact Sub.bit (Sub.trans (by decide) hm)
    | (refine Sub.from (b := 0x40090c00) kz ?_; (try simp only [key, bk]); omega)
    | with_reducible apply Kept.ite
    | with_reducible split
    | split

theorem State.setState_kept {mm : Nat} {s0 s : State} {b : Nat} {new : BatchState} {cause : Nat} (hm : Sub 0x7ffffffffffc00000000000e124 mm) (h : Kept mm s0 s) : Kept mm s0 (State.setState b new cause s) := by
  have k0 : Sub 0x7ffffffffffc000000000000124 mm := Sub.trans (by decide) hm
  have k1 : Sub 0x4 mm := Sub.trans (by decide) hm
  have k2 : Sub 0x7fffd000000000000000000e000 mm := Sub.trans (by decide) hm
  have kz : Sub (2 ^ 107 - 2 ^ (20 + zone 0x40010100)) mm := Sub.trans (by decide) hm
  unfold State.setState
  repeat' first
    | (intro x; refine Kept.bind (s0 := s0) (m := mm) (x := x) ?_ ?_; subst x; rotate_left; clear_value x; intro _)
    | (intro y; clear_value y)
    | intro _
    | with_reducible assumption
    | with_reducible lift_lets -underBinder
    | with_reducible apply State.leaveState_kept k0
    | with_reducible apply State.modBatch_kept k1
    | with_reducible apply State.logEvent_kept k2
    | with_reducible refine State.inc_kept ?_ ?_
    | with_reducible refine State.wr_kept ?_ ?_
    | exact Sub.bit (Sub.trans (by decide) hm)
    | (refine Sub.from (b := 0x40010100) kz ?_; (try simp only [key, bk]); omega)
    | with_reducible apply Kept.ite
    | with_reducible split
    | split

theorem State.pulseBlock_kept {mm : Nat} {s0 s : State} {b : Nat} (hm : Sub 0x7ffffffffffc000000000000104 mm) (h : Kept mm s0 s) : Kept mm s0 (State.pulseBlock b s) := by
  have k0 : Sub 0x4 mm := Sub.trans (by decide) hm
  have k1 : Sub 0x0 mm := Sub.trans (by decide) hm
  have k2 : Sub 0x7ffffffffffc000000000000100 mm := Sub.trans (by decide) hm
  unfold State.pulseBlock
  repeat' first
    | (intro x; refine Kept.bind (s0 := s0) (m := mm) (x := x) ?_ ?_; subst x; rotate_left; clear_value x; intro _)
    | (intro y; clear_value y)
    | intro _
    | with_reducible assumption
    | with_reducible lift_lets -underBinder
    | with_reducible apply State.modBatch_kept k0
    | with_reducible apply State.each_kept k1
    | with_reducible apply State.chanOff_kept k2
    | with_reducible apply Kept.ite
    | with_reducible split
    | split

theorem State.amendEvent_kept {mm : Nat} {s0 s : State} {hit : Event → Bool} {f : List Byte → List Byte} (hm : Sub 0x4000 mm) (h : Kept mm s0 s) : Kept mm s0 (State.amendEvent hit f s) := by
  unfold State.amendEvent
  repeat' first
    | (intro x; refine Kept.bind (s0 := s0) (m := mm) (x := x) ?_ ?_; subst x; rotate_left; clear_value x; intro _)
    | (intro y; clear_value y)
    | intro _
    | with_reducible assumption
    | with_reducible lift_lets -underBinder
    | with_reducible apply Kept.ite
    | with_reducible split
    | split
    | with_reducible apply Kept.upd_log hm

theorem State.joinBlock_kept {mm : Nat} {s0 s : State} {b src : Nat} {detail : List Byte} (hm : Sub 0x7ffffffff000000000000004000 mm) (h : Kept mm s0 s) : Kept mm s0 (State.joinBlock b src detail s) := by
  have k0 : Sub 0x4000 mm := Sub.trans (by decide) hm
  have kz : Sub (2 ^ 107 - 2 ^ (20 + zone 0x400d0200)) mm := Sub.trans (by decide) hm
  unfold State.joinBlock
  repeat' first
    | (intro x; refine Kept.bind (s0 := s0) (m := mm) (x := x) ?_ ?_; subst x; rotate_left; clear_value x; intro _)
    | (intro y; clear_value y)
    | intro _
    | with_reducible assumption
    | with_reducible lift_lets -underBinder
    | with_reducible apply State.amendEvent_kept k0
    | with_reducible refine State.wr_kept ?_ ?_
    | exact Sub.bit (Sub.trans (by decide) hm)
    | (refine Sub.from (b := 0x400d0200) kz ?_; (try simp only [key, bk]); omega)
    | with_reducible apply Kept.ite
    | with_reducible split
    | split

theorem State.blockBatch_kept {mm : Nat} {s0 s : State} {b src : Nat} {detail : List Byte} (hm : Sub 0x7ffffffffffc00000000000e124 mm) (h : Kept mm s0 s) : Kept mm s0 (State.blockBatch b src detail s) := by
  have k0 : Sub 0x0 mm := Sub.trans (by decide) hm
  have k1 : Sub 0x7ffffffffffc000000000000100 mm := Sub.trans (by decide) hm
  have k2 : Sub 0x7ffffffffffc000000000000104 mm := Sub.trans (by decide) hm
  have k3 : Sub 0x7ffffffff000000000000004000 mm := Sub.trans (by decide) hm
  have k4 : Sub 0x4 mm := Sub.trans (by decide) hm
  have k5 : Sub 0x7fffd000000000000000000e000 mm := Sub.trans (by decide) hm
  have kz : Sub (2 ^ 107 - 2 ^ (20 + zone 0x400d0100)) mm := Sub.trans (by decide) hm
  unfold State.blockBatch
  repeat' first
    | (intro x; refine Kept.bind (s0 := s0) (m := mm) (x := x) ?_ ?_; subst x; rotate_left; clear_value x; intro _)
    | (intro y; clear_value y)
    | intro _
    | with_reducible assumption
    | with_reducible lift_lets -underBinder
    | with_reducible apply State.each_kept k0
    | with_reducible apply State.endTest_kept k1
    | with_reducible apply State.pulseBlock_kept k2
    | with_reducible apply State.joinBlock_kept k3
    | with_reducible apply State.modBatch_kept k4
    | with_reducible apply State.logEvent_kept k5
    | with_reducible apply State.setState_kept hm
    | with_reducible refine State.inc_kept ?_ ?_
    | with_reducible refine State.wr_kept ?_ ?_
    | exact Sub.bit (Sub.trans (by decide) hm)
    | (refine Sub.from (b := 0x400d0100) kz ?_; (try simp only [key, bk]); omega)
    | with_reducible apply Kept.ite
    | with_reducible split
    | split

theorem State.faultBatch_kept {mm : Nat} {s0 s : State} {b src cause : Nat} (hm : Sub 0x7ffffffffffc00000000000e124 mm) (h : Kept mm s0 s) : Kept mm s0 (State.faultBatch b src cause s) := by
  have k0 : Sub 0x7ffffffffffc000000000000104 mm := Sub.trans (by decide) hm
  have k1 : Sub 0x4 mm := Sub.trans (by decide) hm
  unfold State.faultBatch
  repeat' first
    | (intro x; refine Kept.bind (s0 := s0) (m := mm) (x := x) ?_ ?_; subst x; rotate_left; clear_value x; intro _)
    | (intro y; clear_value y)
    | intro _
    | with_reducible assumption
    | with_reducible lift_lets -underBinder
    | with_reducible apply State.blockBatch_kept hm
    | with_reducible apply State.pulseBlock_kept k0
    | with_reducible apply State.modBatch_kept k1
    | with_reducible apply State.setState_kept hm
    | with_reducible apply Kept.ite
    | with_reducible split
    | split

theorem State.startStop_kept {mm : Nat} {s0 s : State} {b : Nat} (hm : Sub 0x7ffff8000000000000000000024 mm) (h : Kept mm s0 s) : Kept mm s0 (State.startStop b s) := by
  have k0 : Sub 0x4 mm := Sub.trans (by decide) hm
  have k1 : Sub 0x0 mm := Sub.trans (by decide) hm
  have k2 : Sub 0x20 mm := Sub.trans (by decide) hm
  have k3 : Sub 0x7ffff8000000000000000000020 mm := Sub.trans (by decide) hm
  unfold State.startStop
  repeat' first
    | (intro x; refine Kept.bind (s0 := s0) (m := mm) (x := x) ?_ ?_; subst x; rotate_left; clear_value x; intro _)
    | (intro y; clear_value y)
    | intro _
    | with_reducible assumption
    | with_reducible lift_lets -underBinder
    | with_reducible apply State.modBatch_kept k0
    | with_reducible apply State.withGen_kept k1
    | with_reducible apply State.setGen_kept k2
    | with_reducible apply State.driveTarget_kept k3
    | with_reducible apply Kept.ite
    | with_reducible split
    | split

theorem State.react_kept {mm : Nat} {s0 s : State} {b k : Nat} (hm : Sub 0x7ffffffffffc00000000000e124 mm) (h : Kept mm s0 s) : Kept mm s0 (State.react b k s) := by
  have k0 : Sub 0x0 mm := Sub.trans (by decide) hm
  have k1 : Sub 0x7ffff8000000000000000000020 mm := Sub.trans (by decide) hm
  have k2 : Sub 0x4 mm := Sub.trans (by decide) hm
  unfold State.react
  repeat' first
    | (intro x; refine Kept.bind (s0 := s0) (m := mm) (x := x) ?_ ?_; subst x; rotate_left; clear_value x; intro _)
    | (intro y; clear_value y)
    | intro _
    | with_reducible assumption
    | with_reducible lift_lets -underBinder
    | with_reducible apply State.each_kept k0
    | with_reducible apply State.withGen_kept k0
    | with_reducible apply State.genHold_kept k1
    | with_reducible apply State.modBatch_kept k2
    | with_reducible apply State.blockBatch_kept hm
    | with_reducible apply State.faultBatch_kept hm
    | with_reducible apply Kept.ite
    | with_reducible split
    | split

theorem State.faultReaction_kept {mm : Nat} {s0 s : State} {b : Nat} (hm : Sub 0x7ffffffffffc00000000000e124 mm) (h : Kept mm s0 s) : Kept mm s0 (State.faultReaction b s) := by
  have k0 : Sub 0x4 mm := Sub.trans (by decide) hm
  have k1 : Sub 0x4000 mm := Sub.trans (by decide) hm
  have k2 : Sub 0x7fffd000000000000000000e000 mm := Sub.trans (by decide) hm
  have kz : Sub (2 ^ 107 - 2 ^ (20 + zone 0x40110800)) mm := Sub.trans (by decide) hm
  unfold State.faultReaction
  repeat' first
    | (intro x; refine Kept.bind (s0 := s0) (m := mm) (x := x) ?_ ?_; subst x; rotate_left; clear_value x; intro _)
    | (intro y; have w_ : Nat → State → State := y; clear w_; subst y)
    | (intro y; clear_value y)
    | intro _
    | with_reducible assumption
    | with_reducible lift_lets -underBinder
    | with_reducible apply State.modBatch_kept k0
    | with_reducible apply State.amendEvent_kept k1
    | with_reducible apply State.react_kept hm
    | with_reducible apply State.logEvent_kept k2
    | with_reducible refine State.inc_kept ?_ ?_
    | with_reducible refine State.wr_kept ?_ ?_
    | exact Sub.bit (Sub.trans (by decide) hm)
    | (refine Sub.from (b := 0x40110800) kz ?_; (try simp only [key, bk]); omega)
    | with_reducible apply Kept.ite
    | with_reducible split
    | split
    | with_reducible apply Kept.foldl_snd
    | with_reducible apply Kept.foldl_fst
    | with_reducible apply Kept.foldl
    | dsimp -zeta only

theorem State.demand_kept {mm : Nat} {s0 s : State} {b src : Nat} (hm : Sub 0x7fffffc00000000000000000004 mm) (h : Kept mm s0 s) : Kept mm s0 (State.demand b src s) := by
  have k0 : Sub 0x7fffffc00000000000000000000 mm := Sub.trans (by decide) hm
  have k1 : Sub 0x4 mm := Sub.trans (by decide) hm
  unfold State.demand
  repeat' first
    | (intro x; refine Kept.bind (s0 := s0) (m := mm) (x := x) ?_ ?_; subst x; rotate_left; clear_value x; intro _)
    | (intro y; clear_value y)
    | intro _
    | with_reducible assumption
    | with_reducible lift_lets -underBinder
    | with_reducible apply State.incQueue_kept k0
    | with_reducible apply State.setBatch_kept k1
    | with_reducible apply State.notePeak_kept k0
    | with_reducible apply Kept.ite
    | with_reducible split
    | split

end Sys2Proof.Machine
end

