-- ==== Sys2Proof/Laws/KeptLog.lean ====
section
/-! SUPPORT. What the operations of Machine/Log.lean may change (Safety.lean, Kept): one lemma for each. -/

set_option linter.all false

namespace Sys2Proof.Machine

theorem State.modLog_kept {mm : Nat} {s0 s : State} {f : Log → Log} (hm : Sub 0x4000 mm) (h : Kept mm s0 s) : Kept mm s0 (State.modLog f s) := by
  unfold State.modLog
  repeat' first
    | (intro x; refine Kept.bind (s0 := s0) (m := mm) (x := x) ?_ ?_; subst x; rotate_left; clear_value x; intro _)
    | (intro y; clear_value y)
    | intro _
    | with_reducible assumption
    | with_reducible lift_lets -underBinder
    | with_reducible apply Kept.ite
    | with_reducible split
    | split
    | with_reducible apply Kept.upd_log hm

theorem State.syncLog_kept {mm : Nat} {s0 s : State} (hm : Sub 0x200000000000000000000000 mm) (h : Kept mm s0 s) : Kept mm s0 (State.syncLog s) := by
  unfold State.syncLog
  repeat' first
    | (intro x; refine Kept.bind (s0 := s0) (m := mm) (x := x) ?_ ?_; subst x; rotate_left; clear_value x; intro _)
    | (intro y; clear_value y)
    | intro _
    | with_reducible assumption
    | with_reducible lift_lets -underBinder
    | with_reducible refine State.setBit_kept ?_ ?_
    | with_reducible refine State.wr_kept ?_ ?_
    | exact Sub.bit (Sub.trans (by decide) hm)
    | with_reducible apply Kept.ite
    | with_reducible split
    | split

theorem State.writeRecord_kept {mm : Nat} {s0 s : State} {e : Event} (hm : Sub 0x200000000000000000004000 mm) (h : Kept mm s0 s) : Kept mm s0 (State.writeRecord e s) := by
  have k0 : Sub 0x4000 mm := Sub.trans (by decide) hm
  unfold State.writeRecord
  repeat' first
    | (intro x; refine Kept.bind (s0 := s0) (m := mm) (x := x) ?_ ?_; subst x; rotate_left; clear_value x; intro _)
    | (intro y; clear_value y)
    | intro _
    | with_reducible assumption
    | with_reducible lift_lets -underBinder
    | with_reducible apply State.setCode_kept k0
    | with_reducible apply State.modLog_kept k0
    | with_reducible refine State.inc_kept ?_ ?_
    | exact Sub.bit (Sub.trans (by decide) hm)
    | with_reducible apply Kept.ite
    | with_reducible split
    | split

theorem State.commitRecord_kept {mm : Nat} {s0 s : State} (hm : Sub 0x200000000000000000004000 mm) (h : Kept mm s0 s) : Kept mm s0 (State.commitRecord s) := by
  have k0 : Sub 0x4000 mm := Sub.trans (by decide) hm
  have k1 : Sub 0x200000000000000000000000 mm := Sub.trans (by decide) hm
  unfold State.commitRecord
  repeat' first
    | (intro x; refine Kept.bind (s0 := s0) (m := mm) (x := x) ?_ ?_; subst x; rotate_left; clear_value x; intro _)
    | (intro y; clear_value y)
    | intro _
    | with_reducible assumption
    | with_reducible lift_lets -underBinder
    | with_reducible apply State.modLog_kept k0
    | with_reducible apply State.writeRecord_kept hm
    | with_reducible apply State.syncLog_kept k1
    | with_reducible apply Kept.ite
    | with_reducible split
    | split

theorem State.recordCommit_kept {mm : Nat} {s0 s : State} (hm : Sub 0x200000000000000000004000 mm) (h : Kept mm s0 s) : Kept mm s0 (State.recordCommit s) := by
  unfold State.recordCommit
  repeat' first
    | (intro x; refine Kept.bind (s0 := s0) (m := mm) (x := x) ?_ ?_; subst x; rotate_left; clear_value x; intro _)
    | (intro y; clear_value y)
    | intro _
    | with_reducible assumption
    | with_reducible lift_lets -underBinder
    | with_reducible apply State.commitRecord_kept hm
    | with_reducible apply Kept.ite
    | with_reducible split
    | split

theorem State.commitAll_kept {mm : Nat} {s0 s : State} (hm : Sub 0x200000000000000000004000 mm) (h : Kept mm s0 s) : Kept mm s0 (State.commitAll s) := by
  have k0 : Sub 0x0 mm := Sub.trans (by decide) hm
  unfold State.commitAll
  repeat' first
    | (intro x; refine Kept.bind (s0 := s0) (m := mm) (x := x) ?_ ?_; subst x; rotate_left; clear_value x; intro _)
    | (intro y; clear_value y)
    | intro _
    | with_reducible assumption
    | with_reducible lift_lets -underBinder
    | with_reducible apply State.each_kept k0
    | with_reducible apply State.commitRecord_kept hm
    | with_reducible apply Kept.ite
    | with_reducible split
    | split

theorem State.stageQueue_kept {mm : Nat} {s0 s : State} (hm : Sub 0x200000000000000000004000 mm) (h : Kept mm s0 s) : Kept mm s0 (State.stageQueue s) := by
  have k0 : Sub 0x4000 mm := Sub.trans (by decide) hm
  have k1 : Sub 0x0 mm := Sub.trans (by decide) hm
  unfold State.stageQueue
  repeat' first
    | (intro x; refine Kept.bind (s0 := s0) (m := mm) (x := x) ?_ ?_; subst x; rotate_left; clear_value x; intro _)
    | (intro y; clear_value y)
    | intro _
    | with_reducible assumption
    | with_reducible lift_lets -underBinder
    | with_reducible apply State.modLog_kept k0
    | with_reducible apply State.each_kept k1
    | with_reducible apply State.setCode_kept k0
    | with_reducible refine State.inc_kept ?_ ?_
    | exact Sub.bit (Sub.trans (by decide) hm)
    | with_reducible apply Kept.ite
    | with_reducible split
    | split

theorem freezeEff_kept {mm : Nat} {s0 : State} {service : Bool} (hm : Sub 0x200000000000000000004000 mm) : EffKept mm s0 (freezeEff service) := by
  have k0 : Sub 0x4000 mm := Sub.trans (by decide) hm
  have k1 : Sub 0x200000000000000000000000 mm := Sub.trans (by decide) hm
  unfold freezeEff
  repeat' first
    | (intro x; refine Kept.bind (s0 := s0) (m := mm) (x := x) ?_ ?_; subst x; rotate_left; clear_value x; intro _)
    | (intro y; clear_value y)
    | intro _
    | with_reducible assumption
    | with_reducible lift_lets -underBinder
    | with_reducible apply State.modLog_kept k0
    | with_reducible apply State.stageQueue_kept hm
    | with_reducible apply State.syncLog_kept k1
    | with_reducible apply Kept.ite
    | with_reducible apply EffKept.ite
    | with_reducible split
    | split
    | (refine ⟨fun s h => ?_⟩; dsimp -zeta only)
    | dsimp -zeta only

theorem State.freezeEnd_kept {mm : Nat} {s0 s : State} (hm : Sub 0x7fffd000000000000000000e000 mm) (h : Kept mm s0 s) : Kept mm s0 (State.freezeEnd s) := by
  have k0 : Sub 0x4000 mm := Sub.trans (by decide) hm
  have k1 : Sub 0x200000000000000000000000 mm := Sub.trans (by decide) hm
  unfold State.freezeEnd
  repeat' first
    | (intro x; refine Kept.bind (s0 := s0) (m := mm) (x := x) ?_ ?_; subst x; rotate_left; clear_value x; intro _)
    | (intro y; clear_value y)
    | intro _
    | with_reducible assumption
    | with_reducible lift_lets -underBinder
    | with_reducible apply State.modLog_kept k0
    | with_reducible apply State.logEvent_kept hm
    | with_reducible apply State.syncLog_kept k1
    | with_reducible apply Kept.ite
    | with_reducible split
    | split

theorem State.freezeTimeout_kept {mm : Nat} {s0 s : State} (hm : Sub 0x7fffd000000000000000000e000 mm) (h : Kept mm s0 s) : Kept mm s0 (State.freezeTimeout s) := by
  unfold State.freezeTimeout
  repeat' first
    | (intro x; refine Kept.bind (s0 := s0) (m := mm) (x := x) ?_ ?_; subst x; rotate_left; clear_value x; intro _)
    | (intro y; clear_value y)
    | intro _
    | with_reducible assumption
    | with_reducible lift_lets -underBinder
    | with_reducible apply State.freezeEnd_kept hm
    | with_reducible apply Kept.ite
    | with_reducible split
    | split

theorem archiveEff_kept {mm : Nat} {s0 : State} {seq : Nat} (hm : Sub 0x2000000000000000040a4000 mm) : EffKept mm s0 (archiveEff seq) := by
  have k0 : Sub 0x40a0000 mm := Sub.trans (by decide) hm
  have k1 : Sub 0x4000 mm := Sub.trans (by decide) hm
  have k2 : Sub 0x200000000000000000004000 mm := Sub.trans (by decide) hm
  have k3 : Sub 0x200000000000000000000000 mm := Sub.trans (by decide) hm
  unfold archiveEff
  repeat' first
    | (intro x; refine Kept.bind (s0 := s0) (m := mm) (x := x) ?_ ?_; subst x; rotate_left; clear_value x; intro _)
    | (intro y; clear_value y)
    | intro _
    | with_reducible assumption
    | with_reducible lift_lets -underBinder
    | with_reducible apply State.startLong_kept k0
    | with_reducible apply State.modLog_kept k1
    | with_reducible apply State.stageQueue_kept k2
    | with_reducible apply State.syncLog_kept k3
    | with_reducible apply Kept.ite
    | with_reducible apply EffKept.ite
    | with_reducible split
    | split
    | (refine ⟨fun s h => ?_⟩; dsimp -zeta only)
    | dsimp -zeta only

theorem State.archiveComplete_kept {mm : Nat} {s0 s : State} (hm : Sub 0x7fffd000000000000000402e000 mm) (h : Kept mm s0 s) : Kept mm s0 (State.archiveComplete s) := by
  have k0 : Sub 0x4000 mm := Sub.trans (by decide) hm
  have k1 : Sub 0x200000000000000000004000 mm := Sub.trans (by decide) hm
  have k2 : Sub 0x200000000000000000000000 mm := Sub.trans (by decide) hm
  have k3 : Sub 0x7fffd000000000000000000e000 mm := Sub.trans (by decide) hm
  have k4 : Sub 0x4028000 mm := Sub.trans (by decide) hm
  unfold State.archiveComplete
  repeat' first
    | (intro x; refine Kept.bind (s0 := s0) (m := mm) (x := x) ?_ ?_; subst x; rotate_left; clear_value x; intro _)
    | (intro y; clear_value y)
    | intro _
    | with_reducible assumption
    | with_reducible lift_lets -underBinder
    | with_reducible apply State.modLog_kept k0
    | with_reducible apply State.writeRecord_kept k1
    | with_reducible apply State.syncLog_kept k2
    | with_reducible apply State.logUnits_kept k3
    | with_reducible apply State.endLong_kept k4
    | with_reducible refine State.wr_kept ?_ ?_
    | exact Sub.bit (Sub.trans (by decide) hm)
    | with_reducible apply Kept.ite
    | with_reducible split
    | split

theorem State.snapshot_kept {mm : Nat} {s0 s : State} (hm : Sub 0x0 mm) (h : Kept mm s0 s) : Kept mm s0 (State.snapshot s) := by
  unfold State.snapshot
  repeat' first
    | (intro x; refine Kept.bind (s0 := s0) (m := mm) (x := x) ?_ ?_; subst x; rotate_left; clear_value x; intro _)
    | (intro y; clear_value y)
    | intro _
    | with_reducible assumption
    | with_reducible lift_lets -underBinder
    | with_reducible apply State.emit_kept hm
    | with_reducible apply Kept.ite
    | with_reducible split
    | split

theorem logWindowEff_kept {mm : Nat} {s0 : State} {sub : Nat} {v : Int} (hm : Sub 0x400000000000000000004000 mm) : EffKept mm s0 (logWindowEff sub v) := by
  have k0 : Sub 0x4000 mm := Sub.trans (by decide) hm
  unfold logWindowEff
  repeat' first
    | (intro x; refine Kept.bind (s0 := s0) (m := mm) (x := x) ?_ ?_; subst x; rotate_left; clear_value x; intro _)
    | (intro y; clear_value y)
    | intro _
    | with_reducible assumption
    | with_reducible lift_lets -underBinder
    | with_reducible apply State.setCode_kept k0
    | with_reducible refine State.wr_kept ?_ ?_
    | exact Sub.bit (Sub.trans (by decide) hm)
    | with_reducible apply Kept.ite
    | with_reducible apply EffKept.ite
    | with_reducible split
    | split
    | (refine ⟨fun s h => ?_⟩; dsimp -zeta only)
    | dsimp -zeta only

end Sys2Proof.Machine
end

