-- ==== Sys2Proof/Laws/KeptTriggers.lean ====
section
/-! SUPPORT. What the operations of Machine/Triggers.lean may change (Safety.lean, Kept): one lemma for each. -/

set_option linter.all false

namespace Sys2Proof.Machine

theorem State.unitUpdate_kept {mm : Nat} {s0 s : State} {u : Nat} {raw : Bool} {v : Option Int} {tm : Time} (hm : Sub 0x7fffd000000000000000000e000 mm) (h : Kept mm s0 s) : Kept mm s0 (State.unitUpdate u raw v tm s) := by
  have k0 : Sub 0x2000 mm := Sub.trans (by decide) hm
  have k1 : Sub 0x7fffd000000000000000000a000 mm := Sub.trans (by decide) hm
  have kz : Sub (2 ^ 107 - 2 ^ (20 + zone 0x70100f00)) mm := Sub.trans (by decide) hm
  unfold State.unitUpdate
  repeat' first
    | (intro x; refine Kept.bind (s0 := s0) (m := mm) (x := x) ?_ ?_; subst x; rotate_left; clear_value x; intro _)
    | (intro y; clear_value y)
    | intro _
    | with_reducible assumption
    | with_reducible lift_lets -underBinder
    | with_reducible apply State.setTrig_kept k0
    | with_reducible apply State.fireUnit_kept k1
    | with_reducible apply State.logEvent_kept hm
    | with_reducible refine State.wr_kept ?_ ?_
    | exact Sub.bit (Sub.trans (by decide) hm)
    | (refine Sub.from (b := 0x70100f00) kz ?_; (try simp only [key, bk, tuk]); omega)
    | with_reducible apply Kept.ite
    | with_reducible split
    | split

theorem State.source_kept {mm : Nat} {s0 s : State} {type sel : Nat} {v : Option Int} {tm : Time} (hm : Sub 0x7fffd000000000000000000e000 mm) (h : Kept mm s0 s) : Kept mm s0 (State.source type sel v tm s) := by
  have k0 : Sub 0x0 mm := Sub.trans (by decide) hm
  unfold State.source
  repeat' first
    | (intro x; refine Kept.bind (s0 := s0) (m := mm) (x := x) ?_ ?_; subst x; rotate_left; clear_value x; intro _)
    | (intro y; clear_value y)
    | intro _
    | with_reducible assumption
    | with_reducible lift_lets -underBinder
    | with_reducible apply State.each_kept k0
    | with_reducible apply State.unitUpdate_kept hm
    | with_reducible apply Kept.ite
    | with_reducible split
    | split

theorem State.frameSource_kept {mm : Nat} {s0 s : State} {type sel : Nat} {bytes : List Byte} {tm : Time} (hm : Sub 0x7fffd000000000000000000e000 mm) (h : Kept mm s0 s) : Kept mm s0 (State.frameSource type sel bytes tm s) := by
  have k0 : Sub 0x0 mm := Sub.trans (by decide) hm
  unfold State.frameSource
  repeat' first
    | (intro x; refine Kept.bind (s0 := s0) (m := mm) (x := x) ?_ ?_; subst x; rotate_left; clear_value x; intro _)
    | (intro y; clear_value y)
    | intro _
    | with_reducible assumption
    | with_reducible lift_lets -underBinder
    | with_reducible apply State.each_kept k0
    | with_reducible apply State.unitUpdate_kept hm
    | with_reducible apply Kept.ite
    | with_reducible split
    | split

theorem State.pulseSource_kept {mm : Nat} {s0 s : State} {k : Nat} {tm : Time} (hm : Sub 0x7fffd000000000000000000e000 mm) (h : Kept mm s0 s) : Kept mm s0 (State.pulseSource k tm s) := by
  have k0 : Sub 0x0 mm := Sub.trans (by decide) hm
  have k1 : Sub 0x7fffd000000000000000000a000 mm := Sub.trans (by decide) hm
  unfold State.pulseSource
  repeat' first
    | (intro x; refine Kept.bind (s0 := s0) (m := mm) (x := x) ?_ ?_; subst x; rotate_left; clear_value x; intro _)
    | (intro y; clear_value y)
    | intro _
    | with_reducible assumption
    | with_reducible lift_lets -underBinder
    | with_reducible apply State.each_kept k0
    | with_reducible apply State.everyUpdate_kept k1
    | with_reducible apply State.logEvent_kept hm
    | with_reducible apply Kept.ite
    | with_reducible split
    | split

theorem State.batchSource_kept {mm : Nat} {s0 s : State} {b : Nat} (hm : Sub 0x7fffd000000000000000000e000 mm) (h : Kept mm s0 s) : Kept mm s0 (State.batchSource b s) := by
  unfold State.batchSource
  repeat' first
    | (intro x; refine Kept.bind (s0 := s0) (m := mm) (x := x) ?_ ?_; subst x; rotate_left; clear_value x; intro _)
    | (intro y; clear_value y)
    | intro _
    | with_reducible assumption
    | with_reducible lift_lets -underBinder
    | with_reducible apply State.source_kept hm
    | with_reducible apply Kept.ite
    | with_reducible split
    | split

theorem State.inputDue_kept {mm : Nat} {s0 s : State} {i u : Nat} (hm : Sub 0x7fffd000000000000000000e000 mm) (h : Kept mm s0 s) : Kept mm s0 (State.inputDue i u s) := by
  have k0 : Sub 0x2000 mm := Sub.trans (by decide) hm
  have k1 : Sub 0x0 mm := Sub.trans (by decide) hm
  have k2 : Sub 0x7fffd000000000000000000a000 mm := Sub.trans (by decide) hm
  have kz : Sub (2 ^ 107 - 2 ^ (20 + zone 0x70100f00)) mm := Sub.trans (by decide) hm
  unfold State.inputDue
  repeat' first
    | (intro x; refine Kept.bind (s0 := s0) (m := mm) (x := x) ?_ ?_; subst x; rotate_left; clear_value x; intro _)
    | (intro y; clear_value y)
    | intro _
    | with_reducible assumption
    | with_reducible lift_lets -underBinder
    | with_reducible apply State.setTrig_kept k0
    | with_reducible apply State.asOf_kept k1
    | with_reducible apply State.fireUnit_kept k2
    | with_reducible apply State.logEvent_kept hm
    | with_reducible refine State.wr_kept ?_ ?_
    | exact Sub.bit (Sub.trans (by decide) hm)
    | (refine Sub.from (b := 0x70100f00) kz ?_; (try simp only [key, bk, tuk]); omega)
    | with_reducible apply Kept.ite
    | with_reducible split
    | split

theorem State.inputsDue_kept {mm : Nat} {s0 s : State} (hm : Sub 0x7fffd000000000000000000e000 mm) (h : Kept mm s0 s) : Kept mm s0 (State.inputsDue s) := by
  have k0 : Sub 0x0 mm := Sub.trans (by decide) hm
  unfold State.inputsDue
  repeat' first
    | (intro x; refine Kept.bind (s0 := s0) (m := mm) (x := x) ?_ ?_; subst x; rotate_left; clear_value x; intro _)
    | (intro y; clear_value y)
    | intro _
    | with_reducible assumption
    | with_reducible lift_lets -underBinder
    | with_reducible apply State.each_kept k0
    | with_reducible apply State.inputDue_kept hm
    | with_reducible apply Kept.ite
    | with_reducible split
    | split

theorem State.inputEdge_kept {mm : Nat} {s0 s : State} {i : Nat} {high : Bool} {tm : Time} (hm : Sub 0x7fffd000000000000000000e000 mm) (h : Kept mm s0 s) : Kept mm s0 (State.inputEdge i high tm s) := by
  have k0 : Sub 0x2000 mm := Sub.trans (by decide) hm
  unfold State.inputEdge
  repeat' first
    | (intro x; refine Kept.bind (s0 := s0) (m := mm) (x := x) ?_ ?_; subst x; rotate_left; clear_value x; intro _)
    | (intro y; clear_value y)
    | intro _
    | with_reducible assumption
    | with_reducible lift_lets -underBinder
    | with_reducible apply State.inputsDue_kept hm
    | with_reducible apply Kept.ite
    | with_reducible split
    | split
    | with_reducible apply Kept.upd_acq k0

theorem State.acqValue_kept {mm : Nat} {s0 s : State} {src sel : Nat} {v : Int} {tm : Time} (hm : Sub 0x2000 mm) (h : Kept mm s0 s) : Kept mm s0 (State.acqValue src sel v tm s) := by
  have k0 : Sub 0x0 mm := Sub.trans (by decide) hm
  unfold State.acqValue
  repeat' first
    | (intro x; refine Kept.bind (s0 := s0) (m := mm) (x := x) ?_ ?_; subst x; rotate_left; clear_value x; intro _)
    | (intro y; clear_value y)
    | intro _
    | with_reducible assumption
    | with_reducible lift_lets -underBinder
    | with_reducible apply State.each_kept k0
    | with_reducible apply Kept.ite
    | with_reducible split
    | split
    | with_reducible apply Kept.upd_acq hm

theorem State.acqFloat_kept {mm : Nat} {s0 s : State} {src sel : Nat} {v : F32} {tm : Time} (hm : Sub 0x2000 mm) (h : Kept mm s0 s) : Kept mm s0 (State.acqFloat src sel v tm s) := by
  have k0 : Sub 0x0 mm := Sub.trans (by decide) hm
  unfold State.acqFloat
  repeat' first
    | (intro x; refine Kept.bind (s0 := s0) (m := mm) (x := x) ?_ ?_; subst x; rotate_left; clear_value x; intro _)
    | (intro y; clear_value y)
    | intro _
    | with_reducible assumption
    | with_reducible lift_lets -underBinder
    | with_reducible apply State.each_kept k0
    | with_reducible apply Kept.ite
    | with_reducible split
    | split
    | with_reducible apply Kept.upd_acq hm

theorem State.acqRescale_kept {mm : Nat} {s0 s : State} {j : Nat} (hm : Sub 0x2000 mm) (h : Kept mm s0 s) : Kept mm s0 (State.acqRescale j s) := by
  unfold State.acqRescale
  repeat' first
    | (intro x; refine Kept.bind (s0 := s0) (m := mm) (x := x) ?_ ?_; subst x; rotate_left; clear_value x; intro _)
    | (intro y; clear_value y)
    | intro _
    | with_reducible assumption
    | with_reducible lift_lets -underBinder
    | with_reducible apply Kept.ite
    | with_reducible split
    | split
    | with_reducible apply Kept.upd_acq hm

theorem State.setMaskEx_kept {mm : Nat} {s0 s : State} {m : Nat} {x : Excursion} (hm : Sub 0x2000 mm) (h : Kept mm s0 s) : Kept mm s0 (State.setMaskEx m x s) := by
  unfold State.setMaskEx
  repeat' first
    | (intro x; refine Kept.bind (s0 := s0) (m := mm) (x := x) ?_ ?_; subst x; rotate_left; clear_value x; intro _)
    | (intro y; clear_value y)
    | intro _
    | with_reducible assumption
    | with_reducible lift_lets -underBinder
    | with_reducible apply Kept.ite
    | with_reducible split
    | split
    | with_reducible apply Kept.upd_acq hm

theorem State.maskStop_kept {mm : Nat} {s0 s : State} {slot : Nat} {tm : Time} (hm : Sub 0x7fffd000000000000000000e000 mm) (h : Kept mm s0 s) : Kept mm s0 (State.maskStop slot tm s) := by
  have k0 : Sub 0x7fff10000000000000000002000 mm := Sub.trans (by decide) hm
  have k1 : Sub 0x2000 mm := Sub.trans (by decide) hm
  unfold State.maskStop
  repeat' first
    | (intro x; refine Kept.bind (s0 := s0) (m := mm) (x := x) ?_ ?_; subst x; rotate_left; clear_value x; intro _)
    | (intro y; have w_ : State × Bool := y; clear w_)
    | (intro y; clear_value y)
    | intro _
    | with_reducible assumption
    | with_reducible lift_lets -underBinder
    | with_reducible apply State.captureFire_kept k0
    | with_reducible apply State.logEvent_kept hm
    | with_reducible refine State.wr_kept ?_ ?_
    | exact Sub.bit (Sub.trans (by decide) hm)
    | with_reducible apply Kept.ite
    | with_reducible split
    | split
    | with_reducible apply Kept.upd_acq k1
    | with_reducible refine Kept.snd (by assumption) ?_
    | with_reducible refine Kept.fst (by assumption) ?_

theorem State.maskStep_kept {mm : Nat} {s0 s : State} {m : Nat} {v : Option Rat} {outside : Bool} {tm : Time} (hm : Sub 0x7fffd000000000000000000e000 mm) (h : Kept mm s0 s) : Kept mm s0 (State.maskStep m v outside tm s) := by
  have k0 : Sub 0x2000 mm := Sub.trans (by decide) hm
  have k1 : Sub 0x8000 mm := Sub.trans (by decide) hm
  have kz : Sub (2 ^ 107 - 2 ^ (20 + zone 0x70300700)) mm := Sub.trans (by decide) hm
  unfold State.maskStep
  repeat' first
    | (intro x; refine Kept.bind (s0 := s0) (m := mm) (x := x) ?_ ?_; subst x; rotate_left; clear_value x; intro _)
    | (intro y; clear_value y)
    | intro _
    | with_reducible assumption
    | with_reducible lift_lets -underBinder
    | with_reducible apply State.setMaskEx_kept k0
    | with_reducible apply State.maskStop_kept hm
    | with_reducible apply State.rackMsg_kept k1
    | with_reducible apply State.logEvent_kept hm
    | with_reducible refine State.inc_kept ?_ ?_
    | with_reducible refine State.setBit_kept ?_ ?_
    | exact Sub.bit (Sub.trans (by decide) hm)
    | (refine Sub.from (b := 0x70300700) kz ?_; (try simp only [key, bk, mkk]); omega)
    | with_reducible apply Kept.ite
    | with_reducible split
    | split

theorem State.maskVoltage_kept {mm : Nat} {s0 s : State} {c : Nat} {r : Int} {valid : Bool} {tm : Time} (hm : Sub 0x7fffd000000000000000000e000 mm) (h : Kept mm s0 s) : Kept mm s0 (State.maskVoltage c r valid tm s) := by
  have k0 : Sub 0x0 mm := Sub.trans (by decide) hm
  unfold State.maskVoltage
  repeat' first
    | (intro x; refine Kept.bind (s0 := s0) (m := mm) (x := x) ?_ ?_; subst x; rotate_left; clear_value x; intro _)
    | (intro y; clear_value y)
    | intro _
    | with_reducible assumption
    | with_reducible lift_lets -underBinder
    | with_reducible apply State.each_kept k0
    | with_reducible apply State.maskStep_kept hm
    | with_reducible apply Kept.ite
    | with_reducible split
    | split

theorem State.maskFrequency_kept {mm : Nat} {s0 s : State} {c : Nat} {f nom : Rat} {tracked : Bool} {tm : Time} (hm : Sub 0x7fffd000000000000000000e000 mm) (h : Kept mm s0 s) : Kept mm s0 (State.maskFrequency c f nom tracked tm s) := by
  have k0 : Sub 0x0 mm := Sub.trans (by decide) hm
  unfold State.maskFrequency
  repeat' first
    | (intro x; refine Kept.bind (s0 := s0) (m := mm) (x := x) ?_ ?_; subst x; rotate_left; clear_value x; intro _)
    | (intro y; clear_value y)
    | intro _
    | with_reducible assumption
    | with_reducible lift_lets -underBinder
    | with_reducible apply State.each_kept k0
    | with_reducible apply State.maskStep_kept hm
    | with_reducible apply Kept.ite
    | with_reducible split
    | split

end Sys2Proof.Machine
end

