-- ==== Sys2Proof/Laws/KeptAcq.lean ====
section
/-! SUPPORT. What the operations of Machine/Acq.lean may change (Safety.lean, Kept): one lemma for each. -/

set_option linter.all false

namespace Sys2Proof.Machine

theorem State.modAcq_kept {mm : Nat} {s0 s : State} {f : Acq → Acq} (hm : Sub 0x2000 mm) (h : Kept mm s0 s) : Kept mm s0 (State.modAcq f s) := by
  unfold State.modAcq
  repeat' first
    | (intro x; refine Kept.bind (s0 := s0) (m := mm) (x := x) ?_ ?_; subst x; rotate_left; clear_value x; intro _)
    | (intro y; clear_value y)
    | intro _
    | with_reducible assumption
    | with_reducible lift_lets -underBinder
    | with_reducible apply Kept.ite
    | with_reducible split
    | split
    | with_reducible apply Kept.upd_acq hm

theorem State.clearBuffer_kept {mm : Nat} {s0 s : State} {k : Nat} (hm : Sub 0x7fff00000000000000000002002 mm) (h : Kept mm s0 s) : Kept mm s0 (State.clearBuffer k s) := by
  have k0 : Sub 0x0 mm := Sub.trans (by decide) hm
  have k1 : Sub 0x2 mm := Sub.trans (by decide) hm
  have k2 : Sub 0x2000 mm := Sub.trans (by decide) hm
  have kz : Sub (2 ^ 107 - 2 ^ (20 + zone 0x70e00000)) mm := Sub.trans (by decide) hm
  unfold State.clearBuffer
  repeat' first
    | (intro x; refine Kept.bind (s0 := s0) (m := mm) (x := x) ?_ ?_; subst x; rotate_left; clear_value x; intro _)
    | (intro y; clear_value y)
    | intro _
    | with_reducible assumption
    | with_reducible lift_lets -underBinder
    | with_reducible apply State.each_kept k0
    | with_reducible apply State.wrBlob_kept k1
    | with_reducible apply State.modAcq_kept k2
    | with_reducible refine State.wr_kept ?_ ?_
    | exact Sub.bit (Sub.trans (by decide) hm)
    | (refine Sub.from (b := 0x70e00000) kz ?_; (try simp only [key, bk, bfk]); omega)
    | with_reducible apply Kept.ite
    | with_reducible split
    | split

theorem State.activate_kept {mm : Nat} {s0 s : State} (hm : Sub 0x7fff00000000000000000002002 mm) (h : Kept mm s0 s) : Kept mm s0 (State.activate s) := by
  have kz : Sub (2 ^ 107 - 2 ^ (20 + zone 0x70e00100)) mm := Sub.trans (by decide) hm
  unfold State.activate
  repeat' first
    | (intro x; refine Kept.bind (s0 := s0) (m := mm) (x := x) ?_ ?_; subst x; rotate_left; clear_value x; intro _)
    | (intro y; clear_value y)
    | intro _
    | with_reducible assumption
    | with_reducible lift_lets -underBinder
    | with_reducible apply State.clearBuffer_kept hm
    | with_reducible refine State.wr_kept ?_ ?_
    | exact Sub.bit (Sub.trans (by decide) hm)
    | (refine Sub.from (b := 0x70e00100) kz ?_; (try simp only [key, bk, bfk]); omega)
    | with_reducible apply Kept.ite
    | with_reducible split
    | split

theorem State.dropRing_kept {mm : Nat} {s0 s : State} (hm : Sub 0x7fff00000000000000000002002 mm) (h : Kept mm s0 s) : Kept mm s0 (State.dropRing s) := by
  have k0 : Sub 0x0 mm := Sub.trans (by decide) hm
  unfold State.dropRing
  repeat' first
    | (intro x; refine Kept.bind (s0 := s0) (m := mm) (x := x) ?_ ?_; subst x; rotate_left; clear_value x; intro _)
    | (intro y; clear_value y)
    | intro _
    | with_reducible assumption
    | with_reducible lift_lets -underBinder
    | with_reducible apply State.each_kept k0
    | with_reducible apply State.clearBuffer_kept hm
    | with_reducible apply Kept.ite
    | with_reducible split
    | split

theorem State.discardCaptures_kept {mm : Nat} {s0 s : State} (hm : Sub 0x7fff00000000000000000002002 mm) (h : Kept mm s0 s) : Kept mm s0 (State.discardCaptures s) := by
  have k0 : Sub 0x0 mm := Sub.trans (by decide) hm
  have k1 : Sub 0x2000 mm := Sub.trans (by decide) hm
  unfold State.discardCaptures
  repeat' first
    | (intro x; refine Kept.bind (s0 := s0) (m := mm) (x := x) ?_ ?_; subst x; rotate_left; clear_value x; intro _)
    | (intro y; clear_value y)
    | intro _
    | with_reducible assumption
    | with_reducible lift_lets -underBinder
    | with_reducible apply State.each_kept k0
    | with_reducible apply State.clearBuffer_kept hm
    | with_reducible apply State.modAcq_kept k1
    | with_reducible apply State.activate_kept hm
    | with_reducible apply Kept.ite
    | with_reducible split
    | split

theorem State.scheduleArm_kept {mm : Nat} {s0 s : State} {arm : Bool} {at_ : Time} (hm : Sub 0x10000000000000000008000 mm) (h : Kept mm s0 s) : Kept mm s0 (State.scheduleArm arm at_ s) := by
  have k0 : Sub 0x8000 mm := Sub.trans (by decide) hm
  unfold State.scheduleArm
  repeat' first
    | (intro x; refine Kept.bind (s0 := s0) (m := mm) (x := x) ?_ ?_; subst x; rotate_left; clear_value x; intro _)
    | (intro y; clear_value y)
    | intro _
    | with_reducible assumption
    | with_reducible lift_lets -underBinder
    | with_reducible apply State.modRack_kept k0
    | with_reducible refine State.wr_kept ?_ ?_
    | exact Sub.bit (Sub.trans (by decide) hm)
    | with_reducible apply Kept.ite
    | with_reducible split
    | split

theorem armEff_kept {mm : Nat} {s0 : State} {arm : Bool} (hm : Sub 0x10000000000000000008000 mm) : EffKept mm s0 (armEff arm) := by
  have k0 : Sub 0x8000 mm := Sub.trans (by decide) hm
  unfold armEff
  repeat' first
    | (intro x; refine Kept.bind (s0 := s0) (m := mm) (x := x) ?_ ?_; subst x; rotate_left; clear_value x; intro _)
    | (intro y; clear_value y)
    | intro _
    | with_reducible assumption
    | with_reducible lift_lets -underBinder
    | with_reducible apply State.scheduleArm_kept hm
    | with_reducible apply State.rackMsg_kept k0
    | with_reducible apply Kept.ite
    | with_reducible apply EffKept.ite
    | with_reducible split
    | split
    | (refine ⟨fun s h => ?_⟩; dsimp -zeta only)
    | dsimp -zeta only

theorem State.armTime_kept {mm : Nat} {s0 s : State} (hm : Sub 0x7fffd000000000000000000e002 mm) (h : Kept mm s0 s) : Kept mm s0 (State.armTime s) := by
  have k0 : Sub 0x8000 mm := Sub.trans (by decide) hm
  have k1 : Sub 0x7fff00000000000000000002002 mm := Sub.trans (by decide) hm
  have k2 : Sub 0x7fffd000000000000000000e000 mm := Sub.trans (by decide) hm
  have k3 : Sub 0x2000 mm := Sub.trans (by decide) hm
  have k4 : Sub 0x0 mm := Sub.trans (by decide) hm
  have kz : Sub (2 ^ 107 - 2 ^ (20 + zone 0x70300700)) mm := Sub.trans (by decide) hm
  unfold State.armTime
  repeat' first
    | (intro x; refine Kept.bind (s0 := s0) (m := mm) (x := x) ?_ ?_; subst x; rotate_left; clear_value x; intro _)
    | (intro y; clear_value y)
    | intro _
    | with_reducible assumption
    | with_reducible lift_lets -underBinder
    | with_reducible apply State.modRack_kept k0
    | with_reducible apply State.dropRing_kept k1
    | with_reducible apply State.logEvent_kept k2
    | with_reducible apply State.rackMsg_kept k0
    | with_reducible apply State.modAcq_kept k3
    | with_reducible apply State.each_kept k4
    | with_reducible apply State.activate_kept k1
    | with_reducible refine State.wr_kept ?_ ?_
    | exact Sub.bit (Sub.trans (by decide) hm)
    | (refine Sub.from (b := 0x70300700) kz ?_; (try simp only [key, bk, aqk, mkk]); omega)
    | with_reducible apply Kept.ite
    | with_reducible split
    | split

theorem State.captureComplete_kept {mm : Nat} {s0 s : State} {k : Nat} (hm : Sub 0x7fffd000000000000000000e002 mm) (h : Kept mm s0 s) : Kept mm s0 (State.captureComplete k s) := by
  have k0 : Sub 0x2000 mm := Sub.trans (by decide) hm
  have k1 : Sub 0x7fff00000000000000000000000 mm := Sub.trans (by decide) hm
  have k2 : Sub 0x7fffd000000000000000000e000 mm := Sub.trans (by decide) hm
  have k3 : Sub 0x7fff00000000000000000002002 mm := Sub.trans (by decide) hm
  have kz : Sub (2 ^ 107 - 2 ^ (20 + zone 0x70e00100)) mm := Sub.trans (by decide) hm
  unfold State.captureComplete
  repeat' first
    | (intro x; refine Kept.bind (s0 := s0) (m := mm) (x := x) ?_ ?_; subst x; rotate_left; clear_value x; intro _)
    | (intro y; clear_value y)
    | intro _
    | with_reducible assumption
    | with_reducible lift_lets -underBinder
    | with_reducible apply State.setAcqBuf_kept k0
    | with_reducible apply State.showCapture_kept k1
    | with_reducible apply State.logEvent_kept k2
    | with_reducible apply State.modAcq_kept k0
    | with_reducible apply State.dropRing_kept k3
    | with_reducible apply State.activate_kept k3
    | with_reducible refine State.wr_kept ?_ ?_
    | exact Sub.bit (Sub.trans (by decide) hm)
    | (refine Sub.from (b := 0x70e00100) kz ?_; (try simp only [key, bk, aqk, bfk]); omega)
    | with_reducible apply Kept.ite
    | with_reducible split
    | split

theorem State.putRecord_kept {mm : Nat} {s0 s : State} {k : Nat} {r : AcqRec} (hm : Sub 0x7fffd000000000000000000e002 mm) (h : Kept mm s0 s) : Kept mm s0 (State.putRecord k r s) := by
  have k0 : Sub 0x2000 mm := Sub.trans (by decide) hm
  unfold State.putRecord
  repeat' first
    | (intro x; refine Kept.bind (s0 := s0) (m := mm) (x := x) ?_ ?_; subst x; rotate_left; clear_value x; intro _)
    | (intro y; clear_value y)
    | intro _
    | with_reducible assumption
    | with_reducible lift_lets -underBinder
    | with_reducible apply State.setAcqBuf_kept k0
    | with_reducible apply State.captureComplete_kept hm
    | with_reducible apply Kept.ite
    | with_reducible split
    | split

theorem State.recordInstant_kept {mm : Nat} {s0 s : State} (hm : Sub 0x7fffd000000000000000000e002 mm) (h : Kept mm s0 s) : Kept mm s0 (State.recordInstant s) := by
  have k0 : Sub 0x7fffd000000000000000000e000 mm := Sub.trans (by decide) hm
  have k1 : Sub 0x0 mm := Sub.trans (by decide) hm
  unfold State.recordInstant
  repeat' first
    | (intro x; refine Kept.bind (s0 := s0) (m := mm) (x := x) ?_ ?_; subst x; rotate_left; clear_value x; intro _)
    | (intro y; clear_value y)
    | intro _
    | with_reducible assumption
    | with_reducible lift_lets -underBinder
    | with_reducible apply State.inputsDue_kept k0
    | with_reducible apply State.each_kept k1
    | with_reducible apply State.putRecord_kept hm
    | with_reducible apply Kept.ite
    | with_reducible split
    | split

theorem State.rackFiring_kept {mm : Nat} {s0 s : State} {slot unit : Nat} {inst : Time} (hm : Sub 0x7fffd000000000000000000e000 mm) (h : Kept mm s0 s) : Kept mm s0 (State.rackFiring slot unit inst s) := by
  have k0 : Sub 0x7fff10000000000000000002000 mm := Sub.trans (by decide) hm
  unfold State.rackFiring
  repeat' first
    | (intro x; refine Kept.bind (s0 := s0) (m := mm) (x := x) ?_ ?_; subst x; rotate_left; clear_value x; intro _)
    | (intro y; have w_ : State × Bool := y; clear w_)
    | (intro y; clear_value y)
    | intro _
    | with_reducible assumption
    | with_reducible lift_lets -underBinder
    | with_reducible apply State.maskStop_kept hm
    | with_reducible apply State.captureFire_kept k0
    | with_reducible apply State.logEvent_kept hm
    | with_reducible apply Kept.ite
    | with_reducible split
    | split
    | with_reducible refine Kept.snd (by assumption) ?_
    | with_reducible refine Kept.fst (by assumption) ?_

theorem releaseEff_kept {mm : Nat} {s0 : State} {k : Nat} (hm : Sub 0x7fff00000000000000000002002 mm) : EffKept mm s0 (releaseEff k) := by
  unfold releaseEff
  repeat' first
    | (intro x; refine Kept.bind (s0 := s0) (m := mm) (x := x) ?_ ?_; subst x; rotate_left; clear_value x; intro _)
    | (intro y; clear_value y)
    | intro _
    | with_reducible assumption
    | with_reducible lift_lets -underBinder
    | with_reducible apply State.clearBuffer_kept hm
    | with_reducible apply State.activate_kept hm
    | with_reducible apply Kept.ite
    | with_reducible apply EffKept.ite
    | with_reducible split
    | split
    | (refine ⟨fun s h => ?_⟩; dsimp -zeta only)
    | dsimp -zeta only

theorem State.captureError_kept {mm : Nat} {s0 s : State} {addr : Nat} (hm : Sub 0x10000000000000000002000 mm) (h : Kept mm s0 s) : Kept mm s0 (State.captureError addr s) := by
  have k0 : Sub 0x2000 mm := Sub.trans (by decide) hm
  unfold State.captureError
  repeat' first
    | (intro x; refine Kept.bind (s0 := s0) (m := mm) (x := x) ?_ ?_; subst x; rotate_left; clear_value x; intro _)
    | (intro y; clear_value y)
    | intro _
    | with_reducible assumption
    | with_reducible lift_lets -underBinder
    | with_reducible apply State.setAcqBuf_kept k0
    | with_reducible refine State.inc_kept ?_ ?_
    | exact Sub.bit (Sub.trans (by decide) hm)
    | with_reducible apply Kept.ite
    | with_reducible split
    | split
    | with_reducible apply Kept.foldl_snd
    | with_reducible apply Kept.foldl_fst
    | with_reducible apply Kept.foldl

theorem State.captureStops_kept {mm : Nat} {s0 s : State} (hm : Sub 0x7fff1000000000000000000a002 mm) (h : Kept mm s0 s) : Kept mm s0 (State.captureStops s) := by
  have k0 : Sub 0x0 mm := Sub.trans (by decide) hm
  have k1 : Sub 0x7fff00000000000000000002002 mm := Sub.trans (by decide) hm
  have k2 : Sub 0x2000 mm := Sub.trans (by decide) hm
  have k3 : Sub 0x8000 mm := Sub.trans (by decide) hm
  unfold State.captureStops
  repeat' first
    | (intro x; refine Kept.bind (s0 := s0) (m := mm) (x := x) ?_ ?_; subst x; rotate_left; clear_value x; intro _)
    | (intro y; clear_value y)
    | intro _
    | with_reducible assumption
    | with_reducible lift_lets -underBinder
    | with_reducible apply State.each_kept k0
    | with_reducible apply State.clearBuffer_kept k1
    | with_reducible apply State.modAcq_kept k2
    | with_reducible apply State.modRack_kept k3
    | with_reducible refine State.wr_kept ?_ ?_
    | exact Sub.bit (Sub.trans (by decide) hm)
    | with_reducible apply Kept.ite
    | with_reducible split
    | split

theorem exportEff_kept {mm : Nat} {s0 : State} {k : Nat} (hm : Sub 0x7fff000000000000000040a0000 mm) : EffKept mm s0 (exportEff k) := by
  have k0 : Sub 0x40a0000 mm := Sub.trans (by decide) hm
  have k1 : Sub 0x20000 mm := Sub.trans (by decide) hm
  have kz : Sub (2 ^ 107 - 2 ^ (20 + zone 0x70e00100)) mm := Sub.trans (by decide) hm
  unfold exportEff
  repeat' first
    | (intro x; refine Kept.bind (s0 := s0) (m := mm) (x := x) ?_ ?_; subst x; rotate_left; clear_value x; intro _)
    | (intro y; clear_value y)
    | intro _
    | with_reducible assumption
    | with_reducible lift_lets -underBinder
    | with_reducible apply State.startLong_kept k0
    | with_reducible refine State.wr_kept ?_ ?_
    | exact Sub.bit (Sub.trans (by decide) hm)
    | (refine Sub.from (b := 0x70e00100) kz ?_; (try simp only [key, bk, bfk]); omega)
    | with_reducible apply Kept.ite
    | with_reducible apply EffKept.ite
    | with_reducible split
    | split
    | with_reducible apply Kept.upd_srv k1
    | (refine ⟨fun s h => ?_⟩; dsimp -zeta only)
    | dsimp -zeta only

theorem State.exportComplete_kept {mm : Nat} {s0 s : State} {k : Nat} (hm : Sub 0x7fff00000000000000004028002 mm) (h : Kept mm s0 s) : Kept mm s0 (State.exportComplete k s) := by
  have k0 : Sub 0x4028000 mm := Sub.trans (by decide) hm
  have k1 : Sub 0x2 mm := Sub.trans (by decide) hm
  have kz : Sub (2 ^ 107 - 2 ^ (20 + zone 0x70e00100)) mm := Sub.trans (by decide) hm
  unfold State.exportComplete
  repeat' first
    | (intro x; refine Kept.bind (s0 := s0) (m := mm) (x := x) ?_ ?_; subst x; rotate_left; clear_value x; intro _)
    | (intro y; clear_value y)
    | intro _
    | with_reducible assumption
    | with_reducible lift_lets -underBinder
    | with_reducible apply State.endLong_kept k0
    | with_reducible apply State.wrBlob_kept k1
    | with_reducible refine State.wr_kept ?_ ?_
    | exact Sub.bit (Sub.trans (by decide) hm)
    | (refine Sub.from (b := 0x70e00100) kz ?_; (try simp only [key, bk, bfk]); omega)
    | with_reducible apply Kept.ite
    | with_reducible split
    | split

theorem layoutEff_kept {mm : Nat} {s0 : State} {index sub elem : Nat} {v : Int} (hm : Sub 0x7fffffffffffffffffffff02002 mm) : EffKept mm s0 (layoutEff index sub elem v) := by
  have k0 : Sub 0x7fff00000000000000000002002 mm := Sub.trans (by decide) hm
  have k1 : Sub 0x2000 mm := Sub.trans (by decide) hm
  have kz : Sub (2 ^ 107 - 2 ^ (20 + zone 0x0)) mm := Sub.trans (by decide) hm
  unfold layoutEff
  repeat' first
    | (intro x; refine Kept.bind (s0 := s0) (m := mm) (x := x) ?_ ?_; subst x; rotate_left; clear_value x; intro _)
    | (intro y; clear_value y)
    | intro _
    | with_reducible assumption
    | with_reducible lift_lets -underBinder
    | with_reducible apply State.discardCaptures_kept k0
    | with_reducible apply State.modAcq_kept k1
    | with_reducible apply State.acqRescale_kept k1
    | with_reducible refine State.wr_kept ?_ ?_
    | exact Sub.bit (Sub.trans (by decide) hm)
    | exact Sub.from (b := 0) kz (Nat.zero_le _)
    | with_reducible apply Kept.ite
    | with_reducible apply EffKept.ite
    | with_reducible split
    | split
    | (refine ⟨fun s h => ?_⟩; dsimp -zeta only)
    | dsimp -zeta only

theorem channelTextEff_kept {mm : Nat} {s0 : State} {k : Nat} {l : List Byte} (hm : Sub 0x7fff00000000000000000002002 mm) : EffKept mm s0 (channelTextEff k l) := by
  have k0 : Sub 0x2 mm := Sub.trans (by decide) hm
  unfold channelTextEff
  repeat' first
    | (intro x; refine Kept.bind (s0 := s0) (m := mm) (x := x) ?_ ?_; subst x; rotate_left; clear_value x; intro _)
    | (intro y; clear_value y)
    | intro _
    | with_reducible assumption
    | with_reducible lift_lets -underBinder
    | with_reducible apply State.wrBlob_kept k0
    | with_reducible apply State.discardCaptures_kept hm
    | with_reducible apply Kept.ite
    | with_reducible apply EffKept.ite
    | with_reducible split
    | split
    | (refine ⟨fun s h => ?_⟩; dsimp -zeta only)
    | dsimp -zeta only

theorem triggerEff_kept {mm : Nat} {s0 : State} {u sub : Nat} {v : Int} (hm : Sub 0x7fffc0000000000000000002000 mm) : EffKept mm s0 (triggerEff u sub v) := by
  have k0 : Sub 0x2000 mm := Sub.trans (by decide) hm
  have kz : Sub (2 ^ 107 - 2 ^ (20 + zone 0x70100000)) mm := Sub.trans (by decide) hm
  unfold triggerEff
  repeat' first
    | (intro x; refine Kept.bind (s0 := s0) (m := mm) (x := x) ?_ ?_; subst x; rotate_left; clear_value x; intro _)
    | (intro y; clear_value y)
    | intro _
    | with_reducible assumption
    | with_reducible lift_lets -underBinder
    | with_reducible apply State.setTrig_kept k0
    | with_reducible refine State.wr_kept ?_ ?_
    | exact Sub.bit (Sub.trans (by decide) hm)
    | (refine Sub.from (b := 0x70100000) kz ?_; (try simp only [key, bk, tuk]); omega)
    | with_reducible apply Kept.ite
    | with_reducible apply EffKept.ite
    | with_reducible split
    | split
    | (refine ⟨fun s h => ?_⟩; dsimp -zeta only)
    | dsimp -zeta only

theorem maskEff_kept {mm : Nat} {s0 : State} {m sub : Nat} {v : Int} (hm : Sub 0x7fff80000000000000000002000 mm) : EffKept mm s0 (maskEff m sub v) := by
  have k0 : Sub 0x2000 mm := Sub.trans (by decide) hm
  have kz : Sub (2 ^ 107 - 2 ^ (20 + zone 0x70300000)) mm := Sub.trans (by decide) hm
  unfold maskEff
  repeat' first
    | (intro x; refine Kept.bind (s0 := s0) (m := mm) (x := x) ?_ ?_; subst x; rotate_left; clear_value x; intro _)
    | (intro y; clear_value y)
    | intro _
    | with_reducible assumption
    | with_reducible lift_lets -underBinder
    | with_reducible apply State.setMaskEx_kept k0
    | with_reducible refine State.wr_kept ?_ ?_
    | exact Sub.bit (Sub.trans (by decide) hm)
    | (refine Sub.from (b := 0x70300000) kz ?_; (try simp only [key, bk, mkk]); omega)
    | with_reducible apply Kept.ite
    | with_reducible apply EffKept.ite
    | with_reducible split
    | split
    | (refine ⟨fun s h => ?_⟩; dsimp -zeta only)
    | dsimp -zeta only

theorem maskEnvelopeEff_kept {mm : Nat} {s0 : State} {m : Nat} {img : List Byte} (hm : Sub 0x7fff80000000000000000000002 mm) : EffKept mm s0 (maskEnvelopeEff m img) := by
  have k0 : Sub 0x2 mm := Sub.trans (by decide) hm
  have k1 : Sub 0x0 mm := Sub.trans (by decide) hm
  have kz : Sub (2 ^ 107 - 2 ^ (20 + zone 0x70300700)) mm := Sub.trans (by decide) hm
  unfold maskEnvelopeEff
  repeat' first
    | (intro x; refine Kept.bind (s0 := s0) (m := mm) (x := x) ?_ ?_; subst x; rotate_left; clear_value x; intro _)
    | (intro y; clear_value y)
    | intro _
    | with_reducible assumption
    | with_reducible lift_lets -underBinder
    | with_reducible apply State.wrBlob_kept k0
    | with_reducible apply State.answer_kept k1
    | with_reducible refine State.setBit_kept ?_ ?_
    | exact Sub.bit (Sub.trans (by decide) hm)
    | (refine Sub.from (b := 0x70300700) kz ?_; (try simp only [key, bk, mkk]); omega)
    | with_reducible apply Kept.ite
    | with_reducible apply EffKept.ite
    | with_reducible split
    | split
    | (refine ⟨fun s h => ?_⟩; dsimp -zeta only)
    | dsimp -zeta only

end Sys2Proof.Machine
end

