-- ==== Sys2Proof/Laws/KeptFabric.lean ====
section
/-! SUPPORT. What the operations of Machine/Fabric.lean may change (Safety.lean, Kept): one lemma for each. -/

set_option linter.all false

namespace Sys2Proof.Machine

theorem State.repairBit_kept {mm : Nat} {s0 s : State} {i : Nat} {v : Bool} {code : Nat} {data : List Byte} (hm : Sub 0x7fffd000000000002000000e000 mm) (h : Kept mm s0 s) : Kept mm s0 (State.repairBit i v code data s) := by
  have k0 : Sub 0x7fffd000000000000000000e000 mm := Sub.trans (by decide) hm
  unfold State.repairBit
  repeat' first
    | (intro x; refine Kept.bind (s0 := s0) (m := mm) (x := x) ?_ ?_; subst x; rotate_left; clear_value x; intro _)
    | (intro y; clear_value y)
    | intro _
    | with_reducible assumption
    | with_reducible lift_lets -underBinder
    | with_reducible apply State.logEvent_kept k0
    | with_reducible refine State.setBit_kept ?_ ?_
    | exact Sub.bit (Sub.trans (by decide) hm)
    | with_reducible apply Kept.ite
    | with_reducible split
    | split

theorem State.reserveLeft_kept {mm : Nat} {s0 s : State} {kind left : Nat} (hm : Sub 0x7fffffffffffffffe000000e000 mm) (h : Kept mm s0 s) : Kept mm s0 (State.reserveLeft kind left s) := by
  have k0 : Sub 0x7fffd000000000002000000e000 mm := Sub.trans (by decide) hm
  have kz : Sub (2 ^ 107 - 2 ^ (20 + zone 0x24000100)) mm := Sub.trans (by decide) hm
  unfold State.reserveLeft
  repeat' first
    | (intro x; refine Kept.bind (s0 := s0) (m := mm) (x := x) ?_ ?_; subst x; rotate_left; clear_value x; intro _)
    | (intro y; clear_value y)
    | intro _
    | with_reducible assumption
    | with_reducible lift_lets -underBinder
    | with_reducible apply State.repairBit_kept k0
    | with_reducible refine State.wr_kept ?_ ?_
    | exact Sub.bit (Sub.trans (by decide) hm)
    | (refine Sub.from (b := 0x24000100) kz ?_; (try simp only [key, bk]); omega)
    | with_reducible apply Kept.ite
    | with_reducible split
    | split

theorem State.retireRecord_kept {mm : Nat} {s0 s : State} {kind inst cause : Nat} (hm : Sub 0x20000010000 mm) (h : Kept mm s0 s) : Kept mm s0 (State.retireRecord kind inst cause s) := by
  have k0 : Sub 0x10000 mm := Sub.trans (by decide) hm
  unfold State.retireRecord
  repeat' first
    | (intro x; refine Kept.bind (s0 := s0) (m := mm) (x := x) ?_ ?_; subst x; rotate_left; clear_value x; intro _)
    | (intro y; clear_value y)
    | intro _
    | with_reducible assumption
    | with_reducible lift_lets -underBinder
    | with_reducible refine State.wr_kept ?_ ?_
    | exact Sub.bit (Sub.trans (by decide) hm)
    | with_reducible apply Kept.ite
    | with_reducible split
    | split
    | with_reducible apply Kept.upd_power k0

theorem State.setLane_kept {mm : Nat} {s0 s : State} {l : Nat} {r : LaneRec} (hm : Sub 0x40 mm) (h : Kept mm s0 s) : Kept mm s0 (State.setLane l r s) := by
  unfold State.setLane
  repeat' first
    | (intro x; refine Kept.bind (s0 := s0) (m := mm) (x := x) ?_ ?_; subst x; rotate_left; clear_value x; intro _)
    | (intro y; clear_value y)
    | intro _
    | with_reducible assumption
    | with_reducible lift_lets -underBinder
    | with_reducible apply Kept.ite
    | with_reducible split
    | split
    | with_reducible apply Kept.upd_fabric hm

theorem State.modLane_kept {mm : Nat} {s0 s : State} {l : Nat} {f : LaneRec → LaneRec} (hm : Sub 0x40 mm) (h : Kept mm s0 s) : Kept mm s0 (State.modLane l f s) := by
  unfold State.modLane
  repeat' first
    | (intro x; refine Kept.bind (s0 := s0) (m := mm) (x := x) ?_ ?_; subst x; rotate_left; clear_value x; intro _)
    | (intro y; clear_value y)
    | intro _
    | with_reducible assumption
    | with_reducible lift_lets -underBinder
    | with_reducible apply State.setLane_kept hm
    | with_reducible apply Kept.ite
    | with_reducible split
    | split

theorem State.syncLanes_kept {mm : Nat} {s0 s : State} (hm : Sub 0x1000000000000000000000 mm) (h : Kept mm s0 s) : Kept mm s0 (State.syncLanes s) := by
  unfold State.syncLanes
  repeat' first
    | (intro x; refine Kept.bind (s0 := s0) (m := mm) (x := x) ?_ ?_; subst x; rotate_left; clear_value x; intro _)
    | (intro y; clear_value y)
    | intro _
    | with_reducible assumption
    | with_reducible lift_lets -underBinder
    | with_reducible refine State.wr_kept ?_ ?_
    | exact Sub.bit (Sub.trans (by decide) hm)
    | with_reducible apply Kept.ite
    | with_reducible split
    | split

theorem State.recounted_kept {mm : Nat} {s0 s : State} {b q : Nat} (hm : Sub 0x7fffffc00000000000000000000 mm) (h : Kept mm s0 s) : Kept mm s0 (State.recounted b q s) := by
  have kz : Sub (2 ^ 107 - 2 ^ (20 + zone 0x65000700)) mm := Sub.trans (by decide) hm
  unfold State.recounted
  repeat' first
    | (intro x; refine Kept.bind (s0 := s0) (m := mm) (x := x) ?_ ?_; subst x; rotate_left; clear_value x; intro _)
    | (intro y; have w_ : Nat := y; clear w_; subst y)
    | (intro y; clear_value y)
    | intro _
    | with_reducible assumption
    | with_reducible lift_lets -underBinder
    | with_reducible refine State.wr_kept ?_ ?_
    | exact Sub.bit (Sub.trans (by decide) hm)
    | (refine Sub.from (b := 0x65000700) kz ?_; (try simp only [key, bk]); omega)
    | with_reducible apply Kept.ite
    | with_reducible split
    | split

theorem State.recount_kept {mm : Nat} {s0 s : State} {b : Nat} (hm : Sub 0x7fffffc00000000000000000000 mm) (h : Kept mm s0 s) : Kept mm s0 (State.recount b s) := by
  unfold State.recount
  repeat' first
    | (intro x; refine Kept.bind (s0 := s0) (m := mm) (x := x) ?_ ?_; subst x; rotate_left; clear_value x; intro _)
    | (intro y; clear_value y)
    | intro _
    | with_reducible assumption
    | with_reducible lift_lets -underBinder
    | with_reducible apply State.recounted_kept hm
    | with_reducible apply Kept.ite
    | with_reducible split
    | split

theorem State.applyPlan_kept {mm : Nat} {s0 s : State} {a : Adm} (hm : Sub 0x7fffffc00000000000000000004 mm) (h : Kept mm s0 s) : Kept mm s0 (State.applyPlan a s) := by
  have k0 : Sub 0x0 mm := Sub.trans (by decide) hm
  have k1 : Sub 0x7fffffc00000000000000000000 mm := Sub.trans (by decide) hm
  have k2 : Sub 0x4 mm := Sub.trans (by decide) hm
  have kz : Sub (2 ^ 107 - 2 ^ (20 + zone 0x65000700)) mm := Sub.trans (by decide) hm
  unfold State.applyPlan
  repeat' first
    | (intro x; refine Kept.bind (s0 := s0) (m := mm) (x := x) ?_ ?_; subst x; rotate_left; clear_value x; intro _)
    | (intro y; have w_ : Nat := y; clear w_; subst y)
    | (intro y; clear_value y)
    | intro _
    | with_reducible assumption
    | with_reducible lift_lets -underBinder
    | with_reducible apply State.each_kept k0
    | with_reducible apply State.recounted_kept k1
    | with_reducible apply State.demand_kept hm
    | with_reducible apply State.setBatch_kept k2
    | with_reducible refine State.wr_kept ?_ ?_
    | exact Sub.bit (Sub.trans (by decide) hm)
    | (refine Sub.from (b := 0x65000700) kz ?_; (try simp only [key, bk]); omega)
    | with_reducible apply Kept.ite
    | with_reducible split
    | split

theorem State.reportAdm_kept {mm : Nat} {s0 s : State} {result failing : Nat} (hm : Sub 0x1000000000000000000000 mm) (h : Kept mm s0 s) : Kept mm s0 (State.reportAdm result failing s) := by
  unfold State.reportAdm
  repeat' first
    | (intro x; refine Kept.bind (s0 := s0) (m := mm) (x := x) ?_ ?_; subst x; rotate_left; clear_value x; intro _)
    | (intro y; clear_value y)
    | intro _
    | with_reducible assumption
    | with_reducible lift_lets -underBinder
    | with_reducible refine State.wr_kept ?_ ?_
    | exact Sub.bit (Sub.trans (by decide) hm)
    | with_reducible apply Kept.ite
    | with_reducible split
    | split

theorem State.armAdmission_kept {mm : Nat} {s0 s : State} (hm : Sub 0x1000000000000000000000 mm) (h : Kept mm s0 s) : Kept mm s0 (State.armAdmission s) := by
  unfold State.armAdmission
  repeat' first
    | (intro x; refine Kept.bind (s0 := s0) (m := mm) (x := x) ?_ ?_; subst x; rotate_left; clear_value x; intro _)
    | (intro y; clear_value y)
    | intro _
    | with_reducible assumption
    | with_reducible lift_lets -underBinder
    | with_reducible apply State.reportAdm_kept hm
    | with_reducible apply Kept.ite
    | with_reducible split
    | split

theorem State.inForce_kept {mm : Nat} {s0 s : State} (hm : Sub 0x7fffffc00000000000000000000 mm) (h : Kept mm s0 s) : Kept mm s0 (State.inForce s) := by
  have k0 : Sub 0x0 mm := Sub.trans (by decide) hm
  have kz : Sub (2 ^ 107 - 2 ^ (20 + zone 0x65000100)) mm := Sub.trans (by decide) hm
  unfold State.inForce
  repeat' first
    | (intro x; refine Kept.bind (s0 := s0) (m := mm) (x := x) ?_ ?_; subst x; rotate_left; clear_value x; intro _)
    | (intro y; clear_value y)
    | intro _
    | with_reducible assumption
    | with_reducible lift_lets -underBinder
    | with_reducible apply State.each_kept k0
    | with_reducible refine State.wr_kept ?_ ?_
    | exact Sub.bit (Sub.trans (by decide) hm)
    | (refine Sub.from (b := 0x65000100) kz ?_; (try simp only [key, bk]); omega)
    | with_reducible apply Kept.ite
    | with_reducible split
    | split

theorem State.runAdmission_kept {mm : Nat} {s0 s : State} {figs : List Fig} (hm : Sub 0x7fffffc00000000000000000004 mm) (h : Kept mm s0 s) : Kept mm s0 (State.runAdmission figs s).2 := by
  have k0 : Sub 0x1000000000000000000000 mm := Sub.trans (by decide) hm
  unfold State.runAdmission
  repeat' first
    | (intro x; refine Kept.bind (s0 := s0) (m := mm) (x := x) ?_ ?_; subst x; rotate_left; clear_value x; intro _)
    | (intro y; clear_value y)
    | intro _
    | with_reducible assumption
    | with_reducible lift_lets -underBinder
    | with_reducible apply State.applyPlan_kept hm
    | with_reducible apply State.reportAdm_kept k0
    | with_reducible apply State.syncLanes_kept k0
    | with_reducible apply Kept.ite
    | with_reducible split
    | split

theorem State.replan_kept {mm : Nat} {s0 s : State} {k : Rat} {a : Adm} {figs : List Fig} (hm : Sub 0x7fffffc00000000000000000004 mm) (h : Kept mm s0 s) : Kept mm s0 (State.replan k a figs s) := by
  unfold State.replan
  repeat' first
    | (intro x; refine Kept.bind (s0 := s0) (m := mm) (x := x) ?_ ?_; subst x; rotate_left; clear_value x; intro _)
    | (intro y; clear_value y)
    | intro _
    | with_reducible assumption
    | with_reducible lift_lets -underBinder
    | with_reducible apply State.applyPlan_kept hm
    | with_reducible apply Kept.ite
    | with_reducible split
    | split

theorem State.shed_kept {mm : Nat} {s0 s : State} {k : Nat} {figs : List Fig} (hm : Sub 0x7ffffffffffc00000000000e164 mm) (h : Kept mm s0 s) : Kept mm s0 (State.shed k figs s) := by
  have k0 : Sub 0x7fffffc00000000000000000004 mm := Sub.trans (by decide) hm
  have k1 : Sub 0x1000000000000000000000 mm := Sub.trans (by decide) hm
  have k2 : Sub 0x7ffffffffffc00000000000e124 mm := Sub.trans (by decide) hm
  have k3 : Sub 0x40 mm := Sub.trans (by decide) hm
  induction k generalizing figs s with
  | zero => exact h
  | succ k ih =>
    unfold State.shed
    repeat' first
      | (intro x; refine Kept.bind (s0 := s0) (m := mm) (x := x) ?_ ?_; subst x; rotate_left; clear_value x; intro _)
      | (intro y; clear_value y)
      | intro _
      | with_reducible assumption
      | with_reducible lift_lets -underBinder
      | with_reducible apply State.replan_kept k0
      | with_reducible apply State.reportAdm_kept k1
      | with_reducible apply State.blockBatch_kept k2
      | with_reducible refine State.wr_kept ?_ ?_
      | exact Sub.bit (Sub.trans (by decide) hm)
      | with_reducible apply Kept.ite
      | apply ih
      | with_reducible split
      | split
      | with_reducible apply Kept.upd_fabric k3

theorem State.readmit_kept {mm : Nat} {s0 s : State} (hm : Sub 0x7ffffffffffc00000000000e164 mm) (h : Kept mm s0 s) : Kept mm s0 (State.readmit s) := by
  have k0 : Sub 0x7fffffc00000000000000000004 mm := Sub.trans (by decide) hm
  have k1 : Sub 0x1000000000000000000000 mm := Sub.trans (by decide) hm
  have k2 : Sub 0x40 mm := Sub.trans (by decide) hm
  unfold State.readmit
  repeat' first
    | (intro x; refine Kept.bind (s0 := s0) (m := mm) (x := x) ?_ ?_; subst x; rotate_left; clear_value x; intro _)
    | (intro y; clear_value y)
    | intro _
    | with_reducible assumption
    | with_reducible lift_lets -underBinder
    | with_reducible apply State.replan_kept k0
    | with_reducible apply State.reportAdm_kept k1
    | with_reducible apply State.shed_kept hm
    | with_reducible refine State.wr_kept ?_ ?_
    | exact Sub.bit (Sub.trans (by decide) hm)
    | with_reducible apply Kept.ite
    | with_reducible split
    | split
    | with_reducible apply Kept.upd_fabric k2

theorem State.setQueue_kept {mm : Nat} {s0 s : State} {q : Nat} {r : QueueRec} (hm : Sub 0x40 mm) (h : Kept mm s0 s) : Kept mm s0 (State.setQueue q r s) := by
  unfold State.setQueue
  repeat' first
    | (intro x; refine Kept.bind (s0 := s0) (m := mm) (x := x) ?_ ?_; subst x; rotate_left; clear_value x; intro _)
    | (intro y; clear_value y)
    | intro _
    | with_reducible assumption
    | with_reducible lift_lets -underBinder
    | with_reducible apply Kept.ite
    | with_reducible split
    | split
    | with_reducible apply Kept.upd_fabric hm

theorem State.queuesInForce_kept {mm : Nat} {s0 s : State} (hm : Sub 0x7fffffc00000000000000000044 mm) (h : Kept mm s0 s) : Kept mm s0 (State.queuesInForce s) := by
  have k0 : Sub 0x0 mm := Sub.trans (by decide) hm
  have k1 : Sub 0x40 mm := Sub.trans (by decide) hm
  have k2 : Sub 0x7fffffc00000000000000000004 mm := Sub.trans (by decide) hm
  have kz : Sub (2 ^ 107 - 2 ^ (20 + zone 0x65200200)) mm := Sub.trans (by decide) hm
  unfold State.queuesInForce
  repeat' first
    | (intro x; refine Kept.bind (s0 := s0) (m := mm) (x := x) ?_ ?_; subst x; rotate_left; clear_value x; intro _)
    | (intro y; have w_ : Nat × State := y; clear w_)
    | (intro y; clear_value y)
    | intro _
    | with_reducible assumption
    | with_reducible lift_lets -underBinder
    | with_reducible apply State.each_kept k0
    | with_reducible apply State.setQueue_kept k1
    | with_reducible apply State.runAdmission_kept k2
    | with_reducible refine State.wr_kept ?_ ?_
    | exact Sub.bit (Sub.trans (by decide) hm)
    | (refine Sub.from (b := 0x65200200) kz ?_; (try simp only [key, bk]); omega)
    | with_reducible apply Kept.ite
    | with_reducible split
    | split
    | with_reducible apply Kept.upd_fabric k1
    | with_reducible refine Kept.snd (by assumption) ?_
    | with_reducible refine Kept.fst (by assumption) ?_

structure KeptSome (mm : Nat) (s0 : State) (o : Option (Nat × State)) : Prop where
  all : ∀ e, o = some e → Kept mm s0 e.2

theorem KeptSome.none {mm : Nat} {s0 : State} : KeptSome mm s0 Option.none := ⟨by intro e h; simp at h⟩

theorem KeptSome.some {mm : Nat} {s0 t : State} {q : Nat} (h : Kept mm s0 t) : KeptSome mm s0 (Option.some (q, t)) :=
  ⟨by intro e he; cases he; exact h⟩

theorem State.chooseQueue_some {mm : Nat} {s0 s : State} {cand : List Nat} (hm : Sub 0x40 mm) (h : Kept mm s0 s) :
    KeptSome mm s0 (State.chooseQueue cand s) := by
  have k0 : Sub 0 mm := Sub.trans (by decide) hm
  unfold State.chooseQueue
  repeat' first
    | (intro x; refine Kept.bind (s0 := s0) (m := mm) (x := x) ?_ ?_; subst x; rotate_left; clear_value x; intro _)
    | (intro y; clear_value y; guard_hyp y :~ Nat)
    | (intro y; clear_value y; guard_hyp y :~ List Nat)
    | intro _
    | with_reducible assumption
    | with_reducible lift_lets -underBinder
    | with_reducible apply KeptSome.none
    | with_reducible apply KeptSome.some
    | with_reducible apply State.setQueue_kept hm
    | with_reducible apply State.each_kept k0
    | with_reducible split
    | split
    | with_reducible apply Kept.upd_fabric hm

theorem State.chooseQueue_kept {mm : Nat} {s0 s t : State} {cand : List Nat} {q : Nat} (hm : Sub 0x40 mm)
    (he : State.chooseQueue cand s = some (q, t)) (h : Kept mm s0 s) : Kept mm s0 t :=
  (State.chooseQueue_some hm h).all (q, t) he

theorem State.assign_kept {mm : Nat} {s0 s : State} {l b : Nat} (hm : Sub 0x7fffffc00000000000000000044 mm) (h : Kept mm s0 s) : Kept mm s0 (State.assign l b s) := by
  have k0 : Sub 0x4 mm := Sub.trans (by decide) hm
  have k1 : Sub 0x40 mm := Sub.trans (by decide) hm
  have k2 : Sub 0x7fffffc00000000000000000000 mm := Sub.trans (by decide) hm
  have kz : Sub (2 ^ 107 - 2 ^ (20 + zone 0x65000d00)) mm := Sub.trans (by decide) hm
  unfold State.assign
  repeat' first
    | (intro x; refine Kept.bind (s0 := s0) (m := mm) (x := x) ?_ ?_; subst x; rotate_left; clear_value x; intro _)
    | (intro y; have w_ : Nat := y; clear w_; subst y)
    | (intro y; clear_value y)
    | intro _
    | with_reducible assumption
    | with_reducible lift_lets -underBinder
    | with_reducible apply State.setBatch_kept k0
    | with_reducible apply State.modLane_kept k1
    | with_reducible apply State.incQueue_kept k2
    | with_reducible refine State.inc_kept ?_ ?_
    | with_reducible refine State.wr_kept ?_ ?_
    | exact Sub.bit (Sub.trans (by decide) hm)
    | (refine Sub.from (b := 0x65000d00) kz ?_; (try simp only [key, bk]); omega)
    | with_reducible apply Kept.ite
    | with_reducible split
    | split

theorem State.chooseOn_kept {mm : Nat} {s0 s : State} {l : Nat} (hm : Sub 0x7fffffc00000000000000000044 mm) (h : Kept mm s0 s) : Kept mm s0 (State.chooseOn l s) := by
  have k0 : Sub 0x40 mm := Sub.trans (by decide) hm
  unfold State.chooseOn
  repeat' first
    | (intro x; refine Kept.bind (s0 := s0) (m := mm) (x := x) ?_ ?_; subst x; rotate_left; clear_value x; intro _)
    | (intro y; clear_value y)
    | intro _
    | with_reducible assumption
    | with_reducible lift_lets -underBinder
    | with_reducible apply State.assign_kept hm
    | with_reducible exact State.chooseQueue_kept k0 (by assumption) (by assumption)
    | with_reducible apply Kept.ite
    | with_reducible split
    | split

theorem State.dispatchGo_kept {mm : Nat} {s0 s : State} {k : Nat} (hm : Sub 0x7fffffc00000000000000000044 mm) (h : Kept mm s0 s) : Kept mm s0 (State.dispatchGo k s) := by
  have k0 : Sub 0x0 mm := Sub.trans (by decide) hm
  induction k generalizing s with
  | zero => exact h
  | succ k ih =>
    unfold State.dispatchGo
    repeat' first
      | (intro x; refine Kept.bind (s0 := s0) (m := mm) (x := x) ?_ ?_; subst x; rotate_left; clear_value x; intro _)
      | (intro y; clear_value y)
      | intro _
      | with_reducible assumption
      | with_reducible lift_lets -underBinder
      | with_reducible apply State.each_kept k0
      | with_reducible apply State.chooseOn_kept hm
      | with_reducible apply Kept.ite
      | apply ih
      | with_reducible split
      | split

theorem State.dispatch_kept {mm : Nat} {s0 s : State} (hm : Sub 0x7fffffc00000000000000000044 mm) (h : Kept mm s0 s) : Kept mm s0 (State.dispatch s) := by
  unfold State.dispatch
  repeat' first
    | (intro x; refine Kept.bind (s0 := s0) (m := mm) (x := x) ?_ ?_; subst x; rotate_left; clear_value x; intro _)
    | (intro y; clear_value y)
    | intro _
    | with_reducible assumption
    | with_reducible lift_lets -underBinder
    | with_reducible apply State.dispatchGo_kept hm
    | with_reducible apply Kept.ite
    | with_reducible split
    | split

theorem State.rehome_kept {mm : Nat} {s0 s : State} {l f : Nat} (hm : Sub 0x4 mm) (h : Kept mm s0 s) : Kept mm s0 (State.rehome l f s) := by
  have k0 : Sub 0x0 mm := Sub.trans (by decide) hm
  unfold State.rehome
  repeat' first
    | (intro x; refine Kept.bind (s0 := s0) (m := mm) (x := x) ?_ ?_; subst x; rotate_left; clear_value x; intro _)
    | (intro y; clear_value y)
    | intro _
    | with_reducible assumption
    | with_reducible lift_lets -underBinder
    | with_reducible apply State.each_kept k0
    | with_reducible apply State.setBatch_kept hm
    | with_reducible apply Kept.ite
    | with_reducible split
    | split

theorem State.underTest_kept {mm : Nat} {s0 s : State} {t : Nat} {from_ : LaneState} (hm : Sub 0x1000000000000000000040 mm) (h : Kept mm s0 s) : Kept mm s0 (State.underTest t from_ s) := by
  have k0 : Sub 0x40 mm := Sub.trans (by decide) hm
  have k1 : Sub 0x1000000000000000000000 mm := Sub.trans (by decide) hm
  unfold State.underTest
  repeat' first
    | (intro x; refine Kept.bind (s0 := s0) (m := mm) (x := x) ?_ ?_; subst x; rotate_left; clear_value x; intro _)
    | (intro y; clear_value y)
    | intro _
    | with_reducible assumption
    | with_reducible lift_lets -underBinder
    | with_reducible apply State.modLane_kept k0
    | with_reducible apply State.syncLanes_kept k1
    | with_reducible apply Kept.ite
    | with_reducible split
    | split

theorem State.testLane_kept {mm : Nat} {s0 s : State} {t : Nat} (hm : Sub 0x1000000000000000000044 mm) (h : Kept mm s0 s) : Kept mm s0 (State.testLane t s) := by
  have k0 : Sub 0x1000000000000000000040 mm := Sub.trans (by decide) hm
  have k1 : Sub 0x4 mm := Sub.trans (by decide) hm
  have k2 : Sub 0x40 mm := Sub.trans (by decide) hm
  have k3 : Sub 0x1000000000000000000000 mm := Sub.trans (by decide) hm
  unfold State.testLane
  repeat' first
    | (intro x; refine Kept.bind (s0 := s0) (m := mm) (x := x) ?_ ?_; subst x; rotate_left; clear_value x; intro _)
    | (intro y; have w_ : State → State := y; clear w_; subst y)
    | (intro y; clear_value y)
    | intro _
    | with_reducible assumption
    | with_reducible lift_lets -underBinder
    | with_reducible apply State.underTest_kept k0
    | with_reducible apply State.rehome_kept k1
    | with_reducible apply State.modLane_kept k2
    | with_reducible apply State.syncLanes_kept k3
    | with_reducible apply Kept.ite
    | with_reducible split
    | split
    | with_reducible apply Kept.upd_fabric k2
    | dsimp -zeta only

theorem State.becomeFree_kept {mm : Nat} {s0 s : State} {f : Nat} (hm : Sub 0x1000000000000000000044 mm) (h : Kept mm s0 s) : Kept mm s0 (State.becomeFree f s) := by
  have k0 : Sub 0x40 mm := Sub.trans (by decide) hm
  have k1 : Sub 0x1000000000000000000000 mm := Sub.trans (by decide) hm
  unfold State.becomeFree
  repeat' first
    | (intro x; refine Kept.bind (s0 := s0) (m := mm) (x := x) ?_ ?_; subst x; rotate_left; clear_value x; intro _)
    | (intro y; clear_value y)
    | intro _
    | with_reducible assumption
    | with_reducible lift_lets -underBinder
    | with_reducible apply State.modLane_kept k0
    | with_reducible apply State.syncLanes_kept k1
    | with_reducible apply State.testLane_kept hm
    | with_reducible apply Kept.ite
    | with_reducible split
    | split
    | with_reducible apply Kept.upd_fabric k0

theorem State.checkNextFree_kept {mm : Nat} {s0 s : State} (hm : Sub 0x1000000000000000000044 mm) (h : Kept mm s0 s) : Kept mm s0 (State.checkNextFree s) := by
  unfold State.checkNextFree
  repeat' first
    | (intro x; refine Kept.bind (s0 := s0) (m := mm) (x := x) ?_ ?_; subst x; rotate_left; clear_value x; intro _)
    | (intro y; clear_value y)
    | intro _
    | with_reducible assumption
    | with_reducible lift_lets -underBinder
    | with_reducible apply State.becomeFree_kept hm
    | with_reducible apply Kept.ite
    | with_reducible split
    | split

theorem State.laneRecord_kept {mm : Nat} {s0 s : State} {l cause : Nat} {free : Option Nat} (hm : Sub 0x7ffffc00000000002000001e040 mm) (h : Kept mm s0 s) : Kept mm s0 (State.laneRecord l cause free s) := by
  have k0 : Sub 0x40 mm := Sub.trans (by decide) hm
  have k1 : Sub 0x20000010000 mm := Sub.trans (by decide) hm
  have k2 : Sub 0x7fffd000000000000000000e000 mm := Sub.trans (by decide) hm
  have kz : Sub (2 ^ 107 - 2 ^ (20 + zone 0x65400a00)) mm := Sub.trans (by decide) hm
  unfold State.laneRecord
  repeat' first
    | (intro x; refine Kept.bind (s0 := s0) (m := mm) (x := x) ?_ ?_; subst x; rotate_left; clear_value x; intro _)
    | (intro y; clear_value y)
    | intro _
    | with_reducible assumption
    | with_reducible lift_lets -underBinder
    | with_reducible apply State.modLane_kept k0
    | with_reducible apply State.retireRecord_kept k1
    | with_reducible apply State.logEvent_kept k2
    | with_reducible refine State.setBit_kept ?_ ?_
    | exact Sub.bit (Sub.trans (by decide) hm)
    | (refine Sub.from (b := 0x65400a00) kz ?_; (try simp only [key, bk]); omega)
    | with_reducible apply Kept.ite
    | with_reducible split
    | split

theorem State.lanesLeft_kept {mm : Nat} {s0 s : State} (hm : Sub 0x7fffffffffffffffe000000e000 mm) (h : Kept mm s0 s) : Kept mm s0 (State.lanesLeft s) := by
  unfold State.lanesLeft
  repeat' first
    | (intro x; refine Kept.bind (s0 := s0) (m := mm) (x := x) ?_ ?_; subst x; rotate_left; clear_value x; intro _)
    | (intro y; clear_value y)
    | intro _
    | with_reducible assumption
    | with_reducible lift_lets -underBinder
    | with_reducible apply State.reserveLeft_kept hm
    | with_reducible apply Kept.ite
    | with_reducible split
    | split

theorem State.abortTest_kept {mm : Nat} {s0 s : State} (hm : Sub 0x7fffffffffffffffe000009e040 mm) (h : Kept mm s0 s) : Kept mm s0 (State.abortTest s) := by
  have k0 : Sub 0x1000000000000000000040 mm := Sub.trans (by decide) hm
  have k1 : Sub 0x80000 mm := Sub.trans (by decide) hm
  have k2 : Sub 0x7ffffc00000000002000001e040 mm := Sub.trans (by decide) hm
  have k3 : Sub 0x7fffffffffffffffe000000e000 mm := Sub.trans (by decide) hm
  have k4 : Sub 0x1000000000000000000000 mm := Sub.trans (by decide) hm
  have k5 : Sub 0x40 mm := Sub.trans (by decide) hm
  have kz : Sub (2 ^ 107 - 2 ^ (20 + zone 0x65400900)) mm := Sub.trans (by decide) hm
  unfold State.abortTest
  repeat' first
    | (intro x; refine Kept.bind (s0 := s0) (m := mm) (x := x) ?_ ?_; subst x; rotate_left; clear_value x; intro _)
    | (intro y; have w_ : Nat × State := y; clear w_)
    | (intro y; clear_value y)
    | intro _
    | with_reducible assumption
    | with_reducible lift_lets -underBinder
    | with_reducible apply State.underTest_kept k0
    | with_reducible apply State.draw_kept k1
    | with_reducible apply State.laneRecord_kept k2
    | with_reducible apply State.lanesLeft_kept k3
    | with_reducible apply State.syncLanes_kept k4
    | with_reducible apply State.modLane_kept k5
    | with_reducible refine State.setBit_kept ?_ ?_
    | with_reducible refine State.wr_kept ?_ ?_
    | exact Sub.bit (Sub.trans (by decide) hm)
    | (refine Sub.from (b := 0x65400900) kz ?_; (try simp only [key, bk]); omega)
    | with_reducible apply Kept.ite
    | with_reducible split
    | split
    | with_reducible apply Kept.upd_fabric k5
    | with_reducible refine Kept.snd (by assumption) ?_
    | with_reducible refine Kept.fst (by assumption) ?_

theorem State.leaveService_kept {mm : Nat} {s0 s : State} {l cause : Nat} (hm : Sub 0x7fffffffffffffffe000009e164 mm) (h : Kept mm s0 s) : Kept mm s0 (State.leaveService l cause s) := by
  have k0 : Sub 0x1000000000000000000040 mm := Sub.trans (by decide) hm
  have k1 : Sub 0x4 mm := Sub.trans (by decide) hm
  have k2 : Sub 0x40 mm := Sub.trans (by decide) hm
  have k3 : Sub 0x7ffffc00000000002000001e040 mm := Sub.trans (by decide) hm
  have k4 : Sub 0x7fffffffffffffffe000000e000 mm := Sub.trans (by decide) hm
  have k5 : Sub 0x1000000000000000000000 mm := Sub.trans (by decide) hm
  have k6 : Sub 0x7fffffffffffffffe000009e040 mm := Sub.trans (by decide) hm
  have k7 : Sub 0x1000000000000000000044 mm := Sub.trans (by decide) hm
  have k8 : Sub 0x7ffffffffffc00000000000e164 mm := Sub.trans (by decide) hm
  unfold State.leaveService
  repeat' first
    | (intro x; refine Kept.bind (s0 := s0) (m := mm) (x := x) ?_ ?_; subst x; rotate_left; clear_value x; intro _)
    | (intro y; clear_value y)
    | intro _
    | with_reducible assumption
    | with_reducible lift_lets -underBinder
    | with_reducible apply State.underTest_kept k0
    | with_reducible apply State.modBatch_kept k1
    | with_reducible apply State.modLane_kept k2
    | with_reducible apply State.laneRecord_kept k3
    | with_reducible apply State.lanesLeft_kept k4
    | with_reducible apply State.syncLanes_kept k5
    | with_reducible apply State.abortTest_kept k6
    | with_reducible apply State.becomeFree_kept k7
    | with_reducible apply State.readmit_kept k8
    | with_reducible apply State.checkNextFree_kept k7
    | with_reducible apply Kept.ite
    | with_reducible split
    | split
    | with_reducible apply Kept.upd_fabric k2

theorem State.drainBack_kept {mm : Nat} {s0 s : State} {l t : Nat} (hm : Sub 0x44 mm) (h : Kept mm s0 s) : Kept mm s0 (State.drainBack l t s) := by
  have k0 : Sub 0x40 mm := Sub.trans (by decide) hm
  have k1 : Sub 0x0 mm := Sub.trans (by decide) hm
  have k2 : Sub 0x4 mm := Sub.trans (by decide) hm
  unfold State.drainBack
  repeat' first
    | (intro x; refine Kept.bind (s0 := s0) (m := mm) (x := x) ?_ ?_; subst x; rotate_left; clear_value x; intro _)
    | (intro y; clear_value y)
    | intro _
    | with_reducible assumption
    | with_reducible lift_lets -underBinder
    | with_reducible apply State.modLane_kept k0
    | with_reducible apply State.each_kept k1
    | with_reducible apply State.setBatch_kept k2
    | with_reducible apply Kept.ite
    | with_reducible split
    | split

theorem State.drainLane_kept {mm : Nat} {s0 s : State} {l cause : Nat} (hm : Sub 0x7ffffc000000000000000000040 mm) (h : Kept mm s0 s) : Kept mm s0 (State.drainLane l cause s) := by
  have k0 : Sub 0x40 mm := Sub.trans (by decide) hm
  have kz : Sub (2 ^ 107 - 2 ^ (20 + zone 0x65400a00)) mm := Sub.trans (by decide) hm
  unfold State.drainLane
  repeat' first
    | (intro x; refine Kept.bind (s0 := s0) (m := mm) (x := x) ?_ ?_; subst x; rotate_left; clear_value x; intro _)
    | (intro y; clear_value y)
    | intro _
    | with_reducible assumption
    | with_reducible lift_lets -underBinder
    | with_reducible apply State.modLane_kept k0
    | with_reducible refine State.setBit_kept ?_ ?_
    | exact Sub.bit (Sub.trans (by decide) hm)
    | (refine Sub.from (b := 0x65400a00) kz ?_; (try simp only [key, bk]); omega)
    | with_reducible apply Kept.ite
    | with_reducible split
    | split

theorem State.retireLane_kept {mm : Nat} {s0 s : State} {l cause : Nat} (hm : Sub 0x7fffffffffffffffe000009e164 mm) (h : Kept mm s0 s) : Kept mm s0 (State.retireLane l cause s) := by
  have k0 : Sub 0x1000000000000000000040 mm := Sub.trans (by decide) hm
  have k1 : Sub 0x7ffffc000000000000000000040 mm := Sub.trans (by decide) hm
  have k2 : Sub 0x44 mm := Sub.trans (by decide) hm
  have k3 : Sub 0x1000000000000000000000 mm := Sub.trans (by decide) hm
  have k4 : Sub 0x7ffffffffffc00000000000e164 mm := Sub.trans (by decide) hm
  have k5 : Sub 0x7fffffffffffffffe000009e040 mm := Sub.trans (by decide) hm
  have k6 : Sub 0x4 mm := Sub.trans (by decide) hm
  unfold State.retireLane
  repeat' first
    | (intro x; refine Kept.bind (s0 := s0) (m := mm) (x := x) ?_ ?_; subst x; rotate_left; clear_value x; intro _)
    | (intro y; clear_value y)
    | intro _
    | with_reducible assumption
    | with_reducible lift_lets -underBinder
    | with_reducible apply State.underTest_kept k0
    | with_reducible apply State.leaveService_kept hm
    | with_reducible apply State.drainLane_kept k1
    | with_reducible apply State.drainBack_kept k2
    | with_reducible apply State.syncLanes_kept k3
    | with_reducible apply State.readmit_kept k4
    | with_reducible apply State.abortTest_kept k5
    | with_reducible apply State.rehome_kept k6
    | with_reducible apply Kept.ite
    | with_reducible split
    | split

theorem State.laneTestStart_kept {mm : Nat} {s0 s : State} (hm : Sub 0x1000000000000000000044 mm) (h : Kept mm s0 s) : Kept mm s0 (State.laneTestStart s) := by
  have k0 : Sub 0x1000000000000000000040 mm := Sub.trans (by decide) hm
  unfold State.laneTestStart
  repeat' first
    | (intro x; refine Kept.bind (s0 := s0) (m := mm) (x := x) ?_ ?_; subst x; rotate_left; clear_value x; intro _)
    | (intro y; clear_value y)
    | intro _
    | with_reducible assumption
    | with_reducible lift_lets -underBinder
    | with_reducible apply State.underTest_kept k0
    | with_reducible apply State.testLane_kept hm
    | with_reducible apply Kept.ite
    | with_reducible split
    | split

theorem State.laneDrained_kept {mm : Nat} {s0 s : State} {l : Nat} (hm : Sub 0x7fffffffffffffffe000009e164 mm) (h : Kept mm s0 s) : Kept mm s0 (State.laneDrained l s) := by
  have k0 : Sub 0x1000000000000000000040 mm := Sub.trans (by decide) hm
  unfold State.laneDrained
  repeat' first
    | (intro x; refine Kept.bind (s0 := s0) (m := mm) (x := x) ?_ ?_; subst x; rotate_left; clear_value x; intro _)
    | (intro y; clear_value y)
    | intro _
    | with_reducible assumption
    | with_reducible lift_lets -underBinder
    | with_reducible apply State.leaveService_kept hm
    | with_reducible apply State.underTest_kept k0
    | with_reducible apply Kept.ite
    | with_reducible split
    | split

theorem State.rotationDone_kept {mm : Nat} {s0 s : State} {l : Nat} (hm : Sub 0x1000000000000000000000 mm) (h : Kept mm s0 s) : Kept mm s0 (State.rotationDone l s) := by
  unfold State.rotationDone
  repeat' first
    | (intro x; refine Kept.bind (s0 := s0) (m := mm) (x := x) ?_ ?_; subst x; rotate_left; clear_value x; intro _)
    | (intro y; clear_value y)
    | intro _
    | with_reducible assumption
    | with_reducible lift_lets -underBinder
    | with_reducible refine State.inc_kept ?_ ?_
    | exact Sub.bit (Sub.trans (by decide) hm)
    | with_reducible apply Kept.ite
    | with_reducible split
    | split

theorem State.laneTestEnd_kept {mm : Nat} {s0 s : State} {l : Nat} {res : LaneTest} (hm : Sub 0x7fffffffffffffffe000009e164 mm) (h : Kept mm s0 s) : Kept mm s0 (State.laneTestEnd l res s) := by
  have k0 : Sub 0x1000000000000000000040 mm := Sub.trans (by decide) hm
  have k1 : Sub 0x1000000000000000000000 mm := Sub.trans (by decide) hm
  have k2 : Sub 0x40 mm := Sub.trans (by decide) hm
  have k3 : Sub 0x1000000000000000000044 mm := Sub.trans (by decide) hm
  have kz : Sub (2 ^ 107 - 2 ^ (20 + zone 0x65400900)) mm := Sub.trans (by decide) hm
  unfold State.laneTestEnd
  repeat' first
    | (intro x; refine Kept.bind (s0 := s0) (m := mm) (x := x) ?_ ?_; subst x; rotate_left; clear_value x; intro _)
    | (intro y; clear_value y)
    | intro _
    | with_reducible assumption
    | with_reducible lift_lets -underBinder
    | with_reducible apply State.underTest_kept k0
    | with_reducible apply State.rotationDone_kept k1
    | with_reducible apply State.modLane_kept k2
    | with_reducible apply State.syncLanes_kept k1
    | with_reducible apply State.becomeFree_kept k3
    | with_reducible apply State.leaveService_kept hm
    | with_reducible refine State.wr_kept ?_ ?_
    | exact Sub.bit (Sub.trans (by decide) hm)
    | (refine Sub.from (b := 0x65400900) kz ?_; (try simp only [key, bk]); omega)
    | with_reducible apply Kept.ite
    | with_reducible split
    | split

theorem State.laneStall_kept {mm : Nat} {s0 s : State} {l : Nat} (hm : Sub 0x7fffffffffffffffe000009e164 mm) (h : Kept mm s0 s) : Kept mm s0 (State.laneStall l s) := by
  have k0 : Sub 0x7fffffc00000000000000000000 mm := Sub.trans (by decide) hm
  have k1 : Sub 0x7fffffffffffffffe000009e040 mm := Sub.trans (by decide) hm
  have k2 : Sub 0x40 mm := Sub.trans (by decide) hm
  have k3 : Sub 0x4 mm := Sub.trans (by decide) hm
  have k4 : Sub 0x7fffffc00000000000000000044 mm := Sub.trans (by decide) hm
  have kz : Sub (2 ^ 107 - 2 ^ (20 + zone 0x65400800)) mm := Sub.trans (by decide) hm
  unfold State.laneStall
  repeat' first
    | (intro x; refine Kept.bind (s0 := s0) (m := mm) (x := x) ?_ ?_; subst x; rotate_left; clear_value x; intro _)
    | (intro y; clear_value y)
    | intro _
    | with_reducible assumption
    | with_reducible lift_lets -underBinder
    | with_reducible apply State.incQueue_kept k0
    | with_reducible apply State.abortTest_kept k1
    | with_reducible apply State.modLane_kept k2
    | with_reducible apply State.modBatch_kept k3
    | with_reducible apply State.assign_kept k4
    | with_reducible apply State.retireLane_kept hm
    | with_reducible refine State.inc_kept ?_ ?_
    | exact Sub.bit (Sub.trans (by decide) hm)
    | (refine Sub.from (b := 0x65400800) kz ?_; (try simp only [key, bk]); omega)
    | with_reducible apply Kept.ite
    | with_reducible split
    | split

theorem State.paceOf_kept {mm : Nat} {s0 s : State} {l pace : Nat} (hm : Sub 0x7fffffffffffffffe000009e164 mm) (h : Kept mm s0 s) : Kept mm s0 (State.paceOf l pace s) := by
  have k0 : Sub 0x7fffd000000000000000000e000 mm := Sub.trans (by decide) hm
  have k1 : Sub 0x40 mm := Sub.trans (by decide) hm
  have kz : Sub (2 ^ 107 - 2 ^ (20 + zone 0x65400200)) mm := Sub.trans (by decide) hm
  unfold State.paceOf
  repeat' first
    | (intro x; refine Kept.bind (s0 := s0) (m := mm) (x := x) ?_ ?_; subst x; rotate_left; clear_value x; intro _)
    | (intro y; have w_ : Nat := y; clear w_; subst y)
    | (intro y; clear_value y)
    | intro _
    | with_reducible assumption
    | with_reducible lift_lets -underBinder
    | with_reducible apply State.logEvent_kept k0
    | with_reducible apply State.modLane_kept k1
    | with_reducible apply State.retireLane_kept hm
    | with_reducible refine State.setBit_kept ?_ ?_
    | with_reducible refine State.wr_kept ?_ ?_
    | exact Sub.bit (Sub.trans (by decide) hm)
    | (refine Sub.from (b := 0x65400200) kz ?_; (try simp only [key, bk]); omega)
    | with_reducible apply Kept.ite
    | with_reducible split
    | split

end Sys2Proof.Machine
end

