-- ==== Sys2Proof/Laws/KeptBankViews.lean ====
section
/-! SUPPORT. What the operations of Machine/BankViews.lean may change (Safety.lean, Kept): one lemma for each. -/

set_option linter.all false

namespace Sys2Proof.Machine

theorem State.syncBanks_kept {mm : Nat} {s0 s : State} {b : Nat} (hm : Sub 0x7ffffffff000000000000000000 mm) (h : Kept mm s0 s) : Kept mm s0 (State.syncBanks b s) := by
  have kz : Sub (2 ^ 107 - 2 ^ (20 + zone 0x40140500)) mm := Sub.trans (by decide) hm
  unfold State.syncBanks
  repeat' first
    | (intro x; refine Kept.bind (s0 := s0) (m := mm) (x := x) ?_ ?_; subst x; rotate_left; clear_value x; intro _)
    | (intro y; clear_value y)
    | intro _
    | with_reducible assumption
    | with_reducible lift_lets -underBinder
    | with_reducible refine State.wr_kept ?_ ?_
    | exact Sub.bit (Sub.trans (by decide) hm)
    | (refine Sub.from (b := 0x40140500) kz ?_; (try simp only [key, bk]); omega)
    | with_reducible apply Kept.ite
    | with_reducible split
    | split

theorem State.cancelSwap_kept {mm : Nat} {s0 s : State} {b : Nat} (hm : Sub 0x7ffffffff000000000000000000 mm) (h : Kept mm s0 s) : Kept mm s0 (State.cancelSwap b s) := by
  have kz : Sub (2 ^ 107 - 2 ^ (20 + zone 0x40140300)) mm := Sub.trans (by decide) hm
  unfold State.cancelSwap
  repeat' first
    | (intro x; refine Kept.bind (s0 := s0) (m := mm) (x := x) ?_ ?_; subst x; rotate_left; clear_value x; intro _)
    | (intro y; clear_value y)
    | intro _
    | with_reducible assumption
    | with_reducible lift_lets -underBinder
    | with_reducible refine State.wr_kept ?_ ?_
    | exact Sub.bit (Sub.trans (by decide) hm)
    | (refine Sub.from (b := 0x40140300) kz ?_; (try simp only [key, bk]); omega)
    | with_reducible apply Kept.ite
    | with_reducible split
    | split

theorem State.putWord_kept {mm : Nat} {s0 s : State} {i k v : Nat} (hm : Sub 0x7ffffff00000000000000000000 mm) (h : Kept mm s0 s) : Kept mm s0 (State.putWord i k v s) := by
  have kz : Sub (2 ^ 107 - 2 ^ (20 + zone 0x60001000)) mm := Sub.trans (by decide) hm
  unfold State.putWord
  repeat' first
    | (intro x; refine Kept.bind (s0 := s0) (m := mm) (x := x) ?_ ?_; subst x; rotate_left; clear_value x; intro _)
    | (intro y; clear_value y)
    | intro _
    | with_reducible assumption
    | with_reducible lift_lets -underBinder
    | with_reducible refine State.wr_kept ?_ ?_
    | exact Sub.bit (Sub.trans (by decide) hm)
    | (refine Sub.from (b := 0x60001000) kz ?_; (try simp only [key, bk, fxWord]); omega)
    | with_reducible apply Kept.ite
    | with_reducible split
    | split

theorem State.putCoef_kept {mm : Nat} {s0 s : State} {i k : Nat} {v : F32} (hm : Sub 0x7fffffe00000000000000000000 mm) (h : Kept mm s0 s) : Kept mm s0 (State.putCoef i k v s) := by
  have kz : Sub (2 ^ 107 - 2 ^ (20 + zone 0x64001000)) mm := Sub.trans (by decide) hm
  unfold State.putCoef
  repeat' first
    | (intro x; refine Kept.bind (s0 := s0) (m := mm) (x := x) ?_ ?_; subst x; rotate_left; clear_value x; intro _)
    | (intro y; clear_value y)
    | intro _
    | with_reducible assumption
    | with_reducible lift_lets -underBinder
    | with_reducible refine State.wrF_kept ?_ ?_
    | exact Sub.bit (Sub.trans (by decide) hm)
    | (refine Sub.from (b := 0x64001000) kz ?_; (try simp only [key, bk, flWord]); omega)
    | with_reducible apply Kept.ite
    | with_reducible split
    | split

theorem State.holdViews_kept {mm : Nat} {s0 s : State} {b : Nat} {r : Recipe} (hm : Sub 0x7ffffffff000000000000000000 mm) (h : Kept mm s0 s) : Kept mm s0 (State.holdViews b r s) := by
  have k0 : Sub 0x0 mm := Sub.trans (by decide) hm
  have kz : Sub (2 ^ 107 - 2 ^ (20 + zone 0x40000000)) mm := Sub.trans (by decide) hm
  unfold State.holdViews
  repeat' first
    | (intro x; refine Kept.bind (s0 := s0) (m := mm) (x := x) ?_ ?_; subst x; rotate_left; clear_value x; intro _)
    | (intro y; clear_value y)
    | intro _
    | with_reducible assumption
    | with_reducible lift_lets -underBinder
    | with_reducible apply State.each_kept k0
    | with_reducible refine State.wr_kept ?_ ?_
    | exact Sub.bit (Sub.trans (by decide) hm)
    | (refine Sub.from (b := 0x40000000) kz ?_; (try simp only [key, bk]); omega)
    | with_reducible apply Kept.ite
    | with_reducible split
    | split

theorem State.forgetWord_kept {mm : Nat} {s0 s : State} {b slot word : Nat} (hm : Sub 0x7ffffffff000000000000000000 mm) (h : Kept mm s0 s) : Kept mm s0 (State.forgetWord b slot word s) := by
  have k0 : Sub 0x0 mm := Sub.trans (by decide) hm
  have kz : Sub (2 ^ 107 - 2 ^ (20 + zone 0x40000000)) mm := Sub.trans (by decide) hm
  unfold State.forgetWord
  repeat' first
    | (intro x; refine Kept.bind (s0 := s0) (m := mm) (x := x) ?_ ?_; subst x; rotate_left; clear_value x; intro _)
    | (intro y; clear_value y)
    | intro _
    | with_reducible assumption
    | with_reducible lift_lets -underBinder
    | with_reducible apply State.each_kept k0
    | with_reducible refine State.clr_kept ?_ ?_
    | exact Sub.bit (Sub.trans (by decide) hm)
    | (refine Sub.from (b := 0x40000000) kz ?_; (try simp only [key, bk]); omega)
    | with_reducible apply Kept.ite
    | with_reducible split
    | split

theorem State.putImpedance_kept {mm : Nat} {s0 s : State} {b : Nat} {r : Recipe} (hm : Sub 0x7ffffff00000000000000000000 mm) (h : Kept mm s0 s) : Kept mm s0 (State.putImpedance b r s) := by
  have k0 : Sub 0x0 mm := Sub.trans (by decide) hm
  have k1 : Sub 0x7fffffe00000000000000000000 mm := Sub.trans (by decide) hm
  unfold State.putImpedance
  repeat' first
    | (intro x; refine Kept.bind (s0 := s0) (m := mm) (x := x) ?_ ?_; subst x; rotate_left; clear_value x; intro _)
    | (intro y; clear_value y)
    | intro _
    | with_reducible assumption
    | with_reducible lift_lets -underBinder
    | with_reducible apply State.each_kept k0
    | with_reducible apply State.putWord_kept hm
    | with_reducible apply State.putCoef_kept k1
    | with_reducible apply Kept.ite
    | with_reducible split
    | split
    | with_reducible refine Kept.snd (by assumption) ?_
    | with_reducible refine Kept.fst (by assumption) ?_

theorem State.putAngle_kept {mm : Nat} {s0 s : State} {b : Nat} {r : Recipe} (hm : Sub 0x7fffffe00000000000000000000 mm) (h : Kept mm s0 s) : Kept mm s0 (State.putAngle b r s) := by
  have k0 : Sub 0x0 mm := Sub.trans (by decide) hm
  unfold State.putAngle
  repeat' first
    | (intro x; refine Kept.bind (s0 := s0) (m := mm) (x := x) ?_ ?_; subst x; rotate_left; clear_value x; intro _)
    | (intro y; clear_value y)
    | intro _
    | with_reducible assumption
    | with_reducible lift_lets -underBinder
    | with_reducible apply State.each_kept k0
    | with_reducible apply State.putCoef_kept hm
    | with_reducible apply Kept.ite
    | with_reducible split
    | split

theorem State.putE_kept {mm : Nat} {s0 s : State} {b : Nat} {r : Recipe} (hm : Sub 0x7ffffff00000000000000000000 mm) (h : Kept mm s0 s) : Kept mm s0 (State.putE b r s) := by
  have k0 : Sub 0x0 mm := Sub.trans (by decide) hm
  unfold State.putE
  repeat' first
    | (intro x; refine Kept.bind (s0 := s0) (m := mm) (x := x) ?_ ?_; subst x; rotate_left; clear_value x; intro _)
    | (intro y; clear_value y)
    | intro _
    | with_reducible assumption
    | with_reducible lift_lets -underBinder
    | with_reducible apply State.each_kept k0
    | with_reducible apply State.putWord_kept hm
    | with_reducible apply Kept.ite
    | with_reducible split
    | split

theorem State.putNegLimit_kept {mm : Nat} {s0 s : State} {b : Nat} {r : Recipe} (hm : Sub 0x7ffffff00000000000000000000 mm) (h : Kept mm s0 s) : Kept mm s0 (State.putNegLimit b r s) := by
  have k0 : Sub 0x0 mm := Sub.trans (by decide) hm
  unfold State.putNegLimit
  repeat' first
    | (intro x; refine Kept.bind (s0 := s0) (m := mm) (x := x) ?_ ?_; subst x; rotate_left; clear_value x; intro _)
    | (intro y; clear_value y)
    | intro _
    | with_reducible assumption
    | with_reducible lift_lets -underBinder
    | with_reducible apply State.each_kept k0
    | with_reducible apply State.putWord_kept hm
    | with_reducible apply Kept.ite
    | with_reducible split
    | split

theorem State.putAll_kept {mm : Nat} {s0 s : State} {r : Recipe} {code k : Nat} {v : Block → Rat} (hm : Sub 0x7fffffe00000000000000000000 mm) (h : Kept mm s0 s) : Kept mm s0 (State.putAll r code k v s) := by
  have k0 : Sub 0x0 mm := Sub.trans (by decide) hm
  unfold State.putAll
  repeat' first
    | (intro x; refine Kept.bind (s0 := s0) (m := mm) (x := x) ?_ ?_; subst x; rotate_left; clear_value x; intro _)
    | (intro y; clear_value y)
    | intro _
    | with_reducible assumption
    | with_reducible lift_lets -underBinder
    | with_reducible apply State.each_kept k0
    | with_reducible apply State.putCoef_kept hm
    | with_reducible apply Kept.ite
    | with_reducible split
    | split

theorem State.putCycle_kept {mm : Nat} {s0 s : State} {b : Nat} {r : Recipe} (hm : Sub 0x7fffffe00000000000000000000 mm) (h : Kept mm s0 s) : Kept mm s0 (State.putCycle b r s) := by
  unfold State.putCycle
  repeat' first
    | (intro x; refine Kept.bind (s0 := s0) (m := mm) (x := x) ?_ ?_; subst x; rotate_left; clear_value x; intro _)
    | (intro y; clear_value y)
    | intro _
    | with_reducible assumption
    | with_reducible lift_lets -underBinder
    | with_reducible apply State.putAll_kept hm
    | with_reducible apply Kept.ite
    | with_reducible split
    | split

theorem State.putScales_kept {mm : Nat} {s0 s : State} {b : Nat} {r : Recipe} (hm : Sub 0x7ffffff00000000000000000000 mm) (h : Kept mm s0 s) : Kept mm s0 (State.putScales b r s) := by
  have k0 : Sub 0x7fffffe00000000000000000000 mm := Sub.trans (by decide) hm
  unfold State.putScales
  repeat' first
    | (intro x; refine Kept.bind (s0 := s0) (m := mm) (x := x) ?_ ?_; subst x; rotate_left; clear_value x; intro _)
    | (intro y; clear_value y)
    | intro _
    | with_reducible assumption
    | with_reducible lift_lets -underBinder
    | with_reducible apply State.putAll_kept k0
    | with_reducible apply State.putCycle_kept k0
    | with_reducible apply State.putE_kept hm
    | with_reducible apply State.putImpedance_kept hm
    | with_reducible apply State.putNegLimit_kept hm
    | with_reducible apply Kept.ite
    | with_reducible split
    | split

theorem State.putView_kept {mm : Nat} {s0 s : State} {b off sub : Nat} {r : Recipe} (hm : Sub 0x7ffffff00000000000000000000 mm) (h : Kept mm s0 s) : Kept mm s0 (State.putView b off sub r s) := by
  have k0 : Sub 0x7fffffe00000000000000000000 mm := Sub.trans (by decide) hm
  unfold State.putView
  repeat' first
    | (intro x; refine Kept.bind (s0 := s0) (m := mm) (x := x) ?_ ?_; subst x; rotate_left; clear_value x; intro _)
    | (intro y; have w_ : Nat → Rat → State := y; clear w_; subst y)
    | (intro y; clear_value y)
    | intro _
    | with_reducible assumption
    | with_reducible lift_lets -underBinder
    | with_reducible apply State.putAll_kept k0
    | with_reducible apply State.putE_kept hm
    | with_reducible apply State.putImpedance_kept hm
    | with_reducible apply State.putAngle_kept k0
    | with_reducible apply State.putNegLimit_kept hm
    | with_reducible apply Kept.ite
    | with_reducible split
    | split
    | dsimp -zeta only

theorem State.putTolerance_kept {mm : Nat} {s0 s : State} {off : Nat} {r : Recipe} (hm : Sub 0x7fffffe00000000000000000000 mm) (h : Kept mm s0 s) : Kept mm s0 (State.putTolerance off r s) := by
  unfold State.putTolerance
  repeat' first
    | (intro x; refine Kept.bind (s0 := s0) (m := mm) (x := x) ?_ ?_; subst x; rotate_left; clear_value x; intro _)
    | (intro y; clear_value y)
    | intro _
    | with_reducible assumption
    | with_reducible lift_lets -underBinder
    | with_reducible apply State.putAll_kept hm
    | with_reducible apply Kept.ite
    | with_reducible split
    | split

theorem State.applyView_kept {mm : Nat} {s0 s : State} {b off sub : Nat} {v : Int} (hm : Sub 0x7ffffffff000000000000000000 mm) (h : Kept mm s0 s) : Kept mm s0 (State.applyView b off sub v s) := by
  have k0 : Sub 0x7fffffe00000000000000000000 mm := Sub.trans (by decide) hm
  have k1 : Sub 0x7ffffff00000000000000000000 mm := Sub.trans (by decide) hm
  have kz : Sub (2 ^ 107 - 2 ^ (20 + zone 0x40000000)) mm := Sub.trans (by decide) hm
  unfold State.applyView
  repeat' first
    | (intro x; refine Kept.bind (s0 := s0) (m := mm) (x := x) ?_ ?_; subst x; rotate_left; clear_value x; intro _)
    | (intro y; clear_value y)
    | intro _
    | with_reducible assumption
    | with_reducible lift_lets -underBinder
    | with_reducible apply State.putCycle_kept k0
    | with_reducible apply State.putView_kept k1
    | with_reducible apply State.putTolerance_kept k0
    | with_reducible apply State.cancelSwap_kept hm
    | with_reducible apply State.syncBanks_kept hm
    | with_reducible refine State.wr_kept ?_ ?_
    | exact Sub.bit (Sub.trans (by decide) hm)
    | (refine Sub.from (b := 0x40000000) kz ?_; (try simp only [key, bk]); omega)
    | with_reducible apply Kept.ite
    | with_reducible split
    | split

theorem State.applyScale_kept {mm : Nat} {s0 s : State} {b sub : Nat} {v : Int} (hm : Sub 0x7ffffffff000000000000000000 mm) (h : Kept mm s0 s) : Kept mm s0 (State.applyScale b sub v s) := by
  have k0 : Sub 0x7ffffff00000000000000000000 mm := Sub.trans (by decide) hm
  have kz : Sub (2 ^ 107 - 2 ^ (20 + zone 0x40050000)) mm := Sub.trans (by decide) hm
  unfold State.applyScale
  repeat' first
    | (intro x; refine Kept.bind (s0 := s0) (m := mm) (x := x) ?_ ?_; subst x; rotate_left; clear_value x; intro _)
    | (intro y; clear_value y)
    | intro _
    | with_reducible assumption
    | with_reducible lift_lets -underBinder
    | with_reducible apply State.holdViews_kept hm
    | with_reducible apply State.putScales_kept k0
    | with_reducible apply State.cancelSwap_kept hm
    | with_reducible apply State.syncBanks_kept hm
    | with_reducible refine State.wr_kept ?_ ?_
    | exact Sub.bit (Sub.trans (by decide) hm)
    | (refine Sub.from (b := 0x40050000) kz ?_; (try simp only [key, bk]); omega)
    | with_reducible apply Kept.ite
    | with_reducible split
    | split

theorem State.forgetDiscarded_kept {mm : Nat} {s0 s : State} {b : Nat} (hm : Sub 0x7ffffffff000000000000000000 mm) (h : Kept mm s0 s) : Kept mm s0 (State.forgetDiscarded b s) := by
  have k0 : Sub 0x0 mm := Sub.trans (by decide) hm
  have kz : Sub (2 ^ 107 - 2 ^ (20 + zone 0x40000000)) mm := Sub.trans (by decide) hm
  unfold State.forgetDiscarded
  repeat' first
    | (intro x; refine Kept.bind (s0 := s0) (m := mm) (x := x) ?_ ?_; subst x; rotate_left; clear_value x; intro _)
    | (intro y; clear_value y)
    | intro _
    | with_reducible assumption
    | with_reducible lift_lets -underBinder
    | with_reducible apply State.each_kept k0
    | with_reducible refine State.clr_kept ?_ ?_
    | exact Sub.bit (Sub.trans (by decide) hm)
    | (refine Sub.from (b := 0x40000000) kz ?_; (try simp only [key, bk]); omega)
    | with_reducible apply Kept.ite
    | with_reducible split
    | split

theorem State.putD_kept {mm : Nat} {s0 s : State} {b slot : Nat} (hm : Sub 0x7fffffe00000000000000000000 mm) (h : Kept mm s0 s) : Kept mm s0 (State.putD b slot s) := by
  have k0 : Sub 0x0 mm := Sub.trans (by decide) hm
  unfold State.putD
  repeat' first
    | (intro x; refine Kept.bind (s0 := s0) (m := mm) (x := x) ?_ ?_; subst x; rotate_left; clear_value x; intro _)
    | (intro y; clear_value y)
    | intro _
    | with_reducible assumption
    | with_reducible lift_lets -underBinder
    | with_reducible apply State.each_kept k0
    | with_reducible apply State.putCoef_kept hm
    | with_reducible apply Kept.ite
    | with_reducible split
    | split

theorem State.runJob_kept {mm : Nat} {s0 s : State} {b : Nat} {j : Job} (hm : Sub 0x7ffffffff000000000000000038 mm) (h : Kept mm s0 s) : Kept mm s0 (State.runJob b j s).1 := by
  have k0 : Sub 0x7fffffe00000000000000000000 mm := Sub.trans (by decide) hm
  have k1 : Sub 0x7ffffffff000000000000000000 mm := Sub.trans (by decide) hm
  have k2 : Sub 0x8 mm := Sub.trans (by decide) hm
  have k3 : Sub 0x10 mm := Sub.trans (by decide) hm
  have k4 : Sub 0x0 mm := Sub.trans (by decide) hm
  have k5 : Sub 0x7ffffff00000000000000000000 mm := Sub.trans (by decide) hm
  have k6 : Sub 0x7ffff8000000000000000000020 mm := Sub.trans (by decide) hm
  have kz : Sub (2 ^ 107 - 2 ^ (20 + zone 0x60001000)) mm := Sub.trans (by decide) hm
  unfold State.runJob
  repeat' first
    | (intro x; refine Kept.bind (s0 := s0) (m := mm) (x := x) ?_ ?_; subst x; rotate_left; clear_value x; intro _)
    | (intro y; have w_ : Nat := y; clear w_; subst y)
    | (intro y; clear_value y)
    | intro _
    | with_reducible assumption
    | with_reducible lift_lets -underBinder
    | with_reducible apply State.putD_kept k0
    | with_reducible apply State.forgetWord_kept k1
    | with_reducible apply State.cancelSwap_kept k1
    | with_reducible apply State.syncBanks_kept k1
    | with_reducible apply State.setFx_kept k2
    | with_reducible apply State.setFl_kept k3
    | with_reducible apply State.forgetDiscarded_kept k1
    | with_reducible apply State.each_kept k4
    | with_reducible apply State.putWord_kept k5
    | with_reducible apply State.putCoef_kept k0
    | with_reducible apply State.applyView_kept k1
    | with_reducible apply State.applyScale_kept k1
    | with_reducible apply State.hostTarget_kept k6
    | with_reducible apply State.genHold_kept k6
    | with_reducible apply State.genRelease_kept k6
    | with_reducible apply State.presetTo_kept k6
    | with_reducible refine State.wr_kept ?_ ?_
    | exact Sub.bit (Sub.trans (by decide) hm)
    | (refine Sub.from (b := 0x60001000) kz ?_; (try simp only [key, bk, flWord, fxWord]); omega)
    | with_reducible apply Kept.ite
    | with_reducible split
    | split

theorem State.ownJob_kept {mm : Nat} {s0 s : State} {b : Nat} {j : Job} (hm : Sub 0x7fffffc00000000000000000004 mm) (h : Kept mm s0 s) : Kept mm s0 (State.ownJob b j s) := by
  have k0 : Sub 0x4 mm := Sub.trans (by decide) hm
  have k1 : Sub 0x7fffffc00000000000000000000 mm := Sub.trans (by decide) hm
  unfold State.ownJob
  repeat' first
    | (intro x; refine Kept.bind (s0 := s0) (m := mm) (x := x) ?_ ?_; subst x; rotate_left; clear_value x; intro _)
    | (intro y; clear_value y)
    | intro _
    | with_reducible assumption
    | with_reducible lift_lets -underBinder
    | with_reducible apply State.modBatch_kept k0
    | with_reducible apply State.notePeak_kept k1
    | with_reducible apply Kept.ite
    | with_reducible split
    | split

theorem State.job_kept {mm : Nat} {s0 s : State} {b : Nat} {q : Req} {j : Job} (hm : Sub 0x7ffffffff00000000000000003c mm) (h : Kept mm s0 s) : Kept mm s0 (State.job b q j s) := by
  have k0 : Sub 0x4 mm := Sub.trans (by decide) hm
  have k1 : Sub 0x7fffffc00000000000000000000 mm := Sub.trans (by decide) hm
  have k2 : Sub 0x7ffffffff000000000000000038 mm := Sub.trans (by decide) hm
  have k3 : Sub 0x0 mm := Sub.trans (by decide) hm
  unfold State.job
  repeat' first
    | (intro x; refine Kept.bind (s0 := s0) (m := mm) (x := x) ?_ ?_; subst x; rotate_left; clear_value x; intro _)
    | (intro y; have w_ : State × Nat := y; clear w_)
    | (intro y; clear_value y)
    | intro _
    | with_reducible assumption
    | with_reducible lift_lets -underBinder
    | with_reducible apply State.modBatch_kept k0
    | with_reducible apply State.notePeak_kept k1
    | with_reducible apply State.runJob_kept k2
    | with_reducible apply State.answer_kept k3
    | with_reducible apply Kept.ite
    | with_reducible split
    | split
    | with_reducible refine Kept.snd (by assumption) ?_
    | with_reducible refine Kept.fst (by assumption) ?_

theorem bankEff_kept {mm : Nat} {s0 : State} {q : Req} {sl : Nat} {bankB : Bool} {w v : Nat} (hm : Sub 0x7ffffffff00000000000000003c mm) : EffKept mm s0 (bankEff q sl bankB w v) := by
  have k0 : Sub 0x7ffffffff000000000000000000 mm := Sub.trans (by decide) hm
  unfold bankEff
  repeat' first
    | (intro x; refine Kept.bind (s0 := s0) (m := mm) (x := x) ?_ ?_; subst x; rotate_left; clear_value x; intro _)
    | (intro y; clear_value y)
    | intro _
    | with_reducible assumption
    | with_reducible lift_lets -underBinder
    | with_reducible apply State.cancelSwap_kept k0
    | with_reducible apply State.job_kept hm
    | with_reducible apply Kept.ite
    | with_reducible apply EffKept.ite
    | with_reducible split
    | split
    | (refine ⟨fun s h => ?_⟩; dsimp -zeta only)
    | dsimp -zeta only

theorem stateEff_kept {mm : Nat} {s0 : State} {q : Req} {sl i v : Nat} (hm : Sub 0x7ffffffff00000000000000003c mm) : EffKept mm s0 (stateEff q sl i v) := by
  unfold stateEff
  repeat' first
    | (intro x; refine Kept.bind (s0 := s0) (m := mm) (x := x) ?_ ?_; subst x; rotate_left; clear_value x; intro _)
    | (intro y; clear_value y)
    | intro _
    | with_reducible assumption
    | with_reducible lift_lets -underBinder
    | with_reducible apply State.job_kept hm
    | with_reducible apply Kept.ite
    | with_reducible apply EffKept.ite
    | with_reducible split
    | split
    | (refine ⟨fun s h => ?_⟩; dsimp -zeta only)
    | dsimp -zeta only

theorem copyEff_kept {mm : Nat} {s0 : State} {q : Req} {b : Nat} (hm : Sub 0x7ffffffff00000000000000003c mm) : EffKept mm s0 (copyEff q b) := by
  have k0 : Sub 0x7ffffffff000000000000000000 mm := Sub.trans (by decide) hm
  unfold copyEff
  repeat' first
    | (intro x; refine Kept.bind (s0 := s0) (m := mm) (x := x) ?_ ?_; subst x; rotate_left; clear_value x; intro _)
    | (intro y; clear_value y)
    | intro _
    | with_reducible assumption
    | with_reducible lift_lets -underBinder
    | with_reducible apply State.cancelSwap_kept k0
    | with_reducible apply State.job_kept hm
    | with_reducible apply Kept.ite
    | with_reducible apply EffKept.ite
    | with_reducible split
    | split
    | (refine ⟨fun s h => ?_⟩; dsimp -zeta only)
    | dsimp -zeta only

theorem swapEff_kept {mm : Nat} {s0 : State} {b : Nat} (hm : Sub 0x7ffffffff000000000000000004 mm) : EffKept mm s0 (swapEff b) := by
  have k0 : Sub 0x4 mm := Sub.trans (by decide) hm
  have kz : Sub (2 ^ 107 - 2 ^ (20 + zone 0x40140300)) mm := Sub.trans (by decide) hm
  unfold swapEff
  repeat' first
    | (intro x; refine Kept.bind (s0 := s0) (m := mm) (x := x) ?_ ?_; subst x; rotate_left; clear_value x; intro _)
    | (intro y; clear_value y)
    | intro _
    | with_reducible assumption
    | with_reducible lift_lets -underBinder
    | with_reducible apply State.modBatch_kept k0
    | with_reducible refine State.wr_kept ?_ ?_
    | exact Sub.bit (Sub.trans (by decide) hm)
    | (refine Sub.from (b := 0x40140300) kz ?_; (try simp only [key, bk]); omega)
    | with_reducible apply Kept.ite
    | with_reducible apply EffKept.ite
    | with_reducible split
    | split
    | (refine ⟨fun s h => ?_⟩; dsimp -zeta only)
    | dsimp -zeta only

theorem State.bankSwap_kept {mm : Nat} {s0 s : State} {b : Nat} (hm : Sub 0x7ffffffff000000000000000018 mm) (h : Kept mm s0 s) : Kept mm s0 (State.bankSwap b s) := by
  have k0 : Sub 0x0 mm := Sub.trans (by decide) hm
  have k1 : Sub 0x8 mm := Sub.trans (by decide) hm
  have k2 : Sub 0x10 mm := Sub.trans (by decide) hm
  have k3 : Sub 0x7ffffffff000000000000000000 mm := Sub.trans (by decide) hm
  have kz : Sub (2 ^ 107 - 2 ^ (20 + zone 0x40140100)) mm := Sub.trans (by decide) hm
  unfold State.bankSwap
  repeat' first
    | (intro x; refine Kept.bind (s0 := s0) (m := mm) (x := x) ?_ ?_; subst x; rotate_left; clear_value x; intro _)
    | (intro y; clear_value y)
    | intro _
    | with_reducible assumption
    | with_reducible lift_lets -underBinder
    | with_reducible apply State.each_kept k0
    | with_reducible apply State.setFx_kept k1
    | with_reducible apply State.setFl_kept k2
    | with_reducible apply State.syncBanks_kept k3
    | with_reducible refine State.inc_kept ?_ ?_
    | with_reducible refine State.wr_kept ?_ ?_
    | exact Sub.bit (Sub.trans (by decide) hm)
    | (refine Sub.from (b := 0x40140100) kz ?_; (try simp only [key, bk]); omega)
    | with_reducible apply Kept.ite
    | with_reducible split
    | split

theorem targetEff_kept {mm : Nat} {s0 : State} {q : Req} {g : Nat} {v : Int} (hm : Sub 0x7ffffffff00000000000000003c mm) : EffKept mm s0 (targetEff q g v) := by
  unfold targetEff
  repeat' first
    | (intro x; refine Kept.bind (s0 := s0) (m := mm) (x := x) ?_ ?_; subst x; rotate_left; clear_value x; intro _)
    | (intro y; clear_value y)
    | intro _
    | with_reducible assumption
    | with_reducible lift_lets -underBinder
    | with_reducible apply State.job_kept hm
    | with_reducible apply Kept.ite
    | with_reducible apply EffKept.ite
    | with_reducible split
    | split
    | (refine ⟨fun s h => ?_⟩; dsimp -zeta only)
    | dsimp -zeta only

theorem genCmdEff_kept {mm : Nat} {s0 : State} {q : Req} {g : Nat} {v : Int} (hm : Sub 0x7ffffffff00000000000000003c mm) : EffKept mm s0 (genCmdEff q g v) := by
  unfold genCmdEff
  repeat' first
    | (intro x; refine Kept.bind (s0 := s0) (m := mm) (x := x) ?_ ?_; subst x; rotate_left; clear_value x; intro _)
    | (intro y; clear_value y)
    | intro _
    | with_reducible assumption
    | with_reducible lift_lets -underBinder
    | with_reducible apply State.job_kept hm
    | with_reducible apply Kept.ite
    | with_reducible apply EffKept.ite
    | with_reducible split
    | split
    | (refine ⟨fun s h => ?_⟩; dsimp -zeta only)
    | dsimp -zeta only

theorem viewEff_kept {mm : Nat} {s0 : State} {q : Req} {b off sub : Nat} {v : Int} (hm : Sub 0x7ffffffff00000000000000003c mm) : EffKept mm s0 (viewEff q b off sub v) := by
  have k0 : Sub 0x7ffffffff000000000000000000 mm := Sub.trans (by decide) hm
  unfold viewEff
  repeat' first
    | (intro x; refine Kept.bind (s0 := s0) (m := mm) (x := x) ?_ ?_; subst x; rotate_left; clear_value x; intro _)
    | (intro y; clear_value y)
    | intro _
    | with_reducible assumption
    | with_reducible lift_lets -underBinder
    | with_reducible apply State.cancelSwap_kept k0
    | with_reducible apply State.job_kept hm
    | with_reducible apply Kept.ite
    | with_reducible apply EffKept.ite
    | with_reducible split
    | split
    | (refine ⟨fun s h => ?_⟩; dsimp -zeta only)
    | dsimp -zeta only

theorem offsetEff_kept {mm : Nat} {s0 : State} {q : Req} {b off sub : Nat} {v : Int} (hm : Sub 0x7ffffffff00000000000000003c mm) : EffKept mm s0 (offsetEff q b off sub v) := by
  have kz : Sub (2 ^ 107 - 2 ^ (20 + zone 0x40000000)) mm := Sub.trans (by decide) hm
  unfold offsetEff
  repeat' first
    | (intro x; refine Kept.bind (s0 := s0) (m := mm) (x := x) ?_ ?_; subst x; rotate_left; clear_value x; intro _)
    | (intro y; clear_value y)
    | intro _
    | with_reducible assumption
    | with_reducible lift_lets -underBinder
    | with_reducible apply (viewEff_kept hm).all
    | with_reducible apply viewEff_kept hm
    | with_reducible refine State.wr_kept ?_ ?_
    | exact Sub.bit (Sub.trans (by decide) hm)
    | (refine Sub.from (b := 0x40000000) kz ?_; (try simp only [key, bk]); omega)
    | with_reducible apply Kept.ite
    | with_reducible apply EffKept.ite
    | with_reducible split
    | split
    | (refine ⟨fun s h => ?_⟩; dsimp -zeta only)
    | dsimp -zeta only

theorem scaleEff_kept {mm : Nat} {s0 : State} {q : Req} {b sub : Nat} {v : Int} (hm : Sub 0x7ffffffff00000000000000003c mm) : EffKept mm s0 (scaleEff q b sub v) := by
  have k0 : Sub 0x7ffffffff000000000000000000 mm := Sub.trans (by decide) hm
  unfold scaleEff
  repeat' first
    | (intro x; refine Kept.bind (s0 := s0) (m := mm) (x := x) ?_ ?_; subst x; rotate_left; clear_value x; intro _)
    | (intro y; clear_value y)
    | intro _
    | with_reducible assumption
    | with_reducible lift_lets -underBinder
    | with_reducible apply State.cancelSwap_kept k0
    | with_reducible apply State.job_kept hm
    | with_reducible apply Kept.ite
    | with_reducible apply EffKept.ite
    | with_reducible split
    | split
    | (refine ⟨fun s h => ?_⟩; dsimp -zeta only)
    | dsimp -zeta only

end Sys2Proof.Machine
end

