-- ==== Sys2Proof/Laws/KeptChains.lean ====
section
/-! SUPPORT. What the operations of Machine/Chains.lean may change (Safety.lean, Kept): one lemma for each. -/

set_option linter.all false

namespace Sys2Proof.Machine

theorem State.setChain_kept {mm : Nat} {s0 s : State} {c : Nat} {r : ChainRec} (hm : Sub 0x80 mm) (h : Kept mm s0 s) : Kept mm s0 (State.setChain c r s) := by
  unfold State.setChain
  repeat' first
    | (intro x; refine Kept.bind (s0 := s0) (m := mm) (x := x) ?_ ?_; subst x; rotate_left; clear_value x; intro _)
    | (intro y; clear_value y)
    | intro _
    | with_reducible assumption
    | with_reducible lift_lets -underBinder
    | with_reducible apply Kept.ite
    | with_reducible split
    | split
    | with_reducible apply Kept.upd_meas hm

theorem State.modChain_kept {mm : Nat} {s0 s : State} {c : Nat} {f : ChainRec → ChainRec} (hm : Sub 0x80 mm) (h : Kept mm s0 s) : Kept mm s0 (State.modChain c f s) := by
  unfold State.modChain
  repeat' first
    | (intro x; refine Kept.bind (s0 := s0) (m := mm) (x := x) ?_ ?_; subst x; rotate_left; clear_value x; intro _)
    | (intro y; clear_value y)
    | intro _
    | with_reducible assumption
    | with_reducible lift_lets -underBinder
    | with_reducible apply State.setChain_kept hm
    | with_reducible apply Kept.ite
    | with_reducible split
    | split

theorem State.syncChain_kept {mm : Nat} {s0 s : State} {c : Nat} (hm : Sub 0x7fffffffe000000000000000000 mm) (h : Kept mm s0 s) : Kept mm s0 (State.syncChain c s) := by
  have kz : Sub (2 ^ 107 - 2 ^ (20 + zone 0x50001200)) mm := Sub.trans (by decide) hm
  unfold State.syncChain
  repeat' first
    | (intro x; refine Kept.bind (s0 := s0) (m := mm) (x := x) ?_ ?_; subst x; rotate_left; clear_value x; intro _)
    | (intro y; clear_value y)
    | intro _
    | with_reducible assumption
    | with_reducible lift_lets -underBinder
    | with_reducible refine State.wr_kept ?_ ?_
    | exact Sub.bit (Sub.trans (by decide) hm)
    | (refine Sub.from (b := 0x50001200) kz ?_; (try simp only [key, bk, ck]); omega)
    | with_reducible apply Kept.ite
    | with_reducible split
    | split

theorem State.setSfd_kept {mm : Nat} {s0 s : State} {d : Nat} {r : SfdRec} (hm : Sub 0x80 mm) (h : Kept mm s0 s) : Kept mm s0 (State.setSfd d r s) := by
  unfold State.setSfd
  repeat' first
    | (intro x; refine Kept.bind (s0 := s0) (m := mm) (x := x) ?_ ?_; subst x; rotate_left; clear_value x; intro _)
    | (intro y; clear_value y)
    | intro _
    | with_reducible assumption
    | with_reducible lift_lets -underBinder
    | with_reducible apply Kept.ite
    | with_reducible split
    | split
    | with_reducible apply Kept.upd_meas hm

theorem State.loseHarmonics_kept {mm : Nat} {s0 s : State} {c : Nat} (hm : Sub 0x7ffffff80000000000000000080 mm) (h : Kept mm s0 s) : Kept mm s0 (State.loseHarmonics c s) := by
  have k0 : Sub 0x0 mm := Sub.trans (by decide) hm
  have k1 : Sub 0x80 mm := Sub.trans (by decide) hm
  have kz : Sub (2 ^ 107 - 2 ^ (20 + zone 0x51000c00)) mm := Sub.trans (by decide) hm
  unfold State.loseHarmonics
  repeat' first
    | (intro x; refine Kept.bind (s0 := s0) (m := mm) (x := x) ?_ ?_; subst x; rotate_left; clear_value x; intro _)
    | (intro y; clear_value y)
    | intro _
    | with_reducible assumption
    | with_reducible lift_lets -underBinder
    | with_reducible apply State.each_kept k0
    | with_reducible apply State.setSfd_kept k1
    | with_reducible refine State.wr_kept ?_ ?_
    | exact Sub.bit (Sub.trans (by decide) hm)
    | (refine Sub.from (b := 0x51000c00) kz ?_; (try simp only [key, bk]); omega)
    | with_reducible apply Kept.ite
    | with_reducible split
    | split

theorem State.syncFollow_kept {mm : Nat} {s0 s : State} {c : Nat} (hm : Sub 0x7fffffffe000000000000000080 mm) (h : Kept mm s0 s) : Kept mm s0 (State.syncFollow c s) := by
  have k0 : Sub 0x7ffffff80000000000000000080 mm := Sub.trans (by decide) hm
  have kz : Sub (2 ^ 107 - 2 ^ (20 + zone 0x50000e00)) mm := Sub.trans (by decide) hm
  unfold State.syncFollow
  repeat' first
    | (intro x; refine Kept.bind (s0 := s0) (m := mm) (x := x) ?_ ?_; subst x; rotate_left; clear_value x; intro _)
    | (intro y; clear_value y)
    | intro _
    | with_reducible assumption
    | with_reducible lift_lets -underBinder
    | with_reducible apply State.loseHarmonics_kept k0
    | with_reducible refine State.setBit_kept ?_ ?_
    | with_reducible refine State.wr_kept ?_ ?_
    | exact Sub.bit (Sub.trans (by decide) hm)
    | (refine Sub.from (b := 0x50000e00) kz ?_; (try simp only [key, bk, ck]); omega)
    | with_reducible apply Kept.ite
    | with_reducible split
    | split

theorem State.syncTracker_kept {mm : Nat} {s0 s : State} {k : Nat} (hm : Sub 0x7fffffffe000000000000000080 mm) (h : Kept mm s0 s) : Kept mm s0 (State.syncTracker k s) := by
  have k0 : Sub 0x0 mm := Sub.trans (by decide) hm
  unfold State.syncTracker
  repeat' first
    | (intro x; refine Kept.bind (s0 := s0) (m := mm) (x := x) ?_ ?_; subst x; rotate_left; clear_value x; intro _)
    | (intro y; clear_value y)
    | intro _
    | with_reducible assumption
    | with_reducible lift_lets -underBinder
    | with_reducible apply State.each_kept k0
    | with_reducible apply State.syncFollow_kept hm
    | with_reducible apply Kept.ite
    | with_reducible split
    | split

theorem State.maskTracker_kept {mm : Nat} {s0 s : State} {k : Nat} {tm : Time} (hm : Sub 0x7fffd000000000000000000e000 mm) (h : Kept mm s0 s) : Kept mm s0 (State.maskTracker k tm s) := by
  have k0 : Sub 0x0 mm := Sub.trans (by decide) hm
  unfold State.maskTracker
  repeat' first
    | (intro x; refine Kept.bind (s0 := s0) (m := mm) (x := x) ?_ ?_; subst x; rotate_left; clear_value x; intro _)
    | (intro y; clear_value y)
    | intro _
    | with_reducible assumption
    | with_reducible lift_lets -underBinder
    | with_reducible apply State.each_kept k0
    | with_reducible apply State.maskFrequency_kept hm
    | with_reducible apply Kept.ite
    | with_reducible split
    | split

theorem State.loseTrack_kept {mm : Nat} {s0 s : State} {k : Nat} (hm : Sub 0x7fffffffe00000000000000e080 mm) (h : Kept mm s0 s) : Kept mm s0 (State.loseTrack k s) := by
  have k0 : Sub 0x80 mm := Sub.trans (by decide) hm
  have k1 : Sub 0x7fffffffe000000000000000080 mm := Sub.trans (by decide) hm
  have k2 : Sub 0x7fffd000000000000000000e000 mm := Sub.trans (by decide) hm
  unfold State.loseTrack
  repeat' first
    | (intro x; refine Kept.bind (s0 := s0) (m := mm) (x := x) ?_ ?_; subst x; rotate_left; clear_value x; intro _)
    | (intro y; clear_value y)
    | intro _
    | with_reducible assumption
    | with_reducible lift_lets -underBinder
    | with_reducible apply State.modChain_kept k0
    | with_reducible apply State.syncTracker_kept k1
    | with_reducible apply State.maskTracker_kept k2
    | with_reducible apply Kept.ite
    | with_reducible split
    | split

theorem State.crossing_kept {mm : Nat} {s0 s : State} {k tc : Nat} (hm : Sub 0x7fffffffe00000000000000e080 mm) (h : Kept mm s0 s) : Kept mm s0 (State.crossing k tc s) := by
  have k0 : Sub 0x80 mm := Sub.trans (by decide) hm
  have k1 : Sub 0x0 mm := Sub.trans (by decide) hm
  have k2 : Sub 0x7fffffffe000000000000000080 mm := Sub.trans (by decide) hm
  have k3 : Sub 0x7fffd000000000000000000e000 mm := Sub.trans (by decide) hm
  unfold State.crossing
  repeat' first
    | (intro x; refine Kept.bind (s0 := s0) (m := mm) (x := x) ?_ ?_; subst x; rotate_left; clear_value x; intro _)
    | (intro y; clear_value y)
    | intro _
    | with_reducible assumption
    | with_reducible lift_lets -underBinder
    | with_reducible apply State.setChain_kept k0
    | with_reducible apply State.modChain_kept k0
    | with_reducible apply State.each_kept k1
    | with_reducible apply State.syncTracker_kept k2
    | with_reducible apply State.maskTracker_kept k3
    | with_reducible apply Kept.ite
    | with_reducible split
    | split

theorem State.track_kept {mm : Nat} {s0 s : State} {k : Nat} {x : Int} (hm : Sub 0x7fffffffe00000000000000e080 mm) (h : Kept mm s0 s) : Kept mm s0 (State.track k x s) := by
  have k0 : Sub 0x80 mm := Sub.trans (by decide) hm
  unfold State.track
  repeat' first
    | (intro x; refine Kept.bind (s0 := s0) (m := mm) (x := x) ?_ ?_; subst x; rotate_left; clear_value x; intro _)
    | (intro y; clear_value y)
    | intro _
    | with_reducible assumption
    | with_reducible lift_lets -underBinder
    | with_reducible apply State.setChain_kept k0
    | with_reducible apply State.crossing_kept hm
    | with_reducible apply Kept.ite
    | with_reducible split
    | split

theorem State.restartDetectors_kept {mm : Nat} {s0 s : State} {c : Nat} (hm : Sub 0x7fffffffe000000000000000080 mm) (h : Kept mm s0 s) : Kept mm s0 (State.restartDetectors c s) := by
  have k0 : Sub 0x80 mm := Sub.trans (by decide) hm
  have kz : Sub (2 ^ 107 - 2 ^ (20 + zone 0x50001d00)) mm := Sub.trans (by decide) hm
  unfold State.restartDetectors
  repeat' first
    | (intro x; refine Kept.bind (s0 := s0) (m := mm) (x := x) ?_ ?_; subst x; rotate_left; clear_value x; intro _)
    | (intro y; clear_value y)
    | intro _
    | with_reducible assumption
    | with_reducible lift_lets -underBinder
    | with_reducible apply State.modChain_kept k0
    | with_reducible refine State.wr_kept ?_ ?_
    | exact Sub.bit (Sub.trans (by decide) hm)
    | (refine Sub.from (b := 0x50001d00) kz ?_; (try simp only [key, bk, ck]); omega)
    | with_reducible apply Kept.ite
    | with_reducible split
    | split

theorem State.rmsStep_kept {mm : Nat} {s0 s : State} {c : Nat} {x : Int} (hm : Sub 0x7fffffffe000000000000000080 mm) (h : Kept mm s0 s) : Kept mm s0 (State.rmsStep c x s) := by
  have k0 : Sub 0x80 mm := Sub.trans (by decide) hm
  have kz : Sub (2 ^ 107 - 2 ^ (20 + zone 0x50001e00)) mm := Sub.trans (by decide) hm
  unfold State.rmsStep
  repeat' first
    | (intro x; refine Kept.bind (s0 := s0) (m := mm) (x := x) ?_ ?_; subst x; rotate_left; clear_value x; intro _)
    | (intro y; clear_value y)
    | intro _
    | with_reducible assumption
    | with_reducible lift_lets -underBinder
    | with_reducible apply State.modChain_kept k0
    | with_reducible refine State.setBit_kept ?_ ?_
    | with_reducible refine State.wr_kept ?_ ?_
    | exact Sub.bit (Sub.trans (by decide) hm)
    | (refine Sub.from (b := 0x50001e00) kz ?_; (try simp only [key, bk, ck]); omega)
    | with_reducible apply Kept.ite
    | with_reducible split
    | split

theorem State.detectorOut_kept {mm : Nat} {s0 s : State} {c i : Nat} {tm : Time} (hm : Sub 0x7fffd000000000000000000e000 mm) (h : Kept mm s0 s) : Kept mm s0 (State.detectorOut c i tm s) := by
  have k0 : Sub 0x2000 mm := Sub.trans (by decide) hm
  unfold State.detectorOut
  repeat' first
    | (intro x; refine Kept.bind (s0 := s0) (m := mm) (x := x) ?_ ?_; subst x; rotate_left; clear_value x; intro _)
    | (intro y; clear_value y)
    | intro _
    | with_reducible assumption
    | with_reducible lift_lets -underBinder
    | with_reducible apply State.acqValue_kept k0
    | with_reducible apply State.source_kept hm
    | with_reducible apply Kept.ite
    | with_reducible split
    | split

theorem State.tapDetectors_kept {mm : Nat} {s0 s : State} {c : Nat} {x : Int} (hm : Sub 0x7fffffffe000000000000000080 mm) (h : Kept mm s0 s) : Kept mm s0 (State.tapDetectors c x s) := by
  have k0 : Sub 0x80 mm := Sub.trans (by decide) hm
  have kz : Sub (2 ^ 107 - 2 ^ (20 + zone 0x50001d00)) mm := Sub.trans (by decide) hm
  unfold State.tapDetectors
  repeat' first
    | (intro x; refine Kept.bind (s0 := s0) (m := mm) (x := x) ?_ ?_; subst x; rotate_left; clear_value x; intro _)
    | (intro y; clear_value y)
    | intro _
    | with_reducible assumption
    | with_reducible lift_lets -underBinder
    | with_reducible apply State.modChain_kept k0
    | with_reducible refine State.setBit_kept ?_ ?_
    | with_reducible refine State.wr_kept ?_ ?_
    | exact Sub.bit (Sub.trans (by decide) hm)
    | (refine Sub.from (b := 0x50001d00) kz ?_; (try simp only [key, bk, ck]); omega)
    | with_reducible apply Kept.ite
    | with_reducible split
    | split

theorem State.setCore_kept {mm : Nat} {s0 s : State} {k : Nat} {r : CoreRec} (hm : Sub 0x80 mm) (h : Kept mm s0 s) : Kept mm s0 (State.setCore k r s) := by
  unfold State.setCore
  repeat' first
    | (intro x; refine Kept.bind (s0 := s0) (m := mm) (x := x) ?_ ?_; subst x; rotate_left; clear_value x; intro _)
    | (intro y; clear_value y)
    | intro _
    | with_reducible assumption
    | with_reducible lift_lets -underBinder
    | with_reducible apply Kept.ite
    | with_reducible split
    | split
    | with_reducible apply Kept.upd_meas hm

theorem State.syncLoss_kept {mm : Nat} {s0 s : State} {c : Nat} (hm : Sub 0x7fffffffe00000000000000e080 mm) (h : Kept mm s0 s) : Kept mm s0 (State.syncLoss c s) := by
  have k0 : Sub 0x7fffffffe000000000000000080 mm := Sub.trans (by decide) hm
  have k1 : Sub 0x80 mm := Sub.trans (by decide) hm
  have kz : Sub (2 ^ 107 - 2 ^ (20 + zone 0x50001800)) mm := Sub.trans (by decide) hm
  unfold State.syncLoss
  repeat' first
    | (intro x; refine Kept.bind (s0 := s0) (m := mm) (x := x) ?_ ?_; subst x; rotate_left; clear_value x; intro _)
    | (intro y; clear_value y)
    | intro _
    | with_reducible assumption
    | with_reducible lift_lets -underBinder
    | with_reducible apply State.restartDetectors_kept k0
    | with_reducible apply State.loseTrack_kept hm
    | with_reducible refine State.setBit_kept ?_ ?_
    | with_reducible refine State.wr_kept ?_ ?_
    | exact Sub.bit (Sub.trans (by decide) hm)
    | (refine Sub.from (b := 0x50001800) kz ?_; (try simp only [key, bk, ck]); omega)
    | with_reducible apply Kept.ite
    | with_reducible split
    | split
    | with_reducible apply Kept.upd_meas k1

theorem State.markSat_kept {mm : Nat} {s0 s : State} {c : Nat} {v : Bool} (hm : Sub 0x7fffffffe000000000000000000 mm) (h : Kept mm s0 s) : Kept mm s0 (State.markSat c v s) := by
  have kz : Sub (2 ^ 107 - 2 ^ (20 + zone 0x50001800)) mm := Sub.trans (by decide) hm
  unfold State.markSat
  repeat' first
    | (intro x; refine Kept.bind (s0 := s0) (m := mm) (x := x) ?_ ?_; subst x; rotate_left; clear_value x; intro _)
    | (intro y; clear_value y)
    | intro _
    | with_reducible assumption
    | with_reducible lift_lets -underBinder
    | with_reducible refine State.setBit_kept ?_ ?_
    | with_reducible refine State.wr_kept ?_ ?_
    | exact Sub.bit (Sub.trans (by decide) hm)
    | (refine Sub.from (b := 0x50001800) kz ?_; (try simp only [key, bk, ck]); omega)
    | with_reducible apply Kept.ite
    | with_reducible split
    | split

theorem State.chainInput_kept {mm : Nat} {s0 s : State} {c : Nat} {a : Int} {sat0 : Bool} (hm : Sub 0x7fffffffe000000000000000080 mm) (h : Kept mm s0 s) : Kept mm s0 (State.chainInput c a sat0 s) := by
  have k0 : Sub 0x80 mm := Sub.trans (by decide) hm
  have k1 : Sub 0x7fffffffe000000000000000000 mm := Sub.trans (by decide) hm
  unfold State.chainInput
  repeat' first
    | (intro x; refine Kept.bind (s0 := s0) (m := mm) (x := x) ?_ ?_; subst x; rotate_left; clear_value x; intro _)
    | (intro y; clear_value y)
    | intro _
    | with_reducible assumption
    | with_reducible lift_lets -underBinder
    | with_reducible apply State.setChain_kept k0
    | with_reducible apply State.markSat_kept k1
    | with_reducible apply Kept.ite
    | with_reducible split
    | split

theorem State.dropAverage_kept {mm : Nat} {s0 s : State} {c : Nat} (hm : Sub 0x7fffffffe000000000000000080 mm) (h : Kept mm s0 s) : Kept mm s0 (State.dropAverage c s) := by
  have k0 : Sub 0x7fffffffe000000000000000000 mm := Sub.trans (by decide) hm
  have k1 : Sub 0x80 mm := Sub.trans (by decide) hm
  unfold State.dropAverage
  repeat' first
    | (intro x; refine Kept.bind (s0 := s0) (m := mm) (x := x) ?_ ?_; subst x; rotate_left; clear_value x; intro _)
    | (intro y; clear_value y)
    | intro _
    | with_reducible assumption
    | with_reducible lift_lets -underBinder
    | with_reducible apply State.markSat_kept k0
    | with_reducible apply State.setChain_kept k1
    | with_reducible apply Kept.ite
    | with_reducible split
    | split

theorem State.sarResult_kept {mm : Nat} {s0 s : State} {c k sl : Nat} {x : Int} (hm : Sub 0x7fffffffe000000000000000080 mm) (h : Kept mm s0 s) : Kept mm s0 (State.sarResult c k sl x s) := by
  have k0 : Sub 0x7fffffffe000000000000000000 mm := Sub.trans (by decide) hm
  have k1 : Sub 0x80 mm := Sub.trans (by decide) hm
  have kz : Sub (2 ^ 107 - 2 ^ (20 + zone 0x50001800)) mm := Sub.trans (by decide) hm
  unfold State.sarResult
  repeat' first
    | (intro x; refine Kept.bind (s0 := s0) (m := mm) (x := x) ?_ ?_; subst x; rotate_left; clear_value x; intro _)
    | (intro y; clear_value y)
    | intro _
    | with_reducible assumption
    | with_reducible lift_lets -underBinder
    | with_reducible apply State.markSat_kept k0
    | with_reducible apply State.setChain_kept k1
    | with_reducible apply State.chainInput_kept hm
    | with_reducible refine State.setBit_kept ?_ ?_
    | exact Sub.bit (Sub.trans (by decide) hm)
    | (refine Sub.from (b := 0x50001800) kz ?_; (try simp only [key, bk, ck]); omega)
    | with_reducible apply Kept.ite
    | with_reducible split
    | split

theorem State.stuck_kept {mm : Nat} {s0 s : State} {c : Nat} {v : Bool} (hm : Sub 0x7fffffffe00000000000000e080 mm) (h : Kept mm s0 s) : Kept mm s0 (State.stuck c v s) := by
  have k0 : Sub 0x80 mm := Sub.trans (by decide) hm
  have kz : Sub (2 ^ 107 - 2 ^ (20 + zone 0x50001800)) mm := Sub.trans (by decide) hm
  unfold State.stuck
  repeat' first
    | (intro x; refine Kept.bind (s0 := s0) (m := mm) (x := x) ?_ ?_; subst x; rotate_left; clear_value x; intro _)
    | (intro y; clear_value y)
    | intro _
    | with_reducible assumption
    | with_reducible lift_lets -underBinder
    | with_reducible apply State.modChain_kept k0
    | with_reducible apply State.syncLoss_kept hm
    | with_reducible refine State.setBit_kept ?_ ?_
    | exact Sub.bit (Sub.trans (by decide) hm)
    | (refine Sub.from (b := 0x50001800) kz ?_; (try simp only [key, bk, ck]); omega)
    | with_reducible apply Kept.ite
    | with_reducible split
    | split

theorem State.streamBits_kept {mm : Nat} {s0 s : State} {c : Nat} {bits : List Bool} (hm : Sub 0x7fffffffe00000000000000e080 mm) (h : Kept mm s0 s) : Kept mm s0 (State.streamBits c bits s) := by
  have k0 : Sub 0x80 mm := Sub.trans (by decide) hm
  have k1 : Sub 0x0 mm := Sub.trans (by decide) hm
  have kz : Sub (2 ^ 107 - 2 ^ (20 + zone 0x50001800)) mm := Sub.trans (by decide) hm
  unfold State.streamBits
  repeat' first
    | (intro x; refine Kept.bind (s0 := s0) (m := mm) (x := x) ?_ ?_; subst x; rotate_left; clear_value x; intro _)
    | (intro y; clear_value y)
    | intro _
    | with_reducible assumption
    | with_reducible lift_lets -underBinder
    | with_reducible apply State.setChain_kept k0
    | with_reducible apply State.each_kept k1
    | with_reducible apply State.stuck_kept hm
    | with_reducible refine State.setBit_kept ?_ ?_
    | exact Sub.bit (Sub.trans (by decide) hm)
    | (refine Sub.from (b := 0x50001800) kz ?_; (try simp only [key, bk, ck]); omega)
    | with_reducible apply Kept.ite
    | with_reducible split
    | split
    | with_reducible refine Kept.snd (by assumption) ?_
    | with_reducible refine Kept.fst (by assumption) ?_

theorem State.sinc_kept {mm : Nat} {s0 s : State} {c : Nat} {bits : List Bool} (hm : Sub 0x7fffffffe000000000000000080 mm) (h : Kept mm s0 s) : Kept mm s0 (State.sinc c bits s) := by
  have k0 : Sub 0x80 mm := Sub.trans (by decide) hm
  unfold State.sinc
  repeat' first
    | (intro x; refine Kept.bind (s0 := s0) (m := mm) (x := x) ?_ ?_; subst x; rotate_left; clear_value x; intro _)
    | (intro y; clear_value y)
    | intro _
    | with_reducible assumption
    | with_reducible lift_lets -underBinder
    | with_reducible apply State.setChain_kept k0
    | with_reducible apply State.chainInput_kept hm
    | with_reducible apply Kept.ite
    | with_reducible split
    | split

theorem State.decimation_kept {mm : Nat} {s0 s : State} {c : Nat} {bits : List Bool} (hm : Sub 0x7fffffffe00000000000000e080 mm) (h : Kept mm s0 s) : Kept mm s0 (State.decimation c bits s) := by
  have k0 : Sub 0x7fffffffe000000000000000080 mm := Sub.trans (by decide) hm
  unfold State.decimation
  repeat' first
    | (intro x; refine Kept.bind (s0 := s0) (m := mm) (x := x) ?_ ?_; subst x; rotate_left; clear_value x; intro _)
    | (intro y; clear_value y)
    | intro _
    | with_reducible assumption
    | with_reducible lift_lets -underBinder
    | with_reducible apply State.streamBits_kept hm
    | with_reducible apply State.sinc_kept k0
    | with_reducible apply Kept.ite
    | with_reducible split
    | split

theorem State.sdLoss_kept {mm : Nat} {s0 s : State} {c : Nat} {clockAbsent : Bool} (hm : Sub 0x7fffffffe00000000000000e080 mm) (h : Kept mm s0 s) : Kept mm s0 (State.sdLoss c clockAbsent s) := by
  have k0 : Sub 0x80 mm := Sub.trans (by decide) hm
  have kz : Sub (2 ^ 107 - 2 ^ (20 + zone 0x50001800)) mm := Sub.trans (by decide) hm
  unfold State.sdLoss
  repeat' first
    | (intro x; refine Kept.bind (s0 := s0) (m := mm) (x := x) ?_ ?_; subst x; rotate_left; clear_value x; intro _)
    | (intro y; clear_value y)
    | intro _
    | with_reducible assumption
    | with_reducible lift_lets -underBinder
    | with_reducible apply State.setChain_kept k0
    | with_reducible apply State.syncLoss_kept hm
    | with_reducible apply State.stuck_kept hm
    | with_reducible refine State.setBit_kept ?_ ?_
    | exact Sub.bit (Sub.trans (by decide) hm)
    | (refine Sub.from (b := 0x50001800) kz ?_; (try simp only [key, bk, ck]); omega)
    | with_reducible apply Kept.ite
    | with_reducible split
    | split

theorem State.sfdPartner_kept {mm : Nat} {s0 s : State} {d : Nat} (hm : Sub 0x7ffffff80000000000000000000 mm) (h : Kept mm s0 s) : Kept mm s0 (State.sfdPartner d s) := by
  have kz : Sub (2 ^ 107 - 2 ^ (20 + zone 0x51000a00)) mm := Sub.trans (by decide) hm
  unfold State.sfdPartner
  repeat' first
    | (intro x; refine Kept.bind (s0 := s0) (m := mm) (x := x) ?_ ?_; subst x; rotate_left; clear_value x; intro _)
    | (intro y; have w_ : Nat := y; clear w_; subst y)
    | (intro y; clear_value y)
    | intro _
    | with_reducible assumption
    | with_reducible lift_lets -underBinder
    | with_reducible refine State.wr_kept ?_ ?_
    | exact Sub.bit (Sub.trans (by decide) hm)
    | (refine Sub.from (b := 0x51000a00) kz ?_; (try simp only [key, bk]); omega)
    | with_reducible apply Kept.ite
    | with_reducible split
    | split

theorem State.rippleStep_kept {mm : Nat} {s0 s : State} {b : Nat} {a : Int} (hm : Sub 0x7ffffffff00000000000000e004 mm) (h : Kept mm s0 s) : Kept mm s0 (State.rippleStep b a s) := by
  have k0 : Sub 0x4 mm := Sub.trans (by decide) hm
  have k1 : Sub 0x7fffd000000000000000000e000 mm := Sub.trans (by decide) hm
  have kz : Sub (2 ^ 107 - 2 ^ (20 + zone 0x40151300)) mm := Sub.trans (by decide) hm
  unfold State.rippleStep
  repeat' first
    | (intro x; refine Kept.bind (s0 := s0) (m := mm) (x := x) ?_ ?_; subst x; rotate_left; clear_value x; intro _)
    | (intro y; clear_value y)
    | intro _
    | with_reducible assumption
    | with_reducible lift_lets -underBinder
    | with_reducible apply State.setBatch_kept k0
    | with_reducible apply State.logEvent_kept k1
    | with_reducible refine State.inc_kept ?_ ?_
    | with_reducible refine State.wr_kept ?_ ?_
    | exact Sub.bit (Sub.trans (by decide) hm)
    | (refine Sub.from (b := 0x40151300) kz ?_; (try simp only [key, bk]); omega)
    | with_reducible apply Kept.ite
    | with_reducible split
    | split

theorem State.sfdOutput_kept {mm : Nat} {s0 s : State} {d c : Nat} {x : Int} {tOut : Rat} (hm : Sub 0x7ffffffff00000000000000e084 mm) (h : Kept mm s0 s) : Kept mm s0 (State.sfdOutput d c x tOut s) := by
  have k0 : Sub 0x7fffffffe000000000000000000 mm := Sub.trans (by decide) hm
  have k1 : Sub 0x80 mm := Sub.trans (by decide) hm
  have k2 : Sub 0x7ffffff80000000000000000000 mm := Sub.trans (by decide) hm
  have k3 : Sub 0x7fffd000000000000000000e000 mm := Sub.trans (by decide) hm
  have k4 : Sub 0x0 mm := Sub.trans (by decide) hm
  have k5 : Sub 0x7ffffffff00000000000000e004 mm := Sub.trans (by decide) hm
  have kz : Sub (2 ^ 107 - 2 ^ (20 + zone 0x51000800)) mm := Sub.trans (by decide) hm
  unfold State.sfdOutput
  repeat' first
    | (intro x; refine Kept.bind (s0 := s0) (m := mm) (x := x) ?_ ?_; subst x; rotate_left; clear_value x; intro _)
    | (intro y; have w_ : Nat := y; clear w_; subst y)
    | (intro y; clear_value y)
    | intro _
    | with_reducible assumption
    | with_reducible lift_lets -underBinder
    | with_reducible apply State.markSat_kept k0
    | with_reducible apply State.setSfd_kept k1
    | with_reducible apply State.sfdPartner_kept k2
    | with_reducible apply State.source_kept k3
    | with_reducible apply State.each_kept k4
    | with_reducible apply State.rippleStep_kept k5
    | with_reducible refine State.wr_kept ?_ ?_
    | exact Sub.bit (Sub.trans (by decide) hm)
    | (refine Sub.from (b := 0x51000800) kz ?_; (try simp only [key, bk]); omega)
    | with_reducible apply Kept.ite
    | with_reducible split
    | split

theorem State.gridOutput_kept {mm : Nat} {s0 s : State} {c : Nat} {x : Int} {tOut : Rat} (hm : Sub 0x7ffffffff00000000000000e084 mm) (h : Kept mm s0 s) : Kept mm s0 (State.gridOutput c x tOut s) := by
  have k0 : Sub 0x80 mm := Sub.trans (by decide) hm
  have k1 : Sub 0x2000 mm := Sub.trans (by decide) hm
  have k2 : Sub 0x7fffd000000000000000000e000 mm := Sub.trans (by decide) hm
  have k3 : Sub 0x7fffffffe000000000000000080 mm := Sub.trans (by decide) hm
  have k4 : Sub 0x0 mm := Sub.trans (by decide) hm
  have kz : Sub (2 ^ 107 - 2 ^ (20 + zone 0x50001700)) mm := Sub.trans (by decide) hm
  unfold State.gridOutput
  repeat' first
    | (intro x; refine Kept.bind (s0 := s0) (m := mm) (x := x) ?_ ?_; subst x; rotate_left; clear_value x; intro _)
    | (intro y; clear_value y)
    | intro _
    | with_reducible assumption
    | with_reducible lift_lets -underBinder
    | with_reducible apply State.modChain_kept k0
    | with_reducible apply State.acqValue_kept k1
    | with_reducible apply State.source_kept k2
    | with_reducible apply State.rmsStep_kept k3
    | with_reducible apply State.detectorOut_kept k2
    | with_reducible apply State.maskVoltage_kept k2
    | with_reducible apply State.each_kept k4
    | with_reducible apply State.sfdOutput_kept hm
    | with_reducible refine State.wr_kept ?_ ?_
    | exact Sub.bit (Sub.trans (by decide) hm)
    | (refine Sub.from (b := 0x50001700) kz ?_; (try simp only [key, bk, ck]); omega)
    | with_reducible apply Kept.ite
    | with_reducible split
    | split

theorem State.resample_kept {mm : Nat} {s0 s : State} {k c : Nat} (hm : Sub 0x7ffffffff00000000000000e084 mm) (h : Kept mm s0 s) : Kept mm s0 (State.resample k c s) := by
  have k0 : Sub 0x80 mm := Sub.trans (by decide) hm
  have k1 : Sub 0x7fffffffe000000000000000000 mm := Sub.trans (by decide) hm
  induction k generalizing c s with
  | zero => exact h
  | succ k ih =>
    unfold State.resample
    repeat' first
      | (intro x; refine Kept.bind (s0 := s0) (m := mm) (x := x) ?_ ?_; subst x; rotate_left; clear_value x; intro _)
      | (intro y; clear_value y)
      | intro _
      | with_reducible assumption
      | with_reducible lift_lets -underBinder
      | with_reducible apply State.setChain_kept k0
      | with_reducible apply State.markSat_kept k1
      | with_reducible apply State.gridOutput_kept hm
      | with_reducible apply Kept.ite
      | apply ih
      | with_reducible split
      | split

theorem State.gridInput_kept {mm : Nat} {s0 s : State} {c : Nat} {x : Int} (hm : Sub 0x7ffffffff00000000000000e084 mm) (h : Kept mm s0 s) : Kept mm s0 (State.gridInput c x s) := by
  have k0 : Sub 0x80 mm := Sub.trans (by decide) hm
  unfold State.gridInput
  repeat' first
    | (intro x; refine Kept.bind (s0 := s0) (m := mm) (x := x) ?_ ?_; subst x; rotate_left; clear_value x; intro _)
    | (intro y; clear_value y)
    | intro _
    | with_reducible assumption
    | with_reducible lift_lets -underBinder
    | with_reducible apply State.setChain_kept k0
    | with_reducible apply State.resample_kept hm
    | with_reducible apply Kept.ite
    | with_reducible split
    | split

theorem State.halfBand_kept {mm : Nat} {s0 s : State} {c : Nat} {x : Int} (hm : Sub 0x7ffffffff00000000000000e084 mm) (h : Kept mm s0 s) : Kept mm s0 (State.halfBand c x s) := by
  have k0 : Sub 0x80 mm := Sub.trans (by decide) hm
  have k1 : Sub 0x7fffffffe000000000000000000 mm := Sub.trans (by decide) hm
  unfold State.halfBand
  repeat' first
    | (intro x; refine Kept.bind (s0 := s0) (m := mm) (x := x) ?_ ?_; subst x; rotate_left; clear_value x; intro _)
    | (intro y; clear_value y)
    | intro _
    | with_reducible assumption
    | with_reducible lift_lets -underBinder
    | with_reducible apply State.setChain_kept k0
    | with_reducible apply State.markSat_kept k1
    | with_reducible apply State.gridInput_kept hm
    | with_reducible apply Kept.ite
    | with_reducible split
    | split

theorem State.gridTap_kept {mm : Nat} {s0 s : State} {c : Nat} {x : Int} (hm : Sub 0x7ffffffff00000000000000e084 mm) (h : Kept mm s0 s) : Kept mm s0 (State.gridTap c x s) := by
  unfold State.gridTap
  repeat' first
    | (intro x; refine Kept.bind (s0 := s0) (m := mm) (x := x) ?_ ?_; subst x; rotate_left; clear_value x; intro _)
    | (intro y; clear_value y)
    | intro _
    | with_reducible assumption
    | with_reducible lift_lets -underBinder
    | with_reducible apply State.halfBand_kept hm
    | with_reducible apply State.gridInput_kept hm
    | with_reducible apply Kept.ite
    | with_reducible split
    | split

theorem State.freezeStep_kept {mm : Nat} {s0 s : State} {b c : Nat} {x : Int} (hm : Sub 0x80 mm) (h : Kept mm s0 s) : Kept mm s0 (State.freezeStep b c x s) := by
  unfold State.freezeStep
  repeat' first
    | (intro x; refine Kept.bind (s0 := s0) (m := mm) (x := x) ?_ ?_; subst x; rotate_left; clear_value x; intro _)
    | (intro y; clear_value y)
    | intro _
    | with_reducible assumption
    | with_reducible lift_lets -underBinder
    | with_reducible apply Kept.ite
    | with_reducible split
    | split
    | with_reducible apply Kept.upd_meas hm

theorem State.latchTap_kept {mm : Nat} {s0 s : State} {c : Nat} {x : Int} (hm : Sub 0x4 mm) (h : Kept mm s0 s) : Kept mm s0 (State.latchTap c x s) := by
  have k0 : Sub 0x0 mm := Sub.trans (by decide) hm
  unfold State.latchTap
  repeat' first
    | (intro x; refine Kept.bind (s0 := s0) (m := mm) (x := x) ?_ ?_; subst x; rotate_left; clear_value x; intro _)
    | (intro y; clear_value y)
    | intro _
    | with_reducible assumption
    | with_reducible lift_lets -underBinder
    | with_reducible apply State.each_kept k0
    | with_reducible apply State.modBatch_kept hm
    | with_reducible apply Kept.ite
    | with_reducible split
    | split

theorem State.takeTap_kept {mm : Nat} {s0 s : State} {c : Nat} {x : Int} {tm : Time} (hm : Sub 0x7ffffffff00000000000000e084 mm) (h : Kept mm s0 s) : Kept mm s0 (State.takeTap c x tm s) := by
  have k0 : Sub 0x7fffd000000000000000000e000 mm := Sub.trans (by decide) hm
  have k1 : Sub 0x7fffffffe000000000000000080 mm := Sub.trans (by decide) hm
  have k2 : Sub 0x7fffffffe00000000000000e080 mm := Sub.trans (by decide) hm
  have k3 : Sub 0x0 mm := Sub.trans (by decide) hm
  have k4 : Sub 0x80 mm := Sub.trans (by decide) hm
  unfold State.takeTap
  repeat' first
    | (intro x; refine Kept.bind (s0 := s0) (m := mm) (x := x) ?_ ?_; subst x; rotate_left; clear_value x; intro _)
    | (intro y; clear_value y)
    | intro _
    | with_reducible assumption
    | with_reducible lift_lets -underBinder
    | with_reducible apply State.source_kept k0
    | with_reducible apply State.tapDetectors_kept k1
    | with_reducible apply State.detectorOut_kept k0
    | with_reducible apply State.track_kept k2
    | with_reducible apply State.gridTap_kept hm
    | with_reducible apply State.each_kept k3
    | with_reducible apply State.freezeStep_kept k4
    | with_reducible apply Kept.ite
    | with_reducible split
    | split

theorem State.fastTap_kept {mm : Nat} {s0 s : State} {c : Nat} (hm : Sub 0x7ffffffff00000000000000e084 mm) (h : Kept mm s0 s) : Kept mm s0 (State.fastTap c s).1 := by
  have k0 : Sub 0x80 mm := Sub.trans (by decide) hm
  have k1 : Sub 0x2000 mm := Sub.trans (by decide) hm
  have k2 : Sub 0x4 mm := Sub.trans (by decide) hm
  have kz : Sub (2 ^ 107 - 2 ^ (20 + zone 0x50001600)) mm := Sub.trans (by decide) hm
  unfold State.fastTap
  repeat' first
    | (intro x; refine Kept.bind (s0 := s0) (m := mm) (x := x) ?_ ?_; subst x; rotate_left; clear_value x; intro _)
    | (intro y; clear_value y)
    | intro _
    | with_reducible assumption
    | with_reducible lift_lets -underBinder
    | with_reducible apply State.setChain_kept k0
    | with_reducible apply State.acqValue_kept k1
    | with_reducible apply State.latchTap_kept k2
    | with_reducible apply State.takeTap_kept hm
    | with_reducible refine State.wr_kept ?_ ?_
    | exact Sub.bit (Sub.trans (by decide) hm)
    | (refine Sub.from (b := 0x50001600) kz ?_; (try simp only [key, bk, ck]); omega)
    | with_reducible apply Kept.ite
    | with_reducible split
    | split

theorem State.trackTimeout_kept {mm : Nat} {s0 s : State} {c : Nat} (hm : Sub 0x7fffffffe00000000000000e080 mm) (h : Kept mm s0 s) : Kept mm s0 (State.trackTimeout c s) := by
  unfold State.trackTimeout
  repeat' first
    | (intro x; refine Kept.bind (s0 := s0) (m := mm) (x := x) ?_ ?_; subst x; rotate_left; clear_value x; intro _)
    | (intro y; clear_value y)
    | intro _
    | with_reducible assumption
    | with_reducible lift_lets -underBinder
    | with_reducible apply State.loseTrack_kept hm
    | with_reducible apply Kept.ite
    | with_reducible split
    | split

theorem State.chainEnable_kept {mm : Nat} {s0 s : State} {c : Nat} {v : Int} (hm : Sub 0x7fffffffe00000000000000e080 mm) (h : Kept mm s0 s) : Kept mm s0 (State.chainEnable c v s) := by
  have k0 : Sub 0x80 mm := Sub.trans (by decide) hm
  have k1 : Sub 0x7fffffffe000000000000000080 mm := Sub.trans (by decide) hm
  have k2 : Sub 0x7fffffffe000000000000000000 mm := Sub.trans (by decide) hm
  have k3 : Sub 0x0 mm := Sub.trans (by decide) hm
  have kz : Sub (2 ^ 107 - 2 ^ (20 + zone 0x50000100)) mm := Sub.trans (by decide) hm
  unfold State.chainEnable
  repeat' first
    | (intro x; refine Kept.bind (s0 := s0) (m := mm) (x := x) ?_ ?_; subst x; rotate_left; clear_value x; intro _)
    | (intro y; clear_value y)
    | intro _
    | with_reducible assumption
    | with_reducible lift_lets -underBinder
    | with_reducible apply State.setChain_kept k0
    | with_reducible apply State.restartDetectors_kept k1
    | with_reducible apply State.syncChain_kept k2
    | with_reducible apply State.each_kept k3
    | with_reducible apply State.setSfd_kept k0
    | with_reducible apply State.loseTrack_kept hm
    | with_reducible apply State.syncFollow_kept k1
    | with_reducible apply State.syncLoss_kept hm
    | with_reducible refine State.wr_kept ?_ ?_
    | exact Sub.bit (Sub.trans (by decide) hm)
    | (refine Sub.from (b := 0x50000100) kz ?_; (try simp only [key, bk, ck]); omega)
    | with_reducible apply Kept.ite
    | with_reducible split
    | split
    | with_reducible apply Kept.upd_meas k0

theorem enableEff_kept {mm : Nat} {s0 : State} {c : Nat} {v : Int} (hm : Sub 0x7fffffffe00000000000000e080 mm) : EffKept mm s0 (enableEff c v) := by
  unfold enableEff
  repeat' first
    | (intro x; refine Kept.bind (s0 := s0) (m := mm) (x := x) ?_ ?_; subst x; rotate_left; clear_value x; intro _)
    | (intro y; clear_value y)
    | intro _
    | with_reducible assumption
    | with_reducible lift_lets -underBinder
    | with_reducible apply State.chainEnable_kept hm
    | with_reducible apply Kept.ite
    | with_reducible apply EffKept.ite
    | with_reducible split
    | split
    | (refine ⟨fun s h => ?_⟩; dsimp -zeta only)
    | dsimp -zeta only

theorem State.bankWrite_kept {mm : Nat} {s0 s : State} {c : Nat} {img : List Byte} (hm : Sub 0x7fffffffe000000000000000082 mm) (h : Kept mm s0 s) : Kept mm s0 (State.bankWrite c img s) := by
  have k0 : Sub 0x80 mm := Sub.trans (by decide) hm
  have k1 : Sub 0x2 mm := Sub.trans (by decide) hm
  have k2 : Sub 0x0 mm := Sub.trans (by decide) hm
  have kz : Sub (2 ^ 107 - 2 ^ (20 + zone 0x50001800)) mm := Sub.trans (by decide) hm
  unfold State.bankWrite
  repeat' first
    | (intro x; refine Kept.bind (s0 := s0) (m := mm) (x := x) ?_ ?_; subst x; rotate_left; clear_value x; intro _)
    | (intro y; clear_value y)
    | intro _
    | with_reducible assumption
    | with_reducible lift_lets -underBinder
    | with_reducible apply State.setChain_kept k0
    | with_reducible apply State.wrBlob_kept k1
    | with_reducible apply State.answer_kept k2
    | with_reducible refine State.setBit_kept ?_ ?_
    | exact Sub.bit (Sub.trans (by decide) hm)
    | (refine Sub.from (b := 0x50001800) kz ?_; (try simp only [key, bk, ck]); omega)
    | with_reducible apply Kept.ite
    | with_reducible split
    | split

theorem bankWriteEff_kept {mm : Nat} {s0 : State} {c : Nat} {img : List Byte} (hm : Sub 0x7fffffffe000000000000000082 mm) : EffKept mm s0 (bankWriteEff c img) := by
  unfold bankWriteEff
  repeat' first
    | (intro x; refine Kept.bind (s0 := s0) (m := mm) (x := x) ?_ ?_; subst x; rotate_left; clear_value x; intro _)
    | (intro y; clear_value y)
    | intro _
    | with_reducible assumption
    | with_reducible lift_lets -underBinder
    | with_reducible apply State.bankWrite_kept hm
    | with_reducible apply Kept.ite
    | with_reducible apply EffKept.ite
    | with_reducible split
    | split
    | (refine ⟨fun s h => ?_⟩; dsimp -zeta only)
    | dsimp -zeta only

theorem chainSwapEff_kept {mm : Nat} {s0 : State} {c v : Nat} (hm : Sub 0x7fffffffe000000000000000080 mm) : EffKept mm s0 (chainSwapEff c v) := by
  have k0 : Sub 0x80 mm := Sub.trans (by decide) hm
  have kz : Sub (2 ^ 107 - 2 ^ (20 + zone 0x50001800)) mm := Sub.trans (by decide) hm
  unfold chainSwapEff
  repeat' first
    | (intro x; refine Kept.bind (s0 := s0) (m := mm) (x := x) ?_ ?_; subst x; rotate_left; clear_value x; intro _)
    | (intro y; clear_value y)
    | intro _
    | with_reducible assumption
    | with_reducible lift_lets -underBinder
    | with_reducible apply State.modChain_kept k0
    | with_reducible refine State.setBit_kept ?_ ?_
    | exact Sub.bit (Sub.trans (by decide) hm)
    | (refine Sub.from (b := 0x50001800) kz ?_; (try simp only [key, bk, ck]); omega)
    | with_reducible apply Kept.ite
    | with_reducible apply EffKept.ite
    | with_reducible split
    | split
    | (refine ⟨fun s h => ?_⟩; dsimp -zeta only)
    | dsimp -zeta only

theorem State.windowWrite_kept {mm : Nat} {s0 s : State} {c w : Nat} (hm : Sub 0x7fffffffe000000000000000080 mm) (h : Kept mm s0 s) : Kept mm s0 (State.windowWrite c w s) := by
  have k0 : Sub 0x80 mm := Sub.trans (by decide) hm
  have kz : Sub (2 ^ 107 - 2 ^ (20 + zone 0x50001a00)) mm := Sub.trans (by decide) hm
  unfold State.windowWrite
  repeat' first
    | (intro x; refine Kept.bind (s0 := s0) (m := mm) (x := x) ?_ ?_; subst x; rotate_left; clear_value x; intro _)
    | (intro y; clear_value y)
    | intro _
    | with_reducible assumption
    | with_reducible lift_lets -underBinder
    | with_reducible apply State.modChain_kept k0
    | with_reducible refine State.setBit_kept ?_ ?_
    | with_reducible refine State.wr_kept ?_ ?_
    | exact Sub.bit (Sub.trans (by decide) hm)
    | (refine Sub.from (b := 0x50001a00) kz ?_; (try simp only [key, bk, ck]); omega)
    | with_reducible apply Kept.ite
    | with_reducible split
    | split

theorem windowEff_kept {mm : Nat} {s0 : State} {c w : Nat} (hm : Sub 0x7fffffffe000000000000000080 mm) : EffKept mm s0 (windowEff c w) := by
  unfold windowEff
  repeat' first
    | (intro x; refine Kept.bind (s0 := s0) (m := mm) (x := x) ?_ ?_; subst x; rotate_left; clear_value x; intro _)
    | (intro y; clear_value y)
    | intro _
    | with_reducible assumption
    | with_reducible lift_lets -underBinder
    | with_reducible apply State.windowWrite_kept hm
    | with_reducible apply Kept.ite
    | with_reducible apply EffKept.ite
    | with_reducible split
    | split
    | (refine ⟨fun s h => ?_⟩; dsimp -zeta only)
    | dsimp -zeta only

end Sys2Proof.Machine
end

