-- ==== Sys2Proof/Laws/KeptPairs.lean ====
section
/-! SUPPORT. What the operations of Machine/Pairs.lean may change (Safety.lean, Kept): one lemma for each. -/

set_option linter.all false

namespace Sys2Proof.Machine

theorem State.setPair_kept {mm : Nat} {s0 s : State} {p : Nat} {r : PairRec} (hm : Sub 0x80 mm) (h : Kept mm s0 s) : Kept mm s0 (State.setPair p r s) := by
  unfold State.setPair
  repeat' first
    | (intro x; refine Kept.bind (s0 := s0) (m := mm) (x := x) ?_ ?_; subst x; rotate_left; clear_value x; intro _)
    | (intro y; clear_value y)
    | intro _
    | with_reducible assumption
    | with_reducible lift_lets -underBinder
    | with_reducible apply Kept.ite
    | with_reducible split
    | split
    | with_reducible apply Kept.upd_meas hm

theorem State.modPair_kept {mm : Nat} {s0 s : State} {p : Nat} {f : PairRec → PairRec} (hm : Sub 0x80 mm) (h : Kept mm s0 s) : Kept mm s0 (State.modPair p f s) := by
  unfold State.modPair
  repeat' first
    | (intro x; refine Kept.bind (s0 := s0) (m := mm) (x := x) ?_ ?_; subst x; rotate_left; clear_value x; intro _)
    | (intro y; clear_value y)
    | intro _
    | with_reducible assumption
    | with_reducible lift_lets -underBinder
    | with_reducible apply State.setPair_kept hm
    | with_reducible apply Kept.ite
    | with_reducible split
    | split

theorem State.syncCore_kept {mm : Nat} {s0 s : State} {k : Nat} (hm : Sub 0x7fffffffc000000000000000000 mm) (h : Kept mm s0 s) : Kept mm s0 (State.syncCore k s) := by
  have kz : Sub (2 ^ 107 - 2 ^ (20 + zone 0x50800100)) mm := Sub.trans (by decide) hm
  unfold State.syncCore
  repeat' first
    | (intro x; refine Kept.bind (s0 := s0) (m := mm) (x := x) ?_ ?_; subst x; rotate_left; clear_value x; intro _)
    | (intro y; clear_value y)
    | intro _
    | with_reducible assumption
    | with_reducible lift_lets -underBinder
    | with_reducible refine State.wr_kept ?_ ?_
    | exact Sub.bit (Sub.trans (by decide) hm)
    | (refine Sub.from (b := 0x50800100) kz ?_; (try simp only [key, bk]); omega)
    | with_reducible apply Kept.ite
    | with_reducible split
    | split

theorem State.syncPair_kept {mm : Nat} {s0 s : State} {p : Nat} (hm : Sub 0x7ffffffe0000000000000000000 mm) (h : Kept mm s0 s) : Kept mm s0 (State.syncPair p s) := by
  have kz : Sub (2 ^ 107 - 2 ^ (20 + zone 0x50980800)) mm := Sub.trans (by decide) hm
  unfold State.syncPair
  repeat' first
    | (intro x; refine Kept.bind (s0 := s0) (m := mm) (x := x) ?_ ?_; subst x; rotate_left; clear_value x; intro _)
    | (intro y; clear_value y)
    | intro _
    | with_reducible assumption
    | with_reducible lift_lets -underBinder
    | with_reducible refine State.setBit_kept ?_ ?_
    | exact Sub.bit (Sub.trans (by decide) hm)
    | (refine Sub.from (b := 0x50980800) kz ?_; (try simp only [key, bk, pk]); omega)
    | with_reducible apply Kept.ite
    | with_reducible split
    | split

theorem State.suspect_kept {mm : Nat} {s0 s : State} {l : List Nat} {v : Bool} (hm : Sub 0x7fffffffe000000000000000000 mm) (h : Kept mm s0 s) : Kept mm s0 (State.suspect l v s) := by
  have k0 : Sub 0x0 mm := Sub.trans (by decide) hm
  have kz : Sub (2 ^ 107 - 2 ^ (20 + zone 0x50001800)) mm := Sub.trans (by decide) hm
  unfold State.suspect
  repeat' first
    | (intro x; refine Kept.bind (s0 := s0) (m := mm) (x := x) ?_ ?_; subst x; rotate_left; clear_value x; intro _)
    | (intro y; clear_value y)
    | intro _
    | with_reducible assumption
    | with_reducible lift_lets -underBinder
    | with_reducible apply State.each_kept k0
    | with_reducible refine State.setBit_kept ?_ ?_
    | exact Sub.bit (Sub.trans (by decide) hm)
    | (refine Sub.from (b := 0x50001800) kz ?_; (try simp only [key, bk, ck]); omega)
    | with_reducible apply Kept.ite
    | with_reducible split
    | split

theorem State.storeResult_kept {mm : Nat} {s0 s : State} {k sl : Nat} {x : Int} (hm : Sub 0x7fffffffc000000000000000000 mm) (h : Kept mm s0 s) : Kept mm s0 (State.storeResult k sl x s) := by
  have kz : Sub (2 ^ 107 - 2 ^ (20 + zone 0x50800500)) mm := Sub.trans (by decide) hm
  unfold State.storeResult
  repeat' first
    | (intro x; refine Kept.bind (s0 := s0) (m := mm) (x := x) ?_ ?_; subst x; rotate_left; clear_value x; intro _)
    | (intro y; have w_ : Nat := y; clear w_; subst y)
    | (intro y; clear_value y)
    | intro _
    | with_reducible assumption
    | with_reducible lift_lets -underBinder
    | with_reducible refine State.inc_kept ?_ ?_
    | with_reducible refine State.setBit_kept ?_ ?_
    | with_reducible refine State.wr_kept ?_ ?_
    | exact Sub.bit (Sub.trans (by decide) hm)
    | (refine Sub.from (b := 0x50800500) kz ?_; (try simp only [key, bk]); omega)
    | with_reducible apply Kept.ite
    | with_reducible split
    | split

theorem State.readResult_kept {mm : Nat} {s0 s : State} {k sl : Nat} (hm : Sub 0x7fffffffc000000000000000000 mm) (h : Kept mm s0 s) : Kept mm s0 (State.readResult k sl s) := by
  have kz : Sub (2 ^ 107 - 2 ^ (20 + zone 0x50801800)) mm := Sub.trans (by decide) hm
  unfold State.readResult
  repeat' first
    | (intro x; refine Kept.bind (s0 := s0) (m := mm) (x := x) ?_ ?_; subst x; rotate_left; clear_value x; intro _)
    | (intro y; clear_value y)
    | intro _
    | with_reducible assumption
    | with_reducible lift_lets -underBinder
    | with_reducible refine State.setBit_kept ?_ ?_
    | exact Sub.bit (Sub.trans (by decide) hm)
    | (refine Sub.from (b := 0x50801800) kz ?_; (try simp only [key, bk]); omega)
    | with_reducible apply Kept.ite
    | with_reducible split
    | split

theorem State.noteRead_kept {mm : Nat} {s0 s : State} {index sub : Nat} (hm : Sub 0x7fffffffc000000000000000000 mm) (h : Kept mm s0 s) : Kept mm s0 (State.noteRead index sub s) := by
  unfold State.noteRead
  repeat' first
    | (intro x; refine Kept.bind (s0 := s0) (m := mm) (x := x) ?_ ?_; subst x; rotate_left; clear_value x; intro _)
    | (intro y; clear_value y)
    | intro _
    | with_reducible assumption
    | with_reducible lift_lets -underBinder
    | with_reducible apply State.readResult_kept hm
    | with_reducible apply Kept.ite
    | with_reducible split
    | split

theorem State.coreResult_kept {mm : Nat} {s0 s : State} {k sl : Nat} {x : Int} (hm : Sub 0x7fffffffc000000000000000000 mm) (h : Kept mm s0 s) : Kept mm s0 (State.coreResult k sl x s) := by
  unfold State.coreResult
  repeat' first
    | (intro x; refine Kept.bind (s0 := s0) (m := mm) (x := x) ?_ ?_; subst x; rotate_left; clear_value x; intro _)
    | (intro y; clear_value y)
    | intro _
    | with_reducible assumption
    | with_reducible lift_lets -underBinder
    | with_reducible apply State.storeResult_kept hm
    | with_reducible apply Kept.ite
    | with_reducible split
    | split

theorem State.regularSlot_kept {mm : Nat} {s0 s : State} {k sl : Nat} {x : Int} (hm : Sub 0x7fffffffe000000000000000080 mm) (h : Kept mm s0 s) : Kept mm s0 (State.regularSlot k sl x s) := by
  have k0 : Sub 0x7fffffffc000000000000000000 mm := Sub.trans (by decide) hm
  unfold State.regularSlot
  repeat' first
    | (intro x; refine Kept.bind (s0 := s0) (m := mm) (x := x) ?_ ?_; subst x; rotate_left; clear_value x; intro _)
    | (intro y; clear_value y)
    | intro _
    | with_reducible assumption
    | with_reducible lift_lets -underBinder
    | with_reducible apply State.coreResult_kept k0
    | with_reducible apply State.sarResult_kept hm
    | with_reducible apply Kept.ite
    | with_reducible split
    | split

theorem State.takeOver_kept {mm : Nat} {s0 s : State} {k : Nat} (hm : Sub 0x7fffffffe00000000000000e080 mm) (h : Kept mm s0 s) : Kept mm s0 (State.takeOver k s) := by
  have k0 : Sub 0x0 mm := Sub.trans (by decide) hm
  have k1 : Sub 0x80 mm := Sub.trans (by decide) hm
  have k2 : Sub 0x7fffffffc000000000000000000 mm := Sub.trans (by decide) hm
  have k3 : Sub 0x7fffd000000000000000000e000 mm := Sub.trans (by decide) hm
  have k4 : Sub 0x7fffffffe000000000000000000 mm := Sub.trans (by decide) hm
  have k5 : Sub 0x7ffffffe0000000000000000000 mm := Sub.trans (by decide) hm
  unfold State.takeOver
  repeat' first
    | (intro x; refine Kept.bind (s0 := s0) (m := mm) (x := x) ?_ ?_; subst x; rotate_left; clear_value x; intro _)
    | (intro y; clear_value y)
    | intro _
    | with_reducible assumption
    | with_reducible lift_lets -underBinder
    | with_reducible apply State.each_kept k0
    | with_reducible apply State.setCore_kept k1
    | with_reducible apply State.syncCore_kept k2
    | with_reducible apply State.logEvent_kept k3
    | with_reducible apply State.suspect_kept k4
    | with_reducible apply State.syncLoss_kept hm
    | with_reducible apply State.syncPair_kept k5
    | with_reducible apply Kept.ite
    | with_reducible split
    | split

theorem State.retireCore_kept {mm : Nat} {s0 s : State} {k cause : Nat} (hm : Sub 0x7fffffffffffffffe000001e080 mm) (h : Kept mm s0 s) : Kept mm s0 (State.retireCore k cause s) := by
  have k0 : Sub 0x80 mm := Sub.trans (by decide) hm
  have k1 : Sub 0x7fffffffc000000000000000000 mm := Sub.trans (by decide) hm
  have k2 : Sub 0x20000010000 mm := Sub.trans (by decide) hm
  have k3 : Sub 0x7fffffffe000000000000000000 mm := Sub.trans (by decide) hm
  have k4 : Sub 0x7fffffffffffffffe000000e000 mm := Sub.trans (by decide) hm
  have k5 : Sub 0x7fffffffe00000000000000e080 mm := Sub.trans (by decide) hm
  have k6 : Sub 0x7fffd000000000000000000e000 mm := Sub.trans (by decide) hm
  have k7 : Sub 0x0 mm := Sub.trans (by decide) hm
  have k8 : Sub 0x7ffffffe0000000000000000000 mm := Sub.trans (by decide) hm
  unfold State.retireCore
  repeat' first
    | (intro x; refine Kept.bind (s0 := s0) (m := mm) (x := x) ?_ ?_; subst x; rotate_left; clear_value x; intro _)
    | (intro y; clear_value y)
    | intro _
    | with_reducible assumption
    | with_reducible lift_lets -underBinder
    | with_reducible apply State.setCore_kept k0
    | with_reducible apply State.syncCore_kept k1
    | with_reducible apply State.retireRecord_kept k2
    | with_reducible apply State.suspect_kept k3
    | with_reducible apply State.reserveLeft_kept k4
    | with_reducible apply State.takeOver_kept k5
    | with_reducible apply State.logEvent_kept k6
    | with_reducible apply State.each_kept k7
    | with_reducible apply State.syncLoss_kept k5
    | with_reducible apply State.syncPair_kept k8
    | with_reducible apply Kept.ite
    | with_reducible split
    | split

theorem State.startCoreShadow_kept {mm : Nat} {s0 s : State} {k : Nat} (hm : Sub 0x7fffffffc0000000000000000c0 mm) (h : Kept mm s0 s) : Kept mm s0 (State.startCoreShadow k s) := by
  have k0 : Sub 0x1000000000000000000040 mm := Sub.trans (by decide) hm
  have k1 : Sub 0x80 mm := Sub.trans (by decide) hm
  have k2 : Sub 0x7fffffffc000000000000000000 mm := Sub.trans (by decide) hm
  unfold State.startCoreShadow
  repeat' first
    | (intro x; refine Kept.bind (s0 := s0) (m := mm) (x := x) ?_ ?_; subst x; rotate_left; clear_value x; intro _)
    | (intro y; clear_value y)
    | intro _
    | with_reducible assumption
    | with_reducible lift_lets -underBinder
    | with_reducible apply State.underTest_kept k0
    | with_reducible apply State.setCore_kept k1
    | with_reducible apply State.syncCore_kept k2
    | with_reducible apply Kept.ite
    | with_reducible split
    | split

theorem State.startCoreTest_kept {mm : Nat} {s0 s : State} {k : Nat} (hm : Sub 0x7fffffffc0000000000000000c0 mm) (h : Kept mm s0 s) : Kept mm s0 (State.startCoreTest k s) := by
  have k0 : Sub 0x80 mm := Sub.trans (by decide) hm
  have k1 : Sub 0x1000000000000000000040 mm := Sub.trans (by decide) hm
  have k2 : Sub 0x7fffffffc000000000000000000 mm := Sub.trans (by decide) hm
  unfold State.startCoreTest
  repeat' first
    | (intro x; refine Kept.bind (s0 := s0) (m := mm) (x := x) ?_ ?_; subst x; rotate_left; clear_value x; intro _)
    | (intro y; clear_value y)
    | intro _
    | with_reducible assumption
    | with_reducible lift_lets -underBinder
    | with_reducible apply State.setCore_kept k0
    | with_reducible apply State.underTest_kept k1
    | with_reducible apply State.syncCore_kept k2
    | with_reducible apply Kept.ite
    | with_reducible split
    | split

theorem State.endCoreTest_kept {mm : Nat} {s0 s : State} {k : Nat} (hm : Sub 0x7fffffffe00000000000000e0c0 mm) (h : Kept mm s0 s) : Kept mm s0 (State.endCoreTest k s) := by
  have k0 : Sub 0x1000000000000000000040 mm := Sub.trans (by decide) hm
  have k1 : Sub 0x80 mm := Sub.trans (by decide) hm
  have k2 : Sub 0x7fffffffc000000000000000000 mm := Sub.trans (by decide) hm
  have k3 : Sub 0x0 mm := Sub.trans (by decide) hm
  have k4 : Sub 0x7fffffffe00000000000000e080 mm := Sub.trans (by decide) hm
  have k5 : Sub 0x7ffffffe0000000000000000000 mm := Sub.trans (by decide) hm
  unfold State.endCoreTest
  repeat' first
    | (intro x; refine Kept.bind (s0 := s0) (m := mm) (x := x) ?_ ?_; subst x; rotate_left; clear_value x; intro _)
    | (intro y; clear_value y)
    | intro _
    | with_reducible assumption
    | with_reducible lift_lets -underBinder
    | with_reducible apply State.underTest_kept k0
    | with_reducible apply State.setCore_kept k1
    | with_reducible apply State.syncCore_kept k2
    | with_reducible apply State.each_kept k3
    | with_reducible apply State.syncLoss_kept k4
    | with_reducible apply State.syncPair_kept k5
    | with_reducible apply Kept.ite
    | with_reducible split
    | split

theorem State.sequenceBoundary_kept {mm : Nat} {s0 s : State} {p : Nat} (hm : Sub 0x7fffffffe00000000000000e0c0 mm) (h : Kept mm s0 s) : Kept mm s0 (State.sequenceBoundary p s) := by
  have k0 : Sub 0x0 mm := Sub.trans (by decide) hm
  have k1 : Sub 0x7fffffffe00000000000000e080 mm := Sub.trans (by decide) hm
  have k2 : Sub 0x7fffffffc0000000000000000c0 mm := Sub.trans (by decide) hm
  unfold State.sequenceBoundary
  repeat' first
    | (intro x; refine Kept.bind (s0 := s0) (m := mm) (x := x) ?_ ?_; subst x; rotate_left; clear_value x; intro _)
    | (intro y; clear_value y)
    | intro _
    | with_reducible assumption
    | with_reducible lift_lets -underBinder
    | with_reducible apply State.each_kept k0
    | with_reducible apply State.takeOver_kept k1
    | with_reducible apply State.endCoreTest_kept hm
    | with_reducible apply State.startCoreTest_kept k2
    | with_reducible apply State.startCoreShadow_kept k2
    | with_reducible apply Kept.ite
    | with_reducible split
    | split

theorem State.spareTakeover_kept {mm : Nat} {s0 s : State} {k : Nat} (hm : Sub 0x7fffffffe00000000000000e080 mm) (h : Kept mm s0 s) : Kept mm s0 (State.spareTakeover k s) := by
  unfold State.spareTakeover
  repeat' first
    | (intro x; refine Kept.bind (s0 := s0) (m := mm) (x := x) ?_ ?_; subst x; rotate_left; clear_value x; intro _)
    | (intro y; clear_value y)
    | intro _
    | with_reducible assumption
    | with_reducible lift_lets -underBinder
    | with_reducible apply State.takeOver_kept hm
    | with_reducible apply Kept.ite
    | with_reducible split
    | split

theorem State.coreTest_kept {mm : Nat} {s0 s : State} {k : Nat} {pass : Bool} (hm : Sub 0x7fffffffffffffffe000009e0c0 mm) (h : Kept mm s0 s) : Kept mm s0 (State.coreTest k pass s) := by
  have k0 : Sub 0x7fffffffc0000000000000000c0 mm := Sub.trans (by decide) hm
  have k1 : Sub 0x1000000000000000000040 mm := Sub.trans (by decide) hm
  have k2 : Sub 0x80000 mm := Sub.trans (by decide) hm
  have k3 : Sub 0x80 mm := Sub.trans (by decide) hm
  have k4 : Sub 0x7fffffffe00000000000000e0c0 mm := Sub.trans (by decide) hm
  have k5 : Sub 0x7fffffffc000000000000000000 mm := Sub.trans (by decide) hm
  have k6 : Sub 0x20000010000 mm := Sub.trans (by decide) hm
  have k7 : Sub 0x7fffd000000000000000000e000 mm := Sub.trans (by decide) hm
  have k8 : Sub 0x7fffffffffffffffe000000e000 mm := Sub.trans (by decide) hm
  have k9 : Sub 0x7ffffffe0000000000000000000 mm := Sub.trans (by decide) hm
  have kz : Sub (2 ^ 107 - 2 ^ (20 + zone 0x50800300)) mm := Sub.trans (by decide) hm
  unfold State.coreTest
  repeat' first
    | (intro x; refine Kept.bind (s0 := s0) (m := mm) (x := x) ?_ ?_; subst x; rotate_left; clear_value x; intro _)
    | (intro y; have w_ : Nat × State := y; clear w_)
    | (intro y; clear_value y)
    | intro _
    | with_reducible assumption
    | with_reducible lift_lets -underBinder
    | with_reducible apply State.startCoreTest_kept k0
    | with_reducible apply State.underTest_kept k1
    | with_reducible apply State.draw_kept k2
    | with_reducible apply State.setCore_kept k3
    | with_reducible apply State.endCoreTest_kept k4
    | with_reducible apply State.syncCore_kept k5
    | with_reducible apply State.retireRecord_kept k6
    | with_reducible apply State.logEvent_kept k7
    | with_reducible apply State.reserveLeft_kept k8
    | with_reducible apply State.syncPair_kept k9
    | with_reducible refine State.wr_kept ?_ ?_
    | exact Sub.bit (Sub.trans (by decide) hm)
    | (refine Sub.from (b := 0x50800300) kz ?_; (try simp only [key, bk]); omega)
    | with_reducible apply Kept.ite
    | with_reducible split
    | split
    | with_reducible apply Kept.upd_meas k3
    | with_reducible refine Kept.snd (by assumption) ?_
    | with_reducible refine Kept.fst (by assumption) ?_

theorem State.arbitrate_kept {mm : Nat} {s0 s : State} {p : Nat} {rd : List Int} (hm : Sub 0x7fffffffffffffffe000001e080 mm) (h : Kept mm s0 s) : Kept mm s0 (State.arbitrate p rd s) := by
  have k0 : Sub 0x80 mm := Sub.trans (by decide) hm
  have k1 : Sub 0x7fffd000000000000000000e000 mm := Sub.trans (by decide) hm
  have k2 : Sub 0x7fffffffe000000000000000000 mm := Sub.trans (by decide) hm
  have k3 : Sub 0x7ffffffe0000000000000000000 mm := Sub.trans (by decide) hm
  have kz : Sub (2 ^ 107 - 2 ^ (20 + zone 0x50980800)) mm := Sub.trans (by decide) hm
  unfold State.arbitrate
  repeat' first
    | (intro x; refine Kept.bind (s0 := s0) (m := mm) (x := x) ?_ ?_; subst x; rotate_left; clear_value x; intro _)
    | (intro y; clear_value y)
    | intro _
    | with_reducible assumption
    | with_reducible lift_lets -underBinder
    | with_reducible apply State.setPair_kept k0
    | with_reducible apply State.logEvent_kept k1
    | with_reducible apply State.suspect_kept k2
    | with_reducible apply State.retireCore_kept hm
    | with_reducible apply State.syncPair_kept k3
    | with_reducible refine State.setBit_kept ?_ ?_
    | exact Sub.bit (Sub.trans (by decide) hm)
    | (refine Sub.from (b := 0x50980800) kz ?_; (try simp only [key, bk, pk]); omega)
    | with_reducible apply Kept.ite
    | with_reducible split
    | split

theorem State.plausibility_kept {mm : Nat} {s0 s : State} {p : Nat} {x0 x1 : Int} (hm : Sub 0x7fffffffffffffffe000001e080 mm) (h : Kept mm s0 s) : Kept mm s0 (State.plausibility p x0 x1 s) := by
  have k0 : Sub 0x80 mm := Sub.trans (by decide) hm
  have k1 : Sub 0x7fffffffe000000000000000000 mm := Sub.trans (by decide) hm
  have k2 : Sub 0x7ffffffe0000000000000000000 mm := Sub.trans (by decide) hm
  have kz : Sub (2 ^ 107 - 2 ^ (20 + zone 0x50980700)) mm := Sub.trans (by decide) hm
  unfold State.plausibility
  repeat' first
    | (intro x; refine Kept.bind (s0 := s0) (m := mm) (x := x) ?_ ?_; subst x; rotate_left; clear_value x; intro _)
    | (intro y; clear_value y)
    | intro _
    | with_reducible assumption
    | with_reducible lift_lets -underBinder
    | with_reducible apply State.setPair_kept k0
    | with_reducible apply State.arbitrate_kept hm
    | with_reducible apply State.suspect_kept k1
    | with_reducible apply State.syncPair_kept k2
    | with_reducible refine State.inc_kept ?_ ?_
    | with_reducible refine State.setBit_kept ?_ ?_
    | with_reducible refine State.wr_kept ?_ ?_
    | exact Sub.bit (Sub.trans (by decide) hm)
    | (refine Sub.from (b := 0x50980700) kz ?_; (try simp only [key, bk, pk]); omega)
    | with_reducible apply Kept.ite
    | with_reducible split
    | split

theorem State.sarSlot_kept {mm : Nat} {s0 s : State} {p : Nat} {x0 x1 : Int} (hm : Sub 0x7fffffffffffffffe000001e0c0 mm) (h : Kept mm s0 s) : Kept mm s0 (State.sarSlot p x0 x1 s) := by
  have k0 : Sub 0x7fffffffe000000000000000080 mm := Sub.trans (by decide) hm
  have k1 : Sub 0x80 mm := Sub.trans (by decide) hm
  have k2 : Sub 0x7fffffffc000000000000000000 mm := Sub.trans (by decide) hm
  have k3 : Sub 0x7fffffffffffffffe000001e080 mm := Sub.trans (by decide) hm
  have k4 : Sub 0x7fffffffe00000000000000e0c0 mm := Sub.trans (by decide) hm
  unfold State.sarSlot
  repeat' first
    | (intro x; refine Kept.bind (s0 := s0) (m := mm) (x := x) ?_ ?_; subst x; rotate_left; clear_value x; intro _)
    | (intro y; clear_value y)
    | intro _
    | with_reducible assumption
    | with_reducible lift_lets -underBinder
    | with_reducible apply State.regularSlot_kept k0
    | with_reducible apply State.setPair_kept k1
    | with_reducible apply State.coreResult_kept k2
    | with_reducible apply State.plausibility_kept k3
    | with_reducible apply State.sequenceBoundary_kept k4
    | with_reducible apply Kept.ite
    | with_reducible split
    | split

theorem State.pairTrigger_kept {mm : Nat} {s0 s : State} {p : Nat} (hm : Sub 0x7fffffffe00000000000000e0c0 mm) (h : Kept mm s0 s) : Kept mm s0 (State.pairTrigger p s) := by
  have k0 : Sub 0x80 mm := Sub.trans (by decide) hm
  have k1 : Sub 0x0 mm := Sub.trans (by decide) hm
  have k2 : Sub 0x7fffffffe00000000000000e080 mm := Sub.trans (by decide) hm
  have kz : Sub (2 ^ 107 - 2 ^ (20 + zone 0x50980a00)) mm := Sub.trans (by decide) hm
  unfold State.pairTrigger
  repeat' first
    | (intro x; refine Kept.bind (s0 := s0) (m := mm) (x := x) ?_ ?_; subst x; rotate_left; clear_value x; intro _)
    | (intro y; clear_value y)
    | intro _
    | with_reducible assumption
    | with_reducible lift_lets -underBinder
    | with_reducible apply State.sequenceBoundary_kept hm
    | with_reducible apply State.modPair_kept k0
    | with_reducible apply State.setPair_kept k0
    | with_reducible apply State.each_kept k1
    | with_reducible apply State.syncLoss_kept k2
    | with_reducible refine State.inc_kept ?_ ?_
    | exact Sub.bit (Sub.trans (by decide) hm)
    | (refine Sub.from (b := 0x50980a00) kz ?_; (try simp only [key, bk, pk]); omega)
    | with_reducible apply Kept.ite
    | with_reducible split
    | split

theorem State.slotResultRead_kept {mm : Nat} {s0 s : State} {k i : Nat} (hm : Sub 0x7fffffffc000000000000000000 mm) (h : Kept mm s0 s) : Kept mm s0 (State.slotResultRead k i s) := by
  have k0 : Sub 0x0 mm := Sub.trans (by decide) hm
  unfold State.slotResultRead
  repeat' first
    | (intro x; refine Kept.bind (s0 := s0) (m := mm) (x := x) ?_ ?_; subst x; rotate_left; clear_value x; intro _)
    | (intro y; clear_value y)
    | intro _
    | with_reducible assumption
    | with_reducible lift_lets -underBinder
    | with_reducible apply State.readResult_kept hm
    | with_reducible apply State.emit_kept k0
    | with_reducible apply Kept.ite
    | with_reducible split
    | split

theorem dacEff_kept {mm : Nat} {s0 : State} {p : Nat} {v : Int} (hm : Sub 0x7ffffffc0000000000000000080 mm) : EffKept mm s0 (dacEff p v) := by
  have k0 : Sub 0x80 mm := Sub.trans (by decide) hm
  have kz : Sub (2 ^ 107 - 2 ^ (20 + zone 0x50a00200)) mm := Sub.trans (by decide) hm
  unfold dacEff
  repeat' first
    | (intro x; refine Kept.bind (s0 := s0) (m := mm) (x := x) ?_ ?_; subst x; rotate_left; clear_value x; intro _)
    | (intro y; clear_value y)
    | intro _
    | with_reducible assumption
    | with_reducible lift_lets -underBinder
    | with_reducible apply State.setPair_kept k0
    | with_reducible refine State.wr_kept ?_ ?_
    | exact Sub.bit (Sub.trans (by decide) hm)
    | (refine Sub.from (b := 0x50a00200) kz ?_; (try simp only [key, bk]); omega)
    | with_reducible apply Kept.ite
    | with_reducible apply EffKept.ite
    | with_reducible split
    | split
    | (refine ⟨fun s h => ?_⟩; dsimp -zeta only)
    | dsimp -zeta only

theorem pathEff_kept {mm : Nat} {s0 : State} {p : Nat} {r0 r1 : Int} (hm : Sub 0x7ffffffc0000000000000000000 mm) : EffKept mm s0 (pathEff p r0 r1) := by
  have k0 : Sub 0x0 mm := Sub.trans (by decide) hm
  have kz : Sub (2 ^ 107 - 2 ^ (20 + zone 0x50a00400)) mm := Sub.trans (by decide) hm
  unfold pathEff
  repeat' first
    | (intro x; refine Kept.bind (s0 := s0) (m := mm) (x := x) ?_ ?_; subst x; rotate_left; clear_value x; intro _)
    | (intro y; clear_value y)
    | intro _
    | with_reducible assumption
    | with_reducible lift_lets -underBinder
    | with_reducible apply State.answer_kept k0
    | with_reducible refine State.wr_kept ?_ ?_
    | exact Sub.bit (Sub.trans (by decide) hm)
    | (refine Sub.from (b := 0x50a00400) kz ?_; (try simp only [key, bk]); omega)
    | with_reducible apply Kept.ite
    | with_reducible apply EffKept.ite
    | with_reducible split
    | split
    | (refine ⟨fun s h => ?_⟩; dsimp -zeta only)
    | dsimp -zeta only

theorem State.endSuspension_kept {mm : Nat} {s0 s : State} {p : Nat} (hm : Sub 0x7ffffffe0000000000000000080 mm) (h : Kept mm s0 s) : Kept mm s0 (State.endSuspension p s) := by
  have k0 : Sub 0x80 mm := Sub.trans (by decide) hm
  have k1 : Sub 0x7ffffffe0000000000000000000 mm := Sub.trans (by decide) hm
  have kz : Sub (2 ^ 107 - 2 ^ (20 + zone 0x50980800)) mm := Sub.trans (by decide) hm
  unfold State.endSuspension
  repeat' first
    | (intro x; refine Kept.bind (s0 := s0) (m := mm) (x := x) ?_ ?_; subst x; rotate_left; clear_value x; intro _)
    | (intro y; clear_value y)
    | intro _
    | with_reducible assumption
    | with_reducible lift_lets -underBinder
    | with_reducible apply State.modPair_kept k0
    | with_reducible apply State.syncPair_kept k1
    | with_reducible refine State.setBit_kept ?_ ?_
    | exact Sub.bit (Sub.trans (by decide) hm)
    | (refine Sub.from (b := 0x50980800) kz ?_; (try simp only [key, bk, pk]); omega)
    | with_reducible apply Kept.ite
    | with_reducible split
    | split

theorem State.resumePlausibility_kept {mm : Nat} {s0 s : State} {p : Nat} (hm : Sub 0x7ffffffe0000000000000000080 mm) (h : Kept mm s0 s) : Kept mm s0 (State.resumePlausibility p s) := by
  have k0 : Sub 0x80 mm := Sub.trans (by decide) hm
  have k1 : Sub 0x7ffffffe0000000000000000000 mm := Sub.trans (by decide) hm
  have kz : Sub (2 ^ 107 - 2 ^ (20 + zone 0x50980800)) mm := Sub.trans (by decide) hm
  unfold State.resumePlausibility
  repeat' first
    | (intro x; refine Kept.bind (s0 := s0) (m := mm) (x := x) ?_ ?_; subst x; rotate_left; clear_value x; intro _)
    | (intro y; clear_value y)
    | intro _
    | with_reducible assumption
    | with_reducible lift_lets -underBinder
    | with_reducible apply State.setPair_kept k0
    | with_reducible apply State.syncPair_kept k1
    | with_reducible refine State.setBit_kept ?_ ?_
    | exact Sub.bit (Sub.trans (by decide) hm)
    | (refine Sub.from (b := 0x50980800) kz ?_; (try simp only [key, bk, pk]); omega)
    | with_reducible apply Kept.ite
    | with_reducible split
    | split

theorem clearFaultEff_kept {mm : Nat} {s0 : State} {p : Nat} (hm : Sub 0x7ffffffe0000000000000000080 mm) : EffKept mm s0 (clearFaultEff p) := by
  unfold clearFaultEff
  repeat' first
    | (intro x; refine Kept.bind (s0 := s0) (m := mm) (x := x) ?_ ?_; subst x; rotate_left; clear_value x; intro _)
    | (intro y; clear_value y)
    | intro _
    | with_reducible assumption
    | with_reducible lift_lets -underBinder
    | with_reducible apply State.resumePlausibility_kept hm
    | with_reducible apply Kept.ite
    | with_reducible apply EffKept.ite
    | with_reducible split
    | split
    | (refine ⟨fun s h => ?_⟩; dsimp -zeta only)
    | dsimp -zeta only

end Sys2Proof.Machine
end

