-- ==== Sys2Proof/Laws/KeptRecipeLoad.lean ====
section
/-! SUPPORT. What the operations of Machine/RecipeLoad.lean may change (Safety.lean, Kept): one lemma for each. -/

set_option linter.all false

namespace Sys2Proof.Machine

theorem State.syncTimeline_kept {mm : Nat} {s0 s : State} {b : Nat} (hm : Sub 0x7ffffffff000000000000000000 mm) (h : Kept mm s0 s) : Kept mm s0 (State.syncTimeline b s) := by
  have kz : Sub (2 ^ 107 - 2 ^ (20 + zone 0x40041000)) mm := Sub.trans (by decide) hm
  unfold State.syncTimeline
  repeat' first
    | (intro x; refine Kept.bind (s0 := s0) (m := mm) (x := x) ?_ ?_; subst x; rotate_left; clear_value x; intro _)
    | (intro y; clear_value y)
    | intro _
    | with_reducible assumption
    | with_reducible lift_lets -underBinder
    | with_reducible refine State.wr_kept ?_ ?_
    | exact Sub.bit (Sub.trans (by decide) hm)
    | (refine Sub.from (b := 0x40041000) kz ?_; (try simp only [key, bk]); omega)
    | with_reducible apply Kept.ite
    | with_reducible split
    | split

theorem State.chainSwap_kept {mm : Nat} {s0 s : State} {c : Nat} (hm : Sub 0x7ffffffff000000000000000086 mm) (h : Kept mm s0 s) : Kept mm s0 (State.chainSwap c s) := by
  have k0 : Sub 0x2 mm := Sub.trans (by decide) hm
  have k1 : Sub 0x80 mm := Sub.trans (by decide) hm
  have k2 : Sub 0x7fffffffe000000000000000000 mm := Sub.trans (by decide) hm
  have k3 : Sub 0x0 mm := Sub.trans (by decide) hm
  have k4 : Sub 0x7ffffffff000000000000000000 mm := Sub.trans (by decide) hm
  have k5 : Sub 0x7fffffc00000000000000000004 mm := Sub.trans (by decide) hm
  have kz : Sub (2 ^ 107 - 2 ^ (20 + zone 0x50000f00)) mm := Sub.trans (by decide) hm
  unfold State.chainSwap
  repeat' first
    | (intro x; refine Kept.bind (s0 := s0) (m := mm) (x := x) ?_ ?_; subst x; rotate_left; clear_value x; intro _)
    | (intro y; have w_ : Nat × State := y; clear w_)
    | (intro y; clear_value y)
    | intro _
    | with_reducible assumption
    | with_reducible lift_lets -underBinder
    | with_reducible apply State.wrBlob_kept k0
    | with_reducible apply State.modChain_kept k1
    | with_reducible apply State.syncChain_kept k2
    | with_reducible apply State.each_kept k3
    | with_reducible apply State.syncTimeline_kept k4
    | with_reducible apply State.runAdmission_kept k5
    | with_reducible refine State.setBit_kept ?_ ?_
    | with_reducible refine State.wr_kept ?_ ?_
    | exact Sub.bit (Sub.trans (by decide) hm)
    | (refine Sub.from (b := 0x50000f00) kz ?_; (try simp only [key, bk, ck]); omega)
    | with_reducible apply Kept.ite
    | with_reducible split
    | split
    | with_reducible refine Kept.snd (by assumption) ?_
    | with_reducible refine Kept.fst (by assumption) ?_

theorem State.chainSwapped_kept {mm : Nat} {s0 s : State} {c : Nat} (hm : Sub 0x7ffffffff000000000000000086 mm) (h : Kept mm s0 s) : Kept mm s0 (State.chainSwapped c s) := by
  unfold State.chainSwapped
  repeat' first
    | (intro x; refine Kept.bind (s0 := s0) (m := mm) (x := x) ?_ ?_; subst x; rotate_left; clear_value x; intro _)
    | (intro y; clear_value y)
    | intro _
    | with_reducible assumption
    | with_reducible lift_lets -underBinder
    | with_reducible apply State.chainSwap_kept hm
    | with_reducible apply Kept.ite
    | with_reducible split
    | split

theorem State.chainSwapsFor_kept {mm : Nat} {s0 s : State} {b : Nat} (hm : Sub 0x7ffffffff000000000000000086 mm) (h : Kept mm s0 s) : Kept mm s0 (State.chainSwapsFor b s) := by
  have k0 : Sub 0x0 mm := Sub.trans (by decide) hm
  unfold State.chainSwapsFor
  repeat' first
    | (intro x; refine Kept.bind (s0 := s0) (m := mm) (x := x) ?_ ?_; subst x; rotate_left; clear_value x; intro _)
    | (intro y; clear_value y)
    | intro _
    | with_reducible assumption
    | with_reducible lift_lets -underBinder
    | with_reducible apply State.each_kept k0
    | with_reducible apply State.chainSwap_kept hm
    | with_reducible apply Kept.ite
    | with_reducible split
    | split

theorem State.syncCopyLoad_kept {mm : Nat} {s0 s : State} (hm : Sub 0x400000000000 mm) (h : Kept mm s0 s) : Kept mm s0 (State.syncCopyLoad s) := by
  unfold State.syncCopyLoad
  repeat' first
    | (intro x; refine Kept.bind (s0 := s0) (m := mm) (x := x) ?_ ?_; subst x; rotate_left; clear_value x; intro _)
    | (intro y; clear_value y)
    | intro _
    | with_reducible assumption
    | with_reducible lift_lets -underBinder
    | with_reducible refine State.wr_kept ?_ ?_
    | exact Sub.bit (Sub.trans (by decide) hm)
    | with_reducible apply Kept.ite
    | with_reducible split
    | split

theorem State.clearSlot_kept {mm : Nat} {s0 s : State} {sl : Nat} (hm : Sub 0x7ffffff00000000000000000018 mm) (h : Kept mm s0 s) : Kept mm s0 (State.clearSlot sl s) := by
  have k0 : Sub 0x0 mm := Sub.trans (by decide) hm
  have k1 : Sub 0x8 mm := Sub.trans (by decide) hm
  have k2 : Sub 0x10 mm := Sub.trans (by decide) hm
  have kz : Sub (2 ^ 107 - 2 ^ (20 + zone 0x60000000)) mm := Sub.trans (by decide) hm
  unfold State.clearSlot
  repeat' first
    | (intro x; refine Kept.bind (s0 := s0) (m := mm) (x := x) ?_ ?_; subst x; rotate_left; clear_value x; intro _)
    | (intro y; have w_ : Nat := y; clear w_; subst y)
    | (intro y; clear_value y)
    | intro _
    | with_reducible assumption
    | with_reducible lift_lets -underBinder
    | with_reducible apply State.each_kept k0
    | with_reducible refine State.clr_kept ?_ ?_
    | exact Sub.bit (Sub.trans (by decide) hm)
    | (refine Sub.from (b := 0x60000000) kz ?_; (try simp only [key, bk]); omega)
    | with_reducible apply Kept.ite
    | with_reducible split
    | split
    | with_reducible apply Kept.upd_fixed k1
    | with_reducible apply Kept.upd_floats k2

theorem State.clearGen_kept {mm : Nat} {s0 s : State} {g : Nat} (hm : Sub 0x7ffff8000000000000000000020 mm) (h : Kept mm s0 s) : Kept mm s0 (State.clearGen g s) := by
  have k0 : Sub 0x0 mm := Sub.trans (by decide) hm
  have k1 : Sub 0x20 mm := Sub.trans (by decide) hm
  have kz : Sub (2 ^ 107 - 2 ^ (20 + zone 0x66000000)) mm := Sub.trans (by decide) hm
  unfold State.clearGen
  repeat' first
    | (intro x; refine Kept.bind (s0 := s0) (m := mm) (x := x) ?_ ?_; subst x; rotate_left; clear_value x; intro _)
    | (intro y; clear_value y)
    | intro _
    | with_reducible assumption
    | with_reducible lift_lets -underBinder
    | with_reducible apply State.each_kept k0
    | with_reducible refine State.wr_kept ?_ ?_
    | exact Sub.bit (Sub.trans (by decide) hm)
    | (refine Sub.from (b := 0x66000000) kz ?_; (try simp only [key, bk]); omega)
    | with_reducible apply Kept.ite
    | with_reducible split
    | split
    | with_reducible apply Kept.upd_gens k1

theorem State.takeSlot_kept {mm : Nat} {s0 s : State} {b : Nat} {r : Recipe} {sl : Nat} (hm : Sub 0x7ffffff00000000000000000018 mm) (h : Kept mm s0 s) : Kept mm s0 (State.takeSlot b r sl s) := by
  have k0 : Sub 0x0 mm := Sub.trans (by decide) hm
  have kz : Sub (2 ^ 107 - 2 ^ (20 + zone 0x60000100)) mm := Sub.trans (by decide) hm
  unfold State.takeSlot
  repeat' first
    | (intro x; refine Kept.bind (s0 := s0) (m := mm) (x := x) ?_ ?_; subst x; rotate_left; clear_value x; intro _)
    | (intro y; have w_ : Nat := y; clear w_; subst y)
    | (intro y; clear_value y)
    | intro _
    | with_reducible assumption
    | with_reducible lift_lets -underBinder
    | with_reducible apply State.clearSlot_kept hm
    | with_reducible apply State.each_kept k0
    | with_reducible refine State.wr_kept ?_ ?_
    | exact Sub.bit (Sub.trans (by decide) hm)
    | (refine Sub.from (b := 0x60000100) kz ?_; (try simp only [key, bk, flWord, fxWord]); omega)
    | with_reducible apply Kept.ite
    | with_reducible split
    | split

theorem State.forgetViews_kept {mm : Nat} {s0 s : State} {b : Nat} (hm : Sub 0x7ffffffff000000000000000000 mm) (h : Kept mm s0 s) : Kept mm s0 (State.forgetViews b s) := by
  unfold State.forgetViews
  refine Kept.upd_od (Tbl.sorted_filter _) (fun k hk => Tbl.find?_filter _ _ (fun v => ?_)) h
  have hz : ¬ 0x40000000 ≤ k := fun hb => by simp [Sub.from (b := 0x40000000) (Sub.trans (by decide) hm) hb] at hk
  have : ¬ 0x4000 ≤ k / 65536 := by omega
  simp [this]

theorem State.releaseRecipe_kept {mm : Nat} {s0 s : State} {b : Nat} {keep : Option Recipe} (hm : Sub 0x7ffffff00000000000000000038 mm) (h : Kept mm s0 s) : Kept mm s0 (State.releaseRecipe b keep s) := by
  have k0 : Sub 0x0 mm := Sub.trans (by decide) hm
  have k1 : Sub 0x7ffffff00000000000000000018 mm := Sub.trans (by decide) hm
  have k2 : Sub 0x7ffff8000000000000000000020 mm := Sub.trans (by decide) hm
  have kz : Sub (2 ^ 107 - 2 ^ (20 + zone 0x66000100)) mm := Sub.trans (by decide) hm
  unfold State.releaseRecipe
  repeat' first
    | (intro x; refine Kept.bind (s0 := s0) (m := mm) (x := x) ?_ ?_; subst x; rotate_left; clear_value x; intro _)
    | (intro y; clear_value y)
    | intro _
    | with_reducible assumption
    | with_reducible lift_lets -underBinder
    | with_reducible apply State.each_kept k0
    | with_reducible apply State.clearSlot_kept k1
    | with_reducible apply State.clearGen_kept k2
    | with_reducible refine State.wr_kept ?_ ?_
    | exact Sub.bit (Sub.trans (by decide) hm)
    | (refine Sub.from (b := 0x66000100) kz ?_; (try simp only [key, bk]); omega)
    | with_reducible apply Kept.ite
    | with_reducible split
    | split

theorem State.syncSlots_kept {mm : Nat} {s0 s : State} {b : Nat} (hm : Sub 0x7ffffffff000000000000000000 mm) (h : Kept mm s0 s) : Kept mm s0 (State.syncSlots b s) := by
  have kz : Sub (2 ^ 107 - 2 ^ (20 + zone 0x40060400)) mm := Sub.trans (by decide) hm
  unfold State.syncSlots
  repeat' first
    | (intro x; refine Kept.bind (s0 := s0) (m := mm) (x := x) ?_ ?_; subst x; rotate_left; clear_value x; intro _)
    | (intro y; clear_value y)
    | intro _
    | with_reducible assumption
    | with_reducible lift_lets -underBinder
    | with_reducible refine State.wr_kept ?_ ?_
    | exact Sub.bit (Sub.trans (by decide) hm)
    | (refine Sub.from (b := 0x40060400) kz ?_; (try simp only [key, bk]); omega)
    | with_reducible apply Kept.ite
    | with_reducible split
    | split

theorem State.clearWindows_kept {mm : Nat} {s0 s : State} {b : Nat} (hm : Sub 0x7ffffffff000000000000000080 mm) (h : Kept mm s0 s) : Kept mm s0 (State.clearWindows b s) := by
  have k0 : Sub 0x80 mm := Sub.trans (by decide) hm
  have kz : Sub (2 ^ 107 - 2 ^ (20 + zone 0x40120500)) mm := Sub.trans (by decide) hm
  unfold State.clearWindows
  repeat' first
    | (intro x; refine Kept.bind (s0 := s0) (m := mm) (x := x) ?_ ?_; subst x; rotate_left; clear_value x; intro _)
    | (intro y; clear_value y)
    | intro _
    | with_reducible assumption
    | with_reducible lift_lets -underBinder
    | with_reducible refine State.wr_kept ?_ ?_
    | exact Sub.bit (Sub.trans (by decide) hm)
    | (refine Sub.from (b := 0x40120500) kz ?_; (try simp only [key, bk]); omega)
    | with_reducible apply Kept.ite
    | with_reducible split
    | split
    | with_reducible apply Kept.upd_meas k0

theorem State.commitRecipe_kept {mm : Nat} {s0 s : State} {b : Nat} {img : List Byte} (hm : Sub 0x7ffffffff00000040000000e0be mm) (h : Kept mm s0 s) : Kept mm s0 (State.commitRecipe b img s) := by
  have k0 : Sub 0x7ffffff00000000000000000038 mm := Sub.trans (by decide) hm
  have k1 : Sub 0x7ffffffff000000000000000000 mm := Sub.trans (by decide) hm
  have k2 : Sub 0x0 mm := Sub.trans (by decide) hm
  have k3 : Sub 0x7ffffff00000000000000000018 mm := Sub.trans (by decide) hm
  have k4 : Sub 0x7ffff8000000000000000000020 mm := Sub.trans (by decide) hm
  have k5 : Sub 0x2 mm := Sub.trans (by decide) hm
  have k6 : Sub 0x4 mm := Sub.trans (by decide) hm
  have k7 : Sub 0x7fffffc00000000000000000000 mm := Sub.trans (by decide) hm
  have k8 : Sub 0x7fffffffe00000000000000e080 mm := Sub.trans (by decide) hm
  have k9 : Sub 0x7ffffffff000000000000000080 mm := Sub.trans (by decide) hm
  have k10 : Sub 0x400000000000 mm := Sub.trans (by decide) hm
  have kz : Sub (2 ^ 107 - 2 ^ (20 + zone 0x40140100)) mm := Sub.trans (by decide) hm
  unfold State.commitRecipe
  repeat' first
    | (intro x; refine Kept.bind (s0 := s0) (m := mm) (x := x) ?_ ?_; subst x; rotate_left; clear_value x; intro _)
    | (intro y; have w_ : Nat := y; clear w_; subst y)
    | (intro y; clear_value y)
    | intro _
    | with_reducible assumption
    | with_reducible lift_lets -underBinder
    | with_reducible apply State.releaseRecipe_kept k0
    | with_reducible apply State.forgetViews_kept k1
    | with_reducible apply State.each_kept k2
    | with_reducible apply State.takeSlot_kept k3
    | with_reducible apply State.clearGen_kept k4
    | with_reducible apply State.wrBlob_kept k5
    | with_reducible apply State.modBatch_kept k6
    | with_reducible apply State.recount_kept k7
    | with_reducible apply State.syncLoss_kept k8
    | with_reducible apply State.clearWindows_kept k9
    | with_reducible apply State.syncSlots_kept k1
    | with_reducible apply State.syncBanks_kept k1
    | with_reducible apply State.syncTimeline_kept k1
    | with_reducible apply State.syncCopyLoad_kept k10
    | with_reducible refine State.inc_kept ?_ ?_
    | with_reducible refine State.wr_kept ?_ ?_
    | exact Sub.bit (Sub.trans (by decide) hm)
    | (refine Sub.from (b := 0x40140100) kz ?_; (try simp only [key, bk]); omega)
    | with_reducible apply Kept.ite
    | with_reducible split
    | split

theorem State.unload_kept {mm : Nat} {s0 s : State} {b : Nat} (hm : Sub 0x7ffffffff00000040000000e0be mm) (h : Kept mm s0 s) : Kept mm s0 (State.unload b s) := by
  have k0 : Sub 0x7ffffff00000000000000000038 mm := Sub.trans (by decide) hm
  have k1 : Sub 0x7ffffffff000000000000000000 mm := Sub.trans (by decide) hm
  have k2 : Sub 0x0 mm := Sub.trans (by decide) hm
  have k3 : Sub 0x4 mm := Sub.trans (by decide) hm
  have k4 : Sub 0x7fffffffe00000000000000e080 mm := Sub.trans (by decide) hm
  have k5 : Sub 0x7fffffc00000000000000000004 mm := Sub.trans (by decide) hm
  have k6 : Sub 0x7fffffc00000000000000000000 mm := Sub.trans (by decide) hm
  have k7 : Sub 0x7ffffffff000000000000000080 mm := Sub.trans (by decide) hm
  have k8 : Sub 0x400000000000 mm := Sub.trans (by decide) hm
  have k9 : Sub 0x2 mm := Sub.trans (by decide) hm
  have kz : Sub (2 ^ 107 - 2 ^ (20 + zone 0x40140100)) mm := Sub.trans (by decide) hm
  unfold State.unload
  repeat' first
    | (intro x; refine Kept.bind (s0 := s0) (m := mm) (x := x) ?_ ?_; subst x; rotate_left; clear_value x; intro _)
    | (intro y; have w_ : Nat × State := y; clear w_)
    | (intro y; clear_value y)
    | intro _
    | with_reducible assumption
    | with_reducible lift_lets -underBinder
    | with_reducible apply State.releaseRecipe_kept k0
    | with_reducible apply State.forgetViews_kept k1
    | with_reducible apply State.each_kept k2
    | with_reducible apply State.modBatch_kept k3
    | with_reducible apply State.syncLoss_kept k4
    | with_reducible apply State.runAdmission_kept k5
    | with_reducible apply State.recount_kept k6
    | with_reducible apply State.clearWindows_kept k7
    | with_reducible apply State.syncSlots_kept k1
    | with_reducible apply State.syncBanks_kept k1
    | with_reducible apply State.syncTimeline_kept k1
    | with_reducible apply State.syncCopyLoad_kept k8
    | with_reducible refine State.wr_kept ?_ ?_
    | exact Sub.bit (Sub.trans (by decide) hm)
    | (refine Sub.from (b := 0x40140100) kz ?_; (try simp only [key, bk]); omega)
    | with_reducible apply Kept.ite
    | with_reducible split
    | split
    | with_reducible refine Kept.upd_blobs k9 (Tbl.sorted_erase _) ?_
    | with_reducible refine Kept.snd (by assumption) ?_
    | with_reducible refine Kept.fst (by assumption) ?_

theorem recipeEff_kept {mm : Nat} {s0 : State} {b : Nat} {img : List Byte} (hm : Sub 0x7ffffffff0000004000040ae0be mm) : EffKept mm s0 (recipeEff b img) := by
  have k0 : Sub 0x7ffffffff00000040000000e0be mm := Sub.trans (by decide) hm
  have k1 : Sub 0x0 mm := Sub.trans (by decide) hm
  have k2 : Sub 0x40a0000 mm := Sub.trans (by decide) hm
  have k3 : Sub 0x20000 mm := Sub.trans (by decide) hm
  unfold recipeEff
  repeat' first
    | (intro x; refine Kept.bind (s0 := s0) (m := mm) (x := x) ?_ ?_; subst x; rotate_left; clear_value x; intro _)
    | (intro y; clear_value y)
    | intro _
    | with_reducible assumption
    | with_reducible lift_lets -underBinder
    | with_reducible apply State.unload_kept k0
    | with_reducible apply State.answer_kept k1
    | with_reducible apply State.startLong_kept k2
    | with_reducible apply Kept.ite
    | with_reducible apply EffKept.ite
    | with_reducible split
    | split
    | with_reducible apply Kept.upd_srv k3
    | (refine ⟨fun s h => ?_⟩; dsimp -zeta only)
    | dsimp -zeta only

theorem State.loadRecipe_kept {mm : Nat} {s0 s : State} {b : Nat} {img : List Byte} (hm : Sub 0x7ffffffff00000040000000e0be mm) (h : Kept mm s0 s) : Kept mm s0 (State.loadRecipe b img s).2 := by
  have k0 : Sub 0x7fffffc00000000000000000004 mm := Sub.trans (by decide) hm
  have kz : Sub (2 ^ 107 - 2 ^ (20 + zone 0x80000200)) mm := Sub.trans (by decide) hm
  unfold State.loadRecipe
  repeat' first
    | (intro x; refine Kept.bind (s0 := s0) (m := mm) (x := x) ?_ ?_; subst x; rotate_left; clear_value x; intro _)
    | (intro y; have w_ : Nat × State := y; clear w_)
    | (intro y; clear_value y)
    | intro _
    | with_reducible assumption
    | with_reducible lift_lets -underBinder
    | with_reducible apply State.runAdmission_kept k0
    | with_reducible apply State.commitRecipe_kept hm
    | with_reducible refine State.wr_kept ?_ ?_
    | exact Sub.bit (Sub.trans (by decide) hm)
    | (refine Sub.from (b := 0x80000200) kz ?_; (try simp only [key, bk]); omega)
    | with_reducible apply Kept.ite
    | with_reducible split
    | split
    | with_reducible refine Kept.snd (by assumption) ?_
    | with_reducible refine Kept.fst (by assumption) ?_

theorem State.loadComplete_kept {mm : Nat} {s0 s : State} {b : Nat} (hm : Sub 0x7ffffffff00000040000402e0be mm) (h : Kept mm s0 s) : Kept mm s0 (State.loadComplete b s) := by
  have k0 : Sub 0x7ffffffff00000040000000e0be mm := Sub.trans (by decide) hm
  have k1 : Sub 0x4028000 mm := Sub.trans (by decide) hm
  have k2 : Sub 0x20000 mm := Sub.trans (by decide) hm
  unfold State.loadComplete
  repeat' first
    | (intro x; refine Kept.bind (s0 := s0) (m := mm) (x := x) ?_ ?_; subst x; rotate_left; clear_value x; intro _)
    | (intro y; have w_ : Nat × State := y; clear w_)
    | (intro y; clear_value y)
    | intro _
    | with_reducible assumption
    | with_reducible lift_lets -underBinder
    | with_reducible apply State.loadRecipe_kept k0
    | with_reducible apply State.endLong_kept k1
    | with_reducible apply Kept.ite
    | with_reducible split
    | split
    | with_reducible apply Kept.upd_srv k2
    | with_reducible refine Kept.snd (by assumption) ?_
    | with_reducible refine Kept.fst (by assumption) ?_

theorem enableBatchEff_kept {mm : Nat} {s0 : State} {b : Nat} {v : Int} (hm : Sub 0x7ffffffff000000400000008004 mm) : EffKept mm s0 (enableBatchEff b v) := by
  have k0 : Sub 0x4 mm := Sub.trans (by decide) hm
  have k1 : Sub 0x7fffffc00000000000000000004 mm := Sub.trans (by decide) hm
  have k2 : Sub 0x400000000000 mm := Sub.trans (by decide) hm
  have k3 : Sub 0x0 mm := Sub.trans (by decide) hm
  have k4 : Sub 0x1000000000000000000000 mm := Sub.trans (by decide) hm
  have k5 : Sub 0x8000 mm := Sub.trans (by decide) hm
  have kz : Sub (2 ^ 107 - 2 ^ (20 + zone 0x40000200)) mm := Sub.trans (by decide) hm
  unfold enableBatchEff
  repeat' first
    | (intro x; refine Kept.bind (s0 := s0) (m := mm) (x := x) ?_ ?_; subst x; rotate_left; clear_value x; intro _)
    | (intro y; have w_ : Nat × State := y; clear w_)
    | (intro y; clear_value y)
    | intro _
    | with_reducible assumption
    | with_reducible lift_lets -underBinder
    | with_reducible apply State.modBatch_kept k0
    | with_reducible apply State.runAdmission_kept k1
    | with_reducible apply State.syncCopyLoad_kept k2
    | with_reducible apply State.answer_kept k3
    | with_reducible apply State.reportAdm_kept k4
    | with_reducible apply State.modRack_kept k5
    | with_reducible refine State.wr_kept ?_ ?_
    | exact Sub.bit (Sub.trans (by decide) hm)
    | (refine Sub.from (b := 0x40000200) kz ?_; (try simp only [key, bk]); omega)
    | with_reducible apply Kept.ite
    | with_reducible apply EffKept.ite
    | with_reducible split
    | split
    | with_reducible refine Kept.snd (by assumption) ?_
    | with_reducible refine Kept.fst (by assumption) ?_
    | (refine ⟨fun s h => ?_⟩; dsimp -zeta only)
    | dsimp -zeta only

end Sys2Proof.Machine
end

