-- ==== Sys2Proof/Laws/KeptPwm.lean ====
section
/-! SUPPORT. What the operations of Machine/Pwm.lean may change (Safety.lean, Kept): one lemma for each. -/

set_option linter.all false

namespace Sys2Proof.Machine

theorem State.putPair_kept {mm : Nat} {s0 s : State} {c : Nat} {p : PairOut} (hm : Sub 0x7ffffffffffc000000000000000 mm) (h : Kept mm s0 s) : Kept mm s0 (State.putPair c p s) := by
  have kz : Sub (2 ^ 107 - 2 ^ (20 + zone 0x30000c00)) mm := Sub.trans (by decide) hm
  unfold State.putPair
  repeat' first
    | (intro x; refine Kept.bind (s0 := s0) (m := mm) (x := x) ?_ ?_; subst x; rotate_left; clear_value x; intro _)
    | (intro y; clear_value y)
    | intro _
    | with_reducible assumption
    | with_reducible lift_lets -underBinder
    | with_reducible refine State.inc_kept ?_ ?_
    | with_reducible refine State.setBit_kept ?_ ?_
    | with_reducible refine State.wr_kept ?_ ?_
    | exact Sub.bit (Sub.trans (by decide) hm)
    | (refine Sub.from (b := 0x30000c00) kz ?_; (try simp only [key, bk, chk]); omega)
    | with_reducible apply Kept.ite
    | with_reducible split
    | split

theorem State.bootstrapReact_kept {mm : Nat} {s0 s : State} {c : Nat} (hm : Sub 0x7ffffffffffc000000000000100 mm) (h : Kept mm s0 s) : Kept mm s0 (State.bootstrapReact c s) := by
  have k0 : Sub 0x100 mm := Sub.trans (by decide) hm
  have kz : Sub (2 ^ 107 - 2 ^ (20 + zone 0x30000f00)) mm := Sub.trans (by decide) hm
  unfold State.bootstrapReact
  repeat' first
    | (intro x; refine Kept.bind (s0 := s0) (m := mm) (x := x) ?_ ?_; subst x; rotate_left; clear_value x; intro _)
    | (intro y; clear_value y)
    | intro _
    | with_reducible assumption
    | with_reducible lift_lets -underBinder
    | with_reducible apply State.setChan_kept k0
    | with_reducible refine State.setBit_kept ?_ ?_
    | exact Sub.bit (Sub.trans (by decide) hm)
    | (refine Sub.from (b := 0x30000f00) kz ?_; (try simp only [key, bk, chk]); omega)
    | with_reducible apply Kept.ite
    | with_reducible split
    | split

theorem State.placeEdges_kept {mm : Nat} {s0 s : State} {b c : Nat} {p : PairOut} (hm : Sub 0x7ffffffffffc000000000000100 mm) (h : Kept mm s0 s) : Kept mm s0 (State.placeEdges b c p s) := by
  have k0 : Sub 0x100 mm := Sub.trans (by decide) hm
  have kz : Sub (2 ^ 107 - 2 ^ (20 + zone 0x30000f00)) mm := Sub.trans (by decide) hm
  unfold State.placeEdges
  repeat' first
    | (intro x; refine Kept.bind (s0 := s0) (m := mm) (x := x) ?_ ?_; subst x; rotate_left; clear_value x; intro _)
    | (intro y; clear_value y)
    | intro _
    | with_reducible assumption
    | with_reducible lift_lets -underBinder
    | with_reducible apply State.setChan_kept k0
    | with_reducible refine State.setBit_kept ?_ ?_
    | exact Sub.bit (Sub.trans (by decide) hm)
    | (refine Sub.from (b := 0x30000f00) kz ?_; (try simp only [key, bk, chk]); omega)
    | with_reducible apply Kept.ite
    | with_reducible split
    | split
    | with_reducible apply Kept.foldl_snd
    | with_reducible apply Kept.foldl_fst
    | with_reducible apply Kept.foldl

theorem State.channelLoad_kept {mm : Nat} {s0 s : State} {b c : Nat} (hm : Sub 0x7ffffffffffc000000000000100 mm) (h : Kept mm s0 s) : Kept mm s0 (State.channelLoad b c s) := by
  have k0 : Sub 0x7ffffffffffc000000000000000 mm := Sub.trans (by decide) hm
  have k1 : Sub 0x100 mm := Sub.trans (by decide) hm
  unfold State.channelLoad
  repeat' first
    | (intro x; refine Kept.bind (s0 := s0) (m := mm) (x := x) ?_ ?_; subst x; rotate_left; clear_value x; intro _)
    | (intro y; clear_value y)
    | intro _
    | with_reducible assumption
    | with_reducible lift_lets -underBinder
    | with_reducible apply State.putPair_kept k0
    | with_reducible apply State.setChan_kept k1
    | with_reducible apply State.bootstrapReact_kept hm
    | with_reducible apply State.placeEdges_kept hm
    | with_reducible apply Kept.ite
    | with_reducible split
    | split

theorem State.windowEdges_kept {mm : Nat} {s0 s : State} {b c : Nat} {w0 u : Nat} {d : Int} (hm : Sub 0x7ffffffffffc000000000000100 mm) (h : Kept mm s0 s) : Kept mm s0 (State.windowEdges b c w0 u d s).2 := by
  have k0 : Sub 0x100 mm := Sub.trans (by decide) hm
  have k1 : Sub 0x7ffffffffffc000000000000000 mm := Sub.trans (by decide) hm
  have kz : Sub (2 ^ 107 - 2 ^ (20 + zone 0x30000e00)) mm := Sub.trans (by decide) hm
  unfold State.windowEdges
  repeat' first
    | (intro x; refine Kept.bind (s0 := s0) (m := mm) (x := x) ?_ ?_; subst x; rotate_left; clear_value x; intro _)
    | (intro y; clear_value y)
    | intro _
    | with_reducible assumption
    | with_reducible lift_lets -underBinder
    | with_reducible apply State.setChan_kept k0
    | with_reducible apply State.putPair_kept k1
    | with_reducible refine State.setBit_kept ?_ ?_
    | with_reducible refine State.wr_kept ?_ ?_
    | exact Sub.bit (Sub.trans (by decide) hm)
    | (refine Sub.from (b := 0x30000e00) kz ?_; (try simp only [key, bk, chk]); omega)
    | with_reducible apply Kept.ite
    | with_reducible split
    | split

theorem State.sealEdges_kept {mm : Nat} {s0 s : State} {b : Nat} {t0 : Time} (hm : Sub 0x7ffffffffffc000000000000104 mm) (h : Kept mm s0 s) : Kept mm s0 (State.sealEdges b t0 s) := by
  have k0 : Sub 0x4 mm := Sub.trans (by decide) hm
  have k1 : Sub 0x7ffffffffffc000000000000100 mm := Sub.trans (by decide) hm
  unfold State.sealEdges
  repeat' first
    | (intro x; refine Kept.bind (s0 := s0) (m := mm) (x := x) ?_ ?_; subst x; rotate_left; clear_value x; intro _)
    | (intro y; have w_ : List Edge × State := y; clear w_)
    | (intro y; clear_value y)
    | intro _
    | with_reducible assumption
    | with_reducible lift_lets -underBinder
    | with_reducible apply State.modBatch_kept k0
    | with_reducible apply State.windowEdges_kept k1
    | with_reducible apply Kept.ite
    | with_reducible split
    | split
    | with_reducible apply Kept.foldl_snd
    | with_reducible apply Kept.foldl_fst
    | with_reducible apply Kept.foldl
    | with_reducible refine Kept.snd (by assumption) ?_
    | with_reducible refine Kept.fst (by assumption) ?_

theorem State.outputsOn_kept {mm : Nat} {s0 s : State} {b : Nat} (hm : Sub 0x7ffffffff000000000000000004 mm) (h : Kept mm s0 s) : Kept mm s0 (State.outputsOn b s) := by
  have k0 : Sub 0x4 mm := Sub.trans (by decide) hm
  have kz : Sub (2 ^ 107 - 2 ^ (20 + zone 0x400d0100)) mm := Sub.trans (by decide) hm
  unfold State.outputsOn
  repeat' first
    | (intro x; refine Kept.bind (s0 := s0) (m := mm) (x := x) ?_ ?_; subst x; rotate_left; clear_value x; intro _)
    | (intro y; clear_value y)
    | intro _
    | with_reducible assumption
    | with_reducible lift_lets -underBinder
    | with_reducible apply State.modBatch_kept k0
    | with_reducible refine State.wr_kept ?_ ?_
    | exact Sub.bit (Sub.trans (by decide) hm)
    | (refine Sub.from (b := 0x400d0100) kz ?_; (try simp only [key, bk]); omega)
    | with_reducible apply Kept.ite
    | with_reducible split
    | split

theorem State.batchLoad_kept {mm : Nat} {s0 s : State} {b : Nat} (hm : Sub 0x7ffffffffffc00000000000e124 mm) (h : Kept mm s0 s) : Kept mm s0 (State.batchLoad b s) := by
  have k0 : Sub 0x4 mm := Sub.trans (by decide) hm
  have k1 : Sub 0x0 mm := Sub.trans (by decide) hm
  have k2 : Sub 0x7ffffffff000000000000000004 mm := Sub.trans (by decide) hm
  have kz : Sub (2 ^ 107 - 2 ^ (20 + zone 0x30000b00)) mm := Sub.trans (by decide) hm
  unfold State.batchLoad
  repeat' first
    | (intro x; refine Kept.bind (s0 := s0) (m := mm) (x := x) ?_ ?_; subst x; rotate_left; clear_value x; intro _)
    | (intro y; clear_value y)
    | intro _
    | with_reducible assumption
    | with_reducible lift_lets -underBinder
    | with_reducible apply State.setBatch_kept k0
    | with_reducible apply State.each_kept k1
    | with_reducible apply State.blockBatch_kept hm
    | with_reducible apply State.outputsOn_kept k2
    | with_reducible refine State.wr_kept ?_ ?_
    | exact Sub.bit (Sub.trans (by decide) hm)
    | (refine Sub.from (b := 0x30000b00) kz ?_; (try simp only [key, bk, chk]); omega)
    | with_reducible apply Kept.ite
    | with_reducible split
    | split

theorem State.setSlice_kept {mm : Nat} {s0 s : State} {k : Nat} {r : SliceRec} (hm : Sub 0x7fffffffff00000000000000100 mm) (h : Kept mm s0 s) : Kept mm s0 (State.setSlice k r s) := by
  have k0 : Sub 0x100 mm := Sub.trans (by decide) hm
  have kz : Sub (2 ^ 107 - 2 ^ (20 + zone 0x32100100)) mm := Sub.trans (by decide) hm
  unfold State.setSlice
  repeat' first
    | (intro x; refine Kept.bind (s0 := s0) (m := mm) (x := x) ?_ ?_; subst x; rotate_left; clear_value x; intro _)
    | (intro y; clear_value y)
    | intro _
    | with_reducible assumption
    | with_reducible lift_lets -underBinder
    | with_reducible refine State.wr_kept ?_ ?_
    | exact Sub.bit (Sub.trans (by decide) hm)
    | (refine Sub.from (b := 0x32100100) kz ?_; (try simp only [key, bk, sliceKey]); omega)
    | with_reducible apply Kept.ite
    | with_reducible split
    | split
    | with_reducible apply Kept.upd_pwm k0

theorem State.sliceReserve_kept {mm : Nat} {s0 s : State} (hm : Sub 0x7fffffffffffffffe000000e040 mm) (h : Kept mm s0 s) : Kept mm s0 (State.sliceReserve s) := by
  have k0 : Sub 0x1000000000000000000040 mm := Sub.trans (by decide) hm
  have k1 : Sub 0x7fffffffffffffffe000000e000 mm := Sub.trans (by decide) hm
  unfold State.sliceReserve
  repeat' first
    | (intro x; refine Kept.bind (s0 := s0) (m := mm) (x := x) ?_ ?_; subst x; rotate_left; clear_value x; intro _)
    | (intro y; clear_value y)
    | intro _
    | with_reducible assumption
    | with_reducible lift_lets -underBinder
    | with_reducible apply State.underTest_kept k0
    | with_reducible apply State.reserveLeft_kept k1
    | with_reducible refine State.wr_kept ?_ ?_
    | exact Sub.bit (Sub.trans (by decide) hm)
    | with_reducible apply Kept.ite
    | with_reducible split
    | split

theorem State.applyMap_kept {mm : Nat} {s0 s : State} {k : Nat} (hm : Sub 0x100 mm) (h : Kept mm s0 s) : Kept mm s0 (State.applyMap k s) := by
  unfold State.applyMap
  repeat' first
    | (intro x; refine Kept.bind (s0 := s0) (m := mm) (x := x) ?_ ?_; subst x; rotate_left; clear_value x; intro _)
    | (intro y; clear_value y)
    | intro _
    | with_reducible assumption
    | with_reducible lift_lets -underBinder
    | with_reducible apply Kept.ite
    | with_reducible split
    | split
    | with_reducible apply Kept.upd_pwm hm

theorem State.endPair_kept {mm : Nat} {s0 s : State} {c i : Nat} (hm : Sub 0x7ffffffffffc000000000000100 mm) (h : Kept mm s0 s) : Kept mm s0 (State.endPair c i s) := by
  have k0 : Sub 0x7fffffffff00000000000000100 mm := Sub.trans (by decide) hm
  have kz : Sub (2 ^ 107 - 2 ^ (20 + zone 0x30000f00)) mm := Sub.trans (by decide) hm
  unfold State.endPair
  repeat' first
    | (intro x; refine Kept.bind (s0 := s0) (m := mm) (x := x) ?_ ?_; subst x; rotate_left; clear_value x; intro _)
    | (intro y; clear_value y)
    | intro _
    | with_reducible assumption
    | with_reducible lift_lets -underBinder
    | with_reducible apply State.setSlice_kept k0
    | with_reducible refine State.setBit_kept ?_ ?_
    | exact Sub.bit (Sub.trans (by decide) hm)
    | (refine Sub.from (b := 0x30000f00) kz ?_; (try simp only [key, bk, chk]); omega)
    | with_reducible apply Kept.ite
    | with_reducible split
    | split

theorem State.serveWith_kept {mm : Nat} {s0 s : State} {c j : Nat} (hm : Sub 0x7ffffffffffc000000000000100 mm) (h : Kept mm s0 s) : Kept mm s0 (State.serveWith c j s) := by
  have k0 : Sub 0x7fffffffff00000000000000100 mm := Sub.trans (by decide) hm
  have kz : Sub (2 ^ 107 - 2 ^ (20 + zone 0x30001300)) mm := Sub.trans (by decide) hm
  unfold State.serveWith
  repeat' first
    | (intro x; refine Kept.bind (s0 := s0) (m := mm) (x := x) ?_ ?_; subst x; rotate_left; clear_value x; intro _)
    | (intro y; clear_value y)
    | intro _
    | with_reducible assumption
    | with_reducible lift_lets -underBinder
    | with_reducible apply State.setSlice_kept k0
    | with_reducible apply State.endPair_kept hm
    | with_reducible refine State.wr_kept ?_ ?_
    | exact Sub.bit (Sub.trans (by decide) hm)
    | (refine Sub.from (b := 0x30001300) kz ?_; (try simp only [key, bk, chk]); omega)
    | with_reducible apply Kept.ite
    | with_reducible split
    | split

theorem State.blockUnshadowed_kept {mm : Nat} {s0 s : State} {k : Nat} (hm : Sub 0x7ffffffffffc00000000000e124 mm) (h : Kept mm s0 s) : Kept mm s0 (State.blockUnshadowed k s) := by
  unfold State.blockUnshadowed
  repeat' first
    | (intro x; refine Kept.bind (s0 := s0) (m := mm) (x := x) ?_ ?_; subst x; rotate_left; clear_value x; intro _)
    | (intro y; clear_value y)
    | intro _
    | with_reducible assumption
    | with_reducible lift_lets -underBinder
    | with_reducible apply State.blockBatch_kept hm
    | with_reducible apply Kept.ite
    | with_reducible split
    | split

theorem State.sliceGone_kept {mm : Nat} {s0 s : State} {k cause : Nat} (hm : Sub 0x7fffffffffffffffe000001e164 mm) (h : Kept mm s0 s) : Kept mm s0 (State.sliceGone k cause s) := by
  have k0 : Sub 0x7fffffffff00000000000000100 mm := Sub.trans (by decide) hm
  have k1 : Sub 0x7fffd000000000000000000e000 mm := Sub.trans (by decide) hm
  have k2 : Sub 0x20000010000 mm := Sub.trans (by decide) hm
  have k3 : Sub 0x7fffffffffffffffe000000e040 mm := Sub.trans (by decide) hm
  have k4 : Sub 0x7ffffffffffc000000000000100 mm := Sub.trans (by decide) hm
  have k5 : Sub 0x7ffffffffffc00000000000e124 mm := Sub.trans (by decide) hm
  unfold State.sliceGone
  repeat' first
    | (intro x; refine Kept.bind (s0 := s0) (m := mm) (x := x) ?_ ?_; subst x; rotate_left; clear_value x; intro _)
    | (intro y; clear_value y)
    | intro _
    | with_reducible assumption
    | with_reducible lift_lets -underBinder
    | with_reducible apply State.setSlice_kept k0
    | with_reducible apply State.logEvent_kept k1
    | with_reducible apply State.retireRecord_kept k2
    | with_reducible apply State.sliceReserve_kept k3
    | with_reducible apply State.endPair_kept k4
    | with_reducible apply State.blockUnshadowed_kept k5
    | with_reducible apply Kept.ite
    | with_reducible split
    | split

theorem State.sliceHandOver_kept {mm : Nat} {s0 s : State} {k : Nat} (hm : Sub 0x7fffffffffffffffe000001e164 mm) (h : Kept mm s0 s) : Kept mm s0 (State.sliceHandOver k s) := by
  have k0 : Sub 0x7ffffffffffc000000000000100 mm := Sub.trans (by decide) hm
  unfold State.sliceHandOver
  repeat' first
    | (intro x; refine Kept.bind (s0 := s0) (m := mm) (x := x) ?_ ?_; subst x; rotate_left; clear_value x; intro _)
    | (intro y; clear_value y)
    | intro _
    | with_reducible assumption
    | with_reducible lift_lets -underBinder
    | with_reducible apply State.serveWith_kept k0
    | with_reducible apply State.sliceGone_kept hm
    | with_reducible apply Kept.ite
    | with_reducible split
    | split

theorem State.retireSlice_kept {mm : Nat} {s0 s : State} {k cause : Nat} (hm : Sub 0x7fffffffffffffffe000001e164 mm) (h : Kept mm s0 s) : Kept mm s0 (State.retireSlice k cause s) := by
  have k0 : Sub 0x7fffffffff00000000000000100 mm := Sub.trans (by decide) hm
  have k1 : Sub 0x7ffffffffffc00000000000e124 mm := Sub.trans (by decide) hm
  unfold State.retireSlice
  repeat' first
    | (intro x; refine Kept.bind (s0 := s0) (m := mm) (x := x) ?_ ?_; subst x; rotate_left; clear_value x; intro _)
    | (intro y; clear_value y)
    | intro _
    | with_reducible assumption
    | with_reducible lift_lets -underBinder
    | with_reducible apply State.setSlice_kept k0
    | with_reducible apply State.sliceHandOver_kept hm
    | with_reducible apply State.blockUnshadowed_kept k1
    | with_reducible apply State.sliceGone_kept hm
    | with_reducible apply Kept.ite
    | with_reducible split
    | split

theorem State.sliceBoundary_kept {mm : Nat} {s0 s : State} {b : Nat} (hm : Sub 0x7fffffffffffffffe000001e164 mm) (h : Kept mm s0 s) : Kept mm s0 (State.sliceBoundary b s) := by
  have k0 : Sub 0x0 mm := Sub.trans (by decide) hm
  unfold State.sliceBoundary
  repeat' first
    | (intro x; refine Kept.bind (s0 := s0) (m := mm) (x := x) ?_ ?_; subst x; rotate_left; clear_value x; intro _)
    | (intro y; clear_value y)
    | intro _
    | with_reducible assumption
    | with_reducible lift_lets -underBinder
    | with_reducible apply State.each_kept k0
    | with_reducible apply State.sliceHandOver_kept hm
    | with_reducible apply Kept.ite
    | with_reducible split
    | split

theorem State.testSwap_kept {mm : Nat} {s0 s : State} {k j c : Nat} (hm : Sub 0x7ffffffffffc000000000000140 mm) (h : Kept mm s0 s) : Kept mm s0 (State.testSwap k j c s) := by
  have k0 : Sub 0x7ffffffffffc000000000000100 mm := Sub.trans (by decide) hm
  have k1 : Sub 0x7fffffffff00000000000000100 mm := Sub.trans (by decide) hm
  have k2 : Sub 0x1000000000000000000040 mm := Sub.trans (by decide) hm
  have k3 : Sub 0x100 mm := Sub.trans (by decide) hm
  unfold State.testSwap
  repeat' first
    | (intro x; refine Kept.bind (s0 := s0) (m := mm) (x := x) ?_ ?_; subst x; rotate_left; clear_value x; intro _)
    | (intro y; clear_value y)
    | intro _
    | with_reducible assumption
    | with_reducible lift_lets -underBinder
    | with_reducible apply State.serveWith_kept k0
    | with_reducible apply State.setSlice_kept k1
    | with_reducible apply State.underTest_kept k2
    | with_reducible apply Kept.ite
    | with_reducible split
    | split
    | with_reducible apply Kept.upd_pwm k3

theorem State.takeoverSlice_kept {mm : Nat} {s0 s : State} {c : Nat} (hm : Sub 0x7fffffffffffffffe000001e164 mm) (h : Kept mm s0 s) : Kept mm s0 (State.takeoverSlice c s) := by
  have k0 : Sub 0x0 mm := Sub.trans (by decide) hm
  have k1 : Sub 0x100 mm := Sub.trans (by decide) hm
  have k2 : Sub 0x7ffffffffffc000000000000140 mm := Sub.trans (by decide) hm
  unfold State.takeoverSlice
  repeat' first
    | (intro x; refine Kept.bind (s0 := s0) (m := mm) (x := x) ?_ ?_; subst x; rotate_left; clear_value x; intro _)
    | (intro y; clear_value y)
    | intro _
    | with_reducible assumption
    | with_reducible lift_lets -underBinder
    | with_reducible apply State.each_kept k0
    | with_reducible apply State.applyMap_kept k1
    | with_reducible apply State.sliceHandOver_kept hm
    | with_reducible apply State.testSwap_kept k2
    | with_reducible apply Kept.ite
    | with_reducible split
    | split

theorem State.compareShadow_kept {mm : Nat} {s0 s : State} {c : Nat} (hm : Sub 0x7ffffffffffc000000000080000 mm) (h : Kept mm s0 s) : Kept mm s0 (State.compareShadow c s) := by
  have k0 : Sub 0x80000 mm := Sub.trans (by decide) hm
  have kz : Sub (2 ^ 107 - 2 ^ (20 + zone 0x30000f00)) mm := Sub.trans (by decide) hm
  unfold State.compareShadow
  repeat' first
    | (intro x; refine Kept.bind (s0 := s0) (m := mm) (x := x) ?_ ?_; subst x; rotate_left; clear_value x; intro _)
    | (intro y; have w_ : Nat × State := y; clear w_)
    | (intro y; clear_value y)
    | intro _
    | with_reducible assumption
    | with_reducible lift_lets -underBinder
    | with_reducible apply State.draw_kept k0
    | with_reducible refine State.setBit_kept ?_ ?_
    | exact Sub.bit (Sub.trans (by decide) hm)
    | (refine Sub.from (b := 0x30000f00) kz ?_; (try simp only [key, bk, chk]); omega)
    | with_reducible apply Kept.ite
    | with_reducible split
    | split
    | with_reducible refine Kept.snd (by assumption) ?_
    | with_reducible refine Kept.fst (by assumption) ?_

theorem State.loadPoint_kept {mm : Nat} {s0 s : State} {c : Nat} (hm : Sub 0x7ffffffffffc00000000008e124 mm) (h : Kept mm s0 s) : Kept mm s0 (State.loadPoint c s) := by
  have k0 : Sub 0x7ffffffffffc00000000000e124 mm := Sub.trans (by decide) hm
  have k1 : Sub 0x7ffffffffffc000000000000100 mm := Sub.trans (by decide) hm
  have k2 : Sub 0x7ffffffffffc000000000080000 mm := Sub.trans (by decide) hm
  unfold State.loadPoint
  repeat' first
    | (intro x; refine Kept.bind (s0 := s0) (m := mm) (x := x) ?_ ?_; subst x; rotate_left; clear_value x; intro _)
    | (intro y; clear_value y)
    | intro _
    | with_reducible assumption
    | with_reducible lift_lets -underBinder
    | with_reducible apply State.batchLoad_kept k0
    | with_reducible apply State.channelLoad_kept k1
    | with_reducible apply State.compareShadow_kept k2
    | with_reducible apply Kept.ite
    | with_reducible split
    | split

theorem State.startShadow_kept {mm : Nat} {s0 s : State} (hm : Sub 0x7fffffffff00000000000000140 mm) (h : Kept mm s0 s) : Kept mm s0 (State.startShadow s) := by
  have k0 : Sub 0x1000000000000000000040 mm := Sub.trans (by decide) hm
  have k1 : Sub 0x7fffffffff00000000000000100 mm := Sub.trans (by decide) hm
  unfold State.startShadow
  repeat' first
    | (intro x; refine Kept.bind (s0 := s0) (m := mm) (x := x) ?_ ?_; subst x; rotate_left; clear_value x; intro _)
    | (intro y; clear_value y)
    | intro _
    | with_reducible assumption
    | with_reducible lift_lets -underBinder
    | with_reducible apply State.underTest_kept k0
    | with_reducible apply State.setSlice_kept k1
    | with_reducible apply Kept.ite
    | with_reducible split
    | split

theorem State.sliceTest_kept {mm : Nat} {s0 s : State} {k : Nat} (hm : Sub 0x7fffffffffffffffe000001e164 mm) (h : Kept mm s0 s) : Kept mm s0 (State.sliceTest k s) := by
  have k0 : Sub 0x7ffffffffffc000000000000140 mm := Sub.trans (by decide) hm
  have k1 : Sub 0x7fffffffff00000000000000100 mm := Sub.trans (by decide) hm
  unfold State.sliceTest
  repeat' first
    | (intro x; refine Kept.bind (s0 := s0) (m := mm) (x := x) ?_ ?_; subst x; rotate_left; clear_value x; intro _)
    | (intro y; clear_value y)
    | intro _
    | with_reducible assumption
    | with_reducible lift_lets -underBinder
    | with_reducible apply State.testSwap_kept k0
    | with_reducible apply State.setSlice_kept k1
    | with_reducible apply State.takeoverSlice_kept hm
    | with_reducible apply Kept.ite
    | with_reducible split
    | split

theorem State.arbitrateSlice_kept {mm : Nat} {s0 s : State} {k : Nat} {pass : Bool} (hm : Sub 0x7fffffffffffffffe000001e164 mm) (h : Kept mm s0 s) : Kept mm s0 (State.arbitrateSlice k pass s) := by
  have k0 : Sub 0x7ffffffffffc000000000000100 mm := Sub.trans (by decide) hm
  have k1 : Sub 0x7fffffffff00000000000000100 mm := Sub.trans (by decide) hm
  have k2 : Sub 0x7fffffffff00000000000000140 mm := Sub.trans (by decide) hm
  unfold State.arbitrateSlice
  repeat' first
    | (intro x; refine Kept.bind (s0 := s0) (m := mm) (x := x) ?_ ?_; subst x; rotate_left; clear_value x; intro _)
    | (intro y; clear_value y)
    | intro _
    | with_reducible assumption
    | with_reducible lift_lets -underBinder
    | with_reducible apply State.endPair_kept k0
    | with_reducible apply State.setSlice_kept k1
    | with_reducible apply State.retireSlice_kept hm
    | with_reducible apply State.startShadow_kept k2
    | with_reducible apply Kept.ite
    | with_reducible split
    | split

theorem State.sliceTestEnd_kept {mm : Nat} {s0 s : State} {k : Nat} {pass : Bool} (hm : Sub 0x7fffffffffffffffe000001e164 mm) (h : Kept mm s0 s) : Kept mm s0 (State.sliceTestEnd k pass s) := by
  have k0 : Sub 0x1000000000000000000040 mm := Sub.trans (by decide) hm
  have k1 : Sub 0x7fffffffff00000000000000100 mm := Sub.trans (by decide) hm
  have k2 : Sub 0x7fffffffff00000000000000140 mm := Sub.trans (by decide) hm
  unfold State.sliceTestEnd
  repeat' first
    | (intro x; refine Kept.bind (s0 := s0) (m := mm) (x := x) ?_ ?_; subst x; rotate_left; clear_value x; intro _)
    | (intro y; clear_value y)
    | intro _
    | with_reducible assumption
    | with_reducible lift_lets -underBinder
    | with_reducible apply State.underTest_kept k0
    | with_reducible apply State.arbitrateSlice_kept hm
    | with_reducible apply State.setSlice_kept k1
    | with_reducible apply State.startShadow_kept k2
    | with_reducible apply State.retireSlice_kept hm
    | with_reducible apply Kept.ite
    | with_reducible split
    | split

theorem State.calibrate_kept {mm : Nat} {s0 s : State} {k : Nat} {x : CalCount} (hm : Sub 0x7fffffffffffffffe000001e164 mm) (h : Kept mm s0 s) : Kept mm s0 (State.calibrate k x s) := by
  have k0 : Sub 0x7fffffffff00000000000000100 mm := Sub.trans (by decide) hm
  have kz : Sub (2 ^ 107 - 2 ^ (20 + zone 0x32300100)) mm := Sub.trans (by decide) hm
  unfold State.calibrate
  repeat' first
    | (intro x; refine Kept.bind (s0 := s0) (m := mm) (x := x) ?_ ?_; subst x; rotate_left; clear_value x; intro _)
    | (intro y; clear_value y)
    | intro _
    | with_reducible assumption
    | with_reducible lift_lets -underBinder
    | with_reducible apply State.setSlice_kept k0
    | with_reducible apply State.retireSlice_kept hm
    | with_reducible refine State.inc_kept ?_ ?_
    | with_reducible refine State.wr_kept ?_ ?_
    | exact Sub.bit (Sub.trans (by decide) hm)
    | (refine Sub.from (b := 0x32300100) kz ?_; (try simp only [key, bk, sliceKey]); omega)
    | with_reducible apply Kept.ite
    | with_reducible split
    | split

theorem State.sliceCalibration_kept {mm : Nat} {s0 s : State} {counts : List CalCount} (hm : Sub 0x7fffffffffffffffe000001e164 mm) (h : Kept mm s0 s) : Kept mm s0 (State.sliceCalibration counts s) := by
  have k0 : Sub 0x0 mm := Sub.trans (by decide) hm
  have k1 : Sub 0x7fffffffff00000000000000140 mm := Sub.trans (by decide) hm
  have k2 : Sub 0x100 mm := Sub.trans (by decide) hm
  unfold State.sliceCalibration
  repeat' first
    | (intro x; refine Kept.bind (s0 := s0) (m := mm) (x := x) ?_ ?_; subst x; rotate_left; clear_value x; intro _)
    | (intro y; clear_value y)
    | intro _
    | with_reducible assumption
    | with_reducible lift_lets -underBinder
    | with_reducible apply State.each_kept k0
    | with_reducible apply State.calibrate_kept hm
    | with_reducible apply State.startShadow_kept k1
    | with_reducible refine State.inc_kept ?_ ?_
    | with_reducible refine State.wr_kept ?_ ?_
    | exact Sub.bit (Sub.trans (by decide) hm)
    | with_reducible apply Kept.ite
    | with_reducible split
    | split
    | with_reducible apply Kept.upd_pwm k2

theorem State.extendedCal_kept {mm : Nat} {s0 s : State} (hm : Sub 0x100 mm) (h : Kept mm s0 s) : Kept mm s0 (State.extendedCal s) := by
  unfold State.extendedCal
  repeat' first
    | (intro x; refine Kept.bind (s0 := s0) (m := mm) (x := x) ?_ ?_; subst x; rotate_left; clear_value x; intro _)
    | (intro y; clear_value y)
    | intro _
    | with_reducible assumption
    | with_reducible lift_lets -underBinder
    | with_reducible apply Kept.ite
    | with_reducible split
    | split
    | with_reducible apply Kept.upd_pwm hm

theorem State.clearCarry_kept {mm : Nat} {s0 s : State} {c : Nat} (hm : Sub 0x7ffffffffffc000000000000000 mm) (h : Kept mm s0 s) : Kept mm s0 (State.clearCarry c s) := by
  have kz : Sub (2 ^ 107 - 2 ^ (20 + zone 0x30000e00)) mm := Sub.trans (by decide) hm
  unfold State.clearCarry
  repeat' first
    | (intro x; refine Kept.bind (s0 := s0) (m := mm) (x := x) ?_ ?_; subst x; rotate_left; clear_value x; intro _)
    | (intro y; clear_value y)
    | intro _
    | with_reducible assumption
    | with_reducible lift_lets -underBinder
    | with_reducible refine State.wr_kept ?_ ?_
    | exact Sub.bit (Sub.trans (by decide) hm)
    | (refine Sub.from (b := 0x30000e00) kz ?_; (try simp only [key, bk, chk]); omega)
    | with_reducible apply Kept.ite
    | with_reducible split
    | split

theorem State.roundEdges_kept {mm : Nat} {s0 s : State} (hm : Sub 0x100 mm) (h : Kept mm s0 s) : Kept mm s0 (State.roundEdges s) := by
  unfold State.roundEdges
  repeat' first
    | (intro x; refine Kept.bind (s0 := s0) (m := mm) (x := x) ?_ ?_; subst x; rotate_left; clear_value x; intro _)
    | (intro y; clear_value y)
    | intro _
    | with_reducible assumption
    | with_reducible lift_lets -underBinder
    | with_reducible apply Kept.ite
    | with_reducible split
    | split
    | with_reducible apply Kept.upd_pwm hm

theorem State.toExtended_kept {mm : Nat} {s0 s : State} (hm : Sub 0x7ffffffffffc000000000000100 mm) (h : Kept mm s0 s) : Kept mm s0 (State.toExtended s) := by
  have k0 : Sub 0x100 mm := Sub.trans (by decide) hm
  have k1 : Sub 0x0 mm := Sub.trans (by decide) hm
  have k2 : Sub 0x7ffffffffffc000000000000000 mm := Sub.trans (by decide) hm
  unfold State.toExtended
  repeat' first
    | (intro x; refine Kept.bind (s0 := s0) (m := mm) (x := x) ?_ ?_; subst x; rotate_left; clear_value x; intro _)
    | (intro y; clear_value y)
    | intro _
    | with_reducible assumption
    | with_reducible lift_lets -underBinder
    | with_reducible apply State.roundEdges_kept k0
    | with_reducible apply State.each_kept k1
    | with_reducible apply State.clearCarry_kept k2
    | with_reducible refine State.inc_kept ?_ ?_
    | exact Sub.bit (Sub.trans (by decide) hm)
    | with_reducible apply Kept.ite
    | with_reducible split
    | split
    | with_reducible apply Kept.upd_pwm k0

theorem State.toNormal_kept {mm : Nat} {s0 s : State} (hm : Sub 0x7ffffffffffc000000000000100 mm) (h : Kept mm s0 s) : Kept mm s0 (State.toNormal s) := by
  have k0 : Sub 0x0 mm := Sub.trans (by decide) hm
  have k1 : Sub 0x7ffffffffffc000000000000000 mm := Sub.trans (by decide) hm
  have k2 : Sub 0x100 mm := Sub.trans (by decide) hm
  unfold State.toNormal
  repeat' first
    | (intro x; refine Kept.bind (s0 := s0) (m := mm) (x := x) ?_ ?_; subst x; rotate_left; clear_value x; intro _)
    | (intro y; clear_value y)
    | intro _
    | with_reducible assumption
    | with_reducible lift_lets -underBinder
    | with_reducible apply State.each_kept k0
    | with_reducible apply State.clearCarry_kept k1
    | with_reducible refine State.inc_kept ?_ ?_
    | exact Sub.bit (Sub.trans (by decide) hm)
    | with_reducible apply Kept.ite
    | with_reducible split
    | split
    | with_reducible apply Kept.upd_pwm k2

theorem State.returnNormal_kept {mm : Nat} {s0 s : State} {b : Nat} (hm : Sub 0x7ffffffffffc000000000000100 mm) (h : Kept mm s0 s) : Kept mm s0 (State.returnNormal b s) := by
  have k0 : Sub 0x0 mm := Sub.trans (by decide) hm
  have k1 : Sub 0x7ffffffffffc000000000000000 mm := Sub.trans (by decide) hm
  have k2 : Sub 0x100 mm := Sub.trans (by decide) hm
  unfold State.returnNormal
  repeat' first
    | (intro x; refine Kept.bind (s0 := s0) (m := mm) (x := x) ?_ ?_; subst x; rotate_left; clear_value x; intro _)
    | (intro y; clear_value y)
    | intro _
    | with_reducible assumption
    | with_reducible lift_lets -underBinder
    | with_reducible apply State.each_kept k0
    | with_reducible apply State.clearCarry_kept k1
    | with_reducible apply Kept.ite
    | with_reducible split
    | split
    | with_reducible apply Kept.upd_pwm k2

theorem State.maskBlock_kept {mm : Nat} {s0 s : State} {k v : Nat} (hm : Sub 0x7ffffffffffc00000000000e124 mm) (h : Kept mm s0 s) : Kept mm s0 (State.maskBlock k v s) := by
  have k0 : Sub 0x0 mm := Sub.trans (by decide) hm
  have kz : Sub (2 ^ 107 - 2 ^ (20 + zone 0x32000b00)) mm := Sub.trans (by decide) hm
  unfold State.maskBlock
  repeat' first
    | (intro x; refine Kept.bind (s0 := s0) (m := mm) (x := x) ?_ ?_; subst x; rotate_left; clear_value x; intro _)
    | (intro y; clear_value y)
    | intro _
    | with_reducible assumption
    | with_reducible lift_lets -underBinder
    | with_reducible apply State.each_kept k0
    | with_reducible apply State.blockBatch_kept hm
    | with_reducible refine State.wr_kept ?_ ?_
    | exact Sub.bit (Sub.trans (by decide) hm)
    | (refine Sub.from (b := 0x32000b00) kz ?_; (try simp only [key, bk]); omega)
    | with_reducible apply Kept.ite
    | with_reducible split
    | split

theorem State.blockInput_kept {mm : Nat} {s0 s : State} {k : Nat} {low : Bool} (hm : Sub 0x7ffffffffffc00000000000e124 mm) (h : Kept mm s0 s) : Kept mm s0 (State.blockInput k low s) := by
  have k0 : Sub 0x0 mm := Sub.trans (by decide) hm
  have k1 : Sub 0x100 mm := Sub.trans (by decide) hm
  unfold State.blockInput
  repeat' first
    | (intro x; refine Kept.bind (s0 := s0) (m := mm) (x := x) ?_ ?_; subst x; rotate_left; clear_value x; intro _)
    | (intro y; clear_value y)
    | intro _
    | with_reducible assumption
    | with_reducible lift_lets -underBinder
    | with_reducible apply State.each_kept k0
    | with_reducible apply State.blockBatch_kept hm
    | with_reducible refine State.inc_kept ?_ ?_
    | with_reducible refine State.setBit_kept ?_ ?_
    | exact Sub.bit (Sub.trans (by decide) hm)
    | with_reducible apply Kept.ite
    | with_reducible split
    | split
    | with_reducible apply Kept.upd_pwm k1

theorem State.noteBoot_kept {mm : Nat} {s0 s : State} {d : Nat} {low : Bool} (hm : Sub 0x400 mm) (h : Kept mm s0 s) : Kept mm s0 (State.noteBoot d low s) := by
  unfold State.noteBoot
  repeat' first
    | (intro x; refine Kept.bind (s0 := s0) (m := mm) (x := x) ?_ ?_; subst x; rotate_left; clear_value x; intro _)
    | (intro y; clear_value y)
    | intro _
    | with_reducible assumption
    | with_reducible lift_lets -underBinder
    | with_reducible apply Kept.ite
    | with_reducible split
    | split
    | with_reducible apply Kept.upd_aux hm

theorem State.bootstrapLow_kept {mm : Nat} {s0 s : State} {d : Nat} (hm : Sub 0x7ffffffffffc00000000000e500 mm) (h : Kept mm s0 s) : Kept mm s0 (State.bootstrapLow d s) := by
  have k0 : Sub 0x400 mm := Sub.trans (by decide) hm
  have k1 : Sub 0x100 mm := Sub.trans (by decide) hm
  have k2 : Sub 0x7ffffffffffc000000000000100 mm := Sub.trans (by decide) hm
  have k3 : Sub 0x7fffd000000000000000000e000 mm := Sub.trans (by decide) hm
  have kz : Sub (2 ^ 107 - 2 ^ (20 + zone 0x30000f00)) mm := Sub.trans (by decide) hm
  unfold State.bootstrapLow
  repeat' first
    | (intro x; refine Kept.bind (s0 := s0) (m := mm) (x := x) ?_ ?_; subst x; rotate_left; clear_value x; intro _)
    | (intro y; clear_value y)
    | intro _
    | with_reducible assumption
    | with_reducible lift_lets -underBinder
    | with_reducible apply State.noteBoot_kept k0
    | with_reducible apply State.modChan_kept k1
    | with_reducible apply State.bootstrapReact_kept k2
    | with_reducible apply State.logEvent_kept k3
    | with_reducible refine State.inc_kept ?_ ?_
    | with_reducible refine State.setBit_kept ?_ ?_
    | exact Sub.bit (Sub.trans (by decide) hm)
    | (refine Sub.from (b := 0x30000f00) kz ?_; (try simp only [key, bk, chk]); omega)
    | with_reducible apply Kept.ite
    | with_reducible split
    | split

theorem State.rechargeHold_kept {mm : Nat} {s0 s : State} {d : Nat} (hm : Sub 0x7ffffffffffc000000000000500 mm) (h : Kept mm s0 s) : Kept mm s0 (State.rechargeHold d s) := by
  have k0 : Sub 0x400 mm := Sub.trans (by decide) hm
  have k1 : Sub 0x100 mm := Sub.trans (by decide) hm
  have kz : Sub (2 ^ 107 - 2 ^ (20 + zone 0x30000e00)) mm := Sub.trans (by decide) hm
  unfold State.rechargeHold
  repeat' first
    | (intro x; refine Kept.bind (s0 := s0) (m := mm) (x := x) ?_ ?_; subst x; rotate_left; clear_value x; intro _)
    | (intro y; have w_ : State → State := y; clear w_; subst y)
    | (intro y; clear_value y)
    | intro _
    | with_reducible assumption
    | with_reducible lift_lets -underBinder
    | with_reducible apply State.noteBoot_kept k0
    | with_reducible apply State.setChan_kept k1
    | with_reducible refine State.setBit_kept ?_ ?_
    | with_reducible refine State.wr_kept ?_ ?_
    | exact Sub.bit (Sub.trans (by decide) hm)
    | (refine Sub.from (b := 0x30000e00) kz ?_; (try simp only [key, bk, chk]); omega)
    | with_reducible apply Kept.ite
    | with_reducible split
    | split
    | dsimp -zeta only

theorem testDutyEff_kept {mm : Nat} {s0 : State} {c : Nat} {v : Int} (hm : Sub 0x7ffffffffffc000000000000100 mm) : EffKept mm s0 (testDutyEff c v) := by
  have k0 : Sub 0x100 mm := Sub.trans (by decide) hm
  have kz : Sub (2 ^ 107 - 2 ^ (20 + zone 0x30000b00)) mm := Sub.trans (by decide) hm
  unfold testDutyEff
  repeat' first
    | (intro x; refine Kept.bind (s0 := s0) (m := mm) (x := x) ?_ ?_; subst x; rotate_left; clear_value x; intro _)
    | (intro y; clear_value y)
    | intro _
    | with_reducible assumption
    | with_reducible lift_lets -underBinder
    | with_reducible apply State.setChan_kept k0
    | with_reducible refine State.wr_kept ?_ ?_
    | exact Sub.bit (Sub.trans (by decide) hm)
    | (refine Sub.from (b := 0x30000b00) kz ?_; (try simp only [key, bk, chk]); omega)
    | with_reducible apply Kept.ite
    | with_reducible apply EffKept.ite
    | with_reducible split
    | split
    | (refine ⟨fun s h => ?_⟩; dsimp -zeta only)
    | dsimp -zeta only

theorem testEnableEff_kept {mm : Nat} {s0 : State} {c : Nat} {v : Int} (hm : Sub 0x7ffffffffffc000000000000100 mm) : EffKept mm s0 (testEnableEff c v) := by
  have kz : Sub (2 ^ 107 - 2 ^ (20 + zone 0x30001500)) mm := Sub.trans (by decide) hm
  unfold testEnableEff
  repeat' first
    | (intro x; refine Kept.bind (s0 := s0) (m := mm) (x := x) ?_ ?_; subst x; rotate_left; clear_value x; intro _)
    | (intro y; clear_value y)
    | intro _
    | with_reducible assumption
    | with_reducible lift_lets -underBinder
    | with_reducible apply State.endTest_kept hm
    | with_reducible refine State.wr_kept ?_ ?_
    | exact Sub.bit (Sub.trans (by decide) hm)
    | (refine Sub.from (b := 0x30001500) kz ?_; (try simp only [key, bk, chk]); omega)
    | with_reducible apply Kept.ite
    | with_reducible apply EffKept.ite
    | with_reducible split
    | split
    | (refine ⟨fun s h => ?_⟩; dsimp -zeta only)
    | dsimp -zeta only

end Sys2Proof.Machine
end

