-- ==== Sys2Proof/Laws/KeptDrivers.lean ====
section
/-! SUPPORT. What the operations of Machine/Drivers.lean may change (Safety.lean, Kept): one lemma for each. -/

set_option linter.all false

namespace Sys2Proof.Machine

theorem State.blockDrivers_kept {mm : Nat} {s0 s : State} (hm : Sub 0x7ffffffffffc00000000000e124 mm) (h : Kept mm s0 s) : Kept mm s0 (State.blockDrivers s) := by
  have k0 : Sub 0x0 mm := Sub.trans (by decide) hm
  unfold State.blockDrivers
  repeat' first
    | (intro x; refine Kept.bind (s0 := s0) (m := mm) (x := x) ?_ ?_; subst x; rotate_left; clear_value x; intro _)
    | (intro y; clear_value y)
    | intro _
    | with_reducible assumption
    | with_reducible lift_lets -underBinder
    | with_reducible apply State.each_kept k0
    | with_reducible apply State.blockBatch_kept hm
    | with_reducible apply Kept.ite
    | with_reducible split
    | split

theorem State.senseSupply_kept {mm : Nat} {s0 s : State} {i mv : Nat} (hm : Sub 0x400 mm) (h : Kept mm s0 s) : Kept mm s0 (State.senseSupply i mv s) := by
  unfold State.senseSupply
  repeat' first
    | (intro x; refine Kept.bind (s0 := s0) (m := mm) (x := x) ?_ ?_; subst x; rotate_left; clear_value x; intro _)
    | (intro y; clear_value y)
    | intro _
    | with_reducible assumption
    | with_reducible lift_lets -underBinder
    | with_reducible apply Kept.ite
    | with_reducible split
    | split
    | with_reducible apply Kept.upd_aux hm

theorem State.supplyFault_kept {mm : Nat} {s0 s : State} {sub bit cnt mv : Nat} (hm : Sub 0x7ffffffffffc00000000000e524 mm) (h : Kept mm s0 s) : Kept mm s0 (State.supplyFault sub bit cnt mv s) := by
  have k0 : Sub 0x400 mm := Sub.trans (by decide) hm
  have k1 : Sub 0x7ffffffffffc00000000000e124 mm := Sub.trans (by decide) hm
  have kz : Sub (2 ^ 107 - 2 ^ (20 + zone 0x31060000)) mm := Sub.trans (by decide) hm
  unfold State.supplyFault
  repeat' first
    | (intro x; refine Kept.bind (s0 := s0) (m := mm) (x := x) ?_ ?_; subst x; rotate_left; clear_value x; intro _)
    | (intro y; clear_value y)
    | intro _
    | with_reducible assumption
    | with_reducible lift_lets -underBinder
    | with_reducible apply State.senseSupply_kept k0
    | with_reducible apply State.blockDrivers_kept k1
    | with_reducible refine State.inc_kept ?_ ?_
    | with_reducible refine State.setBit_kept ?_ ?_
    | exact Sub.bit (Sub.trans (by decide) hm)
    | (refine Sub.from (b := 0x31060000) kz ?_; (try simp only [key, bk]); omega)
    | with_reducible apply Kept.ite
    | with_reducible split
    | split

theorem State.supplyStatus_kept {mm : Nat} {s0 s : State} {sub bit : Nat} {v : Bool} {mv : Nat} (hm : Sub 0x10000000000000400 mm) (h : Kept mm s0 s) : Kept mm s0 (State.supplyStatus sub bit v mv s) := by
  have k0 : Sub 0x400 mm := Sub.trans (by decide) hm
  unfold State.supplyStatus
  repeat' first
    | (intro x; refine Kept.bind (s0 := s0) (m := mm) (x := x) ?_ ?_; subst x; rotate_left; clear_value x; intro _)
    | (intro y; clear_value y)
    | intro _
    | with_reducible assumption
    | with_reducible lift_lets -underBinder
    | with_reducible apply State.senseSupply_kept k0
    | with_reducible refine State.setBit_kept ?_ ?_
    | exact Sub.bit (Sub.trans (by decide) hm)
    | with_reducible apply Kept.ite
    | with_reducible split
    | split

theorem State.blankingEnd_kept {mm : Nat} {s0 s : State} {d : Nat} {high : Bool} (hm : Sub 0x400 mm) (h : Kept mm s0 s) : Kept mm s0 (State.blankingEnd d high s) := by
  unfold State.blankingEnd
  repeat' first
    | (intro x; refine Kept.bind (s0 := s0) (m := mm) (x := x) ?_ ?_; subst x; rotate_left; clear_value x; intro _)
    | (intro y; clear_value y)
    | intro _
    | with_reducible assumption
    | with_reducible lift_lets -underBinder
    | with_reducible apply Kept.ite
    | with_reducible split
    | split
    | with_reducible apply Kept.upd_aux hm

theorem State.shortEvent_kept {mm : Nat} {s0 s : State} {b d side : Nat} (hm : Sub 0x7fffd000000000000000000e004 mm) (h : Kept mm s0 s) : Kept mm s0 (State.shortEvent b d side s) := by
  have k0 : Sub 0x4000 mm := Sub.trans (by decide) hm
  have k1 : Sub 0x4 mm := Sub.trans (by decide) hm
  have k2 : Sub 0x7fffd000000000000000000e000 mm := Sub.trans (by decide) hm
  unfold State.shortEvent
  repeat' first
    | (intro x; refine Kept.bind (s0 := s0) (m := mm) (x := x) ?_ ?_; subst x; rotate_left; clear_value x; intro _)
    | (intro y; clear_value y)
    | intro _
    | with_reducible assumption
    | with_reducible lift_lets -underBinder
    | with_reducible apply State.amendEvent_kept k0
    | with_reducible apply State.modBatch_kept k1
    | with_reducible apply State.logEvent_kept k2
    | with_reducible apply Kept.ite
    | with_reducible split
    | split

theorem State.driverShort_kept {mm : Nat} {s0 s : State} {d : Nat} {x : DrainSense} (hm : Sub 0x7ffffffffffc00000000000e524 mm) (h : Kept mm s0 s) : Kept mm s0 (State.driverShort d x s) := by
  have k0 : Sub 0x400 mm := Sub.trans (by decide) hm
  have k1 : Sub 0x7ffffffffffc000000000000100 mm := Sub.trans (by decide) hm
  have k2 : Sub 0x7fffd000000000000000000e000 mm := Sub.trans (by decide) hm
  have k3 : Sub 0x7ffffffffffc00000000000e124 mm := Sub.trans (by decide) hm
  have k4 : Sub 0x7fffd000000000000000000e004 mm := Sub.trans (by decide) hm
  have kz : Sub (2 ^ 107 - 2 ^ (20 + zone 0x31000800)) mm := Sub.trans (by decide) hm
  unfold State.driverShort
  repeat' first
    | (intro x; refine Kept.bind (s0 := s0) (m := mm) (x := x) ?_ ?_; subst x; rotate_left; clear_value x; intro _)
    | (intro y; clear_value y)
    | intro _
    | with_reducible assumption
    | with_reducible lift_lets -underBinder
    | with_reducible apply State.senseSupply_kept k0
    | with_reducible apply State.chanOff_kept k1
    | with_reducible apply State.logEvent_kept k2
    | with_reducible apply State.blockBatch_kept k3
    | with_reducible apply State.shortEvent_kept k4
    | with_reducible refine State.inc_kept ?_ ?_
    | with_reducible refine State.setBit_kept ?_ ?_
    | with_reducible refine State.wr_kept ?_ ?_
    | exact Sub.bit (Sub.trans (by decide) hm)
    | (refine Sub.from (b := 0x31000800) kz ?_; (try simp only [key, bk, xk]); omega)
    | with_reducible apply Kept.ite
    | with_reducible split
    | split

theorem driverClearEff_kept {mm : Nat} {s0 : State} {d : Nat} (hm : Sub 0x7ffffffffff8000000000000000 mm) : EffKept mm s0 (driverClearEff d) := by
  have kz : Sub (2 ^ 107 - 2 ^ (20 + zone 0x31000800)) mm := Sub.trans (by decide) hm
  unfold driverClearEff
  repeat' first
    | (intro x; refine Kept.bind (s0 := s0) (m := mm) (x := x) ?_ ?_; subst x; rotate_left; clear_value x; intro _)
    | (intro y; clear_value y)
    | intro _
    | with_reducible assumption
    | with_reducible lift_lets -underBinder
    | with_reducible refine State.setBit_kept ?_ ?_
    | exact Sub.bit (Sub.trans (by decide) hm)
    | (refine Sub.from (b := 0x31000800) kz ?_; (try simp only [key, bk, xk]); omega)
    | with_reducible apply Kept.ite
    | with_reducible apply EffKept.ite
    | with_reducible split
    | split
    | (refine ⟨fun s h => ?_⟩; dsimp -zeta only)
    | dsimp -zeta only

theorem State.diagEnd_kept {mm : Nat} {s0 s : State} {d res : Nat} (hm : Sub 0x7ffffffffffc00000000000e524 mm) (h : Kept mm s0 s) : Kept mm s0 (State.diagEnd d res s) := by
  have k0 : Sub 0x7ffffffffffc00000000000e124 mm := Sub.trans (by decide) hm
  have k1 : Sub 0x400 mm := Sub.trans (by decide) hm
  have kz : Sub (2 ^ 107 - 2 ^ (20 + zone 0x31000800)) mm := Sub.trans (by decide) hm
  unfold State.diagEnd
  repeat' first
    | (intro x; refine Kept.bind (s0 := s0) (m := mm) (x := x) ?_ ?_; subst x; rotate_left; clear_value x; intro _)
    | (intro y; clear_value y)
    | intro _
    | with_reducible assumption
    | with_reducible lift_lets -underBinder
    | with_reducible apply State.faultBatch_kept k0
    | with_reducible refine State.setBit_kept ?_ ?_
    | with_reducible refine State.wr_kept ?_ ?_
    | exact Sub.bit (Sub.trans (by decide) hm)
    | (refine Sub.from (b := 0x31000800) kz ?_; (try simp only [key, bk, xk]); omega)
    | with_reducible apply Kept.ite
    | with_reducible split
    | split
    | with_reducible apply Kept.upd_aux k1

theorem State.diagStart_kept {mm : Nat} {s0 s : State} {d : Nat} (hm : Sub 0x7ffffffffffc00000000000e524 mm) (h : Kept mm s0 s) : Kept mm s0 (State.diagStart d s) := by
  have k0 : Sub 0x400 mm := Sub.trans (by decide) hm
  have kz : Sub (2 ^ 107 - 2 ^ (20 + zone 0x31000800)) mm := Sub.trans (by decide) hm
  unfold State.diagStart
  repeat' first
    | (intro x; refine Kept.bind (s0 := s0) (m := mm) (x := x) ?_ ?_; subst x; rotate_left; clear_value x; intro _)
    | (intro y; clear_value y)
    | intro _
    | with_reducible assumption
    | with_reducible lift_lets -underBinder
    | with_reducible apply State.diagEnd_kept hm
    | with_reducible refine State.setBit_kept ?_ ?_
    | with_reducible refine State.wr_kept ?_ ?_
    | exact Sub.bit (Sub.trans (by decide) hm)
    | (refine Sub.from (b := 0x31000800) kz ?_; (try simp only [key, bk, xk]); omega)
    | with_reducible apply Kept.ite
    | with_reducible split
    | split
    | with_reducible apply Kept.upd_aux k0

theorem State.diagNext_kept {mm : Nat} {s0 s : State} {k : Nat} (hm : Sub 0x7ffffffffffc00000000000e524 mm) (h : Kept mm s0 s) : Kept mm s0 (State.diagNext k s) := by
  have k0 : Sub 0x400 mm := Sub.trans (by decide) hm
  induction k generalizing s with
  | zero => exact h
  | succ k ih =>
    unfold State.diagNext
    repeat' first
      | (intro x; refine Kept.bind (s0 := s0) (m := mm) (x := x) ?_ ?_; subst x; rotate_left; clear_value x; intro _)
      | (intro y; clear_value y)
      | intro _
      | with_reducible assumption
      | with_reducible lift_lets -underBinder
      | with_reducible apply State.diagStart_kept hm
      | with_reducible apply Kept.ite
      | apply ih
      | with_reducible split
      | split
      | with_reducible apply Kept.upd_aux k0

theorem State.diagQueue_kept {mm : Nat} {s0 s : State} {l : List Nat} {pre : Bool} (hm : Sub 0x7ffffffffffc00000000000e524 mm) (h : Kept mm s0 s) : Kept mm s0 (State.diagQueue l pre s) := by
  have k0 : Sub 0x0 mm := Sub.trans (by decide) hm
  have k1 : Sub 0x400 mm := Sub.trans (by decide) hm
  have kz : Sub (2 ^ 107 - 2 ^ (20 + zone 0x31000b00)) mm := Sub.trans (by decide) hm
  unfold State.diagQueue
  repeat' first
    | (intro x; refine Kept.bind (s0 := s0) (m := mm) (x := x) ?_ ?_; subst x; rotate_left; clear_value x; intro _)
    | (intro y; clear_value y)
    | intro _
    | with_reducible assumption
    | with_reducible lift_lets -underBinder
    | with_reducible apply State.each_kept k0
    | with_reducible apply State.diagNext_kept hm
    | with_reducible refine State.wr_kept ?_ ?_
    | exact Sub.bit (Sub.trans (by decide) hm)
    | (refine Sub.from (b := 0x31000b00) kz ?_; (try simp only [key, bk, xk]); omega)
    | with_reducible apply Kept.ite
    | with_reducible split
    | split
    | with_reducible apply Kept.upd_aux k1

theorem diagEff_kept {mm : Nat} {s0 : State} {d : Nat} (hm : Sub 0x7ffffffffffc00000000000e524 mm) : EffKept mm s0 (diagEff d) := by
  unfold diagEff
  repeat' first
    | (intro x; refine Kept.bind (s0 := s0) (m := mm) (x := x) ?_ ?_; subst x; rotate_left; clear_value x; intro _)
    | (intro y; clear_value y)
    | intro _
    | with_reducible assumption
    | with_reducible lift_lets -underBinder
    | with_reducible apply State.diagQueue_kept hm
    | with_reducible apply Kept.ite
    | with_reducible apply EffKept.ite
    | with_reducible split
    | split
    | (refine ⟨fun s h => ?_⟩; dsimp -zeta only)
    | dsimp -zeta only

theorem State.diagStep_kept {mm : Nat} {s0 s : State} {d v vp bridge : Nat} (hm : Sub 0x7ffffffffffc00000000000e524 mm) (h : Kept mm s0 s) : Kept mm s0 (State.diagStep d v vp bridge s) := by
  have k0 : Sub 0x400 mm := Sub.trans (by decide) hm
  have kz : Sub (2 ^ 107 - 2 ^ (20 + zone 0x31000c00)) mm := Sub.trans (by decide) hm
  unfold State.diagStep
  repeat' first
    | (intro x; refine Kept.bind (s0 := s0) (m := mm) (x := x) ?_ ?_; subst x; rotate_left; clear_value x; intro _)
    | (intro y; have w_ : Nat := y; clear w_; subst y)
    | (intro y; clear_value y)
    | intro _
    | with_reducible assumption
    | with_reducible lift_lets -underBinder
    | with_reducible apply State.senseSupply_kept k0
    | with_reducible apply State.diagEnd_kept hm
    | with_reducible apply State.diagNext_kept hm
    | with_reducible refine State.wr_kept ?_ ?_
    | exact Sub.bit (Sub.trans (by decide) hm)
    | (refine Sub.from (b := 0x31000c00) kz ?_; (try simp only [key, bk, xk]); omega)
    | (refine Sub.from (b := 0x31000c00) kz ?_; (try simp only [key, bk, xk]); split <;> omega)
    | with_reducible apply Kept.ite
    | with_reducible split
    | split
    | with_reducible apply Kept.upd_aux k0

theorem State.diagAbandon_kept {mm : Nat} {s0 s : State} (hm : Sub 0x7ffffffffff8000000000000400 mm) (h : Kept mm s0 s) : Kept mm s0 (State.diagAbandon s) := by
  have k0 : Sub 0x0 mm := Sub.trans (by decide) hm
  have k1 : Sub 0x400 mm := Sub.trans (by decide) hm
  have kz : Sub (2 ^ 107 - 2 ^ (20 + zone 0x31000800)) mm := Sub.trans (by decide) hm
  unfold State.diagAbandon
  repeat' first
    | (intro x; refine Kept.bind (s0 := s0) (m := mm) (x := x) ?_ ?_; subst x; rotate_left; clear_value x; intro _)
    | (intro y; clear_value y)
    | intro _
    | with_reducible assumption
    | with_reducible lift_lets -underBinder
    | with_reducible apply State.each_kept k0
    | with_reducible refine State.setBit_kept ?_ ?_
    | exact Sub.bit (Sub.trans (by decide) hm)
    | (refine Sub.from (b := 0x31000800) kz ?_; (try simp only [key, bk, xk]); omega)
    | with_reducible apply Kept.ite
    | with_reducible split
    | split
    | with_reducible apply Kept.upd_aux k1

theorem State.diagWatch_kept {mm : Nat} {s0 s : State} (hm : Sub 0x7ffffffffffc00000000000e524 mm) (h : Kept mm s0 s) : Kept mm s0 (State.diagWatch s) := by
  unfold State.diagWatch
  repeat' first
    | (intro x; refine Kept.bind (s0 := s0) (m := mm) (x := x) ?_ ?_; subst x; rotate_left; clear_value x; intro _)
    | (intro y; clear_value y)
    | intro _
    | with_reducible assumption
    | with_reducible lift_lets -underBinder
    | with_reducible apply State.diagEnd_kept hm
    | with_reducible apply State.diagNext_kept hm
    | with_reducible apply Kept.ite
    | with_reducible split
    | split

theorem State.vgateLow_kept {mm : Nat} {s0 s : State} {mv : Nat} (hm : Sub 0x7ffffffffffc00000000000e524 mm) (h : Kept mm s0 s) : Kept mm s0 (State.vgateLow mv s) := by
  have k0 : Sub 0x0 mm := Sub.trans (by decide) hm
  unfold State.vgateLow
  repeat' first
    | (intro x; refine Kept.bind (s0 := s0) (m := mm) (x := x) ?_ ?_; subst x; rotate_left; clear_value x; intro _)
    | (intro y; clear_value y)
    | intro _
    | with_reducible assumption
    | with_reducible lift_lets -underBinder
    | with_reducible apply State.when_kept k0
    | with_reducible apply State.supplyFault_kept hm
    | with_reducible apply State.diagWatch_kept hm
    | with_reducible apply Kept.ite
    | with_reducible split
    | split

theorem State.vgateRecovered_kept {mm : Nat} {s0 s : State} {mv : Nat} (hm : Sub 0x10000000000000400 mm) (h : Kept mm s0 s) : Kept mm s0 (State.vgateRecovered mv s) := by
  have k0 : Sub 0x0 mm := Sub.trans (by decide) hm
  unfold State.vgateRecovered
  repeat' first
    | (intro x; refine Kept.bind (s0 := s0) (m := mm) (x := x) ?_ ?_; subst x; rotate_left; clear_value x; intro _)
    | (intro y; clear_value y)
    | intro _
    | with_reducible assumption
    | with_reducible lift_lets -underBinder
    | with_reducible apply State.when_kept k0
    | with_reducible apply State.supplyStatus_kept hm
    | with_reducible apply Kept.ite
    | with_reducible split
    | split

theorem State.vbridgeOver_kept {mm : Nat} {s0 s : State} {mv : Nat} (hm : Sub 0x7ffffffffffc00000000000e524 mm) (h : Kept mm s0 s) : Kept mm s0 (State.vbridgeOver mv s) := by
  have k0 : Sub 0x0 mm := Sub.trans (by decide) hm
  unfold State.vbridgeOver
  repeat' first
    | (intro x; refine Kept.bind (s0 := s0) (m := mm) (x := x) ?_ ?_; subst x; rotate_left; clear_value x; intro _)
    | (intro y; clear_value y)
    | intro _
    | with_reducible assumption
    | with_reducible lift_lets -underBinder
    | with_reducible apply State.when_kept k0
    | with_reducible apply State.supplyFault_kept hm
    | with_reducible apply State.diagWatch_kept hm
    | with_reducible apply Kept.ite
    | with_reducible split
    | split

theorem State.vbridgeOverClear_kept {mm : Nat} {s0 s : State} {mv : Nat} (hm : Sub 0x10000000000000400 mm) (h : Kept mm s0 s) : Kept mm s0 (State.vbridgeOverClear mv s) := by
  have k0 : Sub 0x0 mm := Sub.trans (by decide) hm
  unfold State.vbridgeOverClear
  repeat' first
    | (intro x; refine Kept.bind (s0 := s0) (m := mm) (x := x) ?_ ?_; subst x; rotate_left; clear_value x; intro _)
    | (intro y; clear_value y)
    | intro _
    | with_reducible assumption
    | with_reducible lift_lets -underBinder
    | with_reducible apply State.when_kept k0
    | with_reducible apply State.supplyStatus_kept hm
    | with_reducible apply Kept.ite
    | with_reducible split
    | split

theorem State.vbridgeLow_kept {mm : Nat} {s0 s : State} {mv : Nat} (hm : Sub 0x7ffffffffffc00000000000e524 mm) (h : Kept mm s0 s) : Kept mm s0 (State.vbridgeLow mv s) := by
  have k0 : Sub 0x0 mm := Sub.trans (by decide) hm
  have k1 : Sub 0x10000000000000400 mm := Sub.trans (by decide) hm
  unfold State.vbridgeLow
  repeat' first
    | (intro x; refine Kept.bind (s0 := s0) (m := mm) (x := x) ?_ ?_; subst x; rotate_left; clear_value x; intro _)
    | (intro y; clear_value y)
    | intro _
    | with_reducible assumption
    | with_reducible lift_lets -underBinder
    | with_reducible apply State.when_kept k0
    | with_reducible apply State.supplyStatus_kept k1
    | with_reducible apply State.diagWatch_kept hm
    | with_reducible apply Kept.ite
    | with_reducible split
    | split

theorem State.vbridgeLowClear_kept {mm : Nat} {s0 s : State} {mv : Nat} (hm : Sub 0x10000000000000400 mm) (h : Kept mm s0 s) : Kept mm s0 (State.vbridgeLowClear mv s) := by
  have k0 : Sub 0x0 mm := Sub.trans (by decide) hm
  unfold State.vbridgeLowClear
  repeat' first
    | (intro x; refine Kept.bind (s0 := s0) (m := mm) (x := x) ?_ ?_; subst x; rotate_left; clear_value x; intro _)
    | (intro y; clear_value y)
    | intro _
    | with_reducible assumption
    | with_reducible lift_lets -underBinder
    | with_reducible apply State.when_kept k0
    | with_reducible apply State.supplyStatus_kept hm
    | with_reducible apply Kept.ite
    | with_reducible split
    | split

theorem State.prestart_kept {mm : Nat} {s0 s : State} {b : Nat} (hm : Sub 0x7ffffffffffc00000000000e524 mm) (h : Kept mm s0 s) : Kept mm s0 (State.prestart b s) := by
  unfold State.prestart
  repeat' first
    | (intro x; refine Kept.bind (s0 := s0) (m := mm) (x := x) ?_ ?_; subst x; rotate_left; clear_value x; intro _)
    | (intro y; clear_value y)
    | intro _
    | with_reducible assumption
    | with_reducible lift_lets -underBinder
    | with_reducible apply State.diagQueue_kept hm
    | with_reducible apply Kept.ite
    | with_reducible split
    | split

end Sys2Proof.Machine
end

