-- ==== Sys2Proof/Laws/KeptCycle.lean ====
section
/-! SUPPORT. What the operations of Machine/Cycle.lean may change (Safety.lean, Kept): one lemma for each. -/

set_option linter.all false

namespace Sys2Proof.Machine

theorem State.endRide_kept {mm : Nat} {s0 s : State} {b : Nat} (hm : Sub 0x7ffffffff000000000000000000 mm) (h : Kept mm s0 s) : Kept mm s0 (State.endRide b s) := by
  have kz : Sub (2 ^ 107 - 2 ^ (20 + zone 0x40120500)) mm := Sub.trans (by decide) hm
  unfold State.endRide
  repeat' first
    | (intro x; refine Kept.bind (s0 := s0) (m := mm) (x := x) ?_ ?_; subst x; rotate_left; clear_value x; intro _)
    | (intro y; clear_value y)
    | intro _
    | with_reducible assumption
    | with_reducible lift_lets -underBinder
    | with_reducible refine State.setBit_kept ?_ ?_
    | exact Sub.bit (Sub.trans (by decide) hm)
    | (refine Sub.from (b := 0x40120500) kz ?_; (try simp only [key, bk]); omega)
    | with_reducible apply Kept.ite
    | with_reducible split
    | split

theorem State.superviseMarks_kept {mm : Nat} {s0 s : State} {b new raised first : Nat} (hm : Sub 0x7ffffffff00000000000000e000 mm) (h : Kept mm s0 s) : Kept mm s0 (State.superviseMarks b new raised first s) := by
  have k0 : Sub 0x7fffd000000000000000000e000 mm := Sub.trans (by decide) hm
  have kz : Sub (2 ^ 107 - 2 ^ (20 + zone 0x40120500)) mm := Sub.trans (by decide) hm
  unfold State.superviseMarks
  repeat' first
    | (intro x; refine Kept.bind (s0 := s0) (m := mm) (x := x) ?_ ?_; subst x; rotate_left; clear_value x; intro _)
    | (intro y; have w_ : Nat := y; clear w_; subst y)
    | (intro y; clear_value y)
    | intro _
    | with_reducible assumption
    | with_reducible lift_lets -underBinder
    | with_reducible apply State.logEvent_kept k0
    | with_reducible refine State.inc_kept ?_ ?_
    | with_reducible refine State.wr_kept ?_ ?_
    | exact Sub.bit (Sub.trans (by decide) hm)
    | (refine Sub.from (b := 0x40120500) kz ?_; (try simp only [key, bk]); omega)
    | with_reducible apply Kept.ite
    | with_reducible split
    | split

theorem State.superviseLoss_kept {mm : Nat} {s0 s : State} {b : Nat} {cur volt : Bool} (hm : Sub 0x7ffffffffffc00000000000e124 mm) (h : Kept mm s0 s) : Kept mm s0 (State.superviseLoss b cur volt s) := by
  have k0 : Sub 0x7ffffffff000000000000000000 mm := Sub.trans (by decide) hm
  have k1 : Sub 0x4 mm := Sub.trans (by decide) hm
  have kz : Sub (2 ^ 107 - 2 ^ (20 + zone 0x40120500)) mm := Sub.trans (by decide) hm
  unfold State.superviseLoss
  repeat' first
    | (intro x; refine Kept.bind (s0 := s0) (m := mm) (x := x) ?_ ?_; subst x; rotate_left; clear_value x; intro _)
    | (intro y; have w_ : Nat := y; clear w_; subst y)
    | (intro y; clear_value y)
    | intro _
    | with_reducible assumption
    | with_reducible lift_lets -underBinder
    | with_reducible apply State.endRide_kept k0
    | with_reducible apply State.blockBatch_kept hm
    | with_reducible apply State.modBatch_kept k1
    | with_reducible refine State.inc_kept ?_ ?_
    | with_reducible refine State.setBit_kept ?_ ?_
    | exact Sub.bit (Sub.trans (by decide) hm)
    | (refine Sub.from (b := 0x40120500) kz ?_; (try simp only [key, bk]); omega)
    | with_reducible apply Kept.ite
    | with_reducible split
    | split

theorem State.supervise_kept {mm : Nat} {s0 s : State} {b : Nat} {r : Recipe} (hm : Sub 0x7ffffffffffc00000000000e124 mm) (h : Kept mm s0 s) : Kept mm s0 (State.supervise b r s) := by
  have k0 : Sub 0x4 mm := Sub.trans (by decide) hm
  have k1 : Sub 0x7ffffffff00000000000000e000 mm := Sub.trans (by decide) hm
  have k2 : Sub 0x7ffffffff000000000000000000 mm := Sub.trans (by decide) hm
  have k3 : Sub 0x7fffffc00000000000000000004 mm := Sub.trans (by decide) hm
  unfold State.supervise
  repeat' first
    | (intro x; refine Kept.bind (s0 := s0) (m := mm) (x := x) ?_ ?_; subst x; rotate_left; clear_value x; intro _)
    | (intro y; clear_value y)
    | intro _
    | with_reducible assumption
    | with_reducible lift_lets -underBinder
    | with_reducible apply State.modBatch_kept k0
    | with_reducible apply State.superviseMarks_kept k1
    | with_reducible apply State.endRide_kept k2
    | with_reducible apply State.superviseLoss_kept hm
    | with_reducible apply State.demand_kept k3
    | with_reducible apply Kept.ite
    | with_reducible split
    | split
    | with_reducible apply Kept.foldl_snd
    | with_reducible apply Kept.foldl_fst
    | with_reducible apply Kept.foldl

theorem State.openLoopTimeout_kept {mm : Nat} {s0 s : State} {b : Nat} (hm : Sub 0x7ffffffffffc00000000000e124 mm) (h : Kept mm s0 s) : Kept mm s0 (State.openLoopTimeout b s) := by
  have k0 : Sub 0x7ffffffff000000000000000000 mm := Sub.trans (by decide) hm
  have kz : Sub (2 ^ 107 - 2 ^ (20 + zone 0x40120a00)) mm := Sub.trans (by decide) hm
  unfold State.openLoopTimeout
  repeat' first
    | (intro x; refine Kept.bind (s0 := s0) (m := mm) (x := x) ?_ ?_; subst x; rotate_left; clear_value x; intro _)
    | (intro y; clear_value y)
    | intro _
    | with_reducible assumption
    | with_reducible lift_lets -underBinder
    | with_reducible apply State.endRide_kept k0
    | with_reducible apply State.blockBatch_kept hm
    | with_reducible refine State.inc_kept ?_ ?_
    | exact Sub.bit (Sub.trans (by decide) hm)
    | (refine Sub.from (b := 0x40120a00) kz ?_; (try simp only [key, bk]); omega)
    | with_reducible apply Kept.ite
    | with_reducible split
    | split

theorem State.reclose_kept {mm : Nat} {s0 s : State} {b : Nat} (hm : Sub 0x7ffffffff000000000000000018 mm) (h : Kept mm s0 s) : Kept mm s0 (State.reclose b s) := by
  have k0 : Sub 0x7ffffffff000000000000000000 mm := Sub.trans (by decide) hm
  have k1 : Sub 0x0 mm := Sub.trans (by decide) hm
  have k2 : Sub 0x8 mm := Sub.trans (by decide) hm
  have k3 : Sub 0x10 mm := Sub.trans (by decide) hm
  unfold State.reclose
  repeat' first
    | (intro x; refine Kept.bind (s0 := s0) (m := mm) (x := x) ?_ ?_; subst x; rotate_left; clear_value x; intro _)
    | (intro y; clear_value y)
    | intro _
    | with_reducible assumption
    | with_reducible lift_lets -underBinder
    | with_reducible apply State.endRide_kept k0
    | with_reducible apply State.each_kept k1
    | with_reducible apply State.setFx_kept k2
    | with_reducible apply State.setFl_kept k3
    | with_reducible apply Kept.ite
    | with_reducible split
    | split

theorem State.syncAlarm_kept {mm : Nat} {s0 s : State} {b : Nat} (hm : Sub 0x7ffffffff000000000000000000 mm) (h : Kept mm s0 s) : Kept mm s0 (State.syncAlarm b s) := by
  have kz : Sub (2 ^ 107 - 2 ^ (20 + zone 0x40120500)) mm := Sub.trans (by decide) hm
  unfold State.syncAlarm
  repeat' first
    | (intro x; refine Kept.bind (s0 := s0) (m := mm) (x := x) ?_ ?_; subst x; rotate_left; clear_value x; intro _)
    | (intro y; clear_value y)
    | intro _
    | with_reducible assumption
    | with_reducible lift_lets -underBinder
    | with_reducible refine State.setBit_kept ?_ ?_
    | exact Sub.bit (Sub.trans (by decide) hm)
    | (refine Sub.from (b := 0x40120500) kz ?_; (try simp only [key, bk]); omega)
    | with_reducible apply Kept.ite
    | with_reducible split
    | split

theorem State.feTick_kept {mm : Nat} {s0 s : State} {sl : Nat} (hm : Sub 0x7ffffffff00000000000000001c mm) (h : Kept mm s0 s) : Kept mm s0 (State.feTick sl s) := by
  have k0 : Sub 0x7fffffc00000000000000000004 mm := Sub.trans (by decide) hm
  have k1 : Sub 0x8 mm := Sub.trans (by decide) hm
  have k2 : Sub 0x7ffffffff000000000000000000 mm := Sub.trans (by decide) hm
  have k3 : Sub 0x10 mm := Sub.trans (by decide) hm
  have kz : Sub (2 ^ 107 - 2 ^ (20 + zone 0x60000000)) mm := Sub.trans (by decide) hm
  unfold State.feTick
  repeat' first
    | (intro x; refine Kept.bind (s0 := s0) (m := mm) (x := x) ?_ ?_; subst x; rotate_left; clear_value x; intro _)
    | (intro y; have w_ : Nat := y; clear w_; subst y)
    | (intro y; have w_ : Nat → Bool → Nat → State → State := y; clear w_; subst y)
    | (intro y; clear_value y)
    | intro _
    | with_reducible assumption
    | with_reducible lift_lets -underBinder
    | with_reducible apply State.demand_kept k0
    | with_reducible apply State.setFx_kept k1
    | with_reducible apply State.syncAlarm_kept k2
    | with_reducible apply State.setFl_kept k3
    | with_reducible refine State.inc_kept ?_ ?_
    | exact Sub.bit (Sub.trans (by decide) hm)
    | (refine Sub.from (b := 0x60000000) kz ?_; (try simp only [key, bk]); omega)
    | (refine Sub.from (b := 0x60000000) kz ?_; (try simp only [key, bk]); split <;> omega)
    | with_reducible apply Kept.ite
    | with_reducible split
    | split
    | dsimp -zeta only

theorem State.commitFixed_kept {mm : Nat} {s0 s : State} {r : Recipe} {w : Work} {i : Nat} {f : FixedState} (hm : Sub 0x7ffffffff00000000000000001c mm) (h : Kept mm s0 s) : Kept mm s0 (State.commitFixed r w i f s) := by
  have k0 : Sub 0x8 mm := Sub.trans (by decide) hm
  have kz : Sub (2 ^ 107 - 2 ^ (20 + zone 0x60000900)) mm := Sub.trans (by decide) hm
  unfold State.commitFixed
  repeat' first
    | (intro x; refine Kept.bind (s0 := s0) (m := mm) (x := x) ?_ ?_; subst x; rotate_left; clear_value x; intro _)
    | (intro y; have w_ : Nat := y; clear w_; subst y)
    | (intro y; clear_value y)
    | intro _
    | with_reducible assumption
    | with_reducible lift_lets -underBinder
    | with_reducible apply State.feTick_kept hm
    | with_reducible apply State.setFx_kept k0
    | with_reducible refine State.inc_kept ?_ ?_
    | exact Sub.bit (Sub.trans (by decide) hm)
    | (refine Sub.from (b := 0x60000900) kz ?_; (try simp only [key, bk]); omega)
    | with_reducible apply Kept.ite
    | with_reducible split
    | split

theorem State.commitFloat_kept {mm : Nat} {s0 s : State} {r : Recipe} {w : Work} {i : Nat} {f : FloatState} (hm : Sub 0x7ffffffff00000000000000001c mm) (h : Kept mm s0 s) : Kept mm s0 (State.commitFloat r w i f s) := by
  have k0 : Sub 0x10 mm := Sub.trans (by decide) hm
  have kz : Sub (2 ^ 107 - 2 ^ (20 + zone 0x64000900)) mm := Sub.trans (by decide) hm
  unfold State.commitFloat
  repeat' first
    | (intro x; refine Kept.bind (s0 := s0) (m := mm) (x := x) ?_ ?_; subst x; rotate_left; clear_value x; intro _)
    | (intro y; have w_ : Nat := y; clear w_; subst y)
    | (intro y; clear_value y)
    | intro _
    | with_reducible assumption
    | with_reducible lift_lets -underBinder
    | with_reducible apply State.setFl_kept k0
    | with_reducible apply State.feTick_kept hm
    | with_reducible refine State.inc_kept ?_ ?_
    | exact Sub.bit (Sub.trans (by decide) hm)
    | (refine Sub.from (b := 0x64000900) kz ?_; (try simp only [key, bk]); omega)
    | with_reducible apply Kept.ite
    | with_reducible split
    | split

theorem State.measurements_kept {mm : Nat} {s0 s : State} {b : Nat} {r : Recipe} {w : Work} (hm : Sub 0x7ffffffff000000000000000000 mm) (h : Kept mm s0 s) : Kept mm s0 (State.measurements b r w s) := by
  have kz : Sub (2 ^ 107 - 2 ^ (20 + zone 0x40060600)) mm := Sub.trans (by decide) hm
  unfold State.measurements
  repeat' first
    | (intro x; refine Kept.bind (s0 := s0) (m := mm) (x := x) ?_ ?_; subst x; rotate_left; clear_value x; intro _)
    | (intro y; clear_value y)
    | intro _
    | with_reducible assumption
    | with_reducible lift_lets -underBinder
    | with_reducible refine State.inc_kept ?_ ?_
    | with_reducible refine State.wr_kept ?_ ?_
    | with_reducible refine State.wrF_kept ?_ ?_
    | exact Sub.bit (Sub.trans (by decide) hm)
    | (refine Sub.from (b := 0x40060600) kz ?_; (try simp only [key, bk]); omega)
    | with_reducible apply Kept.ite
    | with_reducible split
    | split

theorem State.estimatorEntries_kept {mm : Nat} {s0 s : State} {b : Nat} {w : Work} (hm : Sub 0x7ffffffff000000000000000004 mm) (h : Kept mm s0 s) : Kept mm s0 (State.estimatorEntries b w s) := by
  have k0 : Sub 0x4 mm := Sub.trans (by decide) hm
  have kz : Sub (2 ^ 107 - 2 ^ (20 + zone 0x40101200)) mm := Sub.trans (by decide) hm
  unfold State.estimatorEntries
  repeat' first
    | (intro x; refine Kept.bind (s0 := s0) (m := mm) (x := x) ?_ ?_; subst x; rotate_left; clear_value x; intro _)
    | (intro y; clear_value y)
    | intro _
    | with_reducible assumption
    | with_reducible lift_lets -underBinder
    | with_reducible apply State.modBatch_kept k0
    | with_reducible refine State.inc_kept ?_ ?_
    | with_reducible refine State.wr_kept ?_ ?_
    | with_reducible refine State.wrF_kept ?_ ?_
    | exact Sub.bit (Sub.trans (by decide) hm)
    | (refine Sub.from (b := 0x40101200) kz ?_; (try simp only [key, bk]); omega)
    | with_reducible apply Kept.ite
    | with_reducible split
    | split

theorem State.limiterRun_kept {mm : Nat} {s0 s : State} {b : Nat} {w : Work} (hm : Sub 0x7ffffffff000000000000000024 mm) (h : Kept mm s0 s) : Kept mm s0 (State.limiterRun b w s) := by
  have k0 : Sub 0x4 mm := Sub.trans (by decide) hm
  have k1 : Sub 0x7fffffc00000000000000000004 mm := Sub.trans (by decide) hm
  have k2 : Sub 0x0 mm := Sub.trans (by decide) hm
  have k3 : Sub 0x7ffff8000000000000000000020 mm := Sub.trans (by decide) hm
  have kz : Sub (2 ^ 107 - 2 ^ (20 + zone 0x400b1100)) mm := Sub.trans (by decide) hm
  unfold State.limiterRun
  repeat' first
    | (intro x; refine Kept.bind (s0 := s0) (m := mm) (x := x) ?_ ?_; subst x; rotate_left; clear_value x; intro _)
    | (intro y; have w_ : Nat := y; clear w_; subst y)
    | (intro y; clear_value y)
    | intro _
    | with_reducible assumption
    | with_reducible lift_lets -underBinder
    | with_reducible apply State.modBatch_kept k0
    | with_reducible apply State.demand_kept k1
    | with_reducible apply State.withGen_kept k2
    | with_reducible apply State.rampHold_kept k3
    | with_reducible apply State.rampRelease_kept k3
    | with_reducible refine State.setBit_kept ?_ ?_
    | exact Sub.bit (Sub.trans (by decide) hm)
    | (refine Sub.from (b := 0x400b1100) kz ?_; (try simp only [key, bk]); omega)
    | with_reducible apply Kept.ite
    | with_reducible split
    | split

theorem State.stateCopySend_kept {mm : Nat} {s0 s : State} {b : Nat} {r : Recipe} {t0 : Time} {stopped : Bool} (hm : Sub 0x0 mm) (h : Kept mm s0 s) : Kept mm s0 (State.stateCopySend b r t0 stopped s) := by
  unfold State.stateCopySend
  repeat' first
    | (intro x; refine Kept.bind (s0 := s0) (m := mm) (x := x) ?_ ?_; subst x; rotate_left; clear_value x; intro _)
    | (intro y; clear_value y)
    | intro _
    | with_reducible assumption
    | with_reducible lift_lets -underBinder
    | with_reducible apply State.msg_kept hm
    | with_reducible apply Kept.ite
    | with_reducible split
    | split

theorem State.commitDuties_kept {mm : Nat} {s0 s : State} {b : Nat} {t0 : Time} {w : Work} (hm : Sub 0x104 mm) (h : Kept mm s0 s) : Kept mm s0 (State.commitDuties b t0 w s) := by
  have k0 : Sub 0x0 mm := Sub.trans (by decide) hm
  have k1 : Sub 0x100 mm := Sub.trans (by decide) hm
  have k2 : Sub 0x4 mm := Sub.trans (by decide) hm
  unfold State.commitDuties
  repeat' first
    | (intro x; refine Kept.bind (s0 := s0) (m := mm) (x := x) ?_ ?_; subst x; rotate_left; clear_value x; intro _)
    | (intro y; clear_value y)
    | intro _
    | with_reducible assumption
    | with_reducible lift_lets -underBinder
    | with_reducible apply State.each_kept k0
    | with_reducible apply State.setChan_kept k1
    | with_reducible apply State.modBatch_kept k2
    | with_reducible apply State.setBatch_kept k2
    | with_reducible apply Kept.ite
    | with_reducible split
    | split

theorem State.clearNan_kept {mm : Nat} {s0 s : State} {b : Nat} (hm : Sub 0x10 mm) (h : Kept mm s0 s) : Kept mm s0 (State.clearNan b s) := by
  have k0 : Sub 0x0 mm := Sub.trans (by decide) hm
  unfold State.clearNan
  repeat' first
    | (intro x; refine Kept.bind (s0 := s0) (m := mm) (x := x) ?_ ?_; subst x; rotate_left; clear_value x; intro _)
    | (intro y; clear_value y)
    | intro _
    | with_reducible assumption
    | with_reducible lift_lets -underBinder
    | with_reducible apply State.each_kept k0
    | with_reducible apply State.setFl_kept hm
    | with_reducible apply Kept.ite
    | with_reducible split
    | split

theorem State.commit_kept {mm : Nat} {s0 s : State} {b : Nat} {r : Recipe} {c : Cycle} (hm : Sub 0x7ffffffffffc00000000000e13c mm) (h : Kept mm s0 s) : Kept mm s0 (State.commit b r c s) := by
  have k0 : Sub 0x4 mm := Sub.trans (by decide) hm
  have k1 : Sub 0x0 mm := Sub.trans (by decide) hm
  have k2 : Sub 0x2000 mm := Sub.trans (by decide) hm
  have k3 : Sub 0x10 mm := Sub.trans (by decide) hm
  have k4 : Sub 0x7ffffffff00000000000000001c mm := Sub.trans (by decide) hm
  have k5 : Sub 0x7ffffffff000000000000000000 mm := Sub.trans (by decide) hm
  have k6 : Sub 0x7ffffffff000000000000000004 mm := Sub.trans (by decide) hm
  have k7 : Sub 0x7ffffffff000000000000000024 mm := Sub.trans (by decide) hm
  have k8 : Sub 0x104 mm := Sub.trans (by decide) hm
  have k9 : Sub 0x7ffffffffffc000000000000104 mm := Sub.trans (by decide) hm
  have k10 : Sub 0x7ffffffffffc00000000000e124 mm := Sub.trans (by decide) hm
  have kz : Sub (2 ^ 107 - 2 ^ (20 + zone 0x40130100)) mm := Sub.trans (by decide) hm
  unfold State.commit
  repeat' first
    | (intro x; refine Kept.bind (s0 := s0) (m := mm) (x := x) ?_ ?_; subst x; rotate_left; clear_value x; intro _)
    | (intro y; clear_value y)
    | intro _
    | with_reducible assumption
    | with_reducible lift_lets -underBinder
    | with_reducible apply State.modBatch_kept k0
    | with_reducible apply State.each_kept k1
    | with_reducible apply State.acqFloat_kept k2
    | with_reducible apply State.acqValue_kept k2
    | with_reducible apply State.clearNan_kept k3
    | with_reducible apply State.commitFixed_kept k4
    | with_reducible apply State.commitFloat_kept k4
    | with_reducible apply State.measurements_kept k5
    | with_reducible apply State.estimatorEntries_kept k6
    | with_reducible apply State.limiterRun_kept k7
    | with_reducible apply State.commitDuties_kept k8
    | with_reducible apply State.sealEdges_kept k9
    | with_reducible apply State.faultReaction_kept k10
    | with_reducible apply State.stateCopySend_kept k1
    | with_reducible refine State.inc_kept ?_ ?_
    | with_reducible refine State.wr_kept ?_ ?_
    | exact Sub.bit (Sub.trans (by decide) hm)
    | (refine Sub.from (b := 0x40130100) kz ?_; (try simp only [key, bk]); omega)
    | with_reducible apply Kept.ite
    | with_reducible split
    | split
    | with_reducible apply Kept.foldl_snd
    | with_reducible apply Kept.foldl_fst
    | with_reducible apply Kept.foldl

theorem State.dropCycle_kept {mm : Nat} {s0 s : State} {b : Nat} (hm : Sub 0x7ffffffffffc000000000000154 mm) (h : Kept mm s0 s) : Kept mm s0 (State.dropCycle b s) := by
  have k0 : Sub 0x40 mm := Sub.trans (by decide) hm
  have k1 : Sub 0x4 mm := Sub.trans (by decide) hm
  have k2 : Sub 0x10 mm := Sub.trans (by decide) hm
  have k3 : Sub 0x7ffffffffffc000000000000104 mm := Sub.trans (by decide) hm
  have k4 : Sub 0x0 mm := Sub.trans (by decide) hm
  unfold State.dropCycle
  repeat' first
    | (intro x; refine Kept.bind (s0 := s0) (m := mm) (x := x) ?_ ?_; subst x; rotate_left; clear_value x; intro _)
    | (intro y; clear_value y)
    | intro _
    | with_reducible assumption
    | with_reducible lift_lets -underBinder
    | with_reducible apply State.modLane_kept k0
    | with_reducible apply State.modBatch_kept k1
    | with_reducible apply State.clearNan_kept k2
    | with_reducible apply State.sealEdges_kept k3
    | with_reducible apply State.stateCopySend_kept k4
    | with_reducible apply Kept.ite
    | with_reducible split
    | split

theorem State.miss_kept {mm : Nat} {s0 s : State} {b : Nat} (hm : Sub 0x7ffffffffffc00000000000e174 mm) (h : Kept mm s0 s) : Kept mm s0 (State.miss b s) := by
  have k0 : Sub 0x7ffffffffffc000000000000154 mm := Sub.trans (by decide) hm
  have k1 : Sub 0x7ffffffffffc00000000000e124 mm := Sub.trans (by decide) hm
  have kz : Sub (2 ^ 107 - 2 ^ (20 + zone 0x40130200)) mm := Sub.trans (by decide) hm
  unfold State.miss
  repeat' first
    | (intro x; refine Kept.bind (s0 := s0) (m := mm) (x := x) ?_ ?_; subst x; rotate_left; clear_value x; intro _)
    | (intro y; clear_value y)
    | intro _
    | with_reducible assumption
    | with_reducible lift_lets -underBinder
    | with_reducible apply State.dropCycle_kept k0
    | with_reducible apply State.blockBatch_kept k1
    | with_reducible refine State.inc_kept ?_ ?_
    | with_reducible refine State.wr_kept ?_ ?_
    | exact Sub.bit (Sub.trans (by decide) hm)
    | (refine Sub.from (b := 0x40130200) kz ?_; (try simp only [key, bk]); omega)
    | with_reducible apply Kept.ite
    | with_reducible split
    | split

theorem State.deadline_kept {mm : Nat} {s0 s : State} {b : Nat} (hm : Sub 0x7ffffffffffc00000000000e174 mm) (h : Kept mm s0 s) : Kept mm s0 (State.deadline b s) := by
  unfold State.deadline
  repeat' first
    | (intro x; refine Kept.bind (s0 := s0) (m := mm) (x := x) ?_ ?_; subst x; rotate_left; clear_value x; intro _)
    | (intro y; clear_value y)
    | intro _
    | with_reducible assumption
    | with_reducible lift_lets -underBinder
    | with_reducible apply State.miss_kept hm
    | with_reducible apply Kept.ite
    | with_reducible split
    | split

theorem State.slotFault_kept {mm : Nat} {s0 s : State} {b i : Nat} (hm : Sub 0x7ffffffffffc00000000000e174 mm) (h : Kept mm s0 s) : Kept mm s0 (State.slotFault b i s) := by
  have k0 : Sub 0x7ffffffffffc000000000000154 mm := Sub.trans (by decide) hm
  have k1 : Sub 0x10 mm := Sub.trans (by decide) hm
  have k2 : Sub 0x7fffd000000000000000000e000 mm := Sub.trans (by decide) hm
  have k3 : Sub 0x7fffffc00000000000000000004 mm := Sub.trans (by decide) hm
  have k4 : Sub 0x7ffffffffffc00000000000e124 mm := Sub.trans (by decide) hm
  have kz : Sub (2 ^ 107 - 2 ^ (20 + zone 0x40130400)) mm := Sub.trans (by decide) hm
  unfold State.slotFault
  repeat' first
    | (intro x; refine Kept.bind (s0 := s0) (m := mm) (x := x) ?_ ?_; subst x; rotate_left; clear_value x; intro _)
    | (intro y; clear_value y)
    | intro _
    | with_reducible assumption
    | with_reducible lift_lets -underBinder
    | with_reducible apply State.dropCycle_kept k0
    | with_reducible apply State.setFl_kept k1
    | with_reducible apply State.logEvent_kept k2
    | with_reducible apply State.demand_kept k3
    | with_reducible apply State.faultReaction_kept k4
    | with_reducible refine State.inc_kept ?_ ?_
    | exact Sub.bit (Sub.trans (by decide) hm)
    | (refine Sub.from (b := 0x40130400) kz ?_; (try simp only [key, bk]); omega)
    | with_reducible apply Kept.ite
    | with_reducible split
    | split

theorem State.inputsReady_kept {mm : Nat} {s0 s : State} {b : Nat} (hm : Sub 0x7ffffffffffc00000000000e124 mm) (h : Kept mm s0 s) : Kept mm s0 (State.inputsReady b s) := by
  have k0 : Sub 0x4 mm := Sub.trans (by decide) hm
  have kz : Sub (2 ^ 107 - 2 ^ (20 + zone 0x40041400)) mm := Sub.trans (by decide) hm
  unfold State.inputsReady
  repeat' first
    | (intro x; refine Kept.bind (s0 := s0) (m := mm) (x := x) ?_ ?_; subst x; rotate_left; clear_value x; intro _)
    | (intro y; clear_value y)
    | intro _
    | with_reducible assumption
    | with_reducible lift_lets -underBinder
    | with_reducible apply State.supervise_kept hm
    | with_reducible apply State.faultReaction_kept hm
    | with_reducible apply State.modBatch_kept k0
    | with_reducible refine State.wr_kept ?_ ?_
    | exact Sub.bit (Sub.trans (by decide) hm)
    | (refine Sub.from (b := 0x40041400) kz ?_; (try simp only [key, bk]); omega)
    | with_reducible apply Kept.ite
    | with_reducible split
    | split
    | with_reducible apply Kept.foldl_snd
    | with_reducible apply Kept.foldl_fst
    | with_reducible apply Kept.foldl

theorem State.itemComplete_kept {mm : Nat} {s0 s : State} {l : Nat} (hm : Sub 0x7ffffffffffc00000000000e17c mm) (h : Kept mm s0 s) : Kept mm s0 (State.itemComplete l s) := by
  have k0 : Sub 0x40 mm := Sub.trans (by decide) hm
  have k1 : Sub 0x0 mm := Sub.trans (by decide) hm
  have k2 : Sub 0x7fffffffc000000000000000000 mm := Sub.trans (by decide) hm
  have k3 : Sub 0x4 mm := Sub.trans (by decide) hm
  have k4 : Sub 0x7ffffffffffc00000000000e174 mm := Sub.trans (by decide) hm
  have k5 : Sub 0x7ffffffffffc00000000000e13c mm := Sub.trans (by decide) hm
  have kz : Sub (2 ^ 107 - 2 ^ (20 + zone 0x80000d00)) mm := Sub.trans (by decide) hm
  unfold State.itemComplete
  repeat' first
    | (intro x; refine Kept.bind (s0 := s0) (m := mm) (x := x) ?_ ?_; subst x; rotate_left; clear_value x; intro _)
    | (intro y; clear_value y)
    | intro _
    | with_reducible assumption
    | with_reducible lift_lets -underBinder
    | with_reducible apply State.modLane_kept k0
    | with_reducible apply State.each_kept k1
    | with_reducible apply State.readResult_kept k2
    | with_reducible apply State.modBatch_kept k3
    | with_reducible apply State.slotFault_kept k4
    | with_reducible apply State.commit_kept k5
    | with_reducible refine State.inc_kept ?_ ?_
    | exact Sub.bit (Sub.trans (by decide) hm)
    | (refine Sub.from (b := 0x80000d00) kz ?_; (try simp only [key, bk]); omega)
    | with_reducible apply Kept.ite
    | with_reducible split
    | split

end Sys2Proof.Machine
end

