-- ==== Sys2Proof/Laws/KeptStarter.lean ====
section
/-! SUPPORT. What the operations of Machine/Starter.lean may change (Safety.lean, Kept): one lemma for each. -/

set_option linter.all false

namespace Sys2Proof.Machine

theorem State.newWindow_kept {mm : Nat} {s0 s : State} {b : Nat} (hm : Sub 0x4 mm) (h : Kept mm s0 s) : Kept mm s0 (State.newWindow b s) := by
  unfold State.newWindow
  repeat' first
    | (intro x; refine Kept.bind (s0 := s0) (m := mm) (x := x) ?_ ?_; subst x; rotate_left; clear_value x; intro _)
    | (intro y; clear_value y)
    | intro _
    | with_reducible assumption
    | with_reducible lift_lets -underBinder
    | with_reducible apply State.modBatch_kept hm
    | with_reducible apply Kept.ite
    | with_reducible split
    | split

theorem State.enterStarter_kept {mm : Nat} {s0 s : State} {b cause : Nat} (hm : Sub 0x7ffffffffffc00000000000e124 mm) (h : Kept mm s0 s) : Kept mm s0 (State.enterStarter b cause s) := by
  have k0 : Sub 0x4 mm := Sub.trans (by decide) hm
  have kz : Sub (2 ^ 107 - 2 ^ (20 + zone 0x400b1100)) mm := Sub.trans (by decide) hm
  unfold State.enterStarter
  repeat' first
    | (intro x; refine Kept.bind (s0 := s0) (m := mm) (x := x) ?_ ?_; subst x; rotate_left; clear_value x; intro _)
    | (intro y; clear_value y)
    | intro _
    | with_reducible assumption
    | with_reducible lift_lets -underBinder
    | with_reducible apply State.setState_kept hm
    | with_reducible apply State.modBatch_kept k0
    | with_reducible apply State.newWindow_kept k0
    | with_reducible refine State.inc_kept ?_ ?_
    | with_reducible refine State.wr_kept ?_ ?_
    | exact Sub.bit (Sub.trans (by decide) hm)
    | (refine Sub.from (b := 0x400b1100) kz ?_; (try simp only [key, bk]); omega)
    | with_reducible apply Kept.ite
    | with_reducible split
    | split

theorem State.outcome_kept {mm : Nat} {s0 s : State} {b v : Nat} (hm : Sub 0x7ffffffff000000000000000000 mm) (h : Kept mm s0 s) : Kept mm s0 (State.outcome b v s) := by
  have kz : Sub (2 ^ 107 - 2 ^ (20 + zone 0x400b1900)) mm := Sub.trans (by decide) hm
  unfold State.outcome
  repeat' first
    | (intro x; refine Kept.bind (s0 := s0) (m := mm) (x := x) ?_ ?_; subst x; rotate_left; clear_value x; intro _)
    | (intro y; clear_value y)
    | intro _
    | with_reducible assumption
    | with_reducible lift_lets -underBinder
    | with_reducible refine State.wr_kept ?_ ?_
    | exact Sub.bit (Sub.trans (by decide) hm)
    | (refine Sub.from (b := 0x400b1900) kz ?_; (try simp only [key, bk]); omega)
    | with_reducible apply Kept.ite
    | with_reducible split
    | split

theorem State.enterCoast_kept {mm : Nat} {s0 s : State} {b cause : Nat} (hm : Sub 0x7ffffffffffc00000000000e124 mm) (h : Kept mm s0 s) : Kept mm s0 (State.enterCoast b cause s) := by
  have k0 : Sub 0x0 mm := Sub.trans (by decide) hm
  have k1 : Sub 0x7ffff8000000000000000000020 mm := Sub.trans (by decide) hm
  unfold State.enterCoast
  repeat' first
    | (intro x; refine Kept.bind (s0 := s0) (m := mm) (x := x) ?_ ?_; subst x; rotate_left; clear_value x; intro _)
    | (intro y; clear_value y)
    | intro _
    | with_reducible assumption
    | with_reducible lift_lets -underBinder
    | with_reducible apply State.setState_kept hm
    | with_reducible apply State.withGen_kept k0
    | with_reducible apply State.driveTarget_kept k1
    | with_reducible apply Kept.ite
    | with_reducible split
    | split

theorem State.enterResync_kept {mm : Nat} {s0 s : State} {b : Nat} {entry : BatchState} {cause : Nat} (hm : Sub 0x7ffffffffffc00000000000e124 mm) (h : Kept mm s0 s) : Kept mm s0 (State.enterResync b entry cause s) := by
  have k0 : Sub 0x4 mm := Sub.trans (by decide) hm
  have k1 : Sub 0x0 mm := Sub.trans (by decide) hm
  have k2 : Sub 0x7ffff8000000000000000000020 mm := Sub.trans (by decide) hm
  have kz : Sub (2 ^ 107 - 2 ^ (20 + zone 0x400c1400)) mm := Sub.trans (by decide) hm
  unfold State.enterResync
  repeat' first
    | (intro x; refine Kept.bind (s0 := s0) (m := mm) (x := x) ?_ ?_; subst x; rotate_left; clear_value x; intro _)
    | (intro y; clear_value y)
    | intro _
    | with_reducible assumption
    | with_reducible lift_lets -underBinder
    | with_reducible apply State.setState_kept hm
    | with_reducible apply State.modBatch_kept k0
    | with_reducible apply State.withGen_kept k1
    | with_reducible apply State.driveTarget_kept k2
    | with_reducible refine State.wr_kept ?_ ?_
    | exact Sub.bit (Sub.trans (by decide) hm)
    | (refine Sub.from (b := 0x400c1400) kz ?_; (try simp only [key, bk]); omega)
    | with_reducible apply Kept.ite
    | with_reducible split
    | split

theorem State.enterPrecharge_kept {mm : Nat} {s0 s : State} {b cause : Nat} (hm : Sub 0x7ffffffffffc00000000000e524 mm) (h : Kept mm s0 s) : Kept mm s0 (State.enterPrecharge b cause s) := by
  have k0 : Sub 0x7ffffffffffc00000000000e124 mm := Sub.trans (by decide) hm
  have k1 : Sub 0x4 mm := Sub.trans (by decide) hm
  have kz : Sub (2 ^ 107 - 2 ^ (20 + zone 0x400b1100)) mm := Sub.trans (by decide) hm
  unfold State.enterPrecharge
  repeat' first
    | (intro x; refine Kept.bind (s0 := s0) (m := mm) (x := x) ?_ ?_; subst x; rotate_left; clear_value x; intro _)
    | (intro y; clear_value y)
    | intro _
    | with_reducible assumption
    | with_reducible lift_lets -underBinder
    | with_reducible apply State.setState_kept k0
    | with_reducible apply State.modBatch_kept k1
    | with_reducible apply State.prestart_kept hm
    | with_reducible refine State.wr_kept ?_ ?_
    | exact Sub.bit (Sub.trans (by decide) hm)
    | (refine Sub.from (b := 0x400b1100) kz ?_; (try simp only [key, bk]); omega)
    | with_reducible apply Kept.ite
    | with_reducible split
    | split

theorem State.dcStep_kept {mm : Nat} {s0 s : State} {b : Nat} (hm : Sub 0x7ffffffff000000000000000004 mm) (h : Kept mm s0 s) : Kept mm s0 (State.dcStep b s) := by
  have k0 : Sub 0x4 mm := Sub.trans (by decide) hm
  have kz : Sub (2 ^ 107 - 2 ^ (20 + zone 0x400b1100)) mm := Sub.trans (by decide) hm
  unfold State.dcStep
  repeat' first
    | (intro x; refine Kept.bind (s0 := s0) (m := mm) (x := x) ?_ ?_; subst x; rotate_left; clear_value x; intro _)
    | (intro y; clear_value y)
    | intro _
    | with_reducible assumption
    | with_reducible lift_lets -underBinder
    | with_reducible apply State.modBatch_kept k0
    | with_reducible refine State.setBit_kept ?_ ?_
    | exact Sub.bit (Sub.trans (by decide) hm)
    | (refine Sub.from (b := 0x400b1100) kz ?_; (try simp only [key, bk]); omega)
    | with_reducible apply Kept.ite
    | with_reducible split
    | split

theorem State.dcReady_kept {mm : Nat} {s0 s : State} {b : Nat} (hm : Sub 0x7ffffffffffc00000000000e124 mm) (h : Kept mm s0 s) : Kept mm s0 (State.dcReady b s) := by
  have kz : Sub (2 ^ 107 - 2 ^ (20 + zone 0x400b1100)) mm := Sub.trans (by decide) hm
  unfold State.dcReady
  repeat' first
    | (intro x; refine Kept.bind (s0 := s0) (m := mm) (x := x) ?_ ?_; subst x; rotate_left; clear_value x; intro _)
    | (intro y; clear_value y)
    | intro _
    | with_reducible assumption
    | with_reducible lift_lets -underBinder
    | with_reducible apply State.enterStarter_kept hm
    | with_reducible refine State.setBit_kept ?_ ?_
    | exact Sub.bit (Sub.trans (by decide) hm)
    | (refine Sub.from (b := 0x400b1100) kz ?_; (try simp only [key, bk]); omega)
    | with_reducible apply Kept.ite
    | with_reducible split
    | split

theorem State.prechargeLimit_kept {mm : Nat} {s0 s : State} {b : Nat} (hm : Sub 0x7ffffffffffc00000000000e124 mm) (h : Kept mm s0 s) : Kept mm s0 (State.prechargeLimit b s) := by
  have k0 : Sub 0x7ffffffff000000000000000000 mm := Sub.trans (by decide) hm
  unfold State.prechargeLimit
  repeat' first
    | (intro x; refine Kept.bind (s0 := s0) (m := mm) (x := x) ?_ ?_; subst x; rotate_left; clear_value x; intro _)
    | (intro y; clear_value y)
    | intro _
    | with_reducible assumption
    | with_reducible lift_lets -underBinder
    | with_reducible apply State.outcome_kept k0
    | with_reducible apply State.faultBatch_kept hm
    | with_reducible apply Kept.ite
    | with_reducible split
    | split

theorem State.prechargeStep_kept {mm : Nat} {s0 s : State} {b : Nat} (hm : Sub 0x7ffffffffffc00000000000e124 mm) (h : Kept mm s0 s) : Kept mm s0 (State.prechargeStep b s) := by
  unfold State.prechargeStep
  repeat' first
    | (intro x; refine Kept.bind (s0 := s0) (m := mm) (x := x) ?_ ?_; subst x; rotate_left; clear_value x; intro _)
    | (intro y; clear_value y)
    | intro _
    | with_reducible assumption
    | with_reducible lift_lets -underBinder
    | with_reducible apply State.dcReady_kept hm
    | with_reducible apply State.prechargeLimit_kept hm
    | with_reducible apply Kept.ite
    | with_reducible split
    | split

theorem State.seedBlock_kept {mm : Nat} {s0 s : State} {r : Recipe} {b : Nat} {z : Seed} {k : Block} (hm : Sub 0x18 mm) (h : Kept mm s0 s) : Kept mm s0 (State.seedBlock r b z k s) := by
  have k0 : Sub 0x8 mm := Sub.trans (by decide) hm
  have k1 : Sub 0x10 mm := Sub.trans (by decide) hm
  have k2 : Sub 0x0 mm := Sub.trans (by decide) hm
  unfold State.seedBlock
  repeat' first
    | (intro x; refine Kept.bind (s0 := s0) (m := mm) (x := x) ?_ ?_; subst x; rotate_left; clear_value x; intro _)
    | (intro y; have w_ : Nat → (FixedState → FixedState) → State → State := y; clear w_; subst y)
    | (intro y; have w_ : Nat → List (Nat × F32) → State → State := y; clear w_; subst y)
    | (intro y; clear_value y)
    | intro _
    | with_reducible assumption
    | with_reducible lift_lets -underBinder
    | with_reducible apply State.setFx_kept k0
    | with_reducible apply State.setFl_kept k1
    | with_reducible apply State.each_kept k2
    | with_reducible apply Kept.ite
    | with_reducible split
    | split
    | with_reducible apply Kept.foldl_snd
    | with_reducible apply Kept.foldl_fst
    | with_reducible apply Kept.foldl
    | dsimp -zeta only

theorem State.seed_kept {mm : Nat} {s0 s : State} {b : Nat} {z : Seed} (hm : Sub 0x7ffffffff00000000000000003c mm) (h : Kept mm s0 s) : Kept mm s0 (State.seed b z s) := by
  have k0 : Sub 0x0 mm := Sub.trans (by decide) hm
  have k1 : Sub 0x18 mm := Sub.trans (by decide) hm
  have k2 : Sub 0x7ffff8000000000000000000020 mm := Sub.trans (by decide) hm
  have k3 : Sub 0x4 mm := Sub.trans (by decide) hm
  have kz : Sub (2 ^ 107 - 2 ^ (20 + zone 0x400b1300)) mm := Sub.trans (by decide) hm
  unfold State.seed
  repeat' first
    | (intro x; refine Kept.bind (s0 := s0) (m := mm) (x := x) ?_ ?_; subst x; rotate_left; clear_value x; intro _)
    | (intro y; clear_value y)
    | intro _
    | with_reducible assumption
    | with_reducible lift_lets -underBinder
    | with_reducible apply State.each_kept k0
    | with_reducible apply State.seedBlock_kept k1
    | with_reducible apply State.withGen_kept k0
    | with_reducible apply State.presetTo_kept k2
    | with_reducible apply State.modBatch_kept k3
    | with_reducible refine State.wr_kept ?_ ?_
    | with_reducible refine State.wrF_kept ?_ ?_
    | exact Sub.bit (Sub.trans (by decide) hm)
    | (refine Sub.from (b := 0x400b1300) kz ?_; (try simp only [key, bk]); omega)
    | with_reducible apply Kept.ite
    | with_reducible split
    | split

theorem State.enterBlackStart_kept {mm : Nat} {s0 s : State} {b cause : Nat} (hm : Sub 0x7ffffffffffc00000000000e124 mm) (h : Kept mm s0 s) : Kept mm s0 (State.enterBlackStart b cause s) := by
  have k0 : Sub 0x7ffffffff000000000000000000 mm := Sub.trans (by decide) hm
  have k1 : Sub 0x0 mm := Sub.trans (by decide) hm
  have k2 : Sub 0x7ffff8000000000000000000020 mm := Sub.trans (by decide) hm
  have kz : Sub (2 ^ 107 - 2 ^ (20 + zone 0x40020200)) mm := Sub.trans (by decide) hm
  unfold State.enterBlackStart
  repeat' first
    | (intro x; refine Kept.bind (s0 := s0) (m := mm) (x := x) ?_ ?_; subst x; rotate_left; clear_value x; intro _)
    | (intro y; clear_value y)
    | intro _
    | with_reducible assumption
    | with_reducible lift_lets -underBinder
    | with_reducible apply State.outcome_kept k0
    | with_reducible apply State.setState_kept hm
    | with_reducible apply State.each_kept k1
    | with_reducible apply State.withGen_kept k1
    | with_reducible apply State.presetTo_kept k2
    | with_reducible refine State.inc_kept ?_ ?_
    | with_reducible refine State.setBit_kept ?_ ?_
    | with_reducible refine State.wr_kept ?_ ?_
    | exact Sub.bit (Sub.trans (by decide) hm)
    | (refine Sub.from (b := 0x40020200) kz ?_; (try simp only [key, bk]); omega)
    | with_reducible apply Kept.ite
    | with_reducible split
    | split

theorem State.startRamp_kept {mm : Nat} {s0 s : State} {b : Nat} (hm : Sub 0x7ffffffff00000000000000003c mm) (h : Kept mm s0 s) : Kept mm s0 (State.startRamp b s) := by
  have k0 : Sub 0x4 mm := Sub.trans (by decide) hm
  have k1 : Sub 0x0 mm := Sub.trans (by decide) hm
  have k2 : Sub 0x20 mm := Sub.trans (by decide) hm
  have k3 : Sub 0x7ffff8000000000000000000020 mm := Sub.trans (by decide) hm
  have kz : Sub (2 ^ 107 - 2 ^ (20 + zone 0x400b1100)) mm := Sub.trans (by decide) hm
  unfold State.startRamp
  repeat' first
    | (intro x; refine Kept.bind (s0 := s0) (m := mm) (x := x) ?_ ?_; subst x; rotate_left; clear_value x; intro _)
    | (intro y; clear_value y)
    | intro _
    | with_reducible assumption
    | with_reducible lift_lets -underBinder
    | with_reducible apply State.seed_kept hm
    | with_reducible apply State.modBatch_kept k0
    | with_reducible apply State.withGen_kept k1
    | with_reducible apply State.setGen_kept k2
    | with_reducible apply State.driveTarget_kept k3
    | with_reducible refine State.setBit_kept ?_ ?_
    | exact Sub.bit (Sub.trans (by decide) hm)
    | (refine Sub.from (b := 0x400b1100) kz ?_; (try simp only [key, bk]); omega)
    | with_reducible apply Kept.ite
    | with_reducible split
    | split

theorem State.blackLimit_kept {mm : Nat} {s0 s : State} {b : Nat} (hm : Sub 0x7ffffffffffc00000000000e124 mm) (h : Kept mm s0 s) : Kept mm s0 (State.blackLimit b s) := by
  have k0 : Sub 0x7fffd000000000000000000e000 mm := Sub.trans (by decide) hm
  have k1 : Sub 0x7ffffffff000000000000000000 mm := Sub.trans (by decide) hm
  have kz : Sub (2 ^ 107 - 2 ^ (20 + zone 0x400b1800)) mm := Sub.trans (by decide) hm
  unfold State.blackLimit
  repeat' first
    | (intro x; refine Kept.bind (s0 := s0) (m := mm) (x := x) ?_ ?_; subst x; rotate_left; clear_value x; intro _)
    | (intro y; clear_value y)
    | intro _
    | with_reducible assumption
    | with_reducible lift_lets -underBinder
    | with_reducible apply State.logEvent_kept k0
    | with_reducible apply State.outcome_kept k1
    | with_reducible apply State.faultBatch_kept hm
    | with_reducible refine State.inc_kept ?_ ?_
    | exact Sub.bit (Sub.trans (by decide) hm)
    | (refine Sub.from (b := 0x400b1800) kz ?_; (try simp only [key, bk]); omega)
    | with_reducible apply Kept.ite
    | with_reducible split
    | split

theorem State.blackStep_kept {mm : Nat} {s0 s : State} {b : Nat} (hm : Sub 0x7ffffffffffc00000000000e13c mm) (h : Kept mm s0 s) : Kept mm s0 (State.blackStep b s) := by
  have k0 : Sub 0x7ffffffff00000000000000003c mm := Sub.trans (by decide) hm
  have k1 : Sub 0x7ffffffffffc00000000000e124 mm := Sub.trans (by decide) hm
  have k2 : Sub 0x7ffffffff000000000000000000 mm := Sub.trans (by decide) hm
  have kz : Sub (2 ^ 107 - 2 ^ (20 + zone 0x400b1100)) mm := Sub.trans (by decide) hm
  unfold State.blackStep
  repeat' first
    | (intro x; refine Kept.bind (s0 := s0) (m := mm) (x := x) ?_ ?_; subst x; rotate_left; clear_value x; intro _)
    | (intro y; clear_value y)
    | intro _
    | with_reducible assumption
    | with_reducible lift_lets -underBinder
    | with_reducible apply State.startRamp_kept k0
    | with_reducible apply State.blackLimit_kept k1
    | with_reducible apply State.blockBatch_kept k1
    | with_reducible apply State.outcome_kept k2
    | with_reducible apply State.setState_kept k1
    | with_reducible refine State.setBit_kept ?_ ?_
    | exact Sub.bit (Sub.trans (by decide) hm)
    | (refine Sub.from (b := 0x400b1100) kz ?_; (try simp only [key, bk]); omega)
    | with_reducible apply Kept.ite
    | with_reducible split
    | split

theorem State.declareDead_kept {mm : Nat} {s0 s : State} {b : Nat} (hm : Sub 0x7ffffffff00000000000000e000 mm) (h : Kept mm s0 s) : Kept mm s0 (State.declareDead b s) := by
  have k0 : Sub 0x7fffd000000000000000000e000 mm := Sub.trans (by decide) hm
  have kz : Sub (2 ^ 107 - 2 ^ (20 + zone 0x400b1100)) mm := Sub.trans (by decide) hm
  unfold State.declareDead
  repeat' first
    | (intro x; refine Kept.bind (s0 := s0) (m := mm) (x := x) ?_ ?_; subst x; rotate_left; clear_value x; intro _)
    | (intro y; clear_value y)
    | intro _
    | with_reducible assumption
    | with_reducible lift_lets -underBinder
    | with_reducible apply State.logEvent_kept k0
    | with_reducible refine State.setBit_kept ?_ ?_
    | with_reducible refine State.wr_kept ?_ ?_
    | exact Sub.bit (Sub.trans (by decide) hm)
    | (refine Sub.from (b := 0x400b1100) kz ?_; (try simp only [key, bk]); omega)
    | with_reducible apply Kept.ite
    | with_reducible split
    | split

theorem State.deadStep_kept {mm : Nat} {s0 s : State} {b : Nat} (hm : Sub 0x7ffffffff00000000000000e004 mm) (h : Kept mm s0 s) : Kept mm s0 (State.deadStep b s) := by
  have k0 : Sub 0x4 mm := Sub.trans (by decide) hm
  have k1 : Sub 0x7ffffffff00000000000000e000 mm := Sub.trans (by decide) hm
  have kz : Sub (2 ^ 107 - 2 ^ (20 + zone 0x400b1100)) mm := Sub.trans (by decide) hm
  unfold State.deadStep
  repeat' first
    | (intro x; refine Kept.bind (s0 := s0) (m := mm) (x := x) ?_ ?_; subst x; rotate_left; clear_value x; intro _)
    | (intro y; clear_value y)
    | intro _
    | with_reducible assumption
    | with_reducible lift_lets -underBinder
    | with_reducible apply State.modBatch_kept k0
    | with_reducible apply State.declareDead_kept k1
    | with_reducible refine State.setBit_kept ?_ ?_
    | with_reducible refine State.wr_kept ?_ ?_
    | with_reducible refine State.wrF_kept ?_ ?_
    | exact Sub.bit (Sub.trans (by decide) hm)
    | (refine Sub.from (b := 0x400b1100) kz ?_; (try simp only [key, bk]); omega)
    | with_reducible apply Kept.ite
    | with_reducible split
    | split

theorem State.startOutcome_kept {mm : Nat} {s0 s : State} {b v : Nat} {dst : BatchState} (hm : Sub 0x7ffffffffffc00000000000e13c mm) (h : Kept mm s0 s) : Kept mm s0 (State.startOutcome b v dst s) := by
  have k0 : Sub 0x7ffffffff000000000000000000 mm := Sub.trans (by decide) hm
  have k1 : Sub 0x7ffffffff00000000000000003c mm := Sub.trans (by decide) hm
  have k2 : Sub 0x7ffffffffffc00000000000e124 mm := Sub.trans (by decide) hm
  have kz : Sub (2 ^ 107 - 2 ^ (20 + zone 0x40150500)) mm := Sub.trans (by decide) hm
  unfold State.startOutcome
  repeat' first
    | (intro x; refine Kept.bind (s0 := s0) (m := mm) (x := x) ?_ ?_; subst x; rotate_left; clear_value x; intro _)
    | (intro y; clear_value y)
    | intro _
    | with_reducible assumption
    | with_reducible lift_lets -underBinder
    | with_reducible apply State.outcome_kept k0
    | with_reducible apply State.seed_kept k1
    | with_reducible apply State.enterResync_kept k2
    | with_reducible apply State.setState_kept k2
    | with_reducible refine State.setBit_kept ?_ ?_
    | exact Sub.bit (Sub.trans (by decide) hm)
    | (refine Sub.from (b := 0x40150500) kz ?_; (try simp only [key, bk]); omega)
    | with_reducible apply Kept.ite
    | with_reducible split
    | split

theorem State.windowEnd_kept {mm : Nat} {s0 s : State} {b : Nat} {live : Bool} (hm : Sub 0x7ffffffffffc00000000000e13c mm) (h : Kept mm s0 s) : Kept mm s0 (State.windowEnd b live s) := by
  have k0 : Sub 0x7ffffffff000000000000000000 mm := Sub.trans (by decide) hm
  have k1 : Sub 0x7ffffffffffc00000000000e124 mm := Sub.trans (by decide) hm
  have k2 : Sub 0x4 mm := Sub.trans (by decide) hm
  have k3 : Sub 0x7ffffffffffc000000000000104 mm := Sub.trans (by decide) hm
  have kz : Sub (2 ^ 107 - 2 ^ (20 + zone 0x400b1100)) mm := Sub.trans (by decide) hm
  unfold State.windowEnd
  repeat' first
    | (intro x; refine Kept.bind (s0 := s0) (m := mm) (x := x) ?_ ?_; subst x; rotate_left; clear_value x; intro _)
    | (intro y; clear_value y)
    | intro _
    | with_reducible assumption
    | with_reducible lift_lets -underBinder
    | with_reducible apply State.outcome_kept k0
    | with_reducible apply State.faultBatch_kept k1
    | with_reducible apply State.startOutcome_kept hm
    | with_reducible apply State.enterBlackStart_kept k1
    | with_reducible apply State.newWindow_kept k2
    | with_reducible apply State.pulseBlock_kept k3
    | with_reducible apply State.setState_kept k1
    | with_reducible refine State.setBit_kept ?_ ?_
    | exact Sub.bit (Sub.trans (by decide) hm)
    | (refine Sub.from (b := 0x400b1100) kz ?_; (try simp only [key, bk]); omega)
    | with_reducible apply Kept.ite
    | with_reducible split
    | split

theorem State.windowTimeout_kept {mm : Nat} {s0 s : State} {b : Nat} (hm : Sub 0x7ffffffffffc00000000000e13c mm) (h : Kept mm s0 s) : Kept mm s0 (State.windowTimeout b s) := by
  unfold State.windowTimeout
  repeat' first
    | (intro x; refine Kept.bind (s0 := s0) (m := mm) (x := x) ?_ ?_; subst x; rotate_left; clear_value x; intro _)
    | (intro y; clear_value y)
    | intro _
    | with_reducible assumption
    | with_reducible lift_lets -underBinder
    | with_reducible apply State.windowEnd_kept hm
    | with_reducible apply Kept.ite
    | with_reducible split
    | split

theorem State.waitLimit_kept {mm : Nat} {s0 s : State} {b : Nat} (hm : Sub 0x7ffffffffffc00000000000e13c mm) (h : Kept mm s0 s) : Kept mm s0 (State.waitLimit b s) := by
  unfold State.waitLimit
  repeat' first
    | (intro x; refine Kept.bind (s0 := s0) (m := mm) (x := x) ?_ ?_; subst x; rotate_left; clear_value x; intro _)
    | (intro y; clear_value y)
    | intro _
    | with_reducible assumption
    | with_reducible lift_lets -underBinder
    | with_reducible apply State.windowEnd_kept hm
    | with_reducible apply Kept.ite
    | with_reducible split
    | split

theorem State.starterStep_kept {mm : Nat} {s0 s : State} {b : Nat} (hm : Sub 0x7ffffffffffc00000000000e13c mm) (h : Kept mm s0 s) : Kept mm s0 (State.starterStep b s) := by
  have k0 : Sub 0x4 mm := Sub.trans (by decide) hm
  have k1 : Sub 0x7ffffffffffc00000000000e124 mm := Sub.trans (by decide) hm
  have k2 : Sub 0x7ffffffff00000000000000e004 mm := Sub.trans (by decide) hm
  have kz : Sub (2 ^ 107 - 2 ^ (20 + zone 0x400b1100)) mm := Sub.trans (by decide) hm
  unfold State.starterStep
  repeat' first
    | (intro x; refine Kept.bind (s0 := s0) (m := mm) (x := x) ?_ ?_; subst x; rotate_left; clear_value x; intro _)
    | (intro y; clear_value y)
    | intro _
    | with_reducible assumption
    | with_reducible lift_lets -underBinder
    | with_reducible apply State.modBatch_kept k0
    | with_reducible apply State.setState_kept k1
    | with_reducible apply State.deadStep_kept k2
    | with_reducible apply State.windowEnd_kept hm
    | with_reducible refine State.setBit_kept ?_ ?_
    | exact Sub.bit (Sub.trans (by decide) hm)
    | (refine Sub.from (b := 0x400b1100) kz ?_; (try simp only [key, bk]); omega)
    | with_reducible apply Kept.ite
    | with_reducible split
    | split

end Sys2Proof.Machine
end

