-- ==== Sys2Proof/Laws/KeptRunning.lean ====
section
/-! SUPPORT. What the operations of Machine/Running.lean may change (Safety.lean, Kept): one lemma for each. -/

set_option linter.all false

namespace Sys2Proof.Machine

theorem State.spAlive_kept {mm : Nat} {s0 s : State} {b : Nat} (hm : Sub 0x7ffffffff000000000000000004 mm) (h : Kept mm s0 s) : Kept mm s0 (State.spAlive b s) := by
  have k0 : Sub 0x4 mm := Sub.trans (by decide) hm
  have k1 : Sub 0x0 mm := Sub.trans (by decide) hm
  have k2 : Sub 0x7fffffc00000000000000000004 mm := Sub.trans (by decide) hm
  have kz : Sub (2 ^ 107 - 2 ^ (20 + zone 0x400e0b00)) mm := Sub.trans (by decide) hm
  unfold State.spAlive
  repeat' first
    | (intro x; refine Kept.bind (s0 := s0) (m := mm) (x := x) ?_ ?_; subst x; rotate_left; clear_value x; intro _)
    | (intro y; clear_value y)
    | intro _
    | with_reducible assumption
    | with_reducible lift_lets -underBinder
    | with_reducible apply State.modBatch_kept k0
    | with_reducible apply State.each_kept k1
    | with_reducible apply State.withGen_kept k1
    | with_reducible apply State.ownJob_kept k2
    | with_reducible refine State.setBit_kept ?_ ?_
    | exact Sub.bit (Sub.trans (by decide) hm)
    | (refine Sub.from (b := 0x400e0b00) kz ?_; (try simp only [key, bk]); omega)
    | with_reducible apply Kept.ite
    | with_reducible split
    | split

theorem setpointEff_kept {mm : Nat} {s0 : State} {q : Req} {b i : Nat} {v : Int} (hm : Sub 0x7ffffffff00000000000000003c mm) : EffKept mm s0 (setpointEff q b i v) := by
  have k0 : Sub 0x7ffffffff000000000000000004 mm := Sub.trans (by decide) hm
  have k1 : Sub 0x4 mm := Sub.trans (by decide) hm
  have k2 : Sub 0x0 mm := Sub.trans (by decide) hm
  have kz : Sub (2 ^ 107 - 2 ^ (20 + zone 0x400e0100)) mm := Sub.trans (by decide) hm
  unfold setpointEff
  repeat' first
    | (intro x; refine Kept.bind (s0 := s0) (m := mm) (x := x) ?_ ?_; subst x; rotate_left; clear_value x; intro _)
    | (intro y; clear_value y)
    | intro _
    | with_reducible assumption
    | with_reducible lift_lets -underBinder
    | with_reducible apply State.spAlive_kept k0
    | with_reducible apply State.modBatch_kept k1
    | with_reducible apply State.answer_kept k2
    | with_reducible apply State.job_kept hm
    | with_reducible refine State.setBit_kept ?_ ?_
    | with_reducible refine State.wr_kept ?_ ?_
    | exact Sub.bit (Sub.trans (by decide) hm)
    | (refine Sub.from (b := 0x400e0100) kz ?_; (try simp only [key, bk]); omega)
    | with_reducible apply Kept.ite
    | with_reducible apply EffKept.ite
    | with_reducible split
    | split
    | (refine ⟨fun s h => ?_⟩; dsimp -zeta only)
    | dsimp -zeta only

theorem State.applySet_kept {mm : Nat} {s0 s : State} {b : Nat} (hm : Sub 0x7ffffffff000000000000000024 mm) (h : Kept mm s0 s) : Kept mm s0 (State.applySet b s) := by
  have k0 : Sub 0x0 mm := Sub.trans (by decide) hm
  have k1 : Sub 0x7ffff8000000000000000000020 mm := Sub.trans (by decide) hm
  have k2 : Sub 0x4 mm := Sub.trans (by decide) hm
  have kz : Sub (2 ^ 107 - 2 ^ (20 + zone 0x400e0900)) mm := Sub.trans (by decide) hm
  unfold State.applySet
  repeat' first
    | (intro x; refine Kept.bind (s0 := s0) (m := mm) (x := x) ?_ ?_; subst x; rotate_left; clear_value x; intro _)
    | (intro y; clear_value y)
    | intro _
    | with_reducible assumption
    | with_reducible lift_lets -underBinder
    | with_reducible apply State.each_kept k0
    | with_reducible apply State.withGen_kept k0
    | with_reducible apply State.hostTarget_kept k1
    | with_reducible apply State.modBatch_kept k2
    | with_reducible refine State.setBit_kept ?_ ?_
    | with_reducible refine State.wr_kept ?_ ?_
    | exact Sub.bit (Sub.trans (by decide) hm)
    | (refine Sub.from (b := 0x400e0900) kz ?_; (try simp only [key, bk]); omega)
    | with_reducible apply Kept.ite
    | with_reducible split
    | split

theorem State.applyStaged_kept {mm : Nat} {s0 s : State} {b : Nat} (hm : Sub 0x7ffffffff000000000000000024 mm) (h : Kept mm s0 s) : Kept mm s0 (State.applyStaged b s) := by
  unfold State.applyStaged
  repeat' first
    | (intro x; refine Kept.bind (s0 := s0) (m := mm) (x := x) ?_ ?_; subst x; rotate_left; clear_value x; intro _)
    | (intro y; clear_value y)
    | intro _
    | with_reducible assumption
    | with_reducible lift_lets -underBinder
    | with_reducible apply State.applySet_kept hm
    | with_reducible apply Kept.ite
    | with_reducible split
    | split

theorem State.setAsJobs_kept {mm : Nat} {s0 s : State} {b : Nat} (hm : Sub 0x7ffffffff000000000000000004 mm) (h : Kept mm s0 s) : Kept mm s0 (State.setAsJobs b s) := by
  have k0 : Sub 0x0 mm := Sub.trans (by decide) hm
  have k1 : Sub 0x7fffffc00000000000000000004 mm := Sub.trans (by decide) hm
  have k2 : Sub 0x4 mm := Sub.trans (by decide) hm
  have kz : Sub (2 ^ 107 - 2 ^ (20 + zone 0x400e0900)) mm := Sub.trans (by decide) hm
  unfold State.setAsJobs
  repeat' first
    | (intro x; refine Kept.bind (s0 := s0) (m := mm) (x := x) ?_ ?_; subst x; rotate_left; clear_value x; intro _)
    | (intro y; clear_value y)
    | intro _
    | with_reducible assumption
    | with_reducible lift_lets -underBinder
    | with_reducible apply State.each_kept k0
    | with_reducible apply State.withGen_kept k0
    | with_reducible apply State.ownJob_kept k1
    | with_reducible apply State.modBatch_kept k2
    | with_reducible refine State.setBit_kept ?_ ?_
    | with_reducible refine State.wr_kept ?_ ?_
    | exact Sub.bit (Sub.trans (by decide) hm)
    | (refine Sub.from (b := 0x400e0900) kz ?_; (try simp only [key, bk]); omega)
    | with_reducible apply Kept.ite
    | with_reducible split
    | split

theorem stagedTimeEff_kept {mm : Nat} {s0 : State} {b : Nat} {v : Int} (hm : Sub 0x7ffffffff000000000000000004 mm) : EffKept mm s0 (stagedTimeEff b v) := by
  have kz : Sub (2 ^ 107 - 2 ^ (20 + zone 0x400e0900)) mm := Sub.trans (by decide) hm
  unfold stagedTimeEff
  repeat' first
    | (intro x; refine Kept.bind (s0 := s0) (m := mm) (x := x) ?_ ?_; subst x; rotate_left; clear_value x; intro _)
    | (intro y; clear_value y)
    | intro _
    | with_reducible assumption
    | with_reducible lift_lets -underBinder
    | with_reducible apply State.setAsJobs_kept hm
    | with_reducible refine State.wr_kept ?_ ?_
    | exact Sub.bit (Sub.trans (by decide) hm)
    | (refine Sub.from (b := 0x400e0900) kz ?_; (try simp only [key, bk]); omega)
    | with_reducible apply Kept.ite
    | with_reducible apply EffKept.ite
    | with_reducible split
    | split
    | (refine ⟨fun s h => ?_⟩; dsimp -zeta only)
    | dsimp -zeta only

theorem State.spWatchdog_kept {mm : Nat} {s0 s : State} {b : Nat} (hm : Sub 0x7ffffffff000000000000000020 mm) (h : Kept mm s0 s) : Kept mm s0 (State.spWatchdog b s) := by
  have k0 : Sub 0x0 mm := Sub.trans (by decide) hm
  have k1 : Sub 0x7ffff8000000000000000000020 mm := Sub.trans (by decide) hm
  have kz : Sub (2 ^ 107 - 2 ^ (20 + zone 0x400e0b00)) mm := Sub.trans (by decide) hm
  unfold State.spWatchdog
  repeat' first
    | (intro x; refine Kept.bind (s0 := s0) (m := mm) (x := x) ?_ ?_; subst x; rotate_left; clear_value x; intro _)
    | (intro y; clear_value y)
    | intro _
    | with_reducible assumption
    | with_reducible lift_lets -underBinder
    | with_reducible apply State.each_kept k0
    | with_reducible apply State.withGen_kept k0
    | with_reducible apply State.genHold_kept k1
    | with_reducible refine State.setBit_kept ?_ ?_
    | exact Sub.bit (Sub.trans (by decide) hm)
    | (refine Sub.from (b := 0x400e0b00) kz ?_; (try simp only [key, bk]); omega)
    | with_reducible apply Kept.ite
    | with_reducible split
    | split

theorem breakerEff_kept {mm : Nat} {s0 : State} {b : Nat} {v : Int} (hm : Sub 0x7ffffffff000000000000000004 mm) : EffKept mm s0 (breakerEff b v) := by
  have k0 : Sub 0x4 mm := Sub.trans (by decide) hm
  have kz : Sub (2 ^ 107 - 2 ^ (20 + zone 0x40150200)) mm := Sub.trans (by decide) hm
  unfold breakerEff
  repeat' first
    | (intro x; refine Kept.bind (s0 := s0) (m := mm) (x := x) ?_ ?_; subst x; rotate_left; clear_value x; intro _)
    | (intro y; clear_value y)
    | intro _
    | with_reducible assumption
    | with_reducible lift_lets -underBinder
    | with_reducible apply State.modBatch_kept k0
    | with_reducible refine State.wr_kept ?_ ?_
    | exact Sub.bit (Sub.trans (by decide) hm)
    | (refine Sub.from (b := 0x40150200) kz ?_; (try simp only [key, bk]); omega)
    | with_reducible apply Kept.ite
    | with_reducible apply EffKept.ite
    | with_reducible split
    | split
    | (refine ⟨fun s h => ?_⟩; dsimp -zeta only)
    | dsimp -zeta only

theorem commandEff_kept {mm : Nat} {s0 : State} {b c : Nat} (hm : Sub 0x7ffffffff000000000000000004 mm) : EffKept mm s0 (commandEff b c) := by
  have k0 : Sub 0x0 mm := Sub.trans (by decide) hm
  have k1 : Sub 0x4 mm := Sub.trans (by decide) hm
  have kz : Sub (2 ^ 107 - 2 ^ (20 + zone 0x40020200)) mm := Sub.trans (by decide) hm
  unfold commandEff
  repeat' first
    | (intro x; refine Kept.bind (s0 := s0) (m := mm) (x := x) ?_ ?_; subst x; rotate_left; clear_value x; intro _)
    | (intro y; clear_value y)
    | intro _
    | with_reducible assumption
    | with_reducible lift_lets -underBinder
    | with_reducible apply State.answer_kept k0
    | with_reducible apply State.modBatch_kept k1
    | with_reducible refine State.wr_kept ?_ ?_
    | exact Sub.bit (Sub.trans (by decide) hm)
    | (refine Sub.from (b := 0x40020200) kz ?_; (try simp only [key, bk]); omega)
    | with_reducible apply Kept.ite
    | with_reducible apply EffKept.ite
    | with_reducible split
    | split
    | (refine ⟨fun s h => ?_⟩; dsimp -zeta only)
    | dsimp -zeta only

theorem State.command_kept {mm : Nat} {s0 s : State} {q : Req} {b c : Nat} (hm : Sub 0x7ffffffff00000000000002e004 mm) (h : Kept mm s0 s) : Kept mm s0 (State.command q b c s) := by
  have k0 : Sub 0x7fffffc0000000000000002e004 mm := Sub.trans (by decide) hm
  have k1 : Sub 0x7ffffffff000000000000000004 mm := Sub.trans (by decide) hm
  unfold State.command
  repeat' first
    | (intro x; refine Kept.bind (s0 := s0) (m := mm) (x := x) ?_ ?_; subst x; rotate_left; clear_value x; intro _)
    | (intro y; clear_value y)
    | intro _
    | with_reducible assumption
    | with_reducible lift_lets -underBinder
    | with_reducible apply State.hostWrite_kept k0
    | with_reducible apply (commandEff_kept k1).all
    | with_reducible apply commandEff_kept k1
    | with_reducible apply Kept.ite
    | with_reducible split
    | split

theorem clearStatsEff_kept {mm : Nat} {s0 : State} {b : Nat} (hm : Sub 0x7ffffffff000000000000000004 mm) : EffKept mm s0 (clearStatsEff b) := by
  have k0 : Sub 0x0 mm := Sub.trans (by decide) hm
  have k1 : Sub 0x4 mm := Sub.trans (by decide) hm
  have kz : Sub (2 ^ 107 - 2 ^ (20 + zone 0x40130000)) mm := Sub.trans (by decide) hm
  unfold clearStatsEff
  repeat' first
    | (intro x; refine Kept.bind (s0 := s0) (m := mm) (x := x) ?_ ?_; subst x; rotate_left; clear_value x; intro _)
    | (intro y; clear_value y)
    | intro _
    | with_reducible assumption
    | with_reducible lift_lets -underBinder
    | with_reducible apply State.each_kept k0
    | with_reducible apply State.modBatch_kept k1
    | with_reducible refine State.wr_kept ?_ ?_
    | exact Sub.bit (Sub.trans (by decide) hm)
    | (refine Sub.from (b := 0x40130000) kz ?_; (try simp only [key, bk]); omega)
    | with_reducible apply Kept.ite
    | with_reducible apply EffKept.ite
    | with_reducible split
    | split
    | (refine ⟨fun s h => ?_⟩; dsimp -zeta only)
    | dsimp -zeta only

theorem State.coastLimit_kept {mm : Nat} {s0 s : State} {b : Nat} (hm : Sub 0x7ffff8000000000000000000024 mm) (h : Kept mm s0 s) : Kept mm s0 (State.coastLimit b s) := by
  unfold State.coastLimit
  repeat' first
    | (intro x; refine Kept.bind (s0 := s0) (m := mm) (x := x) ?_ ?_; subst x; rotate_left; clear_value x; intro _)
    | (intro y; clear_value y)
    | intro _
    | with_reducible assumption
    | with_reducible lift_lets -underBinder
    | with_reducible apply State.startStop_kept hm
    | with_reducible apply Kept.ite
    | with_reducible split
    | split

theorem State.guard_kept {mm : Nat} {s0 s : State} {b : Nat} (hm : Sub 0x7ffffffff000000000000000000 mm) (h : Kept mm s0 s) : Kept mm s0 (State.guard b s) := by
  have kz : Sub (2 ^ 107 - 2 ^ (20 + zone 0x40090c00)) mm := Sub.trans (by decide) hm
  unfold State.guard
  repeat' first
    | (intro x; refine Kept.bind (s0 := s0) (m := mm) (x := x) ?_ ?_; subst x; rotate_left; clear_value x; intro _)
    | (intro y; clear_value y)
    | intro _
    | with_reducible assumption
    | with_reducible lift_lets -underBinder
    | with_reducible refine State.setBit_kept ?_ ?_
    | exact Sub.bit (Sub.trans (by decide) hm)
    | (refine Sub.from (b := 0x40090c00) kz ?_; (try simp only [key, bk]); omega)
    | with_reducible apply Kept.ite
    | with_reducible split
    | split

theorem State.tooLong_kept {mm : Nat} {s0 s : State} {b : Nat} (hm : Sub 0x7fffffc00000000000000000004 mm) (h : Kept mm s0 s) : Kept mm s0 (State.tooLong b s) := by
  have k0 : Sub 0x4 mm := Sub.trans (by decide) hm
  unfold State.tooLong
  repeat' first
    | (intro x; refine Kept.bind (s0 := s0) (m := mm) (x := x) ?_ ?_; subst x; rotate_left; clear_value x; intro _)
    | (intro y; clear_value y)
    | intro _
    | with_reducible assumption
    | with_reducible lift_lets -underBinder
    | with_reducible apply State.modBatch_kept k0
    | with_reducible apply State.demand_kept hm
    | with_reducible apply Kept.ite
    | with_reducible split
    | split

theorem State.limitedTime_kept {mm : Nat} {s0 s : State} {b : Nat} (hm : Sub 0x7ffffffff000000000000000000 mm) (h : Kept mm s0 s) : Kept mm s0 (State.limitedTime b s) := by
  have kz : Sub (2 ^ 107 - 2 ^ (20 + zone 0x40090e00)) mm := Sub.trans (by decide) hm
  unfold State.limitedTime
  repeat' first
    | (intro x; refine Kept.bind (s0 := s0) (m := mm) (x := x) ?_ ?_; subst x; rotate_left; clear_value x; intro _)
    | (intro y; clear_value y)
    | intro _
    | with_reducible assumption
    | with_reducible lift_lets -underBinder
    | with_reducible refine State.wr_kept ?_ ?_
    | exact Sub.bit (Sub.trans (by decide) hm)
    | (refine Sub.from (b := 0x40090e00) kz ?_; (try simp only [key, bk]); omega)
    | with_reducible apply Kept.ite
    | with_reducible split
    | split

theorem envelopeEff_kept {mm : Nat} {s0 : State} {b e : Nat} {img : List Byte} (hm : Sub 0x7ffffffff000000000000000002 mm) : EffKept mm s0 (envelopeEff b e img) := by
  have k0 : Sub 0x2 mm := Sub.trans (by decide) hm
  have k1 : Sub 0x0 mm := Sub.trans (by decide) hm
  have kz : Sub (2 ^ 107 - 2 ^ (20 + zone 0x400a1200)) mm := Sub.trans (by decide) hm
  unfold envelopeEff
  repeat' first
    | (intro x; refine Kept.bind (s0 := s0) (m := mm) (x := x) ?_ ?_; subst x; rotate_left; clear_value x; intro _)
    | (intro y; clear_value y)
    | intro _
    | with_reducible assumption
    | with_reducible lift_lets -underBinder
    | with_reducible apply State.wrBlob_kept k0
    | with_reducible apply State.answer_kept k1
    | with_reducible refine State.setBit_kept ?_ ?_
    | exact Sub.bit (Sub.trans (by decide) hm)
    | (refine Sub.from (b := 0x400a1200) kz ?_; (try simp only [key, bk]); omega)
    | with_reducible apply Kept.ite
    | with_reducible apply EffKept.ite
    | with_reducible split
    | split
    | (refine ⟨fun s h => ?_⟩; dsimp -zeta only)
    | dsimp -zeta only

theorem State.excursionEnd_kept {mm : Nat} {s0 s : State} {b : Nat} {freq : Bool} (hm : Sub 0x7ffffffff000000000000000004 mm) (h : Kept mm s0 s) : Kept mm s0 (State.excursionEnd b freq s) := by
  have k0 : Sub 0x4 mm := Sub.trans (by decide) hm
  have kz : Sub (2 ^ 107 - 2 ^ (20 + zone 0x400a1200)) mm := Sub.trans (by decide) hm
  unfold State.excursionEnd
  repeat' first
    | (intro x; refine Kept.bind (s0 := s0) (m := mm) (x := x) ?_ ?_; subst x; rotate_left; clear_value x; intro _)
    | (intro y; clear_value y)
    | intro _
    | with_reducible assumption
    | with_reducible lift_lets -underBinder
    | with_reducible apply State.setBatch_kept k0
    | with_reducible refine State.setBit_kept ?_ ?_
    | exact Sub.bit (Sub.trans (by decide) hm)
    | (refine Sub.from (b := 0x400a1200) kz ?_; (try simp only [key, bk]); omega)
    | with_reducible apply Kept.ite
    | with_reducible split
    | split

theorem State.excursion_kept {mm : Nat} {s0 s : State} {b : Nat} {freq outside : Bool} (hm : Sub 0x7ffffffff000000000000000004 mm) (h : Kept mm s0 s) : Kept mm s0 (State.excursion b freq outside s) := by
  have k0 : Sub 0x4 mm := Sub.trans (by decide) hm
  have kz : Sub (2 ^ 107 - 2 ^ (20 + zone 0x400a1200)) mm := Sub.trans (by decide) hm
  unfold State.excursion
  repeat' first
    | (intro x; refine Kept.bind (s0 := s0) (m := mm) (x := x) ?_ ?_; subst x; rotate_left; clear_value x; intro _)
    | (intro y; have w_ : Excursion → State → State := y; clear w_; subst y)
    | (intro y; clear_value y)
    | intro _
    | with_reducible assumption
    | with_reducible lift_lets -underBinder
    | with_reducible apply State.modBatch_kept k0
    | with_reducible apply State.excursionEnd_kept hm
    | with_reducible refine State.inc_kept ?_ ?_
    | with_reducible refine State.setBit_kept ?_ ?_
    | exact Sub.bit (Sub.trans (by decide) hm)
    | (refine Sub.from (b := 0x400a1200) kz ?_; (try simp only [key, bk]); omega)
    | with_reducible apply Kept.ite
    | with_reducible split
    | split
    | dsimp -zeta only

theorem State.envelope_kept {mm : Nat} {s0 s : State} {b e : Nat} {v : Rat} (hm : Sub 0x7ffffffff00000000000000e004 mm) (h : Kept mm s0 s) : Kept mm s0 (State.envelope b e v s) := by
  have k0 : Sub 0x7fffd000000000000000000e000 mm := Sub.trans (by decide) hm
  have k1 : Sub 0x7fffffc00000000000000000004 mm := Sub.trans (by decide) hm
  have kz : Sub (2 ^ 107 - 2 ^ (20 + zone 0x400a1200)) mm := Sub.trans (by decide) hm
  unfold State.envelope
  repeat' first
    | (intro x; refine Kept.bind (s0 := s0) (m := mm) (x := x) ?_ ?_; subst x; rotate_left; clear_value x; intro _)
    | (intro y; clear_value y)
    | intro _
    | with_reducible assumption
    | with_reducible lift_lets -underBinder
    | with_reducible apply State.logEvent_kept k0
    | with_reducible apply State.demand_kept k1
    | with_reducible refine State.inc_kept ?_ ?_
    | with_reducible refine State.setBit_kept ?_ ?_
    | exact Sub.bit (Sub.trans (by decide) hm)
    | (refine Sub.from (b := 0x400a1200) kz ?_; (try simp only [key, bk]); omega)
    | with_reducible apply Kept.ite
    | with_reducible split
    | split

theorem State.envelopes_kept {mm : Nat} {s0 s : State} {b : Nat} (hm : Sub 0x7ffffffff00000000000000e004 mm) (h : Kept mm s0 s) : Kept mm s0 (State.envelopes b s) := by
  have k0 : Sub 0x4 mm := Sub.trans (by decide) hm
  have k1 : Sub 0x7ffffffff000000000000000004 mm := Sub.trans (by decide) hm
  have kz : Sub (2 ^ 107 - 2 ^ (20 + zone 0x400a1200)) mm := Sub.trans (by decide) hm
  unfold State.envelopes
  repeat' first
    | (intro x; refine Kept.bind (s0 := s0) (m := mm) (x := x) ?_ ?_; subst x; rotate_left; clear_value x; intro _)
    | (intro y; have w_ : Nat := y; clear w_; subst y)
    | (intro y; clear_value y)
    | intro _
    | with_reducible assumption
    | with_reducible lift_lets -underBinder
    | with_reducible apply State.modBatch_kept k0
    | with_reducible apply State.excursion_kept k1
    | with_reducible apply State.envelope_kept hm
    | with_reducible refine State.setBit_kept ?_ ?_
    | with_reducible refine State.wr_kept ?_ ?_
    | with_reducible refine State.wrF_kept ?_ ?_
    | exact Sub.bit (Sub.trans (by decide) hm)
    | (refine Sub.from (b := 0x400a1200) kz ?_; (try simp only [key, bk]); omega)
    | with_reducible apply Kept.ite
    | with_reducible split
    | split

theorem State.refStep_kept {mm : Nat} {s0 s : State} {b : Nat} (hm : Sub 0x7ffffffff000000000000000004 mm) (h : Kept mm s0 s) : Kept mm s0 (State.refStep b s) := by
  have k0 : Sub 0x4 mm := Sub.trans (by decide) hm
  have kz : Sub (2 ^ 107 - 2 ^ (20 + zone 0x400c0f00)) mm := Sub.trans (by decide) hm
  unfold State.refStep
  repeat' first
    | (intro x; refine Kept.bind (s0 := s0) (m := mm) (x := x) ?_ ?_; subst x; rotate_left; clear_value x; intro _)
    | (intro y; have w_ : Resync → State → State := y; clear w_; subst y)
    | (intro y; clear_value y)
    | intro _
    | with_reducible assumption
    | with_reducible lift_lets -underBinder
    | with_reducible apply State.modBatch_kept k0
    | with_reducible refine State.setBit_kept ?_ ?_
    | exact Sub.bit (Sub.trans (by decide) hm)
    | (refine Sub.from (b := 0x400c0f00) kz ?_; (try simp only [key, bk]); omega)
    | with_reducible apply Kept.ite
    | with_reducible split
    | split
    | dsimp -zeta only

theorem State.resyncF_kept {mm : Nat} {s0 s : State} {b : Nat} (hm : Sub 0x7ffffffff000000000000000020 mm) (h : Kept mm s0 s) : Kept mm s0 (State.resyncF b s) := by
  have k0 : Sub 0x0 mm := Sub.trans (by decide) hm
  have k1 : Sub 0x20 mm := Sub.trans (by decide) hm
  have k2 : Sub 0x7ffff8000000000000000000020 mm := Sub.trans (by decide) hm
  have kz : Sub (2 ^ 107 - 2 ^ (20 + zone 0x400c1000)) mm := Sub.trans (by decide) hm
  unfold State.resyncF
  repeat' first
    | (intro x; refine Kept.bind (s0 := s0) (m := mm) (x := x) ?_ ?_; subst x; rotate_left; clear_value x; intro _)
    | (intro y; clear_value y)
    | intro _
    | with_reducible assumption
    | with_reducible lift_lets -underBinder
    | with_reducible apply State.withGen_kept k0
    | with_reducible apply State.keepTarget_kept k1
    | with_reducible apply State.driveTarget_kept k2
    | with_reducible refine State.wrF_kept ?_ ?_
    | exact Sub.bit (Sub.trans (by decide) hm)
    | (refine Sub.from (b := 0x400c1000) kz ?_; (try simp only [key, bk]); omega)
    | with_reducible apply Kept.ite
    | with_reducible split
    | split

theorem State.resyncV_kept {mm : Nat} {s0 s : State} {b : Nat} (hm : Sub 0x7ffff8000000000000000000020 mm) (h : Kept mm s0 s) : Kept mm s0 (State.resyncV b s) := by
  have k0 : Sub 0x0 mm := Sub.trans (by decide) hm
  have k1 : Sub 0x20 mm := Sub.trans (by decide) hm
  unfold State.resyncV
  repeat' first
    | (intro x; refine Kept.bind (s0 := s0) (m := mm) (x := x) ?_ ?_; subst x; rotate_left; clear_value x; intro _)
    | (intro y; clear_value y)
    | intro _
    | with_reducible assumption
    | with_reducible lift_lets -underBinder
    | with_reducible apply State.withGen_kept k0
    | with_reducible apply State.driveTarget_kept hm
    | with_reducible apply State.keepTarget_kept k1
    | with_reducible apply Kept.ite
    | with_reducible split
    | split

theorem State.resyncTargets_kept {mm : Nat} {s0 s : State} {b : Nat} (hm : Sub 0x7ffffffff000000000000000020 mm) (h : Kept mm s0 s) : Kept mm s0 (State.resyncTargets b s) := by
  have k0 : Sub 0x7ffff8000000000000000000020 mm := Sub.trans (by decide) hm
  unfold State.resyncTargets
  repeat' first
    | (intro x; refine Kept.bind (s0 := s0) (m := mm) (x := x) ?_ ?_; subst x; rotate_left; clear_value x; intro _)
    | (intro y; clear_value y)
    | intro _
    | with_reducible assumption
    | with_reducible lift_lets -underBinder
    | with_reducible apply State.resyncF_kept hm
    | with_reducible apply State.resyncV_kept k0
    | with_reducible apply Kept.ite
    | with_reducible split
    | split

theorem State.closingWindow_kept {mm : Nat} {s0 s : State} {b : Nat} (hm : Sub 0x7ffffffff000000000000000000 mm) (h : Kept mm s0 s) : Kept mm s0 (State.closingWindow b s).2 := by
  have kz : Sub (2 ^ 107 - 2 ^ (20 + zone 0x400c0f00)) mm := Sub.trans (by decide) hm
  unfold State.closingWindow
  repeat' first
    | (intro x; refine Kept.bind (s0 := s0) (m := mm) (x := x) ?_ ?_; subst x; rotate_left; clear_value x; intro _)
    | (intro y; have w_ : Nat := y; clear w_; subst y)
    | (intro y; clear_value y)
    | intro _
    | with_reducible assumption
    | with_reducible lift_lets -underBinder
    | with_reducible refine State.setBit_kept ?_ ?_
    | exact Sub.bit (Sub.trans (by decide) hm)
    | (refine Sub.from (b := 0x400c0f00) kz ?_; (try simp only [key, bk]); omega)
    | with_reducible apply Kept.ite
    | with_reducible split
    | split

theorem State.windowHeld_kept {mm : Nat} {s0 s : State} {b : Nat} (hm : Sub 0x7ffffffff000000000000000004 mm) (h : Kept mm s0 s) : Kept mm s0 (State.windowHeld b s) := by
  have k0 : Sub 0x4 mm := Sub.trans (by decide) hm
  have kz : Sub (2 ^ 107 - 2 ^ (20 + zone 0x400c0f00)) mm := Sub.trans (by decide) hm
  unfold State.windowHeld
  repeat' first
    | (intro x; refine Kept.bind (s0 := s0) (m := mm) (x := x) ?_ ?_; subst x; rotate_left; clear_value x; intro _)
    | (intro y; clear_value y)
    | intro _
    | with_reducible assumption
    | with_reducible lift_lets -underBinder
    | with_reducible apply State.modBatch_kept k0
    | with_reducible refine State.setBit_kept ?_ ?_
    | exact Sub.bit (Sub.trans (by decide) hm)
    | (refine Sub.from (b := 0x400c0f00) kz ?_; (try simp only [key, bk]); omega)
    | with_reducible apply Kept.ite
    | with_reducible split
    | split

theorem State.endResync_kept {mm : Nat} {s0 s : State} {b code : Nat} (hm : Sub 0x4 mm) (h : Kept mm s0 s) : Kept mm s0 (State.endResync b code s) := by
  unfold State.endResync
  repeat' first
    | (intro x; refine Kept.bind (s0 := s0) (m := mm) (x := x) ?_ ?_; subst x; rotate_left; clear_value x; intro _)
    | (intro y; clear_value y)
    | intro _
    | with_reducible assumption
    | with_reducible lift_lets -underBinder
    | with_reducible apply State.modBatch_kept hm
    | with_reducible apply Kept.ite
    | with_reducible split
    | split

theorem State.refNotLive_kept {mm : Nat} {s0 s : State} {b : Nat} (hm : Sub 0x4 mm) (h : Kept mm s0 s) : Kept mm s0 (State.refNotLive b s) := by
  unfold State.refNotLive
  repeat' first
    | (intro x; refine Kept.bind (s0 := s0) (m := mm) (x := x) ?_ ?_; subst x; rotate_left; clear_value x; intro _)
    | (intro y; clear_value y)
    | intro _
    | with_reducible assumption
    | with_reducible lift_lets -underBinder
    | with_reducible apply State.endResync_kept hm
    | with_reducible apply Kept.ite
    | with_reducible split
    | split

theorem State.resyncLimit_kept {mm : Nat} {s0 s : State} {b : Nat} (hm : Sub 0x4 mm) (h : Kept mm s0 s) : Kept mm s0 (State.resyncLimit b s) := by
  unfold State.resyncLimit
  repeat' first
    | (intro x; refine Kept.bind (s0 := s0) (m := mm) (x := x) ?_ ?_; subst x; rotate_left; clear_value x; intro _)
    | (intro y; clear_value y)
    | intro _
    | with_reducible assumption
    | with_reducible lift_lets -underBinder
    | with_reducible apply State.endResync_kept hm
    | with_reducible apply Kept.ite
    | with_reducible split
    | split

theorem State.closingLimit_kept {mm : Nat} {s0 s : State} {b : Nat} (hm : Sub 0x4 mm) (h : Kept mm s0 s) : Kept mm s0 (State.closingLimit b s) := by
  unfold State.closingLimit
  repeat' first
    | (intro x; refine Kept.bind (s0 := s0) (m := mm) (x := x) ?_ ?_; subst x; rotate_left; clear_value x; intro _)
    | (intro y; clear_value y)
    | intro _
    | with_reducible assumption
    | with_reducible lift_lets -underBinder
    | with_reducible apply State.endResync_kept hm
    | with_reducible apply Kept.ite
    | with_reducible split
    | split

theorem State.resyncStep_kept {mm : Nat} {s0 s : State} {b : Nat} (hm : Sub 0x7ffffffff000000000000000024 mm) (h : Kept mm s0 s) : Kept mm s0 (State.resyncStep b s) := by
  have k0 : Sub 0x7ffffffff000000000000000020 mm := Sub.trans (by decide) hm
  have k1 : Sub 0x7ffffffff000000000000000000 mm := Sub.trans (by decide) hm
  have k2 : Sub 0x4 mm := Sub.trans (by decide) hm
  have k3 : Sub 0x7ffffffff000000000000000004 mm := Sub.trans (by decide) hm
  have kz : Sub (2 ^ 107 - 2 ^ (20 + zone 0x400c0f00)) mm := Sub.trans (by decide) hm
  unfold State.resyncStep
  repeat' first
    | (intro x; refine Kept.bind (s0 := s0) (m := mm) (x := x) ?_ ?_; subst x; rotate_left; clear_value x; intro _)
    | (intro y; have w_ : Bool × State := y; clear w_)
    | (intro y; have w_ : Nat := y; clear w_; subst y)
    | (intro y; clear_value y)
    | intro _
    | with_reducible assumption
    | with_reducible lift_lets -underBinder
    | with_reducible apply State.resyncTargets_kept k0
    | with_reducible apply State.closingWindow_kept k1
    | with_reducible apply State.modBatch_kept k2
    | with_reducible apply State.windowHeld_kept k3
    | with_reducible apply State.refNotLive_kept k2
    | with_reducible apply State.resyncLimit_kept k2
    | with_reducible apply State.closingLimit_kept k2
    | with_reducible refine State.setBit_kept ?_ ?_
    | exact Sub.bit (Sub.trans (by decide) hm)
    | (refine Sub.from (b := 0x400c0f00) kz ?_; (try simp only [key, bk]); omega)
    | with_reducible apply Kept.ite
    | with_reducible split
    | split
    | with_reducible refine Kept.snd (by assumption) ?_
    | with_reducible refine Kept.fst (by assumption) ?_

theorem State.closed_kept {mm : Nat} {s0 s : State} {b code : Nat} (hm : Sub 0x7ffffffffffc00000000000e124 mm) (h : Kept mm s0 s) : Kept mm s0 (State.closed b code s) := by
  have k0 : Sub 0x7fffd000000000000000000e000 mm := Sub.trans (by decide) hm
  have k1 : Sub 0x4 mm := Sub.trans (by decide) hm
  have k2 : Sub 0x0 mm := Sub.trans (by decide) hm
  have k3 : Sub 0x20 mm := Sub.trans (by decide) hm
  have kz : Sub (2 ^ 107 - 2 ^ (20 + zone 0x400c0f00)) mm := Sub.trans (by decide) hm
  unfold State.closed
  repeat' first
    | (intro x; refine Kept.bind (s0 := s0) (m := mm) (x := x) ?_ ?_; subst x; rotate_left; clear_value x; intro _)
    | (intro y; clear_value y)
    | intro _
    | with_reducible assumption
    | with_reducible lift_lets -underBinder
    | with_reducible apply State.logEvent_kept k0
    | with_reducible apply State.setState_kept hm
    | with_reducible apply State.modBatch_kept k1
    | with_reducible apply State.withGen_kept k2
    | with_reducible apply State.setGen_kept k3
    | with_reducible refine State.inc_kept ?_ ?_
    | with_reducible refine State.setBit_kept ?_ ?_
    | with_reducible refine State.wr_kept ?_ ?_
    | exact Sub.bit (Sub.trans (by decide) hm)
    | (refine Sub.from (b := 0x400c0f00) kz ?_; (try simp only [key, bk]); omega)
    | with_reducible apply Kept.ite
    | with_reducible split
    | split

theorem State.reconnected_kept {mm : Nat} {s0 s : State} {b : Nat} (hm : Sub 0x7ffffffff000000000000000024 mm) (h : Kept mm s0 s) : Kept mm s0 (State.reconnected b s) := by
  have k0 : Sub 0x4 mm := Sub.trans (by decide) hm
  have k1 : Sub 0x20 mm := Sub.trans (by decide) hm
  have kz : Sub (2 ^ 107 - 2 ^ (20 + zone 0x400c0f00)) mm := Sub.trans (by decide) hm
  unfold State.reconnected
  repeat' first
    | (intro x; refine Kept.bind (s0 := s0) (m := mm) (x := x) ?_ ?_; subst x; rotate_left; clear_value x; intro _)
    | (intro y; clear_value y)
    | intro _
    | with_reducible assumption
    | with_reducible lift_lets -underBinder
    | with_reducible apply State.modBatch_kept k0
    | with_reducible apply State.setGen_kept k1
    | with_reducible refine State.setBit_kept ?_ ?_
    | exact Sub.bit (Sub.trans (by decide) hm)
    | (refine Sub.from (b := 0x400c0f00) kz ?_; (try simp only [key, bk]); omega)
    | with_reducible apply Kept.ite
    | with_reducible split
    | split

theorem State.autoResync_kept {mm : Nat} {s0 s : State} {b : Nat} (hm : Sub 0x7ffffffffffc00000000000e124 mm) (h : Kept mm s0 s) : Kept mm s0 (State.autoResync b s) := by
  unfold State.autoResync
  repeat' first
    | (intro x; refine Kept.bind (s0 := s0) (m := mm) (x := x) ?_ ?_; subst x; rotate_left; clear_value x; intro _)
    | (intro y; clear_value y)
    | intro _
    | with_reducible assumption
    | with_reducible lift_lets -underBinder
    | with_reducible apply State.enterResync_kept hm
    | with_reducible apply Kept.ite
    | with_reducible split
    | split

theorem State.islanded_kept {mm : Nat} {s0 s : State} {b : Nat} (hm : Sub 0x7ffffffffffc00000000000e124 mm) (h : Kept mm s0 s) : Kept mm s0 (State.islanded b s) := by
  have k0 : Sub 0x4 mm := Sub.trans (by decide) hm
  have kz : Sub (2 ^ 107 - 2 ^ (20 + zone 0x40150500)) mm := Sub.trans (by decide) hm
  unfold State.islanded
  repeat' first
    | (intro x; refine Kept.bind (s0 := s0) (m := mm) (x := x) ?_ ?_; subst x; rotate_left; clear_value x; intro _)
    | (intro y; clear_value y)
    | intro _
    | with_reducible assumption
    | with_reducible lift_lets -underBinder
    | with_reducible apply State.modBatch_kept k0
    | with_reducible apply State.setState_kept hm
    | with_reducible refine State.inc_kept ?_ ?_
    | with_reducible refine State.wr_kept ?_ ?_
    | exact Sub.bit (Sub.trans (by decide) hm)
    | (refine Sub.from (b := 0x40150500) kz ?_; (try simp only [key, bk]); omega)
    | with_reducible apply Kept.ite
    | with_reducible split
    | split

theorem State.limit_kept {mm : Nat} {s0 s : State} {b : Nat} (hm : Sub 0x7ffffffffffc00000000000e124 mm) (h : Kept mm s0 s) : Kept mm s0 (State.limit b s) := by
  have k0 : Sub 0x4 mm := Sub.trans (by decide) hm
  have kz : Sub (2 ^ 107 - 2 ^ (20 + zone 0x40090d00)) mm := Sub.trans (by decide) hm
  unfold State.limit
  repeat' first
    | (intro x; refine Kept.bind (s0 := s0) (m := mm) (x := x) ?_ ?_; subst x; rotate_left; clear_value x; intro _)
    | (intro y; clear_value y)
    | intro _
    | with_reducible assumption
    | with_reducible lift_lets -underBinder
    | with_reducible apply State.modBatch_kept k0
    | with_reducible apply State.setState_kept hm
    | with_reducible refine State.inc_kept ?_ ?_
    | exact Sub.bit (Sub.trans (by decide) hm)
    | (refine Sub.from (b := 0x40090d00) kz ?_; (try simp only [key, bk]); omega)
    | with_reducible apply Kept.ite
    | with_reducible split
    | split

theorem State.stopped_kept {mm : Nat} {s0 s : State} {b : Nat} (hm : Sub 0x7ffffffffffc00000000000e124 mm) (h : Kept mm s0 s) : Kept mm s0 (State.stopped b s) := by
  have k0 : Sub 0x7ffffffffffc000000000000104 mm := Sub.trans (by decide) hm
  have k1 : Sub 0x4 mm := Sub.trans (by decide) hm
  have k2 : Sub 0x0 mm := Sub.trans (by decide) hm
  have k3 : Sub 0x7ffff8000000000000000000020 mm := Sub.trans (by decide) hm
  have k4 : Sub 0x7ffffffff000000000000000000 mm := Sub.trans (by decide) hm
  unfold State.stopped
  repeat' first
    | (intro x; refine Kept.bind (s0 := s0) (m := mm) (x := x) ?_ ?_; subst x; rotate_left; clear_value x; intro _)
    | (intro y; clear_value y)
    | intro _
    | with_reducible assumption
    | with_reducible lift_lets -underBinder
    | with_reducible apply State.pulseBlock_kept k0
    | with_reducible apply State.setState_kept hm
    | with_reducible apply State.modBatch_kept k1
    | with_reducible apply State.each_kept k2
    | with_reducible apply State.withGen_kept k2
    | with_reducible apply State.freeTarget_kept k3
    | with_reducible apply State.endRide_kept k4
    | with_reducible apply Kept.ite
    | with_reducible split
    | split

theorem State.runCommand_kept {mm : Nat} {s0 s : State} {b c : Nat} (hm : Sub 0x7ffffffffffc00000000000e524 mm) (h : Kept mm s0 s) : Kept mm s0 (State.runCommand b c s) := by
  have k0 : Sub 0x4 mm := Sub.trans (by decide) hm
  have k1 : Sub 0x7ffffffffffc00000000000e124 mm := Sub.trans (by decide) hm
  have k2 : Sub 0x7ffff8000000000000000000024 mm := Sub.trans (by decide) hm
  have kz : Sub (2 ^ 107 - 2 ^ (20 + zone 0x400c1600)) mm := Sub.trans (by decide) hm
  unfold State.runCommand
  repeat' first
    | (intro x; refine Kept.bind (s0 := s0) (m := mm) (x := x) ?_ ?_; subst x; rotate_left; clear_value x; intro _)
    | (intro y; clear_value y)
    | intro _
    | with_reducible assumption
    | with_reducible lift_lets -underBinder
    | with_reducible apply State.modBatch_kept k0
    | with_reducible apply State.enterPrecharge_kept hm
    | with_reducible apply State.setState_kept k1
    | with_reducible apply State.startStop_kept k2
    | with_reducible apply State.stopped_kept k1
    | with_reducible apply State.enterStarter_kept k1
    | with_reducible apply State.islanded_kept k1
    | with_reducible apply State.enterResync_kept k1
    | with_reducible apply State.enterBlackStart_kept k1
    | with_reducible refine State.inc_kept ?_ ?_
    | with_reducible refine State.wr_kept ?_ ?_
    | exact Sub.bit (Sub.trans (by decide) hm)
    | (refine Sub.from (b := 0x400c1600) kz ?_; (try simp only [key, bk]); omega)
    | with_reducible apply Kept.ite
    | with_reducible split
    | split

theorem State.disconnected_kept {mm : Nat} {s0 s : State} {b : Nat} (hm : Sub 0x7ffffffffffc00000000000e124 mm) (h : Kept mm s0 s) : Kept mm s0 (State.disconnected b s) := by
  have k0 : Sub 0x7fffffc00000000000000000004 mm := Sub.trans (by decide) hm
  unfold State.disconnected
  repeat' first
    | (intro x; refine Kept.bind (s0 := s0) (m := mm) (x := x) ?_ ?_; subst x; rotate_left; clear_value x; intro _)
    | (intro y; clear_value y)
    | intro _
    | with_reducible assumption
    | with_reducible lift_lets -underBinder
    | with_reducible apply State.demand_kept k0
    | with_reducible apply State.faultReaction_kept hm
    | with_reducible apply State.enterCoast_kept hm
    | with_reducible apply Kept.ite
    | with_reducible split
    | split

theorem State.transition_kept {mm : Nat} {s0 s : State} {b : Nat} (hm : Sub 0x7ffffffffffc00000000000e524 mm) (h : Kept mm s0 s) : Kept mm s0 (State.transition b s) := by
  have k0 : Sub 0x4 mm := Sub.trans (by decide) hm
  have k1 : Sub 0x7ffffffffffc00000000000e124 mm := Sub.trans (by decide) hm
  have k2 : Sub 0x7ffff8000000000000000000024 mm := Sub.trans (by decide) hm
  have kz : Sub (2 ^ 107 - 2 ^ (20 + zone 0x400c1600)) mm := Sub.trans (by decide) hm
  unfold State.transition
  repeat' first
    | (intro x; refine Kept.bind (s0 := s0) (m := mm) (x := x) ?_ ?_; subst x; rotate_left; clear_value x; intro _)
    | (intro y; clear_value y)
    | intro _
    | with_reducible assumption
    | with_reducible lift_lets -underBinder
    | with_reducible apply State.modBatch_kept k0
    | with_reducible apply State.blockBatch_kept k1
    | with_reducible apply State.islanded_kept k1
    | with_reducible apply State.disconnected_kept k1
    | with_reducible apply State.setState_kept k1
    | with_reducible apply State.limit_kept k1
    | with_reducible apply State.startStop_kept k2
    | with_reducible apply State.closed_kept k1
    | with_reducible apply State.runCommand_kept hm
    | with_reducible apply State.stopped_kept k1
    | with_reducible apply State.coastLimit_kept k2
    | with_reducible apply State.autoResync_kept k1
    | with_reducible refine State.inc_kept ?_ ?_
    | with_reducible refine State.wr_kept ?_ ?_
    | exact Sub.bit (Sub.trans (by decide) hm)
    | (refine Sub.from (b := 0x400c1600) kz ?_; (try simp only [key, bk]); omega)
    | with_reducible apply Kept.ite
    | with_reducible split
    | split

theorem State.enqueueCycle_kept {mm : Nat} {s0 s : State} {b : Nat} (hm : Sub 0x7ffffffffffc00000000000e174 mm) (h : Kept mm s0 s) : Kept mm s0 (State.enqueueCycle b s) := by
  have k0 : Sub 0x4 mm := Sub.trans (by decide) hm
  have k1 : Sub 0x7fffffc00000000000000000000 mm := Sub.trans (by decide) hm
  unfold State.enqueueCycle
  repeat' first
    | (intro x; refine Kept.bind (s0 := s0) (m := mm) (x := x) ?_ ?_; subst x; rotate_left; clear_value x; intro _)
    | (intro y; clear_value y)
    | intro _
    | with_reducible assumption
    | with_reducible lift_lets -underBinder
    | with_reducible apply State.modBatch_kept k0
    | with_reducible apply State.miss_kept hm
    | with_reducible apply State.notePeak_kept k1
    | with_reducible apply Kept.ite
    | with_reducible split
    | split

theorem State.stepGens_kept {mm : Nat} {s0 s : State} {b : Nat} (hm : Sub 0x7ffff8000000000000000000000 mm) (h : Kept mm s0 s) : Kept mm s0 (State.stepGens b s) := by
  have k0 : Sub 0x0 mm := Sub.trans (by decide) hm
  unfold State.stepGens
  repeat' first
    | (intro x; refine Kept.bind (s0 := s0) (m := mm) (x := x) ?_ ?_; subst x; rotate_left; clear_value x; intro _)
    | (intro y; clear_value y)
    | intro _
    | with_reducible assumption
    | with_reducible lift_lets -underBinder
    | with_reducible apply State.each_kept k0
    | with_reducible apply State.genStep_kept hm
    | with_reducible apply Kept.ite
    | with_reducible split
    | split

theorem State.leftover_kept {mm : Nat} {s0 s : State} {b : Nat} (hm : Sub 0x7ffffffffffc00000000000e174 mm) (h : Kept mm s0 s) : Kept mm s0 (State.leftover b s) := by
  have k0 : Sub 0x4 mm := Sub.trans (by decide) hm
  unfold State.leftover
  repeat' first
    | (intro x; refine Kept.bind (s0 := s0) (m := mm) (x := x) ?_ ?_; subst x; rotate_left; clear_value x; intro _)
    | (intro y; clear_value y)
    | intro _
    | with_reducible assumption
    | with_reducible lift_lets -underBinder
    | with_reducible apply State.miss_kept hm
    | with_reducible apply State.modBatch_kept k0
    | with_reducible apply Kept.ite
    | with_reducible split
    | split

theorem State.boundary_kept {mm : Nat} {s0 s : State} {b : Nat} (hm : Sub 0x7fffffffffffffffe000001e164 mm) (h : Kept mm s0 s) : Kept mm s0 (State.boundary b s) := by
  have k0 : Sub 0x4 mm := Sub.trans (by decide) hm
  have k1 : Sub 0x1000000000000000000044 mm := Sub.trans (by decide) hm
  have kz : Sub (2 ^ 107 - 2 ^ (20 + zone 0x40040600)) mm := Sub.trans (by decide) hm
  unfold State.boundary
  repeat' first
    | (intro x; refine Kept.bind (s0 := s0) (m := mm) (x := x) ?_ ?_; subst x; rotate_left; clear_value x; intro _)
    | (intro y; clear_value y)
    | intro _
    | with_reducible assumption
    | with_reducible lift_lets -underBinder
    | with_reducible apply State.setBatch_kept k0
    | with_reducible apply State.checkNextFree_kept k1
    | with_reducible apply State.sliceBoundary_kept hm
    | with_reducible refine State.wr_kept ?_ ?_
    | exact Sub.bit (Sub.trans (by decide) hm)
    | (refine Sub.from (b := 0x40040600) kz ?_; (try simp only [key, bk]); omega)
    | with_reducible apply Kept.ite
    | with_reducible split
    | split

theorem State.starterWork_kept {mm : Nat} {s0 s : State} {b : Nat} (hm : Sub 0x7ffffffffffc00000000000e13c mm) (h : Kept mm s0 s) : Kept mm s0 (State.starterWork b s) := by
  have k0 : Sub 0x7ffffffff000000000000000024 mm := Sub.trans (by decide) hm
  unfold State.starterWork
  repeat' first
    | (intro x; refine Kept.bind (s0 := s0) (m := mm) (x := x) ?_ ?_; subst x; rotate_left; clear_value x; intro _)
    | (intro y; clear_value y)
    | intro _
    | with_reducible assumption
    | with_reducible lift_lets -underBinder
    | with_reducible apply State.starterStep_kept hm
    | with_reducible apply State.resyncStep_kept k0
    | with_reducible apply Kept.ite
    | with_reducible split
    | split

theorem State.stateWork_kept {mm : Nat} {s0 s : State} {b : Nat} (hm : Sub 0x7ffffffffffc00000000000e53c mm) (h : Kept mm s0 s) : Kept mm s0 (State.stateWork b s) := by
  have k0 : Sub 0x7ffffffff00000000000000e004 mm := Sub.trans (by decide) hm
  have k1 : Sub 0x7ffffffff000000000000000004 mm := Sub.trans (by decide) hm
  have k2 : Sub 0x7fffffc00000000000000000004 mm := Sub.trans (by decide) hm
  have k3 : Sub 0x7ffffffff000000000000000000 mm := Sub.trans (by decide) hm
  have k4 : Sub 0x7ffffffff000000000000000018 mm := Sub.trans (by decide) hm
  have k5 : Sub 0x7ffffffffffc00000000000e124 mm := Sub.trans (by decide) hm
  have k6 : Sub 0x7ffffffffffc00000000000e524 mm := Sub.trans (by decide) hm
  have k7 : Sub 0x7ffffffffffc00000000000e13c mm := Sub.trans (by decide) hm
  have k8 : Sub 0x7ffffffff000000000000000024 mm := Sub.trans (by decide) hm
  have kz : Sub (2 ^ 107 - 2 ^ (20 + zone 0x40150500)) mm := Sub.trans (by decide) hm
  unfold State.stateWork
  repeat' first
    | (intro x; refine Kept.bind (s0 := s0) (m := mm) (x := x) ?_ ?_; subst x; rotate_left; clear_value x; intro _)
    | (intro y; clear_value y)
    | intro _
    | with_reducible assumption
    | with_reducible lift_lets -underBinder
    | with_reducible apply State.envelopes_kept k0
    | with_reducible apply State.refStep_kept k1
    | with_reducible apply State.tooLong_kept k2
    | with_reducible apply State.dcStep_kept k1
    | with_reducible apply State.endRide_kept k3
    | with_reducible apply State.reclose_kept k4
    | with_reducible apply State.openLoopTimeout_kept k5
    | with_reducible apply State.faultReaction_kept k5
    | with_reducible apply State.transition_kept k6
    | with_reducible apply State.prechargeStep_kept k5
    | with_reducible apply State.starterWork_kept k7
    | with_reducible apply State.blackStep_kept k7
    | with_reducible apply State.resyncStep_kept k8
    | with_reducible apply State.guard_kept k3
    | with_reducible apply State.limitedTime_kept k3
    | with_reducible apply State.applyStaged_kept k8
    | with_reducible refine State.setBit_kept ?_ ?_
    | exact Sub.bit (Sub.trans (by decide) hm)
    | (refine Sub.from (b := 0x40150500) kz ?_; (try simp only [key, bk]); omega)
    | with_reducible apply Kept.ite
    | with_reducible split
    | split

theorem State.sampleCore_kept {mm : Nat} {s0 s : State} {b : Nat} (hm : Sub 0x7fffffffffffffffe000001e5fe mm) (h : Kept mm s0 s) : Kept mm s0 (State.sampleCore b s) := by
  have k0 : Sub 0x7ffffffff000000000000000018 mm := Sub.trans (by decide) hm
  have k1 : Sub 0x7ffffffff000000000000000086 mm := Sub.trans (by decide) hm
  have k2 : Sub 0x7ffffffffffc00000000000e53c mm := Sub.trans (by decide) hm
  have k3 : Sub 0x7ffff8000000000000000000000 mm := Sub.trans (by decide) hm
  have k4 : Sub 0x7ffffffff000000000000000024 mm := Sub.trans (by decide) hm
  have k5 : Sub 0x7fffffffffffffffe000001e164 mm := Sub.trans (by decide) hm
  have k6 : Sub 0x7ffffffffffc00000000000e174 mm := Sub.trans (by decide) hm
  unfold State.sampleCore
  repeat' first
    | (intro x; refine Kept.bind (s0 := s0) (m := mm) (x := x) ?_ ?_; subst x; rotate_left; clear_value x; intro _)
    | (intro y; clear_value y)
    | intro _
    | with_reducible assumption
    | with_reducible lift_lets -underBinder
    | with_reducible apply State.bankSwap_kept k0
    | with_reducible apply State.chainSwapsFor_kept k1
    | with_reducible apply State.stateWork_kept k2
    | with_reducible apply State.stepGens_kept k3
    | with_reducible apply State.reconnected_kept k4
    | with_reducible apply State.boundary_kept k5
    | with_reducible apply State.enqueueCycle_kept k6
    | with_reducible apply Kept.ite
    | with_reducible split
    | split

end Sys2Proof.Machine
end

