-- ==== Sys2Proof/Laws/KeptModuleOps.lean ====
section
/-! SUPPORT. What the operations of Machine/ModuleOps.lean may change (Safety.lean, Kept): one lemma for each. -/

set_option linter.all false

namespace Sys2Proof.Machine

theorem State.coordination_kept {mm : Nat} {s0 s : State} (hm : Sub 0x7ffffffff00000000000000e000 mm) (h : Kept mm s0 s) : Kept mm s0 (State.coordination s) := by
  have k0 : Sub 0x0 mm := Sub.trans (by decide) hm
  have k1 : Sub 0x7fffd000000000000000000e000 mm := Sub.trans (by decide) hm
  have kz : Sub (2 ^ 107 - 2 ^ (20 + zone 0x400a1200)) mm := Sub.trans (by decide) hm
  unfold State.coordination
  repeat' first
    | (intro x; refine Kept.bind (s0 := s0) (m := mm) (x := x) ?_ ?_; subst x; rotate_left; clear_value x; intro _)
    | (intro y; clear_value y)
    | intro _
    | with_reducible assumption
    | with_reducible lift_lets -underBinder
    | with_reducible apply State.each_kept k0
    | with_reducible apply State.logEvent_kept k1
    | with_reducible refine State.setBit_kept ?_ ?_
    | exact Sub.bit (Sub.trans (by decide) hm)
    | (refine Sub.from (b := 0x400a1200) kz ?_; (try simp only [key, bk]); omega)
    | with_reducible apply Kept.ite
    | with_reducible split
    | split

theorem State.pubLists_kept {mm : Nat} {s0 s : State} (hm : Sub 0x40000 mm) (h : Kept mm s0 s) : Kept mm s0 (State.pubLists s) := by
  have k0 : Sub 0x0 mm := Sub.trans (by decide) hm
  unfold State.pubLists
  repeat' first
    | (intro x; refine Kept.bind (s0 := s0) (m := mm) (x := x) ?_ ?_; subst x; rotate_left; clear_value x; intro _)
    | (intro y; clear_value y)
    | intro _
    | with_reducible assumption
    | with_reducible lift_lets -underBinder
    | with_reducible apply State.each_kept k0
    | with_reducible apply Kept.ite
    | with_reducible split
    | split
    | with_reducible apply Kept.upd_net hm

theorem State.confRevs_kept {mm : Nat} {s0 s : State} (hm : Sub 0x7fffffffffff000000000040000 mm) (h : Kept mm s0 s) : Kept mm s0 (State.confRevs s) := by
  have k0 : Sub 0x0 mm := Sub.trans (by decide) hm
  have k1 : Sub 0x40000 mm := Sub.trans (by decide) hm
  have kz : Sub (2 ^ 107 - 2 ^ (20 + zone 0x27400900)) mm := Sub.trans (by decide) hm
  unfold State.confRevs
  repeat' first
    | (intro x; refine Kept.bind (s0 := s0) (m := mm) (x := x) ?_ ?_; subst x; rotate_left; clear_value x; intro _)
    | (intro y; clear_value y)
    | intro _
    | with_reducible assumption
    | with_reducible lift_lets -underBinder
    | with_reducible apply State.each_kept k0
    | with_reducible refine State.inc_kept ?_ ?_
    | exact Sub.bit (Sub.trans (by decide) hm)
    | (refine Sub.from (b := 0x27400900) kz ?_; (try simp only [key, bk]); omega)
    | with_reducible apply Kept.ite
    | with_reducible split
    | split
    | with_reducible apply Kept.upd_net k1

theorem State.bootUp_kept {mm : Nat} {s0 s : State} (hm : Sub 0x40000 mm) (h : Kept mm s0 s) : Kept mm s0 (State.bootUp s) := by
  have k0 : Sub 0x0 mm := Sub.trans (by decide) hm
  unfold State.bootUp
  repeat' first
    | (intro x; refine Kept.bind (s0 := s0) (m := mm) (x := x) ?_ ?_; subst x; rotate_left; clear_value x; intro _)
    | (intro y; clear_value y)
    | intro _
    | with_reducible assumption
    | with_reducible lift_lets -underBinder
    | with_reducible apply State.each_kept k0
    | with_reducible apply State.msg_kept k0
    | with_reducible apply Kept.ite
    | with_reducible split
    | split
    | with_reducible apply Kept.upd_net hm

theorem State.askBridges_kept {mm : Nat} {s0 s : State} {cause : Nat} (hm : Sub 0x8000 mm) (h : Kept mm s0 s) : Kept mm s0 (State.askBridges cause s) := by
  unfold State.askBridges
  repeat' first
    | (intro x; refine Kept.bind (s0 := s0) (m := mm) (x := x) ?_ ?_; subst x; rotate_left; clear_value x; intro _)
    | (intro y; clear_value y)
    | intro _
    | with_reducible assumption
    | with_reducible lift_lets -underBinder
    | with_reducible apply State.rackMsg_kept hm
    | with_reducible apply Kept.ite
    | with_reducible split
    | split

theorem State.setMod_kept {mm : Nat} {s0 s : State} {new : ModState} (hm : Sub 0x7fffffffffff00000000306e164 mm) (h : Kept mm s0 s) : Kept mm s0 (State.setMod new s) := by
  have k0 : Sub 0x7fffd000000000000000000e000 mm := Sub.trans (by decide) hm
  have k1 : Sub 0x0 mm := Sub.trans (by decide) hm
  have k2 : Sub 0x7ffffffffffc00000000000e124 mm := Sub.trans (by decide) hm
  have k3 : Sub 0x20000 mm := Sub.trans (by decide) hm
  have k4 : Sub 0x40000 mm := Sub.trans (by decide) hm
  have k5 : Sub 0x7fffffc00000000000000000044 mm := Sub.trans (by decide) hm
  have k6 : Sub 0x7ffffffffffc000000000000100 mm := Sub.trans (by decide) hm
  have k7 : Sub 0x7ffffffff00000000000000e000 mm := Sub.trans (by decide) hm
  have k8 : Sub 0x7fffffffffff000000000040000 mm := Sub.trans (by decide) hm
  have k9 : Sub 0x8000 mm := Sub.trans (by decide) hm
  unfold State.setMod
  repeat' first
    | (intro x; refine Kept.bind (s0 := s0) (m := mm) (x := x) ?_ ?_; subst x; rotate_left; clear_value x; intro _)
    | (intro y; clear_value y)
    | intro _
    | with_reducible assumption
    | with_reducible lift_lets -underBinder
    | with_reducible apply State.logEvent_kept k0
    | with_reducible apply State.each_kept k1
    | with_reducible apply State.blockBatch_kept k2
    | with_reducible apply State.modSrv_kept k3
    | with_reducible apply State.bootUp_kept k4
    | with_reducible apply State.queuesInForce_kept k5
    | with_reducible apply State.endTest_kept k6
    | with_reducible apply State.coordination_kept k7
    | with_reducible apply State.confRevs_kept k8
    | with_reducible refine State.wr_kept ?_ ?_
    | exact Sub.bit (Sub.trans (by decide) hm)
    | with_reducible apply Kept.ite
    | with_reducible split
    | split
    | with_reducible apply Kept.upd_rack k9

theorem State.dropAuthority_kept {mm : Nat} {s0 s : State} {turn : Option Time} (hm : Sub 0x7fffffffffff00040000307e164 mm) (h : Kept mm s0 s) : Kept mm s0 (State.dropAuthority turn s) := by
  have k0 : Sub 0x8000 mm := Sub.trans (by decide) hm
  have k1 : Sub 0x7fffffffffff00000000306e164 mm := Sub.trans (by decide) hm
  have k2 : Sub 0x10000 mm := Sub.trans (by decide) hm
  unfold State.dropAuthority
  repeat' first
    | (intro x; refine Kept.bind (s0 := s0) (m := mm) (x := x) ?_ ?_; subst x; rotate_left; clear_value x; intro _)
    | (intro y; clear_value y)
    | intro _
    | with_reducible assumption
    | with_reducible lift_lets -underBinder
    | with_reducible apply State.modRack_kept k0
    | with_reducible apply State.setMod_kept k1
    | with_reducible apply State.askBridges_kept k0
    | with_reducible refine State.inc_kept ?_ ?_
    | with_reducible refine State.wr_kept ?_ ?_
    | exact Sub.bit (Sub.trans (by decide) hm)
    | with_reducible apply Kept.ite
    | with_reducible split
    | split
    | with_reducible apply Kept.upd_power k2

theorem State.supersede_kept {mm : Nat} {s0 s : State} (hm : Sub 0x7fffffffffff00040000307e164 mm) (h : Kept mm s0 s) : Kept mm s0 (State.supersede s) := by
  have k0 : Sub 0x7fffffffffff00000000306e164 mm := Sub.trans (by decide) hm
  unfold State.supersede
  repeat' first
    | (intro x; refine Kept.bind (s0 := s0) (m := mm) (x := x) ?_ ?_; subst x; rotate_left; clear_value x; intro _)
    | (intro y; clear_value y)
    | intro _
    | with_reducible assumption
    | with_reducible lift_lets -underBinder
    | with_reducible apply State.dropAuthority_kept hm
    | with_reducible apply State.setMod_kept k0
    | with_reducible apply Kept.ite
    | with_reducible split
    | split

end Sys2Proof.Machine
end

