-- ==== Sys2Proof/Laws/KeptLinks.lean ====
section
/-! SUPPORT. What the operations of Machine/Links.lean may change (Safety.lean, Kept): one lemma for each. -/

set_option linter.all false

namespace Sys2Proof.Machine

theorem State.setLink_kept {mm : Nat} {s0 s : State} {k : Nat} {r : LinkRec} (hm : Sub 0x200 mm) (h : Kept mm s0 s) : Kept mm s0 (State.setLink k r s) := by
  unfold State.setLink
  repeat' first
    | (intro x; refine Kept.bind (s0 := s0) (m := mm) (x := x) ?_ ?_; subst x; rotate_left; clear_value x; intro _)
    | (intro y; clear_value y)
    | intro _
    | with_reducible assumption
    | with_reducible lift_lets -underBinder
    | with_reducible apply Kept.ite
    | with_reducible split
    | split
    | with_reducible apply Kept.upd_links hm

theorem State.setNode_kept {mm : Nat} {s0 s : State} {n : Nat} {r : NodeRec} (hm : Sub 0x200 mm) (h : Kept mm s0 s) : Kept mm s0 (State.setNode n r s) := by
  unfold State.setNode
  repeat' first
    | (intro x; refine Kept.bind (s0 := s0) (m := mm) (x := x) ?_ ?_; subst x; rotate_left; clear_value x; intro _)
    | (intro y; clear_value y)
    | intro _
    | with_reducible assumption
    | with_reducible lift_lets -underBinder
    | with_reducible apply Kept.ite
    | with_reducible split
    | split
    | with_reducible apply Kept.upd_links hm

theorem State.syncLink_kept {mm : Nat} {s0 s : State} {k : Nat} (hm : Sub 0x7ffffffff800000000000000000 mm) (h : Kept mm s0 s) : Kept mm s0 (State.syncLink k s) := by
  have kz : Sub (2 ^ 107 - 2 ^ (20 + zone 0x37000500)) mm := Sub.trans (by decide) hm
  unfold State.syncLink
  repeat' first
    | (intro x; refine Kept.bind (s0 := s0) (m := mm) (x := x) ?_ ?_; subst x; rotate_left; clear_value x; intro _)
    | (intro y; clear_value y)
    | intro _
    | with_reducible assumption
    | with_reducible lift_lets -underBinder
    | with_reducible refine State.setBit_kept ?_ ?_
    | with_reducible refine State.wr_kept ?_ ?_
    | exact Sub.bit (Sub.trans (by decide) hm)
    | (refine Sub.from (b := 0x37000500) kz ?_; (try simp only [key, bk, lk]); omega)
    | with_reducible apply Kept.ite
    | with_reducible split
    | split

theorem State.checkNodes_kept {mm : Nat} {s0 s : State} (hm : Sub 0x7ffffffffc00000000000000000 mm) (h : Kept mm s0 s) : Kept mm s0 (State.checkNodes s) := by
  have k0 : Sub 0x0 mm := Sub.trans (by decide) hm
  have kz : Sub (2 ^ 107 - 2 ^ (20 + zone 0x34000500)) mm := Sub.trans (by decide) hm
  unfold State.checkNodes
  repeat' first
    | (intro x; refine Kept.bind (s0 := s0) (m := mm) (x := x) ?_ ?_; subst x; rotate_left; clear_value x; intro _)
    | (intro y; clear_value y)
    | intro _
    | with_reducible assumption
    | with_reducible lift_lets -underBinder
    | with_reducible apply State.each_kept k0
    | with_reducible refine State.inc_kept ?_ ?_
    | with_reducible refine State.wr_kept ?_ ?_
    | exact Sub.bit (Sub.trans (by decide) hm)
    | (refine Sub.from (b := 0x34000500) kz ?_; (try simp only [key, bk, ndk]); omega)
    | with_reducible apply Kept.ite
    | with_reducible split
    | split

theorem State.frameDeparture_kept {mm : Nat} {s0 s : State} (hm : Sub 0x7ffffffffc00000000000000204 mm) (h : Kept mm s0 s) : Kept mm s0 (State.frameDeparture s) := by
  have k0 : Sub 0x0 mm := Sub.trans (by decide) hm
  have k1 : Sub 0x200 mm := Sub.trans (by decide) hm
  have k2 : Sub 0x4 mm := Sub.trans (by decide) hm
  have k3 : Sub 0x7ffffffffc00000000000000000 mm := Sub.trans (by decide) hm
  have kz : Sub (2 ^ 107 - 2 ^ (20 + zone 0x37000b00)) mm := Sub.trans (by decide) hm
  unfold State.frameDeparture
  repeat' first
    | (intro x; refine Kept.bind (s0 := s0) (m := mm) (x := x) ?_ ?_; subst x; rotate_left; clear_value x; intro _)
    | (intro y; clear_value y)
    | intro _
    | with_reducible assumption
    | with_reducible lift_lets -underBinder
    | with_reducible apply State.each_kept k0
    | with_reducible apply State.msg_kept k0
    | with_reducible apply State.setLink_kept k1
    | with_reducible apply State.setBatch_kept k2
    | with_reducible apply State.checkNodes_kept k3
    | with_reducible refine State.inc_kept ?_ ?_
    | exact Sub.bit (Sub.trans (by decide) hm)
    | (refine Sub.from (b := 0x37000b00) kz ?_; (try simp only [key, bk, lk]); omega)
    | with_reducible apply Kept.ite
    | with_reducible split
    | split

theorem State.higherEpoch_kept {mm : Nat} {s0 s : State} {k e : Nat} (hm : Sub 0x7fffffffffff00040000307e364 mm) (h : Kept mm s0 s) : Kept mm s0 (State.higherEpoch k e s) := by
  have k0 : Sub 0x7fffffffffff00040000307e164 mm := Sub.trans (by decide) hm
  have k1 : Sub 0x7fffd000000000000000000e000 mm := Sub.trans (by decide) hm
  have k2 : Sub 0x200 mm := Sub.trans (by decide) hm
  have kz : Sub (2 ^ 107 - 2 ^ (20 + zone 0x37001000)) mm := Sub.trans (by decide) hm
  unfold State.higherEpoch
  repeat' first
    | (intro x; refine Kept.bind (s0 := s0) (m := mm) (x := x) ?_ ?_; subst x; rotate_left; clear_value x; intro _)
    | (intro y; clear_value y)
    | intro _
    | with_reducible assumption
    | with_reducible lift_lets -underBinder
    | with_reducible apply State.supersede_kept k0
    | with_reducible apply State.logEvent_kept k1
    | with_reducible refine State.setBit_kept ?_ ?_
    | with_reducible refine State.wr_kept ?_ ?_
    | exact Sub.bit (Sub.trans (by decide) hm)
    | (refine Sub.from (b := 0x37001000) kz ?_; (try simp only [key, bk, lk]); omega)
    | with_reducible apply Kept.ite
    | with_reducible split
    | split
    | with_reducible apply Kept.upd_links k2

theorem State.noteOverlap_kept {mm : Nat} {s0 s : State} {hd : FrameHead} (hm : Sub 0x7ffffffffffc00040000000e124 mm) (h : Kept mm s0 s) : Kept mm s0 (State.noteOverlap hd s) := by
  have k0 : Sub 0x7ffffffffffc00000000000e124 mm := Sub.trans (by decide) hm
  have k1 : Sub 0x8000 mm := Sub.trans (by decide) hm
  unfold State.noteOverlap
  repeat' first
    | (intro x; refine Kept.bind (s0 := s0) (m := mm) (x := x) ?_ ?_; subst x; rotate_left; clear_value x; intro _)
    | (intro y; clear_value y)
    | intro _
    | with_reducible assumption
    | with_reducible lift_lets -underBinder
    | with_reducible apply State.stopped_kept k0
    | with_reducible apply State.modRack_kept k1
    | with_reducible refine State.wr_kept ?_ ?_
    | exact Sub.bit (Sub.trans (by decide) hm)
    | with_reducible apply Kept.ite
    | with_reducible split
    | split

theorem State.useSlot_kept {mm : Nat} {s0 s : State} {n : Nat} {tf : Time} {u : UpSlot} (hm : Sub 0x7ffffffffffc00000000000e200 mm) (h : Kept mm s0 s) : Kept mm s0 (State.useSlot n tf u s) := by
  have k0 : Sub 0x2000 mm := Sub.trans (by decide) hm
  have k1 : Sub 0x0 mm := Sub.trans (by decide) hm
  have k2 : Sub 0x7fffd000000000000000000e000 mm := Sub.trans (by decide) hm
  have k3 : Sub 0x200 mm := Sub.trans (by decide) hm
  have kz : Sub (2 ^ 107 - 2 ^ (20 + zone 0x30000f00)) mm := Sub.trans (by decide) hm
  unfold State.useSlot
  repeat' first
    | (intro x; refine Kept.bind (s0 := s0) (m := mm) (x := x) ?_ ?_; subst x; rotate_left; clear_value x; intro _)
    | (intro y; clear_value y)
    | intro _
    | with_reducible assumption
    | with_reducible lift_lets -underBinder
    | with_reducible apply State.acqValue_kept k0
    | with_reducible apply State.each_kept k1
    | with_reducible apply State.logEvent_kept k2
    | with_reducible refine State.inc_kept ?_ ?_
    | with_reducible refine State.setBit_kept ?_ ?_
    | with_reducible refine State.wr_kept ?_ ?_
    | exact Sub.bit (Sub.trans (by decide) hm)
    | (refine Sub.from (b := 0x30000f00) kz ?_; (try simp only [key, bk, chk, ndk]); omega)
    | with_reducible apply Kept.ite
    | with_reducible split
    | split
    | with_reducible apply Kept.upd_links k3

theorem State.nodeFaults_kept {mm : Nat} {s0 s : State} {used : List (Nat × UpSlot)} (hm : Sub 0x7ffffffffffc00000000000e124 mm) (h : Kept mm s0 s) : Kept mm s0 (State.nodeFaults used s) := by
  have k0 : Sub 0x0 mm := Sub.trans (by decide) hm
  unfold State.nodeFaults
  repeat' first
    | (intro x; refine Kept.bind (s0 := s0) (m := mm) (x := x) ?_ ?_; subst x; rotate_left; clear_value x; intro _)
    | (intro y; clear_value y)
    | intro _
    | with_reducible assumption
    | with_reducible lift_lets -underBinder
    | with_reducible apply State.each_kept k0
    | with_reducible apply State.blockBatch_kept hm
    | with_reducible apply Kept.ite
    | with_reducible split
    | split

theorem State.takeResponse_kept {mm : Nat} {s0 s : State} {k code pos data : Nat} (hm : Sub 0x7ffffffffc00000000000028200 mm) (h : Kept mm s0 s) : Kept mm s0 (State.takeResponse k code pos data s) := by
  have k0 : Sub 0x200 mm := Sub.trans (by decide) hm
  have k1 : Sub 0x28000 mm := Sub.trans (by decide) hm
  have k2 : Sub 0x0 mm := Sub.trans (by decide) hm
  have kz : Sub (2 ^ 107 - 2 ^ (20 + zone 0x34001d00)) mm := Sub.trans (by decide) hm
  unfold State.takeResponse
  repeat' first
    | (intro x; refine Kept.bind (s0 := s0) (m := mm) (x := x) ?_ ?_; subst x; rotate_left; clear_value x; intro _)
    | (intro y; clear_value y)
    | intro _
    | with_reducible assumption
    | with_reducible lift_lets -underBinder
    | with_reducible apply State.setLink_kept k0
    | with_reducible apply State.answerTo_kept k1
    | with_reducible apply State.emit_kept k2
    | with_reducible apply State.sessionReply_kept k1
    | with_reducible apply State.segmentOf_kept k1
    | with_reducible refine State.wr_kept ?_ ?_
    | exact Sub.bit (Sub.trans (by decide) hm)
    | (refine Sub.from (b := 0x34001d00) kz ?_; (try simp only [key, bk, ndk]); omega)
    | with_reducible apply Kept.ite
    | with_reducible split
    | split

theorem State.noteLocked_kept {mm : Nat} {s0 s : State} {k : Nat} {slots : List UpSlot} (hm : Sub 0x200 mm) (h : Kept mm s0 s) : Kept mm s0 (State.noteLocked k slots s) := by
  unfold State.noteLocked
  repeat' first
    | (intro x; refine Kept.bind (s0 := s0) (m := mm) (x := x) ?_ ?_; subst x; rotate_left; clear_value x; intro _)
    | (intro y; clear_value y)
    | intro _
    | with_reducible assumption
    | with_reducible lift_lets -underBinder
    | with_reducible apply State.setLink_kept hm
    | with_reducible apply Kept.ite
    | with_reducible split
    | split
    | with_reducible apply Kept.upd_links hm
    | with_reducible apply Kept.foldl_snd
    | with_reducible apply Kept.foldl_fst
    | with_reducible apply Kept.foldl

theorem State.startService_kept {mm : Nat} {s0 s : State} {k : Nat} (hm : Sub 0x7ffffffff800000000000000200 mm) (h : Kept mm s0 s) : Kept mm s0 (State.startService k s) := by
  have k0 : Sub 0x200 mm := Sub.trans (by decide) hm
  have kz : Sub (2 ^ 107 - 2 ^ (20 + zone 0x37000300)) mm := Sub.trans (by decide) hm
  unfold State.startService
  repeat' first
    | (intro x; refine Kept.bind (s0 := s0) (m := mm) (x := x) ?_ ?_; subst x; rotate_left; clear_value x; intro _)
    | (intro y; clear_value y)
    | intro _
    | with_reducible assumption
    | with_reducible lift_lets -underBinder
    | with_reducible apply State.setLink_kept k0
    | with_reducible refine State.wr_kept ?_ ?_
    | exact Sub.bit (Sub.trans (by decide) hm)
    | (refine Sub.from (b := 0x37000300) kz ?_; (try simp only [key, bk, lk]); omega)
    | with_reducible apply Kept.ite
    | with_reducible split
    | split

theorem State.upFrame_kept {mm : Nat} {s0 s : State} {k : Nat} {f : UpFrame} (hm : Sub 0x7fffffffffff00040000307e364 mm) (h : Kept mm s0 s) : Kept mm s0 (State.upFrame k f s) := by
  have k0 : Sub 0x0 mm := Sub.trans (by decide) hm
  have k1 : Sub 0x7ffffffffffc00040000000e124 mm := Sub.trans (by decide) hm
  have k2 : Sub 0x7fffd000000000000000000e000 mm := Sub.trans (by decide) hm
  have k3 : Sub 0x7ffffffffffc00000000000e200 mm := Sub.trans (by decide) hm
  have k4 : Sub 0x200 mm := Sub.trans (by decide) hm
  have k5 : Sub 0x7ffffffffffc00000000000e124 mm := Sub.trans (by decide) hm
  have k6 : Sub 0x7ffffffffc00000000000028200 mm := Sub.trans (by decide) hm
  have k7 : Sub 0x7ffffffff800000000000000200 mm := Sub.trans (by decide) hm
  have kz : Sub (2 ^ 107 - 2 ^ (20 + zone 0x34001700)) mm := Sub.trans (by decide) hm
  unfold State.upFrame
  repeat' first
    | (intro x; refine Kept.bind (s0 := s0) (m := mm) (x := x) ?_ ?_; subst x; rotate_left; clear_value x; intro _)
    | (intro y; clear_value y)
    | intro _
    | with_reducible assumption
    | with_reducible lift_lets -underBinder
    | with_reducible apply State.msg_kept k0
    | with_reducible apply State.higherEpoch_kept hm
    | with_reducible apply State.noteOverlap_kept k1
    | with_reducible apply State.each_kept k0
    | with_reducible apply State.logEvent_kept k2
    | with_reducible apply State.useSlot_kept k3
    | with_reducible apply State.noteLocked_kept k4
    | with_reducible apply State.nodeFaults_kept k5
    | with_reducible apply State.frameSource_kept k2
    | with_reducible apply State.takeResponse_kept k6
    | with_reducible apply State.startService_kept k7
    | with_reducible refine State.inc_kept ?_ ?_
    | exact Sub.bit (Sub.trans (by decide) hm)
    | (refine Sub.from (b := 0x34001700) kz ?_; (try simp only [key, bk, lk, ndk]); omega)
    | with_reducible apply Kept.ite
    | with_reducible split
    | split

theorem State.requestTimeout_kept {mm : Nat} {s0 s : State} {k : Nat} (hm : Sub 0x7ffffffff800000000000028200 mm) (h : Kept mm s0 s) : Kept mm s0 (State.requestTimeout k s) := by
  have k0 : Sub 0x200 mm := Sub.trans (by decide) hm
  have k1 : Sub 0x28000 mm := Sub.trans (by decide) hm
  have kz : Sub (2 ^ 107 - 2 ^ (20 + zone 0x37001100)) mm := Sub.trans (by decide) hm
  unfold State.requestTimeout
  repeat' first
    | (intro x; refine Kept.bind (s0 := s0) (m := mm) (x := x) ?_ ?_; subst x; rotate_left; clear_value x; intro _)
    | (intro y; clear_value y)
    | intro _
    | with_reducible assumption
    | with_reducible lift_lets -underBinder
    | with_reducible apply State.setLink_kept k0
    | with_reducible apply State.answerTo_kept k1
    | with_reducible refine State.inc_kept ?_ ?_
    | exact Sub.bit (Sub.trans (by decide) hm)
    | (refine Sub.from (b := 0x37001100) kz ?_; (try simp only [key, bk, lk]); omega)
    | with_reducible apply Kept.ite
    | with_reducible split
    | split

theorem State.nodeFigures_kept {mm : Nat} {s0 s : State} {n : Nat} {d prev : Nat} {x : NodeId} (hm : Sub 0x7ffffffffc00000000000000000 mm) (h : Kept mm s0 s) : Kept mm s0 (State.nodeFigures n d prev x s) := by
  have kz : Sub (2 ^ 107 - 2 ^ (20 + zone 0x34000600)) mm := Sub.trans (by decide) hm
  unfold State.nodeFigures
  repeat' first
    | (intro x; refine Kept.bind (s0 := s0) (m := mm) (x := x) ?_ ?_; subst x; rotate_left; clear_value x; intro _)
    | (intro y; clear_value y)
    | intro _
    | with_reducible assumption
    | with_reducible lift_lets -underBinder
    | with_reducible refine State.wr_kept ?_ ?_
    | with_reducible refine State.wrF_kept ?_ ?_
    | exact Sub.bit (Sub.trans (by decide) hm)
    | (refine Sub.from (b := 0x34000600) kz ?_; (try simp only [key, bk, ndk]); omega)
    | with_reducible apply Kept.ite
    | with_reducible split
    | split

theorem State.knownDelays_kept {mm : Nat} {s0 s : State} {k n : Nat} (hm : Sub 0x80000 mm) (h : Kept mm s0 s) : Kept mm s0 (State.knownDelays k n s).2 := by
  unfold State.knownDelays
  repeat' first
    | (intro x; refine Kept.bind (s0 := s0) (m := mm) (x := x) ?_ ?_; subst x; rotate_left; clear_value x; intro _)
    | (intro y; have w_ : Nat × State := y; clear w_)
    | (intro y; clear_value y)
    | intro _
    | with_reducible assumption
    | with_reducible lift_lets -underBinder
    | with_reducible apply State.draw_kept hm
    | with_reducible apply Kept.ite
    | with_reducible split
    | split
    | with_reducible refine Kept.snd (by assumption) ?_
    | with_reducible refine Kept.fst (by assumption) ?_

theorem State.linkFrame_kept {mm : Nat} {s0 s : State} {k : Nat} {scan : Bool} {code pos addr data : Nat} (hm : Sub 0x7ffffffff800000000000000200 mm) (h : Kept mm s0 s) : Kept mm s0 (State.linkFrame k scan code pos addr data s) := by
  have k0 : Sub 0x0 mm := Sub.trans (by decide) hm
  have k1 : Sub 0x200 mm := Sub.trans (by decide) hm
  have kz : Sub (2 ^ 107 - 2 ^ (20 + zone 0x37000b00)) mm := Sub.trans (by decide) hm
  unfold State.linkFrame
  repeat' first
    | (intro x; refine Kept.bind (s0 := s0) (m := mm) (x := x) ?_ ?_; subst x; rotate_left; clear_value x; intro _)
    | (intro y; clear_value y)
    | intro _
    | with_reducible assumption
    | with_reducible lift_lets -underBinder
    | with_reducible apply State.msg_kept k0
    | with_reducible apply State.setLink_kept k1
    | with_reducible refine State.inc_kept ?_ ?_
    | exact Sub.bit (Sub.trans (by decide) hm)
    | (refine Sub.from (b := 0x37000b00) kz ?_; (try simp only [key, bk, lk]); omega)
    | with_reducible apply Kept.ite
    | with_reducible split
    | split

theorem State.measureFrames_kept {mm : Nat} {s0 s : State} {k : Nat} (hm : Sub 0x7ffffffff800000000000000200 mm) (h : Kept mm s0 s) : Kept mm s0 (State.measureFrames k s) := by
  have k0 : Sub 0x0 mm := Sub.trans (by decide) hm
  unfold State.measureFrames
  repeat' first
    | (intro x; refine Kept.bind (s0 := s0) (m := mm) (x := x) ?_ ?_; subst x; rotate_left; clear_value x; intro _)
    | (intro y; clear_value y)
    | intro _
    | with_reducible assumption
    | with_reducible lift_lets -underBinder
    | with_reducible apply State.each_kept k0
    | with_reducible apply State.linkFrame_kept hm
    | with_reducible apply Kept.ite
    | with_reducible split
    | split

theorem State.readNode_kept {mm : Nat} {s0 s : State} {k p top : Nat} (hm : Sub 0x7ffffffff800000000000000200 mm) (h : Kept mm s0 s) : Kept mm s0 (State.readNode k p top s) := by
  have k0 : Sub 0x0 mm := Sub.trans (by decide) hm
  unfold State.readNode
  repeat' first
    | (intro x; refine Kept.bind (s0 := s0) (m := mm) (x := x) ?_ ?_; subst x; rotate_left; clear_value x; intro _)
    | (intro y; clear_value y)
    | intro _
    | with_reducible assumption
    | with_reducible lift_lets -underBinder
    | with_reducible apply State.each_kept k0
    | with_reducible apply State.linkFrame_kept hm
    | with_reducible apply Kept.ite
    | with_reducible split
    | split

theorem State.sendRegs_kept {mm : Nat} {s0 s : State} {k n : Nat} {as : List Nat} (hm : Sub 0x7ffffffff800000000000000200 mm) (h : Kept mm s0 s) : Kept mm s0 (State.sendRegs k n as s) := by
  have k0 : Sub 0x0 mm := Sub.trans (by decide) hm
  unfold State.sendRegs
  repeat' first
    | (intro x; refine Kept.bind (s0 := s0) (m := mm) (x := x) ?_ ?_; subst x; rotate_left; clear_value x; intro _)
    | (intro y; clear_value y)
    | intro _
    | with_reducible assumption
    | with_reducible lift_lets -underBinder
    | with_reducible apply State.each_kept k0
    | with_reducible apply State.linkFrame_kept hm
    | with_reducible apply Kept.ite
    | with_reducible split
    | split

theorem State.noNodes_kept {mm : Nat} {s0 s : State} {k : Nat} (hm : Sub 0x7ffffffff800000000000000000 mm) (h : Kept mm s0 s) : Kept mm s0 (State.noNodes k s) := by
  have kz : Sub (2 ^ 107 - 2 ^ (20 + zone 0x37000400)) mm := Sub.trans (by decide) hm
  unfold State.noNodes
  repeat' first
    | (intro x; refine Kept.bind (s0 := s0) (m := mm) (x := x) ?_ ?_; subst x; rotate_left; clear_value x; intro _)
    | (intro y; clear_value y)
    | intro _
    | with_reducible assumption
    | with_reducible lift_lets -underBinder
    | with_reducible apply State.syncLink_kept hm
    | with_reducible refine State.setBit_kept ?_ ?_
    | with_reducible refine State.wr_kept ?_ ?_
    | exact Sub.bit (Sub.trans (by decide) hm)
    | (refine Sub.from (b := 0x37000400) kz ?_; (try simp only [key, bk, lk]); omega)
    | with_reducible apply Kept.ite
    | with_reducible split
    | split

theorem State.startScan_kept {mm : Nat} {s0 s : State} {k : Nat} (hm : Sub 0x7ffffffff800000000000000200 mm) (h : Kept mm s0 s) : Kept mm s0 (State.startScan k s) := by
  have k0 : Sub 0x7ffffffff800000000000000000 mm := Sub.trans (by decide) hm
  have k1 : Sub 0x200 mm := Sub.trans (by decide) hm
  have kz : Sub (2 ^ 107 - 2 ^ (20 + zone 0x37000300)) mm := Sub.trans (by decide) hm
  unfold State.startScan
  repeat' first
    | (intro x; refine Kept.bind (s0 := s0) (m := mm) (x := x) ?_ ?_; subst x; rotate_left; clear_value x; intro _)
    | (intro y; clear_value y)
    | intro _
    | with_reducible assumption
    | with_reducible lift_lets -underBinder
    | with_reducible apply State.noNodes_kept k0
    | with_reducible apply State.linkFrame_kept hm
    | with_reducible apply State.setLink_kept k1
    | with_reducible refine State.wr_kept ?_ ?_
    | exact Sub.bit (Sub.trans (by decide) hm)
    | (refine Sub.from (b := 0x37000300) kz ?_; (try simp only [key, bk, lk]); omega)
    | with_reducible apply Kept.ite
    | with_reducible split
    | split

theorem State.endScan_kept {mm : Nat} {s0 s : State} {k : Nat} {failed : List Nat} (hm : Sub 0x200 mm) (h : Kept mm s0 s) : Kept mm s0 (State.endScan k failed s) := by
  unfold State.endScan
  repeat' first
    | (intro x; refine Kept.bind (s0 := s0) (m := mm) (x := x) ?_ ?_; subst x; rotate_left; clear_value x; intro _)
    | (intro y; clear_value y)
    | intro _
    | with_reducible assumption
    | with_reducible lift_lets -underBinder
    | with_reducible apply State.setLink_kept hm
    | with_reducible apply Kept.ite
    | with_reducible split
    | split

theorem State.writeNode_kept {mm : Nat} {s0 s : State} {n d : Nat} {x : NodeId} (hm : Sub 0x200 mm) (h : Kept mm s0 s) : Kept mm s0 (State.writeNode n d x s) := by
  unfold State.writeNode
  repeat' first
    | (intro x; refine Kept.bind (s0 := s0) (m := mm) (x := x) ?_ ?_; subst x; rotate_left; clear_value x; intro _)
    | (intro y; clear_value y)
    | intro _
    | with_reducible assumption
    | with_reducible lift_lets -underBinder
    | with_reducible apply State.setNode_kept hm
    | with_reducible apply Kept.ite
    | with_reducible split
    | split
    | with_reducible apply Kept.foldl_snd
    | with_reducible apply Kept.foldl_fst
    | with_reducible apply Kept.foldl
    | dsimp only [id_eq]

theorem State.placeNode_kept {mm : Nat} {s0 s : State} {found : List NodeId} {delays : List Nat} {m : Nat} (hm : Sub 0x7ffffffffc00000000000000200 mm) (h : Kept mm s0 s) : Kept mm s0 (State.placeNode found delays m s) := by
  have k0 : Sub 0x7ffffffffc00000000000000000 mm := Sub.trans (by decide) hm
  have k1 : Sub 0x200 mm := Sub.trans (by decide) hm
  have kz : Sub (2 ^ 107 - 2 ^ (20 + zone 0x34000500)) mm := Sub.trans (by decide) hm
  unfold State.placeNode
  repeat' first
    | (intro x; refine Kept.bind (s0 := s0) (m := mm) (x := x) ?_ ?_; subst x; rotate_left; clear_value x; intro _)
    | (intro y; clear_value y)
    | intro _
    | with_reducible assumption
    | with_reducible lift_lets -underBinder
    | with_reducible apply State.nodeFigures_kept k0
    | with_reducible apply State.writeNode_kept k1
    | with_reducible refine State.wr_kept ?_ ?_
    | exact Sub.bit (Sub.trans (by decide) hm)
    | (refine Sub.from (b := 0x34000500) kz ?_; (try simp only [key, bk, ndk]); omega)
    | with_reducible apply Kept.ite
    | with_reducible split
    | split

theorem State.enumerationEpoch_kept {mm : Nat} {s0 s : State} {k : Nat} {found : List NodeId} (hm : Sub 0x7ffffffff800000000000000200 mm) (h : Kept mm s0 s) : Kept mm s0 (State.enumerationEpoch k found s) := by
  have k0 : Sub 0x0 mm := Sub.trans (by decide) hm
  have k1 : Sub 0x200 mm := Sub.trans (by decide) hm
  have kz : Sub (2 ^ 107 - 2 ^ (20 + zone 0x37001000)) mm := Sub.trans (by decide) hm
  unfold State.enumerationEpoch
  repeat' first
    | (intro x; refine Kept.bind (s0 := s0) (m := mm) (x := x) ?_ ?_; subst x; rotate_left; clear_value x; intro _)
    | (intro y; clear_value y)
    | intro _
    | with_reducible assumption
    | with_reducible lift_lets -underBinder
    | with_reducible apply State.each_kept k0
    | with_reducible refine State.setBit_kept ?_ ?_
    | with_reducible refine State.wr_kept ?_ ?_
    | exact Sub.bit (Sub.trans (by decide) hm)
    | (refine Sub.from (b := 0x37001000) kz ?_; (try simp only [key, bk, lk]); omega)
    | with_reducible apply Kept.ite
    | with_reducible split
    | split
    | with_reducible apply Kept.upd_links k1
    | with_reducible apply Kept.foldl_snd
    | with_reducible apply Kept.foldl_fst
    | with_reducible apply Kept.foldl

theorem State.upDelay_kept {mm : Nat} {s0 s : State} {k n : Nat} {delays : List Nat} (hm : Sub 0x7ffffffff800000000000000000 mm) (h : Kept mm s0 s) : Kept mm s0 (State.upDelay k n delays s) := by
  have kz : Sub (2 ^ 107 - 2 ^ (20 + zone 0x37000700)) mm := Sub.trans (by decide) hm
  unfold State.upDelay
  repeat' first
    | (intro x; refine Kept.bind (s0 := s0) (m := mm) (x := x) ?_ ?_; subst x; rotate_left; clear_value x; intro _)
    | (intro y; clear_value y)
    | intro _
    | with_reducible assumption
    | with_reducible lift_lets -underBinder
    | with_reducible refine State.wr_kept ?_ ?_
    | exact Sub.bit (Sub.trans (by decide) hm)
    | (refine Sub.from (b := 0x37000700) kz ?_; (try simp only [key, bk, lk]); omega)
    | with_reducible apply Kept.ite
    | with_reducible split
    | split

theorem State.wholeAgain_kept {mm : Nat} {s0 s : State} {k : Nat} (hm : Sub 0x7ffffffff800000000000000000 mm) (h : Kept mm s0 s) : Kept mm s0 (State.wholeAgain k s) := by
  have kz : Sub (2 ^ 107 - 2 ^ (20 + zone 0x37001200)) mm := Sub.trans (by decide) hm
  unfold State.wholeAgain
  repeat' first
    | (intro x; refine Kept.bind (s0 := s0) (m := mm) (x := x) ?_ ?_; subst x; rotate_left; clear_value x; intro _)
    | (intro y; clear_value y)
    | intro _
    | with_reducible assumption
    | with_reducible lift_lets -underBinder
    | with_reducible refine State.setBit_kept ?_ ?_
    | with_reducible refine State.wr_kept ?_ ?_
    | exact Sub.bit (Sub.trans (by decide) hm)
    | (refine Sub.from (b := 0x37001200) kz ?_; (try simp only [key, bk, lk]); omega)
    | with_reducible apply Kept.ite
    | with_reducible split
    | split

theorem State.enumerate_kept {mm : Nat} {s0 s : State} {k : Nat} {found : List NodeId} {delays : List Nat} (hm : Sub 0x7ffffffffc00000000000000200 mm) (h : Kept mm s0 s) : Kept mm s0 (State.enumerate k found delays s) := by
  have k0 : Sub 0x7ffffffff800000000000000200 mm := Sub.trans (by decide) hm
  have k1 : Sub 0x0 mm := Sub.trans (by decide) hm
  have k2 : Sub 0x7ffffffff800000000000000000 mm := Sub.trans (by decide) hm
  have k3 : Sub 0x200 mm := Sub.trans (by decide) hm
  have k4 : Sub 0x7ffffffff000000000000000000 mm := Sub.trans (by decide) hm
  have kz : Sub (2 ^ 107 - 2 ^ (20 + zone 0x37000300)) mm := Sub.trans (by decide) hm
  unfold State.enumerate
  repeat' first
    | (intro x; refine Kept.bind (s0 := s0) (m := mm) (x := x) ?_ ?_; subst x; rotate_left; clear_value x; intro _)
    | (intro y; clear_value y)
    | intro _
    | with_reducible assumption
    | with_reducible lift_lets -underBinder
    | with_reducible apply State.startScan_kept k0
    | with_reducible apply State.each_kept k1
    | with_reducible apply State.noNodes_kept k2
    | with_reducible apply State.endScan_kept k3
    | with_reducible apply State.measureFrames_kept k0
    | with_reducible apply State.readNode_kept k0
    | with_reducible apply State.upDelay_kept k2
    | with_reducible apply State.placeNode_kept hm
    | with_reducible apply State.enumerationEpoch_kept k0
    | with_reducible apply State.sendRegs_kept k0
    | with_reducible apply State.wholeAgain_kept k2
    | with_reducible apply State.syncTimeline_kept k4
    | with_reducible apply State.startService_kept k0
    | with_reducible apply State.syncLink_kept k2
    | with_reducible refine State.setBit_kept ?_ ?_
    | with_reducible refine State.wr_kept ?_ ?_
    | exact Sub.bit (Sub.trans (by decide) hm)
    | (refine Sub.from (b := 0x37000300) kz ?_; (try simp only [key, bk, lk]); omega)
    | with_reducible apply Kept.ite
    | with_reducible split
    | split
    | with_reducible apply Kept.upd_links k3

theorem enumerateEff_kept {mm : Nat} {s0 : State} {k : Nat} {found : List NodeId} {delays : List Nat} (hm : Sub 0x7ffffffffc00000000000000200 mm) : EffKept mm s0 (enumerateEff k found delays) := by
  unfold enumerateEff
  repeat' first
    | (intro x; refine Kept.bind (s0 := s0) (m := mm) (x := x) ?_ ?_; subst x; rotate_left; clear_value x; intro _)
    | (intro y; clear_value y)
    | intro _
    | with_reducible assumption
    | with_reducible lift_lets -underBinder
    | with_reducible apply State.enumerate_kept hm
    | with_reducible apply Kept.ite
    | with_reducible apply EffKept.ite
    | with_reducible split
    | split
    | (refine ⟨fun s h => ?_⟩; dsimp -zeta only)
    | dsimp -zeta only

theorem State.rejoin_kept {mm : Nat} {s0 s : State} {n d prev : Nat} (hm : Sub 0x7ffffffffc00000000000000200 mm) (h : Kept mm s0 s) : Kept mm s0 (State.rejoin n d prev s) := by
  have k0 : Sub 0x200 mm := Sub.trans (by decide) hm
  have k1 : Sub 0x7ffffffff800000000000000200 mm := Sub.trans (by decide) hm
  have kz : Sub (2 ^ 107 - 2 ^ (20 + zone 0x34000500)) mm := Sub.trans (by decide) hm
  unfold State.rejoin
  repeat' first
    | (intro x; refine Kept.bind (s0 := s0) (m := mm) (x := x) ?_ ?_; subst x; rotate_left; clear_value x; intro _)
    | (intro y; clear_value y)
    | intro _
    | with_reducible assumption
    | with_reducible lift_lets -underBinder
    | with_reducible apply State.setNode_kept k0
    | with_reducible apply State.sendRegs_kept k1
    | with_reducible refine State.wr_kept ?_ ?_
    | exact Sub.bit (Sub.trans (by decide) hm)
    | (refine Sub.from (b := 0x34000500) kz ?_; (try simp only [key, bk, ndk]); omega)
    | with_reducible apply Kept.ite
    | with_reducible split
    | split

theorem State.syncReturn_kept {mm : Nat} {s0 s : State} {k : Nat} {found : List NodeId} {delays : List Nat} (hm : Sub 0x7ffffffffc00000000000000200 mm) (h : Kept mm s0 s) : Kept mm s0 (State.syncReturn k found delays s) := by
  have k0 : Sub 0x7ffffffff800000000000000200 mm := Sub.trans (by decide) hm
  have k1 : Sub 0x0 mm := Sub.trans (by decide) hm
  have k2 : Sub 0x7ffffffff800000000000000000 mm := Sub.trans (by decide) hm
  have k3 : Sub 0x200 mm := Sub.trans (by decide) hm
  have kz : Sub (2 ^ 107 - 2 ^ (20 + zone 0x34000500)) mm := Sub.trans (by decide) hm
  unfold State.syncReturn
  repeat' first
    | (intro x; refine Kept.bind (s0 := s0) (m := mm) (x := x) ?_ ?_; subst x; rotate_left; clear_value x; intro _)
    | (intro y; clear_value y)
    | intro _
    | with_reducible assumption
    | with_reducible lift_lets -underBinder
    | with_reducible apply State.enumerate_kept hm
    | with_reducible apply State.measureFrames_kept k0
    | with_reducible apply State.each_kept k1
    | with_reducible apply State.readNode_kept k0
    | with_reducible apply State.rejoin_kept hm
    | with_reducible apply State.upDelay_kept k2
    | with_reducible apply State.wholeAgain_kept k2
    | with_reducible apply State.endScan_kept k3
    | with_reducible refine State.setBit_kept ?_ ?_
    | with_reducible refine State.wr_kept ?_ ?_
    | exact Sub.bit (Sub.trans (by decide) hm)
    | (refine Sub.from (b := 0x34000500) kz ?_; (try simp only [key, bk, lk, ndk]); omega)
    | with_reducible apply Kept.ite
    | with_reducible split
    | split

theorem State.breakLink_kept {mm : Nat} {s0 s : State} {k unreached new : Nat} (hm : Sub 0x7ffffffff80000000000000e000 mm) (h : Kept mm s0 s) : Kept mm s0 (State.breakLink k unreached new s) := by
  have k0 : Sub 0x7fffd000000000000000000e000 mm := Sub.trans (by decide) hm
  have kz : Sub (2 ^ 107 - 2 ^ (20 + zone 0x37000300)) mm := Sub.trans (by decide) hm
  unfold State.breakLink
  repeat' first
    | (intro x; refine Kept.bind (s0 := s0) (m := mm) (x := x) ?_ ?_; subst x; rotate_left; clear_value x; intro _)
    | (intro y; clear_value y)
    | intro _
    | with_reducible assumption
    | with_reducible lift_lets -underBinder
    | with_reducible apply State.logEvent_kept k0
    | with_reducible refine State.inc_kept ?_ ?_
    | with_reducible refine State.setBit_kept ?_ ?_
    | with_reducible refine State.wr_kept ?_ ?_
    | exact Sub.bit (Sub.trans (by decide) hm)
    | (refine Sub.from (b := 0x37000300) kz ?_; (try simp only [key, bk, lk]); omega)
    | with_reducible apply Kept.ite
    | with_reducible split
    | split

theorem State.linkBreak_kept {mm : Nat} {s0 s : State} {k unreached : Nat} (hm : Sub 0x7ffffffff80000000000000e200 mm) (h : Kept mm s0 s) : Kept mm s0 (State.linkBreak k unreached s) := by
  have k0 : Sub 0x7ffffffff80000000000000e000 mm := Sub.trans (by decide) hm
  have k1 : Sub 0x200 mm := Sub.trans (by decide) hm
  have kz : Sub (2 ^ 107 - 2 ^ (20 + zone 0x37001300)) mm := Sub.trans (by decide) hm
  unfold State.linkBreak
  repeat' first
    | (intro x; refine Kept.bind (s0 := s0) (m := mm) (x := x) ?_ ?_; subst x; rotate_left; clear_value x; intro _)
    | (intro y; clear_value y)
    | intro _
    | with_reducible assumption
    | with_reducible lift_lets -underBinder
    | with_reducible apply State.breakLink_kept k0
    | with_reducible apply State.setLink_kept k1
    | with_reducible refine State.setBit_kept ?_ ?_
    | exact Sub.bit (Sub.trans (by decide) hm)
    | (refine Sub.from (b := 0x37001300) kz ?_; (try simp only [key, bk, lk]); omega)
    | with_reducible apply Kept.ite
    | with_reducible split
    | split

theorem State.linkOff_kept {mm : Nat} {s0 s : State} {k : Nat} (hm : Sub 0x7ffffffff800000000000028200 mm) (h : Kept mm s0 s) : Kept mm s0 (State.linkOff k s) := by
  have k0 : Sub 0x28000 mm := Sub.trans (by decide) hm
  have k1 : Sub 0x200 mm := Sub.trans (by decide) hm
  have k2 : Sub 0x0 mm := Sub.trans (by decide) hm
  have kz : Sub (2 ^ 107 - 2 ^ (20 + zone 0x37000300)) mm := Sub.trans (by decide) hm
  unfold State.linkOff
  repeat' first
    | (intro x; refine Kept.bind (s0 := s0) (m := mm) (x := x) ?_ ?_; subst x; rotate_left; clear_value x; intro _)
    | (intro y; clear_value y)
    | intro _
    | with_reducible assumption
    | with_reducible lift_lets -underBinder
    | with_reducible apply State.answerTo_kept k0
    | with_reducible apply State.setLink_kept k1
    | with_reducible apply State.each_kept k2
    | with_reducible refine State.setBit_kept ?_ ?_
    | with_reducible refine State.wr_kept ?_ ?_
    | exact Sub.bit (Sub.trans (by decide) hm)
    | (refine Sub.from (b := 0x37000300) kz ?_; (try simp only [key, bk, lk]); omega)
    | with_reducible apply Kept.ite
    | with_reducible split
    | split

theorem State.nodeRequest_kept {mm : Nat} {s0 s : State} {n code addr data : Nat} {segment : Option Nat} (hm : Sub 0x200 mm) (h : Kept mm s0 s) : Kept mm s0 (State.nodeRequest n code addr data segment s) := by
  have k0 : Sub 0x0 mm := Sub.trans (by decide) hm
  unfold State.nodeRequest
  repeat' first
    | (intro x; refine Kept.bind (s0 := s0) (m := mm) (x := x) ?_ ?_; subst x; rotate_left; clear_value x; intro _)
    | (intro y; clear_value y)
    | intro _
    | with_reducible assumption
    | with_reducible lift_lets -underBinder
    | with_reducible apply State.answer_kept k0
    | with_reducible apply State.setLink_kept hm
    | with_reducible apply Kept.ite
    | with_reducible split
    | split

theorem State.nodeRead_kept {mm : Nat} {s0 s : State} {n : Nat} {segment : Option Nat} (hm : Sub 0x200 mm) (h : Kept mm s0 s) : Kept mm s0 (State.nodeRead n segment s) := by
  unfold State.nodeRead
  repeat' first
    | (intro x; refine Kept.bind (s0 := s0) (m := mm) (x := x) ?_ ?_; subst x; rotate_left; clear_value x; intro _)
    | (intro y; clear_value y)
    | intro _
    | with_reducible assumption
    | with_reducible lift_lets -underBinder
    | with_reducible apply State.nodeRequest_kept hm
    | with_reducible apply Kept.ite
    | with_reducible split
    | split

theorem nodeWriteEff_kept {mm : Nat} {s0 : State} {n : Nat} {v : Int} (hm : Sub 0x7ffffffffc00000000000000200 mm) : EffKept mm s0 (nodeWriteEff n v) := by
  have k0 : Sub 0x200 mm := Sub.trans (by decide) hm
  have kz : Sub (2 ^ 107 - 2 ^ (20 + zone 0x34001d00)) mm := Sub.trans (by decide) hm
  unfold nodeWriteEff
  repeat' first
    | (intro x; refine Kept.bind (s0 := s0) (m := mm) (x := x) ?_ ?_; subst x; rotate_left; clear_value x; intro _)
    | (intro y; clear_value y)
    | intro _
    | with_reducible assumption
    | with_reducible lift_lets -underBinder
    | with_reducible apply State.nodeRequest_kept k0
    | with_reducible refine State.wr_kept ?_ ?_
    | exact Sub.bit (Sub.trans (by decide) hm)
    | (refine Sub.from (b := 0x34001d00) kz ?_; (try simp only [key, bk, ndk]); omega)
    | with_reducible apply Kept.ite
    | with_reducible apply EffKept.ite
    | with_reducible split
    | split
    | (refine ⟨fun s h => ?_⟩; dsimp -zeta only)
    | dsimp -zeta only

theorem nodeClearEff_kept {mm : Nat} {s0 : State} {n : Nat} (hm : Sub 0x200 mm) : EffKept mm s0 (nodeClearEff n) := by
  unfold nodeClearEff
  repeat' first
    | (intro x; refine Kept.bind (s0 := s0) (m := mm) (x := x) ?_ ?_; subst x; rotate_left; clear_value x; intro _)
    | (intro y; clear_value y)
    | intro _
    | with_reducible assumption
    | with_reducible lift_lets -underBinder
    | with_reducible apply State.nodeRequest_kept hm
    | with_reducible apply Kept.ite
    | with_reducible apply EffKept.ite
    | with_reducible split
    | split
    | (refine ⟨fun s h => ?_⟩; dsimp -zeta only)
    | dsimp -zeta only

theorem nodeMaskEff_kept {mm : Nat} {s0 : State} {n : Nat} {v : Int} (hm : Sub 0x7ffffffffc00000000000000000 mm) : EffKept mm s0 (nodeMaskEff n v) := by
  have kz : Sub (2 ^ 107 - 2 ^ (20 + zone 0x34001600)) mm := Sub.trans (by decide) hm
  unfold nodeMaskEff
  repeat' first
    | (intro x; refine Kept.bind (s0 := s0) (m := mm) (x := x) ?_ ?_; subst x; rotate_left; clear_value x; intro _)
    | (intro y; clear_value y)
    | intro _
    | with_reducible assumption
    | with_reducible lift_lets -underBinder
    | with_reducible refine State.wr_kept ?_ ?_
    | exact Sub.bit (Sub.trans (by decide) hm)
    | (refine Sub.from (b := 0x34001600) kz ?_; (try simp only [key, bk, ndk]); omega)
    | with_reducible apply Kept.ite
    | with_reducible apply EffKept.ite
    | with_reducible split
    | split
    | (refine ⟨fun s h => ?_⟩; dsimp -zeta only)
    | dsimp -zeta only

end Sys2Proof.Machine
end

