-- ==== Sys2Proof/Laws/KeptNodes.lean ====
section
/-! SUPPORT. What the operations of Machine/Nodes.lean may change (Safety.lean, Kept): one lemma for each. -/

set_option linter.all false

namespace Sys2Proof.Machine

theorem State.nodeControl_kept {mm : Nat} {s0 s : State} {n : Nat} {ctl epoch : Nat} (hm : Sub 0x200 mm) (h : Kept mm s0 s) : Kept mm s0 (State.nodeControl n ctl epoch s) := by
  unfold State.nodeControl
  repeat' first
    | (intro x; refine Kept.bind (s0 := s0) (m := mm) (x := x) ?_ ?_; subst x; rotate_left; clear_value x; intro _)
    | (intro y; clear_value y)
    | intro _
    | with_reducible assumption
    | with_reducible lift_lets -underBinder
    | with_reducible apply State.setNode_kept hm
    | with_reducible apply Kept.ite
    | with_reducible split
    | split

theorem State.nodeFrame_kept {mm : Nat} {s0 s : State} {n : Nat} {f : NodeFrame} (hm : Sub 0x8200 mm) (h : Kept mm s0 s) : Kept mm s0 (State.nodeFrame n f s) := by
  have k0 : Sub 0x8000 mm := Sub.trans (by decide) hm
  have k1 : Sub 0x200 mm := Sub.trans (by decide) hm
  have k2 : Sub 0x0 mm := Sub.trans (by decide) hm
  unfold State.nodeFrame
  repeat' first
    | (intro x; refine Kept.bind (s0 := s0) (m := mm) (x := x) ?_ ?_; subst x; rotate_left; clear_value x; intro _)
    | (intro y; clear_value y)
    | intro _
    | with_reducible assumption
    | with_reducible lift_lets -underBinder
    | with_reducible apply State.forward_kept k0
    | with_reducible apply State.setNode_kept k1
    | with_reducible apply State.msg_kept k2
    | with_reducible apply Kept.ite
    | with_reducible split
    | split
    | with_reducible refine Kept.snd (by assumption) ?_
    | with_reducible refine Kept.fst (by assumption) ?_

theorem State.frameUsable_kept {mm : Nat} {s0 s : State} {n : Nat} (hm : Sub 0x200 mm) (h : Kept mm s0 s) : Kept mm s0 (State.frameUsable n s) := by
  unfold State.frameUsable
  repeat' first
    | (intro x; refine Kept.bind (s0 := s0) (m := mm) (x := x) ?_ ?_; subst x; rotate_left; clear_value x; intro _)
    | (intro y; clear_value y)
    | intro _
    | with_reducible assumption
    | with_reducible lift_lets -underBinder
    | with_reducible apply State.setNode_kept hm
    | with_reducible apply Kept.ite
    | with_reducible split
    | split
    | with_reducible apply Kept.foldl_snd
    | with_reducible apply Kept.foldl_fst
    | with_reducible apply Kept.foldl

theorem State.nodeEdge_kept {mm : Nat} {s0 s : State} {n : Nat} (hm : Sub 0x200 mm) (h : Kept mm s0 s) : Kept mm s0 (State.nodeEdge n s) := by
  unfold State.nodeEdge
  repeat' first
    | (intro x; refine Kept.bind (s0 := s0) (m := mm) (x := x) ?_ ?_; subst x; rotate_left; clear_value x; intro _)
    | (intro y; clear_value y)
    | intro _
    | with_reducible assumption
    | with_reducible lift_lets -underBinder
    | with_reducible apply State.setNode_kept hm
    | with_reducible apply Kept.ite
    | with_reducible split
    | split
    | with_reducible apply Kept.foldl_snd
    | with_reducible apply Kept.foldl_fst
    | with_reducible apply Kept.foldl

theorem State.nodeSample_kept {mm : Nat} {s0 s : State} {n : Nat} {v i temp : Int} {under below : Nat} {hot : Bool} (hm : Sub 0x200 mm) (h : Kept mm s0 s) : Kept mm s0 (State.nodeSample n v i temp under below hot s) := by
  unfold State.nodeSample
  repeat' first
    | (intro x; refine Kept.bind (s0 := s0) (m := mm) (x := x) ?_ ?_; subst x; rotate_left; clear_value x; intro _)
    | (intro y; clear_value y)
    | intro _
    | with_reducible assumption
    | with_reducible lift_lets -underBinder
    | with_reducible apply State.setNode_kept hm
    | with_reducible apply Kept.ite
    | with_reducible split
    | split

theorem State.turnFrame_kept {mm : Nat} {s0 s : State} {n : Nat} (hm : Sub 0x200 mm) (h : Kept mm s0 s) : Kept mm s0 (State.turnFrame n s) := by
  have k0 : Sub 0x0 mm := Sub.trans (by decide) hm
  unfold State.turnFrame
  repeat' first
    | (intro x; refine Kept.bind (s0 := s0) (m := mm) (x := x) ?_ ?_; subst x; rotate_left; clear_value x; intro _)
    | (intro y; clear_value y)
    | intro _
    | with_reducible assumption
    | with_reducible lift_lets -underBinder
    | with_reducible apply State.setNode_kept hm
    | with_reducible apply State.msg_kept k0
    | with_reducible apply Kept.ite
    | with_reducible split
    | split

theorem State.missedPeriod_kept {mm : Nat} {s0 s : State} {n : Nat} (hm : Sub 0x200 mm) (h : Kept mm s0 s) : Kept mm s0 (State.missedPeriod n s) := by
  unfold State.missedPeriod
  repeat' first
    | (intro x; refine Kept.bind (s0 := s0) (m := mm) (x := x) ?_ ?_; subst x; rotate_left; clear_value x; intro _)
    | (intro y; clear_value y)
    | intro _
    | with_reducible assumption
    | with_reducible lift_lets -underBinder
    | with_reducible apply State.setNode_kept hm
    | with_reducible apply Kept.ite
    | with_reducible split
    | split
    | with_reducible apply Kept.foldl_snd
    | with_reducible apply Kept.foldl_fst
    | with_reducible apply Kept.foldl

theorem State.nodeWatchdog_kept {mm : Nat} {s0 s : State} {n : Nat} (hm : Sub 0x200 mm) (h : Kept mm s0 s) : Kept mm s0 (State.nodeWatchdog n s) := by
  unfold State.nodeWatchdog
  repeat' first
    | (intro x; refine Kept.bind (s0 := s0) (m := mm) (x := x) ?_ ?_; subst x; rotate_left; clear_value x; intro _)
    | (intro y; clear_value y)
    | intro _
    | with_reducible assumption
    | with_reducible lift_lets -underBinder
    | with_reducible apply State.setNode_kept hm
    | with_reducible apply Kept.ite
    | with_reducible split
    | split

theorem State.nodeShort_kept {mm : Nat} {s0 s : State} {n i : Nat} {uv : Bool} (hm : Sub 0x200 mm) (h : Kept mm s0 s) : Kept mm s0 (State.nodeShort n i uv s) := by
  unfold State.nodeShort
  repeat' first
    | (intro x; refine Kept.bind (s0 := s0) (m := mm) (x := x) ?_ ?_; subst x; rotate_left; clear_value x; intro _)
    | (intro y; clear_value y)
    | intro _
    | with_reducible assumption
    | with_reducible lift_lets -underBinder
    | with_reducible apply State.setNode_kept hm
    | with_reducible apply Kept.ite
    | with_reducible split
    | split

theorem State.turnChange_kept {mm : Nat} {s0 s : State} {n : Nat} {turn : Bool} (hm : Sub 0x7ffffffff80000000000000e200 mm) (h : Kept mm s0 s) : Kept mm s0 (State.turnChange n turn s) := by
  have k0 : Sub 0x200 mm := Sub.trans (by decide) hm
  have k1 : Sub 0x7ffffffff80000000000000e000 mm := Sub.trans (by decide) hm
  unfold State.turnChange
  repeat' first
    | (intro x; refine Kept.bind (s0 := s0) (m := mm) (x := x) ?_ ?_; subst x; rotate_left; clear_value x; intro _)
    | (intro y; clear_value y)
    | intro _
    | with_reducible assumption
    | with_reducible lift_lets -underBinder
    | with_reducible apply State.setNode_kept k0
    | with_reducible apply State.breakLink_kept k1
    | with_reducible apply Kept.ite
    | with_reducible split
    | split

theorem State.nodeRespond_kept {mm : Nat} {s0 s : State} {n code data : Nat} (hm : Sub 0x200 mm) (h : Kept mm s0 s) : Kept mm s0 (State.nodeRespond n code data s) := by
  unfold State.nodeRespond
  repeat' first
    | (intro x; refine Kept.bind (s0 := s0) (m := mm) (x := x) ?_ ?_; subst x; rotate_left; clear_value x; intro _)
    | (intro y; clear_value y)
    | intro _
    | with_reducible assumption
    | with_reducible lift_lets -underBinder
    | with_reducible apply State.setNode_kept hm
    | with_reducible apply Kept.ite
    | with_reducible split
    | split

theorem State.readRegister_kept {mm : Nat} {s0 s : State} {n a : Nat} (hm : Sub 0x200 mm) (h : Kept mm s0 s) : Kept mm s0 (State.readRegister n a s) := by
  unfold State.readRegister
  repeat' first
    | (intro x; refine Kept.bind (s0 := s0) (m := mm) (x := x) ?_ ?_; subst x; rotate_left; clear_value x; intro _)
    | (intro y; clear_value y)
    | intro _
    | with_reducible assumption
    | with_reducible lift_lets -underBinder
    | with_reducible apply State.nodeRespond_kept hm
    | with_reducible apply Kept.ite
    | with_reducible split
    | split

theorem State.writeRegister_kept {mm : Nat} {s0 s : State} {n a v epoch : Nat} (hm : Sub 0x200 mm) (h : Kept mm s0 s) : Kept mm s0 (State.writeRegister n a v epoch s) := by
  unfold State.writeRegister
  repeat' first
    | (intro x; refine Kept.bind (s0 := s0) (m := mm) (x := x) ?_ ?_; subst x; rotate_left; clear_value x; intro _)
    | (intro y; clear_value y)
    | intro _
    | with_reducible assumption
    | with_reducible lift_lets -underBinder
    | with_reducible apply State.setNode_kept hm
    | with_reducible apply State.nodeRespond_kept hm
    | with_reducible apply Kept.ite
    | with_reducible split
    | split
    | with_reducible refine Kept.snd (by assumption) ?_
    | with_reducible refine Kept.fst (by assumption) ?_
    | dsimp only [id_eq]

theorem State.nodeClear_kept {mm : Nat} {s0 s : State} {n epoch standing : Nat} (hm : Sub 0x200 mm) (h : Kept mm s0 s) : Kept mm s0 (State.nodeClear n epoch standing s) := by
  unfold State.nodeClear
  repeat' first
    | (intro x; refine Kept.bind (s0 := s0) (m := mm) (x := x) ?_ ?_; subst x; rotate_left; clear_value x; intro _)
    | (intro y; clear_value y)
    | intro _
    | with_reducible assumption
    | with_reducible lift_lets -underBinder
    | with_reducible apply State.setNode_kept hm
    | with_reducible apply State.nodeRespond_kept hm
    | with_reducible apply Kept.ite
    | with_reducible split
    | split
    | with_reducible refine Kept.snd (by assumption) ?_
    | with_reducible refine Kept.fst (by assumption) ?_

theorem State.enumerateRequest_kept {mm : Nat} {s0 s : State} {n data : Nat} (hm : Sub 0x200 mm) (h : Kept mm s0 s) : Kept mm s0 (State.enumerateRequest n data s) := by
  have k0 : Sub 0x0 mm := Sub.trans (by decide) hm
  unfold State.enumerateRequest
  repeat' first
    | (intro x; refine Kept.bind (s0 := s0) (m := mm) (x := x) ?_ ?_; subst x; rotate_left; clear_value x; intro _)
    | (intro y; clear_value y)
    | intro _
    | with_reducible assumption
    | with_reducible lift_lets -underBinder
    | with_reducible apply State.setNode_kept hm
    | with_reducible apply State.msg_kept k0
    | with_reducible apply Kept.ite
    | with_reducible split
    | split

theorem State.delayMeasurement_kept {mm : Nat} {s0 s : State} {n a b : Nat} (hm : Sub 0x200 mm) (h : Kept mm s0 s) : Kept mm s0 (State.delayMeasurement n a b s) := by
  unfold State.delayMeasurement
  repeat' first
    | (intro x; refine Kept.bind (s0 := s0) (m := mm) (x := x) ?_ ?_; subst x; rotate_left; clear_value x; intro _)
    | (intro y; clear_value y)
    | intro _
    | with_reducible assumption
    | with_reducible lift_lets -underBinder
    | with_reducible apply State.setNode_kept hm
    | with_reducible apply Kept.ite
    | with_reducible split
    | split

end Sys2Proof.Machine
end

