-- ==== Sys2Proof/Laws/KeptClock.lean ====
section
/-! SUPPORT. What the operations of Machine/Clock.lean may change (Safety.lean, Kept): one lemma for each. -/

set_option linter.all false

namespace Sys2Proof.Machine

theorem State.modClock_kept {mm : Nat} {s0 s : State} {f : Clock → Clock} (hm : Sub 0x1000 mm) (h : Kept mm s0 s) : Kept mm s0 (State.modClock f s) := by
  unfold State.modClock
  repeat' first
    | (intro x; refine Kept.bind (s0 := s0) (m := mm) (x := x) ?_ ?_; subst x; rotate_left; clear_value x; intro _)
    | (intro y; clear_value y)
    | intro _
    | with_reducible assumption
    | with_reducible lift_lets -underBinder
    | with_reducible apply Kept.ite
    | with_reducible split
    | split
    | with_reducible apply Kept.upd_clock hm

theorem State.toBypass_kept {mm : Nat} {s0 s : State} {cause r : Nat} (hm : Sub 0x7ffffffffffc00000080000e100 mm) (h : Kept mm s0 s) : Kept mm s0 (State.toBypass cause r s) := by
  have k0 : Sub 0x7ffffffffffc000000000000100 mm := Sub.trans (by decide) hm
  have k1 : Sub 0x7fffd000000000000000000e000 mm := Sub.trans (by decide) hm
  unfold State.toBypass
  repeat' first
    | (intro x; refine Kept.bind (s0 := s0) (m := mm) (x := x) ?_ ?_; subst x; rotate_left; clear_value x; intro _)
    | (intro y; clear_value y)
    | intro _
    | with_reducible assumption
    | with_reducible lift_lets -underBinder
    | with_reducible apply State.toExtended_kept k0
    | with_reducible apply State.logEvent_kept k1
    | with_reducible refine State.wr_kept ?_ ?_
    | exact Sub.bit (Sub.trans (by decide) hm)
    | with_reducible apply Kept.ite
    | with_reducible split
    | split

theorem State.startHop_kept {mm : Nat} {s0 s : State} {r : Nat} (hm : Sub 0x800001000 mm) (h : Kept mm s0 s) : Kept mm s0 (State.startHop r s) := by
  have k0 : Sub 0x1000 mm := Sub.trans (by decide) hm
  unfold State.startHop
  repeat' first
    | (intro x; refine Kept.bind (s0 := s0) (m := mm) (x := x) ?_ ?_; subst x; rotate_left; clear_value x; intro _)
    | (intro y; clear_value y)
    | intro _
    | with_reducible assumption
    | with_reducible lift_lets -underBinder
    | with_reducible apply State.modClock_kept k0
    | with_reducible refine State.inc_kept ?_ ?_
    | with_reducible refine State.wr_kept ?_ ?_
    | exact Sub.bit (Sub.trans (by decide) hm)
    | with_reducible apply Kept.ite
    | with_reducible split
    | split

theorem State.useReference_kept {mm : Nat} {s0 s : State} {r : Nat} (hm : Sub 0x7ffffffffffc00000080000f100 mm) (h : Kept mm s0 s) : Kept mm s0 (State.useReference r s) := by
  have k0 : Sub 0x1000 mm := Sub.trans (by decide) hm
  have k1 : Sub 0x7ffffffffffc00000080000e100 mm := Sub.trans (by decide) hm
  have k2 : Sub 0x800001000 mm := Sub.trans (by decide) hm
  unfold State.useReference
  repeat' first
    | (intro x; refine Kept.bind (s0 := s0) (m := mm) (x := x) ?_ ?_; subst x; rotate_left; clear_value x; intro _)
    | (intro y; clear_value y)
    | intro _
    | with_reducible assumption
    | with_reducible lift_lets -underBinder
    | with_reducible apply State.modClock_kept k0
    | with_reducible apply State.toBypass_kept k1
    | with_reducible apply State.startHop_kept k2
    | with_reducible refine State.wr_kept ?_ ?_
    | exact Sub.bit (Sub.trans (by decide) hm)
    | with_reducible apply Kept.ite
    | with_reducible split
    | split

theorem State.reselect_kept {mm : Nat} {s0 s : State} (hm : Sub 0x7ffffffffffc00000080000f100 mm) (h : Kept mm s0 s) : Kept mm s0 (State.reselect s) := by
  unfold State.reselect
  repeat' first
    | (intro x; refine Kept.bind (s0 := s0) (m := mm) (x := x) ?_ ?_; subst x; rotate_left; clear_value x; intro _)
    | (intro y; clear_value y)
    | intro _
    | with_reducible assumption
    | with_reducible lift_lets -underBinder
    | with_reducible apply State.useReference_kept hm
    | with_reducible apply Kept.ite
    | with_reducible split
    | split

theorem State.qualify_kept {mm : Nat} {s0 s : State} (hm : Sub 0x7ffffffffffc00000080000f100 mm) (h : Kept mm s0 s) : Kept mm s0 (State.qualify s) := by
  have k0 : Sub 0x1000 mm := Sub.trans (by decide) hm
  unfold State.qualify
  repeat' first
    | (intro x; refine Kept.bind (s0 := s0) (m := mm) (x := x) ?_ ?_; subst x; rotate_left; clear_value x; intro _)
    | (intro y; clear_value y)
    | intro _
    | with_reducible assumption
    | with_reducible lift_lets -underBinder
    | with_reducible apply State.modClock_kept k0
    | with_reducible apply State.reselect_kept hm
    | with_reducible refine State.setBit_kept ?_ ?_
    | exact Sub.bit (Sub.trans (by decide) hm)
    | with_reducible apply Kept.ite
    | with_reducible split
    | split

theorem State.disqualify_kept {mm : Nat} {s0 s : State} (hm : Sub 0x7ffffffffffc00000080000f100 mm) (h : Kept mm s0 s) : Kept mm s0 (State.disqualify s) := by
  have k0 : Sub 0x1000 mm := Sub.trans (by decide) hm
  unfold State.disqualify
  repeat' first
    | (intro x; refine Kept.bind (s0 := s0) (m := mm) (x := x) ?_ ?_; subst x; rotate_left; clear_value x; intro _)
    | (intro y; clear_value y)
    | intro _
    | with_reducible assumption
    | with_reducible lift_lets -underBinder
    | with_reducible apply State.modClock_kept k0
    | with_reducible apply State.reselect_kept hm
    | with_reducible refine State.setBit_kept ?_ ?_
    | exact Sub.bit (Sub.trans (by decide) hm)
    | with_reducible apply Kept.ite
    | with_reducible split
    | split

theorem State.reselectRefclk_kept {mm : Nat} {s0 s : State} (hm : Sub 0x7ffffffffffc00000080000f100 mm) (h : Kept mm s0 s) : Kept mm s0 (State.reselectRefclk s) := by
  have k0 : Sub 0x1000 mm := Sub.trans (by decide) hm
  unfold State.reselectRefclk
  repeat' first
    | (intro x; refine Kept.bind (s0 := s0) (m := mm) (x := x) ?_ ?_; subst x; rotate_left; clear_value x; intro _)
    | (intro y; clear_value y)
    | intro _
    | with_reducible assumption
    | with_reducible lift_lets -underBinder
    | with_reducible apply State.modClock_kept k0
    | with_reducible apply State.reselect_kept hm
    | with_reducible apply Kept.ite
    | with_reducible split
    | split

theorem referenceEff_kept {mm : Nat} {s0 : State} {v : Int} (hm : Sub 0x7ffffffffffc00000080000f100 mm) : EffKept mm s0 (referenceEff v) := by
  unfold referenceEff
  repeat' first
    | (intro x; refine Kept.bind (s0 := s0) (m := mm) (x := x) ?_ ?_; subst x; rotate_left; clear_value x; intro _)
    | (intro y; clear_value y)
    | intro _
    | with_reducible assumption
    | with_reducible lift_lets -underBinder
    | with_reducible apply State.reselect_kept hm
    | with_reducible refine State.wr_kept ?_ ?_
    | exact Sub.bit (Sub.trans (by decide) hm)
    | with_reducible apply Kept.ite
    | with_reducible apply EffKept.ite
    | with_reducible split
    | split
    | (refine ⟨fun s h => ?_⟩; dsimp -zeta only)
    | dsimp -zeta only

theorem State.pllUpdate_kept {mm : Nat} {s0 s : State} (hm : Sub 0x800000000 mm) (h : Kept mm s0 s) : Kept mm s0 (State.pllUpdate s) := by
  unfold State.pllUpdate
  repeat' first
    | (intro x; refine Kept.bind (s0 := s0) (m := mm) (x := x) ?_ ?_; subst x; rotate_left; clear_value x; intro _)
    | (intro y; clear_value y)
    | intro _
    | with_reducible assumption
    | with_reducible lift_lets -underBinder
    | with_reducible refine State.wr_kept ?_ ?_
    | exact Sub.bit (Sub.trans (by decide) hm)
    | with_reducible apply Kept.ite
    | with_reducible split
    | split

theorem State.pllLock_kept {mm : Nat} {s0 s : State} {band : Nat} (hm : Sub 0x800001000 mm) (h : Kept mm s0 s) : Kept mm s0 (State.pllLock band s) := by
  have k0 : Sub 0x1000 mm := Sub.trans (by decide) hm
  unfold State.pllLock
  repeat' first
    | (intro x; refine Kept.bind (s0 := s0) (m := mm) (x := x) ?_ ?_; subst x; rotate_left; clear_value x; intro _)
    | (intro y; clear_value y)
    | intro _
    | with_reducible assumption
    | with_reducible lift_lets -underBinder
    | with_reducible apply State.modClock_kept k0
    | with_reducible refine State.wr_kept ?_ ?_
    | exact Sub.bit (Sub.trans (by decide) hm)
    | with_reducible apply Kept.ite
    | with_reducible split
    | split

theorem State.hopTimeout_kept {mm : Nat} {s0 s : State} (hm : Sub 0x7fffffffffffffffff800000000 mm) (h : Kept mm s0 s) : Kept mm s0 (State.hopTimeout s) := by
  have kz : Sub (2 ^ 107 - 2 ^ (20 + zone 0x22001300)) mm := Sub.trans (by decide) hm
  unfold State.hopTimeout
  repeat' first
    | (intro x; refine Kept.bind (s0 := s0) (m := mm) (x := x) ?_ ?_; subst x; rotate_left; clear_value x; intro _)
    | (intro y; clear_value y)
    | intro _
    | with_reducible assumption
    | with_reducible lift_lets -underBinder
    | with_reducible refine State.inc_kept ?_ ?_
    | with_reducible refine State.wr_kept ?_ ?_
    | exact Sub.bit (Sub.trans (by decide) hm)
    | (refine Sub.from (b := 0x22001300) kz ?_; (try simp only [key, bk, ckc]); omega)
    | with_reducible apply Kept.ite
    | with_reducible split
    | split

theorem State.bandStore_kept {mm : Nat} {s0 s : State} (hm : Sub 0x7fffffffffffffffff800000000 mm) (h : Kept mm s0 s) : Kept mm s0 (State.bandStore s) := by
  have kz : Sub (2 ^ 107 - 2 ^ (20 + zone 0x22001300)) mm := Sub.trans (by decide) hm
  unfold State.bandStore
  repeat' first
    | (intro x; refine Kept.bind (s0 := s0) (m := mm) (x := x) ?_ ?_; subst x; rotate_left; clear_value x; intro _)
    | (intro y; clear_value y)
    | intro _
    | with_reducible assumption
    | with_reducible lift_lets -underBinder
    | with_reducible refine State.wr_kept ?_ ?_
    | exact Sub.bit (Sub.trans (by decide) hm)
    | (refine Sub.from (b := 0x22001300) kz ?_; (try simp only [key, bk, ckc]); omega)
    | with_reducible apply Kept.ite
    | with_reducible split
    | split

theorem clearBandsEff_kept {mm : Nat} {s0 : State} (hm : Sub 0x800000000 mm) : EffKept mm s0 clearBandsEff := by
  unfold clearBandsEff
  repeat' first
    | (intro x; refine Kept.bind (s0 := s0) (m := mm) (x := x) ?_ ?_; subst x; rotate_left; clear_value x; intro _)
    | (intro y; clear_value y)
    | intro _
    | with_reducible assumption
    | with_reducible lift_lets -underBinder
    | with_reducible refine State.wr_kept ?_ ?_
    | exact Sub.bit (Sub.trans (by decide) hm)
    | with_reducible apply Kept.ite
    | with_reducible apply EffKept.ite
    | with_reducible split
    | split
    | (refine ⟨fun s h => ?_⟩; dsimp -zeta only)
    | dsimp -zeta only

theorem State.pllUnlocked_kept {mm : Nat} {s0 s : State} (hm : Sub 0x7ffffffffffc00000080000f100 mm) (h : Kept mm s0 s) : Kept mm s0 (State.pllUnlocked s) := by
  have k0 : Sub 0x1000 mm := Sub.trans (by decide) hm
  have k1 : Sub 0x7ffffffffffc00000080000e100 mm := Sub.trans (by decide) hm
  have k2 : Sub 0x800001000 mm := Sub.trans (by decide) hm
  unfold State.pllUnlocked
  repeat' first
    | (intro x; refine Kept.bind (s0 := s0) (m := mm) (x := x) ?_ ?_; subst x; rotate_left; clear_value x; intro _)
    | (intro y; clear_value y)
    | intro _
    | with_reducible assumption
    | with_reducible lift_lets -underBinder
    | with_reducible apply State.modClock_kept k0
    | with_reducible apply State.toBypass_kept k1
    | with_reducible apply State.startHop_kept k2
    | with_reducible refine State.inc_kept ?_ ?_
    | exact Sub.bit (Sub.trans (by decide) hm)
    | with_reducible apply Kept.ite
    | with_reducible split
    | split

theorem State.referenceLost_kept {mm : Nat} {s0 s : State} {r : Nat} (hm : Sub 0x7ffffffffffc00000080000f100 mm) (h : Kept mm s0 s) : Kept mm s0 (State.referenceLost r s) := by
  have k0 : Sub 0x1000 mm := Sub.trans (by decide) hm
  have k1 : Sub 0x7ffffffffffc00000080000e100 mm := Sub.trans (by decide) hm
  have k2 : Sub 0x800001000 mm := Sub.trans (by decide) hm
  unfold State.referenceLost
  repeat' first
    | (intro x; refine Kept.bind (s0 := s0) (m := mm) (x := x) ?_ ?_; subst x; rotate_left; clear_value x; intro _)
    | (intro y; clear_value y)
    | intro _
    | with_reducible assumption
    | with_reducible lift_lets -underBinder
    | with_reducible apply State.modClock_kept k0
    | with_reducible apply State.toBypass_kept k1
    | with_reducible apply State.startHop_kept k2
    | with_reducible refine State.inc_kept ?_ ?_
    | with_reducible refine State.setBit_kept ?_ ?_
    | with_reducible refine State.wr_kept ?_ ?_
    | exact Sub.bit (Sub.trans (by decide) hm)
    | with_reducible apply Kept.ite
    | with_reducible split
    | split

theorem State.returnToPll_kept {mm : Nat} {s0 s : State} (hm : Sub 0x7ffffffffffc000000800000100 mm) (h : Kept mm s0 s) : Kept mm s0 (State.returnToPll s) := by
  have k0 : Sub 0x7ffffffffffc000000000000100 mm := Sub.trans (by decide) hm
  unfold State.returnToPll
  repeat' first
    | (intro x; refine Kept.bind (s0 := s0) (m := mm) (x := x) ?_ ?_; subst x; rotate_left; clear_value x; intro _)
    | (intro y; clear_value y)
    | intro _
    | with_reducible assumption
    | with_reducible lift_lets -underBinder
    | with_reducible apply State.toNormal_kept k0
    | with_reducible refine State.wr_kept ?_ ?_
    | exact Sub.bit (Sub.trans (by decide) hm)
    | with_reducible apply Kept.ite
    | with_reducible split
    | split

theorem State.bothLost_kept {mm : Nat} {s0 s : State} (hm : Sub 0x7ffffffffffc00000080000f100 mm) (h : Kept mm s0 s) : Kept mm s0 (State.bothLost s) := by
  have k0 : Sub 0x1000 mm := Sub.trans (by decide) hm
  have k1 : Sub 0x7ffffffffffc000000000000100 mm := Sub.trans (by decide) hm
  have k2 : Sub 0x7fffd000000000000000000e000 mm := Sub.trans (by decide) hm
  unfold State.bothLost
  repeat' first
    | (intro x; refine Kept.bind (s0 := s0) (m := mm) (x := x) ?_ ?_; subst x; rotate_left; clear_value x; intro _)
    | (intro y; clear_value y)
    | intro _
    | with_reducible assumption
    | with_reducible lift_lets -underBinder
    | with_reducible apply State.modClock_kept k0
    | with_reducible apply State.toNormal_kept k1
    | with_reducible apply State.logEvent_kept k2
    | with_reducible refine State.inc_kept ?_ ?_
    | with_reducible refine State.wr_kept ?_ ?_
    | exact Sub.bit (Sub.trans (by decide) hm)
    | with_reducible apply Kept.ite
    | with_reducible split
    | split

theorem State.rideWindowEnd_kept {mm : Nat} {s0 s : State} (hm : Sub 0x7ffffffffffc00000080000f124 mm) (h : Kept mm s0 s) : Kept mm s0 (State.rideWindowEnd s) := by
  have k0 : Sub 0x7ffffffffffc00000080000f100 mm := Sub.trans (by decide) hm
  have k1 : Sub 0x0 mm := Sub.trans (by decide) hm
  have k2 : Sub 0x7ffffffffffc00000000000e124 mm := Sub.trans (by decide) hm
  unfold State.rideWindowEnd
  repeat' first
    | (intro x; refine Kept.bind (s0 := s0) (m := mm) (x := x) ?_ ?_; subst x; rotate_left; clear_value x; intro _)
    | (intro y; clear_value y)
    | intro _
    | with_reducible assumption
    | with_reducible lift_lets -underBinder
    | with_reducible apply State.bothLost_kept k0
    | with_reducible apply State.each_kept k1
    | with_reducible apply State.blockBatch_kept k2
    | with_reducible apply Kept.ite
    | with_reducible split
    | split

theorem State.referenceReturn_kept {mm : Nat} {s0 s : State} {r : Nat} (hm : Sub 0x7ffffffffffc00000080000f100 mm) (h : Kept mm s0 s) : Kept mm s0 (State.referenceReturn r s) := by
  have k0 : Sub 0x1000 mm := Sub.trans (by decide) hm
  have k1 : Sub 0x7ffffffffffc00000080000e100 mm := Sub.trans (by decide) hm
  have k2 : Sub 0x800001000 mm := Sub.trans (by decide) hm
  unfold State.referenceReturn
  repeat' first
    | (intro x; refine Kept.bind (s0 := s0) (m := mm) (x := x) ?_ ?_; subst x; rotate_left; clear_value x; intro _)
    | (intro y; clear_value y)
    | intro _
    | with_reducible assumption
    | with_reducible lift_lets -underBinder
    | with_reducible apply State.modClock_kept k0
    | with_reducible apply State.toBypass_kept k1
    | with_reducible apply State.startHop_kept k2
    | with_reducible apply State.reselect_kept hm
    | with_reducible refine State.setBit_kept ?_ ?_
    | with_reducible refine State.wr_kept ?_ ?_
    | exact Sub.bit (Sub.trans (by decide) hm)
    | with_reducible apply Kept.ite
    | with_reducible split
    | split

theorem State.hkMeasure_kept {mm : Nat} {s0 s : State} {err : Int} (hm : Sub 0x800001000 mm) (h : Kept mm s0 s) : Kept mm s0 (State.hkMeasure err s) := by
  have k0 : Sub 0x1000 mm := Sub.trans (by decide) hm
  unfold State.hkMeasure
  repeat' first
    | (intro x; refine Kept.bind (s0 := s0) (m := mm) (x := x) ?_ ?_; subst x; rotate_left; clear_value x; intro _)
    | (intro y; clear_value y)
    | intro _
    | with_reducible assumption
    | with_reducible lift_lets -underBinder
    | with_reducible apply State.modClock_kept k0
    | with_reducible refine State.wr_kept ?_ ?_
    | exact Sub.bit (Sub.trans (by decide) hm)
    | with_reducible apply Kept.ite
    | with_reducible split
    | split

theorem State.setTpo_kept {mm : Nat} {s0 s : State} {k : Nat} {r : TpoRec} (hm : Sub 0x1000 mm) (h : Kept mm s0 s) : Kept mm s0 (State.setTpo k r s) := by
  unfold State.setTpo
  repeat' first
    | (intro x; refine Kept.bind (s0 := s0) (m := mm) (x := x) ?_ ?_; subst x; rotate_left; clear_value x; intro _)
    | (intro y; clear_value y)
    | intro _
    | with_reducible assumption
    | with_reducible lift_lets -underBinder
    | with_reducible apply State.modClock_kept hm
    | with_reducible apply Kept.ite
    | with_reducible split
    | split

theorem State.tpoLoss_kept {mm : Nat} {s0 s : State} {k : Nat} (hm : Sub 0x7fffffffe00000000000000e080 mm) (h : Kept mm s0 s) : Kept mm s0 (State.tpoLoss k s) := by
  have k0 : Sub 0x0 mm := Sub.trans (by decide) hm
  unfold State.tpoLoss
  repeat' first
    | (intro x; refine Kept.bind (s0 := s0) (m := mm) (x := x) ?_ ?_; subst x; rotate_left; clear_value x; intro _)
    | (intro y; clear_value y)
    | intro _
    | with_reducible assumption
    | with_reducible lift_lets -underBinder
    | with_reducible apply State.each_kept k0
    | with_reducible apply State.syncLoss_kept hm
    | with_reducible apply Kept.ite
    | with_reducible split
    | split

theorem State.tpoStop_kept {mm : Nat} {s0 s : State} {k : Nat} (hm : Sub 0x7ffffffffffffffff000000f080 mm) (h : Kept mm s0 s) : Kept mm s0 (State.tpoStop k s) := by
  have k0 : Sub 0x1000 mm := Sub.trans (by decide) hm
  have k1 : Sub 0x7fffffffe00000000000000e080 mm := Sub.trans (by decide) hm
  have kz : Sub (2 ^ 107 - 2 ^ (20 + zone 0x23200900)) mm := Sub.trans (by decide) hm
  unfold State.tpoStop
  repeat' first
    | (intro x; refine Kept.bind (s0 := s0) (m := mm) (x := x) ?_ ?_; subst x; rotate_left; clear_value x; intro _)
    | (intro y; clear_value y)
    | intro _
    | with_reducible assumption
    | with_reducible lift_lets -underBinder
    | with_reducible apply State.modClock_kept k0
    | with_reducible apply State.tpoLoss_kept k1
    | with_reducible refine State.setBit_kept ?_ ?_
    | with_reducible refine State.wr_kept ?_ ?_
    | exact Sub.bit (Sub.trans (by decide) hm)
    | (refine Sub.from (b := 0x23200900) kz ?_; (try simp only [key, bk, tpk]); omega)
    | with_reducible apply Kept.ite
    | with_reducible split
    | split

theorem State.tpoPut_kept {mm : Nat} {s0 s : State} {k : Nat} {v : Bool} {x : Time} (hm : Sub 0x0 mm) (h : Kept mm s0 s) : Kept mm s0 (State.tpoPut k v x s) := by
  unfold State.tpoPut
  repeat' first
    | (intro x; refine Kept.bind (s0 := s0) (m := mm) (x := x) ?_ ?_; subst x; rotate_left; clear_value x; intro _)
    | (intro y; clear_value y)
    | intro _
    | with_reducible assumption
    | with_reducible lift_lets -underBinder
    | with_reducible apply State.msg_kept hm
    | with_reducible apply Kept.ite
    | with_reducible split
    | split

theorem State.tpoFire_kept {mm : Nat} {s0 s : State} {k : Nat} (hm : Sub 0x7ffffffffffffffff000000f080 mm) (h : Kept mm s0 s) : Kept mm s0 (State.tpoFire k s) := by
  have k0 : Sub 0x1000 mm := Sub.trans (by decide) hm
  have k1 : Sub 0x7fffd000000000000000000e000 mm := Sub.trans (by decide) hm
  have k2 : Sub 0x7fffffffe00000000000000e080 mm := Sub.trans (by decide) hm
  have k3 : Sub 0x0 mm := Sub.trans (by decide) hm
  have kz : Sub (2 ^ 107 - 2 ^ (20 + zone 0x23200900)) mm := Sub.trans (by decide) hm
  unfold State.tpoFire
  repeat' first
    | (intro x; refine Kept.bind (s0 := s0) (m := mm) (x := x) ?_ ?_; subst x; rotate_left; clear_value x; intro _)
    | (intro y; clear_value y)
    | intro _
    | with_reducible assumption
    | with_reducible lift_lets -underBinder
    | with_reducible apply State.setTpo_kept k0
    | with_reducible apply State.pulseSource_kept k1
    | with_reducible apply State.modClock_kept k0
    | with_reducible apply State.tpoLoss_kept k2
    | with_reducible apply State.tpoPut_kept k3
    | with_reducible apply State.tpoStop_kept hm
    | with_reducible refine State.inc_kept ?_ ?_
    | with_reducible refine State.setBit_kept ?_ ?_
    | with_reducible refine State.wr_kept ?_ ?_
    | exact Sub.bit (Sub.trans (by decide) hm)
    | (refine Sub.from (b := 0x23200900) kz ?_; (try simp only [key, bk, tpk]); omega)
    | with_reducible apply Kept.ite
    | with_reducible split
    | split

theorem State.tpoEnd_kept {mm : Nat} {s0 s : State} {k : Nat} (hm : Sub 0x1000 mm) (h : Kept mm s0 s) : Kept mm s0 (State.tpoEnd k s) := by
  have k0 : Sub 0x0 mm := Sub.trans (by decide) hm
  unfold State.tpoEnd
  repeat' first
    | (intro x; refine Kept.bind (s0 := s0) (m := mm) (x := x) ?_ ?_; subst x; rotate_left; clear_value x; intro _)
    | (intro y; clear_value y)
    | intro _
    | with_reducible assumption
    | with_reducible lift_lets -underBinder
    | with_reducible apply State.setTpo_kept hm
    | with_reducible apply State.tpoPut_kept k0
    | with_reducible apply Kept.ite
    | with_reducible split
    | split

theorem armTpoEff_kept {mm : Nat} {s0 : State} {k : Nat} (hm : Sub 0x7ffffffffffffffff000000f080 mm) : EffKept mm s0 (armTpoEff k) := by
  have k0 : Sub 0x1000 mm := Sub.trans (by decide) hm
  have k1 : Sub 0x7fffffffe00000000000000e080 mm := Sub.trans (by decide) hm
  have kz : Sub (2 ^ 107 - 2 ^ (20 + zone 0x23200900)) mm := Sub.trans (by decide) hm
  unfold armTpoEff
  repeat' first
    | (intro x; refine Kept.bind (s0 := s0) (m := mm) (x := x) ?_ ?_; subst x; rotate_left; clear_value x; intro _)
    | (intro y; clear_value y)
    | intro _
    | with_reducible assumption
    | with_reducible lift_lets -underBinder
    | with_reducible apply State.setTpo_kept k0
    | with_reducible apply State.modClock_kept k0
    | with_reducible apply State.tpoLoss_kept k1
    | with_reducible refine State.setBit_kept ?_ ?_
    | with_reducible refine State.wr_kept ?_ ?_
    | exact Sub.bit (Sub.trans (by decide) hm)
    | (refine Sub.from (b := 0x23200900) kz ?_; (try simp only [key, bk, tpk]); omega)
    | with_reducible apply Kept.ite
    | with_reducible apply EffKept.ite
    | with_reducible split
    | split
    | (refine ⟨fun s h => ?_⟩; dsimp -zeta only)
    | dsimp -zeta only

theorem disarmTpoEff_kept {mm : Nat} {s0 : State} {k : Nat} (hm : Sub 0x7ffffffffffffffff000000f080 mm) : EffKept mm s0 (disarmTpoEff k) := by
  unfold disarmTpoEff
  repeat' first
    | (intro x; refine Kept.bind (s0 := s0) (m := mm) (x := x) ?_ ?_; subst x; rotate_left; clear_value x; intro _)
    | (intro y; clear_value y)
    | intro _
    | with_reducible assumption
    | with_reducible lift_lets -underBinder
    | with_reducible apply State.tpoStop_kept hm
    | with_reducible apply Kept.ite
    | with_reducible apply EffKept.ite
    | with_reducible split
    | split
    | (refine ⟨fun s h => ?_⟩; dsimp -zeta only)
    | dsimp -zeta only

theorem tpoSettingEff_kept {mm : Nat} {s0 : State} {k sub : Nat} {v : Int} (hm : Sub 0x7ffffffffffffffff0000000000 mm) : EffKept mm s0 (tpoSettingEff k sub v) := by
  have kz : Sub (2 ^ 107 - 2 ^ (20 + zone 0x23200000)) mm := Sub.trans (by decide) hm
  unfold tpoSettingEff
  repeat' first
    | (intro x; refine Kept.bind (s0 := s0) (m := mm) (x := x) ?_ ?_; subst x; rotate_left; clear_value x; intro _)
    | (intro y; clear_value y)
    | intro _
    | with_reducible assumption
    | with_reducible lift_lets -underBinder
    | with_reducible refine State.wr_kept ?_ ?_
    | exact Sub.bit (Sub.trans (by decide) hm)
    | (refine Sub.from (b := 0x23200000) kz ?_; (try simp only [key, bk, tpk]); omega)
    | with_reducible apply Kept.ite
    | with_reducible apply EffKept.ite
    | with_reducible split
    | split
    | (refine ⟨fun s h => ?_⟩; dsimp -zeta only)
    | dsimp -zeta only

theorem State.retimeLinks_kept {mm : Nat} {s0 s : State} (hm : Sub 0x7ffffffffc00000000000080200 mm) (h : Kept mm s0 s) : Kept mm s0 (State.retimeLinks s) := by
  have k0 : Sub 0x0 mm := Sub.trans (by decide) hm
  have k1 : Sub 0x200 mm := Sub.trans (by decide) hm
  have k2 : Sub 0x80000 mm := Sub.trans (by decide) hm
  have k3 : Sub 0x7ffffffffc00000000000000200 mm := Sub.trans (by decide) hm
  unfold State.retimeLinks
  repeat' first
    | (intro x; refine Kept.bind (s0 := s0) (m := mm) (x := x) ?_ ?_; subst x; rotate_left; clear_value x; intro _)
    | (intro y; have w_ : List Nat × State := y; clear w_)
    | (intro y; clear_value y)
    | intro _
    | with_reducible assumption
    | with_reducible lift_lets -underBinder
    | with_reducible apply State.each_kept k0
    | with_reducible apply State.setLink_kept k1
    | with_reducible apply State.knownDelays_kept k2
    | with_reducible apply State.syncReturn_kept k3
    | with_reducible apply Kept.ite
    | with_reducible split
    | split
    | with_reducible apply Kept.upd_links k1
    | with_reducible refine Kept.snd (by assumption) ?_
    | with_reducible refine Kept.fst (by assumption) ?_
    | dsimp only [id_eq]

theorem State.timeStep_kept {mm : Nat} {s0 s : State} {d : Int} (hm : Sub 0x7ffffffffffffffff200008f280 mm) (h : Kept mm s0 s) : Kept mm s0 (State.timeStep d s) := by
  have k0 : Sub 0x1000 mm := Sub.trans (by decide) hm
  have k1 : Sub 0x0 mm := Sub.trans (by decide) hm
  have k2 : Sub 0x7ffffffffffffffff000000f080 mm := Sub.trans (by decide) hm
  have k3 : Sub 0x7fffd000000000000000000e000 mm := Sub.trans (by decide) hm
  have k4 : Sub 0x7ffffffffc00000000000080200 mm := Sub.trans (by decide) hm
  have kz : Sub (2 ^ 107 - 2 ^ (20 + zone 0x23200900)) mm := Sub.trans (by decide) hm
  unfold State.timeStep
  repeat' first
    | (intro x; refine Kept.bind (s0 := s0) (m := mm) (x := x) ?_ ?_; subst x; rotate_left; clear_value x; intro _)
    | (intro y; clear_value y)
    | intro _
    | with_reducible assumption
    | with_reducible lift_lets -underBinder
    | with_reducible apply State.modClock_kept k0
    | with_reducible apply State.each_kept k1
    | with_reducible apply State.tpoStop_kept k2
    | with_reducible apply State.logEvent_kept k3
    | with_reducible apply State.retimeLinks_kept k4
    | with_reducible refine State.setBit_kept ?_ ?_
    | with_reducible refine State.wr_kept ?_ ?_
    | exact Sub.bit (Sub.trans (by decide) hm)
    | (refine Sub.from (b := 0x23200900) kz ?_; (try simp only [key, bk, tmk, tpk]); omega)
    | with_reducible apply Kept.ite
    | with_reducible split
    | split

theorem State.setPort_kept {mm : Nat} {s0 s : State} {p : Nat} {r : PtpPort} (hm : Sub 0x1000 mm) (h : Kept mm s0 s) : Kept mm s0 (State.setPort p r s) := by
  unfold State.setPort
  repeat' first
    | (intro x; refine Kept.bind (s0 := s0) (m := mm) (x := x) ?_ ?_; subst x; rotate_left; clear_value x; intro _)
    | (intro y; clear_value y)
    | intro _
    | with_reducible assumption
    | with_reducible lift_lets -underBinder
    | with_reducible apply State.modClock_kept hm
    | with_reducible apply Kept.ite
    | with_reducible split
    | split

theorem State.setQuality_kept {mm : Nat} {s0 s : State} {v : Nat} (hm : Sub 0x2000000000 mm) (h : Kept mm s0 s) : Kept mm s0 (State.setQuality v s) := by
  unfold State.setQuality
  repeat' first
    | (intro x; refine Kept.bind (s0 := s0) (m := mm) (x := x) ?_ ?_; subst x; rotate_left; clear_value x; intro _)
    | (intro y; clear_value y)
    | intro _
    | with_reducible assumption
    | with_reducible lift_lets -underBinder
    | with_reducible refine State.setBit_kept ?_ ?_
    | with_reducible refine State.wr_kept ?_ ?_
    | exact Sub.bit (Sub.trans (by decide) hm)
    | with_reducible apply Kept.ite
    | with_reducible split
    | split

theorem State.portStates_kept {mm : Nat} {s0 s : State} (hm : Sub 0x7ffffffffffffffff8000000000 mm) (h : Kept mm s0 s) : Kept mm s0 (State.portStates s) := by
  have k0 : Sub 0x0 mm := Sub.trans (by decide) hm
  have kz : Sub (2 ^ 107 - 2 ^ (20 + zone 0x23100d00)) mm := Sub.trans (by decide) hm
  unfold State.portStates
  repeat' first
    | (intro x; refine Kept.bind (s0 := s0) (m := mm) (x := x) ?_ ?_; subst x; rotate_left; clear_value x; intro _)
    | (intro y; clear_value y)
    | intro _
    | with_reducible assumption
    | with_reducible lift_lets -underBinder
    | with_reducible apply State.each_kept k0
    | with_reducible refine State.wr_kept ?_ ?_
    | exact Sub.bit (Sub.trans (by decide) hm)
    | (refine Sub.from (b := 0x23100d00) kz ?_; (try simp only [key, bk, ptk]); omega)
    | with_reducible apply Kept.ite
    | with_reducible split
    | split

theorem State.setActive_kept {mm : Nat} {s0 s : State} {p : Nat} (hm : Sub 0xa000000000 mm) (h : Kept mm s0 s) : Kept mm s0 (State.setActive p s) := by
  unfold State.setActive
  repeat' first
    | (intro x; refine Kept.bind (s0 := s0) (m := mm) (x := x) ?_ ?_; subst x; rotate_left; clear_value x; intro _)
    | (intro y; clear_value y)
    | intro _
    | with_reducible assumption
    | with_reducible lift_lets -underBinder
    | with_reducible refine State.inc_kept ?_ ?_
    | with_reducible refine State.wr_kept ?_ ?_
    | exact Sub.bit (Sub.trans (by decide) hm)
    | with_reducible apply Kept.ite
    | with_reducible split
    | split

theorem State.takeMaster_kept {mm : Nat} {s0 s : State} {m : AnnounceMsg} (hm : Sub 0xa000000000 mm) (h : Kept mm s0 s) : Kept mm s0 (State.takeMaster m s) := by
  unfold State.takeMaster
  repeat' first
    | (intro x; refine Kept.bind (s0 := s0) (m := mm) (x := x) ?_ ?_; subst x; rotate_left; clear_value x; intro _)
    | (intro y; clear_value y)
    | intro _
    | with_reducible assumption
    | with_reducible lift_lets -underBinder
    | with_reducible refine State.setBit_kept ?_ ?_
    | with_reducible refine State.wr_kept ?_ ?_
    | exact Sub.bit (Sub.trans (by decide) hm)
    | with_reducible apply Kept.ite
    | with_reducible split
    | split

theorem State.selectMaster_kept {mm : Nat} {s0 s : State} {p : Nat} {l : Tbl (AnnounceMsg × Time)} (hm : Sub 0x1000 mm) (h : Kept mm s0 s) : Kept mm s0 (State.selectMaster p l s) := by
  unfold State.selectMaster
  repeat' first
    | (intro x; refine Kept.bind (s0 := s0) (m := mm) (x := x) ?_ ?_; subst x; rotate_left; clear_value x; intro _)
    | (intro y; clear_value y)
    | intro _
    | with_reducible assumption
    | with_reducible lift_lets -underBinder
    | with_reducible apply State.setPort_kept hm
    | with_reducible apply Kept.ite
    | with_reducible split
    | split

theorem State.chooseActive_kept {mm : Nat} {s0 s : State} {p : Nat} (hm : Sub 0x7ffffffffffffffffa000000000 mm) (h : Kept mm s0 s) : Kept mm s0 (State.chooseActive p s) := by
  have k0 : Sub 0xa000000000 mm := Sub.trans (by decide) hm
  have k1 : Sub 0x7ffffffffffffffff8000000000 mm := Sub.trans (by decide) hm
  unfold State.chooseActive
  repeat' first
    | (intro x; refine Kept.bind (s0 := s0) (m := mm) (x := x) ?_ ?_; subst x; rotate_left; clear_value x; intro _)
    | (intro y; clear_value y)
    | intro _
    | with_reducible assumption
    | with_reducible lift_lets -underBinder
    | with_reducible apply State.setActive_kept k0
    | with_reducible apply State.portStates_kept k1
    | with_reducible apply State.takeMaster_kept k0
    | with_reducible apply Kept.ite
    | with_reducible split
    | split

theorem State.ptpAnnounce_kept {mm : Nat} {s0 s : State} {p : Nat} {m : AnnounceMsg} (hm : Sub 0x7ffffffffffffffffa000001000 mm) (h : Kept mm s0 s) : Kept mm s0 (State.ptpAnnounce p m s) := by
  have k0 : Sub 0x1000 mm := Sub.trans (by decide) hm
  have k1 : Sub 0x7ffffffffffffffffa000000000 mm := Sub.trans (by decide) hm
  unfold State.ptpAnnounce
  repeat' first
    | (intro x; refine Kept.bind (s0 := s0) (m := mm) (x := x) ?_ ?_; subst x; rotate_left; clear_value x; intro _)
    | (intro y; clear_value y)
    | intro _
    | with_reducible assumption
    | with_reducible lift_lets -underBinder
    | with_reducible apply State.selectMaster_kept k0
    | with_reducible apply State.chooseActive_kept k1
    | with_reducible apply Kept.ite
    | with_reducible split
    | split

theorem State.pathDelay_kept {mm : Nat} {s0 s : State} {p ns : Nat} (hm : Sub 0x2000001000 mm) (h : Kept mm s0 s) : Kept mm s0 (State.pathDelay p ns s) := by
  have k0 : Sub 0x1000 mm := Sub.trans (by decide) hm
  unfold State.pathDelay
  repeat' first
    | (intro x; refine Kept.bind (s0 := s0) (m := mm) (x := x) ?_ ?_; subst x; rotate_left; clear_value x; intro _)
    | (intro y; clear_value y)
    | intro _
    | with_reducible assumption
    | with_reducible lift_lets -underBinder
    | with_reducible apply State.setPort_kept k0
    | with_reducible refine State.wr_kept ?_ ?_
    | exact Sub.bit (Sub.trans (by decide) hm)
    | with_reducible apply Kept.ite
    | with_reducible split
    | split

theorem State.ptpPdelay_kept {mm : Nat} {s0 s : State} {p : Nat} {m : PdelayMsg} (hm : Sub 0x7ffffffffffffffffa000001000 mm) (h : Kept mm s0 s) : Kept mm s0 (State.ptpPdelay p m s) := by
  have k0 : Sub 0x0 mm := Sub.trans (by decide) hm
  have k1 : Sub 0x2000001000 mm := Sub.trans (by decide) hm
  have kz : Sub (2 ^ 107 - 2 ^ (20 + zone 0x23101100)) mm := Sub.trans (by decide) hm
  unfold State.ptpPdelay
  repeat' first
    | (intro x; refine Kept.bind (s0 := s0) (m := mm) (x := x) ?_ ?_; subst x; rotate_left; clear_value x; intro _)
    | (intro y; clear_value y)
    | intro _
    | with_reducible assumption
    | with_reducible lift_lets -underBinder
    | with_reducible apply State.msg_kept k0
    | with_reducible apply State.pathDelay_kept k1
    | with_reducible refine State.wr_kept ?_ ?_
    | exact Sub.bit (Sub.trans (by decide) hm)
    | (refine Sub.from (b := 0x23101100) kz ?_; (try simp only [key, bk, ptk]); omega)
    | with_reducible apply Kept.ite
    | with_reducible split
    | split

theorem State.delayResp_kept {mm : Nat} {s0 s : State} {m : DelayRespMsg} (hm : Sub 0x2000001000 mm) (h : Kept mm s0 s) : Kept mm s0 (State.delayResp m s) := by
  unfold State.delayResp
  repeat' first
    | (intro x; refine Kept.bind (s0 := s0) (m := mm) (x := x) ?_ ?_; subst x; rotate_left; clear_value x; intro _)
    | (intro y; clear_value y)
    | intro _
    | with_reducible assumption
    | with_reducible lift_lets -underBinder
    | with_reducible apply State.pathDelay_kept hm
    | with_reducible apply Kept.ite
    | with_reducible split
    | split

theorem State.ptpTransmit_kept {mm : Nat} {s0 s : State} {p : Nat} {k : PtpKind} (hm : Sub 0x80000 mm) (h : Kept mm s0 s) : Kept mm s0 (State.ptpTransmit p k s) := by
  have k0 : Sub 0x0 mm := Sub.trans (by decide) hm
  unfold State.ptpTransmit
  repeat' first
    | (intro x; refine Kept.bind (s0 := s0) (m := mm) (x := x) ?_ ?_; subst x; rotate_left; clear_value x; intro _)
    | (intro y; have w_ : Nat × State := y; clear w_)
    | (intro y; clear_value y)
    | intro _
    | with_reducible assumption
    | with_reducible lift_lets -underBinder
    | with_reducible apply State.msg_kept k0
    | with_reducible apply State.draw_kept hm
    | with_reducible apply Kept.ite
    | with_reducible split
    | split
    | with_reducible refine Kept.snd (by assumption) ?_
    | with_reducible refine Kept.fst (by assumption) ?_

theorem State.announceLost_kept {mm : Nat} {s0 s : State} {p : Nat} (hm : Sub 0x7ffffffffffffffffa000001000 mm) (h : Kept mm s0 s) : Kept mm s0 (State.announceLost p s) := by
  have k0 : Sub 0x1000 mm := Sub.trans (by decide) hm
  have k1 : Sub 0x7ffffffffffffffffa000000000 mm := Sub.trans (by decide) hm
  have k2 : Sub 0x2000000000 mm := Sub.trans (by decide) hm
  unfold State.announceLost
  repeat' first
    | (intro x; refine Kept.bind (s0 := s0) (m := mm) (x := x) ?_ ?_; subst x; rotate_left; clear_value x; intro _)
    | (intro y; clear_value y)
    | intro _
    | with_reducible assumption
    | with_reducible lift_lets -underBinder
    | with_reducible apply State.selectMaster_kept k0
    | with_reducible apply State.chooseActive_kept k1
    | with_reducible apply State.setQuality_kept k2
    | with_reducible refine State.inc_kept ?_ ?_
    | exact Sub.bit (Sub.trans (by decide) hm)
    | with_reducible apply Kept.ite
    | with_reducible split
    | split

theorem State.offsetQuality_kept {mm : Nat} {s0 s : State} {off : Int} (hm : Sub 0x2000001000 mm) (h : Kept mm s0 s) : Kept mm s0 (State.offsetQuality off s) := by
  have k0 : Sub 0x1000 mm := Sub.trans (by decide) hm
  have k1 : Sub 0x2000000000 mm := Sub.trans (by decide) hm
  unfold State.offsetQuality
  repeat' first
    | (intro x; refine Kept.bind (s0 := s0) (m := mm) (x := x) ?_ ?_; subst x; rotate_left; clear_value x; intro _)
    | (intro y; clear_value y)
    | intro _
    | with_reducible assumption
    | with_reducible lift_lets -underBinder
    | with_reducible apply State.modClock_kept k0
    | with_reducible apply State.setQuality_kept k1
    | with_reducible apply Kept.ite
    | with_reducible split
    | split

theorem State.servoUpdate_kept {mm : Nat} {s0 s : State} {off : Int} (hm : Sub 0x2800080000 mm) (h : Kept mm s0 s) : Kept mm s0 (State.servoUpdate off s) := by
  have k0 : Sub 0x80000 mm := Sub.trans (by decide) hm
  unfold State.servoUpdate
  repeat' first
    | (intro x; refine Kept.bind (s0 := s0) (m := mm) (x := x) ?_ ?_; subst x; rotate_left; clear_value x; intro _)
    | (intro y; have w_ : Nat × State := y; clear w_)
    | (intro y; clear_value y)
    | intro _
    | with_reducible assumption
    | with_reducible lift_lets -underBinder
    | with_reducible apply State.draw_kept k0
    | with_reducible refine State.wr_kept ?_ ?_
    | exact Sub.bit (Sub.trans (by decide) hm)
    | with_reducible apply Kept.ite
    | with_reducible split
    | split
    | with_reducible refine Kept.snd (by assumption) ?_
    | with_reducible refine Kept.fst (by assumption) ?_

theorem State.takeOffset_kept {mm : Nat} {s0 s : State} {off : Int} (hm : Sub 0x7ffffffffffffffff280008f280 mm) (h : Kept mm s0 s) : Kept mm s0 (State.takeOffset off s) := by
  have k0 : Sub 0x1000 mm := Sub.trans (by decide) hm
  have k1 : Sub 0x7ffffffffffffffff200008f280 mm := Sub.trans (by decide) hm
  have k2 : Sub 0x2000000000 mm := Sub.trans (by decide) hm
  have k3 : Sub 0x2800080000 mm := Sub.trans (by decide) hm
  have k4 : Sub 0x2000001000 mm := Sub.trans (by decide) hm
  unfold State.takeOffset
  repeat' first
    | (intro x; refine Kept.bind (s0 := s0) (m := mm) (x := x) ?_ ?_; subst x; rotate_left; clear_value x; intro _)
    | (intro y; clear_value y)
    | intro _
    | with_reducible assumption
    | with_reducible lift_lets -underBinder
    | with_reducible apply State.modClock_kept k0
    | with_reducible apply State.timeStep_kept k1
    | with_reducible apply State.setQuality_kept k2
    | with_reducible apply State.servoUpdate_kept k3
    | with_reducible apply State.offsetQuality_kept k4
    | with_reducible refine State.setBit_kept ?_ ?_
    | with_reducible refine State.wr_kept ?_ ?_
    | exact Sub.bit (Sub.trans (by decide) hm)
    | with_reducible apply Kept.ite
    | with_reducible split
    | split

theorem State.ptpSync_kept {mm : Nat} {s0 s : State} {p : Nat} {m : SyncMsg} (hm : Sub 0x7ffffffffffffffffa80008f280 mm) (h : Kept mm s0 s) : Kept mm s0 (State.ptpSync p m s) := by
  have k0 : Sub 0x7ffffffffffffffff280008f280 mm := Sub.trans (by decide) hm
  unfold State.ptpSync
  repeat' first
    | (intro x; refine Kept.bind (s0 := s0) (m := mm) (x := x) ?_ ?_; subst x; rotate_left; clear_value x; intro _)
    | (intro y; clear_value y)
    | intro _
    | with_reducible assumption
    | with_reducible lift_lets -underBinder
    | with_reducible apply State.takeOffset_kept k0
    | with_reducible refine State.inc_kept ?_ ?_
    | exact Sub.bit (Sub.trans (by decide) hm)
    | with_reducible apply Kept.ite
    | with_reducible split
    | split

theorem State.ptpForget_kept {mm : Nat} {s0 s : State} (hm : Sub 0x7ffffffffffffffffa000001000 mm) (h : Kept mm s0 s) : Kept mm s0 (State.ptpForget s) := by
  have k0 : Sub 0x1000 mm := Sub.trans (by decide) hm
  have k1 : Sub 0xa000000000 mm := Sub.trans (by decide) hm
  have k2 : Sub 0x2000000000 mm := Sub.trans (by decide) hm
  have k3 : Sub 0x7ffffffffffffffff8000000000 mm := Sub.trans (by decide) hm
  unfold State.ptpForget
  repeat' first
    | (intro x; refine Kept.bind (s0 := s0) (m := mm) (x := x) ?_ ?_; subst x; rotate_left; clear_value x; intro _)
    | (intro y; clear_value y)
    | intro _
    | with_reducible assumption
    | with_reducible lift_lets -underBinder
    | with_reducible apply State.modClock_kept k0
    | with_reducible apply State.setActive_kept k1
    | with_reducible apply State.setQuality_kept k2
    | with_reducible apply State.portStates_kept k3
    | with_reducible apply Kept.ite
    | with_reducible split
    | split

theorem ptpEff_kept {mm : Nat} {s0 : State} {sub elem : Nat} {v : Int} (hm : Sub 0x7ffffffffffffffffa000001000 mm) : EffKept mm s0 (ptpEff sub elem v) := by
  have k0 : Sub 0x7ffffffffffffffff8000000000 mm := Sub.trans (by decide) hm
  have kz : Sub (2 ^ 107 - 2 ^ (20 + zone 0x23100000)) mm := Sub.trans (by decide) hm
  unfold ptpEff
  repeat' first
    | (intro x; refine Kept.bind (s0 := s0) (m := mm) (x := x) ?_ ?_; subst x; rotate_left; clear_value x; intro _)
    | (intro y; clear_value y)
    | intro _
    | with_reducible assumption
    | with_reducible lift_lets -underBinder
    | with_reducible apply State.ptpForget_kept hm
    | with_reducible apply State.portStates_kept k0
    | with_reducible refine State.wr_kept ?_ ?_
    | exact Sub.bit (Sub.trans (by decide) hm)
    | (refine Sub.from (b := 0x23100000) kz ?_; (try simp only [key, bk, ptk]); omega)
    | with_reducible apply Kept.ite
    | with_reducible apply EffKept.ite
    | with_reducible split
    | split
    | (refine ⟨fun s h => ?_⟩; dsimp -zeta only)
    | dsimp -zeta only

theorem timeSourceEff_kept {mm : Nat} {s0 : State} {v : Int} (hm : Sub 0x2000001000 mm) : EffKept mm s0 (timeSourceEff v) := by
  have k0 : Sub 0x1000 mm := Sub.trans (by decide) hm
  have k1 : Sub 0x2000000000 mm := Sub.trans (by decide) hm
  unfold timeSourceEff
  repeat' first
    | (intro x; refine Kept.bind (s0 := s0) (m := mm) (x := x) ?_ ?_; subst x; rotate_left; clear_value x; intro _)
    | (intro y; clear_value y)
    | intro _
    | with_reducible assumption
    | with_reducible lift_lets -underBinder
    | with_reducible apply State.modClock_kept k0
    | with_reducible apply State.setQuality_kept k1
    | with_reducible refine State.wr_kept ?_ ?_
    | exact Sub.bit (Sub.trans (by decide) hm)
    | with_reducible apply Kept.ite
    | with_reducible apply EffKept.ite
    | with_reducible split
    | split
    | (refine ⟨fun s h => ?_⟩; dsimp -zeta only)
    | dsimp -zeta only

theorem State.qualityLocked_kept {mm : Nat} {s0 s : State} (hm : Sub 0x2000000000 mm) (h : Kept mm s0 s) : Kept mm s0 (State.qualityLocked s) := by
  unfold State.qualityLocked
  repeat' first
    | (intro x; refine Kept.bind (s0 := s0) (m := mm) (x := x) ?_ ?_; subst x; rotate_left; clear_value x; intro _)
    | (intro y; clear_value y)
    | intro _
    | with_reducible assumption
    | with_reducible lift_lets -underBinder
    | with_reducible apply State.setQuality_kept hm
    | with_reducible apply Kept.ite
    | with_reducible split
    | split

theorem authoriseEff_kept {mm : Nat} {s0 : State} (hm : Sub 0x7ffffffffffffffff200008f280 mm) : EffKept mm s0 authoriseEff := by
  unfold authoriseEff
  repeat' first
    | (intro x; refine Kept.bind (s0 := s0) (m := mm) (x := x) ?_ ?_; subst x; rotate_left; clear_value x; intro _)
    | (intro y; clear_value y)
    | intro _
    | with_reducible assumption
    | with_reducible lift_lets -underBinder
    | with_reducible apply State.timeStep_kept hm
    | with_reducible apply Kept.ite
    | with_reducible apply EffKept.ite
    | with_reducible split
    | split
    | (refine ⟨fun s h => ?_⟩; dsimp -zeta only)
    | dsimp -zeta only

end Sys2Proof.Machine
end

