-- ==== Sys2Proof/Laws/KeptFirmware.lean ====
section
/-! SUPPORT. What the operations of Machine/Firmware.lean may change (Safety.lean, Kept): one lemma for each. -/

set_option linter.all false

namespace Sys2Proof.Machine

theorem State.setFwSlot_kept {mm : Nat} {s0 s : State} {i : Nat} {x : FwSlot} (hm : Sub 0x7ffffffffffffc0000000020000 mm) (h : Kept mm s0 s) : Kept mm s0 (State.setFwSlot i x s) := by
  have k0 : Sub 0x20000 mm := Sub.trans (by decide) hm
  have kz : Sub (2 ^ 107 - 2 ^ (20 + zone 0x26200400)) mm := Sub.trans (by decide) hm
  unfold State.setFwSlot
  repeat' first
    | (intro x; refine Kept.bind (s0 := s0) (m := mm) (x := x) ?_ ?_; subst x; rotate_left; clear_value x; intro _)
    | (intro y; clear_value y)
    | intro _
    | with_reducible assumption
    | with_reducible lift_lets -underBinder
    | with_reducible apply State.modSrv_kept k0
    | with_reducible refine State.wr_kept ?_ ?_
    | exact Sub.bit (Sub.trans (by decide) hm)
    | (refine Sub.from (b := 0x26200400) kz ?_; (try simp only [key, bk, fwk]); omega)
    | with_reducible apply Kept.ite
    | with_reducible split
    | split

theorem State.imageState_kept {mm : Nat} {s0 s : State} {st : Nat} (hm : Sub 0x7fffd000000004000000000e000 mm) (h : Kept mm s0 s) : Kept mm s0 (State.imageState st s) := by
  have k0 : Sub 0x7fffd000000000000000000e000 mm := Sub.trans (by decide) hm
  unfold State.imageState
  repeat' first
    | (intro x; refine Kept.bind (s0 := s0) (m := mm) (x := x) ?_ ?_; subst x; rotate_left; clear_value x; intro _)
    | (intro y; clear_value y)
    | intro _
    | with_reducible assumption
    | with_reducible lift_lets -underBinder
    | with_reducible apply State.logEvent_kept k0
    | with_reducible refine State.wr_kept ?_ ?_
    | exact Sub.bit (Sub.trans (by decide) hm)
    | with_reducible apply Kept.ite
    | with_reducible split
    | split

theorem State.imageReturn_kept {mm : Nat} {s0 s : State} (hm : Sub 0x7fffd000000004000000002e000 mm) (h : Kept mm s0 s) : Kept mm s0 (State.imageReturn s) := by
  have k0 : Sub 0x20000 mm := Sub.trans (by decide) hm
  have k1 : Sub 0x7fffd000000004000000000e000 mm := Sub.trans (by decide) hm
  unfold State.imageReturn
  repeat' first
    | (intro x; refine Kept.bind (s0 := s0) (m := mm) (x := x) ?_ ?_; subst x; rotate_left; clear_value x; intro _)
    | (intro y; clear_value y)
    | intro _
    | with_reducible assumption
    | with_reducible lift_lets -underBinder
    | with_reducible apply State.modSrv_kept k0
    | with_reducible apply State.imageState_kept k1
    | with_reducible refine State.wr_kept ?_ ?_
    | exact Sub.bit (Sub.trans (by decide) hm)
    | with_reducible apply Kept.ite
    | with_reducible split
    | split

theorem State.bootImage_kept {mm : Nat} {s0 s : State} (hm : Sub 0x7fffd000000004000000002e000 mm) (h : Kept mm s0 s) : Kept mm s0 (State.bootImage s) := by
  have k0 : Sub 0x7fffd000000004000000000e000 mm := Sub.trans (by decide) hm
  unfold State.bootImage
  repeat' first
    | (intro x; refine Kept.bind (s0 := s0) (m := mm) (x := x) ?_ ?_; subst x; rotate_left; clear_value x; intro _)
    | (intro y; clear_value y)
    | intro _
    | with_reducible assumption
    | with_reducible lift_lets -underBinder
    | with_reducible apply State.imageReturn_kept hm
    | with_reducible apply State.imageState_kept k0
    | with_reducible refine State.wr_kept ?_ ?_
    | exact Sub.bit (Sub.trans (by decide) hm)
    | with_reducible apply Kept.ite
    | with_reducible split
    | split

theorem State.trialFailure_kept {mm : Nat} {s0 s : State} {code : Nat} (hm : Sub 0x20000 mm) (h : Kept mm s0 s) : Kept mm s0 (State.trialFailure code s) := by
  unfold State.trialFailure
  repeat' first
    | (intro x; refine Kept.bind (s0 := s0) (m := mm) (x := x) ?_ ?_; subst x; rotate_left; clear_value x; intro _)
    | (intro y; clear_value y)
    | intro _
    | with_reducible assumption
    | with_reducible lift_lets -underBinder
    | with_reducible apply State.modSrv_kept hm
    | with_reducible apply Kept.ite
    | with_reducible split
    | split

theorem State.trialRetry_kept {mm : Nat} {s0 s : State} (hm : Sub 0x7fffd000000004000000202e000 mm) (h : Kept mm s0 s) : Kept mm s0 (State.trialRetry s) := by
  have k0 : Sub 0x7fffd000000004000000002e000 mm := Sub.trans (by decide) hm
  unfold State.trialRetry
  repeat' first
    | (intro x; refine Kept.bind (s0 := s0) (m := mm) (x := x) ?_ ?_; subst x; rotate_left; clear_value x; intro _)
    | (intro y; clear_value y)
    | intro _
    | with_reducible assumption
    | with_reducible lift_lets -underBinder
    | with_reducible apply State.imageReturn_kept k0
    | with_reducible refine State.wr_kept ?_ ?_
    | exact Sub.bit (Sub.trans (by decide) hm)
    | with_reducible apply Kept.ite
    | with_reducible split
    | split

theorem confirmEff_kept {mm : Nat} {s0 : State} (hm : Sub 0x7fffffffffffffffe000001e000 mm) : EffKept mm s0 confirmEff := by
  have k0 : Sub 0x7fffd000000004000000000e000 mm := Sub.trans (by decide) hm
  have k1 : Sub 0x7fffffffffffffffe000000e000 mm := Sub.trans (by decide) hm
  have k2 : Sub 0x10000 mm := Sub.trans (by decide) hm
  unfold confirmEff
  repeat' first
    | (intro x; refine Kept.bind (s0 := s0) (m := mm) (x := x) ?_ ?_; subst x; rotate_left; clear_value x; intro _)
    | (intro y; clear_value y)
    | intro _
    | with_reducible assumption
    | with_reducible lift_lets -underBinder
    | with_reducible apply State.imageState_kept k0
    | with_reducible apply State.reserveLeft_kept k1
    | with_reducible refine State.wr_kept ?_ ?_
    | exact Sub.bit (Sub.trans (by decide) hm)
    | with_reducible apply Kept.ite
    | with_reducible apply EffKept.ite
    | with_reducible split
    | split
    | with_reducible apply Kept.upd_power k2
    | (refine ⟨fun s h => ?_⟩; dsimp -zeta only)
    | dsimp -zeta only

theorem State.updateComplete_kept {mm : Nat} {s0 s : State} {writeOk : Bool} (hm : Sub 0x7ffffffffffffc000000402e000 mm) (h : Kept mm s0 s) : Kept mm s0 (State.updateComplete writeOk s) := by
  have k0 : Sub 0x20000 mm := Sub.trans (by decide) hm
  have k1 : Sub 0x7ffffffffffffc0000000020000 mm := Sub.trans (by decide) hm
  have k2 : Sub 0x7fffd000000000000000000e000 mm := Sub.trans (by decide) hm
  have k3 : Sub 0x4028000 mm := Sub.trans (by decide) hm
  unfold State.updateComplete
  repeat' first
    | (intro x; refine Kept.bind (s0 := s0) (m := mm) (x := x) ?_ ?_; subst x; rotate_left; clear_value x; intro _)
    | (intro y; clear_value y)
    | intro _
    | with_reducible assumption
    | with_reducible lift_lets -underBinder
    | with_reducible apply State.modSrv_kept k0
    | with_reducible apply State.setFwSlot_kept k1
    | with_reducible apply State.logEvent_kept k2
    | with_reducible apply State.endLong_kept k3
    | with_reducible refine State.wr_kept ?_ ?_
    | exact Sub.bit (Sub.trans (by decide) hm)
    | with_reducible apply Kept.ite
    | with_reducible split
    | split

end Sys2Proof.Machine
end

