-- ==== Sys2Proof/Laws/KeptIslandOps.lean ====
section
/-! SUPPORT. What the operations of Machine/IslandOps.lean may change (Safety.lean, Kept): one lemma for each. -/

set_option linter.all false

namespace Sys2Proof.Machine

theorem State.setCirc_kept {mm : Nat} {s0 s : State} {n : Nat} {c : IslandCirc} (hm : Sub 0x800 mm) (h : Kept mm s0 s) : Kept mm s0 (State.setCirc n c s) := by
  unfold State.setCirc
  repeat' first
    | (intro x; refine Kept.bind (s0 := s0) (m := mm) (x := x) ?_ ?_; subst x; rotate_left; clear_value x; intro _)
    | (intro y; clear_value y)
    | intro _
    | with_reducible assumption
    | with_reducible lift_lets -underBinder
    | with_reducible apply Kept.ite
    | with_reducible split
    | split
    | with_reducible apply Kept.upd_island hm

theorem bridgesEff_kept {mm : Nat} {s0 : State} {v : Int} (hm : Sub 0x400000000000 mm) : EffKept mm s0 (bridgesEff v) := by
  unfold bridgesEff
  repeat' first
    | (intro x; refine Kept.bind (s0 := s0) (m := mm) (x := x) ?_ ?_; subst x; rotate_left; clear_value x; intro _)
    | (intro y; clear_value y)
    | intro _
    | with_reducible assumption
    | with_reducible lift_lets -underBinder
    | with_reducible refine State.wr_kept ?_ ?_
    | exact Sub.bit (Sub.trans (by decide) hm)
    | with_reducible apply Kept.ite
    | with_reducible apply EffKept.ite
    | with_reducible split
    | split
    | (refine ⟨fun s h => ?_⟩; dsimp -zeta only)
    | dsimp -zeta only

theorem State.setCircState_kept {mm : Nat} {s0 s : State} {n st : Nat} (hm : Sub 0x7e0000000000000400000000000 mm) (h : Kept mm s0 s) : Kept mm s0 (State.setCircState n st s) := by
  have kz : Sub (2 ^ 107 - 2 ^ (20 + zone 0x78200700)) mm := Sub.trans (by decide) hm
  unfold State.setCircState
  repeat' first
    | (intro x; refine Kept.bind (s0 := s0) (m := mm) (x := x) ?_ ?_; subst x; rotate_left; clear_value x; intro _)
    | (intro y; clear_value y)
    | intro _
    | with_reducible assumption
    | with_reducible lift_lets -underBinder
    | with_reducible refine State.setBit_kept ?_ ?_
    | with_reducible refine State.wr_kept ?_ ?_
    | exact Sub.bit (Sub.trans (by decide) hm)
    | (refine Sub.from (b := 0x78200700) kz ?_; (try simp only [key, bk, ik]); omega)
    | with_reducible apply Kept.ite
    | with_reducible split
    | split

theorem State.switches_kept {mm : Nat} {s0 s : State} {n : Nat} {hs ls : Bool} (hm : Sub 0x800 mm) (h : Kept mm s0 s) : Kept mm s0 (State.switches n hs ls s) := by
  unfold State.switches
  repeat' first
    | (intro x; refine Kept.bind (s0 := s0) (m := mm) (x := x) ?_ ?_; subst x; rotate_left; clear_value x; intro _)
    | (intro y; clear_value y)
    | intro _
    | with_reducible assumption
    | with_reducible lift_lets -underBinder
    | with_reducible apply State.setCirc_kept hm
    | with_reducible apply Kept.ite
    | with_reducible split
    | split

theorem State.circOff_kept {mm : Nat} {s0 s : State} {n : Nat} (hm : Sub 0x800 mm) (h : Kept mm s0 s) : Kept mm s0 (State.circOff n s) := by
  unfold State.circOff
  repeat' first
    | (intro x; refine Kept.bind (s0 := s0) (m := mm) (x := x) ?_ ?_; subst x; rotate_left; clear_value x; intro _)
    | (intro y; clear_value y)
    | intro _
    | with_reducible assumption
    | with_reducible lift_lets -underBinder
    | with_reducible apply State.switches_kept hm
    | with_reducible apply State.setCirc_kept hm
    | with_reducible apply Kept.ite
    | with_reducible split
    | split

theorem State.discardRequest_kept {mm : Nat} {s0 s : State} {n : Nat} (hm : Sub 0x7ffffffff000000000000008800 mm) (h : Kept mm s0 s) : Kept mm s0 (State.discardRequest n s) := by
  have k0 : Sub 0x0 mm := Sub.trans (by decide) hm
  have k1 : Sub 0x800 mm := Sub.trans (by decide) hm
  have k2 : Sub 0x8000 mm := Sub.trans (by decide) hm
  have kz : Sub (2 ^ 107 - 2 ^ (20 + zone 0x400b1100)) mm := Sub.trans (by decide) hm
  unfold State.discardRequest
  repeat' first
    | (intro x; refine Kept.bind (s0 := s0) (m := mm) (x := x) ?_ ?_; subst x; rotate_left; clear_value x; intro _)
    | (intro y; clear_value y)
    | intro _
    | with_reducible assumption
    | with_reducible lift_lets -underBinder
    | with_reducible apply State.each_kept k0
    | with_reducible apply State.setCirc_kept k1
    | with_reducible refine State.setBit_kept ?_ ?_
    | exact Sub.bit (Sub.trans (by decide) hm)
    | (refine Sub.from (b := 0x400b1100) kz ?_; (try simp only [key, bk]); omega)
    | with_reducible apply Kept.ite
    | with_reducible split
    | split
    | with_reducible apply Kept.upd_rack k2

theorem State.interrupted_kept {mm : Nat} {s0 s : State} {n : Nat} {aborts : Bool} (hm : Sub 0x7ffffffff000000000000008800 mm) (h : Kept mm s0 s) : Kept mm s0 (State.interrupted n aborts s) := by
  have kz : Sub (2 ^ 107 - 2 ^ (20 + zone 0x78200e00)) mm := Sub.trans (by decide) hm
  unfold State.interrupted
  repeat' first
    | (intro x; refine Kept.bind (s0 := s0) (m := mm) (x := x) ?_ ?_; subst x; rotate_left; clear_value x; intro _)
    | (intro y; clear_value y)
    | intro _
    | with_reducible assumption
    | with_reducible lift_lets -underBinder
    | with_reducible apply State.discardRequest_kept hm
    | with_reducible refine State.inc_kept ?_ ?_
    | exact Sub.bit (Sub.trans (by decide) hm)
    | (refine Sub.from (b := 0x78200e00) kz ?_; (try simp only [key, bk, ik]); omega)
    | with_reducible apply Kept.ite
    | with_reducible split
    | split

theorem State.demandOpen_kept {mm : Nat} {s0 s : State} {n : Nat} {isNew : Bool} (hm : Sub 0x7ffffffff000000400000008800 mm) (h : Kept mm s0 s) : Kept mm s0 (State.demandOpen n isNew s) := by
  have k0 : Sub 0x7ffffffff000000000000008800 mm := Sub.trans (by decide) hm
  have k1 : Sub 0x800 mm := Sub.trans (by decide) hm
  have k2 : Sub 0x7e0000000000000400000000000 mm := Sub.trans (by decide) hm
  unfold State.demandOpen
  repeat' first
    | (intro x; refine Kept.bind (s0 := s0) (m := mm) (x := x) ?_ ?_; subst x; rotate_left; clear_value x; intro _)
    | (intro y; clear_value y)
    | intro _
    | with_reducible assumption
    | with_reducible lift_lets -underBinder
    | with_reducible apply State.interrupted_kept k0
    | with_reducible apply State.circOff_kept k1
    | with_reducible apply State.setCircState_kept k2
    | with_reducible apply State.setCirc_kept k1
    | with_reducible apply Kept.ite
    | with_reducible split
    | split

theorem State.demandsWith_kept {mm : Nat} {s0 s : State} {extra : List Demand} (hm : Sub 0x7ffffffff00000040000000e800 mm) (h : Kept mm s0 s) : Kept mm s0 (State.demandsWith extra s) := by
  have k0 : Sub 0x0 mm := Sub.trans (by decide) hm
  have k1 : Sub 0x7fffd000000000000000000e000 mm := Sub.trans (by decide) hm
  have k2 : Sub 0x7ffffffff000000400000008800 mm := Sub.trans (by decide) hm
  have k3 : Sub 0x800 mm := Sub.trans (by decide) hm
  unfold State.demandsWith
  repeat' first
    | (intro x; refine Kept.bind (s0 := s0) (m := mm) (x := x) ?_ ?_; subst x; rotate_left; clear_value x; intro _)
    | (intro y; clear_value y)
    | intro _
    | with_reducible assumption
    | with_reducible lift_lets -underBinder
    | with_reducible apply State.each_kept k0
    | with_reducible apply State.logEvent_kept k1
    | with_reducible apply State.demandOpen_kept k2
    | with_reducible refine State.inc_kept ?_ ?_
    | exact Sub.bit (Sub.trans (by decide) hm)
    | with_reducible apply Kept.ite
    | with_reducible split
    | split
    | with_reducible apply Kept.upd_island k3

theorem State.circFault_kept {mm : Nat} {s0 s : State} {n code : Nat} {aborts : Bool} (hm : Sub 0x7ffffffff00000040000000e800 mm) (h : Kept mm s0 s) : Kept mm s0 (State.circFault n code aborts s) := by
  have k0 : Sub 0x7ffffffff000000000000008800 mm := Sub.trans (by decide) hm
  have k1 : Sub 0x800 mm := Sub.trans (by decide) hm
  have k2 : Sub 0x7e0000000000000400000000000 mm := Sub.trans (by decide) hm
  have k3 : Sub 0x7fffd000000000000000000e000 mm := Sub.trans (by decide) hm
  have kz : Sub (2 ^ 107 - 2 ^ (20 + zone 0x78200a00)) mm := Sub.trans (by decide) hm
  unfold State.circFault
  repeat' first
    | (intro x; refine Kept.bind (s0 := s0) (m := mm) (x := x) ?_ ?_; subst x; rotate_left; clear_value x; intro _)
    | (intro y; clear_value y)
    | intro _
    | with_reducible assumption
    | with_reducible lift_lets -underBinder
    | with_reducible apply State.interrupted_kept k0
    | with_reducible apply State.circOff_kept k1
    | with_reducible apply State.setCirc_kept k1
    | with_reducible apply State.setCircState_kept k2
    | with_reducible apply State.logEvent_kept k3
    | with_reducible refine State.wr_kept ?_ ?_
    | exact Sub.bit (Sub.trans (by decide) hm)
    | (refine Sub.from (b := 0x78200a00) kz ?_; (try simp only [key, bk, ik]); omega)
    | with_reducible apply Kept.ite
    | with_reducible split
    | split

theorem State.startProof_kept {mm : Nat} {s0 s : State} {n k : Nat} (hm : Sub 0x7e0000000000000400000000800 mm) (h : Kept mm s0 s) : Kept mm s0 (State.startProof n k s) := by
  have k0 : Sub 0x800 mm := Sub.trans (by decide) hm
  have k1 : Sub 0x7e0000000000000400000000000 mm := Sub.trans (by decide) hm
  unfold State.startProof
  repeat' first
    | (intro x; refine Kept.bind (s0 := s0) (m := mm) (x := x) ?_ ?_; subst x; rotate_left; clear_value x; intro _)
    | (intro y; clear_value y)
    | intro _
    | with_reducible assumption
    | with_reducible lift_lets -underBinder
    | with_reducible apply State.switches_kept k0
    | with_reducible apply State.setCirc_kept k0
    | with_reducible apply State.setCircState_kept k1
    | with_reducible apply Kept.ite
    | with_reducible split
    | split

theorem State.takeRequest_kept {mm : Nat} {s0 s : State} {n : Nat} (hm : Sub 0x7e0000000000000400000000800 mm) (h : Kept mm s0 s) : Kept mm s0 (State.takeRequest n s) := by
  have k0 : Sub 0x800 mm := Sub.trans (by decide) hm
  unfold State.takeRequest
  repeat' first
    | (intro x; refine Kept.bind (s0 := s0) (m := mm) (x := x) ?_ ?_; subst x; rotate_left; clear_value x; intro _)
    | (intro y; clear_value y)
    | intro _
    | with_reducible assumption
    | with_reducible lift_lets -underBinder
    | with_reducible apply State.setCirc_kept k0
    | with_reducible apply State.startProof_kept hm
    | with_reducible apply Kept.ite
    | with_reducible split
    | split

theorem State.circClosed_kept {mm : Nat} {s0 s : State} {n : Nat} (hm : Sub 0x7e0000000000000400000000800 mm) (h : Kept mm s0 s) : Kept mm s0 (State.circClosed n s) := by
  have k0 : Sub 0x800 mm := Sub.trans (by decide) hm
  have k1 : Sub 0x7e0000000000000400000000000 mm := Sub.trans (by decide) hm
  have kz : Sub (2 ^ 107 - 2 ^ (20 + zone 0x78200d00)) mm := Sub.trans (by decide) hm
  unfold State.circClosed
  repeat' first
    | (intro x; refine Kept.bind (s0 := s0) (m := mm) (x := x) ?_ ?_; subst x; rotate_left; clear_value x; intro _)
    | (intro y; clear_value y)
    | intro _
    | with_reducible assumption
    | with_reducible lift_lets -underBinder
    | with_reducible apply State.setCirc_kept k0
    | with_reducible apply State.setCircState_kept k1
    | with_reducible refine State.inc_kept ?_ ?_
    | exact Sub.bit (Sub.trans (by decide) hm)
    | (refine Sub.from (b := 0x78200d00) kz ?_; (try simp only [key, bk, ik]); omega)
    | with_reducible apply Kept.ite
    | with_reducible split
    | split

theorem State.testFails_kept {mm : Nat} {s0 s : State} {n code : Nat} (hm : Sub 0x7ffffffff00000040000002e800 mm) (h : Kept mm s0 s) : Kept mm s0 (State.testFails n code s) := by
  have k0 : Sub 0x800 mm := Sub.trans (by decide) hm
  have k1 : Sub 0x28000 mm := Sub.trans (by decide) hm
  have k2 : Sub 0x7ffffffff00000040000000e800 mm := Sub.trans (by decide) hm
  unfold State.testFails
  repeat' first
    | (intro x; refine Kept.bind (s0 := s0) (m := mm) (x := x) ?_ ?_; subst x; rotate_left; clear_value x; intro _)
    | (intro y; clear_value y)
    | intro _
    | with_reducible assumption
    | with_reducible lift_lets -underBinder
    | with_reducible apply State.circOff_kept k0
    | with_reducible apply State.answerTo_kept k1
    | with_reducible apply State.circFault_kept k2
    | with_reducible apply Kept.ite
    | with_reducible split
    | split

theorem State.ackPasses_kept {mm : Nat} {s0 s : State} {n : Nat} (hm : Sub 0x7fffd000000000040000002e800 mm) (h : Kept mm s0 s) : Kept mm s0 (State.ackPasses n s) := by
  have k0 : Sub 0x800 mm := Sub.trans (by decide) hm
  have k1 : Sub 0x7e0000000000000400000000000 mm := Sub.trans (by decide) hm
  have k2 : Sub 0x7fffd000000000000000000e000 mm := Sub.trans (by decide) hm
  have k3 : Sub 0x28000 mm := Sub.trans (by decide) hm
  have kz : Sub (2 ^ 107 - 2 ^ (20 + zone 0x78200a00)) mm := Sub.trans (by decide) hm
  unfold State.ackPasses
  repeat' first
    | (intro x; refine Kept.bind (s0 := s0) (m := mm) (x := x) ?_ ?_; subst x; rotate_left; clear_value x; intro _)
    | (intro y; clear_value y)
    | intro _
    | with_reducible assumption
    | with_reducible lift_lets -underBinder
    | with_reducible apply State.circOff_kept k0
    | with_reducible apply State.setCircState_kept k1
    | with_reducible apply State.logEvent_kept k2
    | with_reducible apply State.answerTo_kept k3
    | with_reducible refine State.wr_kept ?_ ?_
    | exact Sub.bit (Sub.trans (by decide) hm)
    | (refine Sub.from (b := 0x78200a00) kz ?_; (try simp only [key, bk, ik]); omega)
    | with_reducible apply Kept.ite
    | with_reducible split
    | split

theorem State.proofCycle_kept {mm : Nat} {s0 s : State} {n : Nat} {r : Readback} (hm : Sub 0x7ffffffff00000040000002e800 mm) (h : Kept mm s0 s) : Kept mm s0 (State.proofCycle n r s) := by
  have k0 : Sub 0x800 mm := Sub.trans (by decide) hm
  have k1 : Sub 0x7e0000000000000400000000000 mm := Sub.trans (by decide) hm
  have k2 : Sub 0x7fffd000000000040000002e800 mm := Sub.trans (by decide) hm
  have k3 : Sub 0x7e0000000000000400000000800 mm := Sub.trans (by decide) hm
  have k4 : Sub 0x7ffffffff00000040000000e800 mm := Sub.trans (by decide) hm
  unfold State.proofCycle
  repeat' first
    | (intro x; refine Kept.bind (s0 := s0) (m := mm) (x := x) ?_ ?_; subst x; rotate_left; clear_value x; intro _)
    | (intro y; have w_ : Nat → Bool → Bool → State → State := y; clear w_; subst y)
    | (intro y; clear_value y)
    | intro _
    | with_reducible assumption
    | with_reducible lift_lets -underBinder
    | with_reducible apply State.circOff_kept k0
    | with_reducible apply State.setCircState_kept k1
    | with_reducible apply State.switches_kept k0
    | with_reducible apply State.setCirc_kept k0
    | with_reducible apply State.testFails_kept hm
    | with_reducible apply State.ackPasses_kept k2
    | with_reducible apply State.circClosed_kept k3
    | with_reducible apply State.circFault_kept k4
    | with_reducible apply Kept.ite
    | with_reducible split
    | split
    | dsimp -zeta only

theorem State.startPulse_kept {mm : Nat} {s0 s : State} {n : Nat} {low : Bool} (hm : Sub 0x800 mm) (h : Kept mm s0 s) : Kept mm s0 (State.startPulse n low s) := by
  unfold State.startPulse
  repeat' first
    | (intro x; refine Kept.bind (s0 := s0) (m := mm) (x := x) ?_ ?_; subst x; rotate_left; clear_value x; intro _)
    | (intro y; clear_value y)
    | intro _
    | with_reducible assumption
    | with_reducible lift_lets -underBinder
    | with_reducible apply State.switches_kept hm
    | with_reducible apply State.setCirc_kept hm
    | with_reducible apply Kept.ite
    | with_reducible split
    | split

theorem State.pulseCycle_kept {mm : Nat} {s0 s : State} {n : Nat} {r : Readback} (hm : Sub 0x7ffffffff00000040000000e800 mm) (h : Kept mm s0 s) : Kept mm s0 (State.pulseCycle n r s) := by
  have k0 : Sub 0x800 mm := Sub.trans (by decide) hm
  have kz : Sub (2 ^ 107 - 2 ^ (20 + zone 0x78201000)) mm := Sub.trans (by decide) hm
  unfold State.pulseCycle
  repeat' first
    | (intro x; refine Kept.bind (s0 := s0) (m := mm) (x := x) ?_ ?_; subst x; rotate_left; clear_value x; intro _)
    | (intro y; clear_value y)
    | intro _
    | with_reducible assumption
    | with_reducible lift_lets -underBinder
    | with_reducible apply State.switches_kept k0
    | with_reducible apply State.setCirc_kept k0
    | with_reducible apply State.circFault_kept hm
    | with_reducible refine State.inc_kept ?_ ?_
    | exact Sub.bit (Sub.trans (by decide) hm)
    | (refine Sub.from (b := 0x78201000) kz ?_; (try simp only [key, bk, ik]); omega)
    | with_reducible apply Kept.ite
    | with_reducible split
    | split

theorem State.islandStatus_kept {mm : Nat} {s0 s : State} (hm : Sub 0x1000000000000000000000000 mm) (h : Kept mm s0 s) : Kept mm s0 (State.islandStatus s) := by
  unfold State.islandStatus
  repeat' first
    | (intro x; refine Kept.bind (s0 := s0) (m := mm) (x := x) ?_ ?_; subst x; rotate_left; clear_value x; intro _)
    | (intro y; have w_ : Nat := y; clear w_; subst y)
    | (intro y; clear_value y)
    | intro _
    | with_reducible assumption
    | with_reducible lift_lets -underBinder
    | with_reducible refine State.setBit_kept ?_ ?_
    | with_reducible refine State.wr_kept ?_ ?_
    | exact Sub.bit (Sub.trans (by decide) hm)
    | with_reducible apply Kept.ite
    | with_reducible split
    | split

theorem State.islandSettle_kept {mm : Nat} {s0 s : State} (hm : Sub 0x7ffffffff00000040000000e800 mm) (h : Kept mm s0 s) : Kept mm s0 (State.islandSettle s) := by
  have k0 : Sub 0x1000000000000000000000000 mm := Sub.trans (by decide) hm
  unfold State.islandSettle
  repeat' first
    | (intro x; refine Kept.bind (s0 := s0) (m := mm) (x := x) ?_ ?_; subst x; rotate_left; clear_value x; intro _)
    | (intro y; clear_value y)
    | intro _
    | with_reducible assumption
    | with_reducible lift_lets -underBinder
    | with_reducible apply State.islandStatus_kept k0
    | with_reducible apply State.demandsWith_kept hm
    | with_reducible apply Kept.ite
    | with_reducible split
    | split

theorem State.setIsland_kept {mm : Nat} {s0 s : State} {st : Nat} (hm : Sub 0x1000000000000000000000800 mm) (h : Kept mm s0 s) : Kept mm s0 (State.setIsland st s) := by
  have k0 : Sub 0x800 mm := Sub.trans (by decide) hm
  unfold State.setIsland
  repeat' first
    | (intro x; refine Kept.bind (s0 := s0) (m := mm) (x := x) ?_ ?_; subst x; rotate_left; clear_value x; intro _)
    | (intro y; clear_value y)
    | intro _
    | with_reducible assumption
    | with_reducible lift_lets -underBinder
    | with_reducible refine State.wr_kept ?_ ?_
    | exact Sub.bit (Sub.trans (by decide) hm)
    | with_reducible apply Kept.ite
    | with_reducible split
    | split
    | with_reducible apply Kept.upd_island k0

theorem State.islandRunIfLocked_kept {mm : Nat} {s0 s : State} (hm : Sub 0x1000000000000000000000800 mm) (h : Kept mm s0 s) : Kept mm s0 (State.islandRunIfLocked s) := by
  unfold State.islandRunIfLocked
  repeat' first
    | (intro x; refine Kept.bind (s0 := s0) (m := mm) (x := x) ?_ ?_; subst x; rotate_left; clear_value x; intro _)
    | (intro y; clear_value y)
    | intro _
    | with_reducible assumption
    | with_reducible lift_lets -underBinder
    | with_reducible apply State.setIsland_kept hm
    | with_reducible apply Kept.ite
    | with_reducible split
    | split

theorem State.islandFault_kept {mm : Nat} {s0 s : State} (hm : Sub 0x7ffffffff00000040000000e800 mm) (h : Kept mm s0 s) : Kept mm s0 (State.islandFault s) := by
  have k0 : Sub 0x1000000000000000000000800 mm := Sub.trans (by decide) hm
  unfold State.islandFault
  repeat' first
    | (intro x; refine Kept.bind (s0 := s0) (m := mm) (x := x) ?_ ?_; subst x; rotate_left; clear_value x; intro _)
    | (intro y; clear_value y)
    | intro _
    | with_reducible assumption
    | with_reducible lift_lets -underBinder
    | with_reducible apply State.setIsland_kept k0
    | with_reducible apply State.islandSettle_kept hm
    | with_reducible refine State.inc_kept ?_ ?_
    | exact Sub.bit (Sub.trans (by decide) hm)
    | with_reducible apply Kept.ite
    | with_reducible split
    | split

theorem State.islandDark_kept {mm : Nat} {s0 s : State} (hm : Sub 0x7e0000000000000400000000800 mm) (h : Kept mm s0 s) : Kept mm s0 (State.islandDark s) := by
  have k0 : Sub 0x0 mm := Sub.trans (by decide) hm
  have k1 : Sub 0x800 mm := Sub.trans (by decide) hm
  have k2 : Sub 0x7e0000000000000400000000000 mm := Sub.trans (by decide) hm
  unfold State.islandDark
  repeat' first
    | (intro x; refine Kept.bind (s0 := s0) (m := mm) (x := x) ?_ ?_; subst x; rotate_left; clear_value x; intro _)
    | (intro y; clear_value y)
    | intro _
    | with_reducible assumption
    | with_reducible lift_lets -underBinder
    | with_reducible apply State.each_kept k0
    | with_reducible apply State.circOff_kept k1
    | with_reducible apply State.setCirc_kept k1
    | with_reducible apply State.setCircState_kept k2
    | with_reducible apply Kept.ite
    | with_reducible split
    | split

theorem State.openCircuit_kept {mm : Nat} {s0 s : State} {n : Nat} (hm : Sub 0x7e0000000000000400000000800 mm) (h : Kept mm s0 s) : Kept mm s0 (State.openCircuit n s) := by
  have k0 : Sub 0x800 mm := Sub.trans (by decide) hm
  have k1 : Sub 0x7e0000000000000400000000000 mm := Sub.trans (by decide) hm
  unfold State.openCircuit
  repeat' first
    | (intro x; refine Kept.bind (s0 := s0) (m := mm) (x := x) ?_ ?_; subst x; rotate_left; clear_value x; intro _)
    | (intro y; clear_value y)
    | intro _
    | with_reducible assumption
    | with_reducible lift_lets -underBinder
    | with_reducible apply State.circOff_kept k0
    | with_reducible apply State.setCircState_kept k1
    | with_reducible apply Kept.ite
    | with_reducible split
    | split

end Sys2Proof.Machine
end

