-- ==== Sys2Proof/Laws/KeptIsland.lean ====
section
/-! SUPPORT. What the operations of Machine/Island.lean may change (Safety.lean, Kept): one lemma for each. -/

set_option linter.all false

namespace Sys2Proof.Machine

theorem State.islandSelfTestEnd_kept {mm : Nat} {s0 s : State} {pass : Bool} (hm : Sub 0x7ffffffff00000040000000e800 mm) (h : Kept mm s0 s) : Kept mm s0 (State.islandSelfTestEnd pass s) := by
  have k0 : Sub 0x1000000000000000000000800 mm := Sub.trans (by decide) hm
  unfold State.islandSelfTestEnd
  repeat' first
    | (intro x; refine Kept.bind (s0 := s0) (m := mm) (x := x) ?_ ?_; subst x; rotate_left; clear_value x; intro _)
    | (intro y; clear_value y)
    | intro _
    | with_reducible assumption
    | with_reducible lift_lets -underBinder
    | with_reducible apply State.setIsland_kept k0
    | with_reducible apply State.islandRunIfLocked_kept k0
    | with_reducible apply State.islandSettle_kept hm
    | with_reducible apply State.islandFault_kept hm
    | with_reducible apply Kept.ite
    | with_reducible split
    | split

theorem State.oscillatorCheck_kept {mm : Nat} {s0 s : State} {dev : Int} (hm : Sub 0x7ffffffff00000040000000e800 mm) (h : Kept mm s0 s) : Kept mm s0 (State.oscillatorCheck dev s) := by
  unfold State.oscillatorCheck
  repeat' first
    | (intro x; refine Kept.bind (s0 := s0) (m := mm) (x := x) ?_ ?_; subst x; rotate_left; clear_value x; intro _)
    | (intro y; clear_value y)
    | intro _
    | with_reducible assumption
    | with_reducible lift_lets -underBinder
    | with_reducible apply State.islandFault_kept hm
    | with_reducible apply Kept.ite
    | with_reducible split
    | split

theorem State.pd7Low_kept {mm : Nat} {s0 s : State} (hm : Sub 0x7ffffffff00000040000000e800 mm) (h : Kept mm s0 s) : Kept mm s0 (State.pd7Low s) := by
  have k0 : Sub 0x7e0000000000000400000000800 mm := Sub.trans (by decide) hm
  have k1 : Sub 0x0 mm := Sub.trans (by decide) hm
  have k2 : Sub 0x1000000000000000000000800 mm := Sub.trans (by decide) hm
  have k3 : Sub 0x800 mm := Sub.trans (by decide) hm
  have kz : Sub (2 ^ 107 - 2 ^ (20 + zone 0x78100800)) mm := Sub.trans (by decide) hm
  unfold State.pd7Low
  repeat' first
    | (intro x; refine Kept.bind (s0 := s0) (m := mm) (x := x) ?_ ?_; subst x; rotate_left; clear_value x; intro _)
    | (intro y; have w_ : Nat := y; clear w_; subst y)
    | (intro y; clear_value y)
    | intro _
    | with_reducible assumption
    | with_reducible lift_lets -underBinder
    | with_reducible apply State.islandDark_kept k0
    | with_reducible apply State.islandSettle_kept hm
    | with_reducible apply State.each_kept k1
    | with_reducible apply State.setIsland_kept k2
    | with_reducible refine State.wr_kept ?_ ?_
    | exact Sub.bit (Sub.trans (by decide) hm)
    | (refine Sub.from (b := 0x78100800) kz ?_; (try simp only [key, bk]); omega)
    | with_reducible apply Kept.ite
    | with_reducible split
    | split
    | with_reducible apply Kept.upd_island k3

theorem State.islandSample_kept {mm : Nat} {s0 s : State} {x : List Int} (hm : Sub 0x800 mm) (h : Kept mm s0 s) : Kept mm s0 (State.islandSample x s) := by
  unfold State.islandSample
  repeat' first
    | (intro x; refine Kept.bind (s0 := s0) (m := mm) (x := x) ?_ ?_; subst x; rotate_left; clear_value x; intro _)
    | (intro y; clear_value y)
    | intro _
    | with_reducible assumption
    | with_reducible lift_lets -underBinder
    | with_reducible apply Kept.ite
    | with_reducible split
    | split
    | with_reducible apply Kept.upd_island hm

theorem State.setStage_kept {mm : Nat} {s0 s : State} {i : Nat} {r : Stage} (hm : Sub 0x800 mm) (h : Kept mm s0 s) : Kept mm s0 (State.setStage i r s) := by
  unfold State.setStage
  repeat' first
    | (intro x; refine Kept.bind (s0 := s0) (m := mm) (x := x) ?_ ?_; subst x; rotate_left; clear_value x; intro _)
    | (intro y; clear_value y)
    | intro _
    | with_reducible assumption
    | with_reducible lift_lets -underBinder
    | with_reducible apply Kept.ite
    | with_reducible split
    | split
    | with_reducible apply Kept.upd_island hm

theorem State.dropOut_kept {mm : Nat} {s0 s : State} {i : Nat} (hm : Sub 0x7f0000000000000000000000000 mm) (h : Kept mm s0 s) : Kept mm s0 (State.dropOut i s) := by
  have kz : Sub (2 ^ 107 - 2 ^ (20 + zone 0x78100800)) mm := Sub.trans (by decide) hm
  unfold State.dropOut
  repeat' first
    | (intro x; refine Kept.bind (s0 := s0) (m := mm) (x := x) ?_ ?_; subst x; rotate_left; clear_value x; intro _)
    | (intro y; clear_value y)
    | intro _
    | with_reducible assumption
    | with_reducible lift_lets -underBinder
    | with_reducible refine State.wr_kept ?_ ?_
    | exact Sub.bit (Sub.trans (by decide) hm)
    | (refine Sub.from (b := 0x78100800) kz ?_; (try simp only [key, bk]); omega)
    | with_reducible apply Kept.ite
    | with_reducible split
    | split

theorem State.stageEval_kept {mm : Nat} {s0 s : State} {i : Nat} {m : Option F32} (hm : Sub 0x7f0000000000000000000000800 mm) (h : Kept mm s0 s) : Kept mm s0 (State.stageEval i m s) := by
  have k0 : Sub 0x7f0000000000000000000000000 mm := Sub.trans (by decide) hm
  have k1 : Sub 0x800 mm := Sub.trans (by decide) hm
  have kz : Sub (2 ^ 107 - 2 ^ (20 + zone 0x78100800)) mm := Sub.trans (by decide) hm
  unfold State.stageEval
  repeat' first
    | (intro x; refine Kept.bind (s0 := s0) (m := mm) (x := x) ?_ ?_; subst x; rotate_left; clear_value x; intro _)
    | (intro y; have w_ : Nat → Nat := y; clear w_; subst y)
    | (intro y; clear_value y)
    | intro _
    | with_reducible assumption
    | with_reducible lift_lets -underBinder
    | with_reducible apply State.dropOut_kept k0
    | with_reducible apply State.setStage_kept k1
    | with_reducible refine State.setBit_kept ?_ ?_
    | exact Sub.bit (Sub.trans (by decide) hm)
    | (refine Sub.from (b := 0x78100800) kz ?_; (try simp only [key, bk]); omega)
    | with_reducible apply Kept.ite
    | with_reducible split
    | split

theorem State.meanTake_kept {mm : Nat} {s0 s : State} {v : List F32} {i : Nat} (hm : Sub 0x800 mm) (h : Kept mm s0 s) : Kept mm s0 (State.meanTake v i s) := by
  unfold State.meanTake
  repeat' first
    | (intro x; refine Kept.bind (s0 := s0) (m := mm) (x := x) ?_ ?_; subst x; rotate_left; clear_value x; intro _)
    | (intro y; clear_value y)
    | intro _
    | with_reducible assumption
    | with_reducible lift_lets -underBinder
    | with_reducible apply State.setStage_kept hm
    | with_reducible apply Kept.ite
    | with_reducible split
    | split

theorem State.meanUpdate_kept {mm : Nat} {s0 s : State} {i : Nat} (hm : Sub 0x7ffffffff00000040000000e800 mm) (h : Kept mm s0 s) : Kept mm s0 (State.meanUpdate i s) := by
  have k0 : Sub 0x7f0000000000000000000000800 mm := Sub.trans (by decide) hm
  have k1 : Sub 0x800 mm := Sub.trans (by decide) hm
  unfold State.meanUpdate
  repeat' first
    | (intro x; refine Kept.bind (s0 := s0) (m := mm) (x := x) ?_ ?_; subst x; rotate_left; clear_value x; intro _)
    | (intro y; clear_value y)
    | intro _
    | with_reducible assumption
    | with_reducible lift_lets -underBinder
    | with_reducible apply State.stageEval_kept k0
    | with_reducible apply State.setStage_kept k1
    | with_reducible apply State.islandSettle_kept hm
    | with_reducible apply Kept.ite
    | with_reducible split
    | split

theorem State.restartObservation_kept {mm : Nat} {s0 s : State} (hm : Sub 0x800 mm) (h : Kept mm s0 s) : Kept mm s0 (State.restartObservation s) := by
  unfold State.restartObservation
  repeat' first
    | (intro x; refine Kept.bind (s0 := s0) (m := mm) (x := x) ?_ ?_; subst x; rotate_left; clear_value x; intro _)
    | (intro y; clear_value y)
    | intro _
    | with_reducible assumption
    | with_reducible lift_lets -underBinder
    | with_reducible apply Kept.ite
    | with_reducible split
    | split
    | with_reducible apply Kept.upd_island hm

theorem State.stageTrip_kept {mm : Nat} {s0 s : State} {i : Nat} (hm : Sub 0x7ffffffff00000040000000e800 mm) (h : Kept mm s0 s) : Kept mm s0 (State.stageTrip i s) := by
  have k0 : Sub 0x800 mm := Sub.trans (by decide) hm
  have kz : Sub (2 ^ 107 - 2 ^ (20 + zone 0x78100800)) mm := Sub.trans (by decide) hm
  unfold State.stageTrip
  repeat' first
    | (intro x; refine Kept.bind (s0 := s0) (m := mm) (x := x) ?_ ?_; subst x; rotate_left; clear_value x; intro _)
    | (intro y; have w_ : Nat → Nat := y; clear w_; subst y)
    | (intro y; clear_value y)
    | intro _
    | with_reducible assumption
    | with_reducible lift_lets -underBinder
    | with_reducible apply State.restartObservation_kept k0
    | with_reducible apply State.islandSettle_kept hm
    | with_reducible refine State.inc_kept ?_ ?_
    | with_reducible refine State.setBit_kept ?_ ?_
    | exact Sub.bit (Sub.trans (by decide) hm)
    | (refine Sub.from (b := 0x78100800) kz ?_; (try simp only [key, bk]); omega)
    | with_reducible apply Kept.ite
    | with_reducible split
    | split

theorem stageEnableEff_kept {mm : Nat} {s0 : State} {i : Nat} {v : Int} (hm : Sub 0x7ffffffff00000040000000e800 mm) : EffKept mm s0 (stageEnableEff i v) := by
  have k0 : Sub 0x7f0000000000000000000000000 mm := Sub.trans (by decide) hm
  have k1 : Sub 0x0 mm := Sub.trans (by decide) hm
  have k2 : Sub 0x800 mm := Sub.trans (by decide) hm
  have kz : Sub (2 ^ 107 - 2 ^ (20 + zone 0x78100100)) mm := Sub.trans (by decide) hm
  unfold stageEnableEff
  repeat' first
    | (intro x; refine Kept.bind (s0 := s0) (m := mm) (x := x) ?_ ?_; subst x; rotate_left; clear_value x; intro _)
    | (intro y; clear_value y)
    | intro _
    | with_reducible assumption
    | with_reducible lift_lets -underBinder
    | with_reducible apply State.dropOut_kept k0
    | with_reducible apply State.when_kept k1
    | with_reducible apply State.setStage_kept k2
    | with_reducible apply State.islandSettle_kept hm
    | with_reducible refine State.wr_kept ?_ ?_
    | exact Sub.bit (Sub.trans (by decide) hm)
    | (refine Sub.from (b := 0x78100100) kz ?_; (try simp only [key, bk]); omega)
    | with_reducible apply Kept.ite
    | with_reducible apply EffKept.ite
    | with_reducible split
    | split
    | (refine ⟨fun s h => ?_⟩; dsimp -zeta only)
    | dsimp -zeta only

theorem State.setCheck_kept {mm : Nat} {s0 s : State} {i : Nat} {c : CrossCheck} (hm : Sub 0x800 mm) (h : Kept mm s0 s) : Kept mm s0 (State.setCheck i c s) := by
  unfold State.setCheck
  repeat' first
    | (intro x; refine Kept.bind (s0 := s0) (m := mm) (x := x) ?_ ?_; subst x; rotate_left; clear_value x; intro _)
    | (intro y; clear_value y)
    | intro _
    | with_reducible assumption
    | with_reducible lift_lets -underBinder
    | with_reducible apply Kept.ite
    | with_reducible split
    | split
    | with_reducible apply Kept.upd_island hm

theorem State.judgeInvalid_kept {mm : Nat} {s0 s : State} (hm : Sub 0x800 mm) (h : Kept mm s0 s) : Kept mm s0 (State.judgeInvalid s) := by
  have k0 : Sub 0x0 mm := Sub.trans (by decide) hm
  unfold State.judgeInvalid
  repeat' first
    | (intro x; refine Kept.bind (s0 := s0) (m := mm) (x := x) ?_ ?_; subst x; rotate_left; clear_value x; intro _)
    | (intro y; clear_value y)
    | intro _
    | with_reducible assumption
    | with_reducible lift_lets -underBinder
    | with_reducible apply State.each_kept k0
    | with_reducible apply State.setCheck_kept hm
    | with_reducible apply Kept.ite
    | with_reducible split
    | split

theorem State.crossGrace_kept {mm : Nat} {s0 s : State} {i : Nat} (hm : Sub 0x7ffffffff00000040000000e800 mm) (h : Kept mm s0 s) : Kept mm s0 (State.crossGrace i s) := by
  have k0 : Sub 0x800 mm := Sub.trans (by decide) hm
  unfold State.crossGrace
  repeat' first
    | (intro x; refine Kept.bind (s0 := s0) (m := mm) (x := x) ?_ ?_; subst x; rotate_left; clear_value x; intro _)
    | (intro y; clear_value y)
    | intro _
    | with_reducible assumption
    | with_reducible lift_lets -underBinder
    | with_reducible apply State.setCheck_kept k0
    | with_reducible apply State.islandSettle_kept hm
    | with_reducible apply Kept.ite
    | with_reducible split
    | split

theorem State.crossCheck_kept {mm : Nat} {s0 s : State} (hm : Sub 0x4000000000000000000000880 mm) (h : Kept mm s0 s) : Kept mm s0 (State.crossCheck s) := by
  have k0 : Sub 0x0 mm := Sub.trans (by decide) hm
  have k1 : Sub 0x80 mm := Sub.trans (by decide) hm
  have k2 : Sub 0x800 mm := Sub.trans (by decide) hm
  unfold State.crossCheck
  repeat' first
    | (intro x; refine Kept.bind (s0 := s0) (m := mm) (x := x) ?_ ?_; subst x; rotate_left; clear_value x; intro _)
    | (intro y; clear_value y)
    | intro _
    | with_reducible assumption
    | with_reducible lift_lets -underBinder
    | with_reducible apply State.each_kept k0
    | with_reducible apply State.setPair_kept k1
    | with_reducible apply State.setCheck_kept k2
    | with_reducible refine State.wrF_kept ?_ ?_
    | exact Sub.bit (Sub.trans (by decide) hm)
    | with_reducible apply Kept.ite
    | with_reducible split
    | split

theorem State.islandFreq_kept {mm : Nat} {s0 s : State} {lowest : F32} (hm : Sub 0x4000000000000000000000800 mm) (h : Kept mm s0 s) : Kept mm s0 (State.islandFreq lowest s) := by
  have k0 : Sub 0x800 mm := Sub.trans (by decide) hm
  unfold State.islandFreq
  repeat' first
    | (intro x; refine Kept.bind (s0 := s0) (m := mm) (x := x) ?_ ?_; subst x; rotate_left; clear_value x; intro _)
    | (intro y; clear_value y)
    | intro _
    | with_reducible assumption
    | with_reducible lift_lets -underBinder
    | with_reducible refine State.wrF_kept ?_ ?_
    | exact Sub.bit (Sub.trans (by decide) hm)
    | with_reducible apply Kept.ite
    | with_reducible split
    | split
    | with_reducible apply Kept.upd_island k0

theorem State.syncCheck_kept {mm : Nat} {s0 s : State} (hm : Sub 0x5000000000000000000000000 mm) (h : Kept mm s0 s) : Kept mm s0 (State.syncCheck s) := by
  unfold State.syncCheck
  repeat' first
    | (intro x; refine Kept.bind (s0 := s0) (m := mm) (x := x) ?_ ?_; subst x; rotate_left; clear_value x; intro _)
    | (intro y; clear_value y)
    | intro _
    | with_reducible assumption
    | with_reducible lift_lets -underBinder
    | with_reducible refine State.setBit_kept ?_ ?_
    | with_reducible refine State.wrF_kept ?_ ?_
    | exact Sub.bit (Sub.trans (by decide) hm)
    | with_reducible apply Kept.ite
    | with_reducible split
    | split

theorem State.busConditions_kept {mm : Nat} {s0 s : State} {highest : F32} (hm : Sub 0x800 mm) (h : Kept mm s0 s) : Kept mm s0 (State.busConditions highest s) := by
  unfold State.busConditions
  repeat' first
    | (intro x; refine Kept.bind (s0 := s0) (m := mm) (x := x) ?_ ?_; subst x; rotate_left; clear_value x; intro _)
    | (intro y; clear_value y)
    | intro _
    | with_reducible assumption
    | with_reducible lift_lets -underBinder
    | with_reducible apply Kept.ite
    | with_reducible split
    | split
    | with_reducible apply Kept.upd_island hm

theorem State.rmsUpdate_kept {mm : Nat} {s0 s : State} (hm : Sub 0x7ffffffff00000040000000e880 mm) (h : Kept mm s0 s) : Kept mm s0 (State.rmsUpdate s) := by
  have k0 : Sub 0x4000000000000000000000800 mm := Sub.trans (by decide) hm
  have k1 : Sub 0x800 mm := Sub.trans (by decide) hm
  have k2 : Sub 0x5000000000000000000000000 mm := Sub.trans (by decide) hm
  have k3 : Sub 0x4000000000000000000000880 mm := Sub.trans (by decide) hm
  have k4 : Sub 0x0 mm := Sub.trans (by decide) hm
  have k5 : Sub 0x7f0000000000000000000000800 mm := Sub.trans (by decide) hm
  have k6 : Sub 0x7ffffffff00000040000000e800 mm := Sub.trans (by decide) hm
  unfold State.rmsUpdate
  repeat' first
    | (intro x; refine Kept.bind (s0 := s0) (m := mm) (x := x) ?_ ?_; subst x; rotate_left; clear_value x; intro _)
    | (intro y; clear_value y)
    | intro _
    | with_reducible assumption
    | with_reducible lift_lets -underBinder
    | with_reducible apply State.islandFreq_kept k0
    | with_reducible apply State.busConditions_kept k1
    | with_reducible apply State.syncCheck_kept k2
    | with_reducible apply State.crossCheck_kept k3
    | with_reducible apply State.meanTake_kept k1
    | with_reducible apply State.each_kept k4
    | with_reducible apply State.stageEval_kept k5
    | with_reducible apply State.islandSettle_kept k6
    | with_reducible refine State.wrF_kept ?_ ?_
    | exact Sub.bit (Sub.trans (by decide) hm)
    | with_reducible apply Kept.ite
    | with_reducible split
    | split
    | with_reducible apply Kept.upd_island k1

theorem State.deadToIsland_kept {mm : Nat} {s0 s : State} (hm : Sub 0x7ffffffff00000040000000e800 mm) (h : Kept mm s0 s) : Kept mm s0 (State.deadToIsland s) := by
  have k0 : Sub 0x800 mm := Sub.trans (by decide) hm
  unfold State.deadToIsland
  repeat' first
    | (intro x; refine Kept.bind (s0 := s0) (m := mm) (x := x) ?_ ?_; subst x; rotate_left; clear_value x; intro _)
    | (intro y; clear_value y)
    | intro _
    | with_reducible assumption
    | with_reducible lift_lets -underBinder
    | with_reducible apply State.islandSettle_kept hm
    | with_reducible apply Kept.ite
    | with_reducible split
    | split
    | with_reducible apply Kept.upd_island k0

theorem State.observationDone_kept {mm : Nat} {s0 s : State} (hm : Sub 0x7ffffffff00000040000000e800 mm) (h : Kept mm s0 s) : Kept mm s0 (State.observationDone s) := by
  have k0 : Sub 0x800 mm := Sub.trans (by decide) hm
  unfold State.observationDone
  repeat' first
    | (intro x; refine Kept.bind (s0 := s0) (m := mm) (x := x) ?_ ?_; subst x; rotate_left; clear_value x; intro _)
    | (intro y; clear_value y)
    | intro _
    | with_reducible assumption
    | with_reducible lift_lets -underBinder
    | with_reducible apply State.islandSettle_kept hm
    | with_reducible apply Kept.ite
    | with_reducible split
    | split
    | with_reducible apply Kept.upd_island k0

theorem State.readback_kept {mm : Nat} {s0 s : State} {n : Nat} {r : Readback} (hm : Sub 0x7e0000000000000000000000000 mm) (h : Kept mm s0 s) : Kept mm s0 (State.readback n r s) := by
  have kz : Sub (2 ^ 107 - 2 ^ (20 + zone 0x78200800)) mm := Sub.trans (by decide) hm
  unfold State.readback
  repeat' first
    | (intro x; refine Kept.bind (s0 := s0) (m := mm) (x := x) ?_ ?_; subst x; rotate_left; clear_value x; intro _)
    | (intro y; clear_value y)
    | intro _
    | with_reducible assumption
    | with_reducible lift_lets -underBinder
    | with_reducible refine State.wr_kept ?_ ?_
    | exact Sub.bit (Sub.trans (by decide) hm)
    | (refine Sub.from (b := 0x78200800) kz ?_; (try simp only [key, bk, ik]); omega)
    | with_reducible apply Kept.ite
    | with_reducible split
    | split

theorem State.circCycle_kept {mm : Nat} {s0 s : State} {n : Nat} {r : Readback} (hm : Sub 0x7ffffffff00000040000002e800 mm) (h : Kept mm s0 s) : Kept mm s0 (State.circCycle n r s) := by
  have k0 : Sub 0x7ffffffff00000040000000e800 mm := Sub.trans (by decide) hm
  have k1 : Sub 0x7e0000000000000400000000800 mm := Sub.trans (by decide) hm
  unfold State.circCycle
  repeat' first
    | (intro x; refine Kept.bind (s0 := s0) (m := mm) (x := x) ?_ ?_; subst x; rotate_left; clear_value x; intro _)
    | (intro y; clear_value y)
    | intro _
    | with_reducible assumption
    | with_reducible lift_lets -underBinder
    | with_reducible apply State.proofCycle_kept hm
    | with_reducible apply State.pulseCycle_kept k0
    | with_reducible apply State.takeRequest_kept k1
    | with_reducible apply Kept.ite
    | with_reducible split
    | split

theorem State.islandCycle_kept {mm : Nat} {s0 s : State} {rb : List Readback} (hm : Sub 0x7ffffffff00000040000002e800 mm) (h : Kept mm s0 s) : Kept mm s0 (State.islandCycle rb s) := by
  have k0 : Sub 0x0 mm := Sub.trans (by decide) hm
  have k1 : Sub 0x7e0000000000000000000000000 mm := Sub.trans (by decide) hm
  have k2 : Sub 0x5000000000000000000000000 mm := Sub.trans (by decide) hm
  have k3 : Sub 0x800 mm := Sub.trans (by decide) hm
  have k4 : Sub 0x7ffffffff00000040000000e800 mm := Sub.trans (by decide) hm
  unfold State.islandCycle
  repeat' first
    | (intro x; refine Kept.bind (s0 := s0) (m := mm) (x := x) ?_ ?_; subst x; rotate_left; clear_value x; intro _)
    | (intro y; clear_value y)
    | intro _
    | with_reducible assumption
    | with_reducible lift_lets -underBinder
    | with_reducible apply State.each_kept k0
    | with_reducible apply State.readback_kept k1
    | with_reducible apply State.syncCheck_kept k2
    | with_reducible apply State.judgeInvalid_kept k3
    | with_reducible apply State.islandSettle_kept k4
    | with_reducible apply State.circCycle_kept hm
    | with_reducible apply Kept.ite
    | with_reducible split
    | split
    | dsimp only [id_eq]

theorem State.safeStop_kept {mm : Nat} {s0 s : State} {k : Nat} {low : Bool} (hm : Sub 0x7ffffffff00000040000000e800 mm) (h : Kept mm s0 s) : Kept mm s0 (State.safeStop k low s) := by
  unfold State.safeStop
  repeat' first
    | (intro x; refine Kept.bind (s0 := s0) (m := mm) (x := x) ?_ ?_; subst x; rotate_left; clear_value x; intro _)
    | (intro y; clear_value y)
    | intro _
    | with_reducible assumption
    | with_reducible lift_lets -underBinder
    | with_reducible apply State.islandSettle_kept hm
    | with_reducible refine State.setBit_kept ?_ ?_
    | exact Sub.bit (Sub.trans (by decide) hm)
    | with_reducible apply Kept.ite
    | with_reducible split
    | split

theorem hostOpenEff_kept {mm : Nat} {s0 : State} {n : Nat} (hm : Sub 0x7ffffffff00000040000000e800 mm) : EffKept mm s0 (hostOpenEff n) := by
  have k0 : Sub 0x1000000000000000000000000 mm := Sub.trans (by decide) hm
  unfold hostOpenEff
  repeat' first
    | (intro x; refine Kept.bind (s0 := s0) (m := mm) (x := x) ?_ ?_; subst x; rotate_left; clear_value x; intro _)
    | (intro y; clear_value y)
    | intro _
    | with_reducible assumption
    | with_reducible lift_lets -underBinder
    | with_reducible apply State.demandsWith_kept hm
    | with_reducible apply State.islandStatus_kept k0
    | with_reducible apply Kept.ite
    | with_reducible apply EffKept.ite
    | with_reducible split
    | split
    | (refine ⟨fun s h => ?_⟩; dsimp -zeta only)
    | dsimp -zeta only

theorem hostCloseEff_kept {mm : Nat} {s0 : State} {n : Nat} (hm : Sub 0x7e1000000000000400000000800 mm) : EffKept mm s0 (hostCloseEff n) := by
  have k0 : Sub 0x800 mm := Sub.trans (by decide) hm
  have k1 : Sub 0x7e0000000000000400000000800 mm := Sub.trans (by decide) hm
  have k2 : Sub 0x1000000000000000000000000 mm := Sub.trans (by decide) hm
  unfold hostCloseEff
  repeat' first
    | (intro x; refine Kept.bind (s0 := s0) (m := mm) (x := x) ?_ ?_; subst x; rotate_left; clear_value x; intro _)
    | (intro y; clear_value y)
    | intro _
    | with_reducible assumption
    | with_reducible lift_lets -underBinder
    | with_reducible apply State.setCirc_kept k0
    | with_reducible apply State.takeRequest_kept k1
    | with_reducible apply State.islandStatus_kept k2
    | with_reducible apply Kept.ite
    | with_reducible apply EffKept.ite
    | with_reducible split
    | split
    | (refine ⟨fun s h => ?_⟩; dsimp -zeta only)
    | dsimp -zeta only

theorem State.startAck_kept {mm : Nat} {s0 s : State} {n : Nat} {host : Bool} (hm : Sub 0x800 mm) (h : Kept mm s0 s) : Kept mm s0 (State.startAck n host s) := by
  unfold State.startAck
  repeat' first
    | (intro x; refine Kept.bind (s0 := s0) (m := mm) (x := x) ?_ ?_; subst x; rotate_left; clear_value x; intro _)
    | (intro y; clear_value y)
    | intro _
    | with_reducible assumption
    | with_reducible lift_lets -underBinder
    | with_reducible apply State.switches_kept hm
    | with_reducible apply State.setCirc_kept hm
    | with_reducible apply Kept.ite
    | with_reducible split
    | split

theorem ackEff_kept {mm : Nat} {s0 : State} {n : Nat} (hm : Sub 0x800 mm) : EffKept mm s0 (ackEff n) := by
  have k0 : Sub 0x0 mm := Sub.trans (by decide) hm
  unfold ackEff
  repeat' first
    | (intro x; refine Kept.bind (s0 := s0) (m := mm) (x := x) ?_ ?_; subst x; rotate_left; clear_value x; intro _)
    | (intro y; clear_value y)
    | intro _
    | with_reducible assumption
    | with_reducible lift_lets -underBinder
    | with_reducible apply State.answer_kept k0
    | with_reducible apply State.startAck_kept hm
    | with_reducible apply Kept.ite
    | with_reducible apply EffKept.ite
    | with_reducible split
    | split
    | (refine ⟨fun s h => ?_⟩; dsimp -zeta only)
    | dsimp -zeta only

theorem State.feedbackClosed_kept {mm : Nat} {s0 s : State} {n : Nat} (hm : Sub 0x7ffffffff00000040000000e800 mm) (h : Kept mm s0 s) : Kept mm s0 (State.feedbackClosed n s) := by
  have k0 : Sub 0x7e0000000000000400000000800 mm := Sub.trans (by decide) hm
  unfold State.feedbackClosed
  repeat' first
    | (intro x; refine Kept.bind (s0 := s0) (m := mm) (x := x) ?_ ?_; subst x; rotate_left; clear_value x; intro _)
    | (intro y; clear_value y)
    | intro _
    | with_reducible assumption
    | with_reducible lift_lets -underBinder
    | with_reducible apply State.circClosed_kept k0
    | with_reducible apply State.islandSettle_kept hm
    | with_reducible apply Kept.ite
    | with_reducible split
    | split

theorem State.closingTimeUp_kept {mm : Nat} {s0 s : State} {n : Nat} (hm : Sub 0x7ffffffff00000040000000e800 mm) (h : Kept mm s0 s) : Kept mm s0 (State.closingTimeUp n s) := by
  have k0 : Sub 0x7e0000000000000400000000800 mm := Sub.trans (by decide) hm
  unfold State.closingTimeUp
  repeat' first
    | (intro x; refine Kept.bind (s0 := s0) (m := mm) (x := x) ?_ ?_; subst x; rotate_left; clear_value x; intro _)
    | (intro y; clear_value y)
    | intro _
    | with_reducible assumption
    | with_reducible lift_lets -underBinder
    | with_reducible apply State.circFault_kept hm
    | with_reducible apply State.islandSettle_kept hm
    | with_reducible apply State.circClosed_kept k0
    | with_reducible apply Kept.ite
    | with_reducible split
    | split

theorem State.coilOver_kept {mm : Nat} {s0 s : State} {n ma : Nat} (hm : Sub 0x7ffffffff00000040000000e800 mm) (h : Kept mm s0 s) : Kept mm s0 (State.coilOver n ma s) := by
  have kz : Sub (2 ^ 107 - 2 ^ (20 + zone 0x78200900)) mm := Sub.trans (by decide) hm
  unfold State.coilOver
  repeat' first
    | (intro x; refine Kept.bind (s0 := s0) (m := mm) (x := x) ?_ ?_; subst x; rotate_left; clear_value x; intro _)
    | (intro y; clear_value y)
    | intro _
    | with_reducible assumption
    | with_reducible lift_lets -underBinder
    | with_reducible apply State.circFault_kept hm
    | with_reducible apply State.islandSettle_kept hm
    | with_reducible refine State.wr_kept ?_ ?_
    | exact Sub.bit (Sub.trans (by decide) hm)
    | (refine Sub.from (b := 0x78200900) kz ?_; (try simp only [key, bk, ik]); omega)
    | with_reducible apply Kept.ite
    | with_reducible split
    | split

theorem State.mismatch_kept {mm : Nat} {s0 s : State} {n : Nat} {v : NodeVolts} (hm : Sub 0x7ffffffff00000040000000e800 mm) (h : Kept mm s0 s) : Kept mm s0 (State.mismatch n v s) := by
  unfold State.mismatch
  repeat' first
    | (intro x; refine Kept.bind (s0 := s0) (m := mm) (x := x) ?_ ?_; subst x; rotate_left; clear_value x; intro _)
    | (intro y; clear_value y)
    | intro _
    | with_reducible assumption
    | with_reducible lift_lets -underBinder
    | with_reducible apply State.circFault_kept hm
    | with_reducible apply State.islandSettle_kept hm
    | with_reducible apply Kept.ite
    | with_reducible split
    | split

theorem State.darkPulse_kept {mm : Nat} {s0 s : State} {n : Nat} {low : Bool} (hm : Sub 0x800 mm) (h : Kept mm s0 s) : Kept mm s0 (State.darkPulse n low s) := by
  unfold State.darkPulse
  repeat' first
    | (intro x; refine Kept.bind (s0 := s0) (m := mm) (x := x) ?_ ?_; subst x; rotate_left; clear_value x; intro _)
    | (intro y; clear_value y)
    | intro _
    | with_reducible assumption
    | with_reducible lift_lets -underBinder
    | with_reducible apply State.startPulse_kept hm
    | with_reducible apply Kept.ite
    | with_reducible split
    | split

theorem State.brightPulse_kept {mm : Nat} {s0 s : State} {n : Nat} {low : Bool} (hm : Sub 0x800 mm) (h : Kept mm s0 s) : Kept mm s0 (State.brightPulse n low s) := by
  unfold State.brightPulse
  repeat' first
    | (intro x; refine Kept.bind (s0 := s0) (m := mm) (x := x) ?_ ?_; subst x; rotate_left; clear_value x; intro _)
    | (intro y; clear_value y)
    | intro _
    | with_reducible assumption
    | with_reducible lift_lets -underBinder
    | with_reducible apply State.startPulse_kept hm
    | with_reducible apply Kept.ite
    | with_reducible split
    | split

theorem State.pulseRetry_kept {mm : Nat} {s0 s : State} {n : Nat} {low : Bool} (hm : Sub 0x800 mm) (h : Kept mm s0 s) : Kept mm s0 (State.pulseRetry n low s) := by
  unfold State.pulseRetry
  repeat' first
    | (intro x; refine Kept.bind (s0 := s0) (m := mm) (x := x) ?_ ?_; subst x; rotate_left; clear_value x; intro _)
    | (intro y; clear_value y)
    | intro _
    | with_reducible assumption
    | with_reducible lift_lets -underBinder
    | with_reducible apply State.setCirc_kept hm
    | with_reducible apply State.startPulse_kept hm
    | with_reducible apply Kept.ite
    | with_reducible split
    | split

theorem islandLockEff_kept {mm : Nat} {s0 : State} {area : Nat} (hm : Sub 0x7ffffffff00000240000000e800 mm) : EffKept mm s0 (islandLockEff area) := by
  have k0 : Sub 0x7fffd000000000000000000e000 mm := Sub.trans (by decide) hm
  have k1 : Sub 0x1000000000000000000000800 mm := Sub.trans (by decide) hm
  have k2 : Sub 0x7ffffffff00000040000000e800 mm := Sub.trans (by decide) hm
  unfold islandLockEff
  repeat' first
    | (intro x; refine Kept.bind (s0 := s0) (m := mm) (x := x) ?_ ?_; subst x; rotate_left; clear_value x; intro _)
    | (intro y; clear_value y)
    | intro _
    | with_reducible assumption
    | with_reducible lift_lets -underBinder
    | with_reducible apply State.logEvent_kept k0
    | with_reducible apply State.islandRunIfLocked_kept k1
    | with_reducible apply State.islandSettle_kept k2
    | with_reducible refine State.setBit_kept ?_ ?_
    | exact Sub.bit (Sub.trans (by decide) hm)
    | with_reducible apply Kept.ite
    | with_reducible apply EffKept.ite
    | with_reducible split
    | split
    | (refine ⟨fun s h => ?_⟩; dsimp -zeta only)
    | dsimp -zeta only

theorem State.newMean_kept {mm : Nat} {s0 s : State} {i : Nat} (hm : Sub 0x800 mm) (h : Kept mm s0 s) : Kept mm s0 (State.newMean i s) := by
  unfold State.newMean
  repeat' first
    | (intro x; refine Kept.bind (s0 := s0) (m := mm) (x := x) ?_ ?_; subst x; rotate_left; clear_value x; intro _)
    | (intro y; clear_value y)
    | intro _
    | with_reducible assumption
    | with_reducible lift_lets -underBinder
    | with_reducible apply State.setStage_kept hm
    | with_reducible apply Kept.ite
    | with_reducible split
    | split

theorem islandSettingEff_kept {mm : Nat} {s0 : State} {index sub : Nat} {v : Int} (hm : Sub 0x7fffffffffffffffffffff0e800 mm) : EffKept mm s0 (islandSettingEff index sub v) := by
  have k0 : Sub 0x800 mm := Sub.trans (by decide) hm
  have k1 : Sub 0x7ffffffff00000040000000e800 mm := Sub.trans (by decide) hm
  have kz : Sub (2 ^ 107 - 2 ^ (20 + zone 0x0)) mm := Sub.trans (by decide) hm
  unfold islandSettingEff
  repeat' first
    | (intro x; refine Kept.bind (s0 := s0) (m := mm) (x := x) ?_ ?_; subst x; rotate_left; clear_value x; intro _)
    | (intro y; clear_value y)
    | intro _
    | with_reducible assumption
    | with_reducible lift_lets -underBinder
    | with_reducible apply State.newMean_kept k0
    | with_reducible apply State.islandSettle_kept k1
    | with_reducible refine State.wr_kept ?_ ?_
    | exact Sub.bit (Sub.trans (by decide) hm)
    | exact Sub.from (b := 0) kz (Nat.zero_le _)
    | with_reducible apply Kept.ite
    | with_reducible apply EffKept.ite
    | with_reducible split
    | split
    | (refine ⟨fun s h => ?_⟩; dsimp -zeta only)
    | dsimp -zeta only

theorem State.teleDiscard_kept {mm : Nat} {s0 s : State} {k : Nat} (hm : Sub 0x700000000000000000000000000 mm) (h : Kept mm s0 s) : Kept mm s0 (State.teleDiscard k s) := by
  have kz : Sub (2 ^ 107 - 2 ^ (20 + zone 0x78400800)) mm := Sub.trans (by decide) hm
  unfold State.teleDiscard
  repeat' first
    | (intro x; refine Kept.bind (s0 := s0) (m := mm) (x := x) ?_ ?_; subst x; rotate_left; clear_value x; intro _)
    | (intro y; clear_value y)
    | intro _
    | with_reducible assumption
    | with_reducible lift_lets -underBinder
    | with_reducible refine State.inc_kept ?_ ?_
    | exact Sub.bit (Sub.trans (by decide) hm)
    | (refine Sub.from (b := 0x78400800) kz ?_; (try simp only [key, bk]); omega)
    | with_reducible apply Kept.ite
    | with_reducible split
    | split

theorem State.teleAccept_kept {mm : Nat} {s0 s : State} {l : List Byte} (hm : Sub 0x7ffffffff00000040000000e800 mm) (h : Kept mm s0 s) : Kept mm s0 (State.teleAccept l s) := by
  have k0 : Sub 0x7fffd000000000000000000e000 mm := Sub.trans (by decide) hm
  have k1 : Sub 0x0 mm := Sub.trans (by decide) hm
  have k2 : Sub 0x800 mm := Sub.trans (by decide) hm
  unfold State.teleAccept
  repeat' first
    | (intro x; refine Kept.bind (s0 := s0) (m := mm) (x := x) ?_ ?_; subst x; rotate_left; clear_value x; intro _)
    | (intro y; clear_value y)
    | intro _
    | with_reducible assumption
    | with_reducible lift_lets -underBinder
    | with_reducible apply State.frameSource_kept k0
    | with_reducible apply State.each_kept k1
    | with_reducible apply State.startAck_kept k2
    | with_reducible apply State.islandSettle_kept hm
    | with_reducible refine State.inc_kept ?_ ?_
    | with_reducible refine State.setBit_kept ?_ ?_
    | with_reducible refine State.wr_kept ?_ ?_
    | exact Sub.bit (Sub.trans (by decide) hm)
    | with_reducible apply Kept.ite
    | with_reducible split
    | split
    | with_reducible apply Kept.upd_island k2

theorem State.telePair_kept {mm : Nat} {s0 s : State} {a b : List Byte} (hm : Sub 0x7ffffffff00000040000000e800 mm) (h : Kept mm s0 s) : Kept mm s0 (State.telePair a b s) := by
  have k0 : Sub 0x700000000000000000000000000 mm := Sub.trans (by decide) hm
  unfold State.telePair
  repeat' first
    | (intro x; refine Kept.bind (s0 := s0) (m := mm) (x := x) ?_ ?_; subst x; rotate_left; clear_value x; intro _)
    | (intro y; clear_value y)
    | intro _
    | with_reducible assumption
    | with_reducible lift_lets -underBinder
    | with_reducible apply State.teleDiscard_kept k0
    | with_reducible apply State.teleAccept_kept hm
    | with_reducible apply Kept.ite
    | with_reducible split
    | split

theorem State.telegram_kept {mm : Nat} {s0 s : State} {portB : Bool} {l : List Byte} (hm : Sub 0x7ffffffff00000040000000e800 mm) (h : Kept mm s0 s) : Kept mm s0 (State.telegram portB l s) := by
  have k0 : Sub 0x800 mm := Sub.trans (by decide) hm
  unfold State.telegram
  repeat' first
    | (intro x; refine Kept.bind (s0 := s0) (m := mm) (x := x) ?_ ?_; subst x; rotate_left; clear_value x; intro _)
    | (intro y; have w_ : Nat := y; clear w_; subst y)
    | (intro y; clear_value y)
    | intro _
    | with_reducible assumption
    | with_reducible lift_lets -underBinder
    | with_reducible apply State.telePair_kept hm
    | with_reducible refine State.setBit_kept ?_ ?_
    | with_reducible refine State.wr_kept ?_ ?_
    | exact Sub.bit (Sub.trans (by decide) hm)
    | with_reducible apply Kept.ite
    | with_reducible split
    | split
    | with_reducible apply Kept.upd_island k0

theorem State.noPartner_kept {mm : Nat} {s0 s : State} (hm : Sub 0x700000000000000000000000800 mm) (h : Kept mm s0 s) : Kept mm s0 (State.noPartner s) := by
  have k0 : Sub 0x0 mm := Sub.trans (by decide) hm
  have k1 : Sub 0x700000000000000000000000000 mm := Sub.trans (by decide) hm
  have k2 : Sub 0x800 mm := Sub.trans (by decide) hm
  unfold State.noPartner
  repeat' first
    | (intro x; refine Kept.bind (s0 := s0) (m := mm) (x := x) ?_ ?_; subst x; rotate_left; clear_value x; intro _)
    | (intro y; clear_value y)
    | intro _
    | with_reducible assumption
    | with_reducible lift_lets -underBinder
    | with_reducible apply State.each_kept k0
    | with_reducible apply State.teleDiscard_kept k1
    | with_reducible apply Kept.ite
    | with_reducible split
    | split
    | with_reducible apply Kept.upd_island k2

theorem State.teleWatchdog_kept {mm : Nat} {s0 s : State} (hm : Sub 0x7ffffffff00000040000000e800 mm) (h : Kept mm s0 s) : Kept mm s0 (State.teleWatchdog s) := by
  unfold State.teleWatchdog
  repeat' first
    | (intro x; refine Kept.bind (s0 := s0) (m := mm) (x := x) ?_ ?_; subst x; rotate_left; clear_value x; intro _)
    | (intro y; clear_value y)
    | intro _
    | with_reducible assumption
    | with_reducible lift_lets -underBinder
    | with_reducible apply State.islandSettle_kept hm
    | with_reducible refine State.inc_kept ?_ ?_
    | with_reducible refine State.wr_kept ?_ ?_
    | exact Sub.bit (Sub.trans (by decide) hm)
    | with_reducible apply Kept.ite
    | with_reducible split
    | split

theorem State.statusTelegram_kept {mm : Nat} {s0 s : State} (hm : Sub 0x7fffd000000000000000000e800 mm) (h : Kept mm s0 s) : Kept mm s0 (State.statusTelegram s) := by
  have k0 : Sub 0x0 mm := Sub.trans (by decide) hm
  have k1 : Sub 0x7fffd000000000000000000e000 mm := Sub.trans (by decide) hm
  have k2 : Sub 0x800 mm := Sub.trans (by decide) hm
  unfold State.statusTelegram
  repeat' first
    | (intro x; refine Kept.bind (s0 := s0) (m := mm) (x := x) ?_ ?_; subst x; rotate_left; clear_value x; intro _)
    | (intro y; clear_value y)
    | intro _
    | with_reducible assumption
    | with_reducible lift_lets -underBinder
    | with_reducible apply State.msg_kept k0
    | with_reducible apply State.frameSource_kept k1
    | with_reducible apply Kept.ite
    | with_reducible split
    | split
    | with_reducible apply Kept.upd_island k2

end Sys2Proof.Machine
end

