-- ==== Sys2Proof/Laws/KeptRack.lean ====
section
/-! SUPPORT. What the operations of Machine/Rack.lean may change (Safety.lean, Kept): one lemma for each. -/

set_option linter.all false

namespace Sys2Proof.Machine

theorem State.standalone_kept {mm : Nat} {s0 s : State} (hm : Sub 0x80000000000 mm) (h : Kept mm s0 s) : Kept mm s0 (State.standalone s) := by
  unfold State.standalone
  repeat' first
    | (intro x; refine Kept.bind (s0 := s0) (m := mm) (x := x) ?_ ?_; subst x; rotate_left; clear_value x; intro _)
    | (intro y; clear_value y)
    | intro _
    | with_reducible assumption
    | with_reducible lift_lets -underBinder
    | with_reducible refine State.wr_kept ?_ ?_
    | exact Sub.bit (Sub.trans (by decide) hm)
    | with_reducible apply Kept.ite
    | with_reducible split
    | split

theorem State.syncTwin_kept {mm : Nat} {s0 s : State} (hm : Sub 0x400000000000 mm) (h : Kept mm s0 s) : Kept mm s0 (State.syncTwin s) := by
  unfold State.syncTwin
  repeat' first
    | (intro x; refine Kept.bind (s0 := s0) (m := mm) (x := x) ?_ ?_; subst x; rotate_left; clear_value x; intro _)
    | (intro y; clear_value y)
    | intro _
    | with_reducible assumption
    | with_reducible lift_lets -underBinder
    | with_reducible refine State.wr_kept ?_ ?_
    | exact Sub.bit (Sub.trans (by decide) hm)
    | with_reducible apply Kept.ite
    | with_reducible split
    | split

theorem State.noteSlot_kept {mm : Nat} {s0 s : State} {p i role : Nat} (hm : Sub 0x7ffffffffffffff000000000000 mm) (h : Kept mm s0 s) : Kept mm s0 (State.noteSlot p i role s) := by
  have kz : Sub (2 ^ 107 - 2 ^ (20 + zone 0x25200100)) mm := Sub.trans (by decide) hm
  unfold State.noteSlot
  repeat' first
    | (intro x; refine Kept.bind (s0 := s0) (m := mm) (x := x) ?_ ?_; subst x; rotate_left; clear_value x; intro _)
    | (intro y; clear_value y)
    | intro _
    | with_reducible assumption
    | with_reducible lift_lets -underBinder
    | with_reducible refine State.wr_kept ?_ ?_
    | exact Sub.bit (Sub.trans (by decide) hm)
    | (refine Sub.from (b := 0x25200100) kz ?_; (try simp only [key, bk, abk]); omega)
    | with_reducible apply Kept.ite
    | with_reducible split
    | split

theorem State.failOver_kept {mm : Nat} {s0 s : State} {p act cause : Nat} (hm : Sub 0x7ffffffffffffff00000000e000 mm) (h : Kept mm s0 s) : Kept mm s0 (State.failOver p act cause s) := by
  have k0 : Sub 0x8000 mm := Sub.trans (by decide) hm
  have k1 : Sub 0x7fffd000000000000000000e000 mm := Sub.trans (by decide) hm
  have k2 : Sub 0x0 mm := Sub.trans (by decide) hm
  have kz : Sub (2 ^ 107 - 2 ^ (20 + zone 0x25200200)) mm := Sub.trans (by decide) hm
  unfold State.failOver
  repeat' first
    | (intro x; refine Kept.bind (s0 := s0) (m := mm) (x := x) ?_ ?_; subst x; rotate_left; clear_value x; intro _)
    | (intro y; clear_value y)
    | intro _
    | with_reducible assumption
    | with_reducible lift_lets -underBinder
    | with_reducible apply State.rackMsg_kept k0
    | with_reducible apply State.logEvent_kept k1
    | with_reducible apply State.msg_kept k2
    | with_reducible refine State.inc_kept ?_ ?_
    | with_reducible refine State.wr_kept ?_ ?_
    | exact Sub.bit (Sub.trans (by decide) hm)
    | (refine Sub.from (b := 0x25200200) kz ?_; (try simp only [key, bk, abk]); omega)
    | with_reducible apply Kept.ite
    | with_reducible split
    | split

theorem State.firstGrant_kept {mm : Nat} {s0 s : State} {p : Nat} (hm : Sub 0x7ffffffffffffff000000008000 mm) (h : Kept mm s0 s) : Kept mm s0 (State.firstGrant p s) := by
  have k0 : Sub 0x0 mm := Sub.trans (by decide) hm
  have k1 : Sub 0x8000 mm := Sub.trans (by decide) hm
  have kz : Sub (2 ^ 107 - 2 ^ (20 + zone 0x25200200)) mm := Sub.trans (by decide) hm
  unfold State.firstGrant
  repeat' first
    | (intro x; refine Kept.bind (s0 := s0) (m := mm) (x := x) ?_ ?_; subst x; rotate_left; clear_value x; intro _)
    | (intro y; clear_value y)
    | intro _
    | with_reducible assumption
    | with_reducible lift_lets -underBinder
    | with_reducible apply State.msg_kept k0
    | with_reducible apply State.rackMsg_kept k1
    | with_reducible refine State.wr_kept ?_ ?_
    | exact Sub.bit (Sub.trans (by decide) hm)
    | (refine Sub.from (b := 0x25200200) kz ?_; (try simp only [key, bk, abk]); omega)
    | with_reducible apply Kept.ite
    | with_reducible split
    | split

theorem State.partnerBeat_kept {mm : Nat} {s0 s : State} {m : HeartbeatMsg} (hm : Sub 0x400000008000 mm) (h : Kept mm s0 s) : Kept mm s0 (State.partnerBeat m s) := by
  have k0 : Sub 0x0 mm := Sub.trans (by decide) hm
  have k1 : Sub 0x8000 mm := Sub.trans (by decide) hm
  have k2 : Sub 0x400000000000 mm := Sub.trans (by decide) hm
  unfold State.partnerBeat
  repeat' first
    | (intro x; refine Kept.bind (s0 := s0) (m := mm) (x := x) ?_ ?_; subst x; rotate_left; clear_value x; intro _)
    | (intro y; clear_value y)
    | intro _
    | with_reducible assumption
    | with_reducible lift_lets -underBinder
    | with_reducible apply State.each_kept k0
    | with_reducible apply State.modRack_kept k1
    | with_reducible apply State.syncTwin_kept k2
    | with_reducible refine State.wr_kept ?_ ?_
    | exact Sub.bit (Sub.trans (by decide) hm)
    | with_reducible apply Kept.ite
    | with_reducible split
    | split

theorem State.arbiterBeat_kept {mm : Nat} {s0 s : State} {i : Nat} {m : HeartbeatMsg} {wasOk : Bool} (hm : Sub 0x7ffffffffffffff00000000e000 mm) (h : Kept mm s0 s) : Kept mm s0 (State.arbiterBeat i m wasOk s) := by
  have k0 : Sub 0x7ffffffffffffff000000000000 mm := Sub.trans (by decide) hm
  have k1 : Sub 0x7ffffffffffffff000000008000 mm := Sub.trans (by decide) hm
  have kz : Sub (2 ^ 107 - 2 ^ (20 + zone 0x25200200)) mm := Sub.trans (by decide) hm
  unfold State.arbiterBeat
  repeat' first
    | (intro x; refine Kept.bind (s0 := s0) (m := mm) (x := x) ?_ ?_; subst x; rotate_left; clear_value x; intro _)
    | (intro y; clear_value y)
    | intro _
    | with_reducible assumption
    | with_reducible lift_lets -underBinder
    | with_reducible apply State.noteSlot_kept k0
    | with_reducible apply State.failOver_kept hm
    | with_reducible apply State.firstGrant_kept k1
    | with_reducible refine State.wr_kept ?_ ?_
    | exact Sub.bit (Sub.trans (by decide) hm)
    | (refine Sub.from (b := 0x25200200) kz ?_; (try simp only [key, bk, abk]); omega)
    | with_reducible apply Kept.ite
    | with_reducible split
    | split

theorem State.putBeat_kept {mm : Nat} {s0 s : State} {i : Nat} {m : HeartbeatMsg} (hm : Sub 0x8000 mm) (h : Kept mm s0 s) : Kept mm s0 (State.putBeat i m s) := by
  unfold State.putBeat
  repeat' first
    | (intro x; refine Kept.bind (s0 := s0) (m := mm) (x := x) ?_ ?_; subst x; rotate_left; clear_value x; intro _)
    | (intro y; clear_value y)
    | intro _
    | with_reducible assumption
    | with_reducible lift_lets -underBinder
    | with_reducible apply State.modRack_kept hm
    | with_reducible apply Kept.ite
    | with_reducible split
    | split

theorem State.heartbeat_kept {mm : Nat} {s0 s : State} {i : Nat} {m : HeartbeatMsg} (hm : Sub 0x7ffffffffffffff48000000e000 mm) (h : Kept mm s0 s) : Kept mm s0 (State.heartbeat i m s) := by
  have k0 : Sub 0x80000008000 mm := Sub.trans (by decide) hm
  have k1 : Sub 0x8000 mm := Sub.trans (by decide) hm
  have k2 : Sub 0x0 mm := Sub.trans (by decide) hm
  have k3 : Sub 0x400000008000 mm := Sub.trans (by decide) hm
  have k4 : Sub 0x7ffffffffffffff00000000e000 mm := Sub.trans (by decide) hm
  unfold State.heartbeat
  repeat' first
    | (intro x; refine Kept.bind (s0 := s0) (m := mm) (x := x) ?_ ?_; subst x; rotate_left; clear_value x; intro _)
    | (intro y; clear_value y)
    | intro _
    | with_reducible assumption
    | with_reducible lift_lets -underBinder
    | with_reducible apply State.hear_kept k0
    | with_reducible apply State.modRack_kept k1
    | with_reducible apply State.msg_kept k2
    | with_reducible apply State.putBeat_kept k1
    | with_reducible apply State.partnerBeat_kept k3
    | with_reducible apply State.arbiterBeat_kept k4
    | with_reducible refine State.inc_kept ?_ ?_
    | with_reducible refine State.setBit_kept ?_ ?_
    | exact Sub.bit (Sub.trans (by decide) hm)
    | with_reducible apply Kept.ite
    | with_reducible split
    | split

theorem State.heartbeatSend_kept {mm : Nat} {s0 s : State} (hm : Sub 0x400000008000 mm) (h : Kept mm s0 s) : Kept mm s0 (State.heartbeatSend s) := by
  have k0 : Sub 0x400000000000 mm := Sub.trans (by decide) hm
  have k1 : Sub 0x8000 mm := Sub.trans (by decide) hm
  unfold State.heartbeatSend
  repeat' first
    | (intro x; refine Kept.bind (s0 := s0) (m := mm) (x := x) ?_ ?_; subst x; rotate_left; clear_value x; intro _)
    | (intro y; clear_value y)
    | intro _
    | with_reducible assumption
    | with_reducible lift_lets -underBinder
    | with_reducible apply State.syncTwin_kept k0
    | with_reducible apply State.rackMsg_kept k1
    | with_reducible apply Kept.ite
    | with_reducible split
    | split

theorem State.expectPartner_kept {mm : Nat} {s0 s : State} {i : Nat} (hm : Sub 0x8000 mm) (h : Kept mm s0 s) : Kept mm s0 (State.expectPartner i s) := by
  unfold State.expectPartner
  repeat' first
    | (intro x; refine Kept.bind (s0 := s0) (m := mm) (x := x) ?_ ?_; subst x; rotate_left; clear_value x; intro _)
    | (intro y; clear_value y)
    | intro _
    | with_reducible assumption
    | with_reducible lift_lets -underBinder
    | with_reducible apply State.modRack_kept hm
    | with_reducible apply Kept.ite
    | with_reducible split
    | split

theorem State.heartbeatMissed_kept {mm : Nat} {s0 s : State} {i : Nat} (hm : Sub 0x7ffffffffffffff48000000e000 mm) (h : Kept mm s0 s) : Kept mm s0 (State.heartbeatMissed i s) := by
  have k0 : Sub 0x8000 mm := Sub.trans (by decide) hm
  have k1 : Sub 0x400000000000 mm := Sub.trans (by decide) hm
  have k2 : Sub 0x0 mm := Sub.trans (by decide) hm
  have k3 : Sub 0x7ffffffffffffff00000000e000 mm := Sub.trans (by decide) hm
  have kz : Sub (2 ^ 107 - 2 ^ (20 + zone 0x25200400)) mm := Sub.trans (by decide) hm
  unfold State.heartbeatMissed
  repeat' first
    | (intro x; refine Kept.bind (s0 := s0) (m := mm) (x := x) ?_ ?_; subst x; rotate_left; clear_value x; intro _)
    | (intro y; have w_ : Nat := y; clear w_; subst y)
    | (intro y; clear_value y)
    | intro _
    | with_reducible assumption
    | with_reducible lift_lets -underBinder
    | with_reducible apply State.expectPartner_kept k0
    | with_reducible apply State.modRack_kept k0
    | with_reducible apply State.syncTwin_kept k1
    | with_reducible apply State.msg_kept k2
    | with_reducible apply State.failOver_kept k3
    | with_reducible refine State.inc_kept ?_ ?_
    | with_reducible refine State.setBit_kept ?_ ?_
    | exact Sub.bit (Sub.trans (by decide) hm)
    | (refine Sub.from (b := 0x25200400) kz ?_; (try simp only [key, bk, abk, rkk]); omega)
    | (refine Sub.from (b := 0x25200400) kz ?_; (try simp only [key, bk, abk, rkk]); split <;> omega)
    | with_reducible apply Kept.ite
    | with_reducible split
    | split

theorem State.handoverRequest_kept {mm : Nat} {s0 s : State} {i p cause : Nat} (hm : Sub 0x7ffffffffffffff08000000e000 mm) (h : Kept mm s0 s) : Kept mm s0 (State.handoverRequest i p cause s) := by
  have k0 : Sub 0x80000008000 mm := Sub.trans (by decide) hm
  have k1 : Sub 0x8000 mm := Sub.trans (by decide) hm
  have k2 : Sub 0x7fffd000000000000000000e000 mm := Sub.trans (by decide) hm
  have kz : Sub (2 ^ 107 - 2 ^ (20 + zone 0x25200200)) mm := Sub.trans (by decide) hm
  unfold State.handoverRequest
  repeat' first
    | (intro x; refine Kept.bind (s0 := s0) (m := mm) (x := x) ?_ ?_; subst x; rotate_left; clear_value x; intro _)
    | (intro y; clear_value y)
    | intro _
    | with_reducible assumption
    | with_reducible lift_lets -underBinder
    | with_reducible apply State.hear_kept k0
    | with_reducible apply State.modRack_kept k1
    | with_reducible apply State.rackMsg_kept k1
    | with_reducible apply State.logEvent_kept k2
    | with_reducible refine State.wr_kept ?_ ?_
    | exact Sub.bit (Sub.trans (by decide) hm)
    | (refine Sub.from (b := 0x25200200) kz ?_; (try simp only [key, bk, abk]); omega)
    | with_reducible apply Kept.ite
    | with_reducible split
    | split

theorem State.takeAuthority_kept {mm : Nat} {s0 s : State} {e : Nat} {turn : Option Time} (hm : Sub 0x7fffffffffff00040000306e364 mm) (h : Kept mm s0 s) : Kept mm s0 (State.takeAuthority e turn s) := by
  have k0 : Sub 0x8000 mm := Sub.trans (by decide) hm
  have k1 : Sub 0x0 mm := Sub.trans (by decide) hm
  have k2 : Sub 0x7fffffffffff00000000306e164 mm := Sub.trans (by decide) hm
  have k3 : Sub 0x400000000000 mm := Sub.trans (by decide) hm
  have k4 : Sub 0x200 mm := Sub.trans (by decide) hm
  have kz : Sub (2 ^ 107 - 2 ^ (20 + zone 0x37001000)) mm := Sub.trans (by decide) hm
  unfold State.takeAuthority
  repeat' first
    | (intro x; refine Kept.bind (s0 := s0) (m := mm) (x := x) ?_ ?_; subst x; rotate_left; clear_value x; intro _)
    | (intro y; clear_value y)
    | intro _
    | with_reducible assumption
    | with_reducible lift_lets -underBinder
    | with_reducible apply State.modRack_kept k0
    | with_reducible apply State.each_kept k1
    | with_reducible apply State.setMod_kept k2
    | with_reducible apply State.syncTwin_kept k3
    | with_reducible refine State.inc_kept ?_ ?_
    | with_reducible refine State.setBit_kept ?_ ?_
    | with_reducible refine State.wr_kept ?_ ?_
    | exact Sub.bit (Sub.trans (by decide) hm)
    | (refine Sub.from (b := 0x37001000) kz ?_; (try simp only [key, bk, lk, twk]); omega)
    | with_reducible apply Kept.ite
    | with_reducible split
    | split
    | with_reducible apply Kept.upd_links k4

theorem State.takeGrant_kept {mm : Nat} {s0 s : State} {e first : Nat} (hm : Sub 0x80000008000 mm) (h : Kept mm s0 s) : Kept mm s0 (State.takeGrant e first s) := by
  have k0 : Sub 0x8000 mm := Sub.trans (by decide) hm
  unfold State.takeGrant
  repeat' first
    | (intro x; refine Kept.bind (s0 := s0) (m := mm) (x := x) ?_ ?_; subst x; rotate_left; clear_value x; intro _)
    | (intro y; clear_value y)
    | intro _
    | with_reducible assumption
    | with_reducible lift_lets -underBinder
    | with_reducible apply State.hear_kept hm
    | with_reducible apply State.modRack_kept k0
    | with_reducible apply Kept.ite
    | with_reducible split
    | split

theorem State.takeRevoke_kept {mm : Nat} {s0 s : State} {e last : Nat} (hm : Sub 0x7fffffffffff00048000307e164 mm) (h : Kept mm s0 s) : Kept mm s0 (State.takeRevoke e last s) := by
  have k0 : Sub 0x80000008000 mm := Sub.trans (by decide) hm
  have k1 : Sub 0x7fffffffffff00040000307e164 mm := Sub.trans (by decide) hm
  have k2 : Sub 0x400000000000 mm := Sub.trans (by decide) hm
  have k3 : Sub 0x8000 mm := Sub.trans (by decide) hm
  unfold State.takeRevoke
  repeat' first
    | (intro x; refine Kept.bind (s0 := s0) (m := mm) (x := x) ?_ ?_; subst x; rotate_left; clear_value x; intro _)
    | (intro y; clear_value y)
    | intro _
    | with_reducible assumption
    | with_reducible lift_lets -underBinder
    | with_reducible apply State.hear_kept k0
    | with_reducible apply State.dropAuthority_kept k1
    | with_reducible apply State.syncTwin_kept k2
    | with_reducible apply State.modRack_kept k3
    | with_reducible apply Kept.ite
    | with_reducible split
    | split

theorem State.authorityAt_kept {mm : Nat} {s0 s : State} (hm : Sub 0x7fffffffffff00040000307e364 mm) (h : Kept mm s0 s) : Kept mm s0 (State.authorityAt s) := by
  have k0 : Sub 0x8000 mm := Sub.trans (by decide) hm
  have k1 : Sub 0x7fffffffffff00040000307e164 mm := Sub.trans (by decide) hm
  have k2 : Sub 0x400000000000 mm := Sub.trans (by decide) hm
  have k3 : Sub 0x7fffffffffff00040000306e364 mm := Sub.trans (by decide) hm
  unfold State.authorityAt
  repeat' first
    | (intro x; refine Kept.bind (s0 := s0) (m := mm) (x := x) ?_ ?_; subst x; rotate_left; clear_value x; intro _)
    | (intro y; clear_value y)
    | intro _
    | with_reducible assumption
    | with_reducible lift_lets -underBinder
    | with_reducible apply State.modRack_kept k0
    | with_reducible apply State.dropAuthority_kept k1
    | with_reducible apply State.syncTwin_kept k2
    | with_reducible apply State.takeAuthority_kept k3
    | with_reducible apply Kept.ite
    | with_reducible split
    | split

theorem State.askHandover_kept {mm : Nat} {s0 s : State} {cause : Nat} (hm : Sub 0x8000 mm) (h : Kept mm s0 s) : Kept mm s0 (State.askHandover cause s) := by
  unfold State.askHandover
  repeat' first
    | (intro x; refine Kept.bind (s0 := s0) (m := mm) (x := x) ?_ ?_; subst x; rotate_left; clear_value x; intro _)
    | (intro y; clear_value y)
    | intro _
    | with_reducible assumption
    | with_reducible lift_lets -underBinder
    | with_reducible apply State.modRack_kept hm
    | with_reducible apply State.rackMsg_kept hm
    | with_reducible apply Kept.ite
    | with_reducible split
    | split

theorem plannedEff_kept {mm : Nat} {s0 : State} (hm : Sub 0x8000 mm) : EffKept mm s0 plannedEff := by
  unfold plannedEff
  repeat' first
    | (intro x; refine Kept.bind (s0 := s0) (m := mm) (x := x) ?_ ?_; subst x; rotate_left; clear_value x; intro _)
    | (intro y; clear_value y)
    | intro _
    | with_reducible assumption
    | with_reducible lift_lets -underBinder
    | with_reducible apply State.askHandover_kept hm
    | with_reducible apply Kept.ite
    | with_reducible apply EffKept.ite
    | with_reducible split
    | split
    | (refine ⟨fun s h => ?_⟩; dsimp -zeta only)
    | dsimp -zeta only

theorem State.arbiterLost_kept {mm : Nat} {s0 s : State} (hm : Sub 0x7fffd000000000008000000e000 mm) (h : Kept mm s0 s) : Kept mm s0 (State.arbiterLost s) := by
  have k0 : Sub 0x7fffd000000000000000000e000 mm := Sub.trans (by decide) hm
  unfold State.arbiterLost
  repeat' first
    | (intro x; refine Kept.bind (s0 := s0) (m := mm) (x := x) ?_ ?_; subst x; rotate_left; clear_value x; intro _)
    | (intro y; clear_value y)
    | intro _
    | with_reducible assumption
    | with_reducible lift_lets -underBinder
    | with_reducible apply State.logEvent_kept k0
    | with_reducible refine State.setBit_kept ?_ ?_
    | exact Sub.bit (Sub.trans (by decide) hm)
    | with_reducible apply Kept.ite
    | with_reducible split
    | split

theorem State.linkTrained_kept {mm : Nat} {s0 s : State} {d : Nat} (hm : Sub 0x400000008000 mm) (h : Kept mm s0 s) : Kept mm s0 (State.linkTrained d s) := by
  have k0 : Sub 0x8000 mm := Sub.trans (by decide) hm
  have k1 : Sub 0x400000000000 mm := Sub.trans (by decide) hm
  unfold State.linkTrained
  repeat' first
    | (intro x; refine Kept.bind (s0 := s0) (m := mm) (x := x) ?_ ?_; subst x; rotate_left; clear_value x; intro _)
    | (intro y; clear_value y)
    | intro _
    | with_reducible assumption
    | with_reducible lift_lets -underBinder
    | with_reducible apply State.modRack_kept k0
    | with_reducible apply State.syncTwin_kept k1
    | with_reducible apply State.sendForwards_kept k0
    | with_reducible refine State.wr_kept ?_ ?_
    | exact Sub.bit (Sub.trans (by decide) hm)
    | with_reducible apply Kept.ite
    | with_reducible split
    | split

theorem State.linkDown_kept {mm : Nat} {s0 s : State} (hm : Sub 0x7fffd000000000040000000e000 mm) (h : Kept mm s0 s) : Kept mm s0 (State.linkDown s) := by
  have k0 : Sub 0x8000 mm := Sub.trans (by decide) hm
  have k1 : Sub 0x7fffd000000000000000000e000 mm := Sub.trans (by decide) hm
  have k2 : Sub 0x400000000000 mm := Sub.trans (by decide) hm
  unfold State.linkDown
  repeat' first
    | (intro x; refine Kept.bind (s0 := s0) (m := mm) (x := x) ?_ ?_; subst x; rotate_left; clear_value x; intro _)
    | (intro y; clear_value y)
    | intro _
    | with_reducible assumption
    | with_reducible lift_lets -underBinder
    | with_reducible apply State.modRack_kept k0
    | with_reducible apply State.logEvent_kept k1
    | with_reducible apply State.syncTwin_kept k2
    | with_reducible refine State.wr_kept ?_ ?_
    | exact Sub.bit (Sub.trans (by decide) hm)
    | with_reducible apply Kept.ite
    | with_reducible split
    | split

theorem State.copyReceived_kept {mm : Nat} {s0 s : State} {m : StateCopy} (hm : Sub 0x8000 mm) (h : Kept mm s0 s) : Kept mm s0 (State.copyReceived m s) := by
  unfold State.copyReceived
  repeat' first
    | (intro x; refine Kept.bind (s0 := s0) (m := mm) (x := x) ?_ ?_; subst x; rotate_left; clear_value x; intro _)
    | (intro y; clear_value y)
    | intro _
    | with_reducible assumption
    | with_reducible lift_lets -underBinder
    | with_reducible apply State.modRack_kept hm
    | with_reducible apply Kept.ite
    | with_reducible split
    | split

theorem State.installCopy_kept {mm : Nat} {s0 s : State} {b : Nat} {r : Recipe} {m : StateCopy} (hm : Sub 0x7ffffffff00000000000000003c mm) (h : Kept mm s0 s) : Kept mm s0 (State.installCopy b r m s) := by
  have k0 : Sub 0x0 mm := Sub.trans (by decide) hm
  have k1 : Sub 0x8 mm := Sub.trans (by decide) hm
  have k2 : Sub 0x10 mm := Sub.trans (by decide) hm
  have k3 : Sub 0x20 mm := Sub.trans (by decide) hm
  have k4 : Sub 0x4 mm := Sub.trans (by decide) hm
  have kz : Sub (2 ^ 107 - 2 ^ (20 + zone 0x40010100)) mm := Sub.trans (by decide) hm
  unfold State.installCopy
  repeat' first
    | (intro x; refine Kept.bind (s0 := s0) (m := mm) (x := x) ?_ ?_; subst x; rotate_left; clear_value x; intro _)
    | (intro y; clear_value y)
    | intro _
    | with_reducible assumption
    | with_reducible lift_lets -underBinder
    | with_reducible apply State.each_kept k0
    | with_reducible apply State.setFx_kept k1
    | with_reducible apply State.setFl_kept k2
    | with_reducible apply State.setGen_kept k3
    | with_reducible apply State.modBatch_kept k4
    | with_reducible refine State.setBit_kept ?_ ?_
    | with_reducible refine State.wr_kept ?_ ?_
    | with_reducible refine State.wrF_kept ?_ ?_
    | exact Sub.bit (Sub.trans (by decide) hm)
    | (refine Sub.from (b := 0x40010100) kz ?_; (try simp only [key, bk, genA, genV, genX]); omega)
    | with_reducible apply Kept.ite
    | with_reducible split
    | split

theorem State.lateCopy_kept {mm : Nat} {s0 s : State} {b : Nat} (hm : Sub 0x7fffd000000000040000000e000 mm) (h : Kept mm s0 s) : Kept mm s0 (State.lateCopy b s) := by
  have k0 : Sub 0x8000 mm := Sub.trans (by decide) hm
  have k1 : Sub 0x7fffd000000000000000000e000 mm := Sub.trans (by decide) hm
  have k2 : Sub 0x400000000000 mm := Sub.trans (by decide) hm
  unfold State.lateCopy
  repeat' first
    | (intro x; refine Kept.bind (s0 := s0) (m := mm) (x := x) ?_ ?_; subst x; rotate_left; clear_value x; intro _)
    | (intro y; clear_value y)
    | intro _
    | with_reducible assumption
    | with_reducible lift_lets -underBinder
    | with_reducible apply State.modRack_kept k0
    | with_reducible apply State.logEvent_kept k1
    | with_reducible apply State.syncTwin_kept k2
    | with_reducible refine State.inc_kept ?_ ?_
    | exact Sub.bit (Sub.trans (by decide) hm)
    | with_reducible apply Kept.ite
    | with_reducible split
    | split

theorem State.standbyT0_kept {mm : Nat} {s0 s : State} {b : Nat} (hm : Sub 0x7ffffffff00000040000000e03c mm) (h : Kept mm s0 s) : Kept mm s0 (State.standbyT0 b s) := by
  have k0 : Sub 0x8000 mm := Sub.trans (by decide) hm
  have k1 : Sub 0x7ffffffff00000000000000003c mm := Sub.trans (by decide) hm
  have k2 : Sub 0x400000000000 mm := Sub.trans (by decide) hm
  have k3 : Sub 0x0 mm := Sub.trans (by decide) hm
  have k4 : Sub 0x7fffd000000000040000000e000 mm := Sub.trans (by decide) hm
  unfold State.standbyT0
  repeat' first
    | (intro x; refine Kept.bind (s0 := s0) (m := mm) (x := x) ?_ ?_; subst x; rotate_left; clear_value x; intro _)
    | (intro y; clear_value y)
    | intro _
    | with_reducible assumption
    | with_reducible lift_lets -underBinder
    | with_reducible apply State.modRack_kept k0
    | with_reducible apply State.installCopy_kept k1
    | with_reducible apply State.syncTwin_kept k2
    | with_reducible apply State.when_kept k3
    | with_reducible apply State.lateCopy_kept k4
    | with_reducible apply Kept.ite
    | with_reducible split
    | split

theorem twinRoleEff_kept {mm : Nat} {s0 : State} {v : Int} (hm : Sub 0x400000008000 mm) : EffKept mm s0 (twinRoleEff v) := by
  have k0 : Sub 0x8000 mm := Sub.trans (by decide) hm
  have k1 : Sub 0x400000000000 mm := Sub.trans (by decide) hm
  unfold twinRoleEff
  repeat' first
    | (intro x; refine Kept.bind (s0 := s0) (m := mm) (x := x) ?_ ?_; subst x; rotate_left; clear_value x; intro _)
    | (intro y; clear_value y)
    | intro _
    | with_reducible assumption
    | with_reducible lift_lets -underBinder
    | with_reducible apply State.modRack_kept k0
    | with_reducible apply State.syncCopyLoad_kept k1
    | with_reducible apply State.syncTwin_kept k1
    | with_reducible refine State.wr_kept ?_ ?_
    | exact Sub.bit (Sub.trans (by decide) hm)
    | with_reducible apply Kept.ite
    | with_reducible apply EffKept.ite
    | with_reducible split
    | split
    | (refine ⟨fun s h => ?_⟩; dsimp -zeta only)
    | dsimp -zeta only

theorem State.hopDelay_kept {mm : Nat} {s0 s : State} {d : HopDelays} (hm : Sub 0x80000000000 mm) (h : Kept mm s0 s) : Kept mm s0 (State.hopDelay d s) := by
  unfold State.hopDelay
  repeat' first
    | (intro x; refine Kept.bind (s0 := s0) (m := mm) (x := x) ?_ ?_; subst x; rotate_left; clear_value x; intro _)
    | (intro y; clear_value y)
    | intro _
    | with_reducible assumption
    | with_reducible lift_lets -underBinder
    | with_reducible refine State.setBit_kept ?_ ?_
    | with_reducible refine State.wr_kept ?_ ?_
    | exact Sub.bit (Sub.trans (by decide) hm)
    | with_reducible apply Kept.ite
    | with_reducible split
    | split

theorem State.timeSync_kept {mm : Nat} {s0 s : State} {departed others : Nat} (hm : Sub 0x7ffffffffffffffff280008f280 mm) (h : Kept mm s0 s) : Kept mm s0 (State.timeSync departed others s) := by
  have k0 : Sub 0x80000008000 mm := Sub.trans (by decide) hm
  have k1 : Sub 0x2000000000 mm := Sub.trans (by decide) hm
  unfold State.timeSync
  repeat' first
    | (intro x; refine Kept.bind (s0 := s0) (m := mm) (x := x) ?_ ?_; subst x; rotate_left; clear_value x; intro _)
    | (intro y; clear_value y)
    | intro _
    | with_reducible assumption
    | with_reducible lift_lets -underBinder
    | with_reducible apply State.hear_kept k0
    | with_reducible apply State.takeOffset_kept hm
    | with_reducible apply State.setQuality_kept k1
    | with_reducible refine State.wr_kept ?_ ?_
    | exact Sub.bit (Sub.trans (by decide) hm)
    | with_reducible apply Kept.ite
    | with_reducible split
    | split

theorem State.masterLost_kept {mm : Nat} {s0 s : State} (hm : Sub 0x7fffd000000000008200000e000 mm) (h : Kept mm s0 s) : Kept mm s0 (State.masterLost s) := by
  have k0 : Sub 0x7fffd000000000000000000e000 mm := Sub.trans (by decide) hm
  have k1 : Sub 0x2000000000 mm := Sub.trans (by decide) hm
  unfold State.masterLost
  repeat' first
    | (intro x; refine Kept.bind (s0 := s0) (m := mm) (x := x) ?_ ?_; subst x; rotate_left; clear_value x; intro _)
    | (intro y; clear_value y)
    | intro _
    | with_reducible assumption
    | with_reducible lift_lets -underBinder
    | with_reducible apply State.logEvent_kept k0
    | with_reducible apply State.setQuality_kept k1
    | with_reducible refine State.inc_kept ?_ ?_
    | with_reducible refine State.setBit_kept ?_ ?_
    | exact Sub.bit (Sub.trans (by decide) hm)
    | with_reducible apply Kept.ite
    | with_reducible split
    | split

theorem State.setTxn_kept {mm : Nat} {s0 s : State} {t : Option Txn} (hm : Sub 0x8000 mm) (h : Kept mm s0 s) : Kept mm s0 (State.setTxn t s) := by
  unfold State.setTxn
  repeat' first
    | (intro x; refine Kept.bind (s0 := s0) (m := mm) (x := x) ?_ ?_; subst x; rotate_left; clear_value x; intro _)
    | (intro y; clear_value y)
    | intro _
    | with_reducible assumption
    | with_reducible lift_lets -underBinder
    | with_reducible apply State.modRack_kept hm
    | with_reducible apply Kept.ite
    | with_reducible split
    | split

theorem State.endTxn_kept {mm : Nat} {s0 s : State} {res : Nat} {stragglers : List Nat} (hm : Sub 0x7fffd000000000010000000e000 mm) (h : Kept mm s0 s) : Kept mm s0 (State.endTxn res stragglers s) := by
  have k0 : Sub 0x8000 mm := Sub.trans (by decide) hm
  have k1 : Sub 0x7fffd000000000000000000e000 mm := Sub.trans (by decide) hm
  unfold State.endTxn
  repeat' first
    | (intro x; refine Kept.bind (s0 := s0) (m := mm) (x := x) ?_ ?_; subst x; rotate_left; clear_value x; intro _)
    | (intro y; clear_value y)
    | intro _
    | with_reducible assumption
    | with_reducible lift_lets -underBinder
    | with_reducible apply State.setTxn_kept k0
    | with_reducible apply State.logEvent_kept k1
    | with_reducible refine State.wr_kept ?_ ?_
    | exact Sub.bit (Sub.trans (by decide) hm)
    | with_reducible apply Kept.ite
    | with_reducible split
    | split
    | dsimp only [id_eq]

theorem State.takeReport_kept {mm : Nat} {s0 s : State} {i txn applied : Nat} (hm : Sub 0x7fffd000000000010000000e000 mm) (h : Kept mm s0 s) : Kept mm s0 (State.takeReport i txn applied s) := by
  have k0 : Sub 0x8000 mm := Sub.trans (by decide) hm
  unfold State.takeReport
  repeat' first
    | (intro x; refine Kept.bind (s0 := s0) (m := mm) (x := x) ?_ ?_; subst x; rotate_left; clear_value x; intro _)
    | (intro y; clear_value y)
    | intro _
    | with_reducible assumption
    | with_reducible lift_lets -underBinder
    | with_reducible apply State.setTxn_kept k0
    | with_reducible apply State.endTxn_kept hm
    | with_reducible refine State.wr_kept ?_ ?_
    | exact Sub.bit (Sub.trans (by decide) hm)
    | with_reducible apply Kept.ite
    | with_reducible split
    | split
    | dsimp only [id_eq]

theorem State.prepare_kept {mm : Nat} {s0 s : State} {m : PrepareMsg} (hm : Sub 0x8000 mm) (h : Kept mm s0 s) : Kept mm s0 (State.prepare m s).2 := by
  unfold State.prepare
  repeat' first
    | (intro x; refine Kept.bind (s0 := s0) (m := mm) (x := x) ?_ ?_; subst x; rotate_left; clear_value x; intro _)
    | (intro y; clear_value y)
    | intro _
    | with_reducible assumption
    | with_reducible lift_lets -underBinder
    | with_reducible apply State.modRack_kept hm
    | with_reducible apply Kept.ite
    | with_reducible split
    | split

theorem State.rackReportNow_kept {mm : Nat} {s0 s : State} (hm : Sub 0x7fffd000000000010000000e000 mm) (h : Kept mm s0 s) : Kept mm s0 (State.rackReportNow s) := by
  have k0 : Sub 0x0 mm := Sub.trans (by decide) hm
  have k1 : Sub 0x8000 mm := Sub.trans (by decide) hm
  have k2 : Sub 0x7fffd000000000000000000e000 mm := Sub.trans (by decide) hm
  unfold State.rackReportNow
  repeat' first
    | (intro x; refine Kept.bind (s0 := s0) (m := mm) (x := x) ?_ ?_; subst x; rotate_left; clear_value x; intro _)
    | (intro y; clear_value y)
    | intro _
    | with_reducible assumption
    | with_reducible lift_lets -underBinder
    | with_reducible apply State.msg_kept k0
    | with_reducible apply State.modRack_kept k1
    | with_reducible apply State.logEvent_kept k2
    | with_reducible apply State.takeReport_kept hm
    | with_reducible apply State.rackMsg_kept k1
    | with_reducible apply Kept.ite
    | with_reducible split
    | split

theorem State.prepareMsg_kept {mm : Nat} {s0 s : State} {m : PrepareMsg} (hm : Sub 0x7fffd000000000018000000e000 mm) (h : Kept mm s0 s) : Kept mm s0 (State.prepareMsg m s) := by
  have k0 : Sub 0x7fffd000000000010000000e000 mm := Sub.trans (by decide) hm
  have k1 : Sub 0x8000 mm := Sub.trans (by decide) hm
  have k2 : Sub 0x80000008000 mm := Sub.trans (by decide) hm
  unfold State.prepareMsg
  repeat' first
    | (intro x; refine Kept.bind (s0 := s0) (m := mm) (x := x) ?_ ?_; subst x; rotate_left; clear_value x; intro _)
    | (intro y; have w_ : Nat × State := y; clear w_)
    | (intro y; clear_value y)
    | intro _
    | with_reducible assumption
    | with_reducible lift_lets -underBinder
    | with_reducible apply State.rackReportNow_kept k0
    | with_reducible apply State.prepare_kept k1
    | with_reducible apply State.hear_kept k2
    | with_reducible apply State.rackMsg_kept k1
    | with_reducible apply Kept.ite
    | with_reducible split
    | split
    | with_reducible refine Kept.snd (by assumption) ?_
    | with_reducible refine Kept.fst (by assumption) ?_

theorem State.takeCommit_kept {mm : Nat} {s0 s : State} {txn : Nat} (hm : Sub 0x8000 mm) (h : Kept mm s0 s) : Kept mm s0 (State.takeCommit txn s) := by
  have k0 : Sub 0x0 mm := Sub.trans (by decide) hm
  unfold State.takeCommit
  repeat' first
    | (intro x; refine Kept.bind (s0 := s0) (m := mm) (x := x) ?_ ?_; subst x; rotate_left; clear_value x; intro _)
    | (intro y; clear_value y)
    | intro _
    | with_reducible assumption
    | with_reducible lift_lets -underBinder
    | with_reducible apply State.msg_kept k0
    | with_reducible apply State.modRack_kept hm
    | with_reducible apply Kept.ite
    | with_reducible split
    | split

theorem State.takeAbort_kept {mm : Nat} {s0 s : State} {txn : Nat} (hm : Sub 0x8000 mm) (h : Kept mm s0 s) : Kept mm s0 (State.takeAbort txn s) := by
  have k0 : Sub 0x0 mm := Sub.trans (by decide) hm
  unfold State.takeAbort
  repeat' first
    | (intro x; refine Kept.bind (s0 := s0) (m := mm) (x := x) ?_ ?_; subst x; rotate_left; clear_value x; intro _)
    | (intro y; clear_value y)
    | intro _
    | with_reducible assumption
    | with_reducible lift_lets -underBinder
    | with_reducible apply State.msg_kept k0
    | with_reducible apply State.modRack_kept hm
    | with_reducible apply Kept.ite
    | with_reducible split
    | split

theorem State.applyOp_kept {mm : Nat} {s0 s : State} {m : PrepareMsg} {b : Nat} (hm : Sub 0x7ffffffffffc00000000000e124 mm) (h : Kept mm s0 s) : Kept mm s0 (State.applyOp m b s).2 := by
  have k0 : Sub 0x0 mm := Sub.trans (by decide) hm
  have k1 : Sub 0x7ffff8000000000000000000020 mm := Sub.trans (by decide) hm
  have k2 : Sub 0x4 mm := Sub.trans (by decide) hm
  have k3 : Sub 0x8000 mm := Sub.trans (by decide) hm
  have k4 : Sub 0x7ffffffff00000000000000e004 mm := Sub.trans (by decide) hm
  have kz : Sub (2 ^ 107 - 2 ^ (20 + zone 0x400e0100)) mm := Sub.trans (by decide) hm
  unfold State.applyOp
  repeat' first
    | (intro x; refine Kept.bind (s0 := s0) (m := mm) (x := x) ?_ ?_; subst x; rotate_left; clear_value x; intro _)
    | (intro y; have w_ : List F32 → State → State := y; clear w_; subst y)
    | (intro y; clear_value y)
    | intro _
    | with_reducible assumption
    | with_reducible lift_lets -underBinder
    | with_reducible apply State.each_kept k0
    | with_reducible apply State.withGen_kept k0
    | with_reducible apply State.hostTarget_kept k1
    | with_reducible apply State.modBatch_kept k2
    | with_reducible apply State.modRack_kept k3
    | with_reducible apply State.deadStep_kept k4
    | with_reducible apply State.enterBlackStart_kept hm
    | with_reducible refine State.wr_kept ?_ ?_
    | with_reducible refine State.wrF_kept ?_ ?_
    | exact Sub.bit (Sub.trans (by decide) hm)
    | (refine Sub.from (b := 0x400e0100) kz ?_; (try simp only [key, bk]); omega)
    | with_reducible apply Kept.ite
    | with_reducible split
    | split
    | dsimp -zeta only

theorem State.rackT0_kept {mm : Nat} {s0 s : State} {b : Nat} (hm : Sub 0x7ffffffffffc00010000000e13c mm) (h : Kept mm s0 s) : Kept mm s0 (State.rackT0 b s) := by
  have k0 : Sub 0x7ffffffffffc00000000000e13c mm := Sub.trans (by decide) hm
  have k1 : Sub 0x0 mm := Sub.trans (by decide) hm
  have k2 : Sub 0x7ffffffffffc00000000000e124 mm := Sub.trans (by decide) hm
  have k3 : Sub 0x8000 mm := Sub.trans (by decide) hm
  have k4 : Sub 0x7fffd000000000010000000e000 mm := Sub.trans (by decide) hm
  unfold State.rackT0
  repeat' first
    | (intro x; refine Kept.bind (s0 := s0) (m := mm) (x := x) ?_ ?_; subst x; rotate_left; clear_value x; intro _)
    | (intro y; have w_ : Bool × State := y; clear w_)
    | (intro y; clear_value y)
    | intro _
    | with_reducible assumption
    | with_reducible lift_lets -underBinder
    | with_reducible apply State.commit_kept k0
    | with_reducible apply State.msg_kept k1
    | with_reducible apply State.applyOp_kept k2
    | with_reducible apply State.modRack_kept k3
    | with_reducible apply State.rackReportNow_kept k4
    | with_reducible apply Kept.ite
    | with_reducible split
    | split
    | with_reducible refine Kept.snd (by assumption) ?_
    | with_reducible refine Kept.fst (by assumption) ?_

theorem State.sendPrepare_kept {mm : Nat} {s0 s : State} {x : Txn} (hm : Sub 0x100000008000 mm) (h : Kept mm s0 s) : Kept mm s0 (State.sendPrepare x s) := by
  have k0 : Sub 0x0 mm := Sub.trans (by decide) hm
  have k1 : Sub 0x8000 mm := Sub.trans (by decide) hm
  unfold State.sendPrepare
  repeat' first
    | (intro x; refine Kept.bind (s0 := s0) (m := mm) (x := x) ?_ ?_; subst x; rotate_left; clear_value x; intro _)
    | (intro y; have w_ : Nat × State := y; clear w_)
    | (intro y; clear_value y)
    | intro _
    | with_reducible assumption
    | with_reducible lift_lets -underBinder
    | with_reducible apply State.each_kept k0
    | with_reducible apply State.rackMsg_kept k1
    | with_reducible apply State.prepare_kept k1
    | with_reducible apply State.setTxn_kept k1
    | with_reducible refine State.wr_kept ?_ ?_
    | exact Sub.bit (Sub.trans (by decide) hm)
    | with_reducible apply Kept.ite
    | with_reducible split
    | split
    | with_reducible refine Kept.snd (by assumption) ?_
    | with_reducible refine Kept.fst (by assumption) ?_
    | dsimp only [id_eq]

theorem executeEff_kept {mm : Nat} {s0 : State} (hm : Sub 0x100000008000 mm) : EffKept mm s0 executeEff := by
  unfold executeEff
  repeat' first
    | (intro x; refine Kept.bind (s0 := s0) (m := mm) (x := x) ?_ ?_; subst x; rotate_left; clear_value x; intro _)
    | (intro y; clear_value y)
    | intro _
    | with_reducible assumption
    | with_reducible lift_lets -underBinder
    | with_reducible apply State.sendPrepare_kept hm
    | with_reducible refine State.wr_kept ?_ ?_
    | exact Sub.bit (Sub.trans (by decide) hm)
    | with_reducible apply Kept.ite
    | with_reducible apply EffKept.ite
    | with_reducible split
    | split
    | (refine ⟨fun s h => ?_⟩; dsimp -zeta only)
    | dsimp -zeta only
    | dsimp only [id_eq]

theorem commitSettingEff_kept {mm : Nat} {s0 : State} {sub elem : Nat} {v : Int} (hm : Sub 0x7fffffffffffffff00000000000 mm) : EffKept mm s0 (commitSettingEff sub elem v) := by
  have kz : Sub (2 ^ 107 - 2 ^ (20 + zone 0x25010000)) mm := Sub.trans (by decide) hm
  unfold commitSettingEff
  repeat' first
    | (intro x; refine Kept.bind (s0 := s0) (m := mm) (x := x) ?_ ?_; subst x; rotate_left; clear_value x; intro _)
    | (intro y; clear_value y)
    | intro _
    | with_reducible assumption
    | with_reducible lift_lets -underBinder
    | with_reducible refine State.wr_kept ?_ ?_
    | exact Sub.bit (Sub.trans (by decide) hm)
    | (refine Sub.from (b := 0x25010000) kz ?_; (try simp only [key, bk, cmk]); omega)
    | with_reducible apply Kept.ite
    | with_reducible apply EffKept.ite
    | with_reducible split
    | split
    | (refine ⟨fun s h => ?_⟩; dsimp -zeta only)
    | dsimp -zeta only

theorem State.answered_kept {mm : Nat} {s0 s : State} {i txn : Nat} {ok : Bool} (hm : Sub 0x180000008000 mm) (h : Kept mm s0 s) : Kept mm s0 (State.answered i txn ok s) := by
  have k0 : Sub 0x80000008000 mm := Sub.trans (by decide) hm
  have k1 : Sub 0x8000 mm := Sub.trans (by decide) hm
  unfold State.answered
  repeat' first
    | (intro x; refine Kept.bind (s0 := s0) (m := mm) (x := x) ?_ ?_; subst x; rotate_left; clear_value x; intro _)
    | (intro y; clear_value y)
    | intro _
    | with_reducible assumption
    | with_reducible lift_lets -underBinder
    | with_reducible apply State.hear_kept k0
    | with_reducible apply State.setTxn_kept k1
    | with_reducible refine State.wr_kept ?_ ?_
    | exact Sub.bit (Sub.trans (by decide) hm)
    | with_reducible apply Kept.ite
    | with_reducible split
    | split
    | dsimp only [id_eq]

theorem State.commitDecision_kept {mm : Nat} {s0 s : State} (hm : Sub 0x7fffffffffffffff0000000e000 mm) (h : Kept mm s0 s) : Kept mm s0 (State.commitDecision s) := by
  have k0 : Sub 0x0 mm := Sub.trans (by decide) hm
  have k1 : Sub 0x8000 mm := Sub.trans (by decide) hm
  have k2 : Sub 0x7fffd000000000010000000e000 mm := Sub.trans (by decide) hm
  have kz : Sub (2 ^ 107 - 2 ^ (20 + zone 0x25010a00)) mm := Sub.trans (by decide) hm
  unfold State.commitDecision
  repeat' first
    | (intro x; refine Kept.bind (s0 := s0) (m := mm) (x := x) ?_ ?_; subst x; rotate_left; clear_value x; intro _)
    | (intro y; clear_value y)
    | intro _
    | with_reducible assumption
    | with_reducible lift_lets -underBinder
    | with_reducible apply State.each_kept k0
    | with_reducible apply State.rackMsg_kept k1
    | with_reducible apply State.takeCommit_kept k1
    | with_reducible apply State.takeAbort_kept k1
    | with_reducible apply State.setTxn_kept k1
    | with_reducible apply State.endTxn_kept k2
    | with_reducible refine State.inc_kept ?_ ?_
    | exact Sub.bit (Sub.trans (by decide) hm)
    | (refine Sub.from (b := 0x25010a00) kz ?_; (try simp only [key, bk, cmk]); omega)
    | with_reducible apply Kept.ite
    | with_reducible split
    | split
    | dsimp only [id_eq]

theorem State.reportMsg_kept {mm : Nat} {s0 s : State} {i txn applied : Nat} (hm : Sub 0x7fffd000000000018000000e000 mm) (h : Kept mm s0 s) : Kept mm s0 (State.reportMsg i txn applied s) := by
  have k0 : Sub 0x80000008000 mm := Sub.trans (by decide) hm
  have k1 : Sub 0x7fffd000000000010000000e000 mm := Sub.trans (by decide) hm
  unfold State.reportMsg
  repeat' first
    | (intro x; refine Kept.bind (s0 := s0) (m := mm) (x := x) ?_ ?_; subst x; rotate_left; clear_value x; intro _)
    | (intro y; clear_value y)
    | intro _
    | with_reducible assumption
    | with_reducible lift_lets -underBinder
    | with_reducible apply State.hear_kept k0
    | with_reducible apply State.takeReport_kept k1
    | with_reducible apply Kept.ite
    | with_reducible split
    | split

theorem State.stragglerDeadline_kept {mm : Nat} {s0 s : State} (hm : Sub 0x7fffd000000000010000000e000 mm) (h : Kept mm s0 s) : Kept mm s0 (State.stragglerDeadline s) := by
  have k0 : Sub 0x100000008000 mm := Sub.trans (by decide) hm
  unfold State.stragglerDeadline
  repeat' first
    | (intro x; refine Kept.bind (s0 := s0) (m := mm) (x := x) ?_ ?_; subst x; rotate_left; clear_value x; intro _)
    | (intro y; clear_value y)
    | intro _
    | with_reducible assumption
    | with_reducible lift_lets -underBinder
    | with_reducible apply State.rackReportNow_kept hm
    | with_reducible apply State.endTxn_kept hm
    | with_reducible apply State.sendPrepare_kept k0
    | with_reducible refine State.wr_kept ?_ ?_
    | exact Sub.bit (Sub.trans (by decide) hm)
    | with_reducible apply Kept.ite
    | with_reducible split
    | split
    | with_reducible apply Kept.foldl_snd
    | with_reducible apply Kept.foldl_fst
    | with_reducible apply Kept.foldl

theorem closeBridgesEff_kept {mm : Nat} {s0 : State} (hm : Sub 0x8000 mm) : EffKept mm s0 closeBridgesEff := by
  unfold closeBridgesEff
  repeat' first
    | (intro x; refine Kept.bind (s0 := s0) (m := mm) (x := x) ?_ ?_; subst x; rotate_left; clear_value x; intro _)
    | (intro y; clear_value y)
    | intro _
    | with_reducible assumption
    | with_reducible lift_lets -underBinder
    | with_reducible apply State.modRack_kept hm
    | with_reducible apply Kept.ite
    | with_reducible apply EffKept.ite
    | with_reducible split
    | split
    | (refine ⟨fun s h => ?_⟩; dsimp -zeta only)
    | dsimp -zeta only

theorem State.bridgeOpen_kept {mm : Nat} {s0 s : State} {k : Nat} (hm : Sub 0x7e1000000000000400000008800 mm) (h : Kept mm s0 s) : Kept mm s0 (State.bridgeOpen k s) := by
  have k0 : Sub 0x7e0000000000000400000000800 mm := Sub.trans (by decide) hm
  have k1 : Sub 0x8000 mm := Sub.trans (by decide) hm
  have k2 : Sub 0x1000000000000000000000000 mm := Sub.trans (by decide) hm
  unfold State.bridgeOpen
  repeat' first
    | (intro x; refine Kept.bind (s0 := s0) (m := mm) (x := x) ?_ ?_; subst x; rotate_left; clear_value x; intro _)
    | (intro y; clear_value y)
    | intro _
    | with_reducible assumption
    | with_reducible lift_lets -underBinder
    | with_reducible apply State.openCircuit_kept k0
    | with_reducible apply State.modRack_kept k1
    | with_reducible apply State.islandStatus_kept k2
    | with_reducible apply Kept.ite
    | with_reducible split
    | split

end Sys2Proof.Machine
end

