-- ==== Sys2Proof/Laws/KeptDomains.lean ====
section
/-! SUPPORT. What the operations of Machine/Domains.lean may change (Safety.lean, Kept): one lemma for each. -/

set_option linter.all false

namespace Sys2Proof.Machine

theorem State.modPower_kept {mm : Nat} {s0 s : State} {f : Power → Power} (hm : Sub 0x10000 mm) (h : Kept mm s0 s) : Kept mm s0 (State.modPower f s) := by
  unfold State.modPower
  repeat' first
    | (intro x; refine Kept.bind (s0 := s0) (m := mm) (x := x) ?_ ?_; subst x; rotate_left; clear_value x; intro _)
    | (intro y; clear_value y)
    | intro _
    | with_reducible assumption
    | with_reducible lift_lets -underBinder
    | with_reducible apply Kept.ite
    | with_reducible split
    | split
    | with_reducible apply Kept.upd_power hm

theorem State.domStops_kept {mm : Nat} {s0 s : State} {d : Nat} (hm : Sub 0x7ffffffffffffffff080002ff86 mm) (h : Kept mm s0 s) : Kept mm s0 (State.domStops d s) := by
  have k0 : Sub 0x0 mm := Sub.trans (by decide) hm
  have k1 : Sub 0x4 mm := Sub.trans (by decide) hm
  have k2 : Sub 0x7ffffffffffffffff000000f080 mm := Sub.trans (by decide) hm
  have k3 : Sub 0x7ffffffffffc000000000000100 mm := Sub.trans (by decide) hm
  have k4 : Sub 0x7ffffffffff8000000000000400 mm := Sub.trans (by decide) hm
  have k5 : Sub 0x1000 mm := Sub.trans (by decide) hm
  have k6 : Sub 0x80 mm := Sub.trans (by decide) hm
  have k7 : Sub 0x7fffffffe00000000000000e080 mm := Sub.trans (by decide) hm
  have k8 : Sub 0x7ffffffff800000000000028200 mm := Sub.trans (by decide) hm
  have k9 : Sub 0x7fff1000000000000000000a002 mm := Sub.trans (by decide) hm
  have k10 : Sub 0x7ffffffff00000040000000e800 mm := Sub.trans (by decide) hm
  unfold State.domStops
  repeat' first
    | (intro x; refine Kept.bind (s0 := s0) (m := mm) (x := x) ?_ ?_; subst x; rotate_left; clear_value x; intro _)
    | (intro y; clear_value y)
    | intro _
    | with_reducible assumption
    | with_reducible lift_lets -underBinder
    | with_reducible apply State.each_kept k0
    | with_reducible apply State.modBatch_kept k1
    | with_reducible apply State.tpoStop_kept k2
    | with_reducible apply State.chanOff_kept k3
    | with_reducible apply State.diagAbandon_kept k4
    | with_reducible apply State.modClock_kept k5
    | with_reducible apply State.modChain_kept k6
    | with_reducible apply State.loseTrack_kept k7
    | with_reducible apply State.setPair_kept k6
    | with_reducible apply State.linkOff_kept k8
    | with_reducible apply State.captureStops_kept k9
    | with_reducible apply State.pd7Low_kept k10
    | with_reducible refine State.wr_kept ?_ ?_
    | exact Sub.bit (Sub.trans (by decide) hm)
    | with_reducible apply Kept.ite
    | with_reducible split
    | split

theorem State.domStarts_kept {mm : Nat} {s0 s : State} {d : Nat} (hm : Sub 0x7ffffffffffffffff880000f380 mm) (h : Kept mm s0 s) : Kept mm s0 (State.domStarts d s) := by
  have k0 : Sub 0x7ffffffffffc000000000000100 mm := Sub.trans (by decide) hm
  have k1 : Sub 0x1000 mm := Sub.trans (by decide) hm
  have k2 : Sub 0x800001000 mm := Sub.trans (by decide) hm
  have k3 : Sub 0x0 mm := Sub.trans (by decide) hm
  have k4 : Sub 0x7fffffffe00000000000000e080 mm := Sub.trans (by decide) hm
  have k5 : Sub 0x7fffffffe000000000000000080 mm := Sub.trans (by decide) hm
  have k6 : Sub 0x7ffffffff800000000000000200 mm := Sub.trans (by decide) hm
  have k7 : Sub 0x7ffffffffffffffff8000000000 mm := Sub.trans (by decide) hm
  have kz : Sub (2 ^ 107 - 2 ^ (20 + zone 0x37000300)) mm := Sub.trans (by decide) hm
  unfold State.domStarts
  repeat' first
    | (intro x; refine Kept.bind (s0 := s0) (m := mm) (x := x) ?_ ?_; subst x; rotate_left; clear_value x; intro _)
    | (intro y; clear_value y)
    | intro _
    | with_reducible assumption
    | with_reducible lift_lets -underBinder
    | with_reducible apply State.toExtended_kept k0
    | with_reducible apply State.modClock_kept k1
    | with_reducible apply State.startHop_kept k2
    | with_reducible apply State.each_kept k3
    | with_reducible apply State.chainEnable_kept k4
    | with_reducible apply State.syncFollow_kept k5
    | with_reducible apply State.syncLoss_kept k4
    | with_reducible apply State.startScan_kept k6
    | with_reducible apply State.portStates_kept k7
    | with_reducible refine State.setBit_kept ?_ ?_
    | with_reducible refine State.wr_kept ?_ ?_
    | exact Sub.bit (Sub.trans (by decide) hm)
    | (refine Sub.from (b := 0x37000300) kz ?_; (try simp only [key, bk, ckc, lk]); omega)
    | with_reducible apply Kept.ite
    | with_reducible split
    | split

theorem State.chargerOn_kept {mm : Nat} {s0 s : State} (hm : Sub 0x200000000 mm) (h : Kept mm s0 s) : Kept mm s0 (State.chargerOn s) := by
  unfold State.chargerOn
  repeat' first
    | (intro x; refine Kept.bind (s0 := s0) (m := mm) (x := x) ?_ ?_; subst x; rotate_left; clear_value x; intro _)
    | (intro y; clear_value y)
    | intro _
    | with_reducible assumption
    | with_reducible lift_lets -underBinder
    | with_reducible refine State.setBit_kept ?_ ?_
    | exact Sub.bit (Sub.trans (by decide) hm)
    | with_reducible apply Kept.ite
    | with_reducible split
    | split

theorem State.domOff_kept {mm : Nat} {s0 s : State} {d : Nat} (hm : Sub 0x7fffffffffffffffffff002ff86 mm) (h : Kept mm s0 s) : Kept mm s0 (State.domOff d s) := by
  have k0 : Sub 0x7fffd000000000000000000e000 mm := Sub.trans (by decide) hm
  have k1 : Sub 0x7ffffffffffffffff080002ff86 mm := Sub.trans (by decide) hm
  have kz : Sub (2 ^ 107 - 2 ^ (20 + zone 0x21000100)) mm := Sub.trans (by decide) hm
  unfold State.domOff
  repeat' first
    | (intro x; refine Kept.bind (s0 := s0) (m := mm) (x := x) ?_ ?_; subst x; rotate_left; clear_value x; intro _)
    | (intro y; clear_value y)
    | intro _
    | with_reducible assumption
    | with_reducible lift_lets -underBinder
    | with_reducible apply State.logEvent_kept k0
    | with_reducible apply State.domStops_kept k1
    | with_reducible refine State.wr_kept ?_ ?_
    | exact Sub.bit (Sub.trans (by decide) hm)
    | (refine Sub.from (b := 0x21000100) kz ?_; (try simp only [key, bk, dk]); omega)
    | with_reducible apply Kept.ite
    | with_reducible split
    | split

theorem State.domPower_kept {mm : Nat} {s0 s : State} {d : Nat} (hm : Sub 0x7fffffffffffffffffff0000000 mm) (h : Kept mm s0 s) : Kept mm s0 (State.domPower d s) := by
  have kz : Sub (2 ^ 107 - 2 ^ (20 + zone 0x21000100)) mm := Sub.trans (by decide) hm
  unfold State.domPower
  repeat' first
    | (intro x; refine Kept.bind (s0 := s0) (m := mm) (x := x) ?_ ?_; subst x; rotate_left; clear_value x; intro _)
    | (intro y; clear_value y)
    | intro _
    | with_reducible assumption
    | with_reducible lift_lets -underBinder
    | with_reducible refine State.wr_kept ?_ ?_
    | exact Sub.bit (Sub.trans (by decide) hm)
    | (refine Sub.from (b := 0x21000100) kz ?_; (try simp only [key, bk, dk]); omega)
    | with_reducible apply Kept.ite
    | with_reducible split
    | split

theorem State.storedRates_kept {mm : Nat} {s0 s : State} {od : Tbl Int} (hm : Sub 0x4000 mm) (h : Kept mm s0 s) : Kept mm s0 (State.storedRates od s) := by
  have k0 : Sub 0x0 mm := Sub.trans (by decide) hm
  unfold State.storedRates
  repeat' first
    | (intro x; refine Kept.bind (s0 := s0) (m := mm) (x := x) ?_ ?_; subst x; rotate_left; clear_value x; intro _)
    | (intro y; clear_value y)
    | intro _
    | with_reducible assumption
    | with_reducible lift_lets -underBinder
    | with_reducible apply State.each_kept k0
    | with_reducible apply State.setCode_kept hm
    | with_reducible apply Kept.ite
    | with_reducible split
    | split

theorem State.mergeOd_kept {mm : Nat} {s0 s : State} {l : Tbl Int} (hm : Sub 0x7fffffffffffffffffffff00000 mm) (h : Kept mm s0 s) : Kept mm s0 (State.mergeOd l s) := by
  have k0 : Sub 0x0 mm := Sub.trans (by decide) hm
  have kz : Sub (2 ^ 107 - 2 ^ (20 + zone 0x0)) mm := Sub.trans (by decide) hm
  unfold State.mergeOd
  repeat' first
    | (intro x; refine Kept.bind (s0 := s0) (m := mm) (x := x) ?_ ?_; subst x; rotate_left; clear_value x; intro _)
    | (intro y; clear_value y)
    | intro _
    | with_reducible assumption
    | with_reducible lift_lets -underBinder
    | with_reducible apply State.each_kept k0
    | with_reducible refine State.wr_kept ?_ ?_
    | exact Sub.bit (Sub.trans (by decide) hm)
    | exact Sub.from (b := 0) kz (Nat.zero_le _)
    | with_reducible apply Kept.ite
    | with_reducible split
    | split

theorem State.syncOwners_kept {mm : Nat} {s0 s : State} (hm : Sub 0x7ffffffffffc000000000000000 mm) (h : Kept mm s0 s) : Kept mm s0 (State.syncOwners s) := by
  have k0 : Sub 0x0 mm := Sub.trans (by decide) hm
  have kz : Sub (2 ^ 107 - 2 ^ (20 + zone 0x30000100)) mm := Sub.trans (by decide) hm
  unfold State.syncOwners
  repeat' first
    | (intro x; refine Kept.bind (s0 := s0) (m := mm) (x := x) ?_ ?_; subst x; rotate_left; clear_value x; intro _)
    | (intro y; have w_ : Nat := y; clear w_; subst y)
    | (intro y; clear_value y)
    | intro _
    | with_reducible assumption
    | with_reducible lift_lets -underBinder
    | with_reducible apply State.each_kept k0
    | with_reducible refine State.wr_kept ?_ ?_
    | exact Sub.bit (Sub.trans (by decide) hm)
    | (refine Sub.from (b := 0x30000100) kz ?_; (try simp only [key, bk, chk, ndk]); omega)
    | with_reducible apply Kept.ite
    | with_reducible split
    | split

theorem State.reloadRecipe_kept {mm : Nat} {s0 s : State} {od : Tbl Int} {b : Nat} {img : List Byte} (hm : Sub 0x7fffffffffffffffffffff0e0be mm) (h : Kept mm s0 s) : Kept mm s0 (State.reloadRecipe od b img s) := by
  have k0 : Sub 0x7ffffffff00000040000000e0be mm := Sub.trans (by decide) hm
  have k1 : Sub 0x7fffd000000000000000000e000 mm := Sub.trans (by decide) hm
  have k2 : Sub 0x0 mm := Sub.trans (by decide) hm
  have k3 : Sub 0x2 mm := Sub.trans (by decide) hm
  have kz : Sub (2 ^ 107 - 2 ^ (20 + zone 0x0)) mm := Sub.trans (by decide) hm
  unfold State.reloadRecipe
  repeat' first
    | (intro x; refine Kept.bind (s0 := s0) (m := mm) (x := x) ?_ ?_; subst x; rotate_left; clear_value x; intro _)
    | (intro y; have w_ : Nat × State := y; clear w_)
    | (intro y; clear_value y)
    | intro _
    | with_reducible assumption
    | with_reducible lift_lets -underBinder
    | with_reducible apply State.loadRecipe_kept k0
    | with_reducible apply State.logEvent_kept k1
    | with_reducible apply State.each_kept k2
    | with_reducible refine State.wr_kept ?_ ?_
    | exact Sub.bit (Sub.trans (by decide) hm)
    | exact Sub.from (b := 0) kz (Nat.zero_le _)
    | with_reducible apply Kept.ite
    | with_reducible split
    | split
    | with_reducible refine Kept.upd_blobs k3 (Tbl.sorted_erase _) ?_
    | with_reducible refine Kept.snd (by assumption) ?_
    | with_reducible refine Kept.fst (by assumption) ?_

theorem State.syncReports_kept {mm : Nat} {s0 s : State} {c : Nat} (hm : Sub 0x7fffffffe00000000000000e080 mm) (h : Kept mm s0 s) : Kept mm s0 (State.syncReports c s) := by
  have k0 : Sub 0x7fffffffe000000000000000080 mm := Sub.trans (by decide) hm
  have k1 : Sub 0x7fffffffe000000000000000000 mm := Sub.trans (by decide) hm
  unfold State.syncReports
  repeat' first
    | (intro x; refine Kept.bind (s0 := s0) (m := mm) (x := x) ?_ ?_; subst x; rotate_left; clear_value x; intro _)
    | (intro y; clear_value y)
    | intro _
    | with_reducible assumption
    | with_reducible lift_lets -underBinder
    | with_reducible apply State.syncFollow_kept k0
    | with_reducible apply State.syncChain_kept k1
    | with_reducible apply State.syncLoss_kept hm
    | with_reducible apply Kept.ite
    | with_reducible split
    | split

theorem State.storedSettings_kept {mm : Nat} {s0 s : State} {od : Tbl Int} {blobs : Tbl (List Byte)} (hm : Sub 0x7fffffffffffffffffffff0e082 mm) (h : Kept mm s0 s) : Kept mm s0 (State.storedSettings od blobs s) := by
  have k0 : Sub 0x7fffffffffffffffffffff00000 mm := Sub.trans (by decide) hm
  have k1 : Sub 0x4000 mm := Sub.trans (by decide) hm
  have k2 : Sub 0x0 mm := Sub.trans (by decide) hm
  have k3 : Sub 0x2 mm := Sub.trans (by decide) hm
  have k4 : Sub 0x80 mm := Sub.trans (by decide) hm
  have k5 : Sub 0x7fffffffe00000000000000e080 mm := Sub.trans (by decide) hm
  have kz : Sub (2 ^ 107 - 2 ^ (20 + zone 0x50001800)) mm := Sub.trans (by decide) hm
  unfold State.storedSettings
  repeat' first
    | (intro x; refine Kept.bind (s0 := s0) (m := mm) (x := x) ?_ ?_; subst x; rotate_left; clear_value x; intro _)
    | (intro y; clear_value y)
    | intro _
    | with_reducible assumption
    | with_reducible lift_lets -underBinder
    | with_reducible apply State.mergeOd_kept k0
    | with_reducible apply State.storedRates_kept k1
    | with_reducible apply State.each_kept k2
    | with_reducible apply State.wrBlob_kept k3
    | with_reducible apply State.modChain_kept k4
    | with_reducible apply State.chainEnable_kept k5
    | with_reducible refine State.setBit_kept ?_ ?_
    | exact Sub.bit (Sub.trans (by decide) hm)
    | (refine Sub.from (b := 0x50001800) kz ?_; (try simp only [key, bk, ck]); omega)
    | with_reducible apply Kept.ite
    | with_reducible split
    | split

theorem State.applyStored_kept {mm : Nat} {s0 s : State} (hm : Sub 0x7fffffffffffffffffffff7f3fe mm) (h : Kept mm s0 s) : Kept mm s0 (State.applyStored s) := by
  have k0 : Sub 0x10000 mm := Sub.trans (by decide) hm
  have k1 : Sub 0x7fffffffffffffffffffff0e082 mm := Sub.trans (by decide) hm
  have k2 : Sub 0x7ffffffffffc000000000000000 mm := Sub.trans (by decide) hm
  have k3 : Sub 0x0 mm := Sub.trans (by decide) hm
  have k4 : Sub 0x7fffffffe00000000000000e080 mm := Sub.trans (by decide) hm
  have k5 : Sub 0x7fffffffffffffffffffff0e0be mm := Sub.trans (by decide) hm
  have k6 : Sub 0x7ffffffff800000000000028200 mm := Sub.trans (by decide) hm
  have k7 : Sub 0x7ffffffff800000000000000000 mm := Sub.trans (by decide) hm
  have k8 : Sub 0x7ffffffff000000000000000000 mm := Sub.trans (by decide) hm
  have k9 : Sub 0x400000000000 mm := Sub.trans (by decide) hm
  have k10 : Sub 0x7fffffc00000000000000000044 mm := Sub.trans (by decide) hm
  have k11 : Sub 0x40000 mm := Sub.trans (by decide) hm
  have k12 : Sub 0x7ffffffffffc00000080000f100 mm := Sub.trans (by decide) hm
  have k13 : Sub 0x7ffffffffffffffff8000000000 mm := Sub.trans (by decide) hm
  have kz : Sub (2 ^ 107 - 2 ^ (20 + zone 0x400a1200)) mm := Sub.trans (by decide) hm
  unfold State.applyStored
  repeat' first
    | (intro x; refine Kept.bind (s0 := s0) (m := mm) (x := x) ?_ ?_; subst x; rotate_left; clear_value x; intro _)
    | (intro y; clear_value y)
    | intro _
    | with_reducible assumption
    | with_reducible lift_lets -underBinder
    | with_reducible apply State.modPower_kept k0
    | with_reducible apply State.storedSettings_kept k1
    | with_reducible apply State.syncOwners_kept k2
    | with_reducible apply State.each_kept k3
    | with_reducible apply State.syncReports_kept k4
    | with_reducible apply State.reloadRecipe_kept k5
    | with_reducible apply State.linkOff_kept k6
    | with_reducible apply State.syncLink_kept k7
    | with_reducible apply State.syncTimeline_kept k8
    | with_reducible apply State.syncCopyLoad_kept k9
    | with_reducible apply State.queuesInForce_kept k10
    | with_reducible apply State.pubLists_kept k11
    | with_reducible apply State.syncTwin_kept k9
    | with_reducible apply State.reselect_kept k12
    | with_reducible apply State.portStates_kept k13
    | with_reducible refine State.setBit_kept ?_ ?_
    | exact Sub.bit (Sub.trans (by decide) hm)
    | (refine Sub.from (b := 0x400a1200) kz ?_; (try simp only [key, bk, mkk]); omega)
    | with_reducible apply Kept.ite
    | with_reducible split
    | split
    | with_reducible refine Kept.snd (by assumption) ?_
    | with_reducible refine Kept.fst (by assumption) ?_

theorem State.setLocks_kept {mm : Nat} {s0 s : State} (hm : Sub 0x7ffffffff00000240000000e800 mm) (h : Kept mm s0 s) : Kept mm s0 (State.setLocks s) := by
  have k0 : Sub 0x0 mm := Sub.trans (by decide) hm
  have k1 : Sub 0x7fffd000000000000000000e000 mm := Sub.trans (by decide) hm
  have k2 : Sub 0x1000000000000000000000800 mm := Sub.trans (by decide) hm
  have k3 : Sub 0x7ffffffff00000040000000e800 mm := Sub.trans (by decide) hm
  unfold State.setLocks
  repeat' first
    | (intro x; refine Kept.bind (s0 := s0) (m := mm) (x := x) ?_ ?_; subst x; rotate_left; clear_value x; intro _)
    | (intro y; clear_value y)
    | intro _
    | with_reducible assumption
    | with_reducible lift_lets -underBinder
    | with_reducible apply State.each_kept k0
    | with_reducible apply State.when_kept k0
    | with_reducible apply State.logEvent_kept k1
    | with_reducible apply State.islandRunIfLocked_kept k2
    | with_reducible apply State.islandSettle_kept k3
    | with_reducible refine State.setBit_kept ?_ ?_
    | exact Sub.bit (Sub.trans (by decide) hm)
    | with_reducible apply Kept.ite
    | with_reducible split
    | split

theorem State.fromMram_kept {mm : Nat} {s0 s : State} (hm : Sub 0x7fffffffffffffffffffff14002 mm) (h : Kept mm s0 s) : Kept mm s0 (State.fromMram s) := by
  have sets {α : Type} (l : Tbl α) : ∀ t : Tbl α, Tbl.Sorted t → Tbl.Sorted (l.foldl (fun t e => Tbl.set e.1 e.2 t) t) := by
    induction l with
    | nil => exact fun _ ht => ht
    | cons e r ih => exact fun t ht => ih _ (Tbl.sorted_set _ _ ht)
  unfold State.fromMram
  split
  · exact h
  · exact Kept.upd_log (Sub.trans (by decide) hm) (Kept.upd_power (Sub.trans (by decide) hm)
      (Kept.upd_blobs (Sub.trans (by decide) hm) (fun _ => sets _ _ List.Pairwise.nil)
        (Kept.upd_od (fun hs => sets _ _ (Tbl.sorted_filter _ hs))
          (fun k hk => absurd (Sub.from (b := 0) (Sub.trans (by decide) hm) (Nat.zero_le k)) (by simp [hk])) h)))

theorem State.reservesAtReset_kept {mm : Nat} {s0 s : State} (hm : Sub 0x7fffffffffffffffe000000e000 mm) (h : Kept mm s0 s) : Kept mm s0 (State.reservesAtReset s) := by
  have k0 : Sub 0x0 mm := Sub.trans (by decide) hm
  unfold State.reservesAtReset
  repeat' first
    | (intro x; refine Kept.bind (s0 := s0) (m := mm) (x := x) ?_ ?_; subst x; rotate_left; clear_value x; intro _)
    | (intro y; clear_value y)
    | intro _
    | with_reducible assumption
    | with_reducible lift_lets -underBinder
    | with_reducible apply State.each_kept k0
    | with_reducible apply State.reserveLeft_kept hm
    | with_reducible apply Kept.ite
    | with_reducible split
    | split

theorem State.rolesAtReset_kept {mm : Nat} {s0 s : State} {old : State} (hm : Sub 0x7fffffffffffffffe000000e1c0 mm) (h : Kept mm s0 s) : Kept mm s0 (State.rolesAtReset old s) := by
  have k0 : Sub 0x1000000000000000000000 mm := Sub.trans (by decide) hm
  have k1 : Sub 0x0 mm := Sub.trans (by decide) hm
  have k2 : Sub 0x7fffffffff00000000000000100 mm := Sub.trans (by decide) hm
  have k3 : Sub 0x7ffffffffffc000000000000100 mm := Sub.trans (by decide) hm
  have k4 : Sub 0x80 mm := Sub.trans (by decide) hm
  have k5 : Sub 0x7fffffffc000000000000000000 mm := Sub.trans (by decide) hm
  have k6 : Sub 0x7fffffffffffffffe000000e000 mm := Sub.trans (by decide) hm
  have k7 : Sub 0x40 mm := Sub.trans (by decide) hm
  unfold State.rolesAtReset
  repeat' first
    | (intro x; refine Kept.bind (s0 := s0) (m := mm) (x := x) ?_ ?_; subst x; rotate_left; clear_value x; intro _)
    | (intro y; clear_value y)
    | intro _
    | with_reducible assumption
    | with_reducible lift_lets -underBinder
    | with_reducible apply State.syncLanes_kept k0
    | with_reducible apply State.each_kept k1
    | with_reducible apply State.setSlice_kept k2
    | with_reducible apply State.serveWith_kept k3
    | with_reducible apply State.setCore_kept k4
    | with_reducible apply State.syncCore_kept k5
    | with_reducible apply State.reservesAtReset_kept k6
    | with_reducible refine State.wr_kept ?_ ?_
    | exact Sub.bit (Sub.trans (by decide) hm)
    | with_reducible apply Kept.ite
    | with_reducible split
    | split
    | with_reducible apply Kept.upd_fabric k7

theorem State.storeAtReset_kept {mm : Nat} {s0 s : State} {old : State} (hm : Sub 0x280010000 mm) (h : Kept mm s0 s) : Kept mm s0 (State.storeAtReset old s) := by
  have k0 : Sub 0x10000 mm := Sub.trans (by decide) hm
  unfold State.storeAtReset
  repeat' first
    | (intro x; refine Kept.bind (s0 := s0) (m := mm) (x := x) ?_ ?_; subst x; rotate_left; clear_value x; intro _)
    | (intro y; clear_value y)
    | intro _
    | with_reducible assumption
    | with_reducible lift_lets -underBinder
    | with_reducible refine State.setBit_kept ?_ ?_
    | with_reducible refine State.wr_kept ?_ ?_
    | exact Sub.bit (Sub.trans (by decide) hm)
    | with_reducible apply Kept.ite
    | with_reducible split
    | split
    | with_reducible apply Kept.upd_power k0

theorem State.cleared_kept {mm : Nat} {s0 s : State} (hm : Sub 0x7fffffffffffffffffffff7fffe mm) (h : Kept mm s0 s) : Kept mm s0 (State.cleared s) := by
  have k0 : Sub 0x7fffffffffffffffe000000e1c0 mm := Sub.trans (by decide) hm
  have k1 : Sub 0x200000000000000000000000 mm := Sub.trans (by decide) hm
  have h := State.fromMram_kept (Sub.trans (by decide) hm) h
  unfold State.cleared
  generalize State.fromMram s = s at h ⊢
  dsimp only
  apply State.syncLog_kept k1
  apply State.rolesAtReset_kept k0
  apply State.storeAtReset_kept (Sub.trans (by decide) hm)
  apply State.wr_kept (Sub.bit (Sub.trans (by decide) hm))
  have b : ∀ i, i < 19 → i ≠ 0 → mm.testBit i = true := by
    have c : ∀ i, i < 19 → i ≠ 0 → Sub (2 ^ i) 0x7fffffffffffffffffffff7fffe := by decide
    exact fun i hi h0 => Sub.bit (Sub.trans (c i hi h0) hm)
  exact { pending := h.pending, now := h.now, fresh := h.fresh
          canonical := fun c => ⟨Tbl.sorted_filter _ (h.canonical c).1, Tbl.sorted_filter _ (h.canonical c).2⟩
          numbersSame := fun e c => absurd (Sub.from (b := 0) (Sub.trans (by decide) hm) (Nat.zero_le e)) (by simp [c])
          freeSame := h.freeSame
          stringsSame := fun c => absurd (b 1 (by decide) (by decide)) (by simp [c])
          batchesSame := fun c => absurd (b 2 (by decide) (by decide)) (by simp [c])
          fixedSame := fun c => absurd (b 3 (by decide) (by decide)) (by simp [c])
          floatsSame := fun c => absurd (b 4 (by decide) (by decide)) (by simp [c])
          gensSame := fun c => absurd (b 5 (by decide) (by decide)) (by simp [c])
          fabricSame := fun c => absurd (b 6 (by decide) (by decide)) (by simp [c])
          measSame := fun c => absurd (b 7 (by decide) (by decide)) (by simp [c])
          pwmSame := fun c => absurd (b 8 (by decide) (by decide)) (by simp [c])
          linksSame := fun c => absurd (b 9 (by decide) (by decide)) (by simp [c])
          auxSame := fun c => absurd (b 10 (by decide) (by decide)) (by simp [c])
          islandSame := fun c => absurd (b 11 (by decide) (by decide)) (by simp [c])
          clockSame := fun c => absurd (b 12 (by decide) (by decide)) (by simp [c])
          acqSame := fun c => absurd (b 13 (by decide) (by decide)) (by simp [c])
          logSame := fun c => absurd (b 14 (by decide) (by decide)) (by simp [c])
          rackSame := fun c => absurd (b 15 (by decide) (by decide)) (by simp [c])
          powerSame := fun c => absurd (b 16 (by decide) (by decide)) (by simp [c])
          srvSame := fun c => absurd (b 17 (by decide) (by decide)) (by simp [c])
          netSame := fun c => absurd (b 18 (by decide) (by decide)) (by simp [c]) }

theorem State.readSlot_kept {mm : Nat} {s0 s : State} (hm : Sub 0x80000000000 mm) (h : Kept mm s0 s) : Kept mm s0 (State.readSlot s) := by
  unfold State.readSlot
  repeat' first
    | (intro x; refine Kept.bind (s0 := s0) (m := mm) (x := x) ?_ ?_; subst x; rotate_left; clear_value x; intro _)
    | (intro y; clear_value y)
    | intro _
    | with_reducible assumption
    | with_reducible lift_lets -underBinder
    | with_reducible refine State.wr_kept ?_ ?_
    | exact Sub.bit (Sub.trans (by decide) hm)
    | with_reducible apply Kept.ite
    | with_reducible split
    | split

theorem State.restart_kept {mm : Nat} {s0 s : State} {kind : Nat} (hm : Sub 0x7fffffffffffffffffffff7fffe mm) (h : Kept mm s0 s) : Kept mm s0 (State.restart kind s) := by
  have k0 : Sub 0x7fffd000000004000000002e000 mm := Sub.trans (by decide) hm
  have k1 : Sub 0x7fffd000000000000000000e000 mm := Sub.trans (by decide) hm
  have k2 : Sub 0x80000000000 mm := Sub.trans (by decide) hm
  have k3 : Sub 0x0 mm := Sub.trans (by decide) hm
  have k4 : Sub 0x7fffffffffffffffffff0000000 mm := Sub.trans (by decide) hm
  have kz : Sub (2 ^ 107 - 2 ^ (20 + zone 0x21000100)) mm := Sub.trans (by decide) hm
  unfold State.restart
  repeat' first
    | (intro x; refine Kept.bind (s0 := s0) (m := mm) (x := x) ?_ ?_; subst x; rotate_left; clear_value x; intro _)
    | (intro y; clear_value y)
    | intro _
    | with_reducible assumption
    | with_reducible lift_lets -underBinder
    | with_reducible apply State.cleared_kept hm
    | with_reducible apply State.bootImage_kept k0
    | with_reducible apply State.logEvent_kept k1
    | with_reducible apply State.readSlot_kept k2
    | with_reducible apply State.each_kept k3
    | with_reducible apply State.domPower_kept k4
    | with_reducible refine State.inc_kept ?_ ?_
    | with_reducible refine State.wr_kept ?_ ?_
    | exact Sub.bit (Sub.trans (by decide) hm)
    | (refine Sub.from (b := 0x21000100) kz ?_; (try simp only [key, bk, dk]); omega)
    | with_reducible apply Kept.ite
    | with_reducible split
    | split

end Sys2Proof.Machine
end

