-- ==== Sys2Proof/Laws/KeptInstants.lean ====
section
/-! SUPPORT. What the operations of Machine/Instants.lean may change (Safety.lean, Kept): one lemma for each. -/

set_option linter.all false

namespace Sys2Proof.Machine

theorem State.samplePoint_kept {mm : Nat} {s0 s : State} {b : Nat} (hm : Sub 0x7fffffffffffffffe000001e5fe mm) (h : Kept mm s0 s) : Kept mm s0 (State.samplePoint b s) := by
  have k0 : Sub 0x7ffffffffffc00000000000e174 mm := Sub.trans (by decide) hm
  have k1 : Sub 0x4 mm := Sub.trans (by decide) hm
  have k2 : Sub 0x7ffffffff00000040000000e03c mm := Sub.trans (by decide) hm
  have k3 : Sub 0x7ffffffffffc00010000000e13c mm := Sub.trans (by decide) hm
  have k4 : Sub 0x7fffd000000000000000000e000 mm := Sub.trans (by decide) hm
  have k5 : Sub 0x7fffffc00000000000000000044 mm := Sub.trans (by decide) hm
  unfold State.samplePoint
  repeat' first
    | (intro x; refine Kept.bind (s0 := s0) (m := mm) (x := x) ?_ ?_; subst x; rotate_left; clear_value x; intro _)
    | (intro y; clear_value y)
    | intro _
    | with_reducible assumption
    | with_reducible lift_lets -underBinder
    | with_reducible apply State.leftover_kept k0
    | with_reducible apply State.modBatch_kept k1
    | with_reducible apply State.standbyT0_kept k2
    | with_reducible apply State.rackT0_kept k3
    | with_reducible apply State.sampleCore_kept hm
    | with_reducible apply State.batchSource_kept k4
    | with_reducible apply State.inputsDue_kept k4
    | with_reducible apply State.dispatch_kept k5
    | with_reducible apply Kept.ite
    | with_reducible split
    | split

end Sys2Proof.Machine
end

