-- ==== Sys2Proof/Laws/KeptPower.lean ====
section
/-! SUPPORT. What the operations of Machine/Power.lean may change (Safety.lean, Kept): one lemma for each. -/

set_option linter.all false

namespace Sys2Proof.Machine

theorem State.startFail_kept {mm : Nat} {s0 s : State} {code : Nat} (hm : Sub 0x7fffffffffff00000000307e164 mm) (h : Kept mm s0 s) : Kept mm s0 (State.startFail code s) := by
  have k0 : Sub 0x10000 mm := Sub.trans (by decide) hm
  have k1 : Sub 0x20000 mm := Sub.trans (by decide) hm
  have k2 : Sub 0x7fffffffffff00000000306e164 mm := Sub.trans (by decide) hm
  have k3 : Sub 0x7fffd000000000000000000e000 mm := Sub.trans (by decide) hm
  unfold State.startFail
  repeat' first
    | (intro x; refine Kept.bind (s0 := s0) (m := mm) (x := x) ?_ ?_; subst x; rotate_left; clear_value x; intro _)
    | (intro y; clear_value y)
    | intro _
    | with_reducible assumption
    | with_reducible lift_lets -underBinder
    | with_reducible apply State.modPower_kept k0
    | with_reducible apply State.trialFailure_kept k1
    | with_reducible apply State.setMod_kept k2
    | with_reducible apply State.logEvent_kept k3
    | with_reducible refine State.wr_kept ?_ ?_
    | exact Sub.bit (Sub.trans (by decide) hm)
    | with_reducible apply Kept.ite
    | with_reducible split
    | split

theorem State.runModule_kept {mm : Nat} {s0 s : State} (hm : Sub 0x7fffffffffff00000000306e164 mm) (h : Kept mm s0 s) : Kept mm s0 (State.runModule s) := by
  unfold State.runModule
  repeat' first
    | (intro x; refine Kept.bind (s0 := s0) (m := mm) (x := x) ?_ ?_; subst x; rotate_left; clear_value x; intro _)
    | (intro y; clear_value y)
    | intro _
    | with_reducible assumption
    | with_reducible lift_lets -underBinder
    | with_reducible apply State.setMod_kept hm
    | with_reducible apply Kept.ite
    | with_reducible split
    | split

theorem State.finishStart_kept {mm : Nat} {s0 s : State} (hm : Sub 0x7fffffffffffffffffffff7fbfe mm) (h : Kept mm s0 s) : Kept mm s0 (State.finishStart s) := by
  have k0 : Sub 0x10000 mm := Sub.trans (by decide) hm
  have k1 : Sub 0x7fffffffffffffffffffff7f3fe mm := Sub.trans (by decide) hm
  have k2 : Sub 0x7ffffffff00000240000000e800 mm := Sub.trans (by decide) hm
  have k3 : Sub 0x7fffffffffff00000000306e164 mm := Sub.trans (by decide) hm
  have k4 : Sub 0x7ffffffff00000040000000e800 mm := Sub.trans (by decide) hm
  have k5 : Sub 0x1000000000000000000000 mm := Sub.trans (by decide) hm
  unfold State.finishStart
  repeat' first
    | (intro x; refine Kept.bind (s0 := s0) (m := mm) (x := x) ?_ ?_; subst x; rotate_left; clear_value x; intro _)
    | (intro y; clear_value y)
    | intro _
    | with_reducible assumption
    | with_reducible lift_lets -underBinder
    | with_reducible apply State.modPower_kept k0
    | with_reducible apply State.applyStored_kept k1
    | with_reducible apply State.setLocks_kept k2
    | with_reducible apply State.setMod_kept k3
    | with_reducible apply State.islandSettle_kept k4
    | with_reducible apply State.armAdmission_kept k5
    | with_reducible apply State.runModule_kept k3
    | with_reducible refine State.wr_kept ?_ ?_
    | exact Sub.bit (Sub.trans (by decide) hm)
    | with_reducible apply Kept.ite
    | with_reducible split
    | split

theorem domSwitchEff_kept {mm : Nat} {s0 : State} {d : Nat} {v : Int} (hm : Sub 0x7fffffffffffffffffffff7fffe mm) : EffKept mm s0 (domSwitchEff d v) := by
  have k0 : Sub 0x7fffffffffffffffffff002ff86 mm := Sub.trans (by decide) hm
  have k1 : Sub 0x7ffffffff00000040000000e800 mm := Sub.trans (by decide) hm
  have k2 : Sub 0x7fffffffffffffffffffff7fbfe mm := Sub.trans (by decide) hm
  have k3 : Sub 0x7fffffffffffffffffff0000000 mm := Sub.trans (by decide) hm
  have kz : Sub (2 ^ 107 - 2 ^ (20 + zone 0x21010100)) mm := Sub.trans (by decide) hm
  unfold domSwitchEff
  repeat' first
    | (intro x; refine Kept.bind (s0 := s0) (m := mm) (x := x) ?_ ?_; subst x; rotate_left; clear_value x; intro _)
    | (intro y; clear_value y)
    | intro _
    | with_reducible assumption
    | with_reducible lift_lets -underBinder
    | with_reducible apply State.domOff_kept k0
    | with_reducible apply State.islandSettle_kept k1
    | with_reducible apply State.finishStart_kept k2
    | with_reducible apply State.domPower_kept k3
    | with_reducible refine State.wr_kept ?_ ?_
    | exact Sub.bit (Sub.trans (by decide) hm)
    | (refine Sub.from (b := 0x21010100) kz ?_; (try simp only [key, bk, swk]); omega)
    | with_reducible apply Kept.ite
    | with_reducible apply EffKept.ite
    | with_reducible split
    | split
    | (refine ⟨fun s h => ?_⟩; dsimp -zeta only)
    | dsimp -zeta only

theorem State.storedSwitches_kept {mm : Nat} {s0 s : State} (hm : Sub 0x7ffffffffffffffffffe0000000 mm) (h : Kept mm s0 s) : Kept mm s0 (State.storedSwitches s) := by
  have k0 : Sub 0x0 mm := Sub.trans (by decide) hm
  have kz : Sub (2 ^ 107 - 2 ^ (20 + zone 0x21010100)) mm := Sub.trans (by decide) hm
  unfold State.storedSwitches
  repeat' first
    | (intro x; refine Kept.bind (s0 := s0) (m := mm) (x := x) ?_ ?_; subst x; rotate_left; clear_value x; intro _)
    | (intro y; clear_value y)
    | intro _
    | with_reducible assumption
    | with_reducible lift_lets -underBinder
    | with_reducible apply State.each_kept k0
    | with_reducible refine State.wr_kept ?_ ?_
    | exact Sub.bit (Sub.trans (by decide) hm)
    | (refine Sub.from (b := 0x21010100) kz ?_; (try simp only [key, bk, swk]); omega)
    | with_reducible apply Kept.ite
    | with_reducible split
    | split

theorem State.powerRest_kept {mm : Nat} {s0 s : State} (hm : Sub 0x7fffffffffffffffffffff7fbfe mm) (h : Kept mm s0 s) : Kept mm s0 (State.powerRest s) := by
  have k0 : Sub 0x7ffffffffffffffffffe0000000 mm := Sub.trans (by decide) hm
  have k1 : Sub 0x0 mm := Sub.trans (by decide) hm
  have k2 : Sub 0x7fffffffffffffffffff0000000 mm := Sub.trans (by decide) hm
  unfold State.powerRest
  repeat' first
    | (intro x; refine Kept.bind (s0 := s0) (m := mm) (x := x) ?_ ?_; subst x; rotate_left; clear_value x; intro _)
    | (intro y; clear_value y)
    | intro _
    | with_reducible assumption
    | with_reducible lift_lets -underBinder
    | with_reducible apply State.storedSwitches_kept k0
    | with_reducible apply State.each_kept k1
    | with_reducible apply State.domPower_kept k2
    | with_reducible apply State.finishStart_kept hm
    | with_reducible apply Kept.ite
    | with_reducible split
    | split

theorem State.enterProof_kept {mm : Nat} {s0 s : State} (hm : Sub 0x7fffffffffffffffffff307ffe6 mm) (h : Kept mm s0 s) : Kept mm s0 (State.enterProof s) := by
  have k0 : Sub 0x7fffffffffff00000000306e164 mm := Sub.trans (by decide) hm
  have k1 : Sub 0x0 mm := Sub.trans (by decide) hm
  have k2 : Sub 0x7fffffffffffffffffff002ff86 mm := Sub.trans (by decide) hm
  have k3 : Sub 0x10000 mm := Sub.trans (by decide) hm
  have k4 : Sub 0x7ffffffff00000040000000e800 mm := Sub.trans (by decide) hm
  unfold State.enterProof
  repeat' first
    | (intro x; refine Kept.bind (s0 := s0) (m := mm) (x := x) ?_ ?_; subst x; rotate_left; clear_value x; intro _)
    | (intro y; clear_value y)
    | intro _
    | with_reducible assumption
    | with_reducible lift_lets -underBinder
    | with_reducible apply State.setMod_kept k0
    | with_reducible apply State.each_kept k1
    | with_reducible apply State.domOff_kept k2
    | with_reducible apply State.modPower_kept k3
    | with_reducible apply State.islandSettle_kept k4
    | with_reducible refine State.setBit_kept ?_ ?_
    | exact Sub.bit (Sub.trans (by decide) hm)
    | with_reducible apply Kept.ite
    | with_reducible split
    | split

theorem State.leaveInit_kept {mm : Nat} {s0 s : State} (hm : Sub 0x7fffffffffffffffffff307ffe6 mm) (h : Kept mm s0 s) : Kept mm s0 (State.leaveInit s) := by
  have k0 : Sub 0x7fffffffffff00000000307e164 mm := Sub.trans (by decide) hm
  unfold State.leaveInit
  repeat' first
    | (intro x; refine Kept.bind (s0 := s0) (m := mm) (x := x) ?_ ?_; subst x; rotate_left; clear_value x; intro _)
    | (intro y; clear_value y)
    | intro _
    | with_reducible assumption
    | with_reducible lift_lets -underBinder
    | with_reducible apply State.startFail_kept k0
    | with_reducible apply State.enterProof_kept hm
    | with_reducible apply Kept.ite
    | with_reducible split
    | split

theorem State.reenter_kept {mm : Nat} {s0 s : State} (hm : Sub 0x7fffffffffffffffffff307ffe6 mm) (h : Kept mm s0 s) : Kept mm s0 (State.reenter s) := by
  have k0 : Sub 0x7fffd000000004000000202e000 mm := Sub.trans (by decide) hm
  have k1 : Sub 0x7fffffffffff00000000306e164 mm := Sub.trans (by decide) hm
  have k2 : Sub 0x0 mm := Sub.trans (by decide) hm
  have k3 : Sub 0x7fffffffffffffffffff0000000 mm := Sub.trans (by decide) hm
  unfold State.reenter
  repeat' first
    | (intro x; refine Kept.bind (s0 := s0) (m := mm) (x := x) ?_ ?_; subst x; rotate_left; clear_value x; intro _)
    | (intro y; clear_value y)
    | intro _
    | with_reducible assumption
    | with_reducible lift_lets -underBinder
    | with_reducible apply State.trialRetry_kept k0
    | with_reducible apply State.setMod_kept k1
    | with_reducible apply State.each_kept k2
    | with_reducible apply State.domPower_kept k3
    | with_reducible apply State.leaveInit_kept hm
    | with_reducible apply State.enterProof_kept hm
    | with_reducible apply Kept.ite
    | with_reducible split
    | split

theorem State.undoStart_kept {mm : Nat} {s0 s : State} (hm : Sub 0x7fffffffffff00240000306e964 mm) (h : Kept mm s0 s) : Kept mm s0 (State.undoStart s) := by
  have k0 : Sub 0x1000000000000000000000800 mm := Sub.trans (by decide) hm
  have k1 : Sub 0x7fffffffffff00000000306e164 mm := Sub.trans (by decide) hm
  have k2 : Sub 0x7ffffffff00000040000000e800 mm := Sub.trans (by decide) hm
  unfold State.undoStart
  repeat' first
    | (intro x; refine Kept.bind (s0 := s0) (m := mm) (x := x) ?_ ?_; subst x; rotate_left; clear_value x; intro _)
    | (intro y; clear_value y)
    | intro _
    | with_reducible assumption
    | with_reducible lift_lets -underBinder
    | with_reducible apply State.setIsland_kept k0
    | with_reducible apply State.setMod_kept k1
    | with_reducible apply State.islandSettle_kept k2
    | with_reducible refine State.wr_kept ?_ ?_
    | exact Sub.bit (Sub.trans (by decide) hm)
    | with_reducible apply Kept.ite
    | with_reducible split
    | split

theorem State.serviceStart_kept {mm : Nat} {s0 s : State} (hm : Sub 0x7fffffffffff00240000307e964 mm) (h : Kept mm s0 s) : Kept mm s0 (State.serviceStart s) := by
  have k0 : Sub 0x10000 mm := Sub.trans (by decide) hm
  have k1 : Sub 0x7fffd000000000000000000e000 mm := Sub.trans (by decide) hm
  have k2 : Sub 0x0 mm := Sub.trans (by decide) hm
  have k3 : Sub 0x7fffffffffff00240000306e964 mm := Sub.trans (by decide) hm
  unfold State.serviceStart
  repeat' first
    | (intro x; refine Kept.bind (s0 := s0) (m := mm) (x := x) ?_ ?_; subst x; rotate_left; clear_value x; intro _)
    | (intro y; clear_value y)
    | intro _
    | with_reducible assumption
    | with_reducible lift_lets -underBinder
    | with_reducible apply State.modPower_kept k0
    | with_reducible apply State.logEvent_kept k1
    | with_reducible apply State.when_kept k2
    | with_reducible apply State.undoStart_kept k3
    | with_reducible refine State.wr_kept ?_ ?_
    | exact Sub.bit (Sub.trans (by decide) hm)
    | with_reducible apply Kept.ite
    | with_reducible split
    | split

theorem State.domReady_kept {mm : Nat} {s0 s : State} {d : Nat} (hm : Sub 0x7fffffffffffffffffffff7fffe mm) (h : Kept mm s0 s) : Kept mm s0 (State.domReady d s) := by
  have k0 : Sub 0x7fffd000000000000000000e000 mm := Sub.trans (by decide) hm
  have k1 : Sub 0x7ffffffffffffffff880000f380 mm := Sub.trans (by decide) hm
  have k2 : Sub 0x7fffffffffffffffffff307ffe6 mm := Sub.trans (by decide) hm
  have k3 : Sub 0x7fffffffffffffffffffff7fbfe mm := Sub.trans (by decide) hm
  have kz : Sub (2 ^ 107 - 2 ^ (20 + zone 0x21000100)) mm := Sub.trans (by decide) hm
  unfold State.domReady
  repeat' first
    | (intro x; refine Kept.bind (s0 := s0) (m := mm) (x := x) ?_ ?_; subst x; rotate_left; clear_value x; intro _)
    | (intro y; clear_value y)
    | intro _
    | with_reducible assumption
    | with_reducible lift_lets -underBinder
    | with_reducible apply State.logEvent_kept k0
    | with_reducible apply State.domStarts_kept k1
    | with_reducible apply State.leaveInit_kept k2
    | with_reducible apply State.finishStart_kept k3
    | with_reducible refine State.wr_kept ?_ ?_
    | exact Sub.bit (Sub.trans (by decide) hm)
    | (refine Sub.from (b := 0x21000100) kz ?_; (try simp only [key, bk, dk]); omega)
    | with_reducible apply Kept.ite
    | with_reducible split
    | split

theorem State.domFault_kept {mm : Nat} {s0 s : State} {d : Nat} (hm : Sub 0x7fffffffffffffffffff307ffe6 mm) (h : Kept mm s0 s) : Kept mm s0 (State.domFault d s) := by
  have k0 : Sub 0x7fffd000000000000000000e000 mm := Sub.trans (by decide) hm
  have k1 : Sub 0x7ffffffffffffffff080002ff86 mm := Sub.trans (by decide) hm
  have k2 : Sub 0x7fffffffffff00000000307e164 mm := Sub.trans (by decide) hm
  have k3 : Sub 0x7fffffffffff00000000306e164 mm := Sub.trans (by decide) hm
  have kz : Sub (2 ^ 107 - 2 ^ (20 + zone 0x21000100)) mm := Sub.trans (by decide) hm
  unfold State.domFault
  repeat' first
    | (intro x; refine Kept.bind (s0 := s0) (m := mm) (x := x) ?_ ?_; subst x; rotate_left; clear_value x; intro _)
    | (intro y; clear_value y)
    | intro _
    | with_reducible assumption
    | with_reducible lift_lets -underBinder
    | with_reducible apply State.logEvent_kept k0
    | with_reducible apply State.domStops_kept k1
    | with_reducible apply State.startFail_kept k2
    | with_reducible apply State.setMod_kept k3
    | with_reducible refine State.wr_kept ?_ ?_
    | exact Sub.bit (Sub.trans (by decide) hm)
    | (refine Sub.from (b := 0x21000100) kz ?_; (try simp only [key, bk, dk]); omega)
    | with_reducible apply Kept.ite
    | with_reducible split
    | split

theorem State.startCheck_kept {mm : Nat} {s0 s : State} {kind : Nat} {at_ : Time} (hm : Sub 0x200010000 mm) (h : Kept mm s0 s) : Kept mm s0 (State.startCheck kind at_ s) := by
  have k0 : Sub 0x10000 mm := Sub.trans (by decide) hm
  unfold State.startCheck
  repeat' first
    | (intro x; refine Kept.bind (s0 := s0) (m := mm) (x := x) ?_ ?_; subst x; rotate_left; clear_value x; intro _)
    | (intro y; clear_value y)
    | intro _
    | with_reducible assumption
    | with_reducible lift_lets -underBinder
    | with_reducible apply State.modPower_kept k0
    | with_reducible refine State.setBit_kept ?_ ?_
    | exact Sub.bit (Sub.trans (by decide) hm)
    | with_reducible apply Kept.ite
    | with_reducible split
    | split

theorem State.wantCheck_kept {mm : Nat} {s0 s : State} {kind : Nat} (hm : Sub 0x200010000 mm) (h : Kept mm s0 s) : Kept mm s0 (State.wantCheck kind s) := by
  have k0 : Sub 0x10000 mm := Sub.trans (by decide) hm
  unfold State.wantCheck
  repeat' first
    | (intro x; refine Kept.bind (s0 := s0) (m := mm) (x := x) ?_ ?_; subst x; rotate_left; clear_value x; intro _)
    | (intro y; clear_value y)
    | intro _
    | with_reducible assumption
    | with_reducible lift_lets -underBinder
    | with_reducible apply State.modPower_kept k0
    | with_reducible apply State.startCheck_kept hm
    | with_reducible apply Kept.ite
    | with_reducible split
    | split

theorem State.storeCharged_kept {mm : Nat} {s0 s : State} (hm : Sub 0x200010000 mm) (h : Kept mm s0 s) : Kept mm s0 (State.storeCharged s) := by
  have k0 : Sub 0x10000 mm := Sub.trans (by decide) hm
  unfold State.storeCharged
  repeat' first
    | (intro x; refine Kept.bind (s0 := s0) (m := mm) (x := x) ?_ ?_; subst x; rotate_left; clear_value x; intro _)
    | (intro y; clear_value y)
    | intro _
    | with_reducible assumption
    | with_reducible lift_lets -underBinder
    | with_reducible apply State.modPower_kept k0
    | with_reducible apply State.startCheck_kept hm
    | with_reducible apply State.wantCheck_kept hm
    | with_reducible refine State.setBit_kept ?_ ?_
    | with_reducible refine State.wr_kept ?_ ?_
    | exact Sub.bit (Sub.trans (by decide) hm)
    | with_reducible apply Kept.ite
    | with_reducible split
    | split

theorem State.chargeTimeout_kept {mm : Nat} {s0 s : State} (hm : Sub 0x7fffffffffff00000000307e164 mm) (h : Kept mm s0 s) : Kept mm s0 (State.chargeTimeout s) := by
  unfold State.chargeTimeout
  repeat' first
    | (intro x; refine Kept.bind (s0 := s0) (m := mm) (x := x) ?_ ?_; subst x; rotate_left; clear_value x; intro _)
    | (intro y; clear_value y)
    | intro _
    | with_reducible assumption
    | with_reducible lift_lets -underBinder
    | with_reducible apply State.startFail_kept hm
    | with_reducible apply Kept.ite
    | with_reducible split
    | split

theorem State.storeTemperature_kept {mm : Nat} {s0 s : State} {temp : Int} (hm : Sub 0x200000000 mm) (h : Kept mm s0 s) : Kept mm s0 (State.storeTemperature temp s) := by
  unfold State.storeTemperature
  repeat' first
    | (intro x; refine Kept.bind (s0 := s0) (m := mm) (x := x) ?_ ?_; subst x; rotate_left; clear_value x; intro _)
    | (intro y; clear_value y)
    | intro _
    | with_reducible assumption
    | with_reducible lift_lets -underBinder
    | with_reducible apply State.chargerOn_kept hm
    | with_reducible refine State.wr_kept ?_ ?_
    | exact Sub.bit (Sub.trans (by decide) hm)
    | with_reducible apply Kept.ite
    | with_reducible split
    | split

theorem State.storeHot_kept {mm : Nat} {s0 s : State} {temp : Int} (hm : Sub 0x280010000 mm) (h : Kept mm s0 s) : Kept mm s0 (State.storeHot temp s) := by
  have k0 : Sub 0x200000000 mm := Sub.trans (by decide) hm
  have k1 : Sub 0x10000 mm := Sub.trans (by decide) hm
  unfold State.storeHot
  repeat' first
    | (intro x; refine Kept.bind (s0 := s0) (m := mm) (x := x) ?_ ?_; subst x; rotate_left; clear_value x; intro _)
    | (intro y; clear_value y)
    | intro _
    | with_reducible assumption
    | with_reducible lift_lets -underBinder
    | with_reducible apply State.storeTemperature_kept k0
    | with_reducible apply State.modPower_kept k1
    | with_reducible apply State.chargerOn_kept k0
    | with_reducible refine State.inc_kept ?_ ?_
    | with_reducible refine State.setBit_kept ?_ ?_
    | exact Sub.bit (Sub.trans (by decide) hm)
    | with_reducible apply Kept.ite
    | with_reducible split
    | split

theorem State.handoverFailed_kept {mm : Nat} {s0 s : State} (hm : Sub 0x7fffffffffff00000000307e164 mm) (h : Kept mm s0 s) : Kept mm s0 (State.handoverFailed s) := by
  have k0 : Sub 0x10000 mm := Sub.trans (by decide) hm
  have k1 : Sub 0x7fffffffffff00000000306e164 mm := Sub.trans (by decide) hm
  unfold State.handoverFailed
  repeat' first
    | (intro x; refine Kept.bind (s0 := s0) (m := mm) (x := x) ?_ ?_; subst x; rotate_left; clear_value x; intro _)
    | (intro y; clear_value y)
    | intro _
    | with_reducible assumption
    | with_reducible lift_lets -underBinder
    | with_reducible apply State.modPower_kept k0
    | with_reducible apply State.setMod_kept k1
    | with_reducible apply Kept.ite
    | with_reducible split
    | split

theorem State.lowStore_kept {mm : Nat} {s0 s : State} (hm : Sub 0x7fffffffffff00000000307e164 mm) (h : Kept mm s0 s) : Kept mm s0 (State.lowStore s) := by
  have k0 : Sub 0x10000 mm := Sub.trans (by decide) hm
  have k1 : Sub 0x8000 mm := Sub.trans (by decide) hm
  have k2 : Sub 0x7fffffffffff00000000306e164 mm := Sub.trans (by decide) hm
  unfold State.lowStore
  repeat' first
    | (intro x; refine Kept.bind (s0 := s0) (m := mm) (x := x) ?_ ?_; subst x; rotate_left; clear_value x; intro _)
    | (intro y; clear_value y)
    | intro _
    | with_reducible assumption
    | with_reducible lift_lets -underBinder
    | with_reducible apply State.modPower_kept k0
    | with_reducible apply State.askHandover_kept k1
    | with_reducible apply State.setMod_kept k2
    | with_reducible apply Kept.ite
    | with_reducible split
    | split

theorem State.storeHandover_kept {mm : Nat} {s0 s : State} (hm : Sub 0x8000 mm) (h : Kept mm s0 s) : Kept mm s0 (State.storeHandover s) := by
  unfold State.storeHandover
  repeat' first
    | (intro x; refine Kept.bind (s0 := s0) (m := mm) (x := x) ?_ ?_; subst x; rotate_left; clear_value x; intro _)
    | (intro y; clear_value y)
    | intro _
    | with_reducible assumption
    | with_reducible lift_lets -underBinder
    | with_reducible apply State.askHandover_kept hm
    | with_reducible apply Kept.ite
    | with_reducible split
    | split

theorem State.judgeStore_kept {mm : Nat} {s0 s : State} {result eu kind : Nat} (hm : Sub 0x7fffffffffff00000020307e164 mm) (h : Kept mm s0 s) : Kept mm s0 (State.judgeStore result eu kind s) := by
  have k0 : Sub 0x10000 mm := Sub.trans (by decide) hm
  have k1 : Sub 0x7fffffffffff00000000307e164 mm := Sub.trans (by decide) hm
  have k2 : Sub 0x8000 mm := Sub.trans (by decide) hm
  unfold State.judgeStore
  repeat' first
    | (intro x; refine Kept.bind (s0 := s0) (m := mm) (x := x) ?_ ?_; subst x; rotate_left; clear_value x; intro _)
    | (intro y; clear_value y)
    | intro _
    | with_reducible assumption
    | with_reducible lift_lets -underBinder
    | with_reducible apply State.modPower_kept k0
    | with_reducible apply State.lowStore_kept k1
    | with_reducible apply State.storeHandover_kept k2
    | with_reducible refine State.setBit_kept ?_ ?_
    | exact Sub.bit (Sub.trans (by decide) hm)
    | with_reducible apply Kept.ite
    | with_reducible split
    | split

theorem State.checkEnd_kept {mm : Nat} {s0 s : State} {v0 va vb : Nat} (hm : Sub 0x7fffffffffffffffffffffffbfe mm) (h : Kept mm s0 s) : Kept mm s0 (State.checkEnd v0 va vb s) := by
  have k0 : Sub 0x10000 mm := Sub.trans (by decide) hm
  have k1 : Sub 0x80000 mm := Sub.trans (by decide) hm
  have k2 : Sub 0x280010000 mm := Sub.trans (by decide) hm
  have k3 : Sub 0x7fffd000000000000000000e000 mm := Sub.trans (by decide) hm
  have k4 : Sub 0x7fffffffffffffffffffff7fbfe mm := Sub.trans (by decide) hm
  have k5 : Sub 0x7fffffffffff00000000307e164 mm := Sub.trans (by decide) hm
  have k6 : Sub 0x7fffffffffff00000020307e164 mm := Sub.trans (by decide) hm
  unfold State.checkEnd
  repeat' first
    | (intro x; refine Kept.bind (s0 := s0) (m := mm) (x := x) ?_ ?_; subst x; rotate_left; clear_value x; intro _)
    | (intro y; have w_ : Nat × State := y; clear w_)
    | (intro y; clear_value y)
    | intro _
    | with_reducible assumption
    | with_reducible lift_lets -underBinder
    | with_reducible apply State.modPower_kept k0
    | with_reducible apply State.draw_kept k1
    | with_reducible apply State.storeHot_kept k2
    | with_reducible apply State.logEvent_kept k3
    | with_reducible apply State.powerRest_kept k4
    | with_reducible apply State.startFail_kept k5
    | with_reducible apply State.judgeStore_kept k6
    | with_reducible refine State.inc_kept ?_ ?_
    | with_reducible refine State.setBit_kept ?_ ?_
    | with_reducible refine State.wr_kept ?_ ?_
    | exact Sub.bit (Sub.trans (by decide) hm)
    | with_reducible apply Kept.ite
    | with_reducible split
    | split
    | with_reducible refine Kept.snd (by assumption) ?_
    | with_reducible refine Kept.fst (by assumption) ?_

theorem State.proofInterval_kept {mm : Nat} {s0 s : State} (hm : Sub 0x200010000 mm) (h : Kept mm s0 s) : Kept mm s0 (State.proofInterval s) := by
  unfold State.proofInterval
  repeat' first
    | (intro x; refine Kept.bind (s0 := s0) (m := mm) (x := x) ?_ ?_; subst x; rotate_left; clear_value x; intro _)
    | (intro y; clear_value y)
    | intro _
    | with_reducible assumption
    | with_reducible lift_lets -underBinder
    | with_reducible apply State.wantCheck_kept hm
    | with_reducible apply Kept.ite
    | with_reducible split
    | split

theorem State.proofRepeat_kept {mm : Nat} {s0 s : State} (hm : Sub 0x200010000 mm) (h : Kept mm s0 s) : Kept mm s0 (State.proofRepeat s) := by
  have k0 : Sub 0x10000 mm := Sub.trans (by decide) hm
  unfold State.proofRepeat
  repeat' first
    | (intro x; refine Kept.bind (s0 := s0) (m := mm) (x := x) ?_ ?_; subst x; rotate_left; clear_value x; intro _)
    | (intro y; clear_value y)
    | intro _
    | with_reducible assumption
    | with_reducible lift_lets -underBinder
    | with_reducible apply State.modPower_kept k0
    | with_reducible apply State.wantCheck_kept hm
    | with_reducible apply Kept.ite
    | with_reducible split
    | split

theorem moduleEff_kept {mm : Nat} {s0 : State} {f : State → Nat × State} (hm : Sub 0x2000000 mm) (hf : ∀ s : State, Kept mm s0 s → Kept mm s0 (f s).2) : EffKept mm s0 (moduleEff f) := by
  have k0 : Sub 0x0 mm := Sub.trans (by decide) hm
  unfold moduleEff
  repeat' first
    | (intro x; refine Kept.bind (s0 := s0) (m := mm) (x := x) ?_ ?_; subst x; rotate_left; clear_value x; intro _)
    | (intro y; clear_value y)
    | intro _
    | with_reducible assumption
    | with_reducible lift_lets -underBinder
    | with_reducible apply hf
    | with_reducible apply State.answer_kept k0
    | with_reducible refine State.wr_kept ?_ ?_
    | exact Sub.bit (Sub.trans (by decide) hm)
    | with_reducible apply Kept.ite
    | with_reducible apply EffKept.ite
    | with_reducible split
    | split
    | with_reducible refine Kept.snd (by assumption) ?_
    | with_reducible refine Kept.fst (by assumption) ?_
    | (refine ⟨fun s h => ?_⟩; dsimp -zeta only)
    | dsimp -zeta only

theorem State.ifState_kept {mm : Nat} {s0 s : State} {c : State → Bool} {f : State → State} (hm : Sub 0x0 mm) (hf : ∀ (s : State), Kept mm s0 s → Kept mm s0 (f s)) (h : Kept mm s0 s) : Kept mm s0 (State.ifState c f s).2 := by
  unfold State.ifState
  repeat' first
    | (intro x; refine Kept.bind (s0 := s0) (m := mm) (x := x) ?_ ?_; subst x; rotate_left; clear_value x; intro _)
    | (intro y; clear_value y)
    | intro _
    | with_reducible assumption
    | with_reducible lift_lets -underBinder
    | with_reducible apply hf
    | with_reducible apply Kept.ite
    | with_reducible split
    | split

theorem configureEff_kept {mm : Nat} {s0 : State} (hm : Sub 0x7fffffffffff00000000306e164 mm) : EffKept mm s0 configureEff := by
  have k0 : Sub 0x2000000 mm := Sub.trans (by decide) hm
  have k1 : Sub 0x0 mm := Sub.trans (by decide) hm
  unfold configureEff
  repeat' first
    | (intro x; refine Kept.bind (s0 := s0) (m := mm) (x := x) ?_ ?_; subst x; rotate_left; clear_value x; intro _)
    | (intro y; have w_ : Nat × State := y; clear w_)
    | (intro y; clear_value y)
    | intro _
    | with_reducible assumption
    | with_reducible lift_lets -underBinder
    | with_reducible apply (moduleEff_kept k0).all
    | with_reducible apply moduleEff_kept k0
    | with_reducible apply State.ifState_kept k1
    | with_reducible apply State.setMod_kept hm
    | with_reducible apply Kept.ite
    | with_reducible apply EffKept.ite
    | with_reducible split
    | split
    | with_reducible refine Kept.snd (by assumption) ?_
    | with_reducible refine Kept.fst (by assumption) ?_
    | (refine ⟨fun s h => ?_⟩; dsimp -zeta only)
    | dsimp -zeta only

theorem State.armModule_kept {mm : Nat} {s0 s : State} (hm : Sub 0x7fffffffffff00000000306e164 mm) (h : Kept mm s0 s) : Kept mm s0 (State.armModule s).2 := by
  have k0 : Sub 0x1000000000000000000000 mm := Sub.trans (by decide) hm
  unfold State.armModule
  repeat' first
    | (intro x; refine Kept.bind (s0 := s0) (m := mm) (x := x) ?_ ?_; subst x; rotate_left; clear_value x; intro _)
    | (intro y; clear_value y)
    | intro _
    | with_reducible assumption
    | with_reducible lift_lets -underBinder
    | with_reducible apply State.armAdmission_kept k0
    | with_reducible apply State.setMod_kept hm
    | with_reducible refine State.wr_kept ?_ ?_
    | exact Sub.bit (Sub.trans (by decide) hm)
    | with_reducible apply Kept.ite
    | with_reducible split
    | split

theorem armModuleEff_kept {mm : Nat} {s0 : State} (hm : Sub 0x7fffffffffff00000000306e164 mm) : EffKept mm s0 armModuleEff := by
  have k0 : Sub 0x2000000 mm := Sub.trans (by decide) hm
  unfold armModuleEff
  repeat' first
    | (intro x; refine Kept.bind (s0 := s0) (m := mm) (x := x) ?_ ?_; subst x; rotate_left; clear_value x; intro _)
    | (intro y; have w_ : Nat × State := y; clear w_)
    | (intro y; clear_value y)
    | intro _
    | with_reducible assumption
    | with_reducible lift_lets -underBinder
    | with_reducible apply (moduleEff_kept k0).all
    | with_reducible apply moduleEff_kept k0
    | with_reducible apply State.armModule_kept hm
    | with_reducible apply Kept.ite
    | with_reducible apply EffKept.ite
    | with_reducible split
    | split
    | with_reducible refine Kept.snd (by assumption) ?_
    | with_reducible refine Kept.fst (by assumption) ?_
    | (refine ⟨fun s h => ?_⟩; dsimp -zeta only)
    | dsimp -zeta only

theorem runEff_kept {mm : Nat} {s0 : State} (hm : Sub 0x7fffffffffff00000000306e164 mm) : EffKept mm s0 runEff := by
  have k0 : Sub 0x2000000 mm := Sub.trans (by decide) hm
  have k1 : Sub 0x0 mm := Sub.trans (by decide) hm
  unfold runEff
  repeat' first
    | (intro x; refine Kept.bind (s0 := s0) (m := mm) (x := x) ?_ ?_; subst x; rotate_left; clear_value x; intro _)
    | (intro y; have w_ : Nat × State := y; clear w_)
    | (intro y; clear_value y)
    | intro _
    | with_reducible assumption
    | with_reducible lift_lets -underBinder
    | with_reducible apply (moduleEff_kept k0).all
    | with_reducible apply moduleEff_kept k0
    | with_reducible apply State.ifState_kept k1
    | with_reducible apply State.runModule_kept hm
    | with_reducible apply Kept.ite
    | with_reducible apply EffKept.ite
    | with_reducible split
    | split
    | with_reducible refine Kept.snd (by assumption) ?_
    | with_reducible refine Kept.fst (by assumption) ?_
    | (refine ⟨fun s h => ?_⟩; dsimp -zeta only)
    | dsimp -zeta only

theorem safeHoldEff_kept {mm : Nat} {s0 : State} (hm : Sub 0x7fffffffffff00000000306e164 mm) : EffKept mm s0 safeHoldEff := by
  have k0 : Sub 0x2000000 mm := Sub.trans (by decide) hm
  have k1 : Sub 0x0 mm := Sub.trans (by decide) hm
  unfold safeHoldEff
  repeat' first
    | (intro x; refine Kept.bind (s0 := s0) (m := mm) (x := x) ?_ ?_; subst x; rotate_left; clear_value x; intro _)
    | (intro y; have w_ : Nat × State := y; clear w_)
    | (intro y; clear_value y)
    | intro _
    | with_reducible assumption
    | with_reducible lift_lets -underBinder
    | with_reducible apply (moduleEff_kept k0).all
    | with_reducible apply moduleEff_kept k0
    | with_reducible apply State.ifState_kept k1
    | with_reducible apply State.setMod_kept hm
    | with_reducible apply Kept.ite
    | with_reducible apply EffKept.ite
    | with_reducible split
    | split
    | with_reducible refine Kept.snd (by assumption) ?_
    | with_reducible refine Kept.fst (by assumption) ?_
    | (refine ⟨fun s h => ?_⟩; dsimp -zeta only)
    | dsimp -zeta only

theorem restartEff_kept {mm : Nat} {s0 : State} (hm : Sub 0x7fffffffffffffffffff307ffe6 mm) : EffKept mm s0 restartEff := by
  have k0 : Sub 0x2000000 mm := Sub.trans (by decide) hm
  have k1 : Sub 0x0 mm := Sub.trans (by decide) hm
  unfold restartEff
  repeat' first
    | (intro x; refine Kept.bind (s0 := s0) (m := mm) (x := x) ?_ ?_; subst x; rotate_left; clear_value x; intro _)
    | (intro y; have w_ : Nat × State := y; clear w_)
    | (intro y; clear_value y)
    | intro _
    | with_reducible assumption
    | with_reducible lift_lets -underBinder
    | with_reducible apply (moduleEff_kept k0).all
    | with_reducible apply moduleEff_kept k0
    | with_reducible apply State.ifState_kept k1
    | with_reducible apply State.enterProof_kept hm
    | with_reducible apply Kept.ite
    | with_reducible apply EffKept.ite
    | with_reducible split
    | split
    | with_reducible refine Kept.snd (by assumption) ?_
    | with_reducible refine Kept.fst (by assumption) ?_
    | (refine ⟨fun s h => ?_⟩; dsimp -zeta only)
    | dsimp -zeta only

theorem retryEff_kept {mm : Nat} {s0 : State} (hm : Sub 0x7fffffffffffffffffff307ffe6 mm) : EffKept mm s0 retryEff := by
  have k0 : Sub 0x2000000 mm := Sub.trans (by decide) hm
  have k1 : Sub 0x0 mm := Sub.trans (by decide) hm
  unfold retryEff
  repeat' first
    | (intro x; refine Kept.bind (s0 := s0) (m := mm) (x := x) ?_ ?_; subst x; rotate_left; clear_value x; intro _)
    | (intro y; have w_ : Nat × State := y; clear w_)
    | (intro y; clear_value y)
    | intro _
    | with_reducible assumption
    | with_reducible lift_lets -underBinder
    | with_reducible apply (moduleEff_kept k0).all
    | with_reducible apply moduleEff_kept k0
    | with_reducible apply State.ifState_kept k1
    | with_reducible apply State.reenter_kept hm
    | with_reducible apply Kept.ite
    | with_reducible apply EffKept.ite
    | with_reducible split
    | split
    | with_reducible refine Kept.snd (by assumption) ?_
    | with_reducible refine Kept.fst (by assumption) ?_
    | (refine ⟨fun s h => ?_⟩; dsimp -zeta only)
    | dsimp -zeta only

theorem proofNowEff_kept {mm : Nat} {s0 : State} (hm : Sub 0x202010000 mm) : EffKept mm s0 proofNowEff := by
  have k0 : Sub 0x2000000 mm := Sub.trans (by decide) hm
  have k1 : Sub 0x0 mm := Sub.trans (by decide) hm
  have k2 : Sub 0x200010000 mm := Sub.trans (by decide) hm
  unfold proofNowEff
  repeat' first
    | (intro x; refine Kept.bind (s0 := s0) (m := mm) (x := x) ?_ ?_; subst x; rotate_left; clear_value x; intro _)
    | (intro y; have w_ : Nat × State := y; clear w_)
    | (intro y; clear_value y)
    | intro _
    | with_reducible assumption
    | with_reducible lift_lets -underBinder
    | with_reducible apply (moduleEff_kept k0).all
    | with_reducible apply moduleEff_kept k0
    | with_reducible apply State.ifState_kept k1
    | with_reducible apply State.wantCheck_kept k2
    | with_reducible apply Kept.ite
    | with_reducible apply EffKept.ite
    | with_reducible split
    | split
    | with_reducible refine Kept.snd (by assumption) ?_
    | with_reducible refine Kept.fst (by assumption) ?_
    | (refine ⟨fun s h => ?_⟩; dsimp -zeta only)
    | dsimp -zeta only

theorem configStoreEff_kept {mm : Nat} {s0 : State} (hm : Sub 0x60a0000 mm) : EffKept mm s0 configStoreEff := by
  have k0 : Sub 0x20000 mm := Sub.trans (by decide) hm
  have k1 : Sub 0x40a0000 mm := Sub.trans (by decide) hm
  have k2 : Sub 0x0 mm := Sub.trans (by decide) hm
  unfold configStoreEff
  repeat' first
    | (intro x; refine Kept.bind (s0 := s0) (m := mm) (x := x) ?_ ?_; subst x; rotate_left; clear_value x; intro _)
    | (intro y; clear_value y)
    | intro _
    | with_reducible assumption
    | with_reducible lift_lets -underBinder
    | with_reducible apply State.modSrv_kept k0
    | with_reducible apply State.startLong_kept k1
    | with_reducible apply State.answer_kept k2
    | with_reducible refine State.wr_kept ?_ ?_
    | exact Sub.bit (Sub.trans (by decide) hm)
    | with_reducible apply Kept.ite
    | with_reducible apply EffKept.ite
    | with_reducible split
    | split
    | (refine ⟨fun s h => ?_⟩; dsimp -zeta only)
    | dsimp -zeta only

theorem selfTestEff_kept {mm : Nat} {s0 : State} (hm : Sub 0x60a0000 mm) : EffKept mm s0 selfTestEff := by
  have k0 : Sub 0x40a0000 mm := Sub.trans (by decide) hm
  have k1 : Sub 0x0 mm := Sub.trans (by decide) hm
  unfold selfTestEff
  repeat' first
    | (intro x; refine Kept.bind (s0 := s0) (m := mm) (x := x) ?_ ?_; subst x; rotate_left; clear_value x; intro _)
    | (intro y; clear_value y)
    | intro _
    | with_reducible assumption
    | with_reducible lift_lets -underBinder
    | with_reducible apply State.startLong_kept k0
    | with_reducible apply State.answer_kept k1
    | with_reducible refine State.wr_kept ?_ ?_
    | exact Sub.bit (Sub.trans (by decide) hm)
    | with_reducible apply Kept.ite
    | with_reducible apply EffKept.ite
    | with_reducible split
    | split
    | (refine ⟨fun s h => ?_⟩; dsimp -zeta only)
    | dsimp -zeta only

theorem commandOf_kept {mm : Nat} {s0 : State} {c : Nat} (hm : Sub 0x7fffffffffffffffffff70fffe6 mm) : EffKept mm s0 (commandOf c) := by
  have k0 : Sub 0x7fffffffffff00000000306e164 mm := Sub.trans (by decide) hm
  have k1 : Sub 0x7fffffffffffffffffff307ffe6 mm := Sub.trans (by decide) hm
  have k2 : Sub 0x60a0000 mm := Sub.trans (by decide) hm
  have k3 : Sub 0x202010000 mm := Sub.trans (by decide) hm
  unfold commandOf
  repeat' first
    | (intro x; refine Kept.bind (s0 := s0) (m := mm) (x := x) ?_ ?_; subst x; rotate_left; clear_value x; intro _)
    | (intro y; clear_value y)
    | intro _
    | with_reducible assumption
    | with_reducible lift_lets -underBinder
    | with_reducible apply (configureEff_kept k0).all
    | with_reducible apply configureEff_kept k0
    | with_reducible apply (armModuleEff_kept k0).all
    | with_reducible apply armModuleEff_kept k0
    | with_reducible apply (runEff_kept k0).all
    | with_reducible apply runEff_kept k0
    | with_reducible apply (safeHoldEff_kept k0).all
    | with_reducible apply safeHoldEff_kept k0
    | with_reducible apply (restartEff_kept k1).all
    | with_reducible apply restartEff_kept k1
    | with_reducible apply (configStoreEff_kept k2).all
    | with_reducible apply configStoreEff_kept k2
    | with_reducible apply (selfTestEff_kept k2).all
    | with_reducible apply selfTestEff_kept k2
    | with_reducible apply (retryEff_kept k1).all
    | with_reducible apply retryEff_kept k1
    | with_reducible apply (proofNowEff_kept k3).all
    | with_reducible apply proofNowEff_kept k3
    | with_reducible apply Kept.ite
    | with_reducible apply EffKept.ite
    | with_reducible split
    | split
    | (refine ⟨fun s h => ?_⟩; dsimp -zeta only)
    | dsimp -zeta only

theorem State.moduleCommand_kept {mm : Nat} {s0 s : State} {q : Req} {c : Nat} (hm : Sub 0x7fffffffffffffffffff70fffe6 mm) (h : Kept mm s0 s) : Kept mm s0 (State.moduleCommand q c s) := by
  have k0 : Sub 0x7fffffc0000000000000002e004 mm := Sub.trans (by decide) hm
  unfold State.moduleCommand
  repeat' first
    | (intro x; refine Kept.bind (s0 := s0) (m := mm) (x := x) ?_ ?_; subst x; rotate_left; clear_value x; intro _)
    | (intro y; clear_value y)
    | intro _
    | with_reducible assumption
    | with_reducible lift_lets -underBinder
    | with_reducible apply State.hostWrite_kept k0
    | with_reducible apply (commandOf_kept hm).all
    | with_reducible apply commandOf_kept hm
    | with_reducible apply Kept.ite
    | with_reducible split
    | split

theorem State.storeComplete_kept {mm : Nat} {s0 s : State} (hm : Sub 0x400000000000000000004038000 mm) (h : Kept mm s0 s) : Kept mm s0 (State.storeComplete s) := by
  have k0 : Sub 0x10000 mm := Sub.trans (by decide) hm
  have k1 : Sub 0x20000 mm := Sub.trans (by decide) hm
  have k2 : Sub 0x0 mm := Sub.trans (by decide) hm
  have k3 : Sub 0x4028000 mm := Sub.trans (by decide) hm
  have kz : Sub (2 ^ 107 - 2 ^ (20 + zone 0x80000b00)) mm := Sub.trans (by decide) hm
  unfold State.storeComplete
  repeat' first
    | (intro x; refine Kept.bind (s0 := s0) (m := mm) (x := x) ?_ ?_; subst x; rotate_left; clear_value x; intro _)
    | (intro y; clear_value y)
    | intro _
    | with_reducible assumption
    | with_reducible lift_lets -underBinder
    | with_reducible apply State.modPower_kept k0
    | with_reducible apply State.modSrv_kept k1
    | with_reducible apply State.each_kept k2
    | with_reducible apply State.endLong_kept k3
    | with_reducible refine State.wr_kept ?_ ?_
    | exact Sub.bit (Sub.trans (by decide) hm)
    | (refine Sub.from (b := 0x80000b00) kz ?_; (try simp only [key, bk]); omega)
    | with_reducible apply Kept.ite
    | with_reducible split
    | split

theorem State.beginService_kept {mm : Nat} {s0 s : State} {phase : Nat} (hm : Sub 0x200010000 mm) (h : Kept mm s0 s) : Kept mm s0 (State.beginService phase s) := by
  have k0 : Sub 0x10000 mm := Sub.trans (by decide) hm
  unfold State.beginService
  repeat' first
    | (intro x; refine Kept.bind (s0 := s0) (m := mm) (x := x) ?_ ?_; subst x; rotate_left; clear_value x; intro _)
    | (intro y; clear_value y)
    | intro _
    | with_reducible assumption
    | with_reducible lift_lets -underBinder
    | with_reducible apply State.modPower_kept k0
    | with_reducible refine State.inc_kept ?_ ?_
    | exact Sub.bit (Sub.trans (by decide) hm)
    | with_reducible apply Kept.ite
    | with_reducible split
    | split

theorem State.supplyLoss_kept {mm : Nat} {s0 s : State} {mv : Nat} (hm : Sub 0x7fffffffffff00040028307e966 mm) (h : Kept mm s0 s) : Kept mm s0 (State.supplyLoss mv s) := by
  have k0 : Sub 0x10000 mm := Sub.trans (by decide) hm
  have k1 : Sub 0x200000000 mm := Sub.trans (by decide) hm
  have k2 : Sub 0x7fffd000000000000000000e000 mm := Sub.trans (by decide) hm
  have k3 : Sub 0x7ffffffff00000040000000e800 mm := Sub.trans (by decide) hm
  have k4 : Sub 0x200010000 mm := Sub.trans (by decide) hm
  have k5 : Sub 0x7fff1000000000000000000a002 mm := Sub.trans (by decide) hm
  have k6 : Sub 0x8000 mm := Sub.trans (by decide) hm
  have k7 : Sub 0x7fffffffffff00000000306e164 mm := Sub.trans (by decide) hm
  unfold State.supplyLoss
  repeat' first
    | (intro x; refine Kept.bind (s0 := s0) (m := mm) (x := x) ?_ ?_; subst x; rotate_left; clear_value x; intro _)
    | (intro y; clear_value y)
    | intro _
    | with_reducible assumption
    | with_reducible lift_lets -underBinder
    | with_reducible apply State.modPower_kept k0
    | with_reducible apply State.chargerOn_kept k1
    | with_reducible apply State.logEvent_kept k2
    | with_reducible apply State.freezeEnd_kept k2
    | with_reducible apply State.islandSettle_kept k3
    | with_reducible apply State.beginService_kept k4
    | with_reducible apply State.captureStops_kept k5
    | with_reducible apply State.askHandover_kept k6
    | with_reducible apply State.setMod_kept k7
    | with_reducible refine State.inc_kept ?_ ?_
    | with_reducible refine State.wr_kept ?_ ?_
    | exact Sub.bit (Sub.trans (by decide) hm)
    | with_reducible apply Kept.ite
    | with_reducible split
    | split

theorem State.phase2_kept {mm : Nat} {s0 s : State} (hm : Sub 0x7fffffffffffffffffff307ffe6 mm) (h : Kept mm s0 s) : Kept mm s0 (State.phase2 s) := by
  have k0 : Sub 0x10000 mm := Sub.trans (by decide) hm
  have k1 : Sub 0x7fffffffffff00000000306e164 mm := Sub.trans (by decide) hm
  have k2 : Sub 0x0 mm := Sub.trans (by decide) hm
  have k3 : Sub 0x7fffffffffffffffffff002ff86 mm := Sub.trans (by decide) hm
  have k4 : Sub 0x7fff1000000000000000000a002 mm := Sub.trans (by decide) hm
  have k5 : Sub 0x7ffffffff00000040000000e800 mm := Sub.trans (by decide) hm
  unfold State.phase2
  repeat' first
    | (intro x; refine Kept.bind (s0 := s0) (m := mm) (x := x) ?_ ?_; subst x; rotate_left; clear_value x; intro _)
    | (intro y; clear_value y)
    | intro _
    | with_reducible assumption
    | with_reducible lift_lets -underBinder
    | with_reducible apply State.modPower_kept k0
    | with_reducible apply State.setMod_kept k1
    | with_reducible apply State.each_kept k2
    | with_reducible apply State.domOff_kept k3
    | with_reducible apply State.captureStops_kept k4
    | with_reducible apply State.islandSettle_kept k5
    | with_reducible apply Kept.ite
    | with_reducible split
    | split

theorem State.park_kept {mm : Nat} {s0 s : State} (hm : Sub 0x7fffffffffffffffffffffffffe mm) (h : Kept mm s0 s) : Kept mm s0 (State.park s) := by
  have k0 : Sub 0x80000 mm := Sub.trans (by decide) hm
  have k1 : Sub 0x200000000000000000004000 mm := Sub.trans (by decide) hm
  have k2 : Sub 0x7fffd000000000000000000e000 mm := Sub.trans (by decide) hm
  have k3 : Sub 0x0 mm := Sub.trans (by decide) hm
  have k4 : Sub 0x7fffffffffffffffffff002ff86 mm := Sub.trans (by decide) hm
  have k5 : Sub 0x10000 mm := Sub.trans (by decide) hm
  have k6 : Sub 0x7ffffffff00000040000000e800 mm := Sub.trans (by decide) hm
  have k7 : Sub 0x7fffffffffffffffffffff7fffe mm := Sub.trans (by decide) hm
  unfold State.park
  repeat' first
    | (intro x; refine Kept.bind (s0 := s0) (m := mm) (x := x) ?_ ?_; subst x; rotate_left; clear_value x; intro _)
    | (intro y; have w_ : Nat × State := y; clear w_)
    | (intro y; clear_value y)
    | intro _
    | with_reducible assumption
    | with_reducible lift_lets -underBinder
    | with_reducible apply State.draw_kept k0
    | with_reducible apply State.commitAll_kept k1
    | with_reducible apply State.logEvent_kept k2
    | with_reducible apply State.each_kept k3
    | with_reducible apply State.domOff_kept k4
    | with_reducible apply State.modPower_kept k5
    | with_reducible apply State.islandSettle_kept k6
    | with_reducible apply State.restart_kept k7
    | with_reducible refine State.wr_kept ?_ ?_
    | exact Sub.bit (Sub.trans (by decide) hm)
    | with_reducible apply Kept.ite
    | with_reducible split
    | split
    | with_reducible refine Kept.snd (by assumption) ?_
    | with_reducible refine Kept.fst (by assumption) ?_

theorem State.supplyPresent_kept {mm : Nat} {s0 s : State} {mv : Nat} (hm : Sub 0x7fffffffffffffffffffff7fffe mm) (h : Kept mm s0 s) : Kept mm s0 (State.supplyPresent mv s) := by
  have k0 : Sub 0x10000 mm := Sub.trans (by decide) hm
  have k1 : Sub 0x200000000 mm := Sub.trans (by decide) hm
  unfold State.supplyPresent
  repeat' first
    | (intro x; refine Kept.bind (s0 := s0) (m := mm) (x := x) ?_ ?_; subst x; rotate_left; clear_value x; intro _)
    | (intro y; clear_value y)
    | intro _
    | with_reducible assumption
    | with_reducible lift_lets -underBinder
    | with_reducible apply State.modPower_kept k0
    | with_reducible apply State.restart_kept hm
    | with_reducible apply State.chargerOn_kept k1
    | with_reducible refine State.wr_kept ?_ ?_
    | exact Sub.bit (Sub.trans (by decide) hm)
    | with_reducible apply Kept.ite
    | with_reducible split
    | split

theorem State.darken_kept {mm : Nat} {s0 s : State} (hm : Sub 0x7fffffffffffffffffffff7fffe mm) (h : Kept mm s0 s) : Kept mm s0 (State.darken s) := by
  have k0 : Sub 0x10000 mm := Sub.trans (by decide) hm
  have kz : Sub (2 ^ 107 - 2 ^ (20 + zone 0x21000100)) mm := Sub.trans (by decide) hm
  unfold State.darken
  repeat' first
    | (intro x; refine Kept.bind (s0 := s0) (m := mm) (x := x) ?_ ?_; subst x; rotate_left; clear_value x; intro _)
    | (intro y; clear_value y)
    | intro _
    | with_reducible assumption
    | with_reducible lift_lets -underBinder
    | with_reducible apply State.cleared_kept hm
    | with_reducible refine State.wr_kept ?_ ?_
    | exact Sub.bit (Sub.trans (by decide) hm)
    | (refine Sub.from (b := 0x21000100) kz ?_; (try simp only [key, bk, dk, mdk]); omega)
    | with_reducible apply Kept.ite
    | with_reducible split
    | split
    | with_reducible apply Kept.upd_power k0

theorem State.powerOn_kept {mm : Nat} {s0 s : State} {mv : Nat} (hm : Sub 0x7fffffffffffffffffffff7fffe mm) (h : Kept mm s0 s) : Kept mm s0 (State.powerOn mv s) := by
  have k0 : Sub 0x10000 mm := Sub.trans (by decide) hm
  unfold State.powerOn
  repeat' first
    | (intro x; refine Kept.bind (s0 := s0) (m := mm) (x := x) ?_ ?_; subst x; rotate_left; clear_value x; intro _)
    | (intro y; clear_value y)
    | intro _
    | with_reducible assumption
    | with_reducible lift_lets -underBinder
    | with_reducible apply State.modPower_kept k0
    | with_reducible apply State.restart_kept hm
    | with_reducible refine State.wr_kept ?_ ?_
    | exact Sub.bit (Sub.trans (by decide) hm)
    | with_reducible apply Kept.ite
    | with_reducible split
    | split

theorem State.inrushTimeout_kept {mm : Nat} {s0 s : State} (hm : Sub 0x10000 mm) (h : Kept mm s0 s) : Kept mm s0 (State.inrushTimeout s) := by
  unfold State.inrushTimeout
  repeat' first
    | (intro x; refine Kept.bind (s0 := s0) (m := mm) (x := x) ?_ ?_; subst x; rotate_left; clear_value x; intro _)
    | (intro y; clear_value y)
    | intro _
    | with_reducible assumption
    | with_reducible lift_lets -underBinder
    | with_reducible apply State.modPower_kept hm
    | with_reducible apply Kept.ite
    | with_reducible split
    | split

theorem State.inrushRetry_kept {mm : Nat} {s0 s : State} (hm : Sub 0x80010000 mm) (h : Kept mm s0 s) : Kept mm s0 (State.inrushRetry s) := by
  have k0 : Sub 0x10000 mm := Sub.trans (by decide) hm
  unfold State.inrushRetry
  repeat' first
    | (intro x; refine Kept.bind (s0 := s0) (m := mm) (x := x) ?_ ?_; subst x; rotate_left; clear_value x; intro _)
    | (intro y; clear_value y)
    | intro _
    | with_reducible assumption
    | with_reducible lift_lets -underBinder
    | with_reducible apply State.modPower_kept k0
    | with_reducible refine State.inc_kept ?_ ?_
    | exact Sub.bit (Sub.trans (by decide) hm)
    | with_reducible apply Kept.ite
    | with_reducible split
    | split

theorem State.insertion_kept {mm : Nat} {s0 s : State} {slot msel : Nat} (hm : Sub 0x7fffffffffffffffffff307ffe6 mm) (h : Kept mm s0 s) : Kept mm s0 (State.insertion slot msel s) := by
  have k0 : Sub 0x10000 mm := Sub.trans (by decide) hm
  have k1 : Sub 0x80000000000 mm := Sub.trans (by decide) hm
  have k2 : Sub 0x7fffd000000000000000000e000 mm := Sub.trans (by decide) hm
  have k3 : Sub 0x0 mm := Sub.trans (by decide) hm
  have k4 : Sub 0x7fffffffffffffffffff0000000 mm := Sub.trans (by decide) hm
  have k5 : Sub 0x7ffffffff00000040000000e800 mm := Sub.trans (by decide) hm
  unfold State.insertion
  repeat' first
    | (intro x; refine Kept.bind (s0 := s0) (m := mm) (x := x) ?_ ?_; subst x; rotate_left; clear_value x; intro _)
    | (intro y; clear_value y)
    | intro _
    | with_reducible assumption
    | with_reducible lift_lets -underBinder
    | with_reducible apply State.modPower_kept k0
    | with_reducible apply State.readSlot_kept k1
    | with_reducible apply State.logEvent_kept k2
    | with_reducible apply State.each_kept k3
    | with_reducible apply State.domPower_kept k4
    | with_reducible apply State.leaveInit_kept hm
    | with_reducible apply State.islandSettle_kept k5
    | with_reducible apply Kept.ite
    | with_reducible split
    | split

theorem State.removalCoast_kept {mm : Nat} {s0 s : State} {b : Nat} (hm : Sub 0x7ffffffffffc00000000000e124 mm) (h : Kept mm s0 s) : Kept mm s0 (State.removalCoast b s) := by
  unfold State.removalCoast
  repeat' first
    | (intro x; refine Kept.bind (s0 := s0) (m := mm) (x := x) ?_ ?_; subst x; rotate_left; clear_value x; intro _)
    | (intro y; clear_value y)
    | intro _
    | with_reducible assumption
    | with_reducible lift_lets -underBinder
    | with_reducible apply State.islanded_kept hm
    | with_reducible apply State.disconnected_kept hm
    | with_reducible apply Kept.ite
    | with_reducible split
    | split

theorem State.safeToRemove_kept {mm : Nat} {s0 s : State} (hm : Sub 0x7fffffffffffffffffff003ffa6 mm) (h : Kept mm s0 s) : Kept mm s0 (State.safeToRemove s) := by
  have k0 : Sub 0x10000 mm := Sub.trans (by decide) hm
  have k1 : Sub 0x8000 mm := Sub.trans (by decide) hm
  have k2 : Sub 0x0 mm := Sub.trans (by decide) hm
  have k3 : Sub 0x7ffffffffffc000000000000104 mm := Sub.trans (by decide) hm
  have k4 : Sub 0x7ffffffff00000040000000e800 mm := Sub.trans (by decide) hm
  have k5 : Sub 0x7ffffffffffc00000000000e124 mm := Sub.trans (by decide) hm
  have k6 : Sub 0x200000000000000000004000 mm := Sub.trans (by decide) hm
  have k7 : Sub 0x7fffffffffffffffffff002ff86 mm := Sub.trans (by decide) hm
  unfold State.safeToRemove
  repeat' first
    | (intro x; refine Kept.bind (s0 := s0) (m := mm) (x := x) ?_ ?_; subst x; rotate_left; clear_value x; intro _)
    | (intro y; clear_value y)
    | intro _
    | with_reducible assumption
    | with_reducible lift_lets -underBinder
    | with_reducible apply State.modPower_kept k0
    | with_reducible apply State.modRack_kept k1
    | with_reducible apply State.each_kept k2
    | with_reducible apply State.pulseBlock_kept k3
    | with_reducible apply State.islandSettle_kept k4
    | with_reducible apply State.removalCoast_kept k5
    | with_reducible apply State.commitAll_kept k6
    | with_reducible apply State.domOff_kept k7
    | with_reducible apply State.msg_kept k2
    | with_reducible apply Kept.ite
    | with_reducible split
    | split

theorem State.removalProgress_kept {mm : Nat} {s0 s : State} (hm : Sub 0x7fffffffffffffffffff003ffa6 mm) (h : Kept mm s0 s) : Kept mm s0 (State.removalProgress s) := by
  have k0 : Sub 0x0 mm := Sub.trans (by decide) hm
  unfold State.removalProgress
  repeat' first
    | (intro x; refine Kept.bind (s0 := s0) (m := mm) (x := x) ?_ ?_; subst x; rotate_left; clear_value x; intro _)
    | (intro y; clear_value y)
    | intro _
    | with_reducible assumption
    | with_reducible lift_lets -underBinder
    | with_reducible apply State.msg_kept k0
    | with_reducible apply State.safeToRemove_kept hm
    | with_reducible apply Kept.ite
    | with_reducible split
    | split

theorem State.leverOpened_kept {mm : Nat} {s0 s : State} (hm : Sub 0x7fffffffffffffffffff307ffe6 mm) (h : Kept mm s0 s) : Kept mm s0 (State.leverOpened s) := by
  have k0 : Sub 0x10000 mm := Sub.trans (by decide) hm
  have k1 : Sub 0x7fffffffffff00000000306e164 mm := Sub.trans (by decide) hm
  have k2 : Sub 0x7fffd000000000000000000e000 mm := Sub.trans (by decide) hm
  have k3 : Sub 0x7fffffffffffffffffff003ffa6 mm := Sub.trans (by decide) hm
  have k4 : Sub 0x8000 mm := Sub.trans (by decide) hm
  unfold State.leverOpened
  repeat' first
    | (intro x; refine Kept.bind (s0 := s0) (m := mm) (x := x) ?_ ?_; subst x; rotate_left; clear_value x; intro _)
    | (intro y; clear_value y)
    | intro _
    | with_reducible assumption
    | with_reducible lift_lets -underBinder
    | with_reducible apply State.modPower_kept k0
    | with_reducible apply State.setMod_kept k1
    | with_reducible apply State.logEvent_kept k2
    | with_reducible apply State.safeToRemove_kept k3
    | with_reducible apply State.askHandover_kept k4
    | with_reducible apply State.askBridges_kept k4
    | with_reducible apply State.removalProgress_kept k3
    | with_reducible apply Kept.ite
    | with_reducible split
    | split

theorem State.removalTimeout_kept {mm : Nat} {s0 s : State} (hm : Sub 0x7fffffffffffffffffff003ffa6 mm) (h : Kept mm s0 s) : Kept mm s0 (State.removalTimeout s) := by
  unfold State.removalTimeout
  repeat' first
    | (intro x; refine Kept.bind (s0 := s0) (m := mm) (x := x) ?_ ?_; subst x; rotate_left; clear_value x; intro _)
    | (intro y; clear_value y)
    | intro _
    | with_reducible assumption
    | with_reducible lift_lets -underBinder
    | with_reducible apply State.safeToRemove_kept hm
    | with_reducible apply Kept.ite
    | with_reducible split
    | split

theorem State.withdrawn_kept {mm : Nat} {s0 s : State} (hm : Sub 0x7fffffffffffffffffff307ffe6 mm) (h : Kept mm s0 s) : Kept mm s0 (State.withdrawn s) := by
  have k0 : Sub 0x7fffffffffff00000000306e164 mm := Sub.trans (by decide) hm
  have k1 : Sub 0x7fffd000000000000000000e000 mm := Sub.trans (by decide) hm
  have k2 : Sub 0x10000 mm := Sub.trans (by decide) hm
  have k3 : Sub 0x200010000 mm := Sub.trans (by decide) hm
  unfold State.withdrawn
  repeat' first
    | (intro x; refine Kept.bind (s0 := s0) (m := mm) (x := x) ?_ ?_; subst x; rotate_left; clear_value x; intro _)
    | (intro y; clear_value y)
    | intro _
    | with_reducible assumption
    | with_reducible lift_lets -underBinder
    | with_reducible apply State.setMod_kept k0
    | with_reducible apply State.logEvent_kept k1
    | with_reducible apply State.modPower_kept k2
    | with_reducible apply State.beginService_kept k3
    | with_reducible apply State.freezeEnd_kept k1
    | with_reducible apply State.phase2_kept hm
    | with_reducible apply Kept.ite
    | with_reducible split
    | split

end Sys2Proof.Machine
end

