-- ==== Sys2Proof/Laws/KeptRepair.lean ====
section
/-! SUPPORT. What the operations of Machine/Repair.lean may change (Safety.lean, Kept): one lemma for each. -/

set_option linter.all false

namespace Sys2Proof.Machine

theorem State.replaceUnit_kept {mm : Nat} {s0 s : State} {p : Nat} (hm : Sub 0x7fffffffffffffffffff307ffe6 mm) (h : Kept mm s0 s) : Kept mm s0 (State.replaceUnit p s) := by
  have k0 : Sub 0x10000 mm := Sub.trans (by decide) hm
  have k1 : Sub 0x20000010000 mm := Sub.trans (by decide) hm
  have k2 : Sub 0x7fffd000000000000000000e000 mm := Sub.trans (by decide) hm
  have k3 : Sub 0x7fffffffffffffffe000000e000 mm := Sub.trans (by decide) hm
  have k4 : Sub 0x0 mm := Sub.trans (by decide) hm
  unfold State.replaceUnit
  repeat' first
    | (intro x; refine Kept.bind (s0 := s0) (m := mm) (x := x) ?_ ?_; subst x; rotate_left; clear_value x; intro _)
    | (intro y; clear_value y)
    | intro _
    | with_reducible assumption
    | with_reducible lift_lets -underBinder
    | with_reducible apply State.modPower_kept k0
    | with_reducible apply State.retireRecord_kept k1
    | with_reducible apply State.logEvent_kept k2
    | with_reducible apply State.reserveLeft_kept k3
    | with_reducible apply State.each_kept k4
    | with_reducible apply State.domFault_kept hm
    | with_reducible apply Kept.ite
    | with_reducible split
    | split

theorem State.correctedIn_kept {mm : Nat} {s0 s : State} {mem : Nat} {u : MemUnit} (hm : Sub 0x10000 mm) (h : Kept mm s0 s) : Kept mm s0 (State.correctedIn mem u s) := by
  unfold State.correctedIn
  repeat' first
    | (intro x; refine Kept.bind (s0 := s0) (m := mm) (x := x) ?_ ?_; subst x; rotate_left; clear_value x; intro _)
    | (intro y; clear_value y)
    | intro _
    | with_reducible assumption
    | with_reducible lift_lets -underBinder
    | with_reducible apply State.modPower_kept hm
    | with_reducible apply Kept.ite
    | with_reducible split
    | split

theorem State.scrubPass_kept {mm : Nat} {s0 s : State} {mem : Nat} {errs : List MemUnit} (hm : Sub 0x7fffffffffffffffffff307ffe6 mm) (h : Kept mm s0 s) : Kept mm s0 (State.scrubPass mem errs s) := by
  have k0 : Sub 0x0 mm := Sub.trans (by decide) hm
  have k1 : Sub 0x10000 mm := Sub.trans (by decide) hm
  unfold State.scrubPass
  repeat' first
    | (intro x; refine Kept.bind (s0 := s0) (m := mm) (x := x) ?_ ?_; subst x; rotate_left; clear_value x; intro _)
    | (intro y; clear_value y)
    | intro _
    | with_reducible assumption
    | with_reducible lift_lets -underBinder
    | with_reducible apply State.each_kept k0
    | with_reducible apply State.replaceUnit_kept hm
    | with_reducible apply State.correctedIn_kept k1
    | with_reducible refine State.inc_kept ?_ ?_
    | exact Sub.bit (Sub.trans (by decide) hm)
    | with_reducible apply Kept.ite
    | with_reducible split
    | split

theorem State.uncorrectable_kept {mm : Nat} {s0 s : State} {mem addr : Nat} {u : MemUnit} {cycle : Option Nat} (hm : Sub 0x7fffffffffffffffffff307fff6 mm) (h : Kept mm s0 s) : Kept mm s0 (State.uncorrectable mem addr u cycle s) := by
  have k0 : Sub 0x7fffd000000000000000000e000 mm := Sub.trans (by decide) hm
  have k1 : Sub 0x10000 mm := Sub.trans (by decide) hm
  have k2 : Sub 0x7ffffffffffc000000000000154 mm := Sub.trans (by decide) hm
  have k3 : Sub 0x7fffffc00000000000000000004 mm := Sub.trans (by decide) hm
  have k4 : Sub 0x7ffffffffffc00000000000e124 mm := Sub.trans (by decide) hm
  have k5 : Sub 0x10000000000000000002000 mm := Sub.trans (by decide) hm
  have k6 : Sub 0x7ffffffff00000040000000e800 mm := Sub.trans (by decide) hm
  have k7 : Sub 0x0 mm := Sub.trans (by decide) hm
  have k8 : Sub 0x7fffffffffffffffffff307ffe6 mm := Sub.trans (by decide) hm
  have kz : Sub (2 ^ 107 - 2 ^ (20 + zone 0x40130400)) mm := Sub.trans (by decide) hm
  unfold State.uncorrectable
  repeat' first
    | (intro x; refine Kept.bind (s0 := s0) (m := mm) (x := x) ?_ ?_; subst x; rotate_left; clear_value x; intro _)
    | (intro y; clear_value y)
    | intro _
    | with_reducible assumption
    | with_reducible lift_lets -underBinder
    | with_reducible apply State.logEvent_kept k0
    | with_reducible apply State.modPower_kept k1
    | with_reducible apply State.dropCycle_kept k2
    | with_reducible apply State.demand_kept k3
    | with_reducible apply State.faultReaction_kept k4
    | with_reducible apply State.captureError_kept k5
    | with_reducible apply State.islandFault_kept k6
    | with_reducible apply State.each_kept k7
    | with_reducible apply State.domFault_kept k8
    | with_reducible refine State.inc_kept ?_ ?_
    | exact Sub.bit (Sub.trans (by decide) hm)
    | (refine Sub.from (b := 0x40130400) kz ?_; (try simp only [key, bk]); omega)
    | with_reducible apply Kept.ite
    | with_reducible split
    | split

theorem State.retirePhysical_kept {mm : Nat} {s0 s : State} {j cause : Nat} (hm : Sub 0x7fffffffffffffffe000001e080 mm) (h : Kept mm s0 s) : Kept mm s0 (State.retirePhysical j cause s) := by
  have k0 : Sub 0x80 mm := Sub.trans (by decide) hm
  have k1 : Sub 0x7fffffffc000000000000000000 mm := Sub.trans (by decide) hm
  have k2 : Sub 0x20000010000 mm := Sub.trans (by decide) hm
  have k3 : Sub 0x7fffffffffffffffe000000e000 mm := Sub.trans (by decide) hm
  unfold State.retirePhysical
  repeat' first
    | (intro x; refine Kept.bind (s0 := s0) (m := mm) (x := x) ?_ ?_; subst x; rotate_left; clear_value x; intro _)
    | (intro y; clear_value y)
    | intro _
    | with_reducible assumption
    | with_reducible lift_lets -underBinder
    | with_reducible apply State.retireCore_kept hm
    | with_reducible apply State.setCore_kept k0
    | with_reducible apply State.syncCore_kept k1
    | with_reducible apply State.retireRecord_kept k2
    | with_reducible apply State.reserveLeft_kept k3
    | with_reducible apply Kept.ite
    | with_reducible split
    | split

theorem State.retireKind_kept {mm : Nat} {s0 s : State} {kind inst cause : Nat} (hm : Sub 0x7fffffffffffffffe000009e1e4 mm) (h : Kept mm s0 s) : Kept mm s0 (State.retireKind kind inst cause s) := by
  have k0 : Sub 0x7fffffffffffffffe000009e164 mm := Sub.trans (by decide) hm
  have k1 : Sub 0x7fffffffffffffffe000001e164 mm := Sub.trans (by decide) hm
  have k2 : Sub 0x7fffffffffffffffe000001e080 mm := Sub.trans (by decide) hm
  have k3 : Sub 0x10000 mm := Sub.trans (by decide) hm
  unfold State.retireKind
  repeat' first
    | (intro x; refine Kept.bind (s0 := s0) (m := mm) (x := x) ?_ ?_; subst x; rotate_left; clear_value x; intro _)
    | (intro y; clear_value y)
    | intro _
    | with_reducible assumption
    | with_reducible lift_lets -underBinder
    | with_reducible apply State.retireLane_kept k0
    | with_reducible apply State.retireSlice_kept k1
    | with_reducible apply State.retirePhysical_kept k2
    | with_reducible apply State.modPower_kept k3
    | with_reducible apply Kept.ite
    | with_reducible split
    | split

theorem State.selfTestComplete_kept {mm : Nat} {s0 s : State} {failed : List (Nat × Nat)} (hm : Sub 0x7fffffffffffffffe00040be1e4 mm) (h : Kept mm s0 s) : Kept mm s0 (State.selfTestComplete failed s) := by
  have k0 : Sub 0x0 mm := Sub.trans (by decide) hm
  have k1 : Sub 0x7fffffffffffffffe000009e1e4 mm := Sub.trans (by decide) hm
  have k2 : Sub 0x4028000 mm := Sub.trans (by decide) hm
  unfold State.selfTestComplete
  repeat' first
    | (intro x; refine Kept.bind (s0 := s0) (m := mm) (x := x) ?_ ?_; subst x; rotate_left; clear_value x; intro _)
    | (intro y; clear_value y)
    | intro _
    | with_reducible assumption
    | with_reducible lift_lets -underBinder
    | with_reducible apply State.each_kept k0
    | with_reducible apply State.retireKind_kept k1
    | with_reducible apply State.endLong_kept k2
    | with_reducible apply Kept.ite
    | with_reducible split
    | split

theorem State.junction_kept {mm : Nat} {s0 s : State} {d : Nat} {temp : Int} (hm : Sub 0x80010000 mm) (h : Kept mm s0 s) : Kept mm s0 (State.junction d temp s) := by
  have k0 : Sub 0x10000 mm := Sub.trans (by decide) hm
  unfold State.junction
  repeat' first
    | (intro x; refine Kept.bind (s0 := s0) (m := mm) (x := x) ?_ ?_; subst x; rotate_left; clear_value x; intro _)
    | (intro y; clear_value y)
    | intro _
    | with_reducible assumption
    | with_reducible lift_lets -underBinder
    | with_reducible apply State.modPower_kept k0
    | with_reducible refine State.wr_kept ?_ ?_
    | exact Sub.bit (Sub.trans (by decide) hm)
    | with_reducible apply Kept.ite
    | with_reducible split
    | split
    | with_reducible apply Kept.foldl_snd
    | with_reducible apply Kept.foldl_fst
    | with_reducible apply Kept.foldl

theorem State.thermalBit_kept {mm : Nat} {s0 s : State} {i : Nat} {v : Bool} (hm : Sub 0x80000000 mm) (h : Kept mm s0 s) : Kept mm s0 (State.thermalBit i v s) := by
  unfold State.thermalBit
  repeat' first
    | (intro x; refine Kept.bind (s0 := s0) (m := mm) (x := x) ?_ ?_; subst x; rotate_left; clear_value x; intro _)
    | (intro y; clear_value y)
    | intro _
    | with_reducible assumption
    | with_reducible lift_lets -underBinder
    | with_reducible refine State.inc_kept ?_ ?_
    | with_reducible refine State.setBit_kept ?_ ?_
    | exact Sub.bit (Sub.trans (by decide) hm)
    | with_reducible apply Kept.ite
    | with_reducible split
    | split

theorem State.junctionWarning_kept {mm : Nat} {s0 s : State} {d : Nat} {temp : Int} (hm : Sub 0x80010000 mm) (h : Kept mm s0 s) : Kept mm s0 (State.junctionWarning d temp s) := by
  have k0 : Sub 0x10000 mm := Sub.trans (by decide) hm
  have k1 : Sub 0x80000000 mm := Sub.trans (by decide) hm
  unfold State.junctionWarning
  repeat' first
    | (intro x; refine Kept.bind (s0 := s0) (m := mm) (x := x) ?_ ?_; subst x; rotate_left; clear_value x; intro _)
    | (intro y; clear_value y)
    | intro _
    | with_reducible assumption
    | with_reducible lift_lets -underBinder
    | with_reducible apply State.junction_kept hm
    | with_reducible apply State.modPower_kept k0
    | with_reducible apply State.thermalBit_kept k1
    | with_reducible apply Kept.ite
    | with_reducible split
    | split

theorem State.junctionFault_kept {mm : Nat} {s0 s : State} {d : Nat} {temp : Int} (hm : Sub 0x7fffffffffffffffffff307ffe6 mm) (h : Kept mm s0 s) : Kept mm s0 (State.junctionFault d temp s) := by
  have k0 : Sub 0x80010000 mm := Sub.trans (by decide) hm
  have k1 : Sub 0x10000 mm := Sub.trans (by decide) hm
  have k2 : Sub 0x80000000 mm := Sub.trans (by decide) hm
  unfold State.junctionFault
  repeat' first
    | (intro x; refine Kept.bind (s0 := s0) (m := mm) (x := x) ?_ ?_; subst x; rotate_left; clear_value x; intro _)
    | (intro y; clear_value y)
    | intro _
    | with_reducible assumption
    | with_reducible lift_lets -underBinder
    | with_reducible apply State.junctionWarning_kept k0
    | with_reducible apply State.modPower_kept k1
    | with_reducible apply State.thermalBit_kept k2
    | with_reducible apply State.domFault_kept hm
    | with_reducible apply Kept.ite
    | with_reducible split
    | split

end Sys2Proof.Machine
end

