-- ==== Sys2Proof/Laws/KeptSettings.lean ====
section
/-! SUPPORT. What the operations of Machine/Settings.lean may change (Safety.lean, Kept): one lemma for each. -/

set_option linter.all false

namespace Sys2Proof.Machine

theorem judged_kept {mm : Nat} {s0 : State} {e : Eff} {post : State → Nat} (hm : Sub 0x0 mm) (he : EffKept mm s0 e) : EffKept mm s0 (judged e post) := by
  unfold judged
  repeat' first
    | (intro x; refine Kept.bind (s0 := s0) (m := mm) (x := x) ?_ ?_; subst x; rotate_left; clear_value x; intro _)
    | (intro y; clear_value y)
    | intro _
    | with_reducible assumption
    | with_reducible lift_lets -underBinder
    | with_reducible apply he.all
    | with_reducible exact he
    | with_reducible apply Kept.ite
    | with_reducible apply EffKept.ite
    | with_reducible split
    | split
    | (refine ⟨fun s h => ?_⟩; dsimp -zeta only)
    | dsimp -zeta only

theorem allEff_kept {mm : Nat} {s0 : State} {l : List Eff} (_ : Sub 0x0 mm) (hl : EffsKept mm s0 l) :
    EffKept mm s0 (allEff l) := by
  refine ⟨fun s h => ?_⟩
  unfold allEff
  dsimp only
  obtain ⟨hl⟩ := hl
  induction l generalizing s with
  | nil => exact h
  | cons e r ih => exact ih _ ((hl e List.mem_cons_self).all s h) (fun e he => hl e (List.mem_cons_of_mem _ he))

theorem State.retimed_kept {mm : Nat} {s0 s : State} {cs : List Nat} {bs : List Nat} (hm : Sub 0x7ffffffff000000000000000004 mm) (h : Kept mm s0 s) : Kept mm s0 (State.retimed cs s bs) := by
  have k0 : Sub 0x0 mm := Sub.trans (by decide) hm
  have k1 : Sub 0x7fffffffe000000000000000000 mm := Sub.trans (by decide) hm
  have k2 : Sub 0x7ffffffff000000000000000000 mm := Sub.trans (by decide) hm
  have k3 : Sub 0x7fffffc00000000000000000004 mm := Sub.trans (by decide) hm
  unfold State.retimed
  repeat' first
    | (intro x; refine Kept.bind (s0 := s0) (m := mm) (x := x) ?_ ?_; subst x; rotate_left; clear_value x; intro _)
    | (intro y; have w_ : Nat × State := y; clear w_)
    | (intro y; clear_value y)
    | intro _
    | with_reducible assumption
    | with_reducible lift_lets -underBinder
    | with_reducible apply State.each_kept k0
    | with_reducible apply State.syncChain_kept k1
    | with_reducible apply State.syncTimeline_kept k2
    | with_reducible apply State.runAdmission_kept k3
    | with_reducible apply Kept.ite
    | with_reducible split
    | split
    | with_reducible refine Kept.snd (by assumption) ?_
    | with_reducible refine Kept.fst (by assumption) ?_

theorem State.syncDetectors_kept {mm : Nat} {s0 s : State} {c : Nat} (hm : Sub 0x7ffffff80000000000000000080 mm) (h : Kept mm s0 s) : Kept mm s0 (State.syncDetectors c s) := by
  have k0 : Sub 0x0 mm := Sub.trans (by decide) hm
  have k1 : Sub 0x80 mm := Sub.trans (by decide) hm
  have kz : Sub (2 ^ 107 - 2 ^ (20 + zone 0x51000c00)) mm := Sub.trans (by decide) hm
  unfold State.syncDetectors
  repeat' first
    | (intro x; refine Kept.bind (s0 := s0) (m := mm) (x := x) ?_ ?_; subst x; rotate_left; clear_value x; intro _)
    | (intro y; clear_value y)
    | intro _
    | with_reducible assumption
    | with_reducible lift_lets -underBinder
    | with_reducible apply State.each_kept k0
    | with_reducible apply State.setSfd_kept k1
    | with_reducible refine State.wr_kept ?_ ?_
    | exact Sub.bit (Sub.trans (by decide) hm)
    | (refine Sub.from (b := 0x51000c00) kz ?_; (try simp only [key, bk]); omega)
    | with_reducible apply Kept.ite
    | with_reducible split
    | split

theorem chainEff_kept {mm : Nat} {s0 : State} {c sub : Nat} {v : Int} (hm : Sub 0x7ffffffff00000000000000e084 mm) : EffKept mm s0 (chainEff c sub v) := by
  have k0 : Sub 0x7fffffffe00000000000000e080 mm := Sub.trans (by decide) hm
  have k1 : Sub 0x7fffffffe000000000000000080 mm := Sub.trans (by decide) hm
  have k2 : Sub 0x0 mm := Sub.trans (by decide) hm
  have k3 : Sub 0x7ffffffff000000000000000004 mm := Sub.trans (by decide) hm
  have k4 : Sub 0x7ffffff80000000000000000080 mm := Sub.trans (by decide) hm
  have kz : Sub (2 ^ 107 - 2 ^ (20 + zone 0x50000000)) mm := Sub.trans (by decide) hm
  unfold chainEff
  repeat' first
    | (intro x; refine Kept.bind (s0 := s0) (m := mm) (x := x) ?_ ?_; subst x; rotate_left; clear_value x; intro _)
    | (intro y; clear_value y)
    | intro _
    | with_reducible assumption
    | with_reducible lift_lets -underBinder
    | with_reducible apply (enableEff_kept k0).all
    | with_reducible apply enableEff_kept k0
    | with_reducible apply (chainSwapEff_kept k1).all
    | with_reducible apply chainSwapEff_kept k1
    | with_reducible apply (windowEff_kept k1).all
    | with_reducible apply windowEff_kept k1
    | with_reducible apply (judged_kept k2).all
    | with_reducible apply judged_kept k2
    | with_reducible apply State.retimed_kept k3
    | with_reducible apply State.dropAverage_kept k1
    | with_reducible apply State.syncFollow_kept k1
    | with_reducible apply State.syncTracker_kept k1
    | with_reducible apply State.syncDetectors_kept k4
    | with_reducible refine State.wr_kept ?_ ?_
    | exact Sub.bit (Sub.trans (by decide) hm)
    | (refine Sub.from (b := 0x50000000) kz ?_; (try simp only [key, bk, ck]); omega)
    | with_reducible apply Kept.ite
    | with_reducible apply EffKept.ite
    | with_reducible split
    | split
    | (refine ⟨fun s h => ?_⟩; dsimp -zeta only)
    | dsimp -zeta only

theorem modClockEff_kept {mm : Nat} {s0 : State} {sub : Nat} {v : Int} (hm : Sub 0x7fffffffffffffffffffff00004 mm) : EffKept mm s0 (modClockEff sub v) := by
  have k0 : Sub 0x7ffffffff000000000000000004 mm := Sub.trans (by decide) hm
  have k1 : Sub 0x7fffffffffffffffffffff00000 mm := Sub.trans (by decide) hm
  have kz : Sub (2 ^ 107 - 2 ^ (20 + zone 0x50920000)) mm := Sub.trans (by decide) hm
  unfold modClockEff
  repeat' first
    | (intro x; refine Kept.bind (s0 := s0) (m := mm) (x := x) ?_ ?_; subst x; rotate_left; clear_value x; intro _)
    | (intro y; clear_value y)
    | intro _
    | with_reducible assumption
    | with_reducible lift_lets -underBinder
    | with_reducible apply State.retimed_kept k0
    | with_reducible apply (plainEff_kept k1).all
    | with_reducible apply plainEff_kept k1
    | with_reducible refine State.wr_kept ?_ ?_
    | exact Sub.bit (Sub.trans (by decide) hm)
    | (refine Sub.from (b := 0x50920000) kz ?_; (try simp only [key, bk]); omega)
    | with_reducible apply Kept.ite
    | with_reducible apply EffKept.ite
    | with_reducible split
    | split
    | (refine ⟨fun s h => ?_⟩; dsimp -zeta only)
    | dsimp -zeta only

theorem State.pairChanged_kept {mm : Nat} {s0 s : State} {p sub : Nat} {old : Int} (hm : Sub 0x7fffffffe00000000000000e080 mm) (h : Kept mm s0 s) : Kept mm s0 (State.pairChanged p sub old s) := by
  have k0 : Sub 0x80 mm := Sub.trans (by decide) hm
  have k1 : Sub 0x7ffffffe0000000000000000080 mm := Sub.trans (by decide) hm
  have k2 : Sub 0x0 mm := Sub.trans (by decide) hm
  have k3 : Sub 0x7ffffffe0000000000000000000 mm := Sub.trans (by decide) hm
  unfold State.pairChanged
  repeat' first
    | (intro x; refine Kept.bind (s0 := s0) (m := mm) (x := x) ?_ ?_; subst x; rotate_left; clear_value x; intro _)
    | (intro y; clear_value y)
    | intro _
    | with_reducible assumption
    | with_reducible lift_lets -underBinder
    | with_reducible apply State.modPair_kept k0
    | with_reducible apply State.endSuspension_kept k1
    | with_reducible apply State.each_kept k2
    | with_reducible apply State.syncLoss_kept hm
    | with_reducible apply State.syncPair_kept k3
    | with_reducible apply Kept.ite
    | with_reducible split
    | split

theorem pairEff_kept {mm : Nat} {s0 : State} {p sub : Nat} {v : Int} (hm : Sub 0x7fffffffffffffffffffff0e084 mm) : EffKept mm s0 (pairEff p sub v) := by
  have k0 : Sub 0x7ffffffe0000000000000000080 mm := Sub.trans (by decide) hm
  have k1 : Sub 0x7fffffffffffffffffffff00000 mm := Sub.trans (by decide) hm
  have k2 : Sub 0x0 mm := Sub.trans (by decide) hm
  have k3 : Sub 0x7ffffffff000000000000000004 mm := Sub.trans (by decide) hm
  have k4 : Sub 0x7fffffffe00000000000000e080 mm := Sub.trans (by decide) hm
  have kz : Sub (2 ^ 107 - 2 ^ (20 + zone 0x50980000)) mm := Sub.trans (by decide) hm
  unfold pairEff
  repeat' first
    | (intro x; refine Kept.bind (s0 := s0) (m := mm) (x := x) ?_ ?_; subst x; rotate_left; clear_value x; intro _)
    | (intro y; clear_value y)
    | intro _
    | with_reducible assumption
    | with_reducible lift_lets -underBinder
    | with_reducible apply (clearFaultEff_kept k0).all
    | with_reducible apply clearFaultEff_kept k0
    | with_reducible apply (plainEff_kept k1).all
    | with_reducible apply plainEff_kept k1
    | with_reducible apply (judged_kept k2).all
    | with_reducible apply judged_kept k2
    | with_reducible apply State.retimed_kept k3
    | with_reducible apply State.pairChanged_kept k4
    | with_reducible refine State.wr_kept ?_ ?_
    | exact Sub.bit (Sub.trans (by decide) hm)
    | (refine Sub.from (b := 0x50980000) kz ?_; (try simp only [key, bk, pk]); omega)
    | with_reducible apply Kept.ite
    | with_reducible apply EffKept.ite
    | with_reducible split
    | split
    | (refine ⟨fun s h => ?_⟩; dsimp -zeta only)
    | dsimp -zeta only

theorem testDacEff_kept {mm : Nat} {s0 : State} {p sub : Nat} {v : Int} (hm : Sub 0x7ffffffc0000000000000080080 mm) : EffKept mm s0 (testDacEff p sub v) := by
  have k0 : Sub 0x7ffffffc0000000000000000080 mm := Sub.trans (by decide) hm
  have k1 : Sub 0x7ffffffc0000000000000000000 mm := Sub.trans (by decide) hm
  have k2 : Sub 0x80000 mm := Sub.trans (by decide) hm
  have kz : Sub (2 ^ 107 - 2 ^ (20 + zone 0x50a00100)) mm := Sub.trans (by decide) hm
  unfold testDacEff
  repeat' first
    | (intro x; refine Kept.bind (s0 := s0) (m := mm) (x := x) ?_ ?_; subst x; rotate_left; clear_value x; intro _)
    | (intro y; have w_ : Nat × State := y; clear w_)
    | (intro y; clear_value y)
    | intro _
    | with_reducible assumption
    | with_reducible lift_lets -underBinder
    | with_reducible apply (dacEff_kept k0).all
    | with_reducible apply dacEff_kept k0
    | with_reducible apply (pathEff_kept k1).all
    | with_reducible apply pathEff_kept k1
    | with_reducible apply State.draw_kept k2
    | with_reducible refine State.wr_kept ?_ ?_
    | exact Sub.bit (Sub.trans (by decide) hm)
    | (refine Sub.from (b := 0x50a00100) kz ?_; (try simp only [key, bk]); omega)
    | with_reducible apply Kept.ite
    | with_reducible apply EffKept.ite
    | with_reducible split
    | split
    | with_reducible refine Kept.snd (by assumption) ?_
    | with_reducible refine Kept.fst (by assumption) ?_
    | (refine ⟨fun s h => ?_⟩; dsimp -zeta only)
    | dsimp -zeta only

theorem detectorEff_kept {mm : Nat} {s0 : State} {d sub : Nat} {v : Int} (hm : Sub 0x7ffffff80000000000000000080 mm) : EffKept mm s0 (detectorEff d sub v) := by
  have k0 : Sub 0x80 mm := Sub.trans (by decide) hm
  have kz : Sub (2 ^ 107 - 2 ^ (20 + zone 0x51000000)) mm := Sub.trans (by decide) hm
  unfold detectorEff
  repeat' first
    | (intro x; refine Kept.bind (s0 := s0) (m := mm) (x := x) ?_ ?_; subst x; rotate_left; clear_value x; intro _)
    | (intro y; clear_value y)
    | intro _
    | with_reducible assumption
    | with_reducible lift_lets -underBinder
    | with_reducible apply State.setSfd_kept k0
    | with_reducible refine State.wr_kept ?_ ?_
    | exact Sub.bit (Sub.trans (by decide) hm)
    | (refine Sub.from (b := 0x51000000) kz ?_; (try simp only [key, bk]); omega)
    | with_reducible apply Kept.ite
    | with_reducible apply EffKept.ite
    | with_reducible split
    | split
    | (refine ⟨fun s h => ?_⟩; dsimp -zeta only)
    | dsimp -zeta only

theorem queueEff_kept {mm : Nat} {s0 : State} {k : Nat} {v : Int} (hm : Sub 0x7fffffffffffffffffffff00000 mm) : EffKept mm s0 (queueEff k v) := by
  have k0 : Sub 0x1000000000000000000000 mm := Sub.trans (by decide) hm
  have k1 : Sub 0x0 mm := Sub.trans (by decide) hm
  have kz : Sub (2 ^ 107 - 2 ^ (20 + zone 0x0)) mm := Sub.trans (by decide) hm
  unfold queueEff
  repeat' first
    | (intro x; refine Kept.bind (s0 := s0) (m := mm) (x := x) ?_ ?_; subst x; rotate_left; clear_value x; intro _)
    | (intro y; clear_value y)
    | intro _
    | with_reducible assumption
    | with_reducible lift_lets -underBinder
    | with_reducible apply State.reportAdm_kept k0
    | with_reducible apply State.answer_kept k1
    | with_reducible refine State.wr_kept ?_ ?_
    | exact Sub.bit (Sub.trans (by decide) hm)
    | exact Sub.from (b := 0) kz (Nat.zero_le _)
    | with_reducible apply Kept.ite
    | with_reducible apply EffKept.ite
    | with_reducible split
    | split
    | (refine ⟨fun s h => ?_⟩; dsimp -zeta only)
    | dsimp -zeta only

theorem State.syncNode_kept {mm : Nat} {s0 s : State} {n : Nat} (hm : Sub 0x7ffffffffc00000000000000000 mm) (h : Kept mm s0 s) : Kept mm s0 (State.syncNode n s) := by
  have kz : Sub (2 ^ 107 - 2 ^ (20 + zone 0x34000400)) mm := Sub.trans (by decide) hm
  unfold State.syncNode
  repeat' first
    | (intro x; refine Kept.bind (s0 := s0) (m := mm) (x := x) ?_ ?_; subst x; rotate_left; clear_value x; intro _)
    | (intro y; clear_value y)
    | intro _
    | with_reducible assumption
    | with_reducible lift_lets -underBinder
    | with_reducible refine State.wr_kept ?_ ?_
    | exact Sub.bit (Sub.trans (by decide) hm)
    | (refine Sub.from (b := 0x34000400) kz ?_; (try simp only [key, bk, ndk]); omega)
    | with_reducible apply Kept.ite
    | with_reducible split
    | split

theorem State.syncBatch_kept {mm : Nat} {s0 s : State} {b : Nat} (hm : Sub 0x7ffffffff800000000000000000 mm) (h : Kept mm s0 s) : Kept mm s0 (State.syncBatch b s) := by
  have k0 : Sub 0x7ffffffff000000000000000000 mm := Sub.trans (by decide) hm
  have k1 : Sub 0x0 mm := Sub.trans (by decide) hm
  have kz : Sub (2 ^ 107 - 2 ^ (20 + zone 0x40030a00)) mm := Sub.trans (by decide) hm
  unfold State.syncBatch
  repeat' first
    | (intro x; refine Kept.bind (s0 := s0) (m := mm) (x := x) ?_ ?_; subst x; rotate_left; clear_value x; intro _)
    | (intro y; clear_value y)
    | intro _
    | with_reducible assumption
    | with_reducible lift_lets -underBinder
    | with_reducible apply State.syncTimeline_kept k0
    | with_reducible apply State.each_kept k1
    | with_reducible apply State.syncLink_kept hm
    | with_reducible refine State.wr_kept ?_ ?_
    | exact Sub.bit (Sub.trans (by decide) hm)
    | (refine Sub.from (b := 0x40030a00) kz ?_; (try simp only [key, bk]); omega)
    | with_reducible apply Kept.ite
    | with_reducible split
    | split

theorem State.route_kept {mm : Nat} {s0 s : State} {c sub : Nat} {v : Int} (hm : Sub 0x7ffffffffffc000000000000100 mm) (h : Kept mm s0 s) : Kept mm s0 (State.route c sub v s) := by
  have k0 : Sub 0x7ffffffffc00000000000000000 mm := Sub.trans (by decide) hm
  have k1 : Sub 0x7ffffffff800000000000000000 mm := Sub.trans (by decide) hm
  have k2 : Sub 0x0 mm := Sub.trans (by decide) hm
  have kz : Sub (2 ^ 107 - 2 ^ (20 + zone 0x30000000)) mm := Sub.trans (by decide) hm
  unfold State.route
  repeat' first
    | (intro x; refine Kept.bind (s0 := s0) (m := mm) (x := x) ?_ ?_; subst x; rotate_left; clear_value x; intro _)
    | (intro y; have w_ : Nat := y; clear w_; subst y)
    | (intro y; clear_value y)
    | intro _
    | with_reducible assumption
    | with_reducible lift_lets -underBinder
    | with_reducible apply State.chanOff_kept hm
    | with_reducible apply State.endTest_kept hm
    | with_reducible apply State.syncNode_kept k0
    | with_reducible apply State.syncBatch_kept k1
    | with_reducible apply State.each_kept k2
    | with_reducible apply State.syncLink_kept k1
    | with_reducible refine State.setBit_kept ?_ ?_
    | with_reducible refine State.wr_kept ?_ ?_
    | exact Sub.bit (Sub.trans (by decide) hm)
    | (refine Sub.from (b := 0x30000000) kz ?_; (try simp only [key, bk, chk]); omega)
    | with_reducible apply Kept.ite
    | with_reducible split
    | split

theorem routeEff_kept {mm : Nat} {s0 : State} {c sub : Nat} {v : Int} (hm : Sub 0x7ffffffffffc000000000000100 mm) : EffKept mm s0 (routeEff c sub v) := by
  have k0 : Sub 0x0 mm := Sub.trans (by decide) hm
  unfold routeEff
  repeat' first
    | (intro x; refine Kept.bind (s0 := s0) (m := mm) (x := x) ?_ ?_; subst x; rotate_left; clear_value x; intro _)
    | (intro y; clear_value y)
    | intro _
    | with_reducible assumption
    | with_reducible lift_lets -underBinder
    | with_reducible apply (judged_kept k0).all
    | with_reducible apply judged_kept k0
    | with_reducible apply State.route_kept hm
    | with_reducible apply Kept.ite
    | with_reducible apply EffKept.ite
    | with_reducible split
    | split
    | (refine ⟨fun s h => ?_⟩; dsimp -zeta only)
    | dsimp -zeta only

theorem channelEff_kept {mm : Nat} {s0 : State} {c sub : Nat} {v : Int} (hm : Sub 0x7fffffffffffffffffffff00100 mm) : EffKept mm s0 (channelEff c sub v) := by
  have k0 : Sub 0x7ffffffffffc000000000000100 mm := Sub.trans (by decide) hm
  have k1 : Sub 0x7fffffffffffffffffffff00000 mm := Sub.trans (by decide) hm
  have k2 : Sub 0x0 mm := Sub.trans (by decide) hm
  unfold channelEff
  repeat' first
    | (intro x; refine Kept.bind (s0 := s0) (m := mm) (x := x) ?_ ?_; subst x; rotate_left; clear_value x; intro _)
    | (intro y; clear_value y)
    | intro _
    | with_reducible assumption
    | with_reducible lift_lets -underBinder
    | with_reducible apply (testDutyEff_kept k0).all
    | with_reducible apply testDutyEff_kept k0
    | with_reducible apply (testEnableEff_kept k0).all
    | with_reducible apply testEnableEff_kept k0
    | with_reducible apply (plainEff_kept k1).all
    | with_reducible apply plainEff_kept k1
    | with_reducible apply (routeEff_kept k0).all
    | with_reducible apply routeEff_kept k0
    | with_reducible apply (judged_kept k2).all
    | with_reducible apply judged_kept k2
    | with_reducible apply Kept.ite
    | with_reducible apply EffKept.ite
    | with_reducible split
    | split
    | (refine ⟨fun s h => ?_⟩; dsimp -zeta only)
    | dsimp -zeta only

theorem pwmEff_kept {mm : Nat} {s0 : State} {sub : Nat} {v : Int} (hm : Sub 0x7fffffffffffffffffffff0e124 mm) : EffKept mm s0 (pwmEff sub v) := by
  have k0 : Sub 0x7ffffffffffc00000000000e124 mm := Sub.trans (by decide) hm
  have k1 : Sub 0x7fffffffffffffffffffff00000 mm := Sub.trans (by decide) hm
  have kz : Sub (2 ^ 107 - 2 ^ (20 + zone 0x32000000)) mm := Sub.trans (by decide) hm
  unfold pwmEff
  repeat' first
    | (intro x; refine Kept.bind (s0 := s0) (m := mm) (x := x) ?_ ?_; subst x; rotate_left; clear_value x; intro _)
    | (intro y; clear_value y)
    | intro _
    | with_reducible assumption
    | with_reducible lift_lets -underBinder
    | with_reducible apply State.maskBlock_kept k0
    | with_reducible apply (plainEff_kept k1).all
    | with_reducible apply plainEff_kept k1
    | with_reducible refine State.wr_kept ?_ ?_
    | exact Sub.bit (Sub.trans (by decide) hm)
    | (refine Sub.from (b := 0x32000000) kz ?_; (try simp only [key, bk]); omega)
    | with_reducible apply Kept.ite
    | with_reducible apply EffKept.ite
    | with_reducible split
    | split
    | (refine ⟨fun s h => ?_⟩; dsimp -zeta only)
    | dsimp -zeta only

theorem nodeEff_kept {mm : Nat} {s0 : State} {n sub : Nat} {v : Int} (hm : Sub 0x7fffffffffffffffffffff00200 mm) : EffKept mm s0 (nodeEff n sub v) := by
  have k0 : Sub 0x200 mm := Sub.trans (by decide) hm
  have k1 : Sub 0x7ffffffffc00000000000000000 mm := Sub.trans (by decide) hm
  have k2 : Sub 0x7ffffffffc00000000000000200 mm := Sub.trans (by decide) hm
  have k3 : Sub 0x0 mm := Sub.trans (by decide) hm
  have k4 : Sub 0x7ffffffff800000000000000000 mm := Sub.trans (by decide) hm
  have k5 : Sub 0x7fffffffffffffffffffff00000 mm := Sub.trans (by decide) hm
  have kz : Sub (2 ^ 107 - 2 ^ (20 + zone 0x34000000)) mm := Sub.trans (by decide) hm
  unfold nodeEff
  repeat' first
    | (intro x; refine Kept.bind (s0 := s0) (m := mm) (x := x) ?_ ?_; subst x; rotate_left; clear_value x; intro _)
    | (intro y; clear_value y)
    | intro _
    | with_reducible assumption
    | with_reducible lift_lets -underBinder
    | with_reducible apply (nodeClearEff_kept k0).all
    | with_reducible apply nodeClearEff_kept k0
    | with_reducible apply (nodeMaskEff_kept k1).all
    | with_reducible apply nodeMaskEff_kept k1
    | with_reducible apply (nodeWriteEff_kept k2).all
    | with_reducible apply nodeWriteEff_kept k2
    | with_reducible apply State.each_kept k3
    | with_reducible apply State.syncLink_kept k4
    | with_reducible apply (plainEff_kept k5).all
    | with_reducible apply plainEff_kept k5
    | with_reducible refine State.wr_kept ?_ ?_
    | exact Sub.bit (Sub.trans (by decide) hm)
    | (refine Sub.from (b := 0x34000000) kz ?_; (try simp only [key, bk, ndk]); omega)
    | with_reducible apply Kept.ite
    | with_reducible apply EffKept.ite
    | with_reducible split
    | split
    | (refine ⟨fun s h => ?_⟩; dsimp -zeta only)
    | dsimp -zeta only

theorem linkEff_kept {mm : Nat} {s0 : State} {k sub : Nat} {v : Int} (hm : Sub 0x7fffffffffffffffffffffa8200 mm) : EffKept mm s0 (linkEff k sub v) := by
  have k0 : Sub 0x7ffffffff800000000000028200 mm := Sub.trans (by decide) hm
  have k1 : Sub 0x7ffffffff800000000000000000 mm := Sub.trans (by decide) hm
  have k2 : Sub 0x7ffffffffc00000000000000200 mm := Sub.trans (by decide) hm
  have k3 : Sub 0x80000 mm := Sub.trans (by decide) hm
  have k4 : Sub 0x7fffffffffffffffffffff00000 mm := Sub.trans (by decide) hm
  have kz : Sub (2 ^ 107 - 2 ^ (20 + zone 0x37000100)) mm := Sub.trans (by decide) hm
  unfold linkEff
  repeat' first
    | (intro x; refine Kept.bind (s0 := s0) (m := mm) (x := x) ?_ ?_; subst x; rotate_left; clear_value x; intro _)
    | (intro y; have w_ : List Nat × State := y; clear w_)
    | (intro y; clear_value y)
    | intro _
    | with_reducible assumption
    | with_reducible lift_lets -underBinder
    | with_reducible apply State.linkOff_kept k0
    | with_reducible apply State.syncLink_kept k1
    | with_reducible apply (enumerateEff_kept k2).all
    | with_reducible apply enumerateEff_kept k2
    | with_reducible apply State.knownDelays_kept k3
    | with_reducible apply State.enumerate_kept k2
    | with_reducible apply (plainEff_kept k4).all
    | with_reducible apply plainEff_kept k4
    | with_reducible refine State.wr_kept ?_ ?_
    | exact Sub.bit (Sub.trans (by decide) hm)
    | (refine Sub.from (b := 0x37000100) kz ?_; (try simp only [key, bk, lk]); omega)
    | with_reducible apply Kept.ite
    | with_reducible apply EffKept.ite
    | with_reducible split
    | split
    | with_reducible refine Kept.snd (by assumption) ?_
    | with_reducible refine Kept.fst (by assumption) ?_
    | (refine ⟨fun s h => ?_⟩; dsimp -zeta only)
    | dsimp -zeta only

theorem kindEff_kept {mm : Nat} {s0 : State} {b : Nat} {v : Int} (hm : Sub 0x7ffffffff000000000000000000 mm) : EffKept mm s0 (kindEff b v) := by
  have kz : Sub (2 ^ 107 - 2 ^ (20 + zone 0x40000100)) mm := Sub.trans (by decide) hm
  unfold kindEff
  repeat' first
    | (intro x; refine Kept.bind (s0 := s0) (m := mm) (x := x) ?_ ?_; subst x; rotate_left; clear_value x; intro _)
    | (intro y; clear_value y)
    | intro _
    | with_reducible assumption
    | with_reducible lift_lets -underBinder
    | with_reducible refine State.wr_kept ?_ ?_
    | exact Sub.bit (Sub.trans (by decide) hm)
    | (refine Sub.from (b := 0x40000100) kz ?_; (try simp only [key, bk]); omega)
    | with_reducible apply Kept.ite
    | with_reducible apply EffKept.ite
    | with_reducible split
    | split
    | (refine ⟨fun s h => ?_⟩; dsimp -zeta only)
    | dsimp -zeta only

theorem timebaseEff_kept {mm : Nat} {s0 : State} {b sub : Nat} {v : Int} (hm : Sub 0x7ffffffff800000000000000004 mm) : EffKept mm s0 (timebaseEff b sub v) := by
  have k0 : Sub 0x0 mm := Sub.trans (by decide) hm
  have k1 : Sub 0x7ffffffff800000000000000000 mm := Sub.trans (by decide) hm
  have k2 : Sub 0x7ffffffff000000000000000004 mm := Sub.trans (by decide) hm
  have kz : Sub (2 ^ 107 - 2 ^ (20 + zone 0x40040000)) mm := Sub.trans (by decide) hm
  unfold timebaseEff
  repeat' first
    | (intro x; refine Kept.bind (s0 := s0) (m := mm) (x := x) ?_ ?_; subst x; rotate_left; clear_value x; intro _)
    | (intro y; clear_value y)
    | intro _
    | with_reducible assumption
    | with_reducible lift_lets -underBinder
    | with_reducible apply (judged_kept k0).all
    | with_reducible apply judged_kept k0
    | with_reducible apply State.syncBatch_kept k1
    | with_reducible apply State.retimed_kept k2
    | with_reducible refine State.wr_kept ?_ ?_
    | exact Sub.bit (Sub.trans (by decide) hm)
    | (refine Sub.from (b := 0x40040000) kz ?_; (try simp only [key, bk]); omega)
    | with_reducible apply Kept.ite
    | with_reducible apply EffKept.ite
    | with_reducible split
    | split
    | (refine ⟨fun s h => ?_⟩; dsimp -zeta only)
    | dsimp -zeta only

theorem State.setMembers_kept {mm : Nat} {s0 s : State} {b w : Nat} {v : Int} (hm : Sub 0x7ffffffffffc000000000000100 mm) (h : Kept mm s0 s) : Kept mm s0 (State.setMembers b w v s) := by
  have k0 : Sub 0x0 mm := Sub.trans (by decide) hm
  have k1 : Sub 0x7ffffffffc00000000000000000 mm := Sub.trans (by decide) hm
  have k2 : Sub 0x7ffffffff800000000000000000 mm := Sub.trans (by decide) hm
  have kz : Sub (2 ^ 107 - 2 ^ (20 + zone 0x30000100)) mm := Sub.trans (by decide) hm
  unfold State.setMembers
  repeat' first
    | (intro x; refine Kept.bind (s0 := s0) (m := mm) (x := x) ?_ ?_; subst x; rotate_left; clear_value x; intro _)
    | (intro y; clear_value y)
    | intro _
    | with_reducible assumption
    | with_reducible lift_lets -underBinder
    | with_reducible apply State.each_kept k0
    | with_reducible apply State.chanOff_kept hm
    | with_reducible apply State.endTest_kept hm
    | with_reducible apply State.syncNode_kept k1
    | with_reducible apply State.syncBatch_kept k2
    | with_reducible refine State.wr_kept ?_ ?_
    | exact Sub.bit (Sub.trans (by decide) hm)
    | (refine Sub.from (b := 0x30000100) kz ?_; (try simp only [key, bk, chk]); omega)
    | with_reducible apply Kept.ite
    | with_reducible split
    | split

theorem memberEff_kept {mm : Nat} {s0 : State} {b w : Nat} {v : Int} (hm : Sub 0x7ffffffffffc000000000000100 mm) : EffKept mm s0 (memberEff b w v) := by
  have k0 : Sub 0x0 mm := Sub.trans (by decide) hm
  unfold memberEff
  repeat' first
    | (intro x; refine Kept.bind (s0 := s0) (m := mm) (x := x) ?_ ?_; subst x; rotate_left; clear_value x; intro _)
    | (intro y; clear_value y)
    | intro _
    | with_reducible assumption
    | with_reducible lift_lets -underBinder
    | with_reducible apply (judged_kept k0).all
    | with_reducible apply judged_kept k0
    | with_reducible apply State.setMembers_kept hm
    | with_reducible apply Kept.ite
    | with_reducible apply EffKept.ite
    | with_reducible split
    | split
    | (refine ⟨fun s h => ?_⟩; dsimp -zeta only)
    | dsimp -zeta only

theorem batchEff_kept {mm : Nat} {s0 : State} {q : Req} {b off sub : Nat} {v : Int} (hm : Sub 0x7fffffffffffffffffffff0813c mm) : EffKept mm s0 (batchEff q b off sub v) := by
  have k0 : Sub 0x7ffffffff000000000000000000 mm := Sub.trans (by decide) hm
  have k1 : Sub 0x7ffffffff000000400000008004 mm := Sub.trans (by decide) hm
  have k2 : Sub 0x7ffffffff000000000000000004 mm := Sub.trans (by decide) hm
  have k3 : Sub 0x7ffffffffffc000000000000100 mm := Sub.trans (by decide) hm
  have k4 : Sub 0x7ffffffff800000000000000004 mm := Sub.trans (by decide) hm
  have k5 : Sub 0x7ffffffff00000000000000003c mm := Sub.trans (by decide) hm
  have k6 : Sub 0x7fffffffffffffffffffff00000 mm := Sub.trans (by decide) hm
  have kz : Sub (2 ^ 107 - 2 ^ (20 + zone 0x400b0000)) mm := Sub.trans (by decide) hm
  unfold batchEff
  repeat' first
    | (intro x; refine Kept.bind (s0 := s0) (m := mm) (x := x) ?_ ?_; subst x; rotate_left; clear_value x; intro _)
    | (intro y; clear_value y)
    | intro _
    | with_reducible assumption
    | with_reducible lift_lets -underBinder
    | with_reducible apply (kindEff_kept k0).all
    | with_reducible apply kindEff_kept k0
    | with_reducible apply (enableBatchEff_kept k1).all
    | with_reducible apply enableBatchEff_kept k1
    | with_reducible apply (commandEff_kept k2).all
    | with_reducible apply commandEff_kept k2
    | with_reducible apply (memberEff_kept k3).all
    | with_reducible apply memberEff_kept k3
    | with_reducible apply (timebaseEff_kept k4).all
    | with_reducible apply timebaseEff_kept k4
    | with_reducible apply (scaleEff_kept k5).all
    | with_reducible apply scaleEff_kept k5
    | with_reducible apply (plainEff_kept k6).all
    | with_reducible apply plainEff_kept k6
    | with_reducible apply (setpointEff_kept k5).all
    | with_reducible apply setpointEff_kept k5
    | with_reducible apply (stagedTimeEff_kept k2).all
    | with_reducible apply stagedTimeEff_kept k2
    | with_reducible apply (clearStatsEff_kept k2).all
    | with_reducible apply clearStatsEff_kept k2
    | with_reducible apply (swapEff_kept k2).all
    | with_reducible apply swapEff_kept k2
    | with_reducible apply (copyEff_kept k5).all
    | with_reducible apply copyEff_kept k5
    | with_reducible apply (breakerEff_kept k2).all
    | with_reducible apply breakerEff_kept k2
    | with_reducible apply (offsetEff_kept k5).all
    | with_reducible apply offsetEff_kept k5
    | with_reducible refine State.wr_kept ?_ ?_
    | exact Sub.bit (Sub.trans (by decide) hm)
    | (refine Sub.from (b := 0x400b0000) kz ?_; (try simp only [key, bk]); omega)
    | with_reducible apply Kept.ite
    | with_reducible apply EffKept.ite
    | with_reducible split
    | split
    | (refine ⟨fun s h => ?_⟩; dsimp -zeta only)
    | dsimp -zeta only

theorem slotEff_kept {mm : Nat} {s0 : State} {q : Req} {index sub : Nat} {v : Int} (hm : Sub 0x7fffffffffffffffffffff0003c mm) : EffKept mm s0 (slotEff q index sub v) := by
  have k0 : Sub 0x7ffffffff00000000000000003c mm := Sub.trans (by decide) hm
  have k1 : Sub 0x7fffffffffffffffffffff00000 mm := Sub.trans (by decide) hm
  unfold slotEff
  repeat' first
    | (intro x; refine Kept.bind (s0 := s0) (m := mm) (x := x) ?_ ?_; subst x; rotate_left; clear_value x; intro _)
    | (intro y; clear_value y)
    | intro _
    | with_reducible assumption
    | with_reducible lift_lets -underBinder
    | with_reducible apply (stateEff_kept k0).all
    | with_reducible apply stateEff_kept k0
    | with_reducible apply (bankEff_kept k0).all
    | with_reducible apply bankEff_kept k0
    | with_reducible apply (plainEff_kept k1).all
    | with_reducible apply plainEff_kept k1
    | with_reducible apply Kept.ite
    | with_reducible apply EffKept.ite
    | with_reducible split
    | split
    | (refine ⟨fun s h => ?_⟩; dsimp -zeta only)
    | dsimp -zeta only

theorem mappingEff_kept {mm : Nat} {s0 : State} {o sub : Nat} {v : Int} (hm : Sub 0x7fffffffffffffffffffff00000 mm) : EffKept mm s0 (mappingEff o sub v) := by
  have k0 : Sub 0x0 mm := Sub.trans (by decide) hm
  have kz : Sub (2 ^ 107 - 2 ^ (20 + zone 0x0)) mm := Sub.trans (by decide) hm
  unfold mappingEff
  repeat' first
    | (intro x; refine Kept.bind (s0 := s0) (m := mm) (x := x) ?_ ?_; subst x; rotate_left; clear_value x; intro _)
    | (intro y; clear_value y)
    | intro _
    | with_reducible assumption
    | with_reducible lift_lets -underBinder
    | with_reducible apply (judged_kept k0).all
    | with_reducible apply judged_kept k0
    | with_reducible refine State.wr_kept ?_ ?_
    | exact Sub.bit (Sub.trans (by decide) hm)
    | exact Sub.from (b := 0) kz (Nat.zero_le _)
    | with_reducible apply Kept.ite
    | with_reducible apply EffKept.ite
    | with_reducible split
    | split
    | (refine ⟨fun s h => ?_⟩; dsimp -zeta only)
    | dsimp -zeta only

theorem subEntryEff_kept {mm : Nat} {s0 : State} {o elem : Nat} {v : Int} (hm : Sub 0x7fffffffffffffffffffff00000 mm) : EffKept mm s0 (subEntryEff o elem v) := by
  have kz : Sub (2 ^ 107 - 2 ^ (20 + zone 0x700)) mm := Sub.trans (by decide) hm
  unfold subEntryEff
  repeat' first
    | (intro x; refine Kept.bind (s0 := s0) (m := mm) (x := x) ?_ ?_; subst x; rotate_left; clear_value x; intro _)
    | (intro y; clear_value y)
    | intro _
    | with_reducible assumption
    | with_reducible lift_lets -underBinder
    | with_reducible refine State.wr_kept ?_ ?_
    | exact Sub.bit (Sub.trans (by decide) hm)
    | (refine Sub.from (b := 0x700) kz ?_; (try simp only [key, bk]); omega)
    | with_reducible apply Kept.ite
    | with_reducible apply EffKept.ite
    | with_reducible split
    | split
    | (refine ⟨fun s h => ?_⟩; dsimp -zeta only)
    | dsimp -zeta only

theorem lockEff_kept {mm : Nat} {s0 : State} {area : Nat} (hm : Sub 0x7fffd000000000200000000e000 mm) : EffKept mm s0 (lockEff area) := by
  have k0 : Sub 0x7fffd000000000000000000e000 mm := Sub.trans (by decide) hm
  unfold lockEff
  repeat' first
    | (intro x; refine Kept.bind (s0 := s0) (m := mm) (x := x) ?_ ?_; subst x; rotate_left; clear_value x; intro _)
    | (intro y; clear_value y)
    | intro _
    | with_reducible assumption
    | with_reducible lift_lets -underBinder
    | with_reducible apply State.logEvent_kept k0
    | with_reducible refine State.setBit_kept ?_ ?_
    | exact Sub.bit (Sub.trans (by decide) hm)
    | with_reducible apply Kept.ite
    | with_reducible apply EffKept.ite
    | with_reducible split
    | split
    | (refine ⟨fun s h => ?_⟩; dsimp -zeta only)
    | dsimp -zeta only

theorem State.putKey_kept {mm : Nat} {s0 s : State} {r elem : Nat} {l : List Byte} (hm : Sub 0x4000000000002 mm) (h : Kept mm s0 s) : Kept mm s0 (State.putKey r elem l s) := by
  have k0 : Sub 0x2 mm := Sub.trans (by decide) hm
  unfold State.putKey
  repeat' first
    | (intro x; refine Kept.bind (s0 := s0) (m := mm) (x := x) ?_ ?_; subst x; rotate_left; clear_value x; intro _)
    | (intro y; clear_value y)
    | intro _
    | with_reducible assumption
    | with_reducible lift_lets -underBinder
    | with_reducible apply State.wrBlob_kept k0
    | with_reducible refine State.setBit_kept ?_ ?_
    | exact Sub.bit (Sub.trans (by decide) hm)
    | with_reducible apply Kept.ite
    | with_reducible split
    | split

theorem State.writeKey_kept {mm : Nat} {s0 s : State} {q : Req} {r elem : Nat} {l : List Byte} (hm : Sub 0x7fffd000000000400000002e002 mm) (h : Kept mm s0 s) : Kept mm s0 (State.writeKey q r elem l s) := by
  have k0 : Sub 0x0 mm := Sub.trans (by decide) hm
  have k1 : Sub 0x20000 mm := Sub.trans (by decide) hm
  have k2 : Sub 0x7fffd000000000000000000e000 mm := Sub.trans (by decide) hm
  have k3 : Sub 0x4000000000002 mm := Sub.trans (by decide) hm
  unfold State.writeKey
  repeat' first
    | (intro x; refine Kept.bind (s0 := s0) (m := mm) (x := x) ?_ ?_; subst x; rotate_left; clear_value x; intro _)
    | (intro y; clear_value y)
    | intro _
    | with_reducible assumption
    | with_reducible lift_lets -underBinder
    | with_reducible apply State.emit_kept k0
    | with_reducible apply State.handling_kept k1
    | with_reducible apply State.refuse_kept k2
    | with_reducible apply State.putKey_kept k3
    | with_reducible apply State.answer_kept k0
    | with_reducible apply Kept.ite
    | with_reducible split
    | split

theorem firmwareEff_kept {mm : Nat} {s0 : State} {img : List Byte} {first : Bool} (hm : Sub 0x40a8000 mm) : EffKept mm s0 (firmwareEff img first) := by
  have k0 : Sub 0x8000 mm := Sub.trans (by decide) hm
  have k1 : Sub 0x40a0000 mm := Sub.trans (by decide) hm
  have k2 : Sub 0x20000 mm := Sub.trans (by decide) hm
  unfold firmwareEff
  repeat' first
    | (intro x; refine Kept.bind (s0 := s0) (m := mm) (x := x) ?_ ?_; subst x; rotate_left; clear_value x; intro _)
    | (intro y; clear_value y)
    | intro _
    | with_reducible assumption
    | with_reducible lift_lets -underBinder
    | with_reducible apply State.askHandover_kept k0
    | with_reducible apply State.startLong_kept k1
    | with_reducible apply Kept.ite
    | with_reducible apply EffKept.ite
    | with_reducible split
    | split
    | with_reducible apply Kept.upd_srv k2
    | (refine ⟨fun s h => ?_⟩; dsimp -zeta only)
    | dsimp -zeta only

theorem pulseEff_kept {mm : Nat} {s0 : State} {k sub : Nat} {v : Int} (hm : Sub 0x7ffffffffffffffff0000000004 mm) : EffKept mm s0 (pulseEff k sub v) := by
  have k0 : Sub 0x0 mm := Sub.trans (by decide) hm
  have k1 : Sub 0x7ffffffffffffffff0000000000 mm := Sub.trans (by decide) hm
  have k2 : Sub 0x7ffffffff000000000000000004 mm := Sub.trans (by decide) hm
  unfold pulseEff
  repeat' first
    | (intro x; refine Kept.bind (s0 := s0) (m := mm) (x := x) ?_ ?_; subst x; rotate_left; clear_value x; intro _)
    | (intro y; clear_value y)
    | intro _
    | with_reducible assumption
    | with_reducible lift_lets -underBinder
    | with_reducible apply (judged_kept k0).all
    | with_reducible apply judged_kept k0
    | with_reducible apply (tpoSettingEff_kept k1).all
    | with_reducible apply tpoSettingEff_kept k1
    | with_reducible apply State.retimed_kept k2
    | with_reducible apply Kept.ite
    | with_reducible apply EffKept.ite
    | with_reducible split
    | split
    | (refine ⟨fun s h => ?_⟩; dsimp -zeta only)
    | dsimp -zeta only

theorem effOf_kept {mm : Nat} {s0 : State} {q : Req} {index sub elem : Nat} {v : Int} (hm : Sub 0x7fffffffffffffffffffffffffe mm) : EffKept mm s0 (effOf q index sub elem v) := by
  have k0 : Sub 0x7fffffffffffffffffffff0813c mm := Sub.trans (by decide) hm
  have k1 : Sub 0x7fffffffffffffffffffff00100 mm := Sub.trans (by decide) hm
  have k2 : Sub 0x7fffffffffffffffffffff00200 mm := Sub.trans (by decide) hm
  have k3 : Sub 0x7fffffffffffffffffffff0003c mm := Sub.trans (by decide) hm
  have k4 : Sub 0x7ffffffff00000000000000e084 mm := Sub.trans (by decide) hm
  have k5 : Sub 0x7ffffff80000000000000000080 mm := Sub.trans (by decide) hm
  have k6 : Sub 0x7ffffffff00000000000000003c mm := Sub.trans (by decide) hm
  have k7 : Sub 0x7fffffffffffffffffffff00000 mm := Sub.trans (by decide) hm
  have k8 : Sub 0x7ffffffffff8000000000000000 mm := Sub.trans (by decide) hm
  have k9 : Sub 0x7ffffffffffc00000000000e524 mm := Sub.trans (by decide) hm
  have k10 : Sub 0x7fffffffffffffffffffffa8200 mm := Sub.trans (by decide) hm
  have k11 : Sub 0x7fffffffffffffffffffff0e084 mm := Sub.trans (by decide) hm
  have k12 : Sub 0x7ffffffc0000000000000080080 mm := Sub.trans (by decide) hm
  have k13 : Sub 0x7fffc0000000000000000002000 mm := Sub.trans (by decide) hm
  have k14 : Sub 0x7fff80000000000000000002000 mm := Sub.trans (by decide) hm
  have k15 : Sub 0x7fffffffffffffffffffff02002 mm := Sub.trans (by decide) hm
  have k16 : Sub 0x7fff000000000000000040a0000 mm := Sub.trans (by decide) hm
  have k17 : Sub 0x7fff00000000000000000002002 mm := Sub.trans (by decide) hm
  have k18 : Sub 0x7ffffffff00000040000000e800 mm := Sub.trans (by decide) hm
  have k19 : Sub 0x7fffffffffffffffffffff0e800 mm := Sub.trans (by decide) hm
  have k20 : Sub 0x7e1000000000000400000000800 mm := Sub.trans (by decide) hm
  have k21 : Sub 0x800 mm := Sub.trans (by decide) hm
  have k22 : Sub 0x7ffffffffffffffff000000f080 mm := Sub.trans (by decide) hm
  have k23 : Sub 0x7ffffffffffffffff0000000004 mm := Sub.trans (by decide) hm
  have k24 : Sub 0x7fffffffffffffffffff70fffe6 mm := Sub.trans (by decide) hm
  have k25 : Sub 0x7fffffffffffffffffffff7fffe mm := Sub.trans (by decide) hm
  have k26 : Sub 0x7ffffffffffc00000080000f100 mm := Sub.trans (by decide) hm
  have k27 : Sub 0x800000000 mm := Sub.trans (by decide) hm
  have k28 : Sub 0x2000001000 mm := Sub.trans (by decide) hm
  have k29 : Sub 0x7ffffffffffffffff200008f280 mm := Sub.trans (by decide) hm
  have k30 : Sub 0x7ffffffffffffffffa000001000 mm := Sub.trans (by decide) hm
  have k31 : Sub 0x100000008000 mm := Sub.trans (by decide) hm
  have k32 : Sub 0x7fffffffffffffff00000000000 mm := Sub.trans (by decide) hm
  have k33 : Sub 0x400000008000 mm := Sub.trans (by decide) hm
  have k34 : Sub 0x8000 mm := Sub.trans (by decide) hm
  have k35 : Sub 0x400000000000 mm := Sub.trans (by decide) hm
  have k36 : Sub 0x7fffd000000000200000000e000 mm := Sub.trans (by decide) hm
  have k37 : Sub 0x7fffffffffffffffe000001e000 mm := Sub.trans (by decide) hm
  have k38 : Sub 0x7fffffffffffffffffffff0e124 mm := Sub.trans (by decide) hm
  have k39 : Sub 0x7fffffffffffffffffffff00004 mm := Sub.trans (by decide) hm
  have k40 : Sub 0x10000000000000000008000 mm := Sub.trans (by decide) hm
  have k41 : Sub 0x2000000000000000040a4000 mm := Sub.trans (by decide) hm
  have k42 : Sub 0x200000000000000000004000 mm := Sub.trans (by decide) hm
  have k43 : Sub 0x7fffd000000000000000000e000 mm := Sub.trans (by decide) hm
  have k44 : Sub 0x400000000000000000004000 mm := Sub.trans (by decide) hm
  have k45 : Sub 0x7ffffffff00000240000000e800 mm := Sub.trans (by decide) hm
  have kz : Sub (2 ^ 107 - 2 ^ (20 + zone 0x0)) mm := Sub.trans (by decide) hm
  unfold effOf
  repeat' first
    | (intro x; refine Kept.bind (s0 := s0) (m := mm) (x := x) ?_ ?_; subst x; rotate_left; clear_value x; intro _)
    | (intro y; clear_value y)
    | intro _
    | with_reducible assumption
    | with_reducible lift_lets -underBinder
    | with_reducible apply (batchEff_kept k0).all
    | with_reducible apply batchEff_kept k0
    | with_reducible apply (channelEff_kept k1).all
    | with_reducible apply channelEff_kept k1
    | with_reducible apply (nodeEff_kept k2).all
    | with_reducible apply nodeEff_kept k2
    | with_reducible apply (slotEff_kept k3).all
    | with_reducible apply slotEff_kept k3
    | with_reducible apply (chainEff_kept k4).all
    | with_reducible apply chainEff_kept k4
    | with_reducible apply (detectorEff_kept k5).all
    | with_reducible apply detectorEff_kept k5
    | with_reducible apply (targetEff_kept k6).all
    | with_reducible apply targetEff_kept k6
    | with_reducible apply (genCmdEff_kept k6).all
    | with_reducible apply genCmdEff_kept k6
    | with_reducible apply (plainEff_kept k7).all
    | with_reducible apply plainEff_kept k7
    | with_reducible apply (queueEff_kept k7).all
    | with_reducible apply queueEff_kept k7
    | with_reducible apply (driverClearEff_kept k8).all
    | with_reducible apply driverClearEff_kept k8
    | with_reducible apply (diagEff_kept k9).all
    | with_reducible apply diagEff_kept k9
    | with_reducible apply (linkEff_kept k10).all
    | with_reducible apply linkEff_kept k10
    | with_reducible apply (pairEff_kept k11).all
    | with_reducible apply pairEff_kept k11
    | with_reducible apply (testDacEff_kept k12).all
    | with_reducible apply testDacEff_kept k12
    | with_reducible apply (triggerEff_kept k13).all
    | with_reducible apply triggerEff_kept k13
    | with_reducible apply (maskEff_kept k14).all
    | with_reducible apply maskEff_kept k14
    | with_reducible apply (layoutEff_kept k15).all
    | with_reducible apply layoutEff_kept k15
    | with_reducible apply (exportEff_kept k16).all
    | with_reducible apply exportEff_kept k16
    | with_reducible apply (releaseEff_kept k17).all
    | with_reducible apply releaseEff_kept k17
    | with_reducible apply (stageEnableEff_kept k18).all
    | with_reducible apply stageEnableEff_kept k18
    | with_reducible apply (islandSettingEff_kept k19).all
    | with_reducible apply islandSettingEff_kept k19
    | with_reducible apply (hostCloseEff_kept k20).all
    | with_reducible apply hostCloseEff_kept k20
    | with_reducible apply (hostOpenEff_kept k18).all
    | with_reducible apply hostOpenEff_kept k18
    | with_reducible apply (ackEff_kept k21).all
    | with_reducible apply ackEff_kept k21
    | with_reducible apply (mappingEff_kept k7).all
    | with_reducible apply mappingEff_kept k7
    | with_reducible apply (subEntryEff_kept k7).all
    | with_reducible apply subEntryEff_kept k7
    | with_reducible apply (armTpoEff_kept k22).all
    | with_reducible apply armTpoEff_kept k22
    | with_reducible apply (disarmTpoEff_kept k22).all
    | with_reducible apply disarmTpoEff_kept k22
    | with_reducible apply (pulseEff_kept k23).all
    | with_reducible apply pulseEff_kept k23
    | with_reducible apply (commandOf_kept k24).all
    | with_reducible apply commandOf_kept k24
    | with_reducible apply (domSwitchEff_kept k25).all
    | with_reducible apply domSwitchEff_kept k25
    | with_reducible apply (referenceEff_kept k26).all
    | with_reducible apply referenceEff_kept k26
    | with_reducible apply (clearBandsEff_kept k27).all
    | with_reducible apply clearBandsEff_kept k27
    | with_reducible apply (timeSourceEff_kept k28).all
    | with_reducible apply timeSourceEff_kept k28
    | with_reducible apply (authoriseEff_kept k29).all
    | with_reducible apply authoriseEff_kept k29
    | with_reducible apply (ptpEff_kept k30).all
    | with_reducible apply ptpEff_kept k30
    | with_reducible apply (executeEff_kept k31).all
    | with_reducible apply executeEff_kept k31
    | with_reducible apply (commitSettingEff_kept k32).all
    | with_reducible apply commitSettingEff_kept k32
    | with_reducible apply (twinRoleEff_kept k33).all
    | with_reducible apply twinRoleEff_kept k33
    | with_reducible apply (plannedEff_kept k34).all
    | with_reducible apply plannedEff_kept k34
    | with_reducible apply (bridgesEff_kept k35).all
    | with_reducible apply bridgesEff_kept k35
    | with_reducible apply (closeBridgesEff_kept k34).all
    | with_reducible apply closeBridgesEff_kept k34
    | with_reducible apply (lockEff_kept k36).all
    | with_reducible apply lockEff_kept k36
    | with_reducible apply (confirmEff_kept k37).all
    | with_reducible apply confirmEff_kept k37
    | with_reducible apply (pwmEff_kept k38).all
    | with_reducible apply pwmEff_kept k38
    | with_reducible apply (modClockEff_kept k39).all
    | with_reducible apply modClockEff_kept k39
    | with_reducible apply (armEff_kept k40).all
    | with_reducible apply armEff_kept k40
    | with_reducible apply (archiveEff_kept k41).all
    | with_reducible apply archiveEff_kept k41
    | with_reducible apply (freezeEff_kept k42).all
    | with_reducible apply freezeEff_kept k42
    | with_reducible apply State.freezeEnd_kept k43
    | with_reducible apply (logWindowEff_kept k44).all
    | with_reducible apply logWindowEff_kept k44
    | with_reducible apply (islandLockEff_kept k45).all
    | with_reducible apply islandLockEff_kept k45
    | with_reducible refine State.wr_kept ?_ ?_
    | exact Sub.bit (Sub.trans (by decide) hm)
    | exact Sub.from (b := 0) kz (Nat.zero_le _)
    | with_reducible apply Kept.ite
    | with_reducible apply EffKept.ite
    | with_reducible split
    | split
    | (refine ⟨fun s h => ?_⟩; dsimp -zeta only)
    | dsimp -zeta only

theorem blobEff_kept {mm : Nat} {s0 : State} {index sub : Nat} {l : List Byte} {first : Bool} (hm : Sub 0x7ffffffff0000004000040ae0be mm) : EffKept mm s0 (blobEff index sub l first) := by
  have k0 : Sub 0x7fffffffe000000000000000082 mm := Sub.trans (by decide) hm
  have k1 : Sub 0x7ffffffff000000000000000002 mm := Sub.trans (by decide) hm
  have k2 : Sub 0x7fff80000000000000000000002 mm := Sub.trans (by decide) hm
  have k3 : Sub 0x40a8000 mm := Sub.trans (by decide) hm
  have k4 : Sub 0x7fff00000000000000000002002 mm := Sub.trans (by decide) hm
  have k5 : Sub 0x2 mm := Sub.trans (by decide) hm
  unfold blobEff
  repeat' first
    | (intro x; refine Kept.bind (s0 := s0) (m := mm) (x := x) ?_ ?_; subst x; rotate_left; clear_value x; intro _)
    | (intro y; clear_value y)
    | intro _
    | with_reducible assumption
    | with_reducible lift_lets -underBinder
    | with_reducible apply (recipeEff_kept hm).all
    | with_reducible apply recipeEff_kept hm
    | with_reducible apply (bankWriteEff_kept k0).all
    | with_reducible apply bankWriteEff_kept k0
    | with_reducible apply (envelopeEff_kept k1).all
    | with_reducible apply envelopeEff_kept k1
    | with_reducible apply (maskEnvelopeEff_kept k2).all
    | with_reducible apply maskEnvelopeEff_kept k2
    | with_reducible apply (firmwareEff_kept k3).all
    | with_reducible apply firmwareEff_kept k3
    | with_reducible apply (channelTextEff_kept k4).all
    | with_reducible apply channelTextEff_kept k4
    | with_reducible apply State.wrBlob_kept k5
    | with_reducible apply Kept.ite
    | with_reducible apply EffKept.ite
    | with_reducible split
    | split
    | (refine ⟨fun s h => ?_⟩; dsimp -zeta only)
    | dsimp -zeta only

end Sys2Proof.Machine
end

