-- ==== Sys2Proof/Laws/KeptServer.lean ====
section
/-! SUPPORT. What the operations of Machine/Server.lean may change (Safety.lean, Kept): one lemma for each. -/

set_option linter.all false

namespace Sys2Proof.Machine

theorem State.writeBlob_kept {mm : Nat} {s0 s : State} {q : Req} {rank : Nat} {host : Bool} {index sub elem : Nat} {l : List Byte} {first : Bool} (hm : Sub 0x7ffffffff0000004000040ae0be mm) (h : Kept mm s0 s) : Kept mm s0 (State.writeBlob q rank host index sub elem l first s) := by
  have k0 : Sub 0x7fffd000000000000000000e000 mm := Sub.trans (by decide) hm
  have k1 : Sub 0x7fffffc00000000000000028004 mm := Sub.trans (by decide) hm
  unfold State.writeBlob
  repeat' first
    | (intro x; refine Kept.bind (s0 := s0) (m := mm) (x := x) ?_ ?_; subst x; rotate_left; clear_value x; intro _)
    | (intro y; clear_value y)
    | intro _
    | with_reducible assumption
    | with_reducible lift_lets -underBinder
    | with_reducible apply State.refuse_kept k0
    | with_reducible apply State.carryOut_kept k1
    | with_reducible apply (blobEff_kept hm).all
    | with_reducible apply blobEff_kept hm
    | with_reducible apply Kept.ite
    | with_reducible split
    | split

theorem State.writeArray_kept {mm : Nat} {s0 s : State} {q : Req} {d : Desc} {rank : Nat} {host : Bool} {index sub : Nat} {l : List Byte} (hm : Sub 0x7fffffffffffffffffffffffffe mm) (h : Kept mm s0 s) : Kept mm s0 (State.writeArray q d rank host index sub l s) := by
  have k0 : Sub 0x7fffd000000000000000000e000 mm := Sub.trans (by decide) hm
  have k1 : Sub 0x7fffffc00000000000000028004 mm := Sub.trans (by decide) hm
  have k2 : Sub 0x0 mm := Sub.trans (by decide) hm
  unfold State.writeArray
  repeat' first
    | (intro x; refine Kept.bind (s0 := s0) (m := mm) (x := x) ?_ ?_; subst x; rotate_left; clear_value x; intro _)
    | (intro y; clear_value y)
    | intro _
    | with_reducible assumption
    | with_reducible lift_lets -underBinder
    | with_reducible apply State.refuse_kept k0
    | with_reducible apply State.carryOut_kept k1
    | with_reducible apply (allEff_kept k2).all
    | with_reducible apply allEff_kept k2
    | with_reducible apply (effOf_kept hm).all
    | with_reducible apply effOf_kept hm
    | with_reducible apply EffsKept.map
    | with_reducible apply Kept.ite
    | with_reducible split
    | split

theorem State.writeValue_kept {mm : Nat} {s0 s : State} {q : Req} {rank : Nat} {host : Bool} {index sub elem : Nat} {l : List Byte} (hm : Sub 0x7fffffffffffffffffffffffffe mm) (h : Kept mm s0 s) : Kept mm s0 (State.writeValue q rank host index sub elem l s) := by
  have k0 : Sub 0x7fffd000000000000000000e000 mm := Sub.trans (by decide) hm
  have k1 : Sub 0x7fffffc00000000000000028004 mm := Sub.trans (by decide) hm
  unfold State.writeValue
  repeat' first
    | (intro x; refine Kept.bind (s0 := s0) (m := mm) (x := x) ?_ ?_; subst x; rotate_left; clear_value x; intro _)
    | (intro y; clear_value y)
    | intro _
    | with_reducible assumption
    | with_reducible lift_lets -underBinder
    | with_reducible apply State.refuse_kept k0
    | with_reducible apply State.carryOut_kept k1
    | with_reducible apply (effOf_kept hm).all
    | with_reducible apply effOf_kept hm
    | with_reducible apply Kept.ite
    | with_reducible split
    | split

theorem State.write_kept {mm : Nat} {s0 s : State} {q : Req} {rank : Nat} {host : Bool} {index sub elem : Nat} {l : List Byte} {first : Bool} (hm : Sub 0x7fffffffffffffffffffffffffe mm) (h : Kept mm s0 s) : Kept mm s0 (State.write q rank host index sub elem l first s) := by
  have k0 : Sub 0x20000 mm := Sub.trans (by decide) hm
  have k1 : Sub 0x7fffd000000000400000002e002 mm := Sub.trans (by decide) hm
  have k2 : Sub 0x7ffffffff0000004000040ae0be mm := Sub.trans (by decide) hm
  have k3 : Sub 0x8000 mm := Sub.trans (by decide) hm
  have k4 : Sub 0x400000000000 mm := Sub.trans (by decide) hm
  unfold State.write
  repeat' first
    | (intro x; refine Kept.bind (s0 := s0) (m := mm) (x := x) ?_ ?_; subst x; rotate_left; clear_value x; intro _)
    | (intro y; clear_value y)
    | intro _
    | with_reducible assumption
    | with_reducible lift_lets -underBinder
    | with_reducible apply State.handling_kept k0
    | with_reducible apply State.writeValue_kept hm
    | with_reducible apply State.writeKey_kept k1
    | with_reducible apply State.writeBlob_kept k2
    | with_reducible apply State.writeArray_kept hm
    | with_reducible apply State.longBy_kept k0
    | with_reducible apply State.followDigest_kept k3
    | with_reducible apply State.syncTwin_kept k4
    | with_reducible apply Kept.ite
    | with_reducible split
    | split

theorem entryEff_kept {mm : Nat} {s0 : State} {q : Req} {index sub elem : Nat} {l : List Byte} (hm : Sub 0x7fffffffffffffffffffffffffe mm) : EffKept mm s0 (entryEff q index sub elem l) := by
  have k0 : Sub 0x7ffffffff0000004000040ae0be mm := Sub.trans (by decide) hm
  have k1 : Sub 0x0 mm := Sub.trans (by decide) hm
  unfold entryEff
  repeat' first
    | (intro x; refine Kept.bind (s0 := s0) (m := mm) (x := x) ?_ ?_; subst x; rotate_left; clear_value x; intro _)
    | (intro y; clear_value y)
    | intro _
    | with_reducible assumption
    | with_reducible lift_lets -underBinder
    | with_reducible apply (blobEff_kept k0).all
    | with_reducible apply blobEff_kept k0
    | with_reducible apply (allEff_kept k1).all
    | with_reducible apply allEff_kept k1
    | with_reducible apply (effOf_kept hm).all
    | with_reducible apply effOf_kept hm
    | with_reducible apply EffsKept.map
    | with_reducible apply Kept.ite
    | with_reducible apply EffKept.ite
    | with_reducible split
    | split
    | (refine ⟨fun s h => ?_⟩; dsimp -zeta only)
    | dsimp -zeta only
    | dsimp only [id_eq]

theorem State.carryJob_kept {mm : Nat} {s0 s : State} {b : Nat} {j : Job} {q : Req} (hm : Sub 0x7fffffffffffffffffffffffffe mm) (h : Kept mm s0 s) : Kept mm s0 (State.carryJob b j q s) := by
  have k0 : Sub 0x7ffffffff000000000000000038 mm := Sub.trans (by decide) hm
  have k1 : Sub 0x28000 mm := Sub.trans (by decide) hm
  have k2 : Sub 0x8000 mm := Sub.trans (by decide) hm
  have k3 : Sub 0x400000000000 mm := Sub.trans (by decide) hm
  unfold State.carryJob
  repeat' first
    | (intro x; refine Kept.bind (s0 := s0) (m := mm) (x := x) ?_ ?_; subst x; rotate_left; clear_value x; intro _)
    | (intro y; have w_ : State × Nat := y; clear w_)
    | (intro y; clear_value y)
    | intro _
    | with_reducible assumption
    | with_reducible lift_lets -underBinder
    | with_reducible apply (entryEff_kept hm).all
    | with_reducible apply entryEff_kept hm
    | with_reducible apply State.runJob_kept k0
    | with_reducible apply State.finish_kept k1
    | with_reducible apply State.followDigest_kept k2
    | with_reducible apply State.syncTwin_kept k3
    | with_reducible apply Kept.ite
    | with_reducible split
    | split
    | with_reducible refine Kept.snd (by assumption) ?_
    | with_reducible refine Kept.fst (by assumption) ?_

theorem State.fieldWrite_kept {mm : Nat} {s0 s : State} {index sub : Nat} {l : List Byte} (hm : Sub 0x7fffffffffffffffffffffffffe mm) (h : Kept mm s0 s) : Kept mm s0 (State.fieldWrite index sub l s) := by
  have k0 : Sub 0x28000 mm := Sub.trans (by decide) hm
  unfold State.fieldWrite
  repeat' first
    | (intro x; refine Kept.bind (s0 := s0) (m := mm) (x := x) ?_ ?_; subst x; rotate_left; clear_value x; intro _)
    | (intro y; clear_value y)
    | intro _
    | with_reducible assumption
    | with_reducible lift_lets -underBinder
    | with_reducible apply State.write_kept hm
    | with_reducible apply State.sessionReply_kept k0
    | with_reducible apply Kept.ite
    | with_reducible split
    | split

theorem State.applyEntry_kept {mm : Nat} {s0 s : State} {i : Nat} {m : GooseMsg} {e : Nat} (hm : Sub 0x7fffffffffffffffffffffffffe mm) (h : Kept mm s0 s) : Kept mm s0 (State.applyEntry i m e s) := by
  have kz : Sub (2 ^ 107 - 2 ^ (20 + zone 0x27500b00)) mm := Sub.trans (by decide) hm
  unfold State.applyEntry
  repeat' first
    | (intro x; refine Kept.bind (s0 := s0) (m := mm) (x := x) ?_ ?_; subst x; rotate_left; clear_value x; intro _)
    | (intro y; clear_value y)
    | intro _
    | with_reducible assumption
    | with_reducible lift_lets -underBinder
    | with_reducible apply State.fieldWrite_kept hm
    | with_reducible refine State.inc_kept ?_ ?_
    | exact Sub.bit (Sub.trans (by decide) hm)
    | (refine Sub.from (b := 0x27500b00) kz ?_; (try simp only [key, bk, sbk]); omega)
    | with_reducible apply Kept.ite
    | with_reducible split
    | split

theorem State.gooseWrite_kept {mm : Nat} {s0 s : State} {i : Nat} {m : GooseMsg} (hm : Sub 0x7fffffffffffffffffffffffffe mm) (h : Kept mm s0 s) : Kept mm s0 (State.gooseWrite i m s) := by
  have k0 : Sub 0x0 mm := Sub.trans (by decide) hm
  have k1 : Sub 0x4 mm := Sub.trans (by decide) hm
  unfold State.gooseWrite
  repeat' first
    | (intro x; refine Kept.bind (s0 := s0) (m := mm) (x := x) ?_ ?_; subst x; rotate_left; clear_value x; intro _)
    | (intro y; clear_value y)
    | intro _
    | with_reducible assumption
    | with_reducible lift_lets -underBinder
    | with_reducible apply State.each_kept k0
    | with_reducible apply State.applyEntry_kept hm
    | with_reducible apply State.modBatch_kept k1
    | with_reducible apply State.carryJob_kept hm
    | with_reducible apply Kept.ite
    | with_reducible split
    | split

theorem State.gooseApply_kept {mm : Nat} {s0 s : State} {i : Nat} {m : GooseMsg} (hm : Sub 0x7fffffffffffffffffffffffffe mm) (h : Kept mm s0 s) : Kept mm s0 (State.gooseApply i m s) := by
  have k0 : Sub 0x4 mm := Sub.trans (by decide) hm
  have k1 : Sub 0x7fffffc00000000000000000000 mm := Sub.trans (by decide) hm
  unfold State.gooseApply
  repeat' first
    | (intro x; refine Kept.bind (s0 := s0) (m := mm) (x := x) ?_ ?_; subst x; rotate_left; clear_value x; intro _)
    | (intro y; clear_value y)
    | intro _
    | with_reducible assumption
    | with_reducible lift_lets -underBinder
    | with_reducible apply State.modBatch_kept k0
    | with_reducible apply State.notePeak_kept k1
    | with_reducible apply State.gooseWrite_kept hm
    | with_reducible apply Kept.ite
    | with_reducible split
    | split

theorem State.dictionaryJob_kept {mm : Nat} {s0 s : State} {b : Nat} (hm : Sub 0x7fffffffffffffffffffffffffe mm) (h : Kept mm s0 s) : Kept mm s0 (State.dictionaryJob b s) := by
  have k0 : Sub 0x4 mm := Sub.trans (by decide) hm
  unfold State.dictionaryJob
  repeat' first
    | (intro x; refine Kept.bind (s0 := s0) (m := mm) (x := x) ?_ ?_; subst x; rotate_left; clear_value x; intro _)
    | (intro y; clear_value y)
    | intro _
    | with_reducible assumption
    | with_reducible lift_lets -underBinder
    | with_reducible apply State.setBatch_kept k0
    | with_reducible apply State.gooseApply_kept hm
    | with_reducible apply State.carryJob_kept hm
    | with_reducible apply Kept.ite
    | with_reducible split
    | split

theorem State.readReply_kept {mm : Nat} {s0 s : State} {sid index sub elem limit : Nat} (hm : Sub 0x7fffffffc000000000000020200 mm) (h : Kept mm s0 s) : Kept mm s0 (State.readReply sid index sub elem limit s) := by
  have k0 : Sub 0x20000 mm := Sub.trans (by decide) hm
  have k1 : Sub 0x0 mm := Sub.trans (by decide) hm
  have k2 : Sub 0x200 mm := Sub.trans (by decide) hm
  have k3 : Sub 0x7fffffffc000000000000000000 mm := Sub.trans (by decide) hm
  unfold State.readReply
  repeat' first
    | (intro x; refine Kept.bind (s0 := s0) (m := mm) (x := x) ?_ ?_; subst x; rotate_left; clear_value x; intro _)
    | (intro y; clear_value y)
    | intro _
    | with_reducible assumption
    | with_reducible lift_lets -underBinder
    | with_reducible apply State.handling_kept k0
    | with_reducible apply State.answer_kept k1
    | with_reducible apply State.nodeRead_kept k2
    | with_reducible apply State.noteRead_kept k3
    | with_reducible apply State.emit_kept k1
    | with_reducible apply Kept.ite
    | with_reducible split
    | split

theorem State.dropTransfer_kept {mm : Nat} {s0 s : State} {index sub : Nat} (hm : Sub 0x20000 mm) (h : Kept mm s0 s) : Kept mm s0 (State.dropTransfer index sub s) := by
  unfold State.dropTransfer
  repeat' first
    | (intro x; refine Kept.bind (s0 := s0) (m := mm) (x := x) ?_ ?_; subst x; rotate_left; clear_value x; intro _)
    | (intro y; clear_value y)
    | intro _
    | with_reducible assumption
    | with_reducible lift_lets -underBinder
    | with_reducible apply State.modSrv_kept hm
    | with_reducible apply Kept.ite
    | with_reducible split
    | split

theorem State.putTransfer_kept {mm : Nat} {s0 s : State} {index sub : Nat} {x : Transfer} (hm : Sub 0x20000 mm) (h : Kept mm s0 s) : Kept mm s0 (State.putTransfer index sub x s) := by
  unfold State.putTransfer
  repeat' first
    | (intro x; refine Kept.bind (s0 := s0) (m := mm) (x := x) ?_ ?_; subst x; rotate_left; clear_value x; intro _)
    | (intro y; clear_value y)
    | intro _
    | with_reducible assumption
    | with_reducible lift_lets -underBinder
    | with_reducible apply State.modSrv_kept hm
    | with_reducible apply Kept.ite
    | with_reducible split
    | split

theorem State.segmentWrite_kept {mm : Nat} {s0 s : State} {q : Req} {index sub offset : Nat} {last : Bool} {l : List Byte} (hm : Sub 0x7fffffffffffffffffffffffffe mm) (h : Kept mm s0 s) : Kept mm s0 (State.segmentWrite q index sub offset last l s) := by
  have k0 : Sub 0x20000 mm := Sub.trans (by decide) hm
  have k1 : Sub 0x7fffd000000000000000000e000 mm := Sub.trans (by decide) hm
  have k2 : Sub 0x0 mm := Sub.trans (by decide) hm
  have k3 : Sub 0x8000 mm := Sub.trans (by decide) hm
  unfold State.segmentWrite
  repeat' first
    | (intro x; refine Kept.bind (s0 := s0) (m := mm) (x := x) ?_ ?_; subst x; rotate_left; clear_value x; intro _)
    | (intro y; clear_value y)
    | intro _
    | with_reducible assumption
    | with_reducible lift_lets -underBinder
    | with_reducible apply State.dropTransfer_kept k0
    | with_reducible apply State.handling_kept k0
    | with_reducible apply State.refuse_kept k1
    | with_reducible apply State.answer_kept k2
    | with_reducible apply State.write_kept hm
    | with_reducible apply State.askHandover_kept k3
    | with_reducible apply State.putTransfer_kept k0
    | with_reducible apply Kept.ite
    | with_reducible split
    | split

theorem State.segmentRead_kept {mm : Nat} {s0 s : State} {sid index sub offset limit : Nat} (hm : Sub 0x7fffffffc000000000000028200 mm) (h : Kept mm s0 s) : Kept mm s0 (State.segmentRead sid index sub offset limit s) := by
  have k0 : Sub 0x0 mm := Sub.trans (by decide) hm
  have k1 : Sub 0x200 mm := Sub.trans (by decide) hm
  have k2 : Sub 0x20000 mm := Sub.trans (by decide) hm
  have k3 : Sub 0x7fffffffc000000000000000000 mm := Sub.trans (by decide) hm
  have k4 : Sub 0x28000 mm := Sub.trans (by decide) hm
  unfold State.segmentRead
  repeat' first
    | (intro x; refine Kept.bind (s0 := s0) (m := mm) (x := x) ?_ ?_; subst x; rotate_left; clear_value x; intro _)
    | (intro y; clear_value y)
    | intro _
    | with_reducible assumption
    | with_reducible lift_lets -underBinder
    | with_reducible apply State.answer_kept k0
    | with_reducible apply State.nodeRead_kept k1
    | with_reducible apply State.modSrv_kept k2
    | with_reducible apply State.noteRead_kept k3
    | with_reducible apply State.segmentOf_kept k4
    | with_reducible apply Kept.ite
    | with_reducible split
    | split

theorem State.serve_kept {mm : Nat} {s0 s : State} {q : Req} {svc index sub elem offset : Nat} {last : Bool} {l : List Byte} {limit : Nat} (hm : Sub 0x7fffffffffffffffffffffffffe mm) (h : Kept mm s0 s) : Kept mm s0 (State.serve q svc index sub elem offset last l limit s) := by
  have k0 : Sub 0x7fffffffc000000000000020200 mm := Sub.trans (by decide) hm
  have k1 : Sub 0x20000 mm := Sub.trans (by decide) hm
  have k2 : Sub 0x7fffffffc000000000000028200 mm := Sub.trans (by decide) hm
  unfold State.serve
  repeat' first
    | (intro x; refine Kept.bind (s0 := s0) (m := mm) (x := x) ?_ ?_; subst x; rotate_left; clear_value x; intro _)
    | (intro y; clear_value y)
    | intro _
    | with_reducible assumption
    | with_reducible lift_lets -underBinder
    | with_reducible apply State.readReply_kept k0
    | with_reducible apply State.write_kept hm
    | with_reducible apply State.handling_kept k1
    | with_reducible apply State.segmentRead_kept k2
    | with_reducible apply State.segmentWrite_kept hm
    | with_reducible apply Kept.ite
    | with_reducible split
    | split

theorem State.rateOk_kept {mm : Nat} {s0 s : State} {d : Datagram} (hm : Sub 0x400000000020000 mm) (h : Kept mm s0 s) : Kept mm s0 (State.rateOk d s).2 := by
  have k0 : Sub 0x20000 mm := Sub.trans (by decide) hm
  unfold State.rateOk
  repeat' first
    | (intro x; refine Kept.bind (s0 := s0) (m := mm) (x := x) ?_ ?_; subst x; rotate_left; clear_value x; intro _)
    | (intro y; clear_value y)
    | intro _
    | with_reducible assumption
    | with_reducible lift_lets -underBinder
    | with_reducible apply State.modSrv_kept k0
    | with_reducible refine State.inc_kept ?_ ?_
    | exact Sub.bit (Sub.trans (by decide) hm)
    | with_reducible apply Kept.ite
    | with_reducible split
    | split

theorem State.arriving_kept {mm : Nat} {s0 s : State} {d : Datagram} {f : State → State} (hm : Sub 0x400000000020000 mm) (hf : ∀ (s : State), Kept mm s0 s → Kept mm s0 (f s)) (h : Kept mm s0 s) : Kept mm s0 (State.arriving d f s) := by
  unfold State.arriving
  repeat' first
    | (intro x; refine Kept.bind (s0 := s0) (m := mm) (x := x) ?_ ?_; subst x; rotate_left; clear_value x; intro _)
    | (intro y; have w_ : Bool × State := y; clear w_)
    | (intro y; clear_value y)
    | intro _
    | with_reducible assumption
    | with_reducible lift_lets -underBinder
    | with_reducible apply hf
    | with_reducible apply State.rateOk_kept hm
    | with_reducible apply Kept.ite
    | with_reducible split
    | split
    | with_reducible refine Kept.snd (by assumption) ?_
    | with_reducible refine Kept.fst (by assumption) ?_

theorem State.discard_kept {mm : Nat} {s0 s : State} (hm : Sub 0x10000000000000 mm) (h : Kept mm s0 s) : Kept mm s0 (State.discard s) := by
  unfold State.discard
  repeat' first
    | (intro x; refine Kept.bind (s0 := s0) (m := mm) (x := x) ?_ ?_; subst x; rotate_left; clear_value x; intro _)
    | (intro y; clear_value y)
    | intro _
    | with_reducible assumption
    | with_reducible lift_lets -underBinder
    | with_reducible refine State.inc_kept ?_ ?_
    | exact Sub.bit (Sub.trans (by decide) hm)
    | with_reducible apply Kept.ite
    | with_reducible split
    | split

theorem State.endSession_kept {mm : Nat} {s0 s : State} {sid : Nat} (hm : Sub 0x20000 mm) (h : Kept mm s0 s) : Kept mm s0 (State.endSession sid s) := by
  unfold State.endSession
  repeat' first
    | (intro x; refine Kept.bind (s0 := s0) (m := mm) (x := x) ?_ ?_; subst x; rotate_left; clear_value x; intro _)
    | (intro y; clear_value y)
    | intro _
    | with_reducible assumption
    | with_reducible lift_lets -underBinder
    | with_reducible apply State.modSrv_kept hm
    | with_reducible apply Kept.ite
    | with_reducible split
    | split

theorem State.openReply_kept {mm : Nat} {s0 s : State} {d : Datagram} {sid flags progress e : Nat} {l : List Byte} (hm : Sub 0x0 mm) (h : Kept mm s0 s) : Kept mm s0 (State.openReply d sid flags progress e l s) := by
  unfold State.openReply
  repeat' first
    | (intro x; refine Kept.bind (s0 := s0) (m := mm) (x := x) ?_ ?_; subst x; rotate_left; clear_value x; intro _)
    | (intro y; clear_value y)
    | intro _
    | with_reducible assumption
    | with_reducible lift_lets -underBinder
    | with_reducible apply State.datagram_kept hm
    | with_reducible apply Kept.ite
    | with_reducible split
    | split

theorem State.sessionOpened_kept {mm : Nat} {s0 s : State} {sid : Nat} {x : Session} (hm : Sub 0x7fffd000000000000000000e000 mm) (h : Kept mm s0 s) : Kept mm s0 (State.sessionOpened sid x s) := by
  unfold State.sessionOpened
  repeat' first
    | (intro x; refine Kept.bind (s0 := s0) (m := mm) (x := x) ?_ ?_; subst x; rotate_left; clear_value x; intro _)
    | (intro y; clear_value y)
    | intro _
    | with_reducible assumption
    | with_reducible lift_lets -underBinder
    | with_reducible apply State.logEvent_kept hm
    | with_reducible apply Kept.ite
    | with_reducible split
    | split

theorem State.openSession_kept {mm : Nat} {s0 s : State} {d : Datagram} (hm : Sub 0x7fffd00000000100000000ae000 mm) (h : Kept mm s0 s) : Kept mm s0 (State.openSession d s) := by
  have k0 : Sub 0x10000000000000 mm := Sub.trans (by decide) hm
  have k1 : Sub 0x0 mm := Sub.trans (by decide) hm
  have k2 : Sub 0x80000 mm := Sub.trans (by decide) hm
  have k3 : Sub 0x20000 mm := Sub.trans (by decide) hm
  have k4 : Sub 0x7fffd000000000000000000e000 mm := Sub.trans (by decide) hm
  unfold State.openSession
  repeat' first
    | (intro x; refine Kept.bind (s0 := s0) (m := mm) (x := x) ?_ ?_; subst x; rotate_left; clear_value x; intro _)
    | (intro y; have w_ : Nat × State := y; clear w_)
    | (intro y; clear_value y)
    | intro _
    | with_reducible assumption
    | with_reducible lift_lets -underBinder
    | with_reducible apply State.discard_kept k0
    | with_reducible apply State.openReply_kept k1
    | with_reducible apply State.draw_kept k2
    | with_reducible apply State.setSession_kept k3
    | with_reducible apply State.modSrv_kept k3
    | with_reducible apply State.sessionOpened_kept k4
    | with_reducible apply Kept.ite
    | with_reducible split
    | split
    | with_reducible refine Kept.snd (by assumption) ?_
    | with_reducible refine Kept.fst (by assumption) ?_

theorem State.accepting_kept {mm : Nat} {s0 s : State} {d : Datagram} {f : State → State} (hm : Sub 0x28000 mm) (hf : ∀ (s : State), Kept mm s0 s → Kept mm s0 (f s)) (h : Kept mm s0 s) : Kept mm s0 (State.accepting d f s) := by
  have k0 : Sub 0x20000 mm := Sub.trans (by decide) hm
  unfold State.accepting
  repeat' first
    | (intro x; refine Kept.bind (s0 := s0) (m := mm) (x := x) ?_ ?_; subst x; rotate_left; clear_value x; intro _)
    | (intro y; clear_value y)
    | intro _
    | with_reducible assumption
    | with_reducible lift_lets -underBinder
    | with_reducible apply hf
    | with_reducible apply State.respond_kept k0
    | with_reducible apply State.sessionReply_kept hm
    | with_reducible apply State.setSession_kept k0
    | with_reducible apply Kept.ite
    | with_reducible split
    | split

theorem State.sequenced_kept {mm : Nat} {s0 s : State} {d : Datagram} {x : Session} {f : State → State} (hm : Sub 0x10000000020000 mm) (hf : ∀ (s : State), Kept mm s0 s → Kept mm s0 (f s)) (h : Kept mm s0 s) : Kept mm s0 (State.sequenced d x f s) := by
  have k0 : Sub 0x0 mm := Sub.trans (by decide) hm
  have k1 : Sub 0x20000 mm := Sub.trans (by decide) hm
  unfold State.sequenced
  repeat' first
    | (intro x; refine Kept.bind (s0 := s0) (m := mm) (x := x) ?_ ?_; subst x; rotate_left; clear_value x; intro _)
    | (intro y; clear_value y)
    | intro _
    | with_reducible assumption
    | with_reducible lift_lets -underBinder
    | with_reducible apply hf
    | with_reducible apply State.datagram_kept k0
    | with_reducible apply State.respond_kept k1
    | with_reducible refine State.inc_kept ?_ ?_
    | exact Sub.bit (Sub.trans (by decide) hm)
    | with_reducible apply Kept.ite
    | with_reducible split
    | split

theorem State.request_kept {mm : Nat} {s0 s : State} {svc : Nat} {d : Datagram} {f : Session → State → State} (hm : Sub 0x410000000028000 mm) (hf : ∀ (x0 : Session) (s : State), Kept mm s0 s → Kept mm s0 (f x0 s)) (h : Kept mm s0 s) : Kept mm s0 (State.request svc d f s) := by
  have k0 : Sub 0x400000000020000 mm := Sub.trans (by decide) hm
  have k1 : Sub 0x10000000000000 mm := Sub.trans (by decide) hm
  have k2 : Sub 0x20000 mm := Sub.trans (by decide) hm
  have k3 : Sub 0x0 mm := Sub.trans (by decide) hm
  have k4 : Sub 0x10000000020000 mm := Sub.trans (by decide) hm
  have k5 : Sub 0x28000 mm := Sub.trans (by decide) hm
  unfold State.request
  repeat' first
    | (intro x; refine Kept.bind (s0 := s0) (m := mm) (x := x) ?_ ?_; subst x; rotate_left; clear_value x; intro _)
    | (intro y; clear_value y)
    | intro _
    | with_reducible assumption
    | with_reducible lift_lets -underBinder
    | with_reducible apply hf
    | with_reducible apply State.arriving_kept k0
    | with_reducible apply State.discard_kept k1
    | with_reducible apply State.setSession_kept k2
    | with_reducible apply State.busy_kept k3
    | with_reducible apply State.sequenced_kept k4
    | with_reducible apply State.accepting_kept k5
    | with_reducible apply Kept.ite
    | with_reducible split
    | split

theorem State.prove_kept {mm : Nat} {s0 s : State} {d : Datagram} {x : Session} (hm : Sub 0x7fffd00000000100000000ae000 mm) (h : Kept mm s0 s) : Kept mm s0 (State.prove d x s) := by
  have k0 : Sub 0x0 mm := Sub.trans (by decide) hm
  have k1 : Sub 0x20000 mm := Sub.trans (by decide) hm
  have k2 : Sub 0x7fffd000000000000000000e000 mm := Sub.trans (by decide) hm
  have k3 : Sub 0x80000 mm := Sub.trans (by decide) hm
  unfold State.prove
  repeat' first
    | (intro x; refine Kept.bind (s0 := s0) (m := mm) (x := x) ?_ ?_; subst x; rotate_left; clear_value x; intro _)
    | (intro y; have w_ : Nat × State := y; clear w_)
    | (intro y; clear_value y)
    | intro _
    | with_reducible assumption
    | with_reducible lift_lets -underBinder
    | with_reducible apply State.answer_kept k0
    | with_reducible apply State.setSession_kept k1
    | with_reducible apply State.sessionOpened_kept k2
    | with_reducible apply State.draw_kept k3
    | with_reducible apply State.modSrv_kept k1
    | with_reducible apply State.logEvent_kept k2
    | with_reducible refine State.inc_kept ?_ ?_
    | exact Sub.bit (Sub.trans (by decide) hm)
    | with_reducible apply Kept.ite
    | with_reducible split
    | split
    | with_reducible refine Kept.snd (by assumption) ?_
    | with_reducible refine Kept.fst (by assumption) ?_

theorem State.toSlot_kept {mm : Nat} {s0 s : State} {svc : Nat} {d : Datagram} (hm : Sub 0x28000 mm) (h : Kept mm s0 s) : Kept mm s0 (State.toSlot svc d s) := by
  have k0 : Sub 0x0 mm := Sub.trans (by decide) hm
  have k1 : Sub 0x20000 mm := Sub.trans (by decide) hm
  have k2 : Sub 0x8000 mm := Sub.trans (by decide) hm
  unfold State.toSlot
  repeat' first
    | (intro x; refine Kept.bind (s0 := s0) (m := mm) (x := x) ?_ ?_; subst x; rotate_left; clear_value x; intro _)
    | (intro y; clear_value y)
    | intro _
    | with_reducible assumption
    | with_reducible lift_lets -underBinder
    | with_reducible apply State.answer_kept k0
    | with_reducible apply State.modSrv_kept k1
    | with_reducible apply State.rackMsg_kept k2
    | with_reducible apply Kept.ite
    | with_reducible split
    | split

theorem State.entryRequest_kept {mm : Nat} {s0 s : State} {svc : Nat} {d : Datagram} (hm : Sub 0x7fffffffffffffffffffffffffe mm) (h : Kept mm s0 s) : Kept mm s0 (State.entryRequest svc d s) := by
  have k0 : Sub 0x410000000028000 mm := Sub.trans (by decide) hm
  have k1 : Sub 0x28000 mm := Sub.trans (by decide) hm
  unfold State.entryRequest
  repeat' first
    | (intro x; refine Kept.bind (s0 := s0) (m := mm) (x := x) ?_ ?_; subst x; rotate_left; clear_value x; intro _)
    | (intro y; clear_value y)
    | intro _
    | with_reducible assumption
    | with_reducible lift_lets -underBinder
    | with_reducible apply State.request_kept k0
    | with_reducible apply State.toSlot_kept k1
    | with_reducible apply State.serve_kept hm
    | with_reducible apply Kept.ite
    | with_reducible split
    | split

theorem State.unaccept_kept {mm : Nat} {s0 s : State} {sid : Nat} (hm : Sub 0x20000 mm) (h : Kept mm s0 s) : Kept mm s0 (State.unaccept sid s) := by
  unfold State.unaccept
  repeat' first
    | (intro x; refine Kept.bind (s0 := s0) (m := mm) (x := x) ?_ ?_; subst x; rotate_left; clear_value x; intro _)
    | (intro y; clear_value y)
    | intro _
    | with_reducible assumption
    | with_reducible lift_lets -underBinder
    | with_reducible apply State.setSession_kept hm
    | with_reducible apply Kept.ite
    | with_reducible split
    | split

theorem State.gatewayReply_kept {mm : Nat} {s0 s : State} {m : GatewayRep} (hm : Sub 0x20000 mm) (h : Kept mm s0 s) : Kept mm s0 (State.gatewayReply m s) := by
  unfold State.gatewayReply
  repeat' first
    | (intro x; refine Kept.bind (s0 := s0) (m := mm) (x := x) ?_ ?_; subst x; rotate_left; clear_value x; intro _)
    | (intro y; clear_value y)
    | intro _
    | with_reducible assumption
    | with_reducible lift_lets -underBinder
    | with_reducible apply State.modSrv_kept hm
    | with_reducible apply State.respond_kept hm
    | with_reducible apply State.unaccept_kept hm
    | with_reducible apply Kept.ite
    | with_reducible split
    | split

theorem State.gatewayTimeout_kept {mm : Nat} {s0 s : State} (hm : Sub 0x28000 mm) (h : Kept mm s0 s) : Kept mm s0 (State.gatewayTimeout s) := by
  have k0 : Sub 0x0 mm := Sub.trans (by decide) hm
  have k1 : Sub 0x20000 mm := Sub.trans (by decide) hm
  unfold State.gatewayTimeout
  repeat' first
    | (intro x; refine Kept.bind (s0 := s0) (m := mm) (x := x) ?_ ?_; subst x; rotate_left; clear_value x; intro _)
    | (intro y; clear_value y)
    | intro _
    | with_reducible assumption
    | with_reducible lift_lets -underBinder
    | with_reducible apply State.when_kept k0
    | with_reducible apply State.modSrv_kept k1
    | with_reducible apply State.answerTo_kept hm
    | with_reducible apply Kept.ite
    | with_reducible split
    | split

theorem State.gatewayFrame_kept {mm : Nat} {s0 s : State} {m : GatewayReq} (hm : Sub 0x7fffffffffffffffffffffffffe mm) (h : Kept mm s0 s) : Kept mm s0 (State.gatewayFrame m s) := by
  have k0 : Sub 0x0 mm := Sub.trans (by decide) hm
  have k1 : Sub 0x28000 mm := Sub.trans (by decide) hm
  unfold State.gatewayFrame
  repeat' first
    | (intro x; refine Kept.bind (s0 := s0) (m := mm) (x := x) ?_ ?_; subst x; rotate_left; clear_value x; intro _)
    | (intro y; clear_value y)
    | intro _
    | with_reducible assumption
    | with_reducible lift_lets -underBinder
    | with_reducible apply State.emit_kept k0
    | with_reducible apply State.serve_kept hm
    | with_reducible apply State.sessionReply_kept k1
    | with_reducible apply Kept.ite
    | with_reducible split
    | split

theorem State.idleTimeout_kept {mm : Nat} {s0 s : State} {sid : Nat} (hm : Sub 0x20000 mm) (h : Kept mm s0 s) : Kept mm s0 (State.idleTimeout sid s) := by
  have k0 : Sub 0x0 mm := Sub.trans (by decide) hm
  unfold State.idleTimeout
  repeat' first
    | (intro x; refine Kept.bind (s0 := s0) (m := mm) (x := x) ?_ ?_; subst x; rotate_left; clear_value x; intro _)
    | (intro y; clear_value y)
    | intro _
    | with_reducible assumption
    | with_reducible lift_lets -underBinder
    | with_reducible apply State.when_kept k0
    | with_reducible apply State.endSession_kept hm
    | with_reducible apply Kept.ite
    | with_reducible split
    | split

theorem State.notProved_kept {mm : Nat} {s0 s : State} {sid : Nat} (hm : Sub 0x20000 mm) (h : Kept mm s0 s) : Kept mm s0 (State.notProved sid s) := by
  have k0 : Sub 0x0 mm := Sub.trans (by decide) hm
  unfold State.notProved
  repeat' first
    | (intro x; refine Kept.bind (s0 := s0) (m := mm) (x := x) ?_ ?_; subst x; rotate_left; clear_value x; intro _)
    | (intro y; clear_value y)
    | intro _
    | with_reducible assumption
    | with_reducible lift_lets -underBinder
    | with_reducible apply State.when_kept k0
    | with_reducible apply State.endSession_kept hm
    | with_reducible apply Kept.ite
    | with_reducible split
    | split

theorem State.blockTimeEnd_kept {mm : Nat} {s0 s : State} {src : Nat} (hm : Sub 0x20000 mm) (h : Kept mm s0 s) : Kept mm s0 (State.blockTimeEnd src s) := by
  have k0 : Sub 0x0 mm := Sub.trans (by decide) hm
  unfold State.blockTimeEnd
  repeat' first
    | (intro x; refine Kept.bind (s0 := s0) (m := mm) (x := x) ?_ ?_; subst x; rotate_left; clear_value x; intro _)
    | (intro y; clear_value y)
    | intro _
    | with_reducible assumption
    | with_reducible lift_lets -underBinder
    | with_reducible apply State.when_kept k0
    | with_reducible apply State.modSrv_kept hm
    | with_reducible apply Kept.ite
    | with_reducible split
    | split

theorem State.notApplied_kept {mm : Nat} {s0 s : State} {q : Req} {index sub elem : Nat} {l : List Byte} (hm : Sub 0x7fffffffffffffffffffffffffe mm) (h : Kept mm s0 s) : Kept mm s0 (State.notApplied q index sub elem l s) := by
  have k0 : Sub 0x8000 mm := Sub.trans (by decide) hm
  have k1 : Sub 0x400000000000 mm := Sub.trans (by decide) hm
  unfold State.notApplied
  repeat' first
    | (intro x; refine Kept.bind (s0 := s0) (m := mm) (x := x) ?_ ?_; subst x; rotate_left; clear_value x; intro _)
    | (intro y; clear_value y)
    | intro _
    | with_reducible assumption
    | with_reducible lift_lets -underBinder
    | with_reducible apply State.modRack_kept k0
    | with_reducible apply (entryEff_kept hm).all
    | with_reducible apply entryEff_kept hm
    | with_reducible apply State.syncTwin_kept k1
    | with_reducible apply Kept.ite
    | with_reducible split
    | split

theorem State.forwarded_kept {mm : Nat} {s0 s : State} {index sub elem : Nat} {l : List Byte} (hm : Sub 0x7fffffffffffffffffffffffffe mm) (h : Kept mm s0 s) : Kept mm s0 (State.forwarded index sub elem l s) := by
  have k0 : Sub 0x28000 mm := Sub.trans (by decide) hm
  have k1 : Sub 0x8000 mm := Sub.trans (by decide) hm
  have k2 : Sub 0x400000000000 mm := Sub.trans (by decide) hm
  have k3 : Sub 0x0 mm := Sub.trans (by decide) hm
  unfold State.forwarded
  repeat' first
    | (intro x; refine Kept.bind (s0 := s0) (m := mm) (x := x) ?_ ?_; subst x; rotate_left; clear_value x; intro _)
    | (intro y; clear_value y)
    | intro _
    | with_reducible assumption
    | with_reducible lift_lets -underBinder
    | with_reducible apply State.settleForward_kept k0
    | with_reducible apply State.followDigest_kept k1
    | with_reducible apply State.syncTwin_kept k2
    | with_reducible apply State.when_kept k3
    | with_reducible apply State.answerTo_kept k0
    | with_reducible apply State.notApplied_kept hm
    | with_reducible apply State.write_kept hm
    | with_reducible apply State.sessionReply_kept k0
    | with_reducible apply Kept.ite
    | with_reducible split
    | split

theorem State.usdo_kept {mm : Nat} {s0 s : State} {k : Nat} {m : UsdoReq} (hm : Sub 0x7fffffffffffffffffffffffffe mm) (h : Kept mm s0 s) : Kept mm s0 (State.usdo k m s) := by
  have k0 : Sub 0x28000 mm := Sub.trans (by decide) hm
  have k1 : Sub 0x7fffffffc000000000000020200 mm := Sub.trans (by decide) hm
  have k2 : Sub 0x20000 mm := Sub.trans (by decide) hm
  have k3 : Sub 0x0 mm := Sub.trans (by decide) hm
  unfold State.usdo
  repeat' first
    | (intro x; refine Kept.bind (s0 := s0) (m := mm) (x := x) ?_ ?_; subst x; rotate_left; clear_value x; intro _)
    | (intro y; clear_value y)
    | intro _
    | with_reducible assumption
    | with_reducible lift_lets -underBinder
    | with_reducible apply State.answerTo_kept k0
    | with_reducible apply State.write_kept hm
    | with_reducible apply State.readReply_kept k1
    | with_reducible apply State.segmentWrite_kept hm
    | with_reducible apply State.modSrv_kept k2
    | with_reducible apply State.answer_kept k3
    | with_reducible apply State.sessionReply_kept k0
    | with_reducible apply Kept.ite
    | with_reducible split
    | split

end Sys2Proof.Machine
end

