-- ==== Sys2Proof/Laws/KeptNet.lean ====
section
/-! SUPPORT. What the operations of Machine/Net.lean may change (Safety.lean, Kept): one lemma for each. -/

set_option linter.all false

namespace Sys2Proof.Machine

theorem State.modNet_kept {mm : Nat} {s0 s : State} {f : Net → Net} (hm : Sub 0x40000 mm) (h : Kept mm s0 s) : Kept mm s0 (State.modNet f s) := by
  unfold State.modNet
  repeat' first
    | (intro x; refine Kept.bind (s0 := s0) (m := mm) (x := x) ?_ ?_; subst x; rotate_left; clear_value x; intro _)
    | (intro y; clear_value y)
    | intro _
    | with_reducible assumption
    | with_reducible lift_lets -underBinder
    | with_reducible apply Kept.ite
    | with_reducible split
    | split
    | with_reducible apply Kept.upd_net hm

theorem State.onCan_kept {mm : Nat} {s0 s : State} {k : Nat} {f : State → State} (hm : Sub 0x7ffffffffffff00000000000000 mm) (hf : ∀ (s : State), Kept mm s0 s → Kept mm s0 (f s)) (h : Kept mm s0 s) : Kept mm s0 (State.onCan k f s) := by
  have kz : Sub (2 ^ 107 - 2 ^ (20 + zone 0x27100800)) mm := Sub.trans (by decide) hm
  unfold State.onCan
  repeat' first
    | (intro x; refine Kept.bind (s0 := s0) (m := mm) (x := x) ?_ ?_; subst x; rotate_left; clear_value x; intro _)
    | (intro y; clear_value y)
    | intro _
    | with_reducible assumption
    | with_reducible lift_lets -underBinder
    | with_reducible apply hf
    | with_reducible refine State.wr_kept ?_ ?_
    | exact Sub.bit (Sub.trans (by decide) hm)
    | (refine Sub.from (b := 0x27100800) kz ?_; (try simp only [key, bk, cpk]); omega)
    | with_reducible apply Kept.ite
    | with_reducible split
    | split

theorem State.rpdo_kept {mm : Nat} {s0 s : State} {k r : Nat} {l : List Byte} (hm : Sub 0x7fffffffffffffffffffffffffe mm) (h : Kept mm s0 s) : Kept mm s0 (State.rpdo k r l s) := by
  have k0 : Sub 0x40000 mm := Sub.trans (by decide) hm
  unfold State.rpdo
  repeat' first
    | (intro x; refine Kept.bind (s0 := s0) (m := mm) (x := x) ?_ ?_; subst x; rotate_left; clear_value x; intro _)
    | (intro y; clear_value y)
    | intro _
    | with_reducible assumption
    | with_reducible lift_lets -underBinder
    | with_reducible apply State.modNet_kept k0
    | with_reducible apply State.fieldWrite_kept hm
    | with_reducible apply Kept.ite
    | with_reducible split
    | split
    | with_reducible apply Kept.foldl_snd
    | with_reducible apply Kept.foldl_fst
    | with_reducible apply Kept.foldl

theorem State.setTpdo_kept {mm : Nat} {s0 s : State} {k p : Nat} {x : TpdoRec} (hm : Sub 0x40000 mm) (h : Kept mm s0 s) : Kept mm s0 (State.setTpdo k p x s) := by
  unfold State.setTpdo
  repeat' first
    | (intro x; refine Kept.bind (s0 := s0) (m := mm) (x := x) ?_ ?_; subst x; rotate_left; clear_value x; intro _)
    | (intro y; clear_value y)
    | intro _
    | with_reducible assumption
    | with_reducible lift_lets -underBinder
    | with_reducible apply State.modNet_kept hm
    | with_reducible apply Kept.ite
    | with_reducible split
    | split

theorem State.sendTpdo_kept {mm : Nat} {s0 s : State} {k p : Nat} (hm : Sub 0x40000 mm) (h : Kept mm s0 s) : Kept mm s0 (State.sendTpdo k p s) := by
  have k0 : Sub 0x0 mm := Sub.trans (by decide) hm
  unfold State.sendTpdo
  repeat' first
    | (intro x; refine Kept.bind (s0 := s0) (m := mm) (x := x) ?_ ?_; subst x; rotate_left; clear_value x; intro _)
    | (intro y; clear_value y)
    | intro _
    | with_reducible assumption
    | with_reducible lift_lets -underBinder
    | with_reducible apply State.setTpdo_kept hm
    | with_reducible apply State.msg_kept k0
    | with_reducible apply Kept.ite
    | with_reducible split
    | split

theorem State.canSync_kept {mm : Nat} {s0 s : State} {k : Nat} (hm : Sub 0x40000 mm) (h : Kept mm s0 s) : Kept mm s0 (State.canSync k s) := by
  have k0 : Sub 0x0 mm := Sub.trans (by decide) hm
  unfold State.canSync
  repeat' first
    | (intro x; refine Kept.bind (s0 := s0) (m := mm) (x := x) ?_ ?_; subst x; rotate_left; clear_value x; intro _)
    | (intro y; clear_value y)
    | intro _
    | with_reducible assumption
    | with_reducible lift_lets -underBinder
    | with_reducible apply State.each_kept k0
    | with_reducible apply State.sendTpdo_kept hm
    | with_reducible apply State.setTpdo_kept hm
    | with_reducible apply Kept.ite
    | with_reducible split
    | split

theorem State.tpdoEvent_kept {mm : Nat} {s0 s : State} {k p : Nat} {timer : Bool} (hm : Sub 0x40000 mm) (h : Kept mm s0 s) : Kept mm s0 (State.tpdoEvent k p timer s) := by
  have k0 : Sub 0x0 mm := Sub.trans (by decide) hm
  unfold State.tpdoEvent
  repeat' first
    | (intro x; refine Kept.bind (s0 := s0) (m := mm) (x := x) ?_ ?_; subst x; rotate_left; clear_value x; intro _)
    | (intro y; clear_value y)
    | intro _
    | with_reducible assumption
    | with_reducible lift_lets -underBinder
    | with_reducible apply State.when_kept k0
    | with_reducible apply State.sendTpdo_kept hm
    | with_reducible apply Kept.ite
    | with_reducible split
    | split

theorem State.nmt_kept {mm : Nat} {s0 s : State} {k : Nat} {f : State → State} (hm : Sub 0x7ffffffffffff00000000000000 mm) (hf : ∀ (s : State), Kept mm s0 s → Kept mm s0 (f s)) (h : Kept mm s0 s) : Kept mm s0 (State.nmt k f s) := by
  have kz : Sub (2 ^ 107 - 2 ^ (20 + zone 0x27100b00)) mm := Sub.trans (by decide) hm
  unfold State.nmt
  repeat' first
    | (intro x; refine Kept.bind (s0 := s0) (m := mm) (x := x) ?_ ?_; subst x; rotate_left; clear_value x; intro _)
    | (intro y; clear_value y)
    | intro _
    | with_reducible assumption
    | with_reducible lift_lets -underBinder
    | with_reducible apply hf
    | with_reducible refine State.inc_kept ?_ ?_
    | exact Sub.bit (Sub.trans (by decide) hm)
    | (refine Sub.from (b := 0x27100b00) kz ?_; (try simp only [key, bk, cpk]); omega)
    | with_reducible apply Kept.ite
    | with_reducible split
    | split

theorem State.nmtCommand_kept {mm : Nat} {s0 s : State} {c : Nat} (hm : Sub 0x7fffffffffffffffffff70fffe6 mm) (h : Kept mm s0 s) : Kept mm s0 (State.nmtCommand c s) := by
  have k0 : Sub 0x20000 mm := Sub.trans (by decide) hm
  have k1 : Sub 0x7fffffc00000000000000028004 mm := Sub.trans (by decide) hm
  have k2 : Sub 0x28000 mm := Sub.trans (by decide) hm
  unfold State.nmtCommand
  repeat' first
    | (intro x; refine Kept.bind (s0 := s0) (m := mm) (x := x) ?_ ?_; subst x; rotate_left; clear_value x; intro _)
    | (intro y; clear_value y)
    | intro _
    | with_reducible assumption
    | with_reducible lift_lets -underBinder
    | with_reducible apply State.handling_kept k0
    | with_reducible apply State.carryOut_kept k1
    | with_reducible apply (commandOf_kept hm).all
    | with_reducible apply commandOf_kept hm
    | with_reducible apply State.sessionReply_kept k2
    | with_reducible apply Kept.ite
    | with_reducible split
    | split

theorem State.canRestart_kept {mm : Nat} {s0 s : State} {k : Nat} (hm : Sub 0x240000 mm) (h : Kept mm s0 s) : Kept mm s0 (State.canRestart k s) := by
  have k0 : Sub 0x40000 mm := Sub.trans (by decide) hm
  unfold State.canRestart
  repeat' first
    | (intro x; refine Kept.bind (s0 := s0) (m := mm) (x := x) ?_ ?_; subst x; rotate_left; clear_value x; intro _)
    | (intro y; clear_value y)
    | intro _
    | with_reducible assumption
    | with_reducible lift_lets -underBinder
    | with_reducible apply State.modNet_kept k0
    | with_reducible refine State.setBit_kept ?_ ?_
    | exact Sub.bit (Sub.trans (by decide) hm)
    | with_reducible apply Kept.ite
    | with_reducible split
    | split

theorem State.heartbeatOut_kept {mm : Nat} {s0 s : State} {k : Nat} (hm : Sub 0x40000 mm) (h : Kept mm s0 s) : Kept mm s0 (State.heartbeatOut k s) := by
  have k0 : Sub 0x0 mm := Sub.trans (by decide) hm
  unfold State.heartbeatOut
  repeat' first
    | (intro x; refine Kept.bind (s0 := s0) (m := mm) (x := x) ?_ ?_; subst x; rotate_left; clear_value x; intro _)
    | (intro y; clear_value y)
    | intro _
    | with_reducible assumption
    | with_reducible lift_lets -underBinder
    | with_reducible apply State.when_kept k0
    | with_reducible apply State.modNet_kept hm
    | with_reducible apply State.msg_kept k0
    | with_reducible apply Kept.ite
    | with_reducible split
    | split

theorem State.heartbeatIn_kept {mm : Nat} {s0 s : State} {k node : Nat} (hm : Sub 0x240000 mm) (h : Kept mm s0 s) : Kept mm s0 (State.heartbeatIn k node s) := by
  have k0 : Sub 0x40000 mm := Sub.trans (by decide) hm
  unfold State.heartbeatIn
  repeat' first
    | (intro x; refine Kept.bind (s0 := s0) (m := mm) (x := x) ?_ ?_; subst x; rotate_left; clear_value x; intro _)
    | (intro y; clear_value y)
    | intro _
    | with_reducible assumption
    | with_reducible lift_lets -underBinder
    | with_reducible apply State.modNet_kept k0
    | with_reducible refine State.setBit_kept ?_ ?_
    | exact Sub.bit (Sub.trans (by decide) hm)
    | with_reducible apply Kept.ite
    | with_reducible split
    | split

theorem State.heartbeatLate_kept {mm : Nat} {s0 s : State} {k node : Nat} (hm : Sub 0x7fffd000000000000000024e000 mm) (h : Kept mm s0 s) : Kept mm s0 (State.heartbeatLate k node s) := by
  have k0 : Sub 0x0 mm := Sub.trans (by decide) hm
  have k1 : Sub 0x40000 mm := Sub.trans (by decide) hm
  have k2 : Sub 0x7fffd000000000000000000e000 mm := Sub.trans (by decide) hm
  unfold State.heartbeatLate
  repeat' first
    | (intro x; refine Kept.bind (s0 := s0) (m := mm) (x := x) ?_ ?_; subst x; rotate_left; clear_value x; intro _)
    | (intro y; clear_value y)
    | intro _
    | with_reducible assumption
    | with_reducible lift_lets -underBinder
    | with_reducible apply State.when_kept k0
    | with_reducible apply State.modNet_kept k1
    | with_reducible apply State.logEvent_kept k2
    | with_reducible refine State.setBit_kept ?_ ?_
    | exact Sub.bit (Sub.trans (by decide) hm)
    | with_reducible apply Kept.ite
    | with_reducible split
    | split

theorem State.canFrame_kept {mm : Nat} {s0 s : State} {k : Nat} {ext : Bool} {ident : Nat} {l : List Byte} (hm : Sub 0x7fffd000000000000000024e000 mm) (h : Kept mm s0 s) : Kept mm s0 (State.canFrame k ext ident l s) := by
  have k0 : Sub 0x240000 mm := Sub.trans (by decide) hm
  have k1 : Sub 0x7fffd000000000000000000e000 mm := Sub.trans (by decide) hm
  unfold State.canFrame
  repeat' first
    | (intro x; refine Kept.bind (s0 := s0) (m := mm) (x := x) ?_ ?_; subst x; rotate_left; clear_value x; intro _)
    | (intro y; clear_value y)
    | intro _
    | with_reducible assumption
    | with_reducible lift_lets -underBinder
    | with_reducible apply State.heartbeatIn_kept k0
    | with_reducible apply State.frameSource_kept k1
    | with_reducible apply Kept.ite
    | with_reducible split
    | split

theorem State.supervision_kept {mm : Nat} {s0 s : State} {p : Nat} (hm : Sub 0x40000 mm) (h : Kept mm s0 s) : Kept mm s0 (State.supervision p s) := by
  have k0 : Sub 0x0 mm := Sub.trans (by decide) hm
  unfold State.supervision
  repeat' first
    | (intro x; refine Kept.bind (s0 := s0) (m := mm) (x := x) ?_ ?_; subst x; rotate_left; clear_value x; intro _)
    | (intro y; clear_value y)
    | intro _
    | with_reducible assumption
    | with_reducible lift_lets -underBinder
    | with_reducible apply State.when_kept k0
    | with_reducible apply State.modNet_kept hm
    | with_reducible apply State.msg_kept k0
    | with_reducible apply Kept.ite
    | with_reducible split
    | split

theorem State.setPub_kept {mm : Nat} {s0 s : State} {g : Nat} {x : PubRec} (hm : Sub 0x40000 mm) (h : Kept mm s0 s) : Kept mm s0 (State.setPub g x s) := by
  unfold State.setPub
  repeat' first
    | (intro x; refine Kept.bind (s0 := s0) (m := mm) (x := x) ?_ ?_; subst x; rotate_left; clear_value x; intro _)
    | (intro y; clear_value y)
    | intro _
    | with_reducible assumption
    | with_reducible lift_lets -underBinder
    | with_reducible apply State.modNet_kept hm
    | with_reducible apply Kept.ite
    | with_reducible split
    | split

theorem State.sendGoose_kept {mm : Nat} {s0 s : State} {g i : Nat} (hm : Sub 0x7fffffffffff000000000040000 mm) (h : Kept mm s0 s) : Kept mm s0 (State.sendGoose g i s) := by
  have k0 : Sub 0x40000 mm := Sub.trans (by decide) hm
  have k1 : Sub 0x0 mm := Sub.trans (by decide) hm
  have kz : Sub (2 ^ 107 - 2 ^ (20 + zone 0x27400f00)) mm := Sub.trans (by decide) hm
  unfold State.sendGoose
  repeat' first
    | (intro x; refine Kept.bind (s0 := s0) (m := mm) (x := x) ?_ ?_; subst x; rotate_left; clear_value x; intro _)
    | (intro y; clear_value y)
    | intro _
    | with_reducible assumption
    | with_reducible lift_lets -underBinder
    | with_reducible apply State.setPub_kept k0
    | with_reducible apply State.msg_kept k1
    | with_reducible refine State.inc_kept ?_ ?_
    | exact Sub.bit (Sub.trans (by decide) hm)
    | (refine Sub.from (b := 0x27400f00) kz ?_; (try simp only [key, bk, pbk]); omega)
    | with_reducible apply Kept.ite
    | with_reducible split
    | split

theorem State.comparePub_kept {mm : Nat} {s0 s : State} {g : Nat} (hm : Sub 0x7fffffffffff000000000040000 mm) (h : Kept mm s0 s) : Kept mm s0 (State.comparePub g s) := by
  have k0 : Sub 0x40000 mm := Sub.trans (by decide) hm
  have kz : Sub (2 ^ 107 - 2 ^ (20 + zone 0x27400e00)) mm := Sub.trans (by decide) hm
  unfold State.comparePub
  repeat' first
    | (intro x; refine Kept.bind (s0 := s0) (m := mm) (x := x) ?_ ?_; subst x; rotate_left; clear_value x; intro _)
    | (intro y; clear_value y)
    | intro _
    | with_reducible assumption
    | with_reducible lift_lets -underBinder
    | with_reducible apply State.setPub_kept k0
    | with_reducible apply State.sendGoose_kept hm
    | with_reducible refine State.inc_kept ?_ ?_
    | exact Sub.bit (Sub.trans (by decide) hm)
    | (refine Sub.from (b := 0x27400e00) kz ?_; (try simp only [key, bk, pbk]); omega)
    | with_reducible apply Kept.ite
    | with_reducible split
    | split

theorem State.retransmit_kept {mm : Nat} {s0 s : State} {g : Nat} (hm : Sub 0x7fffffffffff000000000040000 mm) (h : Kept mm s0 s) : Kept mm s0 (State.retransmit g s) := by
  have k0 : Sub 0x0 mm := Sub.trans (by decide) hm
  have k1 : Sub 0x40000 mm := Sub.trans (by decide) hm
  unfold State.retransmit
  repeat' first
    | (intro x; refine Kept.bind (s0 := s0) (m := mm) (x := x) ?_ ?_; subst x; rotate_left; clear_value x; intro _)
    | (intro y; clear_value y)
    | intro _
    | with_reducible assumption
    | with_reducible lift_lets -underBinder
    | with_reducible apply State.when_kept k0
    | with_reducible apply State.setPub_kept k1
    | with_reducible apply State.sendGoose_kept hm
    | with_reducible apply Kept.ite
    | with_reducible split
    | split

theorem State.setSub_kept {mm : Nat} {s0 s : State} {i : Nat} {x : SubRec} (hm : Sub 0x40000 mm) (h : Kept mm s0 s) : Kept mm s0 (State.setSub i x s) := by
  unfold State.setSub
  repeat' first
    | (intro x; refine Kept.bind (s0 := s0) (m := mm) (x := x) ?_ ?_; subst x; rotate_left; clear_value x; intro _)
    | (intro y; clear_value y)
    | intro _
    | with_reducible assumption
    | with_reducible lift_lets -underBinder
    | with_reducible apply State.modNet_kept hm
    | with_reducible apply Kept.ite
    | with_reducible split
    | split

theorem State.takeGoose_kept {mm : Nat} {s0 s : State} {i : Nat} {m : GooseMsg} (hm : Sub 0x7fffffffffffffffffffffffffe mm) (h : Kept mm s0 s) : Kept mm s0 (State.takeGoose i m s) := by
  have k0 : Sub 0x40000 mm := Sub.trans (by decide) hm
  have k1 : Sub 0x0 mm := Sub.trans (by decide) hm
  have k2 : Sub 0x7fffd000000000000000000e000 mm := Sub.trans (by decide) hm
  have kz : Sub (2 ^ 107 - 2 ^ (20 + zone 0x27500900)) mm := Sub.trans (by decide) hm
  unfold State.takeGoose
  repeat' first
    | (intro x; refine Kept.bind (s0 := s0) (m := mm) (x := x) ?_ ?_; subst x; rotate_left; clear_value x; intro _)
    | (intro y; clear_value y)
    | intro _
    | with_reducible assumption
    | with_reducible lift_lets -underBinder
    | with_reducible apply State.setSub_kept k0
    | with_reducible apply State.gooseApply_kept hm
    | with_reducible apply State.each_kept k1
    | with_reducible apply State.frameSource_kept k2
    | with_reducible refine State.inc_kept ?_ ?_
    | with_reducible refine State.setBit_kept ?_ ?_
    | exact Sub.bit (Sub.trans (by decide) hm)
    | (refine Sub.from (b := 0x27500900) kz ?_; (try simp only [key, bk, sbk]); omega)
    | with_reducible apply Kept.ite
    | with_reducible split
    | split

theorem State.expire_kept {mm : Nat} {s0 s : State} {i : Nat} (hm : Sub 0x7fffffffffffffffffffffffffe mm) (h : Kept mm s0 s) : Kept mm s0 (State.expire i s) := by
  have k0 : Sub 0x0 mm := Sub.trans (by decide) hm
  have kz : Sub (2 ^ 107 - 2 ^ (20 + zone 0x27500900)) mm := Sub.trans (by decide) hm
  unfold State.expire
  repeat' first
    | (intro x; refine Kept.bind (s0 := s0) (m := mm) (x := x) ?_ ?_; subst x; rotate_left; clear_value x; intro _)
    | (intro y; clear_value y)
    | intro _
    | with_reducible assumption
    | with_reducible lift_lets -underBinder
    | with_reducible apply State.when_kept k0
    | with_reducible apply State.each_kept k0
    | with_reducible apply State.fieldWrite_kept hm
    | with_reducible refine State.inc_kept ?_ ?_
    | with_reducible refine State.setBit_kept ?_ ?_
    | exact Sub.bit (Sub.trans (by decide) hm)
    | (refine Sub.from (b := 0x27500900) kz ?_; (try simp only [key, bk, sbk]); omega)
    | with_reducible apply Kept.ite
    | with_reducible split
    | split

end Sys2Proof.Machine
end

