-- ==== Sys2Proof/Laws/Frames.lean ====
section
/-! SUPPORT. What the meaning of each command may change (Safety.lean, Kept): one lemma for each. -/

set_option linter.all false

namespace Sys2Proof.Machine

theorem execRecordCommit_frame (t : Time) (s : State) {s2 : State} {mm : Nat} (hm : Sub 0x200000000000000000004000 mm) (he : execRecordCommit t s = .next s2) : Kept mm (State.begin t s) s2 := by
  unfold execRecordCommit at he
  have h : Kept mm (State.begin t s) (State.begin t s) := Kept.refl _ _
  generalize State.begin t s = s0 at h he
  (try dsimp only at he)
  have he : _ = s2 := Host.Outcome.next.inj he
  subst he
  repeat' first
    | (intro x; refine Kept.bind (s0 := s0) (m := mm) (x := x) ?_ ?_; subst x; rotate_left; clear_value x; intro _)
    | (intro y; clear_value y)
    | intro _
    | with_reducible assumption
    | with_reducible lift_lets -underBinder
    | with_reducible apply State.recordCommit_kept hm
    | with_reducible apply Kept.ite
    | with_reducible split
    | split

theorem execFreeze_frame (t : Time) (q : Req) (s : State) {s2 : State} {mm : Nat} (hm : Sub 0x7fffffc0000000000000002e004 mm) (he : execFreeze t q s = .next s2) : Kept mm (State.begin t s) s2 := by
  unfold execFreeze at he
  have h : Kept mm (State.begin t s) (State.begin t s) := Kept.refl _ _
  generalize State.begin t s = s0 at h he
  (try dsimp only at he)
  have he : _ = s2 := Host.Outcome.next.inj he
  subst he
  have k0 : Sub 0x200000000000000000004000 mm := Sub.trans (by decide) hm
  repeat' first
    | (intro x; refine Kept.bind (s0 := s0) (m := mm) (x := x) ?_ ?_; subst x; rotate_left; clear_value x; intro _)
    | (intro y; clear_value y)
    | intro _
    | with_reducible assumption
    | with_reducible lift_lets -underBinder
    | with_reducible apply State.hostWrite_kept hm
    | with_reducible apply (freezeEff_kept k0).all
    | with_reducible apply freezeEff_kept k0
    | with_reducible apply Kept.ite
    | with_reducible split
    | split

theorem execFreezeEnd_frame (t : Time) (s : State) {s2 : State} {mm : Nat} (hm : Sub 0x7fffd000000000000000000e000 mm) (he : execFreezeEnd t s = .next s2) : Kept mm (State.begin t s) s2 := by
  unfold execFreezeEnd at he
  have h : Kept mm (State.begin t s) (State.begin t s) := Kept.refl _ _
  generalize State.begin t s = s0 at h he
  (try dsimp only at he)
  have he : _ = s2 := Host.Outcome.next.inj he
  subst he
  repeat' first
    | (intro x; refine Kept.bind (s0 := s0) (m := mm) (x := x) ?_ ?_; subst x; rotate_left; clear_value x; intro _)
    | (intro y; clear_value y)
    | intro _
    | with_reducible assumption
    | with_reducible lift_lets -underBinder
    | with_reducible apply State.freezeTimeout_kept hm
    | with_reducible apply Kept.ite
    | with_reducible split
    | split

theorem execArchiveAndClear_frame (t : Time) (q : Req) (seq : Nat) (s : State) {s2 : State} {mm : Nat} (hm : Sub 0x7fffffc000000000000040ae004 mm) (he : execArchiveAndClear t q seq s = .next s2) : Kept mm (State.begin t s) s2 := by
  unfold execArchiveAndClear at he
  have h : Kept mm (State.begin t s) (State.begin t s) := Kept.refl _ _
  generalize State.begin t s = s0 at h he
  (try dsimp only at he)
  have he : _ = s2 := Host.Outcome.next.inj he
  subst he
  have k0 : Sub 0x7fffffc0000000000000002e004 mm := Sub.trans (by decide) hm
  have k1 : Sub 0x2000000000000000040a4000 mm := Sub.trans (by decide) hm
  repeat' first
    | (intro x; refine Kept.bind (s0 := s0) (m := mm) (x := x) ?_ ?_; subst x; rotate_left; clear_value x; intro _)
    | (intro y; clear_value y)
    | intro _
    | with_reducible assumption
    | with_reducible lift_lets -underBinder
    | with_reducible apply State.hostWrite_kept k0
    | with_reducible apply (archiveEff_kept k1).all
    | with_reducible apply archiveEff_kept k1
    | with_reducible apply Kept.ite
    | with_reducible split
    | split

theorem execArchiveAndClearComplete_frame (t : Time) (s : State) {s2 : State} {mm : Nat} (hm : Sub 0x7fffd000000000000000402e000 mm) (he : execArchiveAndClearComplete t s = .next s2) : Kept mm (State.begin t s) s2 := by
  unfold execArchiveAndClearComplete at he
  have h : Kept mm (State.begin t s) (State.begin t s) := Kept.refl _ _
  generalize State.begin t s = s0 at h he
  (try dsimp only at he)
  have he : _ = s2 := Host.Outcome.next.inj he
  subst he
  repeat' first
    | (intro x; refine Kept.bind (s0 := s0) (m := mm) (x := x) ?_ ?_; subst x; rotate_left; clear_value x; intro _)
    | (intro y; clear_value y)
    | intro _
    | with_reducible assumption
    | with_reducible lift_lets -underBinder
    | with_reducible apply State.archiveComplete_kept hm
    | with_reducible apply Kept.ite
    | with_reducible split
    | split

theorem execSnapshot_frame (t : Time) (q : Req) (s : State) {s2 : State} {mm : Nat} (hm : Sub 0x20000 mm) (he : execSnapshot t q s = .next s2) : Kept mm (State.begin t s) s2 := by
  unfold execSnapshot at he
  have h : Kept mm (State.begin t s) (State.begin t s) := Kept.refl _ _
  generalize State.begin t s = s0 at h he
  (try dsimp only at he)
  have he : _ = s2 := Host.Outcome.next.inj he
  subst he
  have k0 : Sub 0x0 mm := Sub.trans (by decide) hm
  repeat' first
    | (intro x; refine Kept.bind (s0 := s0) (m := mm) (x := x) ?_ ?_; subst x; rotate_left; clear_value x; intro _)
    | (intro y; clear_value y)
    | intro _
    | with_reducible assumption
    | with_reducible lift_lets -underBinder
    | with_reducible apply State.hostGet_kept hm
    | with_reducible apply State.snapshot_kept k0
    | with_reducible apply Kept.ite
    | with_reducible split
    | split

theorem execTrigIn_frame (t : Time) (i : Fin 4) (high : Bool) (s : State) {s2 : State} {mm : Nat} (hm : Sub 0x7fffd000000000000000000e000 mm) (he : execTrigIn t i high s = .next s2) : Kept mm (State.begin t s) s2 := by
  unfold execTrigIn at he
  have h : Kept mm (State.begin t s) (State.begin t s) := Kept.refl _ _
  generalize State.begin t s = s0 at h he
  (try dsimp only at he)
  have he : _ = s2 := Host.Outcome.next.inj he
  subst he
  repeat' first
    | (intro x; refine Kept.bind (s0 := s0) (m := mm) (x := x) ?_ ?_; subst x; rotate_left; clear_value x; intro _)
    | (intro y; clear_value y)
    | intro _
    | with_reducible assumption
    | with_reducible lift_lets -underBinder
    | with_reducible apply State.inputEdge_kept hm
    | with_reducible apply Kept.ite
    | with_reducible split
    | split

theorem execArmAcquisition_frame (t : Time) (q : Req) (s : State) {s2 : State} {mm : Nat} (hm : Sub 0x7fffffc0000000000000002e004 mm) (he : execArmAcquisition t q s = .next s2) : Kept mm (State.begin t s) s2 := by
  unfold execArmAcquisition at he
  have h : Kept mm (State.begin t s) (State.begin t s) := Kept.refl _ _
  generalize State.begin t s = s0 at h he
  (try dsimp only at he)
  have he : _ = s2 := Host.Outcome.next.inj he
  subst he
  have k0 : Sub 0x10000000000000000008000 mm := Sub.trans (by decide) hm
  repeat' first
    | (intro x; refine Kept.bind (s0 := s0) (m := mm) (x := x) ?_ ?_; subst x; rotate_left; clear_value x; intro _)
    | (intro y; clear_value y)
    | intro _
    | with_reducible assumption
    | with_reducible lift_lets -underBinder
    | with_reducible apply State.hostWrite_kept hm
    | with_reducible apply (armEff_kept k0).all
    | with_reducible apply armEff_kept k0
    | with_reducible apply Kept.ite
    | with_reducible split
    | split

theorem execDisarmAcquisition_frame (t : Time) (q : Req) (s : State) {s2 : State} {mm : Nat} (hm : Sub 0x7fffffc0000000000000002e004 mm) (he : execDisarmAcquisition t q s = .next s2) : Kept mm (State.begin t s) s2 := by
  unfold execDisarmAcquisition at he
  have h : Kept mm (State.begin t s) (State.begin t s) := Kept.refl _ _
  generalize State.begin t s = s0 at h he
  (try dsimp only at he)
  have he : _ = s2 := Host.Outcome.next.inj he
  subst he
  have k0 : Sub 0x10000000000000000008000 mm := Sub.trans (by decide) hm
  repeat' first
    | (intro x; refine Kept.bind (s0 := s0) (m := mm) (x := x) ?_ ?_; subst x; rotate_left; clear_value x; intro _)
    | (intro y; clear_value y)
    | intro _
    | with_reducible assumption
    | with_reducible lift_lets -underBinder
    | with_reducible apply State.hostWrite_kept hm
    | with_reducible apply (armEff_kept k0).all
    | with_reducible apply armEff_kept k0
    | with_reducible apply Kept.ite
    | with_reducible split
    | split

theorem execRackArmMessage_frame (t : Time) (arm : Bool) (inst : Time) (s : State) {s2 : State} {mm : Nat} (hm : Sub 0x10000000000080000008000 mm) (he : execRackArmMessage t arm inst s = .next s2) : Kept mm (State.begin t s) s2 := by
  unfold execRackArmMessage at he
  have h : Kept mm (State.begin t s) (State.begin t s) := Kept.refl _ _
  generalize State.begin t s = s0 at h he
  (try dsimp only at he)
  have he : _ = s2 := Host.Outcome.next.inj he
  subst he
  have k0 : Sub 0x80000008000 mm := Sub.trans (by decide) hm
  have k1 : Sub 0x10000000000000000008000 mm := Sub.trans (by decide) hm
  repeat' first
    | (intro x; refine Kept.bind (s0 := s0) (m := mm) (x := x) ?_ ?_; subst x; rotate_left; clear_value x; intro _)
    | (intro y; clear_value y)
    | intro _
    | with_reducible assumption
    | with_reducible lift_lets -underBinder
    | with_reducible apply State.hear_kept k0
    | with_reducible apply State.scheduleArm_kept k1
    | with_reducible apply Kept.ite
    | with_reducible split
    | split

theorem execArmTime_frame (t : Time) (s : State) {s2 : State} {mm : Nat} (hm : Sub 0x7fffd000000000000000000e002 mm) (he : execArmTime t s = .next s2) : Kept mm (State.begin t s) s2 := by
  unfold execArmTime at he
  have h : Kept mm (State.begin t s) (State.begin t s) := Kept.refl _ _
  generalize State.begin t s = s0 at h he
  (try dsimp only at he)
  have he : _ = s2 := Host.Outcome.next.inj he
  subst he
  repeat' first
    | (intro x; refine Kept.bind (s0 := s0) (m := mm) (x := x) ?_ ?_; subst x; rotate_left; clear_value x; intro _)
    | (intro y; clear_value y)
    | intro _
    | with_reducible assumption
    | with_reducible lift_lets -underBinder
    | with_reducible apply State.armTime_kept hm
    | with_reducible apply Kept.ite
    | with_reducible split
    | split

theorem execRecordInstant_frame (t : Time) (s : State) {s2 : State} {mm : Nat} (hm : Sub 0x7fffd000000000000000000e002 mm) (he : execRecordInstant t s = .next s2) : Kept mm (State.begin t s) s2 := by
  unfold execRecordInstant at he
  have h : Kept mm (State.begin t s) (State.begin t s) := Kept.refl _ _
  generalize State.begin t s = s0 at h he
  (try dsimp only at he)
  have he : _ = s2 := Host.Outcome.next.inj he
  subst he
  repeat' first
    | (intro x; refine Kept.bind (s0 := s0) (m := mm) (x := x) ?_ ?_; subst x; rotate_left; clear_value x; intro _)
    | (intro y; clear_value y)
    | intro _
    | with_reducible assumption
    | with_reducible lift_lets -underBinder
    | with_reducible apply State.recordInstant_kept hm
    | with_reducible apply Kept.ite
    | with_reducible split
    | split

theorem execRackFiring_frame (t : Time) (slot : RackSlot) (unit : Nat) (inst : Time) (s : State) {s2 : State} {mm : Nat} (hm : Sub 0x7fffd000000000008000000e000 mm) (he : execRackFiring t slot unit inst s = .next s2) : Kept mm (State.begin t s) s2 := by
  unfold execRackFiring at he
  have h : Kept mm (State.begin t s) (State.begin t s) := Kept.refl _ _
  generalize State.begin t s = s0 at h he
  (try dsimp only at he)
  have he : _ = s2 := Host.Outcome.next.inj he
  subst he
  have k0 : Sub 0x80000008000 mm := Sub.trans (by decide) hm
  have k1 : Sub 0x7fffd000000000000000000e000 mm := Sub.trans (by decide) hm
  repeat' first
    | (intro x; refine Kept.bind (s0 := s0) (m := mm) (x := x) ?_ ?_; subst x; rotate_left; clear_value x; intro _)
    | (intro y; clear_value y)
    | intro _
    | with_reducible assumption
    | with_reducible lift_lets -underBinder
    | with_reducible apply State.hear_kept k0
    | with_reducible apply State.rackFiring_kept k1
    | with_reducible apply Kept.ite
    | with_reducible split
    | split

theorem execReleaseCapture_frame (t : Time) (q : Req) (k : BufferNo) (s : State) {s2 : State} {mm : Nat} (hm : Sub 0x7fffffc0000000000000002e006 mm) (he : execReleaseCapture t q k s = .next s2) : Kept mm (State.begin t s) s2 := by
  unfold execReleaseCapture at he
  have h : Kept mm (State.begin t s) (State.begin t s) := Kept.refl _ _
  generalize State.begin t s = s0 at h he
  (try dsimp only at he)
  have he : _ = s2 := Host.Outcome.next.inj he
  subst he
  have k0 : Sub 0x7fffffc0000000000000002e004 mm := Sub.trans (by decide) hm
  have k1 : Sub 0x7fff00000000000000000002002 mm := Sub.trans (by decide) hm
  repeat' first
    | (intro x; refine Kept.bind (s0 := s0) (m := mm) (x := x) ?_ ?_; subst x; rotate_left; clear_value x; intro _)
    | (intro y; clear_value y)
    | intro _
    | with_reducible assumption
    | with_reducible lift_lets -underBinder
    | with_reducible apply State.hostWrite_kept k0
    | with_reducible apply (releaseEff_kept k1).all
    | with_reducible apply releaseEff_kept k1
    | with_reducible apply Kept.ite
    | with_reducible split
    | split

theorem execComtradeExportAssembly_frame (t : Time) (q : Req) (k : BufferNo) (s : State) {s2 : State} {mm : Nat} (hm : Sub 0x7fffffc000000000000040ae004 mm) (he : execComtradeExportAssembly t q k s = .next s2) : Kept mm (State.begin t s) s2 := by
  unfold execComtradeExportAssembly at he
  have h : Kept mm (State.begin t s) (State.begin t s) := Kept.refl _ _
  generalize State.begin t s = s0 at h he
  (try dsimp only at he)
  have he : _ = s2 := Host.Outcome.next.inj he
  subst he
  have k0 : Sub 0x7fffffc0000000000000002e004 mm := Sub.trans (by decide) hm
  have k1 : Sub 0x7fff000000000000000040a0000 mm := Sub.trans (by decide) hm
  repeat' first
    | (intro x; refine Kept.bind (s0 := s0) (m := mm) (x := x) ?_ ?_; subst x; rotate_left; clear_value x; intro _)
    | (intro y; clear_value y)
    | intro _
    | with_reducible assumption
    | with_reducible lift_lets -underBinder
    | with_reducible apply State.hostWrite_kept k0
    | with_reducible apply (exportEff_kept k1).all
    | with_reducible apply exportEff_kept k1
    | with_reducible apply Kept.ite
    | with_reducible split
    | split

theorem execExportComplete_frame (t : Time) (k : BufferNo) (s : State) {s2 : State} {mm : Nat} (hm : Sub 0x7fff00000000000000004028002 mm) (he : execExportComplete t k s = .next s2) : Kept mm (State.begin t s) s2 := by
  unfold execExportComplete at he
  have h : Kept mm (State.begin t s) (State.begin t s) := Kept.refl _ _
  generalize State.begin t s = s0 at h he
  (try dsimp only at he)
  have he : _ = s2 := Host.Outcome.next.inj he
  subst he
  repeat' first
    | (intro x; refine Kept.bind (s0 := s0) (m := mm) (x := x) ?_ ?_; subst x; rotate_left; clear_value x; intro _)
    | (intro y; clear_value y)
    | intro _
    | with_reducible assumption
    | with_reducible lift_lets -underBinder
    | with_reducible apply State.exportComplete_kept hm
    | with_reducible apply Kept.ite
    | with_reducible split
    | split

theorem execLaneTestStart_frame (t : Time) (s : State) {s2 : State} {mm : Nat} (hm : Sub 0x1000000000000000000044 mm) (he : execLaneTestStart t s = .next s2) : Kept mm (State.begin t s) s2 := by
  unfold execLaneTestStart at he
  have h : Kept mm (State.begin t s) (State.begin t s) := Kept.refl _ _
  generalize State.begin t s = s0 at h he
  (try dsimp only at he)
  have he : _ = s2 := Host.Outcome.next.inj he
  subst he
  repeat' first
    | (intro x; refine Kept.bind (s0 := s0) (m := mm) (x := x) ?_ ?_; subst x; rotate_left; clear_value x; intro _)
    | (intro y; clear_value y)
    | intro _
    | with_reducible assumption
    | with_reducible lift_lets -underBinder
    | with_reducible apply State.laneTestStart_kept hm
    | with_reducible apply Kept.ite
    | with_reducible split
    | split

theorem execLaneDrained_frame (t : Time) (l : Lane) (s : State) {s2 : State} {mm : Nat} (hm : Sub 0x7fffffffffffffffe000009e164 mm) (he : execLaneDrained t l s = .next s2) : Kept mm (State.begin t s) s2 := by
  unfold execLaneDrained at he
  have h : Kept mm (State.begin t s) (State.begin t s) := Kept.refl _ _
  generalize State.begin t s = s0 at h he
  (try dsimp only at he)
  have he : _ = s2 := Host.Outcome.next.inj he
  subst he
  repeat' first
    | (intro x; refine Kept.bind (s0 := s0) (m := mm) (x := x) ?_ ?_; subst x; rotate_left; clear_value x; intro _)
    | (intro y; clear_value y)
    | intro _
    | with_reducible assumption
    | with_reducible lift_lets -underBinder
    | with_reducible apply State.laneDrained_kept hm
    | with_reducible apply Kept.ite
    | with_reducible split
    | split

theorem execLaneTestEnd_frame (t : Time) (l : Lane) (res : LaneTest) (s : State) {s2 : State} {mm : Nat} (hm : Sub 0x7fffffffffffffffe000009e164 mm) (he : execLaneTestEnd t l res s = .next s2) : Kept mm (State.begin t s) s2 := by
  unfold execLaneTestEnd at he
  have h : Kept mm (State.begin t s) (State.begin t s) := Kept.refl _ _
  generalize State.begin t s = s0 at h he
  (try dsimp only at he)
  have he : _ = s2 := Host.Outcome.next.inj he
  subst he
  have k0 : Sub 0x7fffffc00000000000000000044 mm := Sub.trans (by decide) hm
  repeat' first
    | (intro x; refine Kept.bind (s0 := s0) (m := mm) (x := x) ?_ ?_; subst x; rotate_left; clear_value x; intro _)
    | (intro y; clear_value y)
    | intro _
    | with_reducible assumption
    | with_reducible lift_lets -underBinder
    | with_reducible apply State.laneTestEnd_kept hm
    | with_reducible apply State.dispatch_kept k0
    | with_reducible apply Kept.ite
    | with_reducible split
    | split

theorem execLaneStall_frame (t : Time) (l : Lane) (s : State) {s2 : State} {mm : Nat} (hm : Sub 0x7fffffffffffffffe000009e164 mm) (he : execLaneStall t l s = .next s2) : Kept mm (State.begin t s) s2 := by
  unfold execLaneStall at he
  have h : Kept mm (State.begin t s) (State.begin t s) := Kept.refl _ _
  generalize State.begin t s = s0 at h he
  (try dsimp only at he)
  have he : _ = s2 := Host.Outcome.next.inj he
  subst he
  have k0 : Sub 0x7fffffc00000000000000000044 mm := Sub.trans (by decide) hm
  repeat' first
    | (intro x; refine Kept.bind (s0 := s0) (m := mm) (x := x) ?_ ?_; subst x; rotate_left; clear_value x; intro _)
    | (intro y; clear_value y)
    | intro _
    | with_reducible assumption
    | with_reducible lift_lets -underBinder
    | with_reducible apply State.laneStall_kept hm
    | with_reducible apply State.dispatch_kept k0
    | with_reducible apply Kept.ite
    | with_reducible split
    | split

theorem execPaceMeasurement_frame (t : Time) (paces : List Nat) (s : State) {s2 : State} {mm : Nat} (hm : Sub 0x7fffffffffffffffe000009e164 mm) (he : execPaceMeasurement t paces s = .next s2) : Kept mm (State.begin t s) s2 := by
  unfold execPaceMeasurement at he
  have h : Kept mm (State.begin t s) (State.begin t s) := Kept.refl _ _
  generalize State.begin t s = s0 at h he
  (try dsimp only at he)
  have he : _ = s2 := Host.Outcome.next.inj he
  subst he
  have k0 : Sub 0x0 mm := Sub.trans (by decide) hm
  have k1 : Sub 0x7fffffc00000000000000000044 mm := Sub.trans (by decide) hm
  repeat' first
    | (intro x; refine Kept.bind (s0 := s0) (m := mm) (x := x) ?_ ?_; subst x; rotate_left; clear_value x; intro _)
    | (intro y; clear_value y)
    | intro _
    | with_reducible assumption
    | with_reducible lift_lets -underBinder
    | with_reducible apply State.each_kept k0
    | with_reducible apply State.paceOf_kept hm
    | with_reducible apply State.dispatch_kept k1
    | with_reducible apply Kept.ite
    | with_reducible split
    | split

theorem execSlotBankWrite_frame (t : Time) (q : Req) (sl : SlotNo) (bankB : Bool) (word : Fin 16) (v : Nat) (s : State) {s2 : State} {mm : Nat} (hm : Sub 0x7ffffffff00000000000002e03c mm) (he : execSlotBankWrite t q sl bankB word v s = .next s2) : Kept mm (State.begin t s) s2 := by
  unfold execSlotBankWrite at he
  have h : Kept mm (State.begin t s) (State.begin t s) := Kept.refl _ _
  generalize State.begin t s = s0 at h he
  (try dsimp only at he)
  have he : _ = s2 := Host.Outcome.next.inj he
  subst he
  have k0 : Sub 0x7fffffc0000000000000002e004 mm := Sub.trans (by decide) hm
  have k1 : Sub 0x7ffffffff00000000000000003c mm := Sub.trans (by decide) hm
  repeat' first
    | (intro x; refine Kept.bind (s0 := s0) (m := mm) (x := x) ?_ ?_; subst x; rotate_left; clear_value x; intro _)
    | (intro y; clear_value y)
    | intro _
    | with_reducible assumption
    | with_reducible lift_lets -underBinder
    | with_reducible apply State.hostWrite_kept k0
    | with_reducible apply (bankEff_kept k1).all
    | with_reducible apply bankEff_kept k1
    | with_reducible apply Kept.ite
    | with_reducible split
    | split

theorem execSlotStateWrite_frame (t : Time) (q : Req) (sl : SlotNo) (i : Fin 12) (v : Nat) (s : State) {s2 : State} {mm : Nat} (hm : Sub 0x7ffffffff00000000000002e03c mm) (he : execSlotStateWrite t q sl i v s = .next s2) : Kept mm (State.begin t s) s2 := by
  unfold execSlotStateWrite at he
  have h : Kept mm (State.begin t s) (State.begin t s) := Kept.refl _ _
  generalize State.begin t s = s0 at h he
  (try dsimp only at he)
  have he : _ = s2 := Host.Outcome.next.inj he
  subst he
  have k0 : Sub 0x7fffffc0000000000000002e004 mm := Sub.trans (by decide) hm
  have k1 : Sub 0x7ffffffff00000000000000003c mm := Sub.trans (by decide) hm
  repeat' first
    | (intro x; refine Kept.bind (s0 := s0) (m := mm) (x := x) ?_ ?_; subst x; rotate_left; clear_value x; intro _)
    | (intro y; clear_value y)
    | intro _
    | with_reducible assumption
    | with_reducible lift_lets -underBinder
    | with_reducible apply State.hostWrite_kept k0
    | with_reducible apply (stateEff_kept k1).all
    | with_reducible apply stateEff_kept k1
    | with_reducible apply Kept.ite
    | with_reducible split
    | split

theorem execCopyActiveToInactive_frame (t : Time) (q : Req) (b : Batch) (s : State) {s2 : State} {mm : Nat} (hm : Sub 0x7ffffffff00000000000002e03c mm) (he : execCopyActiveToInactive t q b s = .next s2) : Kept mm (State.begin t s) s2 := by
  unfold execCopyActiveToInactive at he
  have h : Kept mm (State.begin t s) (State.begin t s) := Kept.refl _ _
  generalize State.begin t s = s0 at h he
  (try dsimp only at he)
  have he : _ = s2 := Host.Outcome.next.inj he
  subst he
  have k0 : Sub 0x7fffffc0000000000000002e004 mm := Sub.trans (by decide) hm
  have k1 : Sub 0x7ffffffff00000000000000003c mm := Sub.trans (by decide) hm
  repeat' first
    | (intro x; refine Kept.bind (s0 := s0) (m := mm) (x := x) ?_ ?_; subst x; rotate_left; clear_value x; intro _)
    | (intro y; clear_value y)
    | intro _
    | with_reducible assumption
    | with_reducible lift_lets -underBinder
    | with_reducible apply State.hostWrite_kept k0
    | with_reducible apply (copyEff_kept k1).all
    | with_reducible apply copyEff_kept k1
    | with_reducible apply Kept.ite
    | with_reducible split
    | split

theorem execBankSwapRequest_frame (t : Time) (q : Req) (b : Batch) (s : State) {s2 : State} {mm : Nat} (hm : Sub 0x7ffffffff00000000000002e004 mm) (he : execBankSwapRequest t q b s = .next s2) : Kept mm (State.begin t s) s2 := by
  unfold execBankSwapRequest at he
  have h : Kept mm (State.begin t s) (State.begin t s) := Kept.refl _ _
  generalize State.begin t s = s0 at h he
  (try dsimp only at he)
  have he : _ = s2 := Host.Outcome.next.inj he
  subst he
  have k0 : Sub 0x7fffffc0000000000000002e004 mm := Sub.trans (by decide) hm
  have k1 : Sub 0x7ffffffff000000000000000004 mm := Sub.trans (by decide) hm
  repeat' first
    | (intro x; refine Kept.bind (s0 := s0) (m := mm) (x := x) ?_ ?_; subst x; rotate_left; clear_value x; intro _)
    | (intro y; clear_value y)
    | intro _
    | with_reducible assumption
    | with_reducible lift_lets -underBinder
    | with_reducible apply State.hostWrite_kept k0
    | with_reducible apply (swapEff_kept k1).all
    | with_reducible apply swapEff_kept k1
    | with_reducible apply Kept.ite
    | with_reducible split
    | split

theorem execTargetWrite_frame (t : Time) (q : Req) (g : GenNo) (v : F32) (s : State) {s2 : State} {mm : Nat} (hm : Sub 0x7ffffffff00000000000002e03c mm) (he : execTargetWrite t q g v s = .next s2) : Kept mm (State.begin t s) s2 := by
  unfold execTargetWrite at he
  have h : Kept mm (State.begin t s) (State.begin t s) := Kept.refl _ _
  generalize State.begin t s = s0 at h he
  (try dsimp only at he)
  have he : _ = s2 := Host.Outcome.next.inj he
  subst he
  have k0 : Sub 0x7fffffc0000000000000002e004 mm := Sub.trans (by decide) hm
  have k1 : Sub 0x7ffffffff00000000000000003c mm := Sub.trans (by decide) hm
  repeat' first
    | (intro x; refine Kept.bind (s0 := s0) (m := mm) (x := x) ?_ ?_; subst x; rotate_left; clear_value x; intro _)
    | (intro y; clear_value y)
    | intro _
    | with_reducible assumption
    | with_reducible lift_lets -underBinder
    | with_reducible apply State.hostWrite_kept k0
    | with_reducible apply (targetEff_kept k1).all
    | with_reducible apply targetEff_kept k1
    | with_reducible apply Kept.ite
    | with_reducible split
    | split

theorem execHold_frame (t : Time) (q : Req) (g : GenNo) (s : State) {s2 : State} {mm : Nat} (hm : Sub 0x7ffffffff00000000000002e03c mm) (he : execHold t q g s = .next s2) : Kept mm (State.begin t s) s2 := by
  unfold execHold at he
  have h : Kept mm (State.begin t s) (State.begin t s) := Kept.refl _ _
  generalize State.begin t s = s0 at h he
  (try dsimp only at he)
  have he : _ = s2 := Host.Outcome.next.inj he
  subst he
  have k0 : Sub 0x7fffffc0000000000000002e004 mm := Sub.trans (by decide) hm
  have k1 : Sub 0x7ffffffff00000000000000003c mm := Sub.trans (by decide) hm
  repeat' first
    | (intro x; refine Kept.bind (s0 := s0) (m := mm) (x := x) ?_ ?_; subst x; rotate_left; clear_value x; intro _)
    | (intro y; clear_value y)
    | intro _
    | with_reducible assumption
    | with_reducible lift_lets -underBinder
    | with_reducible apply State.hostWrite_kept k0
    | with_reducible apply (genCmdEff_kept k1).all
    | with_reducible apply genCmdEff_kept k1
    | with_reducible apply Kept.ite
    | with_reducible split
    | split

theorem execRelease_frame (t : Time) (q : Req) (g : GenNo) (s : State) {s2 : State} {mm : Nat} (hm : Sub 0x7ffffffff00000000000002e03c mm) (he : execRelease t q g s = .next s2) : Kept mm (State.begin t s) s2 := by
  unfold execRelease at he
  have h : Kept mm (State.begin t s) (State.begin t s) := Kept.refl _ _
  generalize State.begin t s = s0 at h he
  (try dsimp only at he)
  have he : _ = s2 := Host.Outcome.next.inj he
  subst he
  have k0 : Sub 0x7fffffc0000000000000002e004 mm := Sub.trans (by decide) hm
  have k1 : Sub 0x7ffffffff00000000000000003c mm := Sub.trans (by decide) hm
  repeat' first
    | (intro x; refine Kept.bind (s0 := s0) (m := mm) (x := x) ?_ ?_; subst x; rotate_left; clear_value x; intro _)
    | (intro y; clear_value y)
    | intro _
    | with_reducible assumption
    | with_reducible lift_lets -underBinder
    | with_reducible apply State.hostWrite_kept k0
    | with_reducible apply (genCmdEff_kept k1).all
    | with_reducible apply genCmdEff_kept k1
    | with_reducible apply Kept.ite
    | with_reducible split
    | split

theorem execPreset_frame (t : Time) (q : Req) (g : GenNo) (s : State) {s2 : State} {mm : Nat} (hm : Sub 0x7ffffffff00000000000002e03c mm) (he : execPreset t q g s = .next s2) : Kept mm (State.begin t s) s2 := by
  unfold execPreset at he
  have h : Kept mm (State.begin t s) (State.begin t s) := Kept.refl _ _
  generalize State.begin t s = s0 at h he
  (try dsimp only at he)
  have he : _ = s2 := Host.Outcome.next.inj he
  subst he
  have k0 : Sub 0x7fffffc0000000000000002e004 mm := Sub.trans (by decide) hm
  have k1 : Sub 0x7ffffffff00000000000000003c mm := Sub.trans (by decide) hm
  repeat' first
    | (intro x; refine Kept.bind (s0 := s0) (m := mm) (x := x) ?_ ?_; subst x; rotate_left; clear_value x; intro _)
    | (intro y; clear_value y)
    | intro _
    | with_reducible assumption
    | with_reducible lift_lets -underBinder
    | with_reducible apply State.hostWrite_kept k0
    | with_reducible apply (genCmdEff_kept k1).all
    | with_reducible apply genCmdEff_kept k1
    | with_reducible apply Kept.ite
    | with_reducible split
    | split

theorem execBankViewWrite_frame (t : Time) (q : Req) (b : Batch) (off : Fin 32) (sub v : Nat) (s : State) {s2 : State} {mm : Nat} (hm : Sub 0x7ffffffff00000000000002e03c mm) (he : execBankViewWrite t q b off sub v s = .next s2) : Kept mm (State.begin t s) s2 := by
  unfold execBankViewWrite at he
  have h : Kept mm (State.begin t s) (State.begin t s) := Kept.refl _ _
  generalize State.begin t s = s0 at h he
  (try dsimp only at he)
  rw [← apply_ite Host.Outcome.next] at he
  have he : _ = s2 := Host.Outcome.next.inj he
  subst he
  have k0 : Sub 0x7fffffc0000000000000002e004 mm := Sub.trans (by decide) hm
  have k1 : Sub 0x7ffffffff00000000000000003c mm := Sub.trans (by decide) hm
  repeat' first
    | (intro x; refine Kept.bind (s0 := s0) (m := mm) (x := x) ?_ ?_; subst x; rotate_left; clear_value x; intro _)
    | (intro y; clear_value y)
    | intro _
    | with_reducible assumption
    | with_reducible lift_lets -underBinder
    | with_reducible apply State.hostWrite_kept k0
    | with_reducible apply (viewEff_kept k1).all
    | with_reducible apply viewEff_kept k1
    | with_reducible apply Kept.ite
    | with_reducible split
    | split

theorem execBaseValuesWrite_frame (t : Time) (q : Req) (b : Batch) (current : Bool) (v : F32) (s : State) {s2 : State} {mm : Nat} (hm : Sub 0x7ffffffff00000000000002e03c mm) (he : execBaseValuesWrite t q b current v s = .next s2) : Kept mm (State.begin t s) s2 := by
  unfold execBaseValuesWrite at he
  have h : Kept mm (State.begin t s) (State.begin t s) := Kept.refl _ _
  generalize State.begin t s = s0 at h he
  (try dsimp only at he)
  have he : _ = s2 := Host.Outcome.next.inj he
  subst he
  have k0 : Sub 0x7fffffc0000000000000002e004 mm := Sub.trans (by decide) hm
  have k1 : Sub 0x7ffffffff00000000000000003c mm := Sub.trans (by decide) hm
  repeat' first
    | (intro x; refine Kept.bind (s0 := s0) (m := mm) (x := x) ?_ ?_; subst x; rotate_left; clear_value x; intro _)
    | (intro y; clear_value y)
    | intro _
    | with_reducible assumption
    | with_reducible lift_lets -underBinder
    | with_reducible apply State.hostWrite_kept k0
    | with_reducible apply (scaleEff_kept k1).all
    | with_reducible apply scaleEff_kept k1
    | with_reducible apply Kept.ite
    | with_reducible split
    | split

theorem execDecimationInstant_frame (t : Time) (c : ChainNo) (bits : List Bool) (s : State) {s2 : State} {mm : Nat} (hm : Sub 0x7fffffffe00000000000000e080 mm) (he : execDecimationInstant t c bits s = .next s2) : Kept mm (State.begin t s) s2 := by
  unfold execDecimationInstant at he
  have h : Kept mm (State.begin t s) (State.begin t s) := Kept.refl _ _
  generalize State.begin t s = s0 at h he
  (try dsimp only at he)
  have he : _ = s2 := Host.Outcome.next.inj he
  subst he
  repeat' first
    | (intro x; refine Kept.bind (s0 := s0) (m := mm) (x := x) ?_ ?_; subst x; rotate_left; clear_value x; intro _)
    | (intro y; clear_value y)
    | intro _
    | with_reducible assumption
    | with_reducible lift_lets -underBinder
    | with_reducible apply State.decimation_kept hm
    | with_reducible apply Kept.ite
    | with_reducible split
    | split

theorem execSigmaDeltaLoss_frame (t : Time) (c : ChainNo) (clockAbsent : Bool) (s : State) {s2 : State} {mm : Nat} (hm : Sub 0x7fffffffe00000000000000e080 mm) (he : execSigmaDeltaLoss t c clockAbsent s = .next s2) : Kept mm (State.begin t s) s2 := by
  unfold execSigmaDeltaLoss at he
  have h : Kept mm (State.begin t s) (State.begin t s) := Kept.refl _ _
  generalize State.begin t s = s0 at h he
  (try dsimp only at he)
  have he : _ = s2 := Host.Outcome.next.inj he
  subst he
  repeat' first
    | (intro x; refine Kept.bind (s0 := s0) (m := mm) (x := x) ?_ ?_; subst x; rotate_left; clear_value x; intro _)
    | (intro y; clear_value y)
    | intro _
    | with_reducible assumption
    | with_reducible lift_lets -underBinder
    | with_reducible apply State.sdLoss_kept hm
    | with_reducible apply Kept.ite
    | with_reducible split
    | split

theorem execTrackingLostTimeout_frame (t : Time) (c : ChainNo) (s : State) {s2 : State} {mm : Nat} (hm : Sub 0x7fffffffe00000000000000e080 mm) (he : execTrackingLostTimeout t c s = .next s2) : Kept mm (State.begin t s) s2 := by
  unfold execTrackingLostTimeout at he
  have h : Kept mm (State.begin t s) (State.begin t s) := Kept.refl _ _
  generalize State.begin t s = s0 at h he
  (try dsimp only at he)
  have he : _ = s2 := Host.Outcome.next.inj he
  subst he
  repeat' first
    | (intro x; refine Kept.bind (s0 := s0) (m := mm) (x := x) ?_ ?_; subst x; rotate_left; clear_value x; intro _)
    | (intro y; clear_value y)
    | intro _
    | with_reducible assumption
    | with_reducible lift_lets -underBinder
    | with_reducible apply State.trackTimeout_kept hm
    | with_reducible apply Kept.ite
    | with_reducible split
    | split

theorem execChainEnable_frame (t : Time) (q : Req) (c : ChainNo) (s : State) {s2 : State} {mm : Nat} (hm : Sub 0x7fffffffe00000000000002e084 mm) (he : execChainEnable t q c s = .next s2) : Kept mm (State.begin t s) s2 := by
  unfold execChainEnable at he
  have h : Kept mm (State.begin t s) (State.begin t s) := Kept.refl _ _
  generalize State.begin t s = s0 at h he
  (try dsimp only at he)
  have he : _ = s2 := Host.Outcome.next.inj he
  subst he
  have k0 : Sub 0x7fffffc0000000000000002e004 mm := Sub.trans (by decide) hm
  have k1 : Sub 0x7fffffffe00000000000000e080 mm := Sub.trans (by decide) hm
  repeat' first
    | (intro x; refine Kept.bind (s0 := s0) (m := mm) (x := x) ?_ ?_; subst x; rotate_left; clear_value x; intro _)
    | (intro y; clear_value y)
    | intro _
    | with_reducible assumption
    | with_reducible lift_lets -underBinder
    | with_reducible apply State.hostWrite_kept k0
    | with_reducible apply (enableEff_kept k1).all
    | with_reducible apply enableEff_kept k1
    | with_reducible apply Kept.ite
    | with_reducible split
    | split

theorem execChainBankWrite_frame (t : Time) (q : Req) (c : ChainNo) (img : List Byte) (s : State) {s2 : State} {mm : Nat} (hm : Sub 0x7fffffffe00000000000002e086 mm) (he : execChainBankWrite t q c img s = .next s2) : Kept mm (State.begin t s) s2 := by
  unfold execChainBankWrite at he
  have h : Kept mm (State.begin t s) (State.begin t s) := Kept.refl _ _
  generalize State.begin t s = s0 at h he
  (try dsimp only at he)
  have he : _ = s2 := Host.Outcome.next.inj he
  subst he
  have k0 : Sub 0x7fffffc0000000000000002e004 mm := Sub.trans (by decide) hm
  have k1 : Sub 0x7fffffffe000000000000000082 mm := Sub.trans (by decide) hm
  repeat' first
    | (intro x; refine Kept.bind (s0 := s0) (m := mm) (x := x) ?_ ?_; subst x; rotate_left; clear_value x; intro _)
    | (intro y; clear_value y)
    | intro _
    | with_reducible assumption
    | with_reducible lift_lets -underBinder
    | with_reducible apply State.hostBlob_kept k0
    | with_reducible apply (bankWriteEff_kept k1).all
    | with_reducible apply bankWriteEff_kept k1
    | with_reducible apply Kept.ite
    | with_reducible split
    | split

theorem execChainSwapRequest_frame (t : Time) (q : Req) (c : ChainNo) (v : Nat) (s : State) {s2 : State} {mm : Nat} (hm : Sub 0x7fffffffe00000000000002e084 mm) (he : execChainSwapRequest t q c v s = .next s2) : Kept mm (State.begin t s) s2 := by
  unfold execChainSwapRequest at he
  have h : Kept mm (State.begin t s) (State.begin t s) := Kept.refl _ _
  generalize State.begin t s = s0 at h he
  (try dsimp only at he)
  have he : _ = s2 := Host.Outcome.next.inj he
  subst he
  have k0 : Sub 0x7fffffc0000000000000002e004 mm := Sub.trans (by decide) hm
  have k1 : Sub 0x7fffffffe000000000000000080 mm := Sub.trans (by decide) hm
  repeat' first
    | (intro x; refine Kept.bind (s0 := s0) (m := mm) (x := x) ?_ ?_; subst x; rotate_left; clear_value x; intro _)
    | (intro y; clear_value y)
    | intro _
    | with_reducible assumption
    | with_reducible lift_lets -underBinder
    | with_reducible apply State.hostWrite_kept k0
    | with_reducible apply (chainSwapEff_kept k1).all
    | with_reducible apply chainSwapEff_kept k1
    | with_reducible apply Kept.ite
    | with_reducible split
    | split

theorem execDetectorWindowWrite_frame (t : Time) (q : Req) (c : ChainNo) (w : Nat) (s : State) {s2 : State} {mm : Nat} (hm : Sub 0x7fffffffe00000000000002e084 mm) (he : execDetectorWindowWrite t q c w s = .next s2) : Kept mm (State.begin t s) s2 := by
  unfold execDetectorWindowWrite at he
  have h : Kept mm (State.begin t s) (State.begin t s) := Kept.refl _ _
  generalize State.begin t s = s0 at h he
  (try dsimp only at he)
  have he : _ = s2 := Host.Outcome.next.inj he
  subst he
  have k0 : Sub 0x7fffffc0000000000000002e004 mm := Sub.trans (by decide) hm
  have k1 : Sub 0x7fffffffe000000000000000080 mm := Sub.trans (by decide) hm
  repeat' first
    | (intro x; refine Kept.bind (s0 := s0) (m := mm) (x := x) ?_ ?_; subst x; rotate_left; clear_value x; intro _)
    | (intro y; clear_value y)
    | intro _
    | with_reducible assumption
    | with_reducible lift_lets -underBinder
    | with_reducible apply State.hostWrite_kept k0
    | with_reducible apply (windowEff_kept k1).all
    | with_reducible apply windowEff_kept k1
    | with_reducible apply Kept.ite
    | with_reducible split
    | split

theorem execCoreSpareTakeover_frame (t : Time) (k : CoreNo) (s : State) {s2 : State} {mm : Nat} (hm : Sub 0x7fffffffe00000000000000e080 mm) (he : execCoreSpareTakeover t k s = .next s2) : Kept mm (State.begin t s) s2 := by
  unfold execCoreSpareTakeover at he
  have h : Kept mm (State.begin t s) (State.begin t s) := Kept.refl _ _
  generalize State.begin t s = s0 at h he
  (try dsimp only at he)
  have he : _ = s2 := Host.Outcome.next.inj he
  subst he
  repeat' first
    | (intro x; refine Kept.bind (s0 := s0) (m := mm) (x := x) ?_ ?_; subst x; rotate_left; clear_value x; intro _)
    | (intro y; clear_value y)
    | intro _
    | with_reducible assumption
    | with_reducible lift_lets -underBinder
    | with_reducible apply State.spareTakeover_kept hm
    | with_reducible apply Kept.ite
    | with_reducible split
    | split

theorem execCoreBackgroundTest_frame (t : Time) (k : CoreNo) (pass : Bool) (s : State) {s2 : State} {mm : Nat} (hm : Sub 0x7fffffffffffffffe000009e0c0 mm) (he : execCoreBackgroundTest t k pass s = .next s2) : Kept mm (State.begin t s) s2 := by
  unfold execCoreBackgroundTest at he
  have h : Kept mm (State.begin t s) (State.begin t s) := Kept.refl _ _
  generalize State.begin t s = s0 at h he
  (try dsimp only at he)
  have he : _ = s2 := Host.Outcome.next.inj he
  subst he
  repeat' first
    | (intro x; refine Kept.bind (s0 := s0) (m := mm) (x := x) ?_ ?_; subst x; rotate_left; clear_value x; intro _)
    | (intro y; clear_value y)
    | intro _
    | with_reducible assumption
    | with_reducible lift_lets -underBinder
    | with_reducible apply State.coreTest_kept hm
    | with_reducible apply Kept.ite
    | with_reducible split
    | split

theorem execSarSlot_frame (t : Time) (p : PairNo) (x0 x1 : Code) (s : State) {s2 : State} {mm : Nat} (hm : Sub 0x7fffffffffffffffe000001e0c0 mm) (he : execSarSlot t p x0 x1 s = .next s2) : Kept mm (State.begin t s) s2 := by
  unfold execSarSlot at he
  have h : Kept mm (State.begin t s) (State.begin t s) := Kept.refl _ _
  generalize State.begin t s = s0 at h he
  (try dsimp only at he)
  have he : _ = s2 := Host.Outcome.next.inj he
  subst he
  repeat' first
    | (intro x; refine Kept.bind (s0 := s0) (m := mm) (x := x) ?_ ?_; subst x; rotate_left; clear_value x; intro _)
    | (intro y; clear_value y)
    | intro _
    | with_reducible assumption
    | with_reducible lift_lets -underBinder
    | with_reducible apply State.sarSlot_kept hm
    | with_reducible apply Kept.ite
    | with_reducible split
    | split

theorem execPairTrigger_frame (t : Time) (p : PairNo) (s : State) {s2 : State} {mm : Nat} (hm : Sub 0x7fffffffe00000000000000e0c0 mm) (he : execPairTrigger t p s = .next s2) : Kept mm (State.begin t s) s2 := by
  unfold execPairTrigger at he
  have h : Kept mm (State.begin t s) (State.begin t s) := Kept.refl _ _
  generalize State.begin t s = s0 at h he
  (try dsimp only at he)
  have he : _ = s2 := Host.Outcome.next.inj he
  subst he
  repeat' first
    | (intro x; refine Kept.bind (s0 := s0) (m := mm) (x := x) ?_ ?_; subst x; rotate_left; clear_value x; intro _)
    | (intro y; clear_value y)
    | intro _
    | with_reducible assumption
    | with_reducible lift_lets -underBinder
    | with_reducible apply State.pairTrigger_kept hm
    | with_reducible apply Kept.ite
    | with_reducible split
    | split

theorem execSlotResultRead_frame (t : Time) (q : Req) (k : CoreNo) (i : Fin 8) (s : State) {s2 : State} {mm : Nat} (hm : Sub 0x7fffffffc000000000000020000 mm) (he : execSlotResultRead t q k i s = .next s2) : Kept mm (State.begin t s) s2 := by
  unfold execSlotResultRead at he
  have h : Kept mm (State.begin t s) (State.begin t s) := Kept.refl _ _
  generalize State.begin t s = s0 at h he
  (try dsimp only at he)
  have he : _ = s2 := Host.Outcome.next.inj he
  subst he
  have k0 : Sub 0x20000 mm := Sub.trans (by decide) hm
  have k1 : Sub 0x7fffffffc000000000000000000 mm := Sub.trans (by decide) hm
  repeat' first
    | (intro x; refine Kept.bind (s0 := s0) (m := mm) (x := x) ?_ ?_; subst x; rotate_left; clear_value x; intro _)
    | (intro y; clear_value y)
    | intro _
    | with_reducible assumption
    | with_reducible lift_lets -underBinder
    | with_reducible apply State.hostGet_kept k0
    | with_reducible apply State.slotResultRead_kept k1
    | with_reducible apply Kept.ite
    | with_reducible split
    | split

theorem execTestDacInject_frame (t : Time) (q : Req) (p : PairNo) (code : Nat) (s : State) {s2 : State} {mm : Nat} (hm : Sub 0x7ffffffc000000000000002e084 mm) (he : execTestDacInject t q p code s = .next s2) : Kept mm (State.begin t s) s2 := by
  unfold execTestDacInject at he
  have h : Kept mm (State.begin t s) (State.begin t s) := Kept.refl _ _
  generalize State.begin t s = s0 at h he
  (try dsimp only at he)
  have he : _ = s2 := Host.Outcome.next.inj he
  subst he
  have k0 : Sub 0x7fffffc0000000000000002e004 mm := Sub.trans (by decide) hm
  have k1 : Sub 0x7ffffffc0000000000000000080 mm := Sub.trans (by decide) hm
  repeat' first
    | (intro x; refine Kept.bind (s0 := s0) (m := mm) (x := x) ?_ ?_; subst x; rotate_left; clear_value x; intro _)
    | (intro y; clear_value y)
    | intro _
    | with_reducible assumption
    | with_reducible lift_lets -underBinder
    | with_reducible apply State.hostWrite_kept k0
    | with_reducible apply (dacEff_kept k1).all
    | with_reducible apply dacEff_kept k1
    | with_reducible apply Kept.ite
    | with_reducible split
    | split

theorem execPathTest_frame (t : Time) (q : Req) (p : PairNo) (r0 r1 : Code) (s : State) {s2 : State} {mm : Nat} (hm : Sub 0x7ffffffc000000000000002e004 mm) (he : execPathTest t q p r0 r1 s = .next s2) : Kept mm (State.begin t s) s2 := by
  unfold execPathTest at he
  have h : Kept mm (State.begin t s) (State.begin t s) := Kept.refl _ _
  generalize State.begin t s = s0 at h he
  (try dsimp only at he)
  have he : _ = s2 := Host.Outcome.next.inj he
  subst he
  have k0 : Sub 0x7fffffc0000000000000002e004 mm := Sub.trans (by decide) hm
  have k1 : Sub 0x7ffffffc0000000000000000000 mm := Sub.trans (by decide) hm
  repeat' first
    | (intro x; refine Kept.bind (s0 := s0) (m := mm) (x := x) ?_ ?_; subst x; rotate_left; clear_value x; intro _)
    | (intro y; clear_value y)
    | intro _
    | with_reducible assumption
    | with_reducible lift_lets -underBinder
    | with_reducible apply State.hostWrite_kept k0
    | with_reducible apply (pathEff_kept k1).all
    | with_reducible apply pathEff_kept k1
    | with_reducible apply Kept.ite
    | with_reducible split
    | split

theorem execClearFault_frame (t : Time) (q : Req) (p : PairNo) (s : State) {s2 : State} {mm : Nat} (hm : Sub 0x7ffffffe000000000000002e084 mm) (he : execClearFault t q p s = .next s2) : Kept mm (State.begin t s) s2 := by
  unfold execClearFault at he
  have h : Kept mm (State.begin t s) (State.begin t s) := Kept.refl _ _
  generalize State.begin t s = s0 at h he
  (try dsimp only at he)
  have he : _ = s2 := Host.Outcome.next.inj he
  subst he
  have k0 : Sub 0x7fffffc0000000000000002e004 mm := Sub.trans (by decide) hm
  have k1 : Sub 0x7ffffffe0000000000000000080 mm := Sub.trans (by decide) hm
  repeat' first
    | (intro x; refine Kept.bind (s0 := s0) (m := mm) (x := x) ?_ ?_; subst x; rotate_left; clear_value x; intro _)
    | (intro y; clear_value y)
    | intro _
    | with_reducible assumption
    | with_reducible lift_lets -underBinder
    | with_reducible apply State.hostWrite_kept k0
    | with_reducible apply (clearFaultEff_kept k1).all
    | with_reducible apply clearFaultEff_kept k1
    | with_reducible apply Kept.ite
    | with_reducible split
    | split

theorem execChainBankSwapped_frame (t : Time) (c : ChainNo) (s : State) {s2 : State} {mm : Nat} (hm : Sub 0x7ffffffff000000000000000086 mm) (he : execChainBankSwapped t c s = .next s2) : Kept mm (State.begin t s) s2 := by
  unfold execChainBankSwapped at he
  have h : Kept mm (State.begin t s) (State.begin t s) := Kept.refl _ _
  generalize State.begin t s = s0 at h he
  (try dsimp only at he)
  have he : _ = s2 := Host.Outcome.next.inj he
  subst he
  repeat' first
    | (intro x; refine Kept.bind (s0 := s0) (m := mm) (x := x) ?_ ?_; subst x; rotate_left; clear_value x; intro _)
    | (intro y; clear_value y)
    | intro _
    | with_reducible assumption
    | with_reducible lift_lets -underBinder
    | with_reducible apply State.chainSwapped_kept hm
    | with_reducible apply Kept.ite
    | with_reducible split
    | split

theorem execRecipeLoadAndVerify_frame (t : Time) (q : Req) (b : Batch) (img : List Byte) (s : State) {s2 : State} {mm : Nat} (hm : Sub 0x7ffffffff0000004000040ae0be mm) (he : execRecipeLoadAndVerify t q b img s = .next s2) : Kept mm (State.begin t s) s2 := by
  unfold execRecipeLoadAndVerify at he
  have h : Kept mm (State.begin t s) (State.begin t s) := Kept.refl _ _
  generalize State.begin t s = s0 at h he
  (try dsimp only at he)
  have he : _ = s2 := Host.Outcome.next.inj he
  subst he
  have k0 : Sub 0x7fffffc0000000000000002e004 mm := Sub.trans (by decide) hm
  repeat' first
    | (intro x; refine Kept.bind (s0 := s0) (m := mm) (x := x) ?_ ?_; subst x; rotate_left; clear_value x; intro _)
    | (intro y; clear_value y)
    | intro _
    | with_reducible assumption
    | with_reducible lift_lets -underBinder
    | with_reducible apply State.hostBlob_kept k0
    | with_reducible apply (recipeEff_kept hm).all
    | with_reducible apply recipeEff_kept hm
    | with_reducible apply Kept.ite
    | with_reducible split
    | split

theorem execRecipeUnload_frame (t : Time) (q : Req) (b : Batch) (s : State) {s2 : State} {mm : Nat} (hm : Sub 0x7ffffffff0000004000040ae0be mm) (he : execRecipeUnload t q b s = .next s2) : Kept mm (State.begin t s) s2 := by
  unfold execRecipeUnload at he
  have h : Kept mm (State.begin t s) (State.begin t s) := Kept.refl _ _
  generalize State.begin t s = s0 at h he
  (try dsimp only at he)
  have he : _ = s2 := Host.Outcome.next.inj he
  subst he
  have k0 : Sub 0x7fffffc0000000000000002e004 mm := Sub.trans (by decide) hm
  repeat' first
    | (intro x; refine Kept.bind (s0 := s0) (m := mm) (x := x) ?_ ?_; subst x; rotate_left; clear_value x; intro _)
    | (intro y; clear_value y)
    | intro _
    | with_reducible assumption
    | with_reducible lift_lets -underBinder
    | with_reducible apply State.hostBlob_kept k0
    | with_reducible apply (recipeEff_kept hm).all
    | with_reducible apply recipeEff_kept hm
    | with_reducible apply Kept.ite
    | with_reducible split
    | split

theorem execRecipeLoadComplete_frame (t : Time) (b : Batch) (s : State) {s2 : State} {mm : Nat} (hm : Sub 0x7ffffffff00000040000402e0be mm) (he : execRecipeLoadComplete t b s = .next s2) : Kept mm (State.begin t s) s2 := by
  unfold execRecipeLoadComplete at he
  have h : Kept mm (State.begin t s) (State.begin t s) := Kept.refl _ _
  generalize State.begin t s = s0 at h he
  (try dsimp only at he)
  have he : _ = s2 := Host.Outcome.next.inj he
  subst he
  repeat' first
    | (intro x; refine Kept.bind (s0 := s0) (m := mm) (x := x) ?_ ?_; subst x; rotate_left; clear_value x; intro _)
    | (intro y; clear_value y)
    | intro _
    | with_reducible assumption
    | with_reducible lift_lets -underBinder
    | with_reducible apply State.loadComplete_kept hm
    | with_reducible apply Kept.ite
    | with_reducible split
    | split

theorem execBatchEnable_frame (t : Time) (q : Req) (b : Batch) (v : Bool) (s : State) {s2 : State} {mm : Nat} (hm : Sub 0x7ffffffff00000040000002e004 mm) (he : execBatchEnable t q b v s = .next s2) : Kept mm (State.begin t s) s2 := by
  unfold execBatchEnable at he
  have h : Kept mm (State.begin t s) (State.begin t s) := Kept.refl _ _
  generalize State.begin t s = s0 at h he
  (try dsimp only at he)
  have he : _ = s2 := Host.Outcome.next.inj he
  subst he
  have k0 : Sub 0x7fffffc0000000000000002e004 mm := Sub.trans (by decide) hm
  have k1 : Sub 0x7ffffffff000000400000008004 mm := Sub.trans (by decide) hm
  repeat' first
    | (intro x; refine Kept.bind (s0 := s0) (m := mm) (x := x) ?_ ?_; subst x; rotate_left; clear_value x; intro _)
    | (intro y; clear_value y)
    | intro _
    | with_reducible assumption
    | with_reducible lift_lets -underBinder
    | with_reducible apply State.hostWrite_kept k0
    | with_reducible apply (enableBatchEff_kept k1).all
    | with_reducible apply enableBatchEff_kept k1
    | with_reducible apply Kept.ite
    | with_reducible split
    | split

theorem execBatchLoad_frame (t : Time) (b : Batch) (s : State) {s2 : State} {mm : Nat} (hm : Sub 0x7ffffffffffc00000000000e124 mm) (he : execBatchLoad t b s = .next s2) : Kept mm (State.begin t s) s2 := by
  unfold execBatchLoad at he
  have h : Kept mm (State.begin t s) (State.begin t s) := Kept.refl _ _
  generalize State.begin t s = s0 at h he
  (try dsimp only at he)
  have he : _ = s2 := Host.Outcome.next.inj he
  subst he
  repeat' first
    | (intro x; refine Kept.bind (s0 := s0) (m := mm) (x := x) ?_ ?_; subst x; rotate_left; clear_value x; intro _)
    | (intro y; clear_value y)
    | intro _
    | with_reducible assumption
    | with_reducible lift_lets -underBinder
    | with_reducible apply State.batchLoad_kept hm
    | with_reducible apply Kept.ite
    | with_reducible split
    | split

theorem execSpareSliceTakeover_frame (t : Time) (c : Channel) (s : State) {s2 : State} {mm : Nat} (hm : Sub 0x7fffffffffffffffe000001e164 mm) (he : execSpareSliceTakeover t c s = .next s2) : Kept mm (State.begin t s) s2 := by
  unfold execSpareSliceTakeover at he
  have h : Kept mm (State.begin t s) (State.begin t s) := Kept.refl _ _
  generalize State.begin t s = s0 at h he
  (try dsimp only at he)
  have he : _ = s2 := Host.Outcome.next.inj he
  subst he
  repeat' first
    | (intro x; refine Kept.bind (s0 := s0) (m := mm) (x := x) ?_ ?_; subst x; rotate_left; clear_value x; intro _)
    | (intro y; clear_value y)
    | intro _
    | with_reducible assumption
    | with_reducible lift_lets -underBinder
    | with_reducible apply State.takeoverSlice_kept hm
    | with_reducible apply Kept.ite
    | with_reducible split
    | split

theorem execLoadPoint_frame (t : Time) (c : Channel) (s : State) {s2 : State} {mm : Nat} (hm : Sub 0x7fffffffffffffffe000009e164 mm) (he : execLoadPoint t c s = .next s2) : Kept mm (State.begin t s) s2 := by
  unfold execLoadPoint at he
  have h : Kept mm (State.begin t s) (State.begin t s) := Kept.refl _ _
  generalize State.begin t s = s0 at h he
  (try dsimp only at he)
  have he : _ = s2 := Host.Outcome.next.inj he
  subst he
  have k0 : Sub 0x7fffffffffffffffe000001e164 mm := Sub.trans (by decide) hm
  have k1 : Sub 0x7ffffffffffc00000000008e124 mm := Sub.trans (by decide) hm
  repeat' first
    | (intro x; refine Kept.bind (s0 := s0) (m := mm) (x := x) ?_ ?_; subst x; rotate_left; clear_value x; intro _)
    | (intro y; clear_value y)
    | intro _
    | with_reducible assumption
    | with_reducible lift_lets -underBinder
    | with_reducible apply State.takeoverSlice_kept k0
    | with_reducible apply State.loadPoint_kept k1
    | with_reducible apply Kept.ite
    | with_reducible split
    | split

theorem execSliceBackgroundTest_frame (t : Time) (sl : SliceNo) (s : State) {s2 : State} {mm : Nat} (hm : Sub 0x7fffffffffffffffe000001e164 mm) (he : execSliceBackgroundTest t sl s = .next s2) : Kept mm (State.begin t s) s2 := by
  unfold execSliceBackgroundTest at he
  have h : Kept mm (State.begin t s) (State.begin t s) := Kept.refl _ _
  generalize State.begin t s = s0 at h he
  (try dsimp only at he)
  have he : _ = s2 := Host.Outcome.next.inj he
  subst he
  repeat' first
    | (intro x; refine Kept.bind (s0 := s0) (m := mm) (x := x) ?_ ?_; subst x; rotate_left; clear_value x; intro _)
    | (intro y; clear_value y)
    | intro _
    | with_reducible assumption
    | with_reducible lift_lets -underBinder
    | with_reducible apply State.sliceTest_kept hm
    | with_reducible apply Kept.ite
    | with_reducible split
    | split

theorem execSliceTestEnd_frame (t : Time) (sl : SliceNo) (pass : Bool) (s : State) {s2 : State} {mm : Nat} (hm : Sub 0x7fffffffffffffffe000001e164 mm) (he : execSliceTestEnd t sl pass s = .next s2) : Kept mm (State.begin t s) s2 := by
  unfold execSliceTestEnd at he
  have h : Kept mm (State.begin t s) (State.begin t s) := Kept.refl _ _
  generalize State.begin t s = s0 at h he
  (try dsimp only at he)
  have he : _ = s2 := Host.Outcome.next.inj he
  subst he
  repeat' first
    | (intro x; refine Kept.bind (s0 := s0) (m := mm) (x := x) ?_ ?_; subst x; rotate_left; clear_value x; intro _)
    | (intro y; clear_value y)
    | intro _
    | with_reducible assumption
    | with_reducible lift_lets -underBinder
    | with_reducible apply State.sliceTestEnd_kept hm
    | with_reducible apply Kept.ite
    | with_reducible split
    | split

theorem execSliceCalibration_frame (t : Time) (counts : List CalCount) (s : State) {s2 : State} {mm : Nat} (hm : Sub 0x7fffffffffffffffe000001e164 mm) (he : execSliceCalibration t counts s = .next s2) : Kept mm (State.begin t s) s2 := by
  unfold execSliceCalibration at he
  have h : Kept mm (State.begin t s) (State.begin t s) := Kept.refl _ _
  generalize State.begin t s = s0 at h he
  (try dsimp only at he)
  have he : _ = s2 := Host.Outcome.next.inj he
  subst he
  repeat' first
    | (intro x; refine Kept.bind (s0 := s0) (m := mm) (x := x) ?_ ?_; subst x; rotate_left; clear_value x; intro _)
    | (intro y; clear_value y)
    | intro _
    | with_reducible assumption
    | with_reducible lift_lets -underBinder
    | with_reducible apply State.sliceCalibration_kept hm
    | with_reducible apply Kept.ite
    | with_reducible split
    | split

theorem execExtendedRecalibration_frame (t : Time) (s : State) {s2 : State} {mm : Nat} (hm : Sub 0x100 mm) (he : execExtendedRecalibration t s = .next s2) : Kept mm (State.begin t s) s2 := by
  unfold execExtendedRecalibration at he
  have h : Kept mm (State.begin t s) (State.begin t s) := Kept.refl _ _
  generalize State.begin t s = s0 at h he
  (try dsimp only at he)
  have he : _ = s2 := Host.Outcome.next.inj he
  subst he
  repeat' first
    | (intro x; refine Kept.bind (s0 := s0) (m := mm) (x := x) ?_ ?_; subst x; rotate_left; clear_value x; intro _)
    | (intro y; clear_value y)
    | intro _
    | with_reducible assumption
    | with_reducible lift_lets -underBinder
    | with_reducible apply State.extendedCal_kept hm
    | with_reducible apply Kept.ite
    | with_reducible split
    | split

theorem execReturnToNormalMode_frame (t : Time) (b : Batch) (s : State) {s2 : State} {mm : Nat} (hm : Sub 0x7ffffffffffc000000000000100 mm) (he : execReturnToNormalMode t b s = .next s2) : Kept mm (State.begin t s) s2 := by
  unfold execReturnToNormalMode at he
  have h : Kept mm (State.begin t s) (State.begin t s) := Kept.refl _ _
  generalize State.begin t s = s0 at h he
  (try dsimp only at he)
  have he : _ = s2 := Host.Outcome.next.inj he
  subst he
  repeat' first
    | (intro x; refine Kept.bind (s0 := s0) (m := mm) (x := x) ?_ ?_; subst x; rotate_left; clear_value x; intro _)
    | (intro y; clear_value y)
    | intro _
    | with_reducible assumption
    | with_reducible lift_lets -underBinder
    | with_reducible apply State.returnNormal_kept hm
    | with_reducible apply Kept.ite
    | with_reducible split
    | split

theorem execPwmBlockN_frame (t : Time) (k : Fin 2) (low : Bool) (s : State) {s2 : State} {mm : Nat} (hm : Sub 0x7ffffffffffc00000000000e124 mm) (he : execPwmBlockN t k low s = .next s2) : Kept mm (State.begin t s) s2 := by
  unfold execPwmBlockN at he
  have h : Kept mm (State.begin t s) (State.begin t s) := Kept.refl _ _
  generalize State.begin t s = s0 at h he
  (try dsimp only at he)
  have he : _ = s2 := Host.Outcome.next.inj he
  subst he
  have k0 : Sub 0x7fffd000000000000000000e000 mm := Sub.trans (by decide) hm
  repeat' first
    | (intro x; refine Kept.bind (s0 := s0) (m := mm) (x := x) ?_ ?_; subst x; rotate_left; clear_value x; intro _)
    | (intro y; clear_value y)
    | intro _
    | with_reducible assumption
    | with_reducible lift_lets -underBinder
    | with_reducible apply State.blockInput_kept hm
    | with_reducible apply State.inputEdge_kept k0
    | with_reducible apply Kept.ite
    | with_reducible split
    | split

theorem execBootstrapUndervoltage_frame (t : Time) (d : DriverNo) (s : State) {s2 : State} {mm : Nat} (hm : Sub 0x7ffffffffffc00000000000e500 mm) (he : execBootstrapUndervoltage t d s = .next s2) : Kept mm (State.begin t s) s2 := by
  unfold execBootstrapUndervoltage at he
  have h : Kept mm (State.begin t s) (State.begin t s) := Kept.refl _ _
  generalize State.begin t s = s0 at h he
  (try dsimp only at he)
  have he : _ = s2 := Host.Outcome.next.inj he
  subst he
  repeat' first
    | (intro x; refine Kept.bind (s0 := s0) (m := mm) (x := x) ?_ ?_; subst x; rotate_left; clear_value x; intro _)
    | (intro y; clear_value y)
    | intro _
    | with_reducible assumption
    | with_reducible lift_lets -underBinder
    | with_reducible apply State.bootstrapLow_kept hm
    | with_reducible apply Kept.ite
    | with_reducible split
    | split

theorem execRechargeHold_frame (t : Time) (d : DriverNo) (s : State) {s2 : State} {mm : Nat} (hm : Sub 0x7ffffffffffc000000000000500 mm) (he : execRechargeHold t d s = .next s2) : Kept mm (State.begin t s) s2 := by
  unfold execRechargeHold at he
  have h : Kept mm (State.begin t s) (State.begin t s) := Kept.refl _ _
  generalize State.begin t s = s0 at h he
  (try dsimp only at he)
  have he : _ = s2 := Host.Outcome.next.inj he
  subst he
  repeat' first
    | (intro x; refine Kept.bind (s0 := s0) (m := mm) (x := x) ?_ ?_; subst x; rotate_left; clear_value x; intro _)
    | (intro y; clear_value y)
    | intro _
    | with_reducible assumption
    | with_reducible lift_lets -underBinder
    | with_reducible apply State.rechargeHold_kept hm
    | with_reducible apply Kept.ite
    | with_reducible split
    | split

theorem execTestDuty_frame (t : Time) (q : Req) (c : Channel) (v : Nat) (s : State) {s2 : State} {mm : Nat} (hm : Sub 0x7ffffffffffc00000000002e104 mm) (he : execTestDuty t q c v s = .next s2) : Kept mm (State.begin t s) s2 := by
  unfold execTestDuty at he
  have h : Kept mm (State.begin t s) (State.begin t s) := Kept.refl _ _
  generalize State.begin t s = s0 at h he
  (try dsimp only at he)
  have he : _ = s2 := Host.Outcome.next.inj he
  subst he
  have k0 : Sub 0x7fffffc0000000000000002e004 mm := Sub.trans (by decide) hm
  have k1 : Sub 0x7ffffffffffc000000000000100 mm := Sub.trans (by decide) hm
  repeat' first
    | (intro x; refine Kept.bind (s0 := s0) (m := mm) (x := x) ?_ ?_; subst x; rotate_left; clear_value x; intro _)
    | (intro y; clear_value y)
    | intro _
    | with_reducible assumption
    | with_reducible lift_lets -underBinder
    | with_reducible apply State.hostWrite_kept k0
    | with_reducible apply (testDutyEff_kept k1).all
    | with_reducible apply testDutyEff_kept k1
    | with_reducible apply Kept.ite
    | with_reducible split
    | split

theorem execBlankingEnd_frame (t : Time) (d : DriverNo) (high : Bool) (s : State) {s2 : State} {mm : Nat} (hm : Sub 0x400 mm) (he : execBlankingEnd t d high s = .next s2) : Kept mm (State.begin t s) s2 := by
  unfold execBlankingEnd at he
  have h : Kept mm (State.begin t s) (State.begin t s) := Kept.refl _ _
  generalize State.begin t s = s0 at h he
  (try dsimp only at he)
  have he : _ = s2 := Host.Outcome.next.inj he
  subst he
  repeat' first
    | (intro x; refine Kept.bind (s0 := s0) (m := mm) (x := x) ?_ ?_; subst x; rotate_left; clear_value x; intro _)
    | (intro y; clear_value y)
    | intro _
    | with_reducible assumption
    | with_reducible lift_lets -underBinder
    | with_reducible apply State.blankingEnd_kept hm
    | with_reducible apply Kept.ite
    | with_reducible split
    | split

theorem execShort_frame (t : Time) (d : DriverNo) (x : DrainSense) (s : State) {s2 : State} {mm : Nat} (hm : Sub 0x7ffffffffffc00000000000e524 mm) (he : execShort t d x s = .next s2) : Kept mm (State.begin t s) s2 := by
  unfold execShort at he
  have h : Kept mm (State.begin t s) (State.begin t s) := Kept.refl _ _
  generalize State.begin t s = s0 at h he
  (try dsimp only at he)
  have he : _ = s2 := Host.Outcome.next.inj he
  subst he
  repeat' first
    | (intro x; refine Kept.bind (s0 := s0) (m := mm) (x := x) ?_ ?_; subst x; rotate_left; clear_value x; intro _)
    | (intro y; clear_value y)
    | intro _
    | with_reducible assumption
    | with_reducible lift_lets -underBinder
    | with_reducible apply State.driverShort_kept hm
    | with_reducible apply Kept.ite
    | with_reducible split
    | split

theorem execDriverClearFaults_frame (t : Time) (q : Req) (d : DriverNo) (s : State) {s2 : State} {mm : Nat} (hm : Sub 0x7ffffffffff800000000002e004 mm) (he : execDriverClearFaults t q d s = .next s2) : Kept mm (State.begin t s) s2 := by
  unfold execDriverClearFaults at he
  have h : Kept mm (State.begin t s) (State.begin t s) := Kept.refl _ _
  generalize State.begin t s = s0 at h he
  (try dsimp only at he)
  have he : _ = s2 := Host.Outcome.next.inj he
  subst he
  have k0 : Sub 0x7fffffc0000000000000002e004 mm := Sub.trans (by decide) hm
  have k1 : Sub 0x7ffffffffff8000000000000000 mm := Sub.trans (by decide) hm
  repeat' first
    | (intro x; refine Kept.bind (s0 := s0) (m := mm) (x := x) ?_ ?_; subst x; rotate_left; clear_value x; intro _)
    | (intro y; clear_value y)
    | intro _
    | with_reducible assumption
    | with_reducible lift_lets -underBinder
    | with_reducible apply State.hostWrite_kept k0
    | with_reducible apply (driverClearEff_kept k1).all
    | with_reducible apply driverClearEff_kept k1
    | with_reducible apply Kept.ite
    | with_reducible split
    | split

theorem execRunDiagnostic_frame (t : Time) (q : Req) (d : DiagRun) (s : State) {s2 : State} {mm : Nat} (hm : Sub 0x7ffffffffffc00000000002e524 mm) (he : execRunDiagnostic t q d s = .next s2) : Kept mm (State.begin t s) s2 := by
  unfold execRunDiagnostic at he
  have h : Kept mm (State.begin t s) (State.begin t s) := Kept.refl _ _
  generalize State.begin t s = s0 at h he
  (try dsimp only at he)
  have he : _ = s2 := Host.Outcome.next.inj he
  subst he
  have k0 : Sub 0x400 mm := Sub.trans (by decide) hm
  have k1 : Sub 0x7fffffc0000000000000002e004 mm := Sub.trans (by decide) hm
  have k2 : Sub 0x7ffffffffffc00000000000e524 mm := Sub.trans (by decide) hm
  repeat' first
    | (intro x; refine Kept.bind (s0 := s0) (m := mm) (x := x) ?_ ?_; subst x; rotate_left; clear_value x; intro _)
    | (intro y; clear_value y)
    | intro _
    | with_reducible assumption
    | with_reducible lift_lets -underBinder
    | with_reducible apply State.senseSupply_kept k0
    | with_reducible apply State.hostWrite_kept k1
    | with_reducible apply (diagEff_kept k2).all
    | with_reducible apply diagEff_kept k2
    | with_reducible apply Kept.ite
    | with_reducible split
    | split

theorem execDiagnosticStep_frame (t : Time) (d : DriverNo) (v : DiagNode) (vp : Nat) (s : State) {s2 : State} {mm : Nat} (hm : Sub 0x7ffffffffffc00000000000e524 mm) (he : execDiagnosticStep t d v vp s = .next s2) : Kept mm (State.begin t s) s2 := by
  unfold execDiagnosticStep at he
  have h : Kept mm (State.begin t s) (State.begin t s) := Kept.refl _ _
  generalize State.begin t s = s0 at h he
  (try dsimp only at he)
  have he : _ = s2 := Host.Outcome.next.inj he
  subst he
  repeat' first
    | (intro x; refine Kept.bind (s0 := s0) (m := mm) (x := x) ?_ ?_; subst x; rotate_left; clear_value x; intro _)
    | (intro y; clear_value y)
    | intro _
    | with_reducible assumption
    | with_reducible lift_lets -underBinder
    | with_reducible apply State.diagStep_kept hm
    | with_reducible apply Kept.ite
    | with_reducible split
    | split

theorem execVgateLow_frame (t : Time) (mv : Nat) (s : State) {s2 : State} {mm : Nat} (hm : Sub 0x7ffffffffffc00000000000e524 mm) (he : execVgateLow t mv s = .next s2) : Kept mm (State.begin t s) s2 := by
  unfold execVgateLow at he
  have h : Kept mm (State.begin t s) (State.begin t s) := Kept.refl _ _
  generalize State.begin t s = s0 at h he
  (try dsimp only at he)
  have he : _ = s2 := Host.Outcome.next.inj he
  subst he
  repeat' first
    | (intro x; refine Kept.bind (s0 := s0) (m := mm) (x := x) ?_ ?_; subst x; rotate_left; clear_value x; intro _)
    | (intro y; clear_value y)
    | intro _
    | with_reducible assumption
    | with_reducible lift_lets -underBinder
    | with_reducible apply State.vgateLow_kept hm
    | with_reducible apply Kept.ite
    | with_reducible split
    | split

theorem execVgateRecovered_frame (t : Time) (mv : Nat) (s : State) {s2 : State} {mm : Nat} (hm : Sub 0x10000000000000400 mm) (he : execVgateRecovered t mv s = .next s2) : Kept mm (State.begin t s) s2 := by
  unfold execVgateRecovered at he
  have h : Kept mm (State.begin t s) (State.begin t s) := Kept.refl _ _
  generalize State.begin t s = s0 at h he
  (try dsimp only at he)
  have he : _ = s2 := Host.Outcome.next.inj he
  subst he
  repeat' first
    | (intro x; refine Kept.bind (s0 := s0) (m := mm) (x := x) ?_ ?_; subst x; rotate_left; clear_value x; intro _)
    | (intro y; clear_value y)
    | intro _
    | with_reducible assumption
    | with_reducible lift_lets -underBinder
    | with_reducible apply State.vgateRecovered_kept hm
    | with_reducible apply Kept.ite
    | with_reducible split
    | split

theorem execVbridgeOvervoltage_frame (t : Time) (mv : Nat) (s : State) {s2 : State} {mm : Nat} (hm : Sub 0x7ffffffffffc00000000000e524 mm) (he : execVbridgeOvervoltage t mv s = .next s2) : Kept mm (State.begin t s) s2 := by
  unfold execVbridgeOvervoltage at he
  have h : Kept mm (State.begin t s) (State.begin t s) := Kept.refl _ _
  generalize State.begin t s = s0 at h he
  (try dsimp only at he)
  have he : _ = s2 := Host.Outcome.next.inj he
  subst he
  repeat' first
    | (intro x; refine Kept.bind (s0 := s0) (m := mm) (x := x) ?_ ?_; subst x; rotate_left; clear_value x; intro _)
    | (intro y; clear_value y)
    | intro _
    | with_reducible assumption
    | with_reducible lift_lets -underBinder
    | with_reducible apply State.vbridgeOver_kept hm
    | with_reducible apply Kept.ite
    | with_reducible split
    | split

theorem execVbridgeOvervoltageClear_frame (t : Time) (mv : Nat) (s : State) {s2 : State} {mm : Nat} (hm : Sub 0x10000000000000400 mm) (he : execVbridgeOvervoltageClear t mv s = .next s2) : Kept mm (State.begin t s) s2 := by
  unfold execVbridgeOvervoltageClear at he
  have h : Kept mm (State.begin t s) (State.begin t s) := Kept.refl _ _
  generalize State.begin t s = s0 at h he
  (try dsimp only at he)
  have he : _ = s2 := Host.Outcome.next.inj he
  subst he
  repeat' first
    | (intro x; refine Kept.bind (s0 := s0) (m := mm) (x := x) ?_ ?_; subst x; rotate_left; clear_value x; intro _)
    | (intro y; clear_value y)
    | intro _
    | with_reducible assumption
    | with_reducible lift_lets -underBinder
    | with_reducible apply State.vbridgeOverClear_kept hm
    | with_reducible apply Kept.ite
    | with_reducible split
    | split

theorem execVbridgeLow_frame (t : Time) (mv : Nat) (s : State) {s2 : State} {mm : Nat} (hm : Sub 0x7ffffffffffc00000000000e524 mm) (he : execVbridgeLow t mv s = .next s2) : Kept mm (State.begin t s) s2 := by
  unfold execVbridgeLow at he
  have h : Kept mm (State.begin t s) (State.begin t s) := Kept.refl _ _
  generalize State.begin t s = s0 at h he
  (try dsimp only at he)
  have he : _ = s2 := Host.Outcome.next.inj he
  subst he
  repeat' first
    | (intro x; refine Kept.bind (s0 := s0) (m := mm) (x := x) ?_ ?_; subst x; rotate_left; clear_value x; intro _)
    | (intro y; clear_value y)
    | intro _
    | with_reducible assumption
    | with_reducible lift_lets -underBinder
    | with_reducible apply State.vbridgeLow_kept hm
    | with_reducible apply Kept.ite
    | with_reducible split
    | split

theorem execVbridgeLowClear_frame (t : Time) (mv : Nat) (s : State) {s2 : State} {mm : Nat} (hm : Sub 0x10000000000000400 mm) (he : execVbridgeLowClear t mv s = .next s2) : Kept mm (State.begin t s) s2 := by
  unfold execVbridgeLowClear at he
  have h : Kept mm (State.begin t s) (State.begin t s) := Kept.refl _ _
  generalize State.begin t s = s0 at h he
  (try dsimp only at he)
  have he : _ = s2 := Host.Outcome.next.inj he
  subst he
  repeat' first
    | (intro x; refine Kept.bind (s0 := s0) (m := mm) (x := x) ?_ ?_; subst x; rotate_left; clear_value x; intro _)
    | (intro y; clear_value y)
    | intro _
    | with_reducible assumption
    | with_reducible lift_lets -underBinder
    | with_reducible apply State.vbridgeLowClear_kept hm
    | with_reducible apply Kept.ite
    | with_reducible split
    | split

theorem execOpenLoopTimeout_frame (t : Time) (b : Batch) (s : State) {s2 : State} {mm : Nat} (hm : Sub 0x7ffffffffffc00000000000e124 mm) (he : execOpenLoopTimeout t b s = .next s2) : Kept mm (State.begin t s) s2 := by
  unfold execOpenLoopTimeout at he
  have h : Kept mm (State.begin t s) (State.begin t s) := Kept.refl _ _
  generalize State.begin t s = s0 at h he
  (try dsimp only at he)
  have he : _ = s2 := Host.Outcome.next.inj he
  subst he
  repeat' first
    | (intro x; refine Kept.bind (s0 := s0) (m := mm) (x := x) ?_ ?_; subst x; rotate_left; clear_value x; intro _)
    | (intro y; clear_value y)
    | intro _
    | with_reducible assumption
    | with_reducible lift_lets -underBinder
    | with_reducible apply State.openLoopTimeout_kept hm
    | with_reducible apply Kept.ite
    | with_reducible split
    | split

theorem execLoopReclose_frame (t : Time) (b : Batch) (s : State) {s2 : State} {mm : Nat} (hm : Sub 0x7ffffffff000000000000000018 mm) (he : execLoopReclose t b s = .next s2) : Kept mm (State.begin t s) s2 := by
  unfold execLoopReclose at he
  have h : Kept mm (State.begin t s) (State.begin t s) := Kept.refl _ _
  generalize State.begin t s = s0 at h he
  (try dsimp only at he)
  have he : _ = s2 := Host.Outcome.next.inj he
  subst he
  repeat' first
    | (intro x; refine Kept.bind (s0 := s0) (m := mm) (x := x) ?_ ?_; subst x; rotate_left; clear_value x; intro _)
    | (intro y; clear_value y)
    | intro _
    | with_reducible assumption
    | with_reducible lift_lets -underBinder
    | with_reducible apply State.reclose_kept hm
    | with_reducible apply Kept.ite
    | with_reducible split
    | split

theorem execFollowingErrorTick_frame (t : Time) (sl : SlotNo) (s : State) {s2 : State} {mm : Nat} (hm : Sub 0x7ffffffffffc00000000000e13c mm) (he : execFollowingErrorTick t sl s = .next s2) : Kept mm (State.begin t s) s2 := by
  unfold execFollowingErrorTick at he
  have h : Kept mm (State.begin t s) (State.begin t s) := Kept.refl _ _
  generalize State.begin t s = s0 at h he
  (try dsimp only at he)
  have he : _ = s2 := Host.Outcome.next.inj he
  subst he
  have k0 : Sub 0x7ffffffff00000000000000001c mm := Sub.trans (by decide) hm
  have k1 : Sub 0x7ffffffffffc00000000000e124 mm := Sub.trans (by decide) hm
  repeat' first
    | (intro x; refine Kept.bind (s0 := s0) (m := mm) (x := x) ?_ ?_; subst x; rotate_left; clear_value x; intro _)
    | (intro y; clear_value y)
    | intro _
    | with_reducible assumption
    | with_reducible lift_lets -underBinder
    | with_reducible apply State.feTick_kept k0
    | with_reducible apply State.faultReaction_kept k1
    | with_reducible apply Kept.ite
    | with_reducible split
    | split

theorem execDeadline_frame (t : Time) (b : Batch) (s : State) {s2 : State} {mm : Nat} (hm : Sub 0x7ffffffffffc00000000000e174 mm) (he : execDeadline t b s = .next s2) : Kept mm (State.begin t s) s2 := by
  unfold execDeadline at he
  have h : Kept mm (State.begin t s) (State.begin t s) := Kept.refl _ _
  generalize State.begin t s = s0 at h he
  (try dsimp only at he)
  have he : _ = s2 := Host.Outcome.next.inj he
  subst he
  have k0 : Sub 0x7fffffc00000000000000000044 mm := Sub.trans (by decide) hm
  repeat' first
    | (intro x; refine Kept.bind (s0 := s0) (m := mm) (x := x) ?_ ?_; subst x; rotate_left; clear_value x; intro _)
    | (intro y; clear_value y)
    | intro _
    | with_reducible assumption
    | with_reducible lift_lets -underBinder
    | with_reducible apply State.deadline_kept hm
    | with_reducible apply State.dispatch_kept k0
    | with_reducible apply Kept.ite
    | with_reducible split
    | split

theorem execSlotFault_frame (t : Time) (b : Batch) (fs : FloatSlotNo) (s : State) {s2 : State} {mm : Nat} (hm : Sub 0x7ffffffffffc00000000000e174 mm) (he : execSlotFault t b fs s = .next s2) : Kept mm (State.begin t s) s2 := by
  unfold execSlotFault at he
  have h : Kept mm (State.begin t s) (State.begin t s) := Kept.refl _ _
  generalize State.begin t s = s0 at h he
  (try dsimp only at he)
  have he : _ = s2 := Host.Outcome.next.inj he
  subst he
  have k0 : Sub 0x7fffffc00000000000000000044 mm := Sub.trans (by decide) hm
  repeat' first
    | (intro x; refine Kept.bind (s0 := s0) (m := mm) (x := x) ?_ ?_; subst x; rotate_left; clear_value x; intro _)
    | (intro y; clear_value y)
    | intro _
    | with_reducible assumption
    | with_reducible lift_lets -underBinder
    | with_reducible apply State.slotFault_kept hm
    | with_reducible apply State.dispatch_kept k0
    | with_reducible apply Kept.ite
    | with_reducible split
    | split

theorem execInputsReady_frame (t : Time) (b : Batch) (s : State) {s2 : State} {mm : Nat} (hm : Sub 0x7ffffffffffc00000000000e164 mm) (he : execInputsReady t b s = .next s2) : Kept mm (State.begin t s) s2 := by
  unfold execInputsReady at he
  have h : Kept mm (State.begin t s) (State.begin t s) := Kept.refl _ _
  generalize State.begin t s = s0 at h he
  (try dsimp only at he)
  have he : _ = s2 := Host.Outcome.next.inj he
  subst he
  have k0 : Sub 0x7ffffffffffc00000000000e124 mm := Sub.trans (by decide) hm
  have k1 : Sub 0x7fffffc00000000000000000044 mm := Sub.trans (by decide) hm
  repeat' first
    | (intro x; refine Kept.bind (s0 := s0) (m := mm) (x := x) ?_ ?_; subst x; rotate_left; clear_value x; intro _)
    | (intro y; clear_value y)
    | intro _
    | with_reducible assumption
    | with_reducible lift_lets -underBinder
    | with_reducible apply State.inputsReady_kept k0
    | with_reducible apply State.dispatch_kept k1
    | with_reducible apply Kept.ite
    | with_reducible split
    | split

theorem execItemComplete_frame (t : Time) (l : Lane) (s : State) {s2 : State} {mm : Nat} (hm : Sub 0x7ffffffffffc00000000000e17c mm) (he : execItemComplete t l s = .next s2) : Kept mm (State.begin t s) s2 := by
  unfold execItemComplete at he
  have h : Kept mm (State.begin t s) (State.begin t s) := Kept.refl _ _
  generalize State.begin t s = s0 at h he
  (try dsimp only at he)
  have he : _ = s2 := Host.Outcome.next.inj he
  subst he
  have k0 : Sub 0x7fffffc00000000000000000044 mm := Sub.trans (by decide) hm
  repeat' first
    | (intro x; refine Kept.bind (s0 := s0) (m := mm) (x := x) ?_ ?_; subst x; rotate_left; clear_value x; intro _)
    | (intro y; clear_value y)
    | intro _
    | with_reducible assumption
    | with_reducible lift_lets -underBinder
    | with_reducible apply State.itemComplete_kept hm
    | with_reducible apply State.dispatch_kept k0
    | with_reducible apply Kept.ite
    | with_reducible split
    | split

theorem execDcLinkReady_frame (t : Time) (b : Batch) (s : State) {s2 : State} {mm : Nat} (hm : Sub 0x7ffffffffffc00000000000e124 mm) (he : execDcLinkReady t b s = .next s2) : Kept mm (State.begin t s) s2 := by
  unfold execDcLinkReady at he
  have h : Kept mm (State.begin t s) (State.begin t s) := Kept.refl _ _
  generalize State.begin t s = s0 at h he
  (try dsimp only at he)
  have he : _ = s2 := Host.Outcome.next.inj he
  subst he
  repeat' first
    | (intro x; refine Kept.bind (s0 := s0) (m := mm) (x := x) ?_ ?_; subst x; rotate_left; clear_value x; intro _)
    | (intro y; clear_value y)
    | intro _
    | with_reducible assumption
    | with_reducible lift_lets -underBinder
    | with_reducible apply State.dcReady_kept hm
    | with_reducible apply Kept.ite
    | with_reducible split
    | split

theorem execPrechargeTimeLimit_frame (t : Time) (b : Batch) (s : State) {s2 : State} {mm : Nat} (hm : Sub 0x7ffffffffffc00000000000e124 mm) (he : execPrechargeTimeLimit t b s = .next s2) : Kept mm (State.begin t s) s2 := by
  unfold execPrechargeTimeLimit at he
  have h : Kept mm (State.begin t s) (State.begin t s) := Kept.refl _ _
  generalize State.begin t s = s0 at h he
  (try dsimp only at he)
  have he : _ = s2 := Host.Outcome.next.inj he
  subst he
  repeat' first
    | (intro x; refine Kept.bind (s0 := s0) (m := mm) (x := x) ?_ ?_; subst x; rotate_left; clear_value x; intro _)
    | (intro y; clear_value y)
    | intro _
    | with_reducible assumption
    | with_reducible lift_lets -underBinder
    | with_reducible apply State.prechargeLimit_kept hm
    | with_reducible apply Kept.ite
    | with_reducible split
    | split

theorem execBlackStartTimeLimit_frame (t : Time) (b : Batch) (s : State) {s2 : State} {mm : Nat} (hm : Sub 0x7ffffffffffc00000000000e124 mm) (he : execBlackStartTimeLimit t b s = .next s2) : Kept mm (State.begin t s) s2 := by
  unfold execBlackStartTimeLimit at he
  have h : Kept mm (State.begin t s) (State.begin t s) := Kept.refl _ _
  generalize State.begin t s = s0 at h he
  (try dsimp only at he)
  have he : _ = s2 := Host.Outcome.next.inj he
  subst he
  repeat' first
    | (intro x; refine Kept.bind (s0 := s0) (m := mm) (x := x) ?_ ?_; subst x; rotate_left; clear_value x; intro _)
    | (intro y; clear_value y)
    | intro _
    | with_reducible assumption
    | with_reducible lift_lets -underBinder
    | with_reducible apply State.blackLimit_kept hm
    | with_reducible apply Kept.ite
    | with_reducible split
    | split

theorem execBusDeclaredDead_frame (t : Time) (b : Batch) (s : State) {s2 : State} {mm : Nat} (hm : Sub 0x7ffffffff00000000000000e000 mm) (he : execBusDeclaredDead t b s = .next s2) : Kept mm (State.begin t s) s2 := by
  unfold execBusDeclaredDead at he
  have h : Kept mm (State.begin t s) (State.begin t s) := Kept.refl _ _
  generalize State.begin t s = s0 at h he
  (try dsimp only at he)
  have he : _ = s2 := Host.Outcome.next.inj he
  subst he
  repeat' first
    | (intro x; refine Kept.bind (s0 := s0) (m := mm) (x := x) ?_ ?_; subst x; rotate_left; clear_value x; intro _)
    | (intro y; clear_value y)
    | intro _
    | with_reducible assumption
    | with_reducible lift_lets -underBinder
    | with_reducible apply State.declareDead_kept hm
    | with_reducible apply Kept.ite
    | with_reducible split
    | split

theorem execStarterWindowTimeout_frame (t : Time) (b : Batch) (s : State) {s2 : State} {mm : Nat} (hm : Sub 0x7ffffffffffc00000000000e13c mm) (he : execStarterWindowTimeout t b s = .next s2) : Kept mm (State.begin t s) s2 := by
  unfold execStarterWindowTimeout at he
  have h : Kept mm (State.begin t s) (State.begin t s) := Kept.refl _ _
  generalize State.begin t s = s0 at h he
  (try dsimp only at he)
  have he : _ = s2 := Host.Outcome.next.inj he
  subst he
  repeat' first
    | (intro x; refine Kept.bind (s0 := s0) (m := mm) (x := x) ?_ ?_; subst x; rotate_left; clear_value x; intro _)
    | (intro y; clear_value y)
    | intro _
    | with_reducible assumption
    | with_reducible lift_lets -underBinder
    | with_reducible apply State.windowTimeout_kept hm
    | with_reducible apply Kept.ite
    | with_reducible split
    | split

theorem execStarterWaitLimit_frame (t : Time) (b : Batch) (s : State) {s2 : State} {mm : Nat} (hm : Sub 0x7ffffffffffc00000000000e13c mm) (he : execStarterWaitLimit t b s = .next s2) : Kept mm (State.begin t s) s2 := by
  unfold execStarterWaitLimit at he
  have h : Kept mm (State.begin t s) (State.begin t s) := Kept.refl _ _
  generalize State.begin t s = s0 at h he
  (try dsimp only at he)
  have he : _ = s2 := Host.Outcome.next.inj he
  subst he
  repeat' first
    | (intro x; refine Kept.bind (s0 := s0) (m := mm) (x := x) ?_ ?_; subst x; rotate_left; clear_value x; intro _)
    | (intro y; clear_value y)
    | intro _
    | with_reducible assumption
    | with_reducible lift_lets -underBinder
    | with_reducible apply State.waitLimit_kept hm
    | with_reducible apply Kept.ite
    | with_reducible split
    | split

theorem execSetpointWrite_frame (t : Time) (q : Req) (b : Batch) (i : Fin 4) (v : F32) (s : State) {s2 : State} {mm : Nat} (hm : Sub 0x7ffffffff00000000000002e03c mm) (he : execSetpointWrite t q b i v s = .next s2) : Kept mm (State.begin t s) s2 := by
  unfold execSetpointWrite at he
  have h : Kept mm (State.begin t s) (State.begin t s) := Kept.refl _ _
  generalize State.begin t s = s0 at h he
  (try dsimp only at he)
  have he : _ = s2 := Host.Outcome.next.inj he
  subst he
  have k0 : Sub 0x7fffffc0000000000000002e004 mm := Sub.trans (by decide) hm
  have k1 : Sub 0x7ffffffff00000000000000003c mm := Sub.trans (by decide) hm
  repeat' first
    | (intro x; refine Kept.bind (s0 := s0) (m := mm) (x := x) ?_ ?_; subst x; rotate_left; clear_value x; intro _)
    | (intro y; clear_value y)
    | intro _
    | with_reducible assumption
    | with_reducible lift_lets -underBinder
    | with_reducible apply State.hostWrite_kept k0
    | with_reducible apply (setpointEff_kept k1).all
    | with_reducible apply setpointEff_kept k1
    | with_reducible apply Kept.ite
    | with_reducible split
    | split

theorem execStagedApplication_frame (t : Time) (b : Batch) (s : State) {s2 : State} {mm : Nat} (hm : Sub 0x7ffffffff000000000000000024 mm) (he : execStagedApplication t b s = .next s2) : Kept mm (State.begin t s) s2 := by
  unfold execStagedApplication at he
  have h : Kept mm (State.begin t s) (State.begin t s) := Kept.refl _ _
  generalize State.begin t s = s0 at h he
  (try dsimp only at he)
  have he : _ = s2 := Host.Outcome.next.inj he
  subst he
  repeat' first
    | (intro x; refine Kept.bind (s0 := s0) (m := mm) (x := x) ?_ ?_; subst x; rotate_left; clear_value x; intro _)
    | (intro y; clear_value y)
    | intro _
    | with_reducible assumption
    | with_reducible lift_lets -underBinder
    | with_reducible apply State.applyStaged_kept hm
    | with_reducible apply Kept.ite
    | with_reducible split
    | split

theorem execSetpointWatchdog_frame (t : Time) (b : Batch) (s : State) {s2 : State} {mm : Nat} (hm : Sub 0x7ffffffff000000000000000020 mm) (he : execSetpointWatchdog t b s = .next s2) : Kept mm (State.begin t s) s2 := by
  unfold execSetpointWatchdog at he
  have h : Kept mm (State.begin t s) (State.begin t s) := Kept.refl _ _
  generalize State.begin t s = s0 at h he
  (try dsimp only at he)
  have he : _ = s2 := Host.Outcome.next.inj he
  subst he
  repeat' first
    | (intro x; refine Kept.bind (s0 := s0) (m := mm) (x := x) ?_ ?_; subst x; rotate_left; clear_value x; intro _)
    | (intro y; clear_value y)
    | intro _
    | with_reducible assumption
    | with_reducible lift_lets -underBinder
    | with_reducible apply State.spWatchdog_kept hm
    | with_reducible apply Kept.ite
    | with_reducible split
    | split

theorem execPccBreakerStatusWrite_frame (t : Time) (q : Req) (b : Batch) (v : Nat) (s : State) {s2 : State} {mm : Nat} (hm : Sub 0x7ffffffff00000000000002e004 mm) (he : execPccBreakerStatusWrite t q b v s = .next s2) : Kept mm (State.begin t s) s2 := by
  unfold execPccBreakerStatusWrite at he
  have h : Kept mm (State.begin t s) (State.begin t s) := Kept.refl _ _
  generalize State.begin t s = s0 at h he
  (try dsimp only at he)
  have he : _ = s2 := Host.Outcome.next.inj he
  subst he
  have k0 : Sub 0x7fffffc0000000000000002e004 mm := Sub.trans (by decide) hm
  have k1 : Sub 0x7ffffffff000000000000000004 mm := Sub.trans (by decide) hm
  repeat' first
    | (intro x; refine Kept.bind (s0 := s0) (m := mm) (x := x) ?_ ?_; subst x; rotate_left; clear_value x; intro _)
    | (intro y; clear_value y)
    | intro _
    | with_reducible assumption
    | with_reducible lift_lets -underBinder
    | with_reducible apply State.hostWrite_kept k0
    | with_reducible apply (breakerEff_kept k1).all
    | with_reducible apply breakerEff_kept k1
    | with_reducible apply Kept.ite
    | with_reducible split
    | split

theorem execBatchStart_frame (t : Time) (q : Req) (b : Batch) (s : State) {s2 : State} {mm : Nat} (hm : Sub 0x7ffffffff00000000000002e004 mm) (he : execBatchStart t q b s = .next s2) : Kept mm (State.begin t s) s2 := by
  unfold execBatchStart at he
  have h : Kept mm (State.begin t s) (State.begin t s) := Kept.refl _ _
  generalize State.begin t s = s0 at h he
  (try dsimp only at he)
  have he : _ = s2 := Host.Outcome.next.inj he
  subst he
  repeat' first
    | (intro x; refine Kept.bind (s0 := s0) (m := mm) (x := x) ?_ ?_; subst x; rotate_left; clear_value x; intro _)
    | (intro y; clear_value y)
    | intro _
    | with_reducible assumption
    | with_reducible lift_lets -underBinder
    | with_reducible apply State.command_kept hm
    | with_reducible apply Kept.ite
    | with_reducible split
    | split

theorem execBatchStop_frame (t : Time) (q : Req) (b : Batch) (s : State) {s2 : State} {mm : Nat} (hm : Sub 0x7ffffffff00000000000002e004 mm) (he : execBatchStop t q b s = .next s2) : Kept mm (State.begin t s) s2 := by
  unfold execBatchStop at he
  have h : Kept mm (State.begin t s) (State.begin t s) := Kept.refl _ _
  generalize State.begin t s = s0 at h he
  (try dsimp only at he)
  have he : _ = s2 := Host.Outcome.next.inj he
  subst he
  repeat' first
    | (intro x; refine Kept.bind (s0 := s0) (m := mm) (x := x) ?_ ?_; subst x; rotate_left; clear_value x; intro _)
    | (intro y; clear_value y)
    | intro _
    | with_reducible assumption
    | with_reducible lift_lets -underBinder
    | with_reducible apply State.command_kept hm
    | with_reducible apply Kept.ite
    | with_reducible split
    | split

theorem execBatchBlock_frame (t : Time) (q : Req) (b : Batch) (s : State) {s2 : State} {mm : Nat} (hm : Sub 0x7ffffffff00000000000002e004 mm) (he : execBatchBlock t q b s = .next s2) : Kept mm (State.begin t s) s2 := by
  unfold execBatchBlock at he
  have h : Kept mm (State.begin t s) (State.begin t s) := Kept.refl _ _
  generalize State.begin t s = s0 at h he
  (try dsimp only at he)
  have he : _ = s2 := Host.Outcome.next.inj he
  subst he
  repeat' first
    | (intro x; refine Kept.bind (s0 := s0) (m := mm) (x := x) ?_ ?_; subst x; rotate_left; clear_value x; intro _)
    | (intro y; clear_value y)
    | intro _
    | with_reducible assumption
    | with_reducible lift_lets -underBinder
    | with_reducible apply State.command_kept hm
    | with_reducible apply Kept.ite
    | with_reducible split
    | split

theorem execBatchRelease_frame (t : Time) (q : Req) (b : Batch) (s : State) {s2 : State} {mm : Nat} (hm : Sub 0x7ffffffff00000000000002e004 mm) (he : execBatchRelease t q b s = .next s2) : Kept mm (State.begin t s) s2 := by
  unfold execBatchRelease at he
  have h : Kept mm (State.begin t s) (State.begin t s) := Kept.refl _ _
  generalize State.begin t s = s0 at h he
  (try dsimp only at he)
  have he : _ = s2 := Host.Outcome.next.inj he
  subst he
  repeat' first
    | (intro x; refine Kept.bind (s0 := s0) (m := mm) (x := x) ?_ ?_; subst x; rotate_left; clear_value x; intro _)
    | (intro y; clear_value y)
    | intro _
    | with_reducible assumption
    | with_reducible lift_lets -underBinder
    | with_reducible apply State.command_kept hm
    | with_reducible apply Kept.ite
    | with_reducible split
    | split

theorem execFaultReset_frame (t : Time) (q : Req) (b : Batch) (s : State) {s2 : State} {mm : Nat} (hm : Sub 0x7ffffffff00000000000002e004 mm) (he : execFaultReset t q b s = .next s2) : Kept mm (State.begin t s) s2 := by
  unfold execFaultReset at he
  have h : Kept mm (State.begin t s) (State.begin t s) := Kept.refl _ _
  generalize State.begin t s = s0 at h he
  (try dsimp only at he)
  have he : _ = s2 := Host.Outcome.next.inj he
  subst he
  repeat' first
    | (intro x; refine Kept.bind (s0 := s0) (m := mm) (x := x) ?_ ?_; subst x; rotate_left; clear_value x; intro _)
    | (intro y; clear_value y)
    | intro _
    | with_reducible assumption
    | with_reducible lift_lets -underBinder
    | with_reducible apply State.command_kept hm
    | with_reducible apply Kept.ite
    | with_reducible split
    | split

theorem execIsland_frame (t : Time) (q : Req) (b : Batch) (s : State) {s2 : State} {mm : Nat} (hm : Sub 0x7ffffffff00000000000002e004 mm) (he : execIsland t q b s = .next s2) : Kept mm (State.begin t s) s2 := by
  unfold execIsland at he
  have h : Kept mm (State.begin t s) (State.begin t s) := Kept.refl _ _
  generalize State.begin t s = s0 at h he
  (try dsimp only at he)
  have he : _ = s2 := Host.Outcome.next.inj he
  subst he
  repeat' first
    | (intro x; refine Kept.bind (s0 := s0) (m := mm) (x := x) ?_ ?_; subst x; rotate_left; clear_value x; intro _)
    | (intro y; clear_value y)
    | intro _
    | with_reducible assumption
    | with_reducible lift_lets -underBinder
    | with_reducible apply State.command_kept hm
    | with_reducible apply Kept.ite
    | with_reducible split
    | split

theorem execResync_frame (t : Time) (q : Req) (b : Batch) (s : State) {s2 : State} {mm : Nat} (hm : Sub 0x7ffffffff00000000000002e004 mm) (he : execResync t q b s = .next s2) : Kept mm (State.begin t s) s2 := by
  unfold execResync at he
  have h : Kept mm (State.begin t s) (State.begin t s) := Kept.refl _ _
  generalize State.begin t s = s0 at h he
  (try dsimp only at he)
  have he : _ = s2 := Host.Outcome.next.inj he
  subst he
  repeat' first
    | (intro x; refine Kept.bind (s0 := s0) (m := mm) (x := x) ?_ ?_; subst x; rotate_left; clear_value x; intro _)
    | (intro y; clear_value y)
    | intro _
    | with_reducible assumption
    | with_reducible lift_lets -underBinder
    | with_reducible apply State.command_kept hm
    | with_reducible apply Kept.ite
    | with_reducible split
    | split

theorem execBlackStart_frame (t : Time) (q : Req) (b : Batch) (s : State) {s2 : State} {mm : Nat} (hm : Sub 0x7ffffffff00000000000002e004 mm) (he : execBlackStart t q b s = .next s2) : Kept mm (State.begin t s) s2 := by
  unfold execBlackStart at he
  have h : Kept mm (State.begin t s) (State.begin t s) := Kept.refl _ _
  generalize State.begin t s = s0 at h he
  (try dsimp only at he)
  have he : _ = s2 := Host.Outcome.next.inj he
  subst he
  repeat' first
    | (intro x; refine Kept.bind (s0 := s0) (m := mm) (x := x) ?_ ?_; subst x; rotate_left; clear_value x; intro _)
    | (intro y; clear_value y)
    | intro _
    | with_reducible assumption
    | with_reducible lift_lets -underBinder
    | with_reducible apply State.command_kept hm
    | with_reducible apply Kept.ite
    | with_reducible split
    | split

theorem execClearStatistics_frame (t : Time) (q : Req) (b : Batch) (s : State) {s2 : State} {mm : Nat} (hm : Sub 0x7ffffffff00000000000002e004 mm) (he : execClearStatistics t q b s = .next s2) : Kept mm (State.begin t s) s2 := by
  unfold execClearStatistics at he
  have h : Kept mm (State.begin t s) (State.begin t s) := Kept.refl _ _
  generalize State.begin t s = s0 at h he
  (try dsimp only at he)
  have he : _ = s2 := Host.Outcome.next.inj he
  subst he
  have k0 : Sub 0x7fffffc0000000000000002e004 mm := Sub.trans (by decide) hm
  have k1 : Sub 0x7ffffffff000000000000000004 mm := Sub.trans (by decide) hm
  repeat' first
    | (intro x; refine Kept.bind (s0 := s0) (m := mm) (x := x) ?_ ?_; subst x; rotate_left; clear_value x; intro _)
    | (intro y; clear_value y)
    | intro _
    | with_reducible assumption
    | with_reducible lift_lets -underBinder
    | with_reducible apply State.hostWrite_kept k0
    | with_reducible apply (clearStatsEff_kept k1).all
    | with_reducible apply clearStatsEff_kept k1
    | with_reducible apply Kept.ite
    | with_reducible split
    | split

theorem execCoastTimeLimit_frame (t : Time) (b : Batch) (s : State) {s2 : State} {mm : Nat} (hm : Sub 0x7ffff8000000000000000000024 mm) (he : execCoastTimeLimit t b s = .next s2) : Kept mm (State.begin t s) s2 := by
  unfold execCoastTimeLimit at he
  have h : Kept mm (State.begin t s) (State.begin t s) := Kept.refl _ _
  generalize State.begin t s = s0 at h he
  (try dsimp only at he)
  have he : _ = s2 := Host.Outcome.next.inj he
  subst he
  repeat' first
    | (intro x; refine Kept.bind (s0 := s0) (m := mm) (x := x) ?_ ?_; subst x; rotate_left; clear_value x; intro _)
    | (intro y; clear_value y)
    | intro _
    | with_reducible assumption
    | with_reducible lift_lets -underBinder
    | with_reducible apply State.coastLimit_kept hm
    | with_reducible apply Kept.ite
    | with_reducible split
    | split

theorem execGuardDelay_frame (t : Time) (b : Batch) (s : State) {s2 : State} {mm : Nat} (hm : Sub 0x7ffffffff000000000000000000 mm) (he : execGuardDelay t b s = .next s2) : Kept mm (State.begin t s) s2 := by
  unfold execGuardDelay at he
  have h : Kept mm (State.begin t s) (State.begin t s) := Kept.refl _ _
  generalize State.begin t s = s0 at h he
  (try dsimp only at he)
  have he : _ = s2 := Host.Outcome.next.inj he
  subst he
  repeat' first
    | (intro x; refine Kept.bind (s0 := s0) (m := mm) (x := x) ?_ ?_; subst x; rotate_left; clear_value x; intro _)
    | (intro y; clear_value y)
    | intro _
    | with_reducible assumption
    | with_reducible lift_lets -underBinder
    | with_reducible apply State.guard_kept hm
    | with_reducible apply Kept.ite
    | with_reducible split
    | split

theorem execMaximumLimitedTime_frame (t : Time) (b : Batch) (s : State) {s2 : State} {mm : Nat} (hm : Sub 0x7ffffffffffc00000000000e124 mm) (he : execMaximumLimitedTime t b s = .next s2) : Kept mm (State.begin t s) s2 := by
  unfold execMaximumLimitedTime at he
  have h : Kept mm (State.begin t s) (State.begin t s) := Kept.refl _ _
  generalize State.begin t s = s0 at h he
  (try dsimp only at he)
  have he : _ = s2 := Host.Outcome.next.inj he
  subst he
  have k0 : Sub 0x7fffffc00000000000000000004 mm := Sub.trans (by decide) hm
  repeat' first
    | (intro x; refine Kept.bind (s0 := s0) (m := mm) (x := x) ?_ ?_; subst x; rotate_left; clear_value x; intro _)
    | (intro y; clear_value y)
    | intro _
    | with_reducible assumption
    | with_reducible lift_lets -underBinder
    | with_reducible apply State.tooLong_kept k0
    | with_reducible apply State.faultReaction_kept hm
    | with_reducible apply Kept.ite
    | with_reducible split
    | split

theorem execEnvelopeWrite_frame (t : Time) (q : Req) (b : Batch) (e : Fin 4) (img : List Byte) (s : State) {s2 : State} {mm : Nat} (hm : Sub 0x7ffffffff00000000000002e006 mm) (he : execEnvelopeWrite t q b e img s = .next s2) : Kept mm (State.begin t s) s2 := by
  unfold execEnvelopeWrite at he
  have h : Kept mm (State.begin t s) (State.begin t s) := Kept.refl _ _
  generalize State.begin t s = s0 at h he
  (try dsimp only at he)
  have he : _ = s2 := Host.Outcome.next.inj he
  subst he
  have k0 : Sub 0x7fffffc0000000000000002e004 mm := Sub.trans (by decide) hm
  have k1 : Sub 0x7ffffffff000000000000000002 mm := Sub.trans (by decide) hm
  repeat' first
    | (intro x; refine Kept.bind (s0 := s0) (m := mm) (x := x) ?_ ?_; subst x; rotate_left; clear_value x; intro _)
    | (intro y; clear_value y)
    | intro _
    | with_reducible assumption
    | with_reducible lift_lets -underBinder
    | with_reducible apply State.hostBlob_kept k0
    | with_reducible apply (envelopeEff_kept k1).all
    | with_reducible apply envelopeEff_kept k1
    | with_reducible apply Kept.ite
    | with_reducible split
    | split

theorem execExcursionEnd_frame (t : Time) (b : Batch) (freq : Bool) (s : State) {s2 : State} {mm : Nat} (hm : Sub 0x7ffffffff000000000000000004 mm) (he : execExcursionEnd t b freq s = .next s2) : Kept mm (State.begin t s) s2 := by
  unfold execExcursionEnd at he
  have h : Kept mm (State.begin t s) (State.begin t s) := Kept.refl _ _
  generalize State.begin t s = s0 at h he
  (try dsimp only at he)
  have he : _ = s2 := Host.Outcome.next.inj he
  subst he
  repeat' first
    | (intro x; refine Kept.bind (s0 := s0) (m := mm) (x := x) ?_ ?_; subst x; rotate_left; clear_value x; intro _)
    | (intro y; clear_value y)
    | intro _
    | with_reducible assumption
    | with_reducible lift_lets -underBinder
    | with_reducible apply State.excursionEnd_kept hm
    | with_reducible apply Kept.ite
    | with_reducible split
    | split

theorem execWindowHeld_frame (t : Time) (b : Batch) (s : State) {s2 : State} {mm : Nat} (hm : Sub 0x7ffffffff000000000000000004 mm) (he : execWindowHeld t b s = .next s2) : Kept mm (State.begin t s) s2 := by
  unfold execWindowHeld at he
  have h : Kept mm (State.begin t s) (State.begin t s) := Kept.refl _ _
  generalize State.begin t s = s0 at h he
  (try dsimp only at he)
  have he : _ = s2 := Host.Outcome.next.inj he
  subst he
  repeat' first
    | (intro x; refine Kept.bind (s0 := s0) (m := mm) (x := x) ?_ ?_; subst x; rotate_left; clear_value x; intro _)
    | (intro y; clear_value y)
    | intro _
    | with_reducible assumption
    | with_reducible lift_lets -underBinder
    | with_reducible apply State.windowHeld_kept hm
    | with_reducible apply Kept.ite
    | with_reducible split
    | split

theorem execReferenceNotLive_frame (t : Time) (b : Batch) (s : State) {s2 : State} {mm : Nat} (hm : Sub 0x4 mm) (he : execReferenceNotLive t b s = .next s2) : Kept mm (State.begin t s) s2 := by
  unfold execReferenceNotLive at he
  have h : Kept mm (State.begin t s) (State.begin t s) := Kept.refl _ _
  generalize State.begin t s = s0 at h he
  (try dsimp only at he)
  have he : _ = s2 := Host.Outcome.next.inj he
  subst he
  repeat' first
    | (intro x; refine Kept.bind (s0 := s0) (m := mm) (x := x) ?_ ?_; subst x; rotate_left; clear_value x; intro _)
    | (intro y; clear_value y)
    | intro _
    | with_reducible assumption
    | with_reducible lift_lets -underBinder
    | with_reducible apply State.refNotLive_kept hm
    | with_reducible apply Kept.ite
    | with_reducible split
    | split

theorem execResyncTimeLimit_frame (t : Time) (b : Batch) (s : State) {s2 : State} {mm : Nat} (hm : Sub 0x4 mm) (he : execResyncTimeLimit t b s = .next s2) : Kept mm (State.begin t s) s2 := by
  unfold execResyncTimeLimit at he
  have h : Kept mm (State.begin t s) (State.begin t s) := Kept.refl _ _
  generalize State.begin t s = s0 at h he
  (try dsimp only at he)
  have he : _ = s2 := Host.Outcome.next.inj he
  subst he
  repeat' first
    | (intro x; refine Kept.bind (s0 := s0) (m := mm) (x := x) ?_ ?_; subst x; rotate_left; clear_value x; intro _)
    | (intro y; clear_value y)
    | intro _
    | with_reducible assumption
    | with_reducible lift_lets -underBinder
    | with_reducible apply State.resyncLimit_kept hm
    | with_reducible apply Kept.ite
    | with_reducible split
    | split

theorem execClosingTimeLimit_frame (t : Time) (b : Batch) (s : State) {s2 : State} {mm : Nat} (hm : Sub 0x4 mm) (he : execClosingTimeLimit t b s = .next s2) : Kept mm (State.begin t s) s2 := by
  unfold execClosingTimeLimit at he
  have h : Kept mm (State.begin t s) (State.begin t s) := Kept.refl _ _
  generalize State.begin t s = s0 at h he
  (try dsimp only at he)
  have he : _ = s2 := Host.Outcome.next.inj he
  subst he
  repeat' first
    | (intro x; refine Kept.bind (s0 := s0) (m := mm) (x := x) ?_ ?_; subst x; rotate_left; clear_value x; intro _)
    | (intro y; clear_value y)
    | intro _
    | with_reducible assumption
    | with_reducible lift_lets -underBinder
    | with_reducible apply State.closingLimit_kept hm
    | with_reducible apply Kept.ite
    | with_reducible split
    | split

theorem execAutomaticResync_frame (t : Time) (b : Batch) (s : State) {s2 : State} {mm : Nat} (hm : Sub 0x7ffffffffffc00000000000e124 mm) (he : execAutomaticResync t b s = .next s2) : Kept mm (State.begin t s) s2 := by
  unfold execAutomaticResync at he
  have h : Kept mm (State.begin t s) (State.begin t s) := Kept.refl _ _
  generalize State.begin t s = s0 at h he
  (try dsimp only at he)
  have he : _ = s2 := Host.Outcome.next.inj he
  subst he
  have k0 : Sub 0x0 mm := Sub.trans (by decide) hm
  repeat' first
    | (intro x; refine Kept.bind (s0 := s0) (m := mm) (x := x) ?_ ?_; subst x; rotate_left; clear_value x; intro _)
    | (intro y; clear_value y)
    | intro _
    | with_reducible assumption
    | with_reducible lift_lets -underBinder
    | with_reducible apply State.when_kept k0
    | with_reducible apply State.autoResync_kept hm
    | with_reducible apply Kept.ite
    | with_reducible split
    | split

theorem execUpFrameReceived_frame (t : Time) (k : LinkNo) (f : UpFrame) (s : State) {s2 : State} {mm : Nat} (hm : Sub 0x7fffffffffff00040000307e364 mm) (he : execUpFrameReceived t k f s = .next s2) : Kept mm (State.begin t s) s2 := by
  unfold execUpFrameReceived at he
  have h : Kept mm (State.begin t s) (State.begin t s) := Kept.refl _ _
  generalize State.begin t s = s0 at h he
  (try dsimp only at he)
  have he : _ = s2 := Host.Outcome.next.inj he
  subst he
  repeat' first
    | (intro x; refine Kept.bind (s0 := s0) (m := mm) (x := x) ?_ ?_; subst x; rotate_left; clear_value x; intro _)
    | (intro y; clear_value y)
    | intro _
    | with_reducible assumption
    | with_reducible lift_lets -underBinder
    | with_reducible apply State.upFrame_kept hm
    | with_reducible apply Kept.ite
    | with_reducible split
    | split

theorem execRequestTimeout_frame (t : Time) (k : LinkNo) (s : State) {s2 : State} {mm : Nat} (hm : Sub 0x7ffffffff800000000000028200 mm) (he : execRequestTimeout t k s = .next s2) : Kept mm (State.begin t s) s2 := by
  unfold execRequestTimeout at he
  have h : Kept mm (State.begin t s) (State.begin t s) := Kept.refl _ _
  generalize State.begin t s = s0 at h he
  (try dsimp only at he)
  have he : _ = s2 := Host.Outcome.next.inj he
  subst he
  repeat' first
    | (intro x; refine Kept.bind (s0 := s0) (m := mm) (x := x) ?_ ?_; subst x; rotate_left; clear_value x; intro _)
    | (intro y; clear_value y)
    | intro _
    | with_reducible assumption
    | with_reducible lift_lets -underBinder
    | with_reducible apply State.requestTimeout_kept hm
    | with_reducible apply Kept.ite
    | with_reducible split
    | split

theorem execEnumerate_frame (t : Time) (q : Req) (k : LinkNo) (found : LinkScan) (s : State) {s2 : State} {mm : Nat} (hm : Sub 0x7ffffffffc0000000000002e204 mm) (he : execEnumerate t q k found s = .next s2) : Kept mm (State.begin t s) s2 := by
  unfold execEnumerate at he
  have h : Kept mm (State.begin t s) (State.begin t s) := Kept.refl _ _
  generalize State.begin t s = s0 at h he
  (try dsimp only at he)
  have he : _ = s2 := Host.Outcome.next.inj he
  subst he
  have k0 : Sub 0x7fffffc0000000000000002e004 mm := Sub.trans (by decide) hm
  have k1 : Sub 0x7ffffffffc00000000000000200 mm := Sub.trans (by decide) hm
  repeat' first
    | (intro x; refine Kept.bind (s0 := s0) (m := mm) (x := x) ?_ ?_; subst x; rotate_left; clear_value x; intro _)
    | (intro y; clear_value y)
    | intro _
    | with_reducible assumption
    | with_reducible lift_lets -underBinder
    | with_reducible apply State.hostWrite_kept k0
    | with_reducible apply (enumerateEff_kept k1).all
    | with_reducible apply enumerateEff_kept k1
    | with_reducible apply Kept.ite
    | with_reducible split
    | split

theorem execSyncReturn_frame (t : Time) (k : LinkNo) (found : LinkScan) (s : State) {s2 : State} {mm : Nat} (hm : Sub 0x7ffffffffc00000000000000200 mm) (he : execSyncReturn t k found s = .next s2) : Kept mm (State.begin t s) s2 := by
  unfold execSyncReturn at he
  have h : Kept mm (State.begin t s) (State.begin t s) := Kept.refl _ _
  generalize State.begin t s = s0 at h he
  (try dsimp only at he)
  have he : _ = s2 := Host.Outcome.next.inj he
  subst he
  repeat' first
    | (intro x; refine Kept.bind (s0 := s0) (m := mm) (x := x) ?_ ?_; subst x; rotate_left; clear_value x; intro _)
    | (intro y; clear_value y)
    | intro _
    | with_reducible assumption
    | with_reducible lift_lets -underBinder
    | with_reducible apply State.syncReturn_kept hm
    | with_reducible apply Kept.ite
    | with_reducible split
    | split

theorem execLinkBreak_frame (t : Time) (k : LinkNo) (unreached : Nat) (s : State) {s2 : State} {mm : Nat} (hm : Sub 0x7ffffffff80000000000000e200 mm) (he : execLinkBreak t k unreached s = .next s2) : Kept mm (State.begin t s) s2 := by
  unfold execLinkBreak at he
  have h : Kept mm (State.begin t s) (State.begin t s) := Kept.refl _ _
  generalize State.begin t s = s0 at h he
  (try dsimp only at he)
  have he : _ = s2 := Host.Outcome.next.inj he
  subst he
  repeat' first
    | (intro x; refine Kept.bind (s0 := s0) (m := mm) (x := x) ?_ ?_; subst x; rotate_left; clear_value x; intro _)
    | (intro y; clear_value y)
    | intro _
    | with_reducible assumption
    | with_reducible lift_lets -underBinder
    | with_reducible apply State.linkBreak_kept hm
    | with_reducible apply Kept.ite
    | with_reducible split
    | split

theorem execNodeRegisterRead_frame (t : Time) (q : Req) (n : NodeNo) (s : State) {s2 : State} {mm : Nat} (hm : Sub 0x20200 mm) (he : execNodeRegisterRead t q n s = .next s2) : Kept mm (State.begin t s) s2 := by
  unfold execNodeRegisterRead at he
  have h : Kept mm (State.begin t s) (State.begin t s) := Kept.refl _ _
  generalize State.begin t s = s0 at h he
  (try dsimp only at he)
  have he : _ = s2 := Host.Outcome.next.inj he
  subst he
  have k0 : Sub 0x20000 mm := Sub.trans (by decide) hm
  have k1 : Sub 0x200 mm := Sub.trans (by decide) hm
  repeat' first
    | (intro x; refine Kept.bind (s0 := s0) (m := mm) (x := x) ?_ ?_; subst x; rotate_left; clear_value x; intro _)
    | (intro y; clear_value y)
    | intro _
    | with_reducible assumption
    | with_reducible lift_lets -underBinder
    | with_reducible apply State.hostGet_kept k0
    | with_reducible apply State.nodeRead_kept k1
    | with_reducible apply Kept.ite
    | with_reducible split
    | split

theorem execNodeRegisterWrite_frame (t : Time) (q : Req) (n : NodeNo) (v : Nat) (s : State) {s2 : State} {mm : Nat} (hm : Sub 0x7ffffffffc0000000000002e204 mm) (he : execNodeRegisterWrite t q n v s = .next s2) : Kept mm (State.begin t s) s2 := by
  unfold execNodeRegisterWrite at he
  have h : Kept mm (State.begin t s) (State.begin t s) := Kept.refl _ _
  generalize State.begin t s = s0 at h he
  (try dsimp only at he)
  have he : _ = s2 := Host.Outcome.next.inj he
  subst he
  have k0 : Sub 0x7fffffc0000000000000002e004 mm := Sub.trans (by decide) hm
  have k1 : Sub 0x7ffffffffc00000000000000200 mm := Sub.trans (by decide) hm
  repeat' first
    | (intro x; refine Kept.bind (s0 := s0) (m := mm) (x := x) ?_ ?_; subst x; rotate_left; clear_value x; intro _)
    | (intro y; clear_value y)
    | intro _
    | with_reducible assumption
    | with_reducible lift_lets -underBinder
    | with_reducible apply State.hostWrite_kept k0
    | with_reducible apply (nodeWriteEff_kept k1).all
    | with_reducible apply nodeWriteEff_kept k1
    | with_reducible apply Kept.ite
    | with_reducible split
    | split

theorem execClearFaults_frame (t : Time) (q : Req) (n : NodeNo) (s : State) {s2 : State} {mm : Nat} (hm : Sub 0x7fffffc0000000000000002e204 mm) (he : execClearFaults t q n s = .next s2) : Kept mm (State.begin t s) s2 := by
  unfold execClearFaults at he
  have h : Kept mm (State.begin t s) (State.begin t s) := Kept.refl _ _
  generalize State.begin t s = s0 at h he
  (try dsimp only at he)
  have he : _ = s2 := Host.Outcome.next.inj he
  subst he
  have k0 : Sub 0x7fffffc0000000000000002e004 mm := Sub.trans (by decide) hm
  have k1 : Sub 0x200 mm := Sub.trans (by decide) hm
  repeat' first
    | (intro x; refine Kept.bind (s0 := s0) (m := mm) (x := x) ?_ ?_; subst x; rotate_left; clear_value x; intro _)
    | (intro y; clear_value y)
    | intro _
    | with_reducible assumption
    | with_reducible lift_lets -underBinder
    | with_reducible apply State.hostWrite_kept k0
    | with_reducible apply (nodeClearEff_kept k1).all
    | with_reducible apply nodeClearEff_kept k1
    | with_reducible apply Kept.ite
    | with_reducible split
    | split

theorem execNodePowerOn_frame (t : Time) (n : NodeNo) (id : NodeId) (s : State) {s2 : State} {mm : Nat} (hm : Sub 0x200 mm) (he : execNodePowerOn t n id s = .next s2) : Kept mm (State.begin t s) s2 := by
  unfold execNodePowerOn at he
  have h : Kept mm (State.begin t s) (State.begin t s) := Kept.refl _ _
  generalize State.begin t s = s0 at h he
  (try dsimp only at he)
  have he : _ = s2 := Host.Outcome.next.inj he
  subst he
  repeat' first
    | (intro x; refine Kept.bind (s0 := s0) (m := mm) (x := x) ?_ ?_; subst x; rotate_left; clear_value x; intro _)
    | (intro y; clear_value y)
    | intro _
    | with_reducible assumption
    | with_reducible lift_lets -underBinder
    | with_reducible apply State.setNode_kept hm
    | with_reducible apply Kept.ite
    | with_reducible split
    | split
    | dsimp only [id_eq]

theorem execNodeControlByte_frame (t : Time) (n : NodeNo) (ctl : Byte) (epoch : Nat) (s : State) {s2 : State} {mm : Nat} (hm : Sub 0x200 mm) (he : execNodeControlByte t n ctl epoch s = .next s2) : Kept mm (State.begin t s) s2 := by
  unfold execNodeControlByte at he
  have h : Kept mm (State.begin t s) (State.begin t s) := Kept.refl _ _
  generalize State.begin t s = s0 at h he
  (try dsimp only at he)
  have he : _ = s2 := Host.Outcome.next.inj he
  subst he
  repeat' first
    | (intro x; refine Kept.bind (s0 := s0) (m := mm) (x := x) ?_ ?_; subst x; rotate_left; clear_value x; intro _)
    | (intro y; clear_value y)
    | intro _
    | with_reducible assumption
    | with_reducible lift_lets -underBinder
    | with_reducible apply State.nodeControl_kept hm
    | with_reducible apply Kept.ite
    | with_reducible split
    | split

theorem execNodeFrameReceived_frame (t : Time) (n : NodeNo) (f : NodeFrame) (s : State) {s2 : State} {mm : Nat} (hm : Sub 0x8200 mm) (he : execNodeFrameReceived t n f s = .next s2) : Kept mm (State.begin t s) s2 := by
  unfold execNodeFrameReceived at he
  have h : Kept mm (State.begin t s) (State.begin t s) := Kept.refl _ _
  generalize State.begin t s = s0 at h he
  (try dsimp only at he)
  have he : _ = s2 := Host.Outcome.next.inj he
  subst he
  repeat' first
    | (intro x; refine Kept.bind (s0 := s0) (m := mm) (x := x) ?_ ?_; subst x; rotate_left; clear_value x; intro _)
    | (intro y; clear_value y)
    | intro _
    | with_reducible assumption
    | with_reducible lift_lets -underBinder
    | with_reducible apply State.nodeFrame_kept hm
    | with_reducible apply Kept.ite
    | with_reducible split
    | split

theorem execNodeFrameUsable_frame (t : Time) (n : NodeNo) (s : State) {s2 : State} {mm : Nat} (hm : Sub 0x200 mm) (he : execNodeFrameUsable t n s = .next s2) : Kept mm (State.begin t s) s2 := by
  unfold execNodeFrameUsable at he
  have h : Kept mm (State.begin t s) (State.begin t s) := Kept.refl _ _
  generalize State.begin t s = s0 at h he
  (try dsimp only at he)
  have he : _ = s2 := Host.Outcome.next.inj he
  subst he
  repeat' first
    | (intro x; refine Kept.bind (s0 := s0) (m := mm) (x := x) ?_ ?_; subst x; rotate_left; clear_value x; intro _)
    | (intro y; clear_value y)
    | intro _
    | with_reducible assumption
    | with_reducible lift_lets -underBinder
    | with_reducible apply State.frameUsable_kept hm
    | with_reducible apply Kept.ite
    | with_reducible split
    | split

theorem execNodeEdge_frame (t : Time) (n : NodeNo) (s : State) {s2 : State} {mm : Nat} (hm : Sub 0x200 mm) (he : execNodeEdge t n s = .next s2) : Kept mm (State.begin t s) s2 := by
  unfold execNodeEdge at he
  have h : Kept mm (State.begin t s) (State.begin t s) := Kept.refl _ _
  generalize State.begin t s = s0 at h he
  (try dsimp only at he)
  have he : _ = s2 := Host.Outcome.next.inj he
  subst he
  repeat' first
    | (intro x; refine Kept.bind (s0 := s0) (m := mm) (x := x) ?_ ?_; subst x; rotate_left; clear_value x; intro _)
    | (intro y; clear_value y)
    | intro _
    | with_reducible assumption
    | with_reducible lift_lets -underBinder
    | with_reducible apply State.nodeEdge_kept hm
    | with_reducible apply Kept.ite
    | with_reducible split
    | split

theorem execNodeSample_frame (t : Time) (n : NodeNo) (v i : Code) (own : NodeSelf) (s : State) {s2 : State} {mm : Nat} (hm : Sub 0x200 mm) (he : execNodeSample t n v i own s = .next s2) : Kept mm (State.begin t s) s2 := by
  unfold execNodeSample at he
  have h : Kept mm (State.begin t s) (State.begin t s) := Kept.refl _ _
  generalize State.begin t s = s0 at h he
  (try dsimp only at he)
  have he : _ = s2 := Host.Outcome.next.inj he
  subst he
  repeat' first
    | (intro x; refine Kept.bind (s0 := s0) (m := mm) (x := x) ?_ ?_; subst x; rotate_left; clear_value x; intro _)
    | (intro y; clear_value y)
    | intro _
    | with_reducible assumption
    | with_reducible lift_lets -underBinder
    | with_reducible apply State.nodeSample_kept hm
    | with_reducible apply Kept.ite
    | with_reducible split
    | split

theorem execTurnNodeFrame_frame (t : Time) (n : NodeNo) (s : State) {s2 : State} {mm : Nat} (hm : Sub 0x200 mm) (he : execTurnNodeFrame t n s = .next s2) : Kept mm (State.begin t s) s2 := by
  unfold execTurnNodeFrame at he
  have h : Kept mm (State.begin t s) (State.begin t s) := Kept.refl _ _
  generalize State.begin t s = s0 at h he
  (try dsimp only at he)
  have he : _ = s2 := Host.Outcome.next.inj he
  subst he
  repeat' first
    | (intro x; refine Kept.bind (s0 := s0) (m := mm) (x := x) ?_ ?_; subst x; rotate_left; clear_value x; intro _)
    | (intro y; clear_value y)
    | intro _
    | with_reducible assumption
    | with_reducible lift_lets -underBinder
    | with_reducible apply State.turnFrame_kept hm
    | with_reducible apply Kept.ite
    | with_reducible split
    | split

theorem execMissedFramePeriod_frame (t : Time) (n : NodeNo) (s : State) {s2 : State} {mm : Nat} (hm : Sub 0x200 mm) (he : execMissedFramePeriod t n s = .next s2) : Kept mm (State.begin t s) s2 := by
  unfold execMissedFramePeriod at he
  have h : Kept mm (State.begin t s) (State.begin t s) := Kept.refl _ _
  generalize State.begin t s = s0 at h he
  (try dsimp only at he)
  have he : _ = s2 := Host.Outcome.next.inj he
  subst he
  repeat' first
    | (intro x; refine Kept.bind (s0 := s0) (m := mm) (x := x) ?_ ?_; subst x; rotate_left; clear_value x; intro _)
    | (intro y; clear_value y)
    | intro _
    | with_reducible assumption
    | with_reducible lift_lets -underBinder
    | with_reducible apply State.missedPeriod_kept hm
    | with_reducible apply Kept.ite
    | with_reducible split
    | split

theorem execNodeWatchdog_frame (t : Time) (n : NodeNo) (s : State) {s2 : State} {mm : Nat} (hm : Sub 0x200 mm) (he : execNodeWatchdog t n s = .next s2) : Kept mm (State.begin t s) s2 := by
  unfold execNodeWatchdog at he
  have h : Kept mm (State.begin t s) (State.begin t s) := Kept.refl _ _
  generalize State.begin t s = s0 at h he
  (try dsimp only at he)
  have he : _ = s2 := Host.Outcome.next.inj he
  subst he
  repeat' first
    | (intro x; refine Kept.bind (s0 := s0) (m := mm) (x := x) ?_ ?_; subst x; rotate_left; clear_value x; intro _)
    | (intro y; clear_value y)
    | intro _
    | with_reducible assumption
    | with_reducible lift_lets -underBinder
    | with_reducible apply State.nodeWatchdog_kept hm
    | with_reducible apply Kept.ite
    | with_reducible split
    | split

theorem execNodeShortCircuit_frame (t : Time) (n : NodeNo) (i : Fin 32) (undervoltage : Bool) (s : State) {s2 : State} {mm : Nat} (hm : Sub 0x200 mm) (he : execNodeShortCircuit t n i undervoltage s = .next s2) : Kept mm (State.begin t s) s2 := by
  unfold execNodeShortCircuit at he
  have h : Kept mm (State.begin t s) (State.begin t s) := Kept.refl _ _
  generalize State.begin t s = s0 at h he
  (try dsimp only at he)
  have he : _ = s2 := Host.Outcome.next.inj he
  subst he
  repeat' first
    | (intro x; refine Kept.bind (s0 := s0) (m := mm) (x := x) ?_ ?_; subst x; rotate_left; clear_value x; intro _)
    | (intro y; clear_value y)
    | intro _
    | with_reducible assumption
    | with_reducible lift_lets -underBinder
    | with_reducible apply State.nodeShort_kept hm
    | with_reducible apply Kept.ite
    | with_reducible split
    | split

theorem execTurnNodeChange_frame (t : Time) (n : NodeNo) (turn : Bool) (s : State) {s2 : State} {mm : Nat} (hm : Sub 0x7ffffffff80000000000000e200 mm) (he : execTurnNodeChange t n turn s = .next s2) : Kept mm (State.begin t s) s2 := by
  unfold execTurnNodeChange at he
  have h : Kept mm (State.begin t s) (State.begin t s) := Kept.refl _ _
  generalize State.begin t s = s0 at h he
  (try dsimp only at he)
  have he : _ = s2 := Host.Outcome.next.inj he
  subst he
  repeat' first
    | (intro x; refine Kept.bind (s0 := s0) (m := mm) (x := x) ?_ ?_; subst x; rotate_left; clear_value x; intro _)
    | (intro y; clear_value y)
    | intro _
    | with_reducible assumption
    | with_reducible lift_lets -underBinder
    | with_reducible apply State.turnChange_kept hm
    | with_reducible apply Kept.ite
    | with_reducible split
    | split

theorem execReadRegister_frame (t : Time) (n : NodeNo) (addr : Nat) (s : State) {s2 : State} {mm : Nat} (hm : Sub 0x200 mm) (he : execReadRegister t n addr s = .next s2) : Kept mm (State.begin t s) s2 := by
  unfold execReadRegister at he
  have h : Kept mm (State.begin t s) (State.begin t s) := Kept.refl _ _
  generalize State.begin t s = s0 at h he
  (try dsimp only at he)
  have he : _ = s2 := Host.Outcome.next.inj he
  subst he
  repeat' first
    | (intro x; refine Kept.bind (s0 := s0) (m := mm) (x := x) ?_ ?_; subst x; rotate_left; clear_value x; intro _)
    | (intro y; clear_value y)
    | intro _
    | with_reducible assumption
    | with_reducible lift_lets -underBinder
    | with_reducible apply State.readRegister_kept hm
    | with_reducible apply Kept.ite
    | with_reducible split
    | split

theorem execWriteRegister_frame (t : Time) (n : NodeNo) (addr data epoch : Nat) (s : State) {s2 : State} {mm : Nat} (hm : Sub 0x200 mm) (he : execWriteRegister t n addr data epoch s = .next s2) : Kept mm (State.begin t s) s2 := by
  unfold execWriteRegister at he
  have h : Kept mm (State.begin t s) (State.begin t s) := Kept.refl _ _
  generalize State.begin t s = s0 at h he
  (try dsimp only at he)
  have he : _ = s2 := Host.Outcome.next.inj he
  subst he
  repeat' first
    | (intro x; refine Kept.bind (s0 := s0) (m := mm) (x := x) ?_ ?_; subst x; rotate_left; clear_value x; intro _)
    | (intro y; clear_value y)
    | intro _
    | with_reducible assumption
    | with_reducible lift_lets -underBinder
    | with_reducible apply State.writeRegister_kept hm
    | with_reducible apply Kept.ite
    | with_reducible split
    | split

theorem execClearLatchedFaults_frame (t : Time) (n : NodeNo) (epoch standing : Nat) (s : State) {s2 : State} {mm : Nat} (hm : Sub 0x200 mm) (he : execClearLatchedFaults t n epoch standing s = .next s2) : Kept mm (State.begin t s) s2 := by
  unfold execClearLatchedFaults at he
  have h : Kept mm (State.begin t s) (State.begin t s) := Kept.refl _ _
  generalize State.begin t s = s0 at h he
  (try dsimp only at he)
  have he : _ = s2 := Host.Outcome.next.inj he
  subst he
  repeat' first
    | (intro x; refine Kept.bind (s0 := s0) (m := mm) (x := x) ?_ ?_; subst x; rotate_left; clear_value x; intro _)
    | (intro y; clear_value y)
    | intro _
    | with_reducible assumption
    | with_reducible lift_lets -underBinder
    | with_reducible apply State.nodeClear_kept hm
    | with_reducible apply Kept.ite
    | with_reducible split
    | split

theorem execEnumerateRequest_frame (t : Time) (n : NodeNo) (data : Nat) (s : State) {s2 : State} {mm : Nat} (hm : Sub 0x200 mm) (he : execEnumerateRequest t n data s = .next s2) : Kept mm (State.begin t s) s2 := by
  unfold execEnumerateRequest at he
  have h : Kept mm (State.begin t s) (State.begin t s) := Kept.refl _ _
  generalize State.begin t s = s0 at h he
  (try dsimp only at he)
  have he : _ = s2 := Host.Outcome.next.inj he
  subst he
  repeat' first
    | (intro x; refine Kept.bind (s0 := s0) (m := mm) (x := x) ?_ ?_; subst x; rotate_left; clear_value x; intro _)
    | (intro y; clear_value y)
    | intro _
    | with_reducible assumption
    | with_reducible lift_lets -underBinder
    | with_reducible apply State.enumerateRequest_kept hm
    | with_reducible apply Kept.ite
    | with_reducible split
    | split

theorem execDelayMeasurement_frame (t : Time) (n : NodeNo) (a b : Nat) (s : State) {s2 : State} {mm : Nat} (hm : Sub 0x200 mm) (he : execDelayMeasurement t n a b s = .next s2) : Kept mm (State.begin t s) s2 := by
  unfold execDelayMeasurement at he
  have h : Kept mm (State.begin t s) (State.begin t s) := Kept.refl _ _
  generalize State.begin t s = s0 at h he
  (try dsimp only at he)
  have he : _ = s2 := Host.Outcome.next.inj he
  subst he
  repeat' first
    | (intro x; refine Kept.bind (s0 := s0) (m := mm) (x := x) ?_ ?_; subst x; rotate_left; clear_value x; intro _)
    | (intro y; clear_value y)
    | intro _
    | with_reducible assumption
    | with_reducible lift_lets -underBinder
    | with_reducible apply State.delayMeasurement_kept hm
    | with_reducible apply Kept.ite
    | with_reducible split
    | split

theorem execRefclkQualified_frame (t : Time) (s : State) {s2 : State} {mm : Nat} (hm : Sub 0x7ffffffffffc00000080000f100 mm) (he : execRefclkQualified t s = .next s2) : Kept mm (State.begin t s) s2 := by
  unfold execRefclkQualified at he
  have h : Kept mm (State.begin t s) (State.begin t s) := Kept.refl _ _
  generalize State.begin t s = s0 at h he
  (try dsimp only at he)
  have he : _ = s2 := Host.Outcome.next.inj he
  subst he
  repeat' first
    | (intro x; refine Kept.bind (s0 := s0) (m := mm) (x := x) ?_ ?_; subst x; rotate_left; clear_value x; intro _)
    | (intro y; clear_value y)
    | intro _
    | with_reducible assumption
    | with_reducible lift_lets -underBinder
    | with_reducible apply State.qualify_kept hm
    | with_reducible apply Kept.ite
    | with_reducible split
    | split

theorem execRefclkDisqualified_frame (t : Time) (s : State) {s2 : State} {mm : Nat} (hm : Sub 0x7ffffffffffc00000080000f100 mm) (he : execRefclkDisqualified t s = .next s2) : Kept mm (State.begin t s) s2 := by
  unfold execRefclkDisqualified at he
  have h : Kept mm (State.begin t s) (State.begin t s) := Kept.refl _ _
  generalize State.begin t s = s0 at h he
  (try dsimp only at he)
  have he : _ = s2 := Host.Outcome.next.inj he
  subst he
  repeat' first
    | (intro x; refine Kept.bind (s0 := s0) (m := mm) (x := x) ?_ ?_; subst x; rotate_left; clear_value x; intro _)
    | (intro y; clear_value y)
    | intro _
    | with_reducible assumption
    | with_reducible lift_lets -underBinder
    | with_reducible apply State.disqualify_kept hm
    | with_reducible apply Kept.ite
    | with_reducible split
    | split

theorem execRefclkReselection_frame (t : Time) (s : State) {s2 : State} {mm : Nat} (hm : Sub 0x7ffffffffffc00000080000f100 mm) (he : execRefclkReselection t s = .next s2) : Kept mm (State.begin t s) s2 := by
  unfold execRefclkReselection at he
  have h : Kept mm (State.begin t s) (State.begin t s) := Kept.refl _ _
  generalize State.begin t s = s0 at h he
  (try dsimp only at he)
  have he : _ = s2 := Host.Outcome.next.inj he
  subst he
  repeat' first
    | (intro x; refine Kept.bind (s0 := s0) (m := mm) (x := x) ?_ ?_; subst x; rotate_left; clear_value x; intro _)
    | (intro y; clear_value y)
    | intro _
    | with_reducible assumption
    | with_reducible lift_lets -underBinder
    | with_reducible apply State.reselectRefclk_kept hm
    | with_reducible apply Kept.ite
    | with_reducible split
    | split

theorem execReferenceSelect_frame (t : Time) (q : Req) (v : Nat) (s : State) {s2 : State} {mm : Nat} (hm : Sub 0x7ffffffffffc00000080002f104 mm) (he : execReferenceSelect t q v s = .next s2) : Kept mm (State.begin t s) s2 := by
  unfold execReferenceSelect at he
  have h : Kept mm (State.begin t s) (State.begin t s) := Kept.refl _ _
  generalize State.begin t s = s0 at h he
  (try dsimp only at he)
  have he : _ = s2 := Host.Outcome.next.inj he
  subst he
  have k0 : Sub 0x7fffffc0000000000000002e004 mm := Sub.trans (by decide) hm
  have k1 : Sub 0x7ffffffffffc00000080000f100 mm := Sub.trans (by decide) hm
  repeat' first
    | (intro x; refine Kept.bind (s0 := s0) (m := mm) (x := x) ?_ ?_; subst x; rotate_left; clear_value x; intro _)
    | (intro y; clear_value y)
    | intro _
    | with_reducible assumption
    | with_reducible lift_lets -underBinder
    | with_reducible apply State.hostWrite_kept k0
    | with_reducible apply (referenceEff_kept k1).all
    | with_reducible apply referenceEff_kept k1
    | with_reducible apply Kept.ite
    | with_reducible split
    | split

theorem execPllUpdate_frame (t : Time) (s : State) {s2 : State} {mm : Nat} (hm : Sub 0x800000000 mm) (he : execPllUpdate t s = .next s2) : Kept mm (State.begin t s) s2 := by
  unfold execPllUpdate at he
  have h : Kept mm (State.begin t s) (State.begin t s) := Kept.refl _ _
  generalize State.begin t s = s0 at h he
  (try dsimp only at he)
  have he : _ = s2 := Host.Outcome.next.inj he
  subst he
  repeat' first
    | (intro x; refine Kept.bind (s0 := s0) (m := mm) (x := x) ?_ ?_; subst x; rotate_left; clear_value x; intro _)
    | (intro y; clear_value y)
    | intro _
    | with_reducible assumption
    | with_reducible lift_lets -underBinder
    | with_reducible apply State.pllUpdate_kept hm
    | with_reducible apply Kept.ite
    | with_reducible split
    | split

theorem execPllLock_frame (t : Time) (band : Fin 64) (s : State) {s2 : State} {mm : Nat} (hm : Sub 0x800001000 mm) (he : execPllLock t band s = .next s2) : Kept mm (State.begin t s) s2 := by
  unfold execPllLock at he
  have h : Kept mm (State.begin t s) (State.begin t s) := Kept.refl _ _
  generalize State.begin t s = s0 at h he
  (try dsimp only at he)
  have he : _ = s2 := Host.Outcome.next.inj he
  subst he
  repeat' first
    | (intro x; refine Kept.bind (s0 := s0) (m := mm) (x := x) ?_ ?_; subst x; rotate_left; clear_value x; intro _)
    | (intro y; clear_value y)
    | intro _
    | with_reducible assumption
    | with_reducible lift_lets -underBinder
    | with_reducible apply State.pllLock_kept hm
    | with_reducible apply Kept.ite
    | with_reducible split
    | split

theorem execFastHopTimeout_frame (t : Time) (s : State) {s2 : State} {mm : Nat} (hm : Sub 0x7fffffffffffffffff800000000 mm) (he : execFastHopTimeout t s = .next s2) : Kept mm (State.begin t s) s2 := by
  unfold execFastHopTimeout at he
  have h : Kept mm (State.begin t s) (State.begin t s) := Kept.refl _ _
  generalize State.begin t s = s0 at h he
  (try dsimp only at he)
  have he : _ = s2 := Host.Outcome.next.inj he
  subst he
  repeat' first
    | (intro x; refine Kept.bind (s0 := s0) (m := mm) (x := x) ?_ ?_; subst x; rotate_left; clear_value x; intro _)
    | (intro y; clear_value y)
    | intro _
    | with_reducible assumption
    | with_reducible lift_lets -underBinder
    | with_reducible apply State.hopTimeout_kept hm
    | with_reducible apply Kept.ite
    | with_reducible split
    | split

theorem execBandStore_frame (t : Time) (s : State) {s2 : State} {mm : Nat} (hm : Sub 0x7fffffffffffffffff800000000 mm) (he : execBandStore t s = .next s2) : Kept mm (State.begin t s) s2 := by
  unfold execBandStore at he
  have h : Kept mm (State.begin t s) (State.begin t s) := Kept.refl _ _
  generalize State.begin t s = s0 at h he
  (try dsimp only at he)
  have he : _ = s2 := Host.Outcome.next.inj he
  subst he
  repeat' first
    | (intro x; refine Kept.bind (s0 := s0) (m := mm) (x := x) ?_ ?_; subst x; rotate_left; clear_value x; intro _)
    | (intro y; clear_value y)
    | intro _
    | with_reducible assumption
    | with_reducible lift_lets -underBinder
    | with_reducible apply State.bandStore_kept hm
    | with_reducible apply Kept.ite
    | with_reducible split
    | split

theorem execClearStoredBands_frame (t : Time) (q : Req) (s : State) {s2 : State} {mm : Nat} (hm : Sub 0x7fffffc0000000000080002e004 mm) (he : execClearStoredBands t q s = .next s2) : Kept mm (State.begin t s) s2 := by
  unfold execClearStoredBands at he
  have h : Kept mm (State.begin t s) (State.begin t s) := Kept.refl _ _
  generalize State.begin t s = s0 at h he
  (try dsimp only at he)
  have he : _ = s2 := Host.Outcome.next.inj he
  subst he
  have k0 : Sub 0x7fffffc0000000000000002e004 mm := Sub.trans (by decide) hm
  have k1 : Sub 0x800000000 mm := Sub.trans (by decide) hm
  repeat' first
    | (intro x; refine Kept.bind (s0 := s0) (m := mm) (x := x) ?_ ?_; subst x; rotate_left; clear_value x; intro _)
    | (intro y; clear_value y)
    | intro _
    | with_reducible assumption
    | with_reducible lift_lets -underBinder
    | with_reducible apply State.hostWrite_kept k0
    | with_reducible apply (clearBandsEff_kept k1).all
    | with_reducible apply clearBandsEff_kept k1
    | with_reducible apply Kept.ite
    | with_reducible split
    | split

theorem execPllUnlocked_frame (t : Time) (s : State) {s2 : State} {mm : Nat} (hm : Sub 0x7ffffffffffc00000080000f100 mm) (he : execPllUnlocked t s = .next s2) : Kept mm (State.begin t s) s2 := by
  unfold execPllUnlocked at he
  have h : Kept mm (State.begin t s) (State.begin t s) := Kept.refl _ _
  generalize State.begin t s = s0 at h he
  (try dsimp only at he)
  have he : _ = s2 := Host.Outcome.next.inj he
  subst he
  repeat' first
    | (intro x; refine Kept.bind (s0 := s0) (m := mm) (x := x) ?_ ?_; subst x; rotate_left; clear_value x; intro _)
    | (intro y; clear_value y)
    | intro _
    | with_reducible assumption
    | with_reducible lift_lets -underBinder
    | with_reducible apply State.pllUnlocked_kept hm
    | with_reducible apply Kept.ite
    | with_reducible split
    | split

theorem execReferenceLost_frame (t : Time) (refclk : Bool) (s : State) {s2 : State} {mm : Nat} (hm : Sub 0x7ffffffffffc00000080000f100 mm) (he : execReferenceLost t refclk s = .next s2) : Kept mm (State.begin t s) s2 := by
  unfold execReferenceLost at he
  have h : Kept mm (State.begin t s) (State.begin t s) := Kept.refl _ _
  generalize State.begin t s = s0 at h he
  (try dsimp only at he)
  have he : _ = s2 := Host.Outcome.next.inj he
  subst he
  repeat' first
    | (intro x; refine Kept.bind (s0 := s0) (m := mm) (x := x) ?_ ?_; subst x; rotate_left; clear_value x; intro _)
    | (intro y; clear_value y)
    | intro _
    | with_reducible assumption
    | with_reducible lift_lets -underBinder
    | with_reducible apply State.referenceLost_kept hm
    | with_reducible apply Kept.ite
    | with_reducible split
    | split

theorem execReturnToPll_frame (t : Time) (s : State) {s2 : State} {mm : Nat} (hm : Sub 0x7ffffffffffc000000800000100 mm) (he : execReturnToPll t s = .next s2) : Kept mm (State.begin t s) s2 := by
  unfold execReturnToPll at he
  have h : Kept mm (State.begin t s) (State.begin t s) := Kept.refl _ _
  generalize State.begin t s = s0 at h he
  (try dsimp only at he)
  have he : _ = s2 := Host.Outcome.next.inj he
  subst he
  repeat' first
    | (intro x; refine Kept.bind (s0 := s0) (m := mm) (x := x) ?_ ?_; subst x; rotate_left; clear_value x; intro _)
    | (intro y; clear_value y)
    | intro _
    | with_reducible assumption
    | with_reducible lift_lets -underBinder
    | with_reducible apply State.returnToPll_kept hm
    | with_reducible apply Kept.ite
    | with_reducible split
    | split

theorem execBothReferencesLost_frame (t : Time) (s : State) {s2 : State} {mm : Nat} (hm : Sub 0x7ffffffffffc00000080000f100 mm) (he : execBothReferencesLost t s = .next s2) : Kept mm (State.begin t s) s2 := by
  unfold execBothReferencesLost at he
  have h : Kept mm (State.begin t s) (State.begin t s) := Kept.refl _ _
  generalize State.begin t s = s0 at h he
  (try dsimp only at he)
  have he : _ = s2 := Host.Outcome.next.inj he
  subst he
  repeat' first
    | (intro x; refine Kept.bind (s0 := s0) (m := mm) (x := x) ?_ ?_; subst x; rotate_left; clear_value x; intro _)
    | (intro y; clear_value y)
    | intro _
    | with_reducible assumption
    | with_reducible lift_lets -underBinder
    | with_reducible apply State.bothLost_kept hm
    | with_reducible apply Kept.ite
    | with_reducible split
    | split

theorem execRideWindowEnd_frame (t : Time) (s : State) {s2 : State} {mm : Nat} (hm : Sub 0x7ffffffffffc00000080000f124 mm) (he : execRideWindowEnd t s = .next s2) : Kept mm (State.begin t s) s2 := by
  unfold execRideWindowEnd at he
  have h : Kept mm (State.begin t s) (State.begin t s) := Kept.refl _ _
  generalize State.begin t s = s0 at h he
  (try dsimp only at he)
  have he : _ = s2 := Host.Outcome.next.inj he
  subst he
  repeat' first
    | (intro x; refine Kept.bind (s0 := s0) (m := mm) (x := x) ?_ ?_; subst x; rotate_left; clear_value x; intro _)
    | (intro y; clear_value y)
    | intro _
    | with_reducible assumption
    | with_reducible lift_lets -underBinder
    | with_reducible apply State.rideWindowEnd_kept hm
    | with_reducible apply Kept.ite
    | with_reducible split
    | split

theorem execReferenceReturn_frame (t : Time) (refclk : Bool) (s : State) {s2 : State} {mm : Nat} (hm : Sub 0x7ffffffffffc00000080000f100 mm) (he : execReferenceReturn t refclk s = .next s2) : Kept mm (State.begin t s) s2 := by
  unfold execReferenceReturn at he
  have h : Kept mm (State.begin t s) (State.begin t s) := Kept.refl _ _
  generalize State.begin t s = s0 at h he
  (try dsimp only at he)
  have he : _ = s2 := Host.Outcome.next.inj he
  subst he
  repeat' first
    | (intro x; refine Kept.bind (s0 := s0) (m := mm) (x := x) ?_ ?_; subst x; rotate_left; clear_value x; intro _)
    | (intro y; clear_value y)
    | intro _
    | with_reducible assumption
    | with_reducible lift_lets -underBinder
    | with_reducible apply State.referenceReturn_kept hm
    | with_reducible apply Kept.ite
    | with_reducible split
    | split

theorem execHousekeepingClockMeasurement_frame (t : Time) (err : Int) (s : State) {s2 : State} {mm : Nat} (hm : Sub 0x800001000 mm) (he : execHousekeepingClockMeasurement t err s = .next s2) : Kept mm (State.begin t s) s2 := by
  unfold execHousekeepingClockMeasurement at he
  have h : Kept mm (State.begin t s) (State.begin t s) := Kept.refl _ _
  generalize State.begin t s = s0 at h he
  (try dsimp only at he)
  have he : _ = s2 := Host.Outcome.next.inj he
  subst he
  repeat' first
    | (intro x; refine Kept.bind (s0 := s0) (m := mm) (x := x) ?_ ?_; subst x; rotate_left; clear_value x; intro _)
    | (intro y; clear_value y)
    | intro _
    | with_reducible assumption
    | with_reducible lift_lets -underBinder
    | with_reducible apply State.hkMeasure_kept hm
    | with_reducible apply Kept.ite
    | with_reducible split
    | split

theorem execTpoFiring_frame (t : Time) (k : TpoNo) (s : State) {s2 : State} {mm : Nat} (hm : Sub 0x7ffffffffffffffff000000f080 mm) (he : execTpoFiring t k s = .next s2) : Kept mm (State.begin t s) s2 := by
  unfold execTpoFiring at he
  have h : Kept mm (State.begin t s) (State.begin t s) := Kept.refl _ _
  generalize State.begin t s = s0 at h he
  (try dsimp only at he)
  have he : _ = s2 := Host.Outcome.next.inj he
  subst he
  repeat' first
    | (intro x; refine Kept.bind (s0 := s0) (m := mm) (x := x) ?_ ?_; subst x; rotate_left; clear_value x; intro _)
    | (intro y; clear_value y)
    | intro _
    | with_reducible assumption
    | with_reducible lift_lets -underBinder
    | with_reducible apply State.tpoFire_kept hm
    | with_reducible apply Kept.ite
    | with_reducible split
    | split

theorem execTpoWidthEnd_frame (t : Time) (k : TpoNo) (s : State) {s2 : State} {mm : Nat} (hm : Sub 0x1000 mm) (he : execTpoWidthEnd t k s = .next s2) : Kept mm (State.begin t s) s2 := by
  unfold execTpoWidthEnd at he
  have h : Kept mm (State.begin t s) (State.begin t s) := Kept.refl _ _
  generalize State.begin t s = s0 at h he
  (try dsimp only at he)
  have he : _ = s2 := Host.Outcome.next.inj he
  subst he
  repeat' first
    | (intro x; refine Kept.bind (s0 := s0) (m := mm) (x := x) ?_ ?_; subst x; rotate_left; clear_value x; intro _)
    | (intro y; clear_value y)
    | intro _
    | with_reducible assumption
    | with_reducible lift_lets -underBinder
    | with_reducible apply State.tpoEnd_kept hm
    | with_reducible apply Kept.ite
    | with_reducible split
    | split

theorem execArmTpo_frame (t : Time) (q : Req) (k : TpoNo) (s : State) {s2 : State} {mm : Nat} (hm : Sub 0x7ffffffffffffffff000002f084 mm) (he : execArmTpo t q k s = .next s2) : Kept mm (State.begin t s) s2 := by
  unfold execArmTpo at he
  have h : Kept mm (State.begin t s) (State.begin t s) := Kept.refl _ _
  generalize State.begin t s = s0 at h he
  (try dsimp only at he)
  have he : _ = s2 := Host.Outcome.next.inj he
  subst he
  have k0 : Sub 0x7fffffc0000000000000002e004 mm := Sub.trans (by decide) hm
  have k1 : Sub 0x7ffffffffffffffff000000f080 mm := Sub.trans (by decide) hm
  repeat' first
    | (intro x; refine Kept.bind (s0 := s0) (m := mm) (x := x) ?_ ?_; subst x; rotate_left; clear_value x; intro _)
    | (intro y; clear_value y)
    | intro _
    | with_reducible assumption
    | with_reducible lift_lets -underBinder
    | with_reducible apply State.hostWrite_kept k0
    | with_reducible apply (armTpoEff_kept k1).all
    | with_reducible apply armTpoEff_kept k1
    | with_reducible apply Kept.ite
    | with_reducible split
    | split

theorem execDisarmTpo_frame (t : Time) (q : Req) (k : TpoNo) (s : State) {s2 : State} {mm : Nat} (hm : Sub 0x7ffffffffffffffff000002f084 mm) (he : execDisarmTpo t q k s = .next s2) : Kept mm (State.begin t s) s2 := by
  unfold execDisarmTpo at he
  have h : Kept mm (State.begin t s) (State.begin t s) := Kept.refl _ _
  generalize State.begin t s = s0 at h he
  (try dsimp only at he)
  have he : _ = s2 := Host.Outcome.next.inj he
  subst he
  have k0 : Sub 0x7fffffc0000000000000002e004 mm := Sub.trans (by decide) hm
  have k1 : Sub 0x7ffffffffffffffff000000f080 mm := Sub.trans (by decide) hm
  repeat' first
    | (intro x; refine Kept.bind (s0 := s0) (m := mm) (x := x) ?_ ?_; subst x; rotate_left; clear_value x; intro _)
    | (intro y; clear_value y)
    | intro _
    | with_reducible assumption
    | with_reducible lift_lets -underBinder
    | with_reducible apply State.hostWrite_kept k0
    | with_reducible apply (disarmTpoEff_kept k1).all
    | with_reducible apply disarmTpoEff_kept k1
    | with_reducible apply Kept.ite
    | with_reducible split
    | split

theorem execPtpAnnounce_frame (t : Time) (portB : Bool) (m : AnnounceMsg) (s : State) {s2 : State} {mm : Nat} (hm : Sub 0x7ffffffffffffffffa000001000 mm) (he : execPtpAnnounce t portB m s = .next s2) : Kept mm (State.begin t s) s2 := by
  unfold execPtpAnnounce at he
  have h : Kept mm (State.begin t s) (State.begin t s) := Kept.refl _ _
  generalize State.begin t s = s0 at h he
  (try dsimp only at he)
  have he : _ = s2 := Host.Outcome.next.inj he
  subst he
  repeat' first
    | (intro x; refine Kept.bind (s0 := s0) (m := mm) (x := x) ?_ ?_; subst x; rotate_left; clear_value x; intro _)
    | (intro y; clear_value y)
    | intro _
    | with_reducible assumption
    | with_reducible lift_lets -underBinder
    | with_reducible apply State.ptpAnnounce_kept hm
    | with_reducible apply Kept.ite
    | with_reducible split
    | split

theorem execPtpPdelay_frame (t : Time) (portB : Bool) (m : PdelayMsg) (s : State) {s2 : State} {mm : Nat} (hm : Sub 0x7ffffffffffffffffa000001000 mm) (he : execPtpPdelay t portB m s = .next s2) : Kept mm (State.begin t s) s2 := by
  unfold execPtpPdelay at he
  have h : Kept mm (State.begin t s) (State.begin t s) := Kept.refl _ _
  generalize State.begin t s = s0 at h he
  (try dsimp only at he)
  have he : _ = s2 := Host.Outcome.next.inj he
  subst he
  repeat' first
    | (intro x; refine Kept.bind (s0 := s0) (m := mm) (x := x) ?_ ?_; subst x; rotate_left; clear_value x; intro _)
    | (intro y; clear_value y)
    | intro _
    | with_reducible assumption
    | with_reducible lift_lets -underBinder
    | with_reducible apply State.ptpPdelay_kept hm
    | with_reducible apply Kept.ite
    | with_reducible split
    | split

theorem execDelayResp_frame (t : Time) (m : DelayRespMsg) (s : State) {s2 : State} {mm : Nat} (hm : Sub 0x2000001000 mm) (he : execDelayResp t m s = .next s2) : Kept mm (State.begin t s) s2 := by
  unfold execDelayResp at he
  have h : Kept mm (State.begin t s) (State.begin t s) := Kept.refl _ _
  generalize State.begin t s = s0 at h he
  (try dsimp only at he)
  have he : _ = s2 := Host.Outcome.next.inj he
  subst he
  repeat' first
    | (intro x; refine Kept.bind (s0 := s0) (m := mm) (x := x) ?_ ?_; subst x; rotate_left; clear_value x; intro _)
    | (intro y; clear_value y)
    | intro _
    | with_reducible assumption
    | with_reducible lift_lets -underBinder
    | with_reducible apply State.delayResp_kept hm
    | with_reducible apply Kept.ite
    | with_reducible split
    | split

theorem execPtpTransmit_frame (t : Time) (portB : Bool) (kind : PtpKind) (s : State) {s2 : State} {mm : Nat} (hm : Sub 0x80000 mm) (he : execPtpTransmit t portB kind s = .next s2) : Kept mm (State.begin t s) s2 := by
  unfold execPtpTransmit at he
  have h : Kept mm (State.begin t s) (State.begin t s) := Kept.refl _ _
  generalize State.begin t s = s0 at h he
  (try dsimp only at he)
  have he : _ = s2 := Host.Outcome.next.inj he
  subst he
  repeat' first
    | (intro x; refine Kept.bind (s0 := s0) (m := mm) (x := x) ?_ ?_; subst x; rotate_left; clear_value x; intro _)
    | (intro y; clear_value y)
    | intro _
    | with_reducible assumption
    | with_reducible lift_lets -underBinder
    | with_reducible apply State.ptpTransmit_kept hm
    | with_reducible apply Kept.ite
    | with_reducible split
    | split

theorem execAnnounceReceiptTimeout_frame (t : Time) (portB : Bool) (s : State) {s2 : State} {mm : Nat} (hm : Sub 0x7ffffffffffffffffa000001000 mm) (he : execAnnounceReceiptTimeout t portB s = .next s2) : Kept mm (State.begin t s) s2 := by
  unfold execAnnounceReceiptTimeout at he
  have h : Kept mm (State.begin t s) (State.begin t s) := Kept.refl _ _
  generalize State.begin t s = s0 at h he
  (try dsimp only at he)
  have he : _ = s2 := Host.Outcome.next.inj he
  subst he
  repeat' first
    | (intro x; refine Kept.bind (s0 := s0) (m := mm) (x := x) ?_ ?_; subst x; rotate_left; clear_value x; intro _)
    | (intro y; clear_value y)
    | intro _
    | with_reducible assumption
    | with_reducible lift_lets -underBinder
    | with_reducible apply State.announceLost_kept hm
    | with_reducible apply Kept.ite
    | with_reducible split
    | split

theorem execPtpSync_frame (t : Time) (portB : Bool) (m : SyncMsg) (s : State) {s2 : State} {mm : Nat} (hm : Sub 0x7ffffffffffffffffa80008f280 mm) (he : execPtpSync t portB m s = .next s2) : Kept mm (State.begin t s) s2 := by
  unfold execPtpSync at he
  have h : Kept mm (State.begin t s) (State.begin t s) := Kept.refl _ _
  generalize State.begin t s = s0 at h he
  (try dsimp only at he)
  have he : _ = s2 := Host.Outcome.next.inj he
  subst he
  repeat' first
    | (intro x; refine Kept.bind (s0 := s0) (m := mm) (x := x) ?_ ?_; subst x; rotate_left; clear_value x; intro _)
    | (intro y; clear_value y)
    | intro _
    | with_reducible assumption
    | with_reducible lift_lets -underBinder
    | with_reducible apply State.ptpSync_kept hm
    | with_reducible apply Kept.ite
    | with_reducible split
    | split

theorem execQualityLocked_frame (t : Time) (s : State) {s2 : State} {mm : Nat} (hm : Sub 0x2000000000 mm) (he : execQualityLocked t s = .next s2) : Kept mm (State.begin t s) s2 := by
  unfold execQualityLocked at he
  have h : Kept mm (State.begin t s) (State.begin t s) := Kept.refl _ _
  generalize State.begin t s = s0 at h he
  (try dsimp only at he)
  have he : _ = s2 := Host.Outcome.next.inj he
  subst he
  repeat' first
    | (intro x; refine Kept.bind (s0 := s0) (m := mm) (x := x) ?_ ?_; subst x; rotate_left; clear_value x; intro _)
    | (intro y; clear_value y)
    | intro _
    | with_reducible assumption
    | with_reducible lift_lets -underBinder
    | with_reducible apply State.qualityLocked_kept hm
    | with_reducible apply Kept.ite
    | with_reducible split
    | split

theorem execAuthoriseStep_frame (t : Time) (q : Req) (s : State) {s2 : State} {mm : Nat} (hm : Sub 0x7ffffffffffffffff20000af284 mm) (he : execAuthoriseStep t q s = .next s2) : Kept mm (State.begin t s) s2 := by
  unfold execAuthoriseStep at he
  have h : Kept mm (State.begin t s) (State.begin t s) := Kept.refl _ _
  generalize State.begin t s = s0 at h he
  (try dsimp only at he)
  have he : _ = s2 := Host.Outcome.next.inj he
  subst he
  have k0 : Sub 0x7fffffc0000000000000002e004 mm := Sub.trans (by decide) hm
  have k1 : Sub 0x7ffffffffffffffff200008f280 mm := Sub.trans (by decide) hm
  repeat' first
    | (intro x; refine Kept.bind (s0 := s0) (m := mm) (x := x) ?_ ?_; subst x; rotate_left; clear_value x; intro _)
    | (intro y; clear_value y)
    | intro _
    | with_reducible assumption
    | with_reducible lift_lets -underBinder
    | with_reducible apply State.hostWrite_kept k0
    | with_reducible apply (authoriseEff_kept k1).all
    | with_reducible apply authoriseEff_kept k1
    | with_reducible apply Kept.ite
    | with_reducible split
    | split

theorem execConfirm_frame (t : Time) (q : Req) (s : State) {s2 : State} {mm : Nat} (hm : Sub 0x7fffffffffffffffe000003e004 mm) (he : execConfirm t q s = .next s2) : Kept mm (State.begin t s) s2 := by
  unfold execConfirm at he
  have h : Kept mm (State.begin t s) (State.begin t s) := Kept.refl _ _
  generalize State.begin t s = s0 at h he
  (try dsimp only at he)
  have he : _ = s2 := Host.Outcome.next.inj he
  subst he
  have k0 : Sub 0x7fffffc0000000000000002e004 mm := Sub.trans (by decide) hm
  have k1 : Sub 0x7fffffffffffffffe000001e000 mm := Sub.trans (by decide) hm
  repeat' first
    | (intro x; refine Kept.bind (s0 := s0) (m := mm) (x := x) ?_ ?_; subst x; rotate_left; clear_value x; intro _)
    | (intro y; clear_value y)
    | intro _
    | with_reducible assumption
    | with_reducible lift_lets -underBinder
    | with_reducible apply State.hostWrite_kept k0
    | with_reducible apply (confirmEff_kept k1).all
    | with_reducible apply confirmEff_kept k1
    | with_reducible apply Kept.ite
    | with_reducible split
    | split

theorem execFirmwareUpdateComplete_frame (t : Time) (writeOk : Bool) (s : State) {s2 : State} {mm : Nat} (hm : Sub 0x7ffffffffffffc000000402e000 mm) (he : execFirmwareUpdateComplete t writeOk s = .next s2) : Kept mm (State.begin t s) s2 := by
  unfold execFirmwareUpdateComplete at he
  have h : Kept mm (State.begin t s) (State.begin t s) := Kept.refl _ _
  generalize State.begin t s = s0 at h he
  (try dsimp only at he)
  have he : _ = s2 := Host.Outcome.next.inj he
  subst he
  repeat' first
    | (intro x; refine Kept.bind (s0 := s0) (m := mm) (x := x) ?_ ?_; subst x; rotate_left; clear_value x; intro _)
    | (intro y; clear_value y)
    | intro _
    | with_reducible assumption
    | with_reducible lift_lets -underBinder
    | with_reducible apply State.updateComplete_kept hm
    | with_reducible apply Kept.ite
    | with_reducible split
    | split

theorem execIslandSelfTestEnd_frame (t : Time) (pass : Bool) (s : State) {s2 : State} {mm : Nat} (hm : Sub 0x7ffffffff00000040000000e800 mm) (he : execIslandSelfTestEnd t pass s = .next s2) : Kept mm (State.begin t s) s2 := by
  unfold execIslandSelfTestEnd at he
  have h : Kept mm (State.begin t s) (State.begin t s) := Kept.refl _ _
  generalize State.begin t s = s0 at h he
  (try dsimp only at he)
  have he : _ = s2 := Host.Outcome.next.inj he
  subst he
  repeat' first
    | (intro x; refine Kept.bind (s0 := s0) (m := mm) (x := x) ?_ ?_; subst x; rotate_left; clear_value x; intro _)
    | (intro y; clear_value y)
    | intro _
    | with_reducible assumption
    | with_reducible lift_lets -underBinder
    | with_reducible apply State.islandSelfTestEnd_kept hm
    | with_reducible apply Kept.ite
    | with_reducible split
    | split

theorem execIslandOscillatorCheck_frame (t : Time) (dev : Int) (s : State) {s2 : State} {mm : Nat} (hm : Sub 0x7ffffffff00000040000000e800 mm) (he : execIslandOscillatorCheck t dev s = .next s2) : Kept mm (State.begin t s) s2 := by
  unfold execIslandOscillatorCheck at he
  have h : Kept mm (State.begin t s) (State.begin t s) := Kept.refl _ _
  generalize State.begin t s = s0 at h he
  (try dsimp only at he)
  have he : _ = s2 := Host.Outcome.next.inj he
  subst he
  repeat' first
    | (intro x; refine Kept.bind (s0 := s0) (m := mm) (x := x) ?_ ?_; subst x; rotate_left; clear_value x; intro _)
    | (intro y; clear_value y)
    | intro _
    | with_reducible assumption
    | with_reducible lift_lets -underBinder
    | with_reducible apply State.oscillatorCheck_kept hm
    | with_reducible apply Kept.ite
    | with_reducible split
    | split

theorem execIslandSelfCheck_frame (t : Time) (pass : Bool) (s : State) {s2 : State} {mm : Nat} (hm : Sub 0x7ffffffff00000040000000e800 mm) (he : execIslandSelfCheck t pass s = .next s2) : Kept mm (State.begin t s) s2 := by
  unfold execIslandSelfCheck at he
  have h : Kept mm (State.begin t s) (State.begin t s) := Kept.refl _ _
  generalize State.begin t s = s0 at h he
  (try dsimp only at he)
  have he : _ = s2 := Host.Outcome.next.inj he
  subst he
  have k0 : Sub 0x0 mm := Sub.trans (by decide) hm
  repeat' first
    | (intro x; refine Kept.bind (s0 := s0) (m := mm) (x := x) ?_ ?_; subst x; rotate_left; clear_value x; intro _)
    | (intro y; clear_value y)
    | intro _
    | with_reducible assumption
    | with_reducible lift_lets -underBinder
    | with_reducible apply State.when_kept k0
    | with_reducible apply State.islandFault_kept hm
    | with_reducible apply Kept.ite
    | with_reducible split
    | split

theorem execLockstepMismatch_frame (t : Time) (s : State) {s2 : State} {mm : Nat} (hm : Sub 0x7ffffffff00000040000000e800 mm) (he : execLockstepMismatch t s = .next s2) : Kept mm (State.begin t s) s2 := by
  unfold execLockstepMismatch at he
  have h : Kept mm (State.begin t s) (State.begin t s) := Kept.refl _ _
  generalize State.begin t s = s0 at h he
  (try dsimp only at he)
  have he : _ = s2 := Host.Outcome.next.inj he
  subst he
  repeat' first
    | (intro x; refine Kept.bind (s0 := s0) (m := mm) (x := x) ?_ ?_; subst x; rotate_left; clear_value x; intro _)
    | (intro y; clear_value y)
    | intro _
    | with_reducible assumption
    | with_reducible lift_lets -underBinder
    | with_reducible apply State.islandFault_kept hm
    | with_reducible apply Kept.ite
    | with_reducible split
    | split

theorem execPd7SupplyLow_frame (t : Time) (s : State) {s2 : State} {mm : Nat} (hm : Sub 0x7ffffffff00000040000000e800 mm) (he : execPd7SupplyLow t s = .next s2) : Kept mm (State.begin t s) s2 := by
  unfold execPd7SupplyLow at he
  have h : Kept mm (State.begin t s) (State.begin t s) := Kept.refl _ _
  generalize State.begin t s = s0 at h he
  (try dsimp only at he)
  have he : _ = s2 := Host.Outcome.next.inj he
  subst he
  repeat' first
    | (intro x; refine Kept.bind (s0 := s0) (m := mm) (x := x) ?_ ?_; subst x; rotate_left; clear_value x; intro _)
    | (intro y; clear_value y)
    | intro _
    | with_reducible assumption
    | with_reducible lift_lets -underBinder
    | with_reducible apply State.pd7Low_kept hm
    | with_reducible apply Kept.ite
    | with_reducible split
    | split

theorem execIslandSample_frame (t : Time) (x0 x1 x2 x3 : Code) (s : State) {s2 : State} {mm : Nat} (hm : Sub 0x800 mm) (he : execIslandSample t x0 x1 x2 x3 s = .next s2) : Kept mm (State.begin t s) s2 := by
  unfold execIslandSample at he
  have h : Kept mm (State.begin t s) (State.begin t s) := Kept.refl _ _
  generalize State.begin t s = s0 at h he
  (try dsimp only at he)
  have he : _ = s2 := Host.Outcome.next.inj he
  subst he
  repeat' first
    | (intro x; refine Kept.bind (s0 := s0) (m := mm) (x := x) ?_ ?_; subst x; rotate_left; clear_value x; intro _)
    | (intro y; clear_value y)
    | intro _
    | with_reducible assumption
    | with_reducible lift_lets -underBinder
    | with_reducible apply State.islandSample_kept hm
    | with_reducible apply Kept.ite
    | with_reducible split
    | split

theorem execMeanUpdate_frame (t : Time) (i : StageNo) (s : State) {s2 : State} {mm : Nat} (hm : Sub 0x7ffffffff00000040000000e800 mm) (he : execMeanUpdate t i s = .next s2) : Kept mm (State.begin t s) s2 := by
  unfold execMeanUpdate at he
  have h : Kept mm (State.begin t s) (State.begin t s) := Kept.refl _ _
  generalize State.begin t s = s0 at h he
  (try dsimp only at he)
  have he : _ = s2 := Host.Outcome.next.inj he
  subst he
  repeat' first
    | (intro x; refine Kept.bind (s0 := s0) (m := mm) (x := x) ?_ ?_; subst x; rotate_left; clear_value x; intro _)
    | (intro y; clear_value y)
    | intro _
    | with_reducible assumption
    | with_reducible lift_lets -underBinder
    | with_reducible apply State.meanUpdate_kept hm
    | with_reducible apply Kept.ite
    | with_reducible split
    | split

theorem execStageTrip_frame (t : Time) (i : StageNo) (s : State) {s2 : State} {mm : Nat} (hm : Sub 0x7ffffffff00000040000000e800 mm) (he : execStageTrip t i s = .next s2) : Kept mm (State.begin t s) s2 := by
  unfold execStageTrip at he
  have h : Kept mm (State.begin t s) (State.begin t s) := Kept.refl _ _
  generalize State.begin t s = s0 at h he
  (try dsimp only at he)
  have he : _ = s2 := Host.Outcome.next.inj he
  subst he
  repeat' first
    | (intro x; refine Kept.bind (s0 := s0) (m := mm) (x := x) ?_ ?_; subst x; rotate_left; clear_value x; intro _)
    | (intro y; clear_value y)
    | intro _
    | with_reducible assumption
    | with_reducible lift_lets -underBinder
    | with_reducible apply State.stageTrip_kept hm
    | with_reducible apply Kept.ite
    | with_reducible split
    | split

theorem execCrossCheckGrace_frame (t : Time) (second : Bool) (s : State) {s2 : State} {mm : Nat} (hm : Sub 0x7ffffffff00000040000000e800 mm) (he : execCrossCheckGrace t second s = .next s2) : Kept mm (State.begin t s) s2 := by
  unfold execCrossCheckGrace at he
  have h : Kept mm (State.begin t s) (State.begin t s) := Kept.refl _ _
  generalize State.begin t s = s0 at h he
  (try dsimp only at he)
  have he : _ = s2 := Host.Outcome.next.inj he
  subst he
  repeat' first
    | (intro x; refine Kept.bind (s0 := s0) (m := mm) (x := x) ?_ ?_; subst x; rotate_left; clear_value x; intro _)
    | (intro y; clear_value y)
    | intro _
    | with_reducible assumption
    | with_reducible lift_lets -underBinder
    | with_reducible apply State.crossGrace_kept hm
    | with_reducible apply Kept.ite
    | with_reducible split
    | split

theorem execRmsUpdate_frame (t : Time) (s : State) {s2 : State} {mm : Nat} (hm : Sub 0x7ffffffff00000040000000e880 mm) (he : execRmsUpdate t s = .next s2) : Kept mm (State.begin t s) s2 := by
  unfold execRmsUpdate at he
  have h : Kept mm (State.begin t s) (State.begin t s) := Kept.refl _ _
  generalize State.begin t s = s0 at h he
  (try dsimp only at he)
  have he : _ = s2 := Host.Outcome.next.inj he
  subst he
  repeat' first
    | (intro x; refine Kept.bind (s0 := s0) (m := mm) (x := x) ?_ ?_; subst x; rotate_left; clear_value x; intro _)
    | (intro y; clear_value y)
    | intro _
    | with_reducible assumption
    | with_reducible lift_lets -underBinder
    | with_reducible apply State.rmsUpdate_kept hm
    | with_reducible apply Kept.ite
    | with_reducible split
    | split

theorem execDeadToTheIsland_frame (t : Time) (s : State) {s2 : State} {mm : Nat} (hm : Sub 0x7ffffffff00000040000000e800 mm) (he : execDeadToTheIsland t s = .next s2) : Kept mm (State.begin t s) s2 := by
  unfold execDeadToTheIsland at he
  have h : Kept mm (State.begin t s) (State.begin t s) := Kept.refl _ _
  generalize State.begin t s = s0 at h he
  (try dsimp only at he)
  have he : _ = s2 := Host.Outcome.next.inj he
  subst he
  repeat' first
    | (intro x; refine Kept.bind (s0 := s0) (m := mm) (x := x) ?_ ?_; subst x; rotate_left; clear_value x; intro _)
    | (intro y; clear_value y)
    | intro _
    | with_reducible assumption
    | with_reducible lift_lets -underBinder
    | with_reducible apply State.deadToIsland_kept hm
    | with_reducible apply Kept.ite
    | with_reducible split
    | split

theorem execObservationComplete_frame (t : Time) (s : State) {s2 : State} {mm : Nat} (hm : Sub 0x7ffffffff00000040000000e800 mm) (he : execObservationComplete t s = .next s2) : Kept mm (State.begin t s) s2 := by
  unfold execObservationComplete at he
  have h : Kept mm (State.begin t s) (State.begin t s) := Kept.refl _ _
  generalize State.begin t s = s0 at h he
  (try dsimp only at he)
  have he : _ = s2 := Host.Outcome.next.inj he
  subst he
  repeat' first
    | (intro x; refine Kept.bind (s0 := s0) (m := mm) (x := x) ?_ ?_; subst x; rotate_left; clear_value x; intro _)
    | (intro y; clear_value y)
    | intro _
    | with_reducible assumption
    | with_reducible lift_lets -underBinder
    | with_reducible apply State.observationDone_kept hm
    | with_reducible apply Kept.ite
    | with_reducible split
    | split

theorem execIslandCycle_frame (t : Time) (rb : List Readback) (s : State) {s2 : State} {mm : Nat} (hm : Sub 0x7ffffffff00000040000002e800 mm) (he : execIslandCycle t rb s = .next s2) : Kept mm (State.begin t s) s2 := by
  unfold execIslandCycle at he
  have h : Kept mm (State.begin t s) (State.begin t s) := Kept.refl _ _
  generalize State.begin t s = s0 at h he
  (try dsimp only at he)
  have he : _ = s2 := Host.Outcome.next.inj he
  subst he
  repeat' first
    | (intro x; refine Kept.bind (s0 := s0) (m := mm) (x := x) ?_ ?_; subst x; rotate_left; clear_value x; intro _)
    | (intro y; clear_value y)
    | intro _
    | with_reducible assumption
    | with_reducible lift_lets -underBinder
    | with_reducible apply State.islandCycle_kept hm
    | with_reducible apply Kept.ite
    | with_reducible split
    | split

theorem execSafeStopN_frame (t : Time) (k : Fin 2) (low : Bool) (s : State) {s2 : State} {mm : Nat} (hm : Sub 0x7ffffffff00000040000000e800 mm) (he : execSafeStopN t k low s = .next s2) : Kept mm (State.begin t s) s2 := by
  unfold execSafeStopN at he
  have h : Kept mm (State.begin t s) (State.begin t s) := Kept.refl _ _
  generalize State.begin t s = s0 at h he
  (try dsimp only at he)
  have he : _ = s2 := Host.Outcome.next.inj he
  subst he
  have k0 : Sub 0x7fffd000000000000000000e000 mm := Sub.trans (by decide) hm
  repeat' first
    | (intro x; refine Kept.bind (s0 := s0) (m := mm) (x := x) ?_ ?_; subst x; rotate_left; clear_value x; intro _)
    | (intro y; clear_value y)
    | intro _
    | with_reducible assumption
    | with_reducible lift_lets -underBinder
    | with_reducible apply State.safeStop_kept hm
    | with_reducible apply State.inputEdge_kept k0
    | with_reducible apply Kept.ite
    | with_reducible split
    | split

theorem execHostOpen_frame (t : Time) (q : Req) (n : CircuitNo) (s : State) {s2 : State} {mm : Nat} (hm : Sub 0x7ffffffff00000040000002e804 mm) (he : execHostOpen t q n s = .next s2) : Kept mm (State.begin t s) s2 := by
  unfold execHostOpen at he
  have h : Kept mm (State.begin t s) (State.begin t s) := Kept.refl _ _
  generalize State.begin t s = s0 at h he
  (try dsimp only at he)
  have he : _ = s2 := Host.Outcome.next.inj he
  subst he
  have k0 : Sub 0x7fffffc0000000000000002e004 mm := Sub.trans (by decide) hm
  have k1 : Sub 0x7ffffffff00000040000000e800 mm := Sub.trans (by decide) hm
  repeat' first
    | (intro x; refine Kept.bind (s0 := s0) (m := mm) (x := x) ?_ ?_; subst x; rotate_left; clear_value x; intro _)
    | (intro y; clear_value y)
    | intro _
    | with_reducible assumption
    | with_reducible lift_lets -underBinder
    | with_reducible apply State.hostWrite_kept k0
    | with_reducible apply (hostOpenEff_kept k1).all
    | with_reducible apply hostOpenEff_kept k1
    | with_reducible apply Kept.ite
    | with_reducible split
    | split

theorem execHostClose_frame (t : Time) (q : Req) (n : CircuitNo) (s : State) {s2 : State} {mm : Nat} (hm : Sub 0x7fffffc0000000040000002e804 mm) (he : execHostClose t q n s = .next s2) : Kept mm (State.begin t s) s2 := by
  unfold execHostClose at he
  have h : Kept mm (State.begin t s) (State.begin t s) := Kept.refl _ _
  generalize State.begin t s = s0 at h he
  (try dsimp only at he)
  have he : _ = s2 := Host.Outcome.next.inj he
  subst he
  have k0 : Sub 0x7fffffc0000000000000002e004 mm := Sub.trans (by decide) hm
  have k1 : Sub 0x7e1000000000000400000000800 mm := Sub.trans (by decide) hm
  repeat' first
    | (intro x; refine Kept.bind (s0 := s0) (m := mm) (x := x) ?_ ?_; subst x; rotate_left; clear_value x; intro _)
    | (intro y; clear_value y)
    | intro _
    | with_reducible assumption
    | with_reducible lift_lets -underBinder
    | with_reducible apply State.hostWrite_kept k0
    | with_reducible apply (hostCloseEff_kept k1).all
    | with_reducible apply hostCloseEff_kept k1
    | with_reducible apply Kept.ite
    | with_reducible split
    | split

theorem execAcknowledge_frame (t : Time) (q : Req) (n : CircuitNo) (s : State) {s2 : State} {mm : Nat} (hm : Sub 0x7fffffc0000000000000002e804 mm) (he : execAcknowledge t q n s = .next s2) : Kept mm (State.begin t s) s2 := by
  unfold execAcknowledge at he
  have h : Kept mm (State.begin t s) (State.begin t s) := Kept.refl _ _
  generalize State.begin t s = s0 at h he
  (try dsimp only at he)
  have he : _ = s2 := Host.Outcome.next.inj he
  subst he
  have k0 : Sub 0x7fffffc0000000000000002e004 mm := Sub.trans (by decide) hm
  have k1 : Sub 0x800 mm := Sub.trans (by decide) hm
  repeat' first
    | (intro x; refine Kept.bind (s0 := s0) (m := mm) (x := x) ?_ ?_; subst x; rotate_left; clear_value x; intro _)
    | (intro y; clear_value y)
    | intro _
    | with_reducible assumption
    | with_reducible lift_lets -underBinder
    | with_reducible apply State.hostWrite_kept k0
    | with_reducible apply (ackEff_kept k1).all
    | with_reducible apply ackEff_kept k1
    | with_reducible apply Kept.ite
    | with_reducible split
    | split

theorem execContactFeedbackClosed_frame (t : Time) (n : CircuitNo) (s : State) {s2 : State} {mm : Nat} (hm : Sub 0x7ffffffff00000040000000e800 mm) (he : execContactFeedbackClosed t n s = .next s2) : Kept mm (State.begin t s) s2 := by
  unfold execContactFeedbackClosed at he
  have h : Kept mm (State.begin t s) (State.begin t s) := Kept.refl _ _
  generalize State.begin t s = s0 at h he
  (try dsimp only at he)
  have he : _ = s2 := Host.Outcome.next.inj he
  subst he
  repeat' first
    | (intro x; refine Kept.bind (s0 := s0) (m := mm) (x := x) ?_ ?_; subst x; rotate_left; clear_value x; intro _)
    | (intro y; clear_value y)
    | intro _
    | with_reducible assumption
    | with_reducible lift_lets -underBinder
    | with_reducible apply State.feedbackClosed_kept hm
    | with_reducible apply Kept.ite
    | with_reducible split
    | split

theorem execClosingTime_frame (t : Time) (n : CircuitNo) (s : State) {s2 : State} {mm : Nat} (hm : Sub 0x7ffffffff00000040000000e800 mm) (he : execClosingTime t n s = .next s2) : Kept mm (State.begin t s) s2 := by
  unfold execClosingTime at he
  have h : Kept mm (State.begin t s) (State.begin t s) := Kept.refl _ _
  generalize State.begin t s = s0 at h he
  (try dsimp only at he)
  have he : _ = s2 := Host.Outcome.next.inj he
  subst he
  repeat' first
    | (intro x; refine Kept.bind (s0 := s0) (m := mm) (x := x) ?_ ?_; subst x; rotate_left; clear_value x; intro _)
    | (intro y; clear_value y)
    | intro _
    | with_reducible assumption
    | with_reducible lift_lets -underBinder
    | with_reducible apply State.closingTimeUp_kept hm
    | with_reducible apply Kept.ite
    | with_reducible split
    | split

theorem execCoilOvercurrent_frame (t : Time) (n : CircuitNo) (ma : Nat) (s : State) {s2 : State} {mm : Nat} (hm : Sub 0x7ffffffff00000040000000e800 mm) (he : execCoilOvercurrent t n ma s = .next s2) : Kept mm (State.begin t s) s2 := by
  unfold execCoilOvercurrent at he
  have h : Kept mm (State.begin t s) (State.begin t s) := Kept.refl _ _
  generalize State.begin t s = s0 at h he
  (try dsimp only at he)
  have he : _ = s2 := Host.Outcome.next.inj he
  subst he
  repeat' first
    | (intro x; refine Kept.bind (s0 := s0) (m := mm) (x := x) ?_ ?_; subst x; rotate_left; clear_value x; intro _)
    | (intro y; clear_value y)
    | intro _
    | with_reducible assumption
    | with_reducible lift_lets -underBinder
    | with_reducible apply State.coilOver_kept hm
    | with_reducible apply Kept.ite
    | with_reducible split
    | split

theorem execReadbackMismatch_frame (t : Time) (n : CircuitNo) (r : NodeVolts) (s : State) {s2 : State} {mm : Nat} (hm : Sub 0x7ffffffff00000040000000e800 mm) (he : execReadbackMismatch t n r s = .next s2) : Kept mm (State.begin t s) s2 := by
  unfold execReadbackMismatch at he
  have h : Kept mm (State.begin t s) (State.begin t s) := Kept.refl _ _
  generalize State.begin t s = s0 at h he
  (try dsimp only at he)
  have he : _ = s2 := Host.Outcome.next.inj he
  subst he
  repeat' first
    | (intro x; refine Kept.bind (s0 := s0) (m := mm) (x := x) ?_ ?_; subst x; rotate_left; clear_value x; intro _)
    | (intro y; clear_value y)
    | intro _
    | with_reducible assumption
    | with_reducible lift_lets -underBinder
    | with_reducible apply State.mismatch_kept hm
    | with_reducible apply Kept.ite
    | with_reducible split
    | split

theorem execDarkPulse_frame (t : Time) (n : CircuitNo) (low : Bool) (s : State) {s2 : State} {mm : Nat} (hm : Sub 0x800 mm) (he : execDarkPulse t n low s = .next s2) : Kept mm (State.begin t s) s2 := by
  unfold execDarkPulse at he
  have h : Kept mm (State.begin t s) (State.begin t s) := Kept.refl _ _
  generalize State.begin t s = s0 at h he
  (try dsimp only at he)
  have he : _ = s2 := Host.Outcome.next.inj he
  subst he
  repeat' first
    | (intro x; refine Kept.bind (s0 := s0) (m := mm) (x := x) ?_ ?_; subst x; rotate_left; clear_value x; intro _)
    | (intro y; clear_value y)
    | intro _
    | with_reducible assumption
    | with_reducible lift_lets -underBinder
    | with_reducible apply State.darkPulse_kept hm
    | with_reducible apply Kept.ite
    | with_reducible split
    | split

theorem execBrightPulse_frame (t : Time) (n : CircuitNo) (low : Bool) (s : State) {s2 : State} {mm : Nat} (hm : Sub 0x800 mm) (he : execBrightPulse t n low s = .next s2) : Kept mm (State.begin t s) s2 := by
  unfold execBrightPulse at he
  have h : Kept mm (State.begin t s) (State.begin t s) := Kept.refl _ _
  generalize State.begin t s = s0 at h he
  (try dsimp only at he)
  have he : _ = s2 := Host.Outcome.next.inj he
  subst he
  repeat' first
    | (intro x; refine Kept.bind (s0 := s0) (m := mm) (x := x) ?_ ?_; subst x; rotate_left; clear_value x; intro _)
    | (intro y; clear_value y)
    | intro _
    | with_reducible assumption
    | with_reducible lift_lets -underBinder
    | with_reducible apply State.brightPulse_kept hm
    | with_reducible apply Kept.ite
    | with_reducible split
    | split

theorem execPulseRetry_frame (t : Time) (n : CircuitNo) (low : Bool) (s : State) {s2 : State} {mm : Nat} (hm : Sub 0x800 mm) (he : execPulseRetry t n low s = .next s2) : Kept mm (State.begin t s) s2 := by
  unfold execPulseRetry at he
  have h : Kept mm (State.begin t s) (State.begin t s) := Kept.refl _ _
  generalize State.begin t s = s0 at h he
  (try dsimp only at he)
  have he : _ = s2 := Host.Outcome.next.inj he
  subst he
  repeat' first
    | (intro x; refine Kept.bind (s0 := s0) (m := mm) (x := x) ?_ ?_; subst x; rotate_left; clear_value x; intro _)
    | (intro y; clear_value y)
    | intro _
    | with_reducible assumption
    | with_reducible lift_lets -underBinder
    | with_reducible apply State.pulseRetry_kept hm
    | with_reducible apply Kept.ite
    | with_reducible split
    | split

theorem execLockIslandSettings_frame (t : Time) (q : Req) (s : State) {s2 : State} {mm : Nat} (hm : Sub 0x7ffffffff00000240000002e804 mm) (he : execLockIslandSettings t q s = .next s2) : Kept mm (State.begin t s) s2 := by
  unfold execLockIslandSettings at he
  have h : Kept mm (State.begin t s) (State.begin t s) := Kept.refl _ _
  generalize State.begin t s = s0 at h he
  (try dsimp only at he)
  have he : _ = s2 := Host.Outcome.next.inj he
  subst he
  have k0 : Sub 0x7fffffc0000000000000002e004 mm := Sub.trans (by decide) hm
  have k1 : Sub 0x7ffffffff00000240000000e800 mm := Sub.trans (by decide) hm
  repeat' first
    | (intro x; refine Kept.bind (s0 := s0) (m := mm) (x := x) ?_ ?_; subst x; rotate_left; clear_value x; intro _)
    | (intro y; clear_value y)
    | intro _
    | with_reducible assumption
    | with_reducible lift_lets -underBinder
    | with_reducible apply State.hostWrite_kept k0
    | with_reducible apply (islandLockEff_kept k1).all
    | with_reducible apply islandLockEff_kept k1
    | with_reducible apply Kept.ite
    | with_reducible split
    | split

theorem execLockInterfaceProtectionSettings_frame (t : Time) (q : Req) (s : State) {s2 : State} {mm : Nat} (hm : Sub 0x7ffffffff00000240000002e804 mm) (he : execLockInterfaceProtectionSettings t q s = .next s2) : Kept mm (State.begin t s) s2 := by
  unfold execLockInterfaceProtectionSettings at he
  have h : Kept mm (State.begin t s) (State.begin t s) := Kept.refl _ _
  generalize State.begin t s = s0 at h he
  (try dsimp only at he)
  have he : _ = s2 := Host.Outcome.next.inj he
  subst he
  have k0 : Sub 0x7fffffc0000000000000002e004 mm := Sub.trans (by decide) hm
  have k1 : Sub 0x7ffffffff00000240000000e800 mm := Sub.trans (by decide) hm
  repeat' first
    | (intro x; refine Kept.bind (s0 := s0) (m := mm) (x := x) ?_ ?_; subst x; rotate_left; clear_value x; intro _)
    | (intro y; clear_value y)
    | intro _
    | with_reducible assumption
    | with_reducible lift_lets -underBinder
    | with_reducible apply State.hostWrite_kept k0
    | with_reducible apply (islandLockEff_kept k1).all
    | with_reducible apply islandLockEff_kept k1
    | with_reducible apply Kept.ite
    | with_reducible split
    | split

theorem execSafetyTelegram_frame (t : Time) (portB : Bool) (bytes : List Byte) (s : State) {s2 : State} {mm : Nat} (hm : Sub 0x7ffffffff00000040000000e800 mm) (he : execSafetyTelegram t portB bytes s = .next s2) : Kept mm (State.begin t s) s2 := by
  unfold execSafetyTelegram at he
  have h : Kept mm (State.begin t s) (State.begin t s) := Kept.refl _ _
  generalize State.begin t s = s0 at h he
  (try dsimp only at he)
  have he : _ = s2 := Host.Outcome.next.inj he
  subst he
  repeat' first
    | (intro x; refine Kept.bind (s0 := s0) (m := mm) (x := x) ?_ ?_; subst x; rotate_left; clear_value x; intro _)
    | (intro y; clear_value y)
    | intro _
    | with_reducible assumption
    | with_reducible lift_lets -underBinder
    | with_reducible apply State.telegram_kept hm
    | with_reducible apply Kept.ite
    | with_reducible split
    | split

theorem execNoPartner_frame (t : Time) (s : State) {s2 : State} {mm : Nat} (hm : Sub 0x700000000000000000000000800 mm) (he : execNoPartner t s = .next s2) : Kept mm (State.begin t s) s2 := by
  unfold execNoPartner at he
  have h : Kept mm (State.begin t s) (State.begin t s) := Kept.refl _ _
  generalize State.begin t s = s0 at h he
  (try dsimp only at he)
  have he : _ = s2 := Host.Outcome.next.inj he
  subst he
  repeat' first
    | (intro x; refine Kept.bind (s0 := s0) (m := mm) (x := x) ?_ ?_; subst x; rotate_left; clear_value x; intro _)
    | (intro y; clear_value y)
    | intro _
    | with_reducible assumption
    | with_reducible lift_lets -underBinder
    | with_reducible apply State.noPartner_kept hm
    | with_reducible apply Kept.ite
    | with_reducible split
    | split

theorem execTelegramWatchdog_frame (t : Time) (s : State) {s2 : State} {mm : Nat} (hm : Sub 0x7ffffffff00000040000000e800 mm) (he : execTelegramWatchdog t s = .next s2) : Kept mm (State.begin t s) s2 := by
  unfold execTelegramWatchdog at he
  have h : Kept mm (State.begin t s) (State.begin t s) := Kept.refl _ _
  generalize State.begin t s = s0 at h he
  (try dsimp only at he)
  have he : _ = s2 := Host.Outcome.next.inj he
  subst he
  repeat' first
    | (intro x; refine Kept.bind (s0 := s0) (m := mm) (x := x) ?_ ?_; subst x; rotate_left; clear_value x; intro _)
    | (intro y; clear_value y)
    | intro _
    | with_reducible assumption
    | with_reducible lift_lets -underBinder
    | with_reducible apply State.teleWatchdog_kept hm
    | with_reducible apply Kept.ite
    | with_reducible split
    | split

theorem execStatusTelegram_frame (t : Time) (s : State) {s2 : State} {mm : Nat} (hm : Sub 0x7fffd000000000000000000e800 mm) (he : execStatusTelegram t s = .next s2) : Kept mm (State.begin t s) s2 := by
  unfold execStatusTelegram at he
  have h : Kept mm (State.begin t s) (State.begin t s) := Kept.refl _ _
  generalize State.begin t s = s0 at h he
  (try dsimp only at he)
  have he : _ = s2 := Host.Outcome.next.inj he
  subst he
  repeat' first
    | (intro x; refine Kept.bind (s0 := s0) (m := mm) (x := x) ?_ ?_; subst x; rotate_left; clear_value x; intro _)
    | (intro y; clear_value y)
    | intro _
    | with_reducible assumption
    | with_reducible lift_lets -underBinder
    | with_reducible apply State.statusTelegram_kept hm
    | with_reducible apply Kept.ite
    | with_reducible split
    | split

theorem execStandalone_frame (t : Time) (s : State) {s2 : State} {mm : Nat} (hm : Sub 0x80000000000 mm) (he : execStandalone t s = .next s2) : Kept mm (State.begin t s) s2 := by
  unfold execStandalone at he
  have h : Kept mm (State.begin t s) (State.begin t s) := Kept.refl _ _
  generalize State.begin t s = s0 at h he
  (try dsimp only at he)
  have he : _ = s2 := Host.Outcome.next.inj he
  subst he
  repeat' first
    | (intro x; refine Kept.bind (s0 := s0) (m := mm) (x := x) ?_ ?_; subst x; rotate_left; clear_value x; intro _)
    | (intro y; clear_value y)
    | intro _
    | with_reducible assumption
    | with_reducible lift_lets -underBinder
    | with_reducible apply State.standalone_kept hm
    | with_reducible apply Kept.ite
    | with_reducible split
    | split

theorem execHeartbeatSend_frame (t : Time) (s : State) {s2 : State} {mm : Nat} (hm : Sub 0x400000008000 mm) (he : execHeartbeatSend t s = .next s2) : Kept mm (State.begin t s) s2 := by
  unfold execHeartbeatSend at he
  have h : Kept mm (State.begin t s) (State.begin t s) := Kept.refl _ _
  generalize State.begin t s = s0 at h he
  (try dsimp only at he)
  have he : _ = s2 := Host.Outcome.next.inj he
  subst he
  repeat' first
    | (intro x; refine Kept.bind (s0 := s0) (m := mm) (x := x) ?_ ?_; subst x; rotate_left; clear_value x; intro _)
    | (intro y; clear_value y)
    | intro _
    | with_reducible assumption
    | with_reducible lift_lets -underBinder
    | with_reducible apply State.heartbeatSend_kept hm
    | with_reducible apply Kept.ite
    | with_reducible split
    | split

theorem execHeartbeatMissed_frame (t : Time) (slot : RackSlot) (s : State) {s2 : State} {mm : Nat} (hm : Sub 0x7ffffffffffffff48000000e000 mm) (he : execHeartbeatMissed t slot s = .next s2) : Kept mm (State.begin t s) s2 := by
  unfold execHeartbeatMissed at he
  have h : Kept mm (State.begin t s) (State.begin t s) := Kept.refl _ _
  generalize State.begin t s = s0 at h he
  (try dsimp only at he)
  have he : _ = s2 := Host.Outcome.next.inj he
  subst he
  repeat' first
    | (intro x; refine Kept.bind (s0 := s0) (m := mm) (x := x) ?_ ?_; subst x; rotate_left; clear_value x; intro _)
    | (intro y; clear_value y)
    | intro _
    | with_reducible assumption
    | with_reducible lift_lets -underBinder
    | with_reducible apply State.heartbeatMissed_kept hm
    | with_reducible apply Kept.ite
    | with_reducible split
    | split

theorem execHandoverRequest_frame (t : Time) (slot : RackSlot) (pair : Fin 4) (cause : Nat) (s : State) {s2 : State} {mm : Nat} (hm : Sub 0x7ffffffffffffff08000000e000 mm) (he : execHandoverRequest t slot pair cause s = .next s2) : Kept mm (State.begin t s) s2 := by
  unfold execHandoverRequest at he
  have h : Kept mm (State.begin t s) (State.begin t s) := Kept.refl _ _
  generalize State.begin t s = s0 at h he
  (try dsimp only at he)
  have he : _ = s2 := Host.Outcome.next.inj he
  subst he
  repeat' first
    | (intro x; refine Kept.bind (s0 := s0) (m := mm) (x := x) ?_ ?_; subst x; rotate_left; clear_value x; intro _)
    | (intro y; clear_value y)
    | intro _
    | with_reducible assumption
    | with_reducible lift_lets -underBinder
    | with_reducible apply State.handoverRequest_kept hm
    | with_reducible apply Kept.ite
    | with_reducible split
    | split

theorem execGrant_frame (t : Time) (epoch first : Nat) (s : State) {s2 : State} {mm : Nat} (hm : Sub 0x80000008000 mm) (he : execGrant t epoch first s = .next s2) : Kept mm (State.begin t s) s2 := by
  unfold execGrant at he
  have h : Kept mm (State.begin t s) (State.begin t s) := Kept.refl _ _
  generalize State.begin t s = s0 at h he
  (try dsimp only at he)
  have he : _ = s2 := Host.Outcome.next.inj he
  subst he
  repeat' first
    | (intro x; refine Kept.bind (s0 := s0) (m := mm) (x := x) ?_ ?_; subst x; rotate_left; clear_value x; intro _)
    | (intro y; clear_value y)
    | intro _
    | with_reducible assumption
    | with_reducible lift_lets -underBinder
    | with_reducible apply State.takeGrant_kept hm
    | with_reducible apply Kept.ite
    | with_reducible split
    | split

theorem execRevoke_frame (t : Time) (epoch last : Nat) (s : State) {s2 : State} {mm : Nat} (hm : Sub 0x7fffffffffff00048000307e164 mm) (he : execRevoke t epoch last s = .next s2) : Kept mm (State.begin t s) s2 := by
  unfold execRevoke at he
  have h : Kept mm (State.begin t s) (State.begin t s) := Kept.refl _ _
  generalize State.begin t s = s0 at h he
  (try dsimp only at he)
  have he : _ = s2 := Host.Outcome.next.inj he
  subst he
  repeat' first
    | (intro x; refine Kept.bind (s0 := s0) (m := mm) (x := x) ?_ ?_; subst x; rotate_left; clear_value x; intro _)
    | (intro y; clear_value y)
    | intro _
    | with_reducible assumption
    | with_reducible lift_lets -underBinder
    | with_reducible apply State.takeRevoke_kept hm
    | with_reducible apply Kept.ite
    | with_reducible split
    | split

theorem execPlannedHandover_frame (t : Time) (q : Req) (s : State) {s2 : State} {mm : Nat} (hm : Sub 0x7fffffc0000000000000002e004 mm) (he : execPlannedHandover t q s = .next s2) : Kept mm (State.begin t s) s2 := by
  unfold execPlannedHandover at he
  have h : Kept mm (State.begin t s) (State.begin t s) := Kept.refl _ _
  generalize State.begin t s = s0 at h he
  (try dsimp only at he)
  have he : _ = s2 := Host.Outcome.next.inj he
  subst he
  have k0 : Sub 0x8000 mm := Sub.trans (by decide) hm
  repeat' first
    | (intro x; refine Kept.bind (s0 := s0) (m := mm) (x := x) ?_ ?_; subst x; rotate_left; clear_value x; intro _)
    | (intro y; clear_value y)
    | intro _
    | with_reducible assumption
    | with_reducible lift_lets -underBinder
    | with_reducible apply State.hostWrite_kept hm
    | with_reducible apply (plannedEff_kept k0).all
    | with_reducible apply plannedEff_kept k0
    | with_reducible apply Kept.ite
    | with_reducible split
    | split

theorem execArbiterLost_frame (t : Time) (s : State) {s2 : State} {mm : Nat} (hm : Sub 0x7fffd000000000008000000e000 mm) (he : execArbiterLost t s = .next s2) : Kept mm (State.begin t s) s2 := by
  unfold execArbiterLost at he
  have h : Kept mm (State.begin t s) (State.begin t s) := Kept.refl _ _
  generalize State.begin t s = s0 at h he
  (try dsimp only at he)
  have he : _ = s2 := Host.Outcome.next.inj he
  subst he
  repeat' first
    | (intro x; refine Kept.bind (s0 := s0) (m := mm) (x := x) ?_ ?_; subst x; rotate_left; clear_value x; intro _)
    | (intro y; clear_value y)
    | intro _
    | with_reducible assumption
    | with_reducible lift_lets -underBinder
    | with_reducible apply State.arbiterLost_kept hm
    | with_reducible apply Kept.ite
    | with_reducible split
    | split

theorem execTwinLinkTrained_frame (t : Time) (digest : Nat) (s : State) {s2 : State} {mm : Nat} (hm : Sub 0x400000008000 mm) (he : execTwinLinkTrained t digest s = .next s2) : Kept mm (State.begin t s) s2 := by
  unfold execTwinLinkTrained at he
  have h : Kept mm (State.begin t s) (State.begin t s) := Kept.refl _ _
  generalize State.begin t s = s0 at h he
  (try dsimp only at he)
  have he : _ = s2 := Host.Outcome.next.inj he
  subst he
  repeat' first
    | (intro x; refine Kept.bind (s0 := s0) (m := mm) (x := x) ?_ ?_; subst x; rotate_left; clear_value x; intro _)
    | (intro y; clear_value y)
    | intro _
    | with_reducible assumption
    | with_reducible lift_lets -underBinder
    | with_reducible apply State.linkTrained_kept hm
    | with_reducible apply Kept.ite
    | with_reducible split
    | split

theorem execTwinLinkDown_frame (t : Time) (s : State) {s2 : State} {mm : Nat} (hm : Sub 0x7fffd000000000040000000e000 mm) (he : execTwinLinkDown t s = .next s2) : Kept mm (State.begin t s) s2 := by
  unfold execTwinLinkDown at he
  have h : Kept mm (State.begin t s) (State.begin t s) := Kept.refl _ _
  generalize State.begin t s = s0 at h he
  (try dsimp only at he)
  have he : _ = s2 := Host.Outcome.next.inj he
  subst he
  repeat' first
    | (intro x; refine Kept.bind (s0 := s0) (m := mm) (x := x) ?_ ?_; subst x; rotate_left; clear_value x; intro _)
    | (intro y; clear_value y)
    | intro _
    | with_reducible assumption
    | with_reducible lift_lets -underBinder
    | with_reducible apply State.linkDown_kept hm
    | with_reducible apply Kept.ite
    | with_reducible split
    | split

theorem execStateCopyReceived_frame (t : Time) (m : StateCopy) (s : State) {s2 : State} {mm : Nat} (hm : Sub 0x8000 mm) (he : execStateCopyReceived t m s = .next s2) : Kept mm (State.begin t s) s2 := by
  unfold execStateCopyReceived at he
  have h : Kept mm (State.begin t s) (State.begin t s) := Kept.refl _ _
  generalize State.begin t s = s0 at h he
  (try dsimp only at he)
  have he : _ = s2 := Host.Outcome.next.inj he
  subst he
  repeat' first
    | (intro x; refine Kept.bind (s0 := s0) (m := mm) (x := x) ?_ ?_; subst x; rotate_left; clear_value x; intro _)
    | (intro y; clear_value y)
    | intro _
    | with_reducible assumption
    | with_reducible lift_lets -underBinder
    | with_reducible apply State.copyReceived_kept hm
    | with_reducible apply Kept.ite
    | with_reducible split
    | split

theorem execHopDelayMeasurement_frame (t : Time) (d : HopDelays) (s : State) {s2 : State} {mm : Nat} (hm : Sub 0x80000000000 mm) (he : execHopDelayMeasurement t d s = .next s2) : Kept mm (State.begin t s) s2 := by
  unfold execHopDelayMeasurement at he
  have h : Kept mm (State.begin t s) (State.begin t s) := Kept.refl _ _
  generalize State.begin t s = s0 at h he
  (try dsimp only at he)
  have he : _ = s2 := Host.Outcome.next.inj he
  subst he
  repeat' first
    | (intro x; refine Kept.bind (s0 := s0) (m := mm) (x := x) ?_ ?_; subst x; rotate_left; clear_value x; intro _)
    | (intro y; clear_value y)
    | intro _
    | with_reducible assumption
    | with_reducible lift_lets -underBinder
    | with_reducible apply State.hopDelay_kept hm
    | with_reducible apply Kept.ite
    | with_reducible split
    | split

theorem execTimeSync_frame (t : Time) (departed others : Nat) (s : State) {s2 : State} {mm : Nat} (hm : Sub 0x7ffffffffffffffff280008f280 mm) (he : execTimeSync t departed others s = .next s2) : Kept mm (State.begin t s) s2 := by
  unfold execTimeSync at he
  have h : Kept mm (State.begin t s) (State.begin t s) := Kept.refl _ _
  generalize State.begin t s = s0 at h he
  (try dsimp only at he)
  have he : _ = s2 := Host.Outcome.next.inj he
  subst he
  repeat' first
    | (intro x; refine Kept.bind (s0 := s0) (m := mm) (x := x) ?_ ?_; subst x; rotate_left; clear_value x; intro _)
    | (intro y; clear_value y)
    | intro _
    | with_reducible assumption
    | with_reducible lift_lets -underBinder
    | with_reducible apply State.timeSync_kept hm
    | with_reducible apply Kept.ite
    | with_reducible split
    | split

theorem execTimeSyncSend_frame (t : Time) (s : State) {s2 : State} {mm : Nat} (hm : Sub 0x8000 mm) (he : execTimeSyncSend t s = .next s2) : Kept mm (State.begin t s) s2 := by
  unfold execTimeSyncSend at he
  have h : Kept mm (State.begin t s) (State.begin t s) := Kept.refl _ _
  generalize State.begin t s = s0 at h he
  (try dsimp only at he)
  have he : _ = s2 := Host.Outcome.next.inj he
  subst he
  have k0 : Sub 0x0 mm := Sub.trans (by decide) hm
  repeat' first
    | (intro x; refine Kept.bind (s0 := s0) (m := mm) (x := x) ?_ ?_; subst x; rotate_left; clear_value x; intro _)
    | (intro y; clear_value y)
    | intro _
    | with_reducible assumption
    | with_reducible lift_lets -underBinder
    | with_reducible apply State.when_kept k0
    | with_reducible apply State.rackMsg_kept hm
    | with_reducible apply Kept.ite
    | with_reducible split
    | split

theorem execMasterLost_frame (t : Time) (s : State) {s2 : State} {mm : Nat} (hm : Sub 0x7fffd000000000008200000e000 mm) (he : execMasterLost t s = .next s2) : Kept mm (State.begin t s) s2 := by
  unfold execMasterLost at he
  have h : Kept mm (State.begin t s) (State.begin t s) := Kept.refl _ _
  generalize State.begin t s = s0 at h he
  (try dsimp only at he)
  have he : _ = s2 := Host.Outcome.next.inj he
  subst he
  repeat' first
    | (intro x; refine Kept.bind (s0 := s0) (m := mm) (x := x) ?_ ?_; subst x; rotate_left; clear_value x; intro _)
    | (intro y; clear_value y)
    | intro _
    | with_reducible assumption
    | with_reducible lift_lets -underBinder
    | with_reducible apply State.masterLost_kept hm
    | with_reducible apply Kept.ite
    | with_reducible split
    | split

theorem execPrepare_frame (t : Time) (m : PrepareMsg) (s : State) {s2 : State} {mm : Nat} (hm : Sub 0x7fffd000000000018000000e000 mm) (he : execPrepare t m s = .next s2) : Kept mm (State.begin t s) s2 := by
  unfold execPrepare at he
  have h : Kept mm (State.begin t s) (State.begin t s) := Kept.refl _ _
  generalize State.begin t s = s0 at h he
  (try dsimp only at he)
  have he : _ = s2 := Host.Outcome.next.inj he
  subst he
  repeat' first
    | (intro x; refine Kept.bind (s0 := s0) (m := mm) (x := x) ?_ ?_; subst x; rotate_left; clear_value x; intro _)
    | (intro y; clear_value y)
    | intro _
    | with_reducible assumption
    | with_reducible lift_lets -underBinder
    | with_reducible apply State.prepareMsg_kept hm
    | with_reducible apply Kept.ite
    | with_reducible split
    | split

theorem execCommit_frame (t : Time) (txn : Nat) (s : State) {s2 : State} {mm : Nat} (hm : Sub 0x80000008000 mm) (he : execCommit t txn s = .next s2) : Kept mm (State.begin t s) s2 := by
  unfold execCommit at he
  have h : Kept mm (State.begin t s) (State.begin t s) := Kept.refl _ _
  generalize State.begin t s = s0 at h he
  (try dsimp only at he)
  have he : _ = s2 := Host.Outcome.next.inj he
  subst he
  have k0 : Sub 0x8000 mm := Sub.trans (by decide) hm
  repeat' first
    | (intro x; refine Kept.bind (s0 := s0) (m := mm) (x := x) ?_ ?_; subst x; rotate_left; clear_value x; intro _)
    | (intro y; clear_value y)
    | intro _
    | with_reducible assumption
    | with_reducible lift_lets -underBinder
    | with_reducible apply State.takeCommit_kept k0
    | with_reducible apply State.hear_kept hm
    | with_reducible apply Kept.ite
    | with_reducible split
    | split

theorem execAbort_frame (t : Time) (txn : Nat) (s : State) {s2 : State} {mm : Nat} (hm : Sub 0x80000008000 mm) (he : execAbort t txn s = .next s2) : Kept mm (State.begin t s) s2 := by
  unfold execAbort at he
  have h : Kept mm (State.begin t s) (State.begin t s) := Kept.refl _ _
  generalize State.begin t s = s0 at h he
  (try dsimp only at he)
  have he : _ = s2 := Host.Outcome.next.inj he
  subst he
  have k0 : Sub 0x8000 mm := Sub.trans (by decide) hm
  repeat' first
    | (intro x; refine Kept.bind (s0 := s0) (m := mm) (x := x) ?_ ?_; subst x; rotate_left; clear_value x; intro _)
    | (intro y; clear_value y)
    | intro _
    | with_reducible assumption
    | with_reducible lift_lets -underBinder
    | with_reducible apply State.hear_kept hm
    | with_reducible apply State.takeAbort_kept k0
    | with_reducible apply Kept.ite
    | with_reducible split
    | split

theorem execExecute_frame (t : Time) (q : Req) (s : State) {s2 : State} {mm : Nat} (hm : Sub 0x7fffffc0000000010000002e004 mm) (he : execExecute t q s = .next s2) : Kept mm (State.begin t s) s2 := by
  unfold execExecute at he
  have h : Kept mm (State.begin t s) (State.begin t s) := Kept.refl _ _
  generalize State.begin t s = s0 at h he
  (try dsimp only at he)
  have he : _ = s2 := Host.Outcome.next.inj he
  subst he
  have k0 : Sub 0x7fffffc0000000000000002e004 mm := Sub.trans (by decide) hm
  have k1 : Sub 0x100000008000 mm := Sub.trans (by decide) hm
  repeat' first
    | (intro x; refine Kept.bind (s0 := s0) (m := mm) (x := x) ?_ ?_; subst x; rotate_left; clear_value x; intro _)
    | (intro y; clear_value y)
    | intro _
    | with_reducible assumption
    | with_reducible lift_lets -underBinder
    | with_reducible apply State.hostWrite_kept k0
    | with_reducible apply (executeEff_kept k1).all
    | with_reducible apply executeEff_kept k1
    | with_reducible apply Kept.ite
    | with_reducible split
    | split

theorem execReady_frame (t : Time) (slot : RackSlot) (txn : Nat) (s : State) {s2 : State} {mm : Nat} (hm : Sub 0x180000008000 mm) (he : execReady t slot txn s = .next s2) : Kept mm (State.begin t s) s2 := by
  unfold execReady at he
  have h : Kept mm (State.begin t s) (State.begin t s) := Kept.refl _ _
  generalize State.begin t s = s0 at h he
  (try dsimp only at he)
  have he : _ = s2 := Host.Outcome.next.inj he
  subst he
  repeat' first
    | (intro x; refine Kept.bind (s0 := s0) (m := mm) (x := x) ?_ ?_; subst x; rotate_left; clear_value x; intro _)
    | (intro y; clear_value y)
    | intro _
    | with_reducible assumption
    | with_reducible lift_lets -underBinder
    | with_reducible apply State.answered_kept hm
    | with_reducible apply Kept.ite
    | with_reducible split
    | split

theorem execRefuse_frame (t : Time) (slot : RackSlot) (txn _cause : Nat) (s : State) {s2 : State} {mm : Nat} (hm : Sub 0x180000008000 mm) (he : execRefuse t slot txn _cause s = .next s2) : Kept mm (State.begin t s) s2 := by
  unfold execRefuse at he
  have h : Kept mm (State.begin t s) (State.begin t s) := Kept.refl _ _
  generalize State.begin t s = s0 at h he
  (try dsimp only at he)
  have he : _ = s2 := Host.Outcome.next.inj he
  subst he
  repeat' first
    | (intro x; refine Kept.bind (s0 := s0) (m := mm) (x := x) ?_ ?_; subst x; rotate_left; clear_value x; intro _)
    | (intro y; clear_value y)
    | intro _
    | with_reducible assumption
    | with_reducible lift_lets -underBinder
    | with_reducible apply State.answered_kept hm
    | with_reducible apply Kept.ite
    | with_reducible split
    | split

theorem execCommitDecision_frame (t : Time) (s : State) {s2 : State} {mm : Nat} (hm : Sub 0x7fffffffffffffff0000000e000 mm) (he : execCommitDecision t s = .next s2) : Kept mm (State.begin t s) s2 := by
  unfold execCommitDecision at he
  have h : Kept mm (State.begin t s) (State.begin t s) := Kept.refl _ _
  generalize State.begin t s = s0 at h he
  (try dsimp only at he)
  have he : _ = s2 := Host.Outcome.next.inj he
  subst he
  repeat' first
    | (intro x; refine Kept.bind (s0 := s0) (m := mm) (x := x) ?_ ?_; subst x; rotate_left; clear_value x; intro _)
    | (intro y; clear_value y)
    | intro _
    | with_reducible assumption
    | with_reducible lift_lets -underBinder
    | with_reducible apply State.commitDecision_kept hm
    | with_reducible apply Kept.ite
    | with_reducible split
    | split

theorem execReport_frame (t : Time) (slot : RackSlot) (txn applied : Nat) (s : State) {s2 : State} {mm : Nat} (hm : Sub 0x7fffd000000000018000000e000 mm) (he : execReport t slot txn applied s = .next s2) : Kept mm (State.begin t s) s2 := by
  unfold execReport at he
  have h : Kept mm (State.begin t s) (State.begin t s) := Kept.refl _ _
  generalize State.begin t s = s0 at h he
  (try dsimp only at he)
  have he : _ = s2 := Host.Outcome.next.inj he
  subst he
  repeat' first
    | (intro x; refine Kept.bind (s0 := s0) (m := mm) (x := x) ?_ ?_; subst x; rotate_left; clear_value x; intro _)
    | (intro y; clear_value y)
    | intro _
    | with_reducible assumption
    | with_reducible lift_lets -underBinder
    | with_reducible apply State.reportMsg_kept hm
    | with_reducible apply Kept.ite
    | with_reducible split
    | split

theorem execStragglerDeadline_frame (t : Time) (s : State) {s2 : State} {mm : Nat} (hm : Sub 0x7fffd000000000010000000e000 mm) (he : execStragglerDeadline t s = .next s2) : Kept mm (State.begin t s) s2 := by
  unfold execStragglerDeadline at he
  have h : Kept mm (State.begin t s) (State.begin t s) := Kept.refl _ _
  generalize State.begin t s = s0 at h he
  (try dsimp only at he)
  have he : _ = s2 := Host.Outcome.next.inj he
  subst he
  repeat' first
    | (intro x; refine Kept.bind (s0 := s0) (m := mm) (x := x) ?_ ?_; subst x; rotate_left; clear_value x; intro _)
    | (intro y; clear_value y)
    | intro _
    | with_reducible assumption
    | with_reducible lift_lets -underBinder
    | with_reducible apply State.stragglerDeadline_kept hm
    | with_reducible apply Kept.ite
    | with_reducible split
    | split

theorem execCloseBridges_frame (t : Time) (q : Req) (s : State) {s2 : State} {mm : Nat} (hm : Sub 0x7fffffc0000000000000002e004 mm) (he : execCloseBridges t q s = .next s2) : Kept mm (State.begin t s) s2 := by
  unfold execCloseBridges at he
  have h : Kept mm (State.begin t s) (State.begin t s) := Kept.refl _ _
  generalize State.begin t s = s0 at h he
  (try dsimp only at he)
  have he : _ = s2 := Host.Outcome.next.inj he
  subst he
  have k0 : Sub 0x8000 mm := Sub.trans (by decide) hm
  repeat' first
    | (intro x; refine Kept.bind (s0 := s0) (m := mm) (x := x) ?_ ?_; subst x; rotate_left; clear_value x; intro _)
    | (intro y; clear_value y)
    | intro _
    | with_reducible assumption
    | with_reducible lift_lets -underBinder
    | with_reducible apply State.hostWrite_kept hm
    | with_reducible apply (closeBridgesEff_kept k0).all
    | with_reducible apply closeBridgesEff_kept k0
    | with_reducible apply Kept.ite
    | with_reducible split
    | split

theorem execBridgeOpen_frame (t : Time) (k : Fin 2) (s : State) {s2 : State} {mm : Nat} (hm : Sub 0x7e1000000000000400000008800 mm) (he : execBridgeOpen t k s = .next s2) : Kept mm (State.begin t s) s2 := by
  unfold execBridgeOpen at he
  have h : Kept mm (State.begin t s) (State.begin t s) := Kept.refl _ _
  generalize State.begin t s = s0 at h he
  (try dsimp only at he)
  have he : _ = s2 := Host.Outcome.next.inj he
  subst he
  repeat' first
    | (intro x; refine Kept.bind (s0 := s0) (m := mm) (x := x) ?_ ?_; subst x; rotate_left; clear_value x; intro _)
    | (intro y; clear_value y)
    | intro _
    | with_reducible assumption
    | with_reducible lift_lets -underBinder
    | with_reducible apply State.bridgeOpen_kept hm
    | with_reducible apply Kept.ite
    | with_reducible split
    | split

theorem execSampleInstant_frame (t : Time) (b : Batch) (s : State) {s2 : State} {mm : Nat} (hm : Sub 0x7fffffffffffffffe000001e5fe mm) (he : execSampleInstant t b s = .next s2) : Kept mm (State.begin t s) s2 := by
  unfold execSampleInstant at he
  have h : Kept mm (State.begin t s) (State.begin t s) := Kept.refl _ _
  generalize State.begin t s = s0 at h he
  (try dsimp only at he)
  have he : _ = s2 := Host.Outcome.next.inj he
  subst he
  have k0 : Sub 0x0 mm := Sub.trans (by decide) hm
  repeat' first
    | (intro x; refine Kept.bind (s0 := s0) (m := mm) (x := x) ?_ ?_; subst x; rotate_left; clear_value x; intro _)
    | (intro y; clear_value y)
    | intro _
    | with_reducible assumption
    | with_reducible lift_lets -underBinder
    | with_reducible apply State.when_kept k0
    | with_reducible apply State.samplePoint_kept hm
    | with_reducible apply Kept.ite
    | with_reducible split
    | split

theorem execFastTapOutput_frame (t : Time) (c : ChainNo) (s : State) {s2 : State} {mm : Nat} (hm : Sub 0x7ffffffff00000000000000e084 mm) (he : execFastTapOutput t c s = .next s2) : Kept mm (State.begin t s) s2 := by
  unfold execFastTapOutput at he
  have h : Kept mm (State.begin t s) (State.begin t s) := Kept.refl _ _
  generalize State.begin t s = s0 at h he
  (try dsimp only at he)
  have he : _ = s2 := Host.Outcome.next.inj he
  subst he
  repeat' first
    | (intro x; refine Kept.bind (s0 := s0) (m := mm) (x := x) ?_ ?_; subst x; rotate_left; clear_value x; intro _)
    | (intro y; have w_ : State × Bool := y; clear w_)
    | (intro y; clear_value y)
    | intro _
    | with_reducible assumption
    | with_reducible lift_lets -underBinder
    | with_reducible apply State.fastTap_kept hm
    | with_reducible apply Kept.ite
    | with_reducible split
    | split
    | with_reducible refine Kept.snd (by assumption) ?_
    | with_reducible refine Kept.fst (by assumption) ?_

theorem execDomainSwitchOff_frame (t : Time) (q : Req) (d : DomainNo) (s : State) {s2 : State} {mm : Nat} (hm : Sub 0x7fffffffffffffffffffff7fffe mm) (he : execDomainSwitchOff t q d s = .next s2) : Kept mm (State.begin t s) s2 := by
  unfold execDomainSwitchOff at he
  have h : Kept mm (State.begin t s) (State.begin t s) := Kept.refl _ _
  generalize State.begin t s = s0 at h he
  (try dsimp only at he)
  have he : _ = s2 := Host.Outcome.next.inj he
  subst he
  have k0 : Sub 0x7fffffc0000000000000002e004 mm := Sub.trans (by decide) hm
  repeat' first
    | (intro x; refine Kept.bind (s0 := s0) (m := mm) (x := x) ?_ ?_; subst x; rotate_left; clear_value x; intro _)
    | (intro y; clear_value y)
    | intro _
    | with_reducible assumption
    | with_reducible lift_lets -underBinder
    | with_reducible apply State.hostWrite_kept k0
    | with_reducible apply (domSwitchEff_kept hm).all
    | with_reducible apply domSwitchEff_kept hm
    | with_reducible apply Kept.ite
    | with_reducible split
    | split

theorem execDomainSwitchOn_frame (t : Time) (q : Req) (d : DomainNo) (s : State) {s2 : State} {mm : Nat} (hm : Sub 0x7fffffffffffffffffffff7fffe mm) (he : execDomainSwitchOn t q d s = .next s2) : Kept mm (State.begin t s) s2 := by
  unfold execDomainSwitchOn at he
  have h : Kept mm (State.begin t s) (State.begin t s) := Kept.refl _ _
  generalize State.begin t s = s0 at h he
  (try dsimp only at he)
  have he : _ = s2 := Host.Outcome.next.inj he
  subst he
  have k0 : Sub 0x7fffffc0000000000000002e004 mm := Sub.trans (by decide) hm
  repeat' first
    | (intro x; refine Kept.bind (s0 := s0) (m := mm) (x := x) ?_ ?_; subst x; rotate_left; clear_value x; intro _)
    | (intro y; clear_value y)
    | intro _
    | with_reducible assumption
    | with_reducible lift_lets -underBinder
    | with_reducible apply State.hostWrite_kept k0
    | with_reducible apply (domSwitchEff_kept hm).all
    | with_reducible apply domSwitchEff_kept hm
    | with_reducible apply Kept.ite
    | with_reducible split
    | split

theorem execBackOffExpired_frame (t : Time) (s : State) {s2 : State} {mm : Nat} (hm : Sub 0x7fffffffffffffffffff307ffe6 mm) (he : execBackOffExpired t s = .next s2) : Kept mm (State.begin t s) s2 := by
  unfold execBackOffExpired at he
  have h : Kept mm (State.begin t s) (State.begin t s) := Kept.refl _ _
  generalize State.begin t s = s0 at h he
  (try dsimp only at he)
  have he : _ = s2 := Host.Outcome.next.inj he
  subst he
  have k0 : Sub 0x0 mm := Sub.trans (by decide) hm
  repeat' first
    | (intro x; refine Kept.bind (s0 := s0) (m := mm) (x := x) ?_ ?_; subst x; rotate_left; clear_value x; intro _)
    | (intro y; clear_value y)
    | intro _
    | with_reducible assumption
    | with_reducible lift_lets -underBinder
    | with_reducible apply State.when_kept k0
    | with_reducible apply State.reenter_kept hm
    | with_reducible apply Kept.ite
    | with_reducible split
    | split

theorem execServiceStart_frame (t : Time) (s : State) {s2 : State} {mm : Nat} (hm : Sub 0x7fffffffffff00240000307e964 mm) (he : execServiceStart t s = .next s2) : Kept mm (State.begin t s) s2 := by
  unfold execServiceStart at he
  have h : Kept mm (State.begin t s) (State.begin t s) := Kept.refl _ _
  generalize State.begin t s = s0 at h he
  (try dsimp only at he)
  have he : _ = s2 := Host.Outcome.next.inj he
  subst he
  repeat' first
    | (intro x; refine Kept.bind (s0 := s0) (m := mm) (x := x) ?_ ?_; subst x; rotate_left; clear_value x; intro _)
    | (intro y; clear_value y)
    | intro _
    | with_reducible assumption
    | with_reducible lift_lets -underBinder
    | with_reducible apply State.serviceStart_kept hm
    | with_reducible apply Kept.ite
    | with_reducible split
    | split

theorem execDomainReady_frame (t : Time) (d : DomainNo) (s : State) {s2 : State} {mm : Nat} (hm : Sub 0x7fffffffffffffffffffff7fffe mm) (he : execDomainReady t d s = .next s2) : Kept mm (State.begin t s) s2 := by
  unfold execDomainReady at he
  have h : Kept mm (State.begin t s) (State.begin t s) := Kept.refl _ _
  generalize State.begin t s = s0 at h he
  (try dsimp only at he)
  have he : _ = s2 := Host.Outcome.next.inj he
  subst he
  repeat' first
    | (intro x; refine Kept.bind (s0 := s0) (m := mm) (x := x) ?_ ?_; subst x; rotate_left; clear_value x; intro _)
    | (intro y; clear_value y)
    | intro _
    | with_reducible assumption
    | with_reducible lift_lets -underBinder
    | with_reducible apply State.domReady_kept hm
    | with_reducible apply Kept.ite
    | with_reducible split
    | split

theorem execDomainFault_frame (t : Time) (d : DomainNo) (s : State) {s2 : State} {mm : Nat} (hm : Sub 0x7fffffffffffffffffff307ffe6 mm) (he : execDomainFault t d s = .next s2) : Kept mm (State.begin t s) s2 := by
  unfold execDomainFault at he
  have h : Kept mm (State.begin t s) (State.begin t s) := Kept.refl _ _
  generalize State.begin t s = s0 at h he
  (try dsimp only at he)
  have he : _ = s2 := Host.Outcome.next.inj he
  subst he
  repeat' first
    | (intro x; refine Kept.bind (s0 := s0) (m := mm) (x := x) ?_ ?_; subst x; rotate_left; clear_value x; intro _)
    | (intro y; clear_value y)
    | intro _
    | with_reducible assumption
    | with_reducible lift_lets -underBinder
    | with_reducible apply State.domFault_kept hm
    | with_reducible apply Kept.ite
    | with_reducible split
    | split

theorem execStoreCharged_frame (t : Time) (s : State) {s2 : State} {mm : Nat} (hm : Sub 0x200010000 mm) (he : execStoreCharged t s = .next s2) : Kept mm (State.begin t s) s2 := by
  unfold execStoreCharged at he
  have h : Kept mm (State.begin t s) (State.begin t s) := Kept.refl _ _
  generalize State.begin t s = s0 at h he
  (try dsimp only at he)
  have he : _ = s2 := Host.Outcome.next.inj he
  subst he
  repeat' first
    | (intro x; refine Kept.bind (s0 := s0) (m := mm) (x := x) ?_ ?_; subst x; rotate_left; clear_value x; intro _)
    | (intro y; clear_value y)
    | intro _
    | with_reducible assumption
    | with_reducible lift_lets -underBinder
    | with_reducible apply State.storeCharged_kept hm
    | with_reducible apply Kept.ite
    | with_reducible split
    | split

theorem execChargeTimeout_frame (t : Time) (s : State) {s2 : State} {mm : Nat} (hm : Sub 0x7fffffffffff00000000307e164 mm) (he : execChargeTimeout t s = .next s2) : Kept mm (State.begin t s) s2 := by
  unfold execChargeTimeout at he
  have h : Kept mm (State.begin t s) (State.begin t s) := Kept.refl _ _
  generalize State.begin t s = s0 at h he
  (try dsimp only at he)
  have he : _ = s2 := Host.Outcome.next.inj he
  subst he
  repeat' first
    | (intro x; refine Kept.bind (s0 := s0) (m := mm) (x := x) ?_ ?_; subst x; rotate_left; clear_value x; intro _)
    | (intro y; clear_value y)
    | intro _
    | with_reducible assumption
    | with_reducible lift_lets -underBinder
    | with_reducible apply State.chargeTimeout_kept hm
    | with_reducible apply Kept.ite
    | with_reducible split
    | split

theorem execStoreTemperatureThreshold_frame (t : Time) (temp : Int) (s : State) {s2 : State} {mm : Nat} (hm : Sub 0x200000000 mm) (he : execStoreTemperatureThreshold t temp s = .next s2) : Kept mm (State.begin t s) s2 := by
  unfold execStoreTemperatureThreshold at he
  have h : Kept mm (State.begin t s) (State.begin t s) := Kept.refl _ _
  generalize State.begin t s = s0 at h he
  (try dsimp only at he)
  have he : _ = s2 := Host.Outcome.next.inj he
  subst he
  repeat' first
    | (intro x; refine Kept.bind (s0 := s0) (m := mm) (x := x) ?_ ?_; subst x; rotate_left; clear_value x; intro _)
    | (intro y; clear_value y)
    | intro _
    | with_reducible assumption
    | with_reducible lift_lets -underBinder
    | with_reducible apply State.storeTemperature_kept hm
    | with_reducible apply Kept.ite
    | with_reducible split
    | split

theorem execStoreHot_frame (t : Time) (temp : Int) (s : State) {s2 : State} {mm : Nat} (hm : Sub 0x280010000 mm) (he : execStoreHot t temp s = .next s2) : Kept mm (State.begin t s) s2 := by
  unfold execStoreHot at he
  have h : Kept mm (State.begin t s) (State.begin t s) := Kept.refl _ _
  generalize State.begin t s = s0 at h he
  (try dsimp only at he)
  have he : _ = s2 := Host.Outcome.next.inj he
  subst he
  repeat' first
    | (intro x; refine Kept.bind (s0 := s0) (m := mm) (x := x) ?_ ?_; subst x; rotate_left; clear_value x; intro _)
    | (intro y; clear_value y)
    | intro _
    | with_reducible assumption
    | with_reducible lift_lets -underBinder
    | with_reducible apply State.storeHot_kept hm
    | with_reducible apply Kept.ite
    | with_reducible split
    | split

theorem execProofCheckEnd_frame (t : Time) (v0 va vb : Nat) (s : State) {s2 : State} {mm : Nat} (hm : Sub 0x7fffffffffffffffffffffffbfe mm) (he : execProofCheckEnd t v0 va vb s = .next s2) : Kept mm (State.begin t s) s2 := by
  unfold execProofCheckEnd at he
  have h : Kept mm (State.begin t s) (State.begin t s) := Kept.refl _ _
  generalize State.begin t s = s0 at h he
  (try dsimp only at he)
  have he : _ = s2 := Host.Outcome.next.inj he
  subst he
  repeat' first
    | (intro x; refine Kept.bind (s0 := s0) (m := mm) (x := x) ?_ ?_; subst x; rotate_left; clear_value x; intro _)
    | (intro y; clear_value y)
    | intro _
    | with_reducible assumption
    | with_reducible lift_lets -underBinder
    | with_reducible apply State.checkEnd_kept hm
    | with_reducible apply Kept.ite
    | with_reducible split
    | split

theorem execProofInterval_frame (t : Time) (s : State) {s2 : State} {mm : Nat} (hm : Sub 0x200010000 mm) (he : execProofInterval t s = .next s2) : Kept mm (State.begin t s) s2 := by
  unfold execProofInterval at he
  have h : Kept mm (State.begin t s) (State.begin t s) := Kept.refl _ _
  generalize State.begin t s = s0 at h he
  (try dsimp only at he)
  have he : _ = s2 := Host.Outcome.next.inj he
  subst he
  repeat' first
    | (intro x; refine Kept.bind (s0 := s0) (m := mm) (x := x) ?_ ?_; subst x; rotate_left; clear_value x; intro _)
    | (intro y; clear_value y)
    | intro _
    | with_reducible assumption
    | with_reducible lift_lets -underBinder
    | with_reducible apply State.proofInterval_kept hm
    | with_reducible apply Kept.ite
    | with_reducible split
    | split

theorem execProofRepeat_frame (t : Time) (s : State) {s2 : State} {mm : Nat} (hm : Sub 0x200010000 mm) (he : execProofRepeat t s = .next s2) : Kept mm (State.begin t s) s2 := by
  unfold execProofRepeat at he
  have h : Kept mm (State.begin t s) (State.begin t s) := Kept.refl _ _
  generalize State.begin t s = s0 at h he
  (try dsimp only at he)
  have he : _ = s2 := Host.Outcome.next.inj he
  subst he
  repeat' first
    | (intro x; refine Kept.bind (s0 := s0) (m := mm) (x := x) ?_ ?_; subst x; rotate_left; clear_value x; intro _)
    | (intro y; clear_value y)
    | intro _
    | with_reducible assumption
    | with_reducible lift_lets -underBinder
    | with_reducible apply State.proofRepeat_kept hm
    | with_reducible apply Kept.ite
    | with_reducible split
    | split

theorem execConfigure_frame (t : Time) (q : Req) (s : State) {s2 : State} {mm : Nat} (hm : Sub 0x7fffffffffffffffffff70fffe6 mm) (he : execConfigure t q s = .next s2) : Kept mm (State.begin t s) s2 := by
  unfold execConfigure at he
  have h : Kept mm (State.begin t s) (State.begin t s) := Kept.refl _ _
  generalize State.begin t s = s0 at h he
  (try dsimp only at he)
  have he : _ = s2 := Host.Outcome.next.inj he
  subst he
  repeat' first
    | (intro x; refine Kept.bind (s0 := s0) (m := mm) (x := x) ?_ ?_; subst x; rotate_left; clear_value x; intro _)
    | (intro y; clear_value y)
    | intro _
    | with_reducible assumption
    | with_reducible lift_lets -underBinder
    | with_reducible apply State.moduleCommand_kept hm
    | with_reducible apply Kept.ite
    | with_reducible split
    | split

theorem execArm_frame (t : Time) (q : Req) (s : State) {s2 : State} {mm : Nat} (hm : Sub 0x7fffffffffffffffffff70fffe6 mm) (he : execArm t q s = .next s2) : Kept mm (State.begin t s) s2 := by
  unfold execArm at he
  have h : Kept mm (State.begin t s) (State.begin t s) := Kept.refl _ _
  generalize State.begin t s = s0 at h he
  (try dsimp only at he)
  have he : _ = s2 := Host.Outcome.next.inj he
  subst he
  repeat' first
    | (intro x; refine Kept.bind (s0 := s0) (m := mm) (x := x) ?_ ?_; subst x; rotate_left; clear_value x; intro _)
    | (intro y; clear_value y)
    | intro _
    | with_reducible assumption
    | with_reducible lift_lets -underBinder
    | with_reducible apply State.moduleCommand_kept hm
    | with_reducible apply Kept.ite
    | with_reducible split
    | split

theorem execRun_frame (t : Time) (q : Req) (s : State) {s2 : State} {mm : Nat} (hm : Sub 0x7fffffffffffffffffff70fffe6 mm) (he : execRun t q s = .next s2) : Kept mm (State.begin t s) s2 := by
  unfold execRun at he
  have h : Kept mm (State.begin t s) (State.begin t s) := Kept.refl _ _
  generalize State.begin t s = s0 at h he
  (try dsimp only at he)
  have he : _ = s2 := Host.Outcome.next.inj he
  subst he
  repeat' first
    | (intro x; refine Kept.bind (s0 := s0) (m := mm) (x := x) ?_ ?_; subst x; rotate_left; clear_value x; intro _)
    | (intro y; clear_value y)
    | intro _
    | with_reducible assumption
    | with_reducible lift_lets -underBinder
    | with_reducible apply State.moduleCommand_kept hm
    | with_reducible apply Kept.ite
    | with_reducible split
    | split

theorem execSafeHold_frame (t : Time) (q : Req) (s : State) {s2 : State} {mm : Nat} (hm : Sub 0x7fffffffffffffffffff70fffe6 mm) (he : execSafeHold t q s = .next s2) : Kept mm (State.begin t s) s2 := by
  unfold execSafeHold at he
  have h : Kept mm (State.begin t s) (State.begin t s) := Kept.refl _ _
  generalize State.begin t s = s0 at h he
  (try dsimp only at he)
  have he : _ = s2 := Host.Outcome.next.inj he
  subst he
  repeat' first
    | (intro x; refine Kept.bind (s0 := s0) (m := mm) (x := x) ?_ ?_; subst x; rotate_left; clear_value x; intro _)
    | (intro y; clear_value y)
    | intro _
    | with_reducible assumption
    | with_reducible lift_lets -underBinder
    | with_reducible apply State.moduleCommand_kept hm
    | with_reducible apply Kept.ite
    | with_reducible split
    | split

theorem execRestartFromSafehold_frame (t : Time) (q : Req) (s : State) {s2 : State} {mm : Nat} (hm : Sub 0x7fffffffffffffffffff70fffe6 mm) (he : execRestartFromSafehold t q s = .next s2) : Kept mm (State.begin t s) s2 := by
  unfold execRestartFromSafehold at he
  have h : Kept mm (State.begin t s) (State.begin t s) := Kept.refl _ _
  generalize State.begin t s = s0 at h he
  (try dsimp only at he)
  have he : _ = s2 := Host.Outcome.next.inj he
  subst he
  repeat' first
    | (intro x; refine Kept.bind (s0 := s0) (m := mm) (x := x) ?_ ?_; subst x; rotate_left; clear_value x; intro _)
    | (intro y; clear_value y)
    | intro _
    | with_reducible assumption
    | with_reducible lift_lets -underBinder
    | with_reducible apply State.moduleCommand_kept hm
    | with_reducible apply Kept.ite
    | with_reducible split
    | split

theorem execConfigurationStore_frame (t : Time) (q : Req) (s : State) {s2 : State} {mm : Nat} (hm : Sub 0x7fffffffffffffffffff70fffe6 mm) (he : execConfigurationStore t q s = .next s2) : Kept mm (State.begin t s) s2 := by
  unfold execConfigurationStore at he
  have h : Kept mm (State.begin t s) (State.begin t s) := Kept.refl _ _
  generalize State.begin t s = s0 at h he
  (try dsimp only at he)
  have he : _ = s2 := Host.Outcome.next.inj he
  subst he
  repeat' first
    | (intro x; refine Kept.bind (s0 := s0) (m := mm) (x := x) ?_ ?_; subst x; rotate_left; clear_value x; intro _)
    | (intro y; clear_value y)
    | intro _
    | with_reducible assumption
    | with_reducible lift_lets -underBinder
    | with_reducible apply State.moduleCommand_kept hm
    | with_reducible apply Kept.ite
    | with_reducible split
    | split

theorem execOnDemandSelfTest_frame (t : Time) (q : Req) (s : State) {s2 : State} {mm : Nat} (hm : Sub 0x7fffffffffffffffffff70fffe6 mm) (he : execOnDemandSelfTest t q s = .next s2) : Kept mm (State.begin t s) s2 := by
  unfold execOnDemandSelfTest at he
  have h : Kept mm (State.begin t s) (State.begin t s) := Kept.refl _ _
  generalize State.begin t s = s0 at h he
  (try dsimp only at he)
  have he : _ = s2 := Host.Outcome.next.inj he
  subst he
  repeat' first
    | (intro x; refine Kept.bind (s0 := s0) (m := mm) (x := x) ?_ ?_; subst x; rotate_left; clear_value x; intro _)
    | (intro y; clear_value y)
    | intro _
    | with_reducible assumption
    | with_reducible lift_lets -underBinder
    | with_reducible apply State.moduleCommand_kept hm
    | with_reducible apply Kept.ite
    | with_reducible split
    | split

theorem execRetryNow_frame (t : Time) (q : Req) (s : State) {s2 : State} {mm : Nat} (hm : Sub 0x7fffffffffffffffffff70fffe6 mm) (he : execRetryNow t q s = .next s2) : Kept mm (State.begin t s) s2 := by
  unfold execRetryNow at he
  have h : Kept mm (State.begin t s) (State.begin t s) := Kept.refl _ _
  generalize State.begin t s = s0 at h he
  (try dsimp only at he)
  have he : _ = s2 := Host.Outcome.next.inj he
  subst he
  repeat' first
    | (intro x; refine Kept.bind (s0 := s0) (m := mm) (x := x) ?_ ?_; subst x; rotate_left; clear_value x; intro _)
    | (intro y; clear_value y)
    | intro _
    | with_reducible assumption
    | with_reducible lift_lets -underBinder
    | with_reducible apply State.moduleCommand_kept hm
    | with_reducible apply Kept.ite
    | with_reducible split
    | split

theorem execProofCheckNow_frame (t : Time) (q : Req) (s : State) {s2 : State} {mm : Nat} (hm : Sub 0x7fffffffffffffffffff70fffe6 mm) (he : execProofCheckNow t q s = .next s2) : Kept mm (State.begin t s) s2 := by
  unfold execProofCheckNow at he
  have h : Kept mm (State.begin t s) (State.begin t s) := Kept.refl _ _
  generalize State.begin t s = s0 at h he
  (try dsimp only at he)
  have he : _ = s2 := Host.Outcome.next.inj he
  subst he
  repeat' first
    | (intro x; refine Kept.bind (s0 := s0) (m := mm) (x := x) ?_ ?_; subst x; rotate_left; clear_value x; intro _)
    | (intro y; clear_value y)
    | intro _
    | with_reducible assumption
    | with_reducible lift_lets -underBinder
    | with_reducible apply State.moduleCommand_kept hm
    | with_reducible apply Kept.ite
    | with_reducible split
    | split

theorem execConfigurationStoreComplete_frame (t : Time) (s : State) {s2 : State} {mm : Nat} (hm : Sub 0x400000000000000000004038000 mm) (he : execConfigurationStoreComplete t s = .next s2) : Kept mm (State.begin t s) s2 := by
  unfold execConfigurationStoreComplete at he
  have h : Kept mm (State.begin t s) (State.begin t s) := Kept.refl _ _
  generalize State.begin t s = s0 at h he
  (try dsimp only at he)
  have he : _ = s2 := Host.Outcome.next.inj he
  subst he
  repeat' first
    | (intro x; refine Kept.bind (s0 := s0) (m := mm) (x := x) ?_ ?_; subst x; rotate_left; clear_value x; intro _)
    | (intro y; clear_value y)
    | intro _
    | with_reducible assumption
    | with_reducible lift_lets -underBinder
    | with_reducible apply State.storeComplete_kept hm
    | with_reducible apply Kept.ite
    | with_reducible split
    | split

theorem execSupplyLoss_frame (t : Time) (mv : Nat) (s : State) {s2 : State} {mm : Nat} (hm : Sub 0x7fffffffffff00040028307e966 mm) (he : execSupplyLoss t mv s = .next s2) : Kept mm (State.begin t s) s2 := by
  unfold execSupplyLoss at he
  have h : Kept mm (State.begin t s) (State.begin t s) := Kept.refl _ _
  generalize State.begin t s = s0 at h he
  (try dsimp only at he)
  have he : _ = s2 := Host.Outcome.next.inj he
  subst he
  repeat' first
    | (intro x; refine Kept.bind (s0 := s0) (m := mm) (x := x) ?_ ?_; subst x; rotate_left; clear_value x; intro _)
    | (intro y; clear_value y)
    | intro _
    | with_reducible assumption
    | with_reducible lift_lets -underBinder
    | with_reducible apply State.supplyLoss_kept hm
    | with_reducible apply Kept.ite
    | with_reducible split
    | split

theorem execVinDip_frame (t : Time) (s : State) {s2 : State} {mm : Nat} (hm : Sub 0x80000000 mm) (he : execVinDip t s = .next s2) : Kept mm (State.begin t s) s2 := by
  unfold execVinDip at he
  have h : Kept mm (State.begin t s) (State.begin t s) := Kept.refl _ _
  generalize State.begin t s = s0 at h he
  (try dsimp only at he)
  have he : _ = s2 := Host.Outcome.next.inj he
  subst he
  repeat' first
    | (intro x; refine Kept.bind (s0 := s0) (m := mm) (x := x) ?_ ?_; subst x; rotate_left; clear_value x; intro _)
    | (intro y; clear_value y)
    | intro _
    | with_reducible assumption
    | with_reducible lift_lets -underBinder
    | with_reducible refine State.inc_kept ?_ ?_
    | exact Sub.bit (Sub.trans (by decide) hm)
    | with_reducible apply Kept.ite
    | with_reducible split
    | split

theorem execHoldUpPhase2_frame (t : Time) (s : State) {s2 : State} {mm : Nat} (hm : Sub 0x7fffffffffffffffffff307ffe6 mm) (he : execHoldUpPhase2 t s = .next s2) : Kept mm (State.begin t s) s2 := by
  unfold execHoldUpPhase2 at he
  have h : Kept mm (State.begin t s) (State.begin t s) := Kept.refl _ _
  generalize State.begin t s = s0 at h he
  (try dsimp only at he)
  have he : _ = s2 := Host.Outcome.next.inj he
  subst he
  have k0 : Sub 0x0 mm := Sub.trans (by decide) hm
  repeat' first
    | (intro x; refine Kept.bind (s0 := s0) (m := mm) (x := x) ?_ ?_; subst x; rotate_left; clear_value x; intro _)
    | (intro y; clear_value y)
    | intro _
    | with_reducible assumption
    | with_reducible lift_lets -underBinder
    | with_reducible apply State.when_kept k0
    | with_reducible apply State.phase2_kept hm
    | with_reducible apply Kept.ite
    | with_reducible split
    | split

theorem execPark_frame (t : Time) (s : State) {s2 : State} {mm : Nat} (hm : Sub 0x7fffffffffffffffffffffffffe mm) (he : execPark t s = .next s2) : Kept mm (State.begin t s) s2 := by
  unfold execPark at he
  have h : Kept mm (State.begin t s) (State.begin t s) := Kept.refl _ _
  generalize State.begin t s = s0 at h he
  (try dsimp only at he)
  have he : _ = s2 := Host.Outcome.next.inj he
  subst he
  have k0 : Sub 0x0 mm := Sub.trans (by decide) hm
  repeat' first
    | (intro x; refine Kept.bind (s0 := s0) (m := mm) (x := x) ?_ ?_; subst x; rotate_left; clear_value x; intro _)
    | (intro y; clear_value y)
    | intro _
    | with_reducible assumption
    | with_reducible lift_lets -underBinder
    | with_reducible apply State.when_kept k0
    | with_reducible apply State.park_kept hm
    | with_reducible apply Kept.ite
    | with_reducible split
    | split

theorem execSupplyPresent_frame (t : Time) (mv : Nat) (s : State) {s2 : State} {mm : Nat} (hm : Sub 0x7fffffffffffffffffffff7fffe mm) (he : execSupplyPresent t mv s = .next s2) : Kept mm (State.begin t s) s2 := by
  unfold execSupplyPresent at he
  have h : Kept mm (State.begin t s) (State.begin t s) := Kept.refl _ _
  generalize State.begin t s = s0 at h he
  (try dsimp only at he)
  have he : _ = s2 := Host.Outcome.next.inj he
  subst he
  repeat' first
    | (intro x; refine Kept.bind (s0 := s0) (m := mm) (x := x) ?_ ?_; subst x; rotate_left; clear_value x; intro _)
    | (intro y; clear_value y)
    | intro _
    | with_reducible assumption
    | with_reducible lift_lets -underBinder
    | with_reducible apply State.supplyPresent_kept hm
    | with_reducible apply Kept.ite
    | with_reducible split
    | split

theorem execStoreExhausted_frame (t : Time) (s : State) {s2 : State} {mm : Nat} (hm : Sub 0x7fffffffffffffffffffff7fffe mm) (he : execStoreExhausted t s = .next s2) : Kept mm (State.begin t s) s2 := by
  unfold execStoreExhausted at he
  have h : Kept mm (State.begin t s) (State.begin t s) := Kept.refl _ _
  generalize State.begin t s = s0 at h he
  (try dsimp only at he)
  have he : _ = s2 := Host.Outcome.next.inj he
  subst he
  have k0 : Sub 0x0 mm := Sub.trans (by decide) hm
  repeat' first
    | (intro x; refine Kept.bind (s0 := s0) (m := mm) (x := x) ?_ ?_; subst x; rotate_left; clear_value x; intro _)
    | (intro y; clear_value y)
    | intro _
    | with_reducible assumption
    | with_reducible lift_lets -underBinder
    | with_reducible apply State.when_kept k0
    | with_reducible apply State.darken_kept hm
    | with_reducible apply Kept.ite
    | with_reducible split
    | split

theorem execPowerOn_frame (t : Time) (mv : Nat) (s : State) {s2 : State} {mm : Nat} (hm : Sub 0x7fffffffffffffffffffff7fffe mm) (he : execPowerOn t mv s = .next s2) : Kept mm (State.begin t s) s2 := by
  unfold execPowerOn at he
  have h : Kept mm (State.begin t s) (State.begin t s) := Kept.refl _ _
  generalize State.begin t s = s0 at h he
  (try dsimp only at he)
  have he : _ = s2 := Host.Outcome.next.inj he
  subst he
  repeat' first
    | (intro x; refine Kept.bind (s0 := s0) (m := mm) (x := x) ?_ ?_; subst x; rotate_left; clear_value x; intro _)
    | (intro y; clear_value y)
    | intro _
    | with_reducible assumption
    | with_reducible lift_lets -underBinder
    | with_reducible apply State.powerOn_kept hm
    | with_reducible apply Kept.ite
    | with_reducible split
    | split

theorem execResetN_frame (t : Time) (s : State) {s2 : State} {mm : Nat} (hm : Sub 0x7fffffffffffffffffffff7fffe mm) (he : execResetN t s = .next s2) : Kept mm (State.begin t s) s2 := by
  unfold execResetN at he
  have h : Kept mm (State.begin t s) (State.begin t s) := Kept.refl _ _
  generalize State.begin t s = s0 at h he
  (try dsimp only at he)
  have he : _ = s2 := Host.Outcome.next.inj he
  subst he
  have k0 : Sub 0x0 mm := Sub.trans (by decide) hm
  repeat' first
    | (intro x; refine Kept.bind (s0 := s0) (m := mm) (x := x) ?_ ?_; subst x; rotate_left; clear_value x; intro _)
    | (intro y; clear_value y)
    | intro _
    | with_reducible assumption
    | with_reducible lift_lets -underBinder
    | with_reducible apply State.when_kept k0
    | with_reducible apply State.restart_kept hm
    | with_reducible apply Kept.ite
    | with_reducible split
    | split

theorem execInrushTimeout_frame (t : Time) (s : State) {s2 : State} {mm : Nat} (hm : Sub 0x10000 mm) (he : execInrushTimeout t s = .next s2) : Kept mm (State.begin t s) s2 := by
  unfold execInrushTimeout at he
  have h : Kept mm (State.begin t s) (State.begin t s) := Kept.refl _ _
  generalize State.begin t s = s0 at h he
  (try dsimp only at he)
  have he : _ = s2 := Host.Outcome.next.inj he
  subst he
  repeat' first
    | (intro x; refine Kept.bind (s0 := s0) (m := mm) (x := x) ?_ ?_; subst x; rotate_left; clear_value x; intro _)
    | (intro y; clear_value y)
    | intro _
    | with_reducible assumption
    | with_reducible lift_lets -underBinder
    | with_reducible apply State.inrushTimeout_kept hm
    | with_reducible apply Kept.ite
    | with_reducible split
    | split

theorem execInrushRetry_frame (t : Time) (s : State) {s2 : State} {mm : Nat} (hm : Sub 0x80010000 mm) (he : execInrushRetry t s = .next s2) : Kept mm (State.begin t s) s2 := by
  unfold execInrushRetry at he
  have h : Kept mm (State.begin t s) (State.begin t s) := Kept.refl _ _
  generalize State.begin t s = s0 at h he
  (try dsimp only at he)
  have he : _ = s2 := Host.Outcome.next.inj he
  subst he
  repeat' first
    | (intro x; refine Kept.bind (s0 := s0) (m := mm) (x := x) ?_ ?_; subst x; rotate_left; clear_value x; intro _)
    | (intro y; clear_value y)
    | intro _
    | with_reducible assumption
    | with_reducible lift_lets -underBinder
    | with_reducible apply State.inrushRetry_kept hm
    | with_reducible apply Kept.ite
    | with_reducible split
    | split

theorem execInsertionComplete_frame (t : Time) (slot msel : Fin 8) (s : State) {s2 : State} {mm : Nat} (hm : Sub 0x7fffffffffffffffffff307ffe6 mm) (he : execInsertionComplete t slot msel s = .next s2) : Kept mm (State.begin t s) s2 := by
  unfold execInsertionComplete at he
  have h : Kept mm (State.begin t s) (State.begin t s) := Kept.refl _ _
  generalize State.begin t s = s0 at h he
  (try dsimp only at he)
  have he : _ = s2 := Host.Outcome.next.inj he
  subst he
  repeat' first
    | (intro x; refine Kept.bind (s0 := s0) (m := mm) (x := x) ?_ ?_; subst x; rotate_left; clear_value x; intro _)
    | (intro y; clear_value y)
    | intro _
    | with_reducible assumption
    | with_reducible lift_lets -underBinder
    | with_reducible apply State.insertion_kept hm
    | with_reducible apply Kept.ite
    | with_reducible split
    | split

theorem execLatchLeverOpened_frame (t : Time) (s : State) {s2 : State} {mm : Nat} (hm : Sub 0x7fffffffffffffffffff307ffe6 mm) (he : execLatchLeverOpened t s = .next s2) : Kept mm (State.begin t s) s2 := by
  unfold execLatchLeverOpened at he
  have h : Kept mm (State.begin t s) (State.begin t s) := Kept.refl _ _
  generalize State.begin t s = s0 at h he
  (try dsimp only at he)
  have he : _ = s2 := Host.Outcome.next.inj he
  subst he
  repeat' first
    | (intro x; refine Kept.bind (s0 := s0) (m := mm) (x := x) ?_ ?_; subst x; rotate_left; clear_value x; intro _)
    | (intro y; clear_value y)
    | intro _
    | with_reducible assumption
    | with_reducible lift_lets -underBinder
    | with_reducible apply State.leverOpened_kept hm
    | with_reducible apply Kept.ite
    | with_reducible split
    | split

theorem execRemovalTimeout_frame (t : Time) (s : State) {s2 : State} {mm : Nat} (hm : Sub 0x7fffffffffffffffffff003ffa6 mm) (he : execRemovalTimeout t s = .next s2) : Kept mm (State.begin t s) s2 := by
  unfold execRemovalTimeout at he
  have h : Kept mm (State.begin t s) (State.begin t s) := Kept.refl _ _
  generalize State.begin t s = s0 at h he
  (try dsimp only at he)
  have he : _ = s2 := Host.Outcome.next.inj he
  subst he
  repeat' first
    | (intro x; refine Kept.bind (s0 := s0) (m := mm) (x := x) ?_ ?_; subst x; rotate_left; clear_value x; intro _)
    | (intro y; clear_value y)
    | intro _
    | with_reducible assumption
    | with_reducible lift_lets -underBinder
    | with_reducible apply State.removalTimeout_kept hm
    | with_reducible apply Kept.ite
    | with_reducible split
    | split

theorem execHeartbeat_frame (t : Time) (slot : RackSlot) (m : HeartbeatMsg) (s : State) {s2 : State} {mm : Nat} (hm : Sub 0x7fffffffffffffffffff307ffe6 mm) (he : execHeartbeat t slot m s = .next s2) : Kept mm (State.begin t s) s2 := by
  unfold execHeartbeat at he
  have h : Kept mm (State.begin t s) (State.begin t s) := Kept.refl _ _
  generalize State.begin t s = s0 at h he
  (try dsimp only at he)
  have he : _ = s2 := Host.Outcome.next.inj he
  subst he
  have k0 : Sub 0x7ffffffffffffff48000000e000 mm := Sub.trans (by decide) hm
  have k1 : Sub 0x0 mm := Sub.trans (by decide) hm
  have k2 : Sub 0x8000 mm := Sub.trans (by decide) hm
  have k3 : Sub 0x7fffffffffff00000000307e164 mm := Sub.trans (by decide) hm
  have k4 : Sub 0x7fffffffffffffffffff003ffa6 mm := Sub.trans (by decide) hm
  repeat' first
    | (intro x; refine Kept.bind (s0 := s0) (m := mm) (x := x) ?_ ?_; subst x; rotate_left; clear_value x; intro _)
    | (intro y; clear_value y)
    | intro _
    | with_reducible assumption
    | with_reducible lift_lets -underBinder
    | with_reducible apply State.heartbeat_kept k0
    | with_reducible apply State.when_kept k1
    | with_reducible apply State.storeHandover_kept k2
    | with_reducible apply State.handoverFailed_kept k3
    | with_reducible apply State.removalProgress_kept k4
    | with_reducible apply Kept.ite
    | with_reducible split
    | split

theorem execFrameDeparture_frame (t : Time) (s : State) {s2 : State} {mm : Nat} (hm : Sub 0x7fffffffffffffffffff307ffe6 mm) (he : execFrameDeparture t s = .next s2) : Kept mm (State.begin t s) s2 := by
  unfold execFrameDeparture at he
  have h : Kept mm (State.begin t s) (State.begin t s) := Kept.refl _ _
  generalize State.begin t s = s0 at h he
  (try dsimp only at he)
  have he : _ = s2 := Host.Outcome.next.inj he
  subst he
  have k0 : Sub 0x7fffffffffff00040000307e364 mm := Sub.trans (by decide) hm
  have k1 : Sub 0x7fffffffffff00000000307e164 mm := Sub.trans (by decide) hm
  have k2 : Sub 0x7ffffffffc00000000000000204 mm := Sub.trans (by decide) hm
  have k3 : Sub 0x7fffffffffffffffffff003ffa6 mm := Sub.trans (by decide) hm
  repeat' first
    | (intro x; refine Kept.bind (s0 := s0) (m := mm) (x := x) ?_ ?_; subst x; rotate_left; clear_value x; intro _)
    | (intro y; clear_value y)
    | intro _
    | with_reducible assumption
    | with_reducible lift_lets -underBinder
    | with_reducible apply State.authorityAt_kept k0
    | with_reducible apply State.handoverFailed_kept k1
    | with_reducible apply State.frameDeparture_kept k2
    | with_reducible apply State.removalProgress_kept k3
    | with_reducible apply Kept.ite
    | with_reducible split
    | split

theorem execLatchButton_frame (t : Time) (s : State) {s2 : State} {mm : Nat} (hm : Sub 0x10000 mm) (he : execLatchButton t s = .next s2) : Kept mm (State.begin t s) s2 := by
  unfold execLatchButton at he
  have h : Kept mm (State.begin t s) (State.begin t s) := Kept.refl _ _
  generalize State.begin t s = s0 at h he
  (try dsimp only at he)
  have he : _ = s2 := Host.Outcome.next.inj he
  subst he
  have k0 : Sub 0x0 mm := Sub.trans (by decide) hm
  repeat' first
    | (intro x; refine Kept.bind (s0 := s0) (m := mm) (x := x) ?_ ?_; subst x; rotate_left; clear_value x; intro _)
    | (intro y; clear_value y)
    | intro _
    | with_reducible assumption
    | with_reducible lift_lets -underBinder
    | with_reducible apply State.when_kept k0
    | with_reducible apply State.modPower_kept hm
    | with_reducible apply Kept.ite
    | with_reducible split
    | split

theorem execWithdrawnWithoutWarning_frame (t : Time) (s : State) {s2 : State} {mm : Nat} (hm : Sub 0x7fffffffffffffffffff307ffe6 mm) (he : execWithdrawnWithoutWarning t s = .next s2) : Kept mm (State.begin t s) s2 := by
  unfold execWithdrawnWithoutWarning at he
  have h : Kept mm (State.begin t s) (State.begin t s) := Kept.refl _ _
  generalize State.begin t s = s0 at h he
  (try dsimp only at he)
  have he : _ = s2 := Host.Outcome.next.inj he
  subst he
  repeat' first
    | (intro x; refine Kept.bind (s0 := s0) (m := mm) (x := x) ?_ ?_; subst x; rotate_left; clear_value x; intro _)
    | (intro y; clear_value y)
    | intro _
    | with_reducible assumption
    | with_reducible lift_lets -underBinder
    | with_reducible apply State.withdrawn_kept hm
    | with_reducible apply Kept.ite
    | with_reducible split
    | split

theorem execScrubPass_frame (t : Time) (mem : Fin 4) (errs : List MemUnit) (s : State) {s2 : State} {mm : Nat} (hm : Sub 0x7fffffffffffffffffff307ffe6 mm) (he : execScrubPass t mem errs s = .next s2) : Kept mm (State.begin t s) s2 := by
  unfold execScrubPass at he
  have h : Kept mm (State.begin t s) (State.begin t s) := Kept.refl _ _
  generalize State.begin t s = s0 at h he
  (try dsimp only at he)
  have he : _ = s2 := Host.Outcome.next.inj he
  subst he
  repeat' first
    | (intro x; refine Kept.bind (s0 := s0) (m := mm) (x := x) ?_ ?_; subst x; rotate_left; clear_value x; intro _)
    | (intro y; clear_value y)
    | intro _
    | with_reducible assumption
    | with_reducible lift_lets -underBinder
    | with_reducible apply State.scrubPass_kept hm
    | with_reducible apply Kept.ite
    | with_reducible split
    | split

theorem execUncorrectableError_frame (t : Time) (mem : Fin 5) (addr : Nat) (u : MemUnit) (cycle : Option Batch) (s : State) {s2 : State} {mm : Nat} (hm : Sub 0x7fffffffffffffffffff307fff6 mm) (he : execUncorrectableError t mem addr u cycle s = .next s2) : Kept mm (State.begin t s) s2 := by
  unfold execUncorrectableError at he
  have h : Kept mm (State.begin t s) (State.begin t s) := Kept.refl _ _
  generalize State.begin t s = s0 at h he
  (try dsimp only at he)
  have he : _ = s2 := Host.Outcome.next.inj he
  subst he
  have k0 : Sub 0x7fffffc00000000000000000044 mm := Sub.trans (by decide) hm
  repeat' first
    | (intro x; refine Kept.bind (s0 := s0) (m := mm) (x := x) ?_ ?_; subst x; rotate_left; clear_value x; intro _)
    | (intro y; clear_value y)
    | intro _
    | with_reducible assumption
    | with_reducible lift_lets -underBinder
    | with_reducible apply State.uncorrectable_kept hm
    | with_reducible apply State.dispatch_kept k0
    | with_reducible apply Kept.ite
    | with_reducible split
    | split

theorem execSelfTestComplete_frame (t : Time) (failed : List (Nat × Nat)) (s : State) {s2 : State} {mm : Nat} (hm : Sub 0x7fffffffffffffffe00040be1e4 mm) (he : execSelfTestComplete t failed s = .next s2) : Kept mm (State.begin t s) s2 := by
  unfold execSelfTestComplete at he
  have h : Kept mm (State.begin t s) (State.begin t s) := Kept.refl _ _
  generalize State.begin t s = s0 at h he
  (try dsimp only at he)
  have he : _ = s2 := Host.Outcome.next.inj he
  subst he
  repeat' first
    | (intro x; refine Kept.bind (s0 := s0) (m := mm) (x := x) ?_ ?_; subst x; rotate_left; clear_value x; intro _)
    | (intro y; clear_value y)
    | intro _
    | with_reducible assumption
    | with_reducible lift_lets -underBinder
    | with_reducible apply State.selfTestComplete_kept hm
    | with_reducible apply Kept.ite
    | with_reducible split
    | split

theorem execJunctionWarning_frame (t : Time) (d : DomainNo) (temp : Int) (s : State) {s2 : State} {mm : Nat} (hm : Sub 0x80010000 mm) (he : execJunctionWarning t d temp s = .next s2) : Kept mm (State.begin t s) s2 := by
  unfold execJunctionWarning at he
  have h : Kept mm (State.begin t s) (State.begin t s) := Kept.refl _ _
  generalize State.begin t s = s0 at h he
  (try dsimp only at he)
  have he : _ = s2 := Host.Outcome.next.inj he
  subst he
  repeat' first
    | (intro x; refine Kept.bind (s0 := s0) (m := mm) (x := x) ?_ ?_; subst x; rotate_left; clear_value x; intro _)
    | (intro y; clear_value y)
    | intro _
    | with_reducible assumption
    | with_reducible lift_lets -underBinder
    | with_reducible apply State.junctionWarning_kept hm
    | with_reducible apply Kept.ite
    | with_reducible split
    | split

theorem execJunctionFault_frame (t : Time) (d : DomainNo) (temp : Int) (s : State) {s2 : State} {mm : Nat} (hm : Sub 0x7fffffffffffffffffff307ffe6 mm) (he : execJunctionFault t d temp s = .next s2) : Kept mm (State.begin t s) s2 := by
  unfold execJunctionFault at he
  have h : Kept mm (State.begin t s) (State.begin t s) := Kept.refl _ _
  generalize State.begin t s = s0 at h he
  (try dsimp only at he)
  have he : _ = s2 := Host.Outcome.next.inj he
  subst he
  repeat' first
    | (intro x; refine Kept.bind (s0 := s0) (m := mm) (x := x) ?_ ?_; subst x; rotate_left; clear_value x; intro _)
    | (intro y; clear_value y)
    | intro _
    | with_reducible assumption
    | with_reducible lift_lets -underBinder
    | with_reducible apply State.junctionFault_kept hm
    | with_reducible apply Kept.ite
    | with_reducible split
    | split

theorem execLockHardwareLimits_frame (t : Time) (q : Req) (s : State) {s2 : State} {mm : Nat} (hm : Sub 0x7fffffc0000000200000002e004 mm) (he : execLockHardwareLimits t q s = .next s2) : Kept mm (State.begin t s) s2 := by
  unfold execLockHardwareLimits at he
  have h : Kept mm (State.begin t s) (State.begin t s) := Kept.refl _ _
  generalize State.begin t s = s0 at h he
  (try dsimp only at he)
  have he : _ = s2 := Host.Outcome.next.inj he
  subst he
  have k0 : Sub 0x7fffffc0000000000000002e004 mm := Sub.trans (by decide) hm
  have k1 : Sub 0x7fffd000000000200000000e000 mm := Sub.trans (by decide) hm
  repeat' first
    | (intro x; refine Kept.bind (s0 := s0) (m := mm) (x := x) ?_ ?_; subst x; rotate_left; clear_value x; intro _)
    | (intro y; clear_value y)
    | intro _
    | with_reducible assumption
    | with_reducible lift_lets -underBinder
    | with_reducible apply State.hostWrite_kept k0
    | with_reducible apply (lockEff_kept k1).all
    | with_reducible apply lockEff_kept k1
    | with_reducible apply Kept.ite
    | with_reducible split
    | split

theorem execLockSecurityConfiguration_frame (t : Time) (q : Req) (s : State) {s2 : State} {mm : Nat} (hm : Sub 0x7fffffc0000000200000002e004 mm) (he : execLockSecurityConfiguration t q s = .next s2) : Kept mm (State.begin t s) s2 := by
  unfold execLockSecurityConfiguration at he
  have h : Kept mm (State.begin t s) (State.begin t s) := Kept.refl _ _
  generalize State.begin t s = s0 at h he
  (try dsimp only at he)
  have he : _ = s2 := Host.Outcome.next.inj he
  subst he
  have k0 : Sub 0x7fffffc0000000000000002e004 mm := Sub.trans (by decide) hm
  have k1 : Sub 0x7fffd000000000200000000e000 mm := Sub.trans (by decide) hm
  repeat' first
    | (intro x; refine Kept.bind (s0 := s0) (m := mm) (x := x) ?_ ?_; subst x; rotate_left; clear_value x; intro _)
    | (intro y; clear_value y)
    | intro _
    | with_reducible assumption
    | with_reducible lift_lets -underBinder
    | with_reducible apply State.hostWrite_kept k0
    | with_reducible apply (lockEff_kept k1).all
    | with_reducible apply lockEff_kept k1
    | with_reducible apply Kept.ite
    | with_reducible split
    | split

theorem execRoleKey_frame (t : Time) (q : Req) (r : Role) (key : List Byte) (s : State) {s2 : State} {mm : Nat} (hm : Sub 0x7fffd000000000400000002e002 mm) (he : execRoleKey t q r key s = .next s2) : Kept mm (State.begin t s) s2 := by
  unfold execRoleKey at he
  have h : Kept mm (State.begin t s) (State.begin t s) := Kept.refl _ _
  generalize State.begin t s = s0 at h he
  (try dsimp only at he)
  have he : _ = s2 := Host.Outcome.next.inj he
  subst he
  repeat' first
    | (intro x; refine Kept.bind (s0 := s0) (m := mm) (x := x) ?_ ?_; subst x; rotate_left; clear_value x; intro _)
    | (intro y; clear_value y)
    | intro _
    | with_reducible assumption
    | with_reducible lift_lets -underBinder
    | with_reducible apply State.writeKey_kept hm
    | with_reducible apply Kept.ite
    | with_reducible split
    | split

theorem execFirmwareUpdate_frame (t : Time) (q : Req) (img : List Byte) (s : State) {s2 : State} {mm : Nat} (hm : Sub 0x7fffffc000000000000040ae004 mm) (he : execFirmwareUpdate t q img s = .next s2) : Kept mm (State.begin t s) s2 := by
  unfold execFirmwareUpdate at he
  have h : Kept mm (State.begin t s) (State.begin t s) := Kept.refl _ _
  generalize State.begin t s = s0 at h he
  (try dsimp only at he)
  have he : _ = s2 := Host.Outcome.next.inj he
  subst he
  have k0 : Sub 0x7fffffc0000000000000002e004 mm := Sub.trans (by decide) hm
  have k1 : Sub 0x40a8000 mm := Sub.trans (by decide) hm
  repeat' first
    | (intro x; refine Kept.bind (s0 := s0) (m := mm) (x := x) ?_ ?_; subst x; rotate_left; clear_value x; intro _)
    | (intro y; clear_value y)
    | intro _
    | with_reducible assumption
    | with_reducible lift_lets -underBinder
    | with_reducible apply State.hostBlob_kept k0
    | with_reducible apply (firmwareEff_kept k1).all
    | with_reducible apply firmwareEff_kept k1
    | with_reducible apply Kept.ite
    | with_reducible split
    | split

theorem execDictionaryJob_frame (t : Time) (b : Batch) (s : State) {s2 : State} {mm : Nat} (hm : Sub 0x7fffffffffffffffffffffffffe mm) (he : execDictionaryJob t b s = .next s2) : Kept mm (State.begin t s) s2 := by
  unfold execDictionaryJob at he
  have h : Kept mm (State.begin t s) (State.begin t s) := Kept.refl _ _
  generalize State.begin t s = s0 at h he
  (try dsimp only at he)
  have he : _ = s2 := Host.Outcome.next.inj he
  subst he
  repeat' first
    | (intro x; refine Kept.bind (s0 := s0) (m := mm) (x := x) ?_ ?_; subst x; rotate_left; clear_value x; intro _)
    | (intro y; clear_value y)
    | intro _
    | with_reducible assumption
    | with_reducible lift_lets -underBinder
    | with_reducible apply State.dictionaryJob_kept hm
    | with_reducible apply Kept.ite
    | with_reducible split
    | split

theorem execTransferTimeout_frame (t : Time) (index sub : Nat) (s : State) {s2 : State} {mm : Nat} (hm : Sub 0x20000 mm) (he : execTransferTimeout t index sub s = .next s2) : Kept mm (State.begin t s) s2 := by
  unfold execTransferTimeout at he
  have h : Kept mm (State.begin t s) (State.begin t s) := Kept.refl _ _
  generalize State.begin t s = s0 at h he
  (try dsimp only at he)
  have he : _ = s2 := Host.Outcome.next.inj he
  subst he
  have k0 : Sub 0x0 mm := Sub.trans (by decide) hm
  repeat' first
    | (intro x; refine Kept.bind (s0 := s0) (m := mm) (x := x) ?_ ?_; subst x; rotate_left; clear_value x; intro _)
    | (intro y; clear_value y)
    | intro _
    | with_reducible assumption
    | with_reducible lift_lets -underBinder
    | with_reducible apply State.when_kept k0
    | with_reducible apply State.dropTransfer_kept hm
    | with_reducible apply Kept.ite
    | with_reducible split
    | split

theorem execSnapshotRelease_frame (t : Time) (sid index sub : Nat) (s : State) {s2 : State} {mm : Nat} (hm : Sub 0x20000 mm) (he : execSnapshotRelease t sid index sub s = .next s2) : Kept mm (State.begin t s) s2 := by
  unfold execSnapshotRelease at he
  have h : Kept mm (State.begin t s) (State.begin t s) := Kept.refl _ _
  generalize State.begin t s = s0 at h he
  (try dsimp only at he)
  have he : _ = s2 := Host.Outcome.next.inj he
  subst he
  repeat' first
    | (intro x; refine Kept.bind (s0 := s0) (m := mm) (x := x) ?_ ?_; subst x; rotate_left; clear_value x; intro _)
    | (intro y; clear_value y)
    | intro _
    | with_reducible assumption
    | with_reducible lift_lets -underBinder
    | with_reducible apply State.modSrv_kept hm
    | with_reducible apply Kept.ite
    | with_reducible split
    | split

theorem execOpen_frame (t : Time) (d : Datagram) (s : State) {s2 : State} {mm : Nat} (hm : Sub 0x7fffd00000004100000000ae000 mm) (he : execOpen t d s = .next s2) : Kept mm (State.begin t s) s2 := by
  unfold execOpen at he
  have h : Kept mm (State.begin t s) (State.begin t s) := Kept.refl _ _
  generalize State.begin t s = s0 at h he
  (try dsimp only at he)
  have he : _ = s2 := Host.Outcome.next.inj he
  subst he
  have k0 : Sub 0x400000000020000 mm := Sub.trans (by decide) hm
  have k1 : Sub 0x7fffd00000000100000000ae000 mm := Sub.trans (by decide) hm
  repeat' first
    | (intro x; refine Kept.bind (s0 := s0) (m := mm) (x := x) ?_ ?_; subst x; rotate_left; clear_value x; intro _)
    | (intro y; clear_value y)
    | intro _
    | with_reducible assumption
    | with_reducible lift_lets -underBinder
    | with_reducible apply State.arriving_kept k0
    | with_reducible apply State.openSession_kept k1
    | with_reducible apply Kept.ite
    | with_reducible split
    | split

theorem execProve_frame (t : Time) (d : Datagram) (s : State) {s2 : State} {mm : Nat} (hm : Sub 0x7fffd00000004100000000ae000 mm) (he : execProve t d s = .next s2) : Kept mm (State.begin t s) s2 := by
  unfold execProve at he
  have h : Kept mm (State.begin t s) (State.begin t s) := Kept.refl _ _
  generalize State.begin t s = s0 at h he
  (try dsimp only at he)
  have he : _ = s2 := Host.Outcome.next.inj he
  subst he
  have k0 : Sub 0x410000000028000 mm := Sub.trans (by decide) hm
  have k1 : Sub 0x7fffd00000000100000000ae000 mm := Sub.trans (by decide) hm
  repeat' first
    | (intro x; refine Kept.bind (s0 := s0) (m := mm) (x := x) ?_ ?_; subst x; rotate_left; clear_value x; intro _)
    | (intro y; clear_value y)
    | intro _
    | with_reducible assumption
    | with_reducible lift_lets -underBinder
    | with_reducible apply State.request_kept k0
    | with_reducible apply State.prove_kept k1
    | with_reducible apply Kept.ite
    | with_reducible split
    | split

theorem execClose_frame (t : Time) (d : Datagram) (s : State) {s2 : State} {mm : Nat} (hm : Sub 0x410000000028000 mm) (he : execClose t d s = .next s2) : Kept mm (State.begin t s) s2 := by
  unfold execClose at he
  have h : Kept mm (State.begin t s) (State.begin t s) := Kept.refl _ _
  generalize State.begin t s = s0 at h he
  (try dsimp only at he)
  have he : _ = s2 := Host.Outcome.next.inj he
  subst he
  have k0 : Sub 0x0 mm := Sub.trans (by decide) hm
  have k1 : Sub 0x28000 mm := Sub.trans (by decide) hm
  have k2 : Sub 0x20000 mm := Sub.trans (by decide) hm
  repeat' first
    | (intro x; refine Kept.bind (s0 := s0) (m := mm) (x := x) ?_ ?_; subst x; rotate_left; clear_value x; intro _)
    | (intro y; clear_value y)
    | intro _
    | with_reducible assumption
    | with_reducible lift_lets -underBinder
    | with_reducible apply State.request_kept hm
    | with_reducible apply State.answer_kept k0
    | with_reducible apply State.sessionReply_kept k1
    | with_reducible apply State.endSession_kept k2
    | with_reducible apply Kept.ite
    | with_reducible split
    | split

theorem execKeepAlive_frame (t : Time) (d : Datagram) (s : State) {s2 : State} {mm : Nat} (hm : Sub 0x410000000028000 mm) (he : execKeepAlive t d s = .next s2) : Kept mm (State.begin t s) s2 := by
  unfold execKeepAlive at he
  have h : Kept mm (State.begin t s) (State.begin t s) := Kept.refl _ _
  generalize State.begin t s = s0 at h he
  (try dsimp only at he)
  have he : _ = s2 := Host.Outcome.next.inj he
  subst he
  have k0 : Sub 0x0 mm := Sub.trans (by decide) hm
  repeat' first
    | (intro x; refine Kept.bind (s0 := s0) (m := mm) (x := x) ?_ ?_; subst x; rotate_left; clear_value x; intro _)
    | (intro y; clear_value y)
    | intro _
    | with_reducible assumption
    | with_reducible lift_lets -underBinder
    | with_reducible apply State.request_kept hm
    | with_reducible apply State.answer_kept k0
    | with_reducible apply Kept.ite
    | with_reducible split
    | split

theorem execReadEntry_frame (t : Time) (d : Datagram) (s : State) {s2 : State} {mm : Nat} (hm : Sub 0x7fffffffffffffffffffffffffe mm) (he : execReadEntry t d s = .next s2) : Kept mm (State.begin t s) s2 := by
  unfold execReadEntry at he
  have h : Kept mm (State.begin t s) (State.begin t s) := Kept.refl _ _
  generalize State.begin t s = s0 at h he
  (try dsimp only at he)
  have he : _ = s2 := Host.Outcome.next.inj he
  subst he
  repeat' first
    | (intro x; refine Kept.bind (s0 := s0) (m := mm) (x := x) ?_ ?_; subst x; rotate_left; clear_value x; intro _)
    | (intro y; clear_value y)
    | intro _
    | with_reducible assumption
    | with_reducible lift_lets -underBinder
    | with_reducible apply State.entryRequest_kept hm
    | with_reducible apply Kept.ite
    | with_reducible split
    | split

theorem execWriteEntry_frame (t : Time) (d : Datagram) (s : State) {s2 : State} {mm : Nat} (hm : Sub 0x7fffffffffffffffffffffffffe mm) (he : execWriteEntry t d s = .next s2) : Kept mm (State.begin t s) s2 := by
  unfold execWriteEntry at he
  have h : Kept mm (State.begin t s) (State.begin t s) := Kept.refl _ _
  generalize State.begin t s = s0 at h he
  (try dsimp only at he)
  have he : _ = s2 := Host.Outcome.next.inj he
  subst he
  repeat' first
    | (intro x; refine Kept.bind (s0 := s0) (m := mm) (x := x) ?_ ?_; subst x; rotate_left; clear_value x; intro _)
    | (intro y; clear_value y)
    | intro _
    | with_reducible assumption
    | with_reducible lift_lets -underBinder
    | with_reducible apply State.entryRequest_kept hm
    | with_reducible apply Kept.ite
    | with_reducible split
    | split

theorem execSegmentRead_frame (t : Time) (d : Datagram) (s : State) {s2 : State} {mm : Nat} (hm : Sub 0x7fffffffffffffffffffffffffe mm) (he : execSegmentRead t d s = .next s2) : Kept mm (State.begin t s) s2 := by
  unfold execSegmentRead at he
  have h : Kept mm (State.begin t s) (State.begin t s) := Kept.refl _ _
  generalize State.begin t s = s0 at h he
  (try dsimp only at he)
  have he : _ = s2 := Host.Outcome.next.inj he
  subst he
  repeat' first
    | (intro x; refine Kept.bind (s0 := s0) (m := mm) (x := x) ?_ ?_; subst x; rotate_left; clear_value x; intro _)
    | (intro y; clear_value y)
    | intro _
    | with_reducible assumption
    | with_reducible lift_lets -underBinder
    | with_reducible apply State.entryRequest_kept hm
    | with_reducible apply Kept.ite
    | with_reducible split
    | split

theorem execSegmentWrite_frame (t : Time) (d : Datagram) (s : State) {s2 : State} {mm : Nat} (hm : Sub 0x7fffffffffffffffffffffffffe mm) (he : execSegmentWrite t d s = .next s2) : Kept mm (State.begin t s) s2 := by
  unfold execSegmentWrite at he
  have h : Kept mm (State.begin t s) (State.begin t s) := Kept.refl _ _
  generalize State.begin t s = s0 at h he
  (try dsimp only at he)
  have he : _ = s2 := Host.Outcome.next.inj he
  subst he
  repeat' first
    | (intro x; refine Kept.bind (s0 := s0) (m := mm) (x := x) ?_ ?_; subst x; rotate_left; clear_value x; intro _)
    | (intro y; clear_value y)
    | intro _
    | with_reducible assumption
    | with_reducible lift_lets -underBinder
    | with_reducible apply State.entryRequest_kept hm
    | with_reducible apply Kept.ite
    | with_reducible split
    | split

theorem execGatewayReply_frame (t : Time) (m : GatewayRep) (s : State) {s2 : State} {mm : Nat} (hm : Sub 0x20000 mm) (he : execGatewayReply t m s = .next s2) : Kept mm (State.begin t s) s2 := by
  unfold execGatewayReply at he
  have h : Kept mm (State.begin t s) (State.begin t s) := Kept.refl _ _
  generalize State.begin t s = s0 at h he
  (try dsimp only at he)
  have he : _ = s2 := Host.Outcome.next.inj he
  subst he
  repeat' first
    | (intro x; refine Kept.bind (s0 := s0) (m := mm) (x := x) ?_ ?_; subst x; rotate_left; clear_value x; intro _)
    | (intro y; clear_value y)
    | intro _
    | with_reducible assumption
    | with_reducible lift_lets -underBinder
    | with_reducible apply State.gatewayReply_kept hm
    | with_reducible apply Kept.ite
    | with_reducible split
    | split

theorem execGatewayTimeout_frame (t : Time) (s : State) {s2 : State} {mm : Nat} (hm : Sub 0x28000 mm) (he : execGatewayTimeout t s = .next s2) : Kept mm (State.begin t s) s2 := by
  unfold execGatewayTimeout at he
  have h : Kept mm (State.begin t s) (State.begin t s) := Kept.refl _ _
  generalize State.begin t s = s0 at h he
  (try dsimp only at he)
  have he : _ = s2 := Host.Outcome.next.inj he
  subst he
  repeat' first
    | (intro x; refine Kept.bind (s0 := s0) (m := mm) (x := x) ?_ ?_; subst x; rotate_left; clear_value x; intro _)
    | (intro y; clear_value y)
    | intro _
    | with_reducible assumption
    | with_reducible lift_lets -underBinder
    | with_reducible apply State.gatewayTimeout_kept hm
    | with_reducible apply Kept.ite
    | with_reducible split
    | split

theorem execDictionaryGatewayFrame_frame (t : Time) (m : GatewayReq) (s : State) {s2 : State} {mm : Nat} (hm : Sub 0x7fffffffffffffffffffffffffe mm) (he : execDictionaryGatewayFrame t m s = .next s2) : Kept mm (State.begin t s) s2 := by
  unfold execDictionaryGatewayFrame at he
  have h : Kept mm (State.begin t s) (State.begin t s) := Kept.refl _ _
  generalize State.begin t s = s0 at h he
  (try dsimp only at he)
  have he : _ = s2 := Host.Outcome.next.inj he
  subst he
  repeat' first
    | (intro x; refine Kept.bind (s0 := s0) (m := mm) (x := x) ?_ ?_; subst x; rotate_left; clear_value x; intro _)
    | (intro y; clear_value y)
    | intro _
    | with_reducible assumption
    | with_reducible lift_lets -underBinder
    | with_reducible apply State.gatewayFrame_kept hm
    | with_reducible apply Kept.ite
    | with_reducible split
    | split

theorem execSessionIdleTimeout_frame (t : Time) (sid : Nat) (s : State) {s2 : State} {mm : Nat} (hm : Sub 0x20000 mm) (he : execSessionIdleTimeout t sid s = .next s2) : Kept mm (State.begin t s) s2 := by
  unfold execSessionIdleTimeout at he
  have h : Kept mm (State.begin t s) (State.begin t s) := Kept.refl _ _
  generalize State.begin t s = s0 at h he
  (try dsimp only at he)
  have he : _ = s2 := Host.Outcome.next.inj he
  subst he
  repeat' first
    | (intro x; refine Kept.bind (s0 := s0) (m := mm) (x := x) ?_ ?_; subst x; rotate_left; clear_value x; intro _)
    | (intro y; clear_value y)
    | intro _
    | with_reducible assumption
    | with_reducible lift_lets -underBinder
    | with_reducible apply State.idleTimeout_kept hm
    | with_reducible apply Kept.ite
    | with_reducible split
    | split

theorem execOpenNotProved_frame (t : Time) (sid : Nat) (s : State) {s2 : State} {mm : Nat} (hm : Sub 0x20000 mm) (he : execOpenNotProved t sid s = .next s2) : Kept mm (State.begin t s) s2 := by
  unfold execOpenNotProved at he
  have h : Kept mm (State.begin t s) (State.begin t s) := Kept.refl _ _
  generalize State.begin t s = s0 at h he
  (try dsimp only at he)
  have he : _ = s2 := Host.Outcome.next.inj he
  subst he
  repeat' first
    | (intro x; refine Kept.bind (s0 := s0) (m := mm) (x := x) ?_ ?_; subst x; rotate_left; clear_value x; intro _)
    | (intro y; clear_value y)
    | intro _
    | with_reducible assumption
    | with_reducible lift_lets -underBinder
    | with_reducible apply State.notProved_kept hm
    | with_reducible apply Kept.ite
    | with_reducible split
    | split

theorem execBlockTimeEnd_frame (t : Time) (src : Nat) (s : State) {s2 : State} {mm : Nat} (hm : Sub 0x20000 mm) (he : execBlockTimeEnd t src s = .next s2) : Kept mm (State.begin t s) s2 := by
  unfold execBlockTimeEnd at he
  have h : Kept mm (State.begin t s) (State.begin t s) := Kept.refl _ _
  generalize State.begin t s = s0 at h he
  (try dsimp only at he)
  have he : _ = s2 := Host.Outcome.next.inj he
  subst he
  repeat' first
    | (intro x; refine Kept.bind (s0 := s0) (m := mm) (x := x) ?_ ?_; subst x; rotate_left; clear_value x; intro _)
    | (intro y; clear_value y)
    | intro _
    | with_reducible assumption
    | with_reducible lift_lets -underBinder
    | with_reducible apply State.blockTimeEnd_kept hm
    | with_reducible apply Kept.ite
    | with_reducible split
    | split

theorem execTwinForwardedWrite_frame (t : Time) (index sub elem : Nat) (data : List Byte) (s : State) {s2 : State} {mm : Nat} (hm : Sub 0x7fffffffffffffffffffffffffe mm) (he : execTwinForwardedWrite t index sub elem data s = .next s2) : Kept mm (State.begin t s) s2 := by
  unfold execTwinForwardedWrite at he
  have h : Kept mm (State.begin t s) (State.begin t s) := Kept.refl _ _
  generalize State.begin t s = s0 at h he
  (try dsimp only at he)
  have he : _ = s2 := Host.Outcome.next.inj he
  subst he
  repeat' first
    | (intro x; refine Kept.bind (s0 := s0) (m := mm) (x := x) ?_ ?_; subst x; rotate_left; clear_value x; intro _)
    | (intro y; clear_value y)
    | intro _
    | with_reducible assumption
    | with_reducible lift_lets -underBinder
    | with_reducible apply State.forwarded_kept hm
    | with_reducible apply Kept.ite
    | with_reducible split
    | split

theorem execUsdoRequest_frame (t : Time) (k : CanNo) (m : UsdoReq) (s : State) {s2 : State} {mm : Nat} (hm : Sub 0x7fffffffffffffffffffffffffe mm) (he : execUsdoRequest t k m s = .next s2) : Kept mm (State.begin t s) s2 := by
  unfold execUsdoRequest at he
  have h : Kept mm (State.begin t s) (State.begin t s) := Kept.refl _ _
  generalize State.begin t s = s0 at h he
  (try dsimp only at he)
  have he : _ = s2 := Host.Outcome.next.inj he
  subst he
  repeat' first
    | (intro x; refine Kept.bind (s0 := s0) (m := mm) (x := x) ?_ ?_; subst x; rotate_left; clear_value x; intro _)
    | (intro y; clear_value y)
    | intro _
    | with_reducible assumption
    | with_reducible lift_lets -underBinder
    | with_reducible apply State.usdo_kept hm
    | with_reducible apply Kept.ite
    | with_reducible split
    | split

theorem execRpdo_frame (t : Time) (k : CanNo) (r : Fin 8) (data : List Byte) (s : State) {s2 : State} {mm : Nat} (hm : Sub 0x7fffffffffffffffffffffffffe mm) (he : execRpdo t k r data s = .next s2) : Kept mm (State.begin t s) s2 := by
  unfold execRpdo at he
  have h : Kept mm (State.begin t s) (State.begin t s) := Kept.refl _ _
  generalize State.begin t s = s0 at h he
  (try dsimp only at he)
  have he : _ = s2 := Host.Outcome.next.inj he
  subst he
  have k0 : Sub 0x7ffffffffffff00000000000000 mm := Sub.trans (by decide) hm
  repeat' first
    | (intro x; refine Kept.bind (s0 := s0) (m := mm) (x := x) ?_ ?_; subst x; rotate_left; clear_value x; intro _)
    | (intro y; clear_value y)
    | intro _
    | with_reducible assumption
    | with_reducible lift_lets -underBinder
    | with_reducible apply State.onCan_kept k0
    | with_reducible apply State.rpdo_kept hm
    | with_reducible apply Kept.ite
    | with_reducible split
    | split

theorem execSync_frame (t : Time) (k : CanNo) (s : State) {s2 : State} {mm : Nat} (hm : Sub 0x7ffffffffffff00000000040000 mm) (he : execSync t k s = .next s2) : Kept mm (State.begin t s) s2 := by
  unfold execSync at he
  have h : Kept mm (State.begin t s) (State.begin t s) := Kept.refl _ _
  generalize State.begin t s = s0 at h he
  (try dsimp only at he)
  have he : _ = s2 := Host.Outcome.next.inj he
  subst he
  have k0 : Sub 0x7ffffffffffff00000000000000 mm := Sub.trans (by decide) hm
  have k1 : Sub 0x40000 mm := Sub.trans (by decide) hm
  repeat' first
    | (intro x; refine Kept.bind (s0 := s0) (m := mm) (x := x) ?_ ?_; subst x; rotate_left; clear_value x; intro _)
    | (intro y; clear_value y)
    | intro _
    | with_reducible assumption
    | with_reducible lift_lets -underBinder
    | with_reducible apply State.onCan_kept k0
    | with_reducible apply State.canSync_kept k1
    | with_reducible apply Kept.ite
    | with_reducible split
    | split

theorem execTpdoEvent_frame (t : Time) (k : CanNo) (p : Fin 8) (timer : Bool) (s : State) {s2 : State} {mm : Nat} (hm : Sub 0x7ffffffffffff00000000040000 mm) (he : execTpdoEvent t k p timer s = .next s2) : Kept mm (State.begin t s) s2 := by
  unfold execTpdoEvent at he
  have h : Kept mm (State.begin t s) (State.begin t s) := Kept.refl _ _
  generalize State.begin t s = s0 at h he
  (try dsimp only at he)
  have he : _ = s2 := Host.Outcome.next.inj he
  subst he
  have k0 : Sub 0x7ffffffffffff00000000000000 mm := Sub.trans (by decide) hm
  have k1 : Sub 0x40000 mm := Sub.trans (by decide) hm
  repeat' first
    | (intro x; refine Kept.bind (s0 := s0) (m := mm) (x := x) ?_ ?_; subst x; rotate_left; clear_value x; intro _)
    | (intro y; clear_value y)
    | intro _
    | with_reducible assumption
    | with_reducible lift_lets -underBinder
    | with_reducible apply State.onCan_kept k0
    | with_reducible apply State.tpdoEvent_kept k1
    | with_reducible apply Kept.ite
    | with_reducible split
    | split

theorem execStartRemoteNode_frame (t : Time) (k : CanNo) (s : State) {s2 : State} {mm : Nat} (hm : Sub 0x7fffffffffffffffffff70fffe6 mm) (he : execStartRemoteNode t k s = .next s2) : Kept mm (State.begin t s) s2 := by
  unfold execStartRemoteNode at he
  have h : Kept mm (State.begin t s) (State.begin t s) := Kept.refl _ _
  generalize State.begin t s = s0 at h he
  (try dsimp only at he)
  have he : _ = s2 := Host.Outcome.next.inj he
  subst he
  have k0 : Sub 0x7ffffffffffff00000000000000 mm := Sub.trans (by decide) hm
  have k1 : Sub 0x0 mm := Sub.trans (by decide) hm
  repeat' first
    | (intro x; refine Kept.bind (s0 := s0) (m := mm) (x := x) ?_ ?_; subst x; rotate_left; clear_value x; intro _)
    | (intro y; clear_value y)
    | intro _
    | with_reducible assumption
    | with_reducible lift_lets -underBinder
    | with_reducible apply State.onCan_kept k0
    | with_reducible apply State.nmt_kept k0
    | with_reducible apply State.when_kept k1
    | with_reducible apply State.nmtCommand_kept hm
    | with_reducible apply Kept.ite
    | with_reducible split
    | split

theorem execEnterPreOperational_frame (t : Time) (k : CanNo) (s : State) {s2 : State} {mm : Nat} (hm : Sub 0x7fffffffffffffffffff70fffe6 mm) (he : execEnterPreOperational t k s = .next s2) : Kept mm (State.begin t s) s2 := by
  unfold execEnterPreOperational at he
  have h : Kept mm (State.begin t s) (State.begin t s) := Kept.refl _ _
  generalize State.begin t s = s0 at h he
  (try dsimp only at he)
  have he : _ = s2 := Host.Outcome.next.inj he
  subst he
  have k0 : Sub 0x7ffffffffffff00000000000000 mm := Sub.trans (by decide) hm
  have k1 : Sub 0x0 mm := Sub.trans (by decide) hm
  repeat' first
    | (intro x; refine Kept.bind (s0 := s0) (m := mm) (x := x) ?_ ?_; subst x; rotate_left; clear_value x; intro _)
    | (intro y; clear_value y)
    | intro _
    | with_reducible assumption
    | with_reducible lift_lets -underBinder
    | with_reducible apply State.onCan_kept k0
    | with_reducible apply State.nmt_kept k0
    | with_reducible apply State.when_kept k1
    | with_reducible apply State.nmtCommand_kept hm
    | with_reducible apply Kept.ite
    | with_reducible split
    | split

theorem execStopRemoteNode_frame (t : Time) (k : CanNo) (s : State) {s2 : State} {mm : Nat} (hm : Sub 0x7fffffffffffffffffff70fffe6 mm) (he : execStopRemoteNode t k s = .next s2) : Kept mm (State.begin t s) s2 := by
  unfold execStopRemoteNode at he
  have h : Kept mm (State.begin t s) (State.begin t s) := Kept.refl _ _
  generalize State.begin t s = s0 at h he
  (try dsimp only at he)
  have he : _ = s2 := Host.Outcome.next.inj he
  subst he
  have k0 : Sub 0x7ffffffffffff00000000000000 mm := Sub.trans (by decide) hm
  repeat' first
    | (intro x; refine Kept.bind (s0 := s0) (m := mm) (x := x) ?_ ?_; subst x; rotate_left; clear_value x; intro _)
    | (intro y; clear_value y)
    | intro _
    | with_reducible assumption
    | with_reducible lift_lets -underBinder
    | with_reducible apply State.onCan_kept k0
    | with_reducible apply State.nmt_kept k0
    | with_reducible apply State.nmtCommand_kept hm
    | with_reducible apply Kept.ite
    | with_reducible split
    | split

theorem execResetNode_frame (t : Time) (k : CanNo) (s : State) {s2 : State} {mm : Nat} (hm : Sub 0x7ffffffffffff00000000000000 mm) (he : execResetNode t k s = .next s2) : Kept mm (State.begin t s) s2 := by
  unfold execResetNode at he
  have h : Kept mm (State.begin t s) (State.begin t s) := Kept.refl _ _
  generalize State.begin t s = s0 at h he
  (try dsimp only at he)
  have he : _ = s2 := Host.Outcome.next.inj he
  subst he
  have kz : Sub (2 ^ 107 - 2 ^ (20 + zone 0x27100b00)) mm := Sub.trans (by decide) hm
  repeat' first
    | (intro x; refine Kept.bind (s0 := s0) (m := mm) (x := x) ?_ ?_; subst x; rotate_left; clear_value x; intro _)
    | (intro y; clear_value y)
    | intro _
    | with_reducible assumption
    | with_reducible lift_lets -underBinder
    | with_reducible apply State.onCan_kept hm
    | with_reducible refine State.inc_kept ?_ ?_
    | exact Sub.bit (Sub.trans (by decide) hm)
    | (refine Sub.from (b := 0x27100b00) kz ?_; (try simp only [key, bk, cpk]); omega)
    | with_reducible apply Kept.ite
    | with_reducible split
    | split

theorem execResetCommunication_frame (t : Time) (k : CanNo) (s : State) {s2 : State} {mm : Nat} (hm : Sub 0x7ffffffffffff00000000240000 mm) (he : execResetCommunication t k s = .next s2) : Kept mm (State.begin t s) s2 := by
  unfold execResetCommunication at he
  have h : Kept mm (State.begin t s) (State.begin t s) := Kept.refl _ _
  generalize State.begin t s = s0 at h he
  (try dsimp only at he)
  have he : _ = s2 := Host.Outcome.next.inj he
  subst he
  have k0 : Sub 0x7ffffffffffff00000000000000 mm := Sub.trans (by decide) hm
  have k1 : Sub 0x240000 mm := Sub.trans (by decide) hm
  repeat' first
    | (intro x; refine Kept.bind (s0 := s0) (m := mm) (x := x) ?_ ?_; subst x; rotate_left; clear_value x; intro _)
    | (intro y; clear_value y)
    | intro _
    | with_reducible assumption
    | with_reducible lift_lets -underBinder
    | with_reducible apply State.onCan_kept k0
    | with_reducible apply State.nmt_kept k0
    | with_reducible apply State.canRestart_kept k1
    | with_reducible apply Kept.ite
    | with_reducible split
    | split

theorem execProducerHeartbeat_frame (t : Time) (k : CanNo) (s : State) {s2 : State} {mm : Nat} (hm : Sub 0x7ffffffffffff00000000040000 mm) (he : execProducerHeartbeat t k s = .next s2) : Kept mm (State.begin t s) s2 := by
  unfold execProducerHeartbeat at he
  have h : Kept mm (State.begin t s) (State.begin t s) := Kept.refl _ _
  generalize State.begin t s = s0 at h he
  (try dsimp only at he)
  have he : _ = s2 := Host.Outcome.next.inj he
  subst he
  have k0 : Sub 0x7ffffffffffff00000000000000 mm := Sub.trans (by decide) hm
  have k1 : Sub 0x40000 mm := Sub.trans (by decide) hm
  repeat' first
    | (intro x; refine Kept.bind (s0 := s0) (m := mm) (x := x) ?_ ?_; subst x; rotate_left; clear_value x; intro _)
    | (intro y; clear_value y)
    | intro _
    | with_reducible assumption
    | with_reducible lift_lets -underBinder
    | with_reducible apply State.onCan_kept k0
    | with_reducible apply State.heartbeatOut_kept k1
    | with_reducible apply Kept.ite
    | with_reducible split
    | split

theorem execConsumerHeartbeatTimeout_frame (t : Time) (k : CanNo) (node : Fin 128) (s : State) {s2 : State} {mm : Nat} (hm : Sub 0x7fffd000000000000000024e000 mm) (he : execConsumerHeartbeatTimeout t k node s = .next s2) : Kept mm (State.begin t s) s2 := by
  unfold execConsumerHeartbeatTimeout at he
  have h : Kept mm (State.begin t s) (State.begin t s) := Kept.refl _ _
  generalize State.begin t s = s0 at h he
  (try dsimp only at he)
  have he : _ = s2 := Host.Outcome.next.inj he
  subst he
  have k0 : Sub 0x0 mm := Sub.trans (by decide) hm
  repeat' first
    | (intro x; refine Kept.bind (s0 := s0) (m := mm) (x := x) ?_ ?_; subst x; rotate_left; clear_value x; intro _)
    | (intro y; clear_value y)
    | intro _
    | with_reducible assumption
    | with_reducible lift_lets -underBinder
    | with_reducible apply State.when_kept k0
    | with_reducible apply State.heartbeatLate_kept hm
    | with_reducible apply Kept.ite
    | with_reducible split
    | split

theorem execBusOff_frame (t : Time) (k : CanNo) (s : State) {s2 : State} {mm : Nat} (hm : Sub 0x7ffffffffffff00000000040000 mm) (he : execBusOff t k s = .next s2) : Kept mm (State.begin t s) s2 := by
  unfold execBusOff at he
  have h : Kept mm (State.begin t s) (State.begin t s) := Kept.refl _ _
  generalize State.begin t s = s0 at h he
  (try dsimp only at he)
  have he : _ = s2 := Host.Outcome.next.inj he
  subst he
  have k0 : Sub 0x0 mm := Sub.trans (by decide) hm
  have k1 : Sub 0x40000 mm := Sub.trans (by decide) hm
  have kz : Sub (2 ^ 107 - 2 ^ (20 + zone 0x27100800)) mm := Sub.trans (by decide) hm
  repeat' first
    | (intro x; refine Kept.bind (s0 := s0) (m := mm) (x := x) ?_ ?_; subst x; rotate_left; clear_value x; intro _)
    | (intro y; clear_value y)
    | intro _
    | with_reducible assumption
    | with_reducible lift_lets -underBinder
    | with_reducible apply State.when_kept k0
    | with_reducible apply State.modNet_kept k1
    | with_reducible refine State.inc_kept ?_ ?_
    | with_reducible refine State.wr_kept ?_ ?_
    | exact Sub.bit (Sub.trans (by decide) hm)
    | (refine Sub.from (b := 0x27100800) kz ?_; (try simp only [key, bk, cpk]); omega)
    | with_reducible apply Kept.ite
    | with_reducible split
    | split

theorem execCanFdFrame_frame (t : Time) (k : CanNo) (ext : Bool) (ident : Nat) (data : List Byte) (s : State) {s2 : State} {mm : Nat} (hm : Sub 0x7ffffffffffff0000000024e000 mm) (he : execCanFdFrame t k ext ident data s = .next s2) : Kept mm (State.begin t s) s2 := by
  unfold execCanFdFrame at he
  have h : Kept mm (State.begin t s) (State.begin t s) := Kept.refl _ _
  generalize State.begin t s = s0 at h he
  (try dsimp only at he)
  have he : _ = s2 := Host.Outcome.next.inj he
  subst he
  have k0 : Sub 0x7ffffffffffff00000000000000 mm := Sub.trans (by decide) hm
  have k1 : Sub 0x7fffd000000000000000024e000 mm := Sub.trans (by decide) hm
  repeat' first
    | (intro x; refine Kept.bind (s0 := s0) (m := mm) (x := x) ?_ ?_; subst x; rotate_left; clear_value x; intro _)
    | (intro y; clear_value y)
    | intro _
    | with_reducible assumption
    | with_reducible lift_lets -underBinder
    | with_reducible apply State.onCan_kept k0
    | with_reducible apply State.canFrame_kept k1
    | with_reducible apply Kept.ite
    | with_reducible split
    | split

theorem execPrpSupervision_frame (t : Time) (p : Fin 2) (s : State) {s2 : State} {mm : Nat} (hm : Sub 0x40000 mm) (he : execPrpSupervision t p s = .next s2) : Kept mm (State.begin t s) s2 := by
  unfold execPrpSupervision at he
  have h : Kept mm (State.begin t s) (State.begin t s) := Kept.refl _ _
  generalize State.begin t s = s0 at h he
  (try dsimp only at he)
  have he : _ = s2 := Host.Outcome.next.inj he
  subst he
  repeat' first
    | (intro x; refine Kept.bind (s0 := s0) (m := mm) (x := x) ?_ ?_; subst x; rotate_left; clear_value x; intro _)
    | (intro y; clear_value y)
    | intro _
    | with_reducible assumption
    | with_reducible lift_lets -underBinder
    | with_reducible apply State.supervision_kept hm
    | with_reducible apply Kept.ite
    | with_reducible split
    | split

theorem execArpRequest_frame (t : Time) (p : Fin 2) (target sender : Nat) (s : State) {s2 : State} {mm : Nat} (hm : Sub 0x0 mm) (he : execArpRequest t p target sender s = .next s2) : Kept mm (State.begin t s) s2 := by
  unfold execArpRequest at he
  have h : Kept mm (State.begin t s) (State.begin t s) := Kept.refl _ _
  generalize State.begin t s = s0 at h he
  (try dsimp only at he)
  have he : _ = s2 := Host.Outcome.next.inj he
  subst he
  repeat' first
    | (intro x; refine Kept.bind (s0 := s0) (m := mm) (x := x) ?_ ?_; subst x; rotate_left; clear_value x; intro _)
    | (intro y; clear_value y)
    | intro _
    | with_reducible assumption
    | with_reducible lift_lets -underBinder
    | with_reducible apply State.when_kept hm
    | with_reducible apply State.msg_kept hm
    | with_reducible apply Kept.ite
    | with_reducible split
    | split

theorem execIcmpEcho_frame (t : Time) (p : Fin 2) (dst : Nat) (payload : List Byte) (s : State) {s2 : State} {mm : Nat} (hm : Sub 0x0 mm) (he : execIcmpEcho t p dst payload s = .next s2) : Kept mm (State.begin t s) s2 := by
  unfold execIcmpEcho at he
  have h : Kept mm (State.begin t s) (State.begin t s) := Kept.refl _ _
  generalize State.begin t s = s0 at h he
  (try dsimp only at he)
  have he : _ = s2 := Host.Outcome.next.inj he
  subst he
  repeat' first
    | (intro x; refine Kept.bind (s0 := s0) (m := mm) (x := x) ?_ ?_; subst x; rotate_left; clear_value x; intro _)
    | (intro y; clear_value y)
    | intro _
    | with_reducible assumption
    | with_reducible lift_lets -underBinder
    | with_reducible apply State.when_kept hm
    | with_reducible apply State.msg_kept hm
    | with_reducible apply Kept.ite
    | with_reducible split
    | split

theorem execGooseMemberCompare_frame (t : Time) (s : State) {s2 : State} {mm : Nat} (hm : Sub 0x7fffffffffff000000000040000 mm) (he : execGooseMemberCompare t s = .next s2) : Kept mm (State.begin t s) s2 := by
  unfold execGooseMemberCompare at he
  have h : Kept mm (State.begin t s) (State.begin t s) := Kept.refl _ _
  generalize State.begin t s = s0 at h he
  (try dsimp only at he)
  have he : _ = s2 := Host.Outcome.next.inj he
  subst he
  have k0 : Sub 0x0 mm := Sub.trans (by decide) hm
  repeat' first
    | (intro x; refine Kept.bind (s0 := s0) (m := mm) (x := x) ?_ ?_; subst x; rotate_left; clear_value x; intro _)
    | (intro y; clear_value y)
    | intro _
    | with_reducible assumption
    | with_reducible lift_lets -underBinder
    | with_reducible apply State.when_kept k0
    | with_reducible apply State.each_kept k0
    | with_reducible apply State.comparePub_kept hm
    | with_reducible apply Kept.ite
    | with_reducible split
    | split

theorem execGooseRetransmission_frame (t : Time) (g : Fin 8) (s : State) {s2 : State} {mm : Nat} (hm : Sub 0x7fffffffffff000000000040000 mm) (he : execGooseRetransmission t g s = .next s2) : Kept mm (State.begin t s) s2 := by
  unfold execGooseRetransmission at he
  have h : Kept mm (State.begin t s) (State.begin t s) := Kept.refl _ _
  generalize State.begin t s = s0 at h he
  (try dsimp only at he)
  have he : _ = s2 := Host.Outcome.next.inj he
  subst he
  repeat' first
    | (intro x; refine Kept.bind (s0 := s0) (m := mm) (x := x) ?_ ?_; subst x; rotate_left; clear_value x; intro _)
    | (intro y; clear_value y)
    | intro _
    | with_reducible assumption
    | with_reducible lift_lets -underBinder
    | with_reducible apply State.retransmit_kept hm
    | with_reducible apply Kept.ite
    | with_reducible split
    | split

theorem execGooseMessage_frame (t : Time) (m : GooseMsg) (s : State) {s2 : State} {mm : Nat} (hm : Sub 0x7fffffffffffffffffffffffffe mm) (he : execGooseMessage t m s = .next s2) : Kept mm (State.begin t s) s2 := by
  unfold execGooseMessage at he
  have h : Kept mm (State.begin t s) (State.begin t s) := Kept.refl _ _
  generalize State.begin t s = s0 at h he
  (try dsimp only at he)
  have he : _ = s2 := Host.Outcome.next.inj he
  subst he
  have k0 : Sub 0x0 mm := Sub.trans (by decide) hm
  repeat' first
    | (intro x; refine Kept.bind (s0 := s0) (m := mm) (x := x) ?_ ?_; subst x; rotate_left; clear_value x; intro _)
    | (intro y; clear_value y)
    | intro _
    | with_reducible assumption
    | with_reducible lift_lets -underBinder
    | with_reducible apply State.when_kept k0
    | with_reducible apply State.each_kept k0
    | with_reducible apply State.takeGoose_kept hm
    | with_reducible apply Kept.ite
    | with_reducible split
    | split

theorem execTimeAllowedToLive_frame (t : Time) (i : Fin 16) (s : State) {s2 : State} {mm : Nat} (hm : Sub 0x7fffffffffffffffffffffffffe mm) (he : execTimeAllowedToLive t i s = .next s2) : Kept mm (State.begin t s) s2 := by
  unfold execTimeAllowedToLive at he
  have h : Kept mm (State.begin t s) (State.begin t s) := Kept.refl _ _
  generalize State.begin t s = s0 at h he
  (try dsimp only at he)
  have he : _ = s2 := Host.Outcome.next.inj he
  subst he
  repeat' first
    | (intro x; refine Kept.bind (s0 := s0) (m := mm) (x := x) ?_ ?_; subst x; rotate_left; clear_value x; intro _)
    | (intro y; clear_value y)
    | intro _
    | with_reducible assumption
    | with_reducible lift_lets -underBinder
    | with_reducible apply State.expire_kept hm
    | with_reducible apply Kept.ite
    | with_reducible split
    | split

end Sys2Proof.Machine
end

