-- ==== Sys2Proof/Laws/State.lean ====
section
/-! SUPPORT. What each update of the state does to each of its fields and to each record read from it: one lemma per field per update. -/

namespace Sys2Proof.Machine

/-! ### State.setSession -/

@[simp] theorem State.setSession_now (sid : Nat) (x : Session) (s : State) : (s.setSession sid x).now = s.now := rfl
@[simp] theorem State.setSession_fresh (sid : Nat) (x : Session) (s : State) : (s.setSession sid x).fresh = s.fresh := rfl
@[simp] theorem State.setSession_out (sid : Nat) (x : Session) (s : State) : (s.setSession sid x).out = s.out := rfl
@[simp] theorem State.setSession_pending (sid : Nat) (x : Session) (s : State) : (s.setSession sid x).pending = s.pending := rfl
@[simp] theorem State.setSession_od (sid : Nat) (x : Session) (s : State) : (s.setSession sid x).od = s.od := rfl
@[simp] theorem State.setSession_blobs (sid : Nat) (x : Session) (s : State) : (s.setSession sid x).blobs = s.blobs := rfl
@[simp] theorem State.setSession_batches (sid : Nat) (x : Session) (s : State) : (s.setSession sid x).batches = s.batches := rfl
@[simp] theorem State.setSession_fixed (sid : Nat) (x : Session) (s : State) : (s.setSession sid x).fixed = s.fixed := rfl
@[simp] theorem State.setSession_floats (sid : Nat) (x : Session) (s : State) : (s.setSession sid x).floats = s.floats := rfl
@[simp] theorem State.setSession_gens (sid : Nat) (x : Session) (s : State) : (s.setSession sid x).gens = s.gens := rfl
@[simp] theorem State.setSession_fabric (sid : Nat) (x : Session) (s : State) : (s.setSession sid x).fabric = s.fabric := rfl
@[simp] theorem State.setSession_meas (sid : Nat) (x : Session) (s : State) : (s.setSession sid x).meas = s.meas := rfl
@[simp] theorem State.setSession_pwm (sid : Nat) (x : Session) (s : State) : (s.setSession sid x).pwm = s.pwm := rfl
@[simp] theorem State.setSession_links (sid : Nat) (x : Session) (s : State) : (s.setSession sid x).links = s.links := rfl
@[simp] theorem State.setSession_aux (sid : Nat) (x : Session) (s : State) : (s.setSession sid x).aux = s.aux := rfl
@[simp] theorem State.setSession_island (sid : Nat) (x : Session) (s : State) : (s.setSession sid x).island = s.island := rfl
@[simp] theorem State.setSession_clock (sid : Nat) (x : Session) (s : State) : (s.setSession sid x).clock = s.clock := rfl
@[simp] theorem State.setSession_acq (sid : Nat) (x : Session) (s : State) : (s.setSession sid x).acq = s.acq := rfl
@[simp] theorem State.setSession_log (sid : Nat) (x : Session) (s : State) : (s.setSession sid x).log = s.log := rfl
@[simp] theorem State.setSession_rack (sid : Nat) (x : Session) (s : State) : (s.setSession sid x).rack = s.rack := rfl
@[simp] theorem State.setSession_power (sid : Nat) (x : Session) (s : State) : (s.setSession sid x).power = s.power := rfl
@[simp] theorem State.setSession_srv (sid : Nat) (x : Session) (s : State) : (s.setSession sid x).srv = { s.srv with sessions := Tbl.set sid x s.srv.sessions } := rfl
@[simp] theorem State.setSession_net (sid : Nat) (x : Session) (s : State) : (s.setSession sid x).net = s.net := rfl
@[simp] theorem State.session_setSession_same (sid : Nat) (x : Session) (s : State) : (s.setSession sid x).session sid = some x := Tbl.find?_set_same _ _ _
theorem State.session_setSession_other (sid : Nat) (x : Session) (s : State) {j : Nat} (h : j ≠ sid) : (s.setSession sid x).session j = s.session j := Tbl.find?_set_other _ _ h
@[simp] theorem State.chan_setSession (sid : Nat) (x : Session) (j : Nat) (s : State) : (s.setSession sid x).chan j = s.chan j := rfl
@[simp] theorem State.chainRec_setSession (sid : Nat) (x : Session) (j : Nat) (s : State) : (s.setSession sid x).chainRec j = s.chainRec j := rfl
@[simp] theorem State.sfd_setSession (sid : Nat) (x : Session) (j : Nat) (s : State) : (s.setSession sid x).sfd j = s.sfd j := rfl
@[simp] theorem State.core_setSession (sid : Nat) (x : Session) (j : Nat) (s : State) : (s.setSession sid x).core j = s.core j := rfl
@[simp] theorem State.tpo_setSession (sid : Nat) (x : Session) (j : Nat) (s : State) : (s.setSession sid x).tpo j = s.tpo j := rfl
@[simp] theorem State.ptpPort_setSession (sid : Nat) (x : Session) (j : Nat) (s : State) : (s.setSession sid x).ptpPort j = s.ptpPort j := rfl
@[simp] theorem State.lane_setSession (sid : Nat) (x : Session) (j : Nat) (s : State) : (s.setSession sid x).lane j = s.lane j := rfl
@[simp] theorem State.fwSlot_setSession (sid : Nat) (x : Session) (j : Nat) (s : State) : (s.setSession sid x).fwSlot j = s.fwSlot j := rfl
@[simp] theorem State.stage_setSession (sid : Nat) (x : Session) (j : Nat) (s : State) : (s.setSession sid x).stage j = s.stage j := rfl
@[simp] theorem State.check_setSession (sid : Nat) (x : Session) (j : Nat) (s : State) : (s.setSession sid x).check j = s.check j := rfl
@[simp] theorem State.circ_setSession (sid : Nat) (x : Session) (j : Nat) (s : State) : (s.setSession sid x).circ j = s.circ j := rfl
@[simp] theorem State.link_setSession (sid : Nat) (x : Session) (j : Nat) (s : State) : (s.setSession sid x).link j = s.link j := rfl
@[simp] theorem State.node_setSession (sid : Nat) (x : Session) (j : Nat) (s : State) : (s.setSession sid x).node j = s.node j := rfl
@[simp] theorem State.pub_setSession (sid : Nat) (x : Session) (j : Nat) (s : State) : (s.setSession sid x).pub j = s.pub j := rfl
@[simp] theorem State.blob_setSession (sid : Nat) (x : Session) (j : Nat) (s : State) : (s.setSession sid x).blob j = s.blob j := rfl
@[simp] theorem State.batch_setSession (sid : Nat) (x : Session) (j : Nat) (s : State) : (s.setSession sid x).batch j = s.batch j := rfl
@[simp] theorem State.fx_setSession (sid : Nat) (x : Session) (j : Nat) (s : State) : (s.setSession sid x).fx j = s.fx j := rfl
@[simp] theorem State.fl_setSession (sid : Nat) (x : Session) (j : Nat) (s : State) : (s.setSession sid x).fl j = s.fl j := rfl
@[simp] theorem State.gen_setSession (sid : Nat) (x : Session) (j : Nat) (s : State) : (s.setSession sid x).gen j = s.gen j := rfl
@[simp] theorem State.queue_setSession (sid : Nat) (x : Session) (j : Nat) (s : State) : (s.setSession sid x).queue j = s.queue j := rfl
@[simp] theorem State.codeRec_setSession (sid : Nat) (x : Session) (j : Nat) (s : State) : (s.setSession sid x).codeRec j = s.codeRec j := rfl
@[simp] theorem State.acqBuf_setSession (sid : Nat) (x : Session) (j : Nat) (s : State) : (s.setSession sid x).acqBuf j = s.acqBuf j := rfl
@[simp] theorem State.trig_setSession (sid : Nat) (x : Session) (j : Nat) (s : State) : (s.setSession sid x).trig j = s.trig j := rfl
@[simp] theorem State.pair_setSession (sid : Nat) (x : Session) (j : Nat) (s : State) : (s.setSession sid x).pair j = s.pair j := rfl
@[simp] theorem State.slice_setSession (sid : Nat) (x : Session) (j : Nat) (s : State) : (s.setSession sid x).slice j = s.slice j := rfl
@[simp] theorem State.beat_setSession (sid : Nat) (x : Session) (j : Nat) (s : State) : (s.setSession sid x).beat j = s.beat j := rfl
@[simp] theorem State.inputLevel_setSession (sid : Nat) (x : Session) (j : Nat) (s : State) : (s.setSession sid x).inputLevel j = s.inputLevel j := rfl
@[simp] theorem State.maskEx_setSession (sid : Nat) (x : Session) (j : Nat) (s : State) : (s.setSession sid x).maskEx j = s.maskEx j := rfl

/-! ### State.handling -/

@[simp] theorem State.handling_now (sid : Nat) (s : State) : (s.handling sid).now = s.now := rfl
@[simp] theorem State.handling_fresh (sid : Nat) (s : State) : (s.handling sid).fresh = s.fresh := rfl
@[simp] theorem State.handling_out (sid : Nat) (s : State) : (s.handling sid).out = s.out := rfl
@[simp] theorem State.handling_pending (sid : Nat) (s : State) : (s.handling sid).pending = s.pending := rfl
@[simp] theorem State.handling_od (sid : Nat) (s : State) : (s.handling sid).od = s.od := rfl
@[simp] theorem State.handling_blobs (sid : Nat) (s : State) : (s.handling sid).blobs = s.blobs := rfl
@[simp] theorem State.handling_batches (sid : Nat) (s : State) : (s.handling sid).batches = s.batches := rfl
@[simp] theorem State.handling_fixed (sid : Nat) (s : State) : (s.handling sid).fixed = s.fixed := rfl
@[simp] theorem State.handling_floats (sid : Nat) (s : State) : (s.handling sid).floats = s.floats := rfl
@[simp] theorem State.handling_gens (sid : Nat) (s : State) : (s.handling sid).gens = s.gens := rfl
@[simp] theorem State.handling_fabric (sid : Nat) (s : State) : (s.handling sid).fabric = s.fabric := rfl
@[simp] theorem State.handling_meas (sid : Nat) (s : State) : (s.handling sid).meas = s.meas := rfl
@[simp] theorem State.handling_pwm (sid : Nat) (s : State) : (s.handling sid).pwm = s.pwm := rfl
@[simp] theorem State.handling_links (sid : Nat) (s : State) : (s.handling sid).links = s.links := rfl
@[simp] theorem State.handling_aux (sid : Nat) (s : State) : (s.handling sid).aux = s.aux := rfl
@[simp] theorem State.handling_island (sid : Nat) (s : State) : (s.handling sid).island = s.island := rfl
@[simp] theorem State.handling_clock (sid : Nat) (s : State) : (s.handling sid).clock = s.clock := rfl
@[simp] theorem State.handling_acq (sid : Nat) (s : State) : (s.handling sid).acq = s.acq := rfl
@[simp] theorem State.handling_log (sid : Nat) (s : State) : (s.handling sid).log = s.log := rfl
@[simp] theorem State.handling_rack (sid : Nat) (s : State) : (s.handling sid).rack = s.rack := rfl
@[simp] theorem State.handling_power (sid : Nat) (s : State) : (s.handling sid).power = s.power := rfl
@[simp] theorem State.handling_srv (sid : Nat) (s : State) : (s.handling sid).srv = { s.srv with cur := sid } := rfl
@[simp] theorem State.handling_net (sid : Nat) (s : State) : (s.handling sid).net = s.net := rfl
@[simp] theorem State.chan_handling (sid : Nat) (j : Nat) (s : State) : (s.handling sid).chan j = s.chan j := rfl
@[simp] theorem State.chainRec_handling (sid : Nat) (j : Nat) (s : State) : (s.handling sid).chainRec j = s.chainRec j := rfl
@[simp] theorem State.sfd_handling (sid : Nat) (j : Nat) (s : State) : (s.handling sid).sfd j = s.sfd j := rfl
@[simp] theorem State.core_handling (sid : Nat) (j : Nat) (s : State) : (s.handling sid).core j = s.core j := rfl
@[simp] theorem State.tpo_handling (sid : Nat) (j : Nat) (s : State) : (s.handling sid).tpo j = s.tpo j := rfl
@[simp] theorem State.ptpPort_handling (sid : Nat) (j : Nat) (s : State) : (s.handling sid).ptpPort j = s.ptpPort j := rfl
@[simp] theorem State.lane_handling (sid : Nat) (j : Nat) (s : State) : (s.handling sid).lane j = s.lane j := rfl
@[simp] theorem State.stage_handling (sid : Nat) (j : Nat) (s : State) : (s.handling sid).stage j = s.stage j := rfl
@[simp] theorem State.check_handling (sid : Nat) (j : Nat) (s : State) : (s.handling sid).check j = s.check j := rfl
@[simp] theorem State.circ_handling (sid : Nat) (j : Nat) (s : State) : (s.handling sid).circ j = s.circ j := rfl
@[simp] theorem State.link_handling (sid : Nat) (j : Nat) (s : State) : (s.handling sid).link j = s.link j := rfl
@[simp] theorem State.node_handling (sid : Nat) (j : Nat) (s : State) : (s.handling sid).node j = s.node j := rfl
@[simp] theorem State.pub_handling (sid : Nat) (j : Nat) (s : State) : (s.handling sid).pub j = s.pub j := rfl
@[simp] theorem State.blob_handling (sid : Nat) (j : Nat) (s : State) : (s.handling sid).blob j = s.blob j := rfl
@[simp] theorem State.batch_handling (sid : Nat) (j : Nat) (s : State) : (s.handling sid).batch j = s.batch j := rfl
@[simp] theorem State.fx_handling (sid : Nat) (j : Nat) (s : State) : (s.handling sid).fx j = s.fx j := rfl
@[simp] theorem State.fl_handling (sid : Nat) (j : Nat) (s : State) : (s.handling sid).fl j = s.fl j := rfl
@[simp] theorem State.gen_handling (sid : Nat) (j : Nat) (s : State) : (s.handling sid).gen j = s.gen j := rfl
@[simp] theorem State.queue_handling (sid : Nat) (j : Nat) (s : State) : (s.handling sid).queue j = s.queue j := rfl
@[simp] theorem State.codeRec_handling (sid : Nat) (j : Nat) (s : State) : (s.handling sid).codeRec j = s.codeRec j := rfl
@[simp] theorem State.acqBuf_handling (sid : Nat) (j : Nat) (s : State) : (s.handling sid).acqBuf j = s.acqBuf j := rfl
@[simp] theorem State.trig_handling (sid : Nat) (j : Nat) (s : State) : (s.handling sid).trig j = s.trig j := rfl
@[simp] theorem State.pair_handling (sid : Nat) (j : Nat) (s : State) : (s.handling sid).pair j = s.pair j := rfl
@[simp] theorem State.slice_handling (sid : Nat) (j : Nat) (s : State) : (s.handling sid).slice j = s.slice j := rfl
@[simp] theorem State.beat_handling (sid : Nat) (j : Nat) (s : State) : (s.handling sid).beat j = s.beat j := rfl
@[simp] theorem State.inputLevel_handling (sid : Nat) (j : Nat) (s : State) : (s.handling sid).inputLevel j = s.inputLevel j := rfl
@[simp] theorem State.maskEx_handling (sid : Nat) (j : Nat) (s : State) : (s.handling sid).maskEx j = s.maskEx j := rfl

/-! ### State.modAcq -/

@[simp] theorem State.modAcq_now (f : Acq → Acq) (s : State) : (s.modAcq f).now = s.now := rfl
@[simp] theorem State.modAcq_fresh (f : Acq → Acq) (s : State) : (s.modAcq f).fresh = s.fresh := rfl
@[simp] theorem State.modAcq_out (f : Acq → Acq) (s : State) : (s.modAcq f).out = s.out := rfl
@[simp] theorem State.modAcq_pending (f : Acq → Acq) (s : State) : (s.modAcq f).pending = s.pending := rfl
@[simp] theorem State.modAcq_od (f : Acq → Acq) (s : State) : (s.modAcq f).od = s.od := rfl
@[simp] theorem State.modAcq_blobs (f : Acq → Acq) (s : State) : (s.modAcq f).blobs = s.blobs := rfl
@[simp] theorem State.modAcq_batches (f : Acq → Acq) (s : State) : (s.modAcq f).batches = s.batches := rfl
@[simp] theorem State.modAcq_fixed (f : Acq → Acq) (s : State) : (s.modAcq f).fixed = s.fixed := rfl
@[simp] theorem State.modAcq_floats (f : Acq → Acq) (s : State) : (s.modAcq f).floats = s.floats := rfl
@[simp] theorem State.modAcq_gens (f : Acq → Acq) (s : State) : (s.modAcq f).gens = s.gens := rfl
@[simp] theorem State.modAcq_fabric (f : Acq → Acq) (s : State) : (s.modAcq f).fabric = s.fabric := rfl
@[simp] theorem State.modAcq_meas (f : Acq → Acq) (s : State) : (s.modAcq f).meas = s.meas := rfl
@[simp] theorem State.modAcq_pwm (f : Acq → Acq) (s : State) : (s.modAcq f).pwm = s.pwm := rfl
@[simp] theorem State.modAcq_links (f : Acq → Acq) (s : State) : (s.modAcq f).links = s.links := rfl
@[simp] theorem State.modAcq_aux (f : Acq → Acq) (s : State) : (s.modAcq f).aux = s.aux := rfl
@[simp] theorem State.modAcq_island (f : Acq → Acq) (s : State) : (s.modAcq f).island = s.island := rfl
@[simp] theorem State.modAcq_clock (f : Acq → Acq) (s : State) : (s.modAcq f).clock = s.clock := rfl
@[simp] theorem State.modAcq_acq (f : Acq → Acq) (s : State) : (s.modAcq f).acq = f s.acq := rfl
@[simp] theorem State.modAcq_log (f : Acq → Acq) (s : State) : (s.modAcq f).log = s.log := rfl
@[simp] theorem State.modAcq_rack (f : Acq → Acq) (s : State) : (s.modAcq f).rack = s.rack := rfl
@[simp] theorem State.modAcq_power (f : Acq → Acq) (s : State) : (s.modAcq f).power = s.power := rfl
@[simp] theorem State.modAcq_srv (f : Acq → Acq) (s : State) : (s.modAcq f).srv = s.srv := rfl
@[simp] theorem State.modAcq_net (f : Acq → Acq) (s : State) : (s.modAcq f).net = s.net := rfl
@[simp] theorem State.session_modAcq (f : Acq → Acq) (j : Nat) (s : State) : (s.modAcq f).session j = s.session j := rfl
@[simp] theorem State.chan_modAcq (f : Acq → Acq) (j : Nat) (s : State) : (s.modAcq f).chan j = s.chan j := rfl
@[simp] theorem State.chainRec_modAcq (f : Acq → Acq) (j : Nat) (s : State) : (s.modAcq f).chainRec j = s.chainRec j := rfl
@[simp] theorem State.sfd_modAcq (f : Acq → Acq) (j : Nat) (s : State) : (s.modAcq f).sfd j = s.sfd j := rfl
@[simp] theorem State.core_modAcq (f : Acq → Acq) (j : Nat) (s : State) : (s.modAcq f).core j = s.core j := rfl
@[simp] theorem State.tpo_modAcq (f : Acq → Acq) (j : Nat) (s : State) : (s.modAcq f).tpo j = s.tpo j := rfl
@[simp] theorem State.ptpPort_modAcq (f : Acq → Acq) (j : Nat) (s : State) : (s.modAcq f).ptpPort j = s.ptpPort j := rfl
@[simp] theorem State.lane_modAcq (f : Acq → Acq) (j : Nat) (s : State) : (s.modAcq f).lane j = s.lane j := rfl
@[simp] theorem State.fwSlot_modAcq (f : Acq → Acq) (j : Nat) (s : State) : (s.modAcq f).fwSlot j = s.fwSlot j := rfl
@[simp] theorem State.stage_modAcq (f : Acq → Acq) (j : Nat) (s : State) : (s.modAcq f).stage j = s.stage j := rfl
@[simp] theorem State.check_modAcq (f : Acq → Acq) (j : Nat) (s : State) : (s.modAcq f).check j = s.check j := rfl
@[simp] theorem State.circ_modAcq (f : Acq → Acq) (j : Nat) (s : State) : (s.modAcq f).circ j = s.circ j := rfl
@[simp] theorem State.link_modAcq (f : Acq → Acq) (j : Nat) (s : State) : (s.modAcq f).link j = s.link j := rfl
@[simp] theorem State.node_modAcq (f : Acq → Acq) (j : Nat) (s : State) : (s.modAcq f).node j = s.node j := rfl
@[simp] theorem State.pub_modAcq (f : Acq → Acq) (j : Nat) (s : State) : (s.modAcq f).pub j = s.pub j := rfl
@[simp] theorem State.blob_modAcq (f : Acq → Acq) (j : Nat) (s : State) : (s.modAcq f).blob j = s.blob j := rfl
@[simp] theorem State.batch_modAcq (f : Acq → Acq) (j : Nat) (s : State) : (s.modAcq f).batch j = s.batch j := rfl
@[simp] theorem State.fx_modAcq (f : Acq → Acq) (j : Nat) (s : State) : (s.modAcq f).fx j = s.fx j := rfl
@[simp] theorem State.fl_modAcq (f : Acq → Acq) (j : Nat) (s : State) : (s.modAcq f).fl j = s.fl j := rfl
@[simp] theorem State.gen_modAcq (f : Acq → Acq) (j : Nat) (s : State) : (s.modAcq f).gen j = s.gen j := rfl
@[simp] theorem State.queue_modAcq (f : Acq → Acq) (j : Nat) (s : State) : (s.modAcq f).queue j = s.queue j := rfl
@[simp] theorem State.codeRec_modAcq (f : Acq → Acq) (j : Nat) (s : State) : (s.modAcq f).codeRec j = s.codeRec j := rfl
@[simp] theorem State.pair_modAcq (f : Acq → Acq) (j : Nat) (s : State) : (s.modAcq f).pair j = s.pair j := rfl
@[simp] theorem State.slice_modAcq (f : Acq → Acq) (j : Nat) (s : State) : (s.modAcq f).slice j = s.slice j := rfl
@[simp] theorem State.beat_modAcq (f : Acq → Acq) (j : Nat) (s : State) : (s.modAcq f).beat j = s.beat j := rfl

/-! ### State.setChan -/

@[simp] theorem State.setChan_now (c : Nat) (r : ChanRec) (s : State) : (s.setChan c r).now = s.now := rfl
@[simp] theorem State.setChan_fresh (c : Nat) (r : ChanRec) (s : State) : (s.setChan c r).fresh = s.fresh := rfl
@[simp] theorem State.setChan_out (c : Nat) (r : ChanRec) (s : State) : (s.setChan c r).out = s.out := rfl
@[simp] theorem State.setChan_pending (c : Nat) (r : ChanRec) (s : State) : (s.setChan c r).pending = s.pending := rfl
@[simp] theorem State.setChan_od (c : Nat) (r : ChanRec) (s : State) : (s.setChan c r).od = s.od := rfl
@[simp] theorem State.setChan_blobs (c : Nat) (r : ChanRec) (s : State) : (s.setChan c r).blobs = s.blobs := rfl
@[simp] theorem State.setChan_batches (c : Nat) (r : ChanRec) (s : State) : (s.setChan c r).batches = s.batches := rfl
@[simp] theorem State.setChan_fixed (c : Nat) (r : ChanRec) (s : State) : (s.setChan c r).fixed = s.fixed := rfl
@[simp] theorem State.setChan_floats (c : Nat) (r : ChanRec) (s : State) : (s.setChan c r).floats = s.floats := rfl
@[simp] theorem State.setChan_gens (c : Nat) (r : ChanRec) (s : State) : (s.setChan c r).gens = s.gens := rfl
@[simp] theorem State.setChan_fabric (c : Nat) (r : ChanRec) (s : State) : (s.setChan c r).fabric = s.fabric := rfl
@[simp] theorem State.setChan_meas (c : Nat) (r : ChanRec) (s : State) : (s.setChan c r).meas = s.meas := rfl
@[simp] theorem State.setChan_pwm (c : Nat) (r : ChanRec) (s : State) : (s.setChan c r).pwm = { s.pwm with chans := Tbl.set c r s.pwm.chans } := rfl
@[simp] theorem State.setChan_links (c : Nat) (r : ChanRec) (s : State) : (s.setChan c r).links = s.links := rfl
@[simp] theorem State.setChan_aux (c : Nat) (r : ChanRec) (s : State) : (s.setChan c r).aux = s.aux := rfl
@[simp] theorem State.setChan_island (c : Nat) (r : ChanRec) (s : State) : (s.setChan c r).island = s.island := rfl
@[simp] theorem State.setChan_clock (c : Nat) (r : ChanRec) (s : State) : (s.setChan c r).clock = s.clock := rfl
@[simp] theorem State.setChan_acq (c : Nat) (r : ChanRec) (s : State) : (s.setChan c r).acq = s.acq := rfl
@[simp] theorem State.setChan_log (c : Nat) (r : ChanRec) (s : State) : (s.setChan c r).log = s.log := rfl
@[simp] theorem State.setChan_rack (c : Nat) (r : ChanRec) (s : State) : (s.setChan c r).rack = s.rack := rfl
@[simp] theorem State.setChan_power (c : Nat) (r : ChanRec) (s : State) : (s.setChan c r).power = s.power := rfl
@[simp] theorem State.setChan_srv (c : Nat) (r : ChanRec) (s : State) : (s.setChan c r).srv = s.srv := rfl
@[simp] theorem State.setChan_net (c : Nat) (r : ChanRec) (s : State) : (s.setChan c r).net = s.net := rfl
@[simp] theorem State.session_setChan (c : Nat) (r : ChanRec) (j : Nat) (s : State) : (s.setChan c r).session j = s.session j := rfl
@[simp] theorem State.chan_setChan_same (c : Nat) (r : ChanRec) (s : State) : (s.setChan c r).chan c = r := Tbl.get_set_same _ _ _ _
theorem State.chan_setChan_other (c : Nat) (r : ChanRec) (s : State) {j : Nat} (h : j ≠ c) : (s.setChan c r).chan j = s.chan j := Tbl.get_set_other _ _ _ h
@[simp] theorem State.chainRec_setChan (c : Nat) (r : ChanRec) (j : Nat) (s : State) : (s.setChan c r).chainRec j = s.chainRec j := rfl
@[simp] theorem State.sfd_setChan (c : Nat) (r : ChanRec) (j : Nat) (s : State) : (s.setChan c r).sfd j = s.sfd j := rfl
@[simp] theorem State.core_setChan (c : Nat) (r : ChanRec) (j : Nat) (s : State) : (s.setChan c r).core j = s.core j := rfl
@[simp] theorem State.tpo_setChan (c : Nat) (r : ChanRec) (j : Nat) (s : State) : (s.setChan c r).tpo j = s.tpo j := rfl
@[simp] theorem State.ptpPort_setChan (c : Nat) (r : ChanRec) (j : Nat) (s : State) : (s.setChan c r).ptpPort j = s.ptpPort j := rfl
@[simp] theorem State.lane_setChan (c : Nat) (r : ChanRec) (j : Nat) (s : State) : (s.setChan c r).lane j = s.lane j := rfl
@[simp] theorem State.fwSlot_setChan (c : Nat) (r : ChanRec) (j : Nat) (s : State) : (s.setChan c r).fwSlot j = s.fwSlot j := rfl
@[simp] theorem State.stage_setChan (c : Nat) (r : ChanRec) (j : Nat) (s : State) : (s.setChan c r).stage j = s.stage j := rfl
@[simp] theorem State.check_setChan (c : Nat) (r : ChanRec) (j : Nat) (s : State) : (s.setChan c r).check j = s.check j := rfl
@[simp] theorem State.circ_setChan (c : Nat) (r : ChanRec) (j : Nat) (s : State) : (s.setChan c r).circ j = s.circ j := rfl
@[simp] theorem State.link_setChan (c : Nat) (r : ChanRec) (j : Nat) (s : State) : (s.setChan c r).link j = s.link j := rfl
@[simp] theorem State.node_setChan (c : Nat) (r : ChanRec) (j : Nat) (s : State) : (s.setChan c r).node j = s.node j := rfl
@[simp] theorem State.pub_setChan (c : Nat) (r : ChanRec) (j : Nat) (s : State) : (s.setChan c r).pub j = s.pub j := rfl
@[simp] theorem State.blob_setChan (c : Nat) (r : ChanRec) (j : Nat) (s : State) : (s.setChan c r).blob j = s.blob j := rfl
@[simp] theorem State.batch_setChan (c : Nat) (r : ChanRec) (j : Nat) (s : State) : (s.setChan c r).batch j = s.batch j := rfl
@[simp] theorem State.fx_setChan (c : Nat) (r : ChanRec) (j : Nat) (s : State) : (s.setChan c r).fx j = s.fx j := rfl
@[simp] theorem State.fl_setChan (c : Nat) (r : ChanRec) (j : Nat) (s : State) : (s.setChan c r).fl j = s.fl j := rfl
@[simp] theorem State.gen_setChan (c : Nat) (r : ChanRec) (j : Nat) (s : State) : (s.setChan c r).gen j = s.gen j := rfl
@[simp] theorem State.queue_setChan (c : Nat) (r : ChanRec) (j : Nat) (s : State) : (s.setChan c r).queue j = s.queue j := rfl
@[simp] theorem State.codeRec_setChan (c : Nat) (r : ChanRec) (j : Nat) (s : State) : (s.setChan c r).codeRec j = s.codeRec j := rfl
@[simp] theorem State.acqBuf_setChan (c : Nat) (r : ChanRec) (j : Nat) (s : State) : (s.setChan c r).acqBuf j = s.acqBuf j := rfl
@[simp] theorem State.trig_setChan (c : Nat) (r : ChanRec) (j : Nat) (s : State) : (s.setChan c r).trig j = s.trig j := rfl
@[simp] theorem State.pair_setChan (c : Nat) (r : ChanRec) (j : Nat) (s : State) : (s.setChan c r).pair j = s.pair j := rfl
@[simp] theorem State.slice_setChan (c : Nat) (r : ChanRec) (j : Nat) (s : State) : (s.setChan c r).slice j = s.slice j := rfl
@[simp] theorem State.beat_setChan (c : Nat) (r : ChanRec) (j : Nat) (s : State) : (s.setChan c r).beat j = s.beat j := rfl
@[simp] theorem State.inputLevel_setChan (c : Nat) (r : ChanRec) (j : Nat) (s : State) : (s.setChan c r).inputLevel j = s.inputLevel j := rfl
@[simp] theorem State.maskEx_setChan (c : Nat) (r : ChanRec) (j : Nat) (s : State) : (s.setChan c r).maskEx j = s.maskEx j := rfl

/-! ### State.setChain -/

@[simp] theorem State.setChain_now (c : Nat) (r : ChainRec) (s : State) : (s.setChain c r).now = s.now := rfl
@[simp] theorem State.setChain_fresh (c : Nat) (r : ChainRec) (s : State) : (s.setChain c r).fresh = s.fresh := rfl
@[simp] theorem State.setChain_out (c : Nat) (r : ChainRec) (s : State) : (s.setChain c r).out = s.out := rfl
@[simp] theorem State.setChain_pending (c : Nat) (r : ChainRec) (s : State) : (s.setChain c r).pending = s.pending := rfl
@[simp] theorem State.setChain_od (c : Nat) (r : ChainRec) (s : State) : (s.setChain c r).od = s.od := rfl
@[simp] theorem State.setChain_blobs (c : Nat) (r : ChainRec) (s : State) : (s.setChain c r).blobs = s.blobs := rfl
@[simp] theorem State.setChain_batches (c : Nat) (r : ChainRec) (s : State) : (s.setChain c r).batches = s.batches := rfl
@[simp] theorem State.setChain_fixed (c : Nat) (r : ChainRec) (s : State) : (s.setChain c r).fixed = s.fixed := rfl
@[simp] theorem State.setChain_floats (c : Nat) (r : ChainRec) (s : State) : (s.setChain c r).floats = s.floats := rfl
@[simp] theorem State.setChain_gens (c : Nat) (r : ChainRec) (s : State) : (s.setChain c r).gens = s.gens := rfl
@[simp] theorem State.setChain_fabric (c : Nat) (r : ChainRec) (s : State) : (s.setChain c r).fabric = s.fabric := rfl
@[simp] theorem State.setChain_meas (c : Nat) (r : ChainRec) (s : State) : (s.setChain c r).meas = { s.meas with chains := Tbl.set c r s.meas.chains } := rfl
@[simp] theorem State.setChain_pwm (c : Nat) (r : ChainRec) (s : State) : (s.setChain c r).pwm = s.pwm := rfl
@[simp] theorem State.setChain_links (c : Nat) (r : ChainRec) (s : State) : (s.setChain c r).links = s.links := rfl
@[simp] theorem State.setChain_aux (c : Nat) (r : ChainRec) (s : State) : (s.setChain c r).aux = s.aux := rfl
@[simp] theorem State.setChain_island (c : Nat) (r : ChainRec) (s : State) : (s.setChain c r).island = s.island := rfl
@[simp] theorem State.setChain_clock (c : Nat) (r : ChainRec) (s : State) : (s.setChain c r).clock = s.clock := rfl
@[simp] theorem State.setChain_acq (c : Nat) (r : ChainRec) (s : State) : (s.setChain c r).acq = s.acq := rfl
@[simp] theorem State.setChain_log (c : Nat) (r : ChainRec) (s : State) : (s.setChain c r).log = s.log := rfl
@[simp] theorem State.setChain_rack (c : Nat) (r : ChainRec) (s : State) : (s.setChain c r).rack = s.rack := rfl
@[simp] theorem State.setChain_power (c : Nat) (r : ChainRec) (s : State) : (s.setChain c r).power = s.power := rfl
@[simp] theorem State.setChain_srv (c : Nat) (r : ChainRec) (s : State) : (s.setChain c r).srv = s.srv := rfl
@[simp] theorem State.setChain_net (c : Nat) (r : ChainRec) (s : State) : (s.setChain c r).net = s.net := rfl
@[simp] theorem State.session_setChain (c : Nat) (r : ChainRec) (j : Nat) (s : State) : (s.setChain c r).session j = s.session j := rfl
@[simp] theorem State.chan_setChain (c : Nat) (r : ChainRec) (j : Nat) (s : State) : (s.setChain c r).chan j = s.chan j := rfl
@[simp] theorem State.chainRec_setChain_same (c : Nat) (r : ChainRec) (s : State) : (s.setChain c r).chainRec c = r := Tbl.get_set_same _ _ _ _
theorem State.chainRec_setChain_other (c : Nat) (r : ChainRec) (s : State) {j : Nat} (h : j ≠ c) : (s.setChain c r).chainRec j = s.chainRec j := Tbl.get_set_other _ _ _ h
@[simp] theorem State.sfd_setChain (c : Nat) (r : ChainRec) (j : Nat) (s : State) : (s.setChain c r).sfd j = s.sfd j := rfl
@[simp] theorem State.core_setChain (c : Nat) (r : ChainRec) (j : Nat) (s : State) : (s.setChain c r).core j = s.core j := rfl
@[simp] theorem State.tpo_setChain (c : Nat) (r : ChainRec) (j : Nat) (s : State) : (s.setChain c r).tpo j = s.tpo j := rfl
@[simp] theorem State.ptpPort_setChain (c : Nat) (r : ChainRec) (j : Nat) (s : State) : (s.setChain c r).ptpPort j = s.ptpPort j := rfl
@[simp] theorem State.lane_setChain (c : Nat) (r : ChainRec) (j : Nat) (s : State) : (s.setChain c r).lane j = s.lane j := rfl
@[simp] theorem State.fwSlot_setChain (c : Nat) (r : ChainRec) (j : Nat) (s : State) : (s.setChain c r).fwSlot j = s.fwSlot j := rfl
@[simp] theorem State.stage_setChain (c : Nat) (r : ChainRec) (j : Nat) (s : State) : (s.setChain c r).stage j = s.stage j := rfl
@[simp] theorem State.check_setChain (c : Nat) (r : ChainRec) (j : Nat) (s : State) : (s.setChain c r).check j = s.check j := rfl
@[simp] theorem State.circ_setChain (c : Nat) (r : ChainRec) (j : Nat) (s : State) : (s.setChain c r).circ j = s.circ j := rfl
@[simp] theorem State.link_setChain (c : Nat) (r : ChainRec) (j : Nat) (s : State) : (s.setChain c r).link j = s.link j := rfl
@[simp] theorem State.node_setChain (c : Nat) (r : ChainRec) (j : Nat) (s : State) : (s.setChain c r).node j = s.node j := rfl
@[simp] theorem State.pub_setChain (c : Nat) (r : ChainRec) (j : Nat) (s : State) : (s.setChain c r).pub j = s.pub j := rfl
@[simp] theorem State.blob_setChain (c : Nat) (r : ChainRec) (j : Nat) (s : State) : (s.setChain c r).blob j = s.blob j := rfl
@[simp] theorem State.batch_setChain (c : Nat) (r : ChainRec) (j : Nat) (s : State) : (s.setChain c r).batch j = s.batch j := rfl
@[simp] theorem State.fx_setChain (c : Nat) (r : ChainRec) (j : Nat) (s : State) : (s.setChain c r).fx j = s.fx j := rfl
@[simp] theorem State.fl_setChain (c : Nat) (r : ChainRec) (j : Nat) (s : State) : (s.setChain c r).fl j = s.fl j := rfl
@[simp] theorem State.gen_setChain (c : Nat) (r : ChainRec) (j : Nat) (s : State) : (s.setChain c r).gen j = s.gen j := rfl
@[simp] theorem State.queue_setChain (c : Nat) (r : ChainRec) (j : Nat) (s : State) : (s.setChain c r).queue j = s.queue j := rfl
@[simp] theorem State.codeRec_setChain (c : Nat) (r : ChainRec) (j : Nat) (s : State) : (s.setChain c r).codeRec j = s.codeRec j := rfl
@[simp] theorem State.acqBuf_setChain (c : Nat) (r : ChainRec) (j : Nat) (s : State) : (s.setChain c r).acqBuf j = s.acqBuf j := rfl
@[simp] theorem State.trig_setChain (c : Nat) (r : ChainRec) (j : Nat) (s : State) : (s.setChain c r).trig j = s.trig j := rfl
@[simp] theorem State.pair_setChain (c : Nat) (r : ChainRec) (j : Nat) (s : State) : (s.setChain c r).pair j = s.pair j := rfl
@[simp] theorem State.slice_setChain (c : Nat) (r : ChainRec) (j : Nat) (s : State) : (s.setChain c r).slice j = s.slice j := rfl
@[simp] theorem State.beat_setChain (c : Nat) (r : ChainRec) (j : Nat) (s : State) : (s.setChain c r).beat j = s.beat j := rfl
@[simp] theorem State.inputLevel_setChain (c : Nat) (r : ChainRec) (j : Nat) (s : State) : (s.setChain c r).inputLevel j = s.inputLevel j := rfl
@[simp] theorem State.maskEx_setChain (c : Nat) (r : ChainRec) (j : Nat) (s : State) : (s.setChain c r).maskEx j = s.maskEx j := rfl

/-! ### State.setSfd -/

@[simp] theorem State.setSfd_now (d : Nat) (r : SfdRec) (s : State) : (s.setSfd d r).now = s.now := rfl
@[simp] theorem State.setSfd_fresh (d : Nat) (r : SfdRec) (s : State) : (s.setSfd d r).fresh = s.fresh := rfl
@[simp] theorem State.setSfd_out (d : Nat) (r : SfdRec) (s : State) : (s.setSfd d r).out = s.out := rfl
@[simp] theorem State.setSfd_pending (d : Nat) (r : SfdRec) (s : State) : (s.setSfd d r).pending = s.pending := rfl
@[simp] theorem State.setSfd_od (d : Nat) (r : SfdRec) (s : State) : (s.setSfd d r).od = s.od := rfl
@[simp] theorem State.setSfd_blobs (d : Nat) (r : SfdRec) (s : State) : (s.setSfd d r).blobs = s.blobs := rfl
@[simp] theorem State.setSfd_batches (d : Nat) (r : SfdRec) (s : State) : (s.setSfd d r).batches = s.batches := rfl
@[simp] theorem State.setSfd_fixed (d : Nat) (r : SfdRec) (s : State) : (s.setSfd d r).fixed = s.fixed := rfl
@[simp] theorem State.setSfd_floats (d : Nat) (r : SfdRec) (s : State) : (s.setSfd d r).floats = s.floats := rfl
@[simp] theorem State.setSfd_gens (d : Nat) (r : SfdRec) (s : State) : (s.setSfd d r).gens = s.gens := rfl
@[simp] theorem State.setSfd_fabric (d : Nat) (r : SfdRec) (s : State) : (s.setSfd d r).fabric = s.fabric := rfl
@[simp] theorem State.setSfd_meas (d : Nat) (r : SfdRec) (s : State) : (s.setSfd d r).meas = { s.meas with sfds := Tbl.set d r s.meas.sfds } := rfl
@[simp] theorem State.setSfd_pwm (d : Nat) (r : SfdRec) (s : State) : (s.setSfd d r).pwm = s.pwm := rfl
@[simp] theorem State.setSfd_links (d : Nat) (r : SfdRec) (s : State) : (s.setSfd d r).links = s.links := rfl
@[simp] theorem State.setSfd_aux (d : Nat) (r : SfdRec) (s : State) : (s.setSfd d r).aux = s.aux := rfl
@[simp] theorem State.setSfd_island (d : Nat) (r : SfdRec) (s : State) : (s.setSfd d r).island = s.island := rfl
@[simp] theorem State.setSfd_clock (d : Nat) (r : SfdRec) (s : State) : (s.setSfd d r).clock = s.clock := rfl
@[simp] theorem State.setSfd_acq (d : Nat) (r : SfdRec) (s : State) : (s.setSfd d r).acq = s.acq := rfl
@[simp] theorem State.setSfd_log (d : Nat) (r : SfdRec) (s : State) : (s.setSfd d r).log = s.log := rfl
@[simp] theorem State.setSfd_rack (d : Nat) (r : SfdRec) (s : State) : (s.setSfd d r).rack = s.rack := rfl
@[simp] theorem State.setSfd_power (d : Nat) (r : SfdRec) (s : State) : (s.setSfd d r).power = s.power := rfl
@[simp] theorem State.setSfd_srv (d : Nat) (r : SfdRec) (s : State) : (s.setSfd d r).srv = s.srv := rfl
@[simp] theorem State.setSfd_net (d : Nat) (r : SfdRec) (s : State) : (s.setSfd d r).net = s.net := rfl
@[simp] theorem State.session_setSfd (d : Nat) (r : SfdRec) (j : Nat) (s : State) : (s.setSfd d r).session j = s.session j := rfl
@[simp] theorem State.chan_setSfd (d : Nat) (r : SfdRec) (j : Nat) (s : State) : (s.setSfd d r).chan j = s.chan j := rfl
@[simp] theorem State.chainRec_setSfd (d : Nat) (r : SfdRec) (j : Nat) (s : State) : (s.setSfd d r).chainRec j = s.chainRec j := rfl
@[simp] theorem State.sfd_setSfd_same (d : Nat) (r : SfdRec) (s : State) : (s.setSfd d r).sfd d = r := Tbl.get_set_same _ _ _ _
theorem State.sfd_setSfd_other (d : Nat) (r : SfdRec) (s : State) {j : Nat} (h : j ≠ d) : (s.setSfd d r).sfd j = s.sfd j := Tbl.get_set_other _ _ _ h
@[simp] theorem State.core_setSfd (d : Nat) (r : SfdRec) (j : Nat) (s : State) : (s.setSfd d r).core j = s.core j := rfl
@[simp] theorem State.tpo_setSfd (d : Nat) (r : SfdRec) (j : Nat) (s : State) : (s.setSfd d r).tpo j = s.tpo j := rfl
@[simp] theorem State.ptpPort_setSfd (d : Nat) (r : SfdRec) (j : Nat) (s : State) : (s.setSfd d r).ptpPort j = s.ptpPort j := rfl
@[simp] theorem State.lane_setSfd (d : Nat) (r : SfdRec) (j : Nat) (s : State) : (s.setSfd d r).lane j = s.lane j := rfl
@[simp] theorem State.fwSlot_setSfd (d : Nat) (r : SfdRec) (j : Nat) (s : State) : (s.setSfd d r).fwSlot j = s.fwSlot j := rfl
@[simp] theorem State.stage_setSfd (d : Nat) (r : SfdRec) (j : Nat) (s : State) : (s.setSfd d r).stage j = s.stage j := rfl
@[simp] theorem State.check_setSfd (d : Nat) (r : SfdRec) (j : Nat) (s : State) : (s.setSfd d r).check j = s.check j := rfl
@[simp] theorem State.circ_setSfd (d : Nat) (r : SfdRec) (j : Nat) (s : State) : (s.setSfd d r).circ j = s.circ j := rfl
@[simp] theorem State.link_setSfd (d : Nat) (r : SfdRec) (j : Nat) (s : State) : (s.setSfd d r).link j = s.link j := rfl
@[simp] theorem State.node_setSfd (d : Nat) (r : SfdRec) (j : Nat) (s : State) : (s.setSfd d r).node j = s.node j := rfl
@[simp] theorem State.pub_setSfd (d : Nat) (r : SfdRec) (j : Nat) (s : State) : (s.setSfd d r).pub j = s.pub j := rfl
@[simp] theorem State.blob_setSfd (d : Nat) (r : SfdRec) (j : Nat) (s : State) : (s.setSfd d r).blob j = s.blob j := rfl
@[simp] theorem State.batch_setSfd (d : Nat) (r : SfdRec) (j : Nat) (s : State) : (s.setSfd d r).batch j = s.batch j := rfl
@[simp] theorem State.fx_setSfd (d : Nat) (r : SfdRec) (j : Nat) (s : State) : (s.setSfd d r).fx j = s.fx j := rfl
@[simp] theorem State.fl_setSfd (d : Nat) (r : SfdRec) (j : Nat) (s : State) : (s.setSfd d r).fl j = s.fl j := rfl
@[simp] theorem State.gen_setSfd (d : Nat) (r : SfdRec) (j : Nat) (s : State) : (s.setSfd d r).gen j = s.gen j := rfl
@[simp] theorem State.queue_setSfd (d : Nat) (r : SfdRec) (j : Nat) (s : State) : (s.setSfd d r).queue j = s.queue j := rfl
@[simp] theorem State.codeRec_setSfd (d : Nat) (r : SfdRec) (j : Nat) (s : State) : (s.setSfd d r).codeRec j = s.codeRec j := rfl
@[simp] theorem State.acqBuf_setSfd (d : Nat) (r : SfdRec) (j : Nat) (s : State) : (s.setSfd d r).acqBuf j = s.acqBuf j := rfl
@[simp] theorem State.trig_setSfd (d : Nat) (r : SfdRec) (j : Nat) (s : State) : (s.setSfd d r).trig j = s.trig j := rfl
@[simp] theorem State.pair_setSfd (d : Nat) (r : SfdRec) (j : Nat) (s : State) : (s.setSfd d r).pair j = s.pair j := rfl
@[simp] theorem State.slice_setSfd (d : Nat) (r : SfdRec) (j : Nat) (s : State) : (s.setSfd d r).slice j = s.slice j := rfl
@[simp] theorem State.beat_setSfd (d : Nat) (r : SfdRec) (j : Nat) (s : State) : (s.setSfd d r).beat j = s.beat j := rfl
@[simp] theorem State.inputLevel_setSfd (d : Nat) (r : SfdRec) (j : Nat) (s : State) : (s.setSfd d r).inputLevel j = s.inputLevel j := rfl
@[simp] theorem State.maskEx_setSfd (d : Nat) (r : SfdRec) (j : Nat) (s : State) : (s.setSfd d r).maskEx j = s.maskEx j := rfl

/-! ### State.setCore -/

@[simp] theorem State.setCore_now (k : Nat) (r : CoreRec) (s : State) : (s.setCore k r).now = s.now := rfl
@[simp] theorem State.setCore_fresh (k : Nat) (r : CoreRec) (s : State) : (s.setCore k r).fresh = s.fresh := rfl
@[simp] theorem State.setCore_out (k : Nat) (r : CoreRec) (s : State) : (s.setCore k r).out = s.out := rfl
@[simp] theorem State.setCore_pending (k : Nat) (r : CoreRec) (s : State) : (s.setCore k r).pending = s.pending := rfl
@[simp] theorem State.setCore_od (k : Nat) (r : CoreRec) (s : State) : (s.setCore k r).od = s.od := rfl
@[simp] theorem State.setCore_blobs (k : Nat) (r : CoreRec) (s : State) : (s.setCore k r).blobs = s.blobs := rfl
@[simp] theorem State.setCore_batches (k : Nat) (r : CoreRec) (s : State) : (s.setCore k r).batches = s.batches := rfl
@[simp] theorem State.setCore_fixed (k : Nat) (r : CoreRec) (s : State) : (s.setCore k r).fixed = s.fixed := rfl
@[simp] theorem State.setCore_floats (k : Nat) (r : CoreRec) (s : State) : (s.setCore k r).floats = s.floats := rfl
@[simp] theorem State.setCore_gens (k : Nat) (r : CoreRec) (s : State) : (s.setCore k r).gens = s.gens := rfl
@[simp] theorem State.setCore_fabric (k : Nat) (r : CoreRec) (s : State) : (s.setCore k r).fabric = s.fabric := rfl
@[simp] theorem State.setCore_meas (k : Nat) (r : CoreRec) (s : State) : (s.setCore k r).meas = { s.meas with cores := Tbl.set k r s.meas.cores } := rfl
@[simp] theorem State.setCore_pwm (k : Nat) (r : CoreRec) (s : State) : (s.setCore k r).pwm = s.pwm := rfl
@[simp] theorem State.setCore_links (k : Nat) (r : CoreRec) (s : State) : (s.setCore k r).links = s.links := rfl
@[simp] theorem State.setCore_aux (k : Nat) (r : CoreRec) (s : State) : (s.setCore k r).aux = s.aux := rfl
@[simp] theorem State.setCore_island (k : Nat) (r : CoreRec) (s : State) : (s.setCore k r).island = s.island := rfl
@[simp] theorem State.setCore_clock (k : Nat) (r : CoreRec) (s : State) : (s.setCore k r).clock = s.clock := rfl
@[simp] theorem State.setCore_acq (k : Nat) (r : CoreRec) (s : State) : (s.setCore k r).acq = s.acq := rfl
@[simp] theorem State.setCore_log (k : Nat) (r : CoreRec) (s : State) : (s.setCore k r).log = s.log := rfl
@[simp] theorem State.setCore_rack (k : Nat) (r : CoreRec) (s : State) : (s.setCore k r).rack = s.rack := rfl
@[simp] theorem State.setCore_power (k : Nat) (r : CoreRec) (s : State) : (s.setCore k r).power = s.power := rfl
@[simp] theorem State.setCore_srv (k : Nat) (r : CoreRec) (s : State) : (s.setCore k r).srv = s.srv := rfl
@[simp] theorem State.setCore_net (k : Nat) (r : CoreRec) (s : State) : (s.setCore k r).net = s.net := rfl
@[simp] theorem State.session_setCore (k : Nat) (r : CoreRec) (j : Nat) (s : State) : (s.setCore k r).session j = s.session j := rfl
@[simp] theorem State.chan_setCore (k : Nat) (r : CoreRec) (j : Nat) (s : State) : (s.setCore k r).chan j = s.chan j := rfl
@[simp] theorem State.chainRec_setCore (k : Nat) (r : CoreRec) (j : Nat) (s : State) : (s.setCore k r).chainRec j = s.chainRec j := rfl
@[simp] theorem State.sfd_setCore (k : Nat) (r : CoreRec) (j : Nat) (s : State) : (s.setCore k r).sfd j = s.sfd j := rfl
@[simp] theorem State.core_setCore_same (k : Nat) (r : CoreRec) (s : State) : (s.setCore k r).core k = r := Tbl.get_set_same _ _ _ _
theorem State.core_setCore_other (k : Nat) (r : CoreRec) (s : State) {j : Nat} (h : j ≠ k) : (s.setCore k r).core j = s.core j := Tbl.get_set_other _ _ _ h
@[simp] theorem State.tpo_setCore (k : Nat) (r : CoreRec) (j : Nat) (s : State) : (s.setCore k r).tpo j = s.tpo j := rfl
@[simp] theorem State.ptpPort_setCore (k : Nat) (r : CoreRec) (j : Nat) (s : State) : (s.setCore k r).ptpPort j = s.ptpPort j := rfl
@[simp] theorem State.lane_setCore (k : Nat) (r : CoreRec) (j : Nat) (s : State) : (s.setCore k r).lane j = s.lane j := rfl
@[simp] theorem State.fwSlot_setCore (k : Nat) (r : CoreRec) (j : Nat) (s : State) : (s.setCore k r).fwSlot j = s.fwSlot j := rfl
@[simp] theorem State.stage_setCore (k : Nat) (r : CoreRec) (j : Nat) (s : State) : (s.setCore k r).stage j = s.stage j := rfl
@[simp] theorem State.check_setCore (k : Nat) (r : CoreRec) (j : Nat) (s : State) : (s.setCore k r).check j = s.check j := rfl
@[simp] theorem State.circ_setCore (k : Nat) (r : CoreRec) (j : Nat) (s : State) : (s.setCore k r).circ j = s.circ j := rfl
@[simp] theorem State.link_setCore (k : Nat) (r : CoreRec) (j : Nat) (s : State) : (s.setCore k r).link j = s.link j := rfl
@[simp] theorem State.node_setCore (k : Nat) (r : CoreRec) (j : Nat) (s : State) : (s.setCore k r).node j = s.node j := rfl
@[simp] theorem State.pub_setCore (k : Nat) (r : CoreRec) (j : Nat) (s : State) : (s.setCore k r).pub j = s.pub j := rfl
@[simp] theorem State.blob_setCore (k : Nat) (r : CoreRec) (j : Nat) (s : State) : (s.setCore k r).blob j = s.blob j := rfl
@[simp] theorem State.batch_setCore (k : Nat) (r : CoreRec) (j : Nat) (s : State) : (s.setCore k r).batch j = s.batch j := rfl
@[simp] theorem State.fx_setCore (k : Nat) (r : CoreRec) (j : Nat) (s : State) : (s.setCore k r).fx j = s.fx j := rfl
@[simp] theorem State.fl_setCore (k : Nat) (r : CoreRec) (j : Nat) (s : State) : (s.setCore k r).fl j = s.fl j := rfl
@[simp] theorem State.gen_setCore (k : Nat) (r : CoreRec) (j : Nat) (s : State) : (s.setCore k r).gen j = s.gen j := rfl
@[simp] theorem State.queue_setCore (k : Nat) (r : CoreRec) (j : Nat) (s : State) : (s.setCore k r).queue j = s.queue j := rfl
@[simp] theorem State.codeRec_setCore (k : Nat) (r : CoreRec) (j : Nat) (s : State) : (s.setCore k r).codeRec j = s.codeRec j := rfl
@[simp] theorem State.acqBuf_setCore (k : Nat) (r : CoreRec) (j : Nat) (s : State) : (s.setCore k r).acqBuf j = s.acqBuf j := rfl
@[simp] theorem State.trig_setCore (k : Nat) (r : CoreRec) (j : Nat) (s : State) : (s.setCore k r).trig j = s.trig j := rfl
@[simp] theorem State.pair_setCore (k : Nat) (r : CoreRec) (j : Nat) (s : State) : (s.setCore k r).pair j = s.pair j := rfl
@[simp] theorem State.slice_setCore (k : Nat) (r : CoreRec) (j : Nat) (s : State) : (s.setCore k r).slice j = s.slice j := rfl
@[simp] theorem State.beat_setCore (k : Nat) (r : CoreRec) (j : Nat) (s : State) : (s.setCore k r).beat j = s.beat j := rfl
@[simp] theorem State.inputLevel_setCore (k : Nat) (r : CoreRec) (j : Nat) (s : State) : (s.setCore k r).inputLevel j = s.inputLevel j := rfl
@[simp] theorem State.maskEx_setCore (k : Nat) (r : CoreRec) (j : Nat) (s : State) : (s.setCore k r).maskEx j = s.maskEx j := rfl

/-! ### State.modClock -/

@[simp] theorem State.modClock_now (f : Clock → Clock) (s : State) : (s.modClock f).now = s.now := rfl
@[simp] theorem State.modClock_fresh (f : Clock → Clock) (s : State) : (s.modClock f).fresh = s.fresh := rfl
@[simp] theorem State.modClock_out (f : Clock → Clock) (s : State) : (s.modClock f).out = s.out := rfl
@[simp] theorem State.modClock_pending (f : Clock → Clock) (s : State) : (s.modClock f).pending = s.pending := rfl
@[simp] theorem State.modClock_od (f : Clock → Clock) (s : State) : (s.modClock f).od = s.od := rfl
@[simp] theorem State.modClock_blobs (f : Clock → Clock) (s : State) : (s.modClock f).blobs = s.blobs := rfl
@[simp] theorem State.modClock_batches (f : Clock → Clock) (s : State) : (s.modClock f).batches = s.batches := rfl
@[simp] theorem State.modClock_fixed (f : Clock → Clock) (s : State) : (s.modClock f).fixed = s.fixed := rfl
@[simp] theorem State.modClock_floats (f : Clock → Clock) (s : State) : (s.modClock f).floats = s.floats := rfl
@[simp] theorem State.modClock_gens (f : Clock → Clock) (s : State) : (s.modClock f).gens = s.gens := rfl
@[simp] theorem State.modClock_fabric (f : Clock → Clock) (s : State) : (s.modClock f).fabric = s.fabric := rfl
@[simp] theorem State.modClock_meas (f : Clock → Clock) (s : State) : (s.modClock f).meas = s.meas := rfl
@[simp] theorem State.modClock_pwm (f : Clock → Clock) (s : State) : (s.modClock f).pwm = s.pwm := rfl
@[simp] theorem State.modClock_links (f : Clock → Clock) (s : State) : (s.modClock f).links = s.links := rfl
@[simp] theorem State.modClock_aux (f : Clock → Clock) (s : State) : (s.modClock f).aux = s.aux := rfl
@[simp] theorem State.modClock_island (f : Clock → Clock) (s : State) : (s.modClock f).island = s.island := rfl
@[simp] theorem State.modClock_clock (f : Clock → Clock) (s : State) : (s.modClock f).clock = f s.clock := rfl
@[simp] theorem State.modClock_acq (f : Clock → Clock) (s : State) : (s.modClock f).acq = s.acq := rfl
@[simp] theorem State.modClock_log (f : Clock → Clock) (s : State) : (s.modClock f).log = s.log := rfl
@[simp] theorem State.modClock_rack (f : Clock → Clock) (s : State) : (s.modClock f).rack = s.rack := rfl
@[simp] theorem State.modClock_power (f : Clock → Clock) (s : State) : (s.modClock f).power = s.power := rfl
@[simp] theorem State.modClock_srv (f : Clock → Clock) (s : State) : (s.modClock f).srv = s.srv := rfl
@[simp] theorem State.modClock_net (f : Clock → Clock) (s : State) : (s.modClock f).net = s.net := rfl
@[simp] theorem State.session_modClock (f : Clock → Clock) (j : Nat) (s : State) : (s.modClock f).session j = s.session j := rfl
@[simp] theorem State.chan_modClock (f : Clock → Clock) (j : Nat) (s : State) : (s.modClock f).chan j = s.chan j := rfl
@[simp] theorem State.chainRec_modClock (f : Clock → Clock) (j : Nat) (s : State) : (s.modClock f).chainRec j = s.chainRec j := rfl
@[simp] theorem State.sfd_modClock (f : Clock → Clock) (j : Nat) (s : State) : (s.modClock f).sfd j = s.sfd j := rfl
@[simp] theorem State.core_modClock (f : Clock → Clock) (j : Nat) (s : State) : (s.modClock f).core j = s.core j := rfl
@[simp] theorem State.lane_modClock (f : Clock → Clock) (j : Nat) (s : State) : (s.modClock f).lane j = s.lane j := rfl
@[simp] theorem State.fwSlot_modClock (f : Clock → Clock) (j : Nat) (s : State) : (s.modClock f).fwSlot j = s.fwSlot j := rfl
@[simp] theorem State.stage_modClock (f : Clock → Clock) (j : Nat) (s : State) : (s.modClock f).stage j = s.stage j := rfl
@[simp] theorem State.check_modClock (f : Clock → Clock) (j : Nat) (s : State) : (s.modClock f).check j = s.check j := rfl
@[simp] theorem State.circ_modClock (f : Clock → Clock) (j : Nat) (s : State) : (s.modClock f).circ j = s.circ j := rfl
@[simp] theorem State.link_modClock (f : Clock → Clock) (j : Nat) (s : State) : (s.modClock f).link j = s.link j := rfl
@[simp] theorem State.node_modClock (f : Clock → Clock) (j : Nat) (s : State) : (s.modClock f).node j = s.node j := rfl
@[simp] theorem State.pub_modClock (f : Clock → Clock) (j : Nat) (s : State) : (s.modClock f).pub j = s.pub j := rfl
@[simp] theorem State.blob_modClock (f : Clock → Clock) (j : Nat) (s : State) : (s.modClock f).blob j = s.blob j := rfl
@[simp] theorem State.batch_modClock (f : Clock → Clock) (j : Nat) (s : State) : (s.modClock f).batch j = s.batch j := rfl
@[simp] theorem State.fx_modClock (f : Clock → Clock) (j : Nat) (s : State) : (s.modClock f).fx j = s.fx j := rfl
@[simp] theorem State.fl_modClock (f : Clock → Clock) (j : Nat) (s : State) : (s.modClock f).fl j = s.fl j := rfl
@[simp] theorem State.gen_modClock (f : Clock → Clock) (j : Nat) (s : State) : (s.modClock f).gen j = s.gen j := rfl
@[simp] theorem State.queue_modClock (f : Clock → Clock) (j : Nat) (s : State) : (s.modClock f).queue j = s.queue j := rfl
@[simp] theorem State.codeRec_modClock (f : Clock → Clock) (j : Nat) (s : State) : (s.modClock f).codeRec j = s.codeRec j := rfl
@[simp] theorem State.acqBuf_modClock (f : Clock → Clock) (j : Nat) (s : State) : (s.modClock f).acqBuf j = s.acqBuf j := rfl
@[simp] theorem State.trig_modClock (f : Clock → Clock) (j : Nat) (s : State) : (s.modClock f).trig j = s.trig j := rfl
@[simp] theorem State.pair_modClock (f : Clock → Clock) (j : Nat) (s : State) : (s.modClock f).pair j = s.pair j := rfl
@[simp] theorem State.slice_modClock (f : Clock → Clock) (j : Nat) (s : State) : (s.modClock f).slice j = s.slice j := rfl
@[simp] theorem State.beat_modClock (f : Clock → Clock) (j : Nat) (s : State) : (s.modClock f).beat j = s.beat j := rfl
@[simp] theorem State.inputLevel_modClock (f : Clock → Clock) (j : Nat) (s : State) : (s.modClock f).inputLevel j = s.inputLevel j := rfl
@[simp] theorem State.maskEx_modClock (f : Clock → Clock) (j : Nat) (s : State) : (s.modClock f).maskEx j = s.maskEx j := rfl

/-! ### State.modPower -/

@[simp] theorem State.modPower_now (f : Power → Power) (s : State) : (s.modPower f).now = s.now := rfl
@[simp] theorem State.modPower_fresh (f : Power → Power) (s : State) : (s.modPower f).fresh = s.fresh := rfl
@[simp] theorem State.modPower_out (f : Power → Power) (s : State) : (s.modPower f).out = s.out := rfl
@[simp] theorem State.modPower_pending (f : Power → Power) (s : State) : (s.modPower f).pending = s.pending := rfl
@[simp] theorem State.modPower_od (f : Power → Power) (s : State) : (s.modPower f).od = s.od := rfl
@[simp] theorem State.modPower_blobs (f : Power → Power) (s : State) : (s.modPower f).blobs = s.blobs := rfl
@[simp] theorem State.modPower_batches (f : Power → Power) (s : State) : (s.modPower f).batches = s.batches := rfl
@[simp] theorem State.modPower_fixed (f : Power → Power) (s : State) : (s.modPower f).fixed = s.fixed := rfl
@[simp] theorem State.modPower_floats (f : Power → Power) (s : State) : (s.modPower f).floats = s.floats := rfl
@[simp] theorem State.modPower_gens (f : Power → Power) (s : State) : (s.modPower f).gens = s.gens := rfl
@[simp] theorem State.modPower_fabric (f : Power → Power) (s : State) : (s.modPower f).fabric = s.fabric := rfl
@[simp] theorem State.modPower_meas (f : Power → Power) (s : State) : (s.modPower f).meas = s.meas := rfl
@[simp] theorem State.modPower_pwm (f : Power → Power) (s : State) : (s.modPower f).pwm = s.pwm := rfl
@[simp] theorem State.modPower_links (f : Power → Power) (s : State) : (s.modPower f).links = s.links := rfl
@[simp] theorem State.modPower_aux (f : Power → Power) (s : State) : (s.modPower f).aux = s.aux := rfl
@[simp] theorem State.modPower_island (f : Power → Power) (s : State) : (s.modPower f).island = s.island := rfl
@[simp] theorem State.modPower_clock (f : Power → Power) (s : State) : (s.modPower f).clock = s.clock := rfl
@[simp] theorem State.modPower_acq (f : Power → Power) (s : State) : (s.modPower f).acq = s.acq := rfl
@[simp] theorem State.modPower_log (f : Power → Power) (s : State) : (s.modPower f).log = s.log := rfl
@[simp] theorem State.modPower_rack (f : Power → Power) (s : State) : (s.modPower f).rack = s.rack := rfl
@[simp] theorem State.modPower_power (f : Power → Power) (s : State) : (s.modPower f).power = f s.power := rfl
@[simp] theorem State.modPower_srv (f : Power → Power) (s : State) : (s.modPower f).srv = s.srv := rfl
@[simp] theorem State.modPower_net (f : Power → Power) (s : State) : (s.modPower f).net = s.net := rfl
@[simp] theorem State.session_modPower (f : Power → Power) (j : Nat) (s : State) : (s.modPower f).session j = s.session j := rfl
@[simp] theorem State.chan_modPower (f : Power → Power) (j : Nat) (s : State) : (s.modPower f).chan j = s.chan j := rfl
@[simp] theorem State.chainRec_modPower (f : Power → Power) (j : Nat) (s : State) : (s.modPower f).chainRec j = s.chainRec j := rfl
@[simp] theorem State.sfd_modPower (f : Power → Power) (j : Nat) (s : State) : (s.modPower f).sfd j = s.sfd j := rfl
@[simp] theorem State.core_modPower (f : Power → Power) (j : Nat) (s : State) : (s.modPower f).core j = s.core j := rfl
@[simp] theorem State.tpo_modPower (f : Power → Power) (j : Nat) (s : State) : (s.modPower f).tpo j = s.tpo j := rfl
@[simp] theorem State.ptpPort_modPower (f : Power → Power) (j : Nat) (s : State) : (s.modPower f).ptpPort j = s.ptpPort j := rfl
@[simp] theorem State.lane_modPower (f : Power → Power) (j : Nat) (s : State) : (s.modPower f).lane j = s.lane j := rfl
@[simp] theorem State.fwSlot_modPower (f : Power → Power) (j : Nat) (s : State) : (s.modPower f).fwSlot j = s.fwSlot j := rfl
@[simp] theorem State.stage_modPower (f : Power → Power) (j : Nat) (s : State) : (s.modPower f).stage j = s.stage j := rfl
@[simp] theorem State.check_modPower (f : Power → Power) (j : Nat) (s : State) : (s.modPower f).check j = s.check j := rfl
@[simp] theorem State.circ_modPower (f : Power → Power) (j : Nat) (s : State) : (s.modPower f).circ j = s.circ j := rfl
@[simp] theorem State.link_modPower (f : Power → Power) (j : Nat) (s : State) : (s.modPower f).link j = s.link j := rfl
@[simp] theorem State.node_modPower (f : Power → Power) (j : Nat) (s : State) : (s.modPower f).node j = s.node j := rfl
@[simp] theorem State.pub_modPower (f : Power → Power) (j : Nat) (s : State) : (s.modPower f).pub j = s.pub j := rfl
@[simp] theorem State.blob_modPower (f : Power → Power) (j : Nat) (s : State) : (s.modPower f).blob j = s.blob j := rfl
@[simp] theorem State.batch_modPower (f : Power → Power) (j : Nat) (s : State) : (s.modPower f).batch j = s.batch j := rfl
@[simp] theorem State.fx_modPower (f : Power → Power) (j : Nat) (s : State) : (s.modPower f).fx j = s.fx j := rfl
@[simp] theorem State.fl_modPower (f : Power → Power) (j : Nat) (s : State) : (s.modPower f).fl j = s.fl j := rfl
@[simp] theorem State.gen_modPower (f : Power → Power) (j : Nat) (s : State) : (s.modPower f).gen j = s.gen j := rfl
@[simp] theorem State.queue_modPower (f : Power → Power) (j : Nat) (s : State) : (s.modPower f).queue j = s.queue j := rfl
@[simp] theorem State.codeRec_modPower (f : Power → Power) (j : Nat) (s : State) : (s.modPower f).codeRec j = s.codeRec j := rfl
@[simp] theorem State.acqBuf_modPower (f : Power → Power) (j : Nat) (s : State) : (s.modPower f).acqBuf j = s.acqBuf j := rfl
@[simp] theorem State.trig_modPower (f : Power → Power) (j : Nat) (s : State) : (s.modPower f).trig j = s.trig j := rfl
@[simp] theorem State.pair_modPower (f : Power → Power) (j : Nat) (s : State) : (s.modPower f).pair j = s.pair j := rfl
@[simp] theorem State.slice_modPower (f : Power → Power) (j : Nat) (s : State) : (s.modPower f).slice j = s.slice j := rfl
@[simp] theorem State.beat_modPower (f : Power → Power) (j : Nat) (s : State) : (s.modPower f).beat j = s.beat j := rfl
@[simp] theorem State.inputLevel_modPower (f : Power → Power) (j : Nat) (s : State) : (s.modPower f).inputLevel j = s.inputLevel j := rfl
@[simp] theorem State.maskEx_modPower (f : Power → Power) (j : Nat) (s : State) : (s.modPower f).maskEx j = s.maskEx j := rfl

/-! ### State.senseSupply -/

@[simp] theorem State.senseSupply_now (i mv : Nat) (s : State) : (s.senseSupply i mv).now = s.now := rfl
@[simp] theorem State.senseSupply_fresh (i mv : Nat) (s : State) : (s.senseSupply i mv).fresh = s.fresh := rfl
@[simp] theorem State.senseSupply_out (i mv : Nat) (s : State) : (s.senseSupply i mv).out = s.out := rfl
@[simp] theorem State.senseSupply_pending (i mv : Nat) (s : State) : (s.senseSupply i mv).pending = s.pending := rfl
@[simp] theorem State.senseSupply_od (i mv : Nat) (s : State) : (s.senseSupply i mv).od = s.od := rfl
@[simp] theorem State.senseSupply_blobs (i mv : Nat) (s : State) : (s.senseSupply i mv).blobs = s.blobs := rfl
@[simp] theorem State.senseSupply_batches (i mv : Nat) (s : State) : (s.senseSupply i mv).batches = s.batches := rfl
@[simp] theorem State.senseSupply_fixed (i mv : Nat) (s : State) : (s.senseSupply i mv).fixed = s.fixed := rfl
@[simp] theorem State.senseSupply_floats (i mv : Nat) (s : State) : (s.senseSupply i mv).floats = s.floats := rfl
@[simp] theorem State.senseSupply_gens (i mv : Nat) (s : State) : (s.senseSupply i mv).gens = s.gens := rfl
@[simp] theorem State.senseSupply_fabric (i mv : Nat) (s : State) : (s.senseSupply i mv).fabric = s.fabric := rfl
@[simp] theorem State.senseSupply_meas (i mv : Nat) (s : State) : (s.senseSupply i mv).meas = s.meas := rfl
@[simp] theorem State.senseSupply_pwm (i mv : Nat) (s : State) : (s.senseSupply i mv).pwm = s.pwm := rfl
@[simp] theorem State.senseSupply_links (i mv : Nat) (s : State) : (s.senseSupply i mv).links = s.links := rfl
@[simp] theorem State.senseSupply_aux (i mv : Nat) (s : State) : (s.senseSupply i mv).aux = { s.aux with supplies := Tbl.set i (s.now, mv % 65536) s.aux.supplies } := rfl
@[simp] theorem State.senseSupply_island (i mv : Nat) (s : State) : (s.senseSupply i mv).island = s.island := rfl
@[simp] theorem State.senseSupply_clock (i mv : Nat) (s : State) : (s.senseSupply i mv).clock = s.clock := rfl
@[simp] theorem State.senseSupply_acq (i mv : Nat) (s : State) : (s.senseSupply i mv).acq = s.acq := rfl
@[simp] theorem State.senseSupply_log (i mv : Nat) (s : State) : (s.senseSupply i mv).log = s.log := rfl
@[simp] theorem State.senseSupply_rack (i mv : Nat) (s : State) : (s.senseSupply i mv).rack = s.rack := rfl
@[simp] theorem State.senseSupply_power (i mv : Nat) (s : State) : (s.senseSupply i mv).power = s.power := rfl
@[simp] theorem State.senseSupply_srv (i mv : Nat) (s : State) : (s.senseSupply i mv).srv = s.srv := rfl
@[simp] theorem State.senseSupply_net (i mv : Nat) (s : State) : (s.senseSupply i mv).net = s.net := rfl
@[simp] theorem State.session_senseSupply (i mv : Nat) (j : Nat) (s : State) : (s.senseSupply i mv).session j = s.session j := rfl
@[simp] theorem State.chan_senseSupply (i mv : Nat) (j : Nat) (s : State) : (s.senseSupply i mv).chan j = s.chan j := rfl
@[simp] theorem State.chainRec_senseSupply (i mv : Nat) (j : Nat) (s : State) : (s.senseSupply i mv).chainRec j = s.chainRec j := rfl
@[simp] theorem State.sfd_senseSupply (i mv : Nat) (j : Nat) (s : State) : (s.senseSupply i mv).sfd j = s.sfd j := rfl
@[simp] theorem State.core_senseSupply (i mv : Nat) (j : Nat) (s : State) : (s.senseSupply i mv).core j = s.core j := rfl
@[simp] theorem State.tpo_senseSupply (i mv : Nat) (j : Nat) (s : State) : (s.senseSupply i mv).tpo j = s.tpo j := rfl
@[simp] theorem State.ptpPort_senseSupply (i mv : Nat) (j : Nat) (s : State) : (s.senseSupply i mv).ptpPort j = s.ptpPort j := rfl
@[simp] theorem State.lane_senseSupply (i mv : Nat) (j : Nat) (s : State) : (s.senseSupply i mv).lane j = s.lane j := rfl
@[simp] theorem State.fwSlot_senseSupply (i mv : Nat) (j : Nat) (s : State) : (s.senseSupply i mv).fwSlot j = s.fwSlot j := rfl
@[simp] theorem State.stage_senseSupply (i mv : Nat) (j : Nat) (s : State) : (s.senseSupply i mv).stage j = s.stage j := rfl
@[simp] theorem State.check_senseSupply (i mv : Nat) (j : Nat) (s : State) : (s.senseSupply i mv).check j = s.check j := rfl
@[simp] theorem State.circ_senseSupply (i mv : Nat) (j : Nat) (s : State) : (s.senseSupply i mv).circ j = s.circ j := rfl
@[simp] theorem State.link_senseSupply (i mv : Nat) (j : Nat) (s : State) : (s.senseSupply i mv).link j = s.link j := rfl
@[simp] theorem State.node_senseSupply (i mv : Nat) (j : Nat) (s : State) : (s.senseSupply i mv).node j = s.node j := rfl
@[simp] theorem State.pub_senseSupply (i mv : Nat) (j : Nat) (s : State) : (s.senseSupply i mv).pub j = s.pub j := rfl
@[simp] theorem State.blob_senseSupply (i mv : Nat) (j : Nat) (s : State) : (s.senseSupply i mv).blob j = s.blob j := rfl
@[simp] theorem State.batch_senseSupply (i mv : Nat) (j : Nat) (s : State) : (s.senseSupply i mv).batch j = s.batch j := rfl
@[simp] theorem State.fx_senseSupply (i mv : Nat) (j : Nat) (s : State) : (s.senseSupply i mv).fx j = s.fx j := rfl
@[simp] theorem State.fl_senseSupply (i mv : Nat) (j : Nat) (s : State) : (s.senseSupply i mv).fl j = s.fl j := rfl
@[simp] theorem State.gen_senseSupply (i mv : Nat) (j : Nat) (s : State) : (s.senseSupply i mv).gen j = s.gen j := rfl
@[simp] theorem State.queue_senseSupply (i mv : Nat) (j : Nat) (s : State) : (s.senseSupply i mv).queue j = s.queue j := rfl
@[simp] theorem State.codeRec_senseSupply (i mv : Nat) (j : Nat) (s : State) : (s.senseSupply i mv).codeRec j = s.codeRec j := rfl
@[simp] theorem State.acqBuf_senseSupply (i mv : Nat) (j : Nat) (s : State) : (s.senseSupply i mv).acqBuf j = s.acqBuf j := rfl
@[simp] theorem State.trig_senseSupply (i mv : Nat) (j : Nat) (s : State) : (s.senseSupply i mv).trig j = s.trig j := rfl
@[simp] theorem State.pair_senseSupply (i mv : Nat) (j : Nat) (s : State) : (s.senseSupply i mv).pair j = s.pair j := rfl
@[simp] theorem State.slice_senseSupply (i mv : Nat) (j : Nat) (s : State) : (s.senseSupply i mv).slice j = s.slice j := rfl
@[simp] theorem State.beat_senseSupply (i mv : Nat) (j : Nat) (s : State) : (s.senseSupply i mv).beat j = s.beat j := rfl
@[simp] theorem State.inputLevel_senseSupply (i mv : Nat) (j : Nat) (s : State) : (s.senseSupply i mv).inputLevel j = s.inputLevel j := rfl
@[simp] theorem State.maskEx_senseSupply (i mv : Nat) (j : Nat) (s : State) : (s.senseSupply i mv).maskEx j = s.maskEx j := rfl

/-! ### State.setLane -/

@[simp] theorem State.setLane_now (l : Nat) (r : LaneRec) (s : State) : (s.setLane l r).now = s.now := rfl
@[simp] theorem State.setLane_fresh (l : Nat) (r : LaneRec) (s : State) : (s.setLane l r).fresh = s.fresh := rfl
@[simp] theorem State.setLane_out (l : Nat) (r : LaneRec) (s : State) : (s.setLane l r).out = s.out := rfl
@[simp] theorem State.setLane_pending (l : Nat) (r : LaneRec) (s : State) : (s.setLane l r).pending = s.pending := rfl
@[simp] theorem State.setLane_od (l : Nat) (r : LaneRec) (s : State) : (s.setLane l r).od = s.od := rfl
@[simp] theorem State.setLane_blobs (l : Nat) (r : LaneRec) (s : State) : (s.setLane l r).blobs = s.blobs := rfl
@[simp] theorem State.setLane_batches (l : Nat) (r : LaneRec) (s : State) : (s.setLane l r).batches = s.batches := rfl
@[simp] theorem State.setLane_fixed (l : Nat) (r : LaneRec) (s : State) : (s.setLane l r).fixed = s.fixed := rfl
@[simp] theorem State.setLane_floats (l : Nat) (r : LaneRec) (s : State) : (s.setLane l r).floats = s.floats := rfl
@[simp] theorem State.setLane_gens (l : Nat) (r : LaneRec) (s : State) : (s.setLane l r).gens = s.gens := rfl
@[simp] theorem State.setLane_fabric (l : Nat) (r : LaneRec) (s : State) : (s.setLane l r).fabric = { s.fabric with lanes := Tbl.set l r s.fabric.lanes } := rfl
@[simp] theorem State.setLane_meas (l : Nat) (r : LaneRec) (s : State) : (s.setLane l r).meas = s.meas := rfl
@[simp] theorem State.setLane_pwm (l : Nat) (r : LaneRec) (s : State) : (s.setLane l r).pwm = s.pwm := rfl
@[simp] theorem State.setLane_links (l : Nat) (r : LaneRec) (s : State) : (s.setLane l r).links = s.links := rfl
@[simp] theorem State.setLane_aux (l : Nat) (r : LaneRec) (s : State) : (s.setLane l r).aux = s.aux := rfl
@[simp] theorem State.setLane_island (l : Nat) (r : LaneRec) (s : State) : (s.setLane l r).island = s.island := rfl
@[simp] theorem State.setLane_clock (l : Nat) (r : LaneRec) (s : State) : (s.setLane l r).clock = s.clock := rfl
@[simp] theorem State.setLane_acq (l : Nat) (r : LaneRec) (s : State) : (s.setLane l r).acq = s.acq := rfl
@[simp] theorem State.setLane_log (l : Nat) (r : LaneRec) (s : State) : (s.setLane l r).log = s.log := rfl
@[simp] theorem State.setLane_rack (l : Nat) (r : LaneRec) (s : State) : (s.setLane l r).rack = s.rack := rfl
@[simp] theorem State.setLane_power (l : Nat) (r : LaneRec) (s : State) : (s.setLane l r).power = s.power := rfl
@[simp] theorem State.setLane_srv (l : Nat) (r : LaneRec) (s : State) : (s.setLane l r).srv = s.srv := rfl
@[simp] theorem State.setLane_net (l : Nat) (r : LaneRec) (s : State) : (s.setLane l r).net = s.net := rfl
@[simp] theorem State.session_setLane (l : Nat) (r : LaneRec) (j : Nat) (s : State) : (s.setLane l r).session j = s.session j := rfl
@[simp] theorem State.chan_setLane (l : Nat) (r : LaneRec) (j : Nat) (s : State) : (s.setLane l r).chan j = s.chan j := rfl
@[simp] theorem State.chainRec_setLane (l : Nat) (r : LaneRec) (j : Nat) (s : State) : (s.setLane l r).chainRec j = s.chainRec j := rfl
@[simp] theorem State.sfd_setLane (l : Nat) (r : LaneRec) (j : Nat) (s : State) : (s.setLane l r).sfd j = s.sfd j := rfl
@[simp] theorem State.core_setLane (l : Nat) (r : LaneRec) (j : Nat) (s : State) : (s.setLane l r).core j = s.core j := rfl
@[simp] theorem State.tpo_setLane (l : Nat) (r : LaneRec) (j : Nat) (s : State) : (s.setLane l r).tpo j = s.tpo j := rfl
@[simp] theorem State.ptpPort_setLane (l : Nat) (r : LaneRec) (j : Nat) (s : State) : (s.setLane l r).ptpPort j = s.ptpPort j := rfl
@[simp] theorem State.lane_setLane_same (l : Nat) (r : LaneRec) (s : State) : (s.setLane l r).lane l = r := Tbl.get_set_same _ _ _ _
theorem State.lane_setLane_other (l : Nat) (r : LaneRec) (s : State) {j : Nat} (h : j ≠ l) : (s.setLane l r).lane j = s.lane j := Tbl.get_set_other _ _ _ h
@[simp] theorem State.fwSlot_setLane (l : Nat) (r : LaneRec) (j : Nat) (s : State) : (s.setLane l r).fwSlot j = s.fwSlot j := rfl
@[simp] theorem State.stage_setLane (l : Nat) (r : LaneRec) (j : Nat) (s : State) : (s.setLane l r).stage j = s.stage j := rfl
@[simp] theorem State.check_setLane (l : Nat) (r : LaneRec) (j : Nat) (s : State) : (s.setLane l r).check j = s.check j := rfl
@[simp] theorem State.circ_setLane (l : Nat) (r : LaneRec) (j : Nat) (s : State) : (s.setLane l r).circ j = s.circ j := rfl
@[simp] theorem State.link_setLane (l : Nat) (r : LaneRec) (j : Nat) (s : State) : (s.setLane l r).link j = s.link j := rfl
@[simp] theorem State.node_setLane (l : Nat) (r : LaneRec) (j : Nat) (s : State) : (s.setLane l r).node j = s.node j := rfl
@[simp] theorem State.pub_setLane (l : Nat) (r : LaneRec) (j : Nat) (s : State) : (s.setLane l r).pub j = s.pub j := rfl
@[simp] theorem State.blob_setLane (l : Nat) (r : LaneRec) (j : Nat) (s : State) : (s.setLane l r).blob j = s.blob j := rfl
@[simp] theorem State.batch_setLane (l : Nat) (r : LaneRec) (j : Nat) (s : State) : (s.setLane l r).batch j = s.batch j := rfl
@[simp] theorem State.fx_setLane (l : Nat) (r : LaneRec) (j : Nat) (s : State) : (s.setLane l r).fx j = s.fx j := rfl
@[simp] theorem State.fl_setLane (l : Nat) (r : LaneRec) (j : Nat) (s : State) : (s.setLane l r).fl j = s.fl j := rfl
@[simp] theorem State.gen_setLane (l : Nat) (r : LaneRec) (j : Nat) (s : State) : (s.setLane l r).gen j = s.gen j := rfl
@[simp] theorem State.queue_setLane (l : Nat) (r : LaneRec) (j : Nat) (s : State) : (s.setLane l r).queue j = s.queue j := rfl
@[simp] theorem State.codeRec_setLane (l : Nat) (r : LaneRec) (j : Nat) (s : State) : (s.setLane l r).codeRec j = s.codeRec j := rfl
@[simp] theorem State.acqBuf_setLane (l : Nat) (r : LaneRec) (j : Nat) (s : State) : (s.setLane l r).acqBuf j = s.acqBuf j := rfl
@[simp] theorem State.trig_setLane (l : Nat) (r : LaneRec) (j : Nat) (s : State) : (s.setLane l r).trig j = s.trig j := rfl
@[simp] theorem State.pair_setLane (l : Nat) (r : LaneRec) (j : Nat) (s : State) : (s.setLane l r).pair j = s.pair j := rfl
@[simp] theorem State.slice_setLane (l : Nat) (r : LaneRec) (j : Nat) (s : State) : (s.setLane l r).slice j = s.slice j := rfl
@[simp] theorem State.beat_setLane (l : Nat) (r : LaneRec) (j : Nat) (s : State) : (s.setLane l r).beat j = s.beat j := rfl
@[simp] theorem State.inputLevel_setLane (l : Nat) (r : LaneRec) (j : Nat) (s : State) : (s.setLane l r).inputLevel j = s.inputLevel j := rfl
@[simp] theorem State.maskEx_setLane (l : Nat) (r : LaneRec) (j : Nat) (s : State) : (s.setLane l r).maskEx j = s.maskEx j := rfl

/-! ### State.setQueue -/

@[simp] theorem State.setQueue_now (q : Nat) (r : QueueRec) (s : State) : (s.setQueue q r).now = s.now := rfl
@[simp] theorem State.setQueue_fresh (q : Nat) (r : QueueRec) (s : State) : (s.setQueue q r).fresh = s.fresh := rfl
@[simp] theorem State.setQueue_out (q : Nat) (r : QueueRec) (s : State) : (s.setQueue q r).out = s.out := rfl
@[simp] theorem State.setQueue_pending (q : Nat) (r : QueueRec) (s : State) : (s.setQueue q r).pending = s.pending := rfl
@[simp] theorem State.setQueue_od (q : Nat) (r : QueueRec) (s : State) : (s.setQueue q r).od = s.od := rfl
@[simp] theorem State.setQueue_blobs (q : Nat) (r : QueueRec) (s : State) : (s.setQueue q r).blobs = s.blobs := rfl
@[simp] theorem State.setQueue_batches (q : Nat) (r : QueueRec) (s : State) : (s.setQueue q r).batches = s.batches := rfl
@[simp] theorem State.setQueue_fixed (q : Nat) (r : QueueRec) (s : State) : (s.setQueue q r).fixed = s.fixed := rfl
@[simp] theorem State.setQueue_floats (q : Nat) (r : QueueRec) (s : State) : (s.setQueue q r).floats = s.floats := rfl
@[simp] theorem State.setQueue_gens (q : Nat) (r : QueueRec) (s : State) : (s.setQueue q r).gens = s.gens := rfl
@[simp] theorem State.setQueue_fabric (q : Nat) (r : QueueRec) (s : State) : (s.setQueue q r).fabric = { s.fabric with queues := Tbl.set q r s.fabric.queues } := rfl
@[simp] theorem State.setQueue_meas (q : Nat) (r : QueueRec) (s : State) : (s.setQueue q r).meas = s.meas := rfl
@[simp] theorem State.setQueue_pwm (q : Nat) (r : QueueRec) (s : State) : (s.setQueue q r).pwm = s.pwm := rfl
@[simp] theorem State.setQueue_links (q : Nat) (r : QueueRec) (s : State) : (s.setQueue q r).links = s.links := rfl
@[simp] theorem State.setQueue_aux (q : Nat) (r : QueueRec) (s : State) : (s.setQueue q r).aux = s.aux := rfl
@[simp] theorem State.setQueue_island (q : Nat) (r : QueueRec) (s : State) : (s.setQueue q r).island = s.island := rfl
@[simp] theorem State.setQueue_clock (q : Nat) (r : QueueRec) (s : State) : (s.setQueue q r).clock = s.clock := rfl
@[simp] theorem State.setQueue_acq (q : Nat) (r : QueueRec) (s : State) : (s.setQueue q r).acq = s.acq := rfl
@[simp] theorem State.setQueue_log (q : Nat) (r : QueueRec) (s : State) : (s.setQueue q r).log = s.log := rfl
@[simp] theorem State.setQueue_rack (q : Nat) (r : QueueRec) (s : State) : (s.setQueue q r).rack = s.rack := rfl
@[simp] theorem State.setQueue_power (q : Nat) (r : QueueRec) (s : State) : (s.setQueue q r).power = s.power := rfl
@[simp] theorem State.setQueue_srv (q : Nat) (r : QueueRec) (s : State) : (s.setQueue q r).srv = s.srv := rfl
@[simp] theorem State.setQueue_net (q : Nat) (r : QueueRec) (s : State) : (s.setQueue q r).net = s.net := rfl
@[simp] theorem State.session_setQueue (q : Nat) (r : QueueRec) (j : Nat) (s : State) : (s.setQueue q r).session j = s.session j := rfl
@[simp] theorem State.chan_setQueue (q : Nat) (r : QueueRec) (j : Nat) (s : State) : (s.setQueue q r).chan j = s.chan j := rfl
@[simp] theorem State.chainRec_setQueue (q : Nat) (r : QueueRec) (j : Nat) (s : State) : (s.setQueue q r).chainRec j = s.chainRec j := rfl
@[simp] theorem State.sfd_setQueue (q : Nat) (r : QueueRec) (j : Nat) (s : State) : (s.setQueue q r).sfd j = s.sfd j := rfl
@[simp] theorem State.core_setQueue (q : Nat) (r : QueueRec) (j : Nat) (s : State) : (s.setQueue q r).core j = s.core j := rfl
@[simp] theorem State.tpo_setQueue (q : Nat) (r : QueueRec) (j : Nat) (s : State) : (s.setQueue q r).tpo j = s.tpo j := rfl
@[simp] theorem State.ptpPort_setQueue (q : Nat) (r : QueueRec) (j : Nat) (s : State) : (s.setQueue q r).ptpPort j = s.ptpPort j := rfl
@[simp] theorem State.lane_setQueue (q : Nat) (r : QueueRec) (j : Nat) (s : State) : (s.setQueue q r).lane j = s.lane j := rfl
@[simp] theorem State.fwSlot_setQueue (q : Nat) (r : QueueRec) (j : Nat) (s : State) : (s.setQueue q r).fwSlot j = s.fwSlot j := rfl
@[simp] theorem State.stage_setQueue (q : Nat) (r : QueueRec) (j : Nat) (s : State) : (s.setQueue q r).stage j = s.stage j := rfl
@[simp] theorem State.check_setQueue (q : Nat) (r : QueueRec) (j : Nat) (s : State) : (s.setQueue q r).check j = s.check j := rfl
@[simp] theorem State.circ_setQueue (q : Nat) (r : QueueRec) (j : Nat) (s : State) : (s.setQueue q r).circ j = s.circ j := rfl
@[simp] theorem State.link_setQueue (q : Nat) (r : QueueRec) (j : Nat) (s : State) : (s.setQueue q r).link j = s.link j := rfl
@[simp] theorem State.node_setQueue (q : Nat) (r : QueueRec) (j : Nat) (s : State) : (s.setQueue q r).node j = s.node j := rfl
@[simp] theorem State.pub_setQueue (q : Nat) (r : QueueRec) (j : Nat) (s : State) : (s.setQueue q r).pub j = s.pub j := rfl
@[simp] theorem State.blob_setQueue (q : Nat) (r : QueueRec) (j : Nat) (s : State) : (s.setQueue q r).blob j = s.blob j := rfl
@[simp] theorem State.batch_setQueue (q : Nat) (r : QueueRec) (j : Nat) (s : State) : (s.setQueue q r).batch j = s.batch j := rfl
@[simp] theorem State.fx_setQueue (q : Nat) (r : QueueRec) (j : Nat) (s : State) : (s.setQueue q r).fx j = s.fx j := rfl
@[simp] theorem State.fl_setQueue (q : Nat) (r : QueueRec) (j : Nat) (s : State) : (s.setQueue q r).fl j = s.fl j := rfl
@[simp] theorem State.gen_setQueue (q : Nat) (r : QueueRec) (j : Nat) (s : State) : (s.setQueue q r).gen j = s.gen j := rfl
@[simp] theorem State.queue_setQueue_same (q : Nat) (r : QueueRec) (s : State) : (s.setQueue q r).queue q = r := Tbl.get_set_same _ _ _ _
theorem State.queue_setQueue_other (q : Nat) (r : QueueRec) (s : State) {j : Nat} (h : j ≠ q) : (s.setQueue q r).queue j = s.queue j := Tbl.get_set_other _ _ _ h
@[simp] theorem State.codeRec_setQueue (q : Nat) (r : QueueRec) (j : Nat) (s : State) : (s.setQueue q r).codeRec j = s.codeRec j := rfl
@[simp] theorem State.acqBuf_setQueue (q : Nat) (r : QueueRec) (j : Nat) (s : State) : (s.setQueue q r).acqBuf j = s.acqBuf j := rfl
@[simp] theorem State.trig_setQueue (q : Nat) (r : QueueRec) (j : Nat) (s : State) : (s.setQueue q r).trig j = s.trig j := rfl
@[simp] theorem State.pair_setQueue (q : Nat) (r : QueueRec) (j : Nat) (s : State) : (s.setQueue q r).pair j = s.pair j := rfl
@[simp] theorem State.slice_setQueue (q : Nat) (r : QueueRec) (j : Nat) (s : State) : (s.setQueue q r).slice j = s.slice j := rfl
@[simp] theorem State.beat_setQueue (q : Nat) (r : QueueRec) (j : Nat) (s : State) : (s.setQueue q r).beat j = s.beat j := rfl
@[simp] theorem State.inputLevel_setQueue (q : Nat) (r : QueueRec) (j : Nat) (s : State) : (s.setQueue q r).inputLevel j = s.inputLevel j := rfl
@[simp] theorem State.maskEx_setQueue (q : Nat) (r : QueueRec) (j : Nat) (s : State) : (s.setQueue q r).maskEx j = s.maskEx j := rfl

/-! ### State.setStage -/

@[simp] theorem State.setStage_now (i : Nat) (r : Stage) (s : State) : (s.setStage i r).now = s.now := rfl
@[simp] theorem State.setStage_fresh (i : Nat) (r : Stage) (s : State) : (s.setStage i r).fresh = s.fresh := rfl
@[simp] theorem State.setStage_out (i : Nat) (r : Stage) (s : State) : (s.setStage i r).out = s.out := rfl
@[simp] theorem State.setStage_pending (i : Nat) (r : Stage) (s : State) : (s.setStage i r).pending = s.pending := rfl
@[simp] theorem State.setStage_od (i : Nat) (r : Stage) (s : State) : (s.setStage i r).od = s.od := rfl
@[simp] theorem State.setStage_blobs (i : Nat) (r : Stage) (s : State) : (s.setStage i r).blobs = s.blobs := rfl
@[simp] theorem State.setStage_batches (i : Nat) (r : Stage) (s : State) : (s.setStage i r).batches = s.batches := rfl
@[simp] theorem State.setStage_fixed (i : Nat) (r : Stage) (s : State) : (s.setStage i r).fixed = s.fixed := rfl
@[simp] theorem State.setStage_floats (i : Nat) (r : Stage) (s : State) : (s.setStage i r).floats = s.floats := rfl
@[simp] theorem State.setStage_gens (i : Nat) (r : Stage) (s : State) : (s.setStage i r).gens = s.gens := rfl
@[simp] theorem State.setStage_fabric (i : Nat) (r : Stage) (s : State) : (s.setStage i r).fabric = s.fabric := rfl
@[simp] theorem State.setStage_meas (i : Nat) (r : Stage) (s : State) : (s.setStage i r).meas = s.meas := rfl
@[simp] theorem State.setStage_pwm (i : Nat) (r : Stage) (s : State) : (s.setStage i r).pwm = s.pwm := rfl
@[simp] theorem State.setStage_links (i : Nat) (r : Stage) (s : State) : (s.setStage i r).links = s.links := rfl
@[simp] theorem State.setStage_aux (i : Nat) (r : Stage) (s : State) : (s.setStage i r).aux = s.aux := rfl
@[simp] theorem State.setStage_island (i : Nat) (r : Stage) (s : State) : (s.setStage i r).island = { s.island with stages := Tbl.set i r s.island.stages } := rfl
@[simp] theorem State.setStage_clock (i : Nat) (r : Stage) (s : State) : (s.setStage i r).clock = s.clock := rfl
@[simp] theorem State.setStage_acq (i : Nat) (r : Stage) (s : State) : (s.setStage i r).acq = s.acq := rfl
@[simp] theorem State.setStage_log (i : Nat) (r : Stage) (s : State) : (s.setStage i r).log = s.log := rfl
@[simp] theorem State.setStage_rack (i : Nat) (r : Stage) (s : State) : (s.setStage i r).rack = s.rack := rfl
@[simp] theorem State.setStage_power (i : Nat) (r : Stage) (s : State) : (s.setStage i r).power = s.power := rfl
@[simp] theorem State.setStage_srv (i : Nat) (r : Stage) (s : State) : (s.setStage i r).srv = s.srv := rfl
@[simp] theorem State.setStage_net (i : Nat) (r : Stage) (s : State) : (s.setStage i r).net = s.net := rfl
@[simp] theorem State.session_setStage (i : Nat) (r : Stage) (j : Nat) (s : State) : (s.setStage i r).session j = s.session j := rfl
@[simp] theorem State.chan_setStage (i : Nat) (r : Stage) (j : Nat) (s : State) : (s.setStage i r).chan j = s.chan j := rfl
@[simp] theorem State.chainRec_setStage (i : Nat) (r : Stage) (j : Nat) (s : State) : (s.setStage i r).chainRec j = s.chainRec j := rfl
@[simp] theorem State.sfd_setStage (i : Nat) (r : Stage) (j : Nat) (s : State) : (s.setStage i r).sfd j = s.sfd j := rfl
@[simp] theorem State.core_setStage (i : Nat) (r : Stage) (j : Nat) (s : State) : (s.setStage i r).core j = s.core j := rfl
@[simp] theorem State.tpo_setStage (i : Nat) (r : Stage) (j : Nat) (s : State) : (s.setStage i r).tpo j = s.tpo j := rfl
@[simp] theorem State.ptpPort_setStage (i : Nat) (r : Stage) (j : Nat) (s : State) : (s.setStage i r).ptpPort j = s.ptpPort j := rfl
@[simp] theorem State.lane_setStage (i : Nat) (r : Stage) (j : Nat) (s : State) : (s.setStage i r).lane j = s.lane j := rfl
@[simp] theorem State.fwSlot_setStage (i : Nat) (r : Stage) (j : Nat) (s : State) : (s.setStage i r).fwSlot j = s.fwSlot j := rfl
@[simp] theorem State.stage_setStage_same (i : Nat) (r : Stage) (s : State) : (s.setStage i r).stage i = r := Tbl.get_set_same _ _ _ _
theorem State.stage_setStage_other (i : Nat) (r : Stage) (s : State) {j : Nat} (h : j ≠ i) : (s.setStage i r).stage j = s.stage j := Tbl.get_set_other _ _ _ h
@[simp] theorem State.check_setStage (i : Nat) (r : Stage) (j : Nat) (s : State) : (s.setStage i r).check j = s.check j := rfl
@[simp] theorem State.circ_setStage (i : Nat) (r : Stage) (j : Nat) (s : State) : (s.setStage i r).circ j = s.circ j := rfl
@[simp] theorem State.link_setStage (i : Nat) (r : Stage) (j : Nat) (s : State) : (s.setStage i r).link j = s.link j := rfl
@[simp] theorem State.node_setStage (i : Nat) (r : Stage) (j : Nat) (s : State) : (s.setStage i r).node j = s.node j := rfl
@[simp] theorem State.pub_setStage (i : Nat) (r : Stage) (j : Nat) (s : State) : (s.setStage i r).pub j = s.pub j := rfl
@[simp] theorem State.blob_setStage (i : Nat) (r : Stage) (j : Nat) (s : State) : (s.setStage i r).blob j = s.blob j := rfl
@[simp] theorem State.batch_setStage (i : Nat) (r : Stage) (j : Nat) (s : State) : (s.setStage i r).batch j = s.batch j := rfl
@[simp] theorem State.fx_setStage (i : Nat) (r : Stage) (j : Nat) (s : State) : (s.setStage i r).fx j = s.fx j := rfl
@[simp] theorem State.fl_setStage (i : Nat) (r : Stage) (j : Nat) (s : State) : (s.setStage i r).fl j = s.fl j := rfl
@[simp] theorem State.gen_setStage (i : Nat) (r : Stage) (j : Nat) (s : State) : (s.setStage i r).gen j = s.gen j := rfl
@[simp] theorem State.queue_setStage (i : Nat) (r : Stage) (j : Nat) (s : State) : (s.setStage i r).queue j = s.queue j := rfl
@[simp] theorem State.codeRec_setStage (i : Nat) (r : Stage) (j : Nat) (s : State) : (s.setStage i r).codeRec j = s.codeRec j := rfl
@[simp] theorem State.acqBuf_setStage (i : Nat) (r : Stage) (j : Nat) (s : State) : (s.setStage i r).acqBuf j = s.acqBuf j := rfl
@[simp] theorem State.trig_setStage (i : Nat) (r : Stage) (j : Nat) (s : State) : (s.setStage i r).trig j = s.trig j := rfl
@[simp] theorem State.pair_setStage (i : Nat) (r : Stage) (j : Nat) (s : State) : (s.setStage i r).pair j = s.pair j := rfl
@[simp] theorem State.slice_setStage (i : Nat) (r : Stage) (j : Nat) (s : State) : (s.setStage i r).slice j = s.slice j := rfl
@[simp] theorem State.beat_setStage (i : Nat) (r : Stage) (j : Nat) (s : State) : (s.setStage i r).beat j = s.beat j := rfl
@[simp] theorem State.inputLevel_setStage (i : Nat) (r : Stage) (j : Nat) (s : State) : (s.setStage i r).inputLevel j = s.inputLevel j := rfl
@[simp] theorem State.maskEx_setStage (i : Nat) (r : Stage) (j : Nat) (s : State) : (s.setStage i r).maskEx j = s.maskEx j := rfl

/-! ### State.restartObservation -/

@[simp] theorem State.restartObservation_now (s : State) : (s.restartObservation).now = s.now := rfl
@[simp] theorem State.restartObservation_fresh (s : State) : (s.restartObservation).fresh = s.fresh := rfl
@[simp] theorem State.restartObservation_out (s : State) : (s.restartObservation).out = s.out := rfl
@[simp] theorem State.restartObservation_pending (s : State) : (s.restartObservation).pending = s.pending := rfl
@[simp] theorem State.restartObservation_od (s : State) : (s.restartObservation).od = s.od := rfl
@[simp] theorem State.restartObservation_blobs (s : State) : (s.restartObservation).blobs = s.blobs := rfl
@[simp] theorem State.restartObservation_batches (s : State) : (s.restartObservation).batches = s.batches := rfl
@[simp] theorem State.restartObservation_fixed (s : State) : (s.restartObservation).fixed = s.fixed := rfl
@[simp] theorem State.restartObservation_floats (s : State) : (s.restartObservation).floats = s.floats := rfl
@[simp] theorem State.restartObservation_gens (s : State) : (s.restartObservation).gens = s.gens := rfl
@[simp] theorem State.restartObservation_fabric (s : State) : (s.restartObservation).fabric = s.fabric := rfl
@[simp] theorem State.restartObservation_meas (s : State) : (s.restartObservation).meas = s.meas := rfl
@[simp] theorem State.restartObservation_pwm (s : State) : (s.restartObservation).pwm = s.pwm := rfl
@[simp] theorem State.restartObservation_links (s : State) : (s.restartObservation).links = s.links := rfl
@[simp] theorem State.restartObservation_aux (s : State) : (s.restartObservation).aux = s.aux := rfl
@[simp] theorem State.restartObservation_island (s : State) : (s.restartObservation).island = { s.island with observed := false, connSince := if s.connectionOk then some s.now else none } := rfl
@[simp] theorem State.restartObservation_clock (s : State) : (s.restartObservation).clock = s.clock := rfl
@[simp] theorem State.restartObservation_acq (s : State) : (s.restartObservation).acq = s.acq := rfl
@[simp] theorem State.restartObservation_log (s : State) : (s.restartObservation).log = s.log := rfl
@[simp] theorem State.restartObservation_rack (s : State) : (s.restartObservation).rack = s.rack := rfl
@[simp] theorem State.restartObservation_power (s : State) : (s.restartObservation).power = s.power := rfl
@[simp] theorem State.restartObservation_srv (s : State) : (s.restartObservation).srv = s.srv := rfl
@[simp] theorem State.restartObservation_net (s : State) : (s.restartObservation).net = s.net := rfl
@[simp] theorem State.session_restartObservation (j : Nat) (s : State) : (s.restartObservation).session j = s.session j := rfl
@[simp] theorem State.chan_restartObservation (j : Nat) (s : State) : (s.restartObservation).chan j = s.chan j := rfl
@[simp] theorem State.chainRec_restartObservation (j : Nat) (s : State) : (s.restartObservation).chainRec j = s.chainRec j := rfl
@[simp] theorem State.sfd_restartObservation (j : Nat) (s : State) : (s.restartObservation).sfd j = s.sfd j := rfl
@[simp] theorem State.core_restartObservation (j : Nat) (s : State) : (s.restartObservation).core j = s.core j := rfl
@[simp] theorem State.tpo_restartObservation (j : Nat) (s : State) : (s.restartObservation).tpo j = s.tpo j := rfl
@[simp] theorem State.ptpPort_restartObservation (j : Nat) (s : State) : (s.restartObservation).ptpPort j = s.ptpPort j := rfl
@[simp] theorem State.lane_restartObservation (j : Nat) (s : State) : (s.restartObservation).lane j = s.lane j := rfl
@[simp] theorem State.fwSlot_restartObservation (j : Nat) (s : State) : (s.restartObservation).fwSlot j = s.fwSlot j := rfl
@[simp] theorem State.link_restartObservation (j : Nat) (s : State) : (s.restartObservation).link j = s.link j := rfl
@[simp] theorem State.node_restartObservation (j : Nat) (s : State) : (s.restartObservation).node j = s.node j := rfl
@[simp] theorem State.pub_restartObservation (j : Nat) (s : State) : (s.restartObservation).pub j = s.pub j := rfl
@[simp] theorem State.blob_restartObservation (j : Nat) (s : State) : (s.restartObservation).blob j = s.blob j := rfl
@[simp] theorem State.batch_restartObservation (j : Nat) (s : State) : (s.restartObservation).batch j = s.batch j := rfl
@[simp] theorem State.fx_restartObservation (j : Nat) (s : State) : (s.restartObservation).fx j = s.fx j := rfl
@[simp] theorem State.fl_restartObservation (j : Nat) (s : State) : (s.restartObservation).fl j = s.fl j := rfl
@[simp] theorem State.gen_restartObservation (j : Nat) (s : State) : (s.restartObservation).gen j = s.gen j := rfl
@[simp] theorem State.queue_restartObservation (j : Nat) (s : State) : (s.restartObservation).queue j = s.queue j := rfl
@[simp] theorem State.codeRec_restartObservation (j : Nat) (s : State) : (s.restartObservation).codeRec j = s.codeRec j := rfl
@[simp] theorem State.acqBuf_restartObservation (j : Nat) (s : State) : (s.restartObservation).acqBuf j = s.acqBuf j := rfl
@[simp] theorem State.trig_restartObservation (j : Nat) (s : State) : (s.restartObservation).trig j = s.trig j := rfl
@[simp] theorem State.pair_restartObservation (j : Nat) (s : State) : (s.restartObservation).pair j = s.pair j := rfl
@[simp] theorem State.slice_restartObservation (j : Nat) (s : State) : (s.restartObservation).slice j = s.slice j := rfl
@[simp] theorem State.beat_restartObservation (j : Nat) (s : State) : (s.restartObservation).beat j = s.beat j := rfl
@[simp] theorem State.inputLevel_restartObservation (j : Nat) (s : State) : (s.restartObservation).inputLevel j = s.inputLevel j := rfl
@[simp] theorem State.maskEx_restartObservation (j : Nat) (s : State) : (s.restartObservation).maskEx j = s.maskEx j := rfl

/-! ### State.setCheck -/

@[simp] theorem State.setCheck_now (i : Nat) (c : CrossCheck) (s : State) : (s.setCheck i c).now = s.now := rfl
@[simp] theorem State.setCheck_fresh (i : Nat) (c : CrossCheck) (s : State) : (s.setCheck i c).fresh = s.fresh := rfl
@[simp] theorem State.setCheck_out (i : Nat) (c : CrossCheck) (s : State) : (s.setCheck i c).out = s.out := rfl
@[simp] theorem State.setCheck_pending (i : Nat) (c : CrossCheck) (s : State) : (s.setCheck i c).pending = s.pending := rfl
@[simp] theorem State.setCheck_od (i : Nat) (c : CrossCheck) (s : State) : (s.setCheck i c).od = s.od := rfl
@[simp] theorem State.setCheck_blobs (i : Nat) (c : CrossCheck) (s : State) : (s.setCheck i c).blobs = s.blobs := rfl
@[simp] theorem State.setCheck_batches (i : Nat) (c : CrossCheck) (s : State) : (s.setCheck i c).batches = s.batches := rfl
@[simp] theorem State.setCheck_fixed (i : Nat) (c : CrossCheck) (s : State) : (s.setCheck i c).fixed = s.fixed := rfl
@[simp] theorem State.setCheck_floats (i : Nat) (c : CrossCheck) (s : State) : (s.setCheck i c).floats = s.floats := rfl
@[simp] theorem State.setCheck_gens (i : Nat) (c : CrossCheck) (s : State) : (s.setCheck i c).gens = s.gens := rfl
@[simp] theorem State.setCheck_fabric (i : Nat) (c : CrossCheck) (s : State) : (s.setCheck i c).fabric = s.fabric := rfl
@[simp] theorem State.setCheck_meas (i : Nat) (c : CrossCheck) (s : State) : (s.setCheck i c).meas = s.meas := rfl
@[simp] theorem State.setCheck_pwm (i : Nat) (c : CrossCheck) (s : State) : (s.setCheck i c).pwm = s.pwm := rfl
@[simp] theorem State.setCheck_links (i : Nat) (c : CrossCheck) (s : State) : (s.setCheck i c).links = s.links := rfl
@[simp] theorem State.setCheck_aux (i : Nat) (c : CrossCheck) (s : State) : (s.setCheck i c).aux = s.aux := rfl
@[simp] theorem State.setCheck_island (i : Nat) (c : CrossCheck) (s : State) : (s.setCheck i c).island = { s.island with checks := Tbl.set i c s.island.checks } := rfl
@[simp] theorem State.setCheck_clock (i : Nat) (c : CrossCheck) (s : State) : (s.setCheck i c).clock = s.clock := rfl
@[simp] theorem State.setCheck_acq (i : Nat) (c : CrossCheck) (s : State) : (s.setCheck i c).acq = s.acq := rfl
@[simp] theorem State.setCheck_log (i : Nat) (c : CrossCheck) (s : State) : (s.setCheck i c).log = s.log := rfl
@[simp] theorem State.setCheck_rack (i : Nat) (c : CrossCheck) (s : State) : (s.setCheck i c).rack = s.rack := rfl
@[simp] theorem State.setCheck_power (i : Nat) (c : CrossCheck) (s : State) : (s.setCheck i c).power = s.power := rfl
@[simp] theorem State.setCheck_srv (i : Nat) (c : CrossCheck) (s : State) : (s.setCheck i c).srv = s.srv := rfl
@[simp] theorem State.setCheck_net (i : Nat) (c : CrossCheck) (s : State) : (s.setCheck i c).net = s.net := rfl
@[simp] theorem State.session_setCheck (i : Nat) (c : CrossCheck) (j : Nat) (s : State) : (s.setCheck i c).session j = s.session j := rfl
@[simp] theorem State.chan_setCheck (i : Nat) (c : CrossCheck) (j : Nat) (s : State) : (s.setCheck i c).chan j = s.chan j := rfl
@[simp] theorem State.chainRec_setCheck (i : Nat) (c : CrossCheck) (j : Nat) (s : State) : (s.setCheck i c).chainRec j = s.chainRec j := rfl
@[simp] theorem State.sfd_setCheck (i : Nat) (c : CrossCheck) (j : Nat) (s : State) : (s.setCheck i c).sfd j = s.sfd j := rfl
@[simp] theorem State.core_setCheck (i : Nat) (c : CrossCheck) (j : Nat) (s : State) : (s.setCheck i c).core j = s.core j := rfl
@[simp] theorem State.tpo_setCheck (i : Nat) (c : CrossCheck) (j : Nat) (s : State) : (s.setCheck i c).tpo j = s.tpo j := rfl
@[simp] theorem State.ptpPort_setCheck (i : Nat) (c : CrossCheck) (j : Nat) (s : State) : (s.setCheck i c).ptpPort j = s.ptpPort j := rfl
@[simp] theorem State.lane_setCheck (i : Nat) (c : CrossCheck) (j : Nat) (s : State) : (s.setCheck i c).lane j = s.lane j := rfl
@[simp] theorem State.fwSlot_setCheck (i : Nat) (c : CrossCheck) (j : Nat) (s : State) : (s.setCheck i c).fwSlot j = s.fwSlot j := rfl
@[simp] theorem State.stage_setCheck (i : Nat) (c : CrossCheck) (j : Nat) (s : State) : (s.setCheck i c).stage j = s.stage j := rfl
@[simp] theorem State.check_setCheck_same (i : Nat) (c : CrossCheck) (s : State) : (s.setCheck i c).check i = c := Tbl.get_set_same _ _ _ _
theorem State.check_setCheck_other (i : Nat) (c : CrossCheck) (s : State) {j : Nat} (h : j ≠ i) : (s.setCheck i c).check j = s.check j := Tbl.get_set_other _ _ _ h
@[simp] theorem State.circ_setCheck (i : Nat) (c : CrossCheck) (j : Nat) (s : State) : (s.setCheck i c).circ j = s.circ j := rfl
@[simp] theorem State.link_setCheck (i : Nat) (c : CrossCheck) (j : Nat) (s : State) : (s.setCheck i c).link j = s.link j := rfl
@[simp] theorem State.node_setCheck (i : Nat) (c : CrossCheck) (j : Nat) (s : State) : (s.setCheck i c).node j = s.node j := rfl
@[simp] theorem State.pub_setCheck (i : Nat) (c : CrossCheck) (j : Nat) (s : State) : (s.setCheck i c).pub j = s.pub j := rfl
@[simp] theorem State.blob_setCheck (i : Nat) (c : CrossCheck) (j : Nat) (s : State) : (s.setCheck i c).blob j = s.blob j := rfl
@[simp] theorem State.batch_setCheck (i : Nat) (c : CrossCheck) (j : Nat) (s : State) : (s.setCheck i c).batch j = s.batch j := rfl
@[simp] theorem State.fx_setCheck (i : Nat) (c : CrossCheck) (j : Nat) (s : State) : (s.setCheck i c).fx j = s.fx j := rfl
@[simp] theorem State.fl_setCheck (i : Nat) (c : CrossCheck) (j : Nat) (s : State) : (s.setCheck i c).fl j = s.fl j := rfl
@[simp] theorem State.gen_setCheck (i : Nat) (c : CrossCheck) (j : Nat) (s : State) : (s.setCheck i c).gen j = s.gen j := rfl
@[simp] theorem State.queue_setCheck (i : Nat) (c : CrossCheck) (j : Nat) (s : State) : (s.setCheck i c).queue j = s.queue j := rfl
@[simp] theorem State.codeRec_setCheck (i : Nat) (c : CrossCheck) (j : Nat) (s : State) : (s.setCheck i c).codeRec j = s.codeRec j := rfl
@[simp] theorem State.acqBuf_setCheck (i : Nat) (c : CrossCheck) (j : Nat) (s : State) : (s.setCheck i c).acqBuf j = s.acqBuf j := rfl
@[simp] theorem State.trig_setCheck (i : Nat) (c : CrossCheck) (j : Nat) (s : State) : (s.setCheck i c).trig j = s.trig j := rfl
@[simp] theorem State.pair_setCheck (i : Nat) (c : CrossCheck) (j : Nat) (s : State) : (s.setCheck i c).pair j = s.pair j := rfl
@[simp] theorem State.slice_setCheck (i : Nat) (c : CrossCheck) (j : Nat) (s : State) : (s.setCheck i c).slice j = s.slice j := rfl
@[simp] theorem State.beat_setCheck (i : Nat) (c : CrossCheck) (j : Nat) (s : State) : (s.setCheck i c).beat j = s.beat j := rfl
@[simp] theorem State.inputLevel_setCheck (i : Nat) (c : CrossCheck) (j : Nat) (s : State) : (s.setCheck i c).inputLevel j = s.inputLevel j := rfl
@[simp] theorem State.maskEx_setCheck (i : Nat) (c : CrossCheck) (j : Nat) (s : State) : (s.setCheck i c).maskEx j = s.maskEx j := rfl

/-! ### State.setCirc -/

@[simp] theorem State.setCirc_now (n : Nat) (c : IslandCirc) (s : State) : (s.setCirc n c).now = s.now := rfl
@[simp] theorem State.setCirc_fresh (n : Nat) (c : IslandCirc) (s : State) : (s.setCirc n c).fresh = s.fresh := rfl
@[simp] theorem State.setCirc_out (n : Nat) (c : IslandCirc) (s : State) : (s.setCirc n c).out = s.out := rfl
@[simp] theorem State.setCirc_pending (n : Nat) (c : IslandCirc) (s : State) : (s.setCirc n c).pending = s.pending := rfl
@[simp] theorem State.setCirc_od (n : Nat) (c : IslandCirc) (s : State) : (s.setCirc n c).od = s.od := rfl
@[simp] theorem State.setCirc_blobs (n : Nat) (c : IslandCirc) (s : State) : (s.setCirc n c).blobs = s.blobs := rfl
@[simp] theorem State.setCirc_batches (n : Nat) (c : IslandCirc) (s : State) : (s.setCirc n c).batches = s.batches := rfl
@[simp] theorem State.setCirc_fixed (n : Nat) (c : IslandCirc) (s : State) : (s.setCirc n c).fixed = s.fixed := rfl
@[simp] theorem State.setCirc_floats (n : Nat) (c : IslandCirc) (s : State) : (s.setCirc n c).floats = s.floats := rfl
@[simp] theorem State.setCirc_gens (n : Nat) (c : IslandCirc) (s : State) : (s.setCirc n c).gens = s.gens := rfl
@[simp] theorem State.setCirc_fabric (n : Nat) (c : IslandCirc) (s : State) : (s.setCirc n c).fabric = s.fabric := rfl
@[simp] theorem State.setCirc_meas (n : Nat) (c : IslandCirc) (s : State) : (s.setCirc n c).meas = s.meas := rfl
@[simp] theorem State.setCirc_pwm (n : Nat) (c : IslandCirc) (s : State) : (s.setCirc n c).pwm = s.pwm := rfl
@[simp] theorem State.setCirc_links (n : Nat) (c : IslandCirc) (s : State) : (s.setCirc n c).links = s.links := rfl
@[simp] theorem State.setCirc_aux (n : Nat) (c : IslandCirc) (s : State) : (s.setCirc n c).aux = s.aux := rfl
@[simp] theorem State.setCirc_island (n : Nat) (c : IslandCirc) (s : State) : (s.setCirc n c).island = { s.island with circs := Tbl.set n c s.island.circs } := rfl
@[simp] theorem State.setCirc_clock (n : Nat) (c : IslandCirc) (s : State) : (s.setCirc n c).clock = s.clock := rfl
@[simp] theorem State.setCirc_acq (n : Nat) (c : IslandCirc) (s : State) : (s.setCirc n c).acq = s.acq := rfl
@[simp] theorem State.setCirc_log (n : Nat) (c : IslandCirc) (s : State) : (s.setCirc n c).log = s.log := rfl
@[simp] theorem State.setCirc_rack (n : Nat) (c : IslandCirc) (s : State) : (s.setCirc n c).rack = s.rack := rfl
@[simp] theorem State.setCirc_power (n : Nat) (c : IslandCirc) (s : State) : (s.setCirc n c).power = s.power := rfl
@[simp] theorem State.setCirc_srv (n : Nat) (c : IslandCirc) (s : State) : (s.setCirc n c).srv = s.srv := rfl
@[simp] theorem State.setCirc_net (n : Nat) (c : IslandCirc) (s : State) : (s.setCirc n c).net = s.net := rfl
@[simp] theorem State.session_setCirc (n : Nat) (c : IslandCirc) (j : Nat) (s : State) : (s.setCirc n c).session j = s.session j := rfl
@[simp] theorem State.chan_setCirc (n : Nat) (c : IslandCirc) (j : Nat) (s : State) : (s.setCirc n c).chan j = s.chan j := rfl
@[simp] theorem State.chainRec_setCirc (n : Nat) (c : IslandCirc) (j : Nat) (s : State) : (s.setCirc n c).chainRec j = s.chainRec j := rfl
@[simp] theorem State.sfd_setCirc (n : Nat) (c : IslandCirc) (j : Nat) (s : State) : (s.setCirc n c).sfd j = s.sfd j := rfl
@[simp] theorem State.core_setCirc (n : Nat) (c : IslandCirc) (j : Nat) (s : State) : (s.setCirc n c).core j = s.core j := rfl
@[simp] theorem State.tpo_setCirc (n : Nat) (c : IslandCirc) (j : Nat) (s : State) : (s.setCirc n c).tpo j = s.tpo j := rfl
@[simp] theorem State.ptpPort_setCirc (n : Nat) (c : IslandCirc) (j : Nat) (s : State) : (s.setCirc n c).ptpPort j = s.ptpPort j := rfl
@[simp] theorem State.lane_setCirc (n : Nat) (c : IslandCirc) (j : Nat) (s : State) : (s.setCirc n c).lane j = s.lane j := rfl
@[simp] theorem State.fwSlot_setCirc (n : Nat) (c : IslandCirc) (j : Nat) (s : State) : (s.setCirc n c).fwSlot j = s.fwSlot j := rfl
@[simp] theorem State.stage_setCirc (n : Nat) (c : IslandCirc) (j : Nat) (s : State) : (s.setCirc n c).stage j = s.stage j := rfl
@[simp] theorem State.check_setCirc (n : Nat) (c : IslandCirc) (j : Nat) (s : State) : (s.setCirc n c).check j = s.check j := rfl
@[simp] theorem State.circ_setCirc_same (n : Nat) (c : IslandCirc) (s : State) : (s.setCirc n c).circ n = c := Tbl.get_set_same _ _ _ _
theorem State.circ_setCirc_other (n : Nat) (c : IslandCirc) (s : State) {j : Nat} (h : j ≠ n) : (s.setCirc n c).circ j = s.circ j := Tbl.get_set_other _ _ _ h
@[simp] theorem State.link_setCirc (n : Nat) (c : IslandCirc) (j : Nat) (s : State) : (s.setCirc n c).link j = s.link j := rfl
@[simp] theorem State.node_setCirc (n : Nat) (c : IslandCirc) (j : Nat) (s : State) : (s.setCirc n c).node j = s.node j := rfl
@[simp] theorem State.pub_setCirc (n : Nat) (c : IslandCirc) (j : Nat) (s : State) : (s.setCirc n c).pub j = s.pub j := rfl
@[simp] theorem State.blob_setCirc (n : Nat) (c : IslandCirc) (j : Nat) (s : State) : (s.setCirc n c).blob j = s.blob j := rfl
@[simp] theorem State.batch_setCirc (n : Nat) (c : IslandCirc) (j : Nat) (s : State) : (s.setCirc n c).batch j = s.batch j := rfl
@[simp] theorem State.fx_setCirc (n : Nat) (c : IslandCirc) (j : Nat) (s : State) : (s.setCirc n c).fx j = s.fx j := rfl
@[simp] theorem State.fl_setCirc (n : Nat) (c : IslandCirc) (j : Nat) (s : State) : (s.setCirc n c).fl j = s.fl j := rfl
@[simp] theorem State.gen_setCirc (n : Nat) (c : IslandCirc) (j : Nat) (s : State) : (s.setCirc n c).gen j = s.gen j := rfl
@[simp] theorem State.queue_setCirc (n : Nat) (c : IslandCirc) (j : Nat) (s : State) : (s.setCirc n c).queue j = s.queue j := rfl
@[simp] theorem State.codeRec_setCirc (n : Nat) (c : IslandCirc) (j : Nat) (s : State) : (s.setCirc n c).codeRec j = s.codeRec j := rfl
@[simp] theorem State.acqBuf_setCirc (n : Nat) (c : IslandCirc) (j : Nat) (s : State) : (s.setCirc n c).acqBuf j = s.acqBuf j := rfl
@[simp] theorem State.trig_setCirc (n : Nat) (c : IslandCirc) (j : Nat) (s : State) : (s.setCirc n c).trig j = s.trig j := rfl
@[simp] theorem State.pair_setCirc (n : Nat) (c : IslandCirc) (j : Nat) (s : State) : (s.setCirc n c).pair j = s.pair j := rfl
@[simp] theorem State.slice_setCirc (n : Nat) (c : IslandCirc) (j : Nat) (s : State) : (s.setCirc n c).slice j = s.slice j := rfl
@[simp] theorem State.beat_setCirc (n : Nat) (c : IslandCirc) (j : Nat) (s : State) : (s.setCirc n c).beat j = s.beat j := rfl
@[simp] theorem State.inputLevel_setCirc (n : Nat) (c : IslandCirc) (j : Nat) (s : State) : (s.setCirc n c).inputLevel j = s.inputLevel j := rfl
@[simp] theorem State.maskEx_setCirc (n : Nat) (c : IslandCirc) (j : Nat) (s : State) : (s.setCirc n c).maskEx j = s.maskEx j := rfl

/-! ### State.setLink -/

@[simp] theorem State.setLink_now (k : Nat) (r : LinkRec) (s : State) : (s.setLink k r).now = s.now := rfl
@[simp] theorem State.setLink_fresh (k : Nat) (r : LinkRec) (s : State) : (s.setLink k r).fresh = s.fresh := rfl
@[simp] theorem State.setLink_out (k : Nat) (r : LinkRec) (s : State) : (s.setLink k r).out = s.out := rfl
@[simp] theorem State.setLink_pending (k : Nat) (r : LinkRec) (s : State) : (s.setLink k r).pending = s.pending := rfl
@[simp] theorem State.setLink_od (k : Nat) (r : LinkRec) (s : State) : (s.setLink k r).od = s.od := rfl
@[simp] theorem State.setLink_blobs (k : Nat) (r : LinkRec) (s : State) : (s.setLink k r).blobs = s.blobs := rfl
@[simp] theorem State.setLink_batches (k : Nat) (r : LinkRec) (s : State) : (s.setLink k r).batches = s.batches := rfl
@[simp] theorem State.setLink_fixed (k : Nat) (r : LinkRec) (s : State) : (s.setLink k r).fixed = s.fixed := rfl
@[simp] theorem State.setLink_floats (k : Nat) (r : LinkRec) (s : State) : (s.setLink k r).floats = s.floats := rfl
@[simp] theorem State.setLink_gens (k : Nat) (r : LinkRec) (s : State) : (s.setLink k r).gens = s.gens := rfl
@[simp] theorem State.setLink_fabric (k : Nat) (r : LinkRec) (s : State) : (s.setLink k r).fabric = s.fabric := rfl
@[simp] theorem State.setLink_meas (k : Nat) (r : LinkRec) (s : State) : (s.setLink k r).meas = s.meas := rfl
@[simp] theorem State.setLink_pwm (k : Nat) (r : LinkRec) (s : State) : (s.setLink k r).pwm = s.pwm := rfl
@[simp] theorem State.setLink_links (k : Nat) (r : LinkRec) (s : State) : (s.setLink k r).links = { s.links with links := Tbl.set k r s.links.links } := rfl
@[simp] theorem State.setLink_aux (k : Nat) (r : LinkRec) (s : State) : (s.setLink k r).aux = s.aux := rfl
@[simp] theorem State.setLink_island (k : Nat) (r : LinkRec) (s : State) : (s.setLink k r).island = s.island := rfl
@[simp] theorem State.setLink_clock (k : Nat) (r : LinkRec) (s : State) : (s.setLink k r).clock = s.clock := rfl
@[simp] theorem State.setLink_acq (k : Nat) (r : LinkRec) (s : State) : (s.setLink k r).acq = s.acq := rfl
@[simp] theorem State.setLink_log (k : Nat) (r : LinkRec) (s : State) : (s.setLink k r).log = s.log := rfl
@[simp] theorem State.setLink_rack (k : Nat) (r : LinkRec) (s : State) : (s.setLink k r).rack = s.rack := rfl
@[simp] theorem State.setLink_power (k : Nat) (r : LinkRec) (s : State) : (s.setLink k r).power = s.power := rfl
@[simp] theorem State.setLink_srv (k : Nat) (r : LinkRec) (s : State) : (s.setLink k r).srv = s.srv := rfl
@[simp] theorem State.setLink_net (k : Nat) (r : LinkRec) (s : State) : (s.setLink k r).net = s.net := rfl
@[simp] theorem State.session_setLink (k : Nat) (r : LinkRec) (j : Nat) (s : State) : (s.setLink k r).session j = s.session j := rfl
@[simp] theorem State.chan_setLink (k : Nat) (r : LinkRec) (j : Nat) (s : State) : (s.setLink k r).chan j = s.chan j := rfl
@[simp] theorem State.chainRec_setLink (k : Nat) (r : LinkRec) (j : Nat) (s : State) : (s.setLink k r).chainRec j = s.chainRec j := rfl
@[simp] theorem State.sfd_setLink (k : Nat) (r : LinkRec) (j : Nat) (s : State) : (s.setLink k r).sfd j = s.sfd j := rfl
@[simp] theorem State.core_setLink (k : Nat) (r : LinkRec) (j : Nat) (s : State) : (s.setLink k r).core j = s.core j := rfl
@[simp] theorem State.tpo_setLink (k : Nat) (r : LinkRec) (j : Nat) (s : State) : (s.setLink k r).tpo j = s.tpo j := rfl
@[simp] theorem State.ptpPort_setLink (k : Nat) (r : LinkRec) (j : Nat) (s : State) : (s.setLink k r).ptpPort j = s.ptpPort j := rfl
@[simp] theorem State.lane_setLink (k : Nat) (r : LinkRec) (j : Nat) (s : State) : (s.setLink k r).lane j = s.lane j := rfl
@[simp] theorem State.fwSlot_setLink (k : Nat) (r : LinkRec) (j : Nat) (s : State) : (s.setLink k r).fwSlot j = s.fwSlot j := rfl
@[simp] theorem State.stage_setLink (k : Nat) (r : LinkRec) (j : Nat) (s : State) : (s.setLink k r).stage j = s.stage j := rfl
@[simp] theorem State.check_setLink (k : Nat) (r : LinkRec) (j : Nat) (s : State) : (s.setLink k r).check j = s.check j := rfl
@[simp] theorem State.circ_setLink (k : Nat) (r : LinkRec) (j : Nat) (s : State) : (s.setLink k r).circ j = s.circ j := rfl
@[simp] theorem State.link_setLink_same (k : Nat) (r : LinkRec) (s : State) : (s.setLink k r).link k = r := Tbl.get_set_same _ _ _ _
theorem State.link_setLink_other (k : Nat) (r : LinkRec) (s : State) {j : Nat} (h : j ≠ k) : (s.setLink k r).link j = s.link j := Tbl.get_set_other _ _ _ h
@[simp] theorem State.node_setLink (k : Nat) (r : LinkRec) (j : Nat) (s : State) : (s.setLink k r).node j = s.node j := rfl
@[simp] theorem State.pub_setLink (k : Nat) (r : LinkRec) (j : Nat) (s : State) : (s.setLink k r).pub j = s.pub j := rfl
@[simp] theorem State.blob_setLink (k : Nat) (r : LinkRec) (j : Nat) (s : State) : (s.setLink k r).blob j = s.blob j := rfl
@[simp] theorem State.batch_setLink (k : Nat) (r : LinkRec) (j : Nat) (s : State) : (s.setLink k r).batch j = s.batch j := rfl
@[simp] theorem State.fx_setLink (k : Nat) (r : LinkRec) (j : Nat) (s : State) : (s.setLink k r).fx j = s.fx j := rfl
@[simp] theorem State.fl_setLink (k : Nat) (r : LinkRec) (j : Nat) (s : State) : (s.setLink k r).fl j = s.fl j := rfl
@[simp] theorem State.gen_setLink (k : Nat) (r : LinkRec) (j : Nat) (s : State) : (s.setLink k r).gen j = s.gen j := rfl
@[simp] theorem State.queue_setLink (k : Nat) (r : LinkRec) (j : Nat) (s : State) : (s.setLink k r).queue j = s.queue j := rfl
@[simp] theorem State.codeRec_setLink (k : Nat) (r : LinkRec) (j : Nat) (s : State) : (s.setLink k r).codeRec j = s.codeRec j := rfl
@[simp] theorem State.acqBuf_setLink (k : Nat) (r : LinkRec) (j : Nat) (s : State) : (s.setLink k r).acqBuf j = s.acqBuf j := rfl
@[simp] theorem State.trig_setLink (k : Nat) (r : LinkRec) (j : Nat) (s : State) : (s.setLink k r).trig j = s.trig j := rfl
@[simp] theorem State.pair_setLink (k : Nat) (r : LinkRec) (j : Nat) (s : State) : (s.setLink k r).pair j = s.pair j := rfl
@[simp] theorem State.slice_setLink (k : Nat) (r : LinkRec) (j : Nat) (s : State) : (s.setLink k r).slice j = s.slice j := rfl
@[simp] theorem State.beat_setLink (k : Nat) (r : LinkRec) (j : Nat) (s : State) : (s.setLink k r).beat j = s.beat j := rfl
@[simp] theorem State.inputLevel_setLink (k : Nat) (r : LinkRec) (j : Nat) (s : State) : (s.setLink k r).inputLevel j = s.inputLevel j := rfl
@[simp] theorem State.maskEx_setLink (k : Nat) (r : LinkRec) (j : Nat) (s : State) : (s.setLink k r).maskEx j = s.maskEx j := rfl

/-! ### State.setNode -/

@[simp] theorem State.setNode_now (n : Nat) (r : NodeRec) (s : State) : (s.setNode n r).now = s.now := rfl
@[simp] theorem State.setNode_fresh (n : Nat) (r : NodeRec) (s : State) : (s.setNode n r).fresh = s.fresh := rfl
@[simp] theorem State.setNode_out (n : Nat) (r : NodeRec) (s : State) : (s.setNode n r).out = s.out := rfl
@[simp] theorem State.setNode_pending (n : Nat) (r : NodeRec) (s : State) : (s.setNode n r).pending = s.pending := rfl
@[simp] theorem State.setNode_od (n : Nat) (r : NodeRec) (s : State) : (s.setNode n r).od = s.od := rfl
@[simp] theorem State.setNode_blobs (n : Nat) (r : NodeRec) (s : State) : (s.setNode n r).blobs = s.blobs := rfl
@[simp] theorem State.setNode_batches (n : Nat) (r : NodeRec) (s : State) : (s.setNode n r).batches = s.batches := rfl
@[simp] theorem State.setNode_fixed (n : Nat) (r : NodeRec) (s : State) : (s.setNode n r).fixed = s.fixed := rfl
@[simp] theorem State.setNode_floats (n : Nat) (r : NodeRec) (s : State) : (s.setNode n r).floats = s.floats := rfl
@[simp] theorem State.setNode_gens (n : Nat) (r : NodeRec) (s : State) : (s.setNode n r).gens = s.gens := rfl
@[simp] theorem State.setNode_fabric (n : Nat) (r : NodeRec) (s : State) : (s.setNode n r).fabric = s.fabric := rfl
@[simp] theorem State.setNode_meas (n : Nat) (r : NodeRec) (s : State) : (s.setNode n r).meas = s.meas := rfl
@[simp] theorem State.setNode_pwm (n : Nat) (r : NodeRec) (s : State) : (s.setNode n r).pwm = s.pwm := rfl
@[simp] theorem State.setNode_links (n : Nat) (r : NodeRec) (s : State) : (s.setNode n r).links = { s.links with nodes := Tbl.set n r s.links.nodes } := rfl
@[simp] theorem State.setNode_aux (n : Nat) (r : NodeRec) (s : State) : (s.setNode n r).aux = s.aux := rfl
@[simp] theorem State.setNode_island (n : Nat) (r : NodeRec) (s : State) : (s.setNode n r).island = s.island := rfl
@[simp] theorem State.setNode_clock (n : Nat) (r : NodeRec) (s : State) : (s.setNode n r).clock = s.clock := rfl
@[simp] theorem State.setNode_acq (n : Nat) (r : NodeRec) (s : State) : (s.setNode n r).acq = s.acq := rfl
@[simp] theorem State.setNode_log (n : Nat) (r : NodeRec) (s : State) : (s.setNode n r).log = s.log := rfl
@[simp] theorem State.setNode_rack (n : Nat) (r : NodeRec) (s : State) : (s.setNode n r).rack = s.rack := rfl
@[simp] theorem State.setNode_power (n : Nat) (r : NodeRec) (s : State) : (s.setNode n r).power = s.power := rfl
@[simp] theorem State.setNode_srv (n : Nat) (r : NodeRec) (s : State) : (s.setNode n r).srv = s.srv := rfl
@[simp] theorem State.setNode_net (n : Nat) (r : NodeRec) (s : State) : (s.setNode n r).net = s.net := rfl
@[simp] theorem State.session_setNode (n : Nat) (r : NodeRec) (j : Nat) (s : State) : (s.setNode n r).session j = s.session j := rfl
@[simp] theorem State.chan_setNode (n : Nat) (r : NodeRec) (j : Nat) (s : State) : (s.setNode n r).chan j = s.chan j := rfl
@[simp] theorem State.chainRec_setNode (n : Nat) (r : NodeRec) (j : Nat) (s : State) : (s.setNode n r).chainRec j = s.chainRec j := rfl
@[simp] theorem State.sfd_setNode (n : Nat) (r : NodeRec) (j : Nat) (s : State) : (s.setNode n r).sfd j = s.sfd j := rfl
@[simp] theorem State.core_setNode (n : Nat) (r : NodeRec) (j : Nat) (s : State) : (s.setNode n r).core j = s.core j := rfl
@[simp] theorem State.tpo_setNode (n : Nat) (r : NodeRec) (j : Nat) (s : State) : (s.setNode n r).tpo j = s.tpo j := rfl
@[simp] theorem State.ptpPort_setNode (n : Nat) (r : NodeRec) (j : Nat) (s : State) : (s.setNode n r).ptpPort j = s.ptpPort j := rfl
@[simp] theorem State.lane_setNode (n : Nat) (r : NodeRec) (j : Nat) (s : State) : (s.setNode n r).lane j = s.lane j := rfl
@[simp] theorem State.fwSlot_setNode (n : Nat) (r : NodeRec) (j : Nat) (s : State) : (s.setNode n r).fwSlot j = s.fwSlot j := rfl
@[simp] theorem State.stage_setNode (n : Nat) (r : NodeRec) (j : Nat) (s : State) : (s.setNode n r).stage j = s.stage j := rfl
@[simp] theorem State.check_setNode (n : Nat) (r : NodeRec) (j : Nat) (s : State) : (s.setNode n r).check j = s.check j := rfl
@[simp] theorem State.circ_setNode (n : Nat) (r : NodeRec) (j : Nat) (s : State) : (s.setNode n r).circ j = s.circ j := rfl
@[simp] theorem State.link_setNode (n : Nat) (r : NodeRec) (j : Nat) (s : State) : (s.setNode n r).link j = s.link j := rfl
@[simp] theorem State.node_setNode_same (n : Nat) (r : NodeRec) (s : State) : (s.setNode n r).node n = r := Tbl.get_set_same _ _ _ _
theorem State.node_setNode_other (n : Nat) (r : NodeRec) (s : State) {j : Nat} (h : j ≠ n) : (s.setNode n r).node j = s.node j := Tbl.get_set_other _ _ _ h
@[simp] theorem State.pub_setNode (n : Nat) (r : NodeRec) (j : Nat) (s : State) : (s.setNode n r).pub j = s.pub j := rfl
@[simp] theorem State.blob_setNode (n : Nat) (r : NodeRec) (j : Nat) (s : State) : (s.setNode n r).blob j = s.blob j := rfl
@[simp] theorem State.batch_setNode (n : Nat) (r : NodeRec) (j : Nat) (s : State) : (s.setNode n r).batch j = s.batch j := rfl
@[simp] theorem State.fx_setNode (n : Nat) (r : NodeRec) (j : Nat) (s : State) : (s.setNode n r).fx j = s.fx j := rfl
@[simp] theorem State.fl_setNode (n : Nat) (r : NodeRec) (j : Nat) (s : State) : (s.setNode n r).fl j = s.fl j := rfl
@[simp] theorem State.gen_setNode (n : Nat) (r : NodeRec) (j : Nat) (s : State) : (s.setNode n r).gen j = s.gen j := rfl
@[simp] theorem State.queue_setNode (n : Nat) (r : NodeRec) (j : Nat) (s : State) : (s.setNode n r).queue j = s.queue j := rfl
@[simp] theorem State.codeRec_setNode (n : Nat) (r : NodeRec) (j : Nat) (s : State) : (s.setNode n r).codeRec j = s.codeRec j := rfl
@[simp] theorem State.acqBuf_setNode (n : Nat) (r : NodeRec) (j : Nat) (s : State) : (s.setNode n r).acqBuf j = s.acqBuf j := rfl
@[simp] theorem State.trig_setNode (n : Nat) (r : NodeRec) (j : Nat) (s : State) : (s.setNode n r).trig j = s.trig j := rfl
@[simp] theorem State.pair_setNode (n : Nat) (r : NodeRec) (j : Nat) (s : State) : (s.setNode n r).pair j = s.pair j := rfl
@[simp] theorem State.slice_setNode (n : Nat) (r : NodeRec) (j : Nat) (s : State) : (s.setNode n r).slice j = s.slice j := rfl
@[simp] theorem State.beat_setNode (n : Nat) (r : NodeRec) (j : Nat) (s : State) : (s.setNode n r).beat j = s.beat j := rfl
@[simp] theorem State.inputLevel_setNode (n : Nat) (r : NodeRec) (j : Nat) (s : State) : (s.setNode n r).inputLevel j = s.inputLevel j := rfl
@[simp] theorem State.maskEx_setNode (n : Nat) (r : NodeRec) (j : Nat) (s : State) : (s.setNode n r).maskEx j = s.maskEx j := rfl

/-! ### State.modLog -/

@[simp] theorem State.modLog_now (f : Log → Log) (s : State) : (s.modLog f).now = s.now := rfl
@[simp] theorem State.modLog_fresh (f : Log → Log) (s : State) : (s.modLog f).fresh = s.fresh := rfl
@[simp] theorem State.modLog_out (f : Log → Log) (s : State) : (s.modLog f).out = s.out := rfl
@[simp] theorem State.modLog_pending (f : Log → Log) (s : State) : (s.modLog f).pending = s.pending := rfl
@[simp] theorem State.modLog_od (f : Log → Log) (s : State) : (s.modLog f).od = s.od := rfl
@[simp] theorem State.modLog_blobs (f : Log → Log) (s : State) : (s.modLog f).blobs = s.blobs := rfl
@[simp] theorem State.modLog_batches (f : Log → Log) (s : State) : (s.modLog f).batches = s.batches := rfl
@[simp] theorem State.modLog_fixed (f : Log → Log) (s : State) : (s.modLog f).fixed = s.fixed := rfl
@[simp] theorem State.modLog_floats (f : Log → Log) (s : State) : (s.modLog f).floats = s.floats := rfl
@[simp] theorem State.modLog_gens (f : Log → Log) (s : State) : (s.modLog f).gens = s.gens := rfl
@[simp] theorem State.modLog_fabric (f : Log → Log) (s : State) : (s.modLog f).fabric = s.fabric := rfl
@[simp] theorem State.modLog_meas (f : Log → Log) (s : State) : (s.modLog f).meas = s.meas := rfl
@[simp] theorem State.modLog_pwm (f : Log → Log) (s : State) : (s.modLog f).pwm = s.pwm := rfl
@[simp] theorem State.modLog_links (f : Log → Log) (s : State) : (s.modLog f).links = s.links := rfl
@[simp] theorem State.modLog_aux (f : Log → Log) (s : State) : (s.modLog f).aux = s.aux := rfl
@[simp] theorem State.modLog_island (f : Log → Log) (s : State) : (s.modLog f).island = s.island := rfl
@[simp] theorem State.modLog_clock (f : Log → Log) (s : State) : (s.modLog f).clock = s.clock := rfl
@[simp] theorem State.modLog_acq (f : Log → Log) (s : State) : (s.modLog f).acq = s.acq := rfl
@[simp] theorem State.modLog_log (f : Log → Log) (s : State) : (s.modLog f).log = f s.log := rfl
@[simp] theorem State.modLog_rack (f : Log → Log) (s : State) : (s.modLog f).rack = s.rack := rfl
@[simp] theorem State.modLog_power (f : Log → Log) (s : State) : (s.modLog f).power = s.power := rfl
@[simp] theorem State.modLog_srv (f : Log → Log) (s : State) : (s.modLog f).srv = s.srv := rfl
@[simp] theorem State.modLog_net (f : Log → Log) (s : State) : (s.modLog f).net = s.net := rfl
@[simp] theorem State.session_modLog (f : Log → Log) (j : Nat) (s : State) : (s.modLog f).session j = s.session j := rfl
@[simp] theorem State.chan_modLog (f : Log → Log) (j : Nat) (s : State) : (s.modLog f).chan j = s.chan j := rfl
@[simp] theorem State.chainRec_modLog (f : Log → Log) (j : Nat) (s : State) : (s.modLog f).chainRec j = s.chainRec j := rfl
@[simp] theorem State.sfd_modLog (f : Log → Log) (j : Nat) (s : State) : (s.modLog f).sfd j = s.sfd j := rfl
@[simp] theorem State.core_modLog (f : Log → Log) (j : Nat) (s : State) : (s.modLog f).core j = s.core j := rfl
@[simp] theorem State.tpo_modLog (f : Log → Log) (j : Nat) (s : State) : (s.modLog f).tpo j = s.tpo j := rfl
@[simp] theorem State.ptpPort_modLog (f : Log → Log) (j : Nat) (s : State) : (s.modLog f).ptpPort j = s.ptpPort j := rfl
@[simp] theorem State.lane_modLog (f : Log → Log) (j : Nat) (s : State) : (s.modLog f).lane j = s.lane j := rfl
@[simp] theorem State.fwSlot_modLog (f : Log → Log) (j : Nat) (s : State) : (s.modLog f).fwSlot j = s.fwSlot j := rfl
@[simp] theorem State.stage_modLog (f : Log → Log) (j : Nat) (s : State) : (s.modLog f).stage j = s.stage j := rfl
@[simp] theorem State.check_modLog (f : Log → Log) (j : Nat) (s : State) : (s.modLog f).check j = s.check j := rfl
@[simp] theorem State.circ_modLog (f : Log → Log) (j : Nat) (s : State) : (s.modLog f).circ j = s.circ j := rfl
@[simp] theorem State.link_modLog (f : Log → Log) (j : Nat) (s : State) : (s.modLog f).link j = s.link j := rfl
@[simp] theorem State.node_modLog (f : Log → Log) (j : Nat) (s : State) : (s.modLog f).node j = s.node j := rfl
@[simp] theorem State.pub_modLog (f : Log → Log) (j : Nat) (s : State) : (s.modLog f).pub j = s.pub j := rfl
@[simp] theorem State.blob_modLog (f : Log → Log) (j : Nat) (s : State) : (s.modLog f).blob j = s.blob j := rfl
@[simp] theorem State.batch_modLog (f : Log → Log) (j : Nat) (s : State) : (s.modLog f).batch j = s.batch j := rfl
@[simp] theorem State.fx_modLog (f : Log → Log) (j : Nat) (s : State) : (s.modLog f).fx j = s.fx j := rfl
@[simp] theorem State.fl_modLog (f : Log → Log) (j : Nat) (s : State) : (s.modLog f).fl j = s.fl j := rfl
@[simp] theorem State.gen_modLog (f : Log → Log) (j : Nat) (s : State) : (s.modLog f).gen j = s.gen j := rfl
@[simp] theorem State.queue_modLog (f : Log → Log) (j : Nat) (s : State) : (s.modLog f).queue j = s.queue j := rfl
@[simp] theorem State.acqBuf_modLog (f : Log → Log) (j : Nat) (s : State) : (s.modLog f).acqBuf j = s.acqBuf j := rfl
@[simp] theorem State.trig_modLog (f : Log → Log) (j : Nat) (s : State) : (s.modLog f).trig j = s.trig j := rfl
@[simp] theorem State.pair_modLog (f : Log → Log) (j : Nat) (s : State) : (s.modLog f).pair j = s.pair j := rfl
@[simp] theorem State.slice_modLog (f : Log → Log) (j : Nat) (s : State) : (s.modLog f).slice j = s.slice j := rfl
@[simp] theorem State.beat_modLog (f : Log → Log) (j : Nat) (s : State) : (s.modLog f).beat j = s.beat j := rfl
@[simp] theorem State.inputLevel_modLog (f : Log → Log) (j : Nat) (s : State) : (s.modLog f).inputLevel j = s.inputLevel j := rfl
@[simp] theorem State.maskEx_modLog (f : Log → Log) (j : Nat) (s : State) : (s.modLog f).maskEx j = s.maskEx j := rfl

/-! ### State.modNet -/

@[simp] theorem State.modNet_now (f : Net → Net) (s : State) : (s.modNet f).now = s.now := rfl
@[simp] theorem State.modNet_fresh (f : Net → Net) (s : State) : (s.modNet f).fresh = s.fresh := rfl
@[simp] theorem State.modNet_out (f : Net → Net) (s : State) : (s.modNet f).out = s.out := rfl
@[simp] theorem State.modNet_pending (f : Net → Net) (s : State) : (s.modNet f).pending = s.pending := rfl
@[simp] theorem State.modNet_od (f : Net → Net) (s : State) : (s.modNet f).od = s.od := rfl
@[simp] theorem State.modNet_blobs (f : Net → Net) (s : State) : (s.modNet f).blobs = s.blobs := rfl
@[simp] theorem State.modNet_batches (f : Net → Net) (s : State) : (s.modNet f).batches = s.batches := rfl
@[simp] theorem State.modNet_fixed (f : Net → Net) (s : State) : (s.modNet f).fixed = s.fixed := rfl
@[simp] theorem State.modNet_floats (f : Net → Net) (s : State) : (s.modNet f).floats = s.floats := rfl
@[simp] theorem State.modNet_gens (f : Net → Net) (s : State) : (s.modNet f).gens = s.gens := rfl
@[simp] theorem State.modNet_fabric (f : Net → Net) (s : State) : (s.modNet f).fabric = s.fabric := rfl
@[simp] theorem State.modNet_meas (f : Net → Net) (s : State) : (s.modNet f).meas = s.meas := rfl
@[simp] theorem State.modNet_pwm (f : Net → Net) (s : State) : (s.modNet f).pwm = s.pwm := rfl
@[simp] theorem State.modNet_links (f : Net → Net) (s : State) : (s.modNet f).links = s.links := rfl
@[simp] theorem State.modNet_aux (f : Net → Net) (s : State) : (s.modNet f).aux = s.aux := rfl
@[simp] theorem State.modNet_island (f : Net → Net) (s : State) : (s.modNet f).island = s.island := rfl
@[simp] theorem State.modNet_clock (f : Net → Net) (s : State) : (s.modNet f).clock = s.clock := rfl
@[simp] theorem State.modNet_acq (f : Net → Net) (s : State) : (s.modNet f).acq = s.acq := rfl
@[simp] theorem State.modNet_log (f : Net → Net) (s : State) : (s.modNet f).log = s.log := rfl
@[simp] theorem State.modNet_rack (f : Net → Net) (s : State) : (s.modNet f).rack = s.rack := rfl
@[simp] theorem State.modNet_power (f : Net → Net) (s : State) : (s.modNet f).power = s.power := rfl
@[simp] theorem State.modNet_srv (f : Net → Net) (s : State) : (s.modNet f).srv = s.srv := rfl
@[simp] theorem State.modNet_net (f : Net → Net) (s : State) : (s.modNet f).net = f s.net := rfl
@[simp] theorem State.session_modNet (f : Net → Net) (j : Nat) (s : State) : (s.modNet f).session j = s.session j := rfl
@[simp] theorem State.chan_modNet (f : Net → Net) (j : Nat) (s : State) : (s.modNet f).chan j = s.chan j := rfl
@[simp] theorem State.chainRec_modNet (f : Net → Net) (j : Nat) (s : State) : (s.modNet f).chainRec j = s.chainRec j := rfl
@[simp] theorem State.sfd_modNet (f : Net → Net) (j : Nat) (s : State) : (s.modNet f).sfd j = s.sfd j := rfl
@[simp] theorem State.core_modNet (f : Net → Net) (j : Nat) (s : State) : (s.modNet f).core j = s.core j := rfl
@[simp] theorem State.tpo_modNet (f : Net → Net) (j : Nat) (s : State) : (s.modNet f).tpo j = s.tpo j := rfl
@[simp] theorem State.ptpPort_modNet (f : Net → Net) (j : Nat) (s : State) : (s.modNet f).ptpPort j = s.ptpPort j := rfl
@[simp] theorem State.lane_modNet (f : Net → Net) (j : Nat) (s : State) : (s.modNet f).lane j = s.lane j := rfl
@[simp] theorem State.fwSlot_modNet (f : Net → Net) (j : Nat) (s : State) : (s.modNet f).fwSlot j = s.fwSlot j := rfl
@[simp] theorem State.stage_modNet (f : Net → Net) (j : Nat) (s : State) : (s.modNet f).stage j = s.stage j := rfl
@[simp] theorem State.check_modNet (f : Net → Net) (j : Nat) (s : State) : (s.modNet f).check j = s.check j := rfl
@[simp] theorem State.circ_modNet (f : Net → Net) (j : Nat) (s : State) : (s.modNet f).circ j = s.circ j := rfl
@[simp] theorem State.link_modNet (f : Net → Net) (j : Nat) (s : State) : (s.modNet f).link j = s.link j := rfl
@[simp] theorem State.node_modNet (f : Net → Net) (j : Nat) (s : State) : (s.modNet f).node j = s.node j := rfl
@[simp] theorem State.blob_modNet (f : Net → Net) (j : Nat) (s : State) : (s.modNet f).blob j = s.blob j := rfl
@[simp] theorem State.batch_modNet (f : Net → Net) (j : Nat) (s : State) : (s.modNet f).batch j = s.batch j := rfl
@[simp] theorem State.fx_modNet (f : Net → Net) (j : Nat) (s : State) : (s.modNet f).fx j = s.fx j := rfl
@[simp] theorem State.fl_modNet (f : Net → Net) (j : Nat) (s : State) : (s.modNet f).fl j = s.fl j := rfl
@[simp] theorem State.gen_modNet (f : Net → Net) (j : Nat) (s : State) : (s.modNet f).gen j = s.gen j := rfl
@[simp] theorem State.queue_modNet (f : Net → Net) (j : Nat) (s : State) : (s.modNet f).queue j = s.queue j := rfl
@[simp] theorem State.codeRec_modNet (f : Net → Net) (j : Nat) (s : State) : (s.modNet f).codeRec j = s.codeRec j := rfl
@[simp] theorem State.acqBuf_modNet (f : Net → Net) (j : Nat) (s : State) : (s.modNet f).acqBuf j = s.acqBuf j := rfl
@[simp] theorem State.trig_modNet (f : Net → Net) (j : Nat) (s : State) : (s.modNet f).trig j = s.trig j := rfl
@[simp] theorem State.pair_modNet (f : Net → Net) (j : Nat) (s : State) : (s.modNet f).pair j = s.pair j := rfl
@[simp] theorem State.slice_modNet (f : Net → Net) (j : Nat) (s : State) : (s.modNet f).slice j = s.slice j := rfl
@[simp] theorem State.beat_modNet (f : Net → Net) (j : Nat) (s : State) : (s.modNet f).beat j = s.beat j := rfl
@[simp] theorem State.inputLevel_modNet (f : Net → Net) (j : Nat) (s : State) : (s.modNet f).inputLevel j = s.inputLevel j := rfl
@[simp] theorem State.maskEx_modNet (f : Net → Net) (j : Nat) (s : State) : (s.modNet f).maskEx j = s.maskEx j := rfl

/-! ### State.begin -/

@[simp] theorem State.begin_now (t : Time) (s : State) : (s.begin t).now = max t s.now := rfl
@[simp] theorem State.begin_fresh (t : Time) (s : State) : (s.begin t).fresh = s.fresh := rfl
@[simp] theorem State.begin_out (t : Time) (s : State) : (s.begin t).out = [] := rfl
@[simp] theorem State.begin_pending (t : Time) (s : State) : (s.begin t).pending = s.pending := rfl
@[simp] theorem State.begin_od (t : Time) (s : State) : (s.begin t).od = s.od := rfl
@[simp] theorem State.begin_blobs (t : Time) (s : State) : (s.begin t).blobs = s.blobs := rfl
@[simp] theorem State.begin_batches (t : Time) (s : State) : (s.begin t).batches = s.batches := rfl
@[simp] theorem State.begin_fixed (t : Time) (s : State) : (s.begin t).fixed = s.fixed := rfl
@[simp] theorem State.begin_floats (t : Time) (s : State) : (s.begin t).floats = s.floats := rfl
@[simp] theorem State.begin_gens (t : Time) (s : State) : (s.begin t).gens = s.gens := rfl
@[simp] theorem State.begin_fabric (t : Time) (s : State) : (s.begin t).fabric = s.fabric := rfl
@[simp] theorem State.begin_meas (t : Time) (s : State) : (s.begin t).meas = s.meas := rfl
@[simp] theorem State.begin_pwm (t : Time) (s : State) : (s.begin t).pwm = s.pwm := rfl
@[simp] theorem State.begin_links (t : Time) (s : State) : (s.begin t).links = s.links := rfl
@[simp] theorem State.begin_aux (t : Time) (s : State) : (s.begin t).aux = s.aux := rfl
@[simp] theorem State.begin_island (t : Time) (s : State) : (s.begin t).island = s.island := rfl
@[simp] theorem State.begin_clock (t : Time) (s : State) : (s.begin t).clock = s.clock := rfl
@[simp] theorem State.begin_acq (t : Time) (s : State) : (s.begin t).acq = s.acq := rfl
@[simp] theorem State.begin_log (t : Time) (s : State) : (s.begin t).log = s.log := rfl
@[simp] theorem State.begin_rack (t : Time) (s : State) : (s.begin t).rack = s.rack := rfl
@[simp] theorem State.begin_power (t : Time) (s : State) : (s.begin t).power = s.power := rfl
@[simp] theorem State.begin_srv (t : Time) (s : State) : (s.begin t).srv = s.srv := rfl
@[simp] theorem State.begin_net (t : Time) (s : State) : (s.begin t).net = s.net := rfl
@[simp] theorem State.session_begin (t : Time) (j : Nat) (s : State) : (s.begin t).session j = s.session j := rfl
@[simp] theorem State.chan_begin (t : Time) (j : Nat) (s : State) : (s.begin t).chan j = s.chan j := rfl
@[simp] theorem State.chainRec_begin (t : Time) (j : Nat) (s : State) : (s.begin t).chainRec j = s.chainRec j := rfl
@[simp] theorem State.sfd_begin (t : Time) (j : Nat) (s : State) : (s.begin t).sfd j = s.sfd j := rfl
@[simp] theorem State.core_begin (t : Time) (j : Nat) (s : State) : (s.begin t).core j = s.core j := rfl
@[simp] theorem State.tpo_begin (t : Time) (j : Nat) (s : State) : (s.begin t).tpo j = s.tpo j := rfl
@[simp] theorem State.ptpPort_begin (t : Time) (j : Nat) (s : State) : (s.begin t).ptpPort j = s.ptpPort j := rfl
@[simp] theorem State.lane_begin (t : Time) (j : Nat) (s : State) : (s.begin t).lane j = s.lane j := rfl
@[simp] theorem State.fwSlot_begin (t : Time) (j : Nat) (s : State) : (s.begin t).fwSlot j = s.fwSlot j := rfl
@[simp] theorem State.stage_begin (t : Time) (j : Nat) (s : State) : (s.begin t).stage j = s.stage j := rfl
@[simp] theorem State.check_begin (t : Time) (j : Nat) (s : State) : (s.begin t).check j = s.check j := rfl
@[simp] theorem State.circ_begin (t : Time) (j : Nat) (s : State) : (s.begin t).circ j = s.circ j := rfl
@[simp] theorem State.link_begin (t : Time) (j : Nat) (s : State) : (s.begin t).link j = s.link j := rfl
@[simp] theorem State.node_begin (t : Time) (j : Nat) (s : State) : (s.begin t).node j = s.node j := rfl
@[simp] theorem State.pub_begin (t : Time) (j : Nat) (s : State) : (s.begin t).pub j = s.pub j := rfl
@[simp] theorem State.blob_begin (t : Time) (j : Nat) (s : State) : (s.begin t).blob j = s.blob j := rfl
@[simp] theorem State.batch_begin (t : Time) (j : Nat) (s : State) : (s.begin t).batch j = s.batch j := rfl
@[simp] theorem State.fx_begin (t : Time) (j : Nat) (s : State) : (s.begin t).fx j = s.fx j := rfl
@[simp] theorem State.fl_begin (t : Time) (j : Nat) (s : State) : (s.begin t).fl j = s.fl j := rfl
@[simp] theorem State.gen_begin (t : Time) (j : Nat) (s : State) : (s.begin t).gen j = s.gen j := rfl
@[simp] theorem State.queue_begin (t : Time) (j : Nat) (s : State) : (s.begin t).queue j = s.queue j := rfl
@[simp] theorem State.codeRec_begin (t : Time) (j : Nat) (s : State) : (s.begin t).codeRec j = s.codeRec j := rfl
@[simp] theorem State.acqBuf_begin (t : Time) (j : Nat) (s : State) : (s.begin t).acqBuf j = s.acqBuf j := rfl
@[simp] theorem State.trig_begin (t : Time) (j : Nat) (s : State) : (s.begin t).trig j = s.trig j := rfl
@[simp] theorem State.pair_begin (t : Time) (j : Nat) (s : State) : (s.begin t).pair j = s.pair j := rfl
@[simp] theorem State.slice_begin (t : Time) (j : Nat) (s : State) : (s.begin t).slice j = s.slice j := rfl
@[simp] theorem State.beat_begin (t : Time) (j : Nat) (s : State) : (s.begin t).beat j = s.beat j := rfl
@[simp] theorem State.inputLevel_begin (t : Time) (j : Nat) (s : State) : (s.begin t).inputLevel j = s.inputLevel j := rfl
@[simp] theorem State.maskEx_begin (t : Time) (j : Nat) (s : State) : (s.begin t).maskEx j = s.maskEx j := rfl

/-! ### State.wr -/

@[simp] theorem State.wr_now (k : Nat) (v : Int) (s : State) : (s.wr k v).now = s.now := rfl
@[simp] theorem State.wr_fresh (k : Nat) (v : Int) (s : State) : (s.wr k v).fresh = s.fresh := rfl
@[simp] theorem State.wr_out (k : Nat) (v : Int) (s : State) : (s.wr k v).out = s.out := rfl
@[simp] theorem State.wr_pending (k : Nat) (v : Int) (s : State) : (s.wr k v).pending = s.pending := rfl
@[simp] theorem State.wr_od (k : Nat) (v : Int) (s : State) : (s.wr k v).od = Tbl.set k v s.od := rfl
@[simp] theorem State.wr_blobs (k : Nat) (v : Int) (s : State) : (s.wr k v).blobs = s.blobs := rfl
@[simp] theorem State.wr_batches (k : Nat) (v : Int) (s : State) : (s.wr k v).batches = s.batches := rfl
@[simp] theorem State.wr_fixed (k : Nat) (v : Int) (s : State) : (s.wr k v).fixed = s.fixed := rfl
@[simp] theorem State.wr_floats (k : Nat) (v : Int) (s : State) : (s.wr k v).floats = s.floats := rfl
@[simp] theorem State.wr_gens (k : Nat) (v : Int) (s : State) : (s.wr k v).gens = s.gens := rfl
@[simp] theorem State.wr_fabric (k : Nat) (v : Int) (s : State) : (s.wr k v).fabric = s.fabric := rfl
@[simp] theorem State.wr_meas (k : Nat) (v : Int) (s : State) : (s.wr k v).meas = s.meas := rfl
@[simp] theorem State.wr_pwm (k : Nat) (v : Int) (s : State) : (s.wr k v).pwm = s.pwm := rfl
@[simp] theorem State.wr_links (k : Nat) (v : Int) (s : State) : (s.wr k v).links = s.links := rfl
@[simp] theorem State.wr_aux (k : Nat) (v : Int) (s : State) : (s.wr k v).aux = s.aux := rfl
@[simp] theorem State.wr_island (k : Nat) (v : Int) (s : State) : (s.wr k v).island = s.island := rfl
@[simp] theorem State.wr_clock (k : Nat) (v : Int) (s : State) : (s.wr k v).clock = s.clock := rfl
@[simp] theorem State.wr_acq (k : Nat) (v : Int) (s : State) : (s.wr k v).acq = s.acq := rfl
@[simp] theorem State.wr_log (k : Nat) (v : Int) (s : State) : (s.wr k v).log = s.log := rfl
@[simp] theorem State.wr_rack (k : Nat) (v : Int) (s : State) : (s.wr k v).rack = s.rack := rfl
@[simp] theorem State.wr_power (k : Nat) (v : Int) (s : State) : (s.wr k v).power = s.power := rfl
@[simp] theorem State.wr_srv (k : Nat) (v : Int) (s : State) : (s.wr k v).srv = s.srv := rfl
@[simp] theorem State.wr_net (k : Nat) (v : Int) (s : State) : (s.wr k v).net = s.net := rfl
@[simp] theorem State.session_wr (k : Nat) (v : Int) (j : Nat) (s : State) : (s.wr k v).session j = s.session j := rfl
@[simp] theorem State.chan_wr (k : Nat) (v : Int) (j : Nat) (s : State) : (s.wr k v).chan j = s.chan j := rfl
@[simp] theorem State.chainRec_wr (k : Nat) (v : Int) (j : Nat) (s : State) : (s.wr k v).chainRec j = s.chainRec j := rfl
@[simp] theorem State.sfd_wr (k : Nat) (v : Int) (j : Nat) (s : State) : (s.wr k v).sfd j = s.sfd j := rfl
@[simp] theorem State.core_wr (k : Nat) (v : Int) (j : Nat) (s : State) : (s.wr k v).core j = s.core j := rfl
@[simp] theorem State.tpo_wr (k : Nat) (v : Int) (j : Nat) (s : State) : (s.wr k v).tpo j = s.tpo j := rfl
@[simp] theorem State.ptpPort_wr (k : Nat) (v : Int) (j : Nat) (s : State) : (s.wr k v).ptpPort j = s.ptpPort j := rfl
@[simp] theorem State.lane_wr (k : Nat) (v : Int) (j : Nat) (s : State) : (s.wr k v).lane j = s.lane j := rfl
@[simp] theorem State.fwSlot_wr (k : Nat) (v : Int) (j : Nat) (s : State) : (s.wr k v).fwSlot j = s.fwSlot j := rfl
@[simp] theorem State.stage_wr (k : Nat) (v : Int) (j : Nat) (s : State) : (s.wr k v).stage j = s.stage j := rfl
@[simp] theorem State.check_wr (k : Nat) (v : Int) (j : Nat) (s : State) : (s.wr k v).check j = s.check j := rfl
@[simp] theorem State.circ_wr (k : Nat) (v : Int) (j : Nat) (s : State) : (s.wr k v).circ j = s.circ j := rfl
@[simp] theorem State.link_wr (k : Nat) (v : Int) (j : Nat) (s : State) : (s.wr k v).link j = s.link j := rfl
@[simp] theorem State.node_wr (k : Nat) (v : Int) (j : Nat) (s : State) : (s.wr k v).node j = s.node j := rfl
@[simp] theorem State.pub_wr (k : Nat) (v : Int) (j : Nat) (s : State) : (s.wr k v).pub j = s.pub j := rfl
@[simp] theorem State.blob_wr (k : Nat) (v : Int) (j : Nat) (s : State) : (s.wr k v).blob j = s.blob j := rfl
@[simp] theorem State.batch_wr (k : Nat) (v : Int) (j : Nat) (s : State) : (s.wr k v).batch j = s.batch j := rfl
@[simp] theorem State.fx_wr (k : Nat) (v : Int) (j : Nat) (s : State) : (s.wr k v).fx j = s.fx j := rfl
@[simp] theorem State.fl_wr (k : Nat) (v : Int) (j : Nat) (s : State) : (s.wr k v).fl j = s.fl j := rfl
@[simp] theorem State.gen_wr (k : Nat) (v : Int) (j : Nat) (s : State) : (s.wr k v).gen j = s.gen j := rfl
@[simp] theorem State.queue_wr (k : Nat) (v : Int) (j : Nat) (s : State) : (s.wr k v).queue j = s.queue j := rfl
@[simp] theorem State.codeRec_wr (k : Nat) (v : Int) (j : Nat) (s : State) : (s.wr k v).codeRec j = s.codeRec j := rfl
@[simp] theorem State.acqBuf_wr (k : Nat) (v : Int) (j : Nat) (s : State) : (s.wr k v).acqBuf j = s.acqBuf j := rfl
@[simp] theorem State.trig_wr (k : Nat) (v : Int) (j : Nat) (s : State) : (s.wr k v).trig j = s.trig j := rfl
@[simp] theorem State.pair_wr (k : Nat) (v : Int) (j : Nat) (s : State) : (s.wr k v).pair j = s.pair j := rfl
@[simp] theorem State.slice_wr (k : Nat) (v : Int) (j : Nat) (s : State) : (s.wr k v).slice j = s.slice j := rfl
@[simp] theorem State.beat_wr (k : Nat) (v : Int) (j : Nat) (s : State) : (s.wr k v).beat j = s.beat j := rfl
@[simp] theorem State.inputLevel_wr (k : Nat) (v : Int) (j : Nat) (s : State) : (s.wr k v).inputLevel j = s.inputLevel j := rfl
@[simp] theorem State.maskEx_wr (k : Nat) (v : Int) (j : Nat) (s : State) : (s.wr k v).maskEx j = s.maskEx j := rfl

/-! ### State.clr -/

@[simp] theorem State.clr_now (k : Nat) (s : State) : (s.clr k).now = s.now := rfl
@[simp] theorem State.clr_fresh (k : Nat) (s : State) : (s.clr k).fresh = s.fresh := rfl
@[simp] theorem State.clr_out (k : Nat) (s : State) : (s.clr k).out = s.out := rfl
@[simp] theorem State.clr_pending (k : Nat) (s : State) : (s.clr k).pending = s.pending := rfl
@[simp] theorem State.clr_od (k : Nat) (s : State) : (s.clr k).od = Tbl.erase k s.od := rfl
@[simp] theorem State.clr_blobs (k : Nat) (s : State) : (s.clr k).blobs = s.blobs := rfl
@[simp] theorem State.clr_batches (k : Nat) (s : State) : (s.clr k).batches = s.batches := rfl
@[simp] theorem State.clr_fixed (k : Nat) (s : State) : (s.clr k).fixed = s.fixed := rfl
@[simp] theorem State.clr_floats (k : Nat) (s : State) : (s.clr k).floats = s.floats := rfl
@[simp] theorem State.clr_gens (k : Nat) (s : State) : (s.clr k).gens = s.gens := rfl
@[simp] theorem State.clr_fabric (k : Nat) (s : State) : (s.clr k).fabric = s.fabric := rfl
@[simp] theorem State.clr_meas (k : Nat) (s : State) : (s.clr k).meas = s.meas := rfl
@[simp] theorem State.clr_pwm (k : Nat) (s : State) : (s.clr k).pwm = s.pwm := rfl
@[simp] theorem State.clr_links (k : Nat) (s : State) : (s.clr k).links = s.links := rfl
@[simp] theorem State.clr_aux (k : Nat) (s : State) : (s.clr k).aux = s.aux := rfl
@[simp] theorem State.clr_island (k : Nat) (s : State) : (s.clr k).island = s.island := rfl
@[simp] theorem State.clr_clock (k : Nat) (s : State) : (s.clr k).clock = s.clock := rfl
@[simp] theorem State.clr_acq (k : Nat) (s : State) : (s.clr k).acq = s.acq := rfl
@[simp] theorem State.clr_log (k : Nat) (s : State) : (s.clr k).log = s.log := rfl
@[simp] theorem State.clr_rack (k : Nat) (s : State) : (s.clr k).rack = s.rack := rfl
@[simp] theorem State.clr_power (k : Nat) (s : State) : (s.clr k).power = s.power := rfl
@[simp] theorem State.clr_srv (k : Nat) (s : State) : (s.clr k).srv = s.srv := rfl
@[simp] theorem State.clr_net (k : Nat) (s : State) : (s.clr k).net = s.net := rfl
@[simp] theorem State.session_clr (k : Nat) (j : Nat) (s : State) : (s.clr k).session j = s.session j := rfl
@[simp] theorem State.chan_clr (k : Nat) (j : Nat) (s : State) : (s.clr k).chan j = s.chan j := rfl
@[simp] theorem State.chainRec_clr (k : Nat) (j : Nat) (s : State) : (s.clr k).chainRec j = s.chainRec j := rfl
@[simp] theorem State.sfd_clr (k : Nat) (j : Nat) (s : State) : (s.clr k).sfd j = s.sfd j := rfl
@[simp] theorem State.core_clr (k : Nat) (j : Nat) (s : State) : (s.clr k).core j = s.core j := rfl
@[simp] theorem State.tpo_clr (k : Nat) (j : Nat) (s : State) : (s.clr k).tpo j = s.tpo j := rfl
@[simp] theorem State.ptpPort_clr (k : Nat) (j : Nat) (s : State) : (s.clr k).ptpPort j = s.ptpPort j := rfl
@[simp] theorem State.lane_clr (k : Nat) (j : Nat) (s : State) : (s.clr k).lane j = s.lane j := rfl
@[simp] theorem State.fwSlot_clr (k : Nat) (j : Nat) (s : State) : (s.clr k).fwSlot j = s.fwSlot j := rfl
@[simp] theorem State.stage_clr (k : Nat) (j : Nat) (s : State) : (s.clr k).stage j = s.stage j := rfl
@[simp] theorem State.check_clr (k : Nat) (j : Nat) (s : State) : (s.clr k).check j = s.check j := rfl
@[simp] theorem State.circ_clr (k : Nat) (j : Nat) (s : State) : (s.clr k).circ j = s.circ j := rfl
@[simp] theorem State.link_clr (k : Nat) (j : Nat) (s : State) : (s.clr k).link j = s.link j := rfl
@[simp] theorem State.node_clr (k : Nat) (j : Nat) (s : State) : (s.clr k).node j = s.node j := rfl
@[simp] theorem State.pub_clr (k : Nat) (j : Nat) (s : State) : (s.clr k).pub j = s.pub j := rfl
@[simp] theorem State.blob_clr (k : Nat) (j : Nat) (s : State) : (s.clr k).blob j = s.blob j := rfl
@[simp] theorem State.batch_clr (k : Nat) (j : Nat) (s : State) : (s.clr k).batch j = s.batch j := rfl
@[simp] theorem State.fx_clr (k : Nat) (j : Nat) (s : State) : (s.clr k).fx j = s.fx j := rfl
@[simp] theorem State.fl_clr (k : Nat) (j : Nat) (s : State) : (s.clr k).fl j = s.fl j := rfl
@[simp] theorem State.gen_clr (k : Nat) (j : Nat) (s : State) : (s.clr k).gen j = s.gen j := rfl
@[simp] theorem State.queue_clr (k : Nat) (j : Nat) (s : State) : (s.clr k).queue j = s.queue j := rfl
@[simp] theorem State.codeRec_clr (k : Nat) (j : Nat) (s : State) : (s.clr k).codeRec j = s.codeRec j := rfl
@[simp] theorem State.acqBuf_clr (k : Nat) (j : Nat) (s : State) : (s.clr k).acqBuf j = s.acqBuf j := rfl
@[simp] theorem State.trig_clr (k : Nat) (j : Nat) (s : State) : (s.clr k).trig j = s.trig j := rfl
@[simp] theorem State.pair_clr (k : Nat) (j : Nat) (s : State) : (s.clr k).pair j = s.pair j := rfl
@[simp] theorem State.slice_clr (k : Nat) (j : Nat) (s : State) : (s.clr k).slice j = s.slice j := rfl
@[simp] theorem State.beat_clr (k : Nat) (j : Nat) (s : State) : (s.clr k).beat j = s.beat j := rfl
@[simp] theorem State.inputLevel_clr (k : Nat) (j : Nat) (s : State) : (s.clr k).inputLevel j = s.inputLevel j := rfl
@[simp] theorem State.maskEx_clr (k : Nat) (j : Nat) (s : State) : (s.clr k).maskEx j = s.maskEx j := rfl

/-! ### State.wrBlob -/

@[simp] theorem State.wrBlob_now (k : Nat) (l : List Byte) (s : State) : (s.wrBlob k l).now = s.now := rfl
@[simp] theorem State.wrBlob_fresh (k : Nat) (l : List Byte) (s : State) : (s.wrBlob k l).fresh = s.fresh := rfl
@[simp] theorem State.wrBlob_out (k : Nat) (l : List Byte) (s : State) : (s.wrBlob k l).out = s.out := rfl
@[simp] theorem State.wrBlob_pending (k : Nat) (l : List Byte) (s : State) : (s.wrBlob k l).pending = s.pending := rfl
@[simp] theorem State.wrBlob_od (k : Nat) (l : List Byte) (s : State) : (s.wrBlob k l).od = s.od := rfl
@[simp] theorem State.wrBlob_blobs (k : Nat) (l : List Byte) (s : State) : (s.wrBlob k l).blobs = Tbl.set k l s.blobs := rfl
@[simp] theorem State.wrBlob_batches (k : Nat) (l : List Byte) (s : State) : (s.wrBlob k l).batches = s.batches := rfl
@[simp] theorem State.wrBlob_fixed (k : Nat) (l : List Byte) (s : State) : (s.wrBlob k l).fixed = s.fixed := rfl
@[simp] theorem State.wrBlob_floats (k : Nat) (l : List Byte) (s : State) : (s.wrBlob k l).floats = s.floats := rfl
@[simp] theorem State.wrBlob_gens (k : Nat) (l : List Byte) (s : State) : (s.wrBlob k l).gens = s.gens := rfl
@[simp] theorem State.wrBlob_fabric (k : Nat) (l : List Byte) (s : State) : (s.wrBlob k l).fabric = s.fabric := rfl
@[simp] theorem State.wrBlob_meas (k : Nat) (l : List Byte) (s : State) : (s.wrBlob k l).meas = s.meas := rfl
@[simp] theorem State.wrBlob_pwm (k : Nat) (l : List Byte) (s : State) : (s.wrBlob k l).pwm = s.pwm := rfl
@[simp] theorem State.wrBlob_links (k : Nat) (l : List Byte) (s : State) : (s.wrBlob k l).links = s.links := rfl
@[simp] theorem State.wrBlob_aux (k : Nat) (l : List Byte) (s : State) : (s.wrBlob k l).aux = s.aux := rfl
@[simp] theorem State.wrBlob_island (k : Nat) (l : List Byte) (s : State) : (s.wrBlob k l).island = s.island := rfl
@[simp] theorem State.wrBlob_clock (k : Nat) (l : List Byte) (s : State) : (s.wrBlob k l).clock = s.clock := rfl
@[simp] theorem State.wrBlob_acq (k : Nat) (l : List Byte) (s : State) : (s.wrBlob k l).acq = s.acq := rfl
@[simp] theorem State.wrBlob_log (k : Nat) (l : List Byte) (s : State) : (s.wrBlob k l).log = s.log := rfl
@[simp] theorem State.wrBlob_rack (k : Nat) (l : List Byte) (s : State) : (s.wrBlob k l).rack = s.rack := rfl
@[simp] theorem State.wrBlob_power (k : Nat) (l : List Byte) (s : State) : (s.wrBlob k l).power = s.power := rfl
@[simp] theorem State.wrBlob_srv (k : Nat) (l : List Byte) (s : State) : (s.wrBlob k l).srv = s.srv := rfl
@[simp] theorem State.wrBlob_net (k : Nat) (l : List Byte) (s : State) : (s.wrBlob k l).net = s.net := rfl
@[simp] theorem State.session_wrBlob (k : Nat) (l : List Byte) (j : Nat) (s : State) : (s.wrBlob k l).session j = s.session j := rfl
@[simp] theorem State.chan_wrBlob (k : Nat) (l : List Byte) (j : Nat) (s : State) : (s.wrBlob k l).chan j = s.chan j := rfl
@[simp] theorem State.chainRec_wrBlob (k : Nat) (l : List Byte) (j : Nat) (s : State) : (s.wrBlob k l).chainRec j = s.chainRec j := rfl
@[simp] theorem State.sfd_wrBlob (k : Nat) (l : List Byte) (j : Nat) (s : State) : (s.wrBlob k l).sfd j = s.sfd j := rfl
@[simp] theorem State.core_wrBlob (k : Nat) (l : List Byte) (j : Nat) (s : State) : (s.wrBlob k l).core j = s.core j := rfl
@[simp] theorem State.tpo_wrBlob (k : Nat) (l : List Byte) (j : Nat) (s : State) : (s.wrBlob k l).tpo j = s.tpo j := rfl
@[simp] theorem State.ptpPort_wrBlob (k : Nat) (l : List Byte) (j : Nat) (s : State) : (s.wrBlob k l).ptpPort j = s.ptpPort j := rfl
@[simp] theorem State.lane_wrBlob (k : Nat) (l : List Byte) (j : Nat) (s : State) : (s.wrBlob k l).lane j = s.lane j := rfl
@[simp] theorem State.fwSlot_wrBlob (k : Nat) (l : List Byte) (j : Nat) (s : State) : (s.wrBlob k l).fwSlot j = s.fwSlot j := rfl
@[simp] theorem State.stage_wrBlob (k : Nat) (l : List Byte) (j : Nat) (s : State) : (s.wrBlob k l).stage j = s.stage j := rfl
@[simp] theorem State.check_wrBlob (k : Nat) (l : List Byte) (j : Nat) (s : State) : (s.wrBlob k l).check j = s.check j := rfl
@[simp] theorem State.circ_wrBlob (k : Nat) (l : List Byte) (j : Nat) (s : State) : (s.wrBlob k l).circ j = s.circ j := rfl
@[simp] theorem State.link_wrBlob (k : Nat) (l : List Byte) (j : Nat) (s : State) : (s.wrBlob k l).link j = s.link j := rfl
@[simp] theorem State.node_wrBlob (k : Nat) (l : List Byte) (j : Nat) (s : State) : (s.wrBlob k l).node j = s.node j := rfl
@[simp] theorem State.pub_wrBlob (k : Nat) (l : List Byte) (j : Nat) (s : State) : (s.wrBlob k l).pub j = s.pub j := rfl
@[simp] theorem State.blob_wrBlob_same (k : Nat) (l : List Byte) (s : State) : (s.wrBlob k l).blob k = l := Tbl.get_set_same _ _ _ _
theorem State.blob_wrBlob_other (k : Nat) (l : List Byte) (s : State) {j : Nat} (h : j ≠ k) : (s.wrBlob k l).blob j = s.blob j := Tbl.get_set_other _ _ _ h
@[simp] theorem State.batch_wrBlob (k : Nat) (l : List Byte) (j : Nat) (s : State) : (s.wrBlob k l).batch j = s.batch j := rfl
@[simp] theorem State.fx_wrBlob (k : Nat) (l : List Byte) (j : Nat) (s : State) : (s.wrBlob k l).fx j = s.fx j := rfl
@[simp] theorem State.fl_wrBlob (k : Nat) (l : List Byte) (j : Nat) (s : State) : (s.wrBlob k l).fl j = s.fl j := rfl
@[simp] theorem State.gen_wrBlob (k : Nat) (l : List Byte) (j : Nat) (s : State) : (s.wrBlob k l).gen j = s.gen j := rfl
@[simp] theorem State.queue_wrBlob (k : Nat) (l : List Byte) (j : Nat) (s : State) : (s.wrBlob k l).queue j = s.queue j := rfl
@[simp] theorem State.codeRec_wrBlob (k : Nat) (l : List Byte) (j : Nat) (s : State) : (s.wrBlob k l).codeRec j = s.codeRec j := rfl
@[simp] theorem State.acqBuf_wrBlob (k : Nat) (l : List Byte) (j : Nat) (s : State) : (s.wrBlob k l).acqBuf j = s.acqBuf j := rfl
@[simp] theorem State.trig_wrBlob (k : Nat) (l : List Byte) (j : Nat) (s : State) : (s.wrBlob k l).trig j = s.trig j := rfl
@[simp] theorem State.pair_wrBlob (k : Nat) (l : List Byte) (j : Nat) (s : State) : (s.wrBlob k l).pair j = s.pair j := rfl
@[simp] theorem State.slice_wrBlob (k : Nat) (l : List Byte) (j : Nat) (s : State) : (s.wrBlob k l).slice j = s.slice j := rfl
@[simp] theorem State.beat_wrBlob (k : Nat) (l : List Byte) (j : Nat) (s : State) : (s.wrBlob k l).beat j = s.beat j := rfl
@[simp] theorem State.inputLevel_wrBlob (k : Nat) (l : List Byte) (j : Nat) (s : State) : (s.wrBlob k l).inputLevel j = s.inputLevel j := rfl
@[simp] theorem State.maskEx_wrBlob (k : Nat) (l : List Byte) (j : Nat) (s : State) : (s.wrBlob k l).maskEx j = s.maskEx j := rfl

/-! ### State.emit -/

@[simp] theorem State.emit_now (o : Output) (s : State) : (s.emit o).now = s.now := rfl
@[simp] theorem State.emit_fresh (o : Output) (s : State) : (s.emit o).fresh = s.fresh := rfl
@[simp] theorem State.emit_out (o : Output) (s : State) : (s.emit o).out = s.out ++ [o] := rfl
@[simp] theorem State.emit_pending (o : Output) (s : State) : (s.emit o).pending = s.pending := rfl
@[simp] theorem State.emit_od (o : Output) (s : State) : (s.emit o).od = s.od := rfl
@[simp] theorem State.emit_blobs (o : Output) (s : State) : (s.emit o).blobs = s.blobs := rfl
@[simp] theorem State.emit_batches (o : Output) (s : State) : (s.emit o).batches = s.batches := rfl
@[simp] theorem State.emit_fixed (o : Output) (s : State) : (s.emit o).fixed = s.fixed := rfl
@[simp] theorem State.emit_floats (o : Output) (s : State) : (s.emit o).floats = s.floats := rfl
@[simp] theorem State.emit_gens (o : Output) (s : State) : (s.emit o).gens = s.gens := rfl
@[simp] theorem State.emit_fabric (o : Output) (s : State) : (s.emit o).fabric = s.fabric := rfl
@[simp] theorem State.emit_meas (o : Output) (s : State) : (s.emit o).meas = s.meas := rfl
@[simp] theorem State.emit_pwm (o : Output) (s : State) : (s.emit o).pwm = s.pwm := rfl
@[simp] theorem State.emit_links (o : Output) (s : State) : (s.emit o).links = s.links := rfl
@[simp] theorem State.emit_aux (o : Output) (s : State) : (s.emit o).aux = s.aux := rfl
@[simp] theorem State.emit_island (o : Output) (s : State) : (s.emit o).island = s.island := rfl
@[simp] theorem State.emit_clock (o : Output) (s : State) : (s.emit o).clock = s.clock := rfl
@[simp] theorem State.emit_acq (o : Output) (s : State) : (s.emit o).acq = s.acq := rfl
@[simp] theorem State.emit_log (o : Output) (s : State) : (s.emit o).log = s.log := rfl
@[simp] theorem State.emit_rack (o : Output) (s : State) : (s.emit o).rack = s.rack := rfl
@[simp] theorem State.emit_power (o : Output) (s : State) : (s.emit o).power = s.power := rfl
@[simp] theorem State.emit_srv (o : Output) (s : State) : (s.emit o).srv = s.srv := rfl
@[simp] theorem State.emit_net (o : Output) (s : State) : (s.emit o).net = s.net := rfl
@[simp] theorem State.session_emit (o : Output) (j : Nat) (s : State) : (s.emit o).session j = s.session j := rfl
@[simp] theorem State.chan_emit (o : Output) (j : Nat) (s : State) : (s.emit o).chan j = s.chan j := rfl
@[simp] theorem State.chainRec_emit (o : Output) (j : Nat) (s : State) : (s.emit o).chainRec j = s.chainRec j := rfl
@[simp] theorem State.sfd_emit (o : Output) (j : Nat) (s : State) : (s.emit o).sfd j = s.sfd j := rfl
@[simp] theorem State.core_emit (o : Output) (j : Nat) (s : State) : (s.emit o).core j = s.core j := rfl
@[simp] theorem State.tpo_emit (o : Output) (j : Nat) (s : State) : (s.emit o).tpo j = s.tpo j := rfl
@[simp] theorem State.ptpPort_emit (o : Output) (j : Nat) (s : State) : (s.emit o).ptpPort j = s.ptpPort j := rfl
@[simp] theorem State.lane_emit (o : Output) (j : Nat) (s : State) : (s.emit o).lane j = s.lane j := rfl
@[simp] theorem State.fwSlot_emit (o : Output) (j : Nat) (s : State) : (s.emit o).fwSlot j = s.fwSlot j := rfl
@[simp] theorem State.stage_emit (o : Output) (j : Nat) (s : State) : (s.emit o).stage j = s.stage j := rfl
@[simp] theorem State.check_emit (o : Output) (j : Nat) (s : State) : (s.emit o).check j = s.check j := rfl
@[simp] theorem State.circ_emit (o : Output) (j : Nat) (s : State) : (s.emit o).circ j = s.circ j := rfl
@[simp] theorem State.link_emit (o : Output) (j : Nat) (s : State) : (s.emit o).link j = s.link j := rfl
@[simp] theorem State.node_emit (o : Output) (j : Nat) (s : State) : (s.emit o).node j = s.node j := rfl
@[simp] theorem State.pub_emit (o : Output) (j : Nat) (s : State) : (s.emit o).pub j = s.pub j := rfl
@[simp] theorem State.blob_emit (o : Output) (j : Nat) (s : State) : (s.emit o).blob j = s.blob j := rfl
@[simp] theorem State.batch_emit (o : Output) (j : Nat) (s : State) : (s.emit o).batch j = s.batch j := rfl
@[simp] theorem State.fx_emit (o : Output) (j : Nat) (s : State) : (s.emit o).fx j = s.fx j := rfl
@[simp] theorem State.fl_emit (o : Output) (j : Nat) (s : State) : (s.emit o).fl j = s.fl j := rfl
@[simp] theorem State.gen_emit (o : Output) (j : Nat) (s : State) : (s.emit o).gen j = s.gen j := rfl
@[simp] theorem State.queue_emit (o : Output) (j : Nat) (s : State) : (s.emit o).queue j = s.queue j := rfl
@[simp] theorem State.codeRec_emit (o : Output) (j : Nat) (s : State) : (s.emit o).codeRec j = s.codeRec j := rfl
@[simp] theorem State.acqBuf_emit (o : Output) (j : Nat) (s : State) : (s.emit o).acqBuf j = s.acqBuf j := rfl
@[simp] theorem State.trig_emit (o : Output) (j : Nat) (s : State) : (s.emit o).trig j = s.trig j := rfl
@[simp] theorem State.pair_emit (o : Output) (j : Nat) (s : State) : (s.emit o).pair j = s.pair j := rfl
@[simp] theorem State.slice_emit (o : Output) (j : Nat) (s : State) : (s.emit o).slice j = s.slice j := rfl
@[simp] theorem State.beat_emit (o : Output) (j : Nat) (s : State) : (s.emit o).beat j = s.beat j := rfl
@[simp] theorem State.inputLevel_emit (o : Output) (j : Nat) (s : State) : (s.emit o).inputLevel j = s.inputLevel j := rfl
@[simp] theorem State.maskEx_emit (o : Output) (j : Nat) (s : State) : (s.emit o).maskEx j = s.maskEx j := rfl

/-! ### State.setBatch -/

@[simp] theorem State.setBatch_now (b : Nat) (r : BatchRec) (s : State) : (s.setBatch b r).now = s.now := rfl
@[simp] theorem State.setBatch_fresh (b : Nat) (r : BatchRec) (s : State) : (s.setBatch b r).fresh = s.fresh := rfl
@[simp] theorem State.setBatch_out (b : Nat) (r : BatchRec) (s : State) : (s.setBatch b r).out = s.out := rfl
@[simp] theorem State.setBatch_pending (b : Nat) (r : BatchRec) (s : State) : (s.setBatch b r).pending = s.pending := rfl
@[simp] theorem State.setBatch_od (b : Nat) (r : BatchRec) (s : State) : (s.setBatch b r).od = s.od := rfl
@[simp] theorem State.setBatch_blobs (b : Nat) (r : BatchRec) (s : State) : (s.setBatch b r).blobs = s.blobs := rfl
@[simp] theorem State.setBatch_batches (b : Nat) (r : BatchRec) (s : State) : (s.setBatch b r).batches = Tbl.set b r s.batches := rfl
@[simp] theorem State.setBatch_fixed (b : Nat) (r : BatchRec) (s : State) : (s.setBatch b r).fixed = s.fixed := rfl
@[simp] theorem State.setBatch_floats (b : Nat) (r : BatchRec) (s : State) : (s.setBatch b r).floats = s.floats := rfl
@[simp] theorem State.setBatch_gens (b : Nat) (r : BatchRec) (s : State) : (s.setBatch b r).gens = s.gens := rfl
@[simp] theorem State.setBatch_fabric (b : Nat) (r : BatchRec) (s : State) : (s.setBatch b r).fabric = s.fabric := rfl
@[simp] theorem State.setBatch_meas (b : Nat) (r : BatchRec) (s : State) : (s.setBatch b r).meas = s.meas := rfl
@[simp] theorem State.setBatch_pwm (b : Nat) (r : BatchRec) (s : State) : (s.setBatch b r).pwm = s.pwm := rfl
@[simp] theorem State.setBatch_links (b : Nat) (r : BatchRec) (s : State) : (s.setBatch b r).links = s.links := rfl
@[simp] theorem State.setBatch_aux (b : Nat) (r : BatchRec) (s : State) : (s.setBatch b r).aux = s.aux := rfl
@[simp] theorem State.setBatch_island (b : Nat) (r : BatchRec) (s : State) : (s.setBatch b r).island = s.island := rfl
@[simp] theorem State.setBatch_clock (b : Nat) (r : BatchRec) (s : State) : (s.setBatch b r).clock = s.clock := rfl
@[simp] theorem State.setBatch_acq (b : Nat) (r : BatchRec) (s : State) : (s.setBatch b r).acq = s.acq := rfl
@[simp] theorem State.setBatch_log (b : Nat) (r : BatchRec) (s : State) : (s.setBatch b r).log = s.log := rfl
@[simp] theorem State.setBatch_rack (b : Nat) (r : BatchRec) (s : State) : (s.setBatch b r).rack = s.rack := rfl
@[simp] theorem State.setBatch_power (b : Nat) (r : BatchRec) (s : State) : (s.setBatch b r).power = s.power := rfl
@[simp] theorem State.setBatch_srv (b : Nat) (r : BatchRec) (s : State) : (s.setBatch b r).srv = s.srv := rfl
@[simp] theorem State.setBatch_net (b : Nat) (r : BatchRec) (s : State) : (s.setBatch b r).net = s.net := rfl
@[simp] theorem State.session_setBatch (b : Nat) (r : BatchRec) (j : Nat) (s : State) : (s.setBatch b r).session j = s.session j := rfl
@[simp] theorem State.chan_setBatch (b : Nat) (r : BatchRec) (j : Nat) (s : State) : (s.setBatch b r).chan j = s.chan j := rfl
@[simp] theorem State.chainRec_setBatch (b : Nat) (r : BatchRec) (j : Nat) (s : State) : (s.setBatch b r).chainRec j = s.chainRec j := rfl
@[simp] theorem State.sfd_setBatch (b : Nat) (r : BatchRec) (j : Nat) (s : State) : (s.setBatch b r).sfd j = s.sfd j := rfl
@[simp] theorem State.core_setBatch (b : Nat) (r : BatchRec) (j : Nat) (s : State) : (s.setBatch b r).core j = s.core j := rfl
@[simp] theorem State.tpo_setBatch (b : Nat) (r : BatchRec) (j : Nat) (s : State) : (s.setBatch b r).tpo j = s.tpo j := rfl
@[simp] theorem State.ptpPort_setBatch (b : Nat) (r : BatchRec) (j : Nat) (s : State) : (s.setBatch b r).ptpPort j = s.ptpPort j := rfl
@[simp] theorem State.lane_setBatch (b : Nat) (r : BatchRec) (j : Nat) (s : State) : (s.setBatch b r).lane j = s.lane j := rfl
@[simp] theorem State.fwSlot_setBatch (b : Nat) (r : BatchRec) (j : Nat) (s : State) : (s.setBatch b r).fwSlot j = s.fwSlot j := rfl
@[simp] theorem State.stage_setBatch (b : Nat) (r : BatchRec) (j : Nat) (s : State) : (s.setBatch b r).stage j = s.stage j := rfl
@[simp] theorem State.check_setBatch (b : Nat) (r : BatchRec) (j : Nat) (s : State) : (s.setBatch b r).check j = s.check j := rfl
@[simp] theorem State.circ_setBatch (b : Nat) (r : BatchRec) (j : Nat) (s : State) : (s.setBatch b r).circ j = s.circ j := rfl
@[simp] theorem State.link_setBatch (b : Nat) (r : BatchRec) (j : Nat) (s : State) : (s.setBatch b r).link j = s.link j := rfl
@[simp] theorem State.node_setBatch (b : Nat) (r : BatchRec) (j : Nat) (s : State) : (s.setBatch b r).node j = s.node j := rfl
@[simp] theorem State.pub_setBatch (b : Nat) (r : BatchRec) (j : Nat) (s : State) : (s.setBatch b r).pub j = s.pub j := rfl
@[simp] theorem State.blob_setBatch (b : Nat) (r : BatchRec) (j : Nat) (s : State) : (s.setBatch b r).blob j = s.blob j := rfl
@[simp] theorem State.batch_setBatch_same (b : Nat) (r : BatchRec) (s : State) : (s.setBatch b r).batch b = r := Tbl.get_set_same _ _ _ _
theorem State.batch_setBatch_other (b : Nat) (r : BatchRec) (s : State) {j : Nat} (h : j ≠ b) : (s.setBatch b r).batch j = s.batch j := Tbl.get_set_other _ _ _ h
@[simp] theorem State.fx_setBatch (b : Nat) (r : BatchRec) (j : Nat) (s : State) : (s.setBatch b r).fx j = s.fx j := rfl
@[simp] theorem State.fl_setBatch (b : Nat) (r : BatchRec) (j : Nat) (s : State) : (s.setBatch b r).fl j = s.fl j := rfl
@[simp] theorem State.gen_setBatch (b : Nat) (r : BatchRec) (j : Nat) (s : State) : (s.setBatch b r).gen j = s.gen j := rfl
@[simp] theorem State.queue_setBatch (b : Nat) (r : BatchRec) (j : Nat) (s : State) : (s.setBatch b r).queue j = s.queue j := rfl
@[simp] theorem State.codeRec_setBatch (b : Nat) (r : BatchRec) (j : Nat) (s : State) : (s.setBatch b r).codeRec j = s.codeRec j := rfl
@[simp] theorem State.acqBuf_setBatch (b : Nat) (r : BatchRec) (j : Nat) (s : State) : (s.setBatch b r).acqBuf j = s.acqBuf j := rfl
@[simp] theorem State.trig_setBatch (b : Nat) (r : BatchRec) (j : Nat) (s : State) : (s.setBatch b r).trig j = s.trig j := rfl
@[simp] theorem State.pair_setBatch (b : Nat) (r : BatchRec) (j : Nat) (s : State) : (s.setBatch b r).pair j = s.pair j := rfl
@[simp] theorem State.slice_setBatch (b : Nat) (r : BatchRec) (j : Nat) (s : State) : (s.setBatch b r).slice j = s.slice j := rfl
@[simp] theorem State.beat_setBatch (b : Nat) (r : BatchRec) (j : Nat) (s : State) : (s.setBatch b r).beat j = s.beat j := rfl
@[simp] theorem State.inputLevel_setBatch (b : Nat) (r : BatchRec) (j : Nat) (s : State) : (s.setBatch b r).inputLevel j = s.inputLevel j := rfl
@[simp] theorem State.maskEx_setBatch (b : Nat) (r : BatchRec) (j : Nat) (s : State) : (s.setBatch b r).maskEx j = s.maskEx j := rfl

/-! ### State.setFx -/

@[simp] theorem State.setFx_now (i : Nat) (r : FixedSlot) (s : State) : (s.setFx i r).now = s.now := rfl
@[simp] theorem State.setFx_fresh (i : Nat) (r : FixedSlot) (s : State) : (s.setFx i r).fresh = s.fresh := rfl
@[simp] theorem State.setFx_out (i : Nat) (r : FixedSlot) (s : State) : (s.setFx i r).out = s.out := rfl
@[simp] theorem State.setFx_pending (i : Nat) (r : FixedSlot) (s : State) : (s.setFx i r).pending = s.pending := rfl
@[simp] theorem State.setFx_od (i : Nat) (r : FixedSlot) (s : State) : (s.setFx i r).od = s.od := rfl
@[simp] theorem State.setFx_blobs (i : Nat) (r : FixedSlot) (s : State) : (s.setFx i r).blobs = s.blobs := rfl
@[simp] theorem State.setFx_batches (i : Nat) (r : FixedSlot) (s : State) : (s.setFx i r).batches = s.batches := rfl
@[simp] theorem State.setFx_fixed (i : Nat) (r : FixedSlot) (s : State) : (s.setFx i r).fixed = Tbl.set i r s.fixed := rfl
@[simp] theorem State.setFx_floats (i : Nat) (r : FixedSlot) (s : State) : (s.setFx i r).floats = s.floats := rfl
@[simp] theorem State.setFx_gens (i : Nat) (r : FixedSlot) (s : State) : (s.setFx i r).gens = s.gens := rfl
@[simp] theorem State.setFx_fabric (i : Nat) (r : FixedSlot) (s : State) : (s.setFx i r).fabric = s.fabric := rfl
@[simp] theorem State.setFx_meas (i : Nat) (r : FixedSlot) (s : State) : (s.setFx i r).meas = s.meas := rfl
@[simp] theorem State.setFx_pwm (i : Nat) (r : FixedSlot) (s : State) : (s.setFx i r).pwm = s.pwm := rfl
@[simp] theorem State.setFx_links (i : Nat) (r : FixedSlot) (s : State) : (s.setFx i r).links = s.links := rfl
@[simp] theorem State.setFx_aux (i : Nat) (r : FixedSlot) (s : State) : (s.setFx i r).aux = s.aux := rfl
@[simp] theorem State.setFx_island (i : Nat) (r : FixedSlot) (s : State) : (s.setFx i r).island = s.island := rfl
@[simp] theorem State.setFx_clock (i : Nat) (r : FixedSlot) (s : State) : (s.setFx i r).clock = s.clock := rfl
@[simp] theorem State.setFx_acq (i : Nat) (r : FixedSlot) (s : State) : (s.setFx i r).acq = s.acq := rfl
@[simp] theorem State.setFx_log (i : Nat) (r : FixedSlot) (s : State) : (s.setFx i r).log = s.log := rfl
@[simp] theorem State.setFx_rack (i : Nat) (r : FixedSlot) (s : State) : (s.setFx i r).rack = s.rack := rfl
@[simp] theorem State.setFx_power (i : Nat) (r : FixedSlot) (s : State) : (s.setFx i r).power = s.power := rfl
@[simp] theorem State.setFx_srv (i : Nat) (r : FixedSlot) (s : State) : (s.setFx i r).srv = s.srv := rfl
@[simp] theorem State.setFx_net (i : Nat) (r : FixedSlot) (s : State) : (s.setFx i r).net = s.net := rfl
@[simp] theorem State.session_setFx (i : Nat) (r : FixedSlot) (j : Nat) (s : State) : (s.setFx i r).session j = s.session j := rfl
@[simp] theorem State.chan_setFx (i : Nat) (r : FixedSlot) (j : Nat) (s : State) : (s.setFx i r).chan j = s.chan j := rfl
@[simp] theorem State.chainRec_setFx (i : Nat) (r : FixedSlot) (j : Nat) (s : State) : (s.setFx i r).chainRec j = s.chainRec j := rfl
@[simp] theorem State.sfd_setFx (i : Nat) (r : FixedSlot) (j : Nat) (s : State) : (s.setFx i r).sfd j = s.sfd j := rfl
@[simp] theorem State.core_setFx (i : Nat) (r : FixedSlot) (j : Nat) (s : State) : (s.setFx i r).core j = s.core j := rfl
@[simp] theorem State.tpo_setFx (i : Nat) (r : FixedSlot) (j : Nat) (s : State) : (s.setFx i r).tpo j = s.tpo j := rfl
@[simp] theorem State.ptpPort_setFx (i : Nat) (r : FixedSlot) (j : Nat) (s : State) : (s.setFx i r).ptpPort j = s.ptpPort j := rfl
@[simp] theorem State.lane_setFx (i : Nat) (r : FixedSlot) (j : Nat) (s : State) : (s.setFx i r).lane j = s.lane j := rfl
@[simp] theorem State.fwSlot_setFx (i : Nat) (r : FixedSlot) (j : Nat) (s : State) : (s.setFx i r).fwSlot j = s.fwSlot j := rfl
@[simp] theorem State.stage_setFx (i : Nat) (r : FixedSlot) (j : Nat) (s : State) : (s.setFx i r).stage j = s.stage j := rfl
@[simp] theorem State.check_setFx (i : Nat) (r : FixedSlot) (j : Nat) (s : State) : (s.setFx i r).check j = s.check j := rfl
@[simp] theorem State.circ_setFx (i : Nat) (r : FixedSlot) (j : Nat) (s : State) : (s.setFx i r).circ j = s.circ j := rfl
@[simp] theorem State.link_setFx (i : Nat) (r : FixedSlot) (j : Nat) (s : State) : (s.setFx i r).link j = s.link j := rfl
@[simp] theorem State.node_setFx (i : Nat) (r : FixedSlot) (j : Nat) (s : State) : (s.setFx i r).node j = s.node j := rfl
@[simp] theorem State.pub_setFx (i : Nat) (r : FixedSlot) (j : Nat) (s : State) : (s.setFx i r).pub j = s.pub j := rfl
@[simp] theorem State.blob_setFx (i : Nat) (r : FixedSlot) (j : Nat) (s : State) : (s.setFx i r).blob j = s.blob j := rfl
@[simp] theorem State.batch_setFx (i : Nat) (r : FixedSlot) (j : Nat) (s : State) : (s.setFx i r).batch j = s.batch j := rfl
@[simp] theorem State.fx_setFx_same (i : Nat) (r : FixedSlot) (s : State) : (s.setFx i r).fx i = r := Tbl.get_set_same _ _ _ _
theorem State.fx_setFx_other (i : Nat) (r : FixedSlot) (s : State) {j : Nat} (h : j ≠ i) : (s.setFx i r).fx j = s.fx j := Tbl.get_set_other _ _ _ h
@[simp] theorem State.fl_setFx (i : Nat) (r : FixedSlot) (j : Nat) (s : State) : (s.setFx i r).fl j = s.fl j := rfl
@[simp] theorem State.gen_setFx (i : Nat) (r : FixedSlot) (j : Nat) (s : State) : (s.setFx i r).gen j = s.gen j := rfl
@[simp] theorem State.queue_setFx (i : Nat) (r : FixedSlot) (j : Nat) (s : State) : (s.setFx i r).queue j = s.queue j := rfl
@[simp] theorem State.codeRec_setFx (i : Nat) (r : FixedSlot) (j : Nat) (s : State) : (s.setFx i r).codeRec j = s.codeRec j := rfl
@[simp] theorem State.acqBuf_setFx (i : Nat) (r : FixedSlot) (j : Nat) (s : State) : (s.setFx i r).acqBuf j = s.acqBuf j := rfl
@[simp] theorem State.trig_setFx (i : Nat) (r : FixedSlot) (j : Nat) (s : State) : (s.setFx i r).trig j = s.trig j := rfl
@[simp] theorem State.pair_setFx (i : Nat) (r : FixedSlot) (j : Nat) (s : State) : (s.setFx i r).pair j = s.pair j := rfl
@[simp] theorem State.slice_setFx (i : Nat) (r : FixedSlot) (j : Nat) (s : State) : (s.setFx i r).slice j = s.slice j := rfl
@[simp] theorem State.beat_setFx (i : Nat) (r : FixedSlot) (j : Nat) (s : State) : (s.setFx i r).beat j = s.beat j := rfl
@[simp] theorem State.inputLevel_setFx (i : Nat) (r : FixedSlot) (j : Nat) (s : State) : (s.setFx i r).inputLevel j = s.inputLevel j := rfl
@[simp] theorem State.maskEx_setFx (i : Nat) (r : FixedSlot) (j : Nat) (s : State) : (s.setFx i r).maskEx j = s.maskEx j := rfl

/-! ### State.setFl -/

@[simp] theorem State.setFl_now (i : Nat) (r : FloatSlot) (s : State) : (s.setFl i r).now = s.now := rfl
@[simp] theorem State.setFl_fresh (i : Nat) (r : FloatSlot) (s : State) : (s.setFl i r).fresh = s.fresh := rfl
@[simp] theorem State.setFl_out (i : Nat) (r : FloatSlot) (s : State) : (s.setFl i r).out = s.out := rfl
@[simp] theorem State.setFl_pending (i : Nat) (r : FloatSlot) (s : State) : (s.setFl i r).pending = s.pending := rfl
@[simp] theorem State.setFl_od (i : Nat) (r : FloatSlot) (s : State) : (s.setFl i r).od = s.od := rfl
@[simp] theorem State.setFl_blobs (i : Nat) (r : FloatSlot) (s : State) : (s.setFl i r).blobs = s.blobs := rfl
@[simp] theorem State.setFl_batches (i : Nat) (r : FloatSlot) (s : State) : (s.setFl i r).batches = s.batches := rfl
@[simp] theorem State.setFl_fixed (i : Nat) (r : FloatSlot) (s : State) : (s.setFl i r).fixed = s.fixed := rfl
@[simp] theorem State.setFl_floats (i : Nat) (r : FloatSlot) (s : State) : (s.setFl i r).floats = Tbl.set i r s.floats := rfl
@[simp] theorem State.setFl_gens (i : Nat) (r : FloatSlot) (s : State) : (s.setFl i r).gens = s.gens := rfl
@[simp] theorem State.setFl_fabric (i : Nat) (r : FloatSlot) (s : State) : (s.setFl i r).fabric = s.fabric := rfl
@[simp] theorem State.setFl_meas (i : Nat) (r : FloatSlot) (s : State) : (s.setFl i r).meas = s.meas := rfl
@[simp] theorem State.setFl_pwm (i : Nat) (r : FloatSlot) (s : State) : (s.setFl i r).pwm = s.pwm := rfl
@[simp] theorem State.setFl_links (i : Nat) (r : FloatSlot) (s : State) : (s.setFl i r).links = s.links := rfl
@[simp] theorem State.setFl_aux (i : Nat) (r : FloatSlot) (s : State) : (s.setFl i r).aux = s.aux := rfl
@[simp] theorem State.setFl_island (i : Nat) (r : FloatSlot) (s : State) : (s.setFl i r).island = s.island := rfl
@[simp] theorem State.setFl_clock (i : Nat) (r : FloatSlot) (s : State) : (s.setFl i r).clock = s.clock := rfl
@[simp] theorem State.setFl_acq (i : Nat) (r : FloatSlot) (s : State) : (s.setFl i r).acq = s.acq := rfl
@[simp] theorem State.setFl_log (i : Nat) (r : FloatSlot) (s : State) : (s.setFl i r).log = s.log := rfl
@[simp] theorem State.setFl_rack (i : Nat) (r : FloatSlot) (s : State) : (s.setFl i r).rack = s.rack := rfl
@[simp] theorem State.setFl_power (i : Nat) (r : FloatSlot) (s : State) : (s.setFl i r).power = s.power := rfl
@[simp] theorem State.setFl_srv (i : Nat) (r : FloatSlot) (s : State) : (s.setFl i r).srv = s.srv := rfl
@[simp] theorem State.setFl_net (i : Nat) (r : FloatSlot) (s : State) : (s.setFl i r).net = s.net := rfl
@[simp] theorem State.session_setFl (i : Nat) (r : FloatSlot) (j : Nat) (s : State) : (s.setFl i r).session j = s.session j := rfl
@[simp] theorem State.chan_setFl (i : Nat) (r : FloatSlot) (j : Nat) (s : State) : (s.setFl i r).chan j = s.chan j := rfl
@[simp] theorem State.chainRec_setFl (i : Nat) (r : FloatSlot) (j : Nat) (s : State) : (s.setFl i r).chainRec j = s.chainRec j := rfl
@[simp] theorem State.sfd_setFl (i : Nat) (r : FloatSlot) (j : Nat) (s : State) : (s.setFl i r).sfd j = s.sfd j := rfl
@[simp] theorem State.core_setFl (i : Nat) (r : FloatSlot) (j : Nat) (s : State) : (s.setFl i r).core j = s.core j := rfl
@[simp] theorem State.tpo_setFl (i : Nat) (r : FloatSlot) (j : Nat) (s : State) : (s.setFl i r).tpo j = s.tpo j := rfl
@[simp] theorem State.ptpPort_setFl (i : Nat) (r : FloatSlot) (j : Nat) (s : State) : (s.setFl i r).ptpPort j = s.ptpPort j := rfl
@[simp] theorem State.lane_setFl (i : Nat) (r : FloatSlot) (j : Nat) (s : State) : (s.setFl i r).lane j = s.lane j := rfl
@[simp] theorem State.fwSlot_setFl (i : Nat) (r : FloatSlot) (j : Nat) (s : State) : (s.setFl i r).fwSlot j = s.fwSlot j := rfl
@[simp] theorem State.stage_setFl (i : Nat) (r : FloatSlot) (j : Nat) (s : State) : (s.setFl i r).stage j = s.stage j := rfl
@[simp] theorem State.check_setFl (i : Nat) (r : FloatSlot) (j : Nat) (s : State) : (s.setFl i r).check j = s.check j := rfl
@[simp] theorem State.circ_setFl (i : Nat) (r : FloatSlot) (j : Nat) (s : State) : (s.setFl i r).circ j = s.circ j := rfl
@[simp] theorem State.link_setFl (i : Nat) (r : FloatSlot) (j : Nat) (s : State) : (s.setFl i r).link j = s.link j := rfl
@[simp] theorem State.node_setFl (i : Nat) (r : FloatSlot) (j : Nat) (s : State) : (s.setFl i r).node j = s.node j := rfl
@[simp] theorem State.pub_setFl (i : Nat) (r : FloatSlot) (j : Nat) (s : State) : (s.setFl i r).pub j = s.pub j := rfl
@[simp] theorem State.blob_setFl (i : Nat) (r : FloatSlot) (j : Nat) (s : State) : (s.setFl i r).blob j = s.blob j := rfl
@[simp] theorem State.batch_setFl (i : Nat) (r : FloatSlot) (j : Nat) (s : State) : (s.setFl i r).batch j = s.batch j := rfl
@[simp] theorem State.fx_setFl (i : Nat) (r : FloatSlot) (j : Nat) (s : State) : (s.setFl i r).fx j = s.fx j := rfl
@[simp] theorem State.fl_setFl_same (i : Nat) (r : FloatSlot) (s : State) : (s.setFl i r).fl i = r := Tbl.get_set_same _ _ _ _
theorem State.fl_setFl_other (i : Nat) (r : FloatSlot) (s : State) {j : Nat} (h : j ≠ i) : (s.setFl i r).fl j = s.fl j := Tbl.get_set_other _ _ _ h
@[simp] theorem State.gen_setFl (i : Nat) (r : FloatSlot) (j : Nat) (s : State) : (s.setFl i r).gen j = s.gen j := rfl
@[simp] theorem State.queue_setFl (i : Nat) (r : FloatSlot) (j : Nat) (s : State) : (s.setFl i r).queue j = s.queue j := rfl
@[simp] theorem State.codeRec_setFl (i : Nat) (r : FloatSlot) (j : Nat) (s : State) : (s.setFl i r).codeRec j = s.codeRec j := rfl
@[simp] theorem State.acqBuf_setFl (i : Nat) (r : FloatSlot) (j : Nat) (s : State) : (s.setFl i r).acqBuf j = s.acqBuf j := rfl
@[simp] theorem State.trig_setFl (i : Nat) (r : FloatSlot) (j : Nat) (s : State) : (s.setFl i r).trig j = s.trig j := rfl
@[simp] theorem State.pair_setFl (i : Nat) (r : FloatSlot) (j : Nat) (s : State) : (s.setFl i r).pair j = s.pair j := rfl
@[simp] theorem State.slice_setFl (i : Nat) (r : FloatSlot) (j : Nat) (s : State) : (s.setFl i r).slice j = s.slice j := rfl
@[simp] theorem State.beat_setFl (i : Nat) (r : FloatSlot) (j : Nat) (s : State) : (s.setFl i r).beat j = s.beat j := rfl
@[simp] theorem State.inputLevel_setFl (i : Nat) (r : FloatSlot) (j : Nat) (s : State) : (s.setFl i r).inputLevel j = s.inputLevel j := rfl
@[simp] theorem State.maskEx_setFl (i : Nat) (r : FloatSlot) (j : Nat) (s : State) : (s.setFl i r).maskEx j = s.maskEx j := rfl

/-! ### State.setGen -/

@[simp] theorem State.setGen_now (i : Nat) (r : GenSlot) (s : State) : (s.setGen i r).now = s.now := rfl
@[simp] theorem State.setGen_fresh (i : Nat) (r : GenSlot) (s : State) : (s.setGen i r).fresh = s.fresh := rfl
@[simp] theorem State.setGen_out (i : Nat) (r : GenSlot) (s : State) : (s.setGen i r).out = s.out := rfl
@[simp] theorem State.setGen_pending (i : Nat) (r : GenSlot) (s : State) : (s.setGen i r).pending = s.pending := rfl
@[simp] theorem State.setGen_od (i : Nat) (r : GenSlot) (s : State) : (s.setGen i r).od = s.od := rfl
@[simp] theorem State.setGen_blobs (i : Nat) (r : GenSlot) (s : State) : (s.setGen i r).blobs = s.blobs := rfl
@[simp] theorem State.setGen_batches (i : Nat) (r : GenSlot) (s : State) : (s.setGen i r).batches = s.batches := rfl
@[simp] theorem State.setGen_fixed (i : Nat) (r : GenSlot) (s : State) : (s.setGen i r).fixed = s.fixed := rfl
@[simp] theorem State.setGen_floats (i : Nat) (r : GenSlot) (s : State) : (s.setGen i r).floats = s.floats := rfl
@[simp] theorem State.setGen_gens (i : Nat) (r : GenSlot) (s : State) : (s.setGen i r).gens = Tbl.set i r s.gens := rfl
@[simp] theorem State.setGen_fabric (i : Nat) (r : GenSlot) (s : State) : (s.setGen i r).fabric = s.fabric := rfl
@[simp] theorem State.setGen_meas (i : Nat) (r : GenSlot) (s : State) : (s.setGen i r).meas = s.meas := rfl
@[simp] theorem State.setGen_pwm (i : Nat) (r : GenSlot) (s : State) : (s.setGen i r).pwm = s.pwm := rfl
@[simp] theorem State.setGen_links (i : Nat) (r : GenSlot) (s : State) : (s.setGen i r).links = s.links := rfl
@[simp] theorem State.setGen_aux (i : Nat) (r : GenSlot) (s : State) : (s.setGen i r).aux = s.aux := rfl
@[simp] theorem State.setGen_island (i : Nat) (r : GenSlot) (s : State) : (s.setGen i r).island = s.island := rfl
@[simp] theorem State.setGen_clock (i : Nat) (r : GenSlot) (s : State) : (s.setGen i r).clock = s.clock := rfl
@[simp] theorem State.setGen_acq (i : Nat) (r : GenSlot) (s : State) : (s.setGen i r).acq = s.acq := rfl
@[simp] theorem State.setGen_log (i : Nat) (r : GenSlot) (s : State) : (s.setGen i r).log = s.log := rfl
@[simp] theorem State.setGen_rack (i : Nat) (r : GenSlot) (s : State) : (s.setGen i r).rack = s.rack := rfl
@[simp] theorem State.setGen_power (i : Nat) (r : GenSlot) (s : State) : (s.setGen i r).power = s.power := rfl
@[simp] theorem State.setGen_srv (i : Nat) (r : GenSlot) (s : State) : (s.setGen i r).srv = s.srv := rfl
@[simp] theorem State.setGen_net (i : Nat) (r : GenSlot) (s : State) : (s.setGen i r).net = s.net := rfl
@[simp] theorem State.session_setGen (i : Nat) (r : GenSlot) (j : Nat) (s : State) : (s.setGen i r).session j = s.session j := rfl
@[simp] theorem State.chan_setGen (i : Nat) (r : GenSlot) (j : Nat) (s : State) : (s.setGen i r).chan j = s.chan j := rfl
@[simp] theorem State.chainRec_setGen (i : Nat) (r : GenSlot) (j : Nat) (s : State) : (s.setGen i r).chainRec j = s.chainRec j := rfl
@[simp] theorem State.sfd_setGen (i : Nat) (r : GenSlot) (j : Nat) (s : State) : (s.setGen i r).sfd j = s.sfd j := rfl
@[simp] theorem State.core_setGen (i : Nat) (r : GenSlot) (j : Nat) (s : State) : (s.setGen i r).core j = s.core j := rfl
@[simp] theorem State.tpo_setGen (i : Nat) (r : GenSlot) (j : Nat) (s : State) : (s.setGen i r).tpo j = s.tpo j := rfl
@[simp] theorem State.ptpPort_setGen (i : Nat) (r : GenSlot) (j : Nat) (s : State) : (s.setGen i r).ptpPort j = s.ptpPort j := rfl
@[simp] theorem State.lane_setGen (i : Nat) (r : GenSlot) (j : Nat) (s : State) : (s.setGen i r).lane j = s.lane j := rfl
@[simp] theorem State.fwSlot_setGen (i : Nat) (r : GenSlot) (j : Nat) (s : State) : (s.setGen i r).fwSlot j = s.fwSlot j := rfl
@[simp] theorem State.stage_setGen (i : Nat) (r : GenSlot) (j : Nat) (s : State) : (s.setGen i r).stage j = s.stage j := rfl
@[simp] theorem State.check_setGen (i : Nat) (r : GenSlot) (j : Nat) (s : State) : (s.setGen i r).check j = s.check j := rfl
@[simp] theorem State.circ_setGen (i : Nat) (r : GenSlot) (j : Nat) (s : State) : (s.setGen i r).circ j = s.circ j := rfl
@[simp] theorem State.link_setGen (i : Nat) (r : GenSlot) (j : Nat) (s : State) : (s.setGen i r).link j = s.link j := rfl
@[simp] theorem State.node_setGen (i : Nat) (r : GenSlot) (j : Nat) (s : State) : (s.setGen i r).node j = s.node j := rfl
@[simp] theorem State.pub_setGen (i : Nat) (r : GenSlot) (j : Nat) (s : State) : (s.setGen i r).pub j = s.pub j := rfl
@[simp] theorem State.blob_setGen (i : Nat) (r : GenSlot) (j : Nat) (s : State) : (s.setGen i r).blob j = s.blob j := rfl
@[simp] theorem State.batch_setGen (i : Nat) (r : GenSlot) (j : Nat) (s : State) : (s.setGen i r).batch j = s.batch j := rfl
@[simp] theorem State.fx_setGen (i : Nat) (r : GenSlot) (j : Nat) (s : State) : (s.setGen i r).fx j = s.fx j := rfl
@[simp] theorem State.fl_setGen (i : Nat) (r : GenSlot) (j : Nat) (s : State) : (s.setGen i r).fl j = s.fl j := rfl
@[simp] theorem State.gen_setGen_same (i : Nat) (r : GenSlot) (s : State) : (s.setGen i r).gen i = r := Tbl.get_set_same _ _ _ _
theorem State.gen_setGen_other (i : Nat) (r : GenSlot) (s : State) {j : Nat} (h : j ≠ i) : (s.setGen i r).gen j = s.gen j := Tbl.get_set_other _ _ _ h
@[simp] theorem State.queue_setGen (i : Nat) (r : GenSlot) (j : Nat) (s : State) : (s.setGen i r).queue j = s.queue j := rfl
@[simp] theorem State.codeRec_setGen (i : Nat) (r : GenSlot) (j : Nat) (s : State) : (s.setGen i r).codeRec j = s.codeRec j := rfl
@[simp] theorem State.acqBuf_setGen (i : Nat) (r : GenSlot) (j : Nat) (s : State) : (s.setGen i r).acqBuf j = s.acqBuf j := rfl
@[simp] theorem State.trig_setGen (i : Nat) (r : GenSlot) (j : Nat) (s : State) : (s.setGen i r).trig j = s.trig j := rfl
@[simp] theorem State.pair_setGen (i : Nat) (r : GenSlot) (j : Nat) (s : State) : (s.setGen i r).pair j = s.pair j := rfl
@[simp] theorem State.slice_setGen (i : Nat) (r : GenSlot) (j : Nat) (s : State) : (s.setGen i r).slice j = s.slice j := rfl
@[simp] theorem State.beat_setGen (i : Nat) (r : GenSlot) (j : Nat) (s : State) : (s.setGen i r).beat j = s.beat j := rfl
@[simp] theorem State.inputLevel_setGen (i : Nat) (r : GenSlot) (j : Nat) (s : State) : (s.setGen i r).inputLevel j = s.inputLevel j := rfl
@[simp] theorem State.maskEx_setGen (i : Nat) (r : GenSlot) (j : Nat) (s : State) : (s.setGen i r).maskEx j = s.maskEx j := rfl

/-! ### State.setCode -/

@[simp] theorem State.setCode_now (c : Nat) (r : CodeRec) (s : State) : (s.setCode c r).now = s.now := rfl
@[simp] theorem State.setCode_fresh (c : Nat) (r : CodeRec) (s : State) : (s.setCode c r).fresh = s.fresh := rfl
@[simp] theorem State.setCode_out (c : Nat) (r : CodeRec) (s : State) : (s.setCode c r).out = s.out := rfl
@[simp] theorem State.setCode_pending (c : Nat) (r : CodeRec) (s : State) : (s.setCode c r).pending = s.pending := rfl
@[simp] theorem State.setCode_od (c : Nat) (r : CodeRec) (s : State) : (s.setCode c r).od = s.od := rfl
@[simp] theorem State.setCode_blobs (c : Nat) (r : CodeRec) (s : State) : (s.setCode c r).blobs = s.blobs := rfl
@[simp] theorem State.setCode_batches (c : Nat) (r : CodeRec) (s : State) : (s.setCode c r).batches = s.batches := rfl
@[simp] theorem State.setCode_fixed (c : Nat) (r : CodeRec) (s : State) : (s.setCode c r).fixed = s.fixed := rfl
@[simp] theorem State.setCode_floats (c : Nat) (r : CodeRec) (s : State) : (s.setCode c r).floats = s.floats := rfl
@[simp] theorem State.setCode_gens (c : Nat) (r : CodeRec) (s : State) : (s.setCode c r).gens = s.gens := rfl
@[simp] theorem State.setCode_fabric (c : Nat) (r : CodeRec) (s : State) : (s.setCode c r).fabric = s.fabric := rfl
@[simp] theorem State.setCode_meas (c : Nat) (r : CodeRec) (s : State) : (s.setCode c r).meas = s.meas := rfl
@[simp] theorem State.setCode_pwm (c : Nat) (r : CodeRec) (s : State) : (s.setCode c r).pwm = s.pwm := rfl
@[simp] theorem State.setCode_links (c : Nat) (r : CodeRec) (s : State) : (s.setCode c r).links = s.links := rfl
@[simp] theorem State.setCode_aux (c : Nat) (r : CodeRec) (s : State) : (s.setCode c r).aux = s.aux := rfl
@[simp] theorem State.setCode_island (c : Nat) (r : CodeRec) (s : State) : (s.setCode c r).island = s.island := rfl
@[simp] theorem State.setCode_clock (c : Nat) (r : CodeRec) (s : State) : (s.setCode c r).clock = s.clock := rfl
@[simp] theorem State.setCode_acq (c : Nat) (r : CodeRec) (s : State) : (s.setCode c r).acq = s.acq := rfl
@[simp] theorem State.setCode_log (c : Nat) (r : CodeRec) (s : State) : (s.setCode c r).log = { s.log with codes := Tbl.set c r s.log.codes } := rfl
@[simp] theorem State.setCode_rack (c : Nat) (r : CodeRec) (s : State) : (s.setCode c r).rack = s.rack := rfl
@[simp] theorem State.setCode_power (c : Nat) (r : CodeRec) (s : State) : (s.setCode c r).power = s.power := rfl
@[simp] theorem State.setCode_srv (c : Nat) (r : CodeRec) (s : State) : (s.setCode c r).srv = s.srv := rfl
@[simp] theorem State.setCode_net (c : Nat) (r : CodeRec) (s : State) : (s.setCode c r).net = s.net := rfl
@[simp] theorem State.session_setCode (c : Nat) (r : CodeRec) (j : Nat) (s : State) : (s.setCode c r).session j = s.session j := rfl
@[simp] theorem State.chan_setCode (c : Nat) (r : CodeRec) (j : Nat) (s : State) : (s.setCode c r).chan j = s.chan j := rfl
@[simp] theorem State.chainRec_setCode (c : Nat) (r : CodeRec) (j : Nat) (s : State) : (s.setCode c r).chainRec j = s.chainRec j := rfl
@[simp] theorem State.sfd_setCode (c : Nat) (r : CodeRec) (j : Nat) (s : State) : (s.setCode c r).sfd j = s.sfd j := rfl
@[simp] theorem State.core_setCode (c : Nat) (r : CodeRec) (j : Nat) (s : State) : (s.setCode c r).core j = s.core j := rfl
@[simp] theorem State.tpo_setCode (c : Nat) (r : CodeRec) (j : Nat) (s : State) : (s.setCode c r).tpo j = s.tpo j := rfl
@[simp] theorem State.ptpPort_setCode (c : Nat) (r : CodeRec) (j : Nat) (s : State) : (s.setCode c r).ptpPort j = s.ptpPort j := rfl
@[simp] theorem State.lane_setCode (c : Nat) (r : CodeRec) (j : Nat) (s : State) : (s.setCode c r).lane j = s.lane j := rfl
@[simp] theorem State.fwSlot_setCode (c : Nat) (r : CodeRec) (j : Nat) (s : State) : (s.setCode c r).fwSlot j = s.fwSlot j := rfl
@[simp] theorem State.stage_setCode (c : Nat) (r : CodeRec) (j : Nat) (s : State) : (s.setCode c r).stage j = s.stage j := rfl
@[simp] theorem State.check_setCode (c : Nat) (r : CodeRec) (j : Nat) (s : State) : (s.setCode c r).check j = s.check j := rfl
@[simp] theorem State.circ_setCode (c : Nat) (r : CodeRec) (j : Nat) (s : State) : (s.setCode c r).circ j = s.circ j := rfl
@[simp] theorem State.link_setCode (c : Nat) (r : CodeRec) (j : Nat) (s : State) : (s.setCode c r).link j = s.link j := rfl
@[simp] theorem State.node_setCode (c : Nat) (r : CodeRec) (j : Nat) (s : State) : (s.setCode c r).node j = s.node j := rfl
@[simp] theorem State.pub_setCode (c : Nat) (r : CodeRec) (j : Nat) (s : State) : (s.setCode c r).pub j = s.pub j := rfl
@[simp] theorem State.blob_setCode (c : Nat) (r : CodeRec) (j : Nat) (s : State) : (s.setCode c r).blob j = s.blob j := rfl
@[simp] theorem State.batch_setCode (c : Nat) (r : CodeRec) (j : Nat) (s : State) : (s.setCode c r).batch j = s.batch j := rfl
@[simp] theorem State.fx_setCode (c : Nat) (r : CodeRec) (j : Nat) (s : State) : (s.setCode c r).fx j = s.fx j := rfl
@[simp] theorem State.fl_setCode (c : Nat) (r : CodeRec) (j : Nat) (s : State) : (s.setCode c r).fl j = s.fl j := rfl
@[simp] theorem State.gen_setCode (c : Nat) (r : CodeRec) (j : Nat) (s : State) : (s.setCode c r).gen j = s.gen j := rfl
@[simp] theorem State.queue_setCode (c : Nat) (r : CodeRec) (j : Nat) (s : State) : (s.setCode c r).queue j = s.queue j := rfl
@[simp] theorem State.codeRec_setCode_same (c : Nat) (r : CodeRec) (s : State) : (s.setCode c r).codeRec c = r := Tbl.get_set_same _ _ _ _
theorem State.codeRec_setCode_other (c : Nat) (r : CodeRec) (s : State) {j : Nat} (h : j ≠ c) : (s.setCode c r).codeRec j = s.codeRec j := Tbl.get_set_other _ _ _ h
@[simp] theorem State.acqBuf_setCode (c : Nat) (r : CodeRec) (j : Nat) (s : State) : (s.setCode c r).acqBuf j = s.acqBuf j := rfl
@[simp] theorem State.trig_setCode (c : Nat) (r : CodeRec) (j : Nat) (s : State) : (s.setCode c r).trig j = s.trig j := rfl
@[simp] theorem State.pair_setCode (c : Nat) (r : CodeRec) (j : Nat) (s : State) : (s.setCode c r).pair j = s.pair j := rfl
@[simp] theorem State.slice_setCode (c : Nat) (r : CodeRec) (j : Nat) (s : State) : (s.setCode c r).slice j = s.slice j := rfl
@[simp] theorem State.beat_setCode (c : Nat) (r : CodeRec) (j : Nat) (s : State) : (s.setCode c r).beat j = s.beat j := rfl
@[simp] theorem State.inputLevel_setCode (c : Nat) (r : CodeRec) (j : Nat) (s : State) : (s.setCode c r).inputLevel j = s.inputLevel j := rfl
@[simp] theorem State.maskEx_setCode (c : Nat) (r : CodeRec) (j : Nat) (s : State) : (s.setCode c r).maskEx j = s.maskEx j := rfl

/-! ### State.modRack -/

@[simp] theorem State.modRack_now (f : Rack → Rack) (s : State) : (s.modRack f).now = s.now := rfl
@[simp] theorem State.modRack_fresh (f : Rack → Rack) (s : State) : (s.modRack f).fresh = s.fresh := rfl
@[simp] theorem State.modRack_out (f : Rack → Rack) (s : State) : (s.modRack f).out = s.out := rfl
@[simp] theorem State.modRack_pending (f : Rack → Rack) (s : State) : (s.modRack f).pending = s.pending := rfl
@[simp] theorem State.modRack_od (f : Rack → Rack) (s : State) : (s.modRack f).od = s.od := rfl
@[simp] theorem State.modRack_blobs (f : Rack → Rack) (s : State) : (s.modRack f).blobs = s.blobs := rfl
@[simp] theorem State.modRack_batches (f : Rack → Rack) (s : State) : (s.modRack f).batches = s.batches := rfl
@[simp] theorem State.modRack_fixed (f : Rack → Rack) (s : State) : (s.modRack f).fixed = s.fixed := rfl
@[simp] theorem State.modRack_floats (f : Rack → Rack) (s : State) : (s.modRack f).floats = s.floats := rfl
@[simp] theorem State.modRack_gens (f : Rack → Rack) (s : State) : (s.modRack f).gens = s.gens := rfl
@[simp] theorem State.modRack_fabric (f : Rack → Rack) (s : State) : (s.modRack f).fabric = s.fabric := rfl
@[simp] theorem State.modRack_meas (f : Rack → Rack) (s : State) : (s.modRack f).meas = s.meas := rfl
@[simp] theorem State.modRack_pwm (f : Rack → Rack) (s : State) : (s.modRack f).pwm = s.pwm := rfl
@[simp] theorem State.modRack_links (f : Rack → Rack) (s : State) : (s.modRack f).links = s.links := rfl
@[simp] theorem State.modRack_aux (f : Rack → Rack) (s : State) : (s.modRack f).aux = s.aux := rfl
@[simp] theorem State.modRack_island (f : Rack → Rack) (s : State) : (s.modRack f).island = s.island := rfl
@[simp] theorem State.modRack_clock (f : Rack → Rack) (s : State) : (s.modRack f).clock = s.clock := rfl
@[simp] theorem State.modRack_acq (f : Rack → Rack) (s : State) : (s.modRack f).acq = s.acq := rfl
@[simp] theorem State.modRack_log (f : Rack → Rack) (s : State) : (s.modRack f).log = s.log := rfl
@[simp] theorem State.modRack_rack (f : Rack → Rack) (s : State) : (s.modRack f).rack = f s.rack := rfl
@[simp] theorem State.modRack_power (f : Rack → Rack) (s : State) : (s.modRack f).power = s.power := rfl
@[simp] theorem State.modRack_srv (f : Rack → Rack) (s : State) : (s.modRack f).srv = s.srv := rfl
@[simp] theorem State.modRack_net (f : Rack → Rack) (s : State) : (s.modRack f).net = s.net := rfl
@[simp] theorem State.session_modRack (f : Rack → Rack) (j : Nat) (s : State) : (s.modRack f).session j = s.session j := rfl
@[simp] theorem State.chan_modRack (f : Rack → Rack) (j : Nat) (s : State) : (s.modRack f).chan j = s.chan j := rfl
@[simp] theorem State.chainRec_modRack (f : Rack → Rack) (j : Nat) (s : State) : (s.modRack f).chainRec j = s.chainRec j := rfl
@[simp] theorem State.sfd_modRack (f : Rack → Rack) (j : Nat) (s : State) : (s.modRack f).sfd j = s.sfd j := rfl
@[simp] theorem State.core_modRack (f : Rack → Rack) (j : Nat) (s : State) : (s.modRack f).core j = s.core j := rfl
@[simp] theorem State.tpo_modRack (f : Rack → Rack) (j : Nat) (s : State) : (s.modRack f).tpo j = s.tpo j := rfl
@[simp] theorem State.ptpPort_modRack (f : Rack → Rack) (j : Nat) (s : State) : (s.modRack f).ptpPort j = s.ptpPort j := rfl
@[simp] theorem State.lane_modRack (f : Rack → Rack) (j : Nat) (s : State) : (s.modRack f).lane j = s.lane j := rfl
@[simp] theorem State.fwSlot_modRack (f : Rack → Rack) (j : Nat) (s : State) : (s.modRack f).fwSlot j = s.fwSlot j := rfl
@[simp] theorem State.stage_modRack (f : Rack → Rack) (j : Nat) (s : State) : (s.modRack f).stage j = s.stage j := rfl
@[simp] theorem State.check_modRack (f : Rack → Rack) (j : Nat) (s : State) : (s.modRack f).check j = s.check j := rfl
@[simp] theorem State.circ_modRack (f : Rack → Rack) (j : Nat) (s : State) : (s.modRack f).circ j = s.circ j := rfl
@[simp] theorem State.link_modRack (f : Rack → Rack) (j : Nat) (s : State) : (s.modRack f).link j = s.link j := rfl
@[simp] theorem State.node_modRack (f : Rack → Rack) (j : Nat) (s : State) : (s.modRack f).node j = s.node j := rfl
@[simp] theorem State.pub_modRack (f : Rack → Rack) (j : Nat) (s : State) : (s.modRack f).pub j = s.pub j := rfl
@[simp] theorem State.blob_modRack (f : Rack → Rack) (j : Nat) (s : State) : (s.modRack f).blob j = s.blob j := rfl
@[simp] theorem State.batch_modRack (f : Rack → Rack) (j : Nat) (s : State) : (s.modRack f).batch j = s.batch j := rfl
@[simp] theorem State.fx_modRack (f : Rack → Rack) (j : Nat) (s : State) : (s.modRack f).fx j = s.fx j := rfl
@[simp] theorem State.fl_modRack (f : Rack → Rack) (j : Nat) (s : State) : (s.modRack f).fl j = s.fl j := rfl
@[simp] theorem State.gen_modRack (f : Rack → Rack) (j : Nat) (s : State) : (s.modRack f).gen j = s.gen j := rfl
@[simp] theorem State.queue_modRack (f : Rack → Rack) (j : Nat) (s : State) : (s.modRack f).queue j = s.queue j := rfl
@[simp] theorem State.codeRec_modRack (f : Rack → Rack) (j : Nat) (s : State) : (s.modRack f).codeRec j = s.codeRec j := rfl
@[simp] theorem State.acqBuf_modRack (f : Rack → Rack) (j : Nat) (s : State) : (s.modRack f).acqBuf j = s.acqBuf j := rfl
@[simp] theorem State.trig_modRack (f : Rack → Rack) (j : Nat) (s : State) : (s.modRack f).trig j = s.trig j := rfl
@[simp] theorem State.pair_modRack (f : Rack → Rack) (j : Nat) (s : State) : (s.modRack f).pair j = s.pair j := rfl
@[simp] theorem State.slice_modRack (f : Rack → Rack) (j : Nat) (s : State) : (s.modRack f).slice j = s.slice j := rfl
@[simp] theorem State.inputLevel_modRack (f : Rack → Rack) (j : Nat) (s : State) : (s.modRack f).inputLevel j = s.inputLevel j := rfl
@[simp] theorem State.maskEx_modRack (f : Rack → Rack) (j : Nat) (s : State) : (s.modRack f).maskEx j = s.maskEx j := rfl

/-! ### State.modSrv -/

@[simp] theorem State.modSrv_now (f : Server → Server) (s : State) : (s.modSrv f).now = s.now := rfl
@[simp] theorem State.modSrv_fresh (f : Server → Server) (s : State) : (s.modSrv f).fresh = s.fresh := rfl
@[simp] theorem State.modSrv_out (f : Server → Server) (s : State) : (s.modSrv f).out = s.out := rfl
@[simp] theorem State.modSrv_pending (f : Server → Server) (s : State) : (s.modSrv f).pending = s.pending := rfl
@[simp] theorem State.modSrv_od (f : Server → Server) (s : State) : (s.modSrv f).od = s.od := rfl
@[simp] theorem State.modSrv_blobs (f : Server → Server) (s : State) : (s.modSrv f).blobs = s.blobs := rfl
@[simp] theorem State.modSrv_batches (f : Server → Server) (s : State) : (s.modSrv f).batches = s.batches := rfl
@[simp] theorem State.modSrv_fixed (f : Server → Server) (s : State) : (s.modSrv f).fixed = s.fixed := rfl
@[simp] theorem State.modSrv_floats (f : Server → Server) (s : State) : (s.modSrv f).floats = s.floats := rfl
@[simp] theorem State.modSrv_gens (f : Server → Server) (s : State) : (s.modSrv f).gens = s.gens := rfl
@[simp] theorem State.modSrv_fabric (f : Server → Server) (s : State) : (s.modSrv f).fabric = s.fabric := rfl
@[simp] theorem State.modSrv_meas (f : Server → Server) (s : State) : (s.modSrv f).meas = s.meas := rfl
@[simp] theorem State.modSrv_pwm (f : Server → Server) (s : State) : (s.modSrv f).pwm = s.pwm := rfl
@[simp] theorem State.modSrv_links (f : Server → Server) (s : State) : (s.modSrv f).links = s.links := rfl
@[simp] theorem State.modSrv_aux (f : Server → Server) (s : State) : (s.modSrv f).aux = s.aux := rfl
@[simp] theorem State.modSrv_island (f : Server → Server) (s : State) : (s.modSrv f).island = s.island := rfl
@[simp] theorem State.modSrv_clock (f : Server → Server) (s : State) : (s.modSrv f).clock = s.clock := rfl
@[simp] theorem State.modSrv_acq (f : Server → Server) (s : State) : (s.modSrv f).acq = s.acq := rfl
@[simp] theorem State.modSrv_log (f : Server → Server) (s : State) : (s.modSrv f).log = s.log := rfl
@[simp] theorem State.modSrv_rack (f : Server → Server) (s : State) : (s.modSrv f).rack = s.rack := rfl
@[simp] theorem State.modSrv_power (f : Server → Server) (s : State) : (s.modSrv f).power = s.power := rfl
@[simp] theorem State.modSrv_srv (f : Server → Server) (s : State) : (s.modSrv f).srv = f s.srv := rfl
@[simp] theorem State.modSrv_net (f : Server → Server) (s : State) : (s.modSrv f).net = s.net := rfl
@[simp] theorem State.chan_modSrv (f : Server → Server) (j : Nat) (s : State) : (s.modSrv f).chan j = s.chan j := rfl
@[simp] theorem State.chainRec_modSrv (f : Server → Server) (j : Nat) (s : State) : (s.modSrv f).chainRec j = s.chainRec j := rfl
@[simp] theorem State.sfd_modSrv (f : Server → Server) (j : Nat) (s : State) : (s.modSrv f).sfd j = s.sfd j := rfl
@[simp] theorem State.core_modSrv (f : Server → Server) (j : Nat) (s : State) : (s.modSrv f).core j = s.core j := rfl
@[simp] theorem State.tpo_modSrv (f : Server → Server) (j : Nat) (s : State) : (s.modSrv f).tpo j = s.tpo j := rfl
@[simp] theorem State.ptpPort_modSrv (f : Server → Server) (j : Nat) (s : State) : (s.modSrv f).ptpPort j = s.ptpPort j := rfl
@[simp] theorem State.lane_modSrv (f : Server → Server) (j : Nat) (s : State) : (s.modSrv f).lane j = s.lane j := rfl
@[simp] theorem State.stage_modSrv (f : Server → Server) (j : Nat) (s : State) : (s.modSrv f).stage j = s.stage j := rfl
@[simp] theorem State.check_modSrv (f : Server → Server) (j : Nat) (s : State) : (s.modSrv f).check j = s.check j := rfl
@[simp] theorem State.circ_modSrv (f : Server → Server) (j : Nat) (s : State) : (s.modSrv f).circ j = s.circ j := rfl
@[simp] theorem State.link_modSrv (f : Server → Server) (j : Nat) (s : State) : (s.modSrv f).link j = s.link j := rfl
@[simp] theorem State.node_modSrv (f : Server → Server) (j : Nat) (s : State) : (s.modSrv f).node j = s.node j := rfl
@[simp] theorem State.pub_modSrv (f : Server → Server) (j : Nat) (s : State) : (s.modSrv f).pub j = s.pub j := rfl
@[simp] theorem State.blob_modSrv (f : Server → Server) (j : Nat) (s : State) : (s.modSrv f).blob j = s.blob j := rfl
@[simp] theorem State.batch_modSrv (f : Server → Server) (j : Nat) (s : State) : (s.modSrv f).batch j = s.batch j := rfl
@[simp] theorem State.fx_modSrv (f : Server → Server) (j : Nat) (s : State) : (s.modSrv f).fx j = s.fx j := rfl
@[simp] theorem State.fl_modSrv (f : Server → Server) (j : Nat) (s : State) : (s.modSrv f).fl j = s.fl j := rfl
@[simp] theorem State.gen_modSrv (f : Server → Server) (j : Nat) (s : State) : (s.modSrv f).gen j = s.gen j := rfl
@[simp] theorem State.queue_modSrv (f : Server → Server) (j : Nat) (s : State) : (s.modSrv f).queue j = s.queue j := rfl
@[simp] theorem State.codeRec_modSrv (f : Server → Server) (j : Nat) (s : State) : (s.modSrv f).codeRec j = s.codeRec j := rfl
@[simp] theorem State.acqBuf_modSrv (f : Server → Server) (j : Nat) (s : State) : (s.modSrv f).acqBuf j = s.acqBuf j := rfl
@[simp] theorem State.trig_modSrv (f : Server → Server) (j : Nat) (s : State) : (s.modSrv f).trig j = s.trig j := rfl
@[simp] theorem State.pair_modSrv (f : Server → Server) (j : Nat) (s : State) : (s.modSrv f).pair j = s.pair j := rfl
@[simp] theorem State.slice_modSrv (f : Server → Server) (j : Nat) (s : State) : (s.modSrv f).slice j = s.slice j := rfl
@[simp] theorem State.beat_modSrv (f : Server → Server) (j : Nat) (s : State) : (s.modSrv f).beat j = s.beat j := rfl
@[simp] theorem State.inputLevel_modSrv (f : Server → Server) (j : Nat) (s : State) : (s.modSrv f).inputLevel j = s.inputLevel j := rfl
@[simp] theorem State.maskEx_modSrv (f : Server → Server) (j : Nat) (s : State) : (s.modSrv f).maskEx j = s.maskEx j := rfl

/-! ### State.setAcqBuf -/

@[simp] theorem State.setAcqBuf_now (k : Nat) (x : AcqBuf) (s : State) : (s.setAcqBuf k x).now = s.now := rfl
@[simp] theorem State.setAcqBuf_fresh (k : Nat) (x : AcqBuf) (s : State) : (s.setAcqBuf k x).fresh = s.fresh := rfl
@[simp] theorem State.setAcqBuf_out (k : Nat) (x : AcqBuf) (s : State) : (s.setAcqBuf k x).out = s.out := rfl
@[simp] theorem State.setAcqBuf_pending (k : Nat) (x : AcqBuf) (s : State) : (s.setAcqBuf k x).pending = s.pending := rfl
@[simp] theorem State.setAcqBuf_od (k : Nat) (x : AcqBuf) (s : State) : (s.setAcqBuf k x).od = s.od := rfl
@[simp] theorem State.setAcqBuf_blobs (k : Nat) (x : AcqBuf) (s : State) : (s.setAcqBuf k x).blobs = s.blobs := rfl
@[simp] theorem State.setAcqBuf_batches (k : Nat) (x : AcqBuf) (s : State) : (s.setAcqBuf k x).batches = s.batches := rfl
@[simp] theorem State.setAcqBuf_fixed (k : Nat) (x : AcqBuf) (s : State) : (s.setAcqBuf k x).fixed = s.fixed := rfl
@[simp] theorem State.setAcqBuf_floats (k : Nat) (x : AcqBuf) (s : State) : (s.setAcqBuf k x).floats = s.floats := rfl
@[simp] theorem State.setAcqBuf_gens (k : Nat) (x : AcqBuf) (s : State) : (s.setAcqBuf k x).gens = s.gens := rfl
@[simp] theorem State.setAcqBuf_fabric (k : Nat) (x : AcqBuf) (s : State) : (s.setAcqBuf k x).fabric = s.fabric := rfl
@[simp] theorem State.setAcqBuf_meas (k : Nat) (x : AcqBuf) (s : State) : (s.setAcqBuf k x).meas = s.meas := rfl
@[simp] theorem State.setAcqBuf_pwm (k : Nat) (x : AcqBuf) (s : State) : (s.setAcqBuf k x).pwm = s.pwm := rfl
@[simp] theorem State.setAcqBuf_links (k : Nat) (x : AcqBuf) (s : State) : (s.setAcqBuf k x).links = s.links := rfl
@[simp] theorem State.setAcqBuf_aux (k : Nat) (x : AcqBuf) (s : State) : (s.setAcqBuf k x).aux = s.aux := rfl
@[simp] theorem State.setAcqBuf_island (k : Nat) (x : AcqBuf) (s : State) : (s.setAcqBuf k x).island = s.island := rfl
@[simp] theorem State.setAcqBuf_clock (k : Nat) (x : AcqBuf) (s : State) : (s.setAcqBuf k x).clock = s.clock := rfl
@[simp] theorem State.setAcqBuf_acq (k : Nat) (x : AcqBuf) (s : State) : (s.setAcqBuf k x).acq = { s.acq with bufs := Tbl.set k x s.acq.bufs } := rfl
@[simp] theorem State.setAcqBuf_log (k : Nat) (x : AcqBuf) (s : State) : (s.setAcqBuf k x).log = s.log := rfl
@[simp] theorem State.setAcqBuf_rack (k : Nat) (x : AcqBuf) (s : State) : (s.setAcqBuf k x).rack = s.rack := rfl
@[simp] theorem State.setAcqBuf_power (k : Nat) (x : AcqBuf) (s : State) : (s.setAcqBuf k x).power = s.power := rfl
@[simp] theorem State.setAcqBuf_srv (k : Nat) (x : AcqBuf) (s : State) : (s.setAcqBuf k x).srv = s.srv := rfl
@[simp] theorem State.setAcqBuf_net (k : Nat) (x : AcqBuf) (s : State) : (s.setAcqBuf k x).net = s.net := rfl
@[simp] theorem State.session_setAcqBuf (k : Nat) (x : AcqBuf) (j : Nat) (s : State) : (s.setAcqBuf k x).session j = s.session j := rfl
@[simp] theorem State.chan_setAcqBuf (k : Nat) (x : AcqBuf) (j : Nat) (s : State) : (s.setAcqBuf k x).chan j = s.chan j := rfl
@[simp] theorem State.chainRec_setAcqBuf (k : Nat) (x : AcqBuf) (j : Nat) (s : State) : (s.setAcqBuf k x).chainRec j = s.chainRec j := rfl
@[simp] theorem State.sfd_setAcqBuf (k : Nat) (x : AcqBuf) (j : Nat) (s : State) : (s.setAcqBuf k x).sfd j = s.sfd j := rfl
@[simp] theorem State.core_setAcqBuf (k : Nat) (x : AcqBuf) (j : Nat) (s : State) : (s.setAcqBuf k x).core j = s.core j := rfl
@[simp] theorem State.tpo_setAcqBuf (k : Nat) (x : AcqBuf) (j : Nat) (s : State) : (s.setAcqBuf k x).tpo j = s.tpo j := rfl
@[simp] theorem State.ptpPort_setAcqBuf (k : Nat) (x : AcqBuf) (j : Nat) (s : State) : (s.setAcqBuf k x).ptpPort j = s.ptpPort j := rfl
@[simp] theorem State.lane_setAcqBuf (k : Nat) (x : AcqBuf) (j : Nat) (s : State) : (s.setAcqBuf k x).lane j = s.lane j := rfl
@[simp] theorem State.fwSlot_setAcqBuf (k : Nat) (x : AcqBuf) (j : Nat) (s : State) : (s.setAcqBuf k x).fwSlot j = s.fwSlot j := rfl
@[simp] theorem State.stage_setAcqBuf (k : Nat) (x : AcqBuf) (j : Nat) (s : State) : (s.setAcqBuf k x).stage j = s.stage j := rfl
@[simp] theorem State.check_setAcqBuf (k : Nat) (x : AcqBuf) (j : Nat) (s : State) : (s.setAcqBuf k x).check j = s.check j := rfl
@[simp] theorem State.circ_setAcqBuf (k : Nat) (x : AcqBuf) (j : Nat) (s : State) : (s.setAcqBuf k x).circ j = s.circ j := rfl
@[simp] theorem State.link_setAcqBuf (k : Nat) (x : AcqBuf) (j : Nat) (s : State) : (s.setAcqBuf k x).link j = s.link j := rfl
@[simp] theorem State.node_setAcqBuf (k : Nat) (x : AcqBuf) (j : Nat) (s : State) : (s.setAcqBuf k x).node j = s.node j := rfl
@[simp] theorem State.pub_setAcqBuf (k : Nat) (x : AcqBuf) (j : Nat) (s : State) : (s.setAcqBuf k x).pub j = s.pub j := rfl
@[simp] theorem State.blob_setAcqBuf (k : Nat) (x : AcqBuf) (j : Nat) (s : State) : (s.setAcqBuf k x).blob j = s.blob j := rfl
@[simp] theorem State.batch_setAcqBuf (k : Nat) (x : AcqBuf) (j : Nat) (s : State) : (s.setAcqBuf k x).batch j = s.batch j := rfl
@[simp] theorem State.fx_setAcqBuf (k : Nat) (x : AcqBuf) (j : Nat) (s : State) : (s.setAcqBuf k x).fx j = s.fx j := rfl
@[simp] theorem State.fl_setAcqBuf (k : Nat) (x : AcqBuf) (j : Nat) (s : State) : (s.setAcqBuf k x).fl j = s.fl j := rfl
@[simp] theorem State.gen_setAcqBuf (k : Nat) (x : AcqBuf) (j : Nat) (s : State) : (s.setAcqBuf k x).gen j = s.gen j := rfl
@[simp] theorem State.queue_setAcqBuf (k : Nat) (x : AcqBuf) (j : Nat) (s : State) : (s.setAcqBuf k x).queue j = s.queue j := rfl
@[simp] theorem State.codeRec_setAcqBuf (k : Nat) (x : AcqBuf) (j : Nat) (s : State) : (s.setAcqBuf k x).codeRec j = s.codeRec j := rfl
@[simp] theorem State.acqBuf_setAcqBuf_same (k : Nat) (x : AcqBuf) (s : State) : (s.setAcqBuf k x).acqBuf k = x := Tbl.get_set_same _ _ _ _
theorem State.acqBuf_setAcqBuf_other (k : Nat) (x : AcqBuf) (s : State) {j : Nat} (h : j ≠ k) : (s.setAcqBuf k x).acqBuf j = s.acqBuf j := Tbl.get_set_other _ _ _ h
@[simp] theorem State.trig_setAcqBuf (k : Nat) (x : AcqBuf) (j : Nat) (s : State) : (s.setAcqBuf k x).trig j = s.trig j := rfl
@[simp] theorem State.pair_setAcqBuf (k : Nat) (x : AcqBuf) (j : Nat) (s : State) : (s.setAcqBuf k x).pair j = s.pair j := rfl
@[simp] theorem State.slice_setAcqBuf (k : Nat) (x : AcqBuf) (j : Nat) (s : State) : (s.setAcqBuf k x).slice j = s.slice j := rfl
@[simp] theorem State.beat_setAcqBuf (k : Nat) (x : AcqBuf) (j : Nat) (s : State) : (s.setAcqBuf k x).beat j = s.beat j := rfl
@[simp] theorem State.inputLevel_setAcqBuf (k : Nat) (x : AcqBuf) (j : Nat) (s : State) : (s.setAcqBuf k x).inputLevel j = s.inputLevel j := rfl
@[simp] theorem State.maskEx_setAcqBuf (k : Nat) (x : AcqBuf) (j : Nat) (s : State) : (s.setAcqBuf k x).maskEx j = s.maskEx j := rfl

/-! ### State.setTrig -/

@[simp] theorem State.setTrig_now (u : Nat) (x : TrigRec) (s : State) : (s.setTrig u x).now = s.now := rfl
@[simp] theorem State.setTrig_fresh (u : Nat) (x : TrigRec) (s : State) : (s.setTrig u x).fresh = s.fresh := rfl
@[simp] theorem State.setTrig_out (u : Nat) (x : TrigRec) (s : State) : (s.setTrig u x).out = s.out := rfl
@[simp] theorem State.setTrig_pending (u : Nat) (x : TrigRec) (s : State) : (s.setTrig u x).pending = s.pending := rfl
@[simp] theorem State.setTrig_od (u : Nat) (x : TrigRec) (s : State) : (s.setTrig u x).od = s.od := rfl
@[simp] theorem State.setTrig_blobs (u : Nat) (x : TrigRec) (s : State) : (s.setTrig u x).blobs = s.blobs := rfl
@[simp] theorem State.setTrig_batches (u : Nat) (x : TrigRec) (s : State) : (s.setTrig u x).batches = s.batches := rfl
@[simp] theorem State.setTrig_fixed (u : Nat) (x : TrigRec) (s : State) : (s.setTrig u x).fixed = s.fixed := rfl
@[simp] theorem State.setTrig_floats (u : Nat) (x : TrigRec) (s : State) : (s.setTrig u x).floats = s.floats := rfl
@[simp] theorem State.setTrig_gens (u : Nat) (x : TrigRec) (s : State) : (s.setTrig u x).gens = s.gens := rfl
@[simp] theorem State.setTrig_fabric (u : Nat) (x : TrigRec) (s : State) : (s.setTrig u x).fabric = s.fabric := rfl
@[simp] theorem State.setTrig_meas (u : Nat) (x : TrigRec) (s : State) : (s.setTrig u x).meas = s.meas := rfl
@[simp] theorem State.setTrig_pwm (u : Nat) (x : TrigRec) (s : State) : (s.setTrig u x).pwm = s.pwm := rfl
@[simp] theorem State.setTrig_links (u : Nat) (x : TrigRec) (s : State) : (s.setTrig u x).links = s.links := rfl
@[simp] theorem State.setTrig_aux (u : Nat) (x : TrigRec) (s : State) : (s.setTrig u x).aux = s.aux := rfl
@[simp] theorem State.setTrig_island (u : Nat) (x : TrigRec) (s : State) : (s.setTrig u x).island = s.island := rfl
@[simp] theorem State.setTrig_clock (u : Nat) (x : TrigRec) (s : State) : (s.setTrig u x).clock = s.clock := rfl
@[simp] theorem State.setTrig_acq (u : Nat) (x : TrigRec) (s : State) : (s.setTrig u x).acq = { s.acq with units := Tbl.set u x s.acq.units } := rfl
@[simp] theorem State.setTrig_log (u : Nat) (x : TrigRec) (s : State) : (s.setTrig u x).log = s.log := rfl
@[simp] theorem State.setTrig_rack (u : Nat) (x : TrigRec) (s : State) : (s.setTrig u x).rack = s.rack := rfl
@[simp] theorem State.setTrig_power (u : Nat) (x : TrigRec) (s : State) : (s.setTrig u x).power = s.power := rfl
@[simp] theorem State.setTrig_srv (u : Nat) (x : TrigRec) (s : State) : (s.setTrig u x).srv = s.srv := rfl
@[simp] theorem State.setTrig_net (u : Nat) (x : TrigRec) (s : State) : (s.setTrig u x).net = s.net := rfl
@[simp] theorem State.session_setTrig (u : Nat) (x : TrigRec) (j : Nat) (s : State) : (s.setTrig u x).session j = s.session j := rfl
@[simp] theorem State.chan_setTrig (u : Nat) (x : TrigRec) (j : Nat) (s : State) : (s.setTrig u x).chan j = s.chan j := rfl
@[simp] theorem State.chainRec_setTrig (u : Nat) (x : TrigRec) (j : Nat) (s : State) : (s.setTrig u x).chainRec j = s.chainRec j := rfl
@[simp] theorem State.sfd_setTrig (u : Nat) (x : TrigRec) (j : Nat) (s : State) : (s.setTrig u x).sfd j = s.sfd j := rfl
@[simp] theorem State.core_setTrig (u : Nat) (x : TrigRec) (j : Nat) (s : State) : (s.setTrig u x).core j = s.core j := rfl
@[simp] theorem State.tpo_setTrig (u : Nat) (x : TrigRec) (j : Nat) (s : State) : (s.setTrig u x).tpo j = s.tpo j := rfl
@[simp] theorem State.ptpPort_setTrig (u : Nat) (x : TrigRec) (j : Nat) (s : State) : (s.setTrig u x).ptpPort j = s.ptpPort j := rfl
@[simp] theorem State.lane_setTrig (u : Nat) (x : TrigRec) (j : Nat) (s : State) : (s.setTrig u x).lane j = s.lane j := rfl
@[simp] theorem State.fwSlot_setTrig (u : Nat) (x : TrigRec) (j : Nat) (s : State) : (s.setTrig u x).fwSlot j = s.fwSlot j := rfl
@[simp] theorem State.stage_setTrig (u : Nat) (x : TrigRec) (j : Nat) (s : State) : (s.setTrig u x).stage j = s.stage j := rfl
@[simp] theorem State.check_setTrig (u : Nat) (x : TrigRec) (j : Nat) (s : State) : (s.setTrig u x).check j = s.check j := rfl
@[simp] theorem State.circ_setTrig (u : Nat) (x : TrigRec) (j : Nat) (s : State) : (s.setTrig u x).circ j = s.circ j := rfl
@[simp] theorem State.link_setTrig (u : Nat) (x : TrigRec) (j : Nat) (s : State) : (s.setTrig u x).link j = s.link j := rfl
@[simp] theorem State.node_setTrig (u : Nat) (x : TrigRec) (j : Nat) (s : State) : (s.setTrig u x).node j = s.node j := rfl
@[simp] theorem State.pub_setTrig (u : Nat) (x : TrigRec) (j : Nat) (s : State) : (s.setTrig u x).pub j = s.pub j := rfl
@[simp] theorem State.blob_setTrig (u : Nat) (x : TrigRec) (j : Nat) (s : State) : (s.setTrig u x).blob j = s.blob j := rfl
@[simp] theorem State.batch_setTrig (u : Nat) (x : TrigRec) (j : Nat) (s : State) : (s.setTrig u x).batch j = s.batch j := rfl
@[simp] theorem State.fx_setTrig (u : Nat) (x : TrigRec) (j : Nat) (s : State) : (s.setTrig u x).fx j = s.fx j := rfl
@[simp] theorem State.fl_setTrig (u : Nat) (x : TrigRec) (j : Nat) (s : State) : (s.setTrig u x).fl j = s.fl j := rfl
@[simp] theorem State.gen_setTrig (u : Nat) (x : TrigRec) (j : Nat) (s : State) : (s.setTrig u x).gen j = s.gen j := rfl
@[simp] theorem State.queue_setTrig (u : Nat) (x : TrigRec) (j : Nat) (s : State) : (s.setTrig u x).queue j = s.queue j := rfl
@[simp] theorem State.codeRec_setTrig (u : Nat) (x : TrigRec) (j : Nat) (s : State) : (s.setTrig u x).codeRec j = s.codeRec j := rfl
@[simp] theorem State.acqBuf_setTrig (u : Nat) (x : TrigRec) (j : Nat) (s : State) : (s.setTrig u x).acqBuf j = s.acqBuf j := rfl
@[simp] theorem State.trig_setTrig_same (u : Nat) (x : TrigRec) (s : State) : (s.setTrig u x).trig u = x := Tbl.get_set_same _ _ _ _
theorem State.trig_setTrig_other (u : Nat) (x : TrigRec) (s : State) {j : Nat} (h : j ≠ u) : (s.setTrig u x).trig j = s.trig j := Tbl.get_set_other _ _ _ h
@[simp] theorem State.pair_setTrig (u : Nat) (x : TrigRec) (j : Nat) (s : State) : (s.setTrig u x).pair j = s.pair j := rfl
@[simp] theorem State.slice_setTrig (u : Nat) (x : TrigRec) (j : Nat) (s : State) : (s.setTrig u x).slice j = s.slice j := rfl
@[simp] theorem State.beat_setTrig (u : Nat) (x : TrigRec) (j : Nat) (s : State) : (s.setTrig u x).beat j = s.beat j := rfl
@[simp] theorem State.inputLevel_setTrig (u : Nat) (x : TrigRec) (j : Nat) (s : State) : (s.setTrig u x).inputLevel j = s.inputLevel j := rfl
@[simp] theorem State.maskEx_setTrig (u : Nat) (x : TrigRec) (j : Nat) (s : State) : (s.setTrig u x).maskEx j = s.maskEx j := rfl

/-! ### State.setPair -/

@[simp] theorem State.setPair_now (p : Nat) (r : PairRec) (s : State) : (s.setPair p r).now = s.now := rfl
@[simp] theorem State.setPair_fresh (p : Nat) (r : PairRec) (s : State) : (s.setPair p r).fresh = s.fresh := rfl
@[simp] theorem State.setPair_out (p : Nat) (r : PairRec) (s : State) : (s.setPair p r).out = s.out := rfl
@[simp] theorem State.setPair_pending (p : Nat) (r : PairRec) (s : State) : (s.setPair p r).pending = s.pending := rfl
@[simp] theorem State.setPair_od (p : Nat) (r : PairRec) (s : State) : (s.setPair p r).od = s.od := rfl
@[simp] theorem State.setPair_blobs (p : Nat) (r : PairRec) (s : State) : (s.setPair p r).blobs = s.blobs := rfl
@[simp] theorem State.setPair_batches (p : Nat) (r : PairRec) (s : State) : (s.setPair p r).batches = s.batches := rfl
@[simp] theorem State.setPair_fixed (p : Nat) (r : PairRec) (s : State) : (s.setPair p r).fixed = s.fixed := rfl
@[simp] theorem State.setPair_floats (p : Nat) (r : PairRec) (s : State) : (s.setPair p r).floats = s.floats := rfl
@[simp] theorem State.setPair_gens (p : Nat) (r : PairRec) (s : State) : (s.setPair p r).gens = s.gens := rfl
@[simp] theorem State.setPair_fabric (p : Nat) (r : PairRec) (s : State) : (s.setPair p r).fabric = s.fabric := rfl
@[simp] theorem State.setPair_meas (p : Nat) (r : PairRec) (s : State) : (s.setPair p r).meas = { s.meas with pairs := Tbl.set p r s.meas.pairs } := rfl
@[simp] theorem State.setPair_pwm (p : Nat) (r : PairRec) (s : State) : (s.setPair p r).pwm = s.pwm := rfl
@[simp] theorem State.setPair_links (p : Nat) (r : PairRec) (s : State) : (s.setPair p r).links = s.links := rfl
@[simp] theorem State.setPair_aux (p : Nat) (r : PairRec) (s : State) : (s.setPair p r).aux = s.aux := rfl
@[simp] theorem State.setPair_island (p : Nat) (r : PairRec) (s : State) : (s.setPair p r).island = s.island := rfl
@[simp] theorem State.setPair_clock (p : Nat) (r : PairRec) (s : State) : (s.setPair p r).clock = s.clock := rfl
@[simp] theorem State.setPair_acq (p : Nat) (r : PairRec) (s : State) : (s.setPair p r).acq = s.acq := rfl
@[simp] theorem State.setPair_log (p : Nat) (r : PairRec) (s : State) : (s.setPair p r).log = s.log := rfl
@[simp] theorem State.setPair_rack (p : Nat) (r : PairRec) (s : State) : (s.setPair p r).rack = s.rack := rfl
@[simp] theorem State.setPair_power (p : Nat) (r : PairRec) (s : State) : (s.setPair p r).power = s.power := rfl
@[simp] theorem State.setPair_srv (p : Nat) (r : PairRec) (s : State) : (s.setPair p r).srv = s.srv := rfl
@[simp] theorem State.setPair_net (p : Nat) (r : PairRec) (s : State) : (s.setPair p r).net = s.net := rfl
@[simp] theorem State.session_setPair (p : Nat) (r : PairRec) (j : Nat) (s : State) : (s.setPair p r).session j = s.session j := rfl
@[simp] theorem State.chan_setPair (p : Nat) (r : PairRec) (j : Nat) (s : State) : (s.setPair p r).chan j = s.chan j := rfl
@[simp] theorem State.chainRec_setPair (p : Nat) (r : PairRec) (j : Nat) (s : State) : (s.setPair p r).chainRec j = s.chainRec j := rfl
@[simp] theorem State.sfd_setPair (p : Nat) (r : PairRec) (j : Nat) (s : State) : (s.setPair p r).sfd j = s.sfd j := rfl
@[simp] theorem State.core_setPair (p : Nat) (r : PairRec) (j : Nat) (s : State) : (s.setPair p r).core j = s.core j := rfl
@[simp] theorem State.tpo_setPair (p : Nat) (r : PairRec) (j : Nat) (s : State) : (s.setPair p r).tpo j = s.tpo j := rfl
@[simp] theorem State.ptpPort_setPair (p : Nat) (r : PairRec) (j : Nat) (s : State) : (s.setPair p r).ptpPort j = s.ptpPort j := rfl
@[simp] theorem State.lane_setPair (p : Nat) (r : PairRec) (j : Nat) (s : State) : (s.setPair p r).lane j = s.lane j := rfl
@[simp] theorem State.fwSlot_setPair (p : Nat) (r : PairRec) (j : Nat) (s : State) : (s.setPair p r).fwSlot j = s.fwSlot j := rfl
@[simp] theorem State.stage_setPair (p : Nat) (r : PairRec) (j : Nat) (s : State) : (s.setPair p r).stage j = s.stage j := rfl
@[simp] theorem State.check_setPair (p : Nat) (r : PairRec) (j : Nat) (s : State) : (s.setPair p r).check j = s.check j := rfl
@[simp] theorem State.circ_setPair (p : Nat) (r : PairRec) (j : Nat) (s : State) : (s.setPair p r).circ j = s.circ j := rfl
@[simp] theorem State.link_setPair (p : Nat) (r : PairRec) (j : Nat) (s : State) : (s.setPair p r).link j = s.link j := rfl
@[simp] theorem State.node_setPair (p : Nat) (r : PairRec) (j : Nat) (s : State) : (s.setPair p r).node j = s.node j := rfl
@[simp] theorem State.pub_setPair (p : Nat) (r : PairRec) (j : Nat) (s : State) : (s.setPair p r).pub j = s.pub j := rfl
@[simp] theorem State.blob_setPair (p : Nat) (r : PairRec) (j : Nat) (s : State) : (s.setPair p r).blob j = s.blob j := rfl
@[simp] theorem State.batch_setPair (p : Nat) (r : PairRec) (j : Nat) (s : State) : (s.setPair p r).batch j = s.batch j := rfl
@[simp] theorem State.fx_setPair (p : Nat) (r : PairRec) (j : Nat) (s : State) : (s.setPair p r).fx j = s.fx j := rfl
@[simp] theorem State.fl_setPair (p : Nat) (r : PairRec) (j : Nat) (s : State) : (s.setPair p r).fl j = s.fl j := rfl
@[simp] theorem State.gen_setPair (p : Nat) (r : PairRec) (j : Nat) (s : State) : (s.setPair p r).gen j = s.gen j := rfl
@[simp] theorem State.queue_setPair (p : Nat) (r : PairRec) (j : Nat) (s : State) : (s.setPair p r).queue j = s.queue j := rfl
@[simp] theorem State.codeRec_setPair (p : Nat) (r : PairRec) (j : Nat) (s : State) : (s.setPair p r).codeRec j = s.codeRec j := rfl
@[simp] theorem State.acqBuf_setPair (p : Nat) (r : PairRec) (j : Nat) (s : State) : (s.setPair p r).acqBuf j = s.acqBuf j := rfl
@[simp] theorem State.trig_setPair (p : Nat) (r : PairRec) (j : Nat) (s : State) : (s.setPair p r).trig j = s.trig j := rfl
@[simp] theorem State.pair_setPair_same (p : Nat) (r : PairRec) (s : State) : (s.setPair p r).pair p = r := Tbl.get_set_same _ _ _ _
theorem State.pair_setPair_other (p : Nat) (r : PairRec) (s : State) {j : Nat} (h : j ≠ p) : (s.setPair p r).pair j = s.pair j := Tbl.get_set_other _ _ _ h
@[simp] theorem State.slice_setPair (p : Nat) (r : PairRec) (j : Nat) (s : State) : (s.setPair p r).slice j = s.slice j := rfl
@[simp] theorem State.beat_setPair (p : Nat) (r : PairRec) (j : Nat) (s : State) : (s.setPair p r).beat j = s.beat j := rfl
@[simp] theorem State.inputLevel_setPair (p : Nat) (r : PairRec) (j : Nat) (s : State) : (s.setPair p r).inputLevel j = s.inputLevel j := rfl
@[simp] theorem State.maskEx_setPair (p : Nat) (r : PairRec) (j : Nat) (s : State) : (s.setPair p r).maskEx j = s.maskEx j := rfl

/-! ### State.noteBoot -/

@[simp] theorem State.noteBoot_now (d : Nat) (low : Bool) (s : State) : (s.noteBoot d low).now = s.now := rfl
@[simp] theorem State.noteBoot_fresh (d : Nat) (low : Bool) (s : State) : (s.noteBoot d low).fresh = s.fresh := rfl
@[simp] theorem State.noteBoot_out (d : Nat) (low : Bool) (s : State) : (s.noteBoot d low).out = s.out := rfl
@[simp] theorem State.noteBoot_pending (d : Nat) (low : Bool) (s : State) : (s.noteBoot d low).pending = s.pending := rfl
@[simp] theorem State.noteBoot_od (d : Nat) (low : Bool) (s : State) : (s.noteBoot d low).od = s.od := rfl
@[simp] theorem State.noteBoot_blobs (d : Nat) (low : Bool) (s : State) : (s.noteBoot d low).blobs = s.blobs := rfl
@[simp] theorem State.noteBoot_batches (d : Nat) (low : Bool) (s : State) : (s.noteBoot d low).batches = s.batches := rfl
@[simp] theorem State.noteBoot_fixed (d : Nat) (low : Bool) (s : State) : (s.noteBoot d low).fixed = s.fixed := rfl
@[simp] theorem State.noteBoot_floats (d : Nat) (low : Bool) (s : State) : (s.noteBoot d low).floats = s.floats := rfl
@[simp] theorem State.noteBoot_gens (d : Nat) (low : Bool) (s : State) : (s.noteBoot d low).gens = s.gens := rfl
@[simp] theorem State.noteBoot_fabric (d : Nat) (low : Bool) (s : State) : (s.noteBoot d low).fabric = s.fabric := rfl
@[simp] theorem State.noteBoot_meas (d : Nat) (low : Bool) (s : State) : (s.noteBoot d low).meas = s.meas := rfl
@[simp] theorem State.noteBoot_pwm (d : Nat) (low : Bool) (s : State) : (s.noteBoot d low).pwm = s.pwm := rfl
@[simp] theorem State.noteBoot_links (d : Nat) (low : Bool) (s : State) : (s.noteBoot d low).links = s.links := rfl
@[simp] theorem State.noteBoot_aux (d : Nat) (low : Bool) (s : State) : (s.noteBoot d low).aux = { s.aux with boot := Tbl.set d (s.now, low) s.aux.boot } := rfl
@[simp] theorem State.noteBoot_island (d : Nat) (low : Bool) (s : State) : (s.noteBoot d low).island = s.island := rfl
@[simp] theorem State.noteBoot_clock (d : Nat) (low : Bool) (s : State) : (s.noteBoot d low).clock = s.clock := rfl
@[simp] theorem State.noteBoot_acq (d : Nat) (low : Bool) (s : State) : (s.noteBoot d low).acq = s.acq := rfl
@[simp] theorem State.noteBoot_log (d : Nat) (low : Bool) (s : State) : (s.noteBoot d low).log = s.log := rfl
@[simp] theorem State.noteBoot_rack (d : Nat) (low : Bool) (s : State) : (s.noteBoot d low).rack = s.rack := rfl
@[simp] theorem State.noteBoot_power (d : Nat) (low : Bool) (s : State) : (s.noteBoot d low).power = s.power := rfl
@[simp] theorem State.noteBoot_srv (d : Nat) (low : Bool) (s : State) : (s.noteBoot d low).srv = s.srv := rfl
@[simp] theorem State.noteBoot_net (d : Nat) (low : Bool) (s : State) : (s.noteBoot d low).net = s.net := rfl
@[simp] theorem State.session_noteBoot (d : Nat) (low : Bool) (j : Nat) (s : State) : (s.noteBoot d low).session j = s.session j := rfl
@[simp] theorem State.chan_noteBoot (d : Nat) (low : Bool) (j : Nat) (s : State) : (s.noteBoot d low).chan j = s.chan j := rfl
@[simp] theorem State.chainRec_noteBoot (d : Nat) (low : Bool) (j : Nat) (s : State) : (s.noteBoot d low).chainRec j = s.chainRec j := rfl
@[simp] theorem State.sfd_noteBoot (d : Nat) (low : Bool) (j : Nat) (s : State) : (s.noteBoot d low).sfd j = s.sfd j := rfl
@[simp] theorem State.core_noteBoot (d : Nat) (low : Bool) (j : Nat) (s : State) : (s.noteBoot d low).core j = s.core j := rfl
@[simp] theorem State.tpo_noteBoot (d : Nat) (low : Bool) (j : Nat) (s : State) : (s.noteBoot d low).tpo j = s.tpo j := rfl
@[simp] theorem State.ptpPort_noteBoot (d : Nat) (low : Bool) (j : Nat) (s : State) : (s.noteBoot d low).ptpPort j = s.ptpPort j := rfl
@[simp] theorem State.lane_noteBoot (d : Nat) (low : Bool) (j : Nat) (s : State) : (s.noteBoot d low).lane j = s.lane j := rfl
@[simp] theorem State.fwSlot_noteBoot (d : Nat) (low : Bool) (j : Nat) (s : State) : (s.noteBoot d low).fwSlot j = s.fwSlot j := rfl
@[simp] theorem State.stage_noteBoot (d : Nat) (low : Bool) (j : Nat) (s : State) : (s.noteBoot d low).stage j = s.stage j := rfl
@[simp] theorem State.check_noteBoot (d : Nat) (low : Bool) (j : Nat) (s : State) : (s.noteBoot d low).check j = s.check j := rfl
@[simp] theorem State.circ_noteBoot (d : Nat) (low : Bool) (j : Nat) (s : State) : (s.noteBoot d low).circ j = s.circ j := rfl
@[simp] theorem State.link_noteBoot (d : Nat) (low : Bool) (j : Nat) (s : State) : (s.noteBoot d low).link j = s.link j := rfl
@[simp] theorem State.node_noteBoot (d : Nat) (low : Bool) (j : Nat) (s : State) : (s.noteBoot d low).node j = s.node j := rfl
@[simp] theorem State.pub_noteBoot (d : Nat) (low : Bool) (j : Nat) (s : State) : (s.noteBoot d low).pub j = s.pub j := rfl
@[simp] theorem State.blob_noteBoot (d : Nat) (low : Bool) (j : Nat) (s : State) : (s.noteBoot d low).blob j = s.blob j := rfl
@[simp] theorem State.batch_noteBoot (d : Nat) (low : Bool) (j : Nat) (s : State) : (s.noteBoot d low).batch j = s.batch j := rfl
@[simp] theorem State.fx_noteBoot (d : Nat) (low : Bool) (j : Nat) (s : State) : (s.noteBoot d low).fx j = s.fx j := rfl
@[simp] theorem State.fl_noteBoot (d : Nat) (low : Bool) (j : Nat) (s : State) : (s.noteBoot d low).fl j = s.fl j := rfl
@[simp] theorem State.gen_noteBoot (d : Nat) (low : Bool) (j : Nat) (s : State) : (s.noteBoot d low).gen j = s.gen j := rfl
@[simp] theorem State.queue_noteBoot (d : Nat) (low : Bool) (j : Nat) (s : State) : (s.noteBoot d low).queue j = s.queue j := rfl
@[simp] theorem State.codeRec_noteBoot (d : Nat) (low : Bool) (j : Nat) (s : State) : (s.noteBoot d low).codeRec j = s.codeRec j := rfl
@[simp] theorem State.acqBuf_noteBoot (d : Nat) (low : Bool) (j : Nat) (s : State) : (s.noteBoot d low).acqBuf j = s.acqBuf j := rfl
@[simp] theorem State.trig_noteBoot (d : Nat) (low : Bool) (j : Nat) (s : State) : (s.noteBoot d low).trig j = s.trig j := rfl
@[simp] theorem State.pair_noteBoot (d : Nat) (low : Bool) (j : Nat) (s : State) : (s.noteBoot d low).pair j = s.pair j := rfl
@[simp] theorem State.slice_noteBoot (d : Nat) (low : Bool) (j : Nat) (s : State) : (s.noteBoot d low).slice j = s.slice j := rfl
@[simp] theorem State.beat_noteBoot (d : Nat) (low : Bool) (j : Nat) (s : State) : (s.noteBoot d low).beat j = s.beat j := rfl
@[simp] theorem State.inputLevel_noteBoot (d : Nat) (low : Bool) (j : Nat) (s : State) : (s.noteBoot d low).inputLevel j = s.inputLevel j := rfl
@[simp] theorem State.maskEx_noteBoot (d : Nat) (low : Bool) (j : Nat) (s : State) : (s.noteBoot d low).maskEx j = s.maskEx j := rfl

/-! ### State.setMaskEx -/

@[simp] theorem State.setMaskEx_now (m : Nat) (x : Excursion) (s : State) : (s.setMaskEx m x).now = s.now := rfl
@[simp] theorem State.setMaskEx_fresh (m : Nat) (x : Excursion) (s : State) : (s.setMaskEx m x).fresh = s.fresh := rfl
@[simp] theorem State.setMaskEx_out (m : Nat) (x : Excursion) (s : State) : (s.setMaskEx m x).out = s.out := rfl
@[simp] theorem State.setMaskEx_pending (m : Nat) (x : Excursion) (s : State) : (s.setMaskEx m x).pending = s.pending := rfl
@[simp] theorem State.setMaskEx_od (m : Nat) (x : Excursion) (s : State) : (s.setMaskEx m x).od = s.od := rfl
@[simp] theorem State.setMaskEx_blobs (m : Nat) (x : Excursion) (s : State) : (s.setMaskEx m x).blobs = s.blobs := rfl
@[simp] theorem State.setMaskEx_batches (m : Nat) (x : Excursion) (s : State) : (s.setMaskEx m x).batches = s.batches := rfl
@[simp] theorem State.setMaskEx_fixed (m : Nat) (x : Excursion) (s : State) : (s.setMaskEx m x).fixed = s.fixed := rfl
@[simp] theorem State.setMaskEx_floats (m : Nat) (x : Excursion) (s : State) : (s.setMaskEx m x).floats = s.floats := rfl
@[simp] theorem State.setMaskEx_gens (m : Nat) (x : Excursion) (s : State) : (s.setMaskEx m x).gens = s.gens := rfl
@[simp] theorem State.setMaskEx_fabric (m : Nat) (x : Excursion) (s : State) : (s.setMaskEx m x).fabric = s.fabric := rfl
@[simp] theorem State.setMaskEx_meas (m : Nat) (x : Excursion) (s : State) : (s.setMaskEx m x).meas = s.meas := rfl
@[simp] theorem State.setMaskEx_pwm (m : Nat) (x : Excursion) (s : State) : (s.setMaskEx m x).pwm = s.pwm := rfl
@[simp] theorem State.setMaskEx_links (m : Nat) (x : Excursion) (s : State) : (s.setMaskEx m x).links = s.links := rfl
@[simp] theorem State.setMaskEx_aux (m : Nat) (x : Excursion) (s : State) : (s.setMaskEx m x).aux = s.aux := rfl
@[simp] theorem State.setMaskEx_island (m : Nat) (x : Excursion) (s : State) : (s.setMaskEx m x).island = s.island := rfl
@[simp] theorem State.setMaskEx_clock (m : Nat) (x : Excursion) (s : State) : (s.setMaskEx m x).clock = s.clock := rfl
@[simp] theorem State.setMaskEx_acq (m : Nat) (x : Excursion) (s : State) : (s.setMaskEx m x).acq = { s.acq with masks := Tbl.set m x s.acq.masks } := rfl
@[simp] theorem State.setMaskEx_log (m : Nat) (x : Excursion) (s : State) : (s.setMaskEx m x).log = s.log := rfl
@[simp] theorem State.setMaskEx_rack (m : Nat) (x : Excursion) (s : State) : (s.setMaskEx m x).rack = s.rack := rfl
@[simp] theorem State.setMaskEx_power (m : Nat) (x : Excursion) (s : State) : (s.setMaskEx m x).power = s.power := rfl
@[simp] theorem State.setMaskEx_srv (m : Nat) (x : Excursion) (s : State) : (s.setMaskEx m x).srv = s.srv := rfl
@[simp] theorem State.setMaskEx_net (m : Nat) (x : Excursion) (s : State) : (s.setMaskEx m x).net = s.net := rfl
@[simp] theorem State.session_setMaskEx (m : Nat) (x : Excursion) (j : Nat) (s : State) : (s.setMaskEx m x).session j = s.session j := rfl
@[simp] theorem State.chan_setMaskEx (m : Nat) (x : Excursion) (j : Nat) (s : State) : (s.setMaskEx m x).chan j = s.chan j := rfl
@[simp] theorem State.chainRec_setMaskEx (m : Nat) (x : Excursion) (j : Nat) (s : State) : (s.setMaskEx m x).chainRec j = s.chainRec j := rfl
@[simp] theorem State.sfd_setMaskEx (m : Nat) (x : Excursion) (j : Nat) (s : State) : (s.setMaskEx m x).sfd j = s.sfd j := rfl
@[simp] theorem State.core_setMaskEx (m : Nat) (x : Excursion) (j : Nat) (s : State) : (s.setMaskEx m x).core j = s.core j := rfl
@[simp] theorem State.tpo_setMaskEx (m : Nat) (x : Excursion) (j : Nat) (s : State) : (s.setMaskEx m x).tpo j = s.tpo j := rfl
@[simp] theorem State.ptpPort_setMaskEx (m : Nat) (x : Excursion) (j : Nat) (s : State) : (s.setMaskEx m x).ptpPort j = s.ptpPort j := rfl
@[simp] theorem State.lane_setMaskEx (m : Nat) (x : Excursion) (j : Nat) (s : State) : (s.setMaskEx m x).lane j = s.lane j := rfl
@[simp] theorem State.fwSlot_setMaskEx (m : Nat) (x : Excursion) (j : Nat) (s : State) : (s.setMaskEx m x).fwSlot j = s.fwSlot j := rfl
@[simp] theorem State.stage_setMaskEx (m : Nat) (x : Excursion) (j : Nat) (s : State) : (s.setMaskEx m x).stage j = s.stage j := rfl
@[simp] theorem State.check_setMaskEx (m : Nat) (x : Excursion) (j : Nat) (s : State) : (s.setMaskEx m x).check j = s.check j := rfl
@[simp] theorem State.circ_setMaskEx (m : Nat) (x : Excursion) (j : Nat) (s : State) : (s.setMaskEx m x).circ j = s.circ j := rfl
@[simp] theorem State.link_setMaskEx (m : Nat) (x : Excursion) (j : Nat) (s : State) : (s.setMaskEx m x).link j = s.link j := rfl
@[simp] theorem State.node_setMaskEx (m : Nat) (x : Excursion) (j : Nat) (s : State) : (s.setMaskEx m x).node j = s.node j := rfl
@[simp] theorem State.pub_setMaskEx (m : Nat) (x : Excursion) (j : Nat) (s : State) : (s.setMaskEx m x).pub j = s.pub j := rfl
@[simp] theorem State.blob_setMaskEx (m : Nat) (x : Excursion) (j : Nat) (s : State) : (s.setMaskEx m x).blob j = s.blob j := rfl
@[simp] theorem State.batch_setMaskEx (m : Nat) (x : Excursion) (j : Nat) (s : State) : (s.setMaskEx m x).batch j = s.batch j := rfl
@[simp] theorem State.fx_setMaskEx (m : Nat) (x : Excursion) (j : Nat) (s : State) : (s.setMaskEx m x).fx j = s.fx j := rfl
@[simp] theorem State.fl_setMaskEx (m : Nat) (x : Excursion) (j : Nat) (s : State) : (s.setMaskEx m x).fl j = s.fl j := rfl
@[simp] theorem State.gen_setMaskEx (m : Nat) (x : Excursion) (j : Nat) (s : State) : (s.setMaskEx m x).gen j = s.gen j := rfl
@[simp] theorem State.queue_setMaskEx (m : Nat) (x : Excursion) (j : Nat) (s : State) : (s.setMaskEx m x).queue j = s.queue j := rfl
@[simp] theorem State.codeRec_setMaskEx (m : Nat) (x : Excursion) (j : Nat) (s : State) : (s.setMaskEx m x).codeRec j = s.codeRec j := rfl
@[simp] theorem State.acqBuf_setMaskEx (m : Nat) (x : Excursion) (j : Nat) (s : State) : (s.setMaskEx m x).acqBuf j = s.acqBuf j := rfl
@[simp] theorem State.trig_setMaskEx (m : Nat) (x : Excursion) (j : Nat) (s : State) : (s.setMaskEx m x).trig j = s.trig j := rfl
@[simp] theorem State.pair_setMaskEx (m : Nat) (x : Excursion) (j : Nat) (s : State) : (s.setMaskEx m x).pair j = s.pair j := rfl
@[simp] theorem State.slice_setMaskEx (m : Nat) (x : Excursion) (j : Nat) (s : State) : (s.setMaskEx m x).slice j = s.slice j := rfl
@[simp] theorem State.beat_setMaskEx (m : Nat) (x : Excursion) (j : Nat) (s : State) : (s.setMaskEx m x).beat j = s.beat j := rfl
@[simp] theorem State.inputLevel_setMaskEx (m : Nat) (x : Excursion) (j : Nat) (s : State) : (s.setMaskEx m x).inputLevel j = s.inputLevel j := rfl
@[simp] theorem State.maskEx_setMaskEx_same (m : Nat) (x : Excursion) (s : State) : (s.setMaskEx m x).maskEx m = x := Tbl.get_set_same _ _ _ _
theorem State.maskEx_setMaskEx_other (m : Nat) (x : Excursion) (s : State) {j : Nat} (h : j ≠ m) : (s.setMaskEx m x).maskEx j = s.maskEx j := Tbl.get_set_other _ _ _ h

end Sys2Proof.Machine
end

