-- ==== Sys2Proof/Tests/Slice0.lean ====
section
/-! SUPPORT. Tests: for each statement with hypotheses, a concrete machine and operands that meet them, clause by clause
(test_witness_<statement>); and the worked examples of the spec (the last part). -/

namespace Sys2Proof.Tests

open Sys2Proof Sys2Proof.Machine

set_option maxRecDepth 100000
set_option Elab.async false

/-- Entries set on the machine after reset. -/
def w (l : List (Nat × Int)) : State := l.foldl (fun s e => s.wr e.1 e.2) State.reset
/-- The same with PD5 on: the server runs. -/
def sv (l : List (Nat × Int)) : State := w ((key 0x2100 6, 2) :: l)
/-- Requests: the safety role at the service port. -/
def hq : Req := { role := .safety, servicePort := true, sid := 0 }
set_option maxRecDepth 100000
/-- Requests: an operator beyond the service port. -/
def opReq : Req := { role := .operator, servicePort := false, sid := 0 }
/-- A loaded image of no content. -/
def img0 (b : Nat) (s : State) : State := s.wrBlob (key (0x8000 + b) 1) [0]
def bat (b : Nat) (r : BatchRec) (s : State) : State := s.setBatch b r
/-- A recipe image of one item (Table 05-2): its block records, resources and bank images, with the header's offsets and the CRC. -/
def image (kind cycle cls sigs fx fl nblk : Nat) (blocks res banks : List Byte) : List Byte :=
  let ro := 72 + blocks.length
  let co := ro + res.length
  let n := co + banks.length + 4
  let body := [0x43, 0x51, 0x52, 0x43] ++ d16 1 ++ d8 kind ++ d8 0xFF ++ d32 n ++ d32 cycle ++ d8 cls ++ d8 1 ++ d16 nblk ++ d16 sigs ++ d16 fx ++
    d8 fl ++ d8 0 ++ d16 0 ++ d16 0 ++ d16 0 ++ d32 64 ++ d32 72 ++ d32 ro ++ d32 co ++ d32 co ++ d32 0 ++ d32 7 ++ d32 0 ++
    (d8 0 ++ d8 0 ++ d16 0 ++ d16 nblk ++ d16 0) ++ blocks ++ res ++ banks
  body ++ d32 (crc32 body)
/-- A block record (Table 05-4). -/
def block (code outs slot slots role mode param sig : Nat) (ops : List Nat) : List Byte :=
  let l := d16 code ++ d8 ops.length ++ d8 outs ++ d16 slot ++ d8 slots ++ d8 role ++ d16 mode ++ d16 param ++ d16 sig ++
    d16 (up4 (16 + 2 * ops.length)) ++ (ops.map d16).flatten
  l ++ List.replicate (up4 l.length - l.length) 0
def resEnd0 : List Byte := d32 0
/-- A plain recipe: one reference block. -/
def plainImg (cycle : Nat) : List Byte := image 0 cycle 2 1 0 0 1 (block 1 1 0xFFFF 0 0 0 0 0 []) resEnd0 []
/-- One with a virtual machine in float slot 1024. -/
def vmImg : List Byte := image 1 4000 2 3 0 0 1 (block 0x60 3 1024 1 0 0 6 0 (List.replicate 8 0)) resEnd0 []
/-- One that reads index 0 of batch 1. -/
def readImg : List Byte := image 0 4000 2 1 0 0 1 (block 0x30 1 5 1 0 0 0 0 [0x4080]) resEnd0 []
/-- The content of an option that has one, with what it satisfies. -/
theorem heldBy {α : Type} {P : α → Prop} [DecidablePred P] {o : Option α} (h : (o.map (fun x => decide (P x))) = some true) :
    ∃ x, o = some x ∧ P x := by
  match o, h with
  | some x, h => exact ⟨x, rfl, of_decide_eq_true (Option.some.inj h)⟩
/-- What holds at every place of a list, place by place. -/
theorem atEach {α : Type} {l : List α} {P : Nat → α → Prop} (h : ∀ j : Fin l.length, P j l[j]) : ∀ j e, l[j]? = some e → P j e :=
  fun j _ he => let ⟨hj, hv⟩ := List.getElem?_eq_some_iff.1 he; hv ▸ h ⟨j, hj⟩
/-- A plain write: its entry, the effect that only sets it, and the checks it passes. -/
theorem plainWrite {q : Req} {rank index sub elem : Nat} {host : Bool} {l : List Byte} {s : State} {e : Desc}
    (found : descAt index sub = some e) (eff : effOf q index sub elem (e.ty.ofBytes l) = plainEff index sub elem (e.ty.ofBytes l))
    (h : index ≠ 0x2601 ∧ e.ty.isBlob = false ∧ (e.n ≤ 1 ∨ elem ≠ 0) ∧ s.writeCheck rank host index sub elem l.length (e.ty.ofBytes l) = 0) :
    s.PlainWrite q rank host index sub elem l := ⟨h.1, e, found, h.2.1, h.2.2.1, eff, h.2.2.2⟩

/-! ### The machine: steps, the invariant, the frame -/

namespace Whole

theorem test_reset_queue_empty : State.reset.pending = [] := by decide

/-- Witness of Obligations.ResetState: a domain, a batch, a channel, a role and a circuit at the end of their ranges. -/
theorem test_witness_ResetState : (1 ≤ 7 ∧ 7 < 8) ∧ 31 < 32 ∧ 255 < 256 ∧ (1 ≤ 4 ∧ 4 ≤ 4) ∧ 3 < 4 := by decide

/-- Witness of Obligations.StepRunsFront: a queue with a command in front, and an empty one. -/
theorem test_witness_StepRunsFront :
    { State.reset with pending := [.standalone 5, .standalone 9] }.pending = .standalone 5 :: [.standalone 9] ∧
    State.reset.pending = [] := ⟨rfl, by decide⟩

/-- An outcome is a next state. -/
def goes (o : Host.Outcome State Fault Refusal) : Bool :=
  match o with
  | .next _ => true
  | .fault _ => false
  | .refused _ => false

theorem goes_next {o : Host.Outcome State Fault Refusal} (h : goes o = true) : ∃ t, o = .next t := by
  cases o with
  | next t => exact ⟨t, rfl⟩
  | fault r => simp [goes] at h
  | refused r => simp [goes] at h

/-- Witness of Obligations.StepKeepsInvariant: a machine that meets the invariant, with a write of another and a command in front. -/
theorem test_witness_StepKeepsInvariant :
    { sv [(key 0x2000 1, 3)] with pending := [.moduleArm 5 hq, .standalone 9] }.Inv ∧
    ∃ t, step { sv [(key 0x2000 1, 3)] with pending := [.moduleArm 5 hq, .standalone 9] } = .next t :=
  ⟨by decide +kernel, goes_next (by decide +kernel)⟩

/-- Witness of Obligations.ExecKeepsFrame. -/
theorem test_witness_ExecKeepsFrame : ∃ t, exec (.moduleArm 5 hq) (sv [(key 0x2000 1, 3)]) = .next t :=
  goes_next (by decide +kernel)

end Whole

/-! ### The checks of module control 2, one by one (R330) -/

namespace Arm

/-- Configuration, nothing enabled: every check passes. -/
def base : State := sv [(key 0x2000 1, 3)]
/-- Batch 3 enabled on a loaded recipe whose period is too short for it. -/
def short : State := img0 3 (sv [(key 0x2000 1, 3), (bk 0 2 3, 1), (bk 4 1 3, 1)])
/-- Batch 3 enabled, no recipe loaded. -/
def noRecipe : State := sv [(key 0x2000 1, 3), (bk 0 2 3, 1)]
/-- Batch 3 enabled with output class 1 and a node that is not up. -/
def nodeDown : State := img0 3 (sv [(key 0x2000 1, 3), (bk 0 2 3, 1), (bk 3 0xA 3, 1), (bk 3 1 3, 128), (chk 7 1, 3), (chk 7 2, 3), (chk 7 3, 9), (ndk 9 5, 1)])
/-- The store's condition of check 4. -/
def store : State := sv [(key 0x2000 1, 3), (stk 0xF, 2)]
/-- A twin whose partner sent the digest d. -/
def twin (d : Nat) : State := { sv [(key 0x2000 1, 3), (twk 1, 1)] with rack := { State.reset.rack with digest := some d } }
/-- The machine while the request is handled. -/
def at_ (s : State) : State := (s.begin 5).handling hq.sid
/-- The result of admission then. -/
def adm (s : State) : Nat := ((at_ s).admission factor08 (at_ s).lanesIn.length (at_ s).carriers (at_ s).enabledFigs).result
/-- The request reaches the checks. -/
abbrev Reaches (s : State) : Prop := s.serverUp = true ∧ s.longOp = 0 ∧ s.Passes hq 0x2000 3 0 2 ∧ s.mod = .configuration

theorem none_enabled {s : State} (h : ∀ b, b < 32 → s.benabled b = false) :
    (∀ b, b < 32 → s.benabled b = true → s.recipe b ≠ none) ∧
    (∀ b n, b < 32 → s.benabled b = true → s.outClass b = 1 → n ∈ s.batchNodes b → s.rdN (ndk n 5) = 2) :=
  ⟨fun b hb he => by simp [h b hb] at he, fun b _ hb he => by simp [h b hb] at he⟩

theorem test_witness_Arm0 : Reaches base ∧ adm base = 0 ∧
    ((∀ b, b < 32 → base.benabled b = true → base.recipe b ≠ none) ∧
    (∀ b n, b < 32 → base.benabled b = true → base.outClass b = 1 → n ∈ base.batchNodes b → base.rdN (ndk n 5) = 2)) ∧
    base.bit (stk 0xF) 1 = false ∧ ¬(base.twinRole ≠ 0 ∧ (at_ base).pairState = 5) :=
  ⟨by decide +kernel, by decide +kernel, none_enabled (by decide +kernel), by decide +kernel,
   fun h => h.1 (by decide +kernel)⟩

theorem test_witness_Arm1 : Reaches short ∧ adm short ≠ 0 := by decide +kernel

theorem test_witness_Arm2 : Reaches noRecipe ∧ adm noRecipe = 0 ∧ ∃ b, b < 32 ∧ noRecipe.benabled b = true ∧ noRecipe.recipe b = none :=
  ⟨by decide +kernel, by decide +kernel, 3, by decide +kernel⟩

theorem test_witness_Arm3 : Reaches nodeDown ∧ adm nodeDown = 0 ∧
    (∀ b, b < 32 → nodeDown.benabled b = true → nodeDown.recipe b ≠ none) ∧
    ∃ b n, b < 32 ∧ nodeDown.benabled b = true ∧ nodeDown.outClass b = 1 ∧ n ∈ nodeDown.batchNodes b ∧ nodeDown.rdN (ndk n 5) ≠ 2 :=
  ⟨by decide +kernel, by decide +kernel, by decide +kernel, 3, 9, by decide +kernel⟩

theorem test_witness_Arm4 : Reaches store ∧ adm store = 0 ∧
    ((∀ b, b < 32 → store.benabled b = true → store.recipe b ≠ none) ∧
    (∀ b n, b < 32 → store.benabled b = true → store.outClass b = 1 → n ∈ store.batchNodes b → store.rdN (ndk n 5) = 2)) ∧
    store.bit (stk 0xF) 1 = true :=
  ⟨by decide +kernel, by decide +kernel, none_enabled (by decide +kernel), by decide +kernel⟩

/-- The digest of the configuration is free: of two partners' digests one differs from it. -/
theorem twin_differs : (at_ (twin 0)).pairState = 5 ∨ (at_ (twin 1)).pairState = 5 := by
  have e : (at_ (twin 1)).ownDigest = (at_ (twin 0)).ownDigest := by
    unfold State.ownDigest
    rw [show (at_ (twin 1)).od = (at_ (twin 0)).od by decide +kernel]; rfl
  have h (d : Nat) (hd : (at_ (twin d)).rack.digest = some d) (h1 : (at_ (twin d)).twinRole ≠ 0)
      (h2 : (at_ (twin d)).twinPartner = none) (hs : (at_ (twin d)).rack.inStep = false)
      (h3 : d ≠ (at_ (twin d)).ownDigest) : (at_ (twin d)).pairState = 5 := by
    unfold State.pairState
    simp [h1, h2, hd, hs, h3]
  by_cases h0 : (at_ (twin 0)).ownDigest = 0
  · exact .inr (h 1 (by decide +kernel) (by decide +kernel) (by decide +kernel) (by decide +kernel) (by rw [e, h0]; decide))
  · exact .inl (h 0 (by decide +kernel) (by decide +kernel) (by decide +kernel) (by decide +kernel) (Ne.symm h0))

/-- What check 5 needs of a twin, beside the pair's state. -/
abbrev ToPair (s : State) : Prop := Reaches s ∧ adm s = 0 ∧
    ((∀ b, b < 32 → s.benabled b = true → s.recipe b ≠ none) ∧
    (∀ b n, b < 32 → s.benabled b = true → s.outClass b = 1 → n ∈ s.batchNodes b → s.rdN (ndk n 5) = 2)) ∧
    s.bit (stk 0xF) 1 = false ∧ s.twinRole ≠ 0

theorem test_witness_Arm5 : ∃ d, ToPair (twin d) ∧ (at_ (twin d)).pairState = 5 := by
  obtain h | h := twin_differs
  · exact ⟨0, ⟨by decide +kernel, by decide +kernel, none_enabled (by decide +kernel), by decide +kernel, by decide +kernel⟩, h⟩
  · exact ⟨1, ⟨by decide +kernel, by decide +kernel, none_enabled (by decide +kernel), by decide +kernel, by decide +kernel⟩, h⟩

end Arm
/-! ### Ill-formed commands, one for each check of WellFormed.lean -/

namespace Shape

def big (w : Nat) : Nat := 2 ^ w
def bytes (n : Nat) : List Byte := List.replicate n 0
def head : FrameHead := { kind := 1, link := 2, count := 1, tf := 1000, epoch := 3, seq := 0, reqCode := 0, reqPos := 0, reqAddr := 0, reqData := 0, respCode := 0, respPos := 0, respData := 0 }
def frame : NodeFrame := { inward := false, crcGood := true, violation := false, stomped := false, head := head, controls := [], slots := [], edges := [] }
def up : UpFrame := { crcGood := true, stomped := false, violations := 0, head := head, slots := [] }
def slot : UpSlot := { volt := 0, cur := 0, temp := 0, status := 0, legs := 0 }
def nodeId : NodeId := { protocol := 1, kind := 5, slots := 8, bootMask := 0, voltFs := 0, curFs := 0, tempFs := 0, epoch := 2, minDead := 0 }
def scan : LinkScan := { nodes := [nodeId], runs := List.replicate 64 ⟨0, [0]⟩ }
def beat : HeartbeatMsg := { pair := 4, authority := 0, health := 0, epoch := 0, nodeEpoch := 0, circuits := 0, crcGood := true }
def prep : PrepareMsg := { txn := 0, op := 0, at_ := 0, mask := 0, params := [] }
def gram : Datagram := { src := 9, pair := 0, service := true, magic := true, sid := 1, seq := 5, index := 0x1017, sub := 0, elem := 0, last := false, target := 0, param := 0, data := [], tag := bytes 16 }
def gate : GatewayReq := { role := .safety, service := 0x10, index := 0x1017, sub := 0, elem := 0, last := false, param := 0, data := [] }
def answer : GatewayRep := { abort := 0, progress := 0, param := 0, last := true, data := [] }
def goose : GooseMsg := { appid := 1, gocbRef := [], datSet := [], confRev := 1, test := false, simulation := false, ndsCom := false, ttlMs := 1, pair := 0, members := [] }
def copy : StateCopy := { batch := 3, state := 11, abandoned := false, openLoop := false, damping := false, t0 := 0, fixed := [], floats := [], gens := [] }

/-- The terms that the ill-formed ones below vary are well-formed. -/
theorem test_well_formed : [Instr.nodeFrameReceived 5 9 frame, .upFrameReceived 5 2 up, .nodePowerOn 5 9 nodeId, .linkEnumerate 5 hq 2 scan,
    .syncReturn 5 2 scan, .heartbeat 5 3 beat, .rackPrepare 5 prep, .readEntry 5 gram, .dictionaryGatewayFrame 5 gate, .gatewayReply 5 answer,
    .stateCopyReceived 5 copy, .gooseMessage 5 goose].all Instr.wf = true := by decide +kernel

theorem test_ill_formed_numbers : [Instr.paceMeasurement 5 [1], .paceMeasurement 5 (List.replicate 24 (big 32)), .testDacInject 5 hq 0 (big 12),
    .chainSwapRequest 5 hq 7 (big 8), .detectorWindowWrite 5 hq 7 (big 16), .slotBankWrite 5 hq 3 true 8 0, .slotBankWrite 5 hq 3 true 0 (big 16),
    .slotBankWrite 5 hq 1024 true 0 (big 32), .slotStateWrite 5 hq 3 2 0, .slotStateWrite 5 hq 3 0 (big 64), .slotStateWrite 5 hq 1024 0 (big 32),
    .bankViewWrite 5 hq 3 0 (big 8) 0, .bankViewWrite 5 hq 3 0 1 (big 32), .pccBreakerStatusWrite 5 hq 3 (big 8), .testDuty 5 hq 7 (big 16),
    .nodeControlByte 5 9 0 (big 32), .readRegister 5 9 (big 16), .writeRegister 5 9 (big 16) 0 0, .writeRegister 5 9 0 (big 32) 0,
    .writeRegister 5 9 0 0 (big 32), .clearLatchedFaults 5 9 (big 32) 0, .clearLatchedFaults 5 9 0 (big 16), .enumerateRequest 5 9 (big 32),
    .linkBreak 5 2 (big 32), .nodeRegisterWrite 5 hq 9 (big 32), .vgateLow 5 (big 16), .vgateRecovered 5 (big 16),
    .vbridgeOvervoltage 5 (big 32), .vbridgeOvervoltageClear 5 (big 32), .vbridgeLow 5 (big 32), .vbridgeLowClear 5 (big 32),
    .diagnosticStep 5 0 ⟨big 16, 0⟩ 0, .diagnosticStep 5 0 ⟨0, big 16⟩ 0, .diagnosticStep 5 0 ⟨0, 0⟩ (big 16), .runDiagnostic 5 hq ⟨0, big 16⟩,
    .driverShort 5 0 ⟨true, big 16, 0, 0⟩, .driverShort 5 0 ⟨true, 0, big 16, 0⟩, .hopDelayMeasurement 5 ⟨big 32, none⟩, .hopDelayMeasurement 5 ⟨0, some (big 32)⟩, .referenceSelect 5 hq (big 8), .archiveAndClear 5 hq (big 32),
    .supplyLoss 5 (big 16), .supplyPresent 5 (big 16), .powerOn 5 (big 16), .sessionIdleTimeout 5 (big 32), .openNotProved 5 (big 32),
    .blockTimeEnd 5 (big 32), .transferTimeout 5 (big 16) 0, .snapshotRelease 5 (big 32) 0 0, .snapshotRelease 5 1 0 (big 8),
    .twinLinkTrained 5 (big 32), .twinForwardedWrite 5 0x1017 0 (big 8) [], .canFdFrame 5 0 false (big 11) [], .canFdFrame 5 0 true (big 29) [],
    .arpRequest 5 0 (big 32) 0, .arpRequest 5 0 0 (big 32), .icmpEcho 5 0 (big 32) []].all (fun i => !i.wf) = true := by decide +kernel

theorem test_ill_formed_lengths : [Instr.chainBankWrite 5 hq 7 (bytes 1059), .envelopeWrite 5 hq 3 0 (bytes 141), .islandCycle 5 [],
    .safetyTelegram 5 false (bytes 1523), .rpdo 5 0 0 (bytes 65), .icmpEcho 5 0 0 (bytes 1481), .roleKey 5 hq .safety (bytes 31),
    .canFdFrame 5 0 false 1 (bytes 65)].all (fun i => !i.wf) = true := by decide +kernel

/-- An image beyond its greatest length. -/
theorem test_ill_formed_images (img : List Byte) (h : 16777216 < img.length) :
    (Instr.recipeLoadAndVerify 5 hq 3 img).wf = false ∧ (Instr.firmwareUpdate 5 hq img).wf = false :=
  ⟨decide_eq_false (p := img.length ≤ 262144) (by omega), decide_eq_false (p := img.length ≤ 16777216) (by omega)⟩

theorem test_ill_formed_frames : [Instr.upFrameReceived 5 2 { up with head := { head with epoch := big 32 } }, .upFrameReceived 5 2 { up with slots := List.replicate 33 slot },
    .upFrameReceived 5 2 { up with head := { head with respCode := big 8 } }, .upFrameReceived 5 2 { up with head := { head with respData := big 32 } },
    .nodeFrameReceived 5 9 { frame with controls := bytes 33 }, .nodeFrameReceived 5 9 { frame with slots := List.replicate 33 slot },
    .nodeFrameReceived 5 9 { frame with edges := [⟨32, 0, true, 0⟩] }, .nodeFrameReceived 5 9 { frame with edges := [⟨0, 32, true, 0⟩] },
    .nodeFrameReceived 5 9 { frame with head := { head with count := 33 } }, .nodeFrameReceived 5 9 { frame with head := { head with tf := big 64 } },
    .nodeFrameReceived 5 9 { frame with head := { head with epoch := big 32 } }, .nodeFrameReceived 5 9 { frame with head := { head with seq := big 16 } },
    .nodeFrameReceived 5 9 { frame with head := { head with reqCode := big 8 } }, .nodeFrameReceived 5 9 { frame with head := { head with reqPos := big 8 } },
    .nodeFrameReceived 5 9 { frame with head := { head with reqAddr := big 16 } }, .nodeFrameReceived 5 9 { frame with head := { head with reqData := big 32 } },
    .nodeFrameReceived 5 9 { frame with head := { head with respCode := big 8 } }, .nodeFrameReceived 5 9 { frame with head := { head with respPos := big 8 } },
    .nodeFrameReceived 5 9 { frame with head := { head with respData := big 32 } },
    .nodePowerOn 5 9 { nodeId with kind := big 16 }, .nodePowerOn 5 9 { nodeId with slots := 33 }, .nodePowerOn 5 9 { nodeId with bootMask := big 32 },
    .nodePowerOn 5 9 { nodeId with epoch := big 32 }, .linkEnumerate 5 hq 2 { scan with nodes := List.replicate 257 nodeId },
    .linkEnumerate 5 hq 2 { scan with nodes := [{ nodeId with slots := 33 }] }, .syncReturn 5 2 { scan with runs := [] }].all (fun i => !i.wf) = true := by
  decide +kernel

theorem test_ill_formed_messages : [Instr.heartbeat 5 3 { beat with pair := 5 }, .heartbeat 5 3 { beat with authority := big 8 },
    .heartbeat 5 3 { beat with health := big 8 }, .heartbeat 5 3 { beat with epoch := big 32 }, .heartbeat 5 3 { beat with nodeEpoch := big 32 },
    .heartbeat 5 3 { beat with role := 3 }, .heartbeat 5 3 { beat with arbiter := 3 }, .heartbeat 5 3 { beat with arbiterSlot := big 8 },
    .epochGrant 5 (big 32) 0, .epochGrant 5 0 (big 64), .epochRevoke 5 (big 32) 0, .epochRevoke 5 0 (big 64), .handoverRequest 5 3 0 (big 8),
    .timeSync 5 (big 64) 0, .rackPrepare 5 { prep with txn := big 32 }, .rackPrepare 5 { prep with op := big 8 },
    .rackPrepare 5 { prep with mask := big 32 }, .rackPrepare 5 { prep with params := List.replicate 5 0 }, .rackReady 5 3 (big 32),
    .rackRefuse 5 3 (big 32) 0, .rackRefuse 5 3 0 (big 8), .rackCommit 5 (big 32), .rackAbort 5 (big 32), .rackReport 5 3 (big 32) 0,
    .rackReport 5 3 0 (big 32), .rackFiring 5 3 16 0, .dictionaryGatewayFrame 5 { gate with service := 0x14 },
    .dictionaryGatewayFrame 5 { gate with index := big 16 }, .dictionaryGatewayFrame 5 { gate with param := big 32 },
    .dictionaryGatewayFrame 5 { gate with data := bytes 33 }, .gatewayReply 5 { answer with abort := big 32 },
    .gatewayReply 5 { answer with progress := 101 }, .gatewayReply 5 { answer with param := big 32 }, .gatewayReply 5 { answer with data := bytes 33 },
    .stateCopyReceived 5 { copy with state := 12 }, .gooseMessage 5 { goose with appid := big 16 }, .gooseMessage 5 { goose with confRev := big 32 },
    .gooseMessage 5 { goose with pair := 2 },
    .usdoRequest 5 0 { unicast := true, write := false, index := big 16, sub := 0, data := [] },
    .usdoRequest 5 0 { unicast := true, write := false, index := 0x1017, sub := 0, data := [], client := 0 },
    .usdoRequest 5 0 { unicast := true, write := false, index := 0x1017, sub := 0, data := [], client := 128 }].all (fun i => !i.wf) = true := by decide +kernel

theorem test_ill_formed_datagrams :
    ([{ gram with src := big 32 }, { gram with srcPort := big 16 }, { gram with dstPort := big 16 }, { gram with pair := 2 }, { gram with sid := big 32 }, { gram with seq := big 32 }, { gram with index := big 16 },
      { gram with sub := big 8 }, { gram with elem := big 8 }, { gram with target := big 4 }, { gram with param := big 32 },
      { gram with data := bytes 1025 }, { gram with tag := [] }].all (fun d => [Instr.sessionOpen 5 d, .sessionProve 5 d, .sessionClose 5 d,
      .keepAlive 5 d, .readEntry 5 d, .writeEntry 5 d, .segmentRead 5 d, .segmentWrite 5 d].all (fun i => !i.wf))) = true := by decide +kernel

end Shape


/-! ### Witnesses of the statements about commands -/

namespace CycleStages

def wCyc : State := img0 3 (bat 3 { cyc := some { t0 := 0, items := 2 } } (w [(key 0x2100 2, 2), (bk 0 2 3, 1), (bk 4 0x10 3, 700)]))
def wLast : State := (img0 3 (bat 3 { cyc := some { t0 := 0, items := 1, ready := true } } (w [(bk 0x13 3 3, 2)]))).setLane 2 { state := .home, item := some 3 }
def wMiss : State := bat 3 { cyc := some { t0 := 0, items := 1, ready := true } } (w [(bk 0x13 3 3, 2), (bk 1 1 3, 4)])
def wFe : State := ((w [(key 0x6005 0xD, 1)]).setFx 5 { ticks := 2, exceeded := true, st := { feCount := 7 } }).setFl 5 { ticks := 1024 }
def wOpen : State := img0 3 (w [(bk 0x12 5 3, 16), (bk 0x12 3 3, 5), (bk 1 1 3, 5)])
def a01_1 := (readRecipe [0])
def wOpenN : State := w [(bk 0x12 5 3, 16), (bk 0x12 3 3, 5), (bk 1 1 3, 5)]

/-- Witness of the hypotheses of Obligations.CycleStagesComplete, clause by clause. -/
theorem test_witness_CycleStagesComplete :
    (State.domOn 1 wCyc = true ∧ State.benabled 3 wCyc = true) ∧
    (((State.batch 3 wCyc).cyc = some { t0 := 0, items := 2 }) ∧ State.recipe 3 wCyc = some a01_1 ∧ (({ t0 := 0, items := 2 } : Cycle).ready = false) ∧ (({ t0 := 0, items := 2 } : Cycle).t0 + Time.ns (State.rdN (bk 4 16 3) wCyc) ≤ max 8960 wCyc.now)) ∧
    ((State.lane 2 wLast).item = some 3 ∧ ((State.batch 3 wLast).cyc = some { t0 := 0, ready := true, items := 1 }) ∧ State.recipe 3 wLast = some a01_1 ∧ (State.runItem 3 0 a01_1 { t0 := 0, ready := true, items := 1 } (State.modLane 2 (fun x => { state := x.state, negRun := x.negRun, testFrom := x.testFrom, testSince := x.testSince, retireCause := x.retireCause, stalled := x.stalled }) (State.begin 5 wLast)) = State.runItem 3 ({ t0 := 0, ready := true, items := 1 } : Cycle).next a01_1 { t0 := 0, ready := true, items := 1 } (State.modLane 2 (fun x => { state := x.state, negRun := x.negRun, testFrom := x.testFrom, testSince := x.testSince, retireCause := x.retireCause, stalled := x.stalled }) (State.begin 5 wLast))) ∧ ((State.runItem 3 0 a01_1 { t0 := 0, ready := true, items := 1 } (State.modLane 2 (fun x => { state := x.state, negRun := x.negRun, testFrom := x.testFrom, testSince := x.testSince, retireCause := x.retireCause, stalled := x.stalled }) (State.begin 5 wLast))).nan = none)) ∧
    (State.batch 3 wCyc).cyc.isSome = true ∧
    (((State.batch 3 wMiss).cyc = some { t0 := 0, ready := true, items := 1 }) ∧ (({ t0 := 0, ready := true, items := 1 } : Cycle).t0 + 32 * State.cycleOf 3 wMiss ≤ max 25000000 wMiss.now + Time.ns (State.lead 3 wMiss))) :=
  by
    repeat refine ⟨by decide +kernel, ?_⟩
    decide +kernel

/-- Witness of the hypotheses of Obligations.LoopSupervisionCompletes, clause by clause. -/
theorem test_witness_LoopSupervisionCompletes :
    (5 < 1024 ∧ 2 ^ State.rdN (key (0x6000 + 5) 13) wFe ≤ (State.fx 5 wFe).ticks) ∧
    (1029 = 1024 + 5 ∧ 2 ^ State.rdN (key (0x6400 + 5) 13) wFe ≤ (State.fl 5 wFe).ticks) ∧
    (State.bit (bk 18 5 3) 4 wOpenN = true ∧ (State.batch 3 wOpenN).openSince + Time.ms (State.rdN (bk 18 3 3) wOpenN) ≤ max 64000000 wOpenN.now ∧ (∀ (b : Recipe), State.recipe 3 wOpenN = some b → State.voltageClean 3 b (State.begin 64000000 wOpenN) = false)) ∧
    (State.recipe 3 wOpen = some a01_1 ∧ State.bit (bk 18 5 3) 4 wOpen = true ∧ State.voltageClean 3 a01_1 (State.begin 5 wOpen) = true) :=
  by
    repeat refine ⟨by decide +kernel, ?_⟩
    decide +kernel

end CycleStages

namespace LaneTestsAndRetirement

def wTest : State := w [(key 0x6530 9, 1)]
def wTestReserve : State := { wTest with fabric := { wTest.fabric with rot := 21 } }
def wDrain : State := (w []).setLane 2 { state := .draining }
def wDrainRetire : State := (w []).setLane 2 { state := .draining, retireCause := some 1 }
def wUnder (x : LaneState) : State := (w []).setLane 2 { state := .underTest, testFrom := x }
def wItem : State := (w []).setLane 2 { state := .home, item := some 3 }
def a02_2 := (wUnder .home)
def a02_3 := (wUnder .reserve)
def wTestRot : State := { wTest with fabric := { wTest.fabric with rot := 2 } }
def wTestFree : State := wTestRot.setLane 2 { state := .free }
def wTestWait : State := (allLanes.foldl (fun (s : State) l => s.setLane l { state := .retired }) wTestRot).setLane 2 { state := .home }
def wTestBusy : State := wTestFree.setLane 2 { state := .free, item := some 3 }

/-- Witness of the hypotheses of Obligations.LaneTestsAndRetirementComplete, clause by clause. -/
theorem test_witness_LaneTestsAndRetirementComplete :
    (State.rdB (key 0x6530 8) wTest = true ∧ (∀ l ∈ allLanes, (State.lane l wTest).state ≠ LaneState.underTest ∧ ((State.lane l wTest).state = LaneState.draining → (State.lane l wTest).retireCause.isSome = true)) ∧ wTest.fabric.lastTest + Time.ms (State.rdN (key 0x6530 9) wTest) ≤ max 12800000 wTest.now ∧ wTest.fabric.rot < 24 ∧ (State.lane wTest.fabric.rot wTest).state = LaneState.home ∧ wTest.freeLane.isSome = true) ∧
    (State.rdB (key 0x6530 8) wTestReserve = true ∧ (∀ l ∈ allLanes, (State.lane l wTestReserve).state ≠ LaneState.underTest ∧ ((State.lane l wTestReserve).state = LaneState.draining → (State.lane l wTestReserve).retireCause.isSome = true)) ∧ wTestReserve.fabric.lastTest + Time.ms (State.rdN (key 0x6530 9) wTestReserve) ≤ max 12800000 wTestReserve.now ∧ wTestReserve.fabric.rot < 24 ∧ (State.lane wTestReserve.fabric.rot wTestReserve).state = LaneState.reserve) ∧
    ((State.lane 2 wDrain).state = LaneState.draining ∧ State.laneEmpty 2 wDrain = true) ∧
    ((State.lane 2 wDrainRetire).state = LaneState.draining ∧ State.laneEmpty 2 wDrainRetire = true) ∧
    ((State.lane 2 a02_2).state = LaneState.underTest ∧ (State.lane 2 a02_2).testSince + Time.ms 2 ≤ max 25600000 a02_2.now) ∧
    ((State.lane 2 a02_3).state = LaneState.underTest ∧ (State.lane 2 a02_3).testSince + Time.ms 2 ≤ max 25600000 a02_3.now) ∧
    (State.lane 2 wItem).item.isSome = true ∧
    (State.rdB (key 0x6530 8) wTestFree = true ∧ (∀ l ∈ allLanes, (State.lane l wTestFree).state ≠ LaneState.underTest ∧ ((State.lane l wTestFree).state = LaneState.draining → (State.lane l wTestFree).retireCause.isSome = true)) ∧ wTestFree.fabric.lastTest + Time.ms (State.rdN (key 0x6530 9) wTestFree) ≤ max 12800000 wTestFree.now ∧ wTestFree.fabric.rot < 24 ∧ (State.lane wTestFree.fabric.rot wTestFree).state = LaneState.free ∧ State.laneEmpty wTestFree.fabric.rot wTestFree = true) ∧
    (State.rdB (key 0x6530 8) wTestWait = true ∧ (∀ l ∈ allLanes, (State.lane l wTestWait).state ≠ LaneState.underTest ∧ ((State.lane l wTestWait).state = LaneState.draining → (State.lane l wTestWait).retireCause.isSome = true)) ∧ wTestWait.fabric.lastTest + Time.ms (State.rdN (key 0x6530 9) wTestWait) ≤ max 12800000 wTestWait.now ∧ wTestWait.fabric.rot < 24 ∧ (State.lane wTestWait.fabric.rot wTestWait).state = LaneState.home ∧ ((State.lane wTestWait.fabric.rot wTestWait).state = LaneState.home ∧ wTestWait.freeLane = none ∨ (State.lane wTestWait.fabric.rot wTestWait).state = LaneState.free ∧ State.laneEmpty wTestWait.fabric.rot wTestWait = false)) ∧
    (State.rdB (key 0x6530 8) wTestBusy = true ∧ (∀ l ∈ allLanes, (State.lane l wTestBusy).state ≠ LaneState.underTest ∧ ((State.lane l wTestBusy).state = LaneState.draining → (State.lane l wTestBusy).retireCause.isSome = true)) ∧ wTestBusy.fabric.lastTest + Time.ms (State.rdN (key 0x6530 9) wTestBusy) ≤ max 12800000 wTestBusy.now ∧ wTestBusy.fabric.rot < 24 ∧ (State.lane wTestBusy.fabric.rot wTestBusy).state = LaneState.free ∧ ((State.lane wTestBusy.fabric.rot wTestBusy).state = LaneState.home ∧ wTestBusy.freeLane = none ∨ (State.lane wTestBusy.fabric.rot wTestBusy).state = LaneState.free ∧ State.laneEmpty wTestBusy.fabric.rot wTestBusy = false)) :=
  by
    repeat refine ⟨by decide +kernel, ?_⟩
    decide +kernel

end LaneTestsAndRetirement

namespace SetpointCommands

def wSp : State := sv [(bk 0xE 5 3, 9), (key 0x6609 1, 3)]
def wSpHeld : State := sv [(bk 0xE 9 3, 5)]
def wStaged : State := bat 3 { staged := [(0, 0x3F800000)] } (sv [(bk 0xE 9 3, 5), (bk 0xE 0xB 3, 1), (bk 0xE 5 3, 9), (key 0x6609 1, 3)])
def wWatch : State := sv [(bk 0xE 0xA 3, 5), (bk 0xE 5 3, 9), (key 0x6609 1, 3)]
def a03_1 := (sv [(bk 1 1 3, 4), (key 0x2000 1, 5)])
def a03_2 := (sv [])
def a03_3 := (sv [(bk 1 1 3, 2), (key 0x2000 1, 5), (bk 0xB 0x11 3, 0x10C), (bk 0xB 0xD 3, 1)])
def a03_4 := (sv [(bk 1 1 3, 2), (key 0x2000 1, 5), (bk 0xB 0x11 3, 4), (bk 0xB 0xD 3, 1), (bk 0 1 3, 1)])
def a03_5 := (sv [(bk 1 1 3, 7), (bk 1 5 3, 1), (bk 0xE 5 3, 9), (key 0x6609 1, 3)])
def a03_6 := (sv [(bk 0x13 2 3, 7)])
def a03_7 := (sv [(bk 1 1 3, 6), (bk 9 7 3, 1)])
def a03_8 := (sv [(bk 1 1 3, 6), (bk 0xA 8 3, 1)])
def a03_9 := (sv [(bk 0xA 0x10 3, 1), (bk 0xA 0x12 3, 1)])
def a03_10 := (bat 3 { vEx := { active := true, inSince := some 0 } } a03_9)
def a03_11 := (sv [(bk 0xA 0x10 3, 1), (bk 0xA 0x12 3, 2)])
def a03_12 := (bat 3 { fEx := { active := true, inSince := some 0 } } a03_11)
def a03_13 := (sv [(key 0x2000 1, 3)])
def a03_14 := (sv [(bk 1 1 3, 7), (bk 0xC 1 3, 1), (bk 0xC 0xB 3, 1)])
def a03_15 := (bat 3 { rs := { liveSince := some 0, winResult := true } } a03_14)
def a03_16 := (sv [(bk 1 1 3, 5), (bk 0xC 1 3, 2), (bk 0xC 0xB 3, 1)])
def a03_17 := (bat 3 { lastT0 := some 12800000, rs := { liveSince := some 0, winResult := true } } a03_16)
def a03_18 := (sv [(bk 1 1 3, 8), (bk 0xC 0xA 3, 1)])
def a03_19 := (bat 3 { rs := { heldSince := some 0, entry := .coast } } a03_18)
def a03_20 := (bat 3 { rs := { heldSince := some 0, entry := .islanded } } a03_18)
def wRs : State := bat 3 { rs := { reqSince := some 0, lostSince := some 0 } } (sv [(bk 1 1 3, 8), (bk 0xC 0xC 3, 1), (bk 0xC 0xD 3, 1), (bk 0xC 0xF 3, 0x40)])
def wPre : State := bat 3 { dcSince := some 0, preSince := 0 } (sv [(bk 1 1 3, 1), (bk 0xB 0xC 3, 1), (bk 0xB 0xA 3, 5)])
def wStart : State := bat 3 { win := { belowSince := some 0 } } (sv [(bk 1 1 3, 2), (bk 0xB 8 3, 1), (bk 0xB 1 3, 4), (bk 0xB 2 3, 5), (bk 0xB 3 3, 6)])
def a03_21 := (sv [(bk 1 1 3, 2), (bk 0xB 9 3, 1)])
def a03_22 := (bat 3 {} a03_21)
def a03_23 := (sv [(bk 1 1 3, 2), (bk 0xB 9 3, 1), (key 0x2000 1, 5), (bk 0xB 1 3, 80)])
def a03_24 := (bat 3 {} a03_23)
def a03_25 := (sv [(bk 1 1 3, 3), (bk 0xB 0x10 3, 1)])

/-- Witness of the hypotheses of Obligations.SetpointCommandsComplete, clause by clause. -/
theorem test_witness_SetpointCommandsComplete :
    (wSp.Serves ∧ State.Passes opReq (0x400E + 32 * 3) (1 + 0) 0 (1056964608) wSp) ∧
    (wSpHeld.Serves ∧ State.Passes opReq (0x400E + 32 * 3) (1 + 3) 0 (1065353216) wSpHeld) ∧
    (State.rdN (bk 14 9 3) wStaged ≠ 0 ∧ State.rdN (bk 14 9 3) wStaged ≤ (State.begin 128 wStaged).tai) ∧
    (State.rdN (bk 14 10 3) wWatch ≠ 0 ∧ State.bit (bk 14 11 3) 1 wWatch = false ∧ (State.batch 3 wWatch).lastWrite + Time.ms (State.rdN (bk 14 10 3) wWatch) ≤ max 64000000 wWatch.now) ∧
    (wSp.Serves ∧ State.Passes hq (0x4015 + 32 * 3) 2 0 1 wSp) :=
  by
    repeat refine ⟨by decide +kernel, ?_⟩
    decide +kernel

/-- Witness of the hypotheses of Obligations.BatchCommandsTakenOrRefused, clause by clause. -/
theorem test_witness_BatchCommandsTakenOrRefused :
    ((2, Instr.batchStop 5 opReq 3) ∈ [(1, Instr.batchStart 5 opReq 3), (2, Instr.batchStop 5 opReq 3), (3, Instr.batchBlock 5 opReq 3), (4, Instr.batchRelease 5 opReq 3), (5, Instr.faultReset 5 opReq 3), (6, Instr.batchIsland 5 opReq 3), (7, Instr.batchResync 5 opReq 3), (8, Instr.batchBlackStart 5 opReq 3)] ∧ a03_1.Serves ∧ State.Passes opReq (0x4002 + 32 * 3) 1 0 2 a03_1 ∧ State.permitted 3 2 a03_1 = true ∧ (2 = 8 → State.rampOk 3 a03_1 = true)) ∧
    ((3, Instr.batchBlock 5 opReq 3) ∈ [(1, Instr.batchStart 5 opReq 3), (2, Instr.batchStop 5 opReq 3), (3, Instr.batchBlock 5 opReq 3), (4, Instr.batchRelease 5 opReq 3), (5, Instr.faultReset 5 opReq 3), (6, Instr.batchIsland 5 opReq 3), (7, Instr.batchResync 5 opReq 3), (8, Instr.batchBlackStart 5 opReq 3)] ∧ a03_2.Serves ∧ State.Passes opReq (0x4002 + 32 * 3) 1 0 3 a03_2 ∧ State.permitted 3 3 a03_2 = false) ∧
    ((8, Instr.batchBlackStart 5 opReq 3) ∈ [(1, Instr.batchStart 5 opReq 3), (2, Instr.batchStop 5 opReq 3), (3, Instr.batchBlock 5 opReq 3), (4, Instr.batchRelease 5 opReq 3), (5, Instr.faultReset 5 opReq 3), (6, Instr.batchIsland 5 opReq 3), (7, Instr.batchResync 5 opReq 3), (8, Instr.batchBlackStart 5 opReq 3)] ∧ a03_3.Serves ∧ State.Passes opReq (0x4002 + 32 * 3) 1 0 8 a03_3 ∧ State.permitted 3 8 a03_3 = false) ∧
    ((8, Instr.batchBlackStart 5 opReq 3) ∈ [(1, Instr.batchStart 5 opReq 3), (2, Instr.batchStop 5 opReq 3), (3, Instr.batchBlock 5 opReq 3), (4, Instr.batchRelease 5 opReq 3), (5, Instr.faultReset 5 opReq 3), (6, Instr.batchIsland 5 opReq 3), (7, Instr.batchResync 5 opReq 3), (8, Instr.batchBlackStart 5 opReq 3)] ∧ a03_4.Serves ∧ State.Passes opReq (0x4002 + 32 * 3) 1 0 8 a03_4 ∧ State.permitted 3 8 a03_4 = true ∧ State.rampOk 3 a03_4 = false) :=
  by
    repeat refine ⟨by decide +kernel, ?_⟩
    decide +kernel

/-- Witness of the hypotheses of Obligations.RideThroughCommandsComplete, clause by clause. -/
theorem test_witness_RideThroughCommandsComplete :
    (State.bstate 3 a03_5 = BatchState.coast ∧ State.rdN (bk 1 5 3) a03_5 ≠ 0 ∧ (State.batch 3 a03_5).since + Time.sec (State.rdN (bk 1 5 3) a03_5) ≤ max 12800000000 a03_5.now ∧ (State.batch 3 a03_5).stopping = false) ∧
    (a03_6.Serves ∧ State.Passes hq (0x4013 + 32 * 3) 9 0 1 a03_6) ∧
    (State.bstate 3 a03_7 = BatchState.currentLimited ∧ State.rdN (bk 9 7 3) a03_7 ≠ 0 ∧ (State.batch 3 a03_7).since + Time.ms (State.rdN (bk 9 7 3) a03_7) ≤ max 12800000 a03_7.now ∧ (State.batch 3 a03_7).tooLong = false ∧ (State.batch 3 a03_7).demands = []) ∧
    (State.bstate 3 a03_8 = BatchState.currentLimited ∧ (State.batch 3 a03_8).since + Time.ms (State.rdN (bk 10 8 3) a03_8) ≤ max 12800000 a03_8.now) ∧
    (((if false = true then (State.batch 3 a03_10).fEx else (State.batch 3 a03_10).vEx).active = true) ∧ ((if false = true then (State.batch 3 a03_10).fEx else (State.batch 3 a03_10).vEx).inSince = some 0) ∧ 0 + Time.ms (State.rdN (bk 10 16 3) a03_10) ≤ max 12800000 a03_10.now) ∧
    (((if true = true then (State.batch 3 a03_12).fEx else (State.batch 3 a03_12).vEx).active = true) ∧ ((if true = true then (State.batch 3 a03_12).fEx else (State.batch 3 a03_12).vEx).inSince = some 0) ∧ 0 + Time.ms (State.rdN (bk 10 16 3) a03_12) ≤ max 12800000 a03_12.now) ∧
    (a03_13.Serves ∧ State.PassesBlob hq (33792 + 4 * 3 + 1) 1 [1] a03_13 ∧ (a03_13.mod = ModState.configuration ∨ State.bstate 3 a03_13 = BatchState.off) ∧ [1] ≠ []) :=
  by
    repeat refine ⟨by decide +kernel, ?_⟩
    decide +kernel

/-- Witness of the hypotheses of Obligations.ResyncCommandsComplete, clause by clause. -/
theorem test_witness_ResyncCommandsComplete :
    ((State.bstate 3 a03_15 = BatchState.coast ∧ State.bit (bk 12 1 3) 0 a03_15 = true ∨ State.bstate 3 a03_15 = BatchState.islanded ∧ State.bit (bk 12 1 3) 1 a03_15 = true) ∧ (State.batch 3 a03_15).rs.liveSince = some 0 ∧ (State.batch 3 a03_15).rs.winResult = true ∧ 0 + Time.ms (State.rdN (bk 12 11 3) a03_15) ≤ max 12800000 a03_15.now ∧ (State.batch 3 a03_15).stopping = false) ∧
    ((State.bstate 3 a03_17 = BatchState.coast ∧ State.bit (bk 12 1 3) 0 a03_17 = true ∨ State.bstate 3 a03_17 = BatchState.islanded ∧ State.bit (bk 12 1 3) 1 a03_17 = true) ∧ (State.batch 3 a03_17).rs.liveSince = some 0 ∧ (State.batch 3 a03_17).rs.winResult = true ∧ 0 + Time.ms (State.rdN (bk 12 11 3) a03_17) ≤ max 12800000 a03_17.now ∧ (State.batch 3 a03_17).stopping = false ∧ (State.batch 3 a03_17).lastT0 = some (max 12800000 a03_17.now)) ∧
    (State.bstate 3 a03_19 = BatchState.resync ∧ (State.batch 3 a03_19).rs.heldSince = some 0 ∧ 0 + Time.ms (State.rdN (bk 12 10 3) a03_19) ≤ max 12800000 a03_19.now) ∧
    (State.bstate 3 a03_20 = BatchState.resync ∧ (State.batch 3 a03_20).rs.heldSince = some 0 ∧ 0 + Time.ms (State.rdN (bk 12 10 3) a03_20) ≤ max 12800000 a03_20.now) ∧
    (State.bstate 3 wRs = BatchState.resync ∧ (State.batch 3 wRs).rs.ending = none ∧ (State.batch 3 wRs).rs.reqSince = some 0 ∧ 0 + Time.ms (State.rdN (bk 12 13 3) wRs) ≤ max 12800000 wRs.now ∧ State.bit (bk 12 15 3) 6 wRs = true) ∧
    (State.bstate 3 wRs = BatchState.resync ∧ (State.batch 3 wRs).rs.ending = none ∧ (State.batch 3 wRs).rs.since + Time.ms (State.rdN (bk 12 12 3) wRs) ≤ max 12800000 wRs.now) ∧
    (State.bstate 3 wRs = BatchState.resync ∧ (State.batch 3 wRs).rs.ending = none ∧ (State.batch 3 wRs).rs.lostSince = some 0 ∧ 0 + Time.sec 1 ≤ max 12800000000 wRs.now) :=
  by
    repeat refine ⟨by decide +kernel, ?_⟩
    decide +kernel

/-- Witness of the hypotheses of Obligations.StarterCommandsComplete, clause by clause. -/
theorem test_witness_StarterCommandsComplete :
    (State.bstate 3 wPre = BatchState.precharge ∧ State.dcLevel 3 wPre ≠ none ∧ (State.batch 3 wPre).dcSince = some 0 ∧ 0 + Time.ms 10 ≤ max 128000000 wPre.now ∧ State.prestartOk 3 wPre = true) ∧
    (State.bstate 3 wPre = BatchState.precharge ∧ (State.batch 3 wPre).preSince + Time.ms (State.rdN (bk 11 12 3) wPre) ≤ max 128000000 wPre.now ∧ wPre.commands = true) ∧
    (State.bstate 3 wStart = BatchState.starter ∧ State.windowTimedOut 3 (State.begin 128000000000 wStart) = true ∧ State.rdN (bk 11 13 3) wStart ≠ 2 ∧ State.waitOver 3 (State.begin 128000000000 wStart) = false) ∧
    (State.bstate 3 wStart = BatchState.starter ∧ State.bit (bk 11 17 3) 2 wStart = false ∧ (∀ c ∈ State.busChains 3 wStart, c < 80) ∧ (State.batch 3 wStart).win.belowSince = some 0 ∧ State.busMax 3 wStart < fval (State.rdF (bk 11 7 3) wStart) ∧ 0 + Time.ms (State.rdN (bk 11 8 3) wStart) ≤ max 128000000 wStart.now) ∧
    (State.bstate 3 a03_22 = BatchState.starter ∧ State.waitOver 3 (State.begin 12800000000000000 a03_22) = true ∧ State.windowFull 3 (State.begin 12800000000000000 a03_22) = false ∧ a03_22.mod ≠ ModState.running) ∧
    (State.bstate 3 a03_24 = BatchState.starter ∧ State.waitOver 3 (State.begin 12800000000000000 a03_24) = true ∧ State.windowFull 3 (State.begin 12800000000000000 a03_24) = false ∧ a03_24.mod = ModState.running ∧ State.rdN (bk 11 13 3) a03_24 ≠ 2) ∧
    (State.bstate 3 a03_25 = BatchState.blackStart ∧ (State.batch 3 a03_25).since + Time.ms (State.rdN (bk 11 16 3) a03_25) ≤ max 128000000 a03_25.now ∧ a03_25.commands = true) :=
  by
    repeat refine ⟨by decide +kernel, ?_⟩
    decide +kernel

end SetpointCommands

namespace BankWritesWaitAndJobsRun

def wJob : State := bat 3 { jobs := [(.target 9 0x3F800000, hq), (.copyBanks, hq)] } (sv [(key 0x6609 1, 3)])
def wJob2 : State := bat 3 { jobs := [(.bankWord 5 true 0 7, hq)] } (sv [(key 0x6005 1, 3), (bk 0x14 3 3, 1)])
def wOwn : State := sv [(key 0x6005 1, 3), (key 0x6405 1, 3), (key 0x2000 1, 3), (key 0x6609 1, 3)]
def a04_1 := (sv [])
def wGen : State := w [(key 0x2100 6, 2), (key 0x2000 1, 3), (key 0x6609 1, 3), (key 0x6609 0xB, 0x3F000000)]
def wGenNo : State := w [(key 0x2100 6, 2), (key 0x2000 1, 3), (key 0x660A 0xB, 0x3F000000), (key 0x660A 1, 0xFF)]
def wGenOut : State := bat 3 { outOn := true } wGen
def rampImg : List Byte := image 0 4000 2 1 0 0 1 (block 0x8E 1 9 1 0 0 0 0 []) (d8 4 ++ d8 1 ++ d16 9 ++ resEnd0) []
def wBs : State := (wGen.wr (bk 1 1 3) 3).wrBlob (key 0x8003 1) rampImg
def wJobH : State := bat 3 { jobs := [(.command 9 1 0, hq)] } wGen
def wJobR : State := bat 3 { jobs := [(.command 9 2 0, hq)] } wGen
def wJobP : State := bat 3 { jobs := [(.command 9 3 0x3F000000, hq)] } wGen
def wJobPb : State := bat 3 { outOn := true, jobs := [(.command 9 3 0x3F000000, hq)] } wGen
def wJobS (x : Nat) : State := bat 3 { jobs := [(.scale 4 x, hq)] } (wGen.wr (bk 7 4 3) 0x3F800000)
def a04_2 := (wJobS 0x43C80000)
def a04_3 := (wJobS 0)

/-- Witness of the hypotheses of Obligations.BankWritesWaitAndJobsRun, clause by clause. -/
theorem test_witness_BankWritesWaitAndJobsRun :
    ((State.batch 3 wJob).cyc = none ∧ (State.batch 3 wJob).jobs = [(Job.target 9 1065353216, hq), (Job.copyBanks, hq)]) ∧
    ((State.batch 3 wJob2).cyc = none ∧ (State.batch 3 wJob2).jobs = [(Job.bankWord 5 true 0 7, hq)]) ∧
    (wOwn.Serves ∧ State.Passes hq (slotIndex 5) (bankSub 5 false 0) 0 7 wOwn ∧ State.activeB 5 wOwn = false) ∧
    (wOwn.Serves ∧ State.Passes hq (slotIndex 5) (bankSub 5 true 0) 0 7 wOwn ∧ State.activeB 5 wOwn ≠ true ∧ (if 5 < 1024 then 0 ≠ 5 ∨ expsOk 7 = true else coeffOk 7 = true) ∧ State.slotOwner 5 wOwn < 32) ∧
    (wOwn.Serves ∧ State.Passes hq (slotIndex 5) (bankSub 5 true 5) 0 4294967295 wOwn ∧ State.activeB 5 wOwn ≠ true ∧ (¬if 5 < 1024 then 5 ≠ 5 ∨ expsOk 4294967295 = true else coeffOk 4294967295 = true)) ∧
    (wOwn.Serves ∧ State.Passes hq (slotIndex 1029) (bankSub 1029 true 3) 0 1065353216 wOwn ∧ State.activeB 1029 wOwn ≠ true ∧ (if 1029 < 1024 then 3 ≠ 5 ∨ expsOk 1065353216 = true else coeffOk 1065353216 = true) ∧ State.slotOwner 1029 wOwn < 32) ∧
    (wOwn.Serves ∧ State.Passes hq (slotIndex 1029) (bankSub 1029 true 3) 0 2139095040 wOwn ∧ State.activeB 1029 wOwn ≠ true ∧ (¬if 1029 < 1024 then 3 ≠ 5 ∨ expsOk 2139095040 = true else coeffOk 2139095040 = true)) ∧
    (wOwn.Serves ∧ State.Passes hq (slotIndex 5) (stateSub 5 0) 0 77 wOwn ∧ (1024 ≤ 5 ∨ unsigned 64 (signed 40 77) = 77) ∧ State.slotOwner 5 wOwn < 32) ∧
    (wOwn.Serves ∧ State.Passes hq (slotIndex 1029) (stateSub 1029 2) 0 77 wOwn ∧ (1024 ≤ 1029 ∨ unsigned 64 (signed 40 77) = 77) ∧ State.slotOwner 1029 wOwn < 32) ∧
    (wOwn.Serves ∧ State.Passes hq (0x4014 + 32 * 3) 4 0 1 wOwn) ∧
    (wOwn.Serves ∧ State.Passes hq (0x4014 + 32 * 3) 2 0 1 wOwn) ∧
    (a04_1.Serves ∧ State.Passes hq (0x4014 + 32 * 3) 2 0 1 a04_1) ∧
    (wOwn.Serves ∧ (State.Passes hq (0x4005 + 32 * 3) (if true = true then 5 else 4) 0 (1065353216) wOwn) ∧ (true = true ∨ State.viewVal 3 7 4 wOwn ≤ fval 1065353216)) ∧
    (wOwn.Serves ∧ (State.Passes hq (0x4005 + 32 * 3) (if false = true then 5 else 4) 0 (1073741824) wOwn) ∧ (false = true ∨ State.viewVal 3 7 4 wOwn ≤ fval 1073741824)) ∧
    ((State.batch 3 wJobH).cyc = none ∧ (State.batch 3 wJobH).jobs = [(Job.command 9 1 0, hq)]) ∧
    ((State.batch 3 wJobR).cyc = none ∧ (State.batch 3 wJobR).jobs = [(Job.command 9 2 0, hq)]) ∧
    ((State.batch 3 wJobP).cyc = none ∧ (State.batch 3 wJobP).jobs = [(Job.command 9 3 1056964608, hq)]) ∧
    ((State.batch 3 wJobPb).cyc = none ∧ (State.batch 3 wJobPb).jobs = [(Job.command 9 3 1056964608, hq)]) ∧
    ((State.batch 3 a04_2).cyc = none ∧ (State.batch 3 a04_2).jobs = [(Job.scale 4 1137180672, hq)]) ∧
    ((State.batch 3 a04_3).cyc = none ∧ (State.batch 3 a04_3).jobs = [(Job.scale 4 0, hq)]) ∧
    ((State.wr (bk 7 4 3) 1065353216 wGen).Serves ∧ State.Passes hq (0x4005 + 32 * 3) 4 0 (1056964608) (State.wr (bk 7 4 3) 1065353216 wGen) ∧ (State.batch 3 (State.wr (bk 7 4 3) 1065353216 wGen)).jobs = [] ∧ fval 1056964608 < State.viewVal 3 7 4 (State.wr (bk 7 4 3) 1065353216 wGen)) :=
  by
    repeat refine ⟨by decide +kernel, ?_⟩
    decide +kernel

/-- Witness of the hypotheses of Obligations.GeneratorCommandsComplete, clause by clause. -/
theorem test_witness_GeneratorCommandsComplete :
    (wGen.Serves ∧ State.Passes opReq (0x6600 + 9) 2 0 (1056964608) wGen ∧ State.rdN (key (0x6600 + 9) 1) wGen < 32 ∧ (State.bstate (State.rdN (key (0x6600 + 9) 1) wGen) wGen ≠ BatchState.blackStart ∨ ∀ (r : Recipe), State.recipe (State.rdN (key (0x6600 + 9) 1) wGen) wGen = some r → 9 ∉ r.ramps)) ∧
    (wGenNo.Serves ∧ State.Passes opReq (0x6600 + 10) 2 0 (1056964608) wGenNo ∧ 32 ≤ State.rdN (key (0x6600 + 10) 1) wGenNo) ∧
    (wBs.Serves ∧ State.Passes opReq (0x6600 + 9) 2 0 (1056964608) wBs ∧ State.rdN (key (0x6600 + 9) 1) wBs < 32 ∧ State.bstate (State.rdN (key (0x6600 + 9) 1) wBs) wBs = BatchState.blackStart ∧ (∃ r, State.recipe (State.rdN (key (0x6600 + 9) 1) wBs) wBs = some r ∧ 9 ∈ r.ramps)) ∧
    ((1, Instr.genHold 5 opReq 9) ∈ [(1, Instr.genHold 5 opReq 9), (2, Instr.genRelease 5 opReq 9), (3, Instr.genPreset 5 opReq 9)] ∧ wGen.Serves ∧ State.Passes opReq (0x6600 + 9) 10 0 1 wGen ∧ (1 = 3 → State.genOutOn 9 wGen = false) ∧ State.rdN (key (0x6600 + 9) 1) wGen < 32) ∧
    ((2, Instr.genRelease 5 opReq 9) ∈ [(1, Instr.genHold 5 opReq 9), (2, Instr.genRelease 5 opReq 9), (3, Instr.genPreset 5 opReq 9)] ∧ wGen.Serves ∧ State.Passes opReq (0x6600 + 9) 10 0 2 wGen ∧ (2 = 3 → State.genOutOn 9 wGen = false) ∧ State.rdN (key (0x6600 + 9) 1) wGen < 32) ∧
    ((3, Instr.genPreset 5 opReq 9) ∈ [(1, Instr.genHold 5 opReq 9), (2, Instr.genRelease 5 opReq 9), (3, Instr.genPreset 5 opReq 9)] ∧ wGen.Serves ∧ State.Passes opReq (0x6600 + 9) 10 0 3 wGen ∧ (3 = 3 → State.genOutOn 9 wGen = false) ∧ State.rdN (key (0x6600 + 9) 1) wGen < 32) ∧
    (wGenNo.Serves ∧ 32 ≤ State.rdN (key (0x6600 + 10) 1) wGenNo ∧ State.Passes opReq (0x6600 + 10) 10 0 1 wGenNo ∧ State.Passes opReq (0x6600 + 10) 10 0 2 wGenNo ∧ State.Passes opReq (0x6600 + 10) 10 0 3 wGenNo) ∧
    (wGenOut.Serves ∧ State.Passes opReq (0x6600 + 9) 10 0 3 wGenOut ∧ State.rdN (key (0x6600 + 9) 1) wGenOut < 32 ∧ (State.batch (State.rdN (key (0x6600 + 9) 1) wGenOut) wGenOut).outOn = true) :=
  by
    repeat refine ⟨by decide +kernel, ?_⟩
    decide +kernel

end BankWritesWaitAndJobsRun

namespace PwmLoadsAndBlocks

def wLoads : State := bat 3 { loads := [(5, [(7, 900)]), (900, [(7, 1)])] } (sv [])
def wDue : State := bat 3 { outDue := some 5 } (sv [(bk 1 1 3, 4)])
def wChan : State := bat 3 { outOn := true } (sv [(key 0x2100 3, 2), (chk 7 1, 3), (chk 7 2, 1), (chk 7 0xB, 9000)])
def wChanA : State := (wChan.wr (chk 7 2) 2).wr (chk 7 8) 1
def wChan0 : State := wChan.wr (chk 7 2) 0
def wBlk : State := bat 3 { outOn := true } (sv [(bk 1 1 3, 4), (key 0x3200 0xB, 8)])
def wTd : State := sv [(key 0x2000 1, 3), (chk 7 1, 3), (chk 7 2, 1), (chk 7 0x15, 1)]
def a05_1 := (sv [(key 0x2000 1, 3)])
def wBoot : State := { wChan with pwm := { wChan.pwm with chans := [(7, { waiting := false, up := true })] } }.wr (key 0x3102 1) 7
def wRech : State := { wBoot with pwm := { wBoot.pwm with chans := [(7, { waiting := false, recharging := true })] } }.wr (key 0x3102 8) 4
def wNorm : State := { wBoot with pwm := { wBoot.pwm with bypass := false, waitNormal := [3, 4] } }
def wShadow : State := { w [(key 0x3200 9, 1)] with pwm := { State.reset.pwm with slices := [(256, { state := .shadowing, shadows := some 7 })] } }
def wSt : State := { w [] with pwm := { State.reset.pwm with slices := [(7, { state := .underTest })] } }
def wCal : State := wShadow.wr (key 0x2100 3) 2
def wTake : State := { w [(chk 7 1, 3), (key 0x2100 3, 2)] with pwm := { State.reset.pwm with slices := [(7, { state := .serving, channel := some 7, retireCause := some 2 }), (256, { state := .shadowing, shadows := some 7 })] } }
def wTakeT : State := { wTake with pwm := { wTake.pwm with slices := [(7, { state := .serving, channel := some 7, testDue := true }), (256, { state := .shadowing, shadows := some 7 })] } }
def wGate : State := { wChan with power := { wChan.power with inserted := true, proofHeld := true }, pwm := { wChan.pwm with chans := [(7, { waiting := false, up := true })] }, aux := { wChan.aux with blanked := [(4, 3)] } }.wr (key 0x3102 1) 7 |>.wr (xk 2 4) 300
def wDc (x : Int) : State := sv [(key 0x3102 1, 7), (chk 7 1, 3), (bk 1 1 3, x), (key 0x3102 8, 3), (key 0x3102 2, 1), (key 0x2000 1, 3)]
def a05_2 := (wDc 0)
def a05_3 := (wDc 4)
def wDg : State := sv [(key 0x3102 2, 1), (key 0x2000 1, 3)]
def wDiag (st : Nat) : State := { w [(key 0x3102 2, 1)] with aux := { run := some (2, st), since := 0 } }
def a05_4 := (wDiag 1)
def a05_5 := (wDiag 2)
def wChanN : State := wChan.wr (chk 7 2) 3
def wWin : State := wChanN.wr (bk 4 1 3) 200
def pWin : PairOut := loadPair 6400 true (wWin.rdN (chk 7 7)) (wWin.rdN (chk 7 9)) (wWin.refreshApplies 7) 9000 0

/-- Witness of the hypotheses of Obligations.PwmLoadsAndBlocksComplete, clause by clause. -/
theorem test_witness_PwmLoadsAndBlocksComplete :
    (State.formPair 3 7 (State.begin 5 wChanA) = State.formPair 3 7 (State.begin 5 wChanA) ∧ State.ownerOf 7 wChanA = some 3 ∧ State.atLoad 7 (State.begin 5 wChanA) = true ∧ State.rdN (chk 7 2) wChanA ≠ 3 ∧ (State.testDrives 7 (State.begin 5 wChanA) = true ∨ (State.batch 3 wChanA).outOn = true) ∧ (∀ l ∈ (State.batch 3 wChanA).loads, max 5 wChanA.now < l.1) ∧ (State.batch 3 wChanA).outDue = none ∧ (State.slice (State.servingSlice 7 wChanA) wChanA).retireCause = none ∧ (State.slice (State.servingSlice 7 wChanA) wChanA).testDue = false) ∧
    ((∃ b, wTd.mod = ModState.configuration ∧ State.rdB (chk 7 21) wTd = true ∧ (State.rdN (chk 7 2) wTd = 1 ∨ State.rdN (chk 7 2) wTd = 2) ∧ State.ownerOf 7 wTd = some b ∧ State.bstate b wTd = BatchState.off) ∧ wTd.Serves ∧ State.Passes hq (0x3000 + 7) 20 0 900 wTd) ∧
    (State.ownerOf 7 wChan0 = some 3 ∧ State.atLoad 7 (State.begin 5 wChan0) = true ∧ State.rdN (chk 7 2) wChan0 ≠ 3 ∧ (State.testDrives 7 (State.begin 5 wChan0) = true ∨ (State.batch 3 wChan0).outOn = true) ∧ (∀ l ∈ (State.batch 3 wChan0).loads, max 5 wChan0.now < l.1) ∧ (State.batch 3 wChan0).outDue = none ∧ (State.slice (State.servingSlice 7 wChan0) wChan0).retireCause = none ∧ (State.slice (State.servingSlice 7 wChan0) wChan0).testDue = false ∧ State.formPair 3 7 (State.begin 5 wChan0) = State.formPair 3 7 (State.begin 5 wChan0)) ∧
    (((List.filter (fun l => decide (l.1 ≤ max 5 wLoads.now)) (State.batch 3 wLoads).loads).getLast? = some (5, [(7, 900)])) ∧ Tbl.Sorted (5, [(7, 900)]).2 ∧ (State.batch 3 wLoads).outDue = none) ∧
    ((State.batch 3 wDue).outDue = some 5 ∧ 5 ≤ max 5 wDue.now ∧ State.inputBlocks 3 wDue = false ∧ (State.bstate 3 wDue).running = true ∧ (∀ l ∈ (State.batch 3 wDue).loads, ∀ e ∈ l.2, e.1 < 256)) ∧
    (State.ownerOf 7 wChan = some 3 ∧ State.atLoad 7 (State.begin 5 wChan) = true ∧ State.rdN (chk 7 2) wChan ≠ 3 ∧ (State.testDrives 7 (State.begin 5 wChan) = true ∨ (State.batch 3 wChan).outOn = true) ∧ (∀ l ∈ (State.batch 3 wChan).loads, max 5 wChan.now < l.1) ∧ (State.batch 3 wChan).outDue = none ∧ (State.slice (State.servingSlice 7 wChan) wChan).retireCause = none ∧ (State.slice (State.servingSlice 7 wChan) wChan).testDue = false ∧ State.formPair 3 7 (State.begin 5 wChan) = State.formPair 3 7 (State.begin 5 wChan)) ∧
    wBlk.pwm.low.getD 0 false = false ∧
    (a05_1.Serves ∧ State.Passes hq (0x3000 + 7) 20 0 900 a05_1 ∧ (a05_1.mod ≠ ModState.configuration ∨ State.rdB (chk 7 21) a05_1 = false ∨ State.ownerOf 7 a05_1 = none)) ∧
    (State.ownerOf 7 wChanN = some 3 ∧ State.rdN (chk 7 2) wChanN = 3 ∧ (∀ l ∈ (State.batch 3 wChanN).loads, max 5 wChanN.now < l.1) ∧ (State.batch 3 wChanN).outDue = none) ∧
    ((3200 = if State.doubleUp 3 wWin = true then State.fineF 3 wWin / 2 else State.fineF 3 wWin) ∧ 0 < 3200 ∧ 6300 = State.carrierPos 3 (State.rdN (chk 7 5) wWin) 6300 wWin ∧ (pWin = loadPair (State.fineF 3 wWin) (State.doubleUp 3 wWin) (State.rdN (chk 7 7) wWin) (State.rdN (chk 7 9) wWin) (State.refreshApplies 7 wWin) 9000 (if (State.chan 7 wWin).waiting = true then 0 else State.rd (chk 7 14) wWin)) ∧ (3200 - 6300 % 3200) % 3200 < 400) ∧
    ((3200 = if State.doubleUp 3 wWin = true then State.fineF 3 wWin / 2 else State.fineF 3 wWin) ∧ 0 < 3200 ∧ 6300 = State.carrierPos 3 (State.rdN (chk 7 5) wWin) 6300 wWin ∧ (pWin = loadPair (State.fineF 3 wWin) (State.doubleUp 3 wWin) (State.rdN (chk 7 7) wWin) (State.rdN (chk 7 9) wWin) (State.refreshApplies 7 wWin) 9000 (if (State.chan 7 wWin).waiting = true then 0 else State.rd (chk 7 14) wWin)) ∧ 100 ≤ (3200 - 6300 % 3200) % 3200) :=
  ⟨⟨rfl,
   by decide +kernel⟩,
   ⟨⟨3, by decide +kernel⟩,
   by decide +kernel⟩,
   by
    repeat refine ⟨by decide +kernel, ?_⟩
    decide +kernel⟩

/-- Witness of the hypotheses of Obligations.SlicesAndBootstrapComplete, clause by clause. -/
theorem test_witness_SlicesAndBootstrapComplete :
    (State.driverChan 2 wBoot = some 7 ∧ State.ownerOf 7 wBoot = some 3 ∧ (State.batch 3 wBoot).outOn = true ∧ (State.chan 7 wBoot).waiting = false ∧ (State.chan 7 wBoot).recharging = false) ∧
    (State.driverChan 2 wRech = some 7 ∧ (State.chan 7 wRech).recharging = true ∧ (State.chan 7 wRech).lowAt + Time.us (State.rdN (chk 7 22) wRech) ≤ max 500000000000 wRech.now) ∧
    State.rdN (key 0x2100 3) wCal = 2 ∧
    State.rdN (key 0x2100 3) wShadow ≠ 2 ∧
    wNorm.pwm.bypass = false ∧
    (wNorm.pwm.bypass = false ∧ 3 ∈ wNorm.pwm.waitNormal ∧ State.atBoundary 3 (State.begin 5 wNorm) = true) ∧
    (State.shadowOf 7 wShadow = some 256 ∧ 256 ≠ 7 ∧ (State.slice 7 wShadow).channel = some 7 ∧ State.rdB (key 0x3200 8) wShadow = true ∧ (State.slice 256 wShadow).since + Time.ms (State.rdN (key 0x3200 9) wShadow) ≤ max 12800000 wShadow.now ∧ State.ownerOf 7 wShadow = none) ∧
    ((State.slice 7 wSt).state = SpareState.underTest ∧ (State.slice 7 wSt).since + Time.ms 1 ≤ max 12800000 wSt.now ∧ (State.slice 7 wSt).retireCause = none) ∧
    (7 = State.servingSlice 7 wTake ∧ State.atLoad 7 (State.begin 1600000 wTake) = true ∧ State.shadowReady 7 7 (State.begin 1600000 wTake) = some 256 ∧ 256 ≠ 7 ∧ (State.slice 7 wTake).channel = some 7 ∧ ((State.slice 7 wTake).retireCause.isSome = true ∨ (State.slice 7 wTake).testDue = true)) ∧
    (7 = State.servingSlice 7 wTakeT ∧ State.atLoad 7 (State.begin 1600000 wTakeT) = true ∧ State.shadowReady 7 7 (State.begin 1600000 wTakeT) = some 256 ∧ 256 ≠ 7 ∧ (State.slice 7 wTakeT).channel = some 7 ∧ ((State.slice 7 wTakeT).retireCause.isSome = true ∨ (State.slice 7 wTakeT).testDue = true)) ∧
    (State.shadowOf 7 (State.wr (bk 4 1 3) 200 (State.wr (chk 7 1) 3 wShadow)) = some 256 ∧ 256 ≠ 7 ∧ (State.slice 7 (State.wr (bk 4 1 3) 200 (State.wr (chk 7 1) 3 wShadow))).channel = some 7 ∧ State.rdB (key 0x3200 8) (State.wr (bk 4 1 3) 200 (State.wr (chk 7 1) 3 wShadow)) = true ∧ (State.slice 256 (State.wr (bk 4 1 3) 200 (State.wr (chk 7 1) 3 wShadow))).since + Time.ms (State.rdN (key 0x3200 9) (State.wr (bk 4 1 3) 200 (State.wr (chk 7 1) 3 wShadow))) ≤ max 12800999 (State.wr (bk 4 1 3) 200 (State.wr (chk 7 1) 3 wShadow)).now ∧ State.ownerOf 7 (State.wr (bk 4 1 3) 200 (State.wr (chk 7 1) 3 wShadow)) ≠ none ∧ State.atLoad 7 (State.begin 12800999 (State.wr (bk 4 1 3) 200 (State.wr (chk 7 1) 3 wShadow))) = false) :=
  by
    repeat refine ⟨by decide +kernel, ?_⟩
    decide +kernel

/-- Witness of the hypotheses of Obligations.DriverCommandsComplete, clause by clause. -/
theorem test_witness_DriverCommandsComplete :
    (9999 < 10000 ∧ 9999 < 61000 ∧ 9999 < 12000) ∧
    (62000 < 62001 ∧ 10400 < 62001 ∧ 12500 < 62001) ∧
    (10400 < 12000 ∧ 12000 < 61000) ∧
    (State.gateOn 2 true (State.begin 128000000 wGate) = some 0 ∧ 0 + Time.ns (State.rdN (xk 2 5) wGate) ≤ max 128000000 wGate.now) ∧
    ((State.gateOn 2 ({ high := true, sense := 0, bridge := 24000, held := 9000 } : DrainSense).high (State.begin 128000000 wGate) = some 0) ∧ (Tbl.find? (2 * 2 + b2n !({ high := true, sense := 0, bridge := 24000, held := 9000 } : DrainSense).high) wGate.aux.blanked = some 3) ∧ 0 ≤ 3 ∧ (↑(State.rdN (xk 2 4) wGate) < drainVoltage { high := true, sense := 0, bridge := 24000, held := 9000 }) ∧ (State.rdN (xk 2 6) wGate ≤ ({ high := true, sense := 0, bridge := 24000, held := 9000 } : DrainSense).held) ∧ 3 + Time.ns (State.rdN (xk 2 6) wGate) ≤ max 128000000 wGate.now) ∧
    (a05_2.Serves ∧ State.Passes hq (0x3100 + 2) 10 0 1 a05_2 ∧ (∀ (b : ℕ), State.driverBatch 2 a05_2 = some b → State.bstate b a05_2 = BatchState.off ∨ State.bstate b a05_2 = BatchState.blocked ∨ State.bstate b a05_2 = BatchState.fault)) ∧
    (a05_3.Serves ∧ State.Passes hq (0x3100 + 2) 10 0 1 a05_3 ∧ State.driverBatch 2 a05_3 = some 3 ∧ State.bstate 3 a05_3 = BatchState.connected) ∧
    (wDg.Serves ∧ State.Passes hq (0x3100 + 2) 14 0 1 wDg ∧ 24000 < 65536 ∧ (∀ (b : ℕ), State.driverBatch 2 wDg = some b → State.bstate b wDg = BatchState.off) ∧ 12000 ≤ 24000 ∧ 24000 ≤ 60000 ∧ State.bit (key 0x3106 3) 0 wDg = false ∧ (State.rdN (xk 2 2) wDg = 1 ∨ State.rdN (xk 2 2) wDg = 2) ∧ wDg.aux.run = none ∧ wDg.aux.waiting = []) ∧
    (wDg.Serves ∧ State.Passes hq (0x3100 + 2) 14 0 1 wDg ∧ 11999 < 65536 ∧ (∀ (b : ℕ), State.driverBatch 2 wDg = some b → State.bstate b wDg = BatchState.off) ∧ (11999 < 12000 ∨ 60000 < 11999)) ∧
    (wDg.Serves ∧ State.Passes hq (0x3100 + 2) 14 0 1 wDg ∧ 60000 < 65536 ∧ (∀ (b : ℕ), State.driverBatch 2 wDg = some b → State.bstate b wDg = BatchState.off) ∧ 12000 ≤ 60000 ∧ 60000 ≤ 60000 ∧ State.bit (key 0x3106 3) 0 wDg = false ∧ (State.rdN (xk 2 2) wDg = 1 ∨ State.rdN (xk 2 2) wDg = 2) ∧ wDg.aux.run = none ∧ wDg.aux.waiting = []) ∧
    (a05_4.aux.run = some (2, 1) ∧ a05_4.aux.since + Time.ms (State.rdN (key 0x3106 4) a05_4) ≤ max 12800000000 a05_4.now ∧ 24000 < 65536 ∧ a05_4.aux.waiting = [] ∧ 12000 ≤ 24000 ∧ 24000 ≤ 60000 ∧ State.bit (key 0x3106 3) 0 a05_4 = false) ∧
    (a05_4.aux.run = some (2, 1) ∧ a05_4.aux.since + Time.ms (State.rdN (key 0x3106 4) a05_4) ≤ max 12800000000 a05_4.now ∧ 60001 < 65536 ∧ a05_4.aux.waiting = [] ∧ (60001 < 12000 ∨ 60000 < 60001) ∧ 12000 ≤ 60001) ∧
    (a05_5.aux.run = some (2, 2) ∧ a05_5.aux.since + Time.ms (State.rdN (key 0x3106 4) a05_5) ≤ max 12800000000 a05_5.now ∧ 24000 < 65536 ∧ a05_5.aux.waiting = [] ∧ 12000 ≤ 24000 ∧ 24000 ≤ 60000 ∧ State.bit (key 0x3106 3) 0 a05_5 = false) :=
  by
    repeat refine ⟨by decide +kernel, ?_⟩
    decide +kernel

end PwmLoadsAndBlocks

namespace TriggerHeldPendingOrDropped

def wOwn : State := sv [(key 0x6005 1, 3), (key 0x6405 1, 3), (key 0x2000 1, 3), (key 0x6609 1, 3)]
def wPr (r : PairRec) : State := (w [(pk 3 1, 2), (pk 3 3, 4), (pk 3 0xA, 7), (pk 3 0x11, 0), (pk 3 0x19, 1), (pk 3 0x12, 0), (bk 4 3 1, 4000)]).setPair 3 r
def a06_1 := (wPr { running := true, slot := 2 })
def a06_2 := (wPr { running := true, slot := 2, pending := true })
def a06_3 := (wPr { running := true, slot := 3, pending := true })
def a06_4 := (wPr { running := true, slot := 3 })
def a06_5 := (wPr { })
def a06_6 := (w [])
def a06_7 := (wPr { running := true, slot := 1 })
def a06_8 := (wPr { running := true, slot := 0 })
def a06_9 := (sv [(key 0x5086 0x18, 0xFF), (key 0x5086 0x12, -7)])
def wDac : State := sv [(key 0x2000 1, 3)]
def wDacB : State := (sv [(key 0x2000 1, 5), (bk 0 2 3, 1)]).wrBlob (key 0x8003 1) (image 0 4000 2 1 0 0 1 (block 0x30 1 5 1 0 0 0 0 [0x1006]) ([1, 0] ++ d16 0 ++ [1, 0] ++ d16 6 ++ resEnd0) [])
def a06_10 := (sv [(pk 3 8, 7)])
def wRet : State := ((w []).setCore 6 { state := .retired }).setCore 16 { state := .shadowing, serves := some 6, due := some 6 }
def wShC : State := ((w []).setCore 16 { state := .shadowing, serves := some 6 }).setPair 3 { running := true }
def wUt (r : Bool) : State := (((w []).setCore 16 { state := .serving, serves := some 6 }).setCore 6 { state := .underTest }).setPair 3 { running := r }
def a06_11 := (wUt true)
def a06_12 := (wUt false)
def wSd : State := w [(ck 50 1, 1), (ck 50 3, 3), (ck 50 4, 4), (ck 50 0x14, 3), (ck 50 0x15, 2)]
def a06_13 := (w [(ck 7 0xC, 7), (ck 7 1, 1), (ck 7 0xD, 50)])
def a06_14 := (sv [(key 0x2000 1, 3)])
def tab : List Byte := d16 1 ++ d16 3 ++ List.replicate 1052 0
def good : List Byte := tab ++ d32 (crc32 tab)
def a06_15 := (sv [(key 0x2000 1, 3), (ck 50 3, 3), (ck 50 4, 64), (key 0x5080 1, 4)])
def wCfg : State := sv [(key 0x2000 1, 3), (bk 4 3 3, 4000)]
def wLd (img : List Byte) : State := let s := wCfg.wr (key 0x2001 1) 2; { s with srv := { s.srv with longInst := 3, longImg := img } }
def wEnd (img : List Byte) : State := { (wLd img).begin 5 with srv := { (wLd img).srv with longImg := [] } }
def a06_16 := (wLd (List.replicate 96 0))
def a06_17 := (wEnd (List.replicate 96 0))
def a06_18 := (wLd (plainImg 4000))
def a06_19 := (wEnd (plainImg 4000))
def wRec : State := wCfg.wrBlob (key 0x8003 1) (plainImg 4000)
def a06_20 := (readRecipe (plainImg 4000))
def a06_21 := (readRecipe readImg)

/-- Witness of the hypotheses of Obligations.BankWritesWaitAndJobsRun, clause by clause. -/
theorem test_witness_BankWritesWaitAndJobsRun :
    (isView 6 3 = true ∧ (State.wrBlob (key 0x8003 1) vmImg wOwn).Serves ∧ State.Passes hq (0x4000 + 32 * 3 + 6) 3 0 1048576000 (State.wrBlob (key 0x8003 1) vmImg wOwn) ∧ State.viewOwn 3 6 3 1048576000 (State.wrBlob (key 0x8003 1) vmImg wOwn) = 0) :=
  by decide +kernel

/-- Witness of the hypotheses of Obligations.TriggerHeldPendingOrDropped, clause by clause. -/
theorem test_witness_TriggerHeldPendingOrDropped :
    (State.triggerNow 3 (State.begin 5 a06_1) = true ∧ (State.pair 3 a06_1).running = true ∧ (State.pair 3 a06_1).pending = false) ∧
    (State.triggerNow 3 (State.begin 5 a06_2) = true ∧ (State.pair 3 a06_2).running = true ∧ (State.pair 3 a06_2).pending = true) ∧
    ((State.pair 3 a06_3).running = true ∧ State.rdN (pk 3 3) a06_3 ≤ (State.pair 3 a06_3).slot + 1) ∧
    ((State.pair 3 a06_4).running = true ∧ State.rdN (pk 3 3) a06_4 ≤ (State.pair 3 a06_4).slot + 1) :=
  by
    repeat refine ⟨by decide +kernel, ?_⟩
    decide +kernel

/-- Witness of the hypotheses of Obligations.PairCommandsComplete, clause by clause. -/
theorem test_witness_PairCommandsComplete :
    (State.triggerNow 3 (State.begin 5 a06_5) = true ∧ (State.pair 3 a06_5).running = false) ∧
    State.triggerNow 3 (State.begin 5 a06_6) = false ∧
    ((State.pair 3 (State.wr (key 0x5086 24) 255 a06_7)).running = true ∧ 1 = (State.pair 3 (State.wr (key 0x5086 24) 255 a06_7)).slot ∧ 1 + 1 < State.rdN (pk 3 3) (State.wr (key 0x5086 24) 255 a06_7) ∧ 1 < 8 ∧ State.convertingCore (2 * 3) (State.wr (key 0x5086 24) 255 a06_7) = some 6 ∧ State.convertingCore (2 * 3 + 1) (State.wr (key 0x5086 24) 255 a06_7) = some 7 ∧ State.slotInput (2 * 3) 1 (State.wr (key 0x5086 24) 255 a06_7) = some 6 ∧ State.slotInput (2 * 3 + 1) 1 (State.wr (key 0x5086 24) 255 a06_7) = some 23) ∧
    ((State.pair 3 (State.wr (key 0x5086 24) 255 a06_8)).running = true ∧ 0 = (State.pair 3 (State.wr (key 0x5086 24) 255 a06_8)).slot ∧ 0 + 1 < State.rdN (pk 3 3) (State.wr (key 0x5086 24) 255 a06_8) ∧ State.slotInput (2 * 3) 0 (State.wr (key 0x5086 24) 255 a06_8) = none ∧ State.slotInput (2 * 3 + 1) 0 (State.wr (key 0x5086 24) 255 a06_8) = none) ∧
    a06_9.Serves ∧
    (wDac.Serves ∧ State.Passes hq (0x50A0 + 0) 2 0 1024 wDac ∧ State.dacFree 0 wDac = true) ∧
    (wDacB.Serves ∧ State.Passes hq (0x50A0 + 0) 2 0 1024 wDacB ∧ State.dacFree 0 wDacB = false) ∧
    (wDac.Serves ∧ State.Passes hq (0x50A0 + 0) 3 0 1 wDac ∧ State.dacFree 0 wDac = true) ∧
    (wDacB.Serves ∧ State.Passes hq (0x50A0 + 0) 3 0 1 wDacB ∧ State.dacFree 0 wDacB = false) ∧
    (((State.setPair 3 { missRun := 3 } a06_10).Serves) ∧ (State.Passes hq (0x5098 + 3) 9 0 1 (State.setPair 3 { missRun := 3 } a06_10))) ∧
    ((State.pair (6 / 2) wRet).running = false ∧ (List.find? (fun j => (State.core j wRet).due == some 6) [16, 17] = some 16)) ∧
    (6 < 16 ∧ State.coreShadow 6 (State.setPair 3 { } wShC) = some 16 ∧ ((State.core 6 (State.setPair 3 { } wShC)).state = SpareState.underTest ∧ (State.core 6 (State.setPair 3 { } wShC)).passed = false ∨ (State.core 6 (State.setPair 3 { } wShC)).state = SpareState.serving ∧ (State.core 16 (State.setPair 3 { } wShC)).state = SpareState.shadowing ∧ (State.core 16 (State.setPair 3 { } wShC)).since + Time.sec 1 ≤ max 12800000000 (State.setPair 3 { } wShC).now ∧ (State.pair (6 / 2) (State.setPair 3 { } wShC)).running = false)) ∧
    (6 < 16 ∧ State.coreShadow 6 a06_11 = some 16 ∧ ((State.core 6 a06_11).state = SpareState.underTest ∧ (State.core 6 a06_11).passed = false ∨ (State.core 6 a06_11).state = SpareState.serving ∧ (State.core 16 a06_11).state = SpareState.shadowing ∧ (State.core 16 a06_11).since + Time.sec 1 ≤ max 5 a06_11.now ∧ (State.pair (6 / 2) a06_11).running = false)) ∧
    (6 < 16 ∧ State.coreShadow 6 a06_12 = some 16 ∧ ((State.core 6 a06_12).state = SpareState.underTest ∧ (State.core 6 a06_12).passed = false ∨ (State.core 6 a06_12).state = SpareState.serving ∧ (State.core 16 a06_12).state = SpareState.shadowing ∧ (State.core 16 a06_12).since + Time.sec 1 ≤ max 5 a06_12.now ∧ (State.pair (6 / 2) a06_12).running = false)) :=
  by
    repeat refine ⟨by decide +kernel, ?_⟩
    decide +kernel

/-- Witness of the hypotheses of Obligations.ChainCommandsComplete, clause by clause. -/
theorem test_witness_ChainCommandsComplete :
    (48 ≤ 50 ∧ State.chainOn 50 wSd = true ∧ State.decimationDue 50 (State.begin 5 wSd) = true ∧ 10 = State.rdN (ck 50 3) wSd * (State.rdN (ck 50 4) wSd - 1) + 1 ∧ 10 ≤ ((State.chainRec 50 wSd).bits ++ List.replicate 20 true).length) ∧
    (48 ≤ 50 ∧ State.chainOn 50 wSd = true ∧ (true = true ∨ 256 ≤ (State.chainRec 50 wSd).eqRun)) ∧
    (48 ≤ 50 ∧ (State.chainOn 50 (State.setChain 50 { eqRun := 256 } wSd) = true) ∧ (false = true ∨ 256 ≤ (State.chainRec 50 (State.setChain 50 { eqRun := 256 } wSd)).eqRun)) ∧
    ((State.chainOn 50 (State.setChain 50 { held := [55, -9] } wSd) = true) ∧ ((State.chainRec 50 (State.setChain 50 { held := [55, -9] } wSd)).held = [55, -9])) ∧
    ((State.isTracker 7 (State.setChain 7 { tr := { lost := false } } a06_13) = true) ∧ ((State.chainRec 7 (State.setChain 7 { tr := { lost := false } } a06_13)).tr.lost = false) ∧ ((State.chainRec 7 (State.setChain 7 { tr := { lost := false } } a06_13)).tr.lastAcc + Time.us 44400 ≤ max 999999999999 (State.setChain 7 { tr := { lost := false } } a06_13).now)) ∧
    (a06_14.Serves ∧ State.Passes hq (0x5000 + 7) 1 0 1 a06_14) ∧
    (a06_14.Serves ∧ State.PassesBlob hq (33280 + 7) 1 good a06_14 ∧ good.length = 1060) ∧
    (a06_14.Serves ∧ State.PassesBlob hq (33280 + 7) 1 (List.replicate 1060 0) a06_14 ∧ (List.replicate 1060 0).length = 1060) ∧
    (((State.setChain 7 { inactiveValid := true } a06_14).Serves) ∧ (State.Passes hq (0x5000 + 7) 16 0 2 (State.setChain 7 { inactiveValid := true } a06_14)) ∧ ((State.chainRec 7 (State.setChain 7 { inactiveValid := true } a06_14)).inactiveValid = true) ∧ (State.latencyWith 7 (State.swapTaps 7 (State.setChain 7 { inactiveValid := true } a06_14)) (State.setChain 7 { inactiveValid := true } a06_14) ≤ 3000)) ∧
    (a06_14.Serves ∧ State.Passes hq (0x5000 + 7) 16 0 2 a06_14 ∧ (State.chainRec 7 a06_14).inactiveValid = false) ∧
    (((State.setChain 50 { inactiveValid := true } a06_15).Serves) ∧ (State.Passes hq (0x5000 + 50) 16 0 2 (State.setChain 50 { inactiveValid := true } a06_15)) ∧ ((State.chainRec 50 (State.setChain 50 { inactiveValid := true } a06_15)).inactiveValid = true) ∧ (3000 < State.latencyWith 50 (State.swapTaps 50 (State.setChain 50 { inactiveValid := true } a06_15)) (State.setChain 50 { inactiveValid := true } a06_15))) ∧
    ((State.chainRec 7 (State.setChain 7 { swapFor := some 0 } (State.wrBlob (key 0x8207 1) [1, 2] a06_6))).swapFor = some 0) ∧
    (((State.setChain 7 { rmsWin := [4] } a06_14).Serves) ∧ (State.Passes hq (0x5000 + 7) 26 0 64 (State.setChain 7 { rmsWin := [4] } a06_14))) :=
  by
    repeat refine ⟨by decide +kernel, ?_⟩
    decide +kernel

/-- Witness of the hypotheses of Obligations.RecipeCommandsComplete, clause by clause. -/
theorem test_witness_RecipeCommandsComplete :
    (wCfg.Serves ∧ State.PassesBlob hq (32768 + 3) 1 (List.replicate 96 0) wCfg ∧ State.bstate 3 wCfg = BatchState.off ∧ 96 ≤ (List.replicate 96 0).length) ∧
    ((State.wr (bk 1 1 3) 4 wCfg).Serves ∧ State.PassesBlob hq (32768 + 3) 1 [] (State.wr (bk 1 1 3) 4 wCfg) ∧ State.bstate 3 (State.wr (bk 1 1 3) 4 wCfg) ≠ BatchState.off) ∧
    (a06_16.longOp = 2 ∧ a06_16.srv.longInst = 3 ∧ (a06_17 =   have __src := State.begin 5 a06_16;   { now := __src.now, fresh := __src.fresh, out := __src.out, pending := __src.pending, od := __src.od, blobs := __src.blobs, batches := __src.batches, fixed := __src.fixed, floats := __src.floats, gens := __src.gens, fabric := __src.fabric, meas := __src.meas, pwm := __src.pwm, links := __src.links, aux := __src.aux, island := __src.island, clock := __src.clock, acq := __src.acq, log := __src.log, rack := __src.rack, power := __src.power,     srv :=       have __src := a06_16.srv;       { longInst := __src.longInst, longSid := __src.longSid, cur := __src.cur, longQuiet := __src.longQuiet, longAt := __src.longAt, longDraw := __src.longDraw, longCap := __src.longCap, gate := __src.gate, storing := __src.storing, storingLocks := __src.storingLocks, sessions := __src.sessions, nextSid := __src.nextSid, failed := __src.failed, blocked := __src.blocked, transfers := __src.transfers, snaps := __src.snaps, rateStart := __src.rateStart, rateCount := __src.rateCount, slots := __src.slots, trialFails := __src.trialFails },     net := __src.net }) ∧ (State.verify 3 a06_16.srv.longImg a06_17).1 ≠ 0) ∧
    (a06_18.longOp = 2 ∧ a06_18.srv.longInst = 3 ∧ (a06_19 =   have __src := State.begin 5 a06_18;   { now := __src.now, fresh := __src.fresh, out := __src.out, pending := __src.pending, od := __src.od, blobs := __src.blobs, batches := __src.batches, fixed := __src.fixed, floats := __src.floats, gens := __src.gens, fabric := __src.fabric, meas := __src.meas, pwm := __src.pwm, links := __src.links, aux := __src.aux, island := __src.island, clock := __src.clock, acq := __src.acq, log := __src.log, rack := __src.rack, power := __src.power,     srv :=       have __src := a06_18.srv;       { longInst := __src.longInst, longSid := __src.longSid, cur := __src.cur, longQuiet := __src.longQuiet, longAt := __src.longAt, longDraw := __src.longDraw, longCap := __src.longCap, gate := __src.gate, storing := __src.storing, storingLocks := __src.storingLocks, sessions := __src.sessions, nextSid := __src.nextSid, failed := __src.failed, blocked := __src.blocked, transfers := __src.transfers, snaps := __src.snaps, rateStart := __src.rateStart, rateCount := __src.rateCount, slots := __src.slots, trialFails := __src.trialFails },     net := __src.net }) ∧ (State.loadRecipe 3 a06_18.srv.longImg a06_19).1 = 0) ∧
    ((State.wrBlob (key 0x8003 1) (plainImg 4000) wCfg).Serves ∧ State.PassesBlob hq (32768 + 3) 1 [] (State.wrBlob (key 0x8003 1) (plainImg 4000) wCfg) ∧ State.bstate 3 (State.wrBlob (key 0x8003 1) (plainImg 4000) wCfg) = BatchState.off) ∧
    (wRec.Serves ∧ State.recipe 3 wRec = some a06_20 ∧ State.handling 0 (State.begin 5 wRec) = State.handling hq.sid (State.begin 5 wRec) ∧ State.Passes hq (0x4000 + 32 * 3) 2 0 1 wRec ∧ State.benabled 3 wRec = false ∧ State.enableOwn 3 1 (State.handling 0 (State.begin 5 wRec)) = 0 ∧ (State.runAdmission ((State.handling 0 (State.begin 5 wRec)).enabledFigs ++ [State.fig 3 a06_20 (State.handling 0 (State.begin 5 wRec))]) (State.handling 0 (State.begin 5 wRec))).1 = 0) ∧
    ((State.wrBlob (key 0x8003 1) readImg wCfg).Serves ∧ State.recipe 3 (State.wrBlob (key 0x8003 1) readImg wCfg) = some a06_21 ∧ State.Passes hq (0x4000 + 32 * 3) 2 0 1 (State.wrBlob (key 0x8003 1) readImg wCfg) ∧ State.bstate 3 (State.wrBlob (key 0x8003 1) readImg wCfg) = BatchState.off ∧ State.rdB (key 0x2500 4) (State.wrBlob (key 0x8003 1) readImg wCfg) = false ∧ State.signalsOk 3 a06_21 (State.wrBlob (key 0x8003 1) readImg wCfg) = false) ∧
    ((State.wr (bk 0 2 3) 1 wRec).Serves ∧ State.Passes hq (0x4000 + 32 * 3) 2 0 0 (State.wr (bk 0 2 3) 1 wRec) ∧ State.bstate 3 (State.wr (bk 0 2 3) 1 wRec) = BatchState.off) :=
  by
    repeat refine ⟨by decide +kernel, ?_⟩
    decide +kernel

end TriggerHeldPendingOrDropped

namespace NodeFramesAndEdges

def nid : NodeId := { protocol := 1, kind := 5, slots := 8, bootMask := 0xF, voltFs := 0x43FA0000, curFs := 0x42C80000, tempFs := 0x42C80000, epoch := 2, minDead := 10 }
def wNd (r : NodeRec) : State := (w [(ndk 9 1, 2), (ndk 9 2, 0), (lk 2 3, 3), (lk 2 1, 1)]).setNode 9 r
def hd0 : FrameHead := { kind := 1, link := 2, count := 1, tf := 1000, epoch := 3, seq := 0, reqCode := 0, reqPos := 0, reqAddr := 0, reqData := 0, respCode := 0, respPos := 0, respData := 0 }
def dfr : NodeFrame := { inward := false, crcGood := true, violation := false, stomped := false, head := hd0, controls := [2], slots := [], edges := [⟨0, 1, true, 50⟩] }
def dfrBad : NodeFrame := { dfr with crcGood := false }
def a07_2 := (wNd { epoch := 3, legs := 1 })
def hf (a : Bool) : HeldFrame := { tf := 1000, auth := a, ctl := 1, edges := [] }
def a07_4 := (wNd { held := [hf true], legs := 3, missRun := 2, edges := [⟨99999, 1, true, none⟩] })
def a07_5 := (wNd { held := [hf false], legs := 3, missRun := 2, edges := [⟨99999, 1, true, none⟩] })
def a07_6 := (wNd { ctl := 2, edges := [⟨65000, 1, true, none⟩, ⟨65001, 1, false, none⟩] })
def a07_8 := (wNd { turn := true, lockRun := 16 })
def a07_9 := (wNd { missRun := 1, legs := 1 })
def a07_10 := (wNd { missRun := 3, legs := 1 })
def a07_11 := (wNd { id := some nid, legs := 0xFF, edges := [⟨5, 7, true, none⟩] })
def a07_12 := (wNd { })
def a07_13 := (wNd { id := some nid })
def a07_14 := (wNd { id := some nid, epoch := 3 })
def a07_15 := (wNd { id := some nid, epoch := 3, shorts := 6 })
def lightUp (s : State) : State := { s.wr (dk 4) 2 with power := { s.power with inserted := true, proofHeld := true } }
def wReqD (r : LinkReq) (extra : List (Nat × Int)) : State := (sv ([(ndk 9 1, 2), (ndk 9 2, 0), (lk 2 3, 3), (lk 2 1, 1), (key 0x2000 1, 3)] ++ extra)).setLink 2 { req := some r }
def wReq (r : LinkReq) (extra : List (Nat × Int)) : State := lightUp (wReqD r extra)
def rq0 : LinkReq := { code := 1, pos := 0, addr := 8, data := 0, node := 9, sent := some 10, tries := 3 }
def ufr : UpFrame := { crcGood := true, stomped := false, violations := 2, head := { kind := 0, link := 2, count := 1, tf := 20000, epoch := 5, seq := 0, reqCode := 0, reqPos := 0, reqAddr := 0, reqData := 0, respCode := 1, respPos := 0, respData := 8 }, slots := [{ volt := 5, cur := 6, temp := 7, status := 0x1200, legs := 3 }] }
def rqNew : LinkReq := { rq0 with sent := none }
def rqOne : LinkReq := { rq0 with tries := 1 }
def ufrBad : UpFrame := { ufr with stomped := true }
def a07_17 := (wReq rqNew [])
def a07_18 := (bat 3 { edges := [{ sealedAt := 5, edges := [] }] } a07_17)
def a07_19 := (wReq rq0 [])
def a07_20 := (wReq rqOne [])
def wBusy : State := wReq rq0 [(chk 7 1, 3), (chk 7 2, 3), (chk 7 3, 9), (bk 3 1 3, 128), (bk 1 1 3, 4)]
def a07_21 := (wReq rq0 [(ndk 9 5, 2), (lk 2 2, 1)])
def a07_22 := (sv [])
def a07_23 := (sv [(ndk 9 1, 2), (ndk 9 0x1C, 0x34)])
def a07_24 := (sv [(ndk 9 1, 2), (ndk 9 0x1C, 0x1000), (key 0x2000 1, 3)])
def a07_25 := (sv [(ndk 9 1, 2), (ndk 9 0x1C, 0xFFF), (key 0x2000 1, 3)])
def a07_26 := (sv [(ndk 9 1, 2), (ndk 9 4, 3), (bk 1 1 3, 10), (key 0x2000 1, 3)])
def a07_27 := (sv [(ndk 9 1, 2), (ndk 9 4, 3), (bk 1 1 3, 4), (key 0x2000 1, 3)])
def a07_28 := (wReqD rqNew [])
def a07_29 := (wReqD rq0 [])

/-- Witness of the hypotheses of Obligations.NodeFramesAndEdgesComplete, clause by clause. -/
theorem test_witness_NodeFramesAndEdgesComplete :
    ((1 : Nat).testBit 0 = true ∧ (State.node 9 a07_2).epoch ≤ 3) ∧
    ((1 : Nat).testBit 0 = false ∨ 2 < (State.node 9 a07_2).epoch) ∧
    (dfr.crcGood = true ∧ dfr.violation = false ∧ dfr.stomped = false ∧ BitVec.toNat dfr.head.kind < 64) ∧
    (dfrBad.crcGood = false ∨ dfrBad.violation = true ∨ dfrBad.stomped = true) ∧
    ((State.node 9 a07_4).held = [hf true] ∧ (hf true).tf + framePeriod + (State.node 9 a07_4).delay ≤ (State.begin 65000 a07_4).modTime) ∧
    ((State.node 9 a07_5).held = [hf false] ∧ (hf false).tf + framePeriod + (State.node 9 a07_5).delay ≤ (State.begin 65000 a07_5).modTime) ∧
    (List.filter (fun x => decide (x.at_ ≤ (State.begin 65000 a07_6).modTime)) (State.node 9 a07_6).edges = [{ at_ := 65000, slot := 1, level := true }]) ∧
    ((State.node 9 a07_8).turn = true ∧ (State.node 9 a07_8).locked = true ∧ (State.begin 5 a07_8).modTime % framePeriod < 32) :=
  by
    repeat refine ⟨by decide +kernel, ?_⟩
    decide +kernel

/-- Witness of the hypotheses of Obligations.NodeSupervisionAndRegistersComplete, clause by clause. -/
theorem test_witness_NodeSupervisionAndRegistersComplete :
    (State.node 9 a07_9).lastTf + framePeriod + Time.ns 6000 + (State.node 9 a07_9).delay ≤ (State.begin 140800 a07_9).modTime ∧
    (State.node 9 a07_10).periods ≤ (State.node 9 a07_10).missRun ∧
    7 < (State.node 9 a07_11).slots ∧
    ((State.node 9 a07_12).turn ≠ true ∧ State.rdN (ndk 9 1) a07_12 = 2 ∧ State.rdN (lk 2 3) a07_12 = 3) ∧
    (State.node 9 a07_13).register 8 = some 8 ∧
    (State.node 9 a07_12).register 8 = none ∧
    (1 ≤ 3 ∧ (State.node 9 a07_14).epoch ≤ 3 ∧ ((State.node 9 a07_14).register 256).isSome = true ∧ 52 ≤ 256 ∧ (256 < 256 ∨ 4096 ≤ 256 ∨ (Option.map (fun x => x.minDead) (State.node 9 a07_14).id).getD 0 ≤ 12)) ∧
    2 < (State.node 9 a07_14).epoch ∧
    (1 ≤ 3 ∧ (State.node 9 a07_15).epoch ≤ 3) ∧
    100 ≤ 350 :=
  by
    repeat refine ⟨by decide +kernel, ?_⟩
    decide +kernel

/-- Every batch with a node on link 2 is off in this state. -/
theorem linkOff : ((State.linkBatches 2 a07_19).all fun b => State.bstate b a07_19 == BatchState.off) = true :=
  List.all_eq_true.2 fun b hb =>
    (by decide +kernel : ∀ b ∈ allBatches, (State.bstate b a07_19 == BatchState.off) = true) b (List.mem_filter.1 hb).1

/-- Its edges fit beside one node: no channel is routed to a node. -/
theorem linkFits : State.edgeDemand 2 a07_19 ≤ edgeCap 1 := by
  have h : ∀ c ∈ List.range 256, (State.rdN (chk c 2) a07_19 == 3) = false := by decide +kernel
  have hb : ∀ b, (State.members b a07_19).filter (fun c => State.rdN (chk c 2) a07_19 == 3 &&
      State.rdN (ndk (State.rdN (chk c 3) a07_19) 1) a07_19 == 2) = [] := fun b =>
    List.filter_eq_nil_iff.2 fun c hc => by
      have := h c (List.mem_filter.1 hc).1
      simp [this]
  simp [State.edgeDemand, hb]

/-- Batch 3 has a node on link 2 and is not off in this one. -/
theorem linkBusy : ((State.linkBatches 2 wBusy).all fun b => State.bstate b wBusy == BatchState.off) = false :=
  List.all_eq_false.2 ⟨3, List.mem_filter.2 ⟨by decide, by decide +kernel⟩, by decide +kernel⟩

/-- Witness of the hypotheses of Obligations.LinkCommandsComplete, clause by clause. -/
theorem test_witness_LinkCommandsComplete :
    ((((State.linkBatches 2 a07_19).all fun b => State.bstate b a07_19 == BatchState.off) = true) ∧ State.edgeDemand 2 a07_19 ≤ edgeCap [nid].length ∧ a07_19.Serves ∧ State.Passes hq (0x3700 + 2) 6 0 1 a07_19 ∧ State.lit 2 a07_19 = true ∧ [nid].length ≤ 32) ∧
    ((((State.linkBatches 2 a07_19).all fun b => State.bstate b a07_19 == BatchState.off) = true) ∧ State.edgeDemand 2 a07_19 ≤ edgeCap 0 ∧ a07_19.Serves ∧ State.Passes hq (0x3700 + 2) 6 0 1 a07_19 ∧ State.lit 2 a07_19 = true ∧ 0 ≤ 32) ∧
    ((((State.linkBatches 2 a07_19).all fun b => State.bstate b a07_19 == BatchState.off) = true) ∧ State.edgeDemand 2 a07_19 ≤ edgeCap [nid].length ∧ State.lit 2 a07_19 = true ∧ [nid] ≠ [] ∧ [nid].length ≤ 32) ∧
    ((((State.linkBatches 2 wBusy).all fun b => State.bstate b wBusy == BatchState.off) = false) ∧ State.lit 2 wBusy = true) ∧
    (State.lit 2 a07_18 = true ∧ (2 ≤ State.rdN (lk 2 3) a07_18 ∧ State.rdN (lk 2 3) a07_18 ≤ 4 ∨ (State.link 2 a07_18).service = true) ∧ (State.begin 858993472000 a07_18).modTime % framePeriod < 32 ∧ (State.link 2 a07_18).next ≤ Time.toNs ((State.begin 858993472000 a07_18).modTime / framePeriod * framePeriod) ∧ a07_18.rack.grant = none ∧ a07_18.rack.revoke = none ∧ a07_18.power.removal = none) ∧
    (State.rdB (lk 2 1) a07_19 = true ∧ 2 ≤ State.rdN (lk 2 3) a07_19 ∧ (ufrBad.crcGood = false ∨ ufrBad.stomped = true)) ∧
    (State.rdB (lk 2 1) a07_19 = true ∧ 2 ≤ State.rdN (lk 2 3) a07_19 ∧ ufr.crcGood = true ∧ ufr.stomped = false) ∧
    ((State.link 2 a07_19).req = some rq0 ∧ rq0.sent = some 10 ∧ 10 + 3 * framePeriod ≤ max 192010 a07_19.now ∧ 3 ≤ rq0.tries) ∧
    ((State.link 2 a07_20).req = some rqOne ∧ rqOne.sent = some 10 ∧ 10 + 3 * framePeriod ≤ max 192010 a07_20.now ∧ rqOne.tries < 3) ∧
    2 ≤ State.rdN (lk 2 3) a07_21 ∧
    State.rdN (lk 2 3) a07_22 < 2 ∧
    (a07_23.Serves ∧ (State.link (State.rdN (ndk 9 1) a07_23) a07_23).req = none) ∧
    (a07_19.Serves ∧ (State.link (State.rdN (ndk 9 1) a07_19) a07_19).req ≠ none) ∧
    (a07_24.Serves ∧ State.Passes hq (0x3400 + 9) 29 0 77 a07_24 ∧ (State.link (State.rdN (ndk 9 1) a07_24) a07_24).req = none ∧ 4096 ≤ State.rdN (ndk 9 28) a07_24 ∧ (∀ (b : ℕ), State.nodeBatch 9 a07_24 = some b → State.bstate b a07_24 = BatchState.off)) ∧
    (a07_25.Serves ∧ State.Passes hq (0x3400 + 9) 29 0 77 a07_25 ∧ (State.link (State.rdN (ndk 9 1) a07_25) a07_25).req = none ∧ State.rdN (ndk 9 28) a07_25 < 4096) ∧
    (a07_26.Serves ∧ State.Passes hq (0x3400 + 9) 21 0 1 a07_26 ∧ (State.link (State.rdN (ndk 9 1) a07_26) a07_26).req = none ∧ (∀ (b : ℕ), State.nodeBatch 9 a07_26 = some b → State.bstate b a07_26 = BatchState.off ∨ State.bstate b a07_26 = BatchState.blocked ∨ State.bstate b a07_26 = BatchState.fault)) ∧
    (a07_27.Serves ∧ State.Passes hq (0x3400 + 9) 21 0 1 a07_27 ∧ (State.link (State.rdN (ndk 9 1) a07_27) a07_27).req = none ∧ State.nodeBatch 9 a07_27 = some 3 ∧ (State.bstate 3 a07_27).running = true) ∧
    (State.lit 2 a07_28 = false ∧ a07_28.rack.grant = none ∧ a07_28.rack.revoke = none ∧ a07_28.power.removal = none) ∧
    (a07_29.Serves ∧ State.Passes hq (0x3700 + 2) 6 0 1 a07_29 ∧ State.lit 2 a07_29 = false) ∧
    State.lit 2 a07_29 = false :=
  ⟨⟨linkOff,
   linkFits,
   by decide +kernel⟩,
   ⟨linkOff,
   Nat.le_trans linkFits (by decide),
   by decide +kernel⟩,
   ⟨linkOff,
   linkFits,
   by decide +kernel⟩,
   ⟨linkBusy,
   by decide +kernel⟩,
   by
    repeat refine ⟨by decide +kernel, ?_⟩
    decide +kernel⟩

end NodeFramesAndEdges

namespace DemandedCircuitsStandOpen

def wIs (l : List (Nat × Int)) : State := let s := sv ([(key 0x7800 1, 2), (key 0x2000 1, 3)] ++ l); { s with power := { s.power with inserted := true, proofPassed := true, proofHeld := true } }
def a08_1 := (wIs [(key 0x7830 3, 1), (key 0x7830 1, 2), (ik 1 7, 3), (ik 2 7, 3)])
def a08_2 := (wIs [])
def a08_3 := (w [])
def a08_4 := (w [(key 0x2600 1, 3)])
def a08_5 := (wIs [(ik 1 7, 3)])
def wHk : State := (wIs [(ik 1 7, 3)]).modClock (fun c => { c with hkAt := some 0, hk := 500 })
def a08_8 := (sv [(key 0x2000 1, 3), (key 0x7800 1, 1), (key 0x2600 1, 2), (key 0x7840 1, 1)])
def a08_9 := (sv [(key 0x2000 1, 3), (key 0x7800 1, 1), (key 0x2600 1, 2), (key 0x7840 1, 0), (ik 0 2, 1)])
def a08_10 := (wIs [(key 0x7813 1, 1), (key 0x7813 8, 1), (key 0x7813 6, 5), (ik 0 7, 3), (ik 1 7, 3)])
def a08_11 := (wIs [(key 0x7813 1, 1), (key 0x7813 2, 1), (key 0x7813 7, 1)])
def wBel : State := let s := wIs []; { s with island := { s.island with below := some 5, connSince := some 5 } }
def wCi (l : List (Nat × Int)) (c : IslandCirc) : State := (wIs l).setCirc 1 c
def wObs (l : List (Nat × Int)) (c : IslandCirc) : State := let s := wCi l c; { s with island := { s.island with observed := true } }
def a08_13 := (wObs [(ik 1 2, 0)] {})
def a08_14 := (wCi [] {})
def a08_15 := (wCi [(ik 1 7, 4)] {})
def a08_16 := (wCi [(ik 1 7, 4)] { step := 2 })
def a08_17 := (wCi [(ik 1 7, 3)] {})
def a08_18 := (wCi [(ik 1 7, 2), (ik 1 3, 1)] { step := 4, seen := true })
def a08_19 := (wCi [(ik 1 7, 2)] { step := 4, seen := true })
def a08_20 := (wCi [(ik 1 7, 2), (ik 1 3, 1)] { step := 4, seen := true, hs := true, ls := true })
def a08_21 := (wCi [(ik 1 7, 3)] { hs := true, ls := true })
def a08_22 := (wCi [] { })
def a08_23 := (wCi [] { retry := some (true, 7) })
def tele0 (s : State) : List Byte := [0x53, 0x54, 1, 1] ++ d32 7 ++ d32 9 ++ d32 5 ++ List.replicate 8 0 ++ d16 0x100 ++ d16 0 ++ d32 s.settingsCrc ++ List.replicate 4 0
def tele (s : State) : List Byte := tele0 s ++ d32 (crc32c (s.rdN (key 0x7840 5)) (tele0 s))
def wTl : State := wIs [(key 0x7840 1, 1), (key 0x7840 3, 9), (key 0x7840 4, 7), (key 0x7840 5, 3), (key 0x7840 6, 1), (ik 1 7, 3), (ik 1 2, 1)]
def wTl2 : State := { wTl with island := { wTl.island with copies := [TeleCopy.mk false 0 (tele wTl)] } }
def bad : List Byte := tele0 wTl ++ [0, 0, 0, 0]
def wTl3 : State := { wTl with island := { wTl.island with copies := [TeleCopy.mk false 0 bad] } }
def a08_24 := (tele wTl)

/-- Witness of the hypotheses of Obligations.DemandedCircuitsStandOpen, clause by clause. -/
theorem test_witness_DemandedCircuitsStandOpen :
    (State.actMask a08_1.islandSettle.standing a08_1.islandSettle).testBit 1 = true ∧
    ((a08_2.islandState = 1 ∨ a08_2.islandState = 2) ∧ a08_2.island.lastRms + a08_2.islandPeriod / 2 ≤ max 12800000000 a08_2.now) :=
  by
    repeat refine ⟨by decide +kernel, ?_⟩
    decide +kernel

/-- Witness of the hypotheses of Obligations.IslandStatesComplete, clause by clause. -/
theorem test_witness_IslandStatesComplete :
    a08_3.islandState = 0 ∧
    a08_4.islandState = 0 ∧
    ((∀ (h : Time), a08_5.clock.hkAt = some h → h + Time.sec 10 < max 5 a08_5.now) ∧ 120000 < (-120001).natAbs) ∧
    ((∀ (h : Time), a08_5.clock.hkAt = some h → h + Time.sec 10 < max 5 a08_5.now) ∧ (-120000).natAbs ≤ 120000) ∧
    (wHk.clock.hkAt = some 0 ∧ max 5 wHk.now ≤ 0 + Time.sec 10 ∧ ((10 ^ 6 + -38100) * (10 ^ 6 + 100 * wHk.clock.hk) - 10 ^ 12).natAbs ≤ 10 ^ 10) ∧
    (wHk.clock.hkAt = some 0 ∧ max 5 wHk.now ≤ 0 + Time.sec 10 ∧ 10 ^ 10 < ((10 ^ 6 + -38095) * (10 ^ 6 + 100 * wHk.clock.hk) - 10 ^ 12).natAbs) ∧
    ((Instr.islandSelfCheck 5 false = Instr.islandSelfCheck 5 false ∨ Instr.islandSelfCheck 5 false = Instr.lockstepMismatch 5) ∧ a08_5.islandState ≠ 3) ∧
    ((Instr.lockstepMismatch 5 = Instr.islandSelfCheck 5 false ∨ Instr.lockstepMismatch 5 = Instr.lockstepMismatch 5) ∧ a08_5.islandState ≠ 3) ∧
    (((Instr.lockIslandSettings 5 hq, 2, 0) = (Instr.lockIslandSettings 5 hq, 2, 0) ∨ (Instr.lockIslandSettings 5 hq, 2, 0) = (Instr.lockInterfaceProtectionSettings 5 hq, 3, 1)) ∧ a08_8.Serves ∧ State.Passes hq 0x7800 2 0 1 a08_8 ∧ a08_8.settingsOk = true) ∧
    (((Instr.lockInterfaceProtectionSettings 5 hq, 3, 1) = (Instr.lockIslandSettings 5 hq, 2, 0) ∨ (Instr.lockInterfaceProtectionSettings 5 hq, 3, 1) = (Instr.lockInterfaceProtectionSettings 5 hq, 3, 1)) ∧ a08_9.Serves ∧ State.Passes hq 0x7800 3 0 1 a08_9 ∧ a08_9.settingsOk = false) :=
  by
    repeat refine ⟨by decide +kernel, ?_⟩
    decide +kernel

/-- Witness of the hypotheses of Obligations.IslandMeasurementAndStagesComplete, clause by clause. -/
theorem test_witness_IslandMeasurementAndStagesComplete :
    ((a08_2.islandState = 1 ∨ a08_2.islandState = 2) ∧ a08_2.island.lastRms + a08_2.islandPeriod / 2 ≤ max 12800000000 a08_2.now) ∧
    (((State.check (b2n true) (State.setCheck 1 { invSince := some 5 } a08_5)).invSince = some 5) ∧ (5 + Time.ms (State.rdN (key 0x7801 6) (State.setCheck 1 { invSince := some 5 } a08_5)) ≤ max 12800000000000 (State.setCheck 1 { invSince := some 5 } a08_5).now)) ∧
    (State.rdB (key (0x7810 + 3) 1) a08_10 = true ∧ State.bit (key (0x7810 + 3) 8) 0 a08_10 = true ∧ State.bit (key (0x7810 + 3) 8) 1 a08_10 = false ∧ (State.stage 3 a08_10).since + Time.ms (State.rdN (key (0x7810 + 3) 4) a08_10) ≤ max 12800000000000 a08_10.now) ∧
    (State.rdB (key (0x7810 + 3) 1) a08_11 = true ∧ State.rdN (key (0x7810 + 3) 2) a08_11 = 1 ∧ State.rdN (key (0x7810 + 3) 7) a08_11 = 1 ∧ (State.stage 3 a08_11).meanAt + Time.sec 3 ≤ max 38400000000 a08_11.now) ∧
    (wBel.island.below = some 5 ∧ 5 + Time.ms (State.rdN (key 0x7801 11) wBel) ≤ max 12800000000000 wBel.now) ∧
    (wBel.island.connSince = some 5 ∧ 5 + Time.sec (State.rdN (key 0x7850 5) wBel) ≤ max 12800000000000 wBel.now) :=
  by
    repeat refine ⟨by decide +kernel, ?_⟩
    decide +kernel

/-- Witness of the hypotheses of Obligations.CircuitCommandsComplete, clause by clause. -/
theorem test_witness_CircuitCommandsComplete :
    (a08_5.Serves ∧ State.Passes hq (0x7820 + 1) 11 0 2 a08_5) ∧
    (a08_13.Serves ∧ State.Passes hq (0x7820 + 1) 11 0 1 a08_13 ∧ hostCloseOwn 1 a08_13 = 0 ∧ (State.circ 1 a08_13).pulse = none ∧ (State.circ 1 a08_13).step = 0) ∧
    (a08_14.Serves ∧ State.Passes hq (0x7820 + 1) 11 0 1 a08_14 ∧ hostCloseOwn 1 a08_14 ≠ 0) ∧
    (a08_15.Serves ∧ State.Passes hq (0x7820 + 1) 12 0 1 a08_15 ∧ State.circState 1 a08_15 = 4 ∧ (State.circ 1 a08_15).step = 0) ∧
    (a08_16.Serves ∧ State.Passes hq (0x7820 + 1) 12 0 1 a08_16 ∧ State.circState 1 a08_16 = 4 ∧ (State.circ 1 a08_16).step ≠ 0) ∧
    (a08_17.Serves ∧ State.Passes hq (0x7820 + 1) 12 0 1 a08_17 ∧ State.circState 1 a08_17 ≠ 4) ∧
    (State.circState 1 a08_18 = 2 ∧ (State.circ 1 a08_18).seen = true ∧ (Instr.contactFeedbackClosed 5 1 = Instr.contactFeedbackClosed 5 1 ∧ State.rdB (ik 1 3) a08_18 = true ∨ Instr.contactFeedbackClosed 5 1 = Instr.closingTime 5 1 ∧ State.rdB (ik 1 3) a08_18 = false ∧ (State.circ 1 a08_18).stepAt + Time.ms (State.rdN (ik 1 4) a08_18) ≤ max 5 a08_18.now)) ∧
    (State.circState 1 a08_19 = 2 ∧ (State.circ 1 a08_19).seen = true ∧ (Instr.closingTime 12800000000 1 = Instr.contactFeedbackClosed 12800000000 1 ∧ State.rdB (ik 1 3) a08_19 = true ∨ Instr.closingTime 12800000000 1 = Instr.closingTime 12800000000 1 ∧ State.rdB (ik 1 3) a08_19 = false ∧ (State.circ 1 a08_19).stepAt + Time.ms (State.rdN (ik 1 4) a08_19) ≤ max 12800000000 a08_19.now)) ∧
    (State.circState 1 a08_20 = 2 ∧ (State.circ 1 a08_20).seen = true ∧ State.rdB (ik 1 3) a08_20 = true ∧ (State.circ 1 a08_20).stepAt + Time.ms (State.rdN (ik 1 4) a08_20) ≤ max 12800000000 a08_20.now) ∧
    (State.circState 1 a08_21 ≠ 4 ∧ 650 < 651) ∧
    (State.circState 1 a08_21 ≠ 4 ∧ (State.circ 1 a08_21).pulse = none ∧ (patOf { h := 20000, l := 20000 } ≠ expected (State.circ 1 a08_21).hs (State.circ 1 a08_21).ls) ∧ (State.circ 1 a08_21).cmdAt + Time.ms 2 ≤ max 25600000 a08_21.now) ∧
    (a08_21.islandState = 2 ∧ (State.circ 1 a08_21).pulse = none ∧ (State.circ 1 a08_21).step = 0 ∧ State.circState 1 a08_21 = 3 ∧ State.pulseDue 1 true (State.begin 80000000000 a08_21) = true) ∧
    (a08_22.islandState = 2 ∧ (State.circ 1 a08_22).pulse = none ∧ (State.circ 1 a08_22).step = 0 ∧ State.circState 1 a08_22 = 0 ∧ State.pulseDue 1 true (State.begin 80000000000 a08_22) = true) ∧
    (a08_23.islandState = 2 ∧ (State.circ 1 a08_23).pulse = none ∧ (State.circ 1 a08_23).step = 0 ∧ (State.circState 1 a08_23 = 3 ∨ State.circState 1 a08_23 = 0) ∧ (State.circ 1 a08_23).retry = some (true, 7) ∧ 7 ≤ max 7 a08_23.now) :=
  by
    repeat refine ⟨by decide +kernel, ?_⟩
    decide +kernel

/-- Witness of the hypotheses of Obligations.SafetyTelegramsComplete, clause by clause. -/
theorem test_witness_SafetyTelegramsComplete :
    (State.rdB (key 0x7840 1) wTl = true ∧ State.seqAccepted (leAt 12 4 a08_24) wTl = false ∧ wTl.island.copies = []) ∧
    (State.rdB (key 0x7840 1) wTl2 = true ∧ State.seqAccepted (leAt 12 4 a08_24) wTl2 = false ∧ (wTl2.island.copies = [{ portB := false, at_ := 0, bytes := a08_24 }]) ∧ (({ portB := false, at_ := 0, bytes := a08_24 } : TeleCopy).portB = !true) ∧ (max 5 wTl2.now ≤ ({ portB := false, at_ := 0, bytes := a08_24 } : TeleCopy).at_ + Time.ms 10) ∧ (({ portB := false, at_ := 0, bytes := a08_24 } : TeleCopy).bytes = a08_24) ∧ State.teleHeader a08_24 wTl2 = true ∧ State.teleCrc a08_24 wTl2 = true ∧ (∀ (b : ℕ), wTl2.island.lastSeq = some b → 1 ≤ (leAt 12 4 a08_24 + 2 ^ 32 - b) % 2 ^ 32 ∧ (leAt 12 4 a08_24 + 2 ^ 32 - b) % 2 ^ 32 ≤ 3) ∧ leAt 28 4 a08_24 = wTl2.settingsCrc) ∧
    (State.rdB (key 0x7840 1) wTl3 = true ∧ State.seqAccepted (leAt 12 4 bad) wTl3 = false ∧ (wTl3.island.copies = [{ portB := false, at_ := 0, bytes := bad }]) ∧ (({ portB := false, at_ := 0, bytes := bad } : TeleCopy).portB = !true) ∧ (max 5 wTl3.now ≤ ({ portB := false, at_ := 0, bytes := bad } : TeleCopy).at_ + Time.ms 10) ∧ (({ portB := false, at_ := 0, bytes := bad } : TeleCopy).bytes = bad) ∧ State.teleHeader bad wTl3 = true ∧ State.teleCrc bad wTl3 = false) ∧
    ((wTl2.island.copies = [{ portB := false, at_ := 0, bytes := a08_24 }]) ∧ (({ portB := false, at_ := 0, bytes := a08_24 } : TeleCopy).at_ + Time.ms 10 ≤ max 128000000 wTl2.now)) ∧
    (State.rdB (key 0x7840 1) (State.wr (key 0x7840 6) 0 wTl) = true ∧ State.bit (key 0x7840 6) 0 (State.wr (key 0x7840 6) 0 wTl) = false ∧ (State.wr (key 0x7840 6) 0 wTl).island.lastCmd + Time.ms 60 ≤ max 768000000 (State.wr (key 0x7840 6) 0 wTl).now) ∧
    (State.rdB (key 0x7840 1) wTl = true ∧ wTl.island.lastTx + Time.ms 20 ≤ max 256000000 wTl.now) :=
  by
    repeat refine ⟨by decide +kernel, ?_⟩
    decide +kernel

end DemandedCircuitsStandOpen

namespace CircuitCommands

def wIs (l : List (Nat × Int)) : State := let s := sv ([(key 0x7800 1, 2), (key 0x2000 1, 3)] ++ l); { s with power := { s.power with inserted := true, proofPassed := true, proofHeld := true } }
def wCi (l : List (Nat × Int)) (c : IslandCirc) : State := (wIs l).setCirc 1 c
def wObs (l : List (Nat × Int)) (c : IslandCirc) : State := let s := wCi l c; { s with island := { s.island with observed := true } }
def a08b_1 := (wObs [(ik 1 2, 0)] {})

/-- Witness of the hypotheses of Obligations.CircuitCommandsComplete, clause by clause. -/
theorem test_witness_CircuitCommandsComplete :
    (a08b_1.Serves ∧ State.Passes hq (0x7820 + 1) 11 0 1 a08b_1 ∧ hostCloseOwn 1 a08b_1 = 0 ∧ (State.circ 1 a08b_1).pulse = none ∧ (State.circ 1 a08b_1).step = 0) :=
  by decide +kernel

end CircuitCommands

namespace ReferencesAndPll

def wCk (l : List (Nat × Int)) (f : Clock → Clock) : State := (sv ([(key 0x2000 1, 3), (ckc 5, 1), (ckc 3, 3), (ckc 2, 0)] ++ l)).modClock f
def a09_1 := (wCk [(ckc 1, 2)] id)
def a09_2 := (wCk [(ckc 1, 2), (ckc 3, 7), (ckc 2, 1)] id)
def a09_3 := (wCk [(ckc 1, 2), (ckc 3, 7), (ckc 2, 0)] (fun c => { c with qualSince := some 5, left := true }))
def a09_4 := (wCk [(ckc 1, 2), (ckc 3, 7)] id)
def a09_5 := (wCk [(ckc 1, 2), (ckc 3, 3)] id)
def a09_6 := (wCk [(ckc 8, -5), (ckc 9, 9000)] id)
def a09_7 := (wCk [(ckc 5, 2)] id)
def a09_8 := (wCk [(ckc 5, 4)] (fun c => { c with hopAt := some 5 }))
def a09_9 := (wCk [(ckc 0xA, 9)] (fun c => { c with lockAt := some 5 }))
def a09_10 := (wCk [(ckc 0x13 1, 9)] id)
def a09_11 := (wCk [] id)
def a09_12 := (wCk [(ckc 4, 1)] (fun c => { c with lockAt := some 5 }))
def a09_13 := (wCk [(ckc 4, 1)] id)
def a09_14 := (wCk [(ckc 4, 3), (bk 1 1 3, 4)] (fun c => { c with bothLost := some 5 }))
def ann : AnnounceMsg := { domain := 0, grandmaster := 77, priority1 := 1, clockClass := 6, accuracy := 0x21, variance := 5, priority2 := 6, stepsRemoved := 0, ptpTimescale := true, utcOffset := 37, utcValid := true, leap61 := false, leap59 := false, inaccuracy := 5 }
def sm : SyncMsg := { domain := 0, masterTime := 99999, offset := 640 }
def wPtp (l : List (Nat × Int)) (f : Clock → Clock) : State := (sv ([(key 0x2000 1, 3), (ptk 1, 1), (tmk 2, 1), (ptk 0xF, 1)] ++ l)).modClock (fun c => f { c with ports := [(1, { pathOk := true, master := some ann })] })
def a09_16 := (wPtp [] id)
def a09_17 := (wPtp [] (fun c => { c with stepDone := true }))
def a09_18 := (wPtp [(ckc 4, 1)] (fun c => { c with stepDone := true }))
def a09_19 := (sv [(ptk 1, 1), (ptk 0xF, 0xFF), (ptk 7, 0)])
def a09_20 := (sv [(ptk 1, 1)])
def a09_21 := (sv [(ptk 1, 1), (ptk 3, 1), (ptk 0xE, 6)])
def a09_22 := (wPtp [(ptk 3, 1)] id)
def a09_23 := (wPtp [(ptk 0xE, 6)] id)
def a09_24 := (wPtp [(ptk 0xE, 6), (ptk 2, 1)] id)
def a09_25 := (wPtp [(ptk 0xE, 9), (ptk 3, 1)] id)
def a09_26 := (wPtp [(tmk 3, 1)] (fun c => { c with belowSince := some 4 }))
def a09_27 := (wPtp [] (fun c => { c with lastOffset := some 64 }))
def wTp (l : List (Nat × Int)) (r : TpoRec) : State := (sv ([(key 0x2000 1, 3), (tpk 2 1, 2), (tpk 2 2, 10), (tpk 2 3, 0), (tpk 2 4, 128000), (tpk 2 5, 640), (tpk 2 9, 1)] ++ l)).setTpo 2 r
def a09_28 := (wTp [] { })
def a09_29 := (wTp [(tpk 2 7, 1)] { })
def a09_30 := (wTp [(tpk 2 1, 1)] { })
def a09_31 := (wTp [] { endsAt := some 320 })
def a09_32 := (wTp [(tpk 2 2, 40001)] { })
def a09_33 := (wTp [(tpk 2 9, 0)] { })
def annW : AnnounceMsg := { ann with priority1 := 200, sender := 8 }
def annX : AnnounceMsg := { ann with priority1 := 100, sender := 9 }
def wFor : State := (sv [(ptk 1, 1), (ptk 0xF, 0xFF), (ptk 7, 0)]).modClock (fun c => { c with ports := [(1, { foreign := [(8, (annW, 99990))], master := some annW })] })
def a09_34 := { annX with priority1 := 201 }

/-- Witness of the hypotheses of Obligations.ReferencesAndPllComplete, clause by clause. -/
theorem test_witness_ReferencesAndPllComplete :
    State.bit (ckc 3) 2 a09_1 = false ∧
    State.bit (ckc 3) 2 a09_2 = true ∧
    (a09_3.clock.qualSince = some 5 ∧ 5 + Time.sec 10 ≤ max 128000000005 a09_3.now) ∧
    (a09_4.Serves ∧ State.Passes hq 0x2200 1 0 1 a09_4 ∧ (1 ≠ 1 ∨ State.bit (ckc 3) 2 a09_4 = true)) ∧
    (a09_5.Serves ∧ State.Passes hq 0x2200 1 0 1 a09_5 ∧ State.bit (ckc 3) 2 a09_5 = false) ∧
    (State.bit (ckc 5) 0 a09_6 = true ∧ State.rdN (ckc 4) a09_6 = 0) ∧
    (State.bit (ckc 5) 1 a09_7 = true ∨ State.bit (ckc 5) 2 a09_7 = true) ∧
    (a09_8.clock.hopAt = some 5 ∧ State.bit (ckc 5) 2 a09_8 = true ∧ 5 + Time.us 20 ≤ max 256005 a09_8.now) ∧
    (a09_9.clock.lockAt = some 5 ∧ State.bit (ckc 5) 0 a09_9 = true ∧ 5 + Time.sec 1 ≤ max 12800000005 a09_9.now ∧ State.rdN (ckc 2) a09_9 < 2) ∧
    (a09_10.Serves ∧ State.Passes hq 0x2200 20 0 1 a09_10 ∧ a09_10.mod = ModState.configuration) ∧
    (State.bit (ckc 5) 0 a09_10 = true ∧ State.rdN (ckc 4) a09_10 ≠ 3) ∧
    State.bit (ckc 3) (b2n false) a09_11 = true ∧
    (a09_12.clock.lockAt = some 5 ∧ State.bit (ckc 5) 0 a09_12 = true ∧ (State.rdN (ckc 4) a09_12 = 1 ∨ State.rdN (ckc 4) a09_12 = 2) ∧ 5 + Time.us 10 ≤ max 128005 a09_12.now ∧ (State.begin 128005 a09_12).modTime % framePeriod < 32) ∧
    State.rdN (ckc 4) a09_13 ≠ 3 ∧
    (a09_14.clock.bothLost = some 5 ∧ 5 + Time.ms 100 ≤ max 1280000005 a09_14.now ∧ State.rdN (ckc 4) a09_14 = 3) ∧
    State.rdN (ckc 2) a09_11 ≠ 255 :=
  by
    repeat refine ⟨by decide +kernel, ?_⟩
    decide +kernel

/-- Witness of the hypotheses of Obligations.TimeAndPtpComplete, clause by clause. -/
theorem test_witness_TimeAndPtpComplete :
    (a09_16.ptpSteers = true ∧ State.rdN (ptk 6) a09_16 = sm.domain ∧ State.rdN (ptk 15) a09_16 = b2n true ∧ (State.ptpPort (b2n true) a09_16).pathOk = true ∧ State.rdB (ptk 1) a09_16 = true ∧ (∃ a, (State.ptpPort (b2n true) a09_16).master = some a ∧ a.sender = sm.sender)) ∧
    (a09_17.ptpSteers = true ∧ State.rdN (ptk 6) a09_17 = sm.domain ∧ State.rdN (ptk 15) a09_17 = b2n true ∧ (State.ptpPort (b2n true) a09_17).pathOk = true ∧ State.rdB (ptk 1) a09_17 = true ∧ (∃ a, (State.ptpPort (b2n true) a09_17).master = some a ∧ a.sender = sm.sender)) ∧
    (a09_18.ptpSteers = true ∧ State.rdN (ptk 6) a09_18 = sm.domain ∧ State.rdN (ptk 15) a09_18 = b2n true ∧ (State.ptpPort (b2n true) a09_18).pathOk = true ∧ State.rdB (ptk 1) a09_18 = true ∧ (∃ a, (State.ptpPort (b2n true) a09_18).master = some a ∧ a.sender = sm.sender)) ∧
    (State.ptpHears ann.domain a09_19 = true ∧ (∀ e ∈ (State.ptpPort (b2n true) a09_19).foreign, e.2.2 + a09_19.announceTimeout ≤ max 99999 a09_19.now) ∧ 0 < a09_19.announceTimeout) ∧
    (State.ptpHears 0 a09_20 = true ∧ State.rdN (ptk 3) a09_20 = 0) ∧
    (State.ptpHears 0 a09_21 = true ∧ State.rdN (ptk 3) a09_21 = 1 ∧ State.rdN (ptk (13 + b2n true)) a09_21 = 6) ∧
    (PdelayMsg.response 5 88888 ∈ [PdelayMsg.request 5 88888, PdelayMsg.response 5 88888, PdelayMsg.delayReq 5 88888] ∧ State.ptpHears 5 a09_20 = false) ∧
    ((State.ptpHears ({ portB := true, domain := 0, ns := 55 } : DelayRespMsg).domain a09_22 = true) ∧ State.rdN (ptk 3) a09_22 = 1) ∧
    (State.rdB (ptk 1) a09_23 = true ∧ State.rdN (ptk (13 + b2n true)) a09_23 = 6 ∧ State.rdN (ptk 2) a09_23 ≠ 1 ∧ State.rdN (ptk 3) a09_23 = 0) ∧
    (State.rdB (ptk 1) a09_24 = true ∧ State.rdN (ptk (13 + b2n true)) a09_24 = 6 ∧ State.rdN (ptk 2) a09_24 = 1 ∧ State.rdN (ptk 3) a09_24 = 0) ∧
    (State.rdB (ptk 1) a09_25 = true ∧ State.rdN (ptk 3) a09_25 = 1 ∧ (State.rdN (ptk (13 + b2n true)) a09_25 = 9 ∨ State.rdN (ptk (13 + b2n true)) a09_25 = 10)) ∧
    ((State.ptpPort (b2n true) a09_16).master.isSome = true ∧ (State.ptpPort (b2n true) a09_16).heard + a09_16.announceTimeout ≤ max 9999999999999 a09_16.now ∧ (∀ e ∈ (State.ptpPort (b2n true) a09_16).foreign, e.2.2 + a09_16.announceTimeout ≤ max 9999999999999 a09_16.now)) ∧
    (a09_26.clock.belowSince = some 4 ∧ 4 + Time.sec 10 ≤ max 9999999999999 a09_26.now ∧ State.rdN (tmk 3) a09_26 = 1) ∧
    (a09_27.Serves ∧ State.Passes hq 0x2300 7 0 1 a09_27 ∧ a09_27.mod = ModState.configuration ∧ (∀ b ∈ allBatches, State.bstate b a09_27 = BatchState.off) ∧ State.rdN (tmk 2) a09_27 = 1 ∧ a09_27.clock.lastOffset = some 64) ∧
    (a09_16.Serves ∧ State.Passes hq 0x2300 7 0 1 a09_16 ∧ a09_16.clock.lastOffset = none) ∧
    (State.ptpHears annX.domain wFor = true ∧ (State.ptpPort (b2n true) wFor).foreign = [(annW.sender, annW, 99990)] ∧ max 99999 wFor.now < 99990 + wFor.announceTimeout ∧ annW.sender ≠ annX.sender ∧ announceKey annW ≠ announceKey annX) ∧
    (State.ptpHears a09_34.domain wFor = true ∧ (State.ptpPort (b2n true) wFor).foreign = [(annW.sender, annW, 99990)] ∧ max 99999 wFor.now < 99990 + wFor.announceTimeout ∧ annW.sender ≠ a09_34.sender ∧ announceKey annW ≠ announceKey a09_34) :=
  by
    repeat refine ⟨by decide +kernel, ?_⟩
    decide +kernel

/-- Witness of the hypotheses of Obligations.TimePulseOutputsComplete, clause by clause. -/
theorem test_witness_TimePulseOutputsComplete :
    (State.bit (tpk 2 9) 0 a09_28 = true ∧ State.firing 2 (State.tpo 2 a09_28).next a09_28 ≤ (State.begin 320 a09_28).modTime) ∧
    (State.bit (tpk 2 9) 0 a09_29 = true ∧ State.firing 2 (State.tpo 2 a09_29).next a09_29 ≤ (State.begin 320 a09_29).modTime) ∧
    (State.bit (tpk 2 9) 0 a09_30 = true ∧ State.firing 2 (State.tpo 2 a09_30).next a09_30 ≤ (State.begin 320 a09_30).modTime) ∧
    ((State.tpo 2 a09_31).endsAt = some 320 ∧ 320 ≤ max 320 a09_31.now) ∧
    (a09_32.Serves ∧ State.Passes hq (0x2320 + 2) 8 0 1 a09_32 ∧ State.rdN (tpk 2 1) a09_32 ≠ 0 ∧ 128000 ≤ State.rdN (tpk 2 4) a09_32 ∧ 640 ≤ State.rdN (tpk 2 5) a09_32 ∧ State.rdN (tpk 2 5) a09_32 < State.rdN (tpk 2 4) a09_32 ∧ (State.begin 5 a09_32).modTime + Time.us 100 ≤ State.firing 2 0 a09_32) ∧
    (a09_33.Serves ∧ State.Passes hq (0x2320 + 2) 8 0 1 a09_33 ∧ State.rdN (tpk 2 1) a09_33 ≠ 0 ∧ 128000 ≤ State.rdN (tpk 2 4) a09_33 ∧ 640 ≤ State.rdN (tpk 2 5) a09_33 ∧ State.rdN (tpk 2 5) a09_33 < State.rdN (tpk 2 4) a09_33 ∧ State.firing 2 0 a09_33 < (State.begin 5 a09_33).modTime + Time.us 100) ∧
    (a09_28.Serves ∧ State.Passes hq (0x2320 + 2) 8 0 0 a09_28) :=
  by
    repeat refine ⟨by decide +kernel, ?_⟩
    decide +kernel

end ReferencesAndPll

namespace AcquisitionCommands

def wAq (l : List (Nat × Int)) : State := sv ([(key 0x2000 1, 3)] ++ l)
def wAs (m : Time) (f : State → State) (l : List (Nat × Int)) : State := let s := f (wAq l); { s with rack := { s.rack with armAt := some (true, m) } }
def a10_1 := (wAq [])
def a10_2 := (wAq [(aqk 2, 1000)])
def a10_3 := (wAq [(key 0x2500 3, 1)])
def a10_4 := (wAq [(key 0x2500 3, 2), (key 0x2500 4, 2)])
def a10_5 := (wAs 500 id [(aqk 4, 1), (aqk 5, 1000)])
def wArm (l : List (Nat × Int)) : State := (wAq ([(aqk 3, 2), (bfk 0 1, 1)] ++ l)).setAcqBuf 0 { recs := [{ at_ := 3 }] }
def a10_6 := (wArm [(aqk 4, 0x40), (aqk 5, 1000)])
def a10_7 := (wArm [])
def a10_8 := (wAq [(aqk 3, 2)])
def a10_9 := (wArm [(bfk 0 1, 3)])
def a10_10 := (wArm [(bfk 0 1, 4)])
def a10_11 := (wArm [(bfk 0 1, 5)])
def a10_12 := (wArm [(bfk 0 1, 2)])
def a10_13 := (wArm [(bfk 0 1, 4), (key 0x2001 1, 5)])
def ev0 : Event := { tai := 5, code := 0x300, src := 2, data := [1] }
def lr0 : LogRecord := ⟨41, ev0, 0, 1⟩
def wLg (f : Log → Log) (l : List (Nat × Int)) : State := let s := wAq ([(lgk 4, 41)] ++ l); { s with log := f { s.log with queue := [ev0], records := [lr0], nextSeq := 42 } }
def a10_14 := (wLg id [])
def a10_15 := { hq with servicePort := false }
def a10_16 := (wLg (fun l => { l with frozenSince := some 5 }) [])
def a10_17 := (wLg (fun l => { l with clearing := true }) [(key 0x2001 1, 4)])

/-- Witness of the hypotheses of Obligations.AcquisitionCommandsComplete, clause by clause. -/
theorem test_witness_AcquisitionCommandsComplete :
    State.inputLevel 2 a10_1 ≠ true ∧
    (a10_1.Serves ∧ (12800500 = if State.rdN (aqk 2) a10_1 = 0 then (State.begin 500 a10_1).modTime + Time.ms 1 else nsToFine (State.rdN (aqk 2) a10_1)) ∧ State.Passes hq 0x7000 1 0 1 a10_1 ∧ a10_1.rackRole ≠ 2 ∧ State.Passes hq 0x7000 1 0 0 a10_1) ∧
    (a10_2.Serves ∧ (12800 = if State.rdN (aqk 2) a10_2 = 0 then (State.begin 500 a10_2).modTime + Time.ms 1 else nsToFine (State.rdN (aqk 2) a10_2)) ∧ State.Passes hq 0x7000 1 0 1 a10_2 ∧ a10_2.rackRole ≠ 2 ∧ State.Passes hq 0x7000 1 0 0 a10_2) ∧
    (a10_3.Serves ∧ (12800500 = if State.rdN (aqk 2) a10_3 = 0 then (State.begin 500 a10_3).modTime + Time.ms 1 else nsToFine (State.rdN (aqk 2) a10_3)) ∧ State.Passes hq 0x7000 1 0 1 a10_3 ∧ a10_3.rackRole ≠ 2 ∧ State.Passes hq 0x7000 1 0 0 a10_3) ∧
    (a10_4.Serves ∧ (12800500 = if State.rdN (aqk 2) a10_4 = 0 then (State.begin 500 a10_4).modTime + Time.ms 1 else nsToFine (State.rdN (aqk 2) a10_4)) ∧ State.Passes hq 0x7000 1 0 1 a10_4 ∧ State.Passes hq 0x7000 1 0 0 a10_4 ∧ a10_4.rackRole = 2) ∧
    (a10_5.rack.armAt = some (true, 500) ∧ 500 ≤ (State.begin 500 a10_5).modTime) ∧
    ((∀ i ∈ List.range 8, State.unitsOn 5 i a10_6 = []) ∧ State.bufferIn 2 a10_6 = none ∧ a10_6.acqState = 2 ∧ State.bufferIn 1 a10_6 = some 0 ∧ (State.begin 320000000000 a10_6).atRecord = true) ∧
    (a10_7.acqState = 2 ∧ State.bufferIn 2 a10_7 = none ∧ 2 ≠ 255 ∧ State.bufferIn 1 a10_7 = some 0) ∧
    (a10_8.acqState = 2 ∧ State.bufferIn 2 a10_8 = none ∧ State.bufferIn 1 a10_8 = none) ∧
    (a10_9.Serves ∧ State.Passes hq (0x70E0 + 0) 10 0 1 a10_9 ∧ (State.rdN (bfk 0 1) a10_9 = 3 ∨ State.rdN (bfk 0 1) a10_9 = 5)) ∧
    (a10_10.Serves ∧ State.Passes hq (0x70E0 + 0) 10 0 1 a10_10 ∧ State.rdN (bfk 0 1) a10_10 = 4) ∧
    (a10_11.Serves ∧ State.Passes hq (0x70E0 + 0) 9 0 1 a10_11 ∧ (State.rdN (bfk 0 1) a10_11 = 3 ∨ State.rdN (bfk 0 1) a10_11 = 5) ∧ State.rdN (bfk 0 1) a10_11 ≠ 3) ∧
    (a10_12.Serves ∧ State.Passes hq (0x70E0 + 0) 9 0 1 a10_12 ∧ State.rdN (bfk 0 1) a10_12 ≠ 3 ∧ State.rdN (bfk 0 1) a10_12 ≠ 5) ∧
    (a10_13.longOp = 5 ∧ a10_13.srv.longInst = 0 ∧ State.rdN (bfk 0 1) a10_13 = 4) :=
  by
    repeat refine ⟨by decide +kernel, ?_⟩
    decide +kernel

/-- Witness of the hypotheses of Obligations.LogCommandsComplete, clause by clause. -/
theorem test_witness_LogCommandsComplete :
    (a10_14.log.frozenSince = none ∧ a10_14.log.clearing = false ∧ a10_14.log.staging = [] ∧ a10_14.log.queue = [ev0] ∧ a10_14.log.records.length < 262144) ∧
    a10_14.Serves ∧
    (a10_14.Serves ∧ State.Passes hq 0x7100 10 0 1 a10_14 ∧ hq.servicePort = true ∧ a10_14.log.frozenSince = none ∧ a10_14.log.clearing = false) ∧
    (a10_14.Serves ∧ State.Passes a10_15 0x7100 10 0 1 a10_14 ∧ a10_15.servicePort = false) ∧
    (a10_16.log.frozenSince = some 5 ∧ 5 + Time.sec 60 ≤ max 768000000005 a10_16.now) ∧
    (a10_14.Serves ∧ State.Passes hq 0x7100 8 0 41 a10_14 ∧ a10_14.log.frozenSince = none ∧ (41 = 4294967295 ∨ a10_14.log.records = [] ∨ State.rdN (lgk 4) a10_14 ≤ 41) ∧ 41 ≠ 4294967295 ∧ a10_14.log.records ≠ []) ∧
    (a10_16.Serves ∧ State.Passes hq 0x7100 8 0 41 a10_16 ∧ a10_16.log.frozenSince ≠ none) ∧
    (a10_14.Serves ∧ State.Passes hq 0x7100 8 0 40 a10_14 ∧ a10_14.log.frozenSince = none ∧ 40 ≠ 4294967295 ∧ a10_14.log.records ≠ [] ∧ 40 < State.rdN (lgk 4) a10_14) ∧
    a10_17.longOp = 4 :=
  by
    repeat refine ⟨by decide +kernel, ?_⟩
    decide +kernel

end AcquisitionCommands

namespace RackChanges

def wRk (l : List (Nat × Int)) (f : Rack → Rack) : State := (sv ([(key 0x2000 1, 3), (rkk 1, 0), (rkk 2, 0), (rkk 3, 1)] ++ l)).modRack f
def wMem (l : List (Nat × Int)) (f : Rack → Rack) : State := (sv ([(key 0x2000 1, 3), (rkk 1, 2), (rkk 2, 0), (rkk 3, 2)] ++ l)).modRack f
def a11_2 := (wRk [] id)
def txn0 : Txn := { id := 9, op := 2, due := 13000000, params := [], masks := [(1, 3), (2, 5)], named := [1, 2], ready := [1, 2] }
def txnNot : Txn := { txn0 with ready := [1] }
def txnDone : Txn := { txn0 with decided := true, stage := 1, applied := [(1, 3)] }
def txnRev : Txn := { txn0 with decided := true, stage := 3, applied := [(1, 3)] }
def wTx (x : Txn) : State := wRk [] (fun r => { r with txn := some x })
def a11_3 := (wRk [(cmk 3 2, 3), (cmk 1, 2)] id)
def a11_4 := (wMem [] id)
def a11_5 := (wTx txn0)
def pm : PrepareMsg := { txn := 4, op := 2, at_ := 13000000, mask := 0, params := [] }
def pmBad : PrepareMsg := { pm with mask := 2 }
def a11_6 := (wTx txnNot)
def pr0 : Prep := { msg := pm }
def a11_7 := (wMem [] (fun r => { r with prep := some pr0 }))
def a11_8 := (wMem [(rkk 6, 4)] (fun r => { r with prep := some pr0 }))
def txnR1 : Txn := { txnDone with reported := [1], applied := [(1, 3)] }
def txnR2 : Txn := { txnDone with reported := [2], applied := [(1, 3), (2, 5)] }
def a11_9 := (wTx txnDone)
def a11_10 := (wTx txnRev)
def hb (h : Nat) : HeartbeatMsg := { pair := 1, authority := 2, health := h, epoch := 4, nodeEpoch := 6, circuits := 0, crcGood := true }
def wAr (l : List (Nat × Int)) (f : Rack → Rack) : State := wRk ([(rkk 4, 1), (abk 1 1 1, 2), (abk 1 1 2, 3), (abk 1 3, 2)] ++ l) f
def a11_11 := (wAr [] id)
def a11_12 := { hb 33 with crcGood := false }
def a11_13 := (wAr [] (fun r => { r with beats := [(2, { msg := hb 33, at_ := 5, missRun := 2 })] }))
def bt (h m : Nat) : Beat := { msg := hb h, at_ := 5, missRun := m }
def a11_14 := (wAr [] (fun r => { r with beats := [(2, bt 33 2), (3, bt 33 0)] }))
def wTwin (l : List (Nat × Int)) (f : Rack → Rack) : State := wMem ([(twk 1, 1), (twk 2, 4), (twk 7, 1), (twk 8, 6), (twk 6, 2), (twk 0xB, 2)] ++ l) (fun r => f { r with beats := [(4, bt 33 0)] })
def a11_15 := (wTwin [] id)
def a11_16 := (wTwin [(rkk 6, 8)] id)
def a11_17 := (wAr [] (fun r => { r with beats := [(2, bt 33 0), (3, bt 33 0)] }))
def a11_18 := (wMem [] (fun r => { r with masterAt := some 5 }))
def a11_19 := (wTwin [] (fun r => { r with arbiterAt := some 5 }))
def a11_20 := (wRk [] (fun r => { r with heard := none }))
def a11_21 := (wTwin [(twk 6, 3)] id)
def a11_22 := (wTwin [(twk 6, 4), (twk 0x14, 1)] id)
def a11_23 := (wTwin [(twk 6, 3), (twk 0x14, 1)] id)
def a11_24 := (wTwin [(key 0x7823 7, 3)] (fun r => { r with bridgeShown := [(1, 5)], bridgeWanted := 3 }))
def scp : StateCopy := { batch := 3, state := 4, abandoned := false, openLoop := false, damping := false, t0 := 7, fixed := [], floats := [], gens := [] }
def a11_25 := (wTwin [(twk 7, 2)] id)
def a11_26 := { scp with t0 := 3 }
def a11_27 := (wTwin [(twk 7, 1)] (fun r => { r with turnAt := some 7 }))

/-- Witness of the hypotheses of Obligations.RackChangesComplete, clause by clause. -/
theorem test_witness_RackChangesComplete :
    a11_2.rackRole = 1 ∧
    (a11_3.Serves ∧ State.Passes hq 0x2501 5 0 1 a11_3 ∧ a11_3.rackRole = 1 ∧ a11_3.rack.txn = none ∧ (State.rdN (cmk 2) a11_3 = 0 ∨ (State.begin 500 a11_3).modTime + Time.ms 1 ≤ nsToFine (State.rdN (cmk 2) a11_3))) ∧
    (a11_4.Serves ∧ State.Passes hq 0x2501 5 0 1 a11_4 ∧ a11_4.rackRole ≠ 1) ∧
    (a11_5.Serves ∧ State.Passes hq 0x2501 5 0 1 a11_5 ∧ a11_5.rackRole = 1 ∧ a11_5.rack.txn ≠ none) ∧
    State.refuseCause pm (State.begin 500 a11_4) = 0 ∧
    State.refuseCause pmBad (State.begin 500 a11_4) ≠ 0 ∧
    (a11_6.rack.txn = some txnNot ∧ txnNot.decided = false ∧ 2 ∈ txnNot.named ∧ (State.begin 500 a11_6).modTime + Time.us 400 ≤ txnNot.due) ∧
    (a11_6.rack.txn = some txnNot ∧ txnNot.decided = false ∧ 2 ∈ txnNot.named ∧ txnNot.due < (State.begin 25800000 a11_6).modTime + Time.us 400) ∧
    (a11_5.rack.txn = some txn0 ∧ txn0.decided = false ∧ txn0.due ≤ (State.begin 10440000 a11_5).modTime + Time.us 400 ∧ (∀ i ∈ txn0.named, i ∈ txn0.ready) ∧ (State.begin 10440000 a11_5).modTime + Time.us 200 ≤ txn0.due) ∧
    (a11_6.rack.txn = some txnNot ∧ txnNot.decided = false ∧ txnNot.due ≤ (State.begin 10440000 a11_6).modTime + Time.us 400 ∧ (∃ i ∈ txnNot.named, i ∉ txnNot.ready) ∧ txnNot.stage = 0) ∧
    (a11_7.rack.prep = some pr0 ∧ (State.begin 500 a11_7).modTime + Time.us 200 ≤ pr0.msg.at_ ∧ State.bit (rkk 6) 2 a11_7 = false) ∧
    (a11_8.rack.prep = some pr0 ∧ (State.begin 500 a11_8).modTime + Time.us 200 ≤ pr0.msg.at_ ∧ (pr0.msg.at_ < (State.begin 500 a11_8).modTime + Time.us 200 ∨ State.bit (rkk 6) 2 a11_8 = true)) ∧
    (a11_7.rack.prep = some pr0 ∧ (pr0.msg.at_ < (State.begin 12999999 a11_7).modTime + Time.us 200 ∨ State.bit (rkk 6) 2 a11_7 = true)) ∧
    (a11_9.rack.txn = some txnDone ∧ 1 ∈ txnDone.named ∧ (txnR1 = { id := txnDone.id, op := txnDone.op, due := txnDone.due, params := txnDone.params, masks := txnDone.masks, named := txnDone.named, stage := txnDone.stage, decided := txnDone.decided, ready := txnDone.ready, refused := txnDone.refused, reported := 1 :: List.filter (fun x => decide (x ≠ 1)) txnDone.reported, applied := Tbl.set 1 (Tbl.get 0 1 txnDone.applied ||| 3) txnDone.applied }) ∧ txnR1.stragglers ≠ []) ∧
    (a11_9.rack.txn = some txnDone ∧ 2 ∈ txnDone.named ∧ (txnR2 = { id := txnDone.id, op := txnDone.op, due := txnDone.due, params := txnDone.params, masks := txnDone.masks, named := txnDone.named, stage := txnDone.stage, decided := txnDone.decided, ready := txnDone.ready, refused := txnDone.refused, reported := 2 :: List.filter (fun x => decide (x ≠ 2)) txnDone.reported, applied := Tbl.set 2 (Tbl.get 0 2 txnDone.applied ||| 5) txnDone.applied }) ∧ txnR2.stragglers = []) ∧
    (a11_9.rack.txn = some txnDone ∧ txnDone.decided = true ∧ txnDone.due + Time.ms 1 ≤ (State.begin 25800000 a11_9).modTime ∧ txnDone.stragglers ≠ [] ∧ txnDone.stage = 1) ∧
    (a11_10.rack.txn = some txnRev ∧ txnRev.decided = true ∧ txnRev.due + Time.ms 1 ≤ (State.begin 25800000 a11_10).modTime ∧ txnRev.stragglers ≠ [] ∧ txnRev.stage = 3) :=
  by
    repeat refine ⟨by decide +kernel, ?_⟩
    decide +kernel

/-- Witness of the hypotheses of Obligations.AuthorityCommandsComplete, clause by clause. -/
theorem test_witness_AuthorityCommandsComplete :
    (a11_11.power.removal = none ∧ a11_12.crcGood = false) ∧
    (a11_11.power.removal = none ∧ (hb 33).crcGood = true ∧ (State.beat 2 a11_11 = none ∨ (State.begin 500 a11_11).modTime % Time.us 50 ≤ Time.us 10)) ∧
    (a11_13.power.removal = none ∧ (hb 33).crcGood = true ∧ (State.beat 2 a11_13 = some { msg := hb 33, at_ := 5, missRun := 2 }) ∧ Time.us 10 < (State.begin 256000 a11_13).modTime % Time.us 50) ∧
    ((a11_11.twinRole ≠ 0 ∨ a11_11.arbitrates = true) ∧ (State.begin 640000 a11_11).modTime % Time.us 50 < 32) ∧
    (State.beat 2 a11_14 = some (bt 33 2) ∧ ((↑(bt 33 2).at_ + a11_14.clock.offset).toNat / Time.us 50 + (bt 33 2).missRun + 1) * Time.us 50 + Time.us 10 ≤ (State.begin 64000000000 a11_14).modTime) ∧
    (a11_15.twinRole ≠ 0 ∧ State.rdN (twk 8) a11_15 < 7 ∧ State.bit (rkk 6) 3 a11_15 = false) ∧
    (a11_16.twinRole ≠ 0 ∧ State.rdN (twk 8) a11_16 < 7 ∧ State.bit (rkk 6) 3 a11_16 = true) ∧
    (a11_15.twinRole ≠ 0 ∧ a11_15.authority = 1 ∧ State.rdN (twk 8) a11_15 = 6) ∧
    (a11_15.twinRole ≠ 0 ∧ a11_15.authority = 1 ∧ State.rdN (twk 8) a11_15 = 6 ∧ 77 ≠ 0) ∧
    (State.arbitratesPair 1 a11_17 = true ∧ State.rdN (abk 1 3) a11_17 = 2 ∧ State.beat (State.otherSlot 1 2 a11_17) a11_17 = some (bt 33 0) ∧ beatEligible (bt 33 0) = true) ∧
    (a11_18.rackRole = 2 ∧ a11_18.rack.masterAt.getD a11_18.power.startedAt + Time.ms 1 ≤ max 12800005 a11_18.now ∧ State.bit (rkk 6) 2 a11_18 = false) ∧
    (a11_19.twinRole ≠ 0 ∧ State.bit (rkk 6) 3 a11_19 = false ∧ a11_19.rack.arbiterAt.getD a11_19.power.startedAt + Time.ms 1 ≤ max 12800005 a11_19.now) ∧
    (a11_20.rack.heard = none ∧ a11_20.power.startedAt + Time.ms 10 ≤ max 128000000 a11_20.now) ∧
    (a11_2.rack.heard = none ∧ max 500 a11_2.now < a11_2.power.startedAt + Time.ms 10) ∧
    (a11_15.serverUp = true ∧ a11_15.longOp = 0 ∧ State.Passes hq 0x2510 15 0 1 a11_15 ∧ a11_15.twinRole ≠ 0 ∧ a11_15.authority = 1 ∧ a11_15.partnerEligible = true) ∧
    (a11_21.serverUp = true ∧ a11_21.longOp = 0 ∧ State.Passes hq 0x2510 15 0 1 a11_21 ∧ a11_21.twinRole ≠ 0 ∧ a11_21.authority = 1 ∧ a11_21.partnerEligible = false) ∧
    (a11_22.serverUp = true ∧ a11_22.longOp = 0 ∧ State.Passes hq 0x2510 22 0 1 a11_22 ∧ State.rdB (twk 20) a11_22 = true ∧ State.rdN (twk 6) a11_22 = 4) ∧
    (a11_23.serverUp = true ∧ a11_23.longOp = 0 ∧ State.Passes hq 0x2510 22 0 1 a11_23 ∧ State.rdB (twk 20) a11_23 = true ∧ State.rdN (twk 6) a11_23 ≠ 4) ∧
    (Tbl.find? 1 a11_24.rack.bridgeShown = some 5 ∧ 5 + Time.sec 1 ≤ max 12800000005 a11_24.now ∧ State.circState (1 + 2) a11_24 ≠ 0 ∧ State.circState (1 + 2) a11_24 ≠ 4) :=
  by
    repeat refine ⟨by decide +kernel, ?_⟩
    decide +kernel

/-- Witness of the hypotheses of Obligations.TwinLinkCommandsComplete, clause by clause. -/
theorem test_witness_TwinLinkCommandsComplete :
    a11_15.twinRole ≠ 0 ∧
    (a11_15.twinRole ≠ 0 ∧ State.rdN (twk 11) a11_15 = 2) ∧
    (a11_25.twinRole ≠ 0 ∧ State.rdN (twk 11) a11_25 = 2 ∧ ((a11_25.authority = 2 ∧ ∀ (d : Time), a11_25.rack.turnAt = some d → d ≤ scp.t0) ∨ a11_25.authority = 1 ∧ ∃ d, a11_25.rack.turnAt = some d ∧ scp.t0 < d)) ∧
    (a11_27.twinRole ≠ 0 ∧ State.rdN (twk 11) a11_27 = 2 ∧ ((a11_27.authority = 2 ∧ ∀ (d : Time), a11_27.rack.turnAt = some d → d ≤ a11_26.t0) ∨ a11_27.authority = 1 ∧ ∃ d, a11_27.rack.turnAt = some d ∧ a11_26.t0 < d)) :=
  by
    repeat refine ⟨by decide +kernel, ?_⟩
    decide +kernel

end RackChanges

namespace SupplyAndReset

def wPw (m : Int) (l : List (Nat × Int)) (f : Power → Power) : State := (sv ([(key 0x2000 1, m)] ++ l)).modPower f
def a12_1 := (wPw 5 [] id)
def a12_2 := (wPw 5 [(twk 1, 1), (twk 7, 1), (rkk 1, 2)] id)
def a12_3 := (wPw 6 [(twk 1, 1), (twk 7, 2), (rkk 1, 2)] id)
def a12_4 := (wPw 0 [] id)
def a12_5 := (wPw 2 [] (fun p => { p with failStage := .proof }))
def a12_6 := (wPw 7 [] (fun p => { p with phase := 1, holdUp := some 5 }))
def a12_7 := (wPw 7 [] (fun p => { p with phase := 2, supply := false }))
def a12_8 := (wPw 7 [] (fun p => { p with phase := 3, supply := false }))
def a12_9 := (wPw 7 [] (fun p => { p with dark := true, mark := true }))
def a12_10 := (wPw 1 [] id)
def a12_11 := (wPw 1 [] (fun p => { p with proofAt := 5 }))
def a12_12 := (wPw 1 [(vnk 9, 4)] (fun p => { p with storeHot := true }))
def wCk2 (m : Int) (k : Nat) : State := wPw m [] (fun p => { p with check := some ⟨k, 5⟩ })
def a12_13 := (wCk2 3 1)
def a12_14 := (wCk2 1 0)
def a12_15 := (wPw 5 [(stk 1, 5400), (stk 2, 5400)] id)
def a12_16 := (wPw 5 [(stk 1, 5399), (stk 2, 5400)] id)
def a12_17 := (wPw 5 [(stk 1, 5400), (stk 2, 5400)] (fun p => { p with repeatAt := some 500 }))
def a12_18 := (wPw 3 [(stk 1, 5400), (stk 2, 5400)] id)
def a12_19 := (wPw 3 [(stk 1, 5399), (stk 2, 5400)] id)
def a12_20 := (wPw 3 [(stk 1, 5399), (stk 2, 5400)] (fun p => { p with check := some ⟨1, 5⟩ }))
def a12_21 := (wPw 7 [] (fun p => { p with lossHold := true }))
def a12_22 := (wPw 4 [(twk 1, 1), (twk 7, 2), (rkk 1, 2)] id)
def a12_23 := (wPw 4 [] id)
def a12_24 := (wPw 7 [] id)
def a12_25 := (wPw 3 [] id)
def a12_26 := (wPw 3 [(bk 0 2 3, 1)] id)
def a12_27 := (wPw 3 [(key 0x2001 1, 1)] id)
def a12_28 := (wPw 3 [(key 0x2001 1, 3)] id)
def a12_29 := (wPw 3 [(dk 1, 2)] id)
def a12_30 := (wPw 3 [(dk 1, 2), (bk 0 2 3, 1)] id)
def a12_31 := (wPw 3 [(dk 1, 0)] id)
def a12_32 := (wPw 3 [(dk 1, 3)] id)
def a12_33 := (wPw 3 [(dk 6, 1)] id)
def a12_34 := (wPw 0 [(dk 7, 1), (dk 0, 2), (dk 5, 2), (dk 6, 2)] (fun p => { p with inserted := true }))
def a12_35 := (wPw 0 [(dk 7, 1), (dk 0, 2), (dk 5, 2), (dk 6, 2)] (fun p => { p with inserted := true, failing := [24] }))
def a12_36 := (wPw 4 [(dk 6, 1)] id)
def a12_37 := (wPw 2 [(dk 5, 2), (dk 6, 2), (dk 7, 2)] (fun p => { p with failStage := .init, inserted := true }))
def a12_38 := (wPw 2 [(dk 5, 2), (dk 6, 2), (dk 7, 2)] (fun p => { p with failStage := .init, inserted := true, failing := [24] }))
def a12_39 := (wPw 1 [] (fun p => { p with inserted := true, startedAt := 5 }))
def a12_40 := (wPw 0 [] (fun p => { p with inrushAt := some 7 }))
def a12_41 := (wPw 8 [] (fun p => { p with removal := some 7 }))
def a12_42 := (wPw 5 [] (fun p => { p with inserted := true }))
def a12_43 := (wPw 5 [(dk 2, 2)] id)
def a12_44 := (wPw 5 [] (fun p => { p with junctions := [(4, 800)] }))

/-- Witness of the hypotheses of Obligations.SupplyAndResetComplete, clause by clause. -/
theorem test_witness_SupplyAndResetComplete :
    (a12_1.power.supply = true ∧ a12_1.power.dark = false ∧ 16499 < 16500) ∧
    (a12_2.power.supply = true ∧ a12_2.power.dark = false ∧ 16499 < 16500) ∧
    (a12_3.power.supply = true ∧ a12_3.power.dark = false ∧ 16499 < 16500) ∧
    (a12_4.power.supply = true ∧ a12_4.power.dark = false ∧ 16499 < 16500) ∧
    (a12_5.power.supply = true ∧ a12_5.power.dark = false ∧ 16499 < 16500) ∧
    (a12_6.power.phase = 1 ∧ a12_6.power.holdUp.getD 0 + Time.ms 20 ≤ max 256000005 a12_6.now) ∧
    (a12_7.power.phase = 2 ∧ a12_7.power.supply = false) ∧
    (a12_8.power.supply = false ∧ a12_8.power.dark = false ∧ 17000 ≤ 17000) ∧
    (a12_8.power.supply = false ∧ a12_8.power.dark = false) ∧
    a12_9.power.dark = true ∧
    a12_1.power.dark = false :=
  by
    repeat refine ⟨by decide +kernel, ?_⟩
    decide +kernel

/-- Witness of the hypotheses of Obligations.StoreAndProofCheckComplete, clause by clause. -/
theorem test_witness_StoreAndProofCheckComplete :
    (a12_11.mod = ModState.proof ∧ a12_11.power.charged = false ∧ a12_11.power.proofAt + Time.sec 30 ≤ max 384000000005 a12_11.now) ∧
    (880 ≤ 880 ∧ a12_10.power.storeHot = false) ∧
    (829 < 830 ∧ a12_12.power.storeHot = true) ∧
    ((a12_13.power.check = some { kind := 1, start := 5 }) ∧ (({ kind := 1, start := 5 } : ProofRun).start + Time.ms 50 ≤ max 640000005 a12_13.now) ∧ (({ kind := 1, start := 5 } : ProofRun).kind ≠ 0)) ∧
    ((a12_14.power.check = some { kind := 0, start := 5 }) ∧ (({ kind := 0, start := 5 } : ProofRun).start + Time.ms 50 ≤ max 640000005 a12_14.now) ∧ (({ kind := 0, start := 5 } : ProofRun).kind = 0) ∧ a12_14.mod = ModState.proof ∧ 52000 ≤ 52000) ∧
    ((a12_14.power.check = some { kind := 0, start := 5 }) ∧ (({ kind := 0, start := 5 } : ProofRun).start + Time.ms 50 ≤ max 640000005 a12_14.now) ∧ (({ kind := 0, start := 5 } : ProofRun).kind = 0) ∧ proofFigures 54000 52980 52000 = some (1, 1 / 20) ∧ 1 / 2 ≤ 1 ∧ 1 ≤ 4 ∧ 1 / 1000 ≤ 1 / 20 ∧ 1 / 20 ≤ 1 / 2 ∧ fval (State.rdF (stk 10) a12_14) * 1000 ≤ ↑(usableEnergy (roundRat (1000 * 1)).toNat (roundRat (1000000 * (1 / 20))).toNat (State.rdN (stk 2) a12_14))) ∧
    (a12_15.power.lastCheck + 3600 * Time.sec (State.rdN (stk 12) a12_15) ≤ max 999999999999999999 a12_15.now ∧ a12_15.mod.code ∈ [3, 4, 5, 6] ∧ a12_15.power.check = none ∧ a12_15.longOp = 0 ∧ a12_15.log.frozenSince = none ∧ a12_15.power.supply = true ∧ State.rdN (stk 2) a12_15 ≤ State.rdN (stk 1) a12_15) ∧
    (a12_16.power.lastCheck + 3600 * Time.sec (State.rdN (stk 12) a12_16) ≤ max 999999999999999999 a12_16.now ∧ a12_16.mod.code ∈ [3, 4, 5, 6] ∧ a12_16.power.check = none ∧ a12_16.longOp = 0 ∧ a12_16.log.frozenSince = none ∧ a12_16.power.supply = true ∧ State.rdN (stk 1) a12_16 < State.rdN (stk 2) a12_16) ∧
    (a12_17.power.repeatAt = some 500 ∧ 500 ≤ max 500 a12_17.now ∧ a12_17.power.check = none ∧ a12_17.mod.code ∈ [3, 4, 5, 6] ∧ State.rdN (stk 2) a12_17 ≤ State.rdN (stk 1) a12_17) :=
  by
    repeat refine ⟨by decide +kernel, ?_⟩
    decide +kernel

/-- Witness of the hypotheses of Obligations.ModuleCommandsComplete, clause by clause. -/
theorem test_witness_ModuleCommandsComplete :
    (a12_18.Up ∧ State.Passes hq 0x2000 3 0 1 a12_18 ∧ a12_18.configureOk = false ∧ State.Passes hq 0x2000 3 0 3 a12_18 ∧ a12_18.mod ≠ ModState.armed ∧ State.Passes hq 0x2000 3 0 4 a12_18 ∧ a12_18.mod ≠ ModState.running ∧ a12_18.mod ≠ ModState.standby ∧ State.Passes hq 0x2000 3 0 5 a12_18 ∧ (a12_18.mod ≠ ModState.safeHold ∨ a12_18.power.supply = false ∨ a12_18.power.lossHold = true) ∧ State.Passes hq 0x2000 3 0 6 a12_18 ∧ a12_18.mod.code ∈ [3, 4, 5, 6] ∧ State.Passes hq 0x2000 3 0 7 a12_18 ∧ a12_18.mod = ModState.configuration ∧ a12_18.allOff = true ∧ State.Passes hq 0x2000 3 0 8 a12_18 ∧ a12_18.mod ≠ ModState.faultWait ∧ State.Passes hq 0x2000 3 0 9 a12_18 ∧ a12_18.power.check = none ∧ State.rdN (stk 2) a12_18 ≤ State.rdN (stk 1) a12_18) ∧
    (a12_19.Up ∧ State.Passes hq 0x2000 3 0 1 a12_19 ∧ a12_19.configureOk = false ∧ State.Passes hq 0x2000 3 0 3 a12_19 ∧ a12_19.mod ≠ ModState.armed ∧ State.Passes hq 0x2000 3 0 4 a12_19 ∧ a12_19.mod ≠ ModState.running ∧ a12_19.mod ≠ ModState.standby ∧ State.Passes hq 0x2000 3 0 5 a12_19 ∧ (a12_19.mod ≠ ModState.safeHold ∨ a12_19.power.supply = false ∨ a12_19.power.lossHold = true) ∧ State.Passes hq 0x2000 3 0 6 a12_19 ∧ a12_19.mod.code ∈ [3, 4, 5, 6] ∧ State.Passes hq 0x2000 3 0 7 a12_19 ∧ a12_19.mod = ModState.configuration ∧ a12_19.allOff = true ∧ State.Passes hq 0x2000 3 0 8 a12_19 ∧ a12_19.mod ≠ ModState.faultWait ∧ State.Passes hq 0x2000 3 0 9 a12_19 ∧ a12_19.power.check = none ∧ State.rdN (stk 1) a12_19 < State.rdN (stk 2) a12_19) ∧
    (a12_20.Up ∧ State.Passes hq 0x2000 3 0 1 a12_20 ∧ a12_20.configureOk = false ∧ State.Passes hq 0x2000 3 0 3 a12_20 ∧ a12_20.mod ≠ ModState.armed ∧ State.Passes hq 0x2000 3 0 4 a12_20 ∧ a12_20.mod ≠ ModState.running ∧ a12_20.mod ≠ ModState.standby ∧ State.Passes hq 0x2000 3 0 5 a12_20 ∧ (a12_20.mod ≠ ModState.safeHold ∨ a12_20.power.supply = false ∨ a12_20.power.lossHold = true) ∧ State.Passes hq 0x2000 3 0 6 a12_20 ∧ a12_20.mod.code ∈ [3, 4, 5, 6] ∧ State.Passes hq 0x2000 3 0 7 a12_20 ∧ a12_20.mod = ModState.configuration ∧ a12_20.allOff = true ∧ State.Passes hq 0x2000 3 0 8 a12_20 ∧ a12_20.mod ≠ ModState.faultWait ∧ State.Passes hq 0x2000 3 0 9 a12_20 ∧ a12_20.power.check ≠ none) ∧
    (a12_21.Up ∧ State.Passes hq 0x2000 3 0 1 a12_21 ∧ a12_21.configureOk = false ∧ State.Passes hq 0x2000 3 0 3 a12_21 ∧ a12_21.mod ≠ ModState.armed ∧ State.Passes hq 0x2000 3 0 4 a12_21 ∧ a12_21.mod ≠ ModState.running ∧ a12_21.mod ≠ ModState.standby ∧ State.Passes hq 0x2000 3 0 5 a12_21 ∧ a12_21.mod = ModState.safeHold ∧ a12_21.power.supply = true ∧ (a12_21.mod ≠ ModState.safeHold ∨ a12_21.power.supply = false ∨ a12_21.power.lossHold = true) ∧ State.Passes hq 0x2000 3 0 6 a12_21 ∧ State.Passes hq 0x2000 3 0 7 a12_21 ∧ a12_21.mod.code ∉ [3, 4, 5, 6] ∧ (a12_21.mod ≠ ModState.configuration ∨ a12_21.allOff = false) ∧ State.Passes hq 0x2000 3 0 8 a12_21 ∧ a12_21.mod ≠ ModState.faultWait ∧ State.Passes hq 0x2000 3 0 9 a12_21 ∧ a12_21.mod ≠ ModState.configuration) ∧
    (a12_22.Up ∧ State.Passes hq 0x2000 3 0 1 a12_22 ∧ (a12_22.mod = ModState.armed ∨ (a12_22.mod = ModState.running ∨ a12_22.mod = ModState.standby) ∧ a12_22.allOff = true) ∧ State.Passes hq 0x2000 3 0 3 a12_22 ∧ a12_22.mod = ModState.armed ∧ State.Passes hq 0x2000 3 0 4 a12_22 ∧ (a12_22.mod = ModState.armed ∨ a12_22.mod = ModState.running ∨ a12_22.mod = ModState.standby) ∧ State.Passes hq 0x2000 3 0 5 a12_22 ∧ (a12_22.mod ≠ ModState.safeHold ∨ a12_22.power.supply = false ∨ a12_22.power.lossHold = true) ∧ State.Passes hq 0x2000 3 0 6 a12_22 ∧ a12_22.mod.code ∈ [3, 4, 5, 6] ∧ State.Passes hq 0x2000 3 0 7 a12_22 ∧ (a12_22.mod ≠ ModState.configuration ∨ a12_22.allOff = false) ∧ State.Passes hq 0x2000 3 0 8 a12_22 ∧ a12_22.mod ≠ ModState.faultWait ∧ State.Passes hq 0x2000 3 0 9 a12_22 ∧ a12_22.mod ≠ ModState.configuration) ∧
    (a12_23.Up ∧ State.Passes hq 0x2000 3 0 1 a12_23 ∧ (a12_23.mod = ModState.armed ∨ (a12_23.mod = ModState.running ∨ a12_23.mod = ModState.standby) ∧ a12_23.allOff = true) ∧ State.Passes hq 0x2000 3 0 3 a12_23 ∧ a12_23.mod = ModState.armed ∧ State.Passes hq 0x2000 3 0 4 a12_23 ∧ (a12_23.mod = ModState.armed ∨ a12_23.mod = ModState.running ∨ a12_23.mod = ModState.standby) ∧ State.Passes hq 0x2000 3 0 5 a12_23 ∧ (a12_23.mod ≠ ModState.safeHold ∨ a12_23.power.supply = false ∨ a12_23.power.lossHold = true) ∧ State.Passes hq 0x2000 3 0 6 a12_23 ∧ a12_23.mod.code ∈ [3, 4, 5, 6] ∧ State.Passes hq 0x2000 3 0 7 a12_23 ∧ (a12_23.mod ≠ ModState.configuration ∨ a12_23.allOff = false) ∧ State.Passes hq 0x2000 3 0 8 a12_23 ∧ a12_23.mod ≠ ModState.faultWait ∧ State.Passes hq 0x2000 3 0 9 a12_23 ∧ a12_23.mod ≠ ModState.configuration) ∧
    (a12_1.Up ∧ State.Passes hq 0x2000 3 0 1 a12_1 ∧ (a12_1.mod = ModState.armed ∨ (a12_1.mod = ModState.running ∨ a12_1.mod = ModState.standby) ∧ a12_1.allOff = true) ∧ State.Passes hq 0x2000 3 0 3 a12_1 ∧ a12_1.mod ≠ ModState.armed ∧ State.Passes hq 0x2000 3 0 4 a12_1 ∧ (a12_1.mod = ModState.armed ∨ a12_1.mod = ModState.running ∨ a12_1.mod = ModState.standby) ∧ State.Passes hq 0x2000 3 0 5 a12_1 ∧ (a12_1.mod ≠ ModState.safeHold ∨ a12_1.power.supply = false ∨ a12_1.power.lossHold = true) ∧ State.Passes hq 0x2000 3 0 6 a12_1 ∧ a12_1.mod.code ∈ [3, 4, 5, 6] ∧ State.Passes hq 0x2000 3 0 7 a12_1 ∧ (a12_1.mod ≠ ModState.configuration ∨ a12_1.allOff = false) ∧ State.Passes hq 0x2000 3 0 8 a12_1 ∧ a12_1.mod ≠ ModState.faultWait ∧ State.Passes hq 0x2000 3 0 9 a12_1 ∧ a12_1.mod ≠ ModState.configuration) ∧
    (a12_24.Up ∧ State.Passes hq 0x2000 3 0 1 a12_24 ∧ a12_24.configureOk = false ∧ State.Passes hq 0x2000 3 0 3 a12_24 ∧ a12_24.mod ≠ ModState.armed ∧ State.Passes hq 0x2000 3 0 4 a12_24 ∧ a12_24.mod ≠ ModState.running ∧ a12_24.mod ≠ ModState.standby ∧ State.Passes hq 0x2000 3 0 5 a12_24 ∧ a12_24.mod = ModState.safeHold ∧ a12_24.power.supply = true ∧ a12_24.power.lossHold = false ∧ State.Passes hq 0x2000 3 0 6 a12_24 ∧ State.Passes hq 0x2000 3 0 7 a12_24 ∧ a12_24.mod.code ∉ [3, 4, 5, 6] ∧ (a12_24.mod ≠ ModState.configuration ∨ a12_24.allOff = false) ∧ State.Passes hq 0x2000 3 0 8 a12_24 ∧ a12_24.mod ≠ ModState.faultWait ∧ State.Passes hq 0x2000 3 0 9 a12_24 ∧ a12_24.mod ≠ ModState.configuration) ∧
    (a12_5.Up ∧ State.Passes hq 0x2000 3 0 1 a12_5 ∧ a12_5.configureOk = false ∧ State.Passes hq 0x2000 3 0 3 a12_5 ∧ a12_5.mod ≠ ModState.armed ∧ State.Passes hq 0x2000 3 0 4 a12_5 ∧ a12_5.mod ≠ ModState.running ∧ a12_5.mod ≠ ModState.standby ∧ State.Passes hq 0x2000 3 0 5 a12_5 ∧ (a12_5.mod ≠ ModState.safeHold ∨ a12_5.power.supply = false ∨ a12_5.power.lossHold = true) ∧ State.Passes hq 0x2000 3 0 6 a12_5 ∧ State.Passes hq 0x2000 3 0 7 a12_5 ∧ a12_5.mod.code ∉ [3, 4, 5, 6] ∧ (a12_5.mod ≠ ModState.configuration ∨ a12_5.allOff = false) ∧ State.Passes hq 0x2000 3 0 8 a12_5 ∧ a12_5.mod = ModState.faultWait ∧ a12_5.power.failStage ≠ ModState.init ∧ State.Passes hq 0x2000 3 0 9 a12_5 ∧ a12_5.mod ≠ ModState.configuration) ∧
    (a12_25.Up ∧ State.Passes hq 0x2000 3 0 2 a12_25 ∧ State.handling 0 (State.begin 500 a12_25) = State.handling hq.sid (State.begin 500 a12_25) ∧ a12_25.mod = ModState.configuration ∧ (State.handling 0 (State.begin 500 a12_25)).armCheck = 0) ∧
    (a12_26.Up ∧ State.Passes hq 0x2000 3 0 2 a12_26 ∧ State.handling 0 (State.begin 500 a12_26) = State.handling hq.sid (State.begin 500 a12_26) ∧ a12_26.mod = ModState.configuration ∧ (State.handling 0 (State.begin 500 a12_26)).armCheck ≠ 0) ∧
    (a12_23.Up ∧ State.Passes hq 0x2000 3 0 2 a12_23 ∧ State.handling 0 (State.begin 500 a12_23) = State.handling hq.sid (State.begin 500 a12_23) ∧ a12_23.mod ≠ ModState.configuration) ∧
    a12_27.longOp = 1 ∧
    a12_28.longOp = 3 :=
  by
    repeat refine ⟨by decide +kernel, ?_⟩
    decide +kernel

/-- Witness of the hypotheses of Obligations.DomainAndHotPlugCommandsComplete, clause by clause. -/
theorem test_witness_DomainAndHotPlugCommandsComplete :
    (a12_29.Serves ∧ State.Passes hq 0x2101 (1 + 1) 0 0 a12_29 ∧ State.needed 1 a12_29 = false ∧ State.dom 1 a12_29 ≠ 3) ∧
    (a12_30.Serves ∧ State.Passes hq 0x2101 (1 + 1) 0 0 a12_30 ∧ State.needed 1 a12_30 = true) ∧
    (a12_31.Serves ∧ State.Passes hq 0x2101 (1 + 1) 0 1 a12_31 ∧ State.dom 1 a12_31 ≠ 3) ∧
    (a12_32.Serves ∧ State.Passes hq 0x2101 (1 + 1) 0 1 a12_32 ∧ State.dom 1 a12_32 = 3) ∧
    (State.dom 6 a12_33 = 1 ∧ State.domTurn 6 a12_33 = true ∧ a12_33.mod ≠ ModState.init ∧ a12_33.mod ≠ ModState.proof) ∧
    (State.dom 7 a12_34 = 1 ∧ State.domTurn 7 a12_34 = true ∧ a12_34.mod = ModState.init ∧ a12_34.power.inserted = true ∧ a12_34.power.proofPassed = false ∧ 7 ∈ [5, 6, 7] ∧ (∀ e ∈ [5, 6, 7], e ≠ 7 → State.dom e a12_34 = 2)) ∧
    (State.dom 7 a12_35 = 1 ∧ State.domTurn 7 a12_35 = true ∧ a12_35.mod = ModState.init ∧ a12_35.power.inserted = true ∧ a12_35.power.proofPassed = false ∧ 7 ∈ [5, 6, 7] ∧ (∀ e ∈ [5, 6, 7], e ≠ 7 → State.dom e a12_35 = 2)) ∧
    (State.dom 6 a12_36 = 1 ∨ State.dom 6 a12_36 = 2) ∧
    (a12_5.mod = ModState.faultWait ∧ a12_5.power.retryAt ≤ max 500 a12_5.now) ∧
    (a12_37.mod = ModState.faultWait ∧ a12_37.power.retryAt ≤ max 500 a12_37.now) ∧
    (a12_38.mod = ModState.faultWait ∧ a12_38.power.retryAt ≤ max 500 a12_38.now) ∧
    (a12_39.power.inserted = true ∧ a12_39.power.service = false ∧ (a12_39.mod = ModState.init ∨ a12_39.mod = ModState.proof ∨ a12_39.mod = ModState.faultWait) ∧ a12_39.power.startedAt + Time.sec 5 ≤ max 64000000005 a12_39.now) ∧
    a12_4.power.inserted = false ∧
    (a12_40.power.inrushAt = some 7 ∧ 7 ≤ max 64000000005 a12_40.now) ∧
    (a12_4.power.inserted = false ∧ a12_4.power.dark = false ∧ a12_4.mod = ModState.init) ∧
    (a12_1.mod ≠ ModState.init ∧ a12_1.mod ≠ ModState.removal ∧ a12_1.power.holdUp = none ∧ a12_1.power.dark = false) ∧
    (a12_41.power.removal = some 7 ∧ 7 + Time.ms 20 ≤ max 64000000005 a12_41.now) ∧
    (a12_1.power.dark = false ∧ a12_1.mod ≠ ModState.removal) ∧
    (a12_42.mod ≠ ModState.removal ∧ a12_42.power.dark = false ∧ a12_42.power.inserted = true) :=
  by
    repeat refine ⟨by decide +kernel, ?_⟩
    decide +kernel

/-- Witness of the hypotheses of Obligations.RepairAndThermalCommandsComplete, clause by clause. -/
theorem test_witness_RepairAndThermalCommandsComplete :
    (List.filter (fun p => p / 16 / 4096 / 2 == 1) a12_1.power.failing = []) ∧
    a12_1.islandState ≠ 3 ∧
    1180 ≤ 1180 ∧
    (1230 ≤ 1230 ∧ 2 ∈ [1, 2, 3, 4, 6] ∧ (State.dom 2 a12_43 = 1 ∨ State.dom 2 a12_43 = 2)) ∧
    a12_1.power.junctions = [] ∧
    (4 ≠ 2 ∧ a12_44.power.junctions = [(4, 800)]) :=
  by
    repeat refine ⟨by decide +kernel, ?_⟩
    decide +kernel

end SupplyAndReset

namespace RequestsKeepTheirSequence

def wS (x : Session) (l : List (Nat × Int)) : State := { (sv l) with srv := { State.reset.srv with sessions := [(1, x)], nextSid := 2 } }
def x0 : Session := { src := 9, service := true, rank := 4, key := none, proved := true, lastSeq := some 4, resp := some [7, 7], opened := 0, heard := 0 }
def dg : Datagram := { src := 9, pair := 0, service := true, magic := true, sid := 1, seq := 5, index := 0x1017, sub := 0, elem := 0, last := false, target := 0, param := 0, data := [], tag := List.replicate 16 0 }
def a13_1 := (wS x0 [])
def a13_2 := { dg with magic := false }
def a13_3 := { dg with seq := 4 }
def a13_4 := { dg with seq := 9 }
def a13_5 := (wS x0 [(key 0x2001 1, 3), (key 0x2001 2, 40)])
def dOpen : Datagram := { dg with sid := 0, seq := 1, data := [4, 0, 0, 0, 1, 1, 1, 1, 1, 1, 1, 1, 1, 1, 1, 1, 1, 1, 1, 1] }
def wOpenS (l : List (Nat × Int)) : State := { (sv l) with srv := { State.reset.srv with nextSid := 2 }, power := { State.reset.power with presence := some 0 } }
def a13_6 := (wOpenS [])
def a13_7 := (wOpenS [(key 0x2610 2, 0)])
def xP : Session := { x0 with proved := false, proof := [1, 2], service := false, key := none }
def dP : Datagram := { dg with service := false, data := [1, 2] }
def a13_8 := (wS xP [(key 0x2720 2, 1)])
def a13_9 := { dP with data := [1, 3] }
def a13_10 := (wS xP [(key 0x2720 2, 1), (key 0x2610 3, 1)])
def a13_11 := (wS xP [(key 0x2001 1, 3)])
def wBl : State := { (sv []) with srv := { State.reset.srv with blocked := [(9, 500)] } }
def wE : State := wS x0 [(key 0x2000 1, 3)]
def dMiss : Datagram := { dg with index := 0x1018, sub := 9 }
def dW : Datagram := { dg with data := [5, 0] }
def dRo : Datagram := { dg with index := 0x2001, sub := 1, data := [5] }
def dSeg : Datagram := { dg with index := 0x7000, sub := 0x12 }
def wName : State := wE.wrBlob (key 0x7000 0x12) [0x41, 0x42]
def dImg : Datagram := { dg with index := 0x8000, sub := 1 }
def big : List Byte := List.replicate 1100 7
def wImg : State := wE.wrBlob (key 0x8000 1) big
def dImg2 : Datagram := { dImg with param := 1024 }
def wSnap : State := { wImg with srv := { wImg.srv with snaps := [⟨1, key 0x8000 1, big, 3⟩] } }
def dSw : Datagram := { dSeg with data := [0x41] }
def dSl : Datagram := { dSeg with data := [0x42], last := true, param := 1 }
def wTr : State := { wE with srv := { wE.srv with transfers := [(key 0x7000 0x12, ⟨1, [0x41], 3⟩)] } }
def mG : GatewayReq := { role := .safety, service := 0x10, index := 0x1017, sub := 0, elem := 0, last := false, param := 0, data := [] }
def a13_12 := { mG with service := 0x11, data := [5, 0] }
def xG : Session := { x0 with hdr := some (0x10, { dg with target := 3 }), owes := true }
def wGt : State := { (wS xG []) with srv := { (wS xG []).srv with gate := [(1, 3)] } }
def mR : GatewayRep := { abort := 0, progress := 0, param := 2, last := true, data := [5, 0] }
def a13_13 := { dg with target := 3 }
def mU : UsdoReq := { unicast := true, write := false, index := 0x1017, sub := 0, data := [] }
def wCan (l : List (Nat × Int)) : State := sv ([(key 0x2710 1, 1), (key 0x2710 6, 4), (key 0x2000 1, 3)] ++ l)
def a13_14 := (wCan [])
def a13_15 := { mU with write := true, data := [5, 0] }
def a13_16 := (wCan [(key 0x2001 1, 3)])
def wTw : State := sv [(key 0x2510 1, 1), (twk 7, 2), (key 0x2000 1, 6)]
def a13_17 := (sv [(key 0x2510 1, 1), (twk 7, 2), (key 0x2000 1, 6), (key 0x2001 1, 3), (key 0x2001 2, 40)])

/-- Witness of the hypotheses of Obligations.RequestsKeepTheirSequence, clause by clause. -/
theorem test_witness_RequestsKeepTheirSequence :
    ((3, Instr.sessionClose 500 a13_2) ∈ [(2, Instr.sessionProve 500 a13_2), (3, Instr.sessionClose 500 a13_2), (4, Instr.keepAlive 500 a13_2), (16, Instr.readEntry 500 a13_2), (17, Instr.writeEntry 500 a13_2), (18, Instr.segmentRead 500 a13_2), (19, Instr.segmentWrite 500 a13_2)] ∧ a13_1.serverUp = true ∧ State.PairOpen a13_2 a13_1 ∧ State.ignores a13_2 (State.begin 500 a13_1) = false ∧ (State.rateOk a13_2 (State.begin 500 a13_1)).1 = true ∧ State.session a13_2.sid a13_1 = some x0 ∧ (a13_2.magic = false ∨ a13_2.tag ≠ tagOf x0.key (requestBytes 3 a13_2))) ∧
    ((3, Instr.sessionClose 500 a13_3) ∈ [(2, Instr.sessionProve 500 a13_3), (3, Instr.sessionClose 500 a13_3), (4, Instr.keepAlive 500 a13_3), (16, Instr.readEntry 500 a13_3), (17, Instr.writeEntry 500 a13_3), (18, Instr.segmentRead 500 a13_3), (19, Instr.segmentWrite 500 a13_3)] ∧ a13_1.serverUp = true ∧ State.PairOpen a13_3 a13_1 ∧ State.ignores a13_3 (State.begin 500 a13_1) = false ∧ (State.rateOk a13_3 (State.begin 500 a13_1)).1 = true ∧ State.session a13_3.sid a13_1 = some x0 ∧ State.Valid 3 a13_3 x0 (State.begin 500 a13_1) ∧ x0.lastSeq = some a13_3.seq) ∧
    ((17, Instr.writeEntry 500 a13_4) ∈ [(2, Instr.sessionProve 500 a13_4), (3, Instr.sessionClose 500 a13_4), (4, Instr.keepAlive 500 a13_4), (16, Instr.readEntry 500 a13_4), (17, Instr.writeEntry 500 a13_4), (18, Instr.segmentRead 500 a13_4), (19, Instr.segmentWrite 500 a13_4)] ∧ a13_1.serverUp = true ∧ State.PairOpen a13_4 a13_1 ∧ State.ignores a13_4 (State.begin 500 a13_1) = false ∧ (State.rateOk a13_4 (State.begin 500 a13_1)).1 = true ∧ State.session a13_4.sid a13_1 = some x0 ∧ State.Valid 17 a13_4 x0 (State.begin 500 a13_1) ∧ a13_4.seq ≠ x0.lastSeq.getD 0 ∧ a13_4.seq ≠ (x0.lastSeq.getD 0 + 1) % 2 ^ 32) ∧
    ((3, Instr.sessionClose 500 a13_3) ∈ [(2, Instr.sessionProve 500 a13_3), (3, Instr.sessionClose 500 a13_3), (4, Instr.keepAlive 500 a13_3), (16, Instr.readEntry 500 a13_3), (17, Instr.writeEntry 500 a13_3), (18, Instr.segmentRead 500 a13_3), (19, Instr.segmentWrite 500 a13_3)] ∧ State.Valid 3 a13_3 x0 (State.begin 500 a13_1) ∧ x0.resp = some [7, 7]) ∧
    ((18, Instr.segmentRead 500 dg) ∈ [(2, Instr.sessionProve 500 dg), (3, Instr.sessionClose 500 dg), (4, Instr.keepAlive 500 dg), (16, Instr.readEntry 500 dg), (17, Instr.writeEntry 500 dg), (18, Instr.segmentRead 500 dg), (19, Instr.segmentWrite 500 dg)] ∧ a13_5.serverUp = true ∧ State.PairOpen dg a13_5 ∧ State.ignores dg (State.begin 500 a13_5) = false ∧ (State.rateOk dg (State.begin 500 a13_5)).1 = true ∧ State.session dg.sid a13_5 = some x0 ∧ State.Valid 18 dg x0 (State.begin 500 a13_5) ∧ dg.seq ≠ x0.lastSeq.getD 0 ∧ dg.seq = (x0.lastSeq.getD 0 + 1) % 2 ^ 32 ∧ x0.owes = false ∧ a13_5.longOp ≠ 0) :=
  by
    repeat refine ⟨by decide +kernel, ?_⟩
    decide +kernel

/-- Witness of the hypotheses of Obligations.SessionCommandsComplete, clause by clause. -/
theorem test_witness_SessionCommandsComplete :
    (leBytes 16 (Config.nonce 0).toNat = leBytes 16 (Config.nonce a13_6.fresh).toNat ∧ a13_6.serverUp = true ∧ a13_6.longOp = 0 ∧ State.PairOpen dOpen a13_6 ∧ State.ignores dOpen (State.begin 500 a13_6) = false ∧ (State.rateOk dOpen (State.begin 500 a13_6)).1 = true ∧ dOpen.magic = true ∧ (∀ x ∈ dOpen.tag, x = 0) ∧ 4 = BitVec.toNat (dOpen.data.headD 0) ∧ State.openRefusal dOpen 4 (State.begin 500 a13_6) = 0) ∧
    (a13_7.serverUp = true ∧ a13_7.longOp = 0 ∧ State.PairOpen dOpen a13_7 ∧ State.ignores dOpen (State.begin 500 a13_7) = false ∧ (State.rateOk dOpen (State.begin 500 a13_7)).1 = true ∧ dOpen.magic = true ∧ (∀ x ∈ dOpen.tag, x = 0) ∧ 4 = BitVec.toNat (dOpen.data.headD 0) ∧ 184549389 = State.openRefusal dOpen 4 (State.begin 500 a13_7) ∧ 184549389 ≠ 0) ∧
    (State.Asks 2 dP xP (State.begin 500 a13_8) ∧ xP.proved = false ∧ dP.data = xP.proof) ∧
    (State.Asks 2 a13_9 xP (State.begin 500 a13_10) ∧ xP.proved = false ∧ a13_9.data ≠ xP.proof) ∧
    State.Asks 3 dg x0 (State.begin 500 a13_1) ∧
    State.Asks 4 dg x0 (State.begin 500 a13_1) ∧
    (State.session 1 a13_1 = some x0 ∧ a13_1.longOp = 0 ∧ x0.heard + Time.sec (State.rdN (key 0x2610 1) a13_1) ≤ max 768000000000 a13_1.now ∧ x0.proved = true) ∧
    (State.session 1 a13_11 = some xP ∧ a13_11.longOp ≠ 0 ∧ xP.proved = false ∧ xP.opened + Time.sec 5 ≤ max 64000000000 a13_11.now) ∧
    (Tbl.find? 9 wBl.srv.blocked = some 500 ∧ 500 ≤ max 500 wBl.now) ∧
    (Tbl.find? 9 wBl.srv.blocked = some 500 ∧ max 499 wBl.now < 500) :=
  ⟨⟨rfl,
   by decide +kernel⟩,
   by
    repeat refine ⟨by decide +kernel, ?_⟩
    decide +kernel⟩

/-- Witness of the hypotheses of Obligations.EntryAccessCompletes, clause by clause. -/
theorem test_witness_EntryAccessCompletes :
    (State.PlainWrite (x0.req dW.sid) (x0.req dW.sid).role.rank true dW.index dW.sub dW.elem dW.data wE ∧ State.Asks 17 dW x0 (State.begin 500 wE) ∧ State.Local dW wE ∧ wE.twinRole = 0 ∧ dW.index ≠ 9729) ∧
    (((dSw.param = 0 ∧ ([] : List Byte) = [] ∧ ∀ (z : Transfer), State.transfer dSw.index dSw.sub wE = some z → z.sid = dSw.sid) ∨ dSw.param ≠ 0 ∧ dSw.param = 0 ∧ ∃ a, State.transfer dSw.index dSw.sub wE = some { sid := dSw.sid, data := [], at_ := a }) ∧ State.Asks 19 dSw x0 (State.begin 500 wE) ∧ State.Local dSw wE ∧ wE.twinRole = 0 ∧ State.segmentAccess (x0.req dSw.sid) dSw.index dSw.sub wE = 0 ∧ State.segmentCheck dSw.index dSw.sub (0 + dSw.data.length) wE = 0 ∧ dSw.last = false) ∧
    (((dSl.param = 0 ∧ [65] = [] ∧ ∀ (z : Transfer), State.transfer dSl.index dSl.sub wTr = some z → z.sid = dSl.sid) ∨ dSl.param ≠ 0 ∧ dSl.param = [65].length ∧ ∃ a, State.transfer dSl.index dSl.sub wTr = some { sid := dSl.sid, data := [65], at_ := a }) ∧ State.Asks 19 dSl x0 (State.begin 500 wTr) ∧ State.Local dSl wTr ∧ wTr.twinRole = 0 ∧ State.segmentAccess (x0.req dSl.sid) dSl.index dSl.sub wTr = 0 ∧ State.segmentCheck dSl.index dSl.sub ([65].length + dSl.data.length) wTr = 0) ∧
    (((dSl.param = 0 ∧ [65] = [] ∧ ∀ (z : Transfer), State.transfer dSl.index dSl.sub wTr = some z → z.sid = dSl.sid) ∨ dSl.param ≠ 0 ∧ dSl.param = [65].length ∧ ∃ a, State.transfer dSl.index dSl.sub wTr = some { sid := dSl.sid, data := [65], at_ := a }) ∧ State.Asks 19 dSl x0 (State.begin 500 wTr) ∧ State.Local dSl wTr ∧ wTr.twinRole = 0 ∧ State.segmentAccess (x0.req dSl.sid) dSl.index dSl.sub wTr = 0 ∧ State.segmentCheck dSl.index dSl.sub ([65].length + dSl.data.length) wTr = 0 ∧ dSl.last = true ∧ (∃ e, descAt dSl.index dSl.sub = some e ∧ e.ty.isBlob = true) ∧ State.gooseOwned dSl.index dSl.sub wTr = false ∧ State.rpdoOwned dSl.index dSl.sub wTr = false ∧ (∀ e ∈ wTr.srv.transfers, e.1 = key dSl.index dSl.sub → e.2.sid = dSl.sid)) ∧
    (State.Asks 16 dg x0 (State.begin 500 wE) ∧ State.Local dg wE ∧ (¬(13312 ≤ dg.index ∧ dg.index < 14080 ∧ dg.sub = 29)) ∧ State.readCheck dg.index dg.sub dg.elem (State.taking 16 dg x0 (State.begin 500 wE)) = 0 ∧ (State.readBytes dg.index dg.sub dg.elem (State.taking 16 dg x0 (State.begin 500 wE))).length ≤ 1024) ∧
    (State.Asks 16 dMiss x0 (State.begin 500 wE) ∧ State.Local dMiss wE ∧ (¬(13312 ≤ dMiss.index ∧ dMiss.index < 14080 ∧ dMiss.sub = 29)) ∧ State.readCheck dMiss.index dMiss.sub dMiss.elem (State.taking 16 dMiss x0 (State.begin 500 wE)) ≠ 0) ∧
    (State.Asks 17 dRo x0 (State.begin 500 wE) ∧ State.Local dRo wE ∧ wE.twinRole = 0 ∧ dRo.index ≠ 9729 ∧ (descAt dRo.index dRo.sub = some { base := 8193, stride := 1, count := 1, lo := 1, hi := 1, ty := Ty.u 1, n := 1, acc := Acc.ro, dflt := Dflt.c 0, rng := Rng.any }) ∧ (({ base := 8193, stride := 1, count := 1, lo := 1, hi := 1, ty := Ty.u 1, n := 1, acc := Acc.ro, dflt := Dflt.c 0, rng := Rng.any } : Desc).ty.isBlob = false) ∧ (({ base := 8193, stride := 1, count := 1, lo := 1, hi := 1, ty := Ty.u 1, n := 1, acc := Acc.ro, dflt := Dflt.c 0, rng := Rng.any } : Desc).n ≤ 1 ∨ dRo.elem ≠ 0) ∧ (dRo.data.length = ({ base := 8193, stride := 1, count := 1, lo := 1, hi := 1, ty := Ty.u 1, n := 1, acc := Acc.ro, dflt := Dflt.c 0, rng := Rng.any } : Desc).ty.bytes) ∧ (State.writeCheck (x0.req dRo.sid).role.rank true dRo.index dRo.sub dRo.elem dRo.data.length (({ base := 8193, stride := 1, count := 1, lo := 1, hi := 1, ty := Ty.u 1, n := 1, acc := Acc.ro, dflt := Dflt.c 0, rng := Rng.any } : Desc).ty.ofBytes dRo.data) wE ≠ 0)) ∧
    (State.Asks 18 dSeg x0 (State.begin 500 wName) ∧ State.Local dSeg wName ∧ State.readCheck dSeg.index dSeg.sub 0 (State.taking 18 dSeg x0 (State.begin 500 wName)) = 0 ∧ [65, 66] = State.readBytes dSeg.index dSeg.sub 0 (State.taking 18 dSeg x0 (State.begin 500 wName)) ∧ dSeg.param = 0 ∧ [65, 66].length ≤ 1024) ∧
    (State.Asks 18 dImg x0 (State.begin 500 wImg) ∧ State.Local dImg wImg ∧ State.readCheck dImg.index dImg.sub 0 (State.taking 18 dImg x0 (State.begin 500 wImg)) = 0 ∧ big = State.readBytes dImg.index dImg.sub 0 (State.taking 18 dImg x0 (State.begin 500 wImg)) ∧ dImg.param = 0 ∧ 1024 < big.length) ∧
    (State.Asks 18 dImg2 x0 (State.begin 500 wSnap) ∧ State.Local dImg2 wSnap ∧ State.readCheck dImg2.index dImg2.sub 0 (State.taking 18 dImg2 x0 (State.begin 500 wSnap)) = 0 ∧ big = State.readBytes dImg2.index dImg2.sub 0 (State.taking 18 dImg2 x0 (State.begin 500 wSnap)) ∧ dImg2.param ≠ 0 ∧ (List.find? (fun z => z.sid == dImg2.sid && z.entry == key dImg2.index dImg2.sub) wSnap.srv.snaps = some { sid := 1, entry := key 0x8000 1, data := big, at_ := 3 }) ∧ (dImg2.param ≤ ({ sid := 1, entry := key 0x8000 1, data := big, at_ := 3 } : Snap).data.length) ∧ (({ sid := 1, entry := key 0x8000 1, data := big, at_ := 3 } : Snap).data.length ≤ dImg2.param + 1024)) ∧
    (State.Asks 18 dImg2 x0 (State.begin 500 wImg) ∧ State.Local dImg2 wImg ∧ State.readCheck dImg2.index dImg2.sub 0 (State.taking 18 dImg2 x0 (State.begin 500 wImg)) = 0 ∧ big = State.readBytes dImg2.index dImg2.sub 0 (State.taking 18 dImg2 x0 (State.begin 500 wImg)) ∧ dImg2.param ≠ 0 ∧ (∀ z ∈ wImg.srv.snaps, ¬(z.sid = dImg2.sid ∧ z.entry = key dImg2.index dImg2.sub))) ∧
    ((State.transfer 28672 18 wTr = some { sid := 1, data := [65], at_ := 3 }) ∧ (({ sid := 1, data := [65], at_ := 3 } : Transfer).at_ + Time.sec 10 ≤ max 128000000003 wTr.now)) ∧
    ((State.transfer 28672 18 wTr = some { sid := 1, data := [65], at_ := 3 }) ∧ (max 500 wTr.now < ({ sid := 1, data := [65], at_ := 3 } : Transfer).at_ + Time.sec 10)) :=
  ⟨⟨plainWrite rfl rfl (by decide +kernel),
   by decide +kernel⟩,
   ⟨Or.inl ⟨by decide +kernel, by decide +kernel, by intro z hz; cases hz⟩,
   by decide +kernel⟩,
   ⟨Or.inr ⟨by decide, by decide, 3, by decide +kernel⟩,
   by decide +kernel⟩,
   ⟨Or.inr ⟨by decide, by decide, 3, by decide +kernel⟩,
   by decide +kernel⟩,
   by
    repeat refine ⟨by decide +kernel, ?_⟩
    decide +kernel⟩

/-- Witness of the hypotheses of Obligations.OtherPathsComplete, clause by clause. -/
theorem test_witness_OtherPathsComplete :
    ((State.PlainWrite { role := a13_12.role, servicePort := false, sid := viaGateway } a13_12.role.rank true a13_12.index a13_12.sub a13_12.elem a13_12.data wE) ∧ wE.serverUp = true ∧ wE.longOp = 0 ∧ a13_12.service = 17 ∧ wE.twinRole = 0) ∧
    ((State.PlainWrite { role := roleOf (State.rdN (key (0x2710 + 0) 6) a13_14), servicePort := false, sid := viaCan 0 a13_15.client } (roleOf (State.rdN (key (0x2710 + 0) 6) a13_14)).rank true a13_15.index a13_15.sub 0 a13_15.data a13_14) ∧ State.handling (viaCan 0 1) (State.begin 500 a13_14) = State.handling (viaCan 0 a13_15.client) (State.begin 500 a13_14) ∧ a13_14.serverUp = true ∧ State.rdB (key (0x2710 + 0) 1) a13_14 = true ∧ a13_15.unicast = true ∧ a13_14.longOp = 0 ∧ a13_15.write = true ∧ a13_15.segment = none ∧ a13_14.twinRole = 0) ∧
    ((State.PlainWrite { role := Role.safety, servicePort := false, sid := viaTwin } 4 false 4119 0 0 [5, 0] wTw) ∧ wTw.serverUp = true ∧ wTw.twinRole ≠ 0 ∧ wTw.authority = 2 ∧ wTw.longOp = 0) ∧
    (wE.serverUp = true ∧ wE.longOp = 0 ∧ mG.service = 16 ∧ State.readCheck mG.index mG.sub mG.elem (State.handling viaGateway (State.begin 500 wE)) = 0 ∧ (State.readBytes mG.index mG.sub mG.elem (State.handling viaGateway (State.begin 500 wE))).length ≤ 32 ∧ (¬(13312 ≤ mG.index ∧ mG.index < 14080 ∧ mG.sub = 29))) ∧
    (wE.serverUp = true ∧ wE.longOp = 0 ∧ State.readCheck mG.index mG.sub mG.elem (State.handling viaGateway (State.begin 500 wE)) = 0 ∧ (State.readBytes mG.index mG.sub mG.elem (State.handling viaGateway (State.begin 500 wE))).length ≤ 32 ∧ (¬(13312 ≤ mG.index ∧ mG.index < 14080 ∧ mG.sub = 29))) ∧
    (a13_5.serverUp = true ∧ a13_5.longOp ≠ 0) ∧
    (wGt.srv.gate = [(1, 3)] ∧ State.session 1 wGt = some xG ∧ xG.hdr = some (16, a13_13) ∧ a13_13.sid = 1 ∧ 0 < 1 ∧ 1 < 2 ^ 32 ∧ mR.abort ≠ abBusy) ∧
    (wGt.srv.gate = [(1, 3)] ∧ State.session 1 wGt = some xG ∧ xG.hdr = some (16, a13_13) ∧ a13_13.sid = 1 ∧ 0 < 1 ∧ 1 < 2 ^ 32 ∧ mR.abort ≠ abBusy ∧ 3 + Time.ms 5 ≤ max 64000003 wGt.now) ∧
    (State.handling (viaCan 0 1) (State.begin 500 a13_14) = State.handling (viaCan 0 mU.client) (State.begin 500 a13_14) ∧ a13_14.serverUp = true ∧ State.rdB (key (0x2710 + 0) 1) a13_14 = true ∧ mU.unicast = true ∧ a13_14.longOp = 0 ∧ mU.write = false ∧ State.readCheck mU.index mU.sub 0 (State.handling (viaCan 0 1) (State.begin 500 a13_14)) = 0 ∧ (State.readBytes mU.index mU.sub 0 (State.handling (viaCan 0 1) (State.begin 500 a13_14))).length ≤ 2 ^ 32 ∧ (¬(13312 ≤ mU.index ∧ mU.index < 14080 ∧ mU.sub = 29))) ∧
    (State.handling (viaCan 0 1) (State.begin 500 a13_16) = State.handling (viaCan 0 mU.client) (State.begin 500 a13_16) ∧ a13_16.serverUp = true ∧ State.rdB (key (0x2710 + 0) 1) a13_16 = true ∧ mU.unicast = true ∧ a13_16.longOp ≠ 0) ∧
    (a13_17.serverUp = true ∧ a13_17.twinRole ≠ 0 ∧ a13_17.authority = 2 ∧ a13_17.longOp ≠ 0) :=
  ⟨⟨plainWrite rfl rfl (by decide +kernel),
   by decide +kernel⟩,
   ⟨plainWrite rfl rfl (by decide +kernel),
   by decide +kernel⟩,
   ⟨plainWrite rfl rfl (by decide +kernel),
   by decide +kernel⟩,
   by
    repeat refine ⟨by decide +kernel, ?_⟩
    decide +kernel⟩

end RequestsKeepTheirSequence

namespace PdoCommands

def wC (m : Int) (l : List (Nat × Int)) : State := sv ([(cpk 0 1, 1), (cpk 0 7, 1), (key 0x2000 1, m)] ++ l)
def wR (v : Int) : State := wC 3 [(key 0x1402 1, v), (key 0x1602 0, 1), (key 0x1602 1, 0x400E0120)]
def a14_1 := (sv [(key 0x2000 1, 3)])
def wBus : State := { (wC 3 [(cpk 0 8, 4)]) with net := { State.reset.net with busOff := [(0, 5)] } }
def a14_2 := (wR 0x202)
def wR2 : State := wC 3 [(key 0x1402 1, 0x202), (key 0x1602 0, 2), (key 0x1602 1, 0x406E0220), (key 0x1602 2, 0x406E0120)]
def wRt : State := wR2.wr (twk 1) 1 |>.wr (bk 0 2 3) 1
def wRc (c : List (Nat × Int)) : State := wC 5 ([(key 0x1402 1, 0x202), (key 0x1602 0, 1), (key 0x1602 1, 0x40620108)] ++ c)
def a14_3 := (wRc [(bk 1 1 3, 4)])
def a14_4 := (wRc [])
def a14_5 := (wRc [(bk 1 1 3, 2), (bk 0 1 3, 1), (bk 0xB 0x11 3, 4), (bk 0xB 0xD 3, 1)])
def a14_6 := (wR 0x80000202)
def wT (ty ev : Int) (x : TpdoRec) : State := (wC 3 [(tpk2 0 2 1, 0x282), (tpk2 0 2 2, ty), (tpk2 0 2 5, ev), (key 0x1A02 0, 1), (key 0x1A02 1, 0x10170010)]).setTpdo 0 2 x
def a14_7 := (wT 2 0 { syncs := 1 })
def a14_8 := (wT 2 0 {})
def a14_9 := (wT 254 0 { syncs := 3 })
def a14_10 := (wT 254 0 {})
def a14_11 := (wT 254 10 {})
def wTe : State := wT 254 10 { sentAt := some 0 }
def a14_12 := (wC 4 [])
def a14_13 := (wC 3 [(bk 1 1 3, 4)])
def a14_14 := (wC 5 [])
def a14_15 := (wC 4 [(cpk 0 7, 0)])
def wHb (l : List (Nat × Time)) (m : List Nat) : State := { (wC 4 [(key 0x1016 1, 0x0005000A)]) with net := { State.reset.net with hb := l, late := m } }
def a14_16 := (wHb [(5, 0)] [])
def a14_17 := (wHb [] [5])
def wTrg : State := wC 4 [(tuk 3 1, 1), (tuk 3 2, 7), (tuk 3 3, 0x123), (tuk 3 4, 4), (tuk 3 5, 7), (tuk 3 8, 1), (tuk 3 9, 0x100), (tuk 3 0xA, 0xFF)]
def wNet : State := sv [(key 0x2700 1, 0xC0A80001), (key 0x2700 4, 77)]
def wPrp : State := { wNet with net := { State.reset.net with prp := [(0, 0)] } }
def wPub (x : PubRec) : State := (sv [(pbk 3 1, 1), (pbk 3 9, 5), (pbk 3 0xA, 100), (pbk 3 0xB, 4), (pbk 3 0xE, 9)]).setPub 3 x
def mem : List Nat := [0x1017 * 65536]
def a14_18 := (wPub { members := mem, last := some [7] })
def a14_19 := (wPub { members := mem, last := some [1000], interval := 8, sqNum := 2 })
def eTgt : Nat := 0x1017 * 2 ^ 48 + 7
def wSub (l : List (Nat × Int)) : State := (sv ([(key 0x2000 1, 5), (sbk 2 1, 1), (sbk 2 2, 0), (sbk 2 3, 0x3001), (sbk 2 6, 1), (sbk 2 8, 1), (key 0x2752 7 1, (eTgt : Int))] ++ l)).wrBlob (sbk 2 4) [0x61] |>.wrBlob (sbk 2 5) [0x62]
def mGo : GooseMsg := { appid := 0x3001, gocbRef := [0x61], datSet := [0x62], confRev := 1, test := false, simulation := false, ndsCom := false, ttlMs := 8, pair := 0, members := [.uint 500] }
def mSim : GooseMsg := { mGo with simulation := true }
def mBool : GooseMsg := { mGo with members := [.bool true] }
def a14_20 := (wSub [])
def wTtl : State := { (wSub []) with net := { State.reset.net with subs := [(2, { heard := some 0, ttl := 8 })] } }
def eB : Nat := (0x406E * 2 ^ 48 + 0xA * 2 ^ 40 + 7)
def wSubB : State := bat 3 { cyc := some { t0 := 0, items := 2 } } (wSub [(key 0x2752 7 1, (eB : Int))])

/-- Witness of the hypotheses of Obligations.PdoCommandsComplete, clause by clause. -/
theorem test_witness_PdoCommandsComplete :
    ((∀ (j : ℕ) (e : Batch × Fin 4), [(0, 0)][j]? = some e → State.writeCheck 4 false (16398 + 32 * ↑e.1) (1 + ↑e.2) 0 4 (↑(leNat (List.take 4 (List.drop (4 * j) [0, 0, 0, 63])))) a14_2 = 0) ∧ State.CanRuns 500 0 a14_2 ∧ State.rdN (key (0x1400 + 8 * 0 + 2) 1) a14_2 < 2147483648 ∧ [(0, 0)].Nodup ∧ (State.mapping (5632 + 8 * 0 + 2) a14_2 = List.map (fun e => (16398 + 32 * ↑e.1) * 65536 + (1 + ↑e.2) * 256 + 32) [(0, 0)]) ∧ 4 * [(0, 0)].length ≤ [0, 0, 0, 63].length ∧ a14_2.twinRole = 0) ∧
    ((∀ (j : ℕ) (e : Batch × Fin 4), [(3, 1), (3, 0)][j]? = some e → State.writeCheck 4 false (16398 + 32 * ↑e.1) (1 + ↑e.2) 0 4 (↑(leNat (List.take 4 (List.drop (4 * j) [0, 0, 0, 63, 0, 0, 128, 191, 9])))) wRt = 0) ∧ State.CanRuns 500 0 wRt ∧ State.rdN (key (0x1400 + 8 * 0 + 2) 1) wRt < 2147483648 ∧ [(3, 1), (3, 0)].Nodup ∧ (State.mapping (5632 + 8 * 0 + 2) wRt = List.map (fun e => (16398 + 32 * ↑e.1) * 65536 + (1 + ↑e.2) * 256 + 32) [(3, 1), (3, 0)]) ∧ 4 * [(3, 1), (3, 0)].length ≤ [0, 0, 0, 63, 0, 0, 128, 191, 9].length ∧ wRt.twinRole ≠ 0 ∧ wRt.authority ≠ 1 ∧ (∀ e ∈ [(3, 1), (3, 0)], State.twinEntry (16398 + 32 * ↑e.1) (1 + ↑e.2) wRt = true)) ∧
    ((∀ (j : ℕ) (e : Batch × Fin 4), [(3, 1), (3, 0)][j]? = some e → State.writeCheck 4 false (16398 + 32 * ↑e.1) (1 + ↑e.2) 0 4 (↑(leNat (List.take 4 (List.drop (4 * j) [0, 0, 0, 63, 0, 0, 128, 191, 9])))) wR2 = 0) ∧ State.CanRuns 500 0 wR2 ∧ State.rdN (key (0x1400 + 8 * 0 + 2) 1) wR2 < 2147483648 ∧ [(3, 1), (3, 0)].Nodup ∧ (State.mapping (5632 + 8 * 0 + 2) wR2 = List.map (fun e => (16398 + 32 * ↑e.1) * 65536 + (1 + ↑e.2) * 256 + 32) [(3, 1), (3, 0)]) ∧ 4 * [(3, 1), (3, 0)].length ≤ [0, 0, 0, 63, 0, 0, 128, 191, 9].length ∧ wR2.twinRole = 0) ∧
    ((State.canOn 0 a14_1 = false ∨ State.busIsOff 0 (State.begin 500 a14_1) = true) ∧ Instr.canSync 500 0 ∈ [Instr.rpdo 500 0 2 [7], Instr.canSync 500 0, Instr.tpdoEvent 500 0 3 true]) ∧
    ((State.canOn 0 wBus = false ∨ State.busIsOff 0 (State.begin 500 wBus) = true) ∧ Instr.canSync 500 0 ∈ [Instr.rpdo 500 0 2 [7], Instr.canSync 500 0, Instr.tpdoEvent 500 0 3 true]) ∧
    (State.CanRuns 500 0 a14_3 ∧ State.rdN (key (0x1400 + 8 * 0 + 2) 1) a14_3 < 2147483648 ∧ State.mapping (5632 + 8 * 0 + 2) a14_3 = [(16386 + 32 * 3) * 65536 + 264] ∧ 1 ≤ 2 ∧ 2 ≤ 8 ∧ State.permitted 3 2 a14_3 = true ∧ (2 = 8 → State.rampOk 3 a14_3 = true)) ∧
    (State.CanRuns 500 0 a14_4 ∧ State.rdN (key (0x1400 + 8 * 0 + 2) 1) a14_4 < 2147483648 ∧ State.mapping (5632 + 8 * 0 + 2) a14_4 = [(16386 + 32 * 3) * 65536 + 264] ∧ 1 ≤ 2 ∧ 2 ≤ 8 ∧ State.permitted 3 2 a14_4 = false) ∧
    (State.CanRuns 500 0 a14_5 ∧ State.rdN (key (0x1400 + 8 * 0 + 2) 1) a14_5 < 2147483648 ∧ State.mapping (5632 + 8 * 0 + 2) a14_5 = [(16386 + 32 * 3) * 65536 + 264] ∧ 1 ≤ 8 ∧ 8 ≤ 8 ∧ State.permitted 3 8 a14_5 = true ∧ State.permitted 3 8 a14_5 = true ∧ State.rampOk 3 a14_5 = false) ∧
    (State.CanRuns 500 0 a14_6 ∧ 2147483648 ≤ State.rdN (key (0x1400 + 8 * 0 + 2) 1) a14_6) ∧
    (State.CanRuns 500 0 a14_2 ∧ State.rdN (key (0x1400 + 8 * 0 + 2) 1) a14_2 < 2147483648 ∧ ([0, 0, 0].length < (List.map (fun m => m % 256 / 8) (State.mapping (5632 + 8 * 0 + 2) a14_2)).sum)) ∧
    (State.wr (cpk 0 8) 1 (State.begin 500 a14_7) = State.wr (cpk 0 8) 1 (State.begin 500 a14_7) ∧ State.CanRuns 500 0 a14_7) ∧
    (State.wr (cpk 0 8) 1 (State.begin 500 a14_8) = State.wr (cpk 0 8) 1 (State.begin 500 a14_8) ∧ State.CanRuns 500 0 a14_8) ∧
    (State.wr (cpk 0 8) 1 (State.begin 500 a14_9) = State.wr (cpk 0 8) 1 (State.begin 500 a14_9) ∧ State.CanRuns 500 0 a14_9) ∧
    (State.wr (cpk 0 8) 1 (State.begin 500 a14_10) = State.wr (cpk 0 8) 1 (State.begin 500 a14_10) ∧ State.CanRuns 500 0 a14_10 ∧ State.tpdoValid 0 2 a14_10 = true ∧ State.rdN (tpk2 0 2 2) a14_10 = 254 ∧ (if false = true then State.rdN (tpk2 0 2 5) a14_10 ≠ 0 ∧ Option.all (fun a => decide (a + Time.ms (State.rdN (tpk2 0 2 5) a14_10) ≤ max 500 a14_10.now)) (State.tpdo 0 2 a14_10).sentAt = true else (State.tpdo 0 2 a14_10).last ≠ some (State.tpdoBytes 0 2 (State.wr (cpk 0 8) 1 (State.begin 500 a14_10))) ∧ Option.all (fun a => decide (a + Time.us (100 * State.rdN (tpk2 0 2 3) a14_10) ≤ max 500 a14_10.now)) (State.tpdo 0 2 a14_10).sentAt = true)) ∧
    (State.wr (cpk 0 8) 1 (State.begin 500 a14_11) = State.wr (cpk 0 8) 1 (State.begin 500 a14_11) ∧ State.CanRuns 500 0 a14_11 ∧ State.tpdoValid 0 2 a14_11 = true ∧ State.rdN (tpk2 0 2 2) a14_11 = 254 ∧ (if true = true then State.rdN (tpk2 0 2 5) a14_11 ≠ 0 ∧ Option.all (fun a => decide (a + Time.ms (State.rdN (tpk2 0 2 5) a14_11) ≤ max 500 a14_11.now)) (State.tpdo 0 2 a14_11).sentAt = true else (State.tpdo 0 2 a14_11).last ≠ some (State.tpdoBytes 0 2 (State.wr (cpk 0 8) 1 (State.begin 500 a14_11))) ∧ Option.all (fun a => decide (a + Time.us (100 * State.rdN (tpk2 0 2 3) a14_11) ≤ max 500 a14_11.now)) (State.tpdo 0 2 a14_11).sentAt = true)) ∧
    (State.wr (cpk 0 8) 1 (State.begin 128000000 wTe) = State.wr (cpk 0 8) 1 (State.begin 128000000 wTe) ∧ State.CanRuns 128000000 0 wTe ∧ State.tpdoValid 0 2 wTe = true ∧ State.rdN (tpk2 0 2 2) wTe = 254 ∧ (if true = true then State.rdN (tpk2 0 2 5) wTe ≠ 0 ∧ Option.all (fun a => decide (a + Time.ms (State.rdN (tpk2 0 2 5) wTe) ≤ max 128000000 wTe.now)) (State.tpdo 0 2 wTe).sentAt = true else (State.tpdo 0 2 wTe).last ≠ some (State.tpdoBytes 0 2 (State.wr (cpk 0 8) 1 (State.begin 128000000 wTe))) ∧ Option.all (fun a => decide (a + Time.us (100 * State.rdN (tpk2 0 2 3) wTe) ≤ max 128000000 wTe.now)) (State.tpdo 0 2 wTe).sentAt = true)) ∧
    (State.wr (cpk 0 8) 1 (State.begin 500 wTe) = State.wr (cpk 0 8) 1 (State.begin 500 wTe) ∧ State.CanRuns 500 0 wTe ∧ State.tpdoValid 0 2 wTe = true ∧ State.rdN (tpk2 0 2 2) wTe = 254 ∧ (State.tpdoValid 0 2 wTe = false ∨ State.rdN (tpk2 0 2 2) wTe ≠ 254 ∨ if true = true then State.rdN (tpk2 0 2 5) wTe = 0 ∨ Option.all (fun a => decide (a + Time.ms (State.rdN (tpk2 0 2 5) wTe) ≤ max 500 wTe.now)) (State.tpdo 0 2 wTe).sentAt = false else (State.tpdo 0 2 wTe).last = some (State.tpdoBytes 0 2 (State.wr (cpk 0 8) 1 (State.begin 500 wTe))) ∨ Option.all (fun a => decide (a + Time.us (100 * State.rdN (tpk2 0 2 3) wTe) ≤ max 500 wTe.now)) (State.tpdo 0 2 wTe).sentAt = false)) :=
  ⟨⟨atEach (by decide +kernel),
   by decide +kernel⟩,
   ⟨atEach (by decide +kernel),
   by decide +kernel⟩,
   ⟨atEach (by decide +kernel),
   by decide +kernel⟩,
   by
    repeat refine ⟨by decide +kernel, ?_⟩
    decide +kernel⟩

/-- Witness of the hypotheses of Obligations.CanCommandsComplete, clause by clause. -/
theorem test_witness_CanCommandsComplete :
    (State.CanRuns 500 0 a14_12 ∧ State.rdB (cpk 0 7) a14_12 = true ∧ a14_12.mod = ModState.armed ∧ (∀ b ∈ allBatches, State.bstate b a14_12 = BatchState.off) ∧ (a14_12.mod = ModState.armed ∨ a14_12.mod = ModState.running ∨ a14_12.mod = ModState.standby)) ∧
    (State.CanRuns 500 0 a14_13 ∧ State.rdB (cpk 0 7) a14_13 = true ∧ a14_13.mod ≠ ModState.armed ∧ (∃ b ∈ allBatches, State.bstate b a14_13 ≠ BatchState.off)) ∧
    (State.CanRuns 500 0 a14_14 ∧ State.rdB (cpk 0 7) a14_14 = true ∧ a14_14.mod ≠ ModState.armed ∧ (a14_14.mod = ModState.armed ∨ a14_14.mod = ModState.running ∨ a14_14.mod = ModState.standby)) ∧
    (Instr.stopRemoteNode 500 0 ∈ [Instr.startRemoteNode 500 0, Instr.enterPreOperational 500 0, Instr.stopRemoteNode 500 0, Instr.resetCommunication 500 0] ∧ State.CanRuns 500 0 a14_15 ∧ State.rdB (cpk 0 7) a14_15 = false) ∧
    State.CanRuns 500 0 a14_12 ∧
    State.canOn 0 a14_12 = true ∧
    (State.CanRuns 500 0 a14_12 ∧ State.rdN (key 0x1017 0) a14_12 ≠ 0 ∧ (∀ (a : Time), Tbl.find? 0 a14_12.net.producer = some a → a + Time.ms (State.rdN (key 0x1017 0) a14_12) ≤ max 500 a14_12.now)) ∧
    (State.CanRuns 128000000 0 a14_16 ∧ State.consumed 5 a14_16 ≠ 0 ∧ Tbl.find? (128 * 0 + 5) a14_16.net.hb = some 0 ∧ 128 * 0 + 5 ∉ a14_16.net.late ∧ 0 + Time.ms (State.consumed 5 a14_16) ≤ max 128000000 a14_16.now) ∧
    (State.CanRuns 500 0 a14_17 ∧ 1793 ≤ 1797 ∧ 1797 ≤ 1919) ∧
    (State.CanRuns 500 0 wTrg ∧ State.unitsOn 7 (2 ^ 31 * 0 + 2 ^ 29 * b2n false + 291) wTrg = [3] ∧ 3 < 16 ∧ State.field 3 [7] wTrg = some 7 ∧ State.rdN (tuk 3 4) wTrg = 4 ∧ 7 = State.rd (tuk 3 5) wTrg % 2 ^ 32 ∧ (State.trig 3 wTrg).latched = false ∧ State.rdN (tuk 3 8) wTrg ≤ (State.trig 3 wTrg).run + 1 ∧ State.holdoffOver 3 (State.begin 500 wTrg) = true) :=
  by
    repeat refine ⟨by decide +kernel, ?_⟩
    decide +kernel

/-- Witness of the hypotheses of Obligations.EthernetCommandsComplete, clause by clause. -/
theorem test_witness_EthernetCommandsComplete :
    State.hasAddress 0 3232235521 wNet = true ∧
    State.hasAddress 0 3232235523 wNet = false ∧
    (wNet.serverUp = true ∧ (∀ (a : Time), Tbl.find? 0 wNet.net.prp = some a → a + Time.sec 2 ≤ max 500 wNet.now)) ∧
    (wPrp.serverUp = true ∧ (∀ (a : Time), Tbl.find? 0 wPrp.net.prp = some a → a + Time.sec 2 ≤ max 25600000000 wPrp.now)) ∧
    (wPrp.serverUp = true ∧ Tbl.find? 0 wPrp.net.prp = some 0 ∧ max 500 wPrp.now < 0 + Time.sec 2) :=
  by
    repeat refine ⟨by decide +kernel, ?_⟩
    decide +kernel

/-- Witness of the hypotheses of Obligations.GooseCommandsComplete, clause by clause. -/
theorem test_witness_GooseCommandsComplete :
    ((State.PlainWrite { role := Role.safety, servicePort := false, sid := nobody } 4 false (eTgt / 2 ^ 48) (eTgt / 2 ^ 40 % 256) 0 ((targetTy eTgt).toBytes 500) a14_20) ∧ a14_20.serverUp = true ∧ a14_20.twinRole = 0 ∧ State.rdB (sbk 2 1) a14_20 = true ∧ (∀ j < 16, j ≠ 2 → State.rdB (sbk j 1) a14_20 = false) ∧ State.rdN (sbk 2 2) a14_20 = mGo.pair ∧ State.rdN (sbk 2 3) a14_20 = mGo.appid ∧ State.blob (sbk 2 4) a14_20 = mGo.gocbRef ∧ State.blob (sbk 2 5) a14_20 = mGo.datSet ∧ State.rdN (sbk 2 6) a14_20 = mGo.confRev ∧ State.subEntries 2 a14_20 = [eTgt] ∧ eTgt / 2 ^ 48 < 28672 ∧ (¬(10064 ≤ eTgt / 2 ^ 48 ∧ eTgt / 2 ^ 48 < 10080)) ∧ mGo.test = false ∧ mGo.simulation = false ∧ mGo.ndsCom = false ∧ (∀ (b : Batch), State.entryBatch (eTgt / 2 ^ 48) a14_20 = ↑b → (State.batch b a14_20).cyc = none) ∧ mGo.members[eTgt / 2 ^ 24 % 256]?.bind (convert (eTgt / 65536 % 256) (targetTy eTgt)) = some 500) ∧
    ((State.PlainWrite { role := Role.safety, servicePort := false, sid := nobody } 4 false (eTgt / 2 ^ 48) (eTgt / 2 ^ 40 % 256) 0 (leBytes (targetTy eTgt).bytes (eTgt % 65536)) wTtl) ∧ wTtl.serverUp = true ∧ wTtl.twinRole = 0 ∧ State.rdB (sbk 2 1) wTtl = true ∧ State.bit (sbk 2 9) 1 wTtl = false ∧ (Tbl.find? 2 wTtl.net.subs = some { heard := some 0, ttl := 8 }) ∧ (({ heard := some 0, ttl := 8 } : SubRec).heard = some 0) ∧ (0 + Time.ms ({ heard := some 0, ttl := 8 } : SubRec).ttl ≤ max 102400000 wTtl.now) ∧ State.subEntries 2 wTtl = [eTgt] ∧ (¬(10064 ≤ eTgt / 2 ^ 48 ∧ eTgt / 2 ^ 48 < 10080)) ∧ (targetTy eTgt).bytes ≤ 2) ∧
    (a14_18.serverUp = true ∧ State.rdB (pbk 3 1) a14_18 = true ∧ (State.pub 3 a14_18).members ≠ [] ∧ (∀ h < 8, h ≠ 3 → State.rdB (pbk h 1) a14_18 = false) ∧ ((State.pub 3 a14_18).last ≠ some (List.map (fun m => State.memberValue m (State.begin 500 a14_18)) (State.pub 3 a14_18).members))) ∧
    (a14_19.serverUp = true ∧ State.rdB (pbk 3 1) a14_19 = true ∧ (State.pub 3 a14_19).last ≠ none ∧ (State.pub 3 a14_19).sentAt + Time.ms (State.pub 3 a14_19).interval ≤ max 102400000 a14_19.now) ∧
    (a14_20.serverUp = true ∧ a14_20.twinRole = 0 ∧ State.rdB (sbk 2 1) a14_20 = true ∧ (∀ j < 16, j ≠ 2 → State.rdB (sbk j 1) a14_20 = false) ∧ State.rdN (sbk 2 2) a14_20 = mBool.pair ∧ State.rdN (sbk 2 3) a14_20 = mBool.appid ∧ State.blob (sbk 2 4) a14_20 = mBool.gocbRef ∧ State.blob (sbk 2 5) a14_20 = mBool.datSet ∧ State.rdN (sbk 2 6) a14_20 = mBool.confRev ∧ State.subEntries 2 a14_20 = [eTgt] ∧ eTgt / 2 ^ 48 < 28672 ∧ (¬(10064 ≤ eTgt / 2 ^ 48 ∧ eTgt / 2 ^ 48 < 10080)) ∧ mBool.test = false ∧ mBool.simulation = false ∧ mBool.ndsCom = false ∧ (∀ (b : Batch), State.entryBatch (eTgt / 2 ^ 48) a14_20 = ↑b → (State.batch b a14_20).cyc = none) ∧ mBool.members[eTgt / 2 ^ 24 % 256]?.bind (convert (eTgt / 65536 % 256) (targetTy eTgt)) = none) ∧
    (a14_20.serverUp = true ∧ a14_20.twinRole = 0 ∧ State.rdB (sbk 2 1) a14_20 = true ∧ (∀ j < 16, j ≠ 2 → State.rdB (sbk j 1) a14_20 = false) ∧ State.rdN (sbk 2 2) a14_20 = mSim.pair ∧ State.rdN (sbk 2 3) a14_20 = mSim.appid ∧ State.blob (sbk 2 4) a14_20 = mSim.gocbRef ∧ State.blob (sbk 2 5) a14_20 = mSim.datSet ∧ State.rdN (sbk 2 6) a14_20 = mSim.confRev ∧ State.subEntries 2 a14_20 = [eTgt] ∧ eTgt / 2 ^ 48 < 28672 ∧ (¬(10064 ≤ eTgt / 2 ^ 48 ∧ eTgt / 2 ^ 48 < 10080)) ∧ mSim.test = false ∧ (mSim.test = true ∨ mSim.simulation = true ∨ mSim.ndsCom = true)) ∧
    (wSubB.serverUp = true ∧ wSubB.twinRole = 0 ∧ State.rdB (sbk 2 1) wSubB = true ∧ (∀ j < 16, j ≠ 2 → State.rdB (sbk j 1) wSubB = false) ∧ State.rdN (sbk 2 2) wSubB = mGo.pair ∧ State.rdN (sbk 2 3) wSubB = mGo.appid ∧ State.blob (sbk 2 4) wSubB = mGo.gocbRef ∧ State.blob (sbk 2 5) wSubB = mGo.datSet ∧ State.rdN (sbk 2 6) wSubB = mGo.confRev ∧ State.subEntries 2 wSubB = [eB] ∧ eB / 2 ^ 48 < 28672 ∧ (¬(10064 ≤ eB / 2 ^ 48 ∧ eB / 2 ^ 48 < 10080)) ∧ mGo.test = false ∧ mGo.simulation = false ∧ mGo.ndsCom = false ∧ State.entryBatch (eB / 2 ^ 48) wSubB = 3 ∧ (State.batch 3 wSubB).cyc.isSome = true) :=
  ⟨⟨plainWrite rfl rfl (by decide +kernel),
   by decide +kernel⟩,
   ⟨plainWrite rfl rfl (by decide +kernel),
   by decide +kernel⟩,
   by
    repeat refine ⟨by decide +kernel, ?_⟩
    decide +kernel⟩

end PdoCommands

namespace SecurityAndFirmwareCommands

def a15_1 := (sv [(key 0x2000 1, 3)])
def nq : Req := { hq with servicePort := false }
def q9 : Req := { role := .safety, servicePort := true, sid := 9 }
def fwImg : List Byte := List.replicate 130 0
def wTwA : State := sv [(key 0x2510 1, 1), (twk 7, 1), (key 0x2000 1, 5)]
def wFw : State := { (sv [(key 0x2000 1, 3), (key 0x2001 1, 6), (fwk 2, 2)]) with srv := { State.reset.srv with longImg := fwImg, longSid := 9 } }
def a15_2 := (sv [(key 0x2000 1, 5), (fwk 2, 1)])
def a15_3 := (sv [(key 0x2000 1, 5)])

/-- Witness of the hypotheses of Obligations.SecurityAndFirmwareCommandsComplete, clause by clause. -/
theorem test_witness_SecurityAndFirmwareCommandsComplete :
    (a15_1.serverUp = true ∧ a15_1.longOp = 0 ∧ State.Passes hq 0x2600 2 0 1 a15_1 ∧ State.Passes hq 0x2600 3 0 1 a15_1) ∧
    (a15_1.serverUp = true ∧ a15_1.longOp = 0 ∧ State.Passes hq 0x2601 Role.engineer.rank 0 0 a15_1 ∧ (List.replicate 32 7).length = 32 ∧ hq.servicePort = true) ∧
    (a15_1.serverUp = true ∧ a15_1.longOp = 0 ∧ State.Passes nq 0x2601 Role.engineer.rank 0 0 a15_1 ∧ (List.replicate 32 7).length = 32 ∧ nq.servicePort = false) ∧
    (a15_1.serverUp = true ∧ a15_1.longOp = 0 ∧ State.PassesBlob q9 36608 1 fwImg a15_1 ∧ 120 ≤ fwImg.length ∧ (a15_1.updateAsks = true → a15_1.partnerEligible = true)) ∧
    (wTwA.serverUp = true ∧ wTwA.longOp = 0 ∧ State.PassesBlob q9 36608 1 fwImg wTwA ∧ 120 ≤ fwImg.length ∧ wTwA.updateAsks = true ∧ wTwA.partnerEligible = false) ∧
    (wFw.longOp = 6 ∧ fwImg = wFw.srv.longImg ∧ 184549384 = State.imageCheck fwImg wFw ∧ (184549384 = if 184549384 ≠ 0 then 184549384 else if true = true then 0 else 184549386)) ∧
    (a15_2.serverUp = true ∧ a15_2.longOp = 0 ∧ State.Passes hq 0x2620 3 0 1 a15_2 ∧ a15_2.mod.code ∈ [3, 4, 5, 6] ∧ State.rdN (fwk 2) a15_2 = 1) ∧
    (a15_3.serverUp = true ∧ a15_3.longOp = 0 ∧ State.Passes hq 0x2620 3 0 1 a15_3 ∧ a15_3.mod.code ∈ [3, 4, 5, 6] ∧ State.rdN (fwk 2) a15_3 ≠ 1) :=
  by
    repeat refine ⟨by decide +kernel, ?_⟩
    decide +kernel

end SecurityAndFirmwareCommands

namespace PlainWriteFrame

def xs : Session := { src := 9, service := true, rank := 4, key := none, proved := true, lastSeq := some 4, resp := some [7, 7], opened := 0, heard := 0 }
def dw : Datagram := { src := 9, pair := 0, service := true, magic := true, sid := 1, seq := 5, index := 0x1017, sub := 0, elem := 0, last := false, target := 0, param := 0, data := [5, 0], tag := List.replicate 16 0 }
def wPl : State := { (sv [(key 0x2000 1, 3)]) with srv := { State.reset.srv with sessions := [(1, xs)], nextSid := 2 } }
def dRo : Desc := ⟨0x2001, 0x1, 1, 0x01, 0x01, .u 1, 1, .ro, .c 0, .any⟩
def dNode : Desc := ⟨0x1017, 0x1, 1, 0x00, 0x00, .u 2, 1, .rw, .c 1000, .bw 0 65535⟩
def dOwn : Desc := ⟨0x400E, 0x20, 32, 0x05, 0x08, .u 1, 1, .rwc, .c 255, .bwOr 0 63 255⟩
def dLck : Desc := ⟨0x7820, 0x1, 4, 0x04, 0x04, .u 2, 1, .rwl, .c 100, .bw 10 1000⟩
def dRng : Desc := ⟨0x400E, 0x20, 32, 0x0A, 0x0A, .u 2, 1, .rw, .c 0, .bw 0 60000⟩
def wSt (m : Int) (l : List (Nat × Int)) : State := sv ([(key 0x2000 1, m)] ++ l)
def a16_1 := (wSt 5 [])
def a16_2 := (wSt 5 [(key 0x7800 1, 3)])
def a16_3 := (wSt 5 [(key 0x7800 1, 3), (key 0x2600 1, 1)])
def wGo : State := wSt 5 [(key 0x2752 1, 1), (key 0x2752 8, 1), (key 0x2752 7 1, (0x1017 * 2 ^ 48 : Int))]
def dGen : Desc := ⟨0x6600, 0x1, 64, 0x03, 0x03, .f32, 1, .rw, .c 1065353216, .f32 897988541 1148846080⟩
def dFlt : Desc := ⟨0x6400, 0x1, 64, 0x10, 0x1F, .f32, 1, .rw, .c 0, .f32Norm⟩
def dCar : Desc := ⟨0x4004, 0x20, 32, 0x01, 0x01, .u 4, 1, .rwc, .c 25000, .bw 400 1048575⟩
def a16_4 := (wSt 3 [])
def a16_5 := (wSt 3 [(key 0x7800 1, 1)])
def eOwn : Eff := { own := fun _ => 0x0B000062, eff := id }
def a16_6 := (wSt 5 [(key 0x2001 1, 3)])
def dImg : Desc := ⟨0x8F00, 0x1, 1, 0x01, 0x01, .domain 16777216, 1, .wo, .c 0, .bw 120 16777216⟩
def dWo : Desc := ⟨0x7820, 0x1, 4, 0x0B, 0x0B, .u 1, 1, .wo, .c 0, .oneOf [1, 2]⟩
def dNm : Desc := ⟨0x1008, 0x1, 1, 0x00, 0x00, .vstr 64, 1, .ro, .c 0, .any⟩
def dRef : Desc := ⟨0x2750, 0x1, 16, 0x04, 0x05, .vstr 65, 1, .rwc, .c 0, .any⟩
def a16_7 := (wSt 5 [(bk 1 1 3, 4)])
def wTu (c : Int) (r : TrigRec) : State := (wSt 5 [(tuk 3 1, 1), (tuk 3 2, 7), (tuk 3 4, c), (tuk 3 5, 100), (tuk 3 6, 200), (tuk 3 7, 10), (tuk 3 8, 1), (tuk 3 0xD, 6)]).setTrig 3 r
def rL : TrigRec := { latched := true, held := true, run := 1 }
def rI : TrigRec := { prev := some 100 }
def a16_8 := (wTu 0 rL)
def a16_9 := (wTu 2 rL)
def a16_10 := (wTu 0 {})
def a16_11 := (wTu 6 rI)

/-- Witness of the hypotheses of Obligations.PlainWriteFrame, clause by clause. -/
theorem test_witness_PlainWriteFrame :
    (State.PlainWrite (xs.req dw.sid) (xs.req dw.sid).role.rank true dw.index dw.sub dw.elem dw.data wPl ∧ State.Asks 17 dw xs (State.begin 500 wPl) ∧ State.Local dw wPl ∧ wPl.twinRole = 0) :=
  ⟨plainWrite rfl rfl (by decide +kernel),
   by decide +kernel⟩

/-- Witness of the hypotheses of Obligations.WriteChecksInOrder, clause by clause. -/
theorem test_witness_WriteChecksInOrder :
    (indexExists 4660 = false ∧ descAt 4660 1 = none) ∧
    (indexExists 8193 = true ∧ descAt 8193 9 = none ∧ (9 ≠ 0 ∨ isRecord 8193 = false)) ∧
    (descAt 8193 1 = some dRo ∧ (dRo.n < 7 ∨ dRo.n = 1 ∧ 7 ≠ 0)) ∧
    (descAt 8193 1 = some dRo ∧ 0 ≤ dRo.n ∧ (dRo.n = 1 → 0 = 0) ∧ 1 < writeRank 8193 1 5) ∧
    (descAt 8193 1 = some dRo ∧ 0 ≤ dRo.n ∧ (dRo.n = 1 → 0 = 0) ∧ writeRank 8193 1 5 ≤ 4 ∧ dRo.acc = Acc.ro) ∧
    (descAt 16430 5 = some dOwn ∧ 0 ≤ dOwn.n ∧ (dOwn.n = 1 → 0 = 0) ∧ writeRank 16430 5 5 ≤ 4 ∧ dOwn.acc = Acc.rwc ∧ a16_1.mod ≠ ModState.configuration) ∧
    (descAt 30753 4 = some dLck ∧ 0 ≤ dLck.n ∧ (dLck.n = 1 → 0 = 0) ∧ writeRank 30753 4 50 ≤ 4 ∧ dLck.acc = Acc.rwl ∧ (dLck.acc = Acc.rw ∨ dLck.acc = Acc.wo ∨ dLck.acc = Acc.rwc ∧ a16_2.mod = ModState.configuration ∨ dLck.acc = Acc.rwl ∧ ∀ (a : ℕ), lockArea 30753 4 = some a → State.locked a a16_2 = false) ∧ 30753 ≠ 9729 ∧ (true = false ∨ State.gooseOwned 30753 4 a16_2 = false ∧ State.rpdoOwned 30753 4 a16_2 = false) ∧ 2 = dLck.ty.bytes ∧ dLck.rng.ok dLck.ty 50 = true) ∧
    (a16_1.serverUp = true ∧ a16_1.longOp = 0 ∧ (State.writeCheck hq.role.rank true 8193 1 0 ((Option.map (fun x => x.ty.bytes) (descAt 8193 1)).getD 0) 1 a16_1 = 100728834) ∧ 100728834 ≠ 0 ∧ 5 < key 0x7000 0) ∧
    (descAt 30753 4 = some dLck ∧ 0 ≤ dLck.n ∧ (dLck.n = 1 → 0 = 0) ∧ writeRank 30753 4 50 ≤ 4 ∧ dLck.acc = Acc.rwl ∧ lockArea 30753 4 = some 0 ∧ State.locked 0 a16_3 = true) ∧
    (descAt 4119 0 = some dNode ∧ 0 ≤ dNode.n ∧ (dNode.n = 1 → 0 = 0) ∧ writeRank 4119 0 50 ≤ 4 ∧ (dNode.acc = Acc.rw ∨ dNode.acc = Acc.wo ∨ dNode.acc = Acc.rwc ∧ wGo.mod = ModState.configuration ∨ dNode.acc = Acc.rwl ∧ ∀ (a : ℕ), lockArea 4119 0 = some a → State.locked a wGo = false) ∧ 4119 ≠ 9729 ∧ (State.gooseOwned 4119 0 wGo = true ∨ State.rpdoOwned 4119 0 wGo = true)) ∧
    (descAt 4119 0 = some dNode ∧ 0 ≤ dNode.n ∧ (dNode.n = 1 → 0 = 0) ∧ writeRank 4119 0 50 ≤ 4 ∧ (dNode.acc = Acc.rw ∨ dNode.acc = Acc.wo ∨ dNode.acc = Acc.rwc ∧ a16_1.mod = ModState.configuration ∨ dNode.acc = Acc.rwl ∧ ∀ (a : ℕ), lockArea 4119 0 = some a → State.locked a a16_1 = false) ∧ 4119 ≠ 9729 ∧ (true = false ∨ State.gooseOwned 4119 0 a16_1 = false ∧ State.rpdoOwned 4119 0 a16_1 = false) ∧ 4 ≠ dNode.ty.bytes) ∧
    (descAt 16430 10 = some dRng ∧ 0 ≤ dRng.n ∧ (dRng.n = 1 → 0 = 0) ∧ writeRank 16430 10 60001 ≤ 4 ∧ (dRng.acc = Acc.rw ∨ dRng.acc = Acc.wo ∨ dRng.acc = Acc.rwc ∧ a16_1.mod = ModState.configuration ∨ dRng.acc = Acc.rwl ∧ ∀ (a : ℕ), lockArea 16430 10 = some a → State.locked a a16_1 = false) ∧ 16430 ≠ 9729 ∧ (true = false ∨ State.gooseOwned 16430 10 a16_1 = false ∧ State.rpdoOwned 16430 10 a16_1 = false) ∧ 2 = dRng.ty.bytes ∧ dRng.rng.ok dRng.ty 60001 = false) ∧
    (descAt 16430 10 = some dRng ∧ 0 ≤ dRng.n ∧ (dRng.n = 1 → 0 = 0) ∧ writeRank 16430 10 60000 ≤ 4 ∧ (dRng.acc = Acc.rw ∨ dRng.acc = Acc.wo ∨ dRng.acc = Acc.rwc ∧ a16_1.mod = ModState.configuration ∨ dRng.acc = Acc.rwl ∧ ∀ (a : ℕ), lockArea 16430 10 = some a → State.locked a a16_1 = false) ∧ 16430 ≠ 9729 ∧ (true = false ∨ State.gooseOwned 16430 10 a16_1 = false ∧ State.rpdoOwned 16430 10 a16_1 = false) ∧ 2 = dRng.ty.bytes ∧ dRng.rng.ok dRng.ty 60000 = true) ∧
    (descAt 26121 3 = some dGen ∧ 0 ≤ dGen.n ∧ (dGen.n = 1 → 0 = 0) ∧ writeRank 26121 3 0 ≤ 4 ∧ (dGen.acc = Acc.rw ∨ dGen.acc = Acc.wo ∨ dGen.acc = Acc.rwc ∧ a16_1.mod = ModState.configuration ∨ dGen.acc = Acc.rwl ∧ ∀ (a : ℕ), lockArea 26121 3 = some a → State.locked a a16_1 = false) ∧ 26121 ≠ 9729 ∧ (true = false ∨ State.gooseOwned 26121 3 a16_1 = false ∧ State.rpdoOwned 26121 3 a16_1 = false) ∧ 4 = dGen.ty.bytes ∧ dGen.rng.ok dGen.ty 0 = false) ∧
    (descAt 26121 3 = some dGen ∧ 0 ≤ dGen.n ∧ (dGen.n = 1 → 0 = 0) ∧ writeRank 26121 3 1900671690 ≤ 4 ∧ (dGen.acc = Acc.rw ∨ dGen.acc = Acc.wo ∨ dGen.acc = Acc.rwc ∧ a16_1.mod = ModState.configuration ∨ dGen.acc = Acc.rwl ∧ ∀ (a : ℕ), lockArea 26121 3 = some a → State.locked a a16_1 = false) ∧ 26121 ≠ 9729 ∧ (true = false ∨ State.gooseOwned 26121 3 a16_1 = false ∧ State.rpdoOwned 26121 3 a16_1 = false) ∧ 4 = dGen.ty.bytes ∧ dGen.rng.ok dGen.ty 1900671690 = false) ∧
    (descAt 25605 19 = some dFlt ∧ 0 ≤ dFlt.n ∧ (dFlt.n = 1 → 0 = 0) ∧ writeRank 25605 19 2139095040 ≤ 4 ∧ (dFlt.acc = Acc.rw ∨ dFlt.acc = Acc.wo ∨ dFlt.acc = Acc.rwc ∧ a16_1.mod = ModState.configuration ∨ dFlt.acc = Acc.rwl ∧ ∀ (a : ℕ), lockArea 25605 19 = some a → State.locked a a16_1 = false) ∧ 25605 ≠ 9729 ∧ (true = false ∨ State.gooseOwned 25605 19 a16_1 = false ∧ State.rpdoOwned 25605 19 a16_1 = false) ∧ 4 = dFlt.ty.bytes ∧ dFlt.rng.ok dFlt.ty 2139095040 = false) ∧
    (descAt 16484 1 = some dCar ∧ 0 ≤ dCar.n ∧ (dCar.n = 1 → 0 = 0) ∧ writeRank 16484 1 399 ≤ 4 ∧ dCar.acc = Acc.rwc ∧ (dCar.acc = Acc.rw ∨ dCar.acc = Acc.wo ∨ dCar.acc = Acc.rwc ∧ a16_4.mod = ModState.configuration ∨ dCar.acc = Acc.rwl ∧ ∀ (a : ℕ), lockArea 16484 1 = some a → State.locked a a16_4 = false) ∧ 16484 ≠ 9729 ∧ (true = false ∨ State.gooseOwned 16484 1 a16_4 = false ∧ State.rpdoOwned 16484 1 a16_4 = false) ∧ 4 = dCar.ty.bytes ∧ dCar.rng.ok dCar.ty 399 = false) ∧
    (descAt 30753 4 = some dLck ∧ 0 ≤ dLck.n ∧ (dLck.n = 1 → 0 = 0) ∧ writeRank 30753 4 9 ≤ 4 ∧ dLck.acc = Acc.rwl ∧ (dLck.acc = Acc.rw ∨ dLck.acc = Acc.wo ∨ dLck.acc = Acc.rwc ∧ a16_5.mod = ModState.configuration ∨ dLck.acc = Acc.rwl ∧ ∀ (a : ℕ), lockArea 30753 4 = some a → State.locked a a16_5 = false) ∧ 30753 ≠ 9729 ∧ (true = false ∨ State.gooseOwned 30753 4 a16_5 = false ∧ State.rpdoOwned 30753 4 a16_5 = false) ∧ 2 = dLck.ty.bytes ∧ dLck.rng.ok dLck.ty 9 = false) ∧
    (a16_1.serverUp = true ∧ a16_1.longOp = 0 ∧ (State.writeCheck hq.role.rank true 8193 1 0 ((Option.map (fun x => x.ty.bytes) (descAt 8193 1)).getD 0) 1 a16_1 = 100728834) ∧ 100728834 ≠ 0) ∧
    (a16_1.serverUp = true ∧ a16_1.longOp = 0 ∧ State.Passes hq 0x4042 1 0 1 a16_1 ∧ a16_1.twinRole = 0 ∧ eOwn.own (State.handling hq.sid a16_1) ≠ 0) ∧
    (a16_6.serverUp = true ∧ a16_6.longOp ≠ 0) :=
  by
    repeat refine ⟨by decide +kernel, ?_⟩
    decide +kernel

/-- Witness of the hypotheses of Obligations.AccessCodesGovern, clause by clause. -/
theorem test_witness_AccessCodesGovern :
    (descAt 8193 1 = some dRo ∧ 0 ≤ dRo.n ∧ (dRo.n = 1 → 0 = 0) ∧ writeRank 8193 1 5 ≤ 4 ∧ 100728834 = State.writeCheck 4 true 8193 1 0 1 5 State.reset ∧ dRo.acc = Acc.ro) ∧
    (descAt 4119 0 = some dNode ∧ 0 ≤ dNode.n ∧ (dNode.n = 1 → 0 = 0) ∧ writeRank 4119 0 5 ≤ 4 ∧ 0 = State.writeCheck 4 true 4119 0 0 2 5 a16_1 ∧ (dNode.acc = Acc.rw ∨ dNode.acc = Acc.wo)) ∧
    (descAt 16430 5 = some dOwn ∧ 0 ≤ dOwn.n ∧ (dOwn.n = 1 → 0 = 0) ∧ writeRank 16430 5 5 ≤ 4 ∧ 134217762 = State.writeCheck 4 true 16430 5 0 1 5 a16_1 ∧ dOwn.acc = Acc.rwc) ∧
    (descAt 30753 4 = some dLck ∧ 0 ≤ dLck.n ∧ (dLck.n = 1 → 0 = 0) ∧ writeRank 30753 4 50 ≤ 4 ∧ 0 = State.writeCheck 4 true 30753 4 0 2 50 a16_1 ∧ dLck.acc = Acc.rwl) ∧
    (descAt 30753 4 = some dLck ∧ 0 ≤ dLck.n ∧ (dLck.n = 1 → 0 = 0) ∧ writeRank 30753 4 50 ≤ 4 ∧ 0 = State.writeCheck 4 true 30753 4 0 2 50 a16_1 ∧ dLck.acc = Acc.rwl ∧ lockArea 30753 4 = some 0) ∧
    (descAt 30753 4 = some dLck ∧ dLck.acc = Acc.rwl) ∧
    (descAt 4104 0 = some dNm ∧ dNm.ty.isBlob = true ∧ writeRank 4104 0 0 ≤ 4 ∧ dNm.acc = Acc.ro) ∧
    (descAt 10066 4 = some dRef ∧ dRef.ty.isBlob = true ∧ writeRank 10066 4 0 ≤ 4 ∧ dRef.acc = Acc.rwc) ∧
    (descAt 36608 1 = some dImg ∧ dImg.ty.isBlob = true ∧ writeRank 36608 1 0 ≤ 4 ∧ (dImg.acc = Acc.rw ∨ dImg.acc = Acc.wo)) ∧
    (descAt 30753 11 = some dWo ∧ 0 ≤ dWo.n ∧ (dWo.n = 1 → 0 = 0) ∧ dWo.acc = Acc.wo) ∧
    (descAt 4119 0 = some dNode ∧ 0 ≤ dNode.n ∧ (dNode.n = 1 → 0 = 0) ∧ dNode.acc ≠ Acc.wo ∧ (¬(34304 ≤ 4119 ∧ 4119 < 34336) ∨ State.rdN (bfk (4119 - 34304) 1) a16_1 = 5)) :=
  by
    repeat refine ⟨by decide +kernel, ?_⟩
    decide +kernel

/-- Witness of the hypotheses of Obligations.BatchStateCodes, clause by clause. -/
theorem test_witness_BatchStateCodes :
    ((BatchState.connected, 4) ∈ [(BatchState.off, 0), (BatchState.precharge, 1), (BatchState.starter, 2), (BatchState.blackStart, 3), (BatchState.connected, 4), (BatchState.islanded, 5), (BatchState.currentLimited, 6), (BatchState.coast, 7), (BatchState.resync, 8), (BatchState.following, 9), (BatchState.blocked, 10), (BatchState.fault, 11)] ∧ 3 < 32 ∧ State.rdN (key (0x4001 + 32 * 3) 1) a16_7 = 4) ∧
    ((BatchState.fault, 11) ∈ [(BatchState.off, 0), (BatchState.precharge, 1), (BatchState.starter, 2), (BatchState.blackStart, 3), (BatchState.connected, 4), (BatchState.islanded, 5), (BatchState.currentLimited, 6), (BatchState.coast, 7), (BatchState.resync, 8), (BatchState.following, 9), (BatchState.blocked, 10), (BatchState.fault, 11)] ∧ 31 < 32 ∧ State.bstate 31 a16_1 ≠ BatchState.fault) :=
  by
    repeat refine ⟨by decide +kernel, ?_⟩
    decide +kernel

/-- Witness of the hypotheses of Obligations.TriggerFiresOncePerEpisode, clause by clause. -/
theorem test_witness_TriggerFiresOncePerEpisode :
    (3 < 16 ∧ State.set0 (tuk 3 2) a16_8 ≠ 11 ∧ 0 = State.rdN (tuk 3 4) a16_8 ∧ 10 = State.rd (tuk 3 7) a16_8 ∧ 0 ≤ 10 ∧ (100 = if false = true then State.rd (tuk 3 5) a16_8 % 2 ^ 32 else State.rd (tuk 3 5) a16_8) ∧ (State.trig 3 a16_8).latched = true ∧ (0 = 0 → ∀ (x : ℤ), some 150 = some x → 100 - 10 ≤ x) ∧ (0 = 1 → ∀ (x : ℤ), some 150 = some x → x ≤ 100 + 10) ∧ (2 ≤ 0 → 0 < 6 ∧ ∃ x, some 150 = some x ∧ condHolds 0 100 (if false = true then State.rd (tuk 3 6) a16_8 % 2 ^ 32 else State.rd (tuk 3 6) a16_8) 10 x (State.trig 3 a16_8) = true)) ∧
    (3 < 16 ∧ State.set0 (tuk 3 2) a16_9 ≠ 11 ∧ 2 = State.rdN (tuk 3 4) a16_9 ∧ 10 = State.rd (tuk 3 7) a16_9 ∧ 0 ≤ 10 ∧ (100 = if false = true then State.rd (tuk 3 5) a16_9 % 2 ^ 32 else State.rd (tuk 3 5) a16_9) ∧ (State.trig 3 a16_9).latched = true ∧ (2 = 0 → ∀ (x : ℤ), some 150 = some x → 100 - 10 ≤ x) ∧ (2 = 1 → ∀ (x : ℤ), some 150 = some x → x ≤ 100 + 10) ∧ (2 ≤ 2 → 2 < 6 ∧ ∃ x, some 150 = some x ∧ condHolds 2 100 (if false = true then State.rd (tuk 3 6) a16_9 % 2 ^ 32 else State.rd (tuk 3 6) a16_9) 10 x (State.trig 3 a16_9) = true)) ∧
    (3 < 16 ∧ State.set0 (tuk 3 2) a16_10 ≠ 11 ∧ 0 = State.rdN (tuk 3 4) a16_10 ∧ 10 = State.rd (tuk 3 7) a16_10 ∧ 0 ≤ 10 ∧ (100 = if false = true then State.rd (tuk 3 5) a16_10 % 2 ^ 32 else State.rd (tuk 3 5) a16_10) ∧ State.rd (tuk 3 13) (State.unitUpdate 3 false (some 150) 500 a16_10) ≠ State.rd (tuk 3 13) a16_10 ∧ 0 ≠ 6) ∧
    (3 < 16 ∧ State.set0 (tuk 3 2) a16_8 ≠ 11 ∧ 0 = State.rdN (tuk 3 4) a16_8 ∧ 10 = State.rd (tuk 3 7) a16_8 ∧ 0 ≤ 10 ∧ (100 = if false = true then State.rd (tuk 3 5) a16_8 % 2 ^ 32 else State.rd (tuk 3 5) a16_8) ∧ (0 = 0 ∧ 89 < 100 - 10 ∨ 0 = 1 ∧ 100 + 10 < 89 ∨ 0 = 2 ∧ (89 < 100 ∨ (if false = true then State.rd (tuk 3 6) a16_8 % 2 ^ 32 else State.rd (tuk 3 6) a16_8) < 89) ∨ (0 = 3 ∧ 100 ≤ 89 ∧ 89 ≤ if false = true then State.rd (tuk 3 6) a16_8 % 2 ^ 32 else State.rd (tuk 3 6) a16_8) ∨ 0 = 4 ∧ 89 ≠ 100 ∨ 0 = 5 ∧ 89 = 100)) ∧
    (3 < 16 ∧ State.set0 (tuk 3 2) a16_11 ≠ 11 ∧ 6 = State.rdN (tuk 3 4) a16_11 ∧ 10 = State.rd (tuk 3 7) a16_11 ∧ 0 ≤ 10 ∧ (100 = if false = true then State.rd (tuk 3 5) a16_11 % 2 ^ 32 else State.rd (tuk 3 5) a16_11) ∧ (State.trig 3 a16_11).prev = some 100 ∧ 150 ≠ 100 ∧ State.rdN (tuk 3 8) a16_11 ≤ (State.trig 3 a16_11).run + 1 ∧ State.holdoffOver 3 a16_11 = true) ∧
    (3 < 16 ∧ State.set0 (tuk 3 2) a16_10 ≠ 11 ∧ State.rdN (tuk 3 8) a16_10 ≤ (State.trig 3 a16_10).run + 1 ∧ State.holdoffOver 3 a16_10 = true) ∧
    (3 < 16 ∧ State.rdN (tuk 3 8) a16_10 ≤ (State.trig 3 a16_10).run + 1 ∧ State.holdoffOver 3 a16_10 = true) :=
  by
    repeat refine ⟨by decide +kernel, ?_⟩
    decide +kernel

/-- Witness of the hypotheses of Obligations.LoadFormsTheComparePair, clause by clause. -/
theorem test_witness_LoadFormsTheComparePair :
    (6400000 % 2 = 0 ∧ 38400 ≤ 6400000 / 2 ∧ 2 * 38400 ≤ 76800 ∧ 76800 ≤ 6400000 ∧ 2400000 = rne (24576 * 6400000) 16 + 0 ∧ (38400 = ↑(if true = true then 38400 else (38400 + 1) / 2)) ∧ 2400000 = ↑(6400000 / 2) - ↑(loadPair 6400000 true 38400 76800 false 24576 0).a ∧ 38400 ≤ 2400000 ∧ 2400000 ≤ ↑(6400000 / 2) - 38400 ∧ 0 < 2400000) ∧
    (6400000 % 2 = 0 ∧ 38400 ≤ 6400000 / 2 ∧ 2 * 38400 ≤ 76800 ∧ 76800 ≤ 6400000 ∧ 3320 = rne (34 * 6400000) 16 + 0 ∧ (38400 = ↑(if true = true then 38400 else (38400 + 1) / 2)) ∧ 0 = ↑(6400000 / 2) - ↑(loadPair 6400000 true 38400 76800 false 34 0).a ∧ 0 < 3320 ∧ 3320 < 38400) ∧
    (640000 % 2 = 0 ∧ 6400 ≤ 640000 / 2 ∧ 2 * 6400 ≤ 12800 ∧ 12800 ≤ 640000 ∧ 634766 = rne (65000 * 640000) 16 + 0 ∧ (3200 = ↑(if false = true then 6400 else (6400 + 1) / 2)) ∧ 313600 = ↑(640000 / 2) - ↑(loadPair 640000 false 6400 12800 true 65000 0).a) ∧
    (6400000 % 2 = 0 ∧ 38400 ≤ 6400000 / 2 ∧ 2 * 38400 ≤ 76800 ∧ 76800 ≤ 6400000 ∧ 3196680 = rne (32734 * 6400000) 16 + 0 ∧ (38400 = ↑(if true = true then 38400 else (38400 + 1) / 2)) ∧ 3200000 = ↑(6400000 / 2) - ↑(loadPair 6400000 true 38400 76800 false 32734 0).a ∧ 38400 ≤ 3196680 ∧ 0 < 3196680 ∧ ↑(6400000 / 2) - 38400 < 3196680 ∧ 3196680 < ↑(6400000 / 2)) :=
  by
    repeat refine ⟨by decide +kernel, ?_⟩
    decide +kernel

end PlainWriteFrame


/-! ### Worked examples of the spec -/

namespace Worked

def blk (code outs slot role param : Nat) (ops : List Nat) : Block :=
  { off := 0, code := code, outs := outs, slot := slot, slotCount := 1, role := role, mode := 0, param := param, outSig := 100, recLen := 0, opnds := ops, pad := 0 }
/-- A block evaluated in batch 5 on the inputs. -/
def ev (s : State) (b : Block) (ins : List Int) : Work :=
  let c : Ctx := { s := s, b := 5, r := readRecipe [0], t0 := 0, inp := [], w := { sig := (List.range ins.length).zip ins } }
  ((Ev.block b).run c).2.w
/-- The value of a signal of it. -/
def out (o : Work) (i : Nat) : Int := (Tbl.find? i o.sig).getD 0

/-- Spec 04, Plant A batch 5 d-axis current loop: y = 10,840 and the state 322,981,252 of fixed slot 645. -/
def sPi : State := (w [(key 0x6285 0x10, 24576), (key 0x6285 0x11, 655), (key 0x6285 0x15, 0), (key 0x6285 0x16, -29491 + 65536), (key 0x6285 0x17, 29491)]).setFx 645 { st := { s1 := 322122547 } }
theorem test_current_loop : out (ev sPi (blk 0x20 1 645 1 0 [0, 1]) [16384, 15073]) 100 = 10840 ∧
    ((ev sPi (blk 0x20 1 645 1 0 [0, 1]) [16384, 15073]).fx.map (fun e => (e.1, e.2.s1))) = [(645, 322981252)] := by decide +kernel

/-- Spec 06, Plant A batch 5: the virtual impedance of slot 641 gives 21,321 and −1,158. -/
def sVi : State := w [(key 0x6281 0x10, 874), (key 0x6281 0x11, 4369), (key 0x6281 0x15, 0), (key 0x6281 0x16, 0x8000), (key 0x6281 0x17, 0x7FFF)]
theorem test_virtual_impedance : (out (ev sVi (blk 0x61 2 641 1 0 [0, 1, 2]) [21780, 9011, -1638]) 100,
    out (ev sVi (blk 0x61 2 641 1 0 [0, 1, 2]) [21780, 9011, -1638]) 101) = (21321, -1158) := by decide +kernel

/-- Spec 09, Plant B: duties 24,576 and 8,192 of a carrier of 6,400,000 fine steps, a pulse below the minimum that is carried and what it gives later. -/
theorem test_compare_pairs : (loadPair 6400000 true 38400 76800 false 24576 0).a = 800000 ∧
    (loadPair 6400000 true 38400 76800 false 8192 0).a = 2400000 ∧ (loadPair 6400000 true 38400 76800 false 34 36520).a = 3160160 := by decide +kernel
/-- Spec 11, Plant A coolant pump: duty 0.6 of a carrier of 640,000 fine steps. -/
theorem test_pump_pair : ((loadPair 640000 false 6400 12800 false 19661 0).a, (loadPair 640000 false 6400 12800 false 19661 0).b) = (127998, 512002) := by decide +kernel

/-- Spec 10, Plant B link 0: the edge of position 1, slot 0 at 165,333 fine steps; R211: 70 edges fit beside 12 nodes. -/
theorem test_edge_bytes : (edgeBytes { pos := 1, slot := 0, level := true, offset := 165333 }).map (·.toNat) = [1, 128, 0xD5, 0x85, 2, 0] ∧
    edgeCap 12 = 70 := by decide +kernel

/-- Spec 16, Plant A module reinserted with an aged store: C = 1.899 F, ESR = 0.047973 Ω, E_u = 19.813 J. -/
theorem test_aged_store : ((proofFigures 54000 53030 52514).map (fun p => (roundRat (p.1 * 1000), roundRat (p.2 * 1000000)))) = some (1899, 47973) ∧
    usableEnergy 1899 47973 5400 = 19813 := by decide +kernel

/-- Spec 17, conversion 0x00 of a GOOSE member: an unsigned number to an integer target, saturated. -/
theorem test_goose_saturates : convert 0 (.u 2) (.uint 70000) = some 65535 ∧ convert 0 (.u 2) (.uint 500) = some 500 := by decide +kernel

/-- Spec 02, Plant A batch 5 inputs: the figures of chain 63. -/
def sCh : State := (w [(key 0x5092 1, 20), (ck 63 5, 0), (ck 63 3, 2), (ck 63 4, 25)]).syncChain 63
theorem test_chain_63 : (sCh.rd (ck 63 0x12), sCh.rd (ck 63 0x14), sCh.rd (ck 63 0x15)) = (1400, 53687, 10) := by decide +kernel

end Worked

end Sys2Proof.Tests
end

section
/-! Pair triggers (R24): what the operations of a sequence leave of a pair's record and of its overrun count, and with them the
settlement of O27. -/

namespace Sys2Proof.Machine

/-! ### General rules -/

theorem Sub.refl (a : Nat) : Sub a a := Nat.and_self a

/-- A fold over instances leaves what each of its steps leaves. -/
theorem State.each_eq {α β : Type} (g : State → β) {l : List α} {f : α → State → State}
    (hf : ∀ a ∈ l, ∀ s, g (f a s) = g s) (s : State) : g (s.each l f) = g s := by
  unfold State.each
  induction l generalizing s with
  | nil => rfl
  | cons a r ih =>
    rw [List.foldl_cons, ih (fun b hb => hf b (List.mem_cons_of_mem a hb)), hf a List.mem_cons_self]

@[simp] theorem State.rd_wr_same (k : Nat) (v : Int) (s : State) : (s.wr k v).rd k = v := by
  simp [State.rd]

@[simp] theorem State.rdN_inc_same (k n : Nat) (s : State) : (s.inc k n).rdN k = (s.rdN k + n) % 2 ^ 32 := by
  simp only [State.rdN, State.inc, State.rd_wr_same, Int.toNat_natCast]

/-! ### What leaves the records of the pairs -/

theorem Kept.pair_eq {m : Nat} {s t : State} (h : Kept m s t) (hm : m.testBit 7 = false) (j : Nat) : t.pair j = s.pair j := by
  rw [State.pair, h.measSame hm, State.pair]

theorem State.pair_each {α : Type} {l : List α} {f : α → State → State} {j : Nat}
    (hf : ∀ a s, (f a s).pair j = s.pair j) (s : State) : (s.each l f).pair j = s.pair j :=
  State.each_eq (State.pair j) (fun a _ => hf a) s

@[simp] theorem State.pair_setBit (k i : Nat) (v : Bool) (j : Nat) (s : State) : (s.setBit k i v).pair j = s.pair j := rfl
@[simp] theorem State.pair_inc (k n j : Nat) (s : State) : (s.inc k n).pair j = s.pair j := rfl
@[simp] theorem State.pair_modChain (c : Nat) (f : ChainRec → ChainRec) (j : Nat) (s : State) : (s.modChain c f).pair j = s.pair j := rfl
@[simp] theorem State.pair_restartDetectors (c j : Nat) (s : State) : (s.restartDetectors c).pair j = s.pair j := rfl
@[simp] theorem State.pair_syncCore (k j : Nat) (s : State) : (s.syncCore k).pair j = s.pair j := rfl
@[simp] theorem State.pair_syncPair (p j : Nat) (s : State) : (s.syncPair p).pair j = s.pair j := rfl

@[simp] theorem State.pair_suspect (l : List Nat) (v : Bool) (j : Nat) (s : State) : (s.suspect l v).pair j = s.pair j :=
  (State.suspect_kept (Sub.refl _) (Kept.refl _ _)).pair_eq (by decide) j
@[simp] theorem State.pair_maskTracker (k : Nat) (tm : Time) (j : Nat) (s : State) : (s.maskTracker k tm).pair j = s.pair j :=
  (State.maskTracker_kept (Sub.refl _) (Kept.refl _ _)).pair_eq (by decide) j
@[simp] theorem State.pair_logEvent (code inst : Nat) (data : List Byte) (j : Nat) (s : State) :
    (s.logEvent code inst data).pair j = s.pair j :=
  (State.logEvent_kept (Sub.refl _) (Kept.refl _ _)).pair_eq (by decide) j
@[simp] theorem State.pair_retireRecord (kind inst cause j : Nat) (s : State) :
    (s.retireRecord kind inst cause).pair j = s.pair j :=
  (State.retireRecord_kept (Sub.refl _) (Kept.refl _ _)).pair_eq (by decide) j
@[simp] theorem State.pair_reserveLeft (kind left j : Nat) (s : State) : (s.reserveLeft kind left).pair j = s.pair j :=
  (State.reserveLeft_kept (Sub.refl _) (Kept.refl _ _)).pair_eq (by decide) j
@[simp] theorem State.pair_coreResult (k sl : Nat) (x : Int) (j : Nat) (s : State) : (s.coreResult k sl x).pair j = s.pair j :=
  (State.coreResult_kept (Sub.refl _) (Kept.refl _ _)).pair_eq (by decide) j

@[simp] theorem State.pair_loseHarmonics (c j : Nat) (s : State) : (s.loseHarmonics c).pair j = s.pair j := by
  unfold State.loseHarmonics
  refine State.pair_each (fun d t => ?_) s
  rw [State.pair_wr, State.pair_setSfd]

@[simp] theorem State.pair_syncFollow (c j : Nat) (s : State) : (s.syncFollow c).pair j = s.pair j := by
  unfold State.syncFollow
  dsimp only
  split <;> simp

@[simp] theorem State.pair_syncTracker (k j : Nat) (s : State) : (s.syncTracker k).pair j = s.pair j :=
  State.pair_each (fun c => State.pair_syncFollow c j) s

@[simp] theorem State.pair_loseTrack (k j : Nat) (s : State) : (s.loseTrack k).pair j = s.pair j := by
  simp [State.loseTrack]

@[simp] theorem State.pair_syncLoss (c j : Nat) (s : State) : (s.syncLoss c).pair j = s.pair j := by
  unfold State.syncLoss
  lift_lets
  intro was now_ reported _ unclean _
  have hunclean : unclean.pair j = reported.pair j := rfl
  split
  · rw [State.pair_loseTrack, State.pair_restartDetectors, State.pair_wr, hunclean, State.pair_setBit]
  · rw [State.pair_setBit]

@[simp] theorem State.pair_syncLosses (l : List Nat) (j : Nat) (s : State) : (s.each l State.syncLoss).pair j = s.pair j :=
  State.pair_each (fun c => State.pair_syncLoss c j) s

/-! ### Sequence boundaries and retirements leave the records of the pairs (R30) -/

@[simp] theorem State.pair_takeOver (k j : Nat) (s : State) : (s.takeOver k).pair j = s.pair j := by
  unfold State.takeOver
  split
  · rfl
  · simp only [State.pair_syncPair, State.pair_syncLosses, State.pair_suspect, State.pair_logEvent,
      State.pair_syncCore, State.pair_setCore]
    refine State.pair_each (fun i t => ?_) s
    rw [State.pair_syncCore, State.pair_setCore]

@[simp] theorem State.pair_endCoreTest (k j : Nat) (s : State) : (s.endCoreTest k).pair j = s.pair j := by
  unfold State.endCoreTest
  split
  · split <;> simp
  · rfl

@[simp] theorem State.pair_startCoreTest (k j : Nat) (s : State) : (s.startCoreTest k).pair j = s.pair j := by
  unfold State.startCoreTest
  split
  · split <;> simp
  · rfl

@[simp] theorem State.pair_startCoreShadow (k j : Nat) (s : State) : (s.startCoreShadow k).pair j = s.pair j := by
  unfold State.startCoreShadow
  dsimp only
  split
  · split <;> simp
  · rfl

@[simp] theorem State.pair_sequenceBoundary (p j : Nat) (s : State) : (s.sequenceBoundary p).pair j = s.pair j := by
  refine State.pair_each (fun k t => ?_) s
  simp

@[simp] theorem State.pair_retireCore (k cause j : Nat) (s : State) : (s.retireCore k cause).pair j = s.pair j := by
  unfold State.retireCore
  split
  · rfl
  · dsimp only
    split
    · simp only [apply_ite (State.pair j), State.pair_takeOver, State.pair_reserveLeft, State.pair_suspect,
        State.pair_syncCore, State.pair_setCore, State.pair_retireRecord, ite_self]
    · simp

/-! ### The plausibility slot leaves a held trigger

Both operations are read stage by stage, under a name for the state after each: a term that repeats the earlier stages inside the
conditions of the later ones is slow for the kernel. -/

theorem State.pending_arbitrate (p : Nat) (rd : List Int) (s : State) :
    ((s.arbitrate p rd).pair p).pending = (s.pair p).pending := by
  unfold State.arbitrate
  lift_lets
  intro dev f0 f1 out r ended cleared logged trusted retired0 retired1 s'
  have hended : (ended.pair p).pending = (s.pair p).pending := by rw [State.pair_setPair_same]
  have htrusted : trusted.pair p = ended.pair p := by
    rw [State.pair_suspect, State.pair_logEvent, State.pair_setBit]
  have hretired : retired1.pair p = trusted.pair p := by
    rw [apply_ite (State.pair p), State.pair_retireCore, ite_self, apply_ite (State.pair p), State.pair_retireCore, ite_self]
  have hs' : s'.pair p = trusted.pair p := by
    rw [apply_ite (State.pair p), State.pair_setBit, State.pair_setBit, hretired, ite_self]
  rw [State.pair_syncPair, hs', htrusted, hended]

theorem State.pending_plausibility (p : Nat) (x0 x1 : Int) (s : State) :
    ((s.plausibility p x0 x1).pair p).pending = (s.pair p).pending := by
  unfold State.plausibility
  split
  · lift_lets
    intro y0 y1 r rd d miss run r' compared rc started counted
    have hcompared : (compared.pair p).pending = (s.pair p).pending := by
      rw [State.pair_wr, State.pair_setPair_same]
    have hcounted : (counted.pair p).pending = (compared.pair p).pending := by
      rw [State.pair_inc, State.pair_setBit, State.pair_setBit, State.pair_setPair_same]
    split
    · split
      · rw [State.pair_setPair_same]
      · exact State.pending_arbitrate p rd s
    · split
      · rfl
      · split
        · rw [State.pair_syncPair, State.pair_suspect, hcounted, hcompared]
        · exact hcompared
  · rfl

/-- The last slot of a sequence: the next one runs exactly where a trigger was held. -/
theorem State.pair_sarSlot_last {p : Nat} {s : State} (x0 x1 : Int) (hrun : (s.pair p).running = true)
    (hlast : s.rdN (pk p 3) ≤ (s.pair p).slot + 1) :
    ((s.sarSlot p x0 x1).pair p).running = (s.pair p).pending ∧ ((s.sarSlot p x0 x1).pair p).slot = 0 ∧
      ((s.sarSlot p x0 x1).pair p).pending = false := by
  have hsl : ¬ (s.pair p).slot < s.rdN (pk p 3) - 1 := by omega
  simp [State.sarSlot, hrun, hsl, State.pending_plausibility]

/-! ### What leaves the overrun count of a pair -/

/-- The objects 0x5098 to 0x509F of the pairs are one zone of the dictionary. -/
theorem zone_pk {p sub : Nat} (hp : p < 8) (hsub : sub < 256) : zone (pk p sub) = 57 := by
  have hlo : zone (key 0x5098 0) ≤ zone (pk p sub) := zone_mono (by simp only [pk, key]; omega)
  have hhi : zone (pk p sub) ≤ zone (key 0x509F 255) := zone_mono (by simp only [pk, key]; omega)
  have h1 : zone (key 0x5098 0) = 57 := by decide
  have h2 : zone (key 0x509F 255) = 57 := by decide
  omega

theorem pk_ne_ck {p c a b : Nat} (hc : c < 80) (ha : a < 256) (hb : b < 256) : pk p a ≠ ck c b := by
  simp only [pk, ck, key]
  omega

section
variable {p sub : Nat} (hp : p < 8) (hsub : sub < 256) {c : Nat} (hc : c < 80)

include hsub hc in
theorem State.find?_pk_wr_ck {b : Nat} (hb : b < 256) (v : Int) (s : State) :
    Tbl.find? (pk p sub) (s.wr (ck c b) v).od = Tbl.find? (pk p sub) s.od :=
  Tbl.find?_set_other v s.od (pk_ne_ck hc hsub hb)

include hsub hc in
theorem State.find?_pk_setBit_ck {b : Nat} (hb : b < 256) (i : Nat) (v : Bool) (s : State) :
    Tbl.find? (pk p sub) (s.setBit (ck c b) i v).od = Tbl.find? (pk p sub) s.od :=
  State.find?_pk_wr_ck hsub hc hb _ s

include hsub hc in
theorem State.find?_pk_restartDetectors (s : State) :
    Tbl.find? (pk p sub) (s.restartDetectors c).od = Tbl.find? (pk p sub) s.od := by
  unfold State.restartDetectors
  dsimp only
  iterate 4 rw [State.find?_pk_wr_ck hsub hc (by omega)]
  rfl

include hp hsub

theorem Kept.find?_pk {m : Nat} {s t : State} (h : Kept m s t) (hm : m.testBit (20 + 57) = false) :
    Tbl.find? (pk p sub) t.od = Tbl.find? (pk p sub) s.od :=
  h.numbersSame _ (by rw [zone_pk hp hsub]; exact hm)

include hc in
theorem State.find?_pk_syncFollow (s : State) :
    Tbl.find? (pk p sub) (s.syncFollow c).od = Tbl.find? (pk p sub) s.od := by
  unfold State.syncFollow
  dsimp only
  split
  · rw [Kept.find?_pk hp hsub (State.loseHarmonics_kept (Sub.refl _) (Kept.refl _ _)) (by decide),
      State.find?_pk_setBit_ck hsub hc (by omega), State.find?_pk_wr_ck hsub hc (by omega)]
  · rw [State.find?_pk_setBit_ck hsub hc (by omega), State.find?_pk_wr_ck hsub hc (by omega)]

theorem State.find?_pk_loseTrack (k : Nat) (s : State) :
    Tbl.find? (pk p sub) (s.loseTrack k).od = Tbl.find? (pk p sub) s.od := by
  have hmem {c : Nat} {t : State} (hc : c ∈ t.followers k) : c < 80 := List.mem_range.1 (List.mem_filter.1 hc).1
  unfold State.loseTrack
  dsimp only
  rw [Kept.find?_pk hp hsub (State.maskTracker_kept (Sub.refl _) (Kept.refl _ _)) (by decide)]
  exact State.each_eq (fun t => Tbl.find? (pk p sub) t.od) (fun c hc => State.find?_pk_syncFollow hp hsub (hmem hc)) _

include hc in
theorem State.find?_pk_syncLoss (s : State) :
    Tbl.find? (pk p sub) (s.syncLoss c).od = Tbl.find? (pk p sub) s.od := by
  unfold State.syncLoss
  dsimp only
  split
  · rw [State.find?_pk_loseTrack hp hsub, State.find?_pk_restartDetectors hsub hc,
      State.find?_pk_wr_ck hsub hc (by omega)]
    exact State.find?_pk_setBit_ck hsub hc (by omega) _ _ s
  · exact State.find?_pk_setBit_ck hsub hc (by omega) _ _ s

end

theorem dfltAt_overrun (od : Tbl Int) (p : PairNo) : dfltAt od (pk p 0xA) = 0 := by
  have hdesc : ∀ p : PairNo, (descAt (pk p 0xA / 65536) (pk p 0xA / 256 % 256)).map Desc.dflt = some (.c 0) := by
    decide +kernel
  obtain ⟨d, hd, hc⟩ := Option.map_eq_some_iff.1 (hdesc p)
  simp [dfltAt, hd, hc, Desc.default]

/-- Loss reports of the pair's chains leave its overrun count. -/
theorem State.rd_overrun_syncLosses (p : PairNo) (s : State) :
    (s.each (pairChains p) State.syncLoss).rd (pk p 0xA) = s.rd (pk p 0xA) := by
  have hmem {c : Nat} (hc : c ∈ pairChains p) : c < 80 := by
    simp only [pairChains, List.mem_cons, List.not_mem_nil, or_false] at hc
    omega
  have hfind := State.each_eq (fun t => Tbl.find? (pk p 0xA) t.od)
    (fun c hc => State.find?_pk_syncLoss p.isLt (by omega) (hmem hc)) s
  simp only [State.rd, dfltAt_overrun]
  rw [hfind]

/-! ### A trigger while the sequence runs -/

theorem State.pairTrigger_held {p : Nat} {s : State} (ht : s.triggerNow p = true) (hrun : (s.pair p).running = true)
    (hpend : (s.pair p).pending = false) :
    s.pairTrigger p = (s.setPair p { s.pair p with pending := true }).each (pairChains p) State.syncLoss := by
  simp [State.pairTrigger, ht, hrun, hpend]

theorem State.pairTrigger_dropped {p : Nat} {s : State} (ht : s.triggerNow p = true) (hrun : (s.pair p).running = true)
    (hpend : (s.pair p).pending = true) :
    s.pairTrigger p = (s.inc (pk p 0xA)).each (pairChains p) State.syncLoss := by
  simp [State.pairTrigger, ht, hrun, hpend]

/-- Settles O27: a trigger during the sequence of its pair is held in the pair's record or, where one is held, only counted, and the last
slot turns a held trigger into the next sequence; loss reports and the sequence boundary leave both. -/
theorem triggerHeldPendingOrDropped : Obligations.TriggerHeldPendingOrDropped := by
  unfold Obligations.TriggerHeldPendingOrDropped
  refine ⟨fun t p s ht hrun hpend => ⟨_, rfl, ?held⟩, fun t p s ht hrun hpend => ⟨_, rfl, ?dropped⟩,
    fun t p x0 x1 s hrun hlast => ⟨_, rfl, ?last⟩⟩
  case held =>
    dsimp only
    rw [State.pairTrigger_held ht hrun hpend, State.rd_overrun_syncLosses]
    simpa using ⟨hrun, rfl⟩
  case dropped =>
    dsimp only
    rw [State.pairTrigger_dropped ht hrun hpend, State.rdN, State.rd_overrun_syncLosses, ← State.rdN, State.rdN_inc_same]
    simpa using ⟨hpend, hrun, rfl⟩
  case last => exact State.pair_sarSlot_last x0.toInt x1.toInt hrun hlast

end Sys2Proof.Machine
end

section
/-! The batch state entry (R137): a batch that enters a state shows its code, which settles O9. -/

namespace Sys2Proof.Machine

@[simp] theorem BatchState.ofCode_code (x : BatchState) : BatchState.ofCode x.code = x := by
  cases x <;> rfl

/-- The objects 0x4000 to 0x43FF of the batches are one zone of the dictionary. -/
theorem zone_bk {off sub b : Nat} (hoff : off < 0x20) (hsub : sub < 256) (hb : b < 32) : zone (bk off sub b) = 52 := by
  have hlo : zone (key 0x4000 0) ≤ zone (bk off sub b) := zone_mono (by simp only [bk, key]; omega)
  have hhi : zone (bk off sub b) ≤ zone (key 0x43FF 255) := zone_mono (by simp only [bk, key]; omega)
  have h1 : zone (key 0x4000 0) = 52 := by decide
  have h2 : zone (key 0x43FF 255) = 52 := by decide
  omega

/-- A log record leaves what the dictionary holds of the batches. -/
theorem State.find?_bk_logEvent {off sub b : Nat} (hoff : off < 0x20) (hsub : sub < 256) (hb : b < 32) (code inst : Nat)
    (data : List Byte) (s : State) :
    Tbl.find? (bk off sub b) (s.logEvent code inst data).od = Tbl.find? (bk off sub b) s.od :=
  (State.logEvent_kept (Sub.refl _) (Kept.refl _ _)).numbersSame _ (by rw [zone_bk hoff hsub hb]; decide)

/-- After the write of the new code come only the count of changes, the batch's record and the event: none of them reaches that entry. -/
theorem State.rd_setState {b : Nat} (hb : b < 32) {new : BatchState} (cause : Nat) {s : State} (hne : s.bstate b ≠ new) :
    (s.setState b new cause).rd (bk 1 1 b) = new.code := by
  have hcount : bk 1 1 b ≠ bk 1 4 b := by simp only [bk, key]; omega
  have hfind : Tbl.find? (bk 1 1 b) (s.setState b new cause).od = some (new.code : Int) := by
    unfold State.setState
    dsimp only
    rw [if_neg hne, State.find?_bk_logEvent (by omega) (by omega) hb]
    exact (Tbl.find?_set_other _ _ hcount).trans (Tbl.find?_set_same _ _ _)
  rw [State.rd, hfind]

theorem State.rdN_setState {b : Nat} (hb : b < 32) {new : BatchState} (cause : Nat) {s : State} (hne : s.bstate b ≠ new) :
    (s.setState b new cause).rdN (bk 1 1 b) = new.code := by
  rw [State.rdN, State.rd_setState hb cause hne, Int.toNat_natCast]

theorem State.bstate_setState {b : Nat} (hb : b < 32) {new : BatchState} (cause : Nat) {s : State} (hne : s.bstate b ≠ new) :
    (s.setState b new cause).bstate b = new := by
  rw [State.bstate, State.rdN_setState hb cause hne, BatchState.ofCode_code]

/-- The key of the batch state entry as R137 gives it. -/
theorem bk_batchState (b : Nat) : key (0x4001 + 0x20 * b) 1 = bk 1 1 b := by
  simp only [bk, key]
  omega

/-- Settles O9: each row of Table 06-3 pairs a state with its code, which the model decodes to that state and which a state change
writes last at the entry. -/
theorem batchStateCodes : Obligations.BatchStateCodes := by
  unfold Obligations.BatchStateCodes
  intro x c hrow
  obtain rfl : c = x.code := by
    revert hrow
    cases x <;> simp [BatchState.code]
  refine ⟨fun b s _ hc => ?shown, fun b cause s hb hne => ?entered⟩
  case shown => rw [State.bstate, ← bk_batchState, hc, BatchState.ofCode_code]
  case entered =>
    rw [bk_batchState]
    exact ⟨State.rdN_setState hb cause hne, State.bstate_setState hb cause hne⟩

end Sys2Proof.Machine
end

section
/-! The permissives (R249): the last act of every island cycle writes them, from entries and records which that write leaves, and with
that the settlement of O10. -/

namespace Sys2Proof.Machine

/-! ### A write leaves every other entry -/

/-- Defaults rest on the batch entries 0x4005 + 0x20·b .03 only, so a write at another object leaves them all. -/
theorem dfltAt_set {k : Nat} (hk : k / 65536 % 0x20 ≠ 5) (v : Int) (od : Tbl Int) (j : Nat) :
    dfltAt (Tbl.set k v od) j = dfltAt od j := by
  have hsource : key (0x4005 + (j / 65536 - 0x4000) / 0x20 * 0x20) 3 ≠ k := by
    simp only [key]
    omega
  simp only [dfltAt, Tbl.find?_set_other v od hsource]

theorem State.rd_wr_other {j k : Nat} (hjk : j ≠ k) (hk : k / 65536 % 0x20 ≠ 5) (v : Int) (s : State) :
    (s.wr k v).rd j = s.rd j := by
  simp only [State.rd, State.wr_od, Tbl.find?_set_other v s.od hjk, dfltAt_set hk]

/-! ### One number for the permissives of all batches -/

/-- The number whose bit i is `f i`, below bit m. -/
def bitSum (m : Nat) (f : Nat → Bool) : Nat := ((List.range m).map (fun i => b2n (f i) * 2 ^ i)).sum

theorem bitSum_succ (m : Nat) (f : Nat → Bool) : bitSum (m + 1) f = 2 ^ m * b2n (f m) + bitSum m f := by
  simp only [bitSum, List.range_succ, List.map_append, List.map_singleton, List.sum_append, List.sum_singleton]
  ring

theorem b2n_le (b : Bool) : b2n b ≤ 1 := by cases b <;> decide

theorem bitSum_lt (m : Nat) (f : Nat → Bool) : bitSum m f < 2 ^ m := by
  induction m with
  | zero => simp [bitSum]
  | succ m ih =>
    rw [bitSum_succ, Nat.pow_succ]
    have htop : 2 ^ m * b2n (f m) ≤ 2 ^ m * 1 := Nat.mul_le_mul_left _ (b2n_le _)
    omega

theorem testBit_b2n_zero (b : Bool) : (b2n b).testBit 0 = b := by cases b <;> rfl

theorem testBit_bitSum {m i : Nat} (hi : i < m) (f : Nat → Bool) : (bitSum m f).testBit i = f i := by
  induction m with
  | zero => omega
  | succ m ih =>
    rw [bitSum_succ, Nat.testBit_two_pow_mul_add _ (bitSum_lt m f)]
    split
    case isTrue hlow => exact ih hlow
    case isFalse hhigh =>
      obtain rfl : i = m := by omega
      rw [Nat.sub_self, testBit_b2n_zero]

/-! ### The write of the permissives -/

/-- The last act of `State.islandStatus`: 0x7800.09 holds the permissives of this moment. -/
def State.showPermissives (s : State) : State := s.wr (key 0x7800 9) (bitSum 32 (fun b => s.permissive b) : Nat)

theorem State.islandStatus_eq (s : State) : ∃ t : State, s.islandStatus = t.showPermissives := ⟨_, rfl⟩

theorem State.islandSettle_eq (s : State) : ∃ t : State, s.islandSettle = t.showPermissives :=
  State.islandStatus_eq _

theorem State.islandCycle_eq (rb : List Readback) (s : State) : ∃ t : State, s.islandCycle rb = t.showPermissives :=
  State.islandSettle_eq _

theorem State.bit_showPermissives {b : Nat} (hb : b < 32) (s : State) : s.showPermissives.bit (key 0x7800 9) b = s.permissive b := by
  rw [State.bit, State.rdN, State.showPermissives, State.rd_wr_same, Int.toNat_natCast, testBit_bitSum hb]

/-! ### What that write leaves: everything the permissives rest on -/

theorem State.rd_showPermissives {j : Nat} (hj : j ≠ key 0x7800 9) (s : State) : s.showPermissives.rd j = s.rd j :=
  State.rd_wr_other hj (by decide) _ s

theorem State.rdN_showPermissives {j : Nat} (hj : j ≠ key 0x7800 9) (s : State) : s.showPermissives.rdN j = s.rdN j := by
  rw [State.rdN, State.rd_showPermissives hj, State.rdN]

theorem State.rdB_showPermissives {j : Nat} (hj : j ≠ key 0x7800 9) (s : State) : s.showPermissives.rdB j = s.rdB j := by
  rw [State.rdB, State.rd_showPermissives hj, State.rdB]

theorem State.bit_showPermissives_other {j : Nat} (hj : j ≠ key 0x7800 9) (i : Nat) (s : State) :
    s.showPermissives.bit j i = s.bit j i := by
  rw [State.bit, State.rdN_showPermissives hj, State.bit]

@[simp] theorem State.island_showPermissives (s : State) : s.showPermissives.island = s.island := rfl

@[simp] theorem State.islandState_showPermissives (s : State) : s.showPermissives.islandState = s.islandState :=
  State.rdN_showPermissives (by decide) s

@[simp] theorem State.circState_showPermissives (n : Nat) (s : State) : s.showPermissives.circState n = s.circState n :=
  State.rdN_showPermissives (by simp only [ik, key]; omega) s

@[simp] theorem State.moduleFit_showPermissives (s : State) : s.showPermissives.moduleFit = s.moduleFit := by
  have hmod : s.showPermissives.mod = s.mod := by
    rw [State.mod, State.rdN_showPermissives (by decide), State.mod]
  rw [State.moduleFit, hmod, State.moduleFit]
  rfl

@[simp] theorem State.teleRequired_showPermissives (s : State) : s.showPermissives.teleRequired = s.teleRequired := by
  simp (disch := simp only [ik, key]; omega) only [State.teleRequired, State.rdB_showPermissives]

@[simp] theorem State.teleDemand_showPermissives (s : State) : s.showPermissives.teleDemand = s.teleDemand := by
  rw [State.teleDemand, State.rdN_showPermissives (by decide), State.teleRequired_showPermissives, State.teleDemand]
  rfl

/-- No demand of Table 12-3 rests on the permissives. -/
@[simp] theorem State.standing_showPermissives (s : State) : s.showPermissives.standing = s.standing := by
  simp (disch := simp only [key]; omega) only [State.standing, State.bit_showPermissives_other, State.rdN_showPermissives,
    State.islandState_showPermissives, State.circState_showPermissives, State.moduleFit_showPermissives,
    State.teleRequired_showPermissives, State.teleDemand_showPermissives]

@[simp] theorem State.actMask_showPermissives (l : List Demand) (s : State) : s.showPermissives.actMask l = s.actMask l := by
  rw [State.actMask, State.rdB_showPermissives (by decide), State.actMask]

@[simp] theorem State.mayClose_showPermissives (n : Nat) (s : State) : s.showPermissives.mayClose n = s.mayClose n := by
  simp [State.mayClose]

@[simp] theorem State.resyncOk_showPermissives (n : Nat) (s : State) : s.showPermissives.resyncOk n = s.resyncOk n := by
  simp (disch := decide) [State.resyncOk, State.checkSync, State.rdN_showPermissives, State.bit_showPermissives_other]

@[simp] theorem State.ownCircuits_showPermissives (b : Nat) (s : State) : s.showPermissives.ownCircuits b = s.ownCircuits b := by
  simp (disch := simp only [key]; omega) only [State.ownCircuits, State.isBridge, State.rdB_showPermissives,
    State.rdN_showPermissives]

theorem State.permissive_showPermissives (b : Nat) (s : State) : s.showPermissives.permissive b = s.permissive b := by
  simp [State.permissive]

/-! ### The permissive as R249 and R247 say it -/

theorem State.mem_ownCircuits {b n : Nat} {s : State} :
    n ∈ s.ownCircuits b ↔ n < 4 ∧ s.isBridge n = false ∧ (s.rdN (key (0x7820 + n) 1)).testBit b = true := by
  simp [State.ownCircuits]

theorem State.mayClose_iff {n : Nat} {s : State} :
    s.mayClose n = true ↔ s.islandState = 2 ∧ s.circState n = 0 ∧ (s.actMask s.standing).testBit n = false := by
  simp [State.mayClose, and_assoc]

theorem State.resyncOk_iff {n : Nat} {s : State} :
    s.resyncOk n = true ↔ s.rdN (key 0x7801 0xC) = n ∧ s.island.observed = true ∧ s.bit (key 0x7800 6) 5 = true := by
  simp [State.resyncOk, State.checkSync, and_assoc]

theorem State.permissive_iff {b : Nat} {s : State} :
    s.permissive b = true ↔ ∀ n, n < 4 → s.isBridge n = false → (s.rdN (key (0x7820 + n) 1)).testBit b = true → s.circState n = 3 ∨
      (s.islandState = 2 ∧ s.circState n = 0 ∧ (s.actMask s.standing).testBit n = false ∧ s.rdN (key 0x7801 0xC) = n ∧
        s.island.observed = true ∧ s.bit (key 0x7800 6) 5 = true) := by
  simp only [State.permissive, List.all_eq_true, Bool.or_eq_true, Bool.and_eq_true, beq_iff_eq, State.mem_ownCircuits,
    State.mayClose_iff, State.resyncOk_iff, and_assoc, and_imp]

/-- Settles O10: the last act of the cycle writes each permissive from the state before that write, and the write leaves what the
permissive rests on, so the entry agrees with the state after the cycle too. -/
theorem permissiveOfEveryCycle : Obligations.PermissiveOfEveryCycle := by
  unfold Obligations.PermissiveOfEveryCycle
  intro t rb s
  refine ⟨_, rfl, fun b => ?_⟩
  obtain ⟨u, hu⟩ := State.islandCycle_eq rb (s.begin t)
  rw [hu, State.bit_showPermissives b.isLt, ← State.permissive_showPermissives]
  exact State.permissive_iff

end Sys2Proof.Machine
end

section
/-! The arm of the module (R330): a host's write that runs a module command, what a change of the module's state leaves of the
module's object, the arm checks one by one, and with them the settlement of O12. -/

namespace Sys2Proof.Machine

/-! ### The entries of the module's object -/

/-- Object 0x2000 is zone 4 (the state, .01) and zone 5 (what follows it): a change whose set holds neither leaves its entries. -/
theorem Kept.find?_module {m k : Nat} {s t : State} (hk : zone k = 4 ∨ zone k = 5) (h : Kept m s t)
    (h4 : m.testBit 24 = false) (h5 : m.testBit 25 = false) : Tbl.find? k t.od = Tbl.find? k s.od := by
  apply h.numbersSame
  obtain hk | hk := hk <;> rw [hk]
  · exact h4
  · exact h5

theorem State.rd_of_find? {k : Nat} {v : Int} {s : State} (h : Tbl.find? k s.od = some v) : s.rd k = v := by
  rw [State.rd, h]

theorem State.mod_of_find? {m : ModState} {s : State} (h : Tbl.find? (key 0x2000 1) s.od = some (m.code : Int)) : s.mod = m := by
  rw [State.mod, State.rdN, State.rd_of_find? h]
  cases m <;> rfl

theorem State.mod_wr {k : Nat} (hk : k ≠ key 0x2000 1) (hd : k / 65536 % 0x20 ≠ 5) (v : Int) (s : State) : (s.wr k v).mod = s.mod := by
  rw [State.mod, State.rdN, State.rd_wr_other hk.symm hd, State.mod, State.rdN]

/-- Of the module's object a change of state sets the state and the one before (.01, .02), and may clear the attempts and the end of the
wait (.08, .09); the blocks, the boot-up message and what ends Configuration lie outside it. -/
theorem State.find?_setMod {k : Nat} (hk : zone k = 4 ∨ zone k = 5) (h8 : k ≠ key 0x2000 8) (h9 : k ≠ key 0x2000 9) {new : ModState}
    {s : State} (hnew : s.mod ≠ new) (hrem : s.mod ≠ .removal) (hhold : new = .safeHold → holdFollows s.mod = true) :
    Tbl.find? k (s.setMod new).od = Tbl.find? k ((s.wr (key 0x2000 2) s.mod.code).wr (key 0x2000 1) new.code).od := by
  unfold State.setMod
  lift_lets
  intro old runs logged blocked waited counted rack left
  have hgo : ¬(decide (old = new) || old == .removal || (new == .safeHold && !holdFollows old)) = true := by
    simpa [old, hnew, hrem] using hhold
  have hlogged : Tbl.find? k logged.od = Tbl.find? k ((s.wr (key 0x2000 2) old.code).wr (key 0x2000 1) new.code).od :=
    (State.logEvent_kept (Sub.refl _) (Kept.refl _ _)).find?_module hk (by decide) (by decide)
  have hblocked : Tbl.find? k blocked.od = Tbl.find? k logged.od :=
    (Kept.ite (State.each_kept (mm := 0x7ffffffffffc00000000000e124) (by decide) (fun _ _ h => State.blockBatch_kept (Sub.refl _) h)
      (Kept.refl _ _)) (Kept.refl _ _)).find?_module hk (by decide) (by decide)
  have hwaited : Tbl.find? k waited.od = Tbl.find? k blocked.od := by
    rw [apply_ite State.od, apply_ite (Tbl.find? k), State.wr_od, Tbl.find?_set_other _ _ h9, ite_self]
  have hcounted : Tbl.find? k counted.od = Tbl.find? k waited.od := by
    rw [apply_ite State.od, apply_ite (Tbl.find? k),
      (State.bootUp_kept (Sub.refl _) (Kept.refl _ _)).find?_module hk (by decide) (by decide)]
    exact (ite_congr rfl (fun _ => Tbl.find?_set_other _ _ h8) (fun _ => rfl)).trans (ite_self _)
  have hleft : Kept 0x7fffffffffff00000000004e144 counted left :=
    .ite (.upd_rack (by decide) (.refl _ _)) (.ite (.upd_rack (by decide) (.refl _ _)) (.refl _ _))
  rw [if_neg hgo, ← hlogged, ← hblocked, ← hwaited, ← hcounted]
  exact (Kept.ite (State.confRevs_kept (by decide) (State.coordination_kept (by decide)
    (State.each_kept (by decide) (fun _ _ h => State.endTest_kept (by decide) h)
      (State.queuesInForce_kept (by decide) hleft)))) hleft).find?_module hk (by decide) (by decide)

theorem State.find?_mod_setMod {new : ModState} {s : State} (hnew : s.mod ≠ new) (hrem : s.mod ≠ .removal)
    (hhold : new = .safeHold → holdFollows s.mod = true) : Tbl.find? (key 0x2000 1) (s.setMod new).od = some (new.code : Int) := by
  rw [State.find?_setMod (.inl (by decide)) (by decide) (by decide) hnew hrem hhold]
  exact Tbl.find?_set_same _ _ _

/-! ### A module command that passes the checks of R348 -/

/-- A host's write that passes, of an entry outside the digest of a twin pair, is its effect; this effect answers for itself. -/
theorem State.hostWrite_of_passes {q : Req} {index sub elem : Nat} {v : Int} {e : Eff} {s : State} (hup : s.serverUp = true)
    (hlong : s.longOp = 0) (hpass : s.Passes q index sub elem v) (hdigest : digestWrite index sub = false)
    (hown : e.own (s.handling q.sid) = 0) (hreplies : e.replies = false) :
    s.hostWrite q index sub elem v e = (e.eff (s.handling q.sid)).longBy q 0 := by
  have hlong' : (s.handling q.sid).longOp = 0 := hlong
  have hpass' : (s.handling q.sid).writeCheck q.role.rank true index sub elem (((descAt index sub).map (·.ty.bytes)).getD 0) v = 0 :=
    hpass
  simp [State.hostWrite, State.carryOut, State.twinEntry, hup, hlong, hlong', hpass', hdigest, hown, hreplies]

@[simp] theorem State.rd_answer (e k : Nat) (s : State) : (s.answer e).rd k = s.rd k := rfl

@[simp] theorem State.rd_longBy (q : Req) (was k : Nat) (s : State) : (s.longBy q was).rd k = s.rd k := by
  rw [State.longBy, apply_ite (State.rd k)]
  exact ite_self _

@[simp] theorem State.longBy_out (q : Req) (was : Nat) (s : State) : (s.longBy q was).out = s.out := by
  rw [State.longBy, apply_ite State.out, ite_self]

theorem commandOf_own (c : Nat) (s : State) : (commandOf c).own s = 0 := by
  unfold commandOf
  split <;> rfl

theorem commandOf_replies (c : Nat) : (commandOf c).replies = false := by
  unfold commandOf
  split <;> rfl

theorem State.moduleCommand_of_passes {q : Req} {c : Nat} {s : State} (hup : s.serverUp = true) (hlong : s.longOp = 0)
    (hpass : s.Passes q 0x2000 3 0 c) : s.moduleCommand q c = ((commandOf c).eff (s.handling q.sid)).longBy q 0 :=
  State.hostWrite_of_passes hup hlong hpass (by decide) (commandOf_own c _) (commandOf_replies c)

/-! ### The arm checks one by one (R330) -/

/-- Check 2 fails: an enabled batch has no recipe. -/
def State.lacksRecipe (s : State) : Bool := (allBatches.filter (fun b => s.benabled b)).any (fun b => (s.recipe b).isNone)

/-- Check 3 fails: a node of an enabled batch of output class 1 is not in state 0x02. -/
def State.lacksNode (s : State) : Bool :=
  (allBatches.filter (fun b => s.benabled b)).any
    (fun b => s.outClass b == 1 && (s.batchNodes b).any (fun n => s.rdN (ndk n 5) != 2))

theorem State.lacksRecipe_iff {s : State} : s.lacksRecipe = true ↔ ∃ b, b < 32 ∧ s.benabled b = true ∧ s.recipe b = none := by
  simp [State.lacksRecipe, allBatches]

theorem State.lacksNode_iff {s : State} : s.lacksNode = true ↔
    ∃ b n, b < 32 ∧ s.benabled b = true ∧ s.outClass b = 1 ∧ n ∈ s.batchNodes b ∧ s.rdN (ndk n 5) ≠ 2 := by
  simp [State.lacksNode, allBatches]

theorem State.admissionOk_iff {s : State} :
    s.admissionOk = true ↔ (s.admission factor08 s.lanesIn.length s.carriers s.enabledFigs).result = 0 := by
  simp [State.admissionOk]

theorem State.armCheck_eq (s : State) : s.armCheck =
    if ¬s.admissionOk = true then 1 else if s.lacksRecipe = true then 2 else if s.lacksNode = true then 3
    else if s.bit (stk 0xF) 1 = true then 4 else if s.twinRole ≠ 0 ∧ s.pairState = 5 then 5 else 0 := by
  simp [State.armCheck, State.lacksRecipe, State.lacksNode]

/-- To handle a request at an instant changes none of the entries that checks 2 to 4 read. -/
theorem State.armCheck_handling (t : Time) (sid : Nat) (s : State) : ((s.begin t).handling sid).armCheck =
    if ¬((s.begin t).handling sid).admissionOk = true then 1 else if s.lacksRecipe = true then 2 else if s.lacksNode = true then 3
    else if s.bit (stk 0xF) 1 = true then 4 else if s.twinRole ≠ 0 ∧ ((s.begin t).handling sid).pairState = 5 then 5 else 0 :=
  State.armCheck_eq _

/-! ### The arm -/

@[simp] theorem State.mod_reportAdm (result failing : Nat) (s : State) : (s.reportAdm result failing).mod = s.mod := by
  unfold State.reportAdm
  lift_lets
  intro tested
  have htested : tested.mod = s.mod := by
    rw [State.mod_wr (by decide) (by decide), State.mod_wr (by decide) (by decide), State.mod_wr (by decide) (by decide)]
  split
  · rw [State.mod_wr (by decide) (by decide), htested]
  · exact htested

/-- The state in which an arm has run its checks and shows the one that fails. -/
def State.armChecked (s : State) : State := s.armAdmission.wr (mdk 0xB) s.armCheck

theorem State.mod_armChecked (s : State) : s.armChecked.mod = s.mod :=
  (State.mod_wr (by decide) (by decide) _ _).trans (State.mod_reportAdm _ _ s)

theorem State.rd_armChecked (s : State) : s.armChecked.rd (mdk 0xB) = s.armCheck := State.rd_wr_same _ _ _

theorem State.armModule_of_fail {s : State} (hmod : s.mod = .configuration) (hfail : s.armCheck ≠ 0) :
    s.armModule = (0x0B000012, s.armChecked) := by
  simp [State.armModule, State.armChecked, hmod, hfail]

theorem State.armModule_of_pass {s : State} (hmod : s.mod = .configuration) (hpass : s.armCheck = 0) :
    s.armModule = (0, s.armChecked.setMod .armed) := by
  simp [State.armModule, State.armChecked, hmod, hpass]

/-- A module that has passed the checks in Configuration becomes Armed and goes on showing no failing check. -/
theorem State.armChecked_setMod_armed {s : State} (hmod : s.mod = .configuration) (hpass : s.armCheck = 0) :
    (s.armChecked.setMod .armed).mod = .armed ∧ (s.armChecked.setMod .armed).rd (mdk 0xB) = 0 := by
  have hchecked : s.armChecked.mod = .configuration := s.mod_armChecked.trans hmod
  have hnew : s.armChecked.mod ≠ .armed := by simp [hchecked]
  have hrem : s.armChecked.mod ≠ .removal := by simp [hchecked]
  refine ⟨State.mod_of_find? (State.find?_mod_setMod hnew hrem nofun), State.rd_of_find? ?_⟩
  rw [State.find?_setMod (.inr (by decide)) (by decide) (by decide) hnew hrem nofun, State.wr_od, State.wr_od,
    Tbl.find?_set_other _ _ (by decide), Tbl.find?_set_other _ _ (by decide), State.armChecked, hpass]
  exact Tbl.find?_set_same _ _ _

/-- A host's arm leaves the module's state and the failing check as the arm gives them, and is answered with its result. -/
theorem moduleArm_completes {t : Time} {q : Req} {s x : State} {e : Nat} (hup : s.serverUp = true) (hlong : s.longOp = 0)
    (hpass : s.Passes q 0x2000 3 0 2) (harm : ((s.begin t).handling q.sid).armModule = (e, x)) :
    Completes (.moduleArm t q) s (fun u => u.mod = x.mod ∧ u.rd (mdk 0xB) = x.rd (mdk 0xB) ∧ u.Answered e) := by
  refine ⟨(((x.wr (mdk 4) e).answer e).longBy q 0), ?run, ?state, ?check, ?answered⟩
  case run =>
    have heff : (commandOf 2).eff ((s.begin t).handling q.sid) = (x.wr (mdk 4) e).answer e := by
      simp only [commandOf, armModuleEff, moduleEff, harm]
    exact congrArg _ ((State.moduleCommand_of_passes (s := s.begin t) hup hlong hpass).trans (by rw [heff]))
  case state =>
    rw [State.mod, State.rdN, State.rd_longBy, State.rd_answer]
    exact State.mod_wr (by decide) (by decide) e x
  case check => rw [State.rd_longBy, State.rd_answer, State.rd_wr_other (by decide) (by decide)]
  case answered =>
    rw [State.Answered, State.longBy_out]
    exact List.mem_append_right _ (List.mem_singleton_self _)

theorem moduleArm_of_fail {t : Time} {q : Req} {s : State} (hup : s.serverUp = true) (hlong : s.longOp = 0)
    (hpass : s.Passes q 0x2000 3 0 2) (hmod : s.mod = .configuration) (hfail : ((s.begin t).handling q.sid).armCheck ≠ 0) :
    Completes (.moduleArm t q) s (fun u => u.mod = .configuration ∧ u.rdN (mdk 0xB) = ((s.begin t).handling q.sid).armCheck ∧
      u.Answered 0x0B000012) := by
  obtain ⟨u, hrun, hstate, hcheck, hanswered⟩ := moduleArm_completes hup hlong hpass (State.armModule_of_fail hmod hfail)
  refine ⟨u, hrun, hstate.trans ((State.mod_armChecked _).trans hmod), ?_, hanswered⟩
  rw [State.rdN, hcheck, State.rd_armChecked, Int.toNat_natCast]

theorem moduleArm_of_pass {t : Time} {q : Req} {s : State} (hup : s.serverUp = true) (hlong : s.longOp = 0)
    (hpass : s.Passes q 0x2000 3 0 2) (hmod : s.mod = .configuration) (hchecks : ((s.begin t).handling q.sid).armCheck = 0) :
    Completes (.moduleArm t q) s (fun u => u.mod = .armed ∧ u.rd (mdk 0xB) = 0 ∧ u.Answered 0) := by
  obtain ⟨u, hrun, hstate, hcheck, hanswered⟩ := moduleArm_completes hup hlong hpass (State.armModule_of_pass hmod hchecks)
  obtain ⟨harmed, hnone⟩ := State.armChecked_setMod_armed (s := (s.begin t).handling q.sid) hmod hchecks
  exact ⟨u, hrun, hstate.trans harmed, hcheck.trans hnone, hanswered⟩

/-- Settles O12: going through the checks in the order of R330, the first that fails is the number that the arm finds; with one the arm is
refused and shows it, with none the module becomes Armed. -/
theorem armStopsAtFirstFailedCheck : Obligations.ArmStopsAtFirstFailedCheck := by
  unfold Obligations.ArmStopsAtFirstFailedCheck
  rintro t q s s1 k hup hlong hpass hmod rfl hk
  have hcheck : ((s.begin t).handling q.sid).armCheck = k := by
    rw [State.armCheck_handling]
    obtain ⟨rfl, hadm⟩ | ⟨hadm, hk⟩ := hk
    · exact if_pos (mt State.admissionOk_iff.1 hadm)
    rw [if_neg (not_not.2 (State.admissionOk_iff.2 hadm))]
    obtain ⟨rfl, hrecipe⟩ | ⟨hrecipe, hk⟩ := hk
    · exact if_pos (State.lacksRecipe_iff.2 hrecipe)
    rw [if_neg (mt State.lacksRecipe_iff.1 (fun ⟨b, hb, hen, hnone⟩ => hrecipe b hb hen hnone))]
    obtain ⟨rfl, hnode⟩ | ⟨hnode, hk⟩ := hk
    · exact if_pos (State.lacksNode_iff.2 hnode)
    rw [if_neg (mt State.lacksNode_iff.1 (fun ⟨b, n, hb, hen, hcls, hn, hdown⟩ => hdown (hnode b n hb hen hcls hn)))]
    obtain ⟨rfl, hstore⟩ | ⟨hstore, hk⟩ := hk
    · exact if_pos hstore
    rw [if_neg (Bool.eq_false_iff.1 hstore)]
    obtain ⟨rfl, hpair⟩ | ⟨rfl, hpair⟩ := hk
    · exact if_pos hpair
    · exact if_neg hpair
  subst hcheck
  exact ⟨moduleArm_of_fail hup hlong hpass hmod, moduleArm_of_pass hup hlong hpass hmod⟩

end Sys2Proof.Machine
end

section
/-! The access codes (R347): which rows of the dictionary carry the code of a lock, what the code of an entry makes of a write and of a
read, and with them the settlement of O8. -/

namespace Sys2Proof.Machine

/-! ### The row of an entry -/

theorem Desc.covers_iff {d : Desc} {index sub : Nat} :
    d.covers index sub = true ↔ d.base ≤ index ∧ d.lo ≤ sub ∧ sub ≤ d.hi ∧ (index - d.base) % d.stride = 0 ∧
      (index - d.base) / d.stride < d.count := by
  simp only [Desc.covers, Desc.inst?, Bool.and_eq_true, decide_eq_true_eq, beq_iff_eq, Option.isSome_ite]
  tauto

/-- The index of an entry that a row covers carries a number in that row (R377). -/
theorem Desc.exists_number_of_covers {d : Desc} {index sub : Nat} (h : d.covers index sub = true) :
    ∃ i < d.count, index = d.base + d.stride * i ∧ d.lo ≤ sub ∧ sub ≤ d.hi := by
  obtain ⟨hbase, hlo, hhi, hmod, hcount⟩ := Desc.covers_iff.1 h
  refine ⟨_, hcount, ?_, hlo, hhi⟩
  have hdiv := Nat.div_add_mod (index - d.base) d.stride
  omega

theorem mem_rowsOf_of_descAt {index sub : Nat} {d : Desc} (h : descAt index sub = some d) : d ∈ rowsOf index :=
  List.mem_of_find?_eq_some h

theorem covers_of_descAt {index sub : Nat} {d : Desc} (h : descAt index sub = some d) : d.covers index sub = true :=
  List.find?_some (p := fun e : Desc => e.covers index sub) h

/-! ### The rows that carry the code of a lock (Table 17-3) -/

/-- A row with the code of a lock holds no byte strings, and each of its entries lies in a lock area. -/
abbrev Desc.LockFits (d : Desc) : Prop :=
  d.acc = .rwl → d.ty.isBlob = false ∧
    ∀ i < d.count, ∀ sub ≤ d.hi, d.lo ≤ sub → (lockArea (d.base + d.stride * i) sub).isSome = true

theorem forall_mem_ite {α : Type} {p : α → Prop} {c : Prop} [Decidable c] {l r : List α} (hl : ∀ a ∈ l, p a) (hr : ∀ a ∈ r, p a) :
    ∀ a ∈ if c then l else r, p a := by
  split
  · exact hl
  · exact hr

theorem lockFits_of_mem_rowsBy (index : Nat) : ∀ d ∈ rowsBy index, d.LockFits := by
  unfold rowsBy
  repeat' apply forall_mem_ite
  all_goals decide +kernel

theorem lockFits_of_mem_rowsOf (index : Nat) : ∀ d ∈ rowsOf index, d.LockFits := by
  unfold rowsOf
  split
  case isTrue => split <;> decide +kernel
  case isFalse => exact lockFits_of_mem_rowsBy index

theorem not_isBlob_of_rwl {index sub : Nat} {d : Desc} (hd : descAt index sub = some d) (hacc : d.acc = .rwl) : d.ty.isBlob = false :=
  (lockFits_of_mem_rowsOf index d (mem_rowsOf_of_descAt hd) hacc).1

theorem exists_lockArea_of_rwl {index sub : Nat} {d : Desc} (hd : descAt index sub = some d) (hacc : d.acc = .rwl) :
    ∃ a, lockArea index sub = some a := by
  obtain ⟨i, hi, rfl, hlo, hhi⟩ := Desc.exists_number_of_covers (covers_of_descAt hd)
  obtain ⟨-, hlock⟩ := lockFits_of_mem_rowsOf _ d (mem_rowsOf_of_descAt hd) hacc
  exact Option.isSome_iff_exists.1 (hlock i hi sub hhi hlo)

/-! ### Checks 1 to 5 of R348 on an entry whose role passes -/

section
variable {rank index sub elem : Nat} {host : Bool} {v : Int} {s : State} {d : Desc}
  (hd : descAt index sub = some d) (hn : elem ≤ d.n) (hone : d.n = 1 → elem = 0)

include hd hn hone

theorem State.readCheck_eq :
    s.readCheck index sub elem = if d.acc = .wo then abWriteOnly
      else if (0x8600 ≤ index ∧ index < 0x8620) ∧ s.rdN (bfk (index - 0x8600) 1) ≠ 5 then 0x0B0000D2 else 0 := by
  have hsub : ¬((d.n = 1 ∧ elem ≠ 0) ∨ d.n < elem) := by omega
  simp [State.readCheck, hd, hsub]

variable (hrank : writeRank index sub v ≤ rank)
include hrank

theorem State.accessCheck_eq :
    s.accessCheck rank host index sub elem v = if d.acc = .ro then abReadOnly
      else if d.acc = .rwc ∧ s.mod ≠ .configuration then abState
      else if (d.acc = .rwl ∨ index = 0x2601) ∧ ((lockArea index sub).map (fun a => s.locked a)).getD false = true then abLocked
      else if host = true ∧ (s.gooseOwned index sub = true ∨ s.rpdoOwned index sub = true) then abOwned
      else 0 := by
  have hsub : ¬((d.n = 1 ∧ elem ≠ 0) ∨ d.n < elem) := by omega
  simp [State.accessCheck, hd, hsub, hrank.not_gt]

theorem State.accessCheck_eq_readOnly_iff : s.accessCheck rank host index sub elem v = abReadOnly ↔ d.acc = .ro := by
  rw [State.accessCheck_eq hd hn hone hrank]
  split_ifs with hro
  · exact iff_of_true rfl hro
  all_goals exact iff_of_false (by decide) hro

theorem State.accessCheck_eq_state_iff :
    s.accessCheck rank host index sub elem v = abState ↔ d.acc = .rwc ∧ s.mod ≠ .configuration := by
  rw [State.accessCheck_eq hd hn hone hrank]
  split_ifs with hro hrwc
  · exact iff_of_false (by decide) (by simp [hro])
  · exact iff_of_true rfl hrwc
  all_goals exact iff_of_false (by decide) hrwc

theorem State.accessCheck_eq_locked_iff {a : Nat} (hacc : d.acc = .rwl) (ha : lockArea index sub = some a) :
    s.accessCheck rank host index sub elem v = abLocked ↔ s.locked a = true := by
  rw [State.accessCheck_eq hd hn hone hrank, if_neg (by simp [hacc]), if_neg (by simp [hacc])]
  simp only [hacc, ha, true_or, true_and, Option.map_some, Option.getD_some]
  split_ifs with hlocked
  · exact iff_of_true rfl hlocked
  all_goals exact iff_of_false (by decide) hlocked

end

/-! ### The length and the range answer no code of the access -/

/-- The codes of Table 17-17 that an access code decides on. -/
def accessAborts : List Nat := [abReadOnly, abState, abLocked]

theorem firstOf_eq_iff {c r x : Nat} (hx : x ≠ 0) (hr : r ≠ x) : (if c ≠ 0 then c else r) = x ↔ c = x := by
  split_ifs with hc
  · exact Iff.rfl
  · exact iff_of_false hr (fun h => hx (h ▸ not_not.1 hc))

theorem rangeAbort_not_mem_accessAborts (index sub : Nat) (v : Int) : rangeAbort index sub v ∉ accessAborts := by
  unfold rangeAbort
  split_ifs <;> decide

theorem blobLength_not_mem_accessAborts (index sub len : Nat) : blobLength index sub len ∉ accessAborts := by
  unfold blobLength
  split
  · split_ifs <;> decide
  · split_ifs <;> decide
  · decide

theorem State.writeCheck_eq_iff {rank index sub elem len x : Nat} {host : Bool} {v : Int} {s : State} (hx : x ∈ accessAborts) :
    s.writeCheck rank host index sub elem len v = x ↔ s.accessCheck rank host index sub elem v = x := by
  refine firstOf_eq_iff (fun h => absurd (h ▸ hx) (by decide)) (ne_of_mem_of_not_mem hx ?_).symm
  split
  · decide
  · split_ifs
    · decide
    · exact rangeAbort_not_mem_accessAborts index sub v
    · decide

theorem State.blobCheck_eq_iff {rank index sub len x : Nat} {host : Bool} {s : State} (hx : x ∈ accessAborts) :
    s.blobCheck rank host index sub len = x ↔ s.accessCheck rank host index sub 0 0 = x :=
  firstOf_eq_iff (fun h => absurd (h ▸ hx) (by decide)) (ne_of_mem_of_not_mem hx (blobLength_not_mem_accessAborts index sub len)).symm

/-! ### What each access code decides -/

section
variable {index sub : Nat} {d : Desc} (hd : descAt index sub = some d)
include hd

theorem State.writeCheck_by_access {rank elem len : Nat} {host : Bool} {v : Int} {s : State} (hn : elem ≤ d.n)
    (hone : d.n = 1 → elem = 0) (hrank : writeRank index sub v ≤ rank) :
    (s.writeCheck rank host index sub elem len v = abReadOnly ↔ d.acc = .ro) ∧
    (s.writeCheck rank host index sub elem len v = abState ↔ d.acc = .rwc ∧ s.mod ≠ .configuration) ∧
    (d.acc = .rwl → ∀ a, lockArea index sub = some a →
      (s.writeCheck rank host index sub elem len v = abLocked ↔ s.locked a = true)) :=
  ⟨(State.writeCheck_eq_iff (by decide)).trans (State.accessCheck_eq_readOnly_iff hd hn hone hrank),
    (State.writeCheck_eq_iff (by decide)).trans (State.accessCheck_eq_state_iff hd hn hone hrank),
    fun hacc _ ha => (State.writeCheck_eq_iff (by decide)).trans (State.accessCheck_eq_locked_iff hd hn hone hrank hacc ha)⟩

theorem State.blobCheck_by_access {rank len : Nat} {host : Bool} {s : State} (hrank : writeRank index sub 0 ≤ rank) :
    (s.blobCheck rank host index sub len = abReadOnly ↔ d.acc = .ro) ∧
    (s.blobCheck rank host index sub len = abState ↔ d.acc = .rwc ∧ s.mod ≠ .configuration) :=
  ⟨(State.blobCheck_eq_iff (by decide)).trans (State.accessCheck_eq_readOnly_iff hd (Nat.zero_le _) (fun _ => rfl) hrank),
    (State.blobCheck_eq_iff (by decide)).trans (State.accessCheck_eq_state_iff hd (Nat.zero_le _) (fun _ => rfl) hrank)⟩

end

/-- Settles O8: once existence and role pass, the answers to a write that an access code gives are given in exactly its cases, since the
checks after it answer other codes; that every row with the code of a lock has a lock area, and none holds byte strings, is a fact of
the tables. -/
theorem accessCodesGovern : Obligations.AccessCodesGovern := by
  unfold Obligations.AccessCodesGovern
  intro index sub d hd
  refine ⟨?codes, exists_lockArea_of_rwl hd, ?value, ?blob, ?read⟩
  case codes => cases d.acc <;> decide
  case value =>
    rintro rank host elem len v _ s hn hone hrank rfl
    obtain ⟨hro, hstate, hlocked⟩ := State.writeCheck_by_access (len := len) (host := host) (s := s) hd hn hone hrank
    simp only [abReadOnly, abState, abLocked] at hro hstate hlocked
    refine ⟨hro.2, ?plain, ?config, ?lock⟩
    case plain => rintro (h | h) <;> simp [hro, hstate, h]
    case config => exact fun h => by simp [hro, hstate, h]
    case lock => exact fun h a ha => ⟨hlocked h a ha, by simp [hro, h], by simp [hstate, h]⟩
  case blob =>
    intro rank host len s hblob hrank
    obtain ⟨hro, hstate⟩ := State.blobCheck_by_access (len := len) (host := host) (s := s) hd hrank
    simp only [abReadOnly, abState] at hro hstate
    refine ⟨fun h => by simp [not_isBlob_of_rwl hd h] at hblob, hro.2, ?config, ?plain⟩
    case config => exact fun h => by simp [hstate, h]
    case plain => rintro (h | h) <;> simp [hro, hstate, h]
  case read =>
    intro elem s hn hone
    rw [State.readCheck_eq hd hn hone]
    refine ⟨fun hacc => if_pos hacc, fun hacc hfile => ?_⟩
    rw [if_neg hacc, if_neg]
    rintro ⟨hindex, hstate⟩
    exact hfile.elim (absurd hindex) hstate

end Sys2Proof.Machine
end

section
/-! Rules for the proofs that follow: entries whose default rests on nothing else, what a change within a set leaves of the entries, what
an event leaves, messages only ever follow those sent before, and a host's write that passes its checks. -/

namespace Sys2Proof.Machine

-- The kernel's evaluations run one after the other: side by side they would need too much memory.
set_option Elab.async false

/-! ### Entries with a default of their own -/

/-- The entry lies outside the two batch objects whose rows hold a default taken from another entry (0x4006 .07, 0x400E .03). -/
abbrev OwnDefault (k : Nat) : Prop :=
  k / 65536 < 0x4000 ∨ 0x4400 ≤ k / 65536 ∨ (k / 65536 % 0x20 ≠ 6 ∧ k / 65536 % 0x20 ≠ 0xE)

/-- A row whose default is taken from another entry covers one of those two objects. -/
abbrev Desc.FnFits (d : Desc) : Prop :=
  d.dflt = .fn → d.stride = 0x20 ∧ d.count = 32 ∧ (d.base = 0x4006 ∨ d.base = 0x400E)

theorem fnFits_of_mem_rowsBy (index : Nat) : ∀ d ∈ rowsBy index, d.FnFits := by
  unfold rowsBy
  repeat' apply forall_mem_ite
  all_goals decide +kernel

theorem fnFits_of_mem_rowsOf (index : Nat) : ∀ d ∈ rowsOf index, d.FnFits := by
  unfold rowsOf
  split
  case isTrue => split <;> decide +kernel
  case isFalse => exact fnFits_of_mem_rowsBy index

theorem dflt_ne_fn {k : Nat} (hk : OwnDefault k) {d : Desc} (hd : descAt (k / 65536) (k / 256 % 256) = some d) : d.dflt ≠ .fn := by
  intro hfn
  obtain ⟨hstride, hcount, hbase⟩ := fnFits_of_mem_rowsOf _ d (mem_rowsOf_of_descAt hd) hfn
  obtain ⟨i, hi, hindex, -, -⟩ := Desc.exists_number_of_covers (covers_of_descAt hd)
  rw [hstride] at hindex
  obtain h | h | ⟨h6, he⟩ := hk <;> omega

theorem dfltAt_eq {k : Nat} (hk : OwnDefault k) (od od' : Tbl Int) : dfltAt od k = dfltAt od' k := by
  unfold dfltAt
  dsimp only
  cases hd : descAt (k / 65536) (k / 256 % 256) with
  | none => rfl
  | some d =>
    have hfn := dflt_ne_fn hk hd
    dsimp only
    split
    · contradiction
    · rfl

/-- The same numbers are listed for an entry with a default of its own: it holds the same. -/
theorem State.rd_congr {k : Nat} (hk : OwnDefault k) {s t : State} (h : Tbl.find? k t.od = Tbl.find? k s.od) : t.rd k = s.rd k := by
  simp only [State.rd, h, dfltAt_eq hk t.od s.od]

theorem State.rd_wr_ne {j k : Nat} (hjk : j ≠ k) (hj : OwnDefault j) (v : Int) (s : State) : (s.wr k v).rd j = s.rd j :=
  State.rd_congr hj (Tbl.find?_set_other v s.od hjk)

@[simp] theorem State.rdN_wr_same (k : Nat) (v : Int) (s : State) : (s.wr k v).rdN k = v.toNat := by simp [State.rdN]

@[simp] theorem State.rdF_wr_same (k : Nat) (v : Int) (s : State) : (s.wr k v).rdF k = BitVec.ofNat 32 v.toNat := by
  simp [State.rdF]

@[simp] theorem State.rdF_wrF_same (k : Nat) (v : F32) (s : State) : (s.wrF k v).rdF k = v := by
  simp [State.wrF]

/-! ### Changes within a set -/

section
variable {m : Nat} {s t : State}

theorem Kept.find?_eq (h : Kept m s t) {k z : Nat} (hz : zone k = z) (hm : m.testBit (20 + z) = false) :
    Tbl.find? k t.od = Tbl.find? k s.od :=
  h.numbersSame k (hz ▸ hm)

theorem Kept.rd_eq (h : Kept m s t) {k z : Nat} (hz : zone k = z) (hm : m.testBit (20 + z) = false) (hk : OwnDefault k) :
    t.rd k = s.rd k :=
  State.rd_congr hk (h.find?_eq hz hm)

end

/-- An entry between two entries of one zone lies in that zone. -/
theorem zone_between {lo hi k z : Nat} (hlo : zone lo = z) (hhi : zone hi = z) (h1 : lo ≤ k) (h2 : k ≤ hi) : zone k = z := by
  have h1' := zone_mono h1
  have h2' := zone_mono h2
  omega

/-- Below entry k are only zones below that of k. -/
theorem zone_lt_of_lt {k z : Nat} (hz : ∀ a ∈ zoneStarts, key a.1 a.2 ≤ k → key a.1 a.2 ≤ z) : zone k ≤ zone z := by
  unfold zone
  apply List.countP_mono_left
  intro x hx hk
  simp only [decide_eq_true_eq] at hk ⊢
  exact hz x hx hk

/-! ### A bit of an entry -/

theorem testBit_withBit_same (n i : Nat) (v : Bool) : (withBit n i v).testBit i = v := by
  unfold withBit
  split
  case isTrue h => exact h
  case isFalse h =>
    cases v with
    | true =>
      simp only [Bool.not_eq_true] at h
      rw [if_pos rfl, Nat.add_comm, Nat.testBit_two_pow_add_eq, h]
      rfl
    | false =>
      simp only [Bool.not_eq_false] at h
      have hle : 2 ^ i ≤ n := Nat.ge_two_pow_of_testBit h
      have hback : (2 ^ i + (n - 2 ^ i)).testBit i = !(n - 2 ^ i).testBit i := Nat.testBit_two_pow_add_eq _ _
      rw [Nat.add_sub_cancel' hle, h] at hback
      simpa using hback.symm

theorem testBit_add_two_pow_of_ne {n i j : Nat} (hn : n.testBit i = false) (hj : j ≠ i) : (n + 2 ^ i).testBit j = n.testBit j := by
  have hmod : n / 2 ^ i % 2 = 0 := by
    simpa [Nat.testBit_eq_decide_div_mod_eq] using hn
  have hsplit : n = 2 ^ (i + 1) * (n / 2 ^ i / 2) + n % 2 ^ i := by
    have h1 := Nat.div_add_mod n (2 ^ i)
    have h2 := Nat.div_add_mod (n / 2 ^ i) 2
    calc n = 2 ^ i * (2 * (n / 2 ^ i / 2) + n / 2 ^ i % 2) + n % 2 ^ i := by rw [h2, h1]
      _ = 2 ^ (i + 1) * (n / 2 ^ i / 2) + n % 2 ^ i := by rw [hmod]; ring
  have hlow : n % 2 ^ i < 2 ^ i := Nat.mod_lt _ (Nat.two_pow_pos i)
  have hpow : 2 ^ (i + 1) = 2 ^ i + 2 ^ i := by ring
  generalize n / 2 ^ i / 2 = a at hsplit
  generalize n % 2 ^ i = c at hsplit hlow
  have hsum : n + 2 ^ i = 2 ^ (i + 1) * a + (2 ^ i + c) := by omega
  rw [hsum, hsplit, Nat.testBit_two_pow_mul_add _ (by omega), Nat.testBit_two_pow_mul_add _ (by omega)]
  split
  case isTrue hlt => exact Nat.testBit_two_pow_add_gt (by omega) c
  case isFalse => rfl

theorem testBit_withBit_other {i j : Nat} (hj : j ≠ i) (n : Nat) (v : Bool) : (withBit n i v).testBit j = n.testBit j := by
  unfold withBit
  split
  case isTrue => rfl
  case isFalse h =>
    cases v with
    | true => exact testBit_add_two_pow_of_ne (by simpa using h) hj
    | false =>
      have hset : n.testBit i = true := by simpa using h
      have hback : n - 2 ^ i + 2 ^ i = n := Nat.sub_add_cancel (Nat.ge_two_pow_of_testBit hset)
      have hclear : (n - 2 ^ i).testBit i = false := by
        have := testBit_withBit_same n i false
        simpa [withBit, hset] using this
      have := testBit_add_two_pow_of_ne hclear hj
      rw [hback] at this
      simpa using this.symm

@[simp] theorem State.bit_setBit_same (k i : Nat) (v : Bool) (s : State) : (s.setBit k i v).bit k i = v := by
  rw [State.bit, State.setBit, State.rdN_wr_same, Int.toNat_natCast, testBit_withBit_same]

theorem State.bit_setBit_other {i j : Nat} (hj : j ≠ i) (k : Nat) (v : Bool) (s : State) : (s.setBit k i v).bit k j = s.bit k j := by
  rw [State.bit, State.setBit, State.rdN_wr_same, Int.toNat_natCast, testBit_withBit_other hj, State.bit]

theorem State.rd_setBit_ne {j k : Nat} (hjk : j ≠ k) (hj : OwnDefault j) (i : Nat) (v : Bool) (s : State) :
    (s.setBit k i v).rd j = s.rd j :=
  State.rd_wr_ne hjk hj _ s

/-! ### Messages follow those sent before -/

/-- From s to t messages and answers may have been sent, and none is taken back. -/
abbrev Sends (s t : State) : Prop := s.out <+: t.out

theorem Sends.refl (s : State) : Sends s s := List.prefix_refl _

theorem Sends.trans {r s t : State} (h : Sends r s) (k : Sends s t) : Sends r t := List.IsPrefix.trans h k

theorem Sends.of_eq {s t : State} (h : t.out = s.out) : Sends s t := by rw [Sends, h]

theorem Sends.ite {s t u : State} {c : Prop} [Decidable c] (h : Sends s t) (k : Sends s u) : Sends s (if c then t else u) := by
  split
  · exact h
  · exact k

theorem Sends.each {α : Type} {f : α → State → State} (hf : ∀ a s, Sends s (f a s)) (l : List α) (s : State) : Sends s (s.each l f) := by
  unfold State.each
  induction l generalizing s with
  | nil => exact Sends.refl s
  | cons a r ih => exact (hf a s).trans (ih (f a s))

theorem Sends.answered {s t : State} {e : Nat} (h : Sends s t) (k : s.Answered e) : t.Answered e := List.IsPrefix.subset h k

theorem State.sends_emit (o : Output) (s : State) : Sends s (s.emit o) := List.prefix_append _ _

@[simp] theorem State.answered_answer (e : Nat) (s : State) : (s.answer e).Answered e :=
  List.mem_append_right _ (List.mem_singleton_self _)

theorem State.sends_putEvent (code inst : Nat) (data : List Byte) (s : State) : Sends s (s.putEvent code inst data) := by
  have henq (e : Event) (s : State) : (s.enqueueEvent e).out = s.out := by
    unfold State.enqueueEvent
    lift_lets
    intro lost
    have hlost (s : State) : (lost s).out = s.out := rfl
    simp only [apply_ite State.out, State.wr_out, hlost, ite_self]
  have hemcy (e : Event) (s : State) : Sends s (s.emcy e) :=
    Sends.each (fun k s => Sends.ite (State.sends_emit _ s) (Sends.refl s)) _ s
  unfold State.putEvent
  lift_lets
  intro src r e taken
  have htaken : Sends s taken := Sends.refl s
  exact Sends.ite (Sends.refl s) ((htaken.trans (Sends.of_eq (henq e taken))).trans (hemcy e _))

@[simp] theorem State.showCapture_out (k : Nat) (s : State) : (s.showCapture k).out = s.out := rfl

@[simp] theorem State.inc_out (k n : Nat) (s : State) : (s.inc k n).out = s.out := rfl

theorem State.captureFire_out (slot unit : Nat) (tm : Time) (s : State) : (s.captureFire slot unit tm).1.out = s.out := by
  unfold State.captureFire
  lift_lets
  intro post
  split
  · lift_lets
    intros
    split
    · rfl
    · rename_i counted _
      have hcounted : counted.out = s.out := by simp only [counted, apply_ite State.out, State.inc_out, ite_self]
      rw [State.showCapture_out, State.setAcqBuf_out, hcounted]
  · split
    · rfl
    · split
      · simp only [State.showCapture_out, State.wr_out, State.setAcqBuf_out]
      · rfl

theorem State.sends_fireUnit {log : Nat → Nat → List Byte → State → State} (hlog : ∀ c i l s, Sends s (log c i l s)) (u : Nat) (tm : Time)
    (s : State) : Sends s (s.fireUnit log u tm) := by
  unfold State.fireUnit
  lift_lets
  intro slot acts counted p logged fired
  have hcounted : Sends s counted := Sends.refl s
  have hp : Sends counted p.1 := Sends.of_eq (State.captureFire_out _ _ _ _)
  have hlogged : Sends counted logged := Sends.ite (hp.trans (hlog _ _ _ _)) hp
  have hfired : Sends s fired :=
    hcounted.trans (Sends.ite (Sends.ite hlogged (hlogged.trans (State.sends_emit _ _))) (Sends.refl _))
  exact Sends.ite (hfired.trans (hlog _ _ _ _)) hfired

theorem State.sends_everyUpdate {log : Nat → Nat → List Byte → State → State} (hlog : ∀ c i l s, Sends s (log c i l s)) (u : Nat) (tm : Time)
    (s : State) : Sends s (s.everyUpdate log u tm) := by
  unfold State.everyUpdate
  lift_lets
  intro r q start shown
  have hshown : Sends s shown := Sends.refl s
  have hfired (x : TrigRec) : Sends shown ((shown.setTrig u x).fireUnit log u start) := State.sends_fireUnit hlog u start (shown.setTrig u x)
  exact Sends.ite (hshown.trans (hfired _)) hshown

theorem State.sends_logChain (fuel : Nat) (used : List Nat) (code inst : Nat) (data : List Byte) (s : State) :
    Sends s (s.logChain fuel used code inst data) := by
  induction fuel generalizing used code inst data s with
  | zero => exact State.sends_putEvent code inst data s
  | succ n ih =>
    exact (State.sends_putEvent code inst data s).trans
      (Sends.each (fun u s => State.sends_everyUpdate (fun c i l s => ih _ c i l s) u _ s) _ _)

theorem State.sends_logEvent (code inst : Nat) (data : List Byte) (s : State) : Sends s (s.logEvent code inst data) :=
  State.sends_logChain 16 [] code inst data s

theorem State.sends_longBy (q : Req) (was : Nat) (s : State) : Sends s (s.longBy q was) := Sends.of_eq (State.longBy_out q was s)

/-! ### An event leaves everything but acquisition, log and rack -/

/-- The groups and zones that an event may change. -/
abbrev logSet : Nat := 0x7fffd000000000000000000e000

theorem State.kept_logEvent (code inst : Nat) (data : List Byte) (s : State) : Kept logSet s (s.logEvent code inst data) :=
  State.logEvent_kept (Sub.refl _) (Kept.refl _ _)

section
variable (code inst : Nat) (data : List Byte) (s : State)

@[simp] theorem State.logEvent_now : (s.logEvent code inst data).now = s.now := (s.kept_logEvent code inst data).now
@[simp] theorem State.logEvent_blobs : (s.logEvent code inst data).blobs = s.blobs := (s.kept_logEvent code inst data).stringsSame rfl
@[simp] theorem State.logEvent_batches : (s.logEvent code inst data).batches = s.batches := (s.kept_logEvent code inst data).batchesSame rfl
@[simp] theorem State.logEvent_fixed : (s.logEvent code inst data).fixed = s.fixed := (s.kept_logEvent code inst data).fixedSame rfl
@[simp] theorem State.logEvent_floats : (s.logEvent code inst data).floats = s.floats := (s.kept_logEvent code inst data).floatsSame rfl
@[simp] theorem State.logEvent_gens : (s.logEvent code inst data).gens = s.gens := (s.kept_logEvent code inst data).gensSame rfl
@[simp] theorem State.logEvent_fabric : (s.logEvent code inst data).fabric = s.fabric := (s.kept_logEvent code inst data).fabricSame rfl
@[simp] theorem State.logEvent_meas : (s.logEvent code inst data).meas = s.meas := (s.kept_logEvent code inst data).measSame rfl
@[simp] theorem State.logEvent_pwm : (s.logEvent code inst data).pwm = s.pwm := (s.kept_logEvent code inst data).pwmSame rfl
@[simp] theorem State.logEvent_links : (s.logEvent code inst data).links = s.links := (s.kept_logEvent code inst data).linksSame rfl
@[simp] theorem State.logEvent_aux : (s.logEvent code inst data).aux = s.aux := (s.kept_logEvent code inst data).auxSame rfl
@[simp] theorem State.logEvent_island : (s.logEvent code inst data).island = s.island := (s.kept_logEvent code inst data).islandSame rfl
@[simp] theorem State.logEvent_clock : (s.logEvent code inst data).clock = s.clock := (s.kept_logEvent code inst data).clockSame rfl
@[simp] theorem State.logEvent_power : (s.logEvent code inst data).power = s.power := (s.kept_logEvent code inst data).powerSame rfl
@[simp] theorem State.logEvent_srv : (s.logEvent code inst data).srv = s.srv := (s.kept_logEvent code inst data).srvSame rfl
@[simp] theorem State.logEvent_net : (s.logEvent code inst data).net = s.net := (s.kept_logEvent code inst data).netSame rfl

@[simp] theorem State.batch_logEvent (b : Nat) : (s.logEvent code inst data).batch b = s.batch b := by simp [State.batch]
@[simp] theorem State.gen_logEvent (g : Nat) : (s.logEvent code inst data).gen g = s.gen g := by simp [State.gen]
@[simp] theorem State.blob_logEvent (k : Nat) : (s.logEvent code inst data).blob k = s.blob k := by simp [State.blob]

end

/-- The zones below 0x7000 lie outside what an event changes. -/
theorem zone_lt_of_lt_acq {k : Nat} (hk : k < key 0x7000 0) : zone k ≤ 67 := by
  have h : zone k ≤ zone (key 0x6FFF 0xFF 0xFF) := zone_mono (by simp only [key] at hk ⊢; omega)
  exact h.trans (by decide)

theorem logSet_low {z : Nat} (hz : z ≤ 67) : logSet.testBit (20 + z) = false := by
  have h : ∀ z ≤ 67, logSet.testBit (20 + z) = false := by decide
  exact h z hz

theorem State.find?_logEvent {k : Nat} (hk : k < key 0x7000 0) (code inst : Nat) (data : List Byte) (s : State) :
    Tbl.find? k (s.logEvent code inst data).od = Tbl.find? k s.od :=
  (s.kept_logEvent code inst data).find?_eq rfl (logSet_low (zone_lt_of_lt_acq hk))

theorem State.rd_logEvent {k : Nat} (hk : k < key 0x7000 0) (hd : OwnDefault k) (code inst : Nat) (data : List Byte) (s : State) :
    (s.logEvent code inst data).rd k = s.rd k :=
  State.rd_congr hd (State.find?_logEvent hk code inst data s)

/-! ### A host's write that passes its checks -/

section
variable {q : Req} {index sub elem : Nat} {v : Int} {e : Eff} {s : State}

/-- What an accepted write outside a twin pair does: its own conditions, then its effect with the answer. -/
def State.carries (e : Eff) (s : State) : State :=
  if e.own s ≠ 0 then s.answer (e.own s) else if e.replies then (e.eff s).answer 0 else e.eff s

theorem State.carryOut_eq (htwin : s.twinRole = 0) (data : List Byte) : s.carryOut index sub elem data e = s.carries e := by
  have hentry : s.twinEntry index sub = false := by simp [State.twinEntry, htwin]
  unfold State.carryOut State.carries
  cases e.replies <;> simp [hentry]

theorem State.hostWrite_eq (hs : s.Serves) (hpass : s.Passes q index sub elem v) :
    s.hostWrite q index sub elem v e = ((s.handling q.sid).carries e).longBy q 0 := by
  obtain ⟨hup, hlong, htwin⟩ := hs
  have hlong' : (s.handling q.sid).longOp = 0 := hlong
  have hpass' : (s.handling q.sid).writeCheck q.role.rank true index sub elem (((descAt index sub).map (·.ty.bytes)).getD 0) v = 0 :=
    hpass
  simp only [State.hostWrite, hup, hlong, hlong', hpass', Bool.not_true, Bool.false_eq_true, if_false, ne_eq, not_true_eq_false,
    State.carryOut_eq (s := s.handling q.sid) htwin]

theorem State.hostBlob_eq {img : List Byte} (hs : s.Serves) (hpass : s.PassesBlob q index sub img) :
    s.hostBlob q index sub img e = ((s.handling q.sid).carries e).longBy q 0 := by
  obtain ⟨hup, hlong, htwin⟩ := hs
  have hlong' : (s.handling q.sid).longOp = 0 := hlong
  have hpass' : (s.handling q.sid).blobCheck q.role.rank true index sub img.length = 0 := hpass
  simp only [State.hostBlob, hup, hlong, hlong', hpass', Bool.not_true, Bool.false_eq_true, if_false, ne_eq, not_true_eq_false,
    State.carryOut_eq (s := s.handling q.sid) htwin]

theorem State.carries_of_fail {c : Nat} (h : e.own s = c) (hc : c ≠ 0) : s.carries e = s.answer c := by
  rw [State.carries, h, if_pos hc]

theorem State.carries_of_pass (h : e.own s = 0) : s.carries e = if e.replies then (e.eff s).answer 0 else e.eff s := by
  rw [State.carries, h, if_neg (by simp)]

end

end Sys2Proof.Machine
end

section
/-! The range of a generator limit (R91): a denormal value, which counts as 0 in the module's arithmetic, is refused with the code of any
value out of range, which refutes O7. -/

namespace Sys2Proof.Machine

-- The kernel's evaluations run one after the other: side by side they would need too much memory.
set_option Elab.async false

/-- The row of a generator's rate limit (Table 04-6). -/
def rateLimitRow : Desc := ⟨0x6600, 0x1, 64, 0x03, 0x03, .f32, 1, .rw, .c 0x3F800000, .f32 0x358637BD 0x447A0000⟩

theorem descAt_rateLimit : descAt 0x6600 3 = some rateLimitRow := by decide +kernel

/-- The least positive pattern is finite and has the value 0. -/
theorem fval_denormal : fval (BitVec.ofNat 32 (1 : Int).toNat) ≤ 0 := by decide +kernel

theorem State.writeCheck_denormal : State.reset.writeCheck 3 false 0x6600 3 0 4 1 = 0x06090030 := by decide +kernel

/-- Refutes O7: the write of pattern 1 (value 0) to the rate limit of generator 0 passes every check before the range; it is not greater
than 0, yet it answers 0x06090030 and not 0x0B000041. -/
theorem not_writeChecksInOrder : ¬ Obligations.WriteChecksInOrder := by
  unfold Obligations.WriteChecksInOrder
  rintro ⟨hchecks, -, -⟩
  obtain ⟨-, -, hrow⟩ := hchecks 3 false 0x6600 3 0 4 1 State.reset
  obtain ⟨-, hfits⟩ := hrow rateLimitRow descAt_rateLimit
  obtain ⟨-, hrank⟩ := hfits (by decide) (by decide)
  obtain ⟨-, -, -, hopen⟩ := hrank (by decide)
  obtain ⟨-, hhost⟩ := hopen (.inl rfl) (by decide)
  obtain ⟨-, hrange, -⟩ := hhost (.inl rfl)
  have hcode := hrange (by decide) (by decide +kernel)
  rw [State.writeCheck_denormal, if_neg (by decide), if_pos ⟨by decide, by decide, by decide, by decide, .inr fval_denormal⟩] at hcode
  exact absurd hcode (by decide)

end Sys2Proof.Machine
end

section
/-! The server's sessions: what a valid datagram does (R353 to R356), what only the server's records and answers can change, and with them the
frame of a plain write, which settles O6. -/

namespace Sys2Proof.Machine

/-! ### Changes of the server's records and of the answers alone -/

/-- From s to u nothing has changed but the server's records and what was sent. -/
abbrev ServerOnly (s u : State) : Prop := ∃ v o, u = { s with srv := v, out := o }

theorem ServerOnly.refl (s : State) : ServerOnly s s := ⟨s.srv, s.out, rfl⟩

theorem ServerOnly.trans {r s t : State} (h : ServerOnly r s) (k : ServerOnly s t) : ServerOnly r t := by
  obtain ⟨v, o, rfl⟩ := h
  obtain ⟨w, p, rfl⟩ := k
  exact ⟨w, p, rfl⟩

theorem ServerOnly.ite {s t u : State} {c : Prop} [Decidable c] (h : ServerOnly s t) (k : ServerOnly s u) :
    ServerOnly s (if c then t else u) := by
  split
  · exact h
  · exact k

theorem ServerOnly.each {α : Type} {f : α → State → State} (hf : ∀ a s, ServerOnly s (f a s)) (l : List α) (s : State) :
    ServerOnly s (s.each l f) := by
  unfold State.each
  induction l generalizing s with
  | nil => exact ServerOnly.refl s
  | cons a r ih => exact (hf a s).trans (ih (f a s))

theorem State.serverOnly_setSession (sid : Nat) (x : Session) (s : State) : ServerOnly s (s.setSession sid x) := ⟨_, s.out, rfl⟩

theorem State.serverOnly_emit (o : Output) (s : State) : ServerOnly s (s.emit o) := ⟨s.srv, _, rfl⟩

theorem State.serverOnly_handling (sid : Nat) (s : State) : ServerOnly s (s.handling sid) := ⟨_, s.out, rfl⟩

theorem State.serverOnly_longBy (q : Req) (was : Nat) (s : State) : ServerOnly s (s.longBy q was) :=
  ServerOnly.ite ⟨_, s.out, rfl⟩ (ServerOnly.refl s)

theorem State.serverOnly_respond (sid flags progress param : Nat) (data : List Byte) (accept : Bool) (s : State) :
    ServerOnly s (s.respond sid flags progress param data accept) := by
  unfold State.respond
  split
  · exact ServerOnly.refl s
  · split
    · exact ServerOnly.refl s
    · exact (ServerOnly.ite (State.serverOnly_setSession _ _ s) (ServerOnly.refl s)).trans (State.serverOnly_emit _ _)

theorem State.serverOnly_deliver {sid : Nat} (hsid : sid < nobody) (e p : Nat) (l : List Byte) (s : State) :
    ServerOnly s (s.deliver sid e p l) := by
  rw [State.deliver, if_pos hsid]
  exact ServerOnly.ite (State.serverOnly_respond ..) (State.serverOnly_respond ..)

theorem State.serverOnly_sessionReply {sid : Nat} (hsid : sid < nobody) (s : State) : ServerOnly s (s.sessionReply sid) := by
  unfold State.sessionReply
  split
  · exact ServerOnly.refl s
  · lift_lets
    intro isReply rs kept
    have hkept : ServerOnly s kept := ⟨s.srv, _, rfl⟩
    refine hkept.trans (ServerOnly.each (fun o s => ?_) rs kept)
    cases o with
    | reply e p l => exact State.serverOnly_deliver hsid e p l s
    | msg kind fields data => exact ServerOnly.refl s

/-! ### A datagram that reaches its session -/

section
variable {svc : Nat} {d : Datagram} {x : Session} {s : State}

/-- A datagram within its pair's rate is counted in the server's records alone, and in none of the sessions. -/
theorem State.rateOk_of_within (h : (s.rateOk d).1 = true) :
    (s.rateOk d).2 = { s with srv := (s.rateOk d).2.srv } ∧ (s.rateOk d).2.srv.sessions = s.srv.sessions := by
  revert h
  unfold State.rateOk
  split
  · exact fun _ => ⟨rfl, rfl⟩
  · lift_lets
    intro fresh n counted
    by_cases hwithin : n ≤ counted.rdN (key 0x2720 3)
    · rw [if_pos hwithin]
      exact fun _ => ⟨rfl, rfl⟩
    · rw [if_neg hwithin]
      exact fun h => absurd h Bool.false_ne_true

theorem State.arriving_eq (hup : s.serverUp = true) (hopen : s.PairOpen d) (hignored : s.ignores d = false)
    (hrate : (s.rateOk d).1 = true) (f : State → State) : s.arriving d f = f (s.rateOk d).2 := by
  have hpair : (d.service || (s.bit (key 0x2720 2) d.pair && s.rdN (key 0x2720 1) == d.dstPort)) = true := by
    obtain h | ⟨h1, h2⟩ := hopen
    · simp [h]
    · simp [h1, h2]
  unfold State.arriving
  rw [if_neg (by simp [hup, hpair, hignored])]
  exact if_pos hrate

/-- The session's record once a valid datagram was heard. -/
abbrev Session.hears (svc : Nat) (d : Datagram) (now : Time) (x : Session) : Session :=
  if (decide (d.seq = (x.lastSeq.getD 0 + 1) % 2 ^ 32) && !x.owes) = true then { x with heard := now, hdr := some (svc, d) }
  else { x with heard := now }

theorem State.request_of_valid (h : s.Valid svc d x) (f : Session → State → State) : s.request svc d f =
    if (decide (d.seq = (x.lastSeq.getD 0 + 1) % 2 ^ 32) && x.owes) = true then
      ((s.rateOk d).2.setSession d.sid (x.hears svc d s.now)).busy svc d { x with heard := s.now }
    else ((s.rateOk d).2.setSession d.sid (x.hears svc d s.now)).sequenced d { x with heard := s.now }
      (fun s' => s'.accepting d (f { x with heard := s.now })) := by
  obtain ⟨hup, hopen, hignored, hrate, hsession, hlow, hhigh, hmagic, htag, hservice, hproved⟩ := h
  obtain ⟨hcounted, hsame⟩ := State.rateOk_of_within hrate
  have hsession' : (s.rateOk d).2.session d.sid = some x := by rw [State.session, hsame]; exact hsession
  have hnow : (s.rateOk d).2.now = s.now := by rw [hcounted]
  have hgood : (!d.magic || decide (d.tag ≠ tagOf x.key (requestBytes svc d)) || decide (d.service ≠ x.service) ||
      (!x.proved && decide (svc ≠ 2))) = false := by
    obtain rfl | hp := hproved
    · simp [hmagic, htag, hservice]
    · simp [hmagic, htag, hservice, hp]
  unfold State.request
  rw [State.arriving_eq hup hopen hignored hrate]
  simp only [hsession', hgood, hnow, Bool.false_eq_true, if_false]

/-- The session's next request, while the server is free for it, is handled under its header. -/
theorem State.request_of_asks (h : s.Asks svc d x) (f : Session → State → State) : s.request svc d f =
    ((s.rateOk d).2.setSession d.sid { x with heard := s.now, hdr := some (svc, d) }).accepting d (f { x with heard := s.now }) := by
  obtain ⟨hvalid, -, howes, hseq⟩ := h
  have hnew : d.seq ≠ x.lastSeq.getD 0 := by omega
  rw [State.request_of_valid hvalid, if_neg (by simp [howes]), State.sequenced]
  simp only [Session.hears, howes, Bool.not_false, Bool.and_true, decide_eq_true_eq, if_pos hseq, if_neg hnew]

/-- Taking a request changes nothing but the server's records; then come its effect and its answer. -/
theorem State.serverOnly_accepting {f : State → State} (hlong : s.longOp = 0) (hsid : d.sid < nobody) :
    ServerOnly (f s) (s.accepting d f) := by
  unfold State.accepting
  rw [if_neg (by simp [hlong])]
  refine ServerOnly.trans (State.serverOnly_sessionReply hsid (f s)) ?_
  dsimp only
  split
  · exact ServerOnly.ite (ServerOnly.refl _) (State.serverOnly_setSession _ _ _)
  · exact ServerOnly.refl _

end

/-! ### The write of a plain value -/

section
variable {q : Req} {rank index sub elem : Nat} {host : Bool} {l : List Byte} {s : State}

theorem State.length_of_writeCheck {v : Int} {e : Desc} {len : Nat} (hd : descAt index sub = some e)
    (h : s.writeCheck rank host index sub elem len v = 0) : len = e.ty.bytes := by
  by_contra hne
  have hlen : (len != e.ty.bytes) = true := by simpa using hne
  simp only [State.writeCheck, hd, hlen, if_true] at h
  split at h
  · contradiction
  · exact absurd h (by decide)

theorem digestIndex_of_digestWrite (h : digestWrite index sub = true) : 0x3000 ≤ index := by
  unfold digestWrite at h
  simp only [Bool.or_eq_true, Bool.and_eq_true, decide_eq_true_eq, digestEntry, digestIndex] at h
  omega

/-- A plain write outside a twin pair sets its entry and is answered with 0; beside that only the server's records change. -/
theorem State.write_plain (hplain : s.PlainWrite q rank host index sub elem l) (htwin : s.twinRole = 0) (first : Bool) :
    s.write q rank host index sub elem l first =
      (((s.handling q.sid).wr (key index sub elem) (valueOf index sub l)).answer 0).longBy q s.longOp := by
  obtain ⟨hkeys, e, hd, hblob, hsingle, heff, hcheck⟩ := hplain
  have hlen := State.length_of_writeCheck hd hcheck
  have hcheck' : (s.handling q.sid).writeCheck rank host index sub elem l.length (e.ty.ofBytes l) = 0 := hcheck
  have harray : ¬(1 < e.n ∧ elem = 0) := by omega
  have hvalue : (s.handling q.sid).writeValue q rank host index sub elem l =
      ((s.handling q.sid).wr (key index sub elem) (e.ty.ofBytes l)).answer 0 := by
    simp only [State.writeValue, hd, Option.map_some, Option.getD_some, hlen, if_true]
    rw [if_neg (by rw [← hlen]; simpa using hcheck'), State.carryOut_eq (s := s.handling q.sid) htwin, heff]
    simp [State.carries, plainEff]
  set written : State := (((s.handling q.sid).wr (key index sub elem) (e.ty.ofBytes l)).answer 0).longBy q s.longOp with hwritten
  have hrole : written.twinRole = ((s.handling q.sid).wr (key index sub elem) (e.ty.ofBytes l)).twinRole := by
    rw [hwritten, State.twinRole, State.rdN, State.rd_longBy, State.rd_answer]
    rfl
  have hdigest : (digestWrite index sub && decide (written.twinRole ≠ 0)) = false := by
    by_cases hdigest : digestWrite index sub = true
    · have hindex := digestIndex_of_digestWrite hdigest
      have hsame : written.twinRole = 0 := by
        rw [hrole, State.twinRole, State.rdN, State.rd_wr_ne (by simp only [twk, key]; omega) (by decide)]
        exact htwin
      simp [hsame]
    · simp [hdigest]
  have harray' : (decide (1 < e.n) && decide (elem = 0)) = false := by simpa using harray
  unfold State.write
  simp only [hd, hkeys, hblob, harray', decide_false, Bool.false_and, Bool.false_eq_true, if_false, hvalue, ← hwritten, hdigest]
  simp only [hwritten, valueOf, hd, Option.map_some, Option.getD_some]

end

/-- Settles O6: the session takes the datagram, the write passes and sets its entry, and answering it is the server's own affair. -/
theorem plainWriteFrame : Obligations.PlainWriteFrame := by
  unfold Obligations.PlainWriteFrame
  intro t d x s hasks hlocal htwin hplain
  obtain ⟨hvalid, hlong, -, -⟩ := id hasks
  obtain ⟨-, -, -, hrate, -, -, hsid, -⟩ := hvalid
  obtain ⟨hcounted, -⟩ := State.rateOk_of_within hrate
  refine ⟨_, congrArg Host.Outcome.next (State.request_of_asks hasks _), ?_⟩
  rw [hcounted]
  generalize hy : ({ x with heard := (s.begin t).now, hdr := some (0x11, d) } : Session) = y
  set taken : State := State.setSession d.sid y { s.begin t with srv := ((s.begin t).rateOk d).2.srv }
  have hslot : (decide (d.target ≠ 0) && (decide (taken.rackRole ≠ 1) || decide (d.target - 1 ≠ taken.rdN (key 0x2500 1)))) = false := by
    have hlocal' : taken.Local d := hlocal
    obtain h | ⟨h1, h2⟩ := hlocal'
    · simp [h]
    · simp [h1, h2]
  have hrun (f : State → State) (hf : f taken = taken.write (x.req d.sid) (x.req d.sid).role.rank true d.index d.sub d.elem d.data true) :
      ServerOnly { s.begin t with od := Tbl.set (key d.index d.sub d.elem) (valueOf d.index d.sub d.data) s.od } (taken.accepting d f) := by
    have hdone := State.serverOnly_accepting (s := taken) (f := f) (d := d) hlong hsid
    rw [hf, State.write_plain (s := taken) (q := x.req d.sid) hplain htwin true] at hdone
    exact ServerOnly.trans ⟨_, _, rfl⟩ ((State.serverOnly_longBy _ _ _).trans hdone)
  refine (fun hdone => ⟨fun k hk => ?frame, hdone⟩) (hrun _ ?same)
  case same => exact if_neg (Bool.eq_false_iff.1 hslot)
  case frame =>
    obtain ⟨v, o, hu⟩ := hdone
    rw [hu]
    exact Tbl.find?_set_other _ _ hk

end Sys2Proof.Machine
end

section
/-! Trigger units (R276 to R278): the chain of events that a firing brings about leaves the unit alone, unless it watches the event log and
is not yet used in that chain; with the cases of one update this settles O11. -/

namespace Sys2Proof.Machine

/-! ### What leaves a unit alone -/

/-- From s to t the entries and the record of unit n have not changed. -/
structure UnitSame (n : Nat) (s t : State) : Prop where
  entries : ∀ sub < 256, Tbl.find? (tuk n sub) t.od = Tbl.find? (tuk n sub) s.od
  record : t.trig n = s.trig n

namespace UnitSame

variable {n : Nat} {r s t : State}

theorem refl (n : Nat) (s : State) : UnitSame n s s := ⟨fun _ _ => rfl, rfl⟩

theorem trans (h : UnitSame n r s) (k : UnitSame n s t) : UnitSame n r t :=
  ⟨fun sub hsub => (k.entries sub hsub).trans (h.entries sub hsub), k.record.trans h.record⟩

theorem ite {c : Prop} [Decidable c] {u : State} (h : UnitSame n s t) (k : UnitSame n s u) : UnitSame n s (if c then t else u) := by
  split
  · exact h
  · exact k

theorem wr {k : Nat} (hk : ∀ sub < 256, tuk n sub ≠ k) (v : Int) (s : State) : UnitSame n s (s.wr k v) :=
  ⟨fun sub hsub => Tbl.find?_set_other v s.od (hk sub hsub), rfl⟩

theorem setTrig {u : Nat} (hu : n ≠ u) (x : TrigRec) (s : State) : UnitSame n s (s.setTrig u x) :=
  ⟨fun _ _ => rfl, Tbl.get_set_other _ _ _ hu⟩

theorem each {α : Type} {l : List α} {f : α → State → State} (hf : ∀ a ∈ l, ∀ t, UnitSame n s t → UnitSame n t (f a t)) :
    UnitSame n s (s.each l f) := by
  have hfold : ∀ (r : List α) (t : State), (∀ a ∈ r, a ∈ l) → UnitSame n s t → UnitSame n s (r.foldl (fun s a => f a s) t) := by
    intro r
    induction r with
    | nil => exact fun t _ ht => ht
    | cons a r ih =>
      intro t hr ht
      exact ih _ (fun b hb => hr b (List.mem_cons_of_mem a hb)) (ht.trans (hf a (hr a List.mem_cons_self) t ht))
  exact hfold l s (fun _ h => h) (refl n s)

theorem rd (h : UnitSame n s t) {sub : Nat} (hsub : sub < 256) : t.rd (tuk n sub) = s.rd (tuk n sub) :=
  State.rd_congr (by simp only [tuk, key]; omega) (h.entries sub hsub)

theorem set0 (h : UnitSame n s t) {sub : Nat} (hsub : sub < 256) : t.set0 (tuk n sub) = s.set0 (tuk n sub) := by
  rw [State.set0, h.entries sub hsub, State.set0]

end UnitSame

theorem tuk_ne_tuk {n u sub sub' : Nat} (hnu : n ≠ u) (hsub : sub < 256) (hsub' : sub' < 256) : tuk n sub ≠ tuk u sub' := by
  simp only [tuk, key]
  omega

/-- The objects 0x7010 to 0x701F of the units are one zone of the dictionary. -/
theorem zone_tuk {n sub : Nat} (hn : n < 16) (hsub : sub < 256) : zone (tuk n sub) = 70 :=
  zone_between (lo := key 0x7010 0) (hi := key 0x701F 0xFF) (by decide) (by decide) (by simp only [tuk, key]; omega)
    (by simp only [tuk, key]; omega)

section
variable {n : Nat} (hn : n < 16)
include hn

theorem UnitSame.putEvent (code inst : Nat) (data : List Byte) (s : State) : UnitSame n s (s.putEvent code inst data) := by
  have hkept := State.putEvent_kept (code := code) (inst := inst) (data := data) (Sub.refl _) (Kept.refl _ s)
  exact ⟨fun sub hsub => hkept.find?_eq (zone_tuk hn hsub) (by decide), by rw [State.trig, hkept.acqSame rfl, State.trig]⟩

theorem tuk_ne_bfk {sub k sub' : Nat} (hsub : sub < 256) (hsub' : sub' < 256) : tuk n sub ≠ bfk k sub' := by
  simp only [tuk, bfk, key]
  omega

theorem UnitSame.showCapture (k : Nat) (s : State) : UnitSame n s (s.showCapture k) :=
  have hne {sub' : Nat} (h : sub' < 256) : ∀ sub < 256, tuk n sub ≠ bfk k sub' := fun _ hsub => tuk_ne_bfk hn hsub h
  (((UnitSame.wr (hne (by omega)) _ s).trans (.wr (hne (by omega)) _ _)).trans (.wr (hne (by omega)) _ _)).trans (.wr (hne (by omega)) _ _)

theorem tuk_ne_aqk {sub sub' : Nat} (hsub' : sub' < 256) : tuk n sub ≠ aqk sub' := by
  simp only [tuk, aqk, key]
  omega

theorem UnitSame.captureFire (slot unit : Nat) (tm : Time) (s : State) : UnitSame n s (s.captureFire slot unit tm).1 := by
  have hcount {sub' : Nat} (h : sub' < 256) (s : State) : UnitSame n s (s.inc (aqk sub')) := .wr (fun _ _ => tuk_ne_aqk hn h) _ s
  have hbuf (k : Nat) (x : AcqBuf) (s : State) : UnitSame n s (s.setAcqBuf k x) := ⟨fun _ _ => rfl, rfl⟩
  unfold State.captureFire
  lift_lets
  intro post
  split
  · lift_lets
    intros
    split
    · exact .refl n s
    · rename_i counted _
      have hcounted : UnitSame n s counted := .ite (.refl n s) (hcount (by omega) s)
      exact (hcounted.trans (hbuf _ _ _)).trans (.showCapture hn _ _)
  · split
    · exact .refl n s
    · split
      · exact ((hbuf _ _ s).trans (.wr (fun _ hsub => tuk_ne_bfk hn hsub (by omega)) _ _)).trans (.showCapture hn _ _)
      · exact hcount (by omega) s

/-- The unit has its place in the chain already, or it does not watch the event log. -/
abbrev Spared (n : Nat) (used : List Nat) (s : State) : Prop := n ∈ used ∨ s.set0 (tuk n 2) ≠ 0xB

omit hn in
theorem Spared.same {used : List Nat} {s t : State} (h : Spared n used s) (hst : UnitSame n s t) : Spared n used t :=
  h.imp_right (fun h2 => by rwa [hst.set0 (by omega)])

omit hn in
theorem UnitSame.rackMsg (kind : String) (dst : Nat) (l : List Int) (s : State) : UnitSame n s (s.rackMsg kind dst l) := ⟨fun _ _ => rfl, rfl⟩

section
variable {log : Nat → Nat → List Byte → State → State} {used : List Nat}
  (hlog : ∀ c i l s, Spared n used s → UnitSame n s (log c i l s))
include hlog

/-- A firing of unit u, after its count and its time, leaves unit n alone where the events it brings about do. -/
theorem UnitSame.fireUnit (u : Nat) (tm : Time) {s : State} (hs : Spared n used ((s.inc (tuk u 0xD)).wr (tuk u 0xE) (Time.toNs tm : Nat))) :
    UnitSame n ((s.inc (tuk u 0xD)).wr (tuk u 0xE) (Time.toNs tm : Nat)) (s.fireUnit log u tm) := by
  unfold State.fireUnit
  lift_lets
  intro slot acts counted p logged fired
  have hp : UnitSame n counted p.1 := .captureFire hn slot u tm counted
  have hlogged : UnitSame n counted logged := .ite (hp.trans (hlog _ _ _ _ (hs.same hp))) hp
  have hfired : UnitSame n counted fired := .ite (.ite hlogged (hlogged.trans (.rackMsg _ _ _ logged))) (.refl n counted)
  exact .ite (hfired.trans (hlog _ _ _ _ (hs.same hfired))) hfired

theorem UnitSame.everyUpdate {u : Nat} (hu : n ≠ u) (tm : Time) {s : State} (hs : Spared n used s) : UnitSame n s (s.everyUpdate log u tm) := by
  have hwr {sub : Nat} (hsub : sub < 256) (v : Int) (s : State) : UnitSame n s (s.wr (tuk u sub) v) :=
    .wr (fun _ h => tuk_ne_tuk hu h hsub) v s
  unfold State.everyUpdate
  lift_lets
  intro r q start shown
  have hshown : UnitSame n s shown := (UnitSame.setTrig hu _ s).trans (hwr (by omega) _ _)
  have hcounted (t : State) : UnitSame n t ((t.inc (tuk u 0xD)).wr (tuk u 0xE) (Time.toNs start : Nat)) :=
    (hwr (by omega) _ _).trans (hwr (by omega) _ _)
  have hfired (x : TrigRec) : UnitSame n shown ((shown.setTrig u x).fireUnit log u start) :=
    have hset := UnitSame.setTrig hu x shown
    (hset.trans (hcounted _)).trans (.fireUnit hn hlog u start (hs.same (hshown.trans (hset.trans (hcounted _)))))
  exact .ite (hshown.trans (hfired _)) hshown

end

/-- The events of a chain leave alone a unit that is spared (notes/assumptions/43). -/
theorem UnitSame.logChain (fuel : Nat) {used : List Nat} (code inst : Nat) (data : List Byte) {s : State} (hs : Spared n used s) :
    UnitSame n s (s.logChain fuel used code inst data) := by
  induction fuel generalizing used code inst data s with
  | zero => exact .putEvent hn code inst data s
  | succ fuel ih =>
    have hput := UnitSame.putEvent hn code inst data s
    refine hput.trans (.each (fun u hu t ht => ?_))
    have hst := hs.same (hput.trans ht)
    have hne : n ≠ u := by
      rintro rfl
      have hwatches := (List.mem_filter.1 hu)
      obtain h | h := hs.same hput
      · simp [h] at hwatches
      · simp [State.unitsOn, h] at hwatches
    exact .everyUpdate hn (used := u :: used) (fun c i l s hs => ih c i l hs) hne _
      (hst.imp_left (List.mem_cons_of_mem u))

theorem UnitSame.logEvent (code inst : Nat) (data : List Byte) {s : State} (hs : s.set0 (tuk n 2) ≠ 0xB) :
    UnitSame n s (s.logEvent code inst data) :=
  .logChain hn 16 (used := []) code inst data (.inr hs)

/-! ### A unit that fires -/

/-- A unit that fires is counted once, and keeps the record with which it fires. -/
theorem State.fireUnit_own {log : Nat → Nat → List Byte → State → State} {used : List Nat}
    (hlog : ∀ c i l s, Spared n used s → UnitSame n s (log c i l s)) (tm : Time) {s : State} (hs : Spared n used s) :
    (s.fireUnit log n tm).rdN (tuk n 0xD) = (s.rdN (tuk n 0xD) + 1) % 2 ^ 32 ∧ (s.fireUnit log n tm).trig n = s.trig n := by
  have hne {a b : Nat} (ha : a < 256) (hb : b < 256) (hab : a ≠ b) : tuk n a ≠ tuk n b := by simp only [tuk, key]; omega
  have hspared : Spared n used ((s.inc (tuk n 0xD)).wr (tuk n 0xE) (Time.toNs tm : Nat)) := by
    refine hs.imp_right (fun h => ?_)
    simpa only [State.set0, State.inc, State.wr_od, Tbl.find?_set_other _ _ (hne (a := 2) (b := 0xE) (by omega) (by omega) (by omega)),
      Tbl.find?_set_other _ _ (hne (a := 2) (b := 0xD) (by omega) (by omega) (by omega))] using h
  have hsame := UnitSame.fireUnit hn hlog n tm hspared
  refine ⟨?_, hsame.record⟩
  rw [State.rdN, hsame.rd (by omega), State.rd_wr_ne (hne (by omega) (by omega) (by omega)) (by simp only [tuk, key]; omega),
    ← State.rdN, State.rdN_inc_same]

theorem State.holdoffOver_shown {x : TrigRec} {v : Int} {s : State} (hx : x.lastFire = (s.trig n).lastFire) :
    ((s.setTrig n x).wr (tuk n 0xF) v).holdoffOver n = s.holdoffOver n := by
  have hrd : ((s.setTrig n x).wr (tuk n 0xF) v).rdN (tuk n 0xB) = s.rdN (tuk n 0xB) := by
    rw [State.rdN, State.rd_wr_ne (by simp only [tuk, key]; omega) (by simp only [tuk, key]; omega)]
    rfl
  simp only [State.holdoffOver, State.trig_wr, State.trig_setTrig_same, hx, hrd]
  rfl

/-- An update that every update satisfies fires the unit once its number and the holdoff are met. -/
theorem State.everyUpdate_fires {log : Nat → Nat → List Byte → State → State} {used : List Nat}
    (hlog : ∀ c i l s, Spared n used s → UnitSame n s (log c i l s)) (tm : Time) {s : State} (hs : Spared n used s)
    (hnum : s.rdN (tuk n 8) ≤ (s.trig n).run + 1) (hold : s.holdoffOver n = true) :
    (s.everyUpdate log n tm).rdN (tuk n 0xD) = (s.rdN (tuk n 0xD) + 1) % 2 ^ 32 := by
  unfold State.everyUpdate
  lift_lets
  intro r q start shown
  have hshown : shown.holdoffOver n = s.holdoffOver n := State.holdoffOver_shown hn rfl
  have hhold : shown.holdoffOver n = true := hshown.trans hold
  have hne {a : Nat} (ha : a < 256) (hab : a ≠ 0xF) : tuk n a ≠ tuk n 0xF := by simp only [tuk, key]; omega
  have hspared (x : TrigRec) : Spared n used (shown.setTrig n x) := by
    refine hs.imp_right (fun h => ?_)
    have hfind : Tbl.find? (tuk n 2) shown.od = Tbl.find? (tuk n 2) s.od := Tbl.find?_set_other _ _ (hne (by omega) (by omega))
    simpa only [State.set0, State.setTrig_od, hfind] using h
  have hcount (x : TrigRec) : (shown.setTrig n x).rdN (tuk n 0xD) = s.rdN (tuk n 0xD) := by
    rw [State.rdN, show (shown.setTrig n x).rd (tuk n 0xD) = shown.rd (tuk n 0xD) from rfl,
      State.rd_wr_ne (hne (by omega) (by omega)) (by simp only [tuk, key]; omega)]
    rfl
  intro fired
  rw [if_pos (by simp only [hhold, Bool.and_true, decide_eq_true_eq]; exact hnum), (State.fireUnit_own hn hlog start (hspared _)).1, hcount]

/-! ### One update of a unit -/

/-- The level .05 or .06 of a unit, read unsigned for the types of `raw`. -/
def State.unitLevel (n k : Nat) (raw : Bool) (s : State) : Int := if raw then s.rd (tuk n k) % 2 ^ 32 else s.rd (tuk n k)

/-- Whether an update with value v meets the condition of unit n. -/
def State.unitHolds (n : Nat) (raw : Bool) (v : Option Int) (s : State) : Bool :=
  match v with
  | some x => condHolds (s.rdN (tuk n 4)) (s.unitLevel n 5 raw) (s.unitLevel n 6 raw) (s.rd (tuk n 7)) x (s.trig n)
  | none => false

/-- Whether the episode in which unit n has fired goes on at this update. -/
def State.unitLatched (n : Nat) (raw : Bool) (v : Option Int) (s : State) : Bool :=
  (s.trig n).latched && !condReleased (s.rdN (tuk n 4)) (s.unitLevel n 5 raw) (s.rd (tuk n 7)) (s.unitHolds n raw v) v

/-- Whether unit n fires at this update: the condition for long enough, no episode that has fired, the holdoff over. -/
def State.unitFires (n : Nat) (raw : Bool) (v : Option Int) (s : State) : Bool :=
  s.unitHolds n raw v && decide (s.rdN (tuk n 8) ≤ (if s.unitHolds n raw v then min (s.rdN (tuk n 8)) ((s.trig n).run + 1) else 0))
    && !s.unitLatched n raw v && s.holdoffOver n

/-- What an update leaves: a firing counts and latches but under condition 6; without one the episode goes on or is over. -/
theorem State.unitUpdate_cases (raw : Bool) (v : Option Int) (tm : Time) {s : State} (hs : s.set0 (tuk n 2) ≠ 0xB) :
    (s.unitFires n raw v = true → (s.unitUpdate n raw v tm).rdN (tuk n 0xD) = (s.rdN (tuk n 0xD) + 1) % 2 ^ 32 ∧
      ((s.unitUpdate n raw v tm).trig n).latched = (s.rdN (tuk n 4) != 6)) ∧
    (s.unitFires n raw v = false → (s.unitUpdate n raw v tm).rd (tuk n 0xD) = s.rd (tuk n 0xD) ∧
      ((s.unitUpdate n raw v tm).trig n).latched = s.unitLatched n raw v) := by
  unfold State.unitUpdate
  lift_lets
  intro r c level ok released q run start latched r' shown
  have hok : ok = s.unitHolds n raw v := by cases v <;> rfl
  have hlatched : latched = s.unitLatched n raw v := by
    rw [State.unitLatched, ← hok]
    rfl
  have hne {a : Nat} (ha : a < 256) (hab : a ≠ 0xF) : tuk n a ≠ tuk n 0xF := by simp only [tuk, key]; omega
  have hcount : shown.rd (tuk n 0xD) = s.rd (tuk n 0xD) := by
    rw [State.rd_wr_ne (hne (by omega) (by omega)) (by simp only [tuk, key]; omega)]
    rfl
  have hhold : shown.holdoffOver n = s.holdoffOver n := State.holdoffOver_shown hn rfl
  have hfires : (ok && decide (q ≤ run) && !latched && shown.holdoffOver n) = s.unitFires n raw v := by
    rw [hhold, hlatched, State.unitFires, ← hok]
  have hspared (x : TrigRec) : Spared n [] (shown.setTrig n x) := by
    have hfind : Tbl.find? (tuk n 2) shown.od = Tbl.find? (tuk n 2) s.od := Tbl.find?_set_other _ _ (hne (by omega) (by omega))
    exact .inr (by simpa only [State.set0, State.setTrig_od, hfind] using hs)
  rw [hfires]
  refine ⟨fun h => ?fires, fun h => ?rests⟩
  case fires =>
    obtain ⟨hnum, hrec⟩ := State.fireUnit_own hn (log := State.logEvent) (used := [])
      (fun c i l s hs => UnitSame.logChain hn 16 c i l hs) start
      (hspared { r' with latched := c != 6, lastFire := some shown.now })
    rw [if_pos h, hnum, hrec, State.trig_setTrig_same]
    refine ⟨?_, rfl⟩
    rw [State.rdN, show (shown.setTrig n _).rd (tuk n 0xD) = shown.rd (tuk n 0xD) from rfl, hcount, State.rdN]
  case rests =>
    rw [if_neg (by simp [h])]
    refine ⟨hcount, ?_⟩
    rw [State.trig_wr, State.trig_setTrig_same, ← hlatched]

end

/-! ### The episode of a condition -/

section
variable {n : Nat} {raw : Bool} {v : Option Int} {s : State}

theorem State.unitFires_of_latched (h : s.unitLatched n raw v = true) : s.unitFires n raw v = false := by simp [State.unitFires, h]

theorem State.unitFires_of_not_holds (h : s.unitHolds n raw v = false) : s.unitFires n raw v = false := by simp [State.unitFires, h]

/-- While the condition is neither released (0, 1) nor false (2 to 5), the episode that has fired goes on. -/
theorem State.unitLatched_of_on (hlatched : (s.trig n).latched = true)
    (h0 : s.rdN (tuk n 4) = 0 → ∀ x, v = some x → s.unitLevel n 5 raw - s.rd (tuk n 7) ≤ x)
    (h1 : s.rdN (tuk n 4) = 1 → ∀ x, v = some x → x ≤ s.unitLevel n 5 raw + s.rd (tuk n 7))
    (h2 : 2 ≤ s.rdN (tuk n 4) → s.rdN (tuk n 4) < 6 ∧ s.unitHolds n raw v = true) : s.unitLatched n raw v = true := by
  rw [State.unitLatched, hlatched]
  simp only [Bool.true_and, Bool.not_eq_true']
  generalize s.rdN (tuk n 4) = c at h0 h1 h2 ⊢
  match c with
  | 0 =>
    cases v with
    | none => rfl
    | some x => simpa [condReleased] using h0 rfl x rfl
  | 1 =>
    cases v with
    | none => rfl
    | some x => simpa [condReleased] using h1 rfl x rfl
  | 2 | 3 | 4 | 5 => simp [condReleased, h2]
  | c + 6 => exact absurd (h2 (by omega)).1 (by omega)

/-- A value that releases condition 0 or 1, or for which condition 2 to 5 is false, ends the episode and meets no condition. -/
theorem State.unit_of_off {x : Int} (hh : 0 ≤ s.rd (tuk n 7))
    (h : (s.rdN (tuk n 4) = 0 ∧ x < s.unitLevel n 5 raw - s.rd (tuk n 7)) ∨ (s.rdN (tuk n 4) = 1 ∧ s.unitLevel n 5 raw + s.rd (tuk n 7) < x) ∨
      (s.rdN (tuk n 4) = 2 ∧ (x < s.unitLevel n 5 raw ∨ s.unitLevel n 6 raw < x)) ∨
      (s.rdN (tuk n 4) = 3 ∧ s.unitLevel n 5 raw ≤ x ∧ x ≤ s.unitLevel n 6 raw) ∨
      (s.rdN (tuk n 4) = 4 ∧ x ≠ s.unitLevel n 5 raw) ∨ (s.rdN (tuk n 4) = 5 ∧ x = s.unitLevel n 5 raw)) :
    s.unitHolds n raw (some x) = false ∧ s.unitLatched n raw (some x) = false := by
  rw [State.unitLatched, State.unitHolds]
  obtain ⟨hc, hx⟩ | ⟨hc, hx⟩ | ⟨hc, hx⟩ | ⟨hc, hlo, hhi⟩ | ⟨hc, hx⟩ | ⟨hc, hx⟩ := h
  · have hlow : ¬ s.unitLevel n 5 raw < x := by omega
    simp [hc, condHolds, condReleased, hx, hlow]
  · have hhigh : ¬ x < s.unitLevel n 5 raw := by omega
    simp [hc, condHolds, condReleased, hx, hhigh]
  · have hout : ¬(s.unitLevel n 5 raw ≤ x ∧ x ≤ s.unitLevel n 6 raw) := by omega
    simp only [hc, condHolds, condReleased]
    simp [← Bool.decide_and, hout]
  · have hin : ¬ x < s.unitLevel n 5 raw ∧ ¬ s.unitLevel n 6 raw < x := by omega
    simp [hc, condHolds, condReleased, hin]
  · simp [hc, condHolds, condReleased, hx]
  · simp [hc, condHolds, condReleased, hx]

/-- Under condition 6 each change fires, once the number of updates and the holdoff are met. -/
theorem State.unitFires_of_change {x p : Int} (hc : s.rdN (tuk n 4) = 6) (hprev : (s.trig n).prev = some p) (hx : x ≠ p)
    (hnum : s.rdN (tuk n 8) ≤ (s.trig n).run + 1) (hhold : s.holdoffOver n = true) : s.unitFires n raw (some x) = true := by
  have hholds : s.unitHolds n raw (some x) = true := by simp [State.unitHolds, hc, condHolds, hprev, hx]
  simp [State.unitFires, State.unitLatched, hholds, hc, condReleased, hhold, hnum]

end

/-- Settles O11: an update fires the unit or not, and either way leaves it latched or not by the episode of its condition; the events that the
firing brings about leave the unit alone. -/
theorem triggerFiresOncePerEpisode : Obligations.TriggerFiresOncePerEpisode := by
  unfold Obligations.TriggerFiresOncePerEpisode
  refine ⟨?update, ?logged, ?chained⟩
  case update =>
    rintro n raw v tm s t c l1 h hn htype rfl rfl rfl hh rfl
    obtain ⟨hfires, hrests⟩ := State.unitUpdate_cases hn raw v tm htype
    refine ⟨fun hlatched h0 h1 h2 => ?on, fun hne => ?fired, ?off, ?change⟩
    case on =>
      have hgoes := State.unitLatched_of_on (raw := raw) (v := v) hlatched h0 h1
        (fun hc => ⟨(h2 hc).1, by obtain ⟨-, x, rfl, hx⟩ := h2 hc; exact hx⟩)
      obtain ⟨hcount, hstays⟩ := hrests (State.unitFires_of_latched hgoes)
      exact ⟨hcount, hstays.trans hgoes⟩
    case fired =>
      cases hf : s.unitFires n raw v with
      | false => exact absurd (hrests hf).1 hne
      | true =>
        obtain ⟨hcount, hlatches⟩ := hfires hf
        exact ⟨hcount, fun hc => by simpa [hlatches] using hc⟩
    case off =>
      rintro x rfl hoff
      obtain ⟨hholds, hover⟩ := State.unit_of_off (raw := raw) hh hoff
      obtain ⟨hcount, hends⟩ := hrests (State.unitFires_of_not_holds hholds)
      exact ⟨hcount, hends.trans hover⟩
    case change =>
      rintro x p hc rfl hprev hx hnum hhold
      exact (hfires (State.unitFires_of_change hc hprev hx hnum hhold)).1
  case logged =>
    intro n tm s hn htype hnum hhold
    exact State.everyUpdate_fires hn (used := []) (fun c i l s hs => UnitSame.logChain hn 16 c i l hs) tm (.inr htype) hnum hhold
  case chained =>
    intro n k l tm s hn hnum hhold
    exact State.everyUpdate_fires hn (used := n :: l) (fun c i d s hs => UnitSame.logChain hn k c i d hs) tm (.inl List.mem_cons_self) hnum hhold

end Sys2Proof.Machine
end

section
/-! The load of a compare pair (R182): the half-width of its on-piece, limited, suppressed or taken as it is, which settles O13. -/

namespace Sys2Proof.Machine

/-- The shortest piece of a half: the minimum pulse in double update, half of it, rounded up, in single update. -/
def minPiece (double : Bool) (tmin : Nat) : Int := if double then tmin else ((tmin + 1) / 2 : Nat)

/-- The greatest half-width: half a carrier, less half the refresh width where refresh limiting applies. -/
def maxHalf (f tref : Nat) (limit : Bool) : Int := if limit then (f / 2 : Nat) - ((tref + 1) / 2 : Nat) else (f / 2 : Nat)

/-- The half-width that a load takes for a wanted one, with the carry and whether a piece is suppressed. -/
def shapeHalf (half mu hmax hr : Int) : Int × Int × Bool :=
  let h := clampI hr 0 hmax
  if 0 < h && h < mu then ((0 : Int), clampI hr (-mu) mu, true)
  else if half - mu < h && h < half then (half, clampI (hr - half) (-mu) mu, true)
  else (h, 0, false)

theorem loadPair_eq (f tmin tref : Nat) (double limit : Bool) (d carry : Int) :
    loadPair f double tmin tref limit d carry =
      let r := shapeHalf (f / 2 : Nat) (minPiece double tmin) (maxHalf f tref limit) (rne (d * f) 16 + carry)
      ⟨((f / 2 : Nat) - r.1).toNat, ((f / 2 : Nat) + r.1).toNat, r.2.1, r.2.2, limit && maxHalf f tref limit < rne (d * f) 16 + carry⟩ := rfl

theorem clampI_bounds {lo hi : Int} (h : lo ≤ hi) (a : Int) : lo ≤ clampI a lo hi ∧ clampI a lo hi ≤ hi := by
  unfold clampI
  split_ifs <;> omega

theorem clampI_of_mem {a lo hi : Int} (hlo : lo ≤ a) (hhi : a ≤ hi) : clampI a lo hi = a := by
  rw [clampI, if_neg (by omega), if_neg (by omega)]

section
variable {half mu hmax hr : Int}

/-- The three ways of a load: a short on-piece is suppressed, a short off-piece is filled, everything else is taken as clamped. -/
theorem shapeHalf_cases :
    (0 < clampI hr 0 hmax ∧ clampI hr 0 hmax < mu ∧ shapeHalf half mu hmax hr = (0, clampI hr (-mu) mu, true)) ∨
    ((clampI hr 0 hmax ≤ 0 ∨ mu ≤ clampI hr 0 hmax) ∧ half - mu < clampI hr 0 hmax ∧ clampI hr 0 hmax < half ∧
      shapeHalf half mu hmax hr = (half, clampI (hr - half) (-mu) mu, true)) ∨
    ((clampI hr 0 hmax ≤ 0 ∨ mu ≤ clampI hr 0 hmax) ∧ (clampI hr 0 hmax ≤ half - mu ∨ half ≤ clampI hr 0 hmax) ∧
      shapeHalf half mu hmax hr = (clampI hr 0 hmax, 0, false)) := by
  simp only [shapeHalf, Bool.and_eq_true, decide_eq_true_eq]
  split_ifs <;> simp only [and_true] <;> omega

end

/-- Settles O13: the half-width that the load takes lies within the limits, its pieces are none or long enough, and the carry is what a
suppressed piece leaves. -/
theorem loadFormsTheComparePair : Obligations.LoadFormsTheComparePair := by
  unfold Obligations.LoadFormsTheComparePair
  rintro f tmin tref double limit d carry hr h mu p hf htmin hrefmin href rfl rfl hmu rfl
  have hpiece : minPiece double tmin = mu := by
    rw [hmu]
    cases double <;> rfl
  have hmubounds : 0 ≤ mu ∧ mu ≤ tmin ∧ (tmin : Int) ≤ 2 * mu := by
    rw [hmu]
    split <;> omega
  have hmax : (limit = true ∧ maxHalf f tref limit + ((tref + 1) / 2 : Nat) = (f / 2 : Nat)) ∨
      (limit = false ∧ maxHalf f tref limit = (f / 2 : Nat)) := by
    cases limit <;> simp [maxHalf]
  rw [loadPair_eq, hpiece]
  clear hmu hpiece
  generalize rne (d * f) 16 + carry = hr
  generalize maxHalf f tref limit = top at *
  have hclamp := clampI_bounds (lo := 0) (hi := top) (by omega) hr
  have hcarry1 := clampI_bounds (lo := -mu) (hi := mu) (by omega) hr
  have hcarry2 := clampI_bounds (lo := -mu) (hi := mu) (by omega) (hr - (f / 2 : Nat))
  have hexact (h : 0 ≤ hr ∧ hr ≤ top) : clampI hr 0 top = hr := clampI_of_mem h.1 h.2
  have hexact1 (h : -mu ≤ hr ∧ hr ≤ mu) : clampI hr (-mu) mu = hr := clampI_of_mem h.1 h.2
  have hexact2 (h : -mu ≤ hr - (f / 2 : Nat) ∧ hr - (f / 2 : Nat) ≤ mu) : clampI (hr - (f / 2 : Nat)) (-mu) mu = hr - (f / 2 : Nat) :=
    clampI_of_mem h.1 h.2
  obtain ⟨h1, h2, hshape⟩ | ⟨h1, h2, h3, hshape⟩ | ⟨h1, h2, hshape⟩ :=
    shapeHalf_cases (half := (f / 2 : Nat)) (mu := mu) (hmax := top) (hr := hr)
  all_goals
    rw [hshape]
    obtain ⟨rfl, hmax⟩ | ⟨rfl, hmax⟩ := hmax
    all_goals
      simp only [Bool.true_eq_false, Bool.false_eq_true, false_imp_iff, true_imp_iff, and_true, true_and]
      omega

end Sys2Proof.Machine
end

section
/-! A completed item (R61): what it counted of raw reads and full-range saturations does not stay in the cycle's scratch, which refutes O14. -/

namespace Sys2Proof.Machine

-- The kernel's evaluations run one after the other: side by side they would need too much memory.
set_option Elab.async false

/-- A cycle of two items whose first one runs on lane 2 and has counted a full-range saturation. -/
def saturatedCycle : Cycle := { t0 := 0, items := 2, ready := true, work := { fullSat := 1 } }

/-- Batch 3 in that cycle, with an image of no content loaded. -/
def saturatedItem : State :=
  ((State.reset.wrBlob (key (0x8000 + 3) 1) [0]).setBatch 3 { cyc := some saturatedCycle }).setLane 2 { state := .home, item := some 3 }

/-- The working values of that item as R61 has it complete. -/
def saturatedWork : Work :=
  ((saturatedItem.begin 0).modLane 2 (fun x => { x with item := none })).runItem 3 saturatedCycle.next (readRecipe [0]) saturatedCycle

theorem saturatedWork_fullSat : saturatedWork.fullSat = 1 ∧ saturatedWork.nan = none := by decide +kernel

/-- The next item starts with the count cleared. -/
theorem saturatedItem_completes :
    ((((saturatedItem.begin 0).itemComplete 2).dispatch.batch 3).cyc.map (fun c => c.work.fullSat)) = some 0 := by decide +kernel

/-- Refutes O14: the working values that the completed item leaves to the next one have its full-range saturations taken out, so they are not
the item's own. -/
theorem not_cycleStagesComplete : ¬ Obligations.CycleStagesComplete := by
  unfold Obligations.CycleStagesComplete
  rintro ⟨-, -, hitem, -, -⟩
  obtain ⟨u, hu, hnext⟩ := hitem 0 2 saturatedItem 3 saturatedCycle (readRecipe [0]) saturatedWork (by decide +kernel) (by decide +kernel)
    (by decide +kernel) rfl saturatedWork_fullSat.2
  rw [if_pos (by decide)] at hnext
  obtain ⟨c, hnextCyc, -, hwork, -⟩ := hnext
  have hc : (u.batch 3).cyc = some c := hnextCyc
  have hcleared := saturatedItem_completes
  rw [show ((saturatedItem.begin 0).itemComplete 2).dispatch = u from Host.Outcome.next.inj hu, hc, Option.map_some, hwork,
    saturatedWork_fullSat.1] at hcleared
  exact absurd hcleared (by decide)

end Sys2Proof.Machine
end

section
/-! The machine's step, its state after reset and the invariant there. -/

namespace Sys2Proof.Machine

-- The kernel's evaluations run one after the other: side by side they would need too much memory.
set_option Elab.async false

/-- Settles O1: the step matches on the waiting commands. -/
theorem stepRunsFront : Obligations.StepRunsFront := by
  unfold Obligations.StepRunsFront
  refine ⟨fun c s rest hfront => ?front, fun s hempty => ?idle⟩
  case front => simp only [step, hfront]
  case idle => simp only [step, hempty]

/-- Settles O2: each figure of the first power-on, read from the state after reset. -/
theorem resetState : Obligations.ResetState := by
  unfold Obligations.ResetState
  refine ⟨rfl, ?_, ?_, ?_, ?_, ?_, ?_, ?_, ?_, ?_, ?_, ?_, ?_⟩
  all_goals decide +kernel

/-- Settles O3: an empty queue and a dictionary of two ordered entries. -/
theorem resetMeetsInvariant : Obligations.ResetMeetsInvariant := by
  unfold Obligations.ResetMeetsInvariant
  decide +kernel

end Sys2Proof.Machine
end

section
/-! Rules for the operations on a batch: which entries of the batch objects they leave, and in which state they leave the batch. -/

namespace Sys2Proof.Machine

section
variable {j k : Nat} (hjk : j ≠ k) (s : State)
include hjk

theorem State.find?_wr_ne (v : Int) : Tbl.find? j (s.wr k v).od = Tbl.find? j s.od := Tbl.find?_set_other v s.od hjk
theorem State.find?_setBit_ne (i : Nat) (v : Bool) : Tbl.find? j (s.setBit k i v).od = Tbl.find? j s.od := State.find?_wr_ne hjk s _
theorem State.find?_inc_ne (n : Nat) : Tbl.find? j (s.inc k n).od = Tbl.find? j s.od := State.find?_wr_ne hjk s _

end

/-- The entry belongs to the objects of the batches. -/
abbrev BatchKey (k : Nat) : Prop := key 0x4000 0 ≤ k ∧ k < key 0x4400 0

theorem batchKey_bk {o a b : Nat} (ho : o < 0x20) (ha : a < 256) (hb : b < 32) : BatchKey (bk o a b) := by
  simp only [BatchKey, bk, key]
  omega

theorem ownDefault_bk {o a b : Nat} (ho : o < 0x20) (ha : a < 256) (h6 : o ≠ 6) (he : o ≠ 0xE) : OwnDefault (bk o a b) := by
  simp only [OwnDefault, bk, key]
  omega

/-- Entry k is none of the entries at the listed offsets and subindices of batch b. -/
abbrev OffList (l : List (Nat × Nat)) (b k : Nat) : Prop := ∀ e ∈ l, k ≠ bk e.1 e.2 b

/-- Two entries of the batch objects differ where their offset, subindex or batch does. -/
theorem bk_ne {o o' a a' b b' : Nat} (ho : o < 0x20) (ho' : o' < 0x20) (ha : a < 256) (ha' : a' < 256)
    (h : o ≠ o' ∨ a ≠ a' ∨ b ≠ b') : bk o a b ≠ bk o' a' b' := by
  simp only [bk, key]
  omega

/-- Offsets and subindices of the batch objects are within their bounds. -/
abbrev InObject (e : Nat × Nat) : Prop := e.1 < 0x20 ∧ e.2 < 256

theorem offList_of_not_mem {l : List (Nat × Nat)} (hl : ∀ e ∈ l, InObject e) {o a : Nat} (ho : o < 0x20) (ha : a < 256)
    (h : (o, a) ∉ l) (b b' : Nat) : OffList l b (bk o a b') := by
  intro e he
  apply bk_ne ho (hl e he).1 ha (hl e he).2
  by_contra hall
  push Not at hall
  exact h (by rw [hall.1, hall.2.1]; exact he)

theorem offList_of_ne {l : List (Nat × Nat)} (hl : ∀ e ∈ l, InObject e) {o a b b' : Nat} (ho : o < 0x20) (ha : a < 256)
    (h : b' ≠ b) : OffList l b (bk o a b') :=
  fun e he => bk_ne ho (hl e he).1 ha (hl e he).2 (.inr (.inr h))

theorem mem_members_lt {b c : Nat} {s : State} (h : c ∈ s.members b) : c < 256 := by
  rw [State.members, List.mem_filter, List.mem_range] at h
  exact h.1

theorem spGen_lt {b i g : Nat} {s : State} (h : s.spGen b i = some g) : g < 64 := by
  unfold State.spGen at h
  dsimp only at h
  split at h
  · cases h; assumption
  · cases h

/-! ### What leaves the entries of the batches -/

theorem State.find?_each {k : Nat} {α : Type} {l : List α} {f : α → State → State}
    (h : ∀ a ∈ l, ∀ s, Tbl.find? k (f a s).od = Tbl.find? k s.od) (s : State) : Tbl.find? k (s.each l f).od = Tbl.find? k s.od :=
  State.each_eq (fun s => Tbl.find? k s.od) h s

theorem State.find?_withGen {k : Nat} (b i : Nat) {f : Nat → State → State}
    (h : ∀ g s, Tbl.find? k (f g s).od = Tbl.find? k s.od) (s : State) : Tbl.find? k (s.withGen b i f).od = Tbl.find? k s.od := by
  unfold State.withGen
  split
  · exact h _ _
  · rfl

section
variable {k : Nat} (hk : BatchKey k)
include hk

theorem BatchKey.ne_channel {c : Nat} (hc : c < 256) (a : Nat) (ha : a < 256) : k ≠ key (0x3000 + c) a := by
  simp only [BatchKey, key] at hk ⊢
  omega

theorem BatchKey.ne_gen (g : Nat) (a : Nat) : k ≠ key (0x6600 + g) a := by
  simp only [BatchKey, key] at hk ⊢
  omega

theorem State.find?_batch_logEvent (code inst : Nat) (data : List Byte) (s : State) :
    Tbl.find? k (s.logEvent code inst data).od = Tbl.find? k s.od :=
  State.find?_logEvent (by simp only [BatchKey, key] at hk ⊢; omega) code inst data s

theorem State.find?_batch_chanOff {c : Nat} (hc : c < 256) (s : State) : Tbl.find? k (s.chanOff c).od = Tbl.find? k s.od := by
  unfold State.chanOff
  exact (State.find?_setBit_ne (hk.ne_channel hc _ (by omega)) _ _ _).trans
    ((State.find?_wr_ne (hk.ne_channel hc _ (by omega)) _ _).trans rfl)

theorem State.find?_batch_endTest {c : Nat} (hc : c < 256) (s : State) : Tbl.find? k (s.endTest c).od = Tbl.find? k s.od := by
  unfold State.endTest
  split
  · exact State.find?_batch_chanOff hk hc s
  · rfl

theorem State.find?_batch_pulseBlock (b : Nat) (s : State) : Tbl.find? k (s.pulseBlock b).od = Tbl.find? k s.od :=
  State.find?_each (fun _ hc s => State.find?_batch_chanOff hk (mem_members_lt hc) s) _

theorem State.find?_batch_useTarget (g : Nat) (v : F32) (s : State) : Tbl.find? k (s.useTarget g v).od = Tbl.find? k s.od :=
  State.find?_inc_ne (hk.ne_gen g _) _ _

theorem State.find?_batch_freeTarget (g : Nat) (s : State) : Tbl.find? k (s.freeTarget g).od = Tbl.find? k s.od := by
  unfold State.freeTarget
  dsimp only
  split
  · rfl
  · exact State.find?_batch_useTarget hk g _ _


/-- Offsets and subindices of the entries that a change of state writes. -/
def stateEntries : List (Nat × Nat) := [(1, 1), (1, 2), (1, 4), (9, 0xC), (0xB, 0x11), (0xB, 0x15), (0xC, 0xF), (0x15, 5)]

/-- Offsets and subindices of the entries that a block writes. -/
def blockEntries : List (Nat × Nat) := stateEntries ++ [(0xD, 1), (0xD, 2), (0xD, 3), (0xD, 4)]

end

/-- What either branch leaves, the choice leaves. -/
theorem State.same_ite {β : Type} (g : State → β) {c : Prop} [Decidable c] {s t u : State} (ht : g t = g s) (hu : g u = g s) :
    g (if c then t else u) = g s := by
  split
  · exact ht
  · exact hu

section
variable {b k : Nat} (ho : OffList stateEntries b k)
include ho

theorem State.find?_batch_leaveStarter (s : State) : Tbl.find? k (s.leaveStarter b).od = Tbl.find? k s.od :=
  (State.find?_wr_ne (ho (0xB, 0x15) (by decide)) _ _).trans (State.find?_wr_ne (ho (0xB, 0x11) (by decide)) _ _)

variable (hk : BatchKey k)
include hk

theorem State.find?_batch_leaveState (old new : BatchState) (s : State) : Tbl.find? k (s.leaveState b old new).od = Tbl.find? k s.od := by
  have hfree (i : Nat) (s : State) : Tbl.find? k (s.withGen b i State.freeTarget).od = Tbl.find? k s.od :=
    State.find?_withGen b i (State.find?_batch_freeTarget hk) s
  have hbit (i : Nat) (v : Bool) (s : State) : Tbl.find? k (s.setBit (bk 0xC 0xF b) i v).od = Tbl.find? k s.od :=
    State.find?_setBit_ne (ho (0xC, 0xF) (by decide)) s i v
  have hbs (i : Nat) (v : Bool) (s : State) : Tbl.find? k (s.setBit (bk 0xB 0x11 b) i v).od = Tbl.find? k s.od :=
    State.find?_setBit_ne (ho (0xB, 0x11) (by decide)) s i v
  let g (s : State) := Tbl.find? k s.od
  unfold State.leaveState
  lift_lets
  intro s1 s2 s3 held s4 s5 s6 s7 s8 s9
  have h1 : g s1 = g s := State.same_ite g (State.find?_each (fun _ hc s => State.find?_batch_endTest hk (mem_members_lt hc) s) s) rfl
  have h2 : g s2 = g s1 := State.same_ite g (State.find?_batch_leaveStarter ho s1) rfl
  have h3 : g s3 = g s2 := State.same_ite g ((hfree 1 _).trans (hfree 0 _)) rfl
  have h5 : g s5 = g s3 := (hbs 7 _ _).trans ((hbs 6 _ _).trans rfl)
  have h6 : g s6 = g s3 := by
    refine State.same_ite g ((State.find?_withGen b 3 (fun n s => ?_) s5).trans h5) rfl
    exact (State.find?_batch_freeTarget hk n _).trans (State.same_ite g (State.find?_setBit_ne (hk.ne_gen n _) _ _ _) rfl)
  have h7 : g s7 = g s6 := State.find?_each (fun i _ s => hbit i false s) s6
  have h8 : g s8 = g s6 := State.same_ite g ((hfree 3 _).trans ((hfree 2 _).trans h7)) rfl
  have h9 : g s9 = g s8 := State.same_ite g rfl (State.find?_wr_ne (ho (0x15, 5) (by decide)) s8 _)
  have h10 := State.same_ite g (c := (old == .currentLimited) = true) (State.find?_setBit_ne (ho (9, 0xC) (by decide)) s9 2 false) rfl
  exact h10.trans (h9.trans (h8.trans (h6.trans (h3.trans (h2.trans h1)))))

/-- A change of state of batch b leaves every entry of the batches but its own. -/
theorem State.find?_batch_setState (new : BatchState) (cause : Nat) (s : State) :
    Tbl.find? k (s.setState b new cause).od = Tbl.find? k s.od := by
  let g (s : State) := Tbl.find? k s.od
  unfold State.setState
  lift_lets
  intro old s1 s2 s3
  have h1 : g s1 = g s := State.find?_batch_leaveState ho hk _ _ s
  have h2 : g s2 = g s1 := (State.find?_inc_ne (ho (1, 4) (by decide)) _ _).trans
    ((State.find?_wr_ne (ho (1, 1) (by decide)) _ _).trans (State.find?_wr_ne (ho (1, 2) (by decide)) _ _))
  have h3 : g s3 = g s2 := rfl
  have h4 : g (s3.logEvent 0x0100 b (d8 old.code ++ d8 new.code ++ d8 cause)) = g s3 := State.find?_batch_logEvent hk _ _ _ s3
  exact State.same_ite g rfl (h4.trans (h3.trans (h2.trans h1)))

end

theorem State.od_amendEvent (hit : Event → Bool) (f : List Byte → List Byte) (s : State) : (s.amendEvent hit f).od = s.od := rfl

theorem State.find?_joinBlock {b k : Nat} (h : k ≠ bk 0xD 2 b) (src : Nat) (detail : List Byte) (s : State) :
    Tbl.find? k (s.joinBlock b src detail).od = Tbl.find? k s.od := by
  rw [State.joinBlock, State.od_amendEvent, State.find?_wr_ne h]

section
variable {b k : Nat} (ho : OffList blockEntries b k) (hk : BatchKey k)
include ho hk

/-- A block of batch b leaves every entry of the batches but its own. -/
theorem State.find?_batch_blockBatch (src : Nat) (detail : List Byte) (s : State) :
    Tbl.find? k (s.blockBatch b src detail).od = Tbl.find? k s.od := by
  have hs : OffList stateEntries b k := fun e he => ho e (List.mem_append_left _ he)
  have hd (a : Nat) (ha : (0xD, a) ∈ blockEntries) (v : Int) (s : State) : Tbl.find? k (s.wr (bk 0xD a b) v).od = Tbl.find? k s.od :=
    State.find?_wr_ne (ho (0xD, a) ha) s v
  let g (s : State) := Tbl.find? k s.od
  unfold State.blockBatch
  lift_lets
  intro st fresh s1 named s2 s3 s4
  have h1 : g s1 = g s := hd 1 (by decide) _ s
  have h2 : g s2 = g s1 := State.find?_batch_pulseBlock hk b s1
  have h3 : g s3 = g s2 := (State.find?_inc_ne (ho (0xD, 4) (by decide)) _ _).trans ((hd 3 (by decide) _ _).trans (hd 2 (by decide) _ _))
  have h4 : g s4 = g s3 := rfl
  have h5 : g (s4.logEvent 0x0101 b (d32 src ++ named)) = g s4 := State.find?_batch_logEvent hk _ _ _ s4
  have h6 : g ((s4.logEvent 0x0101 b (d32 src ++ named)).setState b .blocked 3) = _ := State.find?_batch_setState hs hk _ _ _
  refine State.same_ite g ?inOff (State.same_ite g rfl (State.same_ite g ?again (h6.trans (h5.trans (h4.trans (h3.trans (h2.trans h1)))))))
  case inOff =>
    exact (State.find?_batch_pulseBlock hk b _).trans
      (State.find?_each (fun _ hc s => State.find?_batch_endTest hk (mem_members_lt hc) s) s)
  case again => exact State.same_ite g ((State.find?_joinBlock (ho (0xD, 2) (by decide)) src detail s1).trans h1) h1

end

/-! ### The state of the batch -/

theorem State.bstate_congr {b : Nat} {s t : State} (h : Tbl.find? (bk 1 1 b) t.od = Tbl.find? (bk 1 1 b) s.od) :
    t.bstate b = s.bstate b := by
  rw [State.bstate, State.rdN, State.rd_congr (ownDefault_bk (by omega) (by omega) (by omega) (by omega)) h, State.bstate, State.rdN]

/-- A write of another entry leaves whether the module commands its batches. -/
theorem State.commands_wr {k : Nat} (h1 : key 0x2510 1 ≠ k) (h7 : key 0x2510 7 ≠ k) (v : Int) (s : State) : (s.wr k v).commands = s.commands := by
  rw [State.commands, State.rdN, State.rdN, State.rd_wr_ne h1 (by decide), State.rd_wr_ne h7 (by decide), State.commands, State.rdN, State.rdN]

theorem State.commands_wr_batch {k : Nat} (hk : BatchKey k) (v : Int) (s : State) : (s.wr k v).commands = s.commands := by
  apply State.commands_wr <;> (simp only [BatchKey, key] at hk ⊢; omega)

theorem State.commands_logEvent (code inst : Nat) (data : List Byte) (s : State) : (s.logEvent code inst data).commands = s.commands := by
  rw [State.commands, State.rdN, State.rdN, State.rd_logEvent (by decide) (by decide), State.rd_logEvent (by decide) (by decide), State.commands,
    State.rdN, State.rdN]

/-- A block while the batch is neither Off nor in Fault, of a module that commands its batches or from source bit 12, leaves it Blocked. -/
theorem State.bstate_blockBatch {b src : Nat} (hb : b < 32) (detail : List Byte) {s : State} (hoff : s.bstate b ≠ .off)
    (hfault : s.bstate b ≠ .fault) (hcmd : s.commands = true) : (s.blockBatch b src detail).bstate b = .blocked := by
  have hk : BatchKey (bk 1 1 b) := batchKey_bk (by omega) (by omega) hb
  have hd (a : Nat) (ha : a < 256) (v : Int) (s : State) : (s.wr (bk 0xD a b) v).bstate b = s.bstate b :=
    State.bstate_congr (State.find?_wr_ne (bk_ne (by omega) (by omega) (by omega) ha (.inl (by omega))) s v)
  unfold State.blockBatch
  lift_lets
  intro st fresh s1 named s2 s3 s4
  have h1 : s1.bstate b = s.bstate b := hd 1 (by omega) _ s
  rw [if_neg (by simpa [st] using hoff), if_neg (by simp [st, hfault, hcmd])]
  by_cases hst : st = .blocked
  · rw [if_pos (by simp [hst])]
    refine (State.same_ite (fun s => s.bstate b) ?_ rfl).trans (h1.trans hst)
    exact State.bstate_congr (State.find?_joinBlock (bk_ne (by omega) (by omega) (by omega) (by omega) (.inl (by omega))) src detail s1)
  · rw [if_neg (by simpa [st, hfault] using hst)]
    have h2 : s2.bstate b = s1.bstate b := State.bstate_congr (State.find?_batch_pulseBlock hk b s1)
    have h3 : s3.bstate b = s2.bstate b :=
      (State.bstate_congr (State.find?_inc_ne (bk_ne (by omega) (by omega) (by omega) (by omega) (.inl (by omega))) _ _)).trans
        ((hd 3 (by omega) _ _).trans (hd 2 (by omega) _ _))
    have h4 : s4.bstate b = s3.bstate b := State.bstate_congr rfl
    have h5 : (s4.logEvent 0x0101 b (d32 src ++ named)).bstate b = s4.bstate b :=
      State.bstate_congr (State.find?_batch_logEvent hk _ _ _ s4)
    exact State.bstate_setState hb 3 (by rw [h5, h4, h3, h2, h1]; exact hst)

/-! ### The record of a batch whose state changes -/

/-- Of a batch's record, r' differs from r in nothing but what a change of state writes. -/
def BatchRec.StateOnly (r r' : BatchRec) : Prop :=
  r' = { r with since := r'.since, connSince := r'.connSince, bsRunning := r'.bsRunning, impOnly := r'.impOnly }

namespace BatchRec.StateOnly

variable {r r' r'' : BatchRec}

theorem refl (r : BatchRec) : r.StateOnly r := rfl

theorem trans (h : r.StateOnly r') (k : r'.StateOnly r'') : r.StateOnly r'' := by
  unfold StateOnly at *
  rw [k, h]

theorem eq (h : r.StateOnly r') :
    r' = { r with since := r'.since, connSince := r'.connSince, bsRunning := r'.bsRunning, impOnly := r'.impOnly } := h

theorem outOn (h : r.StateOnly r') : r'.outOn = r.outOn := (congrArg BatchRec.outOn h.eq).trans rfl

theorem entered (r : BatchRec) (now conn : Time) : r.StateOnly { r with since := now, connSince := conn } := rfl

end BatchRec.StateOnly

theorem State.stateOnly_of_eq {s t : State} (h : t.batches = s.batches) (b : Nat) : BatchRec.StateOnly (s.batch b) (t.batch b) := by
  rw [State.batch, State.batch, h]
  exact .refl _

theorem State.stateOnly_modBatch {f : BatchRec → BatchRec} (hf : ∀ r, BatchRec.StateOnly r (f r)) (b' b : Nat) (s : State) :
    BatchRec.StateOnly (s.batch b) ((s.modBatch b' f).batch b) := by
  by_cases h : b = b'
  · subst h
    rw [State.modBatch, State.batch_setBatch_same]
    exact hf _
  · rw [State.modBatch, State.batch_setBatch_other _ _ _ h]
    exact .refl _

theorem State.stateOnly_ite {c : Prop} [Decidable c] {s t u : State} {b : Nat} (ht : BatchRec.StateOnly (s.batch b) (t.batch b))
    (hu : BatchRec.StateOnly (s.batch b) (u.batch b)) : BatchRec.StateOnly (s.batch b) ((if c then t else u).batch b) := by
  split
  · exact ht
  · exact hu

theorem State.withGen_batches (b i : Nat) {f : Nat → State → State} (h : ∀ g s, (f g s).batches = s.batches) (s : State) :
    (s.withGen b i f).batches = s.batches := by
  unfold State.withGen
  split
  · exact h _ _
  · rfl

@[simp] theorem State.freeTarget_batches (g : Nat) (s : State) : (s.freeTarget g).batches = s.batches := State.same_ite State.batches rfl rfl

@[simp] theorem State.endTest_batches (c : Nat) (s : State) : (s.endTest c).batches = s.batches := State.same_ite State.batches rfl rfl

theorem State.each_batches {α : Type} {l : List α} {f : α → State → State} (h : ∀ a s, (f a s).batches = s.batches) (s : State) :
    (s.each l f).batches = s.batches := State.each_eq State.batches (fun a _ s => h a s) s

theorem State.stateOnly_leaveState (b b' : Nat) (old new : BatchState) (s : State) :
    BatchRec.StateOnly (s.batch b) ((s.leaveState b' old new).batch b) := by
  have hfree (i : Nat) (s : State) : (s.withGen b' i State.freeTarget).batches = s.batches :=
    State.withGen_batches b' i State.freeTarget_batches s
  unfold State.leaveState
  lift_lets
  intro s1 s2 s3 held s4 s5 s6 s7 s8 s9
  have h1 : s1.batches = s.batches := State.same_ite State.batches (State.each_batches (fun c s => s.endTest_batches c) s) rfl
  have h2 : s2.batches = s1.batches := State.same_ite State.batches rfl rfl
  have h3 : s3.batches = s2.batches := State.same_ite State.batches ((hfree 1 _).trans (hfree 0 _)) rfl
  have h4 : BatchRec.StateOnly (s3.batch b) (s4.batch b) :=
    State.stateOnly_modBatch (f := fun r => { r with bsRunning := false }) (fun _ => rfl) b' b s3
  have h6 : BatchRec.StateOnly (s3.batch b) (s6.batch b) := by
    refine State.stateOnly_ite (h4.trans (State.stateOnly_of_eq (s := s4) (State.withGen_batches b' 3 (fun g s => ?_) s5) b)) (.refl _)
    exact (State.freeTarget_batches g _).trans (State.same_ite State.batches rfl rfl)
  have h7 : s7.batches = s6.batches := State.each_batches (f := fun i => State.setBit (bk 0xC 0xF b') i false) (fun _ _ => rfl) s6
  have h8 : s8.batches = s6.batches := State.same_ite State.batches ((hfree 3 _).trans ((hfree 2 _).trans h7)) rfl
  have h9 : BatchRec.StateOnly (s8.batch b) (s9.batch b) :=
    State.stateOnly_ite (.refl _) (State.stateOnly_modBatch (f := fun r => { r with impOnly := false }) (fun _ => rfl) b' b (s8.wr (bk 0x15 5 b') 0))
  have h10 : BatchRec.StateOnly (s9.batch b) ((if (old == .currentLimited) = true then s9.setBit (bk 9 0xC b') 2 false else s9).batch b) :=
    State.stateOnly_ite (.refl _) (.refl _)
  have h0 : BatchRec.StateOnly (s.batch b) (s3.batch b) := State.stateOnly_of_eq (h3.trans (h2.trans h1)) b
  exact h0.trans (h6.trans ((State.stateOnly_of_eq h8 b).trans (h9.trans h10)))

theorem State.stateOnly_setState (b b' : Nat) (new : BatchState) (cause : Nat) (s : State) :
    BatchRec.StateOnly (s.batch b) ((s.setState b' new cause).batch b) := by
  unfold State.setState
  lift_lets
  intro old s1 s2 s3
  have h1 : BatchRec.StateOnly (s.batch b) (s1.batch b) := State.stateOnly_leaveState b b' old new s
  have h3 : BatchRec.StateOnly (s2.batch b) (s3.batch b) :=
    State.stateOnly_modBatch (fun r => BatchRec.StateOnly.entered r _ _) b' b s2
  have h2 : s2.batches = s1.batches := rfl
  have h4 : (s3.logEvent 0x0100 b' (d8 old.code ++ d8 new.code ++ d8 cause)).batches = s3.batches := State.logEvent_batches _ _ _ s3
  exact State.stateOnly_ite (.refl _) (h1.trans ((State.stateOnly_of_eq h2 b).trans (h3.trans (State.stateOnly_of_eq h4 b))))

theorem State.outOn_setState (b b' : Nat) (new : BatchState) (cause : Nat) (s : State) :
    ((s.setState b' new cause).batch b).outOn = (s.batch b).outOn := (State.stateOnly_setState b b' new cause s).outOn

end Sys2Proof.Machine
end

section
/-! Loop supervision (R84, R86): the tick of a following-error supervisor on slots of both kinds, and the two ends of an open-loop ride. With
that O15 is settled. -/

namespace Sys2Proof.Machine

/-! ### The tick of the following-error supervisor (R84) -/

section
variable (k b src b' : Nat) (c : Prop) [Decidable c] (s : State)

/-- The entries that a tick shows an alarm at, and the reaction it demands, leave the records of the slots. -/
theorem State.fixed_alarm : ((if c then (s.inc k).demand b src else s).syncAlarm b').fixed = s.fixed :=
  State.same_ite State.fixed ((State.demand_kept (Sub.refl _) (Kept.refl _ (s.inc k))).fixedSame rfl) rfl

theorem State.floats_alarm : ((if c then (s.inc k).demand b src else s).syncAlarm b').floats = s.floats :=
  State.same_ite State.floats ((State.demand_kept (Sub.refl _) (Kept.refl _ (s.inc k))).floatsSame rfl) rfl

end

/-- The slot after a tick that is due: the counters restart, and where the limit does not disable the supervisor the error count goes on. -/
theorem State.fx_feTick {sl : Nat} (hsl : sl < 1024) {s : State} (hdue : 2 ^ s.rdN (key (0x6000 + sl) 0xD) ≤ (s.fx sl).ticks) :
    ((s.feTick sl).fx sl).ticks = 0 ∧ ((s.feTick sl).fx sl).exceeded = false ∧
    ((s.feTick sl).fx sl).st.feCount = if s.rd (key (0x6000 + sl) 0xB) = 0x7FFF then (s.fx sl).st.feCount else
      feCount (s.fx sl).st.feCount (s.rdN (key (0x6000 + sl) 0xC)) (s.fx sl).exceeded (s.rdB (key (0x6000 + sl) 0xE) && (s.fx sl).sat) := by
  unfold State.feTick
  simp only [if_pos hsl, if_neg (Nat.not_lt.mpr hdue)]
  by_cases hoff : s.rd (key (0x6000 + sl) 0xB) = 0x7FFF
  · rw [if_pos (by exact hoff), if_pos hoff]
    simp
  · rw [if_neg (by exact hoff), if_neg hoff]
    simp [State.fx, State.fixed_alarm, Tbl.get_set_same]

theorem State.fl_feTick {i : Nat} {s : State} (hdue : 2 ^ s.rdN (key (0x6400 + i) 0xD) ≤ (s.fl i).ticks) :
    ((s.feTick (1024 + i)).fl i).ticks = 0 ∧ ((s.feTick (1024 + i)).fl i).exceeded = false ∧
    ((s.feTick (1024 + i)).fl i).st.feCount = if s.rdN (key (0x6400 + i) 0xB) = 0x7F7FFFFF then (s.fl i).st.feCount else
      feCount (s.fl i).st.feCount (s.rdN (key (0x6400 + i) 0xC)) (s.fl i).exceeded (s.rdB (key (0x6400 + i) 0xE) && (s.fl i).sat) := by
  unfold State.feTick
  simp only [if_neg (Nat.not_lt.mpr (Nat.le_add_right 1024 i)), Nat.add_sub_cancel_left, if_neg (Nat.not_lt.mpr hdue)]
  by_cases hoff : s.rdN (key (0x6400 + i) 0xB) = 0x7F7FFFFF
  · rw [if_pos (by exact hoff), if_pos hoff]
    simp
  · rw [if_neg (by exact hoff), if_neg hoff]
    simp [State.fl, State.floats_alarm, Tbl.get_set_same]

/-- The reaction that a tick demands leaves the records of the slots. -/
theorem State.fixed_faultReaction (b : Nat) (s : State) : (s.faultReaction b).fixed = s.fixed :=
  (State.faultReaction_kept (Sub.refl _) (Kept.refl _ s)).fixedSame rfl

theorem State.floats_faultReaction (b : Nat) (s : State) : (s.faultReaction b).floats = s.floats :=
  (State.faultReaction_kept (Sub.refl _) (Kept.refl _ s)).floatsSame rfl

/-! ### The ends of an open-loop ride (R86) -/

/-- The slots of a voltage loop that closes again: what the restart of one slot does to its record. -/
def Restarted (sl : Nat) (s : State) : Prop :=
  if sl < 1024 then (s.fx sl).st.s1 = 0 ∧ (s.fx sl).st.s2 = 0
  else (s.fl (sl - 1024)).st.s.getD 1 0 = 0 ∧ (s.fl (sl - 1024)).st.s.getD 2 0 = 0

/-- The restart of one slot of the loop, where the recipe gives it the role of voltage. -/
def State.restartSlot (r : Recipe) (w : Work) (sl : Nat) (s : State) : State :=
  if r.roleOf sl != 2 then s
  else if sl < 1024 then
    s.setFx sl { (s.fx sl) with st := { (s.fx sl).st with s1 := 0, s2 := 0, x1 := ((Tbl.find? sl w.fx).map (·.x1)).getD (s.fx sl).st.x1 } }
  else
    s.setFl (sl - 1024) { (s.fl (sl - 1024)) with st := { (s.fl (sl - 1024)).st with
      s := ((s.fl (sl - 1024)).st.s.set 1 0).set 2 0
      x1 := ((Tbl.find? (sl - 1024) w.fl).map (·.x1)).getD (s.fl (sl - 1024)).st.x1 } }

theorem State.reclose_eq {b : Nat} {s : State} {r : Recipe} (hr : s.recipe b = some r) (hopen : s.bit (bk 0x12 5 b) 4 = true)
    (hclean : s.voltageClean b r = true) : s.reclose b = (s.endRide b).each r.slots (State.restartSlot r (s.presentWork b r)) := by
  unfold State.reclose
  simp only [hr, hopen, hclean, Bool.and_self, if_true]
  rfl

theorem getD_set_set (l : List F32) : ((l.set 1 0).set 2 0).getD 1 0 = 0 ∧ ((l.set 1 0).set 2 0).getD 2 0 = 0 := by
  constructor <;> simp [List.getD_eq_getElem?_getD, List.getElem?_set] <;> split <;> simp_all

section
variable {r : Recipe} {w : Work} {sl : Nat} {s : State}

theorem State.restartSlot_other (h : r.roleOf sl ≠ 2) : s.restartSlot r w sl = s := if_pos (by simpa using h)

theorem State.restartSlot_fixed (h : r.roleOf sl = 2) (hsl : sl < 1024) : ∃ x : FixedSlot, s.restartSlot r w sl = s.setFx sl x ∧ x.st.s1 = 0 ∧ x.st.s2 = 0 :=
  ⟨_, (if_neg (by simp [h])).trans (if_pos hsl), rfl, rfl⟩

theorem State.restartSlot_float (h : r.roleOf sl = 2) (hsl : ¬ sl < 1024) :
    ∃ x : FloatSlot, s.restartSlot r w sl = s.setFl (sl - 1024) x ∧ x.st.s.getD 1 0 = 0 ∧ x.st.s.getD 2 0 = 0 :=
  ⟨_, (if_neg (by simp [h])).trans (if_neg hsl), getD_set_set _⟩

theorem restarted_restartSlot (h : r.roleOf sl = 2) : Restarted sl (s.restartSlot r w sl) := by
  unfold Restarted
  by_cases hsl : sl < 1024
  · obtain ⟨x, hx, h12⟩ := State.restartSlot_fixed (w := w) (s := s) h hsl
    rw [if_pos hsl, hx, State.fx_setFx_same]
    exact h12
  · obtain ⟨x, hx, h12⟩ := State.restartSlot_float (w := w) (s := s) h hsl
    rw [if_neg hsl, hx, State.fl_setFl_same]
    exact h12

theorem Restarted.restartSlot (h : Restarted sl s) (x : Nat) : Restarted sl (s.restartSlot r w x) := by
  by_cases hx : r.roleOf x = 2
  · by_cases hsame : sl = x
    · exact hsame ▸ restarted_restartSlot (hsame ▸ hx)
    · by_cases hxl : x < 1024
      · obtain ⟨y, hy, -⟩ := State.restartSlot_fixed (w := w) (s := s) hx hxl
        rw [hy]
        unfold Restarted at *
        rwa [State.fx_setFx_other _ _ _ hsame]
      · obtain ⟨y, hy, -⟩ := State.restartSlot_float (w := w) (s := s) hx hxl
        rw [hy]
        unfold Restarted at *
        by_cases hsl : sl < 1024
        · simpa [hsl] using h
        · rwa [State.fl_setFl_other _ _ _ (by omega)]
  · rwa [State.restartSlot_other hx]

end

theorem restarted_each {r : Recipe} {w : Work} {sl : Nat} (hrole : r.roleOf sl = 2) (l : List Nat) (s : State)
    (h : sl ∈ l ∨ Restarted sl s) : Restarted sl (s.each l (State.restartSlot r w)) := by
  unfold State.each
  induction l generalizing s with
  | nil => simpa using h
  | cons a l ih =>
    refine ih _ ?_
    rcases h with h | h
    · rcases List.mem_cons.mp h with rfl | h
      · exact .inr (restarted_restartSlot hrole)
      · exact .inl h
    · exact .inr (h.restartSlot a)

theorem State.od_restartSlot (r : Recipe) (w : Work) (sl : Nat) (s : State) : (s.restartSlot r w sl).od = s.od :=
  State.same_ite State.od rfl (State.same_ite State.od rfl rfl)

/-! ### The settlement -/

theorem openLoopTimeout_clean {b : Nat} {s : State} (h : ∀ r, s.recipe b = some r → s.voltageClean b r = false) :
    ((s.recipe b).map (s.voltageClean b)).getD false = false := by
  cases hr : s.recipe b with
  | none => rfl
  | some r => exact h r hr

section
variable {b : Nat} {s : State}

theorem State.bstate_endRide : (s.endRide b).bstate b = s.bstate b :=
  State.bstate_congr (State.find?_setBit_ne (bk_ne (by omega) (by omega) (by omega) (by omega) (.inl (by omega))) _ _ _)

theorem State.rd_blockBatch {o a b' : Nat} (ho : o < 0x20) (ha : a < 256) (hb : b' < 32) (h6 : o ≠ 6) (he : o ≠ 0xE)
    (h : (o, a) ∉ blockEntries) (src : Nat) (detail : List Byte) : (s.blockBatch b src detail).rd (bk o a b') = s.rd (bk o a b') :=
  State.rd_congr (ownDefault_bk ho ha h6 he)
    (State.find?_batch_blockBatch (offList_of_not_mem (by decide) ho ha h b b') (batchKey_bk ho ha hb) src detail s)

/-- An open-loop ride that has run out: it is ended and counted, and the batch is blocked. -/
theorem State.openLoopTimeout_eq (hopen : s.bit (bk 0x12 5 b) 4 = true)
    (hout : (s.batch b).openSince + Time.ms (s.rdN (bk 0x12 3 b)) ≤ s.now) (h : ∀ r, s.recipe b = some r → s.voltageClean b r = false) :
    s.openLoopTimeout b = ((s.endRide b).inc (bk 0x12 0xA b)).blockBatch b 32 [] := by
  unfold State.openLoopTimeout
  simp [openLoopTimeout_clean h, hopen, hout]

/-- A ride that ends by its time limit: no longer open, counted, and the batch blocked where a block applies. -/
theorem State.openLoopTimeout_ends (hb : b < 32) (hopen : s.bit (bk 0x12 5 b) 4 = true)
    (hout : (s.batch b).openSince + Time.ms (s.rdN (bk 0x12 3 b)) ≤ s.now) (h : ∀ r, s.recipe b = some r → s.voltageClean b r = false) :
    (s.openLoopTimeout b).bit (bk 0x12 5 b) 4 = false ∧
    (s.openLoopTimeout b).rdN (bk 0x12 0xA b) = (s.rdN (bk 0x12 0xA b) + 1) % 2 ^ 32 ∧
    (s.bstate b ≠ .off → s.bstate b ≠ .fault → s.commands = true → (s.openLoopTimeout b).bstate b = .blocked) := by
  have hne : bk 0x12 5 b ≠ bk 0x12 0xA b := bk_ne (by omega) (by omega) (by omega) (by omega) (by omega)
  have hstate : ((s.endRide b).inc (bk 0x12 0xA b)).bstate b = s.bstate b :=
    (State.bstate_congr (State.find?_inc_ne (bk_ne (by omega) (by omega) (by omega) (by omega) (.inl (by omega))) _ _)).trans
      (State.bstate_endRide)
  have hcmd : ((s.endRide b).inc (bk 0x12 0xA b)).commands = s.commands :=
    (State.commands_wr_batch (batchKey_bk (by omega) (by omega) hb) _ _).trans
      (State.commands_wr_batch (batchKey_bk (by omega) (by omega) hb) _ _)
  rw [State.openLoopTimeout_eq hopen hout h]
  refine ⟨?_, ?_, fun hoff hfault hc => State.bstate_blockBatch hb [] (hstate ▸ hoff) (hstate ▸ hfault) (hcmd ▸ hc)⟩
  · rw [State.bit, State.rdN, State.rd_blockBatch (by omega) (by omega) hb (by omega) (by omega) (by decide), State.inc,
      State.rd_wr_ne hne (ownDefault_bk (by omega) (by omega) (by omega) (by omega)), ← State.rdN, ← State.bit, State.endRide,
      State.bit_setBit_same]
  · rw [State.rdN, State.rd_blockBatch (by omega) (by omega) hb (by omega) (by omega) (by decide), ← State.rdN, State.rdN_inc_same,
      State.endRide, State.rdN, State.rd_setBit_ne hne.symm (ownDefault_bk (by omega) (by omega) (by omega) (by omega)), ← State.rdN]

end

/-- Settles O15, tick by tick and ride by ride. -/
theorem loopSupervisionCompletes : Obligations.LoopSupervisionCompletes := by
  unfold Obligations.LoopSupervisionCompletes
  refine ⟨fun t sl s hsl hdue => ⟨_, rfl, ?fixed⟩, fun t sl s i hsl hdue => ⟨_, rfl, ?float⟩,
    fun t b s hopen hout hunclean => ⟨_, rfl, State.openLoopTimeout_ends (s := s.begin t) b.isLt hopen hout hunclean⟩,
    fun t b s r hr hopen hclean => ⟨_, rfl, ?reclose⟩⟩
  case fixed =>
    have htick := State.fx_feTick (s := s.begin t) hsl hdue
    have hreact : (if ((s.begin t).feTick sl).slotOwner sl < 32 then ((s.begin t).feTick sl).faultReaction (((s.begin t).feTick sl).slotOwner sl)
        else (s.begin t).feTick sl).fixed = ((s.begin t).feTick sl).fixed := State.same_ite State.fixed (State.fixed_faultReaction _ _) rfl
    simp only [State.fx, hreact]
    exact htick
  case float =>
    have htick := State.fl_feTick (s := s.begin t) hdue
    have hreact : (if ((s.begin t).feTick sl).slotOwner sl < 32 then ((s.begin t).feTick sl).faultReaction (((s.begin t).feTick sl).slotOwner sl)
        else (s.begin t).feTick sl).floats = ((s.begin t).feTick sl).floats := State.same_ite State.floats (State.floats_faultReaction _ _) rfl
    simp only [State.fl, hreact]
    rw [hsl]
    exact htick
  case reclose =>
    have hod : (((s.begin t).endRide b).each r.slots (State.restartSlot r ((s.begin t).presentWork b r))).od = ((s.begin t).endRide b).od :=
      State.each_eq State.od (fun sl _ s => State.od_restartSlot r _ sl s) _
    have hbit : ∀ u v : State, u.od = v.od → u.bit (bk 0x12 5 b) 4 = v.bit (bk 0x12 5 b) 4 := fun u v h => by
      simp only [State.bit, State.rdN, State.rd, h]
    rw [State.reclose_eq (s := s.begin t) hr hopen hclean]
    refine ⟨(hbit _ _ hod).trans (State.bit_setBit_same _ _ _ _), fun sl hsl hrole => ?_⟩
    exact restarted_each hrole r.slots _ (.inl hsl)

end Sys2Proof.Machine
end

section
/-! Lane tests (R67, R68): while the batches of a retired lane still move, the free lane is not given to a test, which refutes O16. -/

namespace Sys2Proof.Machine

-- The kernel's evaluations run one after the other: side by side they would need too much memory.
set_option Elab.async false

/-- Lane tests are enabled and due, lane 0 is in turn and carries batches, lane 1 is free; lane 2 drains because it is to be retired. -/
def movingLanes : State :=
  let s := (State.reset.wr (key 0x6530 8) 1).wr (key 0x6530 9) 0
  let s := (s.setLane 0 { state := .home }).setLane 1 { state := .free }
  s.setLane 2 { state := .draining, retireCause := some 3 }

/-- The test waits at lane 0, which stays a home lane. -/
theorem movingLanes_waits : (((movingLanes.begin 0).laneTestStart).lane 0).state = .home := by decide +kernel

/-- Refutes O16: lane 0 is in turn and a free lane exists, but while lane 2 drains for its retirement lane 0 neither goes under test nor
drains. -/
theorem not_laneTestsAndRetirementComplete : ¬ Obligations.LaneTestsAndRetirementComplete := by
  unfold Obligations.LaneTestsAndRetirementComplete
  rintro ⟨-, hstart, -⟩
  obtain ⟨-, hhome, -⟩ := hstart 0 movingLanes (by decide +kernel) (by decide +kernel) (by decide +kernel) (by decide +kernel)
  obtain ⟨u, hu, htest⟩ := hhome (by decide +kernel) (by decide +kernel)
  have hstays := movingLanes_waits
  rw [show (movingLanes.begin 0).laneTestStart = u from Host.Outcome.next.inj hu] at hstays
  have hrot : movingLanes.fabric.rot = 0 := by decide +kernel
  rw [hrot, hstays] at htest
  exact absurd htest (by decide)

end Sys2Proof.Machine
end

section
/-! Staged set-points (R127): the generator named for set-point 0 is reached by a further entry of the set as well, which refutes O17. -/

namespace Sys2Proof.Machine

-- The kernel's evaluations run one after the other: side by side they would need too much memory.
set_option Elab.async false

/-- Batch 0 with a staged set of set-point 0 and of a number 4; the application time is 5 ns, and generator 5 is named for set-point 0. -/
def stagedSet : State :=
  ((State.reset.wr (bk 0xE 9 0) 5).wr (bk 0xE 5 0) 5).setBatch 0 { staged := [(0, 0x3F800000), (4, 0x40000000)] }

/-- Number 4 finds its generator where the application time stands, and overwrites the stored target. -/
theorem stagedSet_applied :
    (((stagedSet.begin 1000000).applyStaged 0).rdF (key (0x6600 + 5) 2) == stagedSet.spVal 0 0 0x3F800000) = false := by decide +kernel

/-- Refutes O17: of the staged set, the value of set-point 0 does not stay at generator 5. -/
theorem not_setpointCommandsComplete : ¬ Obligations.SetpointCommandsComplete := by
  unfold Obligations.SetpointCommandsComplete
  rintro ⟨-, happly, -⟩
  obtain ⟨u, hu, -, -, -, hset⟩ := happly 1000000 0 stagedSet (by decide +kernel) (by decide +kernel)
  obtain ⟨hval, -⟩ := hset (by decide +kernel) 0 0x3F800000 5 (by decide +kernel) (by decide) (by decide +kernel) (by decide +kernel)
  have hother := stagedSet_applied
  rw [show (stagedSet.begin 1000000).applyStaged 0 = u from Host.Outcome.next.inj hu, hval] at hother
  simp at hother

end Sys2Proof.Machine
end

section
/-! Rules for a host's write that is carried out: what the answer and the mark of a long operation leave, and the three ways it ends. -/

namespace Sys2Proof.Machine

/-! ### The mark of a long operation leaves all but the server -/

section
variable (q : Req) (was : Nat) (s : State)

@[simp] theorem State.longBy_now : (s.longBy q was).now = s.now := State.same_ite State.now rfl rfl
@[simp] theorem State.longBy_od : (s.longBy q was).od = s.od := State.same_ite State.od rfl rfl
@[simp] theorem State.longBy_blobs : (s.longBy q was).blobs = s.blobs := State.same_ite State.blobs rfl rfl
@[simp] theorem State.longBy_batches : (s.longBy q was).batches = s.batches := State.same_ite State.batches rfl rfl
@[simp] theorem State.longBy_fixed : (s.longBy q was).fixed = s.fixed := State.same_ite State.fixed rfl rfl
@[simp] theorem State.longBy_floats : (s.longBy q was).floats = s.floats := State.same_ite State.floats rfl rfl
@[simp] theorem State.longBy_gens : (s.longBy q was).gens = s.gens := State.same_ite State.gens rfl rfl
@[simp] theorem State.longBy_fabric : (s.longBy q was).fabric = s.fabric := State.same_ite State.fabric rfl rfl
@[simp] theorem State.longBy_meas : (s.longBy q was).meas = s.meas := State.same_ite State.meas rfl rfl
@[simp] theorem State.longBy_pwm : (s.longBy q was).pwm = s.pwm := State.same_ite State.pwm rfl rfl
@[simp] theorem State.longBy_links : (s.longBy q was).links = s.links := State.same_ite State.links rfl rfl
@[simp] theorem State.longBy_aux : (s.longBy q was).aux = s.aux := State.same_ite State.aux rfl rfl
@[simp] theorem State.longBy_island : (s.longBy q was).island = s.island := State.same_ite State.island rfl rfl
@[simp] theorem State.longBy_clock : (s.longBy q was).clock = s.clock := State.same_ite State.clock rfl rfl
@[simp] theorem State.longBy_acq : (s.longBy q was).acq = s.acq := State.same_ite State.acq rfl rfl
@[simp] theorem State.longBy_log : (s.longBy q was).log = s.log := State.same_ite State.log rfl rfl
@[simp] theorem State.longBy_rack : (s.longBy q was).rack = s.rack := State.same_ite State.rack rfl rfl
@[simp] theorem State.longBy_power : (s.longBy q was).power = s.power := State.same_ite State.power rfl rfl
@[simp] theorem State.longBy_net : (s.longBy q was).net = s.net := State.same_ite State.net rfl rfl

@[simp] theorem State.rdN_longBy (k : Nat) : (s.longBy q was).rdN k = s.rdN k := State.same_ite (fun u => u.rdN k) rfl rfl
@[simp] theorem State.rdF_longBy (k : Nat) : (s.longBy q was).rdF k = s.rdF k := State.same_ite (fun u => u.rdF k) rfl rfl
@[simp] theorem State.rdB_longBy (k : Nat) : (s.longBy q was).rdB k = s.rdB k := State.same_ite (fun u => u.rdB k) rfl rfl
@[simp] theorem State.bit_longBy (k i : Nat) : (s.longBy q was).bit k i = s.bit k i := State.same_ite (fun u => u.bit k i) rfl rfl
@[simp] theorem State.bstate_longBy (b : Nat) : (s.longBy q was).bstate b = s.bstate b := State.same_ite (fun u => u.bstate b) rfl rfl
@[simp] theorem State.batch_longBy (b : Nat) : (s.longBy q was).batch b = s.batch b := State.same_ite (fun u => u.batch b) rfl rfl
@[simp] theorem State.gen_longBy (g : Nat) : (s.longBy q was).gen g = s.gen g := State.same_ite (fun u => u.gen g) rfl rfl
@[simp] theorem State.blob_longBy (k : Nat) : (s.longBy q was).blob k = s.blob k := State.same_ite (fun u => u.blob k) rfl rfl
@[simp] theorem State.chan_longBy (c : Nat) : (s.longBy q was).chan c = s.chan c := State.same_ite (fun u => u.chan c) rfl rfl
@[simp] theorem State.fx_longBy (i : Nat) : (s.longBy q was).fx i = s.fx i := State.same_ite (fun u => u.fx i) rfl rfl
@[simp] theorem State.fl_longBy (i : Nat) : (s.longBy q was).fl i = s.fl i := State.same_ite (fun u => u.fl i) rfl rfl

@[simp] theorem State.mod_longBy : (s.longBy q was).mod = s.mod := State.same_ite State.mod rfl rfl

end

/-! ### An answer leaves all but the messages -/

section
variable (e : Nat) (s : State)

@[simp] theorem State.answer_now : (s.answer e).now = s.now := rfl
@[simp] theorem State.answer_od : (s.answer e).od = s.od := rfl
@[simp] theorem State.answer_blobs : (s.answer e).blobs = s.blobs := rfl
@[simp] theorem State.answer_batches : (s.answer e).batches = s.batches := rfl
@[simp] theorem State.answer_fixed : (s.answer e).fixed = s.fixed := rfl
@[simp] theorem State.answer_floats : (s.answer e).floats = s.floats := rfl
@[simp] theorem State.answer_gens : (s.answer e).gens = s.gens := rfl
@[simp] theorem State.answer_fabric : (s.answer e).fabric = s.fabric := rfl
@[simp] theorem State.answer_meas : (s.answer e).meas = s.meas := rfl
@[simp] theorem State.answer_pwm : (s.answer e).pwm = s.pwm := rfl
@[simp] theorem State.answer_links : (s.answer e).links = s.links := rfl
@[simp] theorem State.answer_aux : (s.answer e).aux = s.aux := rfl
@[simp] theorem State.answer_island : (s.answer e).island = s.island := rfl
@[simp] theorem State.answer_clock : (s.answer e).clock = s.clock := rfl
@[simp] theorem State.answer_acq : (s.answer e).acq = s.acq := rfl
@[simp] theorem State.answer_log : (s.answer e).log = s.log := rfl
@[simp] theorem State.answer_rack : (s.answer e).rack = s.rack := rfl
@[simp] theorem State.answer_power : (s.answer e).power = s.power := rfl
@[simp] theorem State.answer_net : (s.answer e).net = s.net := rfl

@[simp] theorem State.rdN_answer (k : Nat) : (s.answer e).rdN k = s.rdN k := rfl
@[simp] theorem State.rdF_answer (k : Nat) : (s.answer e).rdF k = s.rdF k := rfl
@[simp] theorem State.rdB_answer (k : Nat) : (s.answer e).rdB k = s.rdB k := rfl
@[simp] theorem State.bit_answer (k i : Nat) : (s.answer e).bit k i = s.bit k i := rfl
@[simp] theorem State.bstate_answer (b : Nat) : (s.answer e).bstate b = s.bstate b := rfl
@[simp] theorem State.batch_answer (b : Nat) : (s.answer e).batch b = s.batch b := rfl
@[simp] theorem State.gen_answer (g : Nat) : (s.answer e).gen g = s.gen g := rfl
@[simp] theorem State.blob_answer (k : Nat) : (s.answer e).blob k = s.blob k := rfl
@[simp] theorem State.chan_answer (c : Nat) : (s.answer e).chan c = s.chan c := rfl
@[simp] theorem State.fx_answer (i : Nat) : (s.answer e).fx i = s.fx i := rfl
@[simp] theorem State.fl_answer (i : Nat) : (s.answer e).fl i = s.fl i := rfl

end

/-! ### The three ways a write is carried out -/

section
variable {q : Req} {index sub elem : Nat} {v : Int} {e : Eff} {s : State} (hs : s.Serves)
include hs

/-- Every condition of the object's own is met and the effect leaves the answer to the server. -/
theorem State.hostWrite_replies (hpass : s.Passes q index sub elem v) (hown : e.own (s.handling q.sid) = 0) (hrep : e.replies = true) :
    s.hostWrite q index sub elem v e = ((e.eff (s.handling q.sid)).answer 0).longBy q 0 := by
  rw [State.hostWrite_eq hs hpass, State.carries_of_pass hown, if_pos hrep]

/-- Every condition of the object's own is met and the effect brings the answer itself. -/
theorem State.hostWrite_own (hpass : s.Passes q index sub elem v) (hown : e.own (s.handling q.sid) = 0) (hrep : e.replies = false) :
    s.hostWrite q index sub elem v e = (e.eff (s.handling q.sid)).longBy q 0 := by
  rw [State.hostWrite_eq hs hpass, State.carries_of_pass hown, if_neg (by simp [hrep])]

/-- A condition of the object's own fails. -/
theorem State.hostWrite_fails {c : Nat} (hpass : s.Passes q index sub elem v) (hown : e.own (s.handling q.sid) = c) (hc : c ≠ 0) :
    s.hostWrite q index sub elem v e = ((s.handling q.sid).answer c).longBy q 0 := by
  rw [State.hostWrite_eq hs hpass, State.carries_of_fail hown hc]

end

theorem State.answered_longBy {s : State} {e : Nat} (h : s.Answered e) (q : Req) (was : Nat) : (s.longBy q was).Answered e :=
  (State.sends_longBy q was s).answered h

@[simp] theorem State.answered_answer_longBy (e : Nat) (q : Req) (was : Nat) (s : State) : ((s.answer e).longBy q was).Answered e :=
  State.answered_longBy (State.answered_answer e s) q was

end Sys2Proof.Machine
end

section
/-! Batch commands (R139): the effect of a command's write, taken or refused, with which O18 is settled. -/

namespace Sys2Proof.Machine

section
variable {b c : Nat} {s : State}

/-- Permission of a command of each code, as notes/assumptions/27 reads Tables 06-3 to 06-5. -/
theorem State.permitted_iff : s.permitted b c = true ↔
    (c = 1 ∧ s.bstate b = .off ∧ s.benabled b = true) ∨ ((c = 2 ∨ c = 3) ∧ s.bstate b ≠ .off ∧ s.bstate b ≠ .fault) ∨
    (c = 4 ∧ s.bstate b = .blocked) ∨ (c = 5 ∧ s.bstate b = .fault) ∨ (c = 6 ∧ s.bstate b = .connected) ∨
    (c = 7 ∧ (s.bstate b = .islanded ∨ s.bstate b = .coast) ∧ (s.batch b).rs.winResult = true) ∨
    (c = 8 ∧ s.bstate b = .starter ∧ s.mod = .running ∧ s.kind b = 1 ∧ s.bit (bk 0xB 0x11 b) 2 = true ∧
      (s.rdN (bk 0xB 0xD b) = 1 ∨ s.rdN (bk 0xB 0xD b) = 2)) := by
  unfold State.permitted
  dsimp only
  split <;> simp_all [and_assoc]

/-- A command that is taken waits for the next t0; its refusal entry reads 0. -/
theorem commandEff_of_permitted (hperm : s.permitted b c = true) (hramp : c = 8 → s.rampOk b = true) :
    (commandEff b c).eff s = ((s.wr (bk 2 2 b) 0).modBatch b (fun r => { r with cmd := some c })).answer 0 := by
  have hno : ¬ (c = 8 ∧ s.rampOk b = false) := fun h => by simp [hramp h.1] at h
  simp [commandEff, hperm, hno]

theorem commandEff_of_refused (hperm : s.permitted b c = false) :
    (commandEff b c).eff s = (s.wr (bk 2 2 b) 0x0B000062).answer 0x0B000062 := by
  simp [commandEff, hperm]

theorem commandEff_of_ramp (hperm : s.permitted b 8 = true) (hramp : s.rampOk b = false) :
    (commandEff b 8).eff s = (s.wr (bk 2 2 b) 0x0B000063).answer 0x0B000063 := by
  simp [commandEff, hperm, hramp]

end

section
variable {t : Time} {q : Req} {b : Batch} {s : State} {c : Nat} (hs : s.Serves) (hpass : s.Passes q (0x4002 + 0x20 * b) 1 0 c)
include hs hpass

theorem State.command_eq : (s.begin t).command q b c = ((commandEff b c).eff ((s.begin t).handling q.sid)).longBy q 0 :=
  State.hostWrite_own (s := s.begin t) hs hpass rfl rfl

theorem State.command_taken (hperm : s.permitted b c = true) (hramp : c = 8 → s.rampOk b = true) :
    ((((s.begin t).command q b c).batch b).cmd = some c ∧ ((s.begin t).command q b c).rd (bk 2 2 b) = 0 ∧
      ((s.begin t).command q b c).Answered 0) := by
  rw [State.command_eq hs hpass, commandEff_of_permitted (s := (s.begin t).handling q.sid) hperm hramp]
  refine ⟨?_, ?_, State.answered_answer_longBy _ _ _ _⟩
  · simp [State.modBatch]
  · rw [State.rd_longBy, State.rd_answer]
    exact State.rd_wr_same _ _ _

theorem State.command_refused {e : Nat}
    (heff : (commandEff b c).eff ((s.begin t).handling q.sid) = (((s.begin t).handling q.sid).wr (bk 2 2 b) e).answer e) :
    ((((s.begin t).command q b c).batch b).cmd = (s.batch b).cmd ∧ ((s.begin t).command q b c).rd (bk 2 2 b) = e ∧
      ((s.begin t).command q b c).Answered e) := by
  rw [State.command_eq hs hpass, heff]
  exact ⟨by simp, by simp, State.answered_answer_longBy _ _ _ _⟩

end

/-- The command that an instruction of the list writes. -/
theorem exec_batchCommand {t : Time} {q : Req} {b : Batch} {c : Nat} {i : Instr}
    (hi : (c, i) ∈ [(1, Instr.batchStart t q b), (2, .batchStop t q b), (3, .batchBlock t q b), (4, .batchRelease t q b), (5, .faultReset t q b),
      (6, .batchIsland t q b), (7, .batchResync t q b), (8, Instr.batchBlackStart t q b)]) (s : State) :
    exec i s = .next ((s.begin t).command q b c) := by
  simp only [List.mem_cons, Prod.mk.injEq, List.not_mem_nil, or_false] at hi
  rcases hi with ⟨rfl, rfl⟩ | ⟨rfl, rfl⟩ | ⟨rfl, rfl⟩ | ⟨rfl, rfl⟩ | ⟨rfl, rfl⟩ | ⟨rfl, rfl⟩ | ⟨rfl, rfl⟩ | ⟨rfl, rfl⟩ <;> rfl

/-- Settles O18: the permission by the code, and each way the command's write ends. -/
theorem batchCommandsTakenOrRefused : Obligations.BatchCommandsTakenOrRefused := by
  unfold Obligations.BatchCommandsTakenOrRefused
  refine ⟨fun b c s => State.permitted_iff, fun t q b s c i hi hs hpass => ⟨fun hperm hramp => ?taken, fun hperm => ?refused, fun hc hperm hramp => ?ramp⟩⟩
  case taken => exact ⟨_, exec_batchCommand hi s, State.command_taken hs hpass hperm hramp⟩
  case refused =>
    exact ⟨_, exec_batchCommand hi s, State.command_refused hs hpass (commandEff_of_refused (s := (s.begin t).handling q.sid) hperm)⟩
  case ramp =>
    subst hc
    exact ⟨_, exec_batchCommand hi s, State.command_refused hs hpass (commandEff_of_ramp (s := (s.begin t).handling q.sid) hperm hramp)⟩

end Sys2Proof.Machine
end

section
/-! The coast time limit (R138): a generator that the module drives already is not given its target anew, which refutes O19. -/

namespace Sys2Proof.Machine

-- The kernel's evaluations run one after the other: side by side they would need too much memory.
set_option Elab.async false

/-- Batch 0 in Coast with a time limit of 1 s; generator 5, named for set-point 0, is driven to 0 with another target in use. -/
def drivenInCoast : State :=
  (((State.reset.wr (bk 1 1 0) BatchState.coast.code).wr (bk 1 5 0) 1).wr (bk 0xE 5 0) 5).setGen 5 { drive := some 0, target := 0x3F800000 }

/-- The stop ramp leaves the generator as it is. -/
theorem drivenInCoast_target : (((drivenInCoast.begin (Time.sec 1)).coastLimit 0).gen 5).target = 0x3F800000 := by decide +kernel

/-- Refutes O19: the stop ramp finds the generator of set-point 0 driven to 0 and does not write its target in use. -/
theorem not_rideThroughCommandsComplete : ¬ Obligations.RideThroughCommandsComplete := by
  unfold Obligations.RideThroughCommandsComplete
  rintro ⟨hcoast, -⟩
  obtain ⟨u, hu, -, hgens⟩ := hcoast (Time.sec 1) 0 drivenInCoast (by decide +kernel) (by decide +kernel) (by decide +kernel) (by decide +kernel)
  obtain ⟨htarget, -⟩ := hgens 0 5 (by decide) (by decide +kernel)
  have hstays := drivenInCoast_target
  rw [show (drivenInCoast.begin (Time.sec 1)).coastLimit 0 = u from Host.Outcome.next.inj hu, htarget] at hstays
  exact absurd hstays (by decide)

end Sys2Proof.Machine
end

section
/-! Resynchronisation (R170, R173, R174): the automatic entry, the held window and the three limits, with which O20 is settled. -/

namespace Sys2Proof.Machine

/-! ### The targets that the module drives -/

theorem BatchKey.find?_driveTarget {k : Nat} (hk : BatchKey k) (g : Nat) (v : F32) (s : State) :
    Tbl.find? k (s.driveTarget g v).od = Tbl.find? k s.od := by
  unfold State.driveTarget
  refine State.same_ite (fun s => Tbl.find? k s.od) rfl ?_
  exact (State.find?_wr_ne (hk.ne_gen g _) _ _).trans (State.find?_batch_useTarget hk g v _)

@[simp] theorem State.driveTarget_batches (g : Nat) (v : F32) (s : State) : (s.driveTarget g v).batches = s.batches :=
  State.same_ite State.batches rfl rfl

/-- The P and Q generators of a batch in Coast are driven to 0. -/
def State.restPQ (b : Nat) (s : State) : State := (s.withGen b 0 (fun g => State.driveTarget g 0)).withGen b 1 (fun g => State.driveTarget g 0)

theorem BatchKey.find?_restPQ {k : Nat} (hk : BatchKey k) (b : Nat) (s : State) : Tbl.find? k (s.restPQ b).od = Tbl.find? k s.od :=
  (State.find?_withGen b 1 (fun g s => hk.find?_driveTarget g 0 s) _).trans (State.find?_withGen b 0 (fun g s => hk.find?_driveTarget g 0 s) _)

theorem State.restPQ_batches (b : Nat) (s : State) : (s.restPQ b).batches = s.batches :=
  (State.withGen_batches b 1 (State.driveTarget_batches · 0) _).trans (State.withGen_batches b 0 (State.driveTarget_batches · 0) _)

/-! ### The entry of Resync (R170) -/

section
variable {b : Nat} (hb : b < 32) {entry : BatchState} (cause : Nat) {s : State}

include hb in
/-- The entry into Resync: the state, the record of the state of entry, and its code shown. -/
theorem State.enterResync_enters (hne : s.bstate b ≠ .resync) :
    (s.enterResync b entry cause).bstate b = .resync ∧ ((s.enterResync b entry cause).batch b).rs.entry = entry ∧
    (s.enterResync b entry cause).rd (bk 0xC 0x14 b) = entry.code := by
  unfold State.enterResync
  lift_lets
  intro rs s1 s2 s3
  have hfind (k : Nat) (hk : BatchKey k) := State.same_ite (fun s => Tbl.find? k s.od) (c := (entry == .coast) = true) (hk.find?_restPQ b s3) rfl
  have hrec := State.same_ite State.batches (c := (entry == .coast) = true) (State.restPQ_batches b s3) rfl
  have hshow : bk 0xC 0x14 b ≠ bk 1 1 b := bk_ne (by omega) (by omega) (by omega) (by omega) (.inl (by omega))
  refine ⟨?_, ?_, ?_⟩
  · refine (State.bstate_congr (hfind _ (batchKey_bk (by omega) (by omega) hb))).trans ?_
    exact (State.bstate_congr (State.find?_wr_ne hshow.symm s2 _)).trans (State.bstate_setState hb cause hne)
  · refine (congrArg (fun l => (Tbl.get {} b l).rs.entry) hrec).trans ?_
    exact congrArg (fun r : BatchRec => r.rs.entry) (State.batch_setBatch_same b _ s1)
  · refine (State.rd_congr (ownDefault_bk (by omega) (by omega) (by omega) (by omega)) (hfind _ (batchKey_bk (by omega) (by omega) hb))).trans ?_
    exact State.rd_wr_same _ _ _

end

/-- An automatic Resync whose conditions are met at a t0 of the batch enters from the present state. -/
theorem State.autoResync_eq {b : Nat} {s : State} {x : Time} (hen : ((s.bstate b = .coast ∧ s.bit (bk 0xC 1 b) 0 = true) ∨
      (s.bstate b = .islanded ∧ s.bit (bk 0xC 1 b) 1 = true))) (hlive : (s.batch b).rs.liveSince = some x) (hwin : (s.batch b).rs.winResult = true)
    (hstable : x + Time.ms (s.rdN (bk 0xC 0xB b)) ≤ s.now) (hgo : (s.batch b).stopping = false) :
    s.autoResync b = s.enterResync b (s.bstate b) 0x67 := by
  unfold State.autoResync
  rcases hen with ⟨hst, hbit⟩ | ⟨hst, hbit⟩ <;> simp [hst, hbit, hlive, hwin, hstable, hgo]

/-! ### The held window and the limits (R173, R174) -/

theorem State.windowHeld_holds {b : Nat} {s : State} {x : Time} (hst : s.bstate b = .resync) (hheld : (s.batch b).rs.heldSince = some x)
    (hdue : x + Time.ms (s.rdN (bk 0xC 0xA b)) ≤ s.now) : (s.windowHeld b).bit (bk 0xC 0xF b) 5 = true ∧
      (s.windowHeld b).bit (bk 0xC 0xF b) (if (s.batch b).rs.entry = .coast then 6 else 7) = true := by
  unfold State.windowHeld
  simp only [hst, hheld, beq_self_eq_true, hdue, if_true]
  have h5 := State.bit_setBit_same (bk 0xC 0xF b) 5 true s
  by_cases hcoast : (s.batch b).rs.entry = .coast
  · simp only [hcoast, beq_self_eq_true, if_true]
    by_cases h6 : (s.setBit (bk 0xC 0xF b) 5 true).bit (bk 0xC 0xF b) 6 = true
    · rw [if_pos h6]
      exact ⟨h5, h6⟩
    · rw [if_neg h6]
      exact ⟨(State.bit_setBit_other (by omega) _ _ _).trans h5, State.bit_setBit_same _ _ _ _⟩
  · simp only [beq_iff_eq, hcoast, if_false]
    exact ⟨(State.bit_setBit_other (by omega) _ _ _).trans h5, State.bit_setBit_same _ _ _ _⟩

theorem State.endResync_ending {b code : Nat} {s : State} (hst : s.bstate b = .resync) (hnone : (s.batch b).rs.ending = none) :
    ((s.endResync b code).batch b).rs.ending = some code := by
  simp [State.endResync, hst, hnone, State.modBatch]

/-- Settles O20: the automatic entry, the held window, and each limit by the end of Resync it marks. -/
theorem resyncCommandsComplete : Obligations.ResyncCommandsComplete := by
  unfold Obligations.ResyncCommandsComplete
  refine ⟨fun t b s x hen hlive hwin hstable hgo ht0 => ⟨_, rfl, ?auto⟩, fun t b s x hst hheld hdue => ⟨_, rfl, ?held⟩,
    fun t b s hst hnone => ⟨fun x hreq hdue hbit => ⟨_, rfl, ?closing⟩, fun hdue => ⟨_, rfl, ?limit⟩, fun x hlost hdue => ⟨_, rfl, ?live⟩⟩⟩
  case auto =>
    have hnow : (((s.begin t).batch b).lastT0 == some (s.begin t).now) = true := by simpa using ht0
    rw [State.when, if_pos hnow, State.autoResync_eq (s := s.begin t) hen hlive hwin hstable hgo]
    refine State.enterResync_enters b.isLt 0x67 (s := s.begin t) ?_
    rcases hen with ⟨hst, -⟩ | ⟨hst, -⟩ <;> exact fun h => by simp [show (s.begin t).bstate b = s.bstate b from rfl, hst] at h
  case held => exact State.windowHeld_holds (s := s.begin t) hst hheld hdue
  case closing =>
    have hlim : (s.begin t).closingLimit b = (s.begin t).endResync b 8 := by
      unfold State.closingLimit
      simp only [show ((s.begin t).batch b).rs.reqSince = some x from hreq]
      exact if_pos (by rw [Bool.and_eq_true, decide_eq_true_eq]; exact ⟨hdue, hbit⟩)
    rw [hlim]
    exact State.endResync_ending (s := s.begin t) hst hnone
  case limit =>
    rw [State.resyncLimit, if_pos (by exact hdue)]
    exact State.endResync_ending (s := s.begin t) hst hnone
  case live =>
    have hlim : (s.begin t).refNotLive b = (s.begin t).endResync b 4 := by
      unfold State.refNotLive
      simp only [show ((s.begin t).batch b).rs.lostSince = some x from hlost]
      exact if_pos hdue
    rw [hlim]
    exact State.endResync_ending (s := s.begin t) hst hnone

end Sys2Proof.Machine
end

section
/-! Precharge, Starter and black start (R157, R159, R161, R165, R169): what ends each of them, with which O21 is settled. -/

namespace Sys2Proof.Machine

/-! ### What a write of a batch entry leaves -/

theorem State.mod_wr_batch {k : Nat} (hk : BatchKey k) (v : Int) (s : State) : (s.wr k v).mod = s.mod := by
  have hne : key 0x2000 1 ≠ k := by simp only [BatchKey, key] at hk ⊢; omega
  rw [State.mod, State.rdN, State.rd_wr_ne hne (by decide), ← State.rdN, ← State.mod]

theorem State.bit_wr_ne {j k : Nat} (hjk : j ≠ k) (hj : OwnDefault j) (i : Nat) (v : Int) (s : State) : (s.wr k v).bit j i = s.bit j i := by
  rw [State.bit, State.rdN, State.rd_wr_ne hjk hj, State.bit, State.rdN]

theorem State.rdN_wr_ne {j k : Nat} (hjk : j ≠ k) (hj : OwnDefault j) (v : Int) (s : State) : (s.wr k v).rdN j = s.rdN j := by
  rw [State.rdN, State.rd_wr_ne hjk hj, State.rdN]

theorem State.mayEnable_wr_batch {k : Nat} (hk : BatchKey k) (v : Int) (s : State) : (s.wr k v).mayEnable = s.mayEnable := by
  have hne : key 0x2110 0xF ≠ k := by simp only [BatchKey, key] at hk ⊢; omega
  rw [State.mayEnable, State.mod_wr_batch hk, State.bit_wr_ne hne (by decide), State.mayEnable]

/-- A block turns the outputs off. -/
theorem State.outOn_pulseBlock (b : Nat) (s : State) : ((s.pulseBlock b).batch b).outOn = false := by
  have hrec : (s.pulseBlock b).batches = (s.modBatch b (fun r => { r with outOn := false, outDue := none, seeded := false })).batches :=
    State.each_batches (f := State.chanOff) (fun _ _ => rfl) _
  rw [State.batch, hrec, ← State.batch, State.modBatch, State.batch_setBatch_same]

theorem mem_driversOf_lt {s : State} {b d : Nat} (h : d ∈ s.driversOf b) : d < 6 := List.mem_range.mp (List.mem_filter.mp h).1

theorem chk_lt {c a : Nat} (hc : c < 256) (ha : a < 256) : chk c a < 0x40000000 := by
  simp only [chk, key]
  omega

theorem driverChan_lt {s : State} {d c : Nat} (h : s.driverChan d = some c) : c < 256 := by
  unfold State.driverChan at h
  dsimp only at h
  split at h
  case isTrue hc =>
    cases h
    simp only [Bool.or_eq_true, Bool.and_eq_true, decide_eq_true_eq] at hc
    omega
  case isFalse => cases h

section
variable {k : Nat} (hk : BatchKey k) (v : Int) (s : State)
include hk

/-- An entry below the objects of the batches keeps its value. -/
theorem State.rd_wr_below {j : Nat} (hj : j < 0x40000000) : (s.wr k v).rd j = s.rd j := by
  have hlow : 0x40000000 ≤ k := hk.1
  exact State.rd_wr_ne (by omega) (.inl (by omega)) v s

theorem State.rdN_wr_below {j : Nat} (hj : j < 0x40000000) : (s.wr k v).rdN j = s.rdN j := by
  rw [State.rdN, State.rd_wr_below hk v s hj, State.rdN]

theorem State.driverChan_wr_batch {d : Nat} (hd : d < 6) : (s.wr k v).driverChan d = s.driverChan d := by
  simp only [State.driverChan, State.rdN_wr_below hk v s (show key (0x3100 + d) 1 < 0x40000000 by simp only [key]; omega),
    State.rdN_wr_below hk v s (show chk 255 2 < 0x40000000 by simp only [chk, key]; omega),
    State.rdN_wr_below hk v s (show chk 255 3 < 0x40000000 by simp only [chk, key]; omega)]

theorem State.ownerOf_wr_batch {c : Nat} (hc : c < 256) : (s.wr k v).ownerOf c = s.ownerOf c := by
  have howner : (s.wr k v).rdN (chk c 1) = s.rdN (chk c 1) := State.rdN_wr_below hk v s (chk_lt hc (by omega))
  unfold State.ownerOf
  dsimp only
  rw [howner]

theorem State.driverBatch_wr_batch {d : Nat} (hd : d < 6) : (s.wr k v).driverBatch d = s.driverBatch d := by
  unfold State.driverBatch
  rw [State.driverChan_wr_batch hk v s hd]
  exact Option.bind_congr (fun c hc => State.ownerOf_wr_batch hk v s (driverChan_lt hc))

theorem State.driversOf_wr_batch (b : Nat) : (s.wr k v).driversOf b = s.driversOf b :=
  List.filter_congr (fun d hd => by rw [State.driverBatch_wr_batch hk v s (List.mem_range.mp hd)])

theorem State.rdN_driver_wr_batch {d a : Nat} (hd : d < 6) (ha : a < 256) : (s.wr k v).rdN (xk d a) = s.rdN (xk d a) :=
  State.rdN_wr_below hk v s (by simp only [xk, key]; omega)

theorem State.prestartDrivers_wr_batch (b : Nat) : (s.wr k v).prestartDrivers b = s.prestartDrivers b := by
  unfold State.prestartDrivers
  rw [State.driversOf_wr_batch hk, State.rdB, State.rd_wr_below hk v s (show key 0x3106 5 < 0x40000000 by simp only [key]; omega), ← State.rdB]
  congr 1
  exact List.filter_congr (fun d hd => by rw [State.rdN_driver_wr_batch hk v s (mem_driversOf_lt hd) (by omega)])

/-- What the pre-start runs report rests on no entry of a batch. -/
theorem State.prestartOk_wr_batch (b : Nat) : (s.wr k v).prestartOk b = s.prestartOk b := by
  have hd (d : Nat) (h : d ∈ s.prestartDrivers b) : d < 6 := by
    unfold State.prestartDrivers at h
    split at h
    · exact mem_driversOf_lt (List.mem_filter.mp h).1
    · cases h
  unfold State.prestartOk
  rw [State.prestartDrivers_wr_batch hk, Bool.eq_iff_iff, List.all_eq_true, List.all_eq_true]
  refine forall₂_congr (fun d h => ?_)
  rw [State.rdN_driver_wr_batch hk v s (hd d h) (by omega)]
  rfl

end

section
variable {b : Nat} (hb : b < 32) {s : State}

/-! ### Fault (R157, R169) -/

include hb in
/-- Fault with no source of a block: the state, the outputs, and an entry of the batch that no change of state writes. -/
theorem State.faultBatch_faults (cause : Nat) (hst : s.bstate b ≠ .fault) (hcmd : s.commands = true) :
    (s.faultBatch b 0 cause).bstate b = .fault ∧ ((s.faultBatch b 0 cause).batch b).outOn = false ∧
    ∀ a < 256, (0xB, a) ∉ stateEntries → (s.faultBatch b 0 cause).rd (bk 0xB a b) = s.rd (bk 0xB a b) := by
  have heq : s.faultBatch b 0 cause =
      ((s.pulseBlock b).modBatch b (fun r => { r with cmd := none, stopping := false })).setState b .fault cause := by
    unfold State.faultBatch
    simp [hst, hcmd]
  have hblock (a : Nat) (ha : a < 256) (o : Nat) (ho : o < 0x20) := State.find?_batch_pulseBlock (batchKey_bk ho ha hb) b s
  rw [heq]
  refine ⟨State.bstate_setState hb cause ?_, ?_, fun a ha h => ?_⟩
  · exact (State.bstate_congr (s := s) (hblock 1 (by omega) 1 (by omega))) ▸ hst
  · rw [State.outOn_setState, State.modBatch, State.batch_setBatch_same]
    exact State.outOn_pulseBlock b s
  · refine State.rd_congr (ownDefault_bk (by omega) ha (by omega) (by omega)) ?_
    exact (State.find?_batch_setState (offList_of_not_mem (by decide) (by omega) ha h b b) (batchKey_bk (by omega) ha hb) _ _ _).trans
      (hblock a ha 0xB (by omega))

/-! ### Precharge (R157) -/

@[simp] theorem State.newWindow_od (b : Nat) (s : State) : (s.newWindow b).od = s.od := rfl

theorem State.rd_newWindow (b k : Nat) (s : State) : (s.newWindow b).rd k = s.rd k := by simp only [State.rd, State.newWindow_od]

theorem State.start_newWindow (b : Nat) (s : State) : ((s.newWindow b).batch b).win.start = s.now := by
  simp only [State.newWindow, State.modBatch, State.batch_setBatch_same]

theorem State.outOn_newWindow (b : Nat) (s : State) : ((s.newWindow b).batch b).outOn = (s.batch b).outOn := by
  simp only [State.newWindow, State.modBatch, State.batch_setBatch_same]

include hb in
/-- The change from Precharge to Starter leaves the batch's Starter status as it is. -/
theorem State.rdN_setState_starter (hst : s.bstate b = .precharge) (cause : Nat) :
    (s.setState b .starter cause).rdN (bk 0xB 0x11 b) = s.rdN (bk 0xB 0x11 b) := by
  have hne (o a : Nat) (ho : o < 0x20) (ha : a < 256) (h : o ≠ 0xB) : bk 0xB 0x11 b ≠ bk o a b :=
    bk_ne (by omega) ho (by omega) ha (.inl h.symm)
  rw [State.rdN, State.rdN]
  refine congrArg _ (State.rd_congr (ownDefault_bk (by omega) (by omega) (by omega) (by omega)) ?_)
  unfold State.setState
  lift_lets
  intro old s1 s2 s3
  have hold : old = .precharge := hst
  have h1 : s1.od = (s.wr (bk 0x15 5 b) 0).od := by simp only [s1, hold]; rfl
  have h3 : s3.od = s2.od := rfl
  rw [if_neg (by simp [hold]), State.find?_batch_logEvent (batchKey_bk (by omega) (by omega) hb), h3,
    State.find?_inc_ne (hne 1 4 (by omega) (by omega) (by omega)), State.find?_wr_ne (hne 1 1 (by omega) (by omega) (by omega)),
    State.find?_wr_ne (hne 1 2 (by omega) (by omega) (by omega)), h1, State.find?_wr_ne (hne 0x15 5 (by omega) (by omega) (by omega))]

theorem testBit_ready {n : Nat} (h : n.testBit 8 = true) : (1 + (n &&& 256)).testBit 8 = true := by
  have hand : n &&& 2 ^ 8 = 2 ^ 8 := by rw [Nat.and_two_pow, h]; rfl
  rw [show n &&& 256 = 256 from hand]
  decide

include hb in
/-- The Starter as it is entered: the outputs stay blocked, and the status keeps whether the DC link was ready. -/
theorem State.enterStarter_enters (hst : s.bstate b = .precharge) (hready : s.bit (bk 0xB 0x11 b) 8 = true) (cause : Nat) :
    (s.enterStarter b cause).bstate b = .starter ∧ (s.enterStarter b cause).bit (bk 0xB 0x11 b) 8 = true ∧
    ((s.enterStarter b cause).batch b).outOn = false := by
  have hne {o a o' a' : Nat} (ho : o < 0x20) (ha : a < 256) (ho' : o' < 0x20) (ha' : a' < 256) (h : o ≠ o' ∨ a ≠ a') : bk o a b ≠ bk o' a' b :=
    bk_ne ho ho' ha ha' (by omega)
  unfold State.enterStarter
  lift_lets
  intro s1 s2
  have hs1 : s1.rdN (bk 0xB 0x11 b) = s.rdN (bk 0xB 0x11 b) :=
    (State.rdN_wr_ne (hne (by omega) (by omega) (by omega) (by omega) (.inr (by omega))) (ownDefault_bk (by omega) (by omega) (by omega) (by omega)) _ _).trans
      (State.rdN_setState_starter hb hst cause)
  have hod : (s2.newWindow b).od = s1.od := State.newWindow_od b s2
  have hs2 : s2.rdN (bk 0xB 0x11 b) = s1.rdN (bk 0xB 0x11 b) := rfl
  have hst1 : s1.bstate b = .starter :=
    (State.bstate_congr (State.find?_inc_ne (hne (by omega) (by omega) (by omega) (by omega) (.inl (by omega))) _ _)).trans
      (State.bstate_setState hb cause (by rw [hst]; decide))
  have hst2 : (s2.newWindow b).bstate b = s1.bstate b := State.bstate_congr (by rw [hod])
  have hout : ((s2.newWindow b).batch b).outOn = false :=
    (State.outOn_newWindow b s2).trans (congrArg BatchRec.outOn (State.batch_setBatch_same b _ s1))
  refine ⟨?_, ?_, by rw [State.batch_wr]; exact hout⟩
  · exact (State.bstate_congr (State.find?_wr_ne (hne (by omega) (by omega) (by omega) (by omega) (.inl (by omega))) _ _)).trans (hst2.trans hst1)
  · rw [State.bit, State.rdN_wr_same, Int.toNat_natCast, hs2, hs1]
    exact testBit_ready hready

include hb in
theorem State.dcReady_starts {x : Time} (hst : s.bstate b = .precharge) (hdc : s.dcLevel b ≠ none) (hsince : (s.batch b).dcSince = some x)
    (hdue : x + Time.ms 10 ≤ s.now) (hok : s.prestartOk b = true) :
    s.dcReady b = (s.setBit (bk 0xB 0x11 b) 8 true).enterStarter b 1 := by
  have hk : BatchKey (bk 0xB 0x11 b) := batchKey_bk (by omega) (by omega) hb
  have hok' : (s.setBit (bk 0xB 0x11 b) 8 true).prestartOk b = true := (State.prestartOk_wr_batch hk _ s b).trans hok
  obtain ⟨v, hv⟩ := Option.ne_none_iff_exists'.mp hdc
  unfold State.dcReady
  simp only [hst, hv, hsince, hdue, hok', bne_self_eq_false, Bool.false_eq_true, if_false, if_true]

/-! ### The Starter's windows (R158, R159, R165) -/

/-- The status of a window that ended dark: not live, lost, no wrong sequence. -/
def State.windowDark (b : Nat) (s : State) : State :=
  ((s.setBit (bk 0xB 0x11 b) 1 false).setBit (bk 0xB 0x11 b) 3 true).setBit (bk 0xB 0x11 b) 5 false

theorem State.rd_windowDark {j : Nat} (hne : j ≠ bk 0xB 0x11 b) (hown : OwnDefault j) : (s.windowDark b).rd j = s.rd j := by
  rw [State.windowDark, State.rd_setBit_ne hne hown, State.rd_setBit_ne hne hown, State.rd_setBit_ne hne hown]

theorem State.rdN_windowDark {j : Nat} (hne : j ≠ bk 0xB 0x11 b) (hown : OwnDefault j) : (s.windowDark b).rdN j = s.rdN j := by
  rw [State.rdN, State.rd_windowDark hne hown, State.rdN]

theorem State.rdN_setBit_ne {j k : Nat} (hne : j ≠ k) (hown : OwnDefault j) (i : Nat) (v : Bool) (s : State) : (s.setBit k i v).rdN j = s.rdN j :=
  State.rdN_wr_ne hne hown _ s

/-- The status shows a window that was not live and is lost. -/
def State.windowLost (b : Nat) (s : State) : State := (s.setBit (bk 0xB 0x11 b) 1 false).setBit (bk 0xB 0x11 b) 3 true

include hb in
/-- A window that ends dark, of a batch that is not to start on a dead bus or whose module is not Running: the wait limit of a running module ends
the Starter, and everything else starts a new window. -/
theorem State.windowEnd_dark (hst : s.bstate b = .starter) (hdue : s.rdN (bk 0xB 0xD b) ≠ 2 ∨ s.mod ≠ .running) :
    s.windowEnd b false = if (s.windowDark b).waitOver b && s.mod == .running then (((s.windowDark b).outcome b 9).pulseBlock b).setState b .off 0x49
      else ((s.windowDark b).outcome b 4).newWindow b := by
  have hk : BatchKey (bk 0xB 0x11 b) := batchKey_bk (by omega) (by omega) hb
  have hrole : (s.windowLost b).rdN (bk 0xB 0xD b) = s.rdN (bk 0xB 0xD b) := by
    have hne : bk 0xB 0xD b ≠ bk 0xB 0x11 b := bk_ne (by omega) (by omega) (by omega) (by omega) (by omega)
    have hown := ownDefault_bk (b := b) (o := 0xB) (a := 0xD) (by omega) (by omega) (by omega) (by omega)
    rw [State.windowLost, State.rdN_setBit_ne hne hown, State.rdN_setBit_ne hne hown]
  have hmod : (s.windowLost b).mod = s.mod := (State.mod_wr_batch hk _ _).trans (State.mod_wr_batch hk _ _)
  have hmay : s.mod ≠ .running → (s.windowLost b).mayEnable = false := fun h => by simp [State.mayEnable, hmod, h]
  have hstate : (s.windowDark b).bstate b = .starter := by
    rw [State.bstate, State.rdN_windowDark (bk_ne (by omega) (by omega) (by omega) (by omega) (by omega))
      (ownDefault_bk (by omega) (by omega) (by omega) (by omega)), ← State.bstate, hst]
  unfold State.windowEnd
  simp only [Bool.false_and, Bool.not_false, Bool.false_eq_true, if_false, Bool.true_and, Bool.or_false]
  rw [show (s.setBit (bk 0xB 0x11 b) 1 false).setBit (bk 0xB 0x11 b) 3 true = s.windowLost b from rfl,
    show (s.windowLost b).setBit (bk 0xB 0x11 b) 5 false = s.windowDark b from rfl, hrole, hmod]
  rcases hdue with hdue | hdue
  · simp only [hdue, decide_false, Bool.and_false, Bool.false_and, Bool.false_eq_true, if_false, hstate, bne_self_eq_false]
  · simp only [hmay hdue, Bool.and_false, Bool.false_and, Bool.false_eq_true, if_false, hstate, bne_self_eq_false]

theorem State.bstate_windowDark : (s.windowDark b).bstate b = s.bstate b := by
  rw [State.bstate, State.rdN_windowDark (bk_ne (by omega) (by omega) (by omega) (by omega) (by omega))
    (ownDefault_bk (by omega) (by omega) (by omega) (by omega)), ← State.bstate]

theorem State.waitOver_windowDark : (s.windowDark b).waitOver b = s.waitOver b := by
  unfold State.waitOver
  rw [State.rdN_windowDark (bk_ne (by omega) (by omega) (by omega) (by omega) (by omega))
    (ownDefault_bk (by omega) (by omega) (by omega) (by omega))]
  rfl

/-- Outcome 4: the batch stays in Starter and observes anew. -/
theorem State.newWindow_outcome (hst : s.bstate b = .starter) : (((s.windowDark b).outcome b 4).newWindow b).bstate b = .starter ∧
    (((s.windowDark b).outcome b 4).newWindow b).rd (bk 0xB 0x19 b) = 4 ∧
    ((((s.windowDark b).outcome b 4).newWindow b).batch b).win.start = s.now := by
  refine ⟨?_, (State.rd_newWindow _ _ _).trans (State.rd_wr_same _ _ _), ?_⟩
  · refine (State.bstate_congr (s := s.windowDark b) ?_).trans (State.bstate_windowDark.trans hst)
    rw [State.newWindow_od]
    exact State.find?_wr_ne (bk_ne (by omega) (by omega) (by omega) (by omega) (.inl (by omega))) _ _
  · rw [State.start_newWindow, State.outcome, State.wr_now, State.windowDark]
    rfl

include hb in
/-- Outcome 9: the batch is Off. -/
theorem State.off_outcome (hst : s.bstate b = .starter) :
    ((((s.windowDark b).outcome b 9).pulseBlock b).setState b .off 0x49).bstate b = .off ∧
    ((((s.windowDark b).outcome b 9).pulseBlock b).setState b .off 0x49).rd (bk 0xB 0x19 b) = 9 := by
  have hstate : (((s.windowDark b).outcome b 9).pulseBlock b).bstate b = .starter :=
    (State.bstate_congr (State.find?_batch_pulseBlock (batchKey_bk (by omega) (by omega) hb) b _)).trans
      ((State.bstate_congr (State.find?_wr_ne (bk_ne (by omega) (by omega) (by omega) (by omega) (.inl (by omega))) _ _)).trans
        (State.bstate_windowDark.trans hst))
  refine ⟨State.bstate_setState hb _ (by rw [hstate]; decide), ?_⟩
  have hk : BatchKey (bk 0xB 0x19 b) := batchKey_bk (by omega) (by omega) hb
  refine (State.rd_congr (ownDefault_bk (by omega) (by omega) (by omega) (by omega)) ?_).trans (State.rd_wr_same (bk 0xB 0x19 b) 9 (s.windowDark b))
  exact (State.find?_batch_setState (offList_of_not_mem (by decide) (by omega) (by omega) (by decide) b b) hk _ _ _).trans
    (State.find?_batch_pulseBlock hk b _)

/-! ### The dead bus and the time limits (R157, R161, R169) -/

theorem State.tai_wr (k : Nat) (v : Int) (s : State) : (s.wr k v).tai = s.tai := rfl

theorem State.tai_logEvent (code inst : Nat) (data : List Byte) (s : State) : (s.logEvent code inst data).tai = s.tai := by
  simp only [State.tai, State.modTime, State.logEvent_now, State.logEvent_clock]

include hb in
theorem State.declareDead_declares {x : Time} (hst : s.bstate b = .starter) (hbit : s.bit (bk 0xB 0x11 b) 2 = false)
    (hchains : ∀ c ∈ s.busChains b, c < 80) (hbelow : (s.batch b).win.belowSince = some x) (hlow : s.busMax b < fval (s.rdF (bk 0xB 7 b)))
    (hdue : x + Time.ms (s.rdN (bk 0xB 8 b)) ≤ s.now) :
    (s.declareDead b).bit (bk 0xB 0x11 b) 2 = true ∧ (s.declareDead b).rd (bk 0xB 0x15 b) = (s.declareDead b).tai := by
  have hall : (s.busChains b).all (· < 80) = true := List.all_eq_true.mpr (fun c hc => decide_eq_true (hchains c hc))
  have heq : s.declareDead b = ((s.setBit (bk 0xB 0x11 b) 2 true).wr (bk 0xB 0x15 b) s.tai).logEvent 0x0106 b [] := by
    unfold State.declareDead
    simp only [hbelow, hst, hbit, hall, hlow, hdue, decide_true, Bool.and_self, Bool.not_false, beq_self_eq_true, if_true]
  have hlt (a : Nat) (ha : a < 256) : bk 0xB a b < key 0x7000 0 := by simp only [bk, key]; omega
  have hown (a : Nat) (ha : a < 256) : OwnDefault (bk 0xB a b) := ownDefault_bk (by omega) ha (by omega) (by omega)
  have htai : (s.declareDead b).tai = s.tai := by
    rw [heq, State.tai_logEvent, State.tai_wr, State.setBit, State.tai_wr]
  rw [htai, heq, State.rd_logEvent (hlt _ (by omega)) (hown _ (by omega)), State.rd_wr_same, State.bit, State.rdN,
    State.rd_logEvent (hlt _ (by omega)) (hown _ (by omega)), ← State.rdN,
    State.rdN_wr_ne (bk_ne (by omega) (by omega) (by omega) (by omega) (by omega)) (hown _ (by omega)), ← State.bit]
  exact ⟨State.bit_setBit_same _ _ _ _, rfl⟩

include hb in
theorem State.prechargeLimit_faults (hst : s.bstate b = .precharge) (hdue : (s.batch b).preSince + Time.ms (s.rdN (bk 0xB 0xC b)) ≤ s.now)
    (hcmd : s.commands = true) : (s.prechargeLimit b).bstate b = .fault ∧ (s.prechargeLimit b).rd (bk 0xB 0x19 b) = 0xA ∧
      ((s.prechargeLimit b).batch b).outOn = false := by
  have heq : s.prechargeLimit b = (s.outcome b 0xA).faultBatch b 0 0x8A := by
    unfold State.prechargeLimit
    simp only [hst, hdue, decide_true, beq_self_eq_true, Bool.and_self, if_true]
  have hk : BatchKey (bk 0xB 0x19 b) := batchKey_bk (by omega) (by omega) hb
  have hst' : (s.outcome b 0xA).bstate b = .precharge :=
    (State.bstate_congr (State.find?_wr_ne (bk_ne (by omega) (by omega) (by omega) (by omega) (.inl (by omega))) _ _)).trans hst
  obtain ⟨hstate, hout, hrd⟩ := State.faultBatch_faults (s := s.outcome b 0xA) hb 0x8A (by rw [hst']; decide)
    ((State.commands_wr_batch hk _ s).trans hcmd)
  rw [heq]
  exact ⟨hstate, (hrd 0x19 (by omega) (by decide)).trans (State.rd_wr_same _ _ s), hout⟩

include hb in
theorem State.blackLimit_faults (hst : s.bstate b = .blackStart) (hdue : (s.batch b).since + Time.ms (s.rdN (bk 0xB 0x10 b)) ≤ s.now)
    (hcmd : s.commands = true) : (s.blackLimit b).bstate b = .fault ∧ (s.blackLimit b).rd (bk 0xB 0x19 b) = 7 := by
  have hk (a : Nat) (ha : a < 256) : BatchKey (bk 0xB a b) := batchKey_bk (by omega) ha hb
  have hne (a : Nat) (ha : a < 256) : bk 1 1 b ≠ bk 0xB a b := bk_ne (by omega) (by omega) (by omega) ha (.inl (by omega))
  unfold State.blackLimit
  simp only [hst, hdue, decide_true, beq_self_eq_true, Bool.and_self, if_true]
  generalize (df _ ++ df (fofRat (s.busMax b))) = data
  have hlog : (s.logEvent 0x0108 b data).bstate b = .blackStart :=
    (State.bstate_congr (State.find?_batch_logEvent (batchKey_bk (by omega) (by omega) hb) _ _ _ s)).trans hst
  have hst' : (((s.logEvent 0x0108 b data).outcome b 7).inc (bk 0xB 0x18 b)).bstate b = .blackStart :=
    (State.bstate_congr (State.find?_inc_ne (hne _ (by omega)) _ _)).trans
      ((State.bstate_congr (State.find?_wr_ne (hne _ (by omega)) _ _)).trans hlog)
  have hcmd' : (((s.logEvent 0x0108 b data).outcome b 7).inc (bk 0xB 0x18 b)).commands = true :=
    (State.commands_wr_batch (hk _ (by omega)) _ _).trans ((State.commands_wr_batch (hk _ (by omega)) _ _).trans
      ((State.commands_logEvent _ _ _ s).trans hcmd))
  obtain ⟨hstate, -, hrd⟩ := State.faultBatch_faults hb 0x87 (by rw [hst']; decide) hcmd'
  refine ⟨hstate, (hrd 0x19 (by omega) (by decide)).trans ?_⟩
  rw [State.inc, State.rd_wr_ne (bk_ne (by omega) (by omega) (by omega) (by omega) (by omega))
    (ownDefault_bk (by omega) (by omega) (by omega) (by omega)), State.outcome, State.rd_wr_same]
  rfl

end

/-- Settles O21: what ends Precharge, each window of the Starter, and the black start. -/
theorem starterCommandsComplete : Obligations.StarterCommandsComplete := by
  unfold Obligations.StarterCommandsComplete
  refine ⟨fun t b s x hst hdc hsince hdue hok => ⟨_, rfl, ?ready⟩,
    fun t b s hst hdue hcmd => ⟨_, rfl, State.prechargeLimit_faults (s := s.begin t) b.isLt hst hdue hcmd⟩,
    fun t b s hst hout hrole hwait => ⟨_, rfl, ?timeout⟩,
    fun t b s x hst hbit hchains hbelow hlow hdue => ⟨_, rfl, State.declareDead_declares (s := s.begin t) b.isLt hst hbit hchains hbelow hlow hdue⟩,
    fun t b s hst hwait hfull => ⟨fun hmod hrole => ⟨_, rfl, ?off⟩, fun hmod => ⟨_, rfl, ?stays⟩⟩,
    fun t b s hst hdue hcmd => ⟨_, rfl, State.blackLimit_faults (s := s.begin t) b.isLt hst hdue hcmd⟩⟩
  case ready =>
    have hk : BatchKey (bk 0xB 0x11 b) := batchKey_bk (by omega) (by omega) b.isLt
    rw [State.dcReady_starts (s := s.begin t) b.isLt hst hdc hsince hdue hok]
    refine State.enterStarter_enters b.isLt ?_ (State.bit_setBit_same _ _ _ _) 1
    exact (State.bstate_congr (State.find?_setBit_ne (bk_ne (by omega) (by omega) (by omega) (by omega) (.inl (by omega))) _ _ _)).trans hst
  case timeout =>
    have heq : (s.begin t).windowTimeout b = (s.begin t).windowEnd b false := by
      rw [State.windowTimeout, if_pos (by simp [show (s.begin t).bstate b = .starter from hst, hout])]
    rw [heq, State.windowEnd_dark (s := s.begin t) b.isLt hst (.inl hrole), State.waitOver_windowDark, hwait]
    exact State.newWindow_outcome (s := s.begin t) hst
  all_goals
    have heq : (s.begin t).waitLimit b = (s.begin t).windowEnd b false := by
      rw [State.waitLimit, if_pos (by simp [show (s.begin t).bstate b = .starter from hst, hwait, hfull])]
  case off =>
    rw [heq, State.windowEnd_dark (s := s.begin t) b.isLt hst (.inl hrole), State.waitOver_windowDark, hwait,
      show (s.begin t).mod = .running from hmod]
    exact State.off_outcome (s := s.begin t) b.isLt hst
  case stays =>
    have hmod' : ((s.begin t).mod == .running) = false := beq_false_of_ne hmod
    rw [heq, State.windowEnd_dark (s := s.begin t) b.isLt hst (.inr hmod), hmod', Bool.and_false]
    obtain ⟨hstate, hshow, -⟩ := State.newWindow_outcome (s := s.begin t) hst
    exact ⟨hstate, hshow⟩

end Sys2Proof.Machine
end

section
/-! Dictionary jobs (R64): the job of a forwarded write that is itself carried out as a job queues it on the same batch, which refutes O22. -/

namespace Sys2Proof.Machine

-- The kernel's evaluations run one after the other: side by side they would need too much memory.
set_option Elab.async false

/-- A forwarded write of the target of generator 5. -/
def targetJob : Job := .entry 0x6605 2 0 [0, 0, 0, 0]

def targetReq : Req := { role := .safety, servicePort := true, sid := 0 }

/-- Batch 0 owns generator 5, runs no cycle, and has that write as its one job. -/
def forwardedTarget : State := (State.reset.wr (key (0x6600 + 5) 1) 0).setBatch 0 { jobs := [(targetJob, targetReq)] }

theorem forwardedTarget_jobs : (forwardedTarget.batch 0).jobs = [(targetJob, targetReq)] :=
  congrArg BatchRec.jobs (State.batch_setBatch_same 0 _ _)

/-- That job leaves another one behind it. -/
theorem forwardedTarget_queues : (((forwardedTarget.begin 0).dictionaryJob 0).batch 0).jobs ≠ [] := by decide +kernel

/-- Refutes O22: the jobs of the batch after its one job has run are not the rest of them. -/
theorem not_bankWritesWaitAndJobsRun : ¬ Obligations.BankWritesWaitAndJobsRun := by
  unfold Obligations.BankWritesWaitAndJobsRun
  rintro ⟨hjob, -⟩
  obtain ⟨u, hu, hrest, -⟩ := hjob 0 0 forwardedTarget targetJob targetReq [] (by decide +kernel) forwardedTarget_jobs
  refine forwardedTarget_queues ?_
  rw [show (forwardedTarget.begin 0).dictionaryJob 0 = u from Host.Outcome.next.inj hu]
  exact hrest

end Sys2Proof.Machine
end

section
/-! Generator commands (R64, R88): each of them waits as a job of the generator's batch or takes effect at once, with which O23 is settled. -/

namespace Sys2Proof.Machine

/-! ### The peak occupancy of a queue -/

theorem servingQueue_lt {b q : Nat} {s : State} (h : s.servingQueue b = some q) : q < 32 := List.mem_range.mp (List.mem_of_find?_eq_some h)

/-- The peak occupancy is kept at subindex 6 of a queue's object. -/
theorem State.find?_notePeak {k : Nat} (hk : ∀ q < 32, k ≠ key (0x6500 + q) 6) (b : Nat) (s : State) :
    Tbl.find? k (s.notePeak b).od = Tbl.find? k s.od := by
  unfold State.notePeak
  split
  case h_1 => rfl
  case h_2 q hq => exact State.same_ite (fun s => Tbl.find? k s.od) (State.find?_wr_ne (hk q (servingQueue_lt hq)) s _) rfl

@[simp] theorem State.notePeak_batches (b : Nat) (s : State) : (s.notePeak b).batches = s.batches := by
  unfold State.notePeak
  split
  · rfl
  · exact State.same_ite State.batches rfl rfl

@[simp] theorem State.notePeak_gens (b : Nat) (s : State) : (s.notePeak b).gens = s.gens := by
  unfold State.notePeak
  split
  · rfl
  · exact State.same_ite State.gens rfl rfl

/-! ### A job waits or is carried out -/

section
variable {b : Nat} {q : Req} {j : Job} {s : State}

theorem State.job_waits (hb : b < 32) :
    s.job b q j = (s.modBatch b (fun r => { r with jobs := r.jobs ++ [(j, q)] })).notePeak b := by
  unfold State.job
  rw [if_pos hb]

theorem State.jobs_job (hb : b < 32) : ((s.job b q j).batch b).jobs = (s.batch b).jobs ++ [(j, q)] := by
  rw [State.job_waits hb, State.batch, State.notePeak_batches, ← State.batch, State.modBatch, State.batch_setBatch_same]

theorem State.gens_job (hb : b < 32) : (s.job b q j).gens = s.gens := by
  rw [State.job_waits hb, State.notePeak_gens]
  rfl

theorem State.find?_job (hb : b < 32) {k : Nat} (hk : ∀ q < 32, k ≠ key (0x6500 + q) 6) : Tbl.find? k (s.job b q j).od = Tbl.find? k s.od := by
  rw [State.job_waits hb, State.find?_notePeak hk]
  rfl

theorem State.job_runs (hb : 32 ≤ b) : s.job b q j = (s.runJob b j).1.answer (s.runJob b j).2 := by
  unfold State.job
  rw [if_neg (by omega)]

end

/-! ### What the commands do to a generator -/

section
variable {g : Nat} {s : State}

theorem ownDefault_gen (hg : g < 64) (a : Nat) (ha : a < 256) : OwnDefault (key (0x6600 + g) a) := by
  simp only [OwnDefault, key]
  omega

theorem gen_ne {a a' : Nat} (h : a ≠ a') : key (0x6600 + g) a ≠ key (0x6600 + g) a' := by
  simp only [key]
  omega

theorem gen_ne_peak (hg : g < 64) {a : Nat} (ha : a < 256) : ∀ q < 32, key (0x6600 + g) a ≠ key (0x6500 + q) 6 := by
  intro q hq
  simp only [key]
  omega

theorem State.rd_gen_wr (hg : g < 64) {a a' : Nat} (ha : a < 256) (h : a ≠ a') (v : Int) (s : State) :
    (s.wr (key (0x6600 + g) a') v).rd (key (0x6600 + g) a) = s.rd (key (0x6600 + g) a) :=
  State.rd_wr_ne (gen_ne h) (ownDefault_gen hg a ha) v s

theorem State.rd_useTarget (hg : g < 64) {a : Nat} (ha : a < 256) (h : a ≠ 0xE) (v : F32) (s : State) :
    (s.useTarget g v).rd (key (0x6600 + g) a) = s.rd (key (0x6600 + g) a) := by
  rw [State.useTarget, State.inc, State.rd_gen_wr hg ha h]
  rfl

/-- A target write of the host stores the target. -/
theorem State.rdF_hostTarget (hg : g < 64) (v : F32) : (s.hostTarget g v).rdF (key (0x6600 + g) 2) = v := by
  unfold State.hostTarget
  lift_lets
  intro u r
  have hstored : u.rd (key (0x6600 + g) 2) = v.toNat := by
    rw [State.rd_gen_wr hg (by omega) (by omega), State.wrF, State.rd_wr_same]
  have hused : (if r.holding || r.drive.isSome then u else u.useTarget g v).rd (key (0x6600 + g) 2) = u.rd (key (0x6600 + g) 2) :=
    State.same_ite (fun u => u.rd (key (0x6600 + g) 2)) rfl (State.rd_useTarget hg (by omega) (by omega) v u)
  rw [State.rdF, State.rdN, hused, hstored, Int.toNat_natCast]
  simp

/-- A hold: the present position is the target in use, but where the module drives the generator. -/
theorem State.gen_genHold : ((s.genHold g).gen g).holding = true ∧
    ((s.genHold g).gen g).target = if (s.gen g).drive.isSome then (s.gen g).target else s.rdF (genX g) := by
  unfold State.genHold
  dsimp only
  have hset (r : GenSlot) (u : State) : ((u.setGen g r).setBit (key (0x6600 + g) 0xC) 2 true).gen g = r := State.gen_setGen_same g r u
  rw [hset]
  refine ⟨rfl, ?_⟩
  split <;> rfl

/-- A release: the stored target is in use again, but where the module drives the generator. -/
theorem State.gen_genRelease (hg : g < 64) : ((s.genRelease g).gen g).holding = false ∧
    ((s.gen g).drive = none → ((s.genRelease g).gen g).target = s.rdF (key (0x6600 + g) 2)) := by
  have hset (r : GenSlot) (u : State) : ((u.setGen g r).setBit (key (0x6600 + g) 0xC) 2 false).gen g = r := State.gen_setGen_same g r u
  have huse (v : F32) (u : State) : ((u.useTarget g v).gen g).holding = (u.gen g).holding ∧ ((u.useTarget g v).gen g).target = v := by
    have := State.gen_setGen_same g { (u.gen g) with target := v, dir := u.genDir g v } u
    exact ⟨(congrArg GenSlot.holding this).trans rfl, (congrArg GenSlot.target this).trans rfl⟩
  unfold State.genRelease
  lift_lets
  intro r u
  have hu : u.gen g = { r with holding := false } := hset _ s
  have hstored : u.rdF (key (0x6600 + g) 2) = s.rdF (key (0x6600 + g) 2) := by
    rw [State.rdF, State.rdN]
    exact congrArg _ (congrArg _ (State.rd_gen_wr hg (by omega) (by omega) _ _))
  by_cases hdrive : r.drive.isSome = true
  · rw [if_pos hdrive, hu]
    exact ⟨rfl, fun h => by simp [r, h] at hdrive⟩
  · rw [if_neg hdrive]
    obtain ⟨hhold, htarget⟩ := huse (u.rdF (key (0x6600 + g) 2)) u
    exact ⟨hhold.trans (by rw [hu]), fun _ => htarget.trans hstored⟩

/-- A preset: the position, with rate and acceleration zero. -/
theorem State.rdF_presetTo (hg : g < 64) (x : F32) : (s.presetTo g x).rdF (genX g) = x ∧ (s.presetTo g x).rdF (genV g) = 0 ∧
    (s.presetTo g x).rdF (genA g) = 0 := by
  have hod : (s.presetTo g x).od = (((s.wrF (genX g) x).wrF (genV g) 0).wrF (genA g) 0).od := rfl
  have hrd (k : Nat) : (s.presetTo g x).rdF k = (((s.wrF (genX g) x).wrF (genV g) 0).wrF (genA g) 0).rdF k := by
    simp only [State.rdF, State.rdN, State.rd, hod]
  have hx : genX g = key (0x6600 + g) 7 := rfl
  have hv : genV g = key (0x6600 + g) 8 := rfl
  have ha : genA g = key (0x6600 + g) 9 := rfl
  have hkeep {a a' : Nat} (h256 : a < 256) (h : a ≠ a') (v : F32) (u : State) :
      (u.wrF (key (0x6600 + g) a') v).rdF (key (0x6600 + g) a) = u.rdF (key (0x6600 + g) a) := by
    rw [State.rdF, State.rdN, State.wrF, State.rd_gen_wr hg h256 h, State.rdF, State.rdN]
  refine ⟨?_, ?_, ?_⟩ <;> rw [hrd]
  · rw [hx, ha, hv, hkeep (by omega) (by omega), hkeep (by omega) (by omega), State.rdF_wrF_same]
  · rw [ha, hv, hkeep (by omega) (by omega), State.rdF_wrF_same]
  · exact State.rdF_wrF_same _ _ _

end

/-! ### The writes of the host -/

theorem needs_of_true {c : Bool} (h : c = true) (code : Nat) : needs c code = 0 := if_pos h

theorem needs_of_false {c : Bool} (h : c = false) (code : Nat) : needs c code = code := if_neg (by simp [h])

section
variable {q : Req} {g : GenNo} {s : State} {index sub : Nat} {v : Int} {e : Eff} (hs : s.Serves) (hpass : s.Passes q index sub 0 v)
include hs hpass

/-- A write whose effect is a job of a batch: the job waits behind the others, and no generator changes. -/
theorem State.hostWrite_waits {b : Nat} {j : Job} (hb : b < 32) (hown : e.own (s.handling q.sid) = 0) (hrep : e.replies = false)
    (heff : e.eff (s.handling q.sid) = (s.handling q.sid).job b q j) :
    ((s.hostWrite q index sub 0 v e).batch b).jobs = (s.batch b).jobs ++ [(j, q)] ∧ (s.hostWrite q index sub 0 v e).gens = s.gens ∧
    ∀ k, OwnDefault k → (∀ q < 32, k ≠ key (0x6500 + q) 6) → (s.hostWrite q index sub 0 v e).rd k = s.rd k := by
  rw [State.hostWrite_own hs hpass hown hrep, heff]
  refine ⟨?_, ?_, fun k hk hne => ?_⟩
  · rw [State.batch_longBy, State.jobs_job hb, State.batch_handling]
  · rw [State.longBy_gens, State.gens_job hb, State.handling_gens]
  · rw [State.rd_longBy]
    exact State.rd_congr hk ((State.find?_job hb hne).trans rfl)

/-- A write whose effect is a job of no batch: it is carried out at once. -/
theorem State.hostWrite_runs {b : Nat} {j : Job} (hb : 32 ≤ b) (hown : e.own (s.handling q.sid) = 0) (hrep : e.replies = false)
    (heff : e.eff (s.handling q.sid) = (s.handling q.sid).job b q j) :
    s.hostWrite q index sub 0 v e = (((s.handling q.sid).runJob b j).1.answer ((s.handling q.sid).runJob b j).2).longBy q 0 := by
  rw [State.hostWrite_own hs hpass hown hrep, heff, State.job_runs hb]

/-- A write that a condition of its own refuses: it is answered, and nothing beside the server changes. -/
theorem State.hostWrite_refused {c : Nat} (hown : e.own (s.handling q.sid) = c) (hc : c ≠ 0) :
    (s.hostWrite q index sub 0 v e).batches = s.batches ∧ (s.hostWrite q index sub 0 v e).gens = s.gens ∧
    (s.hostWrite q index sub 0 v e).od = s.od ∧ (s.hostWrite q index sub 0 v e).Answered c := by
  rw [State.hostWrite_fails hs hpass hown hc]
  exact ⟨by simp, by simp, by simp, State.answered_answer_longBy _ _ _ _⟩

end

/-- The condition of a target write: no black-start ramp takes a target in BlackStart. -/
theorem targetEff_own {q : Req} {g : Nat} {v : Int} {s : State} : (targetEff q g v).own s =
    if s.rdN (key (0x6600 + g) 1) < 32 ∧ s.bstate (s.rdN (key (0x6600 + g) 1)) = .blackStart ∧
      ∃ r, s.recipe (s.rdN (key (0x6600 + g) 1)) = some r ∧ g ∈ r.ramps then 0x0B000042 else 0 := by
  have hramp : ((s.recipe (s.rdN (key (0x6600 + g) 1))).map (fun r => r.ramps.contains g)).getD false = true ↔
      ∃ r, s.recipe (s.rdN (key (0x6600 + g) 1)) = some r ∧ g ∈ r.ramps := by
    cases s.recipe (s.rdN (key (0x6600 + g) 1)) <;> simp
  simp only [targetEff, needs, Bool.not_eq_true', ← hramp]
  split <;> split <;> simp_all

/-- Settles O23: the target write, and the three commands, as a job of a batch or at once. -/
theorem generatorCommandsComplete : Obligations.GeneratorCommandsComplete := by
  unfold Obligations.GeneratorCommandsComplete
  refine ⟨fun t q g v s hs hpass => ⟨fun hown => ⟨fun hramp => ⟨_, rfl, ?waits⟩, fun hst hramp => ⟨_, rfl, ?ramp⟩⟩, fun hnone => ⟨_, rfl, ?atOnce⟩⟩,
    fun t q g s c i hi hs hpass hfree hown => ?commandWaits,
    fun t q g s hs hnone => ⟨fun hpass => ⟨_, rfl, ?hold⟩, fun hpass => ⟨_, rfl, ?release⟩, fun hpass => ⟨_, rfl, ?preset⟩⟩,
    fun t q g s hs hpass hown hout => ⟨_, rfl, ?busy⟩⟩
  case waits =>
    have hno : (targetEff q g v.toNat).own ((s.begin t).handling q.sid) = 0 := by
      rw [targetEff_own]
      refine if_neg (fun ⟨_, hst, r, hr, hmem⟩ => ?_)
      exact hramp.elim (fun h => h hst) (fun h => h r hr hmem)
    obtain ⟨hjobs, -, hrd⟩ := State.hostWrite_waits (s := s.begin t) hs hpass (j := .target g (BitVec.ofNat 32 (v.toNat : Int).toNat)) hown hno rfl rfl
    rw [Int.toNat_natCast, BitVec.ofNat_toNat, BitVec.setWidth_eq] at hjobs
    exact ⟨hjobs, hrd _ (ownDefault_gen g.isLt 2 (by omega)) (gen_ne_peak g.isLt (by omega))⟩
  case ramp =>
    have hyes : (targetEff q g v.toNat).own ((s.begin t).handling q.sid) = 0x0B000042 := by
      rw [targetEff_own]
      exact if_pos ⟨hown, hst, hramp⟩
    obtain ⟨hbatches, hgens, hod, hanswer⟩ := State.hostWrite_refused (s := s.begin t) hs hpass hyes (by omega)
    exact ⟨hbatches, hgens, by simp only [State.rd, hod, State.begin_od], hanswer⟩
  case atOnce =>
    have hno : (targetEff q g v.toNat).own ((s.begin t).handling q.sid) = 0 := by
      rw [targetEff_own]
      exact if_neg (fun ⟨hlt, _⟩ => absurd hlt (not_lt.mpr hnone))
    rw [State.hostWrite_runs (s := s.begin t) hs hpass (j := .target g (BitVec.ofNat 32 (v.toNat : Int).toNat)) hnone hno rfl rfl,
      Int.toNat_natCast, BitVec.ofNat_toNat, BitVec.setWidth_eq]
    refine ⟨?_, State.answered_answer_longBy _ _ _ _⟩
    rw [State.rdF_longBy, State.rdF_answer]
    exact State.rdF_hostTarget g.isLt v
  case commandWaits =>
    simp only [List.mem_cons, Prod.mk.injEq, List.not_mem_nil, or_false] at hi
    have hwaits (hno : (genCmdEff q g c).own ((s.begin t).handling q.sid) = 0) := by
      have h := State.hostWrite_waits (s := s.begin t) hs hpass (e := genCmdEff q g c)
        (j := .command g (c : Int).toNat (s.rdF (key (0x6600 + g) 0xB))) hown hno rfl rfl
      rw [Int.toNat_natCast] at h
      exact h
    have hno (h : c = 3 → s.genOutOn g = false) : (genCmdEff q g c).own ((s.begin t).handling q.sid) = 0 := by
      refine needs_of_true ?_ _
      rw [Bool.not_eq_true', Bool.and_eq_false_iff, beq_eq_false_iff_ne]
      by_cases hc : c = 3
      · exact .inr (h hc)
      · exact .inl (by exact_mod_cast hc)
    obtain ⟨hjobs, hgens, -⟩ := hwaits (hno hfree)
    rcases hi with ⟨rfl, rfl⟩ | ⟨rfl, rfl⟩ | ⟨rfl, rfl⟩ <;> exact ⟨_, rfl, hgens, hjobs⟩
  case hold =>
    rw [State.hostWrite_runs (s := s.begin t) hs hpass (b := s.rdN (key (0x6600 + g) 1))
      (j := .command g 1 (s.rdF (key (0x6600 + g) 0xB))) hnone rfl rfl rfl]
    obtain ⟨hhold, htarget⟩ := State.gen_genHold (g := g) (s := (s.begin t).handling q.sid)
    refine ⟨?_, State.answered_answer_longBy _ _ _ _, ?_⟩
    · rw [State.gen_longBy, State.gen_answer]
      exact hhold
    · rw [State.gen_longBy, State.gen_answer]
      exact htarget
  case release =>
    rw [State.hostWrite_runs (s := s.begin t) hs hpass (b := s.rdN (key (0x6600 + g) 1))
      (j := .command g 2 (s.rdF (key (0x6600 + g) 0xB))) hnone rfl rfl rfl]
    obtain ⟨hhold, htarget⟩ := State.gen_genRelease (g := g) (s := (s.begin t).handling q.sid) g.isLt
    refine ⟨?_, State.answered_answer_longBy _ _ _ _, ?_⟩
    · rw [State.gen_longBy, State.gen_answer]
      exact hhold
    · rw [State.gen_longBy, State.gen_answer]
      exact htarget
  case preset =>
    have hfree : ((s.begin t).handling q.sid).genOutOn g = false := by
      simp only [State.genOutOn, Bool.and_eq_false_iff, decide_eq_false_iff_not, not_lt]
      exact .inl hnone
    have hno : (genCmdEff q g 3).own ((s.begin t).handling q.sid) = 0 := needs_of_true (by rw [hfree]; rfl) _
    have hrun : ((s.begin t).handling q.sid).runJob (s.rdN (key (0x6600 + g) 1)) (.command g 3 (s.rdF (key (0x6600 + g) 0xB))) =
        (((s.begin t).handling q.sid).presetTo g (s.rdF (key (0x6600 + g) 0xB)), 0) := by
      rw [State.runJob, if_neg (by decide), if_neg (by decide), hfree]
      rfl
    rw [State.hostWrite_runs (s := s.begin t) hs hpass (b := s.rdN (key (0x6600 + g) 1))
      (j := .command g 3 (s.rdF (key (0x6600 + g) 0xB))) hnone hno rfl rfl, hrun]
    obtain ⟨hx, hv, ha⟩ := State.rdF_presetTo (s := (s.begin t).handling q.sid) g.isLt (s.rdF (key (0x6600 + g) 0xB))
    have hread (k : Nat) (u : State) : ((u.answer 0).longBy q 0).rdF k = u.rdF k := State.rdF_longBy q 0 _ k
    exact ⟨(hread _ _).trans hx, (hread _ _).trans hv, (hread _ _).trans ha, State.answered_answer_longBy _ _ _ _⟩
  case busy =>
    have hout' : ((s.begin t).handling q.sid).genOutOn g = true := by
      simp only [State.genOutOn, Bool.and_eq_true, decide_eq_true_eq]
      exact ⟨hown, hout⟩
    have hyes : (genCmdEff q g 3).own ((s.begin t).handling q.sid) = abBusy := needs_of_false (by rw [hout']; rfl) _
    obtain ⟨hbatches, -, hod, hanswer⟩ := State.hostWrite_refused (s := s.begin t) hs hpass hyes (by decide)
    exact ⟨hbatches, by simp only [State.rdF, State.rdN, State.rd, hod, State.begin_od], hanswer⟩

end Sys2Proof.Machine
end

section
/-! The load point of a link-routed channel (R188, R195): the takeover that falls on it may block the batch of a slice that has lost its spare, which
refutes O24. -/

namespace Sys2Proof.Machine

-- The kernel's evaluations run one after the other: side by side they would need too much memory.
set_option Elab.async false

/-- Channel 0 is link-routed and a member of batch 0. Its slice 0 waits for its retirement, which spare 256 is ready to take over, and shadows
slice 1 of batch 0, which waits for its own. -/
def retiringPair : State :=
  let s := ((State.reset.wr (key 0x2100 3) 2).wr (bk 3 1 0) 1).wr (chk 0 2) 3
  let s := ((s.wr (chk 0 1) 0).wr (chk 1 1) 0).setChan 0 { waiting := false }
  let s := s.setSlice 0 { state := .serving, channel := some 0, retireCause := some 1, shadows := some 1 }
  let s := s.setSlice 1 { state := .serving, channel := some 1, retireCause := some 1 }
  s.setSlice 256 { state := .shadowing, shadows := some 0 }

/-- One carrier period later slice 0 is retired, slice 1 has no spare any longer, and batch 0 is blocked with all its channels. -/
theorem retiringPair_blocks : ((((retiringPair.begin 800000).takeoverSlice 0).loadPoint 0).chan 0).waiting = true := by decide +kernel

/-- Refutes O24: the load point of channel 0, link-routed, does not leave the channel as it was. -/
theorem not_pwmLoadsAndBlocksComplete : ¬ Obligations.PwmLoadsAndBlocksComplete := by
  unfold Obligations.PwmLoadsAndBlocksComplete
  rintro ⟨-, -, -, hlink, -⟩
  obtain ⟨u, hu, hchan, -⟩ := hlink 800000 0 retiringPair 0 (by decide +kernel) (by decide +kernel) (by decide +kernel) (by decide +kernel)
  have hblocked := retiringPair_blocks
  rw [show ((retiringPair.begin 800000).takeoverSlice 0).loadPoint 0 = u from Host.Outcome.next.inj hu,
    show u.chan 0 = retiringPair.chan 0 from hchan] at hblocked
  exact absurd hblocked (by decide +kernel)

end Sys2Proof.Machine
end

section
/-! The background test of a slice (R194, R195): while a mismatch of a slice and its spare is arbitrated, the test does not begin, which refutes
O25. -/

namespace Sys2Proof.Machine

-- The kernel's evaluations run one after the other: side by side they would need too much memory.
set_option Elab.async false

/-- Spare 256 shadows slice 0 of channel 0, which belongs to no batch, and the two have a mismatch; tests are enabled and due at once. -/
def mismatchedPair : State :=
  (((State.reset.wr (key 0x3200 8) 1).wr (key 0x3200 9) 0).wr (chk 0 0xF) 16).setSlice 256 { state := .shadowing, shadows := some 0 }

/-- Slice 0 goes on serving its channel. -/
theorem mismatchedPair_serves : (((mismatchedPair.begin 0).sliceTest 0).slice 0).state = .serving := by decide +kernel

/-- Refutes O25: the background test that is due does not put slice 0 under test. -/
theorem not_slicesAndBootstrapComplete : ¬ Obligations.SlicesAndBootstrapComplete := by
  unfold Obligations.SlicesAndBootstrapComplete
  rintro ⟨-, -, -, -, -, htest, -⟩
  obtain ⟨hunowned, -⟩ := htest 0 0 mismatchedPair 256 0 (by decide +kernel) (by decide) (by decide +kernel) (by decide +kernel)
    (by decide +kernel)
  obtain ⟨u, hu, hslice, -⟩ := hunowned (by decide +kernel)
  have hserves := mismatchedPair_serves
  rw [show (mismatchedPair.begin 0).sliceTest 0 = u from Host.Outcome.next.inj hu, show (u.slice 0).state = .underTest from hslice] at hserves
  exact absurd hserves (by decide)

end Sys2Proof.Machine
end

section
/-! A supply that leaves its range (R229, R235, R236): where a pre-start diagnostic runs, the batch of its driver goes on to Fault, which refutes
O26. -/

namespace Sys2Proof.Machine

-- The kernel's evaluations run one after the other: side by side they would need too much memory.
set_option Elab.async false

/-- Driver 0 serves channel 0 of batch 0, which is in Precharge; its pre-start diagnostic is in its first step, and VBRIDGE measures 24 V. -/
def prestartRun : State :=
  let s := ((State.reset.wr (xk 0 1) 0).wr (chk 0 1) 0).wr (bk 1 1 0) BatchState.precharge.code
  { s with aux := { s.aux with run := some (0, 1), pre := [0], supplies := [(2, (0, 24000))] } }

/-- The gate supply fails: the run ends with result 5 and its batch is in Fault. -/
theorem prestartRun_faults : ((prestartRun.begin 0).vgateLow 5000).bstate 0 = .fault := by decide +kernel

/-- Refutes O26: the batch that owns the driver is not Blocked. -/
theorem not_driverCommandsComplete : ¬ Obligations.DriverCommandsComplete := by
  unfold Obligations.DriverCommandsComplete
  rintro ⟨hsupply, -⟩
  obtain ⟨hgate, -⟩ := hsupply 0 5000 prestartRun
  obtain ⟨u, hu, -, -, -, hblocked⟩ := hgate (by decide)
  have hstate := hblocked 0 (by decide +kernel) (by decide +kernel) (by decide +kernel) (by decide +kernel)
  have hfault := prestartRun_faults
  rw [show (prestartRun.begin 0).vgateLow 5000 = u from Host.Outcome.next.inj hu, show u.bstate 0 = .blocked from hstate] at hfault
  exact absurd hfault (by decide)

end Sys2Proof.Machine
end

section
/-! Test DACs (R29): the write of code 2,048 ends an injection, which refutes O28. -/

namespace Sys2Proof.Machine

-- The kernel's evaluations run one after the other: side by side they would need too much memory.
set_option Elab.async false

/-- The safety role at the service port. -/
def safetyReq : Req := { role := .safety, servicePort := true, sid := 0 }

/-- The server runs and the module is in Configuration. -/
def configuring : State := (State.reset.wr (key 0x2100 6) 2).wr (key 0x2000 1) 3

/-- The write of code 2,048 leaves no code injected. -/
theorem configuring_ends_injection :
    (((configuring.begin 0).hostWrite safetyReq 0x50A0 2 0 2048 (dacEff 0 2048)).pair 0).inject = none := by decide +kernel

/-- Refutes O28: code 2,048 is written and not injected. -/
theorem not_pairCommandsComplete : ¬ Obligations.PairCommandsComplete := by
  unfold Obligations.PairCommandsComplete
  rintro ⟨-, -, -, -, hinject, -⟩
  obtain ⟨hfree, -⟩ := hinject 0 safetyReq 0 2048 configuring (by decide +kernel) (by decide +kernel)
  obtain ⟨u, hu, -, hcode, -⟩ := hfree (by decide +kernel)
  have hnone := configuring_ends_injection
  rw [show (configuring.begin 0).hostWrite safetyReq 0x50A0 2 0 2048 (dacEff 0 2048) = u from Host.Outcome.next.inj hu] at hnone
  exact absurd (hnone.symm.trans hcode) (by simp)

end Sys2Proof.Machine
end

section
/-! The end of an archive and clear (R276, R292): a trigger unit that watches event 0x0001 logs its firing, which its bucket may suppress and count. This
refutes O43. -/

namespace Sys2Proof.Machine

-- The kernel's evaluations run one after the other: side by side they would need too much memory.
set_option Elab.async false

/-- A clear runs. Unit 0 watches event 0x0001 and logs its firings; the bucket of their code 0x0A00 is empty and holds one token at most. -/
def clearingWatched : State :=
  let s := (((State.reset.wr (key 0x2001 1) 4).wr (tuk 0 1) 1).wr (tuk 0 2) 0xB).wr (tuk 0 3) 1
  (s.wr (tuk 0 0xC) 2).setCode 0x0A00 { rate := 1, burst := 0, level := 0 }

/-- The firing is suppressed after the counts went to 0. -/
theorem clearingWatched_counts : ((clearingWatched.begin 0).archiveComplete).rd (lgk 7) = 1 := by decide +kernel

/-- Refutes O43: the count of suppressed events is not 0 once the clear is complete. -/
theorem not_logCommandsComplete : ¬ Obligations.LogCommandsComplete := by
  unfold Obligations.LogCommandsComplete
  rintro ⟨-, -, -, -, -, hcomplete⟩
  obtain ⟨u, hu, -, -, -, -, hzero, -⟩ := hcomplete 0 clearingWatched (by decide +kernel)
  have hone := clearingWatched_counts
  rw [show (clearingWatched.begin 0).archiveComplete = u from Host.Outcome.next.inj hu, hzero] at hone
  exact absurd hone (by decide)

end Sys2Proof.Machine
end

section
/-! A port that hears a second master (R268): with an announce receipt timeout of 0 a new Announce is over as it comes, and the port stays with a
master it has heard before. This refutes O40. -/

namespace Sys2Proof.Machine

-- The kernel's evaluations run one after the other: side by side they would need too much memory.
set_option Elab.async false

/-- An Announce of priority `p` from `sender`. -/
def announceOf (p sender : Nat) : AnnounceMsg := ⟨0, 0, p, 0, 0, 0, 0, 0, true, 0, true, false, false, 0, sender⟩

/-- PTP runs with a timeout of 0 intervals. Port A has a master of priority 2, heard at the instant 1 to come. -/
def timeoutZero : State :=
  let s := ((State.reset.wr (ptk 1) 1).wr (ptk 6) 0).wr (ptk 0xB) 0
  s.setPort 0 { foreign := [(1, (announceOf 2 1, 1))] }

/-- The better master is not heard within the timeout, the other one is. -/
theorem timeoutZero_master : (((timeoutZero.begin 0).ptpAnnounce (b2n false) (announceOf 1 2)).ptpPort 0).master = some (announceOf 2 1) := by decide +kernel

/-- Refutes O40: the better Announce does not make its sender the port's master. -/
theorem not_timeAndPtpComplete : ¬ Obligations.TimeAndPtpComplete := by
  unfold Obligations.TimeAndPtpComplete
  rintro ⟨-, hannounce, -⟩
  obtain ⟨-, hsecond⟩ := hannounce 0 false (announceOf 1 2) timeoutZero (by decide +kernel)
  obtain ⟨u, hu, hmaster⟩ := hsecond (announceOf 2 1) 1 (by decide +kernel) (by decide +kernel) (by decide) (by decide)
  have hold := timeoutZero_master
  rw [show (timeoutZero.begin 0).ptpAnnounce (b2n false) (announceOf 1 2) = u from Host.Outcome.next.inj hu,
    show (u.ptpPort 0).master = some (if lexLt (announceKey (announceOf 1 2)) (announceKey (announceOf 2 1)) then announceOf 1 2 else announceOf 2 1)
      from hmaster] at hold
  exact absurd hold (by decide)

end Sys2Proof.Machine
end

section
/-! A PREPARE at a member (R300): the Report of the transaction before it, where that is due, goes out first, which refutes O44. -/

namespace Sys2Proof.Machine

-- The kernel's evaluations run one after the other: side by side they would need too much memory.
set_option Elab.async false

/-- A PREPARE without batches. -/
def emptyPrepare (txn : Nat) : PrepareMsg := ⟨txn, 1, 0, 0, []⟩

/-- A member that has prepared transaction 1, of which nothing is left to apply, and has not reported it. -/
def unreported : State := (State.reset.wr (rkk 3) 2).modRack (fun r => { r with prep := some { msg := emptyPrepare 1 } })

/-- Two messages go out: the Report and READY. -/
theorem unreported_sends : ((unreported.begin 0).prepareMsg (emptyPrepare 2)).out.length = 2 := by decide +kernel

/-- Refutes O44: READY is not the only message. -/
theorem not_rackChangesComplete : ¬ Obligations.RackChangesComplete := by
  unfold Obligations.RackChangesComplete
  rintro ⟨-, -, -, -, hprepare, -⟩
  obtain ⟨hready, -⟩ := hprepare 0 (emptyPrepare 2) unreported
  obtain ⟨u, hu, -, hout⟩ := hready (by decide +kernel)
  have htwo := unreported_sends
  rw [show (unreported.begin 0).prepareMsg (emptyPrepare 2) = u from Host.Outcome.next.inj hu, hout] at htwo
  exact absurd htwo (by simp)

end Sys2Proof.Machine
end

section
/-! A supply loss of an active twin (R276, R320): a trigger unit that watches its event tells the rack of its firing, and the HANDOVER that follows
carries the next sequence. This refutes O47. -/

namespace Sys2Proof.Machine

-- The kernel's evaluations run one after the other: side by side they would need too much memory.
set_option Elab.async false

/-- The fields of a message. -/
def Output.fields : Output → List Int
  | .msg _ l _ => l
  | .reply _ _ _ => []

/-- Where no message has the fields `l`, none of a kind with these fields is among them. -/
theorem not_mem_of_fields {l : List Int} {out : List Output} (h : (out.map Output.fields).contains l = false) (kind : String) (bytes : List Byte) :
    Output.msg kind l bytes ∉ out := by
  intro hmem
  rw [← Bool.not_eq_true, List.contains_iff_mem] at h
  exact h (List.mem_map_of_mem (f := Output.fields) hmem)

/-- Trigger unit 0 watches event `code` and tells the rack of its firings. -/
def watching (code : Nat) (s : State) : State :=
  ((((s.wr (rkk 3) 2).wr (tuk 0 1) 1).wr (tuk 0 2) 0xB).wr (tuk 0 3) code).wr (tuk 0 0xC) 1

/-- An active twin in Running, which watches its supply losses. -/
def watchedSupply : State := (((watching 0x0007 State.reset).wr (key 0x2000 1) 5).wr (twk 1) 1).wr (twk 7) 1

/-- No message has sequence 0 and asks for the handover. -/
theorem watchedSupply_handover : ((((watchedSupply.begin 0).supplyLoss 0).out.map Output.fields).contains
    [watchedSupply.arbiterSlot, watchedSupply.rack.seq, watchedSupply.rd (twk 5), 2]) = false := by decide +kernel

/-- Refutes O47: HANDOVER does not carry the sequence that was next at the loss. -/
theorem not_supplyAndResetComplete : ¬ Obligations.SupplyAndResetComplete := by
  unfold Obligations.SupplyAndResetComplete
  rintro ⟨hloss, -⟩
  obtain ⟨u, hu, -, -, -, -, -, -, hactive, -⟩ := hloss 0 0 watchedSupply (by decide +kernel) (by decide +kernel) (by decide)
  obtain ⟨-, -, -, -, -, bytes, hsent⟩ := hactive (by decide +kernel) (by decide +kernel) (by decide +kernel) (by decide +kernel)
  have hnone := watchedSupply_handover
  rw [show (watchedSupply.begin 0).supplyLoss 0 = u from Host.Outcome.next.inj hu] at hnone
  exact not_mem_of_fields hnone _ bytes hsent

end Sys2Proof.Machine
end

section
/-! The latch of a standby with bridge wiring (R276, R314, R339): a trigger unit that watches its event tells the rack of its firing first, and the
request to the partner carries the next sequence. This refutes O50. -/

namespace Sys2Proof.Machine

-- The kernel's evaluations run one after the other: side by side they would need too much memory.
set_option Elab.async false

/-- A twin without authority in Armed, with bridge wiring, circuit 0 Closed and every batch in Fault, which watches its latch. The latch asks for the
bridges with sequence 1. -/
def watchedLatch : { s : State // s.mod ≠ .init ∧ s.mod ≠ .removal ∧ s.power.holdUp = none ∧ s.power.dark = false ∧ s.twinRole ≠ 0 ∧ s.authority ≠ 1 ∧
    s.rdB (twk 0x14) = true ∧
    (((s.begin 0).leverOpened).out.map Output.fields).contains [s.rdN (twk 2), s.rack.seq, s.rd (twk 5), 2] = false } :=
  ⟨((((watching 0x0C07 (State.reset.each allBatches (fun b => State.wr (bk 1 1 b) BatchState.fault.code))).wr (key 0x2000 1) 4).wr (twk 1) 1).wr
    (twk 0x14) 1).wr (ik 0 7) 3, by decide +kernel⟩

/-- Refutes O50: the request does not carry the sequence that was next at the latch. -/
theorem not_domainAndHotPlugCommandsComplete : ¬ Obligations.DomainAndHotPlugCommandsComplete := by
  unfold Obligations.DomainAndHotPlugCommandsComplete
  rintro ⟨-, -, -, -, -, -, -, -, -, hlatch, -⟩
  obtain ⟨hinit, hremoval, hheld, hdark, htwin, hauth, hwired, hnone⟩ := watchedLatch.property
  obtain ⟨u, hu, -, -, -, hstandby⟩ := hlatch 0 watchedLatch hinit hremoval hheld hdark
  obtain ⟨bytes, hsent⟩ := hstandby htwin hauth hwired
  rw [show (watchedLatch.val.begin 0).leverOpened = u from Host.Outcome.next.inj hu] at hnone
  exact not_mem_of_fields hnone _ bytes hsent

end Sys2Proof.Machine
end

section
/-! A missed heartbeat (R308, R310): the pair's arbiter setting is that of the first heartbeat listed for it, and where the table of heartbeats is not in
the order of the slots, recording the missed one moves it to the front. This refutes O45. -/

namespace Sys2Proof.Machine

-- The kernel's evaluations run one after the other: side by side they would need too much memory.
set_option Elab.async false

/-- A heartbeat of pair 0 in good health, with the arbiter setting `arbiter`. -/
def pairBeat (arbiter missRun : Nat) : Beat := { msg := ⟨0, 1, 33, 0, 0, 0, true, 0, arbiter, 255, []⟩, at_ := 0, missRun := missRun }

/-- The rack master arbitrates pair 0 as slot 5 says, whose heartbeat is listed first; slot 2 is active and has missed two heartbeats. -/
def unsortedBeats : State :=
  let s := (((State.reset.wr (rkk 3) 1).wr (abk 0 1 1) 2).wr (abk 0 1 2) 5).wr (abk 0 3) 2
  s.modRack (fun r => { r with beats := [(5, pairBeat 0 0), (2, pairBeat 1 2)] })

/-- After the third miss slot 2 is active still. -/
theorem unsortedBeats_active : ((unsortedBeats.begin 1000000000).heartbeatMissed 2).rdN (abk 0 3) = 2 := by decide +kernel

/-- Refutes O45: the third miss of the active module does not hand the pair over to the other one. -/
theorem not_authorityCommandsComplete : ¬ Obligations.AuthorityCommandsComplete := by
  unfold Obligations.AuthorityCommandsComplete
  rintro ⟨-, -, hmissed, -⟩
  obtain ⟨u, hu, -, hfail⟩ := hmissed 1000000000 2 unsortedBeats (pairBeat 1 2) (by decide +kernel) (by decide +kernel)
  obtain ⟨hother, -⟩ := hfail (by decide +kernel) (by decide +kernel) (by decide +kernel) (by decide +kernel) (by decide)
    (pairBeat 0 0) (by decide +kernel) (by decide)
  have hactive := unsortedBeats_active
  rw [show (unsortedBeats.begin 1000000000).heartbeatMissed 2 = u from Host.Outcome.next.inj hu, show u.rdN (abk 0 3) = _ from hother] at hactive
  exact absurd hactive (by decide +kernel)

end Sys2Proof.Machine
end

section
/-! The release of a capture (R284): it drops the first listing of its buffer, and a table that lists the buffer twice still holds records. This
refutes O42. -/

namespace Sys2Proof.Machine

-- The kernel's evaluations run one after the other: side by side they would need too much memory.
set_option Elab.async false

/-- Buffer 0 is complete and listed twice, with one record. -/
def twiceCaptured : State :=
  let s := configuring.wr (bfk 0 1) 3
  s.modAcq (fun a => { a with bufs := [(0, { recs := [{ at_ := 0 }] }), (0, { recs := [{ at_ := 0 }] })] })

/-- After the release a record is still there. -/
theorem twiceCaptured_keeps :
    (((twiceCaptured.begin 0).hostWrite safetyReq (0x70E0 + 0) 0xA 0 1 (releaseEff 0)).acqBuf 0).recs.length = 1 := by decide +kernel

/-- Refutes O42: the released buffer is not empty. -/
theorem not_acquisitionCommandsComplete : ¬ Obligations.AcquisitionCommandsComplete := by
  unfold Obligations.AcquisitionCommandsComplete
  rintro ⟨-, -, -, -, -, -, hrelease, -⟩
  obtain ⟨hfree, -⟩ := hrelease 0 safetyReq 0 twiceCaptured (by decide +kernel) (by decide +kernel)
  obtain ⟨u, hu, hempty, -⟩ := hfree (by decide +kernel)
  have hone := twiceCaptured_keeps
  rw [show (twiceCaptured.begin 0).hostWrite safetyReq (0x70E0 + 0) 0xA 0 1 (releaseEff 0) = u from Host.Outcome.next.inj hu,
    show (u.acqBuf 0).recs = [] from hempty] at hone
  exact absurd hone (by decide)

end Sys2Proof.Machine
end

section
/-! Unloading a recipe (R94): it drops the first listing of the image, and a table that lists the image twice still holds it. This refutes O30. -/

namespace Sys2Proof.Machine

-- The kernel's evaluations run one after the other: side by side they would need too much memory.
set_option Elab.async false

/-- The image of batch 0's recipe is listed twice. -/
def twiceLoaded : State := { configuring with blobs := [(key 0x8000 1, [1]), (key 0x8000 1, [1])] }

/-- After the unload there is a recipe still. -/
theorem twiceLoaded_keeps :
    (((twiceLoaded.begin 0).hostBlob safetyReq (0x8000 + 0) 1 [] (recipeEff 0 [])).recipe 0).isSome = true := by decide +kernel

/-- Refutes O30: the unloaded batch has a recipe. -/
theorem not_recipeCommandsComplete : ¬ Obligations.RecipeCommandsComplete := by
  unfold Obligations.RecipeCommandsComplete
  rintro ⟨-, -, hunload, -⟩
  obtain ⟨u, hu, hnone, -⟩ := hunload 0 safetyReq 0 twiceLoaded (by decide +kernel) (by decide +kernel) (by decide +kernel)
  have hsome := twiceLoaded_keeps
  rw [show (twiceLoaded.begin 0).hostBlob safetyReq (0x8000 + 0) 1 [] (recipeEff 0 []) = u from Host.Outcome.next.inj hu,
    show u.recipe 0 = none from hnone] at hsome
  exact absurd hsome (by decide)

end Sys2Proof.Machine
end

section
/-! A segment read of a node's register data (R224, R357): it waits for the node's answer over its link, which refutes O54. -/

namespace Sys2Proof.Machine

-- The kernel's evaluations run one after the other: side by side they would need too much memory.
set_option Elab.async false

/-- A proved session at the service port, which has had request 4. -/
def readerSession : Session :=
  { src := 0, service := true, rank := 4, key := none, proved := true, lastSeq := some 4, resp := none, opened := 0, heard := 0 }

/-- Its request 5: the first segment of the register data of node 0. -/
def nodeSegment : Datagram :=
  { src := 0, pair := 0, service := true, magic := true, sid := 1, seq := 5, index := 0x3400, sub := 0x1D, elem := 0, last := false, target := 0,
    param := 0, data := [], tag := List.replicate 16 0 }

/-- A server in Configuration with this session. -/
def readerServer : State := configuring.setSession 1 readerSession

/-- Nothing is sent yet. -/
theorem readerServer_silent : ((readerServer.begin 0).entryRequest 0x12 nodeSegment).out = [] := by decide +kernel

/-- Refutes O54: the segment read is not answered at once. -/
theorem not_entryAccessCompletes : ¬ Obligations.EntryAccessCompletes := by
  unfold Obligations.EntryAccessCompletes
  rintro ⟨-, -, hread, -⟩
  obtain ⟨hwhole, -⟩ := hread 0 nodeSegment readerSession readerServer _ _ (by decide +kernel) (by decide +kernel) rfl (by decide +kernel) rfl
  obtain ⟨u, hu, hout, -⟩ := hwhole (by decide) (by decide +kernel)
  have hsilent := readerServer_silent
  rw [show (readerServer.begin 0).entryRequest 0x12 nodeSegment = u from Host.Outcome.next.inj hu, hout] at hsilent
  exact absurd hsilent (List.cons_ne_nil _ _)

end Sys2Proof.Machine
end

section
/-! The clients of a CAN port (R361): client 128 of a port has the session number of client 0 of the next one, which its response then goes to. This
refutes O55. -/

namespace Sys2Proof.Machine

-- The kernel's evaluations run one after the other: side by side they would need too much memory.
set_option Elab.async false

/-- A long operation runs, and CAN port A is enabled. -/
def busyServer : State := (configuring.wr (key 0x2710 1) 1).wr (key 0x2001 1) 3

/-- A read that client 128 asks for. -/
def farClient : UsdoReq := { unicast := true, write := false, index := 0x1017, sub := 0, data := [], client := 128 }

/-- BUSY goes to client 0 of port B. -/
theorem busyServer_answers : ((busyServer.begin 0).usdo (0 : CanNo) farClient).out.map Output.fields = [[1, 0, (abBusy : Int)]] := by decide +kernel

/-- Refutes O55: BUSY does not go to the client that asked. -/
theorem not_otherPathsComplete : ¬ Obligations.OtherPathsComplete := by
  unfold Obligations.OtherPathsComplete
  rintro ⟨-, -, husdo, -⟩
  obtain ⟨-, -, hbusy⟩ :=
    husdo 0 0 farClient busyServer _ rfl (by decide +kernel) (by decide +kernel) (by decide)
  obtain ⟨u, hu, -, hout⟩ := hbusy (by decide +kernel)
  have hother := busyServer_answers
  rw [show (busyServer.begin 0).usdo (0 : CanNo) farClient = u from Host.Outcome.next.inj hu, hout] at hother
  exact absurd hother (by decide)

end Sys2Proof.Machine
end

section
/-! The Ethernet services (R365): ARP, echo and PRP supervision. -/

namespace Sys2Proof.Machine

/-- Whether a pair has an address does not depend on the instant. -/
theorem State.hasAddress_begin (p a : Nat) (s : State) (t : Time) : (s.begin t).hasAddress p a = s.hasAddress p a := rfl

theorem State.when_true {c : Bool} (h : c = true) (f : State → State) (s : State) : s.when c f = f s := by simp [State.when, h]

theorem State.when_false {c : Bool} (h : c = false) (f : State → State) (s : State) : s.when c f = s := by simp [State.when, h]

/-- PRP_SUPERVISION sends its frame where none was sent for 2 s. -/
theorem State.supervision_due {p : Nat} {s : State} (hup : s.serverUp = true) (h : ∀ a, Tbl.find? p s.net.prp = some a → a + Time.sec 2 ≤ s.now) :
    s.supervision p = (s.modNet (fun n => { n with prp := Tbl.set p s.now n.prp })).msg "PRP_SUPERVISION" [p, s.rd (key (0x2700 + p) 4)] [] := by
  unfold State.supervision
  refine State.when_true ?_ _ s
  cases ha : Tbl.find? p s.net.prp with
  | none => simp [hup]
  | some a => simp [hup, h a ha]

/-- PRP_SUPERVISION sends nothing within 2 s of the frame before. -/
theorem State.supervision_early {p : Nat} {s : State} {a : Time} (ha : Tbl.find? p s.net.prp = some a) (h : s.now < a + Time.sec 2) :
    s.supervision p = s := by
  unfold State.supervision
  refine State.when_false ?_ _ s
  simp [ha, Nat.not_le.2 h]

/-- Settles O58. -/
theorem ethernetCommandsComplete : Obligations.EthernetCommandsComplete := by
  refine ⟨fun t p target sender s => ⟨fun h => ⟨_, rfl, ?_⟩, fun h => ⟨_, rfl, ?_⟩⟩, fun t p dst l s => ⟨fun h => ⟨_, rfl, ?_⟩, fun h => ⟨_, rfl, ?_⟩⟩,
    fun t p s hup => ⟨fun h => ⟨_, rfl, ?_⟩, fun a ha h => ⟨_, rfl, ?_⟩⟩⟩
  · exact State.when_true h _ (s.begin t)
  · exact State.when_false h _ (s.begin t)
  · exact State.when_true h _ (s.begin t)
  · exact State.when_false h _ (s.begin t)
  · rw [State.supervision_due (s := s.begin t) hup h]
    exact ⟨Tbl.find?_set_same _ _ _, rfl⟩
  · exact State.supervision_early (s := s.begin t) ha h

end Sys2Proof.Machine
end

section
/-! What an event keeps (R276, R288): a relation between states that each of its parts keeps, an event and the firings it brings about keep. An event
leaves the rack but for the sequence of its messages, and no answer is among what it sends. -/

namespace Sys2Proof.Machine

/-- A relation between states that every part of an event keeps. -/
structure EventRel (R : State → State → Prop) : Prop where
  refl : ∀ s, R s s
  trans : ∀ {r s t}, R r s → R s t → R r t
  put : ∀ code inst data s, R s (s.putEvent code inst data)
  wr : ∀ k v s, R s (s.wr k v)
  trig : ∀ u x s, R s (s.setTrig u x)
  capture : ∀ slot unit tm s, R s (s.captureFire slot unit tm).1
  tell : ∀ kind dst l s, R s (s.rackMsg kind dst l)

namespace EventRel

variable {R : State → State → Prop}

theorem of_ite {c : Prop} [Decidable c] {s t u : State} (h : R s t) (k : R s u) : R s (if c then t else u) := by
  split
  · exact h
  · exact k

variable (hR : EventRel R)
include hR

theorem each {α : Type} {f : α → State → State} (hf : ∀ a s, R s (f a s)) (l : List α) (s : State) : R s (s.each l f) := by
  unfold State.each
  induction l generalizing s with
  | nil => exact hR.refl s
  | cons a r ih => exact hR.trans (hf a s) (ih (f a s))

section
variable {log : Nat → Nat → List Byte → State → State} (hlog : ∀ c i l s, R s (log c i l s)) (u : Nat) (tm : Time) (s : State)
include hlog

theorem fireUnit : R s (s.fireUnit log u tm) := by
  unfold State.fireUnit
  lift_lets
  intro slot acts counted p logged fired
  have hcounted : R s counted := hR.trans (hR.wr _ _ _) (hR.wr _ _ _)
  have hp : R counted p.1 := hR.capture _ _ _ _
  have hlogged : R counted logged := of_ite (hR.trans hp (hlog _ _ _ _)) hp
  have hfired : R s fired := hR.trans hcounted (of_ite (of_ite hlogged (hR.trans hlogged (hR.tell _ _ _ _))) (hR.refl _))
  exact of_ite (hR.trans hfired (hlog _ _ _ _)) hfired

theorem everyUpdate : R s (s.everyUpdate log u tm) := by
  unfold State.everyUpdate
  lift_lets
  intro r q start shown
  have hshown : R s shown := hR.trans (hR.trig _ _ _) (hR.wr _ _ _)
  exact of_ite (hR.trans hshown (hR.trans (hR.trig _ _ _) (hR.fireUnit hlog _ _ _))) hshown

end

theorem logChain (fuel : Nat) (used : List Nat) (code inst : Nat) (data : List Byte) (s : State) : R s (s.logChain fuel used code inst data) := by
  induction fuel generalizing used code inst data s with
  | zero => exact hR.put code inst data s
  | succ n ih => exact hR.trans (hR.put code inst data s) (hR.each (fun u s => hR.everyUpdate (fun c i l s => ih _ c i l s) u _ s) _ _)

theorem logEvent (code inst : Nat) (data : List Byte) (s : State) : R s (s.logEvent code inst data) := hR.logChain 16 [] code inst data s

theorem unitUpdate (u : Nat) (raw : Bool) (v : Option Int) (tm : Time) (s : State) : R s (s.unitUpdate u raw v tm) := by
  unfold State.unitUpdate
  lift_lets
  intro r c level ok released q run start latched r' shown
  have hshown : R s shown := hR.trans (hR.trig _ _ _) (hR.wr _ _ _)
  exact of_ite (hR.trans hshown (hR.trans (hR.trig _ _ _) (hR.fireUnit hR.logEvent _ _ _))) hshown

theorem frameSource (type sel : Nat) (bytes : List Byte) (tm : Time) (s : State) : R s (s.frameSource type sel bytes tm) :=
  hR.each (fun u s => hR.unitUpdate u true _ tm s) _ s

end EventRel

/-! ### The rack -/

/-- From s to t the rack's part stays as it is, but for the sequence of its messages. -/
def SeqOnly (s t : State) : Prop := ∃ q, t.rack = { s.rack with seq := q }

theorem SeqOnly.of_eq {s t : State} (h : t.rack = s.rack) : SeqOnly s t := ⟨s.rack.seq, h⟩

theorem seqOnly_eventRel : EventRel SeqOnly where
  refl _ := .of_eq rfl
  trans := by
    rintro r s t ⟨_, hs⟩ ⟨q, ht⟩
    exact ⟨q, by rw [ht, hs]⟩
  put _ _ _ s := .of_eq ((State.putEvent_kept (Sub.refl _) (Kept.refl _ s)).rackSame rfl)
  wr _ _ _ := .of_eq rfl
  trig _ _ _ := .of_eq rfl
  capture _ _ _ s := .of_eq ((State.captureFire_kept (Sub.refl _) (Kept.refl _ s)).rackSame rfl)
  tell _ _ _ s := ⟨(s.rack.seq + 1) % 2 ^ 32, rfl⟩

theorem State.seqOnly_logEvent (code inst : Nat) (data : List Byte) (s : State) : SeqOnly s (s.logEvent code inst data) :=
  seqOnly_eventRel.logEvent code inst data s

/-! ### Answers -/

/-- Whether an output answers a request. -/
def Output.isReply : Output → Bool
  | .reply _ _ _ => true
  | .msg _ _ _ => false

/-- From s to t what was sent is followed by messages, none of which answers a request. -/
def Tells (s t : State) : Prop := ∃ l, t.out = s.out ++ l ∧ ∀ o ∈ l, o.isReply = false

theorem Tells.of_eq {s t : State} (h : t.out = s.out) : Tells s t := ⟨[], by simp [h]⟩

theorem Tells.trans {r s t : State} (h : Tells r s) (k : Tells s t) : Tells r t := by
  obtain ⟨l, hs, hl⟩ := h
  obtain ⟨m, ht, hm⟩ := k
  refine ⟨l ++ m, by rw [ht, hs, List.append_assoc], fun o ho => ?_⟩
  obtain ho | ho := List.mem_append.1 ho
  · exact hl o ho
  · exact hm o ho

theorem Tells.each {α : Type} {f : α → State → State} (hf : ∀ a s, Tells s (f a s)) (l : List α) (s : State) : Tells s (s.each l f) := by
  unfold State.each
  induction l generalizing s with
  | nil => exact Tells.of_eq rfl
  | cons a r ih => exact (hf a s).trans (ih (f a s))

theorem State.tells_msg (kind : String) (l : List Int) (bytes : List Byte) (s : State) : Tells s (s.msg kind l bytes) :=
  ⟨[.msg kind l bytes], rfl, by simp [Output.isReply]⟩

theorem State.tells_emcy (e : Event) (s : State) : Tells s (s.emcy e) :=
  Tells.each (fun k s => by
    split
    · exact State.tells_msg ..
    · exact Tells.of_eq rfl) _ s

theorem State.tells_putEvent (code inst : Nat) (data : List Byte) (s : State) : Tells s (s.putEvent code inst data) := by
  have henq (e : Event) (s : State) : (s.enqueueEvent e).out = s.out := by
    unfold State.enqueueEvent
    lift_lets
    intro lost
    have hlost (s : State) : (lost s).out = s.out := rfl
    simp only [apply_ite State.out, State.wr_out, hlost, ite_self]
  unfold State.putEvent
  lift_lets
  intro src r e taken
  split
  · exact Tells.of_eq rfl
  · exact (Tells.of_eq (s := s) (henq e taken)).trans (State.tells_emcy e _)

theorem tells_eventRel : EventRel Tells where
  refl _ := .of_eq rfl
  trans := Tells.trans
  put := State.tells_putEvent
  wr _ _ _ := .of_eq rfl
  trig _ _ _ := .of_eq rfl
  capture _ _ _ s := .of_eq (State.captureFire_out _ _ _ s)
  tell _ _ _ s := State.tells_msg _ _ _ (s.modRack _)

theorem State.tells_logEvent (code inst : Nat) (data : List Byte) (s : State) : Tells s (s.logEvent code inst data) :=
  tells_eventRel.logEvent code inst data s

end Sys2Proof.Machine
end

section
/-! The twin link (R303, R306, R318): it trains, goes down, and brings state copies. The digest of the configuration rests on the objects from 0x3000
on. -/

namespace Sys2Proof.Machine

/-! ### What an entry of the module's own objects leaves of the digest -/

/-- A listing that a selection does not take may be set. -/
theorem Tbl.filter_set_of_not {α : Type} {p : Nat × α → Bool} {k : Nat} {v : α} (hv : ∀ w, p (k, w) = false) (t : Tbl α) :
    List.filter p (Tbl.set k v t) = List.filter p t := by
  induction t with
  | nil => simp [Tbl.set, hv]
  | cons e r ih =>
    obtain ⟨j, w⟩ := e
    unfold Tbl.set
    split_ifs with hlt heq
    · simp [hv]
    · subst heq
      simp [hv]
    · simp [List.filter_cons, ih]

section
variable {k : Nat} (hk : k < key 0x3000 0) (v : Int) (s : State)
include hk

theorem dfltAt_set_of_lt (j : Nat) : dfltAt (Tbl.set k v s.od) j = dfltAt s.od j := by
  have hne : ∀ i, key (0x4005 + i * 0x20) 3 ≠ k := fun i => by unfold key at hk ⊢; omega
  unfold dfltAt
  simp only [Tbl.find?_set_other v s.od (hne _)]

theorem State.rd_wr_of_lt {j : Nat} (hj : key 0x3000 0 ≤ j) : (s.wr k v).rd j = s.rd j := by
  simp only [State.rd, State.wr, Tbl.find?_set_other v s.od (show j ≠ k by omega), dfltAt_set_of_lt hk]

theorem State.benabled_wr_of_lt (b : Nat) : (s.wr k v).benabled b = s.benabled b := by
  unfold State.benabled State.rdB
  rw [State.rd_wr_of_lt hk v s (by unfold bk key; omega)]

theorem State.entryBatch_wr_of_lt (i : Nat) : (s.wr k v).entryBatch i = s.entryBatch i := by
  have hrd : ∀ j, 0x3000 ≤ j → (s.wr k v).rdN (key j 1) = s.rdN (key j 1) := fun j hj => by
    unfold State.rdN
    rw [State.rd_wr_of_lt hk v s (by unfold key; omega)]
  have hrd4 : 0x3400 ≤ i → (s.wr k v).rdN (key i 4) = s.rdN (key i 4) := fun hj => by
    unfold State.rdN
    rw [State.rd_wr_of_lt hk v s (by unfold key; omega)]
  unfold State.entryBatch
  simp only [State.benabled_wr_of_lt hk v s, Bool.and_eq_true, decide_eq_true_eq]
  split_ifs
  · rfl
  · rfl
  · rfl
  · exact hrd i (by omega)
  · exact hrd4 (by omega)
  · exact hrd i (by omega)
  · exact hrd i (by omega)
  · rfl

theorem State.ownDigest_wr_of_lt : (s.wr k v).ownDigest = s.ownDigest := by
  have hout : digestEntry (k / 65536) (k / 256 % 256) = false := by
    have hlow : k / 65536 < 0x3000 := by unfold key at hk; omega
    have hindex : digestIndex (k / 65536) = false := by
      simp only [digestIndex, Bool.or_eq_false_iff, Bool.and_eq_false_iff, decide_eq_false_iff_not]
      omega
    simp [digestEntry, hindex]
  have htwin : (s.wr k v).twinBatches = s.twinBatches := List.filter_congr fun b _ => State.benabled_wr_of_lt hk v s b
  unfold State.ownDigest
  simp only [htwin, State.entryBatch_wr_of_lt hk v s, State.rdN]
  congr 2
  · rw [State.wr]
    simp only [dfltAt_set_of_lt hk]
    exact Tbl.filter_set_of_not (fun w => by simp [hout]) s.od
  · refine List.map_congr_left fun b _ => ?_
    rw [State.rd_wr_of_lt hk v s (by unfold key; omega), State.rd_wr_of_lt hk v s (by unfold key; omega)]

end

theorem twk_lt {j : Nat} (hj : j < 256) : twk j < key 0x3000 0 := by unfold twk key; omega

/-- The change of the rack's part leaves the digest. -/
theorem State.ownDigest_modRack (f : Rack → Rack) (s : State) : (s.modRack f).ownDigest = s.ownDigest := rfl

/-! ### The pair state -/

/-- A partner that is there and in good health, and a digest that differs from the own one, are state 5. -/
theorem State.pairState_mismatch {s : State} {d : Nat} (htwin : s.twinRole ≠ 0)
    (hpartner : ∀ h, s.twinPartner = some h → h.missRun < 3 ∧ h.msg.health.testBit 0 = true) (hd : s.rack.digest = some d) (hne : d ≠ s.ownDigest) :
    s.pairState = 5 := by
  unfold State.pairState
  rw [if_neg htwin, if_neg, hd]
  · simp [hne]
  · cases hp : s.twinPartner with
    | none => simp
    | some h => simp [hpartner h hp]

theorem State.rdN_syncTwin_pairState (s : State) : s.syncTwin.rdN (twk 6) = s.pairState := by
  unfold State.syncTwin
  rw [State.rdN_wr_ne (by decide) (by decide)]
  simp

theorem State.rdN_syncTwin {k : Nat} (h6 : k ≠ twk 6) (h9 : k ≠ twk 9) (hk : OwnDefault k) (s : State) : s.syncTwin.rdN k = s.rdN k := by
  unfold State.syncTwin
  rw [State.rdN_wr_ne h9 hk, State.rdN_wr_ne h6 hk]

theorem State.od_sendForwards (s : State) : s.sendForwards.od = s.od := by
  unfold State.sendForwards
  split
  · rfl
  · change (State.each (s.rack.forwards.filter (fun f => !f.sent)) (fun f s => s.msg "TWIN_WRITE" [f.index, f.sub, f.elem] f.data) s).od = s.od
    exact State.each_eq State.od (by intros; rfl) s

theorem State.digest_sendForwards (s : State) : s.sendForwards.rack.digest = s.rack.digest := by
  unfold State.sendForwards
  split
  · rfl
  · change (State.each (s.rack.forwards.filter (fun f => !f.sent)) (fun f s => s.msg "TWIN_WRITE" [f.index, f.sub, f.elem] f.data) s).rack.digest
      = s.rack.digest
    exact State.each_eq (fun u => u.rack.digest) (by intros; rfl) s

/-! ### The twin link -/

/-- TWIN_LINK_TRAINED in a twin. -/
theorem State.rdN_linkTrained {s : State} (htwin : s.twinRole ≠ 0) (d : Nat) : (s.linkTrained d).rdN (twk 0xB) = 2 := by
  unfold State.linkTrained
  rw [if_neg htwin, State.rdN, State.rd_congr (by decide) (congrArg _ (State.od_sendForwards _))]
  exact (State.rdN_syncTwin (by decide) (by decide) (by decide) _).trans (State.rdN_wr_same (twk 0xB) 2 s)

theorem State.pair_linkTrained {s : State} {d : Nat} (htwin : s.twinRole ≠ 0)
    (hpartner : ∀ h, s.twinPartner = some h → h.missRun < 3 ∧ h.msg.health.testBit 0 = true) (hne : d ≠ s.ownDigest) :
    (s.linkTrained d).rdN (twk 6) = 5 := by
  unfold State.linkTrained
  rw [if_neg htwin, State.rdN, State.rd_congr (by decide) (congrArg _ (State.od_sendForwards _))]
  refine (State.rdN_syncTwin_pairState _).trans (State.pairState_mismatch (d := d) ?_ ?_ rfl ?_)
  · exact ne_of_eq_of_ne (State.rdN_wr_ne (by decide) (by decide) ..) htwin
  · have hslot : (s.wr (twk 0xB) 2).rdN (twk 2) = s.rdN (twk 2) := State.rdN_wr_ne (by decide) (by decide) ..
    intro h hh
    refine hpartner h ?_
    rw [← hh]
    unfold State.twinPartner
    exact congrArg (fun i => Tbl.find? i s.rack.beats) hslot.symm
  · rw [State.ownDigest_modRack, State.ownDigest_wr_of_lt (twk_lt (by decide))]
    exact hne

theorem State.linkDown_eq {s : State} (htwin : s.twinRole ≠ 0) (hup : s.rdN (twk 0xB) = 2) :
    s.linkDown = (((s.wr (twk 0xB) 1).modRack
      (fun r => { r with copies := [], onTime := [], forwards := r.forwards.map (fun f => { f with sent := f.acked }) })).logEvent 0x0905 0 []).syncTwin := by
  simp [State.linkDown, htwin, hup]

/-- The standby takes the copies of the cycles before its turn, the active module those of the cycles before it hands over (R305, R313). -/
theorem State.copiesIn_of {s : State} {t0 : Time} (htwin : s.twinRole ≠ 0)
    (h : (s.authority = 2 ∧ ∀ d, s.rack.turnAt = some d → d ≤ t0) ∨ (s.authority = 1 ∧ ∃ d, s.rack.turnAt = some d ∧ t0 < d)) :
    s.copiesIn t0 = true := by
  unfold State.copiesIn State.copiesOut
  rcases h with ⟨hauth, hturn⟩ | ⟨hauth, d, hturn, hlt⟩
  · cases hd : s.rack.turnAt with
    | none => simp [htwin, hauth]
    | some d => simp [htwin, hauth, hturn d hd]
  · simp [htwin, hauth, hturn, hlt]

/-- Settles O46. -/
theorem twinLinkCommandsComplete : Obligations.TwinLinkCommandsComplete := by
  refine ⟨fun t d s htwin => ⟨_, rfl, ?_, ?_, ?_⟩, fun t s htwin hup => ⟨_, rfl, ?_⟩, fun t m s htwin hup hcopies => ⟨_, rfl, ?_⟩⟩
  · exact State.rdN_linkTrained (s := s.begin t) htwin d
  · unfold State.linkTrained
    rw [if_neg (show (s.begin t).twinRole ≠ 0 from htwin), State.digest_sendForwards]
    rfl
  · exact State.pair_linkTrained (s := s.begin t) htwin
  · rw [State.linkDown_eq (s := s.begin t) htwin hup]
    obtain ⟨q, hrack⟩ := State.seqOnly_logEvent 0x0905 0 [] (((s.begin t).wr (twk 0xB) 1).modRack
      (fun r => { r with copies := [], onTime := [], forwards := r.forwards.map (fun f => { f with sent := f.acked }) }))
    refine ⟨?_, congrArg Rack.copies hrack, congrArg Rack.onTime hrack⟩
    rw [State.rdN_syncTwin (by decide) (by decide) (by decide), State.rdN, State.rd_logEvent (by decide) (by decide)]
    exact congrArg Int.toNat (State.rd_wr_same (twk 0xB) 1 (s.begin t))
  · have hin : (s.begin t).copiesIn m.t0 = true := State.copiesIn_of (s := s.begin t) htwin hcopies
    have hup' : (s.begin t).rdN (twk 0xB) = 2 := hup
    simp only [State.copyReceived, hin, hup', Bool.not_true, ne_eq, not_true_eq_false, Bool.false_eq_true, decide_false, Bool.or_self, if_false]
    exact Tbl.find?_set_same _ _ _

end Sys2Proof.Machine
end

section
/-! Rules for a host's write of an entry that no twin pair forwards (R304), be the module a twin or not; what an event leaves of the entries below
0x7000. -/

namespace Sys2Proof.Machine

section
variable {q : Req} {index sub elem : Nat} {v : Int} {e : Eff} {s : State} (hd : digestWrite index sub = false)
include hd

theorem State.carryOut_unforwarded (data : List Byte) : s.carryOut index sub elem data e = s.carries e := by
  have hentry : s.twinEntry index sub = false := by simp [State.twinEntry, hd]
  unfold State.carryOut State.carries
  cases e.replies <;> simp [hentry]

variable (hs : s.Up)
include hs

theorem State.hostWrite_unforwarded (hpass : s.Passes q index sub elem v) :
    s.hostWrite q index sub elem v e = ((s.handling q.sid).carries e).longBy q 0 := by
  obtain ⟨hup, hlong⟩ := hs
  have hlong' : (s.handling q.sid).longOp = 0 := hlong
  have hpass' : (s.handling q.sid).writeCheck q.role.rank true index sub elem (((descAt index sub).map (·.ty.bytes)).getD 0) v = 0 :=
    hpass
  simp only [State.hostWrite, hup, hlong, hlong', hpass', Bool.not_true, Bool.false_eq_true, if_false, ne_eq, not_true_eq_false,
    State.carryOut_unforwarded hd]

theorem State.hostBlob_unforwarded {img : List Byte} (hpass : s.PassesBlob q index sub img) :
    s.hostBlob q index sub img e = ((s.handling q.sid).carries e).longBy q 0 := by
  obtain ⟨hup, hlong⟩ := hs
  have hlong' : (s.handling q.sid).longOp = 0 := hlong
  have hpass' : (s.handling q.sid).blobCheck q.role.rank true index sub img.length = 0 := hpass
  simp only [State.hostBlob, hup, hlong, hlong', hpass', Bool.not_true, Bool.false_eq_true, if_false, ne_eq, not_true_eq_false,
    State.carryOut_unforwarded hd]

end

theorem State.rdN_logEvent {k : Nat} (hk : k < key 0x7000 0) (hd : OwnDefault k) (code inst : Nat) (data : List Byte) (s : State) :
    (s.logEvent code inst data).rdN k = s.rdN k := congrArg Int.toNat (State.rd_logEvent hk hd code inst data s)

theorem State.bit_logEvent {k : Nat} (hk : k < key 0x7000 0) (hd : OwnDefault k) (i code inst : Nat) (data : List Byte) (s : State) :
    (s.logEvent code inst data).bit k i = s.bit k i := congrArg (fun n : Nat => n.testBit i) (State.rdN_logEvent hk hd code inst data s)

end Sys2Proof.Machine
end

section
/-! Locks, role keys and firmware (R350, R355, R370, R371). -/

namespace Sys2Proof.Machine

-- The kernel's evaluations run one after the other: side by side they would need too much memory.
set_option Elab.async false

/-! ### Answers leave the dictionary and the image slots -/

theorem State.respond_slots (sid flags progress param : Nat) (data : List Byte) (accept : Bool) (s : State) :
    (s.respond sid flags progress param data accept).srv.slots = s.srv.slots := by
  unfold State.respond
  split
  · rfl
  · split
    · rfl
    · cases accept <;> rfl

theorem State.deliver_slots (sid e p : Nat) (l : List Byte) (s : State) : (s.deliver sid e p l).srv.slots = s.srv.slots := by
  unfold State.deliver
  split_ifs
  · exact State.respond_slots ..
  · exact State.respond_slots ..
  · rfl
  · rfl
  · rfl
  · rfl

theorem State.sessionReply_slots (sid : Nat) (s : State) : (s.sessionReply sid).srv.slots = s.srv.slots := by
  unfold State.sessionReply
  split
  · rfl
  · exact State.each_eq (fun u => u.srv.slots) (fun o _ u => by
      cases o with
      | reply e p l => exact State.deliver_slots sid e p l u
      | msg kind l bytes => rfl) _

theorem State.finish_slots (sid e : Nat) (s : State) : (s.finish sid e).srv.slots = s.srv.slots := by
  unfold State.finish
  split
  · unfold State.settleForward
    generalize settleFirst _ _ _ = first
    obtain ⟨l, _ | ⟨waiting, code⟩⟩ := first
    · rfl
    · exact State.sessionReply_slots ..
  · exact State.sessionReply_slots ..

theorem State.rd_finish {k : Nat} (hk : OwnDefault k) (sid e : Nat) (s : State) : (s.finish sid e).rd k = s.rd k := by
  have hkept := State.finish_kept (sid := sid) (e := e) (Sub.refl _) (Kept.refl _ s)
  have hout : ∀ z, Nat.testBit 0x28000 (20 + z) = false := fun z => Nat.testBit_lt_two_pow (lt_of_lt_of_le (by decide : (0x28000 : Nat) < 2 ^ 20)
    (Nat.pow_le_pow_right (by decide) (Nat.le_add_right 20 z)))
  exact State.rd_congr hk (hkept.numbersSame k (hout _))

/-- The end of a long operation writes its three entries. -/
theorem State.rd_endLong {k : Nat} (hk : OwnDefault k) (e : Nat) (s : State) :
    (s.endLong e).rd k = (((s.wr (key 0x2001 1) 0).wr (key 0x2001 2) 100).wr (key 0x2001 3) e).rd k := by
  unfold State.endLong
  lift_lets
  intro ended fields heard
  by_cases h : heard.srv.longQuiet = true
  · rw [if_pos h]
    rfl
  · rw [if_neg h, State.rd_finish hk]
    rfl

theorem State.rd_endLong_ne {k : Nat} (hk : OwnDefault k) (h1 : k ≠ key 0x2001 1) (h2 : k ≠ key 0x2001 2) (h3 : k ≠ key 0x2001 3) (e : Nat)
    (s : State) : (s.endLong e).rd k = s.rd k := by
  rw [State.rd_endLong hk, State.rd_wr_ne h3 hk, State.rd_wr_ne h2 hk, State.rd_wr_ne h1 hk]

theorem State.endLong_slots (e : Nat) (s : State) : (s.endLong e).srv.slots = s.srv.slots := by
  unfold State.endLong
  lift_lets
  intro ended fields heard
  by_cases h : heard.srv.longQuiet = true
  · rw [if_pos h]
    rfl
  · rw [if_neg h, State.finish_slots]
    rfl

@[simp] theorem State.longOp_endLong (e : Nat) (s : State) : (s.endLong e).longOp = 0 := by
  unfold State.longOp State.rdN
  rw [State.rd_endLong (by decide), State.rd_wr_ne (by decide) (by decide), State.rd_wr_ne (by decide) (by decide), State.rd_wr_same]
  rfl

@[simp] theorem State.result_endLong (e : Nat) (s : State) : (s.endLong e).rdN (key 0x2001 3) = e := by
  unfold State.rdN
  rw [State.rd_endLong (by decide), State.rd_wr_same, Int.toNat_natCast]

/-! ### The locks -/

theorem State.locked_lockEff (area a : Nat) (s : State) : ((lockEff area).eff s).locked a = (a == area || s.locked a) := by
  unfold lockEff
  dsimp only
  split
  case isTrue h =>
    by_cases ha : a = area
    · subst ha
      simpa [State.locked] using h
    · simp [ha]
  case isFalse =>
    unfold State.locked
    rw [State.bit_logEvent (by decide) (by decide)]
    by_cases ha : a = area
    · subst ha
      simp
    · rw [State.bit_setBit_other ha]
      simp [ha]

theorem State.lock_completes {area : Nat} {q : Req} {s : State} {index sub : Nat} (hd : digestWrite index sub = false) (hs : s.Up)
    (hpass : s.Passes q index sub 0 1) :
    ((s.hostWrite q index sub 0 1 (lockEff area)).bit (key 0x2600 1) area = true ∧ (s.hostWrite q index sub 0 1 (lockEff area)).locked area = true ∧
      (s.hostWrite q index sub 0 1 (lockEff area)).Answered 0) ∧ ∀ a, a ≠ area → (s.hostWrite q index sub 0 1 (lockEff area)).locked a = s.locked a := by
  have hlocked : ∀ a, (s.hostWrite q index sub 0 1 (lockEff area)).locked a = (a == area || s.locked a) := fun a => by
    rw [State.hostWrite_unforwarded hd hs hpass]
    exact (State.bit_longBy ..).trans (State.locked_lockEff area a (s.handling q.sid))
  refine ⟨⟨(hlocked area).trans (by simp), (hlocked area).trans (by simp), ?_⟩, fun a ha => (hlocked a).trans (by simp [ha])⟩
  rw [State.hostWrite_unforwarded hd hs hpass]
  exact State.answered_answer_longBy _ _ _ _

/-! ### Role keys -/

/-- A role key is 32 bytes of one byte each. -/
theorem keyEntry_bytes (r : Role) : ((descAt 0x2601 r.rank).map (·.ty.bytes)).getD 0 = 1 := by cases r <;> decide +kernel

/-- No role but Safety sets one. -/
theorem writeCheck_key_of_rank_zero (r : Role) (s : State) : s.writeCheck 0 true 0x2601 r.rank 0 1 0 = abRole := by
  unfold State.writeCheck State.accessCheck
  cases r <;> rfl

/-- A key set through the service port. -/
theorem State.writeKey_service {q : Req} {r : Role} {k : List Byte} {s : State} (hs : s.Up) (hport : q.servicePort = true) (hk : k.length = 32)
    (hpass : s.Passes q 0x2601 r.rank 0 0) : s.writeKey q r.rank 0 k = ((s.handling q.sid).putKey r.rank 0 k).answer 0 := by
  obtain ⟨hup, hlong⟩ := hs
  have hcheck : (s.handling q.sid).writeCheck q.role.rank true 0x2601 r.rank 0 1 0 = 0 := by
    have := hpass
    rw [State.Passes, keyEntry_bytes] at this
    exact this
  simp [State.writeKey, hup, hlong, hport, hk, hcheck]

/-- Any other path is refused as a role too low. -/
theorem State.writeKey_elsewhere {q : Req} {r : Role} {k : List Byte} {s : State} (hs : s.Up) (hport : q.servicePort = false) (hk : k.length = 32) :
    s.writeKey q r.rank 0 k = (s.handling q.sid).refuse q 0x2601 r.rank abRole := by
  obtain ⟨hup, hlong⟩ := hs
  simp [State.writeKey, hup, hlong, hport, hk, writeCheck_key_of_rank_zero, show abRole ≠ 0 by decide]

theorem State.blob_putKey (r : Nat) (k : List Byte) (s : State) : (s.putKey r 0 k).blob (roleKeyAt r) = k := Tbl.get_set_same _ _ _ _

/-! ### Firmware -/

theorem firstFail_pair_of_zero (c : Nat) : firstFail [0, c] = c := by
  by_cases hc : c = 0 <;> simp [firstFail, hc]

/-- An update that starts: a twin in command asks for its handover first. -/
theorem State.firmwareUpdate_starts {q : Req} {img : List Byte} {s : State} (hs : s.Up) (hpass : s.PassesBlob q 0x8F00 1 img) (hlen : 120 ≤ img.length)
    (hpartner : s.updateAsks = true → s.partnerEligible = true) :
    s.hostBlob q 0x8F00 1 img (firmwareEff img true) = ((firmwareEff img true).eff (s.handling q.sid)).longBy q 0 := by
  have hasks : (s.handling q.sid).updateAsks = s.updateAsks := rfl
  have helig : (s.handling q.sid).partnerEligible = s.partnerEligible := rfl
  have hown : (firmwareEff img true).own (s.handling q.sid) = 0 := by
    simp only [firmwareEff, hasks, helig, hlen, decide_true, needs_of_true, firstFail_pair_of_zero, Bool.true_and]
    cases ha : s.updateAsks with
    | false => rfl
    | true => simp [hpartner ha, needs]
  rw [State.hostBlob_unforwarded (by decide +kernel) hs hpass, State.carries_of_pass hown]
  rfl

theorem State.firmwareUpdate_refused {q : Req} {img : List Byte} {s : State} (hs : s.Up) (hpass : s.PassesBlob q 0x8F00 1 img) (hlen : 120 ≤ img.length)
    (hasks : s.updateAsks = true) (hpartner : s.partnerEligible = false) :
    s.hostBlob q 0x8F00 1 img (firmwareEff img true) = ((s.handling q.sid).answer 0x0B0000F4).longBy q 0 := by
  have hasks' : (s.handling q.sid).updateAsks = true := hasks
  have helig : (s.handling q.sid).partnerEligible = false := hpartner
  have hown : (firmwareEff img true).own (s.handling q.sid) = 0x0B0000F4 := by
    simp [firmwareEff, hasks', helig, hlen, needs, firstFail]
  rw [State.hostBlob_unforwarded (by decide +kernel) hs hpass, State.carries_of_fail hown (by decide)]

/-- Where a long operation has started, the request waits for its end. -/
theorem State.longBy_starts {s : State} (h : s.longOp ≠ 0) (q : Req) :
    s.longBy q 0 = { s with srv := { s.srv with longSid := q.sid, longQuiet := false } } := by
  simp [State.longBy, h]

theorem State.longOp_startLong (n : Nat) (s : State) : (s.startLong n).longOp = n := by
  unfold State.longOp State.startLong
  rw [State.rdN_wr_ne (by decide) (by decide), State.rdN_wr_ne (by decide) (by decide), State.rdN_wr_same, Int.toNat_natCast]

theorem State.progress_startLong (n : Nat) (s : State) : (s.startLong n).rd (key 0x2001 2) = 0 := by
  unfold State.startLong
  rw [State.rd_wr_ne (by decide) (by decide), State.rd_wr_same]

/-- What the update holds once it has started. -/
theorem State.firmwareEff_starts (img : List Byte) (s : State) :
    ((firmwareEff img true).eff s).longOp = 6 ∧ ((firmwareEff img true).eff s).rd (key 0x2001 2) = 0 ∧
      ((firmwareEff img true).eff s).srv.longImg = img ∧ ((firmwareEff img true).eff s).srv.longAt = ((firmwareEff img true).eff s).now :=
  ⟨State.longOp_startLong 6 _, State.progress_startLong 6 _, rfl, rfl⟩

/-- It answers nothing. -/
theorem State.firmwareEff_silent (img : List Byte) {s : State} (hout : s.out = []) : ¬ ((firmwareEff img true).eff s).Answered 0 := by
  have hsent : ((firmwareEff img true).eff s).out = (if true && s.updateAsks then s.askHandover 3 else s).out := rfl
  rw [State.Answered, hsent]
  split
  · simp [State.askHandover, State.rackMsg, State.msg, State.emit, State.modRack, hout]
  · simp [hout]

/-- Settling of the update: its result, and its event; the image slots and the entries but those of a long operation stay. -/
theorem State.rd_updateEnd {k : Nat} (hk : OwnDefault k) (h7 : k < key 0x7000 0) (h1 : k ≠ key 0x2001 1) (h2 : k ≠ key 0x2001 2) (h3 : k ≠ key 0x2001 3)
    (code inst e : Nat) (data : List Byte) (s : State) : ((s.logEvent code inst data).endLong e).rd k = s.rd k := by
  rw [State.rd_endLong_ne hk h1 h2 h3, State.rd_logEvent h7 hk]

theorem State.fwSlot_updateEnd (i code inst e : Nat) (data : List Byte) (s : State) :
    ((s.logEvent code inst data).endLong e).fwSlot i = s.fwSlot i := by
  unfold State.fwSlot
  rw [State.endLong_slots, State.logEvent_srv]

/-- The other slot takes an image. -/
theorem State.rd_setFwSlot {k : Nat} (hk : OwnDefault k) {i : Nat} (hne : k ≠ fwk 4 (i + 1)) (x : FwSlot) (s : State) :
    (s.setFwSlot i x).rd k = s.rd k := State.rd_wr_ne hne hk _ _

@[simp] theorem State.fwSlot_setFwSlot (i : Nat) (x : FwSlot) (s : State) : (s.setFwSlot i x).fwSlot i = x := Tbl.get_set_same _ _ _ _

theorem fwk_slot_ne {j : Nat} (_ : j = 1 ∨ j = 2) (s : State) : fwk j ≠ fwk 4 (s.fwOther + 1) := by
  unfold fwk key State.fwOther
  omega

/-- The result of an update (R370): the code of the image's check, or that of the write. -/
def updateResult (img : List Byte) (ok : Bool) (s : State) : Nat :=
  if s.imageCheck img ≠ 0 then s.imageCheck img else if ok then 0 else 0x0B00000A

/-- What an update leaves of the slots before its result is written. -/
def State.updateSlots (img : List Byte) (e : Nat) (s : State) : State :=
  if e = 0 then (s.setFwSlot s.fwOther { img := img, version := fwVersion img, security := fwSecurity img }).wr (fwk 2) 2
  else (s.setFwSlot s.fwOther { (s.fwSlot s.fwOther) with valid := false }).wr (fwk 2) (if s.rdN (fwk 2) = 2 then 0 else s.rd (fwk 2))

theorem State.updateComplete_eq {s : State} (hlong : s.longOp = 6) (ok : Bool) :
    s.updateComplete ok = ((((s.modSrv (fun v => { v with longImg := [] })).updateSlots s.srv.longImg (updateResult s.srv.longImg ok s)).wr (fwk 6)
      (updateResult s.srv.longImg ok s)).logEvent 0x0B04 0 (d32 (updateResult s.srv.longImg ok s) ++ d32 (fwVersion s.srv.longImg))).endLong
        (updateResult s.srv.longImg ok s) := by
  unfold State.updateComplete
  rw [if_neg (not_not.2 hlong)]
  rfl

theorem State.rd_updateSlots_runs (img : List Byte) (e : Nat) (s : State) : (s.updateSlots img e).rd (fwk 1) = s.rd (fwk 1) := by
  unfold State.updateSlots
  split <;> rw [State.rd_wr_ne (by decide) (by decide), State.rd_setFwSlot (by decide) (fwk_slot_ne (.inl rfl) s)]

theorem State.updateSlots_pending (img : List Byte) (s : State) : (s.updateSlots img 0).rd (fwk 2) = 2 ∧
    (s.updateSlots img 0).fwSlot s.fwOther = { img := img, version := fwVersion img, security := fwSecurity img } :=
  ⟨State.rd_wr_same _ _ _, State.fwSlot_setFwSlot s.fwOther _ s⟩

theorem State.updateSlots_invalid (img : List Byte) {e : Nat} (he : e ≠ 0) (s : State) : ((s.updateSlots img e).fwSlot s.fwOther).valid = false ∧
    (s.updateSlots img e).rd (fwk 2) = if s.rdN (fwk 2) = 2 then 0 else s.rd (fwk 2) := by
  unfold State.updateSlots
  rw [if_neg he]
  exact ⟨congrArg FwSlot.valid (State.fwSlot_setFwSlot s.fwOther _ s), State.rd_wr_same _ _ _⟩

theorem State.rd_repairBit {k : Nat} (hk : OwnDefault k) (h7 : k < key 0x7000 0) (hne : k ≠ key 0x2400 1) (i : Nat) (v : Bool) (code : Nat)
    (data : List Byte) (s : State) : (s.repairBit i v code data).rd k = s.rd k := by
  unfold State.repairBit
  dsimp only
  split
  · rw [State.rd_logEvent h7 hk, State.rd_setBit_ne hne hk]
  · rw [State.rd_setBit_ne hne hk]

/-- CONFIRM leaves the firmware's entries as the confirmed image sets them, be there a repair-map instruction or not. -/
theorem State.rd_confirmEff {k : Nat} (hk : OwnDefault k) (hlo : key 0x2620 0 ≤ k) (hhi : k < key 0x7000 0) (s : State) :
    (confirmEff.eff s).rd k = ((s.wr (fwk 5) (s.fwSlot s.fwRuns).security).wr (fwk 2) 0).rd k := by
  have hne : ∀ j, j < 256 → k ≠ key 0x2400 j := fun j hj => by unfold key at hlo ⊢; omega
  have hstate (u : State) : (u.imageState 0).rd k = (u.wr (fwk 2) 0).rd k := by
    unfold State.imageState
    rw [State.rd_logEvent hhi hk]
    rfl
  have hreserve (left : Nat) (u : State) : (u.reserveLeft 4 left).rd k = u.rd k := by
    unfold State.reserveLeft
    dsimp only
    rw [State.rd_repairBit hk hhi (hne 1 (by decide)), State.rd_repairBit hk hhi (hne 1 (by decide)), State.rd_wr_ne (hne _ (by omega)) hk]
  unfold confirmEff
  dsimp only
  split
  · rw [hreserve]
    exact (State.rd_wr_ne (hne 6 (by decide)) hk _ _).trans (hstate _)
  · exact hstate _

theorem State.confirmEff_entries (s : State) : (confirmEff.eff s).rd (fwk 2) = 0 ∧ (confirmEff.eff s).rdN (fwk 5) = (s.fwSlot s.fwRuns).security ∧
    (confirmEff.eff s).fwRuns = s.fwRuns := by
  unfold State.fwRuns State.rdN
  simp only [State.rd_confirmEff (k := fwk 2) (by decide) (by decide) (by decide), State.rd_confirmEff (k := fwk 5) (by decide) (by decide) (by decide),
    State.rd_confirmEff (k := fwk 1) (by decide) (by decide) (by decide)]
  refine ⟨State.rd_wr_same _ _ _, ?_, ?_⟩
  · rw [State.rd_wr_ne (by decide) (by decide), State.rd_wr_same, Int.toNat_natCast]
    rfl
  · rw [State.rd_wr_ne (by decide) (by decide), State.rd_wr_ne (by decide) (by decide)]

theorem State.confirm_passes {q : Req} {s : State} (hs : s.Up) (hpass : s.Passes q 0x2620 3 0 1) (hmod : s.mod.code ∈ [3, 4, 5, 6])
    (htrial : s.rdN (fwk 2) = 1) : s.hostWrite q 0x2620 3 0 1 confirmEff = ((confirmEff.eff (s.handling q.sid)).answer 0).longBy q 0 := by
  have hmod' : (s.handling q.sid).mod.code ∈ [3, 4, 5, 6] := hmod
  have htrial' : (s.handling q.sid).rdN (fwk 2) = 1 := htrial
  have hown : confirmEff.own (s.handling q.sid) = 0 := by
    simp only [confirmEff, htrial', needs_of_true (List.contains_iff_mem.2 hmod'), firstFail_pair_of_zero]
    rfl
  rw [State.hostWrite_unforwarded (by decide +kernel) hs hpass, State.carries_of_pass hown]
  rfl

theorem State.confirm_fails {q : Req} {s : State} (hs : s.Up) (hpass : s.Passes q 0x2620 3 0 1) (hmod : s.mod.code ∈ [3, 4, 5, 6])
    (htrial : s.rdN (fwk 2) ≠ 1) : s.hostWrite q 0x2620 3 0 1 confirmEff = ((s.handling q.sid).answer abState).longBy q 0 := by
  have hmod' : (s.handling q.sid).mod.code ∈ [3, 4, 5, 6] := hmod
  have htrial' : ((s.handling q.sid).rdN (fwk 2) == 1) = false := beq_eq_false_iff_ne.2 htrial
  have hown : confirmEff.own (s.handling q.sid) = abState := by
    simp only [confirmEff, needs_of_false htrial', needs_of_true (List.contains_iff_mem.2 hmod'), firstFail_pair_of_zero]
  rw [State.hostWrite_unforwarded (by decide +kernel) hs hpass, State.carries_of_fail hown (by decide)]

/-- Settles O60. -/
theorem securityAndFirmwareCommandsComplete : Obligations.SecurityAndFirmwareCommandsComplete := by
  refine ⟨fun t q s hup hlong => ⟨fun hpass => ⟨_, rfl, ?_⟩, fun hpass => ⟨_, rfl, ?_⟩⟩,
    fun t q r k s hup hlong hpass hk => ⟨fun hport => ⟨_, rfl, ?_⟩, fun hport => ⟨_, rfl, ?_⟩⟩,
    fun t q img s hup hlong hpass hlen hpartner => ⟨_, rfl, ?_⟩, fun t q img s hup hlong hpass hlen hasks hpartner => ⟨_, rfl, ?_⟩,
    fun t ok s img c e hlong himg hc he => ⟨_, rfl, ?_⟩,
    fun t q s hup hlong hpass hmod => ⟨fun htrial => ⟨_, rfl, ?_⟩, fun htrial => ⟨_, rfl, ?_⟩⟩⟩
  · obtain ⟨⟨hbit, hlocked, hanswer⟩, hothers⟩ := State.lock_completes (s := s.begin t) (area := 2) (index := 0x2600) (sub := 2) (by decide +kernel) ⟨hup, hlong⟩ hpass
    exact ⟨hbit, hlocked, hanswer, hothers⟩
  · obtain ⟨⟨hbit, hlocked, hanswer⟩, hothers⟩ := State.lock_completes (s := s.begin t) (area := 3) (index := 0x2600) (sub := 3) (by decide +kernel) ⟨hup, hlong⟩ hpass
    exact ⟨hbit, hlocked, hanswer, hothers⟩
  · rw [State.writeKey_service (s := s.begin t) ⟨hup, hlong⟩ hport hk hpass]
    have hblob := State.blob_putKey r.rank k ((s.begin t).handling q.sid)
    refine ⟨hblob, ?_, State.bit_setBit_same _ _ _ _, State.answered_answer _ _⟩
    rw [State.keySet, State.blob_answer, hblob, List.isEmpty_eq_false_iff.2 (List.ne_nil_of_length_pos (by omega))]
    rfl
  · rw [State.writeKey_elsewhere (s := s.begin t) ⟨hup, hlong⟩ hport hk]
    unfold State.refuse
    rw [if_pos rfl]
    exact ⟨State.logEvent_blobs .., (State.sends_logEvent ..).answered (State.answered_answer ..)⟩
  · rw [State.firmwareUpdate_starts (s := s.begin t) ⟨hup, hlong⟩ hpass hlen hpartner]
    have hsilent := State.firmwareEff_silent img (s := (s.begin t).handling q.sid) rfl
    obtain ⟨hop, hprogress, himg, hat⟩ := State.firmwareEff_starts img ((s.begin t).handling q.sid)
    rw [State.longBy_starts (by rw [hop]; decide)]
    exact ⟨hop, hprogress, himg, rfl, hat, hsilent⟩
  · rw [State.firmwareUpdate_refused (s := s.begin t) ⟨hup, hlong⟩ hpass hlen hasks hpartner]
    exact ⟨State.longBy_od .., State.answered_answer_longBy ..⟩
  · have he' : updateResult img ok (s.begin t) = e := by rw [he, hc]; rfl
    rw [State.updateComplete_eq (s := s.begin t) hlong, show (s.begin t).srv.longImg = img from himg.symm, he']
    refine ⟨State.longOp_endLong .., State.result_endLong .., ?_, ?_, fun h0 => ⟨?_, ?_⟩, fun hne => ⟨?_, ?_⟩⟩
    · unfold State.rdN
      rw [State.rd_updateEnd (by decide) (by decide) (by decide) (by decide) (by decide), State.rd_wr_same, Int.toNat_natCast]
    · unfold State.fwRuns State.rdN
      rw [State.rd_updateEnd (by decide) (by decide) (by decide) (by decide) (by decide), State.rd_wr_ne (by decide) (by decide),
        State.rd_updateSlots_runs]
      rfl
    · subst h0
      rw [State.rd_updateEnd (by decide) (by decide) (by decide) (by decide) (by decide), State.rd_wr_ne (by decide) (by decide)]
      exact (State.updateSlots_pending img _).1
    · subst h0
      rw [State.fwSlot_updateEnd]
      exact (State.updateSlots_pending img ((s.begin t).modSrv (fun v => { v with longImg := [] }))).2
    · rw [State.fwSlot_updateEnd]
      exact (State.updateSlots_invalid img hne ((s.begin t).modSrv (fun v => { v with longImg := [] }))).1
    · rw [State.rd_updateEnd (by decide) (by decide) (by decide) (by decide) (by decide), State.rd_wr_ne (by decide) (by decide)]
      exact (State.updateSlots_invalid img hne ((s.begin t).modSrv (fun v => { v with longImg := [] }))).2
  · rw [State.confirm_passes (s := s.begin t) ⟨hup, hlong⟩ hpass hmod htrial]
    obtain ⟨hstate, hminimum, hruns⟩ := State.confirmEff_entries ((s.begin t).handling q.sid)
    refine ⟨(State.rd_longBy ..).trans hstate, ?_, ?_, State.answered_answer_longBy ..⟩
    · rw [State.rdN_longBy, State.rdN_answer, hminimum]
      rfl
    · exact (State.rdN_longBy ..).trans hruns
  · rw [State.confirm_fails (s := s.begin t) ⟨hup, hlong⟩ hpass hmod htrial]
    exact ⟨State.rd_longBy .., State.answered_answer_longBy ..⟩

end Sys2Proof.Machine
end

section
/-! The sequence of a session's requests (R354, R356): what is discarded, repeated, out of sequence, or answered BUSY. -/

namespace Sys2Proof.Machine

section
variable {svc : Nat} {d : Datagram} {x : Session} {s : State}

/-- Counting a datagram leaves the progress of a long operation. -/
theorem State.progress_rateOk (h : (s.rateOk d).1 = true) : (s.rateOk d).2.progress = s.progress := by
  revert h
  unfold State.rateOk
  split
  · exact fun _ => rfl
  · lift_lets
    intro fresh n counted
    by_cases hwithin : n ≤ counted.rdN (key 0x2720 3)
    · rw [if_pos hwithin]
      exact fun _ => rfl
    · rw [if_neg hwithin]
      exact fun h => absurd h Bool.false_ne_true

/-- A datagram without the magic or with a wrong tag is discarded. -/
theorem State.request_of_bad (hup : s.serverUp = true) (hopen : s.PairOpen d) (hignored : s.ignores d = false) (hrate : (s.rateOk d).1 = true)
    (hsession : s.session d.sid = some x) (hbad : d.magic = false ∨ d.tag ≠ tagOf x.key (requestBytes svc d)) (f : Session → State → State) :
    s.request svc d f = (s.rateOk d).2.discard := by
  have hsession' : (s.rateOk d).2.session d.sid = some x := by rw [State.session, (State.rateOk_of_within hrate).2]; exact hsession
  unfold State.request
  rw [State.arriving_eq hup hopen hignored hrate]
  dsimp only
  rw [hsession']
  obtain h | h := hbad <;> simp [h]

/-- A request that is not the next one does not find its session waiting for a further answer. -/
theorem State.request_of_old (h : s.Valid svc d x) (hseq : d.seq ≠ (x.lastSeq.getD 0 + 1) % 2 ^ 32) (f : Session → State → State) :
    s.request svc d f = ((s.rateOk d).2.setSession d.sid { x with heard := s.now }).sequenced d { x with heard := s.now }
      (fun s' => s'.accepting d (f { x with heard := s.now })) := by
  rw [State.request_of_valid h]
  simp only [Session.hears, decide_eq_false hseq, Bool.false_and, Bool.false_eq_true, if_false]

/-- A repeated request gets the stored response. -/
theorem State.request_of_repeated {l : List Byte} (h : s.Valid svc d x) (hseq : x.lastSeq = some d.seq) (hresp : x.resp = some l)
    (f : Session → State → State) :
    s.request svc d f = ((s.rateOk d).2.setSession d.sid { x with heard := s.now }).datagram d l := by
  have hlast : x.lastSeq.getD 0 = d.seq := by rw [hseq]; rfl
  rw [State.request_of_old h (by omega), State.sequenced]
  simp only [hlast, hresp, if_true]

/-- A request out of sequence is counted. -/
theorem State.request_of_stray (h : s.Valid svc d x) (hlast : d.seq ≠ x.lastSeq.getD 0) (hnext : d.seq ≠ (x.lastSeq.getD 0 + 1) % 2 ^ 32)
    (f : Session → State → State) :
    s.request svc d f = ((s.rateOk d).2.setSession d.sid { x with heard := s.now }).inc (key 0x2610 8) := by
  rw [State.request_of_old h hnext, State.sequenced]
  simp only [if_neg hlast, if_neg hnext]

/-- During a long operation the next request is answered BUSY with the progress. -/
theorem State.request_of_busy (h : s.Valid svc d x) (hnext : d.seq = (x.lastSeq.getD 0 + 1) % 2 ^ 32) (howes : x.owes = false) (hlong : s.longOp ≠ 0)
    (f : Session → State → State) :
    s.request svc d f = ((s.rateOk d).2.setSession d.sid { x with heard := s.now, hdr := some (svc, d) }).emit
      (response svc d x 5 s.progress abBusy []) := by
  have hrate : (s.rateOk d).1 = true := h.2.2.2.1
  have hnew : d.seq ≠ x.lastSeq.getD 0 := by omega
  have hhears : x.hears svc d s.now = { x with heard := s.now, hdr := some (svc, d) } := if_pos (by rw [decide_eq_true hnext, howes]; rfl)
  rw [State.request_of_valid h, if_neg (by simp [howes]), State.sequenced, hhears, if_neg hnew, if_pos hnext]
  set taken : State := (s.rateOk d).2.setSession d.sid { x with heard := s.now, hdr := some (svc, d) } with htaken
  have hlong' : taken.longOp ≠ 0 := by
    rw [htaken, (State.rateOk_of_within hrate).1]
    exact hlong
  have hsession : taken.session d.sid = some { x with heard := s.now, hdr := some (svc, d) } := Tbl.find?_set_same _ _ _
  have hprogress : taken.progress = s.progress := State.progress_rateOk hrate
  unfold State.accepting
  rw [if_pos hlong', hprogress, State.respond]
  simp only [hsession]
  rfl

end

/-- Every request of a session but its Open is taken under its service. -/
theorem exec_request {t : Time} {d : Datagram} {svc : Nat} {i : Instr}
    (h : (svc, i) ∈ [(2, .sessionProve t d), (3, .sessionClose t d), (4, .keepAlive t d), (0x10, .readEntry t d), (0x11, .writeEntry t d),
      (0x12, .segmentRead t d), (0x13, Instr.segmentWrite t d)]) (s : State) : ∃ f, exec i s = .next ((s.begin t).request svc d f) := by
  simp only [List.mem_cons, Prod.mk.injEq, List.not_mem_nil, or_false] at h
  obtain ⟨rfl, rfl⟩ | ⟨rfl, rfl⟩ | ⟨rfl, rfl⟩ | ⟨rfl, rfl⟩ | ⟨rfl, rfl⟩ | ⟨rfl, rfl⟩ | ⟨rfl, rfl⟩ := h <;> exact ⟨_, rfl⟩

/-- Settles O52. -/
theorem requestsKeepTheirSequence : Obligations.RequestsKeepTheirSequence := by
  intro t d x s s0 svc i hi hs0
  subst hs0
  obtain ⟨f, hexec⟩ := exec_request hi s
  refine ⟨fun hup hopen hignored hrate hsession hbad => ⟨_, hexec, ?_⟩, fun hvalid hseq l hresp => ⟨_, hexec, ?_⟩,
    fun hvalid hlast hnext => ⟨_, hexec, ?_⟩, fun hvalid hnext howes hlong => ⟨_, hexec, ?_⟩⟩
  · rw [State.request_of_bad (s := s.begin t) hup hopen hignored hrate hsession hbad]
    obtain ⟨hcounted, hsame⟩ := State.rateOk_of_within hrate
    rw [hcounted]
    exact ⟨rfl, hsame, State.rdN_inc_same _ _ _⟩
  · have hrate : ((s.begin t).rateOk d).1 = true := hvalid.2.2.2.1
    rw [State.request_of_repeated hvalid hseq hresp, (State.rateOk_of_within hrate).1]
    exact ⟨rfl, rfl, rfl⟩
  · have hrate : ((s.begin t).rateOk d).1 = true := hvalid.2.2.2.1
    rw [State.request_of_stray hvalid hlast hnext, (State.rateOk_of_within hrate).1]
    exact ⟨rfl, State.rdN_inc_same _ _ _⟩
  · have hrate : ((s.begin t).rateOk d).1 = true := hvalid.2.2.2.1
    rw [State.request_of_busy (s := s.begin t) hvalid hnext howes hlong, (State.rateOk_of_within hrate).1]
    exact ⟨rfl, rfl, Tbl.find?_set_same _ _ _⟩

end Sys2Proof.Machine
end

section
/-! Sessions (R352, R355, R356, R359): how a session's request is answered, how sessions open, prove themselves, close and end. -/

namespace Sys2Proof.Machine

/-! ### One answer -/

theorem State.sessionReply_eq {sid : Nat} (hsid : 0 < sid) (s : State) : s.sessionReply sid =
    State.each (s.out.filter Output.isReply) (fun o s => match o with
      | .reply e p l => s.deliver sid e p l
      | .msg _ _ _ => s) { s with out := s.out.filter (fun o => !o.isReply) } := by
  unfold State.sessionReply
  rw [if_neg (Nat.pos_iff_ne_zero.1 hsid)]
  lift_lets
  intro isReply rs kept
  have hreply : isReply = Output.isReply := funext fun o => by cases o <;> rfl
  subst rs kept
  rw [hreply]
  congr 1
  funext o u
  cases o <;> rfl

/-- What was sent holds one answer. -/
def OneReply (e : Nat) (s : State) : Prop :=
  ∃ a b : List Output, s.out = a ++ .reply e 0 [] :: b ∧ (∀ o ∈ a, o.isReply = false) ∧ ∀ o ∈ b, o.isReply = false

theorem OneReply.of_answer {s : State} (h : ∀ o ∈ s.out, o.isReply = false) (e : Nat) : OneReply e (s.answer e) :=
  ⟨s.out, [], rfl, h, by simp⟩

theorem OneReply.tells {e : Nat} {s t : State} (h : OneReply e s) (k : Tells s t) : OneReply e t := by
  obtain ⟨a, b, hout, ha, hb⟩ := h
  obtain ⟨l, ht, hl⟩ := k
  refine ⟨a, b ++ l, by rw [ht, hout]; simp, ha, fun o ho => ?_⟩
  obtain ho | ho := List.mem_append.1 ho
  · exact hb o ho
  · exact hl o ho

theorem List.filter_isReply {a : List Output} (h : ∀ o ∈ a, o.isReply = false) :
    a.filter Output.isReply = [] ∧ a.filter (fun o => !o.isReply) = a :=
  ⟨List.filter_eq_nil_iff.2 fun o ho => by simp [h o ho], List.filter_eq_self.2 fun o ho => by simp [h o ho]⟩

/-- The one answer goes to the session; the messages stay. -/
theorem OneReply.sessionReply {e : Nat} {s : State} (h : OneReply e s) {sid : Nat} (hsid : 0 < sid) :
    ∃ a b : List Output, s.out = a ++ .reply e 0 [] :: b ∧ s.sessionReply sid = { s with out := a ++ b }.deliver sid e 0 [] := by
  obtain ⟨a, b, hout, ha, hb⟩ := h
  refine ⟨a, b, hout, ?_⟩
  rw [State.sessionReply_eq hsid, hout]
  simp only [List.filter_append, List.filter_cons, List.filter_isReply ha, List.filter_isReply hb]
  rfl

theorem OneReply.said {e : Nat} {s : State} (h : OneReply e s) : s.out.any Output.isReply = true := by
  obtain ⟨a, b, hout, -, -⟩ := h
  rw [hout]
  simp [Output.isReply]

theorem OneReply.alone {e : Nat} {a b : List Output} (h : [Output.reply e 0 []] = a ++ .reply e 0 [] :: b) : a = [] ∧ b = [] := by
  have hlength := congrArg List.length h
  simp only [List.length_append, List.length_cons, List.length_nil] at hlength
  exact ⟨List.eq_nil_of_length_eq_zero (by omega), List.eq_nil_of_length_eq_zero (by omega)⟩

section
variable {svc : Nat} {d : Datagram} {x y : Session} {s : State}

/-- The response of the session to the request it handles. -/
theorem State.deliver_session (hsid : d.sid < 2 ^ 32) (hy : s.session d.sid = some y) (hhdr : y.hdr = some (svc, d)) {e : Nat} (he : e ≠ abBusy) :
    ∃ l, s.deliver d.sid e 0 [] = (s.setSession d.sid { y with lastSeq := some d.seq, resp := l, owes := false }).emit (response svc d y 1 0 e []) := by
  rw [State.deliver, if_pos (show d.sid < nobody from hsid), if_neg he, State.respond]
  simp only [hy, hhdr]
  exact ⟨_, rfl⟩

/-- A response leaves whether the session has proved itself, and whom the server ignores. -/
theorem State.deliver_proved (hsid : d.sid < 2 ^ 32) (hy : s.session d.sid = some y) (hhdr : y.hdr = some (svc, d)) (e : Nat) :
    (∃ z, (s.deliver d.sid e 0 []).session d.sid = some z ∧ z.proved = y.proved) ∧ (s.deliver d.sid e 0 []).srv.blocked = s.srv.blocked ∧
      (s.deliver d.sid e 0 []).od = s.od ∧ (s.deliver d.sid e 0 []).now = s.now := by
  by_cases he : e = abBusy
  · rw [State.deliver, if_pos (show d.sid < nobody from hsid), if_pos he, State.respond]
    simp only [hy, hhdr]
    exact ⟨⟨y, hy, rfl⟩, rfl, rfl, rfl⟩
  · obtain ⟨l, hl⟩ := State.deliver_session hsid hy hhdr he
    rw [hl]
    exact ⟨⟨_, Tbl.find?_set_same _ _ _, rfl⟩, rfl, rfl, rfl⟩

/-- A request that is answered at once: its answer is the session's response. -/
theorem State.accepting_one {f : State → State} {e : Nat} (hlong : s.longOp = 0) (hlow : 0 < d.sid) (hone : OneReply e (f s)) :
    ∃ a b, (f s).out = a ++ .reply e 0 [] :: b ∧ s.accepting d f = { f s with out := a ++ b }.deliver d.sid e 0 [] := by
  obtain ⟨a, b, hout, hreply⟩ := hone.sessionReply hlow
  refine ⟨a, b, hout, ?_⟩
  unfold State.accepting
  rw [if_neg (by simp [hlong])]
  lift_lets
  intro v said replied
  have hsaid : said = true := Eq.trans (congrArg v.out.any (funext fun o => by cases o <;> rfl)) hone.said
  rw [← hreply]
  simp only [hsaid, Bool.true_or, if_true]
  split <;> rfl

/-- Counting a datagram touches the rates alone. -/
theorem State.rateOk_rates (h : (s.rateOk d).1 = true) :
    ∃ c r, (s.rateOk d).2 = { s with srv := { s.srv with rateCount := c, rateStart := r } } := by
  revert h
  unfold State.rateOk
  split
  · exact fun _ => ⟨_, _, rfl⟩
  · lift_lets
    intro fresh n counted
    by_cases hwithin : n ≤ counted.rdN (key 0x2720 3)
    · rw [if_pos hwithin]
      exact fun _ => ⟨_, _, rfl⟩
    · rw [if_neg hwithin]
      exact fun h => absurd h Bool.false_ne_true

end

/-! ### Open -/

/-- The nonce of the module for the next session. -/
def State.nonceBytes (s : State) : List Byte := leBytes 16 (Config.nonce s.fresh).toNat

/-- Whether an Open needs no proof: at the service port, while no key of the role is set. -/
def State.opensFree (d : Datagram) (r : Nat) (s : State) : Bool := d.service && (s.blob (roleKeyAt r)).isEmpty

/-- The session that an Open of role rank r begins (R355). -/
def State.newSession (d : Datagram) (r : Nat) (s : State) : Session :=
  { src := if d.service then 0 else d.src, service := d.service, rank := r
    key := if s.opensFree d r then none
      else some (hmac (s.blob (roleKeyAt r)) (label "BDSK" ++ (Sys2Proof.slice 4 16 d.data ++ s.nonceBytes ++ d32 s.srv.nextSid)))
    proof := if s.opensFree d r then []
      else hmac (s.blob (roleKeyAt r)) (label "BDPR" ++ (Sys2Proof.slice 4 16 d.data ++ s.nonceBytes ++ d32 s.srv.nextSid) ++ d8 r)
    proved := s.opensFree d r, lastSeq := some d.seq, opened := s.now, heard := s.now }

theorem State.sessionOpened_if (c : Bool) (sid : Nat) (x : Session) (s : State) :
    (if c then s.sessionOpened sid x else s).srv = s.srv ∧ (if c then s.sessionOpened sid x else s).now = s.now := by
  cases c
  · exact ⟨rfl, rfl⟩
  · exact ⟨State.logEvent_srv .., State.logEvent_now ..⟩

section
variable {d : Datagram} {s : State} (hmagic : d.magic = true) (htag : ∀ x ∈ d.tag, x = 0) (hlong : s.longOp = 0)
include hmagic htag hlong

theorem State.openSession_opens (hrefusal : s.openRefusal d (d.data.headD 0).toNat = 0) :
    ∃ v : State, v.srv = { s.srv with sessions := Tbl.set s.srv.nextSid (s.newSession d (d.data.headD 0).toNat) s.srv.sessions
                                      nextSid := (s.srv.nextSid + 1) % 2 ^ 32 } ∧ v.now = s.now ∧
      s.openSession d = v.openReply d s.srv.nextSid 1 0 0 s.nonceBytes := by
  have hgood : (!d.magic || d.tag.any (· != 0)) = false := by simpa [hmagic] using htag
  unfold State.openSession
  rw [if_neg (by rw [hgood]; exact Bool.false_ne_true), if_neg (by simp [hlong])]
  lift_lets
  intro fields r e sid
  rw [if_neg (show ¬ e ≠ 0 from not_not.2 hrefusal)]
  refine ⟨_, ?_, ?_, rfl⟩
  · exact (State.sessionOpened_if ..).1.trans rfl
  · exact (State.sessionOpened_if ..).2.trans rfl

theorem State.openSession_refused {e : Nat} (he : e = s.openRefusal d (d.data.headD 0).toNat) (hne : e ≠ 0) :
    s.openSession d = s.openReply d 0 1 0 e [] := by
  have hgood : (!d.magic || d.tag.any (· != 0)) = false := by simpa [hmagic] using htag
  subst he
  unfold State.openSession
  rw [if_neg (by rw [hgood]; exact Bool.false_ne_true), if_neg (by simp [hlong])]
  exact if_pos hne

end

/-! ### Prove -/

/-- A wrong proof is noted for its address; one too many within a minute blocks the address. -/
def State.noteFailed (x : Session) (s : State) : State :=
  if x.service then s
  else
    let recent := ((Tbl.get [] x.src s.srv.failed).filter (fun t => decide (s.now < t + Time.sec 60))) ++ [s.now]
    let s := s.modSrv (fun r => { r with failed := Tbl.set x.src recent r.failed })
    if recent.length < s.rdN (key 0x2610 3) then s
    else (s.modSrv (fun r => { r with blocked := Tbl.set x.src (s.now + Time.sec (s.rdN (key 0x2610 4))) r.blocked })).logEvent 0x0B02 0 (d32 x.src)

/-- Noting a wrong proof keeps the sessions, and the entries below the log. -/
theorem State.noteFailed_same (x : Session) (s : State) : Tells s (s.noteFailed x) ∧ (s.noteFailed x).srv.sessions = s.srv.sessions ∧
    (s.noteFailed x).now = s.now ∧ (s.noteFailed x).rdN (key 0x2610 6) = s.rdN (key 0x2610 6) := by
  unfold State.noteFailed
  split
  · exact ⟨Tells.of_eq rfl, rfl, rfl, rfl⟩
  · dsimp only
    split
    · exact ⟨Tells.of_eq rfl, rfl, rfl, rfl⟩
    · refine ⟨Tells.trans ?_ (State.tells_logEvent ..), ?_, (State.logEvent_now ..).trans ?_, (State.rdN_logEvent (by decide) (by decide) ..).trans ?_⟩
      · exact Tells.of_eq rfl
      · rw [State.logEvent_srv]
        rfl
      · rfl
      · rfl

/-- Where one wrong proof is one too many, the address is blocked. -/
theorem State.blocked_noteFailed {x : Session} {s : State} (hservice : x.service = false) (hone : s.rdN (key 0x2610 3) ≤ 1) :
    Tbl.find? x.src (s.noteFailed x).srv.blocked = some (s.now + Time.sec (s.rdN (key 0x2610 4))) := by
  unfold State.noteFailed
  rw [if_neg (by simp [hservice])]
  lift_lets
  intro recent noted
  have hmany : ¬ recent.length < noted.rdN (key 0x2610 3) := by
    have hlength : recent.length = _ + 1 := List.length_append
    have hsame : noted.rdN (key 0x2610 3) = s.rdN (key 0x2610 3) := rfl
    omega
  rw [if_neg hmany, State.logEvent_srv]
  exact Tbl.find?_set_same _ _ _

section
variable {d : Datagram} {x : Session} {s : State} (hproved : x.proved = false)
include hproved

theorem State.prove_fails (hdata : d.data ≠ x.proof) :
    ∃ e, s.prove d x = ({ s.inc (key 0x2610 6) with fresh := s.fresh + 1 }.answer e).noteFailed x := by
  unfold State.prove
  rw [if_neg (by simp [hproved]), if_neg hdata]
  exact ⟨_, rfl⟩

theorem State.prove_succeeds (hdata : d.data = x.proof) {y : Session} (hy : s.session d.sid = some y) :
    s.prove d x = ((s.setSession d.sid { y with proved := true }).sessionOpened d.sid x).answer 0 := by
  unfold State.prove
  rw [if_neg (by simp [hproved]), if_pos hdata]
  simp only [hy]

end

/-! ### Close -/

theorem State.sessionReply_none {sid : Nat} {s : State} (h : ∀ o ∈ s.out, o.isReply = false) (hsid : 0 < sid) : s.sessionReply sid = s := by
  rw [State.sessionReply_eq hsid, (List.filter_isReply h).1, (List.filter_isReply h).2]
  rfl

/-- A session that ends while its request is taken gets no further answer. -/
theorem State.accepting_ended {d : Datagram} {f : State → State} {s : State} (hlong : s.longOp = 0) (hlow : 0 < d.sid)
    (hout : ∀ o ∈ (f s).out, o.isReply = false) (hended : (f s).session d.sid = none) : s.accepting d f = f s := by
  unfold State.accepting
  rw [if_neg (by simp [hlong])]
  dsimp only
  rw [State.sessionReply_none hout hlow, hended]

theorem Tbl.find?_filter_none {α : Type} {k : Nat} (p : Nat × α → Bool) (l : Tbl α) (h : ∀ v, p (k, v) = false) : Tbl.find? k (l.filter p) = none := by
  induction l with
  | nil => rfl
  | cons e r ih =>
    obtain ⟨j, v⟩ := e
    by_cases hj : j = k
    · rw [List.filter_cons_of_neg (by simp [hj, h]), ih]
    · rw [List.filter_cons]
      split
      · rw [Tbl.find?, if_neg hj, ih]
      · exact ih

theorem State.session_endSession_same (sid : Nat) (s : State) : (s.endSession sid).session sid = none :=
  Tbl.find?_filter_none _ _ fun _ => bne_self_eq_false _

theorem State.session_endSession_other {k sid : Nat} (h : k ≠ sid) (s : State) : (s.endSession sid).session k = s.session k :=
  Tbl.find?_filter _ _ fun _ => bne_iff_ne.2 h

/-! ### What the sessions' commands do -/

theorem State.taken_rates {svc : Nat} {d : Datagram} {x : Session} {s : State} (h : s.Asks svc d x) :
    ∃ c r, (s.rateOk d).2 = { s with srv := { s.srv with rateCount := c, rateStart := r } } := State.rateOk_rates h.1.2.2.2.1

theorem sessionOpen_completes {t : Time} {d : Datagram} {s : State} (hup : s.serverUp = true) (hlong : s.longOp = 0) (hopen : s.PairOpen d)
    (hignored : (s.begin t).ignores d = false) (hrate : ((s.begin t).rateOk d).1 = true) (hmagic : d.magic = true) (htag : ∀ x ∈ d.tag, x = 0)
    (hrefusal : (s.begin t).openRefusal d (d.data.headD 0).toNat = 0) :
    Completes (.sessionOpen t d) s (fun u => u.srv.nextSid = (s.srv.nextSid + 1) % 2 ^ 32 ∧
      Output.msg "DATAGRAM" (replyTo d)
        (datagramBytes 1 s.srv.nextSid d.seq d.index d.sub d.elem 1 0 0 s.nonceBytes ++ List.replicate 16 0) ∈ u.out ∧
      u.session s.srv.nextSid = some ((s.begin t).newSession d (d.data.headD 0).toNat) ∧ u.now = (s.begin t).now) := by
  refine ⟨_, rfl, ?_⟩
  obtain ⟨c, r, hcounted⟩ := State.rateOk_rates hrate
  rw [State.arriving_eq (s := s.begin t) hup hopen hignored hrate, hcounted]
  obtain ⟨v, hsrv, hnow, hopened⟩ := State.openSession_opens hmagic htag
    (s := { s.begin t with srv := { (s.begin t).srv with rateCount := c, rateStart := r } }) hlong hrefusal
  rw [hopened]
  refine ⟨congrArg Server.nextSid hsrv, List.mem_append_right _ (List.mem_singleton.2 rfl), ?_, hnow⟩
  refine Eq.trans (congrArg (fun w : Server => Tbl.find? s.srv.nextSid w.sessions) hsrv) ?_
  exact Tbl.find?_set_same _ _ _

theorem sessionOpen_refused {t : Time} {d : Datagram} {s : State} (hup : s.serverUp = true) (hlong : s.longOp = 0) (hopen : s.PairOpen d)
    (hignored : (s.begin t).ignores d = false) (hrate : ((s.begin t).rateOk d).1 = true) (hmagic : d.magic = true) (htag : ∀ x ∈ d.tag, x = 0)
    {e : Nat} (he : e = (s.begin t).openRefusal d (d.data.headD 0).toNat) (hne : e ≠ 0) :
    Completes (.sessionOpen t d) s (fun u => u.srv.sessions = s.srv.sessions ∧
      u.out = [.msg "DATAGRAM" (replyTo d) (datagramBytes 1 0 d.seq d.index d.sub d.elem 1 0 e [] ++ List.replicate 16 0)]) := by
  refine ⟨_, rfl, ?_⟩
  obtain ⟨c, r, hcounted⟩ := State.rateOk_rates hrate
  rw [State.arriving_eq (s := s.begin t) hup hopen hignored hrate, hcounted, State.openSession_refused hmagic htag
    (s := { s.begin t with srv := { (s.begin t).srv with rateCount := c, rateStart := r } }) hlong he hne]
  exact ⟨rfl, rfl⟩

section
variable {t : Time} {d : Datagram} {x : Session} {s : State}

theorem sessionProve_proves (hasks : (s.begin t).Asks 2 d x) (hproved : x.proved = false) (hdata : d.data = x.proof) :
    Completes (.sessionProve t d) s (fun u => response 2 d x 1 0 0 [] ∈ u.out ∧
      ∃ y, u.session d.sid = some y ∧ y.proved = true ∧ y.rank = x.rank ∧ y.key = x.key ∧ y.lastSeq = some d.seq) := by
  refine ⟨_, rfl, ?_⟩
  obtain ⟨c, r, hcounted⟩ := State.taken_rates hasks
  rw [State.request_of_asks hasks, hcounted]
  obtain ⟨⟨-, -, -, -, -, hlow, hhigh, -⟩, hlong, -, -⟩ := hasks
  generalize hy : ({ x with heard := (s.begin t).now, hdr := some (2, d) } : Session) = y
  set taken : State := State.setSession d.sid y { s.begin t with srv := { (s.begin t).srv with rateCount := c, rateStart := r } }
  have hsession : taken.session d.sid = some y := Tbl.find?_set_same _ _ _
  have hprove := State.prove_succeeds (d := d) (x := { x with heard := (s.begin t).now }) hproved hdata hsession
  have hquiet : ∀ o ∈ ((taken.setSession d.sid { y with proved := true }).sessionOpened d.sid { x with heard := (s.begin t).now }).out,
      o.isReply = false := by
    obtain ⟨l, hout, hl⟩ := State.tells_logEvent 0x0B00 0 (d32 d.sid ++ d8 x.rank ++ d32 x.src) (taken.setSession d.sid { y with proved := true })
    intro o ho
    exact hl o (by rwa [State.sessionOpened, hout] at ho)
  have hone := hprove ▸ OneReply.of_answer hquiet 0
  obtain ⟨a, b, -, haccept⟩ := State.accepting_one (s := taken) hlong hlow hone
  rw [haccept, hprove]
  generalize hz : ({ y with proved := true } : Session) = z at hquiet ⊢
  have hproves : ({ ((taken.setSession d.sid z).sessionOpened d.sid { x with heard := (s.begin t).now }).answer 0 with
      out := a ++ b } : State).session d.sid = some z :=
    Eq.trans (congrArg (fun v : Server => Tbl.find? d.sid v.sessions) (State.logEvent_srv ..)) (Tbl.find?_set_same _ _ _)
  obtain ⟨l, hl⟩ := State.deliver_session hhigh hproves (svc := 2) (by subst hz hy; rfl) (e := 0) (by decide)
  rw [hl]
  subst hz hy
  exact ⟨List.mem_append_right _ (List.mem_singleton.2 rfl), _, Tbl.find?_set_same _ _ _, rfl, rfl, rfl, rfl⟩

theorem sessionProve_fails (hasks : (s.begin t).Asks 2 d x) (hproved : x.proved = false) (hdata : d.data ≠ x.proof) :
    Completes (.sessionProve t d) s (fun u => u.rdN (key 0x2610 6) = (s.rdN (key 0x2610 6) + 1) % 2 ^ 32 ∧
      (∃ y, u.session d.sid = some y ∧ y.proved = false) ∧
      (x.service = false → s.rdN (key 0x2610 3) ≤ 1 → Tbl.find? x.src u.srv.blocked = some (u.now + Time.sec (s.rdN (key 0x2610 4))))) := by
  refine ⟨_, rfl, ?_⟩
  obtain ⟨c, r, hcounted⟩ := State.taken_rates hasks
  rw [State.request_of_asks hasks, hcounted]
  obtain ⟨⟨-, -, -, -, -, hlow, hhigh, -⟩, hlong, -, -⟩ := hasks
  generalize hy : ({ x with heard := (s.begin t).now, hdr := some (2, d) } : Session) = y
  set taken : State := State.setSession d.sid y { s.begin t with srv := { (s.begin t).srv with rateCount := c, rateStart := r } }
  obtain ⟨e, hprove⟩ := State.prove_fails (x := { x with heard := (s.begin t).now }) (s := taken) hproved hdata
  set answered : State := { taken.inc (key 0x2610 6) with fresh := taken.fresh + 1 }.answer e
  obtain ⟨htells, hsessions, hnow, hcount⟩ := answered.noteFailed_same { x with heard := (s.begin t).now }
  have hone : OneReply e (taken.prove d { x with heard := (s.begin t).now }) := hprove ▸ (OneReply.of_answer (fun o ho => (List.not_mem_nil ho).elim) e).tells htells
  obtain ⟨a, b, -, haccept⟩ := State.accepting_one (s := taken) hlong hlow hone
  rw [haccept, hprove]
  have hsession : ({ answered.noteFailed { x with heard := (s.begin t).now } with out := a ++ b } : State).session d.sid = some y :=
    Eq.trans (congrArg (Tbl.find? d.sid) hsessions) (Tbl.find?_set_same _ _ _)
  obtain ⟨⟨z, hz, hzproved⟩, hblocked, hod, hnow'⟩ := State.deliver_proved hhigh hsession (svc := 2) (by subst hy; rfl) e
  refine ⟨?_, ⟨z, hz, ?_⟩, fun hservice hlimit => ?_⟩
  · refine Eq.trans (congrArg Int.toNat (State.rd_congr (by decide) (by rw [hod]))) (hcount.trans ?_)
    exact State.rdN_inc_same (key 0x2610 6) 1 taken
  · rw [hzproved]
    subst hy
    exact hproved
  · rw [hblocked, hnow']
    have hlimits (k : Nat) (hk : k ≠ key 0x2610 6) (hd : OwnDefault k) : answered.rdN k = s.rdN k :=
      (State.rdN_wr_ne hk hd _ taken).trans rfl
    refine (State.blocked_noteFailed (x := { x with heard := (s.begin t).now }) hservice (by rwa [hlimits _ (by decide) (by decide)])).trans ?_
    rw [hlimits _ (by decide) (by decide)]
    exact congrArg (fun n => some (n + Time.sec (s.rdN (key 0x2610 4)))) hnow.symm

theorem sessionClose_closes (hasks : (s.begin t).Asks 3 d x) : Completes (.sessionClose t d) s (fun u =>
    u.session d.sid = none ∧ (∀ e ∈ u.srv.transfers, e.2.sid ≠ d.sid) ∧ (∀ e ∈ u.srv.snaps, e.sid ≠ d.sid) ∧ u.out = [response 3 d x 1 0 0 []]) := by
  refine ⟨_, rfl, ?_⟩
  obtain ⟨c, r, hcounted⟩ := State.taken_rates hasks
  rw [State.request_of_asks hasks, hcounted]
  obtain ⟨⟨-, -, -, -, -, hlow, hhigh, -⟩, hlong, -, -⟩ := hasks
  generalize hy : ({ x with heard := (s.begin t).now, hdr := some (3, d) } : Session) = y
  set taken : State := State.setSession d.sid y { s.begin t with srv := { (s.begin t).srv with rateCount := c, rateStart := r } }
  have hreplied : ∃ l, (taken.answer 0).sessionReply d.sid =
      (taken.setSession d.sid { y with lastSeq := some d.seq, resp := l, owes := false }).emit (response 3 d x 1 0 0 []) := by
    obtain ⟨a, b, hout, hreply⟩ := (OneReply.of_answer (s := taken) (fun o ho => (List.not_mem_nil ho).elim) 0).sessionReply hlow
    obtain ⟨rfl, rfl⟩ := OneReply.alone hout
    obtain ⟨l, hl⟩ := State.deliver_session (s := taken) hhigh (Tbl.find?_set_same _ _ _) (svc := 3) (by subst hy; rfl) (e := 0) (by decide)
    subst hy
    exact ⟨l, hreply.trans hl⟩
  obtain ⟨l, hreplied⟩ := hreplied
  have hended : (((taken.answer 0).sessionReply d.sid).endSession d.sid).session d.sid = none := State.session_endSession_same ..
  have hout : (((taken.answer 0).sessionReply d.sid).endSession d.sid).out = [response 3 d x 1 0 0 []] := by
    rw [hreplied]
    rfl
  rw [State.accepting_ended (s := taken) hlong hlow (fun o ho => by rw [hout, List.mem_singleton] at ho; subst ho; rfl) hended]
  refine ⟨hended, fun e he => ?_, fun e he => ?_, hout⟩
  · exact bne_iff_ne.1 (List.mem_filter.1 he).2
  · exact bne_iff_ne.1 (List.mem_filter.1 he).2

theorem keepAlive_keeps (hasks : (s.begin t).Asks 4 d x) : Completes (.keepAlive t d) s (fun u =>
    (∃ y, u.session d.sid = some y ∧ y.heard = u.now ∧ y.lastSeq = some d.seq) ∧ u.out = [response 4 d x 1 0 0 []]) := by
  refine ⟨_, rfl, ?_⟩
  obtain ⟨c, r, hcounted⟩ := State.taken_rates hasks
  rw [State.request_of_asks hasks, hcounted]
  obtain ⟨⟨-, -, -, -, -, hlow, hhigh, -⟩, hlong, -, -⟩ := hasks
  generalize hy : ({ x with heard := (s.begin t).now, hdr := some (4, d) } : Session) = y
  set taken : State := State.setSession d.sid y { s.begin t with srv := { (s.begin t).srv with rateCount := c, rateStart := r } }
  obtain ⟨a, b, hout, haccept⟩ := State.accepting_one (s := taken) (d := d) (f := State.answer 0) hlong hlow
    (OneReply.of_answer (fun o ho => (List.not_mem_nil ho).elim) 0)
  obtain ⟨rfl, rfl⟩ := OneReply.alone hout
  obtain ⟨l, hl⟩ := State.deliver_session (s := taken) hhigh (Tbl.find?_set_same _ _ _) (svc := 4) (by subst hy; rfl) (e := 0) (by decide)
  rw [show taken.accepting d (State.answer 0) = _ from haccept.trans hl]
  subst hy
  exact ⟨⟨_, Tbl.find?_set_same _ _ _, rfl, rfl⟩, rfl⟩

end

/-! ### Timers -/

section
variable {sid src : Nat} {x : Session} {s : State}

theorem State.idleTimeout_idle (hsession : s.session sid = some x) (hlong : s.longOp = 0) (hidle : x.heard + Time.sec (s.rdN (key 0x2610 1)) ≤ s.now) :
    s.idleTimeout sid = s.endSession sid := by
  simp only [State.idleTimeout, hsession]
  exact State.when_true (by simp [hlong, hidle]) _ _

theorem State.idleTimeout_long (hlong : s.longOp ≠ 0) : s.idleTimeout sid = s := by
  unfold State.idleTimeout
  split
  · exact State.when_false (by simp [hlong]) _ _
  · rfl

theorem State.notProved_late (hsession : s.session sid = some x) (hproved : x.proved = false) (hlate : x.opened + Time.sec 5 ≤ s.now) :
    s.notProved sid = s.endSession sid := by
  simp only [State.notProved, hsession]
  exact State.when_true (by simp [hproved, hlate]) _ _

theorem State.notProved_proved (hsession : s.session sid = some x) (hproved : x.proved = true) : s.notProved sid = s := by
  simp only [State.notProved, hsession]
  exact State.when_false (by simp [hproved]) _ _

theorem State.blockTimeEnd_eq {b : Time} (hblocked : Tbl.find? src s.srv.blocked = some b) :
    s.blockTimeEnd src = s.when (decide (b ≤ s.now)) (State.modSrv (fun r => { r with blocked := Tbl.erase src r.blocked })) := by
  simp only [State.blockTimeEnd, hblocked]

end

/-- Settles O53. -/
theorem sessionCommandsComplete : Obligations.SessionCommandsComplete := by
  refine ⟨?_, fun t d x s hasks hproved => ⟨sessionProve_proves hasks hproved, sessionProve_fails hasks hproved⟩,
    fun t d x s hasks => sessionClose_closes hasks, fun t d x s hasks => keepAlive_keeps hasks, ?_, ?_⟩
  case refine_1 =>
    rintro t d s s0 r nm rfl hup hlong hopen hignored hrate hmagic htag rfl rfl
    refine ⟨fun hrefusal => ?_, fun e he hne => sessionOpen_refused hup hlong hopen hignored hrate hmagic htag he hne⟩
    obtain ⟨u, hu, hnext, hout, hsession, hnow⟩ := sessionOpen_completes hup hlong hopen hignored hrate hmagic htag hrefusal
    refine ⟨u, hu, hnext, hout, _, hsession, rfl, rfl, hnow.symm, rfl, fun hservice hkey => ?_, fun hkey => ?_⟩
    · have hfree : (s.begin t).opensFree d (d.data.headD 0).toNat = true := by
        rw [State.opensFree, hservice, Bool.true_and]
        simpa [State.keySet] using hkey
      exact ⟨hfree, if_pos hfree⟩
    · have hfree : (s.begin t).opensFree d (d.data.headD 0).toNat = false := by
        rw [State.opensFree, Bool.and_eq_false_iff]
        right
        simpa [State.keySet] using hkey
      refine ⟨hfree, (if_neg (by rw [hfree]; exact Bool.false_ne_true)).trans ?_, (if_neg (by rw [hfree]; exact Bool.false_ne_true)).trans ?_⟩
      · simp only [List.append_assoc]
        rfl
      · simp only [List.append_assoc]
        rfl
  case refine_2 =>
    intro t sid x s hsession
    refine ⟨fun hlong hidle => ⟨_, rfl, ?_⟩, fun hlong => ⟨_, rfl, ?_⟩, fun hproved hlate => ⟨_, rfl, ?_⟩, fun hproved => ⟨_, rfl, ?_⟩⟩
    · rw [State.idleTimeout_idle (s := s.begin t) hsession hlong hidle]
      exact ⟨State.session_endSession_same .., fun k hk => State.session_endSession_other hk _⟩
    · rw [State.idleTimeout_long (s := s.begin t) hlong]
      rfl
    · rw [State.notProved_late (s := s.begin t) hsession hproved hlate]
      exact ⟨State.session_endSession_same .., fun k hk => State.session_endSession_other hk _⟩
    · rw [State.notProved_proved (s := s.begin t) hsession hproved]
      rfl
  case refine_3 =>
    intro t src b s hblocked
    refine ⟨fun hend => ⟨_, rfl, ?_⟩, fun hlate => ⟨_, rfl, ?_⟩⟩
    · rw [State.blockTimeEnd_eq (s := s.begin t) hblocked, State.when_true (decide_eq_true (p := b ≤ (s.begin t).now) hend)]
      rfl
    · rw [State.blockTimeEnd_eq (s := s.begin t) hblocked, State.when_false (decide_eq_false (p := b ≤ (s.begin t).now) (Nat.not_le.2 hlate))]
      rfl

end Sys2Proof.Machine
end

section
/-! The CAN ports (R276, R360, R363, R364): what an enabled port obeys and counts, NMT commands, heartbeats, and the trigger unit that waits for a
frame. -/

namespace Sys2Proof.Machine

/-! ### A port that runs -/

theorem State.onCan_of_runs {t : Time} {k : CanNo} {s : State} (h : s.CanRuns t k) (f : State → State) :
    (s.begin t).onCan k f = f ((s.begin t).wr (cpk k 8) 1) := by
  obtain ⟨hon, hbus⟩ := h
  have hon' : (s.begin t).canOn k = true := hon
  rw [State.onCan, if_neg (by simp [hon', hbus])]

theorem cpk_ne {k sub j : Nat} (hk : k < 2) (hsub : sub < 256) (hj : j < key 0x2710 0 ∨ key 0x2712 0 ≤ j) : j ≠ cpk k sub := by
  simp only [cpk, key] at hj ⊢
  omega

theorem cpk_ne_cpk {k a b : Nat} (hab : a ≠ b) : cpk k a ≠ cpk k b := by
  simp only [cpk, key]
  omega

theorem cpk_own {k sub : Nat} (hk : k < 2) (hsub : sub < 256) : OwnDefault (cpk k sub) := by
  simp only [OwnDefault, cpk, key]
  omega

section
variable {k sub : Nat} (hk : k < 2) (hsub : sub < 256) (v : Int) (s : State)
include hk hsub

theorem State.rd_wr_can {j : Nat} (hj : j < key 0x2710 0 ∨ key 0x2712 0 ≤ j) (hd : OwnDefault j) : (s.wr (cpk k sub) v).rd j = s.rd j :=
  State.rd_wr_ne (cpk_ne hk hsub hj) hd v s

omit hsub in
theorem State.rd_cpk_wr {a : Nat} (ha : a < 256) (hne : a ≠ sub) : (s.wr (cpk k sub) v).rd (cpk k a) = s.rd (cpk k a) :=
  State.rd_wr_ne (cpk_ne_cpk hne) (cpk_own hk ha) v s

theorem State.mod_wr_can : (s.wr (cpk k sub) v).mod = s.mod := by
  rw [State.mod, State.rdN, State.rd_wr_can hk hsub v s (by decide) (by decide), State.mod, State.rdN]

end

theorem State.bstate_wr_can {k sub b : Nat} (hk : k < 2) (hsub : sub < 256) (v : Int) (s : State) : (s.wr (cpk k sub) v).bstate b = s.bstate b := by
  rw [State.bstate, State.rdN, State.rd_wr_can hk hsub v s (by simp only [bk, key]; omega) (by simp only [OwnDefault, bk, key]; omega), State.bstate,
    State.rdN]

/-! ### NMT commands -/

theorem State.sessionReply_nobody (s : State) : s.sessionReply nobody = { s with out := s.out.filter (fun o => !o.isReply) } := by
  rw [State.sessionReply_eq (by decide)]
  generalize s.out.filter Output.isReply = rs
  unfold State.each
  induction rs with
  | nil => rfl
  | cons o rs ih =>
    cases o
    · exact ih
    · exact ih

/-- An NMT command does what the module command of its code does. -/
theorem State.nmtCommand_eq {c e : Nat} {f : State → Nat × State} {s x : State} (hc : commandOf c = moduleEff f) (hf : f (s.handling nobody) = (e, x)) :
    (s.nmtCommand c).mod = x.mod ∧ (s.nmtCommand c).rd (mdk 4) = e := by
  have hrun : (s.handling nobody).carryOut 0x2000 3 0 (d8 c) (commandOf c) = (x.wr (mdk 4) e).answer e := by
    rw [State.carryOut_unforwarded (by decide), State.carries_of_pass (commandOf_own c _), commandOf_replies, hc, moduleEff]
    simp only [hf]
    exact if_neg Bool.false_ne_true
  rw [State.nmtCommand, hrun, State.sessionReply_nobody]
  exact ⟨State.mod_wr (by decide) (by decide) e x, State.rd_wr_same (mdk 4) e x⟩

theorem State.mod_setMod {new : ModState} {s : State} (hnew : s.mod ≠ new) (hrem : s.mod ≠ .removal)
    (hhold : new = .safeHold → holdFollows s.mod = true) : (s.setMod new).mod = new :=
  State.mod_of_find? (State.find?_mod_setMod hnew hrem hhold)

section
variable {t : Time} {k : CanNo} {s : State} (hruns : s.CanRuns t k)
include hruns

omit hruns in
theorem State.mod_running : ((s.begin t).wr (cpk k 8) 1).mod = s.mod := State.mod_wr_can k.isLt (by omega) 1 (s.begin t)

theorem State.onCan_nmt (hobeys : s.rdB (cpk k 7) = true) (f : State → State) :
    (s.begin t).onCan k (State.nmt k f) = f ((s.begin t).wr (cpk k 8) 1) := by
  rw [State.onCan_of_runs hruns, State.nmt, if_pos]
  rw [State.rdB, State.rd_cpk_wr k.isLt 1 (s.begin t) (by omega) (by omega)]
  exact hobeys

theorem State.onCan_ignored (hobeys : s.rdB (cpk k 7) = false) (f : State → State) :
    (s.begin t).onCan k (State.nmt k f) = ((s.begin t).wr (cpk k 8) 1).inc (cpk k 0xB) := by
  rw [State.onCan_of_runs hruns, State.nmt, if_neg]
  rw [State.rdB, State.rd_cpk_wr k.isLt 1 (s.begin t) (by omega) (by omega)]
  exact Bool.eq_false_iff.1 hobeys

omit hruns in
/-- A command that the port ignores is counted. -/
theorem State.counted_ignored : (((s.begin t).wr (cpk k 8) 1).inc (cpk k 0xB)).mod = s.mod ∧
    (((s.begin t).wr (cpk k 8) 1).inc (cpk k 0xB)).net = s.net ∧
    (((s.begin t).wr (cpk k 8) 1).inc (cpk k 0xB)).rdN (cpk k 0xB) = (s.rdN (cpk k 0xB) + 1) % 2 ^ 32 := by
  refine ⟨(State.mod_wr_can k.isLt (by omega) _ _).trans (State.mod_wr_can k.isLt (by omega) 1 (s.begin t)), rfl, ?_⟩
  rw [State.rdN_inc_same, State.rdN, State.rd_cpk_wr k.isLt 1 (s.begin t) (by omega) (by omega)]
  rfl

theorem startRemoteNode_runs (hobeys : s.rdB (cpk k 7) = true) (hmod : s.mod = .armed) :
    Completes (.startRemoteNode t k) s (fun u => u.rd (mdk 4) = 0 ∧
      u.mod = if s.twinRole = 0 ∨ s.authority = 1 then .running else .standby) := by
  refine ⟨_, rfl, ?_⟩
  rw [State.onCan_nmt hruns hobeys]
  set v : State := (s.begin t).wr (cpk k 8) 1 with hv
  have hvmod : v.mod = .armed := (State.mod_running).trans hmod
  have htwin : v.twinRole = s.twinRole := congrArg Int.toNat (State.rd_wr_can k.isLt (by omega) 1 (s.begin t) (by decide) (by decide))
  have hauth : v.authority = s.authority := congrArg Int.toNat (State.rd_wr_can k.isLt (by omega) 1 (s.begin t) (by decide) (by decide))
  have hhandling : (v.handling nobody).mod = .armed := hvmod
  rw [State.when_true (by simp [hvmod])]
  obtain ⟨hmod', hresult⟩ := State.nmtCommand_eq (s := v) (c := 3) (e := 0) (x := (v.handling nobody).runModule) rfl
    (if_pos (by simp [hhandling]))
  refine ⟨hresult, ?_⟩
  rw [hmod', ← htwin, ← hauth, State.runModule, State.mod_setMod]
  · simp only [Bool.or_eq_true, decide_eq_true_eq]
    rfl
  · rw [hhandling]
    split <;> decide
  · rw [hhandling]
    decide
  · split <;> exact nofun

theorem startRemoteNode_stays (hobeys : s.rdB (cpk k 7) = true) (hmod : s.mod ≠ .armed) :
    Completes (.startRemoteNode t k) s (fun u => u.mod = s.mod) := by
  refine ⟨_, rfl, ?_⟩
  rw [State.onCan_nmt hruns hobeys, State.when_false (by simpa [State.mod_running] using hmod)]
  exact State.mod_running

theorem enterPreOperational_configures (hobeys : s.rdB (cpk k 7) = true) (hmod : s.mod = .armed) (hoff : ∀ b ∈ allBatches, s.bstate b = .off) :
    Completes (.enterPreOperational t k) s (fun u => u.mod = .configuration) := by
  refine ⟨_, rfl, ?_⟩
  rw [State.onCan_nmt hruns hobeys]
  set v : State := (s.begin t).wr (cpk k 8) 1 with hv
  have hvmod : (v.handling nobody).mod = .armed := (State.mod_running).trans hmod
  rw [State.when_true (by simpa [hv, State.bstate_wr_can k.isLt] using show ∀ b ∈ allBatches, (s.begin t).bstate b = .off from hoff)]
  obtain ⟨hmod', -⟩ := State.nmtCommand_eq (s := v) (c := 1) (e := 0) (x := (v.handling nobody).setMod .configuration) rfl
    (if_pos (by simp [State.configureOk, hvmod]))
  exact hmod'.trans (State.mod_setMod (by simp [hvmod]) (by simp [hvmod]) (fun h => nomatch h))

theorem enterPreOperational_stays (hobeys : s.rdB (cpk k 7) = true) (hon : ∃ b ∈ allBatches, s.bstate b ≠ .off) :
    Completes (.enterPreOperational t k) s (fun u => u.mod = s.mod) := by
  refine ⟨_, rfl, ?_⟩
  rw [State.onCan_nmt hruns hobeys, State.when_false (by simpa [State.bstate_wr_can k.isLt] using show ∃ b ∈ allBatches, (s.begin t).bstate b ≠ .off from hon)]
  exact State.mod_running

theorem stopRemoteNode_holds (hobeys : s.rdB (cpk k 7) = true) (hmod : s.mod = .armed ∨ s.mod = .running ∨ s.mod = .standby) :
    Completes (.stopRemoteNode t k) s (fun u => u.mod = .safeHold) := by
  refine ⟨_, rfl, ?_⟩
  rw [State.onCan_nmt hruns hobeys]
  set v : State := (s.begin t).wr (cpk k 8) 1 with hv
  have hvmod : (v.handling nobody).mod = s.mod := State.mod_running
  have hhold : (v.handling nobody).holdOk = true := by
    obtain h | h | h := hmod <;> simp [State.holdOk, hvmod, h]
  obtain ⟨hmod', -⟩ := State.nmtCommand_eq (s := v) (c := 4) (e := 0) (x := (v.handling nobody).setMod .safeHold) rfl (if_pos hhold)
  rw [hmod', State.mod_setMod]
  all_goals
    rw [hvmod]
    obtain h | h | h := hmod <;> simp [h, holdFollows]

theorem resetCommunication_restarts (hobeys : s.rdB (cpk k 7) = true) :
    Completes (.resetCommunication t k) s (fun u => (∀ x ∈ u.net.tpdos, x.1 / 8 ≠ k.val) ∧ u.net.producer = Tbl.erase k.val s.net.producer ∧
      (∀ x ∈ u.net.hb, x.1 / 128 ≠ k.val) ∧ (∀ x, x ∈ u.net.late ↔ x ∈ s.net.late ∧ x / 128 ≠ k.val)) := by
  refine ⟨_, rfl, ?_⟩
  rw [State.onCan_nmt hruns hobeys]
  refine ⟨fun x hx => bne_iff_ne.1 (List.mem_filter.1 hx).2, rfl, fun x hx => bne_iff_ne.1 (List.mem_filter.1 hx).2, fun x => ?_⟩
  exact List.mem_filter.trans (and_congr_right fun _ => bne_iff_ne)

theorem producerHeartbeat_sends (hinterval : s.rdN (key 0x1017 0) ≠ 0)
    (hdue : ∀ a, Tbl.find? k.val s.net.producer = some a → a + Time.ms (s.rdN (key 0x1017 0)) ≤ max t s.now) :
    Completes (.producerHeartbeat t k) s (fun u => Tbl.find? k.val u.net.producer = some u.now ∧
      u.out = [.msg "CAN_HEARTBEAT" [k.val, s.rd (cpk k 2), heartbeatByte s.mod] []]) := by
  refine ⟨_, rfl, ?_⟩
  rw [State.onCan_of_runs hruns]
  have hsame : ((s.begin t).wr (cpk k 8) 1).rdN (key 0x1017 0) = s.rdN (key 0x1017 0) :=
    congrArg Int.toNat (State.rd_wr_can k.isLt (by omega) 1 (s.begin t) (by decide) (by decide))
  have hnode : ((s.begin t).wr (cpk k 8) 1).rd (cpk k 2) = s.rd (cpk k 2) := State.rd_cpk_wr k.isLt 1 (s.begin t) (by omega) (by omega)
  unfold State.heartbeatOut
  rw [hsame, State.when_true, hnode, State.mod_running]
  · exact ⟨Tbl.find?_set_same _ _ _, rfl⟩
  · rw [Bool.and_eq_true]
    refine ⟨bne_iff_ne.2 hinterval, ?_⟩
    split
    · exact decide_eq_true (hdue _ ‹_›)
    · rfl

end

theorem State.consumed_begin (t : Time) (node : Nat) (s : State) : (s.begin t).consumed node = s.consumed node := by
  unfold State.consumed
  rfl

theorem State.rd_modNet (f : Net → Net) (j : Nat) (s : State) : (s.modNet f).rd j = s.rd j := rfl

theorem busOff_counts {t : Time} {k : CanNo} {s : State} (hon : s.canOn k = true) :
    Completes (.busOff t k) s (fun u => u.rd (cpk k 8) = 4 ∧ u.rdN (cpk k 9) = (s.rdN (cpk k 9) + 1) % 2 ^ 32) := by
  refine ⟨_, rfl, ?_⟩
  have hon' : (s.begin t).canOn k = true := hon
  rw [State.when_true hon']
  refine ⟨(State.rd_modNet ..).trans (State.rd_wr_same ..), (congrArg Int.toNat (State.rd_modNet ..)).trans ?_⟩
  refine (congrArg Int.toNat (State.rd_cpk_wr k.isLt 4 ((s.begin t).inc (cpk k 9)) (by omega) (by omega))).trans ?_
  exact State.rdN_inc_same _ _ _

theorem consumerHeartbeatTimeout_late {t : Time} {k : CanNo} {node : Fin 128} {h : Time} {s : State} (hruns : s.CanRuns t k)
    (hconsumed : s.consumed node ≠ 0) (hheard : Tbl.find? (128 * k + node) s.net.hb = some h) (hlate : 128 * k.val + node ∉ s.net.late)
    (hdue : h + Time.ms (s.consumed node) ≤ max t s.now) :
    Completes (.consumerHeartbeatTimeout t k node) s (fun u => 128 * k.val + node ∈ u.net.late ∧ u.bit (key 0x1001 0) 4 = true) := by
  refine ⟨_, rfl, ?_⟩
  have hon : (s.begin t).canOn k = true := hruns.1
  have hheard' : Tbl.find? (128 * k.val + node) (s.begin t).net.hb = some h := hheard
  have hconsumed' : (s.begin t).consumed node = s.consumed node := State.consumed_begin t node s
  rw [State.when_true hon]
  unfold State.heartbeatLate
  simp only [hheard', hconsumed']
  rw [State.when_true]
  · refine ⟨?_, ?_⟩
    · rw [State.logEvent_net]
      exact List.mem_append_right _ (List.mem_singleton.2 rfl)
    · rw [State.bit_logEvent (by decide) (by decide), State.bit_setBit_same]
  · have hnow : h + Time.ms (s.consumed node) ≤ (s.begin t).now := hdue
    have hnot : (s.begin t).net.late.contains (128 * k.val + node) = false := by
      rw [Bool.eq_false_iff]
      exact fun h => hlate (List.contains_iff_mem.1 h)
    rw [hnot, decide_eq_true hnow, bne_iff_ne.2 hconsumed]
    rfl

/-! ### The trigger unit that waits for a frame -/

section
variable {n : Nat}

theorem State.unitsOn_congr {s u : State} (h : ∀ n < 16, UnitSame n s u) (type sel : Nat) : u.unitsOn type sel = s.unitsOn type sel := by
  refine List.filter_congr fun n hn => ?_
  have hsame := h n (List.mem_range.1 hn)
  rw [hsame.set0 (by omega), hsame.set0 (by omega), hsame.set0 (by omega)]

theorem UnitSame.field {s u : State} (h : UnitSame n s u) (l : List Byte) : u.field n l = s.field n l := by
  simp only [State.field, State.rdN, h.rd (show 9 < 256 by omega), h.rd (show 0xA < 256 by omega)]
  rfl

theorem UnitSame.rdN {s u : State} (h : UnitSame n s u) {sub : Nat} (hsub : sub < 256) : u.rdN (tuk n sub) = s.rdN (tuk n sub) :=
  congrArg Int.toNat (h.rd hsub)

theorem UnitSame.holdoffOver {s u : State} (h : UnitSame n s u) (hnow : u.now = s.now) : u.holdoffOver n = s.holdoffOver n := by
  simp only [State.holdoffOver, h.record, h.rdN (show 0xB < 256 by omega), hnow]

theorem State.unitUpdate_lastFire (hn : n < 16) (raw : Bool) (v : Option Int) (tm : Time) {s : State} (hs : s.set0 (tuk n 2) ≠ 0xB)
    (h : s.unitFires n raw v = true) : ((s.unitUpdate n raw v tm).trig n).lastFire = some s.now := by
  unfold State.unitUpdate
  lift_lets
  intro r c level ok released q run start latched r' shown
  have hok : ok = s.unitHolds n raw v := by cases v <;> rfl
  have hlatched : latched = s.unitLatched n raw v := by
    rw [State.unitLatched, ← hok]
    rfl
  have hhold : shown.holdoffOver n = s.holdoffOver n := State.holdoffOver_shown hn rfl
  have hfires : (ok && decide (q ≤ run) && !latched && shown.holdoffOver n) = s.unitFires n raw v := by
    rw [hhold, hlatched, State.unitFires, ← hok]
  have hspared (x : TrigRec) : Spared n [] (shown.setTrig n x) := by
    have hfind : Tbl.find? (tuk n 2) shown.od = Tbl.find? (tuk n 2) s.od :=
      Tbl.find?_set_other _ _ (by simp only [tuk, key]; omega)
    exact .inr (by simpa only [State.set0, State.setTrig_od, hfind] using hs)
  rw [hfires, if_pos h, (State.fireUnit_own hn (log := State.logEvent) (used := [])
    (fun c i l s hs => UnitSame.logChain hn 16 c i l hs) start (hspared _)).2, State.trig_setTrig_same]
  rfl

end

section
variable {t : Time} {k : CanNo} {ext : Bool} {ident : Nat} {l : List Byte} {s : State} (hruns : s.CanRuns t k)
include hruns

theorem canFdFrame_heard (hext : ext = false) (hlow : 0x701 ≤ ident) (hhigh : ident ≤ 0x77F) :
    Completes (.canFdFrame t k ext ident l) s (fun u =>
      Tbl.find? (128 * k + (ident - 0x700)) u.net.hb = some u.now ∧ 128 * k + (ident - 0x700) ∉ u.net.late) := by
  refine ⟨_, rfl, ?_⟩
  rw [State.onCan_of_runs hruns, State.canFrame]
  rw [if_pos (by simp [hext, hlow, hhigh])]
  set v : State := (s.begin t).wr (cpk k 8) 1
  have hkept : Kept 0x7fffd000000000000000000e000 (v.heartbeatIn k (ident - 0x700)) _ := State.frameSource_kept (type := 7)
    (sel := 2 ^ 31 * k + 2 ^ 29 * b2n ext + ident) (bytes := l) (tm := (v.heartbeatIn k (ident - 0x700)).modTime) (Sub.refl _) (Kept.refl _ _)
  refine ⟨?_, ?_⟩
  · rw [hkept.netSame rfl, hkept.now]
    exact Tbl.find?_set_same _ _ _
  · rw [hkept.netSame rfl]
    exact fun h => absurd (List.mem_filter.1 h).2 (by simp)

theorem canFdFrame_fires {n : Nat} {x : Int} (hunits : s.unitsOn 7 (2 ^ 31 * k + 2 ^ 29 * b2n ext + ident) = [n]) (hn : n < 16)
    (hfield : s.field n l = some x) (hcond : s.rdN (tuk n 4) = 4) (hx : x = s.rd (tuk n 5) % 2 ^ 32) (hlatched : (s.trig n).latched = false)
    (hnum : s.rdN (tuk n 8) ≤ (s.trig n).run + 1) (hhold : (s.begin t).holdoffOver n = true) :
    Completes (.canFdFrame t k ext ident l) s (fun u => u.rdN (tuk n 0xD) = (s.rdN (tuk n 0xD) + 1) % 2 ^ 32 ∧
      (u.trig n).lastFire = some u.now ∧ (u.trig n).latched = true) := by
  refine ⟨_, rfl, ?_⟩
  rw [State.onCan_of_runs hruns, State.canFrame]
  set v : State := if (!ext && decide (0x701 ≤ ident) && decide (ident ≤ 0x77F)) = true then
    State.heartbeatIn k (ident - 0x700) ((s.begin t).wr (cpk k 8) 1) else (s.begin t).wr (cpk k 8) 1 with hv
  have hnow : v.now = (s.begin t).now := by
    rw [hv]
    split <;> rfl
  have hsame (m : Nat) (hm : m < 16) : UnitSame m (s.begin t) v := by
    have hport : UnitSame m (s.begin t) ((s.begin t).wr (cpk k 8) 1) :=
      .wr (fun sub hsub => cpk_ne k.isLt (by omega) (by simp only [tuk, key]; omega)) _ _
    refine hport.trans (.ite ?_ (.refl _ _))
    have hheard : UnitSame m ((s.begin t).wr (cpk k 8) 1) (State.modNet (fun n => { n with
        hb := Tbl.set (128 * k + (ident - 0x700)) (s.begin t).now n.hb, late := n.late.filter (· != 128 * k.val + (ident - 0x700)) })
        ((s.begin t).wr (cpk k 8) 1)) := ⟨fun _ _ => rfl, rfl⟩
    exact hheard.trans (.wr (fun sub hsub => by simp only [tuk, key]; omega) _ _)
  have hunit := hsame n hn
  have hunits' : v.unitsOn 7 (2 ^ 31 * k + 2 ^ 29 * b2n ext + ident) = [n] := (State.unitsOn_congr hsame _ _).trans hunits
  have hfield' : v.field n l = some x := (hunit.field l).trans hfield
  have hframe : v.frameSource 7 (2 ^ 31 * k + 2 ^ 29 * b2n ext + ident) l v.modTime = v.unitUpdate n true (some x) v.modTime := by
    rw [State.frameSource, hunits', ← hfield']
    rfl
  have hwatch : v.set0 (tuk n 2) ≠ 0xB := by
    have hmem : n ∈ v.unitsOn 7 (2 ^ 31 * k + 2 ^ 29 * b2n ext + ident) := by
      rw [hunits']
      exact List.mem_singleton_self n
    have htype : v.set0 (tuk n 2) = 7 := by
      simp only [State.unitsOn, List.mem_filter, Bool.and_eq_true, beq_iff_eq] at hmem
      exact hmem.2.1.2
    rw [htype]
    decide
  have hcond' : v.rdN (tuk n 4) = 4 := (hunit.rdN (by omega)).trans hcond
  have hholds : v.unitHolds n true (some x) = true := by
    have hlevel : v.unitLevel n 5 true = x := by
      rw [hx, State.unitLevel, if_pos rfl, hunit.rd (by omega)]
      rfl
    simp only [State.unitHolds, hcond', hlevel, condHolds, beq_self_eq_true]
  have hrec : v.trig n = s.trig n := hunit.record
  have hfires : v.unitFires n true (some x) = true := by
    have hnum' : v.rdN (tuk n 8) ≤ (v.trig n).run + 1 := by
      rw [hunit.rdN (by omega), hrec]
      exact hnum
    have hhold' : v.holdoffOver n = true := (hunit.holdoffOver hnow).trans hhold
    have hrun : v.rdN (tuk n 8) ≤ min (v.rdN (tuk n 8)) ((v.trig n).run + 1) := Nat.le_min.2 ⟨Nat.le_refl _, hnum'⟩
    have hfresh : v.unitLatched n true (some x) = false := by rw [State.unitLatched, hrec, hlatched, Bool.false_and]
    rw [State.unitFires, hholds, hfresh, hhold', if_pos rfl, decide_eq_true hrun]
    rfl
  obtain ⟨hcount, hlatch⟩ := (State.unitUpdate_cases hn true (some x) v.modTime hwatch).1 hfires
  have hlast := State.unitUpdate_lastFire hn true (some x) v.modTime hwatch hfires
  have hend : (v.unitUpdate n true (some x) v.modTime).now = v.now := (State.unitUpdate_kept (Sub.refl _) (Kept.refl _ v)).now
  rw [hframe]
  refine ⟨hcount.trans ?_, hlast.trans (congrArg some hend.symm), hlatch.trans ?_⟩
  · rw [hunit.rdN (by omega)]
    rfl
  · rw [hcond']
    rfl

end

/-- Settles O57. -/
theorem canCommandsComplete : Obligations.CanCommandsComplete := by
  refine ⟨fun t k s hruns hobeys => ⟨startRemoteNode_runs hruns hobeys, startRemoteNode_stays hruns hobeys, enterPreOperational_configures hruns hobeys,
      enterPreOperational_stays hruns hobeys, stopRemoteNode_holds hruns hobeys, resetCommunication_restarts hruns hobeys⟩, ?ignored, ?reset,
    fun t k s hon => busOff_counts hon, fun t k s hruns => producerHeartbeat_sends hruns,
    fun t k node h s hruns => consumerHeartbeatTimeout_late hruns,
    fun t k ext ident l s hruns => ⟨canFdFrame_heard hruns, fun n x hunits hn hfield hcond hx => canFdFrame_fires hruns hunits hn hfield hcond hx⟩⟩
  case ignored =>
    intro t k s i hi hruns hobeys
    have hcounted := State.counted_ignored (t := t) (k := k) (s := s)
    have hrun (f : State → State) := (State.onCan_ignored hruns hobeys f).symm
    simp only [List.mem_cons, List.not_mem_nil, or_false] at hi
    obtain rfl | rfl | rfl | rfl := hi
    all_goals exact ⟨_, rfl, by rwa [State.onCan_ignored hruns hobeys]⟩
  case reset =>
    intro t k s hruns
    exact ⟨_, rfl, by rw [State.onCan_of_runs hruns]; exact State.counted_ignored⟩

end Sys2Proof.Machine
end

section
/-! A GOOSE subscription whose number of entries runs past its list (R367): the entries after the list are read as targets, and the status that a
message sets is one of them. This refutes O59. -/

namespace Sys2Proof.Machine

-- The kernel's evaluations run one after the other: side by side they would need too much memory.
set_option Elab.async false

/-- A message without members for the subscription of pair 1 with the revision 1. -/
def emptyMessage : GooseMsg :=
  { pair := 1, appid := 0, gocbRef := [], datSet := [], confRev := 1, test := false, simulation := false, ndsCom := false, ttlMs := 0, members := [] }

/-- Subscription 0 is on and counts 512 entries. Entry 256 is that count itself; entry 512 is the status, which reads 0 and so names no target. -/
def overlongSubscription : { s : State // s.serverUp = true ∧ s.twinRole = 0 ∧ s.rdB (sbk 0 1) = true ∧ (∀ j, j < 16 → j ≠ 0 → s.rdB (sbk j 1) = false) ∧
    s.rdN (sbk 0 2) = 1 ∧ s.rdN (sbk 0 3) = 0 ∧ s.blob (sbk 0 4) = [] ∧ s.blob (sbk 0 5) = [] ∧ s.rdN (sbk 0 6) = 1 ∧ s.subEntries 0 = [512] ∧
    s.entryBatch 0 = 255 ∧ s.rdN (sbk 0 0xB) = 0 ∧ ((s.begin 0).each (List.range 16) (fun i s => s.takeGoose i emptyMessage)).rdN (sbk 0 0xB) = 2 } :=
  ⟨((State.reset.wr (key 0x2100 6) 2).wr (sbk 0 1) 1).wr (sbk 0 8) 512, by decide +kernel⟩

/-- Refutes O59: the message is for subscription 0, whose one target does not suit it, and so it is to be counted once; but the status that it sets is
a second target, and it is counted twice. -/
theorem not_gooseCommandsComplete : ¬ Obligations.GooseCommandsComplete := by
  intro h
  obtain ⟨hup, htwin, hon, hothers, hpair, happid, hgocb, hdat, hrev, hentries, hbatch, hcount, hcounted⟩ := overlongSubscription.property
  have hmessage := h.2.2.1 0 0 emptyMessage 512 overlongSubscription.val hup htwin hon hothers hpair happid hgocb hdat hrev hentries (by decide) (by decide)
  have hidle (b : Batch) (hb : overlongSubscription.val.entryBatch (512 / 2 ^ 48) = b) : (overlongSubscription.val.batch b).cyc = none := by
    have hb' : overlongSubscription.val.entryBatch (512 / 2 ^ 48) = 255 := hbatch
    omega
  obtain ⟨u, hrun, -, honce⟩ := ((hmessage.1 rfl rfl rfl).2 hidle).2 rfl
  have hu : u = (overlongSubscription.val.begin 0).each (List.range 16) (fun i s => s.takeGoose i emptyMessage) := by
    have hup' : (overlongSubscription.val.begin 0).serverUp = true := hup
    exact ((Host.Outcome.next.inj hrun).symm.trans (State.when_true hup' _ _))
  rw [hu] at honce
  have htwice := hcounted.symm.trans honce
  have hzero : overlongSubscription.val.rdN (sbk (0 : Fin 16).val 0xB) = 0 := hcount
  rw [hzero] at htwice
  exact absurd htwice (by decide)

end Sys2Proof.Machine
end

section
/-! An RPDO whose number of mapping entries runs past its object (R362): the entries after it are read as mapped, and the status of the port, which the
reception of the RPDO itself sets, is one of them. So the data are too short for the mapping that stands before the RPDO, and long enough for the
mapping with which it is taken. This refutes O56. -/

namespace Sys2Proof.Machine

/-! ### A dictionary of zeros -/

/-- Every entry below 0x2712 holds 0. -/
def zeroEntries : Tbl Int := (List.range 0x2712).flatMap (fun i => (List.range 256).map (fun sub => (key i sub, (0 : Int))))

theorem Tbl.find?_of_all {α : Type} {k : Nat} {v : α} {l : Tbl α} (hmem : ∃ e ∈ l, e.1 = k) (hall : ∀ e ∈ l, e.2 = v) : Tbl.find? k l = some v := by
  induction l with
  | nil => obtain ⟨e, he, -⟩ := hmem; exact absurd he List.not_mem_nil
  | cons a l ih =>
    rw [Tbl.find?]
    split
    · exact congrArg some (hall a List.mem_cons_self)
    · next hne =>
      obtain ⟨e, he, hek⟩ := hmem
      have he' : e ∈ l := (List.mem_cons.1 he).resolve_left (fun h => hne (h ▸ hek))
      exact ih ⟨e, he', hek⟩ (fun e he => hall e (List.mem_cons_of_mem a he))

theorem find?_zeroEntries {k : Nat} (hlow : k < key 0x2712 0) (hk : k % 256 = 0) : Tbl.find? k zeroEntries = some 0 := by
  unfold zeroEntries
  refine Tbl.find?_of_all ⟨(key (k / 65536) (k / 256 % 256), 0), ?_, ?_⟩ (fun e he => ?_)
  · refine List.mem_flatMap.2 ⟨k / 65536, List.mem_range.2 ?_, List.mem_map.2 ⟨k / 256 % 256, List.mem_range.2 (Nat.mod_lt _ (by omega)), rfl⟩⟩
    simp only [key] at hlow
    omega
  · simp only [key]
    omega
  · obtain ⟨i, -, he⟩ := List.mem_flatMap.1 he
    obtain ⟨sub, -, rfl⟩ := List.mem_map.1 he
    rfl

/-- A dictionary whose entries below 0x2712 hold 0. -/
abbrev Zeros (z : Tbl Int) : Prop := ∀ k < key 0x2712 0, k % 256 = 0 → Tbl.find? k z = some 0

theorem exists_zeros : ∃ z, Zeros z := ⟨zeroEntries, fun _ hlow hk => find?_zeroEntries hlow hk⟩

/-! ### The overlong mapping -/

/-- PD5 and port 0 are on; RPDO 0 counts n entries; the status of port 0 reads as a byte. -/
def overlongMapping (z : Tbl Int) (n : Nat) : State :=
  ((({ State.reset with od := z }.wr (key 0x1600 0) n).wr (key 0x2100 6) 2).wr (cpk 0 1) 1).wr (cpk 0 8) 8

section
variable {k n : Nat} {z : Tbl Int}

theorem overlongMapping_rd_status : (overlongMapping z n).rd (cpk 0 8) = 8 := State.rd_wr_same _ _ _

theorem overlongMapping_rd_other (hz : Zeros z) (hlow : k < key 0x2712 0) (hk : k % 256 = 0) (h8 : k ≠ cpk 0 8) (h1 : k ≠ cpk 0 1)
    (h6 : k ≠ key 0x2100 6) (h0 : k ≠ key 0x1600 0) : (overlongMapping z n).rd k = 0 := by
  refine State.rd_of_find? (Eq.trans ?_ (hz k hlow hk))
  exact (Tbl.find?_set_other _ _ h8).trans ((Tbl.find?_set_other _ _ h1).trans ((Tbl.find?_set_other _ _ h6).trans (Tbl.find?_set_other _ _ h0)))

theorem overlongMapping_rd_on : (overlongMapping z n).rd (cpk 0 1) = 1 :=
  State.rd_of_find? ((Tbl.find?_set_other _ _ (by decide)).trans (Tbl.find?_set_same _ _ _))

theorem overlongMapping_rd_server : (overlongMapping z n).rd (key 0x2100 6) = 2 :=
  State.rd_of_find? ((Tbl.find?_set_other _ _ (by decide)).trans ((Tbl.find?_set_other _ _ (by decide)).trans (Tbl.find?_set_same _ _ _)))

theorem overlongMapping_rd_count : (overlongMapping z n).rd (key 0x1600 0) = n :=
  State.rd_of_find? ((Tbl.find?_set_other _ _ (by decide)).trans ((Tbl.find?_set_other _ _ (by decide)).trans
    ((Tbl.find?_set_other _ _ (by decide)).trans (Tbl.find?_set_same _ _ _))))

end

/-! ### An RPDO that names nothing -/

theorem descAt_zero : descAt 0 0 = none := by decide

theorem State.serverOnly_sessionReply_nobody (s : State) : ServerOnly s (s.sessionReply nobody) := by
  rw [State.sessionReply_nobody]
  exact ⟨_, _, rfl⟩

/-- A write of entry 0x0000.00 changes nothing but the server's records and what was sent. -/
theorem State.serverOnly_fieldWrite_zero (s : State) : ServerOnly s (s.fieldWrite 0 0 []) := by
  have hvalue (v : State) : v.writeValue { role := .safety, servicePort := false, sid := nobody } 4 false 0 0 0 [] = v.answer abNoIndex := by
    have hcheck (w : Int) : v.writeCheck 4 false 0 0 0 0 w = abNoIndex := by
      have haccess : v.accessCheck 4 false 0 0 0 w = abNoIndex := by
        unfold State.accessCheck
        rw [descAt_zero]
        rfl
      unfold State.writeCheck
      rw [haccess]
      rfl
    unfold State.writeValue
    dsimp only
    rw [List.length_nil, hcheck, if_pos (by decide)]
    unfold State.refuse
    dsimp only
    rw [if_neg (show ¬ abNoIndex = abRole by decide)]
  have hdigest : digestWrite 0 0 = false := by decide
  unfold State.fieldWrite State.write
  dsimp only
  rw [descAt_zero]
  dsimp only
  rw [hvalue, hdigest]
  have hanswered : ServerOnly s ((s.handling nobody).answer abNoIndex) := ⟨_, _, rfl⟩
  exact (hanswered.trans (State.serverOnly_longBy _ _ _)).trans (State.serverOnly_sessionReply_nobody _)

/-- An RPDO whose mapping entries all read as entry 0x0000.00 of no width changes nothing but the server's records and what was sent. -/
theorem State.serverOnly_rpdo {k r : Nat} {s : State} (hvalid : s.rdN (key (0x1400 + 8 * k + r) 1) < 0x80000000)
    (hmap : ∀ m ∈ s.mapping (0x1600 + 8 * k + r), mapped m = (0, 0, 0)) : ServerOnly s (s.rpdo k r []) := by
  have hms : ∀ m ∈ (s.mapping (0x1600 + 8 * k + r)).map mapped, m = (0, 0, 0) := by
    intro m hm
    obtain ⟨n, hn, rfl⟩ := List.mem_map.1 hm
    exact hmap n hn
  generalize hl : (s.mapping (0x1600 + 8 * k + r)).map mapped = ms at hms
  have hfold (u : State) : ServerOnly u (ms.foldl
      (fun (a : List Byte × State) m => (a.1.drop m.2.2, a.2.fieldWrite m.1 m.2.1 (a.1.take m.2.2))) ([], u)).2 := by
    clear hl
    induction ms generalizing u with
    | nil => exact ServerOnly.refl u
    | cons m ms ih =>
      obtain rfl := hms m List.mem_cons_self
      exact (State.serverOnly_fieldWrite_zero u).trans (ih (fun m hm => hms m (List.mem_cons_of_mem _ hm)) _)
  unfold State.rpdo
  dsimp only
  have hsum : (ms.map (fun m : Nat × Nat × Nat => m.2.2)).sum = 0 := by
    refine List.sum_eq_zero fun w hw => ?_
    obtain ⟨m, hm, rfl⟩ := List.mem_map.1 hw
    rw [hms m hm]
  rw [if_neg (by omega), hl, hsum, if_neg (Nat.not_lt_zero _)]
  exact hfold s

section
variable {n : Nat} {z : Tbl Int}

theorem overlongMapping_canRuns : (overlongMapping z n).CanRuns 0 0 := by
  have hup : (overlongMapping z n).serverUp = true := by rw [State.serverUp, State.rdN, overlongMapping_rd_server]; rfl
  have hon : (overlongMapping z n).rdB (cpk 0 1) = true := by rw [State.rdB, overlongMapping_rd_on]; rfl
  have hbit : ((overlongMapping z n).begin 0).bit (cpk 0 8) 2 = false := by
    have hstatus : ((overlongMapping z n).begin 0).rd (cpk 0 8) = 8 := overlongMapping_rd_status
    rw [State.bit, State.rdN, hstatus]
    decide
  refine ⟨?_, Bool.and_eq_false_iff.2 (.inl hbit)⟩
  rw [State.canOn, hup]
  exact hon

variable (hn : n = (0x2710 - 0x1600) * 256 + 8)
include hn

/-- The status is set with the reception: then every mapping entry names entry 0x0000.00. -/
theorem overlongMapping_taken (hz : Zeros z) : ∀ m ∈ (((overlongMapping z n).begin 0).wr (cpk 0 8) 1).mapping 0x1600, mapped m = (0, 0, 0) := by
  intro m hm
  obtain ⟨hm, -⟩ := List.mem_filter.1 hm
  obtain ⟨e, he, rfl⟩ := List.mem_map.1 hm
  have hcount : (((overlongMapping z n).begin 0).wr (cpk 0 8) 1).rdN (key 0x1600 0) = n := by
    refine (congrArg Int.toNat ((State.rd_wr_ne (by decide) (by decide) 1 _).trans ?_)).trans (Int.toNat_natCast n)
    exact overlongMapping_rd_count
  rw [List.mem_range, hcount, hn] at he
  generalize hk : key 0x1600 (e + 1) = k
  have hlow : k < key 0x2712 0 ∧ k % 256 = 0 ∧ k ≠ key 0x1600 0 ∧ OwnDefault k := by
    simp only [OwnDefault, key] at hk ⊢
    omega
  obtain ⟨hlow, heven, hfirst, hown⟩ := hlow
  by_cases h8 : k = cpk 0 8
  · rw [h8, State.rdN_wr_same]
    rfl
  · have hsame : (((overlongMapping z n).begin 0).wr (cpk 0 8) 1).rdN k = (overlongMapping z n).rdN k :=
      congrArg Int.toNat ((State.rd_wr_ne h8 hown 1 _).trans rfl)
    rw [hsame, State.rdN]
    by_cases h1 : k = cpk 0 1
    · rw [h1, overlongMapping_rd_on]
      rfl
    by_cases h6 : k = key 0x2100 6
    · rw [h6, overlongMapping_rd_server]
      rfl
    rw [overlongMapping_rd_other hz hlow heven h8 h1 h6 hfirst]
    rfl

/-- Before, the status is one of the mapped entries, and takes a byte. -/
theorem overlongMapping_long : 0 < (((overlongMapping z n).mapping 0x1600).map (fun m => m % 256 / 8)).sum := by
  have hlast : key 0x1600 (n - 1 + 1) = cpk 0 8 := by
    simp only [cpk, key]
    omega
  have hmem : 8 ∈ (overlongMapping z n).mapping 0x1600 := by
    refine List.mem_filter.2 ⟨List.mem_map.2 ⟨n - 1, List.mem_range.2 ?_, ?_⟩, by decide⟩
    · rw [State.rdN, overlongMapping_rd_count, Int.toNat_natCast]
      omega
    · rw [hlast, State.rdN, overlongMapping_rd_status]
      rfl
  have hone : 1 ∈ ((overlongMapping z n).mapping 0x1600).map (fun m => m % 256 / 8) := List.mem_map.2 ⟨8, hmem, rfl⟩
  exact Nat.lt_of_lt_of_le Nat.one_pos (List.le_sum_of_mem hone)

end

/-- Refutes O56: the RPDO without data is shorter than its mapping, and so it is to be counted; but it is not. -/
theorem not_pdoCommandsComplete : ¬ Obligations.PdoCommandsComplete := by
  intro h
  obtain ⟨z, hz⟩ := exists_zeros
  obtain ⟨n, hn⟩ : ∃ n, n = (0x2710 - 0x1600) * 256 + 8 := ⟨_, rfl⟩
  have hrd : (overlongMapping z n).rd (key 0x1400 1) = 0 :=
    overlongMapping_rd_other hz (by decide) (by decide) (by decide) (by decide) (by decide) (by decide)
  have hvalid : (overlongMapping z n).rdN (key 0x1400 1) < 0x80000000 := by
    rw [State.rdN, hrd]
    decide
  have hvalid' : (((overlongMapping z n).begin 0).wr (cpk 0 8) 1).rdN (key 0x1400 1) < 0x80000000 := by
    have hsame : (((overlongMapping z n).begin 0).wr (cpk 0 8) 1).rd (key 0x1400 1) = 0 :=
      (State.rd_wr_ne (by decide) (by decide) 1 _).trans hrd
    rw [State.rdN, hsame]
    decide
  obtain ⟨u, hrun, -, -, -, hcounted⟩ := (h.2.2.2.1 0 0 0 [] (overlongMapping z n) overlongMapping_canRuns).2 hvalid (overlongMapping_long hn)
  have hserver : ServerOnly (((overlongMapping z n).begin 0).wr (cpk 0 8) 1) u := by
    rw [← Host.Outcome.next.inj hrun]
    have hport := State.onCan_of_runs (t := 0) (k := 0) (s := overlongMapping z n) overlongMapping_canRuns (State.rpdo 0 0 [])
    exact hport ▸ State.serverOnly_rpdo (k := 0) (r := 0) hvalid' (overlongMapping_taken hn hz)
  obtain ⟨v, o, rfl⟩ := hserver
  have hsame : Tbl.get 0 0 (overlongMapping z n).net.shortPdos = Tbl.get 0 0 (overlongMapping z n).net.shortPdos + 1 := hcounted
  omega

end Sys2Proof.Machine
end

section
/-! The entries of the safety island (objects 0x7200 and above) through an event and through what the trigger units do (R276, R288): it leaves them.
Steps over a list that keep what holds, or bring it about. -/

namespace Sys2Proof.Machine

/-! ### Steps over a list -/

theorem State.each_keeps {α : Type} {P : State → Prop} {l : List α} {f : α → State → State} (h : ∀ a ∈ l, ∀ s, P s → P (f a s)) {s : State}
    (hs : P s) : P (s.each l f) := by
  unfold State.each
  induction l generalizing s with
  | nil => exact hs
  | cons a r ih => exact ih (fun b hb => h b (List.mem_cons_of_mem a hb)) (h a List.mem_cons_self s hs)

/-- What one member brings about and none of the others undoes holds at the end. -/
theorem State.each_reaches {α : Type} {I Q : State → Prop} {l : List α} {f : α → State → State} {a : α} (ha : a ∈ l)
    (hI : ∀ b ∈ l, ∀ s, I s → I (f b s)) (hQ : ∀ s, I s → Q (f a s)) (hk : ∀ b ∈ l, ∀ s, Q s → Q (f b s)) {s : State} (hs : I s) :
    Q (s.each l f) := by
  obtain ⟨l₁, l₂, rfl⟩ := List.append_of_mem ha
  have hsplit : s.each (l₁ ++ a :: l₂) f = (f a (s.each l₁ f)).each l₂ f := by simp [State.each]
  rw [hsplit]
  refine State.each_keeps (fun b hb => hk b (by simp [hb])) (hQ _ (State.each_keeps (fun b hb => hI b (by simp [hb])) hs))

/-! ### An event leaves the island's entries -/

/-- The entry belongs to the island's objects, or to those above them. -/
abbrev IslandKey (k : Nat) : Prop := key 0x7200 0 ≤ k

theorem IslandKey.own {k : Nat} (hk : IslandKey k) : OwnDefault k := by
  simp only [IslandKey, key] at hk
  exact .inr (.inl (by omega))

/-- From s to t entry k stays listed as it was. -/
def KeepsAt (k : Nat) (s t : State) : Prop := Tbl.find? k t.od = Tbl.find? k s.od

namespace KeepsAt

variable {k : Nat}

theorem of_eq {s t : State} (h : t.od = s.od) : KeepsAt k s t := congrArg (Tbl.find? k) h

theorem trans {r s t : State} (h : KeepsAt k r s) (g : KeepsAt k s t) : KeepsAt k r t := Eq.trans g h

theorem wr {j : Nat} (h : k ≠ j) (v : Int) (s : State) : KeepsAt k s (s.wr j v) := State.find?_wr_ne h s v

theorem each {α : Type} {l : List α} {f : α → State → State} (h : ∀ a ∈ l, ∀ s, KeepsAt k s (f a s)) (s : State) : KeepsAt k s (s.each l f) :=
  State.find?_each h s

theorem rd {s t : State} (h : KeepsAt k s t) (hk : OwnDefault k) : t.rd k = s.rd k := State.rd_congr hk h

theorem of_ite {c : Prop} [Decidable c] {s t u : State} (h : KeepsAt k s t) (g : KeepsAt k s u) : KeepsAt k s (if c then t else u) :=
  EventRel.of_ite h g

section
variable (hk : IslandKey k)
include hk

theorem low {j : Nat} (hj : j < key 0x7200 0) : k ≠ j := by omega

theorem showCapture {b : Nat} (hb : b < 32) (s : State) : KeepsAt k s (s.showCapture b) := by
  have hne (a : Nat) (ha : a < 256) : k ≠ bfk b a := low hk (by simp only [bfk, key]; omega)
  exact ((((wr (hne 2 (by decide)) _ _).trans (wr (hne 6 (by decide)) _ _)).trans (wr (hne 7 (by decide)) _ _)).trans (wr (hne 8 (by decide)) _ _))

theorem captureFire (slot unit : Nat) (tm : Time) (s : State) : KeepsAt k s (s.captureFire slot unit tm).1 := by
  have hbuf {st b : Nat} (h : s.bufferIn st = some b) : b < 32 := by
    have := List.mem_range.1 (List.mem_of_find?_eq_some h)
    omega
  have haq (a : Nat) (ha : a < 256) : k ≠ aqk a := low hk (by simp only [aqk, key]; omega)
  unfold State.captureFire
  lift_lets
  intro post
  split
  next b hb =>
    have h32 := hbuf hb
    lift_lets
    intro x mine old first mark x₁ room x₂ x₃ x₄ s'
    have hs' : KeepsAt k s s' := of_ite (of_eq rfl) (wr (haq 0xF (by decide)) _ s)
    split
    · exact of_eq rfl
    · exact hs'.trans ((of_eq rfl : KeepsAt k s' (s'.setAcqBuf b x₄)).trans (showCapture hk h32 _))
  next =>
    split
    · exact of_eq rfl
    · split
      next b hb =>
        have h32 := hbuf hb
        refine KeepsAt.trans ?_ (showCapture hk h32 _)
        exact wr (j := bfk b 1) (low hk (by simp only [bfk, key]; omega)) 2 (s.setAcqBuf b _)
      next => exact wr (haq 0xE (by decide)) _ s

theorem putEvent (code inst : Nat) (data : List Byte) (s : State) : KeepsAt k s (s.putEvent code inst data) := by
  have hlg (a : Nat) (ha : a < 256) : k ≠ key 0x7100 a := low hk (by simp only [key]; omega)
  have hemcy (e : Event) (s : State) : KeepsAt k s (s.emcy e) := by
    refine KeepsAt.each (fun j _ s => of_ite ?_ ?_) s
    · exact of_eq rfl
    · exact of_eq rfl
  have henq (e : Event) (s : State) : KeepsAt k s (s.enqueueEvent e) := by
    unfold State.enqueueEvent
    lift_lets
    intro lost
    have hlost (s : State) : KeepsAt k s (lost s) := wr (hlg _ (by decide)) _ _
    exact of_ite (of_ite (wr (hlg _ (by decide)) _ _) (hlost s)) (of_ite (hlost s) (of_ite (of_eq rfl) (hlost s)))
  unfold State.putEvent
  lift_lets
  intro src r e taken
  exact of_ite (wr (hlg _ (by decide)) _ _) (((of_eq rfl : KeepsAt k s taken).trans (henq e taken)).trans (hemcy e _))

section
variable {log : Nat → Nat → List Byte → State → State} (hlog : ∀ c i l s, KeepsAt k s (log c i l s)) {u : Nat} (hu : u < 16)
include hlog hu

theorem fireUnit (tm : Time) (s : State) : KeepsAt k s (s.fireUnit log u tm) := by
  have htu (a : Nat) (ha : a < 256) : k ≠ tuk u a := low hk (by simp only [tuk, key]; omega)
  unfold State.fireUnit
  lift_lets
  intro slot acts counted p logged fired
  have hcounted : KeepsAt k s counted := (wr (htu _ (by decide)) _ _).trans (wr (htu _ (by decide)) _ _)
  have hp : KeepsAt k counted p.1 := captureFire hk _ _ _ _
  have hlogged : KeepsAt k counted logged := of_ite (hp.trans (hlog _ _ _ _)) hp
  have hfired : KeepsAt k s fired := hcounted.trans (of_ite (of_ite hlogged (hlogged.trans (of_eq rfl))) (of_eq rfl))
  exact of_ite (hfired.trans (hlog _ _ _ _)) hfired

theorem everyUpdate (tm : Time) (s : State) : KeepsAt k s (s.everyUpdate log u tm) := by
  have htu (a : Nat) (ha : a < 256) : k ≠ tuk u a := low hk (by simp only [tuk, key]; omega)
  unfold State.everyUpdate
  lift_lets
  intro r q start shown
  have hshown : KeepsAt k s shown := wr (htu _ (by decide)) _ _
  exact of_ite (hshown.trans ((of_eq rfl : KeepsAt k shown (shown.setTrig u _)).trans (fireUnit hk hlog hu _ _))) hshown

end

theorem logChain (fuel : Nat) (used : List Nat) (code inst : Nat) (data : List Byte) (s : State) :
    KeepsAt k s (s.logChain fuel used code inst data) := by
  induction fuel generalizing used code inst data s with
  | zero => exact putEvent hk code inst data s
  | succ n ih =>
    refine (putEvent hk code inst data s).trans (KeepsAt.each (fun u hu t => everyUpdate hk (fun c i l s => ih _ c i l s) ?_ _ t) _)
    exact List.mem_range.1 (List.mem_filter.1 (List.mem_filter.1 hu).1).1

theorem logEvent (code inst : Nat) (data : List Byte) (s : State) : KeepsAt k s (s.logEvent code inst data) := logChain hk 16 [] code inst data s

theorem unitUpdate {u : Nat} (hu : u < 16) (raw : Bool) (v : Option Int) (tm : Time) (s : State) : KeepsAt k s (s.unitUpdate u raw v tm) := by
  have htu (a : Nat) (ha : a < 256) : k ≠ tuk u a := low hk (by simp only [tuk, key]; omega)
  unfold State.unitUpdate
  lift_lets
  intro r c level ok released q run start latched r' shown
  have hshown : KeepsAt k s shown := wr (htu _ (by decide)) _ _
  exact of_ite (hshown.trans ((of_eq rfl : KeepsAt k shown (shown.setTrig u _)).trans (fireUnit hk (logEvent hk) hu _ _))) hshown

theorem frameSource (type sel : Nat) (bytes : List Byte) (tm : Time) (s : State) : KeepsAt k s (s.frameSource type sel bytes tm) :=
  KeepsAt.each (fun _ hu t => unitUpdate hk (List.mem_range.1 (List.mem_filter.1 hu).1) true _ tm t) s

theorem inputDue (i : Nat) {u : Nat} (hu : u < 16) (s : State) : KeepsAt k s (s.inputDue i u) := by
  unfold State.inputDue
  lift_lets
  intro r e held shown d
  have hshown : KeepsAt k s shown := wr (j := tuk u 0xF) (low hk (by simp only [tuk, key]; omega)) _ (s.setTrig u _)
  refine of_ite (hshown.trans ?_) hshown
  exact fireUnit hk (logEvent hk) hu e (State.setTrig u _ { shown with now := d })

theorem inputsDue (s : State) : KeepsAt k s s.inputsDue :=
  KeepsAt.each (fun i _ s => KeepsAt.each (fun _ hu s => inputDue hk i (List.mem_range.1 (List.mem_filter.1 hu).1) s) s) s

omit hk in
theorem setAcq (t : State) (x : Acq) : KeepsAt k t { t with acq := x } := of_eq rfl

theorem inputsDue_setAcq (t : State) (x : Acq) : KeepsAt k t (State.inputsDue { t with acq := x }) := (setAcq t x).trans (inputsDue hk _)

theorem inputEdge (i : Nat) (high : Bool) (tm : Time) (s : State) : KeepsAt k s (s.inputEdge i high tm) := by
  have hdue := inputsDue hk s
  unfold State.inputEdge
  generalize s.inputsDue = due at hdue ⊢
  dsimp only
  exact of_ite hdue (hdue.trans (inputsDue_setAcq hk due _))

end

end KeepsAt

end Sys2Proof.Machine
end

section
/-! The safety island's demands and status (R243, R244, R247): what a demand writes of a circuit and what it leaves, and that no circuit under a
standing demand is left closing or closed. -/

namespace Sys2Proof.Machine

/-! ### Circuits and switches -/

section
variable {m n : Nat}

theorem State.circ_of_island {s t : State} (h : t.island = s.island) (m : Nat) : t.circ m = s.circ m := by
  rw [State.circ, State.circ, h]

theorem State.circState_of_keeps {s t : State} (hk : KeepsAt (ik m 7) s t) : t.circState m = s.circState m := by
  refine congrArg Int.toNat (hk.rd ?_)
  simp only [OwnDefault, ik, key]
  omega

/-- What a command of both switches leaves of its circuit's record beside them. -/
theorem State.circ_switches_same (hs ls : Bool) (s : State) :
    ∃ at_, (s.switches n hs ls).circ n = { s.circ n with hs := hs, ls := ls, cmdAt := at_ } := by
  unfold State.switches
  dsimp only
  split
  case isTrue h =>
    obtain ⟨hhs, hls⟩ : (s.circ n).hs = hs ∧ (s.circ n).ls = ls := by simpa using h
    exact ⟨(s.circ n).cmdAt, by rw [← hhs, ← hls]⟩
  case isFalse => exact ⟨s.now, State.circ_setCirc_same ..⟩

theorem State.circ_switches_other (h : m ≠ n) (hs ls : Bool) (s : State) : (s.switches n hs ls).circ m = s.circ m :=
  State.same_ite (State.circ m) rfl (State.circ_setCirc_other _ _ s h)

theorem State.od_switches (hs ls : Bool) (s : State) : (s.switches n hs ls).od = s.od := State.same_ite State.od rfl rfl

theorem State.circ_circOff_same (s : State) : ∃ at_ retry, (s.circOff n).circ n = { s.circ n with
    hs := false, ls := false, cmdAt := at_, step := 0, seen := false, ack := false, req := 0, hostReq := false, pulse := none, retry := retry } := by
  obtain ⟨at_, h⟩ := State.circ_switches_same (n := n) false false s
  unfold State.circOff
  rw [State.circ_setCirc_same, h]
  exact ⟨at_, _, rfl⟩

theorem State.circ_circOff_other (h : m ≠ n) (s : State) : (s.circOff n).circ m = s.circ m :=
  (State.circ_setCirc_other _ _ _ h).trans (State.circ_switches_other h false false s)

theorem State.od_circOff (s : State) : (s.circOff n).od = s.od := State.od_switches false false s

theorem KeepsAt.setCircState {k : Nat} (h7 : k ≠ ik n 7) (h15 : k ≠ twk 0x15) (st : Nat) (s : State) : KeepsAt k s (s.setCircState n st) :=
  .of_ite ((KeepsAt.wr h7 _ s).trans (.wr h15 _ _)) (.wr h7 _ s)

theorem State.circState_setCircState (st : Nat) (s : State) : (s.setCircState n st).circState n = st := by
  have h15 : ik n 7 ≠ twk 0x15 := by simp only [ik, twk, key]; omega
  have hwr : (s.wr (ik n 7) st).circState n = st := State.rdN_wr_same _ _ s
  exact (State.same_ite (State.circState n) (s := s.wr (ik n 7) st) (State.circState_of_keeps (KeepsAt.wr h15 _ _)) rfl).trans hwr

theorem State.island_setCircState (st : Nat) (s : State) : (s.setCircState n st).island = s.island := State.same_ite State.island rfl rfl

end

/-! ### A demand on one circuit -/

/-- The entry is none of those that a demand on circuit n writes: its state, its openings, its aborted tests. -/
abbrev OffCirc (n k : Nat) : Prop := k ≠ ik n 7 ∧ k ≠ ik n 0xE ∧ k ≠ ik n 0xF

/-- An entry that the island's commands leave but for its own object: the wiring of the bridges, or one of the island's objects or above. -/
abbrev Watched (k : Nat) : Prop := k = twk 0x14 ∨ IslandKey k

theorem Watched.own {k : Nat} (hk : Watched k) : OwnDefault k := by
  obtain rfl | h := hk
  · exact .inl (by decide)
  · exact h.own

theorem Watched.ne {k j : Nat} (hk : Watched k) (hj : j < key 0x7200 0) (h14 : j ≠ twk 0x14) : k ≠ j := by
  obtain rfl | h := hk
  · exact h14.symm
  · exact KeepsAt.low h hj

theorem Watched.logEvent {k : Nat} (hk : Watched k) (code inst : Nat) (data : List Byte) (s : State) : KeepsAt k s (s.logEvent code inst data) := by
  obtain rfl | h := hk
  · exact State.find?_logEvent (by decide) code inst data s
  · exact KeepsAt.logEvent h code inst data s

section
variable {n k : Nat} (hk : Watched k) (hc : OffCirc n k)
include hk

theorem KeepsAt.discardRequest (s : State) : KeepsAt k s (s.discardRequest n) := by
  have hbk {l : List Nat} (hl : ∀ b ∈ l, b ∈ s.circBatches n) {o a : Nat} (ho : o < 0x20) (ha : a < 256) (i : Nat) :
      KeepsAt k s (s.each l fun b => State.setBit (bk o a b) i false) := by
    refine KeepsAt.each (fun b hb t => .wr ?_ _ t) s
    have hb32 : b < 32 := by
      have h := hl b hb
      simp only [State.circBatches] at h
      split at h
      · exact absurd h List.not_mem_nil
      · simpa [allBatches] using (List.mem_filter.1 h).1
    refine hk.ne ?_ ?_
    all_goals simp only [bk, twk, key]; omega
  unfold State.discardRequest
  split
  · exact hbk (fun b hb => (List.mem_filter.1 hb).1) (by decide) (by decide) 7
  · exact hbk (fun b hb => (List.mem_filter.1 hb).1) (by decide) (by decide) 6
  · exact .of_eq rfl
  · exact .of_eq rfl
  · exact .of_eq rfl

include hc

theorem KeepsAt.interrupted (aborts : Bool) (s : State) : KeepsAt k s (s.interrupted n aborts) := by
  obtain ⟨h7, hE, hF⟩ := hc
  unfold State.interrupted
  lift_lets
  intro c st proof counted opened
  have hcounted : KeepsAt k s counted := .of_ite (.wr hF _ s) (.of_eq rfl)
  have hopened : KeepsAt k s opened := hcounted.trans (.of_ite (.wr hE _ _) (.of_eq rfl))
  exact .of_ite (hopened.trans (.discardRequest hk _)) hopened

theorem KeepsAt.demandOpen (isNew : Bool) (s : State) : KeepsAt k s (s.demandOpen n isNew) := by
  have h15 : k ≠ twk 0x15 := hk.ne (by simp only [twk, key]; omega) (by decide)
  have hoff : KeepsAt k s ((s.interrupted n true).circOff n) := (KeepsAt.interrupted hk hc true s).trans (.of_eq (State.od_circOff _))
  unfold State.demandOpen
  exact .of_ite (.of_eq rfl) (.of_ite (hoff.trans (.setCircState hc.1 h15 0 _)) (.of_ite hoff (.of_eq rfl)))

end

theorem State.circ_discardRequest {m n : Nat} (h : m ≠ n) (s : State) : (s.discardRequest n).circ m = s.circ m := by
  have hbk {l : List Nat} (o a i : Nat) : (s.each l fun b => State.setBit (bk o a b) i false).island = s.island :=
    State.each_eq State.island (by intros; rfl) s
  unfold State.discardRequest
  split
  · exact State.circ_of_island (hbk ..) m
  · exact State.circ_of_island (hbk ..) m
  · rfl
  · exact State.circ_setCirc_other _ _ _ h
  · rfl

theorem State.island_incIf (c : Prop) [Decidable c] (k : Nat) (s : State) : (if c then s.inc k else s).island = s.island :=
  State.same_ite State.island rfl rfl

/-- From s to t the island stays as it is, but for the records of its circuits and the demands it holds. -/
def CircsOnly (s t : State) : Prop := ∃ c d, t.island = { s.island with circs := c, demands := d }

namespace CircsOnly

theorem of_eq {s t : State} (h : t.island = s.island) : CircsOnly s t := ⟨s.island.circs, s.island.demands, h⟩

theorem trans {r s t : State} (h : CircsOnly r s) (g : CircsOnly s t) : CircsOnly r t := by
  obtain ⟨c, d, h⟩ := h
  obtain ⟨c', d', g⟩ := g
  exact ⟨c', d', by rw [g, h]⟩

theorem setCirc (n : Nat) (c : IslandCirc) (s : State) : CircsOnly s (s.setCirc n c) := ⟨_, s.island.demands, rfl⟩

theorem switches (n : Nat) (hs ls : Bool) (s : State) : CircsOnly s (s.switches n hs ls) := EventRel.of_ite (.of_eq rfl) (setCirc _ _ s)

theorem circOff (n : Nat) (s : State) : CircsOnly s (s.circOff n) := (switches n false false s).trans (setCirc _ _ _)

theorem each {α : Type} {f : α → State → State} (hf : ∀ a s, CircsOnly s (f a s)) (l : List α) (s : State) : CircsOnly s (s.each l f) :=
  State.each_keeps (P := CircsOnly s) (fun a _ t h => h.trans (hf a t)) (.of_eq rfl)

theorem discardRequest (n : Nat) (s : State) : CircsOnly s (s.discardRequest n) := by
  unfold State.discardRequest
  split
  · exact each (by intros; exact .of_eq rfl) _ s
  · exact each (by intros; exact .of_eq rfl) _ s
  · exact .of_eq rfl
  · exact setCirc _ _ s
  · exact .of_eq rfl

theorem interrupted (n : Nat) (aborts : Bool) (s : State) : CircsOnly s (s.interrupted n aborts) := by
  unfold State.interrupted
  lift_lets
  intro c st proof counted opened
  have hopened : CircsOnly s opened := .of_eq ((State.island_incIf ..).trans (State.island_incIf ..))
  exact EventRel.of_ite (hopened.trans (discardRequest n opened)) hopened

theorem demandOpen (n : Nat) (isNew : Bool) (s : State) : CircsOnly s (s.demandOpen n isNew) := by
  have hoff := (interrupted n true s).trans (circOff n (s.interrupted n true))
  unfold State.demandOpen
  exact EventRel.of_ite (.of_eq rfl) (EventRel.of_ite (hoff.trans (.of_eq (State.island_setCircState 0 _)))
    (EventRel.of_ite hoff (setCirc _ _ s)))

end CircsOnly

section
variable {m n : Nat}

/-- A demand on one circuit leaves the records of the others. -/
theorem State.circ_demandOpen_other (h : m ≠ n) (isNew : Bool) (s : State) : (s.demandOpen n isNew).circ m = s.circ m := by
  have hint : (s.interrupted n true).circ m = s.circ m := by
    unfold State.interrupted
    lift_lets
    intro c st proof counted opened
    have hopened : opened.island = s.island := (State.island_incIf ..).trans (State.island_incIf ..)
    exact State.same_ite (State.circ m) (s := s) ((State.circ_discardRequest h opened).trans (State.circ_of_island hopened m))
      (State.circ_of_island hopened m)
  have hoff : ((s.interrupted n true).circOff n).circ m = s.circ m := (State.circ_circOff_other h _).trans hint
  unfold State.demandOpen
  exact State.same_ite (State.circ m) rfl (State.same_ite (State.circ m)
    ((State.circ_of_island (State.island_setCircState 0 _) m).trans hoff)
    (State.same_ite (State.circ m) hoff (State.circ_setCirc_other _ _ s h)))

/-- What demands may do to circuit m: its state stays or, but for a fault, becomes Open, and no switch is turned on. -/
structure Eases (m : Nat) (s t : State) : Prop where
  state : t.circState m = s.circState m ∨ (s.circState m ≠ 4 ∧ t.circState m = 0)
  hs : (s.circ m).hs = false → (t.circ m).hs = false
  ls : (s.circ m).ls = false → (t.circ m).ls = false

namespace Eases

theorem refl (m : Nat) (s : State) : Eases m s s := ⟨.inl rfl, id, id⟩

theorem of_same {s t : State} (hc : t.circ m = s.circ m) (hs : t.circState m = s.circState m) : Eases m s t := by
  refine ⟨.inl hs, ?_, ?_⟩
  all_goals rw [hc]; exact id

theorem trans {r s t : State} (h : Eases m r s) (g : Eases m s t) : Eases m r t := by
  obtain ⟨hst, hhs, hls⟩ := h
  obtain ⟨gst, ghs, gls⟩ := g
  exact ⟨by omega, ghs ∘ hhs, gls ∘ hls⟩

theorem each {α : Type} {l : List α} {f : α → State → State} (h : ∀ a ∈ l, ∀ s, Eases m s (f a s)) (s : State) : Eases m s (s.each l f) :=
  State.each_keeps (P := Eases m s) (fun a ha t ht => ht.trans (h a ha t)) (.refl m s)

/-- A circuit that was Open or in Fault stays so. -/
theorem resting {s t : State} (h : Eases m s t) (hs : s.circState m = 0 ∨ s.circState m = 4) : t.circState m = 0 ∨ t.circState m = 4 := by
  obtain ⟨hst, -, -⟩ := h
  omega

end Eases

/-- The circuit's own entries but for those a demand on the circuit writes; any entry of another circuit. -/
theorem offCirc_ik {a : Nat} (ha : a < 256) (h : m ≠ n ∨ (a ≠ 7 ∧ a ≠ 0xE ∧ a ≠ 0xF)) : OffCirc n (ik m a) := by
  simp only [OffCirc, ik, key]
  omega

theorem watched_ik (n a : Nat) : Watched (ik n a) := by
  refine .inr ?_
  simp only [IslandKey, ik, key]
  omega

theorem State.keeps_demandOpen_other (h : m ≠ n) {a : Nat} (ha : a < 256) (isNew : Bool) (s : State) :
    KeepsAt (ik m a) s (s.demandOpen n isNew) := .demandOpen (watched_ik m a) (offCirc_ik ha (.inl h)) isNew s

/-- A demand opens its circuit, but for one in Fault. -/
theorem State.circState_demandOpen (isNew : Bool) (s : State) :
    (s.demandOpen n isNew).circState n = if s.circState n = 4 then 4 else 0 := by
  have hint (h : s.circState n = 0) : (s.interrupted n true).circState n = 0 := by
    have hF : ik n 7 ≠ ik n 0xF := by simp only [ik, key]; omega
    have hkeep : (if true && ((decide (s.circState n = 1) || (decide (s.circState n = 2) && !(s.circ n).seen)) || (s.circ n).pulse.isSome)
        then s.inc (ik n 0xF) else s).circState n = s.circState n :=
      State.same_ite (State.circState n) (State.circState_of_keeps (.wr hF _ s)) rfl
    simpa [State.interrupted, h] using hkeep.trans h
  unfold State.demandOpen
  dsimp only
  split
  case isTrue h => exact h
  case isFalse h4 =>
    split
    · exact State.circState_setCircState 0 _
    case isFalse h0 =>
      have h0 : s.circState n = 0 := by simpa using h0
      split
      · exact (State.circState_of_keeps (.of_eq (State.od_circOff _))).trans (hint h0)
      · exact h0

theorem Eases.demandOpen (m n : Nat) (isNew : Bool) (s : State) : Eases m s (s.demandOpen n isNew) := by
  obtain rfl | hm := eq_or_ne m n
  case inr =>
    exact .of_same (State.circ_demandOpen_other hm isNew s) (State.circState_of_keeps (State.keeps_demandOpen_other hm (by decide) isNew s))
  case inl =>
    have hoff (t : State) : ((t.circOff m).circ m).hs = false ∧ ((t.circOff m).circ m).ls = false := by
      obtain ⟨at_, retry, h⟩ := State.circ_circOff_same (n := m) t
      rw [h]
      exact ⟨rfl, rfl⟩
    have hsw : (s.demandOpen m isNew).circ m = s.circ m ∨ (((s.demandOpen m isNew).circ m).hs = false ∧ ((s.demandOpen m isNew).circ m).ls = false) ∨
        (s.demandOpen m isNew).circ m = { s.circ m with hostReq := false } := by
      unfold State.demandOpen
      dsimp only
      split
      · exact .inl rfl
      · split
        · rw [State.circ_of_island (State.island_setCircState 0 _)]
          exact .inr (.inl (hoff _))
        · split
          · exact .inr (.inl (hoff _))
          · exact .inr (.inr (State.circ_setCirc_same ..))
    refine ⟨?_, fun h => ?_, fun h => ?_⟩
    · rw [State.circState_demandOpen]
      split
      case isTrue h => exact .inl h.symm
      case isFalse h => exact .inr ⟨h, rfl⟩
    · obtain e | ⟨e, -⟩ | e := hsw
      · rw [e]; exact h
      · exact e
      · rw [e]; exact h
    · obtain e | ⟨-, e⟩ | e := hsw
      · rw [e]; exact h
      · exact e
      · rw [e]; exact h

end

/-! ### The demands of a moment -/

/-- The entry is none of those that the demands write: their count, and of each circuit those of OffCirc. -/
abbrev OffDemand (k : Nat) : Prop := Watched k ∧ k ≠ key 0x7800 8 ∧ ∀ n < 4, OffCirc n k

theorem testBit_demandMask (l : List Demand) (n : Nat) : (demandMask l).testBit n = true ↔ ∃ d ∈ l, d.mask.testBit n = true := by
  have h (m : Nat) : (l.foldl (fun m d => m ||| d.mask) m).testBit n = true ↔ m.testBit n = true ∨ ∃ d ∈ l, d.mask.testBit n = true := by
    induction l generalizing m with
    | nil => simp
    | cons d r ih => simp [ih, or_assoc]
  exact (h 0).trans (by simp)

theorem State.testBit_actMask (l : List Demand) (n : Nat) (s : State) : (s.actMask l).testBit n = true ↔
    (demandMask l).testBit n = true ∨ ((∃ i, (demandMask l).testBit i = true) ∧ s.rdB (twk 0x14) = true ∧ (12 : Nat).testBit n = true) := by
  have hne : demandMask l ≠ 0 ↔ ∃ i, (demandMask l).testBit i = true := by
    refine ⟨Nat.exists_testBit_of_ne_zero, ?_⟩
    rintro ⟨i, hi⟩ h0
    simp [h0] at hi
  unfold State.actMask
  rw [← hne]
  dsimp only
  split
  case isTrue h =>
    have h : demandMask l ≠ 0 ∧ s.rdB (twk 0x14) = true := by simpa [twk] using h
    simp only [Nat.testBit_or, Bool.or_eq_true, h, ne_eq, not_false_eq_true, true_and]
  case isFalse h =>
    have h : ¬(demandMask l ≠ 0 ∧ s.rdB (twk 0x14) = true) := by simpa [twk] using h
    tauto

/-- The mask of demands follows the demands themselves and the wiring of the bridges. -/
theorem State.testBit_actMask_mono {l l' : List Demand} (h : ∀ i, (demandMask l').testBit i = true → (demandMask l).testBit i = true) {s t : State}
    (hw : KeepsAt (twk 0x14) s t) {n : Nat} (hn : (t.actMask l').testBit n = true) : (s.actMask l).testBit n = true := by
  have hrd : t.rdB (twk 0x14) = s.rdB (twk 0x14) := by rw [State.rdB, State.rdB, hw.rd (.inl (by decide))]
  rw [State.testBit_actMask] at hn ⊢
  rw [hrd] at hn
  obtain hn | ⟨⟨i, hi⟩, hb⟩ := hn
  · exact .inl (h n hn)
  · exact .inr ⟨⟨i, h i hi⟩, hb⟩

theorem State.testBit_actMask_congr (l : List Demand) {s t : State} (hw : KeepsAt (twk 0x14) s t) (n : Nat) :
    (t.actMask l).testBit n = (s.actMask l).testBit n :=
  Bool.eq_iff_iff.2 ⟨State.testBit_actMask_mono (fun _ => id) hw, State.testBit_actMask_mono (fun _ => id) (s := t) (t := s) (Eq.symm hw)⟩

/-- A demand that arises, counted and logged. -/
def State.demandArises (d : Demand) (s : State) : State := (s.inc (key 0x7800 8)).logEvent 0x0700 0 (d8 d.row ++ d8 d.mask)

/-- The demands that `demandsWith` finds new. -/
def State.freshDemands (extra : List Demand) (s : State) : List Demand :=
  (s.standing ++ extra).filter (fun d =>
    !(s.island.demands.any (fun o => o.row == d.row && o.inst == d.inst && (o.mask ||| d.mask) == o.mask)))

/-- The demands act on circuit n. -/
def State.demandActs (act fresh : List Demand) (n : Nat) (s : State) : State :=
  if (s.actMask act).testBit n then s.demandOpen n ((s.actMask fresh).testBit n) else s

/-- The state once the demands have acted, before they are kept as those that stand. -/
def State.demandsAct (extra : List Demand) (s : State) : State :=
  (s.each (s.freshDemands extra) State.demandArises).each (List.range 4) (State.demandActs (s.standing ++ extra) (s.freshDemands extra))

theorem State.demandsWith_eq (extra : List Demand) (s : State) : s.demandsWith extra =
    { s.demandsAct extra with island := { (s.demandsAct extra).island with demands := (s.demandsAct extra).standing } } := rfl

section
variable (extra : List Demand) (s : State)

theorem KeepsAt.arises {k : Nat} (hk : Watched k) (h8 : k ≠ key 0x7800 8) (l : List Demand) : KeepsAt k s (s.each l State.demandArises) :=
  KeepsAt.each (fun _ _ t => (KeepsAt.wr h8 _ t).trans (hk.logEvent ..)) s

theorem State.island_arises (l : List Demand) : (s.each l State.demandArises).island = s.island := by
  refine State.each_eq State.island (fun d _ t => ?_) s
  exact State.logEvent_island ..

theorem KeepsAt.demandActs {k n : Nat} (hk : Watched k) (hc : OffCirc n k) (act fresh : List Demand) : KeepsAt k s (s.demandActs act fresh n) :=
  .of_ite (.demandOpen hk hc _ s) (.of_eq rfl)

theorem KeepsAt.demandsWith {k : Nat} (hk : OffDemand k) : KeepsAt k s (s.demandsWith extra) := by
  obtain ⟨hw, h8, hc⟩ := hk
  exact (KeepsAt.arises s hw h8 _).trans (KeepsAt.each (fun n hn t => .demandActs t hw (hc n (List.mem_range.1 hn)) _ _) _)

theorem CircsOnly.demandsWith : CircsOnly s (s.demandsWith extra) := by
  have hact : CircsOnly s (s.demandsAct extra) :=
    (CircsOnly.of_eq (State.island_arises s _)).trans
      (CircsOnly.each (fun n t => EventRel.of_ite (.demandOpen n _ t) (.of_eq rfl)) _ _)
  obtain ⟨c, d, h⟩ := hact
  refine ⟨c, (s.demandsAct extra).standing, ?_⟩
  rw [State.demandsWith_eq, h]

theorem Eases.demandsWith {m : Nat} (hm : m < 4) : Eases m s (s.demandsWith extra) := by
  have harise : Eases m s (s.each (s.freshDemands extra) State.demandArises) :=
    .of_same (State.circ_of_island (State.island_arises s _) m)
      (State.circState_of_keeps (.arises s (watched_ik m 7) (by simp only [ik, key]; omega) _))
  have hact : Eases m s (s.demandsAct extra) := harise.trans (Eases.each (fun n _ t => by
    unfold State.demandActs
    split
    · exact .demandOpen m n _ t
    · exact .refl m t) _)
  exact hact.trans ⟨.inl rfl, id, id⟩

/-- A circuit under a demand of the moment opens. -/
theorem State.circState_demandsWith {n : Nat} (hn : n < 4) (hd : (s.actMask (s.standing ++ extra)).testBit n = true) :
    (s.demandsWith extra).circState n = 0 ∨ (s.demandsWith extra).circState n = 4 := by
  have hrest (t : State) (h : t.circState n = 0 ∨ t.circState n = 4) (b : Nat) :
      (t.demandActs (s.standing ++ extra) (s.freshDemands extra) b).circState n = 0 ∨
      (t.demandActs (s.standing ++ extra) (s.freshDemands extra) b).circState n = 4 := by
    unfold State.demandActs
    split
    · exact (Eases.demandOpen n b _ t).resting h
    · exact h
  have hwire (b : Nat) (hb : b ∈ List.range 4) (t : State) (h : KeepsAt (twk 0x14) s t) :
      KeepsAt (twk 0x14) s (t.demandActs (s.standing ++ extra) (s.freshDemands extra) b) :=
    h.trans (.demandActs t (.inl rfl) ⟨by simp only [twk, ik, key]; omega, by simp only [twk, ik, key]; omega, by simp only [twk, ik, key]; omega⟩ _ _)
  refine State.each_reaches (I := KeepsAt (twk 0x14) s) (Q := fun t => t.circState n = 0 ∨ t.circState n = 4) (a := n)
    (List.mem_range.2 hn) hwire (fun t ht => ?_) (fun b _ t h => hrest t h b) (KeepsAt.arises s (.inl rfl) (by decide) _)
  unfold State.demandActs
  rw [if_pos ((State.testBit_actMask_congr _ ht n).trans hd), State.circState_demandOpen]
  split
  · exact .inr rfl
  · exact .inl rfl

/-- A circuit under no demand keeps its record and its entries. -/
theorem State.undemanded {n : Nat} (hn : n < 4) (hd : (s.actMask (s.standing ++ extra)).testBit n = false) :
    (s.demandsWith extra).circ n = s.circ n ∧ ∀ a < 256, KeepsAt (ik n a) s (s.demandsWith extra) := by
  have harise : KeepsAt (twk 0x14) s (s.each (s.freshDemands extra) State.demandArises) := .arises s (.inl rfl) (by decide) _
  have hstep (b : Nat) (hb : b ∈ List.range 4) (t : State) (h : KeepsAt (twk 0x14) s t ∧ t.circ n = s.circ n ∧ ∀ a < 256, KeepsAt (ik n a) s t) :
      let u := t.demandActs (s.standing ++ extra) (s.freshDemands extra) b
      KeepsAt (twk 0x14) s u ∧ u.circ n = s.circ n ∧ ∀ a < 256, KeepsAt (ik n a) s u := by
    obtain ⟨hw, hcirc, hrd⟩ := h
    unfold State.demandActs
    dsimp only
    split
    case isFalse => exact ⟨hw, hcirc, hrd⟩
    case isTrue hact =>
      have hne : n ≠ b := by
        rintro rfl
        rw [State.testBit_actMask_congr _ hw, hd] at hact
        contradiction
      exact ⟨hw.trans (.demandOpen (.inl rfl) ⟨by simp only [twk, ik, key]; omega, by simp only [twk, ik, key]; omega, by simp only [twk, ik, key]; omega⟩ _ t),
        (State.circ_demandOpen_other hne _ t).trans hcirc, fun a ha => (hrd a ha).trans (State.keeps_demandOpen_other hne ha _ t)⟩
  have h := State.each_keeps (f := State.demandActs (s.standing ++ extra) (s.freshDemands extra)) hstep
    (s := s.each (s.freshDemands extra) State.demandArises)
    ⟨harise, State.circ_of_island (State.island_arises s _) n,
      fun a ha => .arises s (watched_ik n a) (by simp only [ik, key]; omega) _⟩
  exact h.2

end

end Sys2Proof.Machine
end

section
/-! The demands that stand, the island's status, and what the end of every command of the island brings about (R243, R244, R316): no circuit under a
demand is left closing or closed. -/

namespace Sys2Proof.Machine

/-! ### Status -/

/-- The entry is neither the island's status nor its permissives. -/
abbrev OffStatus (k : Nat) : Prop := k ≠ key 0x7800 6 ∧ k ≠ key 0x7800 9

section
variable (s : State)

theorem State.island_islandStatus : s.islandStatus.island = s.island := (State.islandStatus_kept (Sub.refl _) (Kept.refl _ s)).islandSame rfl

theorem State.power_islandStatus : s.islandStatus.power = s.power := (State.islandStatus_kept (Sub.refl _) (Kept.refl _ s)).powerSame rfl

theorem KeepsAt.islandStatus {k : Nat} (hk : OffStatus k) : KeepsAt k s s.islandStatus := by
  obtain ⟨h6, h9⟩ := hk
  have hset (i : Nat) (v : Bool) (t : State) : KeepsAt k t (t.setBit (key 0x7800 6) i v) := .wr h6 _ t
  unfold State.islandStatus
  lift_lets
  intro kk measures sync checks dead conn observed fault
  have hsync : KeepsAt k s sync := (hset _ _ s).trans (.of_ite (.of_eq rfl) (hset _ _ _))
  exact (((((hsync.trans (hset _ _ _)).trans (hset _ _ _)).trans (hset _ _ _)).trans (hset _ _ _)).trans (hset _ _ _)).trans (.wr h9 _ _)

/-- The status bits that the island's records decide. -/
theorem State.bits_islandStatus : s.islandStatus.bit (key 0x7800 6) 1 = s.island.checks.any (fun c => c.2.fault) ∧
    s.islandStatus.bit (key 0x7800 6) 2 = s.island.dead ∧ s.islandStatus.bit (key 0x7800 6) 4 = s.island.observed := by
  have h9 (t : State) (v : Int) (i : Nat) : (t.wr (key 0x7800 9) v).bit (key 0x7800 6) i = t.bit (key 0x7800 6) i :=
    State.bit_wr_ne (by decide) (.inr (.inl (by decide))) i v t
  unfold State.islandStatus
  lift_lets
  intro kk measures sync checks dead conn observed fault
  have hsync : sync.island = s.island := State.same_ite (State.island) (s := s) rfl rfl
  have hchecks : checks.island = s.island := hsync
  have hconn : conn.island = s.island := hsync
  refine ⟨?_, ?_, ?_⟩
  · rw [h9]
    simp only [fault, observed, conn, dead]
    rw [State.bit_setBit_other (by decide), State.bit_setBit_other (by decide), State.bit_setBit_other (by decide),
      State.bit_setBit_other (by decide), State.bit_setBit_same, hsync]
  · rw [h9]
    simp only [fault, observed, conn]
    rw [State.bit_setBit_other (by decide), State.bit_setBit_other (by decide), State.bit_setBit_other (by decide), State.bit_setBit_same, hchecks]
  · rw [h9]
    simp only [fault]
    rw [State.bit_setBit_other (by decide), State.bit_setBit_same, hconn]

end

/-! ### Demands that stand -/

/-- Circuit n is under a demand of Table 12-3 that stands. -/
def State.Demanded (n : Nat) (s : State) : Prop :=
  (∃ i < 10, s.bit (key (0x7810 + i) 8) 1 = true ∧ (s.rdN (key (0x7810 + i) 6)).testBit n = true) ∨
  (s.bit (key 0x7800 6) 1 = true ∧ (15 : Nat).testBit n = true) ∨ s.teleDemand.testBit n = true ∨
  (s.bit (key 0x7840 6) 0 = true ∧ s.teleRequired.testBit n = true) ∨
  (∃ k < 2, s.bit (key 0x7830 3) k = true ∧ (s.rdN (key 0x7830 (1 + k))).testBit n = true) ∨
  (∃ m < 4, s.circState m = 4 ∧ (2 ^ m : Nat).testBit n = true) ∨
  (s.islandState ≠ 2 ∧ (15 : Nat).testBit n = true) ∨ (s.moduleFit = false ∧ (15 : Nat).testBit n = true)

theorem exists_testBit_filter (l : List Demand) (n : Nat) :
    (∃ d ∈ l.filter (fun d => d.mask != 0), d.mask.testBit n = true) ↔ ∃ d ∈ l, d.mask.testBit n = true := by
  refine ⟨fun ⟨d, hd, h⟩ => ⟨d, (List.mem_filter.1 hd).1, h⟩, fun ⟨d, hd, h⟩ => ⟨d, List.mem_filter.2 ⟨hd, ?_⟩, h⟩⟩
  simp only [bne_iff_ne, ne_eq]
  rintro h0
  simp [h0] at h

theorem exists_testBit_append (l l' : List Demand) (n : Nat) :
    (∃ d ∈ l ++ l', d.mask.testBit n = true) ↔ (∃ d ∈ l, d.mask.testBit n = true) ∨ ∃ d ∈ l', d.mask.testBit n = true := by
  simp only [List.mem_append, or_and_right, exists_or]

theorem exists_testBit_one (c : Prop) [Decidable c] (d : Demand) (n : Nat) :
    (∃ e ∈ (if c then [d] else []), e.mask.testBit n = true) ↔ c ∧ d.mask.testBit n = true := by
  by_cases h : c <;> simp [h]

theorem exists_testBit_range (m : Nat) (c : Nat → Prop) [DecidablePred c] (d : Nat → Demand) (n : Nat) :
    (∃ e ∈ (List.range m).filterMap (fun i => if c i then some (d i) else none), e.mask.testBit n = true) ↔
    ∃ i < m, c i ∧ (d i).mask.testBit n = true := by
  simp only [List.mem_filterMap, List.mem_range]
  constructor
  · rintro ⟨e, ⟨i, hi, he⟩, h⟩
    split at he
    case isTrue hc =>
      obtain rfl : d i = e := Option.some.inj he
      exact ⟨i, hi, hc, h⟩
    case isFalse => contradiction
  · rintro ⟨i, hi, hc, h⟩
    exact ⟨d i, ⟨i, hi, if_pos hc⟩, h⟩

theorem State.testBit_standing (n : Nat) (s : State) : (demandMask s.standing).testBit n = true ↔ s.Demanded n := by
  rw [testBit_demandMask]
  unfold State.standing State.Demanded
  dsimp only
  rw [exists_testBit_filter]
  simp only [exists_testBit_append, exists_testBit_one, exists_testBit_range, or_assoc, true_and, decide_eq_true_eq, Bool.not_eq_true']

theorem State.Demanded.acts {n : Nat} {s : State} (h : s.Demanded n) : (s.actMask s.standing).testBit n = true :=
  (State.testBit_actMask _ _ s).2 (.inl ((State.testBit_standing n s).2 h))

/-- The demands rest on entries that the demands do not write, on what the cross-checks and the telegrams have left, and on the circuits in Fault. -/
theorem State.Demanded.of_later {n : Nat} {s u : State} (hk : ∀ k, OffDemand k → OffStatus k → KeepsAt k s u)
    (hcheck : u.bit (key 0x7800 6) 1 = s.bit (key 0x7800 6) 1) (hcmd : u.island.cmdIn = s.island.cmdIn) (hfit : u.moduleFit = s.moduleFit)
    (hfault : ∀ m < 4, u.circState m = 4 → s.circState m = 4) (h : u.Demanded n) : s.Demanded n := by
  have hrd {k : Nat} (hw : IslandKey k) (h8 : k ≠ key 0x7800 8) (hc : ∀ n < 4, OffCirc n k) (hs : OffStatus k) : u.rd k = s.rd k :=
    (hk k ⟨.inr hw, h8, hc⟩ hs).rd hw.own
  have hstage (i a : Nat) (hi : i < 10) (ha : a < 256) : u.rd (key (0x7810 + i) a) = s.rd (key (0x7810 + i) a) := by
    refine hrd ?_ ?_ (fun n hn => ?_) ?_
    all_goals simp only [IslandKey, OffCirc, OffStatus, ik, key]; omega
  have hstop (a : Nat) (ha : a < 256) : u.rd (key 0x7830 a) = s.rd (key 0x7830 a) := by
    refine hrd ?_ ?_ (fun n hn => ?_) ?_
    all_goals simp only [IslandKey, OffCirc, OffStatus, ik, key]; omega
  have htele (a : Nat) (ha : a < 256) : u.rd (key 0x7840 a) = s.rd (key 0x7840 a) := by
    refine hrd ?_ ?_ (fun n hn => ?_) ?_
    all_goals simp only [IslandKey, OffCirc, OffStatus, ik, key]; omega
  have hrun : u.islandState = s.islandState := by
    refine congrArg Int.toNat (hrd ?_ ?_ (fun n hn => ?_) ?_)
    all_goals simp only [IslandKey, OffCirc, OffStatus, ik, key]; omega
  have hreq : u.teleRequired = s.teleRequired := by
    unfold State.teleRequired
    refine congrArg List.sum (List.map_congr_left fun m hm => ?_)
    have hm := List.mem_range.1 hm
    have hik : u.rd (ik m 2) = s.rd (ik m 2) := by
      refine hrd ?_ ?_ (fun n hn => ?_) ?_
      all_goals simp only [IslandKey, OffCirc, OffStatus, ik, key]; omega
    rw [State.rdB, State.rdB, hik]
  have hdem : u.teleDemand = s.teleDemand := by
    unfold State.teleDemand
    rw [State.rdN, State.rdN, htele 0xA (by decide), hcmd, hreq]
  unfold State.Demanded at h ⊢
  rw [hcheck, hdem, hreq, hrun, hfit] at h
  simp only [State.bit, State.rdN, htele 6 (by decide), hstop 3 (by decide)] at h ⊢
  obtain ⟨i, hi, h1, h2⟩ | h | h | h | ⟨k, hlt, h1, h2⟩ | ⟨m, hm, h1, h2⟩ | h | h := h
  · rw [hstage i 8 hi (by decide)] at h1
    rw [hstage i 6 hi (by decide)] at h2
    exact .inl ⟨i, hi, h1, h2⟩
  · exact .inr (.inl h)
  · exact .inr (.inr (.inl h))
  · exact .inr (.inr (.inr (.inl h)))
  · rw [hstop (1 + k) (by omega)] at h2
    exact .inr (.inr (.inr (.inr (.inl ⟨k, hlt, h1, h2⟩))))
  · exact .inr (.inr (.inr (.inr (.inr (.inl ⟨m, hm, hfault m hm h1, h2⟩)))))
  · exact .inr (.inr (.inr (.inr (.inr (.inr (.inl h))))))
  · exact .inr (.inr (.inr (.inr (.inr (.inr (.inr h))))))

/-! ### The end of every command of the island -/

section
variable (s : State)

theorem KeepsAt.islandSettle {k : Nat} (hd : OffDemand k) (hs : OffStatus k) : KeepsAt k s s.islandSettle :=
  ((KeepsAt.islandStatus s hs).trans (.demandsWith [] _ hd)).trans (.islandStatus _ hs)

theorem CircsOnly.islandSettle : CircsOnly s s.islandSettle :=
  ((CircsOnly.of_eq s.island_islandStatus).trans (.demandsWith [] _)).trans (.of_eq (State.island_islandStatus _))

theorem Eases.islandStatus (m : Nat) : Eases m s s.islandStatus :=
  .of_same (State.circ_of_island s.island_islandStatus m) (State.circState_of_keeps (.islandStatus s (by simp only [OffStatus, ik, key]; omega)))

theorem Eases.islandSettle {m : Nat} (hm : m < 4) : Eases m s s.islandSettle :=
  ((Eases.islandStatus s m).trans (.demandsWith [] _ hm)).trans (.islandStatus _ m)

/-- The status bits at the end of a command. -/
theorem State.bits_islandSettle : s.islandSettle.bit (key 0x7800 6) 1 = s.island.checks.any (fun c => c.2.fault) ∧
    s.islandSettle.bit (key 0x7800 6) 2 = s.island.dead ∧ s.islandSettle.bit (key 0x7800 6) 4 = s.island.observed := by
  obtain ⟨c, d, h⟩ := CircsOnly.demandsWith [] s.islandStatus
  obtain ⟨h1, h2, h4⟩ := (s.islandStatus.demandsWith []).bits_islandStatus
  rw [h, s.island_islandStatus] at h1 h2 h4
  exact ⟨h1, h2, h4⟩

theorem State.moduleFit_islandSettle : s.islandSettle.moduleFit = s.moduleFit := by
  have hk := State.islandSettle_kept (Sub.refl _) (Kept.refl _ s)
  have hmod : s.islandSettle.mod = s.mod :=
    congrArg (fun v : Int => ModState.ofCode v.toNat) (hk.rd_eq (z := zone (key 0x2000 1)) rfl (by decide) (.inl (by decide)))
  simp only [State.moduleFit, hk.powerSame rfl, hmod]

theorem State.moduleFit_islandStatus : s.islandStatus.moduleFit = s.moduleFit := by
  have hmod : s.islandStatus.mod = s.mod := congrArg (fun v : Int => ModState.ofCode v.toNat)
    ((KeepsAt.islandStatus s (k := key 0x2000 1) (by decide)).rd (.inl (by decide)))
  simp only [State.moduleFit, s.power_islandStatus, hmod]

/-- A circuit under a demand that stands at the end of a command stood under one when its demands were decided. -/
theorem State.Demanded.of_settle {n : Nat} (h : s.islandSettle.Demanded n) : s.islandStatus.Demanded n := by
  obtain ⟨c, d, hi⟩ := CircsOnly.islandSettle s
  refine State.Demanded.of_later (u := s.islandSettle) (fun k hd hs => (KeepsAt.demandsWith [] s.islandStatus hd).trans (.islandStatus _ hs)) ?_ ?_ ?_ (fun m hm hf => ?_) h
  · rw [s.bits_islandSettle.1, s.bits_islandStatus.1]
  · rw [hi, s.island_islandStatus]
  · rw [s.moduleFit_islandSettle, s.moduleFit_islandStatus]
  · obtain ⟨hst, -, -⟩ := (Eases.demandsWith [] s.islandStatus hm).trans (.islandStatus _ m)
    obtain hst | ⟨-, hst⟩ := hst
    · exact hst.symm.trans hf
    · exact absurd (hst.symm.trans hf) (by decide)

/-- A circuit under a demand opens at the end of a command, but for one in Fault. -/
theorem State.Demanded.opens {n : Nat} (hn : n < 4) (h : (s.islandStatus.actMask s.islandStatus.standing).testBit n = true) :
    s.islandSettle.circState n = 0 ∨ s.islandSettle.circState n = 4 := by
  have hd := State.circState_demandsWith [] s.islandStatus hn (by rwa [List.append_nil])
  exact (Eases.islandStatus _ n).resting hd

end

/-- No circuit under a demand that stands is closing or closed. -/
abbrev State.Rested (u : State) : Prop := ∀ n : CircuitNo, (u.actMask u.standing).testBit n = true → u.circState n = 0 ∨ u.circState n = 4

theorem State.rested_islandSettle (s : State) : s.islandSettle.Rested := by
  intro n hn
  refine State.Demanded.opens s n.isLt (State.testBit_actMask_mono (fun i hi => ?_) ?_ hn)
  · exact (State.testBit_standing i _).2 (State.Demanded.of_settle s ((State.testBit_standing i _).1 hi))
  · have hoff (n : Nat) (hn : n < 4) : OffCirc n (twk 0x14) := by simp only [OffCirc, twk, ik, key]; omega
    exact (KeepsAt.demandsWith [] s.islandStatus ⟨.inl rfl, by decide, hoff⟩).trans (.islandStatus _ (by decide))

theorem State.rested_rmsUpdate {s : State} (hm : s.islandMeasures = true) (hdue : s.island.lastRms + s.islandPeriod / 2 ≤ s.now) :
    s.rmsUpdate.Rested := by
  have hrun : (decide (s.now < s.island.lastRms + s.islandPeriod / 2) || !s.islandMeasures) = false := by simp [hm, hdue]
  unfold State.rmsUpdate
  rw [hrun]
  exact State.rested_islandSettle _

/-- Settles O34: every command of the island ends by deciding its demands, and these stand on entries which opening a circuit leaves. -/
theorem demandedCircuitsStandOpen : Obligations.DemandedCircuitsStandOpen := by
  refine ⟨fun s n hn => s.rested_islandSettle n hn, fun t rb s => ⟨_, rfl, State.rested_islandSettle _⟩, fun t s hm hdue => ⟨_, rfl, ?_⟩⟩
  refine State.rested_rmsUpdate (s := s.begin t) ?_ hdue
  have hm : (s.begin t).islandState = 1 ∨ (s.begin t).islandState = 2 := hm
  simpa [State.islandMeasures] using hm

end Sys2Proof.Machine
end

section
/-! The states of the safety island (R238, R239, R257): its start, its faults, a low supply and the locks of its areas. -/

namespace Sys2Proof.Machine

/-! ### The island's state through the end of a command -/

theorem State.Demanded.settles {s : State} {n : Nat} (hn : n < 4) (h : s.islandStatus.Demanded n) :
    s.islandSettle.circState n = 0 ∨ s.islandSettle.circState n = 4 := State.Demanded.opens s hn h.acts

theorem testBit_fifteen {n : Nat} (hn : n < 4) : (15 : Nat).testBit n = true := by
  have h : ∀ n < 4, (15 : Nat).testBit n = true := by decide
  exact h n hn

/-- An entry of the island's own objects that the end of a command leaves. -/
theorem State.rd_islandSettle {index sub elem : Nat} (hlo : 0x7200 ≤ index) (hsub : sub < 256) (helem : elem < 256)
    (h : (index < 0x7820 ∨ 0x7824 ≤ index) ∧ (index ≠ 0x7800 ∨ (sub ≠ 6 ∧ sub ≠ 8 ∧ sub ≠ 9)) ∨
      (index ≠ 0x7800 ∧ sub ≠ 7 ∧ sub ≠ 0xE ∧ sub ≠ 0xF)) (s : State) :
    s.islandSettle.rd (key index sub elem) = s.rd (key index sub elem) := by
  have hw : IslandKey (key index sub elem) := by simp only [IslandKey, key]; omega
  refine (KeepsAt.islandSettle s ⟨.inr hw, ?_, fun n hn => ?_⟩ ?_).rd hw.own
  all_goals simp only [OffCirc, OffStatus, ik, key]; omega

theorem State.rdN_islandSettle {index sub elem : Nat} (hlo : 0x7200 ≤ index) (hsub : sub < 256) (helem : elem < 256)
    (h : (index < 0x7820 ∨ 0x7824 ≤ index) ∧ (index ≠ 0x7800 ∨ (sub ≠ 6 ∧ sub ≠ 8 ∧ sub ≠ 9)) ∨
      (index ≠ 0x7800 ∧ sub ≠ 7 ∧ sub ≠ 0xE ∧ sub ≠ 0xF)) (s : State) :
    s.islandSettle.rdN (key index sub elem) = s.rdN (key index sub elem) :=
  congrArg Int.toNat (State.rd_islandSettle hlo hsub helem h s)

theorem State.islandState_islandSettle (s : State) : s.islandSettle.islandState = s.islandState :=
  State.rdN_islandSettle (by decide) (by decide) (by decide) (by decide) s

theorem State.islandState_islandStatus (s : State) : s.islandStatus.islandState = s.islandState :=
  congrArg Int.toNat ((KeepsAt.islandStatus s (k := key 0x7800 1) (by decide)).rd (by decide))

theorem State.od_setIsland (st : Nat) (s : State) : (s.setIsland st).od = (s.wr (key 0x7800 1) st).od := by
  unfold State.setIsland
  split <;> rfl

theorem State.circs_setIsland (st : Nat) (s : State) : (s.setIsland st).island.circs = s.island.circs := by
  unfold State.setIsland
  split <;> rfl

theorem State.rd_setIsland {k : Nat} (h : k ≠ key 0x7800 1) (hk : OwnDefault k) (st : Nat) (s : State) : (s.setIsland st).rd k = s.rd k :=
  State.rd_congr hk ((congrArg (Tbl.find? k) (s.od_setIsland st)).trans (State.find?_wr_ne h s st))

theorem State.islandState_setIsland (st : Nat) (s : State) : (s.setIsland st).islandState = st := by
  rw [State.islandState, State.rdN, State.rd, s.od_setIsland st]
  exact State.rdN_wr_same (key 0x7800 1) st s

/-- Outside Run every circuit opens, but for one in Fault. -/
theorem State.opens_outside_run {s : State} (h : s.islandState ≠ 2) {n : Nat} (hn : n < 4) :
    s.islandSettle.circState n = 0 ∨ s.islandSettle.circState n = 4 := by
  refine State.Demanded.settles hn (.inr (.inr (.inr (.inr (.inr (.inr (.inl ⟨?_, testBit_fifteen hn⟩)))))))
  rwa [State.islandState_islandStatus]

/-! ### Faults of the island -/

theorem State.islandFault_faults {s : State} (h : s.islandState ≠ 3) : s.islandFault.islandState = 3 ∧
    s.islandFault.rdN (key 0x7800 7) = (s.rdN (key 0x7800 7) + 1) % 2 ^ 32 ∧
    ∀ n : CircuitNo, s.islandFault.circState n = 0 ∨ s.islandFault.circState n = 4 := by
  have hst : ((s.setIsland 3).inc (key 0x7800 7)).islandState = 3 :=
    (State.rdN_wr_ne (by decide) (by decide) _ _).trans (State.islandState_setIsland 3 s)
  unfold State.islandFault
  rw [if_neg h]
  refine ⟨(State.islandState_islandSettle _).trans hst, ?_, fun n => State.opens_outside_run (by rw [hst]; decide) n.isLt⟩
  rw [State.rdN_islandSettle (by decide) (by decide) (by decide) (by decide), State.rdN_inc_same, State.rdN, State.rdN,
    State.rd_setIsland (by decide) (by decide)]

theorem State.islandState_islandFault (s : State) : s.islandFault.islandState = 3 := by
  by_cases h : s.islandState = 3
  · rw [State.islandFault, if_pos h, h]
  · exact (State.islandFault_faults h).1

/-! ### The start -/

theorem State.islandState_runIfLocked (s : State) : s.islandRunIfLocked.islandState =
    if s.islandState = 1 ∧ s.locked 0 = true ∧ s.locked 1 = true then 2 else s.islandState := by
  unfold State.islandRunIfLocked
  by_cases h : s.islandState = 1 ∧ s.locked 0 = true ∧ s.locked 1 = true
  · rw [if_pos h, if_pos (by simpa [and_assoc] using h), State.islandState_setIsland]
  · rw [if_neg h, if_neg (by simpa [and_assoc] using h)]

theorem State.locked_setIsland (st area : Nat) (s : State) : (s.setIsland st).locked area = s.locked area := by
  rw [State.locked, State.locked, State.bit, State.bit, State.rdN, State.rdN, State.rd_setIsland (by decide) (by decide)]

theorem State.islandSelfTestEnd_passes {s : State} (h : s.islandState = 0) :
    (s.islandSelfTestEnd true).islandState = if s.locked 0 && s.locked 1 then 2 else 1 := by
  unfold State.islandSelfTestEnd
  rw [if_neg (by simp [h]), if_pos rfl, State.islandState_islandSettle, State.islandState_runIfLocked, State.islandState_setIsland,
    State.locked_setIsland, State.locked_setIsland]
  simp

/-! ### A low supply -/

/-- Circuit n without a demand: its switches off, its state Open but for a fault. -/
def State.darkCirc (n : Nat) (s : State) : State :=
  let s := s.circOff n
  let s := s.setCirc n { (s.circ n) with retry := none }
  if s.circState n = 4 then s else s.setCircState n 0

theorem State.islandDark_eq (s : State) : s.islandDark = s.each (List.range 4) State.darkCirc := rfl

theorem KeepsAt.darkCirc {k n : Nat} (h7 : k ≠ ik n 7) (h15 : k ≠ twk 0x15) (s : State) : KeepsAt k s (s.darkCirc n) := by
  have hoff : KeepsAt k s ((s.circOff n).setCirc n { ((s.circOff n).circ n) with retry := none }) := .of_eq (State.od_circOff s)
  exact .of_ite hoff (hoff.trans (.setCircState h7 h15 0 _))

/-- What holds of circuit n once it is dark: no switch on, Open but for a fault it had. -/
structure DarkFrom (n : Nat) (s t : State) : Prop where
  state : t.circState n = if s.circState n = 4 then 4 else 0
  hs : (t.circ n).hs = false
  ls : (t.circ n).ls = false

theorem State.circState_darkCirc (n : Nat) (s : State) : (s.darkCirc n).circState n = if s.circState n = 4 then 4 else 0 := by
  have hst : ((s.circOff n).setCirc n { ((s.circOff n).circ n) with retry := none }).circState n = s.circState n :=
    State.circState_of_keeps (.of_eq (State.od_circOff s))
  unfold State.darkCirc
  dsimp only
  rw [hst]
  split
  case isTrue h => rw [hst, h]
  case isFalse => exact State.circState_setCircState 0 _

theorem State.circ_darkCirc (n : Nat) (s : State) : ((s.darkCirc n).circ n).hs = false ∧ ((s.darkCirc n).circ n).ls = false := by
  obtain ⟨at_, retry, h⟩ := State.circ_circOff_same (n := n) s
  have hoff : ((s.circOff n).setCirc n { ((s.circOff n).circ n) with retry := none }).circ n = { ((s.circOff n).circ n) with retry := none } :=
    State.circ_setCirc_same ..
  have hdark : (s.darkCirc n).circ n = { ((s.circOff n).circ n) with retry := none } :=
    (State.same_ite (State.circ n) (s := (s.circOff n).setCirc n { ((s.circOff n).circ n) with retry := none }) rfl
      (State.circ_of_island (State.island_setCircState 0 _) n)).trans hoff
  rw [hdark, h]
  exact ⟨rfl, rfl⟩

theorem State.circ_darkCirc_other {m n : Nat} (h : m ≠ n) (s : State) : (s.darkCirc n).circ m = s.circ m :=
  (State.same_ite (State.circ m) (s := (s.circOff n).setCirc n { ((s.circOff n).circ n) with retry := none }) rfl
    (State.circ_of_island (State.island_setCircState 0 _) m)).trans ((State.circ_setCirc_other _ _ _ h).trans (State.circ_circOff_other h s))

theorem State.darkFrom_islandDark {n : Nat} (hn : n < 4) (s : State) : DarkFrom n s s.islandDark := by
  have hother {b : Nat} (hb : n ≠ b) (t : State) : (t.darkCirc b).circState n = t.circState n :=
    State.circState_of_keeps (.darkCirc (by simp only [ik, key]; omega) (by simp only [ik, twk, key]; omega) t)
  rw [State.islandDark_eq]
  refine State.each_reaches (I := fun t => (t.circState n = 4 ↔ s.circState n = 4)) (Q := DarkFrom n s) (a := n) (List.mem_range.2 hn)
    (fun b _ t ht => ?_) (fun t ht => ?_) (fun b _ t h => ?_) Iff.rfl
  · obtain rfl | hb := eq_or_ne n b
    · rw [State.circState_darkCirc, ← ht]
      by_cases h : t.circState n = 4 <;> simp [h]
    · rwa [hother hb]
  · refine ⟨?_, (State.circ_darkCirc n t).1, (State.circ_darkCirc n t).2⟩
    rw [State.circState_darkCirc]
    simp only [ht]
  · obtain ⟨hst, hhs, hls⟩ := h
    obtain rfl | hb := eq_or_ne n b
    · refine ⟨?_, (State.circ_darkCirc n t).1, (State.circ_darkCirc n t).2⟩
      rw [State.circState_darkCirc, hst]
      split <;> rfl
    · exact ⟨(hother hb t).trans hst, by rwa [State.circ_darkCirc_other hb], by rwa [State.circ_darkCirc_other hb]⟩

theorem State.islandState_islandDark (s : State) : s.islandDark.islandState = s.islandState := by
  have hkeep : KeepsAt (key 0x7800 1) s (s.each (List.range 4) State.darkCirc) := KeepsAt.each (fun n hn t =>
    .darkCirc (by have := List.mem_range.1 hn; simp only [ik, key]; omega) (by decide) t) s
  unfold State.islandState State.rdN
  rw [State.islandDark_eq, hkeep.rd (by decide)]

theorem DarkFrom.stages {n : Nat} {s t : State} (h : DarkFrom n s t) :
    DarkFrom n s (t.each (List.range 10) fun i s => s.wr (key (0x7810 + i) 8) 0) := by
  obtain ⟨hst, hhs, hls⟩ := h
  have hkeep : KeepsAt (ik n 7) t (t.each (List.range 10) fun i s => s.wr (key (0x7810 + i) 8) 0) :=
    KeepsAt.each (fun i _ u => .wr (by simp only [ik, key]; omega) _ u) t
  have hisland : (t.each (List.range 10) fun i s => s.wr (key (0x7810 + i) 8) 0).island = t.island := State.each_eq State.island (by intros; rfl) t
  have hcirc := State.circ_of_island hisland n
  exact ⟨(State.circState_of_keeps hkeep).trans hst, (congrArg IslandCirc.hs hcirc).trans hhs, (congrArg IslandCirc.ls hcirc).trans hls⟩

/-- The island starts anew with the circuits as they are. -/
theorem DarkFrom.restarts {n : Nat} {s t : State} (h : DarkFrom n s t) {x : Island} (hx : x.circs = t.island.circs) :
    DarkFrom n s (State.setIsland 0 { t with island := x }) := by
  obtain ⟨hst, hhs, hls⟩ := h
  have hkeep : KeepsAt (ik n 7) t (State.setIsland 0 { t with island := x }) :=
    (KeepsAt.of_eq rfl).trans (KeepsAt.wr (by simp only [ik, key]; omega) 0 { t with island := x })
  have hcirc : (State.setIsland 0 { t with island := x }).circ n = t.circ n := by
    rw [State.circ, State.circ, State.circs_setIsland]
    exact congrArg (Tbl.get {} n) hx
  exact ⟨(State.circState_of_keeps hkeep).trans hst, (congrArg IslandCirc.hs hcirc).trans hhs, (congrArg IslandCirc.ls hcirc).trans hls⟩

theorem DarkFrom.settles {n : Nat} (hn : n < 4) {s t : State} (h : DarkFrom n s t) : (t.islandSettle.circ n).hs = false ∧
    (t.islandSettle.circ n).ls = false ∧ (s.circState n ≠ 4 → t.islandSettle.circState n = 0) := by
  obtain ⟨hst, hhs, hls⟩ := h
  obtain ⟨est, ehs, els⟩ := Eases.islandSettle t hn
  refine ⟨ehs hhs, els hls, fun h => ?_⟩
  rw [if_neg h] at hst
  omega

theorem State.pd7Low_completes (s : State) : s.pd7Low.islandState = (if s.islandState = 3 then 3 else 0) ∧
    ∀ n : CircuitNo, (s.pd7Low.circ n).hs = false ∧ (s.pd7Low.circ n).ls = false ∧ (s.circState n ≠ 4 → s.pd7Low.circState n = 0) := by
  have hdark (n : CircuitNo) := State.darkFrom_islandDark n.isLt s
  unfold State.pd7Low
  dsimp only
  rw [State.islandState_islandDark]
  split
  case isTrue h3 => exact ⟨(State.islandState_islandSettle _).trans ((State.islandState_islandDark s).trans h3), fun n => (hdark n).settles n.isLt⟩
  case isFalse h3 =>
    have hstages (n : CircuitNo) := (hdark n).stages
    generalize s.islandDark.each (List.range 10) (fun i s => s.wr (key (0x7810 + i) 8) 0) = u at hstages ⊢
    refine ⟨?_, fun n => DarkFrom.settles n.isLt ?_⟩
    · rw [State.islandState_islandSettle, State.islandState_setIsland]
    · exact (hstages n).restarts rfl

/-! ### Locks -/

theorem State.settingsOk_of_od {s t : State} (h : t.od = s.od) : t.settingsOk = s.settingsOk := by
  have hrd (k : Nat) : t.rd k = s.rd k := by rw [State.rd, State.rd, h]
  have hN (k : Nat) : t.rdN k = s.rdN k := congrArg Int.toNat (hrd k)
  have hB (k : Nat) : t.rdB k = s.rdB k := by rw [State.rdB, State.rdB, hrd]
  have hF (k : Nat) : t.rdF k = s.rdF k := by rw [State.rdF, State.rdF, hN]
  have hpair (i : Nat) : t.checkPair i = s.checkPair i := by
    unfold State.checkPair
    rw [hN]
  simp only [State.settingsOk, State.teleRequired, hB, hF, hpair]

theorem State.islandLock_own (area : Nat) (s : State) : (islandLockEff area).own s = if s.settingsOk then 0 else 0x0B0000B3 := rfl

theorem KeepsAt.islandSettle_locks (s : State) : KeepsAt (key 0x2600 1) s s.islandSettle :=
  (State.islandSettle_kept (Sub.refl _) (Kept.refl _ s)).find?_eq (z := zone (key 0x2600 1)) rfl (by decide)

theorem State.islandLock_locks {area : Nat} (h2 : area < 2) (s : State) : ((islandLockEff area).eff s).locked area = true ∧
    ((islandLockEff area).eff s).bit (key 0x7800 4) area = true ∧
    (s.islandState = 1 → s.locked (1 - area) = true → ((islandLockEff area).eff s).islandState = 2) := by
  have hrun {k : Nat} (hk : k ≠ key 0x7800 1) (ho : OwnDefault k) (t : State) : t.islandRunIfLocked.rd k = t.rd k :=
    State.same_ite (State.rd k) (State.rd_setIsland hk ho 2 t) rfl
  unfold islandLockEff
  dsimp only
  generalize hlogged : (if s.bit (key 0x2600 1) area then s else s.logEvent 0x0B03 0 (d8 area)) = logged
  have hlog {k : Nat} (h : KeepsAt k s (s.logEvent 0x0B03 0 (d8 area))) (ho : OwnDefault k) : logged.rd k = s.rd k := by
    rw [← hlogged]
    exact State.same_ite (State.rd k) rfl (h.rd ho)
  have hlocked (a : Nat) : ((logged.setBit (key 0x2600 1) area true).setBit (key 0x7800 4) area true).locked a =
      (logged.setBit (key 0x2600 1) area true).bit (key 0x2600 1) a := State.bit_wr_ne (by decide) (by decide) _ _ _
  have hon : ((logged.setBit (key 0x2600 1) area true).setBit (key 0x7800 4) area true).locked area = true :=
    (hlocked area).trans (State.bit_setBit_same _ _ _ _)
  refine ⟨?_, ?_, fun h1 hother => ?_⟩
  · rw [State.locked, State.bit, State.rdN, (KeepsAt.islandSettle_locks _).rd (by decide), hrun (by decide) (by decide)]
    exact hon
  · rw [State.bit, State.rdN_islandSettle (by decide) (by decide) (by decide) (by decide), State.rdN, hrun (by decide) (by decide)]
    exact State.bit_setBit_same _ _ _ _
  · have hst : ((logged.setBit (key 0x2600 1) area true).setBit (key 0x7800 4) area true).islandState = 1 := by
      rw [State.islandState, State.rdN, State.rd_setBit_ne (by decide) (by decide), State.rd_setBit_ne (by decide) (by decide),
        hlog (KeepsAt.logEvent (by decide) ..) (by decide)]
      exact h1
    have hoff : ((logged.setBit (key 0x2600 1) area true).setBit (key 0x7800 4) area true).locked (1 - area) = true := by
      rw [hlocked, State.bit_setBit_other (by omega), State.bit, State.rdN, hlog (State.find?_logEvent (by decide) ..) (by decide)]
      exact hother
    rw [State.islandState_islandSettle, State.islandState_runIfLocked, if_pos]
    refine ⟨hst, ?_⟩
    obtain rfl | rfl : area = 0 ∨ area = 1 := by omega
    · exact ⟨hon, hoff⟩
    · exact ⟨hoff, hon⟩

theorem State.islandLock_completes {q : Req} {sub area : Nat} (h2 : area < 2) {s : State} (hs : s.Serves) (hp : s.Passes q 0x7800 sub 0 1) :
    (s.settingsOk = true → (s.hostWrite q 0x7800 sub 0 1 (islandLockEff area)).locked area = true ∧
      (s.hostWrite q 0x7800 sub 0 1 (islandLockEff area)).bit (key 0x7800 4) area = true ∧
      (s.hostWrite q 0x7800 sub 0 1 (islandLockEff area)).Answered 0 ∧
      (s.islandState = 1 → s.locked (1 - area) = true → (s.hostWrite q 0x7800 sub 0 1 (islandLockEff area)).islandState = 2)) ∧
    (s.settingsOk = false → (s.hostWrite q 0x7800 sub 0 1 (islandLockEff area)).locked area = s.locked area ∧
      (s.hostWrite q 0x7800 sub 0 1 (islandLockEff area)).Answered 0x0B0000B3) := by
  refine ⟨fun hok => ?_, fun hbad => ?_⟩
  · have hown : (islandLockEff area).own (s.handling q.sid) = 0 := by
      rw [State.islandLock_own, State.settingsOk_of_od (s := s) (t := s.handling q.sid) rfl, if_pos hok]
    rw [State.hostWrite_replies hs hp hown rfl]
    obtain ⟨hl, hb, hrun⟩ := State.islandLock_locks h2 (s.handling q.sid)
    have hrun : s.islandState = 1 → s.locked (1 - area) = true → ((islandLockEff area).eff (s.handling q.sid)).islandState = 2 := hrun
    generalize (islandLockEff area).eff (s.handling q.sid) = u at hl hb hrun ⊢
    exact ⟨(State.bit_longBy ..).trans hl, (State.bit_longBy ..).trans hb, State.answered_answer_longBy .., fun h1 ho => (State.rdN_longBy ..).trans (hrun h1 ho)⟩
  · have hown : (islandLockEff area).own (s.handling q.sid) = 0x0B0000B3 := by
      rw [State.islandLock_own, State.settingsOk_of_od (s := s) (t := s.handling q.sid) rfl, if_neg (by simp [hbad])]
    rw [State.hostWrite_fails hs hp hown (by decide)]
    exact ⟨State.bit_longBy .., State.answered_answer_longBy ..⟩

/-! ### The oscillator -/

theorem State.oscillatorCheck_faults {dev : Int} {s : State} (h : s.oscillatorCheck dev = s.islandFault) :
    (s.oscillatorCheck dev).islandState = 3 ∧ (s.islandState ≠ 3 → ∀ n : CircuitNo, (s.oscillatorCheck dev).circState n = 0 ∨
      (s.oscillatorCheck dev).circState n = 4) := by
  rw [h]
  exact ⟨s.islandState_islandFault, fun h3 => (State.islandFault_faults h3).2.2⟩

/-- The deviation counts as corrected where the housekeeping clock was measured in the last 10 s. -/
theorem State.oscillatorCheck_corrected {dev : Int} {s : State} {h : Time} (hat : s.clock.hkAt = some h) (hrecent : s.now ≤ h + Time.sec 10) :
    s.oscillatorCheck dev =
      if 10 ^ 10 < ((10 ^ 6 + dev) * (10 ^ 6 + 100 * s.clock.hk) - 10 ^ 12).natAbs then s.islandFault else s := by
  unfold State.oscillatorCheck
  simp only [hat, hrecent, decide_true, if_true, mul_comm s.clock.hk 100]
  rfl

theorem State.oscillatorCheck_uncorrected {dev : Int} {s : State} (hold : ∀ h, s.clock.hkAt = some h → h + Time.sec 10 < s.now) :
    s.oscillatorCheck dev = if 120000 < dev.natAbs then s.islandFault else s := by
  unfold State.oscillatorCheck
  cases hat : s.clock.hkAt with
  | none => simp
  | some h =>
    have hlate : ¬ s.now ≤ h + Time.sec 10 := Nat.not_le.2 (hold h hat)
    simp [hlate]

/-- Settles O35. -/
theorem islandStatesComplete : Obligations.IslandStatesComplete := by
  refine ⟨fun t s h => ⟨⟨_, rfl, ?_⟩, ⟨_, rfl, ?_⟩⟩, fun t dev s h hat hrecent => ⟨fun hbad => ⟨_, rfl, ?_⟩, fun hgood => ⟨_, rfl, ?_⟩⟩,
    fun t dev s hold => ⟨fun hbad => ⟨_, rfl, ?_⟩, fun hgood => ⟨_, rfl, ?_⟩⟩, ?_, fun t s => ⟨_, rfl, rfl, rfl⟩, fun t s => ⟨_, rfl, ?_⟩, ?_⟩
  · exact State.islandSelfTestEnd_passes (s := s.begin t) h
  · have h0 : (s.begin t).islandState = 0 := h
    unfold State.islandSelfTestEnd
    rw [if_neg (by simp [h0]), if_neg (by decide)]
    exact State.islandState_islandFault _
  · exact State.oscillatorCheck_faults ((State.oscillatorCheck_corrected (s := s.begin t) hat hrecent).trans (if_pos hbad))
  · rw [(State.oscillatorCheck_corrected (s := s.begin t) hat hrecent).trans (if_neg (Nat.not_lt.2 hgood))]
    exact ⟨rfl, rfl, rfl⟩
  · exact State.oscillatorCheck_faults ((State.oscillatorCheck_uncorrected (s := s.begin t) hold).trans (if_pos hbad))
  · rw [(State.oscillatorCheck_uncorrected (s := s.begin t) hold).trans (if_neg (Nat.not_lt.2 hgood))]
    exact ⟨rfl, rfl, rfl⟩
  · rintro t c s (rfl | rfl) h3
    · exact ⟨_, rfl, State.islandFault_faults (s := s.begin t) h3⟩
    · exact ⟨_, rfl, State.islandFault_faults (s := s.begin t) h3⟩
  · exact State.pd7Low_completes (s.begin t)
  · rintro t q c sub area s hc hs hp
    obtain h | h := hc
    · obtain ⟨rfl, rfl, rfl⟩ := h
      have hs : (s.begin t).Serves := hs
      have hp : (s.begin t).Passes q 0x7800 2 0 1 := hp
      obtain ⟨hok, hbad⟩ := State.islandLock_completes (s := s.begin t) (area := 0) (by decide) hs hp
      exact ⟨fun h => ⟨_, rfl, hok ((State.settingsOk_of_od rfl).trans h)⟩, fun h => ⟨_, rfl, hbad ((State.settingsOk_of_od rfl).trans h)⟩⟩
    · obtain ⟨rfl, rfl, rfl⟩ := h
      have hs : (s.begin t).Serves := hs
      have hp : (s.begin t).Passes q 0x7800 3 0 1 := hp
      obtain ⟨hok, hbad⟩ := State.islandLock_completes (s := s.begin t) (area := 1) (by decide) hs hp
      exact ⟨fun h => ⟨_, rfl, hok ((State.settingsOk_of_od rfl).trans h)⟩, fun h => ⟨_, rfl, hbad ((State.settingsOk_of_od rfl).trans h)⟩⟩

end Sys2Proof.Machine
end

section
/-! The island's measurement, its cross-check and its protection stages (R240 to R242, R247): what an RMS update leaves of the values it has formed, a
stage that trips, a mean, the dead bus and the end of the observation. -/

namespace Sys2Proof.Machine

/-! ### An RMS update -/

/-- The entry belongs to the island's settings or measured values, but not to those that follow from the voltages (0x7802 .04, .05, .07, .08). -/
abbrev VoltKey (k : Nat) : Prop :=
  key 0x7801 0 ≤ k ∧ k < key 0x7810 0 ∧ k ≠ key 0x7802 4 ∧ k ≠ key 0x7802 5 ∧ k ≠ key 0x7802 7 ∧ k ≠ key 0x7802 8

/-- From s to t an RMS update keeps entry k, and when it ran. -/
structure UpdateKeeps (k : Nat) (s t : State) : Prop where
  keeps : KeepsAt k s t
  at_ : t.island.lastRms = s.island.lastRms
  odd : t.island.odd = s.island.odd

namespace UpdateKeeps

variable {k : Nat}

theorem of_od {s t : State} (h : t.od = s.od) (ha : t.island.lastRms = s.island.lastRms) (ho : t.island.odd = s.island.odd) : UpdateKeeps k s t :=
  ⟨.of_eq h, ha, ho⟩

theorem of_island {s t : State} (h : KeepsAt k s t) (hi : t.island = s.island) : UpdateKeeps k s t := ⟨h, by rw [hi], by rw [hi]⟩

theorem refl (s : State) : UpdateKeeps k s s := of_od rfl rfl rfl

theorem trans {r s t : State} (h : UpdateKeeps k r s) (g : UpdateKeeps k s t) : UpdateKeeps k r t :=
  ⟨h.keeps.trans g.keeps, g.at_.trans h.at_, g.odd.trans h.odd⟩

theorem of_ite {c : Prop} [Decidable c] {s t u : State} (h : UpdateKeeps k s t) (g : UpdateKeeps k s u) : UpdateKeeps k s (if c then t else u) :=
  EventRel.of_ite h g

theorem wr {j : Nat} (h : k ≠ j) (v : Int) (s : State) : UpdateKeeps k s (s.wr j v) := of_island (.wr h v s) rfl

theorem each {α : Type} {l : List α} {f : α → State → State} (h : ∀ a ∈ l, ∀ s, UpdateKeeps k s (f a s)) (s : State) : UpdateKeeps k s (s.each l f) :=
  State.each_keeps (P := UpdateKeeps k s) (fun a ha t ht => ht.trans (h a ha t)) (refl s)

theorem setStage (i : Nat) (r : Stage) (s : State) : UpdateKeeps k s (s.setStage i r) := of_od rfl rfl rfl

theorem setCheck (i : Nat) (c : CrossCheck) (s : State) : UpdateKeeps k s (s.setCheck i c) := of_od rfl rfl rfl

theorem busConditions (hi : F32) (s : State) : UpdateKeeps k s (s.busConditions hi) := by
  unfold State.busConditions
  lift_lets
  intro i under judged
  refine of_ite ?_ ?_
  · exact of_od rfl rfl rfl
  · exact of_od rfl rfl rfl

theorem meanTake (v : List F32) (i : Nat) (s : State) : UpdateKeeps k s (s.meanTake v i) := by
  unfold State.meanTake
  split
  · exact refl s
  · dsimp only
    split
    · exact setStage ..
    · exact refl s

section
variable (hk : VoltKey k)
include hk

theorem islandFreq (lowest : F32) (s : State) : UpdateKeeps k s (s.islandFreq lowest) := by
  obtain ⟨-, -, h4, h5, -, -⟩ := hk
  unfold State.islandFreq
  dsimp only
  split
  · exact of_od rfl rfl rfl
  · split
    · refine trans (trans ?_ (wr h4 _ _)) (wr h5 _ _)
      exact of_od rfl rfl rfl
    · refine trans ?_ (wr h4 _ _)
      exact of_od rfl rfl rfl

theorem syncCheck (s : State) : UpdateKeeps k s s.syncCheck := by
  obtain ⟨hlo, -, -, -, h7, -⟩ := hk
  have h6 : k ≠ key 0x7800 6 := by simp only [key] at hlo ⊢; omega
  unfold State.syncCheck
  split
  · exact (wr h7 _ s).trans (wr h6 _ _)
  · exact wr h6 _ s

theorem crossCheck (s : State) : UpdateKeeps k s s.crossCheck := by
  obtain ⟨-, -, -, -, -, h8⟩ := hk
  unfold State.crossCheck
  refine (wr h8 _ s).trans (each (fun i _ t => ?_) _)
  split
  · exact refl t
  · lift_lets
    intro r c paired own d0 d1 d shown
    have hpaired : UpdateKeeps k t paired := of_od rfl rfl rfl
    have hshown : UpdateKeeps k t shown := hpaired.trans (of_ite (wr h8 _ _) (refl _))
    exact of_ite (hpaired.trans (setCheck ..)) (of_ite (hshown.trans (setCheck ..)) (of_ite (hshown.trans (setCheck ..)) (hshown.trans (setCheck ..))))

theorem stageEval (i : Nat) (m : Option F32) (s : State) : UpdateKeeps k s (s.stageEval i m) := by
  have h8 : k ≠ key (0x7810 + i) 8 := by
    obtain ⟨-, hhi, -⟩ := hk
    simp only [key] at hhi ⊢
    omega
  have hdrop : UpdateKeeps k s (s.dropOut i) := wr h8 _ s
  unfold State.stageEval
  dsimp only
  split
  · exact refl s
  · split
    · exact of_ite hdrop (refl s)
    · exact of_ite (of_ite hdrop (refl s)) (of_ite ((setStage ..).trans (wr h8 _ _)) (refl s))

end

end UpdateKeeps

/-- An RMS update forms its voltages first; what it judges from them, and the end of the command, keep them. -/
theorem State.rmsUpdate_forms {s : State} (hm : s.islandMeasures = true) (hdue : s.island.lastRms + s.islandPeriod / 2 ≤ s.now) :
    ∃ u v : State, s.rmsUpdate = v.islandSettle ∧ (∀ k, VoltKey k → UpdateKeeps k u v) ∧
      u.rdF (key 0x7802 1) = s.islandRms 0 ∧ u.rdF (key 0x7802 2) = s.islandRms 1 ∧ u.rdF (key 0x7802 3) = s.islandRms 2 ∧
      u.rdF (key 0x7802 6) = s.islandRms 3 ∧ u.island.lastRms = s.now ∧ u.island.odd = !s.island.odd := by
  have hrun : (decide (s.now < s.island.lastRms + s.islandPeriod / 2) || !s.islandMeasures) = false := by simp [hm, hdue]
  have hne {j k : Nat} (h : j ≠ k) (hj : OwnDefault j) (v : F32) (t : State) : (t.wrF k v).rdF j = t.rdF j :=
    congrArg (fun v : Int => BitVec.ofNat 32 v.toNat) (State.rd_wr_ne h hj _ t)
  unfold State.rmsUpdate
  rw [hrun, if_neg Bool.false_ne_true]
  lift_lets
  intro v written lo mx hi odd fields formed freqs conds synced meant low high all
  have hsynced {k : Nat} (hk : VoltKey k) : UpdateKeeps k formed synced := ((UpdateKeeps.islandFreq hk lo _).trans (.busConditions hi _)).trans (.syncCheck hk _)
  have hmeant {k : Nat} (hk : VoltKey k) : UpdateKeeps k formed meant :=
    (hsynced hk).trans (.of_ite (((UpdateKeeps.crossCheck hk _).trans (.meanTake ..)).trans (.meanTake ..)) (.refl _))
  have hlow {k : Nat} (hk : VoltKey k) : UpdateKeeps k formed low := (hmeant hk).trans (.each (fun i _ t => .stageEval hk i _ t) _)
  have hhigh {k : Nat} (hk : VoltKey k) : UpdateKeeps k formed high := (hlow hk).trans (.each (fun i _ t => .of_ite (.refl t) (.stageEval hk i _ t)) _)
  have hall {k : Nat} (hk : VoltKey k) : UpdateKeeps k formed all := (hhigh hk).trans (.each (fun i _ t => .stageEval hk i _ t) _)
  refine ⟨formed, _, rfl, fun k hk => (hall hk).trans (.stageEval hk 9 _ _), ?_, ?_, ?_, ?_, rfl, rfl⟩
  · show written.rdF _ = _
    rw [hne (by decide) (by decide), hne (by decide) (by decide), hne (by decide) (by decide), State.rdF_wrF_same]
    rfl
  · show written.rdF _ = _
    rw [hne (by decide) (by decide), hne (by decide) (by decide), State.rdF_wrF_same]
    rfl
  · show written.rdF _ = _
    rw [hne (by decide) (by decide), State.rdF_wrF_same]
    rfl
  · exact State.rdF_wrF_same ..

theorem State.rmsUpdate_completes {s : State} (hm : s.islandMeasures = true) (hdue : s.island.lastRms + s.islandPeriod / 2 ≤ s.now) :
    s.rmsUpdate.rdF (key 0x7802 1) = s.islandRms 0 ∧ s.rmsUpdate.rdF (key 0x7802 2) = s.islandRms 1 ∧
    s.rmsUpdate.rdF (key 0x7802 3) = s.islandRms 2 ∧ s.rmsUpdate.rdF (key 0x7802 6) = s.islandRms 3 ∧ s.rmsUpdate.island.lastRms = s.now ∧
    s.rmsUpdate.island.odd = !s.island.odd := by
  obtain ⟨u, v, heq, hkeep, h1, h2, h3, h6, hlast, hodd⟩ := State.rmsUpdate_forms hm hdue
  have hrd (sub : Nat) (hsub : sub < 256) (hk : VoltKey (key 0x7802 sub)) : s.rmsUpdate.rdF (key 0x7802 sub) = u.rdF (key 0x7802 sub) := by
    rw [heq, State.rdF, State.rdF, State.rdN_islandSettle (by decide) hsub (by decide) (by simp), State.rdN, State.rdN,
      (hkeep _ hk).keeps.rd (.inr (.inl (by simp only [key]; omega)))]
  obtain ⟨c, d, hi⟩ := CircsOnly.islandSettle v
  obtain ⟨-, hat, hsame⟩ := hkeep (key 0x7802 1) (by decide)
  refine ⟨(hrd 1 (by decide) (by decide)).trans h1, (hrd 2 (by decide) (by decide)).trans h2, (hrd 3 (by decide) (by decide)).trans h3,
    (hrd 6 (by decide) (by decide)).trans h6, ?_, ?_⟩
  · rw [heq, hi]
    exact hat.trans hlast
  · rw [heq, hi]
    exact hsame.trans hodd

/-! ### Stages -/

theorem State.now_islandSettle (s : State) : s.islandSettle.now = s.now := (State.islandSettle_kept (Sub.refl _) (Kept.refl _ s)).now

theorem State.rdN_restartObservation (k : Nat) (s : State) : s.restartObservation.rdN k = s.rdN k := rfl

/-- A circuit that a tripped stage names opens. -/
theorem State.stage_opens {s : State} {i n : Nat} (hi : i < 10) (hn : n < 4) (ht : s.bit (key (0x7810 + i) 8) 1 = true)
    (hm : (s.rdN (key (0x7810 + i) 6)).testBit n = true) : s.islandSettle.circState n = 0 ∨ s.islandSettle.circState n = 4 := by
  have hrd (a : Nat) (ha : a < 256) : s.islandStatus.rdN (key (0x7810 + i) a) = s.rdN (key (0x7810 + i) a) := by
    have hoff : OffStatus (key (0x7810 + i) a) := by simp only [OffStatus, key]; omega
    have hown : OwnDefault (key (0x7810 + i) a) := by simp only [OwnDefault, key]; omega
    rw [State.rdN, State.rdN, (KeepsAt.islandStatus s hoff).rd hown]
  have hbit : s.islandStatus.bit (key (0x7810 + i) 8) 1 = true := (congrArg (Nat.testBit · 1) (hrd 8 (by decide))).trans ht
  have hmask : (s.islandStatus.rdN (key (0x7810 + i) 6)).testBit n = true := (congrArg (Nat.testBit · n) (hrd 6 (by decide))).trans hm
  exact State.Demanded.settles hn (.inl ⟨i, hi, hbit, hmask⟩)

theorem State.stageTrip_completes {s : State} {i : Nat} (hi : i < 10) (hon : s.rdB (key (0x7810 + i) 1) = true)
    (hup : s.bit (key (0x7810 + i) 8) 0 = true) (hnot : s.bit (key (0x7810 + i) 8) 1 = false)
    (hdue : (s.stage i).since + Time.ms (s.rdN (key (0x7810 + i) 4)) ≤ s.now) :
    (s.stageTrip i).bit (key (0x7810 + i) 8) 1 = true ∧
    (s.stageTrip i).rdN (key (0x7810 + i) 9) = (s.rdN (key (0x7810 + i) 9) + 1) % 2 ^ 32 ∧ (s.stageTrip i).island.observed = false ∧
    ∀ n : CircuitNo, (s.rdN (key (0x7810 + i) 6)).testBit n = true → (s.stageTrip i).circState n = 0 ∨ (s.stageTrip i).circState n = 4 := by
  have heq : s.stageTrip i = (((s.setBit (key (0x7810 + i) 8) 1 true).inc (key (0x7810 + i) 9)).restartObservation).islandSettle := by
    unfold State.stageTrip
    rw [if_neg (by simp [hon, hup, hnot, hdue])]
  have hne {a b : Nat} (ha : a < 256) (hb : b < 256) (h : a ≠ b) : key (0x7810 + i) a ≠ key (0x7810 + i) b := by simp only [key]; omega
  have hown {a : Nat} (ha : a < 256) : OwnDefault (key (0x7810 + i) a) := by simp only [OwnDefault, key]; omega
  generalize htrip : ((s.setBit (key (0x7810 + i) 8) 1 true).inc (key (0x7810 + i) 9)).restartObservation = u at heq
  have hrd (k : Nat) : u.rdN k = ((s.setBit (key (0x7810 + i) 8) 1 true).inc (key (0x7810 + i) 9)).rdN k := by
    rw [← htrip, State.rdN_restartObservation]
  have hbit : u.bit (key (0x7810 + i) 8) 1 = true := by
    rw [State.bit, hrd, State.inc, State.rdN_wr_ne (hne (a := 8) (b := 9) (by decide) (by decide) (by decide)) (hown (by decide))]
    exact State.bit_setBit_same _ _ _ _
  have hmask : u.rdN (key (0x7810 + i) 6) = s.rdN (key (0x7810 + i) 6) := by
    rw [hrd, State.inc, State.rdN_wr_ne (hne (a := 6) (b := 9) (by decide) (by decide) (by decide)) (hown (by decide)),
      State.rdN_setBit_ne (hne (a := 6) (b := 8) (by decide) (by decide) (by decide)) (hown (by decide))]
  have hcount : u.rdN (key (0x7810 + i) 9) = (s.rdN (key (0x7810 + i) 9) + 1) % 2 ^ 32 := by
    rw [hrd, State.rdN_inc_same, State.rdN_setBit_ne (hne (a := 9) (b := 8) (by decide) (by decide) (by decide)) (hown (by decide))]
  have hsettle {a : Nat} (ha : a < 256) : u.islandSettle.rdN (key (0x7810 + i) a) = u.rdN (key (0x7810 + i) a) :=
    State.rdN_islandSettle (by omega) ha (by decide) (.inl ⟨by omega, by omega⟩) u
  rw [heq]
  refine ⟨?_, (hsettle (by decide)).trans hcount, ?_, fun n hn => State.stage_opens hi n.isLt hbit (hmask ▸ hn)⟩
  · rw [State.bit, hsettle (by decide)]
    exact hbit
  · obtain ⟨c, d, h⟩ := CircsOnly.islandSettle u
    rw [h, ← htrip]
    rfl

theorem State.stageEval_now (i : Nat) (m : Option F32) (s : State) : (s.stageEval i m).now = s.now :=
  (State.stageEval_kept (Sub.refl _) (Kept.refl _ s)).now

theorem State.meanUpdate_completes {s : State} {i : Nat} (hon : s.rdB (key (0x7810 + i) 1) = true) (hty : s.rdN (key (0x7810 + i) 2) = 1)
    (hmode : s.rdN (key (0x7810 + i) 7) = 1) (hdue : (s.stage i).meanAt + Time.sec 3 ≤ s.now) :
    ((s.meanUpdate i).stage i).meanAt = s.now ∧ ((s.meanUpdate i).stage i).buckets = ({} :: (s.stage i).buckets).take 200 := by
  have heq : ∃ u : State, u.now = s.now ∧ s.meanUpdate i =
      (u.setStage i { (u.stage i) with meanAt := u.now, buckets := ({} :: (s.stage i).buckets).take 200 }).islandSettle := by
    unfold State.meanUpdate
    dsimp only
    rw [if_neg (by simp [hon, hty, hmode, hdue])]
    exact ⟨_, State.same_ite State.now rfl (State.stageEval_now ..), rfl⟩
  obtain ⟨u, hnow, heq⟩ := heq
  have hstage : (s.meanUpdate i).stage i = { (u.stage i) with meanAt := u.now, buckets := ({} :: (s.stage i).buckets).take 200 } := by
    obtain ⟨c, d, h⟩ := CircsOnly.islandSettle (u.setStage i { (u.stage i) with meanAt := u.now, buckets := ({} :: (s.stage i).buckets).take 200 })
    rw [heq, State.stage, h]
    exact State.stage_setStage_same ..
  rw [hstage]
  exact ⟨hnow, rfl⟩

theorem Tbl.mem_of_find? {α : Type} {k : Nat} {v : α} {l : Tbl α} (h : Tbl.find? k l = some v) : (k, v) ∈ l := by
  induction l with
  | nil => cases h
  | cons e r ih =>
    obtain ⟨j, w⟩ := e
    unfold Tbl.find? at h
    split at h
    case isTrue hj =>
      obtain rfl := Option.some.inj h
      exact hj ▸ List.mem_cons_self
    case isFalse => exact List.mem_cons_of_mem _ (ih h)

/-! ### Cross-check, dead bus, observation -/

theorem State.crossGrace_completes {s : State} {i : Nat} {t0 : Time} (h : (s.check i).invSince = some t0)
    (hdue : t0 + Time.ms (s.rdN (key 0x7801 6)) ≤ s.now) : ((s.crossGrace i).check i).fault = true ∧ (s.crossGrace i).bit (key 0x7800 6) 1 = true ∧
    ∀ n : CircuitNo, (s.crossGrace i).circState n = 0 ∨ (s.crossGrace i).circState n = 4 := by
  have heq : s.crossGrace i = (s.setCheck i { (s.check i) with fault := true, okRun := 0 }).islandSettle := by
    unfold State.crossGrace
    simp only [h, hdue, if_true]
  generalize hset : s.setCheck i { (s.check i) with fault := true, okRun := 0 } = u at heq
  have hcheck : u.check i = { (s.check i) with fault := true, okRun := 0 } := by rw [← hset]; exact State.check_setCheck_same ..
  have hany : u.island.checks.any (fun c => c.2.fault) = true := by
    rw [List.any_eq_true]
    refine ⟨(i, u.check i), ?_, by rw [hcheck]⟩
    rw [hcheck, ← hset]
    exact Tbl.mem_of_find? (Tbl.find?_set_same ..)
  obtain ⟨c, d, hi⟩ := CircsOnly.islandSettle u
  rw [heq]
  refine ⟨?_, u.bits_islandSettle.1.trans hany, fun n => State.Demanded.settles n.isLt (.inr (.inl ⟨u.bits_islandStatus.1.trans hany, testBit_fifteen n.isLt⟩))⟩
  rw [State.check, hi]
  exact congrArg CrossCheck.fault hcheck

/-- Settles O36. -/
theorem islandMeasurementAndStagesComplete : Obligations.IslandMeasurementAndStagesComplete := by
  refine ⟨fun t x0 x1 x2 x3 s => ⟨_, rfl, rfl⟩, fun t s hm hdue => ⟨_, rfl, ?_⟩, fun t second s t0 h hdue => ⟨_, rfl, ?_⟩,
    fun t i s hon hup hnot hdue => ⟨_, rfl, ?_⟩, fun t i s hon hty hmode hdue => ⟨_, rfl, ?_⟩, fun t s t0 h hdue => ⟨_, rfl, ?_⟩,
    fun t s t0 h hdue => ⟨_, rfl, ?_⟩⟩
  · have hm : (s.begin t).islandState = 1 ∨ (s.begin t).islandState = 2 := hm
    obtain ⟨h1, h2, h3, h6, hat, hodd⟩ := State.rmsUpdate_completes (s := s.begin t) (by simpa [State.islandMeasures] using hm) hdue
    have hnow : (s.begin t).rmsUpdate.now = (s.begin t).now := (State.rmsUpdate_kept (Sub.refl _) (Kept.refl _ _)).now
    exact ⟨h1, h2, h3, h6, hat.trans hnow.symm, hodd⟩
  · exact State.crossGrace_completes (s := s.begin t) h hdue
  · exact State.stageTrip_completes (s := s.begin t) i.isLt hon hup hnot hdue
  · have hnow : ((s.begin t).meanUpdate i).now = (s.begin t).now := (State.meanUpdate_kept (Sub.refl _) (Kept.refl _ _)).now
    obtain ⟨hat, hbuckets⟩ := State.meanUpdate_completes (s := s.begin t) hon hty hmode hdue
    exact ⟨hat.trans hnow.symm, hbuckets⟩
  · have heq : (s.begin t).deadToIsland = State.islandSettle { s.begin t with island := { (s.begin t).island with dead := true } } := by
      unfold State.deadToIsland
      have h' : (s.begin t).island.below = some t0 := h
      rw [h']
      exact if_pos hdue
    obtain ⟨c, d, hi⟩ := CircsOnly.islandSettle { s.begin t with island := { (s.begin t).island with dead := true } }
    rw [heq]
    exact ⟨by rw [hi], (State.bits_islandSettle _).2.1⟩
  · have heq : (s.begin t).observationDone = State.islandSettle { s.begin t with island := { (s.begin t).island with observed := true } } := by
      unfold State.observationDone
      have h' : (s.begin t).island.connSince = some t0 := h
      rw [h']
      exact if_pos hdue
    obtain ⟨c, d, hi⟩ := CircsOnly.islandSettle { s.begin t with island := { (s.begin t).island with observed := true } }
    rw [heq]
    exact ⟨by rw [hi], (State.bits_islandSettle _).2.2⟩

end Sys2Proof.Machine
end

section
/-! Commands and events of the safety circuits (R243 to R247, R250 to R253): readback, opening and closing by the host, acknowledgement, the end of
closing, faults and test pulses. -/

namespace Sys2Proof.Machine

/-! ### What a cycle leaves of a circuit's entries -/

/-- The entry is none of those that a cycle writes of a circuit: state, fault code, closings, openings, aborted tests, tests. -/
abbrev OffCycle (k : Nat) : Prop := IslandKey k ∧ ∀ n a, a ∈ [7, 0xA, 0xD, 0xE, 0xF, 0x10] → k ≠ ik n a

theorem offCycle_ik (n : Nat) {a : Nat} (ha : a < 256) (h : a ∉ [7, 0xA, 0xD, 0xE, 0xF, 0x10]) : OffCycle (ik n a) := by
  refine ⟨by simp only [IslandKey, ik, key]; omega, fun m b hb => ?_⟩
  have hb256 : b < 256 := by
    have hall : ∀ b ∈ [7, 0xA, 0xD, 0xE, 0xF, 0x10], b < 256 := by decide
    exact hall b hb
  have hab : a ≠ b := fun e => h (e ▸ hb)
  simp only [ik, key]
  omega

namespace KeepsAt

variable {k n : Nat}

theorem answerTo (sid e : Nat) (s : State) : KeepsAt k s (s.answerTo sid e) := by
  refine (State.answerTo_kept (Sub.refl _) (Kept.refl _ s)).numbersSame k (Nat.testBit_lt_two_pow ?_)
  have h : 2 ^ 20 ≤ 2 ^ (20 + zone k) := Nat.pow_le_pow_right (by decide) (by omega)
  omega

variable (hk : OffCycle k)
include hk

theorem offCirc : OffCirc n k := ⟨hk.2 n _ (by decide), hk.2 n _ (by decide), hk.2 n _ (by decide)⟩

theorem cycleState (st : Nat) (s : State) : KeepsAt k s (s.setCircState n st) :=
  .setCircState (hk.2 n _ (by decide)) (low hk.1 (by simp only [twk, key]; omega)) st s

theorem circFault (code : Nat) (aborts : Bool) (s : State) : KeepsAt k s (s.circFault n code aborts) := by
  unfold State.circFault
  lift_lets
  intro coded fields plain
  have hoff : KeepsAt k s ((s.interrupted n aborts).circOff n) := (KeepsAt.interrupted (.inr hk.1) (offCirc hk) aborts s).trans (of_eq (State.od_circOff _))
  have hcoded : KeepsAt k s coded := hoff.trans (.wr (hk.2 n _ (by decide)) _ _)
  have hplain : KeepsAt k coded plain := of_eq rfl
  exact of_ite (of_eq rfl) (((hcoded.trans hplain).trans (cycleState hk 4 plain)).trans (logEvent hk.1 ..))

theorem circClosed (s : State) : KeepsAt k s (s.circClosed n) := by
  unfold State.circClosed
  exact (KeepsAt.trans (of_eq rfl) (.wr (hk.2 n 0xD (by decide)) _ (s.setCirc n _))).trans (cycleState hk 3 _)

theorem testFails (code : Nat) (s : State) : KeepsAt k s (s.testFails n code) := by
  unfold State.testFails
  dsimp only
  have hoff : KeepsAt k s (s.circOff n) := of_eq (State.od_circOff s)
  exact of_ite (of_ite (hoff.trans (answerTo ..)) hoff) (circFault hk ..)

theorem ackPasses (s : State) : KeepsAt k s (s.ackPasses n) := by
  have hoff : KeepsAt k s (s.circOff n) := of_eq (State.od_circOff s)
  have hlogged : KeepsAt k s ((((s.circOff n).wr (ik n 0xA) 0).setCircState n 0).logEvent 0x0702 n (d8 n)) :=
    ((hoff.trans (.wr (hk.2 n _ (by decide)) _ _)).trans (cycleState hk 0 _)).trans (logEvent hk.1 ..)
  unfold State.ackPasses
  exact of_ite (hlogged.trans (answerTo ..)) hlogged

theorem proofCycle (r : Readback) (s : State) : KeepsAt k s (s.proofCycle n r) := by
  have hoff : KeepsAt k s (s.circOff n) := of_eq (State.od_circOff s)
  have hgo (hs ls : Bool) (c : IslandCirc) : KeepsAt k s ((s.switches n hs ls).setCirc n c) := of_eq (State.od_switches hs ls s)
  have hset (c : IslandCirc) : KeepsAt k s (s.setCirc n c) := of_eq rfl
  unfold State.proofCycle
  dsimp only
  refine of_ite (hoff.trans (cycleState hk 0 _)) ?_
  split
  · exact of_ite (of_eq rfl) (of_ite (testFails hk ..) (of_ite (testFails hk ..) (hgo ..)))
  · exact of_ite (hset _) (of_ite (hgo ..) (testFails hk ..))
  · exact of_ite (hset _) (of_ite (testFails hk ..) (of_ite (ackPasses hk s) ((hgo ..).trans (cycleState hk 2 _))))
  · exact of_ite (of_ite ((hset _).trans (circClosed hk _)) (hset _)) (of_ite (of_eq rfl) (of_ite (circFault hk ..) (circFault hk ..)))
  · exact of_eq rfl

theorem pulseCycle (r : Readback) (s : State) : KeepsAt k s (s.pulseCycle n r) := by
  unfold State.pulseCycle
  dsimp only
  split
  · exact of_eq rfl
  next low t0 hp =>
    have hsw (closed : Bool) : KeepsAt k s (s.switches n closed closed) := of_eq (State.od_switches closed closed s)
    refine of_ite ?_ (of_ite (circFault hk ..) (of_eq rfl))
    exact ((hsw _).trans (.wr (hk.2 n 0x10 (by decide)) _ _)).trans (of_eq rfl)

theorem startProof (kind : Nat) (s : State) : KeepsAt k s (s.startProof n kind) := by
  have hsw (c : IslandCirc) : KeepsAt k s ((s.switches n false false).setCirc n c) := of_eq (State.od_switches false false s)
  exact (hsw _).trans (cycleState hk 1 _)

theorem takeRequest (s : State) : KeepsAt k s (s.takeRequest n) := by
  unfold State.takeRequest
  lift_lets
  intro fields forgot c
  have hforgot : KeepsAt k s forgot := of_ite (of_eq rfl) (of_eq rfl)
  refine of_ite hforgot (of_ite (of_ite (hforgot.trans (startProof hk ..)) (hforgot.trans (of_eq rfl))) ?_)
  split
  · exact hforgot.trans (startProof hk ..)
  · exact hforgot

theorem circCycle (r : Readback) (s : State) : KeepsAt k s (s.circCycle n r) :=
  ((proofCycle hk r s).trans (pulseCycle hk r _)).trans (takeRequest hk _)

end KeepsAt

theorem State.od_judgeInvalid (s : State) : s.judgeInvalid.od = s.od := by
  refine State.each_eq State.od (fun i _ t => ?_) s
  dsimp only
  split
  · rfl
  · split <;> rfl

theorem KeepsAt.syncCheck {k : Nat} (h7 : k ≠ key 0x7802 7) (h6 : k ≠ key 0x7800 6) (s : State) : KeepsAt k s s.syncCheck := by
  unfold State.syncCheck
  split
  · exact (KeepsAt.wr h7 _ s).trans (.wr h6 _ _)
  · exact .wr h6 _ s

/-! ### Readback in a cycle -/

/-- The entries of circuit n show the readback r. -/
def State.Shows (n : Nat) (r : Readback) (s : State) : Prop :=
  s.rdN (ik n 8) = levelCode (levelOf r.nodes.h) + 4 * levelCode (levelOf r.nodes.l) ∧ s.rdN (ik n 9) = min 65535 r.coil

theorem ownDefault_ik (n a : Nat) : OwnDefault (ik n a) := by
  simp only [OwnDefault, ik, key]
  omega

theorem State.Shows.of_keeps {n : Nat} {r : Readback} {s t : State} (h : s.Shows n r) (h8 : KeepsAt (ik n 8) s t) (h9 : KeepsAt (ik n 9) s t) :
    t.Shows n r := by
  obtain ⟨e8, e9⟩ := h
  refine ⟨?_, ?_⟩
  · rw [State.rdN, h8.rd (ownDefault_ik n 8)]
    exact e8
  · rw [State.rdN, h9.rd (ownDefault_ik n 9)]
    exact e9

theorem State.shows_readback (n : Nat) (r : Readback) (s : State) : (s.readback n r).Shows n r := by
  have hne : ik n 8 ≠ ik n 9 := by simp only [ik, key]; omega
  refine ⟨?_, State.rdN_wr_same ..⟩
  unfold State.readback
  rw [State.rdN_wr_ne hne (ownDefault_ik n 8), State.rdN_wr_same, Int.toNat_natCast]

theorem State.shows_readbacks {n : Nat} {r : Readback} {rb : List Readback} (h4 : n < 4) (hr : rb[n]? = some r) (s : State) :
    (s.each rb.zipIdx fun p => if p.2 < 4 then State.readback p.2 p.1 else id).Shows n r := by
  refine State.each_reaches (I := fun _ => True) (a := (r, n)) (List.mem_zipIdx_iff_getElem?.2 hr) (fun _ _ _ _ => trivial) (fun t _ => ?_)
    (fun p hp t ht => ?_) trivial
  · dsimp only
    rw [if_pos h4]
    exact State.shows_readback n r t
  · obtain ⟨r', m⟩ := p
    have hr' : rb[m]? = some r' := List.mem_zipIdx_iff_getElem?.1 hp
    dsimp only
    split
    case isFalse => exact ht
    case isTrue =>
      obtain rfl | hne := eq_or_ne m n
      · obtain rfl : r' = r := Option.some.inj (hr'.symm.trans hr)
        exact State.shows_readback m r' t
      · have hkeep (a b : Nat) (ha : a < 256) (hb : b < 256) : ik n a ≠ ik m b := by simp only [ik, key]; omega
        exact ht.of_keeps ((KeepsAt.wr (hkeep _ _ (by decide) (by decide)) _ t).trans (.wr (hkeep _ _ (by decide) (by decide)) _ _))
          ((KeepsAt.wr (hkeep _ _ (by decide) (by decide)) _ t).trans (.wr (hkeep _ _ (by decide) (by decide)) _ _))

theorem State.shows_islandCycle {n : Nat} {r : Readback} {rb : List Readback} (h4 : n < 4) (hr : rb[n]? = some r) (s : State) :
    (s.islandCycle rb).Shows n r := by
  have hcycle {a : Nat} (ha : a < 256) (hin : a ∉ [7, 0xA, 0xD, 0xE, 0xF, 0x10]) (t : State) :
      KeepsAt (ik n a) t (t.each rb.zipIdx fun p => if p.2 < 4 then State.circCycle p.2 p.1 else id) := by
    refine KeepsAt.each (fun p _ u => ?_) t
    split
    · exact .circCycle (offCycle_ik n ha hin) p.1 u
    · exact .of_eq rfl
  have hsettle {a : Nat} (ha : a < 256) (hin : a ∉ [7, 0xA, 0xD, 0xE, 0xF, 0x10]) (t : State) : KeepsAt (ik n a) t t.islandSettle := by
    refine .islandSettle t ⟨watched_ik n a, by simp only [ik, key]; omega, fun m _ => KeepsAt.offCirc (offCycle_ik n ha hin)⟩ ?_
    simp only [OffStatus, ik, key]
    omega
  have hsync {a : Nat} (ha : a < 256) (t : State) : KeepsAt (ik n a) t (if t.islandMeasures then t.syncCheck else t) :=
    .of_ite (.syncCheck (by simp only [ik, key]; omega) (by simp only [ik, key]; omega) t) (.of_eq rfl)
  have hjudge (a : Nat) (t : State) : KeepsAt (ik n a) t t.judgeInvalid := .of_eq t.od_judgeInvalid
  have hall {a : Nat} (ha : a < 256) (hin : a ∉ [7, 0xA, 0xD, 0xE, 0xF, 0x10]) :
      KeepsAt (ik n a) (s.each rb.zipIdx fun p => if p.2 < 4 then State.readback p.2 p.1 else id) (s.islandCycle rb) :=
    (((((hsync ha _).trans (hjudge a _)).trans (hsettle ha hin _)).trans (hcycle ha hin _)).trans (hsettle ha hin _))
  exact (State.shows_readbacks h4 hr s).of_keeps (hall (by decide) (by decide)) (hall (by decide) (by decide))

end Sys2Proof.Machine
end

section
/-! The commands and events of one safety circuit (R243 to R247, R250 to R253): faults, closing, the host's commands, acknowledgement and test pulses. -/

namespace Sys2Proof.Machine

variable {n : Nat}

/-! ### Faults -/

/-- Circuit n is in Fault with this code, both switches off. -/
def State.Faulted (n code : Nat) (s : State) : Prop :=
  s.circState n = 4 ∧ s.rdN (ik n 0xA) = code ∧ (s.circ n).hs = false ∧ (s.circ n).ls = false

theorem State.faulted_circFault {code : Nat} {aborts : Bool} {s : State} (h : s.circState n ≠ 4) : (s.circFault n code aborts).Faulted n code := by
  unfold State.circFault
  rw [if_neg h]
  lift_lets
  intro coded fields plain
  have hstate : ik n 0xA ≠ ik n 7 := by simp only [ik, key]; omega
  have hcode : plain.rdN (ik n 0xA) = code := (State.rdN_wr_same (ik n 0xA) code _).trans (Int.toNat_natCast code)
  have hcirc : (plain.circ n).hs = false ∧ (plain.circ n).ls = false := by
    obtain ⟨at_, retry, hoff⟩ := State.circ_circOff_same (n := n) (s.interrupted n aborts)
    have hfields : fields.hs = false ∧ fields.ls = false := by
      have e : fields = _ := hoff
      rw [e]
      exact ⟨rfl, rfl⟩
    rw [State.circ_setCirc_same]
    exact hfields
  have hisland : ((plain.setCircState n 4).logEvent 0x0701 n (d8 n ++ d8 code)).circ n = plain.circ n :=
    State.circ_of_island ((State.logEvent_island ..).trans (State.island_setCircState 4 plain)) n
  have hlog (a : Nat) : KeepsAt (ik n a) (plain.setCircState n 4) ((plain.setCircState n 4).logEvent 0x0701 n (d8 n ++ d8 code)) :=
    (watched_ik n a).logEvent ..
  refine ⟨(State.circState_of_keeps (hlog 7)).trans (State.circState_setCircState 4 plain), ?_, ?_, ?_⟩
  · rw [State.rdN, (hlog 0xA).rd (ownDefault_ik n _),
      (KeepsAt.setCircState hstate (by simp only [ik, twk, key]; omega) 4 plain).rd (ownDefault_ik n _)]
    exact hcode
  · rw [hisland]
    exact hcirc.1
  · rw [hisland]
    exact hcirc.2

/-- An entry of a circuit that the end of a command leaves. -/
theorem State.rdN_ik_islandSettle (n : Nat) {a : Nat} (ha : a < 256) (h : a ≠ 7 ∧ a ≠ 0xE ∧ a ≠ 0xF) (s : State) :
    s.islandSettle.rdN (ik n a) = s.rdN (ik n a) :=
  State.rdN_islandSettle (by omega) ha (by decide) (.inr ⟨by omega, h⟩) s

theorem State.Faulted.settles {code : Nat} {s : State} (hn : n < 4) (h : s.Faulted n code) : s.islandSettle.Faulted n code := by
  obtain ⟨hst, hcode, hhs, hls⟩ := h
  obtain ⟨est, ehs, els⟩ := Eases.islandSettle s hn
  exact ⟨by omega, (State.rdN_ik_islandSettle n (by decide) (by decide) s).trans hcode, ehs hhs, els hls⟩

theorem State.faulted_coilOver {ma : Nat} {s : State} (hn : n < 4) (h : s.circState n ≠ 4) (hma : 650 < ma) : (s.coilOver n ma).Faulted n 6 := by
  have hst : (s.wr (ik n 9) (min 65535 ma : Nat)).circState n = s.circState n :=
    State.circState_of_keeps (.wr (by simp only [ik, key]; omega) _ s)
  unfold State.coilOver
  rw [if_neg (by omega)]
  exact (State.faulted_circFault (hst ▸ h)).settles hn

theorem State.faulted_mismatch {v : NodeVolts} {s : State} (hn : n < 4) (h : s.circState n ≠ 4) (hp : (s.circ n).pulse = none)
    (hv : patOf v ≠ expected (s.circ n).hs (s.circ n).ls) (hdue : (s.circ n).cmdAt + Time.ms 2 ≤ s.now) :
    (s.mismatch n v).Faulted n (patternCode (s.circ n).hs (s.circ n).ls (patOf v)) := by
  unfold State.mismatch
  dsimp only
  rw [if_neg (by simp [h, hp, hv, hdue])]
  exact (State.faulted_circFault h).settles hn

theorem State.faulted_closingTime {s : State} (hn : n < 4) (h : s.circState n = 2) (hseen : (s.circ n).seen = true) (hfb : s.rdB (ik n 3) = true)
    (hdue : (s.circ n).stepAt + Time.ms (s.rdN (ik n 4)) ≤ s.now) : (s.closingTimeUp n).Faulted n 7 := by
  unfold State.closingTimeUp
  dsimp only
  rw [if_neg (by simp [h, hseen, hdue]), if_pos hfb]
  exact (State.faulted_circFault (by omega)).settles hn

/-! ### Closed -/

theorem State.circClosed_closes (n : Nat) (s : State) : (s.circClosed n).circState n = 3 ∧ ((s.circClosed n).circ n).step = 0 ∧
    (s.circClosed n).rdN (ik n 0xD) = (s.rdN (ik n 0xD) + 1) % 2 ^ 32 := by
  unfold State.circClosed
  dsimp only
  refine ⟨State.circState_setCircState 3 _, ?_, ?_⟩
  · rw [State.circ_of_island (State.island_setCircState 3 _)]
    exact congrArg IslandCirc.step (State.circ_setCirc_same n { (s.circ n) with step := 0, req := 0 } s)
  · rw [State.rdN, (KeepsAt.setCircState (k := ik n 0xD) (by simp only [ik, key]; omega) (by simp only [ik, twk, key]; omega) 3 _).rd (ownDefault_ik n _)]
    exact State.rdN_inc_same (ik n 0xD) 1 (s.setCirc n { (s.circ n) with step := 0, req := 0 })

/-- A circuit that has become Closed stays so at the end of the command, where it is under no demand. -/
theorem State.circClosed_settles {s : State} (hn : n < 4) : (s.circClosed n).islandSettle.rdN (ik n 0xD) = (s.rdN (ik n 0xD) + 1) % 2 ^ 32 ∧
    (((s.circClosed n).islandStatus.actMask (s.circClosed n).islandStatus.standing).testBit n = false →
      (s.circClosed n).islandSettle.circState n = 3 ∧ ((s.circClosed n).islandSettle.circ n).step = 0) := by
  obtain ⟨hst, hstep, hcount⟩ := s.circClosed_closes n
  refine ⟨(State.rdN_ik_islandSettle n (by decide) (by decide) _).trans hcount, fun hfree => ?_⟩
  obtain ⟨hcirc, hkeep⟩ := State.undemanded [] (s.circClosed n).islandStatus hn (by rwa [List.append_nil])
  have hstatus (u : State) : KeepsAt (ik n 7) u u.islandStatus := .islandStatus u (by simp only [OffStatus, ik, key]; omega)
  have hrecord (u : State) : u.islandStatus.circ n = u.circ n := State.circ_of_island u.island_islandStatus n
  refine ⟨?_, ?_⟩
  · exact (State.circState_of_keeps (((hstatus _).trans (hkeep 7 (by decide))).trans (hstatus _))).trans hst
  · unfold State.islandSettle
    rw [hrecord, hcirc, hrecord]
    exact hstep

theorem State.feedbackClosed_eq {s : State} (h : s.circState n = 2) (hseen : (s.circ n).seen = true) (hfb : s.rdB (ik n 3) = true) :
    s.feedbackClosed n = (s.circClosed n).islandSettle := by
  unfold State.feedbackClosed
  rw [if_pos (by simp [h, hseen, hfb])]

theorem State.closingTimeUp_eq {s : State} (h : s.circState n = 2) (hseen : (s.circ n).seen = true) (hfb : s.rdB (ik n 3) = false)
    (hdue : (s.circ n).stepAt + Time.ms (s.rdN (ik n 4)) ≤ s.now) : s.closingTimeUp n = (s.circClosed n).islandSettle := by
  unfold State.closingTimeUp
  dsimp only
  rw [if_neg (by simp [h, hseen, hdue]), if_neg (by simp [hfb])]

/-! ### Opening -/

theorem State.safeStop_stops {k : Nat} (hk : k < 2) (low : Bool) (s : State) : (s.safeStop k low).bit (key 0x7830 3) k = low ∧
    (low = true → ∀ n : CircuitNo, (s.rdN (key 0x7830 (1 + k))).testBit n = true → (s.safeStop k low).circState n = 0 ∨ (s.safeStop k low).circState n = 4) := by
  have hset : (s.setBit (key 0x7830 3) k low).bit (key 0x7830 3) k = low := State.bit_setBit_same ..
  have hmask : (s.setBit (key 0x7830 3) k low).rdN (key 0x7830 (1 + k)) = s.rdN (key 0x7830 (1 + k)) :=
    State.rdN_setBit_ne (by simp only [key]; omega) (by simp only [OwnDefault, key]; omega) _ _ _
  have hstatus {a : Nat} (ha : a < 256) (u : State) : u.islandStatus.rdN (key 0x7830 a) = u.rdN (key 0x7830 a) := by
    have hoff : OffStatus (key 0x7830 a) := by simp only [OffStatus, key]; omega
    have hown : OwnDefault (key 0x7830 a) := by simp only [OwnDefault, key]; omega
    rw [State.rdN, State.rdN, (KeepsAt.islandStatus u hoff).rd hown]
  unfold State.safeStop
  refine ⟨?_, fun hlow n hn => ?_⟩
  · rw [State.bit, State.rdN_islandSettle (by decide) (by decide) (by decide) (by decide)]
    exact hset
  · have hbit : (s.setBit (key 0x7830 3) k low).islandStatus.bit (key 0x7830 3) k = true :=
      (congrArg (Nat.testBit · k) (hstatus (by decide) _)).trans (hset.trans hlow)
    have hn' : ((s.setBit (key 0x7830 3) k low).islandStatus.rdN (key 0x7830 (1 + k))).testBit n = true :=
      (congrArg (Nat.testBit · n.val) ((hstatus (by omega) _).trans hmask)).trans hn
    exact State.Demanded.settles n.isLt (.inr (.inr (.inr (.inr (.inl ⟨k, hk, hbit, hn'⟩)))))

theorem State.hostOpenEff_opens (hn : n < 4) (s : State) : ((hostOpenEff n).eff s).circState n = 0 ∨ ((hostOpenEff n).eff s).circState n = 4 := by
  have hmask : (s.actMask (s.standing ++ [⟨5, n, 2 ^ n⟩])).testBit n = true :=
    (State.testBit_actMask _ _ s).2 (.inl ((testBit_demandMask _ n).2 ⟨⟨5, n, 2 ^ n⟩, by simp, by simp⟩))
  exact (Eases.islandStatus _ n).resting (State.circState_demandsWith _ s hn hmask)

/-! ### Closing by the host -/

theorem State.startProof_starts (kind : Nat) (s : State) : (s.startProof n kind).circState n = 1 ∧ ∃ c : IslandCirc,
    (s.startProof n kind).circ n = c ∧ c.step = 1 ∧ c.req = kind ∧ c.hs = false ∧ c.ls = false := by
  obtain ⟨at_, h⟩ := State.circ_switches_same (n := n) false false s
  unfold State.startProof
  dsimp only
  refine ⟨State.circState_setCircState 1 _, _, State.circ_of_island (State.island_setCircState 1 _) n, ?_⟩
  rw [State.circ_setCirc_same, h]
  exact ⟨rfl, rfl, rfl, rfl⟩

theorem State.standing_setCirc (m : Nat) (c : IslandCirc) (s : State) : (s.setCirc m c).standing = s.standing := rfl

theorem State.mayClose_setCirc (m : Nat) (c : IslandCirc) (s : State) : (s.setCirc m c).mayClose n = s.mayClose n := by
  unfold State.mayClose
  rw [State.standing_setCirc]
  rfl

theorem State.requestOk_setCirc (m : Nat) (c : IslandCirc) (s : State) : (s.setCirc m c).requestOk n 1 = s.requestOk n 1 := rfl

/-- The host's close command starts a proof test where the circuit may close and is idle. -/
theorem State.takeRequest_host {s : State} (hm : s.mayClose n = true) (hok : s.requestOk n 1 = true) (hp : (s.circ n).pulse = none)
    (hstep : (s.circ n).step = 0) (hreq : (s.circ n).hostReq = true) : ∃ u : State, s.takeRequest n = u.startProof n 1 := by
  unfold State.takeRequest
  dsimp only
  generalize hu : (if ((s.circ n).spent && !s.twinShows n) = true then s.setCirc n { (s.circ n) with spent := false } else s) = u
  have hcirc : (u.circ n).pulse = none ∧ (u.circ n).step = 0 ∧ (u.circ n).hostReq = true := by
    rw [← hu]
    split
    · rw [State.circ_setCirc_same]
      exact ⟨hp, hstep, hreq⟩
    · exact ⟨hp, hstep, hreq⟩
  have hmay : u.mayClose n = true := by
    rw [← hu]
    exact (State.same_ite (State.mayClose n) (State.mayClose_setCirc ..) rfl).trans hm
  have hok' : u.requestOk n 1 = true := by
    rw [← hu]
    exact (State.same_ite (State.requestOk n 1) (State.requestOk_setCirc ..) rfl).trans hok
  obtain ⟨hp', hstep', hreq'⟩ := hcirc
  rw [if_neg (by simp [hmay, hp', hstep']), if_pos hreq', if_pos hok']
  exact ⟨u, rfl⟩

/-- Circuit n runs the proof test of a request of this kind. -/
def State.Proves (n kind : Nat) (s : State) : Prop :=
  s.circState n = 1 ∧ (s.circ n).step = 1 ∧ (s.circ n).req = kind ∧ (s.circ n).hs = false ∧ (s.circ n).ls = false

theorem State.hostCloseEff_proves {s : State} (hown : hostCloseOwn n s = 0) (hp : (s.circ n).pulse = none) (hstep : (s.circ n).step = 0) :
    ((hostCloseEff n).eff s).Proves n 1 := by
  obtain ⟨hmay, hok⟩ : s.mayClose n = true ∧ s.requestOk n 1 = true := by
    unfold hostCloseOwn at hown
    split at hown
    · contradiction
    · split at hown
      · contradiction
      case isFalse h =>
        simp only [Bool.or_eq_true, Bool.not_eq_true', not_or, Bool.not_eq_false] at h
        exact h.1
  unfold hostCloseEff
  dsimp only
  generalize hasked : s.setCirc n { (s.circ n) with hostReq := true } = asked
  have hcirc : asked.circ n = { s.circ n with hostReq := true } := by rw [← hasked, State.circ_setCirc_same]
  obtain ⟨u, hu⟩ := State.takeRequest_host (n := n) (s := asked) (by rw [← hasked, State.mayClose_setCirc, hmay])
    (by rw [← hasked, State.requestOk_setCirc, hok]) (by rw [hcirc]; exact hp) (by rw [hcirc]; exact hstep) (by rw [hcirc])
  rw [hu]
  obtain ⟨hst, c, hc, h1, h2, h3, h4⟩ := State.startProof_starts (n := n) 1 u
  have hrecord : (u.startProof n 1).islandStatus.circ n = c := (State.circ_of_island (State.island_islandStatus _) n).trans hc
  refine ⟨(State.circState_of_keeps (.islandStatus _ (by simp only [OffStatus, ik, key]; omega))).trans hst, ?_, ?_, ?_, ?_⟩
  all_goals rw [hrecord]; assumption

/-! ### Acknowledgement by the host -/

theorem State.startAck_starts {s : State} (h4 : s.circState n = 4) (hstep : (s.circ n).step = 0) : ∃ c : IslandCirc, (s.startAck n true).circ n = c ∧
    c.step = 1 ∧ c.stepAt = s.now ∧ c.ack = true ∧ c.ackHost = true ∧ c.ackSid = s.srv.cur ∧ c.hs = false ∧ c.ls = false := by
  obtain ⟨at_, h⟩ := State.circ_switches_same (n := n) false false s
  have hnow : (s.switches n false false).now = s.now := State.same_ite State.now rfl rfl
  have hsrv : (s.switches n false false).srv = s.srv := State.same_ite State.srv rfl rfl
  unfold State.startAck
  rw [if_neg (by simp [h4, hstep])]
  dsimp only
  refine ⟨_, State.circ_setCirc_same .., ?_⟩
  rw [h, hnow, hsrv]
  exact ⟨rfl, rfl, rfl, rfl, rfl, rfl, rfl⟩

theorem State.startAck_now (host : Bool) (s : State) : (s.startAck n host).now = s.now := (State.startAck_kept (Sub.refl _) (Kept.refl _ s)).now

/-! ### Test pulses -/

/-- A pulse starts on an idle circuit that is Open or Closed. -/
theorem State.startPulse_starts {low : Bool} {s : State} (hrun : s.islandState = 2) (hp : (s.circ n).pulse = none) (hstep : (s.circ n).step = 0)
    (hst : s.circState n = 0 ∨ s.circState n = 3) : (s.startPulse n low).now = s.now ∧ ∃ at_, (s.startPulse n low).circ n =
      { s.circ n with hs := (if s.circState n = 3 then low else !low), ls := (if s.circState n = 3 then !low else low), cmdAt := at_, pulse := some (low, s.now) } := by
  have hidle : (decide (s.islandState ≠ 2) || (s.circ n).pulse.isSome || decide ((s.circ n).step ≠ 0) ||
      (decide (s.circState n ≠ 0) && decide (s.circState n ≠ 3))) = false := by
    obtain h | h := hst <;> simp [hrun, hp, hstep, h]
  have hsw (hs ls : Bool) : ∃ at_, (s.switches n hs ls).now = s.now ∧
      (s.switches n hs ls).circ n = { s.circ n with hs := hs, ls := ls, cmdAt := at_ } := by
    obtain ⟨at_, h⟩ := State.circ_switches_same (n := n) hs ls s
    exact ⟨at_, State.same_ite State.now rfl rfl, h⟩
  unfold State.startPulse
  dsimp only
  rw [hidle, if_neg Bool.false_ne_true]
  split
  · obtain ⟨at_, hnow, h⟩ := hsw low (!low)
    exact ⟨hnow, at_, by rw [State.circ_setCirc_same, h, hnow]⟩
  · obtain ⟨at_, hnow, h⟩ := hsw (!low) low
    exact ⟨hnow, at_, by rw [State.circ_setCirc_same, h, hnow]⟩

theorem State.pulseRetry_starts {low : Bool} {at_ : Time} {s : State} (hrun : s.islandState = 2) (hp : (s.circ n).pulse = none)
    (hstep : (s.circ n).step = 0) (hst : s.circState n = 3 ∨ s.circState n = 0) (hretry : (s.circ n).retry = some (low, at_)) (hdue : at_ ≤ s.now) :
    (s.pulseRetry n low).now = s.now ∧ ((s.pulseRetry n low).circ n).pulse = some (low, s.now) ∧ ((s.pulseRetry n low).circ n).retry = none := by
  have hpass : (decide (low = low) && decide (at_ ≤ s.now) && (s.circ n).pulse.isNone && decide ((s.circ n).step = 0) && decide (s.islandState = 2) &&
      decide (s.circState n ≠ 4)) = true := by
    obtain h | h := hst <;> simp [hrun, hp, hstep, h, hdue]
  have heq : s.pulseRetry n low = (s.setCirc n { (s.circ n) with retry := none }).startPulse n low := by
    unfold State.pulseRetry
    dsimp only
    rw [hretry]
    exact if_pos hpass
  generalize hready : s.setCirc n { (s.circ n) with retry := none } = ready at heq
  have hcirc : ready.circ n = { s.circ n with retry := none } := by rw [← hready, State.circ_setCirc_same]
  have hstate : ready.circState n = s.circState n := by rw [← hready]; rfl
  have hnow : ready.now = s.now := by rw [← hready]; rfl
  have hisland : ready.islandState = 2 := by rw [← hready]; exact hrun
  obtain ⟨hsame, at', h⟩ := State.startPulse_starts (low := low) hisland (by rw [hcirc]; exact hp) (by rw [hcirc]; exact hstep) (by rw [hstate]; exact hst.symm)
  rw [heq, h, hsame, hnow, hcirc]
  exact ⟨rfl, rfl, rfl⟩

/-! ### The statement -/

theorem State.circ_longBy (q : Req) (was : Nat) (s : State) : (s.longBy q was).circ n = s.circ n := State.circ_of_island (State.longBy_island ..) n

theorem State.circState_longBy (q : Req) (was : Nat) (s : State) : (s.longBy q was).circState n = s.circState n := State.rdN_longBy ..

theorem State.hostOpen_completes {q : Req} {n : CircuitNo} {s : State} (hs : s.Serves) (hp : s.Passes q (0x7820 + n) 0xB 0 2) :
    ((s.hostWrite q (0x7820 + n) 0xB 0 2 (hostOpenEff n)).circState n = 0 ∨ (s.hostWrite q (0x7820 + n) 0xB 0 2 (hostOpenEff n)).circState n = 4) ∧
    (s.hostWrite q (0x7820 + n) 0xB 0 2 (hostOpenEff n)).Answered 0 := by
  have hopens := State.hostOpenEff_opens n.isLt (s.handling q.sid)
  rw [State.hostWrite_replies hs hp rfl rfl]
  generalize (hostOpenEff n).eff (s.handling q.sid) = u at hopens ⊢
  exact ⟨by rw [State.circState_longBy]; exact hopens, State.answered_answer_longBy ..⟩

theorem State.hostCloseOwn_handling (n sid : Nat) (s : State) : hostCloseOwn n (s.handling sid) = hostCloseOwn n s := by
  have hst : (s.handling sid).standing = s.standing := rfl
  unfold hostCloseOwn State.mayClose
  rw [hst]
  rfl

theorem State.hostClose_closes {q : Req} {n : CircuitNo} {s : State} (hs : s.Serves) (hp : s.Passes q (0x7820 + n) 0xB 0 1)
    (hown : hostCloseOwn n s = 0) (hpulse : (s.circ n).pulse = none) (hstep : (s.circ n).step = 0) :
    (s.hostWrite q (0x7820 + n) 0xB 0 1 (hostCloseEff n)).Proves n 1 ∧ (s.hostWrite q (0x7820 + n) 0xB 0 1 (hostCloseEff n)).Answered 0 := by
  have hown' : hostCloseOwn n (s.handling q.sid) = 0 := (State.hostCloseOwn_handling ..).trans hown
  have hproves := State.hostCloseEff_proves (s := s.handling q.sid) hown' hpulse hstep
  rw [State.hostWrite_replies hs hp hown' rfl]
  generalize (hostCloseEff n).eff (s.handling q.sid) = u at hproves ⊢
  refine ⟨?_, State.answered_answer_longBy ..⟩
  unfold State.Proves
  rw [State.circState_longBy, State.circ_longBy]
  exact hproves

theorem State.hostClose_refused {q : Req} {n : CircuitNo} {s : State} (hs : s.Serves) (hp : s.Passes q (0x7820 + n) 0xB 0 1)
    (hown : hostCloseOwn n s ≠ 0) : (s.hostWrite q (0x7820 + n) 0xB 0 1 (hostCloseEff n)).island = s.island ∧
    (s.hostWrite q (0x7820 + n) 0xB 0 1 (hostCloseEff n)).Answered (hostCloseOwn n s) := by
  rw [State.hostWrite_fails hs hp (State.hostCloseOwn_handling n q.sid s) hown]
  exact ⟨State.longBy_island .., State.answered_answer_longBy ..⟩

theorem State.acknowledge_starts {q : Req} {n : CircuitNo} {s : State} (hs : s.Serves) (hp : s.Passes q (0x7820 + n) 0xC 0 1)
    (h4 : s.circState n = 4) (hstep : (s.circ n).step = 0) : ∃ c : IslandCirc, (s.hostWrite q (0x7820 + n) 0xC 0 1 (ackEff n)).circ n = c ∧
      c.step = 1 ∧ c.stepAt = (s.hostWrite q (0x7820 + n) 0xC 0 1 (ackEff n)).now ∧ c.ack = true ∧ c.ackHost = true ∧ c.ackSid = q.sid ∧
      c.hs = false ∧ c.ls = false := by
  have h4' : (s.handling q.sid).circState n = 4 := h4
  have hstep' : ((s.handling q.sid).circ n).step = 0 := hstep
  have hown : (ackEff n).own (s.handling q.sid) = 0 := needs_of_true (by simp [hstep]) _
  have heff : (ackEff n).eff (s.handling q.sid) = (s.handling q.sid).startAck n true := if_neg (by simp [h4'])
  obtain ⟨c, hc, h1, h2, hrest⟩ := State.startAck_starts (n := n) h4' hstep'
  rw [State.hostWrite_own hs hp hown rfl, heff]
  exact ⟨c, (State.circ_longBy ..).trans hc, h1, h2.trans (by rw [State.longBy_now, State.startAck_now]), hrest⟩

theorem State.acknowledge_busy {q : Req} {n : CircuitNo} {s : State} (hs : s.Serves) (hp : s.Passes q (0x7820 + n) 0xC 0 1)
    (h4 : s.circState n = 4) (hstep : (s.circ n).step ≠ 0) : (s.hostWrite q (0x7820 + n) 0xC 0 1 (ackEff n)).island = s.island ∧
      (s.hostWrite q (0x7820 + n) 0xC 0 1 (ackEff n)).Answered 0x0B0000B2 := by
  have h4' : (s.handling q.sid).circState n = 4 := h4
  have hstep' : ((s.handling q.sid).circ n).step ≠ 0 := hstep
  have hown : (ackEff n).own (s.handling q.sid) = 0x0B0000B2 := needs_of_false (by simp [h4', hstep]) _
  rw [State.hostWrite_fails hs hp hown (by decide)]
  exact ⟨State.longBy_island .., State.answered_answer_longBy ..⟩

theorem State.acknowledge_nothing {q : Req} {n : CircuitNo} {s : State} (hs : s.Serves) (hp : s.Passes q (0x7820 + n) 0xC 0 1)
    (h4 : s.circState n ≠ 4) : (s.hostWrite q (0x7820 + n) 0xC 0 1 (ackEff n)).island = s.island ∧
      (s.hostWrite q (0x7820 + n) 0xC 0 1 (ackEff n)).Answered 0 := by
  have h4' : (s.handling q.sid).circState n ≠ 4 := h4
  have hown : (ackEff n).own (s.handling q.sid) = 0 := needs_of_true (by simp [h4']) _
  have heff : (ackEff n).eff (s.handling q.sid) = (s.handling q.sid).answer 0 := if_pos h4'
  rw [State.hostWrite_own hs hp hown rfl, heff]
  exact ⟨State.longBy_island .., State.answered_answer_longBy ..⟩

theorem State.rd_inputEdge {k : Nat} (hk : IslandKey k) (i : Nat) (high : Bool) (tm : Time) (s : State) : (s.inputEdge i high tm).rd k = s.rd k :=
  (KeepsAt.inputEdge hk i high tm s).rd hk.own

theorem State.bit_inputEdge (j i : Nat) (high : Bool) (tm : Time) (s : State) :
    (s.inputEdge i high tm).bit (key 0x7830 3) j = s.bit (key 0x7830 3) j := by
  rw [State.bit, State.rdN, State.rd_inputEdge (by decide)]
  rfl

theorem State.circState_inputEdge (n i : Nat) (high : Bool) (tm : Time) (s : State) : (s.inputEdge i high tm).circState n = s.circState n :=
  State.circState_of_keeps (.inputEdge (by simp only [IslandKey, ik, key]; omega) i high tm s)

/-- The end of closing at an instant u of the state s; the wiring of the bridges is as it was. -/
theorem State.circClosed_ends (hn : n < 4) (u s : State) (hod : u.od = s.od) : (u.circClosed n).islandSettle.rdN (ik n 0xD) = (s.rdN (ik n 0xD) + 1) % 2 ^ 32 ∧
    ((s.actMask (u.circClosed n).islandStatus.standing).testBit n = false →
      (u.circClosed n).islandSettle.circState n = 3 ∧ ((u.circClosed n).islandSettle.circ n).step = 0) := by
  obtain ⟨hcount, hclosed⟩ := State.circClosed_settles (s := u) hn
  have hsame : u.rdN (ik n 0xD) = s.rdN (ik n 0xD) := by rw [State.rdN, State.rdN, State.rd, State.rd, hod]
  have hwire : KeepsAt (twk 0x14) s (u.circClosed n).islandStatus := by
    refine (KeepsAt.of_eq hod).trans (KeepsAt.trans ?_ (.islandStatus _ (by decide)))
    have h7 : twk 0x14 ≠ ik n 7 := by simp only [twk, ik, key]; omega
    have hD : twk 0x14 ≠ ik n 0xD := by simp only [twk, ik, key]; omega
    exact (KeepsAt.trans (.of_eq rfl) (.wr hD _ (u.setCirc n { (u.circ n) with step := 0, req := 0 }))).trans (.setCircState h7 (by decide) 3 _)
  exact ⟨hsame ▸ hcount, fun h => hclosed ((State.testBit_actMask_congr _ hwire n).trans h)⟩

/-- Settles O37. -/
theorem circuitCommandsComplete : Obligations.CircuitCommandsComplete := by
  refine ⟨fun t rb s => ⟨_, rfl, fun n r hr => State.shows_islandCycle n.isLt hr _⟩, fun t k s => ⟨⟨_, rfl, ?_⟩, ⟨_, rfl, ?_⟩⟩,
    fun t q n s hs hp => ⟨_, rfl, State.hostOpen_completes (s := s.begin t) hs hp⟩, fun t q n s hs hp => ⟨fun hown hpulse hstep => ⟨_, rfl, ?_⟩, fun hown => ⟨_, rfl, ?_⟩⟩,
    fun t q n s hs hp => ⟨fun h4 hstep => ⟨_, rfl, ?_⟩, fun h4 hstep => ⟨_, rfl, State.acknowledge_busy (s := s.begin t) hs hp h4 hstep⟩,
      fun h4 => ⟨_, rfl, State.acknowledge_nothing (s := s.begin t) hs hp h4⟩⟩, ?_,
    fun t n s h hseen hfb hdue => ⟨_, rfl, State.faulted_closingTime (s := s.begin t) n.isLt h hseen hfb hdue⟩,
    fun t n ma s h hma => ⟨_, rfl, State.faulted_coilOver (s := s.begin t) n.isLt h hma⟩,
    fun t n v s h hp hv hdue => ⟨_, rfl, State.faulted_mismatch (s := s.begin t) n.isLt h hp hv hdue⟩,
    fun t n low s hrun hp hstep => ⟨fun h3 hdue => ⟨_, rfl, ?_⟩, fun h0 hdue => ⟨_, rfl, ?_⟩, fun at_ hst hretry hdue => ⟨_, rfl, ?_⟩⟩⟩
  · obtain ⟨hbit, hopens⟩ := State.safeStop_stops k.isLt true (s.begin t)
    refine ⟨(State.bit_inputEdge ..).trans hbit, fun n hn => ?_⟩
    rw [State.circState_inputEdge]
    exact hopens rfl n hn
  · exact (State.bit_inputEdge ..).trans (State.safeStop_stops k.isLt false (s.begin t)).1
  · obtain ⟨⟨h1, h2, h3, h4, h5⟩, hanswer⟩ := State.hostClose_closes (s := s.begin t) hs hp hown hpulse hstep
    exact ⟨h1, h2, h3, h4, h5, hanswer⟩
  · exact State.hostClose_refused (s := s.begin t) hs hp hown
  · obtain ⟨c, hc, h1, h2, h3, h4, h5, h6, h7⟩ := State.acknowledge_starts (s := s.begin t) hs hp h4 hstep
    rw [hc]
    exact ⟨h1, h2, h3, h4, h5, h6, h7⟩
  · rintro t n c s h hseen (⟨rfl, hfb⟩ | ⟨rfl, hfb, hdue⟩)
    · refine ⟨_, rfl, ?_⟩
      rw [State.feedbackClosed_eq (s := s.begin t) h hseen hfb]
      exact State.circClosed_ends n.isLt (s.begin t) s rfl
    · refine ⟨_, rfl, ?_⟩
      rw [State.closingTimeUp_eq (s := s.begin t) h hseen hfb hdue]
      exact State.circClosed_ends n.isLt (s.begin t) s rfl
  · have h3' : (s.begin t).circState n = 3 := h3
    obtain ⟨hnow, at_, h⟩ := State.startPulse_starts (low := low) (s := s.begin t) hrun hp hstep (.inr h3)
    have heq : (s.begin t).darkPulse n low = (s.begin t).startPulse n low := if_pos (by simp [h3', hdue])
    rw [heq]
    dsimp only
    rw [h, hnow, h3']
    exact ⟨rfl, rfl, rfl⟩
  · have h0' : (s.begin t).circState n = 0 := h0
    obtain ⟨hnow, at_, h⟩ := State.startPulse_starts (low := low) (s := s.begin t) hrun hp hstep (.inl h0)
    have heq : (s.begin t).brightPulse n low = (s.begin t).startPulse n low := if_pos (by simp [h0', hdue])
    rw [heq]
    dsimp only
    rw [h, hnow, h0']
    exact ⟨rfl, rfl, rfl⟩
  · obtain ⟨hnow, hpulse, hgone⟩ := State.pulseRetry_starts (s := s.begin t) hrun hp hstep hst hretry hdue
    exact ⟨hpulse.trans (by rw [hnow]), hgone⟩

end Sys2Proof.Machine
end

section
/-! Safety telegrams (R254 to R256): copies that wait, are accepted or discarded, the watchdog and the status telegram. -/

namespace Sys2Proof.Machine

/-! ### Entries of the telegrams -/

theorem ownDefault_tele (a e : Nat) : OwnDefault (key 0x7840 a e) := by
  simp only [OwnDefault, key]
  omega

theorem State.rdN_tele_islandSettle {a e : Nat} (ha : a < 256) (he : e < 256) (s : State) : s.islandSettle.rdN (key 0x7840 a e) = s.rdN (key 0x7840 a e) :=
  State.rdN_islandSettle (by decide) ha he (.inl ⟨by decide, .inl (by decide)⟩) s

theorem State.rdN_tele_islandStatus {a e : Nat} (ha : a < 256) (s : State) : s.islandStatus.rdN (key 0x7840 a e) = s.rdN (key 0x7840 a e) := by
  have hoff : OffStatus (key 0x7840 a e) := by simp only [OffStatus, key]; omega
  rw [State.rdN, State.rdN, (KeepsAt.islandStatus s hoff).rd (ownDefault_tele a e)]

theorem State.rdN_tele_wr {a b e f : Nat} (h : key 0x7840 a e ≠ key 0x7840 b f) (v : Int) (s : State) :
    (s.wr (key 0x7840 b f) v).rdN (key 0x7840 a e) = s.rdN (key 0x7840 a e) := State.rdN_wr_ne h (ownDefault_tele a e) v s

/-! ### What a telegram is checked against -/

theorem islandSettings_off : ∀ e ∈ islandSettings, key e.1 e.2 ≠ key 0x7840 6 ∧ IslandKey (key e.1 e.2) := by
  unfold islandSettings
  simp only [List.forall_mem_append]
  decide

theorem State.settingsCrc_wr (v : Int) (s : State) : (s.wr (key 0x7840 6) v).settingsCrc = s.settingsCrc := by
  unfold State.settingsCrc
  refine congrArg (crc32c 0xFFFFFFFF) (List.flatMap_congr fun e he => ?_)
  obtain ⟨hne, hk⟩ := islandSettings_off e he
  rw [State.rd_wr_ne hne hk.own]

theorem State.teleHeader_wr (v : Int) (l : List Byte) (s : State) : (s.wr (key 0x7840 6) v).teleHeader l = s.teleHeader l := by
  unfold State.teleHeader
  rw [State.rdN_tele_wr (by decide), State.rdN_tele_wr (by decide)]

theorem State.teleCrc_wr (v : Int) (l : List Byte) (s : State) : (s.wr (key 0x7840 6) v).teleCrc l = s.teleCrc l := by
  unfold State.teleCrc
  rw [State.rdN_tele_wr (by decide)]

/-! ### The second copy -/

/-- The machine once the partner of the waiting copy has come: no copy waits, both ports have delivered. -/
def State.paired (s : State) : State :=
  ({ s with island := { s.island with copies := [] } } : State).wr (key 0x7840 6) (s.rdN (key 0x7840 6) ||| 6 : Nat)

theorem State.telegram_pairs {portB : Bool} {l : List Byte} {c : TeleCopy} {s : State} (hon : s.rdB (key 0x7840 1) = true)
    (hnew : s.seqAccepted (leAt 0xC 4 l) = false) (hc : s.island.copies = [c]) (hport : c.portB = !portB) (hdue : s.now ≤ c.at_ + Time.ms 10) :
    s.telegram portB l = s.paired.telePair c.bytes l := by
  have hother : (c.portB != portB) = true := by rw [hport]; cases portB <;> rfl
  have hfind : s.island.copies.find? (fun c => c.portB != portB && decide (s.now ≤ c.at_ + Time.ms 10)) = some c := by
    rw [hc, List.find?_cons_of_pos (by simp [hother, hdue])]
  have hnone : s.island.copies.filter (· != c) = [] := by simp [hc]
  unfold State.telegram
  rw [if_neg (by simp [hon, hnew])]
  dsimp only
  rw [hfind]
  dsimp only
  rw [hnone]
  rfl

theorem State.telegram_waits {portB : Bool} {l : List Byte} {s : State} (hon : s.rdB (key 0x7840 1) = true)
    (hnew : s.seqAccepted (leAt 0xC 4 l) = false) (hc : s.island.copies = []) : (s.telegram portB l).island.copies = [⟨portB, s.now, l⟩] ∧
    (s.telegram portB l).bit (key 0x7840 6) 1 = !portB ∧ (s.telegram portB l).bit (key 0x7840 6) 2 = portB ∧
    (s.telegram portB l).island.lastSeq = s.island.lastSeq ∧ (s.telegram portB l).now = s.now := by
  unfold State.telegram
  rw [if_neg (by simp [hon, hnew])]
  dsimp only
  rw [hc]
  exact ⟨rfl, (State.bit_setBit_other (by decide) _ _ _).trans (State.bit_setBit_same ..), State.bit_setBit_same .., rfl, rfl⟩

theorem State.noPartner_drops {c : TeleCopy} {s : State} (hc : s.island.copies = [c]) (hdue : c.at_ + Time.ms 10 ≤ s.now) :
    s.noPartner.island.copies = [] ∧ s.noPartner.rdN (key 0x7840 8 1) = (s.rdN (key 0x7840 8 1) + 1) % 2 ^ 32 := by
  have hold : [c].filter (fun c => decide (c.at_ + Time.ms 10 ≤ s.now)) = [c] := by simp [hdue]
  have hlate : [c].filter (fun c => decide (s.now < c.at_ + Time.ms 10)) = [] := by simp [hdue]
  unfold State.noPartner
  dsimp only
  rw [hc, hold, hlate]
  exact ⟨rfl, State.rdN_inc_same (key 0x7840 8 1) 1 { s with island := _ }⟩

/-! ### Acceptance -/

theorem CircsOnly.startAck (n : Nat) (host : Bool) (s : State) : CircsOnly s (s.startAck n host) :=
  EventRel.of_ite (.of_eq rfl) ((CircsOnly.switches n false false s).trans (.setCirc ..))

theorem State.od_startAck (n : Nat) (host : Bool) (s : State) : (s.startAck n host).od = s.od :=
  State.same_ite State.od rfl (State.od_switches false false s)

theorem CircsOnly.frameSource (type sel : Nat) (bytes : List Byte) (tm : Time) (s : State) : CircsOnly s (s.frameSource type sel bytes tm) :=
  .of_eq ((State.frameSource_kept (Sub.refl _) (Kept.refl _ s)).islandSame rfl)

/-- What an accepted command writes before the units and the acknowledgements see it. -/
def State.accepted (l : List Byte) (s : State) : State :=
  let w := leAt 0x18 2 l
  let seq := leAt 0xC 4 l
  let near := s.island.accepted.filter (fun x => decide ((seq + 2 ^ 32 - x) % 2 ^ 32 < 2 ^ 31))
  let s := { s with island := { s.island with
    lastSeq := some seq, accepted := near ++ s.island.lastSeq.toList, lastCmd := s.now, cmdIn := s.islandState == 2 || s.island.cmdIn } }
  ((s.inc (key 0x7840 7)).wr (key 0x7840 0xA) w).setBit (key 0x7840 6) 0 false

theorem State.rdN_accepted (l : List Byte) (s : State) : (s.accepted l).rdN (key 0x7840 0xA) = leAt 0x18 2 l ∧
    (s.accepted l).rdN (key 0x7840 7) = (s.rdN (key 0x7840 7) + 1) % 2 ^ 32 ∧ (s.accepted l).bit (key 0x7840 6) 0 = false := by
  unfold State.accepted
  dsimp only
  refine ⟨?_, ?_, State.bit_setBit_same ..⟩
  · rw [State.setBit, State.rdN_tele_wr (by decide), State.rdN_wr_same, Int.toNat_natCast]
  · rw [State.setBit, State.rdN_tele_wr (by decide), State.rdN_tele_wr (by decide)]
    exact State.rdN_inc_same (key 0x7840 7) 1 { s with island := _ }

/-- Up to the end of the command an accepted telegram keeps what it has written, and changes the island's circuits alone. -/
theorem State.teleAccept_ends (l : List Byte) (s : State) : ∃ v : State, s.teleAccept l = v.islandSettle ∧ CircsOnly (s.accepted l) v ∧
    ∀ k, IslandKey k → KeepsAt k (s.accepted l) v := by
  have hack (u : State) : CircsOnly u (u.each (List.range 4) fun n => State.startAck n false) ∧
      ∀ k, KeepsAt k u (u.each (List.range 4) fun n => State.startAck n false) :=
    ⟨.each (fun n t => .startAck n false t) _ u, fun k => .each (fun n _ t => .of_eq (State.od_startAck n false t)) u⟩
  have hsource (u : State) (tm : Time) : CircsOnly u (u.frameSource 9 0 (d16 (leAt 0x18 2 l)) tm) ∧
      ∀ k, IslandKey k → KeepsAt k u (u.frameSource 9 0 (d16 (leAt 0x18 2 l)) tm) :=
    ⟨.frameSource .., fun k hk => .frameSource hk ..⟩
  refine ⟨_, rfl, ?_, fun k hk => ?_⟩
  · exact (hsource (s.accepted l) _).1.trans (EventRel.of_ite (hack _).1 (.of_eq rfl))
  · exact ((hsource (s.accepted l) _).2 k hk).trans (.of_ite ((hack _).2 k) (.of_eq rfl))

theorem State.island_accepted (l : List Byte) (s : State) : (s.accepted l).island.copies = s.island.copies ∧
    (s.accepted l).island.lastSeq = some (leAt 0xC 4 l) ∧ (s.accepted l).island.lastCmd = s.now := ⟨rfl, rfl, rfl⟩

theorem State.teleAccept_accepts (l : List Byte) (s : State) : (s.teleAccept l).island.copies = s.island.copies ∧
    (s.teleAccept l).island.lastSeq = some (leAt 0xC 4 l) ∧ (s.teleAccept l).island.lastCmd = s.now ∧
    (s.teleAccept l).rdN (key 0x7840 0xA) = leAt 0x18 2 l ∧ (s.teleAccept l).rdN (key 0x7840 7) = (s.rdN (key 0x7840 7) + 1) % 2 ^ 32 ∧
    (s.teleAccept l).bit (key 0x7840 6) 0 = false ∧
    ((leAt 0x18 2 l).testBit 8 = true → ∀ n : CircuitNo, (s.teleAccept l).circState n = 0 ∨ (s.teleAccept l).circState n = 4) := by
  obtain ⟨v, heq, hcircs, hkeep⟩ := s.teleAccept_ends l
  obtain ⟨c, d, hi⟩ := hcircs.trans (CircsOnly.islandSettle v)
  obtain ⟨hcopies, hseq, hcmd⟩ := s.island_accepted l
  obtain ⟨hword, hcount, hbit⟩ := s.rdN_accepted l
  have hv {a : Nat} (ha : a < 256) : v.rdN (key 0x7840 a) = (s.accepted l).rdN (key 0x7840 a) :=
    congrArg Int.toNat ((hkeep _ (by simp only [IslandKey, key]; omega)).rd (ownDefault_tele a 0))
  have hrd {a : Nat} (ha : a < 256) : v.islandSettle.rdN (key 0x7840 a) = (s.accepted l).rdN (key 0x7840 a) :=
    (State.rdN_tele_islandSettle ha (by decide) v).trans (hv ha)
  rw [heq, hi]
  refine ⟨hcopies, hseq, hcmd, (hrd (by decide)).trans hword, (hrd (by decide)).trans hcount,
    (congrArg (Nat.testBit · 0) (hrd (by decide))).trans hbit, fun htrip n => ?_⟩
  have hw : v.islandStatus.rdN (key 0x7840 0xA) = leAt 0x18 2 l := (State.rdN_tele_islandStatus (by decide) v).trans ((hv (by decide)).trans hword)
  have hdemand : v.islandStatus.teleDemand.testBit n = true := by
    unfold State.teleDemand
    dsimp only
    rw [hw, htrip, if_pos rfl, Nat.testBit_or, testBit_fifteen n.isLt, Bool.true_or]
  exact State.Demanded.settles n.isLt (.inr (.inr (.inl hdemand)))

theorem State.telePair_accepts {l : List Byte} {s : State} (hh : s.teleHeader l = true) (hcrc : s.teleCrc l = true)
    (hseq : ∀ k, s.island.lastSeq = some k → 1 ≤ (leAt 0xC 4 l + 2 ^ 32 - k) % 2 ^ 32 ∧ (leAt 0xC 4 l + 2 ^ 32 - k) % 2 ^ 32 ≤ 3)
    (hset : leAt 0x1C 4 l = s.settingsCrc) : s.telePair l l = s.teleAccept l := by
  have hok : (match s.island.lastSeq with
      | some k => let d := (leAt 0xC 4 l + 2 ^ 32 - k) % 2 ^ 32; decide (1 ≤ d) && decide (d ≤ 3)
      | none => true) = true := by
    cases h : s.island.lastSeq with
    | none => rfl
    | some k =>
      obtain ⟨h1, h3⟩ := hseq k h
      simp only [h1, h3, decide_true, Bool.and_self]
  unfold State.telePair
  dsimp only
  rw [if_neg (by simp [hh]), if_neg (by simp [hcrc]), if_neg (by simp), if_neg (by rw [Bool.not_eq_true', Bool.not_eq_false]; exact hok),
    if_neg (by simp [hset])]

theorem State.telePair_badCrc {l : List Byte} {s : State} (hh : s.teleHeader l = true) (hcrc : s.teleCrc l = false) :
    s.telePair l l = s.teleDiscard 3 := by
  unfold State.telePair
  dsimp only
  rw [if_neg (by simp [hh]), if_pos (by simp [hcrc])]

/-! ### The watchdog and the status telegram -/

theorem State.testBit_teleRequired {n : Nat} (hn : n < 4) (s : State) : s.teleRequired.testBit n = s.rdB (ik n 2) := by
  have hbits : ∀ a b c d : Bool, ∀ n < 4, (b2n a * 2 ^ 0 + (b2n b * 2 ^ 1 + (b2n c * 2 ^ 2 + (b2n d * 2 ^ 3 + 0)))).testBit n = [a, b, c, d].getD n false := by
    decide
  have h := hbits (s.rdB (ik 0 2)) (s.rdB (ik 1 2)) (s.rdB (ik 2 2)) (s.rdB (ik 3 2)) n hn
  refine Eq.trans h ?_
  obtain rfl | rfl | rfl | rfl : n = 0 ∨ n = 1 ∨ n = 2 ∨ n = 3 := by omega
  all_goals rfl

theorem State.teleWatchdog_trips {s : State} (hon : s.rdB (key 0x7840 1) = true) (hnot : s.bit (key 0x7840 6) 0 = false)
    (hdue : s.island.lastCmd + Time.ms 60 ≤ s.now) : s.teleWatchdog.bit (key 0x7840 6) 0 = true ∧
    s.teleWatchdog.rdN (key 0x7840 9) = (s.rdN (key 0x7840 9) + 1) % 2 ^ 32 ∧
    ∀ n : CircuitNo, s.rdB (ik n 2) = true → s.teleWatchdog.circState n = 0 ∨ s.teleWatchdog.circState n = 4 := by
  have heq : s.teleWatchdog = ((s.wr (key 0x7840 6) 1).inc (key 0x7840 9)).islandSettle := by
    unfold State.teleWatchdog
    rw [if_neg (by simp [hon, hnot, hdue])]
  have hbit : ((s.wr (key 0x7840 6) 1).inc (key 0x7840 9)).rdN (key 0x7840 6) = 1 :=
    (State.rdN_tele_wr (by decide) _ _).trans (State.rdN_wr_same ..)
  rw [heq]
  refine ⟨?_, ?_, fun n hn => ?_⟩
  · rw [State.bit, State.rdN_tele_islandSettle (by decide) (by decide), hbit]
    rfl
  · rw [State.rdN_tele_islandSettle (by decide) (by decide), State.rdN_inc_same, State.rdN_tele_wr (by decide)]
  · have hreq : KeepsAt (ik n 2) s ((s.wr (key 0x7840 6) 1).inc (key 0x7840 9)).islandStatus := by
      refine ((KeepsAt.wr ?_ 1 s).trans (.wr ?_ _ _)).trans (.islandStatus _ ?_)
      all_goals simp only [OffStatus, ik, key]; omega
    have hmask : ((s.wr (key 0x7840 6) 1).inc (key 0x7840 9)).islandStatus.teleRequired.testBit n = true := by
      rw [State.testBit_teleRequired n.isLt, State.rdB, hreq.rd (ownDefault_ik n 2)]
      exact hn
    refine State.Demanded.settles n.isLt (.inr (.inr (.inr (.inl ⟨?_, hmask⟩))))
    rw [State.bit, State.rdN_tele_islandStatus (by decide), hbit]
    rfl

theorem State.statusTelegram_sends {s : State} (hon : s.rdB (key 0x7840 1) = true) (hdue : s.island.lastTx + Time.ms 20 ≤ s.now) :
    s.statusTelegram.island.txSeq = (s.island.txSeq + 1) % 2 ^ 32 ∧ s.statusTelegram.island.lastTx = s.now ∧ s.statusTelegram.now = s.now ∧
    ∀ k : Fin 2, Output.msg "SAFETY_STATUS" [s.rd (key 0x7840 2), k.val] (s.statusBytes s.island.txSeq) ∈ s.statusTelegram.out := by
  have hsource (u : State) (type sel : Nat) (bytes : List Byte) (tm : Time) : (u.frameSource type sel bytes tm).island = u.island ∧
      (u.frameSource type sel bytes tm).now = u.now ∧ ∀ o ∈ u.out, o ∈ (u.frameSource type sel bytes tm).out := by
    have hk := State.frameSource_kept (type := type) (sel := sel) (bytes := bytes) (tm := tm) (Sub.refl _) (Kept.refl _ u)
    obtain ⟨l, hl, -⟩ := tells_eventRel.frameSource type sel bytes tm u
    exact ⟨hk.islandSame rfl, hk.now, fun o ho => hl ▸ List.mem_append_left l ho⟩
  unfold State.statusTelegram
  rw [if_neg (by simp [hon, hdue])]
  dsimp only
  generalize hsent : ((({ s with island := { s.island with txSeq := (s.island.txSeq + 1) % 2 ^ 32, lastTx := s.now } } : State).msg "SAFETY_STATUS"
    [s.rd (key 0x7840 2), 0] (s.statusBytes s.island.txSeq)).msg "SAFETY_STATUS" [s.rd (key 0x7840 2), 1] (s.statusBytes s.island.txSeq)) = sent
  obtain ⟨hisland, hnow, hout⟩ := hsource sent 9 1 (((s.statusBytes s.island.txSeq).drop 0x18).take 2) sent.modTime
  have hi : sent.island = { s.island with txSeq := (s.island.txSeq + 1) % 2 ^ 32, lastTx := s.now } := by rw [← hsent]; rfl
  have hn : sent.now = s.now := by rw [← hsent]; rfl
  have ho : sent.out = s.out ++ [.msg "SAFETY_STATUS" [s.rd (key 0x7840 2), 0] (s.statusBytes s.island.txSeq)] ++
      [.msg "SAFETY_STATUS" [s.rd (key 0x7840 2), 1] (s.statusBytes s.island.txSeq)] := by rw [← hsent]; rfl
  rw [hisland, hnow, hi]
  refine ⟨rfl, rfl, hn, fun k => hout _ ?_⟩
  rw [ho]
  obtain ⟨k, hk⟩ := k
  obtain rfl | rfl : k = 0 ∨ k = 1 := by omega
  · simp
  · simp

/-- Settles O38. -/
theorem safetyTelegramsComplete : Obligations.SafetyTelegramsComplete := by
  refine ⟨fun t portB l s hon hnew hc => ⟨_, rfl, ?_⟩, fun t portB l s c hon hnew hc hport hdue hsame hh => ⟨fun hcrc hseq hset => ⟨_, rfl, ?_⟩, fun hcrc => ⟨_, rfl, ?_⟩⟩,
    fun t s c hc hdue => ⟨_, rfl, ?_⟩, fun t s hon hnot hdue => ⟨_, rfl, State.teleWatchdog_trips (s := s.begin t) hon hnot hdue⟩,
    fun t s hon hdue => ⟨_, rfl, ?_⟩⟩
  · obtain ⟨h1, h2, h3, h4, hnow⟩ := State.telegram_waits (portB := portB) (l := l) (s := s.begin t) hon hnew hc
    exact ⟨h1.trans (by rw [hnow]), h2, h3, h4⟩
  · have hh' : (s.begin t).paired.teleHeader l = true := (State.teleHeader_wr ..).trans hh
    have hcrc' : (s.begin t).paired.teleCrc l = true := (State.teleCrc_wr ..).trans hcrc
    have hset' : leAt 0x1C 4 l = (s.begin t).paired.settingsCrc := hset.trans (State.settingsCrc_wr _ { s.begin t with island := _ }).symm
    rw [State.telegram_pairs (s := s.begin t) hon hnew hc hport hdue, hsame, State.telePair_accepts hh' hcrc' hseq hset']
    obtain ⟨h1, h2, h3, h4, h5, h6, h7⟩ := (s.begin t).paired.teleAccept_accepts l
    have hnow : ((s.begin t).paired.teleAccept l).now = (s.begin t).paired.now := (State.teleAccept_kept (Sub.refl _) (Kept.refl _ _)).now
    have hcount : (s.begin t).paired.rdN (key 0x7840 7) = s.rdN (key 0x7840 7) := State.rdN_tele_wr (by decide) _ { s.begin t with island := _ }
    exact ⟨h1, h2, h3.trans hnow.symm, h4, hcount ▸ h5, h6, h7⟩
  · have hh' : (s.begin t).paired.teleHeader l = true := (State.teleHeader_wr ..).trans hh
    have hcrc' : (s.begin t).paired.teleCrc l = false := (State.teleCrc_wr ..).trans hcrc
    have hcount : (s.begin t).paired.rdN (key 0x7840 8 3) = s.rdN (key 0x7840 8 3) := State.rdN_tele_wr (by decide) _ { s.begin t with island := _ }
    rw [State.telegram_pairs (s := s.begin t) hon hnew hc hport hdue, hsame, State.telePair_badCrc hh' hcrc']
    exact ⟨rfl, hcount ▸ State.rdN_inc_same ..⟩
  · exact State.noPartner_drops (s := s.begin t) hc hdue
  · obtain ⟨h1, h2, hnow, hsent⟩ := State.statusTelegram_sends (s := s.begin t) hon hdue
    exact ⟨h1, h2.trans hnow.symm, hsent⟩

end Sys2Proof.Machine
end

section
/-! Time pulse outputs (R273, R274): a firing and what it sends, the end of the width, arming and disarming; the loss that a stopped output
brings to the chains it triggers leaves the outputs' own entries and takes no message back. -/

namespace Sys2Proof.Machine

/-! ### Messages that a loss on a chain may send -/

theorem State.sends_setBit (k i : Nat) (v : Bool) (s : State) : Sends s (s.setBit k i v) := Sends.of_eq rfl

theorem State.sends_inc (k : Nat) (s : State) : Sends s (s.inc k) := Sends.of_eq rfl

theorem State.sends_setMaskEx (m : Nat) (x : Excursion) (s : State) : Sends s (s.setMaskEx m x) := Sends.of_eq rfl

theorem State.sends_rackMsg (kind : String) (dst : Nat) (l : List Int) (s : State) : Sends s (s.rackMsg kind dst l) :=
  State.sends_emit (.msg kind _ _) (s.modRack _)

theorem State.sends_maskStop (slot : Nat) (tm : Time) (s : State) : Sends s (s.maskStop slot tm) := by
  unfold State.maskStop
  lift_lets
  intro p logged
  have hp : Sends s p.1 := Sends.of_eq (State.captureFire_out slot 0xFF tm s)
  have hlogged : Sends s logged := Sends.ite (hp.trans (State.sends_logEvent ..)) hp
  exact Sends.ite (hlogged.trans (Sends.of_eq rfl)) (Sends.ite (hlogged.trans (Sends.of_eq rfl)) hlogged)

theorem State.sends_maskStep (m : Nat) (v : Option Rat) (outside : Bool) (tm : Time) (s : State) : Sends s (s.maskStep m v outside tm) := by
  unfold State.maskStep
  lift_lets
  intro marked
  have hmarked : Sends s marked := State.sends_setBit ..
  split
  · exact hmarked
  · lift_lets
    intro x shown img l counted slot stopped told
    have hshown : Sends s shown := hmarked.trans ((State.sends_setMaskEx m x marked).trans (State.sends_setBit ..))
    have hcounted : Sends s counted := hshown.trans ((State.sends_setBit ..).trans (State.sends_inc ..))
    have hstopped : Sends s stopped := hcounted.trans (State.sends_maskStop slot tm counted)
    have htold : Sends s told := Sends.ite hstopped (hstopped.trans (State.sends_rackMsg ..))
    exact Sends.ite (hshown.trans (State.sends_setBit ..)) (Sends.ite (htold.trans (State.sends_logEvent ..)) hshown)

theorem State.sends_maskTracker (k : Nat) (tm : Time) (s : State) : Sends s (s.maskTracker k tm) :=
  Sends.each (fun _ s => Sends.each (fun m s => State.sends_maskStep m _ _ tm s) _ s) _ s

theorem State.out_syncFollow (c : Nat) (s : State) : (s.syncFollow c).out = s.out := by
  unfold State.syncFollow
  lift_lets
  intro shown
  exact State.same_ite State.out (s := s) (State.each_eq State.out (by intros; rfl) shown) rfl

theorem State.sends_loseTrack (k : Nat) (s : State) : Sends s (s.loseTrack k) := by
  unfold State.loseTrack
  lift_lets
  intro synced
  have hsynced : Sends s synced := Sends.of_eq (State.each_eq State.out (fun c _ t => State.out_syncFollow c t) (s.modChain k _))
  exact hsynced.trans (State.sends_maskTracker k 0 synced)

theorem State.sends_syncLoss (c : Nat) (s : State) : Sends s (s.syncLoss c) := by
  unfold State.syncLoss
  lift_lets
  intro was now_ shown fields cleaned n
  have hshown : Sends s shown := State.sends_setBit ..
  have hmeas (t : State) (x : Meas) : Sends t { t with meas := x } := Sends.of_eq rfl
  have hrestart (t : State) (v : Int) : Sends t ((t.wr (ck c 0x21) v).restartDetectors c) := Sends.of_eq rfl
  exact Sends.ite (((hshown.trans (hmeas shown fields)).trans (hrestart cleaned _)).trans (State.sends_loseTrack ..)) hshown

theorem State.sends_tpoLoss (k : Nat) (s : State) : Sends s (s.tpoLoss k) :=
  Sends.each (fun _ s => Sends.each (fun c s => State.sends_syncLoss c s) _ s) _ s

theorem State.sends_pulseSource (k : Nat) (tm : Time) (s : State) : Sends s (s.pulseSource k tm) :=
  Sends.each (fun u s => State.sends_everyUpdate (fun c i l s => State.sends_logEvent c i l s) u tm s) _ s

/-! ### What a loss and the units leave -/

/-- From s to t the clock, the PWM engine, the power and the entries below 0x5000 stay, and no message is taken back. -/
structure PulseLeaves (s t : State) : Prop where
  sends : Sends s t
  clock : t.clock = s.clock
  pwm : t.pwm = s.pwm
  power : t.power = s.power
  now : t.now = s.now
  keeps : ∀ k < key 0x5000 0, KeepsAt k s t

theorem zone_le_of_lt_chains {k : Nat} (hk : k < key 0x5000 0) : zone k ≤ 52 := by
  have h : zone k ≤ zone (key 0x4FFF 0xFF 0xFF) := zone_mono (by simp only [key] at hk ⊢; omega)
  exact h.trans (by decide)

theorem State.pulseLeaves_tpoLoss (k : Nat) (s : State) : PulseLeaves s (s.tpoLoss k) := by
  have hk := State.tpoLoss_kept (k := k) (Sub.refl _) (Kept.refl _ s)
  have hlow : ∀ z ≤ 52, (0x7fffffffe00000000000000e080 : Nat).testBit (20 + z) = false := by decide
  exact ⟨State.sends_tpoLoss k s, hk.clockSame rfl, hk.pwmSame rfl, hk.powerSame rfl, hk.now, fun j hj => hk.numbersSame j (hlow _ (zone_le_of_lt_chains hj))⟩

theorem State.pulseLeaves_pulseSource (k : Nat) (tm : Time) (s : State) : PulseLeaves s (s.pulseSource k tm) := by
  have hk := State.pulseSource_kept (k := k) (tm := tm) (Sub.refl _) (Kept.refl _ s)
  have hlow : ∀ z ≤ 52, (0x7fffd000000000000000000e000 : Nat).testBit (20 + z) = false := by decide
  exact ⟨State.sends_pulseSource k tm s, hk.clockSame rfl, hk.pwmSame rfl, hk.powerSame rfl, hk.now, fun j hj => hk.numbersSame j (hlow _ (zone_le_of_lt_chains hj))⟩

theorem PulseLeaves.trans {r s t : State} (h : PulseLeaves r s) (g : PulseLeaves s t) : PulseLeaves r t :=
  ⟨h.sends.trans g.sends, g.clock.trans h.clock, g.pwm.trans h.pwm, g.power.trans h.power, g.now.trans h.now, fun k hk => (h.keeps k hk).trans (g.keeps k hk)⟩

theorem PulseLeaves.rd {s t : State} (h : PulseLeaves s t) {k : Nat} (hk : k < key 0x4000 0) : t.rd k = s.rd k := by
  refine (h.keeps k ?_).rd (.inl ?_)
  all_goals simp only [key] at hk ⊢; omega

theorem PulseLeaves.rdN {s t : State} (h : PulseLeaves s t) {k : Nat} (hk : k < key 0x4000 0) : t.rdN k = s.rdN k := congrArg Int.toNat (h.rd hk)

theorem PulseLeaves.bit {s t : State} (h : PulseLeaves s t) {k : Nat} (hk : k < key 0x4000 0) (i : Nat) : t.bit k i = s.bit k i :=
  congrArg (Nat.testBit · i) (h.rdN hk)

/-! ### The entries of an output -/

section
variable {k : Nat} (hk : k < 8)
include hk

theorem tpk_low {a : Nat} (ha : a < 256) : tpk k a < key 0x4000 0 := by
  simp only [tpk, key]
  omega

theorem ownDefault_tpk {a : Nat} (ha : a < 256) : OwnDefault (tpk k a) := .inl (by simp only [tpk, key]; omega)

omit hk in
theorem tpk_ne {a b : Nat} (h : a ≠ b) : tpk k a ≠ tpk k b := by
  simp only [tpk, key]
  omega

theorem State.rdN_tpk_wr {a b : Nat} (ha : a < 256) (h : a ≠ b) (v : Int) (s : State) : (s.wr (tpk k b) v).rdN (tpk k a) = s.rdN (tpk k a) :=
  State.rdN_wr_ne (tpk_ne h) (ownDefault_tpk hk ha) v s

/-- What ends the firings of output k: it is not armed, shows no next firing, and keeps its pulse and its count. -/
theorem State.tpoStop_stops (s : State) : (s.tpoStop k).bit (tpk k 9) 0 = false ∧ (s.tpoStop k).rd (tpk k 0xB) = 0 ∧ (s.tpoStop k).tpo k = s.tpo k ∧
    Sends s (s.tpoStop k) ∧ (s.tpoStop k).rdN (tpk k 0xA) = s.rdN (tpk k 0xA) := by
  unfold State.tpoStop
  lift_lets
  intro shown
  generalize hforgot : shown.modClock (fun c => { c with tpoFired := Tbl.set k false c.tpoFired }) = forgot
  have hleaves := State.pulseLeaves_tpoLoss k forgot
  have hod : forgot.od = shown.od := by rw [← hforgot]; rfl
  have hshown (a : Nat) : forgot.rd (tpk k a) = shown.rd (tpk k a) := by rw [State.rd, State.rd, hod]
  have hrd {a : Nat} (ha : a < 256) : (forgot.tpoLoss k).rd (tpk k a) = shown.rd (tpk k a) := (hleaves.rd (tpk_low hk ha)).trans (hshown a)
  refine ⟨?_, ?_, ?_, ?_, ?_⟩
  · rw [State.bit, State.rdN, hrd (by decide), ← State.rdN, State.rdN_tpk_wr hk (by decide) (by decide)]
    exact State.bit_setBit_same ..
  · rw [hrd (by decide)]
    exact State.rd_wr_same ..
  · rw [State.tpo, hleaves.clock, ← hforgot]
    rfl
  · refine Sends.trans (Sends.of_eq ?_) hleaves.sends
    rw [← hforgot]
    rfl
  · rw [State.rdN, hrd (by decide), ← State.rdN, State.rdN_tpk_wr hk (by decide) (by decide)]
    exact State.rdN_tpk_wr hk (by decide) (by decide) _ s

/-- A firing up to what follows it: the pulse runs, is counted and sent; the other entries of the output are as they were. -/
structure FiresFrom (k : Nat) (s t : State) : Prop where
  tpo : t.tpo k = { next := (s.tpo k).next + 1, lastAt := some s.now, endsAt := some ((((s.firing k (s.tpo k).next + s.rdN (tpk k 5) : Nat) : Int) - s.clock.offset).toNat) }
  count : t.rdN (tpk k 0xA) = (s.rdN (tpk k 0xA) + 1) % 2 ^ 32
  others : ∀ a < 256, a ≠ 0xA → t.rd (tpk k a) = s.rd (tpk k a)
  sent : s.tpoDriven = true → Output.msg "TPO" [k, b2n !(s.rdB (tpk k 6)), s.tpoEdge (s.firing k (s.tpo k).next)] [] ∈ t.out

omit hk in
theorem State.tpo_setTpo (r : TpoRec) (s : State) : (s.setTpo k r).tpo k = r := Tbl.get_set_same ..

theorem State.tpoFire_fires {s : State} (hon : s.bit (tpk k 9) 0 = true) (hdue : s.firing k (s.tpo k).next ≤ s.modTime) :
    ∃ t, FiresFrom k s t ∧ s.tpoFire k =
      if t.rdN (tpk k 1) ≠ 2 then t.tpoStop k
      else if t.rdN (tpk k 7) ≠ 0 && t.rdN (tpk k 7) ≤ (s.tpo k).next + 1 then (t.tpoStop k).setBit (tpk k 9) 1 true
      else t.wr (tpk k 0xB) (Time.toNs (t.firing k ((s.tpo k).next + 1)) : Nat) := by
  unfold State.tpoFire
  rw [if_neg (by simp [hon, hdue])]
  lift_lets
  intro lead ends counted sourced lost put limit
  refine ⟨put, ?_, rfl⟩
  have hpulse : PulseLeaves counted sourced := State.pulseLeaves_pulseSource k lead counted
  have hmark (x : State) (c : Clock → Clock) (j : Nat) : KeepsAt j x (x.modClock c) := .of_eq rfl
  have hloss : PulseLeaves (sourced.modClock fun c => { c with tpoFired := Tbl.set k true c.tpoFired }) lost := State.pulseLeaves_tpoLoss k _
  have hput : put.od = lost.od ∧ put.clock = lost.clock := by
    refine ⟨State.same_ite State.od rfl rfl, State.same_ite State.clock rfl rfl⟩
  have hlost {j : Nat} (hj : j < key 0x4000 0) : lost.rd j = counted.rd j := (hloss.rd hj).trans (hpulse.rd hj)
  have hrd {j : Nat} (hj : j < key 0x4000 0) : put.rd j = counted.rd j := by
    rw [← hlost hj, State.rd, State.rd, hput.1]
  have hcounted (j : Nat) (hj : OwnDefault j) (hne : j ≠ tpk k 0xA) : counted.rd j = s.rd j :=
    (State.rd_wr_ne hne hj _ _).trans rfl
  refine ⟨?_, ?_, fun a ha hne => ?_, fun hdriven => ?_⟩
  · have hmarked : put.clock.tpos = sourced.clock.tpos := by
      rw [hput.2, hloss.clock]
      rfl
    rw [State.tpo, hmarked, hpulse.clock]
    exact State.tpo_setTpo (k := k) _ s
  · rw [State.rdN, hrd (tpk_low hk (by decide))]
    exact State.rdN_inc_same (tpk k 0xA) 1 (s.setTpo k _)
  · rw [hrd (tpk_low hk ha), hcounted _ (ownDefault_tpk hk ha) (tpk_ne hne)]
  · have h6 : lost.rdB (tpk k 6) = s.rdB (tpk k 6) := by
      rw [State.rdB, State.rdB, hlost (tpk_low hk (by decide)), hcounted _ (ownDefault_tpk hk (by decide)) (tpk_ne (by decide))]
    have hd : lost.tpoDriven = true := by
      have hp : lost.power = s.power := hloss.power.trans hpulse.power
      have h3 : lost.rdN (key 0x2100 3) = s.rdN (key 0x2100 3) := by
        rw [State.rdN, State.rdN, hlost (by decide), hcounted _ (by decide) (by simp only [tpk, key]; omega)]
      rw [← hdriven, State.tpoDriven, State.tpoDriven, hp, h3]
    have hsent : put = lost.msg "TPO" [k, b2n !(lost.rdB (tpk k 6)), lead] [] := if_pos hd
    rw [hsent, h6]
    exact List.mem_append_right _ (List.mem_singleton_self _)

/-- A firing completes. -/
theorem State.tpoFire_completes {s : State} (hon : s.bit (tpk k 9) 0 = true) (hdue : s.firing k (s.tpo k).next ≤ s.modTime) :
    ((s.tpoFire k).tpo k).next = (s.tpo k).next + 1 ∧
    ((s.tpoFire k).tpo k).endsAt = some (((s.firing k (s.tpo k).next + s.rdN (tpk k 5) : Nat) : Int) - s.clock.offset).toNat ∧
    (s.tpoDriven = true → Output.msg "TPO" [k, b2n !(s.rdB (tpk k 6)), s.tpoEdge (s.firing k (s.tpo k).next)] [] ∈ (s.tpoFire k).out) ∧
    (s.tpoFire k).rdN (tpk k 0xA) = (s.rdN (tpk k 0xA) + 1) % 2 ^ 32 ∧
    (s.rdN (tpk k 1) ≠ 2 → (s.tpoFire k).bit (tpk k 9) 0 = false ∧ (s.tpoFire k).rd (tpk k 0xB) = 0) ∧
    (s.rdN (tpk k 1) = 2 → s.rdN (tpk k 7) = 0 ∨ (s.tpo k).next + 1 < s.rdN (tpk k 7) →
      (s.tpoFire k).bit (tpk k 9) 0 = true ∧ (s.tpoFire k).rdN (tpk k 0xB) = Time.toNs (s.firing k ((s.tpo k).next + 1))) ∧
    (s.rdN (tpk k 1) = 2 → s.rdN (tpk k 7) ≠ 0 → s.rdN (tpk k 7) ≤ (s.tpo k).next + 1 →
      (s.tpoFire k).bit (tpk k 9) 0 = false ∧ (s.tpoFire k).bit (tpk k 9) 1 = true) := by
  obtain ⟨t, ⟨htpo, hcount, hothers, hsent⟩, heq⟩ := State.tpoFire_fires hk hon hdue
  have hN {a : Nat} (ha : a < 256) (h : a ≠ 0xA) : t.rdN (tpk k a) = s.rdN (tpk k a) := congrArg Int.toNat (hothers a ha h)
  have hfiring (j : Nat) : t.firing k j = s.firing k j := by
    unfold State.firing
    rw [hN (by decide) (by decide), hN (by decide) (by decide), hN (by decide) (by decide)]
  obtain ⟨h0, hB, hsame, hsends, hA⟩ := State.tpoStop_stops hk t
  rw [hN (a := 1) (by decide) (by decide), hN (a := 7) (by decide) (by decide), hfiring] at heq
  by_cases h2 : s.rdN (tpk k 1) ≠ 2
  · rw [if_pos h2] at heq
    rw [heq]
    exact ⟨by rw [hsame, htpo], by rw [hsame, htpo], fun h => hsends.subset (hsent h), hA.trans hcount, fun _ => ⟨h0, hB⟩,
      fun h => absurd h h2, fun h => absurd h h2⟩
  · rw [if_neg h2] at heq
    by_cases hlimit : s.rdN (tpk k 7) ≠ 0 ∧ s.rdN (tpk k 7) ≤ (s.tpo k).next + 1
    · rw [if_pos (by simp [hlimit])] at heq
      have htpo' : (((t.tpoStop k).setBit (tpk k 9) 1 true).tpo k) = t.tpo k := hsame
      rw [heq]
      refine ⟨by rw [htpo', htpo], by rw [htpo', htpo], fun h => hsends.subset (hsent h), ?_, fun h => absurd h h2, fun _ h => by omega, fun _ _ _ => ⟨?_, State.bit_setBit_same ..⟩⟩
      · exact (State.rdN_tpk_wr hk (by decide) (by decide) _ _).trans (hA.trans hcount)
      · exact (State.bit_setBit_other (by decide) _ _ _).trans h0
    · rw [if_neg (by simpa using hlimit)] at heq
      have htpo' : ((t.wr (tpk k 0xB) (Time.toNs (s.firing k ((s.tpo k).next + 1)) : Nat)).tpo k) = t.tpo k := rfl
      rw [heq]
      refine ⟨by rw [htpo', htpo], by rw [htpo', htpo], hsent, ?_, fun h => absurd h h2, fun _ _ => ⟨?_, ?_⟩, fun _ ha hb => absurd ⟨ha, hb⟩ hlimit⟩
      · exact (State.rdN_tpk_wr hk (by decide) (by decide) _ _).trans hcount
      · rw [State.bit, State.rdN_tpk_wr hk (by decide) (by decide), hN (by decide) (by decide)]
        exact hon
      · exact State.rdN_wr_same ..

/-! ### The end of the width, arming and disarming -/

omit hk in
theorem State.tpoEnd_ends {e : Time} {s : State} (he : (s.tpo k).endsAt = some e) (hdue : e ≤ s.now) : ((s.tpoEnd k).tpo k).endsAt = none ∧
    (s.tpoDriven = true → (s.tpoEnd k).out = s.out ++ [.msg "TPO" [k, b2n (s.rdB (tpk k 6)), s.tpoEdge ((e : Int) + s.clock.offset).toNat] []]) := by
  have heq : s.tpoEnd k = (s.setTpo k { (s.tpo k) with endsAt := none }).tpoPut k (s.rdB (tpk k 6)) (s.tpoEdge ((e : Int) + s.clock.offset).toNat) := by
    unfold State.tpoEnd
    dsimp only
    rw [he]
    exact if_pos hdue
  have hput (v : Bool) (x : Time) (t : State) : (t.tpoPut k v x).tpo k = t.tpo k := State.same_ite (State.tpo k) rfl rfl
  rw [heq]
  refine ⟨?_, fun hdriven => ?_⟩
  · rw [hput, State.tpo_setTpo]
  · have hd : (s.setTpo k { (s.tpo k) with endsAt := none }).tpoDriven = true := hdriven
    unfold State.tpoPut
    rw [if_pos hd]
    rfl

theorem State.armTpoEff_arms (s : State) : ((armTpoEff k).eff s).bit (tpk k 9) 0 = true ∧ ((armTpoEff k).eff s).bit (tpk k 9) 1 = false ∧
    ((armTpoEff k).eff s).bit (tpk k 9) 2 = false ∧ (((armTpoEff k).eff s).tpo k).next = 0 ∧
    ((armTpoEff k).eff s).rdN (tpk k 0xB) = Time.toNs (s.firing k 0) := by
  unfold armTpoEff
  dsimp only
  generalize hready : (s.setTpo k { (s.tpo k) with next := 0 }).modClock (fun c => { c with tpoFired := Tbl.set k false c.tpoFired }) = ready
  have hnext : (ready.tpo k).next = 0 := by
    rw [← hready]
    exact congrArg TpoRec.next (State.tpo_setTpo { (s.tpo k) with next := 0 } s)
  have hfiring : ready.firing k 0 = s.firing k 0 := by rw [← hready]; rfl
  rw [hfiring]
  have hleaves := State.pulseLeaves_tpoLoss k ((((ready.setBit (tpk k 9) 0 true).setBit (tpk k 9) 1 false).setBit (tpk k 9) 2 false).wr (tpk k 0xB) (Time.toNs (s.firing k 0) : Nat))
  have hbit (i : Nat) : ((((ready.setBit (tpk k 9) 0 true).setBit (tpk k 9) 1 false).setBit (tpk k 9) 2 false).wr (tpk k 0xB) (Time.toNs (s.firing k 0) : Nat)).bit (tpk k 9) i =
      (((ready.setBit (tpk k 9) 0 true).setBit (tpk k 9) 1 false).setBit (tpk k 9) 2 false).bit (tpk k 9) i :=
    congrArg (Nat.testBit · i) (State.rdN_tpk_wr hk (by decide) (by decide) _ _)
  refine ⟨?_, ?_, ?_, ?_, ?_⟩
  · rw [hleaves.bit (tpk_low hk (by decide)), hbit, State.bit_setBit_other (by decide), State.bit_setBit_other (by decide), State.bit_setBit_same]
  · rw [hleaves.bit (tpk_low hk (by decide)), hbit, State.bit_setBit_other (by decide), State.bit_setBit_same]
  · rw [hleaves.bit (tpk_low hk (by decide)), hbit, State.bit_setBit_same]
  · rw [State.tpo, hleaves.clock]
    exact hnext
  · rw [hleaves.rdN (tpk_low hk (by decide))]
    exact State.rdN_wr_same ..

end

section
variable {q : Req} {k : TpoNo} {s : State} (hs : s.Serves)
include hs

omit hs in
theorem State.tpo_longBy (q : Req) (was : Nat) (u : State) : (u.longBy q was).tpo k = u.tpo k := by rw [State.tpo, State.longBy_clock, State.tpo]

theorem State.armTpo_arms (hp : s.Passes q (0x2320 + k) 8 0 1) (hmode : s.rdN (tpk k 1) ≠ 0) (hper : 128000 ≤ s.rdN (tpk k 4))
    (hwid : 640 ≤ s.rdN (tpk k 5)) (hlt : s.rdN (tpk k 5) < s.rdN (tpk k 4)) (hahead : s.modTime + Time.us 100 ≤ s.firing k 0) :
    let u := s.hostWrite q (0x2320 + k) 8 0 1 (armTpoEff k)
    u.bit (tpk k 9) 0 = true ∧ u.bit (tpk k 9) 1 = false ∧ u.bit (tpk k 9) 2 = false ∧ (u.tpo k).next = 0 ∧
      u.rdN (tpk k 0xB) = Time.toNs (s.firing k 0) ∧ u.Answered 0 := by
  have hown : (armTpoEff k).own (s.handling q.sid) = 0 := by
    refine needs_of_true ?_ _
    have hmode' : ((s.handling q.sid).rdN (tpk k 1) != 0) = true := bne_iff_ne.2 hmode
    have hper' : decide (128000 ≤ (s.handling q.sid).rdN (tpk k 4)) = true := decide_eq_true hper
    have hwid' : decide (640 ≤ (s.handling q.sid).rdN (tpk k 5)) = true := decide_eq_true hwid
    have hlt' : decide ((s.handling q.sid).rdN (tpk k 5) < (s.handling q.sid).rdN (tpk k 4)) = true := decide_eq_true hlt
    have hahead' : decide ((s.handling q.sid).modTime + Time.us 100 ≤ (s.handling q.sid).firing k 0) = true := decide_eq_true hahead
    simp only [hmode', hper', hwid', hlt', hahead', Bool.and_self]
  obtain ⟨h0, h1, h2, hnext, hB⟩ := State.armTpoEff_arms k.isLt (s.handling q.sid)
  rw [State.hostWrite_replies hs hp hown rfl]
  generalize (armTpoEff k).eff (s.handling q.sid) = u at h0 h1 h2 hnext hB ⊢
  refine ⟨?_, ?_, ?_, ?_, ?_, State.answered_answer_longBy ..⟩
  · rw [State.bit_longBy]; exact h0
  · rw [State.bit_longBy]; exact h1
  · rw [State.bit_longBy]; exact h2
  · rw [State.tpo_longBy]; exact hnext
  · rw [State.rdN_longBy]; exact hB

theorem State.armTpo_refused (hp : s.Passes q (0x2320 + k) 8 0 1) (hlate : s.firing k 0 < s.modTime + Time.us 100) :
    (s.hostWrite q (0x2320 + k) 8 0 1 (armTpoEff k)).bit (tpk k 9) 0 = s.bit (tpk k 9) 0 ∧
    (s.hostWrite q (0x2320 + k) 8 0 1 (armTpoEff k)).Answered 0x0B0000C1 := by
  have hown : (armTpoEff k).own (s.handling q.sid) = 0x0B0000C1 := by
    refine needs_of_false ?_ _
    have hlate' : decide ((s.handling q.sid).modTime + Time.us 100 ≤ (s.handling q.sid).firing k 0) = false := decide_eq_false (Nat.not_le.2 hlate)
    simp only [hlate', Bool.and_false]
  rw [State.hostWrite_fails hs hp hown (by decide)]
  exact ⟨State.bit_longBy .., State.answered_answer_longBy ..⟩

theorem State.disarmTpo_disarms (hp : s.Passes q (0x2320 + k) 8 0 0) :
    let u := s.hostWrite q (0x2320 + k) 8 0 0 (disarmTpoEff k)
    u.bit (tpk k 9) 0 = false ∧ u.rd (tpk k 0xB) = 0 ∧ u.Answered 0 := by
  obtain ⟨h0, hB, -⟩ := State.tpoStop_stops k.isLt (s.handling q.sid)
  have heff : (disarmTpoEff k).eff (s.handling q.sid) = (s.handling q.sid).tpoStop k := rfl
  rw [State.hostWrite_replies hs hp rfl rfl, heff]
  generalize (s.handling q.sid).tpoStop k = u at h0 hB ⊢
  refine ⟨?_, ?_, State.answered_answer_longBy ..⟩
  · rw [State.bit_longBy]; exact h0
  · rw [State.rd_longBy]; exact hB

end

/-- Settles O41. -/
theorem timePulseOutputsComplete : Obligations.TimePulseOutputsComplete := by
  refine ⟨fun t k s hon hdue => ⟨_, rfl, State.tpoFire_completes (s := s.begin t) k.isLt hon hdue⟩, fun t k s e he hdue => ⟨_, rfl, State.tpoEnd_ends (s := s.begin t) he hdue⟩,
    fun t q k s hs hp => ⟨fun hmode hper hwid hlt hahead => ⟨_, rfl, ?_⟩, fun hlate => ⟨_, rfl, ?_⟩⟩, fun t q k s hs hp => ⟨_, rfl, ?_⟩⟩
  · exact State.armTpo_arms (s := s.begin t) hs hp hmode hper hwid hlt hahead
  · exact State.armTpo_refused (s := s.begin t) hs hp hlate
  · exact State.disarmTpo_disarms (s := s.begin t) hs hp

end Sys2Proof.Machine
end

section
/-! Self-repair and temperatures (R342, R343, R399): what a scrub pass and an uncorrectable error count, the cycle that stops, and the
junction's warning and fault. -/

namespace Sys2Proof.Machine

/-! ### A cycle that has stopped stays stopped -/

/-- From s to t a batch without a cycle gets none. -/
def Idles (b : Nat) (s t : State) : Prop := (s.batch b).cyc = none → (t.batch b).cyc = none

namespace Idles
variable {b : Nat} {s t u : State}

theorem refl (s : State) : Idles b s s := id

theorem trans (h : Idles b s t) (k : Idles b t u) : Idles b s u := k ∘ h

theorem of_eq (h : t.batches = s.batches) : Idles b s t := fun hs => by rw [State.batch, h]; exact hs

theorem ite {c : Prop} [Decidable c] (ht : Idles b s t) (hu : Idles b s u) : Idles b s (if c then t else u) := by
  split
  · exact ht
  · exact hu

theorem stateOnly (h : BatchRec.StateOnly (s.batch b) (t.batch b)) : Idles b s t :=
  fun hs => ((congrArg BatchRec.cyc h.eq).trans rfl).trans hs

theorem modBatch {f : BatchRec → BatchRec} (hf : ∀ r, r.cyc = none → (f r).cyc = none) (b' : Nat) (s : State) : Idles b s (s.modBatch b' f) := by
  intro hs
  by_cases h : b = b'
  · subst h
    rw [State.modBatch, State.batch_setBatch_same]
    exact hf _ hs
  · rwa [State.modBatch, State.batch_setBatch_other _ _ _ h]

theorem each {α : Type} {l : List α} {f : α → State → State} (hf : ∀ a s, Idles b s (f a s)) (s : State) : Idles b s (s.each l f) :=
  fun hs => State.each_keeps (P := fun s => (s.batch b).cyc = none) (fun a _ s => hf a s) hs

theorem setState (b' : Nat) (new : BatchState) (cause : Nat) (s : State) : Idles b s (s.setState b' new cause) :=
  stateOnly (State.stateOnly_setState b b' new cause s)

theorem pulseBlock (b' : Nat) (s : State) : Idles b s (s.pulseBlock b') :=
  (modBatch (f := fun r => { r with outOn := false, outDue := none, seeded := false }) (fun _ h => h) b' s).trans (each (f := State.chanOff) (fun _ _ => of_eq rfl) _)

theorem logEvent (code inst : Nat) (data : List Byte) (s : State) : Idles b s (s.logEvent code inst data) := of_eq (State.logEvent_batches ..)

theorem blockBatch (b' src : Nat) (detail : List Byte) (s : State) : Idles b s (s.blockBatch b' src detail) := by
  unfold State.blockBatch
  lift_lets
  intro st fresh s1 l s2 s3 s4
  have h2 : Idles b s s2 := (of_eq rfl : Idles b s s1).trans (pulseBlock b' s1)
  have h4 : Idles b s s4 := (h2.trans (of_eq rfl : Idles b s2 s3)).trans (modBatch (f := fun r => { r with blockFresh := true, cmd := none, stopping := false })
    (fun _ h => h) b' s3)
  refine ite ((of_eq (State.each_batches (fun c s => s.endTest_batches c) s)).trans (pulseBlock b' _)) (ite (.refl s) (ite ?_ ?_))
  · exact ite (of_eq rfl) (of_eq rfl)
  · exact h4.trans ((logEvent _ _ _ s4).trans (setState b' _ _ _))

theorem faultBatch (b' src cause : Nat) (s : State) : Idles b s (s.faultBatch b' src cause) := by
  unfold State.faultBatch
  lift_lets
  intro s1 s2
  have h1 : Idles b s s1 := ite (.refl s) (blockBatch b' src [] s)
  exact ite (.refl s) ((h1.trans (pulseBlock b' s1)).trans ((modBatch (f := fun r => { r with cmd := none, stopping := false }) (fun _ h => h) b' s2).trans
    (setState b' _ _ _)))

theorem react (b' k : Nat) (s : State) : Idles b s (s.react b' k) := by
  unfold State.react
  refine ite (.refl s) ?_
  split
  · exact each (fun i s => of_eq (State.withGen_batches b' i (f := State.genHold) (fun _ _ => rfl) s)) s
  · exact ite (.refl s) (modBatch (f := fun r => { r with cmd := some 2 }) (fun _ h => h) b' s)
  · exact blockBatch b' 2 [] s
  · exact faultBatch b' 2 0x80 s
  · exact .refl s

theorem faultReaction (b' : Nat) (s : State) : Idles b s (s.faultReaction b') := by
  unfold State.faultReaction
  extract_lets ds k named taken s1
  have htaken (src : Nat) (x : State) : Idles b x (taken src x) := of_eq rfl
  have hcleared (f : BatchRec → Option (Nat × Nat)) : Idles b s (s.modBatch b' (fun r => { r with demands := [], reacted := f r })) :=
    modBatch (f := fun r => { r with demands := [], reacted := f r }) (fun _ h => h) b' s
  cases ds with
  | nil => exact .refl s
  | cons src l =>
    cases (s.batch b').reacted with
    | none => exact (hcleared _).trans ((htaken _ _).trans ((logEvent _ _ _ _).trans (react b' _ _)))
    | some kt =>
      obtain ⟨k0, at_⟩ := kt
      dsimp -zeta only
      extract_lets s2 s3
      have h3 : Idles b s s3 := (hcleared (fun _ => some (max k0 k, at_))).trans (of_eq rfl)
      exact ite (h3.trans ((htaken _ s3).trans (react b' _ _))) h3

theorem demand (b' src : Nat) (s : State) : Idles b s (s.demand b' src) := by
  unfold State.demand
  refine ite (of_eq ?_) ((modBatch (f := fun r => { r with demands := r.demands ++ [src] }) (fun _ h => h) b' s).trans (of_eq ?_))
  · exact (State.incQueue_kept (Sub.refl _) (Kept.refl _ s)).batchesSame rfl
  · exact (State.notePeak_kept (Sub.refl _) (Kept.refl _ _)).batchesSame rfl

theorem sealEdges (b' : Nat) (t0 : Time) (s : State) : Idles b s (s.sealEdges b' t0) := by
  unfold State.sealEdges
  extract_lets w0 on nodes cs
  have hedges (es : List Sealed) (x : State) : Idles b x (x.modBatch b' (fun r => { r with edges := r.edges ++ es })) :=
    modBatch (f := fun r => { r with edges := r.edges ++ es }) (fun _ h => h) b' x
  refine ite (.refl s) (ite (hedges _ s) ?_)
  generalize hp : List.foldl _ ([], s) cs = p
  have hkept : Kept 0x7ffffffffffc000000000000100 s p.2 :=
    hp ▸ Kept.foldl_snd (fun _ _ h => State.windowEdges_kept (Sub.refl _) h) (Kept.refl _ s)
  exact (of_eq (hkept.batchesSame rfl)).trans (hedges _ _)

theorem assign (l b' : Nat) (s : State) : Idles b s (s.assign l b') := by
  intro hs
  unfold State.assign
  extract_lets r
  split
  · exact hs
  · next c hc =>
    have hne : b ≠ b' := fun h => by simp [r, ← h, hs] at hc
    extract_lets wait s1 s2 s3 s4
    have h1 : s1.batch b = s.batch b := State.batch_setBatch_other b' _ s hne
    have h2 : Idles b s1 s2 := of_eq rfl
    have h3 : Idles b s2 s3 := ite (of_eq rfl) (.refl s2)
    have h4 : Idles b s3 s4 := of_eq rfl
    exact ((h2.trans h3).trans h4).trans (ite (.refl s4) (of_eq ((State.incQueue_kept (Sub.refl _) (Kept.refl _ s4)).batchesSame rfl))) (by rwa [h1])

theorem chooseOn (l : Nat) (s : State) : Idles b s (s.chooseOn l) := by
  unfold State.chooseOn
  refine ite (.refl s) ?_
  extract_lets el own foreign cand
  split
  · exact assign l _ s
  · split
    · exact .refl s
    · next q t hq => exact (of_eq ((State.chooseQueue_kept (Sub.refl _) hq (Kept.refl _ s)).batchesSame rfl)).trans (assign l _ t)

theorem dispatchGo (k : Nat) (s : State) : Idles b s (s.dispatchGo k) := by
  induction k generalizing s with
  | zero => exact .refl s
  | succ k ih =>
    have h : Idles b s (s.each allLanes State.chooseOn) := each (fun l s => chooseOn l s) s
    unfold State.dispatchGo
    exact ite h (h.trans (ih _))

theorem dispatch (s : State) : Idles b s s.dispatch := ite (dispatchGo 32 s) (.refl s)

end Idles

/-- A dropped cycle is gone. -/
theorem State.cyc_dropCycle (b : Nat) (s : State) : ((s.dropCycle b).batch b).cyc = none := by
  unfold State.dropCycle
  cases hc : (s.batch b).cyc with
  | none => exact hc
  | some c =>
    dsimp -zeta only
    extract_lets s1 s2 s3
    have h2 : (s2.batch b).cyc = none := congrArg BatchRec.cyc (State.batch_setBatch_same b _ s1)
    have h3 : Idles b s2 s3 := (Idles.of_eq ((State.clearNan_kept (Sub.refl _) (Kept.refl _ s2)).batchesSame rfl)).trans (.sealEdges b _ _)
    cases hr : s3.recipe b with
    | none => exact h3 h2
    | some r => exact (h3.trans (.of_eq ((State.stateCopySend_kept (Sub.refl _) (Kept.refl _ s3)).batchesSame rfl))) h2

/-! ### Uncorrectable errors (R342) -/

namespace KeepsAt

/-- What counts at queues, groups and lanes stands at other subindices than the island's state. -/
theorem islandState_ne (index : Nat) {sub : Nat} (h : sub < 256) (h1 : sub ≠ 1) : key 0x7800 1 ≠ key index sub := by
  simp only [key]
  omega

theorem islandState_assign (l b : Nat) (s : State) : KeepsAt (key 0x7800 1) s (s.assign l b) := by
  unfold State.assign
  extract_lets r
  split
  · exact .of_eq rfl
  · extract_lets wait s1 s2 s3 s4
    have h2 : KeepsAt (key 0x7800 1) s s2 := .of_eq rfl
    have h3 : KeepsAt (key 0x7800 1) s2 s3 := .of_ite (.wr (islandState_ne _ (by decide) (by decide)) _ s2) (.of_eq rfl)
    have h4 : KeepsAt (key 0x7800 1) s3 s4 := KeepsAt.trans (.wr (islandState_ne _ (by decide) (by decide)) _ s3)
      (.wr (islandState_ne _ (by decide) (by decide)) _ _)
    refine (h2.trans (h3.trans h4)).trans (.of_ite (.of_eq rfl) ?_)
    unfold State.incQueue
    split
    · exact .of_eq rfl
    · exact .wr (islandState_ne _ (by decide) (by decide)) _ s4

theorem islandState_chooseOn (l : Nat) (s : State) : KeepsAt (key 0x7800 1) s (s.chooseOn l) := by
  unfold State.chooseOn
  refine .of_ite (.of_eq rfl) ?_
  extract_lets el own foreign cand
  split
  · exact islandState_assign l _ s
  · split
    · exact .of_eq rfl
    · next q t hq =>
      exact KeepsAt.trans ((State.chooseQueue_kept (Sub.refl _) hq (Kept.refl _ s)).numbersSame _ (by decide)) (islandState_assign l _ t)

theorem islandState_dispatch (s : State) : KeepsAt (key 0x7800 1) s s.dispatch := by
  have hgo (k : Nat) (s : State) : KeepsAt (key 0x7800 1) s (s.dispatchGo k) := by
    induction k generalizing s with
    | zero => exact .of_eq rfl
    | succ k ih =>
      have h : KeepsAt (key 0x7800 1) s (s.each allLanes State.chooseOn) := .each (fun l _ s => islandState_chooseOn l s) s
      unfold State.dispatchGo
      exact .of_ite h (h.trans (ih _))
  exact .of_ite (hgo 32 s) (.of_eq rfl)

end KeepsAt

/-- Every uncorrectable error is counted and logged. -/
def State.errorCounted (mem addr : Nat) (s : State) : State := (s.inc (key 0x2400 8)).logEvent 0x0C03 0 (d8 mem ++ d32 addr)

/-- An error in memories 0 to 2 asks for the replacement of its row or column. -/
def State.errorMarked (mem : Nat) (x : MemUnit) (s : State) : State :=
  if mem < 3 && !(s.power.failing.any (fun p => p / 16 == unitCode mem x)) then
    s.modPower (fun p => { p with failing := p.failing ++ [pendingCode mem 9 x] }) else s

theorem State.uncorrectable_eq (mem addr : Nat) (x : MemUnit) (cycle : Option Nat) (s : State) : s.uncorrectable mem addr x cycle =
    match cycle with
    | some b => (((((s.errorCounted mem addr).errorMarked mem x).dropCycle b).inc (bk 0x13 4 b)).demand b 1).faultReaction b
    | none => if mem = 3 then ((s.errorCounted mem addr).errorMarked mem x).captureError addr
      else if mem = 4 then ((s.errorCounted mem addr).errorMarked mem x).islandFault
      else ((s.errorCounted mem addr).errorMarked mem x).each (memoryDomains mem) State.domFault := by
  cases cycle <;> rfl

theorem State.rdN_errorCounted (mem addr : Nat) (x : MemUnit) (s : State) :
    ((s.errorCounted mem addr).errorMarked mem x).rdN (key 0x2400 8) = (s.rdN (key 0x2400 8) + 1) % 2 ^ 32 := by
  have h : (s.errorCounted mem addr).rdN (key 0x2400 8) = (s.rdN (key 0x2400 8) + 1) % 2 ^ 32 :=
    (State.rdN_logEvent (by decide) (by decide) _ _ _ _).trans (State.rdN_inc_same _ _ s)
  unfold State.errorMarked
  split <;> exact h

theorem State.islandState_errorMarked (addr : Nat) (x : MemUnit) (s : State) :
    ((s.errorCounted 4 addr).errorMarked 4 x).islandState = s.islandState := by
  have hinc : KeepsAt (key 0x7800 1) s (s.inc (key 0x2400 8)) := .wr (by decide) _ s
  have hcounted : KeepsAt (key 0x7800 1) s (s.errorCounted 4 addr) := hinc.trans (.logEvent (k := key 0x7800 1) (by decide) _ _ _ _)
  have hmarked : KeepsAt (key 0x7800 1) (s.errorCounted 4 addr) ((s.errorCounted 4 addr).errorMarked 4 x) := .of_eq rfl
  exact congrArg Int.toNat ((hcounted.trans hmarked).rd (by decide))

theorem uncorrectable_drops (t : Time) (mem : Fin 5) (addr : Nat) (x : MemUnit) (b : Batch) (s : State) :
    Completes (.uncorrectableError t mem addr x (some b)) s (fun u =>
      u.rdN (key 0x2400 8) = (s.rdN (key 0x2400 8) + 1) % 2 ^ 32 ∧ (u.batch b).cyc = none) := by
  refine ⟨_, rfl, ?_⟩
  dsimp only [Option.map_some]
  rw [State.uncorrectable_eq]
  dsimp only
  generalize hm : ((s.begin t).errorCounted mem addr).errorMarked mem x = m
  have hcount : m.rdN (key 0x2400 8) = (s.rdN (key 0x2400 8) + 1) % 2 ^ 32 := hm ▸ State.rdN_errorCounted _ _ x (s.begin t)
  have hzone : zone (key 0x2400 8) = 21 := by decide
  have hinc : ((m.dropCycle b).inc (bk 0x13 4 b)).rd (key 0x2400 8) = (m.dropCycle b).rd (key 0x2400 8) :=
    State.rd_wr_ne (by simp only [bk, key]; omega) (by decide) _ _
  have hrd : ((((m.dropCycle b).inc (bk 0x13 4 b)).demand b 1).faultReaction b).dispatch.rd (key 0x2400 8) = m.rd (key 0x2400 8) := by
    rw [(State.dispatch_kept (Sub.refl _) (Kept.refl _ _)).rd_eq hzone (by decide) (by decide),
      (State.faultReaction_kept (Sub.refl _) (Kept.refl _ _)).rd_eq hzone (by decide) (by decide),
      (State.demand_kept (Sub.refl _) (Kept.refl _ _)).rd_eq hzone (by decide) (by decide), hinc,
      (State.dropCycle_kept (Sub.refl _) (Kept.refl _ m)).rd_eq hzone (by decide) (by decide)]
  refine ⟨(congrArg Int.toNat hrd).trans hcount, ?_⟩
  have hidle : Idles b (m.dropCycle b) ((((m.dropCycle b).inc (bk 0x13 4 b)).demand b 1).faultReaction b).dispatch :=
    ((Idles.of_eq (t := (m.dropCycle b).inc (bk 0x13 4 b)) rfl).trans (.demand b 1 _)).trans ((Idles.faultReaction b _).trans (.dispatch _))
  exact hidle (State.cyc_dropCycle b m)

theorem uncorrectable_island {t : Time} (addr : Nat) (x : MemUnit) {s : State} (h : s.islandState ≠ 3) :
    Completes (.uncorrectableError t 4 addr x none) s (fun u => u.rdN (key 0x2400 8) = (s.rdN (key 0x2400 8) + 1) % 2 ^ 32 ∧ u.islandState = 3) := by
  refine ⟨((s.begin t).uncorrectable 4 addr x none).dispatch, rfl, ?_⟩
  rw [State.uncorrectable_eq]
  dsimp only
  rw [if_neg (by decide), if_pos (by decide)]
  generalize hm : ((s.begin t).errorCounted 4 addr).errorMarked 4 x = m
  have hcount : m.rdN (key 0x2400 8) = (s.rdN (key 0x2400 8) + 1) % 2 ^ 32 := hm ▸ State.rdN_errorCounted 4 addr x (s.begin t)
  have hisland : m.islandState = s.islandState := hm ▸ State.islandState_errorMarked addr x (s.begin t)
  have hfault : m.islandFault.rd (key 0x2400 8) = m.rd (key 0x2400 8) :=
    (State.islandFault_kept (Sub.refl _) (Kept.refl _ m)).rd_eq (z := 21) (by decide) (by decide) (by decide)
  have hdispatch : m.islandFault.dispatch.rd (key 0x2400 8) = m.islandFault.rd (key 0x2400 8) :=
    (State.dispatch_kept (Sub.refl _) (Kept.refl _ _)).rd_eq (z := 21) (by decide) (by decide) (by decide)
  exact ⟨(congrArg Int.toNat (hdispatch.trans hfault)).trans hcount,
    (congrArg Int.toNat ((KeepsAt.islandState_dispatch _).rd (by decide))).trans (State.islandFault_faults (by rwa [hisland])).1⟩

/-! ### Scrubbing (R342) -/

/-- Corrected errors of a memory other than the capture memory change nothing of the dictionary. -/
theorem State.od_correctedIn (mem : Nat) (x : MemUnit) (s : State) : (s.correctedIn mem x).od = s.od := by
  unfold State.correctedIn
  extract_lets c l s1
  split <;> rfl

theorem scrubPass_counts {t : Time} {mem : Fin 4} (errs : List MemUnit) {s : State}
    (hnone : s.power.failing.filter (fun p => p / 16 / 4096 / 2 == mem.val) = []) :
    Completes (.scrubPass t mem errs) s (fun u =>
      u.rdN (key 0x2400 7) = (if mem = 3 then s.rdN (key 0x2400 7) else (s.rdN (key 0x2400 7) + errs.length) % 2 ^ 32) ∧
      u.rdN (key 0x7000 0x10) = if mem = 3 then (s.rdN (key 0x7000 0x10) + errs.length) % 2 ^ 32 else s.rdN (key 0x7000 0x10)) := by
  refine ⟨_, rfl, ?_⟩
  have hnone' : (s.begin t).power.failing.filter (fun p => p / 16 / 4096 / 2 == mem.val) = [] := hnone
  rw [State.scrubPass, hnone']
  dsimp only [State.each, List.foldl_nil]
  by_cases hmem : mem = 3
  · subst hmem
    exact ⟨State.rdN_wr_ne (by decide) (by decide) _ (s.begin t), State.rdN_inc_same _ _ (s.begin t)⟩
  · have hval : mem.val ≠ 3 := fun h => hmem (Fin.ext h)
    have hod (x : State) : (errs.eraseDups.foldl (fun s a => s.correctedIn mem a) x).od = x.od :=
      State.each_eq State.od (fun a _ s => State.od_correctedIn mem a s) x
    simp only [if_neg hmem, if_neg hval]
    have hrd (k : Nat) (hk : OwnDefault k) (x : State) : (errs.eraseDups.foldl (fun s a => s.correctedIn mem a) x).rdN k = x.rdN k :=
      congrArg Int.toNat (State.rd_congr hk (congrArg (Tbl.find? k) (hod x)))
    rw [hrd _ (by decide), hrd _ (by decide)]
    exact ⟨State.rdN_inc_same _ _ (s.begin t), State.rdN_wr_ne (by decide) (by decide) _ (s.begin t)⟩

/-! ### Junction temperatures (R399) -/

/-- The hottest reading and its domain, of the readings after the new one. -/
def hottest (d : Nat) (temp : Int) (l : Tbl Int) : Nat × Int := l.foldl (fun m e => if m.2 < e.2 then e else m) (d, temp)

theorem le_hottest (d : Nat) (temp : Int) (l : Tbl Int) : temp ≤ (hottest d temp l).2 := by
  unfold hottest
  induction l generalizing d temp with
  | nil => exact le_refl temp
  | cons e r ih =>
    rw [List.foldl_cons]
    split
    · next h => exact (le_of_lt h).trans (ih e.1 e.2)
    · exact ih d temp

theorem hottest_set_nil (d : Nat) (temp : Int) : hottest d temp (Tbl.set d temp []) = (d, temp) := by
  simp [hottest, Tbl.set]

theorem hottest_set_single {d e : Nat} (h : e ≠ d) (temp x : Int) :
    hottest d temp (Tbl.set d temp [(e, x)]) = if temp < x then (e, x) else (d, temp) := by
  by_cases hde : d < e
  · simp [hottest, Tbl.set, hde]
  · simp only [hottest, Tbl.set, hde, h, if_false, List.foldl_cons, List.foldl_nil]
    by_cases hx : temp < x
    · simp [hx, not_lt.2 (le_of_lt hx)]
    · simp [hx]

namespace State
variable (d : Nat) (temp : Int) (s : State)

/-- Since when each domain has been hot, after a reading. -/
def hotAfter : Tbl Time :=
  let hot := if 1180 ≤ temp then Tbl.set d s.now s.power.hotSince else if temp < 1130 then Tbl.erase d s.power.hotSince else s.power.hotSince
  if temp < 1230 then Tbl.erase (8 + d) hot else hot

theorem junctionWarning_eq : s.junctionWarning d temp =
    ((((s.junction d temp).modPower (fun p => { p with hotSince := s.hotAfter d temp })).thermalBit 0 ((s.hotAfter d temp).any (fun e => e.1 < 8))).thermalBit 1
      ((s.hotAfter d temp).any (fun e => 8 ≤ e.1))) := rfl

theorem power_thermalBit (i : Nat) (v : Bool) : (s.thermalBit i v).power = s.power := by
  unfold thermalBit
  extract_lets was s1
  split <;> rfl

theorem rd_thermalBit {k : Nat} (h9 : k ≠ vnk 9) (hA : k ≠ vnk 0xA) (hk : OwnDefault k) (i : Nat) (v : Bool) : (s.thermalBit i v).rd k = s.rd k := by
  unfold thermalBit
  extract_lets was s1
  have h1 : s1.rd k = s.rd k := rd_setBit_ne h9 hk i v s
  split
  · exact (rd_wr_ne hA hk _ s1).trans h1
  · exact h1

theorem bit_thermalBit_same (i : Nat) (v : Bool) : (s.thermalBit i v).bit (vnk 9) i = v := by
  unfold thermalBit
  extract_lets was s1
  have h1 : s1.bit (vnk 9) i = v := bit_setBit_same _ _ _ s
  split
  · exact (bit_wr_ne (by decide) (by decide) i _ s1).trans h1
  · exact h1

theorem bit_thermalBit_other {i j : Nat} (hj : j ≠ i) (v : Bool) : (s.thermalBit i v).bit (vnk 9) j = s.bit (vnk 9) j := by
  unfold thermalBit
  extract_lets was s1
  have h1 : s1.bit (vnk 9) j = s.bit (vnk 9) j := bit_setBit_other hj _ _ s
  split
  · exact (bit_wr_ne (by decide) (by decide) j _ s1).trans h1
  · exact h1

theorem rd_junctionWarning {k : Nat} (h9 : k ≠ vnk 9) (hA : k ≠ vnk 0xA) (hk : OwnDefault k) :
    (s.junctionWarning d temp).rd k = (s.junction d temp).rd k := by
  rw [junctionWarning_eq, rd_thermalBit _ h9 hA hk, rd_thermalBit _ h9 hA hk]
  rfl

theorem hot_junctionWarning : (s.junctionWarning d temp).rd (vnk 7) = (hottest d temp (Tbl.set d temp s.power.junctions)).2 ∧
    (s.junctionWarning d temp).rdN (vnk 8) = (hottest d temp (Tbl.set d temp s.power.junctions)).1 := by
  refine ⟨?_, ?_⟩
  · rw [rd_junctionWarning d temp s (by decide) (by decide) (by decide)]
    exact (rd_wr_ne (by decide) (by decide) _ _).trans (rd_wr_same _ _ _)
  · rw [rdN, rd_junctionWarning d temp s (by decide) (by decide) (by decide)]
    exact congrArg Int.toNat (rd_wr_same _ _ _)

theorem power_junctionWarning : (s.junctionWarning d temp).power.hotSince = s.hotAfter d temp := by
  rw [junctionWarning_eq, power_thermalBit, power_thermalBit]
  rfl

variable {d temp}

theorem hotAfter_hot (h : 1180 ≤ temp) : Tbl.find? d (s.hotAfter d temp) = some s.now := by
  unfold hotAfter
  simp only [h, if_true]
  split
  · rw [Tbl.find?_erase_other _ (by omega), Tbl.find?_set_same]
  · exact Tbl.find?_set_same _ _ _

theorem warns_junctionWarning (hd : d < 8) (h : 1180 ≤ temp) : Tbl.find? d (s.junctionWarning d temp).power.hotSince = some s.now ∧
    (s.junctionWarning d temp).bit (vnk 9) 0 = true := by
  have hfind := hotAfter_hot s (d := d) h
  refine ⟨by rw [power_junctionWarning, hfind], ?_⟩
  rw [junctionWarning_eq, bit_thermalBit_other _ (by decide), bit_thermalBit_same]
  exact List.any_eq_true.2 ⟨_, Tbl.mem_of_find? hfind, by simpa using hd⟩

end State

/-- What follows on a domain that stops leaves the domains and the temperatures. -/
theorem State.domFault_follows {d : Nat} {s : State} (h : s.dom d = 1 ∨ s.dom d = 2) {k : Nat} (hk : zone k = 8 ∨ zone k = 11) :
    Tbl.find? k (s.domFault d).od = Tbl.find? k (s.wr (dk d) 3).od := by
  have hbelow : k < key 0x7000 0 := by
    by_contra hle
    have := zone_mono (not_lt.1 hle)
    have : zone (key 0x7000 0) = 68 := by decide
    omega
  have keep {m : Nat} {x y : State} (h : Kept m x y) (h8 : m.testBit 28 = false) (h11 : m.testBit 31 = false) :
      Tbl.find? k y.od = Tbl.find? k x.od := hk.elim (fun hz => h.find?_eq hz h8) (fun hz => h.find?_eq hz h11)
  unfold State.domFault
  extract_lets st s1 s2
  have hst : ¬(decide (st = 0) || decide (st = 3)) = true := by
    have hd : st = 1 ∨ st = 2 := h
    rcases hd with hd | hd <;> simp [hd]
  have h1 : Tbl.find? k s1.od = Tbl.find? k (s.wr (dk d) 3).od := State.find?_logEvent hbelow _ _ _ _
  have h2 : Tbl.find? k s2.od = Tbl.find? k s1.od :=
    keep (Kept.ite (State.domStops_kept (Sub.refl _) (Kept.refl _ s1)) (Kept.refl _ s1)) (by decide) (by decide)
  rw [if_neg hst, ← h1, ← h2]
  split
  · exact keep (State.startFail_kept (Sub.refl _) (Kept.refl _ s2)) (by decide) (by decide)
  · exact keep (Kept.ite (State.setMod_kept (Sub.refl _) (Kept.refl _ s2)) (Kept.refl _ s2)) (by decide) (by decide)

theorem State.dom_eq_of_find? {d : Nat} {s : State} {v : Int} (h : Tbl.find? (dk d) s.od = some v) : s.dom d = v.toNat :=
  congrArg Int.toNat (State.rd_of_find? h)

theorem junctionFault_faults {t : Time} {d : DomainNo} {temp : Int} {s : State} (htemp : 1230 ≤ temp) (hd : d.val ∈ [1, 2, 3, 4, 6])
    (hon : s.dom d = 1 ∨ s.dom d = 2) : Completes (.junctionFault t d temp) s (fun u => u.bit (vnk 9) 1 = true ∧ u.dom d = 3) := by
  refine ⟨(s.begin t).junctionFault d temp, rfl, ?_⟩
  have hlt : d.val < 8 := d.isLt
  have hgo : (decide (1230 ≤ temp) && [1, 2, 3, 4, 6].contains d.val) = true := by simpa [htemp] using hd
  unfold State.junctionFault
  extract_lets s1 s2
  rw [if_pos hgo]
  have hne9 : dk d ≠ vnk 9 := by simp only [dk, vnk, key]; omega
  have hneA : dk d ≠ vnk 0xA := by simp only [dk, vnk, key]; omega
  have hne7 : dk d ≠ vnk 7 := by simp only [dk, vnk, key]; omega
  have hne8 : dk d ≠ vnk 8 := by simp only [dk, vnk, key]; omega
  have hown : OwnDefault (dk d) := .inl (by simp only [dk, key]; omega)
  have hdom : (s2.thermalBit 1 true).dom d = s.dom d := by
    rw [State.dom, State.rdN, State.rd_thermalBit _ hne9 hneA hown]
    have h1 : s1.rd (dk d) = s.rd (dk d) :=
      (State.rd_junctionWarning _ _ _ hne9 hneA hown).trans ((State.rd_wr_ne hne8 hown _ _).trans (State.rd_wr_ne hne7 hown _ _))
    exact congrArg Int.toNat h1
  have hbit : (s2.thermalBit 1 true).bit (vnk 9) 1 = true := State.bit_thermalBit_same s2 1 true
  generalize s2.thermalBit 1 true = x at *
  have hfollows {k : Nat} := State.domFault_follows (k := k) (hdom.symm ▸ hon)
  have hzone : zone (dk d) = 8 :=
    zone_between (lo := key 0x2100 0) (hi := key 0x2100 9) (by decide) (by decide) (by simp only [dk, key]; omega) (by simp only [dk, key]; omega)
  refine ⟨?_, (State.dom_eq_of_find? ((hfollows (.inl hzone)).trans (Tbl.find?_set_same _ _ _)))⟩
  have hrd : (x.domFault d).rd (vnk 9) = x.rd (vnk 9) :=
    (State.rd_congr (by decide) (hfollows (.inr (by decide)))).trans (State.rd_wr_ne hne9.symm (by decide) 3 x)
  rw [← hbit, State.bit, State.bit, State.rdN, State.rdN, hrd]

/-- Settles O51: what is counted and stopped stays through what follows, and the readings keep the hottest domain. -/
theorem repairAndThermalCommandsComplete : Obligations.RepairAndThermalCommandsComplete := by
  unfold Obligations.RepairAndThermalCommandsComplete
  refine ⟨fun t mem errs s hnone => scrubPass_counts errs hnone,
    fun t addr x s => ⟨fun mem b => uncorrectable_drops t mem addr x b s, uncorrectable_island addr x⟩, ?warns, ?hottest,
    fun t d temp s => junctionFault_faults⟩
  case warns =>
    intro t d temp s h
    have hwarns := State.warns_junctionWarning (s.begin t) d.isLt h
    have hnow := (State.junctionWarning_kept (d := d) (temp := temp) (Sub.refl _) (Kept.refl _ (s.begin t))).now
    exact ⟨_, rfl, hwarns.1.trans (congrArg some hnow.symm), hwarns.2⟩
  case hottest =>
    intro t d temp s
    have hhot := (s.begin t).hot_junctionWarning d temp
    refine ⟨⟨_, rfl, (le_hottest _ _ _).trans_eq hhot.1.symm⟩, fun hnil => ⟨_, rfl, ?_⟩, fun e x hne hone => ⟨_, rfl, ?_⟩⟩
    · have hj : (s.begin t).power.junctions = [] := hnil
      rw [hj, hottest_set_nil] at hhot
      exact hhot
    · have hj : (s.begin t).power.junctions = [(e, x)] := hone
      rw [hj, hottest_set_single hne] at hhot
      by_cases hx : temp < x
      · rw [if_pos hx] at hhot ⊢
        exact ⟨hhot.1.trans (max_eq_right (le_of_lt hx)).symm, hhot.2⟩
      · rw [if_neg hx] at hhot ⊢
        exact ⟨hhot.1.trans (max_eq_left (not_lt.1 hx)).symm, hhot.2⟩

end Sys2Proof.Machine
end

section
/-! The store and its proof check (R323 to R327, R399): charging and its limit, temperature, what a check's end records and brings about, and
the checks that start by themselves. -/

namespace Sys2Proof.Machine

/-! ### A start failure (R331) -/

theorem ownDefault_mdk {a : Nat} (h : a < 256) : OwnDefault (mdk a) := .inl (by simp only [mdk, key]; omega)

theorem State.find?_mod_trialFailure (code k : Nat) (s : State) : Tbl.find? k (s.trialFailure code).od = Tbl.find? k s.od := by
  unfold State.trialFailure
  split <;> rfl

/-- A module in Proof that fails to start waits, with the failure's code and one more attempt. -/
theorem State.startFail_fails {s : State} (hmod : s.mod = .proof) (code : Nat) : (s.startFail code).mod = .faultWait ∧
    (s.startFail code).rdN (mdk 0xA) = code ∧ (s.startFail code).rdN (mdk 8) = min 255 (s.rdN (mdk 8) + 1) := by
  unfold State.startFail
  extract_lets k w s1 s2 s3
  have hgo : ¬(s.mod != .init && s.mod != .proof) = true := by simp [hmod]
  rw [if_neg hgo]
  have h2 : s2.mod = .proof := by
    rw [← hmod, State.mod, State.mod, State.rdN, State.rdN, State.rd_congr (by decide) (State.find?_mod_trialFailure code _ s1)]
    rfl
  have h3 : s3.mod = .faultWait := State.mod_setMod (by simp [h2]) (by simp [h2]) nofun
  have hlow {a : Nat} (ha : a < 256) (s : State) (data : List Byte) : (s.logEvent 0x0005 0 data).rdN (mdk a) = s.rdN (mdk a) :=
    State.rdN_logEvent (by simp only [mdk, key]; omega) (ownDefault_mdk ha) _ _ _ s
  refine ⟨?_, ?_, ?_⟩
  · rw [← h3]
    exact congrArg ModState.ofCode ((hlow (a := 1) (by decide) _ _).trans ((State.rdN_wr_ne (by decide) (by decide) _ _).trans
      ((State.rdN_wr_ne (by decide) (by decide) _ _).trans (State.rdN_wr_ne (by decide) (by decide) _ s3))))
  · exact (hlow (by decide) _ _).trans (congrArg Int.toNat (State.rd_wr_same _ _ _))
  · exact (hlow (by decide) _ _).trans ((State.rdN_wr_ne (by decide) (by decide) _ _).trans ((State.rdN_wr_ne (by decide) (by decide) _ _).trans
      (congrArg Int.toNat (State.rd_wr_same _ _ s3))))

theorem chargeTimeout_fails {t : Time} {s : State} (hmod : s.mod = .proof) (hcharged : s.power.charged = false)
    (hdue : s.power.proofAt + Time.sec 30 ≤ max t s.now) : Completes (.chargeTimeout t) s (fun u =>
      u.mod = .faultWait ∧ u.rdN (mdk 0xA) = 6 ∧ u.rdN (mdk 8) = min 255 (s.rdN (mdk 8) + 1)) := by
  refine ⟨(s.begin t).chargeTimeout, rfl, ?_⟩
  have hgo : ((s.begin t).mod == .proof && !(s.begin t).power.charged && decide ((s.begin t).power.proofAt + Time.sec 30 ≤ (s.begin t).now)) = true := by
    have hm : (s.begin t).mod = .proof := hmod
    simpa [hm, hcharged] using hdue
  rw [State.chargeTimeout, if_pos hgo]
  exact State.startFail_fails (s := s.begin t) hmod 6

/-! ### Charging and temperature (R323, R399) -/

theorem ownDefault_stk {a : Nat} (h : a < 256) : OwnDefault (stk a) := .inl (by simp only [stk, key]; omega)

theorem State.wantCheck_charges {kind : Nat} {s : State} (hoff : s.bit (stk 0xF) 0 = false) : (s.wantCheck kind).bit (stk 0xF) 0 = false ∧
    (s.wantCheck kind).rd (stk 1) = s.rd (stk 1) ∧ (s.wantCheck kind).power.charged = s.power.charged := by
  unfold State.wantCheck
  split
  · exact ⟨hoff, rfl, rfl⟩
  · exact ⟨State.bit_setBit_same _ _ _ _, State.rd_setBit_ne (by decide) (by decide) _ _ _, rfl⟩

/-- The store is charged: it reads V_chg, and the charger is off. -/
def State.storeFull (s : State) : State :=
  ((s.wr (stk 1) (s.rd (stk 2))).setBit (stk 0xF) 0 false).modPower (fun p =>
    { p with charged := true, chargedAt := if s.rdN (stk 1) + 100 < s.rdN (stk 2) then some s.now else p.chargedAt })

theorem State.storeCharged_eq (s : State) : s.storeCharged =
    if s.storeFull.mod == .proof && !s.storeFull.power.proofPassed && s.storeFull.power.check.isNone then s.storeFull.startCheck 0 s.storeFull.now
    else match s.storeFull.power.wanted with
      | some k => if holdFollows s.storeFull.mod && s.storeFull.power.check.isNone then s.storeFull.wantCheck k else s.storeFull
      | none => s.storeFull := rfl

theorem State.storeFull_charges (s : State) : s.storeFull.bit (stk 0xF) 0 = false ∧ s.storeFull.rd (stk 1) = s.rd (stk 2) ∧
    s.storeFull.power.charged = true :=
  ⟨State.bit_setBit_same _ _ _ _, (State.rd_setBit_ne (by decide) (by decide) _ _ _).trans (State.rd_wr_same _ _ _), rfl⟩

theorem State.mod_storeFull (s : State) : s.storeFull.mod = s.mod :=
  congrArg ModState.ofCode (congrArg Int.toNat ((State.rd_setBit_ne (by decide) (by decide) _ _ _).trans (State.rd_wr_ne (by decide) (by decide) _ s)))

theorem storeCharged_completes (t : Time) (s : State) : Completes (.storeCharged t) s (fun u =>
    u.rd (stk 1) = s.rd (stk 2) ∧ u.bit (stk 0xF) 0 = false ∧ u.power.charged = true ∧
      (s.mod = .proof → s.power.proofPassed = false → s.power.check = none → u.power.check = some ⟨0, u.now⟩)) := by
  refine ⟨(s.begin t).storeCharged, rfl, ?_⟩
  obtain ⟨hbit, hrd, hcharged⟩ := State.storeFull_charges (s.begin t)
  have hmod : (s.begin t).storeFull.mod = s.mod := State.mod_storeFull (s.begin t)
  have hpassed : (s.begin t).storeFull.power.proofPassed = s.power.proofPassed := rfl
  have hcheck : (s.begin t).storeFull.power.check = s.power.check := rfl
  rw [State.storeCharged_eq]
  generalize (s.begin t).storeFull = x at *
  by_cases hgo : (x.mod == .proof && !x.power.proofPassed && x.power.check.isNone) = true
  · rw [if_pos hgo]
    exact ⟨(State.rd_setBit_ne (by decide) (by decide) _ _ _).trans hrd, State.bit_setBit_same _ _ _ _, hcharged, fun _ _ _ => rfl⟩
  · rw [if_neg hgo]
    have hnot : s.mod = .proof → s.power.proofPassed = false → s.power.check = none → False := fun hm hp hc => hgo (by simp [hmod, hm, hpassed, hp, hcheck, hc])
    split
    · split
      · obtain ⟨hb, hr, hc⟩ := State.wantCheck_charges hbit
        exact ⟨hr.trans hrd, hb, hc.trans hcharged, fun hm hp hc => (hnot hm hp hc).elim⟩
      · exact ⟨hrd, hbit, hcharged, fun hm hp hc => (hnot hm hp hc).elim⟩
    · exact ⟨hrd, hbit, hcharged, fun hm hp hc => (hnot hm hp hc).elim⟩

theorem State.rd_chargerOn {k : Nat} (hk : k ≠ stk 0xF) (hown : OwnDefault k) (s : State) : s.chargerOn.rd k = s.rd k :=
  State.rd_setBit_ne hk hown _ _ s

theorem State.storeTemperature_sets (temp : Int) (s : State) : (s.storeTemperature temp).rd (stk 3) = temp ∧
    (s.storeTemperature temp).rd (stk 2) = (if 600 ≤ temp then 5000 else if temp < 550 then 5400 else s.rd (stk 2)) ∧
    (s.storeTemperature temp).power = s.power := by
  unfold State.storeTemperature
  extract_lets s1
  have h3 : s1.rd (stk 3) = temp := State.rd_wr_same _ _ s
  have h2 : s1.rd (stk 2) = s.rd (stk 2) := State.rd_wr_ne (by decide) (by decide) _ s
  have hset (v : Int) : (s1.wr (stk 2) v).chargerOn.rd (stk 3) = temp ∧ (s1.wr (stk 2) v).chargerOn.rd (stk 2) = v ∧
      (s1.wr (stk 2) v).chargerOn.power = s.power :=
    ⟨(State.rd_chargerOn (by decide) (by decide) _).trans ((State.rd_wr_ne (by decide) (by decide) _ s1).trans h3),
      (State.rd_chargerOn (by decide) (by decide) _).trans (State.rd_wr_same _ _ s1), rfl⟩
  by_cases hhot : 600 ≤ temp
  · simp only [hhot, if_true]
    exact hset 5000
  · simp only [hhot, if_false]
    by_cases hcold : temp < 550
    · by_cases hset' : s1.rdN (stk 2) = 5400
      · have hrd : s1.rd (stk 2) = 5400 := by
          rw [State.rdN] at hset'
          omega
        simp [hcold, hset', h3, hrd, s1]
      · simp only [hcold, decide_true, Bool.true_and, bne_iff_ne, ne_eq, hset', not_false_eq_true, if_true]
        exact hset 5400
    · simp only [hcold, decide_false, Bool.false_and, Bool.false_eq_true, if_false]
      exact ⟨h3, h2, rfl⟩

theorem storeHot_stops {t : Time} {temp : Int} {s : State} (htemp : 880 ≤ temp) (hcool : s.power.storeHot = false) :
    Completes (.storeHot t temp) s (fun u => u.power.storeHot = true ∧ u.bit (stk 0xF) 0 = false ∧
      u.rd (stk 3) = temp ∧ u.rd (stk 2) = 5000 ∧ u.bit (vnk 9) 2 = true ∧ u.rdN (vnk 0xA) = (s.rdN (vnk 0xA) + 1) % 2 ^ 32) := by
  refine ⟨(s.begin t).storeHot temp, rfl, ?_⟩
  obtain ⟨h3, h2, hpower⟩ := (s.begin t).storeTemperature_sets temp
  have hA : ((s.begin t).storeTemperature temp).rdN (vnk 0xA) = s.rdN (vnk 0xA) :=
    congrArg Int.toNat ((State.storeTemperature_kept (Sub.refl _) (Kept.refl _ (s.begin t))).rd_eq (z := 11) (by decide) (by decide) (by decide))
  rw [if_pos (by omega)] at h2
  unfold State.storeHot
  extract_lets s1
  have hs1 : (s.begin t).storeTemperature temp = s1 := rfl
  rw [hs1] at h3 h2 hpower hA
  have hhot : s1.power.storeHot = false := (congrArg Power.storeHot hpower).trans hcool
  clear_value s1
  have hgo : (decide (880 ≤ temp) && !s1.power.storeHot) = true := by simp [htemp, hhot]
  rw [if_pos hgo]
  refine ⟨rfl, ?_, ?_, ?_, ?_, ?_⟩
  · exact (State.bit_wr_ne (by decide) (by decide) _ _ _).trans ((State.bit_wr_ne (by decide) (by decide) _ _ _).trans (State.bit_setBit_same _ _ _ _))
  · exact (State.rd_wr_ne (by decide) (by decide) _ _).trans ((State.rd_setBit_ne (by decide) (by decide) _ _ _).trans
      ((State.rd_setBit_ne (by decide) (by decide) _ _ _).trans h3))
  · exact (State.rd_wr_ne (by decide) (by decide) _ _).trans ((State.rd_setBit_ne (by decide) (by decide) _ _ _).trans
      ((State.rd_setBit_ne (by decide) (by decide) _ _ _).trans h2))
  · exact (State.bit_wr_ne (by decide) (by decide) _ _ _).trans (State.bit_setBit_same _ _ _ _)
  · rw [State.rdN_inc_same, State.rdN_setBit_ne (by decide) (by decide), State.rdN_setBit_ne (by decide) (by decide), ← hA]
    rfl

theorem storeHot_resumes {t : Time} {temp : Int} {s : State} (htemp : temp < 830) (hhot : s.power.storeHot = true) :
    Completes (.storeHot t temp) s (fun u => u.power.storeHot = false ∧ u.bit (vnk 9) 2 = false) := by
  refine ⟨(s.begin t).storeHot temp, rfl, ?_⟩
  obtain ⟨h3, h2, hpower⟩ := (s.begin t).storeTemperature_sets temp
  unfold State.storeHot
  extract_lets s1
  have hhot' : s1.power.storeHot = true := (congrArg Power.storeHot hpower).trans hhot
  clear_value s1
  have hno : ¬(decide (880 ≤ temp) && !s1.power.storeHot) = true := by simp [hhot']
  have hgo : (decide (temp < 830) && s1.power.storeHot) = true := by simp [htemp, hhot']
  rw [if_neg hno, if_pos hgo]
  exact ⟨rfl, (State.bit_wr_ne (by decide) (by decide) _ _ _).trans (State.bit_setBit_same _ _ _ _)⟩

/-! ### Checks that start by themselves (R326, R327) -/

theorem holdFollows_of_code {m : ModState} (h : m.code ∈ [3, 4, 5, 6]) : holdFollows m = true := by
  cases m <;> revert h <;> decide

theorem State.wantCheck_full {kind : Nat} {s : State} (h : s.rdN (stk 2) ≤ s.rdN (stk 1)) :
    s.wantCheck kind = s.startCheck kind (if kind = 3 then s.now else s.checkFrom) := by
  rw [State.wantCheck, if_neg (not_lt.2 h)]

theorem State.wantCheck_low {kind : Nat} {s : State} (h : s.rdN (stk 1) < s.rdN (stk 2)) :
    s.wantCheck kind = s.modPower (fun p => { p with wanted := some kind }) := by
  rw [State.wantCheck, if_pos h]

theorem State.proofInterval_of_due {s : State} (hdue : s.power.lastCheck + 3600 * Time.sec (s.rdN (stk 0xC)) ≤ s.now) (hmod : s.mod.code ∈ [3, 4, 5, 6])
    (hcheck : s.power.check = none) (hlong : s.longOp = 0) (hfrozen : s.log.frozenSince = none) (hsupply : s.power.supply = true) :
    s.proofInterval = s.wantCheck 1 := by
  unfold State.proofInterval
  extract_lets due
  have hd : due := hdue
  exact if_pos (by simp [hd, holdFollows_of_code hmod, hcheck, hlong, hfrozen, hsupply])

theorem State.proofRepeat_of_due {s : State} {a : Time} (hat : s.power.repeatAt = some a) (hdue : a ≤ s.now) (hcheck : s.power.check = none)
    (hmod : s.mod.code ∈ [3, 4, 5, 6]) : s.proofRepeat = (s.modPower (fun p => { p with repeatAt := none })).wantCheck 3 := by
  unfold State.proofRepeat
  rw [hat]
  exact if_pos (by simp [hdue, holdFollows_of_code hmod, hcheck])

/-! ### The end of a proof check (R324 to R326) -/

/-- The check is over; one free value is drawn. -/
def State.checkOver (s : State) : State :=
  { s.modPower (fun p => { p with check := none, lastCheck := s.now }) with fresh := s.fresh + 1 }

/-- A check's figures and result in the entries, and its event. -/
def State.checkRecorded (again inRange : Bool) (c esr eu result vb : Nat) (s : State) : State :=
  let s := (((s.wr (stk 4) (c % 2 ^ 32 : Nat)).wr (stk 5) (esr % 2 ^ 32 : Nat)).wr (stk 6) eu).wr (stk 7) result
  let s := (s.wr (stk 8) s.tai).inc (stk 0xD)
  let s := s.setBit (stk 0xF) 2 ((inRange || again) && decide ((eu : Rat) < fval (s.rdF (stk 0xB)) * 1000))
  let s := (s.wr (stk 1) (vb / 10 : Nat)).setBit (stk 0xF) 0 (!s.power.storeHot)
  s.logEvent 0x0006 0 (d8 result ++ d32 c ++ d32 esr ++ d32 eu)

/-- What a check of a kind brings about. -/
def State.checkJudged (kind result eu : Nat) (s : State) : State :=
  if kind = 0 then
    if result = 1 then ((s.setBit (stk 0xF) 1 false).modPower (fun p => { p with proofPassed := true, proofHeld := true })).powerRest
    else s.startFail (if result = 3 then 4 else 5)
  else s.judgeStore result eu kind

/-- The figures that a check records (R324, R325): out of range without energy, and as computed within it. -/
structure CheckFigures (v0 va vb vchg : Nat) (limit : Rat) (inRange : Bool) (c esr eu result : Nat) : Prop where
  below : va ≤ vb → eu = 0 ∧ result = 3
  within : ∀ x y : Rat, proofFigures v0 va vb = some (x, y) → 1 / 2 ≤ x → x ≤ 4 → 1 / 1000 ≤ y → y ≤ 1 / 2 →
    c = (roundRat (1000 * x)).toNat ∧ esr = (roundRat (1000000 * y)).toNat ∧
    eu = usableEnergy (roundRat (1000 * x)).toNat (roundRat (1000000 * y)).toNat vchg ∧
    result = if limit * 1000 ≤ (eu : Rat) then 1 else 2

theorem proofFigures_none {v0 va vb : Nat} (h : va ≤ vb) : proofFigures v0 va vb = none := by
  unfold proofFigures
  have hle : (va : Rat) - vb ≤ 0 := by
    have : (va : Rat) ≤ vb := by exact_mod_cast h
    linarith
  exact if_pos hle

theorem State.checkEnd_of_due {v0 va vb : Nat} {s : State} {r : ProofRun} (hr : s.power.check = some r) (hdue : r.start + Time.ms 50 ≤ s.now) :
    ∃ inRange c esr eu result, CheckFigures v0 va vb (s.rdN (stk 2)) (fval (s.rdF (stk 0xA))) inRange c esr eu result ∧
      s.checkEnd v0 va vb = (s.checkOver.checkRecorded (decide (r.kind = 3)) inRange c esr eu result vb).checkJudged r.kind result eu := by
  unfold State.checkEnd
  rw [hr]
  dsimp -zeta only
  rw [if_neg (not_lt.2 hdue)]
  extract_lets s1 fig open_ c esr inRange eu result s2 s3 s4 s5 s6
  have hover : s1.draw.2 = s.checkOver := rfl
  refine ⟨inRange, c, esr, eu, result, ⟨fun hle => ?below, fun x y hxy hx hx' hy hy' => ?within⟩, ?run⟩
  case below =>
    have hfig : fig = none := proofFigures_none hle
    simp [eu, result, inRange, hfig]
  case within =>
    have hfig : fig = some (x, y) := hxy
    have hpos : ¬y < 0 := by linarith
    have hc : c = (roundRat (1000 * x)).toNat := by simp [c, hfig]
    have hesr : esr = (roundRat (1000000 * y)).toNat := by simp [esr, hfig, hpos]
    have hin : inRange = true := by simpa [inRange, hfig, hx'] using And.intro (And.intro hx hy) hy'
    refine ⟨hc, hesr, ?_, ?_⟩
    · rw [← hc, ← hesr]
      exact if_pos hin
    · exact (if_neg (by simp [hin])).trans rfl
  case run =>
    clear_value c esr eu result inRange
    rfl

section
variable (again inRange : Bool) (c esr eu result vb : Nat) (s : State)

theorem State.rd_checkRecorded : (s.checkRecorded again inRange c esr eu result vb).rdN (stk 4) = c % 2 ^ 32 ∧
    (s.checkRecorded again inRange c esr eu result vb).rdN (stk 5) = esr % 2 ^ 32 ∧
    (s.checkRecorded again inRange c esr eu result vb).rdN (stk 6) = eu ∧
    (s.checkRecorded again inRange c esr eu result vb).rdN (stk 7) = result ∧
    (s.checkRecorded again inRange c esr eu result vb).rdN (stk 0xD) = (s.rdN (stk 0xD) + 1) % 2 ^ 32 := by
  unfold State.checkRecorded
  extract_lets s1 s2 s3 s4
  have h34 {a : Nat} (ha : a < 256) (hF : a ≠ 0xF) (h1 : a ≠ 1) : (s4.logEvent 0x0006 0 (d8 result ++ d32 c ++ d32 esr ++ d32 eu)).rdN (stk a) = s2.rdN (stk a) := by
    have hne {b : Nat} (h : a ≠ b) (hb : b < 256) : stk a ≠ stk b := by simp only [stk, key]; omega
    have hown := ownDefault_stk ha
    rw [State.rdN_logEvent (by simp only [stk, key]; omega) hown, State.rdN_setBit_ne (hne hF (by decide)) hown,
      State.rdN_wr_ne (hne h1 (by decide)) hown, State.rdN_setBit_ne (hne hF (by decide)) hown]
  have h2 {a : Nat} (ha : a < 8) : s2.rdN (stk a) = s1.rdN (stk a) := by
    have hne {b : Nat} (h : a ≠ b) (hb : b < 256) : stk a ≠ stk b := by simp only [stk, key]; omega
    have hown : OwnDefault (stk a) := ownDefault_stk (by omega)
    exact (State.rdN_wr_ne (hne (by omega) (by decide)) hown _ _).trans (State.rdN_wr_ne (hne (by omega) (by decide)) hown _ _)
  have h1 {a : Nat} (hne : stk 0xD ≠ stk a) (v : Int) (s : State) : (s.wr (stk a) v).rdN (stk 0xD) = s.rdN (stk 0xD) :=
    State.rdN_wr_ne hne (by decide) v s
  have hsame {k : Nat} (n : Nat) (s : State) : (s.wr k n).rdN k = n := congrArg Int.toNat (State.rd_wr_same k _ s)
  refine ⟨?_, ?_, ?_, ?_, ?_⟩
  · rw [h34 (by decide) (by decide) (by decide), h2 (by decide), State.rdN_wr_ne (by decide) (by decide), State.rdN_wr_ne (by decide) (by decide),
      State.rdN_wr_ne (by decide) (by decide), hsame]
  · rw [h34 (by decide) (by decide) (by decide), h2 (by decide), State.rdN_wr_ne (by decide) (by decide), State.rdN_wr_ne (by decide) (by decide), hsame]
  · rw [h34 (by decide) (by decide) (by decide), h2 (by decide), State.rdN_wr_ne (by decide) (by decide), hsame]
  · rw [h34 (by decide) (by decide) (by decide), h2 (by decide), hsame]
  · rw [h34 (by decide) (by decide) (by decide), State.rdN_inc_same, h1 (by decide), h1 (by decide), h1 (by decide), h1 (by decide), h1 (by decide)]

theorem State.checkRecorded_leaves : (s.checkRecorded again inRange c esr eu result vb).power = s.power ∧
    (s.checkRecorded again inRange c esr eu result vb).now = s.now ∧ (s.checkRecorded again inRange c esr eu result vb).mod = s.mod := by
  unfold State.checkRecorded
  extract_lets s1 s2 s3 s4
  have hmod {a : Nat} (v : Int) (x : State) (ha : a < 256) : (x.wr (stk a) v).rdN (key 0x2000 1) = x.rdN (key 0x2000 1) :=
    State.rdN_wr_ne (by simp only [stk, key]; omega) (by decide) v x
  have h1 : s1.rdN (key 0x2000 1) = s.rdN (key 0x2000 1) := by
    rw [hmod _ _ (by decide), hmod _ _ (by decide), hmod _ _ (by decide), hmod _ _ (by decide)]
  have h2 : s2.rdN (key 0x2000 1) = s1.rdN (key 0x2000 1) := (hmod _ _ (by decide)).trans (hmod _ _ (by decide))
  have h3 : s3.rdN (key 0x2000 1) = s2.rdN (key 0x2000 1) := hmod _ _ (by decide)
  have h4 : s4.rdN (key 0x2000 1) = s3.rdN (key 0x2000 1) := (hmod _ _ (by decide)).trans (hmod _ _ (by decide))
  refine ⟨(State.logEvent_power ..).trans ?_, (State.logEvent_now ..).trans ?_, ?_⟩
  · have p1 : s1.power = s.power := rfl
    have p2 : s2.power = s1.power := rfl
    have p3 : s3.power = s2.power := rfl
    have p4 : s4.power = s3.power := rfl
    rw [p4, p3, p2, p1]
  · have n1 : s1.now = s.now := rfl
    have n2 : s2.now = s1.now := rfl
    have n3 : s3.now = s2.now := rfl
    have n4 : s4.now = s3.now := rfl
    rw [n4, n3, n2, n1]
  · exact congrArg ModState.ofCode ((State.rdN_logEvent (by decide) (by decide) _ _ _ s4).trans (h4.trans (h3.trans (h2.trans h1))))

end

/-- A low store brings about a handover or SafeHold; the check stays over. -/
theorem State.check_lowStore (s : State) : s.lowStore.power.check = s.power.check ∧ s.lowStore.power.lastCheck = s.power.lastCheck := by
  unfold State.lowStore
  split
  · rw [(State.askHandover_kept (Sub.refl _) (Kept.refl _ _)).powerSame rfl]
    exact ⟨rfl, rfl⟩
  · rw [(State.setMod_kept (Sub.refl _) (Kept.refl _ _)).powerSame rfl]
    exact ⟨rfl, rfl⟩

theorem State.judgeStore_leaves (result eu kind : Nat) (s : State) :
    ((s.judgeStore result eu kind).power.check = s.power.check ∧ (s.judgeStore result eu kind).power.lastCheck = s.power.lastCheck) ∧
    ∀ k, zone k = 13 → k ≠ stk 0xF → Tbl.find? k (s.judgeStore result eu kind).od = Tbl.find? k s.od := by
  unfold State.judgeStore
  extract_lets was s1 s2
  have hfind {k : Nat} (hF : k ≠ stk 0xF) : Tbl.find? k s2.od = Tbl.find? k s.od := State.find?_setBit_ne hF _ _ _
  have hpower : s2.power.check = s.power.check ∧ s2.power.lastCheck = s.power.lastCheck := ⟨rfl, rfl⟩
  clear_value s2
  split
  · obtain ⟨hc, hl⟩ := State.check_lowStore s2
    exact ⟨⟨hc.trans hpower.1, hl.trans hpower.2⟩, fun k hz hF => ((State.lowStore_kept (Sub.refl _) (Kept.refl _ s2)).find?_eq hz (by decide)).trans (hfind hF)⟩
  · split
    · have h := State.storeHandover_kept (Sub.refl _) (Kept.refl _ s2)
      rw [h.powerSame rfl]
      exact ⟨hpower, fun k hz hF => (h.find?_eq hz (by decide)).trans (hfind hF)⟩
    · exact ⟨hpower, fun k _ hF => hfind hF⟩

theorem State.power_each {α : Type} {l : List α} {f : α → State → State} (h : ∀ a s, (f a s).power = s.power) (s : State) :
    (s.each l f).power = s.power := State.each_eq State.power (fun a _ s => h a s) s

theorem State.power_ite {c : Prop} [Decidable c] {s t u : State} (ht : t.power = s.power) (hu : u.power = s.power) :
    (if c then t else u).power = s.power := State.same_ite State.power ht hu

theorem State.power_syncReports (c : Nat) (s : State) : (s.syncReports c).power = s.power :=
  (State.syncReports_kept (Sub.refl _) (Kept.refl _ s)).powerSame rfl

/-- What a start finds and brings into force leaves the proof check's result (R332). -/
theorem State.proofPassed_applyStored (s : State) : s.applyStored.power.proofPassed = s.power.proofPassed := by
  unfold State.applyStored
  extract_lets s1 recipe
  have h1 : s1.power.proofPassed = s.power.proofPassed := rfl
  rw [← h1]
  clear_value s1
  generalize s1.power.stored.getD ([], []) = p
  obtain ⟨od, blobs⟩ := p
  dsimp -zeta only
  extract_lets s2 s3 s4 s5 s6 s7 s8
  have h2 : s2.power = s1.power := (State.storedSettings_kept (Sub.refl _) (Kept.refl _ s1)).powerSame rfl
  clear_value s2
  have howners : s2.syncOwners.power = s2.power := (State.syncOwners_kept (Sub.refl _) (Kept.refl _ s2)).powerSame rfl
  have h3 : s3.power = s2.syncOwners.power :=
    State.power_each (f := State.syncReports) State.power_syncReports s2.syncOwners
  have h4 : s4.power = s3.power := State.power_each (fun _ x => (State.reloadRecipe_kept (Sub.refl _) (Kept.refl _ x)).powerSame rfl) s3
  have h5 : s5.power = s4.power := State.power_each (fun e x => by split; exacts [rfl, rfl]) s4
  have h6 : s6.power = s5.power := State.power_each (fun e x => by split; exacts [rfl, rfl]) s5
  have h7 : s7.power = s6.power := State.power_each (fun k x =>
    ((State.syncLink_kept (Sub.refl _) (Kept.refl _ _)).powerSame rfl).trans
      (State.power_ite rfl ((State.linkOff_kept (Sub.refl _) (Kept.refl _ x)).powerSame rfl))) s6
  have h8 : s8.power = s7.power := ((State.syncCopyLoad_kept (Sub.refl _) (Kept.refl _ _)).powerSame rfl).trans
    (State.power_each (fun _ x => (State.syncTimeline_kept (Sub.refl _) (Kept.refl _ x)).powerSame rfl) s7)
  have h9 : (s8.queuesInForce.pubLists.syncTwin.reselect.portStates).power = s8.power := by
    rw [(State.portStates_kept (Sub.refl _) (Kept.refl _ _)).powerSame rfl, (State.reselect_kept (Sub.refl _) (Kept.refl _ _)).powerSame rfl,
      (State.syncTwin_kept (Sub.refl _) (Kept.refl _ _)).powerSame rfl, (State.pubLists_kept (Sub.refl _) (Kept.refl _ _)).powerSame rfl,
      (State.queuesInForce_kept (Sub.refl _) (Kept.refl _ _)).powerSame rfl]
  rw [h9, h8, h7, h6, h5, h4, h3, howners, h2]

theorem State.proofPassed_powerRest (s : State) : s.powerRest.power.proofPassed = s.power.proofPassed := by
  have hset {x : State} (m : ModState) : (x.setMod m).power = x.power := (State.setMod_kept (Sub.refl _) (Kept.refl _ x)).powerSame rfl
  have hsettle {x : State} : x.islandSettle.power = x.power := (State.islandSettle_kept (Sub.refl _) (Kept.refl _ x)).powerSame rfl
  unfold State.powerRest
  extract_lets s1 s2
  have h1 : s1.power = s.power := (State.storedSwitches_kept (Sub.refl _) (Kept.refl _ s)).powerSame rfl
  have h2 : s2.power = s1.power :=
    (State.each_kept (mm := 0x7fffffffffffffffffff0000000) (by decide) (fun _ _ h => State.domPower_kept (Sub.refl _) h) (Kept.refl _ s1)).powerSame rfl
  rw [← h1, ← h2]
  clear_value s2
  unfold State.finishStart
  extract_lets fresh s3 s4 auto c s5 s6
  have h3 : s3.power.proofPassed = s2.power.proofPassed := by
    simp only [s3]
    split
    · exact State.proofPassed_applyStored _
    · rfl
  have h4 : s4.power = s3.power := by
    simp only [s4]
    split
    · exact (State.setLocks_kept (Sub.refl _) (Kept.refl _ s3)).powerSame rfl
    · rfl
  have h5 : s5.power = s4.power := (State.armAdmission_kept (Sub.refl _) (Kept.refl _ s4)).powerSame rfl
  have h6 : s6.power = s5.power := hset _
  have hconf (x : State) : (x.setMod .configuration).islandSettle.power = x.power := hsettle.trans (hset _)
  have hrun : (if auto = 2 then s6.runModule else s6).power = s6.power :=
    State.power_ite ((State.runModule_kept (Sub.refl _) (Kept.refl _ s6)).powerSame rfl) rfl
  have hauto : (if auto = 0 then (s4.setMod .configuration).islandSettle
      else if c ≠ 0 then (s5.setMod .configuration).islandSettle
      else (if auto = 2 then s6.runModule else s6).islandSettle).power = s4.power :=
    State.power_ite (hconf s4) (State.power_ite ((hconf s5).trans h5) (hsettle.trans (hrun.trans (h6.trans h5))))
  split
  · rfl
  · exact (congrArg Power.proofPassed (hauto.trans h4)).trans h3

section
variable {t : Time} {v0 va vb : Nat} {s : State} {r : ProofRun} (hr : s.power.check = some r) (hdue : r.start + Time.ms 50 ≤ max t s.now)
include hr hdue

/-- A due check ends with its figures recorded and judged. -/
theorem proofCheckEnd_judges {P : State → Prop} (h : ∀ (inRange : Bool) (c esr eu result : Nat) (x : State),
    CheckFigures v0 va vb (s.rdN (stk 2)) (fval (s.rdF (stk 0xA))) inRange c esr eu result →
    x = (s.begin t).checkOver.checkRecorded (decide (r.kind = 3)) inRange c esr eu result vb → P (x.checkJudged r.kind result eu)) :
    Completes (.proofCheckEnd t v0 va vb) s P := by
  obtain ⟨inRange, c, esr, eu, result, hfig, heq⟩ := State.checkEnd_of_due (v0 := v0) (va := va) (vb := vb) (s := s.begin t) hr hdue
  refine ⟨(s.begin t).checkEnd v0 va vb, rfl, ?_⟩
  rw [heq]
  exact h inRange c esr eu result _ hfig rfl

theorem proofCheckEnd_records (hkind : r.kind ≠ 0) : Completes (.proofCheckEnd t v0 va vb) s (fun u => u.power.check = none ∧ u.power.lastCheck = u.now ∧
    u.rdN (stk 0xD) = (s.rdN (stk 0xD) + 1) % 2 ^ 32 ∧ (va ≤ vb → u.rdN (stk 7) = 3 ∧ u.rdN (stk 6) = 0) ∧
    ∀ c esr : Rat, proofFigures v0 va vb = some (c, esr) → 1 / 2 ≤ c → c ≤ 4 → 1 / 1000 ≤ esr → esr ≤ 1 / 2 →
      u.rdN (stk 4) = (roundRat (1000 * c)).toNat % 2 ^ 32 ∧ u.rdN (stk 5) = (roundRat (1000000 * esr)).toNat % 2 ^ 32 ∧
      u.rdN (stk 6) = usableEnergy (roundRat (1000 * c)).toNat (roundRat (1000000 * esr)).toNat (s.rdN (stk 2))) := by
  refine proofCheckEnd_judges hr hdue fun inRange c esr eu result x hfig hx => ?_
  obtain ⟨h4, h5, h6, h7, hD⟩ := hx ▸ State.rd_checkRecorded (decide (r.kind = 3)) inRange c esr eu result vb (s.begin t).checkOver
  obtain ⟨hpower, hnow, -⟩ := hx ▸ State.checkRecorded_leaves (decide (r.kind = 3)) inRange c esr eu result vb (s.begin t).checkOver
  clear hx
  rw [State.checkJudged, if_neg hkind]
  obtain ⟨⟨hcheck, hlast⟩, hfind⟩ := State.judgeStore_leaves result eu r.kind x
  have hjnow : (x.judgeStore result eu r.kind).now = x.now := (State.judgeStore_kept (Sub.refl _) (Kept.refl _ x)).now
  have hrd {a : Nat} (hz : zone (stk a) = 13) (ha : a < 256) (hF : stk a ≠ stk 0xF) : (x.judgeStore result eu r.kind).rdN (stk a) = x.rdN (stk a) :=
    congrArg Int.toNat (State.rd_congr (ownDefault_stk ha) (hfind _ hz hF))
  rw [hcheck, hlast, hjnow, hpower, hnow, hrd (by decide) (by decide) (by decide), hrd (by decide) (by decide) (by decide),
    hrd (by decide) (by decide) (by decide), hrd (by decide) (by decide) (by decide), hrd (by decide) (by decide) (by decide), h4, h5, h6, h7, hD]
  refine ⟨rfl, rfl, rfl, fun hle => (hfig.below hle).symm, fun cf ef hf h1 h2 h3 h4 => ?_⟩
  obtain ⟨hc, he, heu, -⟩ := hfig.within cf ef hf h1 h2 h3 h4
  rw [hc, he, heu]
  exact ⟨rfl, rfl, rfl⟩

theorem proofCheckEnd_fails (hkind : r.kind = 0) (hmod : s.mod = .proof) (hle : va ≤ vb) : Completes (.proofCheckEnd t v0 va vb) s (fun u =>
    u.mod = .faultWait ∧ u.rdN (mdk 0xA) = 4) := by
  refine proofCheckEnd_judges hr hdue fun inRange c esr eu result x hfig hx => ?_
  obtain ⟨-, -, hm⟩ := hx ▸ State.checkRecorded_leaves (decide (r.kind = 3)) inRange c esr eu result vb (s.begin t).checkOver
  have hresult : result = 3 := (hfig.below hle).2
  obtain ⟨hfail, hcode, -⟩ := State.startFail_fails (s := x) (hm.trans hmod) 4
  rw [State.checkJudged, if_pos hkind, hresult, if_neg (by decide), if_pos rfl]
  exact ⟨hfail, hcode⟩

theorem proofCheckEnd_passes (hkind : r.kind = 0) {cf ef : Rat} (hf : proofFigures v0 va vb = some (cf, ef)) (h1 : 1 / 2 ≤ cf) (h2 : cf ≤ 4)
    (h3 : 1 / 1000 ≤ ef) (h4 : ef ≤ 1 / 2) (henough : fval (s.rdF (stk 0xA)) * 1000 ≤
      (usableEnergy (roundRat (1000 * cf)).toNat (roundRat (1000000 * ef)).toNat (s.rdN (stk 2)) : Nat)) :
    Completes (.proofCheckEnd t v0 va vb) s (fun u => u.power.proofPassed = true) := by
  refine proofCheckEnd_judges hr hdue fun inRange c esr eu result x hfig hx => ?_
  obtain ⟨-, -, heu, hresult⟩ := hfig.within cf ef hf h1 h2 h3 h4
  rw [heu, if_pos henough] at hresult
  rw [State.checkJudged, if_pos hkind, if_pos hresult]
  exact State.proofPassed_powerRest _

end

/-- Settles O48: the start's failure and the check's end are followed to the entries they leave. -/
theorem storeAndProofCheckComplete : Obligations.StoreAndProofCheckComplete := by
  unfold Obligations.StoreAndProofCheckComplete
  refine ⟨storeCharged_completes, fun t s => chargeTimeout_fails, ?temperature, fun t temp s => ⟨storeHot_stops, storeHot_resumes⟩, ?checkEnd, ?interval,
    ?again⟩
  case temperature =>
    intro t temp s
    obtain ⟨h3, h2, -⟩ := (s.begin t).storeTemperature_sets temp
    exact ⟨_, rfl, h3, h2⟩
  case checkEnd =>
    exact fun t v0 va vb s r hr hdue => ⟨proofCheckEnd_records hr hdue, proofCheckEnd_fails hr hdue,
      fun hkind c esr hf h1 h2 h3 h4 => proofCheckEnd_passes hr hdue hkind hf h1 h2 h3 h4⟩
  case interval =>
    intro t s hdue hmod hcheck hlong hfrozen hsupply
    have hwant := State.proofInterval_of_due (s := s.begin t) hdue hmod hcheck hlong hfrozen hsupply
    refine ⟨fun hfull => ⟨_, rfl, ?_⟩, fun hlow => ⟨_, rfl, ?_⟩⟩
    · rw [hwant, State.wantCheck_full (s := s.begin t) hfull]
      exact ⟨rfl, State.bit_setBit_same _ _ _ _⟩
    · rw [hwant, State.wantCheck_low (s := s.begin t) hlow]
      exact ⟨hcheck, rfl⟩
  case again =>
    intro t s a hat hdue hcheck hmod hfull
    have hrun := State.proofRepeat_of_due (s := s.begin t) hat hdue hcheck hmod
    have hwant : ((s.begin t).modPower (fun p => { p with repeatAt := none })).wantCheck 3 =
        ((s.begin t).modPower (fun p => { p with repeatAt := none })).startCheck 3 (s.begin t).now := State.wantCheck_full hfull
    refine ⟨_, rfl, ?_⟩
    rw [hrun, hwant]
    exact ⟨rfl, rfl⟩

end Sys2Proof.Machine
end

section
/-! The commands of the module object (R329): each is the effect of its code, whose result is the answer; the entry into Proof; the end of the
configuration store and of the self-test. -/

namespace Sys2Proof.Machine

/-! ### A command and its answer -/

section
variable {q : Req} {s : State}

theorem State.power_longBy (was : Nat) (s : State) : (s.longBy q was).power = s.power := by
  unfold State.longBy
  split <;> rfl

theorem State.now_longBy (was : Nat) (s : State) : (s.longBy q was).now = s.now := by
  unfold State.longBy
  split <;> rfl

/-- A module command leaves the state that its effect gives, and answers with its result. -/
theorem moduleCommand_completes {t : Time} {i : Instr} {c e : Nat} {f : State → Nat × State} {x : State} (hup : s.Up) (hpass : s.Passes q 0x2000 3 0 c)
    (hi : exec i s = .next ((s.begin t).moduleCommand q c)) (hc : commandOf c = moduleEff f) (hf : f ((s.begin t).handling q.sid) = (e, x)) :
    Completes i s (fun u => u.mod = x.mod ∧ u.rd (mdk 4) = e ∧ u.power = x.power ∧ u.now = x.now ∧ u.Answered e) := by
  refine ⟨((x.wr (mdk 4) e).answer e).longBy q 0, ?run, ?mod, ?result, State.power_longBy 0 _, State.now_longBy 0 _, ?answered⟩
  case run =>
    have heff : (commandOf c).eff ((s.begin t).handling q.sid) = (x.wr (mdk 4) e).answer e := by
      rw [hc]
      simp only [moduleEff, hf]
    rw [hi, State.moduleCommand_of_passes (s := s.begin t) hup.1 hup.2 hpass, heff]
  case mod =>
    rw [State.mod, State.rdN, State.rd_longBy, State.rd_answer]
    exact State.mod_wr (by decide) (by decide) e x
  case result => exact (State.rd_longBy q 0 _ _).trans (State.rd_wr_same (mdk 4) e x)
  case answered =>
    rw [State.Answered, State.longBy_out]
    exact List.mem_append_right _ (List.mem_singleton_self _)

theorem State.ifState_of_true {c : State → Bool} {f : State → State} {s : State} (h : c s = true) : State.ifState c f s = (0, f s) := if_pos h

theorem State.ifState_of_false {c : State → Bool} {f : State → State} {s : State} (h : c s = false) : State.ifState c f s = (0x0B000011, s) :=
  if_neg (by simp [h])

section
variable {t : Time} {i : Instr} {n : Nat} {c : State → Bool} {f : State → State} (hup : s.Up) (hpass : s.Passes q 0x2000 3 0 n)
  (hi : exec i s = .next ((s.begin t).moduleCommand q n)) (hn : commandOf n = moduleEff (State.ifState c f))
include hup hpass hi hn

/-- A command outside its states is refused and changes neither the module's state nor the checks of its store. -/
theorem moduleCommand_refused (hc : c ((s.begin t).handling q.sid) = false) : Completes i s (fun u => u.mod = s.mod ∧ u.rdN (mdk 4) = 0x0B000011 ∧
    u.power = s.power ∧ u.Answered 0x0B000011) := by
  obtain ⟨u, hrun, hmod, hrd, hpower, -, hans⟩ := moduleCommand_completes hup hpass hi hn (State.ifState_of_false hc)
  exact ⟨u, hrun, hmod, congrArg Int.toNat hrd, hpower, hans⟩

/-- A command in its states takes effect and is answered 0. -/
theorem moduleCommand_acts (hc : c ((s.begin t).handling q.sid) = true) : Completes i s (fun u => u.mod = (f ((s.begin t).handling q.sid)).mod ∧
    u.rd (mdk 4) = 0 ∧ u.power = (f ((s.begin t).handling q.sid)).power ∧ u.now = (f ((s.begin t).handling q.sid)).now ∧ u.Answered 0) :=
  moduleCommand_completes hup hpass hi hn (State.ifState_of_true hc)

end

end

/-! ### The entry into Proof -/

/-- A module that enters Proof has its proof and its charging ahead of it. -/
theorem State.enterProof_enters {s : State} (hnew : s.mod ≠ .proof) (hrem : s.mod ≠ .removal) : s.enterProof.mod = .proof ∧
    s.enterProof.power.proofPassed = false ∧ s.enterProof.power.charged = false ∧ s.enterProof.power.proofAt = s.enterProof.now := by
  unfold State.enterProof
  extract_lets s1 s2 s3
  have h1 : s1.mod = .proof := State.mod_setMod hnew hrem nofun
  have h2 : s2.mod = .proof := by
    rw [← h1]
    exact congrArg (fun v : Int => ModState.ofCode v.toNat) ((State.each_kept (mm := 0x7fffffffffffffffffff002ff86) (by decide) (fun _ _ h => State.domOff_kept (Sub.refl _) h)
      (Kept.refl _ s1)).rd_eq (z := 4) (by decide) (by decide) (by decide))
  clear_value s2
  have h3 : s3.mod = .proof := h2
  have hpassed : s3.power.proofPassed = false := rfl
  have hcharged : s3.power.charged = false := rfl
  have hat : s3.power.proofAt = s3.now := rfl
  clear_value s3
  have h4 : (s3.setBit (stk 0xF) 0 (!s3.power.storeHot)).mod = .proof := by
    rw [← h3]
    exact congrArg (fun v : Int => ModState.ofCode v.toNat) (State.rd_setBit_ne (by decide) (by decide) _ _ s3)
  have hsettle := State.islandSettle_kept (Sub.refl _) (Kept.refl _ (s3.setBit (stk 0xF) 0 (!s3.power.storeHot)))
  rw [hsettle.powerSame rfl, hsettle.now]
  refine ⟨?_, hpassed, hcharged, hat⟩
  rw [← h4]
  exact congrArg (fun v : Int => ModState.ofCode v.toNat) (hsettle.rd_eq (z := 4) (by decide) (by decide) (by decide))

theorem State.reenter_enters {s : State} (hmod : s.mod = .faultWait) (hstage : s.power.failStage ≠ .init) :
    s.reenter.mod = .proof ∧ s.reenter.power.charged = false := by
  unfold State.reenter
  extract_lets s1 s2
  have hkept := State.trialRetry_kept (Sub.refl _) (Kept.refl _ s)
  have h1 : s1.mod = .faultWait := by
    rw [← hmod]
    exact congrArg (fun v : Int => ModState.ofCode v.toNat) (hkept.rd_eq (z := 4) (by decide) (by decide) (by decide))
  have hstage1 : ¬(s1.power.failStage == .init) = true := by
    have : s1.power = s.power := hkept.powerSame rfl
    simp [this, hstage]
  rw [if_neg hstage1]
  obtain ⟨hm, -, hcharged, -⟩ := State.enterProof_enters (s := s1) (by simp [h1]) (by simp [h1])
  exact ⟨hm, hcharged⟩

/-! ### The end of the long operations -/

theorem configurationStoreComplete_completes {t : Time} {s : State} (hlong : s.longOp = 1) : Completes (.configurationStoreComplete t) s (fun u =>
    u.longOp = 0 ∧ u.rd (key 0x2001 3) = 0 ∧ u.power.stored = s.srv.storing ∧ u.power.storedLocks = s.srv.storingLocks) := by
  refine ⟨(s.begin t).storeComplete, rfl, ?_⟩
  unfold State.storeComplete
  have hgo : ¬(s.begin t).longOp ≠ 1 := not_not.2 hlong
  rw [if_neg hgo]
  extract_lets s1 s2 s3
  have hpower : (s3.endLong 0).power = s1.power := by
    rw [(State.endLong_kept (Sub.refl _) (Kept.refl _ s3)).powerSame rfl]
    exact State.power_each (fun b x => by split; exacts [rfl, rfl]) s2
  refine ⟨State.longOp_endLong 0 s3, ?_, ?_, ?_⟩
  · rw [State.rd_endLong (by decide)]
    exact State.rd_wr_same _ _ _
  · rw [hpower]
    rfl
  · rw [hpower]
    rfl

theorem selfTestComplete_completes {t : Time} (failed : List (Nat × Nat)) {s : State} (hlong : s.longOp = 3) :
    Completes (.selfTestComplete t failed) s (fun u => u.longOp = 0 ∧ u.rd (key 0x2001 3) = 0) := by
  refine ⟨(s.begin t).selfTestComplete failed, rfl, ?_⟩
  unfold State.selfTestComplete
  have hgo : ¬(s.begin t).longOp ≠ 3 := not_not.2 hlong
  rw [if_neg hgo]
  refine ⟨State.longOp_endLong 0 _, ?_⟩
  rw [State.rd_endLong (by decide)]
  exact State.rd_wr_same _ _ _

/-! ### The two commands that start a long operation -/

/-- A refusal shows its code and starts nothing. -/
theorem State.commandRefused (q : Req) (e : Nat) (s : State) : (((s.wr (mdk 4) e).answer e).longBy q 0).longOp = s.longOp ∧
    (((s.wr (mdk 4) e).answer e).longBy q 0).srv.storing = s.srv.storing ∧ (((s.wr (mdk 4) e).answer e).longBy q 0).Answered e := by
  refine ⟨?_, ?_, State.answered_longBy (State.answered_answer e _) q 0⟩
  · exact congrArg Int.toNat ((State.rd_longBy q 0 _ _).trans (State.rd_wr_ne (by decide) (by decide) _ s))
  · unfold State.longBy
    split <;> rfl

section
variable {t : Time} {q : Req} {s : State} (hup : s.Up)
include hup

theorem configurationStore_starts (hpass : s.Passes q 0x2000 3 0 6) (hmod : s.mod.code ∈ [3, 4, 5, 6]) :
    Completes (.configurationStore t q) s (fun u => u.longOp = 1 ∧ u.srv.storing = some s.storeImage ∧ u.srv.longSid = q.sid ∧ u.out = []) := by
  have hgo : [3, 4, 5, 6].contains ((s.begin t).handling q.sid).mod.code = true := List.contains_iff_mem.2 hmod
  refine ⟨(s.begin t).moduleCommand q 6, rfl, ?_⟩
  rw [State.moduleCommand_of_passes (s := s.begin t) hup.1 hup.2 hpass]
  simp only [commandOf, configStoreEff]
  rw [if_pos hgo, State.longBy_starts (by rw [State.longOp_startLong]; decide)]
  exact ⟨State.longOp_startLong 1 _, rfl, rfl, rfl⟩

theorem configurationStore_refused (hpass : s.Passes q 0x2000 3 0 6) (hmod : s.mod.code ∉ [3, 4, 5, 6]) :
    Completes (.configurationStore t q) s (fun u => u.longOp = 0 ∧ u.srv.storing = s.srv.storing ∧ u.Answered 0x0B000011) := by
  have hgo : ¬[3, 4, 5, 6].contains ((s.begin t).handling q.sid).mod.code = true := fun h => hmod (List.contains_iff_mem.1 h)
  refine ⟨(s.begin t).moduleCommand q 6, rfl, ?_⟩
  rw [State.moduleCommand_of_passes (s := s.begin t) hup.1 hup.2 hpass]
  simp only [commandOf, configStoreEff]
  rw [if_neg hgo]
  obtain ⟨hlong, hstoring, hans⟩ := State.commandRefused q 0x0B000011 ((s.begin t).handling q.sid)
  exact ⟨hlong.trans hup.2, hstoring, hans⟩

theorem onDemandSelfTest_starts (hpass : s.Passes q 0x2000 3 0 7) (hmod : s.mod = .configuration) (hoff : s.allOff = true) :
    Completes (.onDemandSelfTest t q) s (fun u => u.longOp = 3 ∧ u.out = []) := by
  have hm : ((s.begin t).handling q.sid).mod = .configuration := hmod
  have ho : ((s.begin t).handling q.sid).allOff = true := hoff
  refine ⟨(s.begin t).moduleCommand q 7, rfl, ?_⟩
  rw [State.moduleCommand_of_passes (s := s.begin t) hup.1 hup.2 hpass]
  simp only [commandOf, selfTestEff]
  rw [if_pos (by simp [hm, ho]), State.longBy_starts (by rw [State.longOp_startLong]; decide)]
  exact ⟨State.longOp_startLong 3 _, rfl⟩

theorem onDemandSelfTest_refused (hpass : s.Passes q 0x2000 3 0 7) (hnot : s.mod ≠ .configuration ∨ s.allOff = false) :
    Completes (.onDemandSelfTest t q) s (fun u => u.longOp = 0 ∧ u.Answered 0x0B000013) := by
  have hgo : ¬(((s.begin t).handling q.sid).mod == .configuration && ((s.begin t).handling q.sid).allOff) = true := by
    have h : ¬(s.mod = .configuration ∧ s.allOff = true) := by
      rintro ⟨hm, ho⟩
      rcases hnot with h | h
      · exact h hm
      · simp [h] at ho
    have h' : ¬(((s.begin t).handling q.sid).mod = .configuration ∧ ((s.begin t).handling q.sid).allOff = true) := h
    simpa using h'
  refine ⟨(s.begin t).moduleCommand q 7, rfl, ?_⟩
  rw [State.moduleCommand_of_passes (s := s.begin t) hup.1 hup.2 hpass]
  simp only [commandOf, selfTestEff]
  rw [if_neg hgo]
  obtain ⟨hlong, -, hans⟩ := State.commandRefused q 0x0B000013 ((s.begin t).handling q.sid)
  exact ⟨hlong.trans hup.2, hans⟩

end

/-! ### The arm (R330) -/

theorem moduleArm_refused {t : Time} {q : Req} {s : State} (hup : s.Up) (hpass : s.Passes q 0x2000 3 0 2) (hmod : s.mod ≠ .configuration) :
    Completes (.moduleArm t q) s (fun u => u.mod = s.mod ∧ u.Answered 0x0B000011) := by
  have harm : ((s.begin t).handling q.sid).armModule = (0x0B000011, (s.begin t).handling q.sid) := by
    have hm : ((s.begin t).handling q.sid).mod ≠ .configuration := hmod
    exact if_pos (by simpa using hm)
  obtain ⟨u, hrun, hstate, -, hans⟩ := moduleArm_completes hup.1 hup.2 hpass harm
  exact ⟨u, hrun, hstate, hans⟩

/-! ### The commands of one result -/

section
variable {t : Time} {q : Req} {s : State} (hup : s.Up)
include hup

theorem moduleConfigure_acts (hpass : s.Passes q 0x2000 3 0 1) (hok : s.mod = .armed ∨ ((s.mod = .running ∨ s.mod = .standby) ∧ s.allOff = true)) :
    Completes (.moduleConfigure t q) s (fun u => u.mod = .configuration ∧ u.rd (mdk 4) = 0 ∧ u.Answered 0) := by
  have hc : s.configureOk = true := by
    unfold State.configureOk
    rcases hok with h | ⟨h | h, ho⟩ <;> simp [*]
  obtain ⟨u, hrun, hmod, hrd, -, -, hans⟩ := moduleCommand_acts hup hpass (i := .moduleConfigure t q) rfl rfl hc
  have hset : (((s.begin t).handling q.sid).setMod .configuration).mod = .configuration := by
    have hm : ((s.begin t).handling q.sid).mod = s.mod := rfl
    refine State.mod_setMod ?_ ?_ nofun <;> rw [hm] <;> rcases hok with h | ⟨h | h, -⟩ <;> simp [h]
  exact ⟨u, hrun, hmod.trans hset, hrd, hans⟩

theorem moduleRun_acts (hpass : s.Passes q 0x2000 3 0 3) (harmed : s.mod = .armed) : Completes (.moduleRun t q) s (fun u => u.Answered 0 ∧
    u.mod = if s.twinRole = 0 ∨ s.authority = 1 then .running else .standby) := by
  have hc : (s.mod == .armed) = true := by simp [harmed]
  obtain ⟨u, hrun, hmod, -, -, -, hans⟩ := moduleCommand_acts hup hpass (i := .moduleRun t q) rfl rfl hc
  refine ⟨u, hrun, hans, hmod.trans ?_⟩
  have hm : ((s.begin t).handling q.sid).mod = .armed := harmed
  have hnew : (if ((s.begin t).handling q.sid).twinRole = 0 || ((s.begin t).handling q.sid).authority = 1 then ModState.running else .standby) =
      if s.twinRole = 0 ∨ s.authority = 1 then .running else .standby := by
    have h0 : ((s.begin t).handling q.sid).twinRole = s.twinRole := rfl
    have h1 : ((s.begin t).handling q.sid).authority = s.authority := rfl
    simp [h0, h1]
  unfold State.runModule
  rw [hnew]
  refine State.mod_setMod ?_ (by simp [hm]) ?_
  · rw [hm]
    split <;> simp
  · intro h
    split at h <;> cases h

theorem moduleSafeHold_acts (hpass : s.Passes q 0x2000 3 0 4) (hok : s.mod = .armed ∨ s.mod = .running ∨ s.mod = .standby) :
    Completes (.moduleSafeHold t q) s (fun u => u.mod = .safeHold ∧ u.Answered 0) := by
  have hc : s.holdOk = true := by
    unfold State.holdOk
    rcases hok with h | h | h <;> simp [h]
  obtain ⟨u, hrun, hmod, -, -, -, hans⟩ := moduleCommand_acts hup hpass (i := .moduleSafeHold t q) rfl rfl hc
  have hset : (((s.begin t).handling q.sid).setMod .safeHold).mod = .safeHold := by
    have hm : ((s.begin t).handling q.sid).mod = s.mod := rfl
    refine State.mod_setMod ?_ ?_ (fun _ => ?_) <;> rw [hm] <;> rcases hok with h | h | h <;> simp [h, holdFollows]
  exact ⟨u, hrun, hmod.trans hset, hans⟩

theorem restartFromSafehold_acts (hpass : s.Passes q 0x2000 3 0 5) (hmod : s.mod = .safeHold) (hsupply : s.power.supply = true)
    (hloss : s.power.lossHold = false) : Completes (.restartFromSafehold t q) s (fun u =>
      u.mod = .proof ∧ u.power.proofPassed = false ∧ u.power.proofAt = u.now ∧ u.Answered 0) := by
  have hc : s.restartOk = true := by simp [State.restartOk, hmod, hsupply, hloss]
  obtain ⟨u, hrun, hm, -, hpower, hnow, hans⟩ := moduleCommand_acts hup hpass (i := .restartFromSafehold t q) rfl rfl hc
  have hm0 : ((s.begin t).handling q.sid).mod = .safeHold := hmod
  obtain ⟨he, hp, -, hat⟩ := State.enterProof_enters (s := (s.begin t).handling q.sid) (by simp [hm0]) (by simp [hm0])
  exact ⟨u, hrun, hm.trans he, by rw [hpower, hp], by rw [hpower, hnow, hat], hans⟩

theorem restartFromSafehold_refused (hpass : s.Passes q 0x2000 3 0 5)
    (hnot : s.mod ≠ .safeHold ∨ s.power.supply = false ∨ s.power.lossHold = true) :
    Completes (.restartFromSafehold t q) s (fun u => u.mod = s.mod ∧ u.Answered 0x0B000011) := by
  have hc : s.restartOk = false := by
    unfold State.restartOk
    rcases hnot with h | h | h <;> simp [h]
  obtain ⟨u, hrun, hm, -, -, hans⟩ := moduleCommand_refused hup hpass (i := .restartFromSafehold t q) rfl rfl hc
  exact ⟨u, hrun, hm, hans⟩

theorem retryNow_acts (hpass : s.Passes q 0x2000 3 0 8) (hmod : s.mod = .faultWait) (hstage : s.power.failStage ≠ .init) :
    Completes (.retryNow t q) s (fun u => u.mod = .proof ∧ u.power.charged = false ∧ u.Answered 0) := by
  have hc : (s.mod == .faultWait) = true := by simp [hmod]
  obtain ⟨u, hrun, hm, -, hpower, -, hans⟩ := moduleCommand_acts hup hpass (i := .retryNow t q) rfl rfl hc
  obtain ⟨he, hcharged⟩ := State.reenter_enters (s := (s.begin t).handling q.sid) hmod hstage
  exact ⟨u, hrun, hm.trans he, by rw [hpower, hcharged], hans⟩

theorem proofCheckNow_acts (hpass : s.Passes q 0x2000 3 0 9) (hmod : s.mod = .configuration) : Completes (.proofCheckNow t q) s (fun u =>
    u.power = (if s.power.check.isSome then s else ((s.begin t).handling q.sid).wantCheck 2).power ∧ u.Answered 0) := by
  have hc : (s.mod == .configuration) = true := by simp [hmod]
  obtain ⟨u, hrun, -, -, hpower, -, hans⟩ := moduleCommand_acts hup hpass (i := .proofCheckNow t q) rfl rfl hc
  refine ⟨u, hrun, hpower.trans ?_, hans⟩
  have hcheck : ((s.begin t).handling q.sid).power.check = s.power.check := rfl
  rw [hcheck, apply_ite State.power, apply_ite State.power]
  rfl

end

/-- Settles O49: each command is the effect of its code in its states and a refusal outside them, and a long operation ends with its result. -/
theorem moduleCommandsComplete : Obligations.ModuleCommandsComplete := by
  unfold Obligations.ModuleCommandsComplete
  refine ⟨fun t q s hup => ⟨fun hpass => moduleConfigure_acts hup hpass, ?configureRefused, fun hpass => moduleRun_acts hup hpass, ?runRefused,
    fun hpass => moduleSafeHold_acts hup hpass, ?holdRefused, fun hpass => restartFromSafehold_acts hup hpass,
    fun hpass => restartFromSafehold_refused hup hpass, fun hpass => configurationStore_starts hup hpass, fun hpass => onDemandSelfTest_starts hup hpass,
    fun hpass => configurationStore_refused hup hpass, fun hpass => onDemandSelfTest_refused hup hpass, fun hpass => retryNow_acts hup hpass,
    ?retryRefused, ?checkStarts, ?checkWaits, ?checkRuns, ?checkRefused⟩, ?arm, fun t s => configurationStoreComplete_completes,
    fun t failed s => selfTestComplete_completes failed⟩
  case configureRefused =>
    intro hpass hc
    obtain ⟨u, hrun, hm, hrd, -, hans⟩ := moduleCommand_refused hup hpass (i := .moduleConfigure t q) rfl rfl hc
    exact ⟨u, hrun, hm, hrd, hans⟩
  case runRefused =>
    intro hpass hmod
    have hc : (s.mod == .armed) = false := by simp [hmod]
    obtain ⟨u, hrun, hm, -, -, hans⟩ := moduleCommand_refused hup hpass (i := .moduleRun t q) rfl rfl hc
    exact ⟨u, hrun, hm, hans⟩
  case holdRefused =>
    intro hpass ha hr hs
    have hc : s.holdOk = false := by simp [State.holdOk, ha, hr, hs]
    obtain ⟨u, hrun, hm, hrd, -, hans⟩ := moduleCommand_refused hup hpass (i := .moduleSafeHold t q) rfl rfl hc
    exact ⟨u, hrun, hm, hrd, hans⟩
  case retryRefused =>
    intro hpass hmod
    have hc : (s.mod == .faultWait) = false := by simp [hmod]
    obtain ⟨u, hrun, hm, -, -, hans⟩ := moduleCommand_refused hup hpass (i := .retryNow t q) rfl rfl hc
    exact ⟨u, hrun, hm, hans⟩
  case checkStarts =>
    intro hpass hmod hnone hfull
    obtain ⟨u, hrun, hpower, hans⟩ := proofCheckNow_acts hup hpass hmod
    rw [hnone, State.wantCheck_full (s := (s.begin t).handling q.sid) hfull] at hpower
    exact ⟨u, hrun, by rw [hpower]; rfl, hans⟩
  case checkWaits =>
    intro hpass hmod hnone hlow
    obtain ⟨u, hrun, hpower, hans⟩ := proofCheckNow_acts hup hpass hmod
    rw [hnone, State.wantCheck_low (s := (s.begin t).handling q.sid) hlow] at hpower
    exact ⟨u, hrun, by rw [hpower]; exact hnone, by rw [hpower]; rfl, hans⟩
  case checkRuns =>
    intro hpass hmod hsome
    obtain ⟨u, hrun, hpower, hans⟩ := proofCheckNow_acts hup hpass hmod
    rw [if_pos (Option.isSome_iff_ne_none.2 hsome)] at hpower
    exact ⟨u, hrun, by rw [hpower], hans⟩
  case checkRefused =>
    intro hpass hmod
    have hc : (s.mod == .configuration) = false := by simp [hmod]
    obtain ⟨u, hrun, -, hrd, hpower, hans⟩ := moduleCommand_refused hup hpass (i := .proofCheckNow t q) rfl rfl hc
    exact ⟨u, hrun, by rw [hpower], hrd, hans⟩
  case arm =>
    rintro t q s s1 hup hpass rfl
    exact ⟨moduleArm_of_pass hup.1 hup.2 hpass, moduleArm_of_fail hup.1 hup.2 hpass, moduleArm_refused hup hpass⟩

end Sys2Proof.Machine
end

section
/-! References and PLL (R259 to R264, R193): what a relock leaves, the selection that follows the references, bypass and holdover, and what the
clock's events set. -/

namespace Sys2Proof.Machine

/-! ### A relock -/

/-- The entries that a relock sets besides the selected reference. -/
def relockEntries : List Nat := [ckc 4, ckc 5, ckc 0xA, ckc 0xD 1, ckc 0xD 2]

/-- The entry belongs to the clock object and is none of a list. -/
def ClockEntry (l : List Nat) (k : Nat) : Prop := zone k = 15 ∧ OwnDefault k ∧ k ∉ l

theorem ClockEntry.of_subset {l l' : List Nat} {k : Nat} (hl : l ⊆ l') (h : ClockEntry l' k) : ClockEntry l k := ⟨h.1, h.2.1, fun hk => h.2.2 (hl hk)⟩

/-- From s to t the timebase runs on reference r, and the PLL hops to its stored band or searches. -/
structure Relocks (r : Nat) (s t : State) : Prop where
  source : t.rdN (ckc 4) = 1 + r
  pll : t.rdN (ckc 5) = if s.rdN (ckc 0x13 (1 + r)) ≠ 0xFF then 4 else 2
  clock : t.clock = { s.clock with lockAt := none, hopAt := some s.now }
  now : t.now = s.now
  leaves : ∀ k, ClockEntry relockEntries k → t.rd k = s.rd k

section
variable {k : Nat} (s : State)

theorem State.rd_toExtended (hz : zone k = 15) (hk : OwnDefault k) : s.toExtended.rd k = s.rd k :=
  (State.toExtended_kept (Sub.refl _) (Kept.refl _ s)).rd_eq hz (by decide) hk

theorem State.rd_clock_logEvent (hz : zone k = 15) (hk : OwnDefault k) (code inst : Nat) (data : List Byte) : (s.logEvent code inst data).rd k = s.rd k := by
  refine State.rd_logEvent (not_le.1 fun hle => ?_) hk _ _ _ s
  have h := zone_mono hle
  have h68 : zone (key 0x7000 0) = 68 := by decide
  omega

theorem State.toBypass_moves (cause r : Nat) : (s.toBypass cause r).rdN (ckc 4) = 1 + r ∧ (s.toBypass cause r).clock = s.clock ∧
    (s.toBypass cause r).now = s.now ∧ ∀ k, ClockEntry [ckc 4] k → (s.toBypass cause r).rd k = s.rd k := by
  unfold State.toBypass
  extract_lets was s1
  have h1 (k : Nat) (hz : zone k = 15) (hk : OwnDefault k) : s1.rd k = s.rd k := by
    simp only [s1]
    split
    · rfl
    · exact State.rd_toExtended s hz hk
  have hclock : s1.clock = s.clock ∧ s1.now = s.now := by
    simp only [s1]
    split
    · exact ⟨rfl, rfl⟩
    · exact ⟨(State.toExtended_kept (Sub.refl _) (Kept.refl _ s)).clockSame rfl, (State.toExtended_kept (Sub.refl _) (Kept.refl _ s)).now⟩
  clear_value s1
  refine ⟨?_, (State.logEvent_clock ..).trans hclock.1, (State.logEvent_now ..).trans hclock.2, fun k hk => ?_⟩
  · exact congrArg Int.toNat ((State.rd_clock_logEvent _ (by decide) (by decide) _ _ _).trans (State.rd_wr_same _ _ s1))
  · obtain ⟨hz, hown, hne⟩ := hk
    exact (State.rd_clock_logEvent _ hz hown _ _ _).trans ((State.rd_wr_ne (List.ne_of_not_mem_cons hne) hown _ s1).trans (h1 k hz hown))

theorem State.startHop_hops (r : Nat) : (s.startHop r).rdN (ckc 5) = (if s.rdN (ckc 0x13 (1 + r)) ≠ 0xFF then 4 else 2) ∧
    (s.startHop r).clock = { s.clock with lockAt := none, hopAt := some s.now } ∧ (s.startHop r).now = s.now ∧
    ∀ k, ClockEntry [ckc 5, ckc 0xA, ckc 0xD 1, ckc 0xD 2] k → (s.startHop r).rd k = s.rd k := by
  unfold State.startHop
  extract_lets band s1
  have h1 (k : Nat) : s1.rd k = s.rd k := rfl
  have hband : s.rdN (ckc 0x13 (1 + r)) = band := rfl
  have hclock : s1.clock = { s.clock with lockAt := none, hopAt := some s.now } ∧ s1.now = s.now := ⟨rfl, rfl⟩
  rw [hband]
  clear_value s1 band
  have hsame {k : Nat} (n : Nat) (s : State) : (s.wr k n).rdN k = n := congrArg Int.toNat (State.rd_wr_same k _ s)
  by_cases h : band ≠ 0xFF
  · rw [if_pos h, if_pos h]
    refine ⟨?_, hclock.1, hclock.2, fun k ⟨_, hown, hne⟩ => ?_⟩
    · exact (State.rdN_wr_ne (by decide) (by decide) _ _).trans ((State.rdN_wr_ne (by decide) (by decide) _ _).trans (hsame 4 s1))
    · simp only [List.mem_cons, List.not_mem_nil, or_false, not_or] at hne
      obtain ⟨h5, hA, hD1, -⟩ := hne
      exact (State.rd_wr_ne hD1 hown _ _).trans ((State.rd_wr_ne hA hown _ _).trans ((State.rd_wr_ne h5 hown _ s1).trans (h1 k)))
  · rw [if_neg h, if_neg h]
    refine ⟨?_, hclock.1, hclock.2, fun k ⟨_, hown, hne⟩ => ?_⟩
    · exact (State.rdN_wr_ne (by decide) (by decide) _ _).trans (hsame 2 s1)
    · simp only [List.mem_cons, List.not_mem_nil, or_false, not_or] at hne
      obtain ⟨h5, -, -, hD2⟩ := hne
      exact (State.rd_wr_ne hD2 hown _ _).trans ((State.rd_wr_ne h5 hown _ s1).trans (h1 k))

theorem ckc_band_entry {r : Nat} (hr : r < 2) {l : List Nat} (hl : ∀ a ∈ l, a ≠ ckc 0x13 1 ∧ a ≠ ckc 0x13 2) : ClockEntry l (ckc 0x13 (1 + r)) := by
  have h : r = 0 ∨ r = 1 := by omega
  rcases h with rfl | rfl
  · exact ⟨by decide, by decide, fun hm => (hl _ hm).1 rfl⟩
  · exact ⟨by decide, by decide, fun hm => (hl _ hm).2 rfl⟩

theorem State.relocks (cause : Nat) {r : Nat} (hr : r < 2) : Relocks r s ((s.toBypass cause r).startHop r) := by
  obtain ⟨hsource, hclock, hnow, hleaves⟩ := s.toBypass_moves cause r
  generalize s.toBypass cause r = x at *
  obtain ⟨hpll, hclock', hnow', hleaves'⟩ := x.startHop_hops r
  have hband : x.rdN (ckc 0x13 (1 + r)) = s.rdN (ckc 0x13 (1 + r)) := congrArg Int.toNat (hleaves _ (ckc_band_entry hr (by decide)))
  refine ⟨?_, by rw [hpll, hband], by rw [hclock', hclock, hnow], hnow'.trans hnow, fun k hk => ?_⟩
  · exact (congrArg Int.toNat (hleaves' _ ⟨by decide, by decide, by decide⟩)).trans hsource
  · exact (hleaves' k (hk.of_subset (by decide))).trans (hleaves k (hk.of_subset (by decide)))

end

/-! ### The selection (R259) -/

/-- From s to t only the entries of a change of reference change, and the references' qualification stays. -/
structure Reselects (s t : State) : Prop where
  qualSince : t.clock.qualSince = s.clock.qualSince
  left : t.clock.left = s.clock.left
  now : t.now = s.now
  leaves : ∀ k, ClockEntry (ckc 2 :: relockEntries) k → t.rd k = s.rd k

theorem Reselects.refl (s : State) : Reselects s s := ⟨rfl, rfl, rfl, fun _ _ => rfl⟩

section
variable {s : State}

theorem State.useReference_selects {r : Nat} (hr : r < 2) : (s.useReference r).rdN (ckc 2) = r ∧ Reselects s (s.useReference r) := by
  unfold State.useReference
  by_cases h : s.rdN (ckc 2) = r
  · rw [if_pos h]
    exact ⟨h, .refl s⟩
  · rw [if_neg h]
    extract_lets x
    have h2 : x.rdN (ckc 2) = r := congrArg Int.toNat (State.rd_wr_same (ckc 2) r s)
    have hleaves {k : Nat} (hne : k ≠ ckc 2) (hown : OwnDefault k) : x.rd k = s.rd k := State.rd_wr_ne hne hown _ s
    have hclock : x.clock.qualSince = s.clock.qualSince ∧ x.clock.left = s.clock.left ∧ x.now = s.now := ⟨rfl, rfl, rfl⟩
    clear_value x
    have hre := x.relocks 4 hr
    refine ⟨(congrArg Int.toNat (hre.leaves _ ⟨by decide, by decide, by decide⟩)).trans h2, ?_, ?_, hre.now.trans hclock.2.2, fun k hk => ?_⟩
    · rw [hre.clock]
      exact hclock.1
    · rw [hre.clock]
      exact hclock.2.1
    · exact (hre.leaves k (hk.of_subset (List.subset_cons_self _ _))).trans (hleaves (fun h => hk.2.2 (h ▸ List.mem_cons_self)) hk.2.1)

theorem State.wanted_lt : s.wanted < 2 := by
  unfold State.wanted
  split
  · decide
  · decide
  · split <;> decide

theorem State.reselect_leaves (s : State) : Reselects s s.reselect := by
  unfold State.reselect
  split
  · exact (State.useReference_selects State.wanted_lt).2
  · exact .refl s

theorem State.reselect_selects (hclocked : s.clocked = true) (hthere : s.bit (ckc 3) s.wanted = true) (hqual : s.wanted = 0 ∨ s.bit (ckc 3) 2 = true) :
    s.reselect.rdN (ckc 2) = s.wanted := by
  unfold State.reselect
  rw [if_pos (by simpa [hclocked, hthere] using hqual)]
  exact (State.useReference_selects State.wanted_lt).1

theorem State.wanted_auto (h : s.rdN (ckc 1) = 2) : s.wanted = if s.bit (ckc 3) 2 = true ∧ s.clock.left = false then 1 else 0 := by
  unfold State.wanted
  rw [h]
  simp

theorem State.wanted_forced {v : Nat} (hv : v < 2) (h : s.rdN (ckc 1) = v) : s.wanted = v := by
  unfold State.wanted
  rw [h]
  have hv' : v = 0 ∨ v = 1 := by omega
  rcases hv' with rfl | rfl <;> rfl

end

/-! ### Qualification and selection -/

section
variable {s : State}

theorem State.clocked_congr {s t : State} (h5 : t.rd (ckc 5) = s.rd (ckc 5)) (h4 : t.rd (ckc 4) = s.rd (ckc 4)) : t.clocked = s.clocked := by
  unfold State.clocked State.rdN
  rw [h5, h4]

theorem Reselects.bit {s t : State} (h : Reselects s t) (i : Nat) : t.bit (ckc 3) i = s.bit (ckc 3) i := by
  rw [State.bit, State.bit, State.rdN, State.rdN, h.leaves _ ⟨by decide, by decide, by decide⟩]

/-- REFCLK shows its presence and its qualification. -/
def State.qualified (s : State) : State :=
  ((s.setBit (ckc 3) 1 true).setBit (ckc 3) 2 true).modClock (fun c => { c with qualSince := some s.now })

theorem State.qualified_shows (s : State) : s.qualified.bit (ckc 3) 1 = true ∧ s.qualified.bit (ckc 3) 2 = true ∧
    ∀ k, k ≠ ckc 3 → OwnDefault k → s.qualified.rd k = s.rd k :=
  ⟨(State.bit_setBit_other (by decide) _ _ _).trans (State.bit_setBit_same _ _ _ s), State.bit_setBit_same _ _ _ _,
    fun _ hne hown => (State.rd_setBit_ne hne hown _ _ _).trans (State.rd_setBit_ne hne hown _ _ s)⟩

theorem State.qualify_eq (h : s.bit (ckc 3) 2 = false) : s.qualify = s.qualified.reselect := if_neg (by simp [h])

theorem State.qualify_completes (h : s.bit (ckc 3) 2 = false) : s.qualify.bit (ckc 3) 1 = true ∧ s.qualify.bit (ckc 3) 2 = true ∧
    s.qualify.clock.qualSince = some s.qualify.now ∧
    (s.rdN (ckc 1) = 2 → s.clock.left = false → s.clocked = true → s.qualify.rdN (ckc 2) = 1) := by
  rw [State.qualify_eq h]
  obtain ⟨h1, h2, hrd⟩ := s.qualified_shows
  have hsince : s.qualified.clock.qualSince = some s.qualified.now := rfl
  have hleft : s.qualified.clock.left = s.clock.left := rfl
  generalize s.qualified = x at *
  have hre := x.reselect_leaves
  refine ⟨(hre.bit 1).trans h1, (hre.bit 2).trans h2, by rw [hre.qualSince, hre.now, hsince], fun hauto hl hc => ?_⟩
  have hw : x.wanted = 1 := by
    rw [State.wanted_auto ((congrArg Int.toNat (hrd _ (by decide) (by decide))).trans hauto), if_pos ⟨h2, hleft.trans hl⟩]
  rw [State.reselect_selects ((State.clocked_congr (hrd _ (by decide) (by decide)) (hrd _ (by decide) (by decide))).trans hc) (by rw [hw, h1]) (.inr h2), hw]

/-- REFCLK has lost its qualification; in use it counts as left. -/
def State.unqualified (s : State) : State :=
  (s.setBit (ckc 3) 2 false).modClock (fun c => { c with qualSince := none, left := c.left || (s.setBit (ckc 3) 2 false).rdN (ckc 2) == 1 })

theorem State.disqualify_completes (h : s.bit (ckc 3) 2 = true) : s.disqualify.bit (ckc 3) 2 = false ∧ s.disqualify.clock.qualSince = none ∧
    (s.rdN (ckc 2) = 1 → s.disqualify.clock.left = true) ∧
    (s.rdN (ckc 1) = 2 → s.clocked = true → s.bit (ckc 3) 0 = true → s.disqualify.rdN (ckc 2) = 0) := by
  have heq : s.disqualify = s.unqualified.reselect := if_neg (by simp [h])
  rw [heq]
  have h2 : s.unqualified.bit (ckc 3) 2 = false := State.bit_setBit_same _ _ _ s
  have h0 : s.unqualified.bit (ckc 3) 0 = s.bit (ckc 3) 0 := State.bit_setBit_other (by decide) _ _ s
  have hrd {k : Nat} (hne : k ≠ ckc 3) (hown : OwnDefault k) : s.unqualified.rd k = s.rd k := State.rd_setBit_ne hne hown _ _ s
  have hsince : s.unqualified.clock.qualSince = none := rfl
  have hleft : s.rdN (ckc 2) = 1 → s.unqualified.clock.left = true := by
    intro hsel
    have hsel' : (s.setBit (ckc 3) 2 false).rdN (ckc 2) = 1 := (State.rdN_setBit_ne (by decide) (by decide) _ _ s).trans hsel
    show (s.clock.left || (s.setBit (ckc 3) 2 false).rdN (ckc 2) == 1) = true
    rw [hsel', beq_self_eq_true, Bool.or_true]
  generalize s.unqualified = x at *
  have hre := x.reselect_leaves
  refine ⟨(hre.bit 2).trans h2, hre.qualSince.trans hsince, fun hsel => hre.left.trans (hleft hsel), fun hauto hc hclkin => ?_⟩
  have hw : x.wanted = 0 := by
    rw [State.wanted_auto ((congrArg Int.toNat (hrd (by decide) (by decide))).trans hauto), if_neg (by simp [h2])]
  rw [State.reselect_selects ((State.clocked_congr (hrd (by decide) (by decide)) (hrd (by decide) (by decide))).trans hc) (by rw [hw, h0, hclkin]) (.inl hw),
    hw]

theorem State.reselectRefclk_completes {a : Time} (hat : s.clock.qualSince = some a) (hdue : a + Time.sec 10 ≤ s.now) :
    s.reselectRefclk.clock.left = false ∧ (s.rdN (ckc 1) = 2 → s.clocked = true → s.bit (ckc 3) 1 = true → s.bit (ckc 3) 2 = true →
      s.reselectRefclk.rdN (ckc 2) = 1) := by
  have heq : s.reselectRefclk = (s.modClock (fun c => { c with left := false })).reselect := by
    unfold State.reselectRefclk
    rw [hat]
    exact if_pos hdue
  rw [heq]
  have hre := (s.modClock (fun c => { c with left := false })).reselect_leaves
  refine ⟨hre.left, fun hauto hc h1 h2 => ?_⟩
  have hw : (s.modClock (fun c => { c with left := false })).wanted = 1 :=
    (State.wanted_auto (s := s.modClock (fun c => { c with left := false })) hauto).trans (if_pos ⟨h2, rfl⟩)
  rw [State.reselect_selects (s := s.modClock (fun c => { c with left := false })) hc (by rw [hw]; exact h1) (.inr h2), hw]

theorem referenceSelect_selects {t : Time} {q : Req} {v : Nat} (hs : s.Serves) (hpass : s.Passes q 0x2200 1 0 v) (hok : v ≠ 1 ∨ s.bit (ckc 3) 2 = true) :
    Completes (.referenceSelect t q v) s (fun u => u.rdN (ckc 1) = v ∧ u.Answered 0 ∧
      (v < 2 → s.clocked = true → s.bit (ckc 3) v = true → u.rdN (ckc 2) = v)) := by
  have hown : (referenceEff v).own ((s.begin t).handling q.sid) = 0 := by
    have hb : ((s.begin t).handling q.sid).bit (ckc 3) 2 = s.bit (ckc 3) 2 := rfl
    refine needs_of_true ?_ _
    rw [hb]
    rcases hok with h | h
    · have : (v : Int) ≠ 1 := by exact_mod_cast h
      simp [this]
    · simp [h]
  refine ⟨(s.begin t).hostWrite q 0x2200 1 0 v (referenceEff v), rfl, ?_⟩
  rw [State.hostWrite_replies (s := s.begin t) hs hpass hown rfl]
  have hre := ((((s.begin t).handling q.sid).wr (ckc 1) v)).reselect_leaves
  have h1 : (((s.begin t).handling q.sid).wr (ckc 1) v).rdN (ckc 1) = v := congrArg Int.toNat (State.rd_wr_same (ckc 1) v _)
  have hrd {k : Nat} (hne : k ≠ ckc 1) (hown : OwnDefault k) : (((s.begin t).handling q.sid).wr (ckc 1) v).rd k = s.rd k := State.rd_wr_ne hne hown _ _
  refine ⟨?_, State.answered_answer_longBy 0 q 0 _, fun hv hc hbit => ?_⟩
  · rw [State.rdN, State.rd_longBy, State.rd_answer]
    exact (congrArg Int.toNat (hre.leaves _ ⟨by decide, by decide, by decide⟩)).trans h1
  · rw [State.rdN, State.rd_longBy, State.rd_answer]
    have hw := State.wanted_forced hv h1
    have hb (i : Nat) : (((s.begin t).handling q.sid).wr (ckc 1) v).bit (ckc 3) i = s.bit (ckc 3) i := State.bit_wr_ne (by decide) (by decide) i _ _
    refine (State.reselect_selects ((State.clocked_congr (hrd (by decide) (by decide)) (hrd (by decide) (by decide))).trans hc) ?_ ?_).trans hw
    · rw [hw, hb, hbit]
    · rw [hw, hb]
      rcases hok with h | h
      · exact .inl (by omega)
      · exact .inr h

theorem referenceSelect_refused {t : Time} {q : Req} {v : Nat} (hs : s.Serves) (hpass : s.Passes q 0x2200 1 0 v) (hv : v = 1)
    (hq : s.bit (ckc 3) 2 = false) : Completes (.referenceSelect t q v) s (fun u => u.rd (ckc 1) = s.rd (ckc 1) ∧ u.Answered 0x0B0000C3) := by
  have hown : (referenceEff v).own ((s.begin t).handling q.sid) = 0x0B0000C3 := by
    have hb : ((s.begin t).handling q.sid).bit (ckc 3) 2 = false := hq
    refine needs_of_false ?_ _
    rw [hb, hv]
    rfl
  refine ⟨(s.begin t).hostWrite q 0x2200 1 0 v (referenceEff v), rfl, ?_⟩
  rw [State.hostWrite_fails (s := s.begin t) hs hpass hown (by decide)]
  refine ⟨?_, State.answered_answer_longBy _ q 0 _⟩
  rw [State.rd_longBy, State.rd_answer]
  rfl

theorem clearStoredBands_clears {t : Time} {q : Req} (hs : s.Serves) (hpass : s.Passes q 0x2200 0x14 0 1) (hmod : s.mod = .configuration) :
    Completes (.clearStoredBands t q) s (fun u => u.rdN (ckc 0x13 1) = 0xFF ∧ u.rdN (ckc 0x13 2) = 0xFF ∧ u.Answered 0) := by
  have hown : clearBandsEff.own ((s.begin t).handling q.sid) = 0 := by
    have hm : ((s.begin t).handling q.sid).mod = .configuration := hmod
    exact needs_of_true (by rw [hm]; rfl) _
  refine ⟨(s.begin t).hostWrite q 0x2200 0x14 0 1 clearBandsEff, rfl, ?_⟩
  rw [State.hostWrite_replies (s := s.begin t) hs hpass hown rfl]
  refine ⟨?_, ?_, State.answered_answer_longBy 0 q 0 _⟩
  · rw [State.rdN, State.rd_longBy, State.rd_answer]
    exact congrArg Int.toNat ((State.rd_wr_ne (by decide) (by decide) _ _).trans (State.rd_wr_same _ _ _))
  · rw [State.rdN, State.rd_longBy, State.rd_answer]
    exact congrArg Int.toNat (State.rd_wr_same _ _ _)

end

/-! ### The PLL (R260, R261) -/

section
variable {s : State}

theorem rdN_wr_nat (k n : Nat) (s : State) : (s.wr k n).rdN k = n := congrArg Int.toNat (State.rd_wr_same k _ s)

theorem State.pllUpdate_follows (hlocked : s.bit (ckc 5) 0 = true) (hsource : s.rdN (ckc 4) = 0) :
    s.pllUpdate.rd (ckc 8) = s.rd (ckc 8) + clampI (clampI (s.rd (ckc 9)) (-250000) 250000 - s.rd (ckc 8)) (-1000) 1000 ∧
    s.pllUpdate.rdN (ckc 6) = pllWord (s.pllUpdate.rd (ckc 8)) / 2 ^ 32 ∧ s.pllUpdate.rdN (ckc 7) = pllWord (s.pllUpdate.rd (ckc 8)) % 2 ^ 32 := by
  unfold State.pllUpdate
  extract_lets r want r' w
  rw [if_neg (by simp [hlocked, hsource])]
  have h8 : (((s.wr (ckc 8) r').wr (ckc 6) (w / 2 ^ 32 : Nat)).wr (ckc 7) (w % 2 ^ 32 : Nat)).rd (ckc 8) = r' :=
    (State.rd_wr_ne (by decide) (by decide) _ _).trans ((State.rd_wr_ne (by decide) (by decide) _ _).trans (State.rd_wr_same _ _ s))
  rw [h8]
  exact ⟨rfl, (State.rdN_wr_ne (by decide) (by decide) _ _).trans (rdN_wr_nat _ _ _), rdN_wr_nat _ _ _⟩

theorem State.pllLock_locks (band : Nat) (h : s.bit (ckc 5) 1 = true ∨ s.bit (ckc 5) 2 = true) : (s.pllLock band).rdN (ckc 5) = 1 ∧
    (s.pllLock band).clock.lockAt = some (s.pllLock band).now ∧ (s.pllLock band).clock.hopAt = none ∧
    (s.pllLock band).rd (ckc 0xA) = if s.bit (ckc 5) 1 then (band : Int) else s.rd (ckc 0xA) := by
  have h' : (s.rdN (ckc 5)).testBit 1 = true ∨ (s.rdN (ckc 5)).testBit 2 = true := h
  unfold State.pllLock
  extract_lets st s1 s2
  rw [if_neg (by rcases h' with h' | h' <;> simp [st, h'])]
  have h2 : s2.rdN (ckc 5) = 1 := (State.rdN_wr_ne (by decide) (by decide) _ _).trans (rdN_wr_nat _ 1 s1)
  have hA : s2.rd (ckc 0xA) = s1.rd (ckc 0xA) := (State.rd_wr_ne (by decide) (by decide) _ _).trans (State.rd_wr_ne (by decide) (by decide) _ s1)
  have h1 : s1.rd (ckc 0xA) = if s.bit (ckc 5) 1 then (band : Int) else s.rd (ckc 0xA) := by
    have hst : st.testBit 1 = s.bit (ckc 5) 1 := rfl
    simp only [s1, hst]
    split
    · exact State.rd_wr_same _ _ s
    · rfl
  clear_value s2
  exact ⟨h2, rfl, rfl, hA.trans h1⟩

theorem State.hopTimeout_searches {h : Time} (hat : s.clock.hopAt = some h) (hhop : s.bit (ckc 5) 2 = true) (hdue : h + Time.us 20 ≤ s.now) :
    s.hopTimeout.rdN (ckc 5) = 2 ∧ s.hopTimeout.rdN (ckc 0x13 (1 + s.rdN (ckc 2) % 2)) = 0xFF ∧
    s.hopTimeout.rdN (ckc 0xD 2) = (s.rdN (ckc 0xD 2) + 1) % 2 ^ 32 := by
  obtain ⟨-, hown, hne⟩ := ckc_band_entry (r := s.rdN (ckc 2) % 2) (Nat.mod_lt _ (by decide)) (l := [ckc 5, ckc 0xD 2]) (by decide)
  unfold State.hopTimeout
  rw [hat]
  dsimp only
  rw [if_pos (by simpa [hhop] using hdue)]
  generalize ckc 0x13 (1 + s.rdN (ckc 2) % 2) = k at *
  simp only [List.mem_cons, List.not_mem_nil, or_false, not_or] at hne
  refine ⟨?_, ?_, ?_⟩
  · exact (State.rdN_wr_ne (by decide) (by decide) _ _).trans (rdN_wr_nat _ 2 _)
  · exact (State.rdN_wr_ne hne.2 hown _ _).trans ((State.rdN_wr_ne hne.1 hown _ _).trans (rdN_wr_nat _ 0xFF s))
  · rw [State.rdN_inc_same, State.rdN_wr_ne (by decide) (by decide), State.rdN_wr_ne (Ne.symm hne.2) (by decide)]

theorem State.bandStore_stores {l : Time} (hat : s.clock.lockAt = some l) (hlocked : s.bit (ckc 5) 0 = true) (hdue : l + Time.sec 1 ≤ s.now)
    (href : s.rdN (ckc 2) < 2) : s.bandStore.rd (ckc 0x13 (1 + s.rdN (ckc 2))) = s.rd (ckc 0xA) := by
  unfold State.bandStore
  rw [hat]
  dsimp only
  rw [if_pos (by simp [hlocked, hdue, href])]
  exact State.rd_wr_same _ _ s

/-! ### Bypass and holdover (R262, R263) -/

theorem State.pllUnlocked_relocks (hlocked : s.bit (ckc 5) 0 = true) (hsource : s.rdN (ckc 4) ≠ 3) : s.pllUnlocked.rdN (ckc 4) = 1 + s.rdN (ckc 2) % 2 ∧
    s.pllUnlocked.rdN (ckc 0xB) = (s.rdN (ckc 0xB) + 1) % 2 ^ 32 ∧ s.pllUnlocked.clock.lossAt = s.pllUnlocked.now - Time.ns 40 ∧
    s.pllUnlocked.clock.hopAt = some s.pllUnlocked.now ∧
    s.pllUnlocked.rdN (ckc 5) = if s.rdN (ckc 0x13 (1 + s.rdN (ckc 2) % 2)) ≠ 0xFF then 4 else 2 := by
  unfold State.pllUnlocked
  rw [if_neg (by simp [hlocked, hsource])]
  extract_lets r x
  have hr : r < 2 := Nat.mod_lt _ (by decide)
  have hx {k : Nat} (hown : OwnDefault k) : x.rdN k = (s.inc (ckc 0xB)).rdN k := congrArg Int.toNat (State.rd_congr hown rfl)
  have hB : x.rdN (ckc 0xB) = (s.rdN (ckc 0xB) + 1) % 2 ^ 32 := (hx (by decide)).trans (State.rdN_inc_same _ 1 s)
  have hloss : x.clock.lossAt = x.now - Time.ns 40 := rfl
  have hband : x.rdN (ckc 0x13 (1 + r)) = s.rdN (ckc 0x13 (1 + r)) := by
    obtain ⟨-, hown, hne⟩ := ckc_band_entry hr (l := [ckc 0xB]) (by decide)
    exact (hx hown).trans (State.rdN_wr_ne (List.ne_of_not_mem_cons hne) hown _ s)
  clear_value x
  have hre := x.relocks 1 hr
  refine ⟨hre.source, (congrArg Int.toNat (hre.leaves _ ⟨by decide, by decide, by decide⟩)).trans hB, ?_, ?_, ?_⟩
  · rw [hre.clock, hre.now]
    exact hloss
  · rw [hre.clock, hre.now]
  · rw [hre.pll, hband]

theorem State.referenceLost_follows {r : Nat} (hr : r < 2) (hthere : s.bit (ckc 3) r = true) : (s.referenceLost r).bit (ckc 3) r = false ∧
    (s.referenceLost r).rdN (ckc 0xC) = (s.rdN (ckc 0xC) + 1) % 2 ^ 32 ∧ (r = 1 → (s.referenceLost r).bit (ckc 3) 2 = false) ∧
    (s.rdN (ckc 2) = r → s.clocked = true → s.bit (ckc 3) (1 - r) = true →
      (s.referenceLost r).rdN (ckc 2) = 1 - r ∧ (s.referenceLost r).rdN (ckc 4) = 2 - r) := by
  unfold State.referenceLost
  rw [if_neg (by simp [hthere])]
  extract_lets s1 s2 s3
  have h1 : s1.bit (ckc 3) r = false ∧ s1.bit (ckc 3) (1 - r) = s.bit (ckc 3) (1 - r) :=
    ⟨(State.bit_wr_ne (by decide) (by decide) _ _ _).trans (State.bit_setBit_same _ _ _ s),
      (State.bit_wr_ne (by decide) (by decide) _ _ _).trans (State.bit_setBit_other (by omega) _ _ s)⟩
  have hC : s1.rdN (ckc 0xC) = (s.rdN (ckc 0xC) + 1) % 2 ^ 32 := by
    rw [State.rdN_inc_same, State.rdN_setBit_ne (by decide) (by decide)]
  have hrd1 {k : Nat} (h3 : k ≠ ckc 3) (hC : k ≠ ckc 0xC) (hown : OwnDefault k) : s1.rd k = s.rd k :=
    (State.rd_wr_ne hC hown _ _).trans (State.rd_setBit_ne h3 hown _ _ s)
  clear_value s1
  have h2 : s2.bit (ckc 3) r = false ∧ s2.bit (ckc 3) (1 - r) = s.bit (ckc 3) (1 - r) ∧ (r = 1 → s2.bit (ckc 3) 2 = false) := by
    by_cases h : r = 1
    · simp only [s2, if_pos h]
      exact ⟨(State.bit_setBit_other (by omega) _ _ s1).trans h1.1, (State.bit_setBit_other (by omega) _ _ s1).trans h1.2,
        fun _ => State.bit_setBit_same _ _ _ s1⟩
    · simp only [s2, if_neg h]
      exact ⟨h1.1, h1.2, fun h' => (h h').elim⟩
  have hrd2 {k : Nat} (h3 : k ≠ ckc 3) (hown : OwnDefault k) : s2.rd k = s1.rd k := by
    simp only [s2]
    split
    · exact State.rd_setBit_ne h3 hown _ _ s1
    · rfl
  have hrd {k : Nat} (h3 : k ≠ ckc 3) (hC : k ≠ ckc 0xC) (hown : OwnDefault k) : s2.rd k = s.rd k := (hrd2 h3 hown).trans (hrd1 h3 hC hown)
  have hC2 : s2.rdN (ckc 0xC) = (s.rdN (ckc 0xC) + 1) % 2 ^ 32 := (congrArg Int.toNat (hrd2 (by decide) (by decide))).trans hC
  have hclocked : s2.clocked = s.clocked := State.clocked_congr (hrd (by decide) (by decide) (by decide)) (hrd (by decide) (by decide) (by decide))
  have hsel : s2.rdN (ckc 2) = s.rdN (ckc 2) := congrArg Int.toNat (hrd (by decide) (by decide) (by decide))
  clear_value s2
  by_cases hgo : (decide (s2.rdN (ckc 2) = r) && s2.clocked && s2.bit (ckc 3) (1 - r)) = true
  · rw [if_pos hgo]
    have h3 {k : Nat} (hne : k ≠ ckc 2) (hown : OwnDefault k) : s3.rd k = s2.rd k := State.rd_wr_ne hne hown _ s2
    have hsel3 : s3.rdN (ckc 2) = 1 - r := rdN_wr_nat _ (1 - r) s2
    clear_value s3
    have hre := s3.relocks 2 (r := 1 - r) (by omega)
    have hb (i : Nat) : ((s3.toBypass 2 (1 - r)).startHop (1 - r)).bit (ckc 3) i = s2.bit (ckc 3) i := by
      rw [State.bit, State.bit, State.rdN, State.rdN, hre.leaves _ ⟨by decide, by decide, by decide⟩, h3 (by decide) (by decide)]
    refine ⟨(hb r).trans h2.1, ?_, fun h => (hb 2).trans (h2.2.2 h), fun _ _ _ => ⟨?_, hre.source.trans (by omega)⟩⟩
    · exact (congrArg Int.toNat ((hre.leaves _ ⟨by decide, by decide, by decide⟩).trans (h3 (by decide) (by decide)))).trans hC2
    · exact (congrArg Int.toNat (hre.leaves _ ⟨by decide, by decide, by decide⟩)).trans hsel3
  · rw [if_neg hgo]
    exact ⟨h2.1, hC2, h2.2.2, fun h hc hb => (hgo (by simp [hsel, h, hclocked, hc, h2.2.1, hb])).elim⟩

theorem State.pwm_toNormal (s : State) : s.toNormal.pwm.bypass = false := by
  unfold State.toNormal
  extract_lets bs p x
  have hx : x.pwm.bypass = false := rfl
  exact (congrArg Pwm.bypass (State.each_eq State.pwm (fun c _ s => (State.clearCarry_kept (Sub.refl _) (Kept.refl _ s)).pwmSame rfl) x)).trans hx

theorem State.returnToPll_returns {l : Time} (hat : s.clock.lockAt = some l) (hlocked : s.bit (ckc 5) 0 = true)
    (hsource : s.rdN (ckc 4) = 1 ∨ s.rdN (ckc 4) = 2) (hdue : l + Time.us 10 ≤ s.now) (hgrid : s.modTime % framePeriod < 32) :
    s.returnToPll.rdN (ckc 4) = 0 ∧ s.returnToPll.pwm.bypass = false := by
  have hon : s.onGrid = true := decide_eq_true hgrid
  unfold State.returnToPll
  rw [hat]
  dsimp only
  rw [if_pos (by simpa [hlocked, hdue, hon] using hsource)]
  have h4 : (s.wr (ckc 4) 0).rdN (ckc 4) = 0 := rdN_wr_nat _ 0 s
  generalize s.wr (ckc 4) 0 = x at *
  refine ⟨(congrArg Int.toNat ((State.toNormal_kept (Sub.refl _) (Kept.refl _ x)).rd_eq (z := 15) (by decide) (by decide) (by decide))).trans h4, x.pwm_toNormal⟩

theorem State.bothLost_holds (hsource : s.rdN (ckc 4) ≠ 3) : s.bothLost.rdN (ckc 4) = 3 ∧ s.bothLost.rdN (ckc 2) = 0xFF ∧ s.bothLost.rdN (ckc 5) = 8 ∧
    s.bothLost.rdN (ckc 0xF) = (s.rdN (ckc 0xF) + 1) % 2 ^ 32 ∧ s.bothLost.clock.bothLost = some s.bothLost.now := by
  unfold State.bothLost
  rw [if_neg hsource]
  extract_lets byp used s1 s2 s3 s4
  have h2 : s2.rdN (ckc 2) = 0xFF ∧ s2.rdN (ckc 5) = 8 ∧ s2.rdN (ckc 0xF) = s.rdN (ckc 0xF) :=
    ⟨(State.rdN_wr_ne (by decide) (by decide) _ _).trans (rdN_wr_nat _ 0xFF _), rdN_wr_nat _ 8 _,
      (State.rdN_wr_ne (by decide) (by decide) _ _).trans ((State.rdN_wr_ne (by decide) (by decide) _ _).trans
        ((State.rdN_wr_ne (by decide) (by decide) _ _).trans (State.rdN_wr_ne (by decide) (by decide) _ s)))⟩
  clear_value s2
  have h3 : s3.rdN (ckc 4) = 3 ∧ s3.rdN (ckc 2) = 0xFF ∧ s3.rdN (ckc 5) = 8 ∧ s3.rdN (ckc 0xF) = (s.rdN (ckc 0xF) + 1) % 2 ^ 32 := by
    refine ⟨(State.rdN_wr_ne (by decide) (by decide) _ _).trans (rdN_wr_nat _ 3 s2), ?_, ?_, ?_⟩
    · exact (State.rdN_wr_ne (by decide) (by decide) _ _).trans ((State.rdN_wr_ne (by decide) (by decide) _ s2).trans h2.1)
    · exact (State.rdN_wr_ne (by decide) (by decide) _ _).trans ((State.rdN_wr_ne (by decide) (by decide) _ s2).trans h2.2.1)
    · rw [← h2.2.2]
      exact (State.rdN_inc_same _ 1 _).trans (by rw [State.rdN_wr_ne (by decide) (by decide)])
  have hlost : s3.clock.bothLost = some s3.now := rfl
  clear_value s3
  have hkept : Kept 0x7ffffffffffc000000000000100 s3 s4 := .ite (State.toNormal_kept (Sub.refl _) (Kept.refl _ s3)) (.refl _ s3)
  have hrd {k : Nat} (hz : zone k = 15) (hown : OwnDefault k) : (s4.logEvent 0x0802 0 []).rdN k = s3.rdN k :=
    congrArg Int.toNat ((State.rd_clock_logEvent s4 hz hown _ _ _).trans (hkept.rd_eq hz (by decide) hown))
  rw [hrd (by decide) (by decide), hrd (by decide) (by decide), hrd (by decide) (by decide), hrd (by decide) (by decide), State.logEvent_clock,
    State.logEvent_now, hkept.clockSame rfl, hkept.now]
  exact ⟨h3.1, h3.2.1, h3.2.2.1, h3.2.2.2, hlost⟩

theorem State.referenceReturn_relocks {r : Nat} (hr : r < 2) : (s.referenceReturn r).bit (ckc 3) r = true ∧ (s.rdN (ckc 4) = 3 →
    (s.referenceReturn r).rdN (ckc 2) = r ∧ (s.referenceReturn r).rdN (ckc 4) = 1 + r ∧ (s.referenceReturn r).clock.bothLost = none) := by
  unfold State.referenceReturn
  extract_lets s1 s2
  have hbit : s1.bit (ckc 3) r = true := State.bit_setBit_same _ _ _ s
  have h4 : s1.rdN (ckc 4) = s.rdN (ckc 4) := State.rdN_setBit_ne (by decide) (by decide) _ _ s
  clear_value s1
  have hbit2 : s2.bit (ckc 3) r = true := (State.bit_wr_ne (by decide) (by decide) _ _ s1).trans hbit
  have h2 : s2.rdN (ckc 2) = r := rdN_wr_nat _ r s1
  have hnone : s2.clock.bothLost = none := rfl
  clear_value s2
  by_cases h : s1.rdN (ckc 4) = 3
  · rw [if_pos h]
    have hre := s2.relocks 3 hr
    refine ⟨?_, fun _ => ⟨(congrArg Int.toNat (hre.leaves _ ⟨by decide, by decide, by decide⟩)).trans h2, hre.source, ?_⟩⟩
    · rw [State.bit, State.rdN, hre.leaves _ ⟨by decide, by decide, by decide⟩]
      exact hbit2
    · rw [hre.clock]
      exact hnone
  · rw [if_neg h]
    exact ⟨(s1.reselect_leaves.bit r).trans hbit, fun h' => (h (h4.trans h')).elim⟩

theorem State.hkMeasure_measures (err : Int) (href : s.rdN (ckc 2) ≠ 0xFF) : (s.hkMeasure err).rd (ckc 0x12) = sat16 err ∧
    (s.hkMeasure err).clock.hkAt = some (s.hkMeasure err).now ∧ (s.hkMeasure err).clock.hk = err := by
  unfold State.hkMeasure
  rw [if_neg href]
  exact ⟨State.rd_wr_same _ _ s, rfl, rfl⟩

theorem State.commands_blockBatch (b src : Nat) (detail : List Byte) (s : State) : (s.blockBatch b src detail).commands = s.commands := by
  have h := State.blockBatch_kept (b := b) (src := src) (detail := detail) (Sub.refl _) (Kept.refl _ s)
  unfold State.commands State.rdN
  rw [h.rd_eq (z := 26) (by decide) (by decide) (by decide), h.rd_eq (z := 26) (by decide) (by decide) (by decide)]

theorem State.bstate_blockBatch_ne {b b' : Nat} (h : b ≠ b') (hb : b < 32) (src : Nat) (detail : List Byte) (s : State) :
    (s.blockBatch b' src detail).bstate b = s.bstate b :=
  State.bstate_congr (State.find?_batch_blockBatch (offList_of_ne (by decide) (by omega) (by omega) h) (batchKey_bk (by omega) (by omega) hb) src detail s)

/-- Blocking every batch blocks each that is neither Off nor in Fault. -/
theorem State.bstate_blockAll {b src : Nat} (hb : b < 32) (hoff : s.bstate b ≠ .off) (hfault : s.bstate b ≠ .fault) (hcmd : s.commands = true) :
    (s.each allBatches (fun b s => s.blockBatch b src [])).bstate b = .blocked := by
  have hblock {x : State} (h : x.commands = true ∧ x.bstate b ≠ .off ∧ x.bstate b ≠ .fault) : (x.blockBatch b src []).bstate b = .blocked :=
    State.bstate_blockBatch hb [] h.2.1 h.2.2 h.1
  refine (State.each_reaches (I := fun x => x.commands = true ∧ x.bstate b ≠ .off ∧ x.bstate b ≠ .fault)
    (Q := fun x => x.commands = true ∧ x.bstate b = .blocked) (List.mem_range.2 hb) (fun b' hb' x h => ?_)
    (fun x h => ⟨(State.commands_blockBatch b src [] x).trans h.1, hblock h⟩) (fun b' hb' x h => ?_) ⟨hcmd, hoff, hfault⟩).2
  · refine ⟨(State.commands_blockBatch b' src [] x).trans h.1, ?_⟩
    by_cases hne : b = b'
    · rw [← hne, hblock h]
      simp
    · rw [State.bstate_blockBatch_ne hne hb src [] x]
      exact h.2
  · refine ⟨(State.commands_blockBatch b' src [] x).trans h.1, ?_⟩
    by_cases hne : b = b'
    · rw [← hne]
      exact hblock ⟨h.1, by simp [h.2], by simp [h.2]⟩
    · exact (State.bstate_blockBatch_ne hne hb src [] x).trans h.2

theorem State.rideWindowEnd_blocks {l : Time} (hat : s.clock.bothLost = some l) (hdue : l + Time.ms 100 ≤ s.now) (hsource : s.rdN (ckc 4) = 3) :
    s.rideWindowEnd.rdN (ckc 4) = 3 ∧ ∀ b : Batch, s.bstate b ≠ .off → s.bstate b ≠ .fault → s.commands = true → s.rideWindowEnd.bstate b = .blocked := by
  have heq : s.rideWindowEnd = s.each allBatches (fun b s => s.blockBatch b 2048 []) := by
    unfold State.rideWindowEnd
    rw [hat]
    exact if_pos (by simp [hdue, hsource])
  rw [heq]
  refine ⟨?_, fun b hoff hfault hcmd => State.bstate_blockAll b.isLt hoff hfault hcmd⟩
  rw [← hsource]
  exact State.each_eq (fun x : State => x.rdN (ckc 4)) (fun b _ x => congrArg Int.toNat
    ((State.blockBatch_kept (b := b) (Sub.refl _) (Kept.refl _ x)).rd_eq (z := 15) (by decide) (by decide) (by decide))) s

end

/-- Settles O39: a relock and the selection leave what the clock's events set, and each event sets it. -/
theorem referencesAndPllComplete : Obligations.ReferencesAndPllComplete := by
  unfold Obligations.ReferencesAndPllComplete
  refine ⟨fun t s h => ⟨_, rfl, State.qualify_completes (s := s.begin t) h⟩, fun t s h => ⟨_, rfl, State.disqualify_completes (s := s.begin t) h⟩,
    fun t s a hat hdue => ⟨_, rfl, State.reselectRefclk_completes (s := s.begin t) hat hdue⟩,
    fun t q v s hs hpass => ⟨referenceSelect_selects hs hpass, referenceSelect_refused hs hpass⟩,
    fun t s hlocked hsource => ⟨_, rfl, State.pllUpdate_follows (s := s.begin t) hlocked hsource⟩,
    fun t band s h => ⟨_, rfl, State.pllLock_locks (s := s.begin t) band.val h⟩,
    fun t s a hat hhop hdue => ⟨_, rfl, State.hopTimeout_searches (s := s.begin t) hat hhop hdue⟩,
    fun t s l hat hlocked hdue href => ⟨_, rfl, State.bandStore_stores (s := s.begin t) hat hlocked hdue href⟩,
    fun t q s => clearStoredBands_clears,
    fun t s hlocked hsource => ⟨_, rfl, State.pllUnlocked_relocks (s := s.begin t) hlocked hsource⟩, ?lost,
    fun t s l hat hlocked hsource hdue hgrid => ⟨_, rfl, State.returnToPll_returns (s := s.begin t) hat hlocked hsource hdue hgrid⟩,
    fun t s hsource => ⟨_, rfl, State.bothLost_holds (s := s.begin t) hsource⟩,
    fun t s l hat hdue hsource => ⟨_, rfl, State.rideWindowEnd_blocks (s := s.begin t) hat hdue hsource⟩, ?back,
    fun t err s href => ⟨_, rfl, State.hkMeasure_measures (s := s.begin t) err href⟩⟩
  case lost =>
    intro t refclk s hthere
    obtain ⟨hbit, hC, hqual, hother⟩ := State.referenceLost_follows (s := s.begin t) (r := b2n refclk) (by cases refclk <;> decide) hthere
    exact ⟨_, rfl, hbit, hC, fun h => hqual (by rw [h]; rfl), hother⟩
  case back =>
    intro t refclk s
    exact ⟨_, rfl, State.referenceReturn_relocks (s := s.begin t) (r := b2n refclk) (by cases refclk <;> decide)⟩

end Sys2Proof.Machine
end

section
/-! Supervision and registers of a node (R202, R206, R210, R213 to R218, R221): each command sets the node's record, and the two that reach
further send one message or break the link. -/

namespace Sys2Proof.Machine

/-! ### What the parts of a node's record leave of it -/

/-- Repeating a window schedules edges and changes nothing else of the node. -/
theorem NodeRec.repeatWindows_eq (l : List Time) (r : NodeRec) : l.foldl NodeRec.repeatWindow r = { r with edges := (l.foldl NodeRec.repeatWindow r).edges } := by
  induction l generalizing r with
  | nil => rfl
  | cons w l ih =>
    rw [List.foldl_cons, ih]
    rfl

/-- A good frame of an epoch not below the node's own is authoritative where the epoch is not 0. -/
theorem NodeRec.adopt_high {r : NodeRec} {e : Nat} (h1 : 1 ≤ e) (he : r.epoch ≤ e) : r.adopt true e = ({ r with epoch := e }, true) := by
  simp [NodeRec.adopt, h1, max_eq_right he]

theorem NodeRec.adopt_low {r : NodeRec} {e : Nat} (he : e < r.epoch) : r.adopt true e = (r, false) := by
  have hne : ¬e = r.epoch := by omega
  simp [NodeRec.adopt, max_eq_left (le_of_lt he), hne]

/-- Whether a node has a register does not hang on its epoch. -/
theorem NodeRec.register_isSome_epoch (r : NodeRec) (e a : Nat) : ({ r with epoch := e } : NodeRec).register a = none ↔ r.register a = none := by
  unfold NodeRec.register
  cases r.id with
  | none => simp
  | some x =>
    dsimp only
    by_cases h : a % 4 ≠ 0
    · simp [h]
    · simp only [if_neg h]
      split <;> simp

section
variable {t : Time} {n : NodeNo} {s : State}

theorem State.node_nodeRespond (k : Nat) (code data : Nat) (s : State) :
    (s.nodeRespond k code data).node k = { s.node k with resp := (s.node k).resp ++ [(code, data)] } := State.node_setNode_same _ _ _

/-! ### Supervision -/

theorem missedFramePeriod_counts (hdue : (s.node n).lastTf + framePeriod + Time.ns 6000 + (s.node n).delay ≤ (s.begin t).modTime) :
    Completes (.missedFramePeriod t n) s (fun u => (u.node n).missRun = (s.node n).missRun + 1 ∧ (u.node n).missed = (s.node n).missed + 1 ∧
      (u.node n).lastTf = (s.node n).lastTf + framePeriod ∧ (u.node n).legs = (s.node n).legs) := by
  refine ⟨(s.begin t).missedPeriod n, rfl, ?_⟩
  unfold State.missedPeriod
  extract_lets r due w starts r'
  have hgo : ¬(s.begin t).modTime < due := not_lt.2 hdue
  rw [if_neg hgo]
  beta_reduce
  rw [State.node_setNode_same]
  have hr : r' = { r with edges := r'.edges } := NodeRec.repeatWindows_eq starts r
  generalize r'.edges = l at hr
  rw [hr]
  exact ⟨rfl, rfl, rfl, rfl⟩

theorem nodeWatchdog_blocks (h : (s.node n).periods ≤ (s.node n).missRun) : Completes (.nodeWatchdog t n) s (fun u =>
    u.node n = { s.node n with watchdog := true, legs := 0, gates := [], edges := [] }) := by
  refine ⟨(s.begin t).nodeWatchdog n, rfl, ?_⟩
  have hrun : (s.begin t).nodeWatchdog n = (s.begin t).setNode n { (s.node n).off with watchdog := true } := if_pos h
  rw [hrun]
  exact State.node_setNode_same _ _ _

theorem nodeShortCircuit_latches {i : Fin 32} (uv : Bool) (hi : i.val < (s.node n).slots) : Completes (.nodeShortCircuit t n i uv) s (fun u =>
    (u.node n).legs.testBit i = false ∧ (∀ e ∈ (u.node n).edges, e.slot ≠ i.val) ∧
      (if uv then (u.node n).undervolts.testBit i = true ∧ (u.node n).shorts = (s.node n).shorts
       else (u.node n).shorts.testBit i = true ∧ (u.node n).undervolts = (s.node n).undervolts)) := by
  refine ⟨(s.begin t).nodeShort n i uv, rfl, ?_⟩
  have hi' : ¬((s.begin t).node n).slots ≤ i.val := not_le.2 hi
  unfold State.nodeShort
  extract_lets r r'
  rw [if_neg hi']
  beta_reduce
  rw [State.node_setNode_same]
  refine ⟨testBit_withBit_same _ _ _, fun e he => by simpa using (List.mem_filter.1 he).2, ?_⟩
  cases uv
  · exact ⟨testBit_withBit_same _ _ _, rfl⟩
  · exact ⟨testBit_withBit_same _ _ _, rfl⟩

/-! ### The turn node (R202, R222) -/

theorem ownDefault_lk {k a : Nat} (hk : k < 24) (ha : a < 256) : OwnDefault (lk k a) := .inl (by simp only [lk, key]; omega)

theorem lk_ne {k a b : Nat} (h : a ≠ b) : lk k a ≠ lk k b := by
  simp only [lk, key]
  omega

theorem lk_low {k a : Nat} (hk : k < 24) (ha : a < 256) : lk k a < key 0x7000 0 := by
  simp only [lk, key]
  omega

/-- A break leaves the nodes, shows the new state of the link and counts. -/
theorem State.breakLink_breaks {k : Nat} (hk : k < 24) (unreached new : Nat) (s : State) : (s.breakLink k unreached new).links = s.links ∧
    (s.breakLink k unreached new).rdN (lk k 3) = new ∧ (s.breakLink k unreached new).rdN (lk k 0xF) = (s.rdN (lk k 0xF) + 1) % 2 ^ 32 ∧
    (∀ a < 256, a ≠ 3 → a ≠ 0xF → a ≠ 0x12 → a ≠ 0x13 → (s.breakLink k unreached new).rd (lk k a) = s.rd (lk k a)) ∧
    (s.rdN (lk k 2) = 1 → (s.breakLink k unreached new).rdN (lk k 0x12) = unreached % 256 ∧ (s.breakLink k unreached new).bit (lk k 0x13) 3 = false) := by
  unfold State.breakLink
  extract_lets s1
  have hne {a b : Nat} (h : a ≠ b) : lk k a ≠ lk k b := lk_ne h
  have hown {a : Nat} (ha : a < 256) : OwnDefault (lk k a) := ownDefault_lk hk ha
  have hlog {a : Nat} (ha : a < 256) : s1.rd (lk k a) = ((s.inc (lk k 0xF)).wr (lk k 3) new).rd (lk k a) :=
    State.rd_logEvent (lk_low hk ha) (hown ha) _ _ _ _
  have hlinks : s1.links = s.links := State.logEvent_links ..
  have h3 : s1.rdN (lk k 3) = new := (congrArg Int.toNat (hlog (by decide))).trans (congrArg Int.toNat (State.rd_wr_same _ _ _))
  have hF : s1.rdN (lk k 0xF) = (s.rdN (lk k 0xF) + 1) % 2 ^ 32 :=
    (congrArg Int.toNat (hlog (by decide))).trans ((State.rdN_wr_ne (hne (by decide)) (hown (by decide)) _ _).trans (State.rdN_inc_same _ _ s))
  have hsame {a : Nat} (ha : a < 256) (h3 : a ≠ 3) (hF : a ≠ 0xF) : s1.rd (lk k a) = s.rd (lk k a) :=
    (hlog ha).trans ((State.rd_wr_ne (hne h3) (hown ha) _ _).trans (State.rd_wr_ne (hne hF) (hown ha) _ s))
  clear_value s1
  have h2 : s1.rdN (lk k 2) = s.rdN (lk k 2) := congrArg Int.toNat (hsame (by decide) (by decide) (by decide))
  by_cases hring : s1.rdN (lk k 2) = 1
  · rw [if_pos hring]
    have hrd {a : Nat} (ha : a < 256) (h12 : a ≠ 0x12) (h13 : a ≠ 0x13) :
        (((s1.wr (lk k 0x12) (unreached % 256 : Nat)).setBit (lk k 0x13) 4 true).setBit (lk k 0x13) 3 false).rd (lk k a) = s1.rd (lk k a) :=
      (State.rd_setBit_ne (hne h13) (hown ha) _ _ _).trans ((State.rd_setBit_ne (hne h13) (hown ha) _ _ _).trans (State.rd_wr_ne (hne h12) (hown ha) _ _))
    refine ⟨hlinks, (congrArg Int.toNat (hrd (by decide) (by decide) (by decide))).trans h3,
      (congrArg Int.toNat (hrd (by decide) (by decide) (by decide))).trans hF,
      fun a ha h3 hF h12 h13 => (hrd ha h12 h13).trans (hsame ha h3 hF), fun _ => ⟨?_, State.bit_setBit_same _ _ _ _⟩⟩
    exact (State.rdN_setBit_ne (hne (by decide)) (hown (by decide)) _ _ _).trans ((State.rdN_setBit_ne (hne (by decide)) (hown (by decide)) _ _ _).trans
      (rdN_wr_nat _ _ s1))
  · rw [if_neg hring]
    exact ⟨hlinks, h3, hF, fun a ha h3 hF _ _ => hsame ha h3 hF, fun h => (hring (h2.trans h)).elim⟩

theorem turnNodeChange_breaks {turn : Bool} {k : LinkNo} (hturn : (s.node n).turn ≠ turn) (hk : s.rdN (ndk n 1) = k) (hruns : s.rdN (lk k 3) = 3) :
    Completes (.turnNodeChange t n turn) s (fun u => (u.node n).turn = turn ∧ u.rdN (lk k 3) = (if s.rdN (lk k 2) = 1 then 4 else 3) ∧
      u.rdN (lk k 0xF) = (s.rdN (lk k 0xF) + 1) % 2 ^ 32) := by
  refine ⟨(s.begin t).turnChange n turn, rfl, ?_⟩
  unfold State.turnChange
  extract_lets r s1 k'
  have hk' : k' = k := hk
  have hnode : s1.node n = { r with turn := turn } := State.node_setNode_same _ _ _
  have hgo : (r.turn != turn && s1.rdN (lk k' 3) = 3) = true := by
    rw [hk']
    have hr : s1.rdN (lk k 3) = 3 := hruns
    have ht : r.turn ≠ turn := hturn
    simpa [hr] using ht
  have hrd (a : Nat) : s1.rdN (lk k a) = s.rdN (lk k a) := rfl
  rw [if_pos hgo, hk']
  obtain ⟨hlinks, h3, hF, -⟩ := State.breakLink_breaks k.isLt (if turn then r.pos + 1 else s1.rdN (lk k 4)) (if s1.rdN (lk k 2) = 1 then 4 else 3) s1
  refine ⟨?_, h3, hF⟩
  rw [State.node, hlinks]
  exact congrArg NodeRec.turn hnode

/-! ### Registers -/

theorem readRegister_answers {a v : Nat} (h : (s.node n).register a = some v) :
    Completes (.readRegister t n a) s (fun u => (u.node n).resp = (s.node n).resp ++ [(1, v)]) := by
  refine ⟨(s.begin t).readRegister n a, rfl, ?_⟩
  have h' : ((s.begin t).node n).register a = some v := h
  simp only [State.readRegister, h', State.node_nodeRespond]
  rfl

theorem readRegister_refuses {a : Nat} (h : (s.node n).register a = none) :
    Completes (.readRegister t n a) s (fun u => (u.node n).resp = (s.node n).resp ++ [(2, 0)]) := by
  refine ⟨(s.begin t).readRegister n a, rfl, ?_⟩
  have h' : ((s.begin t).node n).register a = none := h
  simp only [State.readRegister, h', State.node_nodeRespond]
  rfl

theorem writeRegister_writes {a v e : Nat} (h1 : 1 ≤ e) (he : (s.node n).epoch ≤ e) (hreg : ((s.node n).register a).isSome = true) (ha : 0x34 ≤ a)
    (hdead : a < 0x100 ∨ 0x1000 ≤ a ∨ ((s.node n).id.map (·.minDead)).getD 0 ≤ v) : Completes (.writeRegister t n a v e) s (fun u =>
      Tbl.get 0 a (u.node n).regs = v % 2 ^ 32 ∧ (u.node n).epoch = e ∧ (u.node n).resp = (s.node n).resp ++ [(1, v)]) := by
  refine ⟨(s.begin t).writeRegister n a v e, rfl, ?_⟩
  have hadopt : ((s.begin t).node n).adopt true e = ({ s.node n with epoch := e }, true) := NodeRec.adopt_high h1 he
  unfold State.writeRegister
  rw [hadopt]
  have hsome : (({ s.node n with epoch := e } : NodeRec).register a).isNone = false := by
    rw [Option.isNone_eq_false_iff, Option.isSome_iff_ne_none, ne_eq, NodeRec.register_isSome_epoch, ← ne_eq, ← Option.isSome_iff_ne_none]
    exact hreg
  have hlow : ¬(decide (0x100 ≤ a) && decide (a < 0x1000) && decide (v < ((s.node n).id.map (·.minDead)).getD 0)) = true := by
    simp only [Bool.and_eq_true, decide_eq_true_eq]
    omega
  have ha' : ¬a < 0x34 := by omega
  simp only [Bool.not_true, Bool.false_eq_true, if_false, hsome, Bool.false_or, decide_eq_true_eq, ha', hlow, State.node_nodeRespond,
    State.node_setNode_same, and_true]
  exact Tbl.get_set_same _ _ _ _

theorem writeRegister_refuses {a v e : Nat} (he : e < (s.node n).epoch) :
    Completes (.writeRegister t n a v e) s (fun u => u.node n = { s.node n with resp := (s.node n).resp ++ [(3, 0)] }) := by
  refine ⟨(s.begin t).writeRegister n a v e, rfl, ?_⟩
  have hadopt : ((s.begin t).node n).adopt true e = (s.node n, false) := NodeRec.adopt_low he
  unfold State.writeRegister
  rw [hadopt]
  simp only [Bool.not_false, if_true, State.node_nodeRespond, State.node_setNode_same]

theorem clearLatchedFaults_clears {e standing : Nat} (h1 : 1 ≤ e) (he : (s.node n).epoch ≤ e) : Completes (.clearLatchedFaults t n e standing) s (fun u =>
    (u.node n).shorts = (s.node n).shorts &&& standing ∧ (u.node n).undervolts = (s.node n).undervolts &&& standing ∧
      (u.node n).resp = (s.node n).resp ++ [(1, 0)]) := by
  refine ⟨(s.begin t).nodeClear n e standing, rfl, ?_⟩
  have hadopt : ((s.begin t).node n).adopt true e = ({ s.node n with epoch := e }, true) := NodeRec.adopt_high h1 he
  unfold State.nodeClear
  rw [hadopt]
  simp only [Bool.not_true, Bool.false_eq_true, if_false, State.node_nodeRespond, State.node_setNode_same, and_self]

theorem enumerateRequest_places (d : Nat) : Completes (.enumerateRequest t n d) s (fun u => (u.node n).pos = d ∧
    u.out = if (s.node n).turn then [.msg "NODE_RESPONSE" [n, 4, 0xFF, (d + 1 : Nat)] []] else [.msg "NODE_ENUMERATE" [n, (d + 1 : Nat)] []]) := by
  refine ⟨(s.begin t).enumerateRequest n d, rfl, ?_⟩
  unfold State.enumerateRequest
  extract_lets q r s1
  have hturn : r.turn = (s.node n).turn := by
    have h : ((s.begin t).node n).retime.turn = ((s.begin t).node n).turn := by
      unfold NodeRec.retime
      split <;> rfl
    exact h
  have hnode : s1.node n = r := State.node_setNode_same _ _ _
  rw [hturn]
  split
  · exact ⟨congrArg NodeRec.pos hnode, rfl⟩
  · exact ⟨congrArg NodeRec.pos hnode, rfl⟩

theorem delayMeasurement_latches {a b : Nat} (h : a ≤ b) : Completes (.delayMeasurement t n a b) s (fun u => (u.node n).latch + a = b) := by
  refine ⟨(s.begin t).delayMeasurement n a b, rfl, ?_⟩
  have hnode : ((s.begin t).delayMeasurement n a b).node n = { (s.node n).retime with latch := b - a } := State.node_setNode_same _ _ _
  exact (congrArg (fun r : NodeRec => r.latch + a) hnode).trans (Nat.sub_add_cancel h)

end

/-- Settles O32: each command's record of the node is read off, and a change of turn node goes through the break of its link. -/
theorem nodeSupervisionAndRegistersComplete : Obligations.NodeSupervisionAndRegistersComplete := by
  unfold Obligations.NodeSupervisionAndRegistersComplete
  exact ⟨fun t n s => missedFramePeriod_counts, fun t n s => nodeWatchdog_blocks, fun t n i uv s => nodeShortCircuit_latches uv,
    fun t n turn s k => turnNodeChange_breaks, fun t n a s => ⟨fun v => readRegister_answers, readRegister_refuses⟩,
    fun t n a v e s => writeRegister_writes, fun t n a v e s => writeRegister_refuses, fun t n e standing s => clearLatchedFaults_clears,
    fun t n d s => enumerateRequest_places d, fun t n a b s => delayMeasurement_latches⟩

end Sys2Proof.Machine
end

section
/-! Frames and edges of a node (R206, R207, R209, R212, R217): what a received frame leaves, which held frame is obeyed, and what an edge, a
sample and the turn node's own frame change. -/

namespace Sys2Proof.Machine

section
variable {t : Time} {n : NodeNo} {s : State}

/-! ### Control byte and received frames -/

theorem nodeControlByte_blocks {ctl : Byte} {e : Nat} (h : ctl.toNat.testBit 0 = true ∧ (s.node n).epoch ≤ e) :
    Completes (.nodeControlByte t n ctl e) s (fun u => u.node n = { s.node n with early := true, legs := 0, gates := [], edges := [] }) := by
  have hrun : (s.begin t).nodeControl n ctl.toNat e = (s.begin t).setNode n { (s.node n).off with early := true } :=
    if_pos (Bool.and_eq_true_iff.2 ⟨h.1, decide_eq_true h.2⟩)
  refine ⟨(s.begin t).nodeControl n ctl.toNat e, rfl, ?_⟩
  rw [hrun]
  exact State.node_setNode_same _ _ _

theorem nodeControlByte_passes {ctl : Byte} {e : Nat} (h : ctl.toNat.testBit 0 = false ∨ e < (s.node n).epoch) :
    Completes (.nodeControlByte t n ctl e) s (fun u => u.node n = s.node n) := by
  have hrun : (s.begin t).nodeControl n ctl.toNat e = s.begin t := by
    refine if_neg fun hgo => ?_
    obtain ⟨hb, he⟩ := Bool.and_eq_true_iff.1 hgo
    rcases h with h | h
    · simp [h] at hb
    · exact absurd (of_decide_eq_true he) (not_le.2 h)
  refine ⟨(s.begin t).nodeControl n ctl.toNat e, rfl, ?_⟩
  rw [hrun]
  rfl

/-- The lock test reads the time of a frame and touches neither epoch nor held frames nor the legs. -/
theorem NodeRec.lockTest_leaves (r : NodeRec) (a : Int) : (r.lockTest a).epoch = r.epoch ∧ (r.lockTest a).held = r.held ∧ (r.lockTest a).legs = r.legs ∧
    (r.lockTest a).pos = r.pos ∧ (r.lockTest a).resp = r.resp := by
  unfold NodeRec.lockTest
  split
  · exact ⟨rfl, rfl, rfl, rfl, rfl⟩
  · split <;> exact ⟨rfl, rfl, rfl, rfl, rfl⟩

theorem NodeRec.adopt_good (r : NodeRec) (e : Nat) : r.adopt true e = ({ r with epoch := max r.epoch e }, decide (1 ≤ e ∧ r.epoch ≤ e)) := by
  have h : (e == max r.epoch e) = decide (r.epoch ≤ e) := by
    rw [Bool.eq_iff_iff]
    simp
  simp [NodeRec.adopt, h, Bool.decide_and]

theorem NodeRec.adopt_bad (r : NodeRec) (e : Nat) : r.adopt false e = (r, false) := by simp [NodeRec.adopt]

/-- What a node makes of a received frame before it forwards it (R206, R209, R217). -/
def NodeRec.heard (r : NodeRec) (f : NodeFrame) (m : Time) : NodeRec :=
  let good := f.crcGood && !f.violation && !f.stomped
  let own := f.head.kind.toNat < 64
  let tf := Time.ns f.head.tf
  let (r, auth) := r.adopt (good && own) f.head.epoch
  let r := if auth then r.lockTest ((m : Int) - (tf + r.delay)) else r
  let ctl := ((f.controls[r.pos]?).getD 0).toNat
  if good && own then { r with held := r.held ++ [⟨tf, auth, ctl, f.edges⟩], link := f.head.link, count := f.head.count } else r

/-- A frame of a response that waits takes it along. -/
def NodeRec.answered (r : NodeRec) (f : NodeFrame) : NodeRec := if f.inward && f.head.respCode = 0 then { r with resp := r.resp.drop 1 } else r

/-- Whether a frame arrived good (R212). -/
def goodFrame (f : NodeFrame) : Bool := f.crcGood && !f.violation && !f.stomped

theorem State.nodeFrame_eq (k : Nat) (f : NodeFrame) (s : State) : s.nodeFrame k f =
    let r := (s.node k).heard f s.modTime
    let sent := r.forward f (s.rdN (lk (s.rdN (ndk k 1)) 2) == 1) (!goodFrame f)
    let x := (s.setNode k (r.answered f)).msg "NODE_FORWARD" [k, b2n (!goodFrame f)] sent
    if r.loops f then x.msg "LOOPED_FRAME" [k, f.head.tf] sent else x := rfl

/-- The node keeps what it heard, and has forwarded the frame. -/
theorem State.nodeFrame_keeps (k : Nat) (f : NodeFrame) (s : State) : (s.nodeFrame k f).node k = ((s.node k).heard f s.modTime).answered f ∧
    Output.msg "NODE_FORWARD" [k, b2n (!goodFrame f)] (((s.node k).heard f s.modTime).forward f (s.rdN (lk (s.rdN (ndk k 1)) 2) == 1) (!goodFrame f))
      ∈ (s.nodeFrame k f).out := by
  rw [State.nodeFrame_eq]
  extract_lets r sent x
  have hnode : x.node k = r.answered f := State.node_setNode_same _ _ _
  have hout : Output.msg "NODE_FORWARD" [k, b2n (!goodFrame f)] sent ∈ x.out := List.mem_append_right _ (List.mem_singleton_self _)
  split
  · exact ⟨hnode, List.mem_append_left _ hout⟩
  · exact ⟨hnode, hout⟩

theorem NodeRec.answered_leaves (r : NodeRec) (f : NodeFrame) : (r.answered f).epoch = r.epoch ∧ (r.answered f).held = r.held ∧
    (r.answered f).legs = r.legs := by
  unfold NodeRec.answered
  split <;> exact ⟨rfl, rfl, rfl⟩

/-- A good module frame is held, authoritative where its epoch is none below the node's. -/
theorem NodeRec.heard_good {r : NodeRec} {f : NodeFrame} (hgood : goodFrame f = true) (hown : f.head.kind.toNat < 64) (m : Time) :
    (r.heard f m).epoch = max r.epoch f.head.epoch ∧
    (r.heard f m).held = r.held ++ [⟨Time.ns f.head.tf, decide (1 ≤ f.head.epoch ∧ r.epoch ≤ f.head.epoch), ((f.controls[r.pos]?).getD 0).toNat, f.edges⟩] := by
  have hgood' : (f.crcGood && !f.violation && !f.stomped) = true := hgood
  unfold NodeRec.heard
  simp only [hgood', hown, decide_true, Bool.and_self, NodeRec.adopt_good, if_true]
  split
  · generalize hx : NodeRec.lockTest _ _ = x
    obtain ⟨he, hh, -, hp, -⟩ := hx ▸ NodeRec.lockTest_leaves _ _
    rw [he, hh, hp]
    exact ⟨rfl, rfl⟩
  · exact ⟨rfl, rfl⟩

/-- A bad frame leaves the node as it was. -/
theorem NodeRec.heard_bad {r : NodeRec} {f : NodeFrame} (hbad : goodFrame f = false) (m : Time) : r.heard f m = r := by
  have hbad' : (f.crcGood && !f.violation && !f.stomped) = false := hbad
  unfold NodeRec.heard
  simp only [hbad', Bool.false_and, NodeRec.adopt_bad, Bool.false_eq_true, if_false]

/-! ### Held frames (R203, R207, R217) -/

/-- Taking edges schedules them and counts the late ones; the rest of the node stays. -/
theorem NodeRec.takeEdges_eq (r : NodeRec) (m tf : Time) (l : List EdgeCmd) : r.takeEdges m tf l =
    { r with edges := (r.takeEdges m tf l).edges, late := r.late + (l.filter (fun e => e.pos == r.pos && (r.slots ≤ e.slot || tf + e.offset < m))).length } := by
  have hlate : l.filter (fun e => e.pos == r.pos && (r.slots ≤ e.slot || tf + e.offset < m)) =
      (l.filter (fun e => e.pos == r.pos)).filter (fun e => r.slots ≤ e.slot || tf + e.offset < m) := by
    rw [List.filter_filter]
    exact List.filter_congr fun e _ => Bool.and_comm _ _
  rw [hlate]
  rfl

theorem NodeRec.mem_takeEdges {r : NodeRec} {m tf : Time} {l : List EdgeCmd} {e : EdgeCmd} (he : e ∈ l) (hpos : e.pos = r.pos) (hslot : e.slot < r.slots)
    (hdue : m ≤ tf + e.offset) : (⟨tf + e.offset, e.slot, e.level, none⟩ : NodeEdge) ∈ (r.takeEdges m tf l).edges := by
  unfold NodeRec.takeEdges
  refine List.mem_append_right _ (List.mem_map.2 ⟨e, ?_, rfl⟩)
  simp [he, hpos, hslot, hdue]

/-- Gates that go off or come on start every slot at 0. -/
def NodeRec.released (was : Bool) (r : NodeRec) : NodeRec :=
  if was && !r.gatesOn then r.off else if r.gatesOn && !was then { r with legs := 0, gates := [] } else r

theorem NodeRec.released_eq (was : Bool) (r : NodeRec) : r.released was =
    { r with legs := if was = r.gatesOn then r.legs else 0, gates := (r.released was).gates, edges := (r.released was).edges } := by
  unfold NodeRec.released
  cases was <;> cases r.gatesOn <;> rfl

/-- An authoritative frame's control byte and release are in force, and the period is met. -/
def NodeRec.obeying (r : NodeRec) (m : Time) (f : HeldFrame) : NodeRec :=
  let r := { r with ctl := f.ctl, early := f.ctl.testBit 0, watchdog := r.watchdog && !(f.ctl.testBit 1 && !(f.ctl.testBit 0)) }
  { r with missRun := 0, lastTf := f.tf, edges := r.edges.filter (fun e => (e.repeats.map (fun w => decide (w < m))).getD true) }

theorem NodeRec.useFrame_obeyed {r : NodeRec} {f : HeldFrame} (hauth : f.auth = true) (m : Time) :
    r.useFrame m f = ((r.obeying m f).released r.gatesOn).takeEdges m f.tf f.edges := by
  unfold NodeRec.useFrame
  rw [if_neg (by simp [hauth])]
  rfl

/-- What the node holds after a frame that it obeys. -/
theorem NodeRec.obeyed_sets (r : NodeRec) (f : HeldFrame) (m : Time) {u : NodeRec}
    (hu : u = ((r.obeying m f).released r.gatesOn).takeEdges m f.tf f.edges) :
    u.held = r.held ∧ u.ctl = f.ctl ∧ u.early = f.ctl.testBit 0 ∧ u.missRun = 0 ∧ u.lastTf = f.tf ∧
    u.late = r.late + (f.edges.filter (fun e => e.pos == r.pos && (r.slots ≤ e.slot || f.tf + e.offset < m))).length ∧
    (∀ e ∈ f.edges, e.pos = r.pos → e.slot < r.slots → m ≤ f.tf + e.offset → (⟨f.tf + e.offset, e.slot, e.level, none⟩ : NodeEdge) ∈ u.edges) ∧
    u.legs = if r.gatesOn = u.gatesOn then r.legs else 0 := by
  have hy := NodeRec.released_eq r.gatesOn (r.obeying m f)
  generalize (r.obeying m f).released r.gatesOn = y at hy hu
  have hpos : y.pos = r.pos := (congrArg NodeRec.pos hy).trans rfl
  have hslots : y.slots = r.slots := (congrArg NodeRec.slots hy).trans rfl
  have hedges (e : EdgeCmd) (he : e ∈ f.edges) (hp : e.pos = r.pos) (hs : e.slot < r.slots) (hd : m ≤ f.tf + e.offset) :
      (⟨f.tf + e.offset, e.slot, e.level, none⟩ : NodeEdge) ∈ u.edges :=
    hu ▸ NodeRec.mem_takeEdges he (hp.trans hpos.symm) (hs.trans_eq hslots.symm) hd
  have hu' := hu.trans (NodeRec.takeEdges_eq y m f.tf f.edges)
  have hgates : u.gatesOn = (r.obeying m f).gatesOn := (congrArg NodeRec.gatesOn hu').trans ((congrArg NodeRec.gatesOn hy).trans rfl)
  refine ⟨?_, ?_, ?_, ?_, ?_, ?_, hedges, ?_⟩
  · exact (congrArg NodeRec.held hu').trans ((congrArg NodeRec.held hy).trans rfl)
  · exact (congrArg NodeRec.ctl hu').trans ((congrArg NodeRec.ctl hy).trans rfl)
  · exact (congrArg NodeRec.early hu').trans ((congrArg NodeRec.early hy).trans rfl)
  · exact (congrArg NodeRec.missRun hu').trans ((congrArg NodeRec.missRun hy).trans rfl)
  · exact (congrArg NodeRec.lastTf hu').trans ((congrArg NodeRec.lastTf hy).trans rfl)
  · rw [← hpos, ← hslots]
    exact (congrArg NodeRec.late hu').trans (congrArg (· + _) ((congrArg NodeRec.late hy).trans rfl))
  · rw [hgates]
    exact (congrArg NodeRec.legs hu').trans ((congrArg NodeRec.legs hy).trans rfl)

theorem NodeRec.useFrame_ignored {r : NodeRec} {f : HeldFrame} (hauth : f.auth = false) (m : Time) : r.useFrame m f = r := by
  unfold NodeRec.useFrame
  exact if_pos (by simp [hauth])

/-- The one held frame, usable now, is used. -/
theorem State.frameUsable_uses {k : Nat} {f : HeldFrame} (hheld : (s.node k).held = [f]) (hdue : f.tf + framePeriod + (s.node k).delay ≤ s.modTime) :
    (s.frameUsable k).node k = NodeRec.useFrame { s.node k with held := [] } s.modTime f := by
  unfold State.frameUsable
  extract_lets r m due r1
  have hdue' : due = [f] := by
    have h : f.tf + framePeriod + r.delay ≤ m := hdue
    simp [due, r, hheld]
    exact h
  have hlate : ¬m < f.tf + framePeriod + r.delay := not_lt.2 hdue
  have hr1 : r1 = { s.node k with held := [] } := by
    have hnil : r.held.filter (fun f => m < f.tf + framePeriod + r.delay) = [] := by
      have hr : r.held = [f] := hheld
      simp [hr, hlate]
    simp only [r1, hnil]
    rfl
  rw [State.node_setNode_same, hdue', hr1]
  rfl

theorem nodeFrameUsable_completes {f : HeldFrame} (hheld : (s.node n).held = [f]) (hdue : f.tf + framePeriod + (s.node n).delay ≤ (s.begin t).modTime) :
    Completes (.nodeFrameUsable t n) s (fun u => (u.node n).held = [] ∧
      (f.auth = true → (u.node n).ctl = f.ctl ∧ (u.node n).early = f.ctl.testBit 0 ∧ (u.node n).missRun = 0 ∧ (u.node n).lastTf = f.tf ∧
        (u.node n).late = (s.node n).late + (f.edges.filter (fun e => e.pos == (s.node n).pos &&
          ((s.node n).slots ≤ e.slot || f.tf + e.offset < (s.begin t).modTime))).length ∧
        (∀ e ∈ f.edges, e.pos = (s.node n).pos → e.slot < (s.node n).slots → (s.begin t).modTime ≤ f.tf + e.offset →
          (⟨f.tf + e.offset, e.slot, e.level, none⟩ : NodeEdge) ∈ (u.node n).edges) ∧
        (u.node n).legs = if (s.node n).gatesOn = (u.node n).gatesOn then (s.node n).legs else 0) ∧
      (f.auth = false → (u.node n).ctl = (s.node n).ctl ∧ (u.node n).edges = (s.node n).edges ∧ (u.node n).missRun = (s.node n).missRun)) := by
  refine ⟨(s.begin t).frameUsable n, rfl, ?_⟩
  beta_reduce
  obtain ⟨r, hr⟩ : ∃ r : NodeRec, { (s.begin t).node n with held := [] } = r := ⟨_, rfl⟩
  have huse : ((s.begin t).frameUsable n).node n = r.useFrame (s.begin t).modTime f := hr ▸ State.frameUsable_uses hheld hdue
  rw [huse]
  cases hauth : f.auth with
  | false =>
    rw [NodeRec.useFrame_ignored hauth, ← hr]
    exact ⟨rfl, nofun, fun _ => ⟨rfl, rfl, rfl⟩⟩
  | true =>
    rw [NodeRec.useFrame_obeyed hauth]
    generalize (s.begin t).modTime = m
    generalize hu : ((r.obeying m f).released r.gatesOn).takeEdges m f.tf f.edges = u
    obtain ⟨hheld, hctl, hearly, hmiss, htf, hlate, hedges, hlegs⟩ := NodeRec.obeyed_sets r f m hu.symm
    have hr' : r.held = [] ∧ r.late = (s.node n).late ∧ r.pos = (s.node n).pos ∧ r.slots = (s.node n).slots ∧ r.gatesOn = (s.node n).gatesOn ∧
        r.legs = (s.node n).legs := by
      rw [← hr]
      exact ⟨rfl, rfl, rfl, rfl, rfl, rfl⟩
    obtain ⟨h1, h2, h3, h4, h5, h6⟩ := hr'
    rw [h2, h3, h4] at hlate
    rw [h3, h4] at hedges
    rw [h5, h6] at hlegs
    exact ⟨hheld.trans h1, fun _ => ⟨hctl, hearly, hmiss, htf, hlate, hedges, hlegs⟩, nofun⟩

/-! ### Edges and samples (R209, R217) -/

theorem nodeEdge_changes {e : NodeEdge} (hdue : (s.node n).edges.filter (fun x => x.at_ ≤ (s.begin t).modTime) = [e]) :
    Completes (.nodeEdge t n) s (fun u => (u.node n).edges = (s.node n).edges.filter (fun x => (s.begin t).modTime < x.at_) ∧
      (u.node n).legs = if ((s.node n).shorts ||| (s.node n).undervolts ||| (s.node n).recharge).testBit e.slot || !(s.node n).gatesOn
        then (s.node n).legs else withBit (s.node n).legs e.slot e.level) := by
  refine ⟨(s.begin t).nodeEdge n, rfl, ?_⟩
  unfold State.nodeEdge
  extract_lets r m due bad r1
  beta_reduce
  rw [State.node_setNode_same]
  have hdue' : due = [e] := by
    have h : r.edges.filter (fun x => x.at_ ≤ m) = [e] := hdue
    simp [due, h]
  have hr1 : r1 = if bad.testBit e.slot || !r.gatesOn then r else r.change e := by
    simp only [r1, hdue', List.foldl_cons, List.foldl_nil]
  rw [hr1]
  have hgates : (bad.testBit e.slot || !r.gatesOn) = (((s.node n).shorts ||| (s.node n).undervolts ||| (s.node n).recharge).testBit e.slot || !(s.node n).gatesOn) := rfl
  rw [hgates]
  split
  · exact ⟨rfl, rfl⟩
  · exact ⟨rfl, rfl⟩

theorem NodeRec.hold_seq (r : NodeRec) (l : List Nat) (m : Time) : (r.hold l m).seq = r.seq := by
  unfold NodeRec.hold
  induction l generalizing r with
  | nil => rfl
  | cons i l ih =>
    rw [List.foldl_cons, ih]

theorem NodeRec.status_testBit (r : NodeRec) : r.status.testBit 2 = (r.under != 0) ∧ r.status.testBit 3 = r.hot ∧ r.status.testBit 4 = (r.below != 0) := by
  have hb (b : Bool) : b2n b ≤ 1 := by cases b <;> decide
  have h1 (b : Bool) : b = decide (b2n b = 1) := by cases b <;> rfl
  unfold NodeRec.status
  have b0 := hb (r.shorts != 0)
  have b1 := hb (r.undervolts != 0)
  have b2 := hb (r.under != 0)
  have b3 := hb r.hot
  have b4 := hb (r.below != 0)
  have e2 := h1 (r.under != 0)
  have e3 := h1 r.hot
  have e4 := h1 (r.below != 0)
  generalize b2n (r.shorts != 0) = c0 at *
  generalize b2n (r.undervolts != 0) = c1 at *
  generalize b2n (r.under != 0) = c2 at *
  generalize b2n r.hot = c3 at *
  generalize b2n (r.below != 0) = c4 at *
  rw [e2, e3, e4]
  simp only [Nat.testBit_eq_decide_div_mod_eq, decide_eq_decide]
  omega

theorem nodeSample_reads (v i temp : Code) (under below : BitVec 32) (hot : Bool) : Completes (.nodeSample t n v i ⟨temp, under, below, hot⟩) s (fun u =>
    (u.node n).volt = v.toInt ∧ (u.node n).cur = i.toInt ∧ (u.node n).temp = temp.toInt ∧ (u.node n).seq = ((s.node n).seq + 1) % 16 ∧
      (u.node n).status.testBit 2 = (under != 0) ∧ (u.node n).status.testBit 3 = hot ∧ (u.node n).status.testBit 4 = (below != 0)) := by
  refine ⟨(s.begin t).nodeSample n v.toInt i.toInt temp.toInt under.toNat below.toNat hot, rfl, ?_⟩
  unfold State.nodeSample
  extract_lets r fresh r1
  beta_reduce
  rw [State.node_setNode_same]
  have hseq : r1.seq = (s.node n).seq := NodeRec.hold_seq r fresh _
  have hbits := NodeRec.status_testBit { r1 with volt := v.toInt, cur := i.toInt, temp := temp.toInt, seq := (r1.seq + 1) % 16, under := under.toNat, below := below.toNat, hot := hot, recharge := (r1.recharge ||| under.toNat) &&& (under.toNat ||| below.toNat) }
  have hne (x : BitVec 32) : (x.toNat != 0) = (x != 0) := by
    rw [Bool.eq_iff_iff, bne_iff_ne, bne_iff_ne, ne_eq, ne_eq, BitVec.toNat_eq]
    rfl
  obtain ⟨h2, h3, h4⟩ := hbits
  exact ⟨rfl, rfl, rfl, by rw [← hseq], h2.trans (hne under), h3, h4.trans (hne below)⟩

theorem turnNodeFrame_departs (hturn : (s.node n).turn = true) (hlocked : (s.node n).locked = true) (hgrid : (s.begin t).modTime % framePeriod < 32) :
    Completes (.turnNodeFrame t n) s (fun u => (u.node n).fseq = ((s.node n).fseq + 1) % 65536 ∧ (u.node n).resp = (s.node n).resp.drop 1 ∧
      u.out = [.msg "TURN_FRAME" [n] (frameChars ((s.node n).turnHead (Time.toNs ((s.begin t).modTime / framePeriod * framePeriod))) []
        ((List.range (s.node n).count).flatMap (fun p => if p = (s.node n).pos then (s.node n).upSlot else leBytes 12 0)) [] false)]) := by
  refine ⟨(s.begin t).turnFrame n, rfl, ?_⟩
  unfold State.turnFrame
  extract_lets r tf slots
  have hgo : (r.turn && r.locked && decide ((s.begin t).modTime % framePeriod < 32)) = true := by
    have ht : r.turn = true := hturn
    have hl : r.locked = true := hlocked
    rw [ht, hl, decide_eq_true hgrid]
    rfl
  rw [if_pos hgo]
  have hnode (x : NodeRec) (o : List Byte) : (((s.begin t).setNode n x).msg "TURN_FRAME" [n] o).node n = x := State.node_setNode_same _ _ _
  beta_reduce
  rw [hnode]
  exact ⟨rfl, rfl, rfl⟩

/-! ### Received frames of either kind -/

theorem nodeFrameReceived_good {f : NodeFrame} (hcrc : f.crcGood = true) (hviol : f.violation = false) (hstomp : f.stomped = false)
    (hown : f.head.kind.toNat < 64) : Completes (.nodeFrameReceived t n f) s (fun u => (u.node n).epoch = max (s.node n).epoch f.head.epoch ∧
      (u.node n).held = (s.node n).held ++ [⟨Time.ns f.head.tf, decide (1 ≤ f.head.epoch ∧ (s.node n).epoch ≤ f.head.epoch),
        ((f.controls[(s.node n).pos]?).getD 0).toNat, f.edges⟩] ∧
      (f.inward = false → s.rdN (lk (s.rdN (ndk n 1)) 2) = 0 → Output.msg "NODE_FORWARD" [n, 0]
        (frameChars f.head f.controls ((List.zip (List.range 32) f.slots).flatMap (fun p => slotBytes p.2)) f.edges false) ∈ u.out)) := by
  refine ⟨(s.begin t).nodeFrame n f, rfl, ?_⟩
  have hgood : goodFrame f = true := by simp [goodFrame, hcrc, hviol, hstomp]
  obtain ⟨hnode, hout⟩ := State.nodeFrame_keeps n f (s.begin t)
  obtain ⟨hepoch, hheld⟩ := NodeRec.heard_good (r := s.node n) hgood hown (s.begin t).modTime
  have hr : ((s.begin t).node n).heard f (s.begin t).modTime = (s.node n).heard f (s.begin t).modTime := rfl
  rw [hr] at hnode hout
  generalize (s.node n).heard f (s.begin t).modTime = r at *
  obtain ⟨he, hh, -⟩ := r.answered_leaves f
  beta_reduce
  rw [hnode, he, hh]
  refine ⟨hepoch, hheld, fun hin hline => ?_⟩
  have hline' : ((s.begin t).rdN (lk ((s.begin t).rdN (ndk n 1)) 2) == 1) = false := beq_eq_false_iff_ne.2 fun h => absurd (hline.symm.trans h) (by decide)
  have hforward : r.forward f false false = frameChars f.head f.controls ((List.zip (List.range 32) f.slots).flatMap (fun p => slotBytes p.2)) f.edges false := by
    unfold NodeRec.forward
    simp only [hin, Bool.or_self, Bool.false_and, Bool.false_eq_true, if_false]
    cases r.resp <;> rfl
  rw [hline', hgood, Bool.not_true, hforward] at hout
  exact hout

theorem nodeFrameReceived_bad {f : NodeFrame} (h : f.crcGood = false ∨ f.violation = true ∨ f.stomped = true) :
    Completes (.nodeFrameReceived t n f) s (fun u => (u.node n).epoch = (s.node n).epoch ∧ (u.node n).held = (s.node n).held ∧
      (u.node n).legs = (s.node n).legs ∧
      Output.msg "NODE_FORWARD" [n, 1] ((s.node n).forward f (s.rdN (lk (s.rdN (ndk n 1)) 2) == 1) true) ∈ u.out) := by
  refine ⟨(s.begin t).nodeFrame n f, rfl, ?_⟩
  have hbad : goodFrame f = false := by
    unfold goodFrame
    rcases h with h | h | h <;> simp [h]
  obtain ⟨hnode, hout⟩ := State.nodeFrame_keeps n f (s.begin t)
  rw [NodeRec.heard_bad hbad, hbad] at hout
  rw [NodeRec.heard_bad hbad] at hnode
  obtain ⟨he, hh, hl⟩ := ((s.begin t).node n).answered_leaves f
  beta_reduce
  rw [hnode, he, hh, hl]
  exact ⟨rfl, rfl, rfl, hout⟩

end

/-- Settles O31: a frame is heard, then forwarded; a held one is obeyed through its release and its edges. -/
theorem nodeFramesAndEdgesComplete : Obligations.NodeFramesAndEdgesComplete := by
  unfold Obligations.NodeFramesAndEdgesComplete
  exact ⟨fun t n id s => ⟨_, rfl, State.node_setNode_same _ _ _⟩, fun t n ctl e s => ⟨nodeControlByte_blocks, nodeControlByte_passes⟩,
    fun t n f s => ⟨nodeFrameReceived_good, nodeFrameReceived_bad⟩, fun t n s f => nodeFrameUsable_completes, fun t n s e => nodeEdge_changes,
    fun t n v i temp under below hot s => nodeSample_reads v i temp under below hot, fun t n s => turnNodeFrame_departs⟩

end Sys2Proof.Machine
end

section
/-! Settles O29 (ChainCommandsComplete; R31, R35, R37, R40, R41, R43, R45): the commands of the measurement chains. What a step between the
fast taps leaves of the chains' entries and of their pending samples; what loss and lost tracking leave; then command by command. -/

namespace Sys2Proof.Machine

/-! ### What a step leaves of the chains -/

theorem ownDefault_ck (c a : Nat) : OwnDefault (ck c a) := .inr (.inl (by simp only [ck, key]; omega))

theorem ck_ne {c d a b : Nat} (ha : a < 256) (hb : b < 256) (h : c = d → a ≠ b) : ck c a ≠ ck d b := by
  simp only [ck, key]
  omega

theorem zone_ck {c a : Nat} (hc : c < 80) (ha : a < 256) : zone (ck c a) = 53 := by
  refine zone_between (lo := key 0x5000 0) (hi := key 0x507F 0) (by decide) (by decide) ?_ ?_
  all_goals
    simp only [ck, key]
    omega

/-- The entries of the chains outside the subindices of w, and their bits, filters and samples on the way to the fast tap, stay. -/
structure ChainsKept (w : List Nat) (s u : State) : Prop where
  entries : ∀ c < 80, ∀ a < 256, a ∉ w → Tbl.find? (ck c a) u.od = Tbl.find? (ck c a) s.od
  held : ∀ c, (u.chainRec c).held = (s.chainRec c).held
  tapNo : ∀ c, (u.chainRec c).tapNo = (s.chainRec c).tapNo
  bits : ∀ c, (u.chainRec c).bits = (s.chainRec c).bits
  fir : ∀ c, (u.chainRec c).fir = (s.chainRec c).fir

namespace ChainsKept

variable {w : List Nat} {s u v : State}

theorem refl (s : State) : ChainsKept w s s := ⟨fun _ _ _ _ _ => rfl, fun _ => rfl, fun _ => rfl, fun _ => rfl, fun _ => rfl⟩

theorem trans (h : ChainsKept w s u) (g : ChainsKept w u v) : ChainsKept w s v :=
  ⟨fun c hc a ha hw => (g.entries c hc a ha hw).trans (h.entries c hc a ha hw), fun c => (g.held c).trans (h.held c),
    fun c => (g.tapNo c).trans (h.tapNo c), fun c => (g.bits c).trans (h.bits c), fun c => (g.fir c).trans (h.fir c)⟩

theorem mono {w' : List Nat} (h : ChainsKept w s u) (hw : w ⊆ w') : ChainsKept w' s u :=
  ⟨fun c hc a ha ha' => h.entries c hc a ha fun hin => ha' (hw hin), h.held, h.tapNo, h.bits, h.fir⟩

theorem of_ite {p : Prop} [Decidable p] (h : ChainsKept w s u) (g : ChainsKept w s v) : ChainsKept w s (if p then u else v) := by
  split
  · exact h
  · exact g

theorem each {α : Type} {l : List α} {f : α → State → State} (h : ∀ a ∈ l, ∀ t, ChainsKept w t (f a t)) (s : State) : ChainsKept w s (s.each l f) :=
  State.each_keeps (P := ChainsKept w s) (fun a ha t ht => ht.trans (h a ha t)) (refl s)

theorem rd (h : ChainsKept w s u) {c a : Nat} (hc : c < 80) (ha : a < 256) (hw : a ∉ w) : u.rd (ck c a) = s.rd (ck c a) :=
  State.rd_congr (ownDefault_ck c a) (h.entries c hc a ha hw)

theorem rdN (h : ChainsKept w s u) {c a : Nat} (hc : c < 80) (ha : a < 256) (hw : a ∉ w) : u.rdN (ck c a) = s.rdN (ck c a) :=
  congrArg Int.toNat (h.rd hc ha hw)

/-- A step that touches neither the chains' records nor their entries. -/
theorem of_entries (hm : u.meas.chains = s.meas.chains) (h : ∀ c < 80, ∀ a < 256, a ∉ w → Tbl.find? (ck c a) u.od = Tbl.find? (ck c a) s.od) :
    ChainsKept w s u := by
  have hr (c : Nat) : u.chainRec c = s.chainRec c := congrArg (Tbl.get ({} : ChainRec) c) hm
  exact ⟨h, fun c => congrArg ChainRec.held (hr c), fun c => congrArg ChainRec.tapNo (hr c), fun c => congrArg ChainRec.bits (hr c),
    fun c => congrArg ChainRec.fir (hr c)⟩

theorem of_eq (hm : u.meas.chains = s.meas.chains) (h : u.od = s.od) : ChainsKept w s u :=
  of_entries hm fun _ _ _ _ _ => by rw [h]

theorem of_kept {m : Nat} (h : Kept m s u) (hm : m.testBit 7 = false) (hz : m.testBit (20 + 53) = false) : ChainsKept w s u :=
  of_entries (congrArg Meas.chains (h.measSame hm)) fun _ hc _ ha _ => h.find?_eq (zone_ck hc ha) hz

theorem wr {c a : Nat} (ha : a < 256) (hw : a ∈ w) (v : Int) (s : State) : ChainsKept w s (s.wr (ck c a) v) :=
  of_entries rfl fun _ _ _ hb hb' => State.find?_wr_ne (ck_ne hb ha fun _ hab => hb' (hab ▸ hw)) s v

theorem setBit {c a : Nat} (ha : a < 256) (hw : a ∈ w) (i : Nat) (v : Bool) (s : State) : ChainsKept w s (s.setBit (ck c a) i v) := wr ha hw _ s

/-- An entry of another object is written. -/
theorem wr_other {k : Nat} (hk : ∀ c < 80, ∀ a < 256, ck c a ≠ k) (v : Int) (s : State) : ChainsKept w s (s.wr k v) :=
  of_entries rfl fun c hc a ha _ => State.find?_wr_ne (hk c hc a ha) s v

theorem setChain {c : Nat} {r : ChainRec} {s : State} (hh : r.held = (s.chainRec c).held) (ht : r.tapNo = (s.chainRec c).tapNo)
    (hb : r.bits = (s.chainRec c).bits) (hf : r.fir = (s.chainRec c).fir) : ChainsKept w s (s.setChain c r) := by
  have hrec (d : Nat) : (s.setChain c r).chainRec d = if d = c then r else s.chainRec d := by
    split
    case isTrue h => rw [h, State.chainRec_setChain_same]
    case isFalse h => exact State.chainRec_setChain_other c r s h
  refine ⟨fun _ _ _ _ _ => rfl, fun d => ?_, fun d => ?_, fun d => ?_, fun d => ?_⟩
  all_goals
    rw [hrec]
    split
    case isTrue h => subst h; assumption
    case isFalse => rfl

end ChainsKept

/-! ### Tracking and its loss (R40, R46) -/

/-- Only the tracked frequency and bit 3 of the status of the chains change; of the records, none. -/
structure FollowKept (s u : State) : Prop where
  chains : u.meas.chains = s.meas.chains
  entries : ∀ c < 80, ∀ a < 256, a ∉ [0xE, 0x18] → Tbl.find? (ck c a) u.od = Tbl.find? (ck c a) s.od
  status : ∀ c < 80, ∀ i, i ≠ 3 → u.bit (ck c 0x18) i = s.bit (ck c 0x18) i

namespace FollowKept

variable {s u v : State}

theorem refl (s : State) : FollowKept s s := ⟨rfl, fun _ _ _ _ _ => rfl, fun _ _ _ _ => rfl⟩

theorem trans (h : FollowKept s u) (g : FollowKept u v) : FollowKept s v :=
  ⟨g.chains.trans h.chains, fun c hc a ha hw => (g.entries c hc a ha hw).trans (h.entries c hc a ha hw),
    fun c hc i hi => (g.status c hc i hi).trans (h.status c hc i hi)⟩

theorem each {α : Type} {l : List α} {f : α → State → State} (h : ∀ a ∈ l, ∀ t, FollowKept t (f a t)) (s : State) : FollowKept s (s.each l f) :=
  State.each_keeps (P := FollowKept s) (fun a ha t ht => ht.trans (h a ha t)) (refl s)

theorem of_entries (hm : u.meas.chains = s.meas.chains) (h : ∀ c < 80, ∀ a < 256, Tbl.find? (ck c a) u.od = Tbl.find? (ck c a) s.od) : FollowKept s u :=
  ⟨hm, fun c hc a ha _ => h c hc a ha, fun c hc i _ =>
    congrArg (fun x : Int => x.toNat.testBit i) (State.rd_congr (ownDefault_ck c 0x18) (h c hc 0x18 (by decide)))⟩

theorem of_kept {m : Nat} (h : Kept m s u) (hm : m.testBit 7 = false) (hz : m.testBit (20 + 53) = false) : FollowKept s u :=
  of_entries (congrArg Meas.chains (h.measSame hm)) fun _ hc _ ha => h.find?_eq (zone_ck hc ha) hz

theorem kept (h : FollowKept s u) : ChainsKept [0xE, 0x18] s u := ChainsKept.of_entries h.chains h.entries

theorem chainRec (h : FollowKept s u) (c : Nat) : u.chainRec c = s.chainRec c := congrArg (Tbl.get ({} : ChainRec) c) h.chains

end FollowKept

theorem sfdKey_ne {d b : Nat} (hd : d < 64) (hb : b < 256) : ∀ c < 80, ∀ a < 256, ck c a ≠ key (0x5100 + d) b := by
  intro c hc a ha
  simp only [ck, key]
  omega

theorem State.sfdsOn_lt {c d : Nat} {s : State} (h : d ∈ s.sfdsOn c) : d < 64 := List.mem_range.1 (List.mem_filter.1 h).1

theorem State.followers_lt {k c : Nat} {s : State} (h : c ∈ s.followers k) : c < 80 := List.mem_range.1 (List.mem_filter.1 h).1

theorem State.loseHarmonics_leaves (c : Nat) (s : State) : (s.loseHarmonics c).meas.chains = s.meas.chains ∧
    ∀ e < 80, ∀ a < 256, Tbl.find? (ck e a) (s.loseHarmonics c).od = Tbl.find? (ck e a) s.od := by
  refine ⟨State.each_eq (fun u => u.meas.chains) (by intros; rfl) s, fun e he a ha => State.find?_each (fun d hd t => ?_) s⟩
  exact State.find?_wr_ne (sfdKey_ne (State.sfdsOn_lt (List.mem_filter.1 hd).1) (by decide) e he a ha) _ _

theorem State.loseHarmonics_follows (c : Nat) (s : State) : FollowKept s (s.loseHarmonics c) :=
  FollowKept.of_entries (s.loseHarmonics_leaves c).1 (s.loseHarmonics_leaves c).2

theorem State.syncFollow_follows (c : Nat) (s : State) : FollowKept s (s.syncFollow c) := by
  have hshown : FollowKept s ((s.wr (ck c 0xE) (roundRat (s.fOf c * 1000))).setBit (ck c 0x18) 3 (s.trackLost c)) := by
    refine ⟨rfl, fun d _ a ha hw => ?_, fun d _ i hi => ?_⟩
    · have h1 : a ≠ 0xE ∧ a ≠ 0x18 := by simpa using hw
      exact (State.find?_setBit_ne (ck_ne ha (by decide) fun _ => h1.2) _ _ _).trans (State.find?_wr_ne (ck_ne ha (by decide) fun _ => h1.1) s _)
    · have hfreq (t : State) (v : Int) : (t.wr (ck c 0xE) v).bit (ck d 0x18) i = t.bit (ck d 0x18) i :=
        State.bit_wr_ne (ck_ne (by decide) (by decide) fun _ => by decide) (ownDefault_ck d _) ..
      by_cases hd : d = c
      · subst hd
        rw [State.bit_setBit_other hi, hfreq]
      · exact (State.bit_wr_ne (ck_ne (by decide) (by decide) fun h => absurd h hd) (ownDefault_ck d _) ..).trans (hfreq s _)
  have hlost (t : State) : FollowKept t (if t.trackLost c then t.loseHarmonics c else t) := by
    split
    · exact State.loseHarmonics_follows c t
    · exact FollowKept.refl t
  exact hshown.trans (hlost _)

theorem State.syncTracker_follows (k : Nat) (s : State) : FollowKept s (s.syncTracker k) :=
  FollowKept.each (fun c _ t => State.syncFollow_follows c t) s

theorem State.maskTracker_follows (k : Nat) (tm : Time) (s : State) : FollowKept s (s.maskTracker k tm) :=
  FollowKept.of_kept (State.maskTracker_kept (Sub.refl _) (Kept.refl _ s)) (by decide) (by decide)

/-- The record of a tracker that has lost tracking. -/
def ChainRec.untracked (r : ChainRec) : ChainRec := { r with tr := { r.tr with lost := true, run := 0, periods := [] } }

theorem State.loseTrack_follows (k : Nat) (s : State) : FollowKept (s.setChain k (s.chainRec k).untracked) (s.loseTrack k) :=
  (State.syncTracker_follows k _).trans (State.maskTracker_follows k 0 _)

theorem State.loseTrack_lost (k : Nat) (s : State) : ((s.loseTrack k).chainRec k) = (s.chainRec k).untracked :=
  ((State.loseTrack_follows k s).chainRec k).trans (State.chainRec_setChain_same k _ s)

theorem State.loseTrack_keeps (k : Nat) (s : State) : ChainsKept [0xE, 0x18] s (s.loseTrack k) :=
  (ChainsKept.setChain (r := (s.chainRec k).untracked) rfl rfl rfl rfl).trans (State.loseTrack_follows k s).kept

theorem State.loseTrack_status (k : Nat) {c : Nat} (hc : c < 80) {i : Nat} (hi : i ≠ 3) (s : State) : (s.loseTrack k).bit (ck c 0x18) i = s.bit (ck c 0x18) i :=
  (State.loseTrack_follows k s).status c hc i hi

/-! ### Loss (R43, R45) -/

/-- The subindices that a loss may change. -/
abbrev lossSubs : List Nat := [0xE, 0x18, 0x1D, 0x1E, 0x1F, 0x20, 0x21]

theorem State.restartDetectors_keeps (c : Nat) (s : State) : ChainsKept [0x1D, 0x1E, 0x1F, 0x20] s (s.restartDetectors c) := by
  unfold State.restartDetectors
  extract_lets s₁ s₂
  have h₁ : ChainsKept [0x1D, 0x1E, 0x1F, 0x20] s s₁ := ChainsKept.setChain (r := { s.chainRec c with rmsWin := [], detNo := 0 }) rfl rfl rfl rfl
  have h₂ : ChainsKept [0x1D, 0x1E, 0x1F, 0x20] s₁ s₂ :=
    ((ChainsKept.wr (by decide) (by decide) _ _).trans (ChainsKept.wr (by decide) (by decide) _ _)).trans (ChainsKept.wr (by decide) (by decide) _ _)
  exact (h₁.trans h₂).trans (ChainsKept.wr (by decide) (by decide) _ _)

theorem State.rd_restartDetectors {c a : Nat} (ha : a ∈ [0x1D, 0x1E, 0x1F, 0x20]) (s : State) : (s.restartDetectors c).rd (ck c a) = 0 := by
  have hne (b : Nat) (hb : b ≠ a) (ha' : a < 256) (hb' : b < 256) (v : Int) (t : State) : (t.wr (ck c b) v).rd (ck c a) = t.rd (ck c a) :=
    State.rd_wr_ne (ck_ne ha' hb' fun _ => hb.symm) (ownDefault_ck c a) v t
  unfold State.restartDetectors
  simp only [List.mem_cons, List.not_mem_nil, or_false] at ha
  rcases ha with rfl | rfl | rfl | rfl
  · rw [hne 0x20 (by decide) (by decide) (by decide), hne 0x1F (by decide) (by decide) (by decide), hne 0x1E (by decide) (by decide) (by decide), State.rd_wr_same]
  · rw [hne 0x20 (by decide) (by decide) (by decide), hne 0x1F (by decide) (by decide) (by decide), State.rd_wr_same]
  · rw [hne 0x20 (by decide) (by decide) (by decide), State.rd_wr_same]
  · rw [State.rd_wr_same]

/-- The state in which a loss that sets has been counted and the detectors have restarted. -/
def State.lossCounted (c : Nat) (s : State) : State :=
  let s := { s with meas := { s.meas with clean := s.meas.clean.filter (fun e => e.1 % 128 ≠ c) } }
  (s.wr (ck c 0x21) (((s.rdN (ck c 0x21) / 65536 + 1) % 65536) * 65536 + s.rdN (ck c 0x21) % 65536 : Nat)).restartDetectors c

theorem State.syncLoss_eq (c : Nat) (s : State) : s.syncLoss c =
    if s.lossNow c && !s.bit (ck c 0x18) 0 then ((s.setBit (ck c 0x18) 0 (s.lossNow c)).lossCounted c).loseTrack c
    else s.setBit (ck c 0x18) 0 (s.lossNow c) := rfl

theorem State.lossCounted_keeps (c : Nat) (s : State) : ChainsKept [0x1D, 0x1E, 0x1F, 0x20, 0x21] s (s.lossCounted c) := by
  unfold State.lossCounted
  extract_lets m s₁
  have hclean : ChainsKept [0x1D, 0x1E, 0x1F, 0x20, 0x21] s s₁ := ChainsKept.of_eq rfl rfl
  exact (hclean.trans (ChainsKept.wr (by decide) (by decide) _ _)).trans ((State.restartDetectors_keeps c _).mono (by decide))

theorem State.syncLoss_keeps (c : Nat) (s : State) : ChainsKept lossSubs s (s.syncLoss c) := by
  rw [State.syncLoss_eq]
  have hbit : ChainsKept lossSubs s (s.setBit (ck c 0x18) 0 (s.lossNow c)) := ChainsKept.setBit (by decide) (by decide) ..
  refine ChainsKept.of_ite ?_ hbit
  exact (hbit.trans ((State.lossCounted_keeps c _).mono (by decide))).trans ((State.loseTrack_keeps c _).mono (by decide))

theorem State.syncLoss_status {c : Nat} (hc : c < 80) {i : Nat} (h0 : i ≠ 0) (h3 : i ≠ 3) (s : State) : (s.syncLoss c).bit (ck c 0x18) i = s.bit (ck c 0x18) i := by
  rw [State.syncLoss_eq]
  refine State.same_ite (fun u => u.bit (ck c 0x18) i) ?_ (State.bit_setBit_other h0 ..)
  calc _ = ((s.setBit (ck c 0x18) 0 (s.lossNow c)).lossCounted c).bit (ck c 0x18) i := State.loseTrack_status c hc h3 _
    _ = (s.setBit (ck c 0x18) 0 (s.lossNow c)).bit (ck c 0x18) i :=
      congrArg (Nat.testBit · i) ((State.lossCounted_keeps c _).rdN hc (by decide) (by decide))
    _ = s.bit (ck c 0x18) i := State.bit_setBit_other h0 ..

/-- A loss that shows: its bit stands, and where it sets it is counted and tracking is lost. -/
theorem State.syncLoss_shows {c : Nat} (hc : c < 80) {s : State} (hnow : s.lossNow c = true) : (s.syncLoss c).bit (ck c 0x18) 0 = true ∧
    (s.bit (ck c 0x18) 0 = false → ((s.syncLoss c).chainRec c).tr.lost = true ∧
      (s.syncLoss c).rdN (ck c 0x21) / 65536 = (s.rdN (ck c 0x21) / 65536 + 1) % 65536) := by
  rw [State.syncLoss_eq, hnow]
  cases hwas : s.bit (ck c 0x18) 0 with
  | true => exact ⟨State.bit_setBit_same .., nofun⟩
  | false =>
    rw [if_pos (show (true && !false) = true from rfl)]
    generalize hs₁ : s.setBit (ck c 0x18) 0 true = s₁
    have hbit : s₁.bit (ck c 0x18) 0 = true := by rw [← hs₁, State.bit_setBit_same]
    have hcount : s₁.rdN (ck c 0x21) = s.rdN (ck c 0x21) := by
      rw [← hs₁]
      exact State.rdN_setBit_ne (ck_ne (by decide) (by decide) fun _ => by decide) (ownDefault_ck c _) ..
    refine ⟨?_, fun _ => ⟨congrArg (fun r => r.tr.lost) (State.loseTrack_lost c _), ?_⟩⟩
    · rw [State.loseTrack_status c hc (by decide)]
      exact (congrArg (Nat.testBit · 0) ((State.lossCounted_keeps c s₁).rdN hc (by decide) (by decide))).trans hbit
    · rw [(State.loseTrack_keeps c _).rdN hc (by decide) (by decide), ← hcount]
      unfold State.lossCounted
      extract_lets m s₂
      rw [(State.restartDetectors_keeps c _).rdN hc (by decide) (by decide), State.rdN_wr_same, Int.toNat_natCast]
      have hsame : s₂.rdN (ck c 0x21) = s₁.rdN (ck c 0x21) := rfl
      rw [hsame]
      omega


/-! ### A sigma-delta stream is lost (R31, R45) -/

section
variable {t : Time} {c : ChainNo} {s : State}

/-- The loss of a stream is marked with its status bit, and reported. -/
theorem State.streamLoss_shows (hsd : 48 ≤ c.val) {r : ChainRec} (hr : r.lossSet = true) {i : Nat} (h0 : i ≠ 0) (h3 : i ≠ 3) (s : State) :
    (((s.setChain c r).setBit (ck c 0x18) i true).syncLoss c).bit (ck c 0x18) i = true ∧
    (((s.setChain c r).setBit (ck c 0x18) i true).syncLoss c).bit (ck c 0x18) 0 = true ∧
    (s.bit (ck c 0x18) 0 = false → ((((s.setChain c r).setBit (ck c 0x18) i true).syncLoss c).chainRec c).tr.lost = true ∧
      (((s.setChain c r).setBit (ck c 0x18) i true).syncLoss c).rdN (ck c 0x21) / 65536 = (s.rdN (ck c 0x21) / 65536 + 1) % 65536) := by
  generalize hs₁ : (s.setChain c r).setBit (ck c 0x18) i true = s₁
  have hrec : s₁.chainRec c = r := by
    rw [← hs₁]
    exact State.chainRec_setChain_same c r s
  have hnow : s₁.lossNow c = true := by
    unfold State.lossNow
    rw [if_pos (by simpa [isSd] using hsd), hrec, hr]
  have hi : s₁.bit (ck c 0x18) i = true := by rw [← hs₁, State.bit_setBit_same]
  have hwas : s₁.bit (ck c 0x18) 0 = s.bit (ck c 0x18) 0 := by
    rw [← hs₁, State.bit_setBit_other (Ne.symm h0)]
    rfl
  have hcount : s₁.rdN (ck c 0x21) = s.rdN (ck c 0x21) := by
    rw [← hs₁]
    exact State.rdN_setBit_ne (ck_ne (by decide) (by decide) fun _ => by decide) (ownDefault_ck c _) ..
  have hshows := State.syncLoss_shows c.isLt hnow
  rw [hwas, hcount] at hshows
  exact ⟨(State.syncLoss_status c.isLt h0 h3 s₁).trans hi, hshows⟩

/-- What the loss of chain c's stream shows from s to u, with status bit i. -/
def LossShown (c i : Nat) (s u : State) : Prop := u.bit (ck c 0x18) i = true ∧ u.bit (ck c 0x18) 0 = true ∧
  (s.bit (ck c 0x18) 0 = false → (u.chainRec c).tr.lost = true ∧ u.rdN (ck c 0x21) / 65536 = (s.rdN (ck c 0x21) / 65536 + 1) % 65536)

theorem State.stuck_shows (hsd : 48 ≤ c.val) (s : State) : LossShown c 6 s (s.stuck c true) :=
  State.streamLoss_shows (r := { s.chainRec c with lossSet := true }) hsd rfl (by decide) (by decide) s

theorem State.sdLoss_absent (hsd : isSd c = true) (s : State) :
    s.sdLoss c true = ((s.setChain c { s.chainRec c with lossSet := true }).setBit (ck c 0x18) 5 true).syncLoss c := by
  unfold State.sdLoss
  exact (if_neg (by simp [hsd])).trans (if_pos rfl)

theorem State.sdLoss_equal (hsd : isSd c = true) {s : State} (hrun : 256 ≤ (s.chainRec c).eqRun) :
    s.sdLoss c false = (s.setChain c { s.chainRec c with eqRun := max 256 (s.chainRec c).eqRun }).stuck c true := by
  unfold State.sdLoss
  exact (if_neg (by simp [hsd])).trans ((if_neg (by decide)).trans (if_pos (Nat.le_add_right_of_le hrun)))

theorem State.sdLoss_shows {absent : Bool} (hsd : 48 ≤ c.val) {s : State} (hloss : absent = true ∨ 256 ≤ (s.chainRec c).eqRun) :
    LossShown c (if absent then 5 else 6) s (s.sdLoss c absent) := by
  have hsd' : isSd c = true := by simpa [isSd] using hsd
  cases absent with
  | true =>
    rw [State.sdLoss_absent hsd']
    exact State.streamLoss_shows (r := { s.chainRec c with lossSet := true }) hsd rfl (by decide) (by decide) s
  | false =>
    rw [State.sdLoss_equal hsd' (hloss.resolve_left (by decide))]
    generalize ({ s.chainRec c with eqRun := max 256 (s.chainRec c).eqRun } : ChainRec) = r
    exact State.stuck_shows hsd (s.setChain c r)

theorem sigmaDeltaLoss_shows {absent : Bool} (hsd : 48 ≤ c.val) (hloss : absent = true ∨ 256 ≤ (s.chainRec c).eqRun) :
    Completes (.sigmaDeltaLoss t c absent) s (LossShown c (if absent then 5 else 6) s) :=
  ⟨(s.begin t).sdLoss c absent, rfl, State.sdLoss_shows (s := s.begin t) hsd hloss⟩

/-! ### No accepted period for 44.4 ms (R40) -/

theorem roundRat_natCast (n : Nat) : roundRat ((n : Nat) : Rat) = n := by
  unfold roundRat
  simp

/-- The entries of another chain stay through the report of a tracker. -/
theorem State.rd_syncFollow_ne {d e : Nat} (hde : d ≠ e) (hd : d < 80) {a : Nat} (ha : a < 256) (s : State) : (s.syncFollow e).rd (ck d a) = s.rd (ck d a) := by
  unfold State.syncFollow
  extract_lets s₁
  have h₁ : s₁.rd (ck d a) = s.rd (ck d a) :=
    (State.rd_setBit_ne (ck_ne ha (by decide) fun h => absurd h hde) (ownDefault_ck d a) _ _ _).trans
      (State.rd_wr_ne (ck_ne ha (by decide) fun h => absurd h hde) (ownDefault_ck d a) _ s)
  refine State.same_ite (fun u => u.rd (ck d a)) (Eq.trans ?_ h₁) h₁ |>.trans rfl
  exact State.rd_congr (ownDefault_ck d a) ((s₁.loseHarmonics_leaves e).2 d hd a ha)

theorem State.syncFollow_lost {d : Nat} (hd : d < 80) {s : State} (hf : s.rdN (ck d 0xC) = d) (hlost : (s.chainRec d).tr.lost = true) :
    (s.syncFollow d).bit (ck d 0x18) 3 = true ∧ (s.syncFollow d).rdN (ck d 0xE) = 1000 * s.rdN (ck d 0xD) := by
  have htrack : ∀ u : State, u.rdN (ck d 0xC) = d → (u.chainRec d).tr.lost = true → u.trackLost d = true := by
    intro u hu hl
    have hu' : u.rdN (key (0x5000 + d) 0xC) = d := hu
    unfold State.trackLost State.trackerLost
    simp [hu', hd, hl]
  have hfreq : roundRat (s.fOf d * 1000) = (1000 * s.rdN (ck d 0xD) : Nat) := by
    have hfollow : s.follows d = some d := by simp [State.follows, hf, hd]
    have hest : s.fEst d = ((s.rdN (ck d 0xD) : Nat) : Rat) := by
      unfold State.fEst
      simp [hlost]
    have hof : s.fOf d = ((s.rdN (ck d 0xD) : Nat) : Rat) := by
      rw [State.fOf, hfollow]
      exact hest
    rw [hof, ← roundRat_natCast]
    congr 1
    push_cast
    ring
  unfold State.syncFollow
  rw [hfreq, htrack s hf hlost]
  extract_lets s₁
  have h₁ : s₁.bit (ck d 0x18) 3 = true ∧ s₁.rdN (ck d 0xE) = 1000 * s.rdN (ck d 0xD) := by
    refine ⟨State.bit_setBit_same .., ?_⟩
    exact (State.rdN_setBit_ne (ck_ne (by decide) (by decide) fun _ => by decide) (ownDefault_ck d _) ..).trans (State.rdN_wr_same ..)
  have hharm (a : Nat) (ha : a < 256) : (s₁.loseHarmonics d).rd (ck d a) = s₁.rd (ck d a) :=
    State.rd_congr (ownDefault_ck d a) ((s₁.loseHarmonics_leaves d).2 d hd a ha)
  obtain ⟨hbit, hshown⟩ := h₁
  split
  · exact ⟨(congrArg (fun x : Int => x.toNat.testBit 3) (hharm 0x18 (by decide))).trans hbit,
      (congrArg Int.toNat (hharm 0xE (by decide))).trans hshown⟩
  · exact ⟨hbit, hshown⟩

/-- From s on only what the followers report has changed, and chain d reports tracking lost at frequency f. -/
structure LostShown (d f : Nat) (s u : State) : Prop where
  kept : FollowKept s u
  bit : u.bit (ck d 0x18) 3 = true
  freq : u.rdN (ck d 0xE) = f

/-- Tracking lost shows on a chain that follows its own tracker. -/
theorem State.loseTrack_shows {d : Nat} (hd : d < 80) {s : State} (hf : s.rdN (ck d 0xC) = d) :
    (s.loseTrack d).bit (ck d 0x18) 3 = true ∧ (s.loseTrack d).rdN (ck d 0xE) = 1000 * s.rdN (ck d 0xD) := by
  obtain ⟨s₁, hs₁⟩ : ∃ s₁, s₁ = s.setChain d (s.chainRec d).untracked := ⟨_, rfl⟩
  have hlost : (s₁.chainRec d).tr.lost = true := by
    rw [hs₁, State.chainRec_setChain_same]
    rfl
  have hsame (a : Nat) : s₁.rdN (ck d a) = s.rdN (ck d a) := by
    rw [hs₁]
    rfl
  have hmine (u : State) (hu : FollowKept s₁ u) : LostShown d (1000 * s.rdN (ck d 0xD)) s₁ (u.syncFollow d) := by
    have hrd (a : Nat) (ha : a < 256) (hw : a ∉ [0xE, 0x18]) : u.rdN (ck d a) = s.rdN (ck d a) := (hu.kept.rdN hd ha hw).trans (hsame a)
    have h := State.syncFollow_lost hd ((hrd 0xC (by decide) (by decide)).trans hf) (by rw [hu.chainRec, hlost])
    rw [hrd 0xD (by decide) (by decide)] at h
    exact ⟨hu.trans (State.syncFollow_follows d u), h.1, h.2⟩
  have hothers (e : Nat) (u : State) (hu : LostShown d (1000 * s.rdN (ck d 0xD)) s₁ u) : LostShown d (1000 * s.rdN (ck d 0xD)) s₁ (u.syncFollow e) := by
    obtain ⟨hkept, hbit, hfreq⟩ := hu
    by_cases hde : d = e
    · subst hde
      exact hmine u hkept
    · refine ⟨hkept.trans (State.syncFollow_follows e u), ?_, ?_⟩
      · exact (congrArg (fun x : Int => x.toNat.testBit 3) (State.rd_syncFollow_ne hde hd (by decide) u)).trans hbit
      · exact (congrArg Int.toNat (State.rd_syncFollow_ne hde hd (by decide) u)).trans hfreq
  have hmem : d ∈ s₁.followers d := List.mem_filter.2 ⟨List.mem_range.2 hd, beq_iff_eq.2 ((hsame _).trans hf)⟩
  obtain ⟨-, hbit, hfreq⟩ := State.each_reaches (I := FollowKept s₁) (Q := LostShown d (1000 * s.rdN (ck d 0xD)) s₁) hmem (fun e _ u hu => hu.trans (State.syncFollow_follows e u)) hmine
    (fun e _ => hothers e) (FollowKept.refl s₁)
  have hmask : Kept 0x7fffd000000000000000000e000 (s₁.syncTracker d) (s.loseTrack d) := by
    rw [hs₁]
    exact State.maskTracker_kept (Sub.refl _) (Kept.refl _ _)
  have hrd (a : Nat) (ha : a < 256) : (s.loseTrack d).rd (ck d a) = (s₁.syncTracker d).rd (ck d a) :=
    hmask.rd_eq (zone_ck hd ha) (by decide) (ownDefault_ck d a)
  exact ⟨(congrArg (fun x : Int => x.toNat.testBit 3) (hrd 0x18 (by decide))).trans hbit, (congrArg Int.toNat (hrd 0xE (by decide))).trans hfreq⟩

theorem trackingLostTimeout_shows (htracker : s.isTracker c = true) (hlost : (s.chainRec c).tr.lost = false)
    (hdue : (s.chainRec c).tr.lastAcc + Time.us 44400 ≤ max t s.now) : Completes (.trackingLostTimeout t c) s (fun u =>
      (u.chainRec c).tr.lost = true ∧ (s.rdN (ck c 0xC) = c → u.bit (ck c 0x18) 3 = true ∧ u.rdN (ck c 0xE) = 1000 * s.rdN (ck c 0xD))) := by
  refine ⟨(s.begin t).trackTimeout c, rfl, ?_⟩
  have heq : (s.begin t).trackTimeout c = (s.begin t).loseTrack c := by
    have hall : ((s.begin t).isTracker c && !((s.begin t).chainRec c).tr.lost &&
        decide (((s.begin t).chainRec c).tr.lastAcc + Time.us 44400 ≤ (s.begin t).now)) = true := by
      have h1 : (s.begin t).isTracker c = true := htracker
      have h2 : ((s.begin t).chainRec c).tr.lost = false := hlost
      have h3 : ((s.begin t).chainRec c).tr.lastAcc + Time.us 44400 ≤ (s.begin t).now := hdue
      rw [h1, h2, decide_eq_true h3]
      rfl
    exact if_pos hall
  rw [heq]
  exact ⟨congrArg (fun r => r.tr.lost) (State.loseTrack_lost c _), fun hf => State.loseTrack_shows (s := s.begin t) c.isLt hf⟩

end


/-! ### A decimation instant (R31, R35) -/

section
variable {t : Time} {c : ChainNo} {s : State}

theorem State.stuck_keeps (c : Nat) (v : Bool) (s : State) : ChainsKept lossSubs s (s.stuck c v) := by
  have hmark : ChainsKept lossSubs s (s.setChain c { s.chainRec c with lossSet := v }) := ChainsKept.setChain rfl rfl rfl rfl
  exact (hmark.trans (ChainsKept.setBit (by decide) (by decide) 6 v _)).trans (State.syncLoss_keeps c _)

theorem State.streamBits_keeps (c : Nat) (bits : List Bool) (s : State) : ChainsKept lossSubs s (s.streamBits c bits) := by
  unfold State.streamBits
  obtain ⟨n, b, hits⟩ := eqRun (s.chainRec c).eqRun (s.chainRec c).lastBit bits
  dsimp only
  refine ChainsKept.trans (ChainsKept.trans ?_ (ChainsKept.each (fun _ _ u => (State.stuck_keeps c false u).trans (State.stuck_keeps c true _)) _))
    (State.stuck_keeps c _ _)
  refine ChainsKept.trans ?_ (ChainsKept.setBit (c := c) (a := 0x18) (w := lossSubs) (by decide) (by decide) 5 false _)
  exact ChainsKept.setChain rfl rfl rfl rfl

theorem State.chainInput_takes (c : Nat) (a : Int) (sat0 : Bool) (s : State) :
    ((s.chainInput c a sat0).chainRec c).bits = (s.chainRec c).bits ∧ ((s.chainInput c a sat0).chainRec c).fir.head? = some a := by
  unfold State.chainInput
  extract_lets r tab t cs seeded firstSeed fir y0 y line d w f xw v0 v s₁
  have hrec (b : Bool) : (s₁.markSat c b).chainRec c = s₁.chainRec c :=
    congrArg (Tbl.get ({} : ChainRec) c) (State.same_ite (fun u => u.meas.chains) rfl rfl)
  have hs₁ : s₁.chainRec c = { r with started := true, fir := fir, line := line, held := r.held ++ [v] } := State.chainRec_setChain_same c _ s
  rw [hrec, hs₁]
  refine ⟨rfl, ?_⟩
  have hfir : fir.head? = some a := by
    unfold fir
    split
    · rfl
    · rfl
  exact hfir

theorem State.decimation_sums (hsd : 48 ≤ c.val) {s : State} (hon : s.chainOn c = true) (hdue : s.decimationDue c = true) {bits : List Bool} {len : Nat}
    (hlen : len = s.rdN (ck c 3) * (s.rdN (ck c 4) - 1) + 1) (hle : len ≤ ((s.chainRec c).bits ++ bits).length) :
    ((s.decimation c bits).chainRec c).bits = ((s.chainRec c).bits ++ bits).drop (((s.chainRec c).bits ++ bits).length - len) ∧
    ((s.decimation c bits).chainRec c).fir.head? = some (sat16 (rne (sincSum (s.rdN (ck c 3)) (s.rdN (ck c 4))
      (((s.decimation c bits).chainRec c).bits.map (fun x => if x then 1 else -1)) * s.rd (ck c 0x14)) (s.rdN (ck c 0x15)))) := by
  have hkept := State.streamBits_keeps c bits s
  have hrd (a : Nat) (ha : a < 256) (hw : a ∉ lossSubs) : (s.streamBits c bits).rd (ck c a) = s.rd (ck c a) := hkept.rd c.isLt ha hw
  have hrdN (a : Nat) (ha : a < 256) (hw : a ∉ lossSubs) : (s.streamBits c bits).rdN (ck c a) = s.rdN (ck c a) := hkept.rdN c.isLt ha hw
  have heq : s.decimation c bits = (s.streamBits c bits).sinc c bits := by
    have hgo : ¬(!(isSd c && s.decimationDue c)) = true := by
      rw [hdue]
      simpa [isSd] using hsd
    have hon' : (s.streamBits c bits).chainOn c = true := (congrArg (· != 0) (hrd 1 (by decide) (by decide))).trans hon
    exact (if_neg hgo).trans (if_pos hon')
  rw [heq]
  generalize hu : s.streamBits c bits = u at *
  unfold State.sinc
  extract_lets r k d len' all keep val first s₁ m
  have hk : k = s.rdN (ck c 3) := hrdN 3 (by decide) (by decide)
  have hd : d = s.rdN (ck c 4) := hrdN 4 (by decide) (by decide)
  have hlen' : len' = len := by rw [hlen, ← hk, ← hd]
  have hall : all = (s.chainRec c).bits ++ bits := congrArg (· ++ bits) (hkept.bits c)
  have hkeep : keep = ((s.chainRec c).bits ++ bits).drop (((s.chainRec c).bits ++ bits).length - len) := by
    rw [← hall, ← hlen']
  have hfull : len' - keep.length = 0 := by
    rw [hkeep, List.length_drop, hlen']
    omega
  have hgain : s₁.rd (ck c 0x14) = s.rd (ck c 0x14) := hrd 0x14 (by decide) (by decide)
  have hshift : s₁.rdN (ck c 0x15) = s.rdN (ck c 0x15) := hrdN 0x15 (by decide) (by decide)
  obtain ⟨hbits, hfir⟩ := State.chainInput_takes c (sat16 m) (m ≠ sat16 m) s₁
  have hs₁ : (s₁.chainRec c).bits = keep := by
    unfold s₁
    rw [State.chainRec_setChain_same]
  rw [hbits, hfir, hs₁]
  refine ⟨hkeep, ?_⟩
  have hm : m = rne (sincSum (s.rdN (ck c 3)) (s.rdN (ck c 4)) (keep.map val) * s.rd (ck c 0x14)) (s.rdN (ck c 0x15)) := by
    unfold m
    rw [hfull, hk, hd, hgain, hshift]
    rfl
  rw [hm]

theorem decimationInstant_sums {bits : List Bool} {len : Nat} (hsd : 48 ≤ c.val) (hon : s.chainOn c = true) (hdue : (s.begin t).decimationDue c = true)
    (hlen : len = s.rdN (ck c 3) * (s.rdN (ck c 4) - 1) + 1) (hle : len ≤ ((s.chainRec c).bits ++ bits).length) :
    Completes (.decimationInstant t c bits) s (fun u =>
      (u.chainRec c).bits = ((s.chainRec c).bits ++ bits).drop (((s.chainRec c).bits ++ bits).length - len) ∧
      (u.chainRec c).fir.head? = some (sat16 (rne (sincSum (s.rdN (ck c 3)) (s.rdN (ck c 4))
        ((u.chainRec c).bits.map (fun x => if x then 1 else -1)) * s.rd (ck c 0x14)) (s.rdN (ck c 0x15))))) :=
  ⟨(s.begin t).decimation c bits, rfl, State.decimation_sums (s := s.begin t) hsd hon hdue hlen hle⟩

end


/-! ### A fast-tap value and what takes it (R37, R39, R40, R43, R44) -/

/-- The subindices that the takers of a fast-tap value, beside the peak and envelope detectors, may change. -/
abbrev tapSubs : List Nat := [0xE, 0x17, 0x18, 0x1E, 0x20, 0x21]

theorem State.source_chains {w : List Nat} (type sel : Nat) (v : Option Int) (tm : Time) (s : State) : ChainsKept w s (s.source type sel v tm) :=
  ChainsKept.of_kept (State.source_kept (Sub.refl _) (Kept.refl _ s)) (by decide) (by decide)

theorem State.acqValue_chains {w : List Nat} (src sel : Nat) (v : Int) (tm : Time) (s : State) : ChainsKept w s (s.acqValue src sel v tm) :=
  ChainsKept.of_kept (State.acqValue_kept (Sub.refl _) (Kept.refl _ s)) (by decide) (by decide)

theorem State.detectorOut_chains {w : List Nat} (c i : Nat) (tm : Time) (s : State) : ChainsKept w s (s.detectorOut c i tm) :=
  ChainsKept.of_kept (State.detectorOut_kept (Sub.refl _) (Kept.refl _ s)) (by decide) (by decide)

theorem State.maskVoltage_chains {w : List Nat} (c : Nat) (r : Int) (valid : Bool) (tm : Time) (s : State) : ChainsKept w s (s.maskVoltage c r valid tm) :=
  ChainsKept.of_kept (State.maskVoltage_kept (Sub.refl _) (Kept.refl _ s)) (by decide) (by decide)

theorem State.latchTap_chains {w : List Nat} (c : Nat) (x : Int) (s : State) : ChainsKept w s (s.latchTap c x) :=
  ChainsKept.of_kept (State.latchTap_kept (Sub.refl _) (Kept.refl _ s)) (by decide) (by decide)

theorem State.freezeStep_chains {w : List Nat} (b c : Nat) (x : Int) (s : State) : ChainsKept w s (s.freezeStep b c x) := ChainsKept.of_eq rfl rfl

theorem State.markSat_chains (c : Nat) (v : Bool) (s : State) : ChainsKept tapSubs s (s.markSat c v) := by
  have hbit : ChainsKept tapSubs s (s.setBit (ck c 0x18) 1 v) := ChainsKept.setBit (by decide) (by decide) 1 v s
  exact ChainsKept.of_ite (hbit.trans (ChainsKept.wr (by decide) (by decide) _ _)) hbit

theorem State.markSat_if (c : Nat) {p : Prop} [Decidable p] (s : State) : ChainsKept tapSubs s (if p then s.markSat c true else s) :=
  ChainsKept.of_ite (State.markSat_chains c true s) (ChainsKept.refl s)

/-- The crossing of a tracker's chain changes records in what the tracker and the detectors keep. -/
theorem State.crossing_chains (k tc : Nat) (s : State) : ChainsKept tapSubs s (s.crossing k tc) := by
  unfold State.crossing
  extract_lets r t s₁ run lost
  have h₁ : ChainsKept tapSubs s s₁ := ChainsKept.setChain rfl rfl rfl rfl
  have hmod (f : Tracker → Tracker) (u : State) : ChainsKept tapSubs u (u.modChain k (fun r => { r with tr := f r.tr })) :=
    ChainsKept.setChain rfl rfl rfl rfl
  split
  · exact h₁
  · extract_lets p inRange near ps s₂ s₃
    refine ChainsKept.of_ite (h₁.trans ?_) (h₁.trans (hmod (fun t => { t with run := 0 }) s₁))
    have h₂ : ChainsKept tapSubs s₁ s₂ := hmod (fun t => { t with run := min run 3, periods := ps, lost := lost, lastAcc := s₁.now, acc := t.acc + 1, accepted := some tc }) s₁
    have h₃ : ChainsKept tapSubs s₂ s₃ := ChainsKept.each (fun c _ u => ChainsKept.setChain (r := { u.chainRec c with cross := some tc }) rfl rfl rfl rfl) s₂
    have htrack : ChainsKept tapSubs s₃ (s₃.syncTracker k) := (State.syncTracker_follows k s₃).kept.mono (by decide)
    exact ((h₂.trans h₃).trans htrack).trans ((State.maskTracker_follows k _ _).kept.mono (by decide))

theorem State.track_chains (k : Nat) (x : Int) (s : State) : ChainsKept tapSubs s (s.track k x) := by
  have hset (t : Tracker) : ChainsKept tapSubs s (s.setChain k { s.chainRec k with tr := t }) := ChainsKept.setChain rfl rfl rfl rfl
  unfold State.track
  extract_lets r t t₁ t₂ s₁
  refine ChainsKept.of_ite ?_ (hset t₂)
  have h₁ : ChainsKept tapSubs s s₁ := hset { t₂ with armed := false }
  split
  · exact h₁.trans (State.crossing_chains k _ _)
  · exact h₁

theorem State.rmsStep_chains (c : Nat) (x : Int) (s : State) : ChainsKept tapSubs s (s.rmsStep c x) := by
  unfold State.rmsStep
  extract_lets w l s₁ sum rms
  have h₁ : ChainsKept tapSubs s s₁ := ChainsKept.setChain (r := { s.chainRec c with rmsWin := l }) rfl rfl rfl rfl
  exact h₁.trans ((ChainsKept.wr (by decide) (by decide) _ _).trans (ChainsKept.setBit (by decide) (by decide) _ _ _))

theorem bk_ne_ck {off sub b : Nat} (ho : off < 32) (hs : sub < 256) (hb : b < 32) : ∀ c < 80, ∀ a < 256, ck c a ≠ bk off sub b := by
  intro c _ a _
  simp only [ck, bk, key]
  omega

theorem ChainsKept.inc_other {w : List Nat} {k : Nat} (hk : ∀ c < 80, ∀ a < 256, ck c a ≠ k) (s : State) : ChainsKept w s (s.inc k) := ChainsKept.wr_other hk _ s

theorem State.logEvent_chains {w : List Nat} (code inst : Nat) (data : List Byte) (s : State) : ChainsKept w s (s.logEvent code inst data) :=
  ChainsKept.of_kept (s.kept_logEvent code inst data) (by decide) (by decide)

theorem State.rippleStep_chains {w : List Nat} {b : Nat} (hb : b < 32) (a : Int) (s : State) : ChainsKept w s (s.rippleStep b a) := by
  have hset (r : BatchRec) (u : State) : ChainsKept w u (u.setBatch b r) := ChainsKept.of_eq rfl rfl
  have hwr (sub : Nat) (hs : sub < 256) (v : Int) (u : State) : ChainsKept w u (u.wr (bk 0x15 sub b) v) :=
    ChainsKept.wr_other (bk_ne_ck (by decide) hs hb) v u
  unfold State.rippleStep
  extract_lets r p present first start us s₁ s₂
  refine ChainsKept.of_ite (ChainsKept.of_ite (ChainsKept.of_ite (hset _ s) ((hset _ s).trans (hwr _ (by decide) _ _))) (hset _ s))
    (ChainsKept.of_ite (ChainsKept.of_ite (hset _ s) ?_) (hset _ s))
  have h₁ : ChainsKept w s s₁ := (hset _ s).trans (hwr _ (by decide) _ _)
  have h₂ : ChainsKept w s₁ s₂ := ((hwr _ (by decide) _ _).trans (hwr _ (by decide) _ _)).trans (ChainsKept.inc_other (bk_ne_ck (by decide) (by decide) hb) _)
  exact (h₁.trans h₂).trans (State.logEvent_chains ..)

theorem State.sfdPartner_chains {w : List Nat} {d : Nat} (hd : d < 64) (s : State) : ChainsKept w s (s.sfdPartner d) := by
  have hwr (sub : Nat) (hs : sub < 256) (v : Int) (u : State) : ChainsKept w u (u.wr (key (0x5100 + d) sub) v) := ChainsKept.wr_other (sfdKey_ne hd hs) v u
  unfold State.sfdPartner
  extract_lets o p same a pa
  exact ChainsKept.of_ite (ChainsKept.of_ite ((hwr _ (by decide) _ _).trans (hwr _ (by decide) _ _)) (ChainsKept.refl s)) (ChainsKept.refl s)

theorem State.sfdOutput_chains {d : Nat} (hd : d < 64) (c : Nat) (x : Int) (tOut : Rat) (s : State) : ChainsKept tapSubs s (s.sfdOutput d c x tOut) := by
  have hwr (sub : Nat) (hs : sub < 256) (v : Int) (u : State) : ChainsKept tapSubs u (u.wr (key (0x5100 + d) sub) v) := ChainsKept.wr_other (sfdKey_ne hd hs) v u
  unfold State.sfdOutput
  extract_lets o r harmonic th i pr w' win full re im mag amp s₁ ph ok s₂ s₃ s₄ s₅
  refine ChainsKept.of_ite (ChainsKept.refl s) ?_
  have h₁ : ChainsKept tapSubs s s₁ := State.markSat_if c s
  have h₂ : ChainsKept tapSubs s₁ s₂ := ChainsKept.of_eq rfl rfl
  have h₃ : ChainsKept tapSubs s₂ s₃ := ((hwr _ (by decide) _ _).trans (hwr _ (by decide) _ _)).trans (hwr _ (by decide) _ _)
  have h₄ : ChainsKept tapSubs s₃ s₄ := State.sfdPartner_chains hd s₃
  have h₅ : ChainsKept tapSubs s₄ s₅ := State.source_chains ..
  have h := (((h₁.trans h₂).trans h₃).trans h₄).trans h₅
  refine ChainsKept.of_ite h (h.trans (ChainsKept.each (fun b hb u => State.rippleStep_chains ?_ _ u) _))
  exact List.mem_range.1 (List.mem_filter.1 hb).1

theorem State.gridOutput_chains (c : Nat) (x : Int) (tOut : Rat) (s : State) : ChainsKept tapSubs s (s.gridOutput c x tOut) := by
  unfold State.gridOutput
  extract_lets s₁ tm s₂ s₃ s₄ s₅
  have hno (u : State) : ChainsKept tapSubs u (u.modChain c (fun r => { r with gridNo := r.gridNo + 1 })) := ChainsKept.setChain rfl rfl rfl rfl
  have hcross (u : State) : ChainsKept tapSubs u (u.modChain c (fun r => { r with cross := none })) := ChainsKept.setChain rfl rfl rfl rfl
  have h₁ : ChainsKept tapSubs s s₁ := (ChainsKept.wr (by decide) (by decide) _ _).trans (hno _)
  have h₂ : ChainsKept tapSubs s₁ s₂ := (State.acqValue_chains ..).trans (State.source_chains ..)
  have h₃ : ChainsKept tapSubs s₂ s₃ := (State.rmsStep_chains c x s₂).trans (State.detectorOut_chains ..)
  have h₄ : ChainsKept tapSubs s₃ s₄ := State.maskVoltage_chains ..
  have h₅ : ChainsKept tapSubs s₄ s₅ := ChainsKept.each (fun d hd u => State.sfdOutput_chains (List.mem_range.1 hd) c x tOut u) s₄
  exact ((((h₁.trans h₂).trans h₃).trans h₄).trans h₅).trans (hcross _)

theorem State.resample_chains (fuel c : Nat) (s : State) : ChainsKept tapSubs s (State.resample fuel c s) := by
  induction fuel generalizing s with
  | zero => exact ChainsKept.refl s
  | succ fuel ih =>
    unfold State.resample
    extract_lets r tab
    split
    · extract_lets p fl fr k0 n k y0 tOut s₁ s₂
      refine ChainsKept.of_ite (ChainsKept.refl s) ?_
      have h₁ : ChainsKept tapSubs s s₁ := ChainsKept.setChain rfl rfl rfl rfl
      have h₂ : ChainsKept tapSubs s₁ s₂ := State.markSat_if c s₁
      exact ((h₁.trans h₂).trans (State.gridOutput_chains ..)).trans (ih _)
    · exact ChainsKept.refl s

theorem State.gridInput_chains (c : Nat) (x : Int) (s : State) : ChainsKept tapSubs s (s.gridInput c x) := by
  unfold State.gridInput
  extract_lets r first line p
  refine ChainsKept.trans ?_ (State.resample_chains 256 c _)
  exact ChainsKept.setChain rfl rfl rfl rfl

theorem State.halfBand_chains (c : Nat) (x : Int) (s : State) : ChainsKept tapSubs s (s.halfBand c x) := by
  unfold State.halfBand
  extract_lets r first h s₁ tab y0 s₂
  have h₁ : ChainsKept tapSubs s s₁ := ChainsKept.setChain rfl rfl rfl rfl
  exact ChainsKept.of_ite ((h₁.trans (State.markSat_if c s₁)).trans (State.gridInput_chains ..)) h₁

theorem State.gridTap_chains (c : Nat) (x : Int) (s : State) : ChainsKept tapSubs s (s.gridTap c x) :=
  ChainsKept.of_ite (ChainsKept.refl s) (ChainsKept.of_ite (State.halfBand_chains c x s) (State.gridInput_chains c x s))

/-- The peak detector takes the greater of the new magnitude and the decayed peak; what the chain holds stays. -/
theorem State.tapDetectors_takes {c : Nat} (hc : c < 80) (x : Int) (s : State) :
    (s.tapDetectors c x).rd (ck c 0x1D) = max (min 32767 (x.natAbs : Int)) (rne (s.rd (ck c 0x1D) * s.rd (ck c 0x19)) 15) ∧
    ChainsKept lossSubs s (s.tapDetectors c x) := by
  unfold State.tapDetectors
  extract_lets n s₁ ax p e k s₂
  have h₁ : ChainsKept lossSubs s s₁ := ChainsKept.setChain (r := { s.chainRec c with detNo := min n 64 }) rfl rfl rfl rfl
  have h₂ : ChainsKept lossSubs s₁ s₂ := (ChainsKept.wr (by decide) (by decide) _ _).trans (ChainsKept.wr (by decide) (by decide) _ _)
  have hbits : ChainsKept [0x20] s₂ ((s₂.setBit (ck c 0x20) 0 (64 ≤ n)).setBit (ck c 0x20) 2 (64 ≤ n)) :=
    (ChainsKept.setBit (by decide) (by decide) _ _ _).trans (ChainsKept.setBit (by decide) (by decide) _ _ _)
  refine ⟨?_, (h₁.trans h₂).trans (hbits.mono (by decide))⟩
  have hp : s₂.rd (ck c 0x1D) = p :=
    (State.rd_wr_ne (ck_ne (by decide) (by decide) fun _ => by decide) (ownDefault_ck c _) _ _).trans (State.rd_wr_same ..)
  exact (hbits.rd hc (by decide) (by decide)).trans hp

theorem State.takeTap_takes {c : Nat} (hc : c < 80) (x : Int) (tm : Time) (s : State) :
    (s.takeTap c x tm).rd (ck c 0x1D) = max (min 32767 (x.natAbs : Int)) (rne (s.rd (ck c 0x1D) * s.rd (ck c 0x19)) 15) ∧
    ChainsKept (0x17 :: lossSubs) s (s.takeTap c x tm) := by
  unfold State.takeTap
  extract_lets s₁ s₂ s₃ s₄
  have h₁ : ChainsKept [] s s₁ := State.source_chains ..
  obtain ⟨hpeak, hdet⟩ := State.tapDetectors_takes hc x s₁
  have h₂ : ChainsKept [] (s₁.tapDetectors c x) s₂ := (State.detectorOut_chains ..).trans (State.detectorOut_chains ..)
  have h₃ : ChainsKept tapSubs s₂ s₃ := ChainsKept.of_ite (State.track_chains ..) (ChainsKept.refl s₂)
  have h₄ : ChainsKept tapSubs s₃ s₄ := State.gridTap_chains ..
  have h₅ : ChainsKept [] s₄ (s₄.each (s₄.marking c) (fun b s => s.freezeStep b c x)) := ChainsKept.each (fun b _ u => State.freezeStep_chains b c x u) s₄
  have hrest := ((h₂.mono (List.nil_subset _)).trans (h₃.trans h₄)).trans (h₅.mono (List.nil_subset _))
  refine ⟨?_, ?_⟩
  · rw [hrest.rd hc (by decide) (by decide), hpeak, h₁.rd hc (by decide) (by decide), h₁.rd hc (by decide) (by decide)]
  · exact ((h₁.mono (List.nil_subset _)).trans (hdet.mono (by decide))).trans (hrest.mono (by decide))

theorem State.tapValid_congr {c : Nat} {s u : State} (hseed : u.seeds c = s.seeds c) (hblobs : u.blobs = s.blobs)
    (hrd : ∀ a ∈ [3, 4, 7], u.rdN (ck c a) = s.rdN (ck c a)) (n : Nat) : u.tapValid c n = s.tapValid c n := by
  have htab : u.chainTab c = s.chainTab c := congrArg (Tbl.get [] _) hblobs
  unfold State.tapValid
  rw [hseed, htab, hrd 3 (by decide), hrd 4 (by decide), hrd 7 (by decide)]

/-- The state in which chain c's oldest held value x is released. -/
def State.released (c : Nat) (x : Int) (rest : List Int) (s : State) : State :=
  (s.setChain c { s.chainRec c with held := rest, tapNo := (s.chainRec c).tapNo + 1 }).wr (ck c 0x16) x

/-- The instant that a value released now represents. -/
def State.releaseInstant (c : Nat) (s : State) : Time := s.represents c (s.now : Nat)

/-- The released value in the records and the cycles that latch it. -/
def State.releaseShown (c : Nat) (x : Int) (s : State) : State := (s.acqValue 1 c x (s.releaseInstant c)).latchTap c x

theorem State.fastTap_eq {c : Nat} {x : Int} {rest : List Int} {s : State} (hon : s.chainOn c = true) (hheld : (s.chainRec c).held = x :: rest) :
    (s.fastTap c).1 = if ((s.released c x rest).releaseShown c x).tapValid c ((s.chainRec c).tapNo + 1)
      then ((s.released c x rest).releaseShown c x).takeTap c x ((s.released c x rest).releaseInstant c)
      else (s.released c x rest).releaseShown c x := by
  unfold State.fastTap
  simp only [hon, hheld]
  rfl

theorem State.releaseShown_kept (c : Nat) (x : Int) (s : State) : Kept 0x2004 s (s.releaseShown c x) :=
  State.latchTap_kept (by decide) (State.acqValue_kept (by decide) (Kept.refl _ s))

theorem State.fastTap_releases {c : Nat} (hc : c < 80) {x : Int} {rest : List Int} {s : State} (hon : s.chainOn c = true)
    (hheld : (s.chainRec c).held = x :: rest) :
    (s.fastTap c).1.rd (ck c 0x16) = x ∧ ((s.fastTap c).1.chainRec c).held = rest ∧ ((s.fastTap c).1.chainRec c).tapNo = (s.chainRec c).tapNo + 1 ∧
    (s.tapValid c ((s.chainRec c).tapNo + 1) = true →
      (s.fastTap c).1.rd (ck c 0x1D) = max (min 32767 (x.natAbs : Int)) (rne (s.rd (ck c 0x1D) * s.rd (ck c 0x19)) 15)) := by
  have hrec : (s.released c x rest).chainRec c = { s.chainRec c with held := rest, tapNo := (s.chainRec c).tapNo + 1 } := State.chainRec_setChain_same c _ s
  have hvalue : (s.released c x rest).rd (ck c 0x16) = x := State.rd_wr_same ..
  have hrd₁ (a : Nat) (ha : a < 256) (hne : a ≠ 0x16) : (s.released c x rest).rd (ck c a) = s.rd (ck c a) :=
    State.rd_wr_ne (ck_ne ha (by decide) fun _ => hne) (ownDefault_ck c a) x _
  have hblobs₁ : (s.released c x rest).blobs = s.blobs := rfl
  rw [State.fastTap_eq hon hheld]
  generalize (s.released c x rest).releaseInstant c = tm
  generalize s.released c x rest = s₁ at *
  have hkept := State.releaseShown_kept c x s₁
  have hshown : ChainsKept [] s₁ (s₁.releaseShown c x) := ChainsKept.of_kept hkept (by decide) (by decide)
  generalize s₁.releaseShown c x = s₂ at *
  have hrd₂ (a : Nat) (ha : a < 256) (hne : a ≠ 0x16) : s₂.rd (ck c a) = s.rd (ck c a) := (hshown.rd hc ha (by simp)).trans (hrd₁ a ha hne)
  have hseed₁ : (s₁.chainRec c).seeded = (s.chainRec c).seeded := by rw [hrec]
  have hseed : s₂.seeds c = s.seeds c :=
    (congrArg (fun m : Meas => (Tbl.get ({} : ChainRec) c m.chains).seeded) (hkept.measSame (by decide))).trans hseed₁
  have hvalid : s₂.tapValid c ((s.chainRec c).tapNo + 1) = s.tapValid c ((s.chainRec c).tapNo + 1) := by
    refine State.tapValid_congr hseed ((hkept.stringsSame (by decide)).trans hblobs₁) (fun a ha => congrArg Int.toNat ?_) _
    simp only [List.mem_cons, List.not_mem_nil, or_false] at ha
    exact hrd₂ a (by omega) (by omega)
  have hheld₂ : (s₂.chainRec c).held = rest := (hshown.held c).trans (congrArg ChainRec.held hrec)
  have htap₂ : (s₂.chainRec c).tapNo = (s.chainRec c).tapNo + 1 := (hshown.tapNo c).trans (congrArg ChainRec.tapNo hrec)
  have hvalue₂ : s₂.rd (ck c 0x16) = x := (hshown.rd hc (by decide) (by decide)).trans hvalue
  rw [hvalid]
  split
  case isTrue =>
    obtain ⟨hpeak, htaken⟩ := State.takeTap_takes hc x tm s₂
    rw [hrd₂ 0x1D (by decide) (by decide), hrd₂ 0x19 (by decide) (by decide)] at hpeak
    exact ⟨(htaken.rd hc (by decide) (by decide)).trans hvalue₂, (htaken.held c).trans hheld₂, (htaken.tapNo c).trans htap₂, fun _ => hpeak⟩
  case isFalse h => exact ⟨hvalue₂, hheld₂, htap₂, fun hv => absurd hv h⟩

theorem fastTapOutput_releases {t : Time} {c : ChainNo} {s : State} {x : Int} {rest : List Int} (hon : s.chainOn c = true)
    (hheld : (s.chainRec c).held = x :: rest) : Completes (.fastTapOutput t c) s (fun u =>
    u.rd (ck c 0x16) = x ∧ (u.chainRec c).held = rest ∧ (u.chainRec c).tapNo = (s.chainRec c).tapNo + 1 ∧
    (s.tapValid c ((s.chainRec c).tapNo + 1) = true →
      u.rd (ck c 0x1D) = max (min 32767 (x.natAbs : Int)) (rne (s.rd (ck c 0x1D) * s.rd (ck c 0x19)) 15))) :=
  ⟨((s.begin t).fastTap c).1, rfl, State.fastTap_releases (s := s.begin t) c.isLt hon hheld⟩


/-! ### The host's commands of a chain (R40 to R43) -/

/-- The detectors of chain c are cleared. -/
def DetectorsClear (c : Nat) (u : State) : Prop := ∀ a ∈ [0x1D, 0x1E, 0x20], u.rd (ck c a) = 0

theorem DetectorsClear.keep {c : Nat} (hc : c < 80) {w : List Nat} {s u : State} (h : DetectorsClear c s) (hk : ChainsKept w s u)
    (hw : ∀ a ∈ [0x1D, 0x1E, 0x20], a ∉ w) : DetectorsClear c u := fun a ha =>
  (hk.rd hc (by simp only [List.mem_cons, List.not_mem_nil, or_false] at ha; omega) (hw a ha)).trans (h a ha)

theorem State.restartDetectors_clear (c : Nat) (s : State) : DetectorsClear c (s.restartDetectors c) := fun a ha =>
  State.rd_restartDetectors (by simp only [List.mem_cons, List.not_mem_nil, or_false] at ha ⊢; omega) s

theorem State.syncLoss_clear {c : Nat} (hc : c < 80) {s : State} (h : DetectorsClear c s) : DetectorsClear c (s.syncLoss c) := by
  rw [State.syncLoss_eq]
  split
  case isTrue =>
    refine DetectorsClear.keep hc ?_ (State.loseTrack_keeps c _) (by decide)
    exact State.restartDetectors_clear c _
  case isFalse => exact h.keep hc (ChainsKept.setBit (c := c) (a := 0x18) (w := [0x18]) (by decide) (by decide) ..) (by decide)

theorem State.syncLoss_stays_lost {c : Nat} {s : State} (h : (s.chainRec c).tr.lost = true) : ((s.syncLoss c).chainRec c).tr.lost = true := by
  rw [State.syncLoss_eq]
  split
  case isTrue => exact congrArg (fun r => r.tr.lost) (State.loseTrack_lost c _)
  case isFalse => exact h

theorem State.syncChain_keeps (c : Nat) (s : State) : ChainsKept [0x12, 0x13, 0x14, 0x15] s (s.syncChain c) := by
  unfold State.syncChain
  extract_lets s₁ n e sl
  have h₁ : ChainsKept [0x12, 0x13, 0x14, 0x15] s s₁ := ChainsKept.wr (by decide) (by decide) _ s
  exact ChainsKept.of_ite ((h₁.trans (ChainsKept.wr (by decide) (by decide) _ _)).trans (ChainsKept.wr (by decide) (by decide) _ _))
    (h₁.trans (ChainsKept.wr (by decide) (by decide) _ _))

/-- A chain that starts anew, up to its loss of tracking: enabled, with empty filters and cleared detectors. -/
structure ChainAnew (c : Nat) (u : State) : Prop where
  on : u.rd (ck c 1) = 1
  held : (u.chainRec c).held = []
  fir : (u.chainRec c).fir = []
  clear : DetectorsClear c u

theorem ChainAnew.keep {c : Nat} (hc : c < 80) {w : List Nat} {s u : State} (h : ChainAnew c s) (hk : ChainsKept w s u)
    (hw : ∀ a ∈ [1, 0x1D, 0x1E, 0x20], a ∉ w) : ChainAnew c u :=
  ⟨(hk.rd hc (by decide) (hw 1 (by decide))).trans h.on, (hk.held c).trans h.held, (hk.fir c).trans h.fir,
    h.clear.keep hc hk fun a ha => hw a (List.mem_cons_of_mem _ ha)⟩

theorem State.chainEnable_restarts {c : Nat} (hc : c < 80) (s : State) :
    ChainAnew c (s.chainEnable c 1) ∧ ((s.chainEnable c 1).chainRec c).tr.lost = true := by
  unfold State.chainEnable
  extract_lets r k s₂ s₃ s₄ m s₅
  have hset : s₂.rd (ck c 1) = 1 ∧ (s₂.chainRec c).held = [] ∧ (s₂.chainRec c).fir = [] := by
    unfold s₂
    rw [State.chainRec_setChain_same]
    exact ⟨State.rd_wr_same .., rfl, rfl⟩
  obtain ⟨hon, hheld, hfir⟩ := hset
  clear_value s₂
  have hdet := State.restartDetectors_keeps c s₂
  have h₂ : ChainAnew c (s₂.restartDetectors c) :=
    ⟨(hdet.rd hc (by decide) (by decide)).trans hon, (hdet.held c).trans hheld, (hdet.fir c).trans hfir, State.restartDetectors_clear c s₂⟩
  have h₃ : ChainAnew c s₃ := h₂.keep hc (State.syncChain_keeps c _) (by decide)
  have hsfd : ChainsKept [] s₃ s₄ := by
    refine ChainsKept.each (fun d hd u => ?_) s₃
    have hrec : ChainsKept [] u (u.setSfd d {}) := ChainsKept.of_eq rfl rfl
    exact hrec.trans (ChainsKept.wr_other (sfdKey_ne (State.sfdsOn_lt hd) (by decide)) 0 _)
  have h₅ : ChainAnew c s₅ := (h₃.keep hc hsfd (by decide)).keep hc (w := []) (ChainsKept.of_eq rfl rfl) (by decide)
  clear_value s₅
  have h₆ := h₅.keep hc (State.loseTrack_keeps c s₅) (by decide)
  have hlost₆ : ((s₅.loseTrack c).chainRec c).tr.lost = true := congrArg (fun r => r.tr.lost) (State.loseTrack_lost c s₅)
  generalize s₅.loseTrack c = s₆ at *
  have h₇ := h₆.keep hc (State.syncFollow_follows c s₆).kept (by decide)
  have hlost₇ : ((s₆.syncFollow c).chainRec c).tr.lost = true := by rw [(State.syncFollow_follows c s₆).chainRec, hlost₆]
  generalize s₆.syncFollow c = s₇ at *
  have hloss := State.syncLoss_keeps c s₇
  exact ⟨⟨(hloss.rd hc (by decide) (by decide)).trans h₇.on, (hloss.held c).trans h₇.held, (hloss.fir c).trans h₇.fir,
    State.syncLoss_clear hc h₇.clear⟩, State.syncLoss_stays_lost hlost₇⟩


theorem State.chainRec_setBit (k i : Nat) (v : Bool) (c : Nat) (s : State) : (s.setBit k i v).chainRec c = s.chainRec c := rfl

theorem State.chainRec_answer (e c : Nat) (s : State) : (s.answer e).chainRec c = s.chainRec c := rfl

theorem State.windowWrite_restarts {c : Nat} (hc : c < 80) (w : Nat) (s : State) : (s.windowWrite c w).rdN (ck c 0x1A) = w ∧
    ((s.windowWrite c w).chainRec c).rmsWin = [] ∧ (s.windowWrite c w).rd (ck c 0x1E) = 0 ∧ (s.windowWrite c w).bit (ck c 0x20) 1 = false := by
  unfold State.windowWrite
  extract_lets s₁
  have hw : s₁.rdN (ck c 0x1A) = w := State.rdN_wr_same ..
  have hrms : (s₁.chainRec c).rmsWin = [] := by
    unfold s₁
    rw [State.modChain, State.chainRec_setChain_same]
  clear_value s₁
  have hlate : ChainsKept [0x1E, 0x20] s₁ ((s₁.wr (ck c 0x1E) 0).setBit (ck c 0x20) 1 false) :=
    (ChainsKept.wr (by decide) (by decide) _ _).trans (ChainsKept.setBit (by decide) (by decide) _ _ _)
  rw [State.chainRec_setBit, State.chainRec_wr]
  refine ⟨(hlate.rdN hc (by decide) (by decide)).trans hw, hrms, ?_, State.bit_setBit_same ..⟩
  exact (State.rd_setBit_ne (ck_ne (by decide) (by decide) fun _ => by decide) (ownDefault_ck c _) ..).trans (State.rd_wr_same ..)

section
variable {t : Time} {q : Req} {c : ChainNo} {s : State}

theorem State.chainRec_longBy (q : Req) (was c : Nat) (u : State) : (u.longBy q was).chainRec c = u.chainRec c :=
  congrArg (fun m : Meas => Tbl.get ({} : ChainRec) c m.chains) (State.longBy_meas q was u)

theorem chainEnable_restarts (hs : s.Serves) (hp : s.Passes q (0x5000 + c) 1 0 1) : Completes (.chainEnable t q c) s (fun u =>
    u.rd (ck c 1) = 1 ∧ (u.chainRec c).held = [] ∧ (u.chainRec c).fir = ({} : ChainRec).fir ∧ (u.chainRec c).tr.lost = true ∧
      u.rd (ck c 0x1D) = 0 ∧ u.rd (ck c 0x1E) = 0 ∧ u.rd (ck c 0x20) = 0 ∧ u.Answered 0) := by
  refine ⟨(s.begin t).hostWrite q (0x5000 + c) 1 0 1 (enableEff c 1), rfl, ?_⟩
  beta_reduce
  rw [State.hostWrite_replies (s := s.begin t) hs hp rfl rfl, State.chainRec_longBy]
  simp only [State.rd_longBy]
  have heff (s₁ : State) : (enableEff c 1).eff s₁ = s₁.chainEnable c 1 := rfl
  rw [heff]
  obtain ⟨hnew, hlost⟩ := State.chainEnable_restarts c.isLt ((s.begin t).handling q.sid)
  generalize ((s.begin t).handling q.sid).chainEnable c 1 = s₂ at *
  exact ⟨hnew.on, hnew.held, hnew.fir, hlost, hnew.clear 0x1D (by decide), hnew.clear 0x1E (by decide), hnew.clear 0x20 (by decide),
    State.answered_answer_longBy ..⟩

theorem detectorWindowWrite_restarts {w : Nat} (hs : s.Serves) (hp : s.Passes q (0x5000 + c) 0x1A 0 w) : Completes (.detectorWindowWrite t q c w) s (fun u =>
    u.rdN (ck c 0x1A) = w ∧ (u.chainRec c).rmsWin = [] ∧ u.rd (ck c 0x1E) = 0 ∧ u.bit (ck c 0x20) 1 = false ∧ u.Answered 0) := by
  refine ⟨(s.begin t).hostWrite q (0x5000 + c) 0x1A 0 w (windowEff c w), rfl, ?_⟩
  beta_reduce
  rw [State.hostWrite_replies (s := s.begin t) hs hp rfl rfl, State.chainRec_longBy]
  simp only [State.rd_longBy, State.rdN_longBy, State.bit_longBy]
  have heff (s₁ : State) : (windowEff c w).eff s₁ = s₁.windowWrite c w := rfl
  rw [heff]
  obtain ⟨hw, hrms, hzero, hvalid⟩ := State.windowWrite_restarts c.isLt w ((s.begin t).handling q.sid)
  generalize ((s.begin t).handling q.sid).windowWrite c w = s₂ at *
  rw [State.rdN_answer, State.rd_answer, State.bit_answer, State.chainRec_answer]
  exact ⟨hw, hrms, hzero, hvalid, State.answered_answer_longBy ..⟩

theorem chainBankWrite_loads {img : List Byte} (hs : s.Serves) (hp : s.PassesBlob q (0x8200 + c) 1 img) (hlen : img.length = 1060) :
    Completes (.chainBankWrite t q c img) s (fun u => (u.chainRec c).swapFor = none ∧ (u.chainRec c).inactiveValid = tableOk img ∧
      u.bit (ck c 0x18) 7 = tableOk img ∧ u.bit (ck c 0x18) 8 = false ∧ u.blob (key (0x8200 + c) 1) = (if tableOk img then img else []) ∧
      u.Answered (if tableOk img then 0 else 0x0B000021)) := by
  refine ⟨(s.begin t).hostBlob q (0x8200 + c) 1 img (bankWriteEff c img), rfl, ?_⟩
  beta_reduce
  have hown : (bankWriteEff c img).own ((s.begin t).handling q.sid) = 0 := needs_of_true (by simp [hlen]) _
  rw [State.hostBlob_eq (s := s.begin t) hs hp, State.carries_of_pass hown, if_neg (show ¬(bankWriteEff c img).replies = true from Bool.false_ne_true), State.chainRec_longBy]
  simp only [State.bit_longBy, State.blob_longBy]
  have heff (s₁ : State) : (bankWriteEff c img).eff s₁ = s₁.bankWrite c img := rfl
  rw [heff]
  generalize (s.begin t).handling q.sid = s₁
  unfold State.bankWrite
  extract_lets r s₂
  have h8 : s₂.bit (ck c 0x18) 8 = false := State.bit_setBit_same ..
  have hloaded (r : ChainRec) (l : List Byte) (v : Bool) (e : Nat) :
      ((((s₂.setChain c r).wrBlob (key (0x8200 + c) 1) l).setBit (ck c 0x18) 7 v).answer e).chainRec c = r ∧
      ((((s₂.setChain c r).wrBlob (key (0x8200 + c) 1) l).setBit (ck c 0x18) 7 v).answer e).bit (ck c 0x18) 7 = v ∧
      ((((s₂.setChain c r).wrBlob (key (0x8200 + c) 1) l).setBit (ck c 0x18) 7 v).answer e).bit (ck c 0x18) 8 = false ∧
      ((((s₂.setChain c r).wrBlob (key (0x8200 + c) 1) l).setBit (ck c 0x18) 7 v).answer e).blob (key (0x8200 + c) 1) = l :=
    ⟨State.chainRec_setChain_same .., State.bit_setBit_same .., (State.bit_setBit_other (by decide) ..).trans h8, State.blob_wrBlob_same ..⟩
  cases tableOk img with
  | true =>
    obtain ⟨hrec, h7, h8, hblob⟩ := hloaded { r with inactiveValid := true, swapFor := none } img true 0
    exact ⟨congrArg ChainRec.swapFor hrec, congrArg ChainRec.inactiveValid hrec, h7, h8, hblob, State.answered_answer_longBy ..⟩
  | false =>
    obtain ⟨hrec, h7, h8, hblob⟩ := hloaded { r with inactiveValid := false, swapFor := none } [] false 0x0B000021
    exact ⟨congrArg ChainRec.swapFor hrec, congrArg ChainRec.inactiveValid hrec, h7, h8, hblob, State.answered_answer_longBy ..⟩

theorem chainSwapRequest_takes {v : Nat} (hs : s.Serves) (hp : s.Passes q (0x5000 + c) 0x10 0 v) (hvalid : (s.chainRec c).inactiveValid = true)
    (hlat : s.latencyWith c (s.swapTaps c) ≤ 3000) : Completes (.chainSwapRequest t q c v) s (fun u =>
      (u.chainRec c).swapFor = some v ∧ u.bit (ck c 0x18) 8 = true ∧ u.Answered 0) := by
  refine ⟨(s.begin t).hostWrite q (0x5000 + c) 0x10 0 v (chainSwapEff c v), rfl, ?_⟩
  beta_reduce
  have hown : (chainSwapEff c v).own ((s.begin t).handling q.sid) = 0 := by
    have h1 : ((s.begin t).handling q.sid).chainRec c = s.chainRec c := rfl
    have h2 : ((s.begin t).handling q.sid).latencyWith c (((s.begin t).handling q.sid).swapTaps c) = s.latencyWith c (s.swapTaps c) := rfl
    unfold chainSwapEff
    dsimp only
    rw [h1, h2, hvalid, decide_eq_true hlat]
    rfl
  rw [State.hostWrite_replies (s := s.begin t) hs hp hown rfl, State.chainRec_longBy, State.bit_longBy]
  refine ⟨?_, State.bit_setBit_same .., State.answered_answer_longBy ..⟩
  have hrec (s₁ : State) (r : ChainRec) : ((s₁.setChain c r).setBit (ck c 0x18) 8 true).chainRec c = r := State.chainRec_setChain_same ..
  exact congrArg ChainRec.swapFor (hrec _ _)

theorem chainSwapRequest_fails {v e : Nat} (hs : s.Serves) (hp : s.Passes q (0x5000 + c) 0x10 0 v) (he : e ≠ 0)
    (hown : (chainSwapEff c v).own s = e) : Completes (.chainSwapRequest t q c v) s (fun u =>
      (u.chainRec c).swapFor = (s.chainRec c).swapFor ∧ u.Answered e) := by
  refine ⟨(s.begin t).hostWrite q (0x5000 + c) 0x10 0 v (chainSwapEff c v), rfl, ?_⟩
  beta_reduce
  have hown' : (chainSwapEff c v).own ((s.begin t).handling q.sid) = e := hown
  rw [State.hostWrite_fails (s := s.begin t) hs hp hown' he, State.chainRec_longBy]
  exact ⟨rfl, State.answered_answer_longBy ..⟩

theorem chainSwapEff_late {v : Nat} (hvalid : (s.chainRec c).inactiveValid = true) (hlat : 3000 < s.latencyWith c (s.swapTaps c)) :
    (chainSwapEff c v).own s = 0x06090030 := by
  unfold chainSwapEff
  dsimp only
  rw [hvalid, decide_eq_false (not_le.2 hlat)]
  rfl

theorem chainSwapEff_invalid {v : Nat} (hvalid : (s.chainRec c).inactiveValid = false) : (chainSwapEff c v).own s = 0x0B000022 := by
  unfold chainSwapEff
  dsimp only
  rw [hvalid]
  rfl

/-! ### A swap between two samples (R41) -/

/-- From s to u the byte strings, the chains' records and entry 0x0F of chain c stay. -/
structure SwapKept (c : Nat) (s u : State) : Prop where
  blobs : u.blobs = s.blobs
  chains : u.meas.chains = s.meas.chains
  bank : u.rd (ck c 0xF) = s.rd (ck c 0xF)

theorem SwapKept.trans {c : Nat} {s u v : State} (h : SwapKept c s u) (g : SwapKept c u v) : SwapKept c s v :=
  ⟨g.blobs.trans h.blobs, g.chains.trans h.chains, g.bank.trans h.bank⟩

theorem SwapKept.wr {c a : Nat} (ha : a < 256) (hne : 0xF ≠ a) (v : Int) (s : State) : SwapKept c s (s.wr (ck c a) v) :=
  ⟨rfl, rfl, State.rd_wr_ne (ck_ne (by decide) ha fun _ => hne) (ownDefault_ck c _) v s⟩

theorem State.syncChain_swapKept (c : Nat) (s : State) : SwapKept c s (s.syncChain c) := by
  unfold State.syncChain
  extract_lets s₁ n e sl
  have h₁ : SwapKept c s s₁ := SwapKept.wr (by decide) (by decide) _ s
  split
  · exact h₁.trans ((SwapKept.wr (by decide) (by decide) _ _).trans (SwapKept.wr (by decide) (by decide) _ _))
  · exact h₁.trans (SwapKept.wr (by decide) (by decide) _ _)

theorem State.syncTimeline_swapKept (c : ChainNo) {b : Nat} (hb : b < 32) (s : State) : SwapKept c s (s.syncTimeline b) := by
  have hwr (off sub : Nat) (ho : off < 32) (hs : sub < 256) (v : Int) (u : State) : SwapKept c u (u.wr (bk off sub b) v) :=
    ⟨rfl, rfl, State.rd_wr_ne (bk_ne_ck ho hs hb c c.isLt 0xF (by decide)) (ownDefault_ck c _) v u⟩
  unfold State.syncTimeline
  extract_lets u lin link aligned tl c2 eff2 s₁
  have h₁ : SwapKept c s s₁ := ((hwr _ _ (by decide) (by decide) _ _).trans (hwr _ _ (by decide) (by decide) _ _)).trans (hwr _ _ (by decide) (by decide) _ _)
  exact (h₁.trans (hwr _ _ (by decide) (by decide) _ _)).trans (hwr _ _ (by decide) (by decide) _ _)

theorem State.runAdmission_swapKept (c : ChainNo) (figs : List Fig) (s : State) : SwapKept c s (s.runAdmission figs).2 := by
  have h : Kept 0x7fffffc00000000000000000004 s (s.runAdmission figs).2 := State.runAdmission_kept (Sub.refl _) (Kept.refl _ s)
  exact ⟨h.stringsSame (by decide), congrArg Meas.chains (h.measSame (by decide)), h.rd_eq (zone_ck c.isLt (by decide)) (by decide) (ownDefault_ck c _)⟩

theorem SwapKept.refl (c : Nat) (s : State) : SwapKept c s s := ⟨rfl, rfl, rfl⟩

/-- The record of a chain whose banks have changed places; v says whether the bank now inactive is valid. -/
def ChainRec.swapped (v : Bool) (r : ChainRec) : ChainRec := { r with swapFor := none, inactiveValid := v }

theorem State.chainSwap_swaps (c : ChainNo) (s : State) : (s.chainSwap c).blob (key (0x8200 + c) 2) = s.blob (key (0x8200 + c) 1) ∧
    (s.chainSwap c).blob (key (0x8200 + c) 1) = s.blob (key (0x8200 + c) 2) ∧ (s.chainSwap c).rd (ck c 0xF) = 1 - s.rd (ck c 0xF) ∧
    (s.chainSwap c).chainRec c = (s.chainRec c).swapped !(s.blob (key (0x8200 + c) 2)).isEmpty := by
  have hne : key (0x8200 + c) 2 ≠ key (0x8200 + c) 1 := by
    simp only [key]
    omega
  unfold State.chainSwap
  extract_lets a i s₁ s₂ s₃ was s₄ s₅
  have hbank₃ : s₃.rd (ck c 0xF) = s.rd (ck c 0xF) :=
    (State.rd_setBit_ne (ck_ne (by decide) (by decide) fun _ => by decide) (ownDefault_ck c _) ..).trans
      (State.rd_setBit_ne (ck_ne (by decide) (by decide) fun _ => by decide) (ownDefault_ck c _) ..)
  have hrec₃ : s₃.chainRec c = (s.chainRec c).swapped (!a.isEmpty) := by
    unfold s₃
    rw [State.setBit, State.setBit, State.chainRec_wr, State.chainRec_wr]
    exact State.chainRec_setChain_same ..
  have hblobs₃ : s₃.blobs = s₁.blobs := rfl
  have hb2 : s₁.blob (key (0x8200 + c) 2) = i := (State.blob_wrBlob_other _ a _ hne).trans (State.blob_wrBlob_same _ i s)
  have hb1 : s₁.blob (key (0x8200 + c) 1) = a := State.blob_wrBlob_same ..
  clear_value s₃ s₁
  have h₄ : SwapKept c (s₃.wr (ck c 0xF) (1 - s₃.rd (ck c 0xF))) s₄ := State.syncChain_swapKept c _
  have h₅ : SwapKept c s₄ s₅ := State.each_keeps (P := SwapKept c s₄)
    (fun b hb u hu => hu.trans (State.syncTimeline_swapKept c (List.mem_range.1 (List.mem_filter.1 hb).1) u)) (SwapKept.refl c s₄)
  have hlast : SwapKept c s₅ (if s₅.rdN (ck c 0x12) ≠ was && (s₅.readers c).any (fun b => s₅.benabled b) then (s₅.runAdmission s₅.enabledFigs).2 else s₅) := by
    split
    · exact State.runAdmission_swapKept c _ s₅
    · exact SwapKept.refl c s₅
  obtain ⟨hblobs, hchains, hbank⟩ := (h₄.trans h₅).trans hlast
  have hblobs' := hblobs.trans hblobs₃
  refine ⟨(congrArg (Tbl.get [] _) hblobs').trans hb2, (congrArg (Tbl.get [] _) hblobs').trans hb1, ?_, ?_⟩
  · rw [hbank, State.rd_wr_same, hbank₃]
  · exact (congrArg (Tbl.get ({} : ChainRec) c) hchains).trans hrec₃

theorem chainBankSwapped_swaps (hswap : (s.chainRec c).swapFor = some 0) : Completes (.chainBankSwapped t c) s (fun u =>
    u.blob (key (0x8200 + c) 2) = s.blob (key (0x8200 + c) 1) ∧ u.blob (key (0x8200 + c) 1) = s.blob (key (0x8200 + c) 2) ∧
      u.rd (ck c 0xF) = 1 - s.rd (ck c 0xF) ∧ (u.chainRec c).swapFor = none ∧ (u.chainRec c).line = (s.chainRec c).line ∧
      (u.chainRec c).fir = (s.chainRec c).fir ∧ (u.chainRec c).gridP = (s.chainRec c).gridP) := by
  refine ⟨(s.begin t).chainSwapped c, rfl, ?_⟩
  have heq : (s.begin t).chainSwapped c = (s.begin t).chainSwap c := if_pos hswap
  rw [heq]
  beta_reduce
  obtain ⟨h2, h1, hbank, hrec⟩ := State.chainSwap_swaps c (s.begin t)
  rw [hrec]
  exact ⟨h2, h1, hbank, rfl, rfl, rfl, rfl⟩

end

/-! ### The obligation -/

/-- Settles O29: what the takers of a tap value and a loss leave of a chain, then command by command. -/
theorem chainCommandsComplete : Obligations.ChainCommandsComplete := by
  unfold Obligations.ChainCommandsComplete
  exact ⟨fun _ _ _ _ _ hsd hon hdue hlen hle => decimationInstant_sums hsd hon hdue hlen hle, fun _ _ _ _ hsd _ hloss => sigmaDeltaLoss_shows hsd hloss,
    fun _ _ _ _ _ hon hheld => fastTapOutput_releases hon hheld, fun _ _ _ htracker hlost hdue => trackingLostTimeout_shows htracker hlost hdue,
    fun _ _ _ _ hs hp => chainEnable_restarts hs hp, fun _ _ _ _ _ hs hp hlen => chainBankWrite_loads hs hp hlen,
    fun _ _ _ _ _ hs hp => ⟨fun hvalid hlat => chainSwapRequest_takes hs hp hvalid hlat,
      fun hvalid hlat => chainSwapRequest_fails hs hp (by decide) (chainSwapEff_late hvalid hlat),
      fun hvalid => chainSwapRequest_fails hs hp (by decide) (chainSwapEff_invalid hvalid)⟩,
    fun _ _ _ hswap => chainBankSwapped_swaps hswap, fun _ _ _ _ _ hs hp => detectorWindowWrite_restarts hs hp⟩

end Sys2Proof.Machine
end

section
/-! Settles O33 (LinkCommandsComplete; R203, R210, R212 to R215, R219, R220, R222, R224): the commands of the Uluiz links at the module. What a change of
the module's state and what the blocks that come with it leave of the links, their nodes and their frames; then command by command. -/

namespace Sys2Proof.Machine

/-! ### What a change of the module's state leaves of the links -/

/-- The entry belongs to the objects of the nodes or of the links. -/
abbrev LinkKey (j : Nat) : Prop := key 0x3400 0 ≤ j ∧ j < key 0x4000 0

/-- From s to u the entries of nodes and links and the sealed edges of the batches stay, and no frame departs. -/
structure LinksLeft (s u : State) : Prop where
  entries : ∀ j, LinkKey j → Tbl.find? j u.od = Tbl.find? j s.od
  edges : ∀ b, (u.batch b).edges = (s.batch b).edges
  frames : ∀ i bytes, Output.msg "FRAME" [i] bytes ∈ u.out → Output.msg "FRAME" [i] bytes ∈ s.out

namespace LinksLeft

variable {s t u : State}

theorem refl (s : State) : LinksLeft s s := ⟨fun _ _ => rfl, fun _ => rfl, fun _ _ h => h⟩

theorem trans (h : LinksLeft s t) (g : LinksLeft t u) : LinksLeft s u :=
  ⟨fun j hj => (g.entries j hj).trans (h.entries j hj), fun b => (g.edges b).trans (h.edges b), fun i l hf => h.frames i l (g.frames i l hf)⟩

theorem of_ite {p : Prop} [Decidable p] (h : LinksLeft s t) (g : LinksLeft s u) : LinksLeft s (if p then t else u) := by
  split
  · exact h
  · exact g

theorem each {α : Type} {l : List α} {f : α → State → State} (h : ∀ a ∈ l, ∀ t, LinksLeft t (f a t)) (s : State) : LinksLeft s (s.each l f) :=
  State.each_keeps (P := LinksLeft s) (fun a ha t ht => ht.trans (h a ha t)) (refl s)

theorem of_entries (ho : u.out = s.out) (hb : u.batches = s.batches) (h : ∀ j, LinkKey j → Tbl.find? j u.od = Tbl.find? j s.od) : LinksLeft s u :=
  ⟨h, fun b => congrArg (fun l => (Tbl.get ({} : BatchRec) b l).edges) hb, fun _ _ hf => ho ▸ hf⟩

theorem of_eq (ho : u.out = s.out) (hb : u.batches = s.batches) (h : u.od = s.od) : LinksLeft s u := of_entries ho hb fun _ _ => by rw [h]

theorem wr {k : Nat} (hk : ∀ j, LinkKey j → j ≠ k) (v : Int) (s : State) : LinksLeft s (s.wr k v) :=
  of_entries rfl rfl fun j hj => State.find?_wr_ne (hk j hj) s v

theorem setBit {k : Nat} (hk : ∀ j, LinkKey j → j ≠ k) (i : Nat) (v : Bool) (s : State) : LinksLeft s (s.setBit k i v) := wr hk _ s

theorem inc {k : Nat} (hk : ∀ j, LinkKey j → j ≠ k) (s : State) : LinksLeft s (s.inc k) := wr hk _ s

theorem setBatch {b : Nat} {r : BatchRec} {s : State} (hr : r.edges = (s.batch b).edges) : LinksLeft s (s.setBatch b r) := by
  refine ⟨fun _ _ => rfl, fun b' => ?_, fun _ _ hf => hf⟩
  by_cases h : b' = b
  · subst h
    rw [State.batch_setBatch_same, hr]
  · rw [State.batch_setBatch_other _ _ _ h]

theorem msg {kind : String} {l : List Int} (hk : kind ≠ "FRAME" ∨ l.length ≠ 1) (bytes : List Byte) (s : State) : LinksLeft s (s.msg kind l bytes) := by
  refine ⟨fun _ _ => rfl, fun _ => rfl, fun i b hf => ?_⟩
  obtain hf | hf := List.mem_append.1 hf
  · exact hf
  · have heq : Output.msg "FRAME" [i] b = Output.msg kind l bytes := List.mem_singleton.1 hf
    injection heq with h1 h2
    subst h1 h2
    simp at hk

theorem rack (x : Rack) (s : State) : LinksLeft s { s with rack := x } := of_eq rfl rfl rfl

theorem net (x : Net) (s : State) : LinksLeft s { s with net := x } := of_eq rfl rfl rfl

theorem srv (x : Server) (s : State) : LinksLeft s { s with srv := x } := of_eq rfl rfl rfl

theorem power (x : Power) (s : State) : LinksLeft s { s with power := x } := of_eq rfl rfl rfl

theorem rackMsg (kind : String) (dst : Nat) (l : List Int) (s : State) : LinksLeft s (s.rackMsg kind dst l) :=
  (of_eq rfl rfl rfl : LinksLeft s (s.modRack _)).trans (msg (.inr (by simp)) _ _)

end LinksLeft

/-- Frames that stand among the messages stood there before. -/
def NoFrames (s u : State) : Prop := ∀ i bytes, Output.msg "FRAME" [i] bytes ∈ u.out → Output.msg "FRAME" [i] bytes ∈ s.out

theorem NoFrames.of_eq {s u : State} (h : u.out = s.out) : NoFrames s u := fun _ _ hf => h ▸ hf

theorem noFrames_eventRel : EventRel NoFrames where
  refl _ := .of_eq rfl
  trans h g i l hf := h i l (g i l hf)
  put code inst data s := by
    have henq (e : Event) (s : State) : (s.enqueueEvent e).out = s.out := by
      unfold State.enqueueEvent
      lift_lets
      intro lost
      have hlost (s : State) : (lost s).out = s.out := rfl
      simp only [apply_ite State.out, State.wr_out, hlost, ite_self]
    have hemcy (e : Event) (s : State) : LinksLeft s (s.emcy e) :=
      LinksLeft.each (fun k _ t => LinksLeft.of_ite (LinksLeft.msg (.inl (by decide)) _ t) (LinksLeft.refl t)) s
    unfold State.putEvent
    lift_lets
    intro src r e taken
    split
    · exact NoFrames.of_eq rfl
    · exact fun i l hf => (henq e taken ▸ (hemcy e (taken.enqueueEvent e)).frames i l hf : Output.msg "FRAME" [i] l ∈ taken.out)
  wr _ _ _ := .of_eq rfl
  trig _ _ _ := .of_eq rfl
  capture _ _ _ s := .of_eq (State.captureFire_out _ _ _ s)
  tell kind dst l s := (LinksLeft.rackMsg kind dst l s).frames

theorem LinkKey.low {j : Nat} (hj : LinkKey j) : j < key 0x7000 0 := by
  simp only [LinkKey, key] at hj ⊢
  omega

theorem State.logEvent_left (code inst : Nat) (data : List Byte) (s : State) : LinksLeft s (s.logEvent code inst data) :=
  ⟨fun _ hj => State.find?_logEvent hj.low code inst data s, fun b => by rw [State.batch, State.logEvent_batches, State.batch],
    noFrames_eventRel.logEvent code inst data s⟩

theorem LinkKey.ne_batch {o a b : Nat} (j : Nat) (hj : LinkKey j) : j ≠ bk o a b := by
  simp only [LinkKey, bk, key] at hj ⊢
  omega

theorem LinkKey.ne_gen {g a : Nat} (j : Nat) (hj : LinkKey j) : j ≠ key (0x6600 + g) a := by
  simp only [LinkKey, key] at hj ⊢
  omega

theorem LinkKey.ne_fabric {g a : Nat} (j : Nat) (hj : LinkKey j) : j ≠ key (0x6500 + g) a := by
  simp only [LinkKey, key] at hj ⊢
  omega

theorem LinkKey.ne_chan {c a : Nat} (hc : c < 256) (ha : a < 256) (j : Nat) (hj : LinkKey j) : j ≠ key (0x3000 + c) a := by
  simp only [LinkKey, key] at hj ⊢
  omega

theorem LinkKey.ne_low {k : Nat} (hk : k < key 0x3400 0) (j : Nat) (hj : LinkKey j) : j ≠ k := by
  simp only [LinkKey] at hj
  omega

theorem State.chanOff_left {c : Nat} (hc : c < 256) (s : State) : LinksLeft s (s.chanOff c) := by
  unfold State.chanOff
  extract_lets r cut
  have h₁ (r : ChanRec) : LinksLeft s (s.setChan c r) := LinksLeft.of_eq rfl rfl rfl
  exact ((h₁ _).trans (LinksLeft.wr (LinkKey.ne_chan hc (by decide)) _ _)).trans (LinksLeft.setBit (LinkKey.ne_chan hc (by decide)) _ _ _)

theorem State.endTest_left {c : Nat} (hc : c < 256) (s : State) : LinksLeft s (s.endTest c) := by
  have hset (r : ChanRec) (t : State) : LinksLeft t (t.setChan c r) := LinksLeft.of_eq rfl rfl rfl
  exact LinksLeft.of_ite ((State.chanOff_left hc s).trans (hset _ _)) (LinksLeft.refl s)

theorem State.pulseBlock_left (b : Nat) (s : State) : LinksLeft s (s.pulseBlock b) := by
  have h₁ : LinksLeft s (s.modBatch b (fun r => { r with outOn := false, outDue := none, seeded := false })) := LinksLeft.setBatch rfl
  exact h₁.trans (LinksLeft.each (fun _ hc t => State.chanOff_left (mem_members_lt hc) t) _)

theorem State.useTarget_left (g : Nat) (v : F32) (s : State) : LinksLeft s (s.useTarget g v) := by
  have h₁ (r : GenSlot) : LinksLeft s (s.setGen g r) := LinksLeft.of_eq rfl rfl rfl
  exact (h₁ _).trans (LinksLeft.inc LinkKey.ne_gen _)

theorem State.freeTarget_left (g : Nat) (s : State) : LinksLeft s (s.freeTarget g) := by
  have h₁ (r : GenSlot) : LinksLeft s (s.setGen g r) := LinksLeft.of_eq rfl rfl rfl
  exact LinksLeft.of_ite (LinksLeft.refl s) ((h₁ _).trans (State.useTarget_left g _ _))

theorem State.withGen_left (b i : Nat) {f : Nat → State → State} (h : ∀ g t, LinksLeft t (f g t)) (s : State) : LinksLeft s (s.withGen b i f) := by
  unfold State.withGen
  split
  · exact h _ s
  · exact LinksLeft.refl s

theorem State.leaveState_left (b : Nat) (old new : BatchState) (s : State) : LinksLeft s (s.leaveState b old new) := by
  have hfree (i : Nat) (t : State) : LinksLeft t (t.withGen b i State.freeTarget) := State.withGen_left b i State.freeTarget_left t
  have hset (g : Nat) (r : GenSlot) (t : State) : LinksLeft t (t.setGen g r) := LinksLeft.of_eq rfl rfl rfl
  unfold State.leaveState
  lift_lets
  intro s1 s2 s3 held s4 s5 s6 s7 s8 s9
  have h1 : LinksLeft s s1 := LinksLeft.of_ite (LinksLeft.each (fun _ hc t => State.endTest_left (mem_members_lt hc) t) s) (LinksLeft.refl s)
  have h2 : LinksLeft s1 s2 :=
    LinksLeft.of_ite ((LinksLeft.wr LinkKey.ne_batch _ s1).trans (LinksLeft.wr LinkKey.ne_batch _ _)) (LinksLeft.refl s1)
  have h3 : LinksLeft s2 s3 := LinksLeft.of_ite ((hfree 0 s2).trans (hfree 1 _)) (LinksLeft.refl s2)
  have h4 : LinksLeft s3 s4 := LinksLeft.setBatch rfl
  have h5 : LinksLeft s4 s5 := (LinksLeft.setBit LinkKey.ne_batch _ _ s4).trans (LinksLeft.setBit LinkKey.ne_batch _ _ _)
  have h6 : LinksLeft s3 s6 := by
    refine LinksLeft.of_ite ((h4.trans h5).trans (State.withGen_left b 3 (fun g t => ?_) s5)) (LinksLeft.refl s3)
    have hheld : LinksLeft t (if held then (t.setGen g { (t.gen g) with holding := false }).setBit (key (0x6600 + g) 0xC) 2 false else t) :=
      LinksLeft.of_ite ((hset g _ t).trans (LinksLeft.setBit LinkKey.ne_gen _ _ _)) (LinksLeft.refl t)
    exact (hheld.trans (hset g _ _)).trans (State.freeTarget_left g _)
  have h7 : LinksLeft s6 s7 := LinksLeft.each (fun i _ t => LinksLeft.setBit LinkKey.ne_batch i false t) s6
  have h8 : LinksLeft s6 s8 := LinksLeft.of_ite ((h7.trans (hfree 2 s7)).trans (hfree 3 _)) (LinksLeft.refl s6)
  have h9 : LinksLeft s8 s9 := by
    refine LinksLeft.of_ite (LinksLeft.refl s8) ?_
    have hw : LinksLeft s8 (s8.wr (bk 0x15 5 b) 0) := LinksLeft.wr LinkKey.ne_batch _ s8
    exact hw.trans (LinksLeft.setBatch rfl)
  have h10 : LinksLeft s9 (if old == .currentLimited then s9.setBit (bk 9 0xC b) 2 false else s9) :=
    LinksLeft.of_ite (LinksLeft.setBit LinkKey.ne_batch _ _ s9) (LinksLeft.refl s9)
  exact (((((h1.trans h2).trans h3).trans h6).trans h8).trans h9).trans h10

theorem State.setState_left (b : Nat) (new : BatchState) (cause : Nat) (s : State) : LinksLeft s (s.setState b new cause) := by
  unfold State.setState
  lift_lets
  intro old s1 s2 s3
  have h1 : LinksLeft s s1 := State.leaveState_left b old new s
  have h2 : LinksLeft s1 s2 :=
    ((LinksLeft.wr LinkKey.ne_batch _ s1).trans (LinksLeft.wr LinkKey.ne_batch _ _)).trans (LinksLeft.inc LinkKey.ne_batch _)
  have h3 : LinksLeft s2 s3 := LinksLeft.setBatch rfl
  exact LinksLeft.of_ite (LinksLeft.refl s) (((h1.trans h2).trans h3).trans (State.logEvent_left ..))

theorem State.blockBatch_left (b src : Nat) (detail : List Byte) (s : State) : LinksLeft s (s.blockBatch b src detail) := by
  unfold State.blockBatch
  lift_lets
  intro st fresh s1 named s2 s3 s4
  have h1 : LinksLeft s s1 := LinksLeft.wr LinkKey.ne_batch _ s
  have h2 : LinksLeft s1 s2 := State.pulseBlock_left b s1
  have h3 : LinksLeft s2 s3 :=
    ((LinksLeft.wr LinkKey.ne_batch _ s2).trans (LinksLeft.wr LinkKey.ne_batch _ _)).trans (LinksLeft.inc LinkKey.ne_batch _)
  have h4 : LinksLeft s3 s4 := LinksLeft.setBatch rfl
  have hoff : LinksLeft s ((s.each (s.members b) State.endTest).pulseBlock b) :=
    (LinksLeft.each (fun _ hc t => State.endTest_left (mem_members_lt hc) t) s).trans (State.pulseBlock_left b _)
  have hamend (hit : Event → Bool) (f : List Byte → List Byte) (t : State) : LinksLeft t (t.amendEvent hit f) := LinksLeft.of_eq rfl rfl rfl
  have hjoin : LinksLeft s1 (s1.joinBlock b src detail) := (LinksLeft.wr LinkKey.ne_batch _ s1).trans (hamend _ _ _)
  refine LinksLeft.of_ite hoff (LinksLeft.of_ite (LinksLeft.refl s) (LinksLeft.of_ite (LinksLeft.of_ite (h1.trans hjoin) h1) ?_))
  exact ((((h1.trans h2).trans h3).trans h4).trans (State.logEvent_left ..)).trans (State.setState_left ..)

theorem State.runAdmission_left (figs : List Fig) (s : State) : LinksLeft s (s.runAdmission figs).2 := by
  have hwr (a : Nat) (v : Int) (t : State) : LinksLeft t (t.wr (key 0x6530 a) v) := LinksLeft.wr (LinkKey.ne_fabric (g := 0x30)) v t
  have hreport (r f : Nat) (t : State) : LinksLeft t (t.reportAdm r f) := by
    unfold State.reportAdm
    extract_lets s1
    have h₁ : LinksLeft t s1 := ((hwr 5 _ t).trans (hwr 6 _ _)).trans (hwr 7 _ _)
    exact LinksLeft.of_ite (h₁.trans (hwr _ _ _)) h₁
  have hlanes (t : State) : LinksLeft t t.syncLanes := (((hwr _ _ _).trans (hwr _ _ _)).trans (hwr _ _ _)).trans (hwr _ _ _)
  have hplan (a : Adm) (t : State) : LinksLeft t (t.applyPlan a) := by
    have hq (q sub : Nat) (v : Int) (u : State) : LinksLeft u (u.wr (key (0x6500 + q) sub) v) := LinksLeft.wr LinkKey.ne_fabric v u
    unfold State.applyPlan
    extract_lets s1 s2 load
    have h₁ : LinksLeft t s1 := by
      refine LinksLeft.each (fun q _ u => ?_) t
      have hcount (b : Nat) : LinksLeft u (u.recounted b q) := by
        unfold State.recounted
        extract_lets o
        split
        · exact ((hq q _ _ u).trans (hq q _ _ _)).trans (hq q _ _ _)
        · exact ((hq q _ _ u).trans (hq q _ _ _)).trans (hq q _ _ _)
      extract_lets o
      split
      · exact ((hcount _).trans (hq q _ _ _)).trans (hq q _ _ _)
      · exact ((((hq q _ _ u).trans (hq q _ _ _)).trans (hq q _ _ _)).trans (hq q _ _ _)).trans (hq q _ _ _)
    have h₂ : LinksLeft s1 s2 := by
      refine LinksLeft.each (fun b _ u => ?_) s1
      extract_lets r
      split
      · exact LinksLeft.of_ite (LinksLeft.refl u) (LinksLeft.of_ite (LinksLeft.setBatch rfl) (LinksLeft.setBatch rfl))
      · exact LinksLeft.of_ite (LinksLeft.setBatch rfl) (LinksLeft.of_ite (LinksLeft.setBatch rfl) (LinksLeft.setBatch rfl))
    exact (h₁.trans h₂).trans (hwr _ _ _)
  unfold State.runAdmission
  extract_lets a f
  split
  · exact ((LinksLeft.of_ite (hplan f s) (LinksLeft.refl s)).trans (hreport _ _ _)).trans (hlanes _)
  · exact hreport _ _ _

theorem State.queuesInForce_left (s : State) : LinksLeft s s.queuesInForce := by
  unfold State.queuesInForce
  extract_lets s1 s2
  have hqueue (q : Nat) (r : QueueRec) (t : State) : LinksLeft t (t.setQueue q r) := LinksLeft.of_eq rfl rfl rfl
  have h₁ : LinksLeft s s1 := LinksLeft.each (fun q _ t => hqueue q _ t) s
  have h₂ : LinksLeft s1 s2 := by
    refine LinksLeft.each (fun g _ t => ?_) s1
    extract_lets f t₁
    have hw : LinksLeft t t₁ := LinksLeft.of_eq rfl rfl rfl
    have hne (j : Nat) (hj : LinkKey j) : j ≠ key (0x6520 + g) 2 := by
      simp only [LinkKey, key] at hj ⊢
      omega
    exact hw.trans (LinksLeft.wr hne _ _)
  exact (h₁.trans h₂).trans (State.runAdmission_left _ _)

theorem State.coordination_left (s : State) : LinksLeft s s.coordination := by
  refine LinksLeft.each (fun b _ t => ?_) s
  extract_lets l t₁
  have h₁ : LinksLeft t t₁ := LinksLeft.setBit LinkKey.ne_batch _ _ t
  exact h₁.trans (LinksLeft.each (fun i _ u => State.logEvent_left ..) t₁)

theorem State.confRevs_left (s : State) : LinksLeft s s.confRevs := by
  refine LinksLeft.each (fun g hg t => ?_) s
  extract_lets r m
  have hg' : g < 8 := List.mem_range.1 hg
  refine LinksLeft.of_ite (LinksLeft.refl t) ?_
  have hinc (u : State) : LinksLeft u (u.inc (key (0x2740 + g) 9)) := LinksLeft.inc (LinkKey.ne_low (by simp only [key]; omega)) u
  exact (LinksLeft.net _ t).trans (hinc _)

theorem State.bootUp_left (s : State) : LinksLeft s s.bootUp := by
  refine LinksLeft.each (fun k _ t => ?_) s
  refine LinksLeft.of_ite (LinksLeft.refl t) ?_
  extract_lets n t₁
  have h₁ : LinksLeft t t₁ := LinksLeft.net _ t
  exact LinksLeft.of_ite (h₁.trans (LinksLeft.msg (.inl (by decide)) _ _)) h₁

/-- The module enters a state: no link, node, sealed edge or frame is touched. -/
theorem State.setMod_left (new : ModState) (s : State) : LinksLeft s (s.setMod new) := by
  have hmod (a : Nat) (ha : a < 256) (v : Int) (t : State) : LinksLeft t (t.wr (key 0x2000 a) v) :=
    LinksLeft.wr (LinkKey.ne_low (by simp only [key]; omega)) v t
  unfold State.setMod
  lift_lets
  intro old runs s1 s2 s3 s4 r s5
  have h1 : LinksLeft s s1 := ((hmod 2 (by decide) _ s).trans (hmod 1 (by decide) _ _)).trans (State.logEvent_left ..)
  have h2 : LinksLeft s1 s2 := LinksLeft.of_ite (LinksLeft.each (fun b _ t => State.blockBatch_left b 4096 [] t) s1) (LinksLeft.refl s1)
  have h3 : LinksLeft s2 s3 := LinksLeft.of_ite (hmod 9 (by decide) 0 s2) (LinksLeft.refl s2)
  have h4 : LinksLeft s3 s4 :=
    LinksLeft.of_ite (((hmod 8 (by decide) 0 s3).trans (LinksLeft.srv _ _)).trans (State.bootUp_left _)) (LinksLeft.refl s3)
  have h5 : LinksLeft s4 s5 := LinksLeft.of_ite (LinksLeft.rack _ s4) (LinksLeft.of_ite (LinksLeft.rack _ s4) (LinksLeft.refl s4))
  have h : LinksLeft s s5 := (((h1.trans h2).trans h3).trans h4).trans h5
  clear_value s5
  refine LinksLeft.of_ite (LinksLeft.refl s) (LinksLeft.of_ite (h.trans ?_) h)
  have htests : LinksLeft s5.queuesInForce (s5.queuesInForce.each (List.range 256) State.endTest) :=
    LinksLeft.each (fun c hc t => State.endTest_left (List.mem_range.1 hc) t) _
  exact (((State.queuesInForce_left s5).trans htests).trans (State.coordination_left _)).trans (State.confRevs_left _)

theorem State.handoverFailed_left (s : State) : LinksLeft s s.handoverFailed :=
  LinksLeft.of_ite ((LinksLeft.power _ s).trans (State.setMod_left _ _)) (LinksLeft.refl s)

theorem State.dropAuthority_left (turn : Option Time) (s : State) : LinksLeft s (s.dropAuthority turn) := by
  have htwin (a : Nat) (ha : a < 256) (v : Int) (t : State) : LinksLeft t (t.wr (twk a) v) :=
    LinksLeft.wr (LinkKey.ne_low (by simp only [twk, key]; omega)) v t
  have hcount (a : Nat) (ha : a < 256) (t : State) : LinksLeft t (t.inc (twk a)) := htwin a ha _ t
  unfold State.dropAuthority
  lift_lets
  intro s1 s2 s3 p s4 cause s5
  have h1 : LinksLeft s s1 := (htwin 7 (by decide) _ s).trans (htwin 0x12 (by decide) _ _)
  have h2 : LinksLeft s1 s2 :=
    LinksLeft.of_ite (((hcount 0x11 (by decide) s1).trans (htwin 0x13 (by decide) _ _)).trans (LinksLeft.rack _ _))
      ((hcount 0x10 (by decide) s1).trans (LinksLeft.rack _ _))
  have h3 : LinksLeft s2 s3 := LinksLeft.of_ite (State.setMod_left _ s2) (LinksLeft.refl s2)
  have h4 : LinksLeft s3 s4 := LinksLeft.of_ite ((LinksLeft.power _ s3).trans (State.setMod_left _ _)) (LinksLeft.refl s3)
  have h5 : LinksLeft s4 s5 := LinksLeft.rack _ s4
  have h : LinksLeft s s5 := (((h1.trans h2).trans h3).trans h4).trans h5
  have hbridges : LinksLeft s5 (s5.askBridges cause) := LinksLeft.of_ite (LinksLeft.rackMsg _ _ _ s5) (LinksLeft.refl s5)
  exact LinksLeft.of_ite (LinksLeft.refl s) (LinksLeft.of_ite (h.trans hbridges) h)

theorem State.supersede_left (s : State) : LinksLeft s s.supersede :=
  (State.dropAuthority_left none s).trans (LinksLeft.of_ite (State.setMod_left _ _) (LinksLeft.refl _))

/-! ### Frames depart (R203, R208) -/

/-- Over a list in which a occurs once, what a brings about from I stands at the end, where no other member undoes either. -/
theorem State.each_once {α : Type} {I Q : State → Prop} {l : List α} {f : α → State → State} {a : α} (ha : a ∈ l) (hl : l.Nodup)
    (hI : ∀ b ∈ l, b ≠ a → ∀ s, I s → I (f b s)) (hQ : ∀ s, I s → Q (f a s)) (hk : ∀ b ∈ l, b ≠ a → ∀ s, Q s → Q (f b s)) {s : State} (hs : I s) :
    Q (s.each l f) := by
  obtain ⟨l₁, l₂, rfl⟩ := List.append_of_mem ha
  obtain ⟨-, -, h⟩ := List.nodup_append.1 hl
  have hsplit : s.each (l₁ ++ a :: l₂) f = (f a (s.each l₁ f)).each l₂ f := by simp [State.each]
  have h₁ (b : α) (hb : b ∈ l₁) : b ≠ a := h b hb a List.mem_cons_self
  have h₂ (b : α) (hb : b ∈ l₂) : b ≠ a := fun hba => (List.nodup_cons.1 (List.nodup_append.1 hl).2.1).1 (hba ▸ hb)
  rw [hsplit]
  refine State.each_keeps (fun b hb => hk b (by simp [hb]) (h₂ b hb)) (hQ _ (State.each_keeps (fun b hb => hI b (by simp [hb]) (h₁ b hb)) hs))

/-- The step of a departure on link k. -/
def State.depart (tf : Time) (k : Nat) (s : State) : State :=
  ((s.msg "FRAME" [k] (s.frameBytes k tf (s.linkEdges k tf))).inc (lk k 0xB)).setLink k
    { s.link k with seq := ((s.link k).seq + 1) % 65536, req := (s.link k).req.map (fun q => { q with sent := some (q.sent.getD s.now) }) }

/-- The step of a departure on the edge buffer of batch b. -/
def State.edgesLeave (b : Nat) (s : State) : State :=
  if (s.batch b).edges.isEmpty then s
  else s.setBatch b { s.batch b with edges := (s.batch b).edges.filter (fun x => s.now < x.sealedAt + Time.ns 1500) }

/-- The links on which frames depart at tf. -/
def State.departing (tf : Time) (s : State) : List Nat := allLinks.filter (fun k => s.departs k && decide ((s.link k).next ≤ Time.toNs tf))

theorem State.frameDeparture_eq {s : State} (hgrid : s.modTime % framePeriod < 32) : s.frameDeparture =
    ((s.each (s.departing (s.modTime / framePeriod * framePeriod)) (State.depart (s.modTime / framePeriod * framePeriod))).each allBatches
      State.edgesLeave).checkNodes :=
  if_neg (not_le.2 hgrid)

theorem lk_ne_link {j k a b : Nat} (ha : a < 256) (hb : b < 256) (h : j = k → a ≠ b) : lk j a ≠ lk k b := by
  simp only [lk, key]
  omega

theorem lk_ne_node {k n a b : Nat} (ha : a < 256) (hb : b < 256) (h : a ≠ b) : lk k a ≠ ndk n b := by
  simp only [lk, ndk, key]
  omega

/-- What a departure on link k has done: a frame is sent and counted, and its request is on its way. -/
structure Departed (k : Nat) (s u : State) : Prop where
  count : u.rdN (lk k 0xB) = (s.rdN (lk k 0xB) + 1) % 2 ^ 32
  link : u.link k = { s.link k with seq := ((s.link k).seq + 1) % 65536, req := (s.link k).req.map (fun q => { q with sent := some (q.sent.getD s.now) }) }
  sent : ∃ bytes, Output.msg "FRAME" [k] bytes ∈ u.out

/-- Link k stands as before. -/
structure LinkStands (k : Nat) (s u : State) : Prop where
  count : u.rdN (lk k 0xB) = s.rdN (lk k 0xB)
  link : u.link k = s.link k

section
variable {tf : Time} {k : Nat} {s u : State}

theorem State.depart_other {j : Nat} (hk : k < 24) (h : j ≠ k) (s : State) : LinkStands k s (s.depart tf j) := by
  refine ⟨?_, State.link_setLink_other _ _ _ h.symm⟩
  exact State.rdN_wr_ne (lk_ne_link (by decide) (by decide) fun h' => absurd h'.symm h) (ownDefault_lk hk (by decide)) _ _

theorem State.depart_same (s : State) : Departed k s (s.depart tf k) :=
  ⟨State.rdN_inc_same (lk k 0xB) 1 _, State.link_setLink_same .., _, List.mem_append_right _ (List.mem_singleton.2 rfl)⟩

theorem State.depart_msg {j : Nat} (h : j ≠ k) {bytes : List Byte} (hu : Output.msg "FRAME" [(k : Int)] bytes ∉ s.out) :
    Output.msg "FRAME" [(k : Int)] bytes ∉ (s.depart tf j).out := by
  intro hmem
  obtain hmem | hmem := List.mem_append.1 hmem
  · exact hu hmem
  · have heq := List.mem_singleton.1 hmem
    injection heq with _ hl
    injection hl with hjk
    exact h (Int.ofNat_inj.1 hjk).symm

theorem LinkStands.refl (k : Nat) (s : State) : LinkStands k s s := ⟨rfl, rfl⟩

theorem LinkStands.trans {v : State} (h : LinkStands k s u) (g : LinkStands k u v) : LinkStands k s v := ⟨g.count.trans h.count, g.link.trans h.link⟩

theorem LinkStands.departed {v : State} (h : LinkStands k s u) (hnow : u.now = s.now) (g : Departed k u v) : Departed k s v :=
  ⟨by rw [g.count, h.count], by rw [g.link, h.link, hnow], g.sent⟩

theorem Departed.stands {v : State} (h : Departed k s u) (g : LinkStands k u v) (ho : u.out <+: v.out) : Departed k s v :=
  ⟨g.count.trans h.count, g.link.trans h.link, h.sent.imp fun _ hm => ho.subset hm⟩

theorem State.mem_departing_lt {j : Nat} (hj : j ∈ s.departing tf) : j < 24 := List.mem_range.1 (List.mem_filter.1 hj).1

theorem State.departing_nodup (tf : Time) (s : State) : (s.departing tf).Nodup := List.nodup_range.filter _

/-- The departures leave the instant and the batches. -/
theorem State.departures_leave (tf : Time) (l : List Nat) (s : State) : (s.each l (State.depart tf)).now = s.now ∧ (s.each l (State.depart tf)).batches = s.batches :=
  ⟨State.each_eq State.now (by intros; rfl) s, State.each_eq State.batches (by intros; rfl) s⟩

theorem State.departures_depart (hk : k ∈ s.departing tf) : Departed k s (s.each (s.departing tf) (State.depart tf)) := by
  have hk24 := State.mem_departing_lt hk
  have h := State.each_once (f := State.depart tf) (I := fun u => LinkStands k s u ∧ u.now = s.now) (Q := Departed k s) hk (State.departing_nodup tf s)
    (fun j _ hne u hu => ⟨hu.1.trans (State.depart_other hk24 hne u), hu.2⟩)
    (fun u hu => hu.1.departed hu.2 (State.depart_same u))
    (fun j _ hne u hu => hu.stands (State.depart_other hk24 hne u) (List.prefix_append _ _))
    (s := s) ⟨LinkStands.refl k s, rfl⟩
  exact h

theorem State.departures_pass (hk : k < 24) (hnot : k ∉ s.departing tf) : LinkStands k s (s.each (s.departing tf) (State.depart tf)) ∧
    ∀ bytes, Output.msg "FRAME" [(k : Int)] bytes ∉ s.out → Output.msg "FRAME" [(k : Int)] bytes ∉ (s.each (s.departing tf) (State.depart tf)).out := by
  have hne (j : Nat) (hj : j ∈ s.departing tf) : j ≠ k := fun h => hnot (h ▸ hj)
  refine ⟨State.each_keeps (P := LinkStands k s) (fun j hj u hu => hu.trans (State.depart_other hk (hne j hj) u)) (LinkStands.refl k s),
    fun bytes hs => ?_⟩
  exact State.each_keeps (P := fun u => Output.msg "FRAME" [(k : Int)] bytes ∉ u.out) (fun j hj u hu => State.depart_msg (hne j hj) hu) hs

end

theorem State.edgesLeave_same (b : Nat) (s : State) : ((s.edgesLeave b).batch b).edges = (s.batch b).edges.filter (fun x => s.now < x.sealedAt + Time.ns 1500) := by
  unfold State.edgesLeave
  split
  case isTrue h => rw [List.isEmpty_iff.1 h, List.filter_nil]
  case isFalse => rw [State.batch_setBatch_same]

theorem State.edgesLeave_other {b b' : Nat} (h : b ≠ b') (s : State) : (s.edgesLeave b').batch b = s.batch b := by
  unfold State.edgesLeave
  split
  · rfl
  · exact State.batch_setBatch_other _ _ _ h

theorem State.edgesLeave_leaves (b : Nat) (s : State) : (s.edgesLeave b).now = s.now ∧ (s.edgesLeave b).od = s.od ∧ (s.edgesLeave b).links = s.links ∧
    (s.edgesLeave b).out = s.out ∧ (s.edgesLeave b).power = s.power := by
  unfold State.edgesLeave
  split
  · exact ⟨rfl, rfl, rfl, rfl, rfl⟩
  · exact ⟨rfl, rfl, rfl, rfl, rfl⟩

theorem State.buffers_leave (s : State) : (s.each allBatches State.edgesLeave).od = s.od ∧ (s.each allBatches State.edgesLeave).links = s.links ∧
    (s.each allBatches State.edgesLeave).out = s.out ∧
    ∀ b : Batch, ((s.each allBatches State.edgesLeave).batch b).edges = (s.batch b).edges.filter (fun x => s.now < x.sealedAt + Time.ns 1500) := by
  refine ⟨State.each_eq State.od (fun b _ u => (u.edgesLeave_leaves b).2.1) s, State.each_eq State.links (fun b _ u => (u.edgesLeave_leaves b).2.2.1) s,
    State.each_eq State.out (fun b _ u => (u.edgesLeave_leaves b).2.2.2.1) s, fun b => ?_⟩
  have h := State.each_once (f := State.edgesLeave) (I := fun u => u.now = s.now ∧ u.batch b = s.batch b)
    (Q := fun u => (u.batch b).edges = (s.batch b).edges.filter (fun x => s.now < x.sealedAt + Time.ns 1500))
    (List.mem_range.2 b.isLt) List.nodup_range
    (fun b' _ hne u hu => ⟨(u.edgesLeave_leaves b').1.trans hu.1, (State.edgesLeave_other hne.symm u).trans hu.2⟩)
    (fun u hu => by rw [State.edgesLeave_same, hu.1, hu.2])
    (fun b' _ hne u hu => by rw [State.edgesLeave_other hne.symm, hu]) (s := s) ⟨rfl, rfl⟩
  exact h

theorem State.checkNodes_leaves {k : Nat} (hk : k < 24) (s : State) : s.checkNodes.links = s.links ∧ s.checkNodes.out = s.out ∧ s.checkNodes.batches = s.batches ∧
    s.checkNodes.now = s.now ∧ s.checkNodes.rdN (lk k 0xB) = s.rdN (lk k 0xB) := by
  refine ⟨State.each_eq State.links (by intros; rfl) s, State.each_eq State.out (by intros; rfl) s, State.each_eq State.batches (by intros; rfl) s,
    State.each_eq State.now (by intros; rfl) s, State.each_eq (fun u => u.rdN (lk k 0xB)) (fun n _ u => ?_) s⟩
  have hne (a : Nat) (ha : a < 256) (h : 0xB ≠ a) (v : Int) (w : State) : (w.wr (ndk n a) v).rdN (lk k 0xB) = w.rdN (lk k 0xB) :=
    State.rdN_wr_ne (lk_ne_node (by decide) ha h) (ownDefault_lk hk (by decide)) v w
  exact (hne 0x1A (by decide) (by decide) _ _).trans (hne 5 (by decide) (by decide) _ u)

/-! ### Authority at a departure (R311, R313, R326) -/

theorem State.authorityAt_idle {s : State} (hg : s.rack.grant = none) (hr : s.rack.revoke = none) : s.authorityAt = s := by
  unfold State.authorityAt
  simp only [hr, hg]

theorem State.removalProgress_idle {s : State} (h : s.power.removal = none) : s.removalProgress = s := by
  unfold State.removalProgress
  exact if_pos (by simp [h])

theorem State.handoverFailed_power (s : State) : ∃ p, s.handoverFailed.power = { s.power with holdAfter := p } := by
  unfold State.handoverFailed
  split
  · exact ⟨false, (State.setMod_kept (Sub.refl _) (Kept.refl _ _)).powerSame rfl⟩
  · exact ⟨s.power.holdAfter, rfl⟩

theorem State.handoverFailed_set (s : State) : Kept 0x7fffffffffff00000000307e164 s s.handoverFailed := State.handoverFailed_kept (Sub.refl _) (Kept.refl _ s)

theorem State.handoverFailed_link (k : Nat) (s : State) : s.handoverFailed.link k = s.link k :=
  congrArg (fun l : Links => Tbl.get ({} : LinkRec) k l.links) ((State.handoverFailed_set s).linksSame rfl)

theorem linkKey_lk {k a : Nat} (hk : k < 24) (ha : a < 256) : LinkKey (lk k a) := by
  simp only [LinkKey, lk, key]
  omega

theorem State.handoverFailed_rd {k a : Nat} (hk : k < 24) (ha : a < 256) (s : State) : s.handoverFailed.rd (lk k a) = s.rd (lk k a) :=
  State.rd_congr (ownDefault_lk hk ha) ((State.handoverFailed_left s).entries _ (linkKey_lk hk ha))

theorem State.handoverFailed_lit {k : Nat} (hk : k < 24) (s : State) : s.handoverFailed.lit k = s.lit k := by
  obtain ⟨p, hp⟩ := State.handoverFailed_power s
  have hon : s.handoverFailed.rdB (lk k 1) = s.rdB (lk k 1) := congrArg (· != 0) (State.handoverFailed_rd hk (by decide) s)
  have hdom : s.handoverFailed.domOn 4 = s.domOn 4 :=
    congrArg (fun x : Int => x.toNat == 2) ((State.handoverFailed_set s).rd_eq (k := dk 4) (z := zone (dk 4)) rfl (by decide) (by decide))
  unfold State.lit
  rw [hon, hdom, hp]

theorem State.handoverFailed_modTime (s : State) : s.handoverFailed.modTime = s.modTime := by
  have h := State.handoverFailed_set s
  rw [State.modTime, h.now, h.clockSame rfl, State.modTime]

theorem State.handoverFailed_departs {k : Nat} (hk : k < 24) (s : State) : s.handoverFailed.departs k = s.departs k := by
  have h3 : s.handoverFailed.rdN (lk k 3) = s.rdN (lk k 3) := congrArg Int.toNat (State.handoverFailed_rd hk (by decide) s)
  unfold State.departs
  rw [State.handoverFailed_lit hk, h3, State.handoverFailed_link]

theorem State.frameDeparture_power (s : State) : s.frameDeparture.power = s.power := (State.frameDeparture_kept (Sub.refl _) (Kept.refl _ s)).powerSame rfl

section
variable {t : Time} {k : LinkNo} {s : State}

/-- With nothing of authority or removal pending, a departure is that after a failed handover. -/
theorem frameDeparture_outcome (hg : s.rack.grant = none) (hr : s.rack.revoke = none) (hrem : s.power.removal = none) :
    exec (.frameDeparture t) s = .next ((s.begin t).handoverFailed.frameDeparture) := by
  have hpow : ((s.begin t).handoverFailed.frameDeparture).power.removal = none := by
    obtain ⟨p, hp⟩ := State.handoverFailed_power (s.begin t)
    rw [State.frameDeparture_power, hp]
    exact hrem
  have h : execFrameDeparture t s = .next ((s.begin t).handoverFailed.frameDeparture) := by
    unfold execFrameDeparture
    rw [State.authorityAt_idle (s := s.begin t) hg hr, State.removalProgress_idle hpow]
  exact h

theorem frameDeparture_departs (hlit : s.lit k = true) (hrun : (2 ≤ s.rdN (lk k 3) ∧ s.rdN (lk k 3) ≤ 4) ∨ (s.link k).service = true)
    (hgrid : (s.begin t).modTime % framePeriod < 32) (hnext : (s.link k).next ≤ Time.toNs ((s.begin t).modTime / framePeriod * framePeriod))
    (hg : s.rack.grant = none) (hr : s.rack.revoke = none) (hrem : s.power.removal = none) :
    Completes (.frameDeparture t) s (fun u => u.rdN (lk k 0xB) = (s.rdN (lk k 0xB) + 1) % 2 ^ 32 ∧ (u.link k).seq = ((s.link k).seq + 1) % 65536 ∧
      (u.link k).req = (s.link k).req.map (fun q => { q with sent := some (q.sent.getD u.now) }) ∧
      (∃ bytes, Output.msg "FRAME" [k] bytes ∈ u.out) ∧
      ∀ b : Batch, (u.batch b).edges = (s.batch b).edges.filter (fun x => u.now < x.sealedAt + Time.ns 1500)) := by
  refine ⟨_, frameDeparture_outcome hg hr hrem, ?_⟩
  beta_reduce
  have hleft := State.handoverFailed_left (s.begin t)
  have hlink : (s.begin t).handoverFailed.link k = s.link k := State.handoverFailed_link k (s.begin t)
  have hcount : (s.begin t).handoverFailed.rdN (lk k 0xB) = s.rdN (lk k 0xB) :=
    congrArg Int.toNat (State.handoverFailed_rd k.isLt (by decide) (s.begin t))
  have htime := State.handoverFailed_modTime (s.begin t)
  have hdep : (s.begin t).handoverFailed.departs k = true := by
    have h : (s.begin t).departs k = ((s.begin t).lit k && ((decide (2 ≤ s.rdN (lk k 3)) && decide (s.rdN (lk k 3) ≤ 4)) || (s.link k).service)) := rfl
    have hlit' : (s.begin t).lit k = true := hlit
    rw [State.handoverFailed_departs k.isLt, h, hlit', Bool.true_and, Bool.or_eq_true, Bool.and_eq_true, decide_eq_true_eq, decide_eq_true_eq]
    exact hrun
  rw [← htime] at hgrid hnext
  have hedges : ∀ b, ((s.begin t).handoverFailed.batch b).edges = (s.batch b).edges := hleft.edges
  generalize (s.begin t).handoverFailed = s₁ at *
  rw [State.frameDeparture_eq hgrid]
  generalize s₁.modTime / framePeriod * framePeriod = tf at *
  have hmem : (k : Nat) ∈ s₁.departing tf := by
    refine List.mem_filter.2 ⟨List.mem_range.2 k.isLt, ?_⟩
    rw [hdep, hlink, decide_eq_true hnext]
    rfl
  obtain ⟨hnow₂, hbat₂⟩ := State.departures_leave tf (s₁.departing tf) s₁
  obtain ⟨hc₂, hl₂, hm₂⟩ := State.departures_depart hmem
  generalize s₁.each (s₁.departing tf) (State.depart tf) = s₂ at *
  have hnow₃ : (s₂.each allBatches State.edgesLeave).now = s₂.now := State.each_eq State.now (fun b _ u => (u.edgesLeave_leaves b).1) s₂
  obtain ⟨hod₃, hlinks₃, hout₃, hedges₃⟩ := State.buffers_leave s₂
  generalize s₂.each allBatches State.edgesLeave = s₃ at *
  obtain ⟨hlinks₄, hout₄, hbat₄, hnow₄, hc₄⟩ := State.checkNodes_leaves k.isLt s₃
  generalize s₃.checkNodes = u at *
  have hlinku : u.link k = s₂.link k := congrArg (fun l : Links => Tbl.get ({} : LinkRec) k l.links) (hlinks₄.trans hlinks₃)
  have hnow : u.now = s₁.now := hnow₄.trans (hnow₃.trans hnow₂)
  have hc₃ : s₃.rdN (lk k 0xB) = s₂.rdN (lk k 0xB) := congrArg Int.toNat (State.rd_congr (ownDefault_lk k.isLt (by decide)) (congrArg (Tbl.find? _) hod₃))
  have hbatch (b : Nat) : u.batch b = s₃.batch b := congrArg (Tbl.get ({} : BatchRec) b) hbat₄
  have hbatch₂ (b : Nat) : s₂.batch b = s₁.batch b := congrArg (Tbl.get ({} : BatchRec) b) hbat₂
  rw [hlinku, hl₂, hlink, hnow, hc₄, hc₃, hc₂, hcount, hout₄, hout₃]
  refine ⟨rfl, rfl, rfl, hm₂, fun b => ?_⟩
  rw [hbatch, hedges₃, hbatch₂, hedges, hnow₂]

theorem frameDeparture_dark (hlit : s.lit k = false) (hg : s.rack.grant = none) (hr : s.rack.revoke = none) (hrem : s.power.removal = none) :
    Completes (.frameDeparture t) s (fun u => u.rdN (lk k 0xB) = s.rdN (lk k 0xB) ∧ u.link k = s.link k ∧
      ∀ bytes, Output.msg "FRAME" [k] bytes ∉ u.out) := by
  refine ⟨_, frameDeparture_outcome hg hr hrem, ?_⟩
  beta_reduce
  have hlink : (s.begin t).handoverFailed.link k = s.link k := State.handoverFailed_link k (s.begin t)
  have hcount : (s.begin t).handoverFailed.rdN (lk k 0xB) = s.rdN (lk k 0xB) :=
    congrArg Int.toNat (State.handoverFailed_rd k.isLt (by decide) (s.begin t))
  have hlit₁ : (s.begin t).handoverFailed.lit k = false := (State.handoverFailed_lit k.isLt (s.begin t)).trans hlit
  have hnone (bytes : List Byte) : Output.msg "FRAME" [(k : Int)] bytes ∉ (s.begin t).handoverFailed.out := fun hm =>
    absurd ((State.handoverFailed_left (s.begin t)).frames _ _ hm) (List.not_mem_nil)
  generalize (s.begin t).handoverFailed = s₁ at *
  by_cases hgrid : s₁.modTime % framePeriod < 32
  · rw [State.frameDeparture_eq hgrid]
    generalize s₁.modTime / framePeriod * framePeriod = tf at *
    have hnot : (k : Nat) ∉ s₁.departing tf := by
      intro hmem
      have h := (List.mem_filter.1 hmem).2
      simp [State.departs, hlit₁] at h
    obtain ⟨⟨hc₂, hl₂⟩, hm₂⟩ := State.departures_pass k.isLt hnot
    generalize s₁.each (s₁.departing tf) (State.depart tf) = s₂ at *
    obtain ⟨hod₃, hlinks₃, hout₃, -⟩ := State.buffers_leave s₂
    generalize s₂.each allBatches State.edgesLeave = s₃ at *
    obtain ⟨hlinks₄, hout₄, -, -, hc₄⟩ := State.checkNodes_leaves k.isLt s₃
    generalize s₃.checkNodes = u at *
    have hlinku : u.link k = s₂.link k := congrArg (fun l : Links => Tbl.get ({} : LinkRec) k l.links) (hlinks₄.trans hlinks₃)
    have hc₃ : s₃.rdN (lk k 0xB) = s₂.rdN (lk k 0xB) := congrArg Int.toNat (State.rd_congr (ownDefault_lk k.isLt (by decide)) (congrArg (Tbl.find? _) hod₃))
    rw [hlinku, hl₂, hlink, hc₄, hc₃, hc₂, hcount, hout₄, hout₃]
    exact ⟨rfl, rfl, fun bytes => hm₂ bytes (hnone bytes)⟩
  · have heq : s₁.frameDeparture = s₁ := if_pos (not_lt.1 hgrid)
    rw [heq]
    exact ⟨hcount, hlink, hnone⟩

end

/-- A step that touches groups only leaves every entry. -/
theorem Kept.rd_small {m : Nat} {s u : State} (h : Kept m s u) (hm : m < 2 ^ 20) {j : Nat} (hj : OwnDefault j) : u.rd j = s.rd j :=
  State.rd_congr hj (h.numbersSame j (Nat.testBit_lt_two_pow (hm.trans_le (Nat.pow_le_pow_right (by decide) (Nat.le_add_right 20 _)))))

section
variable {t : Time} {k : LinkNo} {s : State}

theorem rdN_lk_wr {k a b : Nat} (hk : k < 24) (ha : a < 256) (h : a ≠ b) (v : Int) (s : State) : (s.wr (lk k b) v).rdN (lk k a) = s.rdN (lk k a) :=
  State.rdN_wr_ne (lk_ne h) (ownDefault_lk hk ha) v s

theorem bit_lk_wr {k a b : Nat} (hk : k < 24) (ha : a < 256) (h : a ≠ b) (i : Nat) (v : Int) (s : State) : (s.wr (lk k b) v).bit (lk k a) i = s.bit (lk k a) i :=
  State.bit_wr_ne (lk_ne h) (ownDefault_lk hk ha) i v s

theorem link_congr {k : Nat} {s u : State} (h : u.links = s.links) : u.link k = s.link k := congrArg (fun l : Links => Tbl.get ({} : LinkRec) k l.links) h

/-! ### A bad frame is discarded whole (R212) -/

/-- A twin's enumeration frame, sent back before anything else. -/
def State.loopBack (k : Nat) (f : UpFrame) (s : State) : State :=
  if s.loopsBack k f then s.msg "LOOPED_FRAME" [k, f.head.tf] (loopedChars f) else s

theorem State.loopBack_leaves (k : Nat) (f : UpFrame) (s : State) : ∃ o, s.loopBack k f = { s with out := o } := by
  unfold State.loopBack
  split
  · exact ⟨_, rfl⟩
  · exact ⟨s.out, rfl⟩

theorem State.upFrame_bad {f : UpFrame} {s : State} (hon : s.rdB (lk k 1) = true) (hst : 2 ≤ s.rdN (lk k 3)) (hbad : f.crcGood = false ∨ f.stomped = true) :
    ∃ o, s.upFrame k f = (({ s with out := o } : State).inc (lk k 0xE) f.violations).inc (lk k 0xD) := by
  obtain ⟨o, ho⟩ := State.loopBack_leaves k f s
  refine ⟨o, ?_⟩
  rw [← ho]
  have hon' : (s.loopBack k f).rdB (lk k 1) = true := by rw [ho]; exact hon
  have hst' : 2 ≤ (s.loopBack k f).rdN (lk k 3) := by rw [ho]; exact hst
  have hrun : ¬(!((s.loopBack k f).rdB (lk k 1)) || decide ((s.loopBack k f).rdN (lk k 3) < 2)) = true := by simp [hon', not_lt.2 hst']
  have hbad' : (!f.crcGood || f.stomped) = true := by
    rcases hbad with h | h
    · simp [h]
    · simp [h]
  exact (if_neg hrun).trans (if_pos hbad')

theorem upFrameReceived_bad {f : UpFrame} (hon : s.rdB (lk k 1) = true) (hst : 2 ≤ s.rdN (lk k 3)) (hbad : f.crcGood = false ∨ f.stomped = true) :
    Completes (.upFrameReceived t k f) s (fun u => u.rdN (lk k 0xE) = (s.rdN (lk k 0xE) + f.violations) % 2 ^ 32 ∧
      u.rdN (lk k 0xD) = (s.rdN (lk k 0xD) + 1) % 2 ^ 32 ∧ u.links = s.links) := by
  refine ⟨(s.begin t).upFrame k f, rfl, ?_⟩
  obtain ⟨o, ho⟩ := State.upFrame_bad (s := s.begin t) hon hst hbad
  rw [ho]
  refine ⟨?_, ?_, rfl⟩
  · exact (rdN_lk_wr k.isLt (by decide) (by decide) _ _).trans (State.rdN_inc_same (lk k 0xE) f.violations _)
  · have hD : (({ s.begin t with out := o } : State).inc (lk k 0xE) f.violations).rdN (lk k 0xD) = s.rdN (lk k 0xD) :=
      rdN_lk_wr k.isLt (by decide) (by decide) _ _
    rw [State.rdN_inc_same, hD]

/-! ### A request is repeated, then reported (R210) -/

theorem requestTimeout_repeats {r : LinkReq} {t0 : Time} (hreq : (s.link k).req = some r) (hsent : r.sent = some t0) (hdue : t0 + 3 * framePeriod ≤ max t s.now)
    (htries : r.tries < 3) : Completes (.requestTimeout t k) s (fun u => (u.link k).req = some { r with sent := none, tries := r.tries + 1 }) := by
  refine ⟨(s.begin t).requestTimeout k, rfl, ?_⟩
  have heq : (s.begin t).requestTimeout k = (s.begin t).setLink k { s.link k with req := some { r with sent := none, tries := r.tries + 1 } } := by
    have hreq' : ((s.begin t).link k).req = some r := hreq
    have hdue' : ¬(s.begin t).now < t0 + 3 * framePeriod := not_lt.2 hdue
    unfold State.requestTimeout
    simp only [hreq', hsent, hdue', htries, if_false, if_true]
    rfl
  rw [heq]
  beta_reduce
  rw [State.link_setLink_same]

theorem State.answerTo_own (e : Nat) (s : State) : s.answerTo 0 e = s.answer e := by
  unfold State.answerTo State.sessionReply
  exact if_pos rfl

theorem requestTimeout_reports {r : LinkReq} {t0 : Time} (hreq : (s.link k).req = some r) (hsent : r.sent = some t0) (hdue : t0 + 3 * framePeriod ≤ max t s.now)
    (htries : 3 ≤ r.tries) : Completes (.requestTimeout t k) s (fun u => (u.link k).req = none ∧ u.rdN (lk k 0x11) = (s.rdN (lk k 0x11) + 1) % 2 ^ 32 ∧
      (r.sid = 0 → u.Answered 0x0B000093)) := by
  refine ⟨(s.begin t).requestTimeout k, rfl, ?_⟩
  have heq : (s.begin t).requestTimeout k =
      (((s.begin t).setLink k { s.link k with req := none }).inc (lk k 0x11)).answerTo r.sid 0x0B000093 := by
    have hreq' : ((s.begin t).link k).req = some r := hreq
    have hdue' : ¬(s.begin t).now < t0 + 3 * framePeriod := not_lt.2 hdue
    unfold State.requestTimeout
    simp only [hreq', hsent, hdue', not_lt.2 htries, if_false]
    rfl
  rw [heq]
  beta_reduce
  have hcount := State.rdN_inc_same (lk k 0x11) 1 ((s.begin t).setLink k { s.link k with req := none })
  have hnone : (((s.begin t).setLink k { s.link k with req := none }).inc (lk k 0x11)).link k = { s.link k with req := none } := State.link_setLink_same ..
  have hans : Kept 0x28000 (((s.begin t).setLink k { s.link k with req := none }).inc (lk k 0x11))
      ((((s.begin t).setLink k { s.link k with req := none }).inc (lk k 0x11)).answerTo r.sid 0x0B000093) := State.answerTo_kept (Sub.refl _) (Kept.refl _ _)
  generalize ((s.begin t).setLink k { s.link k with req := none }).inc (lk k 0x11) = s₁ at *
  refine ⟨?_, ?_, fun hsid => ?_⟩
  · rw [link_congr (hans.linksSame rfl), hnone]
  · exact (congrArg Int.toNat (hans.rd_small (by decide) (ownDefault_lk k.isLt (by decide)))).trans hcount
  · rw [hsid, State.answerTo_own]
    exact State.answered_answer _ s₁

end

section
variable {t : Time} {k : LinkNo} {s : State}

/-! ### A break (R222) -/

theorem linkBreak_breaks {unreached : Nat} (hst : 2 ≤ s.rdN (lk k 3)) : Completes (.linkBreak t k unreached) s (fun u =>
    u.rdN (lk k 3) = (if s.rdN (lk k 2) = 1 ∧ s.rdN (lk k 3) ≤ 4 ∧ (s.link k).scanning = false then 4 else 1) ∧
    u.rdN (lk k 0xF) = (s.rdN (lk k 0xF) + 1) % 2 ^ 32 ∧ (u.link k).rejoin = true ∧ (u.link k).scanning = false ∧ (u.link k).req = (s.link k).req ∧
    u.bit (lk k 0x13) 0 = false ∧ u.bit (lk k 0x13) 1 = false ∧
    (s.rdN (lk k 2) = 1 → u.rdN (lk k 0x12) = unreached % 256 ∧ u.bit (lk k 0x13) 3 = false)) := by
  refine ⟨(s.begin t).linkBreak k unreached, rfl, ?_⟩
  have hnew : (if (s.rdN (lk k 2) = 1 && decide (s.rdN (lk k 3) ≤ 4) && !(s.link k).scanning) = true then 4 else 1) =
      (if s.rdN (lk k 2) = 1 ∧ s.rdN (lk k 3) ≤ 4 ∧ (s.link k).scanning = false then 4 else 1) := by
    simp [and_assoc]
  unfold State.linkBreak
  extract_lets st s₁ s₂
  have hst' : ¬st < 2 := not_lt.2 hst
  rw [if_neg hst']
  beta_reduce
  have hs₁ : s₁ = (s.begin t).breakLink k unreached (if s.rdN (lk k 2) = 1 ∧ s.rdN (lk k 3) ≤ 4 ∧ (s.link k).scanning = false then 4 else 1) := by
    rw [← hnew]
    rfl
  generalize (if s.rdN (lk k 2) = 1 ∧ s.rdN (lk k 3) ≤ 4 ∧ (s.link k).scanning = false then 4 else 1) = new at *
  obtain ⟨hlinks, h3, hF, -, hring⟩ := State.breakLink_breaks k.isLt unreached new (s.begin t)
  rw [← hs₁] at hlinks h3 hF hring
  clear_value s₁
  have hlive {a : Nat} (ha : a < 256) (h : a ≠ 0x13) : s₂.rdN (lk k a) = s₁.rdN (lk k a) :=
    (rdN_lk_wr k.isLt ha h _ _).trans (rdN_lk_wr k.isLt ha h _ _)
  have hlink : s₂.link k = s.link k := link_congr hlinks
  have hrec (r : LinkRec) : (s₂.setLink k r).link k = r := State.link_setLink_same ..
  rw [hrec]
  refine ⟨(hlive (by decide) (by decide)).trans h3, (hlive (by decide) (by decide)).trans hF, rfl, rfl, (congrArg LinkRec.req hlink : (s₂.link k).req = (s.link k).req),
    State.bit_setBit_same .., (State.bit_setBit_other (by decide) ..).trans (State.bit_setBit_same ..), fun h => ?_⟩
  obtain ⟨h12, hb⟩ := hring h
  exact ⟨(hlive (by decide) (by decide)).trans h12, (State.bit_setBit_other (by decide) ..).trans ((State.bit_setBit_other (by decide) ..).trans hb)⟩

theorem linkBreak_idle {unreached : Nat} (hst : s.rdN (lk k 3) < 2) : Completes (.linkBreak t k unreached) s (fun u => u = s.begin t) :=
  ⟨(s.begin t).linkBreak k unreached, rfl, if_pos hst⟩

/-! ### A dark link (R213) -/

theorem linkEnumerate_dark {q : Req} {found : List NodeId} {runs : List DelayRun} (hs : s.Serves) (hp : s.Passes q (0x3700 + k) 6 0 1) (hlit : s.lit k = false) :
    Completes (.linkEnumerate t q k ⟨found, runs⟩) s (fun u => u.links = s.links ∧ u.Answered 0x08000022) := by
  refine ⟨(s.begin t).hostWrite q (0x3700 + k) 6 0 1 (enumerateEff k found (delaysOf ⟨found, runs⟩)), rfl, ?_⟩
  have hown : (enumerateEff k found (delaysOf ⟨found, runs⟩)).own ((s.begin t).handling q.sid) = abState := by
    have hlit' : ((s.begin t).handling q.sid).lit k = false := hlit
    unfold enumerateEff
    dsimp only
    rw [hlit']
    rfl
  beta_reduce
  rw [State.hostWrite_fails (s := s.begin t) hs hp hown (by decide)]
  exact ⟨State.longBy_links .., State.answered_answer_longBy ..⟩

theorem syncReturn_dark {found : List NodeId} {runs : List DelayRun} (hlit : s.lit k = false) :
    Completes (.syncReturn t k ⟨found, runs⟩) s (fun u => u.links = s.links ∧ u.rd (lk k 3) = s.rd (lk k 3)) := by
  refine ⟨(s.begin t).syncReturn k found (delaysOf ⟨found, runs⟩), rfl, ?_⟩
  have hlit' : (!((s.begin t).lit k)) = true := by
    rw [show (s.begin t).lit k = s.lit k from rfl, hlit]
    rfl
  have heq : (s.begin t).syncReturn k found (delaysOf ⟨found, runs⟩) = s.begin t := if_pos hlit'
  rw [heq]
  exact ⟨rfl, rfl⟩

end

/-! ### The host's requests to a node (R210, R214, R215, R224) -/

section
variable {t : Time} {q : Req} {n : NodeNo} {s : State}

theorem State.nodeRequest_waits {n code addr data : Nat} {seg : Option Nat} {s : State} (h : (s.link (s.rdN (ndk n 1))).req = none) :
    ((s.nodeRequest n code addr data seg).link (s.rdN (ndk n 1))).req =
      some { code := code, pos := s.rdN (ndk n 2), addr := addr, data := data, node := n, sid := s.srv.cur, segment := seg } := by
  have hfree : ¬(s.link (s.rdN (ndk n 1))).req.isSome = true := by simp [h]
  unfold State.nodeRequest
  extract_lets k
  rw [if_neg hfree, State.link_setLink_same]

theorem State.nodeRequest_busy {n code addr data : Nat} {seg : Option Nat} {s : State} (h : (s.link (s.rdN (ndk n 1))).req ≠ none) :
    s.nodeRequest n code addr data seg = s.answer abBusy := if_pos (Option.isSome_iff_ne_none.2 h)

theorem hostGet_serves {f : State → State} (hs : s.Serves) : (s.begin t).hostGet q f = f ((s.begin t).handling q.sid) := by
  obtain ⟨hup, hlong, -⟩ := hs
  have hup' : (s.begin t).serverUp = true := hup
  have hlong' : (s.begin t).longOp = 0 := hlong
  unfold State.hostGet
  rw [hup', hlong']
  rfl

theorem nodeRegisterRead_waits (hs : s.Serves) (h : (s.link (s.rdN (ndk n 1))).req = none) : Completes (.nodeRegisterRead t q n) s (fun u =>
    ∃ r, (u.link (s.rdN (ndk n 1))).req = some r ∧ r.code = 1 ∧ r.pos = s.rdN (ndk n 2) ∧ r.addr = s.rdN (ndk n 0x1C) ∧ r.sent = none ∧ r.sid = q.sid) := by
  refine ⟨(s.begin t).hostGet q (State.nodeRead n none), rfl, ?_⟩
  rw [hostGet_serves hs]
  exact ⟨_, State.nodeRequest_waits (s := (s.begin t).handling q.sid) h, rfl, rfl, rfl, rfl, rfl⟩

theorem nodeRegisterRead_busy (hs : s.Serves) (h : (s.link (s.rdN (ndk n 1))).req ≠ none) : Completes (.nodeRegisterRead t q n) s (fun u =>
    u.links = s.links ∧ u.Answered 0x0B000001) := by
  refine ⟨(s.begin t).hostGet q (State.nodeRead n none), rfl, ?_⟩
  have heq : ((s.begin t).handling q.sid).nodeRead n none = ((s.begin t).handling q.sid).answer abBusy :=
    State.nodeRequest_busy (s := (s.begin t).handling q.sid) h
  rw [hostGet_serves hs, heq]
  exact ⟨rfl, State.answered_answer ..⟩

theorem ownDefault_ndk {n a : Nat} (hn : n < 768) (ha : a < 256) : OwnDefault (ndk n a) := .inl (by simp only [ndk, key]; omega)

theorem ndk_ne {n m a b : Nat} (ha : a < 256) (hb : b < 256) (h : n = m → a ≠ b) : ndk n a ≠ ndk m b := by
  simp only [ndk, key]
  omega

theorem State.link_longBy (q : Req) (was k : Nat) (u : State) : (u.longBy q was).link k = u.link k := link_congr (State.longBy_links q was u)

theorem nodeWriteEff_own {v : Int} (hoff : ∀ b, s.nodeBatch n = some b → s.bstate b = .off) (haddr : 0x1000 ≤ s.rdN (ndk n 0x1C)) :
    (nodeWriteEff n v).own s = 0 := by
  refine needs_of_true ?_ _
  rw [decide_eq_true haddr, Bool.true_and]
  split
  case h_1 b hb => rw [hoff b hb]; rfl
  case h_2 => rfl

theorem nodeRegisterWrite_waits {v : Nat} (hs : s.Serves) (hp : s.Passes q (0x3400 + n) 0x1D 0 v) (h : (s.link (s.rdN (ndk n 1))).req = none)
    (haddr : 0x1000 ≤ s.rdN (ndk n 0x1C)) (hoff : ∀ b, s.nodeBatch n = some b → s.bstate b = .off) :
    Completes (.nodeRegisterWrite t q n v) s (fun u => u.rdN (ndk n 0x1D) = v ∧ ∃ r, (u.link (s.rdN (ndk n 1))).req = some r ∧
      r.code = 2 ∧ r.addr = s.rdN (ndk n 0x1C) ∧ r.data = v ∧ r.sid = q.sid) := by
  refine ⟨(s.begin t).hostWrite q (0x3400 + n) 0x1D 0 v (nodeWriteEff n v), rfl, ?_⟩
  beta_reduce
  have hown : (nodeWriteEff n v).own ((s.begin t).handling q.sid) = 0 := nodeWriteEff_own (s := (s.begin t).handling q.sid) hoff haddr
  rw [State.hostWrite_own (s := s.begin t) hs hp hown rfl, State.link_longBy, State.rdN_longBy]
  have heff (s₁ : State) : (nodeWriteEff n v).eff s₁ = (s₁.wr (ndk n 0x1D) v).nodeRequest n 2 (s₁.rdN (ndk n 0x1C)) v none := rfl
  rw [heff]
  generalize hs₁ : (s.begin t).handling q.sid = s₁
  have h1 : (s₁.wr (ndk n 0x1D) v).rdN (ndk n 1) = s.rdN (ndk n 1) := by
    rw [State.rdN_wr_ne (ndk_ne (by decide) (by decide) fun _ => by decide) (ownDefault_ndk n.isLt (by decide)), ← hs₁]
    rfl
  have haddr₁ : s₁.rdN (ndk n 0x1C) = s.rdN (ndk n 0x1C) := by
    rw [← hs₁]
    rfl
  have hcur : (s₁.wr (ndk n 0x1D) v).srv.cur = q.sid := by
    rw [← hs₁]
    rfl
  have hfree : ((s₁.wr (ndk n 0x1D) v).link ((s₁.wr (ndk n 0x1D) v).rdN (ndk n 1))).req = none := by
    rw [h1, ← hs₁]
    exact h
  have hreq := State.nodeRequest_waits (code := 2) (addr := s₁.rdN (ndk n 0x1C)) (data := v) (seg := none) hfree
  rw [h1] at hreq
  have hkept : Kept 0x200 (s₁.wr (ndk n 0x1D) v) ((s₁.wr (ndk n 0x1D) v).nodeRequest n 2 (s₁.rdN (ndk n 0x1C)) v none) :=
    State.nodeRequest_kept (Sub.refl _) (Kept.refl _ _)
  refine ⟨?_, _, hreq, rfl, haddr₁, rfl, hcur⟩
  exact (congrArg Int.toNat (hkept.rd_small (by decide) (ownDefault_ndk n.isLt (by decide)))).trans (rdN_wr_nat _ _ _)

theorem nodeRegisterWrite_refused {v : Nat} (hs : s.Serves) (hp : s.Passes q (0x3400 + n) 0x1D 0 v) (haddr : s.rdN (ndk n 0x1C) < 0x1000) :
    Completes (.nodeRegisterWrite t q n v) s (fun u => u.links = s.links ∧ u.Answered 0x0B000094) := by
  refine ⟨(s.begin t).hostWrite q (0x3400 + n) 0x1D 0 v (nodeWriteEff n v), rfl, ?_⟩
  beta_reduce
  have hown : (nodeWriteEff n v).own ((s.begin t).handling q.sid) = 0x0B000094 := by
    have haddr' : decide (0x1000 ≤ ((s.begin t).handling q.sid).rdN (ndk n 0x1C)) = false := decide_eq_false (not_le.2 haddr)
    unfold nodeWriteEff
    dsimp only
    rw [haddr']
    rfl
  rw [State.hostWrite_fails (s := s.begin t) hs hp hown (by decide)]
  exact ⟨State.longBy_links .., State.answered_answer_longBy ..⟩

theorem clearFaults_waits (hs : s.Serves) (hp : s.Passes q (0x3400 + n) 0x15 0 1) (h : (s.link (s.rdN (ndk n 1))).req = none)
    (hstate : ∀ b, s.nodeBatch n = some b → s.bstate b = .off ∨ s.bstate b = .blocked ∨ s.bstate b = .fault) :
    Completes (.clearFaults t q n) s (fun u => ∃ r, (u.link (s.rdN (ndk n 1))).req = some r ∧ r.code = 3 ∧ r.sid = q.sid) := by
  refine ⟨(s.begin t).hostWrite q (0x3400 + n) 0x15 0 1 (nodeClearEff n), rfl, ?_⟩
  beta_reduce
  have hown : (nodeClearEff n).own ((s.begin t).handling q.sid) = 0 := by
    have hstate' : ∀ b, ((s.begin t).handling q.sid).nodeBatch n = some b → ((s.begin t).handling q.sid).bstate b = .off ∨
        ((s.begin t).handling q.sid).bstate b = .blocked ∨ ((s.begin t).handling q.sid).bstate b = .fault := hstate
    generalize (s.begin t).handling q.sid = s₁ at hstate'
    unfold nodeClearEff
    dsimp only
    split
    case h_1 b hb =>
      refine needs_of_true ?_ _
      rcases hstate' b hb with h | h | h
      · rw [h]; rfl
      · rw [h]; rfl
      · rw [h]; rfl
    case h_2 => rfl
  rw [State.hostWrite_own (s := s.begin t) hs hp hown rfl, State.link_longBy]
  exact ⟨_, State.nodeRequest_waits (s := (s.begin t).handling q.sid) h, rfl, rfl⟩

theorem clearFaults_refused (hs : s.Serves) (hp : s.Passes q (0x3400 + n) 0x15 0 1) {b : Nat} (hb : s.nodeBatch n = some b) (hrun : (s.bstate b).running = true) :
    Completes (.clearFaults t q n) s (fun u => u.links = s.links ∧ u.Answered 0x0B000094) := by
  refine ⟨(s.begin t).hostWrite q (0x3400 + n) 0x15 0 1 (nodeClearEff n), rfl, ?_⟩
  beta_reduce
  have hown : (nodeClearEff n).own ((s.begin t).handling q.sid) = 0x0B000094 := by
    have hb' : ((s.begin t).handling q.sid).nodeBatch n = some b := hb
    have hrun' : (((s.begin t).handling q.sid).bstate b).running = true := hrun
    generalize (s.begin t).handling q.sid = s₁ at hb' hrun'
    unfold nodeClearEff
    dsimp only
    rw [hb']
    dsimp only
    generalize s₁.bstate b = x at hrun'
    revert hrun'
    cases x <;> decide
  rw [State.hostWrite_fails (s := s.begin t) hs hp hown (by decide)]
  exact ⟨State.longBy_links .., State.answered_answer_longBy ..⟩

end

/-! ### A good frame (R212, R219 to R221) -/

/-- From s to u the entries of nodes and links stay, and the links' part of the state. -/
structure LinksStill (s u : State) : Prop where
  entries : ∀ j, LinkKey j → Tbl.find? j u.od = Tbl.find? j s.od
  links : u.links = s.links

namespace LinksStill

variable {s t u : State}

theorem refl (s : State) : LinksStill s s := ⟨fun _ _ => rfl, rfl⟩

theorem trans (h : LinksStill s t) (g : LinksStill t u) : LinksStill s u := ⟨fun j hj => (g.entries j hj).trans (h.entries j hj), g.links.trans h.links⟩

theorem of_ite {p : Prop} [Decidable p] (h : LinksStill s t) (g : LinksStill s u) : LinksStill s (if p then t else u) := by
  split
  · exact h
  · exact g

theorem each {α : Type} {l : List α} {f : α → State → State} (h : ∀ a ∈ l, ∀ t, LinksStill t (f a t)) (s : State) : LinksStill s (s.each l f) :=
  State.each_keeps (P := LinksStill s) (fun a ha t ht => ht.trans (h a ha t)) (refl s)

theorem of_left (h : LinksLeft s u) (hl : u.links = s.links) : LinksStill s u := ⟨h.entries, hl⟩

theorem logEvent (code inst : Nat) (data : List Byte) (s : State) : LinksStill s (s.logEvent code inst data) :=
  of_left (State.logEvent_left ..) (State.logEvent_links ..)

end LinksStill

theorem linkKey_ndk {n a : Nat} (hn : n < 768) (ha : a < 256) : LinkKey (ndk n a) := by
  simp only [LinkKey, ndk, key]
  omega

/-- What a good frame may leave of link k: its counts, its epoch, its status, the request on it. -/
structure FaceKept (k : Nat) (s u : State) : Prop where
  entries : ∀ a ∈ [0xC, 0xE, 0x10, 0x13], Tbl.find? (lk k a) u.od = Tbl.find? (lk k a) s.od
  superseded : u.links.superseded = s.links.superseded
  req : (u.link k).req = (s.link k).req

/-- The readings of node n, and the sequence of its latest sample. -/
structure ReadingsKept (n : Nat) (s u : State) : Prop where
  entries : ∀ a ∈ [0xE, 0xF, 0x10, 0x11, 0x12], Tbl.find? (ndk n a) u.od = Tbl.find? (ndk n a) s.od
  lastSeq : Tbl.find? n u.links.lastSeq = Tbl.find? n s.links.lastSeq

theorem FaceKept.trans {k : Nat} {s t u : State} (h : FaceKept k s t) (g : FaceKept k t u) : FaceKept k s u :=
  ⟨fun a ha => (g.entries a ha).trans (h.entries a ha), g.superseded.trans h.superseded, g.req.trans h.req⟩

theorem ReadingsKept.trans {n : Nat} {s t u : State} (h : ReadingsKept n s t) (g : ReadingsKept n t u) : ReadingsKept n s u :=
  ⟨fun a ha => (g.entries a ha).trans (h.entries a ha), g.lastSeq.trans h.lastSeq⟩

theorem FaceKept.refl (k : Nat) (s : State) : FaceKept k s s := ⟨fun _ _ => rfl, rfl, rfl⟩

theorem ReadingsKept.refl (n : Nat) (s : State) : ReadingsKept n s s := ⟨fun _ _ => rfl, rfl⟩

theorem lt_of_mem_face {a : Nat} (ha : a ∈ [0xC, 0xE, 0x10, 0x13]) : a < 256 := by
  simp only [List.mem_cons, List.not_mem_nil, or_false] at ha
  omega

theorem lt_of_mem_readings {a : Nat} (ha : a ∈ [0xE, 0xF, 0x10, 0x11, 0x12]) : a < 256 := by
  simp only [List.mem_cons, List.not_mem_nil, or_false] at ha
  omega

theorem LinksStill.face {k : Nat} (hk : k < 24) {s u : State} (h : LinksStill s u) : FaceKept k s u :=
  ⟨fun _ ha => h.entries _ (linkKey_lk hk (lt_of_mem_face ha)), congrArg Links.superseded h.links, congrArg LinkRec.req (link_congr h.links)⟩

theorem LinksStill.readings {n : Nat} (hn : n < 768) {s u : State} (h : LinksStill s u) : ReadingsKept n s u :=
  ⟨fun _ ha => h.entries _ (linkKey_ndk hn (lt_of_mem_readings ha)), congrArg (fun l : Links => Tbl.find? n l.lastSeq) h.links⟩

theorem FaceKept.rdN {k a : Nat} (hk : k < 24) {s u : State} (h : FaceKept k s u) (ha : a ∈ [0xC, 0xE, 0x10, 0x13]) : u.rdN (lk k a) = s.rdN (lk k a) :=
  congrArg Int.toNat (State.rd_congr (ownDefault_lk hk (lt_of_mem_face ha)) (h.entries a ha))

theorem ReadingsKept.rd {n a : Nat} (hn : n < 768) {s u : State} (h : ReadingsKept n s u) (ha : a ∈ [0xE, 0xF, 0x10, 0x11, 0x12]) : u.rd (ndk n a) = s.rd (ndk n a) :=
  State.rd_congr (ownDefault_ndk hn (lt_of_mem_readings ha)) (h.entries a ha)

/-! #### The epoch of a frame -/

theorem State.supersede_still (s : State) : LinksStill s s.supersede :=
  .of_left s.supersede_left ((State.supersede_kept (Sub.refl _) (Kept.refl _ s)).linksSame rfl)

theorem State.noteOverlap_still (hd : FrameHead) (s : State) : LinksStill s (s.noteOverlap hd) := by
  have hwr (v : Int) (t : State) : LinksStill t (t.wr (twk 0x13) v) := .of_left (LinksLeft.wr (LinkKey.ne_low (by decide)) v t) rfl
  have hrack (x : Rack) (t : State) : LinksStill t { t with rack := x } := .of_left (LinksLeft.rack x t) rfl
  unfold State.noteOverlap
  extract_lets role
  refine LinksStill.of_ite (LinksStill.refl s) ?_
  split
  · exact LinksStill.of_ite ((hwr _ s).trans (hrack _ _)) (LinksStill.refl s)
  · exact LinksStill.of_ite ((hwr _ s).trans (hrack _ _)) (LinksStill.refl s)
  · exact LinksStill.refl s

/-- A higher epoch shows on the link, and stops commanding. -/
theorem State.higherEpoch_shows {k : Nat} (hk : k < 24) (e : Nat) (s : State) :
    (s.higherEpoch k e).rdN (lk k 0x10) = max (s.rdN (lk k 0x10)) e ∧ (s.higherEpoch k e).links = { s.links with superseded := true } ∧
    (s.higherEpoch k e).bit (lk k 0x13) 6 = true ∧
    ∀ j, LinkKey j → j ≠ lk k 0x10 → j ≠ lk k 0x13 → Tbl.find? j (s.higherEpoch k e).od = Tbl.find? j s.od := by
  unfold State.higherEpoch
  extract_lets was s₁ l s₂
  have h10 : s₁.rdN (lk k 0x10) = max (s.rdN (lk k 0x10)) e := (rdN_lk_wr hk (by decide) (by decide) _ _).trans (rdN_wr_nat _ _ s)
  have h13 : s₁.bit (lk k 0x13) 6 = true := State.bit_setBit_same ..
  have hother (j : Nat) (h1 : j ≠ lk k 0x10) (h2 : j ≠ lk k 0x13) : Tbl.find? j s₁.od = Tbl.find? j s.od :=
    (State.find?_setBit_ne h2 _ _ _).trans (State.find?_wr_ne h1 s _)
  have hl : l = s.links := rfl
  clear_value s₁ l
  have hstill := State.supersede_still { s₁ with links := { l with superseded := true } }
  have hlast : LinksStill s₂ (if was then s₂ else s₂.logEvent 0x0401 k (d32 e)) := LinksStill.of_ite (LinksStill.refl _) (LinksStill.logEvent ..)
  have h := hstill.trans hlast
  have hrd {a : Nat} (ha : a < 256) : (if was then s₂ else s₂.logEvent 0x0401 k (d32 e)).rd (lk k a) = s₁.rd (lk k a) :=
    State.rd_congr (ownDefault_lk hk ha) (h.entries _ (linkKey_lk hk ha))
  refine ⟨(congrArg Int.toNat (hrd (by decide))).trans h10, h.links.trans (by rw [hl]), (congrArg (fun x : Int => x.toNat.testBit 6) (hrd (by decide))).trans h13,
    fun j hj h1 h2 => (h.entries j hj).trans (hother j h1 h2)⟩

/-! #### The slots of a frame -/

theorem State.acqValue_still (src sel : Nat) (v : Int) (tm : Time) (s : State) : LinksStill s (s.acqValue src sel v tm) := by
  have h : Kept 0x2000 s (s.acqValue src sel v tm) := State.acqValue_kept (Sub.refl _) (Kept.refl _ s)
  refine ⟨fun j _ => h.numbersSame j (Nat.testBit_lt_two_pow ?_), h.linksSame rfl⟩
  exact (by decide : 0x2000 < 2 ^ 20).trans_le (Nat.pow_le_pow_right (by decide) (Nat.le_add_right 20 _))

theorem State.mem_nodeChans_lt {n c : Nat} {s : State} (h : c ∈ s.nodeChans n) : c < 256 := List.mem_range.1 (List.mem_filter.1 h).1

/-- What a slot shows of the bootstraps of its node's channels (R186). -/
def State.bootLow (n : Nat) (low : Bool) (s : State) : State :=
  s.each ((s.nodeChans n).filter (fun c => (s.rdN (ndk n 8)).testBit (s.rdN (chk c 4)))) (fun c s =>
    if low then ((s.setBit (chk c 0xF) 3 low).inc (chk c 0x12)).logEvent 0x0201 c (d16 c) else s.setBit (chk c 0xF) 3 low)

theorem State.bootLow_still (n : Nat) (low : Bool) (s : State) : LinksStill s (s.bootLow n low) := by
  refine LinksStill.each (fun c hc t => ?_) s
  have hc' := State.mem_nodeChans_lt (List.mem_filter.1 hc).1
  have hwr (a : Nat) (ha : a < 256) (v : Int) (u : State) : LinksStill u (u.wr (chk c a) v) := .of_left (LinksLeft.wr (LinkKey.ne_chan hc' ha) v u) rfl
  have hbit : LinksStill t (t.setBit (chk c 0xF) 3 low) := hwr 0xF (by decide) _ t
  exact LinksStill.of_ite ((hbit.trans (hwr 0x12 (by decide) _ _)).trans (LinksStill.logEvent ..)) hbit

/-- The values of a sample that is new: written, and its sequence kept. -/
def State.sampleTaken (n : Nat) (tf : Time) (u : UpSlot) (s : State) : State :=
  let s := ((s.wr (ndk n 0xE) u.volt.toInt).wr (ndk n 0xF) u.cur.toInt).wr (ndk n 0x10) u.temp.toInt
  { s with links := { s.links with
    lastSeq := Tbl.set n (u.status.toNat / 4096) s.links.lastSeq, heard := Tbl.set n s.now s.links.heard
    sampled := Tbl.set n (((tf : Int) - Time.ns 1000 - s.clock.offset).toNat) s.links.sampled } }

/-- The acquisition records of a sample. -/
def State.sampleRecorded (n : Nat) (tm : Time) (u : UpSlot) (s : State) : State :=
  (((s.acqValue 4 n u.volt.toInt tm).acqValue 4 (n + 2 ^ 14) u.cur.toInt tm).acqValue 4 (n + 2 * 2 ^ 14) u.temp.toInt tm).acqValue 4 (n + 3 * 2 ^ 14) u.status.toInt tm

/-- A lost node that is heard again works again. -/
def State.nodeHeard (n : Nat) (s : State) : State :=
  if s.rdN (ndk n 5) = 5 && !(s.link (s.rdN (ndk n 1))).rejoin && !((s.link (s.rdN (ndk n 1))).failed.contains n)
  then s.wr (ndk n 5) (if s.twoBatches n then 4 else 2) else s

theorem State.sampleRecorded_still (n : Nat) (tm : Time) (u : UpSlot) (s : State) : LinksStill s (s.sampleRecorded n tm u) :=
  (((State.acqValue_still ..).trans (State.acqValue_still ..)).trans (State.acqValue_still ..)).trans (State.acqValue_still ..)

theorem State.nodeHeard_leaves (n : Nat) (s : State) : (s.nodeHeard n).links = s.links ∧
    ∀ j, LinkKey j → j ≠ ndk n 5 → Tbl.find? j (s.nodeHeard n).od = Tbl.find? j s.od := by
  unfold State.nodeHeard
  split
  · exact ⟨rfl, fun j _ hne => State.find?_wr_ne hne s _⟩
  · exact ⟨rfl, fun _ _ _ => rfl⟩

/-- What follows a sample: the records, and a lost node that is heard again. -/
def State.sampleShown (n : Nat) (tm : Time) (u : UpSlot) (s : State) : State := (s.sampleRecorded n tm u).nodeHeard n

/-- The status and legs of a slot. -/
def State.slotStatus (n : Nat) (u : UpSlot) (s : State) : State := (s.wr (ndk n 0x11) u.status.toNat).wr (ndk n 0x12) u.legs.toNat

/-- The values of a slot, where its sequence has advanced. -/
def State.slotValues (n : Nat) (tf : Time) (u : UpSlot) (s : State) : State :=
  if Tbl.find? n s.links.lastSeq = some (u.status.toNat / 4096) then s else (s.sampleTaken n tf u).sampleShown n (tf - Time.ns 1000) u

theorem State.useSlot_eq {n : Nat} {tf : Time} {u : UpSlot} (hused : u.status.toNat.testBit 9 = true) (s : State) :
    s.useSlot n tf u = if (u.status.toNat.testBit 2 != (s.rdN (ndk n 0x11)).testBit 2) = true
      then ((s.slotStatus n u).slotValues n tf u).bootLow n (u.status.toNat.testBit 2) else (s.slotStatus n u).slotValues n tf u := by
  refine if_neg ?_
  rw [hused]
  decide

theorem State.useSlot_idle {n : Nat} {tf : Time} {u : UpSlot} (hused : u.status.toNat.testBit 9 = false) (s : State) : s.useSlot n tf u = s := by
  refine if_pos ?_
  rw [hused]
  decide

/-- Every step of a used slot after its status and values touches no reading. -/
theorem State.useSlot_still {n : Nat} {tf : Time} {u : UpSlot} (hused : u.status.toNat.testBit 9 = true) (s : State) :
    LinksStill ((s.slotStatus n u).slotValues n tf u) (s.useSlot n tf u) := by
  rw [State.useSlot_eq hused]
  exact LinksStill.of_ite (State.bootLow_still ..) (LinksStill.refl _)

/-- What a used slot of node n writes are its own entries, of subindices that no link shows in a frame. -/
theorem State.sampleShown_leaves (n : Nat) (tm : Time) (u : UpSlot) (s : State) : (s.sampleShown n tm u).links = s.links ∧
    ∀ j, LinkKey j → j ≠ ndk n 5 → Tbl.find? j (s.sampleShown n tm u).od = Tbl.find? j s.od := by
  have h := State.sampleRecorded_still n tm u s
  obtain ⟨hl, he⟩ := State.nodeHeard_leaves n (s.sampleRecorded n tm u)
  exact ⟨hl.trans h.links, fun j hj hne => (he j hj hne).trans (h.entries j hj)⟩

/-- From s to u a used slot of node n: its own readings aside, nothing of what nodes and links show changes. -/
structure SlotLeaves (n : Nat) (s u : State) : Prop where
  entries : ∀ j, LinkKey j → (∀ a ∈ [5, 0xE, 0xF, 0x10, 0x11, 0x12], j ≠ ndk n a) → Tbl.find? j u.od = Tbl.find? j s.od
  links : u.links.links = s.links.links
  superseded : u.links.superseded = s.links.superseded
  lastSeq : ∀ m ≠ n, Tbl.find? m u.links.lastSeq = Tbl.find? m s.links.lastSeq

theorem SlotLeaves.refl (n : Nat) (s : State) : SlotLeaves n s s := ⟨fun _ _ _ => rfl, rfl, rfl, fun _ _ => rfl⟩

theorem SlotLeaves.trans {n : Nat} {s t u : State} (h : SlotLeaves n s t) (g : SlotLeaves n t u) : SlotLeaves n s u :=
  ⟨fun j hj hne => (g.entries j hj hne).trans (h.entries j hj hne), g.links.trans h.links, g.superseded.trans h.superseded,
    fun m hm => (g.lastSeq m hm).trans (h.lastSeq m hm)⟩

theorem SlotLeaves.wr {n a : Nat} (ha : a ∈ [5, 0xE, 0xF, 0x10, 0x11, 0x12]) (v : Int) (s : State) : SlotLeaves n s (s.wr (ndk n a) v) :=
  ⟨fun _ _ hne => State.find?_wr_ne (hne a ha) s v, rfl, rfl, fun _ _ => rfl⟩

theorem SlotLeaves.of_still {n : Nat} {s u : State} (h : LinksStill s u) : SlotLeaves n s u :=
  ⟨fun j hj _ => h.entries j hj, congrArg Links.links h.links, congrArg Links.superseded h.links, fun m _ => congrArg (fun l : Links => Tbl.find? m l.lastSeq) h.links⟩

theorem State.slotStatus_leaves (n : Nat) (u : UpSlot) (s : State) : SlotLeaves n s (s.slotStatus n u) :=
  (SlotLeaves.wr (by decide) _ s).trans (SlotLeaves.wr (by decide) _ _)

theorem State.sampleTaken_leaves (n : Nat) (tf : Time) (u : UpSlot) (s : State) : SlotLeaves n s (s.sampleTaken n tf u) := by
  unfold State.sampleTaken
  extract_lets s₁ l
  have h₁ : SlotLeaves n s s₁ := ((SlotLeaves.wr (by decide) _ s).trans (SlotLeaves.wr (by decide) _ _)).trans (SlotLeaves.wr (by decide) _ _)
  refine h₁.trans ⟨fun _ _ _ => rfl, rfl, rfl, fun m hm => ?_⟩
  exact Tbl.find?_set_other _ _ hm

theorem State.slotValues_leaves (n : Nat) (tf : Time) (u : UpSlot) (s : State) : SlotLeaves n s (s.slotValues n tf u) := by
  unfold State.slotValues
  split
  · exact SlotLeaves.refl n s
  · obtain ⟨hl, he⟩ := State.sampleShown_leaves n (tf - Time.ns 1000) u (s.sampleTaken n tf u)
    refine (State.sampleTaken_leaves n tf u s).trans ⟨fun j hj hne => he j hj (hne 5 (by decide)), congrArg Links.links hl,
      congrArg Links.superseded hl, fun m _ => congrArg (fun l : Links => Tbl.find? m l.lastSeq) hl⟩

theorem State.useSlot_leaves (n : Nat) (tf : Time) (u : UpSlot) (s : State) : SlotLeaves n s (s.useSlot n tf u) := by
  cases hused : u.status.toNat.testBit 9 with
  | false =>
    rw [State.useSlot_idle hused]
    exact SlotLeaves.refl n s
  | true =>
    exact ((State.slotStatus_leaves n u s).trans (State.slotValues_leaves n tf u _)).trans (SlotLeaves.of_still (State.useSlot_still hused s))

/-- Node n shows slot u of a frame, whose values count where its latest sample before was not of the slot's sequence. -/
structure SlotShown (n : Nat) (u : UpSlot) (was : Option Nat) (v : State) : Prop where
  status : v.rdN (ndk n 0x11) = u.status.toNat
  legs : v.rdN (ndk n 0x12) = u.legs.toNat
  lastSeq : Tbl.find? n v.links.lastSeq = some (u.status.toNat / 4096)
  values : was ≠ some (u.status.toNat / 4096) → v.rd (ndk n 0xE) = u.volt.toInt ∧ v.rd (ndk n 0xF) = u.cur.toInt ∧ v.rd (ndk n 0x10) = u.temp.toInt

theorem SlotShown.keep {n : Nat} (hn : n < 768) {u : UpSlot} {was : Option Nat} {v w : State} (h : SlotShown n u was v) (hk : ReadingsKept n v w) : SlotShown n u was w := by
  refine ⟨(congrArg Int.toNat (hk.rd hn (by decide))).trans h.status, (congrArg Int.toNat (hk.rd hn (by decide))).trans h.legs, hk.lastSeq.trans h.lastSeq, fun hne => ?_⟩
  obtain ⟨h1, h2, h3⟩ := h.values hne
  exact ⟨(hk.rd hn (by decide)).trans h1, (hk.rd hn (by decide)).trans h2, (hk.rd hn (by decide)).trans h3⟩

section
variable {n : Nat} (hn : n < 768) {u : UpSlot}
include hn

theorem rd_ndk_wr {a b : Nat} (ha : a < 256) (hb : b < 256) (h : a ≠ b) (v : Int) (s : State) : (s.wr (ndk n b) v).rd (ndk n a) = s.rd (ndk n a) :=
  State.rd_wr_ne (ndk_ne ha hb fun _ => h) (ownDefault_ndk hn ha) v s

theorem State.slotStatus_reads (s : State) : (s.slotStatus n u).rdN (ndk n 0x11) = u.status.toNat ∧ (s.slotStatus n u).rdN (ndk n 0x12) = u.legs.toNat ∧
    ∀ a ∈ [0xE, 0xF, 0x10], (s.slotStatus n u).rd (ndk n a) = s.rd (ndk n a) := by
  refine ⟨?_, rdN_wr_nat _ _ _, fun a ha => ?_⟩
  · exact (congrArg Int.toNat (rd_ndk_wr hn (by decide) (by decide) (by decide) _ _)).trans (rdN_wr_nat _ _ s)
  · simp only [List.mem_cons, List.not_mem_nil, or_false] at ha
    exact (rd_ndk_wr hn (by omega) (by decide) (by omega) _ _).trans (rd_ndk_wr hn (by omega) (by decide) (by omega) _ s)

theorem State.sampleTaken_reads (tf : Time) (s : State) : (s.sampleTaken n tf u).rd (ndk n 0xE) = u.volt.toInt ∧ (s.sampleTaken n tf u).rd (ndk n 0xF) = u.cur.toInt ∧
    (s.sampleTaken n tf u).rd (ndk n 0x10) = u.temp.toInt ∧ (s.sampleTaken n tf u).rdN (ndk n 0x11) = s.rdN (ndk n 0x11) ∧
    (s.sampleTaken n tf u).rdN (ndk n 0x12) = s.rdN (ndk n 0x12) ∧ Tbl.find? n (s.sampleTaken n tf u).links.lastSeq = some (u.status.toNat / 4096) := by
  have hwr {a b : Nat} (ha : a < 256) (hb : b < 256) (h : a ≠ b) (v : Int) (w : State) : (w.wr (ndk n b) v).rd (ndk n a) = w.rd (ndk n a) := rd_ndk_wr hn ha hb h v w
  have hsame {a : Nat} (ha : a < 256) (h : ∀ b ∈ [0xE, 0xF, 0x10], a ≠ b) :
      (((s.wr (ndk n 0xE) u.volt.toInt).wr (ndk n 0xF) u.cur.toInt).wr (ndk n 0x10) u.temp.toInt).rd (ndk n a) = s.rd (ndk n a) :=
    (hwr ha (by decide) (h 0x10 (by decide)) _ _).trans ((hwr ha (by decide) (h 0xF (by decide)) _ _).trans (hwr ha (by decide) (h 0xE (by decide)) _ s))
  unfold State.sampleTaken
  extract_lets s₁ l
  have h1 : s₁.rd (ndk n 0xE) = u.volt.toInt :=
    (hwr (by decide) (by decide) (by decide) _ _).trans ((hwr (by decide) (by decide) (by decide) _ _).trans (State.rd_wr_same ..))
  have h2 : s₁.rd (ndk n 0xF) = u.cur.toInt := (hwr (by decide) (by decide) (by decide) _ _).trans (State.rd_wr_same ..)
  have h3 : s₁.rd (ndk n 0x10) = u.temp.toInt := State.rd_wr_same ..
  have h4 : s₁.rdN (ndk n 0x11) = s.rdN (ndk n 0x11) := congrArg Int.toNat (hsame (by decide) (by decide))
  have h5 : s₁.rdN (ndk n 0x12) = s.rdN (ndk n 0x12) := congrArg Int.toNat (hsame (by decide) (by decide))
  clear_value s₁ l
  exact ⟨h1, h2, h3, h4, h5, Tbl.find?_set_same ..⟩

theorem State.sampleShown_readings (tm : Time) (s : State) : ReadingsKept n s (s.sampleShown n tm u) := by
  obtain ⟨hl, he⟩ := State.sampleShown_leaves n tm u s
  refine ⟨fun a ha => he _ (linkKey_ndk hn (lt_of_mem_readings ha)) (ndk_ne (lt_of_mem_readings ha) (by decide) fun _ h5 => ?_),
    congrArg (fun l : Links => Tbl.find? n l.lastSeq) hl⟩
  subst h5
  exact absurd ha (by decide)

/-- What a used slot of node n brings about, where its sequence stands as before the frame or the slot has been used. -/
theorem State.useSlot_shows {tf : Time} {was : Option Nat} (hused : u.status.toNat.testBit 9 = true) {s : State}
    (hs : Tbl.find? n s.links.lastSeq = was ∨ SlotShown n u was s) : SlotShown n u was (s.useSlot n tf u) := by
  refine SlotShown.keep hn ?_ ((State.useSlot_still hused s).readings hn)
  obtain ⟨hst, hlegs, hvals⟩ := State.slotStatus_reads hn (u := u) s
  have hseq : (s.slotStatus n u).links = s.links := rfl
  generalize s.slotStatus n u = s₁ at *
  unfold State.slotValues
  split
  case isTrue h =>
    refine ⟨hst, hlegs, h, fun hne => ?_⟩
    rcases hs with hwas | hshown
    · exact absurd (hwas.symm.trans (hseq ▸ h)) hne
    · obtain ⟨h1, h2, h3⟩ := hshown.values hne
      exact ⟨(hvals 0xE (by decide)).trans h1, (hvals 0xF (by decide)).trans h2, (hvals 0x10 (by decide)).trans h3⟩
  case isFalse =>
    obtain ⟨h1, h2, h3, h4, h5, h6⟩ := State.sampleTaken_reads hn (u := u) tf s₁
    exact SlotShown.keep hn ⟨h4.trans hst, h5.trans hlegs, h6, fun _ => ⟨h1, h2, h3⟩⟩ (State.sampleShown_readings hn _ _)

end

/-- A slot of another node leaves the readings of node n. -/
theorem SlotLeaves.readings {n m : Nat} (hn : n < 768) (h : n ≠ m) {s u : State} (hl : SlotLeaves m s u) : ReadingsKept n s u := by
  refine ⟨fun a ha => hl.entries _ (linkKey_ndk hn (lt_of_mem_readings ha)) fun b hb => ndk_ne (lt_of_mem_readings ha) ?_ fun hnm => absurd hnm h, hl.lastSeq n h⟩
  simp only [List.mem_cons, List.not_mem_nil, or_false] at hb
  omega

/-- A slot leaves what a frame shows of the link. -/
theorem SlotLeaves.face {k m : Nat} (hk : k < 24) (hm : m < 768) {s u : State} (hl : SlotLeaves m s u) : FaceKept k s u := by
  refine ⟨fun a ha => hl.entries _ (linkKey_lk hk (lt_of_mem_face ha)) fun b hb => ?_, hl.superseded, congrArg (fun l => (Tbl.get ({} : LinkRec) k l).req) hl.links⟩
  simp only [List.mem_cons, List.not_mem_nil, or_false] at hb ha
  simp only [lk, ndk, key]
  omega

/-! #### The stages of a good frame -/

/-- The used members of a frame: the node at each of its slots, where one is placed there. -/
def State.frameUsed (k : Nat) (f : UpFrame) (s : State) : List (Nat × UpSlot) :=
  (List.zip (List.range 32) f.slots).filterMap (fun p => (s.nodeAt k p.1).map (fun n => (n, p.2)))

/-- The epoch and the time marker of a frame. -/
def State.epochSeen (k : Nat) (f : UpFrame) (s : State) : State :=
  (if s.ownEpoch < f.head.epoch then s.higherEpoch k f.head.epoch else s).noteOverlap f.head

/-- The new faults that the used members show, counted and logged. -/
def State.faultsNoted (used : List (Nat × UpSlot)) (s : State) : State :=
  s.each (used.filter (fun p => s.newFault p.1 p.2)) (fun p s => (s.inc (ndk p.1 0x17)).logEvent 0x0300 p.1 (d16 p.2.status.toNat ++ d32 p.2.legs.toNat))

/-- The units on the slots of a frame. -/
def State.slotsTrigger (k : Nat) (f : UpFrame) (s : State) : State :=
  s.each (List.zip (List.range 32) f.slots) (fun p s =>
    if p.2.status.toNat.testBit 9 then s.frameSource 0xA (256 * k + p.1) (slotBytes p.2) (Time.ns f.head.tf - Time.ns 1000) else s)

/-- A link whose nodes are all locked enters running service. -/
def State.serviceWhenLocked (k : Nat) (s : State) : State :=
  if s.rdN (lk k 3) = 2 && s.rdN (lk k 4) ≠ 0 && s.allLocked k then s.startService k else s

/-- What a good frame does, from the state in which its epoch is seen. -/
def State.goodFrame (k : Nat) (f : UpFrame) (s : State) : State :=
  ((((((s.faultsNoted (s.frameUsed k f)).each (s.frameUsed k f) (fun p s => s.useSlot p.1 (Time.ns f.head.tf) p.2)).noteLocked k f.slots).nodeFaults
    (s.frameUsed k f)).slotsTrigger k f).takeResponse k f.head.respCode f.head.respPos f.head.respData).serviceWhenLocked k

theorem State.upFrame_good {k : Nat} {f : UpFrame} {s : State} (hon : s.rdB (lk k 1) = true) (hst : 2 ≤ s.rdN (lk k 3)) (hcrc : f.crcGood = true)
    (hstomp : f.stomped = false) :
    ∃ o, s.upFrame k f = (((({ s with out := o } : State).inc (lk k 0xE) f.violations).inc (lk k 0xC)).epochSeen k f).goodFrame k f := by
  obtain ⟨o, ho⟩ := State.loopBack_leaves k f s
  refine ⟨o, ?_⟩
  rw [← ho]
  have hon' : (s.loopBack k f).rdB (lk k 1) = true := by rw [ho]; exact hon
  have hst' : 2 ≤ (s.loopBack k f).rdN (lk k 3) := by rw [ho]; exact hst
  have hrun : ¬(!((s.loopBack k f).rdB (lk k 1)) || decide ((s.loopBack k f).rdN (lk k 3) < 2)) = true := by simp [hon', not_lt.2 hst']
  have hgood : ¬(!f.crcGood || f.stomped) = true := by simp [hcrc, hstomp]
  exact (if_neg hrun).trans (if_neg hgood)

/-! #### What each stage leaves -/

theorem State.frameSource_still (type sel : Nat) (bytes : List Byte) (tm : Time) (s : State) : LinksStill s (s.frameSource type sel bytes tm) := by
  have h : Kept 0x7fffd000000000000000000e000 s (s.frameSource type sel bytes tm) := State.frameSource_kept (Sub.refl _) (Kept.refl _ s)
  refine ⟨fun j hj => h.numbersSame j ?_, h.linksSame rfl⟩
  have hbits : ∀ z ≤ 67, Nat.testBit 0x7fffd000000000000000000e000 (20 + z) = false := by decide
  exact hbits _ (zone_lt_of_lt_acq hj.low)

theorem State.slotsTrigger_still (k : Nat) (f : UpFrame) (s : State) : LinksStill s (s.slotsTrigger k f) :=
  LinksStill.each (fun _ _ t => LinksStill.of_ite (State.frameSource_still ..) (LinksStill.refl t)) s

theorem State.nodeFaults_still (used : List (Nat × UpSlot)) (s : State) : LinksStill s (s.nodeFaults used) := by
  refine LinksStill.each (fun b _ t => ?_) s
  extract_lets mine
  refine LinksStill.of_ite (LinksStill.refl t) (.of_left (State.blockBatch_left ..) ?_)
  have h : Kept 0x7ffffffffffc00000000000e124 t (t.blockBatch b 256 (mine.flatMap fun p => d16 p.1 ++ d32 p.2.legs.toNat)) :=
    State.blockBatch_kept (Sub.refl _) (Kept.refl _ t)
  exact h.linksSame rfl

/-- From s to u only entries of subindex a of nodes change, which no frame shows. -/
theorem FaceKept.of_node {k n a : Nat} {s : State} (ha : a < 256) (h : a ∉ [0xC, 0xE, 0x10, 0x13]) (v : Int) : FaceKept k s (s.wr (ndk n a) v) :=
  ⟨fun _ hb => State.find?_wr_ne (lk_ne_node (lt_of_mem_face hb) ha fun hba => h (hba ▸ hb)) s v, rfl, rfl⟩

theorem ReadingsKept.of_node {m n a : Nat} {s : State} (ha : a < 256) (h : a ∉ [0xE, 0xF, 0x10, 0x11, 0x12]) (v : Int) : ReadingsKept n s (s.wr (ndk m a) v) :=
  ⟨fun _ hb => State.find?_wr_ne (ndk_ne (lt_of_mem_readings hb) ha fun _ hba => h (hba ▸ hb)) s v, rfl⟩

theorem FaceKept.setLink {k : Nat} {r : LinkRec} {s : State} (hr : r.req = (s.link k).req) : FaceKept k s (s.setLink k r) :=
  ⟨fun _ _ => rfl, rfl, (congrArg LinkRec.req (State.link_setLink_same k r s)).trans hr⟩

section
variable {k n : Nat}

theorem State.faultsNoted_face (hk : k < 24) (used : List (Nat × UpSlot)) (s : State) : FaceKept k s (s.faultsNoted used) :=
  State.each_keeps (P := FaceKept k s)
    (fun _ _ t ht => (ht.trans (FaceKept.of_node (by decide) (by decide) _)).trans ((LinksStill.logEvent ..).face hk)) (FaceKept.refl k s)

theorem State.noteLocked_face (slots : List UpSlot) (s : State) : FaceKept k s (s.noteLocked k slots) := by
  unfold State.noteLocked
  extract_lets l r s₁ timed
  have h₁ : FaceKept k s s₁ := FaceKept.setLink rfl
  exact h₁.trans ⟨fun _ _ => rfl, rfl, rfl⟩

theorem State.serviceWhenLocked_face (s : State) : FaceKept k s (s.serviceWhenLocked k) := by
  have hwr : FaceKept k s (s.wr (lk k 3) 3) :=
    ⟨fun a ha => State.find?_wr_ne (lk_ne_link (lt_of_mem_face ha) (by decide) fun _ h3 => absurd (h3 ▸ ha) (by decide)) s 3, rfl, rfl⟩
  have hset : FaceKept k (s.wr (lk k 3) 3) (s.startService k) := FaceKept.setLink rfl
  unfold State.serviceWhenLocked
  split
  · exact hwr.trans hset
  · exact FaceKept.refl k s

theorem State.faultsNoted_readings (hn : n < 768) (used : List (Nat × UpSlot)) (s : State) : ReadingsKept n s (s.faultsNoted used) :=
  State.each_keeps (P := ReadingsKept n s)
    (fun _ _ t ht => (ht.trans (ReadingsKept.of_node (by decide) (by decide) _)).trans ((LinksStill.logEvent ..).readings hn)) (ReadingsKept.refl n s)

theorem State.noteLocked_readings (slots : List UpSlot) (s : State) : ReadingsKept n s (s.noteLocked k slots) := ⟨fun _ _ => rfl, rfl⟩

theorem State.serviceWhenLocked_readings (s : State) : ReadingsKept n s (s.serviceWhenLocked k) := by
  unfold State.serviceWhenLocked
  split
  · exact ⟨fun a ha => State.find?_wr_ne (lk_ne_node (by decide) (lt_of_mem_readings ha) fun h3 => absurd (h3 ▸ ha) (by decide)).symm s 3, rfl⟩
  · exact ReadingsKept.refl n s

end

/-! #### The response of a frame (R210) -/

theorem Kept.still {s u : State} (h : Kept 0x28000 s u) : LinksStill s u :=
  ⟨fun j _ => h.numbersSame j (Nat.testBit_lt_two_pow ((by decide : 0x28000 < 2 ^ 20).trans_le (Nat.pow_le_pow_right (by decide) (Nat.le_add_right 20 _)))),
    h.linksSame rfl⟩

theorem State.answerTo_still (sid e : Nat) (s : State) : LinksStill s (s.answerTo sid e) := (State.answerTo_kept (Sub.refl _) (Kept.refl _ s)).still

/-- What follows a response once its request is off the link: the host's answer. -/
theorem State.takeResponse_cases {k code pos data : Nat} {s : State} {q : LinkReq} (hq : (s.link k).req = some q) (htake : ¬(code = 0 || q.sent.isNone || pos ≠ q.pos) = true) :
    LinksStill (s.setLink k { s.link k with req := none }) (s.takeResponse k code pos data) ∨
    LinksStill ((s.setLink k { s.link k with req := none }).wr (ndk q.node 0x1D) (data % 2 ^ 32 : Nat)) (s.takeResponse k code pos data) := by
  have heq : s.takeResponse k code pos data =
      if code = 1 then
        if q.code ≠ 1 then (s.setLink k { s.link k with req := none }).answerTo q.sid 0
        else match q.segment with
          | none => (((s.setLink k { s.link k with req := none }).wr (ndk q.node 0x1D) (data % 2 ^ 32 : Nat)).emit (.reply 0 0 (d32 data))).sessionReply q.sid
          | some limit => ((s.setLink k { s.link k with req := none }).wr (ndk q.node 0x1D) (data % 2 ^ 32 : Nat)).segmentOf q.sid (ndk q.node 0x1D) 0 limit (d32 data)
      else (s.setLink k { s.link k with req := none }).answerTo q.sid 0x0B000094 := by
    unfold State.takeResponse
    rw [hq]
    exact if_neg htake
  rw [heq]
  generalize s.setLink k { s.link k with req := none } = s₁
  split
  · split
    · exact .inl (State.answerTo_still ..)
    · right
      generalize s₁.wr (ndk q.node 0x1D) (data % 2 ^ 32 : Nat) = s₂
      split
      · have hemit : LinksStill s₂ (s₂.emit (.reply 0 0 (d32 data))) := ⟨fun _ _ => rfl, rfl⟩
        exact hemit.trans (State.sessionReply_kept (Sub.refl _) (Kept.refl _ _)).still
      · exact (State.segmentOf_kept (Sub.refl _) (Kept.refl _ s₂)).still
  · exact .inl (State.answerTo_still ..)

theorem State.takeResponse_pass {k code pos data : Nat} {s : State} (h : ∀ q, (s.link k).req = some q → (code = 0 || q.sent.isNone || pos ≠ q.pos) = true) :
    s.takeResponse k code pos data = s := by
  unfold State.takeResponse
  split
  · rfl
  · next q hq => exact if_pos (h q hq)

/-- A response leaves the readings, the link's counts and epoch, and takes at most the request. -/
theorem State.takeResponse_leaves (k code pos data : Nat) (s : State) :
    (∀ n < 768, ReadingsKept n s (s.takeResponse k code pos data)) ∧
    (k < 24 → (∀ a ∈ [0xC, 0xE, 0x10, 0x13], Tbl.find? (lk k a) (s.takeResponse k code pos data).od = Tbl.find? (lk k a) s.od) ∧
      (s.takeResponse k code pos data).links.superseded = s.links.superseded ∧
      ∀ q, (s.link k).req = some q → ¬(code = 0 || q.sent.isNone || pos ≠ q.pos) = true → ((s.takeResponse k code pos data).link k).req = none) := by
  by_cases h : ∀ q, (s.link k).req = some q → (code = 0 || q.sent.isNone || pos ≠ q.pos) = true
  · rw [State.takeResponse_pass h]
    exact ⟨fun n _ => ReadingsKept.refl n s, fun _ => ⟨fun _ _ => rfl, rfl, fun q hq hnot => absurd (h q hq) hnot⟩⟩
  · obtain ⟨q, hq⟩ := not_forall.1 h
    obtain ⟨hq, htake⟩ := Classical.not_imp.1 hq
    have hcases := State.takeResponse_cases (data := data) hq htake
    have hnone : ((s.setLink k { s.link k with req := none }).link k).req = none := congrArg LinkRec.req (State.link_setLink_same ..)
    have hread (n : Nat) : ReadingsKept n s (s.setLink k { s.link k with req := none }) := ⟨fun _ _ => rfl, rfl⟩
    have hod : (s.setLink k { s.link k with req := none }).od = s.od := rfl
    have hsup : (s.setLink k { s.link k with req := none }).links.superseded = s.links.superseded := rfl
    generalize s.takeResponse k code pos data = u at *
    generalize s.setLink k { s.link k with req := none } = s₁ at *
    have hface {a : Nat} (hk : k < 24) (hs : FaceKept k s₁ u) (ha : a ∈ [0xC, 0xE, 0x10, 0x13]) : Tbl.find? (lk k a) u.od = Tbl.find? (lk k a) s.od :=
      (hs.entries a ha).trans (by rw [hod])
    have hfk (hk : k < 24) : FaceKept k s₁ u := hcases.elim (fun h => h.face hk) fun h => (FaceKept.of_node (by decide) (by decide) _).trans (h.face hk)
    refine ⟨fun n hn => ?_, fun hk => ⟨fun a ha => hface hk (hfk hk) ha, (hfk hk).superseded.trans hsup, fun _ _ _ => (hfk hk).req.trans hnone⟩⟩
    exact (hread n).trans (hcases.elim (fun h => h.readings hn) fun h => (ReadingsKept.of_node (by decide) (by decide) _).trans (h.readings hn))

/-! #### A good frame shows its slots -/

theorem State.nodeAt_eq {k p n : Nat} {s : State} (h : s.nodeAt k p = some n) : n < 768 ∧ s.rdN (ndk n 2) = p := by
  unfold State.nodeAt at h
  have hplaced : n ∈ allNodes.filter (fun n => s.rdN (ndk n 1) == k) := List.mem_of_find?_eq_some h
  have hmem : n ∈ List.range 768 := (List.mem_filter.1 hplaced).1
  have hpos := List.find?_some (p := fun n => s.rdN (ndk n 2) == p) h
  exact ⟨List.mem_range.1 hmem, beq_iff_eq.1 hpos⟩

theorem State.mem_frameUsed {k : Nat} {f : UpFrame} {s : State} {m : Nat × UpSlot} :
    m ∈ s.frameUsed k f ↔ ∃ p ∈ List.zip (List.range 32) f.slots, s.nodeAt k p.1 = some m.1 ∧ p.2 = m.2 := by
  simp only [State.frameUsed, List.mem_filterMap, Option.map_eq_some_iff, Prod.ext_iff]
  constructor
  · rintro ⟨p, hp, n, hn, h1, h2⟩
    exact ⟨p, hp, h1 ▸ hn, h2⟩
  · rintro ⟨p, hp, hn, h2⟩
    exact ⟨p, hp, m.1, hn, rfl, h2⟩

theorem getElem?_of_mem_zip_range {α : Type} {n : Nat} {l : List α} {p : Nat × α} (h : p ∈ List.zip (List.range n) l) : l[p.1]? = some p.2 := by
  obtain ⟨i, hi, rfl⟩ := List.mem_iff_getElem.1 h
  simp only [List.getElem_zip, List.getElem_range]
  exact List.getElem?_eq_getElem _

/-- The used members of a frame hold a node in one slot only. -/
theorem State.frameUsed_unique {k n : Nat} {f : UpFrame} {s : State} {u v : UpSlot} (hu : (n, u) ∈ s.frameUsed k f) (hv : (n, v) ∈ s.frameUsed k f) : u = v := by
  obtain ⟨p, hp, hpn, rfl⟩ := State.mem_frameUsed.1 hu
  obtain ⟨p', hp', hpn', rfl⟩ := State.mem_frameUsed.1 hv
  have hpos : p.1 = p'.1 := (State.nodeAt_eq hpn).2.symm.trans (State.nodeAt_eq hpn').2
  have h := getElem?_of_mem_zip_range hp
  rw [hpos, getElem?_of_mem_zip_range hp'] at h
  exact (Option.some.inj h).symm

/-- The slots of all used members. -/
def State.slotsUsed (used : List (Nat × UpSlot)) (tf : Time) (s : State) : State := s.each used (fun p s => s.useSlot p.1 tf p.2)

theorem State.slotsUsed_face {k : Nat} (hk : k < 24) {used : List (Nat × UpSlot)} (hused : ∀ m ∈ used, m.1 < 768) (tf : Time) (s : State) :
    FaceKept k s (s.slotsUsed used tf) :=
  State.each_keeps (P := FaceKept k s) (fun m hm t ht => ht.trans (SlotLeaves.face hk (hused m hm) (State.useSlot_leaves m.1 tf m.2 t))) (FaceKept.refl k s)

theorem State.slotsUsed_shows {n : Nat} (hn : n < 768) {u : UpSlot} {used : List (Nat × UpSlot)} (hmem : (n, u) ∈ used)
    (hone : ∀ v, (n, v) ∈ used → v = u) (hbit : u.status.toNat.testBit 9 = true) (tf : Time) (s : State) :
    SlotShown n u (Tbl.find? n s.links.lastSeq) (s.slotsUsed used tf) := by
  have hstep (m : Nat × UpSlot) (hm : m ∈ used) (t : State)
      (ht : Tbl.find? n t.links.lastSeq = Tbl.find? n s.links.lastSeq ∨ SlotShown n u (Tbl.find? n s.links.lastSeq) t) :
      (m.1 = n → SlotShown n u (Tbl.find? n s.links.lastSeq) (t.useSlot m.1 tf m.2)) ∧
      (m.1 ≠ n → ReadingsKept n t (t.useSlot m.1 tf m.2)) := by
    refine ⟨fun h => ?_, fun h => SlotLeaves.readings hn (Ne.symm h) (State.useSlot_leaves ..)⟩
    obtain ⟨m₁, m₂⟩ := m
    cases h
    cases hone m₂ hm
    exact State.useSlot_shows hn hbit ht
  refine State.each_reaches (I := fun t => Tbl.find? n t.links.lastSeq = Tbl.find? n s.links.lastSeq ∨ SlotShown n u (Tbl.find? n s.links.lastSeq) t) hmem
    (fun m hm t ht => ?_) (fun t ht => (hstep (n, u) hmem t ht).1 rfl) (fun m hm t ht => ?_) (.inl rfl)
  · by_cases h : m.1 = n
    · exact .inr ((hstep m hm t ht).1 h)
    · have hkeep := (hstep m hm t ht).2 h
      exact ht.imp hkeep.lastSeq.trans (·.keep hn hkeep)
  · by_cases h : m.1 = n
    · exact (hstep m hm t (.inr ht)).1 h
    · exact ht.keep hn ((hstep m hm t (.inr ht)).2 h)

/-- What follows the slots of a frame leaves their readings. -/
theorem State.afterSlots_readings {n : Nat} (hn : n < 768) (k : Nat) (f : UpFrame) (used : List (Nat × UpSlot)) (s : State) :
    ReadingsKept n s (((((s.noteLocked k f.slots).nodeFaults used).slotsTrigger k f).takeResponse k f.head.respCode f.head.respPos
      f.head.respData).serviceWhenLocked k) :=
  ((((State.noteLocked_readings ..).trans ((State.nodeFaults_still ..).readings hn)).trans ((State.slotsTrigger_still ..).readings hn)).trans
    ((State.takeResponse_leaves ..).1 n hn)).trans (State.serviceWhenLocked_readings _)

theorem State.goodFrame_shows {k : Nat} {f : UpFrame} {s : State} {p : Nat × UpSlot} (hp : p ∈ List.zip (List.range 32) f.slots) {n : Nat}
    (hn : s.nodeAt k p.1 = some n) (hbit : p.2.status.toNat.testBit 9 = true) : SlotShown n p.2 (Tbl.find? n s.links.lastSeq) (s.goodFrame k f) := by
  have hn' := (State.nodeAt_eq hn).1
  have hmem : (n, p.2) ∈ s.frameUsed k f := State.mem_frameUsed.2 ⟨p, hp, hn, rfl⟩
  have hnoted := State.faultsNoted_readings hn' (s.frameUsed k f) s
  have h := State.slotsUsed_shows hn' hmem (fun v hv => State.frameUsed_unique hv hmem) hbit (Time.ns f.head.tf) (s.faultsNoted (s.frameUsed k f))
  rw [hnoted.lastSeq] at h
  exact h.keep hn' (State.afterSlots_readings hn' k f _ _)

/-- A good frame, its epoch seen, leaves the link's counts and epoch, and takes at most the request. -/
theorem State.goodFrame_leaves {k : Nat} (hk : k < 24) (f : UpFrame) (s : State) :
    (∀ a ∈ [0xC, 0xE, 0x10, 0x13], (s.goodFrame k f).rdN (lk k a) = s.rdN (lk k a)) ∧ (s.goodFrame k f).links.superseded = s.links.superseded ∧
    ∀ q, (s.link k).req = some q → ¬(f.head.respCode = 0 || q.sent.isNone || f.head.respPos ≠ q.pos) = true → ((s.goodFrame k f).link k).req = none := by
  have hused (m : Nat × UpSlot) (hm : m ∈ s.frameUsed k f) : m.1 < 768 := by
    obtain ⟨p, -, hpn, -⟩ := State.mem_frameUsed.1 hm
    exact (State.nodeAt_eq hpn).1
  have h₁ := (State.faultsNoted_face hk (s.frameUsed k f) s).trans (State.slotsUsed_face hk hused (Time.ns f.head.tf) _)
  have h₂ := ((h₁.trans (State.noteLocked_face f.slots _)).trans ((State.nodeFaults_still (s.frameUsed k f) _).face hk)).trans
    ((State.slotsTrigger_still k f _).face hk)
  have h₃ (t : State) := (State.takeResponse_leaves k f.head.respCode f.head.respPos f.head.respData t).2 hk
  have h₄ (t : State) := State.serviceWhenLocked_face (k := k) t
  have heq : s.goodFrame k f = (State.takeResponse k f.head.respCode f.head.respPos f.head.respData
    (((((s.faultsNoted (s.frameUsed k f)).slotsUsed (s.frameUsed k f) (Time.ns f.head.tf)).noteLocked k f.slots).nodeFaults
      (s.frameUsed k f)).slotsTrigger k f)).serviceWhenLocked k := rfl
  rw [heq]
  generalize ((((s.faultsNoted (s.frameUsed k f)).slotsUsed (s.frameUsed k f) (Time.ns f.head.tf)).noteLocked k f.slots).nodeFaults
      (s.frameUsed k f)).slotsTrigger k f = s₁ at *
  obtain ⟨hod, hsup, hreq⟩ := h₃ s₁
  generalize s₁.takeResponse k f.head.respCode f.head.respPos f.head.respData = s₂ at *
  have hlast := h₄ s₂
  refine ⟨fun a ha => ?_, hlast.superseded.trans (hsup.trans h₂.superseded), fun q hq htake => hlast.req.trans (hreq q (h₂.req.trans hq) htake)⟩
  exact congrArg Int.toNat (State.rd_congr (ownDefault_lk hk (lt_of_mem_face ha)) ((hlast.entries a ha).trans ((hod a ha).trans (h₂.entries a ha))))

/-! #### The epoch of a good frame -/

/-- What the epoch of a frame leaves: every entry but the link's epoch and status, and the links but for the mark of a higher epoch. -/
theorem State.epochSeen_leaves {k : Nat} (hk : k < 24) (f : UpFrame) (s : State) :
    (∀ j, LinkKey j → j ≠ lk k 0x10 → j ≠ lk k 0x13 → Tbl.find? j (s.epochSeen k f).od = Tbl.find? j s.od) ∧
    (∃ b, (s.epochSeen k f).links = { s.links with superseded := b }) ∧
    (s.ownEpoch < f.head.epoch → (s.epochSeen k f).rdN (lk k 0x10) = max (s.rdN (lk k 0x10)) f.head.epoch ∧ (s.epochSeen k f).links.superseded = true ∧
      (s.epochSeen k f).bit (lk k 0x13) 6 = true) := by
  unfold State.epochSeen
  split
  case isTrue =>
    obtain ⟨h10, hl, h13, hod⟩ := State.higherEpoch_shows hk f.head.epoch s
    generalize s.higherEpoch k f.head.epoch = s₁ at *
    have h := State.noteOverlap_still f.head s₁
    have hrd {a : Nat} (ha : a < 256) : (s₁.noteOverlap f.head).rd (lk k a) = s₁.rd (lk k a) :=
      State.rd_congr (ownDefault_lk hk ha) (h.entries _ (linkKey_lk hk ha))
    refine ⟨fun j hj h1 h2 => (h.entries j hj).trans (hod j hj h1 h2), ⟨true, h.links.trans hl⟩, fun _ => ⟨?_, ?_, ?_⟩⟩
    · exact (congrArg Int.toNat (hrd (by decide))).trans h10
    · rw [h.links, hl]
    · exact (congrArg (fun x : Int => x.toNat.testBit 6) (hrd (by decide))).trans h13
  case isFalse hle =>
    have h := State.noteOverlap_still f.head s
    exact ⟨fun j hj _ _ => h.entries j hj, ⟨_, h.links⟩, fun hlt => absurd hlt hle⟩

/-- The places of the nodes are those of their entries. -/
theorem State.nodeAt_congr {s u : State} (h : ∀ n < 768, ∀ a ∈ [1, 2], u.rdN (ndk n a) = s.rdN (ndk n a)) (k p : Nat) : u.nodeAt k p = s.nodeAt k p := by
  have hplaced : u.placed k = s.placed k := List.filter_congr fun n hn => by rw [h n (List.mem_range.1 hn) 1 (by decide)]
  unfold State.nodeAt
  rw [hplaced]
  exact List.find?_congr fun n hn => by rw [h n (List.mem_range.1 (List.mem_filter.1 hn).1) 2 (by decide)]

/-! #### The command -/

section
variable {t : Time} {k : LinkNo} {f : UpFrame} {s : State}

theorem State.ownEpoch_congr {s u : State} (hl : u.links = s.links) (h : ∀ a ∈ [1, 7, 8], u.rdN (twk a) = s.rdN (twk a)) : u.ownEpoch = s.ownEpoch := by
  have h1 : u.rdN (key 0x2510 1) = s.rdN (key 0x2510 1) := h 1 (by decide)
  have h7 : u.rdN (key 0x2510 7) = s.rdN (key 0x2510 7) := h 7 (by decide)
  have h8 : u.rdN (key 0x2510 8) = s.rdN (key 0x2510 8) := h 8 (by decide)
  unfold State.ownEpoch State.commands
  rw [hl, h1, h7, h8]

/-- What the counts of a good frame leave: every entry but the two. -/
theorem State.find?_counts {j o : Nat} {x : List Output} (h1 : j ≠ lk o 0xE) (h2 : j ≠ lk o 0xC) (v : Nat) (s : State) :
    Tbl.find? j ((({ s with out := x } : State).inc (lk o 0xE) v).inc (lk o 0xC)).od = Tbl.find? j s.od :=
  (State.find?_wr_ne h2 _ _).trans (State.find?_wr_ne h1 _ _)

theorem upFrameReceived_good (hon : s.rdB (lk k 1) = true) (hst : 2 ≤ s.rdN (lk k 3)) (hcrc : f.crcGood = true) (hstomp : f.stomped = false) :
    Completes (.upFrameReceived t k f) s (fun u => u.rdN (lk k 0xC) = (s.rdN (lk k 0xC) + 1) % 2 ^ 32 ∧
      u.rdN (lk k 0xE) = (s.rdN (lk k 0xE) + f.violations) % 2 ^ 32 ∧
      (s.ownEpoch < f.head.epoch → u.rdN (lk k 0x10) = max (s.rdN (lk k 0x10)) f.head.epoch ∧ u.links.superseded = true ∧ u.bit (lk k 0x13) 6 = true) ∧
      (∀ r, (s.link k).req = some r → r.sent.isSome = true → f.head.respCode ≠ 0 → f.head.respPos = r.pos → (u.link k).req = none) ∧
      ∀ p ∈ List.zip (List.range 32) f.slots, ∀ n, s.nodeAt k p.1 = some n → p.2.status.toNat.testBit 9 = true →
        u.rdN (ndk n 0x11) = p.2.status.toNat ∧ u.rdN (ndk n 0x12) = p.2.legs.toNat ∧
        (Tbl.find? n s.links.lastSeq ≠ some (p.2.status.toNat / 4096) →
          u.rd (ndk n 0xE) = p.2.volt.toInt ∧ u.rd (ndk n 0xF) = p.2.cur.toInt ∧ u.rd (ndk n 0x10) = p.2.temp.toInt)) := by
  refine ⟨(s.begin t).upFrame k f, rfl, ?_⟩
  obtain ⟨o, ho⟩ := State.upFrame_good (s := s.begin t) hon hst hcrc hstomp
  rw [ho]
  have hE : ((({ s.begin t with out := o } : State).inc (lk k 0xE) f.violations).inc (lk k 0xC)).rdN (lk k 0xE) = (s.rdN (lk k 0xE) + f.violations) % 2 ^ 32 :=
    (rdN_lk_wr k.isLt (by decide) (by decide) _ _).trans (State.rdN_inc_same (lk k 0xE) f.violations _)
  have hC : ((({ s.begin t with out := o } : State).inc (lk k 0xE) f.violations).inc (lk k 0xC)).rdN (lk k 0xC) = (s.rdN (lk k 0xC) + 1) % 2 ^ 32 := by
    have h : (({ s.begin t with out := o } : State).inc (lk k 0xE) f.violations).rdN (lk k 0xC) = s.rdN (lk k 0xC) :=
      rdN_lk_wr k.isLt (by decide) (by decide) _ _
    rw [State.rdN_inc_same, h]
  have hlinks : ((({ s.begin t with out := o } : State).inc (lk k 0xE) f.violations).inc (lk k 0xC)).links = s.links := rfl
  have h10 : ((({ s.begin t with out := o } : State).inc (lk k 0xE) f.violations).inc (lk k 0xC)).rdN (lk k 0x10) = s.rdN (lk k 0x10) :=
    (rdN_lk_wr k.isLt (by decide) (by decide) _ _).trans (rdN_lk_wr k.isLt (by decide) (by decide) _ _)
  have hep : ((({ s.begin t with out := o } : State).inc (lk k 0xE) f.violations).inc (lk k 0xC)).ownEpoch = s.ownEpoch := by
    refine State.ownEpoch_congr hlinks fun a ha => ?_
    have ha' : a = 1 ∨ a = 7 ∨ a = 8 := by simpa using ha
    have hne (b : Nat) : twk a ≠ lk k b := by
      simp only [twk, lk, key]
      omega
    exact congrArg Int.toNat (State.rd_congr (.inl (by simp only [twk, key]; omega)) (State.find?_counts (hne _) (hne _) f.violations (s.begin t)))
  have hnode (n : Nat) (hn : n < 768) (a : Nat) (ha : a ∈ [1, 2]) :
      ((({ s.begin t with out := o } : State).inc (lk k 0xE) f.violations).inc (lk k 0xC)).rdN (ndk n a) = s.rdN (ndk n a) := by
    have ha' : a = 1 ∨ a = 2 := by simpa using ha
    exact congrArg Int.toNat (State.rd_congr (ownDefault_ndk hn (by omega))
      (State.find?_counts (lk_ne_node (by decide) (by omega) (by omega)).symm (lk_ne_node (by decide) (by omega) (by omega)).symm f.violations (s.begin t)))
  generalize (({ s.begin t with out := o } : State).inc (lk k 0xE) f.violations).inc (lk k 0xC) = s₁ at *
  obtain ⟨hod, ⟨b, hb⟩, hepoch⟩ := State.epochSeen_leaves k.isLt f s₁
  rw [hep, h10] at hepoch
  have hseen {a : Nat} (ha : a < 256) (h1 : a ≠ 0x10) (h2 : a ≠ 0x13) : (s₁.epochSeen k f).rdN (lk k a) = s₁.rdN (lk k a) :=
    congrArg Int.toNat (State.rd_congr (ownDefault_lk k.isLt ha) (hod _ (linkKey_lk k.isLt ha) (lk_ne_link ha (by decide) fun _ => h1) (lk_ne_link ha (by decide) fun _ => h2)))
  have hat (p : Nat) : (s₁.epochSeen k f).nodeAt k p = s.nodeAt k p := by
    refine State.nodeAt_congr (fun n hn a ha => (congrArg Int.toNat ?_).trans (hnode n hn a ha)) k p
    have ha' : a = 1 ∨ a = 2 := by simpa using ha
    exact State.rd_congr (ownDefault_ndk hn (by omega))
      (hod _ (linkKey_ndk hn (by omega)) (lk_ne_node (by decide) (by omega) (by omega)).symm (lk_ne_node (by decide) (by omega) (by omega)).symm)
  have hC₂ := (hseen (a := 0xC) (by decide) (by decide) (by decide)).trans hC
  have hE₂ := (hseen (a := 0xE) (by decide) (by decide) (by decide)).trans hE
  have hlink : (s₁.epochSeen k f).link k = s.link k :=
    (congrArg (fun l : Links => Tbl.get ({} : LinkRec) k l.links) hb).trans (link_congr hlinks : s₁.link k = s.link k)
  have hseq : (s₁.epochSeen k f).links.lastSeq = s.links.lastSeq := by
    rw [hb, ← hlinks]
  generalize s₁.epochSeen k f = s₂ at *
  obtain ⟨hkeep, hsup, hreq⟩ := State.goodFrame_leaves k.isLt f s₂
  refine ⟨(hkeep 0xC (by decide)).trans hC₂, (hkeep 0xE (by decide)).trans hE₂, fun hlt => ?_, fun r hr hsent hcode hpos => ?_, fun p hp n hn hbit => ?_⟩
  · obtain ⟨h1, h2, h3⟩ := hepoch hlt
    exact ⟨(hkeep 0x10 (by decide)).trans h1, hsup.trans h2, (congrArg (Nat.testBit · 6) (hkeep 0x13 (by decide))).trans h3⟩
  · refine hreq r (by rw [hlink, hr]) ?_
    simp [hcode, hpos, Option.isSome_iff_ne_none.1 hsent]
  · obtain ⟨h1, h2, -, h3⟩ := State.goodFrame_shows hp ((hat p.1).trans hn) hbit
    exact ⟨h1, h2, fun hne => h3 (by rw [hseq]; exact hne)⟩

end

/-! ### An enumeration (R213, R216, R219) -/

/-- From s to u only entries of the set P change. -/
abbrev EntriesLeft (P : Nat → Prop) (s u : State) : Prop := ∀ j, ¬P j → Tbl.find? j u.od = Tbl.find? j s.od

namespace EntriesLeft

variable {P Q : Nat → Prop} {s t u : State}

theorem refl (P : Nat → Prop) (s : State) : EntriesLeft P s s := fun _ _ => rfl

theorem trans (h : EntriesLeft P s t) (g : EntriesLeft P t u) : EntriesLeft P s u := fun j hj => (g j hj).trans (h j hj)

theorem mono (h : EntriesLeft P s u) (hPQ : ∀ j, P j → Q j) : EntriesLeft Q s u := fun j hj => h j fun hp => hj (hPQ j hp)

theorem wr {k : Nat} (hk : P k) (v : Int) (s : State) : EntriesLeft P s (s.wr k v) := by
  intro j hj
  refine State.find?_wr_ne (fun h => hj ?_) s v
  rwa [h]

theorem setBit {k : Nat} (hk : P k) (i : Nat) (v : Bool) (s : State) : EntriesLeft P s (s.setBit k i v) := wr hk _ s

theorem of_ite {p : Prop} [Decidable p] (h : EntriesLeft P s t) (g : EntriesLeft P s u) : EntriesLeft P s (if p then t else u) := by
  split
  · exact h
  · exact g

theorem each {α : Type} {l : List α} {f : α → State → State} (h : ∀ a ∈ l, ∀ t, EntriesLeft P t (f a t)) (s : State) : EntriesLeft P s (s.each l f) :=
  State.each_keeps (P := EntriesLeft P s) (fun a ha _ ht => ht.trans (h a ha _)) (refl P s)

theorem setLink (h : EntriesLeft P s u) (k : Nat) (r : LinkRec) : EntriesLeft P s (u.setLink k r) := by
  intro j hj
  rw [State.setLink_od]
  exact h j hj

/-- Where no entry of the set can be another's default, what lies outside it holds the same. -/
theorem rd (h : EntriesLeft P s u) (hP : ∀ j, P j → j < key 0x4000 0) {k : Nat} (hk : ¬P k) : u.rd k = s.rd k := by
  have hfn (i : Nat) : Tbl.find? (key (0x4005 + i) 3) u.od = Tbl.find? (key (0x4005 + i) 3) s.od := by
    refine h _ fun hp => absurd (hP _ hp) ?_
    simp only [key]
    omega
  unfold State.rd dfltAt
  simp only [h k hk, hfn]

theorem rdN (h : EntriesLeft P s u) (hP : ∀ j, P j → j < key 0x4000 0) {k : Nat} (hk : ¬P k) : u.rdN k = s.rdN k := congrArg Int.toNat (h.rd hP hk)

end EntriesLeft

/-- The entries of the subindices A of the links. -/
def LinkFigure (A : List Nat) (j : Nat) : Prop := ∃ i < 24, ∃ a ∈ A, j = lk i a

/-- The subindices of a link that an enumeration writes, and those of them that it still writes once its result stands. -/
def scanSubs : List Nat := [3, 4, 5, 7, 8, 9, 0xB, 0x10, 0x12, 0x13]
def lateSubs : List Nat := [5, 9, 0xB, 0x10, 0x12, 0x13]

theorem LinkFigure.low {A : List Nat} (hA : ∀ a ∈ A, a < 256) (j : Nat) (h : LinkFigure A j) : j < key 0x4000 0 := by
  obtain ⟨i, hi, a, ha, rfl⟩ := h
  have := hA a ha
  simp only [lk, key]
  omega

theorem LinkFigure.of_late (j : Nat) (h : LinkFigure lateSubs j) : LinkFigure scanSubs j := by
  obtain ⟨i, hi, a, ha, rfl⟩ := h
  exact ⟨i, hi, a, (by decide : ∀ a ∈ lateSubs, a ∈ scanSubs) a ha, rfl⟩

theorem not_linkFigure_ndk {A : List Nat} (hA : ∀ a ∈ A, a < 256) {n b : Nat} (hb : b < 256) (h : b ∉ A) : ¬LinkFigure A (ndk n b) := by
  rintro ⟨i, -, a, ha, heq⟩
  exact lk_ne_node (hA a ha) hb (fun hab => h (hab ▸ ha)) heq.symm

theorem not_linkFigure_lk {A : List Nat} (hA : ∀ a ∈ A, a < 256) {k b : Nat} (hb : b < 256) (h : b ∉ A) : ¬LinkFigure A (lk k b) := by
  rintro ⟨i, -, a, ha, heq⟩
  exact lk_ne_link (hA a ha) hb (fun _ hab => h (hab ▸ ha)) heq.symm

theorem not_linkFigure_chk {A : List Nat} (hA : ∀ a ∈ A, a < 256) {c b : Nat} (hc : c < 256) (hb : b < 256) : ¬LinkFigure A (chk c b) := by
  rintro ⟨i, -, a, ha, heq⟩
  have := hA a ha
  simp only [chk, lk, key] at heq
  omega

theorem not_linkFigure_bk {A : List Nat} (hA : ∀ a ∈ A, a < 256) {o a b : Nat} : ¬LinkFigure A (bk o a b) :=
  fun h => absurd (LinkFigure.low hA _ h) (by simp only [bk, key]; omega)

section
variable {k : Nat} (hk : k < 24)
include hk

theorem State.late_syncLink (s : State) : EntriesLeft (LinkFigure lateSubs) s (s.syncLink k) :=
  ((EntriesLeft.wr ⟨k, hk, 5, by decide, rfl⟩ _ s).trans (EntriesLeft.wr ⟨k, hk, 9, by decide, rfl⟩ _ _)).trans
    (EntriesLeft.setBit ⟨k, hk, 0x13, by decide, rfl⟩ _ _ _)

theorem State.late_linkFrame (scan : Bool) (code pos addr data : Nat) (s : State) : EntriesLeft (LinkFigure lateSubs) s (s.linkFrame k scan code pos addr data) := by
  unfold State.linkFrame
  extract_lets tf r
  have h : EntriesLeft (LinkFigure lateSubs) (s.msg "ENUMERATION_FRAME" [k] (s.moduleFrame k tf scan code pos addr data []))
      ((s.msg "ENUMERATION_FRAME" [k] (s.moduleFrame k tf scan code pos addr data [])).inc (lk k 0xB)) := EntriesLeft.wr ⟨k, hk, 0xB, by decide, rfl⟩ _ _
  exact h

theorem State.late_sendRegs (n : Nat) (as : List Nat) (s : State) : EntriesLeft (LinkFigure lateSubs) s (s.sendRegs k n as) :=
  EntriesLeft.each (fun _ _ t => State.late_linkFrame hk _ _ _ _ _ t) s

theorem State.late_wholeAgain (s : State) : EntriesLeft (LinkFigure lateSubs) s (s.wholeAgain k) :=
  ((EntriesLeft.setBit ⟨k, hk, 0x13, by decide, rfl⟩ _ _ s).trans (EntriesLeft.setBit ⟨k, hk, 0x13, by decide, rfl⟩ _ _ _)).trans
    (EntriesLeft.wr ⟨k, hk, 0x12, by decide, rfl⟩ _ _)

theorem State.late_enumerationEpoch (found : List NodeId) (s : State) : EntriesLeft (LinkFigure lateSubs) s (s.enumerationEpoch k found) := by
  unfold State.enumerationEpoch
  split
  · extract_lets e l s₁
    have h₁ : EntriesLeft (LinkFigure lateSubs) s s₁ := fun _ _ => rfl
    refine h₁.trans (EntriesLeft.each (fun j hj t => EntriesLeft.of_ite (EntriesLeft.refl _ t) ?_) s₁)
    have hj' : j < 24 := List.mem_range.1 hj
    exact (EntriesLeft.wr ⟨j, hj', 0x10, by decide, rfl⟩ _ t).trans (EntriesLeft.setBit ⟨j, hj', 0x13, by decide, rfl⟩ _ _ _)
  · exact EntriesLeft.wr ⟨k, hk, 0x10, by decide, rfl⟩ _ s

theorem State.scan_noNodes (s : State) : EntriesLeft (LinkFigure scanSubs) s (s.noNodes k) :=
  (((EntriesLeft.wr ⟨k, hk, 4, by decide, rfl⟩ _ s).trans (EntriesLeft.wr ⟨k, hk, 8, by decide, rfl⟩ _ _)).trans
    (EntriesLeft.setBit ⟨k, hk, 0x13, by decide, rfl⟩ _ _ _)).trans ((State.late_syncLink hk _).mono LinkFigure.of_late)

theorem State.scan_startScan (s : State) : EntriesLeft (LinkFigure scanSubs) s (s.startScan k) := by
  have h₁ : EntriesLeft (LinkFigure scanSubs) s (s.wr (lk k 3) 2) := EntriesLeft.wr ⟨k, hk, 3, by decide, rfl⟩ 2 s
  unfold State.startScan
  generalize s.wr (lk k 3) 2 = s₁ at h₁ ⊢
  have h₂ := h₁.trans (State.scan_noNodes hk s₁)
  generalize s₁.noNodes k = s₂ at h₂ ⊢
  have h₃ := h₂.trans ((State.late_linkFrame hk true 4 0xFF 0 0 s₂).mono LinkFigure.of_late)
  generalize s₂.linkFrame k true 4 0xFF 0 0 = s₃ at h₃ ⊢
  exact h₃.setLink k _

end

/-- An enumeration whose request has gone out: no latest sample counts any longer, and the link's receive side is live. -/
def State.scanning (k : Nat) (s : State) : State :=
  let s := if (s.link k).scanning then s else s.startScan k
  let s := { s with links := { s.links with lastSeq := s.links.lastSeq.filter (fun e => s.rdN (ndk e.1 1) != k) } }
  s.each [0, 1] (fun i => State.setBit (lk k 0x13) i true)

/-- The frames that measure the delays of `n` nodes and read their registers, and what the enumeration then shows of the link. -/
def State.scanShown (k n : Nat) (delays : List Nat) (s : State) : State :=
  ((((((s.measureFrames k).each (List.range n) (fun p => State.readNode k p (if s.rdN (key 0x2510 1) = 0 then 0x1C else 0x18))).endScan k []).wr (lk k 3) 2).wr
    (lk k 4) n).wr (lk k 8) (edgeCap n)).upDelay k n delays

/-- What follows once the nodes have their places: the epoch, the registers written into them, the link whole. -/
def State.scanWritten (k : Nat) (found : List NodeId) (s : State) : State :=
  let s := s.enumerationEpoch k found
  let s := s.each ((s.placed k).filter (fun m => s.rdN (ndk m 2) < found.length)) (fun m s => s.sendRegs k m ([0x34, 0x38, 0x3C] ++ s.deadRegs m))
  let s := (s.setBit (lk k 0x13) 2 true).wholeAgain k
  s.each (s.linkBatches k) State.syncTimeline

theorem State.enumerate_fits {k : Nat} {found : List NodeId} {delays : List Nat} {s : State} (hlen : found.length ≤ 32)
    (hcap : (s.scanning k).edgeDemand k ≤ edgeCap found.length) :
    s.enumerate k found delays =
      let s₁ := ((s.scanning k).scanShown k found.length delays)
      let s₂ := (s₁.each (s₁.placed k) (State.placeNode found delays)).scanWritten k found
      (if found.length = 0 then s₂.startService k else s₂).syncLink k := by
  have hfits : ¬(decide (32 < found.length) || decide (edgeCap found.length < (s.scanning k).edgeDemand k)) = true := by
    simp [not_lt.2 hlen, not_lt.2 hcap]
  exact if_neg hfits

theorem scanSubs_lt : ∀ a ∈ scanSubs, a < 256 := by decide

theorem lateSubs_lt : ∀ a ∈ lateSubs, a < 256 := by decide

/-! #### What an enumeration leaves as it reads it -/

section
variable {s u : State} (h : EntriesLeft (LinkFigure scanSubs) s u)
include h

theorem EntriesLeft.scan_rdN {j : Nat} (hj : ¬LinkFigure scanSubs j) : u.rdN j = s.rdN j := EntriesLeft.rdN h (LinkFigure.low scanSubs_lt) hj

theorem EntriesLeft.edgeDemand (k : Nat) : u.edgeDemand k = s.edgeDemand k := by
  have hbk (o a b : Nat) : u.rdN (bk o a b) = s.rdN (bk o a b) := h.scan_rdN (not_linkFigure_bk scanSubs_lt)
  have hcycle (b : Nat) : u.cycleOf b = s.cycleOf b := by
    unfold State.cycleOf
    rw [hbk, hbk, hbk]
  have hmembers (b : Nat) : u.members b = s.members b := List.filter_congr fun c _ => by rw [hbk]
  have hchans (b : Nat) : ((u.members b).filter fun c => u.rdN (chk c 2) == 3 && u.rdN (ndk (u.rdN (chk c 3)) 1) == k) =
      (s.members b).filter fun c => s.rdN (chk c 2) == 3 && s.rdN (ndk (s.rdN (chk c 3)) 1) == k := by
    rw [hmembers]
    refine List.filter_congr fun c hc => ?_
    have hc' := mem_members_lt hc
    rw [h.scan_rdN (not_linkFigure_chk scanSubs_lt hc' (by decide)), h.scan_rdN (not_linkFigure_chk scanSubs_lt hc' (by decide)),
      h.scan_rdN (not_linkFigure_ndk scanSubs_lt (by decide) (by decide))]
  unfold State.edgeDemand
  refine congrArg List.sum (List.map_congr_left fun b _ => ?_)
  simp only [hcycle, hchans]

theorem EntriesLeft.placed (k : Nat) : u.placed k = s.placed k :=
  List.filter_congr fun n _ => by rw [h.scan_rdN (not_linkFigure_ndk scanSubs_lt (by decide) (by decide))]

end

/-! #### The stages of an enumeration -/

section
variable {k : Nat} (hk : k < 24)
include hk

theorem State.scanning_left (s : State) : EntriesLeft (LinkFigure scanSubs) s (s.scanning k) := by
  unfold State.scanning
  extract_lets s₁ l s₂
  have h₁ : EntriesLeft (LinkFigure scanSubs) s s₁ := EntriesLeft.of_ite (EntriesLeft.refl _ s) (State.scan_startScan hk s)
  clear_value s₁ l
  have h₂ : EntriesLeft (LinkFigure scanSubs) s s₂ := h₁
  clear_value s₂
  exact h₂.trans (EntriesLeft.each (fun _ _ t => EntriesLeft.setBit ⟨k, hk, 0x13, by decide, rfl⟩ _ _ t) s₂)

/-- What an enumeration shows of its link. -/
theorem State.scanShown_shows (n : Nat) (delays : List Nat) (s : State) : EntriesLeft (LinkFigure scanSubs) s (s.scanShown k n delays) ∧
    (s.scanShown k n delays).rdN (lk k 3) = 2 ∧ (s.scanShown k n delays).rdN (lk k 4) = n ∧ (s.scanShown k n delays).rdN (lk k 8) = edgeCap n := by
  have hframe (t : State) (scan : Bool) (code pos addr data : Nat) : EntriesLeft (LinkFigure scanSubs) t (t.linkFrame k scan code pos addr data) :=
    (State.late_linkFrame hk scan code pos addr data t).mono LinkFigure.of_late
  have hread (top : Nat) : EntriesLeft (LinkFigure scanSubs) s ((s.measureFrames k).each (List.range n) (fun p => State.readNode k p top)) :=
    (EntriesLeft.each (fun _ _ t => hframe t _ _ _ _ _) s).trans
      (EntriesLeft.each (fun _ _ t => EntriesLeft.each (fun _ _ u => hframe u _ _ _ _ _) t) _)
  unfold State.scanShown State.upDelay
  generalize (if s.rdN (key 0x2510 1) = 0 then 0x1C else 0x18) = top
  have hend : EntriesLeft (LinkFigure scanSubs) s (((s.measureFrames k).each (List.range n) (fun p => State.readNode k p top)).endScan k []) := hread top
  generalize ((s.measureFrames k).each (List.range n) (fun p => State.readNode k p top)).endScan k [] = s₁ at hend
  have hne {a b : Nat} (ha : a < 256) (h : a ≠ b) (v : Int) (t : State) : (t.wr (lk k b) v).rdN (lk k a) = t.rdN (lk k a) := rdN_lk_wr hk ha h v t
  refine ⟨(((hend.trans (EntriesLeft.wr ⟨k, hk, 3, by decide, rfl⟩ _ _)).trans (EntriesLeft.wr ⟨k, hk, 4, by decide, rfl⟩ _ _)).trans
    (EntriesLeft.wr ⟨k, hk, 8, by decide, rfl⟩ _ _)).trans (EntriesLeft.wr ⟨k, hk, 7, by decide, rfl⟩ _ _), ?_, ?_, ?_⟩
  · rw [hne (by decide) (by decide), hne (by decide) (by decide), hne (by decide) (by decide), State.rdN_wr_same]
    rfl
  · rw [hne (by decide) (by decide), hne (by decide) (by decide), rdN_wr_nat]
  · rw [hne (by decide) (by decide), rdN_wr_nat]

/-- What an enumeration still writes once its result stands lies outside the figures of its link and its nodes. -/
theorem State.scanWritten_left (found : List NodeId) (s : State) :
    EntriesLeft (fun j => LinkFigure lateSubs j ∨ ¬LinkKey j) s (s.scanWritten k found) := by
  unfold State.scanWritten
  extract_lets s₁ s₂ s₃
  have h₁ : EntriesLeft (LinkFigure lateSubs) s s₁ := State.late_enumerationEpoch hk found s
  have h₂ : EntriesLeft (LinkFigure lateSubs) s₁ s₂ := EntriesLeft.each (fun m _ t => State.late_sendRegs hk m _ t) s₁
  have h₃ : EntriesLeft (LinkFigure lateSubs) s₂ s₃ := (EntriesLeft.setBit ⟨k, hk, 0x13, by decide, rfl⟩ _ _ s₂).trans (State.late_wholeAgain hk _)
  have hwr (o a b : Nat) (v : Int) (t : State) : EntriesLeft (fun j => LinkFigure lateSubs j ∨ ¬LinkKey j) t (t.wr (bk o a b) v) :=
    EntriesLeft.wr (.inr fun h => absurd rfl (LinkKey.ne_batch _ h)) v t
  have htime (b : Nat) (t : State) : EntriesLeft (fun j => LinkFigure lateSubs j ∨ ¬LinkKey j) t (t.syncTimeline b) :=
    ((((hwr 4 0x10 b _ t).trans (hwr 4 0x11 b _ _)).trans (hwr 4 0x12 b _ _)).trans (hwr 4 0x13 b _ _)).trans (hwr 4 0x15 b _ _)
  exact (((h₁.trans h₂).trans h₃).mono fun j hj => .inl hj).trans (EntriesLeft.each (fun b _ t => htime b t) s₃)

end

/-! #### The nodes in their places -/

/-- The subindices of a node that its place in an enumeration writes. -/
def placeSubs : List Nat := [5, 6, 7, 8, 9, 0xA, 0xB, 0xC, 0xD]

theorem State.nodeFigures_left (n d prev : Nat) (x : NodeId) (s : State) :
    EntriesLeft (fun j => ∃ a ∈ placeSubs, j = ndk n a) s (s.nodeFigures n d prev x) := by
  have hwr (a : Nat) (ha : a ∈ placeSubs) (v : Int) (t : State) : EntriesLeft (fun j => ∃ a ∈ placeSubs, j = ndk n a) t (t.wr (ndk n a) v) :=
    EntriesLeft.wr ⟨a, ha, rfl⟩ v t
  exact (((((((hwr 6 (by decide) _ s).trans (hwr 7 (by decide) _ _)).trans (hwr 8 (by decide) _ _)).trans (hwr 9 (by decide) _ _)).trans
    (hwr 0xA (by decide) _ _)).trans (hwr 0xB (by decide) _ _)).trans (hwr 0xC (by decide) _ _)).trans (hwr 0xD (by decide) _ _)

/-- The state that a node shows once it has its place (R213, R11). -/
def State.placedState (m : Nat) (x : NodeId) (s : State) : Int := if !(s.identityOk m x) then 3 else if s.twoBatches m then 4 else 2

theorem State.placeNode_of_found {found : List NodeId} {delays : List Nat} {m : Nat} {x : NodeId} {s : State} (hx : found[s.rdN (ndk m 2)]? = some x) :
    ∃ prev, s.placeNode found delays m = ((s.nodeFigures m (delays.getD (s.rdN (ndk m 2)) 0) prev x).wr (ndk m 5)
      ((s.nodeFigures m (delays.getD (s.rdN (ndk m 2)) 0) prev x).placedState m x)).writeNode m (delays.getD (s.rdN (ndk m 2)) 0) x := by
  refine ⟨if s.rdN (ndk m 2) = 0 then 0 else delays.getD (s.rdN (ndk m 2) - 1) 0, ?_⟩
  unfold State.placeNode
  simp only [hx]
  rfl

theorem State.placeNode_left (found : List NodeId) (delays : List Nat) (m : Nat) (s : State) :
    EntriesLeft (fun j => ∃ a ∈ placeSubs, j = ndk m a) s (s.placeNode found delays m) := by
  cases hx : found[s.rdN (ndk m 2)]? with
  | none =>
    have heq : s.placeNode found delays m = s.wr (ndk m 5) 1 := by
      unfold State.placeNode
      simp only [hx]
    rw [heq]
    exact EntriesLeft.wr ⟨5, by decide, rfl⟩ 1 s
  | some x =>
    obtain ⟨prev, heq⟩ := State.placeNode_of_found (delays := delays) hx
    rw [heq]
    have h₁ := State.nodeFigures_left m (delays.getD (s.rdN (ndk m 2)) 0) prev x s
    generalize s.nodeFigures m (delays.getD (s.rdN (ndk m 2)) 0) prev x = s₁ at h₁
    exact h₁.trans (EntriesLeft.wr ⟨5, by decide, rfl⟩ _ s₁)

/-- The entries of the nodes that an enumeration writes. -/
def NodeFigure (j : Nat) : Prop := ∃ m < 768, ∃ a ∈ placeSubs, j = ndk m a

theorem not_nodeFigure_ndk {n a : Nat} (ha : a < 256) (h : a ∉ placeSubs) : ¬NodeFigure (ndk n a) := by
  rintro ⟨m, -, b, hb, heq⟩
  have hb' : b < 256 := (by decide : ∀ b ∈ placeSubs, b < 256) b hb
  exact ndk_ne ha hb' (fun _ hab => h (hab ▸ hb)) heq

theorem not_nodeFigure_chk {c a : Nat} (hc : c < 256) (ha : a < 256) : ¬NodeFigure (chk c a) := by
  rintro ⟨m, -, b, hb, heq⟩
  have hb' : b < 256 := (by decide : ∀ b ∈ placeSubs, b < 256) b hb
  simp only [chk, ndk, key] at heq
  omega

theorem not_nodeFigure_lk {k a : Nat} : ¬NodeFigure (lk k a) := by
  rintro ⟨m, hm, b, hb, heq⟩
  have hb' : b < 256 := (by decide : ∀ b ∈ placeSubs, b < 256) b hb
  simp only [lk, ndk, key] at heq
  omega

theorem NodeFigure.of_node {m : Nat} (hm : m < 768) {j : Nat} (h : ∃ a ∈ placeSubs, j = ndk m a) : NodeFigure j := ⟨m, hm, h⟩

/-- What a node is and where its slots go are read from its kind and the routes of the channels. -/
theorem State.identityOk_congr {n : Nat} {s u : State} (h : u.rdN (ndk n 3) = s.rdN (ndk n 3)) (x : NodeId) : u.identityOk n x = s.identityOk n x := by
  unfold State.identityOk
  rw [h]

theorem State.twoBatches_congr {n : Nat} {s u : State} (h : ∀ c < 256, ∀ a < 256, u.rdN (chk c a) = s.rdN (chk c a)) : u.twoBatches n = s.twoBatches n := by
  have hchans : u.nodeChans n = s.nodeChans n := List.filter_congr fun c hmem => by
    rw [h c (List.mem_range.1 hmem) 2 (by decide), h c (List.mem_range.1 hmem) 3 (by decide)]
  have hbatch : (s.nodeChans n).map (fun c => u.rdN (chk c 1)) = (s.nodeChans n).map (fun c => s.rdN (chk c 1)) :=
    List.map_congr_left fun c hmem => h c (State.mem_nodeChans_lt hmem) 1 (by decide)
  unfold State.twoBatches
  rw [hchans, hbatch]

section
variable {s u : State} {n : Nat} (h : EntriesLeft NodeFigure s u)
include h

theorem EntriesLeft.identityOk (hn : n < 768) (x : NodeId) : u.identityOk n x = s.identityOk n x :=
  State.identityOk_congr (congrArg Int.toNat (State.rd_congr (ownDefault_ndk hn (by decide)) (h _ (not_nodeFigure_ndk (by decide) (by decide))))) x

theorem EntriesLeft.twoBatches : u.twoBatches n = s.twoBatches n :=
  State.twoBatches_congr fun _ hc _ ha => congrArg Int.toNat (State.rd_congr (.inl (by simp only [chk, key]; omega)) (h _ (not_nodeFigure_chk hc ha)))

end

theorem State.nodeFigures_delay {n : Nat} (hn : n < 768) (d prev : Nat) (x : NodeId) (s : State) : (s.nodeFigures n d prev x).rdN (ndk n 0xC) = d % 2 ^ 32 := by
  unfold State.nodeFigures
  extract_lets s₁ s₂
  clear_value s₂
  unfold State.rdN
  rw [rd_ndk_wr hn (by decide) (by decide) (by decide)]
  exact rdN_wr_nat _ _ s₂

theorem State.writeNode_od (n d : Nat) (x : NodeId) (s : State) : (s.writeNode n d x).od = s.od := by
  unfold State.writeNode
  extract_lets
  rfl

/-- What the place of a node that answers as expected shows: its state, and its delay. -/
theorem State.placeNode_places {found : List NodeId} {delays : List Nat} {n : Nat} {x : NodeId} {s : State} (hn : n < 768)
    (hx : found[s.rdN (ndk n 2)]? = some x) (hid : s.identityOk n x = true) (htwo : s.twoBatches n = false) :
    (s.placeNode found delays n).rdN (ndk n 5) = 2 ∧ (s.placeNode found delays n).rdN (ndk n 0xC) = delays.getD (s.rdN (ndk n 2)) 0 % 2 ^ 32 := by
  obtain ⟨prev, heq⟩ := State.placeNode_of_found (delays := delays) hx
  have hleft := (State.nodeFigures_left n (delays.getD (s.rdN (ndk n 2)) 0) prev x s).mono fun _ => NodeFigure.of_node hn
  have hdelay := State.nodeFigures_delay hn (delays.getD (s.rdN (ndk n 2)) 0) prev x s
  rw [heq]
  generalize delays.getD (s.rdN (ndk n 2)) 0 = d at *
  generalize s.nodeFigures n d prev x = s₁ at *
  have hstate : s₁.placedState n x = 2 := by
    unfold State.placedState
    rw [hleft.identityOk hn, hid, hleft.twoBatches, htwo]
    rfl
  rw [hstate]
  have h5 : (s₁.wr (ndk n 5) 2).rdN (ndk n 5) = 2 := State.rdN_wr_same ..
  have hC : (s₁.wr (ndk n 5) 2).rdN (ndk n 0xC) = s₁.rdN (ndk n 0xC) := congrArg Int.toNat (rd_ndk_wr hn (by decide) (by decide) (by decide) _ _)
  have hwritten {a : Nat} (ha : a < 256) : ((s₁.wr (ndk n 5) 2).writeNode n d x).rdN (ndk n a) = (s₁.wr (ndk n 5) 2).rdN (ndk n a) :=
    congrArg Int.toNat (State.rd_congr (ownDefault_ndk hn ha) (congrArg (Tbl.find? _) (State.writeNode_od ..)))
  exact ⟨(hwritten (by decide)).trans h5, (hwritten (by decide)).trans (hC.trans hdelay)⟩

theorem State.mem_placed_lt {k n : Nat} {s : State} (h : n ∈ s.placed k) : n < 768 := by
  have hmem : n ∈ List.range 768 := (List.mem_filter.1 h).1
  exact List.mem_range.1 hmem

theorem State.places_left (found : List NodeId) (delays : List Nat) (k : Nat) (s : State) :
    EntriesLeft NodeFigure s (s.each (s.placed k) (State.placeNode found delays)) :=
  EntriesLeft.each (fun m hm t => (State.placeNode_left found delays m t).mono fun _ => NodeFigure.of_node (State.mem_placed_lt hm)) s

theorem State.places_place {found : List NodeId} {delays : List Nat} {k n : Nat} {x : NodeId} {s : State} (hmem : n ∈ s.placed k)
    (hx : found[s.rdN (ndk n 2)]? = some x) (hid : s.identityOk n x = true) (htwo : s.twoBatches n = false) :
    (s.each (s.placed k) (State.placeNode found delays)).rdN (ndk n 5) = 2 ∧
    (s.each (s.placed k) (State.placeNode found delays)).rdN (ndk n 0xC) = delays.getD (s.rdN (ndk n 2)) 0 % 2 ^ 32 := by
  have hn := State.mem_placed_lt hmem
  have hpos {t : State} (ht : EntriesLeft NodeFigure s t) : t.rdN (ndk n 2) = s.rdN (ndk n 2) :=
    congrArg Int.toNat (State.rd_congr (ownDefault_ndk hn (by decide)) (ht _ (not_nodeFigure_ndk (by decide) (by decide))))
  have hother {m a : Nat} (hne : m ≠ n) (ha : a < 256) (t : State) : (t.placeNode found delays m).rdN (ndk n a) = t.rdN (ndk n a) := by
    refine congrArg Int.toNat (State.rd_congr (ownDefault_ndk hn ha) (State.placeNode_left found delays m t _ ?_))
    rintro ⟨b, hb, heq⟩
    exact ndk_ne ha ((by decide : ∀ b ∈ placeSubs, b < 256) b hb) (fun h => absurd h.symm hne) heq
  refine State.each_once (f := State.placeNode found delays) (I := EntriesLeft NodeFigure s)
    (Q := fun t => t.rdN (ndk n 5) = 2 ∧ t.rdN (ndk n 0xC) = delays.getD (s.rdN (ndk n 2)) 0 % 2 ^ 32) hmem (List.nodup_range.filter _)
    (fun m hm _ t ht => ht.trans ((State.placeNode_left found delays m t).mono fun _ => NodeFigure.of_node (State.mem_placed_lt hm)))
    (fun t ht => ?_) (fun m _ hne t ht => ?_) (EntriesLeft.refl _ s)
  · have h := State.placeNode_places (delays := delays) hn (by rw [hpos ht]; exact hx) ((ht.identityOk hn x).trans hid) (ht.twoBatches.trans htwo)
    rwa [hpos ht] at h
  · rw [hother hne (by decide), hother hne (by decide)]
    exact ht

/-- What a finished enumeration shows. -/
structure Enumerated (k : Nat) (found : List NodeId) (delays : List Nat) (s u : State) : Prop where
  state : u.rdN (lk k 3) = if found = [] then 3 else 2
  count : u.rdN (lk k 4) = found.length
  capacity : u.rdN (lk k 8) = edgeCap found.length
  service : found = [] → (u.link k).service = true
  nodes : ∀ n ∈ s.placed k, ∀ x, found[s.rdN (ndk n 2)]? = some x → s.identityOk n x = true → s.twoBatches n = false →
    u.rdN (ndk n 5) = 2 ∧ u.rdN (ndk n 0xC) = delays.getD (s.rdN (ndk n 2)) 0 % 2 ^ 32

/-- No entry of a node is one of a link. -/
theorem not_linkFigure_node {A : List Nat} (hA : ∀ a ∈ A, a < 256) {n b : Nat} (hn : n < 768) (hb : b < 256) : ¬LinkFigure A (ndk n b) := by
  rintro ⟨i, -, a, ha, heq⟩
  have := hA a ha
  simp only [lk, ndk, key] at heq
  omega

theorem State.rdN_startService {k a : Nat} (hk : k < 24) (ha : a < 256) (h : a ≠ 3) (s : State) : (s.startService k).rdN (lk k a) = s.rdN (lk k a) :=
  rdN_lk_wr hk ha h 3 s

section
variable {k : Nat} (hk : k < 24)
include hk

/-- The end of an enumeration: the link enters running service where no node was found. -/
theorem State.scanEnd_shows (n : Nat) (s : State) (hstate : s.rdN (lk k 3) = 2) :
    ((if n = 0 then s.startService k else s).syncLink k).rdN (lk k 3) = (if n = 0 then 3 else 2) ∧
    ((if n = 0 then s.startService k else s).syncLink k).rdN (lk k 4) = s.rdN (lk k 4) ∧
    ((if n = 0 then s.startService k else s).syncLink k).rdN (lk k 8) = s.rdN (lk k 8) ∧
    (n = 0 → (((if n = 0 then s.startService k else s).syncLink k).link k).service = true) ∧
    ∀ m < 768, ∀ a < 256, ((if n = 0 then s.startService k else s).syncLink k).rdN (ndk m a) = s.rdN (ndk m a) := by
  have hsync (t : State) : (t.syncLink k).links = t.links := rfl
  have hlk {a : Nat} (ha : a < 256) (h : a ∉ lateSubs) (t : State) : (t.syncLink k).rdN (lk k a) = t.rdN (lk k a) :=
    (State.late_syncLink hk t).rdN (LinkFigure.low lateSubs_lt) (not_linkFigure_lk lateSubs_lt ha h)
  have hndk {m a : Nat} (hm : m < 768) (ha : a < 256) (t : State) : (t.syncLink k).rdN (ndk m a) = t.rdN (ndk m a) :=
    (State.late_syncLink hk t).rdN (LinkFigure.low lateSubs_lt) (not_linkFigure_node lateSubs_lt hm ha)
  by_cases hn : n = 0
  · rw [if_pos hn, if_pos hn, hlk (by decide) (by decide), hlk (by decide) (by decide), hlk (by decide) (by decide)]
    refine ⟨?_, State.rdN_startService hk (by decide) (by decide) s, State.rdN_startService hk (by decide) (by decide) s, fun _ => ?_, fun m hm a ha => ?_⟩
    · exact State.rdN_wr_same (lk k 3) 3 s
    · rw [link_congr (hsync _)]
      exact congrArg LinkRec.service (State.link_setLink_same k _ (s.wr (lk k 3) 3))
    · rw [hndk hm ha]
      refine State.rdN_wr_ne ?_ (ownDefault_ndk hm ha) 3 s
      simp only [lk, ndk, key]
      omega
  · rw [if_neg hn, if_neg hn, hlk (by decide) (by decide), hlk (by decide) (by decide), hlk (by decide) (by decide)]
    exact ⟨hstate, rfl, rfl, fun h => absurd h hn, fun m hm a ha => hndk hm ha s⟩

theorem State.enumerate_shows {found : List NodeId} {s : State} (hlen : found.length ≤ 32) (hcap : s.edgeDemand k ≤ edgeCap found.length) (delays : List Nat) :
    Enumerated k found delays s (s.enumerate k found delays) := by
  have hscan := State.scanning_left hk s
  obtain ⟨hshown, h3, h4, h8⟩ := State.scanShown_shows hk found.length delays (s.scanning k)
  rw [State.enumerate_fits hlen ((hscan.edgeDemand k).trans_le hcap)]
  dsimp only
  have h₁ := hscan.trans hshown
  generalize (s.scanning k).scanShown k found.length delays = s₁ at *
  have hplaces := State.places_left found delays k s₁
  have hplace (n : Nat) (hn : n ∈ s₁.placed k) (x : NodeId) (hx : found[s₁.rdN (ndk n 2)]? = some x) (hid : s₁.identityOk n x = true)
      (htwo : s₁.twoBatches n = false) := State.places_place (delays := delays) hn hx hid htwo
  generalize s₁.each (s₁.placed k) (State.placeNode found delays) = s₂ at *
  have hwritten := State.scanWritten_left hk found s₂
  generalize s₂.scanWritten k found = s₃ at *
  have hlk {a : Nat} (ha : a < 256) (hlate : a ∉ lateSubs) : s₃.rdN (lk k a) = s₁.rdN (lk k a) := by
    refine congrArg Int.toNat (State.rd_congr (ownDefault_lk hk ha) ((hwritten _ ?_).trans (hplaces _ not_nodeFigure_lk)))
    exact not_or.2 ⟨not_linkFigure_lk lateSubs_lt ha hlate, not_not.2 (linkKey_lk hk ha)⟩
  have hndk {n a : Nat} (hn : n < 768) (ha : a < 256) : s₃.rdN (ndk n a) = s₂.rdN (ndk n a) := by
    refine congrArg Int.toNat (State.rd_congr (ownDefault_ndk hn ha) (hwritten _ ?_))
    exact not_or.2 ⟨not_linkFigure_node lateSubs_lt hn ha, not_not.2 (linkKey_ndk hn ha)⟩
  obtain ⟨e3, e4, e8, eservice, enodes⟩ := State.scanEnd_shows hk found.length s₃ ((hlk (by decide) (by decide)).trans h3)
  have hlength : found.length = 0 ↔ found = [] := List.length_eq_zero_iff
  refine ⟨?_, e4.trans ((hlk (by decide) (by decide)).trans h4), e8.trans ((hlk (by decide) (by decide)).trans h8), fun h => eservice (hlength.2 h),
    fun n hn x hx hid htwo => ?_⟩
  · rw [e3]
    exact if_congr hlength rfl rfl
  · have hn' := State.mem_placed_lt hn
    have hpos : s₁.rdN (ndk n 2) = s.rdN (ndk n 2) := h₁.scan_rdN (not_linkFigure_node scanSubs_lt hn' (by decide))
    have hid₁ : s₁.identityOk n x = s.identityOk n x := State.identityOk_congr (h₁.scan_rdN (not_linkFigure_node scanSubs_lt hn' (by decide))) x
    have htwo₁ : s₁.twoBatches n = s.twoBatches n := State.twoBatches_congr fun c hc a ha => h₁.scan_rdN (not_linkFigure_chk scanSubs_lt hc ha)
    have h := hplace n ((h₁.placed k).symm ▸ hn) x (by rw [hpos, hx]) (hid₁.trans hid) (htwo₁.trans htwo)
    rw [hpos] at h
    rw [enodes n hn' 5 (by decide), enodes n hn' 0xC (by decide), hndk hn' (by decide), hndk hn' (by decide)]
    exact h

end

theorem enumerateEff_own {k : Nat} {found : List NodeId} {delays : List Nat} {s : State} (hlit : s.lit k = true)
    (hoff : (s.linkBatches k).all (fun b => s.bstate b == .off) = true) (hlen : found.length ≤ 32) (hcap : s.edgeDemand k ≤ edgeCap found.length) :
    (enumerateEff k found delays).own s = 0 := by
  unfold enumerateEff
  dsimp only
  rw [Nat.min_eq_right hlen, needs_of_true hlit, needs_of_true hoff, needs_of_true (decide_eq_true hcap)]
  rfl

theorem State.mem_placed {n k : Nat} {s : State} (hn : n < 768) (h : s.rdN (ndk n 1) = k) : n ∈ s.placed k :=
  List.mem_filter.2 ⟨List.mem_range.2 hn, beq_iff_eq.2 h⟩

section
variable {t : Time} {k : LinkNo} {s : State} {found : List NodeId} {runs : List DelayRun}

theorem getD_delaysOf {p : Nat} (hp : p < found.length) : (delaysOf ⟨found, runs⟩).getD p 0 = measuredDelay runs p := by
  simp [delaysOf, hp]

theorem linkEnumerate_enumerates {q : Req} (hs : s.Serves) (hp : s.Passes q (0x3700 + k) 6 0 1) (hlit : s.lit k = true)
    (hoff : (s.linkBatches k).all (fun b => s.bstate b == .off) = true) (hlen : found.length ≤ 32) (hcap : s.edgeDemand k ≤ edgeCap found.length) :
    Completes (.linkEnumerate t q k ⟨found, runs⟩) s (fun u => u.rdN (lk k 3) = (if found = [] then 3 else 2) ∧ u.rdN (lk k 4) = found.length ∧
      u.rdN (lk k 8) = edgeCap found.length ∧ u.Answered 0 ∧ (found = [] → (u.link k).service = true) ∧
      ∀ (n : NodeNo), s.rdN (ndk n 1) = k → ∀ x, found[s.rdN (ndk n 2)]? = some x → s.identityOk n x = true → s.twoBatches n = false →
        u.rdN (ndk n 5) = 2 ∧ u.rdN (ndk n 0xC) = measuredDelay runs (s.rdN (ndk n 2)) % 2 ^ 32) := by
  refine ⟨(s.begin t).hostWrite q (0x3700 + k) 6 0 1 (enumerateEff k found (delaysOf ⟨found, runs⟩)), rfl, ?_⟩
  have hown : (enumerateEff k found (delaysOf ⟨found, runs⟩)).own ((s.begin t).handling q.sid) = 0 :=
    enumerateEff_own (s := (s.begin t).handling q.sid) hlit hoff hlen hcap
  beta_reduce
  rw [State.hostWrite_replies (s := s.begin t) hs hp hown rfl]
  have heff : (enumerateEff k found (delaysOf ⟨found, runs⟩)).eff ((s.begin t).handling q.sid) =
    ((s.begin t).handling q.sid).enumerate k found (delaysOf ⟨found, runs⟩) := rfl
  rw [heff]
  have hcap' : ((s.begin t).handling q.sid).edgeDemand k ≤ edgeCap found.length := hcap
  have hplace (n : NodeNo) : ((s.begin t).handling q.sid).rdN (ndk n 1) = s.rdN (ndk n 1) := rfl
  have hpos (n : NodeNo) : ((s.begin t).handling q.sid).rdN (ndk n 2) = s.rdN (ndk n 2) := rfl
  have hid (n : NodeNo) (x : NodeId) : ((s.begin t).handling q.sid).identityOk n x = s.identityOk n x := rfl
  have htwo (n : NodeNo) : ((s.begin t).handling q.sid).twoBatches n = s.twoBatches n := rfl
  generalize (s.begin t).handling q.sid = s₁ at *
  obtain ⟨h3, h4, h8, hservice, hplaces⟩ := State.enumerate_shows k.isLt hlen hcap' (delaysOf ⟨found, runs⟩)
  generalize s₁.enumerate k found (delaysOf ⟨found, runs⟩) = s₂ at *
  have hkeep (j : Nat) : ((s₂.answer 0).longBy q 0).rdN j = s₂.rdN j := State.rdN_longBy ..
  rw [hkeep, hkeep, hkeep, State.link_longBy]
  refine ⟨h3, h4, h8, State.answered_answer_longBy .., hservice, fun n hn x hx hidn htwon => ?_⟩
  have hlt : s.rdN (ndk n 2) < found.length := (List.getElem?_eq_some_iff.1 hx).1
  have h := hplaces n (State.mem_placed n.isLt ((hplace n).trans hn)) x (by rw [hpos, hx]) ((hid n x).trans hidn) ((htwo n).trans htwon)
  rw [hpos, getD_delaysOf hlt] at h
  rw [hkeep, hkeep]
  exact h

/-! #### Sync that returns (R213) -/

theorem State.wholeAgain_shows (s : State) : (s.wholeAgain k).rdN (lk k 0x12) = 0xFF ∧ (s.wholeAgain k).rdN (lk k 3) = s.rdN (lk k 3) := by
  have hbit (i : Nat) (v : Bool) (u : State) : (u.setBit (lk k 0x13) i v).rdN (lk k 3) = u.rdN (lk k 3) :=
    State.rdN_setBit_ne (lk_ne (by decide)) (ownDefault_lk k.isLt (by decide)) i v u
  unfold State.wholeAgain
  refine ⟨rdN_wr_nat _ 0xFF _, ?_⟩
  rw [rdN_lk_wr k.isLt (by decide) (by decide), hbit, hbit]

theorem State.endScan_shows (failed : List Nat) (s : State) : ((s.endScan k failed).link k).rejoin = false ∧ ∀ j, (s.endScan k failed).rdN j = s.rdN j := by
  unfold State.endScan
  refine ⟨by rw [State.link_setLink_same], fun j => ?_⟩
  unfold State.rdN State.rd
  rw [State.setLink_od]

theorem syncReturn_enumerates (hlit : s.lit k = true) (hoff : (s.linkBatches k).all (fun b => s.bstate b == .off) = true) (hfound : found ≠ [])
    (hlen : found.length ≤ 32) (hcap : s.edgeDemand k ≤ edgeCap found.length) :
    Completes (.syncReturn t k ⟨found, runs⟩) s (fun u => u.rdN (lk k 3) = 2 ∧ u.rdN (lk k 4) = found.length) := by
  refine ⟨(s.begin t).syncReturn k found (delaysOf ⟨found, runs⟩), rfl, ?_⟩
  have hlit' : ¬(!((s.begin t).lit k)) = true := by
    rw [show (s.begin t).lit k = s.lit k from rfl, hlit]
    decide
  have hoff' : ((s.begin t).linkBatches k).all (fun b => (s.begin t).bstate b == .off) = true := hoff
  have heq : (s.begin t).syncReturn k found (delaysOf ⟨found, runs⟩) = (s.begin t).enumerate k found (delaysOf ⟨found, runs⟩) :=
    (if_neg hlit').trans (if_pos hoff')
  have hcap' : (s.begin t).edgeDemand k ≤ edgeCap found.length := hcap
  obtain ⟨h3, h4, -⟩ := State.enumerate_shows k.isLt hlen hcap' (delaysOf ⟨found, runs⟩)
  rw [heq]
  exact ⟨h3.trans (if_neg hfound), h4⟩

theorem syncReturn_rejoins (hlit : s.lit k = true) (hrun : (s.linkBatches k).all (fun b => s.bstate b == .off) = false) :
    Completes (.syncReturn t k ⟨found, runs⟩) s (fun u => u.rdN (lk k 3) = 2 ∧ u.rdN (lk k 0x12) = 0xFF ∧ (u.link k).rejoin = false) := by
  refine ⟨(s.begin t).syncReturn k found (delaysOf ⟨found, runs⟩), rfl, ?_⟩
  have hlit' : ¬(!((s.begin t).lit k)) = true := by
    rw [show (s.begin t).lit k = s.lit k from rfl, hlit]
    decide
  have hrun' : ¬((s.begin t).linkBatches k).all (fun b => (s.begin t).bstate b == .off) = true := by
    have h : ((s.begin t).linkBatches k).all (fun b => (s.begin t).bstate b == .off) = false := hrun
    rw [h]
    decide
  unfold State.syncReturn
  rw [if_neg hlit', if_neg hrun']
  extract_lets s₁ pos back bad s₂ s₃ s₄
  clear_value s₃ bad
  have h3 : s₄.rdN (lk k 3) = 2 := by
    have hbit (i : Nat) (v : Bool) (u : State) : (u.setBit (lk k 0x13) i v).rdN (lk k 3) = u.rdN (lk k 3) :=
      State.rdN_setBit_ne (lk_ne (by decide)) (ownDefault_lk k.isLt (by decide)) i v u
    rw [show s₄ = _ from rfl, hbit, hbit, hbit]
    exact State.rdN_wr_same ..
  clear_value s₄
  obtain ⟨hrejoin, hend⟩ := State.endScan_shows (k := k) bad (s₄.wholeAgain k)
  obtain ⟨h12, hwhole⟩ := State.wholeAgain_shows (k := k) s₄
  exact ⟨(hend _).trans (hwhole.trans h3), (hend _).trans h12, hrejoin⟩

end

/-- Settles O33: the departures, received frames, timeouts, enumerations, breaks and host requests of the links, each by the lemma of its command. -/
theorem linkCommandsComplete : Obligations.LinkCommandsComplete := by
  unfold Obligations.LinkCommandsComplete
  refine ⟨fun t k s hlit hrun hgrid hnext hg hr hrem => frameDeparture_departs hlit hrun hgrid hnext hg hr hrem,
    fun t k s hlit hg hr hrem => frameDeparture_dark hlit hg hr hrem,
    fun t k f s hon hst hbad => upFrameReceived_bad hon hst hbad,
    fun t k f s hon hst hcrc hstomp => upFrameReceived_good hon hst hcrc hstomp,
    fun t k s r t0 hreq hsent hdue => ⟨requestTimeout_repeats hreq hsent hdue, requestTimeout_reports hreq hsent hdue⟩,
    fun t q k found runs s hs hp hlit hoff hlen hcap => linkEnumerate_enumerates hs hp hlit hoff hlen hcap,
    fun t q k found runs s hs hp hlit => linkEnumerate_dark hs hp hlit,
    fun t k found runs s => ⟨syncReturn_dark, syncReturn_enumerates, syncReturn_rejoins⟩,
    fun t k unreached s => ⟨linkBreak_breaks, linkBreak_idle⟩,
    fun t q n s hs => ⟨nodeRegisterRead_waits hs, nodeRegisterRead_busy hs⟩,
    fun t q n v s hs hp hfree => ⟨nodeRegisterWrite_waits hs hp hfree, nodeRegisterWrite_refused hs hp⟩,
    fun t q n s hs hp hfree => ⟨clearFaults_waits hs hp hfree, fun b hb => clearFaults_refused hs hp hb⟩⟩

end Sys2Proof.Machine
end

section
/-! The frame of every command and the invariant of every step: each command answers a next state within the set listed for it, by the
lemma of its meaning (Laws/Frames.lean), which settles O5; what that frame says of the waiting commands and of the dictionary settles O4. -/

namespace Sys2Proof.Machine

-- The kernel's evaluations run one after the other: side by side they would need too much memory.
set_option Elab.async false

theorem execBankViewWrite_next (t : Time) (q : Req) (b : Batch) (off : Fin 32) (sub v : Nat) (s : State) :
    ∃ u, execBankViewWrite t q b off sub v s = .next u := by
  unfold execBankViewWrite
  split <;> exact ⟨_, rfl⟩

/-- Settles O5: one arm for each command, whose meaning answers a next state and changes no more than its frame lemma says; that this lies
within the set listed for the command is computed. -/
theorem execKeepsFrame : Obligations.ExecKeepsFrame := by
  unfold Obligations.ExecKeepsFrame
  intro c s
  cases c with
  | sampleInstant t b => exact ⟨_, rfl, execSampleInstant_frame t b s (by change Sub _ (changes _ _ _); decide +kernel) rfl⟩
  | inputsReady t b => exact ⟨_, rfl, execInputsReady_frame t b s (by change Sub _ (changes _ _ _); decide +kernel) rfl⟩
  | itemComplete t l => exact ⟨_, rfl, execItemComplete_frame t l s (by change Sub _ (changes _ _ _); decide +kernel) rfl⟩
  | slotFault t b fs => exact ⟨_, rfl, execSlotFault_frame t b fs s (by change Sub _ (changes _ _ _); decide +kernel) rfl⟩
  | deadline t b => exact ⟨_, rfl, execDeadline_frame t b s (by change Sub _ (changes _ _ _); decide +kernel) rfl⟩
  | batchLoad t b => exact ⟨_, rfl, execBatchLoad_frame t b s (by change Sub _ (changes _ _ _); decide +kernel) rfl⟩
  | loadPoint t c => exact ⟨_, rfl, execLoadPoint_frame t c s (by change Sub _ (changes _ _ _); decide +kernel) rfl⟩
  | dictionaryJob t b => exact ⟨_, rfl, execDictionaryJob_frame t b s (by change Sub _ (changes _ _ _); decide +kernel) rfl⟩
  | paceMeasurement t paces => exact ⟨_, rfl, execPaceMeasurement_frame t paces s (by change Sub _ (changes _ _ _); decide +kernel) rfl⟩
  | laneTestStart t => exact ⟨_, rfl, execLaneTestStart_frame t s (by change Sub _ (changes _ _ _); decide +kernel) rfl⟩
  | laneDrained t l => exact ⟨_, rfl, execLaneDrained_frame t l s (by change Sub _ (changes _ _ _); decide +kernel) rfl⟩
  | laneTestEnd t l res => exact ⟨_, rfl, execLaneTestEnd_frame t l res s (by change Sub _ (changes _ _ _); decide +kernel) rfl⟩
  | laneStall t l => exact ⟨_, rfl, execLaneStall_frame t l s (by change Sub _ (changes _ _ _); decide +kernel) rfl⟩
  | followingErrorTick t sl => exact ⟨_, rfl, execFollowingErrorTick_frame t sl s (by change Sub _ (changes _ _ _); decide +kernel) rfl⟩
  | openLoopTimeout t b => exact ⟨_, rfl, execOpenLoopTimeout_frame t b s (by change Sub _ (changes _ _ _); decide +kernel) rfl⟩
  | loopReclose t b => exact ⟨_, rfl, execLoopReclose_frame t b s (by change Sub _ (changes _ _ _); decide +kernel) rfl⟩
  | sarSlot t p x0 x1 => exact ⟨_, rfl, execSarSlot_frame t p x0 x1 s (by change Sub _ (changes _ _ _); decide +kernel) rfl⟩
  | pairTrigger t p => exact ⟨_, rfl, execPairTrigger_frame t p s (by change Sub _ (changes _ _ _); decide +kernel) rfl⟩
  | coreSpareTakeover t k => exact ⟨_, rfl, execCoreSpareTakeover_frame t k s (by change Sub _ (changes _ _ _); decide +kernel) rfl⟩
  | coreBackgroundTest t k pass => exact ⟨_, rfl, execCoreBackgroundTest_frame t k pass s (by change Sub _ (changes _ _ _); decide +kernel) rfl⟩
  | slotResultRead t q k x_i => exact ⟨_, rfl, execSlotResultRead_frame t q k x_i s (by change Sub _ (changes _ _ _); decide +kernel) rfl⟩
  | testDacInject t q p code => exact ⟨_, rfl, execTestDacInject_frame t q p code s (by change Sub _ (changes _ _ _); decide +kernel) rfl⟩
  | pathTest t q p r0 r1 => exact ⟨_, rfl, execPathTest_frame t q p r0 r1 s (by change Sub _ (changes _ _ _); decide +kernel) rfl⟩
  | clearFault t q p => exact ⟨_, rfl, execClearFault_frame t q p s (by change Sub _ (changes _ _ _); decide +kernel) rfl⟩
  | decimationInstant t c bits => exact ⟨_, rfl, execDecimationInstant_frame t c bits s (by change Sub _ (changes _ _ _); decide +kernel) rfl⟩
  | sigmaDeltaLoss t c clockAbsent => exact ⟨_, rfl, execSigmaDeltaLoss_frame t c clockAbsent s (by change Sub _ (changes _ _ _); decide +kernel) rfl⟩
  | fastTapOutput t c => exact ⟨_, rfl, execFastTapOutput_frame t c s (by change Sub _ (changes _ _ _); decide +kernel) rfl⟩
  | trackingLostTimeout t c => exact ⟨_, rfl, execTrackingLostTimeout_frame t c s (by change Sub _ (changes _ _ _); decide +kernel) rfl⟩
  | chainEnable t q c => exact ⟨_, rfl, execChainEnable_frame t q c s (by change Sub _ (changes _ _ _); decide +kernel) rfl⟩
  | chainBankWrite t q c img => exact ⟨_, rfl, execChainBankWrite_frame t q c img s (by change Sub _ (changes _ _ _); decide +kernel) rfl⟩
  | chainSwapRequest t q c v => exact ⟨_, rfl, execChainSwapRequest_frame t q c v s (by change Sub _ (changes _ _ _); decide +kernel) rfl⟩
  | chainBankSwapped t c => exact ⟨_, rfl, execChainBankSwapped_frame t c s (by change Sub _ (changes _ _ _); decide +kernel) rfl⟩
  | detectorWindowWrite t q c w => exact ⟨_, rfl, execDetectorWindowWrite_frame t q c w s (by change Sub _ (changes _ _ _); decide +kernel) rfl⟩
  | bankSwapRequest t q b => exact ⟨_, rfl, execBankSwapRequest_frame t q b s (by change Sub _ (changes _ _ _); decide +kernel) rfl⟩
  | copyActiveToInactive t q b => exact ⟨_, rfl, execCopyActiveToInactive_frame t q b s (by change Sub _ (changes _ _ _); decide +kernel) rfl⟩
  | slotBankWrite t q sl bankB word v => exact ⟨_, rfl, execSlotBankWrite_frame t q sl bankB word v s (by change Sub _ (changes _ _ _); decide +kernel) rfl⟩
  | slotStateWrite t q sl x_i v => exact ⟨_, rfl, execSlotStateWrite_frame t q sl x_i v s (by change Sub _ (changes _ _ _); decide +kernel) rfl⟩
  | targetWrite t q g v => exact ⟨_, rfl, execTargetWrite_frame t q g v s (by change Sub _ (changes _ _ _); decide +kernel) rfl⟩
  | genHold t q g => exact ⟨_, rfl, execHold_frame t q g s (by change Sub _ (changes _ _ _); decide +kernel) rfl⟩
  | genRelease t q g => exact ⟨_, rfl, execRelease_frame t q g s (by change Sub _ (changes _ _ _); decide +kernel) rfl⟩
  | genPreset t q g => exact ⟨_, rfl, execPreset_frame t q g s (by change Sub _ (changes _ _ _); decide +kernel) rfl⟩
  | recipeLoadAndVerify t q b img => exact ⟨_, rfl, execRecipeLoadAndVerify_frame t q b img s (by change Sub _ (changes _ _ _); decide +kernel) rfl⟩
  | recipeLoadComplete t b => exact ⟨_, rfl, execRecipeLoadComplete_frame t b s (by change Sub _ (changes _ _ _); decide +kernel) rfl⟩
  | recipeUnload t q b => exact ⟨_, rfl, execRecipeUnload_frame t q b s (by change Sub _ (changes _ _ _); decide +kernel) rfl⟩
  | batchEnable t q b v => exact ⟨_, rfl, execBatchEnable_frame t q b v s (by change Sub _ (changes _ _ _); decide +kernel) rfl⟩
  | baseValuesWrite t q b current v => exact ⟨_, rfl, execBaseValuesWrite_frame t q b current v s (by change Sub _ (changes _ _ _); decide +kernel) rfl⟩
  | bankViewWrite t q b off sub v =>
    obtain ⟨u, hu⟩ := execBankViewWrite_next t q b off sub v s
    exact ⟨u, hu, execBankViewWrite_frame t q b off sub v s (by change Sub _ (changes _ _ _); decide +kernel) hu⟩
  | setpointWrite t q b x_i v => exact ⟨_, rfl, execSetpointWrite_frame t q b x_i v s (by change Sub _ (changes _ _ _); decide +kernel) rfl⟩
  | stagedApplication t b => exact ⟨_, rfl, execStagedApplication_frame t b s (by change Sub _ (changes _ _ _); decide +kernel) rfl⟩
  | setpointWatchdog t b => exact ⟨_, rfl, execSetpointWatchdog_frame t b s (by change Sub _ (changes _ _ _); decide +kernel) rfl⟩
  | pccBreakerStatusWrite t q b v => exact ⟨_, rfl, execPccBreakerStatusWrite_frame t q b v s (by change Sub _ (changes _ _ _); decide +kernel) rfl⟩
  | batchStart t q b => exact ⟨_, rfl, execBatchStart_frame t q b s (by change Sub _ (changes _ _ _); decide +kernel) rfl⟩
  | batchStop t q b => exact ⟨_, rfl, execBatchStop_frame t q b s (by change Sub _ (changes _ _ _); decide +kernel) rfl⟩
  | batchBlock t q b => exact ⟨_, rfl, execBatchBlock_frame t q b s (by change Sub _ (changes _ _ _); decide +kernel) rfl⟩
  | batchRelease t q b => exact ⟨_, rfl, execBatchRelease_frame t q b s (by change Sub _ (changes _ _ _); decide +kernel) rfl⟩
  | faultReset t q b => exact ⟨_, rfl, execFaultReset_frame t q b s (by change Sub _ (changes _ _ _); decide +kernel) rfl⟩
  | batchIsland t q b => exact ⟨_, rfl, execIsland_frame t q b s (by change Sub _ (changes _ _ _); decide +kernel) rfl⟩
  | batchResync t q b => exact ⟨_, rfl, execResync_frame t q b s (by change Sub _ (changes _ _ _); decide +kernel) rfl⟩
  | batchBlackStart t q b => exact ⟨_, rfl, execBlackStart_frame t q b s (by change Sub _ (changes _ _ _); decide +kernel) rfl⟩
  | coastTimeLimit t b => exact ⟨_, rfl, execCoastTimeLimit_frame t b s (by change Sub _ (changes _ _ _); decide +kernel) rfl⟩
  | clearStatistics t q b => exact ⟨_, rfl, execClearStatistics_frame t q b s (by change Sub _ (changes _ _ _); decide +kernel) rfl⟩
  | maximumLimitedTime t b => exact ⟨_, rfl, execMaximumLimitedTime_frame t b s (by change Sub _ (changes _ _ _); decide +kernel) rfl⟩
  | guardDelay t b => exact ⟨_, rfl, execGuardDelay_frame t b s (by change Sub _ (changes _ _ _); decide +kernel) rfl⟩
  | excursionEnd t b freq => exact ⟨_, rfl, execExcursionEnd_frame t b freq s (by change Sub _ (changes _ _ _); decide +kernel) rfl⟩
  | envelopeWrite t q b e img => exact ⟨_, rfl, execEnvelopeWrite_frame t q b e img s (by change Sub _ (changes _ _ _); decide +kernel) rfl⟩
  | dcLinkReady t b => exact ⟨_, rfl, execDcLinkReady_frame t b s (by change Sub _ (changes _ _ _); decide +kernel) rfl⟩
  | prechargeTimeLimit t b => exact ⟨_, rfl, execPrechargeTimeLimit_frame t b s (by change Sub _ (changes _ _ _); decide +kernel) rfl⟩
  | starterWindowTimeout t b => exact ⟨_, rfl, execStarterWindowTimeout_frame t b s (by change Sub _ (changes _ _ _); decide +kernel) rfl⟩
  | busDeclaredDead t b => exact ⟨_, rfl, execBusDeclaredDead_frame t b s (by change Sub _ (changes _ _ _); decide +kernel) rfl⟩
  | starterWaitLimit t b => exact ⟨_, rfl, execStarterWaitLimit_frame t b s (by change Sub _ (changes _ _ _); decide +kernel) rfl⟩
  | blackStartTimeLimit t b => exact ⟨_, rfl, execBlackStartTimeLimit_frame t b s (by change Sub _ (changes _ _ _); decide +kernel) rfl⟩
  | automaticResync t b => exact ⟨_, rfl, execAutomaticResync_frame t b s (by change Sub _ (changes _ _ _); decide +kernel) rfl⟩
  | windowHeld t b => exact ⟨_, rfl, execWindowHeld_frame t b s (by change Sub _ (changes _ _ _); decide +kernel) rfl⟩
  | closingTimeLimit t b => exact ⟨_, rfl, execClosingTimeLimit_frame t b s (by change Sub _ (changes _ _ _); decide +kernel) rfl⟩
  | resyncTimeLimit t b => exact ⟨_, rfl, execResyncTimeLimit_frame t b s (by change Sub _ (changes _ _ _); decide +kernel) rfl⟩
  | referenceNotLive t b => exact ⟨_, rfl, execReferenceNotLive_frame t b s (by change Sub _ (changes _ _ _); decide +kernel) rfl⟩
  | pwmBlockN t k low => exact ⟨_, rfl, execPwmBlockN_frame t k low s (by change Sub _ (changes _ _ _); decide +kernel) rfl⟩
  | bootstrapUndervoltage t d => exact ⟨_, rfl, execBootstrapUndervoltage_frame t d s (by change Sub _ (changes _ _ _); decide +kernel) rfl⟩
  | rechargeHold t d => exact ⟨_, rfl, execRechargeHold_frame t d s (by change Sub _ (changes _ _ _); decide +kernel) rfl⟩
  | sliceCalibration t counts => exact ⟨_, rfl, execSliceCalibration_frame t counts s (by change Sub _ (changes _ _ _); decide +kernel) rfl⟩
  | extendedRecalibration t => exact ⟨_, rfl, execExtendedRecalibration_frame t s (by change Sub _ (changes _ _ _); decide +kernel) rfl⟩
  | returnToNormalMode t b => exact ⟨_, rfl, execReturnToNormalMode_frame t b s (by change Sub _ (changes _ _ _); decide +kernel) rfl⟩
  | sliceBackgroundTest t sl => exact ⟨_, rfl, execSliceBackgroundTest_frame t sl s (by change Sub _ (changes _ _ _); decide +kernel) rfl⟩
  | sliceTestEnd t sl pass => exact ⟨_, rfl, execSliceTestEnd_frame t sl pass s (by change Sub _ (changes _ _ _); decide +kernel) rfl⟩
  | spareSliceTakeover t c => exact ⟨_, rfl, execSpareSliceTakeover_frame t c s (by change Sub _ (changes _ _ _); decide +kernel) rfl⟩
  | testDuty t q c v => exact ⟨_, rfl, execTestDuty_frame t q c v s (by change Sub _ (changes _ _ _); decide +kernel) rfl⟩
  | frameDeparture t => exact ⟨_, rfl, execFrameDeparture_frame t s (by change Sub _ (changes _ _ _); decide +kernel) rfl⟩
  | upFrameReceived t k f => exact ⟨_, rfl, execUpFrameReceived_frame t k f s (by change Sub _ (changes _ _ _); decide +kernel) rfl⟩
  | nodeControlByte t n ctl epoch => exact ⟨_, rfl, execNodeControlByte_frame t n ctl epoch s (by change Sub _ (changes _ _ _); decide +kernel) rfl⟩
  | nodeFrameReceived t n f => exact ⟨_, rfl, execNodeFrameReceived_frame t n f s (by change Sub _ (changes _ _ _); decide +kernel) rfl⟩
  | nodeFrameUsable t n => exact ⟨_, rfl, execNodeFrameUsable_frame t n s (by change Sub _ (changes _ _ _); decide +kernel) rfl⟩
  | nodeEdge t n => exact ⟨_, rfl, execNodeEdge_frame t n s (by change Sub _ (changes _ _ _); decide +kernel) rfl⟩
  | nodeSample t n v x_i own => exact ⟨_, rfl, execNodeSample_frame t n v x_i own s (by change Sub _ (changes _ _ _); decide +kernel) rfl⟩
  | turnNodeFrame t n => exact ⟨_, rfl, execTurnNodeFrame_frame t n s (by change Sub _ (changes _ _ _); decide +kernel) rfl⟩
  | missedFramePeriod t n => exact ⟨_, rfl, execMissedFramePeriod_frame t n s (by change Sub _ (changes _ _ _); decide +kernel) rfl⟩
  | nodeWatchdog t n => exact ⟨_, rfl, execNodeWatchdog_frame t n s (by change Sub _ (changes _ _ _); decide +kernel) rfl⟩
  | nodeShortCircuit t n x_i undervoltage => exact ⟨_, rfl, execNodeShortCircuit_frame t n x_i undervoltage s (by change Sub _ (changes _ _ _); decide +kernel) rfl⟩
  | turnNodeChange t n turn => exact ⟨_, rfl, execTurnNodeChange_frame t n turn s (by change Sub _ (changes _ _ _); decide +kernel) rfl⟩
  | readRegister t n addr => exact ⟨_, rfl, execReadRegister_frame t n addr s (by change Sub _ (changes _ _ _); decide +kernel) rfl⟩
  | writeRegister t n addr data epoch => exact ⟨_, rfl, execWriteRegister_frame t n addr data epoch s (by change Sub _ (changes _ _ _); decide +kernel) rfl⟩
  | clearLatchedFaults t n epoch standing => exact ⟨_, rfl, execClearLatchedFaults_frame t n epoch standing s (by change Sub _ (changes _ _ _); decide +kernel) rfl⟩
  | enumerateRequest t n data => exact ⟨_, rfl, execEnumerateRequest_frame t n data s (by change Sub _ (changes _ _ _); decide +kernel) rfl⟩
  | delayMeasurement t n a b => exact ⟨_, rfl, execDelayMeasurement_frame t n a b s (by change Sub _ (changes _ _ _); decide +kernel) rfl⟩
  | requestTimeout t k => exact ⟨_, rfl, execRequestTimeout_frame t k s (by change Sub _ (changes _ _ _); decide +kernel) rfl⟩
  | linkEnumerate t q k found => exact ⟨_, rfl, execEnumerate_frame t q k found s (by change Sub _ (changes _ _ _); decide +kernel) rfl⟩
  | syncReturn t k found => exact ⟨_, rfl, execSyncReturn_frame t k found s (by change Sub _ (changes _ _ _); decide +kernel) rfl⟩
  | linkBreak t k unreached => exact ⟨_, rfl, execLinkBreak_frame t k unreached s (by change Sub _ (changes _ _ _); decide +kernel) rfl⟩
  | nodeRegisterRead t q n => exact ⟨_, rfl, execNodeRegisterRead_frame t q n s (by change Sub _ (changes _ _ _); decide +kernel) rfl⟩
  | nodeRegisterWrite t q n v => exact ⟨_, rfl, execNodeRegisterWrite_frame t q n v s (by change Sub _ (changes _ _ _); decide +kernel) rfl⟩
  | clearFaults t q n => exact ⟨_, rfl, execClearFaults_frame t q n s (by change Sub _ (changes _ _ _); decide +kernel) rfl⟩
  | vgateLow t mv => exact ⟨_, rfl, execVgateLow_frame t mv s (by change Sub _ (changes _ _ _); decide +kernel) rfl⟩
  | vgateRecovered t mv => exact ⟨_, rfl, execVgateRecovered_frame t mv s (by change Sub _ (changes _ _ _); decide +kernel) rfl⟩
  | vbridgeOvervoltage t mv => exact ⟨_, rfl, execVbridgeOvervoltage_frame t mv s (by change Sub _ (changes _ _ _); decide +kernel) rfl⟩
  | vbridgeOvervoltageClear t mv => exact ⟨_, rfl, execVbridgeOvervoltageClear_frame t mv s (by change Sub _ (changes _ _ _); decide +kernel) rfl⟩
  | vbridgeLow t mv => exact ⟨_, rfl, execVbridgeLow_frame t mv s (by change Sub _ (changes _ _ _); decide +kernel) rfl⟩
  | vbridgeLowClear t mv => exact ⟨_, rfl, execVbridgeLowClear_frame t mv s (by change Sub _ (changes _ _ _); decide +kernel) rfl⟩
  | blankingEnd t d high => exact ⟨_, rfl, execBlankingEnd_frame t d high s (by change Sub _ (changes _ _ _); decide +kernel) rfl⟩
  | driverShort t d x => exact ⟨_, rfl, execShort_frame t d x s (by change Sub _ (changes _ _ _); decide +kernel) rfl⟩
  | driverClearFaults t q d => exact ⟨_, rfl, execDriverClearFaults_frame t q d s (by change Sub _ (changes _ _ _); decide +kernel) rfl⟩
  | runDiagnostic t q d => exact ⟨_, rfl, execRunDiagnostic_frame t q d s (by change Sub _ (changes _ _ _); decide +kernel) rfl⟩
  | diagnosticStep t d v vp => exact ⟨_, rfl, execDiagnosticStep_frame t d v vp s (by change Sub _ (changes _ _ _); decide +kernel) rfl⟩
  | islandSelfTestEnd t pass => exact ⟨_, rfl, execIslandSelfTestEnd_frame t pass s (by change Sub _ (changes _ _ _); decide +kernel) rfl⟩
  | islandCycle t rb => exact ⟨_, rfl, execIslandCycle_frame t rb s (by change Sub _ (changes _ _ _); decide +kernel) rfl⟩
  | islandSample t x0 x1 x2 x3 => exact ⟨_, rfl, execIslandSample_frame t x0 x1 x2 x3 s (by change Sub _ (changes _ _ _); decide +kernel) rfl⟩
  | rmsUpdate t => exact ⟨_, rfl, execRmsUpdate_frame t s (by change Sub _ (changes _ _ _); decide +kernel) rfl⟩
  | crossCheckGrace t second => exact ⟨_, rfl, execCrossCheckGrace_frame t second s (by change Sub _ (changes _ _ _); decide +kernel) rfl⟩
  | stageTrip t x_i => exact ⟨_, rfl, execStageTrip_frame t x_i s (by change Sub _ (changes _ _ _); decide +kernel) rfl⟩
  | meanUpdate t x_i => exact ⟨_, rfl, execMeanUpdate_frame t x_i s (by change Sub _ (changes _ _ _); decide +kernel) rfl⟩
  | deadToTheIsland t => exact ⟨_, rfl, execDeadToTheIsland_frame t s (by change Sub _ (changes _ _ _); decide +kernel) rfl⟩
  | islandOscillatorCheck t dev => exact ⟨_, rfl, execIslandOscillatorCheck_frame t dev s (by change Sub _ (changes _ _ _); decide +kernel) rfl⟩
  | islandSelfCheck t pass => exact ⟨_, rfl, execIslandSelfCheck_frame t pass s (by change Sub _ (changes _ _ _); decide +kernel) rfl⟩
  | pd7SupplyLow t => exact ⟨_, rfl, execPd7SupplyLow_frame t s (by change Sub _ (changes _ _ _); decide +kernel) rfl⟩
  | safeStopN t k low => exact ⟨_, rfl, execSafeStopN_frame t k low s (by change Sub _ (changes _ _ _); decide +kernel) rfl⟩
  | hostOpen t q n => exact ⟨_, rfl, execHostOpen_frame t q n s (by change Sub _ (changes _ _ _); decide +kernel) rfl⟩
  | hostClose t q n => exact ⟨_, rfl, execHostClose_frame t q n s (by change Sub _ (changes _ _ _); decide +kernel) rfl⟩
  | acknowledge t q n => exact ⟨_, rfl, execAcknowledge_frame t q n s (by change Sub _ (changes _ _ _); decide +kernel) rfl⟩
  | contactFeedbackClosed t n => exact ⟨_, rfl, execContactFeedbackClosed_frame t n s (by change Sub _ (changes _ _ _); decide +kernel) rfl⟩
  | closingTime t n => exact ⟨_, rfl, execClosingTime_frame t n s (by change Sub _ (changes _ _ _); decide +kernel) rfl⟩
  | coilOvercurrent t n ma => exact ⟨_, rfl, execCoilOvercurrent_frame t n ma s (by change Sub _ (changes _ _ _); decide +kernel) rfl⟩
  | readbackMismatch t n r => exact ⟨_, rfl, execReadbackMismatch_frame t n r s (by change Sub _ (changes _ _ _); decide +kernel) rfl⟩
  | darkPulse t n low => exact ⟨_, rfl, execDarkPulse_frame t n low s (by change Sub _ (changes _ _ _); decide +kernel) rfl⟩
  | brightPulse t n low => exact ⟨_, rfl, execBrightPulse_frame t n low s (by change Sub _ (changes _ _ _); decide +kernel) rfl⟩
  | pulseRetry t n low => exact ⟨_, rfl, execPulseRetry_frame t n low s (by change Sub _ (changes _ _ _); decide +kernel) rfl⟩
  | safetyTelegram t portB bytes => exact ⟨_, rfl, execSafetyTelegram_frame t portB bytes s (by change Sub _ (changes _ _ _); decide +kernel) rfl⟩
  | noPartner t => exact ⟨_, rfl, execNoPartner_frame t s (by change Sub _ (changes _ _ _); decide +kernel) rfl⟩
  | telegramWatchdog t => exact ⟨_, rfl, execTelegramWatchdog_frame t s (by change Sub _ (changes _ _ _); decide +kernel) rfl⟩
  | statusTelegram t => exact ⟨_, rfl, execStatusTelegram_frame t s (by change Sub _ (changes _ _ _); decide +kernel) rfl⟩
  | observationComplete t => exact ⟨_, rfl, execObservationComplete_frame t s (by change Sub _ (changes _ _ _); decide +kernel) rfl⟩
  | lockIslandSettings t q => exact ⟨_, rfl, execLockIslandSettings_frame t q s (by change Sub _ (changes _ _ _); decide +kernel) rfl⟩
  | lockInterfaceProtectionSettings t q => exact ⟨_, rfl, execLockInterfaceProtectionSettings_frame t q s (by change Sub _ (changes _ _ _); decide +kernel) rfl⟩
  | refclkQualified t => exact ⟨_, rfl, execRefclkQualified_frame t s (by change Sub _ (changes _ _ _); decide +kernel) rfl⟩
  | refclkDisqualified t => exact ⟨_, rfl, execRefclkDisqualified_frame t s (by change Sub _ (changes _ _ _); decide +kernel) rfl⟩
  | refclkReselection t => exact ⟨_, rfl, execRefclkReselection_frame t s (by change Sub _ (changes _ _ _); decide +kernel) rfl⟩
  | referenceSelect t q v => exact ⟨_, rfl, execReferenceSelect_frame t q v s (by change Sub _ (changes _ _ _); decide +kernel) rfl⟩
  | pllUpdate t => exact ⟨_, rfl, execPllUpdate_frame t s (by change Sub _ (changes _ _ _); decide +kernel) rfl⟩
  | pllLock t band => exact ⟨_, rfl, execPllLock_frame t band s (by change Sub _ (changes _ _ _); decide +kernel) rfl⟩
  | fastHopTimeout t => exact ⟨_, rfl, execFastHopTimeout_frame t s (by change Sub _ (changes _ _ _); decide +kernel) rfl⟩
  | bandStore t => exact ⟨_, rfl, execBandStore_frame t s (by change Sub _ (changes _ _ _); decide +kernel) rfl⟩
  | clearStoredBands t q => exact ⟨_, rfl, execClearStoredBands_frame t q s (by change Sub _ (changes _ _ _); decide +kernel) rfl⟩
  | pllUnlocked t => exact ⟨_, rfl, execPllUnlocked_frame t s (by change Sub _ (changes _ _ _); decide +kernel) rfl⟩
  | referenceLost t refclk => exact ⟨_, rfl, execReferenceLost_frame t refclk s (by change Sub _ (changes _ _ _); decide +kernel) rfl⟩
  | returnToPll t => exact ⟨_, rfl, execReturnToPll_frame t s (by change Sub _ (changes _ _ _); decide +kernel) rfl⟩
  | bothReferencesLost t => exact ⟨_, rfl, execBothReferencesLost_frame t s (by change Sub _ (changes _ _ _); decide +kernel) rfl⟩
  | rideWindowEnd t => exact ⟨_, rfl, execRideWindowEnd_frame t s (by change Sub _ (changes _ _ _); decide +kernel) rfl⟩
  | referenceReturn t refclk => exact ⟨_, rfl, execReferenceReturn_frame t refclk s (by change Sub _ (changes _ _ _); decide +kernel) rfl⟩
  | housekeepingClockMeasurement t err => exact ⟨_, rfl, execHousekeepingClockMeasurement_frame t err s (by change Sub _ (changes _ _ _); decide +kernel) rfl⟩
  | ptpSync t portB m => exact ⟨_, rfl, execPtpSync_frame t portB m s (by change Sub _ (changes _ _ _); decide +kernel) rfl⟩
  | ptpAnnounce t portB m => exact ⟨_, rfl, execPtpAnnounce_frame t portB m s (by change Sub _ (changes _ _ _); decide +kernel) rfl⟩
  | ptpPdelay t portB m => exact ⟨_, rfl, execPtpPdelay_frame t portB m s (by change Sub _ (changes _ _ _); decide +kernel) rfl⟩
  | ptpTransmit t portB kind => exact ⟨_, rfl, execPtpTransmit_frame t portB kind s (by change Sub _ (changes _ _ _); decide +kernel) rfl⟩
  | announceReceiptTimeout t portB => exact ⟨_, rfl, execAnnounceReceiptTimeout_frame t portB s (by change Sub _ (changes _ _ _); decide +kernel) rfl⟩
  | qualityLocked t => exact ⟨_, rfl, execQualityLocked_frame t s (by change Sub _ (changes _ _ _); decide +kernel) rfl⟩
  | authoriseStep t q => exact ⟨_, rfl, execAuthoriseStep_frame t q s (by change Sub _ (changes _ _ _); decide +kernel) rfl⟩
  | tpoFiring t k => exact ⟨_, rfl, execTpoFiring_frame t k s (by change Sub _ (changes _ _ _); decide +kernel) rfl⟩
  | tpoWidthEnd t k => exact ⟨_, rfl, execTpoWidthEnd_frame t k s (by change Sub _ (changes _ _ _); decide +kernel) rfl⟩
  | armTpo t q k => exact ⟨_, rfl, execArmTpo_frame t q k s (by change Sub _ (changes _ _ _); decide +kernel) rfl⟩
  | disarmTpo t q k => exact ⟨_, rfl, execDisarmTpo_frame t q k s (by change Sub _ (changes _ _ _); decide +kernel) rfl⟩
  | trigIn t x_i high => exact ⟨_, rfl, execTrigIn_frame t x_i high s (by change Sub _ (changes _ _ _); decide +kernel) rfl⟩
  | armAcquisition t q => exact ⟨_, rfl, execArmAcquisition_frame t q s (by change Sub _ (changes _ _ _); decide +kernel) rfl⟩
  | disarmAcquisition t q => exact ⟨_, rfl, execDisarmAcquisition_frame t q s (by change Sub _ (changes _ _ _); decide +kernel) rfl⟩
  | armTime t => exact ⟨_, rfl, execArmTime_frame t s (by change Sub _ (changes _ _ _); decide +kernel) rfl⟩
  | recordInstant t => exact ⟨_, rfl, execRecordInstant_frame t s (by change Sub _ (changes _ _ _); decide +kernel) rfl⟩
  | releaseCapture t q k => exact ⟨_, rfl, execReleaseCapture_frame t q k s (by change Sub _ (changes _ _ _); decide +kernel) rfl⟩
  | comtradeExportAssembly t q k => exact ⟨_, rfl, execComtradeExportAssembly_frame t q k s (by change Sub _ (changes _ _ _); decide +kernel) rfl⟩
  | exportComplete t k => exact ⟨_, rfl, execExportComplete_frame t k s (by change Sub _ (changes _ _ _); decide +kernel) rfl⟩
  | recordCommit t => exact ⟨_, rfl, execRecordCommit_frame t s (by change Sub _ (changes _ _ _); decide +kernel) rfl⟩
  | logSnapshot t q => exact ⟨_, rfl, execSnapshot_frame t q s (by change Sub _ (changes _ _ _); decide +kernel) rfl⟩
  | logFreeze t q => exact ⟨_, rfl, execFreeze_frame t q s (by change Sub _ (changes _ _ _); decide +kernel) rfl⟩
  | logFreezeEnd t => exact ⟨_, rfl, execFreezeEnd_frame t s (by change Sub _ (changes _ _ _); decide +kernel) rfl⟩
  | archiveAndClear t q seq => exact ⟨_, rfl, execArchiveAndClear_frame t q seq s (by change Sub _ (changes _ _ _); decide +kernel) rfl⟩
  | archiveAndClearComplete t => exact ⟨_, rfl, execArchiveAndClearComplete_frame t s (by change Sub _ (changes _ _ _); decide +kernel) rfl⟩
  | heartbeat t slot m => exact ⟨_, rfl, execHeartbeat_frame t slot m s (by change Sub _ (changes _ _ _); decide +kernel) rfl⟩
  | heartbeatSend t => exact ⟨_, rfl, execHeartbeatSend_frame t s (by change Sub _ (changes _ _ _); decide +kernel) rfl⟩
  | heartbeatMissed t slot => exact ⟨_, rfl, execHeartbeatMissed_frame t slot s (by change Sub _ (changes _ _ _); decide +kernel) rfl⟩
  | epochGrant t epoch first => exact ⟨_, rfl, execGrant_frame t epoch first s (by change Sub _ (changes _ _ _); decide +kernel) rfl⟩
  | epochRevoke t epoch last => exact ⟨_, rfl, execRevoke_frame t epoch last s (by change Sub _ (changes _ _ _); decide +kernel) rfl⟩
  | handoverRequest t slot pair cause => exact ⟨_, rfl, execHandoverRequest_frame t slot pair cause s (by change Sub _ (changes _ _ _); decide +kernel) rfl⟩
  | timeSync t departed others => exact ⟨_, rfl, execTimeSync_frame t departed others s (by change Sub _ (changes _ _ _); decide +kernel) rfl⟩
  | timeSyncSend t => exact ⟨_, rfl, execTimeSyncSend_frame t s (by change Sub _ (changes _ _ _); decide +kernel) rfl⟩
  | hopDelayMeasurement t ps => exact ⟨_, rfl, execHopDelayMeasurement_frame t ps s (by change Sub _ (changes _ _ _); decide +kernel) rfl⟩
  | masterLost t => exact ⟨_, rfl, execMasterLost_frame t s (by change Sub _ (changes _ _ _); decide +kernel) rfl⟩
  | arbiterLost t => exact ⟨_, rfl, execArbiterLost_frame t s (by change Sub _ (changes _ _ _); decide +kernel) rfl⟩
  | rackExecute t q => exact ⟨_, rfl, execExecute_frame t q s (by change Sub _ (changes _ _ _); decide +kernel) rfl⟩
  | rackPrepare t m => exact ⟨_, rfl, execPrepare_frame t m s (by change Sub _ (changes _ _ _); decide +kernel) rfl⟩
  | rackReady t slot txn => exact ⟨_, rfl, execReady_frame t slot txn s (by change Sub _ (changes _ _ _); decide +kernel) rfl⟩
  | rackRefuse t slot txn cause => exact ⟨_, rfl, execRefuse_frame t slot txn cause s (by change Sub _ (changes _ _ _); decide +kernel) rfl⟩
  | commitDecision t => exact ⟨_, rfl, execCommitDecision_frame t s (by change Sub _ (changes _ _ _); decide +kernel) rfl⟩
  | rackCommit t txn => exact ⟨_, rfl, execCommit_frame t txn s (by change Sub _ (changes _ _ _); decide +kernel) rfl⟩
  | rackAbort t txn => exact ⟨_, rfl, execAbort_frame t txn s (by change Sub _ (changes _ _ _); decide +kernel) rfl⟩
  | rackReport t slot txn applied => exact ⟨_, rfl, execReport_frame t slot txn applied s (by change Sub _ (changes _ _ _); decide +kernel) rfl⟩
  | stragglerDeadline t => exact ⟨_, rfl, execStragglerDeadline_frame t s (by change Sub _ (changes _ _ _); decide +kernel) rfl⟩
  | rackFiring t slot unit inst => exact ⟨_, rfl, execRackFiring_frame t slot unit inst s (by change Sub _ (changes _ _ _); decide +kernel) rfl⟩
  | rackArmMessage t arm inst => exact ⟨_, rfl, execRackArmMessage_frame t arm inst s (by change Sub _ (changes _ _ _); decide +kernel) rfl⟩
  | dictionaryGatewayFrame t m => exact ⟨_, rfl, execDictionaryGatewayFrame_frame t m s (by change Sub _ (changes _ _ _); decide +kernel) rfl⟩
  | gatewayTimeout t => exact ⟨_, rfl, execGatewayTimeout_frame t s (by change Sub _ (changes _ _ _); decide +kernel) rfl⟩
  | plannedHandover t q => exact ⟨_, rfl, execPlannedHandover_frame t q s (by change Sub _ (changes _ _ _); decide +kernel) rfl⟩
  | removalTimeout t => exact ⟨_, rfl, execRemovalTimeout_frame t s (by change Sub _ (changes _ _ _); decide +kernel) rfl⟩
  | closeBridges t q => exact ⟨_, rfl, execCloseBridges_frame t q s (by change Sub _ (changes _ _ _); decide +kernel) rfl⟩
  | bridgeOpen t k => exact ⟨_, rfl, execBridgeOpen_frame t k s (by change Sub _ (changes _ _ _); decide +kernel) rfl⟩
  | supplyLoss t mv => exact ⟨_, rfl, execSupplyLoss_frame t mv s (by change Sub _ (changes _ _ _); decide +kernel) rfl⟩
  | vinDip t => exact ⟨_, rfl, execVinDip_frame t s (by change Sub _ (changes _ _ _); decide +kernel) rfl⟩
  | supplyPresent t mv => exact ⟨_, rfl, execSupplyPresent_frame t mv s (by change Sub _ (changes _ _ _); decide +kernel) rfl⟩
  | holdUpPhase2 t => exact ⟨_, rfl, execHoldUpPhase2_frame t s (by change Sub _ (changes _ _ _); decide +kernel) rfl⟩
  | powerPark t => exact ⟨_, rfl, execPark_frame t s (by change Sub _ (changes _ _ _); decide +kernel) rfl⟩
  | storeExhausted t => exact ⟨_, rfl, execStoreExhausted_frame t s (by change Sub _ (changes _ _ _); decide +kernel) rfl⟩
  | storeCharged t => exact ⟨_, rfl, execStoreCharged_frame t s (by change Sub _ (changes _ _ _); decide +kernel) rfl⟩
  | chargeTimeout t => exact ⟨_, rfl, execChargeTimeout_frame t s (by change Sub _ (changes _ _ _); decide +kernel) rfl⟩
  | storeTemperatureThreshold t temp => exact ⟨_, rfl, execStoreTemperatureThreshold_frame t temp s (by change Sub _ (changes _ _ _); decide +kernel) rfl⟩
  | proofCheckEnd t v0 va vb => exact ⟨_, rfl, execProofCheckEnd_frame t v0 va vb s (by change Sub _ (changes _ _ _); decide +kernel) rfl⟩
  | proofInterval t => exact ⟨_, rfl, execProofInterval_frame t s (by change Sub _ (changes _ _ _); decide +kernel) rfl⟩
  | proofRepeat t => exact ⟨_, rfl, execProofRepeat_frame t s (by change Sub _ (changes _ _ _); decide +kernel) rfl⟩
  | moduleConfigure t q => exact ⟨_, rfl, execConfigure_frame t q s (by change Sub _ (changes _ _ _); decide +kernel) rfl⟩
  | moduleArm t q => exact ⟨_, rfl, execArm_frame t q s (by change Sub _ (changes _ _ _); decide +kernel) rfl⟩
  | moduleRun t q => exact ⟨_, rfl, execRun_frame t q s (by change Sub _ (changes _ _ _); decide +kernel) rfl⟩
  | moduleSafeHold t q => exact ⟨_, rfl, execSafeHold_frame t q s (by change Sub _ (changes _ _ _); decide +kernel) rfl⟩
  | restartFromSafehold t q => exact ⟨_, rfl, execRestartFromSafehold_frame t q s (by change Sub _ (changes _ _ _); decide +kernel) rfl⟩
  | configurationStore t q => exact ⟨_, rfl, execConfigurationStore_frame t q s (by change Sub _ (changes _ _ _); decide +kernel) rfl⟩
  | configurationStoreComplete t => exact ⟨_, rfl, execConfigurationStoreComplete_frame t s (by change Sub _ (changes _ _ _); decide +kernel) rfl⟩
  | onDemandSelfTest t q => exact ⟨_, rfl, execOnDemandSelfTest_frame t q s (by change Sub _ (changes _ _ _); decide +kernel) rfl⟩
  | selfTestComplete t failed => exact ⟨_, rfl, execSelfTestComplete_frame t failed s (by change Sub _ (changes _ _ _); decide +kernel) rfl⟩
  | retryNow t q => exact ⟨_, rfl, execRetryNow_frame t q s (by change Sub _ (changes _ _ _); decide +kernel) rfl⟩
  | proofCheckNow t q => exact ⟨_, rfl, execProofCheckNow_frame t q s (by change Sub _ (changes _ _ _); decide +kernel) rfl⟩
  | backOffExpired t => exact ⟨_, rfl, execBackOffExpired_frame t s (by change Sub _ (changes _ _ _); decide +kernel) rfl⟩
  | serviceStart t => exact ⟨_, rfl, execServiceStart_frame t s (by change Sub _ (changes _ _ _); decide +kernel) rfl⟩
  | powerOn t mv => exact ⟨_, rfl, execPowerOn_frame t mv s (by change Sub _ (changes _ _ _); decide +kernel) rfl⟩
  | resetN t => exact ⟨_, rfl, execResetN_frame t s (by change Sub _ (changes _ _ _); decide +kernel) rfl⟩
  | domainSwitchOff t q d => exact ⟨_, rfl, execDomainSwitchOff_frame t q d s (by change Sub _ (changes _ _ _); decide +kernel) rfl⟩
  | domainSwitchOn t q d => exact ⟨_, rfl, execDomainSwitchOn_frame t q d s (by change Sub _ (changes _ _ _); decide +kernel) rfl⟩
  | domainReady t d => exact ⟨_, rfl, execDomainReady_frame t d s (by change Sub _ (changes _ _ _); decide +kernel) rfl⟩
  | domainFault t d => exact ⟨_, rfl, execDomainFault_frame t d s (by change Sub _ (changes _ _ _); decide +kernel) rfl⟩
  | inrushTimeout t => exact ⟨_, rfl, execInrushTimeout_frame t s (by change Sub _ (changes _ _ _); decide +kernel) rfl⟩
  | insertionComplete t slot msel => exact ⟨_, rfl, execInsertionComplete_frame t slot msel s (by change Sub _ (changes _ _ _); decide +kernel) rfl⟩
  | latchLeverOpened t => exact ⟨_, rfl, execLatchLeverOpened_frame t s (by change Sub _ (changes _ _ _); decide +kernel) rfl⟩
  | latchButton t => exact ⟨_, rfl, execLatchButton_frame t s (by change Sub _ (changes _ _ _); decide +kernel) rfl⟩
  | withdrawnWithoutWarning t => exact ⟨_, rfl, execWithdrawnWithoutWarning_frame t s (by change Sub _ (changes _ _ _); decide +kernel) rfl⟩
  | scrubPass t mem errs => exact ⟨_, rfl, execScrubPass_frame t mem errs s (by change Sub _ (changes _ _ _); decide +kernel) rfl⟩
  | uncorrectableError t mem addr u cycle => exact ⟨_, rfl, execUncorrectableError_frame t mem addr u cycle s (by change Sub _ (changes _ _ _); decide +kernel) rfl⟩
  | junctionWarning t d temp => exact ⟨_, rfl, execJunctionWarning_frame t d temp s (by change Sub _ (changes _ _ _); decide +kernel) rfl⟩
  | junctionFault t d temp => exact ⟨_, rfl, execJunctionFault_frame t d temp s (by change Sub _ (changes _ _ _); decide +kernel) rfl⟩
  | storeHot t temp => exact ⟨_, rfl, execStoreHot_frame t temp s (by change Sub _ (changes _ _ _); decide +kernel) rfl⟩
  | sessionOpen t d => exact ⟨_, rfl, execOpen_frame t d s (by change Sub _ (changes _ _ _); decide +kernel) rfl⟩
  | sessionProve t d => exact ⟨_, rfl, execProve_frame t d s (by change Sub _ (changes _ _ _); decide +kernel) rfl⟩
  | sessionClose t d => exact ⟨_, rfl, execClose_frame t d s (by change Sub _ (changes _ _ _); decide +kernel) rfl⟩
  | keepAlive t d => exact ⟨_, rfl, execKeepAlive_frame t d s (by change Sub _ (changes _ _ _); decide +kernel) rfl⟩
  | readEntry t d => exact ⟨_, rfl, execReadEntry_frame t d s (by change Sub _ (changes _ _ _); decide +kernel) rfl⟩
  | writeEntry t d => exact ⟨_, rfl, execWriteEntry_frame t d s (by change Sub _ (changes _ _ _); decide +kernel) rfl⟩
  | segmentRead t d => exact ⟨_, rfl, execSegmentRead_frame t d s (by change Sub _ (changes _ _ _); decide +kernel) rfl⟩
  | segmentWrite t d => exact ⟨_, rfl, execSegmentWrite_frame t d s (by change Sub _ (changes _ _ _); decide +kernel) rfl⟩
  | sessionIdleTimeout t sid => exact ⟨_, rfl, execSessionIdleTimeout_frame t sid s (by change Sub _ (changes _ _ _); decide +kernel) rfl⟩
  | openNotProved t sid => exact ⟨_, rfl, execOpenNotProved_frame t sid s (by change Sub _ (changes _ _ _); decide +kernel) rfl⟩
  | blockTimeEnd t src => exact ⟨_, rfl, execBlockTimeEnd_frame t src s (by change Sub _ (changes _ _ _); decide +kernel) rfl⟩
  | transferTimeout t index sub => exact ⟨_, rfl, execTransferTimeout_frame t index sub s (by change Sub _ (changes _ _ _); decide +kernel) rfl⟩
  | snapshotRelease t sid index sub => exact ⟨_, rfl, execSnapshotRelease_frame t sid index sub s (by change Sub _ (changes _ _ _); decide +kernel) rfl⟩
  | usdoRequest t k m => exact ⟨_, rfl, execUsdoRequest_frame t k m s (by change Sub _ (changes _ _ _); decide +kernel) rfl⟩
  | rpdo t k r data => exact ⟨_, rfl, execRpdo_frame t k r data s (by change Sub _ (changes _ _ _); decide +kernel) rfl⟩
  | canSync t k => exact ⟨_, rfl, execSync_frame t k s (by change Sub _ (changes _ _ _); decide +kernel) rfl⟩
  | tpdoEvent t k p timer => exact ⟨_, rfl, execTpdoEvent_frame t k p timer s (by change Sub _ (changes _ _ _); decide +kernel) rfl⟩
  | startRemoteNode t k => exact ⟨_, rfl, execStartRemoteNode_frame t k s (by change Sub _ (changes _ _ _); decide +kernel) rfl⟩
  | enterPreOperational t k => exact ⟨_, rfl, execEnterPreOperational_frame t k s (by change Sub _ (changes _ _ _); decide +kernel) rfl⟩
  | stopRemoteNode t k => exact ⟨_, rfl, execStopRemoteNode_frame t k s (by change Sub _ (changes _ _ _); decide +kernel) rfl⟩
  | resetNode t k => exact ⟨_, rfl, execResetNode_frame t k s (by change Sub _ (changes _ _ _); decide +kernel) rfl⟩
  | resetCommunication t k => exact ⟨_, rfl, execResetCommunication_frame t k s (by change Sub _ (changes _ _ _); decide +kernel) rfl⟩
  | producerHeartbeat t k => exact ⟨_, rfl, execProducerHeartbeat_frame t k s (by change Sub _ (changes _ _ _); decide +kernel) rfl⟩
  | consumerHeartbeatTimeout t k node => exact ⟨_, rfl, execConsumerHeartbeatTimeout_frame t k node s (by change Sub _ (changes _ _ _); decide +kernel) rfl⟩
  | busOff t k => exact ⟨_, rfl, execBusOff_frame t k s (by change Sub _ (changes _ _ _); decide +kernel) rfl⟩
  | gooseMessage t m => exact ⟨_, rfl, execGooseMessage_frame t m s (by change Sub _ (changes _ _ _); decide +kernel) rfl⟩
  | timeAllowedToLive t x_i => exact ⟨_, rfl, execTimeAllowedToLive_frame t x_i s (by change Sub _ (changes _ _ _); decide +kernel) rfl⟩
  | gooseMemberCompare t => exact ⟨_, rfl, execGooseMemberCompare_frame t s (by change Sub _ (changes _ _ _); decide +kernel) rfl⟩
  | gooseRetransmission t g => exact ⟨_, rfl, execGooseRetransmission_frame t g s (by change Sub _ (changes _ _ _); decide +kernel) rfl⟩
  | prpSupervision t p => exact ⟨_, rfl, execPrpSupervision_frame t p s (by change Sub _ (changes _ _ _); decide +kernel) rfl⟩
  | arpRequest t p target sender => exact ⟨_, rfl, execArpRequest_frame t p target sender s (by change Sub _ (changes _ _ _); decide +kernel) rfl⟩
  | icmpEcho t p dst payload => exact ⟨_, rfl, execIcmpEcho_frame t p dst payload s (by change Sub _ (changes _ _ _); decide +kernel) rfl⟩
  | lockHardwareLimits t q => exact ⟨_, rfl, execLockHardwareLimits_frame t q s (by change Sub _ (changes _ _ _); decide +kernel) rfl⟩
  | lockSecurityConfiguration t q => exact ⟨_, rfl, execLockSecurityConfiguration_frame t q s (by change Sub _ (changes _ _ _); decide +kernel) rfl⟩
  | roleKey t q r key => exact ⟨_, rfl, execRoleKey_frame t q r key s (by change Sub _ (changes _ _ _); decide +kernel) rfl⟩
  | firmwareUpdate t q img => exact ⟨_, rfl, execFirmwareUpdate_frame t q img s (by change Sub _ (changes _ _ _); decide +kernel) rfl⟩
  | firmwareUpdateComplete t writeOk => exact ⟨_, rfl, execFirmwareUpdateComplete_frame t writeOk s (by change Sub _ (changes _ _ _); decide +kernel) rfl⟩
  | firmwareConfirm t q => exact ⟨_, rfl, execConfirm_frame t q s (by change Sub _ (changes _ _ _); decide +kernel) rfl⟩
  | standalone t => exact ⟨_, rfl, execStandalone_frame t s (by change Sub _ (changes _ _ _); decide +kernel) rfl⟩
  | twinLinkTrained t digest => exact ⟨_, rfl, execTwinLinkTrained_frame t digest s (by change Sub _ (changes _ _ _); decide +kernel) rfl⟩
  | twinLinkDown t => exact ⟨_, rfl, execTwinLinkDown_frame t s (by change Sub _ (changes _ _ _); decide +kernel) rfl⟩
  | stateCopyReceived t m => exact ⟨_, rfl, execStateCopyReceived_frame t m s (by change Sub _ (changes _ _ _); decide +kernel) rfl⟩
  | twinForwardedWrite t index sub elem data => exact ⟨_, rfl, execTwinForwardedWrite_frame t index sub elem data s (by change Sub _ (changes _ _ _); decide +kernel) rfl⟩
  | lockstepMismatch t => exact ⟨_, rfl, execLockstepMismatch_frame t s (by change Sub _ (changes _ _ _); decide +kernel) rfl⟩
  | nodePowerOn t n id => exact ⟨_, rfl, execNodePowerOn_frame t n id s (by change Sub _ (changes _ _ _); decide +kernel) rfl⟩
  | canFdFrame t k ext ident data => exact ⟨_, rfl, execCanFdFrame_frame t k ext ident data s (by change Sub _ (changes _ _ _); decide +kernel) rfl⟩
  | delayResp t m => exact ⟨_, rfl, execDelayResp_frame t m s (by change Sub _ (changes _ _ _); decide +kernel) rfl⟩
  | gatewayReply t m => exact ⟨_, rfl, execGatewayReply_frame t m s (by change Sub _ (changes _ _ _); decide +kernel) rfl⟩
  | inrushRetry t => exact ⟨_, rfl, execInrushRetry_frame t s (by change Sub _ (changes _ _ _); decide +kernel) rfl⟩

/-- A step takes one command off the queue and leaves the rest of it; the dictionary keeps its canonical form. -/
theorem State.Inv.step {s t : State} {c : Instr} {rest : List Instr} (hs : s.Inv) (hc : s.pending = c :: rest)
    (ht : step s = .next t) : t.Inv := by
  obtain ⟨hcanonical, hqueue⟩ := hs
  obtain ⟨u, hu, hkept⟩ := execKeepsFrame c { s with pending := rest }
  have hexec : Machine.step s = exec c { s with pending := rest } := by rw [Machine.step, hc]
  obtain rfl : u = t := Host.Outcome.next.inj (hu.symm.trans (hexec.symm.trans ht))
  refine ⟨hkept.canonical hcanonical, fun d hd => hqueue d ?_⟩
  rw [hkept.pending] at hd
  exact hc ▸ List.mem_cons_of_mem c hd

/-- Settles O4: an empty queue leaves the state as it is, and a command keeps its frame. -/
theorem stepKeepsInvariant : Obligations.StepKeepsInvariant := by
  unfold Obligations.StepKeepsInvariant
  intro s t hs ht
  cases hc : s.pending with
  | nil =>
    have hidle : step s = .next s := by rw [step, hc]
    exact Host.Outcome.next.inj (hidle.symm.trans ht) ▸ hs
  | cons c rest => exact hs.step hc ht

end Sys2Proof.Machine
end
